-- ==== Sys2Proof/Word.lean ====
section
/-! DEFINITION. The words of the SX-32: bytes, little-endian register words and blocks of user data. -/

namespace Sys2Proof

/-- One byte (spec/00 R11: multi-byte fields are little-endian). -/
abbrev Byte := BitVec 8

/-- A 16-bit field. -/
abbrev W16 := BitVec 16

/-- A 32-bit register (spec/00 R12). -/
abbrev W32 := BitVec 32

/-- A 64-bit field, for example a fencing token (spec/03 R124). -/
abbrev W64 := BitVec 64

/-- The data of one logical block of 4,096 bytes (spec/10 R369); byte 0 is the least significant. -/
abbrev Blk := BitVec 32768

/-- A digest: 64 bytes of SHAKE256 (spec/16 R566); byte 0 is the least significant. -/
abbrev Digest := BitVec 512

/-- An HDA port P0 to P31, which is also a spindle engine number (spec/00 R17). -/
abbrev PortId := Fin 32

/-- An actuator 0 to 63, which is also a format sequencer number (spec/00 R17). -/
abbrev ActId := Fin 64

/-- A Chorus engine C0 to C23 (spec/00 R17). -/
abbrev EngId := Fin 24

/-- An on-die temperature sensor T0 to T15 (spec/00 R17). -/
abbrev SensorId := Fin 16

/-- A side of an HDA: 0 lower stack, 1 upper stack (spec/00 R17). -/
abbrev Side := Fin 2

end Sys2Proof
end

