-- ==== Sys2Proof/Syntax.lean ====
section
/-! DEFINITION. The commands of the SX-32: one constructor of Instr for each row of spec/opcode_table.json,
with the row's operands, and the plain types those operands need. -/

namespace Sys2Proof

/-- A host function, that is, a host port (spec/00 R17). -/
inductive Fn where
  | a
  | b
  deriving DecidableEq, Repr

/-- Who makes a register access: a host port or the service port (spec/14 R525). -/
inductive Req where
  | portA
  | portB
  | service
  deriving DecidableEq, Repr

/-- A crossing that can become stale (spec/14 R536). -/
inductive Crossing where
  | port (p : PortId)
  | pcieA
  | pcieB
  | wings
  deriving DecidableEq, Repr

/-- A 64-byte submission queue entry as the host wrote it, with the bytes that its data pointer names
for a transfer to the controller (spec/12, and the NVMe field names the spec uses). -/
structure SqEntry where
  /-- opcode -/
  opcode : Byte
  /-- command identifier -/
  cid : W16
  /-- namespace identifier -/
  nsid : W32
  /-- PRP entry 1 -/
  prp1 : W64
  /-- PRP entry 2 -/
  prp2 : W64
  cdw10 : W32
  cdw11 : W32
  cdw12 : W32
  cdw13 : W32
  cdw14 : W32
  cdw15 : W32
  /-- bytes at the data pointer, for a transfer to the controller -/
  data : List Byte
  deriving DecidableEq, Repr

/-- The classes of a binding request or media operation (spec/07 Table 7-2). -/
abbrev OpClass := Fin 3

/-- The demodulator's reading of one servo gate (spec/05 R178): the operand of the block that ends the gate. -/
structure ServoReading where
  /-- a sync mark was found in the servo gate -/
  sync : Bool
  /-- sync-mark time, a link time (spec/03 R104) -/
  time : Nat
  /-- Gray-coded track number, decoded -/
  track : Nat
  /-- wedge number -/
  wedge : Nat
  /-- burst amplitudes of readers 0 and 1 -/
  amp0 : Nat
  amp1 : Nat
  /-- burst fractions of readers 0 and 1, in position units (spec/05 R179) -/
  frac0 : Int
  frac1 : Int
  deriving DecidableEq, Repr

/-- A descriptor of a sequencer operation (spec/06 R215): a run of sectors on one track of one head. -/
structure Descriptor where
  /-- true for a write operation -/
  write : Bool
  head : Fin 12
  track : Nat
  zone : Fin 32
  /-- first sector of the run -/
  first : Nat
  /-- sectors of the run -/
  count : Nat
  /-- class of a read (spec/07 Table 7-2) -/
  cls : OpClass
  /-- command context served, none for the controller's own work -/
  ctx : Option Nat
  /-- data to be written, one block for each sector; empty for a read -/
  data : List Blk
  /-- which re-read of recovery the read is, 0 for none (spec/07 R271) -/
  reread : Nat := 0
  deriving DecidableEq, Repr

/-- What a read operation is made for (spec/07 Table 7-2; spec/09 R353; spec/10 R391, R392). -/
inductive ReadFor where
  /-- a host read, or a read made for a host command -/
  | host
  /-- calibration read-back -/
  | calibration
  /-- Understudy's source strips -/
  | understudy
  | resync
  | reallocation
  | surfaceScan
  | cleaning
  | reclamation
  | sanitize
  deriving DecidableEq, Repr

/-- ANA states used (spec/11 Table 11-8). -/
inductive AnaState where
  | optimized
  | nonOptimized
  | inaccessible
  | change
  deriving DecidableEq, Repr

/-- What a temperature correction is applied to (spec/15 Table 15-4). -/
inductive TrimItem where
  | rcOscillator
  | railMonitors
  | sensors
  | coreAndDramPll
  | serdesPlls
  | dram
  deriving DecidableEq, Repr

/-- The regions of spec/13 Table 13-5, in the order of its rows (numbered from 1 in the event's payload,
spec/17 R605), each with what the error hits there. -/
inductive MemRegion where
  | writeBuffer (ns lba : Nat)
  | mapJournal (ns lba : Nat)
  | mapPageClean (ns page : Nat)
  | mapPageDirty (ns page : Nat)
  | mapDirectory (ns page : Nat)
  /-- the placement and group tables, and the calibration working tables of an actuator (one row) -/
  | tables
  | calibration (a : ActId)
  | captureSlot (e : EngId) (i : Nat)
  | rebuildRuns (group stripe run : Nat)
  | readSpill (c : Nat)
  | firmwareData
  | commandContext (c : Nat)
  | linkFifo (p : PortId)
  | servoTables (p : PortId)
  | recorder (seq : Nat)
  | mapCacheLine (set : Fin 4096) (way : Fin 16)
  | patchMemory (a : ActId)
  /-- the sample window of an engine (spec/07 R256, R281) -/
  | sampleWindow (e : EngId)
  /-- a word of a region that a narrow write meets: it is not performed, and its writer is told (spec/13 R504) -/
  | narrowWrite (r : MemRegion)
  deriving DecidableEq, Repr

/-- What a read of memory meets: nothing, an error that it corrects, or an uncorrectable one (spec/13 R505, R509). -/
inductive ReadOutcome where
  | clean
  | corrected
  | uncorrectable
  deriving DecidableEq, Repr

/-- The request that a DMA channel was serving when it halted: that of a command, a source run of a stripe under work, or another that
the channel itself names (spec/13 R509, Table 13-11). -/
inductive DmaReq where
  | other
  | command (c : Nat)
  | run (group stripe run : Nat)
  deriving DecidableEq, Repr

/-- The instructions of the JTAG port (spec/20 R702). -/
inductive JtagInstr where
  | bypass
  | idcode
  | samplePreload
  | extest
  | extestPulse
  | extestTrain
  deriving DecidableEq, Repr

/-- PAIR_STATUS.state, in the order of its codes 0x0 to 0x7 (spec/18 R658). -/
inductive PairState where
  | single
  | forming
  | paired
  | solo
  | stoodDown
  | released
  | rejoining
  | contending
  deriving DecidableEq, Repr

/-- The payload of a HELLO (spec/18 Table 18-3). -/
structure HelloMsg where
  msgSeq : W32
  /-- false Stage Left, true Stage Right -/
  side : Bool
  pairMode : Bool
  state : PairState
  bootCounter : W64
  deviceId : BitVec 128
  /-- zeros when the sender holds none (spec/18 R625) -/
  pairId : BitVec 128
  highestEpoch : BitVec 63
  dirtyLimitMib : Nat
  heartbeatMs : Nat
  highestSeq : W32
  deriving DecidableEq, Repr

/-- The payload of a HEARTBEAT (spec/18 Table 18-3). -/
structure HeartbeatMsg where
  msgSeq : W32
  state : PairState
  epoch : BitVec 63
  owned : W32
  /-- groups served: bit 0 group 1, bit 1 group 2 -/
  groups : BitVec 2
  dirtyBytes : Nat
  deriving DecidableEq, Repr

/-- A JOURNAL record (spec/18 Table 18-3). -/
inductive JournalRec where
  /-- one map-journal record: the entry of a conventional block (spec/13 R501) -/
  | map (ns : Nat) (lba : Nat) (entry : W64)
  /-- one entry of a map directory: a map page and its place (spec/10 R389) -/
  | directory (ns : Nat) (page : Nat) (place : Nat)
  /-- one zone record: write pointer and state of a zone (spec/10 R384) -/
  | zone (ns : Nat) (zone : Nat) (state : Nat) (wp : Nat)
  /-- one group-table record (spec/09 R326): a group, and the namespace it belongs to, 0 when it is freed -/
  | group (number : Nat) (width : Nat) (firstSlot : Nat) (ns : Nat)
  /-- one namespace as the group table holds it (spec/10 R371, R386); size 0 when it is removed -/
  | nspace (nsid : Nat) (nsze : Nat) (zoned narrow ana2 : Bool) (groups : List Nat)
  /-- a namespace attached to a function of the receiver, or detached from it -/
  | attach (nsid : Nat) (f : Fn) (on : Bool)
  /-- one member record (spec/09 R328, R349, R364): a port's member and its state, its failed actuators, its usable bands and the defect
  list, and the port of the member whose place it has taken -/
  | member (p : PortId) (state : Nat) (serial : BitVec 160) (failed0 failed1 : Bool) (bands0 bands1 : Nat) (slips : List (Nat × List Nat))
      (replaces : Option PortId)
  /-- one placement exception (spec/09 R334) -/
  | exception (group : Nat) (stripe : Nat) (chunk : Nat) (p : PortId) (slot : Nat)
  /-- one rebuild checkpoint (spec/09 R362, R365): its position, whether a rebuild is active, whether one was cancelled -/
  | checkpoint (position : Nat) (active held : Bool)
  deriving DecidableEq, Repr

/-- What a block of the sample lane brings besides its bytes: the demodulator's reading of the servo gate that it ends, and whether the
link sample FIFO has no room for it (spec/05 R178; spec/14 R528). -/
structure BlockArrival where
  reading : ServoReading
  full : Bool
  deriving DecidableEq, Repr

/-- The pulses of one event that a crossing has accumulated; for a port the event is named by its counter of spec/03 Table 3-14, from 0x20
on (spec/14 R526, R527). -/
structure Pulses where
  event : Fin 6
  count : Nat
  deriving DecidableEq, Repr

/-- An operation for a sequencer's queue, and what it is made for when it reads (spec/06 R215; spec/07 Table 7-2). -/
structure QueuedOp where
  why : ReadFor
  d : Descriptor
  deriving DecidableEq, Repr

/-- A write encoder and the SRAM address at which its staged data had an uncorrectable error (spec/07 R276; spec/13 R510). -/
structure StagingSite where
  act : ActId
  addr : Nat
  deriving DecidableEq, Repr

/-- A request for a line of the map cache: a write or a read, and what a fill would meet in DRAM (spec/13 R512, R519). -/
structure MapRequest where
  write : Bool
  fill : ReadOutcome
  deriving DecidableEq, Repr

/-- A temperature correction: of what, and whether it needs another VCO band (spec/15 R553). -/
structure Trim where
  item : TrimItem
  band : Bool
  deriving DecidableEq, Repr

/-- What the SRAM patrol reports: whether it corrected its word, and how many words other reads have corrected since its last (spec/13
R505, R506). -/
structure SramFound where
  here : Bool
  elsewhere : Nat
  deriving DecidableEq, Repr

/-- What the DRAM patrol reports: whether it corrected its granule, and the pages of the words that other reads have corrected since its
last (spec/13 R505, R507). -/
structure DramFound where
  here : Bool
  elsewhere : List Nat
  deriving DecidableEq, Repr

/-- Where a DMA channel met the line that halted it, SRAM or DRAM, and the request that it was serving (spec/13 R509). -/
structure HaltedAt where
  sram : Bool
  req : DmaReq
  deriving DecidableEq, Repr

/-- The commands: one constructor for each row of spec/opcode_table.json, whose docstring is the row's rule and
summary. An operand `c` names a command context; `p` a port; `a` an actuator or sequencer; `e` a Chorus engine. -/
inductive Instr where
  /-- R54: AON_PWROK rises and the device takes a power-on reset that clears everything but fuses and SPI NOR.
  -/
  | aonPwrokRise
  /-- R47: SYS_PWROK is asserted and the always-on domain starts timing the 1 ms rail stability window. -/
  | sysPwrokAssert
  /-- R47: Every monitored rail has been in range for 1 ms with SYS_PWROK asserted, so main cold reset is
  released. -/
  | mainColdResetRelease
  /-- R46: SYS_PWROK is deasserted and the device enters main cold reset. -/
  | sysPwrokDeassert
  /-- R48: A monitored rail leaves its range, or a rail is applied out of order, while SYS_PWROK is asserted;
  the device enters main cold reset and sets brownout. -/
  | brownout
  /-- R49: 4,096 consecutive crystal cycles fall within 1 % of the expected period and the always-on domain
  switches from the RC oscillator to the crystal. -/
  | crystalQualified
  /-- R50: The crystal has not qualified 50 ms after AON_PWROK; the device stays in main cold reset and
  reports error 0x01. -/
  | crystalQualifyTimeout
  /-- R51: The core PLL or the DRAM PLL is not locked 1 ms after reset release and bring-up stops with error
  0x02. -/
  | pllLockTimeout
  /-- R77: The boot ROM tests itself and senses the fuses, stopping with error 0x03 on failure. -/
  | bootRomSelfTest (pass : Bool)
  /-- R63: The SRAM or DRAM fill ends; the fill-complete flag is set, or bring-up stops on a check mismatch.
  -/
  | memoryFillDone (mismatch : Bool)
  /-- R67: Training of the eight DRAM channels ends and dram_state reports whether DRAM contents were
  preserved. -/
  | dramTrainingDone (densities : List Nat) (ranks : List (Option Nat))
  /-- R69: A DRAM channel fails training; it is retried up to three times, then bring-up stops with error
  0x06. -/
  | dramChannelTrainingFail (ch : Fin 8)
  /-- R73: A boot image slot has been loaded and its signature checked; the attempts count is raised, or the
  slot is marked bad and the next slot is tried. -/
  | imageLoaded
  /-- R563: Nuhalith derives the attestation key from the PUF seed and compares it with the certified key. -/
  | attestationKeyDerivation
  /-- R575: With the fill complete and the image verified, the boot counter is raised and the control
  processors are released with the watchdog armed. -/
  | processorsRelease
  /-- R574: Firmware loads a module; Nuhalith extends stage 12 with its digest, and a load after boot complete
  is refused. -/
  | moduleLoad (module : List Byte)
  /-- R74: Firmware reaches boot complete and clears its slot's attempts count. -/
  | bootComplete
  /-- R56: Firmware services the watchdog, restarting its 2 s count. -/
  | watchdogService
  /-- R56: The watchdog expires 2 s after its last service and causes a warm device reset. -/
  | watchdogExpiry
  /-- R52: Every 1 s without REFCLK_LINK the controller checks the link PLL again and trains the ports once it
  locks. -/
  | refclkLinkCheck (locked : Bool)
  /-- R412: A PERSTx# input is asserted and its host function is reset. -/
  | perstAssert (f : Fn) (width : Nat)
  /-- R85: A PERSTx# input is deasserted and the function's link and configuration readiness begin. -/
  | perstDeassert (f : Fn)
  /-- R55: PERSTA# and PERSTB# overlap for 100 µs and cause a warm device reset. -/
  | perstOverlap
  /-- R57: PWRFAIL# is deasserted while SYS_PWROK stays asserted; the dump completes, then a warm device reset
  follows. -/
  | pwrfailDeassert
  /-- R57: A warm device reset deferred by the power-fail dump takes place when the dump ends or holdup_ms has
  passed. -/
  | deferredWarmReset
  /-- R85: 100 ms after PERSTx# deassertion and step 4, the function starts completing configuration requests
  successfully. -/
  | configRequestReady (f : Fn)
  /-- R86: The host sets CC.EN to 1; the controller checks CC and AQA and sets CSTS.RDY within 3.0 s, or sets
  CSTS.CFS. -/
  | ccEnSet (f : Fn) (cc : W32) (aqa : W32)
  /-- R413: The host clears CC.EN to 0, which is a host function reset of the function. -/
  | ccEnClear (f : Fn)
  /-- R416: CC.SHN 0b01 stops fetching, completes fetched commands, destages the buffer and sets SHST when the
  buffer is clean. -/
  | normalShutdown (f : Fn)
  /-- R416: CC.SHN 0b10 sets SHST once fetched commands complete, and destage continues afterwards. -/
  | abruptShutdown (f : Fn)
  /-- R412: A Function Level Reset resets that function only, ending its commands without completions. -/
  | functionLevelReset (f : Fn)
  /-- R443: The host moves a function to D3hot; fetching and memory requests stop and completions are held. -/
  | pmcsrD3hot (f : Fn) (pmeEn : Bool) (clearPme : Bool)
  /-- R443: The host returns a function to D0; held completion entries are written, then held MSI-X messages
  are sent. -/
  | pmcsrD0 (f : Fn) (pmeEn : Bool) (clearPme : Bool)
  /-- R81: A start slot frees and the next verified port in ascending order begins its spindle start. -/
  | startSlotGrant
  /-- R82: A starting HDA reaches service with both actuators in track-follow and frees its start slot. -/
  | startSlotFree (p : PortId)
  /-- R82: 15 s pass in a start slot without service; the start is a start failure and the slot frees. -/
  | startSlotTimeout (p : PortId)
  /-- R40: Entry to PS3 destages the whole buffer, releases peer mirrors and commands the spindles down. -/
  | ps3Entry
  /-- R42: Once a port's rotor is at rest and both sides are unloaded, its link domain is held in joint reset
  and its receiver is switched off. -/
  | ps3SampleLaneOff (p : PortId)
  /-- R41: Leaving PS3 retrains the ports from state 2, repeats identity and measurement, and starts the
  spindles. -/
  | ps3Exit
  /-- R42: In PS3, work arrives and DRAM leaves self-refresh within 10 µs to serve it. -/
  | dramSelfRefreshExit
  /-- R42: In PS3, after 1 ms without work, DRAM returns to self-refresh. -/
  | dramSelfRefreshEntry
  /-- R39: The governing limits fall or rise; engines are gated or ungated in order and writer limits change.
  -/
  | powerStateChange
  /-- R39: An engine that held a read session is gated when its session ends. -/
  | engineGated (e : EngId)
  /-- R93: A sample-lane line block arrives; it is corrected, descrambled and routed, or discarded with a
  sequence error. -/
  | lineBlockReceived (p : PortId) (bytes : List Byte) (demod : BlockArrival)
  /-- R100: The controller chooses and sends the next command-lane block by its priority order. -/
  | commandLaneBlockSend (p : PortId)
  /-- R114: A request is unanswered within its timeout; it is sent again with the same tag, and a third
  timeout causes a port reset. -/
  | packetResponseTimeout (p : PortId) (tag : Byte)
  /-- R139: An unsolicited STATUS arrives; temperature, supply, flags, time slip, command-lane counts and
  token are taken from it. -/
  | status (p : PortId)
  /-- R148: A SPIN_EVENT reports a back-EMF zero crossing to the spindle engine. -/
  | spinEvent (p : PortId)
  /-- R161: at_speed is not set again within 15 s after leaving regulation, so the spindle is handled as a
  start failure. -/
  | regulationRecoveryTimeout (p : PortId)
  /-- R151: An expected crossing has not arrived; the engine commutates on prediction, and six misses cause
  sync loss. -/
  | missedCrossing (p : PortId)
  /-- R152: 5 ms pass without a SPINDLE_DRIVE in drive or short-brake mode, so the current one is sent again.
  -/
  | spindleDriveRepeat (p : PortId)
  /-- R162: The start listen window closes and the engine acts on the rotor state it found. -/
  | listenWindowClose (p : PortId)
  /-- R163: A timed short brake ends and the engine listens again or starts the saturation test. -/
  | shortBrakeDone (p : PortId)
  /-- R164: A SPINDLE_SENSE answer arrives and is used in the saturation test. -/
  | spindleSenseResponse (p : PortId)
  /-- R166: 1 ms after a busy answer, a SPINDLE_SENSE is sent again. -/
  | spindleSenseRetry (p : PortId)
  /-- R165: align_ms of step 0 drive ends and forced acceleration starts at step 2. -/
  | alignmentDone (p : PortId)
  /-- R167: The forced-acceleration schedule reaches its next step, or twice handover_rpm without handover. -/
  | forcedStep (p : PortId)
  /-- R169: A spin-down unloads both sides, brakes below 600 rpm, short brakes to rest and sets coast. -/
  | spinDown (p : PortId)
  /-- R171: A SPIN_ALERT reports the spindle supply above 14.5 V with the chopper faulted. -/
  | spinAlert (p : PortId)
  /-- R108: A GATE_ERROR report arrives and the sequencer operation it concerns reacts to its reason. -/
  | gateError (p : PortId)
  /-- R729: A FENCED report shows the companion no longer obeys this controller. -/
  | fenced (p : PortId)
  /-- R131: A FENCE answer arrives and training state 7 passes or fails by ownership. -/
  | fenceResponse (p : PortId)
  /-- R133: An IDENT_READ answer arrives and is checked against the geometry limits. -/
  | identReadResponse (p : PortId)
  /-- R134: A MEASURE_READ answer arrives and its digest, version and identity are recorded. -/
  | measureReadResponse (p : PortId)
  /-- R136: A PERS_READ answer delivers personality bytes, and verification proceeds or fails. -/
  | persReadResponse (p : PortId)
  /-- R136: 1 ms after a busy answer, a PERS_READ is sent again. -/
  | persReadRetry (p : PortId)
  /-- R730: An ACT_PARK answer arrives; an unload completes, or a load succeeds, is retried or leaves the side
  parked. -/
  | actParkResponse (p : PortId)
  /-- R730: 1 ms after a busy answer, an ACT_PARK release for load is sent again. -/
  | actParkRetry (p : PortId) (sd : Side)
  /-- R296: A HEAD_CONFIG answer arrives; on a late or fault status the operation's gates are cancelled and
  retried. -/
  | headConfigResponse (p : PortId)
  /-- R668: An FW_WRITE answer arrives and the next image chunk is sent. -/
  | fwWriteResponse (p : PortId)
  /-- R118: An FW_ACTIVATE answer arrives and the controller reads MEASURE_READ again. -/
  | fwActivateResponse (p : PortId)
  /-- R137: A port's training state meets its condition and training moves to the next state or ends trained.
  -/
  | trainingStatePass (p : PortId)
  /-- R138: A training state exceeds its timeout; the attempt is repeated from state 2 or training ends with a
  fail_reason. -/
  | trainingStateTimeout (p : PortId)
  /-- R142: LNKn_PRSNT# is asserted after absence and debounce and training begin. -/
  | hotAdd (p : PortId)
  /-- R144: LNKn_PRSNT# is deasserted for more than 1 µs; the command lane stops, the port resets and
  train_state becomes 0x0. -/
  | hotRemove (p : PortId) (width : Nat)
  /-- R531: 64 consecutive recovered-clock toggles set PORT_STATUS.clock_present. -/
  | clockPresentSet (p : PortId) (toggles : Nat)
  /-- R531: No toggle for 16 fabric clocks clears clock_present. -/
  | clockPresentClear (p : PortId) (clocks : Nat)
  /-- R535: clock_present is set again and the port's link domain and core half leave reset together. -/
  | jointResetRelease (p : PortId)
  /-- R536: One half of a crossing sees a reset alone; it becomes stale and discards transfers in flight. -/
  | staleCrossing (x : Crossing) (inFlight : Nat)
  /-- R526: A pulse crossing delivers its accumulated count of 1 to 255 to the destination. -/
  | pulseTransfer (x : Crossing) (pulses : Pulses)
  /-- R207: Firmware loads an actuator again after servo loss, or leaves it out of service after a second loss
  within 1 s. -/
  | servoReload (a : ActId)
  /-- R188: The pipeline evaluates an actuator's MA and VCM compensators for a wedge sample and writes the
  ACT_DRIVE. -/
  | compensatorEvaluation (a : ActId)
  /-- R201: A seek exceeds seek_timeout_ms and a new seek to the same target starts. -/
  | seekTimeout (a : ActId)
  /-- R201: A settle exceeds settle_timeout_ms and a new seek to the same target starts. -/
  | settleTimeout (a : ActId)
  /-- R198: The actuator's scheduler gives a new target, which takes effect at the next evaluation. -/
  | newTarget (a : ActId) (head : Fin 12) (track : BitVec 20)
  /-- R215: Firmware places a read or write operation in a sequencer's descriptor queue. -/
  | descriptorQueued (a : ActId) (d : QueuedOp)
  /-- R219: A sequencer's microword hold ends; its nano-word actions take effect and the next address is
  fetched. -/
  | microwordExecute (a : ActId) (parityError : Bool)
  /-- R241: An operation is not back at 0x0000 within (write_retry_max + 2) revolutions, causing fault 0x07.
  -/
  | operationTimeout (a : ActId)
  /-- R241: Firmware re-initialises a halted sequencer once on the newest bank. -/
  | sequencerFaultReinit (a : ActId)
  /-- R230: A sequencer at its idle point selects the new patch bank; the last switch clears
  switch_in_progress. -/
  | bankSwitch (a : ActId)
  /-- R233: During bring-up the NOR patch store is loaded before any sequencer starts, or boot_patch_invalid
  is set. -/
  | bootPatchLoad
  /-- R259: An actuator's scheduler requests a Chorus engine binding when it starts a seek for a read. -/
  | bindingRequest (a : ActId) (cls : Fin 3)
  /-- R264: With no engine free, an engine is taken from an unready request for a ready one. -/
  | engineReclaim
  /-- R261: A background request that has waited background_age is promoted to foreground. -/
  | backgroundPromotion (a : ActId)
  /-- R278: A ready request waits longer than wait_alarm and CHORUS_POOL_EVENTS.wait_alarm is set. -/
  | waitAlarm (a : ActId)
  /-- R254: A sector decodes on the first pass and reaches transfer staging, or is discarded with the
  reservation full. -/
  | sectorDecoded (e : EngId) (sector : Nat) (converged : Bool)
  /-- R271: A recovery step on a captured sector ends, converging or moving to the next step or a re-read. -/
  | recoveryStep (e : EngId) (converged : Bool)
  /-- R270: recovery_budget runs out after a session and the engine becomes free after the current step. -/
  | recoveryBudgetExpiry (e : EngId)
  /-- R281: An engine meets a memory error, ends its session and runs its self-test. -/
  | engineFault (e : EngId)
  /-- R280: An engine self-test ends and the engine enters service or stays offline faulted. -/
  | engineSelfTestDone (e : EngId) (pass : Bool)
  /-- R275: The first 16 KiB of an operation, or the whole operation, has been sent and the encoder reports
  ready. -/
  | encoderReady (a : ActId)
  /-- R276: An uncorrectable error in staged write data stops the encoder and the operation ends with
  report_op 2. -/
  | stagingError (a : StagingSite)
  /-- R24: A read's host transfer stalls for 64 µs and its staged sectors are moved to DRAM. -/
  | readSpill (c : Nat)
  /-- R301: A due head's actuator reaches its idle point under the start conditions and a calibration break
  starts. -/
  | calibrationBreakStart (a : ActId)
  /-- R302: A write or read pass of a break ends and the next pass or the judgement follows. -/
  | calibrationPassDone (a : ActId) (iters : List (Option Nat)) (unwritten : List Nat)
  /-- R306: A break not complete after 250 ms is abandoned and the head stays due. -/
  | breakAbandon (a : ActId)
  /-- R297: Within 60 s of a change, the working tables are written to the actuator's calibration record. -/
  | calibrationRecordWrite (a : ActId) (ok : Bool)
  /-- R297: At port bring-up the newest valid record copy is loaded, or table 0x0005 with heads uncalibrated.
  -/
  | calibrationRecordLoad (a : ActId)
  /-- R299: No valid HDA temperature for 60 s places the head under write hold. -/
  | temperatureStale (p : PortId)
  /-- R312: A foreground read has waited 20 ms for an actuator in a break and is served by reconstruction. -/
  | calReconstruct (c : Nat)
  /-- R313: A calibration deferral runs out and triggered calibrations resume. -/
  | deferralExpiry
  /-- R337: A complete or finished row is read from the buffer, parity is computed and the strips are written
  to their chunks. -/
  | destageRow (ns : Nat) (zone : Nat) (row : Nat)
  /-- R340: A partial or conventional row is written as a media-cache row with parity and leaves the buffer.
  -/
  | mediaCacheRowWrite (ns : Nat) (zone : Nat) (row : Nat)
  /-- R338: A block in a missing or unreadable strip is reconstructed from K other strips of its row. -/
  | reconstructRead (c : Nat) (lba : Nat)
  /-- R27: Every chunk of a row is on media; buffer space and the peer mirror are freed. -/
  | rowWriteDone (ns : Nat) (zone : Nat) (row : Nat)
  /-- R329: An actuator or both actuators of a present member have been out of service for 60 s and fail. -/
  | memberFailed (p : PortId)
  /-- R346: An absent member returns, becomes a member again and its touched chunks are resynchronised. -/
  | memberReturned (p : PortId)
  /-- R350: A chunk is copied to a new target and its new place is committed. -/
  | reallocation (group : Nat) (stripe : Nat) (chunk : Nat)
  /-- R355: Understudy starts at once on a failure, or rebuild_delay after a member becomes absent. -/
  | understudyStart
  /-- R357: A run of 32 source rows reaches DRAM and the stripe engine reconstructs the missing chunks of that
  run. -/
  | sourceRunRead (group : Nat) (stripe : Nat) (run : Nat) (unreadable : List (Nat × Nat))
  /-- R357: Two copies of a stripe's exception record are on media and the stripe is committed. -/
  | stripeCommit (group : Nat) (stripe : Nat) (copies : Nat)
  /-- R362: Every 256 stripes Understudy writes a checkpoint to three members. -/
  | rebuildCheckpoint
  /-- R363: After a reset or takeover Understudy resumes from its newest checkpoint. -/
  | rebuildResume
  /-- R361: No target is eligible; the rebuild blocks and retries when space frees or a member is admitted. -/
  | rebuildBlocked
  /-- R364: Understudy copies a relocated chunk back to its home on a replacement member. -/
  | returnPhaseCopy (group : Nat) (stripe : Nat) (chunk : Nat)
  /-- R354: A surface scan reads a written strip and reallocates where needed. -/
  | surfaceScanStrip (p : PortId) (slot : Nat) (strip : Nat) (neededReread : Bool)
  /-- R348: A full-HDA format writes and reads a band, slipping defective sectors. -/
  | fullHdaFormatBand (p : PortId) (d0 d1 : List Nat)
  /-- R475: A sanitize overwrites one band of a member. -/
  | sanitizeBand (ok : Bool)
  /-- R594: A staging operation programs the next 64 KiB block of the target slot, or verifies and rewrites
  the directory. -/
  | firmwareStagingBlock (ok : Bool)
  /-- R390: Cleaning moves live blocks of the oldest media-cache half-band into backing zones and frees it. -/
  | cleaning
  /-- R392: Reclamation copies live blocks out of the emptiest backing zone and resets it. -/
  | reclamation (ns : Nat)
  /-- R386: A map page absent from DRAM is read from media as a foreground read. -/
  | mapPageRead (ns : Nat) (page : Nat)
  /-- R384: At bring-up an open zone's write pointer is found by reading forward; the zone comes up Closed. -/
  | writePointerRecovery (ns : Nat) (zone : Nat)
  /-- R395: E falls below the dirty data held and the controller destages at full rate. -/
  | effectiveLimitDrop
  /-- R400: PWRFAIL# is asserted; fetching stops, work ends and every actuator writes the dump index and dirty
  data to media. -/
  | powerFailDump (width : Nat)
  /-- R400: The last dump row is on media; the dump-end mark is programmed and spindles coast. -/
  | dumpEndMark (norOk : Bool)
  /-- R401: At bring-up the dump is read back into the buffer as dirty data, or lost blocks are listed. -/
  | dumpRestore (indexReadable : Bool) (missing : List Nat)
  /-- R501: After a preserving warm reset, the map journal is replayed into the map pages. -/
  | mapJournalReplay
  /-- R421: A submission queue tail doorbell write is checked and remembered, or ignored with an Error event.
  -/
  | sqTailDoorbell (f : Fn) (q : Nat) (v : Nat) (shadow : Nat)
  /-- R422: A completion queue head doorbell write is checked and frees entries, or is ignored with an Error
  event. -/
  | cqHeadDoorbell (f : Fn) (q : Nat) (v : Nat) (shadow : Nat)
  /-- R423: A write to the doorbell of a queue that does not exist is ignored and raises an Error event. -/
  | invalidDoorbellRegister (f : Fn) (q : Nat)
  /-- R436: An arbitration turn fetches entries from one queue up to its burst, tail or context limit. -/
  | fetchTurn (f : Fn) (entries : List SqEntry) (shadow : Nat)
  /-- R452: A fetched command is placed in the device-wide admission order with an admission number. -/
  | admission
  /-- R455: The last data byte of a write arrives and the update applies once earlier overlapping updates have
  applied. -/
  | applyPoint (c : Nat) (data : List Blk)
  /-- R425: A completion entry is posted when its queue has room, freeing its context and raising interrupts.
  -/
  | completionPost (f : Fn) (shadow : Nat)
  /-- R440: A vector's coalescing timer reaches TIME and its interrupt condition arises. -/
  | coalescingTimer (f : Fn) (v : Fin 65)
  /-- R442: A vector is unmasked or MSI-X enabled, and one pending message is sent if the condition still
  holds. -/
  | msixUnmask (f : Fn) (v : Option (Fin 65))
  /-- R449: A group's ANA state changes on a function; a notice is raised and the change count rises. -/
  | anaChange (f : Fn) (group : Fin 2) (st : AnaState)
  /-- R458: A Read returns, for each block, the last earlier-admitted update or media data. -/
  | read (c : Nat)
  /-- R27: A Write places its data in the write buffer and completes at buffer speed, on mirror
  acknowledgement, or on media with FUA. -/
  | write (c : Nat)
  /-- R393: Write Zeroes sets the blocks' map entries to unmapped, or writes zeros at a zone's write pointer.
  -/
  | writeZeroes (c : Nat)
  /-- R380: A Zone Append takes its place in the zone in admission order and completes with its first LBA. -/
  | zoneAppend (c : Nat)
  /-- R393: Dataset Management deallocate unmaps conventional blocks; on a zoned namespace it is refused. -/
  | datasetManagement (c : Nat)
  /-- R396: A Flush completes when every earlier-completed write and its map updates are on media. -/
  | flush (c : Nat)
  /-- R379: Zone Management Send Open opens a zone within the open and active limits. -/
  | zoneOpen (c : Nat)
  /-- R379: Zone Management Send Close closes a zone. -/
  | zoneClose (c : Nat)
  /-- R382: A Finish zero-fills and destages the partial row and marks the zone Full. -/
  | zoneFinish (c : Nat)
  /-- R383: A Reset discards the zone's buffered data and releases its media-cache rows and chunks. -/
  | zoneReset (c : Nat)
  /-- R377: Zone Management Send Offline completes with Invalid Zone State Transition. -/
  | zoneOffline (c : Nat)
  /-- R379: Set Zone Descriptor Extension completes with Invalid Field in Command. -/
  | setZoneDescriptorExtension (c : Nat)
  /-- R379: Zone Management Receive Report Zones returns zone descriptors, with the partial-report bit
  supported. -/
  | reportZones (c : Nat)
  /-- R379: Extended Report Zones completes with Invalid Field in Command. -/
  | extendedReportZones (c : Nat)
  /-- R371: Namespace Management create checks the request, allocates whole groups and records them in the
  group table. -/
  | namespaceCreate (c : Nat)
  /-- R375: Namespace Management delete waits for admitted commands, discards dirty data and frees the groups.
  -/
  | namespaceDelete (c : Nat)
  /-- R369: Format NVM with SES 0 resets every zone or deallocates every block of the namespace. -/
  | formatNvm (c : Nat)
  /-- R475: An NVMe Sanitize with the Overwrite action starts a sanitize long operation. -/
  | sanitize (c : Nat)
  /-- R417: Identify returns the controller or namespace data structures with the SX-32 values. -/
  | identify (c : Nat)
  /-- R462: An Asynchronous Event Request is held for a later event, or refused as the seventeenth. -/
  | asynchronousEventRequest (c : Nat)
  /-- R461: Abort completes successfully reporting the command not aborted, with no effect on it. -/
  | abort (c : Nat)
  /-- R419: Create I/O Submission Queue creates a queue or is refused under Table 11-5. -/
  | createIoSubmissionQueue (c : Nat)
  /-- R419: Create I/O Completion Queue creates a queue or is refused under Table 11-5. -/
  | createIoCompletionQueue (c : Nat)
  /-- R463: Delete I/O Submission Queue stops fetching and completes every command of the queue once. -/
  | deleteIoSubmissionQueue (c : Nat)
  /-- R419: Delete I/O Completion Queue deletes the queue, or is refused while a submission queue names it. -/
  | deleteIoCompletionQueue (c : Nat)
  /-- R427: Doorbell Buffer Config sets the shadow doorbell and event-index pages for I/O queues. -/
  | doorbellBufferConfig (c : Nat)
  /-- R470: Queue Resume returns a frozen queue to running when the count matches and its log entry was read.
  -/
  | queueResume (c : Nat)
  /-- R487: Get Features returns the current value of a feature. -/
  | getFeatures (c : Nat)
  /-- R436: Set Features Arbitration sets the weights and burst from the next turn. -/
  | setFeaturesArbitration (c : Nat)
  /-- R445: Set Features Power Management selects the function's power state; the lower-numbered selection
  governs. -/
  | setFeaturesPowerManagement (c : Nat)
  /-- R550: Set Features Temperature Threshold sets the over- or under-temperature threshold. -/
  | setFeaturesTemperatureThreshold (c : Nat)
  /-- R397: Set Features Volatile Write Cache with WCE 0 completes once the buffer is clean; later writes act
  as FUA. -/
  | setFeaturesVolatileWriteCache (c : Nat)
  /-- R418: Set Features Number of Queues returns 63 for both counts. -/
  | setFeaturesNumberOfQueues (c : Nat)
  /-- R440: Set Features Interrupt Coalescing sets THR and TIME for the function. -/
  | setFeaturesInterruptCoalescing (c : Nat)
  /-- R440: Set Features Interrupt Vector Configuration sets coalescing disable per vector. -/
  | setFeaturesInterruptVectorConfig (c : Nat)
  /-- R449: Set Features Asynchronous Event Configuration enables notices. -/
  | setFeaturesAsyncEventConfig (c : Nat)
  /-- R471: Set Features 0xC0 enables or disables Freeze-on-Error on the function. -/
  | setFeaturesFreezeOnError (c : Nat)
  /-- R546: Set Features 0xC1 sets the Throttle Grace for the next timer start. -/
  | setFeaturesThrottleGrace (c : Nat)
  /-- R263: Set Features 0xC2 sets the Rebuild Share from the next grant. -/
  | setFeaturesRebuildShare (c : Nat)
  /-- R488: Set Features 0xC3 sets the Concurrent Write Limit for the next actuator that starts writing. -/
  | setFeaturesConcurrentWriteLimit (c : Nat)
  /-- R298: Set Features 0xC4 sets the Calibration Threshold. -/
  | setFeaturesCalibrationThreshold (c : Nat)
  /-- R472: Get Log Page 0x01 returns the Error Information entries newest first, enabling Queue Resume. -/
  | getLogPageErrorInformation (c : Nat)
  /-- R550: Get Log Page 0x02 returns SMART / Health Information with temperatures and the Critical Warning.
  -/
  | getLogPageSmartHealth (c : Nat)
  /-- R369: Get Log Page Commands Supported and Effects reports the supported commands per command set. -/
  | getLogPageCommandsSupported (c : Nat)
  /-- R450: Get Log Page 0x0C returns the ANA groups, with the RGO bit supported. -/
  | getLogPageAna (c : Nat)
  /-- R589: Get Log Page 0xC0 returns a Playbill and its addenda, or the directory. -/
  | getLogPagePlaybill (c : Nat)
  /-- R613: Get Log Page 0xC1 returns the header and the valid ring records. -/
  | getLogPagePromptBook (c : Nat)
  /-- R489: Get Log Page 0xC2 returns the 512-byte Sled Health page. -/
  | getLogPageSledHealth (c : Nat)
  /-- R489: Get Log Page 0xC3 returns the 8,192-byte Port Inventory page. -/
  | getLogPagePortInventory (c : Nat)
  /-- R476: Long Operation action 0 starts an operation of a kind with a new handle, within the 64 active
  places. -/
  | longOperationStart (c : Nat)
  /-- R478: Long Operation action 1 suspends an operation at its next suspend point. -/
  | longOperationSuspend (c : Nat)
  /-- R478: Long Operation action 2 resumes a suspended operation. -/
  | longOperationResume (c : Nat)
  /-- R478: Long Operation action 3 cancels an operation as its kind states. -/
  | longOperationCancel (c : Nat)
  /-- R478: Long Operation action 4 returns the 64-byte entry of one handle. -/
  | longOperationQuery (c : Nat)
  /-- R478: Long Operation action 5 returns the entries of every active and kept operation. -/
  | longOperationList (c : Nat)
  /-- R366: Long Operation action 6 sets rebuild_delay and spare_alarm in the configuration store. -/
  | setRebuildParameters (c : Nat)
  /-- R482: Port Control action 0 returns the port's PORT, SPIN and SERVO registers, checking clock presence.
  -/
  | portControlQuery (c : Nat)
  /-- R156: Port Control action 1 sets the spindle speed level, starting, retargeting or spinning down. -/
  | setSpeedLevel (c : Nat)
  /-- R140: Port Control action 2 resets the port. -/
  | portControlPortReset (c : Nat)
  /-- R141: Port Control action 3 clears the port's failed mark, then trains the port if present. -/
  | clearFailedMark (c : Nat)
  /-- R172: Port Control action 4 clears the overvoltage latch and leaves the spindle in coast. -/
  | clearSpindleFault (c : Nat)
  /-- R483: Port Control action 5 ends the port's operations, unloads both sides and optionally spins down. -/
  | removeFromService (c : Nat)
  /-- R483: Port Control action 6 returns a removed port to service. -/
  | returnToService (c : Nat)
  /-- R207: Port Control action 7 returns an actuator that left service after servo loss. -/
  | returnActuatorToService (c : Nat)
  /-- R317: Calibration Control action 0 returns 32 bytes per head of calibration state. -/
  | calibrationControlQuery (c : Nat)
  /-- R317: Calibration Control action 1 runs one break on a head's cal_zone and completes with its result. -/
  | calibrateOneHead (c : Nat)
  /-- R313: Calibration Control action 2 defers triggered calibrations for a number of seconds, or ends a
  deferral. -/
  | calibrationDefer (c : Nat)
  /-- R316: Calibration Control action 3 sets cal_spacing, cal_sled_max and cal_reconstruct. -/
  | calibrationSetParameters (c : Nat)
  /-- R317: Calibration Control action 4 restores a head's entries from table 0x0005 and marks it
  uncalibrated. -/
  | calibrationRestoreHead (c : Nat)
  /-- R486: Engine Control action 0 returns the pool parameters. -/
  | queryPoolParameters (c : Nat)
  /-- R279: Engine Control action 1 takes an engine offline, ending its session and keeping its captures. -/
  | engineOffline (c : Nat)
  /-- R486: Engine Control action 2 runs an offline engine's self-test. -/
  | engineSelfTest (c : Nat) (pass : Bool)
  /-- R486: Engine Control action 3 self-tests an engine and returns it to service if it passes. -/
  | engineToService (c : Nat) (pass : Bool)
  /-- R278: Engine Control action 4 sets the pool parameters and stores them. -/
  | setPoolParameters (c : Nat)
  /-- R667: Engine Control action 5 takes a sequencer offline and its actuator out of service. -/
  | sequencerOffline (c : Nat)
  /-- R242: Engine Control action 6 runs an offline sequencer's self-test. -/
  | sequencerSelfTest (c : Nat) (pass : Bool)
  /-- R486: Engine Control action 7 self-tests and re-initialises a sequencer and returns it to service. -/
  | sequencerReinitialise (c : Nat) (pass : Bool)
  /-- R486: Engine Control action 8 sets gate_ahead and write_retry_max from the next idle point. -/
  | setSequencerParameters (c : Nat)
  /-- R228: Patch Load action 0 checks an image from a host buffer and loads it into the idle bank. -/
  | patchLoadFromHost (c : Nat)
  /-- R228: Patch Load action 1 loads an image from the host and stores it in the NOR patch store. -/
  | patchLoadAndStore (c : Nat) (norOk : Bool)
  /-- R228: Patch Load action 2 loads the image held in the NOR patch store. -/
  | patchLoadFromNor (c : Nat)
  /-- R229: Patch Load action 3 loads an empty bank. -/
  | patchClear (c : Nat)
  /-- R520: Map Cache Control action 0 returns MCACHE_STATUS. -/
  | mapCacheQuery (c : Nat)
  /-- R515: Map Cache Control action 1 enables the cache, only after an invalidate-all. -/
  | mapCacheEnable (c : Nat)
  /-- R514: Map Cache Control action 2 writes back dirty lines and stops using the cache. -/
  | mapCacheDisable (c : Nat)
  /-- R516: Map Cache Control action 3 writes back, invalidates every line and unlocks every way. -/
  | invalidateAll (c : Nat)
  /-- R516: Map Cache Control action 4 writes back every dirty line. -/
  | cleanAll (c : Nat)
  /-- R517: Map Cache Control action 5 fills a range's map lines into the named ways. -/
  | preload (c : Nat)
  /-- R518: Map Cache Control action 6 locks preloaded ways. -/
  | lock (c : Nat)
  /-- R518: Map Cache Control action 7 unlocks ways. -/
  | unlock (c : Nat)
  /-- R516: Map Cache Control action 8 writes back and invalidates the lines of a range. -/
  | invalidateRange (c : Nat)
  /-- R512: A map-cache miss writes back a dirty victim, then fills and installs the line. -/
  | mapCacheMiss (addr : Nat) (write : MapRequest)
  /-- R484: Recorder Read returns whole records from the ring or the NOR store. -/
  | recorderRead (c : Nat)
  /-- R616: Recorder Clear checks a signed token and removes records up to clear_to, leaving a 0x8002 chain.
  -/
  | recorderClear (c : Nat)
  /-- R559: Thermal Control action 0 returns the THERM block. -/
  | thermalControlQuery (c : Nat)
  /-- R544: Thermal Control action 1 excludes a broken sensor from threshold tests. -/
  | excludeSensor (c : Nat)
  /-- R552: Thermal Control action 2 sets hda_warn and hda_stop. -/
  | setHdaThresholds (c : Nat)
  /-- R657: Pair Control action 0 returns the PAIR block. -/
  | pairControlQuery (c : Nat)
  /-- R653: Pair Control action 1 moves the named ports to the peer. -/
  | handOverPorts (c : Nat)
  /-- R654: Pair Control action 2 hands over all ports, groups and the coordinator role and enters released.
  -/
  | pairRelease (c : Nat)
  /-- R655: Pair Control action 3 rejoins a stood-down or released controller by SYNC. -/
  | rejoin (c : Nat)
  /-- R657: Pair Control action 4 sets heartbeat_ms from the next HEARTBEAT. -/
  | setHeartbeatMs (c : Nat)
  /-- R592: Firmware Image Download writes image bytes into the function's download buffer. -/
  | firmwareImageDownload (c : Nat)
  /-- R593: Firmware Commit CA 0 checks the image and starts a staging operation. -/
  | firmwareCommitStage (c : Nat)
  /-- R593: Firmware Commit CA 1 stages the image and makes the slot preferred. -/
  | firmwareCommitStagePrefer (c : Nat)
  /-- R593: Firmware Commit CA 2 makes a valid slot preferred without staging. -/
  | firmwareCommitPrefer (c : Nat)
  /-- R590: Security Receive SPSP 0x0000 returns the Playbill directory. -/
  | securityReceiveDirectory (c : Nat)
  /-- R590: Security Receive SPSP 0x0001–0x0100 returns a Playbill with its addenda. -/
  | securityReceivePlaybill (c : Nat)
  /-- R590: Security Receive SPSP 0x0200 returns the device certificate. -/
  | securityReceiveCertificate (c : Nat)
  /-- R590: Security Receive SPSP 0x0201 returns the stage registers and live patch digest. -/
  | securityReceiveStages (c : Nat)
  /-- R590: Security Send SPSP 0x0300 stores a nonce for the function's next quote. -/
  | securitySendNonce (c : Nat)
  /-- R591: Security Receive SPSP 0x0300 signs and returns a quote over an unused nonce. -/
  | quote (c : Nat)
  /-- R569: Security Send SPSP 0x0400 checks a key manifest and writes it to the copy not in use. -/
  | keyManifestUpdate (c : Nat) (norOk : Bool)
  /-- R577: When every port has ended training and been measured, Nuhalith seals and signs the Playbill. -/
  | playbillSeal (norOk : Bool)
  /-- R581: After sealing, a new companion measurement or patch load is recorded in a signed addendum. -/
  | addendum (norOk : Bool)
  /-- R587: Every 10 s a record whose NOR programming failed is programmed again. -/
  | playbillNorRetry (norOk : Bool)
  /-- R586: While idle the controller erases the next Playbill slot and addendum ring sector. -/
  | norPreErase
  /-- R601: The recorder takes an event and writes a new ring record or folds it into the open one. -/
  | eventRecord (i : Nat)
  /-- R602: 1 s after it was written, the open record closes. -/
  | recordClose
  /-- R604: A 1 ms window with dropped events ends and a 0x8003 record gives the count. -/
  | dropWindowEnd
  /-- R609: A closed record is programmed into the NOR store, read back and compared. -/
  | storeProgram (ok : Bool)
  /-- R609: While idle the controller erases a store sector ahead of the write pointer. -/
  | storeErase
  /-- R617: After a clear, cleared records are erased or marked not valid in the store. -/
  | clearRemoval
  /-- R732: At step 11 the held events and the boot record are written and the recorder starts taking events.
  -/
  | heldEventsWrite
  /-- R540: Each 1 ms a sensor is converted, filtered and tested against thresholds, rates and breakage. -/
  | sensorConversion (t : SensorId) (count : W32) (reading : Int)
  /-- R545: Each further 1 s that a rise above 8 °C persists raises the step by one. -/
  | rateRisePersist (t : SensorId)
  /-- R546: The grace timer expires with a throttle request present and the step is raised by one, to at most
  2. -/
  | graceExpiry
  /-- R547: 10 s below 110 °C without request or critical condition lower the step by one. -/
  | stepRelease
  /-- R556: 30 s below 100 °C with SYS_PWROK asserted deasserts THERMTRIP# and starts a main cold bring-up. -/
  | thermalRestart
  /-- R553: On its interval a temperature correction is applied to an oscillator, reference or PLL. -/
  | compensationTrim (item : Trim)
  /-- R493: Every 16 ms MR4 of each rank is read and the refresh rate set, with a DRAM thermal event when hot.
  -/
  | mr4Poll (ch : Fin 8) (rank : Fin 2) (rate : Fin 8) (hot : Bool)
  /-- R494: Every 256 ms a channel runs ZQ calibration. -/
  | zqCalibration (ch : Fin 8)
  /-- R494: Every 64 ms a channel reads its DQS oscillator and adjusts write DQ delays. -/
  | dqsOscillatorRead (ch : Fin 8) (count : W16)
  /-- R506: The SRAM patrol reads and corrects the next words of its continuous pass. -/
  | sramScrub (corrected : SramFound)
  /-- R507: The DRAM patrol reads and corrects the next granule of its scrub_hours pass. -/
  | dramScrub (corrected : DramFound)
  /-- R508: A DRAM page corrected 16 times in a pass is copied to a spare page and retired. -/
  | pageRetire (page : Nat)
  /-- R509: A read finds an uncorrectable error, which is handled by region under Table 13-5. -/
  | uncorrectableError (r : MemRegion) (dram : Bool) (addr : Nat)
  /-- R509: An instruction fetch trap reloads the firmware page from NOR and checks its digest. -/
  | instructionFetchTrap (page : Nat) (ok : Bool)
  /-- R509: A DMA channel halts on an uncorrectable line, records it and ends its request; firmware restarts
  it. -/
  | dmaHalt (ch : Byte) (addr : Nat) (sram : HaltedAt)
  /-- R524: A completed read of an RC field returns it and clears it by subtracting the snapshot. -/
  | rcRegisterRead (q : Req) (off : Nat)
  /-- R525: A read of a _LO register captures the _HI value for the same requester. -/
  | loRegisterRead (q : Req) (off : Nat)
  /-- R525: A read of a _HI register returns the captured value after a _LO read, else the current value. -/
  | hiRegisterRead (q : Req) (off : Nat)
  /-- R409: A write to the status window clears RW1C fields and is otherwise ignored. -/
  | statusWindowWrite (q : Req) (off : Nat) (v : W32)
  /-- R638: Wings trains both directions through states 2–5, retried every 1 s while pair_mode is 1. -/
  | wingsTraining (ok : Bool)
  /-- R639: Wings resets both directions and their crossings and retrains. -/
  | wingsLinkReset
  /-- R639: A RETRY is unanswered for 100 µs and a Wings link reset follows. -/
  | retryUnanswered
  /-- R625: A HELLO arrives; pair identity, epoch and dirty_limit are exchanged and the pair forms or rejoins.
  -/
  | hello (m : HelloMsg)
  /-- R644: Every heartbeat_ms / 10 the controller sends a HEARTBEAT. -/
  | heartbeatSend
  /-- R644: A HEARTBEAT arrives and marks the peer alive with its state and ownership. -/
  | heartbeat (m : HeartbeatMsg)
  /-- R645: No HEARTBEAT for heartbeat_ms; Stage Left contends at once and Stage Right after a further half
  period. -/
  | peerNotAlive
  /-- R645: No HELLO within 30 s of bring-up port training and the controller contends. -/
  | formingTimeout
  /-- R646: The controller reads companion tokens, presents a raised epoch by FENCE and becomes solo or stands
  down. -/
  | contend (refused : Option PortId)
  /-- R648: heartbeat_ms after becoming solo, withheld write completions are posted. -/
  | settlingEnd
  /-- R641: A MIRROR message is written into the peer-mirror region and acknowledged. -/
  | mirror (seq : W32) (ns : Nat) (adm : W32) (lba : Nat) (data : List Blk)
  /-- R641: A JOURNAL record is written into the peer-mirror region and acknowledged. -/
  | journal (seq : W32) (r : JournalRec)
  /-- R637: An ACK releases held messages and lets mirrored writes complete. -/
  | ack (seq : W32)
  /-- R642: A RELEASE frees the mirror of rows now on media. -/
  | release (seq : W32) (ns : Nat) (lba : Nat) (nlb : Nat)
  /-- R628: A forwarded command arrives at the serving controller and is admitted there. -/
  | forward (seq : W32) (f : Fn) (sqid : Nat) (e : SqEntry)
  /-- R628: The completion of a forwarded command arrives and is posted on the originating queue. -/
  | forwardCpl (seq : W32) (c : Nat) (sct : Nat) (sc : Nat) (dw0 : W32) (dw1 : W32) (bytes : List Byte) (data : List Blk)
  /-- R626: A media request for a port this controller owns is run on its actuators in the carried class. -/
  | mediaReq (seq : W32) (a : ActId) (d : Descriptor)
  /-- R626: Decoded sectors of a media request arrive from the owner. -/
  | mediaData (seq : W32) (req : W32) (sector : Nat) (data : List Blk)
  /-- R626: The result of a media request arrives from the owner. -/
  | mediaDone (seq : W32) (req : W32) (ok : Bool)
  /-- R653: A HANDOVER gives the peer the ports with a new epoch, and the peer fences, catches and loads them.
  -/
  | handover (seq : W32) (ports : W32) (groups : BitVec 2) (epoch : BitVec 63)
  /-- R636: A RETRY makes the sender resend from the named block. -/
  | retry (block : BitVec 13)
  /-- R655: A SYNC message copies dirty buffer and journal into the rejoining controller's mirror. -/
  | sync (seq : W32) (ns : Nat) (lba : Nat) (data : List Blk) (last : Bool)
  /-- R678: The service packet WINDOW_READ returns bytes of the status window. -/
  | windowRead (tag : Byte) (off : Nat) (len : Nat)
  /-- R678: The service packet WINDOW_WRITE clears RW1C fields of the status window. -/
  | windowWrite (tag : Byte) (off : Nat) (v : W32)
  /-- R678: The service packet CONFIG_READ returns a configuration parameter. -/
  | configRead (tag : Byte) (id : Byte)
  /-- R681: The service packet CONFIG_WRITE checks and stores a configuration parameter. -/
  | configWrite (tag : Byte) (id : Byte) (v : W64)
  /-- R679: The service packet DEVICE_RESET is answered and a warm device reset follows. -/
  | deviceReset (tag : Byte)
  /-- R678: The service packet BUFFER_WRITE writes data into the service buffer. -/
  | bufferWrite (tag : Byte) (off : Nat) (data : List Byte)
  /-- R678: The service packet RECOVERY_WRITE writes recovery image bytes while the boot ROM waits. -/
  | recoveryWrite (tag : Byte) (off : Nat) (data : List Byte)
  /-- R75: The service packet RECOVERY_RUN verifies and runs the recovery image from SRAM. -/
  | recoveryRun (tag : Byte) (len : Nat)
  /-- R680: The service packet ADMIN carries one allowed admin command and returns its result. -/
  | admin (tag : Byte) (e : SqEntry)
  /-- R668: The service packet COMP_FW unloads a port and updates, activates and measures its companion
  firmware. -/
  | compFw (tag : Byte) (p : PortId) (ret : Bool) (force : Bool) (len : Nat) (digest : Digest)
  /-- R669: 40 s after the unload without an FW_ACTIVATE answer, the companion update is abandoned. -/
  | compFwAbandon
  /-- R677: An NVMe-MI basic management command returns health in any state. -/
  | nvmeMiBasicManagement (code : Byte)
  /-- R676: The MCTP control command Set Endpoint ID sets the endpoint ID. -/
  | setEndpointId (eid : Byte)
  /-- R676: The MCTP control command Get Endpoint ID returns the endpoint ID. -/
  | getEndpointId
  /-- R676: The MCTP control command Get Endpoint UUID returns the subsystem UUID. -/
  | getEndpointUuid
  /-- R676: The MCTP control command Get MCTP Version Support returns the versions. -/
  | getMctpVersionSupport
  /-- R676: The MCTP control command Get Message Type Support returns types 0x00 and 0x7E. -/
  | getMessageTypeSupport
  /-- R676: The MCTP control command Get Vendor Defined Message Support returns the PCI vendor ID. -/
  | getVendorDefinedMessageSupport
  /-- R723: SMB_SCL is held low for 25–35 ms and the device releases the bus. -/
  | smbusClockLowTimeout (lowMs : Nat)
  /-- R712: AON_PWROK falls or VDD_AON drops below 0.60 V and the always-on domain is held in power-on reset,
  losing the ring and all volatile state. -/
  | aonPwrokDeassert
  /-- R701: TEST_EN changes level; while it reads 1 the device stays in main cold reset, with the always-on
  domain and service port running. -/
  | testEnChange (level : Bool)
  /-- R702: An instruction is loaded through the JTAG port, and while EXTEST is loaded the controller is held
  in main cold reset. -/
  | jtagInstructionLoad (i : JtagInstr)
  /-- R457: A PCIe error while moving a command's data ends the command with Data Transfer Error, and the
  update ends without applying. -/
  | dataTransferError (c : Nat)
  /-- R369: Namespace Attachment attaches a namespace to Port A, Port B or both, or detaches it. -/
  | namespaceAttachment (c : Nat)
  /-- R636: A Wings line block arrives: it is corrected, checked for a seq gap, and either counted or
  discarded with a RETRY sent. -/
  | wingsBlockReceived (seq : BitVec 13) (errors : List Nat) (fill : Bool)
  deriving DecidableEq, Repr

end Sys2Proof
end

