-- ==== Sys2Proof/Decode.lean ====
section
/-! DEFINITION. Decoding of table words. The rows of spec/opcode_table.json give no bits, so no word spells a
command. -/

namespace Sys2Proof

/-- The command a word spells: none, since the table gives its rows no bits (log 1). -/
def decodeTableWord (_nbits _w : Nat) : Option Instr := none

end Sys2Proof
end

