-- ==== Sys2Proof/Config.lean ====
section
/-! DEFINITION. What one SX-32 fixes: limits and times that the spec states, and, as constants without a
body, what the spec leaves to a fuse, to a mask ROM, to another standard or open. -/

namespace Sys2Proof.Config

/-! ## Times, in nanoseconds -/

/-- One microsecond. -/
def us : Nat := 1000
/-- One millisecond. -/
def ms : Nat := 1000000
/-- One second. -/
def sec : Nat := 1000000000

/-- What an idle step adds to the clock: 1 µs, the unit of the recorder's uptime (DESIGN CHOICE, log 2). -/
def tick : Nat := us

/-! ## Opaque: other standards (spec/00 R18, spec/16 R565, R566) -/

/-- SHAKE256 of a byte string, 64 bytes of output (FIPS 202). Uninterpreted. -/
opaque shake256 : List Byte → Digest

/-- Whether ML-DSA-65 accepts a signature: public key, context string, message, signature (FIPS 204). Uninterpreted. -/
opaque mldsaVerify : List Byte → List Byte → List Byte → List Byte → Bool

/-- The ML-DSA-65 signature (3,309 bytes on the device) of a message under a seed and a context string. Uninterpreted. -/
opaque mldsaSign : List Byte → List Byte → List Byte → List Byte

/-- The ML-DSA-65 public key that FIPS 204 derives from a 32-byte seed. Uninterpreted. -/
opaque mldsaPublicKey : List Byte → List Byte

/-! ## Opaque: fuses and mask ROM -/

/-- The fused lot code, wafer number (counted from 1), die column and row, and test date of Table 16-2 (spec/16). -/
opaque fusedLot : BitVec 56
opaque fusedWafer : Fin 25
opaque fusedDieX : BitVec 8
opaque fusedDieY : BitVec 8
opaque fusedDate : BitVec 16

/-- The fused device identity, 16 bytes, byte 0 the least significant: layout revision 1, reserved bytes 0 (spec/16 Table 16-2). -/
def deviceIdentity : BitVec 128 :=
  BitVec.ofNat 128 (fusedLot.toNat + 2 ^ 56 * (fusedWafer.val + 1) + 2 ^ 64 * fusedDieX.toNat + 2 ^ 72 * fusedDieY.toNat +
    2 ^ 80 * fusedDate.toNat + 2 ^ 96 * 1)

/-- Version and manufacturer of the JTAG identification register, which the spec does not name (log 158). -/
opaque jtagVersion : BitVec 4
opaque jtagMaker : BitVec 11

/-- The JTAG identification register: the part number 0x5832 in bits [27:12] (spec/20 R702); bit 0 is 1 (PRESUMED, log 158). -/
def jtagIdcode : BitVec 32 := jtagVersion ++ (0x5832 : BitVec 16) ++ jtagMaker ++ (1 : BitVec 1)

/-- The four fused firmware key digests (spec/16 Table 16-1). -/
opaque firmwareKeyDigest : Fin 4 → Digest

/-- The fused owner key digest (spec/16 Table 16-1). -/
opaque ownerKeyDigest : Digest

/-- The PUF helper data, error-correction data that only Nuhalith reads (spec/16 Table 16-1). -/
opaque pufHelper : Vector Byte 2048

/-- What Nuhalith reconstructs from the physically unclonable seed with the helper data (spec/16 R562), 32 bytes. -/
opaque pufReconstruct : Vector Byte 2048 → List Byte

/-- The secret s of this device. -/
def pufSecret : List Byte := pufReconstruct pufHelper

/-- What the one-time-programmable certificate array holds. -/
opaque certificateArray : List Byte

/-- The device certificate, of up to 8,192 bytes; empty when blank (spec/16 R561, R563). -/
def certificate : List Byte := certificateArray.take 8192

/-- The attestation public key that the certificate names (spec/16 R564). -/
opaque certifiedKey : List Byte

/-- The boot ROM's own version (spec/16 R571 check 1). -/
opaque romVersion : Nat

/-- The bytes stage 1 measures: the boot ROM (spec/16 Table 16-6). -/
opaque bootRom : List Byte

/-- The bytes stage 2 measures: the fuse block without the helper data (spec/16 Table 16-6). -/
opaque fuseBlock : List Byte

/-- ROM microwords of the sequencers (spec/06 Table 6-1). -/
opaque romMicro : Nat → W32

/-- ROM nano-words of the sequencers (spec/06 Table 6-1). -/
opaque romNano : Nat → BitVec 128

/-- SEQ_VERSION.rom_version (spec/06 Table 6-15: the ROM value). -/
opaque seqRomVersion : W16

/-- The 4,050 parity bits of the sector code over the address bits and the user bits (spec/07 R251, R252: the code's matrix is not
given). Uninterpreted. -/
opaque sectorParity : W64 → Blk → BitVec 4050

/-- The order in which the user bits and the parity bits lie on media (spec/07 Table 7-1 does not give it). Uninterpreted. -/
opaque codeword : Blk → BitVec 4050 → BitVec 36818

/-- The bits of a preamble (0), postamble (1) or resync (2) field of a length (spec/06 Table 6-13 gives lengths only).
Uninterpreted. -/
opaque fieldPattern : Nat → Nat → Nat

/-- The PCI Vendor ID reported in configuration space (spec/00, spec/11 Table 11-1). -/
opaque vendorId : W16

/-- The PCI Subsystem Vendor ID reported in configuration space (spec/11 Table 11-1 gives no value). -/
opaque subsystemVendorId : W16

/-- The 4,096 bytes of an Identify structure (by its CNS and NSID) before the values that the spec states are put
into them: what the NVMe documents give and this spec does not restate (spec/11 R415). Uninterpreted. -/
opaque identifyBase : Nat → List Byte

/-! ## Opaque: choices the spec leaves open -/

/-- Rounding where the spec states none: whether the quotient num / den, not a whole number, is taken up to the
next integer (log 7). -/
opaque roundUp : Int → Nat → Bool

/-- Whether a PERSTx# level in the open band of spec/21 R725 (longer than 1 µs, shorter than 100 µs) is recognised;
the argument is the model's free-value counter. -/
opaque perstBand : Nat → Bool

/-- Whether a PWRFAIL# pulse in the open band of spec/21 R725 (200 ns to 1 µs) is recognised. -/
opaque pwrfailBand : Nat → Bool

/-- Whether a clock low of the service port in the open band of spec/21 R723 (25 to 35 ms) is taken as its timeout. -/
opaque smbBand : Nat → Bool

/-- The MCTP versions that the endpoint reports, 4 bytes each (spec/19 R676 names the command, not the versions). -/
opaque mctpVersions : List Byte

/-- A byte of a response that the spec leaves open; the argument is the model's free-value counter. -/
opaque freeByte : Nat → Byte

/-- The remaining-time estimate of a long operation (spec/12 Table 12-6 gives no formula). -/
opaque remainingEstimate : Nat → Nat → W32

/-- The result field of a cancelled long operation, by kind (spec/12 Table 12-6 names no status for that end). -/
opaque cancelResult : Nat → W16

/-- The result field of a full-HDA format whose HDA is removed, by kind (spec/19 Table 19-12 names no status for that end). -/
opaque failResult : Nat → W16

/-- Which of two segments equally far from the middle one a calibration takes when their figures are equal (spec/08 R304
states no order for them): true for the upper. The argument is the pass. -/
opaque segmentTie : Nat → Bool

/-- The Do Not Retry bit of an error completion, by status code type and code: spec/02 R88 states it for Namespace
Not Ready only. -/
opaque dnr : Nat → Nat → Bool

/-- Whether the entry to self-refresh completes at a warm device reset over valid DRAM contents (spec/02 R61); the argument is the
model's free-value counter. -/
opaque selfRefreshEntered : Nat → Bool

/-- Whether an HDA of the peer has entered service or failed at bring-up (spec/02 R89), by port and instant: the spec gives no message
that tells it. -/
opaque peerSettled : Nat → Nat → Bool

/-- The write DQ delay of a DRAM channel after its oscillator has been read: from the channel, the count, and the delay before (spec/13
R494 gives neither its units nor the adjustment). -/
opaque writeDqDelay : Nat → BitVec 16 → BitVec 16 → BitVec 16

/-- Which check burst a further one displaces (spec/13 R497 names no order); the argument is the model's free-value counter. -/
opaque checkVictim : Nat → Nat

/-- Whether the SFDP of the SPI NOR device confirms quad-output reads (spec/02 R71). -/
opaque norQuad : Bool

/-- A calibration record, or a record of the system bands, as bytes; their layout is left open (spec/08 R297, spec/09 R326; log 111). -/
opaque recordBytes : List Int → List Byte

/-- The digest that a record copy holds after a failed write (spec/08 R297; log 111). -/
opaque recordLeft : Nat → Digest

/-- The bytes of a log page or data structure whose layout another standard gives, by log identifier (spec/00 R18):
SMART / Health, Commands Supported and Effects, ANA, before the values this spec states are put into them. -/
opaque logBase : Nat → List Byte

end Sys2Proof.Config
end

