-- ==== Sys2Proof/Machine/State.lean ====
section
/-! DEFINITION. The state of one SX-32: every register, queue, buffer, counter, mode and pin that the spec gives
the device, the contents of its SPI NOR and of the media, and the queue of commands that wait. Plain data. -/

namespace Sys2Proof.Machine

/-- Reasons a step can fault: none. The spec gives every command an effect, and every error of the device is a
state that it goes on in (safe: there is no constructor to raise). -/
inductive Fault
  deriving DecidableEq, Repr

/-- Reasons a step can refuse a command. -/
inductive Refusal where
  /-- Raised by the dispatcher for a command that has no meaning yet, with its mnemonic; safe: the machine stops.
  No arm raises it in this model. -/
  | notModelled (mnemonic : String)
  deriving DecidableEq, Repr

/-! ## Pins, resets and bring-up (spec/02, spec/20) -/

/-- What the device is held in (spec/02 R54, spec/15 R555): nothing, a reset, or thermal hardware shutdown. -/
inductive Hold where
  | powerOn
  | mainCold
  | warm
  | shutdown
  | running
  deriving DecidableEq, Repr

/-- Input pins and straps as driven (spec/20 Tables 20-6, 20-8); an active-low input is true when asserted. -/
structure Pins where
  aonPwrok : Bool
  sysPwrok : Bool
  /-- every monitored rail of groups 2 to 6 is in its range (spec/02 R47) -/
  railsOk : Bool
  /-- PWRFAIL# asserted, and since when -/
  pwrfail : Bool
  pwrfailAt : Nat
  perstA : Bool
  perstB : Bool
  testEn : Bool
  jtag : JtagInstr
  /-- LNKn_PRSNT# asserted, bit n for port n -/
  prsnt : BitVec 32
  /-- the link PLL is locked to REFCLK_LINK (spec/02 R52) -/
  linkPll : Bool
  /-- when REFCLK_LINK was last checked (spec/02 R52) -/
  linkCheckAt : Nat
  /-- REFCLK_A and REFCLK_B run (spec/01 Table 1-4, spec/02 R53); no command of the table changes them (log 89) -/
  refclkA : Bool
  refclkB : Bool
  pairSide : Bool
  bootSrc : Bool
  hostaEn : Bool
  hostbEn : Bool
  deriving DecidableEq, Repr

/-- A command of the SPI NOR interface, with its 4-byte address and its length in bytes where it has them (spec/02
Table 2-4). -/
inductive NorCmd where
  | readId
  | readSfdp (addr len : Nat)
  | resetEnable
  | reset
  | fastRead (addr len : Nat)
  | quadRead (addr len : Nat)
  | writeEnable
  | readStatus
  | pageProgram (addr len : Nat)
  | eraseSector (addr : Nat)
  | eraseBlock (addr : Nat)
  deriving DecidableEq, Repr

/-- Which memory Nuhalith is filling (spec/02 R62, R64). -/
inductive Fill where
  | idle
  | sram
  | dram
  deriving DecidableEq, Repr

/-- One happening the recorder takes (spec/17 R599 to R607): class, code, source, 32-byte payloads (more than one:
a chain, R603), and the boot and µs at which it arose. -/
structure Event where
  cls : Byte
  code : W16
  source : W16
  payload : List (BitVec 256)
  boot : W32
  uptime : Nat
  held : Bool
  deriving DecidableEq, Repr

/-- The always-on domain of spec/02, spec/17 and spec/20: kept over every reset but a power-on reset. -/
structure Aon where
  hold : Hold
  /-- instant from which SYS_PWROK and every rail have been good (spec/02 R47) -/
  goodSince : Option Nat
  /-- instant of AON_PWROK rising (spec/02 R50) -/
  riseAt : Nat
  /-- the domain runs on the crystal (spec/02 R49) -/
  xtal : Bool
  /-- BOOT_RESET_CAUSE [11:0] (spec/02 Table 2-6) -/
  cause : BitVec 12
  /-- BOOT_PROGRESS.attempts (spec/02 Table 2-7) -/
  attempts : BitVec 4
  /-- BOOT_PROGRESS.slot -/
  slot : Bool
  /-- BOOT_PROGRESS.recovery -/
  recovery : Bool
  /-- BOOT_PROGRESS.dram_state -/
  dramState : BitVec 2
  /-- BOOT_PROGRESS.step -/
  step : Byte
  /-- BOOT_PROGRESS.error -/
  error : Byte
  /-- fill-complete flag (spec/02 R63) -/
  fillComplete : Bool
  /-- the fill that is running -/
  fill : Fill
  /-- buffer-dirty mark (spec/02 R60) -/
  bufferDirty : Bool
  /-- DRAM entered self-refresh before the last reset (spec/02 R59, R61) -/
  selfRefresh : Bool
  /-- watchdog armed, and when it was last serviced (spec/02 R56) -/
  dogArmed : Bool
  dogAt : Nat
  /-- firmware has stopped servicing the watchdog (spec/13 R509) -/
  dogStopped : Bool
  /-- since when PERSTA# and PERSTB# have both been asserted, and whether that overlap has caused a reset or
  was there when a reset was released (spec/02 R55) -/
  overlapAt : Option Nat
  overlapUsed : Bool
  /-- warm device resets deferred by the dump: their BOOT_RESET_CAUSE bits (spec/02 R57) -/
  deferred : List (Fin 12)
  /-- straps as last sampled (spec/20 R697) -/
  pairSide : Bool
  bootSrc : Bool
  hostaEn : Bool
  hostbEn : Bool
  /-- THERM events held before release, at most 16, and those beyond (spec/17 R607) -/
  held : List Event
  heldLost : Nat
  /-- boot counter copied at the last release, and its instant (spec/17 R607) -/
  lastBoot : W32
  lastRelease : Nat
  /-- sequence mark of the recorder (spec/17 R608) -/
  seqMark : Nat
  /-- the power-on reset has not been followed by a release of step 11 (spec/17 R608) -/
  afterPowerOn : Bool
  deriving DecidableEq, Repr

/-- Bring-up outside the always-on domain (spec/02). -/
structure Boot where
  /-- this bring-up follows a power-on or main cold reset, so the DRAM is filled (spec/02 R62) -/
  cold : Bool
  /-- when the last main cold reset was released (spec/02 R51) -/
  coldAt : Nat
  /-- failures of each DRAM channel's training (spec/02 R69) -/
  retries : Vector Nat 8
  /-- step 6 and step 7 of Table 2-9 have ended -/
  trained : Bool
  imageOk : Bool
  /-- the boot ROM waits for an image over the service port (spec/02 R75) -/
  recoveryWait : Bool
  /-- the running firmware image -/
  image : List Byte
  /-- processors released, and when (spec/02 R63) -/
  released : Bool
  releaseAt : Nat
  /-- step 11 reached -/
  complete : Bool
  /-- every port has ended bring-up training once, and when -/
  portsEnded : Bool
  portsEndedAt : Nat
  /-- the firmware works in this boot on data preserved over a warm reset (spec/02 R61) -/
  preserved : Bool
  /-- this bring-up follows a thermal hardware shutdown (spec/15 R557) -/
  afterShutdown : Bool
  /-- the dump and the map journal need no more restoring before namespaces are ready (spec/10 R401, spec/13 R501) -/
  restored : Bool
  replayed : Bool
  /-- SMART Critical Warning bit 4: volatile memory backup failed (spec/02 R61, spec/10 R403) -/
  backupFailed : Bool
  /-- SMART Critical Warning bit 2: reliability degraded (spec/13 R510) -/
  degraded : Bool
  /-- spin_up_group and subsystem_id in force, taken at bring-up (spec/02 R81, spec/19 R661) -/
  spinGroup : Nat
  subsystem : W16
  /-- SFDP has confirmed quad-output reads since the reset (spec/02 R71) -/
  quad : Bool
  /-- the commands given to the SPI NOR since the reset, newest first: the model's own record (log 90) -/
  bus : List NorCmd
  deriving DecidableEq, Repr

/-! ## SPI NOR (spec/02 Table 2-3) -/

/-- One copy of the boot directory as programmed (spec/02 Table 2-5); its reserved bytes are 0. -/
structure BootDir where
  magic : W32
  sequence : W32
  preferred : Bool
  attemptsMax : Nat
  /-- 0 empty, 1 valid, 2 bad -/
  stateA : Fin 3
  stateB : Fin 3
  attemptsA : Nat
  attemptsB : Nat
  /-- SHAKE256 of bytes 0 to 15 -/
  digest : Digest
  deriving DecidableEq, Repr

/-- A record of the Prompt Book (spec/17 Table 17-1). -/
structure Record where
  seq : Nat
  boot : W32
  uptime : Nat
  cls : Byte
  code : W16
  source : W16
  payload : BitVec 256
  repeats : Nat
  flags : Byte
  lastDelta : Nat
  valid : Bool
  deriving DecidableEq, Repr

/-- One 64-byte place of the Prompt Book store that has been programmed (spec/17 R609). -/
structure StoreCell where
  sector : Nat
  place : Nat
  record : Record
  deriving DecidableEq, Repr

/-- The Prompt Book store in NOR (spec/17 R609, R617). -/
structure PromptStore where
  cells : List StoreCell
  /-- write pointer: next sector (0 to 4,095) and place (0 to 63) -/
  sector : Nat
  place : Nat
  /-- erased sectors ahead of the pointer -/
  erased : Nat
  deriving DecidableEq, Repr

/-- The dump-end mark (spec/10 R400 step 6): row count and digest of the index. -/
structure DumpMark where
  rows : Nat
  digest : Digest
  deriving DecidableEq, Repr

/-- Parameters of the Chorus pool (spec/07 Table 7-5). -/
structure PoolParams where
  recoveryBudget : Nat
  recoverySteps : BitVec 5
  rereadMax : Nat
  backgroundAge : Nat
  waitAlarm : Nat
  deriving DecidableEq, Repr

/-- States of a long operation (spec/12 Table 12-6). -/
inductive OpState where
  | running
  | suspended
  | blocked
  | waiting
  | completed
  | cancelled
  | failed
  deriving DecidableEq, Repr

/-- A long operation (spec/12 Table 12-6); `kind` 1 to 6 of Table 12-4, `cursor` its checkpoint or restart point. -/
structure LongOp where
  handle : Nat
  kind : Nat
  st : OpState
  done : Nat
  total : Nat
  origin : Nat
  started : W64
  result : W16
  /-- dwords of its start: p3 CDW10, p0 CDW11, p1 CDW12, p2 CDW13 -/
  p0 : W32
  p1 : W32
  p2 : W32
  p3 : W32
  /-- progress made so far, by the unit of its kind, at the newest checkpoint: the next strip, band, zone or byte -/
  cursor : Nat
  /-- of a surface scan, the strip that it goes on from, in the order of ports, places and strips; and at the newest checkpoint
  (spec/09 R354; spec/12 Table 12-4) -/
  from_ : Nat
  kept : Nat
  /-- a suspend or cancel waits for the next suspend point (spec/12 Table 12-4) -/
  suspendAsked : Bool
  cancelAsked : Bool
  /-- suspended by PS3, to return to running on exit (spec/12 R477) -/
  byPs3 : Bool
  /-- boot in which it started, staging slot and prefer flag of kind 6 -/
  slot : Bool
  prefer : Bool
  image : List Byte
  deriving DecidableEq, Repr

/-- The configuration store (spec/19 Table 19-10 and the parameters the chapters place there). -/
structure ConfigStore where
  spinUpGroup : Nat
  dirtyLimitMib : Nat
  holdupMs : Nat
  scrubHours : Nat
  pairMode : Bool
  heartbeatMs : Nat
  subsystemId : W16
  pool : PoolParams
  /-- gate_ahead and write_retry_max of each sequencer (spec/06 Table 6-8) -/
  gateAhead : Vector Nat 64
  writeRetryMax : Vector Nat 64
  /-- saved values of features 0xC0 of Port A and Port B, 0xC1, 0xC2, 0xC3, 0xC4 (spec/12 R487) -/
  freezeA : Bool
  freezeB : Bool
  grace : Nat
  rebuildShare : Nat
  writeLimit : Nat
  calThreshold : Nat
  rebuildDelay : Nat
  spareAlarm : Nat
  calReconstruct : Bool
  calSledMax : Nat
  calSpacing : Nat
  hdaWarn : Nat
  hdaStop : Nat
  /-- pair identity, zero when none is held (spec/18 R625) -/
  pairId : BitVec 128
  /-- retired DRAM pages (spec/13 R508) -/
  retired : List Nat
  /-- a dirty buffer may exist (spec/10 R403) -/
  mayBeDirty : Bool
  dumpMark : Option DumpMark
  /-- long operations of kinds 1 to 5 (spec/12 R477) and the last handle given -/
  ops : List LongOp
  lastHandle : Nat
  deriving DecidableEq, Repr

/-- The SPI NOR contents. -/
structure Nor where
  dirs : Vector BootDir 2
  /-- boot image slots A and B: the bytes programmed -/
  slotA : List Byte
  slotB : List Byte
  /-- the two copies of the key manifest (spec/16 R567) -/
  manifest0 : List Byte
  manifest1 : List Byte
  /-- the boot counter record (spec/16 R575) -/
  bootCounter : W64
  /-- Playbill slots that hold a record, and addendum ring sectors that do (spec/16 Table 16-10) -/
  playbills : List (Nat × List Byte)
  addenda : List (Nat × List Byte)
  /-- boots that have lost an addendum to the ring (spec/16 R588) -/
  lostAddenda : List Nat
  /-- next sector of the addendum ring, and the slot and sector erased in advance (spec/16 R586) -/
  ringNext : Nat
  erasedSlot : Option Nat
  erasedSector : Option Nat
  prompt : PromptStore
  /-- microcode patch store (spec/06 R232) -/
  patchStore : List Byte
  config : ConfigStore
  deriving DecidableEq, Repr

/-! ## Prompt Book (spec/17) -/

/-- The recorder: its ring in SRAM, its waiting events and the REC block (spec/17 R601 to R619). -/
structure Recorder where
  /-- ring records, newest first, at most 16,384 -/
  ring : List Record
  /-- the newest record is open, and since when (spec/17 R602) -/
  isOpen : Bool
  openAt : Nat
  /-- the newest record belongs to a chain -/
  inChain : Bool
  nextSeq : Nat
  ready : Bool
  clearing : Bool
  erasePending : Bool
  ringFromNor : Bool
  norFault : Bool
  /-- events that wait for the recorder, oldest first -/
  inbox : List Event
  /-- bits found at release, and events held from release to step 11 (spec/17 R732) -/
  found : List Event
  held : List Event
  heldLost : Nat
  heldFirst : Nat
  /-- the 1 ms of R604: the instants of the new records of the last 1 ms, newest first, the end of the 1 ms in which events were
  dropped, the drops and the first drop's µs -/
  newAt : List Nat
  winEnd : Nat
  winDrops : Nat
  winFirst : Nat
  /-- REC_CLEAR, REC_DROPS, REC_NOR -/
  clearTo : Nat
  drops : W32
  norSeq : Nat
  /-- sectors in which a program has failed once, and sectors passed over (spec/17 R609) -/
  failedOnce : List Nat
  passed : List Nat
  /-- records lost from the store since the last 0x8005 record: first sequence number and count (spec/17 R609) -/
  lostFirst : Nat
  lostCount : Nat
  deriving DecidableEq, Repr

/-! ## Identity (spec/16) -/

/-- The fields of a valid key manifest (spec/16 Table 16-4). -/
structure Manifest where
  minSecurity : W16
  sequence : W64
  revoke : BitVec 4
  pers : List Digest
  clear : List Digest
  deriving DecidableEq, Repr

/-- The identity and measurement a companion has reported (spec/03 R132, R134): raw bytes, empty when none. -/
structure Companion where
  ident : List Byte
  measure : List Byte
  deriving DecidableEq, Repr

/-- An addendum that is due: the port whose companion it records, or the context of a Patch Load; when its event arrived, and what it
says of the moment of its event: the live patch's digest and the companion's entry (spec/16 R581 to R583). -/
structure Due where
  port : Option PortId
  ctx : Nat
  at_ : Nat
  patch : Digest
  entry : List Byte
  companion : Companion
  deriving DecidableEq, Repr

/-- Nuhalith and the IDENT block (spec/16 R563 to R598). -/
structure Ident where
  keyReady : Bool
  keyFailed : Bool
  certPresent : Bool
  sealed : Bool
  chainStart : Bool
  /-- the key manifest in use and which copy holds it -/
  manifest : Option Manifest
  copy : Bool
  bootCounter : W64
  addenda : Nat
  fwVersion : W32
  securityVersion : W16
  patchKey : List Byte
  stages : Vector Digest 12
  newest : Digest
  attestKey : Digest
  /-- digests of the 4 KiB pages of the firmware region (spec/16 R572) -/
  pages : List Digest
  /-- the pages that have trapped within the last second, with the instant (spec/13 R509) -/
  traps : List (Nat × Nat)
  /-- records kept in DRAM because NOR programming failed: addendum number (0 the Playbill) and bytes (R587) -/
  pendingNor : List (Nat × List Byte)
  /-- the boot's own Playbill and addenda, oldest first -/
  playbill : List Byte
  added : List (List Byte)
  /-- when programming or its comparison last failed (R587) -/
  norTryAt : Nat
  /-- addenda due, in the order in which they are signed (spec/16 R583) -/
  due : List Due
  /-- unused nonces of Port A, Port B and the service port (spec/16 R590) -/
  nonceA : Option (List Byte)
  nonceB : Option (List Byte)
  nonceSvc : Option (List Byte)
  deriving DecidableEq, Repr

/-! ## Host functions (spec/11) -/

/-- A submission queue (spec/11 R420, R467 to R470); `tail` is the last valid tail value read. -/
structure SubQ where
  id : Nat
  size : Nat
  head : Nat
  tail : Nat
  cq : Nat
  /-- QPRIO: 0 urgent, 1 high, 2 medium, 3 low -/
  prio : Fin 4
  frozen : Bool
  freezeCount : W64
  /-- event index written for a shadow tail (spec/11 R428) -/
  eventIdx : Nat
  /-- past its deletion point (spec/12 R463) -/
  deleting : Bool
  deriving DecidableEq, Repr

/-- A completion queue (spec/11 R420, R426). -/
structure CplQ where
  id : Nat
  size : Nat
  head : Nat
  tail : Nat
  phase : Bool
  vector : Fin 65
  ien : Bool
  eventIdx : Nat
  deriving DecidableEq, Repr

/-- An MSI-X vector (spec/11 R438 to R443). -/
structure MsixVec where
  masked : Bool
  pending : Bool
  /-- CD: coalescing disabled -/
  cd : Bool
  count : Nat
  /-- when the count rose from 0 -/
  timerAt : Option Nat
  /-- the interrupt condition has arisen and its message has not been sent -/
  cond : Bool
  deriving DecidableEq, Repr

/-- An asynchronous event: type, information and log page (spec/11 R423, R449; spec/12 R469). -/
structure AsyncEv where
  type : Nat
  info : Nat
  page : Nat
  deriving DecidableEq, Repr

/-- An Error Information entry (spec/12 Table 12-2). -/
structure ErrEntry where
  count : W64
  sqid : W16
  cid : W16
  /-- status field, phase bit 0 -/
  status : W16
  errLoc : W16
  lba : W64
  nsid : W32
  /-- sequence number of the Prompt Book record, once the recorder has taken the event -/
  seq : Option Nat
  deriving DecidableEq, Repr

/-- One host function: its registers, queues, vectors, features and logs. -/
structure HostFn where
  /-- configuration requests complete successfully (spec/02 R85), and when PERSTx# was last deasserted -/
  cfgReady : Bool
  perstOffAt : Nat
  /-- D3hot, PMCSR.PME_En and PME_Status (spec/11 R410, R443) -/
  d3hot : Bool
  pmeEn : Bool
  pmeStatus : Bool
  cc : W32
  aqa : W32
  rdy : Bool
  cfs : Bool
  /-- the host has enabled Advanced Command Retry (spec/02 R88) -/
  acre : Bool
  /-- CSTS.SHST, and a normal shutdown waiting for a clean buffer or any shutdown for its commands -/
  shst : Fin 4
  shutdown : Fin 3
  /-- fetching is stopped by a shutdown or a power-fail dump (spec/11 R416, spec/10 R400) -/
  fetchStopped : Bool
  sqs : List SubQ
  cqs : List CplQ
  vecs : Vector MsixVec 65
  msixEnabled : Bool
  /-- shadow doorbell page and event-index page, when configured (spec/11 R427) -/
  shadow : Option (W64 × W64)
  thr : Nat
  time : Nat
  ab : Fin 8
  lpw : Nat
  mpw : Nat
  hpw : Nat
  /-- the queue served last in round robin (urgent, high, medium, low, all), and turns taken in the round by high, medium and
  low (spec/11 R435) -/
  rrLast : Vector Nat 5
  turns : Nat × Nat × Nat
  /-- its last turn ended for want of a context (spec/11 R433) -/
  starved : Bool
  /-- contexts of outstanding Asynchronous Event Requests, oldest first -/
  aers : List Nat
  events : List AsyncEv
  /-- event types reported whose log page has not been read since, with that page (spec/12 R469) -/
  reported : List (Nat × Nat)
  /-- Asynchronous Event Configuration (feature 0x0B) -/
  asyncCfg : W32
  ana1 : AnaState
  ana2 : AnaState
  anaCount : W64
  errLog : List ErrEntry
  errCount : W64
  /-- error counts that a Get Log Page 0x01 has returned (spec/12 R470) -/
  returned : List W64
  /-- feature 0xC0 in force -/
  freeze : Bool
  /-- selected NVMe power state and the last operational one (spec/11 R445, R446) -/
  ps : Fin 4
  lastOp : Fin 4
  /-- temperature thresholds in kelvin: over, under (spec/15 R550) -/
  overTemp : Vector Nat 3
  underTemp : Vector Nat 3
  /-- download buffer: (offset, byte) (spec/16 R592) -/
  download : List Host.Cell
  /-- pair identity that SUBNQN is formed from since the last reset of the function, zero when none was held (spec/11 Table
  11-4, spec/18 R625) -/
  subsys : BitVec 128
  deriving DecidableEq, Repr

/-! ## Commands (spec/12) -/

/-- Where a command came from. -/
inductive Origin where
  | host (f : Fn)
  | service (tag : Byte)
  /-- forwarded by the peer: its message, function and submission queue (spec/18 R628) -/
  | peer (seq : W32) (f : Fn) (sq : Nat)
  /-- its function has been reset: an update kept is applied and completes on no queue (spec/11 R412, R414) -/
  | gone
  deriving DecidableEq, Repr

/-- The part of the context division that a command's context was taken from (spec/11 Table 11-6). -/
inductive CtxPart where
  | admin
  | io
  | shared
  | none
  deriving DecidableEq, Repr

/-- How far a command has come (spec/12 R452, R455, R463). -/
inductive Stage where
  /-- fetched, in the order of arrival, not yet admitted -/
  | fetched
  | admitted
  /-- an update admitted and checked, its data not all arrived -/
  | awaitData
  /-- its data has arrived, and an earlier overlapping update has not applied -/
  | awaitTurn
  /-- its data does not fit within E (spec/10 R394) -/
  | awaitSpace
  /-- applied -/
  | applied
  /-- run, and waiting for what the Wait says -/
  | waiting
  /-- forwarded to the peer, or a read with media requests outstanding -/
  | forwarded
  /-- its completion entry is placed for posting -/
  | decided
  deriving DecidableEq, Repr

/-- What a command that has run waits for. -/
inductive Wait where
  | none
  /-- the mirror of an applied write or its map updates: the messages not yet acknowledged (spec/18 R641) -/
  | mirror (seqs : List W32)
  /-- blocks (namespace, LBA, admission number) not yet on media: FUA, Flush, WCE = 0 (spec/10 R396, R397) -/
  | media (blocks : List (Nat × Nat × W32))
  /-- map pages (namespace, page) not yet durable with their directory entries: Flush (spec/10 R389, R396) -/
  | pages (l : List (Nat × Nat))
  /-- the whole buffer clean (spec/10 R397) -/
  | clean
  /-- earlier-admitted updates of its blocks (spec/12 R456, R458) -/
  | turn
  /-- blocks of a read still to be had: map pages, sectors (spec/12 R458, spec/10 R386) -/
  | sectors (lbas : List Nat)
  /-- an asynchronous event (spec/12 R462) -/
  | asyncEvent
  /-- the commands of a deleted submission queue (spec/12 R463) -/
  | deletion (f : Fn) (sq : Nat)
  /-- admitted commands of a namespace being deleted (spec/10 R375) -/
  | nsDelete (ns : Nat)
  /-- a calibration break (spec/08 R317) -/
  | calBreak (a : ActId) (head : Fin 12)
  /-- both sides of a port unloaded, and its spindle stopped if the flag is set (spec/12 R483) -/
  | unload (p : PortId) (spinDown : Bool)
  /-- a bank switch on every sequencer, and then an addendum (spec/06 R230, spec/16 R583) -/
  | bankSwitch
  | addendum
  /-- a pair handover or rejoin (spec/18 R653 to R655) -/
  | handover
  | rejoin
  /-- its completion entry has found its queue full (spec/11 R425, R429) -/
  | room
  /-- the data that it moves to host memory, held in D3hot; its completion is kept (spec/11 R444) -/
  | transfer
  deriving DecidableEq, Repr

/-- Which kind of wait: waits of a kind count as one while what is still waited for shrinks. -/
def Wait.kind : Wait → Nat
  | .none => 0
  | .mirror _ => 1
  | .media _ => 2
  | .pages _ => 3
  | .clean => 4
  | .turn => 5
  | .sectors _ => 6
  | .asyncEvent => 7
  | .deletion _ _ => 8
  | .nsDelete _ => 9
  | .calBreak _ _ => 10
  | .unload _ _ => 11
  | .bankSwitch => 12
  | .addendum => 13
  | .handover => 14
  | .rejoin => 15
  | .room => 16
  | .transfer => 17

/-- The end of a command: status, dwords 0 and 1 and the data it returns. -/
structure Cpl where
  sct : Nat
  sc : Nat
  dnr : Bool
  crd : Nat
  dw0 : W32
  dw1 : W32
  bytes : List Byte
  blocks : List Blk
  /-- Parameter Error Location and LBA of the Error Information entry (spec/12 Table 12-2) -/
  errLoc : W16
  errLba : Nat
  deriving DecidableEq, Repr

/-- Where a chunk lies (spec/09 R327, R351, R360): a pool slot, a spare chunk or a defect-reserve chunk. -/
inductive Place where
  | pool (p : PortId) (slot : Nat)
  | spare (p : PortId) (i : Nat)
  | reserve (p : PortId) (i : Nat)
  deriving DecidableEq, Repr

/-- A command context (spec/11 R431, spec/12 R452 to R463). -/
structure Ctx where
  id : Nat
  origin : Origin
  sq : Nat
  entry : SqEntry
  part : CtxPart
  stage : Stage
  adm : W32
  /-- the ANA state in force at its admission (spec/11 R449) -/
  ana : AnaState
  /-- those of groups 1 and 2 on its function then (spec/11 R449, for a command to every namespace) -/
  groups : AnaState × AnaState
  wait : Wait
  /-- namespace, first block and count of the blocks it names or was assigned -/
  ns : Nat
  lba : Nat
  nlb : Nat
  update : Bool
  fua : Bool
  /-- data received for an update -/
  data : List Blk
  /-- blocks kept for a read because a later update applied; none: the block could not be had (spec/12 R458) -/
  saved : List (Nat × Option Blk)
  /-- blocks a read has obtained by media requests or reconstruction -/
  got : List (Nat × Blk)
  /-- sectors moved from staging to DRAM (spec/01 R24) -/
  spilled : Bool
  cpl : Option Cpl
  /-- placed for posting as the n-th decision: the order of completion (spec/11 R425) -/
  order : Nat
  /-- its entry is held in D3hot (spec/11 R443) -/
  heldD3 : Bool
  /-- the stripe of its zone was lost when it was admitted (spec/09 R343, R731) -/
  lost : Bool
  /-- since when it waits for what it waits for (spec/08 R312) -/
  waitAt : Nat
  /-- when it was fetched (spec/12 R452) -/
  fetchedAt : Nat
  /-- sectors that have failed for this read (spec/09 R338) -/
  failed : List (Place × Nat)
  deriving DecidableEq, Repr

/-- What the device sends out: the model's own record of its outputs, newest first. -/
inductive Out where
  /-- a completion entry written to a completion queue at an index, with its phase tag -/
  | completion (f : Fn) (cq : Nat) (index : Nat) (phase : Bool) (sqid sqhd : Nat) (cid : W16) (c : Cpl)
  | msix (f : Fn) (v : Fin 65)
  | pme (f : Fn)
  /-- a service reply: the request's opcode and tag, status and payload; flags [0] is 1 (spec/19 R678, Table 19-7) -/
  | reply (opcode tag status : Byte) (payload : List Byte)
  /-- the identification register that the JTAG port shifts out (spec/20 R702) -/
  | jtagId (v : W32)
  /-- an NVMe-MI basic management reply: the SMBus address that answers, the block, its packet error code (spec/19 R675, R677) -/
  | basic (addr : BitVec 7) (payload : List Byte) (pec : Byte)
  /-- an MCTP control response: the SMBus address that answers, completion code and payload (spec/19 R675, R676) -/
  | mctp (addr : BitVec 7) (payload : List Byte)
  /-- a value returned by a status-window read -/
  | value (q : Req) (off : Nat) (v : W32)
  /-- a 272-byte command-lane line block -/
  | lineBlock (p : PortId) (bytes : List Byte)
  /-- a Wings message: type and payload fields, in the model's own form -/
  | wings (type : Byte) (seq : W32) (payload : List Nat) (blocks : List Blk)
  /-- Wings blocks sent again from a block number (spec/18 R636) -/
  | resend (block : BitVec 13)
  /-- a write to configuration space or PCIe status that the host sees: CRS ended -/
  | crsEnd (f : Fn)
  /-- a configuration request completed with Configuration Request Retry Status (spec/02 R85) -/
  | crs (f : Fn)
  /-- one read of submission queue entries in host memory: queue, first entry, entries (spec/11 R424) -/
  | fetch (f : Fn) (sq first count : Nat)
  deriving DecidableEq, Repr

/-! ## Namespaces and the write buffer (spec/10) -/

/-- A namespace (spec/10 R369 to R375). -/
structure Ns where
  nsid : Nat
  zoned : Bool
  /-- LBA format index: false 16 + 3, true 8 + 2 (spec/10 Table 10-2) -/
  narrow : Bool
  nsze : Nat
  groups : List Nat
  /-- ANA group: false 1, true 2 -/
  ana2 : Bool
  attachA : Bool
  attachB : Bool
  deleting : Bool
  /-- the open backing zone and its next free block index (spec/10 R390) -/
  backing : Option (Nat × Nat)
  /-- the namespace is ready (spec/02 R89) -/
  ready : Bool
  deriving DecidableEq, Repr

/-- Zone states (spec/10 R377). -/
inductive ZoneState where
  | empty
  | implicit
  | explicit
  | closed
  | full
  deriving DecidableEq, Repr

/-- A zone that is not in its initial state (Empty, write pointer 0), of a zoned namespace or of the backing of a
conventional one. -/
structure Zone where
  ns : Nat
  zone : Nat
  st : ZoneState
  /-- write pointer, and the one recorded in the group table, in blocks (spec/10 R384) -/
  wp : Nat
  recWp : Nat
  recSt : ZoneState
  /-- rows whose strips are in their chunks -/
  rows : Nat
  deriving DecidableEq, Repr

/-- A map entry that is not unmapped (spec/10 Table 10-5). -/
structure MapEnt where
  ns : Nat
  lba : Nat
  entry : W64
  deriving DecidableEq, Repr

/-- A dirty block of the write buffer, oldest first in the list (spec/10 R394). -/
structure Dirty where
  ns : Nat
  lba : Nat
  data : Blk
  adm : W32
  /-- durable in a media-cache row, and no longer dirty (spec/09 R337, first case) -/
  stored : Bool
  /-- not admitted here since this reset: preserved over it, come back from a dump, or taken from the peer's mirror -/
  carried : Bool
  deriving DecidableEq, Repr

/-- What a media-cache row holds (spec/10 R387, R400; spec/09 R337, R731). -/
inductive McKind where
  | pack
  | part (zone row : Nat)
  | dumpIndex
  | dumpData
  deriving DecidableEq, Repr

/-- A media-cache row on media (spec/09 R340): its blocks in place order, its parity and the actuator and
half-band that holds each of its ten strips. -/
structure McRow where
  id : Nat
  ns : Nat
  kind : McKind
  blocks : List (Nat × Blk)
  parity : List Blk
  strips : List (ActId × Nat)
  deriving DecidableEq, Repr

/-- A row being destaged to its chunks (spec/09 R337). -/
structure RowFlight where
  ns : Nat
  zone : Nat
  row : Nat
  data : List Blk
  parity : List Blk
  /-- for a row of map pages: the map pages and directory pages at its places, and the entries they held -/
  pages : List Nat
  dirs : List Nat
  ents : List MapEnt
  places : List (Nat × Nat)
  /-- for a row of moved blocks: the LBAs at its places and the entries they had (spec/10 R390, R392) -/
  moves : List (Nat × W64)
  deriving DecidableEq, Repr

/-- The namespaces, their zones and maps. The durable copies are what a power loss leaves (spec/10 R384, R389). -/
structure Names where
  nss : List Ns
  zones : List Zone
  /-- the map as firmware knows it, the part that is durable, and the journal of changes (spec/13 R501) -/
  map : List MapEnt
  mapMedia : List MapEnt
  journal : List MapEnt
  /-- map pages held in the map-page area: namespace, page and slot (spec/13 R517); dirty map pages (namespace, page) and
  dirty directory pages (namespace, directory page) -/
  pagesIn : List (Nat × Nat × Nat)
  pagesDirty : List (Nat × Nat)
  dirsDirty : List (Nat × Nat)
  /-- the map directory and the root table: namespace, page and the block index of its place in the backing zones
  (spec/10 R389) -/
  mapDir : List (Nat × Nat × Nat)
  roots : List (Nat × Nat × Nat)
  /-- namespaces whose map directory is still to be read from media, and zones whose write pointer is still to be found, at
  bring-up (spec/10 R384, R389) -/
  dirsOut : List Nat
  toFind : List (Nat × Nat)
  /-- write buffer -/
  buffer : List Dirty
  flights : List RowFlight
  /-- rows of finished zones still to be destaged (spec/10 R382) -/
  finishing : List (Nat × Nat × Nat)
  /-- dirty blocks and pages, by their keys, that were preserved over a reset or came back from a dump and are not on media yet: the
  first media work (spec/02 R61, spec/10 R401) -/
  firstDue : List Nat
  /-- lost-block list (spec/09 R359) -/
  lost : List (Nat × Nat)
  /-- dirty_limit in force, MiB, and holdup_ms in force (spec/10 R398) -/
  dirtyLimitMib : Nat
  holdupMs : Nat
  /-- WCE (spec/10 R397) -/
  wce : Bool
  /-- a power-fail dump is running, and when PWRFAIL# was asserted (spec/10 R400) -/
  dumping : Bool
  dumpAt : Nat
  /-- the last sanitize failed, and one is in progress (spec/12 R475) -/
  sanitizeFailed : Bool
  sanitizing : Bool
  deriving DecidableEq, Repr

/-! ## Media and protection (spec/09) -/

/-- One written sector of a chunk (spec/09 R322). -/
structure Sector where
  place : Place
  sector : Nat
  data : Blk
  deriving DecidableEq, Repr

/-- Member states (spec/09 Table 9-3); `none`: the port is empty. -/
inductive MemberSt where
  | none
  | member
  | absent
  | failed
  | candidate
  | retired
  deriving DecidableEq, Repr

/-- The member record of a port (spec/09 R325, R328, R329). -/
structure Member where
  st : MemberSt
  serial : BitVec 160
  failed0 : Bool
  failed1 : Bool
  /-- usable bands b_a of the two actuators -/
  bands0 : Nat
  bands1 : Nat
  /-- pool slots, spare chunks and defect-reserve chunks in use -/
  slotsUsed : List (Nat × Nat)
  spareUsed : List Nat
  reserveUsed : List Nat
  /-- since when each actuator has been out of service, time that does not count left out (R329) -/
  outAt0 : Option Nat
  outAt1 : Option Nat
  /-- ns out of service counted before that (spec/09 R329) -/
  outNs0 : Nat
  outNs1 : Nat
  /-- since when absent -/
  absentAt : Nat
  /-- the defect list: half, and its slipped sectors in ascending order (spec/09 R348) -/
  slips : List (Nat × List Nat)
  deriving DecidableEq, Repr

/-- A group (spec/09 R331): width 19, or 10 when narrow. -/
structure Group where
  number : Nat
  narrow : Bool
  members : List PortId
  firstSlot : Nat
  ns : Nat
  deriving DecidableEq, Repr

/-- A placement exception (spec/09 R334). -/
structure Exc where
  group : Nat
  stripe : Nat
  chunk : Nat
  place : Place
  deriving DecidableEq, Repr

/-- Why a stripe is being worked on. -/
inductive WorkKind where
  | rebuild
  | resync
  | reallocate
  | homecoming
  deriving DecidableEq, Repr

/-- A stripe in progress (spec/09 R357): its new places and the runs of 32 rows reconstructed so far. -/
structure Work where
  kind : WorkKind
  group : Nat
  stripe : Nat
  targets : List (Nat × Place)
  runs : List Nat
  /-- in a pair, once two copies of the record are on media: journal messages not yet acknowledged (spec/18) -/
  acks : Option (List W32)
  /-- which stripe of the rebuild it is, in the order in which they are taken (spec/09 R356, R362) -/
  order : Nat
  deriving DecidableEq, Repr

/-- What a member's entry of the member record says (spec/09 R328, R329). -/
structure MemberEntry where
  st : MemberSt
  serial : BitVec 160
  failed0 : Bool
  failed1 : Bool
  deriving DecidableEq, Repr

/-- A record of the system bands (spec/09 R326): the member record, by port; the group table; the placement exception log; the defect
lists, by port; a rebuild checkpoint. -/
inductive SysBody where
  | members (l : List MemberEntry)
  | groups (l : List Group)
  | exceptions (l : List Exc)
  | defects (l : List (List (Nat × List Nat)))
  | checkpoint (n : Nat)
  deriving DecidableEq, Repr

/-- A copy of a record on the system bands of an HDA (spec/09 R326): the HDA by its serial, sequence number, digest and record. -/
structure SysCopy where
  serial : BitVec 160
  seq : Nat
  digest : Digest
  body : SysBody
  deriving DecidableEq, Repr

/-- Protection: members, groups, exceptions, media contents, rebuild (spec/09). -/
structure Prot where
  members : Vector Member 32
  groups : List Group
  excs : List Exc
  /-- chunks marked touched (spec/09 R345): group, stripe, chunk -/
  touched : List (Nat × Nat × Nat)
  sectors : List Sector
  /-- sectors that have not decoded (spec/07 R272): place and sector -/
  bad : List (Place × Nat)
  /-- places with a sector for which a surface scan needed a re-read, or whose write on a port of the peer's has failed; their chunks are
  to be reallocated (spec/09 R350) -/
  marked : List Place
  mcRows : List McRow
  nextMc : Nat
  /-- next strip of an actuator's media-cache ring to be written, 0 to 16,383 (spec/09 R339); none listed: 0 -/
  mcPos : List (ActId × Nat)
  works : List Work
  /-- ports that a format has admitted as replacements and whose chunks return to them (spec/09 R364) -/
  homecoming : List PortId
  /-- PROT_REBUILD: long-operation handle, phase and state codes (spec/09 Table 9-10) -/
  rebuildHandle : Nat
  rebuildPhase : Fin 5
  rebuildState : Fin 5
  /-- a rebuild has been cancelled, and nothing has failed since (spec/09 R365) -/
  rebuildHeld : Bool
  /-- a member or an actuator has failed and Understudy has not started for it yet (spec/09 R355) -/
  rebuildDue : Bool
  /-- in a pair: the peer's rebuild is active, as its records say (spec/09 R362, R363) -/
  peerRebuild : Bool
  rebuildDone : Nat
  rebuildTotal : Nat
  /-- newest checkpoint: the position, in the order of R356, below which every stripe is committed; in a pair, the journal message of
  one that is not yet acknowledged (spec/09 R362) -/
  checkpoint : Nat
  checkAck : Option (Nat × W32)
  /-- stripes that the rebuild has taken, in the order of R356 -/
  started : Nat
  /-- the copies of the records of the system bands (spec/09 R326) -/
  sys : List SysCopy
  reallocations : Nat
  events : BitVec 9
  deriving DecidableEq, Repr

/-! ## Ports (spec/03) -/

/-- A packet of the Clavik link (spec/03 Table 3-6). -/
structure Packet where
  opcode : Byte
  tag : Byte
  status : Byte
  payload : List Byte
  deriving DecidableEq, Repr

/-- An outstanding request (spec/03 R114): its packet, when it was last sent and how often. -/
structure Request where
  packet : Packet
  sentAt : Nat
  sends : Nat
  /-- busy answers so far, and since when it waits to be sent again -/
  busy : Nat
  busyAt : Option Nat
  deriving DecidableEq, Repr

/-- A write-bit block waiting for the command lane (spec/03 R100, R111). -/
structure WriteBits where
  side : Side
  first : Bool
  last : Bool
  count : Nat
  openTime : Nat
  /-- the link tick at which its last bit is written -/
  doneAt : Nat
  bits : BitVec 2016
  deriving DecidableEq, Repr

/-- A sample pair as a block carries it: one reader in [5:0], the other in [11:6] (spec/03 R102). -/
abbrev SamplePair := BitVec 12

/-- A stream's receive state (spec/03 R97, R98). -/
structure Stream where
  next : BitVec 13
  /-- the rest of the gate in progress is discarded -/
  discard : Bool
  /-- the local head and the pairs of the gate in progress that have come, for a servo stream (spec/03 R96, R102) -/
  head : Nat
  pairs : List SamplePair
  deriving DecidableEq, Repr

/-- One HDA port (spec/03). -/
structure Port where
  /-- PORT_STATUS.train_state and fail_reason -/
  train : Fin 16
  fail : Fin 16
  dual : Bool
  lane : Bool
  obeyed : Bool
  degraded : Bool
  inService : Bool
  /-- a STATUS with a valid hda_temp arrived, and when (temp_fresh) -/
  tempAt : Option Nat
  addendum : Bool
  /-- number of that addendum, 0 for the Playbill itself (spec/12 Table 12-16) -/
  addendumNo : Nat
  persVerified : Bool
  blockLock : Bool
  clock : Bool
  events : BitVec 8
  attempt : Nat
  trained : Nat
  trainedBoot : W64
  /-- instants of the port resets of the last 60 s (spec/03 R141) -/
  resets : List Nat
  hdaTemp : W16
  supplyMv : W16
  flags : W16
  /-- highest token last reported, and the token this controller presented -/
  token : W64
  own : W64
  /-- link counters of spec/03 Table 3-14 -/
  smpCorr : W32
  smpUncorr : W32
  seqErr : W32
  gateErr : W32
  pktTimeout : W32
  cmdUncorr : W32
  /-- the last cmd_uncorr total since the training, and instants of uncorrectable blocks (spec/03 R139) -/
  cmdBase : Option W32
  /-- sample-lane blocks corrected since training state 5 began (spec/03 Table 3-12) -/
  chkCorr : Nat
  /-- cmd_corr and cmd_uncorr of the first STATUS of training state 5 (spec/03 Table 3-12) -/
  chkBase : Option (W32 × W32)
  /-- the rise of cmd_corr and cmd_uncorr since that STATUS -/
  chkRise : Nat × Nat
  smpBadAt : List Nat
  cmdBadAt : List Nat
  /-- when the last STATUS arrived -/
  statusAt : Option Nat
  /-- command lane running, and its joint reset held (spec/03 R119, spec/14 R535) -/
  cmdUp : Bool
  joint : Bool
  /-- the sample lane's next block in its group of 8,192, once an alignment block has been found; what the last alignment block said
  of the companion's block lock and link time; and the alignment blocks found in place in training state 4, each reporting that
  lock (spec/03 R95, Table 3-12) -/
  rxPos : Option Nat
  compLock : Bool
  compTime : Nat
  aligned : Nat
  /-- since when presence has been asserted in training state 1 -/
  stateAt : Nat
  /-- the port was removed from service by Port Control action 5 (spec/12 R483) -/
  removed : Bool
  /-- marked failed by a start failure, until Port Control clears it or its presence is removed (spec/04 R168) -/
  startMark : Bool
  /-- when its presence was last deasserted (spec/19 Table 19-12) -/
  goneAt : Nat
  /-- bring-up training of this boot has ended -/
  ended : Bool
  /-- its HDA has entered service since bring-up (spec/02 R89) -/
  entered : Bool
  /-- the scrambler of the sample lane, and the streams: types 1 and 2 of both sides, packets -/
  scram : BitVec 31
  data0 : Stream
  data1 : Stream
  servo0 : Stream
  servo1 : Stream
  packets : Stream
  /-- packets received and not yet taken by their unit, oldest first -/
  rx : List Packet
  /-- packets to be sent: urgent, others with the instant they were queued, and write-bit blocks -/
  urgent : List Packet
  normal : List (Nat × Packet)
  writes : List WriteBits
  /-- command-lane scrambler, block position in its group of 8,192 and stream numbers -/
  txScram : BitVec 31
  txPos : Nat
  txSeq : BitVec 13
  txSeq0 : BitVec 13
  txSeq1 : BitVec 13
  requests : List Request
  companion : Companion
  /-- what this boot has recorded of the port's companion: identity and measurement (spec/16 R581) -/
  recorded : List Companion
  /-- personality data read so far, and its digest once verified -/
  pers : List Byte
  persDigest : Digest
  deriving DecidableEq, Repr

/-! ## Servo (spec/05) -/

/-- Regions (spec/05 R193), with the codes of SERVO_STATUS.region. -/
inductive Region where
  | parked
  | seek
  | settle
  | follow
  | shock
  deriving DecidableEq, Repr

/-- The state of one compensator (spec/05 R188 to R197): states in Q23.16, the last clamped output, the
saturation flag with its count of samples in limits, and whether the coefficient set has just been swapped. -/
structure Comp where
  s1 : Int
  s2 : Int
  s3 : Int
  y : Int
  sat : Bool
  inLimits : Nat
  swapped : Bool
  deriving DecidableEq, Repr

/-- A valid wedge sample (spec/05 R178): its sync-mark time, in link ticks, wedge number and measured position. -/
structure Wedge where
  time : Nat
  wedge : Nat
  pos : Int
  /-- its place among the samples that wait, in the order in which the servo blocks came (spec/05 R186) -/
  order : Nat
  deriving DecidableEq, Repr

/-- One actuator of the Marionette engine and its SERVO registers (spec/05 R214). -/
structure Act where
  wedge : Nat
  writeAllowed : Bool
  readAllowed : Bool
  profile1 : Bool
  loaded : Bool
  region : Region
  pes : Int
  vel : Int
  events : BitVec 8
  inhibits : Nat
  shocks : Nat
  lost : Nat
  vcm : Comp
  ma : Comp
  /-- sample waiting for COMPENSATOR_EVALUATION -/
  sample : Option Wedge
  head : Fin 12
  target : Int
  /-- a new target that takes effect at the next evaluation (spec/05 R198) -/
  newTarget : Option (Fin 12 × Int)
  prevPos : Int
  prevVel : Int
  prevSync : Nat
  expected : Nat
  /-- consecutive samples that met the entry, exit and shock-exit tests of Table 5-3 -/
  entryCount : Nat
  exitCount : Nat
  shockExit : Nat
  /-- the last samples' write condition, newest first (spec/05 R202) -/
  recover : List Bool
  /-- first sample after a load still to come, and first evaluation -/
  fresh : Bool
  vRef : Int
  regionAt : Nat
  timeouts : Nat
  missing : Nat
  /-- instants of servo loss and of shock entry (spec/05 R207, R209) -/
  lostAt : Option Nat
  shockAt : List Nat
  outOfService : Bool
  /-- VCM output for the cross term and its instant (spec/05 R192) -/
  yOther : Int
  yAt : Option Nat
  /-- home_track load requested: an ACT_PARK with action 1 is outstanding or due -/
  loading : Bool
  /-- VCM and MA commands of the ACT_DRIVE last sent: the outputs in force (spec/05 R184, R206) -/
  sent : Int × Int
  /-- servo has been lost once, and firmware is to load again; the same after repeated timeouts (spec/05 R207, R201) -/
  reloadLost : Bool
  reloadSeek : Bool
  deriving DecidableEq, Repr

/-! ## Spindle engines (spec/04) -/

/-- SPIN_STATUS.state (spec/04 Table 4-7), in the order of its codes 0x00 to 0x0D. -/
inductive SpinSt where
  | stopped
  | listen
  | brakeToStop
  | activeBraking
  | satTest
  | alignment
  | forced
  | closedLoop
  | atSpeed
  | outOfReg
  | regenDown
  | shortStop
  | ovBrake
  | startFailed
  deriving DecidableEq, Repr

/-- A back-EMF zero crossing (spec/04 R148): phase 0 U, 1 V, 2 W; rising edge; instant in link ticks;
the step of Table 4-1 that it ends in forward order. -/
structure Zc where
  at_ : Nat
  step : Fin 6
  /-- steps since the crossing before it in a history: 1, and one more for each crossing missed between -/
  gap : Nat := 1
  deriving DecidableEq, Repr

/-- The SPINDLE_DRIVE last sent (spec/04 R152): mode 0 coast, 1 drive, 2 short brake; duties; when. -/
structure Drive where
  mode : Fin 3
  u : Int
  v : Int
  w : Int
  /-- its apply_time in link ticks, not wrapped (spec/04 R150) -/
  applyAt : Nat
  sentAt : Nat
  deriving DecidableEq, Repr

/-- Personality table 0x0002 (spec/04 Table 4-5). -/
structure SpinTable where
  polePairs : Nat
  runLevel : Nat
  curve : List (Nat × Nat)
  advance : List Nat
  senseWidth : Nat
  senseMargin : Nat
  alignMs : Nat
  forcedAccel : Nat
  handoverRpm : Nat
  startDuty : Nat
  runDuty : Nat
  brakeDuty : Nat
  kp : Nat
  ki : Nat
  stopBrakeMs : Nat
  deriving DecidableEq, Repr

/-- One spindle engine and its SPIN registers (spec/04 R177). -/
structure Spin where
  /-- SPIN_STATUS.step, none when not commutating (0xF) -/
  step : Option (Fin 6)
  refused : Bool
  ovLatched : Bool
  chopper : Bool
  inLock : Bool
  inReg : Bool
  backward : Bool
  turning : Bool
  st : SpinSt
  rpm : Int
  target : Nat
  periodNs : W32
  levelRun : Nat
  levelCmd : Nat
  /-- the level held before PS3 (spec/04 R156) -/
  levelPs3 : Nat
  output : Int
  advance : Nat
  events : BitVec 9
  starts : Nat
  catches : Nat
  failures : Nat
  margin : Nat
  aligned : Bool
  reverse : Bool
  pair : Fin 6
  /-- crossings of the current listen window or revolution, newest first, at most 6 × pole pairs + 1 -/
  zcs : List Zc
  /-- the listen window under way: crossings heard, and the direction that three in order established, with the period that they gave
  (spec/04 R162) -/
  heard : Nat
  found : Option (Bool × Nat × Nat)
  /-- the phase advance a as last recomputed, once per electrical cycle, 0.1° (spec/04 R153) -/
  adv : Nat
  /-- last electrical period in link ticks, and electrical cycles in the revolution under way -/
  te : Nat
  cyc : Nat
  missed : Nat
  syncLosses : Nat
  cycles : Nat
  /-- saturation test: pairs answered (d_p) and tests made -/
  sense : List Int
  tests : Nat
  /-- forced acceleration: start instant, start of the current step, in-order crossings, failures of R167 -/
  forcedAt : Nat
  forcedStepAt : Nat
  forcedOk : Nat
  /-- the step driven has had its crossing (spec/04 R167) -/
  forcedGot : Bool
  /-- steps of the forced schedule taken so far, and whether the short brake under way leads to the saturation test -/
  forcedN : Nat
  restBrake : Bool
  forcedFails : Nat
  /-- speed-loop integrator in units of 2^-32 duty (spec/04 R159) -/
  integ : Int
  /-- at_speed reached in this start; revolutions in lock and out of the regulation band -/
  reached : Bool
  lockRevs : Nat
  outRevs : Nat
  /-- when at_speed was lost (spec/04 R161), and when the current phase began -/
  outAt : Nat
  phaseAt : Nat
  /-- it holds a start slot, granted when (spec/02 R81, R82) -/
  slotAt : Option Nat
  /-- it waits for a start slot -/
  wantSlot : Bool
  /-- spin-down under way: unload awaited, then what follows (a start if a level of 64 or more came) -/
  unloading : Bool
  thenStart : Bool
  /-- a new target waits for the sides to be unloaded (spec/04 R157) -/
  retarget : Bool
  /-- a turning spindle was left coasting by a sync loss or a port reset: its start needs no level of 64 (spec/04 R151, R155,
  Table 4-4) -/
  restart : Bool
  /-- bring-up has set this HDA's level (spec/04 R156) -/
  levelSet : Bool
  /-- sides that were loaded when a port reset met the overvoltage latch (spec/04 R172) -/
  parkDue : List Side
  drive : Drive
  table : Option SpinTable
  deriving DecidableEq, Repr

/-! ## Format sequencers and microcode (spec/06) -/

/-- SEQ_STATUS.state (spec/06 Table 6-16), in the order of its codes 0x0 to 0x4. -/
inductive SeqSt where
  | offline
  | idle
  | running
  | halted
  | selfTest
  deriving DecidableEq, Repr

/-- A gate issued and not yet closed: write gate or read gate, its wedge, open time, and its sector fragments
(sector numbers). -/
structure Gate where
  write : Bool
  wedge : Nat
  openTime : Nat
  /-- in link ticks -/
  length : Nat
  /-- the sector fragments under it: sector and fragment number -/
  frags : List (Nat × Nat)
  /-- of a read gate: its last block has come, and none of its blocks was discarded (spec/06 R239) -/
  whole : Bool := false
  deriving DecidableEq, Repr

/-- A head entry (spec/06 Table 6-12). -/
structure HeadFmt where
  offset0 : Int
  offset1 : Int
  quality0 : Nat
  quality1 : Nat
  swap : Bool
  deriving DecidableEq, Repr

/-- A zone entry (spec/06 Table 6-13). -/
structure ZoneFmt where
  firstTrack : Nat
  trackCount : Nat
  sectors : Nat
  rate : Nat
  preamble : Nat
  sync : Nat
  body : Nat
  postamble : Nat
  resync : Nat
  skew : Nat
  guard : Nat
  deriving DecidableEq, Repr

/-- Personality table 0x0003 (spec/06 Tables 6-11 to 6-13). -/
structure FormatTable where
  zoneCount : Nat
  grayBits : Nat
  servoPairs : Nat
  servoRate : Nat
  syncOffset : Nat
  gateLead : Nat
  burstOffset : Nat
  burstPairs : Nat
  gapPost : Nat
  gapPre : Nat
  servoSync : W32
  dataSync : W32
  heads : List HeadFmt
  zones : List ZoneFmt
  deriving DecidableEq, Repr

/-- One format sequencer and its SEQ registers (spec/06 R246). -/
structure Seq where
  st : SeqSt
  fault : Byte
  stack : List (BitVec 15)
  switchPending : Bool
  bank : Bool
  addr : BitVec 15
  nano : Nat
  events : BitVec 6
  rewrites : Nat
  gateErrors : Nat
  faults : Nat
  timer : Nat
  retries : Nat
  sectorsLeft : Nat
  nextSector : Nat
  op : Option Descriptor
  queue : List Descriptor
  rewrite : List Nat
  gates : List Gate
  /-- a GATE_CANCEL or GATE_ERROR has affected the operation (cond_sel 0x5) -/
  affected : Bool
  opAt : Nat
  faultAt : Option Nat
  /-- instant from which the current microword is held (spec/06 R219) -/
  wordAt : Nat
  outOfService : Bool
  gateAhead : Nat
  retryMax : Nat
  /-- an event awaited by wait_sel 2 has come -/
  wedgeSeen : Bool
  /-- sectors of the operation retired -/
  done : List Nat
  /-- sectors of the operation not written or not captured so far (spec/06 R238, R239) -/
  lost : List Nat
  /-- the actions of the current microword have been taken, and its hold goes on (spec/06 R219, R221) -/
  acted : Bool
  /-- heads and tracks on which a write operation has ended with report_op 2, until the HDA is removed or formatted (spec/09 R350) -/
  unwritten : List (Fin 12 × Nat)
  deriving DecidableEq, Repr

/-- A patch bank (spec/06 R228): loaded microwords and nano-words in order from 16,384 and 1,024, match entries. -/
structure Bank where
  micro : List W32
  nano : List (BitVec 128)
  matches_ : List (Nat × Nat)
  deriving DecidableEq, Repr

/-- The control store's patch side (spec/06 R228 to R233). -/
structure Patch where
  bank0 : Bank
  bank1 : Bank
  newest : Bool
  version : W16
  digest : Digest
  remaining : Nat
  lastResult : BitVec 4
  bootInvalid : Bool
  switching : Bool
  deriving DecidableEq, Repr

/-! ## Personality tables of the servo (spec/05 R211) -/

/-- A compensator block (spec/05 Table 5-7); coefficients are Q2.30. -/
structure CompBlock where
  three : Bool
  outMin : Int
  outMax : Int
  swapSlew : Int
  limit : Int
  b0 : Int
  b1 : Int
  b2 : Int
  b3 : Int
  a1 : Int
  a2 : Int
  a3 : Int
  deriving DecidableEq, Repr

/-- A seek profile (spec/05 Table 5-8). -/
structure Profile where
  accelMax : Nat
  seekMs : Nat
  settleMs : Nat
  points : List (Nat × Nat)
  deriving DecidableEq, Repr

/-- Personality table 0x0001 (spec/05 Tables 5-6 to 5-8); `blocks` holds VCM and MA of the eight region blocks. -/
structure ServoTable where
  wedges : Nat
  writeWindow : Nat
  readWindow : Nat
  writeRecover : Nat
  missingMax : Nat
  seekMin : Nat
  tfEntryCount : Nat
  tfExitCount : Nat
  entryDist : Nat
  entryVel : Nat
  tfEntryPes : Nat
  tfEntryVel : Nat
  tfExitPes : Nat
  shockPes : Nat
  shockVel : Nat
  maGain : Int
  crossFf : Int
  home : Nat
  blocks : List (CompBlock × CompBlock)
  profile0 : Profile
  profile1 : Profile
  deriving DecidableEq, Repr

/-! ## Chorus pool (spec/07) -/

/-- CHORUS_ENG_STATUS.state (spec/07 Table 7-9), in the order of its codes 0x0 to 0x7. -/
inductive EngSt where
  | offline
  | free
  | bound
  | reading
  | recovery
  | selfTest
  | gated
  | faulted
  deriving DecidableEq, Repr

/-- Pairs of one read gate in the order of their samples: the gate's open time, the place of the first pair in the gate, and the
pairs. -/
structure SampleRun where
  gate : Nat
  first : Nat
  pairs : List SamplePair
  deriving DecidableEq, Repr

/-- Where a sector fragment lies in a read gate: the gate's open time, the sector, the place of its first pair and their number
(spec/06 R236; spec/07 R257). -/
structure GateOffset where
  gate : Nat
  sector : Nat
  first : Nat
  pairs : Nat
  deriving DecidableEq, Repr

/-- A captured sector (spec/07 R257): which actuator, head, zone, track and sector of which operation, its address word, its
gate offsets and samples, the recovery step reached, and the re-reads made. -/
structure Capture where
  act : ActId
  head : Fin 12
  zone : Fin 32
  track : Nat
  sector : Nat
  address : W64
  offsets : List GateOffset
  samples : List SamplePair
  cls : OpClass
  ctx : Option Nat
  at_ : Nat
  /-- next step of Table 7-4, 1 to 6 -/
  step : Nat
  reread : Nat
  deriving DecidableEq, Repr

/-- A Chorus engine and its registers (spec/07 Table 7-9). -/
structure Eng where
  st : EngSt
  act : ActId
  cls : OpClass
  /-- offline mark kept while gated (spec/01 R39) -/
  mark : Bool
  /-- it must be gated when its session ends -/
  gateDue : Bool
  slots : List Capture
  events : BitVec 7
  sessions : Nat
  captures : Nat
  recovered : Nat
  unrecovered : Nat
  faultAt : Option Nat
  /-- its last fault came within 60 s of the one before: its self-test does not bring it back (spec/07 R281) -/
  refault : Bool
  /-- when its recovery budget started, and the slot it works on: (engine, capture index) -/
  recAt : Option Nat
  work : Option (EngId × Nat)
  /-- when its session was bound -/
  boundAt : Nat
  /-- the sample window, newest run first, at most 174,762 pairs (spec/07 R256), and the offsets that the sequencer has given in
  the session (spec/06 R236) -/
  window : List SampleRun
  offsets : List GateOffset
  deriving DecidableEq, Repr

/-- A binding request (spec/07 R259 to R262). -/
structure BindReq where
  cls : OpClass
  /-- the head and position of its read, none while no read is queued for it -/
  want : Option (Fin 12 × Int)
  at_ : Nat
  promoted : Bool
  readyAt : Option Nat
  alarmed : Bool
  /-- when an engine was granted, none while it waits -/
  grantedAt : Option Nat
  deriving DecidableEq, Repr

/-- An actuator's binding request and write encoder (spec/07 Table 7-10). -/
structure ActPool where
  req : Option BindReq
  underruns : Nat
  stagingErrors : Nat
  /-- encoder state: 0 idle, 1 streaming, 2 stopped by fault -/
  enc : Fin 3
  /-- the encoder has reported ready -/
  encReady : Bool
  /-- bits of the operation sent to the companion, and those that its buffer holds: the link tick at which each block's last bit
  is written, and the bits of the block (spec/07 R275, spec/03 R109) -/
  sent : Nat
  held : List (Nat × Nat)
  deriving DecidableEq, Repr

/-- A sector decoded or given up, for its requester: the data reach transfer staging (spec/07 R254, R272). -/
structure Decoded where
  act : ActId
  head : Fin 12
  track : Nat
  sector : Nat
  ctx : Option Nat
  ok : Bool
  spilled : Bool
  /-- when it reached transfer staging (spec/01 R24) -/
  at_ : Nat
  /-- the binding whose reservation holds it: engine and instant of the grant (spec/07 R255); none for a recovered sector -/
  session : Option (EngId × Nat)
  deriving DecidableEq, Repr

/-- The pool (spec/07 R278, Table 7-8). -/
structure Chorus where
  engs : Vector Eng 24
  acts : Vector ActPool 64
  waitMax : W32
  /-- longest binding wait since bring-up, which a read does not clear (spec/12 Table 12-15) -/
  waitEver : W32
  events : BitVec 3
  params : PoolParams
  /-- Rebuild Share in force (feature 0xC2) -/
  rebuildShare : Nat
  /-- order in which engines were gated, newest first (spec/01 R39) -/
  gatedOrder : List EngId
  staging : List Decoded
  deriving DecidableEq, Repr

/-! ## Assist and calibration (spec/08) -/

/-- The five calibrated quantities, in the order of spec/08 Table 8-2. -/
structure Five where
  laser : Nat
  sto : Nat
  write : Nat
  reader0 : Nat
  reader1 : Nat
  deriving DecidableEq, Repr

/-- A zone's entry: the five quantities at 10, 25, 40, 55 and 70 °C (spec/08 R291). -/
structure CalEntry where
  v0 : Five
  v1 : Five
  v2 : Five
  v3 : Five
  v4 : Five
  deriving DecidableEq, Repr

/-- Table 0x0005: the header (min, max, max_step) and the entries, by 32 × global head + zone. -/
structure CalTable where
  min : Five
  max : Five
  step : Five
  entries : List CalEntry
  deriving DecidableEq, Repr

/-- Table 0x0004 (spec/08 Table 8-1): recipes by 32 × global head + zone. -/
structure RecipeTable where
  calTracks : Nat
  calZone : Nat
  elements : List Nat
  recipes : List Nat
  deriving DecidableEq, Repr

/-- One head's working table and history (spec/08 R297 to R309, Table 8-9). -/
structure HeadCal where
  entries : List CalEntry
  /-- T_cal in 1/16 °C, none if never calibrated -/
  tCal : Option Int
  failed : Bool
  fails : Nat
  breaks : Nat
  abandoned : Nat
  lastAt : Option Nat
  lastMs : Nat
  /-- HEAD_CONFIG failures in a row (spec/08 R296) -/
  cfgFails : Nat
  /-- values the companion holds, none when unknown (spec/08 R295) -/
  holds : Option Five
  /-- the head was under write hold at the last judgement (spec/08 R299) -/
  hold : Bool
  /-- zones and request times kept from abandoned breaks (spec/08 R305) -/
  keptReq : List (Nat × Nat)
  deriving DecidableEq, Repr

/-- Why a break runs. -/
inductive BreakKind where
  | triggered
  | full
  | host (c : Nat)
  deriving DecidableEq, Repr

/-- A break in progress (spec/08 R301 to R307). -/
structure Break where
  head : Fin 12
  zone : Fin 32
  tb : Int
  /-- next pass of Table 8-4, 1 to 8 -/
  pass : Nat
  at_ : Nat
  reqAt : Nat
  kind : BreakKind
  /-- interpolated values at T_b and the settings chosen so far -/
  base : Five
  chosen : Five
  failed : Bool
  /-- sectors that the write pass before left unwritten, and whether the pass under way has been taken by the sequencer -/
  unwritten : List Nat
  begun : Bool
  deriving DecidableEq, Repr

/-- A copy of a calibration record on media (spec/08 R297). -/
structure CalRecord where
  sequence : Nat
  /-- the SHAKE256 digest written with the copy, and the serial of the HDA on which it lies -/
  digest : Digest
  serial : BitVec 160
  heads : List HeadCal
  marks : List (Nat × Nat)
  recipes : List Nat
  deriving DecidableEq, Repr

/-- An actuator's calibration state (spec/08 Table 8-12). -/
structure ActCal where
  heads : Vector HeadCal 12
  brk : Option Break
  lastEnd : Option Nat
  /-- a change is not yet in the record, since when -/
  dirtyAt : Option Nat
  events : BitVec 7
  committed : Nat
  abandoned : Nat
  failed : Nat
  lastMs : Nat
  lastTb : W16
  /-- the two copies of the calibration record on media -/
  copy0 : Option CalRecord
  copy1 : Option CalRecord
  /-- zones committed by the running full calibration: head, zone (spec/08 R314) -/
  marks : List (Nat × Nat)
  /-- recipes in force since the last full-HDA format, by local head and zone (spec/08 R286) -/
  recipes : List Nat
  /-- values of the operation under way, interpolated before its first gate (spec/08 R295) -/
  values : Option Five
  /-- the record has been loaded since the last reset of the port: CAL_ACT_STATUS tells of its heads (spec/08 R318) -/
  told : Bool
  deriving DecidableEq, Repr

/-- Calibration temperature of a port (spec/08 R293): the valid readings from which T_f is formed, newest first, with their instants, and
the instant of the last. -/
structure PortCal where
  temps : List (Nat × Int)
  lastValid : Option Nat
  /-- write hold for want of a valid temperature (spec/08 R299) -/
  stale : Bool
  recipe : Option RecipeTable
  table : Option CalTable
  format : Option FormatTable
  servo : Option ServoTable
  deriving DecidableEq, Repr

/-- The CAL block's sled registers (spec/08 Table 8-11). -/
structure CalSled where
  threshold : Nat
  reconstruct : Bool
  sledMax : Nat
  spacing : Nat
  /-- instant at which the deferral ends -/
  deferUntil : Option Nat
  deriving DecidableEq, Repr

/-! ## Memory, map cache and crossings (spec/13, spec/14) -/

/-- What a map-cache line holds (spec/13 R511): 16 entries of the map, at a DRAM address. -/
structure Line where
  /-- the line's DRAM data address over 128 -/
  tag : Nat
  dirty : Bool
  stale : Bool
  preloaded : Bool
  deriving DecidableEq, Repr

/-- A set of the map cache: its ways and its tree pseudo-LRU bits (spec/13 R511). -/
structure CacheSet where
  index : Fin 4096
  ways : List (Fin 16 × Line)
  plru : BitVec 15
  deriving DecidableEq, Repr

/-- The map cache and its registers (spec/13 R511 to R521); a set not listed is empty with its bits 0. -/
structure MapCache where
  enabled : Bool
  invalidated : Bool
  locked : BitVec 16
  /-- ways a preload has named since the last invalidate-all -/
  named : BitVec 16
  sets : List CacheSet
  hits : W32
  misses : W32
  writebacks : W32
  deriving DecidableEq, Repr

/-- A burst of check bits on a DRAM channel, at its channel-local address (spec/13 R497). -/
structure CheckBurst where
  channel : Fin 8
  write : Bool
  addr : Nat
  deriving DecidableEq, Repr

/-- Memory: DRAM, ECC counts, scrubs, DMA (spec/13 R493 to R521). -/
structure Mem where
  capacityGib : Nat
  densityGb : Nat
  ranks : Nat
  trained : Byte
  /-- MiB of the write-buffer and peer-mirror regions, fixed at bring-up (spec/13 R499) -/
  bufferMib : Nat
  mirrorMib : Nat
  scrubHours : Nat
  passPct : Nat
  patrol : Bool
  /-- granules (or words) the two patrols have read in the present pass -/
  dramPos : Nat
  sramPos : Nat
  events : BitVec 7
  dmaHalts : Nat
  dmaChannel : Byte
  /-- channels halted and not restarted -/
  halted : List Byte
  errAddr : BitVec 38
  errSource : Fin 3
  dramCe : W32
  dramUe : W32
  sramCe : W32
  sramUe : W32
  /-- corrections of each page in the present pass (spec/13 R508) -/
  pageCe : List (Nat × Nat)
  /-- pages to be retired once their contents leave the buffer or the mirror -/
  retireDue : List Nat
  /-- refresh rate of each channel and rank from MR4 (spec/13 R493), and ranks that are hot -/
  refresh : List ((Fin 8 × Fin 2) × Fin 8)
  hot : List (Fin 8 × Fin 2)
  /-- last ZQ calibration and DQS oscillator count of each channel (spec/13 R494) -/
  zqAt : Vector (Option Nat) 8
  dqs : Vector W16 8
  /-- when that count was read last, and the write DQ delay of each channel, adjusted from it (spec/13 R494) -/
  dqsAt : Vector (Option Nat) 8
  writeDelay : Vector W16 8
  /-- DRAM in self-refresh in PS3, and when it last had work (spec/01 R42) -/
  selfRefresh : Bool
  workAt : Nat
  /-- the check-burst cache of each channel: granule and dirty, at most 256; and the bursts of check bits that have gone to and from
  DRAM, newest first, the model's own record (spec/13 R497, log 102) -/
  checks : Vector (List (Nat × Bool)) 8
  bursts : List CheckBurst
  deriving DecidableEq, Repr

/-- A register access that hangs on a stopped clock, or waits behind one (spec/14 R532): its requester and register, the value
of a write, and for a WINDOW_READ packet its tag and length (spec/19 Table 19-8). -/
structure Hung where
  who : Req
  off : Nat
  write : Option W32
  packet : Option (Byte × Nat)
  deriving DecidableEq, Repr

/-- Crossings (spec/14 R525 to R538). -/
structure Xing where
  stalePort : W32
  staleOther : BitVec 3
  events : BitVec 2
  discards : W32
  /-- _HI values captured by a _LO read: requester, offset of the _HI register, value -/
  captured : List (Req × Nat × W32)
  hung : List Hung
  /-- accesses that wait behind a hung one -/
  behind : List Hung
  /-- counts a pulse crossing has delivered, with its saturated mark, newest first -/
  delivered : List (Crossing × Nat × Bool)
  /-- PLLs whose correction needs a VCO band switch, which waits for a reset (spec/15 R553) -/
  bandDue : List TrimItem
  deriving DecidableEq, Repr

/-! ## Thermal monitor (spec/15) -/

/-- A sensor (spec/15 R540 to R544); temperatures in 1/16 °C. -/
structure Sensor where
  /-- last converted readings, newest first, at most 4 -/
  last : List Int
  /-- filtered readings of the last second with their instants, newest first -/
  hist : List (Nat × Int)
  count : W32
  same : Nat
  broken : Bool
  excluded : Bool
  /-- instant of the last raise by a rise above 8 °C (spec/15 R545) -/
  raisedAt : Option Nat
  deriving DecidableEq, Repr

/-- The always-on thermal monitor and the THERM block (spec/15 R545 to R560). -/
structure Therm where
  sensors : Vector Sensor 16
  step : Fin 4
  shutdownLatched : Bool
  /-- the shutdown was caused by four broken sensors, so it never restarts -/
  noRestart : Bool
  tripped : Bool
  events : BitVec 11
  /-- when the grace timer expires -/
  graceAt : Option Nat
  graceS : Nat
  /-- a throttle request was present at the last test -/
  request : Bool
  /-- since when the release condition of R547 has held -/
  coolSince : Option Nat
  hdaWarn : Nat
  hdaStop : Nat
  hdaMax : W16
  /-- ports above hda_warn and ports held by hda_stop -/
  warned : List PortId
  stopped : List PortId
  shutdowns : Nat
  /-- since when every included sensor has read below 100 °C (spec/15 R556) -/
  below100 : Option Nat
  rise : Int
  riseSensor : SensorId
  hot : Int
  hotSensor : SensorId
  dramHot : Bool
  /-- corrections applied (spec/15 R553): last instants -/
  trims : List (TrimItem × Nat)
  /-- minutes at or above WCTEMP and CCTEMP, in ms -/
  warnMs : Nat
  critMs : Nat
  deriving DecidableEq, Repr

/-! ## Redundant pair (spec/18) -/

/-- A mirror held for the peer (spec/18 R641): the message, its blocks. -/
structure Mirror where
  seq : W32
  ns : Nat
  adm : W32
  lba : Nat
  data : List Blk
  deriving DecidableEq, Repr

/-- A message sent and not yet answered (spec/18 R637). -/
structure SentMsg where
  type : Byte
  seq : W32
  ns : Nat
  lba : Nat
  adm : W32
  payload : List Nat
  data : List Blk
  ctx : Option Nat
  deriving DecidableEq, Repr

/-- A handover that this controller makes (spec/18 R653, R654): its ports and groups, the new epoch, and whether HANDOVER has
been sent. -/
structure Handing where
  ports : W32
  groups : BitVec 2
  epoch : BitVec 63
  sent : Bool
  deriving DecidableEq, Repr

/-- A media request run for the peer (spec/18 R626). -/
structure PeerReq where
  seq : W32
  act : ActId
  d : Descriptor
  deriving DecidableEq, Repr

/-- The pair and its Wings link (spec/18 R658). -/
structure Pair where
  /-- PAIR_STATUS.wings: 0 down, 1 training, 2 up, 3 reset in progress -/
  wings : Fin 4
  st : PairState
  settling : Bool
  settleAt : Nat
  peerAlive : Bool
  coordinator : Bool
  servesOther : Bool
  side : Bool
  mode : Bool
  epoch : BitVec 63
  /-- pairing found no epoch above the highest read, so none can be presented (spec/03 R124) -/
  epochOver : Bool
  own : W32
  peerOwn : W32
  heartbeatMs : Nat
  /-- the own heartbeat_ms in force: that of the last HEARTBEAT sent (spec/18 Table 18-7) -/
  hbMs : Nat
  peerHeartbeatMs : Nat
  lastHb : Option Nat
  hbSentAt : Nat
  events : BitVec 8
  resets : Nat
  takeovers : Nat
  handovers : Nat
  corr : W32
  uncorr : W32
  forwarded : W32
  uncorrAt : List Nat
  /-- when the last attempt to train the link began (spec/18 R638) -/
  trainAt : Option Nat
  /-- next block number expected, and messages sent and received (spec/18 R634, R635, R637) -/
  rxSeq : BitVec 13
  msgSeq : W32
  rxMsg : W32
  /-- a RETRY waits for its answer, since when (spec/18 R639) -/
  retryAt : Option Nat
  unanswered : List SentMsg
  mirrors : List Mirror
  journal : List (W32 × JournalRec)
  peerReqs : List PeerReq
  /-- what the last HELLO and HEARTBEAT of the peer said -/
  peerSide : Option Bool
  peerState : PairState
  /-- a HELLO has been completed since training, and highest epoch read from any companion (spec/03 R131) -/
  helloDone : Bool
  highest : BitVec 63
  peerLostAt : Option Nat
  /-- handover in progress: ports, groups, new epoch -/
  handing : Option Handing
  /-- ports being taken from the peer, whose answer it awaits, and groups that go with them -/
  taking : Option (W32 × BitVec 2)
  /-- SYNC to a rejoining peer is under way (spec/18 R655) -/
  syncing : Bool
  /-- command contexts whose completions are withheld (spec/18 R648) -/
  withheld : List Nat
  deriving DecidableEq, Repr

/-! ## Service port (spec/19) -/

/-- A COMP_FW operation (spec/19 R668). -/
structure CompFw where
  port : PortId
  tag : Byte
  ret : Bool
  length : Nat
  digest : Digest
  offset : Nat
  /-- 0 unloading, 1 writing, 2 activating, 3 measuring -/
  phase : Fin 4
  /-- fw_version before the update -/
  old : W32
  unloadAt : Option Nat
  deriving DecidableEq, Repr

/-- The service port (spec/19 R668 to R681): always on. -/
structure Service where
  eid : Byte
  /-- service buffer and recovery image bytes: (offset, byte) -/
  buffer : List Host.Cell
  recovery : List Host.Cell
  comp : Option CompFw
  /-- the request being served: its tag; and whether it waits for an admin command -/
  busy : Option Byte
  /-- when the last request that was not a host's ended (spec/01 R42) -/
  endedAt : Nat
  smbReleased : Nat
  deriving DecidableEq, Repr

/-! ## Power (spec/01) -/

/-- Power state of the device (spec/01 R38 to R43). -/
structure Power where
  /-- governing state the limits follow, as last applied -/
  current : Fin 4
  /-- PS3: the destage of R40 is under way, and the device is in PS3 after it -/
  entering : Bool
  inPs3 : Bool
  leaving : Bool
  /-- EXLAT of PS3 in seconds, fixed at bring-up (spec/01 R41) -/
  exlat : Nat
  /-- Concurrent Write Limit in force (feature 0xC3) -/
  writeLimit : Nat
  deriving DecidableEq, Repr

/-- One SX-32: everything the spec gives the device, the media of its HDAs, and the queue of waiting commands.
`free` counts the free values taken (the model's own field), `out` records what the device has sent. -/
structure State where
  now : Nat
  pins : Pins
  aon : Aon
  boot : Boot
  nor : Nor
  book : Recorder
  ident : Ident
  power : Power
  fa : HostFn
  fb : HostFn
  ctxs : List Ctx
  nextCtx : Nat
  admission : W32
  decisions : Nat
  lastShared : Fn
  names : Names
  prot : Prot
  ports : Vector Port 32
  spins : Vector Spin 32
  acts : Vector Act 64
  seqs : Vector Seq 64
  patch : Patch
  chorus : Chorus
  actCals : Vector ActCal 64
  portCals : Vector PortCal 32
  cal : CalSled
  mem : Mem
  mcache : MapCache
  xing : Xing
  therm : Therm
  pair : Pair
  svc : Service
  free : Nat
  out : List Out
  pending : List Instr
  deriving DecidableEq, Repr

/-! ## Reset: the device as a power-on reset leaves it (spec/02 R54), each register at its reset value -/

/-- Pins and straps: supplies of the always-on domain up, every other input inactive, straps open (spec/20
Table 20-8: internal pulls), DESIGN CHOICE, log 2. -/
def Pins.reset : Pins :=
  { aonPwrok := true, sysPwrok := false, railsOk := false, pwrfail := false, pwrfailAt := 0,
    perstA := true, perstB := true, testEn := false, jtag := .bypass, prsnt := 0, linkPll := false, linkCheckAt := 0,
    refclkA := true, refclkB := true,
    pairSide := false, bootSrc := false, hostaEn := true, hostbEn := true }

/-- The always-on domain after a power-on reset: held in main cold reset, on the RC oscillator (spec/02 R49),
BOOT_RESET_CAUSE 0x0000_0001 (Table 2-6), BOOT_PROGRESS 0 (Table 2-7). -/
def Aon.reset : Aon :=
  { hold := .mainCold, goodSince := none, riseAt := 0, xtal := false, cause := 1, attempts := 0, slot := false,
    recovery := false, dramState := 0, step := 0, error := 0, fillComplete := false, fill := .idle,
    bufferDirty := false, selfRefresh := false, dogArmed := false, dogAt := 0, dogStopped := false,
    overlapAt := some 0, overlapUsed := true, deferred := [], pairSide := false, bootSrc := false,
    hostaEn := true, hostbEn := true, held := [], heldLost := 0, lastBoot := 0, lastRelease := 0, seqMark := 0,
    afterPowerOn := true }

/-- Bring-up not begun. -/
def Boot.reset : Boot :=
  { cold := true, coldAt := 0, retries := Vector.replicate 8 0, trained := false, imageOk := false,
    recoveryWait := false, image := [], released := false, releaseAt := 0, complete := false,
    portsEnded := false, portsEndedAt := 0, preserved := false, afterShutdown := false,
    restored := true, replayed := true, backupFailed := false, degraded := false,
    spinGroup := 4, subsystem := 0, quad := false, bus := [] }

/-- An erased boot directory copy: its magic is not that of Table 2-5, so no field of it counts. -/
def BootDir.erased : BootDir :=
  { magic := 0xFFFFFFFF, sequence := 0xFFFFFFFF, preferred := true, attemptsMax := 255, stateA := 2, stateB := 2,
    attemptsA := 255, attemptsB := 255, digest := BitVec.allOnes 512 }

/-- Defaults of spec/07 Table 7-5. -/
def PoolParams.reset : PoolParams :=
  { recoveryBudget := 1000, recoverySteps := 31, rereadMax := 1, backgroundAge := 500, waitAlarm := 100 }

/-- The configuration store at its defaults (spec/19 Table 19-10, spec/10 Table 10-6, spec/06 Table 6-8,
spec/12 Table 12-13, spec/09 Table 9-6, spec/08 Table 8-7, spec/15 R552). -/
def ConfigStore.reset : ConfigStore :=
  { spinUpGroup := 4, dirtyLimitMib := 2048, holdupMs := 300, scrubHours := 24, pairMode := false,
    heartbeatMs := 500, subsystemId := 0, pool := PoolParams.reset, gateAhead := Vector.replicate 64 3,
    writeRetryMax := Vector.replicate 64 4, freezeA := true, freezeB := true, grace := 5, rebuildShare := 6,
    writeLimit := 32, calThreshold := 4, rebuildDelay := 60, spareAlarm := 10, calReconstruct := false,
    calSledMax := 8, calSpacing := 1000, hdaWarn := 60, hdaStop := 65, pairId := 0, retired := [],
    mayBeDirty := false, dumpMark := none, ops := [], lastHandle := 0 }

/-- SPI NOR contents: erased, with the configuration store at its defaults (DESIGN CHOICE, log 3: the spec gives no
contents as shipped). -/
def Nor.reset : Nor :=
  { dirs := Vector.replicate 2 BootDir.erased, slotA := [], slotB := [], manifest0 := [], manifest1 := [],
    bootCounter := 0, playbills := [], addenda := [], lostAddenda := [], ringNext := 0, erasedSlot := none, erasedSector := none,
    prompt := { cells := [], sector := 0, place := 0, erased := 16 }, patchStore := [],
    config := ConfigStore.reset }

/-- REC block and ring empty (spec/17 Table 17-6). -/
def Recorder.reset : Recorder :=
  { ring := [], isOpen := false, openAt := 0, inChain := false, nextSeq := 0, ready := false, clearing := false,
    erasePending := false, ringFromNor := false, norFault := false, inbox := [], found := [], held := [],
    heldLost := 0, heldFirst := 0, newAt := [], winEnd := 0, winDrops := 0, winFirst := 0, clearTo := 0,
    drops := 0, norSeq := 0, failedOnce := [], passed := [], lostFirst := 0, lostCount := 0 }

/-- IDENT block (spec/16 Table 16-15). -/
def Ident.reset : Ident :=
  { keyReady := false, keyFailed := false, certPresent := false, sealed := false, chainStart := false,
    manifest := none, copy := false, bootCounter := 0, addenda := 0, fwVersion := 0, securityVersion := 0,
    patchKey := [], stages := Vector.replicate 12 0, newest := 0, attestKey := 0, pages := [], traps := [],
    pendingNor := [], norTryAt := 0, playbill := [], added := [], due := [], nonceA := none, nonceB := none, nonceSvc := none }

/-- A vector after a host function reset. -/
def MsixVec.reset : MsixVec :=
  { masked := true, pending := false, cd := false, count := 0, timerAt := none, cond := false }

/-- A host function after reset (spec/11 Tables 11-3, 11-4); features at their defaults (log 5). -/
def HostFn.reset : HostFn :=
  { cfgReady := false, perstOffAt := 0, d3hot := false, pmeEn := false, pmeStatus := false, cc := 0, aqa := 0,
    rdy := false, cfs := false, acre := false, shst := 0, shutdown := 0, fetchStopped := false, sqs := [], cqs := [],
    vecs := Vector.replicate 65 MsixVec.reset, msixEnabled := false, shadow := none, thr := 0, time := 0, ab := 7,
    lpw := 0, mpw := 0, hpw := 0, rrLast := Vector.replicate 5 0, starved := false, turns := (0, 0, 0), aers := [], events := [],
    reported := [], asyncCfg := 0, ana1 := .optimized, ana2 := .inaccessible, anaCount := 0, errLog := [],
    errCount := 1, returned := [], freeze := true, ps := 0, lastOp := 0, overTemp := #v[378, 0xFFFF, 0xFFFF], underTemp := #v[0, 0, 0],
    download := [], subsys := 0 }

/-- No namespaces. -/
def Names.reset : Names :=
  { nss := [], zones := [], map := [], mapMedia := [], journal := [], pagesIn := [], pagesDirty := [], dirsDirty := [], mapDir := [], roots := [],
    dirsOut := [], toFind := [], buffer := [],
    flights := [], finishing := [], firstDue := [], lost := [], dirtyLimitMib := 2048, holdupMs := 300, wce := true,
    dumping := false, dumpAt := 0, sanitizeFailed := false, sanitizing := false }

/-- An empty port's member record. -/
def Member.reset : Member :=
  { st := .none, serial := 0, failed0 := false, failed1 := false, bands0 := 0, bands1 := 0, slotsUsed := [],
    spareUsed := [], reserveUsed := [], outAt0 := none, outAt1 := none, outNs0 := 0, outNs1 := 0, absentAt := 0, slips := [] }

/-- PROT block and media empty (spec/09 Tables 9-10, 9-11). -/
def Prot.reset : Prot :=
  { members := Vector.replicate 32 Member.reset, groups := [], excs := [], touched := [], sectors := [], bad := [],
    mcRows := [], nextMc := 0, mcPos := [], works := [], homecoming := [], rebuildHandle := 0, rebuildPhase := 0, rebuildState := 0
    rebuildHeld := false, rebuildDue := false, peerRebuild := false, marked := [],
    rebuildDone := 0, rebuildTotal := 0, checkpoint := 0, checkAck := none, started := 0, sys := [],
    reallocations := 0, events := 0 }

/-- A stream expecting sequence number 0. -/
def Stream.reset : Stream := { next := 0, discard := false, head := 0, pairs := [] }

/-- A port after a device reset (spec/03 Tables 3-14 to 3-19). -/
def Port.reset : Port :=
  { train := 0, fail := 0, dual := false, lane := false, obeyed := false, degraded := false, inService := false,
    tempAt := none, addendum := false, addendumNo := 0, persVerified := false, blockLock := false, clock := false,
    events := 0, attempt := 0, trained := 0, trainedBoot := 0, resets := [], hdaTemp := 0x8000, supplyMv := 0,
    flags := 0, token := 0, own := 0, smpCorr := 0, smpUncorr := 0, seqErr := 0, gateErr := 0, pktTimeout := 0,
    cmdUncorr := 0, cmdBase := none, chkCorr := 0, chkBase := none, chkRise := (0, 0), smpBadAt := [], cmdBadAt := [], statusAt := none
    cmdUp := false, joint := false, rxPos := none, compLock := false, compTime := 0, aligned := 0, stateAt := 0,
    removed := false, startMark := false, goneAt := 0, ended := false, entered := false, scram := 0x7FFFFFFF, data0 := Stream.reset
    data1 := Stream.reset,
    servo0 := Stream.reset, servo1 := Stream.reset, packets := Stream.reset, rx := [], urgent := [], normal := [],
    writes := [], txScram := 0x7FFFFFFF, txPos := 0, txSeq := 0, txSeq0 := 0, txSeq1 := 0, requests := [],
    companion := { ident := [], measure := [] }, recorded := [], pers := [], persDigest := 0 }

/-- A compensator at rest. -/
def Comp.reset : Comp := { s1 := 0, s2 := 0, s3 := 0, y := 0, sat := false, inLimits := 0, swapped := false }

/-- A parked actuator (spec/05 Tables 5-10 to 5-12). -/
def Act.reset : Act :=
  { wedge := 0, writeAllowed := false, readAllowed := false, profile1 := false, loaded := false, region := .parked,
    pes := 0, vel := 0, events := 0, inhibits := 0, shocks := 0, lost := 0, vcm := Comp.reset, ma := Comp.reset,
    sample := none, head := 0, target := 0, newTarget := none, prevPos := 0, prevVel := 0, prevSync := 0,
    expected := 0, entryCount := 0, exitCount := 0, shockExit := 0, recover := [], fresh := true, vRef := 0,
    regionAt := 0, timeouts := 0, missing := 0, lostAt := none, shockAt := [], outOfService := false, yOther := 0,
    yAt := none, loading := false, sent := (0, 0), reloadLost := false, reloadSeek := false }

/-- SPIN registers at reset (spec/04 Tables 4-7 to 4-10). -/
def Spin.reset : Spin :=
  { step := none, refused := false, ovLatched := false, chopper := false, inLock := false, inReg := false,
    backward := false, turning := false, st := .stopped, rpm := 0, target := 0, periodNs := 0xFFFFFFFF, levelRun := 0,
    levelCmd := 0, levelPs3 := 0, output := 0, advance := 0, events := 0, starts := 0, catches := 0, failures := 0,
    margin := 0, aligned := false, reverse := false, pair := 0, zcs := [], heard := 0, found := none, adv := 0, te := 0, cyc := 0, missed := 0,
    syncLosses := 0, cycles := 0, sense := [], tests := 0, forcedAt := 0,
    forcedStepAt := 0, forcedOk := 0, forcedGot := false, forcedN := 0, restBrake := false, forcedFails := 0, integ := 0
    reached := false, lockRevs := 0, outRevs := 0,
    outAt := 0, phaseAt := 0, slotAt := none, wantSlot := false, unloading := false, thenStart := false, retarget := false,
    restart := false, levelSet := false, parkDue := [], drive := { mode := 0, u := 0, v := 0, w := 0, applyAt := 0, sentAt := 0 }, table := none }

/-- SEQ registers at reset (spec/06 Tables 6-15, 6-16). -/
def Seq.reset : Seq :=
  { st := .offline, fault := 0, stack := [], switchPending := false, bank := false, addr := 0, nano := 0, events := 0,
    rewrites := 0, gateErrors := 0, faults := 0, timer := 0, retries := 0, sectorsLeft := 0, nextSector := 0,
    op := none, queue := [], rewrite := [], gates := [], affected := false, opAt := 0, faultAt := none,
    wordAt := 0, outOfService := false, gateAhead := 3, retryMax := 4, wedgeSeen := false, done := [], lost := [], acted := false, unwritten := [] }

/-- No patch (spec/06 R229, R232). -/
def Patch.reset : Patch :=
  { bank0 := { micro := [], nano := [], matches_ := [] }, bank1 := { micro := [], nano := [], matches_ := [] },
    newest := false, version := 0, digest := 0, remaining := 0, lastResult := 0, bootInvalid := false,
    switching := false }

/-- CHORUS block at reset (spec/07 Tables 7-8 to 7-10). -/
def Eng.reset : Eng :=
  { st := .offline, act := 0, cls := 0, mark := false, gateDue := false, slots := [], events := 0, sessions := 0,
    captures := 0, recovered := 0, unrecovered := 0, faultAt := none, refault := false, recAt := none, work := none
    boundAt := 0, window := [], offsets := [] }

def ActPool.reset : ActPool := { req := none, underruns := 0, stagingErrors := 0, enc := 0, encReady := false, sent := 0, held := [] }

def Chorus.reset : Chorus :=
  { engs := Vector.replicate 24 Eng.reset, acts := Vector.replicate 64 ActPool.reset, waitMax := 0, waitEver := 0, events := 0,
    params := PoolParams.reset, rebuildShare := 6, gatedOrder := [], staging := [] }

/-- CAL block at reset (spec/08 Tables 8-11, 8-12). -/
def HeadCal.reset : HeadCal :=
  { entries := [], tCal := none, failed := false, fails := 0, breaks := 0, abandoned := 0, lastAt := none, lastMs := 0,
    cfgFails := 0, holds := none, hold := false, keptReq := [] }

def ActCal.reset : ActCal :=
  { heads := Vector.replicate 12 HeadCal.reset, brk := none, lastEnd := none, dirtyAt := none, events := 0,
    committed := 0, abandoned := 0, failed := 0, lastMs := 0, lastTb := 0x8000, copy0 := none, copy1 := none,
    marks := [], recipes := [], values := none, told := false }

def PortCal.reset : PortCal :=
  { temps := [], lastValid := none, stale := false, recipe := none, table := none, format := none,
    servo := none }

def CalSled.reset : CalSled := { threshold := 4, reconstruct := false, sledMax := 8, spacing := 1000, deferUntil := none }

/-- MEM block at reset (spec/13 Tables 13-10, 13-11). -/
def Mem.reset : Mem :=
  { capacityGib := 0, densityGb := 0, ranks := 0, trained := 0, bufferMib := 0, mirrorMib := 0, scrubHours := 24, passPct := 0, patrol := false,
    dramPos := 0, sramPos := 0, events := 0, dmaHalts := 0, dmaChannel := 0, halted := [], errAddr := 0,
    errSource := 0, dramCe := 0, dramUe := 0, sramCe := 0, sramUe := 0, pageCe := [], retireDue := [], refresh := [],
    hot := [], zqAt := Vector.replicate 8 none, dqs := Vector.replicate 8 0, dqsAt := Vector.replicate 8 none, writeDelay := Vector.replicate 8 0, selfRefresh := false, workAt := 0
    checks := Vector.replicate 8 [], bursts := [] }

/-- The map cache disabled and empty (spec/13 R513). -/
def MapCache.reset : MapCache :=
  { enabled := false, invalidated := false, locked := 0, named := 0, sets := [], hits := 0, misses := 0,
    writebacks := 0 }

/-- XING block at reset (spec/14 Table 14-2). -/
def Xing.reset : Xing :=
  { stalePort := 0, staleOther := 0, events := 0, discards := 0, captured := [], hung := [], behind := [],
    delivered := [], bandDue := [] }

/-- THERM block at reset (spec/15 Table 15-7). -/
def Sensor.reset : Sensor :=
  { last := [], hist := [], count := 0, same := 0, broken := false, excluded := false, raisedAt := none }

def Therm.reset : Therm :=
  { sensors := Vector.replicate 16 Sensor.reset, step := 0, shutdownLatched := false, noRestart := false,
    tripped := false, events := 0, graceAt := none, graceS := 5, request := false, coolSince := none, hdaWarn := 60,
    hdaStop := 65, hdaMax := 0x8000, warned := [], stopped := [], shutdowns := 0, below100 := none, rise := 0,
    riseSensor := 0, hot := 0, hotSensor := 0, dramHot := false, trims := [], warnMs := 0, critMs := 0 }

/-- PAIR block at reset (spec/18 Tables 18-7, 18-8). -/
def Pair.reset : Pair :=
  { wings := 0, st := .single, settling := false, settleAt := 0, peerAlive := false, coordinator := false,
    servesOther := false, side := false, mode := false, epoch := 0, epochOver := false, own := 0, peerOwn := 0, heartbeatMs := 500, hbMs := 500,
    peerHeartbeatMs := 0, lastHb := none, hbSentAt := 0, events := 0, resets := 0, takeovers := 0, handovers := 0,
    corr := 0, uncorr := 0, forwarded := 0, uncorrAt := [], trainAt := none, rxSeq := 0, msgSeq := 0, rxMsg := 0,
    retryAt := none, unanswered := [], mirrors := [], journal := [], peerReqs := [],
    peerSide := none, peerState := .single, helloDone := false,
    highest := 0, peerLostAt := none, handing := none, taking := none, syncing := false, withheld := [] }

/-- The service port (spec/19). -/
def Service.reset : Service :=
  { eid := 0, buffer := [], recovery := [], comp := none, busy := none, endedAt := 0, smbReleased := 0 }

def Power.reset : Power :=
  { current := 0, entering := false, inPs3 := false, leaving := false, exlat := 121, writeLimit := 32 }

/-- The device right after a power-on reset: held in main cold reset until SYS_PWROK and the rails are good. -/
def State.reset : State :=
  { now := 0, pins := Pins.reset, aon := Aon.reset, boot := Boot.reset, nor := Nor.reset, book := Recorder.reset,
    ident := Ident.reset, power := Power.reset, fa := HostFn.reset, fb := HostFn.reset, ctxs := [], nextCtx := 0,
    admission := 0, decisions := 0, lastShared := .b, names := Names.reset, prot := Prot.reset,
    ports := Vector.replicate 32 Port.reset, spins := Vector.replicate 32 Spin.reset,
    acts := Vector.replicate 64 Act.reset, seqs := Vector.replicate 64 Seq.reset, patch := Patch.reset,
    chorus := Chorus.reset, actCals := Vector.replicate 64 ActCal.reset,
    portCals := Vector.replicate 32 PortCal.reset, cal := CalSled.reset, mem := Mem.reset, mcache := MapCache.reset,
    xing := Xing.reset, therm := Therm.reset, pair := Pair.reset, svc := Service.reset, free := 0, out := [],
    pending := [] }

end Sys2Proof.Machine
end

