-- ==== Sys2Proof/Machine/Clock.lean ====
section
/-! DEFINITION. The model's clock: instants in nanoseconds, and link time (spec/03 R104). -/

namespace Sys2Proof.Machine

/-- The clock domains (spec/01 Table 1-4). -/
inductive Domain where
  | chorus (e : EngId)
  | control
  | fabric
  | servoSeq
  | pcie (f : Fn)
  | dram
  | recovered (p : PortId)
  | linkTx
  | alwaysOn
  deriving DecidableEq, Repr

/-- An idle step: the clock advances by one tick (DESIGN CHOICE, log 2). -/
def State.idle (s : State) : State := { s with now := s.now + Config.tick }

/-- A time-driven command due at t takes place at t, or at once when the clock is past it (log 2). -/
def State.at_ (s : State) (t : Nat) : State := { s with now := max s.now t }

/-- Ticks of link time in a span of ns: one tick is 1 / 1.66015625 GHz, that is 425 / 256 ticks a ns (spec/03
R104). -/
def ticksOfNs (ns : Nat) : Nat := ns * 425 / 256

/-- A span of link ticks in ns. -/
def nsOfTicks (t : Nat) : Nat := t * 256 / 425

/-- The controller's link time, 48 bits (spec/03 R104). It counts from the model's instant 0 at its nominal rate, through every reset and
every loss of REFCLK_LINK (DESIGN CHOICE, log 121: R104 gives no start and no stop). -/
def State.linkNow (s : State) : BitVec 48 := BitVec.ofNat 48 (ticksOfNs s.now)

/-- Its low 32 bits, as apply_time and open_time fields hold them (spec/03 R106). -/
def State.linkNow32 (s : State) : W32 := BitVec.ofNat 32 (ticksOfNs s.now)

/-- Whether a 32-bit time lies in the future of another (spec/03 R106). -/
def isFuture (t now : W32) : Bool := decide ((t - now).toNat < 0x80000000)

end Sys2Proof.Machine
end

