-- ==== Sys2Proof/Machine/Bits.lean ====
section
/-! DEFINITION. Bit fields, byte order, rounding and list helpers that the meanings share. -/

namespace Sys2Proof.Machine

/-! ## Byte order (spec/00 R11: little-endian) -/

/-- The n low bytes of a number, least significant first. -/
def leBytes : Nat → Nat → List Byte
  | 0, _ => []
  | n + 1, v => BitVec.ofNat 8 v :: leBytes n (v / 256)

/-- The number that a byte string spells, least significant byte first. -/
def ofLe : List Byte → Nat
  | [] => 0
  | b :: bs => b.toNat + 256 * ofLe bs

/-- The little-endian field of n bytes at an offset; bytes beyond the end read 0. -/
def field (bs : List Byte) (off n : Nat) : Nat := ofLe ((bs.drop off).take n)

/-- A two's-complement reading of an n-bit number. -/
def signed (n v : Nat) : Int := if v < 2 ^ (n - 1) then (v : Int) else (v : Int) - (2 ^ n : Nat)

/-- The n-bit two's-complement code of an integer. -/
def unsigned (n : Nat) (v : Int) : Nat := (v % ((2 ^ n : Nat) : Int)).toNat

/-- A byte string cut or padded with zeros to n bytes. -/
def padTo (n : Nat) (bs : List Byte) : List Byte := bs.take n ++ List.replicate (n - bs.length) 0

/-- Fields of given sizes in order, as one little-endian number (a record's payload). -/
def pack : List (Nat × Nat) → Nat
  | [] => 0
  | (n, v) :: r => v % 256 ^ n + 256 ^ n * pack r

/-- Fields of given sizes in order, as bytes. -/
def packBytes : List (Nat × Nat) → List Byte
  | [] => []
  | (n, v) :: r => leBytes n v ++ packBytes r

/-- A digest as its 64 bytes. -/
def digestBytes (d : Digest) : List Byte := leBytes 64 d.toNat

/-- SHAKE256 with a 64-byte output (spec/16 R566). -/
def digest (bs : List Byte) : Digest := Config.shake256 bs

/-- Bit n of a register, as a number. -/
def bit (b : Bool) : Nat := if b then 1 else 0

/-- A register word from fields: value and lowest bit of each. -/
def word : List (Nat × Nat) → W32
  | [] => 0
  | (v, lo) :: r => BitVec.ofNat 32 (v * 2 ^ lo) ||| word r

/-- Bits [hi:lo] of a 32-bit word. -/
def bits (w : W32) (hi lo : Nat) : Nat := w.toNat / 2 ^ lo % 2 ^ (hi + 1 - lo)

/-- A saturating increase. -/
def satAdd (limit a n : Nat) : Nat := min limit (a + n)

/-- A 32-bit counter that saturates at 0xFFFF_FFFF. -/
def sat32 (c : W32) (n : Nat) : W32 := BitVec.ofNat 32 (min 0xFFFFFFFF (c.toNat + n))

/-- Set bit n of a register of w bits. -/
def setBit {w : Nat} (r : BitVec w) (n : Nat) : BitVec w := r ||| BitVec.ofNat w (2 ^ n)

/-- Clear bit n. -/
def clearBit {w : Nat} (r : BitVec w) (n : Nat) : BitVec w := r &&& ~~~(BitVec.ofNat w (2 ^ n))

/-! ## Rounding -/

/-- Division rounded toward minus infinity. -/
def floorDiv (a : Int) (b : Nat) : Int := Int.fdiv a b

/-- To the nearest, half-way cases upward (spec/05 R189, spec/08 R293, spec/15 R541). -/
def roundHalfUp (a : Int) (b : Nat) : Int := Int.fdiv (2 * a + b) (2 * b)

/-- A quotient where the spec states no rounding: exact when it divides, else the floor or one more (log 7). -/
def freeRound (a : Int) (b : Nat) : Int :=
  if Int.fmod a b = 0 then Int.fdiv a b
  else if Config.roundUp a b then Int.fdiv a b + 1 else Int.fdiv a b

/-- Ceiling of a quotient. -/
def ceilDiv (a b : Nat) : Nat := (a + b - 1) / b

/-- A value clamped to a range. -/
def clamp (lo hi x : Int) : Int := max lo (min hi x)

/-! ## Lists and vectors -/

/-- A vector with one element changed. -/
def upd {α : Type} {n : Nat} (v : Vector α n) (i : Fin n) (f : α → α) : Vector α n := v.set i.val (f (v[i])) i.isLt

/-- The elements of a list with those that meet a test changed. -/
def mapWhere {α : Type} (t : α → Bool) (f : α → α) (l : List α) : List α := l.map fun x => if t x then f x else x

/-- A list without its i-th element. -/
def dropAt {α : Type} : Nat → List α → List α
  | _, [] => []
  | 0, _ :: r => r
  | n + 1, x :: r => x :: dropAt n r

/-- Every number below n, as Fin. -/
def fins (n : Nat) : List (Fin n) := List.finRange n

/-- Instants that are younger than a span before now. -/
def recent (now span : Nat) (l : List Nat) : List Nat := l.filter fun t => decide (now < t + span)

/-- An association list with one key set. -/
def put {κ α : Type} [DecidableEq κ] (k : κ) (v : α) (l : List (κ × α)) : List (κ × α) :=
  (k, v) :: l.filter fun p => decide (p.1 ≠ k)

/-! ## Sparse byte buffers: rising offsets, no zero byte listed -/

/-- Whether a buffer is in its canonical form: offsets strictly rising, no listed zero. -/
def bufWf : List Host.Cell → Bool
  | [] => true
  | [(_, b)] => b != 0
  | (a, b) :: (a', b') :: r => b != 0 && decide (a < a') && bufWf ((a', b') :: r)

/-- The byte at an offset; one not listed is 0 (spec/02 R62). -/
def bufGet : List Host.Cell → Nat → Byte
  | [], _ => 0
  | (a, b) :: r, x => if a = x then b else bufGet r x

/-- Write one byte, keeping the canonical form. -/
def bufPut : List Host.Cell → Nat → Byte → List Host.Cell
  | [], x, v => if v = 0 then [] else [(x, v)]
  | (a, b) :: r, x, v =>
    if x < a then (if v = 0 then (a, b) :: r else (x, v) :: (a, b) :: r)
    else if x = a then (if v = 0 then r else (x, v) :: r)
    else (a, b) :: bufPut r x v

/-- Write bytes from an offset upward. -/
def bufWrite (l : List Host.Cell) (off : Nat) : List Byte → List Host.Cell
  | [] => l
  | b :: bs => bufWrite (bufPut l off b) (off + 1) bs

/-- Read n bytes from an offset. -/
def bufRead (l : List Host.Cell) (off n : Nat) : List Byte := (List.range n).map fun i => bufGet l (off + i)

/-- n bytes that are 0 but in the ranges (offset, size) where a base gives them. -/
def keepBytes (ranges : List (Nat × Nat)) (n : Nat) (base : List Byte) : List Byte :=
  (List.range n).map fun i => if ranges.any fun r => decide (r.1 ≤ i) && decide (i < r.1 + r.2) then base.getD i 0 else 0

end Sys2Proof.Machine
end

