-- ==== Sys2Proof/Machine/Ops.lean ====
section
/-! DEFINITION. Named operations over the state: its parts by number, events of the Prompt Book and the _EVENTS
registers, free values and outputs. -/

namespace Sys2Proof.Machine

/-! ## Parts by number -/

def State.port (s : State) (p : PortId) : Port := s.ports[p]
def State.spin (s : State) (p : PortId) : Spin := s.spins[p]
def State.act (s : State) (a : ActId) : Act := s.acts[a]
def State.seq (s : State) (a : ActId) : Seq := s.seqs[a]
def State.eng (s : State) (e : EngId) : Eng := s.chorus.engs[e]
def State.pool (s : State) (a : ActId) : ActPool := s.chorus.acts[a]
def State.acal (s : State) (a : ActId) : ActCal := s.actCals[a]
def State.pcal (s : State) (p : PortId) : PortCal := s.portCals[p]
def State.member (s : State) (p : PortId) : Member := s.prot.members[p]
def State.fn (s : State) : Fn → HostFn
  | .a => s.fa
  | .b => s.fb

def State.modPort (p : PortId) (f : Port → Port) (s : State) : State := { s with ports := upd s.ports p f }
def State.modSpin (p : PortId) (f : Spin → Spin) (s : State) : State := { s with spins := upd s.spins p f }
def State.modAct (a : ActId) (f : Act → Act) (s : State) : State := { s with acts := upd s.acts a f }
def State.modSeq (a : ActId) (f : Seq → Seq) (s : State) : State := { s with seqs := upd s.seqs a f }
def State.modEng (e : EngId) (f : Eng → Eng) (s : State) : State :=
  { s with chorus := { s.chorus with engs := upd s.chorus.engs e f } }
def State.modPool (a : ActId) (f : ActPool → ActPool) (s : State) : State :=
  { s with chorus := { s.chorus with acts := upd s.chorus.acts a f } }
def State.modAcal (a : ActId) (f : ActCal → ActCal) (s : State) : State := { s with actCals := upd s.actCals a f }
def State.modPcal (p : PortId) (f : PortCal → PortCal) (s : State) : State := { s with portCals := upd s.portCals p f }
def State.modMember (p : PortId) (f : Member → Member) (s : State) : State :=
  { s with prot := { s.prot with members := upd s.prot.members p f } }
def State.modFn (f : Fn) (g : HostFn → HostFn) (s : State) : State :=
  match f with
  | .a => { s with fa := g s.fa }
  | .b => { s with fb := g s.fb }

def State.modAon (f : Aon → Aon) (s : State) : State := { s with aon := f s.aon }
def State.modBoot (f : Boot → Boot) (s : State) : State := { s with boot := f s.boot }
def State.modPins (f : Pins → Pins) (s : State) : State := { s with pins := f s.pins }
def State.modNor (f : Nor → Nor) (s : State) : State := { s with nor := f s.nor }
def State.modCfg (f : ConfigStore → ConfigStore) (s : State) : State :=
  { s with nor := { s.nor with config := f s.nor.config } }
def State.modBook (f : Recorder → Recorder) (s : State) : State := { s with book := f s.book }
def State.modIdent (f : Ident → Ident) (s : State) : State := { s with ident := f s.ident }
def State.modNames (f : Names → Names) (s : State) : State := { s with names := f s.names }
def State.modProt (f : Prot → Prot) (s : State) : State := { s with prot := f s.prot }
def State.modPatch (f : Patch → Patch) (s : State) : State := { s with patch := f s.patch }
def State.modChorus (f : Chorus → Chorus) (s : State) : State := { s with chorus := f s.chorus }
def State.modMem (f : Mem → Mem) (s : State) : State := { s with mem := f s.mem }
def State.modCache (f : MapCache → MapCache) (s : State) : State := { s with mcache := f s.mcache }
def State.modXing (f : Xing → Xing) (s : State) : State := { s with xing := f s.xing }
def State.modTherm (f : Therm → Therm) (s : State) : State := { s with therm := f s.therm }
def State.modPair (f : Pair → Pair) (s : State) : State := { s with pair := f s.pair }
def State.modSvc (f : Service → Service) (s : State) : State := { s with svc := f s.svc }
def State.modPower (f : Power → Power) (s : State) : State := { s with power := f s.power }

/-- The write buffer that a warm device reset preserved is still to be destaged: that is the first media work of firmware, before
breaks, rebuild, scans and formats; reads and the work of hosts go on (spec/02 R61; DEDUCED, log 98). The same of what a dump holds,
which is first to be read (spec/10 R401). -/
def State.destageFirst (s : State) : Bool := s.names.firstDue != [] || (s.boot.released && !s.boot.restored)

/-- The key of a dirty block (kind 0), map page (1) or directory page (2): its kind, namespace and number. -/
def dumpKey (kind ns n : Nat) : Nat := kind * 2 ^ 62 + ns * 2 ^ 48 + n

/-- The dirty blocks: those of the write buffer that are not on media. -/
def Names.unstored (n : Names) : List Dirty := n.buffer.filter fun d => !d.stored

/-- The keys of all dirty data: blocks, map pages and directory pages (spec/10 R388, R389). -/
def Names.dirtyKeys (n : Names) : List Nat :=
  n.unstored.map (fun d => dumpKey 0 d.ns d.lba) ++ n.pagesDirty.map (fun q => dumpKey 1 q.1 q.2) ++
    n.dirsDirty.map fun q => dumpKey 2 q.1 q.2

/-- Apply an operation when a condition holds. -/
def State.when (b : Bool) (f : State → State) (s : State) : State := if b then f s else s

/-- Apply an operation for each element of a list, in order. -/
def State.each {α : Type} (l : List α) (f : α → State → State) (s : State) : State := l.foldl (fun t x => f x t) s

/-! ## Numbering (spec/00 R17) -/

/-- The port of an actuator. -/
def portOf (a : ActId) : PortId := ⟨a.val / 2, by omega⟩

/-- The side of an actuator. -/
def sideOf (a : ActId) : Side := ⟨a.val % 2, by omega⟩

/-- The actuator of a side of a port. -/
def actOf (p : PortId) (sd : Side) : ActId := ⟨p.val * 2 + sd.val, by omega⟩

/-- The HDA-global number of a local head. -/
def globalHead (sd : Side) (h : Fin 12) : Nat := sd.val * 12 + h.val

/-! ## Free values and outputs -/

/-- Take a free value: the counter advances (log 8). -/
def State.takeFree (s : State) : State := { s with free := s.free + 1 }

/-- Record an output. -/
def State.emitOut (o : Out) (s : State) : State := { s with out := o :: s.out }

/-! ## Events (spec/17 R605, R607, R732) -/

/-- µs since the release of the control processors. -/
def State.uptime (s : State) : Nat := (s.now - s.boot.releaseAt) / 1000

/-- The event as the recorder will hold it: boot and µs at its moment (spec/17 R599, R607). -/
def State.mkEvent (s : State) (cls code source : Nat) (payload : List (BitVec 256)) : Event :=
  { cls := BitVec.ofNat 8 cls, code := BitVec.ofNat 16 code, source := BitVec.ofNat 16 source,
    payload := if payload = [] then [0] else payload,
    boot := if s.boot.released then BitVec.ofNat 32 s.ident.bootCounter.toNat else s.aon.lastBoot,
    uptime := if s.boot.released then s.uptime else (s.now - s.aon.lastRelease) / 1000, held := false }

/-- An event goes to the recorder; until the recorder takes events it is held by firmware (at most 1,024), and
before the release only THERM events are held, by the always-on domain (at most 16): spec/17 R607, R732. -/
def State.emit (cls code source : Nat) (payload : List (BitVec 256)) (s : State) : State :=
  let e := s.mkEvent cls code source payload
  if s.boot.released then
    if s.book.ready then s.modBook fun b => { b with inbox := b.inbox ++ [e] }
    else if s.book.held.length < 1024 then s.modBook fun b => { b with held := b.held ++ [{ e with held := true }] }
    else s.modBook fun b => { b with heldLost := b.heldLost + 1, drops := sat32 b.drops 1,
                                     heldFirst := if b.heldLost = 0 then e.uptime else b.heldFirst }
  else if cls = 0x0A then
    if s.aon.held.length < 16 then s.modAon fun a => { a with held := a.held ++ [{ e with held := true }] }
    else s.modAon fun a => { a with heldLost := a.heldLost + 1 }
  else s

/-- Source of an event that concerns the device (spec/17 Table 17-2). -/
def noSource : Nat := 0xFFFF

/-- Valid readings of hda_temp received in the last 16 ms. -/
def recentTemps (now : Nat) (l : List (Nat × Int)) : List (Nat × Int) := l.filter fun q => decide (now < q.1 + 16 * Config.ms)

/-- T_f: the mean of the readings of the last 16 ms, a half rounded up; with none, its last value, which the newest reading gave (spec/08
R293); 0 before the first (DESIGN CHOICE, log 113). -/
def PortCal.tf (c : PortCal) (now : Nat) : Int :=
  let l := recentTemps now c.temps
  match l, c.temps with
  | [], [] => 0
  | [], q :: _ => q.2
  | l, _ => roundHalfUp (l.map Prod.snd).sum l.length

/-- T_f of a port. -/
def State.tf (s : State) (p : PortId) : Int := (s.pcal p).tf s.now

def State.raisePort (p : PortId) (n : Nat) (s : State) : State :=
  (s.modPort p fun x => { x with events := setBit x.events n }).emit 0x02 n p.val []
def State.raiseSpin (p : PortId) (n : Nat) (s : State) : State :=
  (s.modSpin p fun x => { x with events := setBit x.events n }).emit 0x03 n p.val []
def State.raiseServo (a : ActId) (n : Nat) (s : State) : State :=
  (s.modAct a fun x => { x with events := setBit x.events n }).emit 0x04 n a.val []
def State.raiseSeq (a : ActId) (n : Nat) (s : State) : State :=
  (s.modSeq a fun x => { x with events := setBit x.events n }).emit 0x05 n a.val []
def State.raisePool (n : Nat) (s : State) : State :=
  (s.modChorus fun x => { x with events := setBit x.events n }).emit 0x06 n noSource []
def State.raiseEng (e : EngId) (n : Nat) (s : State) : State :=
  (s.modEng e fun x => { x with events := setBit x.events n }).emit 0x06 (0x100 + n) e.val []
def State.raiseCal (a : ActId) (n : Nat) (payload : List (BitVec 256)) (s : State) : State :=
  (s.modAcal a fun x => { x with events := setBit x.events n }).emit 0x07 n a.val payload
def State.raiseProt (n src : Nat) (s : State) : State :=
  (s.modProt fun x => { x with events := setBit x.events n }).emit 0x08 n src []
def State.raiseMem (n : Nat) (payload : List (BitVec 256)) (s : State) : State :=
  (s.modMem fun x => { x with events := setBit x.events n }).emit 0x09 n noSource payload
def State.raiseTherm (n src : Nat) (s : State) : State :=
  (s.modTherm fun x => { x with events := setBit x.events n }).emit 0x0A n src []
def State.raiseXing (n : Nat) (s : State) : State :=
  (s.modXing fun x => { x with events := setBit x.events n }).emit 0x0B n noSource []

/-- The payload of one record from fields of given sizes. -/
def pay (l : List (Nat × Nat)) : List (BitVec 256) := [BitVec.ofNat 256 (pack l)]

end Sys2Proof.Machine
end

