-- ==== Sys2Proof/Machine/Operands.lean ====
section
/-! DEFINITION. The operands of host commands: the dwords of a submission entry, the action field, and which command a context
holds (spec/12 Tables 12-5 to 12-12). -/

namespace Sys2Proof.Machine

/-- The command dwords of an entry by number. -/
def cdwOf (e : SqEntry) : Nat → W32
  | 10 => e.cdw10
  | 11 => e.cdw11
  | 12 => e.cdw12
  | 13 => e.cdw13
  | 14 => e.cdw14
  | 15 => e.cdw15
  | _ => 0

/-- The action field [7:0] of a vendor command's dword 10 (spec/12 Tables 12-5, 12-9 to 12-12). -/
def actionOf (e : SqEntry) : Nat := bits e.cdw10 7 0

/-- Whether a command is an admin command: its queue is 0. -/
def Ctx.isAdmin (x : Ctx) : Bool := x.sq == 0

/-- The function that a command belongs to; a service-port command belongs to none. -/
def Ctx.fn? (x : Ctx) : Option Fn :=
  match x.origin with
  | .host f => some f
  | .peer _ f _ => some f
  | .service _ => none
  | .gone => none

/-- Origin code of a long operation (spec/12 Table 12-6). -/
def Ctx.originCode (x : Ctx) : Nat :=
  match x.origin with
  | .host .a => 0
  | .host .b => 1
  | .peer _ .a _ => 0
  | .peer _ .b _ => 1
  | .service _ => 2
  | .gone => 2

/-- An admin command of an opcode. -/
def isAdminOp (op : Nat) (x : Ctx) : Bool := x.isAdmin && x.entry.opcode.toNat == op

/-- An admin command of an opcode with an action in dword 10 [7:0]. -/
def isAction (op action : Nat) (x : Ctx) : Bool := isAdminOp op x && actionOf x.entry == action

/-- An I/O command of an opcode. -/
def isIoOp (op : Nat) (x : Ctx) : Bool := !x.isAdmin && x.entry.opcode.toNat == op

end Sys2Proof.Machine
end

