-- ==== Sys2Proof/Machine/Cmd.lean ====
section
/-! DEFINITION. Command contexts and completions: finding a context, its fields, statuses and how a command ends. -/

namespace Sys2Proof.Machine

/-! ## Statuses (spec/12 Table 12-3) -/

/-- Successful Completion. -/
def Cpl.ok : Cpl :=
  { sct := 0, sc := 0, dnr := false, crd := 0, dw0 := 0, dw1 := 0, bytes := [], blocks := [], errLoc := 0xFFFF,
    errLba := 0 }

/-- Successful Completion with a value in dword 0. -/
def Cpl.val (v : W32) : Cpl := { Cpl.ok with dw0 := v }

/-- Successful Completion with data returned through the data pointer. -/
def Cpl.data (bs : List Byte) : Cpl := { Cpl.ok with bytes := bs }

/-- A status code type and code. -/
def Cpl.err (sct sc : Nat) : Cpl := { Cpl.ok with sct := sct, sc := sc, dnr := Config.dnr sct sc }

/-- A status with a value in dword 0. -/
def Cpl.errVal (sct sc : Nat) (v : W32) : Cpl := { Cpl.err sct sc with dw0 := v }

/-- Parameter Error Location of a byte of the submission entry and a bit in it (spec/12 Table 12-2). -/
def byteLoc (byte bit : Nat) : W16 := BitVec.ofNat 16 (byte + 256 * bit)

/-- Parameter Error Location of a field of command dword n that starts at a bit. -/
def cdwLoc (n lo : Nat) : W16 := byteLoc (4 * n + lo / 8) (lo % 8)

/-- Invalid Field in Command, for the field of command dword n that starts at a bit. -/
def Cpl.invalid (n lo : Nat) : Cpl := { Cpl.err 0x0 0x02 with errLoc := cdwLoc n lo }

def Cpl.badOpcode : Cpl := Cpl.err 0x0 0x01
def Cpl.internal : Cpl := Cpl.err 0x0 0x06
def Cpl.seqError : Cpl := Cpl.err 0x0 0x0C
def Cpl.badNs : Cpl := Cpl.err 0x0 0x0B
def Cpl.lbaRange : Cpl := Cpl.err 0x0 0x80
def Cpl.sanitizing : Cpl := Cpl.err 0x0 0x1D

/-- Namespace Not Ready: Do Not Retry cleared, and Command Retry Delay 1 where the host has enabled Advanced Command Retry (spec/02
R88). -/
def Cpl.notReady (acre : Bool) : Cpl := { Cpl.err 0x0 0x82 with dnr := false, crd := if acre then 1 else 0 }

/-- The status field of a completion entry, phase bit 0: SC, SCT, CRD, DNR. -/
def Cpl.status (r : Cpl) : W16 :=
  BitVec.ofNat 16 (r.sc * 2 + r.sct * 512 + r.crd * 4096 + bit r.dnr * 32768)

/-- Whether a completion is a success. -/
def Cpl.good (r : Cpl) : Bool := r.sct == 0 && r.sc == 0

/-- The place of a field in the entry: command dword and first bit, in ascending order of bytes and of bits in a byte. -/
def fieldPlace (q : Bool × Nat × Nat) : Nat := 32 * q.2.1 + q.2.2

/-- The field found at fault: of those whose test holds the one that starts at the lowest byte, and there at the lowest bit, whatever the
order of the tests (spec/12 Table 12-2, Parameter Error Location). -/
def firstBad (l : List (Bool × Nat × Nat)) : Option Cpl :=
  match l.filter Prod.fst with
  | [] => none
  | q :: r =>
    let m := r.foldl (fun b x => if fieldPlace x < fieldPlace b then x else b) q
    some (Cpl.invalid m.2.1 m.2.2)

/-! ## Contexts -/

def State.ctx? (s : State) (c : Nat) : Option Ctx := s.ctxs.find? fun x => x.id == c

def State.modCtx (c : Nat) (f : Ctx → Ctx) (s : State) : State :=
  { s with ctxs := mapWhere (fun x => x.id == c) f s.ctxs }

def State.dropCtx (c : Nat) (s : State) : State := { s with ctxs := s.ctxs.filter fun x => x.id != c }

/-- A command is run from its context: it has been admitted and not yet run. A context that is not there, or that
is not an admitted command of the wanted kind, changes nothing (log 4). -/
def State.run (c : Nat) (want : Ctx → Bool) (k : Ctx → State → State) (s : State) : State :=
  match s.ctx? c with
  | some x => if x.stage = .admitted ∧ want x = true then k x s else s
  | none => s

/-! ## How a command ends -/

/-- The Zone Append opcode: its completion's dwords 0 and 1 hold the assigned LBA (spec/12 R453). -/
def opZoneAppend : Nat := 0x7D

/-- Dword 1 of a completion holds the admission number, but for a Zone Append (spec/12 R453). -/
def Ctx.stamp (x : Ctx) (r : Cpl) : Cpl := if isIoOp opZoneAppend x then r else { r with dw1 := x.adm }

/-- A Wings message sent: msg_seq rises by 1 (spec/18 R635). -/
def State.sendWings (type : Nat) (payload : List Nat) (blocks : List Blk) (s : State) : State :=
  let q := s.pair.msgSeq + 1
  (s.modPair fun p => { p with msgSeq := q }).emitOut (.wings (BitVec.ofNat 8 type) q payload blocks)

/-- A Wings message that is kept until it is answered (spec/18 R637). -/
def State.sendKept (type : Nat) (payload : List Nat) (blocks : List Blk) (ns lba : Nat) (adm : W32) (ctx : Option Nat)
    (s : State) : State :=
  let s := s.sendWings type payload blocks
  s.modPair fun p => { p with unanswered := p.unanswered ++
    [{ type := BitVec.ofNat 8 type, seq := p.msgSeq, ns := ns, lba := lba, adm := adm, payload := payload, data := blocks, ctx := ctx }] }

/-- A media request to the owner of a port (spec/18 R626): actuator, operation, class, strip, sectors. -/
def State.askMedia (a : ActId) (d : Descriptor) (ns lba : Nat) (s : State) : State :=
  s.sendKept 0x08 [0, a.val, bit d.write, d.cls.val, d.head.val, d.track, d.zone.val, d.first, d.count] d.data ns lba 0 d.ctx

/-- This controller mirrors what it changes: it is paired, or contends and so is not yet a single configuration, or a SYNC to its
peer has begun (spec/01 R27; spec/18 R641, R649, R655). -/
def State.mirrors (s : State) : Bool := s.pair.mode && (s.pair.st == .paired || s.pair.st == .contending || s.pair.syncing)

/-- Payload of the reply to ADMIN: dword 0, status field, reserved, data of at most 4,096 bytes (spec/19 Table 19-8,
R680). -/
def adminReply (r : Cpl) : List Byte :=
  packBytes [(4, r.dw0.toNat), (2, r.status.toNat), (2, 0)] ++ r.bytes.take 4096

/-- A command ends. A host command's completion is decided: its entry is placed for posting (spec/12 R463); in D3hot one that moves data
to host memory waits until the function is back in D0 (spec/11 R444). A
service-port command is answered, status 0x05 when the admin status is not success (DEDUCED, log 9). A command
forwarded by the peer is answered with FORWARD_CPL (spec/18 R628). -/
def State.complete (c : Nat) (r : Cpl) (s : State) : State :=
  match s.ctx? c with
  | none => s
  | some x =>
    let r := x.stamp r
    match x.origin with
    | .host f =>
      if (s.fn f).d3hot = true ∧ (r.bytes ≠ [] ∨ r.blocks ≠ []) then
        s.modCtx c fun y => { y with stage := .waiting, wait := .transfer, cpl := some r }
      else
        { s.modCtx c (fun y => { y with stage := .decided, wait := .none, cpl := some r, order := s.decisions }) with
          decisions := s.decisions + 1 }
    | .service tag =>
      ((s.dropCtx c).modSvc fun v => { v with busy := none, endedAt := s.now }).emitOut
        (.reply 0x10 tag (if r.good then 0x00 else 0x05) (adminReply r))
    | .gone => (s.dropCtx c).modSvc fun v => { v with endedAt := s.now }
    | .peer q _ _ =>
      ((s.dropCtx c).modSvc fun v => { v with endedAt := s.now }).sendWings 0x07 ([1, q.toNat, r.status.toNat, r.dw0.toNat, r.dw1.toNat] ++ r.bytes.map BitVec.toNat) r.blocks

/-- Work that needs DRAM arrives or ends in PS3: DRAM is out of self-refresh, and the 1 ms without work starts again (spec/01
R42). -/
def State.wake (s : State) : State := s.when s.power.inPs3 (State.modMem fun m => { m with selfRefresh := false, workAt := s.now })

/-- A command that has run waits. -/
def State.await (c : Nat) (w : Wait) (s : State) : State :=
  s.modCtx c fun x => { x with
    stage := .waiting, wait := w, waitAt := if x.stage = .waiting ∧ x.wait.kind = w.kind then x.waitAt else s.now }

/-- Every command that waits for one thing ends with success. -/
def State.completeWait (w : Wait) (s : State) : State :=
  s.each ((s.ctxs.filter fun x => x.stage == .waiting && x.wait == w).map Ctx.id) fun c s => s.complete c Cpl.ok

/-- A refusal found, or the rest of the meaning. -/
def State.orElse (c : Nat) (bad : Option Cpl) (k : State → State) (s : State) : State :=
  match bad with
  | some r => s.complete c r
  | none => k s

/-! ## Order of admission (spec/12 R453) -/

/-- Admission number a is earlier than b. -/
def earlier (a b : W32) : Bool := decide (a ≠ b) && decide ((b - a).toNat < 2 ^ 31)

/-- A waiting delete names a namespace. -/
def Ctx.deletes (y : Ctx) (nsid : Nat) : Bool := y.stage == .waiting && match y.wait with
  | .nsDelete k => k == 0xFFFFFFFF || k == nsid
  | _ => false

/-- A namespace is being deleted, and the command was admitted after its delete (spec/10 R375). -/
def State.deletedFor (s : State) (n : Ns) (x : Ctx) : Bool :=
  n.deleting && s.ctxs.any fun y => y.deletes n.nsid && earlier y.adm x.adm

end Sys2Proof.Machine
end

