-- ==== Sys2Proof/Machine/NorBus.lean ====
section
/-! DEFINITION. The SPI NOR as the controller reaches it: its layout, the commands used, and the boot directory (spec/02 R70 to R73,
Tables 2-3 to 2-5). -/

namespace Sys2Proof.Machine

/-! ## Layout and commands -/

/-- The regions of the first 64 MiB (spec/02 Table 2-3). -/
inductive NorRegion where
  | dir0
  | dir1
  | config
  | slotA
  | slotB
  | playbill
  | prompt
  | patch
  | spare
  deriving DecidableEq, Repr

/-- The offset of a region. -/
def NorRegion.offset : NorRegion → Nat
  | .dir0 => 0x00000000
  | .dir1 => 0x00008000
  | .config => 0x00010000
  | .slotA => 0x00100000
  | .slotB => 0x01100000
  | .playbill => 0x02100000
  | .prompt => 0x02500000
  | .patch => 0x03500000
  | .spare => 0x03600000

/-- The size of a region in bytes. -/
def NorRegion.size : NorRegion → Nat
  | .dir0 | .dir1 => 32 * 1024
  | .config => 960 * 1024
  | .slotA | .slotB | .prompt => 16 * 1024 * 1024
  | .playbill => 4 * 1024 * 1024
  | .patch => 1024 * 1024
  | .spare => 10 * 1024 * 1024

/-- The region of an image slot. -/
def slotRegion (slot : Bool) : NorRegion := if slot then .slotB else .slotA

/-- Where the configuration store holds the two copies of the key manifest, and their size (spec/16 R567). -/
def manifestOffset (copy : Bool) : Nat := if copy then 0x4000 else 0
def manifestSize : Nat := 16384

/-- Where it holds the two sectors of the boot counter record (spec/16 R575). -/
def counterOffset : Nat := 0x8000

/-- The opcode of a command (spec/02 Table 2-4). -/
def NorCmd.opcode : NorCmd → Byte
  | .readId => 0x9F
  | .readSfdp _ _ => 0x5A
  | .resetEnable => 0x66
  | .reset => 0x99
  | .fastRead _ _ => 0x0C
  | .quadRead _ _ => 0x6C
  | .writeEnable => 0x06
  | .readStatus => 0x05
  | .pageProgram _ _ => 0x12
  | .eraseSector _ => 0x21
  | .eraseBlock _ => 0xDC

/-- The 4 address bytes of a command, most significant first as JESD216 devices take them (PRESUMED, log 90). -/
def NorCmd.addressBytes : NorCmd → List Byte
  | .readSfdp a _ | .fastRead a _ | .quadRead a _ | .pageProgram a _ | .eraseSector a | .eraseBlock a => (leBytes 4 a).reverse
  | _ => []

/-- Reads start in single-bit mode and are quad-output once SFDP has confirmed it (spec/02 R71). -/
def readCmd (quad : Bool) (addr n : Nat) : NorCmd := if quad then .quadRead addr n else .fastRead addr n

/-- The runs of bytes within 256-byte pages that n bytes from an address cover (spec/17 R610). -/
def pageRuns (addr n : Nat) : List (Nat × Nat) := (List.range (ceilDiv (addr % 256 + n) 256)).map fun i =>
  let page := addr / 256 * 256 + 256 * i
  (max addr page, min (addr + n) (page + 256) - max addr page)

/-- Bytes are programmed page by page, each with its write enable and a read of the status. -/
def programCmds (addr n : Nat) : List NorCmd :=
  (pageRuns addr n).flatMap fun q => [.writeEnable, .pageProgram q.1 q.2, .readStatus]

/-- n bytes from an address are erased: 64 KiB blocks where both are multiples of one, else 4 KiB sectors. -/
def eraseCmds (addr n : Nat) : List NorCmd :=
  if addr % 65536 = 0 ∧ n % 65536 = 0 then
    (List.range (n / 65536)).flatMap fun i => [.writeEnable, .eraseBlock (addr + 65536 * i), .readStatus]
  else (List.range (ceilDiv n 4096)).flatMap fun i => [.writeEnable, .eraseSector (addr + 4096 * i), .readStatus]

/-- Commands are given to the SPI NOR. -/
def State.norRun (l : List NorCmd) (s : State) : State := s.modBoot fun b => { b with bus := l.reverse ++ b.bus }

/-- n bytes of a region are read. -/
def State.norRead (r : NorRegion) (off n : Nat) (s : State) : State := s.norRun [readCmd s.boot.quad (r.offset + off) n]

/-- n bytes of a region are programmed and read back. -/
def State.norProgram (r : NorRegion) (off n : Nat) (s : State) : State :=
  s.norRun (programCmds (r.offset + off) n ++ [readCmd s.boot.quad (r.offset + off) n])

/-- n bytes of a region are erased. -/
def State.norErase (r : NorRegion) (off n : Nat) (s : State) : State := s.norRun (eraseCmds (r.offset + off) n)

/-- The boot ROM's first commands: the device is reset and identified, and its SFDP is read, which confirms quad-output reads or
not (spec/02 R70, R71). -/
def State.norStart (s : State) : State :=
  (s.norRun [.resetEnable, .reset, .readId, .readSfdp 0 256]).modBoot fun b => { b with quad := Config.norQuad }

/-! ## Boot directory (spec/02 R72, R73) -/

/-- Bytes 0 to 15 of a copy (spec/02 Table 2-5). -/
def BootDir.head (d : BootDir) : List Byte :=
  packBytes [(4, d.magic.toNat), (4, d.sequence.toNat), (1, bit d.preferred), (1, d.attemptsMax), (1, d.stateA.val), (1, d.stateB.val),
    (1, d.attemptsA), (1, d.attemptsB), (2, 0)]

/-- The 32 KiB of a copy. -/
def BootDir.bytes (d : BootDir) : List Byte := d.head ++ digestBytes d.digest ++ List.replicate 32688 0

/-- The magic of a boot directory, "IZBD". -/
def dirMagic : W32 := 0x44425A49

/-- A copy counts when its magic and digest are valid (R72). -/
def BootDir.valid (d : BootDir) : Bool := d.magic == dirMagic && d.digest == Config.shake256 d.head

/-- A copy as it is written: with the magic, and the digest of its first 16 bytes. -/
def BootDir.seal (d : BootDir) : BootDir :=
  { d with magic := dirMagic, digest := Config.shake256 ({ d with magic := dirMagic } : BootDir).head }

/-- The copy of the boot directory in use: valid, with the higher sequence; false copy 0. Of two valid copies with equal sequence
numbers copy 0 is used (DESIGN CHOICE, log 92: R72 gives no order for them). -/
def Nor.dirCopy (n : Nor) : Option Bool :=
  match n.dirs[0].valid, n.dirs[1].valid with
  | true, true => some (decide (n.dirs[0].sequence.toNat < n.dirs[1].sequence.toNat))
  | true, false => some false
  | false, true => some true
  | false, false => none

/-- The fresh directory of R73; its sequence number is 0 (DESIGN CHOICE, log 92: R73 gives none). -/
def BootDir.fresh : BootDir :=
  { magic := dirMagic, sequence := 0, preferred := false, attemptsMax := 3, stateA := 1, stateB := 1, attemptsA := 0
    attemptsB := 0, digest := 0 }

/-- The directory in use. -/
def Nor.dir (n : Nor) : BootDir := match n.dirCopy with
  | some true => n.dirs[1]
  | some false => n.dirs[0]
  | none => BootDir.fresh

/-- Which copy an update rewrites: the one not in use (R72); copy 0 when none is in use (DESIGN CHOICE, log 92). -/
def Nor.dirTarget (n : Nor) : Bool := n.dirCopy == some false

/-- An update rewrites the other copy, with the sequence number raised by 1 (R72). -/
def Nor.writeDir (f : BootDir → BootDir) (n : Nor) : Nor :=
  let d := ({ f n.dir with sequence := n.dir.sequence + 1 } : BootDir).seal
  if n.dirTarget then { n with dirs := n.dirs.set 1 d } else { n with dirs := n.dirs.set 0 d }

/-- The same, with the commands that it takes: the whole copy is erased and programmed. -/
def State.writeDir (f : BootDir → BootDir) (s : State) : State :=
  let r : NorRegion := if s.nor.dirTarget then .dir1 else .dir0
  ((s.norErase r 0 r.size).norProgram r 0 r.size).modNor (Nor.writeDir f)

def BootDir.stateOf (d : BootDir) (slot : Bool) : Fin 3 := if slot then d.stateB else d.stateA
def BootDir.attemptsOf (d : BootDir) (slot : Bool) : Nat := if slot then d.attemptsB else d.attemptsA

def BootDir.setState (slot : Bool) (v : Fin 3) (d : BootDir) : BootDir :=
  if slot then { d with stateB := v } else { d with stateA := v }

def BootDir.setAttempts (slot : Bool) (v : Nat) (d : BootDir) : BootDir :=
  if slot then { d with attemptsB := v } else { d with attemptsA := v }

def Nor.slotOf (n : Nor) (slot : Bool) : List Byte := if slot then n.slotB else n.slotA

/-- The slot that R73 tries next. -/
def BootDir.candidate (d : BootDir) : Option Bool :=
  [d.preferred, !d.preferred].find? fun k => d.stateOf k == 1 && decide (d.attemptsOf k < d.attemptsMax)

end Sys2Proof.Machine
end

