-- ==== Sys2Proof/Machine/SystemBands.lean ====
section
/-! DEFINITION. The system bands: records with sequence number, digest and copies, and the newest valid one (spec/09 R326); places
taken and given back, and stripes in progress that end uncommitted (spec/09 R334, R363). -/

namespace Sys2Proof.Machine

/-! ## Places -/

def Place.port : Place → PortId
  | .pool p _ => p
  | .spare p _ => p
  | .reserve p _ => p

/-- The sectors of a chunk go: it is released, or a new one takes its place. -/
def Prot.dropChunk (pl : Place) (p : Prot) : Prot :=
  { p with sectors := p.sectors.filter fun x => x.place != pl, bad := p.bad.filter fun q => q.1 != pl
           marked := p.marked.filter fun q => q != pl }

/-- A place outside the groups' own slots is given back, or taken. -/
def Member.release (pl : Place) (m : Member) : Member :=
  match pl with
  | .pool _ k => { m with slotsUsed := m.slotsUsed.filter fun q => q != (k, 1) }
  | .spare _ k => { m with spareUsed := m.spareUsed.filter (· != k) }
  | .reserve _ k => { m with reserveUsed := m.reserveUsed.filter (· != k) }

def Member.take (pl : Place) (m : Member) : Member :=
  let m := m.release pl
  match pl with
  | .pool _ k => { m with slotsUsed := (k, 1) :: m.slotsUsed }
  | .spare _ k => { m with spareUsed := k :: m.spareUsed }
  | .reserve _ k => { m with reserveUsed := k :: m.reserveUsed }

/-- Stripes in progress end uncommitted: their target chunks are released (R363). -/
def Prot.releaseWorks (f : Work → Bool) (p : Prot) : Prot :=
  let free (q : Prot) (pl : Place) : Prot := { q.dropChunk pl with members := upd q.members pl.port (Member.release pl) }
  { ((p.works.filter f).flatMap fun w => w.targets.map Prod.snd).foldl free p with works := p.works.filter fun w => !f w }

/-! ## Records (R326) -/

def MemberSt.code : MemberSt → Nat
  | .none => 0
  | .member => 1
  | .absent => 2
  | .failed => 3
  | .candidate => 4
  | .retired => 5

def SysBody.kind : SysBody → Fin 5
  | .members _ => 0
  | .groups _ => 1
  | .exceptions _ => 2
  | .defects _ => 3
  | .checkpoint _ => 4

/-- A place as numbers. -/
def Place.words : Place → List Nat
  | .pool p k => [0, p.val, k]
  | .spare p k => [1, p.val, k]
  | .reserve p k => [2, p.val, k]

/-- The contents of a record, in the order of its fields. -/
def SysBody.words : SysBody → List Nat
  | .members l => l.flatMap fun m => [m.st.code, m.serial.toNat, bit m.failed0, bit m.failed1]
  | .groups l => l.flatMap fun g => [g.number, bit g.narrow, g.firstSlot, g.ns, g.members.length] ++ g.members.map Fin.val
  | .exceptions l => l.flatMap fun e => [e.group, e.stripe, e.chunk] ++ e.place.words
  | .defects l => l.flatMap fun d => d.length :: d.flatMap fun q => q.1 :: q.2.length :: q.2
  | .checkpoint n => [n]

/-- The digest of a record with its sequence number; how the record is laid out in bytes is open (log 111). -/
def sysDigest (seq : Nat) (b : SysBody) : Digest := digest (Config.recordBytes ((b.kind.val :: seq :: b.words).map Int.ofNat))

def SysCopy.valid (c : SysCopy) : Bool := c.digest == sysDigest c.seq c.body

/-- The serial that the HDA on a port reports (spec/03 Table 3-9). -/
def Port.serial (x : Port) : BitVec 160 := BitVec.ofNat 160 (field x.companion.ident 16 20)

/-- The newest valid copy of a kind of record among those not on an HDA that is gone. -/
def Prot.newest (gone : List (BitVec 160)) (p : Prot) (kind : Fin 5) : Option SysBody :=
  ((p.sys.filter fun c => c.body.kind == kind && !gone.contains c.serial && c.valid).foldl (fun (b : Option SysCopy) c => match b with
    | some x => if x.seq < c.seq then some c else b
    | none => some c) none).map SysCopy.body

/-- Writes to a whole HDA are held: its temperature has not been valid for 60 s, or lies above hda_stop (spec/08 R299; spec/15 R551). -/
def State.hdaHeld (s : State) (p : PortId) : Bool := (s.pcal p).stale || s.therm.stopped.contains p

/-- The members whose system bands take the copies of a record: three present ones whose writes are not held, the lowest ports
(DESIGN CHOICE, log 136). -/
def State.sysPorts (s : State) : List PortId :=
  ((fins 32).filter fun p => (s.member p).st == .member && s.pins.prsnt.getLsbD p.val && (s.port p).train == 9 &&
    !s.hdaHeld p).take 3

/-- A record is written on three present members, in the place of the copies of its kind that they hold. -/
def State.record (b : SysBody) (s : State) : State :=
  let seq := (s.prot.sys.map SysCopy.seq).foldl max 0 + 1
  let hdas := s.sysPorts.map fun p => (s.member p).serial
  s.modProt fun p => { p with sys := p.sys.filter (fun c => !(c.body.kind == b.kind && hdas.contains c.serial)) ++
    (hdas.map fun x => { serial := x, seq := seq, digest := sysDigest seq b, body := b }) }

def State.recordMembers (s : State) : State := s.record (.members (s.prot.members.toList.map fun m =>
  { st := m.st, serial := m.serial, failed0 := m.failed0, failed1 := m.failed1 }))
def State.recordGroups (s : State) : State := s.record (.groups s.prot.groups)
def State.recordExceptions (s : State) : State := s.record (.exceptions s.prot.excs)
def State.recordDefects (s : State) : State := s.record (.defects (s.prot.members.toList.map Member.slips))

/-- The copies on an HDA go: it is formatted. -/
def Prot.eraseSys (serial : BitVec 160) (p : Prot) : Prot := { p with sys := p.sys.filter fun c => c.serial != serial }

/-- The tables as the newest valid copies of their records, but for those on HDAs that are gone, hold them; a table of which there is none is empty (R326). -/
def Prot.load (gone : List (BitVec 160)) (p : Prot) : Prot :=
  let entries : List MemberEntry := match p.newest gone 0 with
    | some (.members l) => l
    | _ => []
  let lists : List (List (Nat × List Nat)) := match p.newest gone 3 with
    | some (.defects l) => l
    | _ => []
  { p with
    members := Vector.ofFn fun i : PortId =>
      let m := p.members[i]
      let e := entries.getD i.val { st := .none, serial := 0, failed0 := false, failed1 := false }
      { m with st := e.st, serial := e.serial, failed0 := e.failed0, failed1 := e.failed1, slips := lists.getD i.val [] }
    groups := match p.newest gone 1 with
      | some (.groups l) => l
      | _ => []
    excs := match p.newest gone 2 with
      | some (.exceptions l) => l
      | _ => []
    checkpoint := match p.newest gone 4 with
      | some (.checkpoint n) => n
      | _ => 0 }

end Sys2Proof.Machine
end

