-- ==== Sys2Proof/Machine/Resets.lean ====
section
/-! DEFINITION. Device resets as shared operations: power-on, main cold and warm (spec/02 Table 2-2, R54 to R64). -/

namespace Sys2Proof.Machine

/-- Bits of BOOT_RESET_CAUSE by name (spec/02 Table 2-6). -/
def causeSysPwrok : Nat := 1
def causePwrfail : Nat := 2
def causePerst : Nat := 3
def causeService : Nat := 4
def causeWatchdog : Nat := 5
def causeThermal : Nat := 6
def causeBrownout : Nat := 7
def causeXtal : Nat := 8
def causeFallback : Nat := 9
def causePreserve : Nat := 10
def causeFill : Nat := 11

def State.setCause (n : Nat) (s : State) : State := s.modAon fun a => { a with cause := setBit a.cause n }

/-- A step of Table 2-9 has been completed. -/
def State.setStep (n : Nat) (s : State) : State := s.modAon fun a => { a with step := BitVec.ofNat 8 (max a.step.toNat n) }

/-! ## Clock domains (spec/01 Table 1-4) -/

/-- The PERST# inputs that are in force: asserted, or the port disabled by its strap (spec/02 R55). -/
def State.perstOf (s : State) : Fn → Bool
  | .a => s.pins.perstA || !s.aon.hostaEn
  | .b => s.pins.perstB || !s.aon.hostbEn

/-- A reference clock of a host port runs (spec/02 R53). -/
def Pins.refclk (p : Pins) : Fn → Bool
  | .a => p.refclkA
  | .b => p.refclkB

/-- Whether a clock domain's clock runs (Table 1-4). -/
def State.clockRuns (s : State) : Domain → Bool
  | .chorus e => s.aon.hold == .running && (s.eng e).st != .gated && (s.eng e).st != .offline
  | .control | .fabric | .servoSeq => s.aon.hold == .running
  | .pcie f => s.aon.hold == .running && !s.perstOf f && s.pins.refclk f
  | .dram => s.aon.hold == .running && !s.mem.selfRefresh
  | .recovered p => (s.port p).clock
  | .linkTx => s.pins.linkPll
  | .alwaysOn => s.pins.aonPwrok

/-- A host function has a link up, as R87 asks: its port is enabled by its strap, its PERSTx# is deasserted, its reference clock
runs and the device is out of reset (DESIGN CHOICE, log 93: the spec does not say when the link counts as up; spec/02 Table 2-10
leaves its training to the PCIe documents). -/
def State.linkUp (s : State) (f : Fn) : Bool := s.clockRuns (.pcie f)

/-- The bit of a function's PCIe crossing in XING_STALE_OTHER. -/
def fnBit : Fn → Nat
  | .a => 0
  | .b => 1

/-- Words cross between a function's PCIe port and the fabric: its clock runs (spec/01 Table 1-4) and the crossing is not stale (spec/14
R536). -/
def State.crosses (s : State) (f : Fn) : Bool := s.clockRuns (.pcie f) && !s.xing.staleOther.getLsbD (fnBit f)

/-- A crossing is stale. -/
def State.isStale (s : State) : Crossing → Bool
  | .port p => s.xing.stalePort.getLsbD p.val
  | .pcieA => s.xing.staleOther.getLsbD 0
  | .pcieB => s.xing.staleOther.getLsbD 1
  | .wings => s.xing.staleOther.getLsbD 2

/-- One transfer that a stale crossing discards (spec/14 R536). -/
def State.discard (s : State) : State := s.modXing fun x => { x with discards := sat32 x.discards 1 }

/-- What a host sends over a stale PCIe crossing is discarded and counted (spec/14 R536); with no clock nothing arrives. -/
def State.lostWord (f : Fn) (s : State) : State := s.when (s.linkUp f && !s.crosses f) State.discard

/-- Bring-up stops on an error of Table 2-8; each function whose link is up sets CSTS.CFS, another leaves it as it was (spec/02
R77, R87). -/
def State.bootError (code : Nat) (s : State) : State :=
  let s := s.modAon fun a => { a with error := BitVec.ofNat 8 code, fill := .idle }
  { s with
    fa := { s.fa with cfs := s.fa.cfs || s.linkUp .a }
    fb := { s.fb with cfs := s.fb.cfs || s.linkUp .b } }

/-- Bring-up is proceeding: out of reset and not stopped. -/
def State.booting (s : State) : Bool := s.aon.hold == .running && s.aon.error == 0 && !s.boot.released

/-! ## What survives -/

/-- A zone at its durable state: the write pointer and state of its zone record (spec/10 R384). -/
def Zone.durable (z : Zone) : Zone := { z with wp := z.recWp, st := z.recSt }

/-- Zones whose write pointer is to be found at bring-up: those that were open or closed, whose record may stand below what is on media
(spec/10 R384; of the closed ones DEDUCED, log 131). -/
def Names.openZones (n : Names) (st : Zone → ZoneState) : List (Nat × Nat) :=
  (n.zones.filter fun z => st z != .empty && st z != .full).map fun z => (z.ns, z.zone)

/-- The dirty data and all work on it go. -/
def Names.dropDirty (n : Names) : Names :=
  { n with buffer := [], flights := [], finishing := [], firstDue := [], pagesDirty := [], dirsDirty := [], journal := [] }

/-- Names without DRAM: zone records, media map, lost-block list; the map directory is to be read again (spec/10 R384, R388, R389,
R403). -/
def Names.durable (n : Names) : Names :=
  { Names.reset with
    nss := n.nss.map fun x => { x with ready := false, backing := none }
    zones := n.zones.map Zone.durable, map := n.mapMedia, mapMedia := n.mapMedia, lost := n.lost
    roots := n.roots, dirsOut := (n.nss.filter fun x => !x.zoned).map Ns.nsid
    toFind := n.openZones Zone.recSt
    sanitizeFailed := n.sanitizeFailed, sanitizing := n.sanitizing }

/-- Rows in flight are dropped: their data stay dirty, and the open backing zones go back to the rows they hold. -/
def Names.dropFlights (n : Names) : Names :=
  { n with
    flights := []
    nss := n.nss.map fun x => { x with backing := x.backing.map fun q =>
      (q.1, (if x.narrow then 512 else 1024) * (match n.zones.find? fun z => z.ns == x.nsid && z.zone == q.1 with
        | some z => z.rows
        | none => 0)) } }

/-- Names when DRAM keeps its contents: all but the pages of work in flight (spec/02 R61). -/
def Names.kept (n : Names) : Names :=
  let n := n.dropFlights
  { n with nss := n.nss.map fun x => { x with ready := false }, dumping := false, toFind := n.openZones Zone.st
           buffer := n.buffer.map fun d => { d with carried := true } }

/-- Active states (spec/12 R476). -/
def OpState.active : OpState → Bool
  | .running | .suspended | .blocked | .waiting => true
  | .completed | .cancelled | .failed => false

/-- Active operations first, then the ended ones, of which the last 16 to end are kept (spec/12 R476). -/
def keepOps (l : List LongOp) : List LongOp :=
  let ended := l.filter fun o => !o.st.active
  (l.filter fun o => o.st.active) ++ ended.drop (ended.length - 16)

/-- Protection as the media hold it: the tables come back from the system bands, targets that are not committed are released, and the
PROT registers go but for the handle of a rebuild that is still active and its wait (spec/09 R326, R363, R368). -/
def Prot.durable (ops : List LongOp) (gone : List (BitVec 160)) (p : Prot) : Prot :=
  let p := (p.releaseWorks fun _ => true).load gone
  let op := ops.find? fun o => o.kind == 1 && o.st.active
  { Prot.reset with
    members := p.members, groups := p.groups, excs := p.excs, touched := p.touched, sectors := p.sectors,
    bad := p.bad, marked := p.marked, mcRows := p.mcRows, nextMc := p.nextMc, mcPos := p.mcPos, checkpoint := p.checkpoint, homecoming := p.homecoming,
    rebuildHandle := (op.map LongOp.handle).getD 0, rebuildHeld := p.rebuildHeld, rebuildDue := p.rebuildDue, sys := p.sys
    rebuildPhase := if (op.map LongOp.st) = some .waiting then 1 else 0 }

/-- The calibration record copies are on media; the tables, marks and recipes come back from them (spec/08 R297, R310, R314). -/
def ActCal.durable (a : ActCal) : ActCal :=
  { ActCal.reset with copy0 := a.copy0, copy1 := a.copy1 }

/-- Active long operations of kinds 1 to 5 keep their states: a surface scan goes back to its checkpoint, a format and a
sanitize to their first band; a staging operation ends failed (spec/12 Table 12-4, R477, spec/16 R597). What PS3 had
suspended is running again. -/
def LongOp.overReset (o : LongOp) : LongOp :=
  if o.st.active then
    if o.kind = 6 then { o with st := .failed, suspendAsked := false, cancelAsked := false, byPs3 := false, image := [] }
    else
      let o := if o.byPs3 then { o with st := .running, byPs3 := false, suspendAsked := false } else o
      if o.kind = 3 then { o with done := o.cursor, from_ := o.kept }
      else if o.kind = 2 ∨ o.kind = 4 then { o with done := 0, cursor := 0 } else o
  else o

/-- The operations over a reset; one that ends with it is the last to end (spec/12 R476). -/
def opsOverReset (l : List LongOp) : List LongOp :=
  let ends (o : LongOp) : Bool := o.st.active && o.kind == 6
  keepOps ((l.filter fun o => !ends o).map LongOp.overReset ++ (l.filter ends).map LongOp.overReset)

/-- The serial numbers of the members' HDAs that are out of their ports, and in no other. -/
def State.hdasGone (s : State) : List (BitVec 160) :=
  ((fins 32).filter fun p => !s.pins.prsnt.getLsbD p.val && !((fins 32).any fun q =>
    s.pins.prsnt.getLsbD q.val && (s.port q).serial == (s.member p).serial)).map fun p => (s.member p).serial

/-- Everything outside the always-on domain and the NVM cleared, DRAM contents included. -/
def State.clearMain (s : State) : State :=
  { State.reset with
    now := s.now, pins := s.pins, aon := s.aon, nor := { s.nor with config :=
      { s.nor.config with ops := (opsOverReset s.nor.config.ops).filter fun o => o.st.active } }
    therm := s.therm, svc := { s.svc with comp := none, busy := none, recovery := [], buffer := [] }
    fa := { HostFn.reset with perstOffAt := s.fa.perstOffAt }
    fb := { HostFn.reset with perstOffAt := s.fb.perstOffAt }
    nextCtx := s.nextCtx, names := s.names.durable, prot := s.prot.durable s.nor.config.ops s.hdasGone
    actCals := s.actCals.map ActCal.durable, free := s.free, out := s.out, pending := s.pending }

/-- The same with DRAM and the recorder ring kept (spec/02 Table 2-2, warm device; spec/17 Table 17-4). -/
def State.clearWarm (s : State) : State :=
  { s.clearMain with
    nor := { s.nor with config := { s.nor.config with ops := opsOverReset s.nor.config.ops } }
    book := { Recorder.reset with ring := s.book.ring, isOpen := s.book.isOpen, openAt := s.book.openAt,
                                  inChain := s.book.inChain }
    names := s.names.kept
    ident := { Ident.reset with pendingNor := s.ident.pendingNor }
    ports := s.ports.map fun x => { Port.reset with trained := x.trained }
    pair := { Pair.reset with mirrors := s.pair.mirrors, journal := s.pair.journal } }

/-- The always-on side of a reset: a fill that ran is restarted from its beginning and marked, the watchdog is
disarmed, bring-up starts again at its first step, which is over at once while SYS_PWROK is asserted and the rails are good
(spec/02 R58, R63, R64, R76, Table 2-9). dram_state reads 3, not yet trained (Table 2-7). -/
def Aon.restart (a : Aon) : Aon :=
  { a with
    step := if a.goodSince.isSome then 1 else 0, dramState := 3, fill := .idle, dogArmed := false, dogStopped := false, attempts := 0, slot := false,
    recovery := false
    error := if a.error = 1 ∧ a.xtal = false then 1 else 0
    cause := if a.fill = .idle then a.cause else setBit a.cause causeFill }

/-! ## The kinds of device reset -/

/-- The supplies are as R47 asks: SYS_PWROK asserted and every monitored rail in its range. -/
def Pins.supplied (p : Pins) : Bool := p.sysPwrok && p.railsOk

/-- Power-on reset: everything but fuses, NOR and media (spec/02 R54); BOOT_RESET_CAUSE reads aon_por, BOOT_PROGRESS its reset
values (Tables 2-6, 2-7). Where SYS_PWROK is asserted already, the 1 ms of R47 starts and step 1 of Table 2-9 is over. The link PLL
has to lock again (R52). -/
def State.powerOn (s : State) : State :=
  { s.clearMain with
    pins := { s.pins with linkPll := false }
    aon := { Aon.reset with riseAt := s.now, pairSide := s.pins.pairSide, bootSrc := s.pins.bootSrc
                            hostaEn := s.pins.hostaEn, hostbEn := s.pins.hostbEn
                            goodSince := if s.pins.supplied then some s.now else none
                            step := if s.pins.supplied then 1 else 0 }
    therm := Therm.reset
    svc := Service.reset }

/-- Main cold reset is entered and the device held in it (spec/02 R46 to R48); the link PLL has to lock again (R52). -/
def State.enterCold (s : State) : State :=
  { s.clearMain with
    pins := { s.pins with linkPll := false }
    aon := { s.aon.restart with hold := .mainCold, selfRefresh := false, fillComplete := false, deferred := [] } }

/-- The straps are sampled at the release of a main cold or warm device reset (spec/20 R697). -/
def State.sampleStraps (s : State) : State :=
  s.modAon fun a => { a with pairSide := s.pins.pairSide, bootSrc := s.pins.bootSrc, hostaEn := s.pins.hostaEn,
                             hostbEn := s.pins.hostbEn }

/-- A device reset is released: straps sampled; with both host ports disabled the device is held in warm device
reset (spec/20 R698); an overlap present now causes no further reset (spec/02 R55). -/
def State.releaseReset (s : State) : State :=
  let s := s.sampleStraps
  let both := s.perstOf .a && s.perstOf .b
  s.modAon fun a => { a with
    hold := if a.hostaEn || a.hostbEn then .running else .warm
    overlapUsed := both
    overlapAt := if both then some (a.overlapAt.getD s.now) else none }

/-- Warm device reset: the command lanes stop, DRAM enters self-refresh, the blocks are reset, and bring-up starts at
once (spec/02 R58, R59). Before the DRAM fill of a main cold bring-up is complete it is a main cold reset (R58).
Where DRAM holds valid contents (filled or preserved, or not yet taken out of self-refresh), whether self-refresh entry completes
is a free value (R61; log 11). -/
def State.warmReset (causes : List (Fin 12)) (s : State) : State :=
  let s := causes.foldl (fun t c => t.setCause c.val) s
  if s.boot.cold ∧ s.aon.dramState = 3 then s.enterCold
  else
    let valid := s.aon.dramState != 3 && s.aon.fill != .dram || s.aon.dramState == 3 && s.aon.selfRefresh
    let kept := valid && Config.selfRefreshEntered s.free
    let t := s.clearWarm.takeFree
    State.releaseReset { t with
      aon := { s.aon.restart with step := 0, selfRefresh := kept, fillComplete := false, deferred := [] }
      boot := { t.boot with cold := false } }

/-- When the deferral of R57 ends: the dump's end, or holdup_ms after PWRFAIL#. -/
def State.deferEnd (s : State) : Nat := s.names.dumpAt + s.names.holdupMs * Config.ms

/-- A source of a warm device reset arises: without effect while the device is held in reset or shutdown (spec/02
R58), deferred while a power-fail dump runs (R57), else a warm device reset. -/
def State.warmSource (c : Fin 12) (s : State) : State :=
  if s.aon.hold ≠ .running then s
  else if s.names.dumping ∧ s.now < s.deferEnd then
    s.modAon fun a => { a with deferred := a.deferred ++ [c] }
  else s.warmReset [c]

end Sys2Proof.Machine
end

