-- ==== Sys2Proof/Machine/LongOp.lean ====
section
/-! DEFINITION. Long operations as shared operations: their list, their places, their ends (spec/12 R475 to R477). -/

namespace Sys2Proof.Machine

def State.longOps (s : State) : List LongOp := s.nor.config.ops

def State.op? (s : State) (h : Nat) : Option LongOp := s.longOps.find? fun o => o.handle == h

def State.modOp (h : Nat) (f : LongOp → LongOp) (s : State) : State :=
  s.modCfg fun c => { c with ops := mapWhere (fun o => o.handle == h) f c.ops }

/-- The running operations of a kind, oldest first. -/
def State.running (s : State) (kind : Nat) : List LongOp := s.longOps.filter fun o => o.kind == kind && o.st == .running

/-- The active operations of a kind. -/
def State.activeOps (s : State) (kind : Nat) : List LongOp := s.longOps.filter fun o => o.kind == kind && o.st.active

/-- An operation ends in a state, with its result. -/
def State.endOp (h : Nat) (st : OpState) (result : W16) (s : State) : State :=
  s.modCfg fun c =>
    match c.ops.find? fun o => o.handle == h with
    | some o => { c with ops := keepOps ((c.ops.filter fun x => x.handle != h) ++
        [{ o with st := st, result := result, suspendAsked := false, cancelAsked := false, byPs3 := false }]) }
    | none => c

/-- The next unused handle after the last one given (spec/12 R475). -/
def freeHandle (l : List LongOp) : Nat → Nat → Nat
  | 0, h => h
  | n + 1, h =>
    let k := h % 0xFFFF + 1
    if l.any fun o => o.handle == k then freeHandle l n k else k

/-- A new operation. -/
def State.startOp (o : LongOp) (s : State) : State × Nat :=
  let h := freeHandle s.longOps 0x10000 s.nor.config.lastHandle
  (s.modCfg fun c => { c with ops := keepOps (c.ops ++ [{ o with handle := h }]), lastHandle := h }, h)

/-- The suspend point of an operation has been reached: a cancel asked for ends it, a suspend suspends it (spec/12 Table
12-4). -/
def State.opPoint (h : Nat) (s : State) : State :=
  match s.op? h with
  | some o =>
    if o.cancelAsked then s.endOp h .cancelled (Config.cancelResult o.kind)
    else if o.suspendAsked then s.modOp h fun x => { x with st := .suspended, suspendAsked := false }
    else s
  | none => s

/-- The suspend points of the full calibrations that take in an actuator (spec/08 R314). -/
def State.fullPoint (a : ActId) (s : State) : State :=
  s.each ((s.activeOps 5).filter fun o => o.p0.getLsbD (portOf a).val) fun o s => s.opPoint o.handle

end Sys2Proof.Machine
end

