-- ==== Sys2Proof/Machine/Identity.lean ====
section
/-! DEFINITION. Family Identity: keys, manifest, images, measured stages, Playbill and addenda (spec/16). -/

namespace Sys2Proof.Machine

/-- ASCII bytes of a string. -/
def ascii (t : String) : List Byte := t.toList.map fun ch => BitVec.ofNat 8 ch.toNat

/-- The bytes of the configuration store that stage 7 measures; the spec gives the store no layout (log 12). -/
opaque configStoreBytes : ConfigStore → List Byte

/-- The bytes of the settings in force that config_digest covers: straps, saved features and parameters; the spec
gives no layout (log 12). -/
opaque settingsBytes : Bool → Bool → Bool → Bool → ConfigStore → List Byte

/-! ## Keys and signatures (spec/16 R562 to R566) -/

/-- The seed of the attestation key (spec/16 R562). -/
def attestSeed : List Byte :=
  (digestBytes (digest (Config.pufSecret ++ ascii "IZ-ATTEST-1" ++ leBytes 16 Config.deviceIdentity.toNat))).take 32

/-- The attestation public key. -/
def attestKey : List Byte := Config.mldsaPublicKey attestSeed

/-- A signature of this boot: 3,309 zero bytes when the derived key does not match (spec/16 R563). -/
def State.sign (s : State) (context : String) (msg : List Byte) : List Byte :=
  if s.ident.keyFailed then List.replicate 3309 0
  else padTo 3309 (Config.mldsaSign attestSeed (ascii context) msg)

/-! ## Key manifest (spec/16 R567 to R569) -/

/-- The n 64-byte digests at an offset. -/
def digestsAt (bs : List Byte) (off n : Nat) : List Digest :=
  (List.range n).map fun i => BitVec.ofNat 512 (field bs (off + 64 * i) 64)

/-- A manifest copy read, when it is valid (spec/16 R567). -/
def readManifest (bs : List Byte) : Option Manifest :=
  if bs.length = 5933 ∧ field bs 0 4 = 0x4D4B5A49 ∧ field bs 4 2 = 1
      ∧ digest ((bs.drop 672).take 1952) = Config.ownerKeyDigest
      ∧ Config.mldsaVerify ((bs.drop 672).take 1952) (ascii "IZ-KM") (bs.take 2624) (bs.drop 2624) = true then
    some { minSecurity := BitVec.ofNat 16 (field bs 6 2), sequence := BitVec.ofNat 64 (field bs 8 8)
           revoke := BitVec.ofNat 4 (field bs 16 1), pers := digestsAt bs 32 (min 8 (field bs 17 1))
           clear := digestsAt bs 544 (min 2 (field bs 18 1)) }
  else none

/-- The valid copy with the higher sequence: its manifest, which copy it is, and its bytes. -/
def Nor.manifest (n : Nor) : Option (Manifest × Bool × List Byte) :=
  match readManifest n.manifest0, readManifest n.manifest1 with
  | some a, some b => if a.sequence.toNat < b.sequence.toNat then some (b, true, n.manifest1)
                      else some (a, false, n.manifest0)
  | some a, none => some (a, false, n.manifest0)
  | none, some b => some (b, true, n.manifest1)
  | none, none => none

/-- The lowest security_version that boots or stages (spec/16 R568). -/
def minSecurity (m : Option Manifest) : Nat := match m with
  | some x => x.minSecurity.toNat
  | none => 0

/-! ## Firmware images (spec/16 R570, R571) -/

/-- Offset and length of a section of the header. -/
def section_ (img : List Byte) (at_ : Nat) : Nat × Nat := (field img at_ 4, field img (at_ + 4) 4)

def sectionBytes (img : List Byte) (at_ : Nat) : List Byte :=
  (img.drop (section_ img at_).1).take (section_ img at_).2

def imageSigOffset (img : List Byte) : Nat := field img 52 4
def imageLength (img : List Byte) : Nat := field img 16 4
def imageSecurity (img : List Byte) : Nat := field img 12 2
def imageKey (img : List Byte) : List Byte := (img.drop 64).take 1952

/-- A section lies in the image, at a 4 KiB-aligned offset, before the signature. -/
def sectionOk (img : List Byte) (at_ : Nat) : Bool :=
  let p := section_ img at_
  p.2 == 0 || (p.1 % 4096 == 0 && decide (4096 ≤ p.1) && decide (p.1 + p.2 ≤ imageSigOffset img))

/-- The checks of R571 in their order: the code of the first that fails, 0 when all hold. -/
def imageCheck (m : Option Manifest) (img : List Byte) : Nat :=
  let sig := imageSigOffset img
  let revoked (i : Fin 4) : Bool := match m with
    | some x => x.revoke.getLsbD i.val
    | none => false
  if field img 0 4 ≠ 0x57465A49 ∨ field img 4 2 ≠ 1 ∨ field img 6 2 ≠ 4096 ∨ imageLength img ≠ sig + 3309
      ∨ 16 * 1048576 < imageLength img ∨ img.length < imageLength img ∨ sectionOk img 20 = false
      ∨ sectionOk img 28 = false ∨ sectionOk img 36 = false ∨ sectionOk img 44 = false
      ∨ 8 * 1048576 < (section_ img 20).2 + (section_ img 28).2 ∨ Config.romVersion < field img 14 2 then 1
  else if (fins 4).any (fun i => decide (digest (imageKey img) = Config.firmwareKeyDigest i) && !revoked i) = false then 2
  else if imageSecurity img < minSecurity m then 3
  else if Config.mldsaVerify (imageKey img) (ascii "IZ-FW") (img.take sig) ((img.drop sig).take 3309) = false then 4
  else 0

/-- Page k of 4 KiB of the SRAM firmware region, which beyond what was loaded holds zeros (spec/02 R62; DEDUCED, log 144). -/
def pageOf (region : List Byte) (k : Nat) : List Byte := padTo 4096 ((region.drop (4096 * k)).take 4096)

/-- Nuhalith writes a stage register: the SHAKE256 digest of the object measured (spec/16 R566, R573). -/
def State.measure (stage : Fin 12) (object : List Byte) (s : State) : State :=
  s.modIdent fun i => { i with stages := upd i.stages stage fun _ => digest object }

/-- An accepted image is loaded into the SRAM firmware region and measured: stages 4, 5, 6 and 9, and a digest of each
4 KiB page (spec/16 R572, R573). -/
def State.runImage (img : List Byte) (s : State) : State :=
  let region := sectionBytes img 20 ++ sectionBytes img 28
  let s := (((s.measure 3 (img.take 4096)).measure 4 (sectionBytes img 20)).measure 5 (sectionBytes img 28)).measure 8
    (sectionBytes img 36)
  let s := s.modIdent fun i => { i with
    fwVersion := BitVec.ofNat 32 (field img 8 4), securityVersion := BitVec.ofNat 16 (imageSecurity img)
    patchKey := (img.drop 2016).take 1952, pages := (List.range 2048).map fun k => digest (pageOf region k) }
  s.modBoot fun b => { b with imageOk := true, image := img.take (imageLength img), recoveryWait := false }

/-! ## Signed records (spec/16 R576 to R588) -/

/-- A stored record of a boot is a valid signed record: its magic, format and length, and a signature that verifies
under the attestation key. -/
def signedRecord (magic len : Nat) (bs : List Byte) : Bool :=
  decide (bs.length = len) && field bs 0 4 == magic && field bs 4 2 == 1 && field bs 6 2 == len &&
    Config.mldsaVerify attestKey (ascii "IZ-PB") (bs.take (len - 3309)) (bs.drop (len - 3309))

def isPlaybill (bs : List Byte) : Bool := signedRecord 0x42505A49 9005 bs
def isAddendum (bs : List Byte) : Bool := signedRecord 0x44415A49 3629 bs

/-- boot_counter of a record. -/
def recCounter (bs : List Byte) : Nat := field bs 8 8

/-- Number of an addendum. -/
def recNumber (bs : List Byte) : Nat := field bs 32 1

/-- Insert by a key, ascending. -/
def insertBy {α : Type} (key : α → Nat) (x : α) : List α → List α
  | [] => [x]
  | y :: r => if key x ≤ key y then x :: y :: r else y :: insertBy key x r

/-- Sort by a key, ascending. -/
def sortBy {α : Type} (key : α → Nat) (l : List α) : List α := l.foldr (insertBy key) []

/-- Every Playbill held, newest first: of the store and those kept in DRAM (spec/16 R587). -/
def State.playbills (s : State) : List (List Byte) :=
  (sortBy recCounter ((s.nor.playbills.map Prod.snd).filter (fun b => decide (b.length = 9005)) ++
    (s.ident.pendingNor.filter fun p => p.1 == 0).map Prod.snd)).reverse

/-- The stored addenda of a boot, in order. -/
def State.addendaOf (s : State) (counter : Nat) : List (List Byte) :=
  (sortBy recNumber (((s.nor.addenda.map Prod.snd) ++ (s.ident.pendingNor.filter fun p => p.1 != 0).map Prod.snd).filter
    fun b => decide (b.length = 3629) && recCounter b == counter))

/-- Counter of the newest valid Playbill in the store. -/
def State.newestCounter (s : State) : Nat :=
  ((s.nor.playbills.map Prod.snd).filter isPlaybill).foldl (fun n b => max n (recCounter b)) 0

/-- The last valid signed record of the preceding Playbill's boot (spec/16 R579): its counter and digest. -/
def State.previousRecord (s : State) : Option (Nat × Digest) :=
  match s.playbills.find? isPlaybill with
  | none => none
  | some pb =>
    match ((s.addendaOf (recCounter pb)).filter isAddendum).getLast? with
    | some a => some (recCounter pb, digest a)
    | none => some (recCounter pb, digest pb)

/-- Companion index of the answering port (spec/03 Table 3-9). -/
def laneIndex (ident : List Byte) : Nat := field ident 5 1 / 2 % 2

/-- The state byte of a companion entry: 0 empty, 1 identified and measured, 2 failed. -/
def State.entryState (s : State) (p : PortId) : Nat :=
  if s.pins.prsnt.getLsbD p.val = false then 0
  else if (s.port p).train = 0xA ∨ (s.port p).companion.measure = [] then 2 else 1

/-- A companion entry (spec/16 Table 16-8). -/
def State.companionEntry (s : State) (p : PortId) : List Byte :=
  let x := s.port p
  let st := s.entryState p
  if st = 0 then packBytes [(1, p.val), (143, 0)]
  else packBytes [(1, p.val), (1, st), (1, if st = 2 then x.fail.val else 0), (1, laneIndex x.companion.ident)] ++
    padTo 64 x.companion.ident ++ padTo 72 x.companion.measure ++ packBytes [(4, 0)]

/-- config_digest (spec/16 Table 16-7). -/
def State.configDigest (s : State) : Digest :=
  digest (settingsBytes s.aon.pairSide s.aon.bootSrc s.aon.hostaEn s.aon.hostbEn s.nor.config)

/-- The slot byte of a Playbill: 0 A, 1 B, 2 recovery. -/
def State.slotCode (s : State) : Nat := if s.aon.recovery then 2 else bit s.aon.slot

/-- The Playbill of this boot, before its signature (spec/16 Table 16-7, R578, R579). -/
def State.playbillBody (s : State) : List Byte :=
  let prev := s.previousRecord
  let prevCounter := match prev with
    | some q => q.1
    | none => 0
  let prevDigest := match prev with
    | some q => q.2.toNat
    | none => 0
  let gap := decide (1 < s.ident.bootCounter.toNat - prevCounter)
  let flags := bit prev.isNone + 2 * bit gap + 4 * bit s.aon.recovery +
    8 * bit (s.aon.cause.getLsbD causeFallback) + 16 * bit s.ident.keyFailed
  let count := ((fins 32).filter fun p => s.entryState p == 1).length
  packBytes [(4, 0x42505A49), (2, 1), (2, 9005), (8, s.ident.bootCounter.toNat), (16, Config.deviceIdentity.toNat),
      (4, s.ident.fwVersion.toNat), (2, s.ident.securityVersion.toNat), (1, s.slotCode), (1, flags), (4, count), (4, 0),
      (8, prevCounter), (8, 0)] ++
    s.ident.stages.toList.flatMap digestBytes ++ digestBytes s.patch.digest ++ digestBytes s.configDigest ++
    packBytes [(64, prevDigest)] ++ digestBytes s.ident.attestKey ++ (fins 32).flatMap s.companionEntry

/-- ms since the release of the control processors. -/
def State.uptimeMs (s : State) : Nat := (s.now - s.boot.releaseAt) / Config.ms

/-- An addendum before its signature (spec/16 Table 16-9, R582), of the event that asked for it. -/
def State.addendumBody (s : State) (d : Due) : List Byte :=
  packBytes [(4, 0x44415A49), (2, 1), (2, 3629), (8, s.ident.bootCounter.toNat), (16, Config.deviceIdentity.toNat),
      (1, s.ident.addenda + 1), (1, if d.port.isSome then 1 else 2), (6, 0), (8, s.uptimeMs)] ++
    digestBytes s.ident.newest ++ digestBytes d.patch ++ d.entry

/-- A ring sector is given up: the boot whose addendum it holds has lost one (spec/16 R588). -/
def Nor.loseAddendum (k : Nat) (n : Nor) : Nor :=
  let gone := (n.addenda.filter fun q => q.1 == k && q.2.length == 3629).map fun q => recCounter q.2
  { n with addenda := n.addenda.filter fun q => q.1 != k, lostAddenda := (gone ++ n.lostAddenda).eraseDups }

/-- A record is programmed into NOR at its place, or kept in DRAM with its event when programming fails (spec/16
R585 to R587); number 0 is a Playbill. -/
def State.storeRecord (number : Nat) (bs : List Byte) (ok : Bool) (s : State) : State :=
  let c := recCounter bs
  if ok = false then
    (s.modIdent fun i => { i with pendingNor := i.pendingNor ++ [(number, bs)], norTryAt := s.now }).emit 0x0D 0x8003 noSource
      (pay [(8, c), (1, number)])
  else if number = 0 then
    (s.norProgram .playbill (c % 256 * 12288) bs.length).modNor fun n =>
      { n with playbills := put (c % 256) bs n.playbills, erasedSlot := none }
  else
    (s.norProgram .playbill (0x300000 + s.nor.ringNext * 4096) bs.length).modNor fun n =>
      { (n.loseAddendum n.ringNext) with addenda := put n.ringNext bs n.addenda, ringNext := (n.ringNext + 1) % 256, erasedSector := none }

/-- Every port with its presence asserted has ended bring-up training (spec/02 R78, R79). Without REFCLK_LINK no port can train, and
bring-up and the seal do not wait for any (DESIGN CHOICE, log 120: R52 and R79 do not say). -/
def State.allPortsEnded (s : State) : Bool :=
  !s.pins.linkPll || (fins 32).all fun p => !s.pins.prsnt.getLsbD p.val || (s.port p).ended

/-- Step 10 of spec/02 Table 2-9 when the last port has ended its bring-up training. -/
def State.noteEnded (s : State) : State :=
  if s.boot.released ∧ ¬ s.boot.portsEnded ∧ s.allPortsEnded = true then
    (s.setStep 10).modBoot fun b => { b with portsEnded := true, portsEndedAt := s.now }
  else s

/-- A companion is recorded for its port: by the Playbill (0) or by an addendum (spec/16 R581). -/
def State.recordCompanion (number : Nat) (p : PortId) (s : State) : State :=
  s.modPort p fun x => { x with
    addendum := decide (number ≠ 0), addendumNo := number, recorded := x.companion :: x.recorded }

/-- Of two companions the identity and firmware digest are the same. -/
def Companion.same (c d : Companion) : Bool := c.ident == d.ident && c.measure.drop 8 == d.measure.drop 8

/-- This boot has recorded the identity and firmware digest that a port's companion now reports (spec/16 R581). -/
def Port.isRecorded (x : Port) : Bool := x.recorded.any x.companion.same

/-- A port may be verified and started: the Playbill is not sealed yet, or a signed record of this boot names its companion (spec/16
R583, R584). -/
def State.mayGoOn (s : State) (p : PortId) : Bool := !s.ident.sealed || (s.port p).isRecorded

/-- An event that asks for an addendum joins those due: in order of arrival, and of those that arrive together lowest port first, then
a Patch Load (R583; the Patch Load's place DESIGN CHOICE, log 143). -/
def State.addDue (port : Option PortId) (ctx : Nat) (s : State) : State :=
  let d : Due := match port with
    | some p => { port := some p, ctx := ctx, at_ := s.now, patch := s.patch.digest, entry := s.companionEntry p
                  companion := (s.port p).companion }
    | none => { port := none, ctx := ctx, at_ := s.now, patch := s.patch.digest, entry := List.replicate 144 0
                companion := { ident := [], measure := [] } }
  let key (e : Due) : Nat := match e.port with
    | some p => p.val
    | none => 32
  let after (e : Due) : Bool := e.at_ == d.at_ && decide (key d < key e)
  s.modIdent fun i => { i with due := i.due.takeWhile (fun e => !after e) ++ d :: i.due.dropWhile fun e => !after e }

/-! ## Commands -/

/-- ATTESTATION_KEY_DERIVATION: alongside steps 5 to 8 the key is derived and compared with the certified key
(spec/16 R562, R563). -/
def execAttestationKeyDerivation (s : State) : Host.Outcome State Fault Refusal :=
  .next <|
    if s.booting ∧ 4 ≤ s.aon.step.toNat ∧ ¬ s.ident.keyReady ∧ ¬ s.ident.keyFailed then
      let ok := Config.certificate != [] && attestKey == Config.certifiedKey
      s.modIdent fun i => { i with keyReady := ok, keyFailed := !ok, certPresent := Config.certificate != []
                                   attestKey := digest attestKey }
    else s

/-- MODULE_LOAD: stage 12 is extended with the module's digest; after boot complete the load is refused and nothing
changes (spec/16 R574). -/
def execModuleLoad (module : List Byte) (s : State) : Host.Outcome State Fault Refusal :=
  .next <|
    if s.boot.released ∧ ¬ s.boot.complete then
      s.measure 11 (digestBytes s.ident.stages[11] ++ digestBytes (digest module))
    else s

/-- PLAYBILL_SEAL: Nuhalith signs the Playbill of the boot; it records every companion measured so far, and each port
so recorded may go on (spec/16 R577 to R580, R587). `norOk`: programming and comparison succeeded. -/
def execPlaybillSeal (norOk : Bool) (s : State) : Host.Outcome State Fault Refusal :=
  .next <|
    if s.boot.released ∧ ¬ s.ident.sealed ∧ s.allPortsEnded = true then
      let body := s.playbillBody
      let pb := body ++ s.sign "IZ-PB" body
      let start := s.previousRecord.isNone
      let s := s.modIdent fun i => { i with sealed := true, chainStart := start, playbill := pb, newest := digest pb }
      let s := s.each ((fins 32).filter fun p => s.entryState p == 1) fun p s => s.recordCompanion 0 p
      s.storeRecord 0 pb norOk
    else s

/-- PLAYBILL_NOR_RETRY: 10 s after the last failure a record kept in DRAM is programmed again (spec/16 R587). -/
def execPlaybillNorRetry (norOk : Bool) (s : State) : Host.Outcome State Fault Refusal :=
  .next <|
    match s.ident.pendingNor with
    | [] => s
    | (n, bs) :: rest =>
      let s := s.at_ (s.ident.norTryAt + 10 * Config.sec)
      if norOk then (s.modIdent fun i => { i with pendingNor := rest }).storeRecord n bs true
      else s.modIdent fun i => { i with norTryAt := s.now }

/-- NOR_PRE_ERASE: while idle, with the boot's counter known and no record due, the next Playbill slot and the next ring sector are
erased; what they hold is lost (spec/16 R586, R588). -/
def execNorPreErase (s : State) : Host.Outcome State Fault Refusal :=
  .next <|
    if s.boot.released = false ∨ s.ident.due ≠ [] ∨ s.ident.pendingNor ≠ [] then s
    else
      let slot := (s.ident.bootCounter.toNat + bit s.ident.sealed) % 256
      let ring := s.nor.ringNext
      ((s.norErase .playbill (slot * 12288) 12288).norErase .playbill (0x300000 + ring * 4096) 4096).modNor fun n =>
        { n.loseAddendum ring with
          playbills := n.playbills.filter fun q => q.1 != slot, erasedSlot := some slot, erasedSector := some ring }

end Sys2Proof.Machine
end

