-- ==== Sys2Proof/Machine/Tx.lean ====
section
/-! DEFINITION. Packets of the Clavik link and how units send them (spec/03 R112 to R115). -/

namespace Sys2Proof.Machine

/-! ## CRC-16 (spec/03 Table 3-6) -/

/-- One bit of the CRC register, polynomial 0x1021, most significant bit first (DEDUCED, log 13). -/
def crcBit (c : Nat) : Nat := if c / 32768 % 2 = 1 then Nat.xor (c * 2 % 65536) 0x1021 else c * 2 % 65536

/-- One byte. -/
def crcByte (c : Nat) (b : Byte) : Nat :=
  crcBit (crcBit (crcBit (crcBit (crcBit (crcBit (crcBit (crcBit (Nat.xor c (b.toNat * 256)))))))))

/-- CRC-16 with initial value 0xFFFF. -/
def crc16 (bs : List Byte) : Nat := bs.foldl crcByte 0xFFFF

/-- A packet's bytes without its CRC. -/
def Packet.head (k : Packet) : List Byte :=
  packBytes [(1, k.opcode.toNat), (1, k.tag.toNat), (1, k.payload.length), (1, k.status.toNat)] ++ k.payload

/-- A packet's bytes on the lane. -/
def Packet.bytes (k : Packet) : List Byte := k.head ++ leBytes 2 (crc16 k.head)

/-- The packets of a packet block's content, and how many failed their CRC; a zero opcode ends the packets (spec/03
R112, R113). A packet that would span the content's end counts as failed; one whose length exceeds 224 and whose CRC is right is
taken (DESIGN CHOICE, log 104). -/
def parsePackets : Nat → List Byte → List Packet × Nat
  | 0, _ => ([], 0)
  | n + 1, bs =>
    let op := field bs 0 1
    let len := field bs 2 1
    if bs = [] ∨ op = 0 then ([], 0)
    else if bs.length < len + 6 then ([], 1)
    else
      let rest := parsePackets n (bs.drop (len + 6))
      let k : Packet := { opcode := BitVec.ofNat 8 op, tag := BitVec.ofNat 8 (field bs 1 1)
                          status := BitVec.ofNat 8 (field bs 3 1), payload := (bs.drop 4).take len }
      if crc16 (bs.take (4 + len)) = field bs (4 + len) 2 then (k :: rest.1, rest.2) else (rest.1, rest.2 + 1)

/-! ## Sending -/

/-- A posted packet in the urgent class of R100, when the command lane runs. -/
def State.sendUrgent (p : PortId) (op : Nat) (payload : List Byte) (s : State) : State :=
  s.modPort p fun x => if x.cmdUp then { x with urgent := x.urgent ++
    [{ opcode := BitVec.ofNat 8 op, tag := 0, status := 0, payload := payload }] } else x

/-- A posted packet of the other class. -/
def State.sendPosted (p : PortId) (op : Nat) (payload : List Byte) (s : State) : State :=
  s.modPort p fun x => if x.cmdUp then { x with normal := x.normal ++
    [(s.now, { opcode := BitVec.ofNat 8 op, tag := 0, status := 0, payload := payload })] } else x

/-- The tag of a new request: the lowest of 1 to 255 that no outstanding one uses (DESIGN CHOICE, log 122: R114 does not say which). -/
def Port.freeTag (x : Port) : Nat :=
  ((List.range 255).find? fun t => x.requests.all fun r => r.packet.tag.toNat != t + 1).elim 1 (· + 1)

/-- A request, at most 32 outstanding on the lane (spec/03 R114). -/
def State.sendRequest (p : PortId) (op : Nat) (payload : List Byte) (s : State) : State :=
  s.modPort p fun x =>
    if x.cmdUp ∧ x.requests.length < 32 then
      let k : Packet := { opcode := BitVec.ofNat 8 op, tag := BitVec.ofNat 8 x.freeTag, status := 0, payload := payload }
      { x with normal := x.normal ++ [(s.now, k)]
               requests := x.requests ++ [{ packet := k, sentAt := s.now, sends := 1, busy := 0, busyAt := none }] }
    else x

/-- The same with the packet in the urgent class, for the packet block that R171 names. -/
def State.sendRequestUrgent (p : PortId) (op : Nat) (payload : List Byte) (s : State) : State :=
  s.modPort p fun x =>
    if x.cmdUp ∧ x.requests.length < 32 then
      let k : Packet := { opcode := BitVec.ofNat 8 op, tag := BitVec.ofNat 8 x.freeTag, status := 0, payload := payload }
      { x with urgent := x.urgent ++ [k]
               requests := x.requests ++ [{ packet := k, sentAt := s.now, sends := 1, busy := 0, busyAt := none }] }
    else x

/-- An outstanding request is sent again with its tag. -/
def State.resend (p : PortId) (r : Request) (f : Request → Request) (s : State) : State :=
  s.modPort p fun x => { x with
    normal := x.normal ++ [(s.now, r.packet)]
    requests := mapWhere (fun q => q.packet.tag == r.packet.tag) (fun q => f { q with sentAt := s.now }) x.requests }

/-- How long a request may stay unanswered (spec/03 R114). -/
def requestTimeout (op : Nat) : Nat :=
  if op = 0x03 then 60 * Config.ms else if op = 0x13 then 600 * Config.ms else if op = 0x41 then 2 * Config.sec
  else Config.ms

/-- The outstanding request of an opcode whose answer is awaited, oldest first. -/
def Port.request? (x : Port) (op : Nat) : Option Request := x.requests.find? fun r => r.packet.opcode.toNat == op

/-- The oldest received packet of an opcode, taken from those received and not yet taken by their unit. -/
def State.takeRx (p : PortId) (op : Nat) (k : Packet → State → State) (s : State) : State :=
  match (s.port p).rx.findIdx? fun x => x.opcode.toNat == op with
  | none => s
  | some i =>
    match (s.port p).rx[i]? with
    | some x => k x (s.modPort p fun q => { q with rx := dropAt i q.rx })
    | none => s

/-- The answer to an outstanding request of an opcode: the oldest received response of that opcode whose tag is that
of such a request; a response without its request is dropped. The request stays outstanding for the caller. -/
def State.takeAnswer (p : PortId) (op : Nat) (k : Request → Packet → State → State) (s : State) : State :=
  s.takeRx p (op + 0x80) fun x s =>
    match (s.port p).requests.find? fun r => r.packet.opcode.toNat == op && r.packet.tag == x.tag with
    | some r => k r x s
    | none => s

/-- A request has had its answer. -/
def State.answered (p : PortId) (r : Request) (s : State) : State :=
  s.modPort p fun x => { x with requests := x.requests.filter fun q => q.packet.tag != r.packet.tag }

/-- A busy answer: the request waits 1 ms and is sent again, at most twice; a third busy answer in a row fails it. -/
def State.busyAnswer (p : PortId) (r : Request) (failed : State → State) (s : State) : State :=
  if r.busy < 2 then
    s.modPort p fun x => { x with
      requests := mapWhere (fun q => q.packet.tag == r.packet.tag)
        (fun q => { q with busy := q.busy + 1, busyAt := some s.now }) x.requests }
  else failed (s.answered p r)

/-- 1 ms after a busy answer the request is sent again. -/
def State.busyRetry (p : PortId) (op : Nat) (want : Request → Bool) (s : State) : State :=
  match (s.port p).requests.find? fun r => r.packet.opcode.toNat == op && r.busyAt.isSome && want r with
  | none => s
  | some r =>
    let s := s.at_ (r.busyAt.getD s.now + Config.ms)
    s.resend p r fun q => { q with busyAt := none }

/-! ## The packets of spec/03 Table 3-8 -/

/-- 32-bit link time of an instant in ticks. -/
def time32 (t : Nat) : Nat := t % 2 ^ 32

/-- GATE: kind 0 servo, 1 read, 2 write. -/
def State.sendGate (a : ActId) (kind head openTime length rate : Nat) (s : State) : State :=
  s.sendPosted (portOf a) 0x10 (packBytes [(1, (sideOf a).val), (1, kind), (1, head), (1, 0), (4, time32 openTime),
    (4, length), (2, rate), (2, 0)])

/-- GATE_CANCEL of the kinds given, in the urgent class (spec/03 R100). -/
def State.sendCancel (a : ActId) (kinds : Nat) (s : State) : State :=
  s.sendUrgent (portOf a) 0x11 (packBytes [(1, (sideOf a).val), (1, kinds), (2, 0)])

/-- ACT_DRIVE. -/
def State.sendActDrive (a : ActId) (vcm ma : Int) (applyTime : Nat) (s : State) : State :=
  s.sendUrgent (portOf a) 0x12 (packBytes [(1, (sideOf a).val), (1, 0), (2, unsigned 16 vcm), (2, unsigned 16 ma),
    (4, time32 applyTime)])

/-- ACT_PARK: action 0 unload, 1 release for load. -/
def State.sendPark (p : PortId) (sd : Side) (action : Nat) (s : State) : State :=
  s.sendRequest p 0x13 (packBytes [(1, sd.val), (1, action), (2, 0)])

/-- SPINDLE_DRIVE, kept as the drive last sent. -/
def State.sendDrive (p : PortId) (mode : Fin 3) (u v w : Int) (applyTime : Nat) (s : State) : State :=
  (s.sendUrgent p 0x20 (packBytes [(1, mode.val), (1, 0), (2, unsigned 16 u), (2, unsigned 16 v), (2, unsigned 16 w),
    (4, time32 applyTime)])).modSpin p fun x => { x with drive := { mode := mode, u := u, v := v, w := w, applyAt := applyTime, sentAt := s.now } }

/-- Link time now, in ticks, not wrapped. -/
def State.ticksNow (s : State) : Nat := ticksOfNs s.now

end Sys2Proof.Machine
end

