-- ==== Sys2Proof/Machine/Pers.lean ====
section
/-! DEFINITION. Personality data: its container, tables 0x0001 to 0x0005, their checks, and the track layout and
interpolations that rest on them (spec/03 R135, R136; spec/04 R175; spec/05 R211; spec/06 R235, R244; spec/08 R287,
R291). -/

namespace Sys2Proof.Machine

/-! ## Container (spec/03 R135) -/

/-- A signed 16-bit and 32-bit field. -/
def s16At (bs : List Byte) (off : Nat) : Int := signed 16 (field bs off 2)
def s32At (bs : List Byte) (off : Nat) : Int := signed 32 (field bs off 4)

/-- The bytes of a table of the directory, none when it is missing. -/
def persTable (bs : List Byte) (id : Nat) : Option (List Byte) :=
  match (List.range (field bs 6 2)).find? fun i => field bs (32 + 16 * i) 2 == id with
  | some i => some ((bs.drop (field bs (32 + 16 * i + 4) 4)).take (field bs (32 + 16 * i + 8) 4))
  | none => none

/-- The container's own checks: magic, total_length, signature, and a key that the manifest names (spec/03 R136). A format other than 1,
a table_count outside 5 to 64 and reserved bytes that are not 0 are no failure of R136's list, and are let pass (DESIGN CHOICE,
log 124). -/
def containerOk (m : Option Manifest) (bs : List Byte) : Bool :=
  let key := (bs.drop (field bs 12 4)).take 1952
  let sig := field bs 16 4
  let keys := match m with
    | some x => x.pers
    | none => []
  field bs 0 4 == 0x50505A49 && field bs 8 4 == bs.length && keys.contains (digest key) &&
    Config.mldsaVerify key (ascii "IZ-PP") (bs.take sig) ((bs.drop sig).take 3309)

/-! ## Table 0x0002: spindle (spec/04 Table 4-5) -/

/-- Linear interpolation through points of rising x, clamped to the first and last (spec/04 R154); where the quotient
is not whole the rounding is not stated (log 7). -/
def interpolate : List (Nat × Nat) → Nat → Nat
  | [], _ => 0
  | [(_, y)], _ => y
  | (x0, y0) :: (x1, y1) :: r, x =>
    if x ≤ x0 then y0
    else if x < x1 then (freeRound ((y0 : Int) * ((x1 : Int) - x0) + ((y1 : Int) - y0) * ((x : Int) - x0)) (x1 - x0)).toNat
    else interpolate ((x1, y1) :: r) x

def readSpin (t : List Byte) : SpinTable :=
  { polePairs := field t 0 2, runLevel := field t 2 2
    curve := (List.range 16).map fun i => (field t (4 + 4 * i) 2, field t (6 + 4 * i) 2)
    advance := (List.range 16).map fun i => field t (68 + 2 * i) 2
    senseWidth := field t 100 2, senseMargin := field t 102 2, alignMs := field t 104 2, forcedAccel := field t 106 2
    handoverRpm := field t 108 2, startDuty := field t 110 2, runDuty := field t 112 2, brakeDuty := field t 114 2
    kp := field t 116 4, ki := field t 120 4, stopBrakeMs := field t 124 2 }

/-- The curve speed of a level, rpm. -/
def SpinTable.speed (t : SpinTable) (level : Nat) : Nat := interpolate t.curve level

/-- The run-level speed. -/
def SpinTable.runSpeed (t : SpinTable) : Nat := t.speed t.runLevel

/-- The curve speed of a level (spec/04 R154); 0 while no table has been read. -/
def Spin.curve (v : Spin) (level : Nat) : Nat := match v.table with
  | some t => t.speed level
  | none => 0

/-- The target speed is the curve speed of run_level (spec/04 R157). -/
def Spin.atRun (v : Spin) : Bool := match v.table with
  | some t => v.target == t.runSpeed
  | none => false

def inRange (lo hi x : Nat) : Bool := decide (lo ≤ x) && decide (x ≤ hi)

/-- A list rises strictly. -/
def risesStrictly : List Nat → Bool
  | a :: b :: r => decide (a < b) && risesStrictly (b :: r)
  | _ => true

/-- A list never falls. -/
def neverFalls : List Nat → Bool
  | a :: b :: r => decide (a ≤ b) && neverFalls (b :: r)
  | _ => true

/-- spec/04 R176. -/
def SpinTable.ok (t : SpinTable) : Bool :=
  inRange 2 8 t.polePairs && inRange 64 1023 t.runLevel && t.advance.all (inRange 0 300) &&
  inRange 500 20000 t.senseWidth && inRange 5 1000 t.senseMargin && inRange 50 2000 t.alignMs &&
  inRange 100 5000 t.forcedAccel && inRange 60 600 t.handoverRpm && inRange 0x0800 0x7FFF t.startDuty &&
  inRange 0x0800 0x7FFF t.runDuty && inRange 0 0x7FFF t.brakeDuty && inRange 100 10000 t.stopBrakeMs &&
  risesStrictly (t.curve.map Prod.fst) && (t.curve.map Prod.fst).head? == some 0 &&
  (t.curve.map Prod.fst).getLast? == some 1023 && neverFalls (t.curve.map Prod.snd) &&
  (t.curve.map Prod.snd).all (inRange 0 10000) && decide (t.handoverRpm ≤ t.speed 48)

/-- Table 0x0002 is 128 bytes long, its last field 0, and within its ranges (spec/04 R175, R176). -/
def spinOk (t : List Byte) : Bool := t.length == 128 && field t 126 2 == 0 && (readSpin t).ok

/-! ## Table 0x0001: servo (spec/05 R211, R212) -/

def readComp (t : List Byte) : CompBlock :=
  { three := field t 0 1 == 1, outMin := s16At t 2, outMax := s16At t 4, swapSlew := field t 6 2
    limit := s32At t 8, b0 := s32At t 12, b1 := s32At t 16, b2 := s32At t 20, b3 := s32At t 24, a1 := s32At t 28
    a2 := s32At t 32, a3 := s32At t 36 }

def readProfile (t : List Byte) : Profile :=
  { accelMax := field t 0 2, seekMs := field t 2 2, settleMs := field t 4 2
    points := (List.range 31).map fun i => (field t (8 + 8 * i) 4, field t (12 + 8 * i) 2) }

def readServo (t : List Byte) : ServoTable :=
  { wedges := field t 0 2, writeWindow := field t 2 2, readWindow := field t 4 2, writeRecover := field t 6 1
    missingMax := field t 7 1, seekMin := field t 8 2, tfEntryCount := field t 10 1, tfExitCount := field t 11 1
    entryDist := field t 12 4, entryVel := field t 16 2, tfEntryPes := field t 18 2, tfEntryVel := field t 20 2
    tfExitPes := field t 22 2, shockPes := field t 24 2, shockVel := field t 26 2, maGain := s32At t 28
    crossFf := s32At t 32, home := field t 36 4
    blocks := (List.range 8).map fun i => (readComp (t.drop (64 + 80 * i)), readComp (t.drop (64 + 80 * i + 40)))
    profile0 := readProfile (t.drop 704), profile1 := readProfile (t.drop 960) }

/-- Bytes that a table reserves hold 0 (a field out of range else; DEDUCED, log 110). -/
def zeroBytes (t : List Byte) (off n : Nat) : Bool := ((t.drop off).take n).all (· == 0)

def CompBlock.ok (b : CompBlock) (form : Nat) : Bool :=
  decide (form ≤ 1) && decide (b.outMin < b.outMax) && decide (b.swapSlew ≤ 32767) && decide (1 ≤ b.limit) &&
  decide (b.limit ≤ 8388607) && (b.three || (b.b3 == 0 && b.a3 == 0))

def Profile.ok (p : Profile) : Bool :=
  inRange 1 4096 p.accelMax && inRange 5 500 p.seekMs && inRange 1 100 p.settleMs &&
  (p.points.map Prod.fst).head? == some 0 && risesStrictly (p.points.map Prod.fst) && neverFalls (p.points.map Prod.snd)

/-- spec/05 R212. -/
def servoOk (t : List Byte) (spin : SpinTable) : Bool :=
  let v := readServo t
  t.length == 1216 && inRange 128 512 v.wedges && inRange 64 2048 v.writeWindow && inRange 64 4096 v.readWindow &&
  inRange 1 16 v.writeRecover && inRange 2 16 v.missingMax && inRange 1 256 v.seekMin && inRange 1 64 v.tfEntryCount &&
  inRange 1 64 v.tfExitCount && inRange 4096 1048576 v.entryDist && inRange 1 32767 v.entryVel &&
  inRange 16 4096 v.tfEntryPes && inRange 1 1024 v.tfEntryVel && inRange 64 8192 v.tfExitPes &&
  inRange 256 32767 v.shockPes && inRange 1 32767 v.shockVel &&
  (List.range 16).all (fun i =>
    (readComp (t.drop (64 + 40 * i))).ok (field t (64 + 40 * i) 1) && zeroBytes t (65 + 40 * i) 1) &&
  zeroBytes t 40 24 && [704, 960].all (fun o => zeroBytes t (o + 6) 2 && (List.range 31).all fun i => zeroBytes t (o + 14 + 8 * i) 2) &&
  decide (v.tfEntryPes ≤ v.tfExitPes) && decide (v.tfExitPes < v.shockPes) && v.profile0.ok && v.profile1.ok &&
  decide (60000000000 ≤ 150000 * spin.runSpeed * v.wedges)

/-! ## Table 0x0003: format and track layout (spec/06 R234, R235, R244) -/

def readFormat (t : List Byte) : FormatTable :=
  { zoneCount := field t 0 1, grayBits := field t 1 1, servoPairs := field t 2 2, servoRate := field t 4 2
    syncOffset := field t 6 2, gateLead := field t 8 2, burstOffset := field t 10 2, burstPairs := field t 12 2
    gapPost := field t 14 2, gapPre := field t 16 2, servoSync := BitVec.ofNat 32 (field t 20 4)
    dataSync := BitVec.ofNat 32 (field t 24 4)
    heads := (List.range 24).map fun i =>
      let b := t.drop (64 + 8 * i)
      { offset0 := s16At b 0, offset1 := s16At b 2, quality0 := field b 4 1, quality1 := field b 5 1
        swap := field b 6 1 % 2 == 1 }
    zones := (List.range 32).map fun i =>
      let b := t.drop (256 + 32 * i)
      { firstTrack := field b 0 4, trackCount := field b 4 4, sectors := field b 8 2, rate := field b 10 2
        preamble := field b 12 2, sync := field b 14 2, body := field b 16 4, postamble := field b 20 2
        resync := field b 22 2, skew := field b 24 2, guard := field b 26 2 } }

/-- Sample pairs of one wedge period at a rate, at the run-level speed; a part of a pair is dropped (DEDUCED from the
example of spec/06, log 15). -/
def wedgePairs (rpm wedges rate : Nat) : Nat := 60000000 * rate / (rpm * wedges)

/-- Pairs of the data area of a wedge (spec/06 R234), the servo gate's length taken up to whole pairs of the zone's
rate. -/
def dataArea (f : FormatTable) (z : ZoneFmt) (rpm wedges : Nat) : Nat :=
  wedgePairs rpm wedges z.rate - ceilDiv (f.servoPairs * z.rate) (max 1 f.servoRate) - f.gapPost - f.gapPre

/-- A fragment of a sector: wedge after the track's first, first pair in its data area, and pairs. -/
abbrev Fragment := Nat × Nat × Nat

/-- The rest of a sector from a place: its fragments and the place after it; a continuation begins with a resync field
(spec/06 R235). Areas no longer than that field hold none of it. The first argument bounds the areas a sector can cross, since
each holds one of its bits at least. -/
def placeRest (area resync : Nat) : Nat → Nat → Nat → Nat → List Fragment × Nat × Nat
  | 0, w, pos, _ => ([], w, pos)
  | n + 1, w, pos, rest =>
    if pos + rest ≤ area then ([(w, pos, rest)], w, pos + rest)
    else if area ≤ resync then ([], w, pos)
    else
      let q := placeRest area resync n (w + 1) 0 (resync + (rest - (area - pos)))
      ((w, pos, area - pos) :: q.1, q.2)

/-- One sector from a place: it does not start where it would be split inside its preamble or sync field. -/
def placeSector (z : ZoneFmt) (area w pos : Nat) : List Fragment × Nat × Nat :=
  let total := z.preamble + z.sync + z.body + z.postamble
  if area - pos < z.preamble + z.sync then placeRest area z.resync (total + 1) (w + 1) 0 total
  else placeRest area z.resync (total + 1) w pos total

/-- The fragments of each sector of a track, in order. -/
def layout (z : ZoneFmt) (area : Nat) : Nat → Nat → Nat → List (List Fragment)
  | 0, _, _ => []
  | n + 1, w, pos => let q := placeSector z area w pos; q.1 :: layout z area n q.2.1 q.2.2

/-- A sector is placed whole: its fragments hold all its bits, beside the resync field of each continuation. -/
def placedWhole (z : ZoneFmt) (fs : List Fragment) : Bool :=
  (fs.map fun f => f.2.2).sum == z.preamble + z.sync + z.body + z.postamble + (fs.length - 1) * z.resync

/-- The sectors fit in one revolution, whole, and none is split inside its preamble or sync field. -/
def layoutFits (z : ZoneFmt) (area wedges : Nat) : Bool :=
  decide (z.preamble + z.sync ≤ area) &&
  (layout z area z.sectors 0 0).all fun fs => placedWhole z fs && fs.all fun f => decide (f.1 < wedges)

/-- The first wedge of a track (spec/06 R235). -/
def firstWedge (z : ZoneFmt) (track wedges : Nat) : Nat := track * z.skew % max 1 wedges

/-- Zones are contiguous from track 0. -/
def contiguous : Nat → List ZoneFmt → Bool
  | _, [] => true
  | t, z :: r => z.firstTrack == t && contiguous (t + z.trackCount) r

/-- spec/06 R245 and spec/07 R253. -/
def formatOk (t : List Byte) (maxRate : Nat) (spin : SpinTable) (wedges : Nat) : Bool :=
  let f := readFormat t
  let zs := f.zones.take f.zoneCount
  t.length == 1280 && zeroBytes t 18 2 && zeroBytes t 28 36 &&
  ((List.range 24).all fun i => decide (field t (70 + 8 * i) 1 ≤ 1) && zeroBytes t (71 + 8 * i) 1) &&
  ((List.range f.zoneCount).all fun i => zeroBytes t (284 + 32 * i) 4) &&
  ((List.range 32).all fun i => decide (i < f.zoneCount) || zeroBytes t (256 + 32 * i) 32) && inRange 1 32 f.zoneCount &&
    inRange 16 24 f.grayBits && inRange 256 4096 f.servoPairs &&
  inRange 500 3000 f.servoRate && inRange 50 2000 f.gateLead && inRange 16 1024 f.gapPost && inRange 16 1024 f.gapPre &&
  decide (f.syncOffset < f.servoPairs) && contiguous 0 zs &&
  zs.all fun z => decide (1 ≤ z.trackCount) && decide (1 ≤ z.sectors) && inRange 500 maxRate z.rate &&
    inRange 256 4096 z.preamble && inRange 16 32 z.sync && inRange 0 1024 z.postamble && inRange 64 2048 z.resync &&
    decide (z.skew < wedges) && inRange 1 64 z.guard && z.body == 36818 &&
    decide (z.preamble + z.sync + 36818 + z.postamble + z.resync ≤ 43690) &&
    layoutFits z (dataArea f z spin.runSpeed wedges) wedges

/-! ## Tables 0x0004 and 0x0005 (spec/08 R287, R288, R291, R292) -/

def readRecipes (t : List Byte) : RecipeTable :=
  { calTracks := field t 0 2, calZone := field t 2 1, elements := (List.range 24).map fun i => field t (4 + i) 1
    recipes := (List.range 768).map fun i => field t (32 + i) 1 }

def Five.ofFn (g : Nat → Nat) : Five := { laser := g 0, sto := g 1, write := g 2, reader0 := g 3, reader1 := g 4 }

/-- The five quantities in the order of spec/08 Table 8-2. -/
def Five.list (v : Five) : List Nat := [v.laser, v.sto, v.write, v.reader0, v.reader1]

/-- An operation on each quantity of several. -/
def Five.map2 (g : Nat → Nat → Nat) (a b : Five) : Five :=
  { laser := g a.laser b.laser, sto := g a.sto b.sto, write := g a.write b.write, reader0 := g a.reader0 b.reader0
    reader1 := g a.reader1 b.reader1 }

def CalEntry.list (e : CalEntry) : List Five := [e.v0, e.v1, e.v2, e.v3, e.v4]

def readEntry (b : List Byte) : CalEntry :=
  let five (i : Nat) := Five.ofFn fun q => field b (10 * q + 2 * i) 2
  { v0 := five 0, v1 := five 1, v2 := five 2, v3 := five 3, v4 := five 4 }

def readCal (t : List Byte) : CalTable :=
  { min := Five.ofFn fun q => field t (6 * q) 2, max := Five.ofFn fun q => field t (6 * q + 2) 2
    step := Five.ofFn fun q => field t (6 * q + 4) 2
    entries := (List.range 768).map fun i => readEntry (t.drop (64 + 64 * i)) }

/-- The HDA-global heads that an HDA has, by the sides and heads of its identity (spec/03 Table 3-9). -/
def headsOf (ident : List Byte) : List Nat :=
  (List.range 24).filter fun h => decide (h / 12 < field ident 6 1) && decide (h % 12 < field ident 7 1)

/-- A recipe's use of an element: 1 laser, 2 oscillator. -/
def uses (recipe element : Nat) : Bool := if element = 1 then recipe % 2 == 1 else recipe / 2 % 2 == 1

/-- spec/08 R288: the fields of every head within range, the recipes of the heads the HDA has (DEDUCED, log 15). -/
def recipesOk (t : List Byte) (zoneCount : Nat) (heads : List Nat) (spin : SpinTable) : Bool :=
  let r := readRecipes t
  let recipe (h z : Nat) := field t (32 + 32 * h + z) 1
  t.length == 800 && zeroBytes t 3 1 && zeroBytes t 28 4 && r.elements.all (· < 4) &&
  ((List.range 24).all fun h => (List.range 32).all fun z => if z < zoneCount then decide (recipe h z ≤ 3) else recipe h z == 0) &&
  inRange 6 64 r.calTracks && decide (r.calZone < zoneCount) && decide (3000 ≤ spin.runSpeed) &&
  heads.all fun h => (List.range zoneCount).all fun z =>
    inRange 1 3 (recipe h z) && (!uses (recipe h z) 1 || field t (4 + h) 1 % 2 == 1) &&
    (!uses (recipe h z) 2 || field t (4 + h) 1 / 2 % 2 == 1) &&
    (!uses (recipe h z) 1 || uses (recipe h r.calZone) 1) && (!uses (recipe h z) 2 || uses (recipe h r.calZone) 2)

/-- spec/08 R292. -/
def calOk (t : List Byte) (zoneCount : Nat) (heads : List Nat) : Bool :=
  let c := readCal t
  t.length == 49216 &&
  (List.range 5).all (fun q =>
    let lo := c.min.list.getD q 0
    let hi := c.max.list.getD q 0
    let st := c.step.list.getD q 0
    decide (lo ≤ hi) && decide (0 < st) && decide (st ≤ hi - lo)) &&
  heads.all fun h => (List.range zoneCount).all fun z =>
    (readEntry (t.drop (64 + 64 * (32 * h + z)))).list.all fun v => (List.range 5).all fun q =>
      inRange (c.min.list.getD q 0) (c.max.list.getD q 0) (v.list.getD q 0)

/-- Bands on one surface of a zone (spec/09 Table 9-1). -/
def bandsIn (cal : Nat) (z : ZoneFmt) : Nat := (z.trackCount - cal) / (2 * ceilDiv 16416 (max 1 z.sectors) + 2 * z.guard)

/-- The formatted capacity of an HDA, its bands of 128 MiB, is at most 128 TB (spec/00 R3; DEDUCED from the example of spec/09 R342, log
112). -/
def capacityOk (f : FormatTable) (cal heads : Nat) : Bool :=
  decide (((f.zones.take f.zoneCount).map (bandsIn cal)).sum * heads * 134217728 ≤ 128 * 10 ^ 12)

/-! ## Verification -/

/-- The five tables of verified personality data (spec/03 R136 and the rules that add to it); none: it fails. -/
def verifyPers (m : Option Manifest) (ident bs : List Byte) :
    Option (SpinTable × ServoTable × FormatTable × RecipeTable × CalTable) :=
  match persTable bs 1, persTable bs 2, persTable bs 3, persTable bs 4, persTable bs 5 with
  | some t1, some t2, some t3, some t4, some t5 =>
    let spin := readSpin t2
    let servo := readServo t1
    let zones := field t3 0 1
    if containerOk m bs && spinOk t2 && servoOk t1 spin && formatOk t3 (field ident 8 2) spin servo.wedges &&
        recipesOk t4 zones (headsOf ident) spin && calOk t5 zones (headsOf ident) &&
        capacityOk (readFormat t3) (readRecipes t4).calTracks (headsOf ident).length then
      some (spin, servo, readFormat t3, readRecipes t4, readCal t5)
    else none
  | _, _, _, _, _ => none

/-! ## Interpolation over temperature (spec/08 R294) -/

/-- Interpolation points, 1/16 °C. -/
def calPoints : List Int := [160, 400, 640, 880, 1120]

/-- The value of one quantity between two points, rounded half up. -/
def interPoint (v0 v1 : Nat) (p tf : Int) : Nat :=
  (roundHalfUp ((v0 : Int) * 240 + ((v1 : Int) - v0) * (tf - p)) 240).toNat

/-- All five quantities of an entry at a temperature. -/
def CalEntry.at_ (e : CalEntry) (tf : Int) : Five :=
  if tf ≤ 160 then e.v0
  else if 1120 ≤ tf then e.v4
  else if 880 ≤ tf then Five.map2 (fun a b => interPoint a b 880 tf) e.v3 e.v4
  else if 640 ≤ tf then Five.map2 (fun a b => interPoint a b 640 tf) e.v2 e.v3
  else if 400 ≤ tf then Five.map2 (fun a b => interPoint a b 400 tf) e.v1 e.v2
  else Five.map2 (fun a b => interPoint a b 160 tf) e.v0 e.v1

end Sys2Proof.Machine
end

