-- ==== Sys2Proof/Machine/SectorCode.lean ====
section
/-! DEFINITION. Samples and channel bits: the pairs of a block, the sample window of an engine, the address and the codeword of a
sector, and the bits of its fragments (spec/03 R102; spec/07 R250 to R257, R274; spec/06 R235). -/

namespace Sys2Proof.Machine

/-! ## Samples (spec/03 R96, R102; spec/07 R250, R256) -/

/-- The pairs of a block's content, read as one little-endian number. -/
def samplePairs (content : List Byte) (n : Nat) : List SamplePair :=
  let x := ofLe content
  (List.range (min 168 n)).map fun k => BitVec.ofNat 12 (x / 2 ^ (12 * k))

/-- The two fields of a pair: 6-bit two's-complement values. -/
def SamplePair.low (x : SamplePair) : Int := (x.extractLsb' 0 6).toInt
def SamplePair.high (x : SamplePair) : Int := (x.extractLsb' 6 6).toInt

/-- The fields exchanged, for a head whose reader_swap flag is set (spec/07 R250). -/
def SamplePair.swap (x : SamplePair) : SamplePair := x.extractLsb' 0 6 ++ x.extractLsb' 6 6

/-- No head entry: no offset and no threshold. -/
def HeadFmt.none : HeadFmt := { offset0 := 0, offset1 := 0, quality0 := 0, quality1 := 0, swap := false }

/-- The head entry of a side's head. -/
def FormatTable.head (f : FormatTable) (sd : Side) (h : Fin 12) : HeadFmt := f.heads.getD (globalHead sd h) HeadFmt.none

/-- Pairs of the sample window: 256 KiB at 12 bits a pair (spec/07 R256). -/
def windowPairs : Nat := 174762

/-- The newest pairs of runs, newest first. -/
def trimRuns : Nat → List SampleRun → List SampleRun
  | _, [] => []
  | n, r :: rest =>
    if r.pairs.length ≤ n then r :: trimRuns (n - r.pairs.length) rest
    else if n = 0 then []
    else
      let extra := r.pairs.length - n
      [{ r with first := r.first + extra, pairs := r.pairs.drop extra }]

/-- A block's pairs enter the window: of a gate that begins, or after those of the gate in progress. -/
def Eng.takePairs (gate : Option Nat) (pairs : List SamplePair) (x : Eng) : Eng :=
  let run : SampleRun := match gate, x.window.head? with
    | some g, _ => { gate := g, first := 0, pairs := pairs }
    | none, some r => { gate := r.gate, first := r.first + r.pairs.length, pairs := pairs }
    | none, none => { gate := 0, first := 0, pairs := pairs }
  { x with window := trimRuns windowPairs (run :: x.window) }

/-- The samples of the window that a gate offset names, oldest first (spec/07 R257). -/
def Eng.samplesAt (x : Eng) (o : GateOffset) : List SamplePair :=
  x.window.reverse.flatMap fun r =>
    if r.gate = o.gate then (r.pairs.drop (o.first - r.first)).take (o.first + o.pairs - max o.first r.first) else []

/-! ## The sector code (spec/07 R251, R252, R274) -/

/-- The address of a sector that its parity covers. -/
def addressWord (p : PortId) (head track sector : Nat) : W64 :=
  BitVec.ofNat 64 (p.val + head % 2 ^ 5 * 2 ^ 5 + track % 2 ^ 32 * 2 ^ 10 + sector % 2 ^ 16 * 2 ^ 42)

/-- A run of channel bits: how many, and their number with the first bit in [0]. -/
abbrev ChannelBits := Nat × Nat

def ChannelBits.cat (x y : ChannelBits) : ChannelBits := (x.1 + y.1, x.2 + y.2 * 2 ^ x.1)

/-- Bits from a place on. -/
def ChannelBits.part (x : ChannelBits) (first n : Nat) : ChannelBits := (n, x.2 / 2 ^ first % 2 ^ n)

/-- A field of the format whose bits the spec does not give: 0 preamble, 1 postamble, 2 resync. -/
def fieldBits (kind n : Nat) : ChannelBits := (n, Config.fieldPattern kind n % 2 ^ n)

/-- The 36,818 bits on media: the user bits and the parity over them and the address, which is not written. -/
def sectorBody (address : W64) (data : Blk) : ChannelBits := (36818, (Config.codeword data (Config.sectorParity address data)).toNat)

/-- A sector's bits before any split: preamble, sync pattern, codeword, postamble. -/
def sectorBits (f : FormatTable) (z : ZoneFmt) (address : W64) (data : Blk) : ChannelBits :=
  (((fieldBits 0 z.preamble).cat (z.sync, f.dataSync.toNat % 2 ^ z.sync)).cat (sectorBody address data)).cat (fieldBits 1 z.postamble)

/-- The bits of one fragment of a sector: a continuation begins with a resync field; `before` of the sector's bits lie in the
fragments before it. -/
def fragmentBits (z : ZoneFmt) (sector : ChannelBits) (frag before pairs : Nat) : ChannelBits :=
  if frag = 0 then sector.part 0 pairs else (fieldBits 2 z.resync).cat (sector.part before (pairs - z.resync))

end Sys2Proof.Machine
end

