-- ==== Sys2Proof/Machine/Ends.lean ====
section
/-! DEFINITION. How work ends: gates cancelled, operations and sessions ended, engines granted, breaks abandoned, ports
reset and taken out of service (spec/03 R139 to R141, spec/06 Table 6-10, spec/07 R263, R270, spec/08 R310). -/

namespace Sys2Proof.Machine

/-! ## Sequencers -/

/-- The sectors that have a fragment under a gate. -/
def Gate.sectors (g : Gate) : List Nat := (g.frags.map Prod.fst).eraseDups

/-- A gate is over once its closing instant is not in the future. -/
def State.gateOver (s : State) (g : Gate) : Bool := decide (g.openTime + g.length ≤ s.ticksNow)

/-- Gates of an actuator's kind that are open or pending. -/
def State.gatesLive (s : State) (a : ActId) (write : Bool) : Bool :=
  (s.seq a).gates.any fun g => g.write == write && !s.gateOver g

/-- The write bits of a side that wait for the command lane go, and the companion drops those it holds (spec/03 R110). -/
def State.dropBits (a : ActId) (s : State) : State :=
  (s.modPool a fun x => { x with held := [] }).modPort (portOf a)
    fun x => { x with writes := x.writes.filter fun w => w.side != sideOf a }

/-- GATE_CANCEL of read or write gates: the gates go, their sectors count as not captured or not written, and the bits of write
gates go with them (spec/06 R238, R239; spec/03 R110). A GATE packet that still waits for the command lane stays queued (DESIGN CHOICE,
log 149). -/
def State.cancelGates (a : ActId) (read write : Bool) (s : State) : State :=
  let hit (g : Gate) : Bool := (if g.write then write else read) && !s.gateOver g
  let s := (s.sendCancel a (2 * bit read + 4 * bit write)).modSeq a fun q =>
    let gone := q.gates.filter hit
    { q with gates := q.gates.filter fun g => !hit g, affected := q.affected || gone != []
             lost := (q.lost ++ gone.flatMap Gate.sectors).eraseDups }
  s.when write (State.dropBits a)

/-- read_allowed and write_allowed take new values; write_allowed lost over a live write gate cancels it (spec/05 R203). -/
def State.permit (a : ActId) (read write : Bool) (s : State) : State :=
  let fell := (s.act a).writeAllowed && !write && s.gatesLive a true
  let s := s.modAct a fun x => { x with readAllowed := read, writeAllowed := write }
  if fell then
    ((s.cancelGates a false true).raiseServo a 5).modAct a fun x => { x with inhibits := satAdd 65535 x.inhibits 1 }
  else s

/-- The actuator's write encoder stops and waits for the next operation. -/
def State.idleEncoder (a : ActId) (s : State) : State :=
  (s.modPool a fun x => { x with enc := 0, encReady := false, sent := 0 }).dropBits a

/-! ## Chorus pool: grants and releases -/

/-- Engines enabled by the governing power state and the thermal step (spec/01 Table 1-8, spec/15 Table 15-3). -/
def enginesOfState (ps : Fin 4) : Nat := [24, 16, 8, 0].getD ps.val 0
def enginesOfStep (step : Fin 4) : Nat := [24, 16, 8, 4].getD step.val 4

/-- Engines enabled now: the tighter of the two (spec/01 R43). -/
def State.enabledEngines (s : State) : Nat := min (enginesOfState s.power.current) (enginesOfStep s.therm.step)

/-- L, the rebuild limit (spec/01 R35). -/
def State.rebuildLimit (s : State) : Nat := max 1 (s.chorus.rebuildShare * s.enabledEngines / 24)

/-- The engine bound to an actuator. -/
def State.engineOf (s : State) (a : ActId) : Option EngId :=
  (fins 24).find? fun e => (s.eng e).act == a && ((s.eng e).st == .bound || (s.eng e).st == .reading)

/-- Engines bound to rebuild requests. -/
def State.rebuildHeld (s : State) : Nat :=
  ((fins 24).filter fun e => (s.eng e).cls == 1 && ((s.eng e).st == .bound || (s.eng e).st == .reading)).length

/-- Engines that hold a session or a binding, against the count enabled (spec/01 R39: no session beyond it). -/
def State.sessionsHeld (s : State) : Nat :=
  ((fins 24).filter fun e => (s.eng e).st == .bound || (s.eng e).st == .reading).length

/-- A waiting request: outstanding, and no engine bound. -/
def State.waitingReq (s : State) (a : ActId) : Option BindReq :=
  match (s.pool a).req with
  | some r => if (s.engineOf a).isSome then none else some r
  | none => none

/-- The class a request is served in: a promoted background request is foreground (spec/07 R261). -/
def BindReq.served (r : BindReq) : OpClass := if r.promoted then 0 else r.cls

/-- The operation of a pass of a calibration break: every sector of the zone's pass track A, B, C or D (spec/08 R287,
R302). -/
def Break.pass? (b : Break) (f : FormatTable) (pass : Nat) : Descriptor :=
  let z := f.zones.getD b.zone.val { firstTrack := 0, trackCount := 0, sectors := 0, rate := 0, preamble := 0, sync := 0,
                                     body := 0, postamble := 0, resync := 0, skew := 0, guard := 0 }
  { write := pass % 2 == 1, head := b.head, track := z.firstTrack + (pass - 1) / 2, zone := b.zone, first := 0
    count := z.sectors, cls := 0, ctx := none, data := [] }

/-- The read operation that an actuator's request is for: the read pass of a break in progress, else the first read
queued. -/
def State.readQueued (s : State) (a : ActId) : Option Descriptor :=
  match (s.acal a).brk, (s.pcal (portOf a)).format with
  | some b, some f => some (b.pass? f (b.pass + b.pass % 2))
  | _, _ => (s.seq a).queue.find? fun d => !d.write

/-- A read, or a write on a head that is under no write hold: under one reads continue and writes wait (spec/08 R299; spec/15 R551). -/
def State.opGoesOn (s : State) (a : ActId) (d : Descriptor) : Bool := !d.write || !(s.acal a).heads[d.head].hold

/-- The operation that a sequencer may take next: during a break only the pass that is due (spec/08 R301); while the request of a
read waits, the first write on a track that holds none of the read's sectors, else that read (spec/07 R267); a write under a hold lets those behind it pass. -/
def State.nextOp (s : State) (a : ActId) : Option Descriptor :=
  match (s.acal a).brk, (s.pcal (portOf a)).format with
  | some b, some f => if b.begun then none else some (b.pass? f b.pass)
  | some _, none => none
  | none, _ => match s.readQueued a, s.waitingReq a with
    | some r, some _ =>
      ((s.seq a).queue.find? fun d => d.write && !(d.head == r.head && d.track == r.track) && s.opGoesOn a d).or (some r)
    | _, _ => ((s.seq a).queue.find? (s.opGoesOn a)).or (s.seq a).queue.head?

/-- The target position of a track. -/
def trackPos (track : Nat) : Int := 4096 * (track : Int)

/-- The target of a read operation: its track, or for a re-read of recovery +256 or −256 position units from it (spec/07
R271). -/
def opTarget (d : Descriptor) : Int :=
  trackPos d.track + (if d.write || d.reread == 0 then 0 else if d.reread % 2 = 1 then 256 else -256)

/-- The target position that a head and a track stand for: that of the queued operation there (spec/07 R271), else the track. -/
def State.targetOf (s : State) (a : ActId) (head : Fin 12) (track : Nat) : Int :=
  match ([s.readQueued a, s.nextOp a].filterMap id).find? fun d => d.head == head && d.track == track with
  | some d => opTarget d
  | none => trackPos track

/-- The head and position of the read that an actuator's request is made for. -/
def State.readWant (s : State) (a : ActId) : Option (Fin 12 × Int) := (s.readQueued a).map fun d => (d.head, opTarget d)

/-- A request is ready: its actuator follows the track of its read on its head and runs no write (spec/07 R262). -/
def State.isReady (s : State) (a : ActId) : Bool :=
  let x := s.act a
  (match (s.pool a).req.bind BindReq.want with
    | some w => x.region == .follow && x.head == w.1 && x.target == w.2
    | none => false) &&
  (match (s.seq a).op with
    | some d => !d.write
    | none => true)

/-- The readiness of an actuator's request is taken anew: it counts from when it became ready. -/
def State.noteRequest (a : ActId) (s : State) : State :=
  let s := s.modPool a fun x => { x with req := x.req.map fun q => { q with want := q.want.or (s.readWant a) } }
  let r := s.isReady a
  s.modPool a fun x => { x with req := x.req.map fun q =>
    { q with readyAt := if r then (if q.readyAt.isSome then q.readyAt else some s.now) else none } }

/-- The sequencer is forced to its idle point with an empty stack, and its parameters come into force (spec/06 Table 6-8); `requeue`:
its operation is taken again later (spec/06 Table 6-10, spec/03 R140), but not a pass of a calibration break. -/
def State.seqToIdle (a : ActId) (requeue : Bool) (s : State) : State :=
  let requeue := requeue && (s.acal a).brk.isNone
  ((s.modSeq a fun q => { q with
    addr := 0, nano := bits (Config.romMicro 0) 31 21, stack := [], gateAhead := s.nor.config.gateAhead[a]
    retryMax := s.nor.config.writeRetryMax[a], acted := false, wedgeSeen := false, gates := [], lost := [], done := [],
    rewrite := [], op := none, affected := false, sectorsLeft := 0, nextSector := 0, timer := 0
    st := if q.st = .running then .idle else q.st
    queue := match q.op with
      | some d => if requeue then d :: q.queue else q.queue
      | none => q.queue }).idleEncoder a).noteRequest a

/-- Whether one request is older than another; equal times go by actuator number (spec/07 R261). -/
def olderReq (x y : ActId × BindReq) : Bool := decide (x.2.at_ < y.2.at_ ∨ (x.2.at_ = y.2.at_ ∧ x.1.val ≤ y.1.val))

/-- The oldest of several requests. -/
def oldest : List (ActId × BindReq) → Option (ActId × BindReq)
  | [] => none
  | x :: r => match oldest r with
    | some y => some (if olderReq x y then x else y)
    | none => some x

/-- The waiting requests of a class as served. -/
def State.waitingOf (s : State) (c : OpClass) (ready : Bool) : List (ActId × BindReq) :=
  (fins 64).filterMap fun a => match s.waitingReq a with
    | some r => if r.served = c ∧ (ready = false ∨ s.isReady a = true) then some (a, r) else none
    | none => none

/-- The request that R263 grants, among all waiting requests or the ready ones only; `anyF`: a foreground request
waits, ready or not. -/
def State.chooseReq (s : State) (ready : Bool) : Option (ActId × BindReq) :=
  let f := oldest (s.waitingOf 0 ready)
  let b := oldest (s.waitingOf 1 ready)
  let g := oldest (s.waitingOf 2 ready)
  let anyF := s.waitingOf 0 false != []
  match f, b with
  | some x, some y =>
    if s.rebuildHeld < s.rebuildLimit ∧ (y.2.at_ ≤ x.2.at_ ∨ s.rebuildHeld = 0) then some y else some x
  | some x, none => some x
  | none, some y => if s.rebuildHeld < s.rebuildLimit ∨ anyF = false then some y else g
  | none, none => g

/-- Microseconds a request has waited since it became ready, up to its grant. -/
def State.waitUs (s : State) (r : BindReq) : Nat := match r.readyAt with
  | some t => (r.grantedAt.getD s.now - t) / 1000
  | none => 0

/-- A request is given an engine (spec/07 R265). -/
def State.bind (e : EngId) (a : ActId) (r : BindReq) (s : State) : State :=
  ((s.modEng e fun x => { x with st := .bound, act := a, cls := r.served, boundAt := s.now, window := [], offsets := []
                                 sessions := satAdd 65535 x.sessions 1 }).modPool a fun x => { x with
    req := some { r with grantedAt := some s.now } }).modChorus
    fun c => { c with
      waitMax := BitVec.ofNat 32 (max c.waitMax.toNat (s.waitUs r)), waitEver := BitVec.ofNat 32 (max c.waitEver.toNat (s.waitUs r)) }

/-- The request of an actuator whose engine is taken away waits again, with its request time (spec/07 R264, R279). -/
def State.waitAgain (a : ActId) (s : State) : State :=
  s.modPool a fun x => { x with req := x.req.map fun r => { r with grantedAt := none } }

/-- Grants while an engine is free and a request can take it; the lowest-numbered free engine is given (DESIGN
CHOICE, log 16). -/
def State.grantLoop : Nat → State → State
  | 0, s => s
  | n + 1, s =>
    if s.sessionsHeld < s.enabledEngines then
      match (fins 24).find? (fun e => (s.eng e).st == .free && !(s.eng e).gateDue), s.chooseReq false with
      | some e, some (a, r) => State.grantLoop n (s.bind e a r)
      | _, _ => s
    else s


/-- The captures that no engine works on: engine, index and capture. -/
def State.idleCaptures (s : State) : List (EngId × Nat × Capture) :=
  (fins 24).flatMap fun e => (s.eng e).slots.zipIdx.filterMap fun q =>
    if (fins 24).any fun f => (s.eng f).work == some (e, q.2) then none else some (e, q.2, q.1)

/-- The oldest capture of a list. -/
def oldestOf (l : List (EngId × Nat × Capture)) : Option (EngId × Nat) :=
  (l.foldl (fun (b : Option (EngId × Nat × Capture)) x => match b with
    | some y => if x.2.2.at_ < y.2.2.at_ then some x else some y
    | none => some x) none).map fun x => (x.1, x.2.1)

/-- The oldest capture that no engine works on; the oldest of those in an engine's own slots. -/
def State.oldestIdle (s : State) : Option (EngId × Nat) := oldestOf s.idleCaptures
def State.oldestOwn (s : State) (e : EngId) : Option (EngId × Nat) := oldestOf (s.idleCaptures.filter fun x => x.1 == e)

/-- Free engines for which no request is found take recovery work, oldest capture first (spec/07 R270). -/
def State.takeRecovery (s : State) : State :=
  s.each (fins 24) fun e s =>
    if (s.eng e).st = .free ∧ (s.eng e).gateDue = false then
      match s.oldestIdle with
      | some w => s.modEng e fun x => { x with st := .recovery, recAt := none, work := some w }
      | none => s
    else s

def State.grant (s : State) : State := (s.grantLoop 24).takeRecovery

/-- An actuator's binding request, at most one, with its request time (spec/07 R259, R261); the requests are granted
while engines are free. -/
def State.requestEngine (a : ActId) (cls : OpClass) (t : Nat) (s : State) : State :=
  match (s.pool a).req with
  | some _ => s
  | none =>
    let r : BindReq := { cls := cls, want := s.readWant a, at_ := t, promoted := false, readyAt := none, alarmed := false, grantedAt := none }
    ((s.modPool a fun x => { x with req := some r }).noteRequest a).grant

/-- An engine's session ends: it recovers its own captures first, else it is free and granted on (spec/07 R270). -/
def State.releaseEngine (e : EngId) (s : State) : State :=
  let x := s.eng e
  if x.st = .bound ∨ x.st = .reading then
    match s.oldestOwn e, x.gateDue with
    | some w, false => s.modEng e fun y => { y with st := .recovery, recAt := some s.now, work := some w }
    | _, _ => (s.modEng e fun y => { y with st := .free, recAt := none, work := none }).grant
  else s

/-- The session or binding of an actuator ends, and its request with it. -/
def State.endSession (a : ActId) (s : State) : State :=
  let t := s.modPool a fun x => { x with req := none }
  match s.engineOf a with
  | some e => t.releaseEngine e
  | none => t

/-! ## Calibration breaks -/

/-- A break ends without a commit: the head keeps its table and stays due, and the next break of the head keeps the
request time; a suspend or cancel asked of its full calibration takes effect (spec/08 R305, R306, R310, R314). -/
def State.abandonBreak (a : ActId) (s : State) : State :=
  match (s.acal a).brk with
  | none => s
  | some b =>
    let ms := (s.now - b.at_) / Config.ms
    let s := s.modAcal a fun x => { x with
      brk := none, lastEnd := some s.now, abandoned := satAdd 255 x.abandoned 1, lastMs := ms
      heads := upd x.heads b.head fun h => { h with
        abandoned := satAdd 65535 h.abandoned 1, keptReq := put b.zone.val b.reqAt h.keptReq, lastMs := ms } }
    let s := s.raiseCal a 1 []
    match b.kind with
    | .host c => s.complete c (Cpl.val 2)
    | .full => s.fullPoint a
    | .triggered => s

/-! ## Service of actuators and ports -/

/-- An actuator serves: its port is in service and neither it nor its sequencer is out of service. -/
def State.actInService (s : State) (a : ActId) : Bool :=
  (s.port (portOf a)).inService && !(s.act a).outOfService && !(s.seq a).outOfService

/-- Time during which R329 does not count for a port. -/
def State.outTimeStopped (s : State) (p : PortId) : Bool :=
  let x := s.port p
  let v := s.spin p
  s.power.inPs3 || s.power.leaving || v.wantSlot || v.slotAt.isSome || inRange 1 8 x.train.val || x.train == 0xB ||
    (x.train == 9 && x.fail == 8) || (s.pair.mode == false && x.train == 9 && x.obeyed == false)

/-- The out-of-service clock of one actuator of a member (spec/09 R329): virtual start and ns counted before it. -/
def outClock (now : Nat) (serving stopped : Bool) (at_ : Option Nat) (ns : Nat) : Option Nat × Nat :=
  if serving then (none, 0)
  else match at_, stopped with
    | some t, true => (none, ns + (now - t))
    | some t, false => (some t, ns)
    | none, true => (none, ns)
    | none, false => (some now, ns)

/-- The out-of-service clocks of a port's two actuators brought up to date. -/
def State.noteService (p : PortId) (s : State) : State :=
  let st := s.outTimeStopped p
  s.modMember p fun m =>
    let c0 := outClock s.now (s.actInService (actOf p 0)) st m.outAt0 m.outNs0
    let c1 := outClock s.now (s.actInService (actOf p 1)) st m.outAt1 m.outNs1
    { m with outAt0 := c0.1, outNs0 := c0.2, outAt1 := c1.1, outNs1 := c1.2 }

/-- An unload is commanded: the loop stops at once, the side counts as loaded until the answer (spec/05 R193). -/
def State.unload (a : ActId) (s : State) : State :=
  ((s.sendPark (portOf a) (sideOf a) 0).modAct a fun x => { x with
    region := .parked, writeAllowed := false, readAllowed := false, loaded := x.loaded || x.loading, loading := false
    newTarget := none, fresh := false, sample := none, reloadLost := false, reloadSeek := false }).noteRequest a

/-- Both sides of a port are unloaded: those loaded, and those with a load under way. -/
def State.unloadSides (p : PortId) (s : State) : State :=
  s.each (fins 2) fun sd s => s.when ((s.act (actOf p sd)).loaded || (s.act (actOf p sd)).loading) (State.unload (actOf p sd))

/-- A load of a side is commanded, unless it is out of service (spec/05 R207, R730). -/
def State.load (a : ActId) (s : State) : State :=
  let x := s.act a
  if x.outOfService || x.loaded || x.loading then s
  else (s.sendPark (portOf a) (sideOf a) 1).modAct a fun y => { y with loading := true }

/-- The servo state that a port reset leaves: parked, status and PES 0, events and counts kept (spec/05 R210,
R214). -/
def Act.afterReset (x : Act) : Act :=
  { Act.reset with events := x.events, inhibits := x.inhibits, shocks := x.shocks, lost := x.lost, shockAt := x.shockAt }

/-- Operations of an actuator end: gates are cancelled, the operation and its session end, a break is abandoned. -/
def State.quiesce (requeue : Bool) (a : ActId) (s : State) : State :=
  (((s.cancelGates a true true).seqToIdle a requeue).endSession a).abandonBreak a

/-- A port leaves service with its operations ended. -/
def State.leaveService (p : PortId) (requeue : Bool) (s : State) : State :=
  let s := s.each (fins 2) fun sd s => s.quiesce requeue (actOf p sd)
  (s.modPort p fun x => { x with inService := false }).noteService p

/-- A start slot, if held, is freed; the out-of-service clocks go on from here (spec/02 R82; spec/09 R329). -/
def State.freeSlot (p : PortId) (s : State) : State :=
  (s.modSpin p fun v => { v with slotAt := none, wantSlot := false }).noteService p

/-- The out-of-service clocks of every port: the power state has changed (spec/09 R329). -/
def State.noteServices (s : State) : State := s.each (fins 32) State.noteService

/-- Training of a port starts: presence is asserted and REFCLK_LINK is there (spec/02 R52, R78). -/
def State.startTraining (p : PortId) (s : State) : State :=
  if s.pins.prsnt.getLsbD p.val ∧ s.pins.linkPll then
    (s.modPort p fun x => { x with train := 1, fail := 0, attempt := 1, stateAt := s.now, inService := false }).noteService p
  else s

/-- Training of a port ends with a fail_reason: the port is failed, and its command lane stops (spec/03 R138, R141; the lane, DESIGN
CHOICE, log 105). -/
def State.portFail (p : PortId) (reason : Fin 16) (s : State) : State :=
  (((s.modPort p fun x => { x with train := 0xA, fail := reason, inService := false, cmdUp := false, ended := true
                                   entered := true, requests := [], urgent := [], normal := [], writes := [] }).raisePort p 4).noteService
    p).noteEnded

/-- What a port reset leaves of the link side: lanes stopped, counters 0, streams and requests gone (spec/03 R140,
R145); fail_reason reads 0 after it (DESIGN CHOICE, log 106). -/
def Port.afterReset (x : Port) : Port :=
  { x with
    cmdUp := false, joint := true, train := 0xB, inService := false, obeyed := false, own := 0, blockLock := false,
    persVerified := false, pers := [], smpCorr := 0, smpUncorr := 0, seqErr := 0, gateErr := 0, pktTimeout := 0,
    cmdUncorr := 0, cmdBase := none, smpBadAt := [], cmdBadAt := [], rx := [], urgent := [], normal := [], writes := [],
    requests := [], tempAt := none, rxPos := none, compLock := false, aligned := 0, data0 := Stream.reset
    data1 := Stream.reset, servo0 := Stream.reset,
    servo1 := Stream.reset, packets := Stream.reset, scram := 0x7FFFFFFF, txScram := 0x7FFFFFFF, txPos := 0, txSeq := 0,
    txSeq0 := 0, txSeq1 := 0, fail := 0 }

/-- The spindle side of a port reset: the companion coasts; the engine stands stopped, or in overvoltage short brake
when latched, or marked by a failed start; a start slot is freed (spec/04 Table 4-4, R168, R172). -/
def Spin.afterReset (mark : Bool) (v : Spin) : Spin :=
  { v with
    st := if v.ovLatched then .ovBrake else if mark then .startFailed else .stopped, step := none, inLock := false, inReg := false, turning := false,
    zcs := [], slotAt := none, wantSlot := false, unloading := false, thenStart := false, retarget := false, reached := false, missed := 0,
    restart := v.turning || v.restart,
    drive := { mode := 0, u := 0, v := 0, w := 0, applyAt := 0, sentAt := 0 } }

/-- What is known of the values the companion holds is lost (spec/08 R295). -/
def State.forgetHeads (a : ActId) (s : State) : State :=
  s.modAcal a fun x => { x with heads := x.heads.map fun h => { h with holds := none } }

/-- A spindle that stands: stopped, left by a failed start, or held by the overvoltage latch. -/
def Spin.stands (v : Spin) : Bool := v.st == .stopped || v.st == .startFailed || v.st == .ovBrake

/-- Removals that wait for a port to be unloaded, or for its spindle to have stopped, complete when it is (spec/12 R483). -/
def State.settleUnloads (p : PortId) (s : State) : State :=
  if (fins 2).any fun sd => (s.act (actOf p sd)).loaded then s
  else
    let s := s.completeWait (.unload p false)
    s.when ((s.spin p).stands && !(s.spin p).turning) (State.completeWait (.unload p true))

/-- The units of a port after its lanes have stopped. -/
def State.resetUnits (p : PortId) (s : State) : State :=
  let up := (fins 2).filter fun sd => (s.act (actOf p sd)).loaded
  let s := s.each (fins 2) fun sd s =>
    let a := actOf p sd
    (((((s.seqToIdle a true).endSession a).abandonBreak a).modAct a Act.afterReset).forgetHeads a)
  (s.modSpin p fun v => { v.afterReset (s.port p).startMark with parkDue := if v.ovLatched then up else [] }).settleUnloads p

/-- The marks that only a return or a port reset clears: an actuator out of service, and the saturation of its compensators (spec/05
R190, R207, R730). -/
def Act.keepMarks (was x : Act) : Act :=
  { x with
    outOfService := was.outOfService, lostAt := was.lostAt, wedge := was.wedge, pes := was.pes, vel := was.vel
    vcm := { x.vcm with sat := was.vcm.sat, inLimits := was.vcm.inLimits }
    ma := { x.ma with sat := was.ma.sat, inLimits := was.ma.inLimits } }

/-- The units of a port after its lanes have stopped without a port reset. -/
def State.stopUnits (p : PortId) (s : State) : State :=
  (s.resetUnits p).each (fins 2) fun sd t => t.modAct (actOf p sd) (Act.keepMarks (s.act (actOf p sd)))

/-- A port marked failed by R141 is not trained until its mark is cleared; one marked by a start failure trains again, and is not
started (spec/03 R140, R141, spec/04 R168). -/
def Port.marked (x : Port) : Bool := x.train == 0xA && x.fail == 9

/-- A trained port: one in train_state 0x9, or marked by a start failure, whose link runs on (spec/03 R139, R141; spec/04 R168). -/
def Port.linked (x : Port) : Bool := x.train == 9 || x.train == 0xA && x.fail == 0xA

/-- A correction of the SerDes PLLs that waited for a port reset is applied (spec/15 R553). -/
def State.bandSwitch (s : State) : State :=
  s.when (s.xing.bandDue.contains .serdesPlls) fun s =>
    (s.modXing fun x => { x with bandDue := x.bandDue.filter (· != .serdesPlls) }).modTherm fun t => { t with
      trims := put .serdesPlls s.now t.trims }

/-- Port reset (spec/03 R139 to R141): counted; the third within 60 s marks the port failed with fail_reason 9;
otherwise training starts again from state 2 when presence is asserted, unless the port is marked failed. -/
def State.portReset (p : PortId) (s : State) : State :=
  let was := s.port p
  let resets := s.now :: recent s.now (60 * Config.sec) (s.port p).resets
  let s := (s.modPort p fun x => { x.afterReset with resets := resets, stateAt := s.now }).resetUnits p
  let s := s.each (fins 2) fun sd s => s.modAcal (actOf p sd) fun x => { x with told := false }
  let s := s.bandSwitch.raisePort p 5
  if 3 ≤ resets.length then s.portFail p 9
  else (s.when was.marked (State.modPort p fun x => { x with train := was.train, fail := was.fail, inService := false })).noteService p

/-- Where the work on a capture stands once captures have left the slots: none when its own has gone. -/
def keptWork (engs : Vector Eng 24) (keep : Capture → Bool) (w : EngId × Nat) : Option (EngId × Nat) :=
  let l := engs[w.1].slots
  match l[w.2]? with
  | some k => if keep k then some (w.1, ((l.take w.2).filter keep).length) else none
  | none => none

/-- Captures leave the slots; an engine whose work goes with them is free and granted on (spec/07 R273). -/
def State.keepCaptures (keep : Capture → Bool) (s : State) : State :=
  let engs := s.chorus.engs
  (s.modChorus fun c => { c with engs := c.engs.map fun x =>
    let x := { x with slots := x.slots.filter keep }
    match x.work with
    | some w => match keptWork engs keep w with
      | some v => { x with work := some v }
      | none => { x with st := if x.st = .recovery then .free else x.st, recAt := none, work := none }
    | none => x }).grant

/-- A companion no longer obeys this controller: the port leaves service and its operations end (spec/03 R729; in a pair captures of
the port's actuators are discarded, spec/07 R273). -/
def State.dropPort (p : PortId) (s : State) : State :=
  let s := s.leaveService p false
  let s := s.modPort p fun x => { x with obeyed := false }
  let s := s.each (fins 2) fun sd s => s.modAct (actOf p sd) fun x => { x with
    region := .parked, loaded := false, loading := false, writeAllowed := false, readAllowed := false, fresh := false, sample := none }
  let s := s.each (fins 2) fun sd s => s.modAcal (actOf p sd) fun x => { x with dirtyAt := none }
  let s := s.when s.pair.mode (State.keepCaptures fun k => portOf k.act != p)
  ((s.modSpin p fun v => { v with
      step := none, st := if (s.port p).startMark then .startFailed else .stopped, inLock := false, inReg := false
      restart := v.turning || v.restart, turning := false, rpm := 0, periodNs := 0xFFFFFFFF, zcs := []
      drive := { mode := 0, u := 0, v := 0, w := 0, applyAt := 0, sentAt := 0 } }).freeSlot p).settleUnloads p

/-- Obedience lost: the same with the port's events marking it; no new token is presented (spec/03 R729; in a pair the same as
loss of ownership). -/
def State.obedienceLost (p : PortId) (s : State) : State := (s.dropPort p).raisePort p 2

end Sys2Proof.Machine
end

