-- ==== Sys2Proof/Machine/Boot.lean ====
section
/-! DEFINITION. Family Boot: power, clocks, device resets and bring-up (spec/02; test inputs, spec/20 R701, R702). -/

namespace Sys2Proof.Machine

/-! ## Supplies and clocks -/

/-- An instruction of the JTAG port that is an EXTEST instruction (spec/20 R702). -/
def isExtest : JtagInstr → Bool
  | .extest | .extestPulse | .extestTrain => true
  | .bypass | .idcode | .samplePreload => false

/-- The test inputs let the device leave main cold reset (spec/20 R701, R702). -/
def Pins.testIdle (p : Pins) : Bool := !p.testEn && !isExtest p.jtag

/-- The device leaves reset for a test input that holds it in main cold reset. -/
def State.testHold (s : State) : State :=
  if s.pins.testIdle = false ∧ (s.aon.hold = .running ∨ s.aon.hold = .warm) then s.enterCold else s

/-- AON_PWROK_RISE: a power-on reset (spec/02 R49, R54). -/
def execAonPwrokRise (s : State) : Host.Outcome State Fault Refusal :=
  .next <| State.powerOn { s with pins := { s.pins with aonPwrok := true } }

/-- AON_PWROK_DEASSERT: the always-on domain is held in power-on reset and loses its state (spec/21 R712). -/
def execAonPwrokDeassert (s : State) : Host.Outcome State Fault Refusal :=
  .next <| (State.powerOn { s with pins := { s.pins with aonPwrok := false } }).modAon fun a => { a with hold := .powerOn }

/-- SYS_PWROK_ASSERT: with every rail up in order, the 1 ms of R47 starts and step 1 is over; the cause is SYS_PWROK (spec/02 R47,
R54, Tables 2-6, 2-9). -/
def execSysPwrokAssert (s : State) : Host.Outcome State Fault Refusal :=
  .next <|
    if s.pins.sysPwrok then s
    else
      let s := s.modPins fun p => { p with sysPwrok := true, railsOk := true }
      if s.aon.hold = .powerOn then s
      else
        let s := (s.setCause causeSysPwrok).modAon fun a => { a with goodSince := some s.now }
        if s.aon.hold = .mainCold then s.setStep 1 else s

/-- MAIN_COLD_RESET_RELEASE: the rails have been good for 1 ms with SYS_PWROK asserted, on the crystal, and no test
input holds the device (spec/02 R47, R50; spec/20 R697, R701). -/
def execMainColdResetRelease (s : State) : Host.Outcome State Fault Refusal :=
  .next <|
    match s.aon.goodSince with
    | none => s
    | some t =>
      if s.aon.hold = .mainCold ∧ s.pins.sysPwrok ∧ s.pins.railsOk ∧ s.aon.xtal ∧ s.aon.error = 0 ∧ s.pins.testIdle = true then
        let s := ((s.at_ (t + Config.ms)).releaseReset).modAon fun a => { a with dramState := 3 }
        (s.setStep 2).modBoot fun b => { b with cold := true, coldAt := s.now }
      else s

/-- SYS_PWROK_DEASSERT: main cold reset (spec/02 R46, R54). -/
def execSysPwrokDeassert (s : State) : Host.Outcome State Fault Refusal :=
  .next <|
    let s := s.modPins fun p => { p with sysPwrok := false, railsOk := false }
    let s := s.modAon fun a => { a with goodSince := none }
    if s.aon.hold = .powerOn ∨ s.aon.hold = .shutdown then s else s.enterCold

/-- BROWNOUT: a monitored rail leaves its range with SYS_PWROK asserted, or rises out of the order of Table 2-1: main cold reset with
BOOT_RESET_CAUSE.brownout, and with SYS_PWROK asserted the 1 ms starts again once the rail is back (spec/02 R47, R48; the excursion
ends at once, log 2). In thermal hardware shutdown the device stays there (spec/15 R555). -/
def execBrownout (s : State) : Host.Outcome State Fault Refusal :=
  .next <|
    if s.aon.hold = .powerOn then s
    else
      let s := (s.setCause causeBrownout).modAon fun a => { a with goodSince := if s.pins.sysPwrok then some s.now else none }
      if s.aon.hold = .shutdown then s else s.enterCold

/-- CRYSTAL_QUALIFIED: the domain switches to the crystal (spec/02 R49). -/
def execCrystalQualified (s : State) : Host.Outcome State Fault Refusal :=
  .next <| if s.aon.hold = .powerOn then s else s.modAon fun a => { a with xtal := true }

/-- CRYSTAL_QUALIFY_TIMEOUT: 50 ms after AON_PWROK, error 0x01 and xtal_fault (spec/02 R50). -/
def execCrystalQualifyTimeout (s : State) : Host.Outcome State Fault Refusal :=
  .next <|
    if s.aon.hold = .powerOn ∨ s.aon.xtal then s
    else ((s.at_ (s.aon.riseAt + 50 * Config.ms)).setCause causeXtal).bootError 1

/-- PLL_LOCK_TIMEOUT: 1 ms after main cold reset was released a PLL is not locked: error 0x02 (spec/02 R51). -/
def execPllLockTimeout (s : State) : Host.Outcome State Fault Refusal :=
  .next <|
    if s.booting ∧ s.boot.cold ∧ s.aon.step.toNat < 3 then (s.at_ (s.boot.coldAt + Config.ms)).bootError 2 else s

/-- TEST_EN_CHANGE: while TEST_EN reads 1 the device stays in main cold reset (spec/20 R701). -/
def execTestEnChange (level : Bool) (s : State) : Host.Outcome State Fault Refusal :=
  .next <| (s.modPins fun p => { p with testEn := level }).testHold

/-- JTAG_INSTRUCTION_LOAD: while an EXTEST instruction is loaded the controller is held in main cold reset; the
others change nothing in it, and IDCODE gives the identification register to be shifted out (spec/20 R702). -/
def execJtagInstructionLoad (i : JtagInstr) (s : State) : Host.Outcome State Fault Refusal :=
  .next <| ((s.modPins fun p => { p with jtag := i }).testHold).when (i == .idcode) (State.emitOut (.jtagId Config.jtagIdcode))

/-! ## Boot ROM -/

/-- A DRAM fill is due: DRAM is not preserved (spec/02 R61, R62). -/
def State.fillDue (s : State) : Bool := s.aon.dramState == 3

/-- Step 8 begins once both step 6 and step 7 have ended (spec/02 Table 2-9). -/
def State.tryDramFill (s : State) : State :=
  if s.boot.released = false ∧ s.boot.trained ∧ s.boot.imageOk ∧ s.fillDue ∧ s.aon.fill = .idle then
    s.modAon fun a => { a with fill := .dram, fillComplete := false }
  else s

/-- BOOT_ROM_SELF_TEST: it runs once the PLLs have locked (step 3), and starts the SPI NOR (R71). On a pass step 4 is over, stages 1
and 2 are measured and the SRAM fill runs; else error 0x03 (spec/02 R77, Table 2-9; spec/16 R573). -/
def execBootRomSelfTest (pass : Bool) (s : State) : Host.Outcome State Fault Refusal :=
  .next <|
    if s.booting ∧ s.aon.step.toNat < 4 then
      let s := (s.setStep 3).norStart
      if pass then
        (((s.setStep 4).measure 0 Config.bootRom).measure 1 Config.fuseBlock).modAon fun a =>
          { a with fill := .sram, fillComplete := false }
      else s.bootError 3
    else s

/-- MEMORY_FILL_DONE: the fill that runs has ended: the fill-complete flag is set and the step raised, or bring-up
stops on a mismatch (spec/02 R62, R63, R66). -/
def execMemoryFillDone (mismatch : Bool) (s : State) : Host.Outcome State Fault Refusal :=
  .next <|
    if s.booting = false then s
    else match s.aon.fill with
      | .idle => s
      | .sram =>
        if mismatch then s.bootError 5
        else (s.setStep 5).modAon fun a => { a with fill := .idle, fillComplete := true }
      | .dram =>
        if mismatch then s.bootError 7
        else (s.setStep 8).modAon fun a =>
          { a with fill := .idle, fillComplete := true, dramState := if s.boot.cold then 0 else 2 }

/-- Capacity in GiB of a supported configuration: die density in Gb and ranks (spec/13 Table 13-1). -/
def dramCapacity (density ranks : Nat) : Option Nat :=
  match density, ranks with
  | 8, 2 => some 16
  | 16, 1 => some 16
  | 12, 2 => some 24
  | 16, 2 => some 32
  | 32, 1 => some 32
  | 24, 2 => some 48
  | 32, 2 => some 64
  | _, _ => none

/-- After a warm device reset, what DRAM kept (spec/02 R61): with self-refresh entered, everything; else it is filled
and what it held is gone. -/
def State.preserveCheck (s : State) : State :=
  if s.boot.cold then s
  else if s.aon.selfRefresh then
    ((s.modAon fun a => { a with dramState := 1, selfRefresh := false }).modNames fun n => { n with firstDue := n.dirtyKeys }).modBoot
      fun b => { b with preserved := true }
  else
    let s := s.setCause causePreserve
    { s with names := s.names.durable
             ident := { s.ident with pendingNor := [] }
             pair := { s.pair with mirrors := [], journal := [] } }

/-- A channel fails training: it is trained again, up to three times; then bring-up stops (spec/02 R69). -/
def State.channelFails (ch : Fin 8) (s : State) : State :=
  if s.booting = false then s
  else if s.boot.retries[ch] < 3 then s.modBoot fun b => { b with retries := upd b.retries ch (· + 1) }
  else (s.modAon fun a => { a with selfRefresh := false }).bootError 6

/-- MR8 of the ranks of each channel: of its first, and of its second where it has one (spec/13 R491). -/
def rankDensities (first : List Nat) (second : List (Option Nat)) : List (List Nat) :=
  first.zipIdx.map fun q => q.1 :: (second.getD q.2 none).toList

/-- The ranks' densities that most channels report; of those reported equally often the first (spec/13 R492: from which a channel differs
is not said; DEDUCED, log 146). -/
def usualRanks (l : List (List Nat)) : List Nat :=
  l.foldl (fun b x => if (l.filter (· == b)).length < (l.filter (· == x)).length then x else b) (l.headD [])

/-- The channels that fail by MR8 of their ranks: they differ from the others, or the densities are of no supported configuration
(spec/13 R491, R492). -/
def failedChannels (l : List (List Nat)) : List (Fin 8) :=
  let usual := usualRanks l
  let d := usual.headD 0
  (fins 8).filter fun ch => l.getD ch.val [] != usual || !usual.all (· == d) || (dramCapacity d usual.length).isNone

/-- DRAM_TRAINING_DONE: all eight channels have trained, with MR8 of the ranks of each. They give one supported density, or
those at fault fail and are trained again (spec/02 R61, R67 to R69; spec/13 R491, R492). Once bring-up waits for a recovery image (error 0x08) it proceeds no
further, so a report that comes then is ignored and has to come again after RECOVERY_RUN (DESIGN CHOICE, log 94: R75 does not say
whether training goes on). -/
def execDramTrainingDone (densities : List Nat) (ranks : List (Option Nat)) (s : State) : Host.Outcome State Fault Refusal :=
  .next <|
    let densities := rankDensities densities ranks
    if s.booting ∧ 5 ≤ s.aon.step.toNat ∧ ¬ s.boot.trained then
      let usual := usualRanks densities
      let d := usual.headD 0
      match failedChannels densities, dramCapacity d usual.length with
      | [], some cap =>
        let s := (s.modMem fun m => { m with capacityGib := cap, densityGb := d, ranks := usual.length, trained := 0xFF }).setStep 6
        ((s.modBoot fun b => { b with trained := true }).preserveCheck).tryDramFill
      | bad, _ => s.each bad State.channelFails
    else s

/-- DRAM_CHANNEL_TRAINING_FAIL: retried up to three times; the fourth failure stops bring-up (spec/02 R69). -/
def execDramChannelTrainingFail (ch : Fin 8) (s : State) : Host.Outcome State Fault Refusal :=
  .next <| if s.booting ∧ 5 ≤ s.aon.step.toNat ∧ ¬ s.boot.trained then s.channelFails ch else s

/-- No bootable slot: error 0x08, and the boot ROM waits for a recovery image (spec/02 R73, R75). -/
def State.noImage (s : State) : State := (s.bootError 8).modBoot fun b => { b with recoveryWait := true }

/-- Stage 3: the image selection, 16 bytes (spec/16 Table 16-6; the bytes after the five fields are 0, DEDUCED, log 17). -/
def State.measureSelection (slot recovery : Bool) (s : State) : State :=
  let d := s.nor.dir
  s.measure 2 (packBytes [(1, bit slot), (1, bit d.preferred), (1, d.stateA.val), (1, d.stateB.val), (1, bit recovery), (11, 0)])

/-- The boot ROM reads the two copies of the key manifest (spec/16 R567). -/
def State.readKeys (s : State) : State :=
  let s := (s.norRead .config (manifestOffset false) manifestSize).norRead .config (manifestOffset true) manifestSize
  match s.nor.manifest with
  | some (m, copy, _) => s.modIdent fun i => { i with manifest := some m, copy := copy }
  | none => s.modIdent fun i => { i with manifest := none }

/-- IMAGE_LOADED: one slot of R73 has been loaded and checked: its attempts are raised and written and it will run,
or it is marked bad (spec/02 R73 to R75; spec/16 R571 to R573). -/
def execImageLoaded (s : State) : Host.Outcome State Fault Refusal :=
  .next <|
    if s.booting ∧ 5 ≤ s.aon.step.toNat ∧ ¬ s.boot.imageOk ∧ ¬ s.boot.recoveryWait then
      if s.aon.bootSrc then s.modBoot fun b => { b with recoveryWait := true }
      else
        let s := ((s.norRead .dir0 0 80).norRead .dir1 0 80).readKeys
        match s.nor.dir.candidate with
        | none => s.noImage
        | some k =>
          let s := s.norRead (slotRegion k) 0 (s.nor.slotOf k).length
          if imageCheck s.ident.manifest (s.nor.slotOf k) = 0 then
            let n := s.nor.dir.attemptsOf k + 1
            let s := s.writeDir (BootDir.setAttempts k n)
            let s := s.when (k != s.nor.dir.preferred) (State.setCause causeFallback)
            let s := s.modAon fun a => { a with attempts := BitVec.ofNat 4 n, slot := k, recovery := false }
            (((s.measureSelection k false).runImage (s.nor.slotOf k)).setStep 7).tryDramFill
          else
            let s := s.writeDir (BootDir.setState k 2)
            if s.nor.dir.candidate = none then s.noImage else s
    else s

/-! ## Release of the control processors -/

/-- Usable DRAM in MiB after inline ECC (spec/13 Table 13-1). -/
def usableMib (capacityGib : Nat) : Nat := capacityGib * 1024 * 8 / 9

/-- The largest dirty_limit, in MiB, that leaves a map-page area of 2 GiB (spec/13 R499, R500). -/
def dirtyLimitMax (capacityGib : Nat) (pair : Bool) : Nat :=
  let k := if pair then 2 else 1
  (usableMib capacityGib - 3940 - 256 * k - 2048) / k / 256 * 256

/-- EXLAT of PS3 in seconds (spec/01 Table 1-8, R41). -/
def exlatOf (group : Nat) : Nat := ceilDiv 32 group * 15 + 1

/-- Bits set in a register, ascending. -/
def setBits {w : Nat} (r : BitVec w) : List Nat := (List.range w).filter fun i => r.getLsbD i

/-- The events of the register bits that firmware finds set at release, each held, with uptime 0 (spec/17 R732). -/
def State.foundEvents (s : State) : List Event :=
  let mk (cls base source n : Nat) : Event :=
    { s.mkEvent cls (base + n) source [] with uptime := 0, held := true }
  (fins 32).flatMap (fun p => (setBits (s.port p).events).map (mk 2 0 p.val)) ++
  (fins 32).flatMap (fun p => (setBits (s.spin p).events).map (mk 3 0 p.val)) ++
  (fins 64).flatMap (fun a => (setBits (s.act a).events).map (mk 4 0 a.val)) ++
  (fins 64).flatMap (fun a => (setBits (s.seq a).events).map (mk 5 0 a.val)) ++
  (setBits s.chorus.events).map (mk 6 0 noSource) ++
  (fins 24).flatMap (fun e => (setBits (s.eng e).events).map (mk 6 0x100 e.val)) ++
  (fins 64).flatMap (fun a => (setBits (s.acal a).events).map (mk 7 0 a.val)) ++
  (setBits s.prot.events).map (mk 8 0 noSource) ++ (setBits s.mem.events).map (mk 9 0 noSource) ++
  (setBits s.xing.events).map (mk 0xB 0 noSource)

/-- The straps byte of stage 11. -/
def State.strapsByte (s : State) : Nat :=
  bit s.aon.pairSide + 2 * bit s.aon.bootSrc + 4 * bit s.aon.hostaEn + 8 * bit s.aon.hostbEn

/-- Stages measured before and at the release: 7, 8, 10 and 11 (spec/16 Table 16-6). -/
def State.measureRelease (s : State) : State :=
  let manifest := match s.nor.manifest with
    | some (_, _, bs) => bs
    | none => List.replicate 64 0
  let patch := if s.nor.patchStore = [] then List.replicate 64 0
    else digestBytes (digest (s.nor.patchStore.take (field s.nor.patchStore 28 4)))
  (((s.measure 6 (configStoreBytes s.nor.config)).measure 7 manifest).measure 9 patch).measure 10
    (packBytes [(4, s.aon.cause.toNat), (4, s.aon.attempts.toNat * 2 ^ 24 + bit s.aon.slot * 2 ^ 23 +
      bit s.aon.recovery * 2 ^ 22 + s.aon.dramState.toNat * 2 ^ 16 + s.aon.step.toNat * 256), (1, s.strapsByte),
      (1, s.therm.step.val), (54, 0)])

/-- The parameters of the configuration store put in force (spec/19 R661 and the chapters that own them); in a single configuration
every namespace is in group 1 (spec/11 R448). -/
def State.applyConfig (s : State) : State :=
  let c := s.nor.config
  let most := dirtyLimitMax s.mem.capacityGib c.pairMode
  let s := if most < c.dirtyLimitMib then
      (s.modCfg fun q => { q with dirtyLimitMib := most }).emit 0x09 0x8001 noSource
        (pay [(8, c.dirtyLimitMib * 1048576), (8, most * 1048576)])
    else s
  let c := s.nor.config
  { s with
    boot := { s.boot with spinGroup := c.spinUpGroup, subsystem := c.subsystemId }
    power := { s.power with exlat := exlatOf c.spinUpGroup, writeLimit := c.writeLimit }
    names := { s.names with
      dirtyLimitMib := c.dirtyLimitMib, holdupMs := c.holdupMs
      nss := if c.pairMode then s.names.nss else s.names.nss.map fun n => { n with ana2 := false } }
    mem := { s.mem with scrubHours := c.scrubHours, patrol := true, bufferMib := c.dirtyLimitMib + 256
                        mirrorMib := if c.pairMode then c.dirtyLimitMib + 256 else 0 }
    chorus := { s.chorus with params := c.pool, rebuildShare := c.rebuildShare }
    cal := { s.cal with threshold := c.calThreshold, reconstruct := c.calReconstruct, sledMax := c.calSledMax
                        spacing := c.calSpacing }
    seqs := Vector.ofFn fun a => { s.seq a with gateAhead := c.gateAhead[a], retryMax := c.writeRetryMax[a] }
    therm := { s.therm with graceS := c.grace, hdaWarn := c.hdaWarn, hdaStop := c.hdaStop }
    pair := { s.pair with mode := c.pairMode, side := c.pairMode && s.aon.pairSide, heartbeatMs := c.heartbeatMs, hbMs := c.heartbeatMs
                          st := if c.pairMode then .forming else .single }
    fa := { s.fa with freeze := c.freezeA, subsys := c.pairId, ana1 := if c.pairMode then .inaccessible else .optimized
                      ana2 := .inaccessible }
    fb := { s.fb with freeze := c.freezeB, subsys := c.pairId, ana1 := if c.pairMode then .inaccessible else .optimized
                      ana2 := .inaccessible } }

/-- What became of the dirty buffer (spec/02 R61; spec/10 R401 to R403; spec/15 R557): whether a dump is still to be
restored, and the two actions where the loss is already plain. -/
def State.judgeBuffer (s : State) : State :=
  let index := s.prot.mcRows.any fun r => r.kind == .dumpIndex
  let dump := s.nor.config.dumpMark.isSome || index
  if s.boot.preserved then
    ((s.modCfg fun c => { c with dumpMark := none }).modProt fun p => { p with
        mcRows := p.mcRows.filter fun r => !(r.kind == .dumpIndex || r.kind == .dumpData) }).modBoot fun b =>
      { b with restored := true, replayed := false }
  else
    let lost := s.aon.bufferDirty && !s.nor.config.dumpMark.isSome
    let cause := if s.boot.afterShutdown then 3 else 0
    let told := lost && (s.boot.afterShutdown || (!s.boot.cold && !index))
    let s := if told then
        ((s.modBoot fun b => { b with backupFailed := true }).emit 0x01 0x8004 noSource (pay [(1, cause)])).modCfg
          fun c => { c with mayBeDirty := dump }
      else s
    (s.modBoot fun b => { b with restored := !(s.nor.config.mayBeDirty || dump), replayed := true }).modAon
      fun a => { a with bufferDirty := false }

/-- The boot counter record is programmed: two 4 KiB sectors that take turns, the one that the value's lowest bit names (spec/16 R575;
which of the two comes first is a DESIGN CHOICE, log 119). -/
def State.writeCounter (n : Nat) (s : State) : State :=
  let off := counterOffset + n % 2 * 4096
  ((s.norErase .config off 4096).norProgram .config off 8).modNor fun x => { x with bootCounter := BitVec.ofNat 64 n }

/-- PROCESSORS_RELEASE: with the fill complete and the image verified, Nuhalith raises and programs the boot counter,
measures, and releases the control processors with the watchdog armed; port training starts (spec/02 R56, R63, R78;
spec/16 R575; spec/17 R607, R732). -/
def execProcessorsRelease (s : State) : Host.Outcome State Fault Refusal :=
  .next <|
    if s.booting ∧ s.boot.imageOk ∧ s.boot.trained ∧ s.aon.fillComplete ∧ s.aon.fill = .idle ∧ ¬ s.fillDue
        ∧ (s.ident.keyReady ∨ s.ident.keyFailed) then
      let n := max s.nor.bootCounter.toNat s.newestCounter + 1
      let s := ((s.norRead .config counterOffset 8192).writeCounter n).modIdent fun i =>
        { i with bootCounter := BitVec.ofNat 64 n }
      let s := (s.measureRelease).setStep 9
      let s := (s.modBoot fun b => { b with released := true, releaseAt := s.now }).modPins fun p => { p with linkCheckAt := s.now }
      let s := s.modBook fun b => { b with found := s.foundEvents }
      let s := s.modAon fun a => { a with lastBoot := BitVec.ofNat 32 n, lastRelease := s.now, dogArmed := true, dogAt := s.now }
      let s := s.when s.ident.keyFailed (State.emit 0x0D 0x8001 noSource [])
      let s := s.when s.aon.recovery (State.emit 0x0F 0x8004 noSource (pay [(4, s.boot.image.length), (4, s.ident.fwVersion.toNat)]))
      let s := (s.applyConfig).judgeBuffer
      let s := s.modChorus fun c => { c with engs := c.engs.map fun e => { e with st := .selfTest } }
      (s.each (fins 32) State.startTraining).noteEnded
    else s

/-! ## Watchdog and REFCLK_LINK -/

/-- WATCHDOG_SERVICE (spec/02 R56): firmware that has stopped servicing does not do so again (spec/13 R509). -/
def execWatchdogService (s : State) : Host.Outcome State Fault Refusal :=
  .next <| if s.aon.dogArmed ∧ ¬ s.aon.dogStopped then s.modAon fun a => { a with dogAt := s.now } else s

/-- WATCHDOG_EXPIRY: 2 s after the last service, a warm device reset (spec/02 R56, R57). -/
def execWatchdogExpiry (s : State) : Host.Outcome State Fault Refusal :=
  .next <|
    if s.aon.dogArmed then
      ((s.at_ (s.aon.dogAt + 2 * Config.sec)).modAon fun a => { a with dogArmed := false }).warmSource 5
    else s

/-- REFCLK_LINK is lost: the link PLL is no longer locked, so every command lane stops, and every port that trains or serves is
reset and waits for the clock, out of service with its operations ended (spec/01 Table 1-4; spec/02 R52; spec/03 R139; DEDUCED,
log 95). -/
def State.linkLost (s : State) : State :=
  let s := s.modPins fun p => { p with linkPll := false }
  s.each (fins 32) fun p s =>
    if inRange 2 9 (s.port p).train.val || (s.port p).linked then s.portReset p
    else if (s.port p).train == 1 || (s.port p).train == 0xC then
      ((s.modPort p fun x => { x.afterReset with train := 0, joint := x.joint, attempt := x.attempt }).stopUnits p).noteService p
    else s.modPort p fun x => { x with cmdUp := false }

/-- REFCLK_LINK_CHECK: while REFCLK_LINK is absent it is checked again every 1 s from the release of the processors; once the link PLL
locks the ports that wait to train do so; a failed port keeps its mark (spec/03 R141). A check that finds the PLL no longer locked
takes every port out of service (spec/02 R52). -/
def execRefclkLinkCheck (locked : Bool) (s : State) : Host.Outcome State Fault Refusal :=
  .next <|
    if locked then
      if s.pins.linkPll then s
      else
        let s := if s.boot.released then s.at_ (s.pins.linkCheckAt + Config.sec) else s
        let s := s.modPins fun p => { p with linkPll := true, linkCheckAt := s.now }
        if s.boot.released then s.each ((fins 32).filter fun p => (s.port p).train == 0) State.startTraining else s
    else if s.pins.linkPll then s.linkLost.modPins fun p => { p with linkCheckAt := s.now }
    else
      let s := if s.boot.released then s.at_ (s.pins.linkCheckAt + Config.sec) else s
      s.modPins fun p => { p with linkCheckAt := s.now }

/-! ## Warm device resets -/

/-- PERST_OVERLAP: both PERST# inputs have been asserted for 100 µs: a warm device reset, once for each overlap (spec/02
R55). -/
def execPerstOverlap (s : State) : Host.Outcome State Fault Refusal :=
  .next <|
    match s.aon.overlapAt with
    | some t =>
      if s.aon.overlapUsed ∨ s.aon.hold ≠ .running then s
      else ((s.at_ (t + 100 * Config.us)).modAon fun a => { a with overlapUsed := true }).warmSource 3
    | none => s

/-- PWRFAIL_DEASSERT: PWRFAIL# is deasserted with SYS_PWROK asserted: after the dump, a warm device reset (spec/02
R57). -/
def execPwrfailDeassert (s : State) : Host.Outcome State Fault Refusal :=
  .next <|
    if s.pins.pwrfail then
      let s := s.modPins fun p => { p with pwrfail := false }
      if s.pins.sysPwrok then s.warmSource 2 else s
    else s

/-- DEFERRED_WARM_RESET: the dump has ended, or holdup_ms has passed since PWRFAIL#, and a deferred warm device reset
takes place (spec/02 R57). -/
def execDeferredWarmReset (s : State) : Host.Outcome State Fault Refusal :=
  .next <|
    if s.aon.deferred = [] ∨ s.aon.hold ≠ .running then s
    else
      let t := if s.names.dumping then s.at_ s.deferEnd else s
      t.warmReset s.aon.deferred

end Sys2Proof.Machine
end

