-- ==== Sys2Proof/Machine/Fec.lean ====
section
/-! DEFINITION. Line coding of the Clavik link: GF(2^8), Reed–Solomon RS(136,128) and the PRBS31 scrambler (spec/03 R93,
R94). -/

namespace Sys2Proof.Machine

/-! ## GF(2^8), x^8 + x^4 + x^3 + x^2 + 1 -/

/-- Multiplication by α = 0x02. -/
def gfDouble (a : Nat) : Nat := if a < 128 then 2 * a else Nat.xor (2 * a) 0x11D

/-- Multiplication: n bits of b are left, least significant first. -/
def gfMulGo : Nat → Nat → Nat → Nat
  | 0, _, _ => 0
  | n + 1, a, b => if b % 2 = 1 then Nat.xor a (gfMulGo n (gfDouble a) (b / 2)) else gfMulGo n (gfDouble a) (b / 2)

def gfMul (a b : Nat) : Nat := gfMulGo 8 a b

def gfPow (a : Nat) : Nat → Nat
  | 0 => 1
  | n + 1 => gfMul a (gfPow a n)

/-- The inverse of a nonzero element: its 254th power. -/
def gfInv (a : Nat) : Nat :=
  let a2 := gfMul a a
  let a4 := gfMul a2 a2
  let a8 := gfMul a4 a4
  let a16 := gfMul a8 a8
  let a32 := gfMul a16 a16
  let a64 := gfMul a32 a32
  let a128 := gfMul a64 a64
  gfMul a128 (gfMul a64 (gfMul a32 (gfMul a16 (gfMul a8 (gfMul a4 a2)))))

/-- The value at x of a polynomial given lowest degree first. -/
def gfEval (p : List Nat) (x : Nat) : Nat := p.foldr (fun c acc => Nat.xor c (gfMul acc x)) 0

/-- Sum of two polynomials. -/
def gfAdd : List Nat → List Nat → List Nat
  | [], q => q
  | p, [] => p
  | a :: p, b :: q => Nat.xor a b :: gfAdd p q

/-! ## RS(136,128): generator with roots α^0 to α^7; the first symbol has the highest degree (DEDUCED, log 18) -/

/-- The generator, lowest degree first. -/
def rsGen : List Nat :=
  (List.range 8).foldl (fun g i => gfAdd (g.map (gfMul (gfPow 2 i))) (0 :: g)) [1]

/-- Its coefficients below x^8, highest degree first. -/
def rsTaps : List Nat := (rsGen.take 8).reverse

/-- One step of the division by the generator: the register (highest degree first) takes a symbol. -/
def rsStep (taps reg : List Nat) (m : Nat) : List Nat :=
  let f := Nat.xor m (reg.headD 0)
  List.zipWith (fun t r => Nat.xor r (gfMul t f)) taps (reg.drop 1 ++ [0])

/-- The 8 check symbols of a codeword's message symbols. -/
def rsCheck (msg : List Nat) : List Nat := msg.foldl (rsStep rsTaps) (List.replicate 8 0)

/-- Syndromes S0 to S7 of a received word. -/
def rsSyndromes (w : List Nat) : List Nat :=
  (List.range 8).map fun j => w.foldl (fun acc c => Nat.xor (gfMul acc (gfPow 2 j)) c) 0

/-- State of the Berlekamp–Massey iteration. -/
structure Bm where
  c : List Nat
  b : List Nat
  len : Nat
  m : Nat
  last : Nat

/-- Discrepancy at step n. -/
def bmDelta (syn c : List Nat) (len n : Nat) : Nat :=
  (List.range len).foldl (fun d i => Nat.xor d (gfMul (c.getD (i + 1) 0) (syn.getD (n - 1 - i) 0))) (syn.getD n 0)

/-- One step. -/
def bmStep (syn : List Nat) (t : Bm) (n : Nat) : Bm :=
  let d := bmDelta syn t.c t.len n
  if d = 0 then { t with m := t.m + 1 }
  else
    let c := gfAdd t.c (List.replicate t.m 0 ++ t.b.map (gfMul (gfMul d (gfInv t.last))))
    if 2 * t.len ≤ n then { c := c, b := t.c, len := n + 1 - t.len, m := 1, last := d }
    else { t with c := c, m := t.m + 1 }

/-- The error locator of a word and its degree. -/
def rsLocator (syn : List Nat) : List Nat × Nat :=
  let t := (List.range 8).foldl (bmStep syn) { c := [1], b := [1], len := 0, m := 1, last := 1 }
  (t.c, t.len)

/-- The formal derivative of a polynomial: odd terms, one degree lower. -/
def gfDeriv (p : List Nat) : List Nat := (p.drop 1).zipIdx.map fun q => if q.2 % 2 = 0 then q.1 else 0

/-- Product of the syndromes and the locator below x^8. -/
def rsOmega (syn c : List Nat) : List Nat :=
  (List.range 8).map fun n => (List.range (n + 1)).foldl (fun d i => Nat.xor d (gfMul (syn.getD (n - i) 0) (c.getD i 0))) 0

/-- The corrected word and the count of its byte errors; none: not within four byte errors of a codeword. -/
def rsDecode (w : List Nat) : Option (List Nat × Nat) :=
  let syn := rsSyndromes w
  if syn.all (· == 0) then some (w, 0)
  else
    let q := rsLocator syn
    let om := rsOmega syn q.1
    let de := gfDeriv q.1
    -- position i of the word has degree (length − 1 − i), locator number α^degree
    let fixed := w.zipIdx.map fun s =>
      let x := gfPow 2 (w.length - 1 - s.2)
      let xi := gfInv x
      if gfEval q.1 xi = 0 then (Nat.xor s.1 (gfMul x (gfMul (gfEval om xi) (gfInv (gfEval de xi)))), 1) else (s.1, 0)
    let word := fixed.map Prod.fst
    let count := (fixed.map Prod.snd).sum
    if q.2 ≤ 4 ∧ count = q.2 ∧ (rsSyndromes word).all (· == 0) = true then some (word, count) else none

/-- Every second element, from the first or the second. -/
def alternate : Bool → List Nat → List Nat
  | _, [] => []
  | true, x :: r => x :: alternate false r
  | false, _ :: r => alternate true r

/-- Two lists interleaved, the first list first. -/
def interleave : List Nat → List Nat → List Nat
  | a :: p, b :: q => a :: b :: interleave p q
  | _, _ => []

/-- A 272-byte line block corrected: its 256 payload bytes and the byte errors; none: uncorrectable. Byte i belongs to
codeword i mod 2, payload and check bytes alike (spec/03 R93). -/
def fecDecode (block : List Byte) : Option (List Byte × Nat) :=
  let w := block.map BitVec.toNat
  match rsDecode (alternate true w), rsDecode (alternate false w) with
  | some p, some q => some ((interleave (p.1.take 128) (q.1.take 128)).map (BitVec.ofNat 8), p.2 + q.2)
  | _, _ => none

/-! ## Sample-lane symbols (spec/03 R92) -/

/-- The level of a pair of bits, Gray mapped, and the pair of a level. -/
def grayLevel (pair : Nat) : Fin 4 := match pair % 4 with
  | 0 => 0
  | 1 => 1
  | 3 => 2
  | _ => 3
def grayPair (level : Fin 4) : Nat := match level with
  | 0 => 0
  | 1 => 1
  | 2 => 3
  | 3 => 2

/-- The four symbols of a byte: symbol k carries bits [2k+1:2k]. -/
def byteLevels (b : Byte) : List (Fin 4) := [0, 1, 2, 3].map fun k => grayLevel (b.toNat / 4 ^ k)

/-- The symbols of bytes, in the order sent, and the bytes of symbols. -/
def laneLevels (bs : List Byte) : List (Fin 4) := bs.flatMap byteLevels
def laneBytes : List (Fin 4) → List Byte
  | a :: b :: c :: d :: r => BitVec.ofNat 8 (grayPair a + 4 * grayPair b + 16 * grayPair c + 64 * grayPair d) :: laneBytes r
  | _ => []

/-- A payload of 256 bytes with its check bytes. -/
def fecEncode (payload : List Byte) : List Byte :=
  let w := payload.map BitVec.toNat
  payload ++ (interleave (rsCheck (alternate true w)) (rsCheck (alternate false w))).map (BitVec.ofNat 8)

/-! ## Scrambler: PRBS31, x^31 + x^28 + 1, output of stage 31 (DEDUCED, log 18) -/

/-- One bit: what the generator gives and its next state. -/
def prbsBit (g : BitVec 31) : Bool × BitVec 31 :=
  let out := g.getLsbD 30
  (out, (g <<< 1) ||| (if out != g.getLsbD 27 then 1 else 0))

/-- n bits, the first least significant. -/
def prbsBits : Nat → BitVec 31 → Nat × BitVec 31
  | 0, g => (0, g)
  | n + 1, g => let q := prbsBits n (prbsBit g).2; (bit (prbsBit g).1 + 2 * q.1, q.2)

/-- Bytes scrambled or descrambled, and the generator after them. -/
def scramble (g : BitVec 31) : List Byte → List Byte × BitVec 31
  | [] => ([], g)
  | b :: r =>
    let k := prbsBits 8 g
    let q := scramble k.2 r
    ((b ^^^ BitVec.ofNat 8 k.1) :: q.1, q.2)

/-- The generator's state after the bytes of one payload. -/
def prbsSkip (n : Nat) (g : BitVec 31) : BitVec 31 := (prbsBits (8 * n) g).2

def prbsOnes : BitVec 31 := 0x7FFFFFFF

end Sys2Proof.Machine
end

