-- ==== Sys2Proof/Machine/Layout.lean ====
section
/-! DEFINITION. Where data lies: bands, chunks, groups, stripes and their state, media sectors, parity and reconstruction
(spec/09 R319 to R345). -/

namespace Sys2Proof.Machine

/-- Sides that an HDA has (spec/03 Table 3-9). -/
def Port.sides (x : Port) : List Side := if field x.companion.ident 6 1 = 1 then [0] else [0, 1]

/-- The port belongs to the peer (spec/18 R626). -/
def State.peerOwns (s : State) (p : PortId) : Bool := s.pair.mode && s.pair.peerOwn.getLsbD p.val && !s.pair.own.getLsbD p.val

/-! ## Groups and stripes (R331 to R334) -/

def Group.width (g : Group) : Nat := if g.narrow then 10 else 19

/-- K, the data chunks of a stripe. -/
def Group.k (g : Group) : Nat := if g.narrow then 8 else 16

/-- m = W − K. -/
def Group.m (g : Group) : Nat := g.width - g.k

/-- H, the stripes of a group. -/
def Group.h (g : Group) : Nat := g.members.length

/-- Blocks of a zone: 1 GiB in 16 + 3, 512 MiB in 8 + 2. -/
def zoneBlocks (narrow : Bool) : Nat := if narrow then 131072 else 262144

/-- Blocks of a row of a stripe: 64 × K. -/
def rowBlocks (narrow : Bool) : Nat := if narrow then 512 else 1024

def State.group? (s : State) (g : Nat) : Option Group := s.prot.groups.find? fun x => x.number == g

/-- Integers of 1 to H − 1 coprime to H, ascending. -/
def coprimes (h : Nat) : List Nat := ((List.range h).drop 1).filter fun n => Nat.gcd n h == 1

/-- Home of chunk j of stripe i: port and pool slot (R332). -/
def Group.home (g : Group) (i j : Nat) : PortId × Nat :=
  let h := max 1 g.h
  let c := coprimes h
  let mul := c.getD (g.number % max 1 c.length) 1
  let q := g.width * i + j
  (g.members.getD (q % h * mul % h) 0, g.firstSlot + q / h)

/-- The place of a chunk: its exception, or its home (R334). -/
def State.placeOf (s : State) (g : Group) (i j : Nat) : Place :=
  match s.prot.excs.find? fun e => e.group == g.number && e.stripe == i && e.chunk == j with
  | some e => e.place
  | none => .pool (g.home i j).1 (g.home i j).2

/-! ## Bands of an actuator (R324 to R327) -/

/-- b_a of an actuator. -/
def Member.bands (m : Member) (sd : Side) : Nat := if sd = 0 then m.bands0 else m.bands1

/-- spare_a, reserve_a, pool_a (Table 9-2). -/
def spareBands (b : Nat) : Nat := ceilDiv (3 * b) 100
def reserveBands (b : Nat) : Nat := ceilDiv (2 * (b - 40 - spareBands b)) 1000
def poolBands (b : Nat) : Nat := b - 40 - reserveBands b - spareBands b

/-- Side and actuator band of pool band b (R327). -/
def Member.poolBand (m : Member) (b : Nat) : Side × Nat :=
  let p0 := poolBands m.bands0
  let p1 := poolBands m.bands1
  let p := min p0 p1
  if b < 2 * p then (if b % 2 = 0 then 0 else 1, 40 + b / 2)
  else (if p1 < p0 then 0 else 1, 40 + p + (b - 2 * p))

/-- Pool slots of a member. -/
def Member.poolSlots (m : Member) : Nat := 2 * (poolBands m.bands0 + poolBands m.bands1)

/-- Spare chunks and defect-reserve chunks of a member. -/
def Member.spareChunks (m : Member) : Nat := 2 * (spareBands m.bands0 + spareBands m.bands1)
def Member.reserveChunks (m : Member) : Nat := 2 * (reserveBands m.bands0 + reserveBands m.bands1)

/-- Side, actuator band and half of a place. Spare and reserve chunks are numbered side 0 first, in actuator band order
(DESIGN CHOICE, log 27). -/
def Member.halfOf (m : Member) : Place → Side × Nat × Nat
  | .pool _ k => let q := m.poolBand (k / 2); (q.1, q.2, k % 2)
  | .reserve _ k =>
    let n := 2 * reserveBands m.bands0
    if k < n then (0, 40 + poolBands m.bands0 + k / 2, k % 2)
    else (1, 40 + poolBands m.bands1 + (k - n) / 2, (k - n) % 2)
  | .spare _ k =>
    let n := 2 * spareBands m.bands0
    if k < n then (0, m.bands0 - spareBands m.bands0 + k / 2, k % 2)
    else (1, m.bands1 - spareBands m.bands1 + (k - n) / 2, (k - n) % 2)

/-- The actuator that holds a place. -/
def State.actOfPlace (s : State) (p : Place) : ActId := actOf p.port ((s.member p.port).halfOf p).1

/-! ## From a band to tracks (R319 to R324) -/

/-- One zone's bands on a surface: first track, bands, tracks of a half, guard tracks, sectors a track. -/
structure ZoneBands where
  zone : Fin 32
  first : Nat
  count : Nat
  half : Nat
  guard : Nat
  sectors : Nat
  deriving DecidableEq, Repr

/-- The bands of a zone of one surface (Table 9-1). -/
def zoneBands (cal : Nat) (z : ZoneFmt) (i : Fin 32) : ZoneBands :=
  let half := ceilDiv 16416 (max 1 z.sectors)
  { zone := i, first := z.firstTrack + cal, count := bandsIn cal z, half := half
    guard := z.guard, sectors := z.sectors }

/-- The bands of a surface of a port, zone by zone from the outer diameter. -/
def State.surface (s : State) (p : PortId) : List ZoneBands :=
  match (s.pcal p).format, (s.pcal p).recipe with
  | some f, some r => (fins 32).filterMap fun i => (f.zones[i.val]?).bind fun z =>
      if i.val < f.zoneCount then some (zoneBands r.calTracks z i) else none
  | _, _ => []

/-- Bands on one surface. -/
def surfaceBands (l : List ZoneBands) : Nat := (l.map ZoneBands.count).sum

/-- Local heads of a side. -/
def State.localHeads (s : State) (p : PortId) (sd : Side) : List (Fin 12) :=
  (fins 12).filter fun h => (headsOf (s.port p).companion.ident).contains (globalHead sd h)

/-- Bands of an actuator before defects are left out. -/
def State.rawBands (s : State) (p : PortId) (sd : Side) : Nat := surfaceBands (s.surface p) * (s.localHeads p sd).length

/-- Number of a raw band over the HDA: side 0 first. -/
def State.rawNumber (s : State) (p : PortId) (sd : Side) (n : Nat) : Nat := if sd = 0 then n else s.rawBands p 0 + n

/-- Slip spares of a half: its sectors beyond 16,384. -/
def ZoneBands.spares (z : ZoneBands) : Nat := z.half * z.sectors - 16384

/-- The zone and number in it of the band of a rank. -/
def bandOfRank : List ZoneBands → Nat → Option (ZoneBands × Nat)
  | [], _ => none
  | z :: r, n => if n < z.count then some (z, n) else bandOfRank r (n - z.count)

/-- Slipped sectors of a half of a raw band, in ascending order. -/
def Member.slipsOf (m : Member) (raw half : Nat) : List Nat :=
  match m.slips.find? fun q => q.1 == 2 * raw + half with
  | some q => q.2
  | none => []

/-- Sector n of a half: every slipped sector before it moves it up by one (R348). -/
def slipTo : List Nat → Nat → Nat
  | [], n => n
  | b :: r, n => slipTo r (if b ≤ n then n + 1 else n)

/-- The zone and rank of a raw band of a side, by rank and then by local head (R324; a rank counts the bands before
defects are left out, DEDUCED, log 28). -/
def State.rawPlace (s : State) (p : PortId) (sd : Side) (n : Nat) : Option (ZoneBands × Nat × Fin 12) :=
  let hs := s.localHeads p sd
  match bandOfRank (s.surface p) (n / max 1 hs.length), hs[n % max 1 hs.length]? with
  | some (z, k), some h => some (z, k, h)
  | _, _ => none

/-- A raw band is defective: a half has more slipped sectors than slip spares (R349). -/
def State.defective (s : State) (p : PortId) (sd : Side) (n : Nat) : Bool :=
  match s.rawPlace p sd n with
  | some (z, _, _) => (List.range 2).any fun h => decide (z.spares < ((s.member p).slipsOf (s.rawNumber p sd n) h).length)
  | none => false

/-- The raw band of actuator band n: the defective ones are passed over. -/
def State.rawOf (s : State) (p : PortId) (sd : Side) (n : Nat) : Nat :=
  let base := s.rawNumber p sd 0
  let bad := (((s.member p).slips.map fun q => q.1 / 2).filter fun r =>
    decide (base ≤ r) && decide (r < base + s.rawBands p sd) && s.defective p sd (r - base)).map (· - base)
  (List.range (s.rawBands p sd)).foldl (fun (n : Nat) r => if bad.contains r && decide (r ≤ n) then n + 1 else n) n

/-- A physical sector: actuator, local head, zone, track and sector of the track. -/
structure Location where
  act : ActId
  head : Fin 12
  zone : Fin 32
  track : Nat
  sector : Nat
  deriving DecidableEq, Repr

/-- Sector n of a half, in writing order: half 0 from the band's first track toward the middle, half 1 from its last track
toward the middle (R321, R322), slipped sectors passed over (R348). -/
def State.locate (s : State) (p : PortId) (sd : Side) (band half n : Nat) : Option Location :=
  let raw := s.rawOf p sd band
  match s.rawPlace p sd raw with
  | some (z, k, h) =>
    let n := slipTo ((s.member p).slipsOf (s.rawNumber p sd raw) half) n
    let start := z.first + k * (2 * z.half + 2 * z.guard)
    let t := n / max 1 z.sectors
    some { act := actOf p sd, head := h, zone := z.zone
           track := if half = 0 then start + t else start + 2 * z.half + z.guard - 1 - t
           sector := n % max 1 z.sectors }
  | none => none

/-- The physical sector of a sector of a chunk. -/
def State.locateChunk (s : State) (pl : Place) (n : Nat) : Option Location :=
  let q := (s.member pl.port).halfOf pl
  s.locate pl.port q.1 q.2.1 q.2.2 n

/-- Chunks of a port in one numbering: pool slots, spare chunks, defect-reserve chunks (DESIGN CHOICE, log 27). -/
def Member.codeOf (m : Member) : Place → Nat
  | .pool _ k => k
  | .spare _ k => m.poolSlots + k
  | .reserve _ k => m.poolSlots + m.spareChunks + k

def Member.ofCode (m : Member) (p : PortId) (n : Nat) : Place :=
  if n < m.poolSlots then .pool p n
  else if n < m.poolSlots + m.spareChunks then .spare p (n - m.poolSlots)
  else .reserve p (n - m.poolSlots - m.spareChunks)

/-- The chunk and its sector that lie at a physical place; a chunk has 16,384 sectors (R322). -/
def State.placeAt (s : State) (l : Location) : Option (Place × Nat) :=
  let p := portOf l.act
  let m := s.member p
  ((List.range (m.poolSlots + m.spareChunks + m.reserveChunks)).map (m.ofCode p)).findSome? fun pl =>
    (List.range 16384).findSome? fun n => if s.locateChunk pl n = some l then some (pl, n) else none

/-! ## Missing chunks and stripe states (R343, Table 9-5) -/

/-- An actuator holds present data: its HDA is a member in state 0x1, it has not failed and is in service; in a pair also
under the peer, and while its port is taken over and waits for a start slot (spec/18 R626, R651). -/
def State.actPresent (s : State) (a : ActId) : Bool :=
  let p := portOf a
  let m := s.member p
  m.st == .member && !(if sideOf a = 0 then m.failed0 else m.failed1) &&
    (s.actInService a || s.pair.mode && (s.pair.peerOwn.getLsbD p.val && !s.pair.own.getLsbD p.val || (s.spin p).wantSlot))

def State.placeMissing (s : State) (pl : Place) : Bool := !s.actPresent (s.actOfPlace pl)

/-- A chunk cannot be read: it is missing, or rows were destaged without it and it has not been resynchronised (R345, R346). -/
def State.chunkMissing (s : State) (g : Group) (i j : Nat) : Bool :=
  s.placeMissing (s.placeOf g i j) || s.prot.touched.contains (g.number, i, j)

/-- Missing chunks of a stripe. -/
def State.missingOf (s : State) (g : Group) (i : Nat) : List Nat := (List.range g.width).filter (s.chunkMissing g i)

/-- A stripe with more than m chunks missing. -/
def State.stripeLost (s : State) (g : Group) (i : Nat) : Bool := decide (g.m < (s.missingOf g i).length)

/-! ## Sectors on media -/

/-- A sector of a chunk as it lies on media; one never written reads as zeros (R337). -/
def State.sectorAt (s : State) (pl : Place) (n : Nat) : Blk :=
  match s.prot.sectors.find? fun x => x.place == pl && x.sector == n with
  | some x => x.data
  | none => 0

/-- A sector of a chunk is written. -/
def Prot.putSector (pl : Place) (n : Nat) (b : Blk) (p : Prot) : Prot :=
  { p with sectors := { place := pl, sector := n, data := b } :: p.sectors.filter fun x => !(x.place == pl && x.sector == n)
           bad := p.bad.filter fun q => !(q.1 == pl && q.2 == n) }

/-- A sector of a chunk can be had directly: its chunk is present, and it is not one of those that have failed for the read. Of a
command those are its own; of the firmware's reads, those not written or moved since (R338; DEDUCED, log 138). -/
def State.sectorOk (s : State) (bad : List (Place × Nat)) (g : Group) (i j n : Nat) : Bool :=
  !s.chunkMissing g i j && !bad.contains (s.placeOf g i j, n)

/-! ## Places in use, and a chunk's new place (R334, R357, R360) -/

/-- A chunk is committed to a place: its exception, or none when that is its home; it is current there, and the old copy is
freed (`keep`: its old place is defective and stays in use). -/
def State.setPlace (g : Group) (i j : Nat) (pl : Place) (keep : Bool) (s : State) : State :=
  let old := s.placeOf g i j
  let home : Place := .pool (g.home i j).1 (g.home i j).2
  let s := s.modProt fun p => { p with
    excs := p.excs.filter (fun e => !(e.group == g.number && e.stripe == i && e.chunk == j)) ++
      (if pl = home then [] else [{ group := g.number, stripe := i, chunk := j, place := pl }])
    touched := p.touched.filter fun t => t != (g.number, i, j) }
  if old = pl then s
  else
    let s := s.modProt (Prot.dropChunk old)
    let s := s.when (!keep && old != home) (State.modMember old.port (Member.release old))
    s.when (pl != home) (State.modMember pl.port (Member.take pl))

/-! ## Parity (R335) -/

/-- A block multiplied by a field element, byte by byte. -/
def blkMul (c : Nat) (b : Blk) : Blk :=
  if c = 1 then b
  else BitVec.ofNat 32768 (ofLe ((leBytes 4096 b.toNat).map fun x => BitVec.ofNat 8 (gfMul c x.toNat)))

/-- α^(i·j). -/
def parityCoef (i j : Nat) : Nat := gfPow 2 (i * j)

/-- Parity i of the data blocks of a row, at one offset. -/
def parityBlk (i : Nat) (data : List Blk) : Blk :=
  data.zipIdx.foldl (fun acc q => acc ^^^ blkMul (parityCoef i q.2) q.1) 0

/-- The coefficients of chunk j over the K data chunks. -/
def chunkRow (k j : Nat) : List Nat :=
  (List.range k).map fun t => if j < k then (if t = j then 1 else 0) else parityCoef (j - k) t

/-- One equation: coefficients and right-hand side. -/
abbrev Equation := List Nat × Blk

def eqScale (c : Nat) (e : Equation) : Equation := (e.1.map (gfMul c), blkMul c e.2)
def eqAdd (x y : Equation) : Equation := ((x.1.zip y.1).map fun q => Nat.xor q.1 q.2, x.2 ^^^ y.2)

/-- An equation with one unknown removed by a pivot that has coefficient 1 there. -/
def eqClear (col : Nat) (pivot e : Equation) : Equation :=
  if e.1.getD col 0 = 0 then e else eqAdd e (eqScale (e.1.getD col 0) pivot)

/-- Gauss-Jordan elimination over the columns given; the pivots in column order. -/
def eliminate : List Nat → List Equation → List Equation → Option (List Equation)
  | [], done, _ => some done
  | c :: cs, done, rest =>
    match rest.findIdx? fun e => e.1.getD c 0 != 0 with
    | none => none
    | some i =>
      match rest[i]? with
      | none => none
      | some e =>
        let p := eqScale (gfInv (e.1.getD c 0)) e
        eliminate cs (done.map (eqClear c p) ++ [p]) ((dropAt i rest).map (eqClear c p))

/-- The K data blocks of a row at one offset from any K of its W strips (chunk number and block). -/
def solveRow (k : Nat) (have_ : List (Nat × Blk)) : Option (List Blk) :=
  (eliminate (List.range k) [] (have_.map fun q => (chunkRow k q.1, q.2))).map fun l => l.map Prod.snd

/-- A chunk's block from the K data blocks. -/
def chunkBlk (k j : Nat) (data : List Blk) : Blk := if j < k then data.getD j 0 else parityBlk (j - k) data

/-! ## Reconstruction (R338) -/

/-- The strips that may serve a reconstruction of chunk j at sector n: present, not failed for this read, not on an actuator
in a calibration break; data strips first, in ascending order. -/
def State.sources (s : State) (bad : List (Place × Nat)) (g : Group) (i j n : Nat) : List Nat :=
  (List.range g.width).filter fun t =>
    t != j && s.sectorOk bad g i t n && (s.acal (s.actOfPlace (s.placeOf g i t))).brk.isNone

/-- The block of chunk j at sector n, from K other strips. -/
def State.reconstruct (s : State) (bad : List (Place × Nat)) (g : Group) (i j n : Nat) : Option Blk :=
  let src := (s.sources bad g i j n).take g.k
  if src.length < g.k then none
  else (solveRow g.k (src.map fun t => (t, s.sectorAt (s.placeOf g i t) n))).map (chunkBlk g.k j)

/-! ## Zones of a namespace (R333) -/

def State.ns? (s : State) (n : Nat) : Option Ns := s.names.nss.find? fun x => x.nsid == n

/-- The groups of a namespace, in group-list order. -/
def State.nsGroups (s : State) (x : Ns) : List Group := x.groups.filterMap s.group?

/-- The stripe of a zone. -/
def stripeOf : List Group → Nat → Option (Group × Nat)
  | [], _ => none
  | g :: r, z => if z < g.h then some (g, z) else stripeOf r (z - g.h)

/-- Zones of a namespace, zoned or backing. -/
def State.zonesOf (s : State) (x : Ns) : Nat := ((s.nsGroups x).map Group.h).sum

/-- Chunk and sector of a zone offset. -/
def chunkOf (k off : Nat) : Nat × Nat := (off % (64 * k) / 64, 64 * (off / (64 * k)) + off % 64)

/-- Where a zone's block lies: group, stripe, data chunk, sector. -/
def State.blockAt (s : State) (x : Ns) (zone off : Nat) : Option (Group × Nat × Nat × Nat) :=
  (stripeOf (s.nsGroups x) zone).map fun q => (q.1, q.2, (chunkOf q.1.k off).1, (chunkOf q.1.k off).2)

/-- The data of a sector of a chunk: read directly, or reconstructed; none when it cannot be had. -/
def State.mediaBlk (s : State) (bad : List (Place × Nat)) (g : Group) (i j n : Nat) : Option Blk :=
  if s.sectorOk bad g i j n then some (s.sectorAt (s.placeOf g i j) n) else s.reconstruct bad g i j n

/-! ## The map directory on media (spec/10 R389) -/

/-- The places that a directory page at a block index of the backing holds: index of the map page in it, and place; none when the page
cannot be read. -/
def State.dirEntries (s : State) (x : Ns) (at_ : Nat) : Option (List (Nat × Nat)) :=
  (s.blockAt x (at_ / zoneBlocks x.narrow) (at_ % zoneBlocks x.narrow)).bind fun q =>
    (s.mediaBlk s.prot.bad q.1 q.2.1 q.2.2.1 q.2.2.2).map fun b =>
      let bs := leBytes 4096 b.toNat
      (List.range 512).filterMap fun i =>
        let e := field bs (8 * i) 8
        if e = 0 then none else some (i, e % 2 ^ 48)

/-- The root table of a namespace: directory page and its place. -/
def State.rootsOf (s : State) (ns : Nat) : List (Nat × Nat) := (s.names.roots.filter fun q => q.1 == ns).map Prod.snd

/-- The map directory as the directory pages on media hold it: map page and place; none while a page cannot be read. -/
def State.readDir (s : State) (x : Ns) : Option (List (Nat × Nat)) :=
  (s.rootsOf x.nsid).foldl (fun acc q => match acc, s.dirEntries x q.2 with
    | some l, some d => some (l ++ d.map fun e => (512 * q.1 + e.1, e.2))
    | _, _ => none) (some [])

/-! ## Writing actuators (spec/01 R23, R30, R34) -/

/-- Writing actuators allowed: the Concurrent Write Limit, and the limits of the governing power state and of the thermal step
(spec/01 Table 1-8, R30; spec/15 Table 15-3; spec/12 R488); a power-fail dump runs without them (spec/10 R400). -/
def State.writerLimit (s : State) : Nat :=
  if s.names.dumping then 64
  else min (min s.power.writeLimit ([64, 64, 16, 0].getD s.power.current.val 0)) ([64, 64, 16, 8].getD s.therm.step.val 8)

/-- An actuator executes a write. -/
def State.seqWrites (s : State) (a : ActId) : Bool := match (s.seq a).op with
  | some d => d.write
  | none => false

/-- The actuators of this controller that the rows in flight go to. -/
def State.flightActs (s : State) : List ActId :=
  (s.names.flights.flatMap fun f => match (s.ns? f.ns).bind fun x => stripeOf (s.nsGroups x) f.zone with
    | some (g, i) => ((List.range g.width).filter fun j => !s.chunkMissing g i j && !s.peerOwns (s.placeOf g i j).port).map fun j =>
        s.actOfPlace (s.placeOf g i j)
    | none => []).eraseDups

/-- The writing actuators: those that execute a write and those of the rows in flight. A row on more actuators than the limit allows
takes them in turn (DESIGN CHOICE, log 129). -/
def State.writers (s : State) : List ActId :=
  let l := s.flightActs
  (fins 64).filter fun a => s.seqWrites a || l.contains a

/-- A further actuator may start writing (Table 1-2). -/
def State.mayWrite (s : State) : Bool := decide (s.writers.length < s.writerLimit)

/-- The same of an actuator: one of a row in flight is counted already, and starts as those that execute a write allow (log 129). -/
def State.mayWriteOn (s : State) (a : ActId) : Bool :=
  if s.flightActs.contains a then decide (((fins 64).filter s.seqWrites).length < s.writerLimit) else s.mayWrite

/-- Actuators writing now. -/
def State.writing (s : State) : Nat := max ((fins 64).filter s.seqWrites).length (min s.writers.length s.writerLimit)

end Sys2Proof.Machine
end

