-- ==== Sys2Proof/Machine/Understudy.lean ====
section
/-! DEFINITION. Understudy's course as shared operations: what is to be rebuilt, commits, the end of a rebuild, suspend and cancel, and
what a takeover leaves (spec/09 R355 to R368). -/

namespace Sys2Proof.Machine

/-! ## Records mirrored in a pair (spec/18 R641) -/

/-- A record of the system bands mirrored in a pair (spec/18 R641). -/
def State.journalRec (l : List Nat) (s : State) : State := s.when s.mirrors (State.sendKept 0x04 l [] 0 0 0 none)

/-- A placement exception in it. -/
def State.excRec (group stripe chunk : Nat) (pl : Place) (s : State) : State :=
  s.journalRec [4, group, stripe, chunk, pl.port.val, (s.member pl.port).codeOf pl]

/-- A member changes, in the member record and its mirror too; `q`: the port of the member whose place it takes. -/
def State.memberRecAs (p : PortId) (q : Option PortId) (s : State) : State :=
  let m := s.member p
  s.recordMembers.journalRec ([3, p.val, m.st.code, m.serial.toNat, bit m.failed0, bit m.failed1, m.bands0, m.bands1,
    (q.map fun q => q.val + 1).getD 0] ++ m.slips.flatMap fun l => l.1 :: l.2.length :: l.2)

def State.memberRec (p : PortId) (s : State) : State := s.memberRecAs p none

/-! ## What is to be rebuilt (R356) -/

def Zone.initial (ns z : Nat) : Zone := { ns := ns, zone := z, st := .empty, wp := 0, recWp := 0, recSt := .empty, rows := 0 }

def State.zone (s : State) (ns z : Nat) : Zone :=
  (s.names.zones.find? fun x => x.ns == ns && x.zone == z).getD (Zone.initial ns z)

/-- Stripes of a group in order. -/
def State.stripes (s : State) : List (Group × Nat) :=
  (sortBy (fun g => g.number) s.prot.groups).flatMap fun g => (List.range g.h).map fun i => (g, i)

/-- The zone of a stripe in its namespace. -/
def State.zoneOfStripe (s : State) (g : Group) (i : Nat) : Nat :=
  match s.ns? g.ns with
  | none => 0
  | some x => (((s.nsGroups x).takeWhile fun y => y.number != g.number).map Group.h).sum + i

/-- Written rows of a stripe. -/
def State.rowsOf (s : State) (g : Group) (i : Nat) : Nat :=
  match s.ns? g.ns with
  | none => 0
  | some _ => (s.zone g.ns (s.zoneOfStripe g i)).rows

/-- The stripes with missing chunks, those with most first, then by group and stripe number (R356). -/
def State.todo (s : State) : List (Group × Nat) :=
  let l := s.stripes.filter fun q => s.missingOf q.1 q.2 != []
  (sortBy (fun n => n) ((l.map fun q => 19 - (s.missingOf q.1 q.2).length).eraseDups)).flatMap fun n =>
    l.filter fun q => 19 - (s.missingOf q.1 q.2).length == n

/-- Strips of a media-cache row that are missing. -/
def State.mcMissing (s : State) (r : McRow) : Nat := (r.strips.filter fun q => !s.actPresent q.1).length

/-- The strip of a block of a media-cache row can be read directly. -/
def State.mcDirect (s : State) (r : McRow) (idx : Nat) : Bool := match r.strips[idx / 64]? with
  | some q => s.actPresent q.1
  | none => false

/-- A block of a media-cache row: any eight of its ten strips give it (R340). -/
def State.mcBlock (s : State) (r : McRow) (idx : Nat) : Option Blk :=
  if s.mcMissing r ≤ 2 then (r.blocks[idx]?).map Prod.snd else none

/-- The media-cache rows with a missing strip that can still be read (R356 step 1). -/
def State.mcTodo (s : State) : List McRow := s.prot.mcRows.filter fun r => s.mcMissing r != 0 && decide (s.mcMissing r ≤ 2)

/-- The rebuild, when it is active. -/
def State.rebuild? (s : State) : Option LongOp := (s.activeOps 1).head?

/-- This controller runs Understudy: in a pair the coordinator does (spec/18 R623). -/
def State.coordinates (s : State) : Bool := !s.pair.mode || s.pair.coordinator

/-- A missing chunk is only to be resynchronised: it lies on a present actuator, and not on a replacement that it is rebuilt onto
(R346, R364). -/
def State.onlyTouched (s : State) (g : Group) (i j : Nat) : Bool :=
  !s.placeMissing (s.placeOf g i j) && !s.prot.homecoming.contains (s.placeOf g i j).port

/-- A stripe with nothing but such chunks missing. -/
def State.resyncs (s : State) (g : Group) (i : Nat) : Bool := (s.missingOf g i).all (s.onlyTouched g i)

/-- The chunks of a stripe that are to be resynchronised. -/
def State.touchedOf (s : State) (g : Group) (i : Nat) : List Nat := (s.missingOf g i).filter (s.onlyTouched g i)

/-! ## Spare space (Table 9-6, Table 9-11) -/

/-- Free spare chunks of a member. -/
def Member.spareFree (m : Member) : Nat := m.spareChunks - m.spareUsed.length

/-- spare_low: free spare below spare_alarm of the total (Table 9-6). -/
def State.spareLow (s : State) : Bool :=
  let ms := (s.prot.members.toList).filter fun m => m.st == .member
  decide (((ms.map Member.spareFree).sum) * 100 < s.nor.config.spareAlarm * (ms.map Member.spareChunks).sum)

/-- A change, and the event of spare_low when free spare has fallen below the alarm with it (R366). -/
def State.watchSpare (f : State → State) (s : State) : State :=
  let t := f s
  t.when (!s.spareLow && t.spareLow) (State.raiseProt 7 noSource)

/-- Places are committed and recorded (R334, R357). -/
def State.commitPlaces (g : Group) (i : Nat) (l : List (Nat × Place)) (keep : Bool) (s : State) : State :=
  (s.watchSpare fun s => s.each l fun q s => s.setPlace g i q.1 q.2 keep).recordExceptions

/-! ## The course of a rebuild (R355, R362 to R365) -/

/-- PROT_REBUILD's fields follow the operation. -/
def State.rebuildTo (phase : Fin 5) (st : Fin 5) (s : State) : State :=
  s.modProt fun p => { p with rebuildPhase := phase, rebuildState := st }

/-- A rebuild operation started by the controller. -/
def State.newRebuild (st : OpState) (origin : Nat) (s : State) : State × Nat :=
  s.startOp { handle := 0, kind := 1, st := st, done := 0, total := 0, origin := origin, started := s.ident.bootCounter, result := 0
              p0 := 0, p1 := 0, p2 := 0, p3 := 0, cursor := 0, from_ := 0, kept := 0, suspendAsked := false, cancelAsked := false, byPs3 := false
              slot := false, prefer := false, image := [] }

/-- The checkpoint record on the system bands and its mirror: where the rebuild stands, and whether one is active or was cancelled (R362;
spec/18 R641). -/
def State.mirrorCheckpoint (n : Nat) (s : State) : State :=
  s.journalRec [5, n, bit s.rebuild?.isSome, bit s.prot.rebuildHeld]

def State.putCheckpoint (n : Nat) (s : State) : State := (s.record (.checkpoint n)).mirrorCheckpoint n

/-- A rebuild that has been cancelled starts again only through Long Operation, or when another member or actuator fails (R365); its
checkpoint is of no use any more. -/
def State.rebuildCancelled (s : State) : State :=
  ((s.rebuildTo 0 4).modProt fun p => { p with
    rebuildHeld := true, checkpoint := 0, checkAck := none, started := 0 }).putCheckpoint 0

/-- Members that are absent: since when (R355). -/
def State.absentSince (s : State) : Option Nat :=
  (s.prot.members.toList.filter fun m => m.st == .absent).foldl (fun (b : Option Nat) m => match b with
    | some t => some (min t m.absentAt)
    | none => some m.absentAt) none

/-- A member became absent: the rebuild waits for rebuild_delay, if none is active; one that was cancelled does not start again for it
(R355, R365). -/
def State.rebuildWaits (s : State) : State :=
  match s.rebuild? with
  | some _ => s
  | none =>
    if s.prot.rebuildHeld = true ∨ s.coordinates = false then s
    else
      let q := s.newRebuild .waiting 3
      (q.1.modProt fun p => { p with rebuildHandle := q.2 }).rebuildTo 1 0

/-- Failed and absent members whose chunks are all elsewhere are retired (Table 9-3). -/
def State.retireMembers (s : State) : State :=
  s.each (fins 32) fun p s =>
    let m := s.member p
    let holds := s.stripes.any fun q => (List.range q.1.width).any fun j => (s.placeOf q.1 q.2 j).port == p
    if (m.st = .failed ∨ m.st = .absent) ∧ holds = false then (s.modMember p fun m => { m with st := .retired }).memberRec p else s

/-- Chunks that lie away from a home that is present again, on a replacement (R364). -/
def State.away (s : State) : List Exc :=
  s.prot.excs.filter fun e => match s.group? e.group with
    | some g => !s.placeMissing (.pool (g.home e.stripe e.chunk).1 (g.home e.stripe e.chunk).2) &&
        s.prot.homecoming.contains (g.home e.stripe e.chunk).1
    | none => false

/-- The rebuild goes on to its return phase, or ends, when no media-cache row and no stripe is left (R356, R364). -/
def State.rebuildEnd (s : State) : State :=
  match s.rebuild? with
  | none => s
  | some o =>
    if s.prot.rebuildPhase.val < 2 ∨ s.mcTodo ≠ [] ∨ s.todo ≠ [] ∨ s.prot.works ≠ [] then s
    else if s.away ≠ [] then
      if o.st = .blocked then (s.modOp o.handle fun o => { o with st := .running }).rebuildTo 4 1 else s.rebuildTo 4 s.prot.rebuildState
    else
      let s := (s.endOp o.handle .completed 0).raiseProt 5 noSource
      let s := (s.rebuildTo 0 0).modProt fun p => { p with checkpoint := 0, checkAck := none, started := 0, homecoming := [] }
      (s.putCheckpoint 0).retireMembers

/-- A commit is where a rebuild is suspended or cancelled, or goes on (R365). -/
def State.commitPoint (s : State) : State :=
  match s.rebuild? with
  | none => s
  | some o =>
    if o.cancelAsked then
      if s.prot.works.all fun w => w.kind != .rebuild then (s.endOp o.handle .cancelled (Config.cancelResult 1)).rebuildCancelled else s
    else if o.suspendAsked = true ∧ o.byPs3 = false then (s.opPoint o.handle).rebuildTo s.prot.rebuildPhase 2
    else s.rebuildEnd

/-- A stripe has been committed: it counts once none of its chunks is missing any more (R357, Table 9-10). -/
def State.stripeDone (g : Group) (i : Nat) (s : State) : State :=
  match s.rebuild? with
  | none => s
  | some o =>
    if s.prot.rebuildPhase.val < 2 then s
    else if s.missingOf g i ≠ [] then s.commitPoint
    else ((s.modProt fun p => { p with rebuildDone := p.rebuildDone + 1 }).modOp o.handle fun o => { o with done := o.done + 1 }).commitPoint

/-- The position, in the order of R356, below which every stripe that the rebuild has taken is committed (R362). -/
def State.committedBelow (s : State) : Nat :=
  ((s.prot.works.filter fun w => w.kind == .rebuild).map Work.order).foldl min s.prot.started

/-- The work on a stripe ends with its new places committed without any write (Table 9-8, zone reset and deletion). -/
def State.endWorks (g : Group) (i : Nat) (s : State) : State :=
  let ws := s.prot.works.filter fun w => w.group == g.number && w.stripe == i
  if ws = [] then s
  else
    let s := s.modProt fun p => { p with works := p.works.filter fun w => !(w.group == g.number && w.stripe == i) }
    let s := s.each ws fun w s =>
      let s := s.commitPlaces g i w.targets (w.kind == .reallocate)
      s.each w.targets fun q s => (s.excRec g.number i q.1 q.2).modProt (Prot.dropChunk q.2)
    if ws.any fun w => w.kind == .rebuild || w.kind == .resync then s.stripeDone g i else s.commitPoint

/-- Work in progress ends uncommitted: its targets are released, and its stripes are to be taken again, which the position below which
every stripe is committed shows (R362, R363). -/
def State.dropWorks (f : Work → Bool) (s : State) : State :=
  let low := ((s.prot.works.filter fun w => f w && w.kind == .rebuild).map Work.order).foldl min s.prot.started
  s.modProt fun p => { p.releaseWorks f with started := low }

/-- With no stripe of the rebuild in progress, a cancel or suspend that waited for one takes effect (R365). -/
def State.worksGone (s : State) : State :=
  match s.rebuild? with
  | some o =>
    if (s.prot.works.all fun w => w.kind != .rebuild) = true ∧ (o.cancelAsked = true ∨ o.suspendAsked = true) then s.commitPoint else s
  | none => s

/-- An HDA admitted on port p takes the place of the member of port q, empty: what lay there is to be rebuilt onto it, and Understudy
returns what it had put elsewhere (R330, R364). -/
def State.seatMember (p q : PortId) (serial : BitVec 160) (b0 b1 : Nat) (slips : List (Nat × List Nat)) (s : State) : State :=
  let kept (pl : Place) : Bool := s.prot.excs.any fun e => e.place == pl
  let old := s.member p
  let slots := ((s.member q).slotsUsed.filter fun e => e.2 != 1) ++ old.slotsUsed.filter fun e => e.2 == 1 && kept (.pool p e.1)
  let spares := old.spareUsed.filter fun k => kept (.spare p k)
  let reserves := old.reserveUsed.filter fun k => kept (.reserve p k)
  let s := (s.modProt (Prot.eraseSys serial)).dropWorks fun w => w.targets.any fun x => x.2.port == p || x.2.port == q
  let s := s.when (q != p) (State.modMember q fun _ => Member.reset)
  let s := s.modProt fun t => { t with groups := t.groups.map fun g => { g with members := g.members.map fun x => if x = q then p else x } }
  let s := s.modMember p fun _ => { Member.reset with
    st := .member, serial := serial, bands0 := b0, bands1 := b1, slotsUsed := slots, spareUsed := spares, reserveUsed := reserves
    slips := slips }
  let s := s.modProt fun t => { t with
    sectors := t.sectors.filter fun x => x.place.port != p && x.place.port != q
    bad := t.bad.filter fun x => x.1.port != p, marked := t.marked.filter fun x => x.port != p
    homecoming := if t.homecoming.contains p then t.homecoming else t.homecoming ++ [p] }
  let empty := s.stripes.flatMap fun g => ((List.range g.1.width).filter fun j => (s.placeOf g.1 g.2 j).port == p).map fun j =>
    (g.1.number, g.2, j)
  s.modProt fun t => { t with touched := t.touched ++ empty.filter fun e => !t.touched.contains e }

/-- Stripes in progress end uncommitted, and the checkpoint of a takeover is where the rebuild goes on: a rebuild of this controller
stands until REBUILD_RESUME; one of the peer's, which its records tell, is taken up, at its start where no checkpoint was taken yet, and one
that waited for rebuild_delay waits on (R355, R363). -/
def State.takeRebuild (s : State) : State :=
  let s := s.modProt (Prot.releaseWorks fun _ => true)
  match s.rebuild? with
  | some o => if o.st = .waiting then s else s.rebuildTo 0 0
  | none =>
    if s.prot.peerRebuild then
      let q := s.newRebuild .running 3
      ((q.1.modOp q.2 fun o => { o with done := s.prot.checkpoint }).modProt fun p => { p with peerRebuild := false }).rebuildTo 0 0
    else if s.absentSince.isSome then s.rebuildWaits
    else s

end Sys2Proof.Machine
end

