-- ==== Sys2Proof/Machine/Ready.lean ====
section
/-! DEFINITION. Service and readiness: a port enters service, a namespace becomes ready, bring-up steps 12 to 14
(spec/02 R82, R89, Table 2-9; spec/03 Table 3-15). -/

namespace Sys2Proof.Machine

/-- A port at its run speed with every side that serves in track-follow enters service (spec/02 R82; spec/04 R157). -/
def State.tryService (p : PortId) (s : State) : State :=
  let x := s.port p
  let v := s.spin p
  let ok := x.train == 9 && x.obeyed && x.persVerified && s.mayGoOn p && !x.removed && v.st == .atSpeed && v.atRun &&
    x.sides.all (fun sd => (s.act (actOf p sd)).outOfService || (s.act (actOf p sd)).region == .follow) &&
    x.sides.any fun sd => !(s.act (actOf p sd)).outOfService
  if ok then (s.modPort p fun x => { x with inService := true, entered := true }).noteService p else s

/-! ## Readiness -/

/-- Ports that hold chunks of a namespace: those of the places of every chunk of its groups. -/
def State.nsPorts (s : State) (ns : Nat) : List PortId :=
  (s.prot.groups.filter fun g => g.ns == ns).flatMap fun g =>
    (List.range g.h).flatMap fun i => (List.range g.width).map fun j => (s.placeOf g i j).port

/-- A port has entered service since bring-up, or is reported failed, or holds no HDA (spec/02 R89; a port held for its personality
data counts as reported failed, DEDUCED, log 19). -/
def State.portSettled (s : State) (p : PortId) : Bool :=
  !s.pins.prsnt.getLsbD p.val || (s.port p).entered || (s.port p).train == 0xA || (s.port p).fail != 0

/-- The same of a port whichever controller owns it: no message of the spec tells this controller when an HDA of the peer has entered
service or failed, so for the peer's ports it is a free value at each instant (log 96). -/
def State.portServed (s : State) (p : PortId) : Bool :=
  if s.peerOwns p then !s.pins.prsnt.getLsbD p.val || Config.peerSettled p.val s.now else s.portSettled p

/-- A port that this controller brings up: the peer brings up its own. -/
def State.portDone (s : State) (p : PortId) : Bool := s.peerOwns p || s.portSettled p

/-- A namespace whose HDAs have settled: its root table and directory pages, if they are not in DRAM, are read into the map directory,
but for a page that a dump has brought back newer (spec/10 R389, R401). While one of them cannot be read the namespace does not become ready (DEDUCED, log 130). -/
def State.loadDir (x : Ns) (s : State) : State :=
  if s.names.dirsOut.contains x.nsid ∧ (s.nsPorts x.nsid).all s.portServed = true then
    match s.readDir x with
    | some l => s.modNames fun n => { n with
        dirsOut := n.dirsOut.filter (· != x.nsid)
        mapDir := n.mapDir.filter (fun q => q.1 != x.nsid || n.dirsDirty.contains (q.1, q.2.1 / 512)) ++
          (l.filter fun q => !n.dirsDirty.contains (x.nsid, q.1 / 512)).map fun q => (x.nsid, q) }
    | none => s
  else s

/-- A namespace can be ready: its HDAs have settled, its map directory is in DRAM, and the write pointers of its zones that were open
have been found (spec/02 R89; spec/10 R384, R389). -/
def State.nsSettled (s : State) (x : Ns) : Bool :=
  (s.nsPorts x.nsid).all s.portServed && !s.names.dirsOut.contains x.nsid && s.names.toFind.all fun q => q.1 != x.nsid

/-- Namespaces become ready (spec/02 R89), after the dump and the journal have been restored (spec/10 R401, spec/13
R501), not in PS3 (spec/11 R446); a namespace that is ready stays so. -/
def State.noteReady (s : State) : State :=
  if s.boot.complete ∧ s.boot.restored ∧ s.boot.replayed ∧ ¬ s.power.inPs3 then
    let s := s.each (s.names.nss.filter fun x => !x.ready) State.loadDir
    s.modNames fun n => { n with nss := n.nss.map fun x => if x.ready then x else { x with ready := s.nsSettled x } }
  else s

/-- Steps 12, 13 and 14 of spec/02 Table 2-9. -/
def State.noteProgress (s : State) : State :=
  let present := (fins 32).filter fun p => s.pins.prsnt.getLsbD p.val
  let good := present.filter fun p => (s.port p).persVerified
  if s.boot.complete = false then s
  else
    let s := if s.ident.sealed ∧ (present.all fun p => (s.port p).persVerified || (s.port p).fail != 0) = true
        ∧ (good = [] ∨ (good.any fun p => (s.spin p).starts != 0) = true) then s.setStep 12 else s
    let served := (present.filter fun p => (s.port p).inService).length
    let s := if s.aon.step.toNat = 12 ∧ min s.boot.spinGroup good.length ≤ served then s.setStep 13 else s
    if s.aon.step.toNat = 13 ∧ present.all s.portDone = true ∧ (s.names.nss.all fun n => n.ready) = true then s.setStep 14
    else s

/-- The ports taken from the peer are all in service or have failed: HANDOVER is answered (spec/18 R653). -/
def State.takenDone (s : State) : State :=
  match s.pair.taking with
  | some (ports, groups) =>
    if (fins 32).all fun p => !ports.getLsbD p.val || s.portDone p then
      (s.modPair fun q => { q with taking := none }).sendWings 0x09 [ports.toNat, groups.toNat, s.pair.epoch.toNat, 1] []
    else s
  | none => s

/-- Both, after a port's service has changed; leaving PS3 is over once every port has settled (spec/01 R41). -/
def State.settle (s : State) : State :=
  let s := s.noteReady.noteProgress.takenDone
  s.when (s.power.leaving && (fins 32).all s.portDone) fun s =>
    (s.modPower fun w => { w with leaving := false }).noteServices

/-! ## Ports handed over to the peer (spec/18 R653, R654) -/

/-- A port is being handed over. -/
def State.handsOver (s : State) (p : PortId) : Bool := match s.pair.handing with
  | some h => h.ports.getLsbD p.val
  | none => false

/-- A port's operations have ended and both its sides are unloaded. -/
def State.handReady (s : State) (p : PortId) : Bool :=
  (fins 2).all fun sd => (s.seq (actOf p sd)).op.isNone && !(s.act (actOf p sd)).loaded && !(s.act (actOf p sd)).loading

/-- Once every port named is ready, and a COMP_FW on one of them has been answered (spec/19 Table 19-12), HANDOVER is sent with the
new epoch; the spindles are driven on until their companions are fenced. Its payload: ports, groups, epoch, phase. -/
def State.handSend (s : State) : State :=
  match s.pair.handing with
  | some h =>
    let waits := match s.svc.comp with
      | some c => h.ports.getLsbD c.port.val
      | none => false
    if h.sent = true ∨ h.ports = 0 ∨ waits = true ∨ ((fins 32).all fun p => !h.ports.getLsbD p.val || s.handReady p) = false then s
    else
      (s.modPair fun q => { q with handing := some { h with sent := true }, epoch := h.epoch, own := q.own &&& ~~~h.ports
                                   peerOwn := q.peerOwn ||| h.ports }).sendWings 0x09
        [h.ports.toNat, h.groups.toNat, h.epoch.toNat, 0] []
  | none => s

end Sys2Proof.Machine
end

