-- ==== Sys2Proof/Machine/Link.lean ====
section
/-! DEFINITION. Family Link: the command lane, request timeouts, presence of the recovered clock, and crossings (spec/03
R92 to R114; spec/14 R526 to R537). -/

namespace Sys2Proof.Machine

/-! ## Command lane (spec/03 R94 to R100) -/

/-- A block header (spec/03 Table 3-3). -/
def blockHeader (type : Nat) (side : Nat) (first last : Bool) (detail seq : Nat) : List Byte :=
  leBytes 4 (type * 2 ^ 28 + side * 2 ^ 27 + bit first * 2 ^ 26 + bit last * 2 ^ 25 + detail * 2 ^ 13 + seq)

/-- The payload of an alignment block (spec/03 Table 3-2). -/
def alignmentPayload (linkTime : Nat) (lock : Bool) : List Byte :=
  blockHeader 0xF 0 false false 0 0 ++ (ascii "IZLKIZLK") ++ leBytes 6 linkTime ++ leBytes 1 (bit lock) ++
    (scramble prbsOnes (List.replicate 237 0)).1

/-- Packets that a block's 252 content bytes take: those of the list in order until one does not fit, and their bytes; a block carries
packets of one class of R100 only (DESIGN CHOICE, log 123: R100 and R112 do not say). -/
def fillBlock : Nat → List Packet → Nat × List Byte
  | _, [] => (0, [])
  | room, k :: r =>
    let b := k.bytes
    if b.length ≤ room then let q := fillBlock (room - b.length) r; (q.1 + 1, b ++ q.2) else (0, [])

/-- The first write-bit block that waits for a side, with its place, where the companion's buffer takes it: a side's blocks go in gate
order (spec/03 R111). -/
def Port.firstWrite (x : Port) (room : WriteBits → Bool) (sd : Side) : Option (WriteBits × Nat) :=
  (x.writes.zipIdx.find? fun q => q.1.side == sd).filter fun q => room q.1

/-- The write-bit block to be sent next: of the side whose write gate opens sooner (spec/03 R100); of two that open at the same
time the one queued first (DESIGN CHOICE, log 101). `room`: the companion's buffer takes the block. -/
def Port.nextWrite (x : Port) (room : WriteBits → Bool) : Option (Nat × WriteBits) :=
  match x.firstWrite room 0, x.firstWrite room 1 with
  | some a, some b =>
    if b.1.openTime < a.1.openTime ∨ (b.1.openTime = a.1.openTime ∧ b.2 < a.2) then some (b.2, b.1) else some (a.2, a.1)
  | some a, none => some (a.2, a.1)
  | none, some b => some (b.2, b.1)
  | none, none => none

/-- The next block of a command lane: its payload, whether it is scrambled, and the port with what it sent removed
(spec/03 R100). -/
def Port.nextBlock (x : Port) (linkTime : Nat) (room : WriteBits → Bool) : List Byte × Bool × Port :=
  if x.txPos = 0 then (alignmentPayload linkTime x.blockLock, false, { x with txScram := prbsOnes })
  else
    let packets (q : Nat × List Byte) (x : Port) : List Byte × Bool × Port :=
      (blockHeader 0x3 0 false false q.2.length x.txSeq.toNat ++ padTo 252 q.2, true, { x with txSeq := x.txSeq + 1 })
    if x.urgent ≠ [] then
      let q := fillBlock 252 x.urgent
      packets q { x with urgent := x.urgent.drop q.1 }
    else
      match x.nextWrite room with
      | some (i, w) =>
        let seq := if w.side = 0 then x.txSeq0 else x.txSeq1
        let x := { x with writes := dropAt i x.writes }
        (blockHeader 0x4 w.side.val w.first w.last w.count seq.toNat ++ leBytes 252 w.bits.toNat, true,
          if w.side = 0 then { x with txSeq0 := seq + 1 } else { x with txSeq1 := seq + 1 })
      | none =>
        if x.normal ≠ [] then
          let q := fillBlock 252 (x.normal.map Prod.snd)
          packets q { x with normal := x.normal.drop q.1 }
        else (blockHeader 0x0 0 false false 0 0 ++ List.replicate 252 0, true, x)

/-- Bits that the companion's write-bit buffer of an actuator holds: of the blocks not yet written (spec/03 R109). -/
def State.heldBits (s : State) (a : ActId) : Nat :=
  (((s.pool a).held.filter fun q => decide (s.ticksNow < q.1)).map Prod.snd).sum

/-- The companion takes a further write-bit block: never more than 64 KiB of a side (spec/07 R275). -/
def State.bitsRoom (s : State) (p : PortId) (w : WriteBits) : Bool := decide (s.heldBits (actOf p w.side) + w.count ≤ 524288)

/-- A write-bit block has been sent: it counts for its encoder and lies in the companion's buffer (spec/07 R275). -/
def State.noteBits (p : PortId) (w : WriteBits) (s : State) : State :=
  s.modPool (actOf p w.side) fun x => { x with
    sent := x.sent + w.count, held := (w.doneAt, w.count) :: x.held.filter fun q => decide (s.ticksNow < q.1) }

/-- COMMAND_LANE_BLOCK_SEND: one block leaves on the command lane (spec/03 R93 to R100, R104). -/
def execCommandLaneBlockSend (p : PortId) (s : State) : Host.Outcome State Fault Refusal :=
  .next <|
    if (s.port p).cmdUp then
      let y := s.port p
      let q := y.nextBlock s.linkNow.toNat (s.bitsRoom p)
      let x := q.2.2
      let sent := if q.2.1 then scramble x.txScram q.1 else (q.1, x.txScram)
      let s := match y.nextWrite (s.bitsRoom p) with
        | some w => if x.writes.length < y.writes.length then s.noteBits p w.2 else s
        | none => s
      let s := s.modPort p fun _ => { x with txScram := sent.2, txPos := (x.txPos + 1) % 8192 }
      if s.isStale (.port p) then s.discard else s.emitOut (.lineBlock p (fecEncode sent.1))
    else s

/-! ## Sample lane (spec/03 R93 to R98) -/

/-- One more sequence error. -/
def State.seqError (p : PortId) (s : State) : State := s.modPort p fun x => { x with seqErr := sat32 x.seqErr 1 }

/-- Four uncorrectable blocks within 1 s on a lane cause a port reset (spec/03 R139). -/
def State.lanesBad (p : PortId) (s : State) : State :=
  let x := s.port p
  if 4 ≤ (recent s.now Config.sec x.smpBadAt).length ∨ 4 ≤ (recent s.now Config.sec x.cmdBadAt).length then
    (s.portReset p).settle
  else s

/-- A stream takes a block: whether seq has a gap, whether the block is to be discarded with its gate, and the stream
after it (spec/03 R97, R98). -/
def Stream.take (t : Stream) (first last : Bool) (seq : BitVec 13) : Bool × Bool × Stream :=
  let gap := seq != t.next
  let drop := !first && (t.discard || gap)
  (gap, drop, { t with next := seq + 1, discard := drop && !last })

/-- The pairs of a block join those of its gate. -/
def Stream.note (first drop : Bool) (head : Nat) (pairs : List SamplePair) (t : Stream) : Stream :=
  if drop then { t with pairs := [] } else { t with head := head, pairs := if first then pairs else t.pairs ++ pairs }

/-- The sample lane of a port delivers blocks: its recovered clock is there, its joint reset released and its crossing
not stale (spec/14 R535, R536). -/
def State.laneLive (p : PortId) (s : State) : Bool :=
  (s.port p).clock && !(s.port p).joint && !s.xing.stalePort.getLsbD p.val

/-- What a corrected and descrambled sample-lane block brings (spec/03 Table 3-4). -/
inductive Arrival where
  | nothing
  /-- the last block of a servo gate: its side, and whether the gate is whole -/
  | servo (side : Side) (whole : Bool)
  /-- the last block of a data gate -/
  | data (side : Side) (whole : Bool)

/-- Blocks of a group on a lane (spec/03 R95). -/
def groupBlocks : Nat := 8192

/-- The sample lane has brought a block of its group. -/
def Port.nextPos (x : Port) : Option Nat := x.rxPos.map fun n => (n + 1) % groupBlocks

/-- A block that is discarded whole, as one that finds its FIFO full (spec/14 R528): counted (spec/03 R98). The scrambler runs on over
its payload, or begins anew after it where it was the alignment block (R94). -/
def State.blockDropped (p : PortId) (s : State) : State :=
  (s.seqError p).modPort p fun x => { x with
    rxPos := x.nextPos, scram := if x.rxPos = some 0 then prbsOnes else prbsSkip 256 x.scram }

/-- A block that cannot be corrected: discarded, and the port reset at its limit (spec/03 R93, R98, R139). -/
def State.blockLost (p : PortId) (s : State) : State :=
  ((s.blockDropped p).modPort p fun x => { x with
    smpUncorr := sat32 x.smpUncorr 1, smpBadAt := s.now :: recent s.now Config.sec x.smpBadAt }).lanesBad p

/-- An alignment block: the scrambler begins anew, the companion's block lock and link time are taken, and training state 4 counts
those in place that report the lock (spec/03 R94, R95, Table 3-12). -/
def Port.align (lock : Bool) (time : Nat) (x : Port) : Port :=
  let inPlace := match x.rxPos with
    | some n => n == 0
    | none => true
  { x with scram := prbsOnes, rxPos := some 1, compLock := lock, compTime := time
           aligned := if lock then (if inPlace then x.aligned + 1 else 1) else 0 }

/-- The read gate that a first data block begins: of the gates whose samples have not begun to come, the last that is open, else
the first (DEDUCED, log 99). -/
def State.gateBegun (s : State) (a : ActId) (x : Eng) : Nat :=
  let l := ((s.seq a).gates.filter fun g => !g.write && !(x.window.any fun r => r.gate == g.openTime)).map Gate.openTime
  ((l.filter fun t => decide (t ≤ s.ticksNow)).getLast?.or l.head?).getD 0

/-- The crossbar: a data block's pairs go to the engine bound to its actuator, numbered by the head's entry; with no engine bound the
block is discarded and counted (spec/07 R248, R250). -/
def State.crossbar (p : PortId) (sd : Side) (head : Nat) (first : Bool) (pairs : List SamplePair) (s : State) : State :=
  let a := actOf p sd
  match s.engineOf a with
  | none => s.seqError p
  | some e =>
    let swap := match (s.pcal p).format with
      | some f => (f.head sd (Fin.ofNat 12 head)).swap
      | none => false
    let gate := if first then some (s.gateBegun a (s.eng e)) else none
    s.modEng e (Eng.takePairs gate (if swap then pairs.map SamplePair.swap else pairs))

/-- A block received: corrected, descrambled and routed. An alignment block is known by its marker and is not
scrambled (DEDUCED, log 18). On the lane each byte is four levels (R92). -/
def State.receiveBlock (p : PortId) (bytes : List Byte) (s : State) : State × Arrival :=
  match fecDecode (laneBytes (laneLevels bytes)) with
  | none => (s.blockLost p, .nothing)
  | some (raw, errors) =>
    let s := s.when (errors != 0) (State.modPort p fun x => { x with smpCorr := sat32 x.smpCorr 1, chkCorr := x.chkCorr + 1 })
    if field raw 0 4 = 0xF0000000 ∧ (raw.drop 4).take 8 = ascii "IZLKIZLK" then
      (s.modPort p (Port.align (decide (field raw 18 1 % 2 = 1)) (field raw 12 6)), .nothing)
    else
      let q := scramble (s.port p).scram raw
      let s := s.modPort p fun x => { x with scram := q.2, rxPos := x.nextPos }
      let h := field q.1 0 4
      let type := h / 2 ^ 28
      let side : Side := if h / 2 ^ 27 % 2 = 1 then 1 else 0
      let first := decide (h / 2 ^ 26 % 2 = 1)
      let last := decide (h / 2 ^ 25 % 2 = 1)
      let seq := BitVec.ofNat 13 (h % 8192)
      let detail := h / 2 ^ 13 % 2 ^ 12
      let head := detail / 2 ^ 8
      let pairs := samplePairs ((q.1.drop 4).take 252) (detail % 2 ^ 8)
      let counted (gap : Bool) (s : State) : State := s.when gap (State.seqError p)
      if type = 0 then (s, .nothing)
      else if type = 3 then
        let r := (s.port p).packets.take true true seq
        let k := parsePackets 64 ((q.1.drop 4).take (min 252 detail))
        (counted r.1 (s.modPort p fun x => { x with packets := r.2.2, rx := x.rx ++ k.1, seqErr := sat32 x.seqErr k.2 }), .nothing)
      else if type = 1 then
        let r := (if side = 0 then (s.port p).data0 else (s.port p).data1).take first last seq
        let s := s.modPort p fun x => if side = 0 then { x with data0 := r.2.2 } else { x with data1 := r.2.2 }
        let s := counted r.1 s
        let bound := (s.engineOf (actOf p side)).isSome
        (s.when (!r.2.1) (State.crossbar p side head first pairs), if last then .data side (!r.2.1 && bound) else .nothing)
      else if type = 2 then
        let r := (if side = 0 then (s.port p).servo0 else (s.port p).servo1).take first last seq
        let t := r.2.2.note first r.2.1 head pairs
        let s := s.modPort p fun x => if side = 0 then { x with servo0 := t } else { x with servo1 := t }
        (counted r.1 s, if last then .servo side (!r.2.1) else .nothing)
      else (s.seqError p, .nothing)

/-! ## Requests without an answer (spec/03 R114, R138) -/

/-- A port's training fails: its namespaces need not wait for it any longer (spec/02 R89; spec/03 R138). -/
def State.trainFails (p : PortId) (reason : Fin 16) (s : State) : State := (s.portFail p reason).settle

/-- A training attempt ends: a second from state 2, then failure (spec/03 R138). -/
def State.attemptFails (p : PortId) (s : State) : State :=
  let x := s.port p
  if inRange 2 5 x.train.val then
    if x.attempt = 1 then
      s.modPort p fun x => { x with attempt := 2, train := 2, stateAt := s.now, blockLock := false, rxPos := none, inService := false }
    else s.trainFails p ⟨x.train.val - 1, by omega⟩
  else if inRange 6 8 x.train.val then s.trainFails p ⟨x.train.val - 1, by omega⟩
  else s

/-- PACKET_RESPONSE_TIMEOUT: the request is counted and sent again, at most twice; the third ends the attempt of a port
in training, else resets the port (spec/03 R114, R138, R139). -/
def execPacketResponseTimeout (p : PortId) (tag : Byte) (s : State) : Host.Outcome State Fault Refusal :=
  .next <|
    match (s.port p).requests.find? fun r => r.packet.tag == tag && r.busyAt.isNone with
    | none => s
    | some r =>
      let s := s.at_ (r.sentAt + requestTimeout r.packet.opcode.toNat)
      let s := s.modPort p fun x => { x with pktTimeout := sat32 x.pktTimeout 1 }
      if r.sends < 3 then s.resend p r fun q => { q with sends := q.sends + 1 }
      else if inRange 2 8 (s.port p).train.val then (s.answered p r).attemptFails p
      else (s.portReset p).settle

/-! ## Recovered clock and crossings (spec/14) -/

/-- A port reset of a port that holds no HDA that trains leaves it untrained (DEDUCED, log 82). -/
def State.portResetKeep (p : PortId) (s : State) : State :=
  let x := s.port p
  let s := s.portReset p
  s.when (x.train == 0 && !(s.port p).marked) fun s => (s.modPort p fun y => { y with train := 0, inService := false }).noteService p

/-- CLOCK_PRESENT_CLEAR: no toggle for 16 fabric clocks; the port reset of R139 follows, but for a lane switched off in PS3, and for a
port whose port reset is under way with its joint reset held (spec/14 R531, R537). -/
def execClockPresentClear (p : PortId) (clocks : Nat) (s : State) : Host.Outcome State Fault Refusal :=
  .next <|
    if clocks < 16 ∨ (s.port p).clock = false then s
    else
      let s := s.modPort p fun x => { x with clock := false, blockLock := false }
      let x := s.port p
      if x.train = 0xC ∨ (x.train = 0xB ∧ x.joint = true) then s else (s.portResetKeep p).settle

/-- STALE_CROSSING: one half of a crossing has seen a reset alone; what was in flight is discarded and counted (spec/14
R536); a lane off in PS3 goes into no stale state (R537). -/
def execStaleCrossing (x : Crossing) (inFlight : Nat) (s : State) : Host.Outcome State Fault Refusal :=
  .next <|
    let off := match x with
      | .port p => decide ((s.port p).train = 0xC)
      | _ => false
    if off then s
    else
      (s.modXing fun t => { t with
        stalePort := match x with
          | .port p => setBit t.stalePort p.val
          | _ => t.stalePort
        staleOther := match x with
          | .pcieA => setBit t.staleOther 0
          | .pcieB => setBit t.staleOther 1
          | .wings => setBit t.staleOther 2
          | .port _ => t.staleOther
        discards := sat32 t.discards inFlight }).raiseXing 0

/-- A count of link events is added to its PORT counter, of Table 3-14 in its order from 0x20 (spec/14 R527). -/
def Port.countEvents (e : Fin 6) (n : Nat) (x : Port) : Port := match e with
  | 0 => { x with smpCorr := sat32 x.smpCorr n }
  | 1 => { x with smpUncorr := sat32 x.smpUncorr n }
  | 2 => { x with seqErr := sat32 x.seqErr n }
  | 3 => { x with gateErr := sat32 x.gateErr n }
  | 4 => { x with pktTimeout := sat32 x.pktTimeout n }
  | 5 => { x with cmdUncorr := sat32 x.cmdUncorr n }

/-- PULSE_TRANSFER: the pulses of one acknowledge phase are delivered as a count of 1 to 255; more mark it saturated (spec/14 R526,
R527); a stale crossing discards them (R536). A doorbell pulse carries no value; link events of a port go to the counter that `event`
names (DESIGN CHOICE, log 142: events that no other command presents). -/
def execPulseTransfer (x : Crossing) (pulses : Pulses) (s : State) : Host.Outcome State Fault Refusal :=
  .next <|
    if pulses.count = 0 then s
    else if s.isStale x then s.discard
    else
      let s := s.modXing fun t => { t with delivered := (x, min 255 pulses.count, decide (255 < pulses.count)) :: t.delivered }
      let s := match x with
        | .port p => s.modPort p (Port.countEvents pulses.event (min 255 pulses.count))
        | _ => s
      if 255 < pulses.count then s.raiseXing 1 else s

end Sys2Proof.Machine
end

