-- ==== Sys2Proof/Machine/Dram.lean ====
section
/-! DEFINITION. DRAM addresses, inline check bits and the check-burst cache (spec/13 R495 to R498). -/

namespace Sys2Proof.Machine

/-! ## Addresses (R495, R496) -/

/-- Channel, granule and channel-local address of a data address of the usable space. -/
def dramChannel (addr : Nat) : Fin 8 := Fin.ofNat 8 (addr / 256)
def dramGranule (addr : Nat) : Nat := addr / 2048
def dramLocal (addr : Nat) : Nat := 256 * dramGranule addr + addr % 256

/-- C and G of a channel. -/
def Mem.channelBytes (m : Mem) : Nat := m.capacityGib * 134217728
def Mem.channelGranules (m : Mem) : Nat := m.channelBytes / 288

/-- The rank that holds a channel-local address: the ranks of a channel follow each other, rank 0 first. -/
def Mem.rankOf (m : Mem) (addr : Nat) : Nat := if addr * m.ranks < m.channelBytes then 0 else 1

/-- Channel-local address of the check burst of a granule, and of the eight check bytes of a data address's line. -/
def Mem.checkBurst (m : Mem) (granule : Nat) : Nat := 256 * m.channelGranules + 32 * granule
def Mem.checkBytes (m : Mem) (addr : Nat) : Nat := m.checkBurst (dramGranule addr) + 8 * (addr / 64 % 4)

/-- Channel-local address of the check byte that protects the 8-byte word of a data address. -/
def Mem.checkByte (m : Mem) (addr : Nat) : Nat := m.checkBytes addr + addr / 8 % 8

/-- 256-byte granules of the usable DRAM: G of each of the eight channels. -/
def Mem.granules (m : Mem) : Nat := 8 * m.channelGranules

/-! ## The regions of DRAM (R499, Table 13-3) -/

/-- MiB in bytes. -/
def mib : Nat := 1048576

inductive DramRegion where
  | firmware | tables | calibration | captures | rebuild | spill | directory | writeBuffer | peerMirror | mapPages
  deriving DecidableEq, Repr

/-- First MiB of the write-buffer region: the fixed regions before it. -/
def bufferBaseMib : Nat := 3940

/-- First byte and size of a region; the map-page area is the remainder. -/
def Mem.region (m : Mem) : DramRegion → Nat × Nat
  | .firmware => (0, 1024 * mib)
  | .tables => (1024 * mib, 512 * mib)
  | .calibration => (1536 * mib, 4 * mib)
  | .captures => (1540 * mib, 96 * mib)
  | .rebuild => (1636 * mib, 1024 * mib)
  | .spill => (2660 * mib, 256 * mib)
  | .directory => (2916 * mib, 1024 * mib)
  | .writeBuffer => (bufferBaseMib * mib, m.bufferMib * mib)
  | .peerMirror => ((bufferBaseMib + m.bufferMib) * mib, m.mirrorMib * mib)
  | .mapPages =>
    let base := (bufferBaseMib + m.bufferMib + m.mirrorMib) * mib
    (base, 256 * m.granules - base)

/-- A data address lies in a region. -/
def Mem.within (m : Mem) (r : DramRegion) (addr : Nat) : Bool :=
  decide ((m.region r).1 ≤ addr) && decide (addr < (m.region r).1 + (m.region r).2)

/-! ## On-chip SRAM (R502, R503, Table 13-4) -/

inductive SramUse where
  | captureBuffers | sampleFifos | mapCache | contexts | staging | firmware | recorder | servoTables | patchMemory | reserve
  deriving DecidableEq, Repr

/-- Offset and size of a use, in bytes. -/
def sramUse : SramUse → Nat × Nat
  | .captureBuffers => (0, 6 * mib)
  | .sampleFifos => (6 * mib, 4 * mib)
  | .mapCache => (10 * mib, 8 * mib)
  | .contexts => (18 * mib, 2 * mib)
  | .staging => (20 * mib, 16 * mib)
  | .firmware => (36 * mib, 8 * mib)
  | .recorder => (44 * mib, mib)
  | .servoTables => (45 * mib, mib)
  | .patchMemory => (46 * mib, mib / 2)
  | .reserve => (46 * mib + mib / 2, 3 * mib / 2)

/-- An SRAM offset lies in a use. -/
def sramWithin (u : SramUse) (off : Nat) : Bool := decide ((sramUse u).1 ≤ off) && decide (off < (sramUse u).1 + (sramUse u).2)

/-- Data and check bits of an SRAM word; words of the 48 MiB. -/
def sramDataBits : Nat := 64
def sramCheckBits : Nat := 8
def sramWords : Nat := 48 * mib / 8

/-- The words that an SRAM write touches, each with whether it is read, changed and written: only a write of whole aligned words writes
at once (R503). -/
def sramWrites (off len : Nat) : List (Nat × Bool) :=
  let narrow := decide (off % 8 ≠ 0 ∨ len % 8 ≠ 0)
  if len = 0 then [] else (List.range ((off + len - 1) / 8 + 1 - off / 8)).map fun i => (off / 8 + i, narrow)

/-! ## Retired pages (R508) -/

/-- Pages that can be retired. -/
def sparePages : Nat := 256

/-- The spare page of the n-th retired one: from the top of the map-page area down. -/
def Mem.sparePage (m : Mem) (n : Nat) : Nat := 256 * m.granules / 4096 - 1 - n

/-- The page that backs a page: its spare one if it is in the retired list of the configuration store, which so is in force from every
bring-up on. -/
def State.backingPage (s : State) (page : Nat) : Nat :=
  s.nor.config.retired.zipIdx.foldl (fun p q => if p = q.1 then s.mem.sparePage q.2 else p) page

/-! ## Check-burst cache (R497) -/

/-- Check bursts that the cache of a channel holds: 8 KiB of 32 bytes. -/
def checkWays : Nat := 256

/-- A check burst goes over a channel. -/
def Mem.checkTraffic (ch : Fin 8) (write : Bool) (granule : Nat) (m : Mem) : Mem :=
  { m with bursts := { channel := ch, write := write, addr := m.checkBurst granule } :: m.bursts }

/-- The check bits of an access: a cached burst needs no access to DRAM; else the burst is read, and one displaced by it is written
before when it is dirty. Which one is displaced is a free value (`pick`). -/
def Mem.checkAccess (addr : Nat) (write : Bool) (pick : Nat) (m : Mem) : Mem :=
  let ch := dramChannel addr
  let g := dramGranule addr
  let l := m.checks[ch]
  match l.find? fun q => q.1 == g with
  | some q => { m with checks := upd m.checks ch fun _ => (g, q.2 || write) :: l.filter fun x => x.1 != g }
  | none =>
    let out := if l.length < checkWays then none else l[pick % checkWays]?
    let m := match out with
      | some (v, true) => m.checkTraffic ch true v
      | _ => m
    let m := m.checkTraffic ch false g
    { m with checks := upd m.checks ch fun _ => (g, write) :: (match out with
        | some q => l.filter fun x => x.1 != q.1
        | none => l) }

/-- An access to a DRAM data address; that of a retired page goes to its spare page (R508). -/
def State.dramAccess (addr : Nat) (write : Bool) (s : State) : State :=
  (s.modMem (Mem.checkAccess (4096 * s.backingPage (addr / 4096) + addr % 4096) write (Config.checkVictim s.free))).takeFree

/-- The 16 granules of a 4 KiB page are read or written. -/
def State.pageAccess (page : Nat) (write : Bool) (s : State) : State :=
  s.each (List.range 16) fun i s => s.dramAccess (4096 * page + 256 * i) write

end Sys2Proof.Machine
end

