-- ==== Sys2Proof/Machine/MapCache.lean ====
section
/-! DEFINITION. Family MapCache: the map-page area, the map cache and Map Cache Control (spec/13 R499, R511 to R520). -/

namespace Sys2Proof.Machine

/-! ## The map-page area (Table 13-3) -/

/-- DRAM data address of the map-page area. -/
def State.mapAreaBase (s : State) : Nat := (s.mem.region .mapPages).1

/-- A 4 KiB page lies in the write-buffer region, or in the peer-mirror region. -/
def State.inBuffer (s : State) (page : Nat) : Bool := s.mem.within .writeBuffer (4096 * page)
def State.inMirror (s : State) (page : Nat) : Bool := s.mem.within .peerMirror (4096 * page)

/-- A page may be retired now: in the write buffer and the peer mirror, once nothing there is held (spec/13 R508). -/
def State.mayRetire (s : State) (page : Nat) : Bool :=
  (!s.inBuffer page || s.names.unstored == []) && (!s.inMirror page || s.pair.mirrors == [])

/-- A page is retired, at most 256 of them: its contents are copied to its spare page, it is listed, with its event (spec/13 R508). -/
def State.retirePage (page : Nat) (s : State) : State :=
  if s.nor.config.retired.contains page ∨ sparePages ≤ s.nor.config.retired.length then s
  else
    let s := s.pageAccess page false
    ((s.modCfg fun c => { c with retired := c.retired ++ [page] }).pageAccess page true).raiseMem 5 []

/-- The pages whose retirement waited for their contents to go are retired. -/
def State.retireWaiting (s : State) : State :=
  let l := s.mem.retireDue.filter s.mayRetire
  (s.modMem fun m => { m with retireDue := m.retireDue.filter fun q => !l.contains q }).each l State.retirePage

/-- 4 KiB slots of the map-page area below the spare pages at its top, for all of which room is kept (DESIGN CHOICE, log 147). -/
def State.mapSlots (s : State) : Nat := (s.mem.region .mapPages).2 / 4096 - sparePages

/-- The slot of a map page, when it is in DRAM. -/
def State.pageSlot (s : State) (ns page : Nat) : Option Nat :=
  (s.names.pagesIn.find? fun q => q.1 == ns && q.2.1 == page).map fun q => q.2.2

/-- Group of 32 sets that a slot's 32 lines fall on. -/
def State.setGroup (s : State) (slot : Nat) : Nat := (s.mapAreaBase / 4096 + slot) % 128

/-- A line address, over 128, lies in a slot. -/
def State.inSlot (s : State) (k tag : Nat) : Bool :=
  let base := (s.mapAreaBase + 4096 * k) / 128
  decide (base ≤ tag) && decide (tag < base + 32)

/-- A line of the slot lies in a locked way, so its page is pinned there (R517). -/
def State.slotPinned (s : State) (k : Nat) : Bool :=
  s.mcache.sets.any fun x => x.ways.any fun w => s.mcache.locked.getLsbD w.1.val && s.inSlot k w.2.tag

/-- A slot that meets a test, for a page: the lowest free one within the area, else that of the first page which is clean and not pinned
(DESIGN CHOICE, logs 29 and 147), else the lowest free one (an area full of dirty and pinned pages: log 147). A retired page keeps its
slot, which its spare page backs (R508). -/
def State.freeMapSlot (s : State) (want : Nat → Bool) : Nat :=
  let used := s.names.pagesIn.map fun q => q.2.2
  let free := (List.range (used.length * 128 + 129)).filter fun n => !used.contains n && want n
  let clean := s.names.pagesIn.filter fun q => !s.names.pagesDirty.contains (q.1, q.2.1) && !s.slotPinned q.2.2 && want q.2.2
  ((free.find? fun n => decide (n < s.mapSlots)).or ((clean.map fun q => q.2.2).head?.or free.head?)).getD 0

/-- Lines go with no write-back: what they held has left DRAM. -/
def MapCache.forget (tags : Nat → Bool) (m : MapCache) : MapCache :=
  { m with sets := m.sets.map fun x => { x with ways := x.ways.filter fun w => !tags w.2.tag } }

/-- A slot is taken for a page, which is written there: no line of a page that held it before can be hit any more (spec/13 R519). -/
def State.takeSlot (ns page k : Nat) (s : State) : State :=
  let s := s.modCache (MapCache.forget (s.inSlot k))
  (s.modNames fun n => { n with
    pagesIn := n.pagesIn.filter (fun q => q.2.2 != k && !(q.1 == ns && q.2.1 == page)) ++ [(ns, page, k)] }).pageAccess
      (s.mapAreaBase / 4096 + k) true

/-- A map page is brought into a slot. -/
def State.pageIn (ns page : Nat) (s : State) : State :=
  if (s.pageSlot ns page).isSome then s else s.takeSlot ns page (s.freeMapSlot fun _ => true)

/-- Line address, over 128, of the map entry of a block whose page is in DRAM. -/
def State.lineTag (s : State) (ns lba : Nat) : Option Nat :=
  (s.pageSlot ns (lba / 512)).map fun k => (s.mapAreaBase + 4096 * k) / 128 + lba % 512 / 16

/-! ## Sets, ways and tree pseudo-LRU (R511) -/

def setOf (tag : Nat) : Fin 4096 := ⟨tag % 4096, by omega⟩

def CacheSet.empty (i : Fin 4096) : CacheSet := { index := i, ways := [], plru := 0 }

def MapCache.set (m : MapCache) (i : Fin 4096) : CacheSet := (m.sets.find? fun x => x.index == i).getD (CacheSet.empty i)

def MapCache.modSet (i : Fin 4096) (f : CacheSet → CacheSet) (m : MapCache) : MapCache :=
  { m with sets := f (m.set i) :: m.sets.filter fun x => x.index != i }

/-- The way that holds a line. -/
def CacheSet.wayOf (x : CacheSet) (tag : Nat) : Option (Fin 16) := (x.ways.find? fun w => w.2.tag == tag).map Prod.fst

/-- The nodes on the path to a way point away from it. -/
def plruTouchGo (w : Nat) : Nat → Nat → BitVec 15 → BitVec 15
  | 0, _, b => b
  | n + 1, node, b =>
    let side := w / 2 ^ n % 2
    plruTouchGo w n (2 * node + 1 + side) (if side = 0 then setBit b node else clearBit b node)

def plruTouch (w : Fin 16) (b : BitVec 15) : BitVec 15 := plruTouchGo w.val 4 0 b

/-- The walk to the victim, kept to subtrees that hold an unlocked way. -/
def plruVictimGo (b : BitVec 15) (free : Nat → Bool) : Nat → Nat → Nat → Nat
  | 0, _, pre => pre
  | n + 1, node, pre =>
    let any (side : Nat) : Bool := (List.range 16).any fun w => w / 2 ^ n == 2 * pre + side && free w
    let want := if b.getLsbD node then 1 else 0
    let side := if any want then want else 1 - want
    plruVictimGo b free n (2 * node + 1 + side) (2 * pre + side)

def plruVictim (b : BitVec 15) (locked : BitVec 16) : Fin 16 :=
  Fin.ofNat 16 (plruVictimGo b (fun w => !locked.getLsbD w) 4 0 0)

/-- A way takes a line. -/
def CacheSet.putWay (w : Fin 16) (l : Line) (x : CacheSet) : CacheSet :=
  { x with ways := (w, l) :: x.ways.filter fun q => q.1 != w, plru := plruTouch w x.plru }

/-- A request for a line (R512): a hit, or a miss that writes back a dirty victim and installs the line. A disabled cache is
not used (R513). -/
def MapCache.touch (tag : Nat) (write : Bool) (m : MapCache) : MapCache :=
  if m.enabled = false then m
  else
    let x := m.set (setOf tag)
    match x.ways.find? fun w => w.2.tag == tag with
    | some (w, l) => { m.modSet (setOf tag) (CacheSet.putWay w { l with dirty := l.dirty || write }) with hits := sat32 m.hits 1 }
    | none =>
      let v := plruVictim x.plru m.locked
      let dirty := x.ways.any fun w => w.1 == v && w.2.dirty
      { m.modSet (setOf tag) (CacheSet.putWay v { tag := tag, dirty := write, stale := false, preloaded := false }) with
        misses := sat32 m.misses 1, writebacks := sat32 m.writebacks (bit dirty) }

/-- A miss whose fill fails: a dirty victim has been written back, and its way is empty (R512, R519). -/
def MapCache.fillFails (tag : Nat) (m : MapCache) : MapCache :=
  if m.enabled = false then m
  else
    let x := m.set (setOf tag)
    let v := plruVictim x.plru m.locked
    let dirty := x.ways.any fun w => w.1 == v && w.2.dirty
    { m.modSet (setOf tag) (fun y => { y with ways := y.ways.filter fun w => w.1 != v }) with
      misses := sat32 m.misses 1, writebacks := sat32 m.writebacks (bit dirty) }

/-- The DRAM accesses of a request for a line: none on a hit; the dirty victim's line written and the line read on a miss; the line
itself where the cache is disabled. -/
def MapCache.traffic (tag : Nat) (write : Bool) (m : MapCache) : List (Nat × Bool) :=
  if m.enabled = false then [(tag, write)]
  else
    let x := m.set (setOf tag)
    if (x.wayOf tag).isSome then []
    else
      let v := plruVictim x.plru m.locked
      ((x.ways.filter fun w => w.1 == v && w.2.dirty).map fun w => (w.2.tag, true)) ++ [(tag, false)]

/-- A request for a line, with the accesses to DRAM that it takes (R497, R512). -/
def State.touchLine (tag : Nat) (write : Bool) (s : State) : State :=
  (s.each (s.mcache.traffic tag write) fun q s => s.dramAccess (128 * q.1) q.2).modCache (MapCache.touch tag write)

/-- The map entry of a block is used through the cache. -/
def State.touchEntry (ns lba : Nat) (write : Bool) (s : State) : State :=
  match s.lineTag ns lba with
  | some t => s.touchLine t write
  | none => s

/-- Lines that hold data not yet in DRAM. -/
def MapCache.dirtyLines (m : MapCache) : Nat := (m.sets.map fun x => (x.ways.filter fun w => w.2.dirty).length).sum

/-- Every dirty line is written back; the lines stay valid (R516). -/
def MapCache.clean (m : MapCache) : MapCache :=
  { m with writebacks := sat32 m.writebacks m.dirtyLines
           sets := m.sets.map fun x => { x with ways := x.ways.map fun w => (w.1, { w.2 with dirty := false }) } }

/-- Invalidate-all (R516). -/
def MapCache.invalidateAll (m : MapCache) : MapCache := { m.clean with sets := [], locked := 0, named := 0, invalidated := true }

/-- Disable (R514): dirty lines written back, lines stale. -/
def MapCache.disable (m : MapCache) : MapCache :=
  { m.clean with
    enabled := false, invalidated := false
    sets := m.clean.sets.map fun x => { x with ways := x.ways.map fun w => (w.1, { w.2 with stale := true }) } }

/-- Lines are written back and invalidated (R516, invalidate-range). -/
def MapCache.dropLines (tags : Nat → Bool) (m : MapCache) : MapCache :=
  { m with
    writebacks := sat32 m.writebacks (m.sets.map fun x => (x.ways.filter fun w => w.2.dirty && tags w.2.tag).length).sum
    sets := m.sets.map fun x => { x with ways := x.ways.filter fun w => !tags w.2.tag } }

/-- MCACHE_STATUS (Table 13-11); maint_busy reads 0, since each action is one step here (log 30). -/
def MapCache.status (m : MapCache) : W32 := word [(m.locked.toNat, 16), (bit m.invalidated, 2), (bit m.enabled, 1)]

/-! ## Map Cache Control (Table 13-8) -/

/-- Number of ways of a mask. -/
def ways (m : BitVec 16) : Nat := ((List.range 16).filter fun i => m.getLsbD i).length

def maskOf (e : SqEntry) : BitVec 16 := BitVec.ofNat 16 (bits e.cdw10 31 16)
def slbaOf (e : SqEntry) : Nat := e.cdw11.toNat + 2 ^ 32 * e.cdw12.toNat

/-- A Map Cache Control command of an action: reserved fields 0, a mask for actions 5 to 7 of at most 12 ways with those
locked (R520). -/
def State.mapCtl (c action : Nat) (k : Ctx → State → State) (s : State) : State :=
  s.run c (isAction 0xC6 action) fun x s =>
    let e := x.entry
    let masked := decide (5 ≤ action) && decide (action ≤ 7)
    let ranged := action == 5 || action == 8
    s.orElse c (firstBad [(bits e.cdw10 15 8 != 0, 10, 8),
      (masked && decide (12 < ways (maskOf e ||| s.mcache.locked)), 10, 16),
      (ranged && e.cdw13 == 0, 13, 0), (e.cdw14 != 0, 14, 0), (e.cdw15 != 0, 15, 0)]) (k x)

/-- Actions 5 and 8 name a range of a conventional namespace. -/
def State.mapRange (c : Nat) (x : Ctx) (k : Nat → Nat → Nat → State → State) (s : State) : State :=
  match s.names.nss.find? fun n => n.nsid == x.entry.nsid.toNat && !s.deletedFor n x with
  | some n =>
    if n.zoned then s.complete c Cpl.badNs
    else if n.nsze < slbaOf x.entry + x.entry.cdw13.toNat then s.complete c { Cpl.lbaRange with errLba := max (slbaOf x.entry) n.nsze }
    else k n.nsid (slbaOf x.entry) x.entry.cdw13.toNat s
  | none => s.complete c Cpl.badNs

/-- MAP_CACHE_QUERY: dword 0 holds MCACHE_STATUS. -/
def execMapCacheQuery (c : Nat) (s : State) : Host.Outcome State Fault Refusal :=
  .next <| s.mapCtl c 0 fun _ s => s.complete c (Cpl.val s.mcache.status)

/-- MAP_CACHE_ENABLE: only after an invalidate-all since the last disable or reset (R515). -/
def execMapCacheEnable (c : Nat) (s : State) : Host.Outcome State Fault Refusal :=
  .next <| s.mapCtl c 1 fun _ s =>
    if s.mcache.invalidated then (s.modCache fun m => { m with enabled := true }).complete c Cpl.ok
    else s.complete c Cpl.seqError

/-- MAP_CACHE_DISABLE (R514). -/
def execMapCacheDisable (c : Nat) (s : State) : Host.Outcome State Fault Refusal :=
  .next <| s.mapCtl c 2 fun _ s => (s.modCache MapCache.disable).complete c Cpl.ok

/-- INVALIDATE_ALL (R516). -/
def execInvalidateAll (c : Nat) (s : State) : Host.Outcome State Fault Refusal :=
  .next <| s.mapCtl c 3 fun _ s => (s.modCache MapCache.invalidateAll).complete c Cpl.ok

/-- CLEAN_ALL (R516). -/
def execCleanAll (c : Nat) (s : State) : Host.Outcome State Fault Refusal :=
  .next <| s.mapCtl c 4 fun _ s => (s.modCache MapCache.clean).complete c Cpl.ok

/-- A page of a preload goes to a slot whose lines fall on a wanted group of sets; the lines of its old slot go (R517). -/
def State.pageTo (ns page group : Nat) (s : State) : State :=
  let k := s.freeMapSlot fun i => s.setGroup i == group
  match s.pageSlot ns page with
  | some o =>
    if s.setGroup o = group ∨ s.slotPinned o = true then s
    else
      (s.modCache (MapCache.dropLines (s.inSlot o))).takeSlot ns page k
  | none => s.takeSlot ns page k

/-- One line of a preload: it goes into an unlocked way of the mask that holds no preloaded line, the lowest such way (DESIGN
CHOICE, log 29); none: it overflows. One that a locked way holds stays there (R518). -/
def MapCache.preloadLine (mask : BitVec 16) (tag : Nat) (m : MapCache) : Option MapCache :=
  let x := m.set (setOf tag)
  let may (w : Fin 16) : Bool := mask.getLsbD w.val && !m.locked.getLsbD w.val &&
    !(x.ways.any fun q => q.1 == w && q.2.preloaded && q.2.tag != tag)
  if x.ways.any fun q => q.2.tag == tag && m.locked.getLsbD q.1.val then some m
  else match (fins 16).find? may with
  | none => none
  | some w =>
    let old := x.ways.any fun q => q.2.tag == tag && q.2.dirty
    let out := x.ways.any fun q => q.1 == w && q.2.tag != tag && q.2.dirty
    some { m.modSet (setOf tag) (fun y => CacheSet.putWay w { tag := tag, dirty := old, stale := false, preloaded := true }
             { y with ways := y.ways.filter fun q => q.2.tag != tag }) with
           writebacks := sat32 m.writebacks (bit out) }

/-- PRELOAD: the lines of a range go into the ways named; dword 0 counts the overflow (R517). -/
def execPreload (c : Nat) (s : State) : Host.Outcome State Fault Refusal :=
  .next <| s.mapCtl c 5 fun x s => s.mapRange c x fun ns from_ n s =>
    let mask := maskOf x.entry
    let first := from_ / 512
    let pages := (List.range ((from_ + n - 1) / 512 + 1 - first)).map (first + ·)
    let g0 := s.setGroup ((s.pageSlot ns first).getD (s.freeMapSlot fun _ => true))
    let s := s.each pages fun p s => s.pageTo ns p ((g0 + (p - first)) % 128)
    let lines := (List.range ((from_ + n - 1) / 16 + 1 - from_ / 16)).map fun i => from_ / 16 + i
    let r := lines.foldl (fun (q : MapCache × Nat) l =>
      match s.lineTag ns (16 * l) with
      | some t => match q.1.preloadLine mask t with
        | some m => (m, q.2)
        | none => (q.1, q.2 + 1)
      | none => q) (s.mcache, 0)
    (s.modCache fun _ => { r.1 with named := r.1.named ||| mask }).complete c (Cpl.val (BitVec.ofNat 32 r.2))

/-- LOCK: ways that a preload has named since the last invalidate-all; another way is refused with Command Sequence Error
(DEDUCED, log 31: the spec names no status). -/
def execLock (c : Nat) (s : State) : Host.Outcome State Fault Refusal :=
  .next <| s.mapCtl c 6 fun x s =>
    let mask := maskOf x.entry
    if mask &&& s.mcache.named = mask then (s.modCache fun m => { m with locked := m.locked ||| mask }).complete c Cpl.ok
    else s.complete c Cpl.seqError

/-- UNLOCK. -/
def execUnlock (c : Nat) (s : State) : Host.Outcome State Fault Refusal :=
  .next <| s.mapCtl c 7 fun x s =>
    (s.modCache fun m => { m with locked := m.locked &&& ~~~(maskOf x.entry) }).complete c Cpl.ok

/-- INVALIDATE_RANGE: the lines of the range, locked ones included (R516). -/
def execInvalidateRange (c : Nat) (s : State) : Host.Outcome State Fault Refusal :=
  .next <| s.mapCtl c 8 fun x s => s.mapRange c x fun ns from_ n s =>
    let hit (t : Nat) : Bool := s.names.pagesIn.any fun q => q.1 == ns && s.inSlot q.2.2 t &&
      (let l := 512 * q.2.1 + 16 * (t - (s.mapAreaBase + 4096 * q.2.2) / 128)
       decide (from_ < l + 16) && decide (l < from_ + n))
    (s.modCache (MapCache.dropLines hit)).complete c Cpl.ok

/-- A correction by a read of memory: the corrected word is written back and counted, a page of DRAM too (R505, R508). -/
def State.noteCorrected (dram : Bool) (page : Nat) (s : State) : State :=
  if dram then
    let n := match s.mem.pageCe.find? fun q => q.1 == page with
      | some q => q.2
      | none => 0
    (s.modMem fun m => { m with dramCe := sat32 m.dramCe 1, pageCe := put page (n + 1) m.pageCe }).raiseMem 1 []
  else (s.modMem fun m => { m with sramCe := sat32 m.sramCe 1 }).raiseMem 0 []

/-- MAP_CACHE_MISS: a request for the line of a DRAM address, with the accesses to DRAM that it takes (R497, R511, R512). `fill` is what
its read of DRAM meets: a line that cannot be corrected is not installed, and its requester sees the error, which UNCORRECTABLE_ERROR
then brings to its region's outcome (R519, Table 13-7). -/
def execMapCacheMiss (addr : Nat) (write : MapRequest) (s : State) : Host.Outcome State Fault Refusal :=
  .next <|
    let fill := write.fill
    let write := write.write
    let tag := addr / 128
    let missed := s.mcache.traffic tag write != [] && !(s.mcache.enabled == false && write)
    if missed = true ∧ fill = .uncorrectable then
      (s.each (s.mcache.traffic tag write) fun q s => s.dramAccess (128 * q.1) q.2).modCache (MapCache.fillFails tag)
    else (s.touchLine tag write).when (missed && fill == .corrected) (State.noteCorrected true (addr / 4096))

end Sys2Proof.Machine
end

