-- ==== Sys2Proof/Machine/Names.lean ====
section
/-! DEFINITION. Names as shared operations: zones, translation, the write buffer, the order of updates and reads, and what
completes them (spec/10 R376 to R397, spec/12 R455 to R460, spec/01 R25 to R28, spec/18 R641, R648). -/

namespace Sys2Proof.Machine

/-! ## Zones -/

/-- Zone state codes of the ZNS documents (PRESUMED, log 33). -/
def ZoneState.code : ZoneState → Nat
  | .empty => 1
  | .implicit => 2
  | .explicit => 3
  | .closed => 4
  | .full => 14

def State.modZone (ns z : Nat) (f : Zone → Zone) (s : State) : State :=
  s.modNames fun n => { n with zones := f (s.zone ns z) :: n.zones.filter fun x => !(x.ns == ns && x.zone == z) }

/-- A zone changes its state, and its record is rewritten: a Full zone at its end, another at the rows that are in its chunks
or at what the record held (R384). -/
def State.setZone (x : Ns) (z : Nat) (st : ZoneState) (s : State) : State :=
  let s := s.modZone x.nsid z fun y => { y with
    st := st, recSt := st, recWp := if st = .full then zoneBlocks x.narrow else max y.recWp (y.rows * rowBlocks x.narrow) }
  s.when s.mirrors (State.sendKept 0x04 [1, x.nsid, z, st.code, (s.zone x.nsid z).wp] [] x.nsid 0 0 none)

/-- Open and active zones (R377, R378). -/
def ZoneState.isOpen (st : ZoneState) : Bool := st == .implicit || st == .explicit
def ZoneState.isActive (st : ZoneState) : Bool := st.isOpen || st == .closed

/-! ## The write buffer (R394) -/

def State.dirty? (s : State) (ns lba : Nat) : Option Dirty := s.names.buffer.find? fun d => d.ns == ns && d.lba == lba

/-- Dirty bytes: blocks, map pages and directory pages (R388, R389). -/
def State.dirtyBytes (s : State) : Nat :=
  4096 * (s.names.unstored.length + s.names.pagesDirty.length + s.names.dirsDirty.length)

/-- A block is dirty. -/
def State.isDirty (s : State) (ns lba : Nat) : Bool := (s.dirty? ns lba).any fun d => !d.stored

/-- Map pages, not dirty now, among those of a list. -/
def State.cleanPages (s : State) (l : List (Nat × Nat)) : Nat := (l.eraseDups.filter fun q => !s.names.pagesDirty.contains q).length

/-- Directory pages, not dirty now, that name the map pages of a list. -/
def State.cleanDirs (s : State) (l : List (Nat × Nat)) : Nat :=
  ((l.map fun q => (q.1, q.2 / 512)).eraseDups.filter fun q => !s.names.dirsDirty.contains q).length

/-- Bytes that the map pages of the moves in flight, and the directory pages of the map pages in flight, will add to the dirty data. -/
def State.reserved (s : State) : Nat :=
  4096 * (s.cleanPages (s.names.flights.flatMap fun f => f.moves.map fun q => (f.ns, q.1 / 512)) +
    s.cleanDirs (s.names.flights.flatMap fun f => f.pages.map fun q => (f.ns, q)))

/-- An actuator spins and its companion obeys this controller (R394; at speed, DEDUCED, log 32). -/
def State.spinning (s : State) (a : ActId) : Bool :=
  let p := portOf a
  (s.port p).obeyed && (s.spin p).st == .atSpeed && !(s.act a).outOfService && (s.port p).sides.contains (sideOf a)

/-- n of R394. -/
def State.spinningCount (s : State) : Nat := ((fins 64).filter s.spinning).length

/-- E, the effective limit of dirty data, in bytes (R394). -/
def State.limitE (s : State) : Nat :=
  min (s.names.dirtyLimitMib * mib) ((s.names.holdupMs - 40) * s.spinningCount * 200000 - 4 * mib)

/-- Room within E, in pages, that stays for what frees the buffer while conventional data fills it: one map page that cleaning makes
dirty, and one directory page (R391, R394; DESIGN CHOICE, log 145). -/
def State.roomKept (s : State) : Nat := if s.names.nss.all Ns.zoned then 0 else 2

/-- Pages that can still become dirty within E, but for a number of them (R394). -/
def State.room (s : State) (keep : Nat) : Nat := (s.limitE - s.dirtyBytes - s.reserved) / 4096 - keep

/-- So many bytes more keep the dirty data within E, with the room that stays for what frees it; an empty buffer takes what E allows
(R394). -/
def State.fits (s : State) (size : Nat) : Bool :=
  decide (s.dirtyBytes + s.reserved + size + 4096 * s.roomKept ≤ s.limitE) ||
    (s.dirtyBytes + s.reserved == 0 && decide (size ≤ s.limitE))

/-- The elements of a list, in order, whose page is dirty already, or is one of so many more. -/
def takeFitting {α : Type} (dirty : Nat × Nat → Bool) (key : α → Nat × Nat) (room : Nat) : List (Nat × Nat) → List α → List α
  | _, [] => []
  | ks, x :: r =>
    if dirty (key x) || ks.contains (key x) then x :: takeFitting dirty key room ks r
    else if ks.length < room then x :: takeFitting dirty key room (key x :: ks) r
    else takeFitting dirty key room ks r

/-- The rows of a power-fail dump. -/
def McRow.isDump (r : McRow) : Bool := r.kind == .dumpIndex || r.kind == .dumpData

/-- The dump's rows and its end mark are released. -/
def State.dropDump (s : State) : State :=
  (s.modCfg fun c => { c with dumpMark := none }).modProt fun p => { p with mcRows := p.mcRows.filter fun r => !r.isDump }

/-- The buffer-dirty mark and the record of the configuration store that a dirty buffer may exist (spec/02 R60, R403); once
what a dump held is on media its rows are released (R401). -/
def State.noteDirty (s : State) : State :=
  let d := s.dirtyBytes != 0
  let keys := s.names.dirtyKeys
  let s := (s.modAon fun a => { a with bufferDirty := d }).modNames fun n => { n with firstDue := n.firstDue.filter keys.contains }
  let going := s.names.dumping || !s.boot.restored
  let s := s.modCfg fun c => { c with mayBeDirty := d || going && c.mayBeDirty }
  s.when (!going && !s.destageFirst) State.dropDump

/-! ## The map (R385) -/

def mapKind (e : W64) : Nat := e.toNat / 2 ^ 62
def mapPlace (e : W64) : Nat := e.toNat % 2 ^ 48
def mapWord (kind place : Nat) : W64 := BitVec.ofNat 64 (kind * 2 ^ 62 + place % 2 ^ 48)

def entryOf (l : List MapEnt) (ns lba : Nat) : W64 := match l.find? fun m => m.ns == ns && m.lba == lba with
  | some m => m.entry
  | none => 0

def State.mapEntry (s : State) (ns lba : Nat) : W64 := entryOf s.names.map ns lba

/-- A map with one entry set; an unmapped entry is not listed. -/
def putEntry (ns lba : Nat) (e : W64) (l : List MapEnt) : List MapEnt :=
  let rest := l.filter fun m => !(m.ns == ns && m.lba == lba)
  if e = 0 then rest else { ns := ns, lba := lba, entry := e } :: rest

/-- A map entry is changed: first in the journal, mirrored in a pair, then in the map, through the map cache (spec/13
R501). -/
def State.setMap (ns lba : Nat) (e : W64) (s : State) : State :=
  let s := s.pageIn ns (lba / 512)
  let s := s.modNames fun n => { n with
    journal := n.journal ++ [{ ns := ns, lba := lba, entry := e }], map := putEntry ns lba e n.map
    pagesDirty := if n.pagesDirty.contains (ns, lba / 512) then n.pagesDirty else n.pagesDirty ++ [(ns, lba / 512)] }
  let s := s.touchEntry ns lba true
  s.when s.mirrors (State.sendKept 0x04 [0, ns, lba, e.toNat] [] ns lba 0 none)

/-- The map page of a block is on media and not in DRAM (R386 step 4). -/
def State.pageAway (s : State) (ns lba : Nat) : Bool :=
  (s.pageSlot ns (lba / 512)).isNone && s.names.mapMedia.any fun m => m.ns == ns && m.lba / 512 == lba / 512

/-! ## Where a block is -/

/-- What a read finds for a block: data at hand, a sector of a chunk, a block of a media-cache row, a listed lost block, or a
map page to be read first. -/
inductive Found where
  | value (b : Blk)
  | media (g : Group) (i j n : Nat)
  | cache (r : McRow) (idx : Nat)
  | lost
  | page
  deriving DecidableEq, Repr

def State.mcRow? (s : State) (id : Nat) : Option McRow := s.prot.mcRows.find? fun r => r.id == id

/-- The media-cache row that holds blocks of a row of a zone. -/
def State.partRow (s : State) (ns zone row lba : Nat) : Option (McRow × Nat) :=
  (s.prot.mcRows.find? fun r => r.ns == ns && r.kind == .part zone row && r.blocks.any fun q => q.1 == lba).bind fun r =>
    (r.blocks.findIdx? fun q => q.1 == lba).map fun i => (r, i)

/-- A block of a zone: its row is in a media-cache row, in the chunks, or was never written (R337, R381, R731). -/
def State.findZone (s : State) (x : Ns) (zone off lba : Nat) : Found :=
  let row := off / rowBlocks x.narrow
  match s.partRow x.nsid zone row lba with
  | some q => .cache q.1 q.2
  | none =>
    if (s.zone x.nsid zone).rows ≤ row then .value 0
    else match s.blockAt x zone off with
      | some (g, i, j, n) => .media g i j n
      | none => .value 0

/-- Where a block is, by the map as it stands, whether or not its map page is in DRAM. -/
def State.findMapped (s : State) (x : Ns) (lba : Nat) : Found :=
  match s.dirty? x.nsid lba with
  | some d => .value d.data
  | none =>
    if s.names.lost.contains (x.nsid, lba) then .lost
    else if x.zoned then
      let zb := zoneBlocks x.narrow
      if (s.zone x.nsid (lba / zb)).wp ≤ lba % zb then .value 0 else s.findZone x (lba / zb) (lba % zb) lba
    else
      let e := s.mapEntry x.nsid lba
      match mapKind e with
      | 1 =>
        let zb := zoneBlocks x.narrow
        match s.blockAt x (mapPlace e / zb) (mapPlace e % zb) with
        | some (g, i, j, n) => .media g i j n
        | none => .value 0
      | 2 => match s.mcRow? (mapPlace e / 512) with
        | some r => .cache r (mapPlace e % 512)
        | none => .value 0
      | _ => .value 0

/-- The order of R386, and of R381 for a zoned namespace: a conventional block outside the write buffer needs its map page. -/
def State.find (s : State) (x : Ns) (lba : Nat) : Found :=
  if x.zoned = false ∧ (s.dirty? x.nsid lba).isNone = true ∧ s.pageAway x.nsid lba = true then .page else s.findMapped x lba

/-- The data that a found block holds, read directly or reconstructed; none when it cannot be had. -/
def State.foundBlk (s : State) (bad : List (Place × Nat)) : Found → Option Blk
  | .value b => some b
  | .media g i j n => s.mediaBlk bad g i j n
  | .cache r idx => s.mcBlock r idx
  | .lost => none
  | .page => none

/-- The physical sector that a read of a found block reads, when it can be read directly. -/
def State.foundAt (s : State) : Found → Option Location
  | .media g i j n =>
    let pl := s.placeOf g i j
    if s.chunkMissing g i j then none else s.locateChunk pl n
  | .cache r idx => match r.strips[idx / 64]? with
    | some (a, k) =>
      if s.actPresent a then s.locate (portOf a) (sideOf a) (8 + k / 512) (k / 256 % 2) (64 * (k % 256) + idx % 64) else none
    | none => none
  | _ => none

/-! ## Order (spec/12 R453, R455 to R460) -/

/-- The block ranges of a command: first and count. Dataset Management names several. -/
def Ctx.ranges (x : Ctx) : List (Nat × Nat) :=
  if isIoOp 0x09 x then
    (List.range (bits x.entry.cdw10 7 0 + 1)).map fun i =>
      (field x.entry.data (16 * i + 8) 8, field x.entry.data (16 * i + 4) 4)
  else [(x.lba, x.nlb)]

def overlaps (a b : List (Nat × Nat)) : Bool :=
  a.any fun p => b.any fun q => decide (p.1 < q.1 + q.2) && decide (q.1 < p.1 + p.2)

/-- Kind of a start of Long Operation. -/
def opKind (e : SqEntry) : Nat := bits e.cdw10 15 8

/-- A sanitize: by Sanitize, or by Long Operation. It changes every block of every namespace (R455). -/
def Ctx.wipes (x : Ctx) : Bool := isAdminOp 0x84 x || isAction 0xC2 0 x && opKind x.entry == 2

/-- Two commands name a block in common. -/
def Ctx.meets (x y : Ctx) : Bool := x.wipes || y.wipes || x.ns == y.ns && overlaps x.ranges y.ranges

/-- An update admitted and not yet applied or ended. -/
def Ctx.unapplied (x : Ctx) : Bool :=
  x.update && (x.stage == .admitted || x.stage == .awaitData || x.stage == .awaitTurn || x.stage == .awaitSpace)

/-- An earlier-admitted update of its blocks has not applied. -/
def State.blocked (s : State) (x : Ctx) : Bool :=
  s.ctxs.any fun y => y.id != x.id && y.unapplied && earlier y.adm x.adm && y.meets x

/-- A read that has been admitted and has not ended. -/
def Ctx.reading (x : Ctx) : Bool := isIoOp 0x02 x && (x.stage == .admitted || x.stage == .waiting)

/-- Before an update changes blocks, what reads admitted before it still need of them is kept (R458). -/
def State.saveReads (ns : Nat) (l : List (Nat × Nat)) (adm : W32) (s : State) : State :=
  match s.ns? ns with
  | none => s
  | some n =>
    { s with ctxs := s.ctxs.map fun x =>
        if x.reading ∧ x.ns = ns ∧ earlier x.adm adm = true ∧ overlaps x.ranges l = true then
          let new := ((List.range x.nlb).map (x.lba + ·)).filter fun b =>
            overlaps [(b, 1)] l && (x.got.all fun q => q.1 != b) && (x.saved.all fun q => q.1 != b)
          { x with saved := x.saved ++ new.map fun b => (b, s.foundBlk x.failed (s.findMapped n b)) }
        else x }

/-! ## Reads (R458, R459) -/

/-- Unrecovered Read Error at a block. -/
def Cpl.unrecovered (lba : Nat) : Cpl := { Cpl.err 0x2 0x81 with errLba := lba }

/-- What a read obtains at once of its blocks: kept data and data at hand; the blocks still needed; the first block that is
lost. -/
def State.readSplit (s : State) (n : Ns) (x : Ctx) : List (Nat × Blk) × List Nat × Option Nat :=
  ((List.range x.nlb).map (x.lba + ·)).foldl (fun acc b =>
    if x.got.any fun q => q.1 == b then acc
    else match x.saved.find? fun q => q.1 == b with
      | some (_, some v) => (acc.1 ++ [(b, v)], acc.2.1, acc.2.2)
      | some (_, none) => (acc.1, acc.2.1, acc.2.2.or (some b))
      | none => match s.find n b with
        | .value v => (acc.1 ++ [(b, v)], acc.2.1, acc.2.2)
        | .lost => (acc.1, acc.2.1, acc.2.2.or (some b))
        | _ => (acc.1, acc.2.1 ++ [b], acc.2.2)) ([], [], none)

/-- The blocks of a read in order. -/
def Ctx.readData (x : Ctx) : List Blk :=
  (List.range x.nlb).map fun i => match x.got.find? fun q => q.1 == x.lba + i with
    | some q => q.2
    | none => 0

/-- Blocks of a read that lie on the peer's ports are asked of it once, a sector each, as foreground reads (spec/18 R626). -/
def State.askOwner (c : Nat) (n : Ns) (l : List Nat) (s : State) : State :=
  s.each l fun b s =>
    let asked := s.pair.unanswered.any fun m => m.type == 0x08 && m.ctx == some c && m.lba == b
    match s.foundAt (s.findMapped n b) with
    | some l =>
      if s.peerOwns (portOf l.act) = true ∧ asked = false then
        s.askMedia l.act { write := false, head := l.head, track := l.track, zone := l.zone, first := l.sector, count := 1, cls := 0
                           ctx := some c, data := [] } n.nsid b
      else s
    | none => s

/-- A read of a conventional namespace takes the entries of those of its blocks that are not in the write buffer through the cache, a
line once (R386); of a page that is not in DRAM, when it has been read. -/
def State.touchRead (n : Ns) (l : List Nat) (s : State) : State :=
  if n.zoned then s
  else
    let l := l.filter fun b => (s.dirty? n.nsid b).isNone
    s.each ((l.map (· / 16)).eraseDups) fun k s => s.touchEntry n.nsid (16 * k) false

/-- A read goes on: it waits for earlier updates, takes what is at hand, and completes when it has every block. -/
def State.tryRead (c : Nat) (s : State) : State :=
  match s.ctx? c with
  | none => s
  | some x =>
    if s.blocked x then s.await c .turn
    else match s.ns? x.ns with
      | none => s.complete c Cpl.badNs
      | some n =>
        let r := s.readSplit n x
        match r.2.2 with
        | some b => s.complete c (Cpl.unrecovered b)
        | none =>
          let s := s.modCtx c fun y => { y with got := y.got ++ r.1 }
          if r.2.1 = [] then
            match s.ctx? c with
            | some y => s.complete c { Cpl.ok with blocks := y.readData }
            | none => s
          else (s.await c (.sectors r.2.1)).askOwner c n r.2.1

/-- A block arrives for a read. -/
def State.giveBlock (c lba : Nat) (v : Blk) (s : State) : State :=
  match s.ctx? c with
  | some x =>
    if x.reading ∧ x.lba ≤ lba ∧ lba < x.lba + x.nlb ∧ (x.got.all fun q => q.1 != lba) = true then
      (s.modCtx c fun y => { y with got := y.got ++ [(lba, v)] }).tryRead c
    else s
  | none => s

/-! ## What waits for media (R396, R397; spec/01 R28) -/

/-- The zone records of a namespace are made durable: each up to its first block that is still dirty (R384, R396). -/
def State.harden (ns : Nat) (s : State) : State :=
  match s.ns? ns with
  | none => s
  | some x =>
    let zb := zoneBlocks x.narrow
    s.modNames fun n => { n with
      zones := n.zones.map fun z =>
        if z.ns = ns ∧ x.zoned = true then
          let first := ((n.unstored.filter fun d => d.ns == ns && d.lba / zb == z.zone).map fun d => d.lba % zb).foldl min z.wp
          { z with recSt := z.st, recWp := if z.st = .full then zb else max z.recWp first }
        else z }

/-- Namespaces that a Flush covers. -/
def State.flushNs (s : State) (x : Ctx) : List Nat :=
  if x.entry.nsid = 0xFFFFFFFF then s.names.nss.map Ns.nsid else [x.entry.nsid.toNat]

/-- What a command that waited for media makes durable in the group table as it ends: a Flush, and a Zone Finish (R396, R382). -/
def State.mediaDone (x : Ctx) (s : State) : State :=
  if isIoOp 0x00 x then s.each (s.flushNs x) State.harden else if isIoOp 0x79 x then s.harden x.ns else s

/-- Map pages of the namespaces of a Flush that are not durable, with the directory pages that name them (R389, R396). -/
def State.flushPages (s : State) (x : Ctx) : List (Nat × Nat) :=
  if isIoOp 0x00 x then
    (s.names.pagesDirty ++ (s.names.dirsDirty.map fun (q : Nat × Nat) => (q.1, 512 * q.2))).filter fun q => (s.flushNs x).contains q.1
  else []

/-- A map page or its directory page is not yet on media. -/
def State.pageDue (s : State) (q : Nat × Nat) : Bool := s.names.pagesDirty.contains q || s.names.dirsDirty.contains (q.1, q.2 / 512)

/-- A block of a finished zone's partial row, which is still to be destaged (R382). -/
def State.finishDue (s : State) (ns lba : Nat) : Bool := match s.ns? ns with
  | some x => s.names.finishing.contains (ns, lba / zoneBlocks x.narrow, lba % zoneBlocks x.narrow / rowBlocks x.narrow)
  | none => false

/-- The completion of a write; a Zone Append's dwords 0 and 1 hold the LBA assigned (R380). -/
def Ctx.writeCpl (x : Ctx) : Cpl :=
  if isIoOp opZoneAppend x then
    { Cpl.ok with dw0 := BitVec.ofNat 32 x.lba, dw1 := BitVec.ofNat 32 (x.lba / 2 ^ 32) }
  else Cpl.ok

/-- A Write, a Zone Append or a Write Zeroes. -/
def Ctx.isWrite (x : Ctx) : Bool := isIoOp 0x01 x || isIoOp opZoneAppend x || isIoOp 0x08 x

/-- A write completes; in the settling time after a takeover its completion is withheld (spec/18 R648). -/
def State.completeWrite (c : Nat) (s : State) : State :=
  match s.ctx? c with
  | some x =>
    if s.pair.settling then s.modPair fun p => { p with withheld := if p.withheld.contains c then p.withheld else p.withheld ++ [c] }
    else s.complete c x.writeCpl
  | none => s

/-- This controller serves an ANA group: alone or solo both, paired the group of its side and the other when it has taken it
(spec/18 Table 18-1). -/
def State.servesGroup (s : State) (ana2 : Bool) : Bool :=
  if s.pair.mode = false then true
  else match s.pair.st with
    | .single => true
    | .solo => true
    | .paired => ana2 == s.pair.side || s.pair.servesOther
    | _ => false

/-- A command is forwarded: its entry goes to the peer, and its context waits for the answer (spec/18 R628, R637). -/
def State.forwardCmd (x : Ctx) (s : State) : State :=
  let e := x.entry
  let f := match x.fn? with
    | some .b => 1
    | _ => 0
  let s := s.modCtx x.id fun y => { y with stage := .forwarded }
  let s := s.sendKept 0x07 ([0, x.id, f, x.sq, e.cid.toNat, e.opcode.toNat, e.nsid.toNat, e.prp1.toNat, e.prp2.toNat] ++
    [e.cdw10, e.cdw11, e.cdw12, e.cdw13, e.cdw14, e.cdw15].map BitVec.toNat) [] x.ns 0 0 (some x.id)
  s.modPair fun p => { p with forwarded := sat32 p.forwarded 1 }

/-- A namespace is attached to the function of a command. -/
def Ns.attachedTo (n : Ns) (x : Ctx) : Bool := match x.fn? with
  | some .a => n.attachA
  | some .b => n.attachB
  | none => true

/-- A host's Flush of every namespace covers namespaces that the peer serves (R396; spec/11 Table 11-8; spec/18 R622, R628). -/
def State.flushesPeer (s : State) (x : Ctx) : Bool :=
  (match x.origin with
    | .host _ => true
    | _ => false) && isIoOp 0x00 x && x.entry.nsid == 0xFFFFFFFF && s.pair.mode && s.pair.st == .paired &&
    s.names.nss.any fun n => n.attachedTo x && !s.servesGroup n.ana2

/-- A command has what it waited for here: a Flush that covers namespaces of the peer goes on there, any other ends. -/
def State.mediaOver (c : Nat) (x : Ctx) (s : State) : State :=
  if s.flushesPeer x then s.forwardCmd x
  else s.complete c (match x.cpl with
    | some r => r
    | none => Cpl.ok)

/-- The blocks that a command waited for are on media: a Flush waits for map pages too, any other ends; a write's
completion is withheld in the settling time after a takeover (spec/18 R648). -/
def State.mediaEnd (c : Nat) (x : Ctx) (s : State) : State :=
  let s := s.mediaDone x
  let l := s.flushPages x
  if s.pair.settling = true ∧ x.isWrite = true then (s.await c (.media [])).completeWrite c
  else if l = [] then s.mediaOver c x
  else s.await c (.pages l)

/-- Waits for blocks and map pages on media, and for a clean buffer, end when nothing they name is dirty. -/
def State.settleWaits (s : State) : State :=
  s.each ((s.ctxs.filter fun x => x.stage == .waiting).map Ctx.id) fun c s =>
    match s.ctx? c with
    | none => s
    | some x => match x.wait with
      | .media l =>
        let left := l.filter fun (q : Nat × Nat × W32) => s.isDirty q.1 q.2.1 || isIoOp 0x79 x && s.finishDue q.1 q.2.1
        if left = [] then s.mediaEnd c x else s.await c (.media left)
      | .pages l =>
        let left := l.filter s.pageDue
        if left = [] then s.mediaOver c x else s.await c (.pages left)
      | .clean => if s.dirtyBytes = 0 then s.complete c Cpl.ok else s
      | _ => s

/-! ## Applying writes -/

/-- Blocks enter the write buffer: a block written again holds its newest data only (R387), and is no longer lost (R359). -/
def Names.putBlocks (ns lba : Nat) (adm : W32) (data : List Blk) (n : Names) : Names :=
  let hit (a b : Nat) : Bool := a == ns && decide (lba ≤ b) && decide (b < lba + data.length)
  { n with
    buffer := (n.buffer.filter fun d => !hit d.ns d.lba) ++
      data.zipIdx.map fun q => { ns := ns, lba := lba + q.2, data := q.1, adm := adm, stored := false, carried := false }
    lost := n.lost.filter fun q => !hit q.1 q.2 }

/-- The same of blocks that were not admitted here since this reset. -/
def Names.putCarried (ns lba : Nat) (data : List Blk) (n : Names) : Names :=
  let m := n.putBlocks ns lba 0 data
  { m with buffer := m.buffer.map fun d =>
      if d.ns = ns ∧ lba ≤ d.lba ∧ d.lba < lba + data.length then { d with carried := true } else d }

/-- An update writes data at its blocks; with Force Unit Access, WCE 0, or data that can never fit it completes when they are
on media (R27, R28, R394, R397), else when the mirror is acknowledged in a pair, else at once. The data of a forwarded
write is in the forwarding controller's mirror already (spec/18 R632). -/
def State.applyWrite (c : Nat) (x : Ctx) (data : List Blk) (s : State) : State :=
  let beyond := !s.fits (4096 * data.length)
  let s := s.saveReads x.ns [(x.lba, data.length)] x.adm
  let s := (s.modNames (Names.putBlocks x.ns x.lba x.adm data)).noteDirty
  let s := s.modCtx c fun y => { y with stage := .applied, data := [] }
  let peer := match x.origin with
    | .peer _ _ _ => true
    | _ => false
  let mirrored := s.mirrors && !peer
  let s := s.when mirrored (State.sendKept 0x03 [x.ns, x.adm.toNat, x.lba, data.length] data x.ns x.lba x.adm (some c))
  if x.origin = .gone then s.dropCtx c
  else if x.fua ∨ s.names.wce = false ∨ beyond = true then
    (s.modCtx c fun y => { y with cpl := some x.writeCpl }).await c
      (.media (data.zipIdx.map fun q => (x.ns, x.lba + q.2, x.adm)))
  else if mirrored then s.await c (.mirror [s.pair.msgSeq])
  else s.completeWrite c

/-- Buffered copies of blocks are discarded. -/
def Names.dropBlocks (ns : Nat) (l : List (Nat × Nat)) (n : Names) : Names :=
  { n with buffer := n.buffer.filter fun d => !(d.ns == ns && overlaps [(d.lba, 1)] l)
           lost := n.lost.filter fun q => !(q.1 == ns && overlaps [(q.2, 1)] l) }

/-- Blocks of a conventional namespace are unmapped: entries set to kind 0, buffered copies discarded (R393); in a pair the record
of each tells the peer, that of a block that is only buffered too. -/
def State.unmap (ns : Nat) (l : List (Nat × Nat)) (s : State) : State :=
  let mapped := (s.names.map.filter fun m => m.ns == ns && overlaps [(m.lba, 1)] l).map MapEnt.lba
  let mapped := if s.mirrors then (mapped ++ (s.names.buffer.filter fun d => d.ns == ns && overlaps [(d.lba, 1)] l).map
    Dirty.lba).eraseDups else mapped
  (s.each mapped fun b s => s.setMap ns b 0).modNames (Names.dropBlocks ns l)

/-- A zone is reset: its dirty data is discarded, its media-cache rows and its chunks are released; the stripe and its
exceptions stay (R383). -/
def State.resetZone (x : Ns) (z : Nat) (s : State) : State :=
  let zb := zoneBlocks x.narrow
  let s := s.when x.zoned (State.modNames (Names.dropBlocks x.nsid [(z * zb, zb)]))
  let s := s.modProt fun p => { p with mcRows := p.mcRows.filter fun r =>
    !(r.ns == x.nsid && (match r.kind with
      | .part zone _ => zone == z
      | _ => false)) }
  let s := s.modNames fun n => { n with
    flights := n.flights.filter fun f => !(f.ns == x.nsid && f.zone == z)
    finishing := n.finishing.filter fun f => !(f.1 == x.nsid && f.2.1 == z) }
  let s := match stripeOf (s.nsGroups x) z with
    | some (g, i) =>
      let s := s.endWorks g i
      (s.each ((List.range g.width).map fun j => s.placeOf g i j) fun pl s => s.modProt (Prot.dropChunk pl)).modProt
        fun p => { p with touched := p.touched.filter fun t => !(t.1 == g.number && t.2.1 == i) }
    | none => s
  let s := s.modZone x.nsid z fun _ => Zone.initial x.nsid z
  s.when s.mirrors (State.sendKept 0x04 [1, x.nsid, z, ZoneState.code .empty, 0] [] x.nsid 0 0 none)

/-- Zones of a namespace that are not in their initial state, or that rows in flight go to. -/
def State.usedZones (s : State) (ns : Nat) : List Nat :=
  (((s.names.zones.filter fun z => z.ns == ns && z != Zone.initial ns z.zone).map Zone.zone) ++
    (s.names.flights.filter fun f => f.ns == ns).map RowFlight.zone).eraseDups

/-- An update other than a write applies: Write Zeroes and Dataset Management on a conventional namespace, Zone Reset (by
Select All every zone), Format NVM (R393, R383, R369). It completes once the peer has acknowledged its JOURNAL messages, if it
sent any (spec/01 R27; spec/18 R641). -/
def State.applyOther (c : Nat) (x : Ctx) (n : Ns) (s : State) : State :=
  let before := s.pair.msgSeq
  let s := s.saveReads x.ns x.ranges x.adm
  let s :=
    if isAdminOp 0x80 x then
      if n.zoned then s.each (s.usedZones n.nsid) fun z s => s.resetZone n z
      else (s.unmap n.nsid [(0, n.nsze)])
    else if isIoOp 0x79 x then
      let zb := zoneBlocks n.narrow
      let all := bits x.entry.cdw13 8 8 == 1
      let zs := (s.usedZones n.nsid).filter fun z => all || z == x.lba / zb
      s.each zs fun z s => s.resetZone n z
    else s.unmap n.nsid x.ranges
  let s := s.noteDirty
  if s.mirrors = true ∧ s.pair.msgSeq ≠ before ∧ x.origin ≠ .gone then
    (s.modCtx c fun y => { y with stage := .applied }).await c (.mirror [s.pair.msgSeq])
  else s.complete c Cpl.ok

/-- Bytes of map pages that an update other than a write makes dirty (R388, R393). -/
def State.pageBytes (s : State) (x : Ctx) (n : Ns) : Nat :=
  let l := if isAdminOp 0x80 x then [(0, n.nsze)] else x.ranges
  if n.zoned then 0
  else 4096 * s.cleanPages ((s.names.map.filter fun m => m.ns == n.nsid && overlaps [(m.lba, 1)] l).map fun m => (m.ns, m.lba / 512))

/-- An update other than a write needs no buffer space, has it, or can never have it (R394; DEDUCED, log 134). -/
def State.pagesFit (s : State) (x : Ctx) (n : Ns) : Bool :=
  let size := s.pageBytes x n
  size == 0 || decide (s.limitE < size) || s.fits size

/-! ## Long operations as they start (spec/12 R475, R476), and a sanitize as an update (R455) -/

/-- An operation with the dwords of its start: `p3` CDW10, `p0` CDW11, `p1` CDW12, `p2` CDW13. -/
def State.opFor (s : State) (x : Ctx) (kind : Nat) : LongOp :=
  { handle := 0, kind := kind, st := .running, done := 0, total := 0, origin := x.originCode, started := s.ident.bootCounter
    result := 0, p0 := x.entry.cdw11, p1 := x.entry.cdw12, p2 := x.entry.cdw13, p3 := x.entry.cdw10, cursor := 0, from_ := 0, kept := 0
    suspendAsked := false, cancelAsked := false, byPs3 := false, slot := false, prefer := false, image := [] }

/-- No place is left for an operation of a kind: 64 are active, one of them kept for the rebuild (R476). -/
def State.placeFull (s : State) (kind : Nat) : Bool :=
  let n := (s.longOps.filter fun o => o.st.active).length
  match s.rebuild? with
  | some _ => decide (64 ≤ n)
  | none => kind != 1 && decide (63 ≤ n)

/-- Command Sequence Error for want of a place: 1 in dword 0 [23:16] (R476). -/
def Cpl.noPlace : Cpl := Cpl.errVal 0x0 0x0C 0x10000

/-- An operation starts, unless no place is left or one of the kind is active; the command completes as `done` says. -/
def State.startSingle (c : Nat) (o : LongOp) (k : Nat → State → State) (s : State) : State :=
  if s.activeOps o.kind ≠ [] then s.complete c Cpl.seqError
  else if s.placeFull o.kind then s.complete c Cpl.noPlace
  else
    let q := s.startOp o
    k q.2 q.1

/-- The blocks of every namespace are as never written. -/
def State.forgetBlocks (s : State) : State :=
  (s.modNames fun n => { n with
    zones := [], map := [], mapMedia := [], journal := [], pagesIn := [], pagesDirty := [], dirsDirty := [], mapDir := [], roots := []
    dirsOut := [], toFind := [], buffer := [], flights := [], finishing := [], firstDue := [], lost := []
    nss := n.nss.map fun x => { x with backing := none } }).modCache (MapCache.forget fun _ => true)

/-- A sanitize begins: every block changes now, I/O is refused from now on, and reads admitted before it keep what they need (R455, R458,
Table 12-3). -/
def State.beginSanitize (adm : W32) (s : State) : State :=
  let s := s.each s.names.nss fun n s => s.saveReads n.nsid [(0, n.nsze)] adm
  (s.forgetBlocks.modNames fun n => { n with sanitizing := true }).noteDirty

/-- A sanitize whose turn has come starts its long operation; Long Operation returns its handle (R475). -/
def State.applyWipe (c : Nat) (x : Ctx) (s : State) : State :=
  s.startSingle c (s.opFor x 2) fun h s =>
    (s.beginSanitize x.adm).complete c (if isAdminOp 0x84 x then Cpl.ok else Cpl.val (BitVec.ofNat 32 h))

/-- An update whose turn has come applies, or waits for buffer space: a write for its data, another for the map pages it makes dirty.
What can never fit applies beyond E (R394; of the others than writes DEDUCED, log 134). One whose turn comes while a sanitize that
was admitted before it runs is refused (Table 12-3). -/
def State.applyOne (c : Nat) (s : State) : State :=
  match s.ctx? c with
  | none => s
  | some x =>
    if x.wipes then s.applyWipe c x
    else if s.names.sanitizing = true ∧ x.isAdmin = false then s.complete c Cpl.sanitizing
    else match s.ns? x.ns with
    | none => s.complete c Cpl.badNs
    | some n =>
      let writes := isIoOp 0x01 x || isIoOp opZoneAppend x || (isIoOp 0x08 x && n.zoned)
      if writes then
        let size := 4096 * x.data.length
        let never := decide (s.limitE < size) || s.limitE == 0
        if never ∧ s.spinningCount = 0 then s.modCtx c fun y => { y with stage := .awaitSpace }
        else if never ∨ s.fits size = true then s.applyWrite c x x.data
        else s.modCtx c fun y => { y with stage := .awaitSpace }
      else
        if s.pagesFit x n then s.applyOther c x n
        else s.modCtx c fun y => { y with stage := .awaitSpace }

/-- The contexts that may apply now: data arrived, no earlier overlapping update left; the earliest first. -/
def State.turnOf (s : State) (st : Stage) : Option Nat :=
  ((s.ctxs.filter fun x => x.update && x.stage == st && !s.blocked x).foldl (fun (b : Option Ctx) x => match b with
    | some y => if earlier x.adm y.adm then some x else some y
    | none => some x) none).map Ctx.id

/-- Updates apply in admission order as their turns come; fuel: one step for each context. -/
def State.applyTurns : Nat → State → State
  | 0, s => s
  | n + 1, s => match s.turnOf .awaitTurn with
    | some c => State.applyTurns n (s.applyOne c)
    | none => s

/-- Updates that wait for buffer space try again, the earliest first. -/
def State.applySpace : Nat → State → State
  | 0, s => s
  | n + 1, s => match s.turnOf .awaitSpace with
    | some c =>
      let t := s.applyOne c
      if (t.turnOf .awaitSpace) = some c then t else State.applySpace n t
    | none => s

/-- After any update has applied or ended, or space has come: the updates, reads and waits that can go on do. -/
def State.settleOrder (s : State) : State :=
  let k := s.ctxs.length
  let s := (s.applySpace k).applyTurns k
  let s := s.each ((s.ctxs.filter fun x => x.stage == .waiting && x.wait == .turn).map Ctx.id) State.tryRead
  s.settleWaits

/-- A command has been run: where it was an update, and ended without waiting to apply, what waited for it goes on (R456, R457,
R460). -/
def State.settleEnded (c : Nat) (before s : State) : State :=
  if (before.ctx? c).any Ctx.unapplied && !(s.ctx? c).any Ctx.unapplied then s.settleOrder else s

end Sys2Proof.Machine
end

