-- ==== Sys2Proof/Machine/Spindle.lean ====
section
/-! DEFINITION. Family Spindle: the spindle engines (spec/04), start slots (spec/02 R81, R82). -/

namespace Sys2Proof.Machine

/-! ## Numbers -/

/-- Link ticks in a second: 1.66015625 GHz (spec/03 R104). -/
def tickRate : Nat := 1660156250

/-- 10 µs in ticks, taken up to a whole one (spec/04 R149; DESIGN CHOICE, log 7). -/
def leadTicks : Nat := ceilDiv (10000 * 425) 256

/-- Bits of the number of Table 4-1 phases: 0 U, 1 V, 2 W: the high phase, the low phase of a step. -/
def highPhase (s : Fin 6) : Nat := [0, 0, 1, 1, 2, 2].getD s.val 0
def lowPhase (s : Fin 6) : Nat := [1, 2, 2, 0, 0, 1].getD s.val 0

/-- The step that a crossing ends in forward order (spec/04 Table 4-1). -/
def crossingStep (phase : Nat) (rising : Bool) : Fin 6 :=
  match phase, rising with
  | 2, false => 0
  | 1, true => 1
  | 0, false => 2
  | 2, true => 3
  | 1, false => 4
  | _, _ => 5

def nextStep (s : Fin 6) : Fin 6 := s + 1

/-! ## Crossings and speed -/

/-- Order of two crossings, older first: true forward, false backward, none neither. -/
def dirOf (older newer : Zc) : Option Bool :=
  let g := Fin.ofNat 6 newer.gap
  if newer.step = older.step + g then some true else if older.step = newer.step + g then some false else none

/-- A crossing joins those in a consistent order; at most n are kept, newest first. -/
def pushZc (n : Nat) (z : Zc) : List Zc → List Zc
  | [] => [z]
  | [a] => if (dirOf a z).isSome then [z, a] else [z]
  | a :: b :: r =>
    if (dirOf a z).isSome ∧ dirOf a z = dirOf b a then z :: (a :: b :: r).take (n - 1)
    else if (dirOf a z).isSome then [z, a] else [z]

/-- The direction that crossings in order establish: three of them (spec/04 R162). -/
def zcDir (l : List Zc) : Option Bool := match l with
  | a :: b :: _ :: _ => dirOf b a
  | _ => none

/-- Back from the newest crossing over at least n steps, or as far as the crossings go: the instant reached and the steps to it. -/
def zcBack (n : Nat) : Nat → List Zc → Nat × Nat
  | steps, a :: b :: r =>
    if n ≤ steps + a.gap then (b.at_, steps + a.gap) else zcBack n (steps + a.gap) (b :: r)
  | steps, [a] => (a.at_, steps)
  | steps, [] => (0, steps)

/-- The revolution period in ticks as a fraction: the span of the last 6 × pole_pairs steps, or of those there are,
taken for a whole revolution (spec/04 R158, R162; DEDUCED, log 107). -/
def zcPeriod (polePairs : Nat) (l : List Zc) : Option (Nat × Nat) :=
  let b := zcBack (6 * polePairs) 0 l
  match l.head? with
  | some a => if 3 ≤ l.length ∧ b.1 < a.at_ then some ((a.at_ - b.1) * 6 * polePairs, b.2) else none
  | none => none

/-- The crossings span a whole revolution: the period is measured (spec/04 R158). -/
def zcWhole (polePairs : Nat) (l : List Zc) : Bool := decide (6 * polePairs ≤ (zcBack (6 * polePairs) 0 l).2)

/-- Whether a period's speed is at least some rpm. -/
def atLeastRpm (q : Nat × Nat) (rpm : Nat) : Bool := decide (rpm * q.1 ≤ 60 * tickRate * q.2)

/-- A period's speed in rpm, as reported (log 7). -/
def rpmOf (q : Nat × Nat) : Int := if q.1 = 0 then 0 else freeRound (60 * tickRate * q.2 : Nat) q.1

/-- The engine's pole pairs. -/
def Spin.pp (v : Spin) : Nat := match v.table with
  | some t => t.polePairs
  | none => 2

/-- The present revolution period. -/
def Spin.period (v : Spin) : Option (Nat × Nat) := zcPeriod v.pp v.zcs

/-- The speed is known and at least some rpm. -/
def Spin.above (v : Spin) (rpm : Nat) : Bool := match v.period with
  | some q => atLeastRpm q rpm
  | none => false

/-- |speed − target| ≤ target × n / 10,000, exactly. -/
def withinBand (q : Nat × Nat) (target n : Nat) : Bool :=
  let d := ((60 * tickRate * q.2 : Nat) : Int) - (target * q.1 : Nat)
  decide (d.natAbs * 10000 ≤ target * q.1 * n)

/-! ## Drive -/

/-- Duties of a step for an output u: u on the high phase and −1.0 on the low phase; a negative u exchanges them
(spec/04 R147, R159). -/
def duties (s : Fin 6) (u : Int) : Int × Int × Int :=
  let hi := if 0 ≤ u then highPhase s else lowPhase s
  let lo := if 0 ≤ u then lowPhase s else highPhase s
  let d (ph : Nat) : Int := if ph = hi then (u.natAbs : Int) else if ph = lo then -32768 else 0
  (d 0, d 1, d 2)

/-- A step driven at an output. -/
def State.driveStep (p : PortId) (st : Fin 6) (u : Int) (applyTime : Nat) (s : State) : State :=
  let d := duties st u
  (s.sendDrive p 1 d.1 d.2.1 d.2.2 applyTime).modSpin p fun v => { v with step := some st, output := u }

/-- Coast; SPIN_DRIVE.output reads 0 after it and after a short brake (DESIGN CHOICE, log 128: Table 4-8 gives it the last u). -/
def State.coast (p : PortId) (s : State) : State :=
  (s.sendDrive p 0 0 0 0 s.ticksNow).modSpin p fun v => { v with step := none, output := 0 }

def State.shortBrake (p : PortId) (st : SpinSt) (applyTime : Nat) (s : State) : State :=
  (s.sendDrive p 2 0 0 0 applyTime).modSpin p fun v => { v with step := none, output := 0, st := st, phaseAt := s.now }

/-- The advance table at a measured speed, in 0.1° (spec/04 R153). -/
def SpinTable.advanceAt (t : SpinTable) (q : Nat × Nat) : Nat :=
  let i := min 15 (60 * tickRate * q.2 / (625 * q.1))
  let a := t.advance.getD i 0
  let b := t.advance.getD (min 15 (i + 1)) 0
  let excess : Int := ((60 * tickRate * q.2 : Nat) : Int) - (625 * i * q.1 : Nat)
  (freeRound ((a : Int) * (625 * q.1 : Nat) + ((b : Int) - a) * excess) (625 * q.1)).toNat

/-- t_c − t_z in ticks for an advance and an electrical period (spec/04 R149). -/
def commDelay (advance te : Nat) : Nat := max leadTicks (freeRound (((300 : Int) - advance) * te) 3600).toNat

/-- The advance in force after the clamp, 0.1° (spec/04 R149, Table 4-8; the rounding is free, log 7). -/
def clampedAdvance (advance te : Nat) : Nat :=
  if te = 0 then advance
  else min advance (freeRound ((300 * te : Nat) - (3600 * leadTicks : Nat) : Int) te).toNat

/-! ## Speed loop (spec/04 R159), in units of 2^-32 duty -/

def q15 (d : Nat) : Int := (d : Int) * 131072

/-- The output and the integrator after an evaluation. -/
def speedLoop (t : SpinTable) (target : Nat) (reached chopper : Bool) (integ : Int) (q : Nat × Nat) : Int × Int :=
  let e (k : Nat) : Int := freeRound ((k : Int) * (((target * q.1 : Nat) : Int) - (60 * tickRate * q.2 : Nat))) q.1
  let hi := q15 (if reached then t.runDuty else t.startDuty)
  let lo : Int := if chopper then 0 else -(q15 t.brakeDuty)
  let v := e t.kp + integ + e t.ki
  if hi < v then (hi, integ) else if v < lo then (lo, integ) else (v, integ + e t.ki)

/-- The duty in Q1.15 of an output. -/
def dutyOf (u : Int) : Int := freeRound u 131072

/-! ## Starting, stopping -/

/-- A listen window opens: coast, and no crossing collected (spec/04 R162). -/
def State.listen (p : PortId) (s : State) : State :=
  (s.coast p).modSpin p fun v => { v with st := .listen, zcs := [], heard := 0, found := none, phaseAt := s.now }

/-- A start begins, its slot granted (spec/04 R162). -/
def State.beginStart (p : PortId) (s : State) : State :=
  (s.modSpin p fun v => { v with
    slotAt := some s.now, wantSlot := false, starts := satAdd 65535 v.starts 1, tests := 0, syncLosses := 0, cycles := 0
    forcedFails := 0, reached := false, inReg := false, sense := [], target := v.curve v.levelCmd, unloading := false
    thenStart := false, retarget := false, restart := false, aligned := false }).listen p

/-- Regenerative braking, or coasting while the chopper is faulted (spec/04 R169 step 2). -/
def State.regen (p : PortId) (s : State) : State :=
  let v := s.spin p
  let s := s.modSpin p fun x => { x with st := .regenDown, phaseAt := s.now }
  let last := match v.step with
    | some k => some k
    | none => v.zcs.head?.map fun z => nextStep z.step
  match v.table, last with
  | some t, some st => if v.chopper then s.coast p else s.driveStep p st (-(t.brakeDuty : Int)) s.ticksNow
  | _, _ => s

/-- Step 2 of a spin-down, or step 3 at once when the speed is already below 600 rpm (spec/04 R169). -/
def State.brakeDown (p : PortId) (s : State) : State :=
  let s := s.modSpin p fun v => { v with unloading := false, inLock := false, inReg := false }
  if (s.spin p).above 600 then s.regen p else s.shortBrake p .shortStop s.ticksNow

/-- A spin-down: both loaded sides are unloaded and their answers awaited; a start slot is freed (spec/04 R169,
R174). -/
def State.spinDown (p : PortId) (s : State) : State :=
  let s := (s.freeSlot p).modSpin p fun v => { v with thenStart := false, retarget := false, restart := false }
  let s := (s.leaveService p true).unloadSides p
  if (fins 2).any fun sd => (s.act (actOf p sd)).loaded then s.modSpin p fun v => { v with unloading := true }
  else s.brakeDown p

/-- A start has failed: it is counted, and the port is marked failed (spec/04 R168; spec/03 Table 3-16). -/
def State.markFailedStart (p : PortId) (s : State) : State :=
  let s := (s.modSpin p fun v => { v with failures := satAdd 255 v.failures 1 }).raiseSpin p 1
  (s.modPort p fun x => { x with
    train := 0xA, fail := 0xA, startMark := true, inService := false, ended := true, entered := true }).raisePort p 4

/-- A start failure (spec/04 R168): the spindle is stopped, the port is marked failed, the slot is freed. -/
def State.startFailure (p : PortId) (s : State) : State :=
  (((s.spinDown p).markFailedStart p).freeSlot p).settle

/-- The rotor is at rest after a spin-down: coast; a start that waited for the stop asks for its slot (spec/04 R169,
R174). -/
def State.atRest (p : PortId) (s : State) : State :=
  (((s.coast p).completeWait (.unload p true)).modSpin p fun v => { v with
    st := if v.ovLatched then .ovBrake else if (s.port p).startMark then .startFailed else .stopped
    turning := false, rpm := 0, periodNs := 0xFFFFFFFF, zcs := [], wantSlot := v.thenStart, thenStart := false }).noteService p

/-- A brake-and-listen cycle of Table 4-2; the sixth is a start failure: five have not found the rotor at rest
(spec/04 R163, R168). -/
def State.brakeAgain (p : PortId) (s : State) : State :=
  if 5 ≤ (s.spin p).cycles then s.startFailure p
  else (s.shortBrake p .brakeToStop s.ticksNow).modSpin p fun v => { v with cycles := v.cycles + 1, restBrake := false }

/-- The short brake of 200 ms before the saturation test (spec/04 Table 4-2). -/
def State.restBrake (p : PortId) (s : State) : State :=
  (s.shortBrake p .brakeToStop s.ticksNow).modSpin p fun v => { v with restBrake := true }

/-- A catch: commutation starts on the next crossing (spec/04 Table 4-2). -/
def State.catchSpindle (p : PortId) (t : SpinTable) (q : Nat × Nat) (s : State) : State :=
  let top := t.speed 1023
  let est := freeRound ((t.runDuty * (60 * tickRate * q.2) : Nat) : Int) (max 1 (top * q.1))
  let te := (freeRound q.1 (q.2 * t.polePairs)).toNat
  (s.modSpin p fun v => { v with
    st := .closedLoop, step := none, integ := (min (t.startDuty : Int) est) * 131072, catches := satAdd 255 v.catches 1
    te := te, missed := 0, cyc := 0, lockRevs := 0, outRevs := 0
    output := min (t.startDuty : Int) est, adv := t.advanceAt q, advance := clampedAdvance (t.advanceAt q) te }).raiseSpin p 2

/-- The engine acts on the outcome of a listen window (spec/04 R162, R163, R169). Three crossings or more that establish no direction:
the rotor turns, and is braked and heard again (DEDUCED, log 107). -/
def State.closeListen (p : PortId) (s : State) : State :=
  let v := s.spin p
  if v.slotAt.isSome = false then (if v.heard < 3 then s.atRest p else s.shortBrake p .shortStop s.ticksNow)
  else if v.heard < 3 then
    (s.modSpin p fun v => { v with turning := false, rpm := 0, periodNs := 0xFFFFFFFF, zcs := [] }).restBrake p
  else
    match v.found, v.table with
    | some (true, q), some t => if atLeastRpm q 300 then s.catchSpindle p t q else s.brakeAgain p
    | some (false, q), some _ =>
      if atLeastRpm q 60 then s.modSpin p fun v => { v with st := .activeBraking, backward := true } else s.brakeAgain p
    | _, _ => s.brakeAgain p

/-- LISTEN_WINDOW_CLOSE (spec/04 R162): after 100 ms. -/
def execListenWindowClose (p : PortId) (s : State) : Host.Outcome State Fault Refusal :=
  .next <|
    if (s.spin p).st = .listen then (s.at_ ((s.spin p).phaseAt + 100 * Config.ms)).closeListen p else s

/-- One pair of the saturation test is sent (spec/04 R164). -/
def State.sendSense (p : PortId) (pair : Nat) (s : State) : State :=
  let w := match (s.spin p).table with
    | some t => t.senseWidth
    | none => 0
  s.sendRequest p 0x21 (packBytes [(1, pair), (1, 0), (2, w)])

/-- The saturation test begins. -/
def State.senseTest (p : PortId) (s : State) : State :=
  (s.modSpin p fun v => { v with st := .satTest, sense := [], tests := v.tests + 1 }).sendSense p 0

/-- SHORT_BRAKE_DONE: after 200 ms before a start from rest, else after stop_brake_ms (spec/04 R163, R169). -/
def execShortBrakeDone (p : PortId) (s : State) : Host.Outcome State Fault Refusal :=
  .next <|
    let v := s.spin p
    match v.table with
    | none => s
    | some t =>
      if v.st = .brakeToStop then
        if v.restBrake then ((s.at_ (v.phaseAt + 200 * Config.ms)).modSpin p fun v => { v with tests := 0 }).senseTest p
        else (s.at_ (v.phaseAt + t.stopBrakeMs * Config.ms)).listen p
      else if v.st = .shortStop then (s.at_ (v.phaseAt + t.stopBrakeMs * Config.ms)).listen p
      else s

/-- Forced acceleration begins at a step (spec/04 R167). -/
def State.startForced (p : PortId) (st : Fin 6) (s : State) : State :=
  match (s.spin p).table with
  | none => s
  | some t =>
    (s.modSpin p fun v => { v with st := .forced, forcedAt := s.now, forcedStepAt := s.ticksNow, forcedOk := 0
                                   forcedGot := false, forcedN := 0, zcs := [] }).driveStep p st t.startDuty s.ticksNow

/-- ALIGNMENT_DONE: align_ms have passed (spec/04 R165). -/
def execAlignmentDone (p : PortId) (s : State) : Host.Outcome State Fault Refusal :=
  .next <|
    let v := s.spin p
    match v.table with
    | some t => if v.st = .alignment then (s.at_ (v.phaseAt + t.alignMs * Config.ms)).startForced p 2 else s
    | none => s

/-- The pair with the largest |d|, its d; the first of equals (DEDUCED, log 20). -/
def bestPair (l : List Int) : Nat × Int :=
  l.zipIdx.foldl (fun b q => if b.2.natAbs < q.1.natAbs then (q.2, q.1) else b) (0, l.headD 0)

/-- The first forced step for a rotor angle in units of 30° (spec/04 R164). -/
def firstForced (k : Nat) : Fin 6 := if k % 2 = 0 then Fin.ofNat 6 ((k + 4) / 2) else Fin.ofNat 6 ((k + 5) / 2)

/-- The six pairs are judged (spec/04 R164, R165). -/
def State.judgeSense (p : PortId) (t : SpinTable) (l : List Int) (s : State) : State :=
  let b := bestPair l
  let s := s.modSpin p fun v => { v with margin := b.2.natAbs, reverse := decide (b.2 < 0), pair := Fin.ofNat 6 b.1 }
  if b.2.natAbs < t.senseMargin then
    if (s.spin p).tests < 3 then s.senseTest p
    else
      let s := (s.modSpin p fun v => { v with aligned := true }).raiseSpin p 8
      (s.modSpin p fun v => { v with st := .alignment, phaseAt := s.now }).driveStep p 0 t.startDuty s.ticksNow
  else (s.modSpin p fun v => { v with aligned := false }).startForced p (firstForced (if 0 < b.2 then b.1 else b.1 + 6))

/-- A request refused with status 0x03: the companion does not obey (spec/03 R729). -/
def State.refusedFenced (p : PortId) (s : State) : State := if (s.port p).obeyed then s.obedienceLost p else s

/-- SPINDLE_SENSE_RESPONSE (spec/04 R164 to R166). -/
def execSpindleSenseResponse (p : PortId) (s : State) : Host.Outcome State Fault Refusal :=
  .next <| s.takeAnswer p 0x21 fun r k s =>
    let v := s.spin p
    match v.table with
    | none => s.answered p r
    | some t =>
      if k.status = 4 then s.busyAnswer p r fun s => if v.st = .satTest then s.startFailure p else s
      else
        let s := s.answered p r
        if v.st ≠ .satTest then (if k.status = 3 then s.refusedFenced p else s)
        else if k.status = 3 ∧ (s.port p).obeyed then ((s.markFailedStart p).obedienceLost p).settle
        else if k.status ≠ 0 then s.startFailure p
        else
          let fwd := field k.payload 0 2
          let rev := field k.payload 2 2
          if fwd = 0xFFFF ∨ rev = 0xFFFF then (s.raiseSpin p 7).startFailure p
          else
            let l := v.sense ++ [(rev : Int) - fwd]
            let s := s.modSpin p fun v => { v with sense := l }
            if l.length < 6 then s.sendSense p l.length else s.judgeSense p t l

/-- SPINDLE_SENSE_RETRY: 1 ms after a busy answer (spec/04 R166). -/
def execSpindleSenseRetry (p : PortId) (s : State) : Host.Outcome State Fault Refusal :=
  .next <| s.busyRetry p 0x21 fun _ => true

/-- Closed-loop acceleration takes over from forced acceleration (spec/04 R167), its integrator from 0 (DESIGN CHOICE, log 108). -/
def State.handover (p : PortId) (t : SpinTable) (s : State) : State :=
  s.modSpin p fun v =>
    let a := match v.period with
      | some q => t.advanceAt q
      | none => 0
    { v with
      st := .closedLoop, integ := 0, missed := 0, cyc := 0, lockRevs := 0, outRevs := 0, adv := a
      advance := clampedAdvance a v.te }

/-- The forced rate has reached some rpm: forced_accel × t ≥ rpm. -/
def rateReached (t : SpinTable) (ns rpm : Nat) : Bool := decide (rpm * Config.sec ≤ t.forcedAccel * ns)

/-- The integer square root of n, bit by bit: k bits are left below those of r. -/
def isqrt : Nat → Nat → Nat → Nat
  | 0, _, r => r
  | k + 1, n, r => isqrt k n (if (r + 2 ^ k) * (r + 2 ^ k) ≤ n then r + 2 ^ k else r)

/-- ns after its start at which the n-th step of the forced schedule ends: the rate rises evenly from 0, so
pole_pairs × accel × t² / 20 steps lie behind t seconds; whole ns, the rounding free (log 7). -/
def forcedEnd (t : SpinTable) (n : Nat) : Nat :=
  let a := 20 * n * 10 ^ 18
  let b := t.polePairs * max 1 t.forcedAccel
  let r := isqrt 64 (a / b) 0
  if r * r * b = a then r else r + bit (Config.roundUp a b)

/-- FORCED_STEP: the schedule's next step, the handover, or twice handover_rpm without it (spec/04 R167). -/
def execForcedStep (p : PortId) (s : State) : Host.Outcome State Fault Refusal :=
  .next <|
    let v := s.spin p
    match v.table, v.step with
    | some t, some st =>
      if v.st ≠ .forced then s
      else
        let s := s.at_ (v.forcedAt + forcedEnd t (v.forcedN + 1))
        let ns := s.now - v.forcedAt
        let ok := if v.forcedGot then v.forcedOk else 0
        if rateReached t ns t.handoverRpm ∧ 6 ≤ ok then (s.handover p t).driveStep p (nextStep st) t.startDuty s.ticksNow
        else if rateReached t ns (2 * t.handoverRpm) then
          if 1 ≤ v.forcedFails then s.startFailure p
          else (s.modSpin p fun v => { v with forcedFails := v.forcedFails + 1, zcs := [] }).restBrake p
        else
          (s.modSpin p fun v => { v with
            forcedN := v.forcedN + 1, forcedStepAt := s.ticksNow, forcedOk := ok, forcedGot := false }).driveStep p
            (nextStep st) t.startDuty s.ticksNow
    | _, _ => s

/-! ## Running -/

/-- Table 4-1 states in which the engine commutates in closed loop. -/
def SpinSt.runs : SpinSt → Bool
  | .closedLoop | .atSpeed | .outOfReg | .regenDown => true
  | .stopped | .listen | .brakeToStop | .activeBraking | .satTest | .alignment | .forced | .shortStop | .ovBrake
  | .startFailed => false

/-- at_speed: 16 revolutions in the lock band; the sides are loaded at the run level's speed (spec/04 R157, R160,
R161). -/
def State.reachSpeed (p : PortId) (s : State) : State :=
  let s := ((s.modSpin p fun v => { v with st := .atSpeed, inLock := true, reached := true, outRevs := 0 }).raiseSpin p 0).settleOrder
  let v := s.spin p
  if v.atRun = true ∧ v.unloading = false ∧ v.retarget = false ∧ (s.port p).removed = false then
    s.each (s.port p).sides fun sd s => s.load (actOf p sd)
  else s

/-- A spindle at speed leaves regulation: gates closed, sides unloaded, the port out of service (spec/04 R161). -/
def State.leaveRegulation (p : PortId) (s : State) : State :=
  let s := (s.modSpin p fun v => { v with st := .outOfReg, inLock := false, outAt := s.now, lockRevs := 0 }).raiseSpin p 5
  (s.leaveService p true).unloadSides p

/-- The target follows the level: a turning spindle leaves at_speed, and reaches it anew at the new target (spec/04 R157). -/
def State.takeLevel (p : PortId) (s : State) : State :=
  s.modSpin p fun v => { v with
    target := v.curve v.levelCmd, retarget := false, st := if v.st = .atSpeed then .closedLoop else v.st, inLock := false
    lockRevs := 0, outRevs := 0 }

/-- The tests made once a revolution (spec/04 R160, R161). -/
def State.revolution (p : PortId) (q : Nat × Nat) (s : State) : State :=
  let v := s.spin p
  let lock := withinBand q v.target 2
  let reg := withinBand q v.target 10
  let lr := if lock then v.lockRevs + 1 else 0
  let outs := if reg then 0 else v.outRevs + 1
  let s := s.modSpin p fun v => { v with lockRevs := lr, outRevs := outs, inReg := reg }
  if (v.st = .closedLoop ∨ v.st = .outOfReg) ∧ 16 ≤ lr then s.reachSpeed p
  else if v.st = .atSpeed ∧ 2 ≤ outs then s.leaveRegulation p
  else s

/-- Once per electrical cycle: the speed loop and the advance (spec/04 R153, R159), and once a revolution its tests. -/
def State.cycle (p : PortId) (t : SpinTable) (s : State) : State :=
  let v := s.spin p
  match v.period with
  | none => s
  | some q =>
    let r := speedLoop t v.target v.reached v.chopper v.integ q
    let n := v.cyc + 1
    let a := t.advanceAt q
    let s := s.modSpin p fun v => { v with
      output := if v.st = .regenDown then v.output else dutyOf r.1, integ := if v.st = .regenDown then v.integ else r.2
      adv := a, advance := clampedAdvance a v.te, cyc := if n < v.pp then n else 0 }
    if n < v.pp then s else s.revolution p q

/-- The commutation that follows a crossing (spec/04 R149); a regenerative spin-down drives −brake_duty_max, and coasts
while the chopper is faulted (R169, R170). -/
def State.commutate (p : PortId) (t : SpinTable) (st : Fin 6) (tz : Nat) (s : State) : State :=
  let v := s.spin p
  let tc := tz + commDelay v.adv v.te
  if v.st = .regenDown then
    if v.chopper then s else s.driveStep p st (-(t.brakeDuty : Int)) tc
  else s.driveStep p st v.output tc

/-- What the registers report of a crossing: speed, direction, and the period once a whole revolution is measured (spec/04 R158, Tables
4-7, 4-8); `turning` falls only elsewhere (DESIGN CHOICE, log 150). -/
def State.noteSpeed (p : PortId) (s : State) : State :=
  s.modSpin p fun v =>
    let back := match zcDir v.zcs with
      | some d => !d
      | none => v.backward
    match v.period with
    | some q => { v with
        turning := true, backward := back, rpm := if back then -(rpmOf q) else rpmOf q
        periodNs := if zcWhole v.pp v.zcs then BitVec.ofInt 32 (freeRound ((q.1 * 256 : Nat) : Int) (q.2 * 425)) else 0xFFFFFFFF }
    | none => { v with turning := true, backward := back }

/-- The electrical period that the newest crossings give: the span of six steps, else of those there are (rounding free, log 7). -/
def zcTe (l : List Zc) (old : Nat) : Nat :=
  let b := zcBack 6 0 l
  match l.head? with
  | some a => if b.2 = 0 then old else (freeRound (((a.at_ - b.1) * 6 : Nat) : Int) b.2).toNat
  | none => old

/-- The crossing that a commutating engine expects: the one that ends the step in force; any while it coasts or is about to catch. -/
def Spin.expects (v : Spin) (z : Zc) : Bool := v.step.all (· == z.step)

/-- A crossing joins the history: in its order, and for a commutating engine, one that it expects, past those missed. -/
def Spin.pushZc (v : Spin) (z : Zc) : Spin :=
  let n := 6 * v.pp + 1
  if v.st.runs then (if v.expects z then { v with zcs := { z with gap := v.missed + 1 } :: v.zcs.take (n - 1) } else v)
  else
    let v := { v with zcs := Machine.pushZc n z v.zcs, heard := v.heard + 1 }
    match zcDir v.zcs, v.period with
    | some d, some q => { v with found := some (d, q) }
    | _, _ => v

/-- A crossing reaches a commutating engine: expected crossings commutate, others change nothing. The first one of a catch is driven at
once in the step that it ends (spec/04 Table 4-2). -/
def State.runCrossing (p : PortId) (t : SpinTable) (z : Zc) (s : State) : State :=
  let v := s.spin p
  if v.expects z = false ∨ (v.unloading = true ∧ v.step.isNone = true) then s
  else
    let s := s.modSpin p fun v => { v with missed := 0, te := zcTe v.zcs v.te }
    let s := s.when (v.step.isNone && v.st != .regenDown) fun s => s.driveStep p z.step v.output s.ticksNow
    let s := s.when (z.step == 5) (State.cycle p t)
    if (s.spin p).st.runs = false then s
    else if (s.spin p).st = .regenDown ∧ (s.spin p).above 600 = false then s.shortBrake p .shortStop s.ticksNow
    else s.commutate p t (nextStep z.step) z.at_

/-- Active braking: a reverse crossing moves the drive to the step that it ends, until the speed is below 60 rpm (spec/04
Table 4-2). -/
def State.brakeCrossing (p : PortId) (t : SpinTable) (z : Zc) (s : State) : State :=
  let v := s.spin p
  if v.period.isSome ∧ v.above 60 = false then s.brakeAgain p
  else if zcDir v.zcs = some true then s
  else s.driveStep p z.step t.startDuty (z.at_ + leadTicks)

/-- A crossing during forced acceleration: it counts when it ends the step that is driven, while that is driven, once in each step; one
out of order begins the count anew (spec/04 R167). -/
def State.forcedCrossing (p : PortId) (t : SpinTable) (z : Zc) (s : State) : State :=
  let v := s.spin p
  let good := decide (v.step = some z.step ∧ v.forcedStepAt ≤ z.at_)
  let n := if good then (if v.forcedGot then 1 else v.forcedOk + 1) else 0
  let s := s.modSpin p fun v => { v with forcedOk := n, forcedGot := good, te := zcTe v.zcs v.te }
  if 6 ≤ n ∧ rateReached t (s.now - v.forcedAt) t.handoverRpm then (s.handover p t).commutate p t (nextStep z.step) z.at_ else s

/-- SPIN_EVENT: a zero crossing is taken by the engine (spec/04 R148). -/
def execSpinEvent (p : PortId) (s : State) : Host.Outcome State Fault Refusal :=
  .next <| s.takeRx p 0xE1 fun k s =>
    let at_ : Int := (s.ticksNow : Int) + signed 32 ((BitVec.ofNat 32 (field k.payload 4 4) - s.linkNow32).toNat)
    let z : Zc := { at_ := at_.toNat, step := crossingStep (field k.payload 0 1) (field k.payload 1 1 == 1) }
    match (s.spin p).table with
    | none => s
    | some t =>
      let s := (s.modSpin p fun v => v.pushZc z).noteSpeed p
      let v := s.spin p
      if v.st = .listen then (if 7 ≤ v.zcs.length then s.closeListen p else s)
      else if v.st = .activeBraking then s.brakeCrossing p t z
      else if v.st = .forced then s.forcedCrossing p t z
      else if v.st.runs = true then s.runCrossing p t z
      else s

/-- Sync loss: coast, and the start rules again; three in one start are a start failure (spec/04 R151, R168). A spindle
that held no slot leaves service and asks for one; a spin-down goes on, coasting until its sides are unloaded, or with a listen window
(R169; DEDUCED, log 69). -/
def State.syncLost (p : PortId) (s : State) : State :=
  let s := ((s.coast p).modSpin p fun v => { v with
    syncLosses := v.syncLosses + 1, missed := 0, inLock := false, inReg := false }).raiseSpin p 6
  let v := s.spin p
  if v.unloading then s.modSpin p fun v => { v with zcs := [] }
  else if 3 ≤ v.syncLosses ∧ v.slotAt.isSome then s.startFailure p
  else if v.slotAt.isSome ∨ v.st = .regenDown then s.listen p
  else
    let s := (s.leaveService p true).unloadSides p
    (s.modSpin p fun v => { v with st := .stopped, wantSlot := true, restart := true, retarget := false,
                                     target := if v.retarget then v.curve v.levelCmd else v.target }).noteService p

/-- MISSED_CROSSING: no crossing by t_z + T_e/6 + T_e/12: the engine commutates on the prediction; six in a row are a
sync loss (spec/04 R151; the rounding to ticks is free, log 7). -/
def execMissedCrossing (p : PortId) (s : State) : Host.Outcome State Fault Refusal :=
  .next <|
    let v := s.spin p
    match v.table, v.step, v.zcs with
    | some t, some st, z :: _ =>
      if v.st.runs = false ∨ v.te = 0 then s
      else
        let tz := z.at_ + (freeRound (((v.missed + 1) * v.te : Nat) : Int) 6).toNat
        let s := s.at_ (nsOfTicks (tz + (freeRound v.te 12).toNat))
        if 5 ≤ v.missed then s.syncLost p
        else (s.modSpin p fun v => { v with missed := v.missed + 1 }).commutate p t (nextStep st) tz
    | _, _, _ => s

/-- SPINDLE_DRIVE_REPEAT: 5 ms without one, in drive and short-brake mode: the current one again, with its apply_time while that
lies ahead (spec/04 R150, R152). -/
def execSpindleDriveRepeat (p : PortId) (s : State) : Host.Outcome State Fault Refusal :=
  .next <|
    let d := (s.spin p).drive
    if d.mode = 0 then s
    else
      let s := s.at_ (d.sentAt + 5 * Config.ms)
      s.sendDrive p d.mode d.u d.v d.w (max d.applyAt s.ticksNow)

/-- REGULATION_RECOVERY_TIMEOUT: at_speed not set again within 15 s (spec/04 R161). -/
def execRegulationRecoveryTimeout (p : PortId) (s : State) : Host.Outcome State Fault Refusal :=
  .next <|
    if (s.spin p).st = .outOfReg then (s.at_ ((s.spin p).outAt + 15 * Config.sec)).startFailure p else s

/-- SPIN_DOWN: a turning spindle whose level is below 48 is spun down; one already braking goes on to the short brake
below 600 rpm (spec/04 R155, R169). -/
def execSpinDown (p : PortId) (s : State) : Host.Outcome State Fault Refusal :=
  .next <|
    let v := s.spin p
    if v.ovLatched then s
    else if v.unloading then s
    else if v.st = .regenDown then (if v.above 600 then s else s.shortBrake p .shortStop s.ticksNow)
    else if v.levelCmd < 48 ∧ (v.st = .closedLoop ∨ v.st = .atSpeed ∨ v.st = .outOfReg) then s.spinDown p
    else s

/-! ## Overvoltage (spec/04 R171, R172) -/

/-- R171: urgent short brake, ACT_PARK for every loaded side, the latches and the events; a start's slot is freed. 0.5 µs is taken up to
a whole tick (DESIGN CHOICE, log 7). -/
def State.overvoltage (p : PortId) (s : State) : State :=
  let sides := (fins 2).filter fun sd => (s.act (actOf p sd)).loaded || (s.act (actOf p sd)).loading
  let s := s.shortBrake p .ovBrake (s.ticksNow + ceilDiv (500 * 425) 256)
  let s := s.each sides fun sd s => s.sendRequestUrgent p 0x13 (packBytes [(1, sd.val), (1, 0), (2, 0)])
  let s := s.each sides fun sd s => (s.permit (actOf p sd) false false).modAct (actOf p sd)
    fun x => { x with region := .parked, writeAllowed := false, readAllowed := false, loaded := true, loading := false
                      newTarget := none, fresh := false, sample := none, reloadLost := false, reloadSeek := false }
  let s := (s.modSpin p fun v => { v with ovLatched := true, refused := true, inLock := false, inReg := false
                                          unloading := false, thenStart := false, retarget := false }).freeSlot p
  let s := (s.raiseSpin p 4).modPort p fun x => { x with degraded := true }
  s.leaveService p true

/-- The supply is above 14.5 V with the chopper faulted, by a report's flags (spec/03 Table 3-8, STATUS flags [0] and
[1]). -/
def ovFlags (flags : Nat) : Bool := flags % 4 == 3

/-- SPIN_ALERT (spec/04 R171). A companion that does not obey this controller takes none of its packets, so nothing of R171 is done on
its lane (DESIGN CHOICE, log 127). -/
def execSpinAlert (p : PortId) (s : State) : Host.Outcome State Fault Refusal :=
  .next <| s.takeRx p 0xE2 fun k s =>
    let s := (s.modPort p fun x => { x with supplyMv := BitVec.ofNat 16 (field k.payload 0 2)
                                            flags := BitVec.ofNat 16 (field k.payload 2 2) }).raisePort p 3
    if ovFlags (field k.payload 2 2) ∧ (s.spin p).ovLatched = false ∧ (s.port p).obeyed then s.overvoltage p else s

/-- What a STATUS says of the chopper (spec/04 R170, R171, Table 4-4). -/
def State.chopperStatus (p : PortId) (flags : Nat) (s : State) : State :=
  let bad := flags % 2 == 1
  let was := (s.spin p).chopper
  let s := s.modSpin p fun v => { v with chopper := bad }
  let s := s.when (bad && !was) (State.raiseSpin p 3)
  let v := s.spin p
  if ovFlags flags ∧ v.ovLatched = false ∧ (s.port p).obeyed then s.overvoltage p
  else if v.st = .regenDown ∧ bad ∧ ¬ was then s.coast p
  else if v.st = .regenDown ∧ ¬ bad ∧ was ∧ v.above 600 then s.regen p
  else if bad = true ∧ v.output < 0 ∧ v.st.runs = true then
    match v.step with
    | some st => s.driveStep p st 0 s.ticksNow
    | none => s.modSpin p fun v => { v with output := 0 }
  else s

/-! ## Start slots (spec/02 R81, R82) -/

/-- A start needs a level of 64 or more; a spindle left coasting by a sync loss or a port reset keeps running at 48 to 63 (spec/04
R155). -/
def Spin.mayTurn (v : Spin) : Bool := decide (64 ≤ v.levelCmd) || (v.restart && decide (48 ≤ v.levelCmd))

/-- A port may start its spindle now. -/
def State.mayStart (p : PortId) (s : State) : Bool :=
  let x := s.port p
  let v := s.spin p
  s.boot.complete && v.wantSlot && !v.refused && v.table.isSome && v.mayTurn && x.train == 9 && x.obeyed &&
    x.persVerified && s.mayGoOn p && !x.removed && !s.power.inPs3 && !s.power.entering

/-- Spindles in their start phase. -/
def State.starting (s : State) : Nat := ((fins 32).filter fun p => (s.spin p).slotAt.isSome).length

/-- START_SLOT_GRANT: the lowest port that waits takes a free slot (spec/02 R81; spec/04 R162). -/
def execStartSlotGrant (s : State) : Host.Outcome State Fault Refusal :=
  .next <|
    if s.starting < s.boot.spinGroup then
      match (fins 32).find? fun p => s.mayStart p with
      | some p => (s.beginStart p).noteProgress
      | none => s
    else s

/-! ## Speed level (spec/04 R154 to R157, Table 4-4) -/

/-- A spin-down is under way: its unload, its braking, or a listen window of its stop. -/
def Spin.stopping (v : Spin) : Bool :=
  v.unloading || v.st == .regenDown || v.st == .shortStop || (v.st == .listen && v.slotAt.isNone)

/-- The rotor is known to turn forward at some rpm or more. -/
def Spin.forwardAt (v : Spin) (rpm : Nat) : Bool := zcDir v.zcs == some true && v.above rpm

/-- A level of 64 or more asks a standing spindle to start (R155). -/
def State.askStart (p : PortId) (s : State) : State :=
  (s.modSpin p fun v => { v with wantSlot := v.st == .stopped && !v.refused && v.table.isSome && v.mayTurn }).noteService p

/-- The level of a spindle that is being spun down changes: forward at 300 rpm or more it is caught, in a start slot of its own
(spec/02 R83); otherwise its stop completes and a start follows (Table 4-4). A level of 48 to 63 lets the spin-down go on, and a level
below 64 takes back a start that waited for the stop (DESIGN CHOICE, log 125: R155 and Table 4-4 do not say). -/
def State.levelWhileStopping (p : PortId) (level : Nat) (s : State) : State :=
  let v := s.spin p
  if level < 64 then s.modSpin p fun v => { v with thenStart := false }
  else if v.forwardAt 300 ∧ (s.port p).removed = false then
    (((s.coast p).modSpin p fun v => { v with
      st := .stopped, unloading := false, thenStart := false, wantSlot := true, restart := true
      target := v.curve level }).noteService p).completeWait (.unload p true)
  else s.modSpin p fun v => { v with thenStart := true, target := v.curve level }

/-- The level of a spindle that turns under its loop, or starts: a new target, for which loaded sides are unloaded first
(R157). A start goes on at a level of 48 to 63 (R155; DESIGN CHOICE, log 125). -/
def State.levelWhileTurning (p : PortId) (level : Nat) (s : State) : State :=
  let v := s.spin p
  let up := (fins 2).any fun sd => (s.act (actOf p sd)).loaded || (s.act (actOf p sd)).loading
  if v.slotAt.isSome ∧ up = false then s.takeLevel p
  else if v.curve level = v.target ∧ v.retarget = false then s
  else
    let s := (s.leaveService p true).unloadSides p
    if up then s.modSpin p fun v => { v with retarget := true } else s.takeLevel p

/-- The level is set (R154 to R157). -/
def State.setLevel (p : PortId) (level : Nat) (s : State) : State :=
  let s := s.modSpin p fun v => { v with levelCmd := level }
  let v := s.spin p
  if v.ovLatched ∨ v.table.isNone = true then s
  else if v.stopping then s.levelWhileStopping p level
  else if v.stands then
    if level < 48 ∧ v.turning = true ∧ (s.port p).obeyed = true then s.spinDown p
    else (s.modSpin p fun v => { v with target := v.curve level }).askStart p
  else if level < 48 then s.spinDown p
  else s.levelWhileTurning p level

end Sys2Proof.Machine
end

