-- ==== Sys2Proof/Machine/Train.lean ====
section
/-! DEFINITION. Family Train: port training, identity, measurement, personality data, fencing and hot-add (spec/03 R124 to
R142; spec/16 R581 to R584). -/

namespace Sys2Proof.Machine

/-! ## Timeouts of the training states (spec/03 Table 3-12) -/

def stateTimeout (st : Nat) : Nat :=
  match st with
  | 1 => 10 * Config.ms
  | 2 => 5 * Config.ms
  | 3 => 60 * Config.ms
  | 4 => 2 * Config.ms
  | 5 => 10 * Config.ms
  | 6 => 10 * Config.ms
  | 7 => Config.ms
  | _ => 60 * Config.ms

def State.enterTrain (p : PortId) (n : Fin 16) (s : State) : State :=
  (s.modPort p fun x => { x with
    train := n, stateAt := s.now, inService := false, chkCorr := 0, chkBase := none, chkRise := (0, 0), aligned := 0 }).noteService p

/-- The error check of training state 5 holds: in its 10 ms no uncorrectable block, and fewer than 1 in 1,000 corrected, of the 488,281
blocks of the sample lane and of the 122,070 of the command lane, as far as the companion's STATUS reports tell (spec/03 Tables 3-1,
3-12; DEDUCED, log 68). -/
def Port.errorCheck (x : Port) : Bool :=
  !(x.smpBadAt.any fun t => decide (x.stateAt ≤ t)) && x.chkRise.2 == 0 && decide (1000 * x.chkCorr < 488281) &&
    decide (1000 * x.chkRise.1 < 122070)

/-- The command lane starts sending from an alignment block (spec/03 R95). -/
def State.startLane (p : PortId) (s : State) : State :=
  s.modPort p fun x => { x with cmdUp := true, txPos := 0, txScram := prbsOnes, txSeq := 0, txSeq0 := 0, txSeq1 := 0
                                scram := prbsOnes, rxPos := none }

/-! ## Fencing (spec/03 R124, R130, R131) -/

/-- This controller owns a port for training state 7: in a pair while paired or solo (spec/03 R131). -/
def State.owns (s : State) (p : PortId) : Bool :=
  !s.pair.mode || ((s.pair.st == .paired || s.pair.st == .solo) && s.pair.own.getLsbD p.val)

/-- The token of the pair epoch (spec/03 R124). -/
def State.pairToken (s : State) : Nat := 2 * s.pair.epoch.toNat + bit s.pair.side

/-- A token presented, and kept as this controller's own. -/
def State.present (p : PortId) (token : Nat) (s : State) : State :=
  (s.modPort p fun x => { x with own := BitVec.ofNat 64 token }).sendRequest p 0x01 (leBytes 8 token)

/-- Training state 7 begins: the query of R130, or the pair's token on an owned port; with no epoch left to present none is sent and
the port fails (R124), with no PORT_EVENTS.fenced (DESIGN CHOICE, log 148). -/
def State.startFence (p : PortId) (s : State) : State :=
  let s := s.enterTrain p 7
  if s.pair.mode ∧ s.owns p = true then (if s.pair.epochOver then s.trainFails p 6 else s.present p s.pairToken)
  else s.sendRequest p 0x01 (leBytes 8 0)

/-! ## Recording and personality data -/

/-- The next piece of the personality data is asked for (spec/03 R136). -/
def State.readPers (p : PortId) (s : State) : State :=
  let x := s.port p
  let left := field x.companion.ident 12 4 - x.pers.length
  s.sendRequest p 0x04 (packBytes [(4, x.pers.length), (2, min 224 left), (2, 0)])

/-- A measured and recorded port goes on: personality data (spec/16 R583). -/
def State.goOn (p : PortId) (s : State) : State :=
  (s.modPort p fun x => { x with pers := [], persVerified := false }).readPers p

/-- A COMP_FW ends: it is recorded, and its packet answered with the result code and the fw_version; a handover that waited for the reply
goes on (spec/19 Tables 19-8, 19-11, 19-12). -/
def State.compReply (result : Nat) (s : State) : State :=
  match s.svc.comp with
  | none => s
  | some c =>
    let new := field (s.port c.port).companion.measure 0 4
    let s := s.emit 0x0F 0x8002 c.port.val (pay [(1, result), (3, 0), (4, c.old.toNat), (4, new)])
    ((s.modSvc fun v => { v with comp := none, busy := none, endedAt := s.now }).emitOut
      (.reply 0x20 c.tag 0x00 (packBytes [(1, result), (3, 0), (4, new)]))).handSend

/-- A COMP_FW whose companion has been measured and recorded (spec/19 R668 to R670): a wrong digest gives result 4 and
leaves the port out; else the port returns when asked to, and its packet is answered once it has (R668 step 6). A spindle that may not
start cannot return. -/
def State.compRecorded (c : CompFw) (s : State) : State :=
  let p := c.port
  if (s.port p).companion.measure.drop 8 ≠ digestBytes c.digest then s.compReply 4
  else if c.ret then
    let s := s.modPort p fun x => { x with removed := false }
    if (s.spin p).refused ∨ (s.spin p).ovLatched then s.compReply 0 else (s.modSpin p fun v => { v with wantSlot := true }).noteService p
  else s.compReply 0

/-- A port whose companion is recorded goes on, or its firmware update does. -/
def State.afterRecord (p : PortId) (s : State) : State :=
  match s.svc.comp with
  | some c => if c.port = p ∧ c.phase = 3 then s.compRecorded c else s.goOn p
  | none => s.goOn p

/-- A measurement has arrived: an addendum when one is needed, at most 255 in a boot (spec/16 R581, R583, R584). -/
def State.afterMeasure (p : PortId) (s : State) : State :=
  if s.ident.sealed = false ∨ (s.port p).isRecorded = true then s.afterRecord p
  else
    let s := s.modPort p fun x => { x with addendum := false }
    if 255 ≤ s.ident.addenda + s.ident.due.length then
      let s := s.emit 0x0D 0x8002 noSource (pay [(1, p.val), (1, 1)])
      match s.svc.comp with
      | some c => if c.port = p ∧ c.phase = 3 then s.compRecorded { c with ret := false } else s
      | none => s
    else if s.ident.due.any fun d => d.port == some p && d.companion.same (s.port p).companion then s
    else s.addDue (some p) 0

/-- A port has trained again under the overvoltage latch: short brake again, with ACT_PARK for the sides that were loaded (spec/04
R172). -/
def State.brakeLatched (p : PortId) (s : State) : State :=
  let v := s.spin p
  let s := (s.shortBrake p .ovBrake s.ticksNow).modSpin p fun v => { v with parkDue := [] }
  s.each v.parkDue fun sd s => s.sendPark p sd 0

/-- A port marked by a start failure is failed again once it has trained (spec/03 R140; spec/04 R168). -/
def State.remark (p : PortId) (s : State) : State :=
  if (s.port p).startMark then
    (s.modPort p fun x => { x with train := 0xA, fail := 0xA, inService := false }).raisePort p 4
  else s

/-- Training ends with the port trained (spec/03 Table 3-12 state 8). -/
def State.trainDone (p : PortId) (s : State) : State :=
  let s := s.modPort p fun x => { x with
    train := 9, fail := 0, trained := satAdd 255 x.trained 1, trainedBoot := s.ident.bootCounter, ended := true
    cmdBase := none, stateAt := s.now }
  let s := s.when ((s.spin p).ovLatched && (s.port p).obeyed) (State.brakeLatched p)
  ((s.noteEnded.remark p).noteService p).afterMeasure p

/-- Personality data does not verify: the port is held with fail_reason 0x8 (spec/03 R136). -/
def State.persFails (p : PortId) (s : State) : State :=
  ((s.modPort p fun x => { x with
    train := if x.train = 0xA then 9 else x.train, fail := 8, persVerified := false, inService := false, entered := true }).noteService
    p).settle

/-- A verified table 0x0002: bring-up sets the level to run_level, kept for the exit in PS3; the level in force survives a port reset (R156,
R177). -/
def Spin.takeTable (ps3 : Bool) (t : SpinTable) (obeyed mark : Bool) (v : Spin) : Spin :=
  let level := if v.levelSet then v.levelCmd else if ps3 then 0 else t.runLevel
  { v with
    table := some t, levelRun := t.runLevel, levelCmd := level, levelPs3 := if v.levelSet then v.levelPs3 else t.runLevel
    levelSet := true, target := t.speed level, wantSlot := !v.refused && obeyed && !mark
    st := if v.ovLatched then .ovBrake else if mark then .startFailed else .stopped }

/-- All personality data has arrived: verified, its tables go to their engines and the spindle asks for a start slot at
run_level (spec/03 R136; spec/04 R156; spec/05 R213; spec/08 R291). -/
def State.persDone (p : PortId) (s : State) : State :=
  let x := s.port p
  match verifyPers s.ident.manifest x.companion.ident x.pers with
  | none => s.persFails p
  | some (spin, servo, fmt, rec_, cal) =>
    let s := s.modPort p fun x => { x with persVerified := true, persDigest := digest x.pers }
    let s := s.modPcal p fun c => { c with recipe := some rec_, table := some cal, format := some fmt, servo := some servo }
    let s := (s.modSpin p fun v => v.takeTable s.power.inPs3 spin (s.port p).obeyed (s.port p).startMark).noteService p
    (s.when ((s.spin p).restart && !(s.spin p).ovLatched && (s.port p).obeyed && decide ((s.spin p).levelCmd < 48)) (State.spinDown p)).settle

/-! ## Training states -/

/-- TRAINING_STATE_PASS: states 1 to 5 and the end of a port reset, at least 2 µs after it; states 6 to 8 pass by their answers
(spec/03 R137, R138, R140). -/
def execTrainingStatePass (p : PortId) (s : State) : Host.Outcome State Fault Refusal :=
  .next <|
    let x := s.port p
    match x.train.val with
    | 1 => ((s.at_ (x.stateAt + stateTimeout 1)).enterTrain p 2).startLane p
    | 2 => s.enterTrain p 3
    | 3 => s.enterTrain p 4
    | 4 => if 4 ≤ x.aligned then (s.enterTrain p 5).modPort p fun y => { y with blockLock := true } else s
    | 5 =>
      let s := s.at_ (x.stateAt + stateTimeout 5)
      if x.errorCheck = false then s.attemptFails p
      else (s.enterTrain p 6).sendRequest p 0x02 []
    | 0xB =>
      if s.pins.prsnt.getLsbD p.val ∧ s.pins.linkPll then
        (((s.at_ (x.stateAt + 2 * Config.us)).enterTrain p 2).modPort p fun y => { y with attempt := 1, fail := 0 }).startLane p
      else s
    | _ => s

/-- TRAINING_STATE_TIMEOUT (spec/03 R137, R138). -/
def execTrainingStateTimeout (p : PortId) (s : State) : Host.Outcome State Fault Refusal :=
  .next <|
    let x := s.port p
    if inRange 2 8 x.train.val then
      let s := s.at_ (x.stateAt + stateTimeout x.train.val)
      (s.modPort p fun y => { y with requests := [], normal := [], urgent := [] }).attemptFails p
    else s

/-- spec/03 R133 and the limits of spec/00 R3. -/
def identOk (b : List Byte) : Bool :=
  b.length == 64 && inRange 1 2 (field b 6 1) && inRange 1 12 (field b 7 1) && decide (field b 8 2 ≤ 3000) &&
    inRange 1 4194304 (field b 12 4)

/-- IDENT_READ_RESPONSE: accepted in training state 6, or training ends with fail_reason 5 (spec/03 R132, R133, R138). -/
def execIdentReadResponse (p : PortId) (s : State) : Host.Outcome State Fault Refusal :=
  .next <| s.takeAnswer p 0x02 fun r k s =>
    let s := s.answered p r
    if (s.port p).train ≠ 6 then s
    else if k.status = 0 ∧ identOk k.payload = true then
      (s.modPort p fun x => { x with
        companion := { ident := k.payload, measure := [] }, dual := field k.payload 5 1 % 2 == 1
        lane := laneIndex k.payload == 1 }).startFence p
    else s.trainFails p 5

/-- The companion's identity goes to state 8. -/
def State.startMeasure (p : PortId) (s : State) : State := (s.enterTrain p 8).sendRequest p 0x03 []

/-- FENCE_RESPONSE: training state 7 passes or fails by ownership; a trained port gains obedience or learns of the
refusal (spec/03 R126, R130, R131, R729). With no token left to present the port fails without PORT_EVENTS.fenced (DESIGN CHOICE, log
148). -/
def execFenceResponse (p : PortId) (s : State) : Host.Outcome State Fault Refusal :=
  .next <| s.takeAnswer p 0x01 fun r k s =>
    let s := s.answered p r
    let token := field k.payload 0 8
    let query := decide (ofLe r.packet.payload = 0)
    let s := if k.payload.length = 8 then s.modPort p fun x => { x with token := BitVec.ofNat 64 token } else s
    let s := s.modPair fun q => { q with highest := BitVec.ofNat 63 (max q.highest.toNat (token / 2)) }
    let x := s.port p
    let obeys := decide (k.status = 0 ∧ x.own.toNat = token ∧ token ≠ 0)
    if x.train = 7 then
      if query then
        if k.status ≠ 0 then s.trainFails p 6
        else if s.pair.mode then (s.modPort p fun x => { x with obeyed := false }).startMeasure p
        else if 2 ^ 63 - 1 ≤ token / 2 then s.trainFails p 6
        else s.present p (2 * (token / 2 + 1))
      else if obeys then (s.modPort p fun x => { x with obeyed := true }).startMeasure p
      else if k.status = 3 then (s.raisePort p 2).trainFails p 6
      else s.trainFails p 6
    else if query then s
    else if obeys then
      let s := s.modPort p fun x => { x with obeyed := true }
      (s.modSpin p fun v => { v with wantSlot := !v.refused && (s.port p).persVerified && v.st == .stopped }).noteService p
    else if x.obeyed then s.obedienceLost p
    else s.raisePort p 2

/-- MEASURE_READ_RESPONSE: state 8 ends with the port trained; after FW_ACTIVATE the new firmware is recorded (spec/03
R118, R134, R138; spec/16 R581; spec/19 R668). -/
def execMeasureReadResponse (p : PortId) (s : State) : Host.Outcome State Fault Refusal :=
  .next <| s.takeAnswer p 0x03 fun r k s =>
    let s := s.answered p r
    let good := decide (k.status = 0 ∧ k.payload.length = 72)
    if (s.port p).train = 8 then
      if good then (s.modPort p fun x => { x with companion := { x.companion with measure := k.payload } }).trainDone p
      else s.trainFails p 7
    else if (s.port p).train = 9 ∧ good = true then
      (s.modPort p fun x => { x with companion := { x.companion with measure := k.payload } }).afterMeasure p
    else s

/-- PERS_READ_RESPONSE (spec/03 R136). -/
def execPersReadResponse (p : PortId) (s : State) : Host.Outcome State Fault Refusal :=
  .next <| s.takeAnswer p 0x04 fun r k s =>
    if k.status = 4 then s.busyAnswer p r (State.persFails p)
    else
      let s := s.answered p r
      if k.status ≠ 0 ∨ k.payload.length ≠ field r.packet.payload 4 2 then s.persFails p
      else
        let s := s.modPort p fun x => { x with pers := x.pers ++ k.payload }
        if (s.port p).pers.length < field (s.port p).companion.ident 12 4 then s.readPers p else s.persDone p

/-- PERS_READ_RETRY: 1 ms after a busy answer (spec/03 R136). -/
def execPersReadRetry (p : PortId) (s : State) : Host.Outcome State Fault Refusal :=
  .next <| s.busyRetry p 0x04 fun _ => true

/-- HOT_ADD: presence is asserted after absence; the port trains (spec/03 R142). Port Control action 5 stays in force over an absence of
up to 60 s (spec/19 Table 19-12; DEDUCED, log 64). -/
def execHotAdd (p : PortId) (s : State) : Host.Outcome State Fault Refusal :=
  .next <|
    if s.pins.prsnt.getLsbD p.val then s
    else
      let s := s.modPins fun q => { q with prsnt := setBit q.prsnt p.val }
      if s.aon.hold ≠ .running then s
      else
        let s := (s.modPort p fun x => { x with
          removed := x.removed && decide (s.now ≤ x.goneAt + 60 * Config.sec) }).raisePort p 7
        if s.boot.released then s.startTraining p else s

/-- ADDENDUM: the next addendum due is signed; its port may go on, or its Patch Load completes (spec/16 R581 to
R583, R587). -/
def execAddendum (norOk : Bool) (s : State) : Host.Outcome State Fault Refusal :=
  .next <|
    match s.ident.due with
    | [] => s
    | d :: rest =>
      let number := s.ident.addenda + 1
      let body := s.addendumBody d
      let a := body ++ s.sign "IZ-PB" body
      let s := s.modIdent fun i => { i with due := rest, addenda := number, added := i.added ++ [a], newest := digest a }
      let s := s.storeRecord number a norOk
      match d.port with
      | some p =>
        let s := s.modPort p fun x => { x with recorded := d.companion :: x.recorded }
        if d.companion.same (s.port p).companion then
          (s.modPort p fun x => { x with addendum := true, addendumNo := number }).afterRecord p
        else s
      | none => s.complete d.ctx Cpl.ok

end Sys2Proof.Machine
end

