-- ==== Sys2Proof/Machine/Servo.lean ====
section
/-! DEFINITION. Family Servo: sample-lane blocks and the Marionette servo engine (spec/05; spec/03 R93 to R98). -/

namespace Sys2Proof.Machine

/-! ## Numbers (spec/05 R179, R189) -/

/-- A 32-bit two's-complement wrap. -/
def wrap32 (x : Int) : Int := signed 32 (unsigned 32 x)

/-- Saturation to 16 bits. -/
def sat16 (x : Int) : Int := clamp (-32768) 32767 x

/-- T_w in link ticks: SPIN_PERIOD divided by wedges_per_rev (spec/05 R182), taken to whole ticks (log 7). -/
def State.wedgeTicks (s : State) (p : PortId) (t : ServoTable) : Nat :=
  (freeRound (((s.spin p).periodNs.toNat * 425 : Nat) : Int) (256 * t.wedges)).toNat

/-- A reading by the reader numbers of the format parameters: the bursts of the two fields of a pair change places for a head
whose reader_swap flag is set (spec/03 R102; spec/06 Table 6-12). -/
def numbered (h : HeadFmt) (r : ServoReading) : ServoReading :=
  if h.swap then { r with amp0 := r.amp1, amp1 := r.amp0, frac0 := r.frac1, frac1 := r.frac0 } else r

/-- The measured position of a reading, none when neither burst is valid (spec/05 R179, R180). -/
def measured (h : HeadFmt) (r : ServoReading) : Option Int :=
  let r := numbered h r
  let p0 := 4096 * (r.track : Int) + r.frac0 - h.offset0
  let p1 := 4096 * (r.track : Int) + r.frac1 - h.offset1
  if h.quality0 ≤ r.amp0 then
    if h.quality1 ≤ r.amp1 then some (freeRound (p0 + p1) 2) else some p0
  else if h.quality1 ≤ r.amp1 then some p1 else none

/-- Seek profile 1 is in use: the governing power state is PS2, or the enforcement step is 2 or 3 (spec/05 R200). -/
def State.slowSeek (s : State) : Bool := s.power.current == 2 || decide (2 ≤ s.therm.step.val)

/-- The profile in use. -/
def State.profile (s : State) (t : ServoTable) : Profile := if s.slowSeek then t.profile1 else t.profile0

/-! ## Permissions (spec/05 R202 to R204) -/

/-- Both permissions after a valid sample (R202). -/
def State.judge (a : ActId) (t : ServoTable) (s : State) : State :=
  let x := s.act a
  s.permit a (x.region == .follow && decide (x.pes.natAbs ≤ t.readWindow))
    (x.region == .follow && decide (t.writeRecover ≤ x.recover.length) && x.recover.all id)

/-- The error from a target, and whether a sample meets the write windows (R202). -/
def errorOf (target pos : Int) : Int := wrap32 (target - pos)

def meetsWrite (t : ServoTable) (e v : Int) : Bool :=
  decide ((clamp (-32767) 32767 e).natAbs ≤ t.writeWindow) && decide ((e - 256 * v).natAbs ≤ t.writeWindow)

/-! ## Servo gates and commands (spec/05 R182 to R185) -/

/-- The servo gate of the next wedge, and the open_time it is given. -/
def State.nextGate (a : ActId) (t : ServoTable) (f : FormatTable) (s : State) : State × Nat :=
  let x := s.act a
  let openTime := x.prevSync + s.wedgeTicks (portOf a) t - f.gateLead
  (s.sendGate a 0 x.head.val openTime f.servoPairs f.servoRate, openTime)

/-- The sequencer of the actuator is told of a wedge (R183). -/
def State.wedgeReport (a : ActId) (s : State) : State := s.modSeq a fun q => { q with wedgeSeen := true }

/-! ## Compensators (spec/05 R188 to R197) -/

/-- A section's state from its exact sum in Q30: rounded to 16 fractional bits, 40-bit saturation, state_limit. -/
def compState (b : CompBlock) (sum : Int) : Int :=
  clamp (-(b.limit * 65536)) (b.limit * 65536) (clamp (-(2 ^ 39)) (2 ^ 39 - 1) (roundHalfUp sum 16384))

/-- y_raw before any slew bound: two roundings (R189). -/
def CompBlock.raw (b : CompBlock) (c : Comp) (x : Int) : Int :=
  roundHalfUp (roundHalfUp (b.b0 * x + c.s1 * 16384) 16384) 65536

/-- One evaluation of a section (R188, R190, R197). -/
def CompBlock.eval (b : CompBlock) (c : Comp) (x : Int) : Comp :=
  let raw := b.raw c x
  let out := decide (raw < b.outMin) || decide (b.outMax < raw)
  let n := if out then 0 else c.inLimits + 1
  let bounded := if c.swapped ∧ b.swapSlew ≠ 0 then clamp (c.y - b.swapSlew) (c.y + b.swapSlew) raw else raw
  let s1 := c.s1 - (raw - bounded) * 65536
  let y := clamp b.outMin b.outMax bounded
  let c1 : Comp := { c with s1 := s1 }
  { s1 := compState b (b.b1 * x - b.a1 * y + c1.s2 * 16384)
    s2 := compState b (b.b2 * x - b.a2 * y + c1.s3 * 16384)
    s3 := if b.three then compState b (b.b3 * x - b.a3 * y) else 0
    y := y, sat := out || (c.sat && decide (n < 2)), inLimits := n, swapped := false }

/-- A swap: states copied, folded for a 2p2z section that follows a 3p3z, and clamped (R196). -/
def Comp.swap (c : Comp) (old new : CompBlock) : Comp :=
  let fold := old.three && !new.three
  let lim (x : Int) : Int := clamp (-(new.limit * 65536)) (new.limit * 65536) x
  { c with s1 := lim c.s1, s2 := lim (if fold then c.s2 + c.s3 else c.s2), s3 := lim (if fold then 0 else c.s3)
           inLimits := 0, swapped := true }

/-- The region's place among the region blocks (R211). -/
def Region.index : Region → Nat
  | .parked | .seek => 0
  | .settle => 1
  | .follow => 2
  | .shock => 3

/-- A block that holds its section at 0, where the table lists none. -/
def CompBlock.none : CompBlock :=
  { three := false, outMin := 0, outMax := 0, swapSlew := 0, limit := 0, b0 := 0, b1 := 0, b2 := 0, b3 := 0, a1 := 0
    a2 := 0, a3 := 0 }

/-- The VCM and MA blocks of a side's region. -/
def ServoTable.pair (t : ServoTable) (sd : Side) (r : Region) : CompBlock × CompBlock :=
  t.blocks.getD (sd.val * 4 + r.index) (CompBlock.none, CompBlock.none)

/-- The reference velocity of a seek (R199), taken to an integer (log 7). -/
def refVelocity (p : Profile) (prev e : Int) : Int :=
  let vp := interpolate (p.points.map fun q => (4096 * q.1, q.2)) e.natAbs
  let vp := min vp (prev.natAbs + p.accelMax)
  if e < 0 then -(vp : Int) else if e = 0 then 0 else (vp : Int)

/-- The VCM output of the other side that the cross term uses: computed within the last T_w (R192). -/
def State.crossInput (s : State) (a : ActId) (t : ServoTable) : Int :=
  let o := s.act (actOf (portOf a) (if sideOf a = 0 then 1 else 0))
  match o.loaded, o.yAt with
  | true, some at_ => if (s.now - at_) * t.wedges ≤ (s.spin (portOf a)).periodNs.toNat then o.yOther else 0
  | _, _ => 0

/-- Both compensators are evaluated, the MA first, and the VCM command formed (R186, R191, R192); the velocity error of a seek is
saturated too (DESIGN CHOICE, log 152). -/
def State.runLoop (a : ActId) (t : ServoTable) (e v : Int) (s : State) : State :=
  let x := s.act a
  let b := t.pair (sideOf a) x.region
  let pes := clamp (-32767) 32767 e
  let vref := if x.region = .seek then refVelocity (s.profile t) x.vRef e else x.vRef
  let ma := b.2.eval x.ma (if x.region = .seek then 0 else pes)
  let vcm := b.1.eval x.vcm
    (if x.region = .seek then sat16 (vref - v) else sat16 (pes + roundHalfUp (t.maGain * x.sent.2) (2 ^ 30)))
  s.modAct a fun x => { x with vcm := vcm, ma := ma, vRef := vref, yOther := vcm.y, yAt := some s.now }

/-- The outputs go to the companion for the open_time of the next servo gate, unless less than 1 µs is left (R184,
R185). -/
def State.sendOutputs (a : ActId) (vcm ma : Int) (openTime : Nat) (s : State) : State :=
  if s.ticksNow * 256 + 425 * 1000 ≤ openTime * 256 then
    (s.sendActDrive a vcm ma openTime).modAct a fun x => { x with sent := (vcm, ma) }
  else s.raiseServo a 7

/-! ## Regions (spec/05 R193 to R195, R207 to R209) -/

/-- Ports on which an actuator has entered shock recovery within the last 1 ms, and the earliest entry among those
actuators and their number. -/
def State.shocked (s : State) : List ActId :=
  (fins 64).filter fun a => (s.act a).shockAt.any fun t => decide (s.now ≤ t + Config.ms)

def portsOf (l : List ActId) : List PortId := (l.map portOf).eraseDups

/-- Entry into shock recovery; the fourth port within 1 ms makes a sled shock (R208, R209). -/
def State.enterShock (a : ActId) (s : State) : State :=
  let before := (portsOf s.shocked).length
  let s := (s.modAct a fun x => { x with
    shocks := satAdd 255 x.shocks 1
    shockAt := s.now :: x.shockAt.filter fun t => decide (s.now ≤ t + Config.ms) }).raiseServo a 2
  let now := s.shocked
  if before < 4 ∧ 4 ≤ (portsOf now).length then
    let first := (now.flatMap fun b => (s.act b).shockAt.filter fun t => decide (s.now ≤ t + Config.ms)).foldl min s.now
    s.emit 0x04 0x8001 noSource (pay [(1, now.length), (1, 0), (6, ticksOfNs first)])
  else s

/-- A region change decided: coefficient sets swapped from the next sample (R195, R196). -/
def State.enterRegion (a : ActId) (t : ServoTable) (r : Region) (s : State) : State :=
  let x := s.act a
  if x.region = r then s
  else
    let old := t.pair (sideOf a) x.region
    let new := t.pair (sideOf a) r
    let s := s.modAct a fun y => { y with
      region := r, regionAt := s.now, entryCount := 0, exitCount := 0, shockExit := 0
      vRef := if r = .seek then 0 else y.vRef, timeouts := if r = .follow then 0 else y.timeouts
      vcm := if x.region = .parked then y.vcm else y.vcm.swap old.1 new.1
      ma := if x.region = .parked then y.ma else y.ma.swap old.2 new.2 }
    if r = .shock then s.enterShock a
    else if r = .follow then (s.tryService (portOf a)).settle
    else s

/-- The counts of the threshold tests after a sample: settle's entry, track-follow's exit, shock recovery's exit. -/
def Act.counts (x : Act) (t : ServoTable) (e v : Int) : Nat × Nat × Nat :=
  (if x.region = .settle ∧ e.natAbs ≤ t.tfEntryPes ∧ v.natAbs ≤ t.tfEntryVel then x.entryCount + 1 else 0,
   if x.region = .follow ∧ t.tfExitPes < e.natAbs then x.exitCount + 1 else 0,
   if x.region = .shock ∧ v.natAbs ≤ t.entryVel then x.shockExit + 1 else 0)

/-- The region after a sample (Table 5-3 in the order of R194). -/
def Act.nextRegion (x : Act) (t : ServoTable) (isNew : Bool) (e v : Int) (n : Nat × Nat × Nat) : Region :=
  let far := decide (t.seekMin * 4096 ≤ e.natAbs)
  match x.region with
  | .parked => .parked
  | .seek => if e.natAbs ≤ t.entryDist ∧ v.natAbs ≤ t.entryVel then .settle else .seek
  | .settle =>
    if t.shockPes < e.natAbs ∨ t.shockVel < v.natAbs then .shock
    else if isNew ∧ far then .seek
    else if t.tfEntryCount ≤ n.1 then .follow else .settle
  | .follow =>
    if t.shockPes < e.natAbs ∨ t.shockVel < v.natAbs then .shock
    else if isNew then (if far then .seek else .settle)
    else if t.tfExitCount ≤ n.2.1 then .settle else .follow
  | .shock => if 2 ≤ n.2.2 then (if e.natAbs ≤ t.entryDist then .settle else .seek) else .shock

/-- A new target takes effect, but not during shock recovery (R198): whether one did. -/
def State.takeTarget (a : ActId) (s : State) : State × Bool :=
  let x := s.act a
  match x.newTarget with
  | some (h, tg) =>
    if x.region = .shock then (s, false)
    else
      let isNew := decide (h ≠ x.head ∨ tg ≠ x.target)
      (s.modAct a fun y => { y with
        head := h, target := tg, newTarget := none, timeouts := if isNew then 0 else y.timeouts
        regionAt := if isNew ∧ (y.region = .seek ∨ y.region = .settle) then s.now else y.regionAt
        entryCount := if isNew then 0 else y.entryCount, exitCount := if isNew then 0 else y.exitCount }, isNew)
  | none => (s, false)

/-- The evaluation of a loaded actuator's waiting sample (R182 to R199). The first valid sample after a load only takes
the actuator from parked to seek (Table 5-3). SERVO_STATUS.profile is set anew here alone (DESIGN CHOICE, log 153). -/
def State.evaluate (a : ActId) (s : State) : State :=
  match (s.act a).sample, (s.pcal (portOf a)).servo, (s.pcal (portOf a)).format with
  | some w, some t, some f =>
    let s := s.modAct a fun x => { x with sample := none, profile1 := s.slowSeek }
    if (s.act a).fresh then
      let s := (s.modAct a fun x => { x with fresh := false }).enterRegion a t .seek
      ((s.nextGate a t f).1.wedgeReport a).noteRequest a
    else
      let q := s.takeTarget a
      let s := q.1
      let e := errorOf (s.act a).target w.pos
      let v := (s.act a).vel
      let s := (s.modAct a fun x => { x with
        pes := clamp (-32767) 32767 e, recover := if q.2 then meetsWrite t e v :: x.recover.drop 1 else x.recover }).runLoop a t e v
      let x := s.act a
      let out := sat16 (x.vcm.y + roundHalfUp (t.crossFf * s.crossInput a t) (2 ^ 30))
      let g := s.nextGate a t f
      let s := g.1.sendOutputs a out x.ma.y g.2
      let n := x.counts t e v
      let s := (s.modAct a fun y => { y with entryCount := n.1, exitCount := n.2.1, shockExit := n.2.2 }).enterRegion a t
        (x.nextRegion t q.2 e v n)
      ((s.judge a t).wedgeReport a).noteRequest a
  | _, _, _ => s.modAct a fun x => { x with sample := none }

/-- The place of an actuator's waiting sample in the evaluation queue. -/
def State.waits (s : State) (a : ActId) : Option Nat := (s.act a).sample.map Wedge.order

/-- Whether an actuator's waiting sample came before a place in the evaluation queue. -/
def State.waitsBefore (s : State) (n : Nat) (b : ActId) : Bool := match s.waits b with
  | some k => decide (k < n)
  | none => false

/-- The actuator whose waiting sample came first. -/
def State.firstWaiting (s : State) : Option ActId :=
  (fins 64).find? fun a => match s.waits a with
    | some n => (fins 64).all fun b => !s.waitsBefore n b
    | none => false

/-- The pipeline goes on, in the order in which the servo blocks came, until it has evaluated an actuator (R186). -/
def State.evaluateTo (a : ActId) : Nat → State → State
  | 0, s => s
  | n + 1, s =>
    if (s.act a).sample.isNone then s
    else match s.firstWaiting with
      | some b => (s.evaluate b).evaluateTo a n
      | none => s

/-- COMPENSATOR_EVALUATION: with it end the evaluations of the actuators whose servo blocks came earlier. -/
def execCompensatorEvaluation (a : ActId) (s : State) : Host.Outcome State Fault Refusal := .next (s.evaluateTo a 64)

/-! ## Samples (spec/05 R178 to R183, R202 to R207) -/

/-- Servo lost: the side is unloaded; a second loss within 1 s takes the actuator out of service (R207). -/
def State.servoLost (a : ActId) (s : State) : State :=
  let x := s.act a
  let again := match x.lostAt with
    | some t => decide (s.now ≤ t + Config.sec)
    | none => false
  let s := ((s.unload a).modAct a fun y => { y with
    lost := satAdd 255 y.lost 1, lostAt := some s.now, outOfService := y.outOfService || again, reloadLost := !again
    newTarget := some (x.newTarget.getD (x.head, x.target)), missing := 0 }).raiseServo a 6
  let s := s.when (s.acal a).brk.isSome (State.quiesce false a)
  if again then ((s.quiesce true a).noteService (portOf a)).settle else s

/-- A missing sample (R206): no evaluation; the next gate and the previous outputs are timed from the predicted sync
time, unless less than 1 µs is left (R185). The prediction of R181 runs on at the last velocity (log 21). The counts of samples
within the limits go on over it (R190; DESIGN CHOICE, log 151). -/
def State.missingSample (a : ActId) (t : ServoTable) (f : FormatTable) (s : State) : State :=
  let tw := s.wedgeTicks (portOf a) t
  let s := (s.modAct a fun x => { x with
    missing := x.missing + 1, entryCount := 0, exitCount := 0, shockExit := 0, recover := []
    prevPos := if x.fresh then x.prevPos else x.prevPos + 256 * x.prevVel
    prevSync := if x.fresh then x.prevSync else x.prevSync + tw
    expected := if x.expected + 1 < t.wedges then x.expected + 1 else 0 }).raiseServo a 0
  let s := s.permit a false false
  let x := s.act a
  if t.missingMax ≤ x.missing then s.servoLost a
  else if x.fresh then s
  else
    let g := s.nextGate a t f
    ((g.1.sendOutputs a x.sent.1 x.sent.2 g.2).wedgeReport a).noteRequest a

/-- A valid sample, the first one after a load with velocity 0 (DESIGN CHOICE, log 109): its error, velocity and permissions at once;
its evaluation waits (R179, R202, R204). -/
def State.validSample (a : ActId) (t : ServoTable) (d : ServoReading) (pos : Int) (s : State) : State :=
  let x := s.act a
  let home : Fin 12 × Int := (x.head, trackPos t.home)
  let target := if x.fresh then x.newTarget.getD home else (x.head, x.target)
  let v := if x.fresh then 0 else sat16 (freeRound (wrap32 (pos - x.prevPos)) 256)
  let e := errorOf target.2 pos
  let last := (fins 64).foldl (fun n b => max n ((s.waits b).getD 0)) 0
  let s := s.modAct a fun y => { y with
    head := target.1, target := target.2, newTarget := if x.fresh then none else y.newTarget
    wedge := d.wedge, pes := clamp (-32767) 32767 e, vel := v, missing := 0, prevPos := pos, prevVel := v
    prevSync := d.time, expected := if d.wedge + 1 < t.wedges then d.wedge + 1 else 0
    recover := (meetsWrite t e v :: y.recover).take t.writeRecover
    sample := some { time := d.time, wedge := d.wedge, pos := pos, order := last + 1 } }
  s.judge a t

/-- The wedges whose blocks have not come half a wedge period after their predicted sync time count as missing samples (log 21). -/
def State.catchUp (a : ActId) (t : ServoTable) (f : FormatTable) (time : Nat) : Nat → State → State
  | 0, s => s
  | n + 1, s =>
    let x := s.act a
    let tw := s.wedgeTicks (portOf a) t
    if x.fresh = false ∧ x.region ≠ .parked ∧ 0 < tw ∧ x.prevSync + tw + tw / 2 < time then
      (s.missingSample a t f).catchUp a t f time n
    else s

/-- Wedges of a port's loaded sides that are overdue, seen when anything comes on its sample lane: a lost servo block is missed without
waiting for the next one (R181, R206; log 21). -/
def State.overdue (p : PortId) (s : State) : State :=
  match (s.pcal p).servo, (s.pcal p).format with
  | some t, some f => s.each (fins 2) fun sd s => s.catchUp (actOf p sd) t f s.ticksNow t.missingMax
  | _, _ => s

/-- A servo gate has been received: its wedge sample (R178, R180, R181). The first one after a load is taken at any wedge number and
track: there is no prediction yet (DESIGN CHOICE, log 109). Later
the prediction is taken to its whole track before the track numbers are compared (DESIGN CHOICE, log 126). -/
def State.wedgeSample (a : ActId) (whole : Bool) (d : ServoReading) (s : State) : State :=
  match (s.pcal (portOf a)).servo, (s.pcal (portOf a)).format with
  | some t, some f =>
    let s := s.evaluateTo a 64
    let heard := whole && d.sync
    let s := if heard then s.catchUp a t f d.time t.missingMax else s
    let x := s.act a
    if x.loaded = false ∨ (x.region = .parked ∧ x.fresh = false) then s
    else
      let off := heard && !x.fresh && decide (4 < ((d.track : Int) - Int.fdiv (x.prevPos + 256 * x.prevVel) 4096).natAbs)
      let s := s.when off (State.raiseServo a 1)
      match measured (f.head (sideOf a) x.head) d with
      | some pos =>
        if heard ∧ off = false ∧ (x.fresh = true ∨ d.wedge = x.expected) then s.validSample a t d pos
        else s.missingSample a t f
      | none => s.missingSample a t f
  | _, _ => s

/-- A read gate's last block has come with none of its blocks lost: the gate whose samples the bound engine takes is whole (spec/06 R239). -/
def State.gateWhole (a : ActId) (s : State) : State :=
  match (s.engineOf a).bind fun e => (s.eng e).window.head? with
  | some r => s.modSeq a fun q => { q with
      gates := mapWhere (fun g => !g.write && g.openTime == r.gate) (fun g => { g with whole := true }) q.gates }
  | none => s

/-- A read gate's data is not whole: its sectors count as not captured (spec/06 R239; spec/03 R98). -/
def State.gateLost (a : ActId) (s : State) : State :=
  s.modSeq a fun q =>
    match (q.gates.filter fun g => !g.write && decide (g.openTime ≤ s.ticksNow)).getLast? with
    | some g => { q with lost := (q.lost ++ g.sectors).eraseDups }
    | none => q

/-- LINE_BLOCK_RECEIVED: a block is corrected, descrambled and routed, and a servo gate it ends is demodulated (spec/03
R93 to R98, R139; spec/05 R178); `demod` is what the demodulator reads from that gate. `full`: the FIFO to the
fabric domain is full, and the block is discarded whole (spec/14 R528). A stale crossing discards it too (spec/14 R536). -/
def execLineBlockReceived (p : PortId) (bytes : List Byte) (demod : BlockArrival) (s : State) :
    Host.Outcome State Fault Refusal :=
  .next <|
    if s.laneLive p = true ∧ demod.full = true then (s.overdue p).blockDropped p
    else if s.laneLive p then
      let q := (s.overdue p).receiveBlock p bytes
      match q.2 with
      | .nothing => q.1
      | .servo sd whole => q.1.wedgeSample (actOf p sd) whole demod.reading
      | .data sd whole => if whole then q.1.gateWhole (actOf p sd) else q.1.gateLost (actOf p sd)
    else if s.isStale (.port p) then s.discard
    else s

/-! ## Targets and timeouts (spec/05 R198, R201) -/

/-- NEW_TARGET, for a re-read of recovery with its offset (spec/07 R271): held until the next evaluation, or until the side is loaded
(R198, Table 5-3). -/
def execNewTarget (a : ActId) (head : Fin 12) (track : BitVec 20) (s : State) : Host.Outcome State Fault Refusal :=
  .next <| s.modAct a fun x => { x with newTarget := some (head, s.targetOf a head track.toNat) }

/-- A timeout on one target: a new seek from the present position; the third in a row has firmware unload, load and seek
again (R201). -/
def State.timedOut (a : ActId) (t : ServoTable) (n : Nat) (s : State) : State :=
  let s := s.raiseServo a n
  let x := s.act a
  if 2 ≤ x.timeouts then
    (s.unload a).modAct a fun y => { y with timeouts := 0, reloadSeek := true
                                            newTarget := some (x.newTarget.getD (x.head, x.target)) }
  else
    let k := x.timeouts + 1
    ((s.enterRegion a t .seek).modAct a fun y => { y with timeouts := k, regionAt := s.now, vRef := 0 }).permit a false false

/-- SEEK_TIMEOUT. -/
def execSeekTimeout (a : ActId) (s : State) : Host.Outcome State Fault Refusal :=
  .next <|
    match (s.pcal (portOf a)).servo with
    | some t =>
      if (s.act a).region = .seek then
        (s.at_ ((s.act a).regionAt + (s.profile t).seekMs * Config.ms)).timedOut a t 3
      else s
    | none => s

/-- SETTLE_TIMEOUT. -/
def execSettleTimeout (a : ActId) (s : State) : Host.Outcome State Fault Refusal :=
  .next <|
    match (s.pcal (portOf a)).servo with
    | some t =>
      if (s.act a).region = .settle then
        (s.at_ ((s.act a).regionAt + (s.profile t).settleMs * Config.ms)).timedOut a t 4
      else s
    | none => s

/-! ## Loading and unloading (spec/05 R207, R730) -/

/-- The sides of a port may be loaded: its spindle turns at the run level and it may serve (spec/04 R157). -/
def State.mayLoad (p : PortId) (s : State) : Bool :=
  let x := s.port p
  let v := s.spin p
  x.train == 9 && x.obeyed && x.persVerified && s.mayGoOn p && !x.removed && v.st == .atSpeed && v.atRun &&
    !v.unloading && !v.retarget

/-- Bytes 0 to len − 1 of the service buffer that an FW_WRITE carries: offset and at most 220 bytes. -/
def State.fwChunk (s : State) (off len : Nat) : List Byte :=
  leBytes 4 off ++ bufRead s.svc.buffer off (min 220 (len - off))

/-- FW_WRITE packets at ascending offsets, up to 32 outstanding (spec/19 R668 step 3). -/
def State.fwWrite : Nat → State → State
  | 0, s => s
  | n + 1, s =>
    match s.svc.comp with
    | some c =>
      if c.offset < c.length ∧ (s.port c.port).requests.length < 32 then
        State.fwWrite n ((s.sendRequest c.port 0x40 (s.fwChunk c.offset c.length)).modSvc fun v =>
          { v with comp := some { c with offset := min c.length (c.offset + 220) } })
      else s
    | none => s

/-- The port of a COMP_FW has both sides unloaded: its spindle coasts, unless the overvoltage latch brakes it (spec/04 R172),
and the image is written (spec/19 R668 steps 2 and 3, R669). -/
def State.compUnloaded (c : CompFw) (s : State) : State :=
  let s := s.when (!(s.spin c.port).ovLatched) fun s =>
    (s.coast c.port).modSpin c.port fun v => { v with
      st := .stopped, inLock := false, inReg := false, restart := v.turning || v.restart }
  (s.modSvc fun v =>
    { v with comp := some { c with phase := 1, unloadAt := some s.now } }).fwWrite 32

/-! ## Ports handed over to the peer (spec/18 R653) -/

/-- A port that is being handed over and whose operations have ended is unloaded; then HANDOVER can go. -/
def State.handNext (p : PortId) (s : State) : State :=
  let idle := (fins 2).all fun sd => (s.seq (actOf p sd)).op.isNone
  let sent := match s.pair.handing with
    | some h => h.sent
    | none => true
  if s.handsOver p = true ∧ sent = false ∧ idle = true then
    (s.each (fins 2) fun sd s =>
      let x := s.act (actOf p sd)
      s.when ((x.loaded || x.loading) && x.region != .parked) (State.unload (actOf p sd))).handSend
  else s

/-- No side of a port is loaded any more: what waited for that goes on (spec/04 R169; spec/12 R483; spec/19 R668). -/
def State.allUnloaded (p : PortId) (s : State) : State :=
  let s := s.when (s.spin p).unloading (State.brakeDown p)
  let s := s.when (s.spin p).retarget (State.takeLevel p)
  let s := (s.settleUnloads p).handSend
  match s.svc.comp with
  | some c =>
    if c.port = p ∧ c.phase = 0 then s.compUnloaded c else s
  | none => s

/-- A side has been unloaded. -/
def State.unloaded (a : ActId) (s : State) : State :=
  let p := portOf a
  let again := (s.act a).reloadSeek || !(s.act a).reloadLost
  let s := s.modAct a fun x => { x with loaded := false, region := .parked, reloadSeek := false }
  let s := s.when (again && s.mayLoad p) (State.load a)
  if (fins 2).any fun sd => (s.act (actOf p sd)).loaded then s else s.allUnloaded p

/-- A side could not be loaded: parked and out of service (R730). -/
def State.loadFailed (a : ActId) (s : State) : State :=
  let p := portOf a
  let s := (s.modAct a fun x => { x with loading := false, outOfService := true }).noteService p
  (s.tryService p).settle

/-- A side has been loaded: its loop waits for the first valid sample (Table 5-3), its saturation flags as they were (R190) and
its compensators' s1 to s3 and outputs 0 (DESIGN CHOICE, log 140: R188 does not say). -/
def Act.afterLoad (x : Act) : Act :=
  { x with loaded := true, loading := false, fresh := true, sample := none, region := .parked, missing := 0, recover := []
           vcm := { Comp.reset with sat := x.vcm.sat }, ma := { Comp.reset with sat := x.ma.sat }
           yOther := 0, yAt := none, sent := (0, 0), timeouts := 0, vRef := 0 }

/-- ACT_PARK_RESPONSE. -/
def execActParkResponse (p : PortId) (s : State) : Host.Outcome State Fault Refusal :=
  .next <| s.takeAnswer p 0x13 fun r k s =>
    let a := actOf p (if field r.packet.payload 0 1 = 1 then 1 else 0)
    if field r.packet.payload 1 1 = 0 then
      let s := s.answered p r
      if k.status = 0 then s.unloaded a else if k.status = 3 then s.refusedFenced p else s
    else if k.status = 4 then s.busyAnswer p r (State.loadFailed a)
    else
      let s := s.answered p r
      if k.status = 0 then s.when (s.act a).loading (State.modAct a Act.afterLoad)
      else if k.status = 3 then (s.modAct a fun x => { x with loading := false }).refusedFenced p
      else s.loadFailed a

/-- ACT_PARK_RETRY: 1 ms after a busy answer (R730). -/
def execActParkRetry (p : PortId) (sd : Side) (s : State) : Host.Outcome State Fault Refusal :=
  .next <| s.busyRetry p 0x13 fun r => field r.packet.payload 0 1 == sd.val

/-- SERVO_RELOAD: firmware loads the actuator again once after servo loss; one out of service stays parked (R207). -/
def execServoReload (a : ActId) (s : State) : Host.Outcome State Fault Refusal :=
  .next <|
    let x := s.act a
    if x.reloadLost ∧ ¬ x.loaded then
      let s := s.modAct a fun y => { y with reloadLost := false }
      if s.mayLoad (portOf a) then s.load a else s
    else s

end Sys2Proof.Machine
end

