-- ==== Sys2Proof/Machine/Calib.lean ====
section
/-! DEFINITION. Family Calib: assist values, calibration breaks and records (spec/08). -/

namespace Sys2Proof.Machine

/-! ## Heads (spec/08 R293 to R299) -/

/-- The local heads that an actuator has, by its HDA's identity (spec/03 Table 3-9). -/
def State.heads (s : State) (a : ActId) : List (Fin 12) :=
  let ident := (s.port (portOf a)).companion.ident
  if (sideOf a).val < field ident 6 1 then (fins 12).filter fun h => decide (h.val < field ident 7 1) else []

/-- |T_f − T_cal| in 1/16 °C, none for an uncalibrated head. -/
def State.deviation (s : State) (a : ActId) (h : Fin 12) : Option Nat :=
  ((s.acal a).heads[h]).tCal.map fun t => (s.tf (portOf a) - t).natAbs

/-- A head is due (R298). -/
def State.due (s : State) (a : ActId) (h : Fin 12) : Bool :=
  match s.deviation a h with
  | some d => decide (16 * s.cal.threshold < d)
  | none => true

/-- A head is under write hold (R299), or its HDA above hda_stop (spec/15 R551). -/
def State.held (s : State) (a : ActId) (h : Fin 12) : Bool :=
  s.hdaHeld (portOf a) || match s.deviation a h with
    | some d => decide (16 * (s.cal.threshold + 8) < d)
    | none => true

/-- The holds of an actuator's heads are judged again; a new hold sets write_hold (R299). -/
def State.noteHolds (a : ActId) (s : State) : State :=
  s.each (s.heads a) fun h s =>
    let now := s.held a h
    let s := s.when (now && !((s.acal a).heads[h]).hold) (State.raiseCal a 3 [])
    s.modAcal a fun x => { x with heads := upd x.heads h fun y => { y with hold := now } }

/-- PORT_STATUS.temp_fresh: a STATUS with a valid temperature arrived within the last 10 ms (R300, spec/03 Table 3-15). -/
def State.tempFresh (s : State) (p : PortId) : Bool :=
  match (s.port p).tempAt with
  | some t => decide (s.now ≤ t + 10 * Config.ms)
  | none => false

/-- The recipe in force for a zone of a head: fixed by the last full-HDA format, else the one declared (R286). -/
def State.recipe (s : State) (a : ActId) (h : Fin 12) (z : Fin 32) : Nat :=
  match (s.acal a).recipes[32 * h.val + z.val]? with
  | some r => r
  | none => match (s.pcal (portOf a)).recipe with
    | some t => t.recipes.getD (32 * globalHead (sideOf a) h + z.val) 0
    | none => 0

/-- The elements of a zone of a head that the controller drives: those of its recipe that the head declares present (R285). -/
def State.driven (s : State) (a : ActId) (h : Fin 12) (z : Fin 32) : Nat :=
  let declared := match (s.pcal (portOf a)).recipe with
    | some t => t.elements.getD (globalHead (sideOf a) h) 0
    | none => 0
  s.recipe a h z &&& declared

/-- 0 for an element that the zone's recipe does not use (R290). -/
def maskRecipe (r : Nat) (v : Five) : Five :=
  { v with laser := if uses r 1 then v.laser else 0, sto := if uses r 2 then v.sto else 0 }

/-- The working values of a head, a zone and a temperature (R290, R294). -/
def State.headValues (s : State) (a : ActId) (h : Fin 12) (z : Fin 32) (tf : Int) : Option Five :=
  (((s.acal a).heads[h]).entries[z.val]?).map fun e => maskRecipe (s.driven a h z) (e.at_ tf)

/-! ## Breaks: segments and passes (spec/08 R302 to R304) -/

/-- The quantity a pass sweeps: 0 laser, 1 sto_bias, 2 write_current, 3 both readers (Table 8-4). -/
def sweptBy (pass : Nat) : Option Nat :=
  match pass with
  | 2 => some 3
  | 3 | 4 => some 2
  | 5 | 6 => some 1
  | 7 | 8 => some 0
  | _ => none

/-- The segment of a sector of a track of n sectors (R303). -/
def segmentOf (n sector : Nat) : Nat := if n / 5 = 0 then 4 else min 4 (sector / (n / 5))

/-- One quantity of segment j: v + (j − 2) × max_step / 2, rounded down and clamped. -/
def segValue (v step lo hi j : Nat) : Nat :=
  (clamp lo hi (Int.fdiv (2 * (v : Int) + ((j : Int) - 2) * step) 2)).toNat

/-- The values of segment j of a pass that sweeps a quantity, from the values chosen so far. -/
def segValues (t : CalTable) (q j : Nat) (v : Five) : Five :=
  match q with
  | 0 => { v with laser := segValue v.laser t.step.laser t.min.laser t.max.laser j }
  | 1 => { v with sto := segValue v.sto t.step.sto t.min.sto t.max.sto j }
  | 2 => { v with write := segValue v.write t.step.write t.min.write t.max.write j }
  | _ => { v with reader0 := segValue v.reader0 t.step.reader0 t.min.reader0 t.max.reader0 j
                  reader1 := segValue v.reader1 t.step.reader1 t.min.reader1 t.max.reader1 j }

/-- A pass writes its sweep, or reads it in the case of the readers; the other read passes use the values chosen. -/
def sweeps (pass : Nat) : Option Nat := if pass = 2 ∨ pass % 2 = 1 then sweptBy pass else none

/-- The values that the companion is to hold for a gate of the current operation in which a sector is the last to start
(R295, R303). -/
def State.wantValues (s : State) (a : ActId) (d : Descriptor) (sector : Nat) : Option Five :=
  match (s.acal a).brk, (s.pcal (portOf a)).table with
  | some b, some t => match sweeps b.pass with
    | some q => some (segValues t q (segmentOf d.count sector) b.chosen)
    | none => some b.chosen
  | _, _ => match (s.acal a).values with
    | some v => some v
    | none => s.headValues a d.head d.zone (s.tf (portOf a))

/-- HEAD_CONFIG with all five valid bits for an apply_time, when the companion holds other values (R295). -/
def State.sendHeadConfig (a : ActId) (h : Fin 12) (v : Five) (applyTime : Nat) (s : State) : State :=
  if ((s.acal a).heads[h]).holds = some v then s
  else
    (s.sendRequest (portOf a) 0x30 (packBytes [(1, (sideOf a).val), (1, h.val), (1, 31), (1, 0), (4, time32 applyTime),
      (2, v.laser), (2, v.sto), (2, v.write), (2, v.reader0), (2, v.reader1)])).modAcal a fun x =>
        { x with heads := upd x.heads h fun y => { y with holds := some v } }

/-- Iterations of a sector: 64 for one that failed its first pass (R304). -/
def iterCount : Option Nat → Nat
  | some n => n
  | none => 64

/-- Sum of iterations and count of the written sectors of segment j, and the sectors of the segment. -/
def segFigure (iters : List (Option Nat)) (unwritten : List Nat) (n j : Nat) : Nat × Nat × Nat :=
  let all := (List.range n).filter fun k => segmentOf n k == j
  let ok := all.filter fun k => !unwritten.contains k
  (ok.foldl (fun t k => t + iterCount (iters.getD k none)) 0, ok.length, all.length)

/-- Whether a figure is below another, as fractions. -/
def figLess (x y : Nat × Nat) : Bool := decide (x.1 * y.2 < y.1 * x.2)

/-- Distance of a segment from the middle one. -/
def midDist (j : Nat) : Nat := ((j : Int) - 2).natAbs

/-- The segment with the lowest figure, a tie to the one nearest the middle (R304; a tie of both kinds is left open,
log 24). -/
def lowestSeg (pass : Nat) (l : List (Nat × Nat × Nat)) : Option (Nat × Nat × Nat) :=
  l.foldl (fun b q => match b with
    | none => some q
    | some c =>
      if figLess q.2 c.2 then some q
      else if figLess c.2 q.2 then some c
      else if midDist q.1 < midDist c.1 then some q
      else if midDist c.1 < midDist q.1 then some c
      else if Config.segmentTie pass then some q else some c) none

/-- The segment with the lowest laser value among those within 0.5 of the lowest figure (R304). -/
def laserSeg (low : Nat × Nat) (value : Nat → Nat) (l : List (Nat × Nat × Nat)) : Option (Nat × Nat × Nat) :=
  (l.filter fun q => decide (2 * q.2.1 * low.2 ≤ (2 * low.1 + low.2) * q.2.2)).foldl (fun b q => match b with
    | none => some q
    | some c => if value q.1 < value c.1 then some q else some c) none

/-- A read pass judged: the values with its swept quantity chosen, and whether the break fails by it (R304). -/
def judgePass (t : CalTable) (b : Break) (n : Nat) (iters : List (Option Nat)) : Five × Bool :=
  match sweptBy b.pass with
  | none => (b.chosen, false)
  | some q =>
    let figs := (List.range 5).map fun j => (j, segFigure iters b.unwritten n j)
    let short := figs.any fun g => decide (g.2.2.2 < 2 * (g.2.2.2 - g.2.2.1))
    let usable := (figs.filter fun g => g.2.2.1 != 0).map fun g => (g.1, g.2.1, g.2.2.1)
    match lowestSeg b.pass usable with
    | none => (b.chosen, true)
    | some low =>
      let value (j : Nat) : Nat := (segValues t q j b.chosen).laser
      let pick := if q = 0 then (laserSeg low.2 value usable).getD low else low
      (segValues t q pick.1 b.chosen, short || decide (12 * pick.2.2 < pick.2.1))

/-- The pass after a pass, those of elements that the recipe does not use skipped (R302). -/
def nextPass (recipe pass : Nat) : Nat :=
  let n := pass + 1
  let n := if n = 5 ∧ uses recipe 2 = false then 7 else n
  if n = 7 ∧ uses recipe 1 = false then 9 else n

/-! ## Breaks: start (spec/08 R300, R301, R305, R314) -/

/-- A sequencer is at its idle point (spec/06 R217). -/
def State.atIdle (s : State) (a : ActId) : Bool :=
  let q := s.seq a
  q.st == .idle && q.addr == 0 && q.op.isNone && q.gates.all s.gateOver

/-- The due heads in the order of R300: holds first, then the largest deviation, then the lowest number; an uncalibrated
head deviates most. -/
def State.dueHead (s : State) (a : ActId) : Option (Fin 12) :=
  let key (h : Fin 12) : Nat := (if s.held a h then 2 ^ 40 else 0) + (match s.deviation a h with
    | some d => d
    | none => 2 ^ 39)
  ((s.heads a).filter (s.due a)).foldl (fun b h => match b with
    | none => some h
    | some g => if key g < key h then some h else some g) none

/-- The next zone of a full calibration: actuator, head, zone (R314). -/
def State.fullNext (s : State) (o : LongOp) : Option (ActId × Fin 12 × Fin 32) :=
  ((fins 64).filter fun a => o.p0.getLsbD (portOf a).val).findSome? fun a =>
    (s.heads a).findSome? fun h =>
      ((fins 32).find? fun z => decide (z.val < (match (s.pcal (portOf a)).format with
        | some f => f.zoneCount
        | none => 0)) && !(s.acal a).marks.contains (h.val, z.val)).map fun z => (a, h, z)

/-- The running full calibration whose next zone lies on an actuator. -/
def State.fullOn (s : State) (a : ActId) : Option (LongOp × Fin 12 × Fin 32) :=
  (s.running 5).findSome? fun o => match s.fullNext o with
    | some (b, h, z) => if a = b then some (o, h, z) else none
    | none => none

/-- The host's break on an actuator that waits to start (R317 action 1). -/
def State.hostBreak (s : State) (a : ActId) : Option (Nat × Fin 12) :=
  s.ctxs.findSome? fun x => match x.stage, x.wait with
    | .waiting, .calBreak b h => if a = b then some (x.id, h) else none
    | _, _ => none

/-- cal_zone of an HDA. -/
def State.calZone (s : State) (p : PortId) : Fin 32 :=
  match (s.pcal p).recipe with
  | some r => Fin.ofNat 32 r.calZone
  | none => 0

/-- full_spacing of a full calibration in ms; 0 stands for the default, 1,000 ms (R314; DEDUCED, log 47). -/
def LongOp.fullSpacing (o : LongOp) : Nat := if bits o.p1 13 0 = 0 then 1000 else bits o.p1 13 0

/-- What a break on an actuator would do now: kind, head, zone, and its spacing (R300, R314, R317). -/
def State.breakFor (s : State) (a : ActId) : Option (BreakKind × Fin 12 × Fin 32 × Nat) :=
  match s.hostBreak a, s.dueHead a, s.fullOn a with
  | some (c, h), _, _ => some (.host c, h, s.calZone (portOf a), s.cal.spacing)
  | none, some h, full =>
    if s.cal.deferUntil.isNone ∨ (s.heads a).any (s.held a) = true then
      some (.triggered, h, s.calZone (portOf a), s.cal.spacing)
    else match full with
      | some (o, h, z) => some (.full, h, z, o.fullSpacing)
      | none => none
  | none, none, some (o, h, z) => some (.full, h, z, o.fullSpacing)
  | none, none, none => none

/-- An actuator may start a break (R300); while a preserved or restored buffer is to be destaged first, only that of a head whose
hold keeps rows off media (log 98). -/
def State.mayBreak (s : State) (a : ActId) : Bool :=
  let p := portOf a
  match s.breakFor a with
  | none => false
  | some (_, h, _, spacing) =>
    s.actInService a && s.atIdle a && s.tempFresh p && !s.power.inPs3 && !s.power.entering && (!s.destageFirst || s.held a h) &&
    (s.acal a).brk.isNone && (s.acal (actOf p (if sideOf a = 0 then 1 else 0))).brk.isNone &&
    decide (((fins 64).filter fun b => (s.acal b).brk.isSome).length < s.cal.sledMax) &&
    match (s.acal a).lastEnd with
    | some t => decide (t + spacing * Config.ms ≤ s.now)
    | none => true

/-- The deviation by which actuators that may start are ordered (R300). -/
def State.breakRank (s : State) (a : ActId) : Nat :=
  match s.breakFor a with
  | some (_, h, _, _) => match s.deviation a h with
    | some d => d
    | none => 2 ^ 39
  | none => 0

/-- The pass under way begins: its track is the target, and before a write pass the engine of its read-back is asked for
(R302, R305). -/
def State.beginPass (a : ActId) (b : Break) (t : Nat) (s : State) : State :=
  match (s.pcal (portOf a)).format with
  | none => s
  | some f =>
    let s := s.modAct a fun x => { x with newTarget := some (b.head, trackPos (b.pass? f b.pass).track) }
    if b.pass % 2 = 1 then s.requestEngine a 0 t else s

/-- The request time that an abandoned break of the zone has left (R305). -/
def HeadCal.keptAt (h : HeadCal) (z : Nat) : Option Nat := (h.keptReq.find? fun q => q.1 == z).map Prod.snd

/-- CALIBRATION_BREAK_START (R300, R301): the actuator whose chosen head deviates most starts first. -/
def execCalibrationBreakStart (a : ActId) (s : State) : Host.Outcome State Fault Refusal :=
  .next <|
    match s.mayBreak a, s.breakFor a with
    | true, some (kind, h, z, _) =>
      if (fins 64).any fun b => s.mayBreak b && decide (s.breakRank a < s.breakRank b) then s
      else
        let tf := s.tf (portOf a)
        match s.headValues a h z tf with
        | none => s
        | some v =>
          let req := (((s.acal a).heads[h]).keptAt z.val).getD s.now
          let b : Break := { head := h, zone := z, tb := tf, pass := 1, at_ := s.now, reqAt := req, kind := kind, base := v
                             chosen := v, failed := false, unwritten := [], begun := false }
          let s := (s.endSession a).modAcal a fun x => { x with
            brk := some b, heads := upd x.heads h fun y => { y with keptReq := y.keptReq.filter fun q => q.1 != z.val } }
          s.beginPass a b req
    | _, _ => s

/-! ## Breaks: passes and ends (spec/08 R304, R306 to R309) -/

/-- A calibration failure of a head (R304, R296): three in a row mark it failed (R309). -/
def State.calFailure (a : ActId) (h : Fin 12) (s : State) : State :=
  let n := ((s.acal a).heads[h]).fails + 1
  let s := s.modAcal a fun x => { x with
    failed := satAdd 255 x.failed 1, heads := upd x.heads h fun y => { y with fails := min 255 n, failed := y.failed || decide (3 ≤ n) } }
  if n = 3 then s.raiseCal a 2 [] else s

/-- A change of the working tables waits to be recorded (R297). -/
def State.calDirty (a : ActId) (s : State) : State :=
  s.modAcal a fun x => { x with dirtyAt := if x.dirtyAt.isSome then x.dirtyAt else some s.now }

/-- d is added to one point of a quantity and clamped. -/
def addTo (lo hi v : Nat) (d : Int) : Nat := (clamp lo hi ((v : Int) + d)).toNat

/-- The changes of the five quantities, chosen minus interpolated. -/
def deltas (b : Break) : List Int := (b.chosen.list.zip b.base.list).map fun q => (q.1 : Int) - q.2

/-- A point with the changes added. -/
def Five.addAll (t : CalTable) (d : List Int) (v : Five) : Five :=
  Five.ofFn fun q => addTo (t.min.list.getD q 0) (t.max.list.getD q 0) (v.list.getD q 0) (d.getD q 0)

/-- The two points that bracket T_b, or the end point alone (R307), take the changes. -/
def CalEntry.commit (t : CalTable) (d : List Int) (tb : Int) (e : CalEntry) : CalEntry :=
  let f := Five.addAll t d
  if tb < 160 then { e with v0 := f e.v0 }
  else if 1120 < tb then { e with v4 := f e.v4 }
  else if tb < 400 then { e with v0 := f e.v0, v1 := f e.v1 }
  else if tb < 640 then { e with v1 := f e.v1, v2 := f e.v2 }
  else if tb < 880 then { e with v2 := f e.v2, v3 := f e.v3 }
  else { e with v3 := f e.v3, v4 := f e.v4 }

/-- A break is over: its binding and pass end, and a host's command with its result (R317). -/
def State.closeBreak (a : ActId) (b : Break) (result : Nat) (s : State) : State :=
  let ms := (s.now - b.at_) / Config.ms
  let s := (s.modAcal a fun x => { x with
    brk := none, lastEnd := some s.now, lastMs := ms
    heads := upd x.heads b.head fun h => { h with lastMs := ms } }).endSession a
  match b.kind with
  | .host c => s.complete c (Cpl.val (BitVec.ofNat 32 result))
  | _ => s

/-- The marks of a full calibration go, from the record too (R314). -/
def State.clearMarks (a : ActId) (s : State) : State :=
  if (s.acal a).marks = [] then s else (s.modAcal a fun x => { x with marks := [] }).calDirty a

/-- The full calibration that a committed zone belongs to: its progress, its suspend point, its end (R314). -/
def State.fullProgress (a : ActId) (b : Break) (s : State) : State :=
  match (s.activeOps 5).find? fun o => o.p0.getLsbD (portOf a).val with
  | none => s
  | some o =>
    let s := s.modAcal a fun x => { x with marks := (b.head.val, b.zone.val) :: x.marks }
    let s := s.modOp o.handle fun x => { x with done := x.done + 1 }
    if (s.fullNext o).isNone then
      (s.each ((fins 64).filter fun a => o.p0.getLsbD (portOf a).val) State.clearMarks).endOp
        o.handle .completed 0
    else s

/-- The results of a break are committed (R307). -/
def State.commitBreak (a : ActId) (t : CalTable) (b : Break) (s : State) : State :=
  let d := deltas b
  let s := s.modAcal a fun x => { x with
    committed := satAdd 65535 x.committed 1, lastTb := BitVec.ofInt 16 b.tb
    heads := upd x.heads b.head fun h => { h with
      tCal := some b.tb, fails := 0, breaks := satAdd 65535 h.breaks 1, lastAt := some s.now
      entries := h.entries.zipIdx.map fun q => match b.kind with
        | .full => if q.2 = b.zone.val then q.1.commit t d b.tb else q.1
        | _ => q.1.commit t d b.tb } }
  let s := s.calDirty a
  let s := s.when (match b.kind with
    | .full => true
    | _ => false) (State.fullProgress a b)
  let s := s.raiseCal a 0 (pay ([(1, b.head.val), (1, b.zone.val), (2, unsigned 16 b.tb)] ++ b.chosen.list.map fun v => (2, v)))
  (s.closeBreak a b 0).noteHolds a

/-- The judgement after the last pass (R304, R307, R309). -/
def State.judgeBreak (a : ActId) (t : CalTable) (b : Break) (s : State) : State :=
  let s := if b.failed then (s.calFailure a b.head).closeBreak a b 1 else s.commitBreak a t b
  match b.kind with
  | .full => s.fullPoint a
  | _ => s

/-- CALIBRATION_PASS_DONE: `unwritten` after a write pass, `iters` by sector after a read pass (R302 to R304). -/
def execCalibrationPassDone (a : ActId) (iters : List (Option Nat)) (unwritten : List Nat) (s : State) :
    Host.Outcome State Fault Refusal :=
  .next <|
    match (s.acal a).brk, (s.pcal (portOf a)).table, (s.pcal (portOf a)).format with
    | some b, some t, some f =>
      let n := (b.pass? f b.pass).count
      let s := if (s.seq a).op.isSome then s.seqToIdle a false else s
      let judged := judgePass t b n iters
      let b : Break := { b with
        pass := nextPass (s.driven a b.head b.zone) b.pass, begun := false
        unwritten := if b.pass % 2 = 1 then unwritten else []
        chosen := if b.pass % 2 = 1 then b.chosen else judged.1
        failed := b.failed || (b.pass % 2 == 0 && judged.2) }
      let s := s.when (b.pass % 2 == 1) (State.endSession a)
      let s := s.modAcal a fun x => { x with brk := some b }
      if 9 ≤ b.pass then s.judgeBreak a t b else s.beginPass a b s.now
    | _, _, _ => s

/-- BREAK_ABANDON: not complete 250 ms after its start (R306). -/
def execBreakAbandon (a : ActId) (s : State) : Host.Outcome State Fault Refusal :=
  .next <|
    match (s.acal a).brk with
    | some b =>
      (s.at_ (b.at_ + 250 * Config.ms)).quiesce false a
    | none => s

/-! ## HEAD_CONFIG answers (spec/08 R296) -/

/-- HEAD_CONFIG_RESPONSE. -/
def execHeadConfigResponse (p : PortId) (s : State) : Host.Outcome State Fault Refusal :=
  .next <| s.takeAnswer p 0x30 fun r k s =>
    let a := actOf p (if field r.packet.payload 0 1 = 1 then 1 else 0)
    let h : Fin 12 := Fin.ofNat 12 (field r.packet.payload 1 1)
    let s := s.answered p r
    let set (g : HeadCal → HeadCal) (s : State) : State := s.modAcal a fun x => { x with heads := upd x.heads h g }
    if k.status = 0 then set (fun y => { y with cfgFails := 0 }) s
    else if k.status = 5 ∨ k.status = 7 then
      let n := ((s.acal a).heads[h]).cfgFails + 1
      let s := (((s.cancelGates a true true).seqToIdle a true).modAcal a fun x => { x with
        brk := x.brk.map fun b => { b with begun := false } }).raiseCal a 6 []
      let s := set (fun y => { y with holds := none, cfgFails := if 3 ≤ n then 0 else n }) s
      if 3 ≤ n then s.calFailure a h else s
    else if k.status = 3 then s.refusedFenced p
    else set (fun y => { y with holds := none }) s

/-! ## Records (spec/08 R297, R310) -/

/-- What a copy records of a head, as numbers. -/
def HeadCal.words (h : HeadCal) : List Int :=
  (h.entries.flatMap fun e => e.list.flatMap fun v => v.list.map Int.ofNat) ++
    [h.tCal.getD 0, bit h.tCal.isSome, bit h.failed, h.fails, h.breaks, h.abandoned]

/-- The digest of a copy over all it records; its layout on media is left open (log 111). -/
def CalRecord.sum (r : CalRecord) : Digest :=
  Machine.digest (Config.recordBytes ([(r.sequence : Int), r.serial.toNat] ++ r.heads.flatMap HeadCal.words ++
    (r.marks.flatMap fun m => [(m.1 : Int), (m.2 : Int)]) ++ r.recipes.map Int.ofNat))

/-- The copy that the HDA on a port holds, when it is valid: its digest is right, and it lies on this HDA. -/
def CalRecord.valid (serial : BitVec 160) (c : Option CalRecord) : Option CalRecord :=
  c.filter fun r => r.serial == serial && r.digest == r.sum

/-- The valid copies of an actuator. -/
def State.records (s : State) (a : ActId) : Option CalRecord × Option CalRecord :=
  let serial := (s.port (portOf a)).serial
  (CalRecord.valid serial (s.acal a).copy0, CalRecord.valid serial (s.acal a).copy1)

def sequenceOf (c : Option CalRecord) : Nat := match c with
  | some r => r.sequence
  | none => 0

/-- Copy 0 is the one not written last; with no valid copy it is written first. -/
def State.copy0Next (s : State) (a : ActId) : Bool := decide (sequenceOf (s.records a).1 ≤ sequenceOf (s.records a).2)

/-- A copy of an actuator's record takes a value. -/
def State.setCopy (a : ActId) (first : Bool) (r : Option CalRecord) (s : State) : State :=
  s.modAcal a fun y => if first then { y with copy0 := r } else { y with copy1 := r }

/-- The copy not written last takes an actuator's tables (R297). -/
def State.writeCalRecord (a : ActId) (s : State) : State :=
  let x := s.acal a
  let rs := s.records a
  let new : CalRecord := { sequence := max (sequenceOf rs.1) (sequenceOf rs.2) + 1, digest := 0, serial := (s.port (portOf a)).serial
                           heads := x.heads.toList, marks := x.marks, recipes := x.recipes }
  (s.setCopy a (s.copy0Next a) (some { new with digest := new.sum })).modAcal a fun y => { y with dirtyAt := none }

/-- A write of the record has failed: what the copy that it was to replace holds is left open, the other is as it was (R297; log 111). -/
def State.recordFailed (a : ActId) (s : State) : State :=
  let first := s.copy0Next a
  let left := (if first then (s.acal a).copy0 else (s.acal a).copy1).map fun r => { r with digest := Config.recordLeft s.free }
  ((s.setCopy a first left).raiseCal a 4 []).takeFree

/-- CALIBRATION_RECORD_WRITE: within 60 s of a change the copy not written last is written (R297). -/
def execCalibrationRecordWrite (a : ActId) (ok : Bool) (s : State) : Host.Outcome State Fault Refusal :=
  .next <|
    if (s.acal a).dirtyAt.isNone ∨ s.hdaHeld (portOf a) = true then s
    else if ok = false then s.recordFailed a
    else s.writeCalRecord a

/-- The copy with the higher sequence number. -/
def newestRecord (a b : Option CalRecord) : Option CalRecord :=
  match a, b with
  | some x, some y => if x.sequence < y.sequence then some y else some x
  | some x, none => some x
  | none, y => y

/-- The factory entries of a head (R291). -/
def CalTable.head (t : CalTable) (g : Nat) : List CalEntry := (t.entries.drop (32 * g)).take 32

/-- The table of an actuator is that of its newest valid calibration record, or of the personality data. -/
def State.loadCalibration (a : ActId) (s : State) : State :=
  match (s.pcal (portOf a)).table with
  | none => s
  | some t =>
    match newestRecord (s.records a).1 (s.records a).2 with
    | some r =>
      (s.modAcal a fun x => { x with
        heads := Vector.ofFn fun h => { (r.heads.getD h.val HeadCal.reset) with
          holds := none, hold := false, cfgFails := 0, keptReq := ((s.acal a).heads[h]).keptReq }
        marks := r.marks, recipes := r.recipes, dirtyAt := none, told := true }).noteHolds a
    | none =>
      ((s.modAcal a fun x => { x with
        heads := Vector.ofFn fun h => { HeadCal.reset with
          entries := t.head (globalHead (sideOf a) h), keptReq := ((s.acal a).heads[h]).keptReq }
        marks := [], recipes := [], dirtyAt := none, told := true }).raiseCal a 5 []).noteHolds a

/-! ## Temperature and deferral (spec/08 R299, R313) -/

/-- CALIBRATION_RECORD_LOAD: at port bring-up the newest valid copy, else table 0x0005 with every head uncalibrated, no zone marked, and
the recipes that the personality data declares (R297, R286). -/
def execCalibrationRecordLoad (a : ActId) (s : State) : Host.Outcome State Fault Refusal := .next <| s.loadCalibration a

/-- TEMPERATURE_STALE: no valid HDA temperature for 60 s (R299). -/
def execTemperatureStale (p : PortId) (s : State) : Host.Outcome State Fault Refusal :=
  .next <|
    if (s.port p).train = 9 ∧ (s.pcal p).stale = false then
      let t := (s.pcal p).lastValid.getD (s.port p).stateAt
      let s := (s.at_ (t + 60 * Config.sec)).modPcal p fun x => { x with stale := true }
      (s.noteHolds (actOf p 0)).noteHolds (actOf p 1)
    else s

/-- DEFERRAL_EXPIRY (R313). -/
def execDeferralExpiry (s : State) : Host.Outcome State Fault Refusal :=
  .next <|
    match s.cal.deferUntil with
    | some t => { s.at_ t with cal := { s.cal with deferUntil := none } }
    | none => s

end Sys2Proof.Machine
end

