-- ==== Sys2Proof/Machine/Sequencer.lean ====
section
/-! DEFINITION. Family Sequencer: the format sequencers, their gates and their microcode (spec/06 R215 to R224, R234 to
R243). -/

namespace Sys2Proof.Machine

/-! ## Gates (spec/06 R234 to R237) -/

/-- Ticks of a number of sample pairs at a rate, down and up to whole ticks: a gate closes no later than the next opens
(log 15). -/
def pairTicks (pairs rate : Nat) : Nat := pairs * 425000 / (256 * max 1 rate)
def pairTicksUp (pairs rate : Nat) : Nat := ceilDiv (pairs * 425000) (256 * max 1 rate)

/-- 12 µs in ticks (R236). -/
def gateMargin : Nat := ceilDiv (12000 * 425) 256

/-- The numbers of a track that the gates of an operation rest on. -/
structure Track where
  fmt : FormatTable
  zone : ZoneFmt
  wedges : Nat
  /-- pairs of a data area at the run-level speed -/
  area : Nat
  /-- T_w and the servo gate's length, in ticks -/
  tw : Nat
  servo : Nat
  deriving DecidableEq, Repr

/-- A zone of no track. -/
def ZoneFmt.none : ZoneFmt :=
  { firstTrack := 0, trackCount := 0, sectors := 0, rate := 0, preamble := 0, sync := 0, body := 0, postamble := 0
    resync := 0, skew := 0, guard := 0 }

def State.trackOf (s : State) (a : ActId) (zone : Fin 32) : Option Track :=
  let p := portOf a
  match (s.pcal p).format, (s.pcal p).servo, (s.spin p).table with
  | some f, some t, some v =>
    let z := f.zones.getD zone.val ZoneFmt.none
    some { fmt := f, zone := z, wedges := t.wedges, area := dataArea f z v.runSpeed t.wedges, tw := s.wedgeTicks p t
           servo := pairTicksUp f.servoPairs f.servoRate }
  | _, _, _ => none

/-- A fragment placed on its track: sector, fragment, wedge, first pair in the data area, pairs. -/
structure Placed where
  sector : Nat
  frag : Nat
  wedge : Nat
  first : Nat
  pairs : Nat
  deriving DecidableEq, Repr

/-- The fragments of sectors of a track (R235). -/
def Track.place (k : Track) (track : Nat) (sectors : List Nat) : List Placed :=
  let lay := layout k.zone k.area k.zone.sectors 0 0
  let w0 := firstWedge k.zone track k.wedges
  sectors.flatMap fun n => (lay.getD n []).zipIdx.map fun q =>
    { sector := n, frag := q.2, wedge := (w0 + q.1.1) % max 1 k.wedges, first := q.1.2.1, pairs := q.1.2.2 }

/-- How many fragments a sector has. -/
def Track.frags (k : Track) (sector : Nat) : Nat := ((layout k.zone k.area k.zone.sectors 0 0).getD sector []).length

/-- A gate still counts for its sectors: it is open or pending, or it closed so lately that they are not retired. -/
def State.gateFresh (s : State) (k : Track) (g : Gate) : Bool := decide (s.ticksNow ≤ g.openTime + g.length + 2 * k.tw)

/-- The sectors that gates are to be issued for: those queued for rewrite when there are any, else those not yet done; a
sector not written waits until it is queued (R237 to R239). -/
def Seq.wanted (q : Seq) (d : Descriptor) (write : Bool) : List Nat :=
  if write ∧ q.rewrite ≠ [] then q.rewrite
  else ((List.range d.count).map (d.first + ·)).filter fun n => !q.done.contains n && !(write && q.lost.contains n)

/-- Runs of consecutive sectors among fragments in order. -/
def gateRuns : List Placed → List (List Placed)
  | [] => []
  | x :: r => match gateRuns r with
    | (y :: ys) :: zs => if y.sector ≤ x.sector + 1 then (x :: y :: ys) :: zs else [x] :: (y :: ys) :: zs
    | zs => [x] :: zs

/-- The bits of a sector's fragment: those of its fragments before it lie elsewhere (spec/07 R274). -/
def Track.fragBits (k : Track) (a : ActId) (d : Descriptor) (f : Placed) : ChannelBits :=
  let earlier := ((layout k.zone k.area k.zone.sectors 0 0).getD f.sector []).take f.frag
  let before := (earlier.map fun x => x.2.2).sum - (f.frag - 1) * k.zone.resync
  fragmentBits k.zone (sectorBits k.fmt k.zone (addressWord (portOf a) (globalHead (sideOf a) d.head) d.track f.sector)
    (d.data.getD (f.sector - d.first) 0)) f.frag before f.pairs

/-- The write-bit blocks of a gate: 2,016 bits each, those of its fragments in order (spec/03 R111; spec/07 R274). -/
def writeBlocks (a : ActId) (d : Descriptor) (k : Track) (frags : List Placed) (openTime bitsN : Nat) : List WriteBits :=
  let n := ceilDiv bitsN 2016
  let all : ChannelBits := (frags.map (k.fragBits a d)).foldl ChannelBits.cat (0, 0)
  (List.range n).map fun i =>
    { side := sideOf a, first := i == 0, last := i + 1 == n, count := min 2016 (bitsN - 2016 * i), openTime := openTime
      doneAt := openTime + pairTicksUp (min bitsN (2016 * (i + 1))) k.zone.rate
      bits := BitVec.ofNat 2016 (all.part (2016 * i) 2016).2 }

/-- The offsets of the fragments under a read gate, counted from its opening, are given to the bound engine (R236); those of an earlier
pass over a sector that is read again go (spec/07 R257). -/
def State.giveOffsets (a : ActId) (k : Track) (gate : Nat) (frags : List Placed) (s : State) : State :=
  let again (n : Nat) : Bool := frags.any fun f => f.sector == n && f.frag == 0
  match s.engineOf a with
  | some e => s.modEng e fun x => { x with offsets := (x.offsets.filter fun o => !again o.sector) ++ frags.map fun f =>
      { gate := gate, sector := f.sector, first := k.fmt.gapPost + f.first, pairs := f.pairs } }
  | none => s

/-- One gate issued: its GATE, a HEAD_CONFIG when the values change, its write bits, and its place among the gates of the
operation (R236, R238, R295). -/
def State.issueGate (a : ActId) (d : Descriptor) (k : Track) (w : Nat) (sync : Nat) (write : Bool) (frags : List Placed)
    (s : State) : State :=
  let opens := sync - k.fmt.gateLead + k.servo
  let lo := (frags.map Placed.first).foldl min k.area
  let hi := (frags.map fun f => f.first + f.pairs).foldl max 0
  let start := if write then opens + pairTicksUp (k.fmt.gapPost + lo) k.zone.rate else opens
  let ticks := if write then pairTicksUp (hi - lo) k.zone.rate else k.tw - k.servo
  let units := if write then hi - lo else (k.tw - k.servo) * 256 * k.zone.rate / 425000
  let starts := (frags.filter fun f => f.frag == 0).map Placed.sector
  let s := match s.wantValues a d ((starts.getLast?.or (frags.head?.map Placed.sector)).getD d.first) with
    | some v => (s.sendHeadConfig a d.head v start).modAcal a fun x => { x with values := if x.brk.isNone then some v else none }
    | none => s
  let s := s.sendGate a (if write then 2 else 1) d.head.val start units k.zone.rate
  let coded : Bool := write && (s.pool a).enc == 1
  let s := s.when coded fun s =>
    s.modPort (portOf a) fun x => { x with writes := x.writes ++ writeBlocks a d k frags start units }
  let s := s.when (!write) (State.giveOffsets a k start frags)
  let again (g : Gate) : Gate := { g with frags := g.frags.filter fun x => !starts.contains x.1 }
  let gate : Gate := { write := write, wedge := w, openTime := start, length := ticks
                       frags := frags.map fun f => (f.sector, f.frag) }
  s.modSeq a fun q => { q with gates := q.gates.map again ++ [gate], lost := q.lost.filter fun n => !starts.contains n }

/-- A fragment may go under a gate: it is under none, and a continuation follows its sector's fragment of the wedge
before. -/
def State.fragDue (s : State) (a : ActId) (k : Track) (start : Nat) (f : Placed) : Bool :=
  let gs := (s.seq a).gates
  !(gs.any fun g => s.gateFresh k g && g.frags.contains (f.sector, f.frag)) &&
  (f.frag == 0 || gs.any fun g => g.frags.contains (f.sector, f.frag - 1) && decide (start < g.openTime + 2 * k.tw))

/-- Gates pending at the companion: sent and not yet open (R217, R236). -/
def State.pendingGates (s : State) (a : ActId) : Nat := ((s.seq a).gates.filter fun g => decide (s.ticksNow < g.openTime)).length

/-- The gates of the n-th wedge from the last one reported: one read gate, or one write gate for each run of sectors,
while fewer than gate_ahead are pending and 12 µs are left (R236). -/
def State.issueWedge (a : ActId) (d : Descriptor) (k : Track) (all : List Placed) (write : Bool) (n : Nat) (s : State) :
    State :=
  let x := s.act a
  let w := (x.wedge + n) % max 1 k.wedges
  let sync := x.prevSync + n * k.tw
  let start := sync - k.fmt.gateLead + k.servo
  if start < s.ticksNow + gateMargin then s
  else
    let here := all.filter fun f => f.wedge == w && s.fragDue a k start f
    let groups := if write then gateRuns here else if here = [] then [] else [here]
    s.each groups fun g s => if s.pendingGates a < (s.seq a).gateAhead then s.issueGate a d k w sync write g else s

/-- gate_op 1 and 2 (R236, R237); no read gate opens without a bound engine (spec/07 R266). -/
def State.issueGates (a : ActId) (write : Bool) (s : State) : State :=
  match (s.seq a).op with
  | none => s
  | some d =>
    match s.trackOf a d.zone with
    | none => s
    | some k =>
      if (if write then (s.act a).writeAllowed else (s.act a).readAllowed && (s.engineOf a).isSome) then
        let all := k.place d.track ((s.seq a).wanted d write)
        s.each (List.range k.wedges) fun n s => s.issueWedge a d k all write n
      else s

/-! ## Sector counts (spec/06 R238, R239) -/

/-- count_op 2: sectors whose last sample or bit precedes the latest reported sync mark, all of whose fragments were written, or came
whole, and that are not lost. -/
def State.retire (a : ActId) (s : State) : State :=
  match (s.seq a).op with
  | none => s
  | some d =>
    match s.trackOf a d.zone with
    | none => s
    | some k =>
      let sync := (s.act a).prevSync
      s.modSeq a fun q =>
        let closed := q.gates.filter fun g => decide (g.openTime + g.length ≤ sync) && (g.write || g.whole)
        let got := (((List.range d.count).map (d.first + ·)).filter fun n =>
          !q.done.contains n && !q.lost.contains n && (List.range (max 1 (k.frags n))).all fun i =>
            closed.any fun g => g.frags.contains (n, i))
        let again := (got.filter fun n => q.rewrite.contains n).length
        { q with done := q.done ++ got, rewrite := q.rewrite.filter fun n => !got.contains n
                 rewrites := satAdd 65535 q.rewrites again, sectorsLeft := q.sectorsLeft - got.length
                 nextSector := got.foldl (fun t n => max t (n + 1)) q.nextSector
                 gates := q.gates.filter fun g => !(closed.contains g && g.frags.all fun x => (q.done ++ got).contains x.1) }

/-- count_op 3: sectors of the operation not written, and not wholly under gates that have written or will write them, are queued
(R238). -/
def State.queueRewrite (a : ActId) (s : State) : State :=
  match (s.seq a).op with
  | none => s
  | some d =>
    let q := s.seq a
    let parts (n : Nat) : Nat := match s.trackOf a d.zone with
      | some k => max 1 (k.frags n)
      | none => 1
    let under (n : Nat) : Bool := (List.range (parts n)).all fun i => q.gates.any fun g => g.frags.contains (n, i)
    let todo := ((List.range d.count).map (d.first + ·)).filter fun n =>
      !q.done.contains n && !(under n && !q.lost.contains n)
    let s := s.modSeq a fun q => { q with rewrite := todo, lost := [] }
    if todo = [] then s else s.raiseSeq a 3

/-! ## Reports and faults (spec/06 R241, Table 6-5) -/

/-- What an operation has written for the peer lies on the media (spec/18 R626). -/
def State.peerWritten (a : ActId) (d : Descriptor) (s : State) : State :=
  s.each d.data.zipIdx fun q s =>
    match s.placeAt { act := a, head := d.head, zone := d.zone, track := d.track, sector := d.first + q.2 } with
    | some (pl, n) => s.modProt (Prot.putSector pl n q.1)
    | none => s

/-- A MEDIA_DONE to the peer whose request the operation was (spec/18 R626). -/
def State.peerReport (a : ActId) (d : Descriptor) (ok : Bool) (s : State) : State :=
  match s.pair.peerReqs.find? fun r => r.act == a && r.d == d with
  | some r =>
    let s := s.when (ok && d.write) (State.peerWritten a d)
    (s.modPair fun p => { p with peerReqs := p.peerReqs.filter fun x => x.seq != r.seq }).sendWings 0x08 [2, r.seq.toNat, bit ok] []
  | none => s

/-- The sectors of an operation that ends without them are given up to their requester. -/
def State.giveUp (a : ActId) (s : State) : State :=
  match (s.seq a).op with
  | some d =>
    if d.write then s
    else
      let left := ((List.range d.count).map (d.first + ·)).filter fun n => !(s.seq a).done.contains n
      s.modChorus fun c => { c with staging := c.staging ++ left.map fun n =>
        { act := a, head := d.head, track := d.track, sector := n, ctx := d.ctx, ok := false, spilled := false, at_ := s.now
          session := none } }
  | none => s

/-- An operation that has failed is reported to the request that waits on it: a read gets none of the sectors left, a write ends with
Write Fault (R241). -/
def State.failOp (a : ActId) (s : State) : State :=
  match (s.seq a).op with
  | some d =>
    let s := (s.giveUp a).peerReport a d false
    match d.write, d.ctx with
    | true, some c => s.complete c (Cpl.err 0x2 0x80)
    | _, _ => s
  | none => s

/-- report_op: 1 complete, 2 failed with sectors not written, 3 failed with sectors not read; the track of a failed write is kept for
its reallocation (spec/09 R350). -/
def State.report (a : ActId) (r : Nat) (s : State) : State :=
  match (s.seq a).op with
  | none => s
  | some d =>
    if r = 1 then s.peerReport a d true
    else if r = 2 ∨ r = 3 then
      let s := ((s.giveUp a).peerReport a d false).raiseSeq a 4
      if r = 2 then s.modSeq a fun q => { q with unwritten := (q.unwritten.filter fun x => x != (d.head, d.track)) ++ [(d.head, d.track)] }
      else s
    else s

/-- An actuator leaves service: its work ends, its time out of service counts (spec/09 R329). -/
def State.actOut (a : ActId) (s : State) : State :=
  ((s.quiesce true a).noteService (portOf a)).settle

/-- The newest bank. -/
def Patch.bankOf (p : Patch) (b : Bool) : Bank := if b then p.bank1 else p.bank0

/-- A sequencer selects the newest bank; the last to do so ends the switch (R230). -/
def State.selectBank (a : ActId) (s : State) : State :=
  if (s.seq a).switchPending then
    let s := (s.modSeq a fun q => { q with bank := s.patch.newest, switchPending := false }).modPatch fun p =>
      { p with remaining := p.remaining - 1 }
    if s.patch.remaining = 0 then
      (s.modPatch fun p => { p with switching := false }).each (fins 64) fun b s => s.raiseSeq b 5
    else s
  else s

/-- A sequencer faults (R241): gates cancelled, halted at its address, its operation ended; a second fault within 60 s takes the
actuator out of service. -/
def State.seqFault (a : ActId) (code : Nat) (s : State) : State :=
  let again := match (s.seq a).faultAt with
    | some t => decide (s.now ≤ t + 60 * Config.sec)
    | none => false
  let writing := s.seqWrites a
  let s := (s.cancelGates a true true).failOp a
  let stop := s.seq a
  let s := ((s.seqToIdle a false).modSeq a fun q => { q with
    addr := stop.addr, nano := stop.nano, stack := stop.stack
    st := .halted, fault := BitVec.ofNat 8 code, faults := satAdd 255 q.faults 1, faultAt := some s.now
    outOfService := q.outOfService || again }).when (!writing) (State.endSession a)
  let s := s.modAcal a fun x => { x with brk := x.brk.map fun b => { b with begun := false } }
  let s := (s.raiseSeq a 0).selectBank a
  if again then s.actOut a else s

/-! ## Microcode (spec/06 R217 to R224) -/

/-- Fields of a microword (Table 6-2). -/
def microNano (w : W32) : Nat := bits w 31 21
def microCycle (w : W32) : Nat := bits w 20 17
def microNext (w : W32) : Nat := bits w 16 15
def microTarget (w : W32) : Nat := bits w 14 0

/-- Bits [hi:lo] of a nano-word. -/
def nbits (w : BitVec 128) (hi lo : Nat) : Nat := w.toNat / 2 ^ lo % 2 ^ (hi + 1 - lo)

/-- A nano-word with no reserved code and no reserved bit (Tables 6-4 to 6-6). -/
def nanoOk (w : BitVec 128) : Bool :=
  decide (nbits w 127 124 ≤ 0xB) && decide (nbits w 122 120 ≤ 6) && decide (nbits w 119 117 ≤ 4) &&
  decide (nbits w 116 114 ≤ 5) && decide (nbits w 113 110 ≤ 3) && decide (nbits w 109 107 ≤ 2) &&
  decide (nbits w 106 104 ≤ 3) && nbits w 87 0 == 0

/-- The microword at an address of a bank, none outside the loaded words (R218). -/
def Bank.micro? (b : Bank) (addr : Nat) : Option W32 :=
  if addr < 16384 then some (Config.romMicro addr) else b.micro[addr - 16384]?

/-- The nano-word of an index: fault 1 outside the address space, fault 2 for an unloaded patch word (R218). -/
def Bank.nano? (b : Bank) (i : Nat) : Nat ⊕ BitVec 128 :=
  if i < 1024 then .inr (Config.romNano i)
  else if 1152 ≤ i then .inl 1
  else match b.nano[i - 1024]? with
    | some w => .inr w
    | none => .inl 2

/-- A fetch from a ROM address that a match register names goes to its patch address (R223). -/
def Bank.redirect (b : Bank) (addr : Nat) : Nat :=
  if addr < 16384 then
    match b.matches_.find? fun m => m.1 == addr with
    | some m => m.2
    | none => addr
  else addr

/-- A descriptor waits: the operation that may be taken next, on the head and track that the actuator follows (R216,
log 14); a write only while a further actuator may start writing (spec/01 R34) and its head is under no write hold (spec/08 R299). -/
def State.descriptorWaits (s : State) (a : ActId) : Bool :=
  let x := s.act a
  match s.nextOp a with
  | some d => x.region == .follow && x.head == d.head && x.target == opTarget d &&
      (!d.write || s.mayWriteOn a && ((s.acal a).brk.isSome || !s.held a d.head))
  | none => false

/-- The descriptor that count_op 1 takes: one that waits, and a read only with its engine bound (spec/07 R266). -/
def State.mayTake (s : State) (a : ActId) : Option Descriptor :=
  match s.nextOp a with
  | some d => if s.descriptorWaits a && (d.write || (s.engineOf a).isSome) then some d else none
  | none => none

/-- The condition of a nano-word (Table 6-5). -/
def State.microCond (s : State) (a : ActId) (sel : Nat) : Bool :=
  let q := s.seq a
  match sel with
  | 0x0 => true
  | 0x1 => q.sectorsLeft == 0
  | 0x2 => (s.act a).readAllowed
  | 0x3 => (s.act a).writeAllowed
  | 0x4 => (s.engineOf a).isSome
  | 0x5 => q.affected
  | 0x6 => q.rewrite != []
  | 0x7 => match q.op with
    | some d => match s.trackOf a d.zone with
      | some k => decide (k.zone.sectors ≤ q.nextSector)
      | none => false
    | none => false
  | 0x8 => s.descriptorWaits a
  | 0x9 => match q.op with
    | some d => d.write
    | none => match s.nextOp a with
      | some d => d.write
      | none => false
  | 0xA => q.switchPending
  | _ => q.timer == 0

/-- Whether the event that ends a hold has occurred (Table 6-6); the timer's end is an instant of the clock. -/
def State.microEvent (s : State) (a : ActId) (sel : Nat) : Bool :=
  let q := s.seq a
  match sel with
  | 2 => q.wedgeSeen
  | 3 => s.descriptorWaits a
  | 4 => (s.engineOf a).isSome
  | 5 => (s.pool a).encReady
  | 6 => q.gates.all s.gateOver
  | _ => true

/-- count_op 1: the descriptor is taken. -/
def State.takeOp (a : ActId) (s : State) : State :=
  match s.mayTake a with
  | none => s
  | some d =>
    let s := s.modSeq a fun q => { q with
      op := some d, queue := if (s.acal a).brk.isSome then q.queue else q.queue.erase d, sectorsLeft := d.count
      nextSector := d.first, done := [], lost := [], rewrite := [], affected := false, gates := [], opAt := s.now
      st := .running }
    let s := s.modAcal a fun x => { x with brk := x.brk.map fun b => { b with begun := true }, values := none }
    match d.write, s.engineOf a with
    | false, some e => (s.modEng e fun x => { x with st := .reading }).noteRequest a
    | _, _ => s.noteRequest a

/-- The write encoder's actions (Table 6-6; spec/07 R274, R277). -/
def State.encoderOp (a : ActId) (n : Nat) (s : State) : State :=
  match n with
  | 1 | 2 => s.modPool a fun x => { x with enc := 1, encReady := false, sent := 0 }
  | 3 => s.idleEncoder a
  | _ => s

/-- The actions of a nano-word, in the first clock of the hold (R221; against steps 12 and 13 of Table 6-18: DEDUCED, log 154). -/
def State.microActions (a : ActId) (w : BitVec 128) (s : State) : State :=
  let s := match nbits w 116 114 with
    | 1 => s.takeOp a
    | 2 => s.retire a
    | 3 => s.queueRewrite a
    | 4 => s.modSeq a fun q => { q with retries := q.retryMax }
    | 5 => s.modSeq a fun q => { q with retries := q.retries - 1 }
    | _ => s
  let s := s.encoderOp a (nbits w 106 104)
  let s := match nbits w 119 117 with
    | 1 => s.issueGates a false
    | 2 => s.issueGates a true
    | 3 => s.cancelGates a true false
    | 4 => s.cancelGates a false true
    | _ => s
  let s := s.report a (nbits w 113 110)
  let s := match nbits w 109 107 with
    | 1 => s.requestEngine a (match s.readQueued a with
        | some d => d.cls
        | none => 0) s.now
    | 2 => s.endSession a
    | _ => s
  s.modSeq a fun q => { q with
    acted := true, timer := if nbits w 122 120 = 1 then nbits w 103 88 else q.timer
    wedgeSeen := if nbits w 122 120 = 2 then false else q.wedgeSeen }

/-- At its idle point, the microword at 0x0000 with no gate open or pending, a sequencer's parameters come into force and it selects a
waiting bank (R217, R230, Table 6-8). -/
def State.idlePoint (a : ActId) (s : State) : State :=
  let q := s.seq a
  if q.addr = 0 ∧ q.op.isNone ∧ q.gates.all s.gateOver then
    (s.modSeq a fun q => { q with gates := [], gateAhead := s.nor.config.gateAhead[a], retryMax := s.nor.config.writeRetryMax[a] }).selectBank a
  else s

/-- The sequencer is at an address: at 0x0000 its operation has ended. -/
def State.goTo (a : ActId) (addr : Nat) (stack : List (BitVec 15)) (s : State) : State :=
  let b := s.patch.bankOf (s.seq a).bank
  let at_ := b.redirect addr
  let s := s.modSeq a fun q => { q with addr := BitVec.ofNat 15 at_, stack := stack, acted := false, wordAt := s.now }
  match b.micro? at_ with
  | none => s.seqFault a 1
  | some w =>
    let s := s.modSeq a fun q => { q with nano := microNano w }
    if at_ = 0 then
      ((s.modSeq a fun q => { q with
        op := none, st := .idle, gates := q.gates.filter fun g => !s.gateOver g }).noteRequest a).idlePoint a
    else s.modSeq a fun q => { q with st := .running }

/-- The end of a hold: the next address (Table 6-3, R220). -/
def State.microNextWord (a : ActId) (w : W32) (cond : Bool) (s : State) : State :=
  let q := s.seq a
  let next := q.addr.toNat + 1
  match microNext w with
  | 0 => s.goTo a next q.stack
  | 1 => s.goTo a (if cond then microTarget w else next) q.stack
  | 2 =>
    if 8 ≤ q.stack.length then s.seqFault a 3
    else s.goTo a (microTarget w) (BitVec.ofNat 15 next :: q.stack)
  | _ => match q.stack with
    | r :: rest => s.goTo a r.toNat rest
    | [] => s.seqFault a 4

/-- No revolution of rewrite or read retry is left: the operation ends with report_op 2 or 3 and the sequencer returns to its idle
point (R238, R239; that count_op 5 tells it is DEDUCED, log 100). -/
def State.exhaust (a : ActId) (d : Descriptor) (s : State) : State :=
  (((s.report a (if d.write then 2 else 3)).when (!d.write) (State.endSession a)).idleEncoder a).goTo a 0 []

/-- The end of a microword's hold, when the event it waits for has occurred. -/
def State.endHold (a : ActId) (wordAt : Nat) (w : W32) (n : BitVec 128) (s : State) : State :=
  let sel := nbits n 122 120
  if s.microEvent a sel then
    let s := s.at_ (wordAt + max (microCycle w + 1) (if sel = 1 then (s.seq a).timer else 0))
    let s := if sel = 1 then s.modSeq a fun q => { q with timer := 0 } else s
    (s.microNextWord a w (s.microCond a (nbits n 127 124) != decide (nbits n 123 123 = 1))).handNext (portOf a)
  else s

/-- MICROWORD_EXECUTE: the current microword's actions, once, and, when the event it waits for has occurred, the end of
its hold and the next fetch (R219 to R222); `parityError`: the word read with a parity or uncorrectable error. -/
def execMicrowordExecute (a : ActId) (parityError : Bool) (s : State) : Host.Outcome State Fault Refusal :=
  .next <|
    let q := s.seq a
    if q.st ≠ .idle ∧ q.st ≠ .running then s
    else if parityError then s.seqFault a 5
    else
      let s := s.idlePoint a
      let q := s.seq a
      let b := s.patch.bankOf q.bank
      match b.micro? q.addr.toNat with
      | none => s.seqFault a 1
      | some w =>
        match b.nano? (microNano w) with
        | .inl code => s.seqFault a code
        | .inr n =>
          if nanoOk n = false then s.seqFault a 2
          else
            match q.op, q.acted, nbits n 116 114, q.retries with
            | some d, false, 5, 0 => s.exhaust a d
            | _, _, _, _ =>
              let s := if q.acted then s else s.microActions a n
              if (s.seq a).st = .halted then s else s.endHold a q.wordAt w n

/-! ## Other commands of the sequencers -/

/-- OPERATION_TIMEOUT: not back at 0x0000 within (write_retry_max + 2) revolutions (R241, Table 6-9 code 0x07). -/
def execOperationTimeout (a : ActId) (s : State) : Host.Outcome State Fault Refusal :=
  .next <|
    let q := s.seq a
    if q.st = .running ∧ q.op.isSome then
      (s.at_ (q.opAt + (q.retryMax + 2) * (s.spin (portOf a)).periodNs.toNat)).seqFault a 7
    else s

/-- A sequencer starts at 0x0000 on the newest bank with an empty stack (R241). -/
def State.seqRestart (a : ActId) (s : State) : State :=
  let s := (s.modSeq a fun q => { q with switchPending := q.switchPending && (q.bank != s.patch.newest) }).selectBank a
  (s.modSeq a fun q => { q with st := .idle, fault := 0, bank := s.patch.newest }).goTo a 0 []

/-- SEQUENCER_FAULT_REINIT: firmware re-initialises a halted sequencer, unless its second fault within 60 s has taken the
actuator out of service (R241). -/
def execSequencerFaultReinit (a : ActId) (s : State) : Host.Outcome State Fault Refusal :=
  .next <|
    if (s.seq a).st = .halted ∧ (s.seq a).outOfService = false then s.seqRestart a else s

/-- BANK_SWITCH: at its idle point, offline or halted, a sequencer selects the new bank (R230). -/
def execBankSwitch (a : ActId) (s : State) : Host.Outcome State Fault Refusal :=
  .next <|
    let q := s.seq a
    if q.st = .offline ∨ q.st = .halted ∨ (q.addr = 0 ∧ q.op.isNone = true ∧ q.gates.all s.gateOver = true) then
      s.selectBank a
    else s

/-- GATE_ERROR (spec/03 R108; spec/06 R238, R239, R241, Table 6-10). -/
def execGateError (p : PortId) (s : State) : Host.Outcome State Fault Refusal :=
  .next <| s.takeRx p 0xE3 fun k s =>
    let a := actOf p (if field k.payload 0 1 = 1 then 1 else 0)
    let kind := field k.payload 1 1
    let reason := field k.payload 2 1
    let t := field k.payload 4 4
    let s := (s.modPort p fun x => { x with gateErr := sat32 x.gateErr 1 }).raisePort p 1
    let s := (s.raiseSeq a 2).modSeq a fun q => { q with gateErrors := satAdd 255 q.gateErrors 1 }
    let s := s.when (reason == 1) (State.raiseSeq a 1)
    let hit (g : Gate) : Bool := g.write == (kind == 2) && time32 g.openTime == t
    let lose (s : State) : State := (s.modSeq a fun q =>
      let gone := q.gates.filter hit
      { q with gates := q.gates.filter fun g => !hit g, affected := q.affected || gone != []
               lost := (q.lost ++ gone.flatMap Gate.sectors).eraseDups }).modPort p fun x => { x with
        writes := x.writes.filter fun w => !(kind == 2 && w.side == sideOf a && time32 w.openTime == t) }
    if reason = 5 ∨ reason = 6 then s.quiesce false a
    else if kind = 0 then s
    else match reason with
      | 1 | 4 => lose s
      | 3 => (lose s).modPool a fun x => { x with underruns := satAdd 255 x.underruns 1 }
      | 2 | 7 => s.seqFault a 6
      | _ => s

/-- The first 16 KiB of the operation's bits have been sent, or all of them: every sector still wanted lies under a gate, and no
block of the side waits (spec/07 R275). -/
def State.encoderFull (s : State) (a : ActId) : Bool :=
  let q := s.seq a
  decide (131072 ≤ (s.pool a).sent) ||
    decide (0 < (s.pool a).sent) && ((s.port (portOf a)).writes.all fun w => w.side != sideOf a) && (match q.op with
      | some d => (q.wanted d true).all fun n => q.gates.any fun g => g.write && g.sectors.contains n
      | none => false)

/-- ENCODER_READY (spec/07 R275). -/
def execEncoderReady (a : ActId) (s : State) : Host.Outcome State Fault Refusal :=
  .next <| if (s.pool a).enc = 1 ∧ s.encoderFull a = true then s.modPool a fun x => { x with encReady := true } else s

/-- An uncorrectable error in staged write data: the encoder stops, the write gate is cancelled, and the operation ends with
report_op 2 (spec/07 R276). -/
def State.encoderStop (a : ActId) (s : State) : State :=
  if (s.pool a).enc = 1 then
    let s := s.cancelGates a false true
    let s := (s.report a 2).seqToIdle a false
    (s.modPool a fun x => { x with enc := 2, stagingErrors := satAdd 255 x.stagingErrors 1 }).goTo a 0 []
  else s

end Sys2Proof.Machine
end

