-- ==== Sys2Proof/Machine/Chorus.lean ====
section
/-! DEFINITION. Family Chorus: binding, decoding, recovery, engines in and out of service, and the delivery of decoded
sectors (spec/07, spec/01 R24, R39). -/

namespace Sys2Proof.Machine

/-! ## Delivery of decoded sectors (spec/01 R24, spec/07 R254, R272) -/

/-- The written sector that lies at a physical place. -/
def State.sectorOf (s : State) (l : Location) : Option Sector :=
  s.prot.sectors.find? fun x => s.locateChunk x.place x.sector == some l

/-- The block of a waiting read that a physical sector holds. -/
def State.blockOf (s : State) (x : Ctx) (l : Location) : Option (Nat × Blk) :=
  match s.ns? x.ns, x.wait with
  | some n, .sectors need =>
    (need.find? fun b => s.foundAt (s.findMapped n b) == some l).bind fun b => (s.foundBlk x.failed (s.findMapped n b)).map fun v => (b, v)
  | _, _ => none

/-- A written sector could not be read: its chunk is to be reallocated (spec/09 R350), and the strip is passed over for the read it failed
for (spec/09 R338). -/
def State.sectorFails (c : Option Nat) (x : Sector) (s : State) : State :=
  let note (l : List (Place × Nat)) : List (Place × Nat) := if l.contains (x.place, x.sector) then l else l ++ [(x.place, x.sector)]
  let s := s.modProt fun p => { p with bad := note p.bad }
  match c with
  | some c => s.modCtx c fun y => { y with failed := note y.failed }
  | none => s

/-- A command's function can take data now: it is not in D3hot (spec/11 R444), and its clock runs (spec/01 Table 1-4). -/
def State.canMove (s : State) (x : Ctx) : Bool := match x.origin with
  | .host f => !(s.fn f).d3hot && s.crosses f
  | _ => true

/-- The zone of a track. -/
def State.zoneOfTrack (s : State) (p : PortId) (track : Nat) : Fin 32 :=
  match (s.pcal p).format with
  | some f => ((fins 32).find? fun i => match f.zones[i.val]? with
      | some z => decide (i.val < f.zoneCount) && decide (z.firstTrack ≤ track) && decide (track < z.firstTrack + z.trackCount)
      | none => false).getD 0
  | none => 0

/-- A sector that recovery gives its requester. -/
def Capture.decoded (k : Capture) (ok : Bool) (now : Nat) : Decoded :=
  { act := k.act, head := k.head, track := k.track, sector := k.sector, ctx := k.ctx, ok := ok, spilled := false, at_ := now
    session := none }

def Capture.location (k : Capture) : Location :=
  { act := k.act, head := k.head, zone := k.zone, track := k.track, sector := k.sector }

def Decoded.location (s : State) (d : Decoded) : Location :=
  { act := d.act, head := d.head, zone := s.zoneOfTrack (portOf d.act) d.track, track := d.track, sector := d.sector }

/-- Staged sectors whose requester can take them go to it; the others stay in staging. -/
def State.drain (s : State) : State :=
  s.each s.chorus.staging fun d s =>
    match d.ctx.bind s.ctx? with
    | some x =>
      if d.ok = false ∨ s.canMove x = false then s
      else
        let s := s.modChorus fun c => { c with staging := c.staging.filter fun y => y != d }
        match s.blockOf x (Decoded.location s d) with
        | some (b, v) => s.giveBlock x.id b v
        | none => s
    | none => s.modChorus fun c => { c with staging := c.staging.filter fun y => y != d }

/-- A decoded sector goes to its requester: the peer whose media request it serves (spec/18 R626), or a command's read by way
of staging. -/
def State.deliver (d : Decoded) (s : State) : State :=
  match s.pair.peerReqs.find? fun r => r.act == d.act && r.d.head == d.head && r.d.track == d.track && !r.d.write &&
      decide (r.d.first ≤ d.sector) && decide (d.sector < r.d.first + r.d.count) && d.ctx.isNone with
  | some r =>
    let data := if d.ok then match s.sectorOf (Decoded.location s d) with
      | some x => [x.data]
      | none => [0]
      else []
    s.sendWings 0x08 [1, r.seq.toNat, d.sector, bit d.ok] data
  | none =>
    if d.ctx.isSome then (s.modChorus fun c => { c with staging := c.staging ++ [d] }).drain else s

/-- The sectors in the reservation of an engine's binding: staged, and not moved to DRAM (spec/07 R255). -/
def State.stagedOf (s : State) (e : EngId) : Nat :=
  (s.chorus.staging.filter fun d => d.session == some (e, (s.eng e).boundAt) && d.ok && !d.spilled).length

/-! ## Binding -/

/-- BINDING_REQUEST (R259): in the class of the read it is made for (R260); the class of the command counts where no read is
queued. -/
def execBindingRequest (a : ActId) (cls : Fin 3) (s : State) : Host.Outcome State Fault Refusal :=
  .next <| s.requestEngine a (match s.readQueued a with
    | some d => d.cls
    | none => cls) s.now

/-- The bound engine of an unready request that a ready request of a class may take: its class no higher in priority, its read
not begun (else the engine reads), and not due to be gated (spec/01 R39); the highest class number, then the youngest (R264). -/
def State.victim (s : State) (cls : OpClass) : Option EngId :=
  let may := (fins 24).filterMap fun e =>
    let x := s.eng e
    match (s.pool x.act).req with
    | some r =>
      if x.st = .bound ∧ x.gateDue = false ∧ s.isReady x.act = false ∧ cls ≤ r.served then some (e, x.act, r) else none
    | none => none
  (may.foldl (fun (b : Option (EngId × ActId × BindReq)) x => match b with
    | some y =>
      if y.2.2.served < x.2.2.served ∨ (y.2.2.served = x.2.2.served ∧ olderReq (y.2.1, y.2.2) (x.2.1, x.2.2) = true) then some x
      else some y
    | none => some x) none).map Prod.fst

/-- ENGINE_RECLAIM (R264): with no engine free, the chosen ready request takes an unready one's engine; none is granted while
more are held than are enabled (spec/01 R39). -/
def execEngineReclaim (s : State) : Host.Outcome State Fault Refusal :=
  .next <|
    if s.enabledEngines < s.sessionsHeld then s
    else if (fins 24).any (fun e => (s.eng e).st == .free && !(s.eng e).gateDue) ∧ s.sessionsHeld < s.enabledEngines then s
    else match s.chooseReq true with
      | none => s
      | some (a, r) => match s.victim r.served with
        | none => s
        | some e => ((s.raiseEng e 0).waitAgain (s.eng e).act).bind e a r

/-- BACKGROUND_PROMOTION (R261). -/
def execBackgroundPromotion (a : ActId) (s : State) : Host.Outcome State Fault Refusal :=
  .next <|
    match s.waitingReq a with
    | some r =>
      if r.cls = 2 ∧ r.promoted = false then
        let s := s.at_ (r.at_ + s.chorus.params.backgroundAge * Config.ms)
        ((s.modPool a fun x => { x with req := some { r with promoted := true } }).raisePool 1).grant
      else s
    | none => s

/-- WAIT_ALARM (R278): a ready request has waited longer than wait_alarm. -/
def execWaitAlarm (a : ActId) (s : State) : Host.Outcome State Fault Refusal :=
  .next <|
    match s.waitingReq a with
    | some r => match r.readyAt with
      | some t =>
        if r.alarmed then s
        else ((s.at_ (t + s.chorus.params.waitAlarm * Config.ms)).modPool a fun x => { x with req := some { r with alarmed := true } }).raisePool 2
      | none => s
    | none => s

/-! ## Decoding and recovery -/

/-- A sector is to be taken again as one whose samples were not captured, also when it has been retired (spec/06 R239; R255,
R258). -/
def State.loseSector (a : ActId) (n : Nat) (s : State) : State :=
  s.modSeq a fun q => { q with
    lost := if q.lost.contains n then q.lost else q.lost ++ [n], done := q.done.filter (· != n)
    sectorsLeft := if q.done.contains n then q.sectorsLeft + 1 else q.sectorsLeft }

/-- SECTOR_DECODED: the first pass of a sector of a read session has ended. It goes to its requester, is captured, or is to
be taken again with the reservation or the slots full (R254 to R258). A sector of a break's read pass is not sent to recovery (spec/08
R304). -/
def execSectorDecoded (e : EngId) (sector : Nat) (converged : Bool) (s : State) : Host.Outcome State Fault Refusal :=
  .next <|
    let x := s.eng e
    let a := x.act
    match (s.seq a).op with
    | none => s
    | some d =>
      if x.st ≠ .reading ∨ d.write = true ∨ sector < d.first ∨ d.first + d.count ≤ sector then s
      else if converged then
        if 8 ≤ s.stagedOf e then (s.loseSector a sector).raiseEng e 6
        else
          s.deliver { act := a, head := d.head, track := d.track, sector := sector, ctx := d.ctx, ok := true, spilled := false
                      at_ := s.now, session := some (e, x.boundAt) }
      else if (s.acal a).brk.isSome then s
      else if 64 ≤ x.slots.length then (s.loseSector a sector).raiseEng e 3
      else
        let at_ := x.offsets.filter fun o => o.sector == sector
        let k : Capture := { act := a, head := d.head, zone := d.zone, track := d.track, sector := sector
                             address := addressWord (portOf a) (globalHead (sideOf a) d.head) d.track sector
                             offsets := at_, samples := at_.flatMap x.samplesAt, cls := d.cls, ctx := d.ctx
                             at_ := s.now, step := 1, reread := d.reread }
        (s.modEng e fun y => { y with slots := y.slots ++ [k], captures := satAdd 65535 y.captures 1 }).takeRecovery

/-- A step of Table 7-4 is enabled. -/
def PoolParams.stepOn (p : PoolParams) (k : Nat) : Bool := k == 1 || p.recoverySteps.getLsbD (k - 2)

/-- The next enabled step after one. -/
def PoolParams.nextStep (p : PoolParams) (k : Nat) : Option Nat := [2, 3, 4, 5, 6].find? fun n => decide (k < n) && p.stepOn n

/-- A slot is freed; work on later slots of the engine keeps its place. -/
def State.freeCapture (e : EngId) (i : Nat) (s : State) : State :=
  (s.modEng e fun x => { x with slots := dropAt i x.slots }).modChorus fun c => { c with
    engs := c.engs.map fun x => match x.work with
      | some (f, j) => if f = e ∧ i < j then { x with work := some (f, j - 1) } else x
      | none => x }

/-- After a recovery step an engine goes on with its own captures while its budget lasts, else it is free and granted on
(R270). -/
def State.afterStep (e : EngId) (s : State) : State :=
  let s := s.modEng e fun x => { x with work := none }
  match (s.eng e).recAt, (s.eng e).gateDue, s.oldestOwn e with
  | some t, false, some w =>
    if s.now < t + s.chorus.params.recoveryBudget * Config.us then s.modEng e fun y => { y with work := some w }
    else (s.modEng e fun y => { y with st := .free, recAt := none }).grant
  | _, _, _ => (s.modEng e fun y => { y with st := .free, recAt := none }).grant

/-- A sector that every enabled step has failed: it is read again at an offset, in its class, or is unrecovered (R271,
R272). -/
def State.captureFailed (e : EngId) (i : Nat) (k : Capture) (s : State) : State :=
  let s := s.freeCapture e i
  if k.reread < s.chorus.params.rereadMax then
    let d : Descriptor := { write := false, head := k.head, track := k.track, zone := k.zone
                            first := k.sector, count := 1, cls := k.cls, ctx := k.ctx, data := [], reread := k.reread + 1 }
    (s.modSeq k.act fun q => { q with queue := q.queue ++ [d] }).noteRequest k.act
  else
    let s := (s.raiseEng e 2).modEng e fun x => { x with unrecovered := satAdd 65535 x.unrecovered 1 }
    let s := match s.sectorOf k.location with
      | some x => s.sectorFails k.ctx x
      | none => s
    s.deliver (k.decoded false s.now)

/-- RECOVERY_STEP: the step that an engine runs on a captured sector ends (R270 to R272). -/
def execRecoveryStep (e : EngId) (converged : Bool) (s : State) : Host.Outcome State Fault Refusal :=
  .next <|
    match (s.eng e).st, (s.eng e).work with
    | .recovery, some (f, i) =>
      match (s.eng f).slots[i]? with
      | none => s.afterStep e
      | some k =>
        let s :=
          if converged then
            let s := ((s.freeCapture f i).raiseEng f 1).modEng f fun x => { x with recovered := satAdd 65535 x.recovered 1 }
            s.deliver (k.decoded true s.now)
          else match s.chorus.params.nextStep k.step with
            | some n => s.modEng f fun x => { x with slots := x.slots.zipIdx.map fun q => if q.2 = i then { q.1 with step := n } else q.1 }
            | none => s.captureFailed f i k
        s.afterStep e
    | _, _ => s

/-- RECOVERY_BUDGET_EXPIRY: the engine becomes free when its current step ends (R270). -/
def execRecoveryBudgetExpiry (e : EngId) (s : State) : Host.Outcome State Fault Refusal :=
  .next <|
    match (s.eng e).st, (s.eng e).recAt with
    | .recovery, some t => (s.at_ (t + s.chorus.params.recoveryBudget * Config.us)).modEng e fun x => { x with recAt := none }
    | _, _ => s

/-- The sectors of a read that staging holds. -/
def State.stalled (s : State) (c : Nat) : List Decoded := s.chorus.staging.filter fun d => d.ctx == some c && d.ok && !d.spilled

/-- READ_SPILL: the staged sectors of a read whose transfer has stalled for more than 64 µs are moved to DRAM (spec/01 R24). -/
def execReadSpill (c : Nat) (s : State) : Host.Outcome State Fault Refusal :=
  .next <|
    if s.stalled c ≠ [] then
      ((s.at_ ((s.stalled c).foldl (fun t d => min t d.at_) s.now + 64 * Config.us)).modChorus fun k =>
        { k with staging := mapWhere (fun d => d.ctx == some c) (fun d => { d with spilled := true }) k.staging }).modCtx
        c fun x => { x with spilled := true }
    else s

/-! ## Engines out of and into service -/

/-- The session on an engine ends at once: the operation's remaining sectors wait for a new binding, with the request's time
(R279, spec/06 Table 6-10); a break's read pass is taken again (spec/08 Table 8-6). -/
def State.cutSession (e : EngId) (st : EngSt) (s : State) : State :=
  let x := s.eng e
  let a := x.act
  let s :=
    if x.st = .reading then
      let q := s.seq a
      let s := (s.cancelGates a true false).seqToIdle a false
      match (s.acal a).brk, q.op with
      | some _, _ => s.modAcal a fun x => { x with brk := x.brk.map fun b => { b with begun := false } }
      | none, some d =>
        let left := ((List.range d.count).map (d.first + ·)).filter fun n => !q.done.contains n
        match left.head?, left.getLast? with
        | some lo, some hi => s.modSeq a fun r => { r with queue := { d with first := lo, count := hi + 1 - lo } :: r.queue }
        | _, _ => s
      | none, none => s
    else s
  (s.modEng e fun y => { y with st := st, recAt := none, work := none }).when (x.st == .bound || x.st == .reading) (State.waitAgain a)

/-- Engines in service: N of R269. -/
def EngSt.serves : EngSt → Bool
  | .free | .bound | .reading | .recovery => true
  | .offline | .selfTest | .gated | .faulted => false

def State.enginesServing (s : State) : Nat := ((fins 24).filter fun e => (s.eng e).st.serves).length

/-- An engine is gated, and keeps an offline mark (R39). -/
def State.gate (e : EngId) (s : State) : State :=
  let x := s.eng e
  let s := s.when x.st.serves (State.raisePool 0)
  (s.modEng e fun y => { y with st := .gated, mark := x.st == .offline || x.st == .faulted, gateDue := false, recAt := none, work := none }).modChorus
    fun c => { c with gatedOrder := e :: c.gatedOrder.filter fun f => f != e }

/-- An engine leaves the gated state: to offline with its mark, else to its self-test (R39, R282). -/
def State.ungate (e : EngId) (s : State) : State :=
  (s.modEng e fun x => { x with st := if x.mark then .offline else .selfTest, mark := false }).modChorus
    fun c => { c with gatedOrder := c.gatedOrder.filter fun f => f != e }

/-- One engine more gated: offline ones first, then the highest-numbered in service; one that holds a session when it ends. -/
def State.gateOne (s : State) : State :=
  let up := (fins 24).reverse.filter fun e => (s.eng e).st != .gated && !(s.eng e).gateDue
  match (up.find? fun e => (s.eng e).st == .offline || (s.eng e).st == .faulted).or up.head? with
  | none => s
  | some e =>
    if (s.eng e).st = .bound ∨ (s.eng e).st = .reading then s.modEng e fun x => { x with gateDue := true } else s.gate e

/-- One engine fewer gated, in the reverse order of gating. -/
def State.ungateOne (s : State) : State :=
  match (fins 24).find? fun e => (s.eng e).gateDue with
  | some e => s.modEng e fun x => { x with gateDue := false }
  | none => match s.chorus.gatedOrder with
    | e :: _ => s.ungate e
    | [] => s

/-- The engines enabled follow the limits in force (R39, R548); then the free ones are granted. -/
def State.limitEngines (s : State) : State :=
  let n := s.enabledEngines
  let up := ((fins 24).filter fun e => (s.eng e).st != .gated && !(s.eng e).gateDue).length
  let s := s.each (List.range (up - n)) fun _ s => s.gateOne
  let s := s.each (List.range (n - up)) fun _ s => s.ungateOne
  s.grant

/-- ENGINE_GATED: an engine that held a session is gated when it ends (R39). -/
def execEngineGated (e : EngId) (s : State) : Host.Outcome State Fault Refusal :=
  .next <|
    let x := s.eng e
    if x.gateDue ∧ x.st ≠ .bound ∧ x.st ≠ .reading then s.gate e else s

/-- An engine faults (R281): its session ends, the event is set and the self-test runs. -/
def State.engineFaults (e : EngId) (s : State) : State :=
  let x := s.eng e
  if x.st.serves then
    let again := match x.faultAt with
      | some t => decide (s.now ≤ t + 60 * Config.sec)
      | none => false
    let s := (s.cutSession e .selfTest).modEng e fun y => { y with faultAt := some s.now, refault := again }
    ((s.raiseEng e 4).raisePool 0).grant
  else s

/-- ENGINE_FAULT. -/
def execEngineFault (e : EngId) (s : State) : Host.Outcome State Fault Refusal := .next <| s.engineFaults e

/-- A self-test has ended: an engine that passed enters service and can be granted; one that failed, or that has faulted twice
within 60 s, stays faulted (R280 to R282). -/
def State.selfTestEnd (e : EngId) (pass : Bool) (s : State) : State :=
  if pass then
    if (s.eng e).refault then s.modEng e fun x => { x with st := .faulted, refault := false }
    else ((s.modEng e fun x => { x with st := .free }).raisePool 0).limitEngines
  else (s.modEng e fun x => { x with st := .faulted, refault := false }).raiseEng e 5

/-- ENGINE_SELF_TEST_DONE (R280, R281). -/
def execEngineSelfTestDone (e : EngId) (pass : Bool) (s : State) : Host.Outcome State Fault Refusal :=
  .next <| if (s.eng e).st = .selfTest then s.selfTestEnd e pass else s

end Sys2Proof.Machine
end

