-- ==== Sys2Proof/Machine/NsOps.lean ====
section
/-! DEFINITION. Namespaces as shared operations: allocation of groups, removal, capacity (spec/09 R331, R342; spec/10 R371 to
R375, R404). -/

namespace Sys2Proof.Machine

/-! ## Groups (spec/09 R331) -/

/-- The members present, in ascending port order. -/
def State.presentMembers (s : State) : List PortId := (fins 32).filter fun p => (s.member p).st == .member

/-- W consecutive slots from k are free on a member. -/
def Member.extentFree (m : Member) (k w : Nat) : Bool :=
  decide (k + w ≤ m.poolSlots) && m.slotsUsed.all fun q => decide (k + w ≤ q.1) || decide (q.1 + q.2 ≤ k)

/-- First fit: the lowest first slot whose extent is free on every listed member; an extent starts at 0 or where one in use
ends. -/
def State.firstSlot? (s : State) (ms : List PortId) (w : Nat) : Option Nat :=
  (((0 :: ms.flatMap fun p => (s.member p).slotsUsed.map fun q => q.1 + q.2).filter fun k =>
    ms.all fun p => (s.member p).extentFree k w).foldl (fun (b : Option Nat) k => some (match b with
      | some x => min x k
      | none => k)) none)

/-- The lowest group number not in use. -/
def State.freeGroup (s : State) : Nat :=
  ((List.range (s.prot.groups.length + 1)).find? fun n => s.prot.groups.all fun g => g.number != n).getD s.prot.groups.length

/-- A record of the group table goes to the peer (spec/18 Table 18-3). -/
def State.groupRec (g : Group) (ns : Nat) (s : State) : State :=
  s.when s.mirrors (State.sendKept 0x04 [2, g.number, g.width, g.firstSlot, ns] [] ns 0 0 none)

/-- One group is allocated to a namespace; none when there is no room. -/
def State.allocGroup (ns : Nat) (narrow : Bool) (s : State) : Option (State × Nat) :=
  let ms := s.presentMembers
  let w := if narrow then 10 else 19
  if ms.length < w then none
  else match s.firstSlot? ms w with
    | none => none
    | some k =>
      let g : Group := { number := s.freeGroup, narrow := narrow, members := ms, firstSlot := k, ns := ns }
      let s := s.each ms fun p s => s.modMember p fun m => { m with slotsUsed := (k, w) :: m.slotsUsed }
      some (((s.modProt fun p => { p with groups := p.groups ++ [g] }).recordGroups).groupRec g ns, g.number)

/-- Groups are allocated in order: whole or not at all. -/
def State.allocGroups (ns : Nat) (narrow : Bool) : Nat → State → Option (State × List Nat)
  | 0, s => some (s, [])
  | n + 1, s => match s.allocGroup ns narrow with
    | none => none
    | some (t, g) => (State.allocGroups ns narrow n t).map fun q => (q.1, g :: q.2)

/-- A group is freed: its chunks, its exceptions' places and its slots. -/
def State.freeGroupOf (g : Group) (s : State) : State :=
  let s := s.each (List.range g.h) fun i s => s.endWorks g i
  let s := s.each (s.prot.excs.filter fun e => e.group == g.number) fun e s => s.modMember e.place.port (Member.release e.place)
  let places := (List.range g.h).flatMap fun i => (List.range g.width).map fun j => s.placeOf g i j
  let s := s.modProt fun p => { p with
    groups := p.groups.filter fun x => x.number != g.number
    excs := p.excs.filter fun e => e.group != g.number
    touched := p.touched.filter fun t => t.1 != g.number
    sectors := p.sectors.filter fun x => !places.contains x.place
    bad := p.bad.filter fun x => !places.contains x.1, marked := p.marked.filter fun x => !places.contains x }
  let s := s.each g.members fun p s => s.modMember p fun m => { m with
    slotsUsed := m.slotsUsed.filter fun q => q != (g.firstSlot, g.width) }
  (s.recordGroups.recordExceptions.groupRec g 0).rebuildEnd

/-! ## Removal of a namespace (spec/10 R375; spec/09 Table 9-8) -/

/-- A namespace as the group table holds it goes to the peer; size 0 when it is removed (spec/18 Table 18-3). -/
def State.nsRec (n : Ns) (size : Nat) (s : State) : State :=
  s.when s.mirrors (State.sendKept 0x04 ([6, n.nsid, size, bit n.zoned, bit n.narrow, bit n.ana2] ++ n.groups) [] n.nsid 0 0 none)

/-- Dirty data and media-cache rows are discarded, the map goes, the groups are freed. -/
def State.dropNs (ns : Nat) (s : State) : State :=
  let gs := s.prot.groups.filter fun g => g.ns == ns
  let s := s.each gs State.freeGroupOf
  let s := s.modProt fun p => { p with mcRows := p.mcRows.filter fun r => r.ns != ns || r.isDump }
  s.modNames fun n => { n with
    nss := n.nss.filter fun x => x.nsid != ns
    zones := n.zones.filter fun z => z.ns != ns
    map := n.map.filter fun m => m.ns != ns
    mapMedia := n.mapMedia.filter fun m => m.ns != ns
    journal := n.journal.filter fun m => m.ns != ns
    pagesIn := n.pagesIn.filter fun q => q.1 != ns
    pagesDirty := n.pagesDirty.filter fun q => q.1 != ns
    dirsDirty := n.dirsDirty.filter fun q => q.1 != ns
    mapDir := n.mapDir.filter fun q => q.1 != ns
    roots := n.roots.filter fun q => q.1 != ns
    dirsOut := n.dirsOut.filter (· != ns)
    toFind := n.toFind.filter fun q => q.1 != ns
    buffer := n.buffer.filter fun d => d.ns != ns
    flights := n.flights.filter fun f => f.ns != ns
    finishing := n.finishing.filter fun f => f.1 != ns
    lost := n.lost.filter fun q => q.1 != ns }

/-- The same, with its record sent to the peer. -/
def State.removeNs (ns : Nat) (s : State) : State :=
  match s.ns? ns with
  | some n => (s.dropNs ns).nsRec n 0
  | none => s.dropNs ns

/-- What waits is a Namespace Management delete. -/
def Wait.isDelete : Wait → Bool
  | .nsDelete _ => true
  | _ => false

/-- Commands of a namespace that have been admitted and have not completed; the delete itself does not count. -/
def State.nsBusy (s : State) (ns : Nat) : Bool :=
  s.ctxs.any fun x => x.ns == ns && x.stage != .fetched && x.stage != .decided && !x.wait.isDelete

/-- A Namespace Management delete whose namespaces no admitted command names any more is carried out (R375). -/
def State.settleDeletes (s : State) : State :=
  s.each (s.ctxs.filter fun x => x.stage == .waiting) fun x s =>
    match x.wait with
    | .nsDelete ns =>
      let all := if ns = 0xFFFFFFFF then (s.names.nss.filter fun n => n.deleting).map Ns.nsid else [ns]
      if all.any s.nsBusy then s else (s.each all State.removeNs).noteDirty.complete x.id Cpl.ok
    | _ => s

/-! ## Capacity (spec/10 R404; spec/09 R342) -/

/-- Bytes of a namespace. -/
def Ns.capacity (n : Ns) : Nat := n.nsze * 4096

/-- Free pool slots of a member. -/
def Member.freeSlots (m : Member) : Nat := m.poolSlots - (m.slotsUsed.map Prod.snd).sum

/-- S of R342: the fewest free pool slots of a present member; 0 with none present. -/
def State.minFree (s : State) : Nat := match s.presentMembers with
  | [] => 0
  | p :: r => r.foldl (fun k q => min k (s.member q).freeSlots) (s.member p).freeSlots

/-- UNVMCAP and TNVMCAP (R404). -/
def State.unvmcap (s : State) : Nat := s.minFree / 19 * s.presentMembers.length * 2 ^ 30
def State.tnvmcap (s : State) : Nat := (s.names.nss.map Ns.capacity).sum + s.unvmcap

end Sys2Proof.Machine
end

