-- ==== Sys2Proof/Machine/Power.lean ====
section
/-! DEFINITION. Family Power: the governing power state, PS3 and its entry and exit, and what a clean write buffer lets end
(spec/01 R38 to R43; spec/11 R416, R445). -/

namespace Sys2Proof.Machine

/-! ## Limits in force -/

/-- A function counts as selecting PS3 while its port is disabled or in reset (spec/11 R445). -/
def State.psOf (s : State) (f : Fn) : Fin 4 := if s.perstOf f then 3 else (s.fn f).ps

/-- The power state that governs: the lower-numbered selection (spec/11 R445). -/
def State.govPs (s : State) : Fin 4 := min (s.psOf .a) (s.psOf .b)

/-! ## PS3 -/

/-- Running operations are suspended at their next checkpoint (R43; spec/12 R477). -/
def LongOp.ps3Suspend (o : LongOp) : LongOp :=
  if o.st = .running ∧ o.suspendAsked = false then { o with suspendAsked := true, byPs3 := true } else o

/-- On exit they return to their earlier states (spec/12 R477). -/
def LongOp.ps3Resume (o : LongOp) : LongOp :=
  if o.byPs3 then { o with st := if o.st = .suspended then .running else o.st, suspendAsked := false, byPs3 := false } else o

def State.modOps (f : LongOp → LongOp) (s : State) : State := s.modCfg fun c => { c with ops := c.ops.map f }

/-- On exit from PS3, or an entry given up: what it suspended runs again, the rebuild too (spec/12 R477; spec/09 R365). -/
def State.ps3Over (s : State) : State :=
  let t := s.modOps LongOp.ps3Resume
  t.when (s.rebuild?.any fun o => o.byPs3 && o.st == .suspended) (State.rebuildTo s.prot.rebuildPhase 1)

/-- A spindle is commanded down for PS3; the level it had is kept (spec/04 R156, R169). -/
def State.ps3SpinDown (p : PortId) (s : State) : State :=
  let v := s.spin p
  let s := s.modSpin p fun v => { v with levelPs3 := v.levelCmd, levelCmd := 0, wantSlot := false, thenStart := false }
  if v.stopping = true ∨ v.st = .startFailed ∨ v.st = .ovBrake ∨ (v.st = .stopped ∧ (v.turning = false ∨ (s.port p).obeyed = false)) then s
  else s.spinDown p

/-- The destage of R40 is over: pending calibration records are written, spindles are commanded down, the map cache is cleaned, mirrors
are released, no namespace is ready until its HDAs are back (spec/11 R446), and the limits of PS3 apply (R40, R42; spec/08 Table 8-6;
spec/13 Table 13-7). -/
def State.ps3Reached (s : State) : State :=
  let s := s.modPower fun w => { w with entering := false, inPs3 := true, current := 3 }
  let s := s.modNames fun n => { n with nss := n.nss.map fun x => { x with ready := false } }
  let s := s.each ((fins 32).filter fun p => (s.port p).inService) fun p s => s.modPort p fun x => { x with entered := false }
  let s := s.each (fins 64) fun a s => if (s.acal a).dirtyAt.isSome then s.writeCalRecord a else s
  let s := s.each (fins 32) fun p s => s.ps3SpinDown p
  let s := s.when s.mirrors fun s => s.each s.names.nss fun n s => s.sendWings 0x06 [n.nsid, 0, n.nsze] []
  (((s.modCache MapCache.clean).modMem fun m => { m with workAt := s.now }).limitEngines).noteServices

/-- A shutdown of a function ends: all its commands have ended (an outstanding Asynchronous Event Request has no end of its own;
DEDUCED, log 40), and for a normal one the buffer is clean (spec/11 R416). -/
def State.shutdownDone (f : Fn) (s : State) : State :=
  let x := s.fn f
  let idle := s.ctxs.all fun c => c.origin != .host f || c.wait == .asyncEvent
  if x.shutdown ≠ 0 ∧ idle = true ∧ (x.shutdown = 2 ∨ s.dirtyBytes = 0) then
    s.modFn f fun y => { y with shutdown := 0, shst := 2 }
  else s

/-- What the buffer's and the commands' state lets go on: namespace deletes, shutdowns, and entry to PS3 once it is clean. -/
def State.noteClean (s : State) : State :=
  let s := ((s.settleDeletes.noteDirty.shutdownDone .a).shutdownDone .b).retireWaiting
  if s.power.entering = true ∧ s.dirtyBytes = 0 then s.ps3Reached else s

/-- After the write buffer has changed: what can go on does. -/
def State.bufferChanged (s : State) : State := s.noteDirty.settleOrder.noteClean

/-! ## Commands -/

/-- PS3_ENTRY: breaks are abandoned, operations suspended at their next checkpoint, and the whole buffer is destaged before
the spindles are commanded down (R40, R43). -/
def execPs3Entry (s : State) : Host.Outcome State Fault Refusal :=
  .next <|
    if s.boot.complete = true ∧ s.govPs = 3 ∧ s.power.entering = false ∧ s.power.inPs3 = false then
      let s := (s.modPower fun w => { w with entering := true, leaving := false }).noteServices
      let s := s.modOps LongOp.ps3Suspend
      let s := s.each ((fins 64).filter fun a => (s.acal a).brk.isSome) (State.quiesce false)
      let s := s.each (fins 64) State.fullPoint
      s.noteClean
    else s

/-- PS3_SAMPLE_LANE_OFF: rotor at rest and both sides unloaded: the port's link domain and core half are held in joint reset,
its recovered clock stops with the receiver, and its train_state is 0xC; no port reset, no event (R42). -/
def execPs3SampleLaneOff (p : PortId) (s : State) : Host.Outcome State Fault Refusal :=
  .next <|
    let v := s.spin p
    if s.power.inPs3 = true ∧ (s.port p).train = 9 ∧ (v.st = .stopped ∨ v.st = .startFailed) ∧ v.turning = false
        ∧ (fins 2).all (fun sd => !(s.act (actOf p sd)).loaded) = true then
      s.modPort p fun x => { x with train := 0xC, joint := true, clock := false, blockLock := false, inService := false }
    else s

/-- PS3 is left: the limits of the governing state apply, DRAM leaves self-refresh, ports whose presence is asserted train
again from state 2, spindles take their levels again (R41, R42; spec/04 R156). -/
def State.leavePs3 (s : State) : State :=
  let s := s.modPower fun w => { w with entering := false, inPs3 := false, leaving := true, current := s.govPs }
  let s := s.modMem fun m => { m with selfRefresh := false, workAt := s.now }
  let s := s.ps3Over
  let s := s.each (fins 32) fun p s =>
    let s := s.setLevel p (s.spin p).levelPs3
    if (s.port p).train = 0xC ∧ s.pins.prsnt.getLsbD p.val = true then
      s.modPort p fun x => { x with train := 2, attempt := 1, stateAt := s.now, persVerified := false, pers := [], inService := false }
    else s
  s.limitEngines

/-- PS3_EXIT: the governing selection is operational again (R41, R42). -/
def execPs3Exit (s : State) : Host.Outcome State Fault Refusal :=
  .next <|
    if s.govPs = 3 then s
    else if s.power.inPs3 then s.leavePs3
    else if s.power.entering then
      (s.modPower fun w => { w with entering := false }).ps3Over
    else s

/-- DRAM_SELF_REFRESH_EXIT: in PS3, work has come (R42). -/
def execDramSelfRefreshExit (s : State) : Host.Outcome State Fault Refusal :=
  .next <|
    if s.power.inPs3 = true ∧ s.mem.selfRefresh = true then s.modMem fun m => { m with selfRefresh := false, workAt := s.now } else s

/-- Nothing needs DRAM: no command but an outstanding event request, and no service request (R42). -/
def State.dramIdle (s : State) : Bool := (s.ctxs.all fun c => c.wait == .asyncEvent) && s.svc.busy.isNone

/-- DRAM_SELF_REFRESH_ENTRY: in PS3, 1 ms without work (R42). -/
def execDramSelfRefreshEntry (s : State) : Host.Outcome State Fault Refusal :=
  .next <|
    if s.power.inPs3 = true ∧ s.mem.selfRefresh = false ∧ s.dramIdle = true then
      (s.at_ (max s.mem.workAt s.svc.endedAt + Config.ms)).modMem fun m => { m with selfRefresh := true }
    else s

/-- POWER_STATE_CHANGE: the limits follow the governing state, but for PS3, which PS3_ENTRY and PS3_EXIT bring about (R39,
R43). -/
def execPowerStateChange (s : State) : Host.Outcome State Fault Refusal :=
  .next <|
    if s.govPs = 3 ∨ s.power.inPs3 = true then s.limitEngines
    else (s.modPower fun w => { w with current := s.govPs }).limitEngines

end Sys2Proof.Machine
end

