-- ==== Sys2Proof/Machine/Destage.lean ====
section
/-! DEFINITION. Family Destage: rows to their chunks, media-cache rows, cleaning and reclamation, reads that need
reconstruction, and the power-fail dump with its restore (spec/01 R27 to R29; spec/09 R337 to R341, R731; spec/10 R384 to
R403; spec/08 R312). -/

namespace Sys2Proof.Machine

/-! ## Rows of a zone (R337) -/

/-- First LBA of a row of a zone. -/
def Ns.rowLba (x : Ns) (zone row : Nat) : Nat := zone * zoneBlocks x.narrow + row * rowBlocks x.narrow

/-- A write of a block has been accepted and has not applied. -/
def State.writeComing (s : State) (ns lba : Nat) : Bool :=
  s.ctxs.any fun y => y.unapplied && y.stage != .admitted && y.ns == ns && !isIoOp 0x79 y && overlaps y.ranges [(lba, 1)]

/-- The zone of a partial row is finished: the row is still to be destaged, or lies in the media cache until its stripe takes it (R337,
R731). -/
def State.rowFinished (s : State) (x : Ns) (zone row : Nat) : Bool :=
  s.names.finishing.contains (x.nsid, zone, row) ||
    ((s.zone x.nsid zone).st == .full && s.prot.mcRows.any fun r => r.ns == x.nsid && r.kind == .part zone row)

/-- A block of a row that is due: from the buffer, from a media-cache row of it, or, if no write of it is still to come, zero in a
finished zone and for a block of the lost-block list, whose reads fail whatever the row holds (DESIGN CHOICE, log 61). -/
def State.dueBlock (s : State) (x : Ns) (zone row lba : Nat) : Option Blk :=
  match s.dirty? x.nsid lba with
  | some d => some d.data
  | none => match s.partRow x.nsid zone row lba with
    | some (r, i) => s.mcBlock r i
    | none =>
      if (s.rowFinished x zone row || s.names.lost.contains (x.nsid, lba)) && !s.writeComing x.nsid lba then some 0
      else none

/-- The blocks of a row when all of them are there. -/
def State.dueRow (s : State) (x : Ns) (zone row : Nat) : Option (List Blk) :=
  let l := (List.range (rowBlocks x.narrow)).map fun i => s.dueBlock x zone row (x.rowLba zone row + i)
  if l.all Option.isSome then some (l.filterMap id) else none

/-- The next row of a zone to be destaged: its strips go to the chunks in ascending order (R323). -/
def State.nextRow (s : State) (ns zone : Nat) : Nat :=
  (s.zone ns zone).rows + (s.names.flights.filter fun f => f.ns == ns && f.zone == zone).length

/-- Parity strips of a row, one block for each offset (R335). -/
def rowParity (k m : Nat) (data : List Blk) : List Blk :=
  (List.range m).flatMap fun i => (List.range 64).map fun o =>
    parityBlk i ((List.range k).map fun j => data.getD (64 * j + o) 0)

/-- The block at an offset of chunk j of a row. -/
def rowStrip (k : Nat) (data parity : List Blk) (j o : Nat) : Blk :=
  if j < k then data.getD (64 * j + o) 0 else parity.getD (64 * (j - k) + o) 0

/-- A stripe takes rows: it is not lost (R731) and no work is in progress on it (R358). -/
def State.takesRows (s : State) (g : Group) (i : Nat) : Bool :=
  !s.stripeLost g i && !(s.prot.works.any fun w => w.group == g.number && w.stripe == i)

/-- A place can be written: its actuator is in no calibration break (spec/08 R311) and its head is neither under a write hold
(spec/08 R299) nor marked failed (spec/08 R309). -/
def State.canWriteAt (s : State) (a : ActId) (l : Option Location) : Bool :=
  (s.acal a).brk.isNone && match l with
    | some l => !s.held a l.head && !(s.acal a).heads[l.head].failed
    | none => true

/-- The physical sector n of a media request. -/
def SentMsg.sectorAt (m : SentMsg) (n : Nat) : Option Location :=
  match m.payload with
  | [_, a, _, _, head, track, zone, _, _] =>
    some { act := Fin.ofNat 64 a, head := Fin.ofNat 12 head, zone := Fin.ofNat 32 zone, track := track, sector := n }
  | _ => none

/-- A read request to the peer takes a sector of the 64 from a place on. -/
def SentMsg.readsStrip (l : Location) (m : SentMsg) : Bool := m.type == 0x08 && match m.payload with
  | [_, a, 0, _, head, track, _, first, count] =>
    a == l.act.val && head == l.head.val && track == l.track && decide (first < l.sector + 64) && decide (l.sector < first + count)
  | _ => false

/-- A strip on a port of the peer's can be asked for: every earlier read request for it has been answered (spec/18 R629). -/
def State.mayAskStrip (s : State) (l : Option Location) : Bool := match l with
  | some l => !s.pair.unanswered.any (SentMsg.readsStrip l)
  | none => true

/-- Every present chunk of a row, parity too, can be written; the peer sees to its own actuators (spec/01 R23, Table 1-2). -/
def State.rowWritable (s : State) (g : Group) (i row : Nat) : Bool := (List.range g.width).all fun j =>
  let pl := s.placeOf g i j
  let l := s.locateChunk pl (64 * row)
  s.chunkMissing g i j || (if s.peerOwns pl.port then s.mayAskStrip l else s.canWriteAt (s.actOfPlace pl) l)

/-- A strip on one of the peer's ports goes to it as a media request (spec/18 R626). -/
def State.askStrip (pl : Place) (row : Nat) (blocks : List Blk) (s : State) : State :=
  match s.peerOwns pl.port, s.locateChunk pl (64 * row) with
  | true, some l => s.askMedia l.act { write := true, head := l.head, track := l.track, zone := l.zone, first := l.sector, count := 64
                                       cls := 0, ctx := none, data := blocks } 0 0
  | _, _ => s

/-- The strips of a row that lie on the peer's ports go to it. -/
def State.askPeer (g : Group) (i row : Nat) (data parity : List Blk) (s : State) : State :=
  s.each (List.range g.width) fun j s => s.askStrip (s.placeOf g i j) row ((List.range 64).map fun o => rowStrip g.k data parity j o)

/-- A row is on media: its strips lie in the present chunks, and the missing ones are marked touched (R343, R345). -/
def State.writeRow (x : Ns) (g : Group) (i zone row : Nat) (data parity : List Blk) (s : State) : State :=
  let s := s.each (List.range g.width) fun j s =>
    let pl := s.placeOf g i j
    if s.chunkMissing g i j then s.modProt fun p => { p with
      touched := if p.touched.contains (g.number, i, j) then p.touched else p.touched ++ [(g.number, i, j)] }
    else s.each (List.range 64) fun o s => s.modProt (Prot.putSector pl (64 * row + o) (rowStrip g.k data parity j o))
  s.modZone x.nsid zone fun z => { z with rows := row + 1 }

/-! ## The open backing zone of a conventional namespace (R388 to R392) -/

/-- A backing zone that nothing refers to, in the map and the directory or in their durable copies; a directory page that cannot be
read may refer to any. -/
def State.unreferenced (s : State) (x : Ns) (zone : Nat) : Bool :=
  let zb := zoneBlocks x.narrow
  let hit (l : List MapEnt) : Bool := l.any fun m => m.ns == x.nsid && mapKind m.entry == 1 && mapPlace m.entry / zb == zone
  !hit s.names.map && !hit s.names.mapMedia && !(s.names.mapDir.any fun q => q.1 == x.nsid && q.2.2 / zb == zone) &&
    !((s.rootsOf x.nsid).any fun q => q.2 / zb == zone) && match s.readDir x with
      | some l => l.all fun q => q.2 / zb != zone
      | none => false

/-- The next place in the backing: the open zone, or the lowest free one. -/
def State.openZone (s : State) (x : Ns) : Option (Nat × Nat) :=
  let zb := zoneBlocks x.narrow
  let able (z : Nat) : Bool := match stripeOf (s.nsGroups x) z with
    | some (g, i) => s.takesRows g i
    | none => false
  let fresh := ((List.range (s.zonesOf x)).find? fun z => !(s.usedZones x.nsid).contains z && able z).map fun z => (z, 0)
  match x.backing with
  | some (z, n) => if n < zb ∧ able z = true then some (z, n) else fresh
  | none => fresh

def State.modNs (ns : Nat) (f : Ns → Ns) (s : State) : State :=
  s.modNames fun n => { n with nss := mapWhere (fun x => x.nsid == ns) f n.nss }

/-- The block of a map page: its 512 entries (R385). -/
def State.pageBlk (s : State) (ns page : Nat) : Blk :=
  BitVec.ofNat 32768 (ofLe ((List.range 512).flatMap fun i => leBytes 8 (s.mapEntry ns (512 * page + i)).toNat))

/-- The block of a directory page: the places of its 512 map pages, in the form of a map entry (DESIGN CHOICE, log 38). -/
def State.dirBlk (s : State) (ns d : Nat) : Blk :=
  BitVec.ofNat 32768 (ofLe ((List.range 512).flatMap fun i =>
    match s.names.mapDir.find? fun q => q.1 == ns && q.2.1 == 512 * d + i with
    | some q => leBytes 8 (mapWord 1 q.2.2).toNat
    | none => leBytes 8 0))

/-- The row of dirty map pages and directory pages of a namespace that is due next: of map pages those whose directory pages fit within E
(R388, R389, R394). -/
def State.mapRow (s : State) (x : Ns) (zone row : Nat) : RowFlight :=
  let rb := rowBlocks x.narrow
  let busy := s.names.flights.filter fun f => f.ns == x.nsid
  let due := (s.names.pagesDirty.filter fun q => q.1 == x.nsid && !(busy.any fun f => f.pages.contains q.2)).map Prod.snd
  let pages := (takeFitting s.names.dirsDirty.contains (fun k => (x.nsid, k / 512)) (s.room 0) [] due).take rb
  let dirs := ((s.names.dirsDirty.filter fun q => q.1 == x.nsid && !(busy.any fun f => f.dirs.contains q.2)).map Prod.snd).take
    (rb - pages.length)
  let blocks := pages.map (s.pageBlk x.nsid) ++ dirs.map (s.dirBlk x.nsid)
  { ns := x.nsid, zone := zone, row := row, data := blocks ++ List.replicate (rb - blocks.length) 0, parity := []
    pages := pages, dirs := dirs
    ents := s.names.map.filter fun m => m.ns == x.nsid && pages.contains (m.lba / 512)
    places := (s.names.mapDir.filter fun q => q.1 == x.nsid && dirs.contains (q.2.1 / 512)).map Prod.snd, moves := [] }

/-- A row sets out for its chunks: its parity is computed, and the peer is asked to write the strips on its ports (R29; spec/18 R626). -/
def State.launch (g : Group) (i : Nat) (f : RowFlight) (s : State) : State :=
  let parity := rowParity g.k g.m f.data
  (s.modNames fun n => { n with flights := n.flights ++ [{ f with parity := parity }] }).askPeer g i f.row f.data parity

/-- A row of a backing zone sets out, and the open backing zone goes on after it (R388, R390). -/
def State.launchBacking (x : Ns) (g : Group) (i n : Nat) (f : RowFlight) (s : State) : State :=
  (s.launch g i f).modNs x.nsid fun y => { y with backing := some (f.zone, n + rowBlocks x.narrow) }

/-- DESTAGE_ROW: a complete or finished row is read from the buffer and its parity computed on the way to the encoders (R29, R337),
once a writing actuator may start and every actuator of the row can write (spec/01 R23, R30, R34); of a conventional namespace, a row
of dirty map pages and directory pages (R388, R389). -/
def execDestageRow (ns zone row : Nat) (s : State) : Host.Outcome State Fault Refusal :=
  .next <|
    match s.ns? ns with
    | none => s
    | some x =>
      match stripeOf (s.nsGroups x) zone with
      | none => s
      | some (g, i) =>
        if s.names.dumping = true ∨ s.takesRows g i = false ∨ s.mayWrite = false ∨ s.rowWritable g i row = false then s
        else if x.zoned then
          match s.dueRow x zone row with
          | some data =>
            if row = s.nextRow ns zone then
              s.launch g i { ns := ns, zone := zone, row := row, data := data, parity := [], pages := [], dirs := [], ents := [], places := []
                             moves := [] }
            else s
          | none => s
        else match s.openZone x with
          | some (z, n) =>
            let f := s.mapRow x zone row
            if z = zone ∧ n = row * rowBlocks x.narrow ∧ s.names.dirsOut.contains ns = false ∧ ¬ (f.pages = [] ∧ f.dirs = []) then
              s.launchBacking x g i n f
            else s
          | none => s

/-- A row of map pages is on media: its pages are durable, their journal records go, the directory follows, in a pair mirrored too (R388,
R389; spec/13 R501). -/
def State.mapRowDone (x : Ns) (f : RowFlight) (s : State) : State :=
  let base := f.zone * zoneBlocks x.narrow + f.row * rowBlocks x.narrow
  let same (p : Nat) : Bool := (s.names.map.filter fun m => m.ns == x.nsid && m.lba / 512 == p) == f.ents.filter fun m => m.lba / 512 == p
  let done := f.pages.filter same
  let place (l : List Nat) (at_ : Nat) : List (Nat × Nat × Nat) := l.zipIdx.map fun q => (x.nsid, q.1, at_ + q.2)
  let s := s.modNames fun n => { n with
    mapMedia := n.mapMedia.filter (fun m => !(m.ns == x.nsid && f.pages.contains (m.lba / 512))) ++ f.ents
    journal := n.journal.filter fun m => !(m.ns == x.nsid && done.contains (m.lba / 512))
    pagesDirty := n.pagesDirty.filter fun q => !(q.1 == x.nsid && done.contains q.2)
    roots := n.roots.filter (fun q => !(q.1 == x.nsid && f.dirs.contains q.2.1)) ++ place f.dirs (base + f.pages.length)
    mapDir := n.mapDir.filter (fun q => !(q.1 == x.nsid && f.pages.contains q.2.1)) ++ place f.pages base }
  let now (d : Nat) : List (Nat × Nat) :=
    (s.names.mapDir.filter fun q => q.1 == x.nsid && q.2.1 / 512 == d).map Prod.snd
  let clean := f.dirs.filter fun d => now d == f.places.filter fun q => q.1 / 512 == d
  let s := s.modNames fun n =>
    let left := n.dirsDirty.filter fun q => !(q.1 == x.nsid && clean.contains q.2)
    { n with dirsDirty := left ++ ((f.pages.map (· / 512)).eraseDups.map fun d => (x.nsid, d)).filter fun q => !left.contains q }
  s.when s.mirrors fun s => s.each f.pages.zipIdx fun q s => s.sendKept 0x04 [8, x.nsid, q.1, base + q.2] [] x.nsid 0 0 none

/-- Media-cache rows of data that no entry points to, in the map or its durable copy, are freed (R390, R405). -/
def State.freeRows (s : State) : State :=
  let live (r : McRow) : Bool := (s.names.map ++ s.names.mapMedia).any fun m =>
    m.ns == r.ns && mapKind m.entry == 2 && mapPlace m.entry / 512 == r.id
  s.modProt fun p => { p with mcRows := p.mcRows.filter fun r => r.kind != .pack || live r }

/-- A row of moved blocks is on media: each entry that still points to the place it was read from names the new one, and what nothing
points to any more is freed (R390, R392, Table 10-8). -/
def State.moveDone (x : Ns) (f : RowFlight) (s : State) : State :=
  let base := f.zone * zoneBlocks x.narrow + f.row * rowBlocks x.narrow
  (s.each f.moves.zipIdx fun q s =>
    s.when (s.mapEntry x.nsid q.1.1 == q.1.2) (State.setMap x.nsid q.1.1 (mapWord 1 (base + q.2)))).freeRows

/-- ROW_WRITE_DONE: every chunk of a row is on media: its buffer space, its media-cache copies and the peer's mirror are
freed, and what waited for it goes on (R27, R337, R345; spec/18 R642). It cannot be while an actuator of the row may not write
(spec/01 R23). A row of a stripe that has been lost stays dirty
(R731). -/
def execRowWriteDone (ns zone row : Nat) (s : State) : Host.Outcome State Fault Refusal :=
  .next <|
    match s.ns? ns, s.names.flights.find? fun f => f.ns == ns && f.zone == zone && f.row == row with
    | some x, some f =>
      match stripeOf (s.nsGroups x) zone with
      | none => s
      | some (g, i) =>
        if row ≠ (s.zone ns zone).rows ∨ s.rowWritable g i row = false then s
        else if s.stripeLost g i then s.modNames Names.dropFlights
        else
          let s := s.writeRow x g i zone row f.data f.parity
          let s := s.modNames fun n => { n with flights := n.flights.filter fun y => !(y.ns == ns && y.zone == zone && y.row == row) }
          if x.zoned then
            let lo := x.rowLba zone row
            let hi := lo + rowBlocks x.narrow
            let s := s.modNames fun n => { n with
              buffer := n.buffer.filter fun d => !(d.ns == ns && decide (lo ≤ d.lba) && decide (d.lba < hi))
              finishing := n.finishing.filter fun q => q != (ns, zone, row) }
            let s := s.modProt fun p => { p with mcRows := p.mcRows.filter fun r => !(r.ns == ns && r.kind == .part zone row) }
            let s := s.when s.mirrors (State.sendWings 0x06 [ns, lo, rowBlocks x.narrow] [])
            s.bufferChanged
          else if f.moves = [] then (s.mapRowDone x f).bufferChanged
          else (s.moveDone x f).bufferChanged
    | _, _ => s

/-! ## Media-cache rows (R339 to R341) -/

/-- Strips that media-cache rows hold on an actuator, and its next ring position. -/
def State.mcHeld (s : State) (a : ActId) : List Nat :=
  s.prot.mcRows.flatMap fun r => (r.strips.filter fun q => q.1 == a).map Prod.snd

def State.mcNext (s : State) (a : ActId) : Nat := match s.prot.mcPos.find? fun q => q.1 == a with
  | some q => q.2
  | none => 0

/-- Half-bands of an actuator's ring that hold no strip and are not being written. -/
def State.freeHalves (s : State) (a : ActId) : Nat :=
  let busy := ((s.mcHeld a).map (· / 256)).eraseDups
  let cur := s.mcNext a / 256
  64 - (if s.mcNext a % 256 ≠ 0 ∧ ¬ busy.contains cur then cur :: busy else busy).length

/-- Actuators whose rings count: those whose data are present. -/
def State.ringActs (s : State) : List ActId := (fins 64).filter fun a => s.actPresent a && (s.port (portOf a)).sides.contains (sideOf a)

def State.mcFree (s : State) : Nat := (s.ringActs.map s.freeHalves).sum
def State.mcTotal (s : State) : Nat := 64 * s.ringActs.length

/-- Half-bands kept for a dump at the configured limit (R341). -/
def State.dumpReserve (s : State) : Nat := ceilDiv (s.names.dirtyLimitMib * 10) (8 * 64)

/-- Where the next strip of an actuator's media-cache ring lies (R325, R339). -/
def State.mcLocation (s : State) (a : ActId) : Option Location :=
  let n := s.mcNext a
  s.locate (portOf a) (sideOf a) (8 + n / 512) (n / 256 % 2) (64 * (n % 256))

/-- An actuator can take the next strip: spinning, not failed, able to write, with free space; but for a dump one free half-band stays
on it (R340, R341; spec/01 R23). -/
def State.mcTakes (s : State) (dump : Bool) (a : ActId) : Bool :=
  s.spinning a && s.actPresent a && s.canWriteAt a (s.mcLocation a) &&
    (s.mcNext a % 256 != 0 || (!((s.mcHeld a).map (· / 256)).contains (s.mcNext a / 256) && decide ((if dump then 0 else 1) < s.freeHalves a)))

/-- The ten actuators that take the strips of a row, on ten distinct members: of a member the actuator with fewer strips, the
members with fewer strips first (DESIGN CHOICE, log 36). -/
def State.mcChoose (s : State) (dump : Bool) : Option (List ActId) :=
  let per := (fins 32).filterMap fun p =>
    let l := ((fins 2).map (actOf p)).filter (s.mcTakes dump)
    (sortBy (fun a => (s.mcHeld a).length) l).head?
  let l := (sortBy (fun a => (s.mcHeld a).length) per).take 10
  if l.length = 10 then some l else none

/-- A media-cache row of at most 512 blocks with its two parity strips (R340); but for a dump, none that would leave less than the
dump's reserve free (R341). -/
def State.putMcRow (ns : Nat) (kind : McKind) (blocks : List (Nat × Blk)) (s : State) : Option State :=
  let dump := kind == .dumpIndex || kind == .dumpData
  (s.mcChoose dump).bind fun acts =>
    let data := blocks.map Prod.snd ++ List.replicate (512 - blocks.length) 0
    let r : McRow := { id := s.prot.nextMc, ns := ns, kind := kind, blocks := blocks, parity := rowParity 8 2 data
                       strips := acts.map fun a => (a, s.mcNext a) }
    let t := s.modProt fun p => { p with
      mcRows := p.mcRows ++ [r], nextMc := p.nextMc + 1
      mcPos := acts.foldl (fun l a => put a ((s.mcNext a + 1) % 16384) l) p.mcPos }
    if dump = false ∧ t.mcFree < s.dumpReserve then none else some t

/-- Blocks are on media: they leave the buffer, or stay in it no longer dirty; the peer's mirror of them goes (spec/18 R642). -/
def State.onMedia (ns : Nat) (stay : Bool) (l : List Dirty) (s : State) : State :=
  let mark (d : Dirty) : Dirty := if l.contains d then { d with stored := true } else d
  let s := s.modNames fun n => { n with buffer := if stay then n.buffer.map mark else n.buffer.filter fun d => !l.contains d }
  s.when s.mirrors fun s => s.each l fun d s => s.sendWings 0x06 [ns, d.lba, 1] []

/-- A Flush or a write with Force Unit Access waits for blocks of a range (R337, first case). -/
def State.durableAsked (s : State) (ns lo count : Nat) : Bool :=
  s.ctxs.any fun c => c.stage == .waiting && match c.wait with
    | .media l => l.any fun q => q.1 == ns && decide (lo ≤ q.2.1) && decide (q.2.1 < lo + count)
    | _ => false

/-- The buffer must be freed: a write waits for space or the dirty data is above E (R394, R395), or all of it is to go because it was
kept over a reset, or PS3, a normal shutdown or a command waits for a clean buffer (DEDUCED, log 115). -/
def State.freesBuffer (s : State) : Bool :=
  s.ctxs.any (fun c => c.stage == .awaitSpace || c.stage == .waiting && c.wait == .clean) || decide (s.limitE < s.dirtyBytes) ||
    s.names.firstDue != [] || s.power.entering || (s.fn .a).shutdown == 1 || (s.fn .b).shutdown == 1

/-- The buffer must be freed, and its oldest dirty data lies in a range (R337, second case; R394). -/
def State.spaceIn (s : State) (ns lo count : Nat) : Bool :=
  s.freesBuffer && s.names.unstored.head?.any fun d => d.ns == ns && decide (lo ≤ d.lba) && decide (d.lba < lo + count)

/-- MEDIA_CACHE_ROW_WRITE: dirty blocks of a partial row of a zone that is to be durable, or to free its space, or of a due row of a lost
stripe, at most 512, become a media-cache row; they leave the buffer but in the first case (R337, R340, R731). Of a conventional
namespace the oldest dirty blocks, whose entries then name the row (R387). Free space never falls below the reserve (R341, R391). -/
def execMediaCacheRowWrite (ns zone row : Nat) (s : State) : Host.Outcome State Fault Refusal :=
  .next <|
    match s.ns? ns with
    | none => s
    | some x =>
      if s.names.dumping = true ∨ s.mayWrite = false then s
      else if x.zoned then
        let lo := x.rowLba zone row
        let rb := rowBlocks x.narrow
        let l := (s.names.unstored.filter fun d => d.ns == ns && decide (lo ≤ d.lba) && decide (d.lba < lo + rb)).take 512
        let lost := (s.dueRow x zone row).isSome && (stripeOf (s.nsGroups x) zone).any fun q => s.stripeLost q.1 q.2
        let leaves := lost || (s.dueRow x zone row).isNone && s.spaceIn ns lo rb
        let stays := (s.dueRow x zone row).isNone && s.durableAsked ns lo rb
        if l = [] ∨ (leaves || stays) = false ∨ s.names.flights.any (fun f => f.ns == ns && f.zone == zone && f.row == row) = true then s
        else match s.putMcRow ns (.part zone row) (l.map fun d => (d.lba, d.data)) with
          | some t =>
            let t := t.onMedia ns (!leaves) l
            let left := t.names.unstored.any fun d => d.ns == ns && decide (lo ≤ d.lba) && decide (d.lba < lo + rb)
            (t.when (lost && !left) (State.modNames fun n => { n with finishing := n.finishing.filter fun q => q != (ns, zone, row) })).bufferChanged
          | none => s
      else
        let l := (s.names.unstored.filter fun d => d.ns == ns).take 512
        if l = [] then s
        else match s.putMcRow ns .pack (l.map fun d => (d.lba, d.data)) with
          | some t =>
            let t := t.each l.zipIdx fun q t => t.setMap ns q.1.lba (mapWord 2 (s.prot.nextMc * 512 + q.2))
            (t.onMedia ns false l).bufferChanged
          | none => s

/-! ## Cleaning and reclamation (R390 to R392) -/

/-- A block is being moved. -/
def State.moving (s : State) (ns lba : Nat) : Bool := s.names.flights.any fun f => f.ns == ns && f.moves.any fun q => q.1 == lba

/-- One row of moved blocks (LBA, entry and data), padded with zeros to a whole row (DESIGN CHOICE, log 37), sets out for the next
places of the open backing zone, once a further actuator may write and those of the row can: the blocks whose map pages are dirty, or
still fit within E (R390, R394). -/
def State.moveRow (x : Ns) (l : List (Nat × W64 × Blk)) (s : State) : State :=
  match (s.ns? x.nsid).bind fun x => (s.openZone x).map fun q => (x, q) with
  | none => s
  | some (x, z, n) =>
    match stripeOf (s.nsGroups x) z with
    | none => s
    | some (g, i) =>
      let rb := rowBlocks x.narrow
      let row := n / rb
      let l := takeFitting s.names.pagesDirty.contains (fun q => (x.nsid, q.1 / 512)) (s.room 1) [] l
      if row ≠ s.nextRow x.nsid z ∨ s.mayWrite = false ∨ s.rowWritable g i row = false ∨ l = [] then s
      else s.launchBacking x g i n
        { ns := x.nsid, zone := z, row := row, data := (l.map fun q => q.2.2) ++ List.replicate (rb - l.length) 0, parity := []
          pages := [], dirs := [], ents := [], places := [], moves := l.map fun q => (q.1, q.2.1) }

/-- The blocks of one namespace are moved, row by row; fuel: their number. -/
def State.moveBlocks (x : Ns) : Nat → List (Nat × W64 × Blk) → State → State
  | 0, _, s => s
  | n + 1, l, s =>
    if l = [] then s
    else State.moveBlocks x n (l.drop (rowBlocks x.narrow)) (s.moveRow x (l.take (rowBlocks x.narrow)))

/-- The blocks of a row of data that entries still point to, that can be read and are not being moved. -/
def State.liveBlocks (s : State) (r : McRow) : List (Nat × W64 × Blk) :=
  r.blocks.zipIdx.filterMap fun q =>
    let e := mapWord 2 (r.id * 512 + q.2)
    if s.mapEntry r.ns q.1.1 = e ∧ s.moving r.ns q.1.1 = false then (s.mcBlock r q.2).map fun b => (q.1.1, e, b) else none

/-- The rows of the oldest half-band of the media cache that holds blocks to be moved. -/
def State.cleaningRows (s : State) : List McRow :=
  match (s.prot.mcRows.find? fun r => r.kind == .pack && !(s.liveBlocks r).isEmpty).bind fun r => r.strips.head? with
  | none => []
  | some q => s.prot.mcRows.filter fun r => r.kind == .pack && r.strips.any fun y => y.1 == q.1 && y.2 / 256 == q.2 / 256

/-- Cleaning runs: less than half of the media-cache space is free, and nothing is to be destaged before it (R391; spec/02 R61). -/
def State.cleans (s : State) : Bool := !s.names.dumping && !s.destageFirst && decide (2 * s.mcFree < s.mcTotal)

/-- CLEANING: the live blocks of the oldest half-band set out for backing zones, and rows that nothing points to are freed (R390,
R391). -/
def execCleaning (s : State) : Host.Outcome State Fault Refusal :=
  .next <|
    let s := s.when s.boot.restored State.freeRows
    if s.cleans = false then s
    else
      let rows := s.cleaningRows
      let s := s.each s.names.nss fun x s =>
        let l := (rows.filter fun r => r.ns == x.nsid).flatMap s.liveBlocks
        s.moveBlocks x l.length l
      s.bufferChanged

/-- Blocks of a backing zone that entries point to. -/
def State.zoneLive (s : State) (x : Ns) (zone : Nat) : List MapEnt :=
  s.names.map.filter fun m => m.ns == x.nsid && mapKind m.entry == 1 && mapPlace m.entry / zoneBlocks x.narrow == zone

/-- Those of them that can be read at their place and are not being moved. -/
def State.zoneMovable (s : State) (x : Ns) (zone : Nat) : List (Nat × W64 × Blk) :=
  let zb := zoneBlocks x.narrow
  (s.zoneLive x zone).filterMap fun m =>
    if s.moving x.nsid m.lba then none
    else (s.blockAt x zone (mapPlace m.entry % zb)).bind fun q => (s.mediaBlk s.prot.bad q.1 q.2.1 q.2.2.1 q.2.2.2).map fun b => (m.lba, m.entry, b)

/-- Clean map pages and directory pages that lie in a backing zone. -/
def State.mapPagesIn (s : State) (x : Ns) (zone : Nat) : List (Nat × Nat) :=
  (s.names.mapDir.filter fun q => q.1 == x.nsid && q.2.2 / zoneBlocks x.narrow == zone && !s.names.pagesDirty.contains (q.1, q.2.1)).map
    fun q => (q.1, q.2.1)
def State.dirPagesIn (s : State) (x : Ns) (zone : Nat) : List (Nat × Nat) :=
  (s.names.roots.filter fun q => q.1 == x.nsid && q.2.2 / zoneBlocks x.narrow == zone && !s.names.dirsDirty.contains (q.1, q.2.1)).map
    fun q => (q.1, q.2.1)

/-- They are to be written again elsewhere: they become dirty, as many as fit within E (R392, R388, R394). -/
def State.zonePages (x : Ns) (zone : Nat) (s : State) : State :=
  let room := s.room 1
  let pages := (s.mapPagesIn x zone).take room
  let dirs := (s.dirPagesIn x zone).take (room - pages.length)
  s.modNames fun n => { n with pagesDirty := n.pagesDirty ++ pages, dirsDirty := n.dirsDirty ++ dirs }

/-- The backing zones that reclamation may take: in use, not open and with no row under way, that it can do something about (R392). -/
def State.reclaimZones (s : State) (x : Ns) : List Nat :=
  (s.usedZones x.nsid).filter fun z => (match x.backing with
    | some (b, n) => b != z || n == zoneBlocks x.narrow
    | none => true) && !(s.names.flights.any fun f => f.ns == x.nsid && f.zone == z) &&
    (s.unreferenced x z || !(s.zoneMovable x z).isEmpty || !(s.mapPagesIn x z).isEmpty || !(s.dirPagesIn x z).isEmpty)

/-- The backing zone that reclamation takes: fewer than 16 are free, nothing is to be destaged before it, and it has the fewest
blocks still pointed to (R392; spec/02 R61). -/
def State.reclaims (s : State) (x : Ns) : Option Nat :=
  if x.zoned = true ∨ s.names.dumping = true ∨ s.destageFirst = true ∨ s.names.dirsOut.contains x.nsid = true ∨
      16 + (s.usedZones x.nsid).length ≤ s.zonesOf x then none
  else (sortBy (fun z => (s.zoneLive x z).length) (s.reclaimZones x)).head?

/-- RECLAMATION: the blocks of a zone set out for the open backing zone and its pages become dirty; once nothing points into it, in
the map or its durable copy, it is reset (R392, R405). -/
def execReclamation (ns : Nat) (s : State) : Host.Outcome State Fault Refusal :=
  .next <|
    match (s.ns? ns).bind fun x => (s.reclaims x).map fun z => (x, z) with
    | none => s
    | some (x, z) =>
      let l := s.zoneMovable x z
      let s := (s.moveBlocks x l.length l).zonePages x z
      let s := if s.unreferenced x z then s.resetZone x z else s
      s.bufferChanged

/-! ## Reads that need more -/

/-- The reads that wait for a block go on. -/
def State.wakeReads (ns : Nat) (want : Nat → Bool) (s : State) : State :=
  s.each ((s.ctxs.filter fun x => x.reading && x.ns == ns && (match x.wait with
    | .sectors l => l.any want
    | _ => false)).map Ctx.id) State.tryRead

/-- The reads that waited for a map page take its entries through the cache (R386). -/
def State.touchWaiting (x : Ns) (page : Nat) (s : State) : State :=
  s.each (s.ctxs.filter fun c => c.reading && c.ns == x.nsid) fun c s => match c.wait with
    | .sectors l => s.touchRead x (l.filter fun b => b / 512 == page)
    | _ => s

/-- MAP_PAGE_READ: a map page is read from its place on media into the map-page area (R386 step 4); reads that need a page
that cannot be had end with Unrecovered Read Error. -/
def execMapPageRead (ns page : Nat) (s : State) : Host.Outcome State Fault Refusal :=
  .next <|
    match s.ns? ns with
    | none => s
    | some x =>
      if s.pageAway ns (512 * page) = false then s
      else
        let zb := zoneBlocks x.narrow
        let found := match s.names.mapDir.find? fun q => q.1 == ns && q.2.1 == page with
          | some q => match s.blockAt x (q.2.2 / zb) (q.2.2 % zb) with
            | some (g, i, j, n) => (s.foundBlk s.prot.bad (.media g i j n)).isSome
            | none => true
          | none => true
        if found then ((s.pageIn ns page).touchWaiting x page).wakeReads ns fun b => b / 512 == page
        else s.each (s.ctxs.filter fun c => c.reading && c.ns == ns) fun c s => match c.wait with
          | .sectors l => match l.find? fun b => b / 512 == page with
            | some b => s.complete c.id (Cpl.unrecovered b)
            | none => s
          | _ => s

/-- A waiting read that still needs a block. -/
def State.needs (s : State) (c lba : Nat) : Option (Ctx × Ns) :=
  match s.ctx? c with
  | some x => match x.wait, s.ns? x.ns with
    | .sectors l, some n => if x.reading ∧ l.contains lba = true then some (x, n) else none
    | _, _ => none
  | none => none

/-- RECONSTRUCT_READ: a block in a missing strip, or in a sector that could not be read, is reconstructed from K other strips,
or the read ends with Unrecovered Read Error (R338, R343). A read waits while only calibration breaks keep the sources
from it. -/
def execReconstructRead (c lba : Nat) (s : State) : Host.Outcome State Fault Refusal :=
  .next <|
    match s.needs c lba with
    | none => s
    | some (x, n) =>
      let at_ := s.foundAt (s.findMapped n lba)
      let s := s.modChorus fun k => { k with staging := k.staging.filter fun d =>
        !(d.ctx == some x.id && !d.ok && at_ == some (Decoded.location s d)) }
      match s.find n lba with
      | .media g i j k =>
        let ok (t : Nat) : Bool := t != j && s.sectorOk x.failed g i t k
        if s.sectorOk x.failed g i j k then s
        else match s.reconstruct x.failed g i j k with
          | some v => s.giveBlock c lba v
          | none => if g.k ≤ ((List.range g.width).filter ok).length then s else s.complete c (Cpl.unrecovered lba)
      | .cache r idx =>
        if s.mcDirect r idx then s
        else match s.mcBlock r idx with
          | some v => s.giveBlock c lba v
          | none => s.complete c (Cpl.unrecovered lba)
      | _ => s

/-- CAL_RECONSTRUCT: with cal_reconstruct 1, a read that has waited 20 ms for an actuator in a break is served from the other
chunks, if no other actuator of the row is in a break (spec/08 R312). -/
def execCalReconstruct (c : Nat) (s : State) : Host.Outcome State Fault Refusal :=
  .next <|
    match s.ctx? c with
    | none => s
    | some x => match x.wait, s.ns? x.ns with
      | .sectors l, some n =>
        if s.cal.reconstruct = false ∨ x.reading = false then s
        else s.each l fun b s => match s.find n b with
          | .media g i j k =>
            match (s.acal (s.actOfPlace (s.placeOf g i j))).brk with
            | some br =>
              let others := ((List.range g.width).filter (· != j)).any fun t => (s.acal (s.actOfPlace (s.placeOf g i t))).brk.isSome
              match others, s.reconstruct x.failed g i j k with
              | false, some v => (s.at_ (max br.at_ x.waitAt + 20 * Config.ms)).giveBlock c b v
              | _, _ => s
            | none => s
          | _ => s
      | _, _ => s

/-! ## Write pointers and the effective limit -/

/-- How far blocks go on without a gap from a block. -/
def runFrom (l : List Nat) : Nat → Nat → Nat
  | 0, n => n
  | k + 1, n => if l.contains n then runFrom l k (n + 1) else n

/-- WRITE_POINTER_RECOVERY: at bring-up, once the HDAs have settled and what a dump held is back, the write pointer of a zone that was
open is found by reading forward from its record to the first strip not written, and stays above blocks restored or lost; the zone comes up
Closed (R384, R402). -/
def execWritePointerRecovery (ns zone : Nat) (s : State) : Host.Outcome State Fault Refusal :=
  .next <|
    match s.ns? ns with
    | none => s
    | some x =>
      let z := s.zone ns zone
      if s.names.toFind.contains (ns, zone) = false ∨ s.boot.restored = false ∨ (s.nsPorts ns).all s.portServed = false then s
      else
        let zb := zoneBlocks x.narrow
        let base := max z.recWp (z.rows * rowBlocks x.narrow)
        let parts := (s.prot.mcRows.filter fun r => r.ns == ns && (match r.kind with
          | .part q _ => q == zone
          | _ => false)).flatMap fun r => r.blocks.map fun q => q.1 % zb
        let over_ := (s.names.buffer.filter fun d => d.ns == ns && d.lba / zb == zone).map (fun d => d.lba % zb + 1) ++
          (s.names.lost.filter fun q => q.1 == ns && q.2 / zb == zone).map fun q => q.2 % zb + 1
        let wp := over_.foldl max (runFrom parts parts.length base)
        let s := s.modZone ns zone fun y => { y with wp := wp, st := .closed, recWp := base, recSt := .closed }
        (s.modNames fun n => { n with toFind := n.toFind.filter fun q => q != (ns, zone) }).settle

/-- EFFECTIVE_LIMIT_DROP: E is below the dirty data held: the event of R395 (class 0x08, code 0x8001). -/
def execEffectiveLimitDrop (s : State) : Host.Outcome State Fault Refusal :=
  .next <|
    if s.limitE < s.dirtyBytes then s.emit 0x08 0x8001 noSource (pay [(8, s.limitE), (8, s.dirtyBytes)]) else s

/-! ## Power-fail dump (R400) -/

/-- What the dump writes: dirty data blocks, map pages and directory pages, each under its key. -/
def State.dumpBlocks (s : State) : List (Nat × Blk) :=
  s.names.unstored.map (fun d => (dumpKey 0 d.ns d.lba, d.data)) ++
  s.names.pagesDirty.map (fun q => (dumpKey 1 q.1 q.2, s.pageBlk q.1 q.2)) ++
  s.names.dirsDirty.map fun q => (dumpKey 2 q.1 q.2, s.dirBlk q.1 q.2)

/-- The dump index: 8 bytes for each block. -/
def indexBytes (l : List Nat) : List Byte := l.flatMap fun k => leBytes 8 k

/-- Rows of at most 512 blocks; a row that finds no ten members is not written. Fuel: their number. -/
def State.dumpRows (kind : McKind) : Nat → List (Nat × Blk) → State → State
  | 0, _, s => s
  | n + 1, l, s =>
    if l = [] then s
    else State.dumpRows kind n (l.drop 512) ((s.putMcRow 0 kind (l.take 512)).getD s)

/-- Blocks of 4,096 bytes of a byte string. -/
def blocksOf : Nat → List Byte → List Blk
  | 0, _ => []
  | n + 1, bs => if bs = [] then [] else BitVec.ofNat 32768 (ofLe (bs.take 4096)) :: blocksOf n (bs.drop 4096)

/-- The rows of the dump: the index first, then the blocks (R400 steps 4 and 5). -/
def State.writeDump (s : State) : State :=
  let l := s.dumpBlocks
  let idx := (blocksOf (l.length + 1) (indexBytes (l.map Prod.fst))).zipIdx.map fun q => (q.2, q.1)
  (s.dumpRows .dumpIndex (idx.length + 1) idx).dumpRows .dumpData (l.length + 1) l

/-- Commands Aborted due to Power Loss Notification. -/
def Cpl.powerLoss : Cpl := Cpl.err 0x0 0x05

/-- A write whose data is wholly in the buffer and that does not wait for media (R400 step 1). -/
def Ctx.buffered (s : State) (x : Ctx) : Bool :=
  (x.isWrite && ((s.ns? x.ns).any Ns.zoned || !isIoOp 0x08 x) && (x.stage == .applied || match x.wait with
    | .mirror _ => x.stage == .waiting
    | _ => false)) || s.pair.withheld.contains x.id

/-- The commands in flight end (R400 step 1): those with no data in the buffer at once, the others as their data are in it. -/
def State.endCommands (s : State) : State :=
  let open_ (s : State) : List Ctx := s.ctxs.filter fun x => x.stage != .decided
  let s := s.each (open_ s) fun x s =>
    if x.buffered s then s.complete x.id x.writeCpl
    else if x.stage = .awaitTurn ∧ x.data ≠ [] ∧ x.fua = false then s
    else s.complete x.id Cpl.powerLoss
  let s := s.settleOrder
  s.each (open_ s) fun x s => if x.buffered s then s.complete x.id x.writeCpl else s.complete x.id Cpl.powerLoss

/-- All media work of an actuator ends, its queue with it (R400 step 2). -/
def State.endWork (a : ActId) (s : State) : State :=
  (s.modSeq a fun q => { q with queue := [] }).quiesce false a

/-- Each obeyed, spinning actuator seeks to its media-cache ring (R400 step 3). -/
def State.toRing (a : ActId) (s : State) : State :=
  match s.spinning a, s.mcLocation a with
  | true, some l => s.modAct a fun x => { x with newTarget := some (l.head, s.targetOf a l.head l.track) }
  | _, _ => s

/-- The dump: fetching stops, commands and work end, the actuators seek, and the buffer goes to the media-cache rings; an earlier dump,
whose blocks are in the buffer, is released first (DESIGN CHOICE, log 132). Long operations end at their checkpoints (spec/12 R490). The recorder closes its open record (R400; spec/17 R611). -/
def State.startDump (s : State) : State :=
  let s := s.modNames fun n => { n with dumping := true, dumpAt := s.pins.pwrfailAt }
  let stop (f : HostFn) : HostFn := { f with fetchStopped := true }
  let s := (s.modFn .a stop).modFn .b stop
  let s := s.endCommands
  let s := s.each (fins 64) fun a s => s.endWork a
  let s := ((s.modNames Names.dropFlights).modProt (Prot.releaseWorks fun _ => true)).modCfg fun c => { c with ops := opsOverReset c.ops }
  let s := s.modBook fun b => { b with isOpen := false }
  let s := s.each (fins 64) fun a s => s.toRing a
  let s := s.dropDump.modNames fun n => { n with firstDue := n.dirtyKeys }
  s.writeDump.noteDirty

/-- Whether a pulse on PWRFAIL# is recognised: not at 200 ns or less, at 1 µs or more always (spec/21 R725). -/
def State.pulseSeen (s : State) (width rejected recognised : Nat) (band : Nat → Bool) : Bool :=
  if width ≤ rejected then false else if recognised ≤ width then true else band s.free

/-- POWER_FAIL_DUMP: PWRFAIL# is asserted; before step 11 bring-up goes on and the dump, if any, is taken there (R400; spec/21
R725, R726). -/
def execPowerFailDump (width : Nat) (s : State) : Host.Outcome State Fault Refusal :=
  .next <|
    let t := if 200 < width ∧ width < 1000 then s.takeFree else s
    if s.pulseSeen width 200 1000 Config.pwrfailBand = false ∨ s.pins.pwrfail = true then t
    else
      let t := t.modPins fun p => { p with pwrfail := true, pwrfailAt := s.now }
      if t.aon.hold = .running ∧ t.boot.complete = true then t.startDump else t

/-- The 8-byte numbers that a byte string holds. -/
def numbers : List Byte → List Nat
  | a :: b :: c :: d :: e :: f :: g :: h :: r => ofLe [a, b, c, d, e, f, g, h] :: numbers r
  | _ => []

/-- The keys that the index rows of the dump list. -/
def State.dumpIndex (s : State) : List Nat :=
  let bs := (s.prot.mcRows.filter fun r => r.kind == .dumpIndex).flatMap fun r => r.blocks.flatMap fun q => leBytes 4096 q.2.toNat
  (numbers bs).filter (· != 0)

/-- DUMP_END_MARK: the last row is on media: the mark is programmed with the row count and the digest of the index, and every
spindle is set to coast (R400 steps 6 and 7). -/
def execDumpEndMark (norOk : Bool) (s : State) : Host.Outcome State Fault Refusal :=
  .next <|
    if s.names.dumping = false then s
    else
      let rows := (s.prot.mcRows.filter McRow.isDump).length
      let held := ((s.prot.mcRows.filter fun r => r.kind == .dumpData).map fun r => r.blocks.length).sum
      let keys := s.dumpBlocks.map Prod.fst
      if held ≠ keys.length then s
      else
        let s := s.when norOk (State.modCfg fun c => { c with dumpMark := some { rows := rows, digest := digest (indexBytes keys) } })
        let s := s.each (fins 32) fun p s => s.when (s.port p).cmdUp (State.coast p)
        s.modNames fun n => { n with dumping := false }

/-! ## Restore (R401 to R403) -/

/-- A dumped block comes back: data as dirty data, a map or directory page as a dirty page. -/
def State.restoreBlock (key : Nat) (b : Blk) (s : State) : State :=
  let ns := key / 2 ^ 48 % 2 ^ 14
  let n := key % 2 ^ 48
  if (s.ns? ns).isNone then s
  else match key / 2 ^ 62 with
    | 0 => s.modNames (Names.putCarried ns n [b])
    | 1 =>
      let bs := leBytes 4096 b.toNat
      let ents := (List.range 512).filterMap fun i =>
        let e := field bs (8 * i) 8
        if e = 0 then none else some ({ ns := ns, lba := 512 * n + i, entry := BitVec.ofNat 64 e } : MapEnt)
      (s.pageIn ns n).modNames fun m => { m with
        map := m.map.filter (fun x => !(x.ns == ns && x.lba / 512 == n)) ++ ents, pagesDirty := m.pagesDirty ++ [(ns, n)] }
    | _ =>
      let bs := leBytes 4096 b.toNat
      let places := (List.range 512).filterMap fun i =>
        let e := field bs (8 * i) 8
        if e = 0 then none else some (ns, 512 * n + i, e % 2 ^ 48)
      s.modNames fun m => { m with
        mapDir := m.mapDir.filter (fun q => !(q.1 == ns && q.2.1 / 512 == n)) ++ places, dirsDirty := m.dirsDirty ++ [(ns, n)] }

/-- The write pointer of a zone is kept above a block (R402). -/
def State.raiseWp (ns lba : Nat) (s : State) : State :=
  match s.ns? ns with
  | none => s
  | some x =>
    if x.zoned = false then s
    else
      let zb := zoneBlocks x.narrow
      s.modZone ns (lba / zb) fun z => { z with
        wp := max z.wp (lba % zb + 1), st := if z.st = .full then .full else .closed }

/-- The loss of buffered data is told: Critical Warning bit 4 and the event 0x8004 (R403). -/
def State.tellLoss (cause : Nat) (s : State) : State :=
  (s.modBoot fun b => { b with backupFailed := true }).emit 0x01 0x8004 noSource (pay [(1, cause)])

/-- DUMP_RESTORE: the dump is read back as dirty data; without its end mark the listed blocks whose row is missing or
unreadable are lost; without a readable index the namespaces stand at their durable state. What came back is destaged as the first media
work. `missing`: data rows, in order,
that could not be read (R401 to R403). -/
def execDumpRestore (indexReadable : Bool) (missing : List Nat) (s : State) : Host.Outcome State Fault Refusal :=
  .next <|
    if s.boot.released = false ∨ s.boot.restored = true then s
    else
      let keys := s.dumpIndex
      let rows := s.prot.mcRows.filter fun r => r.kind == .dumpData
      let marked := match s.nor.config.dumpMark with
        | some m => m.digest == digest (indexBytes keys)
        | none => false
      let readable := indexReadable && (s.prot.mcRows.any (fun r => r.kind == .dumpIndex) || marked) &&
        (s.prot.mcRows.filter fun r => r.kind == .dumpIndex).all fun r => decide (s.mcMissing r ≤ 2)
      let done (s : State) : State :=
        let s := (s.modNames fun n => { n with firstDue := n.dirtyKeys }).modBoot fun b => { b with restored := true }
        s.bufferChanged.settle
      if readable = false then
        let s := (s.tellLoss 1).modCfg fun c => { c with dumpMark := none }
        done (s.modProt fun p => { p with mcRows := p.mcRows.filter fun r => !r.isDump })
      else
        let good := (rows.zipIdx.filter fun q => !missing.contains q.2 && decide (s.mcMissing q.1 ≤ 2)).flatMap fun q => q.1.blocks
        let bad := keys.filter fun k => good.all fun q => q.1 != k
        let s := s.each good fun q s => s.restoreBlock q.1 q.2
        let data := (good.map Prod.fst ++ bad).filter fun k => k / 2 ^ 62 == 0
        let lost := (bad.filter fun k => k / 2 ^ 62 == 0).map fun k => (k / 2 ^ 48 % 2 ^ 14, k % 2 ^ 48)
        let s := s.modNames fun n => { n with lost := n.lost ++ lost.filter fun q => !n.lost.contains q }
        let s := s.each data fun k s => s.raiseWp (k / 2 ^ 48 % 2 ^ 14) (k % 2 ^ 48)
        done (if marked = true ∧ bad = [] then s else s.tellLoss 2)

/-- MAP_JOURNAL_REPLAY: after a reset that preserved DRAM the journal's changes are in the map pages again (spec/13 R501). -/
def execMapJournalReplay (s : State) : Host.Outcome State Fault Refusal :=
  .next <|
    if s.boot.released = true ∧ s.boot.replayed = false then
      ((s.raiseMem 6 []).modBoot fun b => { b with replayed := true }).settle
    else s

end Sys2Proof.Machine
end

