-- ==== Sys2Proof/Machine/Io.lean ====
section
/-! DEFINITION. Family Io: the I/O commands of namespaces and zones (spec/10 R376 to R397, spec/12 R455 to R460, spec/01
R24 to R28). Field positions of the entries are those of the NVMe documents that the spec names (PRESUMED, log 33). -/

namespace Sys2Proof.Machine

/-! ## Checks that I/O commands share -/

/-- The namespace of an I/O command. -/
def State.ioNs (s : State) (x : Ctx) : Option Ns :=
  (s.ns? x.entry.nsid.toNat).filter fun n => n.attachedTo x && !s.deletedFor n x

/-- The status of a command to a namespace whose group is not served: Asymmetric Access Inaccessible or Transition (spec/11 Table 11-8). -/
def anaBad : AnaState → Option Cpl
  | .inaccessible => some (Cpl.err 0x3 0x02)
  | .change => some (Cpl.err 0x3 0x03)
  | _ => none

/-- Statuses that keep an I/O command from its namespace: sanitize, the ANA state at admission, readiness (Table 12-3,
Table 11-8, spec/02 R88). -/
def State.ioBad (s : State) (x : Ctx) (n : Ns) : Option Cpl :=
  if s.names.sanitizing then some Cpl.sanitizing
  else if s.names.sanitizeFailed then some (Cpl.err 0x0 0x1C)
  else (anaBad x.ana).or (if n.ready then none else some (Cpl.notReady (x.fn?.any fun f => (s.fn f).acre)))

/-- SLBA of dwords 10 and 11, blocks of dword 12 (0's based), FUA. -/
def slba (e : SqEntry) : Nat := e.cdw10.toNat + 2 ^ 32 * e.cdw11.toNat
def nlbOf (e : SqEntry) : Nat := bits e.cdw12 15 0 + 1
def fuaOf (e : SqEntry) : Bool := bits e.cdw12 30 30 == 1

/-- An I/O command of an opcode is run with its namespace, once the shared checks have passed. -/
def State.runIo (c op : Nat) (k : Ctx → Ns → State → State) (s : State) : State :=
  State.settleEnded c s (s.run c (isIoOp op) fun x s =>
    match s.ioNs x with
    | none => s.complete c Cpl.badNs
    | some n => s.orElse c (s.ioBad x n) (k x n))

/-- A range of blocks lies in its namespace and within MDTS (Table 11-4). -/
def rangeBad (n : Ns) (first count most : Nat) : Option Cpl :=
  if most < count then some (Cpl.invalid 12 0)
  else if n.nsze < first + count then some { Cpl.lbaRange with errLba := max first n.nsze }
  else none

/-- A write, Zone Append or Zone Management Send. -/
def Ctx.zoneOp (x : Ctx) : Bool :=
  !x.isAdmin && (isIoOp 0x01 x || isIoOp 0x08 x || isIoOp opZoneAppend x || isIoOp 0x79 x)

/-- Two commands act on one zone: a Zone Management Send of all zones acts on each. -/
def sameZone (zb : Nat) (x y : Ctx) : Bool :=
  let all (c : Ctx) : Bool := isIoOp 0x79 c && bits c.entry.cdw13 8 8 == 1
  all x || all y || x.lba / zb == y.lba / zb

/-- The zone commands of a zone are run in admission order (R380; firmware's order, DEDUCED, log 34): no earlier one of the same
zone is still to be run, or is a Zone Reset still to be applied (Table 10-8). -/
def State.zoneTurn (s : State) (x : Ctx) : Bool :=
  match s.ns? x.ns with
  | none => true
  | some n => !(s.ctxs.any fun y => (y.stage == .admitted || isIoOp 0x79 y && y.unapplied) && earlier y.adm x.adm && y.ns == x.ns &&
      y.zoneOp && sameZone (zoneBlocks n.narrow) x y)

/-! ## Placing writes in zones (R378 to R380) -/

/-- Active zones of a namespace, and of the device. -/
def State.activeZones (s : State) (ns : Nat) : Nat := (s.names.zones.filter fun z => z.ns == ns && z.st.isActive).length
def State.zonedActive (s : State) : Nat :=
  (s.names.zones.filter fun z => z.st.isActive && (match s.ns? z.ns with
    | some n => n.zoned
    | none => false)).length

/-- A limit of active zones is reached (R378). -/
def State.activeFull (s : State) (ns : Nat) : Bool := decide (1024 ≤ s.activeZones ns) || decide (4096 ≤ s.zonedActive)

/-- What refuses a write of a zone at an offset (`none`: wherever its write pointer is); `lost`: its stripe was lost when the write was
admitted (spec/09 R343, R731). -/
def State.zoneWriteBad (s : State) (n : Ns) (z count : Nat) (at_ : Option Nat) (lost : Bool) : Option Cpl :=
  let y := s.zone n.nsid z
  let start := at_.getD y.wp
  let zb := zoneBlocks n.narrow
  let lba := z * zb + start
  if y.st = .full then some { Cpl.err 0x1 0xB9 with errLba := lba }
  else if zb < start + count then some { Cpl.err 0x1 0xB8 with errLba := (z + 1) * zb }
  else if start ≠ y.wp then some { Cpl.err 0x1 0xBC with errLba := lba }
  else if y.st = .empty ∧ s.activeFull n.nsid = true then some (Cpl.err 0x1 0xBD)
  else if (stripeOf (s.nsGroups n) z).isNone then some { Cpl.lbaRange with errLba := lba }
  else if lost then some { Cpl.err 0x2 0x80 with errLba := lba }
  else none

/-- A write takes its place: the write pointer rises, the zone opens or becomes Full. -/
def State.placeWrite (n : Ns) (z count : Nat) (s : State) : State :=
  let y := s.zone n.nsid z
  let wp := y.wp + count
  let st := if wp = zoneBlocks n.narrow then ZoneState.full else if y.st = .explicit then .explicit else .implicit
  let s := s.modZone n.nsid z fun y => { y with wp := wp }
  if st = y.st then s else s.setZone n z st

/-! ## Commands -/

/-- READ (R458 to R460, R25, R381, R386, R402). -/
def execRead (c : Nat) (s : State) : Host.Outcome State Fault Refusal :=
  .next <| s.runIo c 0x02 fun x n s => s.orElse c (rangeBad n (slba x.entry) (nlbOf x.entry) 256) fun s =>
    (s.touchRead n ((List.range (nlbOf x.entry)).map (slba x.entry + ·))).tryRead c

/-- A write whose place is settled goes on to its data. -/
def State.acceptWrite (c first count : Nat) (s : State) : State :=
  s.modCtx c fun y => { y with stage := .awaitData, lba := first, nlb := count }

/-- WRITE: checked and placed; its data arrives at its apply point (R27, R455, Table 10-4). -/
def execWrite (c : Nat) (s : State) : Host.Outcome State Fault Refusal :=
  .next <| s.runIo c 0x01 fun x n s =>
    let first := slba x.entry
    let count := nlbOf x.entry
    s.orElse c (rangeBad n first count 256) fun s =>
      if n.zoned = false then s.acceptWrite c first count
      else if s.zoneTurn x = false then s
      else
        let z := first / zoneBlocks n.narrow
        s.orElse c (s.zoneWriteBad n z count (some (first % zoneBlocks n.narrow)) x.lost) fun s =>
          ((s.placeWrite n z count).acceptWrite c first count)

/-- A command whose data comes from the host: a Write or a Zone Append. -/
def Ctx.takesData (x : Ctx) : Bool := isIoOp 0x01 x || isIoOp opZoneAppend x

/-- APPLY_POINT: the last data byte of a write has arrived; it applies once earlier overlapping updates have (R455,
R456). In D3hot, or while the function's DMA channel stands halted, no data moves
(spec/11 R444; spec/13 R509); the data of a forwarded write goes to the serving controller and into this
controller's own mirror region (spec/18 R632). -/
def execApplyPoint (c : Nat) (data : List Blk) (s : State) : Host.Outcome State Fault Refusal :=
  .next <|
    match s.ctx? c with
    | some x =>
      let still := match x.origin with
        | .host f => (s.fn f).d3hot || s.mem.halted.contains (match f with
            | .a => 0x00
            | .b => 0x01)
        | _ => false
      if still = true ∨ data.length ≠ x.nlb then s
      else if x.stage = .awaitData then
        (s.modCtx c fun y => { y with stage := .awaitTurn, data := data }).settleOrder
      else if x.stage = .forwarded ∧ x.takesData = true ∧ x.data = [] then
        let s := (s.sendWings 0x07 [2, c] data).modCtx c fun y => { y with data := data }
        s.modPair fun p => { p with mirrors := p.mirrors ++ [{ seq := p.msgSeq, ns := x.ns, adm := 0, lba := x.lba, data := data }] }
      else s
    | none => s

/-- WRITE_ZEROES: entries of a conventional namespace become unmapped; a zoned one is written with zeros at its write pointer
(R393, Table 10-4). -/
def execWriteZeroes (c : Nat) (s : State) : Host.Outcome State Fault Refusal :=
  .next <| s.runIo c 0x08 fun x n s =>
    let first := slba x.entry
    let count := nlbOf x.entry
    s.orElse c (rangeBad n first count 65536) fun s =>
      if n.zoned = false then (s.modCtx c fun y => { y with stage := .awaitTurn }).settleOrder
      else if s.zoneTurn x = false then s
      else
        let z := first / zoneBlocks n.narrow
        s.orElse c (s.zoneWriteBad n z count (some (first % zoneBlocks n.narrow)) x.lost) fun s =>
          ((s.placeWrite n z count).modCtx c fun y => { y with
            stage := .awaitTurn, lba := first, nlb := count, data := List.replicate count 0 }).settleOrder

/-- ZONE_APPEND: it takes its place in the zone and completes with its first LBA (R380); what waited for the zone's other blocks goes on
(R460). -/
def execZoneAppend (c : Nat) (s : State) : Host.Outcome State Fault Refusal :=
  .next <| s.runIo c opZoneAppend fun x n s =>
    let first := slba x.entry
    let count := nlbOf x.entry
    let zb := zoneBlocks n.narrow
    if n.zoned = false then s.complete c Cpl.badOpcode
    else s.orElse c (rangeBad n first 1 1) fun s =>
      s.orElse c (firstBad [(first % zb != 0, 10, 0), (decide (64 < count), 12, 0)]) fun s =>
        if s.zoneTurn x = false then s
        else s.orElse c (s.zoneWriteBad n (first / zb) count none x.lost) fun s =>
          ((s.placeWrite n (first / zb) count).acceptWrite c (first + (s.zone n.nsid (first / zb)).wp) count).settleOrder

/-- DATASET_MANAGEMENT: deallocate on a conventional namespace (R369, R393). -/
def execDatasetManagement (c : Nat) (s : State) : Host.Outcome State Fault Refusal :=
  .next <| s.runIo c 0x09 fun x n s =>
    if n.zoned then s.complete c Cpl.badOpcode
    else match x.ranges.find? fun r => decide (n.nsze < r.1 + r.2) with
      | some r => s.complete c { Cpl.lbaRange with errLba := max r.1 n.nsze }
      | none =>
        if bits x.entry.cdw11 2 2 = 0 then s.complete c Cpl.ok
        else (s.modCtx c fun y => { y with stage := .awaitTurn }).settleOrder

/-- ANA group of a namespace on a function. -/
def HostFn.anaOf (x : HostFn) (n : Ns) : AnaState := if n.ana2 then x.ana2 else x.ana1

/-- What keeps a Flush of every namespace from one of those attached: the first status found, by the states of their groups at its
admission (spec/11 Table 11-8, R449). -/
def State.flushBad (s : State) (x : Ctx) : Option Cpl :=
  (s.names.nss.filter fun n => n.attachedTo x).findSome? fun n =>
    s.ioBad { x with ana := if n.ana2 then x.groups.2 else x.groups.1 } n

/-- FLUSH: it waits for the dirty blocks of earlier-admitted writes of its namespaces, those of completed writes among them, and then
for the map pages and directory pages that are dirty; then one of every namespace goes on at the peer for those it serves (R389, R396;
DEDUCED, log 35). -/
def execFlush (c : Nat) (s : State) : Host.Outcome State Fault Refusal :=
  .next <| s.run c (isIoOp 0x00) fun x s =>
    let go (s : State) : State :=
      let wait := (s.names.unstored.filter fun d => (s.flushNs x).contains d.ns && (d.carried || earlier d.adm x.adm)).map
        fun d => (d.ns, d.lba, d.adm)
      (s.await c (.media wait)).settleWaits
    if x.entry.nsid = 0xFFFFFFFF then s.orElse c (s.flushBad x) go
    else match s.ioNs x with
      | none => s.complete c Cpl.badNs
      | some n => s.orElse c (s.ioBad x n) go

/-- A Zone Management Send of an action: on a zoned namespace, at the first LBA of a zone unless all are selected. -/
def State.zoneSend (c action : Nat) (k : Ctx → Ns → List Nat → State → State) (s : State) : State :=
  State.settleEnded c s (s.run c (fun x => isIoOp 0x79 x && bits x.entry.cdw13 7 0 == action) fun x s =>
    match s.ioNs x with
    | none => s.complete c Cpl.badNs
    | some n => s.orElse c (s.ioBad x n) fun s =>
      if n.zoned = false then s.complete c Cpl.badOpcode
      else if bits x.entry.cdw13 8 8 = 1 then
        if s.zoneTurn x then k x n (s.usedZones n.nsid) s else s
      else s.orElse c (rangeBad n (slba x.entry) 1 1) fun s =>
        if slba x.entry % zoneBlocks n.narrow ≠ 0 then s.complete c (Cpl.invalid 10 0)
        else if s.zoneTurn x then k x n [slba x.entry / zoneBlocks n.narrow] s else s)

/-- Whether a Zone Management Send selects all zones. -/
def allZones (x : Ctx) : Bool := bits x.entry.cdw13 8 8 == 1

def Cpl.badZoneState : Cpl := Cpl.err 0x1 0xBF

/-- ZONE_OPEN: an Empty, implicitly opened or Closed zone becomes explicitly opened, within the limits; by Select All every
Closed zone (R377 to R379). -/
def execZoneOpen (c : Nat) (s : State) : Host.Outcome State Fault Refusal :=
  .next <| s.zoneSend c 3 fun x n zs s =>
    if allZones x then
      (s.each (zs.filter fun z => (s.zone n.nsid z).st == .closed) fun z s => s.setZone n z .explicit).complete c Cpl.ok
    else s.each zs fun z s =>
      let st := (s.zone n.nsid z).st
      if st = .full then s.complete c Cpl.badZoneState
      else if st = .empty ∧ s.activeFull n.nsid = true then s.complete c (Cpl.err 0x1 0xBE)
      else (s.setZone n z .explicit).complete c Cpl.ok

/-- ZONE_CLOSE: an open zone becomes Closed; by Select All every open zone. -/
def execZoneClose (c : Nat) (s : State) : Host.Outcome State Fault Refusal :=
  .next <| s.zoneSend c 1 fun x n zs s =>
    if allZones x then
      (s.each (zs.filter fun z => (s.zone n.nsid z).st.isOpen) fun z s => s.setZone n z .closed).complete c Cpl.ok
    else s.each zs fun z s =>
      if (s.zone n.nsid z).st.isActive then (s.setZone n z .closed).complete c Cpl.ok else s.complete c Cpl.badZoneState

/-- The partial row of a zone is to be destaged, its rest as zeros; the zone is Full with its write pointer at its end
(R382). -/
def State.finishZone (n : Ns) (z : Nat) (s : State) : State :=
  let y := s.zone n.nsid z
  let rb := rowBlocks n.narrow
  let s := s.when (y.wp % rb != 0) (State.modNames fun m => { m with finishing := m.finishing ++ [(n.nsid, z, y.wp / rb)] })
  s.modZone n.nsid z fun y => { y with wp := zoneBlocks n.narrow, st := .full }

/-- ZONE_FINISH: it completes when the partial row is on media, and the zone is then recorded Full (R382). -/
def execZoneFinish (c : Nat) (s : State) : Host.Outcome State Fault Refusal :=
  .next <| s.zoneSend c 2 fun x n zs s =>
    let zs := zs.filter fun z => (s.zone n.nsid z).st != .full && (!allZones x || (s.zone n.nsid z).st.isActive)
    let zb := zoneBlocks n.narrow
    let rb := rowBlocks n.narrow
    let rows := (zs.filter fun z => (s.zone n.nsid z).wp % rb != 0).map fun z => z * zb + (s.zone n.nsid z).wp / rb * rb
    let s := s.each zs (State.finishZone n)
    (s.await c (.media (rows.flatMap fun b => (List.range rb).map fun i => (n.nsid, b + i, x.adm)))).settleWaits

/-- ZONE_RESET: an update; it applies when its turn comes (R383, R455). -/
def execZoneReset (c : Nat) (s : State) : Host.Outcome State Fault Refusal :=
  .next <| s.zoneSend c 4 fun _ _ _ s => (s.modCtx c fun y => { y with stage := .awaitTurn }).settleOrder

/-- ZONE_OFFLINE: always Invalid Zone State Transition (R377). -/
def execZoneOffline (c : Nat) (s : State) : Host.Outcome State Fault Refusal :=
  .next <| s.zoneSend c 5 fun _ _ _ s => s.complete c Cpl.badZoneState

/-- SET_ZONE_DESCRIPTOR_EXTENSION: Invalid Field in Command (Table 10-4). -/
def execSetZoneDescriptorExtension (c : Nat) (s : State) : Host.Outcome State Fault Refusal :=
  .next <| s.zoneSend c 0x10 fun _ _ _ s => s.complete c (Cpl.invalid 13 0)

/-- A zone descriptor: type, state, capacity, first LBA, write pointer. -/
def State.zoneDescriptor (s : State) (n : Ns) (z : Nat) : List Byte :=
  let zb := zoneBlocks n.narrow
  let y := s.zone n.nsid z
  packBytes [(1, 2), (1, y.st.code * 16), (6, 0), (8, zb), (8, z * zb), (8, z * zb + y.wp), (32, 0)]

/-- Zones that a reporting option selects. -/
def zoneWanted (option : Nat) (st : ZoneState) : Bool :=
  option == 0 || option == 1 && st == .empty || option == 2 && st == .implicit || option == 3 && st == .explicit ||
    option == 4 && st == .closed || option == 5 && st == .full

/-- A Zone Management Receive of an action. -/
def State.zoneReceive (c action : Nat) (k : Ctx → Ns → State → State) (s : State) : State :=
  s.run c (fun x => isIoOp 0x7A x && bits x.entry.cdw13 7 0 == action) fun x s =>
    match s.ioNs x with
    | none => s.complete c Cpl.badNs
    | some n => s.orElse c (s.ioBad x n) fun s => if n.zoned then k x n s else s.complete c Cpl.badOpcode

/-- REPORT_ZONES: descriptors of the zones from an LBA on, as many as the buffer takes; with the partial-report bit the count
is that of the descriptors returned (Table 10-4). -/
def execReportZones (c : Nat) (s : State) : Host.Outcome State Fault Refusal :=
  .next <| s.zoneReceive c 0 fun x n s =>
    let e := x.entry
    let size := 4 * (e.cdw12.toNat + 1)
    let option := bits e.cdw13 15 8
    s.orElse c (rangeBad n (slba e) 1 1) fun s => s.orElse c (firstBad [(decide (7 < option), 13, 8)]) fun s =>
      let first := slba e / zoneBlocks n.narrow
      let hits := ((List.range (n.nsze / zoneBlocks n.narrow - first)).map (first + ·)).filter
        fun z => zoneWanted option (s.zone n.nsid z).st
      let shown := hits.take ((size - 64) / 64)
      let count := if bits e.cdw13 16 16 = 1 then shown.length else hits.length
      s.complete c (Cpl.data ((packBytes [(8, count), (56, 0)] ++ shown.flatMap (s.zoneDescriptor n)).take size))

/-- EXTENDED_REPORT_ZONES: Invalid Field in Command (Table 10-4). -/
def execExtendedReportZones (c : Nat) (s : State) : Host.Outcome State Fault Refusal :=
  .next <| s.zoneReceive c 1 fun _ _ s => s.complete c (Cpl.invalid 13 0)

end Sys2Proof.Machine
end

