-- ==== Sys2Proof/Machine/HostIf.lean ====
section
/-! DEFINITION. Family HostIf: the two host functions: resets, registers, doorbells, fetching and arbitration, admission,
completion entries, interrupts, device states, ANA (spec/11; spec/12 R452 to R454, R463, R467 to R473). -/

namespace Sys2Proof.Machine

/-! ## Asynchronous events (R423, R449; spec/12 R462, R469) -/

/-- Pending events are reported, oldest first, while Asynchronous Event Requests are outstanding; an event of a type that has
been reported waits until its log page has been read (the NVMe base specification; PRESUMED, log 41). Fuel: the requests. -/
def State.deliverEvents (f : Fn) : Nat → State → State
  | 0, s => s
  | k + 1, s =>
    let x := s.fn f
    match x.aers, x.events.find? fun e => x.reported.all fun r => r.1 != e.type with
    | c :: rest, some e =>
      let s := s.modFn f fun x => { x with
        aers := rest, events := x.events.filter (· != e), reported := (e.type, e.page) :: x.reported }
      State.deliverEvents f k (s.complete c (Cpl.val (word [(e.type, 0), (e.info, 8), (e.page, 16)])))
    | _, _ => s

/-- An event becomes pending; one of the same kind that is still pending is not queued again (R423). -/
def State.asyncEvent (f : Fn) (type info page : Nat) (s : State) : State :=
  let e : AsyncEv := { type := type, info := info, page := page }
  let s := s.modFn f fun x => { x with events := if x.events.contains e then x.events else x.events ++ [e] }
  s.deliverEvents f (s.fn f).aers.length

/-- A log page has been read: its event types can be reported again. -/
def State.logRead (f : Fn) (page : Nat) (s : State) : State :=
  let s := s.modFn f fun x => { x with reported := x.reported.filter fun r => r.2 != page }
  s.deliverEvents f (s.fn f).aers.length

/-! ## Interrupts (R438 to R443) -/

def HostFn.vec (x : HostFn) (v : Fin 65) : MsixVec := x.vecs[v]

def State.modVec (f : Fn) (v : Fin 65) (g : MsixVec → MsixVec) (s : State) : State :=
  s.modFn f fun x => { x with vecs := upd x.vecs v g }

/-- A vector is coalesced: not vector 0, and not disabled (R440). -/
def coalesced (x : HostFn) (v : Fin 65) : Bool := v != 0 && !(x.vec v).cd

/-- One message is sent; count and timer return to 0. -/
def State.sendMsix (f : Fn) (v : Fin 65) (s : State) : State :=
  (s.modVec f v fun y => { y with pending := false, cond := false, count := 0, timerAt := none }).emitOut (.msix f v)

/-- A vector's interrupt condition arises: in D3hot PME_Status and at most one PME message; masked or disabled, the pending bit;
else the message (R442, R443). -/
def State.raiseVec (f : Fn) (v : Fin 65) (s : State) : State :=
  let x := s.fn f
  if x.d3hot then
    let s := s.modVec f v fun y => { y with pending := true, cond := true }
    let s := s.when (x.pmeEn && !x.pmeStatus) (State.emitOut (.pme f))
    s.modFn f fun x => { x with pmeStatus := true }
  else if (x.vec v).masked ∨ x.msixEnabled = false then s.modVec f v fun y => { y with pending := true, cond := true }
  else s.sendMsix f v

/-- An entry counts on its queue's vector: an uncoalesced vector's condition arises at once, a coalesced one's when the count
reaches THR + 1 (R440, R441). -/
def State.countEntry (f : Fn) (q : CplQ) (s : State) : State :=
  if q.ien = false then s
  else if coalesced (s.fn f) q.vector then
    let s := s.modVec f q.vector fun y => { y with
      count := y.count + 1, timerAt := if y.count = 0 then some s.now else y.timerAt }
    s.when (decide ((s.fn f).thr + 1 ≤ ((s.fn f).vec q.vector).count)) (State.raiseVec f q.vector)
  else s.raiseVec f q.vector

/-- A pending message goes out once its vector is unmasked and enabled in D0, if its condition still holds; the pending bit is
cleared either way (R442, R443). -/
def State.releaseVec (f : Fn) (v : Fin 65) (s : State) : State :=
  let x := s.fn f
  let y := x.vec v
  if y.pending = true ∧ y.masked = false ∧ x.msixEnabled = true ∧ x.d3hot = false then
    if y.cond then s.sendMsix f v else s.modVec f v fun y => { y with pending := false }
  else s

/-- The host has advanced the head of every completion queue of a vector to its tail: its count and timer return to 0, and its
condition no longer holds (R440, R442). -/
def State.quietVec (f : Fn) (v : Fin 65) (s : State) : State :=
  if (s.fn f).cqs.all fun q => q.vector != v || q.head == q.tail then
    s.modVec f v fun y => { y with count := 0, timerAt := none, cond := false }
  else s

/-! ## Queues (R418 to R430) -/

def HostFn.sq? (x : HostFn) (q : Nat) : Option SubQ := x.sqs.find? fun y => y.id == q
def HostFn.cq? (x : HostFn) (q : Nat) : Option CplQ := x.cqs.find? fun y => y.id == q

def State.modSq (f : Fn) (q : Nat) (g : SubQ → SubQ) (s : State) : State :=
  s.modFn f fun x => { x with sqs := mapWhere (fun y => y.id == q) g x.sqs }
def State.modCq (f : Fn) (q : Nat) (g : CplQ → CplQ) (s : State) : State :=
  s.modFn f fun x => { x with cqs := mapWhere (fun y => y.id == q) g x.cqs }

def SubQ.fresh (id size cq : Nat) (prio : Fin 4) : SubQ :=
  { id := id, size := size, head := 0, tail := 0, cq := cq, prio := prio, frozen := false, freezeCount := 0, eventIdx := 0
    deleting := false }

def CplQ.fresh (id size : Nat) (vector : Fin 65) (ien : Bool) : CplQ :=
  { id := id, size := size, head := 0, tail := 0, phase := true, vector := vector, ien := ien, eventIdx := 0 }

/-- (a − b) mod n. -/
def modDiff (n a b : Nat) : Nat := (a + n - b % n) % n

/-- Entries between head and the last tail read. -/
def SubQ.held (q : SubQ) : Nat := modDiff q.size q.tail q.head

/-- A tail value is invalid: beyond the size, or past the head (R421). -/
def SubQ.badTail (q : SubQ) (v : Nat) : Bool :=
  decide (q.size ≤ v) || decide (modDiff q.size (q.head + q.size - 1) q.tail < modDiff q.size v q.tail)

/-- A head value is invalid: beyond the size, or past the tail (R422). -/
def CplQ.badHead (q : CplQ) (v : Nat) : Bool :=
  decide (q.size ≤ v) || decide (modDiff q.size q.tail q.head < modDiff q.size v q.head)

/-- A completion queue is full (R420). -/
def CplQ.full (q : CplQ) : Bool := (q.tail + 1) % q.size == q.head

/-- Invalid Doorbell Write Value, and Write to Invalid Doorbell Register (R423). -/
def State.badValue (f : Fn) (s : State) : State := s.asyncEvent f 0 0x01 0x01
def State.badRegister (f : Fn) (s : State) : State := s.asyncEvent f 0 0x00 0x01

/-- The shadow doorbell and the event index of a queue in host memory: entries at 8y for submission queue y and at 8y + 4 for completion
queue y of their pages; the admin queues have none (R427). -/
def HostFn.shadowAt (x : HostFn) (q : Nat) (completion : Bool) : Option (W64 × W64) :=
  if q = 0 then none
  else x.shadow.map fun p =>
    let k := BitVec.ofNat 64 (8 * q + if completion then 4 else 0)
    (p.1 + k, p.2 + k)

/-- The shadow tail of a queue is read: a valid value is taken and written as the event index, an invalid one raises the event
(R428, R430). -/
def State.readShadowTail (f : Fn) (q v : Nat) (s : State) : State :=
  match (s.fn f).sq? q with
  | some y =>
    if ((s.fn f).shadowAt q false).isNone then s
    else if y.badTail v then s.badValue f
    else s.modSq f q fun y => { y with tail := v, eventIdx := v }
  | none => s

/-- The shadow head of a completion queue is read (R429, R430). -/
def State.readShadowHead (f : Fn) (q v : Nat) (s : State) : State :=
  match (s.fn f).cq? q with
  | some y =>
    if ((s.fn f).shadowAt q true).isNone then s
    else if y.badHead v then s.badValue f
    else (s.modCq f q fun y => { y with head := v, eventIdx := v }).quietVec f y.vector
  | none => s

/-- The function answers memory requests: enabled and in D0, with its clock running and its crossing not stale (R444; spec/01 Table 1-4;
spec/14 R536). -/
def State.answers (s : State) (f : Fn) : Bool := (s.fn f).cc.getLsbD 0 && !(s.fn f).d3hot && s.crosses f

/-! ## Completion entries (R425, R426, R443; spec/12 R467 to R473) -/

/-- Completions with no Error Information entry (spec/12 R473). -/
def Cpl.unlogged (r : Cpl) : Bool :=
  r.good || (r.sct == 0 && (r.sc == 0x82 || r.sc == 0x08 || r.sc == 0x05)) || r.sct == 3

/-- An Error Information entry is added, with its event (spec/12 R472, Table 12-2; spec/17 Table 17-3). -/
def State.addError (f : Fn) (x : Ctx) (r : Cpl) (s : State) : State :=
  let e : ErrEntry :=
    { count := (s.fn f).errCount, sqid := BitVec.ofNat 16 x.sq, cid := x.entry.cid, status := r.status, errLoc := r.errLoc
      lba := BitVec.ofNat 64 r.errLba, nsid := x.entry.nsid, seq := none }
  let code := match f with
    | .a => 0
    | .b => 1
  let s := s.modFn f fun y => { y with errLog := (e :: y.errLog).take 64, errCount := y.errCount + 1 }
  s.emit 0x0C 0x8001 noSource (pay [(1, code), (1, 0), (2, x.sq), (2, x.entry.cid.toNat), (2, r.status.toNat),
    (4, x.entry.nsid.toNat), (8, r.errLba)])

/-- Freeze-on-Error: an I/O command with status code type 0x2 freezes its queue, before its entry is posted; the count of its
Error Information entry is the freeze count, and the event is reported if a request is outstanding (spec/12 R467, R469). -/
def State.freezeQueue (f : Fn) (x : Ctx) (count : W64) (s : State) : State :=
  match (s.fn f).sq? x.sq with
  | some q =>
    if q.deleting then s
    else
      let s := s.modSq f x.sq fun q => { q with frozen := true, freezeCount := count }
      s.when (!(s.fn f).aers.isEmpty && (s.fn f).reported.all fun r => r.1 != 7) (State.asyncEvent f 7 0xC0 0x01)
  | none => s

/-- Deletes of submission queues whose commands have all been posted complete, and the queues are gone (spec/12 R463). -/
def State.settleDeletions (s : State) : State :=
  s.each (s.ctxs.filter fun x => x.stage == .waiting) fun x s =>
    match x.wait with
    | .deletion f q =>
      if s.ctxs.any fun y => y.origin == .host f && y.sq == q then s
      else (s.modFn f fun y => { y with sqs := y.sqs.filter fun z => z.id != q }).complete x.id Cpl.ok
    | _ => s

/-- The entry of a decided command is written to its completion queue, its context is freed, and it counts on the queue's
vector unless it did when it was held (R425, R426, R431, R440). -/
def State.postEntry (f : Fn) (x : Ctx) (s : State) : State :=
  match x.cpl, (s.fn f).sq? x.sq with
  | some r, some q =>
    match (s.fn f).cq? q.cq with
    | some k =>
      let count := (s.fn f).errCount
      let s := s.when (!r.unlogged) (State.addError f x r)
      let s := s.when (x.sq != 0 && r.sct == 2 && (s.fn f).freeze) (State.freezeQueue f x count)
      let s := s.emitOut (.completion f k.id k.tail k.phase x.sq q.head x.entry.cid r)
      let s := s.modCq f k.id fun k =>
        let t := (k.tail + 1) % k.size
        { k with tail := t, phase := if t = 0 then !k.phase else k.phase }
      let s := s.dropCtx x.id
      let s := s.when (!x.heldD3) (State.countEntry f k)
      s.settleDeletions.noteClean.wake
    | none => s
  | _, _ => s

/-- Decided commands of a function, in completion order (R425). -/
def State.decided (s : State) (f : Fn) : List Ctx :=
  sortBy Ctx.order (s.ctxs.filter fun x => x.origin == .host f && x.stage == .decided)

/-- The completion queue of a command. -/
def State.cqOf (s : State) (f : Fn) (x : Ctx) : Option CplQ := ((s.fn f).sq? x.sq).bind fun q => (s.fn f).cq? q.cq

/-- Its completion queue has room. -/
def State.hasRoom (s : State) (f : Fn) (x : Ctx) : Bool := match s.cqOf f x with
  | some k => !k.full
  | none => false

/-- An entry is held in D3hot: it counts on its vector now (R440, R443). -/
def State.holdEntry (f : Fn) (x : Ctx) (s : State) : State :=
  let s := s.modCtx x.id fun y => { y with heldD3 := true }
  match s.cqOf f x with
  | some k => s.countEntry f k
  | none => s

/-- COMPLETION_POST: the first entry, in completion order, whose queue has room is written; one that finds its queue full by
the last head read has the shadow head read once, and then waits (R425, R429). In D3hot it is held (R443). With the
function's clock stopped nothing is written (spec/01 Table 1-4). -/
def execCompletionPost (f : Fn) (shadow : Nat) (s : State) : Host.Outcome State Fault Refusal :=
  .next <|
    let l := s.decided f
    if s.crosses f = false then s
    else if (s.fn f).d3hot then
      match l.find? fun x => !x.heldD3 && x.wait != .room with
      | some x => s.holdEntry f x
      | none => s
    else match l.find? fun x => s.hasRoom f x || x.wait != .room with
      | none => s
      | some x =>
        if s.hasRoom f x then s.postEntry f x
        else match s.cqOf f x with
          | none => s
          | some k =>
            let s := s.readShadowHead f k.id shadow
            match (s.decided f).find? fun y => (s.cqOf f y).map CplQ.id == some k.id with
            | some y => if s.hasRoom f y then s.postEntry f y else s.modCtx x.id fun z => { z with wait := .room }
            | none => s

/-! ## Host function reset (R412 to R414) -/

/-- A command whose data is wholly in the write buffer and waits only for its turn is kept (R412 step 2). -/
def Ctx.keptData (x : Ctx) : Bool := x.stage == .awaitTurn && x.data != []

/-- What a function's registers hold after its reset; `bus`: a PERST# or a Function Level Reset, which resets its PCI
configuration too. Features take their defaults, 0xC0 its saved value (R412, R413; spec/12 R487). -/
def HostFn.afterReset (x : HostFn) (bus freeze stopped bootError : Bool) (pairId : BitVec 128) : HostFn :=
  { HostFn.reset with
    cfgReady := x.cfgReady, perstOffAt := x.perstOffAt
    d3hot := x.d3hot && !bus, pmeEn := x.pmeEn && !bus, pmeStatus := x.pmeStatus && !bus
    aqa := if bus then 0 else x.aqa
    cfs := x.cfs && bootError
    fetchStopped := stopped
    vecs := x.vecs.map fun v => { MsixVec.reset with masked := v.masked || bus }
    msixEnabled := x.msixEnabled && !bus
    ana1 := x.ana1, ana2 := x.ana2, anaCount := x.anaCount, freeze := freeze, subsys := pairId }

/-- A host function reset (R412, R414): its commands end on no queue, what had reached the write buffer stays, and the other
function goes on. An access of the function that hangs is ended, and a stale PCIe crossing clears (spec/14 R532, R537). -/
def State.hostReset (f : Fn) (bus : Bool) (s : State) : State :=
  let mine := s.ctxs.filter fun x => x.origin == .host f
  let dels := mine.filterMap fun x => match x.wait with
    | .nsDelete ns => if x.stage = .waiting then some ns else none
    | _ => none
  let orphan (x : Ctx) : Ctx := if x.origin = .host f then { x with origin := .gone, part := .none } else x
  let rest := s.ctxs.filter fun x => x.origin != .host f || x.keptData
  let s := { s with ctxs := rest.map orphan }
  let revive (x : Ns) : Ns :=
    if (dels.any fun k => k == 0xFFFFFFFF || k == x.nsid) && !(s.ctxs.any fun y => y.deletes x.nsid) then { x with deleting := false } else x
  let s := s.modNames fun n => { n with nss := n.nss.map revive }
  let stopped := s.names.dumping || (s.pins.pwrfail && s.boot.complete)
  let freeze := match f with
    | .a => s.nor.config.freezeA
    | .b => s.nor.config.freezeB
  let s := s.modFn f fun x => x.afterReset bus freeze stopped (s.aon.error != 0) s.nor.config.pairId
  let who := match f with
    | .a => Req.portA
    | .b => Req.portB
  let s := s.modXing fun x => { x with
    hung := x.hung.filter fun h => h.who != who
    behind := x.behind.filter fun h => h.who != who
    staleOther := clearBit x.staleOther (fnBit f) }
  s.settleOrder.noteClean

/-! ## Resets and enables -/

/-- CAP of both functions (Table 11-3; bit positions of the NVMe base specification, PRESUMED, log 33): MQES, CQR, AMS, TO, DSTRD,
NSSRS, CSS, BPS, MPSMIN, MPSMAX, PMRS, CMBS, CRMS. CAP.TO is 6, 3.0 s (spec/02 R86). -/
def capRegister : W64 := BitVec.ofNat 64 <|
  4095 + 1 * 2 ^ 16 + 1 * 2 ^ 17 + 6 * 2 ^ 24 + 0 * 2 ^ 32 + 0 * 2 ^ 36 + (1 + 2 ^ 6) * 2 ^ 37 + 0 * 2 ^ 45 + 0 * 2 ^ 48 + 4 * 2 ^ 52 +
    0 * 2 ^ 56 + 0 * 2 ^ 57 + 0 * 2 ^ 59

/-- The value of the Device Serial Number capability: the seven lot characters from the fused identity, the first in [7:0], the wafer in
[60:56] and 0 above (R407; spec/16 Table 16-2). -/
def deviceSerialNumber : W64 :=
  let v := Config.deviceIdentity.toNat
  BitVec.ofNat 64 (v % 2 ^ 56 + v / 2 ^ 56 % 32 * 2 ^ 56)

/-- A PCI capability (Table 11-1). -/
inductive PciCap where
  | powerManagement | pciExpress | msix | advancedErrorReporting | deviceSerialNumber | secondaryPciExpress | dataLinkFeature
  | physicalLayer16 | physicalLayer32 | laneMargining
  deriving DecidableEq, Repr

/-- A base address register pair (Table 11-2): 64-bit memory, prefetchable, size; size 0 for what is not implemented and reads as 0. -/
structure Bar where
  wide : Bool
  prefetchable : Bool
  size : Nat
  deriving DecidableEq, Repr

/-- What a function reports in PCI configuration space and does on its link (Tables 11-1 and 11-2; R406 to R410). Link speeds are in
tenths of GT/s; the Subsystem ID is that of the configuration store at the last bring-up (spec/19 R661). -/
structure PciValues where
  widths : List Nat
  laneReversal : Bool
  polarityInversion : Bool
  speeds : List Nat
  deviceId : W16
  vendorId : W16
  subsystemVendorId : W16
  subsystemId : W16
  classCode : BitVec 24
  maxPayload : Nat
  maxReadRequest : Nat
  tagBits : Nat
  outstanding : Nat
  relaxedOrdering : Bool
  noSnoop : Bool
  /-- Extended Synch, Atomic Operations, ATS, PASID, TPH, SR-IOV, Resizable BAR -/
  unsupported : List Bool
  vectors : Nat
  msi : Bool
  intx : Bool
  capabilities : List PciCap
  ecrc : Bool
  scaledFlowControl : Bool
  serialNumber : W64
  functionLevelReset : Bool
  bar01 : Bar
  bar23 : Bar
  bar4 : Nat
  bar5 : Nat
  rom : Nat
  /-- Power Management: D1, D2, PME from D0, D3hot and D3cold, PMCSR.No_Soft_Reset (R410; PME from D0 is not named) -/
  d1 : Bool
  d2 : Bool
  pmeD3hot : Bool
  pmeD3cold : Bool
  noSoftReset : Bool
  deriving DecidableEq, Repr

def State.pciValues (s : State) : PciValues :=
  { widths := [4, 2, 1], laneReversal := true, polarityInversion := true, speeds := [25, 50, 80, 160, 320], deviceId := 0x5832
    vendorId := Config.vendorId, subsystemVendorId := Config.subsystemVendorId, subsystemId := s.boot.subsystem, classCode := 0x010802, maxPayload := 512, maxReadRequest := 4096, tagBits := 10, outstanding := 256
    relaxedOrdering := true, noSnoop := true, unsupported := List.replicate 7 false, vectors := 65, msi := false, intx := false
    capabilities := [.powerManagement, .pciExpress, .msix, .advancedErrorReporting, .deviceSerialNumber, .secondaryPciExpress,
      .dataLinkFeature, .physicalLayer16, .physicalLayer32, .laneMargining]
    ecrc := true, scaledFlowControl := true, serialNumber := deviceSerialNumber, functionLevelReset := true
    bar01 := { wide := true, prefetchable := false, size := 16 * 1024 }, bar23 := { wide := true, prefetchable := false, size := 2 ^ 20 }
    bar4 := 0, bar5 := 0, rom := 0, d1 := false, d2 := false, pmeD3hot := true, pmeD3cold := false, noSoftReset := true }

/-- What a dword of BAR0 is (Tables 11-2 and 11-3): an NVMe register, the tail doorbell of a submission queue, the head doorbell of a
completion queue, a dword of the MSI-X table (vector and dword of its entry), of the pending-bit array, or none of them. -/
inductive Bar0At where
  | register (off : Nat)
  | sqTail (q : Nat)
  | cqHead (q : Nat)
  | msixEntry (v : Fin 65) (dword : Fin 4)
  | msixPending (dword : Nat)
  | reserved
  deriving DecidableEq, Repr

def bar0At (off : Nat) : Bar0At :=
  if off < 0x1000 then .register off
  else if off < 0x1000 + 8 * 65 then (if off % 8 < 4 then .sqTail ((off - 0x1000) / 8) else .cqHead ((off - 0x1000) / 8))
  else if h : 0x2000 ≤ off ∧ off < 0x2000 + 16 * 65 then
    .msixEntry ⟨(off - 0x2000) / 16, by omega⟩ ⟨(off - 0x2000) % 16 / 4, by omega⟩
  else if 0x3000 ≤ off ∧ off < 0x3000 + 16 then .msixPending ((off - 0x3000) / 4)
  else .reserved

/-- VS of both functions: NVMe 2.0 (Table 11-3). -/
def vsRegister : W32 := 0x00020000

/-- An NVMe register of a function (Table 11-3; offsets of the NVMe base specification, PRESUMED, log 33): CAP, VS, CC, CSTS and AQA;
INTMS and INTMC read 0, CMBLOC, CMBSZ, BPINFO and PMRCAP are 0. Reserved bits read 0, whatever was written (spec/00 R14), as does a
register that this model does not hold. -/
def State.nvmeRegister (s : State) (f : Fn) (off : Nat) : W32 :=
  let x := s.fn f
  if off = 0x00 then BitVec.ofNat 32 capRegister.toNat
  else if off = 0x04 then BitVec.ofNat 32 (capRegister.toNat / 2 ^ 32)
  else if off = 0x08 then vsRegister
  else if off = 0x14 then x.cc &&& 0x00FFFFF1
  else if off = 0x1C then word [(x.shst.val, 2), (bit x.cfs, 1), (bit x.rdy, 0)]
  else if off = 0x24 then x.aqa &&& 0x0FFF0FFF
  else 0

/-- PERST_ASSERT: PERSTx# is asserted for a width, in ns: at 1 µs or less it is rejected, at 100 µs or more always recognised;
recognised, it is a host function reset and counts toward the overlap of R55 (R412; spec/02 R55; spec/21 R725). -/
def execPerstAssert (f : Fn) (width : Nat) (s : State) : Host.Outcome State Fault Refusal :=
  .next <|
    let t := if 1000 < width ∧ width < 100000 then s.takeFree else s
    if s.pulseSeen width 1000 100000 Config.perstBand = false then t
    else
      let t := t.modPins fun p => match f with
        | .a => { p with perstA := true }
        | .b => { p with perstB := true }
      let t := (t.hostReset f true).modFn f fun x => { x with cfgReady := false }
      let both := t.perstOf .a && t.perstOf .b
      t.when (both && t.aon.overlapAt.isNone) (State.modAon fun a => { a with overlapAt := some t.now, overlapUsed := false })

/-- PERST_DEASSERT: the function's link and configuration readiness begin, and an overlap ends (R413; spec/02 R55, R85). -/
def execPerstDeassert (f : Fn) (s : State) : Host.Outcome State Fault Refusal :=
  .next <|
    let was := match f with
      | .a => s.pins.perstA
      | .b => s.pins.perstB
    if was = false then s
    else
      let s := s.modPins fun p => match f with
        | .a => { p with perstA := false }
        | .b => { p with perstB := false }
      let s := s.modFn f fun x => { x with perstOffAt := s.now, cfs := x.cfs || (s.aon.error != 0 && s.linkUp f) }
      if s.perstOf .a && s.perstOf .b then s else s.modAon fun a => { a with overlapAt := none, overlapUsed := false }

/-- CONFIG_REQUEST_READY: after PERSTx# deassertion and step 4, configuration requests complete successfully, at most 100 ms
after the later of the two (spec/02 R85). -/
def execConfigRequestReady (f : Fn) (s : State) : Host.Outcome State Fault Refusal :=
  .next <|
    if s.clockRuns (.pcie f) = true ∧ 4 ≤ s.aon.step.toNat ∧ (s.fn f).cfgReady = false then
      (s.modFn f fun x => { x with cfgReady := true }).emitOut (.crsEnd f)
    else s

/-- CC_EN_SET: the host sets CC.EN with CC and AQA as given. A CC.CSS that is not 0b110, or a zero ASQS or ACQS, makes the
enable fail with CSTS.CFS; else the admin queues exist, and CSTS.RDY is set once bring-up has reached step 11 (R415, Table
11-3; spec/02 R86, R87). -/
def execCcEnSet (f : Fn) (cc aqa : W32) (s : State) : Host.Outcome State Fault Refusal :=
  .next <|
    let x := s.fn f
    let cc := cc ||| 1
    if x.cfgReady = false ∨ x.d3hot = true ∨ s.crosses f = false then s.lostWord f
    else if x.cc.getLsbD 0 then s.modFn f fun x => { x with cc := cc }
    else if bits cc 6 4 ≠ 6 ∨ bits aqa 11 0 = 0 ∨ bits aqa 27 16 = 0 ∨ s.aon.error ≠ 0 then
      s.modFn f fun x => { x with cc := cc, aqa := aqa, cfs := true }
    else s.modFn f fun x => { x with
      cc := cc, aqa := aqa, rdy := s.boot.complete && !x.cfs,
      sqs := [SubQ.fresh 0 (bits aqa 11 0 + 1) 0 0], cqs := [CplQ.fresh 0 (bits aqa 27 16 + 1) 0 true] }

/-- CC_EN_CLEAR: an NVMe controller reset of the function: CC is reset whole, AQA is kept (R412, R413; the NVMe base specification,
PRESUMED, log 33). -/
def execCcEnClear (f : Fn) (s : State) : Host.Outcome State Fault Refusal :=
  .next <|
    if (s.fn f).cc.getLsbD 0 = true ∧ (s.fn f).d3hot = false ∧ s.crosses f = true then s.hostReset f false else s.lostWord f

/-- A shutdown begins: the function's fetching stops, and CSTS.SHST reads 0b01 until it is over (R416). -/
def State.beginShutdown (f : Fn) (kind : Fin 3) (s : State) : State :=
  let x := s.fn f
  if x.rdy = true ∧ x.d3hot = false ∧ x.shst = 0 ∧ s.crosses f = true then
    let cc := BitVec.ofNat 32 (x.cc.toNat - bits x.cc 15 14 * 2 ^ 14 + kind.val * 2 ^ 14)
    (s.modFn f fun x => { x with shst := 1, shutdown := kind, fetchStopped := true, cc := cc }).noteClean
  else s.lostWord f

/-- NORMAL_SHUTDOWN: SHST becomes 0b10 once the fetched commands have completed and the buffer is clean (R416). -/
def execNormalShutdown (f : Fn) (s : State) : Host.Outcome State Fault Refusal := .next <| s.beginShutdown f 1

/-- ABRUPT_SHUTDOWN: SHST becomes 0b10 once the fetched commands have completed (R416). -/
def execAbruptShutdown (f : Fn) (s : State) : Host.Outcome State Fault Refusal := .next <| s.beginShutdown f 2

/-- A configuration request reaches a function: it has its effect once the function answers configuration requests; before, with
the link up, it is completed with Configuration Request Retry Status (spec/02 R85). With its clock stopped none reaches it (spec/01
Table 1-4). -/
def State.configRequest (f : Fn) (k : State → State) (s : State) : State :=
  if s.linkUp f = false then s else if (s.fn f).cfgReady then k s else s.emitOut (.crs f)

/-- FUNCTION_LEVEL_RESET: a host function reset that takes the function's PCI configuration with it (R412, R413). -/
def execFunctionLevelReset (f : Fn) (s : State) : Host.Outcome State Fault Refusal :=
  .next <| s.configRequest f (State.hostReset f true)

/-! ## Device states (R410, R443, R444) -/

/-- A write of PMCSR: PME_En, and PME_Status cleared by writing 1. -/
def State.writePmcsr (f : Fn) (d3 pmeEn clearPme : Bool) (s : State) : State :=
  s.modFn f fun x => { x with d3hot := d3, pmeEn := pmeEn, pmeStatus := x.pmeStatus && !clearPme }

/-- PMCSR_D3HOT. -/
def execPmcsrD3hot (f : Fn) (pmeEn clearPme : Bool) (s : State) : Host.Outcome State Fault Refusal :=
  .next <| s.configRequest f (State.writePmcsr f true pmeEn clearPme)

/-- PMCSR_D0: data that waited moves, held entries are written first, in completion order, and then the held messages are sent
(R443, R444). -/
def execPmcsrD0 (f : Fn) (pmeEn clearPme : Bool) (s : State) : Host.Outcome State Fault Refusal :=
  .next <| s.configRequest f fun s =>
      let was := (s.fn f).d3hot
      let s := s.writePmcsr f false pmeEn clearPme
      if was = false then s
      else
        let s := s.each (s.ctxs.filter fun x => x.origin == .host f && x.wait == .transfer) fun x s => match x.cpl with
          | some r => s.complete x.id r
          | none => s
        let s := s.each ((s.decided f).filter Ctx.heldD3) fun x s => if s.hasRoom f x then s.postEntry f x else s
        let s := s.each (fins 65) fun v s => s.releaseVec f v
        s.drain

/-! ## Doorbells (R421 to R430) -/

/-- SQ_TAIL_DOORBELL: a valid value is remembered, an invalid one is ignored with an Error event; the shadow tail is read after
it (R421, R423, R428, R433, R468). -/
def execSqTailDoorbell (f : Fn) (q v shadow : Nat) (s : State) : Host.Outcome State Fault Refusal :=
  .next <|
    if s.answers f = false then s.lostWord f
    else match (s.fn f).sq? q with
      | none => s.badRegister f
      | some y =>
        if y.deleting then s.badRegister f
        else
          let s := if y.badTail v then s.badValue f else s.modSq f q fun y => { y with tail := v }
          s.readShadowTail f q shadow

/-- CQ_HEAD_DOORBELL: a valid value frees entries, an invalid one is ignored with an Error event; the shadow head is read after
it (R422, R423, R429). -/
def execCqHeadDoorbell (f : Fn) (q v shadow : Nat) (s : State) : Host.Outcome State Fault Refusal :=
  .next <|
    if s.answers f = false then s.lostWord f
    else match (s.fn f).cq? q with
      | none => s.badRegister f
      | some y =>
        let s := if y.badHead v then s.badValue f else (s.modCq f q fun y => { y with head := v }).quietVec f y.vector
        s.readShadowHead f q shadow

/-- INVALID_DOORBELL_REGISTER: the doorbell of a queue that does not exist is written (R423). -/
def execInvalidDoorbellRegister (f : Fn) (q : Nat) (s : State) : Host.Outcome State Fault Refusal :=
  .next <|
    if s.answers f = true ∧ (((s.fn f).sq? q).isNone = true ∨ ((s.fn f).cq? q).isNone = true) then s.badRegister f else s.lostWord f

/-! ## Contexts (R431 to R433) -/

/-- Contexts in use of a part; a function's own reserve, or the shared pool of both. -/
def State.inUse (s : State) (part : CtxPart) (f : Option Fn) : Nat :=
  (s.ctxs.filter fun x => x.part == part && match f, x.origin with
    | none, _ => true
    | some g, .host h => g == h
    | some _, _ => false).length

/-- Contexts of the shared pool: a disabled port's reserves join it (R432). -/
def State.sharedSize (s : State) : Nat := 7680 + 256 * bit (!s.aon.hostaEn) + 256 * bit (!s.aon.hostbEn)
def State.sharedFree (s : State) : Nat := s.sharedSize - s.inUse .shared none

/-- Free contexts of a function's own reserve. -/
def State.ownFree (s : State) (f : Fn) (admin : Bool) : Nat :=
  if admin then 16 - s.inUse .admin (some f) else 240 - s.inUse .io (some f)

/-- A queue has entries to be fetched (R424, R434, R468). -/
def SubQ.ready (q : SubQ) : Bool := !q.frozen && !q.deleting && q.head != q.tail

/-- The function may fetch (R412, R416, R444). -/
def State.mayFetch (s : State) (f : Fn) : Bool :=
  (s.fn f).rdy && !(s.fn f).d3hot && !(s.fn f).fetchStopped && s.crosses f

def otherFn : Fn → Fn
  | .a => .b
  | .b => .a

/-- A function waits for the shared pool (R433). -/
def State.awaitsPool (s : State) (f : Fn) : Bool :=
  (s.fn f).starved && s.mayFetch f && (s.fn f).sqs.any fun q => q.ready && s.ownFree f (q.id == 0) == 0

/-- Shared contexts a function may take at this turn: one at a time, alternately, while the other waits too (R433). -/
def State.sharedFor (s : State) (f : Fn) : Nat :=
  if s.awaitsPool (otherFn f) then (if s.lastShared = f then 0 else min 1 s.sharedFree) else s.sharedFree

/-! ## Arbitration (R434 to R436) -/

def HostFn.burst (x : HostFn) : Nat := if x.ab = 7 then 128 else 2 ^ x.ab.val

/-- The least of a list of queue numbers. -/
def leastOf : List Nat → Option Nat
  | [] => none
  | a :: r => some (r.foldl min a)

/-- Round robin: the next queue after the one served last. -/
def nextAfter (last : Nat) (ids : List Nat) : Option Nat := (leastOf (ids.filter fun i => decide (last < i))).or (leastOf ids)

/-- Turns taken in the round by high, medium and low: within the weights (R435). -/
def HostFn.credit (x : HostFn) (cls : Fin 5) : Bool :=
  if cls = 1 then decide (x.turns.1 < x.hpw + 1)
  else if cls = 2 then decide (x.turns.2.1 < x.mpw + 1)
  else decide (x.turns.2.2 < x.lpw + 1)

def HostFn.spend (x : HostFn) (cls : Fin 5) : HostFn :=
  if cls = 1 then { x with turns := (x.turns.1 + 1, x.turns.2.1, x.turns.2.2) }
  else if cls = 2 then { x with turns := (x.turns.1, x.turns.2.1 + 1, x.turns.2.2) }
  else if cls = 3 then { x with turns := (x.turns.1, x.turns.2.1, x.turns.2.2 + 1) }
  else x

/-- The queue of a turn and its class (0 urgent, 1 high, 2 medium, 3 low, 4 all), and the function with the turn counted. In a
round the classes are taken in descending order (DESIGN CHOICE, log 42). -/
def HostFn.pick (x : HostFn) : Option (Nat × HostFn) :=
  let ready := x.sqs.filter SubQ.ready
  if ready.any fun q => q.id == 0 then some (0, x)
  else
    let ids (cls : Fin 5) : List Nat := (ready.filter fun q => cls == 4 || q.prio.val == cls.val).map SubQ.id
    let take (x : HostFn) (cls : Fin 5) : Option (Nat × HostFn) :=
      (nextAfter x.rrLast[cls] (ids cls)).map fun q => (q, { x.spend cls with rrLast := upd x.rrLast cls fun _ => q })
    if bits x.cc 13 11 ≠ 1 then take x 4
    else if ids 0 ≠ [] then take x 0
    else
      let live := ([1, 2, 3] : List (Fin 5)).filter fun cls => ids cls != []
      match live.find? x.credit with
      | some cls => take x cls
      | none => match live with
        | cls :: _ => take { x with turns := (0, 0, 0) } cls
        | [] => none

/-- A context for a fetched entry. -/
def Ctx.fresh (id at_ : Nat) (origin : Origin) (sq : Nat) (e : SqEntry) (part : CtxPart) : Ctx :=
  { id := id, origin := origin, sq := sq, entry := e, part := part, stage := .fetched, adm := 0, ana := .optimized
    groups := (.optimized, .optimized), wait := .none, ns := e.nsid.toNat, lba := 0, nlb := 0, update := false, fua := false, data := [], saved := [], got := []
    spilled := false, cpl := none, order := 0, heldD3 := false, lost := false, waitAt := 0, fetchedAt := at_
    failed := [] }

def State.addCtx (origin : Origin) (sq : Nat) (e : SqEntry) (part : CtxPart) (s : State) : State :=
  { s with ctxs := s.ctxs ++ [Ctx.fresh s.nextCtx s.now origin sq e part], nextCtx := s.nextCtx + 1 }

/-- The reads that fetch k entries from a head on: at most 8 contiguous entries each, split at the end of the queue (R424). Fuel:
the entries. -/
def fetchRuns (size : Nat) : Nat → Nat → Nat → List (Nat × Nat)
  | 0, _, _ => []
  | n + 1, head, k =>
    let run := min (min 8 k) (size - head % size)
    if run = 0 then [] else (head % size, run) :: fetchRuns size n (head + run) (k - run)

/-- FETCH_TURN: one arbitration turn of a function; `entries` are the entries as they lie in host memory from the queue's head
on. It ends at the burst, at the last tail read, or when no context is left (R424, R433 to R437); at an event-index crossing
the shadow tail is read once more (R428). -/
def execFetchTurn (f : Fn) (entries : List SqEntry) (shadow : Nat) (s : State) : Host.Outcome State Fault Refusal :=
  .next <|
    if s.mayFetch f = false then s
    else match (s.fn f).pick with
      | none => s.modFn f fun x => { x with starved := false }
      | some (q, x) =>
        match x.sq? q with
        | none => s
        | some y =>
          let want := min (min x.burst y.held) entries.length
          let own := min want (s.ownFree f (q == 0))
          let extra := min (want - own) (s.sharedFor f)
          let k := own + extra
          let s := s.modFn f fun _ => { x with starved := decide (k < want) }
          let parts := List.replicate own (if q = 0 then CtxPart.admin else .io) ++ List.replicate extra .shared
          let s := s.each ((entries.take k).zip parts) fun e s => s.addCtx (.host f) q e.1 e.2
          let s := if extra = 0 then s else { s with lastShared := f }
          let s := s.each (fetchRuns y.size k y.head k) fun r s => s.emitOut (.fetch f q r.1 r.2)
          let s := s.modSq f q fun y => { y with head := (y.head + k) % y.size }
          s.when (decide (0 < k) && k == y.held) (State.readShadowTail f q shadow)

/-! ## Admission (spec/12 R452, R453; spec/18 R622, R628) -/

/-- Admin opcodes that take an action, and the actions they have; a command with another action has an invalid field
(spec/12 Tables 12-5, 12-9 to 12-12, 12-13; spec/13 Table 13-9; spec/16 Table 16-11). -/
def adminFault (e : SqEntry) : Option Cpl :=
  let known (l : List Nat) : Option Cpl := if l.contains (actionOf e) then none else some (Cpl.invalid 10 0)
  let spsp := bits e.cdw10 23 8
  match e.opcode.toNat with
  | 0x00 | 0x01 | 0x04 | 0x05 | 0x06 | 0x08 | 0x0A | 0x0C | 0x11 | 0x15 | 0x7C | 0x80 | 0x84 | 0xC1 | 0xC8 | 0xC9 => none
  | 0x02 => known [0x01, 0x02, 0x05, 0x0C, 0xC0, 0xC1, 0xC2, 0xC3]
  | 0x09 => known [0x01, 0x02, 0x04, 0x06, 0x07, 0x08, 0x09, 0x0B, 0x16, 0xC0, 0xC1, 0xC2, 0xC3, 0xC4]
  | 0x0D => if bits e.cdw10 3 0 ≤ 1 then none else some (Cpl.invalid 10 0)
  | 0x10 => firstBad [(decide (2 < bits e.cdw10 2 0), 10, 0), (decide (2 < bits e.cdw10 5 3), 10, 3)]
  | 0x81 => if spsp = 0x0300 ∨ spsp = 0x0400 then none else some (Cpl.invalid 10 8)
  | 0x82 => if spsp ≤ 0x100 ∨ spsp = 0x200 ∨ spsp = 0x201 ∨ spsp = 0x300 then none else some (Cpl.invalid 10 8)
  | 0xC2 => known (List.range 7)
  | 0xC4 => known (List.range 8)
  | 0xC5 => known (List.range 5)
  | 0xC6 => known (List.range 9)
  | 0xCA => known (List.range 4)
  | 0xCC => known (List.range 3)
  | 0xCD => known (List.range 5)
  | 0xCE => known (List.range 9)
  | _ => some Cpl.badOpcode

/-- The same of I/O commands: opcodes, and the actions of the zone management commands (spec/10 Table 10-4). -/
def ioFault (e : SqEntry) : Option Cpl :=
  let action := bits e.cdw13 7 0
  match e.opcode.toNat with
  | 0x00 | 0x01 | 0x02 | 0x08 | 0x09 | 0x7D => none
  | 0x79 => if [1, 2, 3, 4, 5, 0x10].contains action then none else some (Cpl.invalid 13 0)
  | 0x7A => if action ≤ 1 then none else some (Cpl.invalid 13 0)
  | _ => some Cpl.badOpcode

/-- Whether a command is an update, whose blocks are reserved in admission order (spec/12 R455). -/
def Ctx.updates (x : Ctx) : Bool :=
  isIoOp 0x01 x || isIoOp 0x08 x || isIoOp opZoneAppend x || (isIoOp 0x09 x && bits x.entry.cdw11 2 2 == 1) ||
    (isIoOp 0x79 x && bits x.entry.cdw13 7 0 == 4) || isAdminOp 0x80 x || x.wipes

/-- The blocks a command names: of a zone append and a zone reset the zone, of a reset of all zones and a format the namespace. -/
def State.blocksOf (s : State) (x : Ctx) : Nat × Nat :=
  match s.ns? x.ns with
  | none => (0, 0)
  | some n =>
    if isAdminOp 0x80 x ∨ (isIoOp 0x79 x = true ∧ bits x.entry.cdw13 8 8 = 1) then (0, n.nsze)
    else if isIoOp 0x79 x ∨ isIoOp opZoneAppend x then (slba x.entry, zoneBlocks n.narrow)
    else if x.isAdmin ∨ isIoOp 0x00 x ∨ isIoOp 0x7A x then (0, 0)
    else (slba x.entry, nlbOf x.entry)

def State.anaFor (s : State) (x : Ctx) : AnaState :=
  match s.ns? x.ns, x.fn? with
  | some n, some f => (s.fn f).anaOf n
  | _, _ => .optimized

/-- A host command is forwarded to the peer: paired, its namespace's group is served there, and that group is not in Change; or
it is the coordinator's (spec/18 R623, R628, Table 18-6). -/
def State.forwards (s : State) (x : Ctx) : Bool :=
  let mine := match x.origin with
    | .host _ => true
    | .service _ => true
    | _ => false
  mine && s.pair.mode && s.pair.st == .paired &&
    (if x.isAdmin && (x.entry.opcode == 0x0D || x.entry.opcode == 0xC2) then !s.pair.coordinator
     else match s.ns? x.ns with
      | some n => (!x.isAdmin || isAdminOp 0x80 x) && !s.servesGroup n.ana2 &&
          (s.anaFor x == .optimized || s.anaFor x == .nonOptimized)
      | none => false)

/-- The device runs in PS3, or is on its way there. -/
def State.inOrToPs3 (s : State) : Bool := s.power.inPs3 || s.power.entering || s.govPs == 3

/-- Set Features with Host Behavior Support, which the table gives no row of its own, takes effect as it is admitted: byte 0 of its data
enables Advanced Command Retry on the function (spec/02 R88; the feature and its byte PRESUMED, log 91). -/
def State.hostBehavior (x : Ctx) (s : State) : State :=
  match x.origin with
  | .host f =>
    if isAction 0x09 0x16 x then
      s.orElse x.id (firstBad [(bits x.entry.cdw10 31 31 == 1, 10, 31)]) fun s =>
        (s.modFn f fun y => { y with acre := x.entry.data.getD 0 0 == 1 }).complete x.id Cpl.ok
    else s
  | _ => s.when (isAction 0x09 0x16 x) (State.complete x.id Cpl.badOpcode)

/-- The stripe of the zone of a block is lost (spec/09 R343). -/
def State.zoneLost (s : State) (x : Ctx) (lba : Nat) : Bool :=
  match s.ns? x.ns with
  | some n => n.zoned && (stripeOf (s.nsGroups n) (lba / zoneBlocks n.narrow)).any fun q => s.stripeLost q.1 q.2
  | none => false

/-- A command takes the next place of the admission order (spec/12 R452, R453); an I/O command of a host in PS3 selects the
function's last operational state again (R446); a command with no meaning, or read from a queue past its deletion point,
ends at once (spec/12 R463 step 4, R474, R480). -/
def State.admitCmd (x : Ctx) (s : State) : State :=
  let r := s.blocksOf x
  let fua := (isIoOp 0x01 x || isIoOp 0x08 x || isIoOp opZoneAppend x) && fuaOf x.entry
  let y : Ctx := { x with
    stage := .admitted, ana := s.anaFor x, groups := (x.fn?.map fun f => ((s.fn f).ana1, (s.fn f).ana2)).getD (.optimized, .optimized)
    lba := r.1, nlb := r.2, update := x.updates, fua := fua, lost := s.zoneLost x r.1 }
  let host := match x.origin with
    | .host f => some f
    | _ => none
  let s := match host with
    | some f => s.when (!x.isAdmin && s.inOrToPs3) (State.modFn f fun h => { h with ps := h.lastOp })
    | none => s
  let gone := match host with
    | some f => ((s.fn f).sq? x.sq).any SubQ.deleting
    | none => false
  if gone = false ∧ s.forwards y = true then (s.modCtx x.id fun _ => y).forwardCmd y
  else
    let s := (s.modCtx x.id fun _ => { y with adm := s.admission })
    let s := { s with admission := s.admission + 1 }
    if gone then s.complete x.id (Cpl.err 0x0 0x08)
    else s.orElse x.id (if x.isAdmin then adminFault x.entry else ioFault x.entry) (State.hostBehavior x)

/-- The command to be admitted next: the one fetched first; of two that were fetched at the same instant, one for each function, Port A's
(spec/12 R452; the instant for the fabric clock: DESIGN CHOICE, log 139). -/
def State.nextFetched (s : State) : Option Ctx :=
  let l := s.ctxs.filter fun x => x.stage == .fetched
  l.head?.map fun x =>
    if x.origin = .host .b then (l.find? fun y => y.origin == .host .a && y.fetchedAt == x.fetchedAt).getD x else x

/-- ADMISSION: that command is admitted (spec/12 R452). -/
def execAdmission (s : State) : Host.Outcome State Fault Refusal :=
  .next <|
    match s.nextFetched with
    | some x => s.wake.admitCmd x
    | none => s

/-! ## Interrupt commands -/

/-- COALESCING_TIMER: a vector's timer reaches TIME × 100 µs, and its condition arises (R440, R443). -/
def execCoalescingTimer (f : Fn) (v : Fin 65) (s : State) : Host.Outcome State Fault Refusal :=
  .next <|
    match ((s.fn f).vec v).timerAt with
    | some t =>
      if (s.fn f).time = 0 ∨ coalesced (s.fn f) v = false then s
      else ((s.at_ (t + (s.fn f).time * 100 * Config.us)).modVec f v fun y => { y with timerAt := none }).raiseVec f v
    | none => s

/-- MSIX_UNMASK: a vector is unmasked, or (no vector named) MSI-X is enabled (R442). -/
def execMsixUnmask (f : Fn) (v : Option (Fin 65)) (s : State) : Host.Outcome State Fault Refusal :=
  .next <|
    match v with
    | some i =>
      if s.crosses f = false ∨ (s.fn f).d3hot = true then s.lostWord f
      else (s.modVec f i fun y => { y with masked := false }).releaseVec f i
    | none =>
      s.configRequest f fun s => (s.modFn f fun x => { x with msixEnabled := true }).each (fins 65) fun i s => s.releaseVec f i

/-! ## ANA (R447 to R450) -/

/-- A group's state changes on a function: the change count rises, and a notice is raised if the host has enabled it (bit 11 of
Asynchronous Event Configuration; PRESUMED, log 33). -/
def State.setAna (f : Fn) (group2 : Bool) (st : AnaState) (s : State) : State :=
  let x := s.fn f
  if (if group2 then x.ana2 else x.ana1) = st then s
  else
    let s := s.modFn f fun x =>
      { x with ana1 := if group2 then x.ana1 else st, ana2 := if group2 then st else x.ana2, anaCount := x.anaCount + 1 }
    s.when (x.asyncCfg.getLsbD 11) (State.asyncEvent f 2 3 0x0C)

/-- ANA_CHANGE (R449). In a single configuration the states are those of R448 and do not change. -/
def execAnaChange (f : Fn) (group : Fin 2) (st : AnaState) (s : State) : Host.Outcome State Fault Refusal :=
  .next <| s.when s.pair.mode (State.setAna f (group == 1) st)

/-! ## Data transfer errors (spec/12 R457, Table 12-3) -/

/-- DATA_TRANSFER_ERROR: a PCIe error while a command's data moves ends it; an update ends without applying. -/
def execDataTransferError (c : Nat) (s : State) : Host.Outcome State Fault Refusal :=
  .next <|
    match s.ctx? c with
    | some x =>
      if x.stage = .admitted ∨ x.stage = .awaitData ∨ x.reading = true then
        (s.complete c (Cpl.err 0x0 0x04)).settleOrder.noteClean
      else s
    | none => s

end Sys2Proof.Machine
end

