-- ==== Sys2Proof/Machine/Rebuild.lean ====
section
/-! DEFINITION. Family Rebuild: members that fail and return, Understudy, resynchronisation, reallocation, the surface scan, the
full-HDA format and the sanitize (spec/09 R328 to R330, R343 to R367; spec/08 R286; spec/12 R475; spec/19 R664). -/

namespace Sys2Proof.Machine

/-! ## Members (R328 to R330) -/

/-- An HDA is there, trained and spinning. -/
def State.hdaUp (s : State) (p : PortId) : Bool :=
  s.pins.prsnt.getLsbD p.val && (s.port p).train == 9 && (s.port p).persVerified && (s.spin p).st == .atSpeed

/-- An absent member is in its port again, trained and verified: it is being brought into service (R346, Table 9-3). -/
def State.memberHere (s : State) (p : PortId) : Bool :=
  (s.member p).st == .absent && s.pins.prsnt.getLsbD p.val && (s.port p).train == 9 && (s.port p).persVerified &&
    (s.member p).serial == (s.port p).serial

/-- The state of the member that the member record names for a port (Table 9-3). -/
def State.memberState (s : State) (p : PortId) : MemberSt := if s.memberHere p then .member else (s.member p).st

/-- The state of a port's HDA (Table 9-3): a candidate is not in the member record, or is not the one it names. -/
def State.hdaState (s : State) (p : PortId) : MemberSt :=
  let m := s.member p
  if s.hdaUp p = true ∧ m.st ≠ .member ∧ (m.st = .none ∨ m.serial ≠ (s.port p).serial) then .candidate else s.memberState p

/-- The instant at which a side will have been out of service for 60 s. -/
def outDue (at_ : Option Nat) (ns : Nat) : Option Nat := at_.map fun t => t + 60 * Config.sec - ns

/-- A member or an actuator of it has failed: its record, the event, and an actuator's captures and chunks with it. -/
def State.markFailed (p : PortId) (f : Member → Member) (s : State) : State :=
  (((s.watchSpare (State.modMember p f)).modProt fun q => { q with rebuildHeld := false, rebuildDue := true }).raiseProt 2 p.val).memberRec p

/-- MEMBER_FAILED: the port is marked failed, or both actuators have been out of service for 60 s; one of them alone makes a
failed actuator (R329). A port that the peer owns is the peer's to judge (spec/18 R626). -/
def execMemberFailed (p : PortId) (s : State) : Host.Outcome State Fault Refusal :=
  .next <|
    let s := s.noteService p
    let m := s.member p
    if m.st ≠ .member ∨ s.peerOwns p = true then s
    else if (s.port p).train = 0xA then s.markFailed p fun m => { m with st := .failed }
    else if s.pins.prsnt.getLsbD p.val = false then s
    else
      let up (sd : Side) : Bool := s.actInService (actOf p sd)
      match up 0, up 1, outDue m.outAt0 m.outNs0, outDue m.outAt1 m.outNs1 with
      | false, false, some a, some b => (s.at_ (max a b)).markFailed p fun m => { m with st := .failed }
      | false, true, some a, _ => if m.failed0 then s else (s.at_ a).markFailed p fun m => { m with failed0 := true }
      | true, false, _, some b => if m.failed1 then s else (s.at_ b).markFailed p fun m => { m with failed1 := true }
      | _, _, _, _ => s

/-! ## Targets (R351, R360) -/

/-- The first number, of `count` from k on, that will do. -/
def firstFree (ok : Nat → Bool) : Nat → Nat → Option Nat
  | 0, _ => none
  | n + 1, k => if ok k then some k else firstFree ok n (k + 1)

/-- A track of a head lies in the half-band of a place. -/
def State.covers (s : State) (pl : Place) (h : Fin 12) (track : Nat) : Bool :=
  match s.locateChunk pl 0, s.locateChunk pl 16383 with
  | some l, some m => l.head == h && decide (min l.track m.track ≤ track) && decide (track ≤ max l.track m.track)
  | _, _ => false

/-- A place is bad (R350): a sector of it has not decoded, or needed a re-read in a surface scan, its head is marked failed, or a write
operation on a track of it has ended with report_op 2. -/
def State.placeBad (s : State) (pl : Place) : Bool :=
  let a := s.actOfPlace pl
  s.prot.bad.any (fun q => q.1 == pl) || s.prot.marked.contains pl ||
    ((s.acal a).heads.toList.any HeadCal.failed && (s.locateChunk pl 0).any fun l => (s.acal a).heads[l.head].failed) ||
    (s.seq a).unwritten.any fun q => s.covers pl q.1 q.2

/-- A free spare chunk on a present actuator of a port, under a head that is not failed; a free defect-reserve chunk; a free pool
slot. -/
def State.freeSpare (s : State) (p : PortId) : Option Place :=
  let m := s.member p
  let n0 := 2 * spareBands m.bands0
  let ok (k : Nat) : Bool := !m.spareUsed.contains k && !s.placeBad (.spare p k)
  ((if s.actPresent (actOf p 0) then firstFree ok n0 0 else none).or
    (if s.actPresent (actOf p 1) then firstFree ok (2 * spareBands m.bands1) n0 else none)).map (Place.spare p)

def State.freeReserve (s : State) (p : PortId) : Option Place :=
  let m := s.member p
  let n0 := 2 * reserveBands m.bands0
  let ok (k : Nat) : Bool := !m.reserveUsed.contains k && !s.placeBad (.reserve p k)
  ((if s.actPresent (actOf p 0) then firstFree ok n0 0 else none).or
    (if s.actPresent (actOf p 1) then firstFree ok (2 * reserveBands m.bands1) n0 else none)).map (Place.reserve p)

/-- A pool slot is free when no extent holds it. -/
def Member.slotFree (m : Member) (k : Nat) : Bool :=
  decide (k < m.poolSlots) && m.slotsUsed.all fun q => decide (k < q.1) || decide (q.1 + q.2 ≤ k)

def State.freeSlot? (s : State) (p : PortId) : Option Place :=
  let m := s.member p
  (firstFree (fun k => m.slotFree k && s.actPresent (s.actOfPlace (.pool p k)) && !s.placeBad (.pool p k)) m.poolSlots 0).map
    (Place.pool p)

/-- Free defect-reserve chunks and pool slots of a member. -/
def Member.reserveFree (m : Member) : Nat := m.reserveChunks - m.reserveUsed.length
def Member.poolFree (m : Member) : Nat := m.poolSlots - (m.slotsUsed.map Prod.snd).sum

/-- Of the members that have an eligible place, that of the one with the most free ones; ties go to the lowest port (R360). -/
def State.mostFree (s : State) (free : Member → Nat) (pick : PortId → Option Place) (ps : List PortId) : Option Place :=
  (sortBy (fun p => 0x1000000 - free (s.member p)) (ps.filter fun p => (pick p).isSome)).head?.bind pick

/-- A spare chunk under R360, or one of the later choices. -/
def State.spareOf (s : State) (ps : List PortId) : Option Place := s.mostFree Member.spareFree s.freeSpare ps
def State.reserveOf (s : State) (ps : List PortId) : Option Place := s.mostFree Member.reserveFree s.freeReserve ps
def State.slotOf (s : State) (ps : List PortId) : Option Place := s.mostFree Member.poolFree s.freeSlot? ps

/-- Present members that hold no chunk of a stripe, nor a target taken already; the member of a chunk that is only resynchronised
holds no other one (R346, R360; the fresh chunk of a resync under R360: DESIGN CHOICE, log 135). -/
def State.targetPorts (s : State) (g : Group) (i j : Nat) (taken : List PortId) : List PortId :=
  let own := s.chunkMissing g i j && s.onlyTouched g i j
  let holds := ((List.range g.width).filter fun t => !(t == j && own)).map fun t => (s.placeOf g i t).port
  (fins 32).filter fun p => (s.member p).st == .member && !holds.contains p && !taken.contains p

/-- A rebuilt chunk's place: its home on a replacement (R364); else a spare chunk, then a defect-reserve chunk, then a free pool slot, of
the member with the most free ones (R360). -/
def State.chooseTarget (s : State) (g : Group) (i j : Nat) (taken : List PortId) : Option Place :=
  let home : Place := .pool (g.home i j).1 (g.home i j).2
  let others := (List.range g.width).filter (· != j)
  if s.prot.homecoming.contains home.port = true ∧ s.placeMissing home = false ∧ s.placeBad home = false ∧
      (others.all fun t => (s.placeOf g i t).port != home.port) = true ∧ taken.contains home.port = false then some home
  else
    let ps := s.targetPorts g i j taken
    ((s.spareOf ps).or (s.reserveOf ps)).or (s.slotOf ps)

/-- Targets of chunks of a stripe, on distinct members. -/
def State.chooseTargets (s : State) (g : Group) (i : Nat) (js : List Nat) : Option (List (Nat × Place)) :=
  js.foldl (fun (acc : Option (List (Nat × Place))) j => acc.bind fun l =>
    (s.chooseTarget g i j (l.map fun q => q.2.port)).map fun pl => l ++ [(j, pl)]) (some [])

/-! ## Understudy's course (R355, R356, R365) -/

/-- The rows of the media cache with a missing strip are written again as new rows (R356 step 1). -/
def State.rewriteMcRows (s : State) : State :=
  s.each s.mcTodo fun r s =>
    let blocks := r.blocks.zipIdx.filterMap fun q => (s.mcBlock r q.2).map fun b => (q.1.1, b)
    match (if s.mayWrite then s.putMcRow r.ns r.kind blocks else none) with
    | none => s
    | some t =>
      let t := t.modProt fun p => { p with mcRows := p.mcRows.filter fun y => y.id != r.id }
      if r.kind = .pack then
        t.each blocks.zipIdx fun q t =>
          if s.mapEntry r.ns q.1.1 = mapWord 2 (r.id * 512 + q.2) then t.setMap r.ns q.1.1 (mapWord 2 (s.prot.nextMc * 512 + q.2)) else t
      else t

/-- The phase of the media-cache rows: they are written again, and the stripes follow; a row that found no place is tried again with the
next UNDERSTUDY_START (R356; DESIGN CHOICE, log 137). -/
def State.mcPhase (s : State) : State :=
  if s.prot.rebuildPhase = 2 then s.rewriteMcRows.rebuildTo 3 s.prot.rebuildState else s

/-- A failure that starts Understudy at once (R355). -/
def State.failedNow (s : State) : Bool := s.prot.members.toList.any fun m => m.st == .failed || (m.st == .member && (m.failed0 || m.failed1))

/-- The rebuild runs: media-cache rows first, then the stripes (R356). -/
def State.runRebuild (origin : Nat) (s : State) : State :=
  let q := match s.rebuild? with
    | some o => (s, o.handle)
    | none => s.newRebuild .running origin
  let s := q.1
  let n := s.todo.length
  let s := s.modOp q.2 fun o => { o with st := .running, total := o.done + n }
  let s := s.modProt fun p => { p with
    rebuildHandle := q.2, rebuildDone := 0, rebuildTotal := n, checkpoint := 0, checkAck := none, started := 0, rebuildHeld := false
    rebuildDue := false }
  ((s.rebuildTo (if s.mcTodo = [] then 3 else 2) 1).mirrorCheckpoint 0).rebuildEnd

/-- A later failure joins the rebuild in progress: what it adds counts, its media-cache rows come next, and a return phase goes back to
the stripes (R355, R356). -/
def State.joinRebuild (s : State) : State :=
  let n := s.prot.rebuildDone + s.todo.length
  let s := s.modProt fun p => { p with rebuildTotal := max p.rebuildTotal n, rebuildDue := false }
  if s.prot.rebuildPhase = 2 then s.mcPhase.rebuildEnd
  else if s.mcTodo ≠ [] then s.rebuildTo 2 s.prot.rebuildState
  else if s.todo ≠ [] then s.rebuildTo 3 s.prot.rebuildState
  else s.rebuildEnd

/-- UNDERSTUDY_START: at once on a failure, or rebuild_delay after a member became absent; a later failure joins the rebuild in
progress (R355). After a cancel a new failure comes first (R365; log 118). -/
def execUnderstudyStart (s : State) : Host.Outcome State Fault Refusal :=
  .next <|
    let go (s : State) : State :=
      if s.failedNow = true ∧ (s.prot.rebuildDue = true ∨ s.todo ≠ [] ∨ s.mcTodo ≠ []) then s.runRebuild 3
      else match s.absentSince with
        | some t => (s.at_ (t + s.nor.config.rebuildDelay * Config.sec)).runRebuild 3
        | none => s
    if s.names.dumping = true ∨ s.boot.complete = false ∨ s.destageFirst = true ∨ s.coordinates = false then s
    else match s.rebuild? with
      | some o =>
        if o.st = .waiting then go s
        else if s.prot.rebuildPhase.val < 2 ∨ o.st = .suspended then s
        else s.joinRebuild
      | none => if s.prot.rebuildHeld then s else go s

/-! ## Runs of a stripe (R357 to R359) -/

/-- The blocks of a row of a stripe, as namespace and LBA: of a conventional namespace those whose entries point there. -/
def State.rowNames (s : State) (g : Group) (i row : Nat) : List (Nat × Nat) :=
  match s.ns? g.ns with
  | none => []
  | some x =>
    let z := s.zoneOfStripe g i
    let lo := z * zoneBlocks x.narrow + row * rowBlocks x.narrow
    if x.zoned then (List.range (rowBlocks x.narrow)).map fun n => (g.ns, lo + n)
    else (s.names.map.filter fun m => m.ns == g.ns && mapKind m.entry == 1 && decide (lo ≤ mapPlace m.entry) &&
      decide (mapPlace m.entry < lo + rowBlocks x.narrow)).map fun m => (g.ns, m.lba)

/-- A row that cannot be produced: its blocks are listed as lost, with the event; reads that wait for one end (R359). -/
def State.loseRow (g : Group) (i row : Nat) (s : State) : State :=
  let l := (s.rowNames g i row).filter fun q => !s.names.lost.contains q
  ((s.modNames fun n => { n with lost := n.lost ++ l }).raiseProt 6 noSource).wakeReads g.ns fun b => l.contains (g.ns, b)

/-- Source strips of a row: present, readable, and not named as unreadable. -/
def State.rowSources (s : State) (g : Group) (i row : Nat) (unreadable : List (Nat × Nat)) (breaks : Bool) : List Nat :=
  (List.range g.width).filter fun t =>
    !unreadable.contains (row, t) && ((List.range 64).all fun o => s.sectorOk s.prot.bad g i t (64 * row + o)) &&
      (breaks || (s.acal (s.actOfPlace (s.placeOf g i t))).brk.isNone)

/-- A strip is written to a place; on a port of the peer's it goes there as a media request (spec/18 R626). -/
def State.putStrip (pl : Place) (row : Nat) (blocks : List Blk) (s : State) : State :=
  (s.each blocks.zipIdx fun q s => s.modProt (Prot.putSector pl (64 * row + q.2) q.1)).askStrip pl row blocks

/-- The missing chunks of a row are reconstructed and written to their targets; a row short of sources is lost. -/
def State.rebuildRow (g : Group) (i row : Nat) (targets : List (Nat × Place)) (unreadable : List (Nat × Nat)) (s : State) : State :=
  let src := (s.rowSources g i row unreadable false).take g.k
  let data (o : Nat) : Option (List Blk) :=
    if src.length < g.k then none else solveRow g.k (src.map fun t => (t, s.sectorAt (s.placeOf g i t) (64 * row + o)))
  let rows := (List.range 64).map data
  let s := s.when (rows.any Option.isNone) (State.loseRow g i row)
  s.each targets fun q s => s.putStrip q.2 row (rows.map fun d => match d with
    | some d => chunkBlk g.k q.1 d
    | none => 0)

/-- The rows of a chunk at a place can be written now: a further actuator may write, and none of their heads is held, failed or in a break
(spec/01 R30; spec/08 R299, R309, R311). -/
def State.canPut (s : State) (pl : Place) (rows : List Nat) : Bool :=
  !s.placeMissing pl && (s.peerOwns pl.port ||
    (s.mayWriteOn (s.actOfPlace pl) && rows.all fun r => s.canWriteAt (s.actOfPlace pl) (s.locateChunk pl (64 * r))))

/-- A stripe comes under work: its targets are taken and hold nothing yet (R360). -/
def State.addWork (g : Group) (w : Work) (s : State) : State :=
  (s.watchSpare fun s => s.each w.targets fun q s =>
    let home : Place := .pool (g.home w.stripe q.1).1 (g.home w.stripe q.1).2
    (s.modProt (Prot.dropChunk q.2)).when (q.2 != home) (State.modMember q.2.port (Member.take q.2))).modProt fun p =>
      { p with works := p.works ++ [w] }

/-- The work on a stripe. -/
def State.work? (s : State) (g : Group) (i : Nat) : Option Work := s.prot.works.find? fun w => w.group == g.number && w.stripe == i

/-- The rebuild runs, or waits for a target; work that is under way goes on while a cancel waits for it (R361, R365). -/
def State.rebuilding (s : State) : Bool := match s.rebuild? with
  | some o => o.st == .running || o.st == .blocked
  | none => false

/-- The next stripe of R356 that the rebuild takes. -/
def State.nextStripe (s : State) : Option (Group × Nat) :=
  s.todo.find? fun q => (s.work? q.1 q.2).isNone && !s.resyncs q.1 q.2

/-- Nothing is under way on a stripe that this controller looks after: no work, and no row of it (R358). -/
def State.stripeIdle (s : State) (g : Group) (i : Nat) : Bool :=
  (s.work? g i).isNone && s.coordinates && !(s.names.flights.any fun f => f.ns == g.ns && f.zone == s.zoneOfStripe g i)

/-- The rebuild may take a stripe: the next one in the order of R356 while fewer than four are in progress, the rebuild runs and is not to
be cancelled (R356, R357, R365). -/
def State.mayRebuild (s : State) (g : Group) (i : Nat) : Bool :=
  s.rebuilding && s.prot.rebuildPhase == 3 && !(s.rebuild?.any LongOp.cancelAsked) &&
    decide ((s.prot.works.filter fun w => w.kind == .rebuild).length < 4) && s.nextStripe == some (g, i)

/-- A blocked rebuild has found a target again (R361). -/
def State.unblock (s : State) : State :=
  match s.rebuild? with
  | some o => if o.st = .blocked then (s.modOp o.handle fun o => { o with st := .running }).rebuildTo s.prot.rebuildPhase 1 else s
  | none => s

/-- A stripe is taken with its targets: by the rebuild with all its missing chunks, when it may be; else its touched chunks are
resynchronised, unless the stripe is lost, whether or not a rebuild of the others waits (R346, R353). -/
def State.takeStripe (g : Group) (i : Nat) (s : State) : State :=
  if s.stripeIdle g i = false then s
  else if s.resyncs g i = false ∧ s.mayRebuild g i = true then
    match s.chooseTargets g i (s.missingOf g i) with
    | some (t :: ts) =>
      ((s.addWork g { kind := .rebuild, group := g.number, stripe := i, targets := t :: ts, runs := [], acks := none
                      order := s.prot.started }).modProt fun p => { p with started := p.started + 1 }).unblock
    | _ => s
  else if s.stripeLost g i then s
  else
    match s.chooseTargets g i (s.touchedOf g i) with
    | some (t :: ts) =>
      s.addWork g { kind := .resync, group := g.number, stripe := i, targets := t :: ts, runs := [], acks := none, order := 0 }
    | _ => s

/-- A target write has ended with report_op 2, or a target's head has failed: new targets, and the stripe is rebuilt again (Table
9-8). -/
def State.retarget (g : Group) (i : Nat) (s : State) : State :=
  match s.work? g i with
  | none => s
  | some w =>
    if w.acks.isSome = true ∨ (w.targets.any fun q => s.placeBad q.2) = false then s
    else
      let t := s.modProt (Prot.releaseWorks fun y => y == w)
      match t.chooseTargets g i (if w.kind = .resync then t.touchedOf g i else t.missingOf g i) with
      | some (q :: qs) => t.addWork g { w with targets := q :: qs, runs := [] }
      | _ => (s.dropWorks fun y => y == w).worksGone

/-- The work on a stripe may go on: a resync always, a stripe of the rebuild while that runs (R365). -/
def State.worksOn (s : State) (w : Work) : Bool := w.kind != .rebuild || s.rebuilding

/-- SOURCE_RUN_READ: a run of 32 rows of the sources is in DRAM, the missing chunks of it are reconstructed and their targets take them,
run by run; at most four stripes are in progress, in the order of R356, each with its targets (R323, R357 to R360, R367). A run waits
while only calibration breaks keep sources from it. The firmware's reads of the sources are DESCRIPTOR_QUEUED commands of class 1 (log
133). -/
def execSourceRunRead (group stripe run : Nat) (unreadable : List (Nat × Nat)) (s : State) : Host.Outcome State Fault Refusal :=
  .next <|
    match s.group? group with
    | none => s
    | some g =>
      if g.h ≤ stripe ∨ 8 ≤ run ∨ s.names.dumping = true ∨ s.destageFirst = true ∨ s.mem.halted.contains 0x02 = true then s
      else
        let s := (s.mcPhase.retarget g stripe).takeStripe g stripe
        match s.work? g stripe with
        | none => s
        | some w =>
          let rows := ((List.range 32).map (32 * run + ·)).filter fun r => decide (r < s.rowsOf g stripe)
          let waits := rows.any fun r => decide ((s.rowSources g stripe r unreadable false).length < g.k) &&
            decide (g.k ≤ (s.rowSources g stripe r unreadable true).length)
          if w.runs.length ≠ run ∨ w.acks.isSome = true ∨ s.worksOn w = false ∨ waits = true ∨
              (w.targets.all fun q => s.canPut q.2 rows) = false then s
          else (s.each rows fun r s => s.rebuildRow g stripe r w.targets unreadable).modProt fun p => { p with
            works := mapWhere (fun y => y.group == group && y.stripe == stripe) (fun y => { y with runs := y.runs ++ [run] }) p.works }

/-- A stripe's work ends in its commit: it counts, or the chunk has been reallocated or is home again (R350, R357, R364). -/
def State.commitWork (w : Work) (s : State) : State :=
  let s := s.modProt fun p => { p with works := p.works.filter fun y => y != w }
  match s.group? w.group with
  | none => s
  | some g =>
    let was := (w.targets.head?.map fun q => (s.placeOf g w.stripe q.1).port).getD 0
    let s := s.commitPlaces g w.stripe w.targets (w.kind == .reallocate)
    (match w.kind with
      | .rebuild | .resync => s.stripeDone g w.stripe
      | .reallocate => (s.raiseProt 8 was.val).modProt fun q => { q with reallocations := min 0xFFFFFFFF (q.reallocations + 1) }
      | .homecoming => s.commitPoint).bufferChanged

/-- The record of a work is on media: the new places are committed, in a pair once their mirror is acknowledged too (R357; spec/18
R641). -/
def State.submitWork (w : Work) (s : State) : State :=
  if s.mirrors then
    let first := s.pair.msgSeq
    let s := s.each w.targets fun q s => s.excRec w.group w.stripe q.1 q.2
    let seqs := (List.range w.targets.length).map fun k => first + 1 + BitVec.ofNat 32 k
    s.modProt fun p => { p with works := mapWhere (fun y => y == w) (fun y => { y with acks := some seqs }) p.works }
  else s.commitWork w

/-- A write to a place that the peer has been asked for is not yet answered (spec/18 R626). -/
def State.writeDue (s : State) (pl : Place) : Bool := s.pair.unanswered.any fun m => m.type == 0x08 && match m.payload with
  | [_, _, 1, _, _, _, _, first, _] => ((m.sectorAt first).bind s.sectorOf).any fun x => x.place == pl
  | _ => false

/-- STRIPE_COMMIT: every run of the stripe is on media and two copies of its exception record too (R357); a stripe with no written row
has its new places committed without any write (R356). -/
def execStripeCommit (group stripe copies : Nat) (s : State) : Host.Outcome State Fault Refusal :=
  .next <|
    match s.group? group with
    | none => s
    | some g =>
      if copies < 2 ∨ g.h ≤ stripe ∨ s.names.dumping = true ∨ s.destageFirst = true then s
      else
        let s := s.mcPhase.retarget g stripe
        let s := s.when (s.rowsOf g stripe == 0) (State.takeStripe g stripe)
        match s.work? g stripe with
        | none => s
        | some w =>
          if w.runs.length < ceilDiv (s.rowsOf g stripe) 32 ∨ w.acks.isSome = true ∨ s.worksOn w = false ∨
              w.kind = .reallocate ∨ w.kind = .homecoming ∨ (w.targets.any fun q => s.writeDue q.2) = true then s
          else s.submitWork w

/-- A checkpoint is on media, and in a pair acknowledged; an entry to PS3 suspends here (R362, R365). -/
def State.checkpointDone (n : Nat) (s : State) : State :=
  let s := s.modProt fun p => { p with checkpoint := n, checkAck := none }
  match s.rebuild? with
  | none => s
  | some o =>
    let s := s.modOp o.handle fun o => { o with cursor := o.done }
    if o.byPs3 = true ∧ o.suspendAsked = true then (s.opPoint o.handle).rebuildTo s.prot.rebuildPhase 2 else s

/-- REBUILD_CHECKPOINT: 256 stripes further, in the order of R356, the position below which every stripe is committed is written to three
members, and in a pair mirrored (R362). -/
def execRebuildCheckpoint (s : State) : Host.Outcome State Fault Refusal :=
  .next <|
    let n := s.committedBelow
    if s.rebuild?.isNone = true ∨ s.prot.checkAck.isSome = true ∨ n < s.prot.checkpoint + 256 then s
    else
      let s := s.record (.checkpoint n)
      if s.mirrors then
        let s := s.mirrorCheckpoint n
        s.modProt fun p => { p with checkAck := some (n, s.pair.msgSeq) }
      else s.checkpointDone n

/-- REBUILD_RESUME: after a reset or a takeover Understudy goes on from its newest checkpoint; committed stripes are skipped, and the
others are rebuilt again (R363). -/
def execRebuildResume (s : State) : Host.Outcome State Fault Refusal :=
  .next <|
    match s.rebuild? with
    | none => s
    | some o =>
      if s.prot.rebuildPhase ≠ 0 ∨ s.boot.complete = false ∨ o.st = OpState.waiting then s
      else if o.cancelAsked then s.worksGone
      else
        let s := (s.modProt fun p => { p with
          rebuildHandle := o.handle, rebuildDone := o.done, rebuildTotal := o.done + s.todo.length, started := o.done }).raiseProt 3 noSource
        let st : Fin 5 := match o.st with
          | .suspended => 2
          | .blocked => 3
          | _ => 1
        (s.rebuildTo (if s.mcTodo = [] then 3 else 2) st).rebuildEnd.worksGone

/-- REBUILD_BLOCKED: no target is eligible for the next stripe (R361). -/
def execRebuildBlocked (s : State) : Host.Outcome State Fault Refusal :=
  .next <|
    match s.rebuild?, s.nextStripe with
    | some o, some q =>
      if o.st = .running ∧ (s.chooseTargets q.1 q.2 (s.missingOf q.1 q.2)).isNone = true then
        ((s.modOp o.handle fun o => { o with st := .blocked }).rebuildTo s.prot.rebuildPhase 3).raiseProt 4 noSource
      else s
    | _, _ => s

/-! ## One chunk moved: reallocation and the return phase (R350 to R352, R364) -/

/-- The written rows of a chunk are copied to a place; what cannot be read is reconstructed, or its row is lost (R351). -/
def State.copyChunk (g : Group) (i j : Nat) (pl : Place) (s : State) : State :=
  s.each (List.range (s.rowsOf g i)) fun r s =>
    let strip := (List.range 64).map fun o => s.mediaBlk s.prot.bad g i j (64 * r + o)
    (s.when (strip.any Option.isNone) (State.loseRow g i r)).putStrip pl r (strip.map fun b => b.getD 0)

/-- Only calibration breaks keep a sector of a chunk from being had: enough other strips have not failed (Table 9-8). -/
def State.breakWaits (s : State) (g : Group) (i j n : Nat) : Bool :=
  (s.mediaBlk s.prot.bad g i j n).isNone &&
    decide (g.k ≤ ((List.range g.width).filter fun t => t != j && s.sectorOk s.prot.bad g i t n).length)

/-- A chunk moves to a place: its rows are copied there, and the place is committed (R351, R357, R364). It waits while its stripe is under
work, its new place cannot be written, or breaks keep its sectors away. -/
def State.moveChunk (kind : WorkKind) (g : Group) (i j : Nat) (pl : Place) (s : State) : State :=
  if (s.work? g i).isSome = true ∨ s.canPut pl (List.range (s.rowsOf g i)) = false ∨
      ((List.range (64 * s.rowsOf g i)).any (s.breakWaits g i j)) = true then s
  else
    let w : Work := { kind := kind, group := g.number, stripe := i, targets := [(j, pl)], runs := [], acks := none, order := 0 }
    (((s.modNames Names.dropFlights).addWork g w).copyChunk g i j pl).submitWork w

/-- The target of a reallocation: reserve on the same member, spare under R360, a free pool slot (R351). -/
def State.reallocTarget (s : State) (g : Group) (i j : Nat) : Option Place :=
  let p := (s.placeOf g i j).port
  let ps := s.targetPorts g i j []
  ((if (s.member p).st = .member then s.freeReserve p else none).or (s.spareOf ps)).or (s.slotOf ps)

/-- A chunk is copied to a new target and committed there; its old place is not used again (R350 to R352). -/
def State.reallocate (g : Group) (i j : Nat) (s : State) : State :=
  match s.chunkMissing g i j, s.reallocTarget g i j with
  | false, some pl => s.moveChunk .reallocate g i j pl
  | _, _ => s

/-- A chunk is to be reallocated (R350). -/
def State.reallocDue (g : Group) (i j : Nat) (s : State) : Bool := s.placeBad (s.placeOf g i j)

/-- REALLOCATION of a chunk that is due (R350); its reads are DESCRIPTOR_QUEUED commands of class 1 (R353; log 133). -/
def execReallocation (group stripe chunk : Nat) (s : State) : Host.Outcome State Fault Refusal :=
  .next <|
    match s.group? group with
    | some g =>
      if stripe < g.h ∧ chunk < g.width ∧ s.names.dumping = false ∧ s.destageFirst = false ∧ s.reallocDue g stripe chunk = true then
        s.reallocate g stripe chunk
      else s
    | none => s

/-- RETURN_PHASE_COPY: a chunk that lies elsewhere is copied back to its home on a replacement, its exception goes and its
place is freed (R364). -/
def execReturnPhaseCopy (group stripe chunk : Nat) (s : State) : Host.Outcome State Fault Refusal :=
  .next <|
    match s.group? group, s.rebuild? with
    | some g, some o =>
      if s.prot.rebuildPhase = 4 ∧ o.st = .running ∧ o.cancelAsked = false ∧ s.names.dumping = false ∧ s.destageFirst = false ∧
          (s.away.any fun e => e.group == group && e.stripe == stripe && e.chunk == chunk) = true then
        s.moveChunk .homecoming g stripe chunk (.pool (g.home stripe chunk).1 (g.home stripe chunk).2)
      else s
    | _, _ => s

/-! ## An absent member returns (R344, R346) -/

/-- An Understudy work on a chunk of a member that is back ends uncommitted (Table 9-8). -/
def State.memberBack (p : PortId) (s : State) : State :=
  s.dropWorks fun w => match s.group? w.group with
    | some g => w.targets.any fun t => (s.placeOf g w.stripe t.1).port == p
    | none => false

/-- MEMBER_RETURNED: trained and verified again, with its serial, an absent member is a member; only its touched chunks are
resynchronised, and lost stripes that are degraded again take their rows back by destage (R344, R346, R731; spec/19
R664). -/
def execMemberReturned (p : PortId) (s : State) : Host.Outcome State Fault Refusal :=
  .next <|
    if s.memberHere p then
      let s := s.memberBack p
      let back (m : Member) : Member := { m with st := .member, outAt0 := none, outAt1 := none, outNs0 := 0, outNs1 := 0 }
      let s := (s.watchSpare (State.modMember p back)).noteService p
      let s := (s.raiseProt 0 p.val).memberRec p
      let s := match s.rebuild? with
        | some o =>
          if o.st = OpState.waiting ∧ s.absentSince.isNone = true then
            (s.endOp o.handle .completed 0).rebuildTo 0 0
          else s
        | none => s
      s.rebuildEnd.worksGone.bufferChanged
    else s

/-! ## The class of a read (spec/07 R260, Table 7-2) -/

/-- Cleaning's reads are foreground: less than 15 % of the media-cache space is free, or no more than the reserve (spec/10 R391,
Table 10-8). -/
def State.cleanFirst (s : State) : Bool := decide (100 * s.mcFree < 15 * s.mcTotal) || decide (s.mcFree ≤ s.dumpReserve)

/-- The class of a read (spec/07 Table 7-2): reads for a host command and calibration are foreground; those of Understudy, of a resync and
of a reallocation are rebuild (R353); a surface scan, cleaning, reclamation and sanitize verification are background (R354; spec/10
R391, R392). -/
def State.readClass (s : State) (why : ReadFor) (d : Descriptor) : OpClass :=
  if d.write then d.cls
  else if d.ctx.isSome then 0
  else match why with
    | .host | .calibration => 0
    | .understudy | .resync | .reallocation => 1
    | .surfaceScan | .reclamation | .sanitize => 2
    | .cleaning => if s.cleanFirst then 0 else 2

/-- DESCRIPTOR_QUEUED: a read or write operation at the end of the queue, a read in the class of what it is made for (spec/06 R215;
spec/07 R260); while its port is being handed over the peer is asked for it (spec/18 R653). -/
def execDescriptorQueued (a : ActId) (d : QueuedOp) (s : State) : Host.Outcome State Fault Refusal :=
  .next <|
    let d := { d.d with cls := s.readClass d.why d.d, reread := 0 }
    if s.handsOver (portOf a) then s.askMedia a d 0 0
    else (s.modSeq a fun q => { q with queue := q.queue ++ [d] }).noteRequest a

/-! ## Surface scan (R354) -/

/-- The place with a number on a port: pool slots, then spare chunks, then defect-reserve chunks (DESIGN CHOICE, log 39). -/
def Member.placeNo (m : Member) (p : PortId) (k : Nat) : Place :=
  if k < m.poolSlots then .pool p k
  else if k < m.poolSlots + m.spareChunks then .spare p (k - m.poolSlots)
  else .reserve p (k - m.poolSlots - m.spareChunks)

def Member.noOf (m : Member) : Place → Nat
  | .pool _ k => k
  | .spare _ k => m.poolSlots + k
  | .reserve _ k => m.poolSlots + m.spareChunks + k

/-- The chunks with written rows on the ports of a mask: port, place number, group, stripe, chunk; by port and number. -/
def State.scanList (s : State) (mask : W32) : List (PortId × Nat × Group × Nat × Nat) :=
  sortBy (fun q => q.1.val * 2 ^ 32 + q.2.1) (s.stripes.flatMap fun q =>
    if s.rowsOf q.1 q.2 = 0 then []
    else ((List.range q.1.width).map fun j => (s.placeOf q.1 q.2 j, j)).filterMap fun t =>
      if mask.getLsbD t.1.port.val ∧ s.chunkMissing q.1 q.2 t.2 = false then
        some (t.1.port, (s.member t.1.port).noOf t.1, q.1, q.2, t.2)
      else none)

/-- The written strips of those chunks, in that order. -/
def State.scanStrips (s : State) (mask : W32) : List ((PortId × Nat × Group × Nat × Nat) × Nat) :=
  (s.scanList mask).flatMap fun q => (List.range (s.rowsOf q.2.2.1 q.2.2.2.1)).map fun r => (q, r)

/-- Where a strip stands in the order of a scan: by port, place and strip. -/
def scanKey (q : PortId × Nat × Group × Nat × Nat) (strip : Nat) : Nat := (q.1.val * 2 ^ 32 + q.2.1) * 256 + strip

/-- The end of a scan's strip: a suspend of PS3 takes effect at a checkpoint only (spec/12 R477, Table 12-4). -/
def State.scanPoint (o : LongOp) (n : Nat) (s : State) : State :=
  if o.byPs3 = true ∧ o.cancelAsked = false ∧ n % 1024 ≠ 0 then s else s.opPoint o.handle

/-- SURFACE_SCAN_STRIP: the scan reads the next written strip; a chunk with a sector that needed a re-read is reallocated, now or, where
that cannot be done now, with a later REALLOCATION (R354, R350). Its checkpoint is kept every 1,024 strips (spec/12 Table 12-4). -/
def execSurfaceScanStrip (p : PortId) (slot strip : Nat) (neededReread : Bool) (s : State) : Host.Outcome State Fault Refusal :=
  .next <|
    match (s.running 3).find? fun o => o.p0.getLsbD p.val with
    | none => s
    | some o =>
      let l := (s.scanStrips o.p0).filter fun q => decide (o.from_ ≤ scanKey q.1 q.2)
      match l with
      | [] => s.endOp o.handle .completed 0
      | (q, r) :: rest =>
        if q.1 ≠ p ∨ q.2.1 ≠ slot ∨ r ≠ strip ∨ s.destageFirst = true ∨ s.names.dumping = true then s
        else
          let pl := s.placeOf q.2.2.1 q.2.2.2.1 q.2.2.2.2
          let s := s.when neededReread fun s => (s.modProt fun t => { t with
            marked := if t.marked.contains pl then t.marked else t.marked ++ [pl] }).reallocate q.2.2.1 q.2.2.2.1 q.2.2.2.2
          let n := o.done + 1
          let k := scanKey q r + 1
          let s := s.modOp o.handle fun o => { o with
            done := n, total := n + rest.length, from_ := k, cursor := if n % 1024 = 0 then n else o.cursor
            kept := if n % 1024 = 0 then k else o.kept }
          if rest = [] then s.endOp o.handle .completed 0 else s.scanPoint o n

/-! ## Full-HDA format (R330, R348, R349, R364) -/

/-- The member that a format of kind 4 replaces: the one named, or the port itself. -/
def LongOp.formatPort (o : LongOp) : PortId := Fin.ofNat 32 (bits o.p0 4 0)
def LongOp.replaced (o : LongOp) : PortId := if bits o.p0 8 8 = 1 then Fin.ofNat 32 (bits o.p0 20 16) else o.formatPort

/-- Usable bands of a side: those that are not defective (R349). -/
def State.usableBands (s : State) (p : PortId) (sd : Side) : Nat :=
  ((List.range (s.rawBands p sd)).filter fun n => !s.defective p sd n).length

/-- The format ends: the HDA is a new, empty member in the place of the one it replaces, with its own recipes, and Understudy goes on
(R330, R364; spec/08 R286). -/
def State.admitHome (p q : PortId) (s : State) : State :=
  let b0 := s.usableBands p 0
  let b1 := s.usableBands p 1
  let s := s.watchSpare (State.seatMember p q (s.port p).serial b0 b1 (s.member p).slips)
  let s := s.each (fins 2) fun sd s => ((s.modAcal (actOf p sd) fun x => { x with recipes := match (s.pcal p).recipe with
    | some r => (r.recipes.drop (32 * globalHead sd 0)).take 384
    | none => x.recipes }).calDirty (actOf p sd)).modSeq (actOf p sd) fun q => { q with unwritten := [] }
  let s := ((s.noteService p).recordGroups.recordDefects).memberRecAs p (some q)
  if s.coordinates = false then s
  else if s.todo ≠ [] ∨ s.away ≠ [] then (match s.rebuild? with
    | some _ => s.unblock.rebuildEnd.worksGone
    | none => s.runRebuild 3)
  else s.worksGone

/-- The defective sectors of a half, as the defect list holds them. -/
def State.slipList (s : State) (p : PortId) (n : Nat) (l : List Nat) : List Nat :=
  let sd : Side := if n < s.rawBands p 0 then 0 else 1
  match s.rawPlace p sd (if sd = 0 then n else n - s.rawBands p 0) with
  | some (z, _, _) => sortBy (fun k => k) ((l.filter fun k => decide (k < z.half * z.sectors)).eraseDups)
  | none => []

/-- A band may be written: its actuator may start a write, is in no calibration break, and the band's head is under no write hold
(spec/01 R34; spec/08 R299). -/
def State.mayBand (s : State) (a : ActId) (h : Fin 12) : Bool := s.mayWriteOn a && (s.acal a).brk.isNone && !s.held a h

/-- Every sector of a half of a raw band whose head is marked failed: the band counts as defective (spec/08 R309). -/
def State.deadHalf (s : State) (p : PortId) (n : Nat) : Option (List Nat) :=
  let sd : Side := if n < s.rawBands p 0 then 0 else 1
  match s.rawPlace p sd (if sd = 0 then n else n - s.rawBands p 0) with
  | some (z, _, h) => if (s.acal (actOf p sd)).heads[h].failed then some (List.range (z.half * z.sectors)) else none
  | none => none

/-- A format may write its next band now; that of a failed head is not written. -/
def State.formatsBand (s : State) (p : PortId) (n : Nat) : Bool :=
  let sd : Side := if n < s.rawBands p 0 then 0 else 1
  (s.deadHalf p n).isSome || (match s.rawPlace p sd (if sd = 0 then n else n - s.rawBands p 0) with
    | some (_, _, h) => s.mayBand (actOf p sd) h
    | none => true)

/-- FULL_HDA_FORMAT_BAND: the next band of a running format is written and read; `d0`, `d1`: the defective sectors of its halves, which are
slipped and recorded in the defect list (R348); a band of a failed head is defective (spec/08 R309). It waits while the band may not be
written. -/
def execFullHdaFormatBand (p : PortId) (d0 d1 : List Nat) (s : State) : Host.Outcome State Fault Refusal :=
  .next <|
    match (s.running 4).find? fun o => o.formatPort == p with
    | none => s
    | some o =>
      let n := o.cursor
      if s.destageFirst = true ∨ s.names.dumping = true ∨ s.formatsBand p n = false then s
      else
      let total := s.rawBands p 0 + s.rawBands p 1
      let slips (d : List Nat) : List Nat := (s.deadHalf p n).getD (s.slipList p n d)
      let found := [(2 * n, slips d0), (2 * n + 1, slips d1)].filter fun q => q.2 != []
      let s := (s.modMember p fun m => { m with slips := (if n = 0 then [] else m.slips) ++ found }).recordDefects
      let s := s.modOp o.handle fun o => { o with cursor := n + 1, done := n + 1, total := total }
      if total ≤ n + 1 then (s.endOp o.handle .completed 0).admitHome p o.replaced else s.opPoint o.handle

/-! ## Sanitize (spec/12 R475) -/

/-- Bands of every member that a sanitize overwrites. -/
def State.allBands (s : State) : Nat :=
  ((fins 32).map fun p => if (s.member p).st = .member then (s.member p).bands0 + (s.member p).bands1 else 0).sum

/-- No user data is left on the media either. -/
def State.wipe (s : State) : State :=
  (s.forgetBlocks.modProt fun p => { p.releaseWorks (fun _ => true) with sectors := [], bad := [], marked := [], mcRows := [], touched := [] })

/-- The actuator and its band that a number in the order of actuators and their bands names. -/
def bandAt : List (ActId × Nat) → Nat → Option (ActId × Nat)
  | [], _ => none
  | (a, k) :: r, n => if n < k then some (a, n) else bandAt r (n - k)

/-- A sanitize may write its next band now (spec/01 R34; spec/08 R299; spec/15 R551). -/
def State.sanitizesBand (s : State) (n : Nat) : Bool :=
  let l := ((fins 64).filter fun a => (s.member (portOf a)).st == .member).map fun a =>
    (a, if sideOf a = 0 then (s.member (portOf a)).bands0 else (s.member (portOf a)).bands1)
  match bandAt l n with
  | some (a, b) => match s.locate (portOf a) (sideOf a) b 0 0 with
    | some q => s.mayBand a q.head
    | none => true
  | none => true

/-- SANITIZE_BAND: one band overwritten; a failure leaves the sanitize failed, with I/O refused (Table 12-4). -/
def execSanitizeBand (ok : Bool) (s : State) : Host.Outcome State Fault Refusal :=
  .next <|
    match (s.running 2).head? with
    | none => s
    | some o =>
      if s.names.dumping = true ∨ s.sanitizesBand o.done = false then s
      else if ok = false then
        (s.endOp o.handle .failed (Cpl.err 0x0 0x1C).status).modNames fun n => { n with sanitizing := false, sanitizeFailed := true }
      else
        let total := s.allBands
        let n := o.done + 1
        let s := s.modOp o.handle fun o => { o with done := n, cursor := n, total := total }
        if total ≤ n then
          ((s.endOp o.handle .completed 0).wipe.modNames fun m => { m with sanitizing := false, sanitizeFailed := false }).bufferChanged
        else
          let t := s.opPoint o.handle
          if o.cancelAsked then t.modNames fun m => { m with sanitizing := false, sanitizeFailed := true } else t

end Sys2Proof.Machine
end

