-- ==== Sys2Proof/Machine/NsCmds.lean ====
section
/-! DEFINITION. Family NsCmds: Namespace Management and Attachment, Format NVM, and the start of long operations with Sanitize
(spec/10 R369 to R375; spec/12 R475, R476). -/

namespace Sys2Proof.Machine

/-- SANITIZE: the Overwrite action is an update of every block, which starts a sanitize long operation when its turn comes; no other
action is supported (R475; spec/12 R455). -/
def execSanitize (c : Nat) (s : State) : Host.Outcome State Fault Refusal :=
  .next <| State.settleEnded c s (s.run c (isAdminOp 0x84) fun x s =>
    s.orElse c (firstBad [(bits x.entry.cdw10 2 0 != 3, 10, 0)]) fun s =>
      (s.modCtx c fun y => { y with stage := .awaitTurn }).bufferChanged)

/-! ## Namespace Management (spec/10 R371 to R375) -/

/-- The fields of a create: namespace size and capacity, LBA format index, protection settings, command set. -/
structure CreateReq where
  nsze : Nat
  ncap : Nat
  fmt : Nat
  dps : Nat
  csi : Nat
  deriving DecidableEq, Repr

def createReq (e : SqEntry) : CreateReq :=
  let flbas := field e.data 26 1
  { nsze := field e.data 0 8, ncap := field e.data 8 8, fmt := flbas % 16 + 16 * (flbas / 32 % 4), dps := field e.data 29 1
    csi := bits e.cdw11 31 24 }

/-- Invalid Field in Command for a field of the data structure: no field of the entry is at fault (Table 12-2; DEDUCED,
log 45). -/
def Cpl.badData : Cpl := Cpl.err 0x0 0x02

/-- Invalid Namespace Format, Namespace Insufficient Capacity, Namespace Identifier Unavailable. -/
def Cpl.badFormat : Cpl := Cpl.err 0x1 0x0A
def Cpl.noCapacity : Cpl := Cpl.err 0x1 0x15
def Cpl.noNsid : Cpl := Cpl.err 0x1 0x16

/-- 256 TiB in blocks (Table 10-1). -/
def conventionalMax : Nat := 2 ^ 36

/-- Blocks of all conventional namespaces. -/
def State.conventionalTotal (s : State) : Nat := ((s.names.nss.filter fun n => !n.zoned).map Ns.nsze).sum

/-- Backing zones of a conventional namespace (R373). -/
def backingZones (nsze : Nat) (narrow : Bool) : Nat := ceilDiv (nsze * 4096 * 545) (512 * (zoneBlocks narrow * 4096)) + 32

/-- Zones that a create needs (R372, R373). -/
def CreateReq.zones (r : CreateReq) : Nat :=
  let narrow := r.fmt == 1
  if r.csi = 2 then ceilDiv r.nsze (zoneBlocks narrow) else backingZones r.nsze narrow

/-- The conditions of Table 10-3 that need no allocation, in the table's order. -/
def State.createBad (s : State) (r : CreateReq) : Option Cpl :=
  if r.nsze = 0 ∨ r.ncap ≠ r.nsze ∨ r.dps ≠ 0 then some Cpl.badData
  else if r.csi ≠ 0 ∧ r.csi ≠ 2 then some (Cpl.invalid 11 24)
  else if 1 < r.fmt then some Cpl.badFormat
  else if 128 ≤ s.names.nss.length then some Cpl.noNsid
  else if s.presentMembers.length < (if r.fmt = 1 then 10 else 19) then some Cpl.noCapacity
  else if r.csi = 0 ∧ conventionalMax < s.conventionalTotal + r.nsze then some Cpl.noCapacity
  else none

/-- The lowest namespace identifier not in use (DESIGN CHOICE, log 46). -/
def State.freeNsid (s : State) : Nat :=
  (((List.range 128).map (· + 1)).find? fun k => s.names.nss.all fun n => n.nsid != k).getD 0

/-- The ANA group of a new namespace: group 1 in a single configuration; in a pair the group with fewer namespaces, group 1 when
equal (spec/11 R448; spec/18 R624). -/
def State.newGroup2 (s : State) : Bool :=
  s.pair.mode && decide ((s.names.nss.filter fun n => n.ana2).length < (s.names.nss.filter fun n => !n.ana2).length)

/-- NAMESPACE_CREATE: the request is checked, whole groups are allocated, and the namespace is usable at once (R371 to
R374). -/
def execNamespaceCreate (c : Nat) (s : State) : Host.Outcome State Fault Refusal :=
  .next <| s.run c (fun x => isAdminOp 0x0D x && bits x.entry.cdw10 3 0 == 0) fun x s =>
    let r := createReq x.entry
    let narrow := r.fmt == 1
    s.orElse c (s.createBad r) fun s =>
      let h := s.presentMembers.length
      let n := ceilDiv r.zones h
      let id := s.freeNsid
      match s.allocGroups id narrow n with
      | none => s.complete c Cpl.noCapacity
      | some (t, gs) =>
        let zoned := r.csi == 2
        let ns : Ns :=
          { nsid := id, zoned := zoned, narrow := narrow, nsze := if zoned then n * h * zoneBlocks narrow else r.nsze
            groups := gs, ana2 := s.newGroup2, attachA := false, attachB := false, deleting := false, backing := none
            ready := true }
        ((t.modNames fun m => { m with nss := m.nss ++ [ns] }).nsRec ns ns.nsze).complete c (Cpl.val (BitVec.ofNat 32 id))

/-- A host that has enabled it is told that the attributes of its namespaces have changed (Notice, information 0x00, log page
0x04: the NVMe base specification; Table 11-4 OAES; PRESUMED, log 33). -/
def State.nsNotice (f : Fn) (s : State) : State := s.when ((s.fn f).asyncCfg.getLsbD 8) (State.asyncEvent f 2 0 0x04)

/-- NAMESPACE_DELETE: the namespace, or every one, takes no further command, and goes once its admitted commands have completed
(R375). -/
def execNamespaceDelete (c : Nat) (s : State) : Host.Outcome State Fault Refusal :=
  .next <| s.run c (fun x => isAdminOp 0x0D x && bits x.entry.cdw10 3 0 == 1) fun x s =>
    let id := x.entry.nsid.toNat
    let hit (n : Ns) : Bool := (n.nsid == id || id == 0xFFFFFFFF) && !n.deleting
    if id ≠ 0xFFFFFFFF ∧ (s.names.nss.any hit) = false then s.complete c Cpl.badNs
    else
      let s := s.modNames fun m => { m with nss := m.nss.map fun n => if hit n then { n with deleting := true } else n }
      (s.await c (.nsDelete id)).settleDeletes

/-! ## Namespace Attachment (Table 10-1) -/

/-- Controller identifiers of the two functions; a single configuration has those of Stage Left (spec/11 Table 11-4; spec/20 R699). -/
def State.cntlid (s : State) (f : Fn) : Nat :=
  (match f with
    | .a => 1
    | .b => 2) + 2 * bit s.pair.side

/-- NAMESPACE_ATTACHMENT: the controllers of the list are attached to the namespace, or detached from it. A controller that is
attached already, or is not attached, stays as it is, and one of the peer's is attached by its record (log 45; spec/18 Table 18-3). -/
def execNamespaceAttachment (c : Nat) (s : State) : Host.Outcome State Fault Refusal :=
  .next <| s.run c (isAdminOp 0x15) fun x s =>
    let attach := bits x.entry.cdw10 3 0 == 0
    let n := field x.entry.data 0 2
    let ids := (List.range n).map fun i => field x.entry.data (2 + 2 * i) 2
    let id := x.entry.nsid.toNat
    if (s.names.nss.any fun y => y.nsid == id && !y.deleting) = false then s.complete c Cpl.badNs
    else s.orElse c (firstBad [(decide (1 < bits x.entry.cdw10 3 0), 10, 0)]) fun s =>
      if ids = [] ∨ ids.any (fun i => decide (i = 0 ∨ 4 < i)) = true then s.complete c Cpl.badData
      else
        let a := ids.contains (s.cntlid .a)
        let b := ids.contains (s.cntlid .b)
        let old := s.ns? id
        let put (y : Ns) : Ns := { y with attachA := if a then attach else y.attachA, attachB := if b then attach else y.attachB }
        let s := s.modNames fun m => { m with nss := mapWhere (fun y => y.nsid == id) put m.nss }
        let peer : List (Nat × Nat) := if s.mirrors then [(3 - 2 * bit s.pair.side, 0), (4 - 2 * bit s.pair.side, 1)] else []
        let s := s.each (peer.filter fun q => ids.contains q.1) fun q s => s.sendKept 0x04 [7, id, q.2, bit attach] [] id 0 0 none
        let changed (f : Ns → Bool) : Bool := (old.map f) != ((s.ns? id).map f)
        let s := s.when (changed Ns.attachA && x.origin != .host .a) (State.nsNotice .a)
        let s := s.when (changed Ns.attachB && x.origin != .host .b) (State.nsNotice .b)
        s.complete c Cpl.ok

/-! ## Format NVM (Table 10-1, R369, R370) -/

/-- FORMAT_NVM: SES 0 only, and the layout stays that of the creation; an update, it applies when its turn comes and resets
every zone or deallocates every block (R369, R370; spec/12 R455). -/
def execFormatNvm (c : Nat) (s : State) : Host.Outcome State Fault Refusal :=
  .next <| State.settleEnded c s (s.run c (isAdminOp 0x80) fun x s =>
    match s.names.nss.find? fun n => n.nsid == x.entry.nsid.toNat && !s.deletedFor n x with
    | none => s.complete c Cpl.badNs
    | some n =>
      s.orElse c ((anaBad x.ana).or <| firstBad [(bits x.entry.cdw10 3 0 != bit n.narrow, 10, 0), (bits x.entry.cdw10 7 5 != 0, 10, 5),
        (bits x.entry.cdw10 11 9 != 0, 10, 9)]) fun s =>
        (s.modCtx c fun y => { y with stage := .awaitTurn }).bufferChanged)

end Sys2Proof.Machine
end

