-- ==== Sys2Proof/Machine/Admin.lean ====
section
/-! DEFINITION. Family Admin: Identify, asynchronous events, Abort, queues and their deletion, shadow doorbells, Queue Resume
(spec/11 R417 to R430; spec/12 R461 to R470, R480, R481). -/

namespace Sys2Proof.Machine

/-- A command of a host function; one from elsewhere has no queues to act on. -/
def State.forHost (c : Nat) (x : Ctx) (k : Fn → State → State) (s : State) : State :=
  match x.origin with
  | .host f => k f s
  | _ => s.complete c Cpl.badOpcode

/-! ## Identify (spec/11 R417, Table 11-4; field positions PRESUMED, log 33) -/

/-- A structure with fields of given offsets and sizes put into it. -/
def overlay (base : List Byte) : List (Nat × Nat × Nat) → List Byte
  | [] => base
  | (off, n, v) :: r => overlay (base.take off ++ leBytes n v ++ base.drop (off + n)) r

/-- A hexadecimal digit. -/
def hexDigit (n : Nat) : Byte := BitVec.ofNat 8 (if n < 10 then 48 + n else 87 + n)

/-- A UUID as text: 32 hexadecimal digits in groups of 8, 4, 4, 4 and 12. -/
def uuidText (l : List Byte) : List Byte :=
  let hex := l.map fun b => [hexDigit (b.toNat / 16), hexDigit (b.toNat % 16)]
  let part (i n : Nat) : List Byte := ((hex.drop i).take n).flatten
  let dash : List Byte := [45]
  part 0 4 ++ dash ++ part 4 2 ++ dash ++ part 6 2 ++ dash ++ part 8 2 ++ dash ++ part 10 6

/-- The subsystem UUID: the first 16 bytes of SHAKE256 over the pair identity, or the fused identity when none is held (Table
11-4; spec/18 R625). -/
def subsystemUuid (pairId : BitVec 128) : List Byte :=
  (digestBytes (digest (leBytes 16 (if pairId = 0 then Config.deviceIdentity else pairId).toNat))).take 16

/-- SUBNQN. -/
def subnqn (pairId : BitVec 128) : List Byte :=
  padTo 256 (ascii "nqn.2014-08.org.nvmexpress:uuid:" ++ uuidText (subsystemUuid pairId))

/-- The fields of Identify Controller that this device states (Table 11-4; spec/01 Table 1-8; spec/10 R404; spec/12 R472,
R475; spec/15 R550). -/
def State.controllerFields (s : State) (f : Fn) : List (Nat × Nat × Nat) :=
  [(0, 2, Config.vendorId.toNat), (72, 1, 7), (76, 1, 0xB), (77, 1, 8), (78, 2, s.cntlid f), (80, 4, 0x20000), (84, 4, 3000000),
   (88, 4, 4000000), (92, 4, 0xB00), (96, 4, 1), (256, 2, 0x10F), (258, 1, 7), (259, 1, 15), (260, 1, 4), (261, 1, 6),
   (262, 1, 63), (263, 1, 3), (265, 1, 0), (266, 2, 378), (268, 2, 398), (280, 16, s.tnvmcap), (296, 16, s.unvmcap),
   (111, 1, 1), (322, 2, 0), (328, 4, 4), (128, 2, 10), (342, 1, 10), (343, 1, 0x57), (344, 4, 2), (348, 4, 2), (512, 1, 0x66), (513, 1, 0x44),
   (516, 4, 128), (520, 2, 0x1C), (525, 1, 7), (536, 4, 1),
   (768, 256, ofLe (subnqn (s.fn f).subsys)),
   (2048, 2, 5500), (2052, 4, 0), (2056, 4, 0), (2080, 2, 3500), (2084, 4, 400000), (2088, 4, 6000),
   (2112, 2, 2000), (2116, 4, 400000), (2120, 4, 6000), (2144, 2, 600), (2147, 1, 2), (2148, 4, 60000000),
   (2152, 4, s.power.exlat * 1000000)]

/-- The fields of Identify Namespace that every namespace has alike (spec/10 R369, R370). -/
def nsCommon : List (Nat × Nat × Nat) := [(25, 1, 1), (30, 1, 1), (33, 1, 1), (128, 4, 0xC0000), (132, 4, 0xC0000)]

/-- The fields of Identify Namespace that this device states (spec/10 R369, R370, R393, R404; spec/11 R450). -/
def Ns.fields (n : Ns) : List (Nat × Nat × Nat) :=
  nsCommon ++ [(0, 8, n.nsze), (8, 8, n.nsze), (26, 1, bit n.narrow), (48, 16, n.capacity), (92, 4, if n.ana2 then 2 else 1)]

/-- The fields of a zoned namespace (spec/10 R370, R376, R378). -/
def zonedNsFields : List (Nat × Nat × Nat) :=
  [(0, 2, 0), (2, 2, 1), (4, 4, 1023), (8, 4, 1023), (2816, 8, zoneBlocks false), (2824, 1, 0), (2832, 8, zoneBlocks true),
   (2840, 1, 0)]

/-- Namespace identifiers above one, ascending, in 4 bytes each, at most 1,024. -/
def nsidList (l : List Ns) (above : Nat) : List Byte :=
  padTo 4096 ((((sortBy id (l.map Ns.nsid)).filter fun k => decide (above < k)).take 1024).flatMap (leBytes 4))

/-- A namespace is attached to a function. -/
def Ns.on (n : Ns) : Fn → Bool
  | .a => n.attachA
  | .b => n.attachB

/-- A namespace is of a command set: 0 NVM, 2 Zoned Namespace; none is of another, which is not supported (spec/00 R19). -/
def Ns.inSet (n : Ns) (csi : Nat) : Bool := if n.zoned then csi == 2 else csi == 0

/-- Identify structures that exist. -/
def knownCns : List Nat := [0x00, 0x01, 0x02, 0x03, 0x05, 0x06, 0x07, 0x08, 0x10, 0x11, 0x12, 0x13, 0x1A, 0x1B, 0x1C]

/-- Ranges of an Identify structure whose values the spec leaves open: names, serial numbers, counts, unique identifiers, and the
relative performance of the power states. All else that no rule states is 0: reserved bytes, and features that are not supported, such
as thin provisioning, reservations, cryptographic erase, SR-IOV, Key Value and the FRU identifier (spec/00 R14, R19; the places PRESUMED, log 33). -/
def identifyOpen (cns csi : Nat) : List (Nat × Nat) :=
  if cns = 0x01 then
    [(2, 70), (73, 3), (514, 2), (526, 4)] ++ (List.range 4).map fun k => (2060 + 32 * k, 4)
  else if cns = 0x00 ∨ cns = 0x11 then [(16, 8), (104, 16)]
  else if cns = 0x06 ∧ csi = 0 then [(1, 1), (3, 13)]
  else []

/-- Bytes of an Identify structure of which only the low bits are open: the relative performance of a power state has 5. -/
def identifyMask (cns : Nat) : List (Nat × Nat) :=
  if cns = 0x01 then (List.range 4).flatMap fun k => (List.range 4).map fun j => (2060 + 32 * k + j, 31) else []

/-- The open values of a structure, everything else 0; Identify Namespace has the same for an allocated as for an active namespace. -/
def identifyBase (cns nsid csi : Nat) : List Byte :=
  let key := if cns = 0x11 then 0 else cns
  (identifyMask cns).foldl (fun l q => overlay l [(q.1, 1, (l.getD q.1 0).toNat % (q.2 + 1))])
    (keepBytes (identifyOpen cns csi) 4096 (Config.identifyBase (key + 2 ^ 8 * csi + 2 ^ 16 * nsid)))

/-- The Namespace Identification Descriptors of a namespace: its NGUID and its command set. -/
def nsDescriptors (n : Ns) (base : List Byte) : List Byte :=
  padTo 4096 ([2, 16, 0, 0] ++ (base.drop 104).take 16 ++ [4, 1, 0, 0, if n.zoned then 2 else 0])

/-- The independent fields of a namespace: shareable, its ANA group, and whether it is ready. -/
def Ns.independent (n : Ns) : List (Nat × Nat × Nat) := [(1, 1, 1), (4, 4, if n.ana2 then 2 else 1), (14, 1, bit n.ready)]

/-- A controller list of identifiers from one upwards. -/
def controllerList (ids : List Nat) (least : Nat) : List Byte :=
  let l := ids.filter fun i => decide (least ≤ i)
  padTo 4096 (packBytes [(2, l.length)] ++ l.flatMap (leBytes 2))

/-- The controllers of the NVM subsystem: this device's two, and in a pair the peer's two. -/
def State.controllers (s : State) : List Nat := if s.pair.mode then [1, 2, 3, 4] else [s.cntlid .a, s.cntlid .b]

/-- The 4,096 bytes of an Identify: the stated fields within what the NVMe documents give (spec/11 R415, R417); zeros for a
namespace that is not attached; none when the namespace named does not exist. `least` is the lowest identifier of a controller list.
Which of the peer's controllers a namespace is attached to is the peer's record and stands in no list of this one (log 45). -/
def State.identifyData (s : State) (f : Fn) (cns nsid csi least : Nat) : Option (List Byte) :=
  let base := identifyBase cns nsid csi
  let live := s.names.nss.filter fun n => !n.deleting
  let mine := live.filter fun n => n.on f
  let zeros := List.replicate 4096 0
  let ofNs (l : List Ns) (k : Ns → List Byte) : Option (List Byte) :=
    match live.find? fun n => n.nsid == nsid with
    | none => none
    | some n => some (if l.contains n then k n else zeros)
  if cns = 0x01 then some (overlay base (s.controllerFields f))
  else if cns = 0x00 then
    if nsid = 0xFFFFFFFF then some (overlay base nsCommon) else ofNs mine fun n => overlay base n.fields
  else if cns = 0x11 then ofNs live fun n => overlay base n.fields
  else if cns = 0x02 then some (nsidList mine nsid)
  else if cns = 0x10 then some (nsidList live nsid)
  else if cns = 0x07 then some (nsidList (mine.filter fun n => n.inSet csi) nsid)
  else if cns = 0x1A then some (nsidList (live.filter fun n => n.inSet csi) nsid)
  else if cns = 0x05 then ofNs mine fun n => if n.zoned ∧ csi = 2 then overlay base zonedNsFields else base
  else if cns = 0x1B then ofNs live fun n => if n.zoned ∧ csi = 2 then overlay base zonedNsFields else base
  else if cns = 0x06 ∧ csi = 2 then some (overlay base [(0, 1, 6)])
  else if cns = 0x03 then ofNs mine fun n => nsDescriptors n (identifyBase 0 nsid 0)
  else if cns = 0x08 then ofNs mine fun n => overlay base n.independent
  else if cns = 0x12 then
    ofNs live fun n => controllerList (([Fn.a, Fn.b].filter n.on).map s.cntlid) least
  else if cns = 0x13 then some (controllerList s.controllers least)
  else if cns = 0x1C then some (overlay base [(0, 8, 5)])
  else some base

/-- IDENTIFY: the structure that CNS names, with this device's values (R417). -/
def execIdentify (c : Nat) (s : State) : Host.Outcome State Fault Refusal :=
  .next <| s.run c (isAdminOp 0x06) fun x s =>
    let cns := bits x.entry.cdw10 7 0
    s.orElse c (firstBad [(!knownCns.contains cns, 10, 0)]) fun s =>
      match s.identifyData (x.fn?.getD .a) cns x.entry.nsid.toNat (bits x.entry.cdw11 31 24) (bits x.entry.cdw10 31 16) with
      | some bs => s.complete c (Cpl.data bs)
      | none => s.complete c Cpl.badNs

/-! ## Asynchronous events and Abort (spec/12 R461, R462) -/

/-- ASYNCHRONOUS_EVENT_REQUEST: held for an event; the seventeenth outstanding is refused (spec/11 Table 11-4; spec/12 Table
12-3). -/
def execAsynchronousEventRequest (c : Nat) (s : State) : Host.Outcome State Fault Refusal :=
  .next <| s.run c (isAdminOp 0x0C) fun x s => s.forHost c x fun f s =>
    if 16 ≤ (s.fn f).aers.length then s.complete c (Cpl.err 0x1 0x05)
    else
      let s := (s.await c .asyncEvent).modFn f fun y => { y with aers := y.aers ++ [c] }
      s.deliverEvents f (s.fn f).aers.length

/-- Abort commands of a function that were admitted earlier and have not completed. -/
def State.abortsBefore (s : State) (x : Ctx) : Nat :=
  (s.ctxs.filter fun y => isAdminOp 0x08 y && y.origin == x.origin && y.stage != .fetched && earlier y.adm x.adm).length

/-- ABORT: it reports the command not aborted, and has no effect on it; a ninth outstanding one is refused (R461, R462). -/
def execAbort (c : Nat) (s : State) : Host.Outcome State Fault Refusal :=
  .next <| s.run c (isAdminOp 0x08) fun x s =>
    if 8 ≤ s.abortsBefore x then s.complete c (Cpl.err 0x1 0x03) else s.complete c (Cpl.val 1)

/-! ## Queues (spec/11 R418 to R420, Table 11-5) -/

def Cpl.cqInvalid : Cpl := Cpl.err 0x1 0x00
def Cpl.badQid : Cpl := Cpl.err 0x1 0x01
def Cpl.badQsize : Cpl := Cpl.err 0x1 0x02
def Cpl.badVector : Cpl := Cpl.err 0x1 0x08
def Cpl.badDeletion : Cpl := Cpl.err 0x1 0x0C

/-- Queue identifier and 0's based size of dword 10. -/
def qidOf (e : SqEntry) : Nat := bits e.cdw10 15 0
def qsizeOf (e : SqEntry) : Nat := bits e.cdw10 31 16

/-- The refusals that both kinds of creation share, in the order of Table 11-5. -/
def queueBad (e : SqEntry) (used : Bool) (entrySize : Bool) : Option Cpl :=
  if qidOf e = 0 ∨ 64 < qidOf e ∨ used = true then some Cpl.badQid
  else if qsizeOf e = 0 ∨ 4095 < qsizeOf e then some Cpl.badQsize
  else if bits e.cdw11 0 0 = 0 then some (Cpl.invalid 11 0)
  else if entrySize = false then some Cpl.seqError
  else none

/-- CREATE_IO_SUBMISSION_QUEUE (R419; QPRIO, R435). -/
def execCreateIoSubmissionQueue (c : Nat) (s : State) : Host.Outcome State Fault Refusal :=
  .next <| s.run c (isAdminOp 0x01) fun x s => s.forHost c x fun f s =>
    let e := x.entry
    let y := s.fn f
    let cq := bits e.cdw11 31 16
    s.orElse c (queueBad e (y.sq? (qidOf e)).isSome (bits y.cc 19 16 == 6)) fun s =>
      if cq = 0 ∨ (y.cq? cq).isNone = true then s.complete c Cpl.cqInvalid
      else (s.modFn f fun y => { y with
        sqs := y.sqs ++ [SubQ.fresh (qidOf e) (qsizeOf e + 1) cq (Fin.ofNat 4 (bits e.cdw11 2 1))] }).complete c Cpl.ok

/-- CREATE_IO_COMPLETION_QUEUE (R419; R426, R438). -/
def execCreateIoCompletionQueue (c : Nat) (s : State) : Host.Outcome State Fault Refusal :=
  .next <| s.run c (isAdminOp 0x05) fun x s => s.forHost c x fun f s =>
    let e := x.entry
    let y := s.fn f
    let iv := bits e.cdw11 31 16
    s.orElse c (queueBad e (y.cq? (qidOf e)).isSome (bits y.cc 23 20 == 4)) fun s =>
      if h : iv < 65 then
        (s.modFn f fun y => { y with
          cqs := y.cqs ++ [CplQ.fresh (qidOf e) (qsizeOf e + 1) ⟨iv, h⟩ (bits e.cdw11 1 1 == 1)] }).complete c Cpl.ok
      else s.complete c Cpl.badVector

/-- An update has applied and its own end is still to come: it waits for media or a mirror (R463 step 3). One that has been forwarded
with its data, or takes none, may have applied at the peer, whose answer ends it (R465; spec/18 R628). -/
def Ctx.hasApplied (x : Ctx) : Bool :=
  x.update && (x.stage == .applied || x.stage == .waiting || x.stage == .forwarded && (!x.takesData || x.data != []))

/-- DELETE_IO_SUBMISSION_QUEUE: from the deletion point on nothing is fetched; applied updates finish, every other command ends
at once, and the Delete completes after all of them (R463 to R466). -/
def execDeleteIoSubmissionQueue (c : Nat) (s : State) : Host.Outcome State Fault Refusal :=
  .next <| s.run c (isAdminOp 0x00) fun x s => s.forHost c x fun f s =>
    let q := qidOf x.entry
    match (s.fn f).sq? q with
    | none => s.complete c Cpl.badQid
    | some y =>
      if q = 0 ∨ y.deleting = true then s.complete c Cpl.badQid
      else
        let s := s.modSq f q fun y => { y with deleting := true, frozen := false, tail := y.head }
        let ended := s.ctxs.filter fun y =>
          y.origin == .host f && y.sq == q && y.stage != .fetched && y.stage != .decided && !y.hasApplied
        let s := s.each (ended.map Ctx.id) fun k s => s.complete k (Cpl.err 0x0 0x08)
        (s.await c (.deletion f q)).settleOrder.settleDeletions.noteClean

/-- DELETE_IO_COMPLETION_QUEUE: refused while a submission queue names it (R419). -/
def execDeleteIoCompletionQueue (c : Nat) (s : State) : Host.Outcome State Fault Refusal :=
  .next <| s.run c (isAdminOp 0x04) fun x s => s.forHost c x fun f s =>
    let q := qidOf x.entry
    if q = 0 ∨ ((s.fn f).cq? q).isNone = true then s.complete c Cpl.badQid
    else if (s.fn f).sqs.any fun y => y.cq == q then s.complete c Cpl.badDeletion
    else (s.modFn f fun y => { y with cqs := y.cqs.filter fun k => k.id != q }).complete c Cpl.ok

/-- DOORBELL_BUFFER_CONFIG: the shadow doorbell page and the event-index page of the I/O queues (R427). -/
def execDoorbellBufferConfig (c : Nat) (s : State) : Host.Outcome State Fault Refusal :=
  .next <| s.run c (isAdminOp 0x7C) fun x s => s.forHost c x fun f s =>
    (s.modFn f fun y => { y with shadow := some (x.entry.prp1, x.entry.prp2) }).complete c Cpl.ok

/-- QUEUE_RESUME: a frozen queue runs again when the count given is its freeze count and its entry has been returned (R470,
R481). -/
def execQueueResume (c : Nat) (s : State) : Host.Outcome State Fault Refusal :=
  .next <| s.run c (isAdminOp 0xC1) fun x s => s.forHost c x fun f s =>
    let q := qidOf x.entry
    let count := x.entry.cdw12 ++ x.entry.cdw11
    s.orElse c (firstBad [(qsizeOf x.entry != 0, 10, 16)]) fun s =>
      match (s.fn f).sq? q with
      | none => s.complete c Cpl.badQid
      | some y =>
        if q = 0 ∨ y.deleting = true then s.complete c Cpl.badQid
        else if y.frozen = false then s.complete c (Cpl.val 0)
        else if y.freezeCount = count ∧ (s.fn f).returned.contains count = true then
          (s.modSq f q fun y => { y with frozen := false }).complete c (Cpl.val 1)
        else s.complete c Cpl.seqError

end Sys2Proof.Machine
end

