-- ==== Sys2Proof/Machine/Features.lean ====
section
/-! DEFINITION. Family Features: Get and Set Features, standard and vendor (spec/11 R418, R436, R440, R445, R449; spec/12 R487,
R488, Table 12-13; spec/10 R397; spec/15 R546, R550). Field positions of the standard features are those of the NVMe documents
(PRESUMED, log 33). -/

namespace Sys2Proof.Machine

/-! ## Values -/

/-- Whether a function's Freeze-on-Error is saved as enabled. -/
def ConfigStore.freezeOf (k : ConfigStore) : Fn → Bool
  | .a => k.freezeA
  | .b => k.freezeB

/-- The vendor features: saved and default values (Table 12-13). -/
def ConfigStore.savedOf (k : ConfigStore) (f : Fn) : Nat → Nat
  | 0xC0 => bit (k.freezeOf f)
  | 0xC1 => k.grace
  | 0xC2 => k.rebuildShare
  | 0xC3 => k.writeLimit
  | _ => k.calThreshold

def vendorDefault : Nat → Nat
  | 0xC0 => 1
  | 0xC1 => 5
  | 0xC2 => 6
  | 0xC3 => 32
  | _ => 4

def isVendorFeature (fid : Nat) : Bool := decide (0xC0 ≤ fid) && decide (fid ≤ 0xC4)
def knownFeatures : List Nat := [0x01, 0x02, 0x04, 0x06, 0x07, 0x08, 0x09, 0x0B, 0x16, 0xC0, 0xC1, 0xC2, 0xC3, 0xC4]

/-- The bits of Asynchronous Event Configuration that this device has: the SMART warnings, and the notices that Identify Controller
reports; the others are reserved and read 0 (spec/00 R14; the places PRESUMED, log 33). -/
def asyncMask : W32 := 0xB3F

/-- The temperatures that a threshold's TMPSEL names: Composite, sensor 1, sensor 2, or all (spec/15 R550; the field PRESUMED, log 33). -/
def tmpSel (v : W32) : List (Fin 3) :=
  match bits v 19 16 with
  | 0 => [0]
  | 1 => [1]
  | 2 => [2]
  | 15 => [0, 1, 2]
  | _ => []

/-- Value in force of a feature; `sel` is dword 11, which selects a threshold or a vector. -/
def State.featureNow (s : State) (f : Fn) (fid : Nat) (sel : W32) : W32 :=
  let x := s.fn f
  match fid with
  | 0x01 => word [(x.ab.val, 0), (x.lpw, 8), (x.mpw, 16), (x.hpw, 24)]
  | 0x02 => word [(x.ps.val, 0)]
  | 0x04 => word [((if bits sel 21 20 = 0 then x.overTemp else x.underTemp)[(tmpSel sel).headD 0], 0)]
  | 0x06 => word [(bit s.names.wce, 0)]
  | 0x07 => word [(63, 0), (63, 16)]
  | 0x08 => word [(x.thr, 0), (x.time, 8)]
  | 0x09 =>
    let v : Fin 65 := Fin.ofNat 65 (bits sel 15 0)
    word [(v.val, 0), (bit (x.vec v).cd, 16)]
  | 0x0B => x.asyncCfg &&& asyncMask
  | 0x16 => 0
  | 0xC0 => word [(bit x.freeze, 0)]
  | 0xC1 => word [(s.therm.graceS, 0)]
  | 0xC2 => word [(s.chorus.rebuildShare, 0)]
  | 0xC3 => word [(s.power.writeLimit, 0)]
  | _ => word [(s.cal.threshold, 0)]

/-- Default value of a feature. -/
def featureDefault (fid : Nat) (sel : W32) : W32 :=
  match fid with
  | 0x01 => 7
  | 0x04 => if bits sel 21 20 ≠ 0 then 0 else if (tmpSel sel).headD 0 = 0 then 378 else 0xFFFF
  | 0x06 => 1
  | 0x07 => word [(63, 0), (63, 16)]
  | 0x09 => word [(bits sel 15 0, 0)]
  | 0x02 | 0x08 | 0x0B | 0x16 => 0
  | _ => word [(vendorDefault fid, 0)]

/-- GET_FEATURES: the value in force, the default, the saved value, or the capabilities of a feature: every one can be changed,
a vendor feature can be saved, and one that cannot has its default for saved value (R487). -/
def execGetFeatures (c : Nat) (s : State) : Host.Outcome State Fault Refusal :=
  .next <| s.run c (isAdminOp 0x0A) fun x s =>
    let e := x.entry
    let fid := bits e.cdw10 7 0
    let sel := bits e.cdw10 10 8
    let f := x.fn?.getD .a
    s.orElse c (firstBad [(!knownFeatures.contains fid, 10, 0), (decide (3 < sel), 10, 8),
      (fid == 0x09 && decide (64 < bits e.cdw11 15 0), 11, 0), (fid == 0x04 && (tmpSel e.cdw11).length != 1, 11, 16),
      (fid == 0x04 && decide (1 < bits e.cdw11 21 20), 11, 20)]) fun s =>
      if fid = 0x16 ∧ sel ≠ 3 then
        s.complete c (Cpl.data (padTo 512 [BitVec.ofNat 8 (bit ((s.fn f).acre && sel == 0))]))
      else s.complete c (Cpl.val
        (if sel = 0 then s.featureNow f fid e.cdw11
         else if sel = 1 then featureDefault fid e.cdw11
         else if sel = 2 then
           (if isVendorFeature fid then word [(s.nor.config.savedOf f fid, 0)] else featureDefault fid e.cdw11)
         else word [(bit (isVendorFeature fid), 0), (1, 2)]))

/-! ## Setting -/

/-- The SV bit of dword 10: the value is to be saved as well. -/
def saves (e : SqEntry) : Bool := bits e.cdw10 31 31 == 1

/-- A standard feature is set on the command's function; none of them can be saved (PRESUMED, log 33). -/
def State.setStandard (c fid : Nat) (bad : SqEntry → List (Bool × Nat × Nat)) (k : Fn → W32 → State → State) (s : State) : State :=
  s.run c (isAction 0x09 fid) fun x s => s.forHost c x fun f s =>
    s.orElse c (firstBad ((saves x.entry, 10, 31) :: bad x.entry)) (k f x.entry.cdw11)

/-- A vendor feature, a field [hi:0] within a range with reserved bits above, is set, and saved when asked (R487). -/
def State.setVendor (c fid hi lo most : Nat) (k : Ctx → Nat → State → State) (save : Ctx → Nat → ConfigStore → ConfigStore)
    (s : State) : State :=
  s.run c (isAction 0x09 fid) fun x s =>
    let v := bits x.entry.cdw11 hi 0
    s.orElse c (firstBad [(decide (v < lo) || decide (most < v), 11, 0), (bits x.entry.cdw11 31 (hi + 1) != 0, 11, hi + 1)]) fun s =>
      ((k x v s).when (saves x.entry) (State.modCfg (save x v))).complete c Cpl.ok

/-- SET_FEATURES_ARBITRATION: weights and burst, from the next turn on (spec/11 R436). -/
def execSetFeaturesArbitration (c : Nat) (s : State) : Host.Outcome State Fault Refusal :=
  .next <| s.setStandard c 0x01 (fun _ => []) fun f v s =>
    (s.modFn f fun x => { x with
      ab := Fin.ofNat 8 (bits v 2 0), lpw := bits v 15 8, mpw := bits v 23 16, hpw := bits v 31 24 }).complete c Cpl.ok

/-- SET_FEATURES_POWER_MANAGEMENT: the power state that this function selects; an operational one is kept as its last (spec/11
R445, R446). -/
def execSetFeaturesPowerManagement (c : Nat) (s : State) : Host.Outcome State Fault Refusal :=
  .next <| s.setStandard c 0x02 (fun e => [(decide (3 < bits e.cdw11 4 0), 11, 0)]) fun f v s =>
    let ps : Fin 4 := Fin.ofNat 4 (bits v 4 0)
    (s.modFn f fun x => { x with ps := ps, lastOp := if ps = 3 then x.lastOp else ps }).complete c Cpl.ok

/-- SET_FEATURES_TEMPERATURE_THRESHOLD: the over- or under-temperature threshold of the temperatures named (spec/15 R550). -/
def execSetFeaturesTemperatureThreshold (c : Nat) (s : State) : Host.Outcome State Fault Refusal :=
  .next <| s.setStandard c 0x04 (fun e => [(tmpSel e.cdw11 == [], 11, 16), (decide (1 < bits e.cdw11 21 20), 11, 20)]) fun f v s =>
    let put (x : Vector Nat 3) : Vector Nat 3 := (tmpSel v).foldl (fun x i => upd x i fun _ => bits v 15 0) x
    (s.modFn f fun x => { x with
      overTemp := if bits v 21 20 = 0 then put x.overTemp else x.overTemp
      underTemp := if bits v 21 20 = 0 then x.underTemp else put x.underTemp }).complete c Cpl.ok

/-- SET_FEATURES_VOLATILE_WRITE_CACHE: with WCE 0 it completes once the buffer is clean, and later writes act as with FUA
(spec/10 R397). -/
def execSetFeaturesVolatileWriteCache (c : Nat) (s : State) : Host.Outcome State Fault Refusal :=
  .next <| s.setStandard c 0x06 (fun _ => []) fun _ v s =>
    let on := v.getLsbD 0
    let s := s.modNames fun n => { n with wce := on }
    if on then s.complete c Cpl.ok else (s.await c .clean).settleWaits

/-- SET_FEATURES_NUMBER_OF_QUEUES: 63 for both counts, whatever is requested (spec/11 R418). -/
def execSetFeaturesNumberOfQueues (c : Nat) (s : State) : Host.Outcome State Fault Refusal :=
  .next <| s.setStandard c 0x07 (fun _ => []) fun _ _ s => s.complete c (Cpl.val (word [(63, 0), (63, 16)]))

/-- SET_FEATURES_INTERRUPT_COALESCING: THR and TIME of the function (spec/11 R440). -/
def execSetFeaturesInterruptCoalescing (c : Nat) (s : State) : Host.Outcome State Fault Refusal :=
  .next <| s.setStandard c 0x08 (fun _ => []) fun f v s =>
    (s.modFn f fun x => { x with thr := bits v 7 0, time := bits v 15 8 }).complete c Cpl.ok

/-- SET_FEATURES_INTERRUPT_VECTOR_CONFIG: CD of a vector (spec/11 R440). -/
def execSetFeaturesInterruptVectorConfig (c : Nat) (s : State) : Host.Outcome State Fault Refusal :=
  .next <| s.setStandard c 0x09 (fun e => [(decide (64 < bits e.cdw11 15 0), 11, 0)]) fun f v s =>
    (s.modVec f (Fin.ofNat 65 (bits v 15 0)) fun y => { y with cd := v.getLsbD 16 }).complete c Cpl.ok

/-- SET_FEATURES_ASYNC_EVENT_CONFIG: the notices enabled (spec/11 R449). -/
def execSetFeaturesAsyncEventConfig (c : Nat) (s : State) : Host.Outcome State Fault Refusal :=
  .next <| s.setStandard c 0x0B (fun _ => []) fun f v s => (s.modFn f fun x => { x with asyncCfg := v }).complete c Cpl.ok

/-- SET_FEATURES_FREEZE_ON_ERROR: on the function; queues that are frozen stay frozen (R471, R487). -/
def execSetFeaturesFreezeOnError (c : Nat) (s : State) : Host.Outcome State Fault Refusal :=
  .next <| s.setVendor c 0xC0 0 0 1
    (fun x v s => match x.fn? with
      | some f => s.modFn f fun y => { y with freeze := v == 1 }
      | none => s)
    fun x v k => match x.fn? with
      | some .a => { k with freezeA := v == 1 }
      | some .b => { k with freezeB := v == 1 }
      | none => k

/-- SET_FEATURES_THROTTLE_GRACE: from the next start of the timer (spec/15 R546). -/
def execSetFeaturesThrottleGrace (c : Nat) (s : State) : Host.Outcome State Fault Refusal :=
  .next <| s.setVendor c 0xC1 5 1 60 (fun _ v s => s.modTherm fun t => { t with graceS := v }) fun _ v k => { k with grace := v }

/-- SET_FEATURES_REBUILD_SHARE: from the next grant (spec/07 R263). -/
def execSetFeaturesRebuildShare (c : Nat) (s : State) : Host.Outcome State Fault Refusal :=
  .next <| s.setVendor c 0xC2 4 1 24 (fun _ v s => s.modChorus fun x => { x with rebuildShare := v }) fun _ v k =>
    { k with rebuildShare := v }

/-- SET_FEATURES_CONCURRENT_WRITE_LIMIT: for the next actuator that starts writing (R488). -/
def execSetFeaturesConcurrentWriteLimit (c : Nat) (s : State) : Host.Outcome State Fault Refusal :=
  .next <| s.setVendor c 0xC3 6 1 64 (fun _ v s => s.modPower fun w => { w with writeLimit := v }) fun _ v k =>
    { k with writeLimit := v }

/-- SET_FEATURES_CALIBRATION_THRESHOLD: heads are judged again against it (spec/08 R298, R316). -/
def execSetFeaturesCalibrationThreshold (c : Nat) (s : State) : Host.Outcome State Fault Refusal :=
  .next <| s.setVendor c 0xC4 3 1 15
    (fun _ v s => ({ s with cal := { s.cal with threshold := v } }).each (fins 64) State.noteHolds)
    fun _ v k => { k with calThreshold := v }

end Sys2Proof.Machine
end

