-- ==== Sys2Proof/Machine/Recorder.lean ====
section
/-! DEFINITION. Family Recorder: the Prompt Book (spec/17). -/

namespace Sys2Proof.Machine

/-- Records the ring holds (spec/17 R601). -/
def ringSize : Nat := 16384

/-- Sectors of the store and records in each (spec/17 R609). -/
def storeSectors : Nat := 4096
def storePlaces : Nat := 64

/-! ## Records -/

/-- A record's 64 bytes (spec/17 Table 17-1). -/
def Record.bytes (r : Record) : List Byte :=
  packBytes [(8, r.seq), (4, r.boot.toNat), (6, r.uptime), (1, r.cls.toNat), (1, 0), (2, r.code.toNat),
    (2, r.source.toNat), (32, r.payload.toNat), (2, r.repeats), (1, r.flags.toNat), (4, min 0xFFFFFFFF r.lastDelta),
    (1, if r.valid then 0x5A else 0)]

/-- flags bits of a record. -/
def flagSat : Nat := 0
def flagGap : Nat := 1
def flagHeld : Nat := 2
def flagCont : Nat := 3

/-- The newest record is still open: it has not been closed and 1 s has not passed (spec/17 R602). -/
def State.recOpen (s : State) : Bool := s.book.isOpen && decide (s.now < s.book.openAt + Config.sec)

/-- An event is identical to the open record (spec/17 R602). -/
def Record.same (r : Record) (e : Event) : Bool :=
  r.cls == e.cls && r.code == e.code && r.source == e.source && e.payload == [r.payload]

/-- An identical event folds: repeat rises, to 65,535, then saturated is set (spec/17 R602). -/
def Record.fold (r : Record) (e : Event) : Record :=
  if r.repeats < 65535 then { r with repeats := r.repeats + 1, lastDelta := e.uptime - r.uptime }
  else { r with flags := setBit r.flags flagSat, lastDelta := e.uptime - r.uptime }

/-- The newest sequence number in the store, 0 when it is empty. -/
def PromptStore.newest (p : PromptStore) : Nat := p.cells.foldl (fun n c => max n c.record.seq) 0

/-- The mark rises by 4,096 whenever the next number comes within 1,024 of it (spec/17 R608). -/
def raiseMark (next mark : Nat) : Nat := if next + 1024 ≥ mark then max mark (next / 4096 * 4096) + 4096 else mark

/-- A new record in the ring slot after the newest; it overwrites the oldest when the ring is full, and a closed
record overwritten before it was programmed is lost from the store (spec/17 R601, R609). -/
def State.pushRecord (r : Record) (s : State) : State :=
  let gone := s.book.ring.drop (ringSize - 1)
  let lost := gone.filter fun g => g.valid && decide (s.book.norSeq < g.seq)
  let mark := raiseMark (r.seq + 1) s.aon.seqMark
  { s with
    aon := { s.aon with seqMark := mark }
    book := { s.book with
      ring := r :: s.book.ring.take (ringSize - 1)
      nextSeq := r.seq + 1
      lostFirst := match lost, s.book.lostCount with
        | g :: _, 0 => g.seq
        | _, _ => s.book.lostFirst
      lostCount := s.book.lostCount + lost.length } }

/-- The flags a new record starts with. -/
def startFlags (held cont : Bool) : Byte := BitVec.ofNat 8 (bit held * 4 + bit cont * 8)

/-- Continuation records of a chain: class 0x00, code 0x0000, the same source (spec/17 R603). -/
def State.pushChain (e : Event) : List (BitVec 256) → State → State
  | [], s => s
  | p :: rest, s =>
    State.pushChain e rest (s.pushRecord
      { seq := s.book.nextSeq, boot := e.boot, uptime := e.uptime, cls := 0, code := 0, source := e.source, payload := p,
        repeats := 0, flags := startFlags e.held (rest != []), lastDelta := 0, valid := true })

/-- An event is written as a new record, or as a chain that never folds and is closed as soon as it is written
(spec/17 R601, R603, R609). -/
def State.writeRecord (e : Event) (s : State) : State :=
  let rest := e.payload.drop 1
  let t := s.pushRecord
    { seq := s.book.nextSeq, boot := e.boot, uptime := e.uptime, cls := e.cls, code := e.code, source := e.source,
      payload := e.payload.headD 0, repeats := 0, flags := startFlags e.held (rest != []), lastDelta := 0,
      valid := true }
  (t.pushChain e rest).modBook fun b => { b with isOpen := rest == [], openAt := s.now, inChain := rest != [] }

/-- The instants of the new records of the 1 ms that ends now (R604). -/
def State.newInMs (s : State) : List Nat := recent s.now Config.ms s.book.newAt

/-- The Error Information entry whose event has become a record takes the record's number (spec/17 Table 17-3). -/
def State.noteSeq (e : Event) (n : Nat) (s : State) : State :=
  if e.cls = 0x0C ∧ e.code = 0x8001 then
    let v := (e.payload.headD 0).toNat
    let hit (x : ErrEntry) : Bool := x.seq.isNone && x.sqid.toNat == v / 2 ^ 16 % 2 ^ 16 && x.cid.toNat == v / 2 ^ 32 % 2 ^ 16 &&
      x.status.toNat == v / 2 ^ 48 % 2 ^ 16
    let mark (f : HostFn) : HostFn :=
      match (f.errLog.filter hit).getLast? with
      | some y => { f with errLog := mapWhere (fun x => x.count == y.count) (fun x => { x with seq := some n }) f.errLog }
      | none => f
    s.modFn (if v % 256 = 0 then .a else .b) mark
  else s

/-- A new record, within the limit of R604: beyond 200 in any 1 ms the event is dropped and counted; the 1 ms ends when the oldest of
the records that fill it is 1 ms old. -/
def State.takeNew (e : Event) (s : State) : State :=
  let l := s.newInMs
  if l.length + e.payload.length ≤ 200 then
    ((s.writeRecord e).noteSeq e s.book.nextSeq).modBook fun b => { b with newAt := e.payload.map (fun _ => s.now) ++ l }
  else s.modBook fun b => { b with winDrops := b.winDrops + 1, drops := sat32 b.drops 1, newAt := l
                                   winEnd := if b.winDrops = 0 then l.getLastD s.now + Config.ms else b.winEnd
                                   winFirst := if b.winDrops = 0 then e.uptime else b.winFirst }

/-- The recorder takes an event: it folds into the open record, or it is a new one (spec/17 R602, R604). -/
def State.take (e : Event) (s : State) : State :=
  match s.book.ring with
  | r :: rest =>
    if s.recOpen ∧ ¬ s.book.inChain ∧ r.same e = true then
      (s.modBook fun b => { b with ring := r.fold e :: rest }).noteSeq e r.seq
    else s.takeNew e
  | [] => s.takeNew e

/-- Write an event without the limit of R604: the held events, and the reports of drops (log 10). -/
def State.takeHeld (e : Event) (s : State) : State :=
  match s.book.ring with
  | r :: rest =>
    if s.recOpen ∧ ¬ s.book.inChain ∧ r.same e = true then s.modBook fun b => { b with ring := r.fold e :: rest }
    else s.writeRecord e
  | [] => s.writeRecord e

/-- Write an event that was held; an Error Information entry takes the number of its record (Table 17-3). -/
def State.takeNoted (e : Event) (s : State) : State :=
  let s := s.takeHeld e
  s.noteSeq e (s.book.nextSeq - 1)

/-! ## The store -/

/-- The next sector that is not passed over. -/
def nextSector (passed : List Nat) : Nat → Nat → Nat
  | 0, n => n
  | k + 1, n => let m := (n + 1) % storeSectors; if passed.contains m then nextSector passed k m else m

/-- The pointer after one more record: the next place, or the next sector with one fewer erased ahead. -/
def PromptStore.advance (passed : List Nat) (p : PromptStore) : PromptStore :=
  if p.place + 1 < storePlaces then { p with place := p.place + 1 }
  else { p with place := 0, sector := nextSector passed storeSectors p.sector, erased := p.erased - 1 }

/-- The closed record to be programmed next: the oldest not yet in the store (spec/17 R609). -/
def State.pendingRecords (s : State) : List Record :=
  let closed := if s.recOpen then s.book.ring.drop 1 else s.book.ring
  (closed.filter fun r => r.valid && decide (s.book.norSeq < r.seq)).reverse

/-- A record programmed into the store at the pointer, with gap set when the number below it is absent. -/
def State.programRecord (r : Record) (s : State) : State :=
  let newest := s.nor.prompt.newest
  let r := if newest + 1 = r.seq ∨ newest = 0 then r else { r with flags := setBit r.flags flagGap }
  let cell : StoreCell := { sector := s.nor.prompt.sector, place := s.nor.prompt.place, record := r }
  let s := s.norProgram .prompt (s.nor.prompt.sector * 4096 + s.nor.prompt.place * 64) 64
  { s with
    nor := { s.nor with prompt :=
      PromptStore.advance s.book.passed { s.nor.prompt with cells := cell :: s.nor.prompt.cells } }
    book := { s.book with norSeq := r.seq } }

/-- The 0x8005 record that names records lost from the store (spec/17 R609). -/
def State.reportLoss (s : State) : State :=
  if s.book.lostCount = 0 then s
  else ((s.takeHeld (s.mkEvent 0x01 0x8005 noSource (pay [(8, s.book.lostFirst), (8, s.book.lostCount)]))).modBook
    fun b => { b with lostCount := 0 })

/-! ## Commands -/

/-- EVENT_RECORD: the recorder takes the i-th event that waits for it, whose uptime is that of the moment it is taken (spec/17 Table
17-1, R600, R601; events of different units may arrive in any order, R530). -/
def execEventRecord (i : Nat) (s : State) : Host.Outcome State Fault Refusal :=
  .next <|
    if s.book.ready then
      match s.book.inbox[i]? with
      | some e => (s.modBook fun b => { b with inbox := dropAt i b.inbox }).take { e with uptime := s.uptime }
      | none => s
    else s

/-- RECORD_CLOSE: 1 s after it was written, the open record closes (spec/17 R602). -/
def execRecordClose (s : State) : Host.Outcome State Fault Refusal :=
  .next <|
    if s.book.isOpen then (s.at_ (s.book.openAt + Config.sec)).modBook fun b => { b with isOpen := false } else s

/-- DROP_WINDOW_END: the 1 ms ends, and one record of code 0x8003 gives the count of the events dropped in it and
the µs of the first (spec/17 R604). -/
def execDropWindowEnd (s : State) : Host.Outcome State Fault Refusal :=
  .next <|
    if s.book.winDrops = 0 then s
    else
      let t := s.at_ s.book.winEnd
      (t.takeHeld (t.mkEvent 0x01 0x8003 noSource (pay [(4, s.book.winDrops), (6, s.book.winFirst)]))).modBook
        fun b => { b with winDrops := 0, newAt := t.now :: t.newInMs }

/-- STORE_PROGRAM: while the recorder takes events the oldest closed record is programmed and compared; `ok`: the comparison succeeded. A failed
record goes to the next sector, and a sector that fails twice is passed over (spec/17 R609). -/
def execStoreProgram (ok : Bool) (s : State) : Host.Outcome State Fault Refusal :=
  .next <|
    match s.pendingRecords with
    | [] => s
    | r :: _ =>
      if s.nor.prompt.erased = 0 ∨ s.book.ready = false then s
      else
      if ok then (s.programRecord r).reportLoss
      else
        let s := s.norProgram .prompt (s.nor.prompt.sector * 4096 + s.nor.prompt.place * 64) 64
        let here := s.nor.prompt.sector
        let twice := s.book.failedOnce.contains here
        let passed := if twice then here :: s.book.passed else s.book.passed
        (s.modNor fun n => { n with prompt := { n.prompt with
          sector := nextSector passed storeSectors here, place := 0, erased := n.prompt.erased - 1 } }).modBook fun b =>
          { b with failedOnce := here :: b.failedOnce, passed := passed, norFault := b.norFault || twice }

/-- STORE_ERASE: while idle a sector ahead of the write pointer is erased, which discards the records it holds
(spec/17 R609). -/
def execStoreErase (s : State) : Host.Outcome State Fault Refusal :=
  .next <|
    if s.nor.prompt.erased + 1 < storeSectors then
      let target := (s.nor.prompt.sector + s.nor.prompt.erased + 1) % storeSectors
      (s.norErase .prompt (target * 4096) 4096).modNor fun n => { n with prompt := { n.prompt with
        erased := n.prompt.erased + 1, cells := n.prompt.cells.filter fun c => c.sector != target } }
    else s

/-- CLEAR_REMOVAL: cleared records leave the store: a 64 KiB block whose records all lie at or below clear_to is
erased, the other records concerned are marked not valid by one program of each 256-byte page, and erase_pending ends (spec/17
R617). -/
def execClearRemoval (s : State) : Host.Outcome State Fault Refusal :=
  .next <|
    if s.book.erasePending then
      let keep (b : Nat) : Bool := s.nor.prompt.cells.any fun c => c.sector / 16 == b && decide (s.book.clearTo < c.record.seq)
      let gone := ((s.nor.prompt.cells.map fun c => c.sector / 16).eraseDups).filter fun b => !keep b
      let s := s.each gone fun b s => s.norErase .prompt (b * 65536) 65536
      let cells := s.nor.prompt.cells.filter fun c => keep (c.sector / 16)
      let marked := cells.filter fun c => c.record.valid && decide (c.record.seq ≤ s.book.clearTo)
      let s := s.each ((marked.map fun c => c.sector * 16 + c.place / 4).eraseDups) fun g s => s.norProgram .prompt (g * 256) 256
      let cells := mapWhere (fun c => decide (c.record.seq ≤ s.book.clearTo))
        (fun c => { c with record := { c.record with valid := false } }) cells
      (s.modNor fun n => { n with prompt := { n.prompt with cells := cells } }).modBook fun b => { b with erasePending := false }
    else s

/-- The store's places of the given records are read (spec/02 R71, Table 2-3; spec/17 R609). -/
def State.readCells (l : List Record) (s : State) : State :=
  s.each (s.nor.prompt.cells.filter fun c => l.contains c.record) fun c s => s.norRead .prompt (c.sector * 4096 + c.place * 64) 64

/-- The newest records of the store, newest first, that a clear has not removed. -/
def State.storeRecords (s : State) : List Record :=
  (s.nor.prompt.cells.filter fun c => c.record.valid && decide (s.book.clearTo < c.record.seq)).map StoreCell.record

/-- REC_CLEAR restored from the newest 0x8002 chain in the store (spec/17 R617). -/
def State.storedClear (s : State) : Nat :=
  s.nor.prompt.cells.foldl (fun n c => if c.record.cls = 0x01 ∧ c.record.code = 0x8002 then
    max n (c.record.payload.toNat / 2 ^ 64 % 2 ^ 64) else n) 0

/-- The store still holds records that the newest clear removes (spec/17 R617). -/
def State.removalDue (s : State) : Bool := s.nor.prompt.cells.any fun c => c.record.valid && decide (c.record.seq ≤ s.storedClear)

/-- The next sequence number at bring-up (spec/17 R608, Table 17-4). -/
def State.firstSeq (s : State) : Nat :=
  let newest := s.nor.prompt.newest
  if s.aon.afterPowerOn then newest + 1 + 2 ^ 32
  else max s.aon.seqMark (max newest ((s.book.ring.map Record.seq).foldl max 0) + 1)

/-- BOOT_PROGRESS as a register (spec/02 Table 2-7). -/
def State.bootProgress (s : State) : W32 :=
  word [(s.aon.attempts.toNat, 24), (bit s.aon.slot, 23), (bit s.aon.recovery, 22), (s.aon.dramState.toNat, 16),
    (s.aon.step.toNat, 8), (s.aon.error.toNat, 0)]

/-- BOOT_RESET_CAUSE as a register (spec/02 Table 2-6). -/
def State.resetCause (s : State) : W32 := BitVec.ofNat 32 s.aon.cause.toNat

/-- The ring as step 11 finds or loads it (spec/17 Table 17-4): kept over a warm device reset with its open record
closed, else loaded from the store. -/
def State.restoreRing (s : State) : State :=
  if s.boot.cold then
    (s.readCells (s.storeRecords.take ringSize)).modBook fun b => { b with
      ring := s.storeRecords.take ringSize, isOpen := false, inChain := false, ringFromNor := s.storeRecords != [] }
  else s.modBook fun b => { b with isOpen := false, inChain := false, ringFromNor := false }

/-- The boot record, class 0x01 code 0x8001: the first after the held events (spec/17 Table 17-3), with gap when
its number is not one above the newest in the store (R608). -/
def State.bootRecord (s : State) : State :=
  let origin := if s.boot.cold then (if s.book.ringFromNor then 1 else 2) else 0
  let gap := decide (s.nor.prompt.newest + 1 ≠ s.book.nextSeq)
  let e := s.mkEvent 0x01 0x8001 noSource (pay [(8, s.ident.bootCounter.toNat), (4, s.resetCause.toNat),
    (4, s.bootProgress.toNat), (4, s.ident.fwVersion.toNat), (1, origin)])
  (s.writeRecord e).modBook fun b => { b with ring := match b.ring with
    | r :: rest => (if gap then { r with flags := setBit r.flags flagGap } else r) :: rest
    | [] => [] }

/-- HELD_EVENTS_WRITE: at step 11 the ring is restored, the held events are written in the order of R732 and R607,
then the boot record, and the recorder takes events (spec/17 R607, R608, R732); REC_DROPS counts the THERM events that were
dropped (Table 17-6). -/
def execHeldEventsWrite (s : State) : Host.Outcome State Fault Refusal :=
  .next <|
    if s.boot.complete ∧ ¬ s.book.ready then
      let s := (s.modBook fun b => { b with clearTo := max b.clearTo s.storedClear }).restoreRing
      let s := s.modBook fun b => { b with nextSeq := s.firstSeq, norSeq := s.nor.prompt.newest, erasePending := s.removalDue
                                           drops := sat32 b.drops s.aon.heldLost, newAt := [] }
      let s := s.modAon fun a => { a with seqMark := raiseMark s.book.nextSeq a.seqMark, afterPowerOn := false }
      let s := s.each s.aon.held State.takeHeld
      let s := s.when (s.aon.heldLost != 0) fun s => s.takeHeld
        { s.mkEvent 0x01 0x8006 noSource (pay [(4, s.aon.heldLost)]) with held := true }
      let s := s.each s.book.found State.takeHeld
      let s := s.each s.book.held State.takeNoted
      let s := s.when (s.book.heldLost != 0) fun s => s.takeHeld
        { s.mkEvent 0x01 0x8003 noSource (pay [(4, s.book.heldLost), (6, s.book.heldFirst)]) with held := true }
      let s := s.bootRecord
      (s.modAon fun a => { a with held := [], heldLost := 0 }).modBook fun b =>
        { b with ready := true, found := [], held := [], heldLost := 0 }
    else s

/-! ## Reading and clearing (spec/17 R613 to R616, spec/12 Table 12-10) -/

/-- The readable ring records, oldest first: above REC_CLEAR, and one with an uncorrectable error taken from the
store (spec/17 R613). -/
def State.readableRing (s : State) : List Record :=
  (s.book.ring.filterMap fun r =>
    if s.book.clearTo < r.seq then
      if r.valid then some r else (s.storeRecords.find? fun q => q.seq == r.seq)
    else none).reverse

/-- The readable store records, oldest first. -/
def State.readableStore (s : State) : List Record := s.storeRecords.reverse

/-- RECORDER_READ: whole records, oldest first, from a sequence number forward or the newest count (spec/12 R484). -/
def execRecorderRead (c : Nat) (s : State) : Host.Outcome State Fault Refusal :=
  .next <| s.run c (isAdminOp 0xC8) fun x s =>
    let e := x.entry
    let mode := bits e.cdw10 7 0
    let start := e.cdw11.toNat + 2 ^ 32 * e.cdw12.toNat
    let count := bits e.cdw13 15 0
    let bad := firstBad [(decide (1 < mode), 10, 0), (bits e.cdw10 31 9 != 0, 10, 9),
      (count == 0 || decide (ringSize < count), 13, 0), (bits e.cdw13 31 16 != 0, 13, 16), (e.cdw14 != 0, 14, 0),
      (e.cdw15 != 0, 15, 0)]
    s.orElse c bad fun s =>
      let all := if bits e.cdw10 8 8 = 0 then s.readableRing else s.readableStore
      let got := if mode = 0 then (all.filter fun r => decide (start ≤ r.seq)).take count
        else all.drop (all.length - count)
      let s := s.when (bits e.cdw10 8 8 != 0) (State.readCells got)
      s.complete c { Cpl.data (got.flatMap Record.bytes) with dw0 := BitVec.ofNat 32 got.length }


/-- The first check of R615 that a clear token fails, 0 when it passes. -/
def State.checkToken (s : State) (tok : List Byte) (len : Nat) : Nat :=
  let key := (tok.drop 64).take 1952
  let keys := match s.ident.manifest with
    | some m => m.clear
    | none => []
  let clearTo := field tok 32 8
  if len ≠ 5325 ∨ tok.length ≠ 5325 ∨ field tok 0 4 ≠ 0x43525A49 ∨ field tok 4 2 ≠ 1 ∨ field tok 6 2 ≠ 0
      ∨ field tok 40 24 ≠ 0 ∨ keys.contains (digest key) = false
      ∨ Config.mldsaVerify key (ascii "IZ-RC") (tok.take 2016) (tok.drop 2016) = false then 1
  else if field tok 8 16 ≠ Config.deviceIdentity.toNat then 2
  else if field tok 24 8 ≠ s.ident.bootCounter.toNat then 3
  else if s.book.nextSeq ≤ clearTo ∨ clearTo ≤ s.book.clearTo then 4
  else 0

/-- Which clear key of the manifest a key is. -/
def keyIndex (d : Digest) : List Digest → Nat
  | [] => 0
  | k :: r => if k = d then 0 else 1 + keyIndex d r

/-- The records a clear covers, ascending, from the store where programmed and from the ring otherwise (R616). -/
def State.covered (s : State) (lo hi : Nat) : List Record :=
  let inRange := fun (r : Record) => r.valid && decide (lo ≤ r.seq) && decide (r.seq ≤ hi)
  let st := s.storeRecords.filter inRange
  let rg := s.book.ring.filter fun r => inRange r && !(st.any fun q => q.seq == r.seq)
  (st.filter fun q => !(s.book.ring.any fun r => r.seq == q.seq)).reverse ++
    (s.book.ring.filterMap fun r =>
      if inRange r then (match st.find? (fun q => q.seq == r.seq) with
        | some q => some q
        | none => rg.find? (fun q => q.seq == r.seq))
      else st.find? (fun q => q.seq == r.seq)).reverse

/-- RECORDER_CLEAR: the token is checked in the order of R615; an accepted clear writes the 0x8002 chain, programs
it, sets REC_CLEAR and marks the ring records not valid (spec/17 R616; whole in one command, log 10). -/
def execRecorderClear (c : Nat) (s : State) : Host.Outcome State Fault Refusal :=
  .next <| s.run c (isAdminOp 0xC9) fun x s =>
    let e := x.entry
    s.orElse c (firstBad [(bits e.cdw10 31 16 != 0, 10, 16), (e.cdw11 != 0, 11, 0), (e.cdw12 != 0, 12, 0),
      (e.cdw13 != 0, 13, 0), (e.cdw14 != 0, 14, 0), (e.cdw15 != 0, 15, 0)]) fun s =>
      let tok := e.data.take (bits e.cdw10 15 0)
      let fail := s.checkToken tok (bits e.cdw10 15 0)
      if fail ≠ 0 then s.complete c (Cpl.errVal 0x0 0x0C (BitVec.ofNat 32 fail))
      else
        let lo := s.book.clearTo + 1
        let hi := field tok 32 8
        let s := s.modBook fun b => { b with isOpen := false }
        let recs := s.covered lo hi
        let s := s.readCells recs
        let dg := (digest (recs.flatMap Record.bytes)).toNat
        let key := keyIndex (digest ((tok.drop 64).take 1952)) (match s.ident.manifest with
          | some m => m.clear
          | none => [])
        let s := s.writeRecord (s.mkEvent 0x01 0x8002 noSource
          [BitVec.ofNat 256 (pack [(8, lo), (8, hi), (4, recs.length), (1, key)]), BitVec.ofNat 256 dg,
           BitVec.ofNat 256 (dg / 2 ^ 256)])
        let s := (s.each s.pendingRecords State.programRecord).reportLoss
        let s := s.modBook fun b => { b with
          clearTo := hi, erasePending := true
          ring := mapWhere (fun r => decide (r.seq ≤ hi)) (fun r => { r with valid := false }) b.ring }
        s.complete c Cpl.ok

end Sys2Proof.Machine
end

