-- ==== Sys2Proof/Machine/Flags.lean ====
section
/-! DEFINITION. The registers of the status window as words: every block's status, event and counter registers, what a
completed read of an RC field clears, and what a write clears (spec/11 R409; spec/00 R14, R15). -/

namespace Sys2Proof.Machine

/-- Milliseconds of a span of ns, where the spec states no rounding (log 7). -/
def msOf (ns : Nat) : Nat := (freeRound ns Config.ms).toNat

/-- Word n of a digest: byte 0 of the digest in bits [7:0] of word 0. -/
def digestWord (d : Digest) (n : Nat) : W32 := BitVec.ofNat 32 (d.toNat / 2 ^ (32 * n))

/-- Low and high words of a 64-bit number. -/
def lo32 (v : Nat) : W32 := BitVec.ofNat 32 v
def hi32 (v : Nat) : W32 := BitVec.ofNat 32 (v / 2 ^ 32)

/-! ## IDENT (spec/16 Table 16-15) -/

def State.identState (s : State) : W32 :=
  word [(s.ident.addenda % 256, 16), (bit !s.ident.pendingNor.isEmpty, 5), (bit s.ident.manifest.isSome, 4), (bit s.ident.chainStart, 3),
    (bit s.ident.sealed, 2), (bit s.ident.certPresent, 1), (bit s.ident.keyReady, 0)]

def State.identWord (s : State) (off : Nat) : W32 :=
  let id := leBytes 16 Config.deviceIdentity.toNat
  if off = 0x000 then lo32 (field id 0 4)
  else if off = 0x004 then word [(field id 7 1 % 32, 24), (field id 4 3, 0)]
  else if off = 0x008 then word [(field id 10 2, 16), (field id 9 1, 8), (field id 8 1, 0)]
  else if off = 0x00C then s.identState
  else if off = 0x010 then lo32 s.ident.bootCounter.toNat
  else if off = 0x014 then hi32 s.ident.bootCounter.toNat
  else if off = 0x018 then s.ident.fwVersion
  else if off = 0x01C then word [((s.ident.manifest.map fun m => m.minSecurity.toNat).getD 0, 16), (s.ident.securityVersion.toNat, 0)]
  else if 0x100 ≤ off ∧ off < 0x400 then digestWord ((s.ident.stages.toList)[(off - 0x100) / 64]?.getD 0) (off % 64 / 4)
  else if 0x400 ≤ off ∧ off < 0x440 then digestWord s.ident.newest (off % 64 / 4)
  else if 0x440 ≤ off ∧ off < 0x480 then digestWord s.ident.attestKey (off % 64 / 4)
  else 0

/-! ## THERM (spec/15 Table 15-7) -/

def State.thermStatus (s : State) : W32 :=
  let t := s.therm
  word [((t.sensors.toList.filter fun x => x.broken).length % 16, 8), (bit t.shutdownLatched, 7),
    (bit (decide (2000 ≤ t.hot) || decide (128 < t.rise)), 6), (bit (decide (1680 ≤ t.hot)), 5), (bit t.graceAt.isSome, 4),
    (bit t.request, 3), (t.step.val, 0)]

/-- A mask of the sensors that meet a test. -/
def Therm.mask (t : Therm) (f : Sensor → Bool) : Nat := ((fins 16).map fun i => bit (f t.sensors[i]) * 2 ^ i.val).sum

/-- A sensor's filtered reading; a broken one reads 126 °C (spec/15 R542). -/
def Sensor.reading (x : Sensor) : Int := if x.broken then 2016 else (x.hist.head?.map Prod.snd).getD 0

def State.thermWord (s : State) (off : Nat) : W32 :=
  let t := s.therm
  if off = 0x00 then s.thermStatus
  else if off = 0x04 then lo32 t.events.toNat
  else if off = 0x08 then word [(unsigned 16 t.hot, 16), (t.hotSensor.val, 0)]
  else if off = 0x0C then word [(unsigned 16 t.rise, 16), (t.riseSensor.val, 0)]
  else if off = 0x10 then word [(t.mask Sensor.excluded, 16), (t.mask Sensor.broken, 0)]
  else if off = 0x14 then word [(match t.graceAt with
      | some g => msOf (g - s.now)
      | none => 0, 16), (t.graceS, 0)]
  else if off = 0x18 then word [(t.hdaMax.toNat, 16), (t.hdaStop, 8), (t.hdaWarn, 0)]
  else if off = 0x1C then word [(min 65535 t.shutdowns, 16), (match t.below100 with
      | some b => min 30000 (msOf (s.now - b))
      | none => 0, 0)]
  else if 0x40 ≤ off ∧ off < 0xC0 then
    let x := (t.sensors.toList)[(off - 0x40) / 8]?.getD Sensor.reset
    if off % 8 = 0 then word [(unsigned 16 x.reading, 16), (bit x.excluded, 1), (bit x.broken, 0)] else x.count
  else 0

/-! ## REC (spec/17 Table 17-6) -/

def State.recWord (s : State) (off : Nat) : W32 :=
  let b := s.book
  let valid := b.ring.filter fun r => r.valid && decide (b.clearTo < r.seq)
  let newest := (b.ring.head?.map Record.seq).getD 0
  let oldest := (valid.getLast?.map Record.seq).getD 0
  if off = 0x00 then word [(bit b.norFault, 5), (bit b.erasePending, 4), (bit b.clearing, 3), (bit s.recOpen, 2), (bit b.ringFromNor, 1),
    (bit b.ready, 0)]
  else if off = 0x04 then word [(min 65535 s.pendingRecords.length, 16), (valid.length, 0)]
  else if off = 0x08 then lo32 newest
  else if off = 0x0C then hi32 newest
  else if off = 0x10 then lo32 oldest
  else if off = 0x14 then hi32 oldest
  else if off = 0x18 then lo32 b.norSeq
  else if off = 0x1C then hi32 b.norSeq
  else if off = 0x20 then lo32 b.clearTo
  else if off = 0x24 then hi32 b.clearTo
  else if off = 0x28 then b.drops
  else 0

/-! ## PORT windows (spec/03 Tables 3-14 to 3-19) -/

def State.portStatus (s : State) (p : PortId) : W32 :=
  let x := s.port p
  word [(x.train.val, 20), (x.fail.val, 16), (bit x.dual, 12), (bit x.lane, 11), (bit x.obeyed, 10), (bit x.degraded, 9),
    (bit x.inService, 8), (bit (s.act (actOf p 1)).loaded, 7), (bit (s.act (actOf p 0)).loaded, 6), (bit (s.tempFresh p), 5),
    (bit x.addendum, 4), (bit x.persVerified, 3), (bit x.blockLock, 2), (bit (s.pins.prsnt.getLsbD p.val), 1), (bit x.clock, 0)]

def State.portWord (s : State) (p : PortId) (off : Nat) : W32 :=
  let x := s.port p
  if off = 0x00 then s.portStatus p
  else if off = 0x04 then lo32 x.events.toNat
  else if off = 0x08 then word [((recent s.now (60 * Config.sec) x.resets).length % 256, 16), (x.attempt % 256, 8), (min 255 x.trained, 0)]
  else if off = 0x0C then word [(x.hdaTemp.toNat, 16), (x.supplyMv.toNat, 0)]
  else if off = 0x10 then lo32 x.token.toNat
  else if off = 0x14 then hi32 x.token.toNat
  else if off = 0x20 then x.smpCorr
  else if off = 0x24 then x.smpUncorr
  else if off = 0x28 then x.seqErr
  else if off = 0x2C then x.gateErr
  else if off = 0x30 then x.pktTimeout
  else if off = 0x34 then x.cmdUncorr
  else 0

/-- An offset of a PORT window that lies in the link domain (spec/14 R533). -/
def inLinkDomain (off : Nat) : Bool := decide (0x20 ≤ off) && decide (off < 0x38)

/-! ## SPIN registers (spec/04 Tables 4-6 to 4-10) -/

/-- Code of a spindle engine's state. -/
def SpinSt.code : SpinSt → Nat
  | .stopped => 0x00
  | .listen => 0x01
  | .brakeToStop => 0x02
  | .activeBraking => 0x03
  | .satTest => 0x04
  | .alignment => 0x05
  | .forced => 0x06
  | .closedLoop => 0x07
  | .atSpeed => 0x08
  | .outOfReg => 0x09
  | .regenDown => 0x0A
  | .shortStop => 0x0B
  | .ovBrake => 0x0C
  | .startFailed => 0x0D

def State.spinWord (s : State) (p : PortId) (off : Nat) : W32 :=
  let v := s.spin p
  if off = 0x00 then word [((v.step.map Fin.val).getD 0xF, 16), (bit v.refused, 11), (bit v.ovLatched, 10), (bit v.chopper, 9),
    (bit v.inLock, 8), (bit v.inReg, 7), (bit v.backward, 6), (bit v.turning, 5), (v.st.code, 0)]
  else if off = 0x04 then word [(unsigned 16 v.rpm, 16), (v.curve v.levelCmd % 65536, 0)]
  else if off = 0x08 then v.periodNs
  else if off = 0x0C then word [(v.levelRun, 16), (v.levelCmd, 0)]
  else if off = 0x10 then word [(unsigned 16 v.output, 16), (v.advance % 4096, 0)]
  else if off = 0x14 then lo32 v.events.toNat
  else if off = 0x18 then word [(min 65535 v.starts, 16), (min 255 v.catches, 8), (min 255 v.failures, 0)]
  else if off = 0x1C then word [(v.margin % 65536, 16), (bit v.aligned, 4), (bit v.reverse, 3), (v.pair.val, 0)]
  else 0

/-! ## SERVO registers (spec/05 Tables 5-9 to 5-12) -/

def Region.code : Region → Nat
  | .parked => 0
  | .seek => 1
  | .settle => 2
  | .follow => 3
  | .shock => 4

def State.servoWord (s : State) (a : ActId) (off : Nat) : W32 :=
  let x := s.act a
  if off = 0x0 then word [(x.wedge % 512, 15), (bit x.writeAllowed, 11), (bit x.readAllowed, 10), (bit x.ma.sat, 9), (bit x.vcm.sat, 8),
    (bit x.profile1, 5), (bit x.loaded, 4), (x.region.code, 0)]
  else if off = 0x4 then word [(unsigned 16 x.pes, 16), (unsigned 16 x.vel, 0)]
  else if off = 0x8 then lo32 x.events.toNat
  else if off = 0xC then word [(min 65535 x.inhibits, 16), (min 255 x.shocks, 8), (min 255 x.lost, 0)]
  else 0

/-! ## CHORUS block (spec/07 Tables 7-7 to 7-10) -/

def EngSt.code : EngSt → Nat
  | .offline => 0
  | .free => 1
  | .bound => 2
  | .reading => 3
  | .recovery => 4
  | .selfTest => 5
  | .gated => 6
  | .faulted => 7

/-- Engines in a state of a list. -/
def State.engsIn (s : State) (l : List EngSt) : Nat := (s.chorus.engs.toList.filter fun e => l.contains e.st).length

/-- N of R269: engines enabled and in service. -/
def State.engsServing (s : State) : Nat := s.engsIn [.free, .bound, .reading, .recovery]

/-- Engines enabled as CHORUS_POOL reads: 0 until the control processors run (R284). -/
def State.enabledRead (s : State) : Nat := if s.boot.released then s.enabledEngines else 0

/-- L of R35 as CHORUS_SHARE reads. -/
def State.limitRead (s : State) : Nat := if s.boot.released then s.rebuildLimit else 0

/-- Waiting requests served in a class. -/
def State.waitingIn (s : State) (cls : OpClass) : Nat :=
  ((fins 64).filter fun a => match s.waitingReq a with
    | some r => r.served == cls
    | none => false).length

/-- A word of the CHORUS registers (R284); CHORUS_ACT_WAIT shows the original class of a promoted request (DESIGN CHOICE, log 155). -/
def State.chorusWord (s : State) (off : Nat) : W32 :=
  if off = 0x000 then word [(s.enabledRead, 24), (s.engsServing, 16), (s.engsIn [.bound, .reading], 8), (s.engsIn [.recovery], 0)]
  else if off = 0x004 then word [((s.chorus.engs.toList.map fun e => e.slots.length).sum, 16), (s.limitRead, 8), (s.rebuildHeld, 0)]
  else if off = 0x008 then word [(s.waitingIn 2, 16), (s.waitingIn 1, 8), (s.waitingIn 0, 0)]
  else if off = 0x00C then s.chorus.waitMax
  else if off = 0x010 then lo32 s.chorus.events.toNat
  else if 0x100 ≤ off ∧ off < 0x280 then
    let e := (s.chorus.engs.toList)[(off - 0x100) / 16]?.getD Eng.reset
    if off % 16 = 0 then word [(e.slots.length, 16), (e.act.val, 8), (e.cls.val, 6), (e.st.code, 0)]
    else if off % 16 = 4 then lo32 e.events.toNat
    else if off % 16 = 8 then word [(min 65535 e.sessions, 16), (min 65535 e.captures, 0)]
    else word [(min 65535 e.recovered, 16), (min 65535 e.unrecovered, 0)]
  else if h : 0x400 ≤ off ∧ off < 0x600 then
    let a : ActId := ⟨(off - 0x400) / 8, by omega⟩
    let x := s.pool a
    if off % 8 = 0 then match x.req with
      | some r => word [(1, 31), (r.cls.val, 29), (bit (s.isReady a), 28), (if s.isReady a then min 1048575 (s.waitUs r) else 0, 0)]
      | none => 0
    else word [(min 255 x.underruns, 16), (min 255 x.stagingErrors, 8), (x.enc.val, 0)]
  else 0

/-! ## CAL block (spec/08 Tables 8-10 to 8-12) -/

/-- An actuator with a due head. -/
def State.actDue (s : State) (a : ActId) : Bool := (s.heads a).any fun h => s.due a h

def State.calDue (s : State) : Nat := ((fins 64).filter fun a => (s.acal a).told && s.actDue a).length
def State.calBreaks (s : State) : Nat := (s.actCals.toList.filter fun x => x.brk.isSome).length

/-- Largest deviation of an actuator's heads, in 0.25 °C, saturating; an uncalibrated head deviates most (log 44). -/
def State.devMax (s : State) (a : ActId) : Nat :=
  (s.heads a).foldl (fun m h => max m (match s.deviation a h with
    | some d => min 255 (freeRound d 4).toNat
    | none => 255)) 0

def State.calState (s : State) (a : ActId) : Nat :=
  if (s.acal a).brk.isSome then 3
  else if s.actInService a = false then 0
  else if (s.breakFor a).isSome then 2
  else if s.cal.deferUntil.isSome ∧ s.actDue a = true then 4
  else 1

def State.calWord (s : State) (off : Nat) : W32 :=
  if off = 0x000 then word [(s.calBreaks, 16), (s.calDue, 8), (bit s.cal.deferUntil.isSome, 0)]
  else if off = 0x004 then word [(s.cal.threshold, 28), (bit s.cal.reconstruct, 27), (s.cal.sledMax, 16), (s.cal.spacing, 0)]
  else if off = 0x008 then word [(match s.cal.deferUntil with
    | some t => (freeRound (t - s.now : Nat) Config.sec).toNat
    | none => 0, 0)]
  else if h : 0x100 ≤ off ∧ off < 0x500 then
    let a : ActId := ⟨(off - 0x100) / 16, by omega⟩
    let x := s.acal a
    let count (f : Fin 12 → Bool) : Nat := if x.told then ((s.heads a).filter f).length else 0
    if off % 16 = 0 then word [(if x.told then s.devMax a else 0, 24), ((x.brk.map fun b => b.head.val).getD 0xF, 20), (count (s.due a), 16),
      (count (s.held a), 12), (count fun h => x.heads[h].failed, 8), (s.calState a, 0)]
    else if off % 16 = 4 then lo32 x.events.toNat
    else if off % 16 = 8 then word [(min 65535 x.committed, 16), (min 255 x.abandoned, 8), (min 255 x.failed, 0)]
    else word [(min 65535 x.lastMs, 16), (x.lastTb.toNat, 0)]
  else 0

/-! ## SEQ block (spec/06 Tables 6-14 to 6-16) -/

def SeqSt.code : SeqSt → Nat
  | .offline => 0
  | .idle => 1
  | .running => 2
  | .halted => 3
  | .selfTest => 4

def State.seqWord (s : State) (off : Nat) : W32 :=
  let p := s.patch
  if off = 0x000 then word [(Config.seqRomVersion.toNat, 16), (p.version.toNat, 0)]
  else if off = 0x004 then word [(p.remaining, 16), (p.lastResult.toNat, 4), (bit p.bootInvalid, 1), (bit p.switching, 0)]
  else if 0x040 ≤ off ∧ off < 0x080 then digestWord p.digest (off % 64 / 4)
  else if 0x100 ≤ off ∧ off < 0x180 then
    match (if p.newest then p.bank1 else p.bank0).matches_[(off - 0x100) / 4]? with
    | some m => word [(1, 31), (m.2 - 16384, 16), (m.1, 0)]
    | none => 0
  else if h : 0x400 ≤ off ∧ off < 0x800 then
    let q := s.seq ⟨(off - 0x400) / 16, by omega⟩
    if off % 16 = 0 then word [(q.fault.toNat, 16), (q.stack.length, 8), (bit q.switchPending, 6), (bit q.bank, 5),
      (bit (decide (16384 ≤ q.addr.toNat)), 4), (q.st.code, 0)]
    else if off % 16 = 4 then word [(q.nano, 21), (q.addr.toNat, 0)]
    else if off % 16 = 8 then lo32 q.events.toNat
    else word [(min 65535 q.rewrites, 16), (min 255 q.gateErrors, 8), (min 255 q.faults, 0)]
  else 0

/-! ## PROT block (spec/09 Tables 9-9 to 9-11) -/

def State.membersIn (s : State) (l : List MemberSt) : Nat := ((fins 32).filter fun p => l.contains (s.memberState p)).length

/-- Stripes with n missing chunks. -/
def State.missCount (s : State) (n : Nat) : Nat := (s.stripes.filter fun q => (s.missingOf q.1 q.2).length == n).length

/-- PROT_SLED.redundancy: over the stripes in use, those of zones that are not Empty; 0 with none in use (log 43). -/
def State.redundancy (s : State) : Nat :=
  let used := s.stripes.filter fun q => (s.zone q.1.ns (s.zoneOfStripe q.1 q.2)).st != .empty
  if used.any fun q => s.stripeLost q.1 q.2 then 0xF
  else match used.map fun q => q.1.m - (s.missingOf q.1 q.2).length with
    | [] => 0
    | n :: r => r.foldl min n

def State.protSled (s : State) : W32 :=
  word [(s.membersIn [.member, .absent, .failed], 24), (s.membersIn [.member], 16),
    (s.membersIn [.failed] + (s.prot.members.toList.map fun m => bit m.failed0 + bit m.failed1).sum, 8), (s.redundancy, 0)]

def State.protRebuild (s : State) : W32 :=
  word [(s.prot.rebuildHandle, 16), (s.prot.rebuildPhase.val, 4), (s.prot.rebuildState.val, 0)]

/-- The PROT block (Table 9-9): firmware restores its counts, so they read 0 until it runs (R368; DEDUCED, log 117). -/
def State.protWord (s : State) (off : Nat) : W32 :=
  if s.boot.released = false then 0
  else if off = 0x000 then s.protSled
  else if off = 0x004 then s.protRebuild
  else if off = 0x008 then lo32 s.prot.rebuildDone
  else if off = 0x00C then lo32 s.prot.rebuildTotal
  else if off = 0x010 then lo32 (s.missCount 1)
  else if off = 0x014 then lo32 (s.missCount 2)
  else if off = 0x018 then lo32 (s.missCount 3)
  else if off = 0x01C then lo32 (s.stripes.filter fun q => s.stripeLost q.1 q.2).length
  else if off = 0x020 then lo32 s.prot.events.toNat
  else if h : 0x100 ≤ off ∧ off < 0x180 then
    let p : PortId := ⟨(off - 0x100) / 4, by omega⟩
    let m := s.member p
    word [((s.hdaState p).code, 28), (bit m.failed1, 21), (bit m.failed0, 20), (min 65535 m.spareFree, 0)]
  else 0

/-! ## PAIR block (spec/18 Tables 18-4, 18-8) -/

/-- Code of a pair state. -/
def pairCode : PairState → Nat
  | .single => 0
  | .forming => 1
  | .paired => 2
  | .solo => 3
  | .stoodDown => 4
  | .released => 5
  | .rejoining => 6
  | .contending => 7

def State.pairWord (s : State) (off : Nat) : W32 :=
  let p := s.pair
  if off = 0x00 then word [(p.wings.val, 16), (pairCode p.st, 8), (bit p.settling, 4), (bit p.peerAlive, 3), (bit p.coordinator, 2),
    (bit p.servesOther, 1), (bit s.aon.pairSide, 0)]
  else if off = 0x04 then lo32 p.epoch.toNat
  else if off = 0x08 then hi32 p.epoch.toNat
  else if off = 0x0C then p.own
  else if off = 0x10 then p.peerOwn
  else if off = 0x14 then word [(max p.hbMs p.peerHeartbeatMs, 16), (match p.lastHb with
    | some t => min 0xFFFF (msOf (s.now - t))
    | none => 0xFFFF, 0)]
  else if off = 0x18 then word [(ceilDiv ((p.mirrors.map fun m => m.data.length).sum * 4096) mib % 65536, 16),
    (min 0xFFFF (p.unanswered.filter fun m => m.type == 0x03 || m.type == 0x04 || m.type == 0x0B).length, 0)]
  else if off = 0x1C then lo32 p.events.toNat
  else if off = 0x20 then word [(min 65535 p.resets, 16), (min 255 p.takeovers, 8), (min 255 p.handovers, 0)]
  else if off = 0x24 then p.corr
  else if off = 0x28 then p.uncorr
  else if off = 0x2C then p.forwarded
  else 0

/-! ## MEM block (spec/13 Tables 13-9 to 13-11) -/

def State.memWord (s : State) (off : Nat) : W32 :=
  let m := s.mem
  if off = 0x00 then word [(m.capacityGib, 24), (m.densityGb, 16), (m.ranks, 8), (m.trained.toNat, 0)]
  else if off = 0x04 then word [(m.passPct, 16), (m.scrubHours, 8), (bit (m.patrol && !m.selfRefresh), 0)]
  else if off = 0x08 then lo32 m.events.toNat
  else if off = 0x0C then word [(min 65535 m.dmaHalts, 16), (m.dmaChannel.toNat, 8)]
  else if off = 0x10 then lo32 m.errAddr.toNat
  else if off = 0x14 then word [(m.errSource.val, 28), (m.errAddr.toNat / 2 ^ 32, 0)]
  else if off = 0x20 then m.dramCe
  else if off = 0x24 then m.dramUe
  else if off = 0x28 then m.sramCe
  else if off = 0x2C then m.sramUe
  else if off = 0x40 then s.mcache.status
  else if off = 0x44 then s.mcache.hits
  else if off = 0x48 then s.mcache.misses
  else if off = 0x4C then s.mcache.writebacks
  else 0

/-! ## XING block (spec/14 Table 14-2) -/

def State.xingWord (s : State) (off : Nat) : W32 :=
  if off = 0x00 then s.xing.stalePort
  else if off = 0x04 then lo32 s.xing.staleOther.toNat
  else if off = 0x08 then lo32 s.xing.events.toNat
  else if off = 0x0C then s.xing.discards
  else 0

/-! ## The window (spec/11 R409) -/

/-- A register of the status window: its block, the block's member where it has several, and the offset in it. An offset that
no block defines is none of them. -/
inductive RegAt where
  | ident (off : Nat)
  | therm (off : Nat)
  | recorder (off : Nat)
  | port (p : PortId) (off : Nat)
  | spin (p : PortId) (off : Nat)
  | servo (a : ActId) (off : Nat)
  | chorus (off : Nat)
  | cal (off : Nat)
  | seqs (off : Nat)
  | prot (off : Nat)
  | pair (off : Nat)
  | mem (off : Nat)
  | boot (off : Nat)
  | xing (off : Nat)
  | none
  deriving DecidableEq, Repr

/-- The register at an offset of the window, aligned to 4 bytes. -/
def regAt (at_ : Nat) : RegAt :=
  let off := at_ / 4 * 4
  if off < 0x480 then .ident off
  else if off < 0x1000 then .none
  else if off < 0x10C0 then .therm (off - 0x1000)
  else if off < 0x2000 then .none
  else if off < 0x202C then .recorder (off - 0x2000)
  else if off < 0x3000 then .none
  else if h : 0x3000 ≤ off ∧ off < 0x3800 then .port ⟨(off - 0x3000) / 64, by omega⟩ (off % 64)
  else if h : 0x3800 ≤ off ∧ off < 0x3C00 then .spin ⟨(off - 0x3800) / 32, by omega⟩ (off % 32)
  else if h : 0x3C00 ≤ off ∧ off < 0x4000 then .servo ⟨(off - 0x3C00) / 16, by omega⟩ (off % 16)
  else if off < 0x4600 then .chorus (off - 0x4000)
  else if off < 0x4800 then .none
  else if off < 0x4D00 then .cal (off - 0x4800)
  else if off < 0x5000 then .none
  else if off < 0x5800 then .seqs (off - 0x5000)
  else if off < 0x5980 then .prot (off - 0x5800)
  else if off < 0x6000 then .none
  else if off < 0x6040 then .pair (off - 0x6000)
  else if off < 0x6800 then .none
  else if off < 0x6850 then .mem (off - 0x6800)
  else if off < 0x7000 then .none
  else if off < 0x7008 then .boot (off - 0x7000)
  else if off < 0x7800 then .none
  else if off < 0x7810 then .xing (off - 0x7800)
  else .none

/-- The word at a register. -/
def State.regWord (s : State) : RegAt → W32
  | .ident o => s.identWord o
  | .therm o => s.thermWord o
  | .recorder o => s.recWord o
  | .port p o => s.portWord p o
  | .spin p o => s.spinWord p o
  | .servo a o => s.servoWord a o
  | .chorus o => s.chorusWord o
  | .cal o => s.calWord o
  | .seqs o => s.seqWord o
  | .prot o => s.protWord o
  | .pair o => s.pairWord o
  | .mem o => s.memWord o
  | .boot o => if o = 0 then s.resetCause else s.bootProgress
  | .xing o => s.xingWord o
  | .none => 0

/-- A completed read of an RC field clears it (spec/00 R15; spec/14 R524). -/
def State.clearRc (r : RegAt) (s : State) : State :=
  match r with
  | .port p o => s.modPort p fun x =>
    if o = 0x20 then { x with smpCorr := 0 }
    else if o = 0x24 then { x with smpUncorr := 0 }
    else if o = 0x28 then { x with seqErr := 0 }
    else if o = 0x2C then { x with gateErr := 0 }
    else if o = 0x30 then { x with pktTimeout := 0 }
    else if o = 0x34 then { x with cmdUncorr := 0 }
    else x
  | .recorder o => if o = 0x28 then s.modBook fun b => { b with drops := 0 } else s
  | .chorus o => if o = 0x00C then s.modChorus fun c => { c with waitMax := 0 } else s
  | .pair o => s.modPair fun p =>
    if o = 0x24 then { p with corr := 0 } else if o = 0x28 then { p with uncorr := 0 } else if o = 0x2C then { p with forwarded := 0 } else p
  | .mem o =>
    if o = 0x44 then s.modCache fun m => { m with hits := 0 }
    else if o = 0x48 then s.modCache fun m => { m with misses := 0 }
    else if o = 0x4C then s.modCache fun m => { m with writebacks := 0 }
    else s.modMem fun m =>
      if o = 0x20 then { m with dramCe := 0 }
      else if o = 0x24 then { m with dramUe := 0 }
      else if o = 0x28 then { m with sramCe := 0 }
      else if o = 0x2C then { m with sramUe := 0 }
      else m
  | .xing o => if o = 0x0C then s.modXing fun x => { x with discards := 0 } else s
  | _ => s

/-- Bits written as 1 are cleared in a field of RW1C bits (spec/11 R409). -/
def w1c {n : Nat} (r : BitVec n) (v : W32) : BitVec n := r &&& ~~~(BitVec.ofNat n v.toNat)

/-- A write of a register clears the RW1C bits written as 1, and has no other effect (R409). -/
def State.writeReg (r : RegAt) (v : W32) (s : State) : State :=
  match r with
  | .therm o =>
    if o = 0x00 then s.modTherm fun t => { t with shutdownLatched := t.shutdownLatched && !v.getLsbD 7 }
    else if o = 0x04 then s.modTherm fun t => { t with events := w1c t.events v }
    else s
  | .port p o => if o = 0x04 then s.modPort p fun x => { x with events := w1c x.events v } else s
  | .spin p o => if o = 0x14 then s.modSpin p fun x => { x with events := w1c x.events v } else s
  | .servo a o => if o = 0x8 then s.modAct a fun x => { x with events := w1c x.events v } else s
  | .chorus o =>
    if o = 0x010 then s.modChorus fun c => { c with events := w1c c.events v }
    else if h : 0x100 ≤ o ∧ o < 0x280 then
      if o % 16 = 4 then s.modEng ⟨(o - 0x100) / 16, by omega⟩ fun e => { e with events := w1c e.events v } else s
    else s
  | .cal o =>
    if h : 0x100 ≤ o ∧ o < 0x500 then
      if o % 16 = 4 then s.modAcal ⟨(o - 0x100) / 16, by omega⟩ fun x => { x with events := w1c x.events v } else s
    else s
  | .seqs o =>
    if h : 0x400 ≤ o ∧ o < 0x800 then
      if o % 16 = 8 then s.modSeq ⟨(o - 0x400) / 16, by omega⟩ fun q => { q with events := w1c q.events v } else s
    else s
  | .prot o => if o = 0x020 then s.modProt fun p => { p with events := w1c p.events v } else s
  | .pair o => if o = 0x1C then s.modPair fun p => { p with events := w1c p.events v } else s
  | .mem o => if o = 0x08 then s.modMem fun m => { m with events := w1c m.events v } else s
  | .boot o => if o = 0x00 then s.modAon fun a => { a with cause := w1c a.cause v } else s
  | .xing o => if o = 0x08 then s.modXing fun x => { x with events := w1c x.events v } else s
  | _ => s

/-- The bytes of a run of words from an offset of the window. -/
def State.windowBytes (s : State) (off n : Nat) : List Byte :=
  (List.range (ceilDiv n 4)).flatMap fun i => leBytes 4 (s.regWord (regAt (off + 4 * i))).toNat

end Sys2Proof.Machine
end

