-- ==== Sys2Proof/Machine/Logs.lean ====
section
/-! DEFINITION. Family Logs: Get Log Page, standard and vendor (spec/11 R447 to R450; spec/12 R472, R489, Tables 12-2, 12-14 to
12-16; spec/15 R550; spec/16 R589; spec/17 R613). -/

namespace Sys2Proof.Machine

/-! ## The command -/

/-- Bytes asked for, and the byte offset (the NVMe base specification; PRESUMED, log 33). -/
def logSize (e : SqEntry) : Nat := 4 * (bits e.cdw10 31 16 + 65536 * bits e.cdw11 15 0 + 1)
def logOffset (e : SqEntry) : Nat := e.cdw12.toNat + 2 ^ 32 * e.cdw13.toNat
def logPart (e : SqEntry) : Nat := bits e.cdw11 31 16

/-- A log page is returned from its offset on; unless the host asks to keep the event, events that name the page may be
reported again (R489; log 41). -/
def State.giveLog (c : Nat) (x : Ctx) (lid : Nat) (page : List Byte) (s : State) : State :=
  let off := logOffset x.entry
  if page.length < off then s.complete c (Cpl.invalid 12 0)
  else
    let s := match x.origin with
      | .host f => s.when (bits x.entry.cdw10 15 15 == 0) (State.logRead f lid)
      | _ => s
    s.complete c (Cpl.data ((page.drop off).take (logSize x.entry)))

/-- Get Log Page of a log identifier. -/
def State.runLog (c lid : Nat) (k : Ctx → State → State) (s : State) : State := s.run c (isAction 0x02 lid) k

/-- A vendor page that has one part only. -/
def State.wholeLog (c lid : Nat) (page : State → List Byte) (s : State) : State :=
  s.runLog c lid fun x s =>
    s.orElse c (firstBad [(logPart x.entry != 0, 11, 16)]) fun s => s.giveLog c x lid (page s)

/-! ## Error Information (spec/12 Table 12-2) -/

/-- The bytes of an entry and how many free values they take: the sequence number of a record that the recorder has not yet
written is open (log 49). -/
def ErrEntry.bytes (e : ErrEntry) (free : Nat) : List Byte :=
  packBytes [(8, e.count.toNat), (2, e.sqid.toNat), (2, e.cid.toNat), (2, e.status.toNat), (2, e.errLoc.toNat), (8, e.lba.toNat),
    (4, e.nsid.toNat), (1, 0xC1), (1, 0), (2, 0)] ++
  (match e.seq with
    | some n => leBytes 8 n
    | none => (List.range 8).map fun i => Config.freeByte (free + i)) ++ List.replicate 24 0

/-- The 64 entries, newest first; unused ones are zero. -/
def errorPage (l : List ErrEntry) (free : Nat) : List Byte := padTo 4096 (l.zipIdx.flatMap fun q => q.1.bytes (free + 8 * q.2))

/-- GET_LOG_PAGE_ERROR_INFORMATION: the entries it returns whole allow their Queue Resume (R470, R472). -/
def execGetLogPageErrorInformation (c : Nat) (s : State) : Host.Outcome State Fault Refusal :=
  .next <| s.runLog c 0x01 fun x s => s.forHost c x fun f s =>
    let l := (s.fn f).errLog
    let off := logOffset x.entry
    let shown := (l.zipIdx.filter fun q => decide (off ≤ 64 * q.2) && decide (64 * q.2 + 64 ≤ off + logSize x.entry)).map fun q => q.1.count
    let page := errorPage l s.free
    let s := { s with free := s.free + 512 }
    let s := s.modFn f fun y => { y with returned := y.returned ++ shown.filter fun n => !y.returned.contains n }
    s.giveLog c x 0x01 page

/-! ## SMART / Health Information (spec/15 R550) -/

/-- Kelvin of a temperature in 1/16 °C, rounded. -/
def kelvin (t : Int) : Nat := (roundHalfUp (100 * t + 437040) 1600).toNat

/-- Kelvin of a 16-bit temperature register; 0 when none is valid. -/
def kelvinOf (v : W16) : Nat := if v = 0x8000 then 0 else kelvin (signed 16 v.toNat)

/-- Composite Temperature (R550). -/
def State.composite (s : State) : Nat := kelvin s.therm.hot

/-- The temperatures that thresholds are of: Composite, sensor 1 and sensor 2; a sensor with no valid reading gives none (R550). -/
def State.temperatures (s : State) : List (Fin 3 × Nat) :=
  [(0, s.composite), (1, s.composite)] ++ (if s.therm.hdaMax = 0x8000 then [] else [(2, kelvinOf s.therm.hdaMax)])

/-- Critical Warning of a function: bit 1 the Composite Temperature at or above its over-temperature threshold, or a temperature at or
below its under-temperature threshold (the standard's words, PRESUMED, log 33); bit 2 reliability degraded, bit 4 volatile memory backup failed (R550;
spec/02 R61; spec/13 R510). Bits 0, 3 and 5 are raised by no rule. -/
def State.criticalWarning (s : State) (f : Fn) : Nat :=
  let x := s.fn f
  2 * bit (decide (x.overTemp[0] ≤ s.composite) || s.temperatures.any fun q => decide (q.2 ≤ x.underTemp[q.1])) + 4 * bit s.boot.degraded +
    16 * bit s.boot.backupFailed

/-- Ranges of the SMART log whose values the spec leaves open: spare, percentage used, and the counters of data and commands; all else that
no rule states is 0 (spec/00 R14, R19; the places PRESUMED, log 33). -/
def smartOpen : List (Nat × Nat) := [(3, 3), (32, 160)]

/-- GET_LOG_PAGE_SMART_HEALTH (R550). -/
def execGetLogPageSmartHealth (c : Nat) (s : State) : Host.Outcome State Fault Refusal :=
  .next <| s.runLog c 0x02 fun x s =>
    let t := s.therm
    let page := overlay (keepBytes smartOpen 512 (Config.logBase 0x02)) [(0, 1, s.criticalWarning (x.fn?.getD .a)), (1, 2, s.composite),
      (192, 4, t.warnMs / 60000), (196, 4, t.critMs / 60000), (200, 2, s.composite), (202, 2, kelvinOf t.hdaMax)]
    s.giveLog c x 0x02 page

/-! ## Commands Supported and Effects (spec/10 Table 10-1) -/

/-- Admin opcodes supported, and I/O opcodes of a command set: none of a command set that is not supported (spec/00 R19). -/
def adminOpcodes : List Nat :=
  [0x00, 0x01, 0x02, 0x04, 0x05, 0x06, 0x08, 0x09, 0x0A, 0x0C, 0x0D, 0x10, 0x11, 0x15, 0x7C, 0x80, 0x81, 0x82, 0x84, 0xC1, 0xC2,
   0xC4, 0xC5, 0xC6, 0xC8, 0xC9, 0xCA, 0xCC, 0xCD, 0xCE]
def ioOpcodes (csi : Nat) : List Nat := 
  if csi = 2 then [0x00, 0x01, 0x02, 0x08, 0x79, 0x7A, 0x7D] else if csi = 0 then [0x00, 0x01, 0x02, 0x08, 0x09] else []

/-- One table of 256 words: CSUPP by the list, the bits that tell what a supported command changes and how it is to be submitted by the NVMe
documents; reserved bits and the UUID selection, which is not supported, are 0 (spec/00 R14, R19). -/
def effects (base : List Byte) (at_ : Nat) (l : List Nat) : List Byte :=
  (List.range 256).flatMap fun op =>
    let w := field base (at_ + 4 * op) 4
    leBytes 4 (if l.contains op then (w &&& 0x7001E) + 1 else 0)

/-- GET_LOG_PAGE_COMMANDS_SUPPORTED: by command set; Dataset Management is not supported for the Zoned Namespace command set
(R369). -/
def execGetLogPageCommandsSupported (c : Nat) (s : State) : Host.Outcome State Fault Refusal :=
  .next <| s.runLog c 0x05 fun x s =>
    let csi := bits x.entry.cdw14 31 24
    let base := Config.logBase (0x05 + 256 * csi)
    let page := padTo 4096 (effects base 0 adminOpcodes ++ effects base 1024 (ioOpcodes csi))
    s.giveLog c x 0x05 page

/-! ## Asymmetric Namespace Access (spec/11 R447 to R450) -/

/-- State codes of the NVMe base specification (PRESUMED, log 33). -/
def anaCode : AnaState → Nat
  | .optimized => 1
  | .nonOptimized => 2
  | .inaccessible => 3
  | .change => 0xF

/-- GET_LOG_PAGE_ANA: two groups; with RGO no namespaces are listed (R450). What the spec does not state of the layout is that
of the NVMe base specification. -/
def execGetLogPageAna (c : Nat) (s : State) : Host.Outcome State Fault Refusal :=
  .next <| s.runLog c 0x0C fun x s =>
    let f := x.fn?.getD .a
    let y := s.fn f
    let group (second : Bool) : List Nat :=
      if bits x.entry.cdw10 8 8 = 1 then []
      else sortBy id ((s.names.nss.filter fun n => n.on f && n.ana2 == second && !n.deleting).map Ns.nsid)
    let one (off number : Nat) (l : List Nat) (st : AnaState) : List (Nat × Nat × Nat) :=
      [(off, 4, number), (off + 4, 4, l.length), (off + 16, 1, anaCode st)] ++ l.zipIdx.map fun q => (off + 32 + 4 * q.2, 4, q.1)
    let g1 := group false
    let g2 := group true
    let second := 48 + 4 * g1.length
    let base := List.replicate (second + 32 + 4 * g2.length) 0
    s.giveLog c x 0x0C (overlay base ([(0, 8, y.anaCount.toNat), (8, 2, 2)] ++ one 16 1 g1 y.ana1 ++ one second 2 g2 y.ana2))

/-! ## Playbill (spec/12 Table 12-14; spec/16 R588, R589) -/

/-- The flags of a stored Playbill. -/
def pbFlags (b : List Byte) : Nat := field b 39 1

/-- An addendum of a boot has been overwritten in the ring (R588). -/
def State.addendaLost (s : State) (pb : List Byte) : Bool := s.nor.lostAddenda.contains (recCounter pb)

/-- A record of a boot waits in DRAM for its programming. -/
def State.recordPending (s : State) (counter : Nat) : Bool := s.ident.pendingNor.any fun q => recCounter q.2 == counter

/-- A directory entry (Table 12-14). -/
def State.directoryEntry (s : State) (pb : List Byte) : List Byte :=
  let k := (s.addendaOf (recCounter pb)).length
  packBytes [(8, recCounter pb), (4, 9005 + 3629 * k), (1, k),
    (1, pbFlags pb % 32 + 32 * bit (s.addendaLost pb) + 64 * bit (s.recordPending (recCounter pb))), (2, 0)]

/-- The directory of 256 entries. -/
def State.directory (s : State) : List Byte := padTo 4096 ((s.playbills.take 256).flatMap s.directoryEntry)

/-- A Playbill with its stored addenda. -/
def State.playbillWhole (s : State) (index : Nat) : Option (List Byte) :=
  (s.playbills[index]?).map fun pb => pb ++ (s.addendaOf (recCounter pb)).flatten

/-- The Playbill store's places of a Playbill and its addenda are read (spec/02 R71, Table 2-3; spec/16 Table 16-10). -/
def State.readBill (index : Nat) (s : State) : State := match s.playbills[index]? with
  | none => s
  | some pb =>
    let s := s.each (s.nor.playbills.filter fun q => q.2 == pb) fun q s => s.norRead .playbill (q.1 * 12288) pb.length
    s.each (s.nor.addenda.filter fun q => recCounter q.2 == recCounter pb) fun q s =>
      s.norRead .playbill (0x300000 + q.1 * 4096) q.2.length

/-- GET_LOG_PAGE_PLAYBILL: a Playbill and its addenda, or the directory (R589). -/
def execGetLogPagePlaybill (c : Nat) (s : State) : Host.Outcome State Fault Refusal :=
  .next <| s.runLog c 0xC0 fun x s =>
    let part := logPart x.entry
    if part = 0xFFFF then s.giveLog c x 0xC0 s.directory
    else match (if part ≤ 255 then s.playbillWhole part else none) with
      | some bs => (s.readBill part).giveLog c x 0xC0 bs
      | none => s.complete c (Cpl.invalid 11 16)

/-! ## Prompt Book (spec/17 R613) -/

/-- The header and every readable ring record, oldest first (spec/12 Table 12-14). -/
def State.promptPage (s : State) : List Byte :=
  let l := s.readableRing
  packBytes [(4, l.length), (4, 0), (8, (l.head?.map Record.seq).getD 0), (8, (l.getLast?.map Record.seq).getD 0), (40, 0)] ++
    l.flatMap Record.bytes

/-- GET_LOG_PAGE_PROMPT_BOOK. -/
def execGetLogPagePromptBook (c : Nat) (s : State) : Host.Outcome State Fault Refusal :=
  .next <| s.wholeLog c 0xC1 State.promptPage

/-! ## Sled Health and Port Inventory (spec/12 Tables 12-15, 12-16) -/

/-- One entry of the ports field of Sled Health. -/
def State.portEntry (s : State) (p : PortId) : List Byte :=
  let x := s.port p
  let m := s.member p
  packBytes [(1, (s.hdaState p).code), (1, x.train.val),
    (1, bit x.inService + 2 * bit x.degraded + 4 * bit m.failed0 + 8 * bit m.failed1 + 16 * bit x.obeyed), (1, 0),
    (2, min 65535 m.spareFree), (2, x.hdaTemp.toNat)]

/-- Sled Health (Table 12-15). -/
def State.sledHealth (s : State) : List Byte :=
  let ms := s.prot.members.toList.filter fun m => m.st == .member
  let w (off : Nat) : Nat := (s.protWord off).toNat
  let frozen (x : HostFn) : Nat := (x.sqs.filter SubQ.frozen).length
  let failedHeads := (s.actCals.toList.map fun a => (a.heads.toList.filter HeadCal.failed).length).sum
  packBytes [(2, 1), (2, 512), (4, w 0), (4, w 4), (4, w 8), (4, w 12), (4, w 0x10), (4, w 0x14), (4, w 0x18), (4, w 0x1C),
    (8, s.names.lost.length), (8, (ms.map Member.spareFree).sum), (8, (ms.map Member.spareChunks).sum), (4, (s.chorusWord 0).toNat),
    (4, s.chorus.waitEver.toNat), (1, s.writing), (1, s.writerLimit), (1, s.govPs.val), (1, s.therm.step.val), (8, s.dirtyBytes),
    (8, s.limitE), (2, unsigned 16 s.therm.hot), (2, s.therm.hdaMax.toNat),
    (1, (s.longOps.filter fun o => o.st.active).length), (1, frozen s.fa + frozen s.fb), (2, failedHeads), (1, s.calDue),
    (1, s.calBreaks), (2, 0), (4, min 0xFFFFFFFF s.prot.reallocations), (152, 0)] ++ (fins 32).flatMap s.portEntry

/-- GET_LOG_PAGE_SLED_HEALTH. -/
def execGetLogPageSledHealth (c : Nat) (s : State) : Host.Outcome State Fault Refusal :=
  .next <| s.wholeLog c 0xC2 State.sledHealth

/-- The 256 bytes of a port in the Port Inventory (Table 12-16). -/
def State.inventory (s : State) (p : PortId) : List Byte :=
  let x := s.port p
  padTo 64 x.companion.ident ++ padTo 72 x.companion.measure ++
    packBytes [(4, (s.portStatus p).toNat), (1, (s.hdaState p).code), (3, 0)] ++ digestBytes x.persDigest ++
    packBytes [(2, x.addendumNo), (1, min 255 x.trained), (1, 0), (8, x.trainedBoot.toNat), (36, 0)]

/-- GET_LOG_PAGE_PORT_INVENTORY. -/
def execGetLogPagePortInventory (c : Nat) (s : State) : Host.Outcome State Fault Refusal :=
  .next <| s.wholeLog c 0xC3 fun s => (fins 32).flatMap s.inventory

end Sys2Proof.Machine
end

