-- ==== Sys2Proof/Machine/Firmware.lean ====
section
/-! DEFINITION. Family Firmware: Security Send and Receive, quotes, the key manifest, and the staging and activation of firmware
(spec/16 R567 to R569, R589 to R597). -/

namespace Sys2Proof.Machine

/-! ## Security Receive (R590, Table 16-11) -/

/-- SECP, SPSP and the transfer length of a Security Send or Receive. -/
def secp (e : SqEntry) : Nat := bits e.cdw10 31 24
def spsp (e : SqEntry) : Nat := bits e.cdw10 23 8

/-- A Security Send or Receive of an SPSP; only SECP 0xF0 has a meaning. -/
def State.runSecurity (c op : Nat) (want : Nat → Bool) (k : Ctx → State → State) (s : State) : State :=
  s.run c (fun x => isAdminOp op x && want (spsp x.entry)) fun x s =>
    s.orElse c (firstBad [(secp x.entry != 0xF0, 10, 24)]) (k x)

/-- What is returned, cut to the transfer length (R590). -/
def State.give (c : Nat) (x : Ctx) (content : List Byte) (s : State) : State :=
  s.complete c (Cpl.data (content.take x.entry.cdw11.toNat))

/-- SECURITY_RECEIVE_DIRECTORY. -/
def execSecurityReceiveDirectory (c : Nat) (s : State) : Host.Outcome State Fault Refusal :=
  .next <| s.runSecurity c 0x82 (fun n => n == 0) fun x s => s.give c x s.directory

/-- SECURITY_RECEIVE_PLAYBILL: of index SPSP − 1, with its addenda. -/
def execSecurityReceivePlaybill (c : Nat) (s : State) : Host.Outcome State Fault Refusal :=
  .next <| s.runSecurity c 0x82 (fun n => decide (1 ≤ n) && decide (n ≤ 0x100)) fun x s =>
    match s.playbillWhole (spsp x.entry - 1) with
    | some bs => (s.readBill (spsp x.entry - 1)).give c x bs
    | none => s.complete c (Cpl.invalid 10 8)

/-- SECURITY_RECEIVE_CERTIFICATE. -/
def execSecurityReceiveCertificate (c : Nat) (s : State) : Host.Outcome State Fault Refusal :=
  .next <| s.runSecurity c 0x82 (fun n => n == 0x200) fun x s => s.give c x Config.certificate

/-- SECURITY_RECEIVE_STAGES: the stage registers, then the digest of the live patch. -/
def execSecurityReceiveStages (c : Nat) (s : State) : Host.Outcome State Fault Refusal :=
  .next <| s.runSecurity c 0x82 (fun n => n == 0x201) fun x s =>
    s.give c x (s.ident.stages.toList.flatMap digestBytes ++ digestBytes s.patch.digest)

/-! ## Quotes (R590, R591) -/

/-- The unused nonce of the side a command comes from. -/
def State.nonceOf (s : State) (x : Ctx) : Option (List Byte) :=
  match x.fn? with
  | some .a => s.ident.nonceA
  | some .b => s.ident.nonceB
  | none => s.ident.nonceSvc

def State.setNonce (x : Ctx) (n : Option (List Byte)) (s : State) : State :=
  s.modIdent fun i => match x.fn? with
    | some .a => { i with nonceA := n }
    | some .b => { i with nonceB := n }
    | none => { i with nonceSvc := n }

/-- SECURITY_SEND_NONCE: 32 bytes for this side's next quote. -/
def execSecuritySendNonce (c : Nat) (s : State) : Host.Outcome State Fault Refusal :=
  .next <| s.runSecurity c 0x81 (fun n => n == 0x300) fun x s =>
    let n := (x.entry.data.take x.entry.cdw11.toNat).take 32
    s.orElse c (firstBad [(decide (n.length < 32), 11, 0)]) fun s => (s.setNonce x (some n)).complete c Cpl.ok

/-- A quote before its signature (Table 16-12). -/
def State.quoteBody (s : State) (nonce : List Byte) : List Byte :=
  packBytes [(4, 0x54515A49), (2, 1), (2, 0), (8, s.ident.bootCounter.toNat), (16, Config.deviceIdentity.toNat)] ++ padTo 32 nonce ++
    digestBytes s.ident.newest ++ digestBytes s.patch.digest ++ packBytes [(8, s.uptimeMs), (2, s.ident.addenda), (6, 0)]

/-- QUOTE: over the unused nonce of this side, which serves one quote (R591). -/
def execQuote (c : Nat) (s : State) : Host.Outcome State Fault Refusal :=
  .next <| s.runSecurity c 0x82 (fun n => n == 0x300) fun x s =>
    match s.nonceOf x with
    | none => s.complete c Cpl.seqError
    | some n =>
      let body := s.quoteBody n
      (s.setNonce x none).give c x (body ++ s.sign "IZ-QT" body)

/-! ## Key manifest (R567 to R569) -/

/-- No slot whose directory state is valid would still boot (R569); with no valid slot there is none to exclude (DEDUCED,
log 50). -/
def State.locksOut (s : State) (m : Manifest) : Bool :=
  let l := ([false, true] : List Bool).filter fun k => s.nor.dir.stateOf k == 1
  l != [] && l.all fun k => decide (imageSecurity (s.nor.slotOf k) < m.minSecurity.toNat)

/-- KEY_MANIFEST_UPDATE: checked, and written to the copy not in use; it takes effect at the next warm device or main cold reset.
A copy whose programming fails is not valid (R569; spec/12 Table 12-3). -/
def execKeyManifestUpdate (c : Nat) (norOk : Bool) (s : State) : Host.Outcome State Fault Refusal :=
  .next <| s.runSecurity c 0x81 (fun n => n == 0x400) fun x s =>
    let bs := x.entry.data.take x.entry.cdw11.toNat
    let above (m : Manifest) : Bool := match s.ident.manifest with
      | some u => decide (u.sequence.toNat < m.sequence.toNat)
      | none => true
    match (readManifest bs).filter above with
    | none => s.complete c Cpl.badData
    | some m =>
      if s.locksOut m then s.complete c Cpl.seqError
      else
        let v := if norOk then bs else []
        let one := s.ident.manifest.isSome && !s.ident.copy
        let s := ((s.norErase .config (manifestOffset one) manifestSize).norProgram .config (manifestOffset one) bs.length).modNor
          fun n => if one then { n with manifest1 := v } else { n with manifest0 := v }
        s.complete c (if norOk then Cpl.ok else Cpl.internal)

/-! ## Firmware Image Download (R592) -/

/-- Bytes of a download buffer and of the service buffer. -/
def downloadSize : Nat := 16 * mib

/-- FIRMWARE_IMAGE_DOWNLOAD: bytes are written at their offset into the function's buffer (R592). -/
def execFirmwareImageDownload (c : Nat) (s : State) : Host.Outcome State Fault Refusal :=
  .next <| s.run c (isAdminOp 0x11) fun x s => s.forHost c x fun f s =>
    let n := 4 * (x.entry.cdw10.toNat + 1)
    let off := 4 * x.entry.cdw11.toNat
    s.orElse c (firstBad [(decide (downloadSize < n), 10, 0), (decide (downloadSize < off + n), 11, 0)]) fun s =>
      (s.modFn f fun y => { y with download := bufWrite y.download off (x.entry.data.take n) }).complete c Cpl.ok

/-! ## Firmware Commit and staging (R593 to R596) -/

/-- The image that a commit takes: what its side has downloaded; over the service port the service buffer. -/
def State.downloaded (s : State) (x : Ctx) : List Byte :=
  let buf := match x.origin with
    | .host f => (s.fn f).download
    | .peer _ f _ => (s.fn f).download
    | _ => s.svc.buffer
  bufRead buf 0 (min downloadSize (max 4096 (field (bufRead buf 16 4) 0 4)))

/-- The slot that FS names (Table 16-13). -/
def State.slotFor (s : State) (fs : Nat) : Bool :=
  if fs = 1 then false else if fs = 2 then true else if s.aon.recovery then false else !s.aon.slot

/-- The target is the slot that runs (R595). -/
def State.slotRuns (s : State) (slot : Bool) : Bool := !s.aon.recovery && s.aon.slot == slot

/-- FS and CA of a commit's dword 10. -/
def commitFs (v : W32) : Nat := bits v 2 0
def commitCa (v : W32) : Nat := bits v 5 3

/-- The fields of a staging commit's dword 10, which stands in dword `n` of the entry, that may be at fault. -/
def commitBad (v : W32) (n : Nat) : List (Bool × Nat × Nat) := [(decide (2 < commitFs v), n, 0), (decide (1 < commitCa v), n, 3)]

/-- A staging operation starts on an image that passes R571; `v` is dword 10 of the commit; dword 0 of the completion holds the handle
(R593, R595). -/
def State.startStaging (c : Nat) (x : Ctx) (v : W32) (s : State) : State :=
  let slot := s.slotFor (commitFs v)
  if s.slotRuns slot then s.complete c Cpl.seqError
  else
    let img := s.downloaded x
    let r := imageCheck s.ident.manifest img
    if r ≠ 0 then s.complete c (Cpl.errVal 0x0 0x02 (BitVec.ofNat 32 r))
    else
      let o : LongOp := { s.opFor x 6 with
        total := imageLength img, slot := slot, prefer := commitCa v == 1, image := img.take (imageLength img) }
      s.startSingle c o fun h s => s.complete c (Cpl.val (BitVec.ofNat 32 h))

/-- A commit stages the image, once its fields have passed. -/
def State.commitStage (c : Nat) (x : Ctx) (s : State) : State :=
  s.orElse c (firstBad (commitBad x.entry.cdw10 10)) (State.startStaging c x x.entry.cdw10)

/-- A Firmware Commit of an action. -/
def isCommit (ca : Nat) (x : Ctx) : Bool := isAdminOp 0x10 x && commitCa x.entry.cdw10 == ca

/-- FIRMWARE_COMMIT_STAGE (CA 0). -/
def execFirmwareCommitStage (c : Nat) (s : State) : Host.Outcome State Fault Refusal :=
  .next <| s.run c (isCommit 0) (State.commitStage c)

/-- FIRMWARE_COMMIT_STAGE_PREFER (CA 1). -/
def execFirmwareCommitStagePrefer (c : Nat) (s : State) : Host.Outcome State Fault Refusal :=
  .next <| s.run c (isCommit 1) (State.commitStage c)

/-- FIRMWARE_COMMIT_PREFER (CA 2): a valid slot is made preferred without staging (Table 16-13, R595). -/
def execFirmwareCommitPrefer (c : Nat) (s : State) : Host.Outcome State Fault Refusal :=
  .next <| s.run c (isCommit 2) fun x s =>
    let slot := s.slotFor (commitFs x.entry.cdw10)
    s.orElse c (firstBad [(decide (2 < commitFs x.entry.cdw10), 10, 0)]) fun s =>
      if s.slotRuns slot = true ∨ s.nor.dir.stateOf slot ≠ 1 then s.complete c Cpl.seqError
      else (s.writeDir fun d => { d with preferred := slot }).complete c Cpl.ok

def Nor.setSlot (slot : Bool) (bs : List Byte) (n : Nor) : Nor := if slot then { n with slotB := bs } else { n with slotA := bs }

/-- Bytes of a NOR block that staging programs at a time (R594). -/
def stagingBlock : Nat := 65536

/-- FIRMWARE_STAGING_BLOCK: the next 64 KiB block of the target slot is programmed; after the last the slot is read back and
compared and the directory rewritten. `ok`: programming, or the comparison, succeeded; a failure ends the operation with Internal
Error and leaves the directory as it was (R594; spec/12 Table 12-3). -/
def execFirmwareStagingBlock (ok : Bool) (s : State) : Host.Outcome State Fault Refusal :=
  .next <|
    match (s.running 6).head? with
    | none => s
    | some o =>
      if s.mem.halted.contains 0x04 then s
      else if ok = false then s.endOp o.handle .failed Cpl.internal.status
      else if o.cursor < o.total then
        let n := min o.total (o.cursor + stagingBlock)
        let s := ((s.norErase (slotRegion o.slot) o.cursor stagingBlock).norProgram (slotRegion o.slot) o.cursor (n - o.cursor)).modNor
          (Nor.setSlot o.slot (o.image.take n))
        (s.modOp o.handle fun o => { o with cursor := n, done := n }).opPoint o.handle
      else if s.nor.slotOf o.slot = o.image then
        let s := (s.norRead (slotRegion o.slot) 0 o.image.length).writeDir fun d =>
          let d := (d.setState o.slot 1).setAttempts o.slot 0
          { d with preferred := if o.prefer then o.slot else d.preferred }
        s.endOp o.handle .completed 0
      else s.endOp o.handle .failed Cpl.internal.status

end Sys2Proof.Machine
end

