-- ==== Sys2Proof/Machine/LongOpCmds.lean ====
section
/-! DEFINITION. Family LongOpCmds: the actions of Long Operation (spec/12 R475 to R479, Tables 12-4 to 12-6; spec/08 R314; spec/09
R355, R365, R366; spec/19 R665). -/

namespace Sys2Proof.Machine

/-! ## Fields -/

/-- Handle of actions 1 to 4. -/
def opHandle (e : SqEntry) : Nat := bits e.cdw10 31 16

/-- Dwords 13 to 15 are 0, but for the set mask of action 6 (Table 12-5). -/
def opRest (e : SqEntry) (mask : Bool) : List (Bool × Nat × Nat) :=
  [(!mask && e.cdw13 != 0, 13, 0), (e.cdw14 != 0, 14, 0), (e.cdw15 != 0, 15, 0)]

/-- An action of Long Operation. `bad` are the fields of its dwords 10 to 12 that may be at fault, in ascending order. -/
def State.runOp (c action : Nat) (bad : State → SqEntry → List (Bool × Nat × Nat)) (k : Ctx → State → State) (s : State) : State :=
  State.settleEnded c s (s.run c (isAction 0xC2 action) fun x s =>
    s.orElse c (firstBad (bad s x.entry ++ opRest x.entry (action == 6))) (k x))

/-- Completion of a start: the handle in dword 0. -/
def State.started (c h : Nat) (s : State) : State := s.complete c (Cpl.val (BitVec.ofNat 32 h))

/-! ## Start (R475, R476, R479) -/

/-- A rebuild starts; where one is active its handle is returned and nothing starts (Table 12-5, R365). -/
def State.startRebuild (c : Nat) (x : Ctx) (s : State) : State :=
  match s.rebuild? with
  | some o => s.complete c (Cpl.val (word [(o.handle, 0), (1, 16)]))
  | none =>
    let s := s.runRebuild x.originCode
    let h := s.nor.config.lastHandle
    (s.modOp h fun o => { o with p3 := x.entry.cdw10, p0 := x.entry.cdw11, p1 := x.entry.cdw12, p2 := x.entry.cdw13 }).started c h

/-- The member that a format of an HDA would replace, and the HDA, allow it (R479; spec/09 R364; spec/19 R665). That the HDA is
trained is what a format needs to work on it (DEDUCED, log 51). -/
def State.mayFormat (s : State) (o : LongOp) : Bool :=
  let p := o.formatPort
  let q := o.replaced
  let st := (s.member q).st
  s.hdaState p != .member && (s.port p).train == 9 && (s.port p).persVerified &&
    (bits o.p0 8 8 == 0 || st == .failed || st == .absent || st == .retired) &&
    s.prot.members.toList.all fun m => m.st != .absent || m.serial != (s.port p).serial

/-- A full-HDA format starts. -/
def State.startFormat (c : Nat) (x : Ctx) (s : State) : State :=
  let o := s.opFor x 4
  if s.mayFormat o then s.startSingle c o (State.started c) else s.complete c Cpl.seqError

/-- Zones of every head of the ports of a mask. -/
def State.calUnits (s : State) (mask : W32) : Nat :=
  (((fins 64).filter fun a => mask.getLsbD (portOf a).val).map fun a => (s.heads a).length * (match (s.pcal (portOf a)).format with
    | some f => f.zoneCount
    | none => 0)).sum

/-- A full calibration starts on the ports of its mask, none of which another one works on; its marks begin afresh (R479;
spec/08 R314). -/
def State.startCalibration (c : Nat) (x : Ctx) (s : State) : State :=
  let o := { s.opFor x 5 with total := s.calUnits x.entry.cdw11 }
  if s.activeOps 5 |>.any fun y => y.p0 &&& o.p0 != 0 then s.complete c Cpl.seqError
  else if s.placeFull 5 then s.complete c Cpl.noPlace
  else
    let q := s.startOp o
    let s := q.1.each ((fins 64).filter fun a => o.p0.getLsbD (portOf a).val) State.clearMarks
    s.started c q.2

/-- A surface scan starts. -/
def State.startScan (c : Nat) (x : Ctx) (s : State) : State :=
  if s.placeFull 3 then s.complete c Cpl.noPlace
  else
    let q := s.startOp (s.opFor x 3)
    q.1.started c q.2

/-- A sanitize: an update of every block, which starts when its turn comes (R455). -/
def State.startWipe (c : Nat) (s : State) : State := (s.modCtx c fun y => { y with stage := .awaitTurn }).bufferChanged

/-- The fields of a start that may be at fault: the kind; of a sanitize param0, CDW10 of an NVMe Sanitize whose action must be
Overwrite; of a staging param0, CDW10 of a Firmware Commit; of a full calibration its full_spacing (Table 12-5; spec/08 R314). -/
def startBad (e : SqEntry) : List (Bool × Nat × Nat) :=
  let v := bits e.cdw12 13 0
  [(decide (opKind e = 0 ∨ 6 < opKind e), 10, 8), (opKind e == 2 && bits e.cdw11 2 0 != 3, 11, 0)] ++
    (if opKind e = 6 then commitBad e.cdw11 11 else []) ++
    [(opKind e == 5 && v != 0 && (decide (v < 50) || decide (10000 < v)), 12, 0)]

/-- LONG_OPERATION_START (action 0): an operation of a kind of Table 12-4. -/
def execLongOperationStart (c : Nat) (s : State) : Host.Outcome State Fault Refusal :=
  .next <| s.runOp c 0 (fun _ => startBad) fun x s =>
    match opKind x.entry with
    | 1 => s.startRebuild c x
    | 2 => s.startWipe c
    | 3 => s.startScan c x
    | 4 => s.startFormat c x
    | 5 => s.startCalibration c x
    | _ => s.startStaging c x x.entry.cdw11

/-! ## Suspend, resume, cancel (R478, R479, Table 12-4) -/

/-- An action on the operation of a handle; an unknown handle is an invalid field. -/
def State.onOp (c action : Nat) (k : LongOp → State → State) (s : State) : State :=
  s.runOp c action (fun s e => [((s.op? (opHandle e)).isNone, 10, 16)]) fun x s =>
    match s.op? (opHandle x.entry) with
    | none => s
    | some o => k o s

/-- Nothing of a running operation is under way, so its suspend point is now: a rebuild with no stripe in progress, a full
calibration with no break in progress. The other kinds always have a band, strip or block under way. -/
def State.atPoint (s : State) (o : LongOp) : Bool :=
  match o.kind with
  | 1 => s.prot.works.all fun w => w.kind != .rebuild
  | 5 => (fins 64).all fun a => !o.p0.getLsbD (portOf a).val || (match (s.acal a).brk with
      | some b => b.kind != .full
      | none => true)
  | _ => false

/-- An operation is suspended now. -/
def State.suspendNow (o : LongOp) (s : State) : State :=
  let s := s.modOp o.handle fun y => { y with st := .suspended, suspendAsked := false, byPs3 := false }
  if o.kind = 1 then s.rebuildTo s.prot.rebuildPhase 2 else s

/-- LONG_OPERATION_SUSPEND (action 1): at the next suspend point; one suspended already is not changed (R478, R479). -/
def execLongOperationSuspend (c : Nat) (s : State) : Host.Outcome State Fault Refusal :=
  .next <| s.onOp c 1 fun o s =>
    match o.st with
    | .suspended => s.complete c Cpl.ok
    | .blocked | .waiting => (s.suspendNow o).complete c Cpl.ok
    | .running =>
      (if s.atPoint o then s.suspendNow o
       else s.modOp o.handle fun y => { y with suspendAsked := true, byPs3 := false }).complete c Cpl.ok
    | _ => s.complete c Cpl.seqError

/-- An operation runs again: a rebuild goes on where it was; in PS3 it does so on exit (R478; spec/09 R365; spec/01 R43). -/
def State.resumeOp (o : LongOp) (s : State) : State :=
  if s.power.inPs3 ∨ s.power.entering then s.modOp o.handle fun y => { y with byPs3 := true }
  else if o.kind = 1 ∧ s.prot.rebuildPhase = 1 then (s.modOp o.handle fun y => { y with st := .waiting }).rebuildTo 1 0
  else
    let s := s.modOp o.handle fun y => { y with st := .running }
    if o.kind = 1 then (s.rebuildTo s.prot.rebuildPhase 1).rebuildEnd else s

/-- LONG_OPERATION_RESUME (action 2): a suspended operation goes on; a running one is not changed (R478, R479). -/
def execLongOperationResume (c : Nat) (s : State) : Host.Outcome State Fault Refusal :=
  .next <| s.onOp c 2 fun o s =>
    match o.st with
    | .suspended => (s.resumeOp o).complete c Cpl.ok
    | .running => s.complete c Cpl.ok
    | _ => s.complete c Cpl.seqError

/-- An operation is cancelled now, and leaves what Table 12-4 says. -/
def State.cancelNow (o : LongOp) (s : State) : State :=
  let s := s.endOp o.handle .cancelled (Config.cancelResult o.kind)
  if o.kind = 1 then (s.modProt (Prot.releaseWorks fun w => w.kind == .rebuild)).rebuildCancelled
  else if o.kind = 2 then s.modNames fun n => { n with sanitizing := false, sanitizeFailed := true }
  else s

/-- LONG_OPERATION_CANCEL (action 3): a suspended operation at once, a running one at its suspend point (R478, Table 12-17). -/
def execLongOperationCancel (c : Nat) (s : State) : Host.Outcome State Fault Refusal :=
  .next <| s.onOp c 3 fun o s =>
    match o.st with
    | .suspended | .waiting => (s.cancelNow o).complete c Cpl.ok
    | .running | .blocked =>
      (if s.atPoint o then s.cancelNow o else s.modOp o.handle fun y => { y with cancelAsked := true }).complete c Cpl.ok
    | _ => s.complete c Cpl.seqError

/-! ## Query and list (Table 12-6) -/

/-- State codes of an entry. -/
def OpState.code : OpState → Nat
  | .running => 0
  | .suspended => 1
  | .blocked => 2
  | .waiting => 3
  | .completed => 4
  | .cancelled => 5
  | .failed => 6

/-- The unit of a kind's progress: 0 stripes, 1 strips, 2 bands, 3 zones, 4 bytes. -/
def unitOf : Nat → Nat
  | 1 => 0
  | 3 => 1
  | 5 => 3
  | 6 => 4
  | _ => 2

/-- The 64-byte entry of an operation; its estimate has no formula in the spec (Config.remainingEstimate). -/
def LongOp.bytes (o : LongOp) : List Byte :=
  packBytes [(2, o.handle), (1, o.kind), (1, o.st.code), (8, o.done), (8, o.total), (1, unitOf o.kind), (1, o.origin), (2, 0),
    (8, o.started.toNat), (4, (Config.remainingEstimate o.done o.total).toNat), (4, if o.st.active then 0 else o.result.toNat),
    (4, o.p3.toNat), (4, o.p0.toNat), (4, o.p1.toNat), (4, o.p2.toNat), (8, 0)]

/-- LONG_OPERATION_QUERY (action 4): one entry. -/
def execLongOperationQuery (c : Nat) (s : State) : Host.Outcome State Fault Refusal :=
  .next <| s.onOp c 4 fun o s => s.complete c (Cpl.data o.bytes)

/-- LONG_OPERATION_LIST (action 5): 5,120 bytes, active operations first, and their count in dword 0. -/
def execLongOperationList (c : Nat) (s : State) : Host.Outcome State Fault Refusal :=
  .next <| s.runOp c 5 (fun _ _ => []) fun _ s =>
    let l := (s.longOps.filter fun o => o.st.active) ++ s.longOps.filter fun o => !o.st.active
    s.complete c { Cpl.data (padTo 5120 (l.flatMap LongOp.bytes)) with dw0 := BitVec.ofNat 32 l.length }

/-- SET_REBUILD_PARAMETERS (action 6): rebuild_delay and spare_alarm, each where the mask names it (R366, Table 12-5). -/
def execSetRebuildParameters (c : Nat) (s : State) : Host.Outcome State Fault Refusal :=
  .next <| s.runOp c 6
    (fun _ e => [(bits e.cdw13 0 0 == 1 && decide (3600 < bits e.cdw11 11 0), 11, 0), (bits e.cdw11 31 12 != 0, 11, 12),
      (bits e.cdw13 1 1 == 1 && decide (bits e.cdw12 5 0 = 0 ∨ 50 < bits e.cdw12 5 0), 12, 0), (bits e.cdw12 31 6 != 0, 12, 6),
      (bits e.cdw13 31 2 != 0, 13, 2)])
    fun x s =>
      let e := x.entry
      (s.watchSpare (State.modCfg fun k => { k with
        rebuildDelay := if bits e.cdw13 0 0 = 1 then bits e.cdw11 11 0 else k.rebuildDelay
        spareAlarm := if bits e.cdw13 1 1 = 1 then bits e.cdw12 5 0 else k.spareAlarm })).complete c Cpl.ok

end Sys2Proof.Machine
end

