-- ==== Sys2Proof/Machine/PortControl.lean ====
section
/-! DEFINITION. Family PortControl: the actions of Port Control (spec/12 R482, R483, Table 12-9; spec/04 R154 to R157, R168,
R172; spec/03 R140, R141; spec/05 R207). -/

namespace Sys2Proof.Machine

/-! ## Fields -/

/-- The port that a Port Control names. -/
def pcPort (e : SqEntry) : PortId := Fin.ofNat 32 (bits e.cdw10 12 8)

/-- The side of action 7. -/
def pcSide (e : SqEntry) : Side := Fin.ofNat 2 (bits e.cdw10 16 16)

/-- The value of actions 1 and 5. -/
def pcValue (e : SqEntry) : Nat := bits e.cdw11 9 0

/-- Reserved bits of Table 12-9 that are not 0 (DEDUCED, log 52). -/
def pcReserved (e : SqEntry) : List (Bool × Nat × Nat) :=
  [(bits e.cdw10 15 13 != 0, 10, 13), (bits e.cdw10 31 17 != 0, 10, 17), (bits e.cdw11 31 10 != 0, 11, 10), (e.cdw12 != 0, 12, 0),
    (e.cdw13 != 0, 13, 0), (e.cdw14 != 0, 14, 0), (e.cdw15 != 0, 15, 0)]

/-- An action of Port Control on its port; actions 2 to 7 need its presence (R483). -/
def State.runPort (c action : Nat) (k : SqEntry → PortId → State → State) (s : State) : State :=
  s.run c (isAction 0xC4 action) fun x s => s.orElse c (firstBad (pcReserved x.entry)) fun s =>
    if 2 ≤ action ∧ s.pins.prsnt.getLsbD (pcPort x.entry).val = false then s.complete c Cpl.seqError
    else k x.entry (pcPort x.entry) s

/-! ## Query (R482) -/

/-- Offsets of the link-domain counters of a PORT window. -/
def linkCounters : List Nat := [0x20, 0x24, 0x28, 0x2C, 0x30, 0x34]

/-- The bytes of a PORT window; without the recovered clock the link-domain counters are 0. -/
def State.portBytes (s : State) (p : PortId) : List Byte :=
  (List.range 16).flatMap fun i =>
    if inLinkDomain (4 * i) && !(s.port p).clock then leBytes 4 0 else leBytes 4 (s.portWord p (4 * i)).toNat

/-- PORT_CONTROL_QUERY: 128 bytes; the counters returned are cleared, those of a stopped clock are left (R482). -/
def execPortControlQuery (c : Nat) (s : State) : Host.Outcome State Fault Refusal :=
  .next <| s.runPort c 0 fun _ p s =>
    let bs := s.portBytes p ++ s.windowBytes (0x3800 + 32 * p.val) 32 ++ s.windowBytes (0x3C00 + 32 * p.val) 32
    let s := s.when (s.port p).clock fun s => s.each linkCounters fun o s => s.clearRc (.port p o)
    s.complete c (Cpl.data bs)

/-! ## Speed level -/

/-- SET_SPEED_LEVEL (spec/04 R156). -/
def execSetSpeedLevel (c : Nat) (s : State) : Host.Outcome State Fault Refusal :=
  .next <| s.runPort c 1 fun e p s => ((s.setLevel p (pcValue e)).settle).complete c Cpl.ok

/-! ## Reset and marks -/

/-- PORT_CONTROL_PORT_RESET (spec/03 R140); one whose training has not begun has nothing to repeat (DEDUCED, log 82). -/
def execPortControlPortReset (c : Nat) (s : State) : Host.Outcome State Fault Refusal :=
  .next <| s.runPort c 2 fun _ p s =>
    (s.portResetKeep p).settle.complete c Cpl.ok

/-- A failed mark is cleared: the port's link and units stand as after a port reset, without being counted as one, and the
port trains (spec/03 R141; spec/04 R168); an actuator out of service stays so, and the saturation flags stay (spec/05 R190, R207). -/
def State.clearFailed (p : PortId) (s : State) : State :=
  ((s.modPort p fun x => { x.afterReset with train := 0, joint := x.joint, startMark := false }).stopUnits p).startTraining p

/-- CLEAR_FAILED_MARK; without a mark there is nothing to clear (DEDUCED, log 53). -/
def execClearFailedMark (c : Nat) (s : State) : Host.Outcome State Fault Refusal :=
  .next <| s.runPort c 3 fun _ p s => (s.when ((s.port p).train == 0xA || (s.port p).startMark) (State.clearFailed p)).complete c Cpl.ok

/-- CLEAR_SPINDLE_FAULT: the overvoltage latch is released and the spindle stands in coast (spec/04 R172); with no fault latched
Command Sequence Error (R483). -/
def execClearSpindleFault (c : Nat) (s : State) : Host.Outcome State Fault Refusal :=
  .next <| s.runPort c 4 fun _ p s =>
    if (s.spin p).ovLatched = false then s.complete c Cpl.seqError
    else
      let s := (s.coast p).modSpin p fun v => { v with
        ovLatched := false, refused := false, st := if (s.port p).startMark then .startFailed else .stopped }
      (s.modPort p fun x => { x with degraded := false }).complete c Cpl.ok

/-! ## Out of service and back (R483) -/

/-- The operations of a port end, those queued with them. -/
def State.endPortWork (p : PortId) (s : State) : State :=
  s.each (fins 2) fun sd s =>
    let a := actOf p sd
    let s := match (s.seq a).op with
      | some d => (s.giveUp a).peerReport a d false
      | none => s
    let s := s.each (s.seq a).queue fun d s => s.peerReport a d false
    s.modSeq a fun q => { q with queue := [] }

/-- A port is taken out of service, its sides unloaded. -/
def State.takeOut (p : PortId) (s : State) : State :=
  let s := (s.endPortWork p).modPort p fun x => { x with removed := true }
  (s.leaveService p false).unloadSides p

/-- REMOVE_FROM_SERVICE: it completes when both sides are unloaded, or with spin down set when the spindle has stopped (R483); a
spindle short braked by the overvoltage latch is not driven down (spec/04 R172). -/
def execRemoveFromService (c : Nat) (s : State) : Host.Outcome State Fault Refusal :=
  .next <| s.runPort c 5 fun e p s =>
    let down := pcValue e % 2 == 1
    let s := (s.emit 0x0F 0x8005 p.val (pay [(1, bit down)])).takeOut p
    let up := (fins 2).any fun sd => (s.act (actOf p sd)).loaded
    let v := s.spin p
    if up = false ∧ (down = false ∨ (v.stands = true ∧ v.turning = false)) then s.settle.complete c Cpl.ok
    else ((s.when (down && !v.stopping && !v.ovLatched && !(v.stands && !v.turning)) (State.spinDown p)).settle).await c (.unload p down)

/-- A port that was removed serves again: at its run speed its sides are loaded, otherwise its spindle starts. -/
def State.putBack (p : PortId) (s : State) : State :=
  let s := s.modPort p fun x => { x with removed := false }
  let v := s.spin p
  if s.mayLoad p then s.each (s.port p).sides fun sd s => s.load (actOf p sd)
  else if v.stopping then s.modSpin p fun v => { v with thenStart := decide (64 ≤ v.levelCmd) && !v.refused }
  else s.askStart p

/-- RETURN_TO_SERVICE: refused on a port marked failed (R483); a port that was not removed is unchanged. -/
def execReturnToService (c : Nat) (s : State) : Host.Outcome State Fault Refusal :=
  .next <| s.runPort c 6 fun _ p s =>
    if (s.port p).train = 0xA ∨ (s.port p).startMark then s.complete c Cpl.seqError
    else ((s.when (s.port p).removed (State.putBack p)).settle).complete c Cpl.ok

/-- RETURN_ACTUATOR_TO_SERVICE: an actuator that left service after servo loss is loaded again (spec/05 R207). -/
def execReturnActuatorToService (c : Nat) (s : State) : Host.Outcome State Fault Refusal :=
  .next <| s.runPort c 7 fun e p s =>
    let a := actOf p (pcSide e)
    if (s.act a).outOfService then
      let s := (s.modAct a fun x => { x with outOfService := false, lostAt := none }).noteService p
      ((s.when (s.mayLoad p) (State.load a)).settle).complete c Cpl.ok
    else s.complete c Cpl.ok

end Sys2Proof.Machine
end

