-- ==== Sys2Proof/Machine/CalControl.lean ====
section
/-! DEFINITION. Family CalControl: the actions of Calibration Control (spec/08 R309, R313, R316, R317, Tables 8-7 to 8-9). -/

namespace Sys2Proof.Machine

/-! ## Fields -/

def ccHead (e : SqEntry) : Nat := bits e.cdw10 27 24
def ccAct (e : SqEntry) : ActId := Fin.ofNat 64 (bits e.cdw10 21 16)

/-- Reserved bits of Table 8-8 that are not 0 (DEDUCED, log 52). -/
def ccReserved (e : SqEntry) : List (Bool × Nat × Nat) :=
  [(bits e.cdw10 15 8 != 0, 10, 8), (bits e.cdw10 23 22 != 0, 10, 22), (bits e.cdw10 31 28 != 0, 10, 28),
    (bits e.cdw11 31 25 != 0, 11, 25), (bits e.cdw12 31 3 != 0, 12, 3), (e.cdw13 != 0, 13, 0), (e.cdw14 != 0, 14, 0),
    (e.cdw15 != 0, 15, 0)]

/-- The heads that a command names: one, or with 0xF all of them where the action allows it; an actuator without a head of that
number has none (DEDUCED, log 54). -/
def State.ccHeads (s : State) (e : SqEntry) (all : Bool) : Option (List (Fin 12)) :=
  let n := ccHead e
  if n = 0xF then (if all then some (s.heads (ccAct e)) else none)
  else if (s.heads (ccAct e)).any fun h => h.val == n then some [Fin.ofNat 12 n] else none

/-- An action of Calibration Control. -/
def State.runCal (c action : Nat) (bad : SqEntry → List (Bool × Nat × Nat)) (k : SqEntry → ActId → State → State) (s : State) : State :=
  s.run c (isAction 0xC5 action) fun x s => s.orElse c (firstBad (ccReserved x.entry ++ bad x.entry)) (k x.entry (ccAct x.entry))

/-! ## Query (Table 8-9) -/

/-- State of a head: failed before uncalibrated before write hold before due (DEDUCED, log 55). -/
def State.headState (s : State) (a : ActId) (h : Fin 12) : Nat :=
  let y := (s.acal a).heads[h]
  if y.failed then 4 else if y.tCal.isNone then 3 else if s.held a h then 2 else if s.due a h then 1 else 0

/-- The zone of the values in force on a head: that of the operation that the actuator runs on the head; with none the spec
names no zone, and a free value gives one of the HDA's zones (log 56). -/
def State.zoneInForce (s : State) (a : ActId) (h : Fin 12) : Fin 32 :=
  let zones := match (s.pcal (portOf a)).format with
    | some f => max 1 f.zoneCount
    | none => 32
  let any : Fin 32 := Fin.ofNat 32 ((Config.freeByte (s.free + h.val)).toNat % zones)
  match (s.seq a).op with
  | some d => if d.head = h then d.zone else any
  | none => any

/-- The 32 bytes of a head. -/
def State.headEntry (s : State) (a : ActId) (h : Fin 12) : List Byte :=
  let y := (s.acal a).heads[h]
  let z := s.zoneInForce a h
  let tf := s.tf (portOf a)
  let v := (s.headValues a h z tf).getD { laser := 0, sto := 0, write := 0, reader0 := 0, reader1 := 0 }
  let age := match y.lastAt with
    | some t => min 0xFFFFFFFF ((s.now - t) / Config.sec)
    | none => 0xFFFFFFFF
  packBytes [(2, match y.tCal with
      | some t => unsigned 16 t
      | none => 0x8000), (2, unsigned 16 tf), (1, s.headState a h), (1, y.fails), (2, z.val), (2, v.laser), (2, v.sto), (2, v.write),
    (2, v.reader0), (2, v.reader1), (2, y.breaks), (4, age), (2, min 65535 y.lastMs), (2, y.abandoned), (4, 0)]

/-- CALIBRATION_CONTROL_QUERY: 32 bytes for a head, 384 for all (R317); the entries of heads that the actuator does not have are
zeros. -/
def execCalibrationControlQuery (c : Nat) (s : State) : Host.Outcome State Fault Refusal :=
  .next <| s.runCal c 0 (fun _ => []) fun e a s =>
    match s.ccHeads e true with
    | none => s.complete c (Cpl.invalid 10 24)
    | some l => ({ s with free := s.free + 12 }).complete c (Cpl.data (padTo (if ccHead e = 0xF then 384 else 32) (l.flatMap (s.headEntry a))))

/-! ## Actions -/

/-- CALIBRATE_ONE_HEAD: one break on the head's cal_zone; the command completes when the break ends (R317). -/
def execCalibrateOneHead (c : Nat) (s : State) : Host.Outcome State Fault Refusal :=
  .next <| s.runCal c 1 (fun _ => []) fun e a s =>
    if 11 < ccHead e then s.complete c (Cpl.invalid 10 24)
    else if s.actInService a = false then s.complete c Cpl.seqError
    else match s.ccHeads e false with
      | some [h] => s.await c (.calBreak a h)
      | _ => s.complete c (Cpl.invalid 10 24)

/-- CALIBRATION_DEFER: triggered calibrations are deferred for 1 to 600 s; 0 ends a deferral (R313). -/
def execCalibrationDefer (c : Nat) (s : State) : Host.Outcome State Fault Refusal :=
  .next <| s.runCal c 2 (fun e => [(decide (11 < ccHead e), 10, 24), (decide (600 < bits e.cdw11 15 0), 11, 0)]) fun e _ s =>
    let n := bits e.cdw11 15 0
    let until_ := if n = 0 then none else some (s.now + n * Config.sec)
    ({ s with cal := { s.cal with deferUntil := until_ } }).complete c Cpl.ok

/-- CALIBRATION_SET_PARAMETERS: the parameters that the mask names, kept in the configuration store (R316). -/
def execCalibrationSetParameters (c : Nat) (s : State) : Host.Outcome State Fault Refusal :=
  .next <| s.runCal c 3
    (fun e => [(decide (11 < ccHead e), 10, 24),
      (e.cdw12.getLsbD 0 && (decide (bits e.cdw11 15 0 < 250) || decide (10000 < bits e.cdw11 15 0)), 11, 0),
      (e.cdw12.getLsbD 1 && (bits e.cdw11 23 16 == 0 || decide (64 < bits e.cdw11 23 16)), 11, 16)]) fun e _ s =>
    let spacing := if e.cdw12.getLsbD 0 then bits e.cdw11 15 0 else s.cal.spacing
    let most := if e.cdw12.getLsbD 1 then bits e.cdw11 23 16 else s.cal.sledMax
    let recon := if e.cdw12.getLsbD 2 then e.cdw11.getLsbD 24 else s.cal.reconstruct
    (({ s with cal := { s.cal with spacing := spacing, sledMax := most, reconstruct := recon } }).modCfg fun k =>
      { k with calSpacing := spacing, calSledMax := most, calReconstruct := recon }).complete c Cpl.ok

/-- CALIBRATION_RESTORE_HEAD: the head's entries are those of table 0x0005 and it is uncalibrated; its failed mark is cleared
(R309, R317). -/
def execCalibrationRestoreHead (c : Nat) (s : State) : Host.Outcome State Fault Refusal :=
  .next <| s.runCal c 4 (fun _ => []) fun e a s =>
    match s.ccHeads e true, (s.pcal (portOf a)).table with
    | none, _ => s.complete c (Cpl.invalid 10 24)
    | some _, none => s.complete c Cpl.seqError
    | some l, some t =>
      let s := s.each l fun h s => s.modAcal a fun x => { x with
        heads := upd x.heads h fun y => { y with entries := t.head (globalHead (sideOf a) h), tCal := none, failed := false, fails := 0 } }
      ((s.calDirty a).noteHolds a).complete c Cpl.ok

end Sys2Proof.Machine
end

