-- ==== Sys2Proof/Machine/EngineControl.lean ====
section
/-! DEFINITION. Family EngineControl: the actions of Engine Control (spec/12 R486, Table 12-12; spec/07 R278 to R282; spec/06 R241,
R242; spec/19 R666, R667). -/

namespace Sys2Proof.Machine

/-! ## Fields -/

def ecTarget (e : SqEntry) : Nat := bits e.cdw10 15 8

/-- An action of Engine Control, its reserved bits 0 and its target below a bound (or 0xFF where all are allowed). -/
def State.runEngine (c action bound : Nat) (all : Bool) (bad : SqEntry → List (Bool × Nat × Nat)) (k : SqEntry → State → State)
    (s : State) : State :=
  s.run c (isAction 0xCE action) fun x s =>
    s.orElse c (firstBad ([(decide (bound ≤ ecTarget x.entry) && !(all && ecTarget x.entry == 0xFF), 10, 8),
      (bits x.entry.cdw10 31 16 != 0, 10, 16)] ++ bad x.entry)) (k x.entry)

/-- An action on an engine, and on a sequencer. -/
def State.runEng (c action : Nat) (k : EngId → State → State) (s : State) : State :=
  s.runEngine c action 24 false (fun _ => []) fun e => k (Fin.ofNat 24 (ecTarget e))
def State.runSeq (c action : Nat) (k : ActId → State → State) (s : State) : State :=
  s.runEngine c action 64 false (fun _ => []) fun e => k (Fin.ofNat 64 (ecTarget e))

/-- Result of a self-test in dword 0. -/
def testResult (pass : Bool) : Cpl := Cpl.val (BitVec.ofNat 32 (bit !pass))

/-! ## Pool parameters -/

/-- QUERY_POOL_PARAMETERS: 16 bytes. -/
def execQueryPoolParameters (c : Nat) (s : State) : Host.Outcome State Fault Refusal :=
  .next <| s.runEngine c 0 256 true (fun _ => []) fun _ s =>
    let p := s.chorus.params
    s.complete c (Cpl.data (packBytes [(2, p.recoveryBudget), (1, p.recoverySteps.toNat), (1, p.rereadMax), (2, p.backgroundAge),
      (2, p.waitAlarm), (1, s.chorus.rebuildShare), (7, 0)]))

/-- The ranges of Table 7-5, of the parameters that the mask names. -/
def poolBad (e : SqEntry) : List (Bool × Nat × Nat) :=
  let m := e.cdw13
  [(m.getLsbD 0 && (decide (bits e.cdw11 15 0 < 100) || decide (10000 < bits e.cdw11 15 0)), 11, 0),
    (m.getLsbD 2 && decide (4 < bits e.cdw11 23 21), 11, 21), (bits e.cdw11 31 24 != 0, 11, 24),
    (m.getLsbD 3 && (decide (bits e.cdw12 15 0 < 10) || decide (5000 < bits e.cdw12 15 0)), 12, 0),
    (m.getLsbD 4 && (bits e.cdw12 25 16 == 0 || decide (1000 < bits e.cdw12 25 16)), 12, 16), (bits e.cdw12 31 26 != 0, 12, 26),
    (bits m 31 5 != 0, 13, 5)]

/-- SET_POOL_PARAMETERS: each takes effect at the next decision that uses it, and is held in the configuration store (spec/07
R278). -/
def execSetPoolParameters (c : Nat) (s : State) : Host.Outcome State Fault Refusal :=
  .next <| s.runEngine c 4 256 true poolBad fun e s =>
    let m := e.cdw13
    let set (p : PoolParams) : PoolParams := { p with
      recoveryBudget := if m.getLsbD 0 then bits e.cdw11 15 0 else p.recoveryBudget
      recoverySteps := if m.getLsbD 1 then BitVec.ofNat 5 (bits e.cdw11 20 16) else p.recoverySteps
      rereadMax := if m.getLsbD 2 then bits e.cdw11 23 21 else p.rereadMax
      backgroundAge := if m.getLsbD 3 then bits e.cdw12 15 0 else p.backgroundAge
      waitAlarm := if m.getLsbD 4 then bits e.cdw12 25 16 else p.waitAlarm }
    ((s.modChorus fun k => { k with params := set k.params }).modCfg fun k => { k with pool := set k.pool }).complete c Cpl.ok

/-! ## Chorus engines -/

/-- ENGINE_OFFLINE: its session ends at once and its captures stay; refused when no engine would be left in service. A gated
engine takes the offline mark (R486; spec/07 R279; spec/19 R666). -/
def execEngineOffline (c : Nat) (s : State) : Host.Outcome State Fault Refusal :=
  .next <| s.runEng c 1 fun e s =>
    let x := s.eng e
    if x.st = .gated then (s.modEng e fun y => { y with mark := true }).complete c Cpl.ok
    else if x.st = .offline ∨ x.st = .faulted then s.complete c Cpl.ok
    else if x.st = .selfTest then (s.modEng e fun y => { y with st := .offline, refault := false }).complete c Cpl.ok
    else if s.enginesServing ≤ 1 then s.complete c Cpl.seqError
    else
      let s := (s.cutSession e .offline).raisePool 0
      ((if x.gateDue then s.gate e else s).grant).complete c Cpl.ok

/-- A self-test of an engine that stays out of service: offline when it passed, faulted when it failed (spec/07 R281). -/
def State.testEngine (e : EngId) (pass : Bool) (s : State) : State :=
  if pass then s.modEng e fun x => { x with st := .offline }
  else (s.modEng e fun x => { x with st := .faulted }).raiseEng e 5

/-- ENGINE_SELF_TEST: the engine must be offline; the command completes when the test ends (R486; spec/07 R280). -/
def execEngineSelfTest (c : Nat) (pass : Bool) (s : State) : Host.Outcome State Fault Refusal :=
  .next <| s.runEng c 2 fun e s =>
    if (s.eng e).st = .offline ∨ (s.eng e).st = .faulted then (s.testEngine e pass).complete c (testResult pass)
    else s.complete c Cpl.seqError

/-- ENGINE_TO_SERVICE: the self-test first; a failure is Internal Error; one in service is unchanged, a gated one loses its offline
mark (R486; spec/19 R666). -/
def execEngineToService (c : Nat) (pass : Bool) (s : State) : Host.Outcome State Fault Refusal :=
  .next <| s.runEng c 3 fun e s =>
    let x := s.eng e
    if x.st.serves then s.complete c Cpl.ok
    else if x.st = .gated then (s.modEng e fun y => { y with mark := false }).complete c Cpl.ok
    else ((s.modEng e fun y => { y with refault := false }).selfTestEnd e pass).complete c (if pass then Cpl.ok else Cpl.internal)

/-! ## Sequencers -/

/-- SEQUENCER_OFFLINE: its operation ends at once, it holds at 0x0000, and its actuator is out of service (R486; spec/19 R667);
a waiting bank switch takes place at once (spec/06 R230). -/
def execSequencerOffline (c : Nat) (s : State) : Host.Outcome State Fault Refusal :=
  .next <| s.runSeq c 5 fun a s =>
    if (s.seq a).st = .offline then s.complete c Cpl.ok
    else
      let s := (s.cancelGates a true true).failOp a
      let s := (s.seqToIdle a false).modSeq a fun q => { q with st := .offline, outOfService := true }
      ((s.selectBank a).actOut a).complete c Cpl.ok

/-- SEQUENCER_SELF_TEST: the sequencer must be offline; a failed test is fault 0x08 (R486; spec/06 R242, Table 6-9). -/
def execSequencerSelfTest (c : Nat) (pass : Bool) (s : State) : Host.Outcome State Fault Refusal :=
  .next <| s.runSeq c 6 fun a s =>
    if (s.seq a).st ≠ .offline then s.complete c Cpl.seqError
    else (s.when (!pass) fun s => s.seqFault a 8).complete c (testResult pass)

/-- SEQUENCER_REINITIALISE: the self-test first; then it runs from 0x0000 on the newest bank and its actuator serves again; one in
service is unchanged (R486; spec/06 R241; spec/19 R666, R667). -/
def execSequencerReinitialise (c : Nat) (pass : Bool) (s : State) : Host.Outcome State Fault Refusal :=
  .next <| s.runSeq c 7 fun a s =>
    let q := s.seq a
    if (q.st = .idle ∨ q.st = .running) ∧ q.outOfService = false then s.complete c Cpl.ok
    else if pass then
      let s := (s.modSeq a fun q => { q with outOfService := false, faultAt := none }).seqRestart a
      (((s.noteService (portOf a)).tryService (portOf a)).settle).complete c Cpl.ok
    else (s.seqFault a 8).complete c Cpl.internal

/-- The ranges of Table 6-8, of the parameters that the mask names. -/
def seqParamBad (e : SqEntry) : List (Bool × Nat × Nat) :=
  let m := e.cdw13
  [(m.getLsbD 0 && (decide (bits e.cdw11 3 0 < 2) || decide (8 < bits e.cdw11 3 0)), 11, 0), (bits e.cdw11 7 4 != 0, 11, 4),
    (m.getLsbD 1 && (bits e.cdw11 12 8 == 0 || decide (16 < bits e.cdw11 12 8)), 11, 8), (bits e.cdw11 31 13 != 0, 11, 13),
    (bits m 31 2 != 0, 13, 2)]

/-- A sequencer's parameters are set: held in the configuration store, and in force from its next idle point, at once when it is
there (spec/06 Table 6-8). -/
def State.setSeqParams (e : SqEntry) (a : ActId) (s : State) : State :=
  let m := e.cdw13
  let ahead := if m.getLsbD 0 then bits e.cdw11 3 0 else s.nor.config.gateAhead[a]
  let retry := if m.getLsbD 1 then bits e.cdw11 12 8 else s.nor.config.writeRetryMax[a]
  let s := s.modCfg fun k => { k with
    gateAhead := upd k.gateAhead a fun _ => ahead, writeRetryMax := upd k.writeRetryMax a fun _ => retry }
  s.when (s.atIdle a) (State.modSeq a fun q => { q with gateAhead := ahead, retryMax := retry })

/-- SET_SEQUENCER_PARAMETERS, of one sequencer or of all (R486). -/
def execSetSequencerParameters (c : Nat) (s : State) : Host.Outcome State Fault Refusal :=
  .next <| s.runEngine c 8 64 true seqParamBad fun e s =>
    let l : List ActId := if ecTarget e = 0xFF then fins 64 else [Fin.ofNat 64 (ecTarget e)]
    (s.each l (State.setSeqParams e)).complete c Cpl.ok

end Sys2Proof.Machine
end

