-- ==== Sys2Proof/Machine/Thermal.lean ====
section
/-! DEFINITION. Family Thermal: sensors, enforcement steps, hardware shutdown, HDA temperatures, compensation and Thermal Control
(spec/15; spec/20 R703). Temperatures are in 1/16 °C. -/

namespace Sys2Proof.Machine

/-! ## Sensors (R541 to R545) -/

/-- The filtered reading of a sensor: the mean of its last four converted readings, or of those there are (DEDUCED, log 58). -/
def meanOf (l : List Int) : Int := if l = [] then 0 else roundHalfUp l.sum l.length

/-- The filtered reading 1 s before the newest one. -/
def Sensor.secondAgo (x : Sensor) : Option Int := match x.hist with
  | (t, _) :: r => (r.find? fun q => decide (q.1 + Config.sec ≤ t)).map Prod.snd
  | [] => none

/-- The present rise of a sensor over 1 s; a broken sensor takes no part, and one without a reading 1 s back has no rise. -/
def Sensor.rise (x : Sensor) : Int := if x.broken then 0 else match x.hist, x.secondAgo with
  | (_, v) :: _, some w => v - w
  | _, _ => 0

/-- The filtered readings that the rise needs: those of the last second and one more. -/
def keepSecond (now : Nat) : List (Nat × Int) → List (Nat × Int)
  | [] => []
  | q :: r => if q.1 + Config.sec ≤ now then [q] else q :: keepSecond now r

/-- Whether a count marks its sensor broken: outside the plausibility band, −70 to 160 °C, or the 200th in a row (R542). The band
is fused; the converted reading tells of it (log 59). -/
def countBad (reading : Int) (same : Nat) : Bool := decide (reading < -1120) || decide (2560 < reading) || decide (200 ≤ same)

/-- A conversion of a sensor. -/
def Sensor.convert (x : Sensor) (now : Nat) (count : W32) (reading : Int) : Sensor :=
  let same := if x.last ≠ [] ∧ count = x.count then x.same + 1 else 1
  let broken := x.broken || countBad reading same
  let last := ((if broken then 2016 else reading) :: x.last).take 4
  { x with last := last, count := count, same := same, broken := broken, hist := keepSecond now ((now, meanOf last) :: x.hist) }

/-- The largest of several values and where it is, the first of equals; a default when there is none. -/
def largest (l : List (SensorId × Int)) : SensorId × Int :=
  match l with
  | [] => (0, 0)
  | q :: r => r.foldl (fun b y => if b.2 < y.2 then y else b) q

/-- Sensors that take part in threshold tests. -/
def Therm.included (t : Therm) : List SensorId := (fins 16).filter fun i => !(t.sensors[i]).excluded

/-- The hottest reading and the largest rise, with their sensors (R545, Table 15-7). -/
def Therm.measure (t : Therm) : Therm :=
  let hot := largest (t.included.map fun i => (i, (t.sensors[i]).reading))
  let rise := largest (((fins 16).filter fun i => !(t.sensors[i]).broken).map fun i => (i, (t.sensors[i]).rise))
  { t with hot := hot.2, hotSensor := hot.1, rise := rise.2, riseSensor := rise.1 }

/-! ## Conditions (Table 15-2) -/

/-- A critical condition (R545): 125 °C or more, or a rise above 8 °C. -/
def Therm.critical (t : Therm) : Bool := decide (2000 ≤ t.hot) || decide (128 < t.rise)

/-- A throttle request: 115 °C or more, a rise above 3 °C, a DRAM rank too hot. -/
def Therm.wants (t : Therm) : Bool := decide (1840 ≤ t.hot) || decide (48 < t.rise) || t.dramHot

/-- The hottest reading is below 110 °C, with no request and no critical condition (R547). -/
def Therm.cools (t : Therm) : Bool := decide (t.hot < 1760) && !t.request && !t.critical

/-- The step is set; a higher one sets step_raised, a lower one step_lowered; limits follow (R548). -/
def State.setThermStep (n : Fin 4) (s : State) : State :=
  let old := s.therm.step
  if n = old then s
  else
    let s := (s.modTherm fun t => { t with step := n }).raiseTherm (if old < n then 4 else 5) noSource
    s.when s.boot.released State.limitEngines

/-- The step is raised by one, to at most a bound. -/
def State.raiseStep (most : Nat) (s : State) : State :=
  if s.therm.step.val < most then s.setThermStep (Fin.ofNat 4 (s.therm.step.val + 1)) else s

/-- The throttle request starts or stops the grace timer (R546). -/
def State.judgeRequest (s : State) : State :=
  let now := s.therm.wants
  if now ∧ s.therm.request = false then
    (s.modTherm fun t => { t with request := true, graceAt := some (s.now + t.graceS * Config.sec) }).raiseTherm 1 noSource
  else if now = false ∧ s.therm.request then s.modTherm fun t => { t with request := false, graceAt := none }
  else s

/-- A rise above 3 or 8 °C of a sensor sets the rate event; one above 8 °C raises the step at once (R545). -/
def State.judgeRise (i : SensorId) (before : Int) (s : State) : State :=
  let r := (s.therm.sensors[i]).rise
  let set (v : Option Nat) (s : State) : State :=
    s.modTherm fun t => { t with sensors := upd t.sensors i fun x => { x with raisedAt := v } }
  let s := s.when (decide (48 < r ∧ before ≤ 48) || decide (128 < r ∧ before ≤ 128)) (State.raiseTherm 2 i.val)
  if 128 < r then (if (s.therm.sensors[i]).raisedAt.isSome then s else (set (some s.now) s).raiseStep 3) else set none s

/-- The count of 10 s below 110 °C with no request and no critical condition begins, goes on or ends (R547). -/
def State.judgeCool (s : State) : State := s.modTherm fun t => { t with coolSince := if t.cools then some (t.coolSince.getD s.now) else none }

/-- Warning and critical events at their onset, step 3 at 125 °C, the grace timer, and the two cooling counts (R545 to R547,
R556). -/
def State.judgeTherm (before : Int) (s : State) : State :=
  let hot := s.therm.hot
  let s := s.when (decide (1680 ≤ hot ∧ before < 1680)) (State.raiseTherm 0 s.therm.hotSensor.val)
  let s := s.when (decide (2000 ≤ hot ∧ before < 2000)) (State.raiseTherm 3 s.therm.hotSensor.val)
  let s := if 2000 ≤ hot then s.setThermStep 3 else s
  let s := s.judgeRequest.judgeCool
  s.modTherm fun t => { t with
    below100 := if (t.included.all fun i => decide ((t.sensors[i]).reading < 1600)) = true then some (t.below100.getD s.now) else none }

/-! ## Hardware shutdown (R555) -/

/-- Two consecutive converted readings of an included sensor at 140 °C or above. -/
def Therm.tooHot (t : Therm) : Bool := t.included.any fun i => match (t.sensors[i]).last with
  | a :: b :: _ => decide (2240 ≤ a) && decide (2240 ≤ b)
  | _ => false

def Therm.brokenCount (t : Therm) : Nat := (t.sensors.toList.filter fun x => x.broken).length

/-- Hardware shutdown (R555): main cold reset, THERMTRIP#, the latches and the count; a power-fail dump ends with it (Table
15-6). -/
def State.thermalShutdown (s : State) : State :=
  let forever := decide (4 ≤ s.therm.brokenCount)
  let s := ((s.setCause causeThermal).enterCold).modAon fun a => { a with hold := .shutdown }
  (s.modTherm fun t => { t with
    shutdownLatched := true, tripped := true, noRestart := t.noRestart || forever, shutdowns := satAdd 65535 t.shutdowns 1 }).raiseTherm
      7 noSource

/-- The shutdown conditions are tested; they change nothing in a shutdown that is under way, but that four broken sensors keep it
from ending (R556). -/
def State.testShutdown (s : State) : State :=
  if s.therm.tooHot ∨ 4 ≤ s.therm.brokenCount then
    if s.therm.tripped then s.modTherm fun t => { t with noRestart := t.noRestart || decide (4 ≤ t.brokenCount) }
    else s.thermalShutdown
  else s

/-! ## Commands -/

/-- SENSOR_CONVERSION: each 1 ms a sensor is converted, filtered and tested (R540 to R545, R555). The two composite temperature
times count with the conversions of sensor 0, that of the warning below the critical temperature only (R550; the standard's words,
PRESUMED, log 33). -/
def execSensorConversion (t : SensorId) (count : W32) (reading : Int) (s : State) : Host.Outcome State Fault Refusal :=
  .next <|
    if s.aon.hold = .powerOn then s
    else
      let x := s.therm.sensors[t]
      let s := match x.hist with
        | q :: _ => s.at_ (q.1 + Config.ms)
        | [] => s
      let hot := s.therm.hot
      let wasBroken := x.broken
      let s := s.modTherm fun m => { m with sensors := upd m.sensors t fun y => y.convert s.now count reading }
      let s := s.modTherm Therm.measure
      let s := s.when ((s.therm.sensors[t]).broken && !wasBroken) (State.raiseTherm 6 t.val)
      let s := (s.judgeRise t x.rise).judgeTherm hot
      let s := s.when (t == 0) (State.modTherm fun m => { m with
        warnMs := m.warnMs + bit (decide (1680 ≤ m.hot ∧ m.hot < 2000)), critMs := m.critMs + bit (decide (2000 ≤ m.hot)) })
      s.testShutdown

/-- RATE_RISE_PERSIST: a rise above 8 °C has lasted for a further 1 s (R545). -/
def execRateRisePersist (t : SensorId) (s : State) : Host.Outcome State Fault Refusal :=
  .next <|
    match (s.therm.sensors[t]).raisedAt with
    | none => s
    | some a =>
      if (s.therm.sensors[t]).rise ≤ 128 then s
      else
        let s := s.at_ (a + Config.sec)
        (s.modTherm fun m => { m with sensors := upd m.sensors t fun x => { x with raisedAt := some s.now } }).raiseStep 3

/-- GRACE_EXPIRY: a request is still present: the step is raised by one, to at most 2, and the timer restarts (R546). -/
def execGraceExpiry (s : State) : Host.Outcome State Fault Refusal :=
  .next <|
    match s.therm.graceAt with
    | none => s
    | some g =>
      let s := s.at_ g
      if s.therm.request = false then s.modTherm fun t => { t with graceAt := none }
      else (s.raiseStep 2).modTherm fun t => { t with graceAt := some (s.now + t.graceS * Config.sec) }

/-- STEP_RELEASE: 10 s below 110 °C with no request and no critical condition (R547). -/
def execStepRelease (s : State) : Host.Outcome State Fault Refusal :=
  .next <|
    match s.therm.coolSince with
    | none => s
    | some t =>
      if s.therm.step = 0 ∨ s.therm.cools = false then s
      else
        let s := s.at_ (t + 10 * Config.sec)
        (s.modTherm fun m => { m with coolSince := some s.now }).setThermStep (Fin.ofNat 4 (s.therm.step.val - 1))

/-- THERMAL_RESTART: 30 s below 100 °C with SYS_PWROK asserted: THERMTRIP# is deasserted and a main cold bring-up follows (R556). -/
def execThermalRestart (s : State) : Host.Outcome State Fault Refusal :=
  .next <|
    match s.therm.below100 with
    | none => s
    | some t =>
      if s.aon.hold ≠ .shutdown ∨ s.therm.noRestart ∨ s.pins.sysPwrok = false then s
      else
        let s := ((s.at_ (t + 30 * Config.sec)).modTherm fun m => { m with tripped := false }).modAon fun a => { a with hold := .mainCold }
        s.modBoot fun b => { b with afterShutdown := true }

/-- Interval of an item (Table 15-4): none for what is corrected with each conversion or continuously; of DRAM the shorter, its refresh
rate's. -/
def trimEvery : TrimItem → Nat
  | .rcOscillator => 64 * Config.ms
  | .railMonitors => 64 * Config.ms
  | .sensors => 0
  | .coreAndDramPll => 0
  | .serdesPlls => 16 * Config.ms
  | .dram => 16 * Config.ms

/-- Whether an item is a PLL, whose correction can need a VCO band switch. -/
def isPll (i : TrimItem) : Bool := i == .coreAndDramPll || i == .serdesPlls

/-- COMPENSATION_TRIM: a temperature correction is applied at its interval; its instant is kept, its analogue effect has no place in the
model (log 60). `band`: it would need a VCO band switch, and waits until the next port reset or device reset (R553). -/
def execCompensationTrim (item : Trim) (s : State) : Host.Outcome State Fault Refusal :=
  .next <|
    let band := item.band
    let item := item.item
    let s := match s.therm.trims.find? fun q => q.1 == item with
      | some q => s.at_ (q.2 + trimEvery item)
      | none => s
    if band = true ∧ isPll item = true then
      s.modXing fun x => { x with bandDue := if x.bandDue.contains item then x.bandDue else x.bandDue ++ [item] }
    else s.modTherm fun t => { t with trims := put item s.now t.trims }

/-! ## HDA temperatures (R551) -/

/-- T_f of the ports that have had a valid temperature, the hottest; 0x8000 with none. -/
def State.hdaMaxNow (s : State) : W16 :=
  let l := (fins 32).filterMap fun p => (s.pcal p).lastValid.map fun _ => s.tf p
  match l with
  | [] => 0x8000
  | x :: r => BitVec.ofInt 16 (r.foldl max x)

/-- A port's T_f is judged against hda_warn and hda_stop; a hold ends 2 °C below hda_stop (R551). -/
def State.judgeHda (p : PortId) (s : State) : State :=
  let tf := s.tf p
  let t := s.therm
  let known := (s.pcal p).lastValid.isSome
  let warm := known && decide (16 * (t.hdaWarn : Int) < tf)
  let over_ := known && decide (16 * (t.hdaStop : Int) < tf)
  let held := t.stopped.contains p
  let cool := decide (tf ≤ 16 * ((t.hdaStop : Int) - 2))
  let s := s.when (warm && !t.warned.contains p) (State.raiseTherm 8 (0x100 + p.val))
  let s := s.when (over_ && !held) (State.raiseTherm 9 (0x100 + p.val))
  let s := s.modTherm fun m => { m with
    warned := (m.warned.filter fun q => q != p) ++ (if warm then [p] else [])
    stopped := (m.stopped.filter fun q => q != p) ++ (if over_ || (held && !cool) then [p] else [])
    hdaMax := s.hdaMaxNow }
  (s.noteHolds (actOf p 0)).noteHolds (actOf p 1)

/-! ## Thermal Control (R559) -/

/-- Reserved bits of R559 that are not 0 (DEDUCED, log 52). -/
def tcReserved (e : SqEntry) : List (Bool × Nat × Nat) :=
  [(bits e.cdw10 31 12 != 0, 10, 12), (bits e.cdw11 31 16 != 0, 11, 16), (e.cdw12 != 0, 12, 0), (e.cdw13 != 0, 13, 0),
    (e.cdw14 != 0, 14, 0), (e.cdw15 != 0, 15, 0)]

def State.runTherm (c action : Nat) (bad : SqEntry → List (Bool × Nat × Nat)) (k : SqEntry → State → State) (s : State) : State :=
  s.run c (isAction 0xCC action) fun x s => s.orElse c (firstBad (bad x.entry ++ tcReserved x.entry)) (k x.entry)

/-- THERMAL_CONTROL_QUERY: bytes 0x00 to 0xBF of the THERM block. -/
def execThermalControlQuery (c : Nat) (s : State) : Host.Outcome State Fault Refusal :=
  .next <| s.runTherm c 0 (fun _ => []) fun _ s => s.complete c (Cpl.data (s.windowBytes 0x1000 0xC0))

/-- EXCLUDE_SENSOR: a broken sensor, at most two at once (R544). -/
def execExcludeSensor (c : Nat) (s : State) : Host.Outcome State Fault Refusal :=
  .next <| s.runTherm c 1 (fun _ => []) fun e s =>
    let i : SensorId := Fin.ofNat 16 (bits e.cdw10 11 8)
    let x := s.therm.sensors[i]
    if x.excluded then s.complete c Cpl.ok
    else if x.broken = false ∨ 2 ≤ (s.therm.sensors.toList.filter fun y => y.excluded).length then s.complete c Cpl.seqError
    else
      let hot := s.therm.hot
      let s := s.modTherm fun t => { t with sensors := upd t.sensors i fun y => { y with excluded := true } }
      ((s.modTherm Therm.measure).judgeTherm hot).complete c Cpl.ok

/-- SET_HDA_THRESHOLDS: in range, and hda_stop above hda_warn; held in the configuration store (R552). -/
def execSetHdaThresholds (c : Nat) (s : State) : Host.Outcome State Fault Refusal :=
  .next <| s.runTherm c 2
    (fun e =>
      let warn := bits e.cdw11 7 0
      let stop := bits e.cdw11 15 8
      [(decide (warn < 40) || decide (70 < warn), 11, 0), (decide (stop < 45) || decide (75 < stop) || decide (stop ≤ warn), 11, 8)])
    fun e s =>
      let warn := bits e.cdw11 7 0
      let stop := bits e.cdw11 15 8
      let s := (s.modTherm fun t => { t with hdaWarn := warn, hdaStop := stop }).modCfg fun k => { k with hdaWarn := warn, hdaStop := stop }
      (s.each (fins 32) State.judgeHda).complete c Cpl.ok

/-! ## SMB_ALERT# (spec/20 R703) -/

/-- The alert is asserted. -/
def State.smbAlert (s : State) : Bool :=
  s.therm.critical || s.therm.shutdownLatched || s.criticalWarning .a != 0 || s.criticalWarning .b != 0

end Sys2Proof.Machine
end

