-- ==== Sys2Proof/Machine/Memory.lean ====
section
/-! DEFINITION. Family Memory: DRAM upkeep, scrubs, retired pages, uncorrectable errors by region, traps and DMA halts (spec/13
R493 to R510). -/

namespace Sys2Proof.Machine

/-- DRAM and SRAM are in use: bring-up has filled them and the control processors run. -/
def State.memoryUp (s : State) : Bool := s.aon.hold == .running && s.boot.released

/-! ## DRAM upkeep (R493, R494) -/

/-- MR4_POLL: a rank's refresh rate is set from MR4; one above its operating range raises a DRAM thermal event, which is a throttle
request (R493; spec/15 R545). A rank that the package lacks changes nothing. -/
def execMr4Poll (ch : Fin 8) (rank : Fin 2) (rate : Fin 8) (hot : Bool) (s : State) : Host.Outcome State Fault Refusal :=
  .next <|
    if s.memoryUp = false ∨ s.mem.ranks ≤ rank.val then s
    else
      let s := s.wake
      let was := s.mem.hot.contains (ch, rank)
      let s := s.modMem fun m => { m with
        refresh := put (ch, rank) rate m.refresh
        hot := (m.hot.filter fun q => q != (ch, rank)) ++ (if hot then [(ch, rank)] else []) }
      let s := s.modTherm fun t => { t with dramHot := s.mem.hot != [] }
      (s.when (hot && !was) (State.raiseTherm 10 noSource)).judgeRequest.judgeCool

/-- ZQ_CALIBRATION: every 256 ms on each channel in service (R494). -/
def execZqCalibration (ch : Fin 8) (s : State) : Host.Outcome State Fault Refusal :=
  .next <|
    if s.memoryUp = false ∨ s.mem.trained.getLsbD ch.val = false then s
    else
      let s := match s.mem.zqAt[ch] with
        | some t => (s.at_ (t + 256 * Config.ms)).wake
        | none => s.wake
      s.modMem fun m => { m with zqAt := upd m.zqAt ch fun _ => some s.now }

/-- DQS_OSCILLATOR_READ: every 64 ms the write DQ delays of a channel are adjusted from its oscillator's count, by a free value (R494). -/
def execDqsOscillatorRead (ch : Fin 8) (count : W16) (s : State) : Host.Outcome State Fault Refusal :=
  .next <|
    if s.memoryUp = false ∨ s.mem.trained.getLsbD ch.val = false then s
    else
      let s := match s.mem.dqsAt[ch] with
        | some t => (s.at_ (t + 64 * Config.ms)).wake
        | none => s.wake
      s.modMem fun m => { m with
        dqs := upd m.dqs ch fun _ => count, dqsAt := upd m.dqsAt ch fun _ => some s.now
        writeDelay := upd m.writeDelay ch (Config.writeDqDelay ch.val count) }

/-! ## Scrubs (R505 to R508) -/

/-- SRAM_SCRUB: the next word of the continuous pass, which skips no region; a corrected one is counted, and so are the words that other
reads have corrected since the last one (R505, R506; how those come to the model: DESIGN CHOICE, log 147). -/
def execSramScrub (corrected : SramFound) (s : State) : Host.Outcome State Fault Refusal :=
  .next <|
    if s.memoryUp = false then s
    else
      let s := s.modMem fun m => { m with sramPos := (m.sramPos + 1) % sramWords }
      s.each (List.replicate (corrected.elsewhere + bit corrected.here) ()) fun _ s => s.noteCorrected false 0

/-- The patrol goes to its next granule; at the end of a pass the counts of pages and the interval begin anew (R507, R508). -/
def Mem.nextGranule (hours : Nat) (m : Mem) : Mem :=
  if m.dramPos + 1 < m.granules then { m with dramPos := m.dramPos + 1, passPct := (m.dramPos + 1) * 100 / m.granules }
  else { m with dramPos := 0, passPct := 0, pageCe := [], scrubHours := hours }

/-- DRAM_SCRUB: the next granule of the pass is read, and a corrected word written back; the patrol stops in self-refresh (R505, R507).
`elsewhere` are the pages of the words that other reads have corrected since the last one (log 147). -/
def execDramScrub (corrected : DramFound) (s : State) : Host.Outcome State Fault Refusal :=
  .next <|
    if s.memoryUp = false ∨ s.mem.selfRefresh = true then s
    else
      let s := s.each corrected.elsewhere fun p s => s.noteCorrected true p
      if s.mem.patrol = false then s
      else
        let s := s.dramAccess (256 * s.mem.dramPos) corrected.here
        let s := s.when corrected.here (State.noteCorrected true (s.mem.dramPos / 16))
        s.modMem (Mem.nextGranule s.nor.config.scrubHours)

/-- PAGE_RETIRE: a page corrected 16 times in one pass; in the write buffer or the peer mirror once its contents have gone (R508). -/
def execPageRetire (page : Nat) (s : State) : Host.Outcome State Fault Refusal :=
  .next <|
    if (s.mem.pageCe.any fun q => q.1 == page && decide (16 ≤ q.2)) = false then s
    else if s.mayRetire page then s.retirePage page
    else s.modMem fun m => { m with retireDue := if m.retireDue.contains page then m.retireDue else m.retireDue ++ [page] }

/-! ## Uncorrectable errors (R509, R510, Table 13-5) -/

/-- Blocks go to the lost-block list, which degrades the reliability of the subsystem (R510). -/
def State.listLost (l : List (Nat × Nat)) (s : State) : State :=
  let new := l.filter fun q => !s.names.lost.contains q
  (s.modNames fun n => { n with lost := n.lost ++ new }).modBoot fun b => { b with degraded := b.degraded || l != [] }

/-- A dirty block is lost: it leaves the buffer, and commands that wait for it to be on media end with Write Fault (DEDUCED from
spec/12 Table 12-3, log 61). -/
def State.loseDirty (ns lba : Nat) (s : State) : State :=
  let stored := s.names.buffer.any fun d => d.ns == ns && d.lba == lba && d.stored
  let s := (s.modNames fun n => { n with buffer := n.buffer.filter fun d => !(d.ns == ns && d.lba == lba) }).listLost
    (if stored then [] else [(ns, lba)])
  let waits := (s.ctxs.filter fun x => x.stage == .waiting && (match x.wait with
    | .media l => l.any fun q => q.1 == ns && q.2.1 == lba
    | _ => false)).map Ctx.id
  (s.each waits fun c s => s.complete c { Cpl.err 0x2 0x80 with errLba := lba }).bufferChanged

/-- The blocks of a map page. -/
def State.pageBlocks (s : State) (ns page : Nat) : List (Nat × Nat) :=
  let size := match s.ns? ns with
    | some x => x.nsze
    | none => 0
  ((List.range 512).filter fun i => decide (512 * page + i < size)).map fun i => (ns, 512 * page + i)

/-- The peer holds a mirror of all that is dirty here. -/
def State.hasPeerCopy (s : State) : Bool := s.pair.st == .paired

/-- A dirty map page, or a dirty line of one. -/
def State.loseMapPage (ns page : Nat) (s : State) : State := if s.hasPeerCopy then s else s.listLost (s.pageBlocks ns page)

/-- A capture is discarded and its sector read again under spec/07 R271. -/
def State.dropCapture (e : EngId) (i : Nat) (s : State) : State :=
  match (s.eng e).slots[i]? with
  | none => s
  | some k =>
    let busy := (fins 24).filter fun g => (s.eng g).work == some (e, i)
    let s := s.each busy fun g s => s.modEng g fun x => { x with work := none }
    (s.captureFailed e i k).each busy State.afterStep

/-- The sectors of a read that lie in the read spill of DRAM, or in transfer staging, are discarded and read again from media (spec/06
R239). -/
def State.dropSpill (c : Nat) (dram : Bool) (s : State) : State :=
  let gone := s.chorus.staging.filter fun d => d.ctx == some c && d.spilled == dram
  let s := s.modChorus fun k => { k with staging := k.staging.filter fun d => !gone.contains d }
  (s.each gone fun d s =>
    let again : Descriptor := { write := false, head := d.head, track := d.track, zone := s.zoneOfTrack (portOf d.act) d.track
                                first := d.sector, count := 1, cls := 0, ctx := some c, data := [] }
    (s.modSeq d.act fun q => { q with queue := q.queue ++ [again] }).noteRequest d.act).modCtx c fun x => { x with spilled := x.spilled && !dram }

/-- A source run of a stripe under work is read again, and those after it (spec/09 R357). -/
def State.rereadRun (g i run : Nat) (s : State) : State :=
  let again (w : Work) : Work := { w with runs := w.runs.filter fun n => decide (n < run) }
  s.modProt fun p => { p with works := mapWhere (fun w => w.group == g && w.stripe == i) again p.works }

/-- A block of a port's sample FIFO is discarded as a lost one is: a sequence error, and the rest of the data gates in progress
(spec/03 R98; the error names no stream, log 62). -/
def State.dropSample (p : PortId) (s : State) : State :=
  (s.seqError p).modPort p fun x => { x with data0 := { x.data0 with discard := true }, data1 := { x.data1 with discard := true } }

/-- A command whose context is hit completes with Internal Error; an Asynchronous Event Request stands no longer. -/
def State.contextHit (c : Nat) (s : State) : State :=
  let drop (x : HostFn) : HostFn := { x with aers := x.aers.filter fun y => y != c }
  (({ s with fa := drop s.fa, fb := drop s.fb }).complete c Cpl.internal).bufferChanged

/-- A map-cache line is hit: a clean one is invalidated, to be filled again; a dirty one is as a dirty map page. -/
def State.lineHit (set : Fin 4096) (way : Fin 16) (s : State) : State :=
  match (s.mcache.set set).ways.find? fun w => w.1 == way with
  | none => s
  | some (_, l) =>
    if l.dirty ∧ s.hasPeerCopy then s
    else
      let page := s.names.pagesIn.find? fun q =>
        let base := (s.mapAreaBase + 4096 * q.2.2) / 128
        decide (base ≤ l.tag) && decide (l.tag < base + 32)
      let s := s.modCache (MapCache.modSet set fun x => { x with ways := x.ways.filter fun w => w.1 != way })
      match l.dirty, page with
      | true, some q => s.loseMapPage q.1 q.2.1
      | _, _ => s

/-- The row of Table 13-5, from 1 (spec/17 R605); 0 for an engine's sample window, which that table does not list (DESIGN CHOICE, log
103). -/
def regionRow : MemRegion → Nat
  | .writeBuffer _ _ => 1
  | .mapJournal _ _ => 2
  | .mapPageClean _ _ => 3
  | .mapPageDirty _ _ => 4
  | .mapDirectory _ _ => 5
  | .tables => 6
  | .calibration _ => 6
  | .captureSlot _ _ => 7
  | .rebuildRuns _ _ _ => 8
  | .readSpill _ => 9
  | .firmwareData => 10
  | .commandContext _ => 11
  | .linkFifo _ => 12
  | .servoTables _ => 13
  | .recorder _ => 14
  | .mapCacheLine _ _ => 15
  | .patchMemory _ => 16
  | .sampleWindow _ => 0
  | .narrowWrite r => regionRow r

/-- An address, of DRAM or SRAM, lies where what the error hits lies (Tables 13-3 and 13-4). -/
def Mem.holds (m : Mem) (dram : Bool) (addr : Nat) : MemRegion → Bool
  | .writeBuffer _ _ => dram && m.within .writeBuffer addr
  | .mapJournal _ _ => dram && m.within .writeBuffer addr
  | .mapPageClean _ _ => dram && m.within .mapPages addr
  | .mapPageDirty _ _ => dram && m.within .mapPages addr
  | .mapDirectory _ _ => dram && m.within .directory addr
  | .tables => dram && m.within .tables addr
  | .calibration _ => dram && m.within .calibration addr
  | .captureSlot _ _ => dram && m.within .captures addr
  | .rebuildRuns _ _ _ => dram && m.within .rebuild addr
  | .readSpill _ => if dram then m.within .spill addr else sramWithin .staging addr
  | .firmwareData => if dram then m.within .firmware addr else sramWithin .firmware addr
  | .commandContext _ => !dram && sramWithin .contexts addr
  | .linkFifo _ => !dram && sramWithin .sampleFifos addr
  | .servoTables _ => !dram && sramWithin .servoTables addr
  | .recorder _ => !dram && sramWithin .recorder addr
  | .mapCacheLine _ _ => !dram && sramWithin .mapCache addr
  | .patchMemory _ => !dram && sramWithin .patchMemory addr
  | .sampleWindow _ => !dram && sramWithin .captureBuffers addr
  | .narrowWrite r => m.holds dram addr r

/-- Placement and group tables are read again from the system bands, each of which a valid copy is found. -/
def State.reloadTables (s : State) : State :=
  let p := s.prot.load s.hdasGone
  let found (k : Fin 5) : Bool := (s.prot.newest s.hdasGone k).isSome
  s.modProt fun q => { q with
    members := if found 0 && found 3 then p.members else q.members
    groups := if found 1 then p.groups else q.groups, excs := if found 2 then p.excs else q.excs }

/-- The directory entries of a line of 16 are read again from their page on media; those of a page that is not yet on media come from
what was recorded since (spec/10 R389). -/
def State.reloadDirLine (ns page : Nat) (s : State) : State :=
  match (s.ns? ns).bind s.readDir with
  | none => s
  | some l =>
    let hit (p : Nat) : Bool := p / 16 == page / 16 && !s.names.dirsDirty.contains (ns, p / 512)
    s.modNames fun n => { n with
      mapDir := n.mapDir.filter (fun q => !(q.1 == ns && hit q.2.1)) ++ (l.filter fun q => hit q.1).map fun q => (ns, q) }

/-- The outcome of Table 13-5; an engine faults by its sample window (spec/07 R281), and a narrow write that is not performed is to
its writer as a read of that word (R504). -/
def State.regionOutcome (dram : Bool) (s : State) : MemRegion → State
  | .writeBuffer ns lba => if s.hasPeerCopy then s else s.loseDirty ns lba
  | .mapJournal ns lba =>
    if s.hasPeerCopy then s
    else (s.modNames fun n => { n with journal := n.journal.filter fun m => !(m.ns == ns && m.lba == lba) }).listLost [(ns, lba)]
  | .mapPageClean ns page => s.modNames fun n => { n with pagesIn := n.pagesIn.filter fun q => !(q.1 == ns && q.2.1 == page) }
  | .mapPageDirty ns page => s.loseMapPage ns page
  | .mapDirectory ns page => s.reloadDirLine ns page
  | .tables => s.reloadTables
  | .calibration a => s.loadCalibration a
  | .captureSlot e i => s.dropCapture e i
  | .rebuildRuns g i run => s.rereadRun g i run
  | .readSpill c => s.dropSpill c dram
  | .firmwareData => s.modAon fun a => { a with dogStopped := true }
  | .commandContext c => s.contextHit c
  | .linkFifo p => s.dropSample p
  | .servoTables p => (s.portReset p).settle
  | .recorder seq =>
    let bad (x : Record) : Record := { x with valid := false }
    s.modBook fun b => { b with ring := mapWhere (fun x => x.seq == seq) bad b.ring }
  | .mapCacheLine set way => s.lineHit set way
  | .patchMemory a => s.seqFault a 5
  | .sampleWindow e => s.engineFaults e
  | .narrowWrite r => s.regionOutcome dram r

/-- An uncorrectable error is counted, its address kept, and its event recorded with address, source and region (R510; spec/17
R605). -/
def State.noteUncorrectable (dram : Bool) (addr row : Nat) (s : State) : State :=
  let s := s.modMem fun m => { m with
    errAddr := BitVec.ofNat 38 addr, errSource := if dram then 1 else 2
    dramUe := if dram then sat32 m.dramUe 1 else m.dramUe, sramUe := if dram then m.sramUe else sat32 m.sramUe 1 }
  s.raiseMem (if dram then 3 else 2) (pay [(8, addr), (1, if dram then 1 else 2), (1, row)])

/-- UNCORRECTABLE_ERROR: counted and recorded, then handled by region; DMA channels that had halted are restarted after it (R509,
R510). An address that does not lie in the region is no such error. -/
def execUncorrectableError (r : MemRegion) (dram : Bool) (addr : Nat) (s : State) : Host.Outcome State Fault Refusal :=
  .next <|
    if s.memoryUp = false ∨ s.mem.holds dram addr r = false then s
    else (State.regionOutcome dram (s.noteUncorrectable dram addr (regionRow r)) r).modMem fun m => { m with halted := [] }

/-- A page of the firmware region, read from the running slot in SPI NOR, has the digest recorded when the image was measured. -/
def State.pageReloads (s : State) (page : Nat) : Bool :=
  let img := s.nor.slotOf s.aon.slot
  !s.aon.recovery && (match s.ident.pages[page]? with
    | some d => decide (digest (pageOf (sectionBytes img 20 ++ sectionBytes img 28) page) = d)
    | none => false)

/-- INSTRUCTION_FETCH_TRAP: Nuhalith reloads the page and checks it, and the processor resumes; a failed reload, or the same page
again within 1 s, makes firmware stop servicing the watchdog (R509; spec/16 R572). -/
def execInstructionFetchTrap (page : Nat) (ok : Bool) (s : State) : Host.Outcome State Fault Refusal :=
  .next <|
    if s.memoryUp = false ∨ 2048 ≤ page then s
    else
      let s := s.noteUncorrectable false ((sramUse .firmware).1 + 4096 * page) 10
      let recent := s.ident.traps.filter fun q => decide (s.now < q.2 + Config.sec)
      let again := recent.any fun q => q.1 == page
      let good := ok && s.pageReloads page && !again
      let s := s.modIdent fun i => { i with traps := (page, s.now) :: recent }
      s.when (!good) (State.modAon fun a => { a with dogStopped := true })

/-- The request that a halted channel was serving ends with an error: a command of a port's channel with Internal Error, a source run of
the stripe engine is read again, the staging of the SPI NOR channel ends failed (spec/16 R594), and the write operation of an encoder
ends as spec/07 R276 states. What the Wings channel and Nuhalith carry is their own commands' (DEDUCED, log 77). -/
def State.endDma (ch : Byte) (req : DmaReq) (s : State) : State :=
  if 0x20 ≤ ch.toNat ∧ ch.toNat ≤ 0x5F then s.encoderStop (Fin.ofNat 64 (ch.toNat - 0x20))
  else if ch = 0x04 then s.each ((s.running 6).map LongOp.handle) fun h s => s.endOp h .failed Cpl.internal.status
  else match req with
    | .command c =>
      if (s.ctx? c).any fun x => x.origin == .host .a && ch == 0x00 || x.origin == .host .b && ch == 0x01 then s.contextHit c else s
    | .run g i run => if ch = 0x02 then s.rereadRun g i run else s
    | .other => s

/-- DMA_HALT: the channel and the address are recorded, the request it was serving ends with an error, and the channel stands until the
region has been handled (R509). -/
def execDmaHalt (ch : Byte) (addr : Nat) (sram : HaltedAt) (s : State) : Host.Outcome State Fault Refusal :=
  .next <|
    if s.memoryUp = false then s
    else
      let s := (s.modMem fun m => { m with
        dmaHalts := satAdd 65535 m.dmaHalts 1, dmaChannel := ch, halted := if m.halted.contains ch then m.halted else m.halted ++ [ch]
        errAddr := BitVec.ofNat 38 addr, errSource := if sram.sram then 2 else 1 }).raiseMem 4 []
      s.endDma ch sram.req

/-- STAGING_ERROR: an uncorrectable error in the staged data of a write stops its encoder; it is counted and recorded with its address
(spec/07 R276; R510). Table 13-5 has no row for it (log 103). -/
def execStagingError (a : StagingSite) (s : State) : Host.Outcome State Fault Refusal :=
  .next <|
    if (s.pool a.act).enc = 1 ∧ sramWithin .staging a.addr = true then (s.noteUncorrectable false a.addr 0).encoderStop a.act else s

end Sys2Proof.Machine
end

