-- ==== Sys2Proof/Machine/Crossing.lean ====
section
/-! DEFINITION. Family Crossing, registers: accesses to the status window by a host port or the service port, _LO and _HI pairs, RC
fields, and accesses that hang on a stopped clock (spec/14 R523 to R535; spec/11 R409; spec/19 R678). -/

namespace Sys2Proof.Machine

/-! ## Who can reach the window -/

/-- A register of the always-on domain that needs no firmware: THERM and BOOT (spec/19 Table 19-8). -/
def alwaysOn (off : Nat) : Bool := match regAt off with
  | .therm _ => true
  | .boot _ => true
  | _ => false

/-- An access arrives at the window: a host's once its function answers configuration requests, in D0 and out of reset (spec/02 R85;
spec/11 R443); the service port's with firmware running, or at THERM and BOOT (spec/19 Table 19-8). -/
def State.canAccess (s : State) (q : Req) (off : Nat) : Bool :=
  let host (f : Fn) : Bool := s.crosses f && (s.fn f).cfgReady && !(s.fn f).d3hot
  match q with
  | .portA => host .a
  | .portB => host .b
  | .service => alwaysOn off || (s.aon.hold == .running && s.boot.released)

/-! ## One register -/

/-- The _LO registers of the window; each _HI lies 4 above (spec/14 R525): IDENT_LOT and IDENT_BOOT, REC_NEWEST, REC_OLDEST, REC_NOR
and REC_CLEAR, PORT_TOKEN, PAIR_EPOCH, MEM_ERR_ADDR. -/
def isLo (off : Nat) : Bool :=
  [0x0000, 0x0010, 0x2008, 0x2010, 0x2018, 0x2020, 0x6004, 0x6810].contains off ||
    (match regAt off with
    | .port _ o => o == 0x10
    | _ => false)

/-- The link-domain port whose clock a register needs and does not have: the clock is absent, its joint reset is held, or its
crossing is stale and discards the snapshot (spec/14 R532, R534, R536). -/
def State.stopped (s : State) (off : Nat) : Option PortId := match regAt off with
  | .port p o =>
    if inLinkDomain o && (!s.clockRuns (.recovered p) || (s.port p).joint || s.isStale (.port p)) then some p else none
  | _ => none

/-- A completed read of one register: a _LO captures its _HI for the requester, a _HI gives what was captured, once, and an RC field
is cleared of the count returned (spec/14 R524, R525). -/
def State.readReg (q : Req) (off : Nat) (s : State) : State × W32 :=
  let off := off / 4 * 4
  match s.xing.captured.find? fun c => c.1 == q && c.2.1 == off with
  | some c => (s.modXing fun x => { x with captured := x.captured.filter fun c => !(c.1 == q && c.2.1 == off) }, c.2.2)
  | none =>
    let v := s.regWord (regAt off)
    let s := s.when (isLo off) fun s => s.modXing fun x => { x with
      captured := (q, off + 4, s.regWord (regAt (off + 4))) :: x.captured.filter fun c => !(c.1 == q && c.2.1 == off + 4) }
    (s.clearRc (regAt off), v)

/-- Words read in ascending order, as bytes; the counters of a port whose joint reset ends with the read give 0, and are not cleared
(spec/14 R534). -/
def State.readRun (q : Req) (zero : Option PortId) : List Nat → State → State × List Byte
  | [], s => (s, [])
  | off :: rest, s =>
    let zeroed := match regAt off, zero with
      | .port p o, some z => p == z && inLinkDomain o
      | _, _ => false
    let r := if zeroed then (s, (0 : W32)) else s.readReg q off
    let t := State.readRun q zero rest r.1
    (t.1, leBytes 4 r.2.toNat ++ t.2)

/-- The registers that n bytes from an offset cover. -/
def covered (off n : Nat) : List Nat := (List.range (ceilDiv n 4)).map fun i => off + 4 * i

/-! ## Accesses (R532) -/

/-- The registers of an access. -/
def Hung.regs (h : Hung) : List Nat := match h.packet with
  | some (_, n) => covered h.off n
  | none => [h.off]

/-- An access is carried out: a write clears RW1C fields, a read answers its requester; a service packet is replied to. -/
def State.perform (zero : Option PortId) (h : Hung) (s : State) : State :=
  match h.write, h.packet with
  | some v, some (tag, _) => ((s.writeReg (regAt h.off) v).modSvc fun v => { v with busy := none, endedAt := s.now }).emitOut (.reply 0x02 tag 0x00 [])
  | some v, none => s.writeReg (regAt h.off) v
  | none, some (tag, _) =>
    let r := s.readRun h.who zero h.regs
    (r.1.modSvc fun v => { v with busy := none, endedAt := s.now }).emitOut (.reply 0x01 tag 0x00 r.2)
  | none, none =>
    let r := s.readRun h.who zero h.regs
    r.1.emitOut (.value h.who h.off (BitVec.ofNat 32 (ofLe r.2)))

/-- An access to the window: it waits behind a hung one of its requester, hangs on a stopped clock, or is carried out (R532). -/
def State.access (zero : Option PortId) (h : Hung) (s : State) : State :=
  if s.xing.hung.any fun g => g.who == h.who then s.modXing fun x => { x with behind := x.behind ++ [h] }
  else if h.regs.any fun o => (s.stopped o).isSome then s.modXing fun x => { x with hung := x.hung ++ [h] }
  else s.perform zero h

/-- A port's link domain is back: accesses that hung on it complete unless another stopped clock holds them, and those that waited
behind them follow in order; the counters that a joint reset has cleared read 0 (R532, R534). -/
def State.endHung (p : PortId) (zero : Bool) (s : State) : State :=
  let mine (h : Hung) : Bool := h.regs.any fun o => match regAt o with
    | .port r i => r == p && inLinkDomain i
    | _ => false
  let done := s.xing.hung.filter mine
  let waits := s.xing.behind.filter fun b => done.any fun h => h.who == b.who
  let s := s.modXing fun x => { x with
    hung := x.hung.filter fun h => !mine h
    behind := x.behind.filter fun b => !(done.any fun h => h.who == b.who) }
  (s.each done (State.access (if zero then some p else none))).each waits (State.access none)

/-- An access that a stale PCIe crossing discards (R536). -/
def State.lostAccess (q : Req) (s : State) : State := match q with
  | .portA => s.lostWord .a
  | .portB => s.lostWord .b
  | .service => s

/-- One register read by a requester that can reach it. -/
def State.readOne (q : Req) (off : Nat) (s : State) : State :=
  if s.canAccess q off then s.access none { who := q, off := off, write := none, packet := none } else s.lostAccess q

/-! ## Commands -/

/-- CLOCK_PRESENT_SET: after 64 toggles in a row (R531); accesses that hung on the clock end where no joint reset holds them (R532). -/
def execClockPresentSet (p : PortId) (toggles : Nat) (s : State) : Host.Outcome State Fault Refusal :=
  .next <|
    if 64 ≤ toggles ∧ (s.port p).train ≠ 0xC then
      let s := s.modPort p fun x => { x with clock := true }
      s.when (!(s.port p).joint && !s.isStale (.port p)) (State.endHung p false)
    else s

/-- JOINT_RESET_RELEASE: clock_present is set again and both halves leave reset together; the port's stale bit clears (R535, R536),
and accesses that hung on it end. -/
def execJointResetRelease (p : PortId) (s : State) : Host.Outcome State Fault Refusal :=
  .next <|
    if (s.port p).joint ∧ (s.port p).clock then
      ((s.modPort p fun x => { x with joint := false }).modXing fun x =>
        { x with stalePort := clearBit x.stalePort p.val }).endHung p true
    else s

/-- RC_REGISTER_READ: a completed read clears the field of the count that it returns (R523, R524); a count behind a stopped clock
hangs (R532). -/
def execRcRegisterRead (q : Req) (off : Nat) (s : State) : Host.Outcome State Fault Refusal := .next <| s.readOne q off

/-- LO_REGISTER_READ: the _HI register's value is captured for the requester (R525). -/
def execLoRegisterRead (q : Req) (off : Nat) (s : State) : Host.Outcome State Fault Refusal := .next <| s.readOne q off

/-- HI_REGISTER_READ: the captured value after a _LO read, else the current one (R525). -/
def execHiRegisterRead (q : Req) (off : Nat) (s : State) : Host.Outcome State Fault Refusal := .next <| s.readOne q off

/-- STATUS_WINDOW_WRITE: RW1C bits written as 1 are cleared; anything else is ignored (spec/11 R409). -/
def execStatusWindowWrite (q : Req) (off : Nat) (v : W32) (s : State) : Host.Outcome State Fault Refusal :=
  .next <| if s.canAccess q off then s.access none { who := q, off := off, write := some v, packet := none } else s.lostAccess q

end Sys2Proof.Machine
end

