-- ==== Sys2Proof/Machine/Wings.lean ====
section
/-! DEFINITION. Family Wings, the link and the pair: training and resets of the Wings link, HELLO and HEARTBEAT, contention, and how
a controller becomes paired, solo or stood down (spec/18 R620 to R652; spec/03 R124, R131; spec/20 R700). -/

namespace Sys2Proof.Machine

/-! ## Events, roles and ANA (R630, Table 18-2) -/

/-- An event of the pair (R659). -/
def State.raisePair (n : Nat) (s : State) : State :=
  (s.modPair fun p => { p with events := setBit p.events n }).emit 0x0E n noSource []

/-- The heartbeat period in force: the larger of both controllers' values (R644). -/
def Pair.hb (p : Pair) : Nat := max p.hbMs p.peerHeartbeatMs * Config.ms

/-- ANA state of a group by pair state (Table 18-2). -/
def State.anaTable (s : State) (group2 : Bool) : AnaState :=
  match s.pair.st with
  | .single => if group2 then .inaccessible else .optimized
  | .paired => if s.servesGroup group2 then .optimized else .nonOptimized
  | .solo => .optimized
  | .contending => .change
  | _ => .inaccessible

/-- The groups' states on both functions. -/
def State.setAnas (f : Bool → AnaState) (s : State) : State :=
  s.each [false, true] fun g s => (s.setAna .a g (f g)).setAna .b g (f g)

def State.followAna (s : State) : State := s.setAnas s.anaTable

/-- Asymmetric Access Inaccessible and Asymmetric Access Transition (spec/12 Table 12-3). -/
def Cpl.inaccessible : Cpl := Cpl.err 0x3 0x02
def Cpl.transition : Cpl := Cpl.err 0x3 0x03

/-! ## Epochs and tokens (spec/03 R124, R131) -/

/-- The epoch one above another; none beyond the largest. -/
def nextEpoch (n : Nat) : Option (BitVec 63) := if n + 1 < 2 ^ 63 then some (BitVec.ofNat 63 (n + 1)) else none

/-- Ports whose presence is asserted and whose command lane runs. -/
def State.livePorts (s : State) : List PortId := (fins 32).filter fun p => s.pins.prsnt.getLsbD p.val && (s.port p).cmdUp

/-- The pair epoch is presented on the trained ports that this controller owns (spec/03 R131). -/
def State.presentOwned (s : State) : State :=
  s.each (s.livePorts.filter fun p => s.pair.own.getLsbD p.val && inRange 7 9 (s.port p).train.val) fun p s => s.present p s.pairToken

/-- A companion counts as having refused the token that would be presented (spec/03 R124); PORT_EVENTS.fenced then rises for a trained
port and not in training state 7 (DESIGN CHOICE, log 148). -/
def State.refuse (p : PortId) (s : State) : State :=
  if (s.port p).train = 7 then s.trainFails p 6 else s.raisePort p 2

/-- A token presented to a companion that is known to obey it: the port asks for a start slot (R651). -/
def State.gain (p : PortId) (s : State) : State :=
  (((s.present p s.pairToken).modPort p fun x => { x with obeyed := inRange 8 9 x.train.val }).modSpin p fun v =>
    { v with wantSlot := v.wantSlot || (!v.refused && (s.port p).persVerified && v.st == .stopped) }).noteService p

/-! ## Messages -/

/-- HELLO: side, pair_mode, state, boot counter, device identity, pair identity, highest epoch, dirty_limit, heartbeat_ms, highest
msg_seq received. -/
def State.sendHello (s : State) : State :=
  let p := s.pair
  s.sendWings 0x01 [bit p.side, bit p.mode, pairCode p.st, s.ident.bootCounter.toNat, Config.deviceIdentity.toNat,
    s.nor.config.pairId.toNat, p.highest.toNat, s.names.dirtyLimitMib, p.heartbeatMs, p.rxMsg.toNat] []

/-- Groups served: bit 0 group 1, bit 1 group 2. -/
def State.groupsServed (s : State) : Nat := bit (s.servesGroup false) + 2 * bit (s.servesGroup true)

/-- HEARTBEAT: state, epoch, owned ports, groups served, dirty bytes. -/
def State.sendHeartbeat (s : State) : State :=
  let p := s.pair
  s.sendWings 0x02 [pairCode p.st, p.epoch.toNat, p.own.toNat, s.groupsServed, s.dirtyBytes] []

/-- A Wings message takes effect once, with Wings up: one whose msg_seq has been applied is discarded, but what it calls for as an
answer is given again (R637). -/
def State.wingsMsg (seq : W32) (again k : State → State) (s : State) : State :=
  if s.pair.mode = false ∨ s.pair.wings ≠ 2 then s
  else if s.isStale .wings then s.discard
  else if earlier s.pair.rxMsg seq then k (s.modPair fun p => { p with rxMsg := seq })
  else again s

/-- ACK: the highest msg_seq written into DRAM. -/
def State.sendAck (s : State) : State := s.sendWings 0x05 [s.pair.rxMsg.toNat] []

/-! ## The link (R636, R638 to R640) -/

/-- A Wings link reset: both directions and their crossings reset together and retrain (R639; spec/14 R537). -/
def State.wingsReset (s : State) : State :=
  if s.pair.mode = false then s
  else if s.pair.wings = 0 ∨ s.pair.wings = 3 then s.modXing fun x => { x with staleOther := clearBit x.staleOther 2 }
  else
    let up := s.pair.wings == 2
    let s := s.modPair fun p => { p with wings := 3, resets := satAdd 65535 p.resets 1, rxSeq := 0, retryAt := none, uncorrAt := [], trainAt := none }
    let s := s.modXing fun x => { x with staleOther := clearBit x.staleOther 2 }
    s.when up (State.raisePair 0)

/-- WINGS_LINK_RESET (R639). -/
def execWingsLinkReset (s : State) : Host.Outcome State Fault Refusal := .next <| s.wingsReset

/-- RETRY_UNANSWERED: a RETRY has waited for 100 µs (R639). -/
def execRetryUnanswered (s : State) : Host.Outcome State Fault Refusal :=
  .next <|
    match s.pair.retryAt with
    | some t => (s.at_ (t + 100 * Config.us)).wingsReset
    | none => s

/-- WINGS_TRAINING: an attempt passes states 2 to 5 and the HELLO goes out, or fails; the next one begins 1 s after it (R638). -/
def execWingsTraining (ok : Bool) (s : State) : Host.Outcome State Fault Refusal :=
  .next <|
    if s.pair.mode = false ∨ s.boot.released = false ∨ s.pair.wings = 2 then s
    else
      let s := match s.pair.trainAt with
        | some t => s.at_ (t + Config.sec)
        | none => s
      let s := s.modPair fun p => { p with trainAt := some s.now }
      if ok then (s.modPair fun p => { p with wings := 1, rxSeq := 0 }).sendHello else s.modPair fun p => { p with wings := 0 }

/-- The attempt under way has not ended with a HELLO exchange within 10 ms, so it has failed (R638). -/
def State.helloLate (s : State) : Bool := s.pair.wings == 1 && s.pair.trainAt.any fun t => decide (t + 10 * Config.ms < s.now)

/-- RETRY is sent, naming the first block missing (R636). -/
def State.sendRetry (s : State) : State :=
  (s.modPair fun p => { p with retryAt := some (p.retryAt.getD s.now) }).sendWings 0x0A [s.pair.rxSeq.toNat] []

/-- WINGS_BLOCK_RECEIVED: `errors` are the byte errors of the block's codewords, `fill` says an idle or alignment block. A block
beyond four errors in a codeword is discarded, and four such within 1 s reset the link; a seq gap asks for a retry (R634, R636,
R639). -/
def execWingsBlockReceived (seq : BitVec 13) (errors : List Nat) (fill : Bool) (s : State) : Host.Outcome State Fault Refusal :=
  .next <|
    if s.pair.mode = false ∨ (s.pair.wings ≠ 1 ∧ s.pair.wings ≠ 2) then s
    else if s.isStale .wings then s.discard
    else if errors.any fun n => decide (4 < n) then
      let l := s.now :: recent s.now Config.sec s.pair.uncorrAt
      let s := s.modPair fun p => { p with uncorr := sat32 p.uncorr 1, uncorrAt := l }
      if 4 ≤ l.length then s.wingsReset else if fill then s else s.sendRetry
    else
      let s := s.when (errors.any fun n => n != 0) (State.modPair fun p => { p with corr := sat32 p.corr 1 })
      if fill then s
      else if seq = s.pair.rxSeq then s.modPair fun p => { p with rxSeq := p.rxSeq + 1, retryAt := none }
      else s.sendRetry

/-- RETRY: the sender sends again from the named block, of the last 4,096 that it keeps (R636). -/
def execRetry (block : BitVec 13) (s : State) : Host.Outcome State Fault Refusal :=
  .next <| if s.pair.mode = true ∧ s.pair.wings ≠ 0 then s.emitOut (.resend block) else s

/-! ## Work that ends with a pair state -/

/-- A controller's handover, its taking of ports and its SYNC are abandoned; a Pair Control command that waits for one ends with
Command Sequence Error (R656; the status a DESIGN CHOICE, log 63). -/
def State.abandonPair (s : State) : State :=
  let s := s.modPair fun p => { p with handing := none, taking := none, syncing := false }
  s.each ((s.ctxs.filter fun x => x.stage == .waiting && (x.wait == .handover || x.wait == .rejoin)).map Ctx.id) fun c s =>
    s.complete c Cpl.seqError

/-- It contends (R645): both groups are in Change until it becomes solo or stands down (R630). -/
def State.startContend (s : State) : State :=
  if s.pair.st = .paired ∨ s.pair.st = .forming then
    (s.abandonPair.modPair fun p => { p with st := .contending }).followAna
  else s

/-- The event that counts writes of uncertain outcome; none is recorded when there are none (R659; log 63). -/
def State.uncertain (n : Nat) (s : State) : State := s.when (n != 0) (State.emit 0x0E 0x8003 noSource (pay [(4, n)]))

/-- What waits for the peer's acknowledgement goes on without it: writes complete, stripes are committed (R649: as a single
configuration for spec/01 R27). -/
def State.noPeer (s : State) : State :=
  let s := s.each (s.ctxs.filter fun x => x.stage == .waiting) fun x s =>
    match x.wait with
    | .mirror _ => s.completeWrite x.id
    | _ => s
  let s := s.each (s.prot.works.filter fun w => w.acks.isSome) fun w s => s.commitWork w
  match s.prot.checkAck with
  | some (n, _) => s.checkpointDone n
  | none => s

/-! ## Solo (R648 to R651) -/

def ZoneState.ofCode : Nat → ZoneState
  | 2 => .implicit
  | 3 => .explicit
  | 4 => .closed
  | 14 => .full
  | _ => .empty

/-- A map, directory or zone record of the peer takes effect (R649). -/
def State.applyRecord (r : JournalRec) (s : State) : State :=
  match r with
  | .map ns lba e => s.setMap ns lba e
  | .directory ns page place => s.modNames fun n => { n with
      mapDir := n.mapDir.filter (fun q => !(q.1 == ns && q.2.1 == page)) ++ [(ns, page, place)]
      dirsDirty := if n.dirsDirty.contains (ns, page / 512) then n.dirsDirty else n.dirsDirty ++ [(ns, page / 512)] }
  | .zone ns z code wp =>
    let st := ZoneState.ofCode code
    if st = .empty then s.modZone ns z fun _ => Zone.initial ns z
    else s.modZone ns z fun y => { y with st := st, recSt := st, wp := max y.wp wp, recWp := y.recWp }
  | _ => s

/-- A mirror of the peer becomes this controller's own dirty data; the zone's write pointer lies after it (R649). -/
def State.takeMirror (m : Mirror) (s : State) : State :=
  let s := s.modNames (Names.putCarried m.ns m.lba m.data)
  match s.ns? m.ns with
  | some n =>
    if n.zoned then
      let zb := zoneBlocks n.narrow
      let last := m.lba + m.data.length
      s.modZone m.ns (m.lba / zb) fun y => { y with
        wp := max y.wp (last - m.lba / zb * zb), st := if y.st = .empty then .implicit else y.st }
    else s
  | none => s

/-- The peer-mirror region is taken in the order of its messages, then the records apply (R649). -/
def State.takeMirrors (s : State) : State :=
  let ms := s.pair.mirrors
  let rs := s.pair.journal
  let s := s.modPair fun p => { p with mirrors := [], journal := [] }
  ((s.each ms State.takeMirror).each rs fun r s => s.applyRecord r.2).retireWaiting

/-- Commands that the peer had forwarded have no one to answer any more. -/
def State.orphan (s : State) : State :=
  { s with ctxs := s.ctxs.map fun x => match x.origin with
      | .peer _ _ _ => { x with origin := .gone }
      | _ => x }

/-- Work queued for the peer goes; work asked of the peer is this controller's own again (R626, R651). -/
def State.reclaimWork (s : State) : State :=
  let rs := s.pair.peerReqs
  let mine := s.pair.unanswered.filter fun m => m.type == 0x08
  let s := s.modPair fun p => { p with peerReqs := [], unanswered := [] }
  let s := s.each rs fun r s => s.modSeq r.act fun q => { q with queue := q.queue.filter fun d => d != r.d }
  s.each mine fun m s => match m.payload with
    | [_, a, w, cls, head, track, zone, first, count] =>
      s.modSeq (Fin.ofNat 64 a) fun q => { q with queue := q.queue ++
        [{ write := w == 1, head := Fin.ofNat 12 head, track := track, zone := Fin.ofNat 32 zone, first := first, count := count
           cls := Fin.ofNat 3 cls, ctx := m.ctx, data := m.data }] }
    | _ => s

/-- Commands forwarded to the peer and not answered end with Asymmetric Access Transition; writes among them are counted (R650). -/
def State.endForwarded (s : State) : State :=
  let l := s.ctxs.filter fun x => x.stage == .forwarded
  (s.each l fun x s => s.complete x.id Cpl.transition).uncertain (l.filter Ctx.update).length

/-- It becomes solo: it owns every port, serves both groups and is the coordinator, takes the peer's mirror as its own, and posts
no completion of a write for heartbeat_ms (R647 to R651, R625). -/
def State.becomeSolo (s : State) : State :=
  let gained := 0xFFFFFFFF ^^^ s.pair.own
  let last := s.pair.rxMsg
  let s := (s.modPair fun p => { p with
    st := .solo, settling := true, settleAt := s.now, own := 0xFFFFFFFF, peerOwn := 0, coordinator := true, servesOther := true
    handing := none, taking := none, syncing := false, takeovers := satAdd 255 p.takeovers 1 }).raisePair 3
  let s := s.emit 0x0E 0x8001 noSource (pay [(8, s.pair.epoch.toNat), (4, gained.toNat), (4, last.toNat)])
  let s := s.when (s.nor.config.pairId == 0) (State.modCfg fun c => { c with pairId := Config.deviceIdentity })
  let s := s.takeMirrors.orphan.endForwarded.reclaimWork.noPeer.takeRebuild
  s.bufferChanged.followAna.settle

/-- SETTLING_END: heartbeat_ms after it became solo, the withheld completions are posted (R648). -/
def execSettlingEnd (s : State) : Host.Outcome State Fault Refusal :=
  .next <|
    if s.pair.settling = false then s
    else
      let s := s.at_ (s.pair.settleAt + s.pair.hb)
      let l := s.pair.withheld
      let s := s.modPair fun p => { p with settling := false, withheld := [] }
      s.each l fun c s => match s.ctx? c with
        | some x => s.complete c x.writeCpl
        | none => s

/-! ## Standing down (R652) -/

/-- Media work, the dirty buffer and the peer-mirror region go. -/
def State.dropAll (s : State) : State :=
  let s := s.each (fins 64) fun a s => s.endWork a
  let s := s.each ((fins 32).filter fun p => (s.port p).obeyed) fun p s => s.dropPort p
  let s := (s.modNames Names.dropDirty).modProt (Prot.releaseWorks fun _ => true)
  s.modPair fun p => { p with mirrors := [], journal := [], peerReqs := [], unanswered := [] }

/-- Every admitted command that has not completed ends with Asymmetric Access Inaccessible; writes among them are counted. -/
def State.endAdmitted (s : State) : State :=
  let l := s.ctxs.filter fun x => x.stage != .fetched && x.stage != .decided
  (s.each l fun x s => s.complete x.id Cpl.inaccessible).uncertain (l.filter Ctx.update).length

/-- It stands down; reason 0 a token of the peer seen, 1 a FENCE refused, 2 FENCED; and the highest token seen. -/
def State.standDown (reason token : Nat) (s : State) : State :=
  let s := (s.modPair fun p => { p with
    st := .stoodDown, settling := false, withheld := [], coordinator := false, servesOther := false }).raisePair 4
  let s := s.emit 0x0E 0x8002 noSource (pay [(1, reason), (8, token)])
  let s := (s.dropAll.modPair fun p => { p with own := 0, handing := none, taking := none, syncing := false }).followAna
  s.endAdmitted.orphan.noteClean.settle

/-! ## Contention (R645, R646) -/

/-- PEER_NOT_ALIVE: heartbeat_ms without a HEARTBEAT; a paired Stage Left contends at once, a paired Stage Right after a further
half of it, which is this command's second occurrence (R644, R645). -/
def execPeerNotAlive (s : State) : Host.Outcome State Fault Refusal :=
  .next <|
    if s.pair.mode = false then s
    else match s.pair.peerLostAt, s.pair.lastHb with
      | some t, _ =>
        if s.pair.st = .paired ∧ s.pair.side = true then (s.at_ (t + s.pair.hb / 2)).startContend else s
      | none, some t =>
        if s.pair.peerAlive = false then s
        else
          let s := s.at_ (t + s.pair.hb)
          let s := (s.modPair fun p => { p with peerAlive := false, peerLostAt := some s.now }).raisePair 2
          if s.pair.st = .paired ∧ s.pair.side = false then s.startContend
          else s.when (s.pair.handing.isSome || s.pair.taking.isSome) State.abandonPair
      | none, none => s

/-- FORMING_TIMEOUT: no HELLO completed within 30 s of the end of port training; Stage Right waits a further heartbeat_ms / 2. One
whose peer has its own side does not contend while Wings is up (R645; spec/20 R700). -/
def execFormingTimeout (s : State) : Host.Outcome State Fault Refusal :=
  .next <|
    if s.pair.mode = true ∧ s.pair.st = .forming ∧ s.boot.portsEnded = true ∧ s.pair.helloDone = false
        ∧ ¬ (s.pair.wings = 2 ∧ s.pair.peerSide = some s.pair.side) then
      (s.at_ (s.boot.portsEndedAt + 30 * Config.sec + (if s.pair.side then s.pair.hb / 2 else 0))).startContend
    else s

/-- Tokens of the present companions that reported them in STATUS during the last 2 ms. -/
def State.freshTokens (s : State) : List Nat :=
  (s.livePorts.filter fun p => match (s.port p).statusAt with
    | some t => decide (s.now ≤ t + 2 * Config.ms)
    | none => false).map fun p => (s.port p).token.toNat

/-- CONTEND: `refused` is a companion that refuses the FENCE, if any does. A token of the peer above the pair epoch, or a refusal,
makes the controller stand down; else it becomes solo (R646; spec/03 R124). -/
def execContend (refused : Option PortId) (s : State) : Host.Outcome State Fault Refusal :=
  .next <|
    if s.pair.st ≠ .contending then s
    else
      let tokens := s.freshTokens
      let high := tokens.foldl max 0
      if tokens.any fun t => t % 2 != bit s.pair.side && decide (s.pair.epoch.toNat < t / 2) then s.standDown 0 high
      else match nextEpoch (high / 2) with
        | none => s.standDown 1 high
        | some e =>
          let s := s.modPair fun p => { p with epoch := e, epochOver := false }
          match refused.filter fun p => s.livePorts.contains p with
          | some p => ((s.each s.livePorts fun q s => s.present q s.pairToken).raisePort p 2).standDown 1 (max high (s.port p).token.toNat)
          | none => (s.each s.livePorts State.gain).becomeSolo

/-- FENCED: a companion no longer obeys this controller. Solo it stands down; else the port leaves service (spec/03 R128, R729; R647).
The report's payload is the companion's highest token. -/
def execFenced (p : PortId) (s : State) : Host.Outcome State Fault Refusal :=
  .next <| s.takeRx p 0xE4 fun k s =>
    let s := s.when (k.payload.length == 8) (State.modPort p fun x => { x with token := BitVec.ofNat 64 (field k.payload 0 8) })
    let s := if (s.port p).obeyed then s.obedienceLost p else s.raisePort p 2
    if s.pair.st = .solo then s.standDown 2 (s.port p).token.toNat else s.settle

/-! ## HELLO (R622 to R625, R630, R655) -/

/-- Both are paired: the default split of ports, the coordinator, a pair epoch one above the highest read, tokens and ANA states (Table
18-1; spec/03 R131). -/
def State.becomePaired (high : Nat) (s : State) : State :=
  let mine : W32 := if s.pair.side then 0xFFFF0000 else 0x0000FFFF
  let s := s.modPair fun p => { p with
    st := .paired, own := mine, peerOwn := ~~~mine, coordinator := !p.side, servesOther := false
    epoch := (nextEpoch high).getD (BitVec.allOnes 63), epochOver := (nextEpoch high).isNone }
  let s := match nextEpoch high with
    | some _ => s.presentOwned
    | none => s.each (s.livePorts.filter fun (p : PortId) => mine.getLsbD p.val && inRange 7 9 (s.port p).train.val) fun p s => s.refuse p
  s.followAna.settle

/-- A SYNC to a rejoining peer begins: the dirty buffer and the journal are copied, and every new write is mirrored from now on; the
last message ends it (R655). -/
def State.startSync (s : State) : State :=
  if s.pair.syncing then s
  else
    let s := (s.modPair fun p => { p with syncing := true }).mirrorCheckpoint s.prot.checkpoint
    let s := s.each s.names.journal fun m s => s.sendKept 0x04 [0, m.ns, m.lba, m.entry.toNat] [] m.ns m.lba 0 none
    let s := s.each s.names.unstored fun d s => s.sendKept 0x0B [d.ns, d.lba, 0] [d.data] d.ns d.lba d.adm none
    s.sendKept 0x0B [0, 0, 1] [] 0 0 0 none

/-- What a HELLO or a HEARTBEAT of the peer brings about (R655; by a HEARTBEAT, DEDUCED, log 63). A paired controller whose peer forms
anew has lost it, and contends at once (DESIGN CHOICE, log 63). -/
def State.meet (st : PairState) (hello : Bool) (high : Nat) (s : State) : State :=
  match s.pair.st, st with
  | .forming, .forming => if hello then s.becomePaired high else s
  | .forming, .solo => (s.modPair fun p => { p with st := .rejoining, own := 0, peerOwn := 0xFFFFFFFF }).followAna.sendHello
  | .solo, .rejoining => s.startSync
  | .solo, .forming => if hello then s.startSync else s
  | .paired, .forming => if hello then s.startContend else s
  | _, _ => s

/-- The pair identity after a HELLO (R625). -/
def pairIdOf (side : Bool) (own peer peerDevice : BitVec 128) : BitVec 128 :=
  if own = 0 ∧ peer = 0 then (if side then peerDevice else Config.deviceIdentity)
  else if own = 0 then peer
  else if peer = 0 then own
  else if side then peer else own

/-- Unanswered messages are sent again from the msg_seq that the other side reports (R640). -/
def State.resendFrom (seq : W32) (s : State) : State :=
  s.each (s.pair.unanswered.filter fun m => !earlier m.seq seq) fun m s => s.emitOut (.wings m.type m.seq m.payload m.data)

/-- HELLO: a peer of the same side is not completed with (spec/20 R700). Else identity, dirty_limit and heartbeat are settled, the
peer-mirror region takes its size from the peer's dirty_limit before anything lies beyond it (spec/13 R499; DEDUCED, log 77), unanswered messages are sent again, and the pair forms, rejoins or goes on. A HELLO that says something new is answered. -/
def execHello (m : HelloMsg) (s : State) : Host.Outcome State Fault Refusal :=
  .next <|
    if s.pair.mode = false ∨ (s.pair.wings ≠ 1 ∧ s.pair.wings ≠ 2) ∨ m.pairMode = false then s
    else if s.helloLate then s.modPair fun p => { p with wings := 0 }
    else if m.side = s.pair.side then s.modPair fun p => { p with peerSide := some m.side, wings := 2 }
    else
      let was := s.pair.wings == 2
      let restarted := !earlier s.pair.rxMsg m.msgSeq
      let new := restarted || s.pair.peerState != m.state
      let s := s.when restarted (State.modPair fun p => { p with rxMsg := m.msgSeq })
      let s := s.modCfg fun c => { c with pairId := pairIdOf s.pair.side c.pairId m.pairId m.deviceId }
      let s := s.when (s.names.dirtyLimitMib != m.dirtyLimitMib) (State.raisePair 7)
      let s := (s.modNames fun n => { n with dirtyLimitMib := min n.dirtyLimitMib m.dirtyLimitMib }).modPair fun p => { p with
        peerSide := some m.side, peerState := m.state, peerHeartbeatMs := m.heartbeatMs, helloDone := true, wings := 2
        lastHb := some (p.lastHb.getD s.now), peerAlive := p.peerAlive || p.lastHb.isNone }
      let s := s.when (s.pair.st == .forming && s.names.pagesIn == []) (State.modMem fun k => { k with mirrorMib := m.dirtyLimitMib + 256 })
      let s := s.when (!was) (State.raisePair 1)
      let s := s.when (was && new) State.sendHello
      let s := s.resendFrom m.highestSeq
      (s.meet m.state true (max s.pair.highest.toNat m.highestEpoch.toNat)).bufferChanged

/-! ## Heartbeats (R644) -/

/-- A release whose ports have been handed over goes on once the commands admitted here have ended: the groups and the coordinator
role move (R654). The command that asked for it, and asynchronous event requests, do not count. -/
def State.releaseNext (s : State) : State :=
  match s.pair.handing with
  | some h =>
    let busy := s.ctxs.any fun x => x.stage != .fetched && x.stage != .decided && x.wait != .handover && x.wait != .asyncEvent
    if h.ports = 0 ∧ h.groups ≠ 0 ∧ h.sent = false ∧ busy = false then
      (s.modPair fun p => { p with handing := some { h with sent := true } }).sendWings 0x09 [0, h.groups.toNat, h.epoch.toNat, 0] []
    else s
  | none => s

/-- HEARTBEAT_SEND: every heartbeat_ms / 10 while Wings is up; a newly set heartbeat_ms is in force from it on (R640, R644; Table
18-7). -/
def execHeartbeatSend (s : State) : Host.Outcome State Fault Refusal :=
  .next <|
    if s.pair.mode = false ∨ s.pair.wings ≠ 2 then s
    else
      let s := s.at_ (s.pair.hbSentAt + s.pair.hb / 10)
      (s.modPair fun p => { p with hbSentAt := s.now, hbMs := p.heartbeatMs }).sendHeartbeat.handSend.releaseNext

/-- HEARTBEAT: the peer is alive (R644). -/
def execHeartbeat (m : HeartbeatMsg) (s : State) : Host.Outcome State Fault Refusal :=
  .next <| s.wingsMsg m.msgSeq (fun s => s) fun s =>
    let s := s.modPair fun p => { p with
      lastHb := some s.now, peerAlive := true, peerLostAt := none, peerState := m.state, peerOwn := m.owned }
    (s.meet m.state false 0).settle

end Sys2Proof.Machine
end

