-- ==== Sys2Proof/Machine/Mirror.lean ====
section
/-! DEFINITION. Family Wings, the messages: mirroring, forwarded commands, media requests, handover and rejoin; and Pair Control (spec/18
R626 to R632, R637, R641 to R643, R653 to R657). -/

namespace Sys2Proof.Machine

/-! ## The peer-mirror region (R641, R642) -/

/-- Blocks of one mirror outside a range, as at most two mirrors. -/
def Mirror.without (ns lo n : Nat) (m : Mirror) : List Mirror :=
  if m.ns ≠ ns ∨ lo + n ≤ m.lba ∨ m.lba + m.data.length ≤ lo then [m]
  else
    let head := m.data.take (lo - m.lba)
    let tail := m.data.drop (lo + n - m.lba)
    (if head = [] then [] else [{ m with data := head }]) ++
      (if tail = [] then [] else [{ m with lba := lo + n, data := tail }])

/-- A range of blocks leaves the peer-mirror region; the pages whose retirement waited for it are retired (spec/13 R508). -/
def State.freeMirror (ns lo n : Nat) (s : State) : State :=
  (s.modPair fun p => { p with mirrors := p.mirrors.flatMap (Mirror.without ns lo n) }).retireWaiting

/-- Blocks are written into the peer-mirror region; an older mirror of the same blocks is superseded. -/
def State.storeMirror (m : Mirror) (s : State) : State :=
  (s.freeMirror m.ns m.lba m.data.length).modPair fun p => { p with mirrors := p.mirrors ++ [m] }

/-- MIRROR: written, then acknowledged (R641). -/
def execMirror (seq : W32) (ns : Nat) (adm : W32) (lba : Nat) (data : List Blk) (s : State) : Host.Outcome State Fault Refusal :=
  .next <| s.wingsMsg seq State.sendAck fun s =>
    (s.storeMirror { seq := seq, ns := ns, adm := adm, lba := lba, data := data }).sendAck

/-- RELEASE: the ranges are on media and their mirrors go; a whole row of a zone is in its chunks (R642). -/
def execRelease (seq : W32) (ns lba nlb : Nat) (s : State) : Host.Outcome State Fault Refusal :=
  .next <| s.wingsMsg seq (fun s => s) fun s =>
    let s := s.freeMirror ns lba nlb
    match s.ns? ns with
    | some n =>
      if n.zoned = true ∧ nlb = rowBlocks n.narrow then
        s.modZone ns (lba / zoneBlocks n.narrow) fun y => { y with
          rows := max y.rows (lba % zoneBlocks n.narrow / rowBlocks n.narrow + 1) }
      else s
    | none => s

/-! ## Journal records (Table 18-3) -/

/-- What a record names: a newer record of the same takes its place. -/
def JournalRec.sameKey : JournalRec → JournalRec → Bool
  | .map n l _, .map n' l' _ => n == n' && l == l'
  | .directory n p _, .directory n' p' _ => n == n' && p == p'
  | .zone n z _ _, .zone n' z' _ _ => n == n' && z == z'
  | _, _ => false

/-- A group of the peer's group table: allocated on the members present, or freed (spec/09 R331). -/
def State.noteGroup (number width firstSlot ns : Nat) (s : State) : State :=
  match s.group? number with
  | some g => if ns = 0 then s.freeGroupOf g else s
  | none =>
    if ns = 0 then s
    else
      let g : Group := { number := number, narrow := width == 10, members := s.presentMembers, firstSlot := firstSlot, ns := ns }
      ((s.each g.members fun p s => s.modMember p fun m => { m with slotsUsed := (firstSlot, width) :: m.slotsUsed }).modProt fun p =>
        { p with groups := p.groups ++ [g] }).recordGroups

/-- A namespace of the peer's group table: created, or removed. -/
def State.noteNs (nsid nsze : Nat) (zoned narrow ana2 : Bool) (groups : List Nat) (s : State) : State :=
  if nsze = 0 then s.dropNs nsid
  else if (s.ns? nsid).isSome then s
  else s.modNames fun n => { n with nss := n.nss ++
    [{ nsid := nsid, zoned := zoned, narrow := narrow, nsze := nsze, groups := groups, ana2 := ana2, attachA := false, attachB := false
       deleting := false, backing := none, ready := true }] }

/-- A namespace is attached to a function, or detached from it; its host is told (spec/10 Table 10-1). -/
def State.noteAttach (nsid : Nat) (f : Fn) (on : Bool) (s : State) : State :=
  let put (y : Ns) : Ns := match f with
    | .a => { y with attachA := on }
    | .b => { y with attachB := on }
  (s.modNames fun m => { m with nss := mapWhere (fun y => y.nsid == nsid) put m.nss }).nsNotice f

def MemberSt.ofCode : Nat → MemberSt
  | 1 => .member
  | 2 => .absent
  | 3 => .failed
  | 4 => .candidate
  | 5 => .retired
  | _ => .none

/-- A member of the peer's member record: admitted in another's place, or changed (spec/09 R328, R364). -/
def State.noteMember (p : PortId) (st : MemberSt) (serial : BitVec 160) (f0 f1 : Bool) (b0 b1 : Nat) (slips : List (Nat × List Nat))
    (replaces : Option PortId) (s : State) : State :=
  let was := s.member p
  let failed := (st == .failed && was.st != .failed) || (f0 && !was.failed0) || (f1 && !was.failed1)
  let s := match replaces with
    | some q => s.watchSpare (State.seatMember p q serial b0 b1 slips)
    | none => s.watchSpare (State.modMember p fun m => { m with
        st := st, serial := serial, failed0 := f0, failed1 := f1, bands0 := b0, bands1 := b1, slips := slips
        absentAt := if st = MemberSt.absent ∧ m.st ≠ MemberSt.absent then s.now else m.absentAt })
  (s.modProt fun q => { q with rebuildDue := q.rebuildDue || failed }).recordMembers

/-- A checkpoint record of the peer's: where its rebuild stands, and whether one is active; a rebuild of this controller that the peer
has taken over ends with it (spec/09 R362, R365). -/
def State.noteCheckpoint (n : Nat) (active held : Bool) (s : State) : State :=
  let s := (s.modProt fun p => { p with
    checkpoint := n, peerRebuild := active, rebuildHeld := held, rebuildDue := p.rebuildDue && !active }).record (.checkpoint n)
  match s.rebuild? with
  | some o =>
    if active = true ∨ s.coordinates = true then s
    else (s.endOp o.handle (if held then .cancelled else .completed) (if held then Config.cancelResult 1 else 0)).rebuildTo 0 0
  | none => s

/-- The records of the sled's tables take effect at once, since both controllers work by them; map and zone records of the peer's
namespaces are kept until this controller becomes solo (R649; DESIGN CHOICE, log 63). A zone that is Empty again, and a block
that is unmapped, have no mirror any more. -/
def State.noteRecord (seq : W32) (r : JournalRec) (s : State) : State :=
  let keep (s : State) : State := s.modPair fun p => { p with
    journal := p.journal.filter (fun q => !JournalRec.sameKey r q.2) ++ [(seq, r)] }
  match r with
  | .map ns lba e => (s.when (e == 0) (State.freeMirror ns lba 1) |> keep)
  | .directory _ _ _ => keep s
  | .zone ns z st _ =>
    let n := match s.ns? ns with
      | some x => zoneBlocks x.narrow
      | none => 0
    (s.when (st == ZoneState.code .empty) (State.freeMirror ns (z * n) n) |> keep)
  | .group number width firstSlot ns => s.noteGroup number width firstSlot ns
  | .nspace nsid nsze zoned narrow ana2 groups => s.noteNs nsid nsze zoned narrow ana2 groups
  | .attach nsid f on => s.noteAttach nsid f on
  | .member p st serial f0 f1 b0 b1 slips replaces => s.noteMember p (MemberSt.ofCode st) serial f0 f1 b0 b1 slips replaces
  | .exception group stripe chunk p slot => match s.group? group with
    | some g => s.commitPlaces g stripe [(chunk, (s.member p).ofCode p slot)] false
    | none => s
  | .checkpoint n active held => s.noteCheckpoint n active held

/-- JOURNAL: written, then acknowledged (R641). -/
def execJournal (seq : W32) (r : JournalRec) (s : State) : Host.Outcome State Fault Refusal :=
  .next <| s.wingsMsg seq State.sendAck fun s => (s.noteRecord seq r).sendAck

/-! ## Acknowledgements (R637, R641, R655) -/

/-- The dirty data of a group that moves to the peer becomes a mirror of it here (DESIGN CHOICE, log 63). -/
def State.giveGroup (ana2 : Bool) (s : State) : State :=
  let mine (d : Dirty) : Bool := (s.ns? d.ns).any fun n => n.ana2 == ana2
  let l := s.names.unstored.filter mine
  let s := s.modNames fun n => { n with buffer := n.buffer.filter fun d => !mine d }
  s.modPair fun p => { p with mirrors := p.mirrors ++ l.map fun d =>
    { seq := p.rxMsg, ns := d.ns, adm := d.adm, lba := d.lba, data := [d.data] } }

/-- And the mirrors of a group that comes back become dirty data here. -/
def State.takeGroup (ana2 : Bool) (s : State) : State :=
  let mine (m : Mirror) : Bool := (s.ns? m.ns).any fun n => n.ana2 == ana2
  let l := s.pair.mirrors.filter mine
  (s.modPair fun p => { p with mirrors := p.mirrors.filter fun m => !mine m }).each l State.takeMirror

/-- The SYNC has ended: both controllers are paired, each serves its home group, the coordinator is Stage Left; ports stay where they
are (R655). -/
def State.rejoined (give : Bool) (s : State) : State :=
  let moved := if give then !s.pair.side else s.pair.side
  let s := (s.modPair fun p => { p with
    st := .paired, syncing := false, servesOther := false, coordinator := !p.side }).setAnas fun g => if g == moved then .change else s.anaTable g
  let s := if give then s.giveGroup moved else s.takeGroup moved
  let s := s.when (!give && s.pair.coordinator && s.prot.peerRebuild) State.takeRebuild
  let s := s.followAna.raisePair 6
  (s.completeWait .rejoin).bufferChanged

/-- ACK: messages held for it go; writes whose mirrors are acknowledged complete, stripes commit, and a SYNC may end (R641). -/
def execAck (seq : W32) (s : State) : Host.Outcome State Fault Refusal :=
  .next <|
    if s.pair.mode = false ∨ s.pair.wings ≠ 2 then s
    else
      let kept (m : SentMsg) : Bool := (m.type == 0x03 || m.type == 0x04 || m.type == 0x0B) && !earlier seq m.seq
      let s := s.modPair fun p => { p with unanswered := p.unanswered.filter fun m => !kept m }
      let s := s.each (s.ctxs.filter fun x => x.stage == .waiting) fun x s =>
        match x.wait with
        | .mirror l =>
          let left := l.filter fun q => earlier seq q
          if left = [] then s.completeWrite x.id else s.await x.id (.mirror left)
        | _ => s
      let s := s.each (s.prot.works.filter fun w => w.acks.isSome) fun w s =>
        let left := (w.acks.getD []).filter fun q => earlier seq q
        if left = [] then s.commitWork w
        else s.modProt fun p => { p with works := mapWhere (fun y => y == w) (fun y => { y with acks := some left }) p.works }
      let s : State := match s.prot.checkAck with
        | some (n, q) => if earlier seq q then s else s.checkpointDone n
        | none => s
      if s.pair.syncing = true ∧ (s.pair.unanswered.all fun m => m.type != 0x0B) = true then s.rejoined true else s

/-- SYNC: written into the peer-mirror region and acknowledged; the last one ends the rejoin (R655). -/
def execSync (seq : W32) (ns lba : Nat) (data : List Blk) (last : Bool) (s : State) : Host.Outcome State Fault Refusal :=
  .next <| s.wingsMsg seq State.sendAck fun s =>
    let s := if data = [] then s else s.storeMirror { seq := seq, ns := ns, adm := 0, lba := lba, data := data }
    let s := s.sendAck
    if last = true ∧ s.pair.st = .rejoining then s.rejoined false else s

/-! ## Forwarded commands (R623, R628, R631) -/

/-- FORWARD: the command is admitted here; one whose group is moving ends with Asymmetric Access Transition (Table 18-6). -/
def execForward (seq : W32) (f : Fn) (sqid : Nat) (e : SqEntry) (s : State) : Host.Outcome State Fault Refusal :=
  .next <| s.wingsMsg seq (fun s => s) fun s =>
    let s := s.wake
    let c := s.nextCtx
    let s := s.addCtx (.peer seq f sqid) sqid e .none
    match s.ctx? c with
    | none => s
    | some x =>
      let moving := (s.ns? x.ns).any fun n => (s.fn f).anaOf n == .change
      let s := s.admitCmd x
      s.when (moving && sqid != 0) (State.complete c Cpl.transition)

/-- FORWARD_CPL: the command's completion, under the serving controller's admission number, with the data it returns (R628); a Flush of
every namespace was admitted here and keeps its own. -/
def execForwardCpl (seq : W32) (c sct sc : Nat) (dw0 dw1 : W32) (bytes : List Byte) (data : List Blk) (s : State) :
    Host.Outcome State Fault Refusal :=
  .next <| s.wingsMsg seq (fun s => s) fun s =>
    match s.ctx? c with
    | some x =>
      if x.stage ≠ .forwarded then s
      else
        let s := s.modPair fun p => { p with unanswered := p.unanswered.filter fun m => !(m.type == 0x07 && m.ctx == some c) }
        (s.modCtx c fun y => { y with adm := if s.flushesPeer x then y.adm else dw1 }).complete c
          { Cpl.err sct sc with dw0 := dw0, dw1 := dw1, bytes := bytes, blocks := data, dnr := sct + sc != 0 && Config.dnr sct sc }
    | none => s

/-! ## Media requests (R626, R629) -/

/-- MEDIA_REQ: the owner queues the operation, in the order of arrival; a port that it does not own cannot run it. -/
def execMediaReq (seq : W32) (a : ActId) (d : Descriptor) (s : State) : Host.Outcome State Fault Refusal :=
  .next <| s.wingsMsg seq (fun s => s) fun s =>
    if s.pair.own.getLsbD (portOf a).val then
      let d := { d with ctx := none, reread := 0 }
      ((s.modPair fun p => { p with peerReqs := p.peerReqs ++ [{ seq := seq, act := a, d := d }] }).modSeq a fun q =>
        { q with queue := q.queue ++ [d] }).noteRequest a
    else s.sendWings 0x08 [2, seq.toNat, 0] []

/-- The request that an answer names. -/
def State.mediaAsked (s : State) (req : W32) : Option SentMsg := s.pair.unanswered.find? fun m => m.type == 0x08 && m.seq == req

/-- MEDIA_DATA: decoded sectors, from a sector on, go to the command that reads them. -/
def execMediaData (seq : W32) (req : W32) (sector : Nat) (data : List Blk) (s : State) : Host.Outcome State Fault Refusal :=
  .next <| s.wingsMsg seq (fun s => s) fun s =>
    match s.mediaAsked req with
    | none => s
    | some m =>
      s.each data.zipIdx fun q s =>
        match m.ctx.bind s.ctx?, m.sectorAt (sector + q.2) with
        | some x, some l =>
          match s.ns? x.ns, x.wait with
          | some n, .sectors need => match need.find? fun b => s.foundAt (s.findMapped n b) == some l with
            | some b => s.giveBlock x.id b q.1
            | none => s
          | _, _ => s
        | _, _ => s

/-- MEDIA_DONE: the request is answered; sectors that could not be read count as failed to decode (spec/07 R272), and a chunk whose write
has failed is to be reallocated (spec/09 R350, Table 9-8). -/
def execMediaDone (seq : W32) (req : W32) (ok : Bool) (s : State) : Host.Outcome State Fault Refusal :=
  .next <| s.wingsMsg seq (fun s => s) fun s =>
    match s.mediaAsked req with
    | none => s
    | some m =>
      let s := s.modPair fun p => { p with unanswered := p.unanswered.filter fun y => y.seq != req }
      match ok, m.payload with
      | false, [_, _, w, _, _, _, _, first, count] =>
        if w = 1 then match (m.sectorAt first).bind s.sectorOf with
          | some x => s.modProt fun p => { p with marked := if p.marked.contains x.place then p.marked else p.marked ++ [x.place] }
          | none => s
        else s.each (List.range count) fun i s => match (m.sectorAt (first + i)).bind s.sectorOf with
          | some x => s.sectorFails m.ctx x
          | none => s
      | _, _ => s

/-! ## Handover and release (R653, R654) -/

/-- The answer to this controller's HANDOVER: the ports are in service under the peer, or have failed. A release goes on with its
groups, under ANA Change, and ends in state released (R654). -/
def State.handed (h : Handing) (s : State) : State :=
  if h.groups = 0 then
    ((s.modPair fun p => { p with handing := none, handovers := satAdd 255 p.handovers 1 }).raisePair 5).completeWait .handover
  else if h.ports ≠ 0 then
    let s := (s.modPair fun p => { p with handovers := satAdd 255 p.handovers 1, handing := some { h with ports := 0, sent := false } }).raisePair 5
    (s.setAnas fun _ => .change).releaseNext
  else
    let s := (s.modPair fun p => { p with
      handing := none, st := .released, own := 0, peerOwn := 0xFFFFFFFF, coordinator := false, servesOther := false }).raisePair 5
    let s := (s.modNames Names.dropDirty).modPair fun p => { p with mirrors := [], journal := [], unanswered := [] }
    (s.followAna.completeWait .handover).noteClean

/-- HANDOVER: the answer to this controller's own; or the peer's ports come to it: it presents the new epoch to each, and they
are caught and loaded as they gain start slots (R651, R653); with no port left the peer's groups and the coordinator role come to
it (R654). -/
def execHandover (seq : W32) (ports : W32) (groups : BitVec 2) (epoch : BitVec 63) (s : State) : Host.Outcome State Fault Refusal :=
  .next <| s.wingsMsg seq (fun s => s) fun s =>
    let answer := match s.pair.handing with
      | some h => if h.sent = true ∧ h.epoch = epoch then some h else none
      | none => none
    match answer with
    | some h => s.handed h
    | none =>
      if s.pair.st ≠ .paired then s
      else
        let s := s.modPair fun p => { p with epoch := epoch, epochOver := false }
        if ports = 0 then
          s.becomeSolo.sendWings 0x09 [0, groups.toNat, epoch.toNat, 1] []
        else
          let s := s.modPair fun p => { p with own := p.own ||| ports, peerOwn := p.peerOwn &&& ~~~ports, taking := some (ports, groups) }
          (s.each (s.livePorts.filter fun p => ports.getLsbD p.val && inRange 7 9 (s.port p).train.val) fun p s =>
            s.present p s.pairToken).settle

/-! ## Pair Control (R657, Table 18-7) -/

/-- A Pair Control action: its reserved fields are 0 (log 52); pair_mode 0 ends it with Command Sequence Error. `bad` are its own fields
that may be at fault. -/
def State.pairCtl (c action : Nat) (bad : State → SqEntry → List (Bool × Nat × Nat)) (k : SqEntry → State → State) (s : State) : State :=
  s.run c (isAction 0xCD action) fun x s =>
    let e := x.entry
    if s.pair.mode = false then s.complete c Cpl.seqError
    else s.orElse c (firstBad ([(bits e.cdw10 31 8 != 0, 10, 8)] ++ bad s e ++
      [(bits e.cdw12 31 13 != 0, 12, 13), (e.cdw13 != 0, 13, 0), (e.cdw14 != 0, 14, 0), (e.cdw15 != 0, 15, 0)])) (k e)

/-- PAIR_CONTROL_QUERY: bytes 0x00 to 0x3F of the PAIR block; the counts returned are cleared. -/
def execPairControlQuery (c : Nat) (s : State) : Host.Outcome State Fault Refusal :=
  .next <| s.pairCtl c 0 (fun _ _ => []) fun _ s =>
    let bs := s.windowBytes 0x6000 64
    (s.each [0x24, 0x28, 0x2C] fun o s => s.clearRc (.pair o)).complete c (Cpl.data bs)

/-- Ports begin to be handed over under a new epoch: queued work goes to the peer, and each is unloaded as its operations end; with no
epoch left the ports fail (R653; spec/03 R124). -/
def State.handOver (c : Nat) (ports : W32) (groups : BitVec 2) (s : State) : State :=
  let l := (fins 32).filter fun p => ports.getLsbD p.val
  match nextEpoch s.pair.epoch.toNat with
  | none => (s.each l fun p s => s.trainFails p 6).complete c Cpl.ok
  | some e =>
    let s := (s.modPair fun p => { p with handing := some { ports := ports, groups := groups, epoch := e, sent := false } }).await c .handover
    let s := s.each l fun p s => s.each (fins 2) fun sd s =>
      let a := actOf p sd
      let q := (s.seq a).queue
      (s.modSeq a fun y => { y with queue := [] }).each q fun d s => s.askMedia a d 0 0
    let s := s.each l fun p s => s.handNext p
    if ports = 0 then (s.setAnas fun _ => .change).releaseNext else s.handSend

/-- HAND_OVER_PORTS: it completes when every port named is in service under the peer or has failed (R653). -/
def execHandOverPorts (c : Nat) (s : State) : Host.Outcome State Fault Refusal :=
  .next <| s.pairCtl c 1 (fun s e => [(e.cdw11 &&& ~~~s.pair.own != 0, 11, 0)]) fun e s =>
    if s.pair.st ≠ .paired ∨ s.pair.handing.isSome = true then s.complete c Cpl.seqError
    else if e.cdw11 = 0 then s.complete c Cpl.ok
    else s.handOver c e.cdw11 0

/-- PAIR_RELEASE: all its ports, then its groups and the coordinator role (R654). -/
def execPairRelease (c : Nat) (s : State) : Host.Outcome State Fault Refusal :=
  .next <| s.pairCtl c 2 (fun _ _ => []) fun _ s =>
    if s.pair.st ≠ .paired ∨ s.pair.handing.isSome = true then s.complete c Cpl.seqError
    else s.handOver c s.pair.own 3

/-- REJOIN: a stood-down or released controller rejoins a solo peer (R655). -/
def execRejoin (c : Nat) (s : State) : Host.Outcome State Fault Refusal :=
  .next <| s.pairCtl c 3 (fun _ _ => []) fun _ s =>
    if ¬ (s.pair.st = .stoodDown ∨ s.pair.st = .released) ∨ s.pair.wings ≠ 2 then s.complete c Cpl.seqError
    else ((s.modPair fun p => { p with st := .rejoining, own := 0, peerOwn := 0xFFFFFFFF }).await c .rejoin).followAna.sendHello

/-- SET_HEARTBEAT_MS: 100 to 5,000 ms, kept in the configuration store; in force from the next HEARTBEAT (R644, R657). -/
def execSetHeartbeatMs (c : Nat) (s : State) : Host.Outcome State Fault Refusal :=
  .next <| s.pairCtl c 4 (fun _ e => [(!inRange 100 5000 (bits e.cdw12 12 0), 12, 0)]) fun e s =>
    let v := bits e.cdw12 12 0
    ((s.modPair fun p => { p with heartbeatMs := v }).modCfg fun g => { g with heartbeatMs := v }).complete c Cpl.ok

end Sys2Proof.Machine
end

