-- ==== Sys2Proof/Machine/Patch.lean ====
section
/-! DEFINITION. Family Patch: the microcode patch image, its checks, Patch Load and the load at bring-up (spec/06 R224 to
R233, spec/12 Table 12-11). -/

namespace Sys2Proof.Machine

/-! ## The image (spec/06 Table 6-7) -/

def patchMicroCount (b : List Byte) : Nat := field b 10 2
def patchNanoCount (b : List Byte) : Nat := field b 12 2
def patchMatchCount (b : List Byte) : Nat := field b 14 1
def patchSig (b : List Byte) : Nat := field b 28 4

/-- The words of an image. -/
def patchMicro (b : List Byte) : List W32 :=
  (List.range (patchMicroCount b)).map fun i => BitVec.ofNat 32 (field b (field b 16 4 + 4 * i) 4)
def patchNano (b : List Byte) : List (BitVec 128) :=
  (List.range (patchNanoCount b)).map fun i => BitVec.ofNat 128 (field b (field b 20 4 + 16 * i) 16)

/-- Match entries: rom_addr, patch_addr, reserved. -/
def patchMatches (b : List Byte) : List (Nat × Nat × Nat) :=
  (List.range (patchMatchCount b)).map fun i =>
    let o := field b 24 4 + 8 * i
    (field b o 2, field b (o + 2) 2, field b (o + 4) 4)

/-- Magic, format, lengths and counts, and the reserved fields of the header (R226; a patch_version of 0 is out of its
range, and the section offsets are not checked: DEDUCED, log 25). -/
def patchHeadOk (b : List Byte) : Bool :=
  field b 0 4 == 0x504D5A49 && field b 4 2 == 1 && field b 6 2 != 0 &&
  field b 32 4 == patchSig b + 3309 && b.length == field b 32 4 &&
  decide (patchMicroCount b ≤ 512) && decide (patchNanoCount b ≤ 128) && decide (patchMatchCount b ≤ 32) &&
  field b 15 1 == 0 && field b 36 28 == 0

/-- A micro address lies in ROM or in the words loaded. -/
def patchAddrOk (b : List Byte) (addr : Nat) : Bool := decide (addr < 16384 + patchMicroCount b)

/-- A microword names nothing outside ROM and the loaded words: its nano index, and the target of a branch-if or call
(DEDUCED, log 25: the other modes name none). -/
def patchMicroOk (b : List Byte) (w : W32) : Bool :=
  decide (microNano w < 1024 + patchNanoCount b) &&
    (if microNext w = 1 ∨ microNext w = 2 then patchAddrOk b (microTarget w) else true)

/-- The match entries: ROM addresses 1 to 16,383, each once, patch addresses among the loaded words (R224). -/
def patchMatchesOk (b : List Byte) : Bool :=
  let ms := patchMatches b
  (ms.all fun m => decide (0 < m.1) && decide (m.1 ≤ 16383) && decide (16384 ≤ m.2.1) && patchAddrOk b m.2.1 && m.2.2 == 0) &&
    ((ms.map fun m => m.1).eraseDups.length == ms.length)

/-- R226: 1 when an image is accepted, else SEQ_PATCH_STATE.last_result: 4 invalid, 3 ROM version, 2 signature, in the
order of the rule's list (DEDUCED, log 25). -/
def State.patchCheck (s : State) (b : List Byte) : Nat :=
  if patchHeadOk b = false then 4
  else if field b 8 2 ≠ Config.seqRomVersion.toNat then 3
  else if Config.mldsaVerify s.ident.patchKey (ascii "IZ-MP") (b.take (patchSig b)) ((b.drop (patchSig b)).take 3309) = false then 2
  else if (patchMicro b).all (patchMicroOk b) = false ∨ (patchNano b).all nanoOk = false ∨ patchMatchesOk b = false then 4
  else 1

/-- The bank an image makes. -/
def patchBank (b : List Byte) : Bank :=
  { micro := patchMicro b, nano := patchNano b, matches_ := (patchMatches b).map fun m => (m.1, m.2.1) }

def Bank.empty : Bank := { micro := [], nano := [], matches_ := [] }

/-- The patch digest (R227). -/
def patchDigest (b : List Byte) : Digest := digest (b.take (patchSig b))

/-! ## Loading -/

def State.patchResult (r : Nat) (s : State) : State := s.modPatch fun p => { p with lastResult := BitVec.ofNat 4 r }

/-- Steps 4 and 5 of R228: the bank that no sequencer selects is written and becomes the newest; offline and halted
sequencers select it at once (R230). -/
def State.patchWrite (bank : Bank) (version : W16) (d : Digest) (s : State) : State :=
  let s := s.modPatch fun p =>
    { (if p.newest then { p with bank0 := bank } else { p with bank1 := bank }) with
      newest := !p.newest, version := version, digest := d, lastResult := 1, switching := true, remaining := 64 }
  let s := s.each (fins 64) fun a s => s.modSeq a fun q => { q with switchPending := true }
  s.each ((fins 64).filter fun a => (s.seq a).st == .offline || (s.seq a).st == .halted) State.selectBank

/-- Steps 5 and 6 of R228: the event with the digest; the command completes, after its addendum when the Playbill is
sealed (spec/16 R583). -/
def State.patchDone (c action : Nat) (version : W16) (d : Digest) (s : State) : State :=
  let s := s.emit 0x05 0x8001 noSource
    [BitVec.ofNat 256 (pack [(2, version.toNat), (1, action)]), BitVec.ofNat 256 d.toNat, BitVec.ofNat 256 (d.toNat / 2 ^ 256)]
  if s.ident.sealed then
    (s.addDue none c).await c .addendum
  else s.complete c Cpl.ok

/-- Fields of Table 12-11: reserved ones 0, the length of actions 0 and 1 at most 7,725. -/
def patchFields (e : SqEntry) : Option Cpl :=
  firstBad [(bits e.cdw10 31 8 != 0, 10, 8),
    (decide (actionOf e ≤ 1) && decide (7725 < e.cdw11.toNat), 11, 0),
    (e.cdw12 != 0, 12, 0), (e.cdw13 != 0, 13, 0), (e.cdw14 != 0, 14, 0), (e.cdw15 != 0, 15, 0)]

/-- Step 1 of R228, and the limit of addenda (spec/16 R584): a further Patch Load is refused and nothing changes. -/
def State.patchMay (c : Nat) (k : State → State) (s : State) : State :=
  if s.patch.switching then (s.patchResult 6).complete c Cpl.seqError
  else if s.ident.sealed ∧ 255 ≤ s.ident.addenda + s.ident.due.length then
    (s.emit 0x0D 0x8002 noSource (pay [(1, 0), (1, 2)])).complete c Cpl.seqError
  else k s

/-- A load of an image: refused under R226 with last_result in dword 0 (R485), stored when wanted. -/
def State.patchLoad (c action : Nat) (img : List Byte) (store : Option Bool) (s : State) : State :=
  let r := s.patchCheck img
  if r ≠ 1 then (s.patchResult r).complete c { Cpl.errVal 0x0 0x02 (BitVec.ofNat 32 r) with errLoc := 0xFFFF }
  else if store = some false then (s.patchResult 5).complete c Cpl.internal
  else
    let s := if store.isSome then
        ((s.norErase .patch 0 (ceilDiv img.length 65536 * 65536)).norProgram .patch 0 img.length).modNor fun n => { n with patchStore := img }
      else s
    let version := BitVec.ofNat 16 (field img 6 2)
    (s.patchWrite (patchBank img) version (patchDigest img)).patchDone c action version (patchDigest img)

/-- The image that the command carries: CDW11 bytes from the host buffer. -/
def patchImage (e : SqEntry) : List Byte := e.data.take e.cdw11.toNat

/-- PATCH_LOAD_FROM_HOST (R228, action 0). -/
def execPatchLoadFromHost (c : Nat) (s : State) : Host.Outcome State Fault Refusal :=
  .next <| s.run c (isAction 0xCA 0) fun x s => s.orElse c (patchFields x.entry) (State.patchMay c (State.patchLoad c 0 (patchImage x.entry) none))

/-- PATCH_LOAD_AND_STORE (R228, action 1); `norOk`: the patch store was written. -/
def execPatchLoadAndStore (c : Nat) (norOk : Bool) (s : State) : Host.Outcome State Fault Refusal :=
  .next <| s.run c (isAction 0xCA 1) fun x s =>
    s.orElse c (patchFields x.entry) (State.patchMay c (State.patchLoad c 1 (patchImage x.entry) (some norOk)))

/-- PATCH_LOAD_FROM_NOR (R228, action 2). -/
def execPatchLoadFromNor (c : Nat) (s : State) : Host.Outcome State Fault Refusal :=
  .next <| s.run c (isAction 0xCA 2) fun x s => s.orElse c (patchFields x.entry) (State.patchMay c fun s =>
    (s.norRead .patch 0 s.nor.patchStore.length).patchLoad c 2 s.nor.patchStore none)

/-- PATCH_CLEAR: an empty bank, version 0 and a digest of zeros; the store keeps its image (R229). -/
def execPatchClear (c : Nat) (s : State) : Host.Outcome State Fault Refusal :=
  .next <| s.run c (isAction 0xCA 3) fun x s => s.orElse c (patchFields x.entry)
    (State.patchMay c fun s => (s.patchWrite Bank.empty 0 0).patchDone c 3 0 0)

/-- BOOT_PATCH_LOAD: during bring-up, before any sequencer starts, firmware loads the patch store; an erased store means
no patch, and an image that fails R226 leaves the sequencers without one (R232, R233). Then every sequencer starts at its
idle point. -/
def execBootPatchLoad (s : State) : Host.Outcome State Fault Refusal :=
  .next <|
    if s.boot.released ∧ s.boot.complete = false ∧ (fins 64).all (fun a => (s.seq a).st == .offline) = true then
      let img := s.nor.patchStore
      let s := s.norRead .patch 0 img.length
      let r := s.patchCheck img
      let s :=
        if field img 0 4 ≠ 0x504D5A49 then s
        else if r = 1 then
          let s := s.modPatch fun p => { p with
            bank1 := patchBank img, newest := true, version := BitVec.ofNat 16 (field img 6 2), digest := patchDigest img
            lastResult := 1 }
          s.each (fins 64) fun a s => s.modSeq a fun q => { q with bank := true }
        else ((s.patchResult r).modPatch fun p => { p with bootInvalid := true }).emit 0x05 0x8002 noSource (pay [(1, r)])
      s.each ((fins 64).filter fun a => (s.seq a).outOfService = false) State.seqRestart
    else s

end Sys2Proof.Machine
end

