-- ==== Sys2Proof/Machine/Service.lean ====
section
/-! DEFINITION. Family Service: service packets, NVMe-MI basic management and MCTP control over the service port, and the update of a
companion's firmware (spec/19 R668 to R683; spec/02 R75; spec/21 R723). -/

namespace Sys2Proof.Machine

/-! ## Requests and replies (R678, R679) -/

/-- The always-on domain is powered, so the service port answers. -/
def State.svcUp (s : State) : Bool := s.aon.hold != .powerOn

/-- Firmware runs. -/
def State.fwRuns (s : State) : Bool := s.aon.hold == .running && s.boot.released

/-- The boot ROM waits for a recovery image: BOOT_SRC is high, or no slot can boot, error 0x08 (spec/02 R75). -/
def State.romWaits (s : State) : Bool :=
  s.aon.hold == .running && s.boot.recoveryWait && !s.boot.released && (s.aon.error == 0 || s.aon.error == 8)

/-- A reply with a status, under the opcode and tag of its request (R678). -/
def State.svcReply (op tag : Byte) (status : Nat) (payload : List Byte) (s : State) : State :=
  s.emitOut (.reply op tag (BitVec.ofNat 8 status) payload)

/-- A request, which takes DRAM out of self-refresh in PS3 (spec/01 R42): status 0x03 while another is being served, 0x04 when what it
needs is not there, 0x02 for an invalid field (R679, Table 19-7). -/
def State.request (op tag : Byte) (need ok : Bool) (k : State → State) (s : State) : State :=
  if s.svcUp = false then s
  else if s.svc.busy.isSome then s.svcReply op tag 0x03 []
  else if need = false then s.svcReply op tag 0x04 []
  else if ok = false then s.svcReply op tag 0x02 []
  else k s.wake

/-! ## The status window -/

/-- Every register of a range is of the always-on domain, or firmware runs (Table 19-8). -/
def State.windowUp (s : State) (off n : Nat) : Bool := s.fwRuns || (Machine.covered off n).all alwaysOn

/-- An access to the window; its reply is given when it completes (spec/14 R532). -/
def State.windowAccess (tag : Byte) (h : Hung) (s : State) : State :=
  (s.modSvc fun v => { v with busy := some tag }).access none h

/-- WINDOW_READ: 4 to 1,024 bytes, a multiple of 4; the counters of the registers read are cleared (R678; spec/14 R523). -/
def execWindowRead (tag : Byte) (off len : Nat) (s : State) : Host.Outcome State Fault Refusal :=
  .next <| s.request 0x01 tag (s.windowUp off len) (len % 4 == 0 && inRange 4 1024 len && off % 4 == 0)
    (State.windowAccess tag { who := .service, off := off, write := none, packet := some (tag, len) })

/-- WINDOW_WRITE: RW1C fields only (spec/11 R409). -/
def execWindowWrite (tag : Byte) (off : Nat) (v : W32) (s : State) : Host.Outcome State Fault Refusal :=
  .next <| s.request 0x02 tag (s.windowUp off 4) (off % 4 == 0)
    (State.windowAccess tag { who := .service, off := off, write := some v, packet := some (tag, 4) })

/-! ## Configuration parameters (R681, Table 19-10) -/

/-- The stored value of a parameter. -/
def ConfigStore.get (c : ConfigStore) : Nat → Option Nat
  | 1 => some c.spinUpGroup
  | 2 => some c.dirtyLimitMib
  | 3 => some c.holdupMs
  | 4 => some c.scrubHours
  | 5 => some (bit c.pairMode)
  | 6 => some c.heartbeatMs
  | 7 => some c.subsystemId.toNat
  | _ => none

/-- A parameter is stored; pair_mode 0 erases the pair identity (spec/18 R625). -/
def ConfigStore.put (id v : Nat) (c : ConfigStore) : ConfigStore :=
  match id with
  | 1 => { c with spinUpGroup := v }
  | 2 => { c with dirtyLimitMib := v }
  | 3 => { c with holdupMs := v }
  | 4 => { c with scrubHours := v }
  | 5 => { c with pairMode := v == 1, pairId := if v = 0 then 0 else c.pairId }
  | 6 => { c with heartbeatMs := v }
  | 7 => { c with subsystemId := BitVec.ofNat 16 v }
  | _ => c

/-- A value in its range; a dirty_limit must leave the map-page area of spec/13 R500, once the capacity is known. -/
def State.configOk (s : State) (id v : Nat) : Bool :=
  match id with
  | 1 => inRange 1 32 v
  | 2 => inRange 256 16384 v && v % 256 == 0 &&
      (s.mem.capacityGib == 0 || decide (v ≤ dirtyLimitMax s.mem.capacityGib s.nor.config.pairMode))
  | 3 => inRange 100 2000 v
  | 4 => inRange 1 168 v
  | 5 => decide (v ≤ 1)
  | 6 => inRange 100 5000 v
  | 7 => decide (v ≤ 0xFFFF)
  | _ => false

/-- The parameters that take effect while the device runs: dirty_limit when it is not above the value in force, holdup_ms,
heartbeat_ms from the next HEARTBEAT (Table 19-10; spec/10 R398). -/
def State.configNow (id v : Nat) (s : State) : State :=
  match id with
  | 2 => if v ≤ s.names.dirtyLimitMib then (s.modNames fun n => { n with dirtyLimitMib := v }).bufferChanged else s
  | 3 => (s.modNames fun n => { n with holdupMs := v }).bufferChanged
  | 6 => s.modPair fun p => { p with heartbeatMs := v }
  | _ => s

/-- CONFIG_READ. -/
def execConfigRead (tag : Byte) (id : Byte) (s : State) : Host.Outcome State Fault Refusal :=
  .next <| match s.nor.config.get id.toNat with
    | some v => s.request 0x03 tag true true (State.svcReply 0x03 tag 0x00 (leBytes 8 v))
    | none => s.request 0x03 tag true false fun s => s

/-- CONFIG_WRITE: checked, stored, recorded and put in force (R681, R682). -/
def execConfigWrite (tag : Byte) (id : Byte) (v : W64) (s : State) : Host.Outcome State Fault Refusal :=
  .next <| s.request 0x04 tag true (s.configOk id.toNat v.toNat) fun s =>
    let old := (s.nor.config.get id.toNat).getD 0
    let s := s.modCfg (ConfigStore.put id.toNat v.toNat)
    let s := s.emit 0x0F 0x8003 noSource (pay [(1, id.toNat), (7, 0), (8, old), (8, v.toNat)])
    let s := s.when s.fwRuns (State.configNow id.toNat v.toNat)
    s.svcReply 0x04 tag 0x00 []

/-! ## Reset, buffer and recovery -/

/-- DEVICE_RESET: taken at any time; the reply goes before the reset begins (R679; spec/02 R55). -/
def execDeviceReset (tag : Byte) (s : State) : Host.Outcome State Fault Refusal :=
  .next <|
    if s.svcUp = false then s
    else ((s.emit 0x0F 0x8001 noSource (pay [(1, tag.toNat)])).svcReply 0x05 tag 0x00 []).warmSource 4

/-- Data of 1 to 4,092 bytes that lie in a buffer of some size. -/
def dataFits (off : Nat) (data : List Byte) (size : Nat) : Bool := inRange 1 4092 data.length && decide (off + data.length ≤ size)

/-- BUFFER_WRITE: into the service buffer of 16 MiB. -/
def execBufferWrite (tag : Byte) (off : Nat) (data : List Byte) (s : State) : Host.Outcome State Fault Refusal :=
  .next <| s.request 0x06 tag s.fwRuns (dataFits off data downloadSize) fun s =>
    (s.modSvc fun v => { v with buffer := bufWrite v.buffer off data }).svcReply 0x06 tag 0x00 []

/-- RECOVERY_WRITE: while the boot ROM waits for an image (spec/02 R75). -/
def execRecoveryWrite (tag : Byte) (off : Nat) (data : List Byte) (s : State) : Host.Outcome State Fault Refusal :=
  .next <| s.request 0x07 tag s.romWaits (dataFits off data downloadSize) fun s =>
    (s.modSvc fun v => { v with recovery := bufWrite v.recovery off data }).svcReply 0x07 tag 0x00 []

/-- RECOVERY_RUN: the image is verified as a slot image is, and runs from SRAM; a refused one gives its code of spec/16 R571
(spec/02 R75). Bring-up goes on, so the error code 0x08 is 0x00 again (Table 2-7; DEDUCED, log 67). The running image is then not from
preferred_slot, so image_fallback is set (Table 2-6; DEDUCED, log 97). Its event is recorded at the release (log 157). -/
def execRecoveryRun (tag : Byte) (len : Nat) (s : State) : Host.Outcome State Fault Refusal :=
  .next <| s.request 0x08 tag s.romWaits (decide (len ≤ downloadSize)) fun s =>
    let s := s.readKeys
    let img := bufRead s.svc.recovery 0 len
    let r := imageCheck s.ident.manifest img
    if r ≠ 0 then s.svcReply 0x08 tag 0x00 (leBytes 1 r)
    else
      let s := s.modAon fun a => { a with recovery := true, attempts := 0, slot := false, error := 0 }
      let s := s.setCause causeFallback
      let s := ((s.measureSelection false true).runImage img).setStep 7
      (s.svcReply 0x08 tag 0x00 (leBytes 1 0)).tryDramFill

/-! ## ADMIN (R680, Table 19-9) -/

/-- The commands that ADMIN carries, within their limits. -/
def adminAllowed (e : SqEntry) : Bool :=
  match e.opcode.toNat with
  | 0xC2 | 0xC4 | 0xC5 | 0xC6 | 0xC9 | 0xCA | 0xCC | 0xCD | 0xCE | 0x10 => true
  | 0xC8 => decide (bits e.cdw13 15 0 ≤ 64)
  | 0x02 => [0x02, 0xC0, 0xC1, 0xC2, 0xC3].contains (bits e.cdw10 7 0)
  | 0x09 | 0x0A => [0xC1, 0xC2, 0xC3, 0xC4].contains (bits e.cdw10 7 0)
  | 0x81 | 0x82 => secp e == 0xF0
  | _ => false

/-- The bytes that a command moves to the controller come from the service buffer at offset 0: of a Security Send and a Patch Load, as
many as dword 11 says; of a Recorder Clear, as many as token_len. -/
def State.adminData (s : State) (e : SqEntry) : List Byte :=
  if e.opcode = 0x81 ∨ e.opcode = 0xCA then bufRead s.svc.buffer 0 (min e.cdw11.toNat downloadSize)
  else if e.opcode = 0xC9 then bufRead s.svc.buffer 0 (bits e.cdw10 15 0)
  else []

/-- ADMIN: the command is given a context, and its completion is the reply (R680). -/
def execAdmin (tag : Byte) (e : SqEntry) (s : State) : Host.Outcome State Fault Refusal :=
  .next <| s.request 0x10 tag s.fwRuns (adminAllowed e) fun s =>
    (s.modSvc fun v => { v with busy := some tag }).addCtx (.service tag) 0 { e with data := s.adminData e } .none

/-! ## Companion firmware (R668 to R671) -/

/-- A stripe that holds a chunk on the port has m chunks missing already (R668 step 1). -/
def State.atLimit (s : State) (p : PortId) : Bool :=
  s.stripes.any fun q => ((List.range q.1.width).any fun j => (s.placeOf q.1 q.2 j).port == p) &&
    decide (q.1.m ≤ (s.missingOf q.1 q.2).length)

/-- COMP_FW: checked, then the port is taken out and unloaded (R668 steps 1 and 2). Only the owner of a trained port that this
controller drives can do it (R671; a port without an obeyed companion, DEDUCED, log 64). -/
def execCompFw (tag : Byte) (p : PortId) (ret force : Bool) (len : Nat) (d : Digest) (s : State) : Host.Outcome State Fault Refusal :=
  .next <| s.request 0x20 tag (s.fwRuns && s.owns p && (s.port p).train == 9 && (s.port p).obeyed) (inRange 1 downloadSize len) fun s =>
    let c : CompFw := { port := p, tag := tag, ret := ret, length := len, digest := d, offset := 0, phase := 0
                        old := BitVec.ofNat 32 (field (s.port p).companion.measure 0 4), unloadAt := none }
    let s := s.modSvc fun v => { v with busy := some tag, comp := some c }
    if force = false ∧ s.atLimit p = true then s.compReply 1
    else
      let s := (s.takeOut p).settle
      if (fins 2).any fun sd => (s.act (actOf p sd)).loaded then s else s.compUnloaded c

/-- An update that ends before its companion runs new firmware: requests of it go, and the port returns when asked to (R669; for result 2,
DEDUCED, log 64). -/
def State.compEnd (c : CompFw) (result : Nat) (s : State) : State :=
  let s := s.modPort c.port fun x => { x with requests := x.requests.filter fun r =>
    r.packet.opcode != 0x40 && r.packet.opcode != 0x41 }
  ((s.compReply result).when c.ret (State.putBack c.port)).settle

/-- The COMP_FW of a port in a phase. -/
def State.compOf (s : State) (p : PortId) (phase : Fin 4) : Option CompFw :=
  s.svc.comp.filter fun c => c.port == p && c.phase == phase

/-- FW_WRITE_RESPONSE: the next packets go; when all are answered, FW_ACTIVATE with the digest; a refusal gives result 2 (R668 steps 3
and 4). -/
def execFwWriteResponse (p : PortId) (s : State) : Host.Outcome State Fault Refusal :=
  .next <| s.takeAnswer p 0x40 fun r k s =>
    let s := (s.answered p r).when (k.status == 3) (State.refusedFenced p)
    match s.compOf p 1 with
    | none => s
    | some c =>
      if k.status ≠ 0 then s.compEnd c 2
      else
        let s := s.fwWrite 32
        match s.compOf p 1 with
        | some c =>
          if c.length ≤ c.offset ∧ ((s.port p).request? 0x40).isNone = true then
            (s.sendRequest p 0x41 (digestBytes c.digest)).modSvc fun v => { v with comp := some { c with phase := 2 } }
          else s
        | none => s

/-- FW_ACTIVATE_RESPONSE: the companion is measured (R668 step 5); after a refusal too, whose digest then differs (R670; DEDUCED,
log 64). -/
def execFwActivateResponse (p : PortId) (s : State) : Host.Outcome State Fault Refusal :=
  .next <| s.takeAnswer p 0x41 fun r k s =>
    let s := (s.answered p r).when (k.status == 3) (State.refusedFenced p)
    match s.compOf p 2 with
    | some c => (s.sendRequest p 0x03 []).modSvc fun v => { v with comp := some { c with phase := 3 } }
    | none => s

/-- COMP_FW_ABANDON: FW_ACTIVATE has not been answered 40 s after the unload: result 3, and no FW_ACTIVATE is sent (R669). An update
whose port has failed since is answered with an internal error (DESIGN CHOICE, log 64). -/
def execCompFwAbandon (s : State) : Host.Outcome State Fault Refusal :=
  .next <|
    match s.svc.comp with
    | none => s
    | some c =>
      match c.unloadAt with
      | none => s
      | some t =>
        if c.phase = 3 then
          if (s.port c.port).train = 0xA then
            ((s.modSvc fun v => { v with comp := none, busy := none, endedAt := s.now }).svcReply 0x20 c.tag 0x06 []).handSend
          else s
        else
          let s := s.at_ (t + 40 * Config.sec)
          let s := s.modPort c.port fun x => { x with
            normal := x.normal.filter fun q => q.2.opcode != 0x41 && q.2.opcode != 0x40 }
          s.compEnd c 3

/-! ## NVMe-MI basic management (R677) -/

/-- Composite temperature in the form of basic management: °C; 0x7F from 127 °C, 0xC4 down from −60 °C. -/
def basicTemp (kelvin : Nat) : Nat :=
  let t : Int := (kelvin : Int) - 273
  if 127 ≤ t then 0x7F else if t ≤ -60 then 0xC4 else unsigned 8 t

/-- Stage Right answers at the second address of Table 19-6, Stage Left and a single configuration at the first (R675). -/
def State.stageRight (s : State) : Bool := s.pair.mode && s.aon.pairSide
def State.mctpAddress (s : State) : BitVec 7 := if s.stageRight then 0x1E else 0x1D
def State.basicAddress (s : State) : BitVec 7 := if s.stageRight then 0x6B else 0x6A

/-- One byte of the packet error code of SMBus: x^8 + x^2 + x + 1, most significant bit first (PRESUMED, log 114). -/
def pecByte (crc b : Byte) : Byte :=
  (List.range 8).foldl (fun c _ => if c.getLsbD 7 then (c <<< 1) ^^^ 0x07 else c <<< 1) (crc ^^^ b)

/-- The packet error code of a message. -/
def pecOf (bs : List Byte) : Byte := bs.foldl pecByte 0

/-- A block read is answered: the code covers the address, the command, the address again to read, and the block (R675). -/
def State.basicReply (code : Byte) (payload : List Byte) (s : State) : State :=
  let w : Byte := BitVec.ofNat 8 (2 * s.basicAddress.toNat)
  s.emitOut (.basic s.basicAddress payload (pecOf ([w, code, w + 1] ++ payload)))

/-- NVME_MI_BASIC_MANAGEMENT: code 0 the status, code 8 the identification, in every state; the layout is that of the NVMe-MI
documents (PRESUMED, log 65). -/
def execNvmeMiBasicManagement (code : Byte) (s : State) : Host.Outcome State Fault Refusal :=
  .next <|
    if s.svcUp = false then s
    else if code = 0 then
      let up (f : Fn) (en : Bool) : Nat := bit (en && !s.perstOf f && (s.fn f).cfgReady)
      let flags := 128 + 64 * bit (!s.boot.complete) + 32 * bit (s.aon.error == 0) + 16 + 8 * up .a s.aon.hostaEn + 4 * up .b s.aon.hostbEn + 3
      let warn := s.criticalWarning .a ||| s.criticalWarning .b
      s.basicReply code (packBytes [(1, 6), (1, flags), (1, 255 - warn % 256), (1, basicTemp s.composite), (1, 0), (2, 0)])
    else if code = 8 then
      s.basicReply code (packBytes [(1, 22), (1, Config.vendorId.toNat / 256), (1, Config.vendorId.toNat % 256)] ++
        ((padTo 4096 (Config.identifyBase 1)).drop 4).take 20)
    else s

/-! ## MCTP control (R676); the layouts are those of the MCTP base specification (PRESUMED, log 65) -/

/-- A response with completion code 0. -/
def State.mctpOk (payload : List Byte) (s : State) : State := if s.svcUp then s.emitOut (.mctp s.mctpAddress (0 :: payload)) else s

/-- SET_ENDPOINT_ID: the null and broadcast identifiers are invalid data. -/
def execSetEndpointId (eid : Byte) (s : State) : Host.Outcome State Fault Refusal :=
  .next <|
    if s.svcUp = false then s
    else if eid = 0 ∨ eid = 0xFF then s.emitOut (.mctp s.mctpAddress [2])
    else (s.modSvc fun v => { v with eid := eid }).mctpOk [0, eid, 0]

/-- GET_ENDPOINT_ID: a simple endpoint. -/
def execGetEndpointId (s : State) : Host.Outcome State Fault Refusal := .next <| s.mctpOk [s.svc.eid, 0, 0]

/-- GET_ENDPOINT_UUID: the subsystem UUID (spec/11 Table 11-4). -/
def execGetEndpointUuid (s : State) : Host.Outcome State Fault Refusal :=
  .next <| s.mctpOk (subsystemUuid s.nor.config.pairId)

/-- GET_MCTP_VERSION_SUPPORT: the count of versions and the versions, which the spec does not name (log 65). -/
def execGetMctpVersionSupport (s : State) : Host.Outcome State Fault Refusal :=
  .next <| s.mctpOk (leBytes 1 (Config.mctpVersions.length / 4) ++ Config.mctpVersions)

/-- GET_MESSAGE_TYPE_SUPPORT: types 0x00 and 0x7E. -/
def execGetMessageTypeSupport (s : State) : Host.Outcome State Fault Refusal := .next <| s.mctpOk [2, 0x00, 0x7E]

/-- GET_VENDOR_DEFINED_MESSAGE_SUPPORT: one set, of the PCI vendor ID. -/
def execGetVendorDefinedMessageSupport (s : State) : Host.Outcome State Fault Refusal :=
  .next <| s.mctpOk ([0xFF, 0x00] ++ packBytes [(1, Config.vendorId.toNat / 256), (1, Config.vendorId.toNat % 256), (2, 0)])

/-- SMBUS_CLOCK_LOW_TIMEOUT: the device releases the bus, at 35 ms always and under 25 ms never (spec/21 R723). -/
def execSmbusClockLowTimeout (lowMs : Nat) (s : State) : Host.Outcome State Fault Refusal :=
  .next <|
    let t := if 25 ≤ lowMs ∧ lowMs < 35 then s.takeFree else s
    if s.svcUp = true ∧ s.pulseSeen lowMs 24 35 Config.smbBand = true then
      t.modSvc fun v => { v with smbReleased := v.smbReleased + 1 }
    else t

end Sys2Proof.Machine
end

