-- ==== Sys2Proof/Machine/PortEvents.lean ====
section
/-! DEFINITION. Family PortEvents: STATUS, hot-remove, the ends of start slots, and boot complete (spec/02 R74, R82, R86; spec/03 R117,
R139, R144; spec/08 R293; spec/09 Table 9-3; spec/19 Table 19-12). -/

namespace Sys2Proof.Machine

/-! ## STATUS -/

/-- A valid hda_temp joins those of the last 16 ms (spec/08 R293). -/
def PortCal.noteTemp (now : Nat) (t : Int) (c : PortCal) : PortCal :=
  { c with temps := (now, t) :: recentTemps now c.temps, lastValid := some now, stale := false }

/-- The rise of cmd_uncorr since the last STATUS, of a trained port: counted, and four within 1 s reset the port (spec/03 R139). In
training state 5 the rises count for its error check (Table 3-12). -/
def State.noteCmdUncorr (p : PortId) (corr total : W32) (s : State) : State :=
  let x := s.port p
  if x.train = 5 then match x.chkBase with
    | none => s.modPort p fun x => { x with chkBase := some (corr, total) }
    | some b => s.modPort p fun x => { x with chkRise := ((corr - b.1).toNat, (total - b.2).toNat) }
  else if x.linked = false then s
  else match x.cmdBase with
    | none => s.modPort p fun x => { x with cmdBase := some total }
    | some b =>
      let rise := (total - b).toNat
      let bad := List.replicate (min rise 4) s.now ++ recent s.now Config.sec x.cmdBadAt
      let s := s.modPort p fun x => { x with cmdBase := some total, cmdUncorr := sat32 x.cmdUncorr rise, cmdBadAt := bad }
      if 4 ≤ bad.length then (s.portReset p).settle else s

/-- What a STATUS says: hda_temp, supply_mv, flags, reserved, cmd_corr, cmd_uncorr, highest token (spec/03 Table 3-8). -/
def State.takeStatus (p : PortId) (k : Packet) (s : State) : State :=
    if k.payload.length ≠ 24 then s
    else
      let temp := field k.payload 0 2
      let flags := field k.payload 4 2
      let token := field k.payload 16 8
      let valid := temp != 0x8000
      let s := s.modPort p fun x => { x with
        hdaTemp := BitVec.ofNat 16 temp, supplyMv := BitVec.ofNat 16 (field k.payload 2 2), flags := BitVec.ofNat 16 flags
        token := BitVec.ofNat 64 token, statusAt := some s.now, tempAt := if valid then some s.now else x.tempAt }
      let s := s.modPair fun q => { q with highest := BitVec.ofNat 63 (max q.highest.toNat (token / 2)) }
      let s := s.when (flags / 128 % 2 == 1) (State.raisePort p 0)
      let s := s.when (flags / 256 % 2 == 1) (State.raiseServo (actOf p 0) 7)
      let s := s.when (flags / 512 % 2 == 1) (State.raiseServo (actOf p 1) 7)
      let s := s.chopperStatus p flags
      let s := s.when valid fun s => (s.modPcal p (PortCal.noteTemp s.now (signed 16 temp))).judgeHda p
      let x := s.port p
      let s := if x.linked = true ∧ x.obeyed = true ∧ x.own.toNat < token then (s.obedienceLost p).settle else s
      s.noteCmdUncorr p (BitVec.ofNat 32 (field k.payload 8 4)) (BitVec.ofNat 32 (field k.payload 12 4))

/-- STATUS: the unsolicited report, or the answer to a STATUS_REQ (spec/03 Table 3-8). -/
def execStatus (p : PortId) (s : State) : Host.Outcome State Fault Refusal :=
  .next <|
    if (s.port p).rx.any fun k => k.opcode == 0xE0 then s.takeRx p 0xE0 (State.takeStatus p)
    else s.takeAnswer p 0x52 fun r k s => (s.answered p r).takeStatus p k

/-! ## Removal (spec/03 R144) -/

/-- A member whose HDA is gone is absent, and Understudy follows rebuild_delay later (spec/09 Table 9-3, R355). -/
def State.memberAbsent (p : PortId) (s : State) : State :=
  if (s.member p).st = .member then
    (((s.watchSpare (State.modMember p fun m => { m with st := .absent, absentAt := s.now })).raiseProt 1 p.val).memberRec p).rebuildWaits
  else s

/-- A full-HDA format of a port whose HDA goes ends failed (spec/19 Table 19-12). -/
def State.formatGone (p : PortId) (s : State) : State :=
  s.each ((s.activeOps 4).filter fun o => o.formatPort == p) fun o s => s.endOp o.handle .failed (Config.failResult o.kind)

/-- A firmware update of a port whose HDA goes ends with result 2 (spec/19 Table 19-12). -/
def State.compGone (p : PortId) (s : State) : State :=
  match s.svc.comp with
  | some c => if c.port = p then s.compReply 2 else s
  | none => s

/-- HOT_REMOVE: presence has been deasserted for `width` ns; one of 1 µs or less is ignored. The command lane stops, the port is reset,
train_state is 0, and the HDA's member is absent (R144). -/
def execHotRemove (p : PortId) (width : Nat) (s : State) : Host.Outcome State Fault Refusal :=
  .next <|
    if width ≤ 1000 ∨ s.pins.prsnt.getLsbD p.val = false then s
    else
      let s := s.modPins fun q => { q with prsnt := clearBit q.prsnt p.val }
      if s.aon.hold ≠ .running then s
      else
        let s := (s.portReset p).modPort p fun x => { x with train := 0, fail := 0, goneAt := s.now, inService := false, startMark := false }
        let s := (s.raisePort p 6).modSpin p fun v => { v with
          rpm := 0, turning := false, st := .stopped, periodNs := 0xFFFFFFFF, levelSet := false, restart := false, parkDue := [] }
        let s := s.each (fins 2) fun sd s => (s.modSeq (actOf p sd) fun q => { q with unwritten := [] }).modAcal (actOf p sd) fun x =>
          { x with heads := x.heads.map fun h => { h with keptReq := [] } }
        (((s.compGone p).formatGone p).memberAbsent p).noteEnded.bufferChanged.settle

/-! ## Start slots (spec/02 R82) -/

/-- The return of a port after a firmware update ends with its start: the packet is answered (spec/19 R668 step 6). -/
def State.compBack (p : PortId) (s : State) : State :=
  if (s.compOf p 3).isSome then s.compReply 0 else s

/-- START_SLOT_FREE: the HDA is in service. -/
def execStartSlotFree (p : PortId) (s : State) : Host.Outcome State Fault Refusal :=
  .next <|
    if (s.spin p).slotAt.isSome = true ∧ (s.port p).inService = true then ((s.freeSlot p).settle).compBack p else s

/-- START_SLOT_TIMEOUT: after 15 s the slot frees; a spindle that has not reached its regulation band has failed to start. -/
def execStartSlotTimeout (p : PortId) (s : State) : Host.Outcome State Fault Refusal :=
  .next <|
    match (s.spin p).slotAt with
    | some t =>
      let s := s.at_ (t + 15 * Config.sec)
      ((if (s.spin p).inReg then (s.freeSlot p).settle else s.startFailure p).compBack p)
    | none => s

/-! ## Boot complete -/

/-- A member whose HDA is not in its port when bring-up ends its port training, or whose port holds another HDA, is absent (spec/09
Table 9-3; DEDUCED, log 66). -/
def State.membersMissing (s : State) : State :=
  s.each (fins 32) fun p s =>
    let x := s.port p
    if s.pins.prsnt.getLsbD p.val = false ∨ (x.train = 9 ∧ x.serial ≠ (s.member p).serial) then s.memberAbsent p else s

/-- BOOT_COMPLETE: step 11, once every port has ended its training (step 10): the slot's attempts are cleared and
CSTS.RDY can be set (spec/02 R74, R86, Table 2-9); with PWRFAIL# asserted, dirty data that DRAM kept is dumped first
(spec/21 R726). -/
def execBootComplete (s : State) : Host.Outcome State Fault Refusal :=
  .next <|
    if s.boot.released ∧ ¬ s.boot.complete ∧ s.allPortsEnded = true then
      let s := (s.setStep 11).modBoot fun b => { b with complete := true, portsEnded := true, portsEndedAt := s.now }
      let s := if s.aon.recovery then s
        else s.writeDir (BootDir.setAttempts s.aon.slot 0)
      let ready (f : HostFn) : HostFn := if f.cc.getLsbD 0 ∧ ¬ f.cfs then { f with rdy := true } else f
      let s := (s.modFn .a ready).modFn .b ready
      let s := s.membersMissing
      let s := s.when (s.pins.pwrfail && s.boot.preserved && s.dirtyBytes != 0) State.startDump
      s.settle
    else s

end Sys2Proof.Machine
end

