-- ==== Sys2Proof/Machine/Dispatch.lean ====
section
/-! DEFINITION. The dispatcher: one arm for each constructor of Instr, each a direct call of its meaning. -/

namespace Sys2Proof.Machine

/-- The effect of a command on everything but the queue (log 1). -/
def exec (i : Instr) (s : State) : Host.Outcome State Fault Refusal :=
  match i with
  | .aonPwrokRise => Sys2Proof.Machine.execAonPwrokRise s
  | .sysPwrokAssert => Sys2Proof.Machine.execSysPwrokAssert s
  | .mainColdResetRelease => Sys2Proof.Machine.execMainColdResetRelease s
  | .sysPwrokDeassert => Sys2Proof.Machine.execSysPwrokDeassert s
  | .brownout => Sys2Proof.Machine.execBrownout s
  | .crystalQualified => Sys2Proof.Machine.execCrystalQualified s
  | .crystalQualifyTimeout => Sys2Proof.Machine.execCrystalQualifyTimeout s
  | .pllLockTimeout => Sys2Proof.Machine.execPllLockTimeout s
  | .bootRomSelfTest pass => Sys2Proof.Machine.execBootRomSelfTest pass s
  | .memoryFillDone mismatch => Sys2Proof.Machine.execMemoryFillDone mismatch s
  | .dramTrainingDone densities ranks => Sys2Proof.Machine.execDramTrainingDone densities ranks s
  | .dramChannelTrainingFail ch => Sys2Proof.Machine.execDramChannelTrainingFail ch s
  | .imageLoaded => Sys2Proof.Machine.execImageLoaded s
  | .attestationKeyDerivation => Sys2Proof.Machine.execAttestationKeyDerivation s
  | .processorsRelease => Sys2Proof.Machine.execProcessorsRelease s
  | .moduleLoad module => Sys2Proof.Machine.execModuleLoad module s
  | .bootComplete => Sys2Proof.Machine.execBootComplete s
  | .watchdogService => Sys2Proof.Machine.execWatchdogService s
  | .watchdogExpiry => Sys2Proof.Machine.execWatchdogExpiry s
  | .refclkLinkCheck locked => Sys2Proof.Machine.execRefclkLinkCheck locked s
  | .perstAssert f width => Sys2Proof.Machine.execPerstAssert f width s
  | .perstDeassert f => Sys2Proof.Machine.execPerstDeassert f s
  | .perstOverlap => Sys2Proof.Machine.execPerstOverlap s
  | .pwrfailDeassert => Sys2Proof.Machine.execPwrfailDeassert s
  | .deferredWarmReset => Sys2Proof.Machine.execDeferredWarmReset s
  | .configRequestReady f => Sys2Proof.Machine.execConfigRequestReady f s
  | .ccEnSet f cc aqa => Sys2Proof.Machine.execCcEnSet f cc aqa s
  | .ccEnClear f => Sys2Proof.Machine.execCcEnClear f s
  | .normalShutdown f => Sys2Proof.Machine.execNormalShutdown f s
  | .abruptShutdown f => Sys2Proof.Machine.execAbruptShutdown f s
  | .functionLevelReset f => Sys2Proof.Machine.execFunctionLevelReset f s
  | .pmcsrD3hot f pmeEn clearPme => Sys2Proof.Machine.execPmcsrD3hot f pmeEn clearPme s
  | .pmcsrD0 f pmeEn clearPme => Sys2Proof.Machine.execPmcsrD0 f pmeEn clearPme s
  | .startSlotGrant => Sys2Proof.Machine.execStartSlotGrant s
  | .startSlotFree p => Sys2Proof.Machine.execStartSlotFree p s
  | .startSlotTimeout p => Sys2Proof.Machine.execStartSlotTimeout p s
  | .ps3Entry => Sys2Proof.Machine.execPs3Entry s
  | .ps3SampleLaneOff p => Sys2Proof.Machine.execPs3SampleLaneOff p s
  | .ps3Exit => Sys2Proof.Machine.execPs3Exit s
  | .dramSelfRefreshExit => Sys2Proof.Machine.execDramSelfRefreshExit s
  | .dramSelfRefreshEntry => Sys2Proof.Machine.execDramSelfRefreshEntry s
  | .powerStateChange => Sys2Proof.Machine.execPowerStateChange s
  | .engineGated e => Sys2Proof.Machine.execEngineGated e s
  | .lineBlockReceived p bytes demod => Sys2Proof.Machine.execLineBlockReceived p bytes demod s
  | .commandLaneBlockSend p => Sys2Proof.Machine.execCommandLaneBlockSend p s
  | .packetResponseTimeout p tag => Sys2Proof.Machine.execPacketResponseTimeout p tag s
  | .status p => Sys2Proof.Machine.execStatus p s
  | .spinEvent p => Sys2Proof.Machine.execSpinEvent p s
  | .regulationRecoveryTimeout p => Sys2Proof.Machine.execRegulationRecoveryTimeout p s
  | .missedCrossing p => Sys2Proof.Machine.execMissedCrossing p s
  | .spindleDriveRepeat p => Sys2Proof.Machine.execSpindleDriveRepeat p s
  | .listenWindowClose p => Sys2Proof.Machine.execListenWindowClose p s
  | .shortBrakeDone p => Sys2Proof.Machine.execShortBrakeDone p s
  | .spindleSenseResponse p => Sys2Proof.Machine.execSpindleSenseResponse p s
  | .spindleSenseRetry p => Sys2Proof.Machine.execSpindleSenseRetry p s
  | .alignmentDone p => Sys2Proof.Machine.execAlignmentDone p s
  | .forcedStep p => Sys2Proof.Machine.execForcedStep p s
  | .spinDown p => Sys2Proof.Machine.execSpinDown p s
  | .spinAlert p => Sys2Proof.Machine.execSpinAlert p s
  | .gateError p => Sys2Proof.Machine.execGateError p s
  | .fenced p => Sys2Proof.Machine.execFenced p s
  | .fenceResponse p => Sys2Proof.Machine.execFenceResponse p s
  | .identReadResponse p => Sys2Proof.Machine.execIdentReadResponse p s
  | .measureReadResponse p => Sys2Proof.Machine.execMeasureReadResponse p s
  | .persReadResponse p => Sys2Proof.Machine.execPersReadResponse p s
  | .persReadRetry p => Sys2Proof.Machine.execPersReadRetry p s
  | .actParkResponse p => Sys2Proof.Machine.execActParkResponse p s
  | .actParkRetry p sd => Sys2Proof.Machine.execActParkRetry p sd s
  | .headConfigResponse p => Sys2Proof.Machine.execHeadConfigResponse p s
  | .fwWriteResponse p => Sys2Proof.Machine.execFwWriteResponse p s
  | .fwActivateResponse p => Sys2Proof.Machine.execFwActivateResponse p s
  | .trainingStatePass p => Sys2Proof.Machine.execTrainingStatePass p s
  | .trainingStateTimeout p => Sys2Proof.Machine.execTrainingStateTimeout p s
  | .hotAdd p => Sys2Proof.Machine.execHotAdd p s
  | .hotRemove p width => Sys2Proof.Machine.execHotRemove p width s
  | .clockPresentSet p toggles => Sys2Proof.Machine.execClockPresentSet p toggles s
  | .clockPresentClear p clocks => Sys2Proof.Machine.execClockPresentClear p clocks s
  | .jointResetRelease p => Sys2Proof.Machine.execJointResetRelease p s
  | .staleCrossing x inFlight => Sys2Proof.Machine.execStaleCrossing x inFlight s
  | .pulseTransfer x pulses => Sys2Proof.Machine.execPulseTransfer x pulses s
  | .servoReload a => Sys2Proof.Machine.execServoReload a s
  | .compensatorEvaluation a => Sys2Proof.Machine.execCompensatorEvaluation a s
  | .seekTimeout a => Sys2Proof.Machine.execSeekTimeout a s
  | .settleTimeout a => Sys2Proof.Machine.execSettleTimeout a s
  | .newTarget a head track => Sys2Proof.Machine.execNewTarget a head track s
  | .descriptorQueued a d => Sys2Proof.Machine.execDescriptorQueued a d s
  | .microwordExecute a parityError => Sys2Proof.Machine.execMicrowordExecute a parityError s
  | .operationTimeout a => Sys2Proof.Machine.execOperationTimeout a s
  | .sequencerFaultReinit a => Sys2Proof.Machine.execSequencerFaultReinit a s
  | .bankSwitch a => Sys2Proof.Machine.execBankSwitch a s
  | .bootPatchLoad => Sys2Proof.Machine.execBootPatchLoad s
  | .bindingRequest a cls => Sys2Proof.Machine.execBindingRequest a cls s
  | .engineReclaim => Sys2Proof.Machine.execEngineReclaim s
  | .backgroundPromotion a => Sys2Proof.Machine.execBackgroundPromotion a s
  | .waitAlarm a => Sys2Proof.Machine.execWaitAlarm a s
  | .sectorDecoded e sector converged => Sys2Proof.Machine.execSectorDecoded e sector converged s
  | .recoveryStep e converged => Sys2Proof.Machine.execRecoveryStep e converged s
  | .recoveryBudgetExpiry e => Sys2Proof.Machine.execRecoveryBudgetExpiry e s
  | .engineFault e => Sys2Proof.Machine.execEngineFault e s
  | .engineSelfTestDone e pass => Sys2Proof.Machine.execEngineSelfTestDone e pass s
  | .encoderReady a => Sys2Proof.Machine.execEncoderReady a s
  | .stagingError a => Sys2Proof.Machine.execStagingError a s
  | .readSpill c => Sys2Proof.Machine.execReadSpill c s
  | .calibrationBreakStart a => Sys2Proof.Machine.execCalibrationBreakStart a s
  | .calibrationPassDone a iters unwritten => Sys2Proof.Machine.execCalibrationPassDone a iters unwritten s
  | .breakAbandon a => Sys2Proof.Machine.execBreakAbandon a s
  | .calibrationRecordWrite a ok => Sys2Proof.Machine.execCalibrationRecordWrite a ok s
  | .calibrationRecordLoad a => Sys2Proof.Machine.execCalibrationRecordLoad a s
  | .temperatureStale p => Sys2Proof.Machine.execTemperatureStale p s
  | .calReconstruct c => Sys2Proof.Machine.execCalReconstruct c s
  | .deferralExpiry => Sys2Proof.Machine.execDeferralExpiry s
  | .destageRow ns zone row => Sys2Proof.Machine.execDestageRow ns zone row s
  | .mediaCacheRowWrite ns zone row => Sys2Proof.Machine.execMediaCacheRowWrite ns zone row s
  | .reconstructRead c lba => Sys2Proof.Machine.execReconstructRead c lba s
  | .rowWriteDone ns zone row => Sys2Proof.Machine.execRowWriteDone ns zone row s
  | .memberFailed p => Sys2Proof.Machine.execMemberFailed p s
  | .memberReturned p => Sys2Proof.Machine.execMemberReturned p s
  | .reallocation group stripe chunk => Sys2Proof.Machine.execReallocation group stripe chunk s
  | .understudyStart => Sys2Proof.Machine.execUnderstudyStart s
  | .sourceRunRead group stripe run unreadable => Sys2Proof.Machine.execSourceRunRead group stripe run unreadable s
  | .stripeCommit group stripe copies => Sys2Proof.Machine.execStripeCommit group stripe copies s
  | .rebuildCheckpoint => Sys2Proof.Machine.execRebuildCheckpoint s
  | .rebuildResume => Sys2Proof.Machine.execRebuildResume s
  | .rebuildBlocked => Sys2Proof.Machine.execRebuildBlocked s
  | .returnPhaseCopy group stripe chunk => Sys2Proof.Machine.execReturnPhaseCopy group stripe chunk s
  | .surfaceScanStrip p slot strip neededReread => Sys2Proof.Machine.execSurfaceScanStrip p slot strip neededReread s
  | .fullHdaFormatBand p d0 d1 => Sys2Proof.Machine.execFullHdaFormatBand p d0 d1 s
  | .sanitizeBand ok => Sys2Proof.Machine.execSanitizeBand ok s
  | .firmwareStagingBlock ok => Sys2Proof.Machine.execFirmwareStagingBlock ok s
  | .cleaning => Sys2Proof.Machine.execCleaning s
  | .reclamation ns => Sys2Proof.Machine.execReclamation ns s
  | .mapPageRead ns page => Sys2Proof.Machine.execMapPageRead ns page s
  | .writePointerRecovery ns zone => Sys2Proof.Machine.execWritePointerRecovery ns zone s
  | .effectiveLimitDrop => Sys2Proof.Machine.execEffectiveLimitDrop s
  | .powerFailDump width => Sys2Proof.Machine.execPowerFailDump width s
  | .dumpEndMark norOk => Sys2Proof.Machine.execDumpEndMark norOk s
  | .dumpRestore indexReadable missing => Sys2Proof.Machine.execDumpRestore indexReadable missing s
  | .mapJournalReplay => Sys2Proof.Machine.execMapJournalReplay s
  | .sqTailDoorbell f q v shadow => Sys2Proof.Machine.execSqTailDoorbell f q v shadow s
  | .cqHeadDoorbell f q v shadow => Sys2Proof.Machine.execCqHeadDoorbell f q v shadow s
  | .invalidDoorbellRegister f q => Sys2Proof.Machine.execInvalidDoorbellRegister f q s
  | .fetchTurn f entries shadow => Sys2Proof.Machine.execFetchTurn f entries shadow s
  | .admission => Sys2Proof.Machine.execAdmission s
  | .applyPoint c data => Sys2Proof.Machine.execApplyPoint c data s
  | .completionPost f shadow => Sys2Proof.Machine.execCompletionPost f shadow s
  | .coalescingTimer f v => Sys2Proof.Machine.execCoalescingTimer f v s
  | .msixUnmask f v => Sys2Proof.Machine.execMsixUnmask f v s
  | .anaChange f group st => Sys2Proof.Machine.execAnaChange f group st s
  | .read c => Sys2Proof.Machine.execRead c s
  | .write c => Sys2Proof.Machine.execWrite c s
  | .writeZeroes c => Sys2Proof.Machine.execWriteZeroes c s
  | .zoneAppend c => Sys2Proof.Machine.execZoneAppend c s
  | .datasetManagement c => Sys2Proof.Machine.execDatasetManagement c s
  | .flush c => Sys2Proof.Machine.execFlush c s
  | .zoneOpen c => Sys2Proof.Machine.execZoneOpen c s
  | .zoneClose c => Sys2Proof.Machine.execZoneClose c s
  | .zoneFinish c => Sys2Proof.Machine.execZoneFinish c s
  | .zoneReset c => Sys2Proof.Machine.execZoneReset c s
  | .zoneOffline c => Sys2Proof.Machine.execZoneOffline c s
  | .setZoneDescriptorExtension c => Sys2Proof.Machine.execSetZoneDescriptorExtension c s
  | .reportZones c => Sys2Proof.Machine.execReportZones c s
  | .extendedReportZones c => Sys2Proof.Machine.execExtendedReportZones c s
  | .namespaceCreate c => Sys2Proof.Machine.execNamespaceCreate c s
  | .namespaceDelete c => Sys2Proof.Machine.execNamespaceDelete c s
  | .formatNvm c => Sys2Proof.Machine.execFormatNvm c s
  | .sanitize c => Sys2Proof.Machine.execSanitize c s
  | .identify c => Sys2Proof.Machine.execIdentify c s
  | .asynchronousEventRequest c => Sys2Proof.Machine.execAsynchronousEventRequest c s
  | .abort c => Sys2Proof.Machine.execAbort c s
  | .createIoSubmissionQueue c => Sys2Proof.Machine.execCreateIoSubmissionQueue c s
  | .createIoCompletionQueue c => Sys2Proof.Machine.execCreateIoCompletionQueue c s
  | .deleteIoSubmissionQueue c => Sys2Proof.Machine.execDeleteIoSubmissionQueue c s
  | .deleteIoCompletionQueue c => Sys2Proof.Machine.execDeleteIoCompletionQueue c s
  | .doorbellBufferConfig c => Sys2Proof.Machine.execDoorbellBufferConfig c s
  | .queueResume c => Sys2Proof.Machine.execQueueResume c s
  | .getFeatures c => Sys2Proof.Machine.execGetFeatures c s
  | .setFeaturesArbitration c => Sys2Proof.Machine.execSetFeaturesArbitration c s
  | .setFeaturesPowerManagement c => Sys2Proof.Machine.execSetFeaturesPowerManagement c s
  | .setFeaturesTemperatureThreshold c => Sys2Proof.Machine.execSetFeaturesTemperatureThreshold c s
  | .setFeaturesVolatileWriteCache c => Sys2Proof.Machine.execSetFeaturesVolatileWriteCache c s
  | .setFeaturesNumberOfQueues c => Sys2Proof.Machine.execSetFeaturesNumberOfQueues c s
  | .setFeaturesInterruptCoalescing c => Sys2Proof.Machine.execSetFeaturesInterruptCoalescing c s
  | .setFeaturesInterruptVectorConfig c => Sys2Proof.Machine.execSetFeaturesInterruptVectorConfig c s
  | .setFeaturesAsyncEventConfig c => Sys2Proof.Machine.execSetFeaturesAsyncEventConfig c s
  | .setFeaturesFreezeOnError c => Sys2Proof.Machine.execSetFeaturesFreezeOnError c s
  | .setFeaturesThrottleGrace c => Sys2Proof.Machine.execSetFeaturesThrottleGrace c s
  | .setFeaturesRebuildShare c => Sys2Proof.Machine.execSetFeaturesRebuildShare c s
  | .setFeaturesConcurrentWriteLimit c => Sys2Proof.Machine.execSetFeaturesConcurrentWriteLimit c s
  | .setFeaturesCalibrationThreshold c => Sys2Proof.Machine.execSetFeaturesCalibrationThreshold c s
  | .getLogPageErrorInformation c => Sys2Proof.Machine.execGetLogPageErrorInformation c s
  | .getLogPageSmartHealth c => Sys2Proof.Machine.execGetLogPageSmartHealth c s
  | .getLogPageCommandsSupported c => Sys2Proof.Machine.execGetLogPageCommandsSupported c s
  | .getLogPageAna c => Sys2Proof.Machine.execGetLogPageAna c s
  | .getLogPagePlaybill c => Sys2Proof.Machine.execGetLogPagePlaybill c s
  | .getLogPagePromptBook c => Sys2Proof.Machine.execGetLogPagePromptBook c s
  | .getLogPageSledHealth c => Sys2Proof.Machine.execGetLogPageSledHealth c s
  | .getLogPagePortInventory c => Sys2Proof.Machine.execGetLogPagePortInventory c s
  | .longOperationStart c => Sys2Proof.Machine.execLongOperationStart c s
  | .longOperationSuspend c => Sys2Proof.Machine.execLongOperationSuspend c s
  | .longOperationResume c => Sys2Proof.Machine.execLongOperationResume c s
  | .longOperationCancel c => Sys2Proof.Machine.execLongOperationCancel c s
  | .longOperationQuery c => Sys2Proof.Machine.execLongOperationQuery c s
  | .longOperationList c => Sys2Proof.Machine.execLongOperationList c s
  | .setRebuildParameters c => Sys2Proof.Machine.execSetRebuildParameters c s
  | .portControlQuery c => Sys2Proof.Machine.execPortControlQuery c s
  | .setSpeedLevel c => Sys2Proof.Machine.execSetSpeedLevel c s
  | .portControlPortReset c => Sys2Proof.Machine.execPortControlPortReset c s
  | .clearFailedMark c => Sys2Proof.Machine.execClearFailedMark c s
  | .clearSpindleFault c => Sys2Proof.Machine.execClearSpindleFault c s
  | .removeFromService c => Sys2Proof.Machine.execRemoveFromService c s
  | .returnToService c => Sys2Proof.Machine.execReturnToService c s
  | .returnActuatorToService c => Sys2Proof.Machine.execReturnActuatorToService c s
  | .calibrationControlQuery c => Sys2Proof.Machine.execCalibrationControlQuery c s
  | .calibrateOneHead c => Sys2Proof.Machine.execCalibrateOneHead c s
  | .calibrationDefer c => Sys2Proof.Machine.execCalibrationDefer c s
  | .calibrationSetParameters c => Sys2Proof.Machine.execCalibrationSetParameters c s
  | .calibrationRestoreHead c => Sys2Proof.Machine.execCalibrationRestoreHead c s
  | .queryPoolParameters c => Sys2Proof.Machine.execQueryPoolParameters c s
  | .engineOffline c => Sys2Proof.Machine.execEngineOffline c s
  | .engineSelfTest c pass => Sys2Proof.Machine.execEngineSelfTest c pass s
  | .engineToService c pass => Sys2Proof.Machine.execEngineToService c pass s
  | .setPoolParameters c => Sys2Proof.Machine.execSetPoolParameters c s
  | .sequencerOffline c => Sys2Proof.Machine.execSequencerOffline c s
  | .sequencerSelfTest c pass => Sys2Proof.Machine.execSequencerSelfTest c pass s
  | .sequencerReinitialise c pass => Sys2Proof.Machine.execSequencerReinitialise c pass s
  | .setSequencerParameters c => Sys2Proof.Machine.execSetSequencerParameters c s
  | .patchLoadFromHost c => Sys2Proof.Machine.execPatchLoadFromHost c s
  | .patchLoadAndStore c norOk => Sys2Proof.Machine.execPatchLoadAndStore c norOk s
  | .patchLoadFromNor c => Sys2Proof.Machine.execPatchLoadFromNor c s
  | .patchClear c => Sys2Proof.Machine.execPatchClear c s
  | .mapCacheQuery c => Sys2Proof.Machine.execMapCacheQuery c s
  | .mapCacheEnable c => Sys2Proof.Machine.execMapCacheEnable c s
  | .mapCacheDisable c => Sys2Proof.Machine.execMapCacheDisable c s
  | .invalidateAll c => Sys2Proof.Machine.execInvalidateAll c s
  | .cleanAll c => Sys2Proof.Machine.execCleanAll c s
  | .preload c => Sys2Proof.Machine.execPreload c s
  | .lock c => Sys2Proof.Machine.execLock c s
  | .unlock c => Sys2Proof.Machine.execUnlock c s
  | .invalidateRange c => Sys2Proof.Machine.execInvalidateRange c s
  | .mapCacheMiss addr write => Sys2Proof.Machine.execMapCacheMiss addr write s
  | .recorderRead c => Sys2Proof.Machine.execRecorderRead c s
  | .recorderClear c => Sys2Proof.Machine.execRecorderClear c s
  | .thermalControlQuery c => Sys2Proof.Machine.execThermalControlQuery c s
  | .excludeSensor c => Sys2Proof.Machine.execExcludeSensor c s
  | .setHdaThresholds c => Sys2Proof.Machine.execSetHdaThresholds c s
  | .pairControlQuery c => Sys2Proof.Machine.execPairControlQuery c s
  | .handOverPorts c => Sys2Proof.Machine.execHandOverPorts c s
  | .pairRelease c => Sys2Proof.Machine.execPairRelease c s
  | .rejoin c => Sys2Proof.Machine.execRejoin c s
  | .setHeartbeatMs c => Sys2Proof.Machine.execSetHeartbeatMs c s
  | .firmwareImageDownload c => Sys2Proof.Machine.execFirmwareImageDownload c s
  | .firmwareCommitStage c => Sys2Proof.Machine.execFirmwareCommitStage c s
  | .firmwareCommitStagePrefer c => Sys2Proof.Machine.execFirmwareCommitStagePrefer c s
  | .firmwareCommitPrefer c => Sys2Proof.Machine.execFirmwareCommitPrefer c s
  | .securityReceiveDirectory c => Sys2Proof.Machine.execSecurityReceiveDirectory c s
  | .securityReceivePlaybill c => Sys2Proof.Machine.execSecurityReceivePlaybill c s
  | .securityReceiveCertificate c => Sys2Proof.Machine.execSecurityReceiveCertificate c s
  | .securityReceiveStages c => Sys2Proof.Machine.execSecurityReceiveStages c s
  | .securitySendNonce c => Sys2Proof.Machine.execSecuritySendNonce c s
  | .quote c => Sys2Proof.Machine.execQuote c s
  | .keyManifestUpdate c norOk => Sys2Proof.Machine.execKeyManifestUpdate c norOk s
  | .playbillSeal norOk => Sys2Proof.Machine.execPlaybillSeal norOk s
  | .addendum norOk => Sys2Proof.Machine.execAddendum norOk s
  | .playbillNorRetry norOk => Sys2Proof.Machine.execPlaybillNorRetry norOk s
  | .norPreErase => Sys2Proof.Machine.execNorPreErase s
  | .eventRecord idx => Sys2Proof.Machine.execEventRecord idx s
  | .recordClose => Sys2Proof.Machine.execRecordClose s
  | .dropWindowEnd => Sys2Proof.Machine.execDropWindowEnd s
  | .storeProgram ok => Sys2Proof.Machine.execStoreProgram ok s
  | .storeErase => Sys2Proof.Machine.execStoreErase s
  | .clearRemoval => Sys2Proof.Machine.execClearRemoval s
  | .heldEventsWrite => Sys2Proof.Machine.execHeldEventsWrite s
  | .sensorConversion t count reading => Sys2Proof.Machine.execSensorConversion t count reading s
  | .rateRisePersist t => Sys2Proof.Machine.execRateRisePersist t s
  | .graceExpiry => Sys2Proof.Machine.execGraceExpiry s
  | .stepRelease => Sys2Proof.Machine.execStepRelease s
  | .thermalRestart => Sys2Proof.Machine.execThermalRestart s
  | .compensationTrim item => Sys2Proof.Machine.execCompensationTrim item s
  | .mr4Poll ch rank rate hot => Sys2Proof.Machine.execMr4Poll ch rank rate hot s
  | .zqCalibration ch => Sys2Proof.Machine.execZqCalibration ch s
  | .dqsOscillatorRead ch count => Sys2Proof.Machine.execDqsOscillatorRead ch count s
  | .sramScrub corrected => Sys2Proof.Machine.execSramScrub corrected s
  | .dramScrub corrected => Sys2Proof.Machine.execDramScrub corrected s
  | .pageRetire page => Sys2Proof.Machine.execPageRetire page s
  | .uncorrectableError r dram addr => Sys2Proof.Machine.execUncorrectableError r dram addr s
  | .instructionFetchTrap page ok => Sys2Proof.Machine.execInstructionFetchTrap page ok s
  | .dmaHalt ch addr sram => Sys2Proof.Machine.execDmaHalt ch addr sram s
  | .rcRegisterRead q off => Sys2Proof.Machine.execRcRegisterRead q off s
  | .loRegisterRead q off => Sys2Proof.Machine.execLoRegisterRead q off s
  | .hiRegisterRead q off => Sys2Proof.Machine.execHiRegisterRead q off s
  | .statusWindowWrite q off v => Sys2Proof.Machine.execStatusWindowWrite q off v s
  | .wingsTraining ok => Sys2Proof.Machine.execWingsTraining ok s
  | .wingsLinkReset => Sys2Proof.Machine.execWingsLinkReset s
  | .retryUnanswered => Sys2Proof.Machine.execRetryUnanswered s
  | .hello m => Sys2Proof.Machine.execHello m s
  | .heartbeatSend => Sys2Proof.Machine.execHeartbeatSend s
  | .heartbeat m => Sys2Proof.Machine.execHeartbeat m s
  | .peerNotAlive => Sys2Proof.Machine.execPeerNotAlive s
  | .formingTimeout => Sys2Proof.Machine.execFormingTimeout s
  | .contend refused => Sys2Proof.Machine.execContend refused s
  | .settlingEnd => Sys2Proof.Machine.execSettlingEnd s
  | .mirror seq ns adm lba data => Sys2Proof.Machine.execMirror seq ns adm lba data s
  | .journal seq r => Sys2Proof.Machine.execJournal seq r s
  | .ack seq => Sys2Proof.Machine.execAck seq s
  | .release seq ns lba nlb => Sys2Proof.Machine.execRelease seq ns lba nlb s
  | .forward seq f sqid e => Sys2Proof.Machine.execForward seq f sqid e s
  | .forwardCpl seq c sct sc dw0 dw1 bytes data => Sys2Proof.Machine.execForwardCpl seq c sct sc dw0 dw1 bytes data s
  | .mediaReq seq a d => Sys2Proof.Machine.execMediaReq seq a d s
  | .mediaData seq req sector data => Sys2Proof.Machine.execMediaData seq req sector data s
  | .mediaDone seq req ok => Sys2Proof.Machine.execMediaDone seq req ok s
  | .handover seq ports groups epoch => Sys2Proof.Machine.execHandover seq ports groups epoch s
  | .retry block => Sys2Proof.Machine.execRetry block s
  | .sync seq ns lba data last => Sys2Proof.Machine.execSync seq ns lba data last s
  | .windowRead tag off len => Sys2Proof.Machine.execWindowRead tag off len s
  | .windowWrite tag off v => Sys2Proof.Machine.execWindowWrite tag off v s
  | .configRead tag id => Sys2Proof.Machine.execConfigRead tag id s
  | .configWrite tag id v => Sys2Proof.Machine.execConfigWrite tag id v s
  | .deviceReset tag => Sys2Proof.Machine.execDeviceReset tag s
  | .bufferWrite tag off data => Sys2Proof.Machine.execBufferWrite tag off data s
  | .recoveryWrite tag off data => Sys2Proof.Machine.execRecoveryWrite tag off data s
  | .recoveryRun tag len => Sys2Proof.Machine.execRecoveryRun tag len s
  | .admin tag e => Sys2Proof.Machine.execAdmin tag e s
  | .compFw tag p ret force len digest => Sys2Proof.Machine.execCompFw tag p ret force len digest s
  | .compFwAbandon => Sys2Proof.Machine.execCompFwAbandon s
  | .nvmeMiBasicManagement code => Sys2Proof.Machine.execNvmeMiBasicManagement code s
  | .setEndpointId eid => Sys2Proof.Machine.execSetEndpointId eid s
  | .getEndpointId => Sys2Proof.Machine.execGetEndpointId s
  | .getEndpointUuid => Sys2Proof.Machine.execGetEndpointUuid s
  | .getMctpVersionSupport => Sys2Proof.Machine.execGetMctpVersionSupport s
  | .getMessageTypeSupport => Sys2Proof.Machine.execGetMessageTypeSupport s
  | .getVendorDefinedMessageSupport => Sys2Proof.Machine.execGetVendorDefinedMessageSupport s
  | .smbusClockLowTimeout lowMs => Sys2Proof.Machine.execSmbusClockLowTimeout lowMs s
  | .aonPwrokDeassert => Sys2Proof.Machine.execAonPwrokDeassert s
  | .testEnChange level => Sys2Proof.Machine.execTestEnChange level s
  | .jtagInstructionLoad idx => Sys2Proof.Machine.execJtagInstructionLoad idx s
  | .dataTransferError c => Sys2Proof.Machine.execDataTransferError c s
  | .namespaceAttachment c => Sys2Proof.Machine.execNamespaceAttachment c s
  | .wingsBlockReceived seq errors fill => Sys2Proof.Machine.execWingsBlockReceived seq errors fill s

end Sys2Proof.Machine
end

