-- ==== Sys2Proof/Machine/Step.lean ====
section
/-! DEFINITION. The step: the front command of the queue, run on the state with the queue's rest. -/

namespace Sys2Proof.Machine

/-- One step: take the command at the front of the queue and run it with the queue's rest; on an empty queue the
device idles and its clock advances by one tick (DESIGN CHOICE, logs 1 and 2). -/
def step (s : State) : Host.Outcome State Fault Refusal :=
  match s.pending with
  | [] => .next (s.idle)
  | c :: rest => exec c { s with pending := rest }

/-- The state with the command that a table word spells put at the front of the queue; no row of the table gives
bits, so the state is unchanged (log 1). -/
def State.withFetchWord (s : State) (nbits w : Nat) : State :=
  match Sys2Proof.decodeTableWord nbits w with
  | some c => { s with pending := c :: s.pending }
  | none => s

end Sys2Proof.Machine
end

