-- ==== Sys2Proof/Machine/Parts.lean ====
section
/-! DEFINITION. The parts of the state by name, and what it means that a command changes no part but those named. -/

namespace Sys2Proof.Machine

/-- The parts of the state: one for each of its fields. -/
inductive Part where
  | now | pins | aon | boot | nor | book | ident | power | fa | fb | ctxs | nextCtx | admission | decisions
  | lastShared | names | prot | ports | spins | acts | seqs | patch | chorus | actCals | portCals | cal | mem | mcache
  | xing | therm | pair | svc | free | out | pending
  deriving DecidableEq, Repr

/-- A part is the same in two states. -/
def State.same (s t : State) : Part → Prop
  | .now => t.now = s.now
  | .pins => t.pins = s.pins
  | .aon => t.aon = s.aon
  | .boot => t.boot = s.boot
  | .nor => t.nor = s.nor
  | .book => t.book = s.book
  | .ident => t.ident = s.ident
  | .power => t.power = s.power
  | .fa => t.fa = s.fa
  | .fb => t.fb = s.fb
  | .ctxs => t.ctxs = s.ctxs
  | .nextCtx => t.nextCtx = s.nextCtx
  | .admission => t.admission = s.admission
  | .decisions => t.decisions = s.decisions
  | .lastShared => t.lastShared = s.lastShared
  | .names => t.names = s.names
  | .prot => t.prot = s.prot
  | .ports => t.ports = s.ports
  | .spins => t.spins = s.spins
  | .acts => t.acts = s.acts
  | .seqs => t.seqs = s.seqs
  | .patch => t.patch = s.patch
  | .chorus => t.chorus = s.chorus
  | .actCals => t.actCals = s.actCals
  | .portCals => t.portCals = s.portCals
  | .cal => t.cal = s.cal
  | .mem => t.mem = s.mem
  | .mcache => t.mcache = s.mcache
  | .xing => t.xing = s.xing
  | .therm => t.therm = s.therm
  | .pair => t.pair = s.pair
  | .svc => t.svc = s.svc
  | .free => t.free = s.free
  | .out => t.out = s.out
  | .pending => t.pending = s.pending

/-- What a main cold reset reaches: all but the always-on domain, the pins and the model's own records (spec/02 Table 2-2). -/
def Part.cleared : List Part :=
  [.boot, .nor, .book, .ident, .power, .fa, .fb, .ctxs, .admission, .decisions, .lastShared, .names, .prot, .ports] ++
  [.spins, .acts, .seqs, .patch, .chorus, .actCals, .portCals, .cal, .mem, .mcache, .xing, .pair, .svc]

/-- No part but those listed has changed. -/
def State.onlyIn (l : List Part) (s t : State) : Prop := ∀ x : Part, x ∉ l → s.same t x

end Sys2Proof.Machine
end

