-- ==== Sys2Proof/Machine/Touches.lean ====
section
/-! DEFINITION. Which parts of the state each command may change: what it does not name, it leaves as it was. -/

namespace Sys2Proof.Machine

/-- The parts of the state that a command may change. The clock only grows and outputs are only added where the list names them; the
queue of commands is in no list. -/
def touches : Instr → List Part
  | .aonPwrokRise => .pins :: .aon :: .therm :: Part.cleared
  | .sysPwrokAssert => [.pins, .aon]
  | .mainColdResetRelease => [.now, .aon, .boot]
  | .sysPwrokDeassert => .pins :: .aon :: Part.cleared
  | .brownout => .pins :: .aon :: Part.cleared
  | .crystalQualified => [.aon]
  | .crystalQualifyTimeout => [.now, .aon, .fa, .fb]
  | .pllLockTimeout => [.now, .aon, .fa, .fb]
  | .bootRomSelfTest _ => [.aon, .boot, .ident, .fa, .fb]
  | .memoryFillDone _ => [.aon, .fa, .fb]
  | .dramTrainingDone _ _ => [.aon, .boot, .ident, .fa, .fb, .names, .mem, .pair]
  | .dramChannelTrainingFail _ => [.aon, .boot, .fa, .fb]
  | .imageLoaded => [.aon, .boot, .nor, .ident, .fa, .fb]
  | .attestationKeyDerivation => [.ident]
  | .processorsRelease =>
    [.pins, .aon, .boot, .nor, .book, .ident, .power, .fa, .fb, .names, .prot, .ports, .seqs, .chorus, .cal, .mem, .therm, .pair]
  | .moduleLoad _ => [.ident]
  | .bootComplete =>
    [.aon, .boot, .nor, .book, .power, .fa, .fb, .ctxs, .decisions, .names, .prot, .ports, .acts, .seqs, .chorus, .actCals, .mem,
     .mcache, .pair, .svc, .free, .out]
  | .watchdogService => [.aon]
  | .watchdogExpiry => .now :: .pins :: .aon :: .free :: Part.cleared
  | .refclkLinkCheck _ =>
    [.now, .pins, .aon, .boot, .nor, .book, .ctxs, .decisions, .prot, .ports, .spins, .acts, .seqs, .chorus, .actCals, .xing, .therm,
     .pair, .svc, .out]
  | .perstAssert _ _ =>
    [.pins, .aon, .nor, .book, .power, .fa, .fb, .ctxs, .decisions, .names, .prot, .ports, .spins, .acts, .seqs, .chorus, .actCals,
     .mem, .mcache, .xing, .pair, .svc, .free, .out]
  | .perstDeassert _ => [.pins, .aon, .fa, .fb]
  | .perstOverlap => .now :: .pins :: .aon :: .free :: Part.cleared
  | .pwrfailDeassert => .pins :: .aon :: .free :: Part.cleared
  | .deferredWarmReset => .now :: .pins :: .aon :: .free :: Part.cleared
  | .configRequestReady _ => [.fa, .fb, .out]
  | .ccEnSet _ _ _ => [.fa, .fb, .xing]
  | .ccEnClear _ =>
    [.aon, .nor, .book, .power, .fa, .fb, .ctxs, .decisions, .names, .prot, .ports, .spins, .acts, .seqs, .chorus, .actCals, .mem,
     .mcache, .xing, .pair, .svc, .free, .out]
  | .normalShutdown _ =>
    [.aon, .nor, .book, .power, .fa, .fb, .ctxs, .decisions, .names, .prot, .ports, .spins, .acts, .seqs, .chorus, .actCals, .mem,
     .mcache, .xing, .pair, .svc, .free, .out]
  | .abruptShutdown _ =>
    [.aon, .nor, .book, .power, .fa, .fb, .ctxs, .decisions, .names, .prot, .ports, .spins, .acts, .seqs, .chorus, .actCals, .mem,
     .mcache, .xing, .pair, .svc, .free, .out]
  | .functionLevelReset _ =>
    [.aon, .nor, .book, .power, .fa, .fb, .ctxs, .decisions, .names, .prot, .ports, .spins, .acts, .seqs, .chorus, .actCals, .mem,
     .mcache, .xing, .pair, .svc, .free, .out]
  | .pmcsrD3hot _ _ _ => [.fa, .fb, .out]
  | .pmcsrD0 _ _ _ =>
    [.aon, .nor, .book, .power, .fa, .fb, .ctxs, .decisions, .names, .prot, .ports, .spins, .acts, .seqs, .chorus, .actCals, .mem,
     .mcache, .pair, .svc, .free, .out]
  | .startSlotGrant => [.aon, .ports, .spins]
  | .startSlotFree _ => [.aon, .book, .power, .names, .prot, .spins, .pair, .svc, .out]
  | .startSlotTimeout _ =>
    [.now, .aon, .nor, .book, .power, .ctxs, .decisions, .names, .prot, .ports, .spins, .acts, .seqs, .chorus, .actCals, .pair, .svc,
     .out]
  | .ps3Entry =>
    [.aon, .nor, .book, .power, .fa, .fb, .ctxs, .decisions, .names, .prot, .ports, .spins, .acts, .seqs, .chorus, .actCals, .mem,
     .mcache, .pair, .svc, .free, .out]
  | .ps3SampleLaneOff _ => [.ports]
  | .ps3Exit =>
    [.aon, .nor, .book, .power, .ctxs, .decisions, .prot, .ports, .spins, .acts, .seqs, .chorus, .actCals, .mem, .pair, .svc, .out]
  | .dramSelfRefreshExit => [.mem]
  | .dramSelfRefreshEntry => [.now, .mem]
  | .powerStateChange => [.aon, .book, .power, .chorus]
  | .engineGated _ => [.aon, .book, .chorus]
  | .lineBlockReceived _ _ _ =>
    [.aon, .boot, .nor, .book, .power, .ctxs, .decisions, .names, .prot, .ports, .spins, .acts, .seqs, .chorus, .actCals, .xing,
     .therm, .pair, .svc, .out]
  | .commandLaneBlockSend _ => [.ports, .chorus, .xing, .out]
  | .packetResponseTimeout _ _ =>
    [.now, .aon, .boot, .nor, .book, .power, .ctxs, .decisions, .names, .prot, .ports, .spins, .acts, .seqs, .chorus, .actCals,
     .xing, .therm, .pair, .svc, .out]
  | .status _ =>
    [.aon, .boot, .nor, .book, .power, .ctxs, .decisions, .names, .prot, .ports, .spins, .acts, .seqs, .chorus, .actCals, .portCals,
     .xing, .therm, .pair, .svc, .out]
  | .spinEvent _ =>
    [.aon, .nor, .book, .power, .ctxs, .decisions, .names, .prot, .ports, .spins, .acts, .seqs, .chorus, .actCals, .mem, .mcache,
     .pair, .svc, .free, .out]
  | .regulationRecoveryTimeout _ =>
    [.now, .aon, .nor, .book, .power, .ctxs, .decisions, .names, .prot, .ports, .spins, .acts, .seqs, .chorus, .actCals, .pair, .svc,
     .out]
  | .missedCrossing _ =>
    [.now, .aon, .nor, .book, .power, .ctxs, .decisions, .names, .prot, .ports, .spins, .acts, .seqs, .chorus, .actCals, .pair, .svc,
     .out]
  | .spindleDriveRepeat _ => [.now, .ports, .spins]
  | .listenWindowClose _ =>
    [.now, .aon, .nor, .book, .power, .ctxs, .decisions, .names, .prot, .ports, .spins, .acts, .seqs, .chorus, .actCals, .pair, .svc,
     .out]
  | .shortBrakeDone _ => [.now, .ports, .spins]
  | .spindleSenseResponse _ =>
    [.aon, .nor, .book, .power, .ctxs, .decisions, .names, .prot, .ports, .spins, .acts, .seqs, .chorus, .actCals, .pair, .svc, .out]
  | .spindleSenseRetry _ => [.now, .ports]
  | .alignmentDone _ => [.now, .ports, .spins]
  | .forcedStep _ =>
    [.now, .aon, .nor, .book, .power, .ctxs, .decisions, .names, .prot, .ports, .spins, .acts, .seqs, .chorus, .actCals, .pair, .svc,
     .out]
  | .spinDown _ => [.aon, .nor, .book, .ctxs, .decisions, .prot, .ports, .spins, .acts, .seqs, .chorus, .actCals, .pair, .svc, .out]
  | .spinAlert _ => [.aon, .nor, .book, .ctxs, .decisions, .prot, .ports, .spins, .acts, .seqs, .chorus, .actCals, .pair, .svc, .out]
  | .gateError _ =>
    [.aon, .nor, .book, .power, .ctxs, .decisions, .names, .prot, .ports, .seqs, .patch, .chorus, .actCals, .pair, .svc, .out]
  | .fenced _ =>
    [.aon, .nor, .book, .power, .fa, .fb, .ctxs, .decisions, .names, .prot, .ports, .spins, .acts, .seqs, .chorus, .actCals, .mem,
     .mcache, .pair, .svc, .free, .out]
  | .fenceResponse _ =>
    [.aon, .boot, .nor, .book, .power, .ctxs, .decisions, .names, .prot, .ports, .spins, .acts, .seqs, .chorus, .actCals, .pair,
     .svc, .out]
  | .identReadResponse _ => [.aon, .boot, .book, .power, .names, .prot, .ports, .pair, .out]
  | .measureReadResponse _ => [.aon, .boot, .book, .ident, .power, .names, .prot, .ports, .spins, .pair, .svc, .out]
  | .persReadResponse _ =>
    [.aon, .nor, .book, .power, .ctxs, .decisions, .names, .prot, .ports, .spins, .acts, .seqs, .chorus, .actCals, .portCals, .pair,
     .svc, .out]
  | .persReadRetry _ => [.now, .ports]
  | .actParkResponse _ =>
    [.aon, .nor, .book, .power, .ctxs, .decisions, .names, .prot, .ports, .spins, .acts, .seqs, .chorus, .actCals, .pair, .svc, .out]
  | .actParkRetry _ _ => [.now, .ports]
  | .headConfigResponse _ =>
    [.aon, .nor, .book, .ctxs, .decisions, .prot, .ports, .spins, .acts, .seqs, .chorus, .actCals, .pair, .svc, .out]
  | .fwWriteResponse _ =>
    [.aon, .nor, .book, .power, .ctxs, .decisions, .names, .prot, .ports, .spins, .acts, .seqs, .chorus, .actCals, .pair, .svc, .out]
  | .fwActivateResponse _ =>
    [.aon, .nor, .book, .ctxs, .decisions, .prot, .ports, .spins, .acts, .seqs, .chorus, .actCals, .pair, .svc, .out]
  | .trainingStatePass _ => [.now, .aon, .boot, .book, .power, .names, .prot, .ports, .pair, .out]
  | .trainingStateTimeout _ => [.now, .aon, .boot, .book, .power, .names, .prot, .ports, .pair, .out]
  | .hotAdd _ => [.pins, .aon, .book, .prot, .ports]
  | .hotRemove _ _ =>
    [.pins, .aon, .boot, .nor, .book, .power, .fa, .fb, .ctxs, .decisions, .names, .prot, .ports, .spins, .acts, .seqs, .chorus,
     .actCals, .mem, .mcache, .xing, .therm, .pair, .svc, .free, .out]
  | .clockPresentSet _ _ =>
    [.aon, .book, .prot, .ports, .spins, .acts, .seqs, .chorus, .actCals, .mem, .mcache, .xing, .therm, .pair, .svc, .out]
  | .clockPresentClear _ _ =>
    [.aon, .boot, .nor, .book, .power, .ctxs, .decisions, .names, .prot, .ports, .spins, .acts, .seqs, .chorus, .actCals, .xing,
     .therm, .pair, .svc, .out]
  | .jointResetRelease _ =>
    [.aon, .book, .prot, .ports, .spins, .acts, .seqs, .chorus, .actCals, .mem, .mcache, .xing, .therm, .pair, .svc, .out]
  | .staleCrossing _ _ => [.aon, .book, .xing]
  | .pulseTransfer _ _ => [.aon, .book, .ports, .xing]
  | .servoReload _ => [.ports, .acts]
  | .compensatorEvaluation _ => [.aon, .book, .power, .names, .prot, .ports, .acts, .seqs, .chorus, .pair, .out]
  | .seekTimeout _ => [.now, .aon, .book, .power, .names, .prot, .ports, .acts, .seqs, .chorus, .pair, .out]
  | .settleTimeout _ => [.now, .aon, .book, .power, .names, .prot, .ports, .acts, .seqs, .chorus, .pair, .out]
  | .newTarget _ _ _ => [.acts]
  | .descriptorQueued _ _ => [.seqs, .chorus, .pair, .out]
  | .microwordExecute _ _ =>
    [.now, .aon, .nor, .book, .power, .ctxs, .decisions, .names, .prot, .ports, .acts, .seqs, .patch, .chorus, .actCals, .pair, .svc,
     .out]
  | .operationTimeout _ =>
    [.now, .aon, .nor, .book, .power, .ctxs, .decisions, .names, .prot, .ports, .seqs, .patch, .chorus, .actCals, .pair, .svc, .out]
  | .sequencerFaultReinit _ =>
    [.aon, .nor, .book, .power, .ctxs, .decisions, .names, .prot, .ports, .seqs, .patch, .chorus, .actCals, .pair, .svc, .out]
  | .bankSwitch _ => [.aon, .book, .seqs, .patch]
  | .bootPatchLoad =>
    [.aon, .boot, .nor, .book, .power, .ctxs, .decisions, .names, .prot, .ports, .seqs, .patch, .chorus, .actCals, .pair, .svc, .out]
  | .bindingRequest _ _ => [.chorus]
  | .engineReclaim => [.aon, .book, .chorus]
  | .backgroundPromotion _ => [.now, .aon, .book, .chorus]
  | .waitAlarm _ => [.now, .aon, .book, .chorus]
  | .sectorDecoded _ _ _ => [.aon, .book, .ctxs, .decisions, .seqs, .chorus, .pair, .svc, .out]
  | .recoveryStep _ _ => [.aon, .book, .ctxs, .decisions, .prot, .seqs, .chorus, .pair, .svc, .out]
  | .recoveryBudgetExpiry _ => [.now, .chorus]
  | .engineFault _ => [.aon, .book, .ports, .seqs, .chorus, .actCals]
  | .engineSelfTestDone _ _ => [.aon, .book, .chorus]
  | .encoderReady _ => [.chorus]
  | .stagingError _ =>
    [.aon, .nor, .book, .power, .ctxs, .decisions, .names, .prot, .ports, .seqs, .patch, .chorus, .actCals, .mem, .pair, .svc, .out]
  | .readSpill _ => [.now, .ctxs, .chorus]
  | .calibrationBreakStart _ => [.acts, .chorus, .actCals]
  | .calibrationPassDone _ _ _ => [.aon, .nor, .book, .ctxs, .decisions, .ports, .acts, .seqs, .chorus, .actCals, .pair, .svc, .out]
  | .breakAbandon _ => [.now, .aon, .nor, .book, .ctxs, .decisions, .ports, .seqs, .chorus, .actCals, .pair, .svc, .out]
  | .calibrationRecordWrite _ _ => [.aon, .book, .actCals, .free]
  | .calibrationRecordLoad _ => [.aon, .book, .actCals]
  | .temperatureStale _ => [.now, .aon, .book, .actCals, .portCals]
  | .calReconstruct _ => [.now, .ctxs, .decisions, .pair, .svc, .out]
  | .deferralExpiry => [.now, .cal]
  | .destageRow _ _ _ => [.names, .pair, .out]
  | .mediaCacheRowWrite _ _ _ =>
    [.aon, .nor, .book, .power, .fa, .fb, .ctxs, .decisions, .names, .prot, .ports, .spins, .acts, .seqs, .chorus, .actCals, .mem,
     .mcache, .pair, .svc, .free, .out]
  | .reconstructRead _ _ => [.ctxs, .decisions, .chorus, .pair, .svc, .out]
  | .rowWriteDone _ _ _ =>
    [.aon, .nor, .book, .power, .fa, .fb, .ctxs, .decisions, .names, .prot, .ports, .spins, .acts, .seqs, .chorus, .actCals, .mem,
     .mcache, .pair, .svc, .free, .out]
  | .memberFailed _ => [.now, .aon, .book, .prot, .pair, .out]
  | .memberReturned _ =>
    [.aon, .nor, .book, .power, .fa, .fb, .ctxs, .decisions, .names, .prot, .ports, .spins, .acts, .seqs, .chorus, .actCals, .mem,
     .mcache, .pair, .svc, .free, .out]
  | .reallocation _ _ _ =>
    [.aon, .nor, .book, .power, .fa, .fb, .ctxs, .decisions, .names, .prot, .ports, .spins, .acts, .seqs, .chorus, .actCals, .mem,
     .mcache, .pair, .svc, .free, .out]
  | .understudyStart => [.now, .aon, .nor, .book, .names, .prot, .mem, .mcache, .pair, .free, .out]
  | .sourceRunRead _ _ _ _ => [.aon, .nor, .book, .ctxs, .decisions, .names, .prot, .mem, .mcache, .pair, .svc, .free, .out]
  | .stripeCommit _ _ _ =>
    [.aon, .nor, .book, .power, .fa, .fb, .ctxs, .decisions, .names, .prot, .ports, .spins, .acts, .seqs, .chorus, .actCals, .mem,
     .mcache, .pair, .svc, .free, .out]
  | .rebuildCheckpoint => [.nor, .prot, .pair, .out]
  | .rebuildResume => [.aon, .nor, .book, .prot, .pair, .out]
  | .rebuildBlocked => [.aon, .nor, .book, .prot]
  | .returnPhaseCopy _ _ _ =>
    [.aon, .nor, .book, .power, .fa, .fb, .ctxs, .decisions, .names, .prot, .ports, .spins, .acts, .seqs, .chorus, .actCals, .mem,
     .mcache, .pair, .svc, .free, .out]
  | .surfaceScanStrip _ _ _ _ =>
    [.aon, .nor, .book, .power, .fa, .fb, .ctxs, .decisions, .names, .prot, .ports, .spins, .acts, .seqs, .chorus, .actCals, .mem,
     .mcache, .pair, .svc, .free, .out]
  | .fullHdaFormatBand _ _ _ => [.aon, .nor, .book, .prot, .seqs, .actCals, .pair, .out]
  | .sanitizeBand _ =>
    [.aon, .nor, .book, .power, .fa, .fb, .ctxs, .decisions, .names, .prot, .ports, .spins, .acts, .seqs, .chorus, .actCals, .mem,
     .mcache, .pair, .svc, .free, .out]
  | .firmwareStagingBlock _ => [.boot, .nor]
  | .cleaning =>
    [.aon, .nor, .book, .power, .fa, .fb, .ctxs, .decisions, .names, .prot, .ports, .spins, .acts, .seqs, .chorus, .actCals, .mem,
     .mcache, .pair, .svc, .free, .out]
  | .reclamation _ =>
    [.aon, .nor, .book, .power, .fa, .fb, .ctxs, .decisions, .names, .prot, .ports, .spins, .acts, .seqs, .chorus, .actCals, .mem,
     .mcache, .pair, .svc, .free, .out]
  | .mapPageRead _ _ => [.ctxs, .decisions, .names, .mem, .mcache, .pair, .svc, .free, .out]
  | .writePointerRecovery _ _ => [.aon, .power, .names, .prot, .pair, .out]
  | .effectiveLimitDrop => [.aon, .book]
  | .powerFailDump _ =>
    [.pins, .aon, .nor, .book, .fa, .fb, .ctxs, .decisions, .names, .prot, .ports, .acts, .seqs, .chorus, .actCals, .mem, .mcache,
     .pair, .svc, .free, .out]
  | .dumpEndMark _ => [.nor, .names, .ports, .spins]
  | .dumpRestore _ _ =>
    [.aon, .boot, .nor, .book, .power, .fa, .fb, .ctxs, .decisions, .names, .prot, .ports, .spins, .acts, .seqs, .chorus, .actCals,
     .mem, .mcache, .pair, .svc, .free, .out]
  | .mapJournalReplay => [.aon, .boot, .book, .power, .names, .prot, .mem, .pair, .out]
  | .sqTailDoorbell _ _ _ _ => [.fa, .fb, .ctxs, .decisions, .xing, .pair, .svc, .out]
  | .cqHeadDoorbell _ _ _ _ => [.fa, .fb, .ctxs, .decisions, .xing, .pair, .svc, .out]
  | .invalidDoorbellRegister _ _ => [.fa, .fb, .ctxs, .decisions, .xing, .pair, .svc, .out]
  | .fetchTurn _ _ _ => [.fa, .fb, .ctxs, .nextCtx, .decisions, .lastShared, .pair, .svc, .out]
  | .admission => [.fa, .fb, .ctxs, .admission, .decisions, .mem, .pair, .svc, .out]
  | .applyPoint _ _ => [.aon, .nor, .book, .ctxs, .decisions, .names, .prot, .mem, .mcache, .pair, .svc, .free, .out]
  | .completionPost _ _ =>
    [.aon, .nor, .book, .power, .fa, .fb, .ctxs, .decisions, .names, .prot, .ports, .spins, .acts, .seqs, .chorus, .actCals, .mem,
     .mcache, .pair, .svc, .free, .out]
  | .coalescingTimer _ _ => [.now, .fa, .fb, .out]
  | .msixUnmask _ _ => [.fa, .fb, .xing, .out]
  | .anaChange _ _ _ => [.fa, .fb, .ctxs, .decisions, .pair, .svc, .out]
  | .read _ => [.aon, .nor, .book, .ctxs, .decisions, .names, .prot, .mem, .mcache, .pair, .svc, .free, .out]
  | .write _ => [.aon, .nor, .book, .ctxs, .decisions, .names, .prot, .mem, .mcache, .pair, .svc, .free, .out]
  | .writeZeroes _ => [.aon, .nor, .book, .ctxs, .decisions, .names, .prot, .mem, .mcache, .pair, .svc, .free, .out]
  | .zoneAppend _ => [.aon, .nor, .book, .ctxs, .decisions, .names, .prot, .mem, .mcache, .pair, .svc, .free, .out]
  | .datasetManagement _ => [.aon, .nor, .book, .ctxs, .decisions, .names, .prot, .mem, .mcache, .pair, .svc, .free, .out]
  | .flush _ => [.ctxs, .decisions, .names, .pair, .svc, .out]
  | .zoneOpen _ => [.aon, .nor, .book, .ctxs, .decisions, .names, .prot, .mem, .mcache, .pair, .svc, .free, .out]
  | .zoneClose _ => [.aon, .nor, .book, .ctxs, .decisions, .names, .prot, .mem, .mcache, .pair, .svc, .free, .out]
  | .zoneFinish _ => [.aon, .nor, .book, .ctxs, .decisions, .names, .prot, .mem, .mcache, .pair, .svc, .free, .out]
  | .zoneReset _ => [.aon, .nor, .book, .ctxs, .decisions, .names, .prot, .mem, .mcache, .pair, .svc, .free, .out]
  | .zoneOffline _ => [.aon, .nor, .book, .ctxs, .decisions, .names, .prot, .mem, .mcache, .pair, .svc, .free, .out]
  | .setZoneDescriptorExtension _ => [.aon, .nor, .book, .ctxs, .decisions, .names, .prot, .mem, .mcache, .pair, .svc, .free, .out]
  | .reportZones _ => [.ctxs, .decisions, .pair, .svc, .out]
  | .extendedReportZones _ => [.ctxs, .decisions, .pair, .svc, .out]
  | .namespaceCreate _ => [.ctxs, .decisions, .names, .prot, .pair, .svc, .out]
  | .namespaceDelete _ => [.aon, .nor, .book, .ctxs, .decisions, .names, .prot, .pair, .svc, .out]
  | .formatNvm _ =>
    [.aon, .nor, .book, .power, .fa, .fb, .ctxs, .decisions, .names, .prot, .ports, .spins, .acts, .seqs, .chorus, .actCals, .mem,
     .mcache, .pair, .svc, .free, .out]
  | .sanitize _ =>
    [.aon, .nor, .book, .power, .fa, .fb, .ctxs, .decisions, .names, .prot, .ports, .spins, .acts, .seqs, .chorus, .actCals, .mem,
     .mcache, .pair, .svc, .free, .out]
  | .identify _ => [.ctxs, .decisions, .pair, .svc, .out]
  | .asynchronousEventRequest _ => [.fa, .fb, .ctxs, .decisions, .pair, .svc, .out]
  | .abort _ => [.ctxs, .decisions, .pair, .svc, .out]
  | .createIoSubmissionQueue _ => [.fa, .fb, .ctxs, .decisions, .pair, .svc, .out]
  | .createIoCompletionQueue _ => [.fa, .fb, .ctxs, .decisions, .pair, .svc, .out]
  | .deleteIoSubmissionQueue _ =>
    [.aon, .nor, .book, .power, .fa, .fb, .ctxs, .decisions, .names, .prot, .ports, .spins, .acts, .seqs, .chorus, .actCals, .mem,
     .mcache, .pair, .svc, .free, .out]
  | .deleteIoCompletionQueue _ => [.fa, .fb, .ctxs, .decisions, .pair, .svc, .out]
  | .doorbellBufferConfig _ => [.fa, .fb, .ctxs, .decisions, .pair, .svc, .out]
  | .queueResume _ => [.fa, .fb, .ctxs, .decisions, .pair, .svc, .out]
  | .getFeatures _ => [.ctxs, .decisions, .pair, .svc, .out]
  | .setFeaturesArbitration _ => [.fa, .fb, .ctxs, .decisions, .pair, .svc, .out]
  | .setFeaturesPowerManagement _ => [.fa, .fb, .ctxs, .decisions, .pair, .svc, .out]
  | .setFeaturesTemperatureThreshold _ => [.fa, .fb, .ctxs, .decisions, .pair, .svc, .out]
  | .setFeaturesVolatileWriteCache _ => [.ctxs, .decisions, .names, .pair, .svc, .out]
  | .setFeaturesNumberOfQueues _ => [.ctxs, .decisions, .pair, .svc, .out]
  | .setFeaturesInterruptCoalescing _ => [.fa, .fb, .ctxs, .decisions, .pair, .svc, .out]
  | .setFeaturesInterruptVectorConfig _ => [.fa, .fb, .ctxs, .decisions, .pair, .svc, .out]
  | .setFeaturesAsyncEventConfig _ => [.fa, .fb, .ctxs, .decisions, .pair, .svc, .out]
  | .setFeaturesFreezeOnError _ => [.nor, .fa, .fb, .ctxs, .decisions, .pair, .svc, .out]
  | .setFeaturesThrottleGrace _ => [.nor, .ctxs, .decisions, .therm, .pair, .svc, .out]
  | .setFeaturesRebuildShare _ => [.nor, .ctxs, .decisions, .chorus, .pair, .svc, .out]
  | .setFeaturesConcurrentWriteLimit _ => [.nor, .power, .ctxs, .decisions, .pair, .svc, .out]
  | .setFeaturesCalibrationThreshold _ => [.aon, .nor, .book, .ctxs, .decisions, .actCals, .cal, .pair, .svc, .out]
  | .getLogPageErrorInformation _ => [.fa, .fb, .ctxs, .decisions, .pair, .svc, .free, .out]
  | .getLogPageSmartHealth _ => [.fa, .fb, .ctxs, .decisions, .pair, .svc, .out]
  | .getLogPageCommandsSupported _ => [.fa, .fb, .ctxs, .decisions, .pair, .svc, .out]
  | .getLogPageAna _ => [.fa, .fb, .ctxs, .decisions, .pair, .svc, .out]
  | .getLogPagePlaybill _ => [.boot, .fa, .fb, .ctxs, .decisions, .pair, .svc, .out]
  | .getLogPagePromptBook _ => [.fa, .fb, .ctxs, .decisions, .pair, .svc, .out]
  | .getLogPageSledHealth _ => [.fa, .fb, .ctxs, .decisions, .pair, .svc, .out]
  | .getLogPagePortInventory _ => [.fa, .fb, .ctxs, .decisions, .pair, .svc, .out]
  | .longOperationStart _ =>
    [.aon, .nor, .book, .power, .fa, .fb, .ctxs, .decisions, .names, .prot, .ports, .spins, .acts, .seqs, .chorus, .actCals, .mem,
     .mcache, .pair, .svc, .free, .out]
  | .longOperationSuspend _ => [.aon, .nor, .book, .ctxs, .decisions, .names, .prot, .mem, .mcache, .pair, .svc, .free, .out]
  | .longOperationResume _ => [.aon, .nor, .book, .ctxs, .decisions, .names, .prot, .mem, .mcache, .pair, .svc, .free, .out]
  | .longOperationCancel _ => [.aon, .nor, .book, .ctxs, .decisions, .names, .prot, .mem, .mcache, .pair, .svc, .free, .out]
  | .longOperationQuery _ => [.aon, .nor, .book, .ctxs, .decisions, .names, .prot, .mem, .mcache, .pair, .svc, .free, .out]
  | .longOperationList _ => [.aon, .nor, .book, .ctxs, .decisions, .names, .prot, .mem, .mcache, .pair, .svc, .free, .out]
  | .setRebuildParameters _ => [.aon, .nor, .book, .ctxs, .decisions, .names, .prot, .mem, .mcache, .pair, .svc, .free, .out]
  | .portControlQuery _ => [.book, .ctxs, .decisions, .ports, .chorus, .mem, .mcache, .xing, .pair, .svc, .out]
  | .setSpeedLevel _ =>
    [.aon, .nor, .book, .power, .ctxs, .decisions, .names, .prot, .ports, .spins, .acts, .seqs, .chorus, .actCals, .pair, .svc, .out]
  | .portControlPortReset _ =>
    [.aon, .boot, .nor, .book, .power, .ctxs, .decisions, .names, .prot, .ports, .spins, .acts, .seqs, .chorus, .actCals, .xing,
     .therm, .pair, .svc, .out]
  | .clearFailedMark _ =>
    [.aon, .nor, .book, .ctxs, .decisions, .prot, .ports, .spins, .acts, .seqs, .chorus, .actCals, .pair, .svc, .out]
  | .clearSpindleFault _ => [.ctxs, .decisions, .ports, .spins, .pair, .svc, .out]
  | .removeFromService _ =>
    [.aon, .nor, .book, .power, .ctxs, .decisions, .names, .prot, .ports, .spins, .acts, .seqs, .chorus, .actCals, .pair, .svc, .out]
  | .returnToService _ => [.aon, .power, .ctxs, .decisions, .names, .prot, .ports, .spins, .acts, .pair, .svc, .out]
  | .returnActuatorToService _ => [.aon, .power, .ctxs, .decisions, .names, .prot, .ports, .acts, .pair, .svc, .out]
  | .calibrationControlQuery _ => [.ctxs, .decisions, .pair, .svc, .free, .out]
  | .calibrateOneHead _ => [.ctxs, .decisions, .pair, .svc, .out]
  | .calibrationDefer _ => [.ctxs, .decisions, .cal, .pair, .svc, .out]
  | .calibrationSetParameters _ => [.nor, .ctxs, .decisions, .cal, .pair, .svc, .out]
  | .calibrationRestoreHead _ => [.aon, .book, .ctxs, .decisions, .actCals, .pair, .svc, .out]
  | .queryPoolParameters _ => [.ctxs, .decisions, .pair, .svc, .out]
  | .engineOffline _ => [.aon, .book, .ctxs, .decisions, .ports, .seqs, .chorus, .actCals, .pair, .svc, .out]
  | .engineSelfTest _ _ => [.aon, .book, .ctxs, .decisions, .chorus, .pair, .svc, .out]
  | .engineToService _ _ => [.aon, .book, .ctxs, .decisions, .chorus, .pair, .svc, .out]
  | .setPoolParameters _ => [.nor, .ctxs, .decisions, .chorus, .pair, .svc, .out]
  | .sequencerOffline _ =>
    [.aon, .nor, .book, .power, .ctxs, .decisions, .names, .prot, .ports, .seqs, .patch, .chorus, .actCals, .pair, .svc, .out]
  | .sequencerSelfTest _ _ =>
    [.aon, .nor, .book, .power, .ctxs, .decisions, .names, .prot, .ports, .seqs, .patch, .chorus, .actCals, .pair, .svc, .out]
  | .sequencerReinitialise _ _ =>
    [.aon, .nor, .book, .power, .ctxs, .decisions, .names, .prot, .ports, .seqs, .patch, .chorus, .actCals, .pair, .svc, .out]
  | .setSequencerParameters _ => [.nor, .ctxs, .decisions, .seqs, .pair, .svc, .out]
  | .patchLoadFromHost _ => [.aon, .boot, .nor, .book, .ident, .ctxs, .decisions, .seqs, .patch, .pair, .svc, .out]
  | .patchLoadAndStore _ _ => [.aon, .boot, .nor, .book, .ident, .ctxs, .decisions, .seqs, .patch, .pair, .svc, .out]
  | .patchLoadFromNor _ => [.aon, .boot, .nor, .book, .ident, .ctxs, .decisions, .seqs, .patch, .pair, .svc, .out]
  | .patchClear _ => [.aon, .book, .ident, .ctxs, .decisions, .seqs, .patch, .pair, .svc, .out]
  | .mapCacheQuery _ => [.ctxs, .decisions, .pair, .svc, .out]
  | .mapCacheEnable _ => [.ctxs, .decisions, .mcache, .pair, .svc, .out]
  | .mapCacheDisable _ => [.ctxs, .decisions, .mcache, .pair, .svc, .out]
  | .invalidateAll _ => [.ctxs, .decisions, .mcache, .pair, .svc, .out]
  | .cleanAll _ => [.ctxs, .decisions, .mcache, .pair, .svc, .out]
  | .preload _ => [.ctxs, .decisions, .names, .mem, .mcache, .pair, .svc, .free, .out]
  | .lock _ => [.ctxs, .decisions, .mcache, .pair, .svc, .out]
  | .unlock _ => [.ctxs, .decisions, .mcache, .pair, .svc, .out]
  | .invalidateRange _ => [.ctxs, .decisions, .mcache, .pair, .svc, .out]
  | .mapCacheMiss _ _ => [.aon, .book, .mem, .mcache, .free]
  | .recorderRead _ => [.boot, .ctxs, .decisions, .pair, .svc, .out]
  | .recorderClear _ => [.aon, .boot, .nor, .book, .ctxs, .decisions, .pair, .svc, .out]
  | .thermalControlQuery _ => [.ctxs, .decisions, .pair, .svc, .out]
  | .excludeSensor _ => [.aon, .book, .ctxs, .decisions, .chorus, .therm, .pair, .svc, .out]
  | .setHdaThresholds _ => [.aon, .nor, .book, .ctxs, .decisions, .actCals, .therm, .pair, .svc, .out]
  | .pairControlQuery _ => [.book, .ctxs, .decisions, .ports, .chorus, .mem, .mcache, .xing, .pair, .svc, .out]
  | .handOverPorts _ =>
    [.aon, .boot, .book, .power, .fa, .fb, .ctxs, .decisions, .names, .prot, .ports, .acts, .seqs, .chorus, .pair, .svc, .out]
  | .pairRelease _ =>
    [.aon, .boot, .book, .power, .fa, .fb, .ctxs, .decisions, .names, .prot, .ports, .acts, .seqs, .chorus, .pair, .svc, .out]
  | .rejoin _ => [.fa, .fb, .ctxs, .decisions, .pair, .svc, .out]
  | .setHeartbeatMs _ => [.nor, .ctxs, .decisions, .pair, .svc, .out]
  | .firmwareImageDownload _ => [.fa, .fb, .ctxs, .decisions, .pair, .svc, .out]
  | .firmwareCommitStage _ => [.nor, .ctxs, .decisions, .pair, .svc, .out]
  | .firmwareCommitStagePrefer _ => [.nor, .ctxs, .decisions, .pair, .svc, .out]
  | .firmwareCommitPrefer _ => [.boot, .nor, .ctxs, .decisions, .pair, .svc, .out]
  | .securityReceiveDirectory _ => [.ctxs, .decisions, .pair, .svc, .out]
  | .securityReceivePlaybill _ => [.boot, .ctxs, .decisions, .pair, .svc, .out]
  | .securityReceiveCertificate _ => [.ctxs, .decisions, .pair, .svc, .out]
  | .securityReceiveStages _ => [.ctxs, .decisions, .pair, .svc, .out]
  | .securitySendNonce _ => [.ident, .ctxs, .decisions, .pair, .svc, .out]
  | .quote _ => [.ident, .ctxs, .decisions, .pair, .svc, .out]
  | .keyManifestUpdate _ _ => [.boot, .nor, .ctxs, .decisions, .pair, .svc, .out]
  | .playbillSeal _ => [.aon, .boot, .nor, .book, .ident, .ports]
  | .addendum _ => [.aon, .boot, .nor, .book, .ident, .ctxs, .decisions, .prot, .ports, .spins, .pair, .svc, .out]
  | .playbillNorRetry _ => [.now, .aon, .boot, .nor, .book, .ident]
  | .norPreErase => [.boot, .nor]
  | .eventRecord _ => [.aon, .book, .fa, .fb]
  | .recordClose => [.now, .book]
  | .dropWindowEnd => [.now, .aon, .book]
  | .storeProgram _ => [.aon, .boot, .nor, .book]
  | .storeErase => [.boot, .nor]
  | .clearRemoval => [.boot, .nor, .book]
  | .heldEventsWrite => [.aon, .boot, .book, .fa, .fb]
  | .sensorConversion _ _ _ => .now :: .pins :: .aon :: .therm :: Part.cleared
  | .rateRisePersist _ => [.now, .aon, .book, .chorus, .therm]
  | .graceExpiry => [.now, .aon, .book, .chorus, .therm]
  | .stepRelease => [.now, .aon, .book, .chorus, .therm]
  | .thermalRestart => [.now, .aon, .boot, .therm]
  | .compensationTrim _ => [.now, .xing, .therm]
  | .mr4Poll _ _ _ _ => [.aon, .book, .mem, .therm]
  | .zqCalibration _ => [.now, .mem]
  | .dqsOscillatorRead _ _ => [.now, .mem]
  | .sramScrub _ => [.aon, .book, .mem]
  | .dramScrub _ => [.aon, .book, .mem, .free]
  | .pageRetire _ => [.aon, .nor, .book, .mem, .free]
  | .uncorrectableError _ _ _ =>
    [.aon, .boot, .nor, .book, .power, .fa, .fb, .ctxs, .decisions, .names, .prot, .ports, .spins, .acts, .seqs, .patch, .chorus,
     .actCals, .mem, .mcache, .xing, .therm, .pair, .svc, .free, .out]
  | .instructionFetchTrap _ _ => [.aon, .book, .ident, .mem]
  | .dmaHalt _ _ _ =>
    [.aon, .nor, .book, .power, .fa, .fb, .ctxs, .decisions, .names, .prot, .ports, .spins, .acts, .seqs, .patch, .chorus, .actCals,
     .mem, .mcache, .pair, .svc, .free, .out]
  | .rcRegisterRead _ _ =>
    [.aon, .book, .prot, .ports, .spins, .acts, .seqs, .chorus, .actCals, .mem, .mcache, .xing, .therm, .pair, .svc, .out]
  | .loRegisterRead _ _ =>
    [.aon, .book, .prot, .ports, .spins, .acts, .seqs, .chorus, .actCals, .mem, .mcache, .xing, .therm, .pair, .svc, .out]
  | .hiRegisterRead _ _ =>
    [.aon, .book, .prot, .ports, .spins, .acts, .seqs, .chorus, .actCals, .mem, .mcache, .xing, .therm, .pair, .svc, .out]
  | .statusWindowWrite _ _ _ =>
    [.aon, .book, .prot, .ports, .spins, .acts, .seqs, .chorus, .actCals, .mem, .mcache, .xing, .therm, .pair, .svc, .out]
  | .wingsTraining _ => [.now, .pair, .out]
  | .wingsLinkReset => [.aon, .book, .xing, .pair]
  | .retryUnanswered => [.now, .aon, .book, .xing, .pair]
  | .hello _ =>
    [.aon, .boot, .nor, .book, .power, .fa, .fb, .ctxs, .decisions, .names, .prot, .ports, .spins, .acts, .seqs, .chorus, .actCals,
     .mem, .mcache, .pair, .svc, .free, .out]
  | .heartbeatSend => [.now, .pair, .out]
  | .heartbeat _ => [.aon, .boot, .book, .power, .fa, .fb, .ctxs, .decisions, .names, .prot, .ports, .xing, .pair, .svc, .out]
  | .peerNotAlive => [.now, .aon, .book, .fa, .fb, .ctxs, .decisions, .pair, .svc, .out]
  | .formingTimeout => [.now, .fa, .fb, .ctxs, .decisions, .pair, .svc, .out]
  | .contend _ =>
    [.aon, .nor, .book, .power, .fa, .fb, .ctxs, .decisions, .names, .prot, .ports, .spins, .acts, .seqs, .chorus, .actCals, .mem,
     .mcache, .pair, .svc, .free, .out]
  | .settlingEnd => [.now, .ctxs, .decisions, .pair, .svc, .out]
  | .mirror _ _ _ _ _ => [.aon, .nor, .book, .mem, .xing, .pair, .free, .out]
  | .journal _ _ => [.aon, .nor, .book, .fa, .fb, .ctxs, .decisions, .names, .prot, .mem, .xing, .pair, .svc, .free, .out]
  | .ack _ =>
    [.aon, .nor, .book, .power, .fa, .fb, .ctxs, .decisions, .names, .prot, .ports, .spins, .acts, .seqs, .chorus, .actCals, .mem,
     .mcache, .pair, .svc, .free, .out]
  | .release _ _ _ _ => [.aon, .nor, .book, .names, .mem, .xing, .pair, .free]
  | .forward _ _ _ _ => [.fa, .fb, .ctxs, .nextCtx, .admission, .decisions, .mem, .xing, .pair, .svc, .out]
  | .forwardCpl _ _ _ _ _ _ _ _ => [.ctxs, .decisions, .xing, .pair, .svc, .out]
  | .mediaReq _ _ _ => [.seqs, .chorus, .xing, .pair, .out]
  | .mediaData _ _ _ _ => [.ctxs, .decisions, .xing, .pair, .svc, .out]
  | .mediaDone _ _ _ => [.ctxs, .prot, .xing, .pair]
  | .handover _ _ _ _ =>
    [.aon, .nor, .book, .power, .fa, .fb, .ctxs, .decisions, .names, .prot, .ports, .spins, .acts, .seqs, .chorus, .actCals, .mem,
     .mcache, .xing, .pair, .svc, .free, .out]
  | .retry _ => [.out]
  | .sync _ _ _ _ _ =>
    [.aon, .nor, .book, .power, .fa, .fb, .ctxs, .decisions, .names, .prot, .ports, .spins, .acts, .seqs, .chorus, .actCals, .mem,
     .mcache, .xing, .pair, .svc, .free, .out]
  | .windowRead _ _ _ =>
    [.aon, .book, .prot, .ports, .spins, .acts, .seqs, .chorus, .actCals, .mem, .mcache, .xing, .therm, .pair, .svc, .out]
  | .windowWrite _ _ _ =>
    [.aon, .book, .prot, .ports, .spins, .acts, .seqs, .chorus, .actCals, .mem, .mcache, .xing, .therm, .pair, .svc, .out]
  | .configRead _ _ => [.mem, .out]
  | .configWrite _ _ _ =>
    [.aon, .nor, .book, .power, .fa, .fb, .ctxs, .decisions, .names, .prot, .ports, .spins, .acts, .seqs, .chorus, .actCals, .mem,
     .mcache, .pair, .svc, .free, .out]
  | .deviceReset _ => .pins :: .aon :: .free :: .out :: Part.cleared
  | .bufferWrite _ _ _ => [.mem, .svc, .out]
  | .recoveryWrite _ _ _ => [.mem, .svc, .out]
  | .recoveryRun _ _ => [.aon, .boot, .book, .ident, .mem, .out]
  | .admin _ _ => [.ctxs, .nextCtx, .mem, .svc, .out]
  | .compFw _ _ _ _ _ _ =>
    [.aon, .nor, .book, .power, .ctxs, .decisions, .names, .prot, .ports, .spins, .acts, .seqs, .chorus, .actCals, .mem, .pair, .svc,
     .out]
  | .compFwAbandon => [.now, .aon, .book, .power, .names, .prot, .ports, .spins, .acts, .pair, .svc, .out]
  | .nvmeMiBasicManagement _ => [.out]
  | .setEndpointId _ => [.svc, .out]
  | .getEndpointId => [.out]
  | .getEndpointUuid => [.out]
  | .getMctpVersionSupport => [.out]
  | .getMessageTypeSupport => [.out]
  | .getVendorDefinedMessageSupport => [.out]
  | .smbusClockLowTimeout _ => [.svc, .free]
  | .aonPwrokDeassert => .pins :: .aon :: .therm :: Part.cleared
  | .testEnChange _ => .pins :: .aon :: Part.cleared
  | .jtagInstructionLoad _ => .pins :: .aon :: .out :: Part.cleared
  | .dataTransferError _ =>
    [.aon, .nor, .book, .power, .fa, .fb, .ctxs, .decisions, .names, .prot, .ports, .spins, .acts, .seqs, .chorus, .actCals, .mem,
     .mcache, .pair, .svc, .free, .out]
  | .namespaceAttachment _ => [.fa, .fb, .ctxs, .decisions, .names, .pair, .svc, .out]
  | .wingsBlockReceived _ _ _ => [.aon, .book, .xing, .pair, .out]

end Sys2Proof.Machine
end

