-- ==== Sys2Proof/Safety.lean ====
section
/-! DEFINITION. What a safe run is, and the invariant that every step keeps. -/

namespace Sys2Proof.Machine

/-- A step answers a next state: it neither faults nor refuses. -/
def goesOn (s : State) : Prop := ∃ t, step s = .next t

/-- A command runs: it answers a next state, and that state has the property. -/
def Does (i : Instr) (s : State) (P : State → Prop) : Prop := ∃ t, exec i s = .next t ∧ P t

/-- The next packet that a port has received is this one, of this opcode (spec/03 R112). -/
def Received (s : State) (p : PortId) (op : Nat) (k : Packet) : Prop := (s.port p).rx.head? = some k ∧ k.opcode.toNat = op

/-- The next packet received answers an outstanding request of an opcode (spec/03 R113, R114). -/
def Answered (s : State) (p : PortId) (op : Nat) (r : Request) (k : Packet) : Prop :=
  Received s p (op + 0x80) k ∧
  ((s.port p).requests.find? fun q => q.packet.opcode.toNat == op && q.packet.tag == k.tag) = some r

/-- A command of a host function is at hand: admitted, not yet run, and of the kind wanted (spec/12 R452). -/
def AtHand (s : State) (c : Nat) (want : Ctx → Bool) (x : Ctx) : Prop :=
  s.ctx? c = some x ∧ x.stage = .admitted ∧ want x = true ∧ ∃ f, x.origin = .host f

/-- A command has ended with this completion: it is decided and waits to be posted (spec/12 R453, R463), or its function is in
D3hot and the completion waits with the data that the host is still owed (spec/11 R444). -/
def EndedWith (t : State) (c : Nat) (x : Ctx) (r : Cpl) : Prop :=
  ∃ y, t.ctx? c = some y ∧ y.cpl = some (x.stamp r) ∧
    (y.stage = .decided ∨ y.stage = .waiting ∧ y.wait = .transfer ∧
      ∃ f, x.origin = .host f ∧ (t.fn f).d3hot = true ∧ ((x.stamp r).bytes ≠ [] ∨ (x.stamp r).blocks ≠ []))

/-- A Wings message of a type (spec/18 Table 18-3). -/
def Out.isWings (type : Byte) : Out → Bool
  | .wings t _ _ _ => t == type
  | _ => false

/-- The newest output is a Wings message of a type. -/
def Sent (t : State) (type : Byte) : Prop := (t.out.head?.any (Out.isWings type)) = true

/-- A run of n steps that never stops. -/
def runs : Nat → State → Prop
  | 0, _ => True
  | n + 1, s => ∃ t, step s = .next t ∧ runs n t

/-- A port in service is trained (spec/01 R23, Table 1-2). -/
def Port.servedTrained (x : Port) : Prop := x.inService = true → x.train = 9

/-- What holds in every state that a step leads to from a state in which it holds. -/
structure State.Inv (s : State) : Prop where
  /-- the control processors are released only with the fill-complete flag set (spec/02 R63) -/
  filled : s.boot.released = true → s.aon.fillComplete = true
  /-- boot complete comes after the release (spec/02 Table 2-9) -/
  complete : s.boot.complete = true → s.boot.released = true
  /-- CSTS.RDY is set only once boot complete is reached (spec/02 Table 2-9 step 11) -/
  ready : (s.fa.rdy = true → s.boot.complete = true) ∧ (s.fb.rdy = true → s.boot.complete = true)
  /-- the memories that are kept as lists of cells are in their canonical form: the service buffer, the recovery image, the two
  download buffers -/
  bufs : bufWf s.svc.buffer = true ∧ bufWf s.svc.recovery = true ∧ bufWf s.fa.download = true ∧ bufWf s.fb.download = true
  /-- a port that is in service is trained -/
  served : ∀ p : PortId, s.ports[p].servedTrained
  /-- the always-on domain holds at most 16 THERM events (spec/17 R607) -/
  therms : s.aon.held.length ≤ 16
  /-- firmware holds at most 1,024 events (spec/17 R732) -/
  holds : s.book.held.length ≤ 1024
  /-- the ring holds at most 16,384 records (spec/17 R601) -/
  ring : s.book.ring.length ≤ 16384
  /-- command contexts have distinct numbers, all given before -/
  ctxs : (s.ctxs.map Ctx.id).Nodup ∧ ∀ x ∈ s.ctxs, x.id < s.nextCtx

end Sys2Proof.Machine
end

