-- ==== Sys2Proof/Certificates/Slice0/Obligations.lean ====
section
/-! DEFINITION. The statements for the provers: one def of type Prop for each. A clause on a command says that from every state that
meets its premises the command answers a next state, and what that state holds. -/

open Sys2Proof Sys2Proof.Machine

/-- A step of a state with a command at the front of its queue is that command run on the state with the queue's rest. -/
def Obligations.StepRunsTheFrontCommand : Prop :=
  (∀ (c : Instr) (q : List Instr) (s : State), step { s with pending := c :: q } = exec c { s with pending := q })

/-- On an empty queue the device idles: its clock advances by one tick and nothing else changes. The model's choice (DESIGN CHOICE, log 2):
spec/01 R31 gives the clock domains and no tick. -/
def Obligations.IdleStep : Prop :=
  (∀ s : State, s.pending = [] → step s = .next { s with now := s.now + Config.tick })

/-- The rows of the table give no bits, so no word spells a command and placing one changes nothing (the model's reading, log 1). -/
def Obligations.TableWordsSpellNothing : Prop :=
  (∀ (nbits w : Nat) (s : State), decodeTableWord nbits w = none ∧ s.withFetchWord nbits w = s)

/-- Right after reset the invariant that every step keeps holds. -/
def Obligations.ResetKeepsInvariant : Prop :=
  (State.reset.Inv)

/-- Right after reset: the power-on reset is over and the device is held in main cold reset, BOOT_RESET_CAUSE reads aon_por alone, nothing
is released, no port is in service, the map cache is disabled and empty, the queue is empty, and every host function is without queues and
not ready (spec/02 R54, R76; spec/13 R513). -/
def Obligations.ResetValues : Prop :=
  (State.reset.aon.hold = .mainCold ∧ State.reset.aon.cause = 1#12 ∧ State.reset.boot.released = false ∧ State.reset.boot.complete = false)
    ∧ (State.reset.mcache.enabled = false ∧ State.reset.mcache.sets = [] ∧ State.reset.pending = [] ∧ State.reset.out = [] ∧
    State.reset.ctxs = []) ∧ (∀ p : PortId, (State.reset.port p).inService = false ∧ (State.reset.port p).obeyed = false ∧ (State.reset.spin
    p).st = .stopped) ∧ (∀ f : Fn, (State.reset.fn f).rdy = false ∧ (State.reset.fn f).cfs = false ∧ (State.reset.fn f).sqs = [] ∧
    (State.reset.fn f).cqs = [])

/-- What the admin commands of a host function do (spec/11 R417 to R419, R427, Tables 11-4, 11-5; spec/12 R461 to R463, R470, R481).
Identify (IDENTIFY) returns the structure that a known CNS names, of them 0x01 the controller and 0x02 the list of active namespaces in
full; where CNS needs a namespace and there is none it ends with Invalid Namespace or Format, with an unknown CNS it is an invalid field.
ASYNCHRONOUS_EVENT_REQUEST is held where nothing waits to be reported; the seventeenth is refused. ABORT reports not aborted, the ninth is
refused. CREATE_IO_SUBMISSION_QUEUE and CREATE_IO_COMPLETION_QUEUE make the queue with the values given; a value that Table 11-5 refuses
ends the command with its status, and so does a completion queue that does not exist, or a vector above 64. With DELETE_IO_SUBMISSION_QUEUE
a queue of which no other command is in the device is gone when the command ends; queue 0 is refused. DELETE_IO_COMPLETION_QUEUE removes a
queue that no submission queue names; one that is named stays, and one that does not exist is refused. DOORBELL_BUFFER_CONFIG sets the
shadow doorbells. QUEUE_RESUME resumes a frozen queue by the count of its entry once log 0x01 has returned it, and by no other count; of a
queue that is not frozen it returns 0. -/
def Obligations.AdminCommands : Prop :=
  (∀ (s : State) (c : Nat) (x : Ctx) (f : Fn), AtHand s c (isAdminOp 0x06) x → x.origin = .host f → bits x.entry.cdw10 7 0 = 1 → Does
    (.identify c) s fun t => EndedWith t c x (Cpl.data (overlay (identifyBase 1 x.entry.nsid.toNat (bits x.entry.cdw11 31 24))
    (s.controllerFields f))) ∧ t.names = s.names) ∧
  (∀ (s : State) (c : Nat) (x : Ctx) (f : Fn), AtHand s c (isAdminOp 0x06) x → x.origin = .host f → bits x.entry.cdw10 7 0 = 2 → Does
    (.identify c) s fun t => EndedWith t c x (Cpl.data (nsidList (s.names.nss.filter fun n => !n.deleting && n.on f) x.entry.nsid.toNat)) ∧
    t.names = s.names) ∧
  (∀ (s : State) (c : Nat) (x : Ctx) (f : Fn), AtHand s c (isAdminOp 0x06) x → x.origin = .host f → knownCns.contains (bits x.entry.cdw10 7
    0) = false → Does (.identify c) s fun t => EndedWith t c x (Cpl.invalid 10 0) ∧ t.names = s.names) ∧
  (∀ (s : State) (c : Nat) (x : Ctx) (f : Fn), AtHand s c (isAdminOp 0x0C) x → x.origin = .host f → (s.fn f).aers.length < 16 → (s.fn
    f).events = [] → Does (.asynchronousEventRequest c) s fun t => ((t.ctx? c).map fun y => (y.stage, y.wait)) = some (.waiting,
    .asyncEvent) ∧ (t.fn f).aers = (s.fn f).aers ++ [c] ∧ t.names = s.names) ∧
  (∀ (s : State) (c : Nat) (x : Ctx) (f : Fn), AtHand s c (isAdminOp 0x0C) x → x.origin = .host f → 16 ≤ (s.fn f).aers.length → Does
    (.asynchronousEventRequest c) s fun t => EndedWith t c x (Cpl.err 0x1 0x05) ∧ (t.fn f).aers = (s.fn f).aers ∧ t.names = s.names) ∧
  (∀ (s : State) (c : Nat) (x : Ctx) (f : Fn), AtHand s c (isAdminOp 0x08) x → x.origin = .host f → s.abortsBefore x < 8 → Does (.abort c) s
    fun t => EndedWith t c x (Cpl.val 1) ∧ t.names = s.names) ∧
  (∀ (s : State) (c : Nat) (x : Ctx) (f : Fn), AtHand s c (isAdminOp 0x01) x → x.origin = .host f → queueBad x.entry ((s.fn f).sq? (qidOf
    x.entry)).isSome (bits (s.fn f).cc 19 16 == 6) = none → bits x.entry.cdw11 31 16 ≠ 0 → ((s.fn f).cq? (bits x.entry.cdw11 31 16)).isSome
    = true → Does (.createIoSubmissionQueue c) s fun t => EndedWith t c x Cpl.ok ∧ (t.fn f).sqs = (s.fn f).sqs ++ [SubQ.fresh (qidOf
    x.entry) (qsizeOf x.entry + 1) (bits x.entry.cdw11 31 16) (Fin.ofNat 4 (bits x.entry.cdw11 2 1))] ∧ (t.fn f).cqs = (s.fn f).cqs ∧
    t.names = s.names) ∧
  (∀ (s : State) (c : Nat) (x : Ctx) (f : Fn), AtHand s c (isAdminOp 0x01) x → x.origin = .host f → queueBad x.entry ((s.fn f).sq? (qidOf
    x.entry)).isSome (bits (s.fn f).cc 19 16 == 6) = none → bits x.entry.cdw11 31 16 ≠ 0 → (s.fn f).cq? (bits x.entry.cdw11 31 16) = none →
    Does (.createIoSubmissionQueue c) s fun t => EndedWith t c x Cpl.cqInvalid ∧ (t.fn f).sqs = (s.fn f).sqs ∧ t.names = s.names) ∧
  (∀ (s : State) (c : Nat) (x : Ctx) (f : Fn) (v : Fin 65), AtHand s c (isAdminOp 0x05) x → x.origin = .host f → queueBad x.entry ((s.fn
    f).cq? (qidOf x.entry)).isSome (bits (s.fn f).cc 23 20 == 4) = none → bits x.entry.cdw11 31 16 = v.val → Does (.createIoCompletionQueue
    c) s fun t => EndedWith t c x Cpl.ok ∧ (t.fn f).cqs = (s.fn f).cqs ++ [CplQ.fresh (qidOf x.entry) (qsizeOf x.entry + 1) v (bits
    x.entry.cdw11 1 1 == 1)] ∧ (t.fn f).sqs = (s.fn f).sqs ∧ t.names = s.names) ∧
  (∀ (s : State) (c : Nat) (x : Ctx) (f : Fn), AtHand s c (isAdminOp 0x05) x → x.origin = .host f → queueBad x.entry ((s.fn f).cq? (qidOf
    x.entry)).isSome (bits (s.fn f).cc 23 20 == 4) = none → 64 < bits x.entry.cdw11 31 16 → Does (.createIoCompletionQueue c) s fun t =>
    EndedWith t c x Cpl.badVector ∧ (t.fn f).cqs = (s.fn f).cqs ∧ t.names = s.names) ∧
  (∀ (s : State) (c : Nat) (x : Ctx) (f : Fn) (y : SubQ), AtHand s c (isAdminOp 0x00) x → x.origin = .host f → s.ctxs = [x] →
    s.power.entering = false → (s.fn f).sq? (qidOf x.entry) = some y → qidOf x.entry ≠ 0 → y.deleting = false → x.sq ≠ qidOf x.entry → Does
    (.deleteIoSubmissionQueue c) s fun t => EndedWith t c x Cpl.ok ∧ (t.fn f).sqs = (s.fn f).sqs.filter (fun z => z.id != qidOf x.entry) ∧
    (t.fn f).cqs = (s.fn f).cqs ∧ t.names = { s.names with firstDue := t.names.firstDue }) ∧
  (∀ (s : State) (c : Nat) (x : Ctx) (f : Fn), AtHand s c (isAdminOp 0x00) x → x.origin = .host f → qidOf x.entry = 0 → Does
    (.deleteIoSubmissionQueue c) s fun t => EndedWith t c x Cpl.badQid ∧ (t.fn f).sqs = (s.fn f).sqs ∧ t.names = s.names) ∧
  (∀ (s : State) (c : Nat) (x : Ctx) (f : Fn), AtHand s c (isAdminOp 0x04) x → x.origin = .host f → qidOf x.entry ≠ 0 → ((s.fn f).cq? (qidOf
    x.entry)).isSome = true → ((s.fn f).sqs.any fun y => y.cq == qidOf x.entry) = false → Does (.deleteIoCompletionQueue c) s fun t =>
    EndedWith t c x Cpl.ok ∧ (t.fn f).cqs = (s.fn f).cqs.filter (fun k => k.id != qidOf x.entry) ∧ (t.fn f).sqs = (s.fn f).sqs ∧ t.names =
    s.names) ∧
  (∀ (s : State) (c : Nat) (x : Ctx) (f : Fn), AtHand s c (isAdminOp 0x04) x → x.origin = .host f → qidOf x.entry ≠ 0 → ((s.fn f).cq? (qidOf
    x.entry)).isSome = true → ((s.fn f).sqs.any fun y => y.cq == qidOf x.entry) = true → Does (.deleteIoCompletionQueue c) s fun t =>
    EndedWith t c x Cpl.badDeletion ∧ (t.fn f).cqs = (s.fn f).cqs ∧ t.names = s.names) ∧
  (∀ (s : State) (c : Nat) (x : Ctx) (f : Fn), AtHand s c (isAdminOp 0x7C) x → x.origin = .host f → Does (.doorbellBufferConfig c) s fun t
    => EndedWith t c x Cpl.ok ∧ (t.fn f).shadow = some (x.entry.prp1, x.entry.prp2) ∧ (t.fn f).sqs = (s.fn f).sqs ∧ t.names = s.names) ∧
  (∀ (s : State) (c : Nat) (x : Ctx) (f : Fn) (y : SubQ), AtHand s c (isAdminOp 0xC1) x → x.origin = .host f → qsizeOf x.entry = 0 → (s.fn
    f).sq? (qidOf x.entry) = some y → qidOf x.entry ≠ 0 → y.deleting = false → y.frozen = true → y.freezeCount = x.entry.cdw12 ++
    x.entry.cdw11 → (s.fn f).returned.contains y.freezeCount = true → Does (.queueResume c) s fun t => EndedWith t c x (Cpl.val 1) ∧ (t.fn
    f).sq? (qidOf x.entry) = some { y with frozen := false } ∧ (t.fn f).cqs = (s.fn f).cqs ∧ t.names = s.names) ∧
  (∀ (s : State) (c : Nat) (x : Ctx) (f : Fn) (y : SubQ), AtHand s c (isAdminOp 0xC1) x → x.origin = .host f → qsizeOf x.entry = 0 → (s.fn
    f).sq? (qidOf x.entry) = some y → qidOf x.entry ≠ 0 → y.deleting = false → y.frozen = true → (y.freezeCount ≠ x.entry.cdw12 ++
    x.entry.cdw11 ∨ (s.fn f).returned.contains y.freezeCount = false) → Does (.queueResume c) s fun t => EndedWith t c x Cpl.seqError ∧
    (t.fn f).sqs = (s.fn f).sqs ∧ t.names = s.names) ∧
  (∀ (s : State) (c : Nat) (x : Ctx) (f : Fn), AtHand s c (isAdminOp 0x08) x → x.origin = .host f → 8 ≤ s.abortsBefore x → Does (.abort c) s
    fun t => EndedWith t c x (Cpl.err 0x1 0x03) ∧ t.names = s.names) ∧
  (∀ (s : State) (c : Nat) (x : Ctx) (f : Fn) (bs : List Byte), AtHand s c (isAdminOp 0x06) x → x.origin = .host f → knownCns.contains (bits
    x.entry.cdw10 7 0) = true → s.identifyData f (bits x.entry.cdw10 7 0) x.entry.nsid.toNat (bits x.entry.cdw11 31 24) (bits x.entry.cdw10
    31 16) = some bs → Does (.identify c) s fun t => EndedWith t c x (Cpl.data bs) ∧ t.names = s.names) ∧
  (∀ (s : State) (c : Nat) (x : Ctx) (f : Fn), AtHand s c (isAdminOp 0x06) x → x.origin = .host f → knownCns.contains (bits x.entry.cdw10 7
    0) = true → s.identifyData f (bits x.entry.cdw10 7 0) x.entry.nsid.toNat (bits x.entry.cdw11 31 24) (bits x.entry.cdw10 31 16) = none →
    Does (.identify c) s fun t => EndedWith t c x Cpl.badNs ∧ t.names = s.names) ∧
  (∀ (s : State) (c : Nat) (x : Ctx) (f : Fn) (r : Cpl), AtHand s c (isAdminOp 0x01) x → x.origin = .host f → queueBad x.entry ((s.fn f).sq?
    (qidOf x.entry)).isSome (bits (s.fn f).cc 19 16 == 6) = some r → Does (.createIoSubmissionQueue c) s fun t => EndedWith t c x r ∧ (t.fn
    f).sqs = (s.fn f).sqs ∧ t.names = s.names) ∧
  (∀ (s : State) (c : Nat) (x : Ctx) (f : Fn) (r : Cpl), AtHand s c (isAdminOp 0x05) x → x.origin = .host f → queueBad x.entry ((s.fn f).cq?
    (qidOf x.entry)).isSome (bits (s.fn f).cc 23 20 == 4) = some r → Does (.createIoCompletionQueue c) s fun t => EndedWith t c x r ∧ (t.fn
    f).cqs = (s.fn f).cqs ∧ t.names = s.names) ∧
  (∀ (s : State) (c : Nat) (x : Ctx) (f : Fn), AtHand s c (isAdminOp 0x04) x → x.origin = .host f → (qidOf x.entry = 0 ∨ (s.fn f).cq? (qidOf
    x.entry) = none) → Does (.deleteIoCompletionQueue c) s fun t => EndedWith t c x Cpl.badQid ∧ (t.fn f).cqs = (s.fn f).cqs ∧ t.names =
    s.names) ∧
  (∀ (s : State) (c : Nat) (x : Ctx) (f : Fn) (y : SubQ), AtHand s c (isAdminOp 0xC1) x → x.origin = .host f → qsizeOf x.entry = 0 → (s.fn
    f).sq? (qidOf x.entry) = some y → qidOf x.entry ≠ 0 → y.deleting = false → y.frozen = false → Does (.queueResume c) s fun t => EndedWith
    t c x (Cpl.val 0) ∧ (t.fn f).sqs = (s.fn f).sqs ∧ t.names = s.names)

/-- What the namespace commands do (spec/10 R369, R371 to R375; spec/12 R455, R475, R476). NAMESPACE_CREATE of what nothing refuses makes a
ready, unattached namespace on whole groups, with the lowest free identifier (the model's choice, log 46), and returns it; a field that is
refused ends it with its status. With NAMESPACE_DELETE a namespace that no other command names is gone, and no other; one that does not
exist is refused. NAMESPACE_ATTACHMENT of the second function alone attaches the namespace to it or detaches it; one that does not exist is
refused. With no other command in the device: FORMAT_NVM of a conventional namespace in the format it has leaves its blocks unmapped and
unbuffered, and where the peer mirrors ends with its acknowledgement of what was sent; SANITIZE begins, and nothing of the user's data stays
buffered or mapped; a second one is a sequence error, another action than 3 an invalid field. -/
def Obligations.NamespaceCommands : Prop :=
  (∀ (s : State) (c : Nat) (x : Ctx) (f : Fn) (k : Nat) (u : State) (gs : List Nat), AtHand s c ((fun x => isAdminOp 0x0D x && bits
    x.entry.cdw10 3 0 == 0)) x → x.origin = .host f → s.createBad (createReq x.entry) = none → k = ceilDiv (createReq x.entry).zones
    s.presentMembers.length → s.allocGroups s.freeNsid ((createReq x.entry).fmt == 1) k = some (u, gs) → Does (.namespaceCreate c) s fun t
    => EndedWith t c x (Cpl.val (BitVec.ofNat 32 s.freeNsid)) ∧ t.names.nss = s.names.nss ++
    [{ nsid := s.freeNsid, zoned := (createReq x.entry).csi == 2, narrow := (createReq x.entry).fmt == 1, nsze := if (createReq x.entry).csi
        == 2 then k * s.presentMembers.length * zoneBlocks ((createReq x.entry).fmt == 1) else (createReq x.entry).nsze, groups := gs, ana2
        := s.newGroup2, attachA := false, attachB := false, deleting := false, backing := none, ready := true }] ∧ t.prot.groups =
    u.prot.groups ∧ t.names.zones = s.names.zones) ∧
  (∀ (s : State) (c : Nat) (x : Ctx) (f : Fn), AtHand s c ((fun x => isAdminOp 0x0D x && bits x.entry.cdw10 3 0 == 1)) x → x.origin = .host
    f → s.ctxs = [x] → x.entry.nsid ≠ 0xFFFFFFFF → (s.names.nss.any fun n => n.nsid == x.entry.nsid.toNat && !n.deleting) = true → Does
    (.namespaceDelete c) s fun t => EndedWith t c x Cpl.ok ∧ t.ns? x.entry.nsid.toNat = none ∧ ∀ k, k ≠ x.entry.nsid.toNat → t.ns? k = s.ns?
    k) ∧
  (∀ (s : State) (c : Nat) (x : Ctx) (f : Fn), AtHand s c ((fun x => isAdminOp 0x0D x && bits x.entry.cdw10 3 0 == 1)) x → x.origin = .host
    f → x.entry.nsid ≠ 0xFFFFFFFF → (s.names.nss.any fun n => n.nsid == x.entry.nsid.toNat && !n.deleting) = false → Does (.namespaceDelete
    c) s fun t => EndedWith t c x Cpl.badNs ∧ t.names = s.names) ∧
  (∀ (s : State) (c : Nat) (x : Ctx) (f : Fn), AtHand s c (isAdminOp 0x15) x → x.origin = .host f → (s.names.nss.any fun y => y.nsid ==
    x.entry.nsid.toNat && !y.deleting) = true → bits x.entry.cdw10 3 0 = 0 → field x.entry.data 0 2 = 1 → field x.entry.data 2 2 = s.cntlid
    .b → s.mirrors = false → (s.fn .b).asyncCfg.getLsbD 8 = false → Does (.namespaceAttachment c) s fun t => EndedWith t c x Cpl.ok ∧
    t.names.nss = mapWhere (fun y => y.nsid == x.entry.nsid.toNat) (fun y => { y with attachB := true }) s.names.nss ∧ t.names.zones =
    s.names.zones) ∧
  (∀ (s : State) (c : Nat) (x : Ctx) (f : Fn) (n : Ns), AtHand s c (isAdminOp 0x80) x → x.origin = .host f → s.ctxs = [x] →
    (s.names.nss.find? fun n => n.nsid == x.entry.nsid.toNat && !n.deleting) = some n → s.ns? x.ns = some n → n.zoned = false → x.update =
    true → bits x.entry.cdw10 3 0 = bit n.narrow → bits x.entry.cdw10 7 5 = 0 → bits x.entry.cdw10 11 9 = 0 → s.mirrors = false → anaBad
    x.ana = none → s.pagesFit x n = true → Does (.formatNvm c) s fun t => EndedWith t c x Cpl.ok ∧ ∀ i < n.nsze, t.mapEntry n.nsid i = 0 ∧
    t.dirty? n.nsid i = none) ∧
  (∀ (s : State) (c : Nat) (x : Ctx) (f : Fn), AtHand s c (isAdminOp 0x84) x → x.origin = .host f → s.ctxs = [x] → x.update = true →
    s.power.entering = false → bits x.entry.cdw10 2 0 = 3 → s.activeOps 2 = [] → s.placeFull 2 = false → Does (.sanitize c) s fun t =>
    EndedWith t c x Cpl.ok ∧ t.names.sanitizing = true ∧ (t.longOps.any fun o => o.kind == 2 && o.st == .running) = true ∧ t.names.buffer =
    [] ∧ t.names.map = [] ∧ t.names.zones = []) ∧
  (∀ (s : State) (c : Nat) (x : Ctx) (f : Fn), AtHand s c (isAdminOp 0x84) x → x.origin = .host f → s.ctxs = [x] → x.update = true →
    s.power.entering = false → bits x.entry.cdw10 2 0 = 3 → s.activeOps 2 ≠ [] → Does (.sanitize c) s fun t => EndedWith t c x Cpl.seqError
    ∧ t.names.sanitizing = s.names.sanitizing ∧ t.names.map = s.names.map ∧ t.longOps = s.longOps) ∧
  (∀ (s : State) (c : Nat) (x : Ctx) (f : Fn) (n : Ns), AtHand s c (isAdminOp 0x80) x → x.origin = .host f → s.ctxs = [x] →
    (s.names.nss.find? fun n => n.nsid == x.entry.nsid.toNat && !n.deleting) = some n → s.ns? x.ns = some n → n.zoned = false → x.update =
    true → bits x.entry.cdw10 3 0 = bit n.narrow → bits x.entry.cdw10 7 5 = 0 → bits x.entry.cdw10 11 9 = 0 → s.mirrors = true → anaBad
    x.ana = none → s.pagesFit x n = true → Does (.formatNvm c) s fun t => (∀ i < n.nsze, t.mapEntry n.nsid i = 0 ∧ t.dirty? n.nsid i = none)
    ∧ (t.pair.msgSeq ≠ s.pair.msgSeq → ((t.ctx? c).map fun y => (y.stage, y.wait)) = some (.waiting, .mirror [t.pair.msgSeq])) ∧
    (t.pair.msgSeq = s.pair.msgSeq → EndedWith t c x Cpl.ok)) ∧
  (∀ (s : State) (c : Nat) (x : Ctx) (f : Fn) (r : Cpl), AtHand s c (fun x => isAdminOp 0x0D x && bits x.entry.cdw10 3 0 == 0) x → x.origin
    = .host f → s.createBad (createReq x.entry) = some r → Does (.namespaceCreate c) s fun t => EndedWith t c x r ∧ t.names = s.names ∧
    t.prot = s.prot) ∧
  (∀ (s : State) (c : Nat) (x : Ctx) (f : Fn), AtHand s c (isAdminOp 0x15) x → x.origin = .host f → (s.names.nss.any fun y => y.nsid ==
    x.entry.nsid.toNat && !y.deleting) = true → bits x.entry.cdw10 3 0 = 1 → field x.entry.data 0 2 = 1 → field x.entry.data 2 2 = s.cntlid
    .b → s.mirrors = false → (s.fn .b).asyncCfg.getLsbD 8 = false → Does (.namespaceAttachment c) s fun t => EndedWith t c x Cpl.ok ∧
    t.names.nss = mapWhere (fun y => y.nsid == x.entry.nsid.toNat) (fun y => { y with attachB := false }) s.names.nss ∧ t.names.zones =
    s.names.zones) ∧
  (∀ (s : State) (c : Nat) (x : Ctx) (f : Fn), AtHand s c (isAdminOp 0x15) x → x.origin = .host f → (s.names.nss.any fun y => y.nsid ==
    x.entry.nsid.toNat && !y.deleting) = false → Does (.namespaceAttachment c) s fun t => EndedWith t c x Cpl.badNs ∧ t.names = s.names) ∧
  (∀ (s : State) (c : Nat) (x : Ctx) (f : Fn), AtHand s c (isAdminOp 0x84) x → x.origin = .host f → s.ctxs = [x] → x.update = true →
    s.power.entering = false → bits x.entry.cdw10 2 0 ≠ 3 → Does (.sanitize c) s fun t => EndedWith t c x (Cpl.invalid 10 0) ∧
    t.names.sanitizing = s.names.sanitizing ∧ t.names.map = s.names.map ∧ t.longOps = s.longOps)

/-- What the power, clock and reset commands do (spec/02 R46, R47, R50, R51, R52, R54 to R58, R76, Tables 2-6, 2-8; spec/20 R701, R702;
spec/21 R712). AON_PWROK_RISE starts the always-on domain anew, in main cold reset, with cause aon_por alone; AON_PWROK_DEASSERT holds it in
power-on reset. SYS_PWROK_ASSERT sets the cause and notes its instant; MAIN_COLD_RESET_RELEASE, with power, crystal and rails good, comes 1
ms later, samples the straps and leaves the reset where a host port is enabled; SYS_PWROK_DEASSERT and BROWNOUT hold the device in main cold
reset, a brownout with its cause and, with SYS_PWROK high, the time of power good anew. CRYSTAL_QUALIFIED and CRYSTAL_QUALIFY_TIMEOUT: the
crystal is good, or error code 0x01 after 50 ms. PLL_LOCK_TIMEOUT stops bring-up with error code 0x02; that CSTS.CFS is set on a link that
is up is the model's reading (log 93). TEST_EN_CHANGE to high, and JTAG_INSTRUCTION_LOAD of EXTEST, hold the device in main cold reset;
TEST_EN low changes nothing else, and IDCODE after BYPASS gives the identification register (log 158) and changes nothing else.
WATCHDOG_SERVICE notes its time, WATCHDOG_EXPIRY resets 2 s after it.
REFCLK_LINK_CHECK: while the clock is found, before release, no port changes; after release a present port without training starts it. Its
loss puts a port in training states 2 to 9 into port reset, failed at the third in 60 s, and one in state 1 back to state 0 (the model's
reading, log 95). PERST_OVERLAP of 100 µs, PWRFAIL_DEASSERT and DEFERRED_WARM_RESET are warm device resets with their causes, while no dump
is written. -/
def Obligations.ResetCommands : Prop :=
  (∀ (s : State), Does (.aonPwrokRise) s fun t => t.pins.aonPwrok = true ∧ t.aon.cause = 1#12 ∧ t.aon.hold = .mainCold ∧ t.boot = Boot.reset
    ∧ t.ctxs = [] ∧ t.nor.slotA = s.nor.slotA ∧ t.nor.slotB = s.nor.slotB ∧ t.pins.sysPwrok = s.pins.sysPwrok) ∧
  (∀ (s : State), Does (.aonPwrokDeassert) s fun t => t.pins.aonPwrok = false ∧ t.aon.hold = .powerOn ∧ t.boot = Boot.reset) ∧
  (∀ (s : State), s.pins.sysPwrok = false → s.aon.hold ≠ .powerOn → Does (.sysPwrokAssert) s fun t => t.pins.sysPwrok = true ∧
    t.aon.cause.getLsbD 1 = true ∧ t.aon.goodSince = some s.now ∧ t.boot = s.boot) ∧
  (∀ (s : State) (n : Nat), s.aon.goodSince = some n → s.aon.hold = .mainCold → s.pins.sysPwrok = true → s.pins.railsOk = true → s.aon.xtal
    = true → s.aon.error = 0 → s.pins.testIdle = true → Does (.mainColdResetRelease) s fun t => n + Config.ms ≤ t.now ∧ t.aon.pairSide =
    s.pins.pairSide ∧ t.aon.bootSrc = s.pins.bootSrc ∧ t.boot.cold = true ∧ ((s.pins.hostaEn || s.pins.hostbEn) = true → t.aon.hold =
    .running)) ∧
  (∀ (s : State), s.aon.hold = .running → Does (.sysPwrokDeassert) s fun t => t.aon.hold = .mainCold ∧ t.boot = Boot.reset ∧ t.ctxs = [] ∧
    t.therm = s.therm) ∧
  (∀ (s : State), s.pins.sysPwrok = true → s.aon.hold = .running → Does (.brownout) s fun t => t.aon.hold = .mainCold ∧ t.aon.cause.getLsbD
    7 = true ∧ t.aon.goodSince = some s.now) ∧
  (∀ (s : State), s.pins.sysPwrok = false → s.aon.hold = .mainCold → Does (.brownout) s fun t => t.aon.hold = .mainCold ∧
    t.aon.cause.getLsbD 7 = true ∧ t.aon.goodSince = none) ∧
  (∀ (s : State), s.aon.hold ≠ .powerOn → Does (.crystalQualified) s fun t => t.aon.xtal = true ∧ t.boot = s.boot) ∧
  (∀ (s : State), s.aon.hold ≠ .powerOn → s.aon.xtal = false → Does (.crystalQualifyTimeout) s fun t => t.aon.error = 0x01 ∧
    t.aon.cause.getLsbD 8 = true ∧ s.aon.riseAt + 50 * Config.ms ≤ t.now) ∧
  (∀ (s : State), s.booting = true → s.boot.cold = true → s.aon.step.toNat < 3 → Does (.pllLockTimeout) s fun t => t.aon.error = 0x02 ∧
    t.fa.cfs = (s.fa.cfs || s.linkUp .a) ∧ t.fb.cfs = (s.fb.cfs || s.linkUp .b)) ∧
  (∀ (s : State), s.aon.hold = .running → Does (.testEnChange true) s fun t => t.pins.testEn = true ∧ t.aon.hold = .mainCold) ∧
  (∀ (s : State), s.aon.hold = .running → Does (.jtagInstructionLoad .extest) s fun t => t.pins.jtag = .extest ∧ t.aon.hold = .mainCold) ∧
  (∀ (s : State), s.aon.dogArmed = true → s.aon.dogStopped = false → Does (.watchdogService) s fun t => t.aon.dogAt = s.now ∧ t.boot =
    s.boot) ∧
  (∀ (s : State), s.aon.dogArmed = true → s.aon.hold = .running → s.names.dumping = false → Does (.watchdogExpiry) s fun t => s.aon.dogAt +
    2 * Config.sec ≤ t.now ∧ t.aon.cause.getLsbD 5 = true ∧ t.boot.released = false ∧ t.ctxs = []) ∧
  (∀ (s : State), s.pins.linkPll = false → s.boot.released = false → Does (.refclkLinkCheck true) s fun t => t.pins.linkPll = true ∧ t.ports
    = s.ports) ∧
  (∀ (s : State) (p : PortId), s.pins.linkPll = true → inRange 2 9 (s.port p).train.val = true → Does (.refclkLinkCheck false) s fun t =>
    t.pins.linkPll = false ∧ (t.port p).inService = false ∧ (t.port p).cmdUp = false ∧ (t.port p).joint = true ∧ ((t.port p).train, (t.port
    p).fail) = (if 3 ≤ (t.port p).resets.length then (0xA, 9) else (0xB, 0)) ∧ t.boot = s.boot) ∧
  (∀ (s : State) (n : Nat), s.aon.overlapAt = some n → s.aon.overlapUsed = false → s.aon.hold = .running → s.names.dumping = false → Does
    (.perstOverlap) s fun t => n + 100 * Config.us ≤ t.now ∧ t.aon.cause.getLsbD 3 = true ∧ t.boot.released = false) ∧
  (∀ (s : State), s.pins.pwrfail = true → s.pins.sysPwrok = true → s.aon.hold = .running → s.names.dumping = false → Does (.pwrfailDeassert)
    s fun t => t.pins.pwrfail = false ∧ t.aon.cause.getLsbD 2 = true ∧ t.boot.released = false) ∧
  (∀ (s : State) (c : Fin 12), s.aon.deferred = [c] → s.aon.hold = .running → s.names.dumping = false → Does (.deferredWarmReset) s fun t =>
    t.aon.cause.getLsbD c.val = true ∧ t.aon.deferred = [] ∧ t.boot.released = false) ∧
  (∀ (s : State) (p : PortId), s.pins.linkPll = true → (s.port p).train = 1 → (s.port p).linked = false → Does (.refclkLinkCheck false) s
    fun t => t.pins.linkPll = false ∧ (t.port p).train = 0 ∧ (t.port p).inService = false) ∧
  (∀ (s : State) (p : PortId), s.pins.linkPll = false → s.boot.released = true → (s.port p).train = 0 → s.pins.prsnt.getLsbD p.val = true →
    Does (.refclkLinkCheck true) s fun t => t.pins.linkPll = true ∧ (t.port p).train = 1 ∧ s.pins.linkCheckAt + Config.sec ≤ t.now) ∧
  (∀ (s : State), s.aon.hold = .running → s.pins.jtag = .bypass → Does (.testEnChange false) s fun t => t.pins.testEn = false ∧ t.aon =
    s.aon ∧ t.boot = s.boot) ∧
  (∀ (s : State), s.aon.hold = .running → s.pins.jtag = .bypass → Does (.jtagInstructionLoad .idcode) s fun t => t.pins.jtag = .idcode ∧
    t.out = .jtagId Config.jtagIdcode :: s.out ∧ t.aon = s.aon ∧ t.boot = s.boot)

/-- What the commands of bring-up do from the boot ROM's self-test to the release of the processors (spec/02 R62, R63, R66, R68, R69, R73 to
R77, Tables 2-7 to 2-9; spec/13 R492; spec/16 R575). BOOT_ROM_SELF_TEST begins the SRAM fill, or stops with error code 0x03.
MEMORY_FILL_DONE sets the flag, or stops with 0x05 (SRAM) or 0x07 (DRAM). DRAM_TRAINING_DONE: eight channels of two ranks of 16 Gbit make 32
GiB; where a rank of channel 2 reports another density, that channel has failed and is retried, and after three retries bring-up stops with
0x06; so does DRAM_CHANNEL_TRAINING_FAIL. IMAGE_LOADED of the slot that R73 chooses: an image that R571 accepts is the image to run, its
slot's attempts are one more, here and in the directory, and it is a fallback where it is not the preferred one; one that it does not accept
is marked bad, with its attempts as they were. With no slot to boot it stops with 0x08 and waits for an image over the service port; with
BOOT_SRC high it waits for one at once. PROCESSORS_RELEASE, with an image, trained and filled memories and a derived key, releases the
processors, arms the watchdog and raises the boot counter. -/
def Obligations.BringUpCommands : Prop :=
  (∀ (s : State), s.booting = true → s.aon.step.toNat < 4 → Does (.bootRomSelfTest true) s fun t => t.aon.step = 4 ∧ t.aon.fill = .sram ∧
    t.aon.fillComplete = false ∧ t.ident.stages[1] = digest Config.fuseBlock) ∧
  (∀ (s : State), s.booting = true → s.aon.step.toNat < 4 → Does (.bootRomSelfTest false) s fun t => t.aon.error = 0x03 ∧ t.aon.step = 3) ∧
  (∀ (s : State), s.booting = true → s.aon.fill = .sram → s.aon.step = 4 → Does (.memoryFillDone false) s fun t => t.aon.fillComplete = true
    ∧ t.aon.fill = .idle ∧ t.aon.step = 5) ∧
  (∀ (s : State), s.booting = true → s.aon.fill = .sram → Does (.memoryFillDone true) s fun t => t.aon.error = 0x05) ∧
  (∀ (s : State), s.booting = true → s.aon.fill = .dram → s.boot.cold = true → Does (.memoryFillDone false) s fun t => t.aon.fillComplete =
    true ∧ t.aon.dramState = 0) ∧
  (∀ (s : State), s.booting = true → s.aon.fill = .dram → Does (.memoryFillDone true) s fun t => t.aon.error = 0x07) ∧
  (∀ (s : State), s.booting = true → s.aon.step = 5 → s.boot.trained = false → s.boot.cold = true → Does (.dramTrainingDone (List.replicate 8 16)
    (List.replicate 8 (some 16))) s fun t => t.boot.trained = true ∧ t.mem.capacityGib = 32 ∧
    t.mem.ranks = 2 ∧ t.aon.step = 6 ∧ t.aon.error = s.aon.error) ∧
  (∀ (s : State), s.booting = true → s.aon.step = 5 → s.boot.trained = false → s.boot.retries[(2 : Fin 8)] < 3 → Does (.dramTrainingDone
    (List.replicate 8 16) [some 16, some 16, some 24, some 16, some 16, some 16, some 16, some 16]) s fun t => t.boot.trained = false ∧ t.boot.retries[(2
    : Fin 8)] = s.boot.retries[(2 : Fin 8)] + 1 ∧ t.aon = s.aon) ∧
  (∀ (s : State) (ch : Fin 8), s.booting = true → s.aon.step = 5 → s.boot.trained = false → s.boot.retries[ch] < 3 → Does
    (.dramChannelTrainingFail ch) s fun t => t.boot.retries[ch] = s.boot.retries[ch] + 1 ∧ t.aon = s.aon) ∧
  (∀ (s : State) (ch : Fin 8), s.booting = true → s.aon.step = 5 → s.boot.trained = false → s.boot.retries[ch] = 3 → Does
    (.dramChannelTrainingFail ch) s fun t => t.aon.error = 0x06) ∧
  (∀ (s : State) (k : Bool), s.booting = true → 5 ≤ s.aon.step.toNat → s.boot.imageOk = false → s.boot.recoveryWait = false → s.aon.bootSrc
    = false → s.nor.dir.candidate = some k → s.nor.dir.sequence.toNat + 1 < 2 ^ 32 → Does (.imageLoaded) s fun t => (imageCheck
    s.readKeys.ident.manifest (s.nor.slotOf k) = 0 → t.boot.imageOk = true ∧ t.boot.image = (s.nor.slotOf k).take (imageLength (s.nor.slotOf
    k)) ∧ t.aon.slot = k ∧ t.aon.recovery = false ∧ t.nor.dir.attemptsOf k = s.nor.dir.attemptsOf k + 1 ∧ t.aon.attempts = BitVec.ofNat 4
    (s.nor.dir.attemptsOf k + 1) ∧ 7 ≤ t.aon.step.toNat ∧ (k ≠ s.nor.dir.preferred → t.aon.cause.getLsbD 9 = true) ∧ t.aon.error =
    s.aon.error) ∧ (imageCheck s.readKeys.ident.manifest (s.nor.slotOf k) ≠ 0 → t.nor.dir.stateOf k = 2 ∧ t.nor.dir.attemptsOf k =
    s.nor.dir.attemptsOf k ∧ t.boot.imageOk = false ∧ t.aon.attempts = s.aon.attempts) ∧ t.nor.slotA = s.nor.slotA ∧ t.nor.slotB =
    s.nor.slotB) ∧
  (∀ (s : State), s.booting = true → s.aon.step = 6 → s.boot.imageOk = false → s.boot.recoveryWait = false → s.aon.bootSrc = false →
    s.nor.dir.candidate = none → Does (.imageLoaded) s fun t => t.aon.error = 0x08 ∧ t.boot.recoveryWait = true ∧ t.boot.imageOk = false) ∧
  (∀ (s : State), s.booting = true → s.boot.imageOk = true → s.boot.trained = true → s.aon.fillComplete = true → s.aon.fill = .idle →
    s.aon.dramState ≠ 3 → s.ident.keyReady = true → Does (.processorsRelease) s fun t => t.boot.released = true ∧ t.boot.releaseAt = s.now ∧
    t.aon.dogArmed = true ∧ t.aon.dogAt = s.now ∧ t.ident.bootCounter = BitVec.ofNat 64 (max s.nor.bootCounter.toNat s.newestCounter + 1)) ∧
  (∀ (s : State), s.booting = true → 5 ≤ s.aon.step.toNat → s.boot.imageOk = false → s.boot.recoveryWait = false → s.aon.bootSrc = true →
    Does (.imageLoaded) s fun t => t.boot.recoveryWait = true ∧ t.boot.imageOk = false ∧ t.aon = s.aon ∧ t.nor = s.nor) ∧
  (∀ (s : State), s.booting = true → s.aon.step = 5 → s.boot.trained = false → s.boot.retries[(2 : Fin 8)] = 3 → Does (.dramTrainingDone
    (List.replicate 8 16) [some 16, some 16, some 24, some 16, some 16, some 16, some 16, some 16]) s fun t => t.boot.trained = false ∧ t.aon.error = 0x06
    ∧ t.booting = false)

/-- What the calibration commands do (spec/08 R296 to R309, R313). CALIBRATION_BREAK_START takes the head and zone that R300 chooses, at the
filtered temperature, with the interpolated values. CALIBRATION_PASS_DONE of a write pass leads to the read pass of its track with the
sectors not written; of the last pass of a triggered break that has not failed it commits: T_cal is the break's temperature. BREAK_ABANDON,
250 ms after the break began, counts it and keeps its first request time. HEAD_CONFIG_RESPONSE in time clears the count of late ones; a late
one is counted, its values are no longer known to be held, and the operation of its actuator ends. CALIBRATION_RECORD_WRITE, on an HDA that
is not held, takes the working tables into the newest copy, or fails with its event and the older copy kept. CALIBRATION_RECORD_LOAD with no
valid copy takes the entries of table 0x0005. TEMPERATURE_STALE: with no valid temperature for 60 s the port's mark is set. DEFERRAL_EXPIRY
ends the deferral at its time. -/
def Obligations.CalibrationCommands : Prop :=
  (∀ (s : State) (a : ActId) (kd : BreakKind) (h : Fin 12) (z : Fin 32) (n : Nat) (v : Five), s.mayBreak a = true → s.breakFor a = some (kd,
    h, z, n) → ((fins 64).any fun b => s.mayBreak b && decide (s.breakRank a < s.breakRank b)) = false → s.headValues a h z (s.tf (portOf
    a)) = some v → Does (.calibrationBreakStart a) s fun t => ((t.acal a).brk.map fun b => (b.head, b.zone, b.tb, b.pass)) = some (h, z,
    s.tf (portOf a), 1) ∧ ((t.acal a).brk.map fun b => (b.chosen, b.at_, b.begun)) = some (v, s.now, false) ∧ ∀ b, b ≠ a → t.acal b = s.acal
    b) ∧
  (∀ (s : State) (a : ActId) (tb : CalTable) (fm : FormatTable) (b : Break) (l : List (Option Nat)) (un : List Nat), (s.pcal (portOf
    a)).table = some tb → (s.acal a).brk = some b → (s.pcal (portOf a)).format = some fm → b.pass = 1 → Does (.calibrationPassDone a l un) s
    fun t => ((t.acal a).brk.map fun y => (y.pass, y.unwritten, y.begun)) = some (2, un, false) ∧ ((t.acal a).brk.map fun y => (y.head,
    y.zone, y.chosen)) = some (b.head, b.zone, b.chosen) ∧ (t.acal a).committed = (s.acal a).committed) ∧
  (∀ (s : State) (a : ActId) (tb : CalTable) (fm : FormatTable) (b : Break) (l : List (Option Nat)) (un : List Nat), (s.pcal (portOf
    a)).table = some tb → (s.acal a).brk = some b → (s.pcal (portOf a)).format = some fm → b.pass = 8 → b.failed = false → b.kind =
    .triggered → (judgePass tb b (b.pass? fm b.pass).count l).2 = false → Does (.calibrationPassDone a l un) s fun t => (t.acal a).brk =
    none ∧ (t.acal a).committed = satAdd 65535 (s.acal a).committed 1 ∧ (t.acal a).events.getLsbD 0 = true ∧ (t.acal a).heads[b.head].tCal =
    some b.tb ∧ (t.acal a).heads[b.head].fails = 0) ∧
  (∀ (s : State) (a : ActId) (b : Break), (s.acal a).brk = some b → b.kind = .triggered → Does (.breakAbandon a) s fun t => (t.acal a).brk =
    none ∧ (t.acal a).abandoned = satAdd 255 (s.acal a).abandoned 1 ∧ (t.acal a).events.getLsbD 1 = true ∧ (t.acal a).heads[b.head].keptAt
    b.zone.val = some b.reqAt ∧ (t.acal a).heads[b.head].tCal = (s.acal a).heads[b.head].tCal ∧ b.at_ + 250 * Config.ms ≤ t.now) ∧
  (∀ (s : State) (p : PortId) (r : Request) (k : Packet), Answered s p 0x30 r k → field r.packet.payload 0 1 = 0 → k.status = 0 → Does
    (.headConfigResponse p) s fun t => (t.acal (actOf p 0)).heads[(Fin.ofNat 12 (field r.packet.payload 1 1) : Fin 12)].cfgFails = 0 ∧
    t.seqs = s.seqs ∧ (t.acal (actOf p 0)).events = (s.acal (actOf p 0)).events) ∧
  (∀ (s : State) (p : PortId) (r : Request) (k : Packet), Answered s p 0x30 r k → field r.packet.payload 0 1 = 0 → k.status = 7 → (s.acal
    (actOf p 0)).heads[(Fin.ofNat 12 (field r.packet.payload 1 1) : Fin 12)].cfgFails = 0 → Does (.headConfigResponse p) s fun t => (t.acal
    (actOf p 0)).heads[(Fin.ofNat 12 (field r.packet.payload 1 1) : Fin 12)].cfgFails = 1 ∧ (t.acal (actOf p 0)).heads[(Fin.ofNat 12 (field
    r.packet.payload 1 1) : Fin 12)].holds = none ∧ (t.acal (actOf p 0)).events.getLsbD 6 = true ∧ (t.seq (actOf p 0)).op = none) ∧
  (∀ (s : State) (a : ActId) (n : Nat), (s.acal a).dirtyAt = some n → s.hdaHeld (portOf a) = false → Does (.calibrationRecordWrite a true) s
    fun t => ((newestRecord (t.records a).1 (t.records a).2).map CalRecord.heads) = some (s.acal a).heads.toList ∧ (t.acal a).dirtyAt =
    none) ∧
  (∀ (s : State) (a : ActId) (n : Nat), (s.acal a).dirtyAt = some n → s.hdaHeld (portOf a) = false → Does (.calibrationRecordWrite a false)
    s fun t => (t.acal a).events.getLsbD 4 = true ∧ (if s.copy0Next a then (t.acal a).copy1 = (s.acal a).copy1 else (t.acal a).copy0 =
    (s.acal a).copy0) ∧ (t.acal a).heads = (s.acal a).heads ∧ (t.acal a).dirtyAt = some n) ∧
  (∀ (s : State) (a : ActId) (tb : CalTable), (s.pcal (portOf a)).table = some tb → newestRecord (s.records a).1 (s.records a).2 = none →
    Does (.calibrationRecordLoad a) s fun t => (t.acal a).events.getLsbD 5 = true ∧ ∀ h : Fin 12, (t.acal a).heads[h].entries = tb.head
    (globalHead (sideOf a) h) ∧ (t.acal a).heads[h].tCal = none) ∧
  (∀ (s : State) (p : PortId) (n : Nat), (s.port p).train = 9 → (s.pcal p).stale = false → (s.pcal p).lastValid = some n → Does
    (.temperatureStale p) s fun t => t.pcal p = { s.pcal p with stale := true } ∧ n + 60 * Config.sec ≤ t.now) ∧
  (∀ (s : State) (n : Nat), s.cal.deferUntil = some n → Does (.deferralExpiry) s fun t => t.cal.deferUntil = none ∧ t.cal.spacing =
    s.cal.spacing ∧ n ≤ t.now ∧ t.actCals = s.actCals)

/-- What the actions of Calibration Control do (spec/08 R309, R313, R316, R317, Tables 8-7 to 8-9), with no reserved field set.
CALIBRATION_CONTROL_QUERY of one head that the actuator has returns 32 bytes and of all heads 384. CALIBRATE_ONE_HEAD of a head that it may name waits for the
head's break, and on an actuator out of service ends with Command Sequence Error. CALIBRATION_DEFER lasts the seconds given, up to 600; 0
ends a deferral; more is an invalid field. CALIBRATION_SET_PARAMETERS with mask bits 0 and 1 takes the spacing and the sled maximum, here
and in the configuration store, and leaves the others; a spacing below 250 is an invalid field. CALIBRATION_RESTORE_HEAD of one head takes
its entries from table 0x0005, uncalibrated and without its failed mark; a head that does not exist is an invalid field. -/
def Obligations.CalibrationControlCommands : Prop :=
  (∀ (s : State) (c : Nat) (x : Ctx), AtHand s c (isAction 0xC5 0) x → firstBad (ccReserved x.entry) = none → ccHead x.entry = 0xF → (∀ f,
    x.origin = .host f → (s.fn f).d3hot = false) → Does (.calibrationControlQuery c) s fun t => (∃ y r, t.ctx? c = some y ∧ y.stage =
    .decided ∧ y.cpl = some r ∧ r.sct = 0 ∧ r.sc = 0 ∧ r.bytes.length = 384) ∧ t.actCals = s.actCals) ∧
  (∀ (s : State) (c : Nat) (x : Ctx) (h : Fin 12), AtHand s c (isAction 0xC5 1) x → firstBad (ccReserved x.entry) = none → s.ccHeads x.entry
    false = some [h] → s.actInService (ccAct x.entry) = true → Does (.calibrateOneHead c) s fun t => (∃ y, t.ctx? c = some y ∧ y.stage =
    .waiting ∧ y.wait = .calBreak (ccAct x.entry) h) ∧ t.actCals = s.actCals) ∧
  (∀ (s : State) (c : Nat) (x : Ctx) (h : Fin 12), AtHand s c (isAction 0xC5 1) x → firstBad (ccReserved x.entry) = none → s.ccHeads x.entry
    false = some [h] → s.actInService (ccAct x.entry) = false → Does (.calibrateOneHead c) s fun t => EndedWith t c x Cpl.seqError) ∧
  (∀ (s : State) (c : Nat) (x : Ctx), AtHand s c (isAction 0xC5 2) x → firstBad (ccReserved x.entry) = none → ccHead x.entry ≤ 11 → 0 < bits
    x.entry.cdw11 15 0 → bits x.entry.cdw11 15 0 ≤ 600 → Does (.calibrationDefer c) s fun t => t.cal.deferUntil = some (s.now + bits
    x.entry.cdw11 15 0 * Config.sec) ∧ EndedWith t c x Cpl.ok ∧ t.actCals = s.actCals) ∧
  (∀ (s : State) (c : Nat) (x : Ctx), AtHand s c (isAction 0xC5 2) x → firstBad (ccReserved x.entry) = none → ccHead x.entry ≤ 11 → bits
    x.entry.cdw11 15 0 = 0 → Does (.calibrationDefer c) s fun t => t.cal.deferUntil = none ∧ EndedWith t c x Cpl.ok) ∧
  (∀ (s : State) (c : Nat) (x : Ctx), AtHand s c (isAction 0xC5 2) x → firstBad (ccReserved x.entry) = none → ccHead x.entry ≤ 11 → 600 <
    bits x.entry.cdw11 15 0 → Does (.calibrationDefer c) s fun t => t.cal = s.cal ∧ EndedWith t c x (Cpl.invalid 11 0)) ∧
  (∀ (s : State) (c : Nat) (x : Ctx), AtHand s c (isAction 0xC5 3) x → firstBad (ccReserved x.entry) = none → ccHead x.entry ≤ 11 →
    x.entry.cdw12 = 3 → 250 ≤ bits x.entry.cdw11 15 0 → bits x.entry.cdw11 15 0 ≤ 10000 → 1 ≤ bits x.entry.cdw11 23 16 → bits x.entry.cdw11
    23 16 ≤ 64 → Does (.calibrationSetParameters c) s fun t => t.cal.spacing = bits x.entry.cdw11 15 0 ∧ t.cal.sledMax = bits x.entry.cdw11
    23 16 ∧ t.cal.reconstruct = s.cal.reconstruct ∧ t.cal.threshold = s.cal.threshold ∧ t.nor.config.calSpacing = bits x.entry.cdw11 15 0 ∧
    EndedWith t c x Cpl.ok) ∧
  (∀ (s : State) (c : Nat) (x : Ctx) (h : Fin 12) (tb : CalTable), AtHand s c (isAction 0xC5 4) x → firstBad (ccReserved x.entry) = none →
    s.ccHeads x.entry true = some [h] → (s.pcal (portOf (ccAct x.entry))).table = some tb → Does (.calibrationRestoreHead c) s fun t =>
    (t.acal (ccAct x.entry)).heads[h].entries = tb.head (globalHead (sideOf (ccAct x.entry)) h) ∧ (t.acal (ccAct x.entry)).heads[h].tCal =
    none ∧ (t.acal (ccAct x.entry)).heads[h].failed = false ∧ EndedWith t c x Cpl.ok) ∧
  (∀ (s : State) (c : Nat) (x : Ctx), AtHand s c (isAction 0xC5 0) x → firstBad (ccReserved x.entry) = none → ccHead x.entry ≤ 11 →
    (s.ccHeads x.entry true).isSome = true → (∀ f, x.origin = .host f → (s.fn f).d3hot = false) → Does (.calibrationControlQuery c) s fun t
    => (∃ y r, t.ctx? c = some y ∧ y.stage = .decided ∧ y.cpl = some r ∧ r.sct = 0 ∧ r.sc = 0 ∧ r.bytes.length = 32) ∧ t.actCals =
    s.actCals) ∧
  (∀ (s : State) (c : Nat) (x : Ctx), AtHand s c (isAction 0xC5 3) x → firstBad (ccReserved x.entry) = none → ccHead x.entry ≤ 11 →
    x.entry.cdw12.getLsbD 0 = true → bits x.entry.cdw11 15 0 < 250 → Does (.calibrationSetParameters c) s fun t => t.cal = s.cal ∧ t.nor =
    s.nor ∧ EndedWith t c x (Cpl.invalid 11 0)) ∧
  (∀ (s : State) (c : Nat) (x : Ctx), AtHand s c (isAction 0xC5 4) x → firstBad (ccReserved x.entry) = none → s.ccHeads x.entry true = none
    → Does (.calibrationRestoreHead c) s fun t => t.actCals = s.actCals ∧ EndedWith t c x (Cpl.invalid 10 24))

/-- What the commands of the Chorus pool do (spec/07 R257 to R264, R270 to R272, R278 to R282; spec/01 R24, R39). BINDING_REQUEST: the
request carries the class of the read that waits, or the one given, and its time, and is ready where the read's track is followed.
ENGINE_RECLAIM, with no free engine, takes the victim's engine for the chosen ready request. BACKGROUND_PROMOTION: a background request is
promoted at its age. WAIT_ALARM is set at its limit. SECTOR_DECODED: a sector that fails its first pass outside a break is captured while a
slot is free; one that decodes into a full reservation is taken again. RECOVERY_STEP without success leads to the next enabled step; with
success, of a read that no command waits for, it frees the slot. RECOVERY_BUDGET_EXPIRY leaves the engine to its current step. READ_SPILL
puts a stalled read into DRAM. ENGINE_GATED: an engine due, and free, is gated. ENGINE_FAULT runs the self-test and notes its time; a second
one within 60 s marks it. ENGINE_SELF_TEST_DONE with a pass leaves an engine so marked faulted, and brings another, within the number
enabled, into service; with a failure it leaves it faulted. -/
def Obligations.ChorusCommands : Prop :=
  (∀ (s : State) (a : ActId) (cls : Fin 3), (s.pool a).req = none → Does (.bindingRequest a cls) s fun t => ((t.pool a).req.map fun r =>
    (r.cls, r.at_, r.promoted, r.readyAt, r.alarmed)) = some ((match s.readQueued a with | some d => d.cls | none => cls), s.now, false, (if
    (match s.readWant a with | some w => (s.act a).region == .follow && (s.act a).head == w.1 && (s.act a).target == w.2 | none => false) &&
    (match (s.seq a).op with | some d => !d.write | none => true) then some s.now else none), false) ∧ t.seqs = s.seqs ∧ t.acts = s.acts) ∧
  (∀ (s : State) (a : ActId) (r : BindReq) (e : EngId), ((fins 24).any fun f => (s.eng f).st == .free && !(s.eng f).gateDue) = false →
    s.sessionsHeld ≤ s.enabledEngines → s.chooseReq true = some (a, r) → s.victim r.served = some e → Does (.engineReclaim) s fun t =>
    (t.eng e).st = .bound ∧ (t.eng e).act = a ∧ (t.eng e).cls = r.served ∧ (t.eng e).events.getLsbD 0 = true ∧ (t.eng e).sessions = satAdd
    65535 (s.eng e).sessions 1 ∧ t.seqs = s.seqs ∧ ∀ f, f ≠ e → t.eng f = s.eng f) ∧
  (∀ (s : State) (a : ActId) (r : BindReq), s.waitingReq a = some r → r.cls = 2 → r.promoted = false → Does (.backgroundPromotion a) s fun t
    => ((t.pool a).req.map fun y => (y.cls, y.at_, y.promoted, y.readyAt, y.alarmed)) = some (r.cls, r.at_, true, r.readyAt, r.alarmed) ∧
    t.chorus.events.getLsbD 1 = true ∧ r.at_ + s.chorus.params.backgroundAge * Config.ms ≤ t.now) ∧
  (∀ (s : State) (a : ActId) (r : BindReq) (n : Nat), s.waitingReq a = some r → r.readyAt = some n → r.alarmed = false → Does (.waitAlarm a)
    s fun t => (t.pool a).req = some { r with alarmed := true } ∧ t.chorus.events.getLsbD 2 = true ∧ n + s.chorus.params.waitAlarm *
    Config.ms ≤ t.now) ∧
  (∀ (s : State) (e : EngId) (n : Nat) (d : Descriptor), (s.eng e).st = .reading → (s.seq (s.eng e).act).op = some d → d.write = false →
    d.first ≤ n → n < d.first + d.count → (s.acal (s.eng e).act).brk = none → (s.eng e).slots.length < 64 → Does (.sectorDecoded e n false)
    s fun t => (t.eng e).slots.length = (s.eng e).slots.length + 1 ∧ ((t.eng e).slots.getLast?.map fun k => (k.act, k.head, k.zone, k.track,
    k.sector, k.address, k.cls)) = some ((s.eng e).act, d.head, d.zone, d.track, n, addressWord (portOf (s.eng e).act) (globalHead (sideOf
    (s.eng e).act) d.head) d.track n, d.cls) ∧ (t.eng e).captures = satAdd 65535 (s.eng e).captures 1 ∧ t.seqs = s.seqs) ∧
  (∀ (s : State) (e : EngId) (n : Nat) (d : Descriptor), (s.eng e).st = .reading → (s.seq (s.eng e).act).op = some d → d.write = false →
    d.first ≤ n → n < d.first + d.count → 8 ≤ s.stagedOf e → Does (.sectorDecoded e n true) s fun t => n ∈ (t.seq (s.eng e).act).lost ∧ n ∉
    (t.seq (s.eng e).act).done ∧ (t.eng e).events.getLsbD 6 = true ∧ t.chorus.staging = s.chorus.staging) ∧
  (∀ (s : State) (e : EngId) (f : EngId) (i : Nat) (k : Capture) (n : Nat), (s.eng e).st = .recovery → (s.eng e).work = some (f, i) → (s.eng
    f).slots[i]? = some k → s.chorus.params.nextStep k.step = some n → Does (.recoveryStep e false) s fun t => ((t.eng f).slots[i]?.map
    Capture.step) = some n ∧ (t.eng f).slots.length = (s.eng f).slots.length) ∧
  (∀ (s : State) (e : EngId) (f : EngId) (i : Nat) (k : Capture), (s.eng e).st = .recovery → (s.eng e).work = some (f, i) → (s.eng
    f).slots[i]? = some k → k.ctx = none → s.pair.peerReqs = [] → Does (.recoveryStep e true) s fun t => (t.eng f).slots = dropAt i (s.eng
    f).slots ∧ (t.eng f).recovered = satAdd 65535 (s.eng f).recovered 1 ∧ (t.eng f).events.getLsbD 1 = true) ∧
  (∀ (s : State) (e : EngId) (n : Nat), (s.eng e).st = .recovery → (s.eng e).recAt = some n → Does (.recoveryBudgetExpiry e) s fun t =>
    (t.eng e).recAt = none ∧ (t.eng e).work = (s.eng e).work ∧ (t.eng e).st = .recovery ∧ n + s.chorus.params.recoveryBudget * Config.us ≤
    t.now) ∧
  (∀ (s : State) (c : Nat), (s.chorus.staging.any fun d => d.ctx == some c && d.ok && !d.spilled) = true → Does (.readSpill c) s fun t => (∀
    d ∈ t.chorus.staging, d.ctx = some c → d.spilled = true) ∧ t.chorus.staging.length = s.chorus.staging.length ∧ t.chorus.engs =
    s.chorus.engs ∧ (s.stalled c).foldl (fun n d => min n d.at_) s.now + 64 * Config.us ≤ t.now) ∧
  (∀ (s : State) (e : EngId), (s.eng e).st = .free → (s.eng e).gateDue = true → Does (.engineGated e) s fun t => (t.eng e).st = .gated ∧
    (t.eng e).gateDue = false ∧ (t.eng e).mark = false ∧ t.chorus.gatedOrder.head? = some e ∧ t.chorus.events.getLsbD 0 = true) ∧
  (∀ (s : State) (e : EngId), (s.eng e).st = .bound → (s.eng e).faultAt = none → Does (.engineFault e) s fun t => (t.eng e).st = .selfTest ∧
    (t.eng e).faultAt = some s.now ∧ (t.eng e).events.getLsbD 4 = true ∧ t.chorus.events.getLsbD 0 = true) ∧
  (∀ (s : State) (e : EngId) (n : Nat), (s.eng e).st = .bound → (s.eng e).faultAt = some n → s.now ≤ n + 60 * Config.sec → Does
    (.engineFault e) s fun t => (t.eng e).st = .selfTest ∧ (t.eng e).refault = true ∧ (t.eng e).events.getLsbD 4 = true) ∧
  (∀ (s : State) (e : EngId), (s.eng e).st = .selfTest → (s.eng e).refault = true → Does (.engineSelfTestDone e true) s fun t => (t.eng
    e).st = .faulted ∧ ∀ f, f ≠ e → t.eng f = s.eng f) ∧
  (∀ (s : State) (e : EngId), (s.eng e).st = .selfTest → (s.eng e).refault = false → (s.eng e).gateDue = false → ((fins 24).filter fun f =>
    (s.eng f).st != .gated && !(s.eng f).gateDue).length = s.enabledEngines → Does (.engineSelfTestDone e true) s fun t => (t.eng
    e).st.serves = true ∧ t.chorus.events.getLsbD 0 = true) ∧
  (∀ (s : State) (e : EngId), (s.eng e).st = .selfTest → Does (.engineSelfTestDone e false) s fun t => (t.eng e).st = .faulted ∧ (t.eng
    e).events.getLsbD 5 = true ∧ ∀ f, f ≠ e → t.eng f = s.eng f)

/-- What the actions of Port Control do (spec/12 R482, R483, Table 12-9; spec/04 R154 to R157, R172; spec/03 R140, R141; spec/05 R207), with
no reserved field set. PORT_CONTROL_QUERY answers the three blocks of its port and, where the port's clock runs, clears the counters that it
returned. The other results are stated where no other command is in the device, single mode is in force and no companion update runs:
SET_SPEED_LEVEL of a standing spindle stores the level and asks for a start where Table 4-4 has one; PORT_CONTROL_PORT_RESET of a trained
port takes it out of service, its requests and its counters gone; CLEAR_FAILED_MARK of a failed port trains it again, and of one without the
mark changes nothing; CLEAR_SPINDLE_FAULT releases a latched overvoltage fault, with none it is a sequence error; REMOVE_FROM_SERVICE of a
port whose sides are unloaded and at rest takes it out; RETURN_TO_SERVICE of a port taken out brings it back, of a failed one is a sequence
error; RETURN_ACTUATOR_TO_SERVICE brings an actuator back after servo loss, and of one in service changes nothing. Without presence actions
2 to 7 are a sequence error. -/
def Obligations.PortControlCommands : Prop :=
  (∀ (s : State) (c : Nat) (x : Ctx) (p : PortId), AtHand s c (isAction 0xC4 0) x → firstBad (pcReserved x.entry) = none → p = pcPort
    x.entry → Does (.portControlQuery c) s fun t => EndedWith t c x (Cpl.data (s.portBytes p ++ s.windowBytes (0x3800 + 32 * p.val) 32 ++
    s.windowBytes (0x3C00 + 32 * p.val) 32)) ∧ ((s.port p).clock = true → (t.port p).smpCorr = 0 ∧ (t.port p).seqErr = 0 ∧ (t.port
    p).cmdUncorr = 0) ∧ ((s.port p).clock = false → t.ports = s.ports) ∧ ∀ q, q ≠ p → t.port q = s.port q ∧ t.names = s.names) ∧
  (∀ (s : State) (c : Nat) (x : Ctx) (p : PortId), AtHand s c (isAction 0xC4 1) x → firstBad (pcReserved x.entry) = none → p = pcPort
    x.entry → (s.spin p).st = .stopped → (s.spin p).ovLatched = false → (s.spin p).unloading = false → (s.spin p).turning = false → (s.spin
    p).table.isSome = true → s.power.leaving = false → s.svc.comp = none → s.ctxs = [x] → s.pair.mode = false → Does (.setSpeedLevel c) s
    fun t => EndedWith t c x Cpl.ok ∧ (t.spin p).levelCmd = pcValue x.entry ∧ (t.spin p).wantSlot = (!(s.spin p).refused && (decide (64 ≤
    pcValue x.entry) || ((s.spin p).restart && decide (48 ≤ pcValue x.entry)))) ∧ ∀ q, q ≠ p → t.spin q = s.spin q ∧ t.names = s.names) ∧
  (∀ (s : State) (c : Nat) (x : Ctx) (p : PortId), AtHand s c (isAction 0xC4 2) x → firstBad (pcReserved x.entry) = none → p = pcPort
    x.entry → s.pins.prsnt.getLsbD p.val = true → (s.port p).train = 9 → s.ctxs = [x] → s.pair.mode = false → s.svc.comp = none → Does
    (.portControlPortReset c) s fun t => EndedWith t c x Cpl.ok ∧ (t.port p).inService = false ∧ (t.port p).requests = [] ∧ (t.port
    p).smpCorr = 0 ∧ (t.port p).blockLock = false ∧ t.names = s.names) ∧
  (∀ (s : State) (c : Nat) (x : Ctx) (p : PortId), AtHand s c (isAction 0xC4 3) x → firstBad (pcReserved x.entry) = none → p = pcPort
    x.entry → s.pins.prsnt.getLsbD p.val = true → (s.port p).train = 0xA → s.pins.linkPll = true → Does (.clearFailedMark c) s fun t =>
    EndedWith t c x Cpl.ok ∧ (t.port p).train = 1 ∧ (t.port p).fail = 0 ∧ t.names = s.names) ∧
  (∀ (s : State) (c : Nat) (x : Ctx) (p : PortId), AtHand s c (isAction 0xC4 4) x → firstBad (pcReserved x.entry) = none → p = pcPort
    x.entry → s.pins.prsnt.getLsbD p.val = true → (s.spin p).ovLatched = true → Does (.clearSpindleFault c) s fun t => EndedWith t c x
    Cpl.ok ∧ (t.spin p).ovLatched = false ∧ (t.spin p).st = (if (s.port p).startMark then .startFailed else .stopped) ∧ (t.spin p).levelCmd
    = (s.spin p).levelCmd ∧ (t.port p).degraded = false ∧ ∀ q, q ≠ p → t.port q = s.port q ∧ ∀ q, q ≠ p → t.spin q = s.spin q ∧ t.names =
    s.names) ∧
  (∀ (s : State) (c : Nat) (x : Ctx) (p : PortId), AtHand s c (isAction 0xC4 4) x → firstBad (pcReserved x.entry) = none → p = pcPort
    x.entry → s.pins.prsnt.getLsbD p.val = true → (s.spin p).ovLatched = false → Does (.clearSpindleFault c) s fun t => EndedWith t c x
    Cpl.seqError ∧ t.spins = s.spins ∧ t.ports = s.ports ∧ t.names = s.names) ∧
  (∀ (s : State) (c : Nat) (x : Ctx) (p : PortId), AtHand s c (isAction 0xC4 5) x → firstBad (pcReserved x.entry) = none → p = pcPort
    x.entry → s.pins.prsnt.getLsbD p.val = true → pcValue x.entry % 2 = 0 → ((fins 2).any fun d => (s.act (actOf p d)).loaded || (s.act
    (actOf p d)).loading || (s.seq (actOf p d)).op.isSome || (s.acal (actOf p d)).brk.isSome || (s.seq (actOf p d)).queue != []) = false →
    s.svc.comp = none → s.pair.mode = false → s.ctxs = [x] → s.power.leaving = false → Does (.removeFromService c) s fun t => EndedWith t c
    x Cpl.ok ∧ (t.port p).removed = true ∧ (t.port p).inService = false ∧ ∀ q, q ≠ p → t.port q = s.port q ∧ ∀ q, q ≠ p → t.spin q = s.spin
    q) ∧
  (∀ (s : State) (c : Nat) (x : Ctx) (p : PortId), AtHand s c (isAction 0xC4 6) x → firstBad (pcReserved x.entry) = none → p = pcPort
    x.entry → s.pins.prsnt.getLsbD p.val = true → (s.port p).removed = true → (s.port p).train ≠ 0xA → (s.port p).startMark = false →
    (s.modPort p fun y => { y with removed := false }).mayLoad p = false → (s.spin p).stopping = false → s.svc.comp = none → s.pair.mode =
    false → s.ctxs = [x] → s.power.leaving = false → Does (.returnToService c) s fun t => EndedWith t c x Cpl.ok ∧ (t.port p).removed =
    false ∧ (t.spin p).wantSlot = ((s.spin p).st == .stopped && !(s.spin p).refused && (s.spin p).table.isSome && (s.spin p).mayTurn) ∧
    t.names = s.names) ∧
  (∀ (s : State) (c : Nat) (x : Ctx) (p : PortId), AtHand s c (isAction 0xC4 6) x → firstBad (pcReserved x.entry) = none → p = pcPort
    x.entry → s.pins.prsnt.getLsbD p.val = true → ((s.port p).train = 0xA ∨ (s.port p).startMark = true) → Does (.returnToService c) s fun t
    => EndedWith t c x Cpl.seqError ∧ t.ports = s.ports ∧ t.spins = s.spins ∧ t.names = s.names) ∧
  (∀ (s : State) (c : Nat) (x : Ctx) (p : PortId), AtHand s c (isAction 0xC4 7) x → firstBad (pcReserved x.entry) = none → p = pcPort
    x.entry → s.pins.prsnt.getLsbD p.val = true → (s.act (actOf p (pcSide x.entry))).outOfService = true → s.svc.comp = none → s.pair.mode =
    false → s.ctxs = [x] → s.power.leaving = false → Does (.returnActuatorToService c) s fun t => EndedWith t c x Cpl.ok ∧ (t.act (actOf p
    (pcSide x.entry))).outOfService = false ∧ (t.act (actOf p (pcSide x.entry))).lostAt = none) ∧
  (∀ (s : State) (c : Nat) (x : Ctx) (p : PortId), AtHand s c (isAction 0xC4 2) x → firstBad (pcReserved x.entry) = none → p = pcPort
    x.entry → s.pins.prsnt.getLsbD p.val = false → Does (.portControlPortReset c) s fun t => EndedWith t c x Cpl.seqError ∧ t.ports =
    s.ports ∧ t.names = s.names) ∧
  (∀ (s : State) (c : Nat) (x : Ctx) (p : PortId), AtHand s c (isAction 0xC4 3) x → firstBad (pcReserved x.entry) = none → p = pcPort
    x.entry → s.pins.prsnt.getLsbD p.val = false → Does (.clearFailedMark c) s fun t => EndedWith t c x Cpl.seqError ∧ t.ports = s.ports ∧
    t.acts = s.acts ∧ t.spins = s.spins ∧ t.names = s.names) ∧
  (∀ (s : State) (c : Nat) (x : Ctx) (p : PortId), AtHand s c (isAction 0xC4 4) x → firstBad (pcReserved x.entry) = none → p = pcPort
    x.entry → s.pins.prsnt.getLsbD p.val = false → Does (.clearSpindleFault c) s fun t => EndedWith t c x Cpl.seqError ∧ t.ports = s.ports ∧
    t.acts = s.acts ∧ t.spins = s.spins ∧ t.names = s.names) ∧
  (∀ (s : State) (c : Nat) (x : Ctx) (p : PortId), AtHand s c (isAction 0xC4 5) x → firstBad (pcReserved x.entry) = none → p = pcPort
    x.entry → s.pins.prsnt.getLsbD p.val = false → Does (.removeFromService c) s fun t => EndedWith t c x Cpl.seqError ∧ t.ports = s.ports ∧
    t.acts = s.acts ∧ t.spins = s.spins ∧ t.names = s.names) ∧
  (∀ (s : State) (c : Nat) (x : Ctx) (p : PortId), AtHand s c (isAction 0xC4 6) x → firstBad (pcReserved x.entry) = none → p = pcPort
    x.entry → s.pins.prsnt.getLsbD p.val = false → Does (.returnToService c) s fun t => EndedWith t c x Cpl.seqError ∧ t.ports = s.ports ∧
    t.acts = s.acts ∧ t.spins = s.spins ∧ t.names = s.names) ∧
  (∀ (s : State) (c : Nat) (x : Ctx) (p : PortId), AtHand s c (isAction 0xC4 7) x → firstBad (pcReserved x.entry) = none → p = pcPort
    x.entry → s.pins.prsnt.getLsbD p.val = false → Does (.returnActuatorToService c) s fun t => EndedWith t c x Cpl.seqError ∧ t.ports =
    s.ports ∧ t.acts = s.acts ∧ t.spins = s.spins ∧ t.names = s.names) ∧
  (∀ (s : State) (c : Nat) (x : Ctx) (p : PortId), AtHand s c (isAction 0xC4 3) x → firstBad (pcReserved x.entry) = none → p = pcPort
    x.entry → s.pins.prsnt.getLsbD p.val = true → (s.port p).train ≠ 0xA → (s.port p).startMark = false → Does (.clearFailedMark c) s fun t
    => EndedWith t c x Cpl.ok ∧ t.ports = s.ports ∧ t.names = s.names) ∧
  (∀ (s : State) (c : Nat) (x : Ctx) (p : PortId), AtHand s c (isAction 0xC4 7) x → firstBad (pcReserved x.entry) = none → p = pcPort
    x.entry → s.pins.prsnt.getLsbD p.val = true → (s.act (actOf p (pcSide x.entry))).outOfService = false → Does (.returnActuatorToService
    c) s fun t => EndedWith t c x Cpl.ok ∧ t.acts = s.acts ∧ t.names = s.names)

/-- What the actions of Engine Control do (spec/12 R486, Table 12-12; spec/07 R278 to R281; spec/06 R241, R242; spec/19 R666, R667), with no
reserved field set. QUERY_POOL_PARAMETERS returns the pool parameters. SET_POOL_PARAMETERS with mask bit 0 sets the recovery budget, here
and in the configuration store; below 100 it is an invalid field. ENGINE_OFFLINE: a free engine goes offline when another still serves; the
last one is refused; one that is offline is unchanged. ENGINE_SELF_TEST needs the engine offline or faulted and tells its result.
ENGINE_TO_SERVICE runs it first, and an engine that fails it is faulted; of one that is free nothing changes. SEQUENCER_OFFLINE, of an idle
sequencer and with no other command in the device, single mode and no companion update, holds it at 0x0000 out of service; of one offline
nothing changes. SEQUENCER_SELF_TEST needs the sequencer offline and tells its result. SEQUENCER_REINITIALISE of one offline makes it idle
on the newest bank, in single mode with no other command in the device, no companion update, no queue, no load due and no match at 0x0000;
it leaves it halted with fault code 0x08 when the test fails; of one that is idle nothing changes. SET_SEQUENCER_PARAMETERS with mask bit 0
stores gate_ahead, in force at once where the sequencer is at its idle point; outside 2 to 8 it is an invalid field. -/
def Obligations.EngineControlCommands : Prop :=
  (∀ (s : State) (c : Nat) (x : Ctx), AtHand s c (isAction 0xCE 0) x → bits x.entry.cdw10 31 16 = 0 → Does (.queryPoolParameters c) s fun t
    => EndedWith t c x (Cpl.data (packBytes [(2, s.chorus.params.recoveryBudget), (1, s.chorus.params.recoverySteps.toNat), (1,
    s.chorus.params.rereadMax), (2, s.chorus.params.backgroundAge), (2, s.chorus.params.waitAlarm), (1, s.chorus.rebuildShare), (7, 0)])) ∧
    t.chorus = s.chorus ∧ t.names = s.names) ∧
  (∀ (s : State) (c : Nat) (x : Ctx), AtHand s c (isAction 0xCE 4) x → bits x.entry.cdw10 31 16 = 0 → x.entry.cdw13 = 1 → 100 ≤ bits
    x.entry.cdw11 15 0 → bits x.entry.cdw11 15 0 ≤ 10000 → bits x.entry.cdw11 31 24 = 0 → bits x.entry.cdw12 31 26 = 0 → Does
    (.setPoolParameters c) s fun t => EndedWith t c x Cpl.ok ∧ t.chorus.params =
    { s.chorus.params with recoveryBudget := bits x.entry.cdw11 15 0 } ∧ t.nor.config.pool.recoveryBudget = bits x.entry.cdw11 15 0 ∧
    t.chorus.engs = s.chorus.engs ∧ t.names = s.names) ∧
  (∀ (s : State) (c : Nat) (x : Ctx), AtHand s c (isAction 0xCE 4) x → bits x.entry.cdw10 31 16 = 0 → x.entry.cdw13 = 1 → bits x.entry.cdw11
    15 0 < 100 → Does (.setPoolParameters c) s fun t => EndedWith t c x (Cpl.invalid 11 0) ∧ t.chorus = s.chorus ∧ t.nor = s.nor ∧ t.names =
    s.names) ∧
  (∀ (s : State) (c : Nat) (x : Ctx) (e : EngId), AtHand s c (isAction 0xCE 1) x → bits x.entry.cdw10 31 16 = 0 → e.val = ecTarget x.entry →
    (s.eng e).st = .free → 1 < s.enginesServing → (s.eng e).gateDue = false → Does (.engineOffline c) s fun t => EndedWith t c x Cpl.ok ∧
    (t.eng e).st = .offline ∧ (t.eng e).slots = (s.eng e).slots ∧ t.chorus.events.getLsbD 0 = true) ∧
  (∀ (s : State) (c : Nat) (x : Ctx) (e : EngId), AtHand s c (isAction 0xCE 1) x → bits x.entry.cdw10 31 16 = 0 → e.val = ecTarget x.entry →
    (s.eng e).st = .free → s.enginesServing ≤ 1 → Does (.engineOffline c) s fun t => EndedWith t c x Cpl.seqError ∧ t.chorus = s.chorus ∧
    t.names = s.names) ∧
  (∀ (s : State) (c : Nat) (x : Ctx) (e : EngId), AtHand s c (isAction 0xCE 1) x → bits x.entry.cdw10 31 16 = 0 → e.val = ecTarget x.entry →
    (s.eng e).st = .offline → Does (.engineOffline c) s fun t => EndedWith t c x Cpl.ok ∧ t.chorus = s.chorus ∧ t.names = s.names) ∧
  (∀ (s : State) (c : Nat) (x : Ctx) (e : EngId) (pass : Bool), AtHand s c (isAction 0xCE 2) x → bits x.entry.cdw10 31 16 = 0 → e.val =
    ecTarget x.entry → ((s.eng e).st = .offline ∨ (s.eng e).st = .faulted) → Does (.engineSelfTest c pass) s fun t => EndedWith t c x
    (Cpl.val (if pass then 0 else 1)) ∧ (t.eng e).st = (if pass then .offline else .faulted) ∧ ∀ f : EngId, f ≠ e → t.eng f = s.eng f ∧
    t.names = s.names) ∧
  (∀ (s : State) (c : Nat) (x : Ctx) (e : EngId) (pass : Bool), AtHand s c (isAction 0xCE 2) x → bits x.entry.cdw10 31 16 = 0 → e.val =
    ecTarget x.entry → (s.eng e).st = .free → Does (.engineSelfTest c pass) s fun t => EndedWith t c x Cpl.seqError ∧ t.chorus = s.chorus ∧
    t.names = s.names) ∧
  (∀ (s : State) (c : Nat) (x : Ctx) (e : EngId), AtHand s c (isAction 0xCE 3) x → bits x.entry.cdw10 31 16 = 0 → e.val = ecTarget x.entry →
    (s.eng e).st = .offline → ((fins 24).filter fun f => f == e || ((s.eng f).st != .gated && !(s.eng f).gateDue)).length = s.enabledEngines
    → Does (.engineToService c true) s fun t => EndedWith t c x Cpl.ok ∧ (t.eng e).st.serves = true ∧ t.chorus.events.getLsbD 0 = true ∧
    t.names = s.names) ∧
  (∀ (s : State) (c : Nat) (x : Ctx) (e : EngId), AtHand s c (isAction 0xCE 3) x → bits x.entry.cdw10 31 16 = 0 → e.val = ecTarget x.entry →
    (s.eng e).st = .offline → Does (.engineToService c false) s fun t => EndedWith t c x Cpl.internal ∧ (t.eng e).st = .faulted ∧ (t.eng
    e).events.getLsbD 5 = true ∧ ∀ f : EngId, f ≠ e → t.eng f = s.eng f ∧ t.names = s.names) ∧
  (∀ (s : State) (c : Nat) (x : Ctx) (e : EngId) (pass : Bool), AtHand s c (isAction 0xCE 3) x → bits x.entry.cdw10 31 16 = 0 → e.val =
    ecTarget x.entry → (s.eng e).st = .free → Does (.engineToService c pass) s fun t => EndedWith t c x Cpl.ok ∧ t.chorus = s.chorus ∧
    t.names = s.names) ∧
  (∀ (s : State) (c : Nat) (x : Ctx) (a : ActId), AtHand s c (isAction 0xCE 5) x → bits x.entry.cdw10 31 16 = 0 → a.val = ecTarget x.entry →
    (s.seq a).st = .idle → (s.seq a).op = none → (s.acal a).brk = none → s.ctxs = [x] → s.svc.comp = none → s.pair.mode = false → Does
    (.sequencerOffline c) s fun t => EndedWith t c x Cpl.ok ∧ (t.seq a).st = .offline ∧ (t.seq a).outOfService = true ∧ (t.seq a).op = none
    ∧ (t.seq a).addr = 0) ∧
  (∀ (s : State) (c : Nat) (x : Ctx) (a : ActId), AtHand s c (isAction 0xCE 5) x → bits x.entry.cdw10 31 16 = 0 → a.val = ecTarget x.entry →
    (s.seq a).st = .offline → Does (.sequencerOffline c) s fun t => EndedWith t c x Cpl.ok ∧ t.seqs = s.seqs ∧ t.names = s.names) ∧
  (∀ (s : State) (c : Nat) (x : Ctx) (a : ActId), AtHand s c (isAction 0xCE 6) x → bits x.entry.cdw10 31 16 = 0 → a.val = ecTarget x.entry →
    (s.seq a).st = .offline → Does (.sequencerSelfTest c true) s fun t => EndedWith t c x (Cpl.val 0) ∧ t.seqs = s.seqs ∧ t.names = s.names) ∧
  (∀ (s : State) (c : Nat) (x : Ctx) (a : ActId) (pass : Bool), AtHand s c (isAction 0xCE 6) x → bits x.entry.cdw10 31 16 = 0 → a.val =
    ecTarget x.entry → (s.seq a).st = .idle → Does (.sequencerSelfTest c pass) s fun t => EndedWith t c x Cpl.seqError ∧ t.seqs = s.seqs ∧
    t.names = s.names) ∧
  (∀ (s : State) (c : Nat) (x : Ctx) (a : ActId), AtHand s c (isAction 0xCE 7) x → bits x.entry.cdw10 31 16 = 0 → a.val = ecTarget x.entry →
    (s.seq a).st = .offline → s.pair.mode = false → s.ctxs = [x] → s.svc.comp = none → s.mayLoad (portOf a) = false → (s.seq a).queue = [] →
    (s.patch.bankOf s.patch.newest).redirect 0 = 0 → (s.seq a).switchPending = false → Does (.sequencerReinitialise c true) s fun t =>
    EndedWith t c x Cpl.ok ∧ (t.seq a).st = .idle ∧ (t.seq a).outOfService = false ∧ (t.seq a).bank = s.patch.newest ∧ (t.seq a).stack = []) ∧
  (∀ (s : State) (c : Nat) (x : Ctx) (a : ActId), AtHand s c (isAction 0xCE 7) x → bits x.entry.cdw10 31 16 = 0 → a.val = ecTarget x.entry →
    (s.seq a).st = .offline → Does (.sequencerReinitialise c false) s fun t => EndedWith t c x Cpl.internal ∧ (t.seq a).st = .halted ∧
    (t.seq a).fault = 8) ∧
  (∀ (s : State) (c : Nat) (x : Ctx) (a : ActId), AtHand s c (isAction 0xCE 8) x → bits x.entry.cdw10 31 16 = 0 → a.val = ecTarget x.entry →
    x.entry.cdw13 = 1 → 2 ≤ bits x.entry.cdw11 3 0 → bits x.entry.cdw11 3 0 ≤ 8 → bits x.entry.cdw11 7 4 = 0 → bits x.entry.cdw11 31 13 = 0
    → Does (.setSequencerParameters c) s fun t => EndedWith t c x Cpl.ok ∧ t.nor.config.gateAhead[a] = bits x.entry.cdw11 3 0 ∧
    t.nor.config.writeRetryMax[a] = s.nor.config.writeRetryMax[a] ∧ (s.atIdle a = true → (t.seq a).gateAhead = bits x.entry.cdw11 3 0) ∧
    (s.atIdle a = false → t.seqs = s.seqs) ∧ ∀ b, b ≠ a → t.seq b = s.seq b ∧ t.names = s.names) ∧
  (∀ (s : State) (c : Nat) (x : Ctx) (a : ActId) (pass : Bool), AtHand s c (isAction 0xCE 7) x → bits x.entry.cdw10 31 16 = 0 → a.val =
    ecTarget x.entry → (s.seq a).st = .idle → (s.seq a).outOfService = false → Does (.sequencerReinitialise c pass) s fun t => EndedWith t c
    x Cpl.ok ∧ t.seqs = s.seqs ∧ t.names = s.names) ∧
  (∀ (s : State) (c : Nat) (x : Ctx) (a : ActId), AtHand s c (isAction 0xCE 6) x → bits x.entry.cdw10 31 16 = 0 → a.val = ecTarget x.entry →
    (s.seq a).st = .offline → Does (.sequencerSelfTest c false) s fun t => EndedWith t c x (Cpl.val 1) ∧ t.names = s.names) ∧
  (∀ (s : State) (c : Nat) (x : Ctx) (a : ActId), AtHand s c (isAction 0xCE 8) x → bits x.entry.cdw10 31 16 = 0 → a.val = ecTarget x.entry →
    x.entry.cdw13 = 1 → (bits x.entry.cdw11 3 0 < 2 ∨ 8 < bits x.entry.cdw11 3 0) → Does (.setSequencerParameters c) s fun t => EndedWith t
    c x (Cpl.invalid 11 0) ∧ t.nor = s.nor ∧ t.seqs = s.seqs ∧ t.names = s.names)

/-- What the actions of Patch Load do before the Playbill is sealed (spec/06 R224 to R233; spec/12 R485, Table 12-11; spec/16 R584).
PATCH_LOAD_FROM_HOST, PATCH_LOAD_AND_STORE and PATCH_LOAD_FROM_NOR: an image that passes R226 becomes the newest bank, the one that no
sequencer selects, with its version and digest, and is stored when the action says so; one that fails is refused with its result and changes
nothing else; one that cannot be stored ends with Internal Error and result 5. PATCH_CLEAR makes an empty bank. While a switch is in
progress PATCH_CLEAR is a sequence error with result 6, and it is a sequence error where no addendum is left for it. BOOT_PATCH_LOAD, at
bring-up and before any sequencer starts: a stored image that passes R226 is taken into bank 1 and is the newest, with its version and
digest, and every sequencer selects it; one that fails is told and not taken, and an empty store changes nothing; every sequencer that is
offline and in service starts at its idle point all the same, where no match of the bank redirects 0x0000. -/
def Obligations.PatchCommands : Prop :=
  (∀ (s : State) (c : Nat) (x : Ctx), AtHand s c (isAction 0xCA 0) x → patchFields x.entry = none → s.patch.switching = false →
    s.ident.sealed = false → Does (.patchLoadFromHost c) s fun t => (s.patchCheck (patchImage x.entry) = 1 → EndedWith t c x Cpl.ok ∧
    t.patch.newest = (!s.patch.newest) ∧ (if s.patch.newest then t.patch.bank0 else t.patch.bank1) = patchBank (patchImage x.entry) ∧
    t.patch.version = BitVec.ofNat 16 (field (patchImage x.entry) 6 2) ∧ t.patch.digest = patchDigest (patchImage x.entry) ∧
    t.patch.lastResult = 1 ∧ t.patch.switching = true ∧ t.nor = s.nor) ∧ (s.patchCheck (patchImage x.entry) ≠ 1 → EndedWith t c x
    { Cpl.errVal 0x0 0x02 (BitVec.ofNat 32 (s.patchCheck (patchImage x.entry))) with errLoc := 0xFFFF } ∧ t.patch =
    { s.patch with lastResult := BitVec.ofNat 4 (s.patchCheck (patchImage x.entry)) } ∧ t.nor = s.nor) ∧ t.names = s.names) ∧
  (∀ (s : State) (c : Nat) (x : Ctx), AtHand s c (isAction 0xCA 1) x → patchFields x.entry = none → s.patch.switching = false →
    s.ident.sealed = false → Does (.patchLoadAndStore c true) s fun t => (s.patchCheck (patchImage x.entry) = 1 → EndedWith t c x Cpl.ok ∧
    t.patch.newest = (!s.patch.newest) ∧ (if s.patch.newest then t.patch.bank0 else t.patch.bank1) = patchBank (patchImage x.entry) ∧
    t.patch.version = BitVec.ofNat 16 (field (patchImage x.entry) 6 2) ∧ t.patch.digest = patchDigest (patchImage x.entry) ∧
    t.patch.lastResult = 1 ∧ t.patch.switching = true ∧ t.nor.patchStore = patchImage x.entry) ∧ (s.patchCheck (patchImage x.entry) ≠ 1 →
    EndedWith t c x { Cpl.errVal 0x0 0x02 (BitVec.ofNat 32 (s.patchCheck (patchImage x.entry))) with errLoc := 0xFFFF } ∧ t.patch =
    { s.patch with lastResult := BitVec.ofNat 4 (s.patchCheck (patchImage x.entry)) } ∧ t.nor = s.nor) ∧ t.names = s.names) ∧
  (∀ (s : State) (c : Nat) (x : Ctx), AtHand s c (isAction 0xCA 1) x → patchFields x.entry = none → s.patch.switching = false →
    s.ident.sealed = false → Does (.patchLoadAndStore c false) s fun t => EndedWith t c x Cpl.internal ∧ t.patch =
    { s.patch with lastResult := 5 } ∨ s.patchCheck (patchImage x.entry) ≠ 1) ∧
  (∀ (s : State) (c : Nat) (x : Ctx), AtHand s c (isAction 0xCA 2) x → patchFields x.entry = none → s.patch.switching = false →
    s.ident.sealed = false → Does (.patchLoadFromNor c) s fun t => (s.patchCheck (s.nor.patchStore) = 1 → EndedWith t c x Cpl.ok ∧
    t.patch.newest = (!s.patch.newest) ∧ (if s.patch.newest then t.patch.bank0 else t.patch.bank1) = patchBank (s.nor.patchStore) ∧
    t.patch.version = BitVec.ofNat 16 (field (s.nor.patchStore) 6 2) ∧ t.patch.digest = patchDigest (s.nor.patchStore) ∧ t.patch.lastResult
    = 1 ∧ t.patch.switching = true ∧ t.nor = s.nor) ∧ (s.patchCheck (s.nor.patchStore) ≠ 1 → EndedWith t c x
    { Cpl.errVal 0x0 0x02 (BitVec.ofNat 32 (s.patchCheck (s.nor.patchStore))) with errLoc := 0xFFFF } ∧ t.patch =
    { s.patch with lastResult := BitVec.ofNat 4 (s.patchCheck (s.nor.patchStore)) } ∧ t.nor = s.nor) ∧ t.names = s.names) ∧
  (∀ (s : State) (c : Nat) (x : Ctx), AtHand s c (isAction 0xCA 3) x → patchFields x.entry = none → s.patch.switching = false →
    s.ident.sealed = false → Does (.patchClear c) s fun t => EndedWith t c x Cpl.ok ∧ t.patch.newest = (!s.patch.newest) ∧ (if
    s.patch.newest then t.patch.bank0 else t.patch.bank1) = Bank.empty ∧ t.patch.version = 0 ∧ t.patch.digest = 0 ∧ t.nor = s.nor ∧ t.names
    = s.names) ∧
  (∀ (s : State) (c : Nat) (x : Ctx), AtHand s c (isAction 0xCA 3) x → patchFields x.entry = none → s.patch.switching = true → Does
    (.patchClear c) s fun t => EndedWith t c x Cpl.seqError ∧ t.patch = { s.patch with lastResult := 6 } ∧ t.seqs = s.seqs ∧ t.names =
    s.names) ∧
  (∀ (s : State) (c : Nat) (x : Ctx), AtHand s c (isAction 0xCA 3) x → patchFields x.entry = none → s.patch.switching = false →
    s.ident.sealed = true → 255 ≤ s.ident.addenda + s.ident.due.length → Does (.patchClear c) s fun t => EndedWith t c x Cpl.seqError ∧
    t.patch = s.patch ∧ t.seqs = s.seqs ∧ t.names = s.names) ∧
  (∀ (s : State), s.boot.released = true → s.boot.complete = false → ((fins 64).all fun a => (s.seq a).st == .offline) = true → field
    s.nor.patchStore 0 4 ≠ 0x504D5A49 → (s.patch.bankOf s.patch.newest).redirect 0 = 0 → ((fins 64).all fun a => !(s.seq a).outOfService &&
    !(s.seq a).switchPending && (s.seq a).queue == []) = true → Does (.bootPatchLoad) s fun t => ((fins 64).all fun a => (t.seq a).st ==
    .idle) = true ∧ t.patch = s.patch ∧ t.nor = s.nor ∧ t.names = s.names) ∧
  (∀ (s : State), s.boot.released = true → s.boot.complete = false → ((fins 64).all fun a => (s.seq a).st == .offline) = true → field
    s.nor.patchStore 0 4 = 0x504D5A49 → ((fins 64).all fun a => !(s.seq a).outOfService && !(s.seq a).switchPending && (s.seq a).queue ==
    []) = true → Does (.bootPatchLoad) s fun t => (s.patchCheck s.nor.patchStore = 1 → t.patch.bank1 = patchBank s.nor.patchStore ∧
    t.patch.newest = true ∧ t.patch.version = BitVec.ofNat 16 (field s.nor.patchStore 6 2) ∧ t.patch.digest = patchDigest s.nor.patchStore ∧
    t.patch.lastResult = 1 ∧ t.patch.bootInvalid = s.patch.bootInvalid ∧ (∀ a : ActId, (t.seq a).bank = true) ∧ ((patchBank
    s.nor.patchStore).redirect 0 = 0 → ∀ a : ActId, (t.seq a).st = .idle)) ∧ (s.patchCheck s.nor.patchStore ≠ 1 → t.patch.bootInvalid = true
    ∧ t.patch.bank1 = s.patch.bank1 ∧ t.patch.newest = s.patch.newest ∧ ((s.patch.bankOf s.patch.newest).redirect 0 = 0 → ∀ a : ActId,
    (t.seq a).st = .idle)) ∧ t.nor = s.nor ∧ t.names = s.names)

/-- What an access to the status window and a joint reset do (spec/14 R523 to R525, R532 to R536; spec/11 R409). A read answers its
requester with the register's value and clears an RC field of the count it returned. A read of a _LO register captures the value of its _HI
for that requester; the next read of the _HI answers what was captured, once, and any other the current value. A counter behind a stopped
clock hangs, and a later access of the same requester waits behind it. A write clears RW1C bits and nothing else. The release of a joint
reset clears the port's stale bit, and the hung read answers 0. -/
def Obligations.CrossingCommands : Prop :=
  (∀ (s : State) (q : Req) (off : Nat), s.canAccess q off = true → (s.xing.hung.any fun h => h.who == q) = false → s.stopped off = none →
    off % 4 = 0 → (s.xing.captured.find? fun c => c.1 == q && c.2.1 == off) = none → Does (.rcRegisterRead q off) s fun t => t.out.head? =
    some (.value q off (s.regWord (regAt off))) ∧ t.out.length = s.out.length + 1 ∧ (regAt off = .xing 12 → t.xing.discards = 0) ∧ (regAt
    off = .recorder 40 → t.book.drops = 0) ∧ t.acts = s.acts ∧ t.names = s.names) ∧
  (∀ (s : State) (q : Req) (off : Nat), s.canAccess q off = true → (s.xing.hung.any fun h => h.who == q) = false → s.stopped off = none →
    off % 4 = 0 → isLo off = true → (s.xing.captured.find? fun c => c.1 == q && c.2.1 == off) = none → Does (.loRegisterRead q off) s fun t
    => t.out.head? = some (.value q off (s.regWord (regAt off))) ∧ (t.xing.captured.find? fun c => c.1 == q && c.2.1 == off + 4) = some (q,
    off + 4, s.regWord (regAt (off + 4))) ∧ t.ports = s.ports ∧ t.names = s.names) ∧
  (∀ (s : State) (q : Req) (off : Nat) (v : W32), s.canAccess q off = true → (s.xing.hung.any fun h => h.who == q) = false → s.stopped off =
    none → off % 4 = 0 → (s.xing.captured.find? fun c => c.1 == q && c.2.1 == off) = some (q, off, v) → Does (.hiRegisterRead q off) s fun t
    => t.out.head? = some (.value q off v) ∧ (t.xing.captured.find? fun c => c.1 == q && c.2.1 == off) = none ∧ t.ports = s.ports ∧ t.names
    = s.names) ∧
  (∀ (s : State) (q : Req) (off : Nat), s.canAccess q off = true → (s.xing.hung.any fun h => h.who == q) = false → s.stopped off = none →
    off % 4 = 0 → isLo off = false → (s.xing.captured.find? fun c => c.1 == q && c.2.1 == off) = none → Does (.hiRegisterRead q off) s fun t
    => t.out.head? = some (.value q off (s.regWord (regAt off))) ∧ t.xing.captured = s.xing.captured ∧ t.names = s.names) ∧
  (∀ (s : State) (q : Req) (off : Nat) (p : PortId), s.canAccess q off = true → (s.xing.hung.any fun h => h.who == q) = false → s.stopped
    off = some p → Does (.rcRegisterRead q off) s fun t => t.out = s.out ∧ t.xing.hung = s.xing.hung ++
    [{ who := q, off := off, write := none, packet := none }] ∧ t.ports = s.ports) ∧
  (∀ (s : State) (q : Req) (off : Nat), s.canAccess q off = true → (s.xing.hung.any fun h => h.who == q) = true → Does (.rcRegisterRead q
    off) s fun t => t.out = s.out ∧ t.xing.hung = s.xing.hung ∧ t.xing.behind = s.xing.behind ++
    [{ who := q, off := off, write := none, packet := none }] ∧ t.ports = s.ports) ∧
  (∀ (s : State) (q : Req) (off : Nat) (v : W32), s.canAccess q off = true → (s.xing.hung.any fun h => h.who == q) = false → s.stopped off =
    none → Does (.statusWindowWrite q off v) s fun t => t = s.writeReg (regAt off) v ∧ t.out = s.out ∧ (∀ p, regAt off = .port p 4 → (t.port
    p).events = w1c (s.port p).events v) ∧ ∀ p, (t.port p).smpCorr = (s.port p).smpCorr) ∧
  (∀ (s : State) (p : PortId), (s.port p).joint = true → (s.port p).clock = true → Does (.jointResetRelease p) s fun t => (t.port p).joint =
    false ∧ t.xing.stalePort = clearBit s.xing.stalePort p.val ∧ (s.xing.hung = [] → t.out = s.out ∧ ∀ r, r ≠ p → t.port r = s.port r)) ∧
  (∀ (s : State) (p : PortId) (q : Req) (off : Nat), (s.port p).joint = true → (s.port p).clock = true → regAt off = .port p 0x20 → off % 4
    = 0 → s.xing.hung = [{ who := q, off := off, write := none, packet := none }] → s.xing.behind = [] → Does (.jointResetRelease p) s fun t
    => t.out.head? = some (.value q off 0) ∧ t.xing.hung = [] ∧ (t.port p).smpCorr = (s.port p).smpCorr)

/-- What the destage commands do (spec/09 R335, R337, R338, R340, R343; spec/10 R384, R386, R387, R389, R391, R392, R395; spec/08 R312;
spec/01 R27, R29). DESTAGE_ROW takes a due row of a zone, with its parity; of a conventional namespace it takes a row of map pages into the
open backing zone. ROW_WRITE_DONE of a zone's row: it is on media and has left the buffer. MEDIA_CACHE_ROW_WRITE: dirty blocks of a partial
row become one media-cache row. CLEANING first frees the rows that nothing points to; where it does not run (half the space free, R391) that
is all, and where it runs it moves the live blocks of the chosen rows, that fit one row, into the open backing zone. RECLAMATION of a
backing zone that nothing points into any more resets it. MAP_PAGE_READ of a page whose place the directory in DRAM does not list brings it
into the map-page area. RECONSTRUCT_READ and CAL_RECONSTRUCT, of a read of one block that a direct read cannot give, end it with the block
reconstructed from K others, the second 20 ms after the break or the wait began. WRITE_POINTER_RECOVERY of a zone that was open, with
nothing of it buffered or cached, makes it Closed at its recorded write pointer. EFFECTIVE_LIMIT_DROP tells E and the dirty data. -/
def Obligations.DestageCommands : Prop :=
  (∀ (s : State) (ns : Nat) (zone : Nat) (row : Nat) (x : Ns) (g : Group) (i : Nat) (data : List Blk), s.ns? ns = some x → s.names.dumping =
    false → x.zoned = true → stripeOf (s.nsGroups x) zone = some (g, i) → s.takesRows g i = true → s.mayWrite = true → s.rowWritable g i row
    = true → s.dueRow x zone row = some data → row = s.nextRow ns zone → s.pair.mode = false → Does (.destageRow ns zone row) s fun t =>
    t.names.flights = s.names.flights ++
    [{ ns := ns, zone := zone, row := row, data := data, parity := rowParity g.k g.m data, pages := [], dirs := [], ents := [], places :=
        [], moves := [] }] ∧ t.names.buffer = s.names.buffer ∧ t.prot = s.prot ∧ t.ctxs = s.ctxs) ∧
  (∀ (s : State) (ns : Nat) (zone : Nat) (row : Nat) (x : Ns) (g : Group) (i : Nat) (f : RowFlight), s.ns? ns = some x → s.names.dumping =
    false → (s.names.flights.find? fun f => f.ns == ns && f.zone == zone && f.row == row) = some f → x.zoned = true → x.nsid = ns → stripeOf
    (s.nsGroups x) zone = some (g, i) → row = (s.zone ns zone).rows → s.stripeLost g i = false → s.rowWritable g i row = true → s.ctxs = []
    → s.power.entering = false → s.mirrors = false → Does (.rowWriteDone ns zone row) s fun t => (t.zone ns zone).rows = row + 1 ∧
    (t.names.flights.all fun y => !(y.ns == ns && y.zone == zone && y.row == row)) = true ∧ t.names.buffer = s.names.buffer.filter (fun d =>
    !(d.ns == ns && decide (x.rowLba zone row ≤ d.lba) && decide (d.lba < x.rowLba zone row + rowBlocks x.narrow))) ∧ t.names.map =
    s.names.map ∧ t.names.lost = s.names.lost) ∧
  (∀ (s : State) (ns : Nat) (zone : Nat) (row : Nat) (x : Ns) (l : List Dirty) (acts : List ActId), s.ns? ns = some x → s.names.dumping =
    false → x.zoned = true → s.mayWrite = true → (s.dueRow x zone row).isSome = false → s.spaceIn ns (x.rowLba zone row) (rowBlocks
    x.narrow) = true → (s.names.flights.any fun f => f.ns == ns && f.zone == zone && f.row == row) = false → l = (s.names.unstored.filter
    fun d => d.ns == ns && decide (x.rowLba zone row ≤ d.lba) && decide (d.lba < x.rowLba zone row + rowBlocks x.narrow)).take 512 → l ≠ []
    → s.mcChoose false = some acts → (s.putMcRow ns (.part zone row) (l.map fun d => (d.lba, d.data))).isSome = true → s.prot.mcRows.any
    McRow.isDump = false → s.ctxs = [] → s.power.entering = false → s.mirrors = false → Does (.mediaCacheRowWrite ns zone row) s fun t =>
    t.prot.mcRows = s.prot.mcRows ++
    [{ id := s.prot.nextMc, ns := ns, kind := .part zone row, blocks := l.map (fun d => (d.lba, d.data)), parity := rowParity 8 2 (l.map
        (fun d => d.data) ++ List.replicate (512 - l.length) 0), strips := acts.map (fun a => (a, s.mcNext a)) }] ∧ t.prot.nextMc =
    s.prot.nextMc + 1 ∧ t.names.buffer = s.names.buffer.filter (fun d => !l.contains d) ∧ t.names.zones = s.names.zones) ∧
  (∀ (s : State), s.boot.restored = true → s.freeRows.cleans = false → Does (.cleaning) s fun t => t = s.freeRows) ∧
  (∀ (s : State) (ns : Nat) (zone : Nat) (x : Ns), s.ns? ns = some x → s.names.dumping = false → s.destageFirst = false →
    s.names.dirsOut.contains x.nsid = false → x.zoned = false → s.zonesOf x < 16 + (s.usedZones ns).length → (sortBy (fun z => (s.zoneLive x
    z).length) (s.reclaimZones x)).head? = some zone → s.zoneLive x zone = [] → s.unreferenced x zone = true → s.ctxs = [] →
    s.power.entering = false → s.mirrors = false → Does (.reclamation ns) s fun t => (t.zone ns zone).st = .empty ∧ (t.zone ns zone).wp = 0
    ∧ (t.zone ns zone).rows = 0 ∧ t.names.map = s.names.map ∧ t.names.buffer = s.names.buffer) ∧
  (∀ (s : State) (ns : Nat) (page : Nat) (x : Ns), s.ns? ns = some x → s.pageAway ns (512 * page) = true → s.names.mapDir = [] → s.ctxs = []
    → Does (.mapPageRead ns page) s fun t => (t.pageSlot ns page).isSome = true ∧ t.names.map = s.names.map ∧ t.names.mapMedia =
    s.names.mapMedia) ∧
  (∀ (s : State) (c : Nat) (lba : Nat) (y : Ctx) (n : Ns) (f : Fn) (g : Group) (i : Nat) (j : Nat) (k : Nat) (v : Blk), s.ctx? c = some y →
    y.stage = .waiting → isIoOp 0x02 y = true → y.lba = lba → y.nlb = 1 → y.got = [] → y.saved = [] → y.wait = .sectors [lba] → s.ns? y.ns =
    some n → y.origin = .host f → (s.fn f).d3hot = false → s.blocked y = false → s.find n lba = .media g i j k → s.sectorOk y.failed g i j k
    = false → s.reconstruct y.failed g i j k = some v → Does (.reconstructRead c lba) s fun t => (t.ctx? c).any (fun z => z.stage ==
    .decided && z.cpl == some (y.stamp { Cpl.ok with blocks := [v] })) = true ∧ t.names = s.names ∧ t.prot = s.prot) ∧
  (∀ (s : State) (c : Nat) (lba : Nat) (y : Ctx) (n : Ns) (f : Fn) (g : Group) (i : Nat) (j : Nat) (k : Nat) (v : Blk) (br : Break), s.ctx?
    c = some y → y.stage = .waiting → isIoOp 0x02 y = true → y.lba = lba → y.nlb = 1 → y.got = [] → y.saved = [] → y.wait = .sectors [lba] →
    s.ns? y.ns = some n → y.origin = .host f → (s.fn f).d3hot = false → s.blocked y = false → s.cal.reconstruct = true → s.find n lba =
    .media g i j k → (s.acal (s.actOfPlace (s.placeOf g i j))).brk = some br → (((List.range g.width).filter (· != j)).any fun t => (s.acal
    (s.actOfPlace (s.placeOf g i t))).brk.isSome) = false → s.reconstruct y.failed g i j k = some v → Does (.calReconstruct c) s fun t =>
    (t.ctx? c).any (fun z => z.stage == .decided && z.cpl == some (y.stamp { Cpl.ok with blocks := [v] })) = true ∧ t.names = s.names ∧
    t.prot = s.prot ∧ max br.at_ y.waitAt + 20 * Config.ms ≤ t.now) ∧
  (∀ (s : State) (ns : Nat) (zone : Nat) (x : Ns), s.ns? ns = some x → s.names.toFind.contains (ns, zone) = true → s.boot.restored = true →
    (s.nsPorts ns).all s.portServed = true → s.prot.mcRows = [] → s.names.buffer = [] → s.names.lost = [] → Does (.writePointerRecovery ns
    zone) s fun t => (t.zone ns zone).st = .closed ∧ (t.zone ns zone).wp = max (s.zone ns zone).recWp ((s.zone ns zone).rows * rowBlocks
    x.narrow) ∧ (t.zone ns zone).rows = (s.zone ns zone).rows ∧ t.names.map = s.names.map) ∧
  (∀ (s : State), s.limitE < s.dirtyBytes → s.boot.released = true → s.book.ready = true → Does (.effectiveLimitDrop) s fun t =>
    (t.book.inbox.any fun e => e.cls == 8 && e.code == 0x8001 && e.payload == pay [(8, s.limitE), (8, s.dirtyBytes)]) = true ∧ t.names =
    s.names ∧ t.prot = s.prot) ∧
  (∀ (s : State) (x : Ns) (g : Group) (i : Nat) (z : Nat) (k : Nat) (l : List (Nat × W64 × Blk)), s.boot.restored = true → s.freeRows = s →
    s.cleans = true → s.names.nss = [x] → x.zoned = false → s.openZone x = some (z, k) → stripeOf (s.nsGroups x) z = some (g, i) → k /
    rowBlocks x.narrow = s.nextRow x.nsid z → s.mayWrite = true → s.rowWritable g i (k / rowBlocks x.narrow) = true → l =
    (s.cleaningRows.filter fun r => r.ns == x.nsid).flatMap s.liveBlocks → l ≠ [] → l.length ≤ rowBlocks x.narrow → (∀ q ∈ l,
    s.names.pagesDirty.contains (x.nsid, q.1 / 512) = true) → s.ctxs = [] → s.power.entering = false → Does (.cleaning) s fun t =>
    (t.names.flights.any fun f => f.ns == x.nsid && f.zone == z && f.row == k / rowBlocks x.narrow && f.moves == l.map (fun q => (q.1,
    q.2.1)) && f.data == l.map (fun q => q.2.2) ++ List.replicate (rowBlocks x.narrow - l.length) 0) = true ∧ t.names.flights.length =
    s.names.flights.length + 1 ∧ (t.names.nss.map Ns.backing) = [some (z, k + rowBlocks x.narrow)] ∧ t.names.map = s.names.map ∧
    t.names.buffer = s.names.buffer ∧ t.prot.mcRows = s.prot.mcRows) ∧
  (∀ (s : State) (ns : Nat) (zone : Nat) (row : Nat) (x : Ns) (g : Group) (i : Nat) (f : RowFlight), s.ns? ns = some x → s.names.dumping =
    false → x.zoned = false → stripeOf (s.nsGroups x) zone = some (g, i) → s.takesRows g i = true → s.mayWrite = true → s.rowWritable g i
    row = true → s.openZone x = some (zone, row * rowBlocks x.narrow) → s.names.dirsOut.contains ns = false → f = s.mapRow x zone row →
    f.pages ≠ [] → Does (.destageRow ns zone row) s fun t => t.names.flights.length = s.names.flights.length + 1 ∧
    (t.names.flights.getLast?.map fun y => (y.ns, y.zone, y.row, y.pages, y.data)) = some (f.ns, f.zone, f.row, f.pages, f.data) ∧
    t.names.map = s.names.map ∧ t.names.buffer = s.names.buffer ∧ t.prot = s.prot)

/-- What a power failure and the bring-up after it do (spec/10 R400 to R403; spec/13 R501; spec/21 R725, R726). POWER_FAIL_DUMP: PWRFAIL#
for 200 ns or less changes nothing; for 1 µs or more before boot complete it is only noted; later, with no command in the device, it starts
the dump: fetching stops, destage and rebuild work end, the buffer and the map are kept. DUMP_END_MARK, once all is dumped, stores the row
count and the digest of the index, and the spindles coast. DUMP_RESTORE without a readable index gives the dump up and tells the loss; with
one, a dumped block is dirty again. MAP_JOURNAL_REPLAY ends bring-up's wait for the journal and sets its event. -/
def Obligations.PowerFailCommands : Prop :=
  (∀ (s : State) (w : Nat), w ≤ 200 → Does (.powerFailDump w) s fun t => t = s) ∧
  (∀ (s : State) (w : Nat), 1000 ≤ w → s.pins.pwrfail = false → s.boot.complete = false → Does (.powerFailDump w) s fun t => t = s.modPins
    (fun p => { p with pwrfail := true, pwrfailAt := s.now })) ∧
  (∀ (s : State) (w : Nat), 1000 ≤ w → s.pins.pwrfail = false → s.boot.complete = true → s.aon.hold = .running → s.ctxs = [] → Does
    (.powerFailDump w) s fun t => t.pins.pwrfail = true ∧ t.names.dumping = true ∧ t.names.dumpAt = s.now ∧ t.fa.fetchStopped = true ∧
    t.fb.fetchStopped = true ∧ t.names.flights = [] ∧ t.prot.works = [] ∧ t.names.buffer = s.names.buffer ∧ t.names.map = s.names.map) ∧
  (∀ (s : State), s.names.dumping = true → ((s.prot.mcRows.filter fun r => r.kind == .dumpData).map fun r => r.blocks.length).sum =
    s.dumpBlocks.length → Does (.dumpEndMark true) s fun t => t.nor.config.dumpMark = some
    { rows := (s.prot.mcRows.filter McRow.isDump).length, digest := digest (indexBytes (s.dumpBlocks.map Prod.fst)) } ∧ t.names.dumping =
    false ∧ t.names.buffer = s.names.buffer ∧ t.prot = s.prot ∧ ∀ p, (s.port p).cmdUp = true → (t.spin p).output = 0 ∧ (t.spin p).step =
    none) ∧
  (∀ (s : State) (missing : List Nat), s.boot.released = true → s.boot.restored = false → s.ctxs = [] → s.power.entering = false → s.mirrors
    = false → s.boot.complete = false → Does (.dumpRestore false missing) s fun t => t.boot.restored = true ∧ t.boot.backupFailed = true ∧
    t.nor.config.dumpMark = none ∧ t.prot.mcRows.any McRow.isDump = false ∧ t.names.buffer = s.names.buffer ∧ t.names.zones = s.names.zones) ∧
  (∀ (s : State) (ns : Nat) (lba : Nat) (b : Blk) (x : Ns) (m : DumpMark) (r : McRow), s.boot.released = true → s.boot.restored = false →
    s.ctxs = [] → s.power.entering = false → s.mirrors = false → s.boot.complete = false → s.prot.mcRows.filter (fun y => y.kind ==
    .dumpData) = [r] → r.blocks = [(dumpKey 0 ns lba, b)] → s.mcMissing r ≤ 2 → s.dumpIndex = [dumpKey 0 ns lba] → ((s.prot.mcRows.filter
    fun y => y.kind == .dumpIndex).all fun y => decide (s.mcMissing y ≤ 2)) = true → s.nor.config.dumpMark = some m → m.digest = digest
    (indexBytes [dumpKey 0 ns lba]) → s.ns? ns = some x → x.zoned = false → ns < 2 ^ 14 → lba < 2 ^ 48 → Does (.dumpRestore true []) s fun t
    => t.boot.restored = true ∧ t.boot.backupFailed = s.boot.backupFailed ∧ (t.names.buffer.any fun d => d.ns == ns && d.lba == lba &&
    d.data == b) = true ∧ t.names.lost = s.names.lost.filter (fun q => !(q.1 == ns && q.2 == lba))) ∧
  (∀ (s : State), s.boot.released = true → s.boot.replayed = false → Does (.mapJournalReplay) s fun t => t.boot.replayed = true ∧
    t.mem.events.getLsbD 6 = true ∧ t.names.map = s.names.map ∧ t.names.buffer = s.names.buffer)

/-- What the features do (spec/11 R418, R436, R440, R445, R446, R449; spec/10 R397; spec/12 R487, R488, Table 12-13; spec/15 R550).
GET_FEATURES with Select 0 returns the value in force of each feature that is known, 0x04 by its sensor and kind, 0x09 by its vector, 0x16
as 512 bytes; an unknown feature is an invalid field. Each SET_FEATURES of a standard feature, not to be saved, takes its fields on its
function and leaves the queues: arbitration, power management, the thresholds of one sensor or of all three (an unknown sensor is an invalid
field), interrupt coalescing, the coalescing of a vector, the event configuration; Number of Queues returns 63 for both counts; the volatile
write cache is switched on, or off with a clean buffer and no other command in the device, at once. A save is refused, shown for
Arbitration. A vendor feature (freeze on error, throttle grace, rebuild share, concurrent write limit, calibration threshold) within its
range is in force at once and, with SV, in the configuration store; outside the range the numeric ones are an invalid field. -/
def Obligations.FeatureCommands : Prop :=
  (∀ (s : State) (c : Nat) (x : Ctx) (f : Fn), AtHand s c (isAdminOp 0x0A) x → x.origin = .host f → knownFeatures.contains (bits
    x.entry.cdw10 7 0) = true → bits x.entry.cdw10 10 8 = 0 → bits x.entry.cdw10 7 0 ≠ 4 → bits x.entry.cdw10 7 0 ≠ 9 → bits x.entry.cdw10 7
    0 ≠ 0x16 → Does (.getFeatures c) s fun t => EndedWith t c x (Cpl.val (s.featureNow f (bits x.entry.cdw10 7 0) x.entry.cdw11)) ∧ t.names
    = s.names ∧ t.nor = s.nor ∧ (t.fn f).sqs = (s.fn f).sqs) ∧
  (∀ (s : State) (c : Nat) (x : Ctx) (f : Fn), AtHand s c (isAction 0x09 1) x → x.origin = .host f → saves x.entry = false → Does
    (.setFeaturesArbitration c) s fun t => EndedWith t c x Cpl.ok ∧ (t.fn f).ab.val = bits x.entry.cdw11 2 0 ∧ (t.fn f).lpw = bits
    x.entry.cdw11 15 8 ∧ (t.fn f).mpw = bits x.entry.cdw11 23 16 ∧ (t.fn f).hpw = bits x.entry.cdw11 31 24 ∧ (t.fn f).sqs = (s.fn f).sqs ∧
    t.names = s.names) ∧
  (∀ (s : State) (c : Nat) (x : Ctx) (f : Fn), AtHand s c (isAction 0x09 2) x → x.origin = .host f → saves x.entry = false → bits
    x.entry.cdw11 4 0 ≤ 3 → Does (.setFeaturesPowerManagement c) s fun t => EndedWith t c x Cpl.ok ∧ (t.fn f).ps.val = bits x.entry.cdw11 4
    0 ∧ (t.fn f).lastOp = (if bits x.entry.cdw11 4 0 = 3 then (s.fn f).lastOp else (t.fn f).ps) ∧ t.power = s.power ∧ (t.fn f).sqs = (s.fn
    f).sqs ∧ t.names = s.names) ∧
  (∀ (s : State) (c : Nat) (x : Ctx) (f : Fn) (i : Fin 3), AtHand s c (isAction 0x09 4) x → x.origin = .host f → saves x.entry = false →
    tmpSel x.entry.cdw11 = [i] → bits x.entry.cdw11 21 20 = 0 → Does (.setFeaturesTemperatureThreshold c) s fun t => EndedWith t c x Cpl.ok
    ∧ (t.fn f).overTemp[i] = bits x.entry.cdw11 15 0 ∧ (∀ j, j ≠ i → (t.fn f).overTemp[j] = (s.fn f).overTemp[j]) ∧ (t.fn f).underTemp =
    (s.fn f).underTemp ∧ (t.fn f).sqs = (s.fn f).sqs ∧ t.names = s.names) ∧
  (∀ (s : State) (c : Nat) (x : Ctx) (f : Fn) (i : Fin 3), AtHand s c (isAction 0x09 4) x → x.origin = .host f → saves x.entry = false →
    tmpSel x.entry.cdw11 = [i] → bits x.entry.cdw11 21 20 = 1 → Does (.setFeaturesTemperatureThreshold c) s fun t => EndedWith t c x Cpl.ok
    ∧ (t.fn f).underTemp[i] = bits x.entry.cdw11 15 0 ∧ (∀ j, j ≠ i → (t.fn f).underTemp[j] = (s.fn f).underTemp[j]) ∧ (t.fn f).overTemp =
    (s.fn f).overTemp ∧ (t.fn f).sqs = (s.fn f).sqs ∧ t.names = s.names) ∧
  (∀ (s : State) (c : Nat) (x : Ctx) (f : Fn), AtHand s c (isAction 0x09 6) x → x.origin = .host f → saves x.entry = false →
    x.entry.cdw11.getLsbD 0 = true → Does (.setFeaturesVolatileWriteCache c) s fun t => EndedWith t c x Cpl.ok ∧ t.names.wce = true ∧
    t.names.buffer = s.names.buffer ∧ (t.fn f).sqs = (s.fn f).sqs) ∧
  (∀ (s : State) (c : Nat) (x : Ctx) (f : Fn), AtHand s c (isAction 0x09 6) x → x.origin = .host f → saves x.entry = false →
    x.entry.cdw11.getLsbD 0 = false → s.ctxs = [x] → s.dirtyBytes = 0 → Does (.setFeaturesVolatileWriteCache c) s fun t => EndedWith t c x
    Cpl.ok ∧ t.names.wce = false ∧ t.names.buffer = s.names.buffer ∧ (t.fn f).sqs = (s.fn f).sqs) ∧
  (∀ (s : State) (c : Nat) (x : Ctx) (f : Fn), AtHand s c (isAction 0x09 7) x → x.origin = .host f → saves x.entry = false → Does
    (.setFeaturesNumberOfQueues c) s fun t => EndedWith t c x (Cpl.val (word [(63, 0), (63, 16)])) ∧ (t.fn f).sqs = (s.fn f).sqs ∧ t.names =
    s.names) ∧
  (∀ (s : State) (c : Nat) (x : Ctx) (f : Fn), AtHand s c (isAction 0x09 8) x → x.origin = .host f → saves x.entry = false → Does
    (.setFeaturesInterruptCoalescing c) s fun t => EndedWith t c x Cpl.ok ∧ (t.fn f).thr = bits x.entry.cdw11 7 0 ∧ (t.fn f).time = bits
    x.entry.cdw11 15 8 ∧ (t.fn f).sqs = (s.fn f).sqs ∧ t.names = s.names) ∧
  (∀ (s : State) (c : Nat) (x : Ctx) (f : Fn) (v : Fin 65), AtHand s c (isAction 0x09 9) x → x.origin = .host f → saves x.entry = false →
    bits x.entry.cdw11 15 0 = v.val → Does (.setFeaturesInterruptVectorConfig c) s fun t => EndedWith t c x Cpl.ok ∧ ((t.fn f).vec v).cd =
    x.entry.cdw11.getLsbD 16 ∧ ((t.fn f).vec v).count = ((s.fn f).vec v).count ∧ (t.fn f).sqs = (s.fn f).sqs ∧ t.names = s.names) ∧
  (∀ (s : State) (c : Nat) (x : Ctx) (f : Fn), AtHand s c (isAction 0x09 11) x → x.origin = .host f → saves x.entry = false → Does
    (.setFeaturesAsyncEventConfig c) s fun t => EndedWith t c x Cpl.ok ∧ (t.fn f).asyncCfg = x.entry.cdw11 ∧ (t.fn f).sqs = (s.fn f).sqs ∧
    t.names = s.names) ∧
  (∀ (s : State) (c : Nat) (x : Ctx) (f : Fn), AtHand s c (isAction 0x09 192) x → x.origin = .host f → saves x.entry = false → bits
    x.entry.cdw11 31 1 = 0 → Does (.setFeaturesFreezeOnError c) s fun t => EndedWith t c x Cpl.ok ∧ (t.fn f).freeze = x.entry.cdw11.getLsbD
    0 ∧ t.nor = s.nor ∧ (t.fn f).sqs = (s.fn f).sqs ∧ t.names = s.names) ∧
  (∀ (s : State) (c : Nat) (x : Ctx) (f : Fn), AtHand s c (isAction 0x09 192) x → x.origin = .host f → saves x.entry = true → bits
    x.entry.cdw11 31 1 = 0 → Does (.setFeaturesFreezeOnError c) s fun t => EndedWith t c x Cpl.ok ∧ (t.fn f).freeze = x.entry.cdw11.getLsbD
    0 ∧ t.nor.config.freezeOf f = x.entry.cdw11.getLsbD 0 ∧ (t.fn f).sqs = (s.fn f).sqs ∧ t.names = s.names) ∧
  (∀ (s : State) (c : Nat) (x : Ctx) (f : Fn), AtHand s c (isAction 0x09 193) x → x.origin = .host f → 1 ≤ bits x.entry.cdw11 5 0 → bits
    x.entry.cdw11 5 0 ≤ 60 → bits x.entry.cdw11 31 6 = 0 → saves x.entry = false → Does (.setFeaturesThrottleGrace c) s fun t => EndedWith t
    c x Cpl.ok ∧ t.therm.graceS = bits x.entry.cdw11 5 0 ∧ t.nor = s.nor ∧ t.names = s.names) ∧
  (∀ (s : State) (c : Nat) (x : Ctx) (f : Fn), AtHand s c (isAction 0x09 193) x → x.origin = .host f → 1 ≤ bits x.entry.cdw11 5 0 → bits
    x.entry.cdw11 5 0 ≤ 60 → bits x.entry.cdw11 31 6 = 0 → saves x.entry = true → Does (.setFeaturesThrottleGrace c) s fun t => EndedWith t
    c x Cpl.ok ∧ t.therm.graceS = bits x.entry.cdw11 5 0 ∧ t.nor.config.grace = bits x.entry.cdw11 5 0) ∧
  (∀ (s : State) (c : Nat) (x : Ctx) (f : Fn), AtHand s c (isAction 0x09 194) x → x.origin = .host f → 1 ≤ bits x.entry.cdw11 4 0 → bits
    x.entry.cdw11 4 0 ≤ 24 → bits x.entry.cdw11 31 5 = 0 → saves x.entry = false → Does (.setFeaturesRebuildShare c) s fun t => EndedWith t
    c x Cpl.ok ∧ t.chorus.rebuildShare = bits x.entry.cdw11 4 0 ∧ t.nor = s.nor ∧ t.names = s.names) ∧
  (∀ (s : State) (c : Nat) (x : Ctx) (f : Fn), AtHand s c (isAction 0x09 194) x → x.origin = .host f → 1 ≤ bits x.entry.cdw11 4 0 → bits
    x.entry.cdw11 4 0 ≤ 24 → bits x.entry.cdw11 31 5 = 0 → saves x.entry = true → Does (.setFeaturesRebuildShare c) s fun t => EndedWith t c
    x Cpl.ok ∧ t.chorus.rebuildShare = bits x.entry.cdw11 4 0 ∧ t.nor.config.rebuildShare = bits x.entry.cdw11 4 0) ∧
  (∀ (s : State) (c : Nat) (x : Ctx) (f : Fn), AtHand s c (isAction 0x09 195) x → x.origin = .host f → 1 ≤ bits x.entry.cdw11 6 0 → bits
    x.entry.cdw11 6 0 ≤ 64 → bits x.entry.cdw11 31 7 = 0 → saves x.entry = false → Does (.setFeaturesConcurrentWriteLimit c) s fun t =>
    EndedWith t c x Cpl.ok ∧ t.power.writeLimit = bits x.entry.cdw11 6 0 ∧ t.nor = s.nor ∧ t.seqs = s.seqs) ∧
  (∀ (s : State) (c : Nat) (x : Ctx) (f : Fn), AtHand s c (isAction 0x09 195) x → x.origin = .host f → 1 ≤ bits x.entry.cdw11 6 0 → bits
    x.entry.cdw11 6 0 ≤ 64 → bits x.entry.cdw11 31 7 = 0 → saves x.entry = true → Does (.setFeaturesConcurrentWriteLimit c) s fun t =>
    EndedWith t c x Cpl.ok ∧ t.power.writeLimit = bits x.entry.cdw11 6 0 ∧ t.nor.config.writeLimit = bits x.entry.cdw11 6 0) ∧
  (∀ (s : State) (c : Nat) (x : Ctx) (f : Fn), AtHand s c (isAction 0x09 196) x → x.origin = .host f → 1 ≤ bits x.entry.cdw11 3 0 → bits
    x.entry.cdw11 3 0 ≤ 15 → bits x.entry.cdw11 31 4 = 0 → saves x.entry = false → Does (.setFeaturesCalibrationThreshold c) s fun t =>
    EndedWith t c x Cpl.ok ∧ t.cal.threshold = bits x.entry.cdw11 3 0 ∧ t.nor = s.nor ∧ t.names = s.names) ∧
  (∀ (s : State) (c : Nat) (x : Ctx) (f : Fn), AtHand s c (isAction 0x09 196) x → x.origin = .host f → 1 ≤ bits x.entry.cdw11 3 0 → bits
    x.entry.cdw11 3 0 ≤ 15 → bits x.entry.cdw11 31 4 = 0 → saves x.entry = true → Does (.setFeaturesCalibrationThreshold c) s fun t =>
    EndedWith t c x Cpl.ok ∧ t.cal.threshold = bits x.entry.cdw11 3 0 ∧ t.nor.config.calThreshold = bits x.entry.cdw11 3 0) ∧
  (∀ (s : State) (c : Nat) (x : Ctx) (f : Fn), AtHand s c (isAction 0x09 195) x → x.origin = .host f → 64 < bits x.entry.cdw11 6 0 → Does
    (.setFeaturesConcurrentWriteLimit c) s fun t => EndedWith t c x (Cpl.invalid 11 0) ∧ t.power = s.power ∧ t.nor = s.nor) ∧
  (∀ (s : State) (c : Nat) (x : Ctx) (f : Fn) (i : Fin 3), AtHand s c (isAdminOp 0x0A) x → x.origin = .host f → bits x.entry.cdw10 7 0 = 4 →
    bits x.entry.cdw10 10 8 = 0 → tmpSel x.entry.cdw11 = [i] → bits x.entry.cdw11 21 20 ≤ 1 → Does (.getFeatures c) s fun t => EndedWith t c
    x (Cpl.val (s.featureNow f 4 x.entry.cdw11)) ∧ t.names = s.names ∧ t.nor = s.nor ∧ (t.fn f).sqs = (s.fn f).sqs) ∧
  (∀ (s : State) (c : Nat) (x : Ctx) (f : Fn), AtHand s c (isAdminOp 0x0A) x → x.origin = .host f → bits x.entry.cdw10 7 0 = 9 → bits
    x.entry.cdw10 10 8 = 0 → bits x.entry.cdw11 15 0 ≤ 64 → Does (.getFeatures c) s fun t => EndedWith t c x (Cpl.val (s.featureNow f 9
    x.entry.cdw11)) ∧ t.names = s.names ∧ t.nor = s.nor ∧ (t.fn f).sqs = (s.fn f).sqs) ∧
  (∀ (s : State) (c : Nat) (x : Ctx) (f : Fn), AtHand s c (isAdminOp 0x0A) x → x.origin = .host f → bits x.entry.cdw10 7 0 = 0x16 → bits
    x.entry.cdw10 10 8 = 0 → Does (.getFeatures c) s fun t => EndedWith t c x (Cpl.data (padTo 512 [BitVec.ofNat 8 (bit (s.fn f).acre)])) ∧
    t.names = s.names ∧ t.nor = s.nor ∧ (t.fn f).sqs = (s.fn f).sqs) ∧
  (∀ (s : State) (c : Nat) (x : Ctx) (f : Fn), AtHand s c (isAdminOp 0x0A) x → x.origin = .host f → knownFeatures.contains (bits
    x.entry.cdw10 7 0) = false → Does (.getFeatures c) s fun t => EndedWith t c x (Cpl.invalid 10 0) ∧ t.names = s.names ∧ t.nor = s.nor) ∧
  (∀ (s : State) (c : Nat) (x : Ctx) (f : Fn), AtHand s c (isAction 0x09 4) x → x.origin = .host f → saves x.entry = false → tmpSel
    x.entry.cdw11 = [0, 1, 2] → bits x.entry.cdw11 21 20 = 0 → Does (.setFeaturesTemperatureThreshold c) s fun t => EndedWith t c x Cpl.ok ∧
    (∀ j : Fin 3, (t.fn f).overTemp[j] = bits x.entry.cdw11 15 0) ∧ (t.fn f).underTemp = (s.fn f).underTemp ∧ t.names = s.names) ∧
  (∀ (s : State) (c : Nat) (x : Ctx) (f : Fn), AtHand s c (isAction 0x09 4) x → x.origin = .host f → saves x.entry = false → bits
    x.entry.cdw10 31 31 = 0 → tmpSel x.entry.cdw11 = [] → Does (.setFeaturesTemperatureThreshold c) s fun t => EndedWith t c x (Cpl.invalid
    11 16) ∧ t.fn f = s.fn f ∧ t.names = s.names) ∧
  (∀ (s : State) (c : Nat) (x : Ctx) (f : Fn), AtHand s c (isAction 0x09 1) x → x.origin = .host f → saves x.entry = true → Does
    (.setFeaturesArbitration c) s fun t => EndedWith t c x (Cpl.invalid 10 31) ∧ t.fn f = s.fn f ∧ t.names = s.names) ∧
  (∀ (s : State) (c : Nat) (x : Ctx) (f : Fn), AtHand s c (isAction 0x09 193) x → x.origin = .host f → (bits x.entry.cdw11 5 0 = 0 ∨ 60 <
    bits x.entry.cdw11 5 0) → Does (.setFeaturesThrottleGrace c) s fun t => EndedWith t c x (Cpl.invalid 11 0) ∧ t.therm = s.therm ∧ t.nor =
    s.nor) ∧
  (∀ (s : State) (c : Nat) (x : Ctx) (f : Fn), AtHand s c (isAction 0x09 194) x → x.origin = .host f → (bits x.entry.cdw11 4 0 = 0 ∨ 24 <
    bits x.entry.cdw11 4 0) → Does (.setFeaturesRebuildShare c) s fun t => EndedWith t c x (Cpl.invalid 11 0) ∧ t.chorus = s.chorus ∧ t.nor
    = s.nor) ∧
  (∀ (s : State) (c : Nat) (x : Ctx) (f : Fn), AtHand s c (isAction 0x09 196) x → x.origin = .host f → bits x.entry.cdw11 3 0 = 0 → Does
    (.setFeaturesCalibrationThreshold c) s fun t => EndedWith t c x (Cpl.invalid 11 0) ∧ t.cal = s.cal ∧ t.nor = s.nor)

/-- What the identity commands do (spec/16 R562, R563, R574, R576, R579, R580, R585 to R588). ATTESTATION_KEY_DERIVATION compares the
derived key with the certified one. MODULE_LOAD extends stage 12 before boot complete and changes nothing after it. PLAYBILL_SEAL, once
every port has ended, seals the Playbill with its signature, records the companions measured, and programs it into slot counter mod 256;
when programming fails it stays in DRAM, PLAYBILL_NOR_RETRY 10 s after the last try stores it, and a retry that fails leaves it for the
next. NOR_PRE_ERASE, with nothing to be written, erases what the next slot and the next ring sector hold; before release, or with a record
to be written, it does nothing. -/
def Obligations.IdentityCommands : Prop :=
  (∀ (s : State), s.booting = true → 4 ≤ s.aon.step.toNat → s.ident.keyReady = false → s.ident.keyFailed = false → Does
    (.attestationKeyDerivation) s fun t => t.ident.keyReady = (Config.certificate != [] && attestKey == Config.certifiedKey) ∧
    t.ident.keyFailed = !t.ident.keyReady ∧ t.ident.attestKey = digest attestKey ∧ t.ident.certPresent = (Config.certificate != []) ∧
    t.ident.stages = s.ident.stages ∧ t.nor = s.nor) ∧
  (∀ (s : State) (m : List Byte), s.boot.released = true → s.boot.complete = false → Does (.moduleLoad m) s fun t => t.ident.stages[(11 :
    Fin 12)] = digest (digestBytes s.ident.stages[(11 : Fin 12)] ++ digestBytes (digest m)) ∧ (∀ i : Fin 12, i ≠ 11 → t.ident.stages[i] =
    s.ident.stages[i]) ∧ t.nor = s.nor ∧ t.ports = s.ports) ∧
  (∀ (s : State) (m : List Byte), s.boot.complete = true → Does (.moduleLoad m) s fun t => t = s) ∧
  (∀ (s : State), s.boot.released = true → s.ident.sealed = false → s.allPortsEnded = true → Does (.playbillSeal true) s fun t =>
    t.ident.sealed = true ∧ t.ident.chainStart = s.previousRecord.isNone ∧ t.ident.playbill = s.playbillBody ++ s.sign "IZ-PB"
    s.playbillBody ∧ t.ident.newest = digest t.ident.playbill ∧ (recCounter t.ident.playbill % 256, t.ident.playbill) ∈ t.nor.playbills ∧
    t.ident.pendingNor = s.ident.pendingNor ∧ ∀ p : PortId, s.entryState p = 1 → (t.port p).recorded = (s.port p).companion :: (s.port
    p).recorded ∧ (t.port p).addendumNo = 0) ∧
  (∀ (s : State), s.boot.released = true → s.ident.sealed = false → s.allPortsEnded = true → Does (.playbillSeal false) s fun t =>
    t.ident.sealed = true ∧ t.ident.playbill = s.playbillBody ++ s.sign "IZ-PB" s.playbillBody ∧ t.ident.pendingNor = s.ident.pendingNor ++
    [(0, t.ident.playbill)] ∧ t.nor.playbills = s.nor.playbills ∧ t.nor.addenda = s.nor.addenda) ∧
  (∀ (s : State) (n : Nat) (bs : List Byte) (l : List (Nat × List Byte)), s.ident.pendingNor = (n, bs) :: l → Does (.playbillNorRetry true)
    s fun t => t.ident.pendingNor = l ∧ s.ident.norTryAt + 10 * Config.sec ≤ t.now ∧ (n = 0 → (recCounter bs % 256, bs) ∈ t.nor.playbills ∧
    t.nor.addenda = s.nor.addenda) ∧ (n ≠ 0 → (s.nor.ringNext, bs) ∈ t.nor.addenda ∧ t.nor.ringNext = (s.nor.ringNext + 1) % 256 ∧
    t.nor.playbills = s.nor.playbills)) ∧
  (∀ (s : State) (n : Nat) (bs : List Byte) (l : List (Nat × List Byte)), s.ident.pendingNor = (n, bs) :: l → Does (.playbillNorRetry false)
    s fun t => t.ident.pendingNor = (n, bs) :: l ∧ t.nor = s.nor ∧ t.ident.norTryAt = t.now ∧ s.ident.norTryAt + 10 * Config.sec ≤ t.now) ∧
  (∀ (s : State), s.boot.released = true → s.ident.due = [] → s.ident.pendingNor = [] → Does (.norPreErase) s fun t => (∀ q ∈
    t.nor.playbills, q ∈ s.nor.playbills ∧ q.1 ≠ (s.ident.bootCounter.toNat + bit s.ident.sealed) % 256) ∧ (∀ q ∈ t.nor.addenda, q ∈
    s.nor.addenda ∧ q.1 ≠ s.nor.ringNext) ∧ t.nor.erasedSector = some s.nor.ringNext ∧ t.nor.config = s.nor.config ∧ t.ident = s.ident) ∧
  (∀ (s : State), (s.boot.released = false ∨ s.ident.due ≠ [] ∨ s.ident.pendingNor ≠ []) → Does (.norPreErase) s fun t => t = s)

/-- What the security and firmware commands do (spec/16 R569, R571, R590 to R595, Table 16-13), under security protocol 0xF0.
SECURITY_RECEIVE_DIRECTORY, SECURITY_RECEIVE_PLAYBILL, SECURITY_RECEIVE_CERTIFICATE and SECURITY_RECEIVE_STAGES return the directory, a
record with its addenda, the certificate or the stages, cut to the length asked for; an index without a record is an invalid field.
SECURITY_SEND_NONCE keeps a nonce, which serves one QUOTE; without one it is a sequence error. KEY_MANIFEST_UPDATE: a manifest that
verifies, of a higher sequence, goes to the copy not in use; one that would lock out every valid slot is a sequence error, one that does not
verify, or is no newer, is invalid data, and nothing changes. FIRMWARE_IMAGE_DOWNLOAD writes its bytes at their offset; beyond the buffer it
is an invalid field. FIRMWARE_COMMIT_STAGE and FIRMWARE_COMMIT_STAGE_PREFER check the image and start a staging operation;
FIRMWARE_COMMIT_PREFER makes a valid slot preferred; the running slot is a sequence error. FIRMWARE_STAGING_BLOCK programs a block at its
place, the last step, when the slot reads back as the image, makes it valid, and a failure leaves the directory. -/
def Obligations.FirmwareCommands : Prop :=
  (∀ (s : State) (c : Nat) (x : Ctx), AtHand s c (fun y => isAdminOp 0x82 y && spsp y.entry == 0) x → secp x.entry = 0xF0 → Does
    (.securityReceiveDirectory c) s fun t => EndedWith t c x (Cpl.data ((s.directory).take x.entry.cdw11.toNat)) ∧ t.names = s.names) ∧
  (∀ (s : State) (c : Nat) (x : Ctx) (bs : List Byte), AtHand s c (isAdminOp 0x82) x → secp x.entry = 0xF0 → 1 ≤ spsp x.entry → spsp x.entry
    ≤ 0x100 → s.playbillWhole (spsp x.entry - 1) = some bs → Does (.securityReceivePlaybill c) s fun t => EndedWith t c x (Cpl.data
    ((bs).take x.entry.cdw11.toNat)) ∧ t.names = s.names) ∧
  (∀ (s : State) (c : Nat) (x : Ctx), AtHand s c (isAdminOp 0x82) x → secp x.entry = 0xF0 → 1 ≤ spsp x.entry → spsp x.entry ≤ 0x100 →
    s.playbillWhole (spsp x.entry - 1) = none → Does (.securityReceivePlaybill c) s fun t => EndedWith t c x (Cpl.invalid 10 8) ∧ t.names =
    s.names) ∧
  (∀ (s : State) (c : Nat) (x : Ctx), AtHand s c (fun y => isAdminOp 0x82 y && spsp y.entry == 0x200) x → secp x.entry = 0xF0 → Does
    (.securityReceiveCertificate c) s fun t => EndedWith t c x (Cpl.data ((Config.certificate).take x.entry.cdw11.toNat)) ∧ t.names =
    s.names) ∧
  (∀ (s : State) (c : Nat) (x : Ctx), AtHand s c (fun y => isAdminOp 0x82 y && spsp y.entry == 0x201) x → secp x.entry = 0xF0 → Does
    (.securityReceiveStages c) s fun t => EndedWith t c x (Cpl.data ((s.ident.stages.toList.flatMap digestBytes ++ digestBytes
    s.patch.digest).take x.entry.cdw11.toNat)) ∧ t.names = s.names) ∧
  (∀ (s : State) (c : Nat) (x : Ctx), AtHand s c (fun y => isAdminOp 0x81 y && spsp y.entry == 0x300) x → secp x.entry = 0xF0 → 32 ≤
    (x.entry.data.take x.entry.cdw11.toNat).length → Does (.securitySendNonce c) s fun t => EndedWith t c x Cpl.ok ∧ t.nonceOf x = some
    ((x.entry.data.take x.entry.cdw11.toNat).take 32) ∧ t.names = s.names) ∧
  (∀ (s : State) (c : Nat) (x : Ctx), AtHand s c (fun y => isAdminOp 0x82 y && spsp y.entry == 0x300) x → secp x.entry = 0xF0 → s.nonceOf x
    = none → Does (.quote c) s fun t => EndedWith t c x Cpl.seqError ∧ t.ident = s.ident ∧ t.names = s.names) ∧
  (∀ (s : State) (c : Nat) (x : Ctx) (n : List Byte), AtHand s c (fun y => isAdminOp 0x82 y && spsp y.entry == 0x300) x → secp x.entry =
    0xF0 → s.nonceOf x = some n → Does (.quote c) s fun t => EndedWith t c x (Cpl.data ((s.quoteBody n ++ s.sign "IZ-QT" (s.quoteBody
    n)).take x.entry.cdw11.toNat)) ∧ t.nonceOf x = none ∧ t.names = s.names) ∧
  (∀ (s : State) (c : Nat) (x : Ctx), AtHand s c (fun y => isAdminOp 0x81 y && spsp y.entry == 0x400) x → secp x.entry = 0xF0 → Does
    (.keyManifestUpdate c true) s fun t => (∀ m, readManifest (x.entry.data.take x.entry.cdw11.toNat) = some m → (∀ u, s.ident.manifest =
    some u → u.sequence.toNat < m.sequence.toNat) → s.locksOut m = false → EndedWith t c x Cpl.ok ∧ (if s.ident.manifest.isSome ∧
    s.ident.copy = false then t.nor.manifest1 = x.entry.data.take x.entry.cdw11.toNat ∧ t.nor.manifest0 = s.nor.manifest0 else
    t.nor.manifest0 = x.entry.data.take x.entry.cdw11.toNat ∧ t.nor.manifest1 = s.nor.manifest1)) ∧ (∀ m, readManifest (x.entry.data.take
    x.entry.cdw11.toNat) = some m → (∀ u, s.ident.manifest = some u → u.sequence.toNat < m.sequence.toNat) → s.locksOut m = true → EndedWith
    t c x Cpl.seqError ∧ t.nor = s.nor) ∧ (readManifest (x.entry.data.take x.entry.cdw11.toNat) = none → EndedWith t c x Cpl.badData ∧ t.nor
    = s.nor) ∧ t.ident = s.ident ∧ t.names = s.names) ∧
  (∀ (s : State) (c : Nat) (x : Ctx) (f : Fn), AtHand s c (isAdminOp 0x11) x → x.origin = .host f → 4 * (x.entry.cdw10.toNat + 1) + 4 *
    x.entry.cdw11.toNat ≤ downloadSize → Does (.firmwareImageDownload c) s fun t => EndedWith t c x Cpl.ok ∧ (t.fn f).download = bufWrite
    (s.fn f).download (4 * x.entry.cdw11.toNat) (x.entry.data.take (4 * (x.entry.cdw10.toNat + 1))) ∧ ∀ g, g ≠ f → t.fn g = s.fn g) ∧
  (∀ (s : State) (c : Nat) (x : Ctx) (f : Fn), AtHand s c (isCommit 0) x → x.origin = .host f → commitFs x.entry.cdw10 ≤ 2 → s.slotRuns
    (s.slotFor (commitFs x.entry.cdw10)) = false → s.activeOps 6 = [] → s.placeFull 6 = false → Does (.firmwareCommitStage c) s fun t =>
    (imageCheck s.ident.manifest (s.downloaded x) = 0 → EndedWith t c x (Cpl.val (BitVec.ofNat 32 t.nor.config.lastHandle)) ∧ ∃ o ∈
    t.longOps, o.handle = t.nor.config.lastHandle ∧ o.kind = 6 ∧ o.st = .running ∧ o.slot = s.slotFor (commitFs x.entry.cdw10) ∧ o.prefer =
    false ∧ o.cursor = 0 ∧ o.image = (s.downloaded x).take (imageLength (s.downloaded x))) ∧ (imageCheck s.ident.manifest (s.downloaded x) ≠
    0 → EndedWith t c x (Cpl.errVal 0x0 0x02 (BitVec.ofNat 32 (imageCheck s.ident.manifest (s.downloaded x)))) ∧ t.longOps = s.longOps) ∧
    t.nor.slotA = s.nor.slotA ∧ t.nor.slotB = s.nor.slotB) ∧
  (∀ (s : State) (c : Nat) (x : Ctx) (f : Fn), AtHand s c (isCommit 1) x → x.origin = .host f → commitFs x.entry.cdw10 ≤ 2 → s.slotRuns
    (s.slotFor (commitFs x.entry.cdw10)) = false → s.activeOps 6 = [] → s.placeFull 6 = false → Does (.firmwareCommitStagePrefer c) s fun t
    => (imageCheck s.ident.manifest (s.downloaded x) = 0 → EndedWith t c x (Cpl.val (BitVec.ofNat 32 t.nor.config.lastHandle)) ∧ ∃ o ∈
    t.longOps, o.handle = t.nor.config.lastHandle ∧ o.kind = 6 ∧ o.st = .running ∧ o.slot = s.slotFor (commitFs x.entry.cdw10) ∧ o.prefer =
    true ∧ o.cursor = 0 ∧ o.image = (s.downloaded x).take (imageLength (s.downloaded x))) ∧ (imageCheck s.ident.manifest (s.downloaded x) ≠
    0 → EndedWith t c x (Cpl.errVal 0x0 0x02 (BitVec.ofNat 32 (imageCheck s.ident.manifest (s.downloaded x)))) ∧ t.longOps = s.longOps) ∧
    t.nor.slotA = s.nor.slotA ∧ t.nor.slotB = s.nor.slotB) ∧
  (∀ (s : State) (c : Nat) (x : Ctx) (f : Fn), AtHand s c (isCommit 0) x → x.origin = .host f → commitFs x.entry.cdw10 ≤ 2 → s.slotRuns
    (s.slotFor (commitFs x.entry.cdw10)) = true → Does (.firmwareCommitStage c) s fun t => EndedWith t c x Cpl.seqError ∧ t.nor = s.nor) ∧
  (∀ (s : State) (c : Nat) (x : Ctx) (f : Fn), AtHand s c (isCommit 2) x → x.origin = .host f → commitFs x.entry.cdw10 ≤ 2 → s.slotRuns
    (s.slotFor (commitFs x.entry.cdw10)) = false → s.nor.dir.stateOf (s.slotFor (commitFs x.entry.cdw10)) = 1 → s.nor.dir.sequence.toNat + 1
    < 2 ^ 32 → Does (.firmwareCommitPrefer c) s fun t => EndedWith t c x Cpl.ok ∧ t.nor.dir.preferred = s.slotFor (commitFs x.entry.cdw10) ∧
    t.nor.dir.stateOf false = s.nor.dir.stateOf false ∧ t.nor.dir.stateOf true = s.nor.dir.stateOf true ∧ t.names = s.names) ∧
  (∀ (s : State) (c : Nat) (x : Ctx) (f : Fn), AtHand s c (isCommit 2) x → x.origin = .host f → commitFs x.entry.cdw10 ≤ 2 → (s.slotRuns
    (s.slotFor (commitFs x.entry.cdw10)) = true ∨ s.nor.dir.stateOf (s.slotFor (commitFs x.entry.cdw10)) ≠ 1) → Does (.firmwareCommitPrefer
    c) s fun t => EndedWith t c x Cpl.seqError ∧ t.nor = s.nor ∧ t.names = s.names) ∧
  (∀ (s : State) (o : LongOp), (s.running 6).head? = some o → s.mem.halted.contains 0x04 = false → o.suspendAsked = false → o.cancelAsked =
    false → (s.op? o.handle) = some o → o.cursor < o.total → Does (.firmwareStagingBlock true) s fun t => t.nor.slotOf o.slot = o.image.take
    (min o.total (o.cursor + 65536)) ∧ t.nor.slotOf (!o.slot) = s.nor.slotOf (!o.slot) ∧ t.nor.dir = s.nor.dir ∧ (t.op? o.handle).any (fun y
    => y.st == .running && y.done == min o.total (o.cursor + 65536)) = true ∧ t.names = s.names) ∧
  (∀ (s : State) (o : LongOp), (s.running 6).head? = some o → s.mem.halted.contains 0x04 = false → o.suspendAsked = false → o.cancelAsked =
    false → (s.op? o.handle) = some o → o.total ≤ o.cursor → s.nor.slotOf o.slot = o.image → s.nor.dir.sequence.toNat + 1 < 2 ^ 32 → Does
    (.firmwareStagingBlock true) s fun t => (t.op? o.handle).any (fun y => y.st == .completed && y.result == 0) = true ∧ t.nor.dir.stateOf
    o.slot = 1 ∧ t.nor.dir.attemptsOf o.slot = 0 ∧ t.nor.dir.preferred = (if o.prefer then o.slot else s.nor.dir.preferred) ∧ t.nor.slotOf
    o.slot = o.image ∧ t.names = s.names) ∧
  (∀ (s : State) (o : LongOp), (s.running 6).head? = some o → s.mem.halted.contains 0x04 = false → o.suspendAsked = false → o.cancelAsked =
    false → (s.op? o.handle) = some o → Does (.firmwareStagingBlock false) s fun t => (t.op? o.handle).any (fun y => y.st == .failed &&
    y.result == Cpl.internal.status) = true ∧ t.nor.dir = s.nor.dir ∧ t.nor.slotA = s.nor.slotA ∧ t.nor.slotB = s.nor.slotB ∧ t.names =
    s.names) ∧
  (∀ (s : State) (c : Nat) (x : Ctx) (m : Manifest) (u : Manifest) (ok : Bool), AtHand s c (fun y => isAdminOp 0x81 y && spsp y.entry ==
    0x400) x → secp x.entry = 0xF0 → s.ident.manifest = some u → Does (.keyManifestUpdate c ok) s fun t => readManifest (x.entry.data.take
    x.entry.cdw11.toNat) = some m → m.sequence.toNat ≤ u.sequence.toNat → EndedWith t c x Cpl.badData ∧ t.nor = s.nor) ∧
  (∀ (s : State) (c : Nat) (x : Ctx) (f : Fn), AtHand s c (isAdminOp 0x11) x → x.origin = .host f → 4 * (x.entry.cdw10.toNat + 1) ≤
    downloadSize → downloadSize < 4 * (x.entry.cdw10.toNat + 1) + 4 * x.entry.cdw11.toNat → Does (.firmwareImageDownload c) s fun t =>
    EndedWith t c x (Cpl.invalid 11 0) ∧ t.fn f = s.fn f) ∧
  (∀ (s : State) (c : Nat) (x : Ctx) (f : Fn), AtHand s c (isCommit 1) x → x.origin = .host f → commitFs x.entry.cdw10 ≤ 2 → s.slotRuns
    (s.slotFor (commitFs x.entry.cdw10)) = true → Does (.firmwareCommitStagePrefer c) s fun t => EndedWith t c x Cpl.seqError ∧ t.nor =
    s.nor)

/-- What the resets and enables of a host function do (spec/11 R410, R412 to R416, R443; spec/02 R85, R86; spec/21 R725). PERST_ASSERT of 1
µs or less changes nothing; of 100 µs or more, where the commands in the device are the function's and keep no data, the host function reset
ends them, deletes its queues and keeps those of the other function; PERST_DEASSERT notes its instant. CONFIG_REQUEST_READY, with a running
link and the self-test passed, ends the retry status. CC_EN_SET with allowed values makes the admin queues; with CC.CSS other than 0b110, or
an admin queue size of 0, it fails with CSTS.CFS. CC_EN_CLEAR and FUNCTION_LEVEL_RESET are host function resets, the first of which keeps
AQA. NORMAL_SHUTDOWN, with no command left, reads complete once the buffer is clean, ABRUPT_SHUTDOWN at once. PMCSR_D3HOT and, with no
command in the device, PMCSR_D0 set the device state. Before configuration requests are answered, one that arrives on a link that is up gets
a retry status and changes nothing else; on a link that is down none arrives. -/
def Obligations.HostResetCommands : Prop :=
  (∀ (s : State) (f : Fn) (w : Nat), w ≤ 1000 → Does (.perstAssert f w) s fun t => t = s) ∧
  (∀ (s : State) (f : Fn) (w : Nat), 100000 ≤ w → (s.ctxs.all fun x => x.origin == .host f && !x.keptData) = true → s.power.entering = false
    → Does (.perstAssert f w) s fun t => t.perstOf f = true ∧ t.ctxs = [] ∧ (t.fn f).sqs = [] ∧ (t.fn f).cqs = [] ∧ (t.fn f).rdy = false ∧
    (t.fn f).cfgReady = false ∧ (t.fn (otherFn f)).sqs = (s.fn (otherFn f)).sqs) ∧
  (∀ (s : State) (f : Fn), (match f with | .a => s.pins.perstA | .b => s.pins.perstB) = true → Does (.perstDeassert f) s fun t => (match f
    with | .a => t.pins.perstA | .b => t.pins.perstB) = false ∧ (t.fn f).perstOffAt = s.now ∧ t.ctxs = s.ctxs ∧ t.names = s.names) ∧
  (∀ (s : State) (f : Fn), s.aon.hold = .running → s.perstOf f = false → s.pins.refclk f = true → 4 ≤ s.aon.step.toNat → (s.fn f).cfgReady =
    false → Does (.configRequestReady f) s fun t => (t.fn f).cfgReady = true ∧ t.out = .crsEnd f :: s.out ∧ t.ctxs = s.ctxs ∧ t.names =
    s.names) ∧
  (∀ (s : State) (f : Fn) (cc : W32) (aqa : W32), (s.fn f).cfgReady = true → (s.fn f).d3hot = false → s.crosses f = true → (s.fn
    f).cc.getLsbD 0 = false → s.aon.error = 0 → bits (cc ||| 1) 6 4 = 6 → bits aqa 11 0 ≠ 0 → bits aqa 27 16 ≠ 0 → Does (.ccEnSet f cc aqa)
    s fun t => (t.fn f).sqs = [SubQ.fresh 0 (bits aqa 11 0 + 1) 0 0] ∧ (t.fn f).cqs = [CplQ.fresh 0 (bits aqa 27 16 + 1) 0 true] ∧ (t.fn
    f).cc = cc ||| 1 ∧ (t.fn f).rdy = (s.boot.complete && !(s.fn f).cfs)) ∧
  (∀ (s : State) (f : Fn) (cc : W32) (aqa : W32), (s.fn f).cfgReady = true → (s.fn f).d3hot = false → s.crosses f = true → (s.fn
    f).cc.getLsbD 0 = false → bits (cc ||| 1) 6 4 ≠ 6 → Does (.ccEnSet f cc aqa) s fun t => (t.fn f).cfs = true ∧ (t.fn f).rdy = (s.fn
    f).rdy ∧ (t.fn f).sqs = (s.fn f).sqs) ∧
  (∀ (s : State) (f : Fn), (s.fn f).cc.getLsbD 0 = true → (s.fn f).d3hot = false → s.crosses f = true → (s.ctxs.all fun x => x.origin ==
    .host f && !x.keptData) = true → s.power.entering = false → Does (.ccEnClear f) s fun t => t.ctxs = [] ∧ (t.fn f).sqs = [] ∧ (t.fn
    f).cqs = [] ∧ (t.fn f).rdy = false ∧ (t.fn f).cc = 0 ∧ (t.fn f).aqa = (s.fn f).aqa ∧ (t.fn (otherFn f)).sqs = (s.fn (otherFn f)).sqs) ∧
  (∀ (s : State) (f : Fn), (s.fn f).rdy = true → (s.fn f).d3hot = false → (s.fn f).shst = 0 → s.crosses f = true → s.ctxs = [] →
    s.power.entering = false → Does (.normalShutdown f) s fun t => (t.fn f).shst = (if s.dirtyBytes = 0 then 2 else 1) ∧ (t.fn
    f).fetchStopped = true ∧ t.names = { s.names with firstDue := t.names.firstDue }) ∧
  (∀ (s : State) (f : Fn), (s.fn f).rdy = true → (s.fn f).d3hot = false → (s.fn f).shst = 0 → s.crosses f = true → s.ctxs = [] →
    s.power.entering = false → Does (.abruptShutdown f) s fun t => (t.fn f).shst = 2 ∧ (t.fn f).fetchStopped = true ∧ t.names =
    { s.names with firstDue := t.names.firstDue }) ∧
  (∀ (s : State) (f : Fn), (s.fn f).cfgReady = true → s.linkUp f = true → (s.ctxs.all fun x => x.origin == .host f && !x.keptData) = true →
    s.power.entering = false → Does (.functionLevelReset f) s fun t => t.ctxs = [] ∧ (t.fn f).sqs = [] ∧ (t.fn f).cc = 0 ∧ (t.fn f).cfgReady
    = true ∧ (t.fn f).d3hot = false ∧ (t.fn (otherFn f)).sqs = (s.fn (otherFn f)).sqs) ∧
  (∀ (s : State) (f : Fn) (en : Bool) (clr : Bool), (s.fn f).cfgReady = true → s.linkUp f = true → Does (.pmcsrD3hot f en clr) s fun t =>
    (t.fn f).d3hot = true ∧ (t.fn f).pmeEn = en ∧ (t.fn f).pmeStatus = ((s.fn f).pmeStatus && !clr) ∧ (t.fn f).sqs = (s.fn f).sqs ∧ t.ctxs =
    s.ctxs ∧ t.names = s.names) ∧
  (∀ (s : State) (f : Fn) (en : Bool) (clr : Bool), (s.fn f).cfgReady = true → s.linkUp f = true → s.ctxs = [] → Does (.pmcsrD0 f en clr) s
    fun t => (t.fn f).d3hot = false ∧ (t.fn f).pmeEn = en ∧ (t.fn f).pmeStatus = ((s.fn f).pmeStatus && !clr) ∧ t.names = s.names) ∧
  (∀ (s : State) (f : Fn) (en : Bool) (clr : Bool), (s.fn f).cfgReady = false → s.linkUp f = true → Does (.pmcsrD3hot f en clr) s (fun t =>
    t = s.emitOut (.crs f)) ∧ Does (.pmcsrD0 f en clr) s (fun t => t = s.emitOut (.crs f)) ∧ Does (.functionLevelReset f) s (fun t => t =
    s.emitOut (.crs f)) ∧ Does (.msixUnmask f none) s (fun t => t = s.emitOut (.crs f))) ∧
  (∀ (s : State) (f : Fn) (cc : W32) (aqa : W32), (s.fn f).cfgReady = true → (s.fn f).d3hot = false → s.crosses f = true → (s.fn
    f).cc.getLsbD 0 = false → (bits aqa 11 0 = 0 ∨ bits aqa 27 16 = 0) → Does (.ccEnSet f cc aqa) s fun t => (t.fn f).cfs = true ∧ (t.fn
    f).rdy = (s.fn f).rdy ∧ (t.fn f).sqs = (s.fn f).sqs) ∧
  (∀ (s : State) (f : Fn) (en : Bool) (clr : Bool), s.linkUp f = false → Does (.pmcsrD3hot f en clr) s (fun t => t = s) ∧ Does (.pmcsrD0 f
    en clr) s (fun t => t = s) ∧ Does (.functionLevelReset f) s (fun t => t = s))

/-- What the queues of a host function do (spec/11 R420 to R426, R431, R436, R438 to R443, R449; spec/12 R452, R457). SQ_TAIL_DOORBELL and
CQ_HEAD_DOORBELL: a valid value is taken, and with shadow doorbells the value in the shadow buffer after it; without them an invalid value
is ignored with its event, and so is a doorbell of a queue that does not exist, also as INVALID_DOORBELL_REGISTER. FETCH_TURN within the
function's own contexts takes a context for each entry of the run. ADMISSION in single mode admits the command fetched first with the next
admission number; Set Features of Host Behavior Support ends there with its data taken, and a command that is not valid ends with its
status. COMPLETION_POST of the one command in the device writes the entry at the tail with its phase tag and frees the context; in D3hot it
holds the entry. COALESCING_TIMER sends one message, makes it pending where the vector is masked or MSI-X is off, or sets PME_Status in
D3hot. MSIX_UNMASK sends a message that was pending, or enables MSI-X. ANA_CHANGE in a pair to another state counts. DATA_TRANSFER_ERROR
ends the one command in the device, not yet done, with its status. -/
def Obligations.QueueCommands : Prop :=
  (∀ (s : State) (f : Fn) (q : Nat) (v : Nat) (w : Nat) (y : SubQ), s.answers f = true → (s.fn f).sq? q = some y → y.deleting = false →
    y.badTail v = false → (s.fn f).shadow = none → Does (.sqTailDoorbell f q v w) s fun t => (t.fn f).sq? q = some { y with tail := v } ∧ (∀
    r, r ≠ q → (t.fn f).sq? r = (s.fn f).sq? r) ∧ (t.fn f).cqs = (s.fn f).cqs ∧ t.ctxs = s.ctxs) ∧
  (∀ (s : State) (f : Fn) (q : Nat) (v : Nat) (w : Nat) (y : SubQ), s.answers f = true → (s.fn f).sq? q = some y → y.deleting = false →
    y.badTail v = true → (s.fn f).shadow = none → (s.fn f).aers = [] → Does (.sqTailDoorbell f q v w) s fun t => (t.fn f).sq? q = some y ∧
    (t.fn f).events.contains { type := 0, info := 1, page := 1 } = true ∧ t.ctxs = s.ctxs) ∧
  (∀ (s : State) (f : Fn) (q : Nat) (v : Nat) (w : Nat) (y : CplQ), s.answers f = true → (s.fn f).cq? q = some y → y.badHead v = false →
    (s.fn f).shadow = none → Does (.cqHeadDoorbell f q v w) s fun t => (t.fn f).cq? q = some { y with head := v } ∧ (t.fn f).sqs = (s.fn
    f).sqs ∧ t.ctxs = s.ctxs) ∧
  (∀ (s : State) (f : Fn) (q : Nat), s.answers f = true → (s.fn f).sq? q = none → (s.fn f).aers = [] → Does (.invalidDoorbellRegister f q) s
    fun t => (t.fn f).events.contains { type := 0, info := 0, page := 1 } = true ∧ (t.fn f).sqs = (s.fn f).sqs ∧ (t.fn f).cqs = (s.fn f).cqs
    ∧ t.ctxs = s.ctxs) ∧
  (∀ (s : State) (f : Fn) (entries : List SqEntry) (w : Nat) (q : Nat) (x : HostFn) (y : SubQ) (k : Nat), s.mayFetch f = true → (s.fn
    f).pick = some (q, x) → x.sq? q = some y → (s.fn f).shadow = none → k = min (min x.burst y.held) entries.length → k ≤ s.ownFree f (q ==
    0) → Does (.fetchTurn f entries w) s fun t => t.ctxs.take s.ctxs.length = s.ctxs ∧ ((t.ctxs.drop s.ctxs.length).map fun z => (z.origin,
    z.sq, z.entry, z.stage)) = (entries.take k).map (fun e => (.host f, q, e, .fetched)) ∧ ((t.fn f).sq? q).map SubQ.head = some ((y.head +
    k) % y.size) ∧ t.names = s.names) ∧
  (∀ (s : State) (f : Fn) (x : Ctx), s.nextFetched = some x → s.ctx? x.id = some x → x.origin = .host f → isAction 0x09 0x16 x = false →
    s.pair.mode = false → ((s.fn f).sq? x.sq).any SubQ.deleting = false → (if x.isAdmin then adminFault x.entry else ioFault x.entry) = none
    → Does (.admission) s fun t => ((t.ctx? x.id).map fun z => (z.stage, z.adm, z.ana, z.lba, z.nlb, z.update)) = some (.admitted,
    s.admission, s.anaFor x, (s.blocksOf x).1, (s.blocksOf x).2, x.updates) ∧ t.admission = s.admission + 1 ∧ t.names = s.names) ∧
  (∀ (s : State) (f : Fn) (x : Ctx), s.nextFetched = some x → s.ctx? x.id = some x → x.origin = .host f → isAction 0x09 0x16 x = true →
    s.pair.mode = false → ((s.fn f).sq? x.sq).any SubQ.deleting = false → adminFault x.entry = none → saves x.entry = false → Does
    (.admission) s fun t => ((t.ctx? x.id).map fun z => (z.stage, z.cpl.map Cpl.status)) = some (.decided, some Cpl.ok.status) ∧ (t.fn
    f).acre = (x.entry.data.getD 0 0 == 1) ∧ t.admission = s.admission + 1 ∧ t.names = s.names) ∧
  (∀ (s : State) (f : Fn) (x : Ctx) (r : Cpl), s.nextFetched = some x → s.ctx? x.id = some x → x.origin = .host f → s.pair.mode = false →
    ((s.fn f).sq? x.sq).any SubQ.deleting = false → (if x.isAdmin then adminFault x.entry else ioFault x.entry) = some r → Does (.admission)
    s fun t => ((t.ctx? x.id).map fun z => (z.stage, z.cpl.map Cpl.status)) = some (.decided, some r.status) ∧ t.admission = s.admission + 1
    ∧ t.names = s.names) ∧
  (∀ (s : State) (f : Fn) (w : Nat) (x : Ctx) (r : Cpl) (q : SubQ) (k : CplQ), (s.fn f).d3hot = false → s.crosses f = true → s.ctxs = [x] →
    x.stage = .decided → x.origin = .host f → x.cpl = some r → r.unlogged = true → r.sct ≠ 2 → (s.fn f).sq? x.sq = some q → (s.fn f).cq?
    q.cq = some k → k.full = false → s.power.entering = false → Does (.completionPost f w) s fun t => t.out.contains (.completion f k.id
    k.tail k.phase x.sq q.head x.entry.cid r) = true ∧ t.ctxs = [] ∧ (t.fn f).cq? q.cq = some
    { k with tail := (k.tail + 1) % k.size, phase := if (k.tail + 1) % k.size = 0 then !k.phase else k.phase } ∧ t.names =
    { s.names with firstDue := t.names.firstDue }) ∧
  (∀ (s : State) (f : Fn) (w : Nat) (x : Ctx), (s.fn f).d3hot = true → s.crosses f = true → s.ctxs = [x] → x.stage = .decided → x.origin =
    .host f → x.heldD3 = false → x.wait ≠ .room → Does (.completionPost f w) s fun t => (t.ctx? x.id) = some { x with heldD3 := true } ∧
    (t.fn f).sqs = (s.fn f).sqs ∧ ((t.fn f).cqs = (s.fn f).cqs) ∧ t.names = s.names) ∧
  (∀ (s : State) (f : Fn) (v : Fin 65) (at_ : Nat), ((s.fn f).vec v).timerAt = some at_ → (s.fn f).time ≠ 0 → coalesced (s.fn f) v = true →
    ((s.fn f).vec v).masked = false → (s.fn f).msixEnabled = true → (s.fn f).d3hot = false → Does (.coalescingTimer f v) s fun t => t.out =
    .msix f v :: s.out ∧ ((t.fn f).vec v).count = 0 ∧ ((t.fn f).vec v).timerAt = none ∧ ((t.fn f).vec v).pending = false ∧ at_ + (s.fn
    f).time * 100 * Config.us ≤ t.now) ∧
  (∀ (s : State) (f : Fn) (v : Fin 65) (at_ : Nat), ((s.fn f).vec v).timerAt = some at_ → (s.fn f).time ≠ 0 → coalesced (s.fn f) v = true →
    (s.fn f).d3hot = true → Does (.coalescingTimer f v) s fun t => (t.fn f).pmeStatus = true ∧ ((t.fn f).vec v).pending = true ∧ t.out = (if
    (s.fn f).pmeEn && !(s.fn f).pmeStatus then .pme f :: s.out else s.out)) ∧
  (∀ (s : State) (f : Fn) (v : Fin 65), s.crosses f = true → (s.fn f).d3hot = false → (s.fn f).msixEnabled = true → ((s.fn f).vec v).pending
    = true → ((s.fn f).vec v).cond = true → Does (.msixUnmask f (some v)) s fun t => ((t.fn f).vec v).masked = false ∧ ((t.fn f).vec
    v).pending = false ∧ t.out = .msix f v :: s.out ∧ t.names = s.names) ∧
  (∀ (s : State) (f : Fn), (s.fn f).cfgReady = true → s.linkUp f = true → Does (.msixUnmask f none) s fun t => (t.fn f).msixEnabled = true ∧
    t.names = s.names ∧ t.ctxs = s.ctxs) ∧
  (∀ (s : State) (f : Fn) (g : Fin 2) (st : AnaState), s.pair.mode = true → (if g = 1 then (s.fn f).ana2 else (s.fn f).ana1) ≠ st → (s.fn
    f).asyncCfg.getLsbD 11 = false → Does (.anaChange f g st) s fun t => (if g = 1 then (t.fn f).ana2 else (t.fn f).ana1) = st ∧ (if g = 1
    then (t.fn f).ana1 else (t.fn f).ana2) = (if g = 1 then (s.fn f).ana1 else (s.fn f).ana2) ∧ (t.fn f).anaCount = (s.fn f).anaCount + 1 ∧
    t.ctxs = s.ctxs) ∧
  (∀ (s : State) (c : Nat) (x : Ctx) (f : Fn), s.ctxs = [x] → x.id = c → (x.stage = .admitted ∨ x.stage = .awaitData ∨ x.reading = true) →
    x.origin = .host f → s.power.entering = false → Does (.dataTransferError c) s fun t => EndedWith t c x (Cpl.err 0x0 0x04) ∧ t.names =
    { s.names with firstDue := t.names.firstDue }) ∧
  (∀ (s : State) (f : Fn) (q : Nat) (v : Nat) (w : Nat) (y : CplQ), s.answers f = true → (s.fn f).cq? q = some y → y.badHead v = true →
    (s.fn f).shadow = none → (s.fn f).aers = [] → Does (.cqHeadDoorbell f q v w) s fun t => (t.fn f).cq? q = some y ∧ (t.fn
    f).events.contains { type := 0, info := 1, page := 1 } = true ∧ (t.fn f).sqs = (s.fn f).sqs ∧ t.ctxs = s.ctxs) ∧
  (∀ (s : State) (f : Fn) (q : Nat) (v : Nat) (w : Nat) (y : SubQ), s.answers f = true → (s.fn f).sq? q = some y → y.deleting = false →
    y.badTail v = false → ((s.fn f).shadowAt q false).isSome = true → ({ y with tail := v } : SubQ).badTail w = false → Does
    (.sqTailDoorbell f q v w) s fun t => (t.fn f).sq? q = some { y with tail := w, eventIdx := w } ∧ (∀ r, r ≠ q → (t.fn f).sq? r = (s.fn
    f).sq? r) ∧ (t.fn f).cqs = (s.fn f).cqs ∧ t.ctxs = s.ctxs) ∧
  (∀ (s : State) (f : Fn) (q : Nat) (v : Nat) (w : Nat) (y : CplQ), s.answers f = true → (s.fn f).cq? q = some y → y.badHead v = false →
    ((s.fn f).shadowAt q true).isSome = true → ({ y with head := v } : CplQ).badHead w = false → Does (.cqHeadDoorbell f q v w) s fun t =>
    (t.fn f).cq? q = some { y with head := w, eventIdx := w } ∧ (t.fn f).sqs = (s.fn f).sqs ∧ t.ctxs = s.ctxs) ∧
  (∀ (s : State) (f : Fn) (q : Nat) (v : Nat) (w : Nat), s.answers f = true → (s.fn f).sq? q = none → (s.fn f).aers = [] → Does
    (.sqTailDoorbell f q v w) s fun t => (t.fn f).events.contains { type := 0, info := 0, page := 1 } = true ∧ (t.fn f).sqs = (s.fn f).sqs ∧
    t.ctxs = s.ctxs) ∧
  (∀ (s : State) (f : Fn) (q : Nat) (v : Nat) (w : Nat), s.answers f = true → (s.fn f).cq? q = none → (s.fn f).aers = [] → Does
    (.cqHeadDoorbell f q v w) s fun t => (t.fn f).events.contains { type := 0, info := 0, page := 1 } = true ∧ (t.fn f).cqs = (s.fn f).cqs ∧
    t.ctxs = s.ctxs) ∧
  (∀ (s : State) (f : Fn) (v : Fin 65) (at_ : Nat), ((s.fn f).vec v).timerAt = some at_ → (s.fn f).time ≠ 0 → coalesced (s.fn f) v = true →
    (s.fn f).d3hot = false → (((s.fn f).vec v).masked = true ∨ (s.fn f).msixEnabled = false) → Does (.coalescingTimer f v) s fun t => t.out
    = s.out ∧ ((t.fn f).vec v).pending = true ∧ ((t.fn f).vec v).timerAt = none)

/-- What the I/O commands of namespaces do once a namespace serves them (spec/12 R455, R456, R458; spec/10 R380, R386, R393, R394, R396,
R397; spec/01 R27). READ: one that finds all its blocks ends with them; in single mode one that does not waits for them; one of no
namespace, or out of its range, is refused. WRITE: an accepted one waits for its data; of a zoned namespace it takes its place at the write
pointer, and a full zone refuses it; ZONE_APPEND takes the place of the write pointer. The rest is stated with no other command in the
device. APPLY_POINT in single mode, with no sanitize running: data that has arrived is in the write buffer, and with the volatile write
cache on the write ends; with Force Unit Access it waits for media. WRITE_ZEROES and DATASET_MANAGEMENT with Deallocate of a conventional
namespace leave the blocks unmapped and unbuffered, and where the peer mirrors, end with its acknowledgement of what was sent; without
Deallocate nothing changes; WRITE_ZEROES of a zone takes its place at the write pointer and buffers zeros. FLUSH of one namespace, or of
all, ends when nothing earlier is dirty, and waits for a block that is. -/
def Obligations.IoCommands : Prop :=
  (∀ (s : State) (c : Nat) (x : Ctx) (n : Ns) (l : List (Nat × Blk)), AtHand s c (isIoOp 0x02) x → s.ioNs x = some n → s.ioBad x n = none →
    rangeBad n (slba x.entry) (nlbOf x.entry) 256 = none → s.blocked x = false → x.update = false → s.ns? x.ns = some n → x.got = [] →
    s.readSplit n x = (l, [], none) → Does (.read c) s fun t => EndedWith t c x
    { Cpl.ok with blocks := ({ x with got := l } : Ctx).readData } ∧ t.names = s.names ∧ t.prot = s.prot) ∧
  (∀ (s : State) (c : Nat) (x : Ctx) (n : Ns) (l : List (Nat × Blk)) (b : Nat) (r : List Nat), AtHand s c (isIoOp 0x02) x → s.ioNs x = some
    n → s.ioBad x n = none → rangeBad n (slba x.entry) (nlbOf x.entry) 256 = none → s.blocked x = false → x.update = false → s.ns? x.ns =
    some n → s.pair.mode = false → s.readSplit n x = (l, b :: r, none) → Does (.read c) s fun t => ((t.ctx? c).map fun y => (y.stage,
    y.wait)) = some (.waiting, .sectors (b :: r)) ∧ t.names = s.names ∧ t.prot = s.prot) ∧
  (∀ (s : State) (c : Nat) (x : Ctx) (n : Ns), AtHand s c (isIoOp 0x01) x → s.ioNs x = some n → s.ioBad x n = none → rangeBad n (slba
    x.entry) (nlbOf x.entry) 256 = none → n.zoned = false → Does (.write c) s fun t => t.ctx? c = some
    { x with stage := .awaitData, lba := slba x.entry, nlb := nlbOf x.entry } ∧ t.names = s.names ∧ t.prot = s.prot) ∧
  (∀ (s : State) (c : Nat) (x : Ctx) (n : Ns), AtHand s c (isIoOp 0x01) x → s.ioNs x = some n → s.ioBad x n = none → rangeBad n (slba
    x.entry) (nlbOf x.entry) 256 = none → n.zoned = true → s.zoneTurn x = true → s.zoneWriteBad n (slba x.entry / zoneBlocks n.narrow)
    (nlbOf x.entry) (some (slba x.entry % zoneBlocks n.narrow)) x.lost = none → Does (.write c) s fun t => (t.zone n.nsid (slba x.entry /
    zoneBlocks n.narrow)).wp = (s.zone n.nsid (slba x.entry / zoneBlocks n.narrow)).wp + nlbOf x.entry ∧ t.ctx? c = some
    { x with stage := .awaitData, lba := slba x.entry, nlb := nlbOf x.entry } ∧ t.names.buffer = s.names.buffer ∧ t.prot = s.prot) ∧
  (∀ (s : State) (c : Nat) (x : Ctx) (n : Ns), AtHand s c (isIoOp 0x01) x → s.ioNs x = some n → s.ioBad x n = none → s.ctxs = [x] → rangeBad
    n (slba x.entry) (nlbOf x.entry) 256 = none → n.zoned = true → s.zoneTurn x = true → (s.zone n.nsid (slba x.entry / zoneBlocks
    n.narrow)).st = .full → Does (.write c) s fun t => EndedWith t c x { Cpl.err 0x1 0xB9 with errLba := slba x.entry } ∧ t.names.zones =
    s.names.zones ∧ t.names.buffer = s.names.buffer ∧ t.names.map = s.names.map) ∧
  (∀ (s : State) (c : Nat) (x : Ctx) (n : Ns) (z : Nat), AtHand s c (isIoOp 0x7D) x → s.ioNs x = some n → s.ioBad x n = none → s.ctxs = [x]
    → n.zoned = true → rangeBad n (slba x.entry) 1 1 = none → slba x.entry = z * zoneBlocks n.narrow → nlbOf x.entry ≤ 64 → s.zoneTurn x =
    true → s.zoneWriteBad n z (nlbOf x.entry) none x.lost = none → Does (.zoneAppend c) s fun t => (t.zone n.nsid z).wp = (s.zone n.nsid
    z).wp + nlbOf x.entry ∧ t.ctx? c = some { x with stage := .awaitData, lba := slba x.entry + (s.zone n.nsid z).wp, nlb := nlbOf x.entry }
    ∧ t.names.buffer = s.names.buffer ∧ t.prot = s.prot) ∧
  (∀ (s : State) (c : Nat) (x : Ctx) (n : Ns) (f : Fn) (data : List Blk), s.ctxs = [x] → x.id = c → x.origin = .host f → (s.fn f).d3hot =
    false → s.mem.halted.contains (match f with | .a => 0x00 | .b => 0x01) = false → x.stage = .awaitData → isIoOp 0x01 x = true → x.update
    = true → x.fua = false → s.names.wce = true → data.length = x.nlb → s.ns? x.ns = some n → s.limitE ≠ 0 → s.fits (4096 * data.length) =
    true → s.mirrors = false → s.pair.settling = false → s.names.sanitizing = false → Does (.applyPoint c data) s fun t => EndedWith t c x
    Cpl.ok ∧ (∀ i < data.length, (t.dirty? x.ns (x.lba + i)).map Dirty.data = data[i]?) ∧ t.names.map = s.names.map ∧ t.names.zones =
    s.names.zones) ∧
  (∀ (s : State) (c : Nat) (x : Ctx) (n : Ns) (f : Fn) (b : Blk), s.ctxs = [x] → x.id = c → x.origin = .host f → (s.fn f).d3hot = false →
    s.mem.halted.contains (match f with | .a => 0x00 | .b => 0x01) = false → x.stage = .awaitData → isIoOp 0x01 x = true → x.update = true →
    x.fua = true → x.nlb = 1 → s.ns? x.ns = some n → s.limitE ≠ 0 → s.fits 4096 = true → s.mirrors = false → s.pair.settling = false →
    s.names.sanitizing = false → Does (.applyPoint c [b]) s fun t => ((t.ctx? c).map fun y => (y.stage, y.wait, y.cpl)) = some (.waiting,
    .media [(x.ns, x.lba, x.adm)], some Cpl.ok) ∧ (t.dirty? x.ns x.lba).map Dirty.data = some b) ∧
  (∀ (s : State) (c : Nat) (x : Ctx) (n : Ns), AtHand s c (isIoOp 0x08) x → s.ioNs x = some n → s.ioBad x n = none → s.ctxs = [x] → rangeBad
    n (slba x.entry) (nlbOf x.entry) 65536 = none → n.zoned = false → s.ns? x.ns = some n → x.ns = n.nsid → x.update = true → s.pagesFit x n
    = true → s.mirrors = false → Does (.writeZeroes c) s fun t => EndedWith t c x Cpl.ok ∧ (∀ i < x.nlb, t.mapEntry n.nsid (x.lba + i) = 0 ∧
    t.dirty? n.nsid (x.lba + i) = none)) ∧
  (∀ (s : State) (c : Nat) (x : Ctx) (n : Ns), AtHand s c (isIoOp 0x09) x → s.ioNs x = some n → s.ioBad x n = none → n.zoned = false →
    (x.ranges.all fun r => decide (r.1 + r.2 ≤ n.nsze)) = true → bits x.entry.cdw11 2 2 = 0 → x.update = false → Does (.datasetManagement c)
    s fun t => EndedWith t c x Cpl.ok ∧ t.names = s.names) ∧
  (∀ (s : State) (c : Nat) (x : Ctx) (n : Ns), AtHand s c (isIoOp 0x09) x → s.ioNs x = some n → s.ioBad x n = none → s.ctxs = [x] → n.zoned
    = false → (x.ranges.all fun r => decide (r.1 + r.2 ≤ n.nsze)) = true → bits x.entry.cdw11 2 2 = 1 → s.ns? x.ns = some n → x.ns = n.nsid
    → x.update = true → s.pagesFit x n = true → s.mirrors = false → Does (.datasetManagement c) s fun t => EndedWith t c x Cpl.ok ∧ (∀ r ∈
    x.ranges, ∀ i < r.2, t.mapEntry n.nsid (r.1 + i) = 0 ∧ t.dirty? n.nsid (r.1 + i) = none)) ∧
  (∀ (s : State) (c : Nat) (x : Ctx) (n : Ns), AtHand s c (isIoOp 0x00) x → s.ioNs x = some n → s.ioBad x n = none → s.ctxs = [x] →
    x.entry.nsid ≠ 0xFFFFFFFF → x.cpl = none → s.names.unstored = [] → s.flushPages x = [] → Does (.flush c) s fun t => EndedWith t c x
    Cpl.ok ∧ t.names.buffer = s.names.buffer ∧ t.names.map = s.names.map) ∧
  (∀ (s : State) (c : Nat) (x : Ctx) (n : Ns) (d : Dirty), AtHand s c (isIoOp 0x00) x → s.ioNs x = some n → s.ioBad x n = none → s.ctxs =
    [x] → x.entry.nsid ≠ 0xFFFFFFFF → s.names.buffer = [d] → d.stored = false → d.ns = x.entry.nsid.toNat → (d.carried = true ∨ earlier
    d.adm x.adm = true) → Does (.flush c) s fun t => ((t.ctx? c).map fun y => (y.stage, y.wait)) = some (.waiting, .media [(d.ns, d.lba,
    d.adm)]) ∧ t.names = s.names) ∧
  (∀ (s : State) (c : Nat) (x : Ctx) (n : Ns), AtHand s c (isIoOp 0x08) x → s.ioNs x = some n → s.ioBad x n = none → s.ctxs = [x] → rangeBad
    n (slba x.entry) (nlbOf x.entry) 65536 = none → n.zoned = false → s.ns? x.ns = some n → x.ns = n.nsid → x.update = true → s.pagesFit x n
    = true → s.mirrors = true → Does (.writeZeroes c) s fun t => (∀ i < x.nlb, t.mapEntry n.nsid (x.lba + i) = 0 ∧ t.dirty? n.nsid (x.lba +
    i) = none) ∧ (t.pair.msgSeq ≠ s.pair.msgSeq → ((t.ctx? c).map fun y => (y.stage, y.wait)) = some (.waiting, .mirror [t.pair.msgSeq])) ∧
    (t.pair.msgSeq = s.pair.msgSeq → EndedWith t c x Cpl.ok)) ∧
  (∀ (s : State) (c : Nat) (x : Ctx) (n : Ns), AtHand s c (isIoOp 0x09) x → s.ioNs x = some n → s.ioBad x n = none → s.ctxs = [x] → n.zoned
    = false → (x.ranges.all fun r => decide (r.1 + r.2 ≤ n.nsze)) = true → bits x.entry.cdw11 2 2 = 1 → s.ns? x.ns = some n → x.ns = n.nsid
    → x.update = true → s.pagesFit x n = true → s.mirrors = true → Does (.datasetManagement c) s fun t => (∀ r ∈ x.ranges, ∀ i < r.2,
    t.mapEntry n.nsid (r.1 + i) = 0 ∧ t.dirty? n.nsid (r.1 + i) = none) ∧ (t.pair.msgSeq ≠ s.pair.msgSeq → ((t.ctx? c).map fun y =>
    (y.stage, y.wait)) = some (.waiting, .mirror [t.pair.msgSeq])) ∧ (t.pair.msgSeq = s.pair.msgSeq → EndedWith t c x Cpl.ok)) ∧
  (∀ (s : State) (c : Nat) (x : Ctx) (n : Ns), AtHand s c (isIoOp 0x08) x → s.ioNs x = some n → s.ioBad x n = none → s.ctxs = [x] → rangeBad
    n (slba x.entry) (nlbOf x.entry) 65536 = none → n.zoned = true → s.zoneTurn x = true → s.zoneWriteBad n (slba x.entry / zoneBlocks
    n.narrow) (nlbOf x.entry) (some (slba x.entry % zoneBlocks n.narrow)) x.lost = none → s.ns? x.ns = some n → x.ns = n.nsid → x.update =
    true → x.fua = false → s.names.wce = true → 4096 * nlbOf x.entry ≤ s.limitE → s.fits (4096 * nlbOf x.entry) = true → s.mirrors = false →
    s.pair.settling = false → s.names.sanitizing = false → Does (.writeZeroes c) s fun t => EndedWith t c x Cpl.ok ∧ (t.zone n.nsid (slba
    x.entry / zoneBlocks n.narrow)).wp = (s.zone n.nsid (slba x.entry / zoneBlocks n.narrow)).wp + nlbOf x.entry ∧ ∀ i < nlbOf x.entry,
    (t.dirty? n.nsid (slba x.entry + i)).map Dirty.data = some 0) ∧
  (∀ (s : State) (c : Nat) (x : Ctx), AtHand s c (isIoOp 0x00) x → x.entry.nsid = 0xFFFFFFFF → s.flushBad x = none → s.ctxs = [x] → x.cpl =
    none → s.names.unstored = [] → s.flushPages x = [] → Does (.flush c) s fun t => EndedWith t c x Cpl.ok ∧ t.names.buffer = s.names.buffer
    ∧ t.names.map = s.names.map) ∧
  (∀ (s : State) (c : Nat) (x : Ctx), AtHand s c (isIoOp 0x02) x → s.ioNs x = none → x.update = false → Does (.read c) s fun t => EndedWith
    t c x Cpl.badNs ∧ t.names = s.names ∧ t.prot = s.prot) ∧
  (∀ (s : State) (c : Nat) (x : Ctx) (n : Ns) (r : Cpl), AtHand s c (isIoOp 0x02) x → s.ioNs x = some n → s.ioBad x n = none → x.update =
    false → rangeBad n (slba x.entry) (nlbOf x.entry) 256 = some r → Does (.read c) s fun t => EndedWith t c x r ∧ t.names = s.names ∧
    t.prot = s.prot)

/-- What the zone management commands do with one zone of a zoned namespace (spec/10 R377 to R379, R382, R383, Table 10-4), at their turn
among the commands of the zone. ZONE_OPEN makes the zone explicitly opened, and of a full one is refused; ZONE_CLOSE closes an active one.
With no other command in the device, ZONE_FINISH makes the zone Full with its write pointer at its end, and waits for a partial row;
ZONE_RESET makes it Empty with write pointer 0, and where the peer mirrors ends with its acknowledgement of what was sent. ZONE_OFFLINE,
SET_ZONE_DESCRIPTOR_EXTENSION and EXTENDED_REPORT_ZONES are refused. REPORT_ZONES returns the descriptors that fit, with the count of all
that match, or with Partial Report of those returned. -/
def Obligations.ZoneCommands : Prop :=
  (∀ (s : State) (c : Nat) (x : Ctx) (n : Ns) (z : Nat), AtHand s c (fun x => isIoOp 0x79 x && bits x.entry.cdw13 7 0 == 3) x → s.ioNs x =
    some n → s.ioBad x n = none → n.zoned = true → bits x.entry.cdw13 8 8 = 0 → rangeBad n (slba x.entry) 1 1 = none → slba x.entry = z *
    zoneBlocks n.narrow → s.zoneTurn x = true → x.update = false → (s.zone n.nsid z).st ≠ .full → ((s.zone n.nsid z).st = .empty →
    s.activeFull n.nsid = false) → Does (.zoneOpen c) s fun t => EndedWith t c x Cpl.ok ∧ (t.zone n.nsid z).st = .explicit ∧ (t.zone n.nsid
    z).wp = (s.zone n.nsid z).wp ∧ t.names.buffer = s.names.buffer ∧ t.prot = s.prot) ∧
  (∀ (s : State) (c : Nat) (x : Ctx) (n : Ns) (z : Nat), AtHand s c (fun x => isIoOp 0x79 x && bits x.entry.cdw13 7 0 == 3) x → s.ioNs x =
    some n → s.ioBad x n = none → n.zoned = true → bits x.entry.cdw13 8 8 = 0 → rangeBad n (slba x.entry) 1 1 = none → slba x.entry = z *
    zoneBlocks n.narrow → s.zoneTurn x = true → x.update = false → (s.zone n.nsid z).st = .full → Does (.zoneOpen c) s fun t => EndedWith t
    c x Cpl.badZoneState ∧ t.names = s.names ∧ t.prot = s.prot) ∧
  (∀ (s : State) (c : Nat) (x : Ctx) (n : Ns) (z : Nat), AtHand s c (fun x => isIoOp 0x79 x && bits x.entry.cdw13 7 0 == 1) x → s.ioNs x =
    some n → s.ioBad x n = none → n.zoned = true → bits x.entry.cdw13 8 8 = 0 → rangeBad n (slba x.entry) 1 1 = none → slba x.entry = z *
    zoneBlocks n.narrow → s.zoneTurn x = true → x.update = false → (s.zone n.nsid z).st.isActive = true → Does (.zoneClose c) s fun t =>
    EndedWith t c x Cpl.ok ∧ (t.zone n.nsid z).st = .closed ∧ (t.zone n.nsid z).wp = (s.zone n.nsid z).wp ∧ t.names.buffer = s.names.buffer
    ∧ t.prot = s.prot) ∧
  (∀ (s : State) (c : Nat) (x : Ctx) (n : Ns) (z : Nat), AtHand s c (fun x => isIoOp 0x79 x && bits x.entry.cdw13 7 0 == 2) x → s.ioNs x =
    some n → s.ioBad x n = none → n.zoned = true → bits x.entry.cdw13 8 8 = 0 → rangeBad n (slba x.entry) 1 1 = none → slba x.entry = z *
    zoneBlocks n.narrow → s.zoneTurn x = true → s.ctxs = [x] → x.cpl = none → (s.zone n.nsid z).st ≠ .full → (s.zone n.nsid z).wp %
    rowBlocks n.narrow = 0 → Does (.zoneFinish c) s fun t => EndedWith t c x Cpl.ok ∧ (t.zone n.nsid z).st = .full ∧ (t.zone n.nsid z).wp =
    zoneBlocks n.narrow) ∧
  (∀ (s : State) (c : Nat) (x : Ctx) (n : Ns) (z : Nat), AtHand s c (fun x => isIoOp 0x79 x && bits x.entry.cdw13 7 0 == 2) x → s.ioNs x =
    some n → s.ioBad x n = none → n.zoned = true → bits x.entry.cdw13 8 8 = 0 → rangeBad n (slba x.entry) 1 1 = none → slba x.entry = z *
    zoneBlocks n.narrow → s.zoneTurn x = true → s.ctxs = [x] → x.cpl = none → (s.zone n.nsid z).st ≠ .full → (s.zone n.nsid z).wp %
    rowBlocks n.narrow ≠ 0 → (s.zone n.nsid z).wp < zoneBlocks n.narrow → Does (.zoneFinish c) s fun t => (t.zone n.nsid z).st = .full ∧
    (t.zone n.nsid z).wp = zoneBlocks n.narrow ∧ (t.ctx? c).map Ctx.stage = some .waiting ∧ t.names.finishing = s.names.finishing ++
    [(n.nsid, z, (s.zone n.nsid z).wp / rowBlocks n.narrow)]) ∧
  (∀ (s : State) (c : Nat) (x : Ctx) (n : Ns) (z : Nat), AtHand s c (fun x => isIoOp 0x79 x && bits x.entry.cdw13 7 0 == 4) x → s.ioNs x =
    some n → s.ioBad x n = none → n.zoned = true → bits x.entry.cdw13 8 8 = 0 → rangeBad n (slba x.entry) 1 1 = none → slba x.entry = z *
    zoneBlocks n.narrow → s.zoneTurn x = true → s.ctxs = [x] → s.ns? x.ns = some n → x.ns = n.nsid → x.update = true → x.lba = slba x.entry
    → s.pagesFit x n = true → s.mirrors = false → Does (.zoneReset c) s fun t => EndedWith t c x Cpl.ok ∧ (t.zone n.nsid z).st = .empty ∧
    (t.zone n.nsid z).wp = 0 ∧ (t.zone n.nsid z).rows = 0) ∧
  (∀ (s : State) (c : Nat) (x : Ctx) (n : Ns) (z : Nat), AtHand s c (fun x => isIoOp 0x79 x && bits x.entry.cdw13 7 0 == 5) x → s.ioNs x =
    some n → s.ioBad x n = none → n.zoned = true → bits x.entry.cdw13 8 8 = 0 → rangeBad n (slba x.entry) 1 1 = none → slba x.entry = z *
    zoneBlocks n.narrow → s.zoneTurn x = true → x.update = false → Does (.zoneOffline c) s fun t => EndedWith t c x Cpl.badZoneState ∧
    t.names = s.names ∧ t.prot = s.prot) ∧
  (∀ (s : State) (c : Nat) (x : Ctx) (n : Ns) (z : Nat), AtHand s c (fun x => isIoOp 0x79 x && bits x.entry.cdw13 7 0 == 0x10) x → s.ioNs x
    = some n → s.ioBad x n = none → n.zoned = true → bits x.entry.cdw13 8 8 = 0 → rangeBad n (slba x.entry) 1 1 = none → slba x.entry = z *
    zoneBlocks n.narrow → s.zoneTurn x = true → x.update = false → Does (.setZoneDescriptorExtension c) s fun t => EndedWith t c x
    (Cpl.invalid 13 0) ∧ t.names = s.names ∧ t.prot = s.prot) ∧
  (∀ (s : State) (c : Nat) (x : Ctx) (n : Ns), AtHand s c (fun x => isIoOp 0x7A x && bits x.entry.cdw13 7 0 == 1) x → s.ioNs x = some n →
    s.ioBad x n = none → n.zoned = true → Does (.extendedReportZones c) s fun t => EndedWith t c x (Cpl.invalid 13 0) ∧ t.names = s.names ∧
    t.prot = s.prot) ∧
  (∀ (s : State) (c : Nat) (x : Ctx) (n : Ns) (size : Nat) (hits : List Nat), AtHand s c (fun x => isIoOp 0x7A x && bits x.entry.cdw13 7 0
    == 0) x → s.ioNs x = some n → s.ioBad x n = none → n.zoned = true → rangeBad n (slba x.entry) 1 1 = none → bits x.entry.cdw13 15 8 ≤ 7 →
    bits x.entry.cdw13 16 16 = 0 → size = 4 * (x.entry.cdw12.toNat + 1) → hits = ((List.range (n.nsze / zoneBlocks n.narrow - slba x.entry /
    zoneBlocks n.narrow)).map (slba x.entry / zoneBlocks n.narrow + ·)).filter (fun z => zoneWanted (bits x.entry.cdw13 15 8) (s.zone n.nsid
    z).st) → Does (.reportZones c) s fun t => EndedWith t c x (Cpl.data ((packBytes [(8, hits.length), (56, 0)] ++ (hits.take ((size - 64) /
    64)).flatMap (s.zoneDescriptor n)).take size)) ∧ t.names = s.names ∧ t.prot = s.prot) ∧
  (∀ (s : State) (c : Nat) (x : Ctx) (n : Ns) (z : Nat), AtHand s c (fun x => isIoOp 0x79 x && bits x.entry.cdw13 7 0 == 4) x → s.ioNs x =
    some n → s.ioBad x n = none → n.zoned = true → bits x.entry.cdw13 8 8 = 0 → rangeBad n (slba x.entry) 1 1 = none → slba x.entry = z *
    zoneBlocks n.narrow → s.zoneTurn x = true → s.ctxs = [x] → s.ns? x.ns = some n → x.ns = n.nsid → x.update = true → x.lba = slba x.entry
    → s.pagesFit x n = true → s.mirrors = true → Does (.zoneReset c) s fun t => (t.zone n.nsid z).st = .empty ∧ (t.zone n.nsid z).wp = 0 ∧
    (t.zone n.nsid z).rows = 0 ∧ (t.pair.msgSeq ≠ s.pair.msgSeq → ((t.ctx? c).map fun y => (y.stage, y.wait)) = some (.waiting, .mirror
    [t.pair.msgSeq])) ∧ (t.pair.msgSeq = s.pair.msgSeq → EndedWith t c x Cpl.ok)) ∧
  (∀ (s : State) (c : Nat) (x : Ctx) (n : Ns) (size : Nat) (shown : List Nat), AtHand s c (fun x => isIoOp 0x7A x && bits x.entry.cdw13 7 0
    == 0) x → s.ioNs x = some n → s.ioBad x n = none → n.zoned = true → rangeBad n (slba x.entry) 1 1 = none → bits x.entry.cdw13 15 8 ≤ 7 →
    bits x.entry.cdw13 16 16 = 1 → size = 4 * (x.entry.cdw12.toNat + 1) → shown = (((List.range (n.nsze / zoneBlocks n.narrow - slba x.entry
    / zoneBlocks n.narrow)).map (slba x.entry / zoneBlocks n.narrow + ·)).filter (fun z => zoneWanted (bits x.entry.cdw13 15 8) (s.zone
    n.nsid z).st)).take ((size - 64) / 64) → Does (.reportZones c) s fun t => EndedWith t c x (Cpl.data ((packBytes [(8, shown.length), (56,
    0)] ++ shown.flatMap (s.zoneDescriptor n)).take size)) ∧ t.names = s.names ∧ t.prot = s.prot)

/-- What the link commands do (spec/03 R95, R100, R104, R112, R114, R138 to R141; spec/14 R526, R527, R531, R532, R536).
COMMAND_LANE_BLOCK_SEND on a running command lane: one line block leaves and the place in the group of 8,192 goes on; at place 0 it is the
alignment block with the link time; elsewhere urgent packets go before all else, as many as the block takes (log 123), and where nothing
waits it is an idle block; over a stale crossing the block is discarded and counted. PACKET_RESPONSE_TIMEOUT: after its timeout a request
sent fewer than three times is counted and sent again with its tag; the third time ends the first attempt of a port in training states 2 to
5, fails a port in states 6 to 8 and resets a trained port. CLOCK_PRESENT_SET: 64 toggles set the bit of a port that is not in PS3, and a
hung read of a port whose crossing is neither in joint reset nor stale then answers; fewer change nothing. CLOCK_PRESENT_CLEAR: 16 clocks
without a toggle clear a bit that was set and the block lock, and reset the port, but for one in PS3 (only its bit falls) or already in its
joint reset; fewer change nothing. A port reset takes the port out of service in its joint reset, drops its requests, sets its event and
keeps its instant; the third within 60 s fails the port, and a port failed so stays failed. STALE_CROSSING: the bit of a port that is not in
PS3, or of Wings, is set and what was in flight counted. PULSE_TRANSFER: pulses are delivered as a count of at most 255, and of a port are
added to the counter of their event; more mark the count saturated; a stale crossing discards them and counts the discard. -/
def Obligations.LinkCommands : Prop :=
  (∀ (s : State) (p : PortId), (s.port p).cmdUp = true → s.isStale (.port p) = false → Does (.commandLaneBlockSend p) s fun t => (t.port
    p).txPos = ((s.port p).txPos + 1) % 8192 ∧ t.out.length = s.out.length + 1 ∧ ((s.port p).txPos = 0 → t.out.head? = some (.lineBlock p
    (fecEncode (alignmentPayload s.linkNow.toNat (s.port p).blockLock)))) ∧ ∀ q, q ≠ p → t.port q = s.port q) ∧
  (∀ (s : State) (p : PortId) (tag : Byte) (r : Request), ((s.port p).requests.find? fun x => x.packet.tag == tag && x.busyAt.isNone) = some
    r → r.sends < 3 → Does (.packetResponseTimeout p tag) s fun t => (t.port p).pktTimeout = sat32 (s.port p).pktTimeout 1 ∧ (t.port
    p).normal.map Prod.snd = (s.port p).normal.map Prod.snd ++ [r.packet] ∧ (t.port p).train = (s.port p).train ∧ ∀ q, q ≠ p → t.port q =
    s.port q) ∧
  (∀ (s : State) (p : PortId) (tag : Byte) (r : Request), ((s.port p).requests.find? fun x => x.packet.tag == tag && x.busyAt.isNone) = some
    r → 3 ≤ r.sends → (s.port p).train = 9 → Does (.packetResponseTimeout p tag) s fun t => (t.port p).events.getLsbD 5 = true ∧ (t.port
    p).inService = false ∧ (t.port p).joint = true ∧ (t.port p).clock = (s.port p).clock ∧ (t.port p).requests = [] ∧ ((t.port p).train,
    (t.port p).fail) = (if 3 ≤ (t.port p).resets.length then (0xA, 9) else (0xB, 0)) ∧ (t.port p).resets = t.now :: recent t.now (60 *
    Config.sec) (s.port p).resets ∧ ∀ q, q ≠ p → t.port q = s.port q) ∧
  (∀ (s : State) (p : PortId) (n : Nat), 64 ≤ n → (s.port p).train ≠ 0xC → s.xing.hung = [] → Does (.clockPresentSet p n) s fun t => (t.port
    p).clock = true ∧ ∀ q, q ≠ p → t.port q = s.port q) ∧
  (∀ (s : State) (p : PortId) (n : Nat), 16 ≤ n → (s.port p).clock = true → (s.port p).train = 0 → Does (.clockPresentClear p n) s fun t =>
    (t.port p).clock = false ∧ (t.port p).blockLock = false ∧ (t.port p).events.getLsbD 5 = true ∧ ((t.port p).train, (t.port p).fail) = (if
    3 ≤ (t.port p).resets.length then (0xA, 9) else (0, 0)) ∧ (t.port p).inService = false ∧ ∀ q, q ≠ p → t.port q = s.port q) ∧
  (∀ (s : State) (p : PortId) (n : Nat), 16 ≤ n → (s.port p).clock = true → inRange 1 11 (s.port p).train.val = true → (s.port p).marked =
    false → ((s.port p).train = 0xB → (s.port p).joint = false) → Does (.clockPresentClear p n) s fun t => (t.port p).events.getLsbD 5 =
    true ∧ (t.port p).inService = false ∧ (t.port p).joint = true ∧ (t.port p).clock = false ∧ (t.port p).requests = [] ∧ ((t.port p).train,
    (t.port p).fail) = (if 3 ≤ (t.port p).resets.length then (0xA, 9) else (0xB, 0)) ∧ (t.port p).resets = t.now :: recent t.now (60 *
    Config.sec) (s.port p).resets ∧ ∀ q, q ≠ p → t.port q = s.port q) ∧
  (∀ (s : State) (p : PortId) (n : Nat), 16 ≤ n → (s.port p).clock = true → (s.port p).train = 0xA → (s.port p).fail = 9 → Does
    (.clockPresentClear p n) s fun t => (t.port p).clock = false ∧ (t.port p).train = 0xA ∧ (t.port p).fail = 9 ∧ (t.port p).inService =
    false ∧ (t.port p).events.getLsbD 5 = true ∧ ∀ q, q ≠ p → t.port q = s.port q) ∧
  (∀ (s : State) (p : PortId) (n : Nat), (s.port p).train ≠ 0xC → Does (.staleCrossing (.port p) n) s fun t => t.xing.stalePort.getLsbD
    p.val = true ∧ t.xing.events.getLsbD 0 = true ∧ t.xing.discards = sat32 s.xing.discards n ∧ t.ports = s.ports) ∧
  (∀ (s : State) (x : Crossing) (e : Fin 6) (n : Nat), 0 < n → s.isStale x = false → Does (.pulseTransfer x ⟨e, n⟩) s fun t => t.xing.delivered
    = (x, min 255 n, decide (255 < n)) :: s.xing.delivered ∧ (255 < n → t.xing.events.getLsbD 1 = true) ∧ t.xing.discards = s.xing.discards
    ∧ ∀ p, t.port p = if x = .port p then Port.countEvents e (min 255 n) (s.port p) else s.port p) ∧
  (∀ (s : State) (p : PortId), (s.port p).cmdUp = true → (s.port p).txPos ≠ 0 → s.isStale (.port p) = false → (s.port p).urgent = [] →
    (s.port p).normal = [] → (s.port p).nextWrite (s.bitsRoom p) = none → Does (.commandLaneBlockSend p) s fun t => t.out = .lineBlock p
    (fecEncode (scramble (s.port p).txScram (blockHeader 0x0 0 false false 0 0 ++ List.replicate 252 0)).1) :: s.out ∧ (t.port p).txPos =
    ((s.port p).txPos + 1) % 8192 ∧ t.chorus = s.chorus) ∧
  (∀ (s : State) (p : PortId), (s.port p).cmdUp = true → (s.port p).txPos ≠ 0 → s.isStale (.port p) = false → (s.port p).urgent ≠ [] → Does
    (.commandLaneBlockSend p) s fun t => (t.port p).urgent = (s.port p).urgent.drop (fillBlock 252 (s.port p).urgent).1 ∧ (t.port p).txSeq =
    (s.port p).txSeq + 1 ∧ (t.port p).normal = (s.port p).normal ∧ (t.port p).writes = (s.port p).writes ∧ t.out.length = s.out.length + 1 ∧
    t.chorus = s.chorus) ∧
  (∀ (s : State) (p : PortId) (tag : Byte) (r : Request), ((s.port p).requests.find? fun x => x.packet.tag == tag && x.busyAt.isNone) = some
    r → r.sends < 3 → Does (.packetResponseTimeout p tag) s fun t => r.sentAt + requestTimeout r.packet.opcode.toNat ≤ t.now ∧ ((t.port
    p).requests.find? fun x => x.packet.tag == tag && x.busyAt.isNone) = some { r with sends := r.sends + 1, sentAt := t.now } ∧ (t.port
    p).normal.getLast? = some (t.now, r.packet) ∧ (t.port p).requests.length = (s.port p).requests.length) ∧
  (∀ (s : State) (p : PortId) (tag : Byte) (r : Request), ((s.port p).requests.find? fun x => x.packet.tag == tag && x.busyAt.isNone) = some
    r → 3 ≤ r.sends → inRange 2 5 (s.port p).train.val = true → (s.port p).attempt = 1 → Does (.packetResponseTimeout p tag) s fun t =>
    (t.port p).train = 2 ∧ (t.port p).attempt = 2 ∧ (t.port p).pktTimeout = sat32 (s.port p).pktTimeout 1 ∧ (t.port p).requests = (s.port
    p).requests.filter (fun q => q.packet.tag != tag) ∧ (t.port p).events = (s.port p).events) ∧
  (∀ (s : State) (p : PortId) (n : Nat), 64 ≤ n → (s.port p).train ≠ 0xC → s.xing.hung = [] → Does (.clockPresentSet p n) s fun t => (t.port
    p).clock = true ∧ (t.port p).train = (s.port p).train ∧ (t.port p).joint = (s.port p).joint ∧ (∀ q, q ≠ p → t.port q = s.port q) ∧
    t.xing = s.xing) ∧
  (∀ (s : State) (p : PortId) (n : Nat), n < 64 → Does (.clockPresentSet p n) s fun t => t = s) ∧
  (∀ (s : State) (p : PortId) (n : Nat), n < 16 → Does (.clockPresentClear p n) s fun t => t = s) ∧
  (∀ (s : State) (p : PortId) (n : Nat), 16 ≤ n → (s.port p).clock = true → (s.port p).train = 0xC → Does (.clockPresentClear p n) s fun t
    => (t.port p).clock = false ∧ (t.port p).train = 0xC ∧ (t.port p).resets = (s.port p).resets ∧ (∀ q, q ≠ p → t.port q = s.port q) ∧
    t.xing = s.xing) ∧
  (∀ (s : State) (n : Nat), Does (.staleCrossing .wings n) s fun t => t.xing.staleOther.getLsbD 2 = true ∧ t.xing.staleOther.getLsbD 0 =
    s.xing.staleOther.getLsbD 0 ∧ t.xing.stalePort = s.xing.stalePort ∧ t.xing.discards = sat32 s.xing.discards n ∧ t.xing.events.getLsbD 0
    = true ∧ t.ports = s.ports ∧ t.pair = s.pair) ∧
  (∀ (s : State) (x : Crossing) (e : Fin 6) (n : Nat), 0 < n → s.isStale x = true → Does (.pulseTransfer x ⟨e, n⟩) s fun t => t.xing.delivered
    = s.xing.delivered ∧ t.xing.discards = sat32 s.xing.discards 1 ∧ t.xing.events = s.xing.events ∧ t.ports = s.ports ∧ t.book = s.book) ∧
  (∀ (s : State) (x : Crossing) (e : Fin 6) (n : Nat), 0 < n → n ≤ 255 → s.isStale x = false → Does (.pulseTransfer x ⟨e, n⟩) s fun t =>
    t.xing.delivered = (x, n, false) :: s.xing.delivered ∧ t.xing.events = s.xing.events ∧ t.book = s.book) ∧
  (∀ (s : State) (p : PortId), (s.port p).cmdUp = true → s.isStale (.port p) = true → Does (.commandLaneBlockSend p) s fun t => t.out =
    s.out ∧ t.xing.discards = sat32 s.xing.discards 1 ∧ (t.port p).txPos = ((s.port p).txPos + 1) % 8192) ∧
  (∀ (s : State) (p : PortId) (q : Req) (off : Nat) (n : Nat), 64 ≤ n → (s.port p).train ≠ 0xC → (s.port p).joint = false → s.isStale (.port
    p) = false → regAt off = .port p 0x20 → s.xing.hung = [{ who := q, off := off, write := none, packet := none }] → s.xing.behind = [] →
    Does (.clockPresentSet p n) s fun t => (t.port p).clock = true ∧ t.xing.hung = [] ∧ t.out.head? = some (.value q off (s.port p).smpCorr)
    ∧ (t.port p).smpCorr = 0) ∧
  (∀ (s : State) (p : PortId) (n : Nat), 16 ≤ n → (s.port p).clock = true → (s.port p).train = 0xB → (s.port p).joint = true → Does
    (.clockPresentClear p n) s fun t => (t.port p).clock = false ∧ (t.port p).blockLock = false ∧ (t.port p).resets = (s.port p).resets ∧
    (t.port p).events = (s.port p).events) ∧
  (∀ (s : State) (p : PortId) (tag : Byte) (r : Request), ((s.port p).requests.find? fun x => x.packet.tag == tag && x.busyAt.isNone) = some
    r → 3 ≤ r.sends → inRange 6 8 (s.port p).train.val = true → Does (.packetResponseTimeout p tag) s fun t => (t.port p).train = 0xA ∧
    (t.port p).fail.val = (s.port p).train.val - 1 ∧ (t.port p).inService = false ∧ (t.port p).pktTimeout = sat32 (s.port p).pktTimeout 1)

/-- What Get Log Page returns (spec/11 R447, R450; spec/12 R470, R472, R489, Tables 12-2, 12-14 to 12-16; spec/15 R550; spec/16 R589;
spec/17 R613), with no event of the function outstanding: from the offset asked for, as many bytes as asked for, of the page that the tables
give, for GET_LOG_PAGE_ERROR_INFORMATION, _SMART_HEALTH, _COMMANDS_SUPPORTED, _PLAYBILL, _PROMPT_BOOK, _SLED_HEALTH and _PORT_INVENTORY; of
_ANA the change count and the two groups that it starts with. The entries that log 0x01 returns whole are remembered for Queue Resume; past
its end it is an invalid field. The other pages of 0xC1 to 0xC3 have part 0 only; the Playbill page has a part for each record and one for
its directory, and no other. -/
def Obligations.LogCommands : Prop :=
  (∀ (s : State) (c : Nat) (x : Ctx) (f : Fn), AtHand s c (isAction 0x02 1) x → x.origin = .host f → (s.fn f).events = [] → logOffset
    x.entry ≤ 4096 → Does (.getLogPageErrorInformation c) s fun t => EndedWith t c x (Cpl.data (((errorPage (s.fn f).errLog s.free).drop
    (logOffset x.entry)).take (logSize x.entry))) ∧ (∀ n ∈ (s.fn f).returned, n ∈ (t.fn f).returned) ∧ (logOffset x.entry = 0 → 64 ≤ logSize
    x.entry → ∀ y, (s.fn f).errLog.head? = some y → y.count ∈ (t.fn f).returned) ∧ t.names = s.names ∧ t.prot = s.prot ∧ t.nor = s.nor) ∧
  (∀ (s : State) (c : Nat) (x : Ctx) (f : Fn), AtHand s c (isAction 0x02 2) x → x.origin = .host f → (s.fn f).events = [] → logOffset
    x.entry ≤ 512 → Does (.getLogPageSmartHealth c) s fun t => EndedWith t c x (Cpl.data (((overlay (keepBytes smartOpen 512 (Config.logBase
    0x02)) [(0, 1, s.criticalWarning f), (1, 2, s.composite), (192, 4, s.therm.warnMs / 60000), (196, 4, s.therm.critMs / 60000), (200, 2,
    s.composite), (202, 2, kelvinOf s.therm.hdaMax)]).drop (logOffset x.entry)).take (logSize x.entry))) ∧ t.names = s.names ∧ t.prot =
    s.prot ∧ t.nor = s.nor) ∧
  (∀ (s : State) (c : Nat) (x : Ctx) (f : Fn), AtHand s c (isAction 0x02 5) x → x.origin = .host f → (s.fn f).events = [] → logOffset
    x.entry ≤ 4096 → Does (.getLogPageCommandsSupported c) s fun t => EndedWith t c x (Cpl.data (((padTo 4096 (effects (Config.logBase (0x05
    + 256 * bits x.entry.cdw14 31 24)) 0 adminOpcodes ++ effects (Config.logBase (0x05 + 256 * bits x.entry.cdw14 31 24)) 1024 (ioOpcodes
    (bits x.entry.cdw14 31 24)))).drop (logOffset x.entry)).take (logSize x.entry))) ∧ t.names = s.names ∧ t.prot = s.prot ∧ t.nor = s.nor) ∧
  (∀ (s : State) (c : Nat) (x : Ctx) (f : Fn), AtHand s c (isAction 0x02 12) x → x.origin = .host f → (s.fn f).events = [] → (s.fn f).d3hot
    = false → logOffset x.entry = 0 → Does (.getLogPageAna c) s fun t => (t.ctx? c).any (fun y => y.stage == .decided && (y.cpl.any fun r =>
    r.good && r.bytes.take 10 == (leBytes 8 (s.fn f).anaCount.toNat ++ leBytes 2 2).take (logSize x.entry))) = true ∧ t.names = s.names ∧
    t.prot = s.prot ∧ t.nor = s.nor) ∧
  (∀ (s : State) (c : Nat) (x : Ctx) (f : Fn), AtHand s c (isAction 0x02 192) x → x.origin = .host f → (s.fn f).events = [] → logPart
    x.entry = 0xFFFF → logOffset x.entry ≤ 4096 → Does (.getLogPagePlaybill c) s fun t => EndedWith t c x (Cpl.data (((s.directory).drop
    (logOffset x.entry)).take (logSize x.entry))) ∧ t.names = s.names ∧ t.prot = s.prot ∧ t.nor = s.nor) ∧
  (∀ (s : State) (c : Nat) (x : Ctx) (f : Fn), AtHand s c (isAction 0x02 192) x → x.origin = .host f → (s.fn f).events = [] → logPart
    x.entry ≤ 255 → s.playbillWhole (logPart x.entry) = none → Does (.getLogPagePlaybill c) s fun t => EndedWith t c x (Cpl.invalid 11 16) ∧
    t.names = s.names ∧ t.prot = s.prot ∧ t.nor = s.nor) ∧
  (∀ (s : State) (c : Nat) (x : Ctx) (f : Fn), AtHand s c (isAction 0x02 193) x → x.origin = .host f → (s.fn f).events = [] → logPart
    x.entry = 0 → logOffset x.entry ≤ 64 → Does (.getLogPagePromptBook c) s fun t => EndedWith t c x (Cpl.data (((s.promptPage).drop
    (logOffset x.entry)).take (logSize x.entry))) ∧ t.names = s.names ∧ t.prot = s.prot ∧ t.nor = s.nor) ∧
  (∀ (s : State) (c : Nat) (x : Ctx) (f : Fn), AtHand s c (isAction 0x02 193) x → x.origin = .host f → (s.fn f).events = [] → logPart
    x.entry ≠ 0 → Does (.getLogPagePromptBook c) s fun t => EndedWith t c x (Cpl.invalid 11 16) ∧ t.names = s.names ∧ t.prot = s.prot ∧
    t.nor = s.nor) ∧
  (∀ (s : State) (c : Nat) (x : Ctx) (f : Fn), AtHand s c (isAction 0x02 194) x → x.origin = .host f → (s.fn f).events = [] → logPart
    x.entry = 0 → logOffset x.entry ≤ s.sledHealth.length → Does (.getLogPageSledHealth c) s fun t => EndedWith t c x (Cpl.data
    (((s.sledHealth).drop (logOffset x.entry)).take (logSize x.entry))) ∧ t.names = s.names ∧ t.prot = s.prot ∧ t.nor = s.nor) ∧
  (∀ (s : State) (c : Nat) (x : Ctx) (f : Fn), AtHand s c (isAction 0x02 195) x → x.origin = .host f → (s.fn f).events = [] → logPart
    x.entry = 0 → logOffset x.entry ≤ ((fins 32).flatMap s.inventory).length → Does (.getLogPagePortInventory c) s fun t => EndedWith t c x
    (Cpl.data ((((fins 32).flatMap s.inventory).drop (logOffset x.entry)).take (logSize x.entry))) ∧ t.names = s.names ∧ t.prot = s.prot ∧
    t.nor = s.nor) ∧
  (∀ (s : State) (c : Nat) (x : Ctx) (f : Fn) (bs : List Byte), AtHand s c (isAction 0x02 192) x → x.origin = .host f → (s.fn f).events = []
    → logPart x.entry ≤ 255 → s.playbillWhole (logPart x.entry) = some bs → logOffset x.entry ≤ bs.length → Does (.getLogPagePlaybill c) s
    fun t => EndedWith t c x (Cpl.data ((bs.drop (logOffset x.entry)).take (logSize x.entry))) ∧ t.names = s.names ∧ t.prot = s.prot) ∧
  (∀ (s : State) (c : Nat) (x : Ctx) (f : Fn), AtHand s c (isAction 0x02 194) x → x.origin = .host f → (s.fn f).events = [] → logPart
    x.entry ≠ 0 → Does (.getLogPageSledHealth c) s fun t => EndedWith t c x (Cpl.invalid 11 16) ∧ t.names = s.names ∧ t.prot = s.prot ∧
    t.nor = s.nor) ∧
  (∀ (s : State) (c : Nat) (x : Ctx) (f : Fn), AtHand s c (isAction 0x02 195) x → x.origin = .host f → (s.fn f).events = [] → logPart
    x.entry ≠ 0 → Does (.getLogPagePortInventory c) s fun t => EndedWith t c x (Cpl.invalid 11 16) ∧ t.names = s.names ∧ t.prot = s.prot ∧
    t.nor = s.nor) ∧
  (∀ (s : State) (c : Nat) (x : Ctx) (f : Fn), AtHand s c (isAction 0x02 1) x → x.origin = .host f → (s.fn f).events = [] → (s.fn
    f).errLog.length ≤ 64 → 4096 < logOffset x.entry → Does (.getLogPageErrorInformation c) s fun t => EndedWith t c x (Cpl.invalid 12 0) ∧
    t.names = s.names ∧ t.prot = s.prot ∧ t.nor = s.nor)

/-- What the actions of Long Operation do (spec/12 R475 to R479, Table 12-4; spec/09 R365, R366), with no reserved dword set.
LONG_OPERATION_START of a scan, of the format of an HDA that may be formatted, or of a calibration of HDAs that none runs for, gives the
next unused handle to a running operation; with no place left a scan is refused, and so is a format that may not be; a sanitize, the only
command in the device, begins; a rebuild gets a handle, or where one is active that one's; another kind is an invalid field.
LONG_OPERATION_SUSPEND of a running scan is asked for and takes effect at its next checkpoint; of a suspended operation it changes nothing.
LONG_OPERATION_RESUME makes a suspended scan run, or in PS3 run after it; of a running operation it changes nothing; of a completed one it
is a sequence error. LONG_OPERATION_CANCEL of a suspended scan or sanitize takes effect at once, and of a running scan is asked for. Suspend
of an unknown handle is an invalid field. LONG_OPERATION_QUERY returns the entry, LONG_OPERATION_LIST all of them with their count.
SET_REBUILD_PARAMETERS sets the one parameter that the mask names and keeps the other. -/
def Obligations.LongOperationCommands : Prop :=
  (∀ (s : State) (c : Nat) (x : Ctx), AtHand s c (isAction 0xC2 0) x → x.update = false → x.entry.cdw14 = 0 → x.entry.cdw15 = 0 →
    x.entry.cdw13 = 0 → opKind x.entry = 3 → s.placeFull 3 = false → Does (.longOperationStart c) s fun t => EndedWith t c x (Cpl.val
    (BitVec.ofNat 32 t.nor.config.lastHandle)) ∧ (t.longOps.any fun y => y.handle == t.nor.config.lastHandle && y.kind == 3 && y.st ==
    .running && y.p0 == x.entry.cdw11) = true ∧ t.names = s.names ∧ t.prot = s.prot) ∧
  (∀ (s : State) (c : Nat) (x : Ctx), AtHand s c (isAction 0xC2 0) x → x.update = false → x.entry.cdw14 = 0 → x.entry.cdw15 = 0 →
    x.entry.cdw13 = 0 → opKind x.entry = 3 → s.placeFull 3 = true → Does (.longOperationStart c) s fun t => EndedWith t c x Cpl.noPlace ∧
    t.nor = s.nor ∧ t.prot = s.prot) ∧
  (∀ (s : State) (c : Nat) (x : Ctx) (o : LongOp), AtHand s c (isAction 0xC2 0) x → x.update = false → x.entry.cdw14 = 0 → x.entry.cdw15 = 0
    → x.entry.cdw13 = 0 → opKind x.entry = 1 → s.rebuild? = some o → Does (.longOperationStart c) s fun t => EndedWith t c x (Cpl.val (word
    [(o.handle, 0), (1, 16)])) ∧ t.nor = s.nor ∧ t.prot = s.prot) ∧
  (∀ (s : State) (c : Nat) (x : Ctx), AtHand s c (isAction 0xC2 0) x → x.update = false → x.entry.cdw14 = 0 → x.entry.cdw15 = 0 →
    x.entry.cdw13 = 0 → (opKind x.entry = 0 ∨ 6 < opKind x.entry) → Does (.longOperationStart c) s fun t => EndedWith t c x (Cpl.invalid 10
    8) ∧ t.nor = s.nor ∧ t.prot = s.prot) ∧
  (∀ (s : State) (c : Nat) (x : Ctx) (o : LongOp), AtHand s c (isAction 0xC2 1) x → x.update = false → x.entry.cdw14 = 0 → x.entry.cdw15 = 0
    → x.entry.cdw13 = 0 → s.op? (opHandle x.entry) = some o → o.st = .running → o.kind = 3 → Does (.longOperationSuspend c) s fun t =>
    EndedWith t c x Cpl.ok ∧ t.longOps = mapWhere (fun y => y.handle == o.handle) (fun y => { y with suspendAsked := true, byPs3 := false })
    s.longOps ∧ t.prot = s.prot) ∧
  (∀ (s : State) (c : Nat) (x : Ctx), AtHand s c (isAction 0xC2 1) x → x.update = false → x.entry.cdw14 = 0 → x.entry.cdw15 = 0 →
    x.entry.cdw13 = 0 → s.op? (opHandle x.entry) = none → Does (.longOperationSuspend c) s fun t => EndedWith t c x (Cpl.invalid 10 16) ∧
    t.nor = s.nor) ∧
  (∀ (s : State) (c : Nat) (x : Ctx) (o : LongOp), AtHand s c (isAction 0xC2 2) x → x.update = false → x.entry.cdw14 = 0 → x.entry.cdw15 = 0
    → x.entry.cdw13 = 0 → s.op? (opHandle x.entry) = some o → o.st = .suspended → o.kind = 3 → s.power.inPs3 = false → s.power.entering =
    false → Does (.longOperationResume c) s fun t => EndedWith t c x Cpl.ok ∧ t.longOps = mapWhere (fun y => y.handle == o.handle) (fun y =>
    { y with st := .running }) s.longOps ∧ t.prot = s.prot) ∧
  (∀ (s : State) (c : Nat) (x : Ctx) (o : LongOp), AtHand s c (isAction 0xC2 2) x → x.update = false → x.entry.cdw14 = 0 → x.entry.cdw15 = 0
    → x.entry.cdw13 = 0 → s.op? (opHandle x.entry) = some o → o.st = .completed → Does (.longOperationResume c) s fun t => EndedWith t c x
    Cpl.seqError ∧ t.nor = s.nor) ∧
  (∀ (s : State) (c : Nat) (x : Ctx) (o : LongOp), AtHand s c (isAction 0xC2 3) x → x.update = false → x.entry.cdw14 = 0 → x.entry.cdw15 = 0
    → x.entry.cdw13 = 0 → s.op? (opHandle x.entry) = some o → o.st = .suspended → o.kind = 3 → Does (.longOperationCancel c) s fun t =>
    EndedWith t c x Cpl.ok ∧ (t.longOps.any fun y => y.handle == o.handle && y.st == .cancelled) = true ∧ t.prot = s.prot ∧ t.names =
    s.names) ∧
  (∀ (s : State) (c : Nat) (x : Ctx) (o : LongOp), AtHand s c (isAction 0xC2 3) x → x.update = false → x.entry.cdw14 = 0 → x.entry.cdw15 = 0
    → x.entry.cdw13 = 0 → s.op? (opHandle x.entry) = some o → o.st = .suspended → o.kind = 2 → Does (.longOperationCancel c) s fun t =>
    EndedWith t c x Cpl.ok ∧ t.names.sanitizing = false ∧ t.names.sanitizeFailed = true ∧ (t.longOps.any fun y => y.handle == o.handle &&
    y.st == .cancelled) = true) ∧
  (∀ (s : State) (c : Nat) (x : Ctx) (o : LongOp), AtHand s c (isAction 0xC2 4) x → x.update = false → x.entry.cdw14 = 0 → x.entry.cdw15 = 0
    → x.entry.cdw13 = 0 → s.op? (opHandle x.entry) = some o → Does (.longOperationQuery c) s fun t => EndedWith t c x (Cpl.data o.bytes) ∧
    t.nor = s.nor ∧ t.prot = s.prot) ∧
  (∀ (s : State) (c : Nat) (x : Ctx), AtHand s c (isAction 0xC2 5) x → x.update = false → x.entry.cdw14 = 0 → x.entry.cdw15 = 0 →
    x.entry.cdw13 = 0 → Does (.longOperationList c) s fun t => EndedWith t c x
    { Cpl.data (padTo 5120 ((s.longOps.filter (fun o => o.st.active) ++ s.longOps.filter (fun o => !o.st.active)).flatMap LongOp.bytes))
       with dw0 := BitVec.ofNat 32 s.longOps.length } ∧ t.nor = s.nor ∧ t.prot = s.prot) ∧
  (∀ (s : State) (c : Nat) (x : Ctx), AtHand s c (isAction 0xC2 6) x → x.update = false → x.entry.cdw14 = 0 → x.entry.cdw15 = 0 →
    x.entry.cdw13 = 1 → bits x.entry.cdw11 11 0 ≤ 3600 → bits x.entry.cdw11 31 12 = 0 → x.entry.cdw12 = 0 → Does (.setRebuildParameters c) s
    fun t => EndedWith t c x Cpl.ok ∧ t.nor.config.rebuildDelay = bits x.entry.cdw11 11 0 ∧ t.nor.config.spareAlarm =
    s.nor.config.spareAlarm ∧ t.prot = s.prot) ∧
  (∀ (s : State) (c : Nat) (x : Ctx), AtHand s c (isAction 0xC2 0) x → x.update = false → x.entry.cdw14 = 0 → x.entry.cdw15 = 0 →
    x.entry.cdw13 = 0 → opKind x.entry = 1 → s.rebuild? = none → Does (.longOperationStart c) s fun t => EndedWith t c x (Cpl.val
    (BitVec.ofNat 32 t.nor.config.lastHandle)) ∧ (t.longOps.any fun y => y.handle == t.nor.config.lastHandle && y.kind == 1) = true) ∧
  (∀ (s : State) (c : Nat) (x : Ctx) (f : Fn), AtHand s c (isAction 0xC2 0) x → x.origin = .host f → s.ctxs = [x] → x.update = true →
    s.power.entering = false → x.entry.cdw14 = 0 → x.entry.cdw15 = 0 → x.entry.cdw13 = 0 → opKind x.entry = 2 → bits x.entry.cdw11 2 0 = 3 →
    s.activeOps 2 = [] → s.placeFull 2 = false → Does (.longOperationStart c) s fun t => EndedWith t c x (Cpl.val (BitVec.ofNat 32
    t.nor.config.lastHandle)) ∧ t.names.sanitizing = true ∧ (t.longOps.any fun o => o.kind == 2 && o.st == .running) = true ∧ t.names.buffer
    = [] ∧ t.names.map = []) ∧
  (∀ (s : State) (c : Nat) (x : Ctx), AtHand s c (isAction 0xC2 0) x → x.update = false → x.entry.cdw14 = 0 → x.entry.cdw15 = 0 →
    x.entry.cdw13 = 0 → opKind x.entry = 4 → s.mayFormat (s.opFor x 4) = true → s.activeOps 4 = [] → s.placeFull 4 = false → Does
    (.longOperationStart c) s fun t => EndedWith t c x (Cpl.val (BitVec.ofNat 32 t.nor.config.lastHandle)) ∧ (t.longOps.any fun y =>
    y.handle == t.nor.config.lastHandle && y.kind == 4 && y.st == .running && y.p0 == x.entry.cdw11) = true ∧ t.names = s.names ∧ t.prot =
    s.prot) ∧
  (∀ (s : State) (c : Nat) (x : Ctx), AtHand s c (isAction 0xC2 0) x → x.update = false → x.entry.cdw14 = 0 → x.entry.cdw15 = 0 →
    x.entry.cdw13 = 0 → opKind x.entry = 4 → s.mayFormat (s.opFor x 4) = false → Does (.longOperationStart c) s fun t => EndedWith t c x
    Cpl.seqError ∧ t.nor = s.nor ∧ t.prot = s.prot) ∧
  (∀ (s : State) (c : Nat) (x : Ctx), AtHand s c (isAction 0xC2 0) x → x.update = false → x.entry.cdw14 = 0 → x.entry.cdw15 = 0 →
    x.entry.cdw13 = 0 → opKind x.entry = 5 → bits x.entry.cdw12 13 0 = 0 → ((s.activeOps 5).any fun y => y.p0 &&& x.entry.cdw11 != 0) =
    false → s.placeFull 5 = false → Does (.longOperationStart c) s fun t => EndedWith t c x (Cpl.val (BitVec.ofNat 32
    t.nor.config.lastHandle)) ∧ (t.longOps.any fun y => y.handle == t.nor.config.lastHandle && y.kind == 5 && y.st == .running && y.p0 ==
    x.entry.cdw11) = true ∧ t.names = s.names) ∧
  (∀ (s : State) (c : Nat) (x : Ctx) (o : LongOp), AtHand s c (isAction 0xC2 1) x → x.update = false → x.entry.cdw14 = 0 → x.entry.cdw15 = 0
    → x.entry.cdw13 = 0 → s.op? (opHandle x.entry) = some o → o.st = .suspended → Does (.longOperationSuspend c) s fun t => EndedWith t c x
    Cpl.ok ∧ t.nor = s.nor ∧ t.prot = s.prot) ∧
  (∀ (s : State) (c : Nat) (x : Ctx) (o : LongOp), AtHand s c (isAction 0xC2 2) x → x.update = false → x.entry.cdw14 = 0 → x.entry.cdw15 = 0
    → x.entry.cdw13 = 0 → s.op? (opHandle x.entry) = some o → o.st = .running → Does (.longOperationResume c) s fun t => EndedWith t c x
    Cpl.ok ∧ t.nor = s.nor ∧ t.prot = s.prot) ∧
  (∀ (s : State) (c : Nat) (x : Ctx) (o : LongOp), AtHand s c (isAction 0xC2 2) x → x.update = false → x.entry.cdw14 = 0 → x.entry.cdw15 = 0
    → x.entry.cdw13 = 0 → s.op? (opHandle x.entry) = some o → o.st = .suspended → (s.power.inPs3 = true ∨ s.power.entering = true) → Does
    (.longOperationResume c) s fun t => EndedWith t c x Cpl.ok ∧ t.longOps = mapWhere (fun y => y.handle == o.handle) (fun y =>
    { y with byPs3 := true }) s.longOps ∧ t.prot = s.prot) ∧
  (∀ (s : State) (c : Nat) (x : Ctx) (o : LongOp), AtHand s c (isAction 0xC2 3) x → x.update = false → x.entry.cdw14 = 0 → x.entry.cdw15 = 0
    → x.entry.cdw13 = 0 → s.op? (opHandle x.entry) = some o → o.st = .running → o.kind = 3 → Does (.longOperationCancel c) s fun t =>
    EndedWith t c x Cpl.ok ∧ t.longOps = mapWhere (fun y => y.handle == o.handle) (fun y => { y with cancelAsked := true }) s.longOps ∧
    t.prot = s.prot) ∧
  (∀ (s : State) (c : Nat) (x : Ctx), AtHand s c (isAction 0xC2 6) x → x.update = false → x.entry.cdw14 = 0 → x.entry.cdw15 = 0 →
    x.entry.cdw13 = 2 → x.entry.cdw11 = 0 → 1 ≤ bits x.entry.cdw12 5 0 → bits x.entry.cdw12 5 0 ≤ 50 → bits x.entry.cdw12 31 6 = 0 → Does
    (.setRebuildParameters c) s fun t => EndedWith t c x Cpl.ok ∧ t.nor.config.spareAlarm = bits x.entry.cdw12 5 0 ∧
    t.nor.config.rebuildDelay = s.nor.config.rebuildDelay)

/-- What the memory commands do while DRAM and SRAM are in use (spec/13 R493, R494, R496, R504 to R510, Table 13-5; spec/17 R605). MR4_POLL
sets the refresh rate of a rank that the package has, and a hot rank is a DRAM thermal event. ZQ_CALIBRATION of a trained channel follows
the last one by 256 ms, DQS_OSCILLATOR_READ by 64 ms, and adjusts the write DQ delays of the channel by its count (a free value, log 146).
SRAM_SCRUB and DRAM_SCRUB count what they and other reads correct (log 147) and go on to the next word or granule; at the end of a pass the
counts of pages begin anew. PAGE_RETIRE of a page corrected 16 times lists it, one in use later. UNCORRECTABLE_ERROR is counted with its
address and takes the outcome of its region, stated for a recorder slot, a journal entry that no peer holds, a clean map page and firmware's
data; an address outside its region changes nothing. INSTRUCTION_FETCH_TRAP is kept with its instant; a reload that is good lets the
processor go on, and a failed one, or the same page again within 1 s, stops the watchdog's service. DMA_HALT is counted and the channel
recorded and halted; the command of a port's channel ends with Internal Error, and a source run of the stripe engine is read again. No two
words of a granule share a check byte. -/
def Obligations.MemoryCommands : Prop :=
  (∀ (s : State) (ch : Fin 8) (rk : Fin 2) (r : Fin 8), s.memoryUp = true → rk.val < s.mem.ranks → Does (.mr4Poll ch rk r true) s fun t =>
    (t.mem.refresh.any fun q => q == ((ch, rk), r)) = true ∧ t.mem.hot.contains (ch, rk) = true ∧ t.therm.dramHot = true ∧ t.names =
    s.names) ∧
  (∀ (s : State) (ch : Fin 8) (n : Nat), s.memoryUp = true → s.mem.trained.getLsbD ch.val = true → s.mem.zqAt[ch] = some n → Does
    (.zqCalibration ch) s fun t => t.mem.zqAt[ch] = some t.now ∧ n + 256 * Config.ms ≤ t.now ∧ t.names = s.names) ∧
  (∀ (s : State) (ch : Fin 8) (v : W16) (m : Nat), s.memoryUp = true → s.mem.trained.getLsbD ch.val = true → s.mem.dqsAt[ch] = some m → Does
    (.dqsOscillatorRead ch v) s fun t => t.mem.dqs[ch] = v ∧ t.mem.writeDelay[ch] = Config.writeDqDelay ch.val v s.mem.writeDelay[ch] ∧
    t.mem.dqsAt[ch] = some t.now ∧ m + 64 * Config.ms ≤ t.now ∧ t.names = s.names) ∧
  (∀ (s : State) (n : Nat), s.memoryUp = true → Does (.sramScrub ⟨true, n⟩) s fun t => t.mem.sramCe = sat32 s.mem.sramCe (n + 1) ∧
    t.mem.sramPos = (s.mem.sramPos + 1) % sramWords ∧ t.mem.events.getLsbD 0 = true ∧ t.names = s.names) ∧
  (∀ (s : State), s.memoryUp = true → Does (.sramScrub ⟨false, 0⟩) s fun t => t.mem.sramCe = s.mem.sramCe ∧ t.mem.sramPos = (s.mem.sramPos + 1)
    % sramWords ∧ t.names = s.names) ∧
  (∀ (s : State) (b : Bool), s.memoryUp = true → s.mem.patrol = true → s.mem.selfRefresh = false → s.mem.dramPos + 1 < s.mem.granules → Does
    (.dramScrub ⟨b, []⟩) s fun t => t.mem.dramPos = s.mem.dramPos + 1 ∧ t.mem.dramCe = (if b then sat32 s.mem.dramCe 1 else s.mem.dramCe) ∧ (b
    = true → t.mem.events.getLsbD 1 = true) ∧ t.mem.scrubHours = s.mem.scrubHours) ∧
  (∀ (s : State), s.memoryUp = true → s.mem.patrol = true → s.mem.selfRefresh = false → s.mem.granules ≤ s.mem.dramPos + 1 → Does
    (.dramScrub ⟨false, []⟩) s fun t => t.mem.dramPos = 0 ∧ t.mem.passPct = 0 ∧ t.mem.pageCe = [] ∧ t.mem.scrubHours = s.nor.config.scrubHours) ∧
  (∀ (s : State) (page : Nat), (s.mem.pageCe.any fun q => q.1 == page && decide (16 ≤ q.2)) = true → s.mayRetire page = true →
    s.nor.config.retired.contains page = false → s.nor.config.retired.length < 256 → Does (.pageRetire page) s fun t => t.nor.config.retired
    = s.nor.config.retired ++ [page] ∧ t.mem.events.getLsbD 5 = true ∧ t.names = s.names) ∧
  (∀ (s : State) (page : Nat), (s.mem.pageCe.any fun q => q.1 == page && decide (16 ≤ q.2)) = true → s.mayRetire page = false → Does
    (.pageRetire page) s fun t => t.mem.retireDue.contains page = true ∧ t.nor = s.nor ∧ t.names = s.names) ∧
  (∀ (s : State) (addr : Nat) (seq : Nat), s.memoryUp = true → sramWithin .recorder addr = true → Does (.uncorrectableError (.recorder seq)
    false addr) s fun t => t.mem.sramUe = sat32 s.mem.sramUe 1 ∧ t.mem.dramUe = s.mem.dramUe ∧ t.mem.errAddr = BitVec.ofNat 38 addr ∧
    t.mem.errSource = 2 ∧ t.mem.events.getLsbD 2 = true ∧ t.mem.halted = [] ∧ t.book.ring = mapWhere (fun x => x.seq == seq) (fun x =>
    { x with valid := false }) s.book.ring ∧ t.names = s.names) ∧
  (∀ (s : State) (addr : Nat) (ns : Nat) (lba : Nat), s.memoryUp = true → s.mem.within .writeBuffer addr = true → s.pair.st ≠ .paired → Does
    (.uncorrectableError (.mapJournal ns lba) true addr) s fun t => t.mem.dramUe = sat32 s.mem.dramUe 1 ∧ t.mem.events.getLsbD 3 = true ∧
    t.mem.errSource = 1 ∧ t.names.lost.contains (ns, lba) = true ∧ t.boot.degraded = true ∧ t.names.buffer = s.names.buffer) ∧
  (∀ (s : State) (addr : Nat), s.memoryUp = true → s.mem.within .firmware addr = true → Does (.uncorrectableError .firmwareData true addr) s
    fun t => t.aon.dogStopped = true ∧ t.mem.dramUe = sat32 s.mem.dramUe 1 ∧ t.names = s.names) ∧
  (∀ (s : State) (page : Nat), s.memoryUp = true → page < 2048 → Does (.instructionFetchTrap page false) s fun t => t.aon.dogStopped = true
    ∧ t.mem.sramUe = sat32 s.mem.sramUe 1 ∧ t.ident.traps.head? = some (page, s.now) ∧ t.names = s.names) ∧
  (∀ (s : State) (page : Nat), s.memoryUp = true → page < 2048 → s.pageReloads page = true → (s.ident.traps.any fun q => q.1 == page &&
    decide (s.now < q.2 + Config.sec)) = false → Does (.instructionFetchTrap page true) s fun t => t.aon.dogStopped = s.aon.dogStopped ∧
    t.mem.sramUe = sat32 s.mem.sramUe 1 ∧ t.ident.traps.head? = some (page, s.now) ∧ t.names = s.names) ∧
  (∀ (s : State) (ch : Byte) (addr : Nat) (sram : Bool), s.memoryUp = true → Does (.dmaHalt ch addr ⟨sram, .other⟩) s fun t => t.mem.dmaHalts =
    satAdd 65535 s.mem.dmaHalts 1 ∧ t.mem.dmaChannel = ch ∧ t.mem.halted.contains ch = true ∧ t.mem.errAddr = BitVec.ofNat 38 addr ∧
    t.mem.errSource = (if sram then 2 else 1) ∧ t.mem.events.getLsbD 4 = true ∧ (ch.toNat < 0x20 → t.seqs = s.seqs)) ∧
  (∀ (s : State) (page : Nat) (ok : Bool), s.memoryUp = true → page < 2048 → (s.ident.traps.any fun q => q.1 == page && decide (s.now < q.2
    + Config.sec)) = true → Does (.instructionFetchTrap page ok) s fun t => t.aon.dogStopped = true ∧ t.names = s.names) ∧
  (∀ (s : State) (c : Nat) (x : Ctx) (addr : Nat) (sram : Bool), s.memoryUp = true → s.ctxs = [x] → x.id = c → x.origin = .host .a → x.stage
    = .waiting → Does (.dmaHalt 0x00 addr ⟨sram, (.command c)⟩) s fun t => EndedWith t c x Cpl.internal ∧ t.mem.halted.contains 0x00 = true) ∧
  (∀ (s : State) (g : Nat) (i : Nat) (run : Nat) (w : Work) (addr : Nat) (sram : Bool), s.memoryUp = true → s.prot.works = [w] → w.group = g
    → w.stripe = i → Does (.dmaHalt 0x02 addr ⟨sram, (.run g i run)⟩) s fun t => t.prot.works =
    [{ w with runs := w.runs.filter fun n => decide (n < run) }] ∧ t.mem.halted.contains 0x02 = true) ∧
  (∀ (s : State) (page : Nat), s.memoryUp = true → s.mem.patrol = true → s.mem.selfRefresh = false → s.mem.dramPos + 1 < s.mem.granules →
    s.mem.pageCe = [(page, 15)] → Does (.dramScrub ⟨false, [page]⟩) s fun t => t.mem.pageCe = [(page, 16)] ∧ t.mem.dramCe = sat32 s.mem.dramCe
    1 ∧ t.mem.events.getLsbD 1 = true ∧ t.mem.dramPos = s.mem.dramPos + 1) ∧
  (∀ (s : State) (addr : Nat) (page : Nat), s.memoryUp = true → s.mem.within .mapPages addr = true → Does (.uncorrectableError
    (.mapPageClean 1 page) true addr) s fun t => (t.names.pagesIn.any fun q => q.1 == 1 && q.2.1 == page) = false ∧ t.names.lost =
    s.names.lost ∧ t.mem.dramUe = sat32 s.mem.dramUe 1 ∧ t.mem.events.getLsbD 3 = true) ∧
  (∀ (s : State) (r : MemRegion) (dram : Bool) (addr : Nat), s.mem.holds dram addr r = false → Does (.uncorrectableError r dram addr) s fun
    t => t = s) ∧
  (∀ (m : Mem) (a b : Nat), a / 2048 = b / 2048 → m.checkByte a = m.checkByte b → a / 8 % 32 = b / 8 % 32)

/-- What Map Cache Control, with no reserved field set, and MAP_CACHE_MISS do (spec/13 R511 to R520). MAP_CACHE_QUERY returns the status.
MAP_CACHE_ENABLE needs an invalidate-all before it, and without one is a sequence error. MAP_CACHE_DISABLE writes the dirty lines back;
INVALIDATE_ALL leaves no line and no locked way; CLEAN_ALL leaves no dirty line. PRELOAD of blocks of a conventional namespace names its
ways; with more than 12 ways and locked ones together it is an invalid field. LOCK takes ways that a preload has named, and is a sequence
error for others; UNLOCK frees them. INVALIDATE_RANGE leaves no line of its blocks, and of no block is an invalid field. A hit keeps the
line and counts; a miss installs the line over the victim, which is written back when dirty, and counts; one whose fill cannot be corrected
installs nothing, and a corrected fill is counted; a disabled cache is not used. -/
def Obligations.MapCacheCommands : Prop :=
  (∀ (s : State) (c : Nat) (x : Ctx), AtHand s c (isAction 0xC6 0) x → bits x.entry.cdw10 15 8 = 0 → x.entry.cdw14 = 0 → x.entry.cdw15 = 0 →
    Does (.mapCacheQuery c) s fun t => EndedWith t c x (Cpl.val s.mcache.status) ∧ t.mcache = s.mcache ∧ t.names = s.names) ∧
  (∀ (s : State) (c : Nat) (x : Ctx), AtHand s c (isAction 0xC6 1) x → bits x.entry.cdw10 15 8 = 0 → x.entry.cdw14 = 0 → x.entry.cdw15 = 0 →
    s.mcache.invalidated = true → Does (.mapCacheEnable c) s fun t => EndedWith t c x Cpl.ok ∧ t.mcache = { s.mcache with enabled := true }
    ∧ t.names = s.names) ∧
  (∀ (s : State) (c : Nat) (x : Ctx), AtHand s c (isAction 0xC6 1) x → bits x.entry.cdw10 15 8 = 0 → x.entry.cdw14 = 0 → x.entry.cdw15 = 0 →
    s.mcache.invalidated = false → Does (.mapCacheEnable c) s fun t => EndedWith t c x Cpl.seqError ∧ t.mcache = s.mcache ∧ t.names =
    s.names) ∧
  (∀ (s : State) (c : Nat) (x : Ctx), AtHand s c (isAction 0xC6 2) x → bits x.entry.cdw10 15 8 = 0 → x.entry.cdw14 = 0 → x.entry.cdw15 = 0 →
    Does (.mapCacheDisable c) s fun t => EndedWith t c x Cpl.ok ∧ t.mcache.enabled = false ∧ t.mcache.invalidated = false ∧
    t.mcache.dirtyLines = 0 ∧ t.mcache.writebacks = sat32 s.mcache.writebacks s.mcache.dirtyLines ∧ t.names = s.names) ∧
  (∀ (s : State) (c : Nat) (x : Ctx), AtHand s c (isAction 0xC6 3) x → bits x.entry.cdw10 15 8 = 0 → x.entry.cdw14 = 0 → x.entry.cdw15 = 0 →
    Does (.invalidateAll c) s fun t => EndedWith t c x Cpl.ok ∧ t.mcache.sets = [] ∧ t.mcache.locked = 0 ∧ t.mcache.invalidated = true ∧
    t.mcache.writebacks = sat32 s.mcache.writebacks s.mcache.dirtyLines ∧ t.names = s.names) ∧
  (∀ (s : State) (c : Nat) (x : Ctx), AtHand s c (isAction 0xC6 4) x → bits x.entry.cdw10 15 8 = 0 → x.entry.cdw14 = 0 → x.entry.cdw15 = 0 →
    Does (.cleanAll c) s fun t => EndedWith t c x Cpl.ok ∧ t.mcache.dirtyLines = 0 ∧ t.mcache.enabled = s.mcache.enabled ∧ t.mcache.locked =
    s.mcache.locked ∧ t.mcache.writebacks = sat32 s.mcache.writebacks s.mcache.dirtyLines ∧ t.names = s.names) ∧
  (∀ (s : State) (c : Nat) (x : Ctx) (n : Ns), AtHand s c (isAction 0xC6 5) x → bits x.entry.cdw10 15 8 = 0 → x.entry.cdw14 = 0 →
    x.entry.cdw15 = 0 → ways (maskOf x.entry ||| s.mcache.locked) ≤ 12 → x.entry.cdw13 ≠ 0 → s.ns? x.entry.nsid.toNat = some n →
    s.deletedFor n x = false → n.zoned = false → slbaOf x.entry + x.entry.cdw13.toNat ≤ n.nsze → Does (.preload c) s fun t => (t.ctx? c).any
    (fun y => y.stage == .decided && (y.cpl.any fun r => r.good)) = true ∧ t.mcache.named = s.mcache.named ||| maskOf x.entry ∧
    t.mcache.locked = s.mcache.locked ∧ t.names.map = s.names.map) ∧
  (∀ (s : State) (c : Nat) (x : Ctx), AtHand s c (isAction 0xC6 5) x → bits x.entry.cdw10 15 8 = 0 → x.entry.cdw14 = 0 → x.entry.cdw15 = 0 →
    12 < ways (maskOf x.entry ||| s.mcache.locked) → Does (.preload c) s fun t => EndedWith t c x (Cpl.invalid 10 16) ∧ t.mcache = s.mcache
    ∧ t.names = s.names) ∧
  (∀ (s : State) (c : Nat) (x : Ctx), AtHand s c (isAction 0xC6 6) x → bits x.entry.cdw10 15 8 = 0 → x.entry.cdw14 = 0 → x.entry.cdw15 = 0 →
    ways (maskOf x.entry ||| s.mcache.locked) ≤ 12 → maskOf x.entry &&& s.mcache.named = maskOf x.entry → Does (.lock c) s fun t =>
    EndedWith t c x Cpl.ok ∧ t.mcache = { s.mcache with locked := s.mcache.locked ||| maskOf x.entry } ∧ t.names = s.names) ∧
  (∀ (s : State) (c : Nat) (x : Ctx), AtHand s c (isAction 0xC6 6) x → bits x.entry.cdw10 15 8 = 0 → x.entry.cdw14 = 0 → x.entry.cdw15 = 0 →
    ways (maskOf x.entry ||| s.mcache.locked) ≤ 12 → maskOf x.entry &&& s.mcache.named ≠ maskOf x.entry → Does (.lock c) s fun t =>
    EndedWith t c x Cpl.seqError ∧ t.mcache = s.mcache ∧ t.names = s.names) ∧
  (∀ (s : State) (c : Nat) (x : Ctx), AtHand s c (isAction 0xC6 7) x → bits x.entry.cdw10 15 8 = 0 → x.entry.cdw14 = 0 → x.entry.cdw15 = 0 →
    ways (maskOf x.entry ||| s.mcache.locked) ≤ 12 → Does (.unlock c) s fun t => EndedWith t c x Cpl.ok ∧ t.mcache =
    { s.mcache with locked := s.mcache.locked &&& ~~~(maskOf x.entry) } ∧ t.names = s.names) ∧
  (∀ (s : State) (c : Nat) (x : Ctx) (n : Ns), AtHand s c (isAction 0xC6 8) x → bits x.entry.cdw10 15 8 = 0 → x.entry.cdw14 = 0 →
    x.entry.cdw15 = 0 → x.entry.cdw13 ≠ 0 → s.ns? x.entry.nsid.toNat = some n → s.deletedFor n x = false → n.zoned = false → slbaOf x.entry
    + x.entry.cdw13.toNat ≤ n.nsze → Does (.invalidateRange c) s fun t => EndedWith t c x Cpl.ok ∧ t.mcache.locked = s.mcache.locked ∧
    t.mcache.enabled = s.mcache.enabled ∧ (∀ b < x.entry.cdw13.toNat, ∀ tag, s.lineTag n.nsid (slbaOf x.entry + b) = some tag →
    (t.mcache.sets.all fun q => q.ways.all fun w => w.2.tag != tag) = true) ∧ t.names = s.names) ∧
  (∀ (s : State) (addr : Nat) (w : Bool) (way : Fin 16) (l : Line), s.mcache.enabled = true → ((s.mcache.set (setOf (addr /
    128))).ways.find? fun w => w.2.tag == addr / 128) = some (way, l) → Does (.mapCacheMiss addr ⟨w, .clean⟩) s fun t => t.mcache.hits = sat32
    s.mcache.hits 1 ∧ t.mcache.misses = s.mcache.misses ∧ (t.mcache.set (setOf (addr / 128))).ways.contains (way,
    { l with dirty := l.dirty || w }) = true ∧ t.names = s.names) ∧
  (∀ (s : State) (addr : Nat) (w : Bool), s.mcache.enabled = true → ((s.mcache.set (setOf (addr / 128))).ways.find? fun w => w.2.tag == addr
    / 128) = none → Does (.mapCacheMiss addr ⟨w, .clean⟩) s fun t => t.mcache.misses = sat32 s.mcache.misses 1 ∧ t.mcache.hits = s.mcache.hits
    ∧ t.mcache.writebacks = sat32 s.mcache.writebacks (bit ((s.mcache.set (setOf (addr / 128))).ways.any fun q => q.1 == plruVictim
    (s.mcache.set (setOf (addr / 128))).plru s.mcache.locked && q.2.dirty)) ∧ (t.mcache.set (setOf (addr / 128))).ways.contains (plruVictim
    (s.mcache.set (setOf (addr / 128))).plru s.mcache.locked, { tag := addr / 128, dirty := w, stale := false, preloaded := false }) = true
    ∧ t.names = s.names) ∧
  (∀ (s : State) (addr : Nat) (w : Bool), s.mcache.enabled = false → Does (.mapCacheMiss addr ⟨w, .clean⟩) s fun t => t.mcache = s.mcache ∧ t =
    s.dramAccess (128 * (addr / 128)) w) ∧
  (∀ (s : State) (addr : Nat) (w : Bool), s.mcache.enabled = true → ((s.mcache.set (setOf (addr / 128))).ways.find? fun w => w.2.tag == addr
    / 128) = none → Does (.mapCacheMiss addr ⟨w, .uncorrectable⟩) s fun t => t.mcache.misses = sat32 s.mcache.misses 1 ∧ t.mcache.hits =
    s.mcache.hits ∧ ((t.mcache.set (setOf (addr / 128))).ways.all fun q => q.2.tag != addr / 128 && q.1 != plruVictim (s.mcache.set (setOf
    (addr / 128))).plru s.mcache.locked) = true ∧ t.names = s.names) ∧
  (∀ (s : State) (addr : Nat) (w : Bool), s.mcache.enabled = true → ((s.mcache.set (setOf (addr / 128))).ways.find? fun w => w.2.tag == addr
    / 128) = none → Does (.mapCacheMiss addr ⟨w, .corrected⟩) s fun t => t.mcache.misses = sat32 s.mcache.misses 1 ∧ t.mem.dramCe = sat32
    s.mem.dramCe 1 ∧ t.mem.events.getLsbD 1 = true) ∧
  (∀ (s : State) (c : Nat) (x : Ctx), AtHand s c (isAction 0xC6 8) x → bits x.entry.cdw10 15 8 = 0 → x.entry.cdw14 = 0 → x.entry.cdw15 = 0 →
    x.entry.cdw13 = 0 → Does (.invalidateRange c) s fun t => EndedWith t c x (Cpl.invalid 13 0) ∧ t.mcache = s.mcache ∧ t.names = s.names)

/-- What the messages of the Wings link do when they take effect, each once, in a pair whose link is up and whose crossing is not stale
(spec/18 R626, R628, R629, R637, R640 to R642, R649, R653 to R655; spec/14 R536). MIRROR is written into the peer-mirror region and
acknowledged, and only acknowledged when it comes again; over a stale crossing it is discarded and counted. RELEASE frees its range of a
conventional namespace. JOURNAL: a map record is kept, a member record and a checkpoint take effect, each acknowledged. ACK completes the
write that waits for no later message, where nothing settles and no stripe is under work. SYNC is mirrored, and the last one pairs a
rejoining controller. FORWARD admits its command here, or answers it when its group moves; FORWARD_CPL ends a forwarded command there with
its completion. MEDIA_REQ is queued by the owner of the port and answered by another; MEDIA_DATA ends the read of one block that waits for
it; MEDIA_DONE answers the request, and marks the chunk whose write has failed for reallocation. HANDOVER brings the ports and the epoch, or
with none left the peer's groups; the answer to one's own ends it. RETRY names the block to send again from. -/
def Obligations.WingsMessageCommands : Prop :=
  (∀ (s : State) (q : W32) (ns : Nat) (adm : W32) (lba : Nat) (data : List Blk), s.pair.mode = true → s.pair.wings = 2 → s.isStale .wings =
    false → earlier s.pair.rxMsg q = true → Does (.mirror q ns adm lba data) s fun t => t.pair.mirrors.getLast? = some
    { seq := q, ns := ns, adm := adm, lba := lba, data := data } ∧ (∀ m ∈ t.pair.mirrors.dropLast, m.ns = ns → m.lba + m.data.length ≤ lba ∨
    lba + data.length ≤ m.lba) ∧ (t.out.head?.any (Out.isWings 5)) = true ∧ t.names = s.names ∧ t.pair.rxMsg = q) ∧
  (∀ (s : State) (q : W32) (ns : Nat) (adm : W32) (lba : Nat) (data : List Blk), s.pair.mode = true → s.pair.wings = 2 → s.isStale .wings =
    false → earlier s.pair.rxMsg q = false → Does (.mirror q ns adm lba data) s fun t => t.pair.mirrors = s.pair.mirrors ∧ t.pair.rxMsg =
    s.pair.rxMsg ∧ (t.out.head?.any (Out.isWings 5)) = true ∧ t.names = s.names) ∧
  (∀ (s : State) (q : W32) (ns : Nat) (lba : Nat) (nlb : Nat) (n : Ns), s.pair.mode = true → s.pair.wings = 2 → s.isStale .wings = false →
    earlier s.pair.rxMsg q = true → s.ns? ns = some n → n.zoned = false → Does (.release q ns lba nlb) s fun t => (∀ m ∈ t.pair.mirrors,
    m.ns = ns → m.lba + m.data.length ≤ lba ∨ lba + nlb ≤ m.lba) ∧ t.names = s.names ∧ t.pair.rxMsg = q) ∧
  (∀ (s : State) (q : W32) (ns : Nat) (lba : Nat) (e : W64), s.pair.mode = true → s.pair.wings = 2 → s.isStale .wings = false → earlier
    s.pair.rxMsg q = true → e ≠ 0 → Does (.journal q (.map ns lba e)) s fun t => t.pair.journal.getLast? = some (q, .map ns lba e) ∧
    t.pair.mirrors = s.pair.mirrors ∧ (t.out.head?.any (Out.isWings 5)) = true ∧ t.names = s.names ∧ t.pair.rxMsg = q) ∧
  (∀ (s : State) (q : W32) (p : PortId) (k : Nat) (sr : BitVec 160) (f0 : Bool) (f1 : Bool) (b0 : Nat) (b1 : Nat) (sl : List (Nat × List
    Nat)), s.pair.mode = true → s.pair.wings = 2 → s.isStale .wings = false → earlier s.pair.rxMsg q = true → Does (.journal q (.member p k
    sr f0 f1 b0 b1 sl none)) s fun t => (t.member p).st = MemberSt.ofCode k ∧ (t.member p).serial = sr ∧ (t.member p).failed0 = f0 ∧
    (t.member p).failed1 = f1 ∧ (t.member p).bands0 = b0 ∧ (t.member p).bands1 = b1 ∧ (t.member p).slips = sl ∧ (t.out.head?.any
    (Out.isWings 5)) = true ∧ t.names = s.names ∧ t.pair.rxMsg = q ∧ ∀ r, r ≠ p → t.member r = s.member r) ∧
  (∀ (s : State) (q : W32) (c : Nat) (x : Ctx) (l : List W32) (f : Fn), s.pair.mode = true → s.pair.wings = 2 → s.ctxs = [x] → x.id = c →
    x.origin = .host f → x.stage = .waiting → x.wait = .mirror l → l.all (fun k => !earlier q k) = true → s.pair.settling = false →
    s.pair.syncing = false → s.prot.works = [] → Does (.ack q) s fun t => EndedWith t c x x.writeCpl ∧ (∀ m ∈ t.pair.unanswered, m ∈
    s.pair.unanswered) ∧ t.names = s.names) ∧
  (∀ (s : State) (q : W32) (ns : Nat) (lba : Nat) (data : List Blk), s.pair.mode = true → s.pair.wings = 2 → s.isStale .wings = false →
    earlier s.pair.rxMsg q = true → data ≠ [] → Does (.sync q ns lba data false) s fun t => t.pair.mirrors.getLast? = some
    { seq := q, ns := ns, adm := 0, lba := lba, data := data } ∧ t.pair.st = s.pair.st ∧ (t.out.head?.any (Out.isWings 5)) = true ∧ t.names
    = s.names ∧ t.pair.rxMsg = q) ∧
  (∀ (s : State) (q : W32) (ns : Nat) (lba : Nat), s.pair.mode = true → s.pair.wings = 2 → s.isStale .wings = false → earlier s.pair.rxMsg q
    = true → s.pair.st = .rejoining → Does (.sync q ns lba [] true) s fun t => t.pair.st = .paired ∧ t.pair.servesOther = false ∧
    t.pair.coordinator = (!s.pair.side) ∧ t.pair.own = s.pair.own ∧ t.pair.events.getLsbD 6 = true ∧ t.pair.rxMsg = q) ∧
  (∀ (s : State) (q : W32) (f : Fn) (i : Nat) (e : SqEntry) (n : Ns), s.pair.mode = true → s.pair.wings = 2 → s.isStale .wings = false →
    earlier s.pair.rxMsg q = true → i ≠ 0 → s.ctx? s.nextCtx = none → s.ns? (Ctx.fresh s.nextCtx s.now (.peer q f i) i e .none).ns = some n
    → (s.fn f).anaOf n ≠ .change → ioFault e = none → Does (.forward q f i e) s fun t => (t.ctx? s.nextCtx).any (fun y => y.stage ==
    .admitted && y.origin == .peer q f i && y.entry == e && y.adm == s.admission) = true ∧ t.admission = s.admission + 1 ∧ t.nextCtx =
    s.nextCtx + 1 ∧ t.names = s.names ∧ t.out = s.out ∧ t.pair.rxMsg = q) ∧
  (∀ (s : State) (q : W32) (f : Fn) (i : Nat) (e : SqEntry) (n : Ns), s.pair.mode = true → s.pair.wings = 2 → s.isStale .wings = false →
    earlier s.pair.rxMsg q = true → i ≠ 0 → s.ctx? s.nextCtx = none → s.ns? (Ctx.fresh s.nextCtx s.now (.peer q f i) i e .none).ns = some n
    → (s.fn f).anaOf n = .change → ioFault e = none → Does (.forward q f i e) s fun t => t.ctx? s.nextCtx = none ∧ (t.out.head?.any
    (Out.isWings 7)) = true ∧ t.names = s.names ∧ t.pair.rxMsg = q) ∧
  (∀ (s : State) (q : W32) (c : Nat) (x : Ctx) (f : Fn) (a : Nat) (b : Nat) (d0 : W32) (d1 : W32) (bs : List Byte) (data : List Blk),
    s.pair.mode = true → s.pair.wings = 2 → s.isStale .wings = false → earlier s.pair.rxMsg q = true → s.ctx? c = some x → x.origin = .host
    f → (s.fn f).d3hot = false → x.stage = .forwarded → isIoOp opZoneAppend x = false → s.flushesPeer x = false → Does (.forwardCpl q c a b
    d0 d1 bs data) s fun t => (t.ctx? c).any (fun y => y.stage == .decided && y.adm == d1 && y.cpl.any (fun r => r.sct == a && r.sc == b &&
    r.dw0 == d0 && r.dw1 == d1 && r.bytes == bs && r.blocks == data)) = true ∧ t.names = s.names ∧ t.pair.rxMsg = q) ∧
  (∀ (s : State) (q : W32) (a : ActId) (d : Descriptor), s.pair.mode = true → s.pair.wings = 2 → s.isStale .wings = false → earlier
    s.pair.rxMsg q = true → s.pair.own.getLsbD (portOf a).val = true → Does (.mediaReq q a d) s fun t => t.pair.peerReqs = s.pair.peerReqs
    ++ [{ seq := q, act := a, d := { d with ctx := none, reread := 0 } }] ∧ (t.seq a).queue = (s.seq a).queue ++
    [{ d with ctx := none, reread := 0 }] ∧ (∀ b, b ≠ a → t.seq b = s.seq b) ∧ t.out = s.out ∧ t.names = s.names ∧ t.pair.rxMsg = q) ∧
  (∀ (s : State) (q : W32) (a : ActId) (d : Descriptor), s.pair.mode = true → s.pair.wings = 2 → s.isStale .wings = false → earlier
    s.pair.rxMsg q = true → s.pair.own.getLsbD (portOf a).val = false → Does (.mediaReq q a d) s fun t => t.seqs = s.seqs ∧ t.pair.peerReqs
    = s.pair.peerReqs ∧ (t.out.head?.any (Out.isWings 8)) = true ∧ t.names = s.names ∧ t.pair.rxMsg = q) ∧
  (∀ (s : State) (q : W32) (c : Nat) (y : Ctx) (n : Ns) (m : SentMsg) (l : Location) (lba : Nat) (sec : Nat) (r : W32) (v : Blk) (f : Fn),
    s.pair.mode = true → s.pair.wings = 2 → s.isStale .wings = false → earlier s.pair.rxMsg q = true → s.ctx? c = some y → y.stage =
    .waiting → isIoOp 0x02 y = true → y.lba = lba → y.nlb = 1 → y.got = [] → y.saved = [] → y.wait = .sectors [lba] → s.ns? y.ns = some n →
    y.origin = .host f → (s.fn f).d3hot = false → s.blocked y = false → s.mediaAsked r = some m → m.ctx = some c → m.sectorAt sec = some l →
    s.foundAt (s.findMapped n lba) = some l → Does (.mediaData q r sec [v]) s fun t => (t.ctx? c).any (fun z => z.stage == .decided && z.cpl
    == some (y.stamp { Cpl.ok with blocks := [v] })) = true ∧ t.names = s.names ∧ t.pair.rxMsg = q) ∧
  (∀ (s : State) (q : W32) (r : W32) (m : SentMsg), s.pair.mode = true → s.pair.wings = 2 → s.isStale .wings = false → earlier s.pair.rxMsg
    q = true → s.mediaAsked r = some m → Does (.mediaDone q r true) s fun t => t.pair.unanswered = s.pair.unanswered.filter (fun y => y.seq
    != r) ∧ t.prot = s.prot ∧ t.names = s.names ∧ t.pair.rxMsg = q) ∧
  (∀ (s : State) (q : W32) (ports : W32) (g : BitVec 2) (ep : BitVec 63), s.pair.mode = true → s.pair.wings = 2 → s.isStale .wings = false →
    earlier s.pair.rxMsg q = true → s.pair.handing = none → s.pair.st = .paired → ports ≠ 0 → Does (.handover q ports g ep) s fun t =>
    t.pair.own = s.pair.own ||| ports ∧ t.pair.peerOwn = s.pair.peerOwn &&& ~~~ports ∧ t.pair.epoch = ep ∧ t.pair.st = .paired ∧
    t.pair.rxMsg = q) ∧
  (∀ (s : State) (q : W32) (g : BitVec 2) (ep : BitVec 63), s.pair.mode = true → s.pair.wings = 2 → s.isStale .wings = false → earlier
    s.pair.rxMsg q = true → s.pair.handing = none → s.pair.st = .paired → Does (.handover q 0 g ep) s fun t => t.pair.st = .solo ∧
    t.pair.own = 0xFFFFFFFF ∧ t.pair.servesOther = true ∧ t.pair.coordinator = true ∧ t.pair.epoch = ep ∧ (t.out.head?.any (Out.isWings 9))
    = true ∧ t.pair.rxMsg = q) ∧
  (∀ (s : State) (q : W32) (ports : W32) (g : BitVec 2) (ep : BitVec 63) (h : Handing), s.pair.mode = true → s.pair.wings = 2 → s.isStale
    .wings = false → earlier s.pair.rxMsg q = true → s.pair.handing = some h → h.sent = true → h.epoch = ep → h.groups = 0 → Does (.handover
    q ports g ep) s fun t => t.pair.handing = none ∧ t.pair.handovers = satAdd 255 s.pair.handovers 1 ∧ t.pair.events.getLsbD 5 = true ∧
    t.pair.st = s.pair.st ∧ t.pair.own = s.pair.own ∧ t.names = s.names ∧ t.pair.rxMsg = q) ∧
  (∀ (s : State) (b : BitVec 13), s.pair.mode = true → s.pair.wings ≠ 0 → Does (.retry b) s fun t => t.out = .resend b :: s.out ∧ t.pair =
    s.pair ∧ t.names = s.names) ∧
  (∀ (s : State) (q : W32) (ns : Nat) (adm : W32) (lba : Nat) (data : List Blk), s.pair.mode = true → s.pair.wings = 2 → s.isStale .wings =
    true → Does (.mirror q ns adm lba data) s fun t => t.pair = s.pair ∧ t.out = s.out ∧ t.names = s.names ∧ t.xing.discards = sat32
    s.xing.discards 1) ∧
  (∀ (s : State) (q : W32) (n : Nat) (active : Bool) (held : Bool), s.pair.mode = true → s.pair.wings = 2 → s.isStale .wings = false →
    earlier s.pair.rxMsg q = true → s.rebuild? = none → Does (.journal q (.checkpoint n active held)) s fun t => t.prot.checkpoint = n ∧
    t.prot.peerRebuild = active ∧ t.prot.rebuildHeld = held ∧ (t.out.head?.any (Out.isWings 5)) = true ∧ t.names = s.names ∧ t.pair.rxMsg =
    q) ∧
  (∀ (s : State) (q : W32) (r : W32) (m : SentMsg) (l : Location) (x : Sector) (a : Nat) (b : Nat) (hd : Nat) (cl : Nat) (tr : Nat) (z :
    Nat) (first : Nat) (count : Nat), s.pair.mode = true → s.pair.wings = 2 → s.isStale .wings = false → earlier s.pair.rxMsg q = true →
    s.mediaAsked r = some m → m.payload = [a, b, 1, cl, hd, tr, z, first, count] → m.sectorAt first = some l → s.sectorOf l = some x → Does
    (.mediaDone q r false) s fun t => t.prot.marked.contains x.place = true ∧ t.pair.unanswered = s.pair.unanswered.filter (fun y => y.seq
    != r) ∧ t.names = s.names)

/-- What the actions of Pair Control do (spec/18 R653 to R655, R657, Table 18-7), with no reserved field set. PAIR_CONTROL_QUERY returns the
PAIR block and clears the three counts it read. HAND_OVER_PORTS of ports of its own, and PAIR_RELEASE of all of them with the groups, begin
under the next epoch and wait for the peer; they are a sequence error while not paired; a mask that names a port of the peer is an invalid
field, and one that names none changes nothing. REJOIN by a stood-down or released controller with Wings up begins, and by another one or
without Wings is a sequence error. SET_HEARTBEAT_MS sets heartbeat_ms, here and in the configuration store, from 100 to 5,000; another value
is an invalid field. With pair_mode 0 every action is a sequence error. -/
def Obligations.PairControlCommands : Prop :=
  (∀ (s : State) (c : Nat) (x : Ctx), AtHand s c (isAction 0xCD 0) x → s.pair.mode = true → bits x.entry.cdw10 31 8 = 0 → bits x.entry.cdw12
    31 13 = 0 → x.entry.cdw13 = 0 → x.entry.cdw14 = 0 → x.entry.cdw15 = 0 → Does (.pairControlQuery c) s fun t => EndedWith t c x (Cpl.data
    (s.windowBytes 0x6000 64)) ∧ t.pair.corr = 0 ∧ t.pair.uncorr = 0 ∧ t.pair.forwarded = 0 ∧ t.pair.st = s.pair.st ∧ t.pair.own =
    s.pair.own ∧ t.names = s.names ∧ t.prot = s.prot) ∧
  (∀ (s : State) (c : Nat) (x : Ctx) (e : BitVec 63), AtHand s c (isAction 0xCD 1) x → s.pair.mode = true → bits x.entry.cdw10 31 8 = 0 →
    bits x.entry.cdw12 31 13 = 0 → x.entry.cdw13 = 0 → x.entry.cdw14 = 0 → x.entry.cdw15 = 0 → s.pair.st = .paired → s.pair.handing = none →
    x.entry.cdw11 &&& ~~~s.pair.own = 0 → x.entry.cdw11 ≠ 0 → nextEpoch s.pair.epoch.toNat = some e → Does (.handOverPorts c) s fun t =>
    (t.ctx? c).any (fun y => y.stage == .waiting && y.wait == .handover) = true ∧ (t.pair.handing.map fun h => (h.ports, h.groups, h.epoch))
    = some (x.entry.cdw11, 0, e)) ∧
  (∀ (s : State) (c : Nat) (x : Ctx), AtHand s c (isAction 0xCD 1) x → s.pair.mode = true → bits x.entry.cdw10 31 8 = 0 → bits x.entry.cdw12
    31 13 = 0 → x.entry.cdw13 = 0 → x.entry.cdw14 = 0 → x.entry.cdw15 = 0 → s.pair.st ≠ .paired → Does (.handOverPorts c) s fun t =>
    EndedWith t c x Cpl.seqError ∧ t.pair = s.pair ∧ t.names = s.names ∧ t.prot = s.prot) ∧
  (∀ (s : State) (c : Nat) (x : Ctx), AtHand s c (isAction 0xCD 1) x → s.pair.mode = true → bits x.entry.cdw10 31 8 = 0 → bits x.entry.cdw12
    31 13 = 0 → x.entry.cdw13 = 0 → x.entry.cdw14 = 0 → x.entry.cdw15 = 0 → s.pair.st = .paired → s.pair.handing = none → x.entry.cdw11 &&&
    ~~~s.pair.own ≠ 0 → Does (.handOverPorts c) s fun t => EndedWith t c x (Cpl.invalid 11 0) ∧ t.pair = s.pair ∧ t.names = s.names ∧ t.prot
    = s.prot) ∧
  (∀ (s : State) (c : Nat) (x : Ctx) (e : BitVec 63), AtHand s c (isAction 0xCD 2) x → s.pair.mode = true → bits x.entry.cdw10 31 8 = 0 →
    bits x.entry.cdw12 31 13 = 0 → x.entry.cdw13 = 0 → x.entry.cdw14 = 0 → x.entry.cdw15 = 0 → s.pair.st = .paired → s.pair.handing = none →
    s.pair.own ≠ 0 → nextEpoch s.pair.epoch.toNat = some e → Does (.pairRelease c) s fun t => (t.ctx? c).any (fun y => y.stage == .waiting
    && y.wait == .handover) = true ∧ (t.pair.handing.map fun h => (h.ports, h.groups, h.epoch)) = some (s.pair.own, 3, e)) ∧
  (∀ (s : State) (c : Nat) (x : Ctx), AtHand s c (isAction 0xCD 2) x → s.pair.mode = true → bits x.entry.cdw10 31 8 = 0 → bits x.entry.cdw12
    31 13 = 0 → x.entry.cdw13 = 0 → x.entry.cdw14 = 0 → x.entry.cdw15 = 0 → s.pair.st ≠ .paired → Does (.pairRelease c) s fun t => EndedWith
    t c x Cpl.seqError ∧ t.pair = s.pair ∧ t.names = s.names ∧ t.prot = s.prot) ∧
  (∀ (s : State) (c : Nat) (x : Ctx), AtHand s c (isAction 0xCD 3) x → s.pair.mode = true → bits x.entry.cdw10 31 8 = 0 → bits x.entry.cdw12
    31 13 = 0 → x.entry.cdw13 = 0 → x.entry.cdw14 = 0 → x.entry.cdw15 = 0 → (s.pair.st = .stoodDown ∨ s.pair.st = .released) → s.pair.wings
    = 2 → Does (.rejoin c) s fun t => (t.ctx? c).any (fun y => y.stage == .waiting && y.wait == .rejoin) = true ∧ t.pair.st = .rejoining ∧
    t.pair.own = 0 ∧ (t.out.head?.any (Out.isWings 1)) = true ∧ t.fa.ana1 = .inaccessible ∧ t.fa.ana2 = .inaccessible) ∧
  (∀ (s : State) (c : Nat) (x : Ctx), AtHand s c (isAction 0xCD 3) x → s.pair.mode = true → bits x.entry.cdw10 31 8 = 0 → bits x.entry.cdw12
    31 13 = 0 → x.entry.cdw13 = 0 → x.entry.cdw14 = 0 → x.entry.cdw15 = 0 → s.pair.wings ≠ 2 → Does (.rejoin c) s fun t => EndedWith t c x
    Cpl.seqError ∧ t.pair = s.pair ∧ t.names = s.names ∧ t.prot = s.prot) ∧
  (∀ (s : State) (c : Nat) (x : Ctx), AtHand s c (isAction 0xCD 4) x → s.pair.mode = true → bits x.entry.cdw10 31 8 = 0 → bits x.entry.cdw12
    31 13 = 0 → x.entry.cdw13 = 0 → x.entry.cdw14 = 0 → x.entry.cdw15 = 0 → 100 ≤ bits x.entry.cdw12 12 0 → bits x.entry.cdw12 12 0 ≤ 5000 →
    Does (.setHeartbeatMs c) s fun t => EndedWith t c x Cpl.ok ∧ t.pair.heartbeatMs = bits x.entry.cdw12 12 0 ∧ t.nor.config.heartbeatMs =
    bits x.entry.cdw12 12 0 ∧ t.names = s.names ∧ t.prot = s.prot) ∧
  (∀ (s : State) (c : Nat) (x : Ctx), AtHand s c (isAction 0xCD 4) x → s.pair.mode = true → bits x.entry.cdw10 31 8 = 0 → bits x.entry.cdw12
    31 13 = 0 → x.entry.cdw13 = 0 → x.entry.cdw14 = 0 → x.entry.cdw15 = 0 → bits x.entry.cdw12 12 0 < 100 → Does (.setHeartbeatMs c) s fun t
    => EndedWith t c x (Cpl.invalid 12 0) ∧ t.pair = s.pair ∧ t.names = s.names ∧ t.prot = s.prot) ∧
  (∀ (s : State) (c : Nat) (x : Ctx), AtHand s c (isAction 0xCD 0) x → s.pair.mode = false → Does (.pairControlQuery c) s fun t => EndedWith
    t c x Cpl.seqError ∧ t.pair = s.pair ∧ t.names = s.names ∧ t.prot = s.prot) ∧
  (∀ (s : State) (c : Nat) (x : Ctx), AtHand s c (isAction 0xCD 1) x → s.pair.mode = false → Does (.handOverPorts c) s fun t => EndedWith t
    c x Cpl.seqError ∧ t.pair = s.pair ∧ t.names = s.names ∧ t.prot = s.prot) ∧
  (∀ (s : State) (c : Nat) (x : Ctx), AtHand s c (isAction 0xCD 2) x → s.pair.mode = false → Does (.pairRelease c) s fun t => EndedWith t c
    x Cpl.seqError ∧ t.pair = s.pair ∧ t.names = s.names ∧ t.prot = s.prot) ∧
  (∀ (s : State) (c : Nat) (x : Ctx), AtHand s c (isAction 0xCD 3) x → s.pair.mode = false → Does (.rejoin c) s fun t => EndedWith t c x
    Cpl.seqError ∧ t.pair = s.pair ∧ t.names = s.names ∧ t.prot = s.prot) ∧
  (∀ (s : State) (c : Nat) (x : Ctx), AtHand s c (isAction 0xCD 4) x → s.pair.mode = false → Does (.setHeartbeatMs c) s fun t => EndedWith t
    c x Cpl.seqError ∧ t.pair = s.pair ∧ t.names = s.names ∧ t.prot = s.prot) ∧
  (∀ (s : State) (c : Nat) (x : Ctx), AtHand s c (isAction 0xCD 4) x → s.pair.mode = true → bits x.entry.cdw10 31 8 = 0 → bits x.entry.cdw12
    31 13 = 0 → x.entry.cdw13 = 0 → x.entry.cdw14 = 0 → x.entry.cdw15 = 0 → 5000 < bits x.entry.cdw12 12 0 → Does (.setHeartbeatMs c) s fun
    t => EndedWith t c x (Cpl.invalid 12 0) ∧ t.pair = s.pair ∧ t.names = s.names ∧ t.prot = s.prot) ∧
  (∀ (s : State) (c : Nat) (x : Ctx), AtHand s c (isAction 0xCD 1) x → s.pair.mode = true → bits x.entry.cdw10 31 8 = 0 → bits x.entry.cdw12
    31 13 = 0 → x.entry.cdw13 = 0 → x.entry.cdw14 = 0 → x.entry.cdw15 = 0 → s.pair.st = .paired → s.pair.handing = none → x.entry.cdw11 = 0
    → Does (.handOverPorts c) s fun t => EndedWith t c x Cpl.ok ∧ t.pair = s.pair ∧ t.names = s.names ∧ t.prot = s.prot) ∧
  (∀ (s : State) (c : Nat) (x : Ctx), AtHand s c (isAction 0xCD 3) x → s.pair.mode = true → bits x.entry.cdw10 31 8 = 0 → bits x.entry.cdw12
    31 13 = 0 → x.entry.cdw13 = 0 → x.entry.cdw14 = 0 → x.entry.cdw15 = 0 → s.pair.st ≠ .stoodDown → s.pair.st ≠ .released → Does (.rejoin
    c) s fun t => EndedWith t c x Cpl.seqError ∧ t.pair = s.pair ∧ t.names = s.names ∧ t.prot = s.prot)

/-- What the commands of the members and of Understudy do (spec/09 R329, R344, R346, R355, R357, R361 to R365). MEMBER_FAILED: a member on a
failed port that the peer does not own has failed. UNDERSTUDY_START, after boot complete, by the controller that coordinates, joins a
rebuild that has passed its media-cache rows, starts one at once where a member has failed, and one rebuild_delay after a member became
absent; with no rebuild active it changes nothing after a cancel (log 118) or before a preserved buffer is destaged (log 98).
REBUILD_CHECKPOINT is taken once all stripes of 256 more are committed, and in a pair when the peer acknowledges it. REBUILD_RESUME:
Understudy goes on after a reset, or carries out a cancel that waited. REBUILD_BLOCKED: without an eligible target for the next stripe it is
blocked. MEMBER_RETURNED: a member that is here again, with no command in the device and no peer that mirrors, is a member again. -/
def Obligations.MemberCommands : Prop :=
  (∀ (s : State) (p : PortId), (s.member p).st = .member → s.peerOwns p = false → (s.port p).train = 0xA → Does (.memberFailed p) s fun t =>
    (t.member p).st = .failed ∧ t.prot.events.getLsbD 2 = true ∧ ∀ q, q ≠ p → t.member q = s.member q) ∧
  (∀ (s : State) (o : LongOp), s.rebuild? = some o → o.st = .running → s.names.dumping = false → s.boot.complete = true → s.destageFirst =
    false → s.coordinates = true → 3 ≤ s.prot.rebuildPhase.val → s.mcTodo = [] → s.todo ≠ [] → Does (.understudyStart) s fun t =>
    t.prot.rebuildTotal = max s.prot.rebuildTotal (s.prot.rebuildDone + s.todo.length) ∧ t.prot.rebuildPhase = 3 ∧ t.names = s.names ∧ t.nor
    = s.nor) ∧
  (∀ (s : State) (at_ : Nat), s.rebuild? = none → s.failedNow = false → s.absentSince = some at_ → s.names.dumping = false → s.boot.complete
    = true → s.destageFirst = false → s.coordinates = true → s.prot.rebuildHeld = false → s.mcTodo = [] → s.todo ≠ [] → Does
    (.understudyStart) s fun t => t.prot.rebuildPhase = 3 ∧ t.prot.rebuildState = 1 ∧ t.prot.rebuildDone = 0 ∧ t.prot.rebuildTotal =
    s.todo.length ∧ (t.longOps.any fun y => y.handle == t.prot.rebuildHandle && y.kind == 1 && y.st == .running) = true ∧ at_ +
    s.nor.config.rebuildDelay * Config.sec ≤ t.now ∧ t.prot.excs = s.prot.excs) ∧
  (∀ (s : State) (o : LongOp), s.rebuild? = some o → o.byPs3 = false → s.prot.checkAck = none → s.mirrors = false → s.prot.checkpoint + 256
    ≤ s.committedBelow → Does (.rebuildCheckpoint) s fun t => t.prot.checkpoint = s.committedBelow ∧ t.prot.checkAck = none ∧ t.prot.excs =
    s.prot.excs ∧ t.prot.works = s.prot.works ∧ t.names = s.names) ∧
  (∀ (s : State) (o : LongOp), s.rebuild? = some o → s.prot.rebuildPhase = 0 → s.boot.complete = true → o.st ≠ .waiting → o.cancelAsked =
    false → o.suspendAsked = false → s.mcTodo = [] → s.todo ≠ [] → Does (.rebuildResume) s fun t => t.prot.works = s.prot.works ∧
    t.prot.rebuildPhase = 3 ∧ t.prot.rebuildHandle = o.handle ∧ t.prot.rebuildDone = o.done ∧ t.prot.events.getLsbD 3 = true ∧ t.prot.excs =
    s.prot.excs) ∧
  (∀ (s : State) (o : LongOp) (g : Group) (i : Nat), s.rebuild? = some o → o.st = .running → s.nextStripe = some (g, i) → (s.chooseTargets g
    i (s.missingOf g i)).isNone = true → Does (.rebuildBlocked) s fun t => t.prot.rebuildState = 3 ∧ t.prot.events.getLsbD 4 = true ∧
    (t.longOps.any fun y => y.handle == o.handle && y.st == .blocked) = true ∧ t.prot.excs = s.prot.excs) ∧
  (∀ (s : State), s.rebuild? = none → (s.prot.rebuildHeld = true ∨ s.destageFirst = true) → Does (.understudyStart) s fun t => t = s) ∧
  (∀ (s : State) (p : PortId), s.memberHere p = true → s.ctxs = [] → s.power.entering = false → s.mirrors = false → Does (.memberReturned p)
    s fun t => (t.member p).st = .member ∧ (s.actInService (actOf p 0) = true → (t.member p).outAt0 = none) ∧ (s.actInService (actOf p 1) =
    true → (t.member p).outAt1 = none) ∧ t.prot.events.getLsbD 0 = true ∧ t.names.buffer = s.names.buffer ∧ t.prot.excs = s.prot.excs) ∧
  (∀ (s : State) (o : LongOp), s.rebuild? = some o → s.prot.rebuildPhase = 0 → s.boot.complete = true → o.st ≠ .waiting → o.cancelAsked =
    true → (s.prot.works.all fun w => w.kind != .rebuild) = true → Does (.rebuildResume) s fun t => (t.longOps.any fun y => y.handle ==
    o.handle && y.st == .cancelled) = true ∧ t.prot.rebuildHeld = true ∧ t.prot.checkpoint = 0 ∧ t.prot.excs = s.prot.excs) ∧
  (∀ (s : State) (o : LongOp), s.rebuild? = some o → s.prot.checkAck = none → s.mirrors = true → s.prot.checkpoint + 256 ≤ s.committedBelow
    → Does (.rebuildCheckpoint) s fun t => t.prot.checkpoint = s.prot.checkpoint ∧ t.prot.checkAck = some (s.committedBelow, t.pair.msgSeq)
    ∧ t.prot.works = s.prot.works ∧ t.names = s.names) ∧
  (∀ (s : State), s.rebuild? = none → s.failedNow = true → s.prot.rebuildHeld = false → s.names.dumping = false → s.boot.complete = true →
    s.destageFirst = false → s.coordinates = true → s.mcTodo = [] → s.todo ≠ [] → Does (.understudyStart) s fun t => t.prot.rebuildPhase = 3
    ∧ t.prot.rebuildState = 1 ∧ t.prot.rebuildTotal = s.todo.length ∧ (t.longOps.any fun y => y.handle == t.prot.rebuildHandle && y.kind ==
    1 && y.st == .running) = true ∧ t.now = s.now ∧ t.prot.excs = s.prot.excs)

/-- What the commands that work on stripes and bands do (spec/09 R346, R348 to R354, R357, R358, R364; spec/12 R475; spec/08 R299, R309).
SOURCE_RUN_READ: a stripe that may be rebuilt, or whose chunks are only to be resynchronised, comes under work with its targets, and the
next run of a stripe under work, with sources enough and targets that can be written, is added to its runs. STRIPE_COMMIT of all runs, with
two copies of the record and no peer that mirrors, puts each chunk at its new place and ends the work; a stripe of the rebuild counts when
nothing of it is missing any more. REALLOCATION and RETURN_PHASE_COPY put one chunk at its new place, where no calibration break keeps a
sector away. SURFACE_SCAN_STRIP of the next written strip counts and goes on; one whose chunk cannot be moved now is marked for
reallocation; with none left the scan is completed. FULL_HDA_FORMAT_BAND records the defects and counts, a band of a failed head whole; the
last one admits the HDA; a band that may not be written waits. SANITIZE_BAND of a band that may be written counts; the last of them leaves
no user data, and a failed one leaves the sanitize failed. -/
def Obligations.StripeCommands : Prop :=
  (∀ (s : State) (group : Nat) (stripe : Nat) (run : Nat) (g : Group) (w : Work), s.group? group = some g → stripe < g.h → run < 8 →
    g.number = group → s.names.dumping = false → s.destageFirst = false → s.mem.halted.contains 0x02 = false → s.prot.rebuildPhase ≠ 2 →
    s.work? g stripe = some w → w.acks = none → (w.targets.any fun q => s.placeBad q.2) = false → w.runs.length = run → s.worksOn w = true →
    (w.targets.all fun q => s.canPut q.2 (((List.range 32).map (32 * run + ·)).filter fun r => decide (r < s.rowsOf g stripe))) = true → (∀
    r < 256, r / 32 = run → r < s.rowsOf g stripe → g.k ≤ (s.rowSources g stripe r [] false).length) → Does (.sourceRunRead group stripe run
    []) s fun t => t.prot.works = mapWhere (fun y => y.group == group && y.stripe == stripe) (fun y => { y with runs := y.runs ++ [run] })
    s.prot.works ∧ t.prot.excs = s.prot.excs ∧ t.prot.members = s.prot.members ∧ t.names.buffer = s.names.buffer) ∧
  (∀ (s : State) (group : Nat) (stripe : Nat) (run : Nat) (g : Group) (l : List (Nat × Place)), s.group? group = some g → stripe < g.h → run
    < 8 → g.number = group → s.names.dumping = false → s.destageFirst = false → s.mem.halted.contains 0x02 = false → s.stripeIdle g stripe =
    true → s.resyncs g stripe = false → s.mayRebuild g stripe = true → s.chooseTargets g stripe (s.missingOf g stripe) = some l → l ≠ [] →
    Does (.sourceRunRead group stripe run []) s fun t => (t.prot.works.any fun w => w.group == group && w.stripe == stripe && w.targets ==
    l) = true ∧ t.prot.works.length = s.prot.works.length + 1 ∧ t.prot.excs = s.prot.excs) ∧
  (∀ (s : State) (group : Nat) (stripe : Nat) (copies : Nat) (g : Group) (w : Work) (j : Nat) (pl : Place), s.group? group = some g → stripe
    < g.h → s.names.dumping = false → s.destageFirst = false → s.writeDue pl = false → s.prot.rebuildPhase ≠ 2 → s.work? g stripe = some w →
    2 ≤ copies → ceilDiv (s.rowsOf g stripe) 32 ≤ w.runs.length → w.acks = none → w.group = group → w.stripe = stripe → g.number = group →
    w.targets = [(j, pl)] → s.placeBad pl = false → w.kind = .resync → s.rebuild? = none → s.ctxs = [] → s.power.entering = false →
    s.mirrors = false → Does (.stripeCommit group stripe copies) s fun t => t.placeOf g stripe j = pl ∧ t.prot.works = s.prot.works.filter
    (fun y => y != w) ∧ t.prot.touched = s.prot.touched.filter (fun q => q != (g.number, stripe, j)) ∧ t.names.buffer = s.names.buffer) ∧
  (∀ (s : State) (group : Nat) (stripe : Nat) (copies : Nat) (g : Group) (w : Work) (o : LongOp), s.group? group = some g → stripe < g.h →
    s.names.dumping = false → s.destageFirst = false → (w.targets.any fun q => s.writeDue q.2) = false → (∀ q ∈ w.targets, s.placeMissing
    q.2 = false) → (∀ j ∈ s.missingOf g stripe, ∃ q ∈ w.targets, q.1 = j) → s.prot.rebuildPhase = 3 → s.work? g stripe = some w → 2 ≤ copies
    → ceilDiv (s.rowsOf g stripe) 32 ≤ w.runs.length → w.acks = none → (w.targets.any fun q => s.placeBad q.2) = false → w.group = group →
    w.stripe = stripe → g.number = group → w.kind = .rebuild → s.rebuild? = some o → o.st = .running → o.cancelAsked = false →
    o.suspendAsked = false → s.ctxs = [] → s.power.entering = false → s.mirrors = false → Does (.stripeCommit group stripe copies) s fun t
    => t.prot.rebuildDone = s.prot.rebuildDone + 1 ∧ t.prot.works = s.prot.works.filter (fun y => y != w)) ∧
  (∀ (s : State) (group : Nat) (stripe : Nat) (chunk : Nat) (g : Group) (pl : Place), s.group? group = some g → g.number = group → stripe <
    g.h → chunk < g.width → s.names.dumping = false → s.destageFirst = false → s.reallocDue g stripe chunk = true → s.chunkMissing g stripe
    chunk = false → s.reallocTarget g stripe chunk = some pl → s.work? g stripe = none → ((List.range (64 * s.rowsOf g stripe)).any
    (s.breakWaits g stripe chunk)) = false → s.canPut pl (List.range (s.rowsOf g stripe)) = true → s.ctxs = [] → s.power.entering = false →
    s.mirrors = false → Does (.reallocation group stripe chunk) s fun t => t.placeOf g stripe chunk = pl ∧ t.prot.reallocations = min
    0xFFFFFFFF (s.prot.reallocations + 1) ∧ t.prot.events.getLsbD 8 = true ∧ t.names.buffer = s.names.buffer) ∧
  (∀ (s : State) (group : Nat) (stripe : Nat) (chunk : Nat) (g : Group) (o : LongOp), s.group? group = some g → g.number = group →
    s.rebuild? = some o → s.prot.rebuildPhase = 4 → o.st = .running → (s.away.any fun e => e.group == group && e.stripe == stripe && e.chunk
    == chunk) = true → s.destageFirst = false → s.names.dumping = false → o.cancelAsked = false → o.suspendAsked = false → s.work? g stripe
    = none → ((List.range (64 * s.rowsOf g stripe)).any (s.breakWaits g stripe chunk)) = false → s.canPut (.pool (g.home stripe chunk).1
    (g.home stripe chunk).2) (List.range (s.rowsOf g stripe)) = true → s.ctxs = [] → s.power.entering = false → s.mirrors = false → Does
    (.returnPhaseCopy group stripe chunk) s fun t => t.placeOf g stripe chunk = .pool (g.home stripe chunk).1 (g.home stripe chunk).2 ∧
    (t.prot.excs.all fun e => !(e.group == group && e.stripe == stripe && e.chunk == chunk)) = true ∧ t.names.buffer = s.names.buffer) ∧
  (∀ (s : State) (p : PortId) (slot : Nat) (strip : Nat) (o : LongOp) (q : PortId × Nat × Group × Nat × Nat) (rest : List ((PortId × Nat ×
    Group × Nat × Nat) × Nat)), ((s.running 3).find? fun o => o.p0.getLsbD p.val) = some o → ((s.scanStrips o.p0).filter fun q => decide
    (o.from_ ≤ scanKey q.1 q.2)) = (q, strip) :: rest → q.1 = p → q.2.1 = slot → rest ≠ [] → s.destageFirst = false → s.names.dumping =
    false → o.cancelAsked = false → o.suspendAsked = false → Does (.surfaceScanStrip p slot strip false) s fun t => (t.longOps.any fun y =>
    y.handle == o.handle && y.st == .running && y.done == o.done + 1 && y.from_ == scanKey q strip + 1) = true ∧ t.prot = s.prot ∧ t.names =
    s.names) ∧
  (∀ (s : State) (p : PortId) (slot : Nat) (strip : Nat) (o : LongOp), ((s.running 3).find? fun o => o.p0.getLsbD p.val) = some o →
    ((s.scanStrips o.p0).filter fun q => decide (o.from_ ≤ scanKey q.1 q.2)) = [] → Does (.surfaceScanStrip p slot strip false) s fun t =>
    (t.longOps.any fun y => y.handle == o.handle && y.st == .completed) = true ∧ t.prot = s.prot) ∧
  (∀ (s : State) (p : PortId) (d0 : List Nat) (d1 : List Nat) (o : LongOp), ((s.running 4).find? fun o => o.formatPort == p) = some o →
    o.cursor + 1 < s.rawBands p 0 + s.rawBands p 1 → s.destageFirst = false → s.names.dumping = false → s.formatsBand p o.cursor = true →
    s.deadHalf p o.cursor = none → o.cancelAsked = false → o.suspendAsked = false → Does (.fullHdaFormatBand p d0 d1) s fun t =>
    (t.longOps.any fun y => y.handle == o.handle && y.cursor == o.cursor + 1 && y.done == o.cursor + 1 && y.st == .running) = true ∧
    (s.slipList p o.cursor d0 ≠ [] → (t.member p).slips.contains (2 * o.cursor, s.slipList p o.cursor d0) = true) ∧ (s.slipList p o.cursor
    d1 ≠ [] → (t.member p).slips.contains (2 * o.cursor + 1, s.slipList p o.cursor d1) = true) ∧ t.names = s.names) ∧
  (∀ (s : State) (p : PortId) (d0 : List Nat) (d1 : List Nat) (o : LongOp), ((s.running 4).find? fun o => o.formatPort == p) = some o →
    s.rawBands p 0 + s.rawBands p 1 ≤ o.cursor + 1 → s.destageFirst = false → s.names.dumping = false → s.formatsBand p o.cursor = true →
    o.replaced = p → s.prot.groups = [] → Does (.fullHdaFormatBand p d0 d1) s fun t => (t.longOps.any fun y => y.handle == o.handle && y.st
    == .completed) = true ∧ (t.member p).st = .member ∧ (t.member p).serial = (s.port p).serial ∧ t.names = s.names) ∧
  (∀ (s : State) (o : LongOp), (s.running 2).head? = some o → s.names.dumping = false → s.sanitizesBand o.done = true → o.done + 1 <
    s.allBands → o.cancelAsked = false → o.suspendAsked = false → Does (.sanitizeBand true) s fun t => (t.longOps.any fun y => y.handle ==
    o.handle && y.done == o.done + 1 && y.st == .running) = true ∧ t.names = s.names ∧ t.prot = s.prot) ∧
  (∀ (s : State) (o : LongOp), (s.running 2).head? = some o → s.names.dumping = false → s.sanitizesBand o.done = true → s.allBands ≤ o.done
    + 1 → s.ctxs = [] → s.power.entering = false → s.mirrors = false → Does (.sanitizeBand true) s fun t => (t.longOps.any fun y => y.handle
    == o.handle && y.st == .completed) = true ∧ t.names.sanitizing = false ∧ t.names.buffer = [] ∧ t.names.map = [] ∧ t.names.zones = [] ∧
    t.prot.sectors = [] ∧ t.prot.mcRows = []) ∧
  (∀ (s : State) (o : LongOp), (s.running 2).head? = some o → s.names.dumping = false → s.sanitizesBand o.done = true → Does (.sanitizeBand
    false) s fun t => (t.longOps.any fun y => y.handle == o.handle && y.st == .failed) = true ∧ t.names.sanitizing = false ∧
    t.names.sanitizeFailed = true ∧ t.names.buffer = s.names.buffer ∧ t.prot = s.prot) ∧
  (∀ (s : State) (group : Nat) (stripe : Nat) (run : Nat) (g : Group) (l : List (Nat × Place)), s.group? group = some g → stripe < g.h → run
    < 8 → g.number = group → s.names.dumping = false → s.destageFirst = false → s.mem.halted.contains 0x02 = false → s.prot.rebuildPhase ≠ 2
    → s.stripeIdle g stripe = true → s.resyncs g stripe = true → s.stripeLost g stripe = false → s.chooseTargets g stripe (s.touchedOf g
    stripe) = some l → l ≠ [] → Does (.sourceRunRead group stripe run []) s fun t => (t.prot.works.any fun w => w.group == group && w.stripe
    == stripe && w.targets == l && w.kind == .resync) = true ∧ t.prot.works.length = s.prot.works.length + 1 ∧ t.prot.excs = s.prot.excs) ∧
  (∀ (s : State) (p : PortId) (slot : Nat) (strip : Nat) (o : LongOp) (q : PortId × Nat × Group × Nat × Nat) (rest : List ((PortId × Nat ×
    Group × Nat × Nat) × Nat)), ((s.running 3).find? fun o => o.p0.getLsbD p.val) = some o → ((s.scanStrips o.p0).filter fun q => decide
    (o.from_ ≤ scanKey q.1 q.2)) = (q, strip) :: rest → q.1 = p → q.2.1 = slot → s.destageFirst = false → s.names.dumping = false → (s.work?
    q.2.2.1 q.2.2.2.1).isSome = true → Does (.surfaceScanStrip p slot strip true) s fun t => t.prot.marked.contains (s.placeOf q.2.2.1
    q.2.2.2.1 q.2.2.2.2) = true ∧ t.prot.excs = s.prot.excs ∧ t.names = s.names) ∧
  (∀ (s : State) (p : PortId) (d0 : List Nat) (d1 : List Nat) (o : LongOp) (l : List Nat), ((s.running 4).find? fun o => o.formatPort == p)
    = some o → o.cursor + 1 < s.rawBands p 0 + s.rawBands p 1 → s.destageFirst = false → s.names.dumping = false → s.deadHalf p o.cursor =
    some l → l ≠ [] → Does (.fullHdaFormatBand p d0 d1) s fun t => (t.member p).slips.contains (2 * o.cursor, l) = true ∧ (t.member
    p).slips.contains (2 * o.cursor + 1, l) = true ∧ t.names = s.names) ∧
  (∀ (s : State) (p : PortId) (d0 : List Nat) (d1 : List Nat) (o : LongOp), ((s.running 4).find? fun o => o.formatPort == p) = some o →
    s.formatsBand p o.cursor = false → Does (.fullHdaFormatBand p d0 d1) s fun t => t = s)

/-- What the recorder's commands do (spec/17 R600 to R604, R608, R609, R613, R615 to R617, R732). EVENT_RECORD, once the recorder takes
events: one identical to the open record folds into it; with no record open a different one of one payload becomes the newest record with
the next number, at the uptime of that moment; where 200 new records stand in the 1 ms it is dropped and counted. RECORD_CLOSE closes the
open record after its 1 s, and DROP_WINDOW_END, with no record open, reports the drops of a window. STORE_PROGRAM: the oldest closed record
is programmed; one that fails goes to the next sector. STORE_ERASE discards the records of a sector, CLEAR_REMOVAL those at or below
clear_to. RECORDER_READ returns whole records, oldest first, from a number on or the newest ones; a count of 0 is an invalid field.
RECORDER_CLEAR is refused with the number of the first check that its token fails, else moves REC_CLEAR. HELD_EVENTS_WRITE at step 11 starts
the recording, the boot record newest. -/
def Obligations.RecorderCommands : Prop :=
  (∀ (s : State) (i : Nat) (e : Event) (r : Record) (l : List Record), s.book.ready = true → s.book.inbox[i]? = some e → s.book.ring = r ::
    l → s.book.isOpen = true → s.book.inChain = false → s.now < s.book.openAt + Config.sec → r.same e = true → Does (.eventRecord i) s fun t
    => t.book.ring = r.fold { e with uptime := s.uptime } :: l ∧ t.book.nextSeq = s.book.nextSeq ∧ t.book.inbox = dropAt i s.book.inbox ∧
    (r.repeats < 65535 → (t.book.ring.head?.map fun y => (y.seq, y.repeats, y.lastDelta)) = some (r.seq, r.repeats + 1, s.uptime -
    r.uptime)) ∧ (65535 ≤ r.repeats → (t.book.ring.head?.map fun y => (y.seq, y.repeats, y.flags.getLsbD 0)) = some (r.seq, r.repeats,
    true)) ∧ t.nor = s.nor ∧ t.names = s.names ∧ t.ports = s.ports) ∧
  (∀ (s : State) (i : Nat) (e : Event), s.book.ready = true → s.book.inbox[i]? = some e → s.book.isOpen = false → e.payload.length = 1 →
    s.newInMs.length < 200 → Does (.eventRecord i) s fun t => (t.book.ring.head?.map fun y => (y.seq, y.cls, y.code, y.source)) = some
    (s.book.nextSeq, e.cls, e.code, e.source) ∧ (t.book.ring.head?.map fun y => (y.boot, y.uptime, y.repeats, y.valid)) = some (e.boot,
    s.uptime, 0, true) ∧ t.book.ring.drop 1 = s.book.ring.take 16383 ∧ t.book.nextSeq = s.book.nextSeq + 1 ∧ t.book.isOpen = true ∧
    t.book.openAt = s.now ∧ t.book.newAt = s.now :: s.newInMs ∧ t.book.drops = s.book.drops ∧ t.names = s.names ∧ t.ports = s.ports) ∧
  (∀ (s : State) (i : Nat) (e : Event), s.book.ready = true → s.book.inbox[i]? = some e → s.book.isOpen = false → e.payload.length = 1 →
    s.newInMs.length = 200 → Does (.eventRecord i) s fun t => t.book.ring = s.book.ring ∧ t.book.nextSeq = s.book.nextSeq ∧ t.book.drops =
    sat32 s.book.drops 1 ∧ t.book.winDrops = s.book.winDrops + 1 ∧ (s.book.winDrops = 0 → t.book.winEnd = s.newInMs.getLastD s.now +
    Config.ms) ∧ t.names = s.names ∧ t.ports = s.ports) ∧
  (∀ (s : State), s.book.isOpen = true → Does (.recordClose) s fun t => t.book.isOpen = false ∧ t.book.ring = s.book.ring ∧ s.book.openAt +
    Config.sec ≤ t.now ∧ t.names = s.names ∧ t.ports = s.ports) ∧
  (∀ (s : State), 0 < s.book.winDrops → s.book.isOpen = false → s.book.winDrops < 2 ^ 32 → s.book.winFirst < 2 ^ 48 → Does (.dropWindowEnd)
    s fun t => (t.book.ring.head?.map fun y => (y.cls, y.code, y.payload)) = some (1, 0x8003, BitVec.ofNat 256 (s.book.winDrops + 2 ^ 32 *
    s.book.winFirst)) ∧ t.book.winDrops = 0 ∧ t.book.drops = s.book.drops ∧ s.book.winEnd ≤ t.now ∧ t.names = s.names ∧ t.ports = s.ports) ∧
  (∀ (s : State) (r : Record) (l : List Record), s.pendingRecords = r :: l → s.book.ready = true → 0 < s.nor.prompt.erased →
    s.book.lostCount = 0 → Does (.storeProgram true) s fun t => (t.nor.prompt.cells.head?.map fun y => (y.sector, y.place, y.record.seq,
    y.record.repeats)) = some (s.nor.prompt.sector, s.nor.prompt.place, r.seq, r.repeats) ∧ t.book.norSeq = r.seq ∧ t.book.ring =
    s.book.ring ∧ t.nor.config = s.nor.config ∧ t.names = s.names ∧ t.ports = s.ports) ∧
  (∀ (s : State) (r : Record) (l : List Record), s.pendingRecords = r :: l → s.book.ready = true → 0 < s.nor.prompt.erased → Does
    (.storeProgram false) s fun t => t.nor.prompt.cells = s.nor.prompt.cells ∧ t.nor.prompt.sector = nextSector (if
    s.book.failedOnce.contains s.nor.prompt.sector then s.nor.prompt.sector :: s.book.passed else s.book.passed) 4096 s.nor.prompt.sector ∧
    t.nor.prompt.place = 0 ∧ (s.book.failedOnce.contains s.nor.prompt.sector = true → t.book.norFault = true) ∧ t.book.ring = s.book.ring ∧
    t.names = s.names ∧ t.ports = s.ports) ∧
  (∀ (s : State), s.nor.prompt.erased + 1 < 4096 → Does (.storeErase) s fun t => t.nor.prompt.erased = s.nor.prompt.erased + 1 ∧
    t.nor.prompt.cells = s.nor.prompt.cells.filter (fun q => q.sector != (s.nor.prompt.sector + s.nor.prompt.erased + 1) % 4096) ∧ t.book =
    s.book ∧ t.nor.config = s.nor.config ∧ t.names = s.names ∧ t.ports = s.ports) ∧
  (∀ (s : State), s.book.erasePending = true → Does (.clearRemoval) s fun t => t.book.erasePending = false ∧ (∀ q ∈ t.nor.prompt.cells,
    q.record.seq ≤ s.book.clearTo → q.record.valid = false) ∧ (∀ q ∈ s.nor.prompt.cells, s.book.clearTo < q.record.seq → q ∈
    t.nor.prompt.cells) ∧ t.book.ring = s.book.ring ∧ t.nor.config = s.nor.config ∧ t.names = s.names ∧ t.ports = s.ports) ∧
  (∀ (s : State) (c : Nat) (x : Ctx), AtHand s c (isAdminOp 0xC8) x → bits x.entry.cdw10 7 0 = 0 → bits x.entry.cdw10 31 9 = 0 → bits
    x.entry.cdw13 31 16 = 0 → x.entry.cdw14 = 0 → x.entry.cdw15 = 0 → 0 < bits x.entry.cdw13 15 0 → bits x.entry.cdw13 15 0 ≤ 16384 → Does
    (.recorderRead c) s fun t => EndedWith t c x
    { Cpl.data ((((if bits x.entry.cdw10 8 8 = 0 then s.readableRing else s.readableStore).filter fun r => decide (x.entry.cdw11.toNat + 2 ^
       32 * x.entry.cdw12.toNat ≤ r.seq)).take (bits x.entry.cdw13 15 0)).flatMap Record.bytes) with dw0 := BitVec.ofNat 32 (((if bits
       x.entry.cdw10 8 8 = 0 then s.readableRing else s.readableStore).filter fun r => decide (x.entry.cdw11.toNat + 2 ^ 32 *
       x.entry.cdw12.toNat ≤ r.seq)).take (bits x.entry.cdw13 15 0)).length } ∧ t.book = s.book ∧ t.names = s.names ∧ t.ports = s.ports) ∧
  (∀ (s : State) (c : Nat) (x : Ctx), AtHand s c (isAdminOp 0xC8) x → bits x.entry.cdw10 7 0 = 1 → bits x.entry.cdw10 31 9 = 0 → bits
    x.entry.cdw13 31 16 = 0 → x.entry.cdw14 = 0 → x.entry.cdw15 = 0 → 0 < bits x.entry.cdw13 15 0 → bits x.entry.cdw13 15 0 ≤ 16384 → Does
    (.recorderRead c) s fun t => EndedWith t c x
    { Cpl.data (((if bits x.entry.cdw10 8 8 = 0 then s.readableRing else s.readableStore).drop ((if bits x.entry.cdw10 8 8 = 0 then
       s.readableRing else s.readableStore).length - bits x.entry.cdw13 15 0)).flatMap Record.bytes) with dw0 := BitVec.ofNat 32 ((if bits
       x.entry.cdw10 8 8 = 0 then s.readableRing else s.readableStore).drop ((if bits x.entry.cdw10 8 8 = 0 then s.readableRing else
       s.readableStore).length - bits x.entry.cdw13 15 0)).length } ∧ t.book = s.book ∧ t.names = s.names ∧ t.ports = s.ports) ∧
  (∀ (s : State) (c : Nat) (x : Ctx), AtHand s c (isAdminOp 0xC8) x → bits x.entry.cdw10 7 0 ≤ 1 → bits x.entry.cdw10 31 9 = 0 → bits
    x.entry.cdw13 15 0 = 0 → Does (.recorderRead c) s fun t => EndedWith t c x (Cpl.invalid 13 0) ∧ t.book = s.book ∧ t.names = s.names ∧
    t.ports = s.ports) ∧
  (∀ (s : State) (c : Nat) (x : Ctx), AtHand s c (isAdminOp 0xC9) x → bits x.entry.cdw10 31 16 = 0 → x.entry.cdw11 = 0 → x.entry.cdw12 = 0 →
    x.entry.cdw13 = 0 → x.entry.cdw14 = 0 → x.entry.cdw15 = 0 → Does (.recorderClear c) s fun t => (s.checkToken (x.entry.data.take (bits
    x.entry.cdw10 15 0)) (bits x.entry.cdw10 15 0) = 0 → EndedWith t c x Cpl.ok ∧ t.book.clearTo = field x.entry.data 32 8 ∧
    t.book.erasePending = true ∧ ∀ r ∈ t.book.ring, r.seq ≤ t.book.clearTo → r.valid = false) ∧ (s.checkToken (x.entry.data.take (bits
    x.entry.cdw10 15 0)) (bits x.entry.cdw10 15 0) ≠ 0 → EndedWith t c x (Cpl.errVal 0x0 0x0C (BitVec.ofNat 32 (s.checkToken
    (x.entry.data.take (bits x.entry.cdw10 15 0)) (bits x.entry.cdw10 15 0)))) ∧ t.book = s.book) ∧ t.names = s.names ∧ t.ports = s.ports) ∧
  (∀ (s : State), s.boot.complete = true → s.book.ready = false → Does (.heldEventsWrite) s fun t => t.book.ready = true ∧
    (t.book.ring.head?.map fun y => (y.cls, y.code)) = some (1, 0x8001) ∧ t.book.held = [] ∧ t.book.found = [] ∧ t.aon.held = [] ∧
    t.book.norSeq = s.nor.prompt.newest ∧ t.aon.afterPowerOn = false ∧ t.names = s.names ∧ t.ports = s.ports)

/-- The recorder writes at most 200 new records in any 1 ms; folded events do not count; beyond the limit events are dropped and counted in
REC_DROPS; when the 1 ms ends, one record of code 0x8003 gives the count (spec/17 R604). The records counted are those of the last 1 ms, and
the 1 ms of a drop ends when the oldest of them is 1 ms old (the model's reading, log 73). -/
def Obligations.RecorderLimit : Prop :=
  (∀ (s : State) (i : Nat) (e : Event), s.book.ready = true → s.book.inbox[i]? = some e → s.book.isOpen = false → s.newInMs.length +
    e.payload.length ≤ 200 → Does (.eventRecord i) s fun t => t.book.newAt = e.payload.map (fun _ => s.now) ++ s.newInMs ∧ t.book.drops =
    s.book.drops ∧ t.book.winDrops = s.book.winDrops) ∧
  (∀ (s : State) (i : Nat) (e : Event) (r : Record) (l : List Record), s.book.ready = true → s.book.inbox[i]? = some e → s.book.ring = r ::
    l → s.book.isOpen = true → s.book.inChain = false → s.now < s.book.openAt + Config.sec → r.same e = true → Does (.eventRecord i) s fun t
    => t.book.newAt = s.book.newAt ∧ t.book.drops = s.book.drops ∧ t.book.winDrops = s.book.winDrops ∧ t.book.ring = r.fold
    { e with uptime := s.uptime } :: l) ∧
  (∀ (s : State) (i : Nat) (e : Event), s.book.ready = true → s.book.inbox[i]? = some e → s.book.isOpen = false → 200 < s.newInMs.length +
    e.payload.length → Does (.eventRecord i) s fun t => t.book.ring = s.book.ring ∧ t.book.nextSeq = s.book.nextSeq ∧ t.book.drops = sat32
    s.book.drops 1 ∧ t.book.winDrops = s.book.winDrops + 1 ∧ (s.book.winDrops = 0 → t.book.winEnd = s.newInMs.getLastD s.now + Config.ms)) ∧
  (∀ (s : State), 0 < s.book.winDrops → s.book.isOpen = false → s.book.winDrops < 2 ^ 32 → s.book.winFirst < 2 ^ 48 → Does (.dropWindowEnd)
    s fun t => (t.book.ring.head?.map fun y => (y.cls, y.code, y.payload)) = some (1, 0x8003, BitVec.ofNat 256 (s.book.winDrops + 2 ^ 32 *
    s.book.winFirst)) ∧ t.book.ring.drop 1 = s.book.ring.take 16383 ∧ t.book.winDrops = 0 ∧ t.now = max s.now s.book.winEnd)

/-- What the sequencer commands do (spec/06 R215, R219, R220, R230, R238, R241; spec/07 R260, R275, R276). MICROWORD_EXECUTE of a nano-word
without actions or waits leads to its next address, sequential, or by a call with the return address on the stack; a call on eight entries
is fault 0x03, a parity error fault 0x05. DESCRIPTOR_QUEUED: unless its port is being handed over, an operation joins its queue in the class
of what it is made for. OPERATION_TIMEOUT: an operation that is not back in time is fault 0x07: halted, with its code and the event.
SEQUENCER_FAULT_REINIT: a halted sequencer in service starts again at 0x0000 on the newest bank, where no match redirects it. BANK_SWITCH of
a halted or idle sequencer that waits for it selects the newest bank, and the last one ends the switch. GATE_ERROR counts, raises its events
and loses the gate's sectors, or for reason 2 is fault 0x06. ENCODER_READY when the buffer is full. STAGING_ERROR in the staged data of a
write ends the operation and is counted with its address. -/
def Obligations.SequencerCommands : Prop :=
  (∀ (s : State) (a : ActId) (w : W32), (s.seq a).st = .running → (s.patch.bankOf (s.seq a).bank).micro? (s.seq a).addr.toNat = some w →
    (s.patch.bankOf (s.seq a).bank).nano? (microNano w) = .inr 0 → microNext w = 0 → (s.seq a).acted = false → ((s.seq a).addr ≠ 0 ∨ (s.seq
    a).switchPending = false) → ((s.patch.bankOf (s.seq a).bank).micro? ((s.patch.bankOf (s.seq a).bank).redirect ((s.seq a).addr.toNat +
    1))).isSome = true → (s.patch.bankOf (s.seq a).bank).redirect ((s.seq a).addr.toNat + 1) ≠ 0 → Does (.microwordExecute a false) s fun t
    => (t.seq a).addr = BitVec.ofNat 15 ((s.patch.bankOf (s.seq a).bank).redirect ((s.seq a).addr.toNat + 1)) ∧ (t.seq a).stack = (s.seq
    a).stack ∧ (t.seq a).st = .running ∧ (s.seq a).wordAt + microCycle w + 1 ≤ t.now) ∧
  (∀ (s : State) (a : ActId) (w : W32), (s.seq a).st = .running → (s.patch.bankOf (s.seq a).bank).micro? (s.seq a).addr.toNat = some w →
    (s.patch.bankOf (s.seq a).bank).nano? (microNano w) = .inr 0 → microNext w = 2 → (s.seq a).acted = false → ((s.seq a).addr ≠ 0 ∨ (s.seq
    a).switchPending = false) → (s.seq a).stack.length < 8 → (s.patch.bankOf (s.seq a).bank).redirect (microTarget w) = microTarget w →
    ((s.patch.bankOf (s.seq a).bank).micro? (microTarget w)).isSome = true → microTarget w ≠ 0 → Does (.microwordExecute a false) s fun t =>
    (t.seq a).addr = BitVec.ofNat 15 (microTarget w) ∧ (t.seq a).stack = BitVec.ofNat 15 ((s.seq a).addr.toNat + 1) :: (s.seq a).stack ∧
    (t.seq a).st = .running) ∧
  (∀ (s : State) (a : ActId) (w : W32), (s.seq a).st = .running → (s.patch.bankOf (s.seq a).bank).micro? (s.seq a).addr.toNat = some w →
    (s.patch.bankOf (s.seq a).bank).nano? (microNano w) = .inr 0 → microNext w = 2 → (s.seq a).acted = false → ((s.seq a).addr ≠ 0 ∨ (s.seq
    a).switchPending = false) → (s.seq a).stack.length = 8 → (s.seq a).faultAt = none → Does (.microwordExecute a false) s fun t => (t.seq
    a).st = .halted ∧ (t.seq a).fault = 3 ∧ (t.seq a).stack = (s.seq a).stack ∧ (t.seq a).addr = (s.seq a).addr ∧ (t.seq a).events.getLsbD 0
    = true) ∧
  (∀ (s : State) (a : ActId), (s.seq a).st = .running → (s.seq a).faultAt = none → Does (.microwordExecute a true) s fun t => (t.seq a).st =
    .halted ∧ (t.seq a).fault = 5 ∧ (t.seq a).op = none) ∧
  (∀ (s : State) (a : ActId) (why : ReadFor) (d : Descriptor), s.handsOver (portOf a) = false → Does (.descriptorQueued a ⟨why, d⟩) s fun t =>
    (t.seq a).queue = (s.seq a).queue ++ [{ d with cls := s.readClass why d, reread := 0 }] ∧ (t.seq a).op = (s.seq a).op ∧ t.ports =
    s.ports ∧ ∀ b, b ≠ a → t.seq b = s.seq b) ∧
  (∀ (s : State) (a : ActId) (d : Descriptor), (s.seq a).st = .running → (s.seq a).op = some d → (s.seq a).faultAt = none → Does
    (.operationTimeout a) s fun t => (t.seq a).st = .halted ∧ (t.seq a).fault = 7 ∧ (t.seq a).op = none ∧ (t.seq a).events.getLsbD 0 = true
    ∧ (s.seq a).opAt + ((s.seq a).retryMax + 2) * (s.spin (portOf a)).periodNs.toNat ≤ t.now) ∧
  (∀ (s : State) (a : ActId), (s.seq a).st = .halted → (s.seq a).outOfService = false → (s.patch.bankOf s.patch.newest).redirect 0 = 0 →
    Does (.sequencerFaultReinit a) s fun t => (t.seq a).st = .idle ∧ (t.seq a).fault = 0 ∧ (t.seq a).stack = [] ∧ (t.seq a).addr = 0 ∧
    (t.seq a).bank = s.patch.newest) ∧
  (∀ (s : State) (a : ActId), (s.seq a).st = .halted → (s.seq a).switchPending = true → 2 ≤ s.patch.remaining → Does (.bankSwitch a) s fun t
    => (t.seq a).bank = s.patch.newest ∧ (t.seq a).switchPending = false ∧ t.patch.remaining = s.patch.remaining - 1 ∧ t.patch.switching =
    s.patch.switching) ∧
  (∀ (s : State) (a : ActId), (s.seq a).addr = 0 → (s.seq a).op = none → (s.seq a).gates = [] → (s.seq a).switchPending = true →
    s.patch.remaining = 1 → Does (.bankSwitch a) s fun t => (t.seq a).bank = s.patch.newest ∧ t.patch.switching = false ∧ t.patch.remaining
    = 0 ∧ ∀ b, (t.seq b).events.getLsbD 5 = true) ∧
  (∀ (s : State) (p : PortId) (k : Packet), Received s p 0xE3 k → field k.payload 0 1 = 0 → field k.payload 1 1 = 2 → field k.payload 2 1 =
    3 → Does (.gateError p) s fun t => (t.port p).gateErr = sat32 (s.port p).gateErr 1 ∧ (t.port p).events.getLsbD 1 = true ∧ (t.seq (actOf
    p 0)).gateErrors = satAdd 255 (s.seq (actOf p 0)).gateErrors 1 ∧ (t.seq (actOf p 0)).events.getLsbD 2 = true ∧ (t.pool (actOf p
    0)).underruns = satAdd 255 (s.pool (actOf p 0)).underruns 1 ∧ ∀ g ∈ (t.seq (actOf p 0)).gates, (g.write && time32 g.openTime == field
    k.payload 4 4) = false) ∧
  (∀ (s : State) (p : PortId) (k : Packet), Received s p 0xE3 k → field k.payload 0 1 = 1 → field k.payload 1 1 = 1 → field k.payload 2 1 =
    2 → (s.seq (actOf p 1)).faultAt = none → Does (.gateError p) s fun t => (t.seq (actOf p 1)).st = .halted ∧ (t.seq (actOf p 1)).fault =
    6) ∧
  (∀ (s : State) (a : ActId), (s.pool a).enc = 1 → s.encoderFull a = true → Does (.encoderReady a) s fun t => (t.pool a).encReady = true ∧
    (t.pool a).enc = 1 ∧ t.seqs = s.seqs ∧ ∀ b, b ≠ a → t.pool b = s.pool b) ∧
  (∀ (s : State) (a : ActId) (addr : Nat), (s.pool a).enc = 1 → sramWithin .staging addr = true → (s.patch.bankOf (s.seq a).bank).redirect 0
    = 0 → Does (.stagingError ⟨a, addr⟩) s fun t => (t.pool a).enc = 2 ∧ (t.pool a).stagingErrors = satAdd 255 (s.pool a).stagingErrors 1 ∧
    (t.seq a).op = none ∧ (t.seq a).addr = 0 ∧ t.mem.sramUe = sat32 s.mem.sramUe 1 ∧ t.mem.errAddr = BitVec.ofNat 38 addr)

/-- What the packets of the service port do (spec/19 R668, R669, R671, R678 to R682, Tables 19-8 to 19-10; spec/02 R75; spec/14 R532), where
a request is served only while no other is. WINDOW_READ of one running register is answered with its word, WINDOW_WRITE of one writes it; a
busy port, a window that lacks firmware and a bad length get their status. CONFIG_READ answers a parameter, CONFIG_WRITE writes one that is
in range, and only it (pair_id and pair_mode apart); each is refused for an unknown or bad one. DEVICE_RESET of a running device is answered
and resets it. BUFFER_WRITE puts data into the buffer, RECOVERY_WRITE, while the boot ROM waits, into the recovery image; data out of range
is refused. RECOVERY_RUN: the image runs only when R571 accepts it, else its result is told. ADMIN makes a command context of a command that
is allowed. COMP_FW of a port at its activation limit is result 1, of one that is not trained or not owned is refused; forced, with both
sides unloaded and idle, it takes the port out and begins the write. FW_WRITE_RESPONSE with status 0 leads to the next packet, and after the
last to FW_ACTIVATE; another status ends in result 2. FW_ACTIVATE_RESPONSE leads to the measurement; one of status 0x03 ends the port's
obedience (spec/03 R729). COMP_FW_ABANDON after 40 s ends in result 3. -/
def Obligations.ServicePacketCommands : Prop :=
  (∀ (s : State) (tag : Byte) (off : Nat) (n : Nat), s.svcUp = true → s.svc.busy = none → s.fwRuns = true → n % 4 = 0 → 4 ≤ n → n ≤ 1024 →
    off % 4 = 0 → (s.xing.hung.any fun h => h.who == .service) = false → ((covered off n).any fun o => (s.stopped o).isSome) = false →
    s.xing.captured = [] → n = 4 → Does (.windowRead tag off n) s fun t => t.out = .reply 0x01 tag 0 (leBytes 4 (s.wake.regWord (regAt
    off)).toNat) :: s.out ∧ t.svc.busy = none ∧ t.names = s.names) ∧
  (∀ (s : State) (tag : Byte) (off : Nat) (n : Nat), s.svcUp = true → s.svc.busy.isSome = true → Does (.windowRead tag off n) s fun t =>
    t.out = .reply 0x01 tag 3 [] :: s.out ∧ t.svc = s.svc ∧ t.names = s.names ∧ t.ports = s.ports) ∧
  (∀ (s : State) (tag : Byte) (off : Nat) (n : Nat), s.svcUp = true → s.svc.busy = none → s.windowUp off n = false → Does (.windowRead tag
    off n) s fun t => t.out = .reply 0x01 tag 4 [] :: s.out ∧ t.svc = s.svc ∧ t.names = s.names ∧ t.ports = s.ports) ∧
  (∀ (s : State) (tag : Byte) (off : Nat) (n : Nat), s.svcUp = true → s.svc.busy = none → s.fwRuns = true → (n = 0 ∨ 1024 < n ∨ n % 4 ≠ 0) →
    Does (.windowRead tag off n) s fun t => t.out = .reply 0x01 tag 2 [] :: s.out ∧ t.svc = s.svc ∧ t.names = s.names ∧ t.ports = s.ports) ∧
  (∀ (s : State) (tag : Byte) (off : Nat) (v : W32), s.svcUp = true → s.svc.busy = none → s.fwRuns = true → off % 4 = 0 → (s.xing.hung.any
    fun h => h.who == .service) = false → (s.stopped off).isSome = false → Does (.windowWrite tag off v) s fun t => t.out = .reply 0x02 tag 0 []
    :: s.out ∧ t.svc.busy = none ∧ (regAt off = .therm 4 → t.therm.events = w1c s.therm.events v) ∧ (∀ p, (t.port p).smpCorr = (s.port
    p).smpCorr) ∧ t.names = s.names) ∧
  (∀ (s : State) (tag : Byte) (id : Byte) (v : Nat), s.svcUp = true → s.svc.busy = none → s.nor.config.get id.toNat = some v → Does
    (.configRead tag id) s fun t => t.out = .reply 0x03 tag 0 (leBytes 8 v) :: s.out ∧ t.nor = s.nor ∧ t.names = s.names ∧ t.ports = s.ports) ∧
  (∀ (s : State) (tag : Byte) (id : Byte), s.svcUp = true → s.svc.busy = none → s.nor.config.get id.toNat = none → Does (.configRead tag id)
    s fun t => t.out = .reply 0x03 tag 2 [] :: s.out ∧ t.nor = s.nor ∧ t.names = s.names ∧ t.ports = s.ports) ∧
  (∀ (s : State) (tag : Byte) (id : Byte) (v : W64), s.svcUp = true → s.svc.busy = none → s.configOk id.toNat v.toNat = true → id.toNat ≠ 2
    → id.toNat ≠ 3 → Does (.configWrite tag id v) s fun t => t.out = .reply 0x04 tag 0 [] :: s.out ∧ t.nor.config.get id.toNat = some v.toNat ∧
    (∀ i, i ≠ id.toNat → t.nor.config.get i = s.nor.config.get i) ∧ t.names = s.names ∧ t.ports = s.ports) ∧
  (∀ (s : State) (tag : Byte) (id : Byte) (v : W64), s.svcUp = true → s.svc.busy = none → s.configOk id.toNat v.toNat = false → Does
    (.configWrite tag id v) s fun t => t.out = .reply 0x04 tag 2 [] :: s.out ∧ t.nor = s.nor ∧ t.names = s.names ∧ t.ports = s.ports) ∧
  (∀ (s : State) (tag : Byte), s.aon.hold = .running → s.boot.released = true → s.names.dumping = false → (s.boot.cold = false ∨
    s.aon.dramState ≠ 3) → Does (.deviceReset tag) s fun t => (.reply 0x05 tag 0 []) ∈ t.out ∧ t.aon.hold = (if s.pins.hostaEn || s.pins.hostbEn
    then .running else .warm) ∧ t.boot.released = false ∧ t.aon.cause.getLsbD 4 = true) ∧
  (∀ (s : State) (tag : Byte) (off : Nat) (data : List Byte), s.svcUp = true → s.svc.busy = none → s.fwRuns = true → 1 ≤ data.length →
    data.length ≤ 4092 → off + data.length ≤ downloadSize → Does (.bufferWrite tag off data) s fun t => t.out = .reply 0x06 tag 0 [] :: s.out ∧
    t.svc.buffer = bufWrite s.svc.buffer off data ∧ t.svc.recovery = s.svc.recovery ∧ t.names = s.names ∧ t.ports = s.ports) ∧
  (∀ (s : State) (tag : Byte) (off : Nat) (data : List Byte), s.svcUp = true → s.svc.busy = none → s.fwRuns = true → (data = [] ∨ 4092 <
    data.length ∨ downloadSize < off + data.length) → Does (.bufferWrite tag off data) s fun t => t.out = .reply 0x06 tag 2 [] :: s.out ∧ t.svc =
    s.svc ∧ t.names = s.names ∧ t.ports = s.ports) ∧
  (∀ (s : State) (tag : Byte) (off : Nat) (data : List Byte), s.svcUp = true → s.svc.busy = none → s.romWaits = true → 1 ≤ data.length →
    data.length ≤ 4092 → off + data.length ≤ downloadSize → Does (.recoveryWrite tag off data) s fun t => t.out = .reply 0x07 tag 0 [] :: s.out ∧
    t.svc.recovery = bufWrite s.svc.recovery off data ∧ t.svc.buffer = s.svc.buffer ∧ t.names = s.names ∧ t.ports = s.ports) ∧
  (∀ (s : State) (tag : Byte) (n : Nat), s.svcUp = true → s.svc.busy = none → s.romWaits = true → n ≤ downloadSize → Does (.recoveryRun tag
    n) s fun t => (imageCheck s.readKeys.ident.manifest (bufRead s.svc.recovery 0 n) = 0 → (.reply 0x08 tag 0 [0]) ∈ t.out ∧ t.aon.recovery =
    true ∧ t.aon.error = 0 ∧ t.boot.imageOk = true ∧ t.boot.recoveryWait = false) ∧ (imageCheck s.readKeys.ident.manifest (bufRead
    s.svc.recovery 0 n) ≠ 0 → t.out = .reply 0x08 tag 0 (leBytes 1 (imageCheck s.readKeys.ident.manifest (bufRead s.svc.recovery 0 n))) :: s.out
    ∧ t.aon = s.aon ∧ t.boot = s.readKeys.boot)) ∧
  (∀ (s : State) (tag : Byte) (e : SqEntry), s.svcUp = true → s.svc.busy = none → s.fwRuns = true → adminAllowed e = true → Does (.admin tag
    e) s fun t => t.svc.busy = some tag ∧ t.ctxs = s.ctxs ++ [Ctx.fresh s.nextCtx s.now (.service tag) 0 { e with data := s.adminData e }
    .none] ∧ t.nextCtx = s.nextCtx + 1 ∧ t.out = s.out ∧ t.names = s.names ∧ t.ports = s.ports) ∧
  (∀ (s : State) (tag : Byte) (e : SqEntry), s.svcUp = true → s.svc.busy = none → s.fwRuns = true → adminAllowed e = false → Does (.admin
    tag e) s fun t => t.out = .reply 0x10 tag 2 [] :: s.out ∧ t.ctxs = s.ctxs ∧ t.svc = s.svc ∧ t.names = s.names ∧ t.ports = s.ports) ∧
  (∀ (s : State) (tag : Byte) (p : PortId) (ret : Bool) (force : Bool) (n : Nat) (d : Digest), s.svcUp = true → s.svc.busy = none → s.fwRuns
    = true → s.owns p = true → (s.port p).train = 9 → (s.port p).obeyed = true → 1 ≤ n → n ≤ downloadSize → force = false → s.atLimit p =
    true → Does (.compFw tag p ret force n d) s fun t => t.svc.comp = none ∧ t.svc.busy = none ∧ t.port p = s.port p ∧ ∃ l, (.reply 0x20 tag 0 (1
    :: l)) ∈ t.out) ∧
  (∀ (s : State) (tag : Byte) (p : PortId) (ret : Bool) (n : Nat) (d : Digest), s.svcUp = true → s.svc.busy = none → s.fwRuns = true →
    s.owns p = true → (s.port p).train = 9 → (s.port p).obeyed = true → 1 ≤ n → n ≤ downloadSize → ((fins 2).any fun y => (s.act (actOf p
    y)).loaded || (s.act (actOf p y)).loading || (s.seq (actOf p y)).op.isSome || (s.acal (actOf p y)).brk.isSome || (s.seq (actOf p
    y)).queue != []) = false → s.ctxs = [] → s.pair.mode = false → s.power.leaving = false → Does (.compFw tag p ret true n d) s fun t =>
    t.svc.busy = some tag ∧ (t.svc.comp.map fun q => (q.port, q.tag, q.phase, q.digest)) = some (p, tag, 1, d) ∧ (t.port p).removed = true ∧
    (t.port p).inService = false ∧ ((s.spin p).ovLatched = false → (t.spin p).st = .stopped) ∧ (t.spin p).ovLatched = (s.spin p).ovLatched) ∧
  (∀ (s : State) (tag : Byte) (p : PortId) (ret : Bool) (force : Bool) (n : Nat) (d : Digest), s.svcUp = true → s.svc.busy = none → s.fwRuns
    = true → (s.owns p = false ∨ (s.port p).train ≠ 9) → Does (.compFw tag p ret force n d) s fun t => t.out = .reply 0x20 tag 4 [] :: s.out ∧
    t.svc = s.svc ∧ t.names = s.names ∧ t.ports = s.ports) ∧
  (∀ (s : State) (p : PortId) (r : Request) (k : Packet) (q : CompFw), Answered s p 0x40 r k → s.svc.comp = some q → q.port = p → q.phase =
    1 → k.status = 0 → q.length ≤ q.offset → (s.port p).requests = [r] → (s.port p).cmdUp = true → Does (.fwWriteResponse p) s fun t =>
    (t.svc.comp.map fun y => (y.phase, y.port, y.digest)) = some (2, p, q.digest) ∧ ((t.port p).requests.any fun y => y.packet.opcode ==
    0x41 && y.packet.payload == digestBytes q.digest) = true ∧ t.names = s.names) ∧
  (∀ (s : State) (p : PortId) (r : Request) (k : Packet) (q : CompFw), Answered s p 0x40 r k → s.svc.comp = some q → q.port = p → q.phase =
    1 → k.status ≠ 0 → q.ret = false → s.ctxs = [] → s.pair.mode = false → s.power.leaving = false → Does (.fwWriteResponse p) s fun t =>
    t.svc.comp = none ∧ t.svc.busy = none ∧ ∃ l, (.reply 0x20 q.tag 0 (2 :: l)) ∈ t.out) ∧
  (∀ (s : State) (p : PortId) (r : Request) (k : Packet) (q : CompFw), Answered s p 0x41 r k → k.status ≠ 3 → s.svc.comp = some q → q.port =
    p → q.phase = 2 → (s.port p).requests = [r] → (s.port p).cmdUp = true → Does (.fwActivateResponse p) s fun t => (t.svc.comp.map fun y =>
    (y.phase, y.port)) = some (3, p) ∧ ((t.port p).requests.any fun y => y.packet.opcode == 3) = true ∧ t.names = s.names) ∧
  (∀ (s : State) (p : PortId) (r : Request) (k : Packet), Answered s p 0x41 r k → k.status = 3 → (s.port p).obeyed = true → Does
    (.fwActivateResponse p) s fun t => (t.port p).obeyed = false ∧ (t.port p).events.getLsbD 2 = true ∧ t.names = s.names) ∧
  (∀ (s : State) (q : CompFw) (n : Nat), s.svc.comp = some q → q.unloadAt = some n → q.phase ≠ 3 → q.ret = false → s.ctxs = [] → s.pair.mode
    = false → s.power.leaving = false → Does (.compFwAbandon) s fun t => t.svc.comp = none ∧ t.svc.busy = none ∧ n + 40 * Config.sec ≤ t.now
    ∧ ∃ l, (.reply 0x20 q.tag 0 (3 :: l)) ∈ t.out) ∧
  (∀ (s : State) (p : PortId) (r : Request) (k : Packet) (q : CompFw), Answered s p 0x40 r k → s.svc.comp = some q → q.port = p → q.phase =
    1 → k.status = 0 → q.offset < q.length → q.length ≤ q.offset + 220 → (s.port p).requests = [r] → (s.port p).cmdUp = true → Does
    (.fwWriteResponse p) s fun t => (t.svc.comp.map fun y => (y.phase, y.port, y.offset)) = some (1, p, q.length) ∧ ((t.port p).requests.any
    fun y => y.packet.opcode == 0x40 && y.packet.payload == s.fwChunk q.offset q.length) = true ∧ t.names = s.names)

/-- What the MCTP control commands, NVMe-MI basic management and the bus timeout do (spec/19 R676, R677; spec/21 R723); the layouts are the
model's choice (log 65). An endpoint ID is set and told, but not the null or the broadcast one. The UUID is that of the subsystem. The
message types are 0x00 and 0x7E. Code 0 answers the status, code 8 the identification, in every state in which the always-on domain is
powered, at the address of R675 and with the code of the exchange. A clock held low for 35 ms releases the bus, and one held for less than
25 ms does not. -/
def Obligations.ServiceControlCommands : Prop :=
  (∀ (s : State), s.svcUp = true → Does (.nvmeMiBasicManagement 0) s fun t => (∃ l, t.out = .basic s.basicAddress l (pecOf ([2 *
    s.basicAddress.setWidth 8, 0, 2 * s.basicAddress.setWidth 8 + 1] ++ l)) :: s.out ∧ l.length = 7 ∧ l.getD 2 0 = BitVec.ofNat 8 (255 -
    (s.criticalWarning .a ||| s.criticalWarning .b) % 256) ∧ l.getD 3 0 = BitVec.ofNat 8 (basicTemp s.composite)) ∧ t.svc = s.svc ∧ t.names
    = s.names ∧ t.ports = s.ports) ∧
  (∀ (s : State), s.svcUp = true → Does (.nvmeMiBasicManagement 8) s fun t => (∃ l, t.out = .basic s.basicAddress l (pecOf ([2 *
    s.basicAddress.setWidth 8, 8, 2 * s.basicAddress.setWidth 8 + 1] ++ l)) :: s.out ∧ l.length = 23 ∧ l.take 3 = [22, BitVec.ofNat 8
    (Config.vendorId.toNat / 256), BitVec.ofNat 8 (Config.vendorId.toNat % 256)]) ∧ t.svc = s.svc ∧ t.names = s.names ∧ t.ports = s.ports) ∧
  (∀ (s : State) (n : Byte), s.svcUp = true → n ≠ 0 → n ≠ 0xFF → Does (.setEndpointId n) s fun t => t.svc = { s.svc with eid := n } ∧ t.out
    = .mctp s.mctpAddress [0, 0, n, 0] :: s.out ∧ t.names = s.names ∧ t.ports = s.ports) ∧
  (∀ (s : State) (n : Byte), s.svcUp = true → (n = 0 ∨ n = 0xFF) → Does (.setEndpointId n) s fun t => t.out = .mctp s.mctpAddress [2] ::
    s.out ∧ t.svc = s.svc ∧ t.names = s.names ∧ t.ports = s.ports) ∧
  (∀ (s : State), s.svcUp = true → Does (.getEndpointId) s fun t => t.out = .mctp s.mctpAddress [0, s.svc.eid, 0, 0] :: s.out ∧ t.svc =
    s.svc ∧ t.names = s.names ∧ t.ports = s.ports) ∧
  (∀ (s : State), s.svcUp = true → Does (.getEndpointUuid) s fun t => t.out = .mctp s.mctpAddress (0 :: subsystemUuid s.nor.config.pairId)
    :: s.out ∧ t.svc = s.svc ∧ t.names = s.names ∧ t.ports = s.ports) ∧
  (∀ (s : State), s.svcUp = true → Does (.getMctpVersionSupport) s fun t => t.out = .mctp s.mctpAddress (0 :: (leBytes 1
    (Config.mctpVersions.length / 4) ++ Config.mctpVersions)) :: s.out ∧ t.svc = s.svc ∧ t.names = s.names ∧ t.ports = s.ports) ∧
  (∀ (s : State), s.svcUp = true → Does (.getMessageTypeSupport) s fun t => t.out = .mctp s.mctpAddress [0, 2, 0x00, 0x7E] :: s.out ∧ t.svc
    = s.svc ∧ t.names = s.names ∧ t.ports = s.ports) ∧
  (∀ (s : State), s.svcUp = true → Does (.getVendorDefinedMessageSupport) s fun t => t.out = .mctp s.mctpAddress ([0, 0xFF, 0x00] ++
    packBytes [(1, Config.vendorId.toNat / 256), (1, Config.vendorId.toNat % 256), (2, 0)]) :: s.out ∧ t.svc = s.svc ∧ t.names = s.names ∧
    t.ports = s.ports) ∧
  (∀ (s : State) (n : Nat), s.svcUp = true → 35 ≤ n → Does (.smbusClockLowTimeout n) s fun t => t.svc =
    { s.svc with smbReleased := s.svc.smbReleased + 1 } ∧ t.out = s.out ∧ t.names = s.names ∧ t.ports = s.ports) ∧
  (∀ (s : State) (n : Nat), s.svcUp = true → n < 25 → Does (.smbusClockLowTimeout n) s fun t => t = s)

/-- What the commands of the power states do (spec/01 R38 to R43, Table 1-8; spec/11 R445), with no command in the device at an entry.
PS3_ENTRY with nothing dirty is complete at once: the spindles are commanded down and the levels they had are kept; with dirty data it waits
for the destage. PS3_SAMPLE_LANE_OFF: in PS3 a trained port whose rotor rests and whose sides are unloaded goes to training state 0xC,
without a port reset. PS3_EXIT brings the levels and the governing state back and trains such ports again from state 2; an entry under way
is given up. DRAM_SELF_REFRESH_ENTRY after 1 ms without work, DRAM_SELF_REFRESH_EXIT when work comes. POWER_STATE_CHANGE outside PS3: the
state in force is the governing one. -/
def Obligations.PowerCommands : Prop :=
  (∀ (s : State), s.boot.complete = true → s.govPs = 3 → s.power.entering = false → s.power.inPs3 = false → 0 < s.dirtyBytes → s.ctxs = [] →
    Does (.ps3Entry) s fun t => t.power.entering = true ∧ t.power.inPs3 = false ∧ t.power.leaving = false ∧ t.spins = s.spins) ∧
  (∀ (s : State), s.boot.complete = true → s.govPs = 3 → s.power.entering = false → s.power.inPs3 = false → s.dirtyBytes = 0 → s.ctxs = [] →
    s.names.buffer = [] → Does (.ps3Entry) s fun t => t.power.inPs3 = true ∧ t.power.entering = false ∧ t.power.current = 3 ∧ ∀ p : PortId,
    (t.spin p).levelCmd = 0 ∧ (t.spin p).levelPs3 = (s.spin p).levelCmd) ∧
  (∀ (s : State) (p : PortId), s.power.inPs3 = true → (s.port p).train = 9 → (s.spin p).st = .stopped → (s.spin p).turning = false → ((fins
    2).all fun y => !(s.act (actOf p y)).loaded) = true → Does (.ps3SampleLaneOff p) s fun t => (t.port p).train = 0xC ∧ (t.port p).joint =
    true ∧ (t.port p).inService = false ∧ (t.port p).events = (s.port p).events ∧ (t.port p).resets = (s.port p).resets ∧ (∀ q, q ≠ p →
    t.port q = s.port q) ∧ t.names = s.names ∧ t.xing = s.xing) ∧
  (∀ (s : State), s.govPs ≠ 3 → s.power.inPs3 = true → Does (.ps3Exit) s fun t => t.power.inPs3 = false ∧ t.power.leaving = true ∧
    t.power.current = s.govPs ∧ t.mem.selfRefresh = false ∧ (∀ p : PortId, (t.spin p).levelCmd = (s.spin p).levelPs3) ∧ (∀ p : PortId,
    (s.port p).train = 0xC → s.pins.prsnt.getLsbD p.val = true → (t.port p).train = 2) ∧ t.names = s.names) ∧
  (∀ (s : State), s.govPs ≠ 3 → s.power.inPs3 = false → s.power.entering = true → Does (.ps3Exit) s fun t => t.power.entering = false ∧
    t.power.inPs3 = false ∧ t.spins = s.spins ∧ t.ports = s.ports ∧ t.names = s.names) ∧
  (∀ (s : State), s.power.inPs3 = true → s.mem.selfRefresh = false → s.dramIdle = true → Does (.dramSelfRefreshEntry) s fun t =>
    t.mem.selfRefresh = true ∧ max s.mem.workAt s.svc.endedAt + Config.ms ≤ t.now ∧ t.power = s.power ∧ t.names = s.names) ∧
  (∀ (s : State), s.power.inPs3 = true → s.mem.selfRefresh = true → Does (.dramSelfRefreshExit) s fun t => t.mem.selfRefresh = false ∧
    t.mem.workAt = s.now ∧ t.power = s.power ∧ t.names = s.names) ∧
  (∀ (s : State), s.govPs ≠ 3 → s.power.inPs3 = false → Does (.powerStateChange) s fun t => t.power = { s.power with current := s.govPs } ∧
    t.spins = s.spins ∧ t.ports = s.ports ∧ t.names = s.names)

/-- What the servo commands do (spec/05 R187 to R201, R207, R730, Table 5-3; spec/03 R93, R97, R98; spec/14 R528). COMPENSATOR_EVALUATION of
the sample heard first: in track following both compensators take their section's next state by R188 to R190, the MA's input the PES; the
first sample after a load leads to seek. NEW_TARGET waits for the next evaluation. SEEK_TIMEOUT and SETTLE_TIMEOUT set their event and seek
again; the third on one target unloads. ACT_PARK_RESPONSE with status 0 parks or loads the side; a load refused with status 1 takes it out
of service, one with status 3 ends the port's obedience. ACT_PARK_RETRY sends a busy one again after 1 ms. SERVO_RELOAD: firmware reloads
once after servo loss, where the side may be loaded. LINE_BLOCK_RECEIVED on a running sample lane with no evaluation overdue: a packet block
brings its packets; one that cannot be corrected is counted; one that meets a full FIFO is discarded whole, a sequence error. -/
def Obligations.ServoCommands : Prop :=
  (∀ (s : State) (a : ActId) (tb : ServoTable) (fm : FormatTable) (w : Wedge), (s.pcal (portOf a)).servo = some tb → (s.pcal (portOf
    a)).format = some fm → (s.act a).sample = some w → s.firstWaiting = some a → (s.act a).fresh = true → (s.act a).region = .parked → Does
    (.compensatorEvaluation a) s fun t => (t.act a).region = .seek ∧ (t.act a).fresh = false ∧ (t.act a).sample = none ∧ (t.act a).regionAt
    = s.now) ∧
  (∀ (s : State) (a : ActId) (tb : ServoTable) (fm : FormatTable) (w : Wedge), (s.pcal (portOf a)).servo = some tb → (s.pcal (portOf
    a)).format = some fm → (s.act a).sample = some w → s.firstWaiting = some a → (s.act a).fresh = false → (s.act a).region = .follow →
    (s.act a).newTarget = none → Does (.compensatorEvaluation a) s fun t => (t.act a).ma.y = ((tb.pair (sideOf a) .follow).2.eval (s.act
    a).ma (clamp (-32767) 32767 (errorOf (s.act a).target w.pos))).y ∧ (t.act a).ma.sat = ((tb.pair (sideOf a) .follow).2.eval (s.act a).ma
    (clamp (-32767) 32767 (errorOf (s.act a).target w.pos))).sat ∧ (t.act a).pes = clamp (-32767) 32767 (errorOf (s.act a).target w.pos) ∧
    (t.act a).sample = none ∧ (t.act a).vcm.y = ((tb.pair (sideOf a) .follow).1.eval (s.act a).vcm (sat16 (clamp (-32767) 32767 (errorOf
    (s.act a).target w.pos) + roundHalfUp (tb.maGain * (s.act a).sent.2) (2 ^ 30)))).y) ∧
  (∀ (s : State) (a : ActId) (b : ActId) (w : Wedge), (s.act a).sample = some w → s.firstWaiting = some b → Does (.compensatorEvaluation a)
    s fun t => (t.act b).sample = none) ∧
  (∀ (s : State) (a : ActId) (head : Fin 12) (track : BitVec 20), Does (.newTarget a head track) s fun t => (t.act a).newTarget = some
    (head, s.targetOf a head track.toNat) ∧ (t.act a).region = (s.act a).region ∧ (∀ b, b ≠ a → t.act b = s.act b) ∧ t.ports = s.ports ∧
    t.seqs = s.seqs) ∧
  (∀ (s : State) (a : ActId) (tb : ServoTable), (s.pcal (portOf a)).servo = some tb → (s.act a).region = .seek → (s.act a).timeouts = 0 →
    Does (.seekTimeout a) s fun t => (t.act a).region = .seek ∧ (t.act a).timeouts = 1 ∧ (t.act a).events.getLsbD 3 = true ∧ (t.act
    a).writeAllowed = false ∧ (s.act a).regionAt + (s.profile tb).seekMs * Config.ms ≤ t.now) ∧
  (∀ (s : State) (a : ActId) (tb : ServoTable), (s.pcal (portOf a)).servo = some tb → (s.act a).region = .seek → (s.act a).timeouts = 2 →
    Does (.seekTimeout a) s fun t => (t.act a).region = .parked ∧ (t.act a).reloadSeek = true ∧ (t.act a).timeouts = 0 ∧ (t.act a).newTarget
    = some ((s.act a).newTarget.getD ((s.act a).head, (s.act a).target))) ∧
  (∀ (s : State) (a : ActId) (tb : ServoTable), (s.pcal (portOf a)).servo = some tb → (s.act a).region = .settle → (s.act a).timeouts = 1 →
    Does (.settleTimeout a) s fun t => (t.act a).region = .seek ∧ (t.act a).timeouts = 2 ∧ (t.act a).events.getLsbD 4 = true ∧ (t.act
    a).target = (s.act a).target ∧ (s.act a).regionAt + (s.profile tb).settleMs * Config.ms ≤ t.now) ∧
  (∀ (s : State) (p : PortId) (r : Request) (k : Packet), Answered s p 0x13 r k → field r.packet.payload 0 1 = 0 → field r.packet.payload 1
    1 = 0 → k.status = 0 → Does (.actParkResponse p) s fun t => (t.act (actOf p 0)).loaded = false ∧ (t.act (actOf p 0)).region = .parked) ∧
  (∀ (s : State) (p : PortId) (r : Request) (k : Packet), Answered s p 0x13 r k → field r.packet.payload 0 1 = 0 → field r.packet.payload 1
    1 = 1 → k.status = 0 → (s.act (actOf p 0)).loading = true → Does (.actParkResponse p) s fun t => t.act (actOf p 0) = (s.act (actOf p
    0)).afterLoad ∧ ∀ b, b ≠ actOf p 0 → t.act b = s.act b) ∧
  (∀ (s : State) (p : PortId) (r : Request) (k : Packet), Answered s p 0x13 r k → field r.packet.payload 0 1 = 0 → field r.packet.payload 1
    1 = 1 → k.status = 1 → Does (.actParkResponse p) s fun t => (t.act (actOf p 0)).outOfService = true ∧ (t.act (actOf p 0)).loading =
    false) ∧
  (∀ (s : State) (p : PortId) (sd : Side) (r : Request) (n : Nat), ((s.port p).requests.find? fun q => q.packet.opcode.toNat == 0x13 &&
    q.busyAt.isSome && field q.packet.payload 0 1 == sd.val) = some r → r.busyAt = some n → Does (.actParkRetry p sd) s fun t => n +
    Config.ms ≤ t.now ∧ (t.port p).normal.map Prod.snd = (s.port p).normal.map Prod.snd ++ [r.packet]) ∧
  (∀ (s : State) (a : ActId), (s.act a).reloadLost = true → (s.act a).loaded = false → (s.act a).outOfService = false → s.mayLoad (portOf a)
    = true → Does (.servoReload a) s fun t => (t.act a).loading = true ∧ (t.act a).reloadLost = false ∧ ∀ b, b ≠ a → t.act b = s.act b) ∧
  (∀ (s : State) (p : PortId) (bytes : List Byte) (demod : ServoReading) (raw : List Byte), s.laneLive p = true → s.overdue p = s →
    fecDecode (laneBytes (laneLevels bytes)) = some (raw, 0) → field raw 0 4 ≠ 0xF0000000 → field (scramble (s.port p).scram raw).1 0 4 / 2
    ^ 28 = 3 → Does (.lineBlockReceived p bytes ⟨demod, false⟩) s fun t => (t.port p).rx = (s.port p).rx ++ (parsePackets 64 (((scramble
    (s.port p).scram raw).1.drop 4).take (min 252 (field (scramble (s.port p).scram raw).1 0 4 / 2 ^ 13 % 2 ^ 12)))).1 ∧ (t.port p).scram =
    (scramble (s.port p).scram raw).2 ∧ (t.port p).smpUncorr = (s.port p).smpUncorr ∧ t.acts = s.acts ∧ ∀ q, q ≠ p → t.port q = s.port q) ∧
  (∀ (s : State) (p : PortId) (bytes : List Byte) (demod : ServoReading), s.laneLive p = true → s.overdue p = s → fecDecode (laneBytes
    (laneLevels bytes)) = none → recent s.now Config.sec (s.port p).smpBadAt = [] → recent s.now Config.sec (s.port p).cmdBadAt = [] → Does
    (.lineBlockReceived p bytes ⟨demod, false⟩) s fun t => (t.port p).smpUncorr = sat32 (s.port p).smpUncorr 1 ∧ (t.port p).seqErr = sat32
    (s.port p).seqErr 1 ∧ (t.port p).train = (s.port p).train ∧ t.acts = s.acts) ∧
  (∀ (s : State) (p : PortId) (bytes : List Byte) (demod : ServoReading), s.laneLive p = true → s.overdue p = s → Does (.lineBlockReceived p
    bytes ⟨demod, true⟩) s fun t => (t.port p).seqErr = sat32 (s.port p).seqErr 1 ∧ (t.port p).smpUncorr = (s.port p).smpUncorr ∧ (t.port p).rx
    = (s.port p).rx ∧ (t.port p).train = (s.port p).train ∧ t.acts = s.acts ∧ ∀ q, q ≠ p → t.port q = s.port q) ∧
  (∀ (s : State) (p : PortId) (r : Request) (k : Packet), Answered s p 0x13 r k → field r.packet.payload 0 1 = 0 → field r.packet.payload 1
    1 = 1 → k.status = 3 → (s.port p).obeyed = true → Does (.actParkResponse p) s fun t => (t.port p).obeyed = false ∧ (t.port
    p).events.getLsbD 2 = true)

/-- What the spindle commands do (spec/04 R149 to R155, R161 to R171, Tables 4-1, 4-2). A listen window with fewer than three crossings
leads to the short brake before the saturation test; the short brake leads to the test or to another window; alignment leads to forced
acceleration from step 2; each pair of the test adds its d; a forced step drives the next step of Table 4-1, twice the handover rate without
handover starts again from the short brake; a crossing that ends the driven step, or its absence, leads to the next step; six misses lose
sync; a drive is repeated after 5 ms; an alert above 14.5 V with the chopper faulted latches the overvoltage short brake; a free slot goes
to the lowest waiting port. -/
def Obligations.SpindleCommands : Prop :=
  (∀ (s : State) (p : PortId) (tb : SpinTable) (n : Nat), (s.spin p).table = some tb → (s.spin p).st = .listen → (s.spin p).slotAt = some n
    → (s.spin p).heard < 3 → Does (.listenWindowClose p) s fun t => (t.spin p).st = .brakeToStop ∧ (t.spin p).restBrake = true ∧ (t.spin
    p).drive.mode = 2 ∧ (s.spin p).phaseAt + 100 * Config.ms ≤ t.now) ∧
  (∀ (s : State) (p : PortId) (tb : SpinTable), (s.spin p).table = some tb → (s.spin p).st = .brakeToStop → (s.spin p).restBrake = false →
    Does (.shortBrakeDone p) s fun t => (t.spin p).st = .listen ∧ (t.spin p).zcs = [] ∧ (t.spin p).drive.mode = 0 ∧ (s.spin p).phaseAt +
    tb.stopBrakeMs * Config.ms ≤ t.now) ∧
  (∀ (s : State) (p : PortId) (tb : SpinTable), (s.spin p).table = some tb → (s.spin p).st = .brakeToStop → (s.spin p).restBrake = true →
    Does (.shortBrakeDone p) s fun t => (t.spin p).st = .satTest ∧ (t.spin p).tests = 1 ∧ (t.spin p).sense = [] ∧ (s.spin p).phaseAt + 200 *
    Config.ms ≤ t.now) ∧
  (∀ (s : State) (p : PortId) (tb : SpinTable), (s.spin p).table = some tb → (s.spin p).st = .alignment → Does (.alignmentDone p) s fun t =>
    (t.spin p).st = .forced ∧ (t.spin p).step = some 2 ∧ (t.spin p).output = tb.startDuty ∧ (s.spin p).phaseAt + tb.alignMs * Config.ms ≤
    t.now) ∧
  (∀ (s : State) (p : PortId) (tb : SpinTable) (r : Request) (k : Packet), (s.spin p).table = some tb → Answered s p 0x21 r k → (s.spin
    p).st = .satTest → k.status = 0 → field k.payload 0 2 ≠ 0xFFFF → field k.payload 2 2 ≠ 0xFFFF → (s.spin p).sense.length < 5 → Does
    (.spindleSenseResponse p) s fun t => (t.spin p).sense = (s.spin p).sense ++ [(field k.payload 2 2 : Int) - field k.payload 0 2] ∧
    (t.spin p).st = .satTest) ∧
  (∀ (s : State) (p : PortId) (r : Request) (n : Nat), ((s.port p).requests.find? fun q => q.packet.opcode.toNat == 0x21 && q.busyAt.isSome
    && true) = some r → r.busyAt = some n → Does (.spindleSenseRetry p) s fun t => n + Config.ms ≤ t.now ∧ (t.port p).normal.map Prod.snd =
    (s.port p).normal.map Prod.snd ++ [r.packet]) ∧
  (∀ (s : State) (p : PortId) (tb : SpinTable) (k : Fin 6), (s.spin p).table = some tb → (s.spin p).st = .forced → (s.spin p).step = some k
    → (s.spin p).forcedOk < 6 → rateReached tb ((s.at_ ((s.spin p).forcedAt + forcedEnd tb ((s.spin p).forcedN + 1))).now - (s.spin
    p).forcedAt) (2 * tb.handoverRpm) = false → Does (.forcedStep p) s fun t => (t.spin p).step = some (nextStep k) ∧ (t.spin p).output =
    tb.startDuty ∧ (t.spin p).st = .forced ∧ (s.spin p).forcedAt + forcedEnd tb ((s.spin p).forcedN + 1) ≤ t.now) ∧
  (∀ (s : State) (p : PortId) (tb : SpinTable) (k : Fin 6), (s.spin p).table = some tb → (s.spin p).st = .forced → (s.spin p).step = some k
    → (s.spin p).forcedOk < 6 → rateReached tb (s.now - (s.spin p).forcedAt) (2 * tb.handoverRpm) = true → (s.spin p).forcedFails = 0 → Does
    (.forcedStep p) s fun t => (t.spin p).st = .brakeToStop ∧ (t.spin p).restBrake = true ∧ (t.spin p).forcedFails = 1) ∧
  (∀ (s : State) (p : PortId) (tb : SpinTable) (k : Packet), (s.spin p).table = some tb → Received s p 0xE1 k → (s.spin p).st = .listen →
    (s.spin p).zcs = [] → Does (.spinEvent p) s fun t => (t.spin p).zcs.map Zc.step = [crossingStep (field k.payload 0 1) (field k.payload 1
    1 == 1)] ∧ (t.spin p).turning = true ∧ (t.spin p).st = .listen) ∧
  (∀ (s : State) (p : PortId) (tb : SpinTable) (k : Packet), (s.spin p).table = some tb → Received s p 0xE1 k → (s.spin p).st = .atSpeed →
    (s.spin p).step = some (crossingStep (field k.payload 0 1) (field k.payload 1 1 == 1)) → crossingStep (field k.payload 0 1) (field
    k.payload 1 1 == 1) ≠ 5 → Does (.spinEvent p) s fun t => (t.spin p).step = some (nextStep (crossingStep (field k.payload 0 1) (field
    k.payload 1 1 == 1))) ∧ (t.spin p).missed = 0 ∧ (t.spin p).drive.mode = 1) ∧
  (∀ (s : State) (p : PortId) (tb : SpinTable) (k : Fin 6) (z : Zc) (l : List Zc), (s.spin p).table = some tb → (s.spin p).st = .atSpeed →
    (s.spin p).step = some k → (s.spin p).zcs = z :: l → (s.spin p).te ≠ 0 → (s.spin p).missed < 5 → Does (.missedCrossing p) s fun t =>
    (t.spin p).step = some (nextStep k) ∧ (t.spin p).missed = (s.spin p).missed + 1) ∧
  (∀ (s : State) (p : PortId) (tb : SpinTable) (k : Fin 6) (z : Zc) (l : List Zc) (n : Nat), (s.spin p).table = some tb → (s.spin p).st =
    .closedLoop → (s.spin p).step = some k → (s.spin p).zcs = z :: l → (s.spin p).te ≠ 0 → (s.spin p).missed = 5 → (s.spin p).unloading =
    false → (s.spin p).slotAt = some n → (s.spin p).syncLosses < 2 → Does (.missedCrossing p) s fun t => (t.spin p).st = .listen ∧ (t.spin
    p).syncLosses = (s.spin p).syncLosses + 1 ∧ (t.spin p).events.getLsbD 6 = true ∧ (t.spin p).drive.mode = 0) ∧
  (∀ (s : State) (p : PortId), (s.spin p).drive.mode ≠ 0 → Does (.spindleDriveRepeat p) s fun t => (t.spin p).drive =
    { (s.spin p).drive with applyAt := max (s.spin p).drive.applyAt t.ticksNow, sentAt := t.now } ∧ (s.spin p).drive.sentAt + 5 * Config.ms
    ≤ t.now) ∧
  (∀ (s : State) (p : PortId), (s.spin p).st = .outOfReg → Does (.regulationRecoveryTimeout p) s fun t => (t.port p).fail = 0xA ∧ (t.port
    p).train = 0xA ∧ (s.spin p).outAt + 15 * Config.sec ≤ t.now) ∧
  (∀ (s : State) (p : PortId), (s.spin p).st = .regenDown → (s.spin p).ovLatched = false → (s.spin p).unloading = false → (s.spin p).above
    600 = false → Does (.spinDown p) s fun t => (t.spin p).st = .shortStop ∧ (t.spin p).drive.mode = 2 ∧ t.acts = s.acts) ∧
  (∀ (s : State) (p : PortId), (s.spin p).st = .atSpeed → (s.spin p).ovLatched = false → (s.spin p).unloading = false → (s.spin p).levelCmd
    < 48 → Does (.spinDown p) s fun t => (t.port p).inService = false ∧ (t.spin p).slotAt = none) ∧
  (∀ (s : State) (p : PortId) (k : Packet), Received s p 0xE2 k → field k.payload 2 2 % 4 = 3 → (s.spin p).ovLatched = false → (s.port
    p).obeyed = true → Does (.spinAlert p) s fun t => (t.spin p).ovLatched = true ∧ (t.spin p).refused = true ∧ (t.spin p).st = .ovBrake ∧
    (t.spin p).drive.mode = 2 ∧ (t.spin p).slotAt = none ∧ (t.port p).degraded = true) ∧
  (∀ (s : State) (p : PortId), s.starting < s.boot.spinGroup → ((fins 32).find? fun p => s.mayStart p) = some p → Does (.startSlotGrant) s
    fun t => (t.spin p).slotAt = some s.now ∧ (t.spin p).st = .listen ∧ (t.spin p).starts = satAdd 65535 (s.spin p).starts 1 ∧ (t.spin
    p).drive.mode = 0)

/-- What the thermal commands do (spec/15 R541 to R547, R552, R553, R555, R556, R559). SENSOR_CONVERSION keeps the last four readings of a
sensor that is not broken; a count out of the band, or the 200th of one value, breaks it, and it then reads 126 °C; a second reading at 140
°C is hardware shutdown. RATE_RISE_PERSIST of a rise that persists raises the step; GRACE_EXPIRY under a request raises it to at most 2 and
restarts the timer, and without one ends it; STEP_RELEASE after 10 s of release lowers it, and changes nothing while a request, the critical
step or the temperature stands against it. THERMAL_RESTART: after 30 s below 100 °C a shutdown ends, but not one of four broken sensors.
COMPENSATION_TRIM corrects its item, not before its interval is over; the switch of a PLL's band waits for the next reset.
THERMAL_CONTROL_QUERY answers the block; EXCLUDE_SENSOR excludes a broken sensor, at most two; SET_HDA_THRESHOLDS sets thresholds in range,
hda_stop above hda_warn. -/
def Obligations.ThermalCommands : Prop :=
  (∀ (s : State) (i : Fin 16) (n : W32) (v : Int), s.aon.hold = .running → (s.therm.sensors[i]).broken = false → countBad v (if
    (s.therm.sensors[i]).last ≠ [] ∧ n = (s.therm.sensors[i]).count then (s.therm.sensors[i]).same + 1 else 1) = false → Does
    (.sensorConversion i n v) s fun t => (t.therm.sensors[i]).last = (v :: (s.therm.sensors[i]).last).take 4 ∧ (t.therm.sensors[i]).count =
    n ∧ (t.therm.sensors[i]).broken = false ∧ (t.therm.sensors[i]).reading = meanOf ((v :: (s.therm.sensors[i]).last).take 4) ∧ ∀ j, j ≠ i →
    t.therm.sensors[j] = s.therm.sensors[j]) ∧
  (∀ (s : State) (i : Fin 16) (n : W32) (v : Int), s.aon.hold = .running → (s.therm.sensors[i]).broken = false → countBad v (if
    (s.therm.sensors[i]).last ≠ [] ∧ n = (s.therm.sensors[i]).count then (s.therm.sensors[i]).same + 1 else 1) = true → Does
    (.sensorConversion i n v) s fun t => (t.therm.sensors[i]).broken = true ∧ (t.therm.sensors[i]).reading = 2016 ∧ t.therm.events.getLsbD 6
    = true) ∧
  (∀ (s : State) (i : Fin 16) (n : W32) (v : Int) (w : Int), s.aon.hold = .running → (s.therm.sensors[i]).broken = false →
    (s.therm.sensors[i]).excluded = false → s.therm.tripped = false → (s.therm.sensors[i]).last.head? = some w → 2240 ≤ w → 2240 ≤ v →
    countBad v (if (s.therm.sensors[i]).last ≠ [] ∧ n = (s.therm.sensors[i]).count then (s.therm.sensors[i]).same + 1 else 1) = false → Does
    (.sensorConversion i n v) s fun t => t.aon.hold = .shutdown ∧ t.therm.tripped = true ∧ t.therm.shutdownLatched = true ∧
    t.therm.shutdowns = satAdd 65535 s.therm.shutdowns 1 ∧ t.therm.events.getLsbD 7 = true) ∧
  (∀ (s : State) (i : Fin 16) (a : Nat), (s.therm.sensors[i]).raisedAt = some a → 128 < (s.therm.sensors[i]).rise → Does (.rateRisePersist
    i) s fun t => t.therm.step.val = min 3 (s.therm.step.val + 1) ∧ (t.therm.sensors[i]).raisedAt = some t.now ∧ a + Config.sec ≤ t.now ∧
    t.therm.request = s.therm.request) ∧
  (∀ (s : State) (g : Nat), s.therm.graceAt = some g → s.therm.request = true → Does (.graceExpiry) s fun t => t.therm.step.val = max
    s.therm.step.val (min 2 (s.therm.step.val + 1)) ∧ t.therm.graceAt = some (t.now + s.therm.graceS * Config.sec) ∧ g ≤ t.now) ∧
  (∀ (s : State) (g : Nat), s.therm.graceAt = some g → s.therm.request = false → Does (.graceExpiry) s fun t => t.therm.step = s.therm.step
    ∧ t.therm.graceAt = none ∧ t.therm.events = s.therm.events ∧ t.names = s.names ∧ t.ports = s.ports) ∧
  (∀ (s : State) (g : Nat), s.therm.coolSince = some g → s.therm.step ≠ 0 → s.therm.cools = true → Does (.stepRelease) s fun t =>
    t.therm.step.val + 1 = s.therm.step.val ∧ t.therm.coolSince = some t.now ∧ g + 10 * Config.sec ≤ t.now ∧ t.therm.events.getLsbD 5 =
    true) ∧
  (∀ (s : State) (g : Nat), s.therm.below100 = some g → s.aon.hold = .shutdown → s.therm.noRestart = false → s.pins.sysPwrok = true → Does
    (.thermalRestart) s fun t => t.aon.hold = .mainCold ∧ t.therm.tripped = false ∧ g + 30 * Config.sec ≤ t.now ∧ t.therm.shutdownLatched =
    s.therm.shutdownLatched ∧ t.aon.cause = s.aon.cause) ∧
  (∀ (s : State), s.therm.noRestart = true → Does (.thermalRestart) s fun t => t = s) ∧
  (∀ (s : State) (i : TrimItem) (band : Bool), (band = false ∨ isPll i = false) → (s.therm.trims.find? fun q => q.1 == i) = none → Does
    (.compensationTrim ⟨i, band⟩) s fun t => t = s.modTherm (fun m => { m with trims := put i s.now m.trims })) ∧
  (∀ (s : State) (c : Nat) (x : Ctx), AtHand s c (isAction 0xCC 0) x → firstBad (tcReserved x.entry) = none → Does (.thermalControlQuery c)
    s fun t => EndedWith t c x (Cpl.data (s.windowBytes 0x1000 0xC0)) ∧ t.therm = s.therm ∧ t.names = s.names ∧ t.ports = s.ports) ∧
  (∀ (s : State) (c : Nat) (x : Ctx), AtHand s c (isAction 0xCC 1) x → firstBad (tcReserved x.entry) = none → (s.therm.sensors[(Fin.ofNat 16
    (bits x.entry.cdw10 11 8) : Fin 16)]).broken = false → (s.therm.sensors[(Fin.ofNat 16 (bits x.entry.cdw10 11 8) : Fin 16)]).excluded =
    false → Does (.excludeSensor c) s fun t => EndedWith t c x Cpl.seqError ∧ t.therm = s.therm ∧ t.names = s.names ∧ t.ports = s.ports) ∧
  (∀ (s : State) (c : Nat) (x : Ctx), AtHand s c (isAction 0xCC 1) x → firstBad (tcReserved x.entry) = none → (s.therm.sensors[(Fin.ofNat 16
    (bits x.entry.cdw10 11 8) : Fin 16)]).broken = true → (s.therm.sensors.toList.filter fun y => y.excluded).length < 2 → Does
    (.excludeSensor c) s fun t => EndedWith t c x Cpl.ok ∧ (t.therm.sensors[(Fin.ofNat 16 (bits x.entry.cdw10 11 8) : Fin 16)]).excluded =
    true ∧ ∀ j : Fin 16, j.val ≠ bits x.entry.cdw10 11 8 → t.therm.sensors[j] = s.therm.sensors[j]) ∧
  (∀ (s : State) (c : Nat) (x : Ctx), AtHand s c (isAction 0xCC 2) x → firstBad (tcReserved x.entry) = none → 40 ≤ bits x.entry.cdw11 7 0 →
    bits x.entry.cdw11 7 0 ≤ 70 → 45 ≤ bits x.entry.cdw11 15 8 → bits x.entry.cdw11 15 8 ≤ 75 → bits x.entry.cdw11 7 0 < bits x.entry.cdw11
    15 8 → Does (.setHdaThresholds c) s fun t => EndedWith t c x Cpl.ok ∧ t.therm.hdaWarn = bits x.entry.cdw11 7 0 ∧ t.therm.hdaStop = bits
    x.entry.cdw11 15 8 ∧ t.nor.config.hdaWarn = t.therm.hdaWarn ∧ t.nor.config.hdaStop = t.therm.hdaStop ∧ t.therm.step = s.therm.step) ∧
  (∀ (s : State) (c : Nat) (x : Ctx), AtHand s c (isAction 0xCC 2) x → firstBad (tcReserved x.entry) = none → 40 ≤ bits x.entry.cdw11 7 0 →
    bits x.entry.cdw11 7 0 ≤ 70 → bits x.entry.cdw11 15 8 ≤ bits x.entry.cdw11 7 0 → Does (.setHdaThresholds c) s fun t => EndedWith t c x
    (Cpl.invalid 11 8) ∧ t.therm = s.therm ∧ t.names = s.names ∧ t.ports = s.ports) ∧
  (∀ (s : State) (i : TrimItem) (band : Bool) (q : TrimItem × Nat), (band = false ∨ isPll i = false) → (s.therm.trims.find? fun q => q.1 ==
    i) = some q → Does (.compensationTrim ⟨i, band⟩) s fun t => q.2 + trimEvery i ≤ t.now ∧ (t.therm.trims.find? fun q => q.1 == i) = some (i,
    t.now) ∧ t.names = s.names ∧ t.ports = s.ports) ∧
  (∀ (s : State) (i : TrimItem), isPll i = true → Does (.compensationTrim ⟨i, true⟩) s fun t => t.xing.bandDue.contains i = true ∧ t.therm =
    s.therm ∧ t.names = s.names ∧ t.ports = s.ports) ∧
  (∀ (s : State) (c : Nat) (x : Ctx), AtHand s c (isAction 0xCC 1) x → firstBad (tcReserved x.entry) = none → (s.therm.sensors[(Fin.ofNat 16
    (bits x.entry.cdw10 11 8) : Fin 16)]).excluded = false → 2 ≤ (s.therm.sensors.toList.filter fun y => y.excluded).length → Does
    (.excludeSensor c) s fun t => EndedWith t c x Cpl.seqError ∧ t.therm = s.therm ∧ t.names = s.names ∧ t.ports = s.ports) ∧
  (∀ (s : State) (g : Nat), s.therm.coolSince = some g → s.therm.cools = false → Does (.stepRelease) s fun t => t = s)

/-- What the training commands do (spec/03 R124, R132 to R138, R140, R142, Tables 3-12, 3-16, 3-17; spec/02 R52; spec/16 R581, R583).
TRAINING_STATE_PASS ends states 1, 2, 4 and 5, state 4 only after four alignment blocks in place and state 5 by its error check; a port in
reset whose HDA is there trains again after its lane's stop of 2 µs, but not without REFCLK_LINK. TRAINING_STATE_TIMEOUT: a first attempt
that fails in state 3 starts a second, the second ends the training with the fail_reason of its state, and so does state 8.
IDENT_READ_RESPONSE, FENCE_RESPONSE and MEASURE_READ_RESPONSE pass or fail states 6 to 8, the last for a port whose spindle start has not
failed, before the Playbill is sealed; with no epoch left an owned port fails with reason 6 and no FENCE. PERS_READ_RESPONSE: personality
data is read piece by piece, and a failed read leaves the port trained, out of service, with reason 8; PERS_READ_RETRY sends a busy one
again. HOT_ADD before the release sets its event. ADDENDUM: the first addendum due is added. -/
def Obligations.TrainingCommands : Prop :=
  (∀ (s : State) (p : PortId), (s.port p).train = 1 → Does (.trainingStatePass p) s fun t => (t.port p).train = 2 ∧ (t.port p).cmdUp = true
    ∧ (t.port p).txPos = 0 ∧ ∀ q, q ≠ p → t.port q = s.port q) ∧
  (∀ (s : State) (p : PortId), (s.port p).train = 2 → Does (.trainingStatePass p) s fun t => (t.port p).train = 3 ∧ (t.port p).stateAt =
    s.now) ∧
  (∀ (s : State) (p : PortId), (s.port p).train = 4 → 4 ≤ (s.port p).aligned → Does (.trainingStatePass p) s fun t => (t.port p).train = 5 ∧
    (t.port p).blockLock = true) ∧
  (∀ (s : State) (p : PortId), (s.port p).train = 4 → (s.port p).aligned < 4 → Does (.trainingStatePass p) s fun t => t = s) ∧
  (∀ (s : State) (p : PortId), (s.port p).train = 0xB → s.pins.prsnt.getLsbD p.val = true → s.pins.linkPll = true → Does (.trainingStatePass
    p) s fun t => (t.port p).train = 2 ∧ (t.port p).attempt = 1 ∧ (t.port p).fail = 0 ∧ (s.port p).stateAt + 2 * Config.us ≤ t.now) ∧
  (∀ (s : State) (p : PortId), (s.port p).train = 5 → (s.port p).errorCheck = true → Does (.trainingStatePass p) s fun t => (t.port p).train
    = 6) ∧
  (∀ (s : State) (p : PortId), (s.port p).train = 5 → (s.port p).errorCheck = false → (s.port p).attempt = 1 → Does (.trainingStatePass p) s
    fun t => (t.port p).train = 2 ∧ (t.port p).attempt = 2) ∧
  (∀ (s : State) (p : PortId), (s.port p).train = 3 → (s.port p).attempt = 1 → Does (.trainingStateTimeout p) s fun t => (t.port p).train =
    2 ∧ (t.port p).attempt = 2 ∧ (s.port p).stateAt + 60 * Config.ms ≤ t.now) ∧
  (∀ (s : State) (p : PortId), (s.port p).train = 3 → (s.port p).attempt = 2 → Does (.trainingStateTimeout p) s fun t => (t.port p).train =
    0xA ∧ (t.port p).fail = 2 ∧ (t.port p).events.getLsbD 4 = true) ∧
  (∀ (s : State) (p : PortId), (s.port p).train = 8 → Does (.trainingStateTimeout p) s fun t => (t.port p).train = 0xA ∧ (t.port p).fail = 7
    ∧ (t.port p).events.getLsbD 4 = true) ∧
  (∀ (s : State) (p : PortId) (r : Request) (k : Packet), Answered s p 0x02 r k → (s.port p).train = 6 → k.status = 0 → identOk k.payload =
    true → (s.pair.epochOver = false ∨ s.pair.mode = false ∨ s.owns p = false) → Does (.identReadResponse p) s fun t => (t.port p).train = 7
    ∧ (t.port p).companion.ident = k.payload) ∧
  (∀ (s : State) (p : PortId) (r : Request) (k : Packet), Answered s p 0x02 r k → (s.port p).train = 6 → k.status = 0 → identOk k.payload =
    true → s.pair.epochOver = true → s.pair.mode = true → s.owns p = true → Does (.identReadResponse p) s fun t => (t.port p).train = 0xA ∧
    (t.port p).fail = 6 ∧ (t.port p).companion.ident = k.payload) ∧
  (∀ (s : State) (p : PortId) (r : Request) (k : Packet), Answered s p 0x02 r k → (s.port p).train = 6 → identOk k.payload = false → Does
    (.identReadResponse p) s fun t => (t.port p).train = 0xA ∧ (t.port p).fail = 5) ∧
  (∀ (s : State) (p : PortId) (r : Request) (k : Packet), Answered s p 0x01 r k → (s.port p).train = 7 → k.status = 3 → ofLe
    r.packet.payload ≠ 0 → k.payload.length = 8 → Does (.fenceResponse p) s fun t => (t.port p).train = 0xA ∧ (t.port p).fail = 6 ∧ (t.port
    p).events.getLsbD 2 = true) ∧
  (∀ (s : State) (p : PortId) (r : Request) (k : Packet), Answered s p 0x01 r k → (s.port p).train = 7 → k.status = 0 → ofLe
    r.packet.payload ≠ 0 → k.payload.length = 8 → field k.payload 0 8 = (s.port p).own.toNat → (s.port p).own ≠ 0 → Does (.fenceResponse p)
    s fun t => (t.port p).train = 8 ∧ (t.port p).obeyed = true) ∧
  (∀ (s : State) (p : PortId) (r : Request) (k : Packet), Answered s p 0x03 r k → (s.port p).train = 8 → k.status = 0 → k.payload.length =
    72 → s.ident.sealed = false → s.svc.comp = none → (s.port p).startMark = false → Does (.measureReadResponse p) s fun t => (t.port
    p).train = 9 ∧ (t.port p).companion.measure = k.payload ∧ (t.port p).trained = satAdd 255 (s.port p).trained 1) ∧
  (∀ (s : State) (p : PortId) (r : Request) (k : Packet), Answered s p 0x03 r k → (s.port p).train = 8 → k.status ≠ 0 → Does
    (.measureReadResponse p) s fun t => (t.port p).train = 0xA ∧ (t.port p).fail = 7) ∧
  (∀ (s : State) (p : PortId) (r : Request) (k : Packet), Answered s p 0x04 r k → k.status = 0 → k.payload.length = field r.packet.payload 4
    2 → (s.port p).pers.length + k.payload.length < field (s.port p).companion.ident 12 4 → Does (.persReadResponse p) s fun t => (t.port
    p).pers = (s.port p).pers ++ k.payload ∧ (t.port p).train = (s.port p).train) ∧
  (∀ (s : State) (p : PortId) (r : Request) (k : Packet), Answered s p 0x04 r k → k.status ≠ 0 → k.status ≠ 4 → Does (.persReadResponse p) s
    fun t => (t.port p).fail = 8 ∧ (t.port p).persVerified = false ∧ (t.port p).inService = false ∧ (t.port p).train = (if (s.port p).train
    = 0xA then 9 else (s.port p).train)) ∧
  (∀ (s : State) (p : PortId) (r : Request) (n : Nat), ((s.port p).requests.find? fun q => q.packet.opcode.toNat == 0x04 && q.busyAt.isSome
    && true) = some r → r.busyAt = some n → Does (.persReadRetry p) s fun t => n + Config.ms ≤ t.now ∧ (t.port p).normal.map Prod.snd =
    (s.port p).normal.map Prod.snd ++ [r.packet]) ∧
  (∀ (s : State) (p : PortId), s.pins.prsnt.getLsbD p.val = false → s.aon.hold = .running → s.boot.released = false → Does (.hotAdd p) s fun
    t => t.pins.prsnt.getLsbD p.val = true ∧ (t.port p).events.getLsbD 7 = true) ∧
  (∀ (s : State) (d : Due) (rest : List Due), s.ident.due = d :: rest → Does (.addendum true) s fun t => t.ident.due = rest ∧
    t.ident.addenda = s.ident.addenda + 1 ∧ t.ident.added.length = s.ident.added.length + 1) ∧
  (∀ (s : State) (p : PortId), (s.port p).train = 0xB → s.pins.linkPll = false → Does (.trainingStatePass p) s fun t => t = s)

/-- What the events of a port do (spec/02 R82, R86, Table 2-9; spec/03 R115, R144, Tables 3-15, 3-17, 3-19). STATUS of a port in training
state 7 brings the temperature, the supply and the token. HOT_REMOVE of more than 1 µs of a running device that does not enter PS3 leaves
the port absent with hot_remove set, one of 1 µs or less changes nothing. START_SLOT_FREE: a start slot frees when the HDA is in service;
START_SLOT_TIMEOUT after 15 s, when a spindle outside its band has failed to start with fail_reason 0xA. BOOT_COMPLETE, after the last port
has ended and without power failure, sets CSTS.RDY of an enabled function. -/
def Obligations.PortEventCommands : Prop :=
  (∀ (s : State) (p : PortId) (k : Packet), Received s p 0xE0 k → k.payload.length = 24 → field k.payload 4 2 = 0 → (s.spin p).chopper =
    false → (s.spin p).st ≠ .regenDown → (s.port p).train = 7 → Does (.status p) s fun t => (t.port p).hdaTemp = BitVec.ofNat 16 (field
    k.payload 0 2) ∧ (t.port p).supplyMv = BitVec.ofNat 16 (field k.payload 2 2) ∧ (t.port p).token = BitVec.ofNat 64 (field k.payload 16
    8)) ∧
  (∀ (s : State) (p : PortId) (n : Nat), 1000 < n → s.pins.prsnt.getLsbD p.val = true → s.aon.hold = .running → s.power.entering = false →
    Does (.hotRemove p n) s fun t => t.pins.prsnt.getLsbD p.val = false ∧ (t.port p).train = 0 ∧ (t.port p).events.getLsbD 6 = true ∧
    (t.port p).inService = false) ∧
  (∀ (s : State) (p : PortId) (n : Nat), n ≤ 1000 → Does (.hotRemove p n) s fun t => t = s) ∧
  (∀ (s : State) (p : PortId) (n : Nat), (s.spin p).slotAt = some n → (s.port p).inService = true → Does (.startSlotFree p) s fun t =>
    (t.spin p).slotAt = none) ∧
  (∀ (s : State) (p : PortId) (n : Nat), (s.spin p).slotAt = some n → (s.spin p).inReg = true → Does (.startSlotTimeout p) s fun t =>
    (t.spin p).slotAt = none ∧ n + 15 * Config.sec ≤ t.now) ∧
  (∀ (s : State) (p : PortId) (n : Nat), (s.spin p).slotAt = some n → (s.spin p).inReg = false → Does (.startSlotTimeout p) s fun t =>
    (t.port p).fail = 0xA ∧ (t.port p).train = 0xA ∧ n + 15 * Config.sec ≤ t.now) ∧
  (∀ (s : State), s.boot.released = true → s.boot.complete = false → s.allPortsEnded = true → s.fa.cc.getLsbD 0 = true → s.fa.cfs = false →
    s.pins.pwrfail = false → Does (.bootComplete) s fun t => t.boot.complete = true ∧ t.boot.portsEnded = true ∧ t.fa.rdy = true)

/-- What the commands of the link and of the pair do with pair_mode 1 (spec/18 R625, R636, R638 to R640, R644 to R648, R651, R652, R655,
Table 18-1; spec/14 R536, R537; spec/20 R700; spec/03 R729). WINGS_TRAINING comes 1 s after
the attempt before it; one that passes sends a HELLO, one that fails leaves the link down, as does a HELLO later than 10 ms (R638).
WINGS_LINK_RESET of a link that is up keeps what is not answered, and of any clears the stale bit; RETRY_UNANSWERED after 100 µs resets it.
WINGS_BLOCK_RECEIVED in sequence goes on, another asks for a retry, a fourth bad one in 1 s resets the link; over a stale crossing it is
discarded and counted. HELLO of the same side is only kept; it pairs two forming controllers with the default split, and makes one that
forms rejoin a solo peer. HEARTBEAT_SEND sends one each tenth of the time; HEARTBEAT keeps the peer alive, an old one changes nothing.
PEER_NOT_ALIVE: Stage Left contends at once, Stage Right half a period later. FORMING_TIMEOUT: 30 s without a HELLO lead to contending.
CONTEND: a token of the peer above the epoch, or a refusal, makes it stand down; else it is solo, owns every port and withholds writes until
SETTLING_END. FENCED makes a solo controller stand down, and ends the obedience of a port that obeyed. -/
def Obligations.WingsLinkCommands : Prop :=
  (∀ (s : State), s.pair.mode = true → s.boot.released = true → s.pair.wings ≠ 2 → Does (.wingsTraining true) s fun t => t.pair.wings = 1 ∧
    (t.out.head?.any (Out.isWings 1)) = true ∧ s.pair.trainAt.all (fun n => decide (n + Config.sec ≤ t.now)) = true ∧ t.pair.msgSeq =
    s.pair.msgSeq + 1 ∧ t.pair.unanswered = s.pair.unanswered ∧ t.names = s.names) ∧
  (∀ (s : State), s.pair.mode = true → s.boot.released = true → s.pair.wings ≠ 2 → Does (.wingsTraining false) s fun t => t.pair.wings = 0 ∧
    t.out = s.out ∧ s.pair.trainAt.all (fun n => decide (n + Config.sec ≤ t.now)) = true ∧ t.pair.unanswered = s.pair.unanswered ∧ t.names =
    s.names) ∧
  (∀ (s : State) (m : HelloMsg) (n : Nat), s.pair.mode = true → s.pair.wings = 1 → m.pairMode = true → s.pair.trainAt = some n → n + 10 *
    Config.ms < s.now → Does (.hello m) s fun t => t.pair.wings = 0 ∧ t.pair.st = s.pair.st ∧ t.pair.helloDone = s.pair.helloDone ∧ t.out =
    s.out ∧ t.names = s.names) ∧
  (∀ (s : State), s.pair.mode = true → s.pair.wings = 2 → Does (.wingsLinkReset) s fun t => t.pair.wings = 3 ∧ t.pair.resets = satAdd 65535
    s.pair.resets 1 ∧ t.pair.events.getLsbD 0 = true ∧ t.pair.unanswered = s.pair.unanswered ∧ t.xing.staleOther.getLsbD 2 = false ∧
    t.pair.st = s.pair.st ∧ t.names = s.names) ∧
  (∀ (s : State) (n : Nat), s.pair.mode = true → s.pair.wings = 2 → s.pair.retryAt = some n → Does (.retryUnanswered) s fun t =>
    t.pair.wings = 3 ∧ t.pair.retryAt = none ∧ n + 100 * Config.us ≤ t.now ∧ t.pair.unanswered = s.pair.unanswered ∧ t.names = s.names) ∧
  (∀ (s : State) (q : BitVec 13) (l : List Nat), s.pair.mode = true → s.pair.wings = 2 → s.isStale .wings = false → l.all (fun n => decide
    (n ≤ 4)) = true → q = s.pair.rxSeq → Does (.wingsBlockReceived q l false) s fun t => t.pair.rxSeq = q + 1 ∧ t.pair.retryAt = none ∧
    t.pair.corr = (if l.any (fun n => n != 0) then sat32 s.pair.corr 1 else s.pair.corr) ∧ t.out = s.out ∧ t.names = s.names) ∧
  (∀ (s : State) (q : BitVec 13) (l : List Nat), s.pair.mode = true → s.pair.wings = 2 → s.isStale .wings = false → l.all (fun n => decide
    (n ≤ 4)) = true → q ≠ s.pair.rxSeq → Does (.wingsBlockReceived q l false) s fun t => t.pair.rxSeq = s.pair.rxSeq ∧ (t.out.head?.any
    (Out.isWings 0x0A)) = true ∧ t.pair.retryAt.isSome = true ∧ t.pair.wings = 2 ∧ t.names = s.names) ∧
  (∀ (s : State) (q : BitVec 13) (l : List Nat) (b : Bool), s.pair.mode = true → s.pair.wings = 2 → s.isStale .wings = false → l.any (fun n
    => decide (4 < n)) = true → 3 ≤ (recent s.now Config.sec s.pair.uncorrAt).length → Does (.wingsBlockReceived q l b) s fun t =>
    t.pair.wings = 3 ∧ t.pair.uncorr = sat32 s.pair.uncorr 1 ∧ t.pair.resets = satAdd 65535 s.pair.resets 1 ∧ t.pair.unanswered =
    s.pair.unanswered ∧ t.names = s.names) ∧
  (∀ (s : State) (m : HelloMsg), s.pair.mode = true → s.pair.wings = 2 → m.pairMode = true → m.side = s.pair.side → Does (.hello m) s fun t
    => t = s.modPair (fun p => { p with peerSide := some m.side, wings := 2 })) ∧
  (∀ (s : State) (m : HelloMsg), s.pair.mode = true → s.pair.wings = 2 → m.pairMode = true → m.side = !s.pair.side → s.pair.st = .forming →
    m.state = .forming → max s.pair.highest.toNat m.highestEpoch.toNat + 1 < 2 ^ 63 → Does (.hello m) s fun t => t.pair.st = .paired ∧
    t.pair.own = (if s.pair.side then 0xFFFF0000 else 0xFFFF) ∧ t.pair.coordinator = (!s.pair.side) ∧ t.pair.servesOther = false ∧
    t.pair.epoch.toNat = max s.pair.highest.toNat m.highestEpoch.toNat + 1 ∧ t.pair.helloDone = true ∧ t.pair.peerHeartbeatMs =
    m.heartbeatMs ∧ t.names.dirtyLimitMib = min s.names.dirtyLimitMib m.dirtyLimitMib ∧ t.nor.config.pairId = pairIdOf s.pair.side
    s.nor.config.pairId m.pairId m.deviceId) ∧
  (∀ (s : State) (m : HelloMsg), s.pair.mode = true → s.pair.wings = 2 → m.pairMode = true → m.side = !s.pair.side → s.pair.st = .forming →
    m.state = .solo → Does (.hello m) s fun t => t.pair.st = .rejoining ∧ t.pair.own = 0 ∧ t.pair.helloDone = true ∧ t.fa.ana1 =
    .inaccessible ∧ t.fa.ana2 = .inaccessible ∧ t.fb.ana1 = .inaccessible ∧ t.fb.ana2 = .inaccessible) ∧
  (∀ (s : State), s.pair.mode = true → s.pair.wings = 2 → s.pair.handing = none → Does (.heartbeatSend) s fun t => (t.out.head?.any
    (Out.isWings 2)) = true ∧ t.pair.hbSentAt = t.now ∧ s.pair.hbSentAt + s.pair.hb / 10 ≤ t.now ∧ t.pair.msgSeq = s.pair.msgSeq + 1 ∧
    t.names = s.names) ∧
  (∀ (s : State) (m : HeartbeatMsg), s.pair.mode = true → s.pair.wings = 2 → s.isStale .wings = false → earlier s.pair.rxMsg m.msgSeq = true
    → s.pair.st = .paired → Does (.heartbeat m) s fun t => t.pair.peerAlive = true ∧ t.pair.lastHb = some s.now ∧ t.pair.peerLostAt = none ∧
    t.pair.peerOwn = m.owned ∧ t.pair.rxMsg = m.msgSeq ∧ t.pair.st = .paired ∧ t.names.buffer = s.names.buffer) ∧
  (∀ (s : State) (m : HeartbeatMsg), s.pair.mode = true → s.pair.wings = 2 → s.isStale .wings = false → earlier s.pair.rxMsg m.msgSeq =
    false → Does (.heartbeat m) s fun t => t = s) ∧
  (∀ (s : State) (n : Nat), s.pair.mode = true → s.pair.side = false → s.pair.st = .paired → s.pair.peerLostAt = none → s.pair.lastHb = some
    n → s.pair.peerAlive = true → Does (.peerNotAlive) s fun t => t.pair.st = .contending ∧ t.pair.peerAlive = false ∧ t.pair.events.getLsbD
    2 = true ∧ n + s.pair.hb ≤ t.now ∧ t.fa.ana1 = .change ∧ t.fa.ana2 = .change ∧ t.fb.ana1 = .change ∧ t.fb.ana2 = .change) ∧
  (∀ (s : State) (n : Nat), s.pair.mode = true → s.pair.side = true → s.pair.st = .paired → s.pair.peerLostAt = none → s.pair.lastHb = some
    n → s.pair.peerAlive = true → Does (.peerNotAlive) s fun t => t.pair.st = .paired ∧ t.pair.peerLostAt = some t.now ∧ t.pair.peerAlive =
    false ∧ n + s.pair.hb ≤ t.now) ∧
  (∀ (s : State) (n : Nat), s.pair.mode = true → s.pair.side = true → s.pair.st = .paired → s.pair.peerLostAt = some n → Does
    (.peerNotAlive) s fun t => t.pair.st = .contending ∧ n + s.pair.hb / 2 ≤ t.now) ∧
  (∀ (s : State), s.pair.mode = true → s.pair.st = .forming → s.boot.portsEnded = true → s.pair.helloDone = false → s.pair.peerSide ≠ some
    s.pair.side → Does (.formingTimeout) s fun t => t.pair.st = .contending ∧ s.boot.portsEndedAt + 30 * Config.sec + (if s.pair.side then
    s.pair.hb / 2 else 0) ≤ t.now) ∧
  (∀ (s : State) (r : Option PortId), s.pair.st = .contending → s.freshTokens.any (fun k => k % 2 != bit s.pair.side && decide
    (s.pair.epoch.toNat < k / 2)) = true → Does (.contend r) s fun t => t.pair.st = .stoodDown ∧ t.pair.own = 0 ∧ t.names.buffer = [] ∧
    t.pair.mirrors = [] ∧ t.pair.events.getLsbD 4 = true ∧ t.fa.ana1 = .inaccessible ∧ t.fb.ana2 = .inaccessible) ∧
  (∀ (s : State) (e : BitVec 63), s.pair.st = .contending → s.freshTokens.any (fun k => k % 2 != bit s.pair.side && decide
    (s.pair.epoch.toNat < k / 2)) = false → nextEpoch (s.freshTokens.foldl max 0 / 2) = some e → Does (.contend none) s fun t => t.pair.st =
    .solo ∧ t.pair.epoch = e ∧ t.pair.own = 0xFFFFFFFF ∧ t.pair.coordinator = true ∧ t.pair.servesOther = true ∧ t.pair.settling = true ∧
    t.pair.takeovers = satAdd 255 s.pair.takeovers 1 ∧ t.pair.mirrors = [] ∧ t.fa.ana1 = .optimized ∧ t.fa.ana2 = .optimized) ∧
  (∀ (s : State) (p : PortId), s.pair.st = .contending → s.livePorts.contains p = true → Does (.contend (some p)) s fun t => t.pair.st =
    .stoodDown ∧ t.pair.own = 0 ∧ t.names.buffer = [] ∧ t.pair.events.getLsbD 4 = true) ∧
  (∀ (s : State) (c : Nat) (x : Ctx) (f : Fn), s.pair.settling = true → s.pair.withheld = [c] → s.ctx? c = some x → x.origin = .host f →
    Does (.settlingEnd) s fun t => EndedWith t c x x.writeCpl ∧ t.pair.settling = false ∧ t.pair.withheld = [] ∧ s.pair.settleAt + s.pair.hb
    ≤ t.now ∧ t.names = s.names) ∧
  (∀ (s : State) (p : PortId) (k : Packet), Received s p 0xE4 k → s.pair.st = .solo → Does (.fenced p) s fun t => t.pair.st = .stoodDown ∧
    t.pair.own = 0 ∧ t.names.buffer = []) ∧
  (∀ (s : State) (p : PortId) (k : Packet), Received s p 0xE4 k → s.pair.st ≠ .solo → (s.port p).obeyed = true → Does (.fenced p) s fun t =>
    (t.port p).obeyed = false ∧ (t.port p).events.getLsbD 2 = true ∧ t.pair.st = s.pair.st) ∧
  (∀ (s : State) (q : BitVec 13) (l : List Nat) (b : Bool), s.pair.mode = true → s.pair.wings = 2 → s.isStale .wings = true → Does
    (.wingsBlockReceived q l b) s fun t => t.pair = s.pair ∧ t.out = s.out ∧ t.names = s.names ∧ t.xing.discards = sat32 s.xing.discards 1) ∧
  (∀ (s : State), s.pair.mode = true → s.pair.wings = 0 → Does (.wingsLinkReset) s fun t => t.xing.staleOther.getLsbD 2 = false ∧ t.pair =
    s.pair ∧ t.names = s.names)

/-- The always-on domain clears a fill-complete flag when a fill starts and sets it when the fill ends; the control processors are never
released while the flag is clear (spec/02 R63). The SRAM fill starts at the self-test, the DRAM fill when training or the image's load ends;
a release without the flag changes nothing, and no step leads to a released state without it. -/
def Obligations.FillFlagGuardsRelease : Prop :=
  (∀ (s : State), s.booting = true → s.aon.step.toNat < 4 → Does (.bootRomSelfTest true) s fun t => t.aon.fill = .sram ∧ t.aon.fillComplete
    = false) ∧
  (∀ (s : State) (l : List Nat) (r : List (Option Nat)), s.aon.fill = .idle → Does (.dramTrainingDone l r) s fun t => t.aon.fill = .idle ∨ t.aon.fillComplete =
    false) ∧
  (∀ (s : State), s.aon.fill = .idle → Does (.imageLoaded) s fun t => t.aon.fill = .idle ∨ t.aon.fillComplete = false) ∧
  (∀ (s : State), s.booting = true → s.aon.fill ≠ .idle → Does (.memoryFillDone false) s fun t => t.aon.fill = .idle ∧ t.aon.fillComplete =
    true) ∧
  (∀ (s : State), s.aon.fillComplete = false → Does (.processorsRelease) s fun t => t = s) ∧
  (∀ s t : State, s.Inv → step s = .next t → t.boot.released = true → t.aon.fillComplete = true)

/-- A check-bit mismatch found while the fill reads back SRAM stops bring-up with error code 0x05, one found in DRAM with error code 0x07
(spec/02 R66): the code is set, bring-up no longer proceeds, and the processors are not released. -/
def Obligations.FillMismatchStopsBringUp : Prop :=
  (∀ (s : State), s.booting = true → s.aon.fill = .sram → Does (.memoryFillDone true) s fun t => t.aon.error = 0x05 ∧ t.booting = false ∧
    t.boot.released = false ∧ t.aon.step = s.aon.step) ∧
  (∀ (s : State), s.booting = true → s.aon.fill = .dram → Does (.memoryFillDone true) s fun t => t.aon.error = 0x07 ∧ t.booting = false ∧
    t.boot.released = false ∧ t.aon.step = s.aon.step)

/-- A channel that fails training is retried up to three times; if it then still fails, bring-up stops with error code 0x06; the controller
never runs with fewer than eight channels (spec/02 R69): a failure is told by DRAM_CHANNEL_TRAINING_FAIL, or by a density that differs from
that of the others (log 146) in DRAM_TRAINING_DONE; training that ends on fewer than eight channels, or has not ended, leads to no release.
-/
def Obligations.ChannelTrainingRetries : Prop :=
  (∀ (s : State) (ch : Fin 8), s.booting = true → 5 ≤ s.aon.step.toNat → s.boot.trained = false → s.boot.retries[ch] < 3 → Does
    (.dramChannelTrainingFail ch) s fun t => t.boot.retries[ch] = s.boot.retries[ch] + 1 ∧ t.aon = s.aon ∧ t.boot.trained = false) ∧
  (∀ (s : State) (ch : Fin 8), s.booting = true → 5 ≤ s.aon.step.toNat → s.boot.trained = false → s.boot.retries[ch] = 3 → Does
    (.dramChannelTrainingFail ch) s fun t => t.aon.error = 0x06 ∧ t.booting = false ∧ t.boot.trained = false) ∧
  (∀ (s : State) (l : List Nat) (r : List (Option Nat)) (ch : Fin 8), s.booting = true → 5 ≤ s.aon.step.toNat → s.boot.trained = false → failedChannels (rankDensities l r) =
    [ch] → s.boot.retries[ch] < 3 → Does (.dramTrainingDone l r) s fun t => t.boot.retries[ch] = s.boot.retries[ch] + 1 ∧ t.aon = s.aon ∧
    t.boot.trained = false) ∧
  (∀ (s : State), s.boot.trained = false → Does (.processorsRelease) s fun t => t = s) ∧
  (∀ (s : State) (l : List Nat) (r : List (Option Nat)) (ch : Fin 8), s.booting = true → 5 ≤ s.aon.step.toNat → s.boot.trained = false → failedChannels (rankDensities l r) =
    [ch] → s.boot.retries[ch] = 3 → Does (.dramTrainingDone l r) s fun t => t.aon.error = 0x06 ∧ t.booting = false ∧ t.boot.trained = false) ∧
  (∀ (s : State) (l : List Nat) (r : List (Option Nat)), s.boot.trained = false → l.length < 8 → Does (.dramTrainingDone l r) s fun t => t.boot.trained = false
    ∧ t.boot.released = s.boot.released)

/-- A commit whose target is the running slot completes with Command Sequence Error (spec/16 R595), whichever of the three actions it asks
for; the boot store is as it was. -/
def Obligations.CommitOfTheRunningSlot : Prop :=
  (∀ (s : State) (c : Nat) (x : Ctx) (f : Fn), AtHand s c (isCommit 0) x → x.origin = .host f → commitFs x.entry.cdw10 ≤ 2 → s.slotRuns
    (s.slotFor (commitFs x.entry.cdw10)) = true → Does (.firmwareCommitStage c) s fun t => EndedWith t c x Cpl.seqError ∧ t.nor = s.nor) ∧
  (∀ (s : State) (c : Nat) (x : Ctx) (f : Fn), AtHand s c (isCommit 1) x → x.origin = .host f → commitFs x.entry.cdw10 ≤ 2 → s.slotRuns
    (s.slotFor (commitFs x.entry.cdw10)) = true → Does (.firmwareCommitStagePrefer c) s fun t => EndedWith t c x Cpl.seqError ∧ t.nor =
    s.nor) ∧
  (∀ (s : State) (c : Nat) (x : Ctx) (f : Fn), AtHand s c (isCommit 2) x → x.origin = .host f → commitFs x.entry.cdw10 ≤ 2 → s.slotRuns
    (s.slotFor (commitFs x.entry.cdw10)) = true → Does (.firmwareCommitPrefer c) s fun t => EndedWith t c x Cpl.seqError ∧ t.nor = s.nor)

/-- A solo controller that receives FENCED from any companion stands down (spec/18 R647): it owns no port, and its groups are inaccessible
on both functions. -/
def Obligations.SoloStandsDown : Prop :=
  (∀ (s : State) (p : PortId) (k : Packet), Received s p 0xE4 k → s.pair.st = .solo → Does (.fenced p) s fun t => t.pair.st = .stoodDown ∧
    t.pair.own = 0 ∧ t.fa.ana1 = .inaccessible ∧ t.fa.ana2 = .inaccessible ∧ t.fb.ana1 = .inaccessible ∧ t.fb.ana2 = .inaccessible)

/-- The map cache can be enabled only after an invalidate-all has completed since the last disable or reset; an enable without one completes
with Command Sequence Error (spec/13 R515). The mark that an enable needs is set by an invalidate-all and cleared by a disable and by a
device reset. -/
def Obligations.CacheEnableNeedsInvalidateAll : Prop :=
  (∀ (s : State) (c : Nat) (x : Ctx), AtHand s c (isAction 0xC6 1) x → bits x.entry.cdw10 15 8 = 0 → x.entry.cdw14 = 0 → x.entry.cdw15 = 0 →
    s.mcache.invalidated = true → Does (.mapCacheEnable c) s fun t => EndedWith t c x Cpl.ok ∧ t.mcache.enabled = true) ∧
  (∀ (s : State) (c : Nat) (x : Ctx), AtHand s c (isAction 0xC6 1) x → bits x.entry.cdw10 15 8 = 0 → x.entry.cdw14 = 0 → x.entry.cdw15 = 0 →
    s.mcache.invalidated = false → Does (.mapCacheEnable c) s fun t => EndedWith t c x Cpl.seqError ∧ t.mcache = s.mcache) ∧
  (∀ (s : State) (c : Nat) (x : Ctx), AtHand s c (isAction 0xC6 3) x → bits x.entry.cdw10 15 8 = 0 → x.entry.cdw14 = 0 → x.entry.cdw15 = 0 →
    Does (.invalidateAll c) s fun t => EndedWith t c x Cpl.ok ∧ t.mcache.invalidated = true ∧ t.mcache.enabled = s.mcache.enabled) ∧
  (∀ (s : State) (c : Nat) (x : Ctx), AtHand s c (isAction 0xC6 2) x → bits x.entry.cdw10 15 8 = 0 → x.entry.cdw14 = 0 → x.entry.cdw15 = 0 →
    Does (.mapCacheDisable c) s fun t => EndedWith t c x Cpl.ok ∧ t.mcache.invalidated = false ∧ t.mcache.enabled = false) ∧
  (∀ (s : State), s.aon.hold = .running → s.names.dumping = false → s.aon.dogArmed = true → Does (.watchdogExpiry) s fun t =>
    t.mcache.invalidated = false ∧ t.mcache.enabled = false ∧ t.mcache.sets = []) ∧
  (∀ (s : State), s.aon.hold ≠ .powerOn → Does (.sysPwrokDeassert) s fun t => t.mcache.invalidated = false ∧ t.mcache.enabled = false ∧
    t.mcache.sets = [])

/-- Before a format starts, it checks the candidate's hda_serial against the member record; if the serial belongs to a member that is
absent, the format completes with Command Sequence Error (spec/19 R665) and nothing starts. -/
def Obligations.FormatOfAnAbsentMember : Prop :=
  (∀ (s : State) (c : Nat) (x : Ctx) (q : PortId), AtHand s c (isAction 0xC2 0) x → x.update = false → x.entry.cdw14 = 0 → x.entry.cdw15 = 0
    → x.entry.cdw13 = 0 → opKind x.entry = 4 → (s.member q).st = .absent → (s.member q).serial = (s.port (Fin.ofNat 32 (bits x.entry.cdw11 4
    0))).serial → Does (.longOperationStart c) s fun t => EndedWith t c x Cpl.seqError ∧ t.nor = s.nor ∧ t.prot = s.prot)

/-- In a pair, COMP_FW is accepted only by the owner of the port; the other controller answers it with status 0x04 (spec/19 R671) and
changes nothing. The owner of a trained port that it drives takes the update in hand; that the port must be trained and obeyed is the
model's reading (log 64). -/
def Obligations.CompFwNeedsTheOwner : Prop :=
  (∀ (s : State) (tag : Byte) (p : PortId) (ret : Bool) (force : Bool) (n : Nat) (d : Digest), s.svcUp = true → s.svc.busy = none → s.fwRuns
    = true → s.pair.mode = true → s.owns p = false → Does (.compFw tag p ret force n d) s fun t => t.out = .reply 0x20 tag 4 [] :: s.out ∧ t.svc
    = s.svc ∧ t.ports = s.ports) ∧
  (∀ (s : State) (tag : Byte) (p : PortId) (ret : Bool) (n : Nat) (d : Digest), s.svcUp = true → s.svc.busy = none → s.fwRuns = true →
    s.pair.mode = true → s.owns p = true → (s.port p).train = 9 → (s.port p).obeyed = true → 1 ≤ n → n ≤ downloadSize → ((fins 2).any fun y
    => (s.act (actOf p y)).loaded || (s.act (actOf p y)).loading) = true → ((fins 2).any fun y => (s.act (actOf p y)).loaded) = true → Does
    (.compFw tag p ret true n d) s fun t => (t.svc.comp.map fun q => (q.port, q.tag, q.phase, q.digest)) = some (p, tag, 0, d) ∧ t.svc.busy
    = some tag)

/-- A byte written to a buffer reads back, every other byte reads as before, and the buffer's canonical form is kept (spec/16 R592, a later
write to the same bytes replaces an earlier one). -/
def Obligations.BufferReadsBack : Prop :=
  (∀ (l : List Host.Cell) (off : Nat) (bs : List Byte), bufWf l = true → bufWf (bufWrite l off bs) = true) ∧
  (∀ (l : List Host.Cell) (off : Nat) (bs : List Byte) (i : Nat), bufWf l = true → i < bs.length → bufGet (bufWrite l off bs) (off + i) =
    bs.getD i 0) ∧
  (∀ (l : List Host.Cell) (off : Nat) (bs : List Byte) (x : Nat), bufWf l = true → x < off ∨ off + bs.length ≤ x → bufGet (bufWrite l off
    bs) x = bufGet l x)

/-- From every state, with whatever commands in its queue, a run of any number of steps goes on: no step faults or refuses. -/
def Obligations.NeverStops : Prop :=
  (∀ (n : Nat) (s : State), runs n s)

/-- From every state in which the invariant holds, a step leads to one in which it holds: the processors are released only with the
fill-complete flag set, boot complete only after the release, CSTS.RDY only after boot complete, buffers keep their canonical form, a port
in service is trained, the recorder's stores keep their bounds, and command contexts have distinct numbers (spec/02 R63, Table 2-9; spec/01
R23; spec/17 R601, R607, R732). -/
def Obligations.EveryStepKeepsInv : Prop :=
  (∀ s t : State, s.Inv → step s = .next t → t.Inv)

/-- Every command, in every state, answers a next state that differs only in the parts that touches lists for it: the clock never goes back,
the outputs are only added to, and the queue is as it was. -/
def Obligations.EveryCommandCompletes : Prop :=
  (∀ (i : Instr) (s : State), ∃ t, exec i s = .next t ∧ s.onlyIn (touches i) t ∧ s.now ≤ t.now ∧ (∃ l, t.out = l ++ s.out) ∧ t.pending =
    s.pending)

/-- Where each command of the sequencers does its own work (spec/06 R215, R217, R219, R241, R243, R238; spec/07 R275, R276).
MICROWORD_EXECUTE of a running sequencer, at a word without an action, a wait or a jump, goes on to the next. DESCRIPTOR_QUEUED: a
descriptor whose port is not being handed over joins its actuator's queue. OPERATION_TIMEOUT halts a running sequencer that has an operation
with fault code 7. SEQUENCER_FAULT_REINIT: a halted sequencer in service starts again at address 0, where no match redirects it.
BANK_SWITCH: an offline sequencer that waits for it selects the newest bank. GATE_ERROR: a late write gate is counted and its events raised.
ENCODER_READY: the encoder becomes ready when its buffer is full. STAGING_ERROR ends the write whose data is being encoded. -/
def Obligations.SequencerCommandsComplete : Prop :=
  (∀ (s : State) (a : ActId) (w : W32), (s.seq a).st = .running → (s.seq a).addr ≠ 0 → (s.seq a).acted = false → (s.patch.bankOf (s.seq
    a).bank).micro? (s.seq a).addr.toNat = some w → microNext w = 0 → (s.patch.bankOf (s.seq a).bank).nano? (microNano w) = .inr 0 →
    ((s.patch.bankOf (s.seq a).bank).micro? ((s.patch.bankOf (s.seq a).bank).redirect ((s.seq a).addr.toNat + 1))).isSome = true →
    (s.patch.bankOf (s.seq a).bank).redirect ((s.seq a).addr.toNat + 1) ≠ 0 → Does (.microwordExecute a false) s fun t => (t.seq a).addr =
    BitVec.ofNat 15 ((s.patch.bankOf (s.seq a).bank).redirect ((s.seq a).addr.toNat + 1)) ∧ (t.seq a).op = (s.seq a).op) ∧
  (∀ (s : State) (a : ActId) (why : ReadFor) (d : Descriptor), s.handsOver (portOf a) = false → Does (.descriptorQueued a ⟨why, d⟩) s fun t =>
    (t.seq a).queue.getLast? = some { d with cls := s.readClass why d, reread := 0 } ∧ (t.seq a).queue.length = (s.seq a).queue.length + 1) ∧
  (∀ (s : State) (a : ActId), (s.seq a).st = .running → (s.seq a).op.isSome = true → (s.seq a).faultAt = none → Does (.operationTimeout a) s
    fun t => (t.seq a).st = .halted ∧ (t.seq a).fault = 7 ∧ (t.seq a).faults = satAdd 255 (s.seq a).faults 1) ∧
  (∀ (s : State) (a : ActId), (s.seq a).st = .halted → (s.seq a).outOfService = false → (s.patch.bankOf s.patch.newest).redirect 0 = 0 →
    Does (.sequencerFaultReinit a) s fun t => (t.seq a).st = .idle ∧ (t.seq a).addr = 0 ∧ (t.seq a).fault = 0) ∧
  (∀ (s : State) (a : ActId), (s.seq a).st = .offline → (s.seq a).switchPending = true → 2 ≤ s.patch.remaining → Does (.bankSwitch a) s fun
    t => (t.seq a).bank = s.patch.newest ∧ (t.seq a).switchPending = false ∧ (t.seq a).st = .offline ∧ ∀ b, b ≠ a → t.seq b = s.seq b) ∧
  (∀ (s : State) (p : PortId) (k : Packet), Received s p 0xE3 k → field k.payload 0 1 = 0 → field k.payload 1 1 = 2 → field k.payload 2 1 =
    1 → Does (.gateError p) s fun t => (t.port p).gateErr = sat32 (s.port p).gateErr 1 ∧ (t.seq (actOf p 0)).gateErrors = satAdd 255 (s.seq
    (actOf p 0)).gateErrors 1 ∧ (t.seq (actOf p 0)).events.getLsbD 1 = true ∧ (t.seq (actOf p 0)).events.getLsbD 2 = true) ∧
  (∀ (s : State) (a : ActId), (s.pool a).enc = 1 → s.encoderFull a = true → Does (.encoderReady a) s fun t => (t.pool a).encReady = true) ∧
  (∀ (s : State) (a : ActId) (addr : Nat), (s.pool a).enc = 1 → sramWithin .staging addr = true → (s.patch.bankOf (s.seq a).bank).redirect 0
    = 0 → Does (.stagingError ⟨a, addr⟩) s fun t => (t.pool a).enc = 2 ∧ (t.pool a).stagingErrors = satAdd 255 (s.pool a).stagingErrors 1)

/-- Where each access to the status window, the release of a joint reset, and each of some other commands with few statements do their own
work (spec/14 R524 to R527, R531, R535, R536; spec/03 R95, R114; spec/11 R409; spec/19 R678; spec/08 R299; spec/10 R377, Table 10-4): a read
of the recorder's drop count answers with it and clears it; a _LO read captures its _HI, and the _HI read answers what was captured; a write
to PORT_EVENTS clears the bits it names; a joint reset ends; DEVICE_RESET of a running device records its cause; the temperature of a
trained port becomes stale; Zone Management Send with Select All is refused for Offline and Set Zone Descriptor Extension as it is for one
zone. A block leaves on a running command lane whose crossing is not stale, and its place goes on; a request sent fewer than three times is
counted and its packet queued again; 64 toggles set clock_present and, where no read hangs, nothing else; 16 clocks without one clear it and
the block lock of a port in PS3 or in its joint reset, and nothing else; a port's crossing becomes stale and what was in flight is counted;
up to 255 pulses of a port are delivered as their count and added to the port's counter. -/
def Obligations.WindowAccessesComplete : Prop :=
  (∀ (s : State) (q : Req) (off : Nat), s.canAccess q off = true → (s.xing.hung.any fun h => h.who == q) = false → (s.xing.captured.find?
    fun c => c.1 == q && c.2.1 == off) = none → regAt off = .recorder 40 → off % 4 = 0 → Does (.rcRegisterRead q off) s fun t => t.out =
    .value q off s.book.drops :: s.out ∧ t.book.drops = 0) ∧
  (∀ (s : State) (q : Req) (off : Nat), s.canAccess q off = true → (s.xing.hung.any fun h => h.who == q) = false → s.stopped off = none →
    off % 4 = 0 → isLo off = true → (s.xing.captured.find? fun c => c.1 == q && c.2.1 == off) = none → Does (.loRegisterRead q off) s fun t
    => t.out = .value q off (s.regWord (regAt off)) :: s.out ∧ (t.xing.captured.head?.map fun c => (c.1, c.2.1)) = some (q, off + 4)) ∧
  (∀ (s : State) (q : Req) (off : Nat) (v : W32), s.canAccess q off = true → (s.xing.hung.any fun h => h.who == q) = false → s.stopped off =
    none → off % 4 = 0 → (s.xing.captured.find? fun c => c.1 == q && c.2.1 == off) = some (q, off, v) → Does (.hiRegisterRead q off) s fun t
    => t.out = .value q off v :: s.out) ∧
  (∀ (s : State) (q : Req) (off : Nat) (v : W32) (p : PortId), s.canAccess q off = true → (s.xing.hung.any fun h => h.who == q) = false →
    regAt off = .port p 4 → Does (.statusWindowWrite q off v) s fun t => (t.port p).events = w1c (s.port p).events v ∧ ∀ r, r ≠ p → t.port r
    = s.port r) ∧
  (∀ (s : State) (p : PortId), (s.port p).joint = true → (s.port p).clock = true → s.xing.hung = [] → Does (.jointResetRelease p) s fun t =>
    (t.port p).joint = false ∧ t.xing.stalePort = clearBit s.xing.stalePort p.val ∧ t.xing.hung = []) ∧
  (∀ (s : State) (tag : Byte), s.aon.hold = .running → s.boot.released = true → s.names.dumping = false → s.boot.cold = false → Does
    (.deviceReset tag) s fun t => t.aon.cause.getLsbD 4 = true ∧ t.boot.released = false) ∧
  (∀ (s : State) (p : PortId) (n : Nat), (s.port p).train = 9 → (s.pcal p).stale = false → (s.pcal p).lastValid = some n → Does
    (.temperatureStale p) s fun t => (t.pcal p).stale = true ∧ (t.pcal p).lastValid = some n) ∧
  (∀ (s : State) (c : Nat) (x : Ctx) (n : Ns), AtHand s c (fun x => isIoOp 0x79 x && bits x.entry.cdw13 7 0 == 5) x → s.ioNs x = some n →
    s.ioBad x n = none → n.zoned = true → bits x.entry.cdw13 8 8 = 1 → s.zoneTurn x = true → x.update = false → Does (.zoneOffline c) s fun
    t => EndedWith t c x Cpl.badZoneState ∧ t.names = s.names) ∧
  (∀ (s : State) (c : Nat) (x : Ctx) (n : Ns), AtHand s c (fun x => isIoOp 0x79 x && bits x.entry.cdw13 7 0 == 0x10) x → s.ioNs x = some n →
    s.ioBad x n = none → n.zoned = true → bits x.entry.cdw13 8 8 = 1 → s.zoneTurn x = true → x.update = false → Does
    (.setZoneDescriptorExtension c) s fun t => EndedWith t c x (Cpl.invalid 13 0) ∧ t.names = s.names) ∧
  (∀ (s : State) (p : PortId), (s.port p).cmdUp = true → s.isStale (.port p) = false → Does (.commandLaneBlockSend p) s fun t => (t.port
    p).txPos = ((s.port p).txPos + 1) % 8192 ∧ t.out.length = s.out.length + 1) ∧
  (∀ (s : State) (p : PortId) (tag : Byte) (r : Request), ((s.port p).requests.find? fun x => x.packet.tag == tag && x.busyAt.isNone) = some
    r → r.sends < 3 → Does (.packetResponseTimeout p tag) s fun t => (t.port p).pktTimeout = sat32 (s.port p).pktTimeout 1 ∧ (t.port
    p).normal.getLast? = some (t.now, r.packet)) ∧
  (∀ (s : State) (p : PortId) (n : Nat), 64 ≤ n → (s.port p).train ≠ 0xC → s.xing.hung = [] → Does (.clockPresentSet p n) s fun t => t =
    s.modPort p fun x => { x with clock := true }) ∧
  (∀ (s : State) (p : PortId) (n : Nat), 16 ≤ n → (s.port p).clock = true → ((s.port p).train = 0xC ∨ (s.port p).train = 0xB ∧ (s.port
    p).joint = true) → Does (.clockPresentClear p n) s fun t => t = s.modPort p fun x => { x with clock := false, blockLock := false }) ∧
  (∀ (s : State) (p : PortId) (n : Nat), (s.port p).train ≠ 0xC → Does (.staleCrossing (.port p) n) s fun t => t.xing.stalePort = setBit
    s.xing.stalePort p.val ∧ t.xing.discards = sat32 s.xing.discards n) ∧
  (∀ (s : State) (p : PortId) (e : Fin 6) (n : Nat), 0 < n → n ≤ 255 → s.isStale (.port p) = false → Does (.pulseTransfer (.port p) ⟨e, n⟩) s
    fun t => t = (s.modXing fun y => { y with delivered := (.port p, n, false) :: y.delivered }).modPort p (Port.countEvents e n))
end

