-- ==== Sys2Proof/Laws/Moves.lean ====
section
/-! SUPPORT. What an operation can do to the state, said once: the parts it may change, that the clock and the outputs only
grow, that the invariant is kept; how that passes through the combinators, and the operations that write one part. -/

namespace Sys2Proof.Machine

/-- One state may follow another by an operation that reaches only the parts listed. -/
structure State.Moves (l : List Part) (s t : State) : Prop where
  only : s.onlyIn l t
  time : s.now ≤ t.now
  outs : s.out <:+ t.out
  inv : s.Inv → t.Inv

theorem Moves.refl (l : List Part) (s : State) : s.Moves l s :=
  ⟨by intro x _; cases x <;> rfl, Nat.le_refl _, List.suffix_refl _, id⟩

theorem Moves.op {l m : List Part} {s t u : State} (k : t.Moves m u) (hm : m ⊆ l) (h : s.Moves l t) : s.Moves l u := by
  refine ⟨?_, Nat.le_trans h.time k.time, List.IsSuffix.trans h.outs k.outs, fun i => k.inv (h.inv i)⟩
  intro x hx
  have a := h.only x hx
  have b := k.only x (fun y => hx (hm y))
  cases x <;> exact Eq.trans b a

theorem Moves.base {l : List Part} {s t u : State} (h : s.Moves l u) (k : u.onlyIn l t) (time : t.now = u.now) (outs : t.out = u.out)
    (inv : u.Inv → t.Inv) : s.Moves l t :=
  Moves.op ⟨k, Nat.le_of_eq time.symm, by rw [outs], inv⟩ (List.Subset.refl l) h

theorem Moves.let {l : List Part} {s t u : State} (k : s.Moves l u → s.Moves l t) (h : s.Moves l u) : s.Moves l t := k h

theorem Moves.ite {l : List Part} {s t u : State} {c : Prop} [Decidable c] (h : s.Moves l t) (k : s.Moves l u) :
    s.Moves l (if c then t else u) := by
  split
  · exact h
  · exact k

theorem Moves.when {l : List Part} {s t : State} {b : Bool} {f : State → State} (k : ∀ u, s.Moves l u → s.Moves l (f u))
    (h : s.Moves l t) : s.Moves l (State.when b f t) := by
  unfold State.when
  exact Moves.ite (k _ h) h

theorem Moves.each {l : List Part} {α : Type} {s t : State} {xs : List α} {f : α → State → State}
    (k : ∀ x u, s.Moves l u → s.Moves l (f x u)) (h : s.Moves l t) : s.Moves l (State.each xs f t) := by
  unfold State.each
  induction xs generalizing t with
  | nil => exact h
  | cons x xs ih => exact ih (k x t h)

theorem State.modAon_moves {l : List Part} {s t : State} {f : Aon → Aon}
    (hf : ∀ a, (f a).fillComplete = a.fillComplete ∧ (f a).held = a.held) (hm : Part.aon ∈ l) (h : s.Moves l t) :
    s.Moves l (t.modAon f) := by
  refine Moves.base h ?_ rfl rfl fun i => ⟨fun r => ((hf _).1).trans (i.filled r), i.complete, i.ready, i.bufs, i.served,
    by rw [show (t.modAon f).aon.held = t.aon.held from (hf _).2]; exact i.therms, i.holds, i.ring, i.ctxs⟩
  intro x hx; cases x <;> first | exact absurd hm hx | rfl

theorem State.modBoot_moves {l : List Part} {s t : State} {f : Boot → Boot}
    (hf : ∀ a, (f a).released = a.released ∧ (f a).complete = a.complete) (hm : Part.boot ∈ l) (h : s.Moves l t) :
    s.Moves l (t.modBoot f) := by
  have hr : (t.modBoot f).boot.released = t.boot.released := (hf _).1
  have hc : (t.modBoot f).boot.complete = t.boot.complete := (hf _).2
  refine Moves.base h ?_ rfl rfl fun i => ⟨fun r => i.filled (hr ▸ r), fun r => hr ▸ i.complete (hc ▸ r),
    ⟨fun r => hc ▸ i.ready.1 r, fun r => hc ▸ i.ready.2 r⟩, i.bufs, i.served, i.therms, i.holds, i.ring, i.ctxs⟩
  intro x hx; cases x <;> first | exact absurd hm hx | rfl

theorem State.modBook_moves {l : List Part} {s t : State} {f : Recorder → Recorder}
    (hf : ∀ a, (f a).held = a.held ∧ (f a).ring = a.ring) (hm : Part.book ∈ l) (h : s.Moves l t) :
    s.Moves l (t.modBook f) := by
  have hr : (t.modBook f).book.held = t.book.held := (hf _).1
  have hc : (t.modBook f).book.ring = t.book.ring := (hf _).2
  refine Moves.base h ?_ rfl rfl fun i => ⟨i.filled, i.complete, i.ready, i.bufs, i.served, i.therms, hr ▸ i.holds, hc ▸ i.ring, i.ctxs⟩
  intro x hx; cases x <;> first | exact absurd hm hx | rfl

theorem State.modSvc_moves {l : List Part} {s t : State} {f : Service → Service}
    (hf : ∀ a, (f a).buffer = a.buffer ∧ (f a).recovery = a.recovery) (hm : Part.svc ∈ l) (h : s.Moves l t) :
    s.Moves l (t.modSvc f) := by
  have hr : (t.modSvc f).svc.buffer = t.svc.buffer := (hf _).1
  have hc : (t.modSvc f).svc.recovery = t.svc.recovery := (hf _).2
  refine Moves.base h ?_ rfl rfl fun i => ⟨i.filled, i.complete, i.ready, ⟨hr ▸ i.bufs.1, hc ▸ i.bufs.2.1, i.bufs.2.2⟩, i.served, i.therms,
    i.holds, i.ring, i.ctxs⟩
  intro x hx; cases x <;> first | exact absurd hm hx | rfl

theorem State.modFn_moves {l : List Part} {s t : State} {n : Fn} {f : HostFn → HostFn}
    (hf : ∀ a, (f a).rdy = a.rdy ∧ (f a).download = a.download) (hm : [Part.fa, Part.fb] ⊆ l) (h : s.Moves l t) :
    s.Moves l (t.modFn n f) := by
  have ha : Part.fa ∈ l := hm (by decide)
  have hb : Part.fb ∈ l := hm (by decide)
  cases n
  · have hr : (t.modFn .a f).fa.rdy = t.fa.rdy := (hf _).1
    have hc : (t.modFn .a f).fa.download = t.fa.download := (hf _).2
    refine Moves.base h ?_ rfl rfl fun i => ⟨i.filled, i.complete, ⟨fun r => i.ready.1 (hr ▸ r), i.ready.2⟩,
      ⟨i.bufs.1, i.bufs.2.1, hc ▸ i.bufs.2.2.1, i.bufs.2.2.2⟩, i.served, i.therms, i.holds, i.ring, i.ctxs⟩
    intro x hx; cases x <;> first | exact absurd ha hx | rfl
  · have hr : (t.modFn .b f).fb.rdy = t.fb.rdy := (hf _).1
    have hc : (t.modFn .b f).fb.download = t.fb.download := (hf _).2
    refine Moves.base h ?_ rfl rfl fun i => ⟨i.filled, i.complete, ⟨i.ready.1, fun r => i.ready.2 (hr ▸ r)⟩,
      ⟨i.bufs.1, i.bufs.2.1, i.bufs.2.2.1, hc ▸ i.bufs.2.2.2⟩, i.served, i.therms, i.holds, i.ring, i.ctxs⟩
    intro x hx; cases x <;> first | exact absurd hb hx | rfl

theorem upd_get {α : Type} {n : Nat} (v : Vector α n) (i j : Fin n) (f : α → α) : (upd v i f)[j] = if i = j then f v[j] else v[j] := by
  unfold upd
  by_cases h : i = j
  · subst h; simp
  · have : i.val ≠ j.val := fun e => h (Fin.ext e)
    simp [h, this]

theorem State.modPort_served {l : List Part} {s t : State} {p : PortId} {f : Port → Port}
    (hf : ∀ x : Port, x.servedTrained → (f x).servedTrained) (hm : Part.ports ∈ l) (h : s.Moves l t) :
    s.Moves l (t.modPort p f) := by
  refine Moves.base h ?_ rfl rfl fun i => ⟨i.filled, i.complete, i.ready, i.bufs, ?_, i.therms, i.holds, i.ring, i.ctxs⟩
  · intro x hx; cases x <;> first | exact absurd hm hx | rfl
  · intro q
    show (upd t.ports p f)[q].servedTrained
    rw [upd_get]
    split
    · exact hf _ (i.served q)
    · exact i.served q

theorem State.modPort_moves {l : List Part} {s t : State} {p : PortId} {f : Port → Port}
    (hf : ∀ x : Port, (f x).inService = x.inService ∧ (f x).train = x.train) (hm : Part.ports ∈ l) (h : s.Moves l t) :
    s.Moves l (t.modPort p f) := by
  refine State.modPort_served (fun x hx e => ?_) hm h
  rw [(hf x).2]; exact hx ((hf x).1 ▸ e)

theorem State.modPort_leaves {l : List Part} {s t : State} {p : PortId} {f : Port → Port}
    (hf : ∀ x : Port, (f x).inService = false) (hm : Part.ports ∈ l) (h : s.Moves l t) :
    s.Moves l (t.modPort p f) := by
  refine State.modPort_served (fun x hx e => ?_) hm h
  rw [hf x] at e; exact absurd e (by decide)

theorem map_ids (c : Nat) (f : Ctx → Ctx) (hf : ∀ x : Ctx, x.id = c → (f x).id = x.id) (l : List Ctx) :
    (mapWhere (fun x => x.id == c) f l).map Ctx.id = l.map Ctx.id := by
  unfold mapWhere
  rw [List.map_map]
  apply List.map_congr_left
  intro x _
  simp only [Function.comp]
  split
  · rename_i h; exact hf x (by simpa using h)
  · rfl

theorem State.Inv.ofIds {s t : State} (i : s.Inv) (e : t.ctxs.map Ctx.id = s.ctxs.map Ctx.id) (n : t.nextCtx = s.nextCtx) :
    (t.ctxs.map Ctx.id).Nodup ∧ ∀ x ∈ t.ctxs, x.id < t.nextCtx := by
  refine ⟨e ▸ i.ctxs.1, fun x hx => ?_⟩
  have : x.id ∈ s.ctxs.map Ctx.id := e ▸ List.mem_map_of_mem hx
  obtain ⟨y, hy, he⟩ := List.mem_map.mp this
  rw [n, ← he]; exact i.ctxs.2 y hy

theorem State.modCtx_moves {l : List Part} {s t : State} {c : Nat} {f : Ctx → Ctx}
    (hf : ∀ x : Ctx, x.id = c → (f x).id = x.id) (hm : Part.ctxs ∈ l) (h : s.Moves l t) :
    s.Moves l (t.modCtx c f) := by
  refine Moves.base h ?_ rfl rfl fun i => ⟨i.filled, i.complete, i.ready, i.bufs, i.served, i.therms, i.holds, i.ring,
    i.ofIds (map_ids c f hf _) rfl⟩
  intro x hx; cases x <;> first | exact absurd hm hx | rfl

theorem State.modBook_at {l : List Part} {s t : State} {f : Recorder → Recorder}
    (hf : (f t.book).held = t.book.held) (hr : t.book.ring.length ≤ 16384 → (f t.book).ring.length ≤ 16384) (hm : Part.book ∈ l)
    (h : s.Moves l t) : s.Moves l (t.modBook f) := by
  refine Moves.base h ?_ rfl rfl fun i => ⟨i.filled, i.complete, i.ready, i.bufs, i.served, i.therms, ?_, hr i.ring, i.ctxs⟩
  · intro x hx; cases x <;> first | exact absurd hm hx | rfl
  · show (f t.book).held.length ≤ 1024
    rw [hf]; exact i.holds

theorem State.modFn_reset {l : List Part} {s t : State} {n : Fn} {f : HostFn → HostFn}
    (hf : ∀ a, (f a).rdy = false ∧ (f a).download = []) (hm : [Part.fa, Part.fb] ⊆ l) (h : s.Moves l t) :
    s.Moves l (t.modFn n f) := by
  have ha : Part.fa ∈ l := hm (by decide)
  have hb : Part.fb ∈ l := hm (by decide)
  cases n
  · have hr : (t.modFn .a f).fa.rdy = false := (hf _).1
    have hc : (t.modFn .a f).fa.download = [] := (hf _).2
    refine Moves.base h ?_ rfl rfl fun i => ⟨i.filled, i.complete, ⟨fun r => by rw [hr] at r; exact absurd r (by decide), i.ready.2⟩,
      ⟨i.bufs.1, i.bufs.2.1, by rw [hc]; rfl, i.bufs.2.2.2⟩, i.served, i.therms, i.holds, i.ring, i.ctxs⟩
    intro x hx; cases x <;> first | exact absurd ha hx | rfl
  · have hr : (t.modFn .b f).fb.rdy = false := (hf _).1
    have hc : (t.modFn .b f).fb.download = [] := (hf _).2
    refine Moves.base h ?_ rfl rfl fun i => ⟨i.filled, i.complete, ⟨i.ready.1, fun r => by rw [hr] at r; exact absurd r (by decide)⟩,
      ⟨i.bufs.1, i.bufs.2.1, i.bufs.2.2.1, by rw [hc]; rfl⟩, i.served, i.therms, i.holds, i.ring, i.ctxs⟩
    intro x hx; cases x <;> first | exact absurd hb hx | rfl

theorem State.modFn_at {l : List Part} {s t : State} {n : Fn} {f : HostFn → HostFn}
    (hr : t.Inv → (f (t.fn n)).rdy = true → t.boot.complete = true)
    (hd : t.Inv → bufWf (f (t.fn n)).download = true) (hm : [Part.fa, Part.fb] ⊆ l) (h : s.Moves l t) :
    s.Moves l (t.modFn n f) := by
  have ha : Part.fa ∈ l := hm (by decide)
  have hb : Part.fb ∈ l := hm (by decide)
  cases n
  · refine Moves.base h ?_ rfl rfl fun i => ⟨i.filled, i.complete, ⟨hr i, i.ready.2⟩, ⟨i.bufs.1, i.bufs.2.1, hd i, i.bufs.2.2.2⟩,
      i.served, i.therms, i.holds, i.ring, i.ctxs⟩
    intro x hx; cases x <;> first | exact absurd ha hx | rfl
  · refine Moves.base h ?_ rfl rfl fun i => ⟨i.filled, i.complete, ⟨i.ready.1, hr i⟩, ⟨i.bufs.1, i.bufs.2.1, i.bufs.2.2.1, hd i⟩,
      i.served, i.therms, i.holds, i.ring, i.ctxs⟩
    intro x hx; cases x <;> first | exact absurd hb hx | rfl

theorem State.modSvc_at {l : List Part} {s t : State} {f : Service → Service}
    (hb : t.Inv → bufWf (f t.svc).buffer = true) (hr : t.Inv → bufWf (f t.svc).recovery = true) (hm : Part.svc ∈ l)
    (h : s.Moves l t) : s.Moves l (t.modSvc f) := by
  refine Moves.base h ?_ rfl rfl fun i => ⟨i.filled, i.complete, i.ready, ⟨hb i, hr i, i.bufs.2.2⟩, i.served, i.therms,
    i.holds, i.ring, i.ctxs⟩
  intro x hx; cases x <;> first | exact absurd hm hx | rfl

theorem State.modAon_at {l : List Part} {s t : State} {f : Aon → Aon}
    (hf : t.Inv → t.boot.released = true → (f t.aon).fillComplete = true) (hh : t.Inv → (f t.aon).held.length ≤ 16)
    (hm : Part.aon ∈ l) (h : s.Moves l t) : s.Moves l (t.modAon f) := by
  refine Moves.base h ?_ rfl rfl fun i => ⟨hf i, i.complete, i.ready, i.bufs, i.served, hh i, i.holds, i.ring, i.ctxs⟩
  intro x hx; cases x <;> first | exact absurd hm hx | rfl

theorem State.modBoot_at {l : List Part} {s t : State} {f : Boot → Boot}
    (hr : t.Inv → (f t.boot).released = true → t.aon.fillComplete = true)
    (hc : t.Inv → (f t.boot).complete = true → (f t.boot).released = true)
    (hk : t.boot.complete = true → (f t.boot).complete = true) (hm : Part.boot ∈ l) (h : s.Moves l t) :
    s.Moves l (t.modBoot f) := by
  refine Moves.base h ?_ rfl rfl fun i => ⟨hr i, hc i, ⟨fun r => hk (i.ready.1 r), fun r => hk (i.ready.2 r)⟩, i.bufs, i.served,
    i.therms, i.holds, i.ring, i.ctxs⟩
  intro x hx; cases x <;> first | exact absurd hm hx | rfl

theorem State.modBook_any {l : List Part} {s t : State} {f : Recorder → Recorder}
    (hf : (f t.book).held.length ≤ 1024) (hr : t.book.ring.length ≤ 16384 → (f t.book).ring.length ≤ 16384) (hm : Part.book ∈ l)
    (h : s.Moves l t) : s.Moves l (t.modBook f) := by
  refine Moves.base h ?_ rfl rfl fun i => ⟨i.filled, i.complete, i.ready, i.bufs, i.served, i.therms, hf, hr i.ring, i.ctxs⟩
  intro x hx; cases x <;> first | exact absurd hm hx | rfl

/-- Each entry of a canonical list but the first is above the first. -/
theorem bufWf_cons {a : Nat} {b : Byte} {r : List Host.Cell} :
    bufWf ((a, b) :: r) = true ↔ b ≠ 0 ∧ (∀ x ∈ r.head?, a < x.1) ∧ bufWf r = true := by
  cases r with
  | nil => simp [bufWf]
  | cons q r => obtain ⟨c, d⟩ := q; simp [bufWf, and_assoc]

theorem bufPut_head (l : List Host.Cell) (x : Nat) (v : Byte) (n : Nat) (hx : n < x) (hl : ∀ q ∈ l.head?, n < q.1) (hw : bufWf l = true) :
    ∀ q ∈ (bufPut l x v).head?, n < q.1 := by
  intro q hq
  cases l with
  | nil => unfold bufPut at hq; split at hq <;> simp at hq; subst hq; exact hx
  | cons y r =>
    obtain ⟨a, b⟩ := y
    have ha : n < a := hl _ rfl
    rw [bufWf_cons] at hw
    unfold bufPut at hq
    split at hq
    · split at hq <;> simp at hq <;> subst hq <;> assumption
    · split at hq
      · split at hq
        · exact Nat.lt_trans ha (hw.2.1 q hq)
        · simp at hq; subst hq; exact hx
      · simp at hq; subst hq; exact ha

theorem bufPut_wf (l : List Host.Cell) (x : Nat) (v : Byte) (h : bufWf l = true) : bufWf (bufPut l x v) = true := by
  induction l with
  | nil =>
    unfold bufPut; split
    · rfl
    · rename_i hv; simpa [bufWf] using hv
  | cons y r ih =>
    obtain ⟨a, b⟩ := y
    have w := h
    rw [bufWf_cons] at h
    obtain ⟨hb, hh, hr⟩ := h
    unfold bufPut
    split
    · split
      · exact w
      · rename_i hx hv
        rw [bufWf_cons]; exact ⟨hv, fun q hq => by simp at hq; subst hq; exact hx, w⟩
    · split
      · rename_i hx; subst hx
        split
        · exact hr
        · rename_i hv; rw [bufWf_cons]; exact ⟨hv, hh, hr⟩
      · rw [bufWf_cons]; exact ⟨hb, bufPut_head r x v a (by omega) hh hr, ih hr⟩

theorem bufWrite_wf (bs : List Byte) (l : List Host.Cell) (off : Nat) (h : bufWf l = true) : bufWf (bufWrite l off bs) = true := by
  induction bs generalizing l off with
  | nil => exact h
  | cons b bs ih => exact ih _ _ (bufPut_wf l off b h)

theorem State.modPort_at {l : List Part} {s t : State} {p : PortId} {f : Port → Port}
    (hf : t.Inv → (f (t.port p)).servedTrained) (hm : Part.ports ∈ l) (h : s.Moves l t) :
    s.Moves l (t.modPort p f) := by
  refine Moves.base h ?_ rfl rfl fun i => ⟨i.filled, i.complete, i.ready, i.bufs, ?_, i.therms, i.holds, i.ring, i.ctxs⟩
  · intro x hx; cases x <;> first | exact absurd hm hx | rfl
  · intro q
    show (upd t.ports p f)[q].servedTrained
    rw [upd_get]
    split
    · rename_i e; subst e; exact hf i
    · exact i.served q

end Sys2Proof.Machine
end

