-- ==== Sys2Proof/Laws/Clock.lean ====
section
/-! SUPPORT. What each operation and each command of Machine/Clock.lean can do to the state. -/

namespace Sys2Proof.Machine

theorem State.at__moves (t) (s) : State.Moves [.now] s (State.at_ s t) := by
  refine ⟨?_, Nat.le_max_left _ _, List.suffix_refl _, fun i => ⟨i.filled, i.complete, i.ready, i.bufs, i.served, i.therms, i.holds, i.ring, i.ctxs⟩⟩
  intro x hx; cases x <;> first | exact absurd (by decide) hx | rfl

theorem State.idle_moves (s) : State.Moves [.now] s (State.idle s) := by
  refine ⟨?_, Nat.le_add_right _ _, List.suffix_refl _, fun i => ⟨i.filled, i.complete, i.ready, i.bufs, i.served, i.therms, i.holds, i.ring, i.ctxs⟩⟩
  intro x hx; cases x <;> first | exact absurd (by decide) hx | rfl

end Sys2Proof.Machine
end

