-- ==== Sys2Proof/Laws/Ops.lean ====
section
/-! SUPPORT. What each operation and each command of Machine/Ops.lean can do to the state. -/

namespace Sys2Proof.Machine

theorem State.emitOut_moves (o) (s) : State.Moves [.out] s (State.emitOut o s) := by
  refine ⟨?_, Nat.le_refl _, ⟨[o], rfl⟩, fun i => ⟨i.filled, i.complete, i.ready, i.bufs, i.served, i.therms, i.holds, i.ring, i.ctxs⟩⟩
  intro x hx; cases x <;> first | exact absurd (by decide) hx | rfl

theorem State.modPair_moves (a0) (s) : State.Moves [.pair] s (State.modPair a0 s) := by
  unfold State.modPair
  repeat' (first
    | (refine Moves.base (u := s) (by with_reducible first | exact Moves.refl _ _ | assumption) ?_ rfl rfl fun h => ⟨h.filled, h.complete, h.ready, h.bufs, h.served, h.therms, h.holds, h.ring, h.ctxs⟩; intro x hx; cases x <;> first | exact absurd (by decide) hx | (unfold State.same; with_reducible rfl)))

theorem State.modAcal_moves (a0) (a1) (s) : State.Moves [.actCals] s (State.modAcal a0 a1 s) := by
  unfold State.modAcal
  repeat' (first
    | (refine Moves.base (u := s) (by with_reducible first | exact Moves.refl _ _ | assumption) ?_ rfl rfl fun h => ⟨h.filled, h.complete, h.ready, h.bufs, h.served, h.therms, h.holds, h.ring, h.ctxs⟩; intro x hx; cases x <;> first | exact absurd (by decide) hx | (unfold State.same; with_reducible rfl)))

theorem State.emit_moves (a0 : Nat) (a1) (a2) (a3) (s) : State.Moves [.aon, .book] s (State.emit a0 a1 a2 a3 s) := by
  unfold State.emit
  extract_lets e
  split
  · split
    · exact State.modBook_moves (fun _ => ⟨rfl, rfl⟩) (by decide) (Moves.refl _ _)
    · split
      · refine Moves.base (Moves.refl _ s) ?_ rfl rfl fun i => ⟨i.filled, i.complete, i.ready, i.bufs, i.served, i.therms, ?_, i.ring, i.ctxs⟩
        · intro x hx; cases x <;> first | exact absurd (by decide) hx | rfl
        · show (s.book.held ++ _).length ≤ 1024
          rw [List.length_append]; simp only [List.length_singleton]; omega
      · exact State.modBook_moves (fun _ => ⟨rfl, rfl⟩) (by decide) (Moves.refl _ _)
  · split
    · split
      · refine Moves.base (Moves.refl _ s) ?_ rfl rfl fun i => ⟨i.filled, i.complete, i.ready, i.bufs, i.served, ?_, i.holds, i.ring, i.ctxs⟩
        · intro x hx; cases x <;> first | exact absurd (by decide) hx | rfl
        · show (s.aon.held ++ _).length ≤ 16
          rw [List.length_append]; simp only [List.length_singleton]; omega
      · exact State.modAon_moves (fun _ => ⟨rfl, rfl⟩) (by decide) (Moves.refl _ _)
    · exact Moves.refl _ _

theorem State.raiseCal_moves (a0) (a1) (a2) (s) : State.Moves [.aon, .book, .actCals] s (State.raiseCal a0 a1 a2 s) := by
  unfold State.raiseCal
  repeat' (first
    | with_reducible exact Moves.refl _ _
    | ((with_reducible apply Moves.op (State.emit_moves _ _ _ _ _)); decide)
    | ((with_reducible apply Moves.op (State.modAcal_moves _ _ _)); decide))

theorem State.modXing_moves (a0) (s) : State.Moves [.xing] s (State.modXing a0 s) := by
  unfold State.modXing
  repeat' (first
    | (refine Moves.base (u := s) (by with_reducible first | exact Moves.refl _ _ | assumption) ?_ rfl rfl fun h => ⟨h.filled, h.complete, h.ready, h.bufs, h.served, h.therms, h.holds, h.ring, h.ctxs⟩; intro x hx; cases x <;> first | exact absurd (by decide) hx | (unfold State.same; with_reducible rfl)))

theorem State.modSpin_moves (a0) (a1) (s) : State.Moves [.spins] s (State.modSpin a0 a1 s) := by
  unfold State.modSpin
  repeat' (first
    | (refine Moves.base (u := s) (by with_reducible first | exact Moves.refl _ _ | assumption) ?_ rfl rfl fun h => ⟨h.filled, h.complete, h.ready, h.bufs, h.served, h.therms, h.holds, h.ring, h.ctxs⟩; intro x hx; cases x <;> first | exact absurd (by decide) hx | (unfold State.same; with_reducible rfl)))

theorem State.modSeq_moves (a0) (a1) (s) : State.Moves [.seqs] s (State.modSeq a0 a1 s) := by
  unfold State.modSeq
  repeat' (first
    | (refine Moves.base (u := s) (by with_reducible first | exact Moves.refl _ _ | assumption) ?_ rfl rfl fun h => ⟨h.filled, h.complete, h.ready, h.bufs, h.served, h.therms, h.holds, h.ring, h.ctxs⟩; intro x hx; cases x <;> first | exact absurd (by decide) hx | (unfold State.same; with_reducible rfl)))

theorem State.modEng_moves (a0) (a1) (s) : State.Moves [.chorus] s (State.modEng a0 a1 s) := by
  unfold State.modEng
  repeat' (first
    | (extract_lets +onlyGivenNames v; subst v)
    | (refine Moves.base (u := s) (by with_reducible first | exact Moves.refl _ _ | assumption) ?_ rfl rfl fun h => ⟨h.filled, h.complete, h.ready, h.bufs, h.served, h.therms, h.holds, h.ring, h.ctxs⟩; intro x hx; cases x <;> first | exact absurd (by decide) hx | (unfold State.same; with_reducible rfl)))

theorem State.modAct_moves (a0) (a1) (s) : State.Moves [.acts] s (State.modAct a0 a1 s) := by
  unfold State.modAct
  repeat' (first
    | (refine Moves.base (u := s) (by with_reducible first | exact Moves.refl _ _ | assumption) ?_ rfl rfl fun h => ⟨h.filled, h.complete, h.ready, h.bufs, h.served, h.therms, h.holds, h.ring, h.ctxs⟩; intro x hx; cases x <;> first | exact absurd (by decide) hx | (unfold State.same; with_reducible rfl)))

theorem State.modChorus_moves (a0) (s) : State.Moves [.chorus] s (State.modChorus a0 s) := by
  unfold State.modChorus
  repeat' (first
    | (refine Moves.base (u := s) (by with_reducible first | exact Moves.refl _ _ | assumption) ?_ rfl rfl fun h => ⟨h.filled, h.complete, h.ready, h.bufs, h.served, h.therms, h.holds, h.ring, h.ctxs⟩; intro x hx; cases x <;> first | exact absurd (by decide) hx | (unfold State.same; with_reducible rfl)))

theorem State.modProt_moves (a0) (s) : State.Moves [.prot] s (State.modProt a0 s) := by
  unfold State.modProt
  repeat' (first
    | (refine Moves.base (u := s) (by with_reducible first | exact Moves.refl _ _ | assumption) ?_ rfl rfl fun h => ⟨h.filled, h.complete, h.ready, h.bufs, h.served, h.therms, h.holds, h.ring, h.ctxs⟩; intro x hx; cases x <;> first | exact absurd (by decide) hx | (unfold State.same; with_reducible rfl)))

theorem State.modMem_moves (a0) (s) : State.Moves [.mem] s (State.modMem a0 s) := by
  unfold State.modMem
  repeat' (first
    | (refine Moves.base (u := s) (by with_reducible first | exact Moves.refl _ _ | assumption) ?_ rfl rfl fun h => ⟨h.filled, h.complete, h.ready, h.bufs, h.served, h.therms, h.holds, h.ring, h.ctxs⟩; intro x hx; cases x <;> first | exact absurd (by decide) hx | (unfold State.same; with_reducible rfl)))

theorem State.modTherm_moves (a0) (s) : State.Moves [.therm] s (State.modTherm a0 s) := by
  unfold State.modTherm
  repeat' (first
    | (refine Moves.base (u := s) (by with_reducible first | exact Moves.refl _ _ | assumption) ?_ rfl rfl fun h => ⟨h.filled, h.complete, h.ready, h.bufs, h.served, h.therms, h.holds, h.ring, h.ctxs⟩; intro x hx; cases x <;> first | exact absurd (by decide) hx | (unfold State.same; with_reducible rfl)))

theorem State.modCache_moves (a0) (s) : State.Moves [.mcache] s (State.modCache a0 s) := by
  unfold State.modCache
  repeat' (first
    | (refine Moves.base (u := s) (by with_reducible first | exact Moves.refl _ _ | assumption) ?_ rfl rfl fun h => ⟨h.filled, h.complete, h.ready, h.bufs, h.served, h.therms, h.holds, h.ring, h.ctxs⟩; intro x hx; cases x <;> first | exact absurd (by decide) hx | (unfold State.same; with_reducible rfl)))

theorem State.modPower_moves (a0) (s) : State.Moves [.power] s (State.modPower a0 s) := by
  unfold State.modPower
  repeat' (first
    | (refine Moves.base (u := s) (by with_reducible first | exact Moves.refl _ _ | assumption) ?_ rfl rfl fun h => ⟨h.filled, h.complete, h.ready, h.bufs, h.served, h.therms, h.holds, h.ring, h.ctxs⟩; intro x hx; cases x <;> first | exact absurd (by decide) hx | (unfold State.same; with_reducible rfl)))

theorem State.modNames_moves (a0) (s) : State.Moves [.names] s (State.modNames a0 s) := by
  unfold State.modNames
  repeat' (first
    | (refine Moves.base (u := s) (by with_reducible first | exact Moves.refl _ _ | assumption) ?_ rfl rfl fun h => ⟨h.filled, h.complete, h.ready, h.bufs, h.served, h.therms, h.holds, h.ring, h.ctxs⟩; intro x hx; cases x <;> first | exact absurd (by decide) hx | (unfold State.same; with_reducible rfl)))

theorem State.modPool_moves (a0) (a1) (s) : State.Moves [.chorus] s (State.modPool a0 a1 s) := by
  unfold State.modPool
  repeat' (first
    | (extract_lets +onlyGivenNames v; subst v)
    | (refine Moves.base (u := s) (by with_reducible first | exact Moves.refl _ _ | assumption) ?_ rfl rfl fun h => ⟨h.filled, h.complete, h.ready, h.bufs, h.served, h.therms, h.holds, h.ring, h.ctxs⟩; intro x hx; cases x <;> first | exact absurd (by decide) hx | (unfold State.same; with_reducible rfl)))

theorem State.modMember_moves (a0) (a1) (s) : State.Moves [.prot] s (State.modMember a0 a1 s) := by
  unfold State.modMember
  repeat' (first
    | (extract_lets +onlyGivenNames v; subst v)
    | (refine Moves.base (u := s) (by with_reducible first | exact Moves.refl _ _ | assumption) ?_ rfl rfl fun h => ⟨h.filled, h.complete, h.ready, h.bufs, h.served, h.therms, h.holds, h.ring, h.ctxs⟩; intro x hx; cases x <;> first | exact absurd (by decide) hx | (unfold State.same; with_reducible rfl)))

theorem State.modCfg_moves (a0) (s) : State.Moves [.nor] s (State.modCfg a0 s) := by
  unfold State.modCfg
  repeat' (first
    | (extract_lets +onlyGivenNames v; subst v)
    | (refine Moves.base (u := s) (by with_reducible first | exact Moves.refl _ _ | assumption) ?_ rfl rfl fun h => ⟨h.filled, h.complete, h.ready, h.bufs, h.served, h.therms, h.holds, h.ring, h.ctxs⟩; intro x hx; cases x <;> first | exact absurd (by decide) hx | (unfold State.same; with_reducible rfl)))

theorem State.raiseProt_moves (a0) (a1) (s) : State.Moves [.aon, .book, .prot] s (State.raiseProt a0 a1 s) := by
  unfold State.raiseProt
  repeat' (first
    | with_reducible exact Moves.refl _ _
    | ((with_reducible apply Moves.op (State.emit_moves _ _ _ _ _)); decide)
    | ((with_reducible apply Moves.op (State.modProt_moves _ _)); decide))

theorem State.modIdent_moves (a0) (s) : State.Moves [.ident] s (State.modIdent a0 s) := by
  unfold State.modIdent
  repeat' (first
    | (refine Moves.base (u := s) (by with_reducible first | exact Moves.refl _ _ | assumption) ?_ rfl rfl fun h => ⟨h.filled, h.complete, h.ready, h.bufs, h.served, h.therms, h.holds, h.ring, h.ctxs⟩; intro x hx; cases x <;> first | exact absurd (by decide) hx | (unfold State.same; with_reducible rfl)))

theorem State.raisePort_moves (a0) (a1) (s) : State.Moves [.aon, .book, .ports] s (State.raisePort a0 a1 s) := by
  unfold State.raisePort
  repeat' (first
    | with_reducible exact Moves.refl _ _
    | ((with_reducible apply Moves.op (State.emit_moves _ _ _ _ _)); decide)
    | ((with_reducible apply State.modPort_moves); exact fun _ => ⟨rfl, rfl⟩; decide))

theorem State.raiseMem_moves (a0) (a1) (s) : State.Moves [.aon, .book, .mem] s (State.raiseMem a0 a1 s) := by
  unfold State.raiseMem
  repeat' (first
    | with_reducible exact Moves.refl _ _
    | ((with_reducible apply Moves.op (State.emit_moves _ _ _ _ _)); decide)
    | ((with_reducible apply Moves.op (State.modMem_moves _ _)); decide))

theorem State.raisePool_moves (a0) (s) : State.Moves [.aon, .book, .chorus] s (State.raisePool a0 s) := by
  unfold State.raisePool
  repeat' (first
    | with_reducible exact Moves.refl _ _
    | ((with_reducible apply Moves.op (State.emit_moves _ _ _ _ _)); decide)
    | ((with_reducible apply Moves.op (State.modChorus_moves _ _)); decide))

theorem State.raiseSpin_moves (a0) (a1) (s) : State.Moves [.aon, .book, .spins] s (State.raiseSpin a0 a1 s) := by
  unfold State.raiseSpin
  repeat' (first
    | with_reducible exact Moves.refl _ _
    | ((with_reducible apply Moves.op (State.emit_moves _ _ _ _ _)); decide)
    | ((with_reducible apply Moves.op (State.modSpin_moves _ _ _)); decide))

theorem State.raiseEng_moves (a0) (a1) (s) : State.Moves [.aon, .book, .chorus] s (State.raiseEng a0 a1 s) := by
  unfold State.raiseEng
  repeat' (first
    | with_reducible exact Moves.refl _ _
    | ((with_reducible apply Moves.op (State.emit_moves _ _ _ _ _)); decide)
    | ((with_reducible apply Moves.op (State.modEng_moves _ _ _)); decide))

theorem State.raiseServo_moves (a0) (a1) (s) : State.Moves [.aon, .book, .acts] s (State.raiseServo a0 a1 s) := by
  unfold State.raiseServo
  repeat' (first
    | with_reducible exact Moves.refl _ _
    | ((with_reducible apply Moves.op (State.emit_moves _ _ _ _ _)); decide)
    | ((with_reducible apply Moves.op (State.modAct_moves _ _ _)); decide))

theorem State.modPatch_moves (a0) (s) : State.Moves [.patch] s (State.modPatch a0 s) := by
  unfold State.modPatch
  repeat' (first
    | (refine Moves.base (u := s) (by with_reducible first | exact Moves.refl _ _ | assumption) ?_ rfl rfl fun h => ⟨h.filled, h.complete, h.ready, h.bufs, h.served, h.therms, h.holds, h.ring, h.ctxs⟩; intro x hx; cases x <;> first | exact absurd (by decide) hx | (unfold State.same; with_reducible rfl)))

theorem State.raiseSeq_moves (a0) (a1) (s) : State.Moves [.aon, .book, .seqs] s (State.raiseSeq a0 a1 s) := by
  unfold State.raiseSeq
  repeat' (first
    | with_reducible exact Moves.refl _ _
    | ((with_reducible apply Moves.op (State.emit_moves _ _ _ _ _)); decide)
    | ((with_reducible apply Moves.op (State.modSeq_moves _ _ _)); decide))

theorem State.raiseTherm_moves (a0) (a1) (s) : State.Moves [.aon, .book, .therm] s (State.raiseTherm a0 a1 s) := by
  unfold State.raiseTherm
  repeat' (first
    | with_reducible exact Moves.refl _ _
    | ((with_reducible apply Moves.op (State.emit_moves _ _ _ _ _)); decide)
    | ((with_reducible apply Moves.op (State.modTherm_moves _ _)); decide))

theorem State.modNor_moves (a0) (s) : State.Moves [.nor] s (State.modNor a0 s) := by
  unfold State.modNor
  repeat' (first
    | (refine Moves.base (u := s) (by with_reducible first | exact Moves.refl _ _ | assumption) ?_ rfl rfl fun h => ⟨h.filled, h.complete, h.ready, h.bufs, h.served, h.therms, h.holds, h.ring, h.ctxs⟩; intro x hx; cases x <;> first | exact absurd (by decide) hx | (unfold State.same; with_reducible rfl)))

theorem State.modPcal_moves (a0) (a1) (s) : State.Moves [.portCals] s (State.modPcal a0 a1 s) := by
  unfold State.modPcal
  repeat' (first
    | (refine Moves.base (u := s) (by with_reducible first | exact Moves.refl _ _ | assumption) ?_ rfl rfl fun h => ⟨h.filled, h.complete, h.ready, h.bufs, h.served, h.therms, h.holds, h.ring, h.ctxs⟩; intro x hx; cases x <;> first | exact absurd (by decide) hx | (unfold State.same; with_reducible rfl)))

theorem State.modPins_moves (a0) (s) : State.Moves [.pins] s (State.modPins a0 s) := by
  unfold State.modPins
  repeat' (first
    | (refine Moves.base (u := s) (by with_reducible first | exact Moves.refl _ _ | assumption) ?_ rfl rfl fun h => ⟨h.filled, h.complete, h.ready, h.bufs, h.served, h.therms, h.holds, h.ring, h.ctxs⟩; intro x hx; cases x <;> first | exact absurd (by decide) hx | (unfold State.same; with_reducible rfl)))

theorem State.raiseXing_moves (a0) (s) : State.Moves [.aon, .book, .xing] s (State.raiseXing a0 s) := by
  unfold State.raiseXing
  repeat' (first
    | with_reducible exact Moves.refl _ _
    | ((with_reducible apply Moves.op (State.emit_moves _ _ _ _ _)); decide)
    | ((with_reducible apply Moves.op (State.modXing_moves _ _)); decide))

theorem State.takeFree_moves (s) : State.Moves [.free] s (State.takeFree s) := by
  unfold State.takeFree
  repeat' (first
    | (refine Moves.base (u := s) (by with_reducible first | exact Moves.refl _ _ | assumption) ?_ rfl rfl fun h => ⟨h.filled, h.complete, h.ready, h.bufs, h.served, h.therms, h.holds, h.ring, h.ctxs⟩; intro x hx; cases x <;> first | exact absurd (by decide) hx | (unfold State.same; with_reducible rfl)))

end Sys2Proof.Machine
end

