-- ==== Sys2Proof/Laws/Cmd.lean ====
section
/-! SUPPORT. What each operation and each command of Machine/Cmd.lean can do to the state. -/

namespace Sys2Proof.Machine

/-- No field is at fault exactly when no test holds, whatever the order of the tests. -/
@[simp] theorem firstBad_none (l : List (Bool × Nat × Nat)) : firstBad l = none ↔ ∀ q ∈ l, q.1 = false := by
  unfold firstBad
  split <;> simp_all [List.filter_eq_nil_iff]
  next q r h => exact ⟨q.2.1, q.2.2, by have : q ∈ l.filter Prod.fst := by simp [h]
                                        rw [List.mem_filter] at this; obtain ⟨hq, ht⟩ := this; simpa [← ht] using hq⟩

/-- A field at fault is answered with Invalid Field at one of the places tested. -/
theorem firstBad_some {l : List (Bool × Nat × Nat)} {r : Cpl} (h : firstBad l = some r) :
    ∃ q ∈ l, q.1 = true ∧ r = Cpl.invalid q.2.1 q.2.2 := by
  have pick (q : Bool × Nat × Nat) (t : List (Bool × Nat × Nat)) :
      t.foldl (fun b x => if fieldPlace x < fieldPlace b then x else b) q ∈ q :: t := by
    induction t generalizing q with
    | nil => simp
    | cons x t ih =>
      simp only [List.foldl_cons]
      split
      · exact List.mem_cons_of_mem _ (ih x)
      · rcases List.mem_cons.mp (ih q) with e | e
        · rw [e]; simp
        · exact List.mem_cons_of_mem _ (List.mem_cons_of_mem _ e)
  unfold firstBad at h
  split at h
  · cases h
  · next q t e =>
    have m := List.mem_filter.mp (e ▸ pick q t)
    exact ⟨_, m.1, m.2, (Option.some.inj h).symm⟩

theorem State.dropCtx_moves (c) (s) : State.Moves [.ctxs] s (State.dropCtx c s) := by
  refine Moves.base (Moves.refl _ s) ?_ rfl rfl fun i => ⟨i.filled, i.complete, i.ready, i.bufs, i.served, i.therms, i.holds, i.ring, ?_⟩
  · intro x hx; cases x <;> first | exact absurd (by decide) hx | rfl
  · exact ⟨List.Nodup.sublist (List.Sublist.map _ List.filter_sublist) i.ctxs.1, fun x hx => i.ctxs.2 x (List.mem_filter.mp hx).1⟩

theorem State.sendWings_moves (a0) (a1) (a2) (s) : State.Moves [.pair, .out] s (State.sendWings a0 a1 a2 s) := by
  unfold State.sendWings
  repeat' (first
    | with_reducible exact Moves.refl _ _
    | ((with_reducible apply Moves.op (State.emitOut_moves _ _)); decide)
    | ((with_reducible apply Moves.op (State.modPair_moves _ _)); decide))

theorem State.complete_moves (a0) (a1) (s) : State.Moves [.ctxs, .decisions, .pair, .svc, .out] s (State.complete a0 a1 s) := by
  unfold State.complete
  repeat' (first
    | with_reducible exact Moves.refl _ _
    | ((with_reducible apply Moves.op (State.dropCtx_moves _ _)); decide)
    | ((with_reducible apply Moves.op (State.emitOut_moves _ _)); decide)
    | ((with_reducible apply State.modCtx_moves); exact fun _ _ => rfl; decide)
    | ((with_reducible apply State.modSvc_moves); exact fun _ => ⟨rfl, rfl⟩; decide)
    | ((with_reducible apply Moves.op (State.sendWings_moves _ _ _ _)); decide)
    | (extract_lets +onlyGivenNames u; (with_reducible apply Moves.let (u := u)); (intro h; clear_value u); rotate_left; subst u; rotate_right)
    | (extract_lets +onlyGivenNames v; subst v)
    | split
    | (refine Moves.base (u := u) (by with_reducible first | exact Moves.refl _ _ | assumption) ?_ rfl rfl fun h => ⟨h.filled, h.complete, h.ready, h.bufs, h.served, h.therms, h.holds, h.ring, h.ctxs⟩; intro x hx; cases x <;> first | exact absurd (by decide) hx | (unfold State.same; with_reducible rfl)))

theorem State.sendKept_moves (a0) (a1) (a2) (a3) (a4) (a5) (a6) (s) : State.Moves [.pair, .out] s (State.sendKept a0 a1 a2 a3 a4 a5 a6 s) := by
  unfold State.sendKept
  repeat' (first
    | with_reducible exact Moves.refl _ _
    | ((with_reducible apply Moves.op (State.modPair_moves _ _)); decide)
    | ((with_reducible apply Moves.op (State.sendWings_moves _ _ _ _)); decide))

theorem State.completeWait_moves (a0) (s) : State.Moves [.ctxs, .decisions, .pair, .svc, .out] s (State.completeWait a0 s) := by
  unfold State.completeWait
  repeat' (first
    | (with_reducible intro)
    | with_reducible exact Moves.refl _ _
    | with_reducible assumption
    | ((with_reducible apply Moves.op (State.complete_moves _ _ _)); decide)
    | with_reducible apply Moves.each)

theorem State.await_moves (a0) (a1) (s) : State.Moves [.ctxs] s (State.await a0 a1 s) := by
  unfold State.await
  repeat' (first
    | with_reducible exact Moves.refl _ _
    | ((with_reducible apply State.modCtx_moves); exact fun _ _ => rfl; decide))

theorem State.askMedia_moves (a0) (a1) (a2) (a3) (s) : State.Moves [.pair, .out] s (State.askMedia a0 a1 a2 a3 s) := by
  unfold State.askMedia
  repeat' (first
    | with_reducible exact Moves.refl _ _
    | ((with_reducible apply Moves.op (State.sendKept_moves _ _ _ _ _ _ _ _)); decide))

theorem State.wake_moves (s) : State.Moves [.mem] s (State.wake s) := by
  unfold State.wake
  repeat' (first
    | (with_reducible intro)
    | with_reducible exact Moves.refl _ _
    | with_reducible assumption
    | ((with_reducible apply Moves.op (State.modMem_moves _ _)); decide)
    | with_reducible apply Moves.ite
    | with_reducible apply Moves.when
    | (extract_lets +onlyGivenNames u; (with_reducible apply Moves.let (u := u)); (intro h; clear_value u); rotate_left; subst u; rotate_right)
    | (extract_lets +onlyGivenNames v; subst v)
    | split)

end Sys2Proof.Machine
end

