-- ==== Sys2Proof/Laws/NorBus.lean ====
section
/-! SUPPORT. What each operation of Machine/NorBus.lean can do to the state. -/

namespace Sys2Proof.Machine

theorem State.norRun_moves (a0) (s) : State.Moves [.boot] s (State.norRun a0 s) := by
  unfold State.norRun
  repeat' (first
    | (with_reducible intro)
    | with_reducible exact Moves.refl _ _
    | with_reducible assumption
    | ((with_reducible apply State.modBoot_moves); exact fun _ => ⟨rfl, rfl⟩; decide)
    | with_reducible apply Moves.ite
    | with_reducible apply Moves.when
    | (extract_lets +onlyGivenNames u; (with_reducible apply Moves.let (u := u)); (intro h; clear_value u); rotate_left; subst u; rotate_right)
    | (extract_lets +onlyGivenNames v; subst v)
    | split)

theorem State.norRead_moves (a0) (a1) (a2) (s) : State.Moves [.boot] s (State.norRead a0 a1 a2 s) := by
  unfold State.norRead
  repeat' (first
    | (with_reducible intro)
    | with_reducible exact Moves.refl _ _
    | with_reducible assumption
    | ((with_reducible apply Moves.op (State.norRun_moves _ _)); decide)
    | with_reducible apply Moves.ite
    | with_reducible apply Moves.when
    | (extract_lets +onlyGivenNames u; (with_reducible apply Moves.let (u := u)); (intro h; clear_value u); rotate_left; subst u; rotate_right)
    | (extract_lets +onlyGivenNames v; subst v)
    | split)

theorem State.norProgram_moves (a0) (a1) (a2) (s) : State.Moves [.boot] s (State.norProgram a0 a1 a2 s) := by
  unfold State.norProgram
  repeat' (first
    | (with_reducible intro)
    | with_reducible exact Moves.refl _ _
    | with_reducible assumption
    | ((with_reducible apply Moves.op (State.norRun_moves _ _)); decide)
    | with_reducible apply Moves.ite
    | with_reducible apply Moves.when
    | (extract_lets +onlyGivenNames u; (with_reducible apply Moves.let (u := u)); (intro h; clear_value u); rotate_left; subst u; rotate_right)
    | (extract_lets +onlyGivenNames v; subst v)
    | split)

theorem State.norErase_moves (a0) (a1) (a2) (s) : State.Moves [.boot] s (State.norErase a0 a1 a2 s) := by
  unfold State.norErase
  repeat' (first
    | (with_reducible intro)
    | with_reducible exact Moves.refl _ _
    | with_reducible assumption
    | ((with_reducible apply Moves.op (State.norRun_moves _ _)); decide)
    | with_reducible apply Moves.ite
    | with_reducible apply Moves.when
    | (extract_lets +onlyGivenNames u; (with_reducible apply Moves.let (u := u)); (intro h; clear_value u); rotate_left; subst u; rotate_right)
    | (extract_lets +onlyGivenNames v; subst v)
    | split)

theorem State.norStart_moves (s) : State.Moves [.boot] s (State.norStart s) := by
  unfold State.norStart
  repeat' (first
    | (with_reducible intro)
    | with_reducible exact Moves.refl _ _
    | with_reducible assumption
    | ((with_reducible apply State.modBoot_moves); exact fun _ => ⟨rfl, rfl⟩; decide)
    | ((with_reducible apply Moves.op (State.norRun_moves _ _)); decide)
    | with_reducible apply Moves.ite
    | with_reducible apply Moves.when
    | (extract_lets +onlyGivenNames u; (with_reducible apply Moves.let (u := u)); (intro h; clear_value u); rotate_left; subst u; rotate_right)
    | (extract_lets +onlyGivenNames v; subst v)
    | split)

theorem State.writeDir_moves (a0) (s) : State.Moves [.boot, .nor] s (State.writeDir a0 s) := by
  unfold State.writeDir
  repeat' (first
    | (with_reducible intro)
    | with_reducible exact Moves.refl _ _
    | with_reducible assumption
    | ((with_reducible apply Moves.op (State.modNor_moves _ _)); decide)
    | ((with_reducible apply Moves.op (State.norErase_moves _ _ _ _)); decide)
    | ((with_reducible apply Moves.op (State.norProgram_moves _ _ _ _)); decide)
    | with_reducible apply Moves.ite
    | with_reducible apply Moves.when
    | (extract_lets +onlyGivenNames u; (with_reducible apply Moves.let (u := u)); (intro h; clear_value u); rotate_left; subst u; rotate_right)
    | (extract_lets +onlyGivenNames v; subst v)
    | split)

/-! ## The boot directory (spec/02 R72) -/

@[simp] theorem BootDir.seal_sequence (d : BootDir) : d.seal.sequence = d.sequence := rfl
@[simp] theorem BootDir.seal_preferred (d : BootDir) : d.seal.preferred = d.preferred := rfl
@[simp] theorem BootDir.seal_stateOf (d : BootDir) (k : Bool) : d.seal.stateOf k = d.stateOf k := rfl
@[simp] theorem BootDir.seal_attemptsOf (d : BootDir) (k : Bool) : d.seal.attemptsOf k = d.attemptsOf k := rfl
@[simp] theorem BootDir.seal_candidate (d : BootDir) : d.seal.candidate = d.candidate := rfl

/-- A sealed copy counts. -/
@[simp] theorem BootDir.seal_valid (d : BootDir) : d.seal.valid = true := by
  simp only [BootDir.valid, BootDir.seal, beq_self_eq_true, Bool.true_and]
  exact beq_iff_eq.mpr rfl

/-- What is written is in use afterwards, while the sequence number does not wrap. -/
theorem Nor.dir_writeDir (f : BootDir → BootDir) (n : Nor) (h : n.dir.sequence.toNat + 1 < 2 ^ 32) :
    (n.writeDir f).dir = ({ f n.dir with sequence := n.dir.sequence + 1 } : BootDir).seal := by
  have e : (n.dir.sequence + 1#32).toNat = n.dir.sequence.toNat + 1 := by
    rw [BitVec.toNat_add]; exact Nat.mod_eq_of_lt h
  revert e
  generalize hd : n.dir = d
  rw [hd] at h
  intro e
  unfold Nor.writeDir Nor.dirTarget
  simp only [hd]
  unfold Nor.dir Nor.dirCopy at hd
  cases h0 : n.dirs[0].valid <;> cases h1 : n.dirs[1].valid <;> simp only [h0, h1] at hd <;>
    simp only [Nor.dirCopy, h0, h1]
  · simp [Nor.dir, Nor.dirCopy, h1]
  · subst hd
    simp [Nor.dir, Nor.dirCopy, h1, e, -BitVec.toNat_add, Nat.not_lt_of_lt (Nat.lt_succ_self _)]
  · subst hd
    simp [Nor.dir, Nor.dirCopy, h0, e, -BitVec.toNat_add]
  · by_cases g : n.dirs[0].sequence.toNat < n.dirs[1].sequence.toNat
    · simp only [g, decide_true] at hd ⊢
      subst hd
      simp [Nor.dir, Nor.dirCopy, h1, e, -BitVec.toNat_add, Nat.not_lt_of_lt (Nat.lt_succ_self _)]
    · simp only [g, decide_false] at hd ⊢
      subst hd
      simp [Nor.dir, Nor.dirCopy, h0, e, -BitVec.toNat_add]

end Sys2Proof.Machine
end

