-- ==== Sys2Proof/Laws/SystemBands.lean ====
section
/-! SUPPORT. What each operation of Machine/SystemBands.lean can do to the state. -/

namespace Sys2Proof.Machine

theorem State.record_moves (a0) (s) : State.Moves [.prot] s (State.record a0 s) := by
  unfold State.record
  repeat' (first
    | (with_reducible intro)
    | with_reducible exact Moves.refl _ _
    | with_reducible assumption
    | ((with_reducible apply Moves.op (State.modProt_moves _ _)); decide)
    | with_reducible apply Moves.ite
    | with_reducible apply Moves.when
    | (extract_lets +onlyGivenNames u; (with_reducible apply Moves.let (u := u)); (intro h; clear_value u); rotate_left; subst u; rotate_right)
    | (extract_lets +onlyGivenNames v; subst v)
    | split)

theorem State.recordMembers_moves (s) : State.Moves [.prot] s (State.recordMembers s) := by
  unfold State.recordMembers
  repeat' (first
    | (with_reducible intro)
    | with_reducible exact Moves.refl _ _
    | with_reducible assumption
    | ((with_reducible apply Moves.op (State.record_moves _ _)); decide)
    | with_reducible apply Moves.ite
    | with_reducible apply Moves.when
    | (extract_lets +onlyGivenNames u; (with_reducible apply Moves.let (u := u)); (intro h; clear_value u); rotate_left; subst u; rotate_right)
    | (extract_lets +onlyGivenNames v; subst v)
    | split)

theorem State.recordGroups_moves (s) : State.Moves [.prot] s (State.recordGroups s) := by
  unfold State.recordGroups
  repeat' (first
    | (with_reducible intro)
    | with_reducible exact Moves.refl _ _
    | with_reducible assumption
    | ((with_reducible apply Moves.op (State.record_moves _ _)); decide)
    | with_reducible apply Moves.ite
    | with_reducible apply Moves.when
    | (extract_lets +onlyGivenNames u; (with_reducible apply Moves.let (u := u)); (intro h; clear_value u); rotate_left; subst u; rotate_right)
    | (extract_lets +onlyGivenNames v; subst v)
    | split)

theorem State.recordExceptions_moves (s) : State.Moves [.prot] s (State.recordExceptions s) := by
  unfold State.recordExceptions
  repeat' (first
    | (with_reducible intro)
    | with_reducible exact Moves.refl _ _
    | with_reducible assumption
    | ((with_reducible apply Moves.op (State.record_moves _ _)); decide)
    | with_reducible apply Moves.ite
    | with_reducible apply Moves.when
    | (extract_lets +onlyGivenNames u; (with_reducible apply Moves.let (u := u)); (intro h; clear_value u); rotate_left; subst u; rotate_right)
    | (extract_lets +onlyGivenNames v; subst v)
    | split)

theorem State.recordDefects_moves (s) : State.Moves [.prot] s (State.recordDefects s) := by
  unfold State.recordDefects
  repeat' (first
    | (with_reducible intro)
    | with_reducible exact Moves.refl _ _
    | with_reducible assumption
    | ((with_reducible apply Moves.op (State.record_moves _ _)); decide)
    | with_reducible apply Moves.ite
    | with_reducible apply Moves.when
    | (extract_lets +onlyGivenNames u; (with_reducible apply Moves.let (u := u)); (intro h; clear_value u); rotate_left; subst u; rotate_right)
    | (extract_lets +onlyGivenNames v; subst v)
    | split)

end Sys2Proof.Machine
end

