-- ==== Sys2Proof/Laws/Resets.lean ====
section
/-! SUPPORT. What each operation and each command of Machine/Resets.lean can do to the state. -/

namespace Sys2Proof.Machine

theorem State.setStep_moves (a0) (s) : State.Moves [.aon] s (State.setStep a0 s) := by
  unfold State.setStep
  repeat' (first
    | with_reducible exact Moves.refl _ _
    | ((with_reducible apply State.modAon_moves); exact fun _ => ⟨rfl, rfl⟩; decide))

theorem State.bootError_moves (a0) (s) : State.Moves [.aon, .fa, .fb] s (State.bootError a0 s) := by
  unfold State.bootError
  repeat' (first
    | with_reducible exact Moves.refl _ _
    | ((with_reducible apply State.modAon_moves); exact fun _ => ⟨rfl, rfl⟩; decide)
    | (extract_lets +onlyGivenNames u; (with_reducible apply Moves.let (u := u)); (intro h; clear_value u); rotate_left; subst u; rotate_right)
    | (extract_lets +onlyGivenNames v; subst v)
    | (refine Moves.base (u := u) (by with_reducible first | exact Moves.refl _ _ | assumption) ?_ rfl rfl fun h => ⟨h.filled, h.complete, h.ready, h.bufs, h.served, h.therms, h.holds, h.ring, h.ctxs⟩; intro x hx; cases x <;> first | exact absurd (by decide) hx | (unfold State.same; with_reducible rfl)))

theorem State.clearMain_moves (s) : State.Moves Part.cleared s (State.clearMain s) := by
  refine Moves.base (Moves.refl _ s) ?_ rfl rfl fun i => ⟨fun h => absurd (show false = true from h) (by decide), fun h => absurd (show false = true from h) (by decide),
    ⟨fun h => absurd (show false = true from h) (by decide), fun h => absurd (show false = true from h) (by decide)⟩, ⟨rfl, rfl, rfl, rfl⟩, fun p h => ?_, i.therms, Nat.zero_le _, Nat.zero_le _, ?_⟩
  · intro x hx; cases x <;> first | exact absurd (by decide) hx | rfl
  · have e : (State.clearMain s).ports[p].inService = false := by simp [State.clearMain, State.reset, Port.reset]
    rw [e] at h; exact absurd h (by decide)
  · exact ⟨List.nodup_nil, fun x hx => absurd hx (List.not_mem_nil)⟩

theorem State.clearWarm_moves (s) : State.Moves Part.cleared s (State.clearWarm s) := by
  refine Moves.base (Moves.refl _ s) ?_ rfl rfl fun i => ⟨fun h => absurd (show false = true from h) (by decide), fun h => absurd (show false = true from h) (by decide),
    ⟨fun h => absurd (show false = true from h) (by decide), fun h => absurd (show false = true from h) (by decide)⟩, ⟨rfl, rfl, rfl, rfl⟩, fun p h => ?_, i.therms, Nat.zero_le _, i.ring, ?_⟩
  · intro x hx; cases x <;> first | exact absurd (by decide) hx | rfl
  · have e : (State.clearWarm s).ports[p].inService = false := by simp [State.clearWarm, Port.reset]
    rw [e] at h; exact absurd h (by decide)
  · exact ⟨List.nodup_nil, fun x hx => absurd hx (List.not_mem_nil)⟩

theorem State.enterCold_moves (s) : State.Moves (.pins :: .aon :: Part.cleared) s (State.enterCold s) := by
  refine Moves.base (Moves.op (State.clearMain_moves s) (by decide) (Moves.refl _ s)) ?_ rfl rfl fun i => ⟨fun h => absurd (show false = true from h) (by decide), i.complete,
    i.ready, i.bufs, i.served, i.therms, i.holds, i.ring, i.ctxs⟩
  intro x hx; cases x <;> first | exact absurd (by decide) hx | rfl

theorem State.powerOn_moves (s) : State.Moves (.pins :: .aon :: .therm :: Part.cleared) s (State.powerOn s) := by
  refine Moves.base (Moves.op (State.clearMain_moves s) (by decide) (Moves.refl _ s)) ?_ rfl rfl fun i => ⟨fun h => absurd (show false = true from h) (by decide), i.complete,
    i.ready, ⟨rfl, rfl, i.bufs.2.2⟩, i.served, Nat.zero_le _, i.holds, i.ring, i.ctxs⟩
  intro x hx; cases x <;> first | exact absurd (by decide) hx | rfl

theorem State.setCause_moves (a0) (s) : State.Moves [.aon] s (State.setCause a0 s) := by
  unfold State.setCause
  repeat' (first
    | with_reducible exact Moves.refl _ _
    | ((with_reducible apply State.modAon_moves); exact fun _ => ⟨rfl, rfl⟩; decide))

theorem State.sampleStraps_moves (s) : State.Moves [.aon] s (State.sampleStraps s) := by
  unfold State.sampleStraps
  repeat' (first
    | with_reducible exact Moves.refl _ _
    | ((with_reducible apply State.modAon_moves); exact fun _ => ⟨rfl, rfl⟩; decide))

theorem State.releaseReset_moves (s) : State.Moves [.aon] s (State.releaseReset s) := by
  unfold State.releaseReset
  repeat' (first
    | with_reducible exact Moves.refl _ _
    | ((with_reducible apply State.modAon_moves); exact fun _ => ⟨rfl, rfl⟩; decide)
    | ((with_reducible apply Moves.op (State.sampleStraps_moves _)); decide))

theorem State.setCauses_moves (l : List (Fin 12)) (s : State) : State.Moves [.aon] s (l.foldl (fun t c => t.setCause c.val) s) := by
  induction l generalizing s with
  | nil => exact Moves.refl _ _
  | cons c l ih => exact Moves.op (ih _) (by decide) (State.setCause_moves _ _)

theorem State.warmReset_moves (a0) (s) : State.Moves (.pins :: .aon :: .free :: Part.cleared) s (State.warmReset a0 s) := by
  unfold State.warmReset
  extract_lets u valid kept t
  have hu : s.Moves (.pins :: .aon :: .free :: Part.cleared) u := Moves.op (State.setCauses_moves _ _) (by decide) (Moves.refl _ _)
  split
  · exact Moves.op (State.enterCold_moves _) (by decide) hu
  · have ht : s.Moves (.pins :: .aon :: .free :: Part.cleared) t :=
      Moves.op (State.takeFree_moves _) (by decide) (Moves.op (State.clearWarm_moves _) (by decide) hu)
    refine Moves.op (State.releaseReset_moves _) (by decide) (Moves.base ht ?_ rfl rfl
      fun i => ⟨fun h => absurd (show false = true from h) (by decide), i.complete, i.ready, i.bufs, i.served, i.therms, i.holds, i.ring, i.ctxs⟩)
    intro x hx; cases x <;> first | exact absurd (by decide) hx | rfl

theorem State.warmSource_moves (a0) (s) : State.Moves [.pins, .aon, .boot, .nor, .book, .ident, .power, .fa, .fb, .ctxs, .admission, .decisions, .lastShared, .names, .prot, .ports, .spins, .acts, .seqs, .patch, .chorus, .actCals, .portCals, .cal, .mem, .mcache, .xing, .pair, .svc, .free] s (State.warmSource a0 s) := by
  unfold State.warmSource
  repeat' (first
    | with_reducible exact Moves.refl _ _
    | ((with_reducible apply State.modAon_moves); exact fun _ => ⟨rfl, rfl⟩; decide)
    | ((with_reducible apply Moves.op (State.warmReset_moves _ _)); decide)
    | with_reducible apply Moves.ite)

theorem State.discard_moves (s) : State.Moves [.xing] s (State.discard s) := by
  unfold State.discard
  repeat' (first
    | (with_reducible intro)
    | with_reducible exact Moves.refl _ _
    | with_reducible assumption
    | ((with_reducible apply Moves.op (State.modXing_moves _ _)); decide)
    | with_reducible apply Moves.ite
    | with_reducible apply Moves.when
    | (extract_lets +onlyGivenNames u; (with_reducible apply Moves.let (u := u)); (intro h; clear_value u); rotate_left; subst u; rotate_right)
    | (extract_lets +onlyGivenNames v; subst v)
    | split)

theorem State.lostWord_moves (a0) (s) : State.Moves [.xing] s (State.lostWord a0 s) := by
  unfold State.lostWord
  repeat' (first
    | (with_reducible intro)
    | with_reducible exact Moves.refl _ _
    | with_reducible assumption
    | ((with_reducible apply Moves.op (State.discard_moves _)); decide)
    | with_reducible apply Moves.ite
    | with_reducible apply Moves.when
    | (extract_lets +onlyGivenNames u; (with_reducible apply Moves.let (u := u)); (intro h; clear_value u); rotate_left; subst u; rotate_right)
    | (extract_lets +onlyGivenNames v; subst v)
    | split)

end Sys2Proof.Machine
end

