-- ==== Sys2Proof/Laws/Identity.lean ====
section
/-! SUPPORT. What each operation and each command of Machine/Identity.lean can do to the state. -/

namespace Sys2Proof.Machine

theorem State.noteEnded_moves (s) : State.Moves [.aon, .boot] s (State.noteEnded s) := by
  unfold State.noteEnded
  repeat' (first
    | with_reducible exact Moves.refl _ _
    | ((with_reducible apply State.modBoot_moves); exact fun _ => ⟨rfl, rfl⟩; decide)
    | ((with_reducible apply Moves.op (State.setStep_moves _ _)); decide)
    | with_reducible apply Moves.ite)

theorem State.measure_moves (a0) (a1) (s) : State.Moves [.ident] s (State.measure a0 a1 s) := by
  unfold State.measure
  repeat' (first
    | with_reducible exact Moves.refl _ _
    | ((with_reducible apply Moves.op (State.modIdent_moves _ _)); decide))

theorem State.recordCompanion_moves (a0) (a1) (s) : State.Moves [.ports] s (State.recordCompanion a0 a1 s) := by
  unfold State.recordCompanion
  repeat' (first
    | with_reducible exact Moves.refl _ _
    | ((with_reducible apply State.modPort_moves); exact fun _ => ⟨rfl, rfl⟩; decide))

theorem State.runImage_moves (a0) (s) : State.Moves [.boot, .ident] s (State.runImage a0 s) := by
  unfold State.runImage
  repeat' (first
    | with_reducible exact Moves.refl _ _
    | ((with_reducible apply Moves.op (State.measure_moves _ _ _)); decide)
    | ((with_reducible apply State.modBoot_moves); exact fun _ => ⟨rfl, rfl⟩; decide)
    | ((with_reducible apply Moves.op (State.modIdent_moves _ _)); decide))

theorem State.storeRecord_moves (a0) (a1) (a2) (s) : State.Moves [.aon, .boot, .nor, .book, .ident] s (State.storeRecord a0 a1 a2 s) := by
  unfold State.storeRecord
  repeat' (first
    | (with_reducible intro)
    | with_reducible exact Moves.refl _ _
    | with_reducible assumption
    | ((with_reducible apply Moves.op (State.emit_moves _ _ _ _ _)); decide)
    | ((with_reducible apply Moves.op (State.modIdent_moves _ _)); decide)
    | ((with_reducible apply Moves.op (State.modNor_moves _ _)); decide)
    | ((with_reducible apply Moves.op (State.norProgram_moves _ _ _ _)); decide)
    | with_reducible apply Moves.ite
    | with_reducible apply Moves.when
    | (extract_lets +onlyGivenNames u; (with_reducible apply Moves.let (u := u)); (intro h; clear_value u); rotate_left; subst u; rotate_right)
    | (extract_lets +onlyGivenNames v; subst v)
    | split)

theorem execAttestationKeyDerivation_moves (s) : ∃ t, execAttestationKeyDerivation s = .next t ∧ State.Moves [.ident] s t := by
  unfold execAttestationKeyDerivation
  repeat' (first
    | (with_reducible refine ⟨_, rfl, ?_⟩)
    | with_reducible exact Moves.refl _ _
    | ((with_reducible apply Moves.op (State.modIdent_moves _ _)); decide)
    | with_reducible apply Moves.ite)

theorem execModuleLoad_moves (a0) (s) : ∃ t, execModuleLoad a0 s = .next t ∧ State.Moves [.ident] s t := by
  unfold execModuleLoad
  repeat' (first
    | (with_reducible refine ⟨_, rfl, ?_⟩)
    | with_reducible exact Moves.refl _ _
    | ((with_reducible apply Moves.op (State.measure_moves _ _ _)); decide)
    | with_reducible apply Moves.ite)

theorem execNorPreErase_moves (s) : ∃ t, execNorPreErase s = .next t ∧ State.Moves [.boot, .nor] s t := by
  unfold execNorPreErase
  repeat' (first
    | (with_reducible intro)
    | (with_reducible refine ⟨_, rfl, ?_⟩)
    | with_reducible exact Moves.refl _ _
    | with_reducible assumption
    | ((with_reducible apply Moves.op (State.modNor_moves _ _)); decide)
    | ((with_reducible apply Moves.op (State.norErase_moves _ _ _ _)); decide)
    | with_reducible apply Moves.ite
    | with_reducible apply Moves.when
    | (extract_lets +onlyGivenNames u; (with_reducible apply Moves.let (u := u)); (intro h; clear_value u); rotate_left; subst u; rotate_right)
    | (extract_lets +onlyGivenNames v; subst v)
    | (split <;> beta_reduce))

theorem execPlaybillNorRetry_moves (a0) (s) : ∃ t, execPlaybillNorRetry a0 s = .next t ∧ State.Moves [.now, .aon, .boot, .nor, .book, .ident] s t := by
  unfold execPlaybillNorRetry
  repeat' (first
    | (with_reducible intro)
    | (with_reducible refine ⟨_, rfl, ?_⟩)
    | with_reducible exact Moves.refl _ _
    | with_reducible assumption
    | ((with_reducible apply Moves.op (State.at__moves _ _)); decide)
    | ((with_reducible apply Moves.op (State.modIdent_moves _ _)); decide)
    | ((with_reducible apply Moves.op (State.storeRecord_moves _ _ _ _)); decide)
    | with_reducible apply Moves.ite
    | with_reducible apply Moves.when
    | (extract_lets +onlyGivenNames u; (with_reducible apply Moves.let (u := u)); (intro h; clear_value u); rotate_left; subst u; rotate_right)
    | (extract_lets +onlyGivenNames v; subst v)
    | (split <;> beta_reduce))

theorem execPlaybillSeal_moves (a0) (s) : ∃ t, execPlaybillSeal a0 s = .next t ∧ State.Moves [.aon, .boot, .nor, .book, .ident, .ports] s t := by
  unfold execPlaybillSeal
  repeat' (first
    | (with_reducible refine ⟨_, rfl, ?_⟩)
    | (with_reducible intro)
    | with_reducible exact Moves.refl _ _
    | with_reducible assumption
    | ((with_reducible apply Moves.op (State.modIdent_moves _ _)); decide)
    | ((with_reducible apply Moves.op (State.recordCompanion_moves _ _ _)); decide)
    | ((with_reducible apply Moves.op (State.storeRecord_moves _ _ _ _)); decide)
    | with_reducible apply Moves.ite
    | with_reducible apply Moves.each)

theorem State.addDue_moves (a0) (a1) (s) : State.Moves [.ident] s (State.addDue a0 a1 s) := by
  unfold State.addDue
  repeat' (first
    | (with_reducible intro)
    | with_reducible exact Moves.refl _ _
    | with_reducible assumption
    | ((with_reducible apply Moves.op (State.modIdent_moves _ _)); decide)
    | with_reducible apply Moves.ite
    | with_reducible apply Moves.when
    | (extract_lets +onlyGivenNames u; (with_reducible apply Moves.let (u := u)); (intro h; clear_value u); rotate_left; subst u; rotate_right)
    | (extract_lets +onlyGivenNames v; subst v)
    | split)

end Sys2Proof.Machine
end

