-- ==== Sys2Proof/Laws/LongOp.lean ====
section
/-! SUPPORT. What each operation and each command of Machine/LongOp.lean can do to the state. -/

namespace Sys2Proof.Machine

theorem State.modOp_moves (a0) (a1) (s) : State.Moves [.nor] s (State.modOp a0 a1 s) := by
  unfold State.modOp
  repeat' (first
    | with_reducible exact Moves.refl _ _
    | ((with_reducible apply Moves.op (State.modCfg_moves _ _)); decide))

theorem State.endOp_moves (a0) (a1) (a2) (s) : State.Moves [.nor] s (State.endOp a0 a1 a2 s) := by
  unfold State.endOp
  repeat' (first
    | with_reducible exact Moves.refl _ _
    | ((with_reducible apply Moves.op (State.modCfg_moves _ _)); decide))

theorem State.startOp_moves (o) (s) : State.Moves [.nor] s (State.startOp o s).1 := by
  unfold State.startOp
  dsimp only
  exact State.modCfg_moves _ _

theorem State.opPoint_moves (a0) (s) : State.Moves [.nor] s (State.opPoint a0 s) := by
  unfold State.opPoint
  repeat' (first
    | with_reducible exact Moves.refl _ _
    | ((with_reducible apply Moves.op (State.endOp_moves _ _ _ _)); decide)
    | ((with_reducible apply Moves.op (State.modOp_moves _ _ _)); decide)
    | with_reducible apply Moves.ite
    | split)

theorem State.fullPoint_moves (a0) (s) : State.Moves [.nor] s (State.fullPoint a0 s) := by
  unfold State.fullPoint
  repeat' (first
    | (with_reducible intro)
    | with_reducible exact Moves.refl _ _
    | with_reducible assumption
    | ((with_reducible apply Moves.op (State.opPoint_moves _ _)); decide)
    | with_reducible apply Moves.each
    | with_reducible apply Moves.ite
    | with_reducible apply Moves.when
    | (extract_lets +onlyGivenNames u; (with_reducible apply Moves.let (u := u)); (intro h; clear_value u); rotate_left; subst u; rotate_right)
    | (extract_lets +onlyGivenNames v; subst v)
    | split)

end Sys2Proof.Machine
end

