-- ==== Sys2Proof/Laws/Tx.lean ====
section
/-! SUPPORT. What each operation and each command of Machine/Tx.lean can do to the state. -/

namespace Sys2Proof.Machine

theorem State.sendUrgent_moves (a0) (a1) (a2) (s) : State.Moves [.ports] s (State.sendUrgent a0 a1 a2 s) := by
  unfold State.sendUrgent
  repeat' (first
    | with_reducible exact Moves.refl _ _
    | ((with_reducible apply State.modPort_moves); (intro _; (try dsimp only); split <;> exact ⟨rfl, rfl⟩); decide))

theorem State.sendCancel_moves (a0) (a1) (s) : State.Moves [.ports] s (State.sendCancel a0 a1 s) := by
  unfold State.sendCancel
  repeat' (first
    | with_reducible exact Moves.refl _ _
    | ((with_reducible apply Moves.op (State.sendUrgent_moves _ _ _ _)); decide))

theorem State.sendRequest_moves (a0) (a1) (a2) (s) : State.Moves [.ports] s (State.sendRequest a0 a1 a2 s) := by
  unfold State.sendRequest
  repeat' (first
    | with_reducible exact Moves.refl _ _
    | ((with_reducible apply State.modPort_moves); (intro _; (try dsimp only); split <;> exact ⟨rfl, rfl⟩); decide))

theorem State.sendDrive_moves (a0) (a1) (a2) (a3) (a4) (a5) (s) : State.Moves [.ports, .spins] s (State.sendDrive a0 a1 a2 a3 a4 a5 s) := by
  unfold State.sendDrive
  repeat' (first
    | with_reducible exact Moves.refl _ _
    | ((with_reducible apply Moves.op (State.modSpin_moves _ _ _)); decide)
    | ((with_reducible apply Moves.op (State.sendUrgent_moves _ _ _ _)); decide))

theorem State.answered_moves (a0) (a1) (s) : State.Moves [.ports] s (State.answered a0 a1 s) := by
  unfold State.answered
  repeat' (first
    | with_reducible exact Moves.refl _ _
    | ((with_reducible apply State.modPort_moves); exact fun _ => ⟨rfl, rfl⟩; decide))

theorem State.sendPark_moves (a0) (a1) (a2) (s) : State.Moves [.ports] s (State.sendPark a0 a1 a2 s) := by
  unfold State.sendPark
  repeat' (first
    | with_reducible exact Moves.refl _ _
    | ((with_reducible apply Moves.op (State.sendRequest_moves _ _ _ _)); decide))

theorem State.resend_moves (a0) (a1) (a2) (s) : State.Moves [.ports] s (State.resend a0 a1 a2 s) := by
  unfold State.resend
  repeat' (first
    | with_reducible exact Moves.refl _ _
    | ((with_reducible apply State.modPort_moves); exact fun _ => ⟨rfl, rfl⟩; decide))

theorem State.busyRetry_moves (a0) (a1) (a2) (s) : State.Moves [.now, .ports] s (State.busyRetry a0 a1 a2 s) := by
  unfold State.busyRetry
  repeat' (first
    | with_reducible exact Moves.refl _ _
    | ((with_reducible apply Moves.op (State.at__moves _ _)); decide)
    | ((with_reducible apply Moves.op (State.resend_moves _ _ _ _)); decide)
    | split)

theorem State.sendActDrive_moves (a0) (a1) (a2) (a3) (s) : State.Moves [.ports] s (State.sendActDrive a0 a1 a2 a3 s) := by
  unfold State.sendActDrive
  repeat' (first
    | with_reducible exact Moves.refl _ _
    | ((with_reducible apply Moves.op (State.sendUrgent_moves _ _ _ _)); decide))

theorem State.sendPosted_moves (a0) (a1) (a2) (s) : State.Moves [.ports] s (State.sendPosted a0 a1 a2 s) := by
  unfold State.sendPosted
  repeat' (first
    | with_reducible exact Moves.refl _ _
    | ((with_reducible apply State.modPort_moves); (intro _; (try dsimp only); split <;> exact ⟨rfl, rfl⟩); decide))

theorem State.sendGate_moves (a0) (a1) (a2) (a3) (a4) (a5) (s) : State.Moves [.ports] s (State.sendGate a0 a1 a2 a3 a4 a5 s) := by
  unfold State.sendGate
  repeat' (first
    | with_reducible exact Moves.refl _ _
    | ((with_reducible apply Moves.op (State.sendPosted_moves _ _ _ _)); decide))

theorem State.sendRequestUrgent_moves (a0) (a1) (a2) (s) : State.Moves [.ports] s (State.sendRequestUrgent a0 a1 a2 s) := by
  unfold State.sendRequestUrgent
  repeat' (first
    | with_reducible exact Moves.refl _ _
    | ((with_reducible apply State.modPort_moves); (intro _; (try dsimp only); split <;> exact ⟨rfl, rfl⟩); decide))

end Sys2Proof.Machine
end

