-- ==== Sys2Proof/Laws/Ends.lean ====
section
/-! SUPPORT. What each operation and each command of Machine/Ends.lean can do to the state. -/

namespace Sys2Proof.Machine

theorem State.abandonBreak_moves (a0) (s) : State.Moves [.aon, .nor, .book, .ctxs, .decisions, .actCals, .pair, .svc, .out] s (State.abandonBreak a0 s) := by
  unfold State.abandonBreak
  repeat' (first
    | (with_reducible intro)
    | with_reducible exact Moves.refl _ _
    | with_reducible assumption
    | ((with_reducible apply Moves.op (State.complete_moves _ _ _)); decide)
    | ((with_reducible apply Moves.op (State.fullPoint_moves _ _)); decide)
    | ((with_reducible apply Moves.op (State.modAcal_moves _ _ _)); decide)
    | ((with_reducible apply Moves.op (State.raiseCal_moves _ _ _ _)); decide)
    | with_reducible apply Moves.ite
    | with_reducible apply Moves.when
    | (extract_lets +onlyGivenNames u; (with_reducible apply Moves.let (u := u)); (intro h; clear_value u); rotate_left; subst u; rotate_right)
    | (extract_lets +onlyGivenNames v; subst v)
    | split)

theorem State.dropBits_moves (a0) (s) : State.Moves [.ports, .chorus] s (State.dropBits a0 s) := by
  unfold State.dropBits
  repeat' (first
    | (with_reducible intro)
    | with_reducible exact Moves.refl _ _
    | with_reducible assumption
    | ((with_reducible apply Moves.op (State.modPool_moves _ _ _)); decide)
    | ((with_reducible apply State.modPort_moves); exact fun _ => ⟨rfl, rfl⟩; decide)
    | ((with_reducible apply State.modPort_leaves); exact fun _ => rfl; decide)
    | ((with_reducible apply State.modPort_moves); (intro _; (try dsimp only); split <;> exact ⟨rfl, rfl⟩); decide)
    | with_reducible apply Moves.ite
    | with_reducible apply Moves.when
    | (extract_lets +onlyGivenNames u; (with_reducible apply Moves.let (u := u)); (intro h; clear_value u); rotate_left; subst u; rotate_right)
    | (extract_lets +onlyGivenNames v; subst v)
    | split)

theorem State.cancelGates_moves (a0) (a1) (a2) (s) : State.Moves [.ports, .seqs, .chorus] s (State.cancelGates a0 a1 a2 s) := by
  unfold State.cancelGates
  repeat' (first
    | (with_reducible intro)
    | with_reducible exact Moves.refl _ _
    | with_reducible assumption
    | ((with_reducible apply Moves.op (State.dropBits_moves _ _)); decide)
    | ((with_reducible apply Moves.op (State.modSeq_moves _ _ _)); decide)
    | ((with_reducible apply Moves.op (State.sendCancel_moves _ _ _)); decide)
    | with_reducible apply Moves.ite
    | with_reducible apply Moves.when
    | (extract_lets +onlyGivenNames u; (with_reducible apply Moves.let (u := u)); (intro h; clear_value u); rotate_left; subst u; rotate_right)
    | (extract_lets +onlyGivenNames v; subst v)
    | split)

theorem State.idleEncoder_moves (a0) (s) : State.Moves [.ports, .chorus] s (State.idleEncoder a0 s) := by
  unfold State.idleEncoder
  repeat' (first
    | (with_reducible intro)
    | with_reducible exact Moves.refl _ _
    | with_reducible assumption
    | ((with_reducible apply Moves.op (State.dropBits_moves _ _)); decide)
    | ((with_reducible apply Moves.op (State.modPool_moves _ _ _)); decide)
    | with_reducible apply Moves.ite
    | with_reducible apply Moves.when
    | (extract_lets +onlyGivenNames u; (with_reducible apply Moves.let (u := u)); (intro h; clear_value u); rotate_left; subst u; rotate_right)
    | (extract_lets +onlyGivenNames v; subst v)
    | split)

theorem State.noteRequest_moves (a0) (s) : State.Moves [.chorus] s (State.noteRequest a0 s) := by
  unfold State.noteRequest
  repeat' (first
    | with_reducible exact Moves.refl _ _
    | ((with_reducible apply Moves.op (State.modPool_moves _ _ _)); decide))

theorem State.seqToIdle_moves (a0) (a1) (s) : State.Moves [.ports, .seqs, .chorus] s (State.seqToIdle a0 a1 s) := by
  unfold State.seqToIdle
  repeat' (first
    | (with_reducible intro)
    | with_reducible exact Moves.refl _ _
    | with_reducible assumption
    | ((with_reducible apply Moves.op (State.idleEncoder_moves _ _)); decide)
    | ((with_reducible apply Moves.op (State.modSeq_moves _ _ _)); decide)
    | ((with_reducible apply Moves.op (State.noteRequest_moves _ _)); decide)
    | with_reducible apply Moves.ite
    | with_reducible apply Moves.when
    | (extract_lets +onlyGivenNames u; (with_reducible apply Moves.let (u := u)); (intro h; clear_value u); rotate_left; subst u; rotate_right)
    | (extract_lets +onlyGivenNames v; subst v)
    | split)

theorem State.bind_moves (a0) (a1) (a2) (s) : State.Moves [.chorus] s (State.bind a0 a1 a2 s) := by
  unfold State.bind
  repeat' (first
    | (with_reducible intro)
    | with_reducible exact Moves.refl _ _
    | with_reducible assumption
    | ((with_reducible apply Moves.op (State.modChorus_moves _ _)); decide)
    | ((with_reducible apply Moves.op (State.modEng_moves _ _ _)); decide)
    | ((with_reducible apply Moves.op (State.modPool_moves _ _ _)); decide)
    | with_reducible apply Moves.ite
    | with_reducible apply Moves.when
    | (extract_lets +onlyGivenNames u; (with_reducible apply Moves.let (u := u)); (intro h; clear_value u); rotate_left; subst u; rotate_right)
    | (extract_lets +onlyGivenNames v; subst v)
    | split)

theorem State.grantLoop_moves (a0) (s) : State.Moves [.chorus] s (State.grantLoop a0 s) := by
  induction a0 generalizing s with
  | zero => exact Moves.refl _ _
  | succ n ih =>
    unfold State.grantLoop
    repeat' (first
      | with_reducible exact Moves.refl _ _
      | ((with_reducible apply Moves.op (State.bind_moves _ _ _ _)); decide)
      | ((with_reducible apply Moves.op (ih _)); exact List.Subset.refl _)
      | with_reducible apply Moves.ite
      | split)

theorem State.takeRecovery_moves (s) : State.Moves [.chorus] s (State.takeRecovery s) := by
  unfold State.takeRecovery
  repeat' (first
    | (with_reducible intro)
    | with_reducible exact Moves.refl _ _
    | with_reducible assumption
    | ((with_reducible apply Moves.op (State.modEng_moves _ _ _)); decide)
    | with_reducible apply Moves.ite
    | with_reducible apply Moves.each
    | split)

theorem State.grant_moves (s) : State.Moves [.chorus] s (State.grant s) := by
  unfold State.grant
  repeat' (first
    | with_reducible exact Moves.refl _ _
    | ((with_reducible apply Moves.op (State.grantLoop_moves _ _)); decide)
    | ((with_reducible apply Moves.op (State.takeRecovery_moves _)); decide))

theorem State.releaseEngine_moves (a0) (s) : State.Moves [.chorus] s (State.releaseEngine a0 s) := by
  unfold State.releaseEngine
  repeat' (first
    | (with_reducible intro)
    | with_reducible exact Moves.refl _ _
    | with_reducible assumption
    | ((with_reducible apply Moves.op (State.grant_moves _)); decide)
    | ((with_reducible apply Moves.op (State.modEng_moves _ _ _)); decide)
    | with_reducible apply Moves.ite
    | with_reducible apply Moves.when
    | (extract_lets +onlyGivenNames u; (with_reducible apply Moves.let (u := u)); (intro h; clear_value u); rotate_left; subst u; rotate_right)
    | (extract_lets +onlyGivenNames v; subst v)
    | split)

theorem State.endSession_moves (a0) (s) : State.Moves [.chorus] s (State.endSession a0 s) := by
  unfold State.endSession
  repeat' (first
    | with_reducible exact Moves.refl _ _
    | with_reducible assumption
    | ((with_reducible apply Moves.op (State.modPool_moves _ _ _)); decide)
    | ((with_reducible apply Moves.op (State.releaseEngine_moves _ _)); decide)
    | (extract_lets +onlyGivenNames u; (with_reducible apply Moves.let (u := u)); (intro h; clear_value u); rotate_left; subst u; rotate_right)
    | split)

theorem State.quiesce_moves (a0) (a1) (s) : State.Moves [.aon, .nor, .book, .ctxs, .decisions, .ports, .seqs, .chorus, .actCals, .pair, .svc, .out] s (State.quiesce a0 a1 s) := by
  unfold State.quiesce
  repeat' (first
    | with_reducible exact Moves.refl _ _
    | ((with_reducible apply Moves.op (State.abandonBreak_moves _ _)); decide)
    | ((with_reducible apply Moves.op (State.cancelGates_moves _ _ _ _)); decide)
    | ((with_reducible apply Moves.op (State.endSession_moves _ _)); decide)
    | ((with_reducible apply Moves.op (State.seqToIdle_moves _ _ _)); decide))

theorem State.noteService_moves (a0) (s) : State.Moves [.prot] s (State.noteService a0 s) := by
  unfold State.noteService
  repeat' (first
    | with_reducible exact Moves.refl _ _
    | ((with_reducible apply Moves.op (State.modMember_moves _ _ _)); decide))

theorem State.portFail_moves (a0) (a1) (s) : State.Moves [.aon, .boot, .book, .prot, .ports] s (State.portFail a0 a1 s) := by
  unfold State.portFail
  repeat' (first
    | with_reducible exact Moves.refl _ _
    | ((with_reducible apply State.modPort_leaves); exact fun _ => rfl; decide)
    | ((with_reducible apply Moves.op (State.noteEnded_moves _)); decide)
    | ((with_reducible apply Moves.op (State.noteService_moves _ _)); decide)
    | ((with_reducible apply Moves.op (State.raisePort_moves _ _ _)); decide))

theorem State.unload_moves (a0) (s) : State.Moves [.ports, .acts, .chorus] s (State.unload a0 s) := by
  unfold State.unload
  repeat' (first
    | (with_reducible intro)
    | with_reducible exact Moves.refl _ _
    | with_reducible assumption
    | ((with_reducible apply Moves.op (State.modAct_moves _ _ _)); decide)
    | ((with_reducible apply Moves.op (State.noteRequest_moves _ _)); decide)
    | ((with_reducible apply Moves.op (State.sendPark_moves _ _ _ _)); decide)
    | with_reducible apply Moves.ite
    | with_reducible apply Moves.when
    | (extract_lets +onlyGivenNames u; (with_reducible apply Moves.let (u := u)); (intro h; clear_value u); rotate_left; subst u; rotate_right)
    | (extract_lets +onlyGivenNames v; subst v)
    | split)

theorem State.unloadSides_moves (a0) (s) : State.Moves [.ports, .acts, .chorus] s (State.unloadSides a0 s) := by
  unfold State.unloadSides
  repeat' (first
    | (with_reducible intro)
    | with_reducible exact Moves.refl _ _
    | with_reducible assumption
    | ((with_reducible apply Moves.op (State.unload_moves _ _)); decide)
    | with_reducible apply Moves.when
    | with_reducible apply Moves.each)

theorem State.freeSlot_moves (a0) (s) : State.Moves [.prot, .spins] s (State.freeSlot a0 s) := by
  unfold State.freeSlot
  repeat' (first
    | (with_reducible intro)
    | with_reducible exact Moves.refl _ _
    | with_reducible assumption
    | ((with_reducible apply Moves.op (State.modSpin_moves _ _ _)); decide)
    | ((with_reducible apply Moves.op (State.noteService_moves _ _)); decide)
    | with_reducible apply Moves.ite
    | with_reducible apply Moves.when
    | (extract_lets +onlyGivenNames u; (with_reducible apply Moves.let (u := u)); (intro h; clear_value u); rotate_left; subst u; rotate_right)
    | (extract_lets +onlyGivenNames v; subst v)
    | split)

theorem State.leaveService_moves (a0) (a1) (s) : State.Moves [.aon, .nor, .book, .ctxs, .decisions, .prot, .ports, .seqs, .chorus, .actCals, .pair, .svc, .out] s (State.leaveService a0 a1 s) := by
  unfold State.leaveService
  repeat' (first
    | (with_reducible intro)
    | with_reducible exact Moves.refl _ _
    | with_reducible assumption
    | ((with_reducible apply State.modPort_leaves); exact fun _ => rfl; decide)
    | ((with_reducible apply Moves.op (State.noteService_moves _ _)); decide)
    | ((with_reducible apply Moves.op (State.quiesce_moves _ _ _)); decide)
    | with_reducible apply Moves.each)

theorem State.requestEngine_moves (a0) (a1) (a2) (s) : State.Moves [.chorus] s (State.requestEngine a0 a1 a2 s) := by
  unfold State.requestEngine
  repeat' (first
    | (with_reducible intro)
    | with_reducible exact Moves.refl _ _
    | with_reducible assumption
    | ((with_reducible apply Moves.op (State.grant_moves _)); decide)
    | ((with_reducible apply Moves.op (State.modPool_moves _ _ _)); decide)
    | ((with_reducible apply Moves.op (State.noteRequest_moves _ _)); decide)
    | with_reducible apply Moves.ite
    | with_reducible apply Moves.when
    | (extract_lets +onlyGivenNames u; (with_reducible apply Moves.let (u := u)); (intro h; clear_value u); rotate_left; subst u; rotate_right)
    | (extract_lets +onlyGivenNames v; subst v)
    | split)

theorem State.forgetHeads_moves (a0) (s) : State.Moves [.actCals] s (State.forgetHeads a0 s) := by
  unfold State.forgetHeads
  repeat' (first
    | with_reducible exact Moves.refl _ _
    | ((with_reducible apply Moves.op (State.modAcal_moves _ _ _)); decide))

theorem State.settleUnloads_moves (a0) (s) : State.Moves [.ctxs, .decisions, .pair, .svc, .out] s (State.settleUnloads a0 s) := by
  unfold State.settleUnloads
  repeat' (first
    | (with_reducible intro)
    | with_reducible exact Moves.refl _ _
    | with_reducible assumption
    | ((with_reducible apply Moves.op (State.completeWait_moves _ _)); decide)
    | with_reducible apply Moves.ite
    | with_reducible apply Moves.when
    | (extract_lets +onlyGivenNames u; (with_reducible apply Moves.let (u := u)); (intro h; clear_value u); rotate_left; subst u; rotate_right)
    | (extract_lets +onlyGivenNames v; subst v)
    | split)

theorem State.resetUnits_moves (a0) (s) : State.Moves [.aon, .nor, .book, .ctxs, .decisions, .ports, .spins, .acts, .seqs, .chorus, .actCals, .pair, .svc, .out] s (State.resetUnits a0 s) := by
  unfold State.resetUnits
  repeat' (first
    | (with_reducible intro)
    | with_reducible exact Moves.refl _ _
    | with_reducible assumption
    | ((with_reducible apply Moves.op (State.abandonBreak_moves _ _)); decide)
    | ((with_reducible apply Moves.op (State.endSession_moves _ _)); decide)
    | ((with_reducible apply Moves.op (State.forgetHeads_moves _ _)); decide)
    | ((with_reducible apply Moves.op (State.modAct_moves _ _ _)); decide)
    | ((with_reducible apply Moves.op (State.modSpin_moves _ _ _)); decide)
    | ((with_reducible apply Moves.op (State.seqToIdle_moves _ _ _)); decide)
    | ((with_reducible apply Moves.op (State.settleUnloads_moves _ _)); decide)
    | with_reducible apply Moves.each
    | with_reducible apply Moves.ite
    | with_reducible apply Moves.when
    | (extract_lets +onlyGivenNames u; (with_reducible apply Moves.let (u := u)); (intro h; clear_value u); rotate_left; subst u; rotate_right)
    | (extract_lets +onlyGivenNames v; subst v)
    | split)

theorem State.bandSwitch_moves (s) : State.Moves [.xing, .therm] s (State.bandSwitch s) := by
  unfold State.bandSwitch
  repeat' (first
    | (with_reducible intro)
    | with_reducible exact Moves.refl _ _
    | with_reducible assumption
    | ((with_reducible apply Moves.op (State.modTherm_moves _ _)); decide)
    | ((with_reducible apply Moves.op (State.modXing_moves _ _)); decide)
    | with_reducible apply Moves.ite
    | with_reducible apply Moves.when
    | (extract_lets +onlyGivenNames u; (with_reducible apply Moves.let (u := u)); (intro h; clear_value u); rotate_left; subst u; rotate_right)
    | (extract_lets +onlyGivenNames v; subst v)
    | split)

theorem State.portReset_moves (a0) (s) : State.Moves [.aon, .boot, .nor, .book, .ctxs, .decisions, .prot, .ports, .spins, .acts, .seqs, .chorus, .actCals, .xing, .therm, .pair, .svc, .out] s (State.portReset a0 s) := by
  unfold State.portReset
  repeat' (first
    | (with_reducible intro)
    | with_reducible exact Moves.refl _ _
    | with_reducible assumption
    | ((with_reducible apply Moves.op (State.bandSwitch_moves _)); decide)
    | ((with_reducible apply Moves.op (State.modAcal_moves _ _ _)); decide)
    | ((with_reducible apply State.modPort_moves); exact fun _ => ⟨rfl, rfl⟩; decide)
    | ((with_reducible apply State.modPort_leaves); exact fun _ => rfl; decide)
    | ((with_reducible apply State.modPort_served); exact fun _ _ _ => rfl; decide)
    | ((with_reducible apply State.modPort_moves); (intro _; (try dsimp only); split <;> exact ⟨rfl, rfl⟩); decide)
    | ((with_reducible apply Moves.op (State.noteService_moves _ _)); decide)
    | ((with_reducible apply Moves.op (State.portFail_moves _ _ _)); decide)
    | ((with_reducible apply Moves.op (State.raisePort_moves _ _ _)); decide)
    | ((with_reducible apply Moves.op (State.resetUnits_moves _ _)); decide)
    | with_reducible apply Moves.each
    | with_reducible apply Moves.ite
    | with_reducible apply Moves.when
    | (extract_lets +onlyGivenNames u; (with_reducible apply Moves.let (u := u)); (intro h; clear_value u); rotate_left; subst u; rotate_right)
    | (extract_lets +onlyGivenNames v; subst v)
    | split)

theorem State.load_moves (a0) (s) : State.Moves [.ports, .acts] s (State.load a0 s) := by
  unfold State.load
  repeat' (first
    | with_reducible exact Moves.refl _ _
    | ((with_reducible apply Moves.op (State.modAct_moves _ _ _)); decide)
    | ((with_reducible apply Moves.op (State.sendPark_moves _ _ _ _)); decide)
    | with_reducible apply Moves.ite)

theorem State.keepCaptures_moves (a0) (s) : State.Moves [.chorus] s (State.keepCaptures a0 s) := by
  unfold State.keepCaptures
  repeat' (first
    | (with_reducible intro)
    | with_reducible exact Moves.refl _ _
    | with_reducible assumption
    | ((with_reducible apply Moves.op (State.grant_moves _)); decide)
    | ((with_reducible apply Moves.op (State.modChorus_moves _ _)); decide)
    | with_reducible apply Moves.ite
    | with_reducible apply Moves.when
    | (extract_lets +onlyGivenNames u; (with_reducible apply Moves.let (u := u)); (intro h; clear_value u); rotate_left; subst u; rotate_right)
    | (extract_lets +onlyGivenNames v; subst v)
    | split)

theorem State.dropPort_moves (a0) (s) : State.Moves [.aon, .nor, .book, .ctxs, .decisions, .prot, .ports, .spins, .acts, .seqs, .chorus, .actCals, .pair, .svc, .out] s (State.dropPort a0 s) := by
  unfold State.dropPort
  repeat' (first
    | (with_reducible intro)
    | with_reducible exact Moves.refl _ _
    | with_reducible assumption
    | ((with_reducible apply Moves.op (State.freeSlot_moves _ _)); decide)
    | ((with_reducible apply Moves.op (State.keepCaptures_moves _ _)); decide)
    | ((with_reducible apply Moves.op (State.leaveService_moves _ _ _)); decide)
    | ((with_reducible apply Moves.op (State.modAcal_moves _ _ _)); decide)
    | ((with_reducible apply Moves.op (State.modAct_moves _ _ _)); decide)
    | ((with_reducible apply State.modPort_moves); exact fun _ => ⟨rfl, rfl⟩; decide)
    | ((with_reducible apply State.modPort_leaves); exact fun _ => rfl; decide)
    | ((with_reducible apply State.modPort_served); exact fun _ _ _ => rfl; decide)
    | ((with_reducible apply State.modPort_moves); (intro _; (try dsimp only); split <;> exact ⟨rfl, rfl⟩); decide)
    | ((with_reducible apply Moves.op (State.modSpin_moves _ _ _)); decide)
    | ((with_reducible apply Moves.op (State.settleUnloads_moves _ _)); decide)
    | with_reducible apply Moves.each
    | with_reducible apply Moves.ite
    | with_reducible apply Moves.when
    | (extract_lets +onlyGivenNames u; (with_reducible apply Moves.let (u := u)); (intro h; clear_value u); rotate_left; subst u; rotate_right)
    | (extract_lets +onlyGivenNames v; subst v)
    | split)

theorem State.obedienceLost_moves (a0) (s) : State.Moves [.aon, .nor, .book, .ctxs, .decisions, .prot, .ports, .spins, .acts, .seqs, .chorus, .actCals, .pair, .svc, .out] s (State.obedienceLost a0 s) := by
  unfold State.obedienceLost
  repeat' (first
    | with_reducible exact Moves.refl _ _
    | ((with_reducible apply Moves.op (State.dropPort_moves _ _)); decide)
    | ((with_reducible apply Moves.op (State.raisePort_moves _ _ _)); decide))

theorem State.waitAgain_moves (a0) (s) : State.Moves [.chorus] s (State.waitAgain a0 s) := by
  unfold State.waitAgain
  repeat' (first
    | (with_reducible intro)
    | with_reducible exact Moves.refl _ _
    | with_reducible assumption
    | ((with_reducible apply Moves.op (State.modPool_moves _ _ _)); decide)
    | with_reducible apply Moves.ite
    | with_reducible apply Moves.when
    | (extract_lets +onlyGivenNames u; (with_reducible apply Moves.let (u := u)); (intro h; clear_value u); rotate_left; subst u; rotate_right)
    | (extract_lets +onlyGivenNames v; subst v)
    | split)

theorem State.permit_moves (a0) (a1) (a2) (s) : State.Moves [.aon, .book, .ports, .acts, .seqs, .chorus] s (State.permit a0 a1 a2 s) := by
  unfold State.permit
  repeat' (first
    | (with_reducible intro)
    | with_reducible exact Moves.refl _ _
    | with_reducible assumption
    | ((with_reducible apply Moves.op (State.cancelGates_moves _ _ _ _)); decide)
    | ((with_reducible apply Moves.op (State.modAct_moves _ _ _)); decide)
    | ((with_reducible apply Moves.op (State.raiseServo_moves _ _ _)); decide)
    | with_reducible apply Moves.ite
    | with_reducible apply Moves.when
    | (extract_lets +onlyGivenNames u; (with_reducible apply Moves.let (u := u)); (intro h; clear_value u); rotate_left; subst u; rotate_right)
    | (extract_lets +onlyGivenNames v; subst v)
    | split)

theorem State.stopUnits_moves (a0) (s) : State.Moves [.aon, .nor, .book, .ctxs, .decisions, .ports, .spins, .acts, .seqs, .chorus, .actCals, .pair, .svc, .out] s (State.stopUnits a0 s) := by
  unfold State.stopUnits
  repeat' (first
    | (with_reducible intro)
    | with_reducible exact Moves.refl _ _
    | with_reducible assumption
    | ((with_reducible apply Moves.op (State.modAct_moves _ _ _)); decide)
    | ((with_reducible apply Moves.op (State.resetUnits_moves _ _)); decide)
    | with_reducible apply Moves.each
    | with_reducible apply Moves.ite
    | with_reducible apply Moves.when
    | (extract_lets +onlyGivenNames u; (with_reducible apply Moves.let (u := u)); (intro h; clear_value u); rotate_left; subst u; rotate_right)
    | (extract_lets +onlyGivenNames v; subst v)
    | split)

theorem State.noteServices_moves (s) : State.Moves [.prot] s (State.noteServices s) := by
  unfold State.noteServices
  repeat' (first
    | (with_reducible intro)
    | with_reducible exact Moves.refl _ _
    | with_reducible assumption
    | ((with_reducible apply Moves.op (State.noteService_moves _ _)); decide)
    | with_reducible apply Moves.each
    | with_reducible apply Moves.ite
    | with_reducible apply Moves.when
    | (extract_lets +onlyGivenNames u; (with_reducible apply Moves.let (u := u)); (intro h; clear_value u); rotate_left; subst u; rotate_right)
    | (extract_lets +onlyGivenNames v; subst v)
    | split)

theorem State.startTraining_moves (a0) (s) : State.Moves [.prot, .ports] s (State.startTraining a0 s) := by
  unfold State.startTraining
  repeat' (first
    | (with_reducible intro)
    | with_reducible exact Moves.refl _ _
    | with_reducible assumption
    | ((with_reducible apply State.modPort_moves); exact fun _ => ⟨rfl, rfl⟩; decide)
    | ((with_reducible apply State.modPort_leaves); exact fun _ => rfl; decide)
    | ((with_reducible apply State.modPort_served); exact fun _ _ _ => rfl; decide)
    | ((with_reducible apply State.modPort_moves); (intro _; (try dsimp only); split <;> exact ⟨rfl, rfl⟩); decide)
    | ((with_reducible apply Moves.op (State.noteService_moves _ _)); decide)
    | with_reducible apply Moves.ite
    | with_reducible apply Moves.when
    | (extract_lets +onlyGivenNames u; (with_reducible apply Moves.let (u := u)); (intro h; clear_value u); rotate_left; subst u; rotate_right)
    | (extract_lets +onlyGivenNames v; subst v)
    | split)

end Sys2Proof.Machine
end

