-- ==== Sys2Proof/Laws/Boot.lean ====
section
/-! SUPPORT. What each operation and each command of Machine/Boot.lean can do to the state. -/

namespace Sys2Proof.Machine

theorem State.applyConfig_moves (s) : State.Moves [.aon, .boot, .nor, .book, .power, .fa, .fb, .names, .seqs, .chorus, .cal, .mem, .therm, .pair] s (State.applyConfig s) := by
  unfold State.applyConfig
  repeat' (first
    | with_reducible exact Moves.refl _ _
    | ((with_reducible apply Moves.op (State.emit_moves _ _ _ _ _)); decide)
    | ((with_reducible apply Moves.op (State.modCfg_moves _ _)); decide)
    | with_reducible apply Moves.ite
    | (extract_lets +onlyGivenNames u; (with_reducible apply Moves.let (u := u)); (intro h; clear_value u); rotate_left; subst u; rotate_right)
    | (extract_lets +onlyGivenNames v; subst v)
    | split
    | (refine Moves.base (u := u) (by with_reducible first | exact Moves.refl _ _ | assumption) ?_ rfl rfl fun h => ⟨h.filled, h.complete, h.ready, h.bufs, h.served, h.therms, h.holds, h.ring, h.ctxs⟩; intro x hx; cases x <;> first | exact absurd (by decide) hx | (unfold State.same; with_reducible rfl)))

theorem State.judgeBuffer_moves (s) : State.Moves [.aon, .boot, .nor, .book, .prot] s (State.judgeBuffer s) := by
  unfold State.judgeBuffer
  repeat' (first
    | with_reducible exact Moves.refl _ _
    | ((with_reducible apply Moves.op (State.emit_moves _ _ _ _ _)); decide)
    | ((with_reducible apply State.modAon_moves); exact fun _ => ⟨rfl, rfl⟩; decide)
    | ((with_reducible apply State.modBoot_moves); exact fun _ => ⟨rfl, rfl⟩; decide)
    | ((with_reducible apply Moves.op (State.modCfg_moves _ _)); decide)
    | ((with_reducible apply Moves.op (State.modProt_moves _ _)); decide)
    | with_reducible apply Moves.ite)

theorem State.measureRelease_moves (s) : State.Moves [.ident] s (State.measureRelease s) := by
  unfold State.measureRelease
  repeat' (first
    | with_reducible exact Moves.refl _ _
    | ((with_reducible apply Moves.op (State.measure_moves _ _ _)); decide))

theorem State.measureSelection_moves (a0) (a1) (s) : State.Moves [.ident] s (State.measureSelection a0 a1 s) := by
  unfold State.measureSelection
  repeat' (first
    | with_reducible exact Moves.refl _ _
    | ((with_reducible apply Moves.op (State.measure_moves _ _ _)); decide))

theorem State.noImage_moves (s) : State.Moves [.aon, .boot, .fa, .fb] s (State.noImage s) := by
  unfold State.noImage
  repeat' (first
    | with_reducible exact Moves.refl _ _
    | ((with_reducible apply Moves.op (State.bootError_moves _ _)); decide)
    | ((with_reducible apply State.modBoot_moves); exact fun _ => ⟨rfl, rfl⟩; decide))

theorem State.preserveCheck_moves (s) : State.Moves [.aon, .boot, .ident, .names, .pair] s (State.preserveCheck s) := by
  unfold State.preserveCheck
  repeat' (first
    | (with_reducible intro)
    | with_reducible exact Moves.refl _ _
    | with_reducible assumption
    | ((with_reducible apply State.modAon_moves); exact fun _ => ⟨rfl, rfl⟩; decide)
    | ((with_reducible apply State.modBoot_moves); exact fun _ => ⟨rfl, rfl⟩; decide)
    | ((with_reducible apply Moves.op (State.modNames_moves _ _)); decide)
    | ((with_reducible apply Moves.op (State.setCause_moves _ _)); decide)
    | with_reducible apply Moves.ite
    | with_reducible apply Moves.when
    | (extract_lets +onlyGivenNames u; (with_reducible apply Moves.let (u := u)); (intro h; clear_value u); rotate_left; subst u; rotate_right)
    | (extract_lets +onlyGivenNames v; subst v)
    | (refine Moves.base (u := u) (by with_reducible first | exact Moves.refl _ _ | assumption) ?_ rfl rfl fun h => ⟨h.filled, h.complete, h.ready, h.bufs, h.served, h.therms, h.holds, h.ring, h.ctxs⟩; intro x hx; cases x <;> first | exact absurd (by decide) hx | (unfold State.same; with_reducible rfl))
    | split)

theorem State.readKeys_moves (s) : State.Moves [.boot, .ident] s (State.readKeys s) := by
  unfold State.readKeys
  repeat' (first
    | (with_reducible intro)
    | with_reducible exact Moves.refl _ _
    | with_reducible assumption
    | ((with_reducible apply Moves.op (State.modIdent_moves _ _)); decide)
    | ((with_reducible apply Moves.op (State.norRead_moves _ _ _ _)); decide)
    | with_reducible apply Moves.ite
    | with_reducible apply Moves.when
    | (extract_lets +onlyGivenNames u; (with_reducible apply Moves.let (u := u)); (intro h; clear_value u); rotate_left; subst u; rotate_right)
    | (extract_lets +onlyGivenNames v; subst v)
    | split)

theorem State.testHold_moves (s) : State.Moves [.pins, .aon, .boot, .nor, .book, .ident, .power, .fa, .fb, .ctxs, .admission, .decisions, .lastShared, .names, .prot, .ports, .spins, .acts, .seqs, .patch, .chorus, .actCals, .portCals, .cal, .mem, .mcache, .xing, .pair, .svc] s (State.testHold s) := by
  unfold State.testHold
  repeat' (first
    | with_reducible exact Moves.refl _ _
    | ((with_reducible apply Moves.op (State.enterCold_moves _)); decide)
    | with_reducible apply Moves.ite)

theorem State.tryDramFill_moves (s) : State.Moves [.aon] s (State.tryDramFill s) := by
  unfold State.tryDramFill
  split
  · rename_i h
    exact State.modAon_at (fun _ r => absurd (h.1.symm.trans r) (by decide)) (fun i => i.therms) (by decide) (Moves.refl _ _)
  · exact Moves.refl _ _

theorem execAonPwrokDeassert_moves (s) : ∃ t, execAonPwrokDeassert s = .next t ∧ State.Moves (.pins :: .aon :: .therm :: Part.cleared) s t := by
  unfold execAonPwrokDeassert
  repeat' (first
    | (with_reducible refine ⟨_, rfl, ?_⟩)
    | ((with_reducible apply State.modAon_moves); exact fun _ => ⟨rfl, rfl⟩; decide)
    | ((with_reducible apply Moves.op (State.powerOn_moves _)); decide)
    | (extract_lets +onlyGivenNames v; subst v)
    | (refine Moves.base (u := s) (by with_reducible first | exact Moves.refl _ _ | assumption) ?_ rfl rfl fun h => ⟨h.filled, h.complete, h.ready, h.bufs, h.served, h.therms, h.holds, h.ring, h.ctxs⟩; intro x hx; cases x <;> first | exact absurd (by decide) hx | (unfold State.same; with_reducible rfl)))

theorem execAonPwrokRise_moves (s) : ∃ t, execAonPwrokRise s = .next t ∧ State.Moves (.pins :: .aon :: .therm :: Part.cleared) s t := by
  unfold execAonPwrokRise
  repeat' (first
    | (with_reducible refine ⟨_, rfl, ?_⟩)
    | ((with_reducible apply Moves.op (State.powerOn_moves _)); decide)
    | (extract_lets +onlyGivenNames v; subst v)
    | (refine Moves.base (u := s) (by with_reducible first | exact Moves.refl _ _ | assumption) ?_ rfl rfl fun h => ⟨h.filled, h.complete, h.ready, h.bufs, h.served, h.therms, h.holds, h.ring, h.ctxs⟩; intro x hx; cases x <;> first | exact absurd (by decide) hx | (unfold State.same; with_reducible rfl)))

theorem execBootRomSelfTest_moves (a0) (s) : ∃ t, execBootRomSelfTest a0 s = .next t ∧ State.Moves [.aon, .boot, .ident, .fa, .fb] s t := by
  unfold execBootRomSelfTest
  refine ⟨_, rfl, ?_⟩
  split
  · rename_i h
    split
    · refine State.modAon_at (fun _ r => ?_) (fun i => i.therms) (by decide)
        (Moves.op (State.measure_moves _ _ _) (by decide) (Moves.op (State.measure_moves _ _ _) (by decide)
          (Moves.op (State.setStep_moves _ _) (by decide)
            (Moves.op (State.norStart_moves _) (by decide) (Moves.op (State.setStep_moves _ _) (by decide) (Moves.refl _ _))))))
      have e : s.boot.released = true := r
      have b := h.1
      simp [State.booting, e] at b
    · exact Moves.op (State.bootError_moves _ _) (by decide)
        (Moves.op (State.norStart_moves _) (by decide) (Moves.op (State.setStep_moves _ _) (by decide) (Moves.refl _ _)))
  · exact Moves.refl _ _

theorem execBrownout_moves (s) : ∃ t, execBrownout s = .next t ∧ State.Moves [.pins, .aon, .boot, .nor, .book, .ident, .power, .fa, .fb, .ctxs, .admission, .decisions, .lastShared, .names, .prot, .ports, .spins, .acts, .seqs, .patch, .chorus, .actCals, .portCals, .cal, .mem, .mcache, .xing, .pair, .svc] s t := by
  unfold execBrownout
  repeat' (first
    | (with_reducible refine ⟨_, rfl, ?_⟩)
    | with_reducible exact Moves.refl _ _
    | ((with_reducible apply Moves.op (State.enterCold_moves _)); decide)
    | ((with_reducible apply State.modAon_moves); exact fun _ => ⟨rfl, rfl⟩; decide)
    | ((with_reducible apply Moves.op (State.setCause_moves _ _)); decide)
    | with_reducible apply Moves.ite)

theorem execCrystalQualified_moves (s) : ∃ t, execCrystalQualified s = .next t ∧ State.Moves [.aon] s t := by
  unfold execCrystalQualified
  repeat' (first
    | (with_reducible refine ⟨_, rfl, ?_⟩)
    | with_reducible exact Moves.refl _ _
    | ((with_reducible apply State.modAon_moves); exact fun _ => ⟨rfl, rfl⟩; decide)
    | with_reducible apply Moves.ite)

theorem execCrystalQualifyTimeout_moves (s) : ∃ t, execCrystalQualifyTimeout s = .next t ∧ State.Moves [.now, .aon, .fa, .fb] s t := by
  unfold execCrystalQualifyTimeout
  repeat' (first
    | (with_reducible refine ⟨_, rfl, ?_⟩)
    | with_reducible exact Moves.refl _ _
    | ((with_reducible apply Moves.op (State.at__moves _ _)); decide)
    | ((with_reducible apply Moves.op (State.bootError_moves _ _)); decide)
    | ((with_reducible apply Moves.op (State.setCause_moves _ _)); decide)
    | with_reducible apply Moves.ite)

theorem execDeferredWarmReset_moves (s) : ∃ t, execDeferredWarmReset s = .next t ∧ State.Moves [.now, .pins, .aon, .boot, .nor, .book, .ident, .power, .fa, .fb, .ctxs, .admission, .decisions, .lastShared, .names, .prot, .ports, .spins, .acts, .seqs, .patch, .chorus, .actCals, .portCals, .cal, .mem, .mcache, .xing, .pair, .svc, .free] s t := by
  unfold execDeferredWarmReset
  repeat' (first
    | (with_reducible refine ⟨_, rfl, ?_⟩)
    | with_reducible exact Moves.refl _ _
    | ((with_reducible apply Moves.op (State.at__moves _ _)); decide)
    | ((with_reducible apply Moves.op (State.warmReset_moves _ _)); decide)
    | with_reducible apply Moves.ite)

theorem State.channelFails_moves (a0) (s) : State.Moves [.aon, .boot, .fa, .fb] s (State.channelFails a0 s) := by
  unfold State.channelFails
  repeat' (first
    | (with_reducible intro)
    | with_reducible exact Moves.refl _ _
    | with_reducible assumption
    | ((with_reducible apply Moves.op (State.bootError_moves _ _)); decide)
    | ((with_reducible apply State.modAon_moves); exact fun _ => ⟨rfl, rfl⟩; decide)
    | ((with_reducible apply State.modBoot_moves); exact fun _ => ⟨rfl, rfl⟩; decide)
    | with_reducible apply Moves.ite
    | with_reducible apply Moves.when
    | (extract_lets +onlyGivenNames u; (with_reducible apply Moves.let (u := u)); (intro h; clear_value u); rotate_left; subst u; rotate_right)
    | (extract_lets +onlyGivenNames v; subst v)
    | split)

theorem execDramChannelTrainingFail_moves (a0) (s) : ∃ t, execDramChannelTrainingFail a0 s = .next t ∧ State.Moves [.aon, .boot, .fa, .fb] s t := by
  unfold execDramChannelTrainingFail
  repeat' (first
    | (with_reducible intro)
    | (with_reducible refine ⟨_, rfl, ?_⟩)
    | with_reducible exact Moves.refl _ _
    | with_reducible assumption
    | ((with_reducible apply Moves.op (State.channelFails_moves _ _)); decide)
    | with_reducible apply Moves.ite
    | with_reducible apply Moves.when
    | (extract_lets +onlyGivenNames u; (with_reducible apply Moves.let (u := u)); (intro h; clear_value u); rotate_left; subst u; rotate_right)
    | (extract_lets +onlyGivenNames v; subst v)
    | (split <;> beta_reduce))

theorem execDramTrainingDone_moves (a0) (a1) (s) : ∃ t, execDramTrainingDone a0 a1 s = .next t ∧ State.Moves [.aon, .boot, .ident, .fa, .fb, .names, .mem, .pair] s t := by
  unfold execDramTrainingDone
  repeat' (first
    | (with_reducible intro)
    | (with_reducible refine ⟨_, rfl, ?_⟩)
    | with_reducible exact Moves.refl _ _
    | with_reducible assumption
    | ((with_reducible apply Moves.op (State.channelFails_moves _ _)); decide)
    | ((with_reducible apply State.modBoot_moves); exact fun _ => ⟨rfl, rfl⟩; decide)
    | ((with_reducible apply Moves.op (State.modMem_moves _ _)); decide)
    | ((with_reducible apply Moves.op (State.preserveCheck_moves _)); decide)
    | ((with_reducible apply Moves.op (State.setStep_moves _ _)); decide)
    | ((with_reducible apply Moves.op (State.tryDramFill_moves _)); decide)
    | with_reducible apply Moves.each
    | with_reducible apply Moves.ite
    | with_reducible apply Moves.when
    | (extract_lets +onlyGivenNames u; (with_reducible apply Moves.let (u := u)); (intro h; clear_value u); rotate_left; subst u; rotate_right)
    | (extract_lets +onlyGivenNames v; subst v)
    | (split <;> beta_reduce))

theorem execImageLoaded_moves (s) : ∃ t, execImageLoaded s = .next t ∧ State.Moves [.aon, .boot, .nor, .ident, .fa, .fb] s t := by
  unfold execImageLoaded
  repeat' (first
    | (with_reducible intro)
    | (with_reducible refine ⟨_, rfl, ?_⟩)
    | with_reducible exact Moves.refl _ _
    | with_reducible assumption
    | ((with_reducible apply Moves.op (State.measureSelection_moves _ _ _)); decide)
    | ((with_reducible apply State.modAon_moves); exact fun _ => ⟨rfl, rfl⟩; decide)
    | ((with_reducible apply State.modBoot_moves); exact fun _ => ⟨rfl, rfl⟩; decide)
    | ((with_reducible apply Moves.op (State.noImage_moves _)); decide)
    | ((with_reducible apply Moves.op (State.norRead_moves _ _ _ _)); decide)
    | ((with_reducible apply Moves.op (State.readKeys_moves _)); decide)
    | ((with_reducible apply Moves.op (State.runImage_moves _ _)); decide)
    | ((with_reducible apply Moves.op (State.setCause_moves _ _)); decide)
    | ((with_reducible apply Moves.op (State.setStep_moves _ _)); decide)
    | ((with_reducible apply Moves.op (State.tryDramFill_moves _)); decide)
    | ((with_reducible apply Moves.op (State.writeDir_moves _ _)); decide)
    | with_reducible apply Moves.ite
    | with_reducible apply Moves.when
    | (extract_lets +onlyGivenNames u; (with_reducible apply Moves.let (u := u)); (intro h; clear_value u); rotate_left; subst u; rotate_right)
    | (extract_lets +onlyGivenNames v; subst v)
    | (split <;> beta_reduce))

theorem execJtagInstructionLoad_moves (a0) (s) : ∃ t, execJtagInstructionLoad a0 s = .next t ∧ State.Moves (.pins :: .aon :: .out :: Part.cleared) s t := by
  unfold execJtagInstructionLoad
  repeat' (first
    | (with_reducible refine ⟨_, rfl, ?_⟩)
    | with_reducible exact Moves.refl _ _
    | (with_reducible intro)
    | with_reducible assumption
    | ((with_reducible apply Moves.op (State.emitOut_moves _ _)); decide)
    | with_reducible apply Moves.when
    | ((with_reducible apply Moves.op (State.modPins_moves _ _)); decide)
    | ((with_reducible apply Moves.op (State.testHold_moves _)); decide))

theorem execMainColdResetRelease_moves (s) : ∃ t, execMainColdResetRelease s = .next t ∧ State.Moves [.now, .aon, .boot] s t := by
  unfold execMainColdResetRelease
  repeat' (first
    | (with_reducible refine ⟨_, rfl, ?_⟩)
    | with_reducible exact Moves.refl _ _
    | ((with_reducible apply Moves.op (State.at__moves _ _)); decide)
    | ((with_reducible apply State.modAon_moves); exact fun _ => ⟨rfl, rfl⟩; decide)
    | ((with_reducible apply State.modBoot_moves); exact fun _ => ⟨rfl, rfl⟩; decide)
    | ((with_reducible apply Moves.op (State.releaseReset_moves _)); decide)
    | ((with_reducible apply Moves.op (State.setStep_moves _ _)); decide)
    | with_reducible apply Moves.ite
    | (split <;> beta_reduce))

theorem execMemoryFillDone_moves (a0) (s) : ∃ t, execMemoryFillDone a0 s = .next t ∧ State.Moves [.aon, .fa, .fb] s t := by
  unfold execMemoryFillDone
  refine ⟨_, rfl, ?_⟩
  split
  · exact Moves.refl _ _
  · split
    · exact Moves.refl _ _
    · split
      · exact Moves.op (State.bootError_moves _ _) (by decide) (Moves.refl _ _)
      · exact State.modAon_at (fun _ _ => rfl) (fun i => i.therms) (by decide) (Moves.op (State.setStep_moves _ _) (by decide) (Moves.refl _ _))
    · split
      · exact Moves.op (State.bootError_moves _ _) (by decide) (Moves.refl _ _)
      · exact State.modAon_at (fun _ _ => rfl) (fun i => i.therms) (by decide) (Moves.op (State.setStep_moves _ _) (by decide) (Moves.refl _ _))

theorem execPerstOverlap_moves (s) : ∃ t, execPerstOverlap s = .next t ∧ State.Moves [.now, .pins, .aon, .boot, .nor, .book, .ident, .power, .fa, .fb, .ctxs, .admission, .decisions, .lastShared, .names, .prot, .ports, .spins, .acts, .seqs, .patch, .chorus, .actCals, .portCals, .cal, .mem, .mcache, .xing, .pair, .svc, .free] s t := by
  unfold execPerstOverlap
  repeat' (first
    | (with_reducible refine ⟨_, rfl, ?_⟩)
    | with_reducible exact Moves.refl _ _
    | ((with_reducible apply Moves.op (State.at__moves _ _)); decide)
    | ((with_reducible apply State.modAon_moves); exact fun _ => ⟨rfl, rfl⟩; decide)
    | ((with_reducible apply Moves.op (State.warmSource_moves _ _)); decide)
    | with_reducible apply Moves.ite
    | (split <;> beta_reduce))

theorem execPllLockTimeout_moves (s) : ∃ t, execPllLockTimeout s = .next t ∧ State.Moves [.now, .aon, .fa, .fb] s t := by
  unfold execPllLockTimeout
  repeat' (first
    | (with_reducible intro)
    | (with_reducible refine ⟨_, rfl, ?_⟩)
    | with_reducible exact Moves.refl _ _
    | with_reducible assumption
    | ((with_reducible apply Moves.op (State.at__moves _ _)); decide)
    | ((with_reducible apply Moves.op (State.bootError_moves _ _)); decide)
    | with_reducible apply Moves.ite
    | with_reducible apply Moves.when
    | (extract_lets +onlyGivenNames u; (with_reducible apply Moves.let (u := u)); (intro h; clear_value u); rotate_left; subst u; rotate_right)
    | (extract_lets +onlyGivenNames v; subst v)
    | (split <;> beta_reduce))

theorem State.writeCounter_moves (a0) (s) : State.Moves [.boot, .nor] s (State.writeCounter a0 s) := by
  unfold State.writeCounter
  repeat' (first
    | (with_reducible intro)
    | with_reducible exact Moves.refl _ _
    | with_reducible assumption
    | ((with_reducible apply Moves.op (State.modNor_moves _ _)); decide)
    | ((with_reducible apply Moves.op (State.norErase_moves _ _ _ _)); decide)
    | ((with_reducible apply Moves.op (State.norProgram_moves _ _ _ _)); decide)
    | with_reducible apply Moves.ite
    | with_reducible apply Moves.when
    | (extract_lets +onlyGivenNames u; (with_reducible apply Moves.let (u := u)); (intro h; clear_value u); rotate_left; subst u; rotate_right)
    | (extract_lets +onlyGivenNames v; subst v)
    | split)

theorem execProcessorsRelease_moves (s) : ∃ t, execProcessorsRelease s = .next t ∧ State.Moves [.pins, .aon, .boot, .nor, .book, .ident, .power, .fa, .fb, .names, .prot, .ports, .seqs, .chorus, .cal, .mem, .therm, .pair] s t := by
  unfold execProcessorsRelease
  refine ⟨_, rfl, ?_⟩
  split
  · rename_i h
    extract_lets n t0 t1 t2 t3 t4 t5 t5b t6 t7
    have h0 : s.Moves [.pins, .aon, .boot, .nor, .book, .ident, .power, .fa, .fb, .names, .prot, .ports, .seqs, .chorus, .cal, .mem, .therm, .pair] t0 :=
      Moves.op (State.modIdent_moves _ _) (by decide) (Moves.op (State.writeCounter_moves _ _) (by decide)
        (Moves.op (State.norRead_moves _ _ _ _) (by decide) (Moves.refl _ _)))
    have h1 : s.Moves _ t1 := Moves.op (State.setStep_moves _ _) (by decide) (Moves.op (State.measureRelease_moves _) (by decide) h0)
    have f1 : t1.aon.fillComplete = true := h.2.2.2.1
    clear_value t0 t1
    have h2 : s.Moves _ t2 := Moves.op (State.modPins_moves _ _) (by decide)
      (State.modBoot_at (f := fun b => { b with released := true, releaseAt := t1.now }) (fun _ _ => f1) (fun _ _ => rfl) (fun r => r) (by decide) h1)
    clear_value t2
    have h3 : s.Moves _ t3 := State.modBook_moves (fun _ => ⟨rfl, rfl⟩) (by decide) h2
    clear_value t3
    have h4 : s.Moves _ t4 := State.modAon_moves (fun _ => ⟨rfl, rfl⟩) (by decide) h3
    clear_value t4
    have h5 : s.Moves _ t5 := Moves.when (fun u hu => Moves.op (State.emit_moves _ _ _ _ _) (by decide) hu) h4
    clear_value t5
    have h5b : s.Moves _ t5b := Moves.when (fun u hu => Moves.op (State.emit_moves _ _ _ _ _) (by decide) hu) h5
    clear_value t5b
    have h6 : s.Moves _ t6 := Moves.op (State.judgeBuffer_moves _) (by decide) (Moves.op (State.applyConfig_moves _) (by decide) h5b)
    clear_value t6
    have h7 : s.Moves _ t7 := Moves.op (State.modChorus_moves _ _) (by decide) h6
    clear_value t7
    exact Moves.op (State.noteEnded_moves _) (by decide) (Moves.each (fun p u hu => Moves.op (State.startTraining_moves _ _) (by decide) hu) h7)
  · exact Moves.refl _ _

theorem execPwrfailDeassert_moves (s) : ∃ t, execPwrfailDeassert s = .next t ∧ State.Moves [.pins, .aon, .boot, .nor, .book, .ident, .power, .fa, .fb, .ctxs, .admission, .decisions, .lastShared, .names, .prot, .ports, .spins, .acts, .seqs, .patch, .chorus, .actCals, .portCals, .cal, .mem, .mcache, .xing, .pair, .svc, .free] s t := by
  unfold execPwrfailDeassert
  repeat' (first
    | (with_reducible refine ⟨_, rfl, ?_⟩)
    | with_reducible exact Moves.refl _ _
    | ((with_reducible apply Moves.op (State.modPins_moves _ _)); decide)
    | ((with_reducible apply Moves.op (State.warmSource_moves _ _)); decide)
    | with_reducible apply Moves.ite)

theorem State.linkLost_moves (s) : State.Moves [.pins, .aon, .boot, .nor, .book, .ctxs, .decisions, .prot, .ports, .spins, .acts, .seqs, .chorus, .actCals, .xing, .therm, .pair, .svc, .out] s (State.linkLost s) := by
  unfold State.linkLost
  refine Moves.each (fun p u hu => Moves.ite ?_ (Moves.ite ?_ (State.modPort_moves (fun _ => ⟨rfl, rfl⟩) (by decide) hu)))
    (Moves.op (State.modPins_moves _ _) (by decide) (Moves.refl _ _))
  · exact Moves.op (State.portReset_moves _ _) (by decide) hu
  · refine Moves.op (State.noteService_moves _ _) (by decide) (Moves.op (State.stopUnits_moves _ _) (by decide) ?_)
    exact State.modPort_leaves (fun _ => rfl) (by decide) hu

theorem execRefclkLinkCheck_moves (a0) (s) : ∃ t, execRefclkLinkCheck a0 s = .next t ∧ State.Moves [.now, .pins, .aon, .boot, .nor, .book, .ctxs, .decisions, .prot, .ports, .spins, .acts, .seqs, .chorus, .actCals, .xing, .therm, .pair, .svc, .out] s t := by
  unfold execRefclkLinkCheck
  repeat' (first
    | (with_reducible intro)
    | (with_reducible refine ⟨_, rfl, ?_⟩)
    | with_reducible exact Moves.refl _ _
    | with_reducible assumption
    | ((with_reducible apply Moves.op (State.at__moves _ _)); decide)
    | ((with_reducible apply Moves.op (State.linkLost_moves _)); decide)
    | ((with_reducible apply Moves.op (State.modPins_moves _ _)); decide)
    | ((with_reducible apply Moves.op (State.startTraining_moves _ _)); decide)
    | with_reducible apply Moves.each
    | with_reducible apply Moves.ite
    | with_reducible apply Moves.when
    | (extract_lets +onlyGivenNames u; (with_reducible apply Moves.let (u := u)); (intro h; clear_value u); rotate_left; subst u; rotate_right)
    | (extract_lets +onlyGivenNames v; subst v)
    | (split <;> beta_reduce))

theorem execSysPwrokAssert_moves (s) : ∃ t, execSysPwrokAssert s = .next t ∧ State.Moves [.pins, .aon] s t := by
  unfold execSysPwrokAssert
  repeat' (first
    | (with_reducible intro)
    | (with_reducible refine ⟨_, rfl, ?_⟩)
    | with_reducible exact Moves.refl _ _
    | with_reducible assumption
    | ((with_reducible apply State.modAon_moves); exact fun _ => ⟨rfl, rfl⟩; decide)
    | ((with_reducible apply Moves.op (State.modPins_moves _ _)); decide)
    | ((with_reducible apply Moves.op (State.setCause_moves _ _)); decide)
    | ((with_reducible apply Moves.op (State.setStep_moves _ _)); decide)
    | with_reducible apply Moves.ite
    | with_reducible apply Moves.when
    | (extract_lets +onlyGivenNames u; (with_reducible apply Moves.let (u := u)); (intro h; clear_value u); rotate_left; subst u; rotate_right)
    | (extract_lets +onlyGivenNames v; subst v)
    | (split <;> beta_reduce))

theorem execSysPwrokDeassert_moves (s) : ∃ t, execSysPwrokDeassert s = .next t ∧ State.Moves (.pins :: .aon :: Part.cleared) s t := by
  unfold execSysPwrokDeassert
  repeat' (first
    | (with_reducible refine ⟨_, rfl, ?_⟩)
    | with_reducible exact Moves.refl _ _
    | ((with_reducible apply Moves.op (State.enterCold_moves _)); decide)
    | ((with_reducible apply State.modAon_moves); exact fun _ => ⟨rfl, rfl⟩; decide)
    | ((with_reducible apply Moves.op (State.modPins_moves _ _)); decide)
    | with_reducible apply Moves.ite)

theorem execTestEnChange_moves (a0) (s) : ∃ t, execTestEnChange a0 s = .next t ∧ State.Moves (.pins :: .aon :: Part.cleared) s t := by
  unfold execTestEnChange
  repeat' (first
    | (with_reducible refine ⟨_, rfl, ?_⟩)
    | with_reducible exact Moves.refl _ _
    | ((with_reducible apply Moves.op (State.modPins_moves _ _)); decide)
    | ((with_reducible apply Moves.op (State.testHold_moves _)); decide))

theorem execWatchdogExpiry_moves (s) : ∃ t, execWatchdogExpiry s = .next t ∧ State.Moves [.now, .pins, .aon, .boot, .nor, .book, .ident, .power, .fa, .fb, .ctxs, .admission, .decisions, .lastShared, .names, .prot, .ports, .spins, .acts, .seqs, .patch, .chorus, .actCals, .portCals, .cal, .mem, .mcache, .xing, .pair, .svc, .free] s t := by
  unfold execWatchdogExpiry
  repeat' (first
    | (with_reducible refine ⟨_, rfl, ?_⟩)
    | with_reducible exact Moves.refl _ _
    | ((with_reducible apply Moves.op (State.at__moves _ _)); decide)
    | ((with_reducible apply State.modAon_moves); exact fun _ => ⟨rfl, rfl⟩; decide)
    | ((with_reducible apply Moves.op (State.warmSource_moves _ _)); decide)
    | with_reducible apply Moves.ite)

theorem execWatchdogService_moves (s) : ∃ t, execWatchdogService s = .next t ∧ State.Moves [.aon] s t := by
  unfold execWatchdogService
  repeat' (first
    | (with_reducible refine ⟨_, rfl, ?_⟩)
    | with_reducible exact Moves.refl _ _
    | ((with_reducible apply State.modAon_moves); exact fun _ => ⟨rfl, rfl⟩; decide)
    | with_reducible apply Moves.ite)

end Sys2Proof.Machine
end

