-- ==== Sys2Proof/Laws/Layout.lean ====
section
/-! SUPPORT. What each operation and each command of Machine/Layout.lean can do to the state. -/

namespace Sys2Proof.Machine

theorem State.setPlace_moves (a0) (a1) (a2) (a3) (a4) (s) : State.Moves [.prot] s (State.setPlace a0 a1 a2 a3 a4 s) := by
  unfold State.setPlace
  repeat' (first
    | (with_reducible intro)
    | with_reducible exact Moves.refl _ _
    | with_reducible assumption
    | ((with_reducible apply Moves.op (State.modMember_moves _ _ _)); decide)
    | ((with_reducible apply Moves.op (State.modProt_moves _ _)); decide)
    | with_reducible apply Moves.ite
    | with_reducible apply Moves.when)

end Sys2Proof.Machine
end

