-- ==== Sys2Proof/Laws/Understudy.lean ====
section
/-! SUPPORT. What each operation of Machine/Understudy.lean can do to the state. -/

namespace Sys2Proof.Machine

theorem State.journalRec_moves (a0) (s) : State.Moves [.pair, .out] s (State.journalRec a0 s) := by
  unfold State.journalRec
  repeat' (first
    | (with_reducible intro)
    | with_reducible exact Moves.refl _ _
    | with_reducible assumption
    | ((with_reducible apply Moves.op (State.sendKept_moves _ _ _ _ _ _ _ _)); decide)
    | with_reducible apply Moves.when)

theorem State.excRec_moves (a0) (a1) (a2) (a3) (s) : State.Moves [.pair, .out] s (State.excRec a0 a1 a2 a3 s) := by
  unfold State.excRec
  repeat' (first
    | with_reducible exact Moves.refl _ _
    | ((with_reducible apply Moves.op (State.journalRec_moves _ _)); decide))

theorem State.watchSpare_step {l : List Part} {s t : State} {f : State → State} (hl : [.aon, .book, .prot] ⊆ l)
    (h : s.Moves l (f t)) : s.Moves l (t.watchSpare f) := by
  unfold State.watchSpare
  exact Moves.when (fun u hu => Moves.op (State.raiseProt_moves _ _ _) hl hu) h

theorem State.commitPlaces_moves (a0) (a1) (a2) (a3) (s) : State.Moves [.aon, .book, .prot] s (State.commitPlaces a0 a1 a2 a3 s) := by
  unfold State.commitPlaces
  repeat' (first
    | (with_reducible intro)
    | with_reducible exact Moves.refl _ _
    | with_reducible assumption
    | ((with_reducible apply Moves.op (State.raiseProt_moves _ _ _)); decide)
    | ((with_reducible apply Moves.op (State.recordExceptions_moves _)); decide)
    | ((with_reducible apply Moves.op (State.setPlace_moves _ _ _ _ _ _)); decide)
    | (unfold State.watchSpare; beta_reduce)
    | with_reducible apply Moves.each
    | with_reducible apply Moves.ite
    | with_reducible apply Moves.when
    | (extract_lets +onlyGivenNames u; (with_reducible apply Moves.let (u := u)); (intro h; clear_value u); rotate_left; subst u; rotate_right)
    | (extract_lets +onlyGivenNames v; subst v)
    | split)

theorem State.rebuildTo_moves (a0) (a1) (s) : State.Moves [.prot] s (State.rebuildTo a0 a1 s) := by
  unfold State.rebuildTo
  repeat' (first
    | with_reducible exact Moves.refl _ _
    | ((with_reducible apply Moves.op (State.modProt_moves _ _)); decide))

theorem State.newRebuild_moves (a) (b) (s) : State.Moves [.nor] s (State.newRebuild a b s).1 := State.startOp_moves _ _

theorem State.mirrorCheckpoint_moves (a0) (s) : State.Moves [.pair, .out] s (State.mirrorCheckpoint a0 s) := by
  unfold State.mirrorCheckpoint
  repeat' (first
    | (with_reducible intro)
    | with_reducible exact Moves.refl _ _
    | with_reducible assumption
    | ((with_reducible apply Moves.op (State.journalRec_moves _ _)); decide)
    | with_reducible apply Moves.ite
    | with_reducible apply Moves.when
    | (extract_lets +onlyGivenNames u; (with_reducible apply Moves.let (u := u)); (intro h; clear_value u); rotate_left; subst u; rotate_right)
    | (extract_lets +onlyGivenNames v; subst v)
    | split)

theorem State.putCheckpoint_moves (a0) (s) : State.Moves [.prot, .pair, .out] s (State.putCheckpoint a0 s) := by
  unfold State.putCheckpoint
  repeat' (first
    | (with_reducible intro)
    | with_reducible exact Moves.refl _ _
    | with_reducible assumption
    | ((with_reducible apply Moves.op (State.mirrorCheckpoint_moves _ _)); decide)
    | ((with_reducible apply Moves.op (State.record_moves _ _)); decide)
    | with_reducible apply Moves.ite
    | with_reducible apply Moves.when
    | (extract_lets +onlyGivenNames u; (with_reducible apply Moves.let (u := u)); (intro h; clear_value u); rotate_left; subst u; rotate_right)
    | (extract_lets +onlyGivenNames v; subst v)
    | split)

theorem State.rebuildCancelled_moves (s) : State.Moves [.prot, .pair, .out] s (State.rebuildCancelled s) := by
  unfold State.rebuildCancelled
  repeat' (first
    | (with_reducible intro)
    | with_reducible exact Moves.refl _ _
    | with_reducible assumption
    | ((with_reducible apply Moves.op (State.modProt_moves _ _)); decide)
    | ((with_reducible apply Moves.op (State.putCheckpoint_moves _ _)); decide)
    | ((with_reducible apply Moves.op (State.rebuildTo_moves _ _ _)); decide)
    | with_reducible apply Moves.ite
    | with_reducible apply Moves.when
    | (extract_lets +onlyGivenNames u; (with_reducible apply Moves.let (u := u)); (intro h; clear_value u); rotate_left; subst u; rotate_right)
    | (extract_lets +onlyGivenNames v; subst v)
    | split)

theorem State.memberRecAs_moves (a0) (a1) (s) : State.Moves [.prot, .pair, .out] s (State.memberRecAs a0 a1 s) := by
  unfold State.memberRecAs
  repeat' (first
    | (with_reducible intro)
    | with_reducible exact Moves.refl _ _
    | with_reducible assumption
    | ((with_reducible apply Moves.op (State.journalRec_moves _ _)); decide)
    | ((with_reducible apply Moves.op (State.recordMembers_moves _)); decide)
    | with_reducible apply Moves.ite
    | with_reducible apply Moves.when
    | (extract_lets +onlyGivenNames u; (with_reducible apply Moves.let (u := u)); (intro h; clear_value u); rotate_left; subst u; rotate_right)
    | (extract_lets +onlyGivenNames v; subst v)
    | split)

theorem State.memberRec_moves (a0) (s) : State.Moves [.prot, .pair, .out] s (State.memberRec a0 s) := by
  unfold State.memberRec
  repeat' (first
    | (with_reducible intro)
    | with_reducible exact Moves.refl _ _
    | with_reducible assumption
    | ((with_reducible apply Moves.op (State.memberRecAs_moves _ _ _)); decide)
    | with_reducible apply Moves.ite
    | with_reducible apply Moves.when
    | (extract_lets +onlyGivenNames u; (with_reducible apply Moves.let (u := u)); (intro h; clear_value u); rotate_left; subst u; rotate_right)
    | (extract_lets +onlyGivenNames v; subst v)
    | split)

theorem State.retireMembers_moves (s) : State.Moves [.prot, .pair, .out] s (State.retireMembers s) := by
  unfold State.retireMembers
  repeat' (first
    | (with_reducible intro)
    | with_reducible exact Moves.refl _ _
    | with_reducible assumption
    | ((with_reducible apply Moves.op (State.memberRec_moves _ _)); decide)
    | ((with_reducible apply Moves.op (State.modMember_moves _ _ _)); decide)
    | with_reducible apply Moves.each
    | with_reducible apply Moves.ite
    | with_reducible apply Moves.when
    | (extract_lets +onlyGivenNames u; (with_reducible apply Moves.let (u := u)); (intro h; clear_value u); rotate_left; subst u; rotate_right)
    | (extract_lets +onlyGivenNames v; subst v)
    | split)

theorem State.rebuildEnd_moves (s) : State.Moves [.aon, .nor, .book, .prot, .pair, .out] s (State.rebuildEnd s) := by
  unfold State.rebuildEnd
  repeat' (first
    | (with_reducible intro)
    | with_reducible exact Moves.refl _ _
    | with_reducible assumption
    | ((with_reducible apply Moves.op (State.endOp_moves _ _ _ _)); decide)
    | ((with_reducible apply Moves.op (State.modOp_moves _ _ _)); decide)
    | ((with_reducible apply Moves.op (State.modProt_moves _ _)); decide)
    | ((with_reducible apply Moves.op (State.putCheckpoint_moves _ _)); decide)
    | ((with_reducible apply Moves.op (State.raiseProt_moves _ _ _)); decide)
    | ((with_reducible apply Moves.op (State.rebuildTo_moves _ _ _)); decide)
    | ((with_reducible apply Moves.op (State.retireMembers_moves _)); decide)
    | with_reducible apply Moves.ite
    | with_reducible apply Moves.when
    | (extract_lets +onlyGivenNames u; (with_reducible apply Moves.let (u := u)); (intro h; clear_value u); rotate_left; subst u; rotate_right)
    | (extract_lets +onlyGivenNames v; subst v)
    | split)

theorem State.commitPoint_moves (s) : State.Moves [.aon, .nor, .book, .prot, .pair, .out] s (State.commitPoint s) := by
  unfold State.commitPoint
  repeat' (first
    | (with_reducible intro)
    | with_reducible exact Moves.refl _ _
    | with_reducible assumption
    | ((with_reducible apply Moves.op (State.endOp_moves _ _ _ _)); decide)
    | ((with_reducible apply Moves.op (State.opPoint_moves _ _)); decide)
    | ((with_reducible apply Moves.op (State.rebuildCancelled_moves _)); decide)
    | ((with_reducible apply Moves.op (State.rebuildEnd_moves _)); decide)
    | ((with_reducible apply Moves.op (State.rebuildTo_moves _ _ _)); decide)
    | with_reducible apply Moves.ite
    | with_reducible apply Moves.when
    | (extract_lets +onlyGivenNames u; (with_reducible apply Moves.let (u := u)); (intro h; clear_value u); rotate_left; subst u; rotate_right)
    | (extract_lets +onlyGivenNames v; subst v)
    | split)

theorem State.stripeDone_moves (a0) (a1) (s) : State.Moves [.aon, .nor, .book, .prot, .pair, .out] s (State.stripeDone a0 a1 s) := by
  unfold State.stripeDone
  repeat' (first
    | (with_reducible intro)
    | with_reducible exact Moves.refl _ _
    | with_reducible assumption
    | ((with_reducible apply Moves.op (State.commitPoint_moves _)); decide)
    | ((with_reducible apply Moves.op (State.modOp_moves _ _ _)); decide)
    | ((with_reducible apply Moves.op (State.modProt_moves _ _)); decide)
    | with_reducible apply Moves.ite
    | with_reducible apply Moves.when
    | (extract_lets +onlyGivenNames u; (with_reducible apply Moves.let (u := u)); (intro h; clear_value u); rotate_left; subst u; rotate_right)
    | (extract_lets +onlyGivenNames v; subst v)
    | split)

theorem State.endWorks_moves (a0) (a1) (s) : State.Moves [.aon, .nor, .book, .prot, .pair, .out] s (State.endWorks a0 a1 s) := by
  unfold State.endWorks
  repeat' (first
    | (with_reducible intro)
    | with_reducible exact Moves.refl _ _
    | with_reducible assumption
    | ((with_reducible apply Moves.op (State.commitPlaces_moves _ _ _ _ _)); decide)
    | ((with_reducible apply Moves.op (State.commitPoint_moves _)); decide)
    | ((with_reducible apply Moves.op (State.excRec_moves _ _ _ _ _)); decide)
    | ((with_reducible apply Moves.op (State.modProt_moves _ _)); decide)
    | ((with_reducible apply Moves.op (State.stripeDone_moves _ _ _)); decide)
    | with_reducible apply Moves.each
    | with_reducible apply Moves.ite
    | with_reducible apply Moves.when
    | (extract_lets +onlyGivenNames u; (with_reducible apply Moves.let (u := u)); (intro h; clear_value u); rotate_left; subst u; rotate_right)
    | (extract_lets +onlyGivenNames v; subst v)
    | split)

theorem State.rebuildWaits_moves (s) : State.Moves [.nor, .prot] s (State.rebuildWaits s) := by
  unfold State.rebuildWaits
  repeat' (first
    | (with_reducible intro)
    | with_reducible exact Moves.refl _ _
    | with_reducible assumption
    | ((with_reducible apply Moves.op (State.modProt_moves _ _)); decide)
    | ((with_reducible apply Moves.op (State.newRebuild_moves _ _ _)); decide)
    | ((with_reducible apply Moves.op (State.rebuildTo_moves _ _ _)); decide)
    | with_reducible apply Moves.ite
    | with_reducible apply Moves.when
    | (extract_lets +onlyGivenNames u; (with_reducible apply Moves.let (u := u)); (intro h; clear_value u); rotate_left; subst u; rotate_right)
    | (extract_lets +onlyGivenNames v; subst v)
    | split)

theorem State.takeRebuild_moves (s) : State.Moves [.nor, .prot] s (State.takeRebuild s) := by
  unfold State.takeRebuild
  repeat' (first
    | (with_reducible intro)
    | with_reducible exact Moves.refl _ _
    | with_reducible assumption
    | ((with_reducible apply Moves.op (State.modOp_moves _ _ _)); decide)
    | ((with_reducible apply Moves.op (State.modProt_moves _ _)); decide)
    | ((with_reducible apply Moves.op (State.newRebuild_moves _ _ _)); decide)
    | ((with_reducible apply Moves.op (State.rebuildTo_moves _ _ _)); decide)
    | ((with_reducible apply Moves.op (State.rebuildWaits_moves _)); decide)
    | with_reducible apply Moves.ite
    | with_reducible apply Moves.when
    | (extract_lets +onlyGivenNames u; (with_reducible apply Moves.let (u := u)); (intro h; clear_value u); rotate_left; subst u; rotate_right)
    | (extract_lets +onlyGivenNames v; subst v)
    | split)

theorem State.dropWorks_moves (a0) (s) : State.Moves [.prot] s (State.dropWorks a0 s) := by
  unfold State.dropWorks
  repeat' (first
    | (with_reducible intro)
    | with_reducible exact Moves.refl _ _
    | with_reducible assumption
    | ((with_reducible apply Moves.op (State.modProt_moves _ _)); decide)
    | with_reducible apply Moves.ite
    | with_reducible apply Moves.when
    | (extract_lets +onlyGivenNames u; (with_reducible apply Moves.let (u := u)); (intro h; clear_value u); rotate_left; subst u; rotate_right)
    | (extract_lets +onlyGivenNames v; subst v)
    | split)

theorem State.worksGone_moves (s) : State.Moves [.aon, .nor, .book, .prot, .pair, .out] s (State.worksGone s) := by
  unfold State.worksGone
  repeat' (first
    | (with_reducible intro)
    | with_reducible exact Moves.refl _ _
    | with_reducible assumption
    | ((with_reducible apply Moves.op (State.commitPoint_moves _)); decide)
    | with_reducible apply Moves.ite
    | with_reducible apply Moves.when
    | (extract_lets +onlyGivenNames u; (with_reducible apply Moves.let (u := u)); (intro h; clear_value u); rotate_left; subst u; rotate_right)
    | (extract_lets +onlyGivenNames v; subst v)
    | split)

theorem State.seatMember_moves (a0) (a1) (a2) (a3) (a4) (a5) (s) : State.Moves [.prot] s (State.seatMember a0 a1 a2 a3 a4 a5 s) := by
  unfold State.seatMember
  repeat' (first
    | (with_reducible intro)
    | with_reducible exact Moves.refl _ _
    | with_reducible assumption
    | ((with_reducible apply Moves.op (State.dropWorks_moves _ _)); decide)
    | ((with_reducible apply Moves.op (State.modMember_moves _ _ _)); decide)
    | ((with_reducible apply Moves.op (State.modProt_moves _ _)); decide)
    | with_reducible apply Moves.ite
    | with_reducible apply Moves.when
    | (extract_lets +onlyGivenNames u; (with_reducible apply Moves.let (u := u)); (intro h; clear_value u); rotate_left; subst u; rotate_right)
    | (extract_lets +onlyGivenNames v; subst v)
    | split)

end Sys2Proof.Machine
end

