-- ==== Sys2Proof/Laws/Ready.lean ====
section
/-! SUPPORT. What each operation and each command of Machine/Ready.lean can do to the state. -/

namespace Sys2Proof.Machine

theorem State.takenDone_moves (s) : State.Moves [.pair, .out] s (State.takenDone s) := by
  unfold State.takenDone
  repeat' (first
    | with_reducible exact Moves.refl _ _
    | ((with_reducible apply Moves.op (State.modPair_moves _ _)); decide)
    | ((with_reducible apply Moves.op (State.sendWings_moves _ _ _ _)); decide)
    | with_reducible apply Moves.ite
    | split)

theorem State.loadDir_moves (a0) (s) : State.Moves [.names] s (State.loadDir a0 s) := by
  unfold State.loadDir
  repeat' (first
    | (with_reducible intro)
    | with_reducible exact Moves.refl _ _
    | with_reducible assumption
    | ((with_reducible apply Moves.op (State.modNames_moves _ _)); decide)
    | with_reducible apply Moves.ite
    | with_reducible apply Moves.when
    | (extract_lets +onlyGivenNames u; (with_reducible apply Moves.let (u := u)); (intro h; clear_value u); rotate_left; subst u; rotate_right)
    | (extract_lets +onlyGivenNames v; subst v)
    | split)

theorem State.noteReady_moves (s) : State.Moves [.names] s (State.noteReady s) := by
  unfold State.noteReady
  repeat' (first
    | (with_reducible intro)
    | with_reducible exact Moves.refl _ _
    | with_reducible assumption
    | ((with_reducible apply Moves.op (State.loadDir_moves _ _)); decide)
    | ((with_reducible apply Moves.op (State.modNames_moves _ _)); decide)
    | with_reducible apply Moves.each
    | with_reducible apply Moves.ite
    | with_reducible apply Moves.when
    | (extract_lets +onlyGivenNames u; (with_reducible apply Moves.let (u := u)); (intro h; clear_value u); rotate_left; subst u; rotate_right)
    | (extract_lets +onlyGivenNames v; subst v)
    | split)

theorem State.noteProgress_moves (s) : State.Moves [.aon] s (State.noteProgress s) := by
  unfold State.noteProgress
  repeat' (first
    | with_reducible exact Moves.refl _ _
    | ((with_reducible apply Moves.op (State.setStep_moves _ _)); decide)
    | with_reducible apply Moves.ite)

theorem State.settle_moves (s) : State.Moves [.aon, .power, .names, .prot, .pair, .out] s (State.settle s) := by
  unfold State.settle
  repeat' (first
    | (with_reducible intro)
    | with_reducible exact Moves.refl _ _
    | with_reducible assumption
    | ((with_reducible apply Moves.op (State.modPower_moves _ _)); decide)
    | ((with_reducible apply Moves.op (State.noteProgress_moves _)); decide)
    | ((with_reducible apply Moves.op (State.noteReady_moves _)); decide)
    | ((with_reducible apply Moves.op (State.noteServices_moves _)); decide)
    | ((with_reducible apply Moves.op (State.takenDone_moves _)); decide)
    | with_reducible apply Moves.ite
    | with_reducible apply Moves.when
    | (extract_lets +onlyGivenNames u; (with_reducible apply Moves.let (u := u)); (intro h; clear_value u); rotate_left; subst u; rotate_right)
    | (extract_lets +onlyGivenNames v; subst v)
    | split)

theorem State.handSend_moves (s) : State.Moves [.pair, .out] s (State.handSend s) := by
  unfold State.handSend
  repeat' (first
    | with_reducible exact Moves.refl _ _
    | ((with_reducible apply Moves.op (State.modPair_moves _ _)); decide)
    | ((with_reducible apply Moves.op (State.sendWings_moves _ _ _ _)); decide)
    | with_reducible apply Moves.ite
    | split)

theorem State.tryService_moves (a0) (s) : State.Moves [.prot, .ports] s (State.tryService a0 s) := by
  unfold State.tryService
  extract_lets x v ok
  split
  · rename_i h
    refine Moves.op (State.noteService_moves _ _) (by decide) (Moves.base (Moves.refl _ s) ?_ rfl rfl
      fun i => ⟨i.filled, i.complete, i.ready, i.bufs, ?_, i.therms, i.holds, i.ring, i.ctxs⟩)
    · intro x hx; cases x <;> first | exact absurd (by decide) hx | rfl
    · intro q
      show (upd s.ports a0 _)[q].servedTrained
      rw [upd_get]
      split
      · rename_i e
        subst e
        intro _
        simp only [ok, x, Bool.and_eq_true, beq_iff_eq] at h
        exact h.1.1.1.1.1.1.1.1
      · exact i.served q
  · exact Moves.refl _ _

end Sys2Proof.Machine
end

