-- ==== Sys2Proof/Laws/Link.lean ====
section
/-! SUPPORT. What each operation and each command of Machine/Link.lean can do to the state. -/

namespace Sys2Proof.Machine

theorem State.trainFails_moves (a0) (a1) (s) : State.Moves [.aon, .boot, .book, .power, .names, .prot, .ports, .pair, .out] s (State.trainFails a0 a1 s) := by
  unfold State.trainFails
  repeat' (first
    | (with_reducible intro)
    | with_reducible exact Moves.refl _ _
    | with_reducible assumption
    | ((with_reducible apply Moves.op (State.portFail_moves _ _ _)); decide)
    | ((with_reducible apply Moves.op (State.settle_moves _)); decide)
    | with_reducible apply Moves.ite
    | with_reducible apply Moves.when
    | (extract_lets +onlyGivenNames u; (with_reducible apply Moves.let (u := u)); (intro h; clear_value u); rotate_left; subst u; rotate_right)
    | (extract_lets +onlyGivenNames v; subst v)
    | split)

theorem State.attemptFails_moves (a0) (s) : State.Moves [.aon, .boot, .book, .power, .names, .prot, .ports, .pair, .out] s (State.attemptFails a0 s) := by
  unfold State.attemptFails
  repeat' (first
    | (with_reducible intro)
    | with_reducible exact Moves.refl _ _
    | with_reducible assumption
    | ((with_reducible apply State.modPort_moves); exact fun _ => ⟨rfl, rfl⟩; decide)
    | ((with_reducible apply State.modPort_leaves); exact fun _ => rfl; decide)
    | ((with_reducible apply State.modPort_served); exact fun _ _ _ => rfl; decide)
    | ((with_reducible apply State.modPort_moves); (intro _; (try dsimp only); split <;> exact ⟨rfl, rfl⟩); decide)
    | ((with_reducible apply Moves.op (State.trainFails_moves _ _ _)); decide)
    | with_reducible apply Moves.ite
    | with_reducible apply Moves.when
    | (extract_lets +onlyGivenNames u; (with_reducible apply Moves.let (u := u)); (intro h; clear_value u); rotate_left; subst u; rotate_right)
    | (extract_lets +onlyGivenNames v; subst v)
    | split)

theorem State.seqError_moves (a0) (s) : State.Moves [.ports] s (State.seqError a0 s) := by
  unfold State.seqError
  repeat' (first
    | with_reducible exact Moves.refl _ _
    | ((with_reducible apply State.modPort_moves); exact fun _ => ⟨rfl, rfl⟩; decide))

theorem State.lanesBad_moves (a0) (s) : State.Moves [.aon, .boot, .nor, .book, .power, .ctxs, .decisions, .names, .prot, .ports, .spins, .acts, .seqs, .chorus, .actCals, .xing, .therm, .pair, .svc, .out] s (State.lanesBad a0 s) := by
  unfold State.lanesBad
  repeat' (first
    | (with_reducible intro)
    | with_reducible exact Moves.refl _ _
    | with_reducible assumption
    | ((with_reducible apply Moves.op (State.portReset_moves _ _)); decide)
    | ((with_reducible apply Moves.op (State.settle_moves _)); decide)
    | with_reducible apply Moves.ite
    | with_reducible apply Moves.when
    | (extract_lets +onlyGivenNames u; (with_reducible apply Moves.let (u := u)); (intro h; clear_value u); rotate_left; subst u; rotate_right)
    | (extract_lets +onlyGivenNames v; subst v)
    | split)

theorem State.blockDropped_moves (a0) (s) : State.Moves [.ports] s (State.blockDropped a0 s) := by
  unfold State.blockDropped
  repeat' (first
    | (with_reducible intro)
    | with_reducible exact Moves.refl _ _
    | with_reducible assumption
    | ((with_reducible apply State.modPort_moves); exact fun _ => ⟨rfl, rfl⟩; decide)
    | ((with_reducible apply State.modPort_leaves); exact fun _ => rfl; decide)
    | ((with_reducible apply State.modPort_served); exact fun _ _ _ => rfl; decide)
    | ((with_reducible apply State.modPort_moves); (intro _; (try dsimp only); split <;> exact ⟨rfl, rfl⟩); decide)
    | ((with_reducible apply Moves.op (State.seqError_moves _ _)); decide)
    | with_reducible apply Moves.ite
    | with_reducible apply Moves.when
    | (extract_lets +onlyGivenNames u; (with_reducible apply Moves.let (u := u)); (intro h; clear_value u); rotate_left; subst u; rotate_right)
    | (extract_lets +onlyGivenNames v; subst v)
    | split)

theorem State.blockLost_moves (a0) (s) : State.Moves [.aon, .boot, .nor, .book, .power, .ctxs, .decisions, .names, .prot, .ports, .spins, .acts, .seqs, .chorus, .actCals, .xing, .therm, .pair, .svc, .out] s (State.blockLost a0 s) := by
  unfold State.blockLost
  repeat' (first
    | (with_reducible intro)
    | with_reducible exact Moves.refl _ _
    | with_reducible assumption
    | ((with_reducible apply Moves.op (State.blockDropped_moves _ _)); decide)
    | ((with_reducible apply Moves.op (State.lanesBad_moves _ _)); decide)
    | ((with_reducible apply State.modPort_moves); exact fun _ => ⟨rfl, rfl⟩; decide)
    | ((with_reducible apply State.modPort_leaves); exact fun _ => rfl; decide)
    | ((with_reducible apply State.modPort_served); exact fun _ _ _ => rfl; decide)
    | ((with_reducible apply State.modPort_moves); (intro _; (try dsimp only); split <;> exact ⟨rfl, rfl⟩); decide)
    | with_reducible apply Moves.ite
    | with_reducible apply Moves.when
    | (extract_lets +onlyGivenNames u; (with_reducible apply Moves.let (u := u)); (intro h; clear_value u); rotate_left; subst u; rotate_right)
    | (extract_lets +onlyGivenNames v; subst v)
    | split)

theorem HostFn.spend_kept (x : HostFn) (c : Fin 5) : (x.spend c).rdy = x.rdy ∧ (x.spend c).download = x.download := by
  unfold HostFn.spend
  repeat' split
  all_goals exact ⟨rfl, rfl⟩

theorem HostFn.pick_kept {x y : HostFn} {q : Nat} (h : x.pick = some (q, y)) : y.rdy = x.rdy ∧ y.download = x.download := by
  unfold HostFn.pick at h
  extract_lets ready ids take live at h
  have k : ∀ {z : HostFn} {c : Fin 5} {q : Nat} {y : HostFn}, take z c = some (q, y) → y.rdy = z.rdy ∧ y.download = z.download := by
    intro z c q y e
    simp only [take, Option.map_eq_some_iff, Prod.mk.injEq] at e
    obtain ⟨n, -, -, rfl⟩ := e
    exact HostFn.spend_kept z c
  clear_value take live ready
  split at h
  · simp only [Option.some.injEq, Prod.mk.injEq] at h; rw [← h.2]; exact ⟨rfl, rfl⟩
  · split at h
    · exact k h
    · split at h
      · exact k h
      · split at h
        · exact k h
        · split at h
          · have e := k h
            exact e
          · simp at h

/-- The symbols of a byte give it back. -/
theorem byteLevels_back : ∀ b : Byte, ∀ r : List (Fin 4), laneBytes (byteLevels b ++ r) = b :: laneBytes r := by
  intro b r
  have h : BitVec.ofNat 8 (grayPair (grayLevel (b.toNat / 4 ^ 0)) + 4 * grayPair (grayLevel (b.toNat / 4 ^ 1)) +
      16 * grayPair (grayLevel (b.toNat / 4 ^ 2)) + 64 * grayPair (grayLevel (b.toNat / 4 ^ 3))) = b := by
    revert b; decide +kernel
  simp only [byteLevels, List.map_cons, List.map_nil, List.cons_append, List.nil_append, laneBytes, h]

/-- The symbols of bytes give them back (spec/03 R92). -/
@[simp] theorem laneBytes_laneLevels (bs : List Byte) : laneBytes (laneLevels bs) = bs := by
  induction bs with
  | nil => rfl
  | cons b bs ih => rw [laneLevels, List.flatMap_cons, byteLevels_back, ← laneLevels, ih]

theorem Port.nextBlock_service (x : Port) (n : Nat) (room : WriteBits → Bool) :
    (x.nextBlock n room).2.2.inService = x.inService ∧ (x.nextBlock n room).2.2.train = x.train := by
  unfold Port.nextBlock
  split
  · exact ⟨rfl, rfl⟩
  · extract_lets packets
    split
    · exact ⟨rfl, rfl⟩
    · split
      · dsimp only
        split <;> exact ⟨rfl, rfl⟩
      · split <;> exact ⟨rfl, rfl⟩

theorem Port.align_service (c : Bool) (n : Nat) (x : Port) : (x.align c n).inService = x.inService ∧ (x.align c n).train = x.train := by
  unfold Port.align
  repeat' (first | exact ⟨rfl, rfl⟩ | split)

theorem Port.countEvents_service (e : Fin 6) (n : Nat) (x : Port) :
    (x.countEvents e n).inService = x.inService ∧ (x.countEvents e n).train = x.train := by
  unfold Port.countEvents
  split <;> exact ⟨rfl, rfl⟩

theorem State.crossbar_moves (a0) (a1) (a2) (a3) (a4) (s) : State.Moves [.ports, .chorus] s (State.crossbar a0 a1 a2 a3 a4 s) := by
  unfold State.crossbar
  repeat' (first
    | (with_reducible intro)
    | with_reducible exact Moves.refl _ _
    | with_reducible assumption
    | ((with_reducible apply Moves.op (State.modEng_moves _ _ _)); decide)
    | ((with_reducible apply Moves.op (State.seqError_moves _ _)); decide)
    | with_reducible apply Moves.ite
    | with_reducible apply Moves.when
    | (extract_lets +onlyGivenNames u; (with_reducible apply Moves.let (u := u)); (intro h; clear_value u); rotate_left; subst u; rotate_right)
    | (extract_lets +onlyGivenNames v; subst v)
    | split)

theorem State.receiveBlock_moves (p) (bs) (s) : State.Moves [.aon, .boot, .nor, .book, .power, .ctxs, .decisions, .names, .prot, .ports, .spins, .acts, .seqs, .chorus, .actCals, .xing, .therm, .pair, .svc, .out] s (State.receiveBlock p bs s).1 := by
  unfold State.receiveBlock
  split
  · exact Moves.op (State.blockLost_moves _ _) (by decide) (Moves.refl _ _)
  · rename_i raw errors _
    extract_lets +onlyGivenNames t
    have h : s.Moves [.aon, .boot, .nor, .book, .power, .ctxs, .decisions, .names, .prot, .ports, .spins, .acts, .seqs, .chorus, .actCals, .xing, .therm, .pair, .svc, .out] t :=
      Moves.when (fun u hu => State.modPort_moves (fun _ => ⟨rfl, rfl⟩) (by decide) hu) (Moves.refl _ _)
    split
    · exact State.modPort_moves (fun x => Port.align_service _ _ x) (by decide) h
    · extract_lets +onlyGivenNames q u hd type side first last seq detail head pairs counted
      have hu : s.Moves [.aon, .boot, .nor, .book, .power, .ctxs, .decisions, .names, .prot, .ports, .spins, .acts, .seqs, .chorus, .actCals, .xing, .therm, .pair, .svc, .out] u := State.modPort_moves (fun _ => ⟨rfl, rfl⟩) (by decide) h
      have hc : ∀ (b : Bool) {v : State}, s.Moves [.aon, .boot, .nor, .book, .power, .ctxs, .decisions, .names, .prot, .ports, .spins, .acts, .seqs, .chorus, .actCals, .xing, .therm, .pair, .svc, .out] v → s.Moves [.aon, .boot, .nor, .book, .power, .ctxs, .decisions, .names, .prot, .ports, .spins, .acts, .seqs, .chorus, .actCals, .xing, .therm, .pair, .svc, .out] (counted b v) := fun b _ hv =>
        Moves.when (fun w hw => Moves.op (State.seqError_moves _ _) (by decide) hw) hv
      clear_value counted
      split
      · exact hu
      · split
        · exact hc _ (State.modPort_moves (fun _ => ⟨rfl, rfl⟩) (by decide) hu)
        · split
          · refine Moves.when (fun w hw => Moves.op (State.crossbar_moves _ _ _ _ _ _) (by decide) hw) ?_
            exact hc _ (State.modPort_moves (fun _ => by split <;> exact ⟨rfl, rfl⟩) (by decide) hu)
          · split
            · exact hc _ (State.modPort_moves (fun _ => by split <;> exact ⟨rfl, rfl⟩) (by decide) hu)
            · exact Moves.op (State.seqError_moves _ _) (by decide) hu

theorem State.portResetKeep_moves (a0) (s) : State.Moves [.aon, .boot, .nor, .book, .ctxs, .decisions, .prot, .ports, .spins, .acts, .seqs, .chorus, .actCals, .xing, .therm, .pair, .svc, .out] s (State.portResetKeep a0 s) := by
  unfold State.portResetKeep
  repeat' (first
    | (with_reducible intro)
    | with_reducible exact Moves.refl _ _
    | with_reducible assumption
    | ((with_reducible apply State.modPort_moves); exact fun _ => ⟨rfl, rfl⟩; decide)
    | ((with_reducible apply State.modPort_leaves); exact fun _ => rfl; decide)
    | ((with_reducible apply State.modPort_served); exact fun _ _ _ => rfl; decide)
    | ((with_reducible apply State.modPort_moves); (intro _; (try dsimp only); split <;> exact ⟨rfl, rfl⟩); decide)
    | ((with_reducible apply Moves.op (State.noteService_moves _ _)); decide)
    | ((with_reducible apply Moves.op (State.portReset_moves _ _)); decide)
    | with_reducible apply Moves.ite
    | with_reducible apply Moves.when
    | (extract_lets +onlyGivenNames u; (with_reducible apply Moves.let (u := u)); (intro h; clear_value u); rotate_left; subst u; rotate_right)
    | (extract_lets +onlyGivenNames v; subst v)
    | split)

theorem execClockPresentClear_moves (a0) (a1) (s) : ∃ t, execClockPresentClear a0 a1 s = .next t ∧ State.Moves [.aon, .boot, .nor, .book, .power, .ctxs, .decisions, .names, .prot, .ports, .spins, .acts, .seqs, .chorus, .actCals, .xing, .therm, .pair, .svc, .out] s t := by
  unfold execClockPresentClear
  repeat' (first
    | (with_reducible intro)
    | (with_reducible refine ⟨_, rfl, ?_⟩)
    | with_reducible exact Moves.refl _ _
    | with_reducible assumption
    | ((with_reducible apply State.modPort_moves); exact fun _ => ⟨rfl, rfl⟩; decide)
    | ((with_reducible apply State.modPort_leaves); exact fun _ => rfl; decide)
    | ((with_reducible apply State.modPort_served); exact fun _ _ _ => rfl; decide)
    | ((with_reducible apply State.modPort_moves); (intro _; (try dsimp only); split <;> exact ⟨rfl, rfl⟩); decide)
    | ((with_reducible apply Moves.op (State.portResetKeep_moves _ _)); decide)
    | ((with_reducible apply Moves.op (State.settle_moves _)); decide)
    | with_reducible apply Moves.ite
    | with_reducible apply Moves.when
    | (extract_lets +onlyGivenNames u; (with_reducible apply Moves.let (u := u)); (intro h; clear_value u); rotate_left; subst u; rotate_right)
    | (extract_lets +onlyGivenNames v; subst v)
    | (split <;> beta_reduce))

theorem State.noteBits_moves (a0) (a1) (s) : State.Moves [.chorus] s (State.noteBits a0 a1 s) := by
  unfold State.noteBits
  repeat' (first
    | (with_reducible intro)
    | with_reducible exact Moves.refl _ _
    | with_reducible assumption
    | ((with_reducible apply Moves.op (State.modPool_moves _ _ _)); decide)
    | with_reducible apply Moves.ite
    | with_reducible apply Moves.when
    | (extract_lets +onlyGivenNames u; (with_reducible apply Moves.let (u := u)); (intro h; clear_value u); rotate_left; subst u; rotate_right)
    | (extract_lets +onlyGivenNames v; subst v)
    | split)

theorem execCommandLaneBlockSend_moves (a0) (s) : ∃ t, execCommandLaneBlockSend a0 s = .next t ∧ State.Moves [.ports, .chorus, .xing, .out] s t := by
  unfold execCommandLaneBlockSend
  refine ⟨_, rfl, ?_⟩
  split
  · extract_lets y q x sent t
    have ht : s.Moves [.ports, .chorus, .xing, .out] t := by
      simp only [t]
      split
      · exact Moves.ite (Moves.op (State.noteBits_moves _ _ _) (by decide) (Moves.refl _ _)) (Moves.refl _ _)
      · exact Moves.refl _ _
    have hp : t.port a0 = s.port a0 := by
      simp only [t]
      split
      · split <;> rfl
      · rfl
    clear_value t
    suffices h : s.Moves [.ports, .chorus, .xing, .out] _ from
      Moves.ite (Moves.op (State.discard_moves _) (by decide) h) (Moves.op (State.emitOut_moves _ _) (by decide) h)
    refine State.modPort_at (fun i e => ?_) (by decide) ht
    have k := Port.nextBlock_service (s.port a0) s.linkNow.toNat (s.bitsRoom a0)
    have g : (s.port a0).servedTrained := hp ▸ i.served a0
    exact k.2.trans (g (k.1 ▸ e))
  · exact Moves.refl _ _

theorem execPacketResponseTimeout_moves (a0) (a1) (s) : ∃ t, execPacketResponseTimeout a0 a1 s = .next t ∧ State.Moves [.now, .aon, .boot, .nor, .book, .power, .ctxs, .decisions, .names, .prot, .ports, .spins, .acts, .seqs, .chorus, .actCals, .xing, .therm, .pair, .svc, .out] s t := by
  unfold execPacketResponseTimeout
  repeat' (first
    | (with_reducible intro)
    | (with_reducible refine ⟨_, rfl, ?_⟩)
    | with_reducible exact Moves.refl _ _
    | with_reducible assumption
    | ((with_reducible apply Moves.op (State.answered_moves _ _ _)); decide)
    | ((with_reducible apply Moves.op (State.at__moves _ _)); decide)
    | ((with_reducible apply Moves.op (State.attemptFails_moves _ _)); decide)
    | ((with_reducible apply State.modPort_moves); exact fun _ => ⟨rfl, rfl⟩; decide)
    | ((with_reducible apply State.modPort_leaves); exact fun _ => rfl; decide)
    | ((with_reducible apply State.modPort_served); exact fun _ _ _ => rfl; decide)
    | ((with_reducible apply State.modPort_moves); (intro _; (try dsimp only); split <;> exact ⟨rfl, rfl⟩); decide)
    | ((with_reducible apply Moves.op (State.portReset_moves _ _)); decide)
    | ((with_reducible apply Moves.op (State.resend_moves _ _ _ _)); decide)
    | ((with_reducible apply Moves.op (State.settle_moves _)); decide)
    | with_reducible apply Moves.ite
    | with_reducible apply Moves.when
    | (extract_lets +onlyGivenNames u; (with_reducible apply Moves.let (u := u)); (intro h; clear_value u); rotate_left; subst u; rotate_right)
    | (extract_lets +onlyGivenNames v; subst v)
    | (split <;> beta_reduce))

theorem execPulseTransfer_moves (a0) (a1) (s) : ∃ t, execPulseTransfer a0 a1 s = .next t ∧ State.Moves [.aon, .book, .ports, .xing] s t := by
  unfold execPulseTransfer
  repeat' (first
    | (with_reducible intro)
    | (with_reducible refine ⟨_, rfl, ?_⟩)
    | with_reducible exact Moves.refl _ _
    | with_reducible assumption
    | ((with_reducible apply State.modPort_moves); exact fun x => Port.countEvents_service _ _ x; decide)
    | ((with_reducible apply State.modPort_moves); (intro _; (try dsimp only); split <;> exact ⟨rfl, rfl⟩); decide)
    | ((with_reducible apply Moves.op (State.discard_moves _)); decide)
    | ((with_reducible apply State.modPort_moves); exact fun _ => ⟨rfl, rfl⟩; decide)
    | ((with_reducible apply State.modPort_leaves); exact fun _ => rfl; decide)
    | ((with_reducible apply State.modPort_served); exact fun _ _ _ => rfl; decide)
    | ((with_reducible apply State.modPort_moves); (intro _; (try dsimp only); split <;> exact ⟨rfl, rfl⟩); decide)
    | ((with_reducible apply Moves.op (State.modXing_moves _ _)); decide)
    | ((with_reducible apply Moves.op (State.raiseXing_moves _ _)); decide)
    | with_reducible apply Moves.ite
    | with_reducible apply Moves.when
    | (extract_lets +onlyGivenNames u; (with_reducible apply Moves.let (u := u)); (intro h; clear_value u); rotate_left; subst u; rotate_right)
    | (extract_lets +onlyGivenNames v; subst v)
    | (split <;> beta_reduce))

theorem execStaleCrossing_moves (a0) (a1) (s) : ∃ t, execStaleCrossing a0 a1 s = .next t ∧ State.Moves [.aon, .book, .xing] s t := by
  unfold execStaleCrossing
  repeat' (first
    | (with_reducible refine ⟨_, rfl, ?_⟩)
    | with_reducible exact Moves.refl _ _
    | ((with_reducible apply Moves.op (State.modXing_moves _ _)); decide)
    | ((with_reducible apply Moves.op (State.raiseXing_moves _ _)); decide)
    | with_reducible apply Moves.ite)

end Sys2Proof.Machine
end

