-- ==== Sys2Proof/Laws/Dram.lean ====
section
/-! SUPPORT. What each operation of Machine/Dram.lean can do to the state. -/

namespace Sys2Proof.Machine

theorem State.dramAccess_moves (a0) (a1) (s) : State.Moves [.mem, .free] s (State.dramAccess a0 a1 s) := by
  unfold State.dramAccess
  repeat' (first
    | (with_reducible intro)
    | with_reducible exact Moves.refl _ _
    | with_reducible assumption
    | ((with_reducible apply Moves.op (State.modMem_moves _ _)); decide)
    | ((with_reducible apply Moves.op (State.takeFree_moves _)); decide)
    | with_reducible apply Moves.ite
    | with_reducible apply Moves.when
    | (extract_lets +onlyGivenNames u; (with_reducible apply Moves.let (u := u)); (intro h; clear_value u); rotate_left; subst u; rotate_right)
    | (extract_lets +onlyGivenNames v; subst v)
    | split)

theorem State.pageAccess_moves (a0) (a1) (s) : State.Moves [.mem, .free] s (State.pageAccess a0 a1 s) := by
  unfold State.pageAccess
  repeat' (first
    | (with_reducible intro)
    | with_reducible exact Moves.refl _ _
    | with_reducible assumption
    | ((with_reducible apply Moves.op (State.dramAccess_moves _ _ _)); decide)
    | with_reducible apply Moves.each
    | with_reducible apply Moves.ite
    | with_reducible apply Moves.when
    | (extract_lets +onlyGivenNames u; (with_reducible apply Moves.let (u := u)); (intro h; clear_value u); rotate_left; subst u; rotate_right)
    | (extract_lets +onlyGivenNames v; subst v)
    | split)

end Sys2Proof.Machine
end

