-- ==== Sys2Proof/Laws/MapCache.lean ====
section
/-! SUPPORT. What each operation and each command of Machine/MapCache.lean can do to the state. -/

namespace Sys2Proof.Machine

theorem State.touchLine_moves (a0) (a1) (s) : State.Moves [.mem, .mcache, .free] s (State.touchLine a0 a1 s) := by
  unfold State.touchLine
  repeat' (first
    | (with_reducible intro)
    | with_reducible exact Moves.refl _ _
    | with_reducible assumption
    | ((with_reducible apply Moves.op (State.dramAccess_moves _ _ _)); decide)
    | ((with_reducible apply Moves.op (State.modCache_moves _ _)); decide)
    | with_reducible apply Moves.each
    | with_reducible apply Moves.ite
    | with_reducible apply Moves.when
    | (extract_lets +onlyGivenNames u; (with_reducible apply Moves.let (u := u)); (intro h; clear_value u); rotate_left; subst u; rotate_right)
    | (extract_lets +onlyGivenNames v; subst v)
    | split)

theorem State.touchEntry_moves (a0) (a1) (a2) (s) : State.Moves [.mem, .mcache, .free] s (State.touchEntry a0 a1 a2 s) := by
  unfold State.touchEntry
  repeat' (first
    | (with_reducible intro)
    | with_reducible exact Moves.refl _ _
    | with_reducible assumption
    | ((with_reducible apply Moves.op (State.touchLine_moves _ _ _)); decide)
    | with_reducible apply Moves.ite
    | with_reducible apply Moves.when
    | (extract_lets +onlyGivenNames u; (with_reducible apply Moves.let (u := u)); (intro h; clear_value u); rotate_left; subst u; rotate_right)
    | (extract_lets +onlyGivenNames v; subst v)
    | split)

theorem State.takeSlot_moves (a0) (a1) (a2) (s) : State.Moves [.names, .mem, .mcache, .free] s (State.takeSlot a0 a1 a2 s) := by
  unfold State.takeSlot
  repeat' (first
    | (with_reducible intro)
    | with_reducible exact Moves.refl _ _
    | with_reducible assumption
    | ((with_reducible apply Moves.op (State.modCache_moves _ _)); decide)
    | ((with_reducible apply Moves.op (State.modNames_moves _ _)); decide)
    | ((with_reducible apply Moves.op (State.pageAccess_moves _ _ _)); decide)
    | with_reducible apply Moves.ite
    | with_reducible apply Moves.when
    | (extract_lets +onlyGivenNames u; (with_reducible apply Moves.let (u := u)); (intro h; clear_value u); rotate_left; subst u; rotate_right)
    | (extract_lets +onlyGivenNames v; subst v)
    | split)

theorem State.pageIn_moves (a0) (a1) (s) : State.Moves [.names, .mem, .mcache, .free] s (State.pageIn a0 a1 s) := by
  unfold State.pageIn
  repeat' (first
    | (with_reducible intro)
    | with_reducible exact Moves.refl _ _
    | with_reducible assumption
    | ((with_reducible apply Moves.op (State.takeSlot_moves _ _ _ _)); decide)
    | with_reducible apply Moves.ite
    | with_reducible apply Moves.when
    | (extract_lets +onlyGivenNames u; (with_reducible apply Moves.let (u := u)); (intro h; clear_value u); rotate_left; subst u; rotate_right)
    | (extract_lets +onlyGivenNames v; subst v)
    | split)

theorem State.retirePage_moves (a0) (s) : State.Moves [.aon, .nor, .book, .mem, .free] s (State.retirePage a0 s) := by
  unfold State.retirePage
  repeat' (first
    | (with_reducible intro)
    | with_reducible exact Moves.refl _ _
    | with_reducible assumption
    | ((with_reducible apply Moves.op (State.modCfg_moves _ _)); decide)
    | ((with_reducible apply Moves.op (State.pageAccess_moves _ _ _)); decide)
    | ((with_reducible apply Moves.op (State.raiseMem_moves _ _ _)); decide)
    | with_reducible apply Moves.ite
    | with_reducible apply Moves.when
    | (extract_lets +onlyGivenNames u; (with_reducible apply Moves.let (u := u)); (intro h; clear_value u); rotate_left; subst u; rotate_right)
    | (extract_lets +onlyGivenNames v; subst v)
    | split)

theorem State.retireWaiting_moves (s) : State.Moves [.aon, .nor, .book, .mem, .free] s (State.retireWaiting s) := by
  unfold State.retireWaiting
  repeat' (first
    | (with_reducible intro)
    | with_reducible exact Moves.refl _ _
    | with_reducible assumption
    | ((with_reducible apply Moves.op (State.modMem_moves _ _)); decide)
    | ((with_reducible apply Moves.op (State.retirePage_moves _ _)); decide)
    | with_reducible apply Moves.each)

theorem State.pageTo_moves (a0) (a1) (a2) (s) : State.Moves [.names, .mem, .mcache, .free] s (State.pageTo a0 a1 a2 s) := by
  unfold State.pageTo
  repeat' (first
    | (with_reducible intro)
    | with_reducible exact Moves.refl _ _
    | with_reducible assumption
    | ((with_reducible apply Moves.op (State.modCache_moves _ _)); decide)
    | ((with_reducible apply Moves.op (State.takeSlot_moves _ _ _ _)); decide)
    | with_reducible apply Moves.ite
    | with_reducible apply Moves.when
    | (extract_lets +onlyGivenNames u; (with_reducible apply Moves.let (u := u)); (intro h; clear_value u); rotate_left; subst u; rotate_right)
    | (extract_lets +onlyGivenNames v; subst v)
    | split)

theorem execCleanAll_moves (a0) (s) : ∃ t, execCleanAll a0 s = .next t ∧ State.Moves [.ctxs, .decisions, .mcache, .pair, .svc, .out] s t := by
  unfold execCleanAll
  repeat' (first
    | (with_reducible refine ⟨_, rfl, ?_⟩)
    | with_reducible exact Moves.refl _ _
    | ((with_reducible apply Moves.op (State.complete_moves _ _ _)); decide)
    | (unfold State.mapCtl; beta_reduce)
    | ((with_reducible apply Moves.op (State.modCache_moves _ _)); decide)
    | (unfold State.orElse; beta_reduce)
    | (unfold State.run; beta_reduce)
    | with_reducible apply Moves.ite
    | (extract_lets +onlyGivenNames v; subst v)
    | (split <;> beta_reduce))

theorem execInvalidateAll_moves (a0) (s) : ∃ t, execInvalidateAll a0 s = .next t ∧ State.Moves [.ctxs, .decisions, .mcache, .pair, .svc, .out] s t := by
  unfold execInvalidateAll
  repeat' (first
    | (with_reducible refine ⟨_, rfl, ?_⟩)
    | with_reducible exact Moves.refl _ _
    | ((with_reducible apply Moves.op (State.complete_moves _ _ _)); decide)
    | (unfold State.mapCtl; beta_reduce)
    | ((with_reducible apply Moves.op (State.modCache_moves _ _)); decide)
    | (unfold State.orElse; beta_reduce)
    | (unfold State.run; beta_reduce)
    | with_reducible apply Moves.ite
    | (extract_lets +onlyGivenNames v; subst v)
    | (split <;> beta_reduce))

theorem execInvalidateRange_moves (a0) (s) : ∃ t, execInvalidateRange a0 s = .next t ∧ State.Moves [.ctxs, .decisions, .mcache, .pair, .svc, .out] s t := by
  unfold execInvalidateRange
  repeat' (first
    | (with_reducible refine ⟨_, rfl, ?_⟩)
    | with_reducible exact Moves.refl _ _
    | ((with_reducible apply Moves.op (State.complete_moves _ _ _)); decide)
    | (unfold State.mapCtl; beta_reduce)
    | (unfold State.mapRange; beta_reduce)
    | ((with_reducible apply Moves.op (State.modCache_moves _ _)); decide)
    | (unfold State.orElse; beta_reduce)
    | (unfold State.run; beta_reduce)
    | with_reducible apply Moves.ite
    | (extract_lets +onlyGivenNames v; subst v)
    | (split <;> beta_reduce))

theorem execLock_moves (a0) (s) : ∃ t, execLock a0 s = .next t ∧ State.Moves [.ctxs, .decisions, .mcache, .pair, .svc, .out] s t := by
  unfold execLock
  repeat' (first
    | (with_reducible refine ⟨_, rfl, ?_⟩)
    | with_reducible exact Moves.refl _ _
    | ((with_reducible apply Moves.op (State.complete_moves _ _ _)); decide)
    | (unfold State.mapCtl; beta_reduce)
    | ((with_reducible apply Moves.op (State.modCache_moves _ _)); decide)
    | (unfold State.orElse; beta_reduce)
    | (unfold State.run; beta_reduce)
    | with_reducible apply Moves.ite
    | (extract_lets +onlyGivenNames v; subst v)
    | (split <;> beta_reduce))

theorem execMapCacheDisable_moves (a0) (s) : ∃ t, execMapCacheDisable a0 s = .next t ∧ State.Moves [.ctxs, .decisions, .mcache, .pair, .svc, .out] s t := by
  unfold execMapCacheDisable
  repeat' (first
    | (with_reducible refine ⟨_, rfl, ?_⟩)
    | with_reducible exact Moves.refl _ _
    | ((with_reducible apply Moves.op (State.complete_moves _ _ _)); decide)
    | (unfold State.mapCtl; beta_reduce)
    | ((with_reducible apply Moves.op (State.modCache_moves _ _)); decide)
    | (unfold State.orElse; beta_reduce)
    | (unfold State.run; beta_reduce)
    | with_reducible apply Moves.ite
    | (extract_lets +onlyGivenNames v; subst v)
    | (split <;> beta_reduce))

theorem execMapCacheEnable_moves (a0) (s) : ∃ t, execMapCacheEnable a0 s = .next t ∧ State.Moves [.ctxs, .decisions, .mcache, .pair, .svc, .out] s t := by
  unfold execMapCacheEnable
  repeat' (first
    | (with_reducible refine ⟨_, rfl, ?_⟩)
    | with_reducible exact Moves.refl _ _
    | ((with_reducible apply Moves.op (State.complete_moves _ _ _)); decide)
    | (unfold State.mapCtl; beta_reduce)
    | ((with_reducible apply Moves.op (State.modCache_moves _ _)); decide)
    | (unfold State.orElse; beta_reduce)
    | (unfold State.run; beta_reduce)
    | with_reducible apply Moves.ite
    | (extract_lets +onlyGivenNames v; subst v)
    | (split <;> beta_reduce))

theorem State.noteCorrected_moves (a0) (a1) (s) : State.Moves [.aon, .book, .mem] s (State.noteCorrected a0 a1 s) := by
  unfold State.noteCorrected
  repeat' (first
    | (with_reducible intro)
    | with_reducible exact Moves.refl _ _
    | with_reducible assumption
    | ((with_reducible apply Moves.op (State.modMem_moves _ _)); decide)
    | ((with_reducible apply Moves.op (State.raiseMem_moves _ _ _)); decide)
    | with_reducible apply Moves.ite
    | with_reducible apply Moves.when
    | (extract_lets +onlyGivenNames u; (with_reducible apply Moves.let (u := u)); (intro h; clear_value u); rotate_left; subst u; rotate_right)
    | (extract_lets +onlyGivenNames v; subst v)
    | split)

theorem execMapCacheMiss_moves (a0) (a1) (s) : ∃ t, execMapCacheMiss a0 a1 s = .next t ∧ State.Moves [.aon, .book, .mem, .mcache, .free] s t := by
  unfold execMapCacheMiss
  repeat' (first
    | (with_reducible intro)
    | (with_reducible refine ⟨_, rfl, ?_⟩)
    | with_reducible exact Moves.refl _ _
    | with_reducible assumption
    | ((with_reducible apply Moves.op (State.dramAccess_moves _ _ _)); decide)
    | ((with_reducible apply Moves.op (State.modCache_moves _ _)); decide)
    | ((with_reducible apply Moves.op (State.noteCorrected_moves _ _ _)); decide)
    | ((with_reducible apply Moves.op (State.touchLine_moves _ _ _)); decide)
    | with_reducible apply Moves.each
    | with_reducible apply Moves.ite
    | with_reducible apply Moves.when
    | (extract_lets +onlyGivenNames u; (with_reducible apply Moves.let (u := u)); (intro h; clear_value u); rotate_left; subst u; rotate_right)
    | (extract_lets +onlyGivenNames v; subst v)
    | (split <;> beta_reduce))

theorem execMapCacheQuery_moves (a0) (s) : ∃ t, execMapCacheQuery a0 s = .next t ∧ State.Moves [.ctxs, .decisions, .pair, .svc, .out] s t := by
  unfold execMapCacheQuery
  repeat' (first
    | (with_reducible refine ⟨_, rfl, ?_⟩)
    | with_reducible exact Moves.refl _ _
    | ((with_reducible apply Moves.op (State.complete_moves _ _ _)); decide)
    | (unfold State.mapCtl; beta_reduce)
    | (unfold State.orElse; beta_reduce)
    | (unfold State.run; beta_reduce)
    | with_reducible apply Moves.ite
    | (extract_lets +onlyGivenNames v; subst v)
    | (split <;> beta_reduce))

theorem execPreload_moves (a0) (s) : ∃ t, execPreload a0 s = .next t ∧ State.Moves [.ctxs, .decisions, .names, .mem, .mcache, .pair, .svc, .free, .out] s t := by
  unfold execPreload
  repeat' (first
    | (with_reducible refine ⟨_, rfl, ?_⟩)
    | (with_reducible intro)
    | with_reducible exact Moves.refl _ _
    | with_reducible assumption
    | ((with_reducible apply Moves.op (State.complete_moves _ _ _)); decide)
    | (unfold State.mapCtl; beta_reduce)
    | (unfold State.mapRange; beta_reduce)
    | ((with_reducible apply Moves.op (State.modCache_moves _ _)); decide)
    | (unfold State.orElse; beta_reduce)
    | ((with_reducible apply Moves.op (State.pageTo_moves _ _ _ _)); decide)
    | (unfold State.run; beta_reduce)
    | with_reducible apply Moves.ite
    | with_reducible apply Moves.each
    | (extract_lets +onlyGivenNames v; subst v)
    | (split <;> beta_reduce))

theorem execUnlock_moves (a0) (s) : ∃ t, execUnlock a0 s = .next t ∧ State.Moves [.ctxs, .decisions, .mcache, .pair, .svc, .out] s t := by
  unfold execUnlock
  repeat' (first
    | (with_reducible refine ⟨_, rfl, ?_⟩)
    | with_reducible exact Moves.refl _ _
    | ((with_reducible apply Moves.op (State.complete_moves _ _ _)); decide)
    | (unfold State.mapCtl; beta_reduce)
    | ((with_reducible apply Moves.op (State.modCache_moves _ _)); decide)
    | (unfold State.orElse; beta_reduce)
    | (unfold State.run; beta_reduce)
    | with_reducible apply Moves.ite
    | (extract_lets +onlyGivenNames v; subst v)
    | (split <;> beta_reduce))

end Sys2Proof.Machine
end

