-- ==== Sys2Proof/Laws/Names.lean ====
section
/-! SUPPORT. What each operation and each command of Machine/Names.lean can do to the state. -/

namespace Sys2Proof.Machine

theorem State.setMap_moves (a0) (a1) (a2) (s) : State.Moves [.names, .mem, .mcache, .pair, .free, .out] s (State.setMap a0 a1 a2 s) := by
  unfold State.setMap
  repeat' (first
    | (with_reducible intro)
    | with_reducible exact Moves.refl _ _
    | with_reducible assumption
    | ((with_reducible apply Moves.op (State.modNames_moves _ _)); decide)
    | ((with_reducible apply Moves.op (State.pageIn_moves _ _ _)); decide)
    | ((with_reducible apply Moves.op (State.sendKept_moves _ _ _ _ _ _ _ _)); decide)
    | ((with_reducible apply Moves.op (State.touchEntry_moves _ _ _ _)); decide)
    | with_reducible apply Moves.when)

theorem State.dropDump_moves (s) : State.Moves [.nor, .prot] s (State.dropDump s) := by
  unfold State.dropDump
  repeat' (first
    | (with_reducible intro)
    | with_reducible exact Moves.refl _ _
    | with_reducible assumption
    | ((with_reducible apply Moves.op (State.modCfg_moves _ _)); decide)
    | ((with_reducible apply Moves.op (State.modProt_moves _ _)); decide)
    | with_reducible apply Moves.ite
    | with_reducible apply Moves.when
    | (extract_lets +onlyGivenNames u; (with_reducible apply Moves.let (u := u)); (intro h; clear_value u); rotate_left; subst u; rotate_right)
    | (extract_lets +onlyGivenNames v; subst v)
    | split)

theorem State.noteDirty_moves (s) : State.Moves [.aon, .nor, .names, .prot] s (State.noteDirty s) := by
  unfold State.noteDirty
  repeat' (first
    | (with_reducible intro)
    | with_reducible exact Moves.refl _ _
    | with_reducible assumption
    | ((with_reducible apply Moves.op (State.dropDump_moves _)); decide)
    | ((with_reducible apply State.modAon_moves); exact fun _ => ⟨rfl, rfl⟩; decide)
    | ((with_reducible apply Moves.op (State.modCfg_moves _ _)); decide)
    | ((with_reducible apply Moves.op (State.modNames_moves _ _)); decide)
    | with_reducible apply Moves.ite
    | with_reducible apply Moves.when
    | (extract_lets +onlyGivenNames u; (with_reducible apply Moves.let (u := u)); (intro h; clear_value u); rotate_left; subst u; rotate_right)
    | (extract_lets +onlyGivenNames v; subst v)
    | split)

theorem State.saveReads_moves (a0) (a1) (a2) (s) : State.Moves [.ctxs] s (State.saveReads a0 a1 a2 s) := by
  unfold State.saveReads
  split
  · exact Moves.refl _ _
  · refine Moves.base (Moves.refl _ s) ?_ rfl rfl fun i => ⟨i.filled, i.complete, i.ready, i.bufs, i.served, i.therms, i.holds, i.ring, i.ofIds ?_ rfl⟩
    · intro x hx; cases x <;> first | exact absurd (by decide) hx | rfl
    · rw [List.map_map]
      apply List.map_congr_left
      intro x _
      simp only [Function.comp]
      split <;> rfl

theorem State.modZone_moves (a0) (a1) (a2) (s) : State.Moves [.names] s (State.modZone a0 a1 a2 s) := by
  unfold State.modZone
  repeat' (first
    | with_reducible exact Moves.refl _ _
    | ((with_reducible apply Moves.op (State.modNames_moves _ _)); decide))

theorem State.resetZone_moves (a0) (a1) (s) : State.Moves [.aon, .nor, .book, .names, .prot, .pair, .out] s (State.resetZone a0 a1 s) := by
  unfold State.resetZone
  repeat' (first
    | (with_reducible intro)
    | with_reducible exact Moves.refl _ _
    | with_reducible assumption
    | ((with_reducible apply Moves.op (State.endWorks_moves _ _ _)); decide)
    | ((with_reducible apply Moves.op (State.modNames_moves _ _)); decide)
    | ((with_reducible apply Moves.op (State.modProt_moves _ _)); decide)
    | ((with_reducible apply Moves.op (State.modZone_moves _ _ _ _)); decide)
    | ((with_reducible apply Moves.op (State.sendKept_moves _ _ _ _ _ _ _ _)); decide)
    | with_reducible apply Moves.when
    | with_reducible apply Moves.each
    | split)

theorem State.unmap_moves (a0) (a1) (s) : State.Moves [.names, .mem, .mcache, .pair, .free, .out] s (State.unmap a0 a1 s) := by
  unfold State.unmap
  repeat' (first
    | (with_reducible intro)
    | with_reducible exact Moves.refl _ _
    | with_reducible assumption
    | ((with_reducible apply Moves.op (State.modNames_moves _ _)); decide)
    | ((with_reducible apply Moves.op (State.setMap_moves _ _ _ _)); decide)
    | with_reducible apply Moves.each)

theorem State.applyOther_moves (a0) (a1) (a2) (s) : State.Moves [.aon, .nor, .book, .ctxs, .decisions, .names, .prot, .mem, .mcache, .pair, .svc, .free, .out] s (State.applyOther a0 a1 a2 s) := by
  unfold State.applyOther
  repeat' (first
    | (with_reducible intro)
    | with_reducible exact Moves.refl _ _
    | with_reducible assumption
    | ((with_reducible apply Moves.op (State.await_moves _ _ _)); decide)
    | ((with_reducible apply Moves.op (State.complete_moves _ _ _)); decide)
    | ((with_reducible apply State.modCtx_moves); exact fun _ _ => rfl; decide)
    | ((with_reducible apply Moves.op (State.noteDirty_moves _)); decide)
    | ((with_reducible apply Moves.op (State.resetZone_moves _ _ _)); decide)
    | ((with_reducible apply Moves.op (State.saveReads_moves _ _ _ _)); decide)
    | ((with_reducible apply Moves.op (State.unmap_moves _ _ _)); decide)
    | with_reducible apply Moves.each
    | with_reducible apply Moves.ite
    | with_reducible apply Moves.when
    | (extract_lets +onlyGivenNames u; (with_reducible apply Moves.let (u := u)); (intro h; clear_value u); rotate_left; subst u; rotate_right)
    | (extract_lets +onlyGivenNames v; subst v)
    | split)

theorem State.completeWrite_moves (a0) (s) : State.Moves [.ctxs, .decisions, .pair, .svc, .out] s (State.completeWrite a0 s) := by
  unfold State.completeWrite
  repeat' (first
    | with_reducible exact Moves.refl _ _
    | ((with_reducible apply Moves.op (State.complete_moves _ _ _)); decide)
    | ((with_reducible apply Moves.op (State.modPair_moves _ _)); decide)
    | with_reducible apply Moves.ite
    | split)

theorem State.applyWrite_moves (a0) (a1) (a2) (s) : State.Moves [.aon, .nor, .ctxs, .decisions, .names, .prot, .pair, .svc, .out] s (State.applyWrite a0 a1 a2 s) := by
  unfold State.applyWrite
  repeat' (first
    | (with_reducible intro)
    | with_reducible exact Moves.refl _ _
    | with_reducible assumption
    | ((with_reducible apply Moves.op (State.await_moves _ _ _)); decide)
    | ((with_reducible apply Moves.op (State.completeWrite_moves _ _)); decide)
    | ((with_reducible apply Moves.op (State.dropCtx_moves _ _)); decide)
    | ((with_reducible apply State.modCtx_moves); exact fun _ _ => rfl; decide)
    | ((with_reducible apply Moves.op (State.modNames_moves _ _)); decide)
    | ((with_reducible apply Moves.op (State.noteDirty_moves _)); decide)
    | ((with_reducible apply Moves.op (State.saveReads_moves _ _ _ _)); decide)
    | ((with_reducible apply Moves.op (State.sendKept_moves _ _ _ _ _ _ _ _)); decide)
    | with_reducible apply Moves.ite
    | with_reducible apply Moves.when)

theorem State.forgetBlocks_moves (s) : State.Moves [.names, .mcache] s (State.forgetBlocks s) := by
  unfold State.forgetBlocks
  repeat' (first
    | (with_reducible intro)
    | with_reducible exact Moves.refl _ _
    | with_reducible assumption
    | ((with_reducible apply Moves.op (State.modCache_moves _ _)); decide)
    | ((with_reducible apply Moves.op (State.modNames_moves _ _)); decide)
    | with_reducible apply Moves.ite
    | with_reducible apply Moves.when
    | (extract_lets +onlyGivenNames u; (with_reducible apply Moves.let (u := u)); (intro h; clear_value u); rotate_left; subst u; rotate_right)
    | (extract_lets +onlyGivenNames v; subst v)
    | split)

theorem State.beginSanitize_moves (a0) (s) : State.Moves [.aon, .nor, .ctxs, .names, .prot, .mcache] s (State.beginSanitize a0 s) := by
  unfold State.beginSanitize
  repeat' (first
    | (with_reducible intro)
    | with_reducible exact Moves.refl _ _
    | with_reducible assumption
    | ((with_reducible apply Moves.op (State.forgetBlocks_moves _)); decide)
    | ((with_reducible apply Moves.op (State.modNames_moves _ _)); decide)
    | ((with_reducible apply Moves.op (State.noteDirty_moves _)); decide)
    | ((with_reducible apply Moves.op (State.saveReads_moves _ _ _ _)); decide)
    | with_reducible apply Moves.each
    | with_reducible apply Moves.ite
    | with_reducible apply Moves.when
    | (extract_lets +onlyGivenNames u; (with_reducible apply Moves.let (u := u)); (intro h; clear_value u); rotate_left; subst u; rotate_right)
    | (extract_lets +onlyGivenNames v; subst v)
    | split)

theorem State.applyWipe_moves (a0) (a1) (s) : State.Moves [.aon, .nor, .ctxs, .decisions, .names, .prot, .mcache, .pair, .svc, .out] s (State.applyWipe a0 a1 s) := by
  unfold State.applyWipe
  repeat' (first
    | (with_reducible intro)
    | with_reducible exact Moves.refl _ _
    | with_reducible assumption
    | ((with_reducible apply Moves.op (State.beginSanitize_moves _ _)); decide)
    | ((with_reducible apply Moves.op (State.complete_moves _ _ _)); decide)
    | ((with_reducible apply Moves.op (State.startOp_moves _ _)); decide)
    | (unfold State.startSingle; beta_reduce)
    | with_reducible apply Moves.each
    | with_reducible apply Moves.ite
    | with_reducible apply Moves.when
    | (extract_lets +onlyGivenNames u; (with_reducible apply Moves.let (u := u)); (intro h; clear_value u); rotate_left; subst u; rotate_right)
    | (extract_lets +onlyGivenNames v; subst v)
    | split)

theorem State.applyOne_moves (a0) (s) : State.Moves [.aon, .nor, .book, .ctxs, .decisions, .names, .prot, .mem, .mcache, .pair, .svc, .free, .out] s (State.applyOne a0 s) := by
  unfold State.applyOne
  repeat' (first
    | (with_reducible intro)
    | with_reducible exact Moves.refl _ _
    | with_reducible assumption
    | ((with_reducible apply Moves.op (State.applyOther_moves _ _ _ _)); decide)
    | ((with_reducible apply Moves.op (State.applyWipe_moves _ _ _)); decide)
    | ((with_reducible apply Moves.op (State.applyWrite_moves _ _ _ _)); decide)
    | ((with_reducible apply Moves.op (State.complete_moves _ _ _)); decide)
    | ((with_reducible apply State.modCtx_moves); exact fun _ _ => rfl; decide)
    | with_reducible apply Moves.ite
    | with_reducible apply Moves.when
    | (extract_lets +onlyGivenNames u; (with_reducible apply Moves.let (u := u)); (intro h; clear_value u); rotate_left; subst u; rotate_right)
    | (extract_lets +onlyGivenNames v; subst v)
    | split)

theorem State.applySpace_moves (a0) (s) : State.Moves [.aon, .nor, .book, .ctxs, .decisions, .names, .prot, .mem, .mcache, .pair, .svc, .free, .out] s (State.applySpace a0 s) := by
  induction a0 generalizing s with
  | zero => exact Moves.refl _ _
  | succ n ih =>
    unfold State.applySpace
    repeat' (first
      | with_reducible exact Moves.refl _ _
      | ((with_reducible apply Moves.op (State.applyOne_moves _ _)); decide)
      | ((with_reducible apply Moves.op (ih _)); exact List.Subset.refl _)
      | with_reducible apply Moves.ite
      | split)

theorem State.applyTurns_moves (a0) (s) : State.Moves [.aon, .nor, .book, .ctxs, .decisions, .names, .prot, .mem, .mcache, .pair, .svc, .free, .out] s (State.applyTurns a0 s) := by
  induction a0 generalizing s with
  | zero => exact Moves.refl _ _
  | succ n ih =>
    unfold State.applyTurns
    repeat' (first
      | with_reducible exact Moves.refl _ _
      | ((with_reducible apply Moves.op (State.applyOne_moves _ _)); decide)
      | ((with_reducible apply Moves.op (ih _)); exact List.Subset.refl _)
      | split)

theorem State.askOwner_moves (a0) (a1) (a2) (s) : State.Moves [.pair, .out] s (State.askOwner a0 a1 a2 s) := by
  unfold State.askOwner
  repeat' (first
    | (with_reducible intro)
    | with_reducible exact Moves.refl _ _
    | with_reducible assumption
    | ((with_reducible apply Moves.op (State.askMedia_moves _ _ _ _ _)); decide)
    | with_reducible apply Moves.ite
    | with_reducible apply Moves.each
    | (extract_lets +onlyGivenNames v; subst v)
    | split)

theorem State.tryRead_moves (a0) (s) : State.Moves [.ctxs, .decisions, .pair, .svc, .out] s (State.tryRead a0 s) := by
  unfold State.tryRead
  repeat' (first
    | with_reducible exact Moves.refl _ _
    | with_reducible assumption
    | ((with_reducible apply Moves.op (State.askOwner_moves _ _ _ _)); decide)
    | ((with_reducible apply Moves.op (State.await_moves _ _ _)); decide)
    | ((with_reducible apply Moves.op (State.complete_moves _ _ _)); decide)
    | ((with_reducible apply State.modCtx_moves); exact fun _ _ => rfl; decide)
    | with_reducible apply Moves.ite
    | (extract_lets +onlyGivenNames u; (with_reducible apply Moves.let (u := u)); (intro h; clear_value u); rotate_left; subst u; rotate_right)
    | (extract_lets +onlyGivenNames v; subst v)
    | split)

theorem State.harden_moves (a0) (s) : State.Moves [.names] s (State.harden a0 s) := by
  unfold State.harden
  repeat' (first
    | with_reducible exact Moves.refl _ _
    | ((with_reducible apply Moves.op (State.modNames_moves _ _)); decide)
    | split)

theorem State.mediaDone_moves (a0) (s) : State.Moves [.names] s (State.mediaDone a0 s) := by
  unfold State.mediaDone
  repeat' (first
    | (with_reducible intro)
    | with_reducible exact Moves.refl _ _
    | with_reducible assumption
    | ((with_reducible apply Moves.op (State.harden_moves _ _)); decide)
    | with_reducible apply Moves.each
    | with_reducible apply Moves.ite
    | with_reducible apply Moves.when
    | (extract_lets +onlyGivenNames u; (with_reducible apply Moves.let (u := u)); (intro h; clear_value u); rotate_left; subst u; rotate_right)
    | (extract_lets +onlyGivenNames v; subst v)
    | split)

theorem State.forwardCmd_moves (a0) (s) : State.Moves [.ctxs, .pair, .out] s (State.forwardCmd a0 s) := by
  unfold State.forwardCmd
  repeat' (first
    | with_reducible exact Moves.refl _ _
    | ((with_reducible apply State.modCtx_moves); exact fun _ _ => rfl; decide)
    | ((with_reducible apply Moves.op (State.modPair_moves _ _)); decide)
    | ((with_reducible apply Moves.op (State.sendKept_moves _ _ _ _ _ _ _ _)); decide))

theorem State.mediaOver_moves (a0) (a1) (s) : State.Moves [.ctxs, .decisions, .pair, .svc, .out] s (State.mediaOver a0 a1 s) := by
  unfold State.mediaOver
  repeat' (first
    | (with_reducible intro)
    | with_reducible exact Moves.refl _ _
    | with_reducible assumption
    | ((with_reducible apply Moves.op (State.complete_moves _ _ _)); decide)
    | ((with_reducible apply Moves.op (State.forwardCmd_moves _ _)); decide)
    | with_reducible apply Moves.ite
    | with_reducible apply Moves.when
    | (extract_lets +onlyGivenNames u; (with_reducible apply Moves.let (u := u)); (intro h; clear_value u); rotate_left; subst u; rotate_right)
    | (extract_lets +onlyGivenNames v; subst v)
    | split)

theorem State.mediaEnd_moves (a0) (a1) (s) : State.Moves [.ctxs, .decisions, .names, .pair, .svc, .out] s (State.mediaEnd a0 a1 s) := by
  unfold State.mediaEnd
  repeat' (first
    | (with_reducible intro)
    | with_reducible exact Moves.refl _ _
    | with_reducible assumption
    | ((with_reducible apply Moves.op (State.await_moves _ _ _)); decide)
    | ((with_reducible apply Moves.op (State.completeWrite_moves _ _)); decide)
    | ((with_reducible apply Moves.op (State.mediaDone_moves _ _)); decide)
    | ((with_reducible apply Moves.op (State.mediaOver_moves _ _ _)); decide)
    | with_reducible apply Moves.ite
    | with_reducible apply Moves.when
    | (extract_lets +onlyGivenNames u; (with_reducible apply Moves.let (u := u)); (intro h; clear_value u); rotate_left; subst u; rotate_right)
    | (extract_lets +onlyGivenNames v; subst v)
    | split)

theorem State.settleWaits_moves (s) : State.Moves [.ctxs, .decisions, .names, .pair, .svc, .out] s (State.settleWaits s) := by
  unfold State.settleWaits
  repeat' (first
    | (with_reducible intro)
    | with_reducible exact Moves.refl _ _
    | with_reducible assumption
    | ((with_reducible apply Moves.op (State.await_moves _ _ _)); decide)
    | ((with_reducible apply Moves.op (State.complete_moves _ _ _)); decide)
    | ((with_reducible apply Moves.op (State.mediaEnd_moves _ _ _)); decide)
    | ((with_reducible apply Moves.op (State.mediaOver_moves _ _ _)); decide)
    | with_reducible apply Moves.each
    | with_reducible apply Moves.ite
    | with_reducible apply Moves.when
    | (extract_lets +onlyGivenNames u; (with_reducible apply Moves.let (u := u)); (intro h; clear_value u); rotate_left; subst u; rotate_right)
    | (extract_lets +onlyGivenNames v; subst v)
    | split)

theorem State.settleOrder_moves (s) : State.Moves [.aon, .nor, .book, .ctxs, .decisions, .names, .prot, .mem, .mcache, .pair, .svc, .free, .out] s (State.settleOrder s) := by
  unfold State.settleOrder
  repeat' (first
    | (with_reducible intro)
    | with_reducible exact Moves.refl _ _
    | with_reducible assumption
    | ((with_reducible apply Moves.op (State.applySpace_moves _ _)); decide)
    | ((with_reducible apply Moves.op (State.applyTurns_moves _ _)); decide)
    | ((with_reducible apply Moves.op (State.settleWaits_moves _)); decide)
    | ((with_reducible apply Moves.op (State.tryRead_moves _ _)); decide)
    | with_reducible apply Moves.each)

theorem State.giveBlock_moves (a0) (a1) (a2) (s) : State.Moves [.ctxs, .decisions, .pair, .svc, .out] s (State.giveBlock a0 a1 a2 s) := by
  unfold State.giveBlock
  repeat' (first
    | with_reducible exact Moves.refl _ _
    | ((with_reducible apply State.modCtx_moves); exact fun _ _ => rfl; decide)
    | ((with_reducible apply Moves.op (State.tryRead_moves _ _)); decide)
    | with_reducible apply Moves.ite
    | split)

theorem State.setZone_moves (a0) (a1) (a2) (s) : State.Moves [.names, .pair, .out] s (State.setZone a0 a1 a2 s) := by
  unfold State.setZone
  repeat' (first
    | (with_reducible intro)
    | with_reducible exact Moves.refl _ _
    | with_reducible assumption
    | ((with_reducible apply Moves.op (State.modZone_moves _ _ _ _)); decide)
    | ((with_reducible apply Moves.op (State.sendKept_moves _ _ _ _ _ _ _ _)); decide)
    | with_reducible apply Moves.when)

theorem State.touchRead_moves (a0) (a1) (s) : State.Moves [.mem, .mcache, .free] s (State.touchRead a0 a1 s) := by
  unfold State.touchRead
  repeat' (first
    | (with_reducible intro)
    | with_reducible exact Moves.refl _ _
    | with_reducible assumption
    | ((with_reducible apply Moves.op (State.touchEntry_moves _ _ _ _)); decide)
    | with_reducible apply Moves.each
    | with_reducible apply Moves.ite
    | with_reducible apply Moves.when
    | (extract_lets +onlyGivenNames u; (with_reducible apply Moves.let (u := u)); (intro h; clear_value u); rotate_left; subst u; rotate_right)
    | (extract_lets +onlyGivenNames v; subst v)
    | split)

theorem State.settleEnded_moves (a0) (a1) (s) : State.Moves [.aon, .nor, .book, .ctxs, .decisions, .names, .prot, .mem, .mcache, .pair, .svc, .free, .out] s (State.settleEnded a0 a1 s) := by
  unfold State.settleEnded
  repeat' (first
    | (with_reducible intro)
    | with_reducible exact Moves.refl _ _
    | with_reducible assumption
    | ((with_reducible apply Moves.op (State.settleOrder_moves _)); decide)
    | with_reducible apply Moves.ite
    | with_reducible apply Moves.when
    | (extract_lets +onlyGivenNames u; (with_reducible apply Moves.let (u := u)); (intro h; clear_value u); rotate_left; subst u; rotate_right)
    | (extract_lets +onlyGivenNames v; subst v)
    | split)

end Sys2Proof.Machine
end

