-- ==== Sys2Proof/Laws/Spindle.lean ====
section
/-! SUPPORT. What each operation and each command of Machine/Spindle.lean can do to the state. -/

namespace Sys2Proof.Machine

theorem State.takeLevel_moves (a0) (s) : State.Moves [.spins] s (State.takeLevel a0 s) := by
  unfold State.takeLevel
  repeat' (first
    | with_reducible exact Moves.refl _ _
    | ((with_reducible apply Moves.op (State.modSpin_moves _ _ _)); decide))

theorem State.shortBrake_moves (a0) (a1) (a2) (s) : State.Moves [.ports, .spins] s (State.shortBrake a0 a1 a2 s) := by
  unfold State.shortBrake
  repeat' (first
    | with_reducible exact Moves.refl _ _
    | ((with_reducible apply Moves.op (State.modSpin_moves _ _ _)); decide)
    | ((with_reducible apply Moves.op (State.sendDrive_moves _ _ _ _ _ _ _)); decide))

theorem State.coast_moves (a0) (s) : State.Moves [.ports, .spins] s (State.coast a0 s) := by
  unfold State.coast
  repeat' (first
    | with_reducible exact Moves.refl _ _
    | ((with_reducible apply Moves.op (State.modSpin_moves _ _ _)); decide)
    | ((with_reducible apply Moves.op (State.sendDrive_moves _ _ _ _ _ _ _)); decide))

theorem State.driveStep_moves (a0) (a1) (a2) (a3) (s) : State.Moves [.ports, .spins] s (State.driveStep a0 a1 a2 a3 s) := by
  unfold State.driveStep
  repeat' (first
    | with_reducible exact Moves.refl _ _
    | ((with_reducible apply Moves.op (State.modSpin_moves _ _ _)); decide)
    | ((with_reducible apply Moves.op (State.sendDrive_moves _ _ _ _ _ _ _)); decide))

theorem State.regen_moves (a0) (s) : State.Moves [.ports, .spins] s (State.regen a0 s) := by
  unfold State.regen
  repeat' (first
    | with_reducible exact Moves.refl _ _
    | with_reducible assumption
    | ((with_reducible apply Moves.op (State.coast_moves _ _)); decide)
    | ((with_reducible apply Moves.op (State.driveStep_moves _ _ _ _ _)); decide)
    | ((with_reducible apply Moves.op (State.modSpin_moves _ _ _)); decide)
    | with_reducible apply Moves.ite
    | (extract_lets +onlyGivenNames u; (with_reducible apply Moves.let (u := u)); (intro h; clear_value u); rotate_left; subst u; rotate_right)
    | (extract_lets +onlyGivenNames v; subst v)
    | split)

theorem State.brakeDown_moves (a0) (s) : State.Moves [.ports, .spins] s (State.brakeDown a0 s) := by
  unfold State.brakeDown
  repeat' (first
    | with_reducible exact Moves.refl _ _
    | ((with_reducible apply Moves.op (State.modSpin_moves _ _ _)); decide)
    | ((with_reducible apply Moves.op (State.regen_moves _ _)); decide)
    | ((with_reducible apply Moves.op (State.shortBrake_moves _ _ _ _)); decide)
    | with_reducible apply Moves.ite)

theorem State.atRest_moves (a0) (s) : State.Moves [.ctxs, .decisions, .prot, .ports, .spins, .pair, .svc, .out] s (State.atRest a0 s) := by
  unfold State.atRest
  repeat' (first
    | (with_reducible intro)
    | with_reducible exact Moves.refl _ _
    | with_reducible assumption
    | ((with_reducible apply Moves.op (State.coast_moves _ _)); decide)
    | ((with_reducible apply Moves.op (State.completeWait_moves _ _)); decide)
    | ((with_reducible apply Moves.op (State.modSpin_moves _ _ _)); decide)
    | ((with_reducible apply Moves.op (State.noteService_moves _ _)); decide)
    | with_reducible apply Moves.ite
    | with_reducible apply Moves.when
    | (extract_lets +onlyGivenNames u; (with_reducible apply Moves.let (u := u)); (intro h; clear_value u); rotate_left; subst u; rotate_right)
    | (extract_lets +onlyGivenNames v; subst v)
    | split)

theorem State.spinDown_moves (a0) (s) : State.Moves [.aon, .nor, .book, .ctxs, .decisions, .prot, .ports, .spins, .acts, .seqs, .chorus, .actCals, .pair, .svc, .out] s (State.spinDown a0 s) := by
  unfold State.spinDown
  repeat' (first
    | with_reducible exact Moves.refl _ _
    | ((with_reducible apply Moves.op (State.brakeDown_moves _ _)); decide)
    | ((with_reducible apply Moves.op (State.freeSlot_moves _ _)); decide)
    | ((with_reducible apply Moves.op (State.leaveService_moves _ _ _)); decide)
    | ((with_reducible apply Moves.op (State.modSpin_moves _ _ _)); decide)
    | ((with_reducible apply Moves.op (State.unloadSides_moves _ _)); decide)
    | with_reducible apply Moves.ite)

theorem State.listen_moves (a0) (s) : State.Moves [.ports, .spins] s (State.listen a0 s) := by
  unfold State.listen
  repeat' (first
    | with_reducible exact Moves.refl _ _
    | ((with_reducible apply Moves.op (State.coast_moves _ _)); decide)
    | ((with_reducible apply Moves.op (State.modSpin_moves _ _ _)); decide))

theorem State.beginStart_moves (a0) (s) : State.Moves [.ports, .spins] s (State.beginStart a0 s) := by
  unfold State.beginStart
  repeat' (first
    | with_reducible exact Moves.refl _ _
    | ((with_reducible apply Moves.op (State.listen_moves _ _)); decide)
    | ((with_reducible apply Moves.op (State.modSpin_moves _ _ _)); decide))

theorem State.markFailedStart_moves (a0) (s) : State.Moves [.aon, .book, .ports, .spins] s (State.markFailedStart a0 s) := by
  unfold State.markFailedStart
  repeat' (first
    | (with_reducible intro)
    | with_reducible exact Moves.refl _ _
    | with_reducible assumption
    | ((with_reducible apply State.modPort_moves); exact fun _ => ⟨rfl, rfl⟩; decide)
    | ((with_reducible apply State.modPort_leaves); exact fun _ => rfl; decide)
    | ((with_reducible apply State.modPort_served); exact fun _ _ _ => rfl; decide)
    | ((with_reducible apply State.modPort_moves); (intro _; (try dsimp only); split <;> exact ⟨rfl, rfl⟩); decide)
    | ((with_reducible apply Moves.op (State.modSpin_moves _ _ _)); decide)
    | ((with_reducible apply Moves.op (State.raisePort_moves _ _ _)); decide)
    | ((with_reducible apply Moves.op (State.raiseSpin_moves _ _ _)); decide)
    | with_reducible apply Moves.ite
    | with_reducible apply Moves.when
    | (extract_lets +onlyGivenNames u; (with_reducible apply Moves.let (u := u)); (intro h; clear_value u); rotate_left; subst u; rotate_right)
    | (extract_lets +onlyGivenNames v; subst v)
    | split)

theorem State.startFailure_moves (a0) (s) : State.Moves [.aon, .nor, .book, .power, .ctxs, .decisions, .names, .prot, .ports, .spins, .acts, .seqs, .chorus, .actCals, .pair, .svc, .out] s (State.startFailure a0 s) := by
  unfold State.startFailure
  repeat' (first
    | (with_reducible intro)
    | with_reducible exact Moves.refl _ _
    | with_reducible assumption
    | ((with_reducible apply Moves.op (State.freeSlot_moves _ _)); decide)
    | ((with_reducible apply Moves.op (State.markFailedStart_moves _ _)); decide)
    | ((with_reducible apply Moves.op (State.settle_moves _)); decide)
    | ((with_reducible apply Moves.op (State.spinDown_moves _ _)); decide)
    | with_reducible apply Moves.ite
    | with_reducible apply Moves.when
    | (extract_lets +onlyGivenNames u; (with_reducible apply Moves.let (u := u)); (intro h; clear_value u); rotate_left; subst u; rotate_right)
    | (extract_lets +onlyGivenNames v; subst v)
    | split)

theorem State.brakeAgain_moves (a0) (s) : State.Moves [.aon, .nor, .book, .power, .ctxs, .decisions, .names, .prot, .ports, .spins, .acts, .seqs, .chorus, .actCals, .pair, .svc, .out] s (State.brakeAgain a0 s) := by
  unfold State.brakeAgain
  repeat' (first
    | with_reducible exact Moves.refl _ _
    | ((with_reducible apply Moves.op (State.modSpin_moves _ _ _)); decide)
    | ((with_reducible apply Moves.op (State.shortBrake_moves _ _ _ _)); decide)
    | ((with_reducible apply Moves.op (State.startFailure_moves _ _)); decide)
    | with_reducible apply Moves.ite)

theorem State.brakeCrossing_moves (a0) (a1) (a2) (s) : State.Moves [.aon, .nor, .book, .power, .ctxs, .decisions, .names, .prot, .ports, .spins, .acts, .seqs, .chorus, .actCals, .pair, .svc, .out] s (State.brakeCrossing a0 a1 a2 s) := by
  unfold State.brakeCrossing
  repeat' (first
    | with_reducible exact Moves.refl _ _
    | ((with_reducible apply Moves.op (State.brakeAgain_moves _ _)); decide)
    | ((with_reducible apply Moves.op (State.driveStep_moves _ _ _ _ _)); decide)
    | with_reducible apply Moves.ite)

theorem State.catchSpindle_moves (a0) (a1) (a2) (s) : State.Moves [.aon, .book, .spins] s (State.catchSpindle a0 a1 a2 s) := by
  unfold State.catchSpindle
  repeat' (first
    | with_reducible exact Moves.refl _ _
    | ((with_reducible apply Moves.op (State.modSpin_moves _ _ _)); decide)
    | ((with_reducible apply Moves.op (State.raiseSpin_moves _ _ _)); decide))

theorem State.overvoltage_moves (a0) (s) : State.Moves [.aon, .nor, .book, .ctxs, .decisions, .prot, .ports, .spins, .acts, .seqs, .chorus, .actCals, .pair, .svc, .out] s (State.overvoltage a0 s) := by
  unfold State.overvoltage
  repeat' (first
    | (with_reducible intro)
    | with_reducible exact Moves.refl _ _
    | with_reducible assumption
    | ((with_reducible apply Moves.op (State.freeSlot_moves _ _)); decide)
    | ((with_reducible apply Moves.op (State.leaveService_moves _ _ _)); decide)
    | ((with_reducible apply Moves.op (State.modAct_moves _ _ _)); decide)
    | ((with_reducible apply State.modPort_moves); exact fun _ => ⟨rfl, rfl⟩; decide)
    | ((with_reducible apply State.modPort_leaves); exact fun _ => rfl; decide)
    | ((with_reducible apply State.modPort_moves); (intro _; (try dsimp only); split <;> exact ⟨rfl, rfl⟩); decide)
    | ((with_reducible apply Moves.op (State.modSpin_moves _ _ _)); decide)
    | ((with_reducible apply Moves.op (State.permit_moves _ _ _ _)); decide)
    | ((with_reducible apply Moves.op (State.raiseSpin_moves _ _ _)); decide)
    | ((with_reducible apply Moves.op (State.sendRequestUrgent_moves _ _ _ _)); decide)
    | ((with_reducible apply Moves.op (State.shortBrake_moves _ _ _ _)); decide)
    | with_reducible apply Moves.each
    | with_reducible apply Moves.ite
    | with_reducible apply Moves.when
    | (extract_lets +onlyGivenNames u; (with_reducible apply Moves.let (u := u)); (intro h; clear_value u); rotate_left; subst u; rotate_right)
    | (extract_lets +onlyGivenNames v; subst v)
    | split)

theorem State.chopperStatus_moves (a0) (a1) (s) : State.Moves [.aon, .nor, .book, .ctxs, .decisions, .prot, .ports, .spins, .acts, .seqs, .chorus, .actCals, .pair, .svc, .out] s (State.chopperStatus a0 a1 s) := by
  unfold State.chopperStatus
  repeat' (first
    | (with_reducible intro)
    | with_reducible exact Moves.refl _ _
    | with_reducible assumption
    | ((with_reducible apply Moves.op (State.coast_moves _ _)); decide)
    | ((with_reducible apply Moves.op (State.driveStep_moves _ _ _ _ _)); decide)
    | ((with_reducible apply Moves.op (State.modSpin_moves _ _ _)); decide)
    | ((with_reducible apply Moves.op (State.overvoltage_moves _ _)); decide)
    | ((with_reducible apply Moves.op (State.raiseSpin_moves _ _ _)); decide)
    | ((with_reducible apply Moves.op (State.regen_moves _ _)); decide)
    | with_reducible apply Moves.ite
    | with_reducible apply Moves.when
    | (extract_lets +onlyGivenNames u; (with_reducible apply Moves.let (u := u)); (intro h; clear_value u); rotate_left; subst u; rotate_right)
    | (extract_lets +onlyGivenNames v; subst v)
    | split)

theorem State.restBrake_moves (a0) (s) : State.Moves [.ports, .spins] s (State.restBrake a0 s) := by
  unfold State.restBrake
  repeat' (first
    | with_reducible exact Moves.refl _ _
    | ((with_reducible apply Moves.op (State.modSpin_moves _ _ _)); decide)
    | ((with_reducible apply Moves.op (State.shortBrake_moves _ _ _ _)); decide))

theorem State.closeListen_moves (a0) (s) : State.Moves [.aon, .nor, .book, .power, .ctxs, .decisions, .names, .prot, .ports, .spins, .acts, .seqs, .chorus, .actCals, .pair, .svc, .out] s (State.closeListen a0 s) := by
  unfold State.closeListen
  repeat' (first
    | with_reducible exact Moves.refl _ _
    | ((with_reducible apply Moves.op (State.atRest_moves _ _)); decide)
    | ((with_reducible apply Moves.op (State.brakeAgain_moves _ _)); decide)
    | ((with_reducible apply Moves.op (State.catchSpindle_moves _ _ _ _)); decide)
    | ((with_reducible apply Moves.op (State.modSpin_moves _ _ _)); decide)
    | ((with_reducible apply Moves.op (State.restBrake_moves _ _)); decide)
    | ((with_reducible apply Moves.op (State.shortBrake_moves _ _ _ _)); decide)
    | with_reducible apply Moves.ite
    | (extract_lets +onlyGivenNames v; subst v)
    | split)

theorem State.commutate_moves (a0) (a1) (a2) (a3) (s) : State.Moves [.ports, .spins] s (State.commutate a0 a1 a2 a3 s) := by
  unfold State.commutate
  repeat' (first
    | (with_reducible intro)
    | with_reducible exact Moves.refl _ _
    | with_reducible assumption
    | ((with_reducible apply Moves.op (State.driveStep_moves _ _ _ _ _)); decide)
    | with_reducible apply Moves.ite
    | with_reducible apply Moves.when
    | (extract_lets +onlyGivenNames u; (with_reducible apply Moves.let (u := u)); (intro h; clear_value u); rotate_left; subst u; rotate_right)
    | (extract_lets +onlyGivenNames v; subst v)
    | split)

theorem State.reachSpeed_moves (a0) (s) : State.Moves [.aon, .nor, .book, .ctxs, .decisions, .names, .prot, .ports, .spins, .acts, .mem, .mcache, .pair, .svc, .free, .out] s (State.reachSpeed a0 s) := by
  unfold State.reachSpeed
  repeat' (first
    | (with_reducible intro)
    | with_reducible exact Moves.refl _ _
    | with_reducible assumption
    | ((with_reducible apply Moves.op (State.load_moves _ _)); decide)
    | ((with_reducible apply Moves.op (State.modSpin_moves _ _ _)); decide)
    | ((with_reducible apply Moves.op (State.raiseSpin_moves _ _ _)); decide)
    | ((with_reducible apply Moves.op (State.settleOrder_moves _)); decide)
    | with_reducible apply Moves.each
    | with_reducible apply Moves.ite
    | with_reducible apply Moves.when
    | (extract_lets +onlyGivenNames u; (with_reducible apply Moves.let (u := u)); (intro h; clear_value u); rotate_left; subst u; rotate_right)
    | (extract_lets +onlyGivenNames v; subst v)
    | split)

theorem State.leaveRegulation_moves (a0) (s) : State.Moves [.aon, .nor, .book, .ctxs, .decisions, .prot, .ports, .spins, .acts, .seqs, .chorus, .actCals, .pair, .svc, .out] s (State.leaveRegulation a0 s) := by
  unfold State.leaveRegulation
  repeat' (first
    | with_reducible exact Moves.refl _ _
    | ((with_reducible apply Moves.op (State.leaveService_moves _ _ _)); decide)
    | ((with_reducible apply Moves.op (State.modSpin_moves _ _ _)); decide)
    | ((with_reducible apply Moves.op (State.raiseSpin_moves _ _ _)); decide)
    | ((with_reducible apply Moves.op (State.unloadSides_moves _ _)); decide))

theorem State.revolution_moves (a0) (a1) (s) : State.Moves [.aon, .nor, .book, .ctxs, .decisions, .names, .prot, .ports, .spins, .acts, .seqs, .chorus, .actCals, .mem, .mcache, .pair, .svc, .free, .out] s (State.revolution a0 a1 s) := by
  unfold State.revolution
  repeat' (first
    | with_reducible exact Moves.refl _ _
    | ((with_reducible apply Moves.op (State.leaveRegulation_moves _ _)); decide)
    | ((with_reducible apply Moves.op (State.modSpin_moves _ _ _)); decide)
    | ((with_reducible apply Moves.op (State.reachSpeed_moves _ _)); decide)
    | with_reducible apply Moves.ite)

theorem State.cycle_moves (a0) (a1) (s) : State.Moves [.aon, .nor, .book, .ctxs, .decisions, .names, .prot, .ports, .spins, .acts, .seqs, .chorus, .actCals, .mem, .mcache, .pair, .svc, .free, .out] s (State.cycle a0 a1 s) := by
  unfold State.cycle
  repeat' (first
    | with_reducible exact Moves.refl _ _
    | ((with_reducible apply Moves.op (State.modSpin_moves _ _ _)); decide)
    | ((with_reducible apply Moves.op (State.revolution_moves _ _ _)); decide)
    | with_reducible apply Moves.ite
    | (extract_lets +onlyGivenNames v; subst v)
    | split)

theorem State.handover_moves (a0) (a1) (s) : State.Moves [.spins] s (State.handover a0 a1 s) := by
  unfold State.handover
  repeat' (first
    | (with_reducible intro)
    | with_reducible exact Moves.refl _ _
    | with_reducible assumption
    | ((with_reducible apply Moves.op (State.modSpin_moves _ _ _)); decide)
    | with_reducible apply Moves.ite
    | with_reducible apply Moves.when
    | (extract_lets +onlyGivenNames u; (with_reducible apply Moves.let (u := u)); (intro h; clear_value u); rotate_left; subst u; rotate_right)
    | (extract_lets +onlyGivenNames v; subst v)
    | split)

theorem State.forcedCrossing_moves (a0) (a1) (a2) (s) : State.Moves [.ports, .spins] s (State.forcedCrossing a0 a1 a2 s) := by
  unfold State.forcedCrossing
  repeat' (first
    | (with_reducible intro)
    | with_reducible exact Moves.refl _ _
    | with_reducible assumption
    | ((with_reducible apply Moves.op (State.commutate_moves _ _ _ _ _)); decide)
    | ((with_reducible apply Moves.op (State.handover_moves _ _ _)); decide)
    | ((with_reducible apply Moves.op (State.modSpin_moves _ _ _)); decide)
    | with_reducible apply Moves.ite
    | with_reducible apply Moves.when
    | (extract_lets +onlyGivenNames u; (with_reducible apply Moves.let (u := u)); (intro h; clear_value u); rotate_left; subst u; rotate_right)
    | (extract_lets +onlyGivenNames v; subst v)
    | split)

theorem State.sendSense_moves (a0) (a1) (s) : State.Moves [.ports] s (State.sendSense a0 a1 s) := by
  unfold State.sendSense
  repeat' (first
    | with_reducible exact Moves.refl _ _
    | ((with_reducible apply Moves.op (State.sendRequest_moves _ _ _ _)); decide))

theorem State.senseTest_moves (a0) (s) : State.Moves [.ports, .spins] s (State.senseTest a0 s) := by
  unfold State.senseTest
  repeat' (first
    | with_reducible exact Moves.refl _ _
    | ((with_reducible apply Moves.op (State.modSpin_moves _ _ _)); decide)
    | ((with_reducible apply Moves.op (State.sendSense_moves _ _ _)); decide))

theorem State.startForced_moves (a0) (a1) (s) : State.Moves [.ports, .spins] s (State.startForced a0 a1 s) := by
  unfold State.startForced
  repeat' (first
    | with_reducible exact Moves.refl _ _
    | ((with_reducible apply Moves.op (State.driveStep_moves _ _ _ _ _)); decide)
    | ((with_reducible apply Moves.op (State.modSpin_moves _ _ _)); decide)
    | split)

theorem State.judgeSense_moves (a0) (a1) (a2) (s) : State.Moves [.aon, .book, .ports, .spins] s (State.judgeSense a0 a1 a2 s) := by
  unfold State.judgeSense
  repeat' (first
    | with_reducible exact Moves.refl _ _
    | ((with_reducible apply Moves.op (State.driveStep_moves _ _ _ _ _)); decide)
    | ((with_reducible apply Moves.op (State.modSpin_moves _ _ _)); decide)
    | ((with_reducible apply Moves.op (State.raiseSpin_moves _ _ _)); decide)
    | ((with_reducible apply Moves.op (State.senseTest_moves _ _)); decide)
    | ((with_reducible apply Moves.op (State.startForced_moves _ _ _)); decide)
    | with_reducible apply Moves.ite)

theorem State.noteSpeed_moves (a0) (s) : State.Moves [.spins] s (State.noteSpeed a0 s) := by
  unfold State.noteSpeed
  repeat' (first
    | with_reducible exact Moves.refl _ _
    | ((with_reducible apply Moves.op (State.modSpin_moves _ _ _)); decide))

theorem State.refusedFenced_moves (a0) (s) : State.Moves [.aon, .nor, .book, .ctxs, .decisions, .prot, .ports, .spins, .acts, .seqs, .chorus, .actCals, .pair, .svc, .out] s (State.refusedFenced a0 s) := by
  unfold State.refusedFenced
  repeat' (first
    | with_reducible exact Moves.refl _ _
    | ((with_reducible apply Moves.op (State.obedienceLost_moves _ _)); decide)
    | with_reducible apply Moves.ite)

theorem State.runCrossing_moves (a0) (a1) (a2) (s) : State.Moves [.aon, .nor, .book, .ctxs, .decisions, .names, .prot, .ports, .spins, .acts, .seqs, .chorus, .actCals, .mem, .mcache, .pair, .svc, .free, .out] s (State.runCrossing a0 a1 a2 s) := by
  unfold State.runCrossing
  repeat' (first
    | (with_reducible intro)
    | with_reducible exact Moves.refl _ _
    | with_reducible assumption
    | ((with_reducible apply Moves.op (State.commutate_moves _ _ _ _ _)); decide)
    | ((with_reducible apply Moves.op (State.cycle_moves _ _ _)); decide)
    | ((with_reducible apply Moves.op (State.driveStep_moves _ _ _ _ _)); decide)
    | ((with_reducible apply Moves.op (State.modSpin_moves _ _ _)); decide)
    | ((with_reducible apply Moves.op (State.shortBrake_moves _ _ _ _)); decide)
    | with_reducible apply Moves.ite
    | with_reducible apply Moves.when
    | (extract_lets +onlyGivenNames u; (with_reducible apply Moves.let (u := u)); (intro h; clear_value u); rotate_left; subst u; rotate_right)
    | (extract_lets +onlyGivenNames v; subst v)
    | split)

theorem State.syncLost_moves (a0) (s) : State.Moves [.aon, .nor, .book, .power, .ctxs, .decisions, .names, .prot, .ports, .spins, .acts, .seqs, .chorus, .actCals, .pair, .svc, .out] s (State.syncLost a0 s) := by
  unfold State.syncLost
  repeat' (first
    | (with_reducible intro)
    | with_reducible exact Moves.refl _ _
    | with_reducible assumption
    | ((with_reducible apply Moves.op (State.coast_moves _ _)); decide)
    | ((with_reducible apply Moves.op (State.leaveService_moves _ _ _)); decide)
    | ((with_reducible apply Moves.op (State.listen_moves _ _)); decide)
    | ((with_reducible apply Moves.op (State.modSpin_moves _ _ _)); decide)
    | ((with_reducible apply Moves.op (State.noteService_moves _ _)); decide)
    | ((with_reducible apply Moves.op (State.raiseSpin_moves _ _ _)); decide)
    | ((with_reducible apply Moves.op (State.startFailure_moves _ _)); decide)
    | ((with_reducible apply Moves.op (State.unloadSides_moves _ _)); decide)
    | with_reducible apply Moves.ite
    | with_reducible apply Moves.when
    | (extract_lets +onlyGivenNames u; (with_reducible apply Moves.let (u := u)); (intro h; clear_value u); rotate_left; subst u; rotate_right)
    | (extract_lets +onlyGivenNames v; subst v)
    | split)

theorem execAlignmentDone_moves (a0) (s) : ∃ t, execAlignmentDone a0 s = .next t ∧ State.Moves [.now, .ports, .spins] s t := by
  unfold execAlignmentDone
  repeat' (first
    | (with_reducible refine ⟨_, rfl, ?_⟩)
    | with_reducible exact Moves.refl _ _
    | ((with_reducible apply Moves.op (State.at__moves _ _)); decide)
    | ((with_reducible apply Moves.op (State.startForced_moves _ _ _)); decide)
    | with_reducible apply Moves.ite
    | (extract_lets +onlyGivenNames v; subst v)
    | (split <;> beta_reduce))

theorem execForcedStep_moves (a0) (s) : ∃ t, execForcedStep a0 s = .next t ∧ State.Moves [.now, .aon, .nor, .book, .power, .ctxs, .decisions, .names, .prot, .ports, .spins, .acts, .seqs, .chorus, .actCals, .pair, .svc, .out] s t := by
  unfold execForcedStep
  repeat' (first
    | (with_reducible intro)
    | (with_reducible refine ⟨_, rfl, ?_⟩)
    | with_reducible exact Moves.refl _ _
    | with_reducible assumption
    | ((with_reducible apply Moves.op (State.at__moves _ _)); decide)
    | ((with_reducible apply Moves.op (State.driveStep_moves _ _ _ _ _)); decide)
    | ((with_reducible apply Moves.op (State.handover_moves _ _ _)); decide)
    | ((with_reducible apply Moves.op (State.modSpin_moves _ _ _)); decide)
    | ((with_reducible apply Moves.op (State.restBrake_moves _ _)); decide)
    | ((with_reducible apply Moves.op (State.startFailure_moves _ _)); decide)
    | with_reducible apply Moves.ite
    | with_reducible apply Moves.when
    | (extract_lets +onlyGivenNames u; (with_reducible apply Moves.let (u := u)); (intro h; clear_value u); rotate_left; subst u; rotate_right)
    | (extract_lets +onlyGivenNames v; subst v)
    | (split <;> beta_reduce))

theorem execListenWindowClose_moves (a0) (s) : ∃ t, execListenWindowClose a0 s = .next t ∧ State.Moves [.now, .aon, .nor, .book, .power, .ctxs, .decisions, .names, .prot, .ports, .spins, .acts, .seqs, .chorus, .actCals, .pair, .svc, .out] s t := by
  unfold execListenWindowClose
  repeat' (first
    | (with_reducible refine ⟨_, rfl, ?_⟩)
    | with_reducible exact Moves.refl _ _
    | ((with_reducible apply Moves.op (State.at__moves _ _)); decide)
    | ((with_reducible apply Moves.op (State.closeListen_moves _ _)); decide)
    | with_reducible apply Moves.ite)

theorem execMissedCrossing_moves (a0) (s) : ∃ t, execMissedCrossing a0 s = .next t ∧ State.Moves [.now, .aon, .nor, .book, .power, .ctxs, .decisions, .names, .prot, .ports, .spins, .acts, .seqs, .chorus, .actCals, .pair, .svc, .out] s t := by
  unfold execMissedCrossing
  repeat' (first
    | (with_reducible refine ⟨_, rfl, ?_⟩)
    | with_reducible exact Moves.refl _ _
    | ((with_reducible apply Moves.op (State.at__moves _ _)); decide)
    | ((with_reducible apply Moves.op (State.commutate_moves _ _ _ _ _)); decide)
    | ((with_reducible apply Moves.op (State.modSpin_moves _ _ _)); decide)
    | ((with_reducible apply Moves.op (State.syncLost_moves _ _)); decide)
    | with_reducible apply Moves.ite
    | (extract_lets +onlyGivenNames v; subst v)
    | (split <;> beta_reduce))

theorem execRegulationRecoveryTimeout_moves (a0) (s) : ∃ t, execRegulationRecoveryTimeout a0 s = .next t ∧ State.Moves [.now, .aon, .nor, .book, .power, .ctxs, .decisions, .names, .prot, .ports, .spins, .acts, .seqs, .chorus, .actCals, .pair, .svc, .out] s t := by
  unfold execRegulationRecoveryTimeout
  repeat' (first
    | (with_reducible refine ⟨_, rfl, ?_⟩)
    | with_reducible exact Moves.refl _ _
    | ((with_reducible apply Moves.op (State.at__moves _ _)); decide)
    | ((with_reducible apply Moves.op (State.startFailure_moves _ _)); decide)
    | with_reducible apply Moves.ite)

theorem execShortBrakeDone_moves (a0) (s) : ∃ t, execShortBrakeDone a0 s = .next t ∧ State.Moves [.now, .ports, .spins] s t := by
  unfold execShortBrakeDone
  repeat' (first
    | (with_reducible refine ⟨_, rfl, ?_⟩)
    | with_reducible exact Moves.refl _ _
    | ((with_reducible apply Moves.op (State.at__moves _ _)); decide)
    | ((with_reducible apply Moves.op (State.listen_moves _ _)); decide)
    | ((with_reducible apply Moves.op (State.modSpin_moves _ _ _)); decide)
    | ((with_reducible apply Moves.op (State.senseTest_moves _ _)); decide)
    | with_reducible apply Moves.ite
    | (extract_lets +onlyGivenNames v; subst v)
    | (split <;> beta_reduce))

theorem execSpinAlert_moves (a0) (s) : ∃ t, execSpinAlert a0 s = .next t ∧ State.Moves [.aon, .nor, .book, .ctxs, .decisions, .prot, .ports, .spins, .acts, .seqs, .chorus, .actCals, .pair, .svc, .out] s t := by
  unfold execSpinAlert
  repeat' (first
    | (with_reducible refine ⟨_, rfl, ?_⟩)
    | with_reducible exact Moves.refl _ _
    | ((with_reducible apply State.modPort_moves); exact fun _ => ⟨rfl, rfl⟩; decide)
    | ((with_reducible apply Moves.op (State.overvoltage_moves _ _)); decide)
    | ((with_reducible apply Moves.op (State.raisePort_moves _ _ _)); decide)
    | (unfold State.takeRx; beta_reduce)
    | with_reducible apply Moves.ite
    | (split <;> beta_reduce))

theorem execSpinDown_moves (a0) (s) : ∃ t, execSpinDown a0 s = .next t ∧ State.Moves [.aon, .nor, .book, .ctxs, .decisions, .prot, .ports, .spins, .acts, .seqs, .chorus, .actCals, .pair, .svc, .out] s t := by
  unfold execSpinDown
  repeat' (first
    | (with_reducible refine ⟨_, rfl, ?_⟩)
    | with_reducible exact Moves.refl _ _
    | ((with_reducible apply Moves.op (State.shortBrake_moves _ _ _ _)); decide)
    | ((with_reducible apply Moves.op (State.spinDown_moves _ _)); decide)
    | with_reducible apply Moves.ite)

theorem execSpinEvent_moves (a0) (s) : ∃ t, execSpinEvent a0 s = .next t ∧ State.Moves [.aon, .nor, .book, .power, .ctxs, .decisions, .names, .prot, .ports, .spins, .acts, .seqs, .chorus, .actCals, .mem, .mcache, .pair, .svc, .free, .out] s t := by
  unfold execSpinEvent
  repeat' (first
    | (with_reducible refine ⟨_, rfl, ?_⟩)
    | with_reducible exact Moves.refl _ _
    | ((with_reducible apply Moves.op (State.brakeCrossing_moves _ _ _ _)); decide)
    | ((with_reducible apply Moves.op (State.closeListen_moves _ _)); decide)
    | ((with_reducible apply Moves.op (State.forcedCrossing_moves _ _ _ _)); decide)
    | ((with_reducible apply State.modPort_moves); exact fun _ => ⟨rfl, rfl⟩; decide)
    | ((with_reducible apply Moves.op (State.modSpin_moves _ _ _)); decide)
    | ((with_reducible apply Moves.op (State.noteSpeed_moves _ _)); decide)
    | ((with_reducible apply Moves.op (State.runCrossing_moves _ _ _ _)); decide)
    | (unfold State.takeRx; beta_reduce)
    | with_reducible apply Moves.ite
    | (extract_lets +onlyGivenNames v; subst v)
    | (split <;> beta_reduce))

theorem execSpindleDriveRepeat_moves (a0) (s) : ∃ t, execSpindleDriveRepeat a0 s = .next t ∧ State.Moves [.now, .ports, .spins] s t := by
  unfold execSpindleDriveRepeat
  repeat' (first
    | (with_reducible refine ⟨_, rfl, ?_⟩)
    | with_reducible exact Moves.refl _ _
    | ((with_reducible apply Moves.op (State.at__moves _ _)); decide)
    | ((with_reducible apply Moves.op (State.sendDrive_moves _ _ _ _ _ _ _)); decide)
    | with_reducible apply Moves.ite)

theorem execSpindleSenseResponse_moves (a0) (s) : ∃ t, execSpindleSenseResponse a0 s = .next t ∧ State.Moves [.aon, .nor, .book, .power, .ctxs, .decisions, .names, .prot, .ports, .spins, .acts, .seqs, .chorus, .actCals, .pair, .svc, .out] s t := by
  unfold execSpindleSenseResponse
  repeat' (first
    | (with_reducible intro)
    | (with_reducible refine ⟨_, rfl, ?_⟩)
    | with_reducible exact Moves.refl _ _
    | with_reducible assumption
    | ((with_reducible apply Moves.op (State.answered_moves _ _ _)); decide)
    | (unfold State.busyAnswer; beta_reduce)
    | ((with_reducible apply Moves.op (State.judgeSense_moves _ _ _ _)); decide)
    | ((with_reducible apply Moves.op (State.markFailedStart_moves _ _)); decide)
    | ((with_reducible apply State.modPort_moves); exact fun _ => ⟨rfl, rfl⟩; decide)
    | ((with_reducible apply State.modPort_leaves); exact fun _ => rfl; decide)
    | ((with_reducible apply State.modPort_served); exact fun _ _ _ => rfl; decide)
    | ((with_reducible apply State.modPort_moves); (intro _; (try dsimp only); split <;> exact ⟨rfl, rfl⟩); decide)
    | ((with_reducible apply Moves.op (State.modSpin_moves _ _ _)); decide)
    | ((with_reducible apply Moves.op (State.obedienceLost_moves _ _)); decide)
    | ((with_reducible apply Moves.op (State.raiseSpin_moves _ _ _)); decide)
    | ((with_reducible apply Moves.op (State.refusedFenced_moves _ _)); decide)
    | ((with_reducible apply Moves.op (State.sendSense_moves _ _ _)); decide)
    | ((with_reducible apply Moves.op (State.settle_moves _)); decide)
    | ((with_reducible apply Moves.op (State.startFailure_moves _ _)); decide)
    | (unfold State.takeAnswer; beta_reduce)
    | (unfold State.takeRx; beta_reduce)
    | with_reducible apply Moves.each
    | with_reducible apply Moves.ite
    | with_reducible apply Moves.when
    | (extract_lets +onlyGivenNames u; (with_reducible apply Moves.let (u := u)); (intro h; clear_value u); rotate_left; subst u; rotate_right)
    | (extract_lets +onlyGivenNames v; subst v)
    | (split <;> beta_reduce))

theorem execSpindleSenseRetry_moves (a0) (s) : ∃ t, execSpindleSenseRetry a0 s = .next t ∧ State.Moves [.now, .ports] s t := by
  unfold execSpindleSenseRetry
  repeat' (first
    | (with_reducible refine ⟨_, rfl, ?_⟩)
    | with_reducible exact Moves.refl _ _
    | ((with_reducible apply Moves.op (State.busyRetry_moves _ _ _ _)); decide))

theorem execStartSlotGrant_moves (s) : ∃ t, execStartSlotGrant s = .next t ∧ State.Moves [.aon, .ports, .spins] s t := by
  unfold execStartSlotGrant
  repeat' (first
    | (with_reducible refine ⟨_, rfl, ?_⟩)
    | with_reducible exact Moves.refl _ _
    | ((with_reducible apply Moves.op (State.beginStart_moves _ _)); decide)
    | ((with_reducible apply Moves.op (State.noteProgress_moves _)); decide)
    | with_reducible apply Moves.ite
    | (split <;> beta_reduce))

theorem State.askStart_moves (a0) (s) : State.Moves [.prot, .spins] s (State.askStart a0 s) := by
  unfold State.askStart
  repeat' (first
    | (with_reducible intro)
    | with_reducible exact Moves.refl _ _
    | with_reducible assumption
    | ((with_reducible apply Moves.op (State.modSpin_moves _ _ _)); decide)
    | ((with_reducible apply Moves.op (State.noteService_moves _ _)); decide)
    | with_reducible apply Moves.ite
    | with_reducible apply Moves.when
    | (extract_lets +onlyGivenNames u; (with_reducible apply Moves.let (u := u)); (intro h; clear_value u); rotate_left; subst u; rotate_right)
    | (extract_lets +onlyGivenNames v; subst v)
    | split)

theorem State.levelWhileStopping_moves (a0) (a1) (s) : State.Moves [.ctxs, .decisions, .prot, .ports, .spins, .pair, .svc, .out] s (State.levelWhileStopping a0 a1 s) := by
  unfold State.levelWhileStopping
  repeat' (first
    | (with_reducible intro)
    | with_reducible exact Moves.refl _ _
    | with_reducible assumption
    | ((with_reducible apply Moves.op (State.coast_moves _ _)); decide)
    | ((with_reducible apply Moves.op (State.completeWait_moves _ _)); decide)
    | ((with_reducible apply Moves.op (State.modSpin_moves _ _ _)); decide)
    | ((with_reducible apply Moves.op (State.noteService_moves _ _)); decide)
    | with_reducible apply Moves.ite
    | with_reducible apply Moves.when
    | (extract_lets +onlyGivenNames u; (with_reducible apply Moves.let (u := u)); (intro h; clear_value u); rotate_left; subst u; rotate_right)
    | (extract_lets +onlyGivenNames v; subst v)
    | split)

theorem State.levelWhileTurning_moves (a0) (a1) (s) : State.Moves [.aon, .nor, .book, .ctxs, .decisions, .prot, .ports, .spins, .acts, .seqs, .chorus, .actCals, .pair, .svc, .out] s (State.levelWhileTurning a0 a1 s) := by
  unfold State.levelWhileTurning
  repeat' (first
    | (with_reducible intro)
    | with_reducible exact Moves.refl _ _
    | with_reducible assumption
    | ((with_reducible apply Moves.op (State.leaveService_moves _ _ _)); decide)
    | ((with_reducible apply Moves.op (State.modSpin_moves _ _ _)); decide)
    | ((with_reducible apply Moves.op (State.takeLevel_moves _ _)); decide)
    | ((with_reducible apply Moves.op (State.unloadSides_moves _ _)); decide)
    | with_reducible apply Moves.ite
    | with_reducible apply Moves.when
    | (extract_lets +onlyGivenNames u; (with_reducible apply Moves.let (u := u)); (intro h; clear_value u); rotate_left; subst u; rotate_right)
    | (extract_lets +onlyGivenNames v; subst v)
    | split)

theorem State.setLevel_moves (a0) (a1) (s) : State.Moves [.aon, .nor, .book, .ctxs, .decisions, .prot, .ports, .spins, .acts, .seqs, .chorus, .actCals, .pair, .svc, .out] s (State.setLevel a0 a1 s) := by
  unfold State.setLevel
  repeat' (first
    | (with_reducible intro)
    | with_reducible exact Moves.refl _ _
    | with_reducible assumption
    | ((with_reducible apply Moves.op (State.askStart_moves _ _)); decide)
    | ((with_reducible apply Moves.op (State.levelWhileStopping_moves _ _ _)); decide)
    | ((with_reducible apply Moves.op (State.levelWhileTurning_moves _ _ _)); decide)
    | ((with_reducible apply Moves.op (State.modSpin_moves _ _ _)); decide)
    | ((with_reducible apply Moves.op (State.spinDown_moves _ _)); decide)
    | with_reducible apply Moves.ite
    | with_reducible apply Moves.when
    | (extract_lets +onlyGivenNames u; (with_reducible apply Moves.let (u := u)); (intro h; clear_value u); rotate_left; subst u; rotate_right)
    | (extract_lets +onlyGivenNames v; subst v)
    | split)

end Sys2Proof.Machine
end

