-- ==== Sys2Proof/Laws/Train.lean ====
section
/-! SUPPORT. What each operation and each command of Machine/Train.lean can do to the state. -/

namespace Sys2Proof.Machine

theorem State.compReply_moves (a0) (s) : State.Moves [.aon, .book, .pair, .svc, .out] s (State.compReply a0 s) := by
  unfold State.compReply
  repeat' (first
    | with_reducible exact Moves.refl _ _
    | ((with_reducible apply Moves.op (State.emit_moves _ _ _ _ _)); decide)
    | ((with_reducible apply Moves.op (State.emitOut_moves _ _)); decide)
    | ((with_reducible apply Moves.op (State.handSend_moves _)); decide)
    | ((with_reducible apply State.modSvc_moves); exact fun _ => ⟨rfl, rfl⟩; decide)
    | split)

theorem State.compRecorded_moves (a0) (s) : State.Moves [.aon, .book, .prot, .ports, .spins, .pair, .svc, .out] s (State.compRecorded a0 s) := by
  unfold State.compRecorded
  repeat' (first
    | (with_reducible intro)
    | with_reducible exact Moves.refl _ _
    | with_reducible assumption
    | ((with_reducible apply Moves.op (State.compReply_moves _ _)); decide)
    | ((with_reducible apply State.modPort_moves); exact fun _ => ⟨rfl, rfl⟩; decide)
    | ((with_reducible apply State.modPort_leaves); exact fun _ => rfl; decide)
    | ((with_reducible apply State.modPort_served); exact fun _ _ _ => rfl; decide)
    | ((with_reducible apply State.modPort_moves); (intro _; (try dsimp only); split <;> exact ⟨rfl, rfl⟩); decide)
    | ((with_reducible apply Moves.op (State.modSpin_moves _ _ _)); decide)
    | ((with_reducible apply Moves.op (State.noteService_moves _ _)); decide)
    | with_reducible apply Moves.ite
    | with_reducible apply Moves.when
    | (extract_lets +onlyGivenNames u; (with_reducible apply Moves.let (u := u)); (intro h; clear_value u); rotate_left; subst u; rotate_right)
    | (extract_lets +onlyGivenNames v; subst v)
    | split)

theorem State.readPers_moves (a0) (s) : State.Moves [.ports] s (State.readPers a0 s) := by
  unfold State.readPers
  repeat' (first
    | with_reducible exact Moves.refl _ _
    | ((with_reducible apply Moves.op (State.sendRequest_moves _ _ _ _)); decide))

theorem State.goOn_moves (a0) (s) : State.Moves [.ports] s (State.goOn a0 s) := by
  unfold State.goOn
  repeat' (first
    | with_reducible exact Moves.refl _ _
    | ((with_reducible apply State.modPort_moves); exact fun _ => ⟨rfl, rfl⟩; decide)
    | ((with_reducible apply Moves.op (State.readPers_moves _ _)); decide))

theorem State.afterRecord_moves (a0) (s) : State.Moves [.aon, .book, .prot, .ports, .spins, .pair, .svc, .out] s (State.afterRecord a0 s) := by
  unfold State.afterRecord
  repeat' (first
    | with_reducible exact Moves.refl _ _
    | ((with_reducible apply Moves.op (State.compRecorded_moves _ _)); decide)
    | ((with_reducible apply Moves.op (State.goOn_moves _ _)); decide)
    | with_reducible apply Moves.ite
    | split)

theorem State.afterMeasure_moves (a0) (s) : State.Moves [.aon, .book, .ident, .prot, .ports, .spins, .pair, .svc, .out] s (State.afterMeasure a0 s) := by
  unfold State.afterMeasure
  repeat' (first
    | (with_reducible intro)
    | with_reducible exact Moves.refl _ _
    | with_reducible assumption
    | ((with_reducible apply Moves.op (State.addDue_moves _ _ _)); decide)
    | ((with_reducible apply Moves.op (State.afterRecord_moves _ _)); decide)
    | ((with_reducible apply Moves.op (State.compRecorded_moves _ _)); decide)
    | ((with_reducible apply Moves.op (State.emit_moves _ _ _ _ _)); decide)
    | ((with_reducible apply State.modPort_moves); exact fun _ => ⟨rfl, rfl⟩; decide)
    | ((with_reducible apply State.modPort_leaves); exact fun _ => rfl; decide)
    | ((with_reducible apply State.modPort_served); exact fun _ _ _ => rfl; decide)
    | ((with_reducible apply State.modPort_moves); (intro _; (try dsimp only); split <;> exact ⟨rfl, rfl⟩); decide)
    | with_reducible apply Moves.ite
    | with_reducible apply Moves.when
    | (extract_lets +onlyGivenNames u; (with_reducible apply Moves.let (u := u)); (intro h; clear_value u); rotate_left; subst u; rotate_right)
    | (extract_lets +onlyGivenNames v; subst v)
    | split)

theorem State.present_moves (a0) (a1) (s) : State.Moves [.ports] s (State.present a0 a1 s) := by
  unfold State.present
  repeat' (first
    | with_reducible exact Moves.refl _ _
    | ((with_reducible apply State.modPort_moves); exact fun _ => ⟨rfl, rfl⟩; decide)
    | ((with_reducible apply Moves.op (State.sendRequest_moves _ _ _ _)); decide))

theorem State.enterTrain_moves (a0) (a1) (s) : State.Moves [.prot, .ports] s (State.enterTrain a0 a1 s) := by
  unfold State.enterTrain
  repeat' (first
    | (with_reducible intro)
    | with_reducible exact Moves.refl _ _
    | with_reducible assumption
    | ((with_reducible apply State.modPort_moves); exact fun _ => ⟨rfl, rfl⟩; decide)
    | ((with_reducible apply State.modPort_leaves); exact fun _ => rfl; decide)
    | ((with_reducible apply State.modPort_served); exact fun _ _ _ => rfl; decide)
    | ((with_reducible apply State.modPort_moves); (intro _; (try dsimp only); split <;> exact ⟨rfl, rfl⟩); decide)
    | ((with_reducible apply Moves.op (State.noteService_moves _ _)); decide)
    | with_reducible apply Moves.ite
    | with_reducible apply Moves.when
    | (extract_lets +onlyGivenNames u; (with_reducible apply Moves.let (u := u)); (intro h; clear_value u); rotate_left; subst u; rotate_right)
    | (extract_lets +onlyGivenNames v; subst v)
    | split)

theorem State.persFails_moves (a0) (s) : State.Moves [.aon, .power, .names, .prot, .ports, .pair, .out] s (State.persFails a0 s) := by
  unfold State.persFails
  repeat' (first
    | (with_reducible intro)
    | with_reducible exact Moves.refl _ _
    | with_reducible assumption
    | ((with_reducible apply State.modPort_moves); exact fun _ => ⟨rfl, rfl⟩; decide)
    | ((with_reducible apply State.modPort_leaves); exact fun _ => rfl; decide)
    | ((with_reducible apply State.modPort_served); exact fun _ _ _ => rfl; decide)
    | ((with_reducible apply State.modPort_moves); (intro _; (try dsimp only); split <;> exact ⟨rfl, rfl⟩); decide)
    | ((with_reducible apply Moves.op (State.noteService_moves _ _)); decide)
    | ((with_reducible apply Moves.op (State.settle_moves _)); decide)
    | with_reducible apply Moves.ite
    | with_reducible apply Moves.when
    | (extract_lets +onlyGivenNames u; (with_reducible apply Moves.let (u := u)); (intro h; clear_value u); rotate_left; subst u; rotate_right)
    | (extract_lets +onlyGivenNames v; subst v)
    | split)

theorem State.persDone_moves (a0) (s) : State.Moves [.aon, .nor, .book, .power, .ctxs, .decisions, .names, .prot, .ports, .spins, .acts, .seqs, .chorus, .actCals, .portCals, .pair, .svc, .out] s (State.persDone a0 s) := by
  unfold State.persDone
  repeat' (first
    | (with_reducible intro)
    | with_reducible exact Moves.refl _ _
    | with_reducible assumption
    | ((with_reducible apply Moves.op (State.modPcal_moves _ _ _)); decide)
    | ((with_reducible apply State.modPort_moves); exact fun _ => ⟨rfl, rfl⟩; decide)
    | ((with_reducible apply State.modPort_leaves); exact fun _ => rfl; decide)
    | ((with_reducible apply State.modPort_served); exact fun _ _ _ => rfl; decide)
    | ((with_reducible apply State.modPort_moves); (intro _; (try dsimp only); split <;> exact ⟨rfl, rfl⟩); decide)
    | ((with_reducible apply Moves.op (State.modSpin_moves _ _ _)); decide)
    | ((with_reducible apply Moves.op (State.noteService_moves _ _)); decide)
    | ((with_reducible apply Moves.op (State.persFails_moves _ _)); decide)
    | ((with_reducible apply Moves.op (State.settle_moves _)); decide)
    | ((with_reducible apply Moves.op (State.spinDown_moves _ _)); decide)
    | with_reducible apply Moves.ite
    | with_reducible apply Moves.when
    | (extract_lets +onlyGivenNames u; (with_reducible apply Moves.let (u := u)); (intro h; clear_value u); rotate_left; subst u; rotate_right)
    | (extract_lets +onlyGivenNames v; subst v)
    | split)

theorem State.startFence_moves (a0) (s) : State.Moves [.aon, .boot, .book, .power, .names, .prot, .ports, .pair, .out] s (State.startFence a0 s) := by
  unfold State.startFence
  repeat' (first
    | (with_reducible intro)
    | with_reducible exact Moves.refl _ _
    | with_reducible assumption
    | ((with_reducible apply Moves.op (State.enterTrain_moves _ _ _)); decide)
    | ((with_reducible apply Moves.op (State.present_moves _ _ _)); decide)
    | ((with_reducible apply Moves.op (State.sendRequest_moves _ _ _ _)); decide)
    | ((with_reducible apply Moves.op (State.trainFails_moves _ _ _)); decide)
    | with_reducible apply Moves.ite
    | with_reducible apply Moves.when
    | (extract_lets +onlyGivenNames u; (with_reducible apply Moves.let (u := u)); (intro h; clear_value u); rotate_left; subst u; rotate_right)
    | (extract_lets +onlyGivenNames v; subst v)
    | split)

theorem State.startLane_moves (a0) (s) : State.Moves [.ports] s (State.startLane a0 s) := by
  unfold State.startLane
  repeat' (first
    | with_reducible exact Moves.refl _ _
    | ((with_reducible apply State.modPort_moves); exact fun _ => ⟨rfl, rfl⟩; decide))

theorem State.startMeasure_moves (a0) (s) : State.Moves [.prot, .ports] s (State.startMeasure a0 s) := by
  unfold State.startMeasure
  repeat' (first
    | with_reducible exact Moves.refl _ _
    | ((with_reducible apply Moves.op (State.enterTrain_moves _ _ _)); decide)
    | ((with_reducible apply Moves.op (State.sendRequest_moves _ _ _ _)); decide))

theorem State.brakeLatched_moves (a0) (s) : State.Moves [.ports, .spins] s (State.brakeLatched a0 s) := by
  unfold State.brakeLatched
  repeat' (first
    | (with_reducible intro)
    | with_reducible exact Moves.refl _ _
    | with_reducible assumption
    | ((with_reducible apply Moves.op (State.modSpin_moves _ _ _)); decide)
    | ((with_reducible apply Moves.op (State.sendPark_moves _ _ _ _)); decide)
    | ((with_reducible apply Moves.op (State.shortBrake_moves _ _ _ _)); decide)
    | with_reducible apply Moves.each
    | with_reducible apply Moves.ite
    | with_reducible apply Moves.when
    | (extract_lets +onlyGivenNames u; (with_reducible apply Moves.let (u := u)); (intro h; clear_value u); rotate_left; subst u; rotate_right)
    | (extract_lets +onlyGivenNames v; subst v)
    | split)

theorem State.remark_moves (a0) (s) : State.Moves [.aon, .book, .ports] s (State.remark a0 s) := by
  unfold State.remark
  repeat' (first
    | (with_reducible intro)
    | with_reducible exact Moves.refl _ _
    | with_reducible assumption
    | ((with_reducible apply State.modPort_moves); exact fun _ => ⟨rfl, rfl⟩; decide)
    | ((with_reducible apply State.modPort_leaves); exact fun _ => rfl; decide)
    | ((with_reducible apply State.modPort_served); exact fun _ _ _ => rfl; decide)
    | ((with_reducible apply State.modPort_moves); (intro _; (try dsimp only); split <;> exact ⟨rfl, rfl⟩); decide)
    | ((with_reducible apply Moves.op (State.raisePort_moves _ _ _)); decide)
    | with_reducible apply Moves.ite
    | with_reducible apply Moves.when
    | (extract_lets +onlyGivenNames u; (with_reducible apply Moves.let (u := u)); (intro h; clear_value u); rotate_left; subst u; rotate_right)
    | (extract_lets +onlyGivenNames v; subst v)
    | split)

theorem State.trainDone_moves (a0) (s) : State.Moves [.aon, .boot, .book, .ident, .prot, .ports, .spins, .pair, .svc, .out] s (State.trainDone a0 s) := by
  unfold State.trainDone
  repeat' (first
    | (with_reducible intro)
    | with_reducible exact Moves.refl _ _
    | with_reducible assumption
    | ((with_reducible apply Moves.op (State.afterMeasure_moves _ _)); decide)
    | ((with_reducible apply Moves.op (State.brakeLatched_moves _ _)); decide)
    | ((with_reducible apply State.modPort_moves); exact fun _ => ⟨rfl, rfl⟩; decide)
    | ((with_reducible apply State.modPort_leaves); exact fun _ => rfl; decide)
    | ((with_reducible apply State.modPort_served); exact fun _ _ _ => rfl; decide)
    | ((with_reducible apply State.modPort_moves); (intro _; (try dsimp only); split <;> exact ⟨rfl, rfl⟩); decide)
    | ((with_reducible apply Moves.op (State.noteEnded_moves _)); decide)
    | ((with_reducible apply Moves.op (State.noteService_moves _ _)); decide)
    | ((with_reducible apply Moves.op (State.remark_moves _ _)); decide)
    | with_reducible apply Moves.ite
    | with_reducible apply Moves.when
    | (extract_lets +onlyGivenNames u; (with_reducible apply Moves.let (u := u)); (intro h; clear_value u); rotate_left; subst u; rotate_right)
    | (extract_lets +onlyGivenNames v; subst v)
    | split)

theorem execAddendum_moves (a0) (s) : ∃ t, execAddendum a0 s = .next t ∧ State.Moves [.aon, .boot, .nor, .book, .ident, .ctxs, .decisions, .prot, .ports, .spins, .pair, .svc, .out] s t := by
  unfold execAddendum
  repeat' (first
    | (with_reducible intro)
    | (with_reducible refine ⟨_, rfl, ?_⟩)
    | with_reducible exact Moves.refl _ _
    | with_reducible assumption
    | ((with_reducible apply Moves.op (State.afterRecord_moves _ _)); decide)
    | ((with_reducible apply Moves.op (State.complete_moves _ _ _)); decide)
    | ((with_reducible apply Moves.op (State.modIdent_moves _ _)); decide)
    | ((with_reducible apply State.modPort_moves); exact fun _ => ⟨rfl, rfl⟩; decide)
    | ((with_reducible apply State.modPort_leaves); exact fun _ => rfl; decide)
    | ((with_reducible apply State.modPort_served); exact fun _ _ _ => rfl; decide)
    | ((with_reducible apply State.modPort_moves); (intro _; (try dsimp only); split <;> exact ⟨rfl, rfl⟩); decide)
    | ((with_reducible apply Moves.op (State.storeRecord_moves _ _ _ _)); decide)
    | with_reducible apply Moves.ite
    | with_reducible apply Moves.when
    | (extract_lets +onlyGivenNames u; (with_reducible apply Moves.let (u := u)); (intro h; clear_value u); rotate_left; subst u; rotate_right)
    | (extract_lets +onlyGivenNames v; subst v)
    | (split <;> beta_reduce))

theorem execFenceResponse_moves (a0) (s) : ∃ t, execFenceResponse a0 s = .next t ∧ State.Moves [.aon, .boot, .nor, .book, .power, .ctxs, .decisions, .names, .prot, .ports, .spins, .acts, .seqs, .chorus, .actCals, .pair, .svc, .out] s t := by
  unfold execFenceResponse
  repeat' (first
    | (with_reducible intro)
    | (with_reducible refine ⟨_, rfl, ?_⟩)
    | with_reducible exact Moves.refl _ _
    | with_reducible assumption
    | ((with_reducible apply Moves.op (State.answered_moves _ _ _)); decide)
    | ((with_reducible apply Moves.op (State.modPair_moves _ _)); decide)
    | ((with_reducible apply State.modPort_moves); exact fun _ => ⟨rfl, rfl⟩; decide)
    | ((with_reducible apply State.modPort_leaves); exact fun _ => rfl; decide)
    | ((with_reducible apply State.modPort_served); exact fun _ _ _ => rfl; decide)
    | ((with_reducible apply State.modPort_moves); (intro _; (try dsimp only); split <;> exact ⟨rfl, rfl⟩); decide)
    | ((with_reducible apply Moves.op (State.modSpin_moves _ _ _)); decide)
    | ((with_reducible apply Moves.op (State.noteService_moves _ _)); decide)
    | ((with_reducible apply Moves.op (State.obedienceLost_moves _ _)); decide)
    | ((with_reducible apply Moves.op (State.present_moves _ _ _)); decide)
    | ((with_reducible apply Moves.op (State.raisePort_moves _ _ _)); decide)
    | ((with_reducible apply Moves.op (State.startMeasure_moves _ _)); decide)
    | (unfold State.takeAnswer; beta_reduce)
    | (unfold State.takeRx; beta_reduce)
    | ((with_reducible apply Moves.op (State.trainFails_moves _ _ _)); decide)
    | with_reducible apply Moves.each
    | with_reducible apply Moves.ite
    | with_reducible apply Moves.when
    | (extract_lets +onlyGivenNames u; (with_reducible apply Moves.let (u := u)); (intro h; clear_value u); rotate_left; subst u; rotate_right)
    | (extract_lets +onlyGivenNames v; subst v)
    | (split <;> beta_reduce))

theorem execHotAdd_moves (a0) (s) : ∃ t, execHotAdd a0 s = .next t ∧ State.Moves [.pins, .aon, .book, .prot, .ports] s t := by
  unfold execHotAdd
  repeat' (first
    | (with_reducible refine ⟨_, rfl, ?_⟩)
    | with_reducible exact Moves.refl _ _
    | ((with_reducible apply Moves.op (State.modPins_moves _ _)); decide)
    | ((with_reducible apply State.modPort_moves); exact fun _ => ⟨rfl, rfl⟩; decide)
    | ((with_reducible apply Moves.op (State.raisePort_moves _ _ _)); decide)
    | ((with_reducible apply Moves.op (State.startTraining_moves _ _)); decide)
    | with_reducible apply Moves.ite)

theorem execIdentReadResponse_moves (a0) (s) : ∃ t, execIdentReadResponse a0 s = .next t ∧ State.Moves [.aon, .boot, .book, .power, .names, .prot, .ports, .pair, .out] s t := by
  unfold execIdentReadResponse
  repeat' (first
    | (with_reducible intro)
    | (with_reducible refine ⟨_, rfl, ?_⟩)
    | with_reducible exact Moves.refl _ _
    | with_reducible assumption
    | ((with_reducible apply Moves.op (State.answered_moves _ _ _)); decide)
    | ((with_reducible apply State.modPort_moves); exact fun _ => ⟨rfl, rfl⟩; decide)
    | ((with_reducible apply State.modPort_leaves); exact fun _ => rfl; decide)
    | ((with_reducible apply State.modPort_served); exact fun _ _ _ => rfl; decide)
    | ((with_reducible apply State.modPort_moves); (intro _; (try dsimp only); split <;> exact ⟨rfl, rfl⟩); decide)
    | ((with_reducible apply Moves.op (State.startFence_moves _ _)); decide)
    | (unfold State.takeAnswer; beta_reduce)
    | (unfold State.takeRx; beta_reduce)
    | ((with_reducible apply Moves.op (State.trainFails_moves _ _ _)); decide)
    | with_reducible apply Moves.each
    | with_reducible apply Moves.ite
    | with_reducible apply Moves.when
    | (extract_lets +onlyGivenNames u; (with_reducible apply Moves.let (u := u)); (intro h; clear_value u); rotate_left; subst u; rotate_right)
    | (extract_lets +onlyGivenNames v; subst v)
    | (split <;> beta_reduce))

theorem execMeasureReadResponse_moves (a0) (s) : ∃ t, execMeasureReadResponse a0 s = .next t ∧ State.Moves [.aon, .boot, .book, .ident, .power, .names, .prot, .ports, .spins, .pair, .svc, .out] s t := by
  unfold execMeasureReadResponse
  repeat' (first
    | (with_reducible intro)
    | (with_reducible refine ⟨_, rfl, ?_⟩)
    | with_reducible exact Moves.refl _ _
    | with_reducible assumption
    | ((with_reducible apply Moves.op (State.afterMeasure_moves _ _)); decide)
    | ((with_reducible apply Moves.op (State.answered_moves _ _ _)); decide)
    | ((with_reducible apply State.modPort_moves); exact fun _ => ⟨rfl, rfl⟩; decide)
    | ((with_reducible apply State.modPort_leaves); exact fun _ => rfl; decide)
    | ((with_reducible apply State.modPort_served); exact fun _ _ _ => rfl; decide)
    | ((with_reducible apply State.modPort_moves); (intro _; (try dsimp only); split <;> exact ⟨rfl, rfl⟩); decide)
    | (unfold State.takeAnswer; beta_reduce)
    | (unfold State.takeRx; beta_reduce)
    | ((with_reducible apply Moves.op (State.trainDone_moves _ _)); decide)
    | ((with_reducible apply Moves.op (State.trainFails_moves _ _ _)); decide)
    | with_reducible apply Moves.each
    | with_reducible apply Moves.ite
    | with_reducible apply Moves.when
    | (extract_lets +onlyGivenNames u; (with_reducible apply Moves.let (u := u)); (intro h; clear_value u); rotate_left; subst u; rotate_right)
    | (extract_lets +onlyGivenNames v; subst v)
    | (split <;> beta_reduce))

theorem execPersReadResponse_moves (a0) (s) : ∃ t, execPersReadResponse a0 s = .next t ∧ State.Moves [.aon, .nor, .book, .power, .ctxs, .decisions, .names, .prot, .ports, .spins, .acts, .seqs, .chorus, .actCals, .portCals, .pair, .svc, .out] s t := by
  unfold execPersReadResponse
  repeat' (first
    | (with_reducible refine ⟨_, rfl, ?_⟩)
    | with_reducible exact Moves.refl _ _
    | ((with_reducible apply Moves.op (State.answered_moves _ _ _)); decide)
    | (unfold State.busyAnswer; beta_reduce)
    | ((with_reducible apply State.modPort_moves); exact fun _ => ⟨rfl, rfl⟩; decide)
    | ((with_reducible apply Moves.op (State.persDone_moves _ _)); decide)
    | ((with_reducible apply Moves.op (State.persFails_moves _ _)); decide)
    | ((with_reducible apply Moves.op (State.readPers_moves _ _)); decide)
    | (unfold State.takeAnswer; beta_reduce)
    | (unfold State.takeRx; beta_reduce)
    | with_reducible apply Moves.ite
    | (split <;> beta_reduce))

theorem execPersReadRetry_moves (a0) (s) : ∃ t, execPersReadRetry a0 s = .next t ∧ State.Moves [.now, .ports] s t := by
  unfold execPersReadRetry
  repeat' (first
    | (with_reducible refine ⟨_, rfl, ?_⟩)
    | with_reducible exact Moves.refl _ _
    | ((with_reducible apply Moves.op (State.busyRetry_moves _ _ _ _)); decide))

theorem execTrainingStatePass_moves (a0) (s) : ∃ t, execTrainingStatePass a0 s = .next t ∧ State.Moves [.now, .aon, .boot, .book, .power, .names, .prot, .ports, .pair, .out] s t := by
  unfold execTrainingStatePass
  repeat' (first
    | (with_reducible refine ⟨_, rfl, ?_⟩)
    | with_reducible exact Moves.refl _ _
    | with_reducible assumption
    | ((with_reducible apply Moves.op (State.at__moves _ _)); decide)
    | ((with_reducible apply Moves.op (State.attemptFails_moves _ _)); decide)
    | ((with_reducible apply Moves.op (State.enterTrain_moves _ _ _)); decide)
    | ((with_reducible apply State.modPort_moves); exact fun _ => ⟨rfl, rfl⟩; decide)
    | ((with_reducible apply Moves.op (State.sendRequest_moves _ _ _ _)); decide)
    | ((with_reducible apply Moves.op (State.startLane_moves _ _)); decide)
    | with_reducible apply Moves.ite
    | (extract_lets +onlyGivenNames u; (with_reducible apply Moves.let (u := u)); (intro h; clear_value u); rotate_left; subst u; rotate_right)
    | (extract_lets +onlyGivenNames v; subst v)
    | (split <;> beta_reduce))

theorem execTrainingStateTimeout_moves (a0) (s) : ∃ t, execTrainingStateTimeout a0 s = .next t ∧ State.Moves [.now, .aon, .boot, .book, .power, .names, .prot, .ports, .pair, .out] s t := by
  unfold execTrainingStateTimeout
  repeat' (first
    | (with_reducible refine ⟨_, rfl, ?_⟩)
    | with_reducible exact Moves.refl _ _
    | ((with_reducible apply Moves.op (State.at__moves _ _)); decide)
    | ((with_reducible apply Moves.op (State.attemptFails_moves _ _)); decide)
    | ((with_reducible apply State.modPort_moves); exact fun _ => ⟨rfl, rfl⟩; decide)
    | with_reducible apply Moves.ite)

end Sys2Proof.Machine
end

