-- ==== Sys2Proof/Laws/Servo.lean ====
section
/-! SUPPORT. What each operation and each command of Machine/Servo.lean can do to the state. -/

namespace Sys2Proof.Machine

theorem State.fwWrite_moves (a0) (s) : State.Moves [.ports, .svc] s (State.fwWrite a0 s) := by
  induction a0 generalizing s with
  | zero => exact Moves.refl _ _
  | succ n ih =>
    unfold State.fwWrite
    repeat' (first
      | with_reducible exact Moves.refl _ _
      | ((with_reducible apply State.modSvc_moves); exact fun _ => ⟨rfl, rfl⟩; decide)
      | ((with_reducible apply Moves.op (State.sendRequest_moves _ _ _ _)); decide)
      | ((with_reducible apply Moves.op (ih _)); exact List.Subset.refl _)
      | with_reducible apply Moves.ite
      | split)

theorem State.compUnloaded_moves (a0) (s) : State.Moves [.ports, .spins, .svc] s (State.compUnloaded a0 s) := by
  unfold State.compUnloaded
  repeat' (first
    | (with_reducible intro)
    | with_reducible exact Moves.refl _ _
    | with_reducible assumption
    | ((with_reducible apply Moves.op (State.coast_moves _ _)); decide)
    | ((with_reducible apply Moves.op (State.fwWrite_moves _ _)); decide)
    | ((with_reducible apply Moves.op (State.modSpin_moves _ _ _)); decide)
    | ((with_reducible apply State.modSvc_moves); exact fun _ => ⟨rfl, rfl⟩; decide)
    | with_reducible apply Moves.ite
    | with_reducible apply Moves.when
    | (extract_lets +onlyGivenNames u; (with_reducible apply Moves.let (u := u)); (intro h; clear_value u); rotate_left; subst u; rotate_right)
    | (extract_lets +onlyGivenNames v; subst v)
    | split)

theorem State.allUnloaded_moves (a0) (s) : State.Moves [.ctxs, .decisions, .ports, .spins, .pair, .svc, .out] s (State.allUnloaded a0 s) := by
  unfold State.allUnloaded
  repeat' (first
    | (with_reducible intro)
    | with_reducible exact Moves.refl _ _
    | with_reducible assumption
    | ((with_reducible apply Moves.op (State.brakeDown_moves _ _)); decide)
    | ((with_reducible apply Moves.op (State.compUnloaded_moves _ _)); decide)
    | ((with_reducible apply Moves.op (State.handSend_moves _)); decide)
    | ((with_reducible apply Moves.op (State.settleUnloads_moves _ _)); decide)
    | ((with_reducible apply Moves.op (State.takeLevel_moves _ _)); decide)
    | with_reducible apply Moves.ite
    | with_reducible apply Moves.when
    | (extract_lets +onlyGivenNames u; (with_reducible apply Moves.let (u := u)); (intro h; clear_value u); rotate_left; subst u; rotate_right)
    | (extract_lets +onlyGivenNames v; subst v)
    | split)

theorem State.sendOutputs_moves (a0) (a1) (a2) (a3) (s) : State.Moves [.aon, .book, .ports, .acts] s (State.sendOutputs a0 a1 a2 a3 s) := by
  unfold State.sendOutputs
  repeat' (first
    | with_reducible exact Moves.refl _ _
    | ((with_reducible apply Moves.op (State.modAct_moves _ _ _)); decide)
    | ((with_reducible apply Moves.op (State.raiseServo_moves _ _ _)); decide)
    | ((with_reducible apply Moves.op (State.sendActDrive_moves _ _ _ _ _)); decide)
    | with_reducible apply Moves.ite)

theorem State.wedgeReport_moves (a0) (s) : State.Moves [.seqs] s (State.wedgeReport a0 s) := by
  unfold State.wedgeReport
  repeat' (first
    | with_reducible exact Moves.refl _ _
    | ((with_reducible apply Moves.op (State.modSeq_moves _ _ _)); decide))

theorem State.servoLost_moves (a0) (s) : State.Moves [.aon, .nor, .book, .power, .ctxs, .decisions, .names, .prot, .ports, .acts, .seqs, .chorus, .actCals, .pair, .svc, .out] s (State.servoLost a0 s) := by
  unfold State.servoLost
  repeat' (first
    | (with_reducible intro)
    | with_reducible exact Moves.refl _ _
    | with_reducible assumption
    | ((with_reducible apply Moves.op (State.modAct_moves _ _ _)); decide)
    | ((with_reducible apply Moves.op (State.noteService_moves _ _)); decide)
    | ((with_reducible apply Moves.op (State.quiesce_moves _ _ _)); decide)
    | ((with_reducible apply Moves.op (State.raiseServo_moves _ _ _)); decide)
    | ((with_reducible apply Moves.op (State.settle_moves _)); decide)
    | ((with_reducible apply Moves.op (State.unload_moves _ _)); decide)
    | with_reducible apply Moves.ite
    | with_reducible apply Moves.when
    | (extract_lets +onlyGivenNames u; (with_reducible apply Moves.let (u := u)); (intro h; clear_value u); rotate_left; subst u; rotate_right)
    | (extract_lets +onlyGivenNames v; subst v)
    | split)

theorem State.nextGate_moves (a) (b) (c) (s) : State.Moves [.ports] s (State.nextGate a b c s).1 := State.sendGate_moves _ _ _ _ _ _ _

theorem State.takeTarget_moves (a) (s) : State.Moves [.acts] s (State.takeTarget a s).1 := by
  unfold State.takeTarget
  extract_lets x
  split
  · split
    · exact Moves.refl _ _
    · exact State.modAct_moves _ _ _
  · exact Moves.refl _ _

theorem State.missingSample_moves (a0) (a1) (a2) (s) : State.Moves [.aon, .nor, .book, .power, .ctxs, .decisions, .names, .prot, .ports, .acts, .seqs, .chorus, .actCals, .pair, .svc, .out] s (State.missingSample a0 a1 a2 s) := by
  unfold State.missingSample
  repeat' (first
    | (with_reducible intro)
    | with_reducible exact Moves.refl _ _
    | with_reducible assumption
    | ((with_reducible apply Moves.op (State.modAct_moves _ _ _)); decide)
    | ((with_reducible apply Moves.op (State.nextGate_moves _ _ _ _)); decide)
    | ((with_reducible apply Moves.op (State.noteRequest_moves _ _)); decide)
    | ((with_reducible apply Moves.op (State.permit_moves _ _ _ _)); decide)
    | ((with_reducible apply Moves.op (State.raiseServo_moves _ _ _)); decide)
    | ((with_reducible apply Moves.op (State.sendOutputs_moves _ _ _ _ _)); decide)
    | ((with_reducible apply Moves.op (State.servoLost_moves _ _)); decide)
    | ((with_reducible apply Moves.op (State.wedgeReport_moves _ _)); decide)
    | with_reducible apply Moves.ite
    | with_reducible apply Moves.when
    | (extract_lets +onlyGivenNames u; (with_reducible apply Moves.let (u := u)); (intro h; clear_value u); rotate_left; subst u; rotate_right)
    | (extract_lets +onlyGivenNames v; subst v)
    | split)

theorem State.catchUp_moves (a0) (a1) (a2) (a3) (a4) (s) : State.Moves [.aon, .nor, .book, .power, .ctxs, .decisions, .names, .prot, .ports, .acts, .seqs, .chorus, .actCals, .pair, .svc, .out] s (State.catchUp a0 a1 a2 a3 a4 s) := by
  induction a4 generalizing s with
  | zero => exact Moves.refl _ _
  | succ n ih =>
    unfold State.catchUp
    repeat' (first
      | with_reducible exact Moves.refl _ _
      | ((with_reducible apply Moves.op (State.missingSample_moves _ _ _ _)); decide)
      | ((with_reducible apply Moves.op (ih _)); exact List.Subset.refl _)
      | with_reducible apply Moves.ite)

theorem State.enterShock_moves (a0) (s) : State.Moves [.aon, .book, .acts] s (State.enterShock a0 s) := by
  unfold State.enterShock
  repeat' (first
    | with_reducible exact Moves.refl _ _
    | ((with_reducible apply Moves.op (State.emit_moves _ _ _ _ _)); decide)
    | ((with_reducible apply Moves.op (State.modAct_moves _ _ _)); decide)
    | ((with_reducible apply Moves.op (State.raiseServo_moves _ _ _)); decide)
    | with_reducible apply Moves.ite)

theorem State.enterRegion_moves (a0) (a1) (a2) (s) : State.Moves [.aon, .book, .power, .names, .prot, .ports, .acts, .pair, .out] s (State.enterRegion a0 a1 a2 s) := by
  unfold State.enterRegion
  repeat' (first
    | with_reducible exact Moves.refl _ _
    | ((with_reducible apply Moves.op (State.enterShock_moves _ _)); decide)
    | ((with_reducible apply Moves.op (State.modAct_moves _ _ _)); decide)
    | ((with_reducible apply Moves.op (State.settle_moves _)); decide)
    | ((with_reducible apply Moves.op (State.tryService_moves _ _)); decide)
    | with_reducible apply Moves.ite)

theorem State.runLoop_moves (a0) (a1) (a2) (a3) (s) : State.Moves [.acts] s (State.runLoop a0 a1 a2 a3 s) := by
  unfold State.runLoop
  repeat' (first
    | with_reducible exact Moves.refl _ _
    | ((with_reducible apply Moves.op (State.modAct_moves _ _ _)); decide))

theorem State.judge_moves (a0) (a1) (s) : State.Moves [.aon, .book, .ports, .acts, .seqs, .chorus] s (State.judge a0 a1 s) := by
  unfold State.judge
  repeat' (first
    | with_reducible exact Moves.refl _ _
    | ((with_reducible apply Moves.op (State.permit_moves _ _ _ _)); decide))

theorem State.evaluate_moves (a0) (s) : State.Moves [.aon, .book, .power, .names, .prot, .ports, .acts, .seqs, .chorus, .pair, .out] s (State.evaluate a0 s) := by
  unfold State.evaluate
  repeat' (first
    | with_reducible exact Moves.refl _ _
    | with_reducible assumption
    | ((with_reducible apply Moves.op (State.enterRegion_moves _ _ _ _)); decide)
    | ((with_reducible apply Moves.op (State.judge_moves _ _ _)); decide)
    | ((with_reducible apply Moves.op (State.modAct_moves _ _ _)); decide)
    | ((with_reducible apply Moves.op (State.noteRequest_moves _ _)); decide)
    | ((with_reducible apply Moves.op (State.runLoop_moves _ _ _ _ _)); decide)
    | ((with_reducible apply Moves.op (State.sendOutputs_moves _ _ _ _ _)); decide)
    | ((with_reducible apply Moves.op (State.wedgeReport_moves _ _)); decide)
    | ((with_reducible apply Moves.op (State.nextGate_moves _ _ _ _)); decide)
    | ((with_reducible apply Moves.op (State.takeTarget_moves _ _)); decide)
    | with_reducible apply Moves.ite
    | (extract_lets +onlyGivenNames u; (with_reducible apply Moves.let (u := u)); (intro h; clear_value u); rotate_left; subst u; rotate_right)
    | (extract_lets +onlyGivenNames v; subst v)
    | split)

theorem State.gateLost_moves (a0) (s) : State.Moves [.seqs] s (State.gateLost a0 s) := by
  unfold State.gateLost
  repeat' (first
    | with_reducible exact Moves.refl _ _
    | ((with_reducible apply Moves.op (State.modSeq_moves _ _ _)); decide))

theorem State.handNext_moves (a0) (s) : State.Moves [.ports, .acts, .chorus, .pair, .out] s (State.handNext a0 s) := by
  unfold State.handNext
  repeat' (first
    | (with_reducible intro)
    | with_reducible exact Moves.refl _ _
    | with_reducible assumption
    | ((with_reducible apply Moves.op (State.handSend_moves _)); decide)
    | ((with_reducible apply Moves.op (State.unload_moves _ _)); decide)
    | with_reducible apply Moves.ite
    | with_reducible apply Moves.when
    | with_reducible apply Moves.each)

theorem State.loadFailed_moves (a0) (s) : State.Moves [.aon, .power, .names, .prot, .ports, .acts, .pair, .out] s (State.loadFailed a0 s) := by
  unfold State.loadFailed
  repeat' (first
    | with_reducible exact Moves.refl _ _
    | ((with_reducible apply Moves.op (State.modAct_moves _ _ _)); decide)
    | ((with_reducible apply Moves.op (State.noteService_moves _ _)); decide)
    | ((with_reducible apply Moves.op (State.settle_moves _)); decide)
    | ((with_reducible apply Moves.op (State.tryService_moves _ _)); decide))

theorem State.timedOut_moves (a0) (a1) (a2) (s) : State.Moves [.aon, .book, .power, .names, .prot, .ports, .acts, .seqs, .chorus, .pair, .out] s (State.timedOut a0 a1 a2 s) := by
  unfold State.timedOut
  repeat' (first
    | with_reducible exact Moves.refl _ _
    | ((with_reducible apply Moves.op (State.enterRegion_moves _ _ _ _)); decide)
    | ((with_reducible apply Moves.op (State.modAct_moves _ _ _)); decide)
    | ((with_reducible apply Moves.op (State.permit_moves _ _ _ _)); decide)
    | ((with_reducible apply Moves.op (State.raiseServo_moves _ _ _)); decide)
    | ((with_reducible apply Moves.op (State.unload_moves _ _)); decide)
    | with_reducible apply Moves.ite)

theorem State.unloaded_moves (a0) (s) : State.Moves [.ctxs, .decisions, .ports, .spins, .acts, .pair, .svc, .out] s (State.unloaded a0 s) := by
  unfold State.unloaded
  repeat' (first
    | (with_reducible intro)
    | with_reducible exact Moves.refl _ _
    | with_reducible assumption
    | ((with_reducible apply Moves.op (State.allUnloaded_moves _ _)); decide)
    | ((with_reducible apply Moves.op (State.load_moves _ _)); decide)
    | ((with_reducible apply Moves.op (State.modAct_moves _ _ _)); decide)
    | with_reducible apply Moves.ite
    | with_reducible apply Moves.when)

theorem State.validSample_moves (a0) (a1) (a2) (a3) (s) : State.Moves [.aon, .book, .ports, .acts, .seqs, .chorus] s (State.validSample a0 a1 a2 a3 s) := by
  unfold State.validSample
  repeat' (first
    | with_reducible exact Moves.refl _ _
    | ((with_reducible apply Moves.op (State.judge_moves _ _ _)); decide)
    | ((with_reducible apply Moves.op (State.modAct_moves _ _ _)); decide))

theorem State.evaluateTo_moves (a0) (a1) (s) : State.Moves [.aon, .book, .power, .names, .prot, .ports, .acts, .seqs, .chorus, .pair, .out] s (State.evaluateTo a0 a1 s) := by
  induction a1 generalizing s with
  | zero => exact Moves.refl _ _
  | succ n ih =>
    unfold State.evaluateTo
    split
    · exact Moves.refl _ _
    · split
      · exact Moves.op (ih _) (by decide) (Moves.op (State.evaluate_moves _ _) (by decide) (Moves.refl _ _))
      · exact Moves.refl _ _

theorem State.wedgeSample_moves (a0) (a1) (a2) (s) : State.Moves [.aon, .nor, .book, .power, .ctxs, .decisions, .names, .prot, .ports, .acts, .seqs, .chorus, .actCals, .pair, .svc, .out] s (State.wedgeSample a0 a1 a2 s) := by
  unfold State.wedgeSample
  repeat' (first
    | (with_reducible intro)
    | with_reducible exact Moves.refl _ _
    | with_reducible assumption
    | ((with_reducible apply Moves.op (State.catchUp_moves _ _ _ _ _ _)); decide)
    | ((with_reducible apply Moves.op (State.evaluateTo_moves _ _ _)); decide)
    | ((with_reducible apply Moves.op (State.missingSample_moves _ _ _ _)); decide)
    | ((with_reducible apply Moves.op (State.raiseServo_moves _ _ _)); decide)
    | ((with_reducible apply Moves.op (State.validSample_moves _ _ _ _ _)); decide)
    | with_reducible apply Moves.ite
    | with_reducible apply Moves.when
    | (extract_lets +onlyGivenNames u; (with_reducible apply Moves.let (u := u)); (intro h; clear_value u); rotate_left; subst u; rotate_right)
    | (extract_lets +onlyGivenNames v; subst v)
    | split)

theorem execActParkResponse_moves (a0) (s) : ∃ t, execActParkResponse a0 s = .next t ∧ State.Moves [.aon, .nor, .book, .power, .ctxs, .decisions, .names, .prot, .ports, .spins, .acts, .seqs, .chorus, .actCals, .pair, .svc, .out] s t := by
  unfold execActParkResponse
  repeat' (first
    | (with_reducible intro)
    | (with_reducible refine ⟨_, rfl, ?_⟩)
    | with_reducible exact Moves.refl _ _
    | with_reducible assumption
    | ((with_reducible apply Moves.op (State.answered_moves _ _ _)); decide)
    | (unfold State.busyAnswer; beta_reduce)
    | ((with_reducible apply Moves.op (State.loadFailed_moves _ _)); decide)
    | ((with_reducible apply Moves.op (State.modAct_moves _ _ _)); decide)
    | ((with_reducible apply State.modPort_moves); exact fun _ => ⟨rfl, rfl⟩; decide)
    | ((with_reducible apply State.modPort_leaves); exact fun _ => rfl; decide)
    | ((with_reducible apply State.modPort_served); exact fun _ _ _ => rfl; decide)
    | ((with_reducible apply State.modPort_moves); (intro _; (try dsimp only); split <;> exact ⟨rfl, rfl⟩); decide)
    | ((with_reducible apply Moves.op (State.refusedFenced_moves _ _)); decide)
    | (unfold State.takeAnswer; beta_reduce)
    | (unfold State.takeRx; beta_reduce)
    | ((with_reducible apply Moves.op (State.unloaded_moves _ _)); decide)
    | with_reducible apply Moves.each
    | with_reducible apply Moves.ite
    | with_reducible apply Moves.when
    | (extract_lets +onlyGivenNames u; (with_reducible apply Moves.let (u := u)); (intro h; clear_value u); rotate_left; subst u; rotate_right)
    | (extract_lets +onlyGivenNames v; subst v)
    | (split <;> beta_reduce))

theorem execActParkRetry_moves (a0) (a1) (s) : ∃ t, execActParkRetry a0 a1 s = .next t ∧ State.Moves [.now, .ports] s t := by
  unfold execActParkRetry
  repeat' (first
    | (with_reducible refine ⟨_, rfl, ?_⟩)
    | with_reducible exact Moves.refl _ _
    | ((with_reducible apply Moves.op (State.busyRetry_moves _ _ _ _)); decide))

theorem execCompensatorEvaluation_moves (a0) (s) : ∃ t, execCompensatorEvaluation a0 s = .next t ∧ State.Moves [.aon, .book, .power, .names, .prot, .ports, .acts, .seqs, .chorus, .pair, .out] s t := by
  unfold execCompensatorEvaluation
  repeat' (first
    | (with_reducible intro)
    | (with_reducible refine ⟨_, rfl, ?_⟩)
    | with_reducible exact Moves.refl _ _
    | with_reducible assumption
    | ((with_reducible apply Moves.op (State.evaluateTo_moves _ _ _)); decide)
    | with_reducible apply Moves.ite
    | with_reducible apply Moves.when
    | (extract_lets +onlyGivenNames u; (with_reducible apply Moves.let (u := u)); (intro h; clear_value u); rotate_left; subst u; rotate_right)
    | (extract_lets +onlyGivenNames v; subst v)
    | (split <;> beta_reduce))

theorem State.overdue_moves (a0) (s) : State.Moves [.aon, .nor, .book, .power, .ctxs, .decisions, .names, .prot, .ports, .acts, .seqs, .chorus, .actCals, .pair, .svc, .out] s (State.overdue a0 s) := by
  unfold State.overdue
  repeat' (first
    | (with_reducible intro)
    | with_reducible exact Moves.refl _ _
    | with_reducible assumption
    | ((with_reducible apply Moves.op (State.catchUp_moves _ _ _ _ _ _)); decide)
    | with_reducible apply Moves.each
    | with_reducible apply Moves.ite
    | with_reducible apply Moves.when
    | (extract_lets +onlyGivenNames u; (with_reducible apply Moves.let (u := u)); (intro h; clear_value u); rotate_left; subst u; rotate_right)
    | (extract_lets +onlyGivenNames v; subst v)
    | split)

theorem State.gateWhole_moves (a0) (s) : State.Moves [.seqs] s (State.gateWhole a0 s) := by
  unfold State.gateWhole
  repeat' (first
    | (with_reducible intro)
    | with_reducible exact Moves.refl _ _
    | with_reducible assumption
    | ((with_reducible apply Moves.op (State.modSeq_moves _ _ _)); decide)
    | with_reducible apply Moves.ite
    | with_reducible apply Moves.when
    | (extract_lets +onlyGivenNames u; (with_reducible apply Moves.let (u := u)); (intro h; clear_value u); rotate_left; subst u; rotate_right)
    | (extract_lets +onlyGivenNames v; subst v)
    | split)

theorem execLineBlockReceived_moves (a0) (a1) (a2) (s) : ∃ t, execLineBlockReceived a0 a1 a2 s = .next t ∧ State.Moves [.aon, .boot, .nor, .book, .power, .ctxs, .decisions, .names, .prot, .ports, .spins, .acts, .seqs, .chorus, .actCals, .xing, .therm, .pair, .svc, .out] s t := by
  unfold execLineBlockReceived
  refine ⟨_, rfl, ?_⟩
  split
  · exact Moves.op (State.blockDropped_moves _ _) (by decide) (Moves.op (State.overdue_moves _ _) (by decide) (Moves.refl _ _))
  · split
    · extract_lets q
      have hq : s.Moves [.aon, .boot, .nor, .book, .power, .ctxs, .decisions, .names, .prot, .ports, .spins, .acts, .seqs, .chorus, .actCals, .xing, .therm, .pair, .svc, .out] q.1 :=
        Moves.op (State.receiveBlock_moves _ _ _) (by decide) (Moves.op (State.overdue_moves _ _) (by decide) (Moves.refl _ _))
      split
      · exact hq
      · exact Moves.op (State.wedgeSample_moves _ _ _ _) (by decide) hq
      · split
        · exact Moves.op (State.gateWhole_moves _ _) (by decide) hq
        · exact Moves.op (State.gateLost_moves _ _) (by decide) hq
    · split
      · exact Moves.op (State.discard_moves _) (by decide) (Moves.refl _ _)
      · exact Moves.refl _ _

theorem execNewTarget_moves (a0) (a1) (a2) (s) : ∃ t, execNewTarget a0 a1 a2 s = .next t ∧ State.Moves [.acts] s t := by
  unfold execNewTarget
  repeat' (first
    | (with_reducible refine ⟨_, rfl, ?_⟩)
    | with_reducible exact Moves.refl _ _
    | ((with_reducible apply Moves.op (State.modAct_moves _ _ _)); decide))

theorem execSeekTimeout_moves (a0) (s) : ∃ t, execSeekTimeout a0 s = .next t ∧ State.Moves [.now, .aon, .book, .power, .names, .prot, .ports, .acts, .seqs, .chorus, .pair, .out] s t := by
  unfold execSeekTimeout
  repeat' (first
    | (with_reducible refine ⟨_, rfl, ?_⟩)
    | with_reducible exact Moves.refl _ _
    | ((with_reducible apply Moves.op (State.at__moves _ _)); decide)
    | ((with_reducible apply Moves.op (State.timedOut_moves _ _ _ _)); decide)
    | with_reducible apply Moves.ite
    | (split <;> beta_reduce))

theorem execServoReload_moves (a0) (s) : ∃ t, execServoReload a0 s = .next t ∧ State.Moves [.ports, .acts] s t := by
  unfold execServoReload
  repeat' (first
    | (with_reducible refine ⟨_, rfl, ?_⟩)
    | with_reducible exact Moves.refl _ _
    | ((with_reducible apply Moves.op (State.load_moves _ _)); decide)
    | ((with_reducible apply Moves.op (State.modAct_moves _ _ _)); decide)
    | with_reducible apply Moves.ite)

theorem execSettleTimeout_moves (a0) (s) : ∃ t, execSettleTimeout a0 s = .next t ∧ State.Moves [.now, .aon, .book, .power, .names, .prot, .ports, .acts, .seqs, .chorus, .pair, .out] s t := by
  unfold execSettleTimeout
  repeat' (first
    | (with_reducible refine ⟨_, rfl, ?_⟩)
    | with_reducible exact Moves.refl _ _
    | ((with_reducible apply Moves.op (State.at__moves _ _)); decide)
    | ((with_reducible apply Moves.op (State.timedOut_moves _ _ _ _)); decide)
    | with_reducible apply Moves.ite
    | (split <;> beta_reduce))

end Sys2Proof.Machine
end

