-- ==== Sys2Proof/Laws/Calib.lean ====
section
/-! SUPPORT. What each operation and each command of Machine/Calib.lean can do to the state. -/

namespace Sys2Proof.Machine

theorem State.setCopy_moves (a0) (a1) (a2) (s) : State.Moves [.actCals] s (State.setCopy a0 a1 a2 s) := by
  unfold State.setCopy
  repeat' (first
    | (with_reducible intro)
    | with_reducible exact Moves.refl _ _
    | with_reducible assumption
    | ((with_reducible apply Moves.op (State.modAcal_moves _ _ _)); decide)
    | with_reducible apply Moves.ite
    | with_reducible apply Moves.when
    | (extract_lets +onlyGivenNames u; (with_reducible apply Moves.let (u := u)); (intro h; clear_value u); rotate_left; subst u; rotate_right)
    | (extract_lets +onlyGivenNames v; subst v)
    | split)

theorem State.writeCalRecord_moves (a0) (s) : State.Moves [.actCals] s (State.writeCalRecord a0 s) := by
  unfold State.writeCalRecord
  repeat' (first
    | (with_reducible intro)
    | with_reducible exact Moves.refl _ _
    | with_reducible assumption
    | ((with_reducible apply Moves.op (State.modAcal_moves _ _ _)); decide)
    | ((with_reducible apply Moves.op (State.setCopy_moves _ _ _ _)); decide)
    | with_reducible apply Moves.ite
    | with_reducible apply Moves.when
    | (extract_lets +onlyGivenNames u; (with_reducible apply Moves.let (u := u)); (intro h; clear_value u); rotate_left; subst u; rotate_right)
    | (extract_lets +onlyGivenNames v; subst v)
    | split)

theorem State.beginPass_moves (a0) (a1) (a2) (s) : State.Moves [.acts, .chorus] s (State.beginPass a0 a1 a2 s) := by
  unfold State.beginPass
  repeat' (first
    | with_reducible exact Moves.refl _ _
    | ((with_reducible apply Moves.op (State.modAct_moves _ _ _)); decide)
    | ((with_reducible apply Moves.op (State.requestEngine_moves _ _ _ _)); decide)
    | with_reducible apply Moves.ite
    | split)

theorem State.calDirty_moves (a0) (s) : State.Moves [.actCals] s (State.calDirty a0 s) := by
  unfold State.calDirty
  repeat' (first
    | with_reducible exact Moves.refl _ _
    | ((with_reducible apply Moves.op (State.modAcal_moves _ _ _)); decide))

theorem State.calFailure_moves (a0) (a1) (s) : State.Moves [.aon, .book, .actCals] s (State.calFailure a0 a1 s) := by
  unfold State.calFailure
  repeat' (first
    | with_reducible exact Moves.refl _ _
    | ((with_reducible apply Moves.op (State.modAcal_moves _ _ _)); decide)
    | ((with_reducible apply Moves.op (State.raiseCal_moves _ _ _ _)); decide)
    | with_reducible apply Moves.ite)

theorem State.closeBreak_moves (a0) (a1) (a2) (s) : State.Moves [.ctxs, .decisions, .chorus, .actCals, .pair, .svc, .out] s (State.closeBreak a0 a1 a2 s) := by
  unfold State.closeBreak
  repeat' (first
    | with_reducible exact Moves.refl _ _
    | with_reducible assumption
    | ((with_reducible apply Moves.op (State.complete_moves _ _ _)); decide)
    | ((with_reducible apply Moves.op (State.endSession_moves _ _)); decide)
    | ((with_reducible apply Moves.op (State.modAcal_moves _ _ _)); decide)
    | (extract_lets +onlyGivenNames u; (with_reducible apply Moves.let (u := u)); (intro h; clear_value u); rotate_left; subst u; rotate_right)
    | (extract_lets +onlyGivenNames v; subst v)
    | split)

theorem State.clearMarks_moves (a0) (s) : State.Moves [.actCals] s (State.clearMarks a0 s) := by
  unfold State.clearMarks
  repeat' (first
    | (with_reducible intro)
    | with_reducible exact Moves.refl _ _
    | with_reducible assumption
    | ((with_reducible apply Moves.op (State.calDirty_moves _ _)); decide)
    | ((with_reducible apply Moves.op (State.modAcal_moves _ _ _)); decide)
    | with_reducible apply Moves.ite
    | with_reducible apply Moves.when
    | (extract_lets +onlyGivenNames u; (with_reducible apply Moves.let (u := u)); (intro h; clear_value u); rotate_left; subst u; rotate_right)
    | (extract_lets +onlyGivenNames v; subst v)
    | split)

theorem State.fullProgress_moves (a0) (a1) (s) : State.Moves [.nor, .actCals] s (State.fullProgress a0 a1 s) := by
  unfold State.fullProgress
  repeat' (first
    | (with_reducible intro)
    | with_reducible exact Moves.refl _ _
    | with_reducible assumption
    | ((with_reducible apply Moves.op (State.clearMarks_moves _ _)); decide)
    | ((with_reducible apply Moves.op (State.endOp_moves _ _ _ _)); decide)
    | ((with_reducible apply Moves.op (State.modAcal_moves _ _ _)); decide)
    | ((with_reducible apply Moves.op (State.modOp_moves _ _ _)); decide)
    | with_reducible apply Moves.each
    | with_reducible apply Moves.ite
    | with_reducible apply Moves.when
    | (extract_lets +onlyGivenNames u; (with_reducible apply Moves.let (u := u)); (intro h; clear_value u); rotate_left; subst u; rotate_right)
    | (extract_lets +onlyGivenNames v; subst v)
    | split)

theorem State.noteHolds_moves (a0) (s) : State.Moves [.aon, .book, .actCals] s (State.noteHolds a0 s) := by
  unfold State.noteHolds
  repeat' (first
    | (with_reducible intro)
    | with_reducible exact Moves.refl _ _
    | with_reducible assumption
    | ((with_reducible apply Moves.op (State.modAcal_moves _ _ _)); decide)
    | ((with_reducible apply Moves.op (State.raiseCal_moves _ _ _ _)); decide)
    | with_reducible apply Moves.when
    | with_reducible apply Moves.each)

theorem State.commitBreak_moves (a0) (a1) (a2) (s) : State.Moves [.aon, .nor, .book, .ctxs, .decisions, .chorus, .actCals, .pair, .svc, .out] s (State.commitBreak a0 a1 a2 s) := by
  unfold State.commitBreak
  repeat' (first
    | (with_reducible intro)
    | with_reducible exact Moves.refl _ _
    | with_reducible assumption
    | ((with_reducible apply Moves.op (State.calDirty_moves _ _)); decide)
    | ((with_reducible apply Moves.op (State.closeBreak_moves _ _ _ _)); decide)
    | ((with_reducible apply Moves.op (State.fullProgress_moves _ _ _)); decide)
    | ((with_reducible apply Moves.op (State.modAcal_moves _ _ _)); decide)
    | ((with_reducible apply Moves.op (State.noteHolds_moves _ _)); decide)
    | ((with_reducible apply Moves.op (State.raiseCal_moves _ _ _ _)); decide)
    | with_reducible apply Moves.when)

theorem State.sendHeadConfig_moves (a0) (a1) (a2) (a3) (s) : State.Moves [.ports, .actCals] s (State.sendHeadConfig a0 a1 a2 a3 s) := by
  unfold State.sendHeadConfig
  repeat' (first
    | with_reducible exact Moves.refl _ _
    | ((with_reducible apply Moves.op (State.modAcal_moves _ _ _)); decide)
    | ((with_reducible apply Moves.op (State.sendRequest_moves _ _ _ _)); decide)
    | with_reducible apply Moves.ite)

theorem State.judgeBreak_moves (a0) (a1) (a2) (s) : State.Moves [.aon, .nor, .book, .ctxs, .decisions, .chorus, .actCals, .pair, .svc, .out] s (State.judgeBreak a0 a1 a2 s) := by
  unfold State.judgeBreak
  repeat' (first
    | (with_reducible intro)
    | with_reducible exact Moves.refl _ _
    | with_reducible assumption
    | ((with_reducible apply Moves.op (State.calFailure_moves _ _ _)); decide)
    | ((with_reducible apply Moves.op (State.closeBreak_moves _ _ _ _)); decide)
    | ((with_reducible apply Moves.op (State.commitBreak_moves _ _ _ _)); decide)
    | ((with_reducible apply Moves.op (State.fullPoint_moves _ _)); decide)
    | with_reducible apply Moves.ite
    | with_reducible apply Moves.when
    | (extract_lets +onlyGivenNames u; (with_reducible apply Moves.let (u := u)); (intro h; clear_value u); rotate_left; subst u; rotate_right)
    | (extract_lets +onlyGivenNames v; subst v)
    | split)

theorem execBreakAbandon_moves (a0) (s) : ∃ t, execBreakAbandon a0 s = .next t ∧ State.Moves [.now, .aon, .nor, .book, .ctxs, .decisions, .ports, .seqs, .chorus, .actCals, .pair, .svc, .out] s t := by
  unfold execBreakAbandon
  repeat' (first
    | (with_reducible intro)
    | (with_reducible refine ⟨_, rfl, ?_⟩)
    | with_reducible exact Moves.refl _ _
    | with_reducible assumption
    | ((with_reducible apply Moves.op (State.at__moves _ _)); decide)
    | ((with_reducible apply Moves.op (State.quiesce_moves _ _ _)); decide)
    | with_reducible apply Moves.ite
    | with_reducible apply Moves.when
    | (extract_lets +onlyGivenNames u; (with_reducible apply Moves.let (u := u)); (intro h; clear_value u); rotate_left; subst u; rotate_right)
    | (extract_lets +onlyGivenNames v; subst v)
    | (split <;> beta_reduce))

theorem execCalibrationBreakStart_moves (a0) (s) : ∃ t, execCalibrationBreakStart a0 s = .next t ∧ State.Moves [.acts, .chorus, .actCals] s t := by
  unfold execCalibrationBreakStart
  repeat' (first
    | (with_reducible refine ⟨_, rfl, ?_⟩)
    | with_reducible exact Moves.refl _ _
    | ((with_reducible apply Moves.op (State.beginPass_moves _ _ _ _)); decide)
    | ((with_reducible apply Moves.op (State.endSession_moves _ _)); decide)
    | ((with_reducible apply Moves.op (State.modAcal_moves _ _ _)); decide)
    | with_reducible apply Moves.ite
    | (extract_lets +onlyGivenNames v; subst v)
    | (split <;> beta_reduce))

theorem execCalibrationPassDone_moves (a0) (a1) (a2) (s) : ∃ t, execCalibrationPassDone a0 a1 a2 s = .next t ∧ State.Moves [.aon, .nor, .book, .ctxs, .decisions, .ports, .acts, .seqs, .chorus, .actCals, .pair, .svc, .out] s t := by
  unfold execCalibrationPassDone
  repeat' (first
    | (with_reducible refine ⟨_, rfl, ?_⟩)
    | (with_reducible intro)
    | with_reducible exact Moves.refl _ _
    | with_reducible assumption
    | ((with_reducible apply Moves.op (State.beginPass_moves _ _ _ _)); decide)
    | ((with_reducible apply Moves.op (State.endSession_moves _ _)); decide)
    | ((with_reducible apply Moves.op (State.judgeBreak_moves _ _ _ _)); decide)
    | ((with_reducible apply Moves.op (State.modAcal_moves _ _ _)); decide)
    | ((with_reducible apply Moves.op (State.seqToIdle_moves _ _ _)); decide)
    | with_reducible apply Moves.ite
    | with_reducible apply Moves.when
    | (extract_lets +onlyGivenNames u; (with_reducible apply Moves.let (u := u)); (intro h; clear_value u); rotate_left; subst u; rotate_right)
    | (split <;> beta_reduce))

theorem State.loadCalibration_moves (a0) (s) : State.Moves [.aon, .book, .actCals] s (State.loadCalibration a0 s) := by
  unfold State.loadCalibration
  repeat' (first
    | (with_reducible intro)
    | with_reducible exact Moves.refl _ _
    | with_reducible assumption
    | ((with_reducible apply Moves.op (State.modAcal_moves _ _ _)); decide)
    | ((with_reducible apply Moves.op (State.noteHolds_moves _ _)); decide)
    | ((with_reducible apply Moves.op (State.raiseCal_moves _ _ _ _)); decide)
    | with_reducible apply Moves.ite
    | with_reducible apply Moves.when
    | (extract_lets +onlyGivenNames u; (with_reducible apply Moves.let (u := u)); (intro h; clear_value u); rotate_left; subst u; rotate_right)
    | (extract_lets +onlyGivenNames v; subst v)
    | split)

theorem execCalibrationRecordLoad_moves (a0) (s) : ∃ t, execCalibrationRecordLoad a0 s = .next t ∧ State.Moves [.aon, .book, .actCals] s t := by
  unfold execCalibrationRecordLoad
  repeat' (first
    | (with_reducible intro)
    | (with_reducible refine ⟨_, rfl, ?_⟩)
    | with_reducible exact Moves.refl _ _
    | with_reducible assumption
    | ((with_reducible apply Moves.op (State.loadCalibration_moves _ _)); decide)
    | with_reducible apply Moves.ite
    | with_reducible apply Moves.when
    | (extract_lets +onlyGivenNames u; (with_reducible apply Moves.let (u := u)); (intro h; clear_value u); rotate_left; subst u; rotate_right)
    | (extract_lets +onlyGivenNames v; subst v)
    | (split <;> beta_reduce))

theorem State.recordFailed_moves (a0) (s) : State.Moves [.aon, .book, .actCals, .free] s (State.recordFailed a0 s) := by
  unfold State.recordFailed
  repeat' (first
    | (with_reducible intro)
    | with_reducible exact Moves.refl _ _
    | with_reducible assumption
    | ((with_reducible apply Moves.op (State.raiseCal_moves _ _ _ _)); decide)
    | ((with_reducible apply Moves.op (State.setCopy_moves _ _ _ _)); decide)
    | ((with_reducible apply Moves.op (State.takeFree_moves _)); decide)
    | with_reducible apply Moves.ite
    | with_reducible apply Moves.when
    | (extract_lets +onlyGivenNames u; (with_reducible apply Moves.let (u := u)); (intro h; clear_value u); rotate_left; subst u; rotate_right)
    | (extract_lets +onlyGivenNames v; subst v)
    | split)

theorem execCalibrationRecordWrite_moves (a0) (a1) (s) : ∃ t, execCalibrationRecordWrite a0 a1 s = .next t ∧ State.Moves [.aon, .book, .actCals, .free] s t := by
  unfold execCalibrationRecordWrite
  repeat' (first
    | (with_reducible intro)
    | (with_reducible refine ⟨_, rfl, ?_⟩)
    | with_reducible exact Moves.refl _ _
    | with_reducible assumption
    | ((with_reducible apply Moves.op (State.recordFailed_moves _ _)); decide)
    | ((with_reducible apply Moves.op (State.writeCalRecord_moves _ _)); decide)
    | with_reducible apply Moves.ite
    | with_reducible apply Moves.when
    | (extract_lets +onlyGivenNames u; (with_reducible apply Moves.let (u := u)); (intro h; clear_value u); rotate_left; subst u; rotate_right)
    | (extract_lets +onlyGivenNames v; subst v)
    | (split <;> beta_reduce))

theorem execDeferralExpiry_moves (s) : ∃ t, execDeferralExpiry s = .next t ∧ State.Moves [.now, .cal] s t := by
  unfold execDeferralExpiry
  repeat' (first
    | (with_reducible refine ⟨_, rfl, ?_⟩)
    | with_reducible exact Moves.refl _ _
    | ((with_reducible apply Moves.op (State.at__moves _ _)); decide)
    | (extract_lets +onlyGivenNames u; (with_reducible apply Moves.let (u := u)); (intro h; clear_value u); rotate_left; subst u; rotate_right)
    | (extract_lets +onlyGivenNames v; subst v)
    | (split <;> beta_reduce)
    | (refine Moves.base (u := u) (by with_reducible first | exact Moves.refl _ _ | assumption) ?_ rfl rfl fun h => ⟨h.filled, h.complete, h.ready, h.bufs, h.served, h.therms, h.holds, h.ring, h.ctxs⟩; intro x hx; cases x <;> first | exact absurd (by decide) hx | (unfold State.same; with_reducible rfl)))

theorem execHeadConfigResponse_moves (a0) (s) : ∃ t, execHeadConfigResponse a0 s = .next t ∧ State.Moves [.aon, .nor, .book, .ctxs, .decisions, .prot, .ports, .spins, .acts, .seqs, .chorus, .actCals, .pair, .svc, .out] s t := by
  unfold execHeadConfigResponse
  repeat' (first
    | (with_reducible refine ⟨_, rfl, ?_⟩)
    | with_reducible exact Moves.refl _ _
    | ((with_reducible apply Moves.op (State.answered_moves _ _ _)); decide)
    | ((with_reducible apply Moves.op (State.calFailure_moves _ _ _)); decide)
    | ((with_reducible apply Moves.op (State.cancelGates_moves _ _ _ _)); decide)
    | ((with_reducible apply Moves.op (State.modAcal_moves _ _ _)); decide)
    | ((with_reducible apply State.modPort_moves); exact fun _ => ⟨rfl, rfl⟩; decide)
    | ((with_reducible apply Moves.op (State.raiseCal_moves _ _ _ _)); decide)
    | ((with_reducible apply Moves.op (State.refusedFenced_moves _ _)); decide)
    | ((with_reducible apply Moves.op (State.seqToIdle_moves _ _ _)); decide)
    | (unfold State.takeAnswer; beta_reduce)
    | (unfold State.takeRx; beta_reduce)
    | with_reducible apply Moves.ite
    | (split <;> beta_reduce))

theorem execTemperatureStale_moves (a0) (s) : ∃ t, execTemperatureStale a0 s = .next t ∧ State.Moves [.now, .aon, .book, .actCals, .portCals] s t := by
  unfold execTemperatureStale
  repeat' (first
    | (with_reducible refine ⟨_, rfl, ?_⟩)
    | with_reducible exact Moves.refl _ _
    | ((with_reducible apply Moves.op (State.at__moves _ _)); decide)
    | ((with_reducible apply Moves.op (State.modPcal_moves _ _ _)); decide)
    | ((with_reducible apply Moves.op (State.noteHolds_moves _ _)); decide)
    | with_reducible apply Moves.ite)

end Sys2Proof.Machine
end

