-- ==== Sys2Proof/Laws/Sequencer.lean ====
section
/-! SUPPORT. What each operation and each command of Machine/Sequencer.lean can do to the state. -/

namespace Sys2Proof.Machine

theorem State.actOut_moves (a0) (s) : State.Moves [.aon, .nor, .book, .power, .ctxs, .decisions, .names, .prot, .ports, .seqs, .chorus, .actCals, .pair, .svc, .out] s (State.actOut a0 s) := by
  unfold State.actOut
  repeat' (first
    | with_reducible exact Moves.refl _ _
    | ((with_reducible apply Moves.op (State.noteService_moves _ _)); decide)
    | ((with_reducible apply Moves.op (State.quiesce_moves _ _ _)); decide)
    | ((with_reducible apply Moves.op (State.settle_moves _)); decide))

theorem State.encoderOp_moves (a0) (a1) (s) : State.Moves [.ports, .chorus] s (State.encoderOp a0 a1 s) := by
  unfold State.encoderOp
  repeat' (first
    | with_reducible exact Moves.refl _ _
    | ((with_reducible apply Moves.op (State.idleEncoder_moves _ _)); decide)
    | ((with_reducible apply Moves.op (State.modPool_moves _ _ _)); decide)
    | split)

theorem State.selectBank_moves (a0) (s) : State.Moves [.aon, .book, .seqs, .patch] s (State.selectBank a0 s) := by
  unfold State.selectBank
  repeat' (first
    | (with_reducible intro)
    | with_reducible exact Moves.refl _ _
    | with_reducible assumption
    | ((with_reducible apply Moves.op (State.modPatch_moves _ _)); decide)
    | ((with_reducible apply Moves.op (State.modSeq_moves _ _ _)); decide)
    | ((with_reducible apply Moves.op (State.raiseSeq_moves _ _ _)); decide)
    | with_reducible apply Moves.ite
    | with_reducible apply Moves.each)

theorem State.giveUp_moves (a0) (s) : State.Moves [.chorus] s (State.giveUp a0 s) := by
  unfold State.giveUp
  repeat' (first
    | with_reducible exact Moves.refl _ _
    | ((with_reducible apply Moves.op (State.modChorus_moves _ _)); decide)
    | with_reducible apply Moves.ite
    | split)

theorem State.peerWritten_moves (a0) (a1) (s) : State.Moves [.prot] s (State.peerWritten a0 a1 s) := by
  unfold State.peerWritten
  repeat' (first
    | (with_reducible intro)
    | with_reducible exact Moves.refl _ _
    | with_reducible assumption
    | ((with_reducible apply Moves.op (State.modProt_moves _ _)); decide)
    | with_reducible apply Moves.each
    | split)

theorem State.peerReport_moves (a0) (a1) (a2) (s) : State.Moves [.prot, .pair, .out] s (State.peerReport a0 a1 a2 s) := by
  unfold State.peerReport
  repeat' (first
    | (with_reducible intro)
    | with_reducible exact Moves.refl _ _
    | with_reducible assumption
    | ((with_reducible apply Moves.op (State.modPair_moves _ _)); decide)
    | ((with_reducible apply Moves.op (State.peerWritten_moves _ _ _)); decide)
    | ((with_reducible apply Moves.op (State.sendWings_moves _ _ _ _)); decide)
    | with_reducible apply Moves.when
    | (extract_lets +onlyGivenNames u; (with_reducible apply Moves.let (u := u)); (intro h; clear_value u); rotate_left; subst u; rotate_right)
    | split)

theorem State.failOp_moves (a0) (s) : State.Moves [.ctxs, .decisions, .prot, .chorus, .pair, .svc, .out] s (State.failOp a0 s) := by
  unfold State.failOp
  repeat' (first
    | (with_reducible intro)
    | with_reducible exact Moves.refl _ _
    | with_reducible assumption
    | ((with_reducible apply Moves.op (State.complete_moves _ _ _)); decide)
    | ((with_reducible apply Moves.op (State.giveUp_moves _ _)); decide)
    | ((with_reducible apply Moves.op (State.peerReport_moves _ _ _ _)); decide)
    | with_reducible apply Moves.ite
    | with_reducible apply Moves.when
    | (extract_lets +onlyGivenNames u; (with_reducible apply Moves.let (u := u)); (intro h; clear_value u); rotate_left; subst u; rotate_right)
    | (extract_lets +onlyGivenNames v; subst v)
    | split)

theorem State.seqFault_moves (a0) (a1) (s) : State.Moves [.aon, .nor, .book, .power, .ctxs, .decisions, .names, .prot, .ports, .seqs, .patch, .chorus, .actCals, .pair, .svc, .out] s (State.seqFault a0 a1 s) := by
  unfold State.seqFault
  repeat' (first
    | (with_reducible intro)
    | with_reducible exact Moves.refl _ _
    | with_reducible assumption
    | ((with_reducible apply Moves.op (State.actOut_moves _ _)); decide)
    | ((with_reducible apply Moves.op (State.cancelGates_moves _ _ _ _)); decide)
    | ((with_reducible apply Moves.op (State.endSession_moves _ _)); decide)
    | ((with_reducible apply Moves.op (State.failOp_moves _ _)); decide)
    | ((with_reducible apply Moves.op (State.modAcal_moves _ _ _)); decide)
    | ((with_reducible apply Moves.op (State.modSeq_moves _ _ _)); decide)
    | ((with_reducible apply Moves.op (State.raiseSeq_moves _ _ _)); decide)
    | ((with_reducible apply Moves.op (State.selectBank_moves _ _)); decide)
    | ((with_reducible apply Moves.op (State.seqToIdle_moves _ _ _)); decide)
    | with_reducible apply Moves.ite
    | with_reducible apply Moves.when
    | (extract_lets +onlyGivenNames u; (with_reducible apply Moves.let (u := u)); (intro h; clear_value u); rotate_left; subst u; rotate_right)
    | (extract_lets +onlyGivenNames v; subst v)
    | split)

theorem State.idlePoint_moves (a0) (s) : State.Moves [.aon, .book, .seqs, .patch] s (State.idlePoint a0 s) := by
  unfold State.idlePoint
  repeat' (first
    | (with_reducible intro)
    | with_reducible exact Moves.refl _ _
    | with_reducible assumption
    | ((with_reducible apply Moves.op (State.modSeq_moves _ _ _)); decide)
    | ((with_reducible apply Moves.op (State.selectBank_moves _ _)); decide)
    | with_reducible apply Moves.ite
    | with_reducible apply Moves.when
    | (extract_lets +onlyGivenNames u; (with_reducible apply Moves.let (u := u)); (intro h; clear_value u); rotate_left; subst u; rotate_right)
    | (extract_lets +onlyGivenNames v; subst v)
    | split)

theorem State.goTo_moves (a0) (a1) (a2) (s) : State.Moves [.aon, .nor, .book, .power, .ctxs, .decisions, .names, .prot, .ports, .seqs, .patch, .chorus, .actCals, .pair, .svc, .out] s (State.goTo a0 a1 a2 s) := by
  unfold State.goTo
  repeat' (first
    | (with_reducible intro)
    | with_reducible exact Moves.refl _ _
    | with_reducible assumption
    | ((with_reducible apply Moves.op (State.idlePoint_moves _ _)); decide)
    | ((with_reducible apply Moves.op (State.modSeq_moves _ _ _)); decide)
    | ((with_reducible apply Moves.op (State.noteRequest_moves _ _)); decide)
    | ((with_reducible apply Moves.op (State.seqFault_moves _ _ _)); decide)
    | with_reducible apply Moves.ite
    | with_reducible apply Moves.when
    | (extract_lets +onlyGivenNames u; (with_reducible apply Moves.let (u := u)); (intro h; clear_value u); rotate_left; subst u; rotate_right)
    | (extract_lets +onlyGivenNames v; subst v)
    | split)

theorem State.report_moves (a0) (a1) (s) : State.Moves [.aon, .book, .prot, .seqs, .chorus, .pair, .out] s (State.report a0 a1 s) := by
  unfold State.report
  repeat' (first
    | (with_reducible intro)
    | with_reducible exact Moves.refl _ _
    | with_reducible assumption
    | ((with_reducible apply Moves.op (State.giveUp_moves _ _)); decide)
    | ((with_reducible apply Moves.op (State.modSeq_moves _ _ _)); decide)
    | ((with_reducible apply Moves.op (State.peerReport_moves _ _ _ _)); decide)
    | ((with_reducible apply Moves.op (State.raiseSeq_moves _ _ _)); decide)
    | with_reducible apply Moves.ite
    | with_reducible apply Moves.when
    | (extract_lets +onlyGivenNames u; (with_reducible apply Moves.let (u := u)); (intro h; clear_value u); rotate_left; subst u; rotate_right)
    | (extract_lets +onlyGivenNames v; subst v)
    | split)

theorem State.encoderStop_moves (a0) (s) : State.Moves [.aon, .nor, .book, .power, .ctxs, .decisions, .names, .prot, .ports, .seqs, .patch, .chorus, .actCals, .pair, .svc, .out] s (State.encoderStop a0 s) := by
  unfold State.encoderStop
  repeat' (first
    | with_reducible exact Moves.refl _ _
    | ((with_reducible apply Moves.op (State.cancelGates_moves _ _ _ _)); decide)
    | ((with_reducible apply Moves.op (State.goTo_moves _ _ _ _)); decide)
    | ((with_reducible apply Moves.op (State.modPool_moves _ _ _)); decide)
    | ((with_reducible apply Moves.op (State.report_moves _ _ _)); decide)
    | ((with_reducible apply Moves.op (State.seqToIdle_moves _ _ _)); decide)
    | with_reducible apply Moves.ite)

theorem State.giveOffsets_moves (a0) (a1) (a2) (a3) (s) : State.Moves [.chorus] s (State.giveOffsets a0 a1 a2 a3 s) := by
  unfold State.giveOffsets
  repeat' (first
    | (with_reducible intro)
    | with_reducible exact Moves.refl _ _
    | with_reducible assumption
    | ((with_reducible apply Moves.op (State.modEng_moves _ _ _)); decide)
    | with_reducible apply Moves.ite
    | with_reducible apply Moves.when
    | (extract_lets +onlyGivenNames u; (with_reducible apply Moves.let (u := u)); (intro h; clear_value u); rotate_left; subst u; rotate_right)
    | (extract_lets +onlyGivenNames v; subst v)
    | split)

theorem State.issueGate_moves (a0) (a1) (a2) (a3) (a4) (a5) (a6) (s) : State.Moves [.ports, .seqs, .chorus, .actCals] s (State.issueGate a0 a1 a2 a3 a4 a5 a6 s) := by
  unfold State.issueGate
  repeat' (first
    | (with_reducible intro)
    | with_reducible exact Moves.refl _ _
    | with_reducible assumption
    | ((with_reducible apply Moves.op (State.giveOffsets_moves _ _ _ _ _)); decide)
    | ((with_reducible apply Moves.op (State.modAcal_moves _ _ _)); decide)
    | ((with_reducible apply State.modPort_moves); exact fun _ => ⟨rfl, rfl⟩; decide)
    | ((with_reducible apply State.modPort_leaves); exact fun _ => rfl; decide)
    | ((with_reducible apply State.modPort_moves); (intro _; (try dsimp only); split <;> exact ⟨rfl, rfl⟩); decide)
    | ((with_reducible apply Moves.op (State.modSeq_moves _ _ _)); decide)
    | ((with_reducible apply Moves.op (State.sendGate_moves _ _ _ _ _ _ _)); decide)
    | ((with_reducible apply Moves.op (State.sendHeadConfig_moves _ _ _ _ _)); decide)
    | with_reducible apply Moves.ite
    | with_reducible apply Moves.when
    | (extract_lets +onlyGivenNames u; (with_reducible apply Moves.let (u := u)); (intro h; clear_value u); rotate_left; subst u; rotate_right)
    | (extract_lets +onlyGivenNames v; subst v)
    | split)

theorem State.issueWedge_moves (a0) (a1) (a2) (a3) (a4) (a5) (s) : State.Moves [.ports, .seqs, .chorus, .actCals] s (State.issueWedge a0 a1 a2 a3 a4 a5 s) := by
  unfold State.issueWedge
  repeat' (first
    | (with_reducible intro)
    | with_reducible exact Moves.refl _ _
    | with_reducible assumption
    | ((with_reducible apply Moves.op (State.issueGate_moves _ _ _ _ _ _ _ _)); decide)
    | with_reducible apply Moves.ite
    | with_reducible apply Moves.each)

theorem State.issueGates_moves (a0) (a1) (s) : State.Moves [.ports, .seqs, .chorus, .actCals] s (State.issueGates a0 a1 s) := by
  unfold State.issueGates
  repeat' (first
    | (with_reducible intro)
    | with_reducible exact Moves.refl _ _
    | with_reducible assumption
    | ((with_reducible apply Moves.op (State.issueWedge_moves _ _ _ _ _ _ _)); decide)
    | with_reducible apply Moves.ite
    | with_reducible apply Moves.each
    | split)

theorem State.queueRewrite_moves (a0) (s) : State.Moves [.aon, .book, .seqs] s (State.queueRewrite a0 s) := by
  unfold State.queueRewrite
  repeat' (first
    | with_reducible exact Moves.refl _ _
    | ((with_reducible apply Moves.op (State.modSeq_moves _ _ _)); decide)
    | ((with_reducible apply Moves.op (State.raiseSeq_moves _ _ _)); decide)
    | with_reducible apply Moves.ite
    | (extract_lets +onlyGivenNames v; subst v)
    | split)

theorem State.takeOp_moves (a0) (s) : State.Moves [.seqs, .chorus, .actCals] s (State.takeOp a0 s) := by
  unfold State.takeOp
  repeat' (first
    | (with_reducible intro)
    | with_reducible exact Moves.refl _ _
    | with_reducible assumption
    | ((with_reducible apply Moves.op (State.modAcal_moves _ _ _)); decide)
    | ((with_reducible apply Moves.op (State.modEng_moves _ _ _)); decide)
    | ((with_reducible apply Moves.op (State.modSeq_moves _ _ _)); decide)
    | ((with_reducible apply Moves.op (State.noteRequest_moves _ _)); decide)
    | with_reducible apply Moves.ite
    | with_reducible apply Moves.when
    | (extract_lets +onlyGivenNames u; (with_reducible apply Moves.let (u := u)); (intro h; clear_value u); rotate_left; subst u; rotate_right)
    | (extract_lets +onlyGivenNames v; subst v)
    | split)

theorem State.retire_moves (a0) (s) : State.Moves [.seqs] s (State.retire a0 s) := by
  unfold State.retire
  repeat' (first
    | with_reducible exact Moves.refl _ _
    | ((with_reducible apply Moves.op (State.modSeq_moves _ _ _)); decide)
    | (extract_lets +onlyGivenNames v; subst v)
    | split)

theorem State.microActions_moves (a0) (a1) (s) : State.Moves [.aon, .book, .prot, .ports, .seqs, .chorus, .actCals, .pair, .out] s (State.microActions a0 a1 s) := by
  unfold State.microActions
  repeat' (first
    | with_reducible exact Moves.refl _ _
    | ((with_reducible apply Moves.op (State.cancelGates_moves _ _ _ _)); decide)
    | ((with_reducible apply Moves.op (State.encoderOp_moves _ _ _)); decide)
    | ((with_reducible apply Moves.op (State.endSession_moves _ _)); decide)
    | ((with_reducible apply Moves.op (State.issueGates_moves _ _ _)); decide)
    | ((with_reducible apply Moves.op (State.modSeq_moves _ _ _)); decide)
    | ((with_reducible apply Moves.op (State.queueRewrite_moves _ _)); decide)
    | ((with_reducible apply Moves.op (State.report_moves _ _ _)); decide)
    | ((with_reducible apply Moves.op (State.requestEngine_moves _ _ _ _)); decide)
    | ((with_reducible apply Moves.op (State.retire_moves _ _)); decide)
    | ((with_reducible apply Moves.op (State.takeOp_moves _ _)); decide)
    | split)

theorem State.microNextWord_moves (a0) (a1) (a2) (s) : State.Moves [.aon, .nor, .book, .power, .ctxs, .decisions, .names, .prot, .ports, .seqs, .patch, .chorus, .actCals, .pair, .svc, .out] s (State.microNextWord a0 a1 a2 s) := by
  unfold State.microNextWord
  repeat' (first
    | with_reducible exact Moves.refl _ _
    | ((with_reducible apply Moves.op (State.goTo_moves _ _ _ _)); decide)
    | ((with_reducible apply Moves.op (State.seqFault_moves _ _ _)); decide)
    | with_reducible apply Moves.ite
    | (extract_lets +onlyGivenNames v; subst v)
    | split)

theorem State.seqRestart_moves (a0) (s) : State.Moves [.aon, .nor, .book, .power, .ctxs, .decisions, .names, .prot, .ports, .seqs, .patch, .chorus, .actCals, .pair, .svc, .out] s (State.seqRestart a0 s) := by
  unfold State.seqRestart
  repeat' (first
    | with_reducible exact Moves.refl _ _
    | ((with_reducible apply Moves.op (State.goTo_moves _ _ _ _)); decide)
    | ((with_reducible apply Moves.op (State.modSeq_moves _ _ _)); decide)
    | ((with_reducible apply Moves.op (State.selectBank_moves _ _)); decide))

theorem execBankSwitch_moves (a0) (s) : ∃ t, execBankSwitch a0 s = .next t ∧ State.Moves [.aon, .book, .seqs, .patch] s t := by
  unfold execBankSwitch
  repeat' (first
    | (with_reducible refine ⟨_, rfl, ?_⟩)
    | with_reducible exact Moves.refl _ _
    | ((with_reducible apply Moves.op (State.selectBank_moves _ _)); decide)
    | with_reducible apply Moves.ite)

theorem execEncoderReady_moves (a0) (s) : ∃ t, execEncoderReady a0 s = .next t ∧ State.Moves [.chorus] s t := by
  unfold execEncoderReady
  repeat' (first
    | (with_reducible refine ⟨_, rfl, ?_⟩)
    | with_reducible exact Moves.refl _ _
    | ((with_reducible apply Moves.op (State.modPool_moves _ _ _)); decide)
    | with_reducible apply Moves.ite)

theorem execGateError_moves (a0) (s) : ∃ t, execGateError a0 s = .next t ∧ State.Moves [.aon, .nor, .book, .power, .ctxs, .decisions, .names, .prot, .ports, .seqs, .patch, .chorus, .actCals, .pair, .svc, .out] s t := by
  unfold execGateError
  repeat' (first
    | (with_reducible intro)
    | (with_reducible refine ⟨_, rfl, ?_⟩)
    | with_reducible exact Moves.refl _ _
    | with_reducible assumption
    | ((with_reducible apply Moves.op (State.modPool_moves _ _ _)); decide)
    | ((with_reducible apply State.modPort_moves); exact fun _ => ⟨rfl, rfl⟩; decide)
    | ((with_reducible apply State.modPort_leaves); exact fun _ => rfl; decide)
    | ((with_reducible apply State.modPort_served); exact fun _ _ _ => rfl; decide)
    | ((with_reducible apply State.modPort_moves); (intro _; (try dsimp only); split <;> exact ⟨rfl, rfl⟩); decide)
    | ((with_reducible apply Moves.op (State.modSeq_moves _ _ _)); decide)
    | ((with_reducible apply Moves.op (State.quiesce_moves _ _ _)); decide)
    | ((with_reducible apply Moves.op (State.raisePort_moves _ _ _)); decide)
    | ((with_reducible apply Moves.op (State.raiseSeq_moves _ _ _)); decide)
    | ((with_reducible apply Moves.op (State.seqFault_moves _ _ _)); decide)
    | (unfold State.takeRx; beta_reduce)
    | with_reducible apply Moves.each
    | with_reducible apply Moves.ite
    | with_reducible apply Moves.when
    | (extract_lets +onlyGivenNames u; (with_reducible apply Moves.let (u := u)); (intro h; clear_value u); rotate_left; subst u; rotate_right)
    | (extract_lets +onlyGivenNames v; subst v)
    | (split <;> beta_reduce))

theorem State.exhaust_moves (a0) (a1) (s) : State.Moves [.aon, .nor, .book, .power, .ctxs, .decisions, .names, .prot, .ports, .seqs, .patch, .chorus, .actCals, .pair, .svc, .out] s (State.exhaust a0 a1 s) := by
  unfold State.exhaust
  repeat' (first
    | (with_reducible intro)
    | with_reducible exact Moves.refl _ _
    | with_reducible assumption
    | ((with_reducible apply Moves.op (State.endSession_moves _ _)); decide)
    | ((with_reducible apply Moves.op (State.goTo_moves _ _ _ _)); decide)
    | ((with_reducible apply Moves.op (State.idleEncoder_moves _ _)); decide)
    | ((with_reducible apply Moves.op (State.report_moves _ _ _)); decide)
    | with_reducible apply Moves.ite
    | with_reducible apply Moves.when
    | (extract_lets +onlyGivenNames u; (with_reducible apply Moves.let (u := u)); (intro h; clear_value u); rotate_left; subst u; rotate_right)
    | (extract_lets +onlyGivenNames v; subst v)
    | split)

theorem State.endHold_moves (a0) (a1) (a2) (a3) (s) : State.Moves [.now, .aon, .nor, .book, .power, .ctxs, .decisions, .names, .prot, .ports, .acts, .seqs, .patch, .chorus, .actCals, .pair, .svc, .out] s (State.endHold a0 a1 a2 a3 s) := by
  unfold State.endHold
  repeat' (first
    | (with_reducible intro)
    | with_reducible exact Moves.refl _ _
    | with_reducible assumption
    | ((with_reducible apply Moves.op (State.at__moves _ _)); decide)
    | ((with_reducible apply Moves.op (State.handNext_moves _ _)); decide)
    | ((with_reducible apply Moves.op (State.microNextWord_moves _ _ _ _)); decide)
    | ((with_reducible apply Moves.op (State.modSeq_moves _ _ _)); decide)
    | with_reducible apply Moves.ite
    | with_reducible apply Moves.when
    | (extract_lets +onlyGivenNames u; (with_reducible apply Moves.let (u := u)); (intro h; clear_value u); rotate_left; subst u; rotate_right)
    | (extract_lets +onlyGivenNames v; subst v)
    | split)

theorem execMicrowordExecute_moves (a0) (a1) (s) : ∃ t, execMicrowordExecute a0 a1 s = .next t ∧ State.Moves [.now, .aon, .nor, .book, .power, .ctxs, .decisions, .names, .prot, .ports, .acts, .seqs, .patch, .chorus, .actCals, .pair, .svc, .out] s t := by
  unfold execMicrowordExecute
  repeat' (first
    | (with_reducible intro)
    | (with_reducible refine ⟨_, rfl, ?_⟩)
    | with_reducible exact Moves.refl _ _
    | with_reducible assumption
    | ((with_reducible apply Moves.op (State.endHold_moves _ _ _ _ _)); decide)
    | ((with_reducible apply Moves.op (State.exhaust_moves _ _ _)); decide)
    | ((with_reducible apply Moves.op (State.idlePoint_moves _ _)); decide)
    | ((with_reducible apply Moves.op (State.microActions_moves _ _ _)); decide)
    | ((with_reducible apply Moves.op (State.seqFault_moves _ _ _)); decide)
    | with_reducible apply Moves.ite
    | with_reducible apply Moves.when
    | (extract_lets +onlyGivenNames u; (with_reducible apply Moves.let (u := u)); (intro h; clear_value u); rotate_left; subst u; rotate_right)
    | (extract_lets +onlyGivenNames v; subst v)
    | (split <;> beta_reduce))

theorem execOperationTimeout_moves (a0) (s) : ∃ t, execOperationTimeout a0 s = .next t ∧ State.Moves [.now, .aon, .nor, .book, .power, .ctxs, .decisions, .names, .prot, .ports, .seqs, .patch, .chorus, .actCals, .pair, .svc, .out] s t := by
  unfold execOperationTimeout
  repeat' (first
    | (with_reducible refine ⟨_, rfl, ?_⟩)
    | with_reducible exact Moves.refl _ _
    | ((with_reducible apply Moves.op (State.at__moves _ _)); decide)
    | ((with_reducible apply Moves.op (State.seqFault_moves _ _ _)); decide)
    | with_reducible apply Moves.ite)

theorem execSequencerFaultReinit_moves (a0) (s) : ∃ t, execSequencerFaultReinit a0 s = .next t ∧ State.Moves [.aon, .nor, .book, .power, .ctxs, .decisions, .names, .prot, .ports, .seqs, .patch, .chorus, .actCals, .pair, .svc, .out] s t := by
  unfold execSequencerFaultReinit
  repeat' (first
    | (with_reducible refine ⟨_, rfl, ?_⟩)
    | with_reducible exact Moves.refl _ _
    | ((with_reducible apply Moves.op (State.seqRestart_moves _ _)); decide)
    | with_reducible apply Moves.ite)

end Sys2Proof.Machine
end

