-- ==== Sys2Proof/Laws/Chorus.lean ====
section
/-! SUPPORT. What each operation and each command of Machine/Chorus.lean can do to the state. -/

namespace Sys2Proof.Machine

theorem State.afterStep_moves (a0) (s) : State.Moves [.chorus] s (State.afterStep a0 s) := by
  unfold State.afterStep
  repeat' (first
    | with_reducible exact Moves.refl _ _
    | ((with_reducible apply Moves.op (State.grant_moves _)); decide)
    | ((with_reducible apply Moves.op (State.modEng_moves _ _ _)); decide)
    | with_reducible apply Moves.ite
    | (extract_lets +onlyGivenNames v; subst v)
    | split)

theorem State.ungate_moves (a0) (s) : State.Moves [.chorus] s (State.ungate a0 s) := by
  unfold State.ungate
  repeat' (first
    | with_reducible exact Moves.refl _ _
    | ((with_reducible apply Moves.op (State.modChorus_moves _ _)); decide)
    | ((with_reducible apply Moves.op (State.modEng_moves _ _ _)); decide))

theorem State.ungateOne_moves (s) : State.Moves [.chorus] s (State.ungateOne s) := by
  unfold State.ungateOne
  repeat' (first
    | with_reducible exact Moves.refl _ _
    | ((with_reducible apply Moves.op (State.modEng_moves _ _ _)); decide)
    | ((with_reducible apply Moves.op (State.ungate_moves _ _)); decide)
    | split)

theorem State.gate_moves (a0) (s) : State.Moves [.aon, .book, .chorus] s (State.gate a0 s) := by
  unfold State.gate
  repeat' (first
    | (with_reducible intro)
    | with_reducible exact Moves.refl _ _
    | with_reducible assumption
    | ((with_reducible apply Moves.op (State.modChorus_moves _ _)); decide)
    | ((with_reducible apply Moves.op (State.modEng_moves _ _ _)); decide)
    | ((with_reducible apply Moves.op (State.raisePool_moves _ _)); decide)
    | with_reducible apply Moves.when)

theorem State.gateOne_moves (s) : State.Moves [.aon, .book, .chorus] s (State.gateOne s) := by
  unfold State.gateOne
  repeat' (first
    | with_reducible exact Moves.refl _ _
    | ((with_reducible apply Moves.op (State.gate_moves _ _)); decide)
    | ((with_reducible apply Moves.op (State.modEng_moves _ _ _)); decide)
    | with_reducible apply Moves.ite
    | (extract_lets +onlyGivenNames v; subst v)
    | split)

theorem State.limitEngines_moves (s) : State.Moves [.aon, .book, .chorus] s (State.limitEngines s) := by
  unfold State.limitEngines
  repeat' (first
    | (with_reducible intro)
    | with_reducible exact Moves.refl _ _
    | with_reducible assumption
    | ((with_reducible apply Moves.op (State.gateOne_moves _)); decide)
    | ((with_reducible apply Moves.op (State.grant_moves _)); decide)
    | ((with_reducible apply Moves.op (State.ungateOne_moves _)); decide)
    | with_reducible apply Moves.each)

theorem State.freeCapture_moves (a0) (a1) (s) : State.Moves [.chorus] s (State.freeCapture a0 a1 s) := by
  unfold State.freeCapture
  repeat' (first
    | with_reducible exact Moves.refl _ _
    | ((with_reducible apply Moves.op (State.modChorus_moves _ _)); decide)
    | ((with_reducible apply Moves.op (State.modEng_moves _ _ _)); decide))

theorem State.drain_moves (s) : State.Moves [.ctxs, .decisions, .chorus, .pair, .svc, .out] s (State.drain s) := by
  unfold State.drain
  repeat' (first
    | (with_reducible intro)
    | with_reducible exact Moves.refl _ _
    | with_reducible assumption
    | ((with_reducible apply Moves.op (State.giveBlock_moves _ _ _ _)); decide)
    | ((with_reducible apply Moves.op (State.modChorus_moves _ _)); decide)
    | with_reducible apply Moves.ite
    | with_reducible apply Moves.each
    | (extract_lets +onlyGivenNames u; (with_reducible apply Moves.let (u := u)); (intro h; clear_value u); rotate_left; subst u; rotate_right)
    | split)

theorem State.deliver_moves (a0) (s) : State.Moves [.ctxs, .decisions, .chorus, .pair, .svc, .out] s (State.deliver a0 s) := by
  unfold State.deliver
  repeat' (first
    | with_reducible exact Moves.refl _ _
    | ((with_reducible apply Moves.op (State.drain_moves _)); decide)
    | ((with_reducible apply Moves.op (State.modChorus_moves _ _)); decide)
    | ((with_reducible apply Moves.op (State.sendWings_moves _ _ _ _)); decide)
    | with_reducible apply Moves.ite
    | (extract_lets +onlyGivenNames v; subst v)
    | split)

theorem State.sectorFails_moves (a0) (a1) (s) : State.Moves [.ctxs, .prot] s (State.sectorFails a0 a1 s) := by
  unfold State.sectorFails
  repeat' (first
    | (with_reducible intro)
    | with_reducible exact Moves.refl _ _
    | with_reducible assumption
    | ((with_reducible apply State.modCtx_moves); exact fun _ _ => rfl; decide)
    | ((with_reducible apply Moves.op (State.modProt_moves _ _)); decide)
    | with_reducible apply Moves.ite
    | with_reducible apply Moves.when
    | (extract_lets +onlyGivenNames u; (with_reducible apply Moves.let (u := u)); (intro h; clear_value u); rotate_left; subst u; rotate_right)
    | (extract_lets +onlyGivenNames v; subst v)
    | split)

theorem State.captureFailed_moves (a0) (a1) (a2) (s) : State.Moves [.aon, .book, .ctxs, .decisions, .prot, .seqs, .chorus, .pair, .svc, .out] s (State.captureFailed a0 a1 a2 s) := by
  unfold State.captureFailed
  repeat' (first
    | (with_reducible intro)
    | with_reducible exact Moves.refl _ _
    | with_reducible assumption
    | ((with_reducible apply Moves.op (State.deliver_moves _ _)); decide)
    | ((with_reducible apply Moves.op (State.freeCapture_moves _ _ _)); decide)
    | ((with_reducible apply Moves.op (State.modEng_moves _ _ _)); decide)
    | ((with_reducible apply Moves.op (State.modSeq_moves _ _ _)); decide)
    | ((with_reducible apply Moves.op (State.noteRequest_moves _ _)); decide)
    | ((with_reducible apply Moves.op (State.raiseEng_moves _ _ _)); decide)
    | ((with_reducible apply Moves.op (State.sectorFails_moves _ _ _)); decide)
    | with_reducible apply Moves.ite
    | with_reducible apply Moves.when
    | (extract_lets +onlyGivenNames u; (with_reducible apply Moves.let (u := u)); (intro h; clear_value u); rotate_left; subst u; rotate_right)
    | (extract_lets +onlyGivenNames v; subst v)
    | split)

theorem State.cutSession_moves (a0) (a1) (s) : State.Moves [.ports, .seqs, .chorus, .actCals] s (State.cutSession a0 a1 s) := by
  unfold State.cutSession
  repeat' (first
    | (with_reducible intro)
    | with_reducible exact Moves.refl _ _
    | with_reducible assumption
    | ((with_reducible apply Moves.op (State.cancelGates_moves _ _ _ _)); decide)
    | ((with_reducible apply Moves.op (State.modAcal_moves _ _ _)); decide)
    | ((with_reducible apply Moves.op (State.modEng_moves _ _ _)); decide)
    | ((with_reducible apply Moves.op (State.modSeq_moves _ _ _)); decide)
    | ((with_reducible apply Moves.op (State.seqToIdle_moves _ _ _)); decide)
    | ((with_reducible apply Moves.op (State.waitAgain_moves _ _)); decide)
    | with_reducible apply Moves.ite
    | with_reducible apply Moves.when
    | (extract_lets +onlyGivenNames u; (with_reducible apply Moves.let (u := u)); (intro h; clear_value u); rotate_left; subst u; rotate_right)
    | (extract_lets +onlyGivenNames v; subst v)
    | split)

theorem State.loseSector_moves (a0) (a1) (s) : State.Moves [.seqs] s (State.loseSector a0 a1 s) := by
  unfold State.loseSector
  repeat' (first
    | with_reducible exact Moves.refl _ _
    | ((with_reducible apply Moves.op (State.modSeq_moves _ _ _)); decide))

theorem State.selfTestEnd_moves (a0) (a1) (s) : State.Moves [.aon, .book, .chorus] s (State.selfTestEnd a0 a1 s) := by
  unfold State.selfTestEnd
  repeat' (first
    | with_reducible exact Moves.refl _ _
    | ((with_reducible apply Moves.op (State.limitEngines_moves _)); decide)
    | ((with_reducible apply Moves.op (State.modEng_moves _ _ _)); decide)
    | ((with_reducible apply Moves.op (State.raiseEng_moves _ _ _)); decide)
    | ((with_reducible apply Moves.op (State.raisePool_moves _ _)); decide)
    | with_reducible apply Moves.ite)

theorem execBackgroundPromotion_moves (a0) (s) : ∃ t, execBackgroundPromotion a0 s = .next t ∧ State.Moves [.now, .aon, .book, .chorus] s t := by
  unfold execBackgroundPromotion
  repeat' (first
    | (with_reducible refine ⟨_, rfl, ?_⟩)
    | with_reducible exact Moves.refl _ _
    | ((with_reducible apply Moves.op (State.at__moves _ _)); decide)
    | ((with_reducible apply Moves.op (State.grant_moves _)); decide)
    | ((with_reducible apply Moves.op (State.modPool_moves _ _ _)); decide)
    | ((with_reducible apply Moves.op (State.raisePool_moves _ _)); decide)
    | with_reducible apply Moves.ite
    | (split <;> beta_reduce))

theorem execBindingRequest_moves (a0) (a1) (s) : ∃ t, execBindingRequest a0 a1 s = .next t ∧ State.Moves [.chorus] s t := by
  unfold execBindingRequest
  repeat' (first
    | (with_reducible refine ⟨_, rfl, ?_⟩)
    | with_reducible exact Moves.refl _ _
    | ((with_reducible apply Moves.op (State.requestEngine_moves _ _ _ _)); decide))

theorem State.engineFaults_moves (a0) (s) : State.Moves [.aon, .book, .ports, .seqs, .chorus, .actCals] s (State.engineFaults a0 s) := by
  unfold State.engineFaults
  repeat' (first
    | (with_reducible intro)
    | with_reducible exact Moves.refl _ _
    | with_reducible assumption
    | ((with_reducible apply Moves.op (State.cutSession_moves _ _ _)); decide)
    | ((with_reducible apply Moves.op (State.grant_moves _)); decide)
    | ((with_reducible apply Moves.op (State.modEng_moves _ _ _)); decide)
    | ((with_reducible apply Moves.op (State.raiseEng_moves _ _ _)); decide)
    | ((with_reducible apply Moves.op (State.raisePool_moves _ _)); decide)
    | with_reducible apply Moves.ite
    | with_reducible apply Moves.when
    | (extract_lets +onlyGivenNames u; (with_reducible apply Moves.let (u := u)); (intro h; clear_value u); rotate_left; subst u; rotate_right)
    | (extract_lets +onlyGivenNames v; subst v)
    | split)

theorem execEngineFault_moves (a0) (s) : ∃ t, execEngineFault a0 s = .next t ∧ State.Moves [.aon, .book, .ports, .seqs, .chorus, .actCals] s t := by
  unfold execEngineFault
  repeat' (first
    | (with_reducible intro)
    | (with_reducible refine ⟨_, rfl, ?_⟩)
    | with_reducible exact Moves.refl _ _
    | with_reducible assumption
    | ((with_reducible apply Moves.op (State.engineFaults_moves _ _)); decide)
    | with_reducible apply Moves.ite
    | with_reducible apply Moves.when
    | (extract_lets +onlyGivenNames u; (with_reducible apply Moves.let (u := u)); (intro h; clear_value u); rotate_left; subst u; rotate_right)
    | (extract_lets +onlyGivenNames v; subst v)
    | (split <;> beta_reduce))

theorem execEngineGated_moves (a0) (s) : ∃ t, execEngineGated a0 s = .next t ∧ State.Moves [.aon, .book, .chorus] s t := by
  unfold execEngineGated
  repeat' (first
    | (with_reducible refine ⟨_, rfl, ?_⟩)
    | with_reducible exact Moves.refl _ _
    | ((with_reducible apply Moves.op (State.gate_moves _ _)); decide)
    | with_reducible apply Moves.ite)

theorem execEngineReclaim_moves (s) : ∃ t, execEngineReclaim s = .next t ∧ State.Moves [.aon, .book, .chorus] s t := by
  unfold execEngineReclaim
  repeat' (first
    | (with_reducible intro)
    | (with_reducible refine ⟨_, rfl, ?_⟩)
    | with_reducible exact Moves.refl _ _
    | with_reducible assumption
    | ((with_reducible apply Moves.op (State.bind_moves _ _ _ _)); decide)
    | ((with_reducible apply Moves.op (State.raiseEng_moves _ _ _)); decide)
    | ((with_reducible apply Moves.op (State.waitAgain_moves _ _)); decide)
    | with_reducible apply Moves.ite
    | with_reducible apply Moves.when
    | (extract_lets +onlyGivenNames u; (with_reducible apply Moves.let (u := u)); (intro h; clear_value u); rotate_left; subst u; rotate_right)
    | (extract_lets +onlyGivenNames v; subst v)
    | (split <;> beta_reduce))

theorem execEngineSelfTestDone_moves (a0) (a1) (s) : ∃ t, execEngineSelfTestDone a0 a1 s = .next t ∧ State.Moves [.aon, .book, .chorus] s t := by
  unfold execEngineSelfTestDone
  repeat' (first
    | (with_reducible refine ⟨_, rfl, ?_⟩)
    | with_reducible exact Moves.refl _ _
    | ((with_reducible apply Moves.op (State.selfTestEnd_moves _ _ _)); decide)
    | with_reducible apply Moves.ite)

theorem execReadSpill_moves (a0) (s) : ∃ t, execReadSpill a0 s = .next t ∧ State.Moves [.now, .ctxs, .chorus] s t := by
  unfold execReadSpill
  repeat' (first
    | (with_reducible intro)
    | (with_reducible refine ⟨_, rfl, ?_⟩)
    | with_reducible exact Moves.refl _ _
    | with_reducible assumption
    | ((with_reducible apply Moves.op (State.at__moves _ _)); decide)
    | ((with_reducible apply Moves.op (State.modChorus_moves _ _)); decide)
    | ((with_reducible apply State.modCtx_moves); exact fun _ _ => rfl; decide)
    | with_reducible apply Moves.ite
    | with_reducible apply Moves.when
    | (extract_lets +onlyGivenNames u; (with_reducible apply Moves.let (u := u)); (intro h; clear_value u); rotate_left; subst u; rotate_right)
    | (extract_lets +onlyGivenNames v; subst v)
    | (split <;> beta_reduce))

theorem execRecoveryBudgetExpiry_moves (a0) (s) : ∃ t, execRecoveryBudgetExpiry a0 s = .next t ∧ State.Moves [.now, .chorus] s t := by
  unfold execRecoveryBudgetExpiry
  repeat' (first
    | (with_reducible refine ⟨_, rfl, ?_⟩)
    | with_reducible exact Moves.refl _ _
    | ((with_reducible apply Moves.op (State.at__moves _ _)); decide)
    | ((with_reducible apply Moves.op (State.modEng_moves _ _ _)); decide)
    | (split <;> beta_reduce))

theorem execRecoveryStep_moves (a0) (a1) (s) : ∃ t, execRecoveryStep a0 a1 s = .next t ∧ State.Moves [.aon, .book, .ctxs, .decisions, .prot, .seqs, .chorus, .pair, .svc, .out] s t := by
  unfold execRecoveryStep
  repeat' (first
    | (with_reducible refine ⟨_, rfl, ?_⟩)
    | with_reducible exact Moves.refl _ _
    | with_reducible assumption
    | ((with_reducible apply Moves.op (State.afterStep_moves _ _)); decide)
    | ((with_reducible apply Moves.op (State.captureFailed_moves _ _ _ _)); decide)
    | ((with_reducible apply Moves.op (State.deliver_moves _ _)); decide)
    | ((with_reducible apply Moves.op (State.freeCapture_moves _ _ _)); decide)
    | ((with_reducible apply Moves.op (State.modEng_moves _ _ _)); decide)
    | ((with_reducible apply Moves.op (State.raiseEng_moves _ _ _)); decide)
    | with_reducible apply Moves.ite
    | (extract_lets +onlyGivenNames u; (with_reducible apply Moves.let (u := u)); (intro h; clear_value u); rotate_left; subst u; rotate_right)
    | (split <;> beta_reduce))

theorem execSectorDecoded_moves (a0) (a1) (a2) (s) : ∃ t, execSectorDecoded a0 a1 a2 s = .next t ∧ State.Moves [.aon, .book, .ctxs, .decisions, .seqs, .chorus, .pair, .svc, .out] s t := by
  unfold execSectorDecoded
  repeat' (first
    | (with_reducible intro)
    | (with_reducible refine ⟨_, rfl, ?_⟩)
    | with_reducible exact Moves.refl _ _
    | with_reducible assumption
    | ((with_reducible apply Moves.op (State.deliver_moves _ _)); decide)
    | ((with_reducible apply Moves.op (State.loseSector_moves _ _ _)); decide)
    | ((with_reducible apply Moves.op (State.modEng_moves _ _ _)); decide)
    | ((with_reducible apply Moves.op (State.raiseEng_moves _ _ _)); decide)
    | ((with_reducible apply Moves.op (State.takeRecovery_moves _)); decide)
    | with_reducible apply Moves.ite
    | with_reducible apply Moves.when
    | (extract_lets +onlyGivenNames u; (with_reducible apply Moves.let (u := u)); (intro h; clear_value u); rotate_left; subst u; rotate_right)
    | (extract_lets +onlyGivenNames v; subst v)
    | (split <;> beta_reduce))

theorem execWaitAlarm_moves (a0) (s) : ∃ t, execWaitAlarm a0 s = .next t ∧ State.Moves [.now, .aon, .book, .chorus] s t := by
  unfold execWaitAlarm
  repeat' (first
    | (with_reducible refine ⟨_, rfl, ?_⟩)
    | with_reducible exact Moves.refl _ _
    | ((with_reducible apply Moves.op (State.at__moves _ _)); decide)
    | ((with_reducible apply Moves.op (State.modPool_moves _ _ _)); decide)
    | ((with_reducible apply Moves.op (State.raisePool_moves _ _)); decide)
    | with_reducible apply Moves.ite
    | (split <;> beta_reduce))

end Sys2Proof.Machine
end

