-- ==== Sys2Proof/Laws/NsOps.lean ====
section
/-! SUPPORT. What each operation and each command of Machine/NsOps.lean can do to the state. -/

namespace Sys2Proof.Machine

theorem State.nsRec_moves (a0) (a1) (s) : State.Moves [.pair, .out] s (State.nsRec a0 a1 s) := by
  unfold State.nsRec
  repeat' (first
    | (with_reducible intro)
    | with_reducible exact Moves.refl _ _
    | with_reducible assumption
    | ((with_reducible apply Moves.op (State.sendKept_moves _ _ _ _ _ _ _ _)); decide)
    | with_reducible apply Moves.when)

theorem State.groupRec_moves (a0) (a1) (s) : State.Moves [.pair, .out] s (State.groupRec a0 a1 s) := by
  unfold State.groupRec
  repeat' (first
    | (with_reducible intro)
    | with_reducible exact Moves.refl _ _
    | with_reducible assumption
    | ((with_reducible apply Moves.op (State.sendKept_moves _ _ _ _ _ _ _ _)); decide)
    | with_reducible apply Moves.when)

theorem State.freeGroupOf_moves (a0) (s) : State.Moves [.aon, .nor, .book, .prot, .pair, .out] s (State.freeGroupOf a0 s) := by
  unfold State.freeGroupOf
  repeat' (first
    | (with_reducible intro)
    | with_reducible exact Moves.refl _ _
    | with_reducible assumption
    | ((with_reducible apply Moves.op (State.endWorks_moves _ _ _)); decide)
    | ((with_reducible apply Moves.op (State.groupRec_moves _ _ _)); decide)
    | ((with_reducible apply Moves.op (State.modMember_moves _ _ _)); decide)
    | ((with_reducible apply Moves.op (State.modProt_moves _ _)); decide)
    | ((with_reducible apply Moves.op (State.rebuildEnd_moves _)); decide)
    | ((with_reducible apply Moves.op (State.recordExceptions_moves _)); decide)
    | ((with_reducible apply Moves.op (State.recordGroups_moves _)); decide)
    | with_reducible apply Moves.each
    | with_reducible apply Moves.ite
    | with_reducible apply Moves.when
    | (extract_lets +onlyGivenNames u; (with_reducible apply Moves.let (u := u)); (intro h; clear_value u); rotate_left; subst u; rotate_right)
    | (extract_lets +onlyGivenNames v; subst v)
    | split)

theorem State.dropNs_moves (a0) (s) : State.Moves [.aon, .nor, .book, .names, .prot, .pair, .out] s (State.dropNs a0 s) := by
  unfold State.dropNs
  repeat' (first
    | (with_reducible intro)
    | with_reducible exact Moves.refl _ _
    | with_reducible assumption
    | ((with_reducible apply Moves.op (State.freeGroupOf_moves _ _)); decide)
    | ((with_reducible apply Moves.op (State.modNames_moves _ _)); decide)
    | ((with_reducible apply Moves.op (State.modProt_moves _ _)); decide)
    | with_reducible apply Moves.each)

theorem State.removeNs_moves (a0) (s) : State.Moves [.aon, .nor, .book, .names, .prot, .pair, .out] s (State.removeNs a0 s) := by
  unfold State.removeNs
  repeat' (first
    | with_reducible exact Moves.refl _ _
    | ((with_reducible apply Moves.op (State.dropNs_moves _ _)); decide)
    | ((with_reducible apply Moves.op (State.nsRec_moves _ _ _)); decide)
    | split)

theorem State.settleDeletes_moves (s) : State.Moves [.aon, .nor, .book, .ctxs, .decisions, .names, .prot, .pair, .svc, .out] s (State.settleDeletes s) := by
  unfold State.settleDeletes
  repeat' (first
    | (with_reducible intro)
    | with_reducible exact Moves.refl _ _
    | with_reducible assumption
    | ((with_reducible apply Moves.op (State.complete_moves _ _ _)); decide)
    | ((with_reducible apply Moves.op (State.noteDirty_moves _)); decide)
    | ((with_reducible apply Moves.op (State.removeNs_moves _ _)); decide)
    | with_reducible apply Moves.ite
    | with_reducible apply Moves.each
    | split)

theorem State.allocGroup_moves {a : Nat} {b : Bool} {s t : State} {g : Nat} (h : State.allocGroup a b s = some (t, g)) :
    State.Moves [.prot, .pair, .out] s t := by
  unfold State.allocGroup at h
  extract_lets ms w at h
  split at h
  · simp at h
  · split at h
    · simp at h
    · extract_lets g u at h
      simp only [Option.some.injEq, Prod.mk.injEq] at h
      obtain ⟨rfl, -⟩ := h
      exact Moves.op (State.groupRec_moves _ _ _) (by decide) (Moves.op (State.recordGroups_moves _) (by decide) (Moves.op (State.modProt_moves _ _) (by decide)
        (Moves.each (fun p u hu => Moves.op (State.modMember_moves _ _ _) (by decide) hu) (Moves.refl _ _))))

theorem State.allocGroups_moves {a : Nat} {b : Bool} {n : Nat} {s t : State} {gs : List Nat} (h : State.allocGroups a b n s = some (t, gs)) :
    State.Moves [.prot, .pair, .out] s t := by
  induction n generalizing s t gs with
  | zero => simp only [State.allocGroups, Option.some.injEq, Prod.mk.injEq] at h; rw [← h.1]; exact Moves.refl _ _
  | succ n ih =>
    unfold State.allocGroups at h
    split at h
    · simp at h
    · rename_i u g hu
      rw [Option.map_eq_some_iff] at h
      obtain ⟨⟨v, l⟩, hv, e⟩ := h
      rw [Prod.mk.injEq] at e
      obtain ⟨rfl, -⟩ := e
      exact Moves.op (ih hv) (by decide) (Moves.op (State.allocGroup_moves hu) (by decide) (Moves.refl _ _))

end Sys2Proof.Machine
end

