-- ==== Sys2Proof/Laws/Power.lean ====
section
/-! SUPPORT. What each operation and each command of Machine/Power.lean can do to the state. -/

namespace Sys2Proof.Machine

theorem State.shutdownDone_moves (a0) (s) : State.Moves [.fa, .fb] s (State.shutdownDone a0 s) := by
  unfold State.shutdownDone
  repeat' (first
    | with_reducible exact Moves.refl _ _
    | ((with_reducible apply State.modFn_moves); exact fun _ => ⟨rfl, rfl⟩; decide)
    | with_reducible apply Moves.ite)

theorem State.ps3SpinDown_moves (a0) (s) : State.Moves [.aon, .nor, .book, .ctxs, .decisions, .prot, .ports, .spins, .acts, .seqs, .chorus, .actCals, .pair, .svc, .out] s (State.ps3SpinDown a0 s) := by
  unfold State.ps3SpinDown
  repeat' (first
    | with_reducible exact Moves.refl _ _
    | ((with_reducible apply Moves.op (State.modSpin_moves _ _ _)); decide)
    | ((with_reducible apply Moves.op (State.spinDown_moves _ _)); decide)
    | with_reducible apply Moves.ite)

theorem State.ps3Reached_moves (s) : State.Moves [.aon, .nor, .book, .power, .ctxs, .decisions, .names, .prot, .ports, .spins, .acts, .seqs, .chorus, .actCals, .mem, .mcache, .pair, .svc, .out] s (State.ps3Reached s) := by
  unfold State.ps3Reached
  repeat' (first
    | (with_reducible intro)
    | with_reducible exact Moves.refl _ _
    | with_reducible assumption
    | ((with_reducible apply Moves.op (State.limitEngines_moves _)); decide)
    | ((with_reducible apply Moves.op (State.modCache_moves _ _)); decide)
    | ((with_reducible apply Moves.op (State.modMem_moves _ _)); decide)
    | ((with_reducible apply Moves.op (State.modNames_moves _ _)); decide)
    | ((with_reducible apply State.modPort_moves); exact fun _ => ⟨rfl, rfl⟩; decide)
    | ((with_reducible apply State.modPort_leaves); exact fun _ => rfl; decide)
    | ((with_reducible apply State.modPort_served); exact fun _ _ _ => rfl; decide)
    | ((with_reducible apply State.modPort_moves); (intro _; (try dsimp only); split <;> exact ⟨rfl, rfl⟩); decide)
    | ((with_reducible apply Moves.op (State.modPower_moves _ _)); decide)
    | ((with_reducible apply Moves.op (State.noteServices_moves _)); decide)
    | ((with_reducible apply Moves.op (State.ps3SpinDown_moves _ _)); decide)
    | ((with_reducible apply Moves.op (State.sendWings_moves _ _ _ _)); decide)
    | ((with_reducible apply Moves.op (State.writeCalRecord_moves _ _)); decide)
    | with_reducible apply Moves.each
    | with_reducible apply Moves.ite
    | with_reducible apply Moves.when
    | (extract_lets +onlyGivenNames u; (with_reducible apply Moves.let (u := u)); (intro h; clear_value u); rotate_left; subst u; rotate_right)
    | (extract_lets +onlyGivenNames v; subst v)
    | split)

theorem State.noteClean_moves (s) : State.Moves [.aon, .nor, .book, .power, .fa, .fb, .ctxs, .decisions, .names, .prot, .ports, .spins, .acts, .seqs, .chorus, .actCals, .mem, .mcache, .pair, .svc, .free, .out] s (State.noteClean s) := by
  unfold State.noteClean
  repeat' (first
    | with_reducible exact Moves.refl _ _
    | ((with_reducible apply Moves.op (State.noteDirty_moves _)); decide)
    | ((with_reducible apply Moves.op (State.ps3Reached_moves _)); decide)
    | ((with_reducible apply Moves.op (State.retireWaiting_moves _)); decide)
    | ((with_reducible apply Moves.op (State.settleDeletes_moves _)); decide)
    | ((with_reducible apply Moves.op (State.shutdownDone_moves _ _)); decide)
    | with_reducible apply Moves.ite)

theorem State.bufferChanged_moves (s) : State.Moves [.aon, .nor, .book, .power, .fa, .fb, .ctxs, .decisions, .names, .prot, .ports, .spins, .acts, .seqs, .chorus, .actCals, .mem, .mcache, .pair, .svc, .free, .out] s (State.bufferChanged s) := by
  unfold State.bufferChanged
  repeat' (first
    | with_reducible exact Moves.refl _ _
    | ((with_reducible apply Moves.op (State.noteClean_moves _)); decide)
    | ((with_reducible apply Moves.op (State.noteDirty_moves _)); decide)
    | ((with_reducible apply Moves.op (State.settleOrder_moves _)); decide))

theorem State.modOps_moves (a0) (s) : State.Moves [.nor] s (State.modOps a0 s) := by
  unfold State.modOps
  repeat' (first
    | with_reducible exact Moves.refl _ _
    | ((with_reducible apply Moves.op (State.modCfg_moves _ _)); decide))

theorem State.ps3Over_moves (s) : State.Moves [.nor, .prot] s (State.ps3Over s) := by
  unfold State.ps3Over
  repeat' (first
    | (with_reducible intro)
    | with_reducible exact Moves.refl _ _
    | with_reducible assumption
    | ((with_reducible apply Moves.op (State.modOps_moves _ _)); decide)
    | ((with_reducible apply Moves.op (State.rebuildTo_moves _ _ _)); decide)
    | with_reducible apply Moves.ite
    | with_reducible apply Moves.when
    | (extract_lets +onlyGivenNames u; (with_reducible apply Moves.let (u := u)); (intro h; clear_value u); rotate_left; subst u; rotate_right)
    | (extract_lets +onlyGivenNames v; subst v)
    | split)

theorem State.leavePs3_moves (s) : State.Moves [.aon, .nor, .book, .power, .ctxs, .decisions, .prot, .ports, .spins, .acts, .seqs, .chorus, .actCals, .mem, .pair, .svc, .out] s (State.leavePs3 s) := by
  unfold State.leavePs3
  repeat' (first
    | (with_reducible intro)
    | with_reducible exact Moves.refl _ _
    | with_reducible assumption
    | ((with_reducible apply Moves.op (State.limitEngines_moves _)); decide)
    | ((with_reducible apply Moves.op (State.modMem_moves _ _)); decide)
    | ((with_reducible apply State.modPort_moves); exact fun _ => ⟨rfl, rfl⟩; decide)
    | ((with_reducible apply State.modPort_leaves); exact fun _ => rfl; decide)
    | ((with_reducible apply State.modPort_served); exact fun _ _ _ => rfl; decide)
    | ((with_reducible apply State.modPort_moves); (intro _; (try dsimp only); split <;> exact ⟨rfl, rfl⟩); decide)
    | ((with_reducible apply Moves.op (State.modPower_moves _ _)); decide)
    | ((with_reducible apply Moves.op (State.ps3Over_moves _)); decide)
    | ((with_reducible apply Moves.op (State.setLevel_moves _ _ _)); decide)
    | with_reducible apply Moves.each
    | with_reducible apply Moves.ite
    | with_reducible apply Moves.when
    | (extract_lets +onlyGivenNames u; (with_reducible apply Moves.let (u := u)); (intro h; clear_value u); rotate_left; subst u; rotate_right)
    | (extract_lets +onlyGivenNames v; subst v)
    | split)

theorem execDramSelfRefreshEntry_moves (s) : ∃ t, execDramSelfRefreshEntry s = .next t ∧ State.Moves [.now, .mem] s t := by
  unfold execDramSelfRefreshEntry
  repeat' (first
    | (with_reducible refine ⟨_, rfl, ?_⟩)
    | with_reducible exact Moves.refl _ _
    | ((with_reducible apply Moves.op (State.at__moves _ _)); decide)
    | ((with_reducible apply Moves.op (State.modMem_moves _ _)); decide)
    | with_reducible apply Moves.ite)

theorem execDramSelfRefreshExit_moves (s) : ∃ t, execDramSelfRefreshExit s = .next t ∧ State.Moves [.mem] s t := by
  unfold execDramSelfRefreshExit
  repeat' (first
    | (with_reducible refine ⟨_, rfl, ?_⟩)
    | with_reducible exact Moves.refl _ _
    | ((with_reducible apply Moves.op (State.modMem_moves _ _)); decide)
    | with_reducible apply Moves.ite)

theorem execPowerStateChange_moves (s) : ∃ t, execPowerStateChange s = .next t ∧ State.Moves [.aon, .book, .power, .chorus] s t := by
  unfold execPowerStateChange
  repeat' (first
    | (with_reducible refine ⟨_, rfl, ?_⟩)
    | with_reducible exact Moves.refl _ _
    | ((with_reducible apply Moves.op (State.limitEngines_moves _)); decide)
    | ((with_reducible apply Moves.op (State.modPower_moves _ _)); decide)
    | with_reducible apply Moves.ite)

theorem execPs3Entry_moves (s) : ∃ t, execPs3Entry s = .next t ∧ State.Moves [.aon, .nor, .book, .power, .fa, .fb, .ctxs, .decisions, .names, .prot, .ports, .spins, .acts, .seqs, .chorus, .actCals, .mem, .mcache, .pair, .svc, .free, .out] s t := by
  unfold execPs3Entry
  repeat' (first
    | (with_reducible intro)
    | (with_reducible refine ⟨_, rfl, ?_⟩)
    | with_reducible exact Moves.refl _ _
    | with_reducible assumption
    | ((with_reducible apply Moves.op (State.fullPoint_moves _ _)); decide)
    | ((with_reducible apply Moves.op (State.modOps_moves _ _)); decide)
    | ((with_reducible apply Moves.op (State.modPower_moves _ _)); decide)
    | ((with_reducible apply Moves.op (State.noteClean_moves _)); decide)
    | ((with_reducible apply Moves.op (State.noteServices_moves _)); decide)
    | ((with_reducible apply Moves.op (State.quiesce_moves _ _ _)); decide)
    | with_reducible apply Moves.each
    | with_reducible apply Moves.ite
    | with_reducible apply Moves.when
    | (extract_lets +onlyGivenNames u; (with_reducible apply Moves.let (u := u)); (intro h; clear_value u); rotate_left; subst u; rotate_right)
    | (extract_lets +onlyGivenNames v; subst v)
    | (split <;> beta_reduce))

theorem execPs3Exit_moves (s) : ∃ t, execPs3Exit s = .next t ∧ State.Moves [.aon, .nor, .book, .power, .ctxs, .decisions, .prot, .ports, .spins, .acts, .seqs, .chorus, .actCals, .mem, .pair, .svc, .out] s t := by
  unfold execPs3Exit
  repeat' (first
    | (with_reducible intro)
    | (with_reducible refine ⟨_, rfl, ?_⟩)
    | with_reducible exact Moves.refl _ _
    | with_reducible assumption
    | ((with_reducible apply Moves.op (State.leavePs3_moves _)); decide)
    | ((with_reducible apply Moves.op (State.modPower_moves _ _)); decide)
    | ((with_reducible apply Moves.op (State.ps3Over_moves _)); decide)
    | with_reducible apply Moves.ite
    | with_reducible apply Moves.when
    | (extract_lets +onlyGivenNames u; (with_reducible apply Moves.let (u := u)); (intro h; clear_value u); rotate_left; subst u; rotate_right)
    | (extract_lets +onlyGivenNames v; subst v)
    | (split <;> beta_reduce))

theorem execPs3SampleLaneOff_moves (a0) (s) : ∃ t, execPs3SampleLaneOff a0 s = .next t ∧ State.Moves [.ports] s t := by
  unfold execPs3SampleLaneOff
  repeat' (first
    | (with_reducible refine ⟨_, rfl, ?_⟩)
    | with_reducible exact Moves.refl _ _
    | ((with_reducible apply State.modPort_leaves); exact fun _ => rfl; decide)
    | with_reducible apply Moves.ite)

end Sys2Proof.Machine
end

