-- ==== Sys2Proof/Laws/Destage.lean ====
section
/-! SUPPORT. What each operation and each command of Machine/Destage.lean can do to the state. -/

namespace Sys2Proof.Machine

theorem State.putMcRow_moves {a b c : _} {s t : State} (h : State.putMcRow a b c s = some t) : State.Moves [.prot] s t := by
  unfold State.putMcRow at h
  simp only [Option.bind_eq_some_iff] at h
  obtain ⟨x, -, hx⟩ := h
  split at hx
  · cases hx
  · cases hx
    exact State.modProt_moves _ _

theorem State.askStrip_moves (a0) (a1) (a2) (s) : State.Moves [.pair, .out] s (State.askStrip a0 a1 a2 s) := by
  unfold State.askStrip
  repeat' (first
    | (with_reducible intro)
    | with_reducible exact Moves.refl _ _
    | with_reducible assumption
    | ((with_reducible apply Moves.op (State.askMedia_moves _ _ _ _ _)); decide)
    | with_reducible apply Moves.ite
    | with_reducible apply Moves.when
    | (extract_lets +onlyGivenNames u; (with_reducible apply Moves.let (u := u)); (intro h; clear_value u); rotate_left; subst u; rotate_right)
    | (extract_lets +onlyGivenNames v; subst v)
    | split)

theorem State.askPeer_moves (a0) (a1) (a2) (a3) (a4) (s) : State.Moves [.pair, .out] s (State.askPeer a0 a1 a2 a3 a4 s) := by
  unfold State.askPeer
  repeat' (first
    | (with_reducible intro)
    | with_reducible exact Moves.refl _ _
    | with_reducible assumption
    | ((with_reducible apply Moves.op (State.askStrip_moves _ _ _ _)); decide)
    | with_reducible apply Moves.each
    | with_reducible apply Moves.ite
    | with_reducible apply Moves.when
    | (extract_lets +onlyGivenNames u; (with_reducible apply Moves.let (u := u)); (intro h; clear_value u); rotate_left; subst u; rotate_right)
    | (extract_lets +onlyGivenNames v; subst v)
    | split)

theorem State.endWork_moves (a0) (s) : State.Moves [.aon, .nor, .book, .ctxs, .decisions, .ports, .seqs, .chorus, .actCals, .pair, .svc, .out] s (State.endWork a0 s) := by
  unfold State.endWork
  repeat' (first
    | with_reducible exact Moves.refl _ _
    | ((with_reducible apply Moves.op (State.modSeq_moves _ _ _)); decide)
    | ((with_reducible apply Moves.op (State.quiesce_moves _ _ _)); decide))

theorem State.dumpRows_moves (a0) (a1) (a2) (s) : State.Moves [.prot] s (State.dumpRows a0 a1 a2 s) := by
  induction a1 generalizing a2 s with
  | zero => exact Moves.refl _ _
  | succ n ih =>
    unfold State.dumpRows
    split
    · exact Moves.refl _ _
    · refine Moves.op (ih _ _) (by decide) ?_
      cases h : State.putMcRow 0 a0 (a2.take 512) s with
      | none => exact Moves.refl _ _
      | some t => exact State.putMcRow_moves h

theorem State.endCommands_moves (s) : State.Moves [.aon, .nor, .book, .ctxs, .decisions, .names, .prot, .mem, .mcache, .pair, .svc, .free, .out] s (State.endCommands s) := by
  unfold State.endCommands
  repeat' (first
    | (with_reducible intro)
    | with_reducible exact Moves.refl _ _
    | with_reducible assumption
    | ((with_reducible apply Moves.op (State.complete_moves _ _ _)); decide)
    | ((with_reducible apply Moves.op (State.settleOrder_moves _)); decide)
    | with_reducible apply Moves.ite
    | with_reducible apply Moves.each)

theorem State.freeRows_moves (s) : State.Moves [.prot] s (State.freeRows s) := by
  unfold State.freeRows
  repeat' (first
    | with_reducible exact Moves.refl _ _
    | ((with_reducible apply Moves.op (State.modProt_moves _ _)); decide))

theorem State.mapRowDone_moves (a0) (a1) (s) : State.Moves [.names, .pair, .out] s (State.mapRowDone a0 a1 s) := by
  unfold State.mapRowDone
  repeat' (first
    | (with_reducible intro)
    | with_reducible exact Moves.refl _ _
    | with_reducible assumption
    | ((with_reducible apply Moves.op (State.modNames_moves _ _)); decide)
    | ((with_reducible apply Moves.op (State.sendKept_moves _ _ _ _ _ _ _ _)); decide)
    | with_reducible apply Moves.each
    | with_reducible apply Moves.ite
    | with_reducible apply Moves.when
    | (extract_lets +onlyGivenNames u; (with_reducible apply Moves.let (u := u)); (intro h; clear_value u); rotate_left; subst u; rotate_right)
    | (extract_lets +onlyGivenNames v; subst v)
    | split)

theorem State.modNs_moves (a0) (a1) (s) : State.Moves [.names] s (State.modNs a0 a1 s) := by
  unfold State.modNs
  repeat' (first
    | with_reducible exact Moves.refl _ _
    | ((with_reducible apply Moves.op (State.modNames_moves _ _)); decide))

theorem State.writeRow_moves (a0) (a1) (a2) (a3) (a4) (a5) (a6) (s) : State.Moves [.names, .prot] s (State.writeRow a0 a1 a2 a3 a4 a5 a6 s) := by
  unfold State.writeRow
  repeat' (first
    | (with_reducible intro)
    | with_reducible exact Moves.refl _ _
    | with_reducible assumption
    | ((with_reducible apply Moves.op (State.modProt_moves _ _)); decide)
    | ((with_reducible apply Moves.op (State.modZone_moves _ _ _ _)); decide)
    | with_reducible apply Moves.ite
    | with_reducible apply Moves.each)

theorem State.launch_moves (a0) (a1) (a2) (s) : State.Moves [.names, .pair, .out] s (State.launch a0 a1 a2 s) := by
  unfold State.launch
  repeat' (first
    | (with_reducible intro)
    | with_reducible exact Moves.refl _ _
    | with_reducible assumption
    | ((with_reducible apply Moves.op (State.askPeer_moves _ _ _ _ _ _)); decide)
    | ((with_reducible apply Moves.op (State.modNames_moves _ _)); decide)
    | with_reducible apply Moves.ite
    | with_reducible apply Moves.when
    | (extract_lets +onlyGivenNames u; (with_reducible apply Moves.let (u := u)); (intro h; clear_value u); rotate_left; subst u; rotate_right)
    | (extract_lets +onlyGivenNames v; subst v)
    | split)

theorem State.launchBacking_moves (a0) (a1) (a2) (a3) (a4) (s) : State.Moves [.names, .pair, .out] s (State.launchBacking a0 a1 a2 a3 a4 s) := by
  unfold State.launchBacking
  repeat' (first
    | (with_reducible intro)
    | with_reducible exact Moves.refl _ _
    | with_reducible assumption
    | ((with_reducible apply Moves.op (State.launch_moves _ _ _ _)); decide)
    | ((with_reducible apply Moves.op (State.modNs_moves _ _ _)); decide)
    | with_reducible apply Moves.ite
    | with_reducible apply Moves.when
    | (extract_lets +onlyGivenNames u; (with_reducible apply Moves.let (u := u)); (intro h; clear_value u); rotate_left; subst u; rotate_right)
    | (extract_lets +onlyGivenNames v; subst v)
    | split)

theorem State.moveRow_moves (a0) (a1) (s) : State.Moves [.names, .pair, .out] s (State.moveRow a0 a1 s) := by
  unfold State.moveRow
  repeat' (first
    | (with_reducible intro)
    | with_reducible exact Moves.refl _ _
    | with_reducible assumption
    | ((with_reducible apply Moves.op (State.launchBacking_moves _ _ _ _ _ _)); decide)
    | with_reducible apply Moves.ite
    | with_reducible apply Moves.when
    | (extract_lets +onlyGivenNames u; (with_reducible apply Moves.let (u := u)); (intro h; clear_value u); rotate_left; subst u; rotate_right)
    | (extract_lets +onlyGivenNames v; subst v)
    | split)

theorem State.moveBlocks_moves (a0) (a1) (a2) (s) : State.Moves [.names, .prot, .mcache, .pair, .out] s (State.moveBlocks a0 a1 a2 s) := by
  induction a1 generalizing a2 s with
  | zero => exact Moves.refl _ _
  | succ n ih =>
    unfold State.moveBlocks
    repeat' (first
      | with_reducible exact Moves.refl _ _
      | ((with_reducible apply Moves.op (State.moveRow_moves _ _ _)); decide)
      | ((with_reducible apply Moves.op (ih _ _)); exact List.Subset.refl _)
      | with_reducible apply Moves.ite)

theorem State.raiseWp_moves (a0) (a1) (s) : State.Moves [.names] s (State.raiseWp a0 a1 s) := by
  unfold State.raiseWp
  repeat' (first
    | with_reducible exact Moves.refl _ _
    | ((with_reducible apply Moves.op (State.modZone_moves _ _ _ _)); decide)
    | with_reducible apply Moves.ite
    | split)

theorem State.restoreBlock_moves (a0) (a1) (s) : State.Moves [.names, .mem, .mcache, .free] s (State.restoreBlock a0 a1 s) := by
  unfold State.restoreBlock
  repeat' (first
    | with_reducible exact Moves.refl _ _
    | ((with_reducible apply Moves.op (State.modNames_moves _ _)); decide)
    | ((with_reducible apply Moves.op (State.pageIn_moves _ _ _)); decide)
    | with_reducible apply Moves.ite
    | (extract_lets +onlyGivenNames v; subst v)
    | split)

theorem State.writeDump_moves (s) : State.Moves [.prot] s (State.writeDump s) := by
  unfold State.writeDump
  repeat' (first
    | with_reducible exact Moves.refl _ _
    | ((with_reducible apply Moves.op (State.dumpRows_moves _ _ _ _)); decide))

theorem State.toRing_moves (a0) (s) : State.Moves [.acts] s (State.toRing a0 s) := by
  unfold State.toRing
  repeat' (first
    | (with_reducible intro)
    | with_reducible exact Moves.refl _ _
    | with_reducible assumption
    | ((with_reducible apply Moves.op (State.modAct_moves _ _ _)); decide)
    | with_reducible apply Moves.ite
    | with_reducible apply Moves.when
    | (extract_lets +onlyGivenNames u; (with_reducible apply Moves.let (u := u)); (intro h; clear_value u); rotate_left; subst u; rotate_right)
    | (extract_lets +onlyGivenNames v; subst v)
    | split)

theorem State.startDump_moves (s) : State.Moves [.aon, .nor, .book, .fa, .fb, .ctxs, .decisions, .names, .prot, .ports, .acts, .seqs, .chorus, .actCals, .mem, .mcache, .pair, .svc, .free, .out] s (State.startDump s) := by
  unfold State.startDump
  repeat' (first
    | (with_reducible intro)
    | with_reducible exact Moves.refl _ _
    | with_reducible assumption
    | ((with_reducible apply Moves.op (State.dropDump_moves _)); decide)
    | ((with_reducible apply Moves.op (State.endCommands_moves _)); decide)
    | ((with_reducible apply Moves.op (State.endWork_moves _ _)); decide)
    | ((with_reducible apply State.modBook_moves); exact fun _ => ⟨rfl, rfl⟩; decide)
    | ((with_reducible apply Moves.op (State.modCfg_moves _ _)); decide)
    | ((with_reducible apply State.modFn_moves); exact fun _ => ⟨rfl, rfl⟩; decide)
    | ((with_reducible apply Moves.op (State.modNames_moves _ _)); decide)
    | ((with_reducible apply Moves.op (State.modProt_moves _ _)); decide)
    | ((with_reducible apply Moves.op (State.noteDirty_moves _)); decide)
    | ((with_reducible apply Moves.op (State.toRing_moves _ _)); decide)
    | ((with_reducible apply Moves.op (State.writeDump_moves _)); decide)
    | with_reducible apply Moves.each
    | with_reducible apply Moves.ite
    | with_reducible apply Moves.when
    | (extract_lets +onlyGivenNames u; (with_reducible apply Moves.let (u := u)); (intro h; clear_value u); rotate_left; subst u; rotate_right)
    | (extract_lets +onlyGivenNames v; subst v)
    | split)

theorem State.tellLoss_moves (a0) (s) : State.Moves [.aon, .boot, .book] s (State.tellLoss a0 s) := by
  unfold State.tellLoss
  repeat' (first
    | with_reducible exact Moves.refl _ _
    | ((with_reducible apply Moves.op (State.emit_moves _ _ _ _ _)); decide)
    | ((with_reducible apply State.modBoot_moves); exact fun _ => ⟨rfl, rfl⟩; decide))

theorem State.wakeReads_moves (a0) (a1) (s) : State.Moves [.ctxs, .decisions, .pair, .svc, .out] s (State.wakeReads a0 a1 s) := by
  unfold State.wakeReads
  repeat' (first
    | (with_reducible intro)
    | with_reducible exact Moves.refl _ _
    | with_reducible assumption
    | ((with_reducible apply Moves.op (State.tryRead_moves _ _)); decide)
    | with_reducible apply Moves.each)

theorem State.zonePages_moves (a0) (a1) (s) : State.Moves [.names] s (State.zonePages a0 a1 s) := by
  unfold State.zonePages
  repeat' (first
    | with_reducible exact Moves.refl _ _
    | ((with_reducible apply Moves.op (State.modNames_moves _ _)); decide))

theorem execCalReconstruct_moves (a0) (s) : ∃ t, execCalReconstruct a0 s = .next t ∧ State.Moves [.now, .ctxs, .decisions, .pair, .svc, .out] s t := by
  unfold execCalReconstruct
  repeat' (first
    | (with_reducible refine ⟨_, rfl, ?_⟩)
    | (with_reducible intro)
    | with_reducible exact Moves.refl _ _
    | with_reducible assumption
    | ((with_reducible apply Moves.op (State.at__moves _ _)); decide)
    | ((with_reducible apply Moves.op (State.giveBlock_moves _ _ _ _)); decide)
    | with_reducible apply Moves.ite
    | with_reducible apply Moves.each
    | (extract_lets +onlyGivenNames v; subst v)
    | (split <;> beta_reduce))

theorem execCleaning_moves (s) : ∃ t, execCleaning s = .next t ∧ State.Moves [.aon, .nor, .book, .power, .fa, .fb, .ctxs, .decisions, .names, .prot, .ports, .spins, .acts, .seqs, .chorus, .actCals, .mem, .mcache, .pair, .svc, .free, .out] s t := by
  unfold execCleaning
  repeat' (first
    | (with_reducible intro)
    | (with_reducible refine ⟨_, rfl, ?_⟩)
    | with_reducible exact Moves.refl _ _
    | with_reducible assumption
    | ((with_reducible apply Moves.op (State.bufferChanged_moves _)); decide)
    | ((with_reducible apply Moves.op (State.freeRows_moves _)); decide)
    | ((with_reducible apply Moves.op (State.moveBlocks_moves _ _ _ _)); decide)
    | with_reducible apply Moves.each
    | with_reducible apply Moves.ite
    | with_reducible apply Moves.when
    | (extract_lets +onlyGivenNames u; (with_reducible apply Moves.let (u := u)); (intro h; clear_value u); rotate_left; subst u; rotate_right)
    | (extract_lets +onlyGivenNames v; subst v)
    | (split <;> beta_reduce))

theorem execDestageRow_moves (a0) (a1) (a2) (s) : ∃ t, execDestageRow a0 a1 a2 s = .next t ∧ State.Moves [.names, .pair, .out] s t := by
  unfold execDestageRow
  repeat' (first
    | (with_reducible intro)
    | (with_reducible refine ⟨_, rfl, ?_⟩)
    | with_reducible exact Moves.refl _ _
    | with_reducible assumption
    | ((with_reducible apply Moves.op (State.launch_moves _ _ _ _)); decide)
    | ((with_reducible apply Moves.op (State.launchBacking_moves _ _ _ _ _ _)); decide)
    | with_reducible apply Moves.ite
    | with_reducible apply Moves.when
    | (extract_lets +onlyGivenNames u; (with_reducible apply Moves.let (u := u)); (intro h; clear_value u); rotate_left; subst u; rotate_right)
    | (extract_lets +onlyGivenNames v; subst v)
    | (split <;> beta_reduce))

theorem execDumpEndMark_moves (a0) (s) : ∃ t, execDumpEndMark a0 s = .next t ∧ State.Moves [.nor, .names, .ports, .spins] s t := by
  unfold execDumpEndMark
  repeat' (first
    | (with_reducible refine ⟨_, rfl, ?_⟩)
    | (with_reducible intro)
    | with_reducible exact Moves.refl _ _
    | with_reducible assumption
    | ((with_reducible apply Moves.op (State.coast_moves _ _)); decide)
    | ((with_reducible apply Moves.op (State.modCfg_moves _ _)); decide)
    | ((with_reducible apply Moves.op (State.modNames_moves _ _)); decide)
    | with_reducible apply Moves.ite
    | with_reducible apply Moves.when
    | with_reducible apply Moves.each)

theorem execDumpRestore_moves (a0) (a1) (s) : ∃ t, execDumpRestore a0 a1 s = .next t ∧ State.Moves [.aon, .boot, .nor, .book, .power, .fa, .fb, .ctxs, .decisions, .names, .prot, .ports, .spins, .acts, .seqs, .chorus, .actCals, .mem, .mcache, .pair, .svc, .free, .out] s t := by
  unfold execDumpRestore
  repeat' (first
    | (with_reducible intro)
    | (with_reducible refine ⟨_, rfl, ?_⟩)
    | with_reducible exact Moves.refl _ _
    | with_reducible assumption
    | ((with_reducible apply Moves.op (State.bufferChanged_moves _)); decide)
    | ((with_reducible apply State.modBoot_moves); exact fun _ => ⟨rfl, rfl⟩; decide)
    | ((with_reducible apply Moves.op (State.modCfg_moves _ _)); decide)
    | ((with_reducible apply Moves.op (State.modNames_moves _ _)); decide)
    | ((with_reducible apply Moves.op (State.modProt_moves _ _)); decide)
    | ((with_reducible apply Moves.op (State.raiseWp_moves _ _ _)); decide)
    | ((with_reducible apply Moves.op (State.restoreBlock_moves _ _ _)); decide)
    | ((with_reducible apply Moves.op (State.settle_moves _)); decide)
    | ((with_reducible apply Moves.op (State.tellLoss_moves _ _)); decide)
    | with_reducible apply Moves.each
    | with_reducible apply Moves.ite
    | with_reducible apply Moves.when
    | (extract_lets +onlyGivenNames u; (with_reducible apply Moves.let (u := u)); (intro h; clear_value u); rotate_left; subst u; rotate_right)
    | (extract_lets +onlyGivenNames v; subst v)
    | (split <;> beta_reduce))

theorem execEffectiveLimitDrop_moves (s) : ∃ t, execEffectiveLimitDrop s = .next t ∧ State.Moves [.aon, .book] s t := by
  unfold execEffectiveLimitDrop
  repeat' (first
    | (with_reducible refine ⟨_, rfl, ?_⟩)
    | with_reducible exact Moves.refl _ _
    | ((with_reducible apply Moves.op (State.emit_moves _ _ _ _ _)); decide)
    | with_reducible apply Moves.ite)

theorem execMapJournalReplay_moves (s) : ∃ t, execMapJournalReplay s = .next t ∧ State.Moves [.aon, .boot, .book, .power, .names, .prot, .mem, .pair, .out] s t := by
  unfold execMapJournalReplay
  repeat' (first
    | (with_reducible refine ⟨_, rfl, ?_⟩)
    | with_reducible exact Moves.refl _ _
    | ((with_reducible apply State.modBoot_moves); exact fun _ => ⟨rfl, rfl⟩; decide)
    | ((with_reducible apply Moves.op (State.raiseMem_moves _ _ _)); decide)
    | ((with_reducible apply Moves.op (State.settle_moves _)); decide)
    | with_reducible apply Moves.ite)

theorem State.touchWaiting_moves (a0) (a1) (s) : State.Moves [.mem, .mcache, .free] s (State.touchWaiting a0 a1 s) := by
  unfold State.touchWaiting
  repeat' (first
    | (with_reducible intro)
    | with_reducible exact Moves.refl _ _
    | with_reducible assumption
    | ((with_reducible apply Moves.op (State.touchRead_moves _ _ _)); decide)
    | with_reducible apply Moves.each
    | with_reducible apply Moves.ite
    | with_reducible apply Moves.when
    | (extract_lets +onlyGivenNames u; (with_reducible apply Moves.let (u := u)); (intro h; clear_value u); rotate_left; subst u; rotate_right)
    | (extract_lets +onlyGivenNames v; subst v)
    | split)

theorem execMapPageRead_moves (a0) (a1) (s) : ∃ t, execMapPageRead a0 a1 s = .next t ∧ State.Moves [.ctxs, .decisions, .names, .mem, .mcache, .pair, .svc, .free, .out] s t := by
  unfold execMapPageRead
  repeat' (first
    | (with_reducible intro)
    | (with_reducible refine ⟨_, rfl, ?_⟩)
    | with_reducible exact Moves.refl _ _
    | with_reducible assumption
    | ((with_reducible apply Moves.op (State.complete_moves _ _ _)); decide)
    | ((with_reducible apply Moves.op (State.pageIn_moves _ _ _)); decide)
    | ((with_reducible apply Moves.op (State.touchWaiting_moves _ _ _)); decide)
    | ((with_reducible apply Moves.op (State.wakeReads_moves _ _ _)); decide)
    | with_reducible apply Moves.each
    | with_reducible apply Moves.ite
    | with_reducible apply Moves.when
    | (extract_lets +onlyGivenNames u; (with_reducible apply Moves.let (u := u)); (intro h; clear_value u); rotate_left; subst u; rotate_right)
    | (extract_lets +onlyGivenNames v; subst v)
    | (split <;> beta_reduce))

theorem State.onMedia_moves (a0) (a1) (a2) (s) : State.Moves [.names, .pair, .out] s (State.onMedia a0 a1 a2 s) := by
  unfold State.onMedia
  repeat' (first
    | (with_reducible intro)
    | with_reducible exact Moves.refl _ _
    | with_reducible assumption
    | ((with_reducible apply Moves.op (State.modNames_moves _ _)); decide)
    | ((with_reducible apply Moves.op (State.sendWings_moves _ _ _ _)); decide)
    | with_reducible apply Moves.each
    | with_reducible apply Moves.ite
    | with_reducible apply Moves.when
    | (extract_lets +onlyGivenNames u; (with_reducible apply Moves.let (u := u)); (intro h; clear_value u); rotate_left; subst u; rotate_right)
    | (extract_lets +onlyGivenNames v; subst v)
    | split)

theorem execMediaCacheRowWrite_moves (a0) (a1) (a2) (s) : ∃ t, execMediaCacheRowWrite a0 a1 a2 s = .next t ∧ State.Moves [.aon, .nor, .book, .power, .fa, .fb, .ctxs, .decisions, .names, .prot, .ports, .spins, .acts, .seqs, .chorus, .actCals, .mem, .mcache, .pair, .svc, .free, .out] s t := by
  unfold execMediaCacheRowWrite
  refine ⟨_, rfl, ?_⟩
  split
  · exact Moves.refl _ _
  · split
    · exact Moves.refl _ _
    · split
      · extract_lets lo rb l lost leaves stays
        split
        · exact Moves.refl _ _
        · split
          · rename_i t ht
            extract_lets u left
            have h := Moves.op (l := [.aon, .nor, .book, .power, .fa, .fb, .ctxs, .decisions, .names, .prot, .ports, .spins, .acts, .seqs, .chorus, .actCals, .mem, .mcache, .pair, .svc, .free, .out]) (State.putMcRow_moves ht) (by decide) (Moves.refl _ _)
            refine Moves.op (State.bufferChanged_moves _) (by decide) (Moves.when (fun w hw => Moves.op (State.modNames_moves _ _) (by decide) hw)
              (Moves.op (State.onMedia_moves _ _ _ _) (by decide) h))
          · exact Moves.refl _ _
      · extract_lets l
        split
        · exact Moves.refl _ _
        · split
          · rename_i t ht
            extract_lets u
            have h := Moves.op (l := [.aon, .nor, .book, .power, .fa, .fb, .ctxs, .decisions, .names, .prot, .ports, .spins, .acts, .seqs, .chorus, .actCals, .mem, .mcache, .pair, .svc, .free, .out]) (State.putMcRow_moves ht) (by decide) (Moves.refl _ _)
            have hu : s.Moves [.aon, .nor, .book, .power, .fa, .fb, .ctxs, .decisions, .names, .prot, .ports, .spins, .acts, .seqs, .chorus, .actCals, .mem, .mcache, .pair, .svc, .free, .out] u := Moves.each (fun q v hv => Moves.op (State.setMap_moves _ _ _ _) (by decide) hv) h
            exact Moves.op (State.bufferChanged_moves _) (by decide) (Moves.op (State.onMedia_moves _ _ _ _) (by decide) hu)
          · exact Moves.refl _ _

theorem execPowerFailDump_moves (a0) (s) : ∃ t, execPowerFailDump a0 s = .next t ∧ State.Moves [.pins, .aon, .nor, .book, .fa, .fb, .ctxs, .decisions, .names, .prot, .ports, .acts, .seqs, .chorus, .actCals, .mem, .mcache, .pair, .svc, .free, .out] s t := by
  unfold execPowerFailDump
  repeat' (first
    | (with_reducible refine ⟨_, rfl, ?_⟩)
    | with_reducible exact Moves.refl _ _
    | ((with_reducible apply Moves.op (State.modPins_moves _ _)); decide)
    | ((with_reducible apply Moves.op (State.startDump_moves _)); decide)
    | ((with_reducible apply Moves.op (State.takeFree_moves _)); decide)
    | with_reducible apply Moves.ite)

theorem execReclamation_moves (a0) (s) : ∃ t, execReclamation a0 s = .next t ∧ State.Moves [.aon, .nor, .book, .power, .fa, .fb, .ctxs, .decisions, .names, .prot, .ports, .spins, .acts, .seqs, .chorus, .actCals, .mem, .mcache, .pair, .svc, .free, .out] s t := by
  unfold execReclamation
  repeat' (first
    | (with_reducible refine ⟨_, rfl, ?_⟩)
    | with_reducible exact Moves.refl _ _
    | ((with_reducible apply Moves.op (State.bufferChanged_moves _)); decide)
    | ((with_reducible apply Moves.op (State.moveBlocks_moves _ _ _ _)); decide)
    | ((with_reducible apply Moves.op (State.resetZone_moves _ _ _)); decide)
    | ((with_reducible apply Moves.op (State.zonePages_moves _ _ _)); decide)
    | with_reducible apply Moves.ite
    | (split <;> beta_reduce))

theorem execReconstructRead_moves (a0) (a1) (s) : ∃ t, execReconstructRead a0 a1 s = .next t ∧ State.Moves [.ctxs, .decisions, .chorus, .pair, .svc, .out] s t := by
  unfold execReconstructRead
  repeat' (first
    | (with_reducible refine ⟨_, rfl, ?_⟩)
    | with_reducible exact Moves.refl _ _
    | with_reducible assumption
    | ((with_reducible apply Moves.op (State.complete_moves _ _ _)); decide)
    | ((with_reducible apply Moves.op (State.giveBlock_moves _ _ _ _)); decide)
    | ((with_reducible apply Moves.op (State.modChorus_moves _ _)); decide)
    | with_reducible apply Moves.ite
    | (extract_lets +onlyGivenNames u; (with_reducible apply Moves.let (u := u)); (intro h; clear_value u); rotate_left; subst u; rotate_right)
    | (extract_lets +onlyGivenNames v; subst v)
    | (split <;> beta_reduce))

theorem State.moveDone_moves (a0) (a1) (s) : State.Moves [.names, .prot, .mem, .mcache, .pair, .free, .out] s (State.moveDone a0 a1 s) := by
  unfold State.moveDone
  repeat' (first
    | (with_reducible intro)
    | with_reducible exact Moves.refl _ _
    | with_reducible assumption
    | ((with_reducible apply Moves.op (State.freeRows_moves _)); decide)
    | ((with_reducible apply Moves.op (State.setMap_moves _ _ _ _)); decide)
    | with_reducible apply Moves.each
    | with_reducible apply Moves.ite
    | with_reducible apply Moves.when
    | (extract_lets +onlyGivenNames u; (with_reducible apply Moves.let (u := u)); (intro h; clear_value u); rotate_left; subst u; rotate_right)
    | (extract_lets +onlyGivenNames v; subst v)
    | split)

theorem execRowWriteDone_moves (a0) (a1) (a2) (s) : ∃ t, execRowWriteDone a0 a1 a2 s = .next t ∧ State.Moves [.aon, .nor, .book, .power, .fa, .fb, .ctxs, .decisions, .names, .prot, .ports, .spins, .acts, .seqs, .chorus, .actCals, .mem, .mcache, .pair, .svc, .free, .out] s t := by
  unfold execRowWriteDone
  repeat' (first
    | (with_reducible intro)
    | (with_reducible refine ⟨_, rfl, ?_⟩)
    | with_reducible exact Moves.refl _ _
    | with_reducible assumption
    | ((with_reducible apply Moves.op (State.bufferChanged_moves _)); decide)
    | ((with_reducible apply Moves.op (State.mapRowDone_moves _ _ _)); decide)
    | ((with_reducible apply Moves.op (State.modNames_moves _ _)); decide)
    | ((with_reducible apply Moves.op (State.modProt_moves _ _)); decide)
    | ((with_reducible apply Moves.op (State.moveDone_moves _ _ _)); decide)
    | ((with_reducible apply Moves.op (State.sendWings_moves _ _ _ _)); decide)
    | ((with_reducible apply Moves.op (State.writeRow_moves _ _ _ _ _ _ _ _)); decide)
    | with_reducible apply Moves.ite
    | with_reducible apply Moves.when
    | (extract_lets +onlyGivenNames u; (with_reducible apply Moves.let (u := u)); (intro h; clear_value u); rotate_left; subst u; rotate_right)
    | (extract_lets +onlyGivenNames v; subst v)
    | (split <;> beta_reduce))

theorem execWritePointerRecovery_moves (a0) (a1) (s) : ∃ t, execWritePointerRecovery a0 a1 s = .next t ∧ State.Moves [.aon, .power, .names, .prot, .pair, .out] s t := by
  unfold execWritePointerRecovery
  repeat' (first
    | (with_reducible intro)
    | (with_reducible refine ⟨_, rfl, ?_⟩)
    | with_reducible exact Moves.refl _ _
    | with_reducible assumption
    | ((with_reducible apply Moves.op (State.modNames_moves _ _)); decide)
    | ((with_reducible apply Moves.op (State.modZone_moves _ _ _ _)); decide)
    | ((with_reducible apply Moves.op (State.settle_moves _)); decide)
    | with_reducible apply Moves.ite
    | with_reducible apply Moves.when
    | (extract_lets +onlyGivenNames u; (with_reducible apply Moves.let (u := u)); (intro h; clear_value u); rotate_left; subst u; rotate_right)
    | (extract_lets +onlyGivenNames v; subst v)
    | (split <;> beta_reduce))

end Sys2Proof.Machine
end

