-- ==== Sys2Proof/Laws/Io.lean ====
section
/-! SUPPORT. What each operation and each command of Machine/Io.lean can do to the state. -/

namespace Sys2Proof.Machine

theorem State.acceptWrite_moves (a0) (a1) (a2) (s) : State.Moves [.ctxs] s (State.acceptWrite a0 a1 a2 s) := by
  unfold State.acceptWrite
  repeat' (first
    | with_reducible exact Moves.refl _ _
    | ((with_reducible apply State.modCtx_moves); exact fun _ _ => rfl; decide))

theorem State.finishZone_moves (a0) (a1) (s) : State.Moves [.names] s (State.finishZone a0 a1 s) := by
  unfold State.finishZone
  repeat' (first
    | (with_reducible intro)
    | with_reducible exact Moves.refl _ _
    | with_reducible assumption
    | ((with_reducible apply Moves.op (State.modNames_moves _ _)); decide)
    | ((with_reducible apply Moves.op (State.modZone_moves _ _ _ _)); decide)
    | with_reducible apply Moves.ite
    | with_reducible apply Moves.when
    | (extract_lets +onlyGivenNames u; (with_reducible apply Moves.let (u := u)); (intro h; clear_value u); rotate_left; subst u; rotate_right)
    | (extract_lets +onlyGivenNames v; subst v)
    | split)

theorem State.placeWrite_moves (a0) (a1) (a2) (s) : State.Moves [.names, .pair, .out] s (State.placeWrite a0 a1 a2 s) := by
  unfold State.placeWrite
  repeat' (first
    | with_reducible exact Moves.refl _ _
    | ((with_reducible apply Moves.op (State.modZone_moves _ _ _ _)); decide)
    | ((with_reducible apply Moves.op (State.setZone_moves _ _ _ _)); decide)
    | with_reducible apply Moves.ite)

theorem execApplyPoint_moves (a0) (a1) (s) : ∃ t, execApplyPoint a0 a1 s = .next t ∧ State.Moves [.aon, .nor, .book, .ctxs, .decisions, .names, .prot, .mem, .mcache, .pair, .svc, .free, .out] s t := by
  unfold execApplyPoint
  repeat' (first
    | (with_reducible refine ⟨_, rfl, ?_⟩)
    | with_reducible exact Moves.refl _ _
    | with_reducible assumption
    | ((with_reducible apply State.modCtx_moves); exact fun _ _ => rfl; decide)
    | ((with_reducible apply Moves.op (State.modPair_moves _ _)); decide)
    | ((with_reducible apply Moves.op (State.sendWings_moves _ _ _ _)); decide)
    | ((with_reducible apply Moves.op (State.settleOrder_moves _)); decide)
    | with_reducible apply Moves.ite
    | (extract_lets +onlyGivenNames u; (with_reducible apply Moves.let (u := u)); (intro h; clear_value u); rotate_left; subst u; rotate_right)
    | (split <;> beta_reduce))

theorem execDatasetManagement_moves (a0) (s) : ∃ t, execDatasetManagement a0 s = .next t ∧ State.Moves [.aon, .nor, .book, .ctxs, .decisions, .names, .prot, .mem, .mcache, .pair, .svc, .free, .out] s t := by
  unfold execDatasetManagement
  repeat' (first
    | (with_reducible intro)
    | (with_reducible refine ⟨_, rfl, ?_⟩)
    | with_reducible exact Moves.refl _ _
    | with_reducible assumption
    | ((with_reducible apply Moves.op (State.complete_moves _ _ _)); decide)
    | ((with_reducible apply State.modCtx_moves); exact fun _ _ => rfl; decide)
    | (unfold State.orElse; beta_reduce)
    | (unfold State.run; beta_reduce)
    | (unfold State.runIo; beta_reduce)
    | ((with_reducible apply Moves.op (State.settleEnded_moves _ _ _)); decide)
    | ((with_reducible apply Moves.op (State.settleOrder_moves _)); decide)
    | with_reducible apply Moves.each
    | with_reducible apply Moves.ite
    | with_reducible apply Moves.when
    | (extract_lets +onlyGivenNames u; (with_reducible apply Moves.let (u := u)); (intro h; clear_value u); rotate_left; subst u; rotate_right)
    | (extract_lets +onlyGivenNames v; subst v)
    | (split <;> beta_reduce))

theorem execExtendedReportZones_moves (a0) (s) : ∃ t, execExtendedReportZones a0 s = .next t ∧ State.Moves [.ctxs, .decisions, .pair, .svc, .out] s t := by
  unfold execExtendedReportZones
  repeat' (first
    | (with_reducible refine ⟨_, rfl, ?_⟩)
    | with_reducible exact Moves.refl _ _
    | ((with_reducible apply Moves.op (State.complete_moves _ _ _)); decide)
    | (unfold State.orElse; beta_reduce)
    | (unfold State.run; beta_reduce)
    | (unfold State.zoneReceive; beta_reduce)
    | with_reducible apply Moves.ite
    | (split <;> beta_reduce))

theorem execFlush_moves (a0) (s) : ∃ t, execFlush a0 s = .next t ∧ State.Moves [.ctxs, .decisions, .names, .pair, .svc, .out] s t := by
  unfold execFlush
  repeat' (first
    | (with_reducible refine ⟨_, rfl, ?_⟩)
    | with_reducible exact Moves.refl _ _
    | ((with_reducible apply Moves.op (State.await_moves _ _ _)); decide)
    | ((with_reducible apply Moves.op (State.complete_moves _ _ _)); decide)
    | (unfold State.orElse; beta_reduce)
    | (unfold State.run; beta_reduce)
    | ((with_reducible apply Moves.op (State.settleWaits_moves _)); decide)
    | with_reducible apply Moves.ite
    | (extract_lets +onlyGivenNames v; subst v)
    | (split <;> beta_reduce))

theorem execRead_moves (a0) (s) : ∃ t, execRead a0 s = .next t ∧ State.Moves [.aon, .nor, .book, .ctxs, .decisions, .names, .prot, .mem, .mcache, .pair, .svc, .free, .out] s t := by
  unfold execRead
  repeat' (first
    | (with_reducible intro)
    | (with_reducible refine ⟨_, rfl, ?_⟩)
    | with_reducible exact Moves.refl _ _
    | with_reducible assumption
    | ((with_reducible apply Moves.op (State.complete_moves _ _ _)); decide)
    | (unfold State.orElse; beta_reduce)
    | (unfold State.run; beta_reduce)
    | (unfold State.runIo; beta_reduce)
    | ((with_reducible apply Moves.op (State.settleEnded_moves _ _ _)); decide)
    | ((with_reducible apply Moves.op (State.touchRead_moves _ _ _)); decide)
    | ((with_reducible apply Moves.op (State.tryRead_moves _ _)); decide)
    | with_reducible apply Moves.each
    | with_reducible apply Moves.ite
    | with_reducible apply Moves.when
    | (extract_lets +onlyGivenNames u; (with_reducible apply Moves.let (u := u)); (intro h; clear_value u); rotate_left; subst u; rotate_right)
    | (extract_lets +onlyGivenNames v; subst v)
    | (split <;> beta_reduce))

theorem execReportZones_moves (a0) (s) : ∃ t, execReportZones a0 s = .next t ∧ State.Moves [.ctxs, .decisions, .pair, .svc, .out] s t := by
  unfold execReportZones
  repeat' (first
    | (with_reducible refine ⟨_, rfl, ?_⟩)
    | with_reducible exact Moves.refl _ _
    | ((with_reducible apply Moves.op (State.complete_moves _ _ _)); decide)
    | (unfold State.orElse; beta_reduce)
    | (unfold State.run; beta_reduce)
    | (unfold State.zoneReceive; beta_reduce)
    | with_reducible apply Moves.ite
    | (extract_lets +onlyGivenNames v; subst v)
    | (split <;> beta_reduce))

theorem execSetZoneDescriptorExtension_moves (a0) (s) : ∃ t, execSetZoneDescriptorExtension a0 s = .next t ∧ State.Moves [.aon, .nor, .book, .ctxs, .decisions, .names, .prot, .mem, .mcache, .pair, .svc, .free, .out] s t := by
  unfold execSetZoneDescriptorExtension
  repeat' (first
    | (with_reducible intro)
    | (with_reducible refine ⟨_, rfl, ?_⟩)
    | with_reducible exact Moves.refl _ _
    | with_reducible assumption
    | ((with_reducible apply Moves.op (State.complete_moves _ _ _)); decide)
    | (unfold State.orElse; beta_reduce)
    | (unfold State.run; beta_reduce)
    | ((with_reducible apply Moves.op (State.settleEnded_moves _ _ _)); decide)
    | (unfold State.zoneSend; beta_reduce)
    | with_reducible apply Moves.each
    | with_reducible apply Moves.ite
    | with_reducible apply Moves.when
    | (extract_lets +onlyGivenNames u; (with_reducible apply Moves.let (u := u)); (intro h; clear_value u); rotate_left; subst u; rotate_right)
    | (extract_lets +onlyGivenNames v; subst v)
    | (split <;> beta_reduce))

theorem execWrite_moves (a0) (s) : ∃ t, execWrite a0 s = .next t ∧ State.Moves [.aon, .nor, .book, .ctxs, .decisions, .names, .prot, .mem, .mcache, .pair, .svc, .free, .out] s t := by
  unfold execWrite
  repeat' (first
    | (with_reducible intro)
    | (with_reducible refine ⟨_, rfl, ?_⟩)
    | with_reducible exact Moves.refl _ _
    | with_reducible assumption
    | ((with_reducible apply Moves.op (State.acceptWrite_moves _ _ _ _)); decide)
    | ((with_reducible apply Moves.op (State.complete_moves _ _ _)); decide)
    | (unfold State.orElse; beta_reduce)
    | ((with_reducible apply Moves.op (State.placeWrite_moves _ _ _ _)); decide)
    | (unfold State.run; beta_reduce)
    | (unfold State.runIo; beta_reduce)
    | ((with_reducible apply Moves.op (State.settleEnded_moves _ _ _)); decide)
    | with_reducible apply Moves.each
    | with_reducible apply Moves.ite
    | with_reducible apply Moves.when
    | (extract_lets +onlyGivenNames u; (with_reducible apply Moves.let (u := u)); (intro h; clear_value u); rotate_left; subst u; rotate_right)
    | (extract_lets +onlyGivenNames v; subst v)
    | (split <;> beta_reduce))

theorem execWriteZeroes_moves (a0) (s) : ∃ t, execWriteZeroes a0 s = .next t ∧ State.Moves [.aon, .nor, .book, .ctxs, .decisions, .names, .prot, .mem, .mcache, .pair, .svc, .free, .out] s t := by
  unfold execWriteZeroes
  repeat' (first
    | (with_reducible intro)
    | (with_reducible refine ⟨_, rfl, ?_⟩)
    | with_reducible exact Moves.refl _ _
    | with_reducible assumption
    | ((with_reducible apply Moves.op (State.complete_moves _ _ _)); decide)
    | ((with_reducible apply State.modCtx_moves); exact fun _ _ => rfl; decide)
    | (unfold State.orElse; beta_reduce)
    | ((with_reducible apply Moves.op (State.placeWrite_moves _ _ _ _)); decide)
    | (unfold State.run; beta_reduce)
    | (unfold State.runIo; beta_reduce)
    | ((with_reducible apply Moves.op (State.settleEnded_moves _ _ _)); decide)
    | ((with_reducible apply Moves.op (State.settleOrder_moves _)); decide)
    | with_reducible apply Moves.each
    | with_reducible apply Moves.ite
    | with_reducible apply Moves.when
    | (extract_lets +onlyGivenNames u; (with_reducible apply Moves.let (u := u)); (intro h; clear_value u); rotate_left; subst u; rotate_right)
    | (extract_lets +onlyGivenNames v; subst v)
    | (split <;> beta_reduce))

theorem execZoneAppend_moves (a0) (s) : ∃ t, execZoneAppend a0 s = .next t ∧ State.Moves [.aon, .nor, .book, .ctxs, .decisions, .names, .prot, .mem, .mcache, .pair, .svc, .free, .out] s t := by
  unfold execZoneAppend
  repeat' (first
    | (with_reducible intro)
    | (with_reducible refine ⟨_, rfl, ?_⟩)
    | with_reducible exact Moves.refl _ _
    | with_reducible assumption
    | ((with_reducible apply Moves.op (State.acceptWrite_moves _ _ _ _)); decide)
    | ((with_reducible apply Moves.op (State.complete_moves _ _ _)); decide)
    | (unfold State.orElse; beta_reduce)
    | ((with_reducible apply Moves.op (State.placeWrite_moves _ _ _ _)); decide)
    | (unfold State.run; beta_reduce)
    | (unfold State.runIo; beta_reduce)
    | ((with_reducible apply Moves.op (State.settleEnded_moves _ _ _)); decide)
    | ((with_reducible apply Moves.op (State.settleOrder_moves _)); decide)
    | with_reducible apply Moves.each
    | with_reducible apply Moves.ite
    | with_reducible apply Moves.when
    | (extract_lets +onlyGivenNames u; (with_reducible apply Moves.let (u := u)); (intro h; clear_value u); rotate_left; subst u; rotate_right)
    | (extract_lets +onlyGivenNames v; subst v)
    | (split <;> beta_reduce))

theorem execZoneClose_moves (a0) (s) : ∃ t, execZoneClose a0 s = .next t ∧ State.Moves [.aon, .nor, .book, .ctxs, .decisions, .names, .prot, .mem, .mcache, .pair, .svc, .free, .out] s t := by
  unfold execZoneClose
  repeat' (first
    | (with_reducible intro)
    | (with_reducible refine ⟨_, rfl, ?_⟩)
    | with_reducible exact Moves.refl _ _
    | with_reducible assumption
    | ((with_reducible apply Moves.op (State.complete_moves _ _ _)); decide)
    | (unfold State.orElse; beta_reduce)
    | (unfold State.run; beta_reduce)
    | ((with_reducible apply Moves.op (State.setZone_moves _ _ _ _)); decide)
    | ((with_reducible apply Moves.op (State.settleEnded_moves _ _ _)); decide)
    | (unfold State.zoneSend; beta_reduce)
    | with_reducible apply Moves.each
    | with_reducible apply Moves.ite
    | with_reducible apply Moves.when
    | (extract_lets +onlyGivenNames u; (with_reducible apply Moves.let (u := u)); (intro h; clear_value u); rotate_left; subst u; rotate_right)
    | (extract_lets +onlyGivenNames v; subst v)
    | (split <;> beta_reduce))

theorem execZoneFinish_moves (a0) (s) : ∃ t, execZoneFinish a0 s = .next t ∧ State.Moves [.aon, .nor, .book, .ctxs, .decisions, .names, .prot, .mem, .mcache, .pair, .svc, .free, .out] s t := by
  unfold execZoneFinish
  repeat' (first
    | (with_reducible intro)
    | (with_reducible refine ⟨_, rfl, ?_⟩)
    | with_reducible exact Moves.refl _ _
    | with_reducible assumption
    | ((with_reducible apply Moves.op (State.await_moves _ _ _)); decide)
    | ((with_reducible apply Moves.op (State.complete_moves _ _ _)); decide)
    | ((with_reducible apply Moves.op (State.finishZone_moves _ _ _)); decide)
    | (unfold State.orElse; beta_reduce)
    | (unfold State.run; beta_reduce)
    | ((with_reducible apply Moves.op (State.settleEnded_moves _ _ _)); decide)
    | ((with_reducible apply Moves.op (State.settleWaits_moves _)); decide)
    | (unfold State.zoneSend; beta_reduce)
    | with_reducible apply Moves.each
    | with_reducible apply Moves.ite
    | with_reducible apply Moves.when
    | (extract_lets +onlyGivenNames u; (with_reducible apply Moves.let (u := u)); (intro h; clear_value u); rotate_left; subst u; rotate_right)
    | (extract_lets +onlyGivenNames v; subst v)
    | (split <;> beta_reduce))

theorem execZoneOffline_moves (a0) (s) : ∃ t, execZoneOffline a0 s = .next t ∧ State.Moves [.aon, .nor, .book, .ctxs, .decisions, .names, .prot, .mem, .mcache, .pair, .svc, .free, .out] s t := by
  unfold execZoneOffline
  repeat' (first
    | (with_reducible intro)
    | (with_reducible refine ⟨_, rfl, ?_⟩)
    | with_reducible exact Moves.refl _ _
    | with_reducible assumption
    | ((with_reducible apply Moves.op (State.complete_moves _ _ _)); decide)
    | (unfold State.orElse; beta_reduce)
    | (unfold State.run; beta_reduce)
    | ((with_reducible apply Moves.op (State.settleEnded_moves _ _ _)); decide)
    | (unfold State.zoneSend; beta_reduce)
    | with_reducible apply Moves.each
    | with_reducible apply Moves.ite
    | with_reducible apply Moves.when
    | (extract_lets +onlyGivenNames u; (with_reducible apply Moves.let (u := u)); (intro h; clear_value u); rotate_left; subst u; rotate_right)
    | (extract_lets +onlyGivenNames v; subst v)
    | (split <;> beta_reduce))

theorem execZoneOpen_moves (a0) (s) : ∃ t, execZoneOpen a0 s = .next t ∧ State.Moves [.aon, .nor, .book, .ctxs, .decisions, .names, .prot, .mem, .mcache, .pair, .svc, .free, .out] s t := by
  unfold execZoneOpen
  repeat' (first
    | (with_reducible intro)
    | (with_reducible refine ⟨_, rfl, ?_⟩)
    | with_reducible exact Moves.refl _ _
    | with_reducible assumption
    | ((with_reducible apply Moves.op (State.complete_moves _ _ _)); decide)
    | (unfold State.orElse; beta_reduce)
    | (unfold State.run; beta_reduce)
    | ((with_reducible apply Moves.op (State.setZone_moves _ _ _ _)); decide)
    | ((with_reducible apply Moves.op (State.settleEnded_moves _ _ _)); decide)
    | (unfold State.zoneSend; beta_reduce)
    | with_reducible apply Moves.each
    | with_reducible apply Moves.ite
    | with_reducible apply Moves.when
    | (extract_lets +onlyGivenNames u; (with_reducible apply Moves.let (u := u)); (intro h; clear_value u); rotate_left; subst u; rotate_right)
    | (extract_lets +onlyGivenNames v; subst v)
    | (split <;> beta_reduce))

theorem execZoneReset_moves (a0) (s) : ∃ t, execZoneReset a0 s = .next t ∧ State.Moves [.aon, .nor, .book, .ctxs, .decisions, .names, .prot, .mem, .mcache, .pair, .svc, .free, .out] s t := by
  unfold execZoneReset
  repeat' (first
    | (with_reducible intro)
    | (with_reducible refine ⟨_, rfl, ?_⟩)
    | with_reducible exact Moves.refl _ _
    | with_reducible assumption
    | ((with_reducible apply Moves.op (State.complete_moves _ _ _)); decide)
    | ((with_reducible apply State.modCtx_moves); exact fun _ _ => rfl; decide)
    | (unfold State.orElse; beta_reduce)
    | (unfold State.run; beta_reduce)
    | ((with_reducible apply Moves.op (State.settleEnded_moves _ _ _)); decide)
    | ((with_reducible apply Moves.op (State.settleOrder_moves _)); decide)
    | (unfold State.zoneSend; beta_reduce)
    | with_reducible apply Moves.each
    | with_reducible apply Moves.ite
    | with_reducible apply Moves.when
    | (extract_lets +onlyGivenNames u; (with_reducible apply Moves.let (u := u)); (intro h; clear_value u); rotate_left; subst u; rotate_right)
    | (extract_lets +onlyGivenNames v; subst v)
    | (split <;> beta_reduce))

end Sys2Proof.Machine
end

