-- ==== Sys2Proof/Laws/HostIf.lean ====
section
/-! SUPPORT. What each operation and each command of Machine/HostIf.lean can do to the state. -/

namespace Sys2Proof.Machine

theorem State.addCtx_moves (a0) (a1) (a2) (a3) (s) : State.Moves [.ctxs, .nextCtx] s (State.addCtx a0 a1 a2 a3 s) := by
  refine Moves.base (Moves.refl _ s) ?_ rfl rfl fun i => ⟨i.filled, i.complete, i.ready, i.bufs, i.served, i.therms, i.holds, i.ring, ?_⟩
  · intro x hx; cases x <;> first | exact absurd (by decide) hx | rfl
  · constructor
    · show ((s.ctxs ++ [Ctx.fresh s.nextCtx s.now a0 a1 a2 a3]).map Ctx.id).Nodup
      rw [List.map_append, List.nodup_append]
      refine ⟨i.ctxs.1, by simp, ?_⟩
      intro x hx y hy e
      obtain ⟨c, hc, rfl⟩ := List.mem_map.mp hx
      have := i.ctxs.2 c hc
      simp [Ctx.fresh] at hy
      omega
    · show ∀ x ∈ s.ctxs ++ [Ctx.fresh s.nextCtx s.now a0 a1 a2 a3], x.id < s.nextCtx + 1
      intro x hx
      rcases List.mem_append.mp hx with h | h
      · have := i.ctxs.2 x h; omega
      · simp at h; subst h; simp [Ctx.fresh]

theorem State.addError_moves (a0) (a1) (a2) (s) : State.Moves [.aon, .book, .fa, .fb] s (State.addError a0 a1 a2 s) := by
  unfold State.addError
  repeat' (first
    | with_reducible exact Moves.refl _ _
    | ((with_reducible apply Moves.op (State.emit_moves _ _ _ _ _)); decide)
    | ((with_reducible apply State.modFn_moves); exact fun _ => ⟨rfl, rfl⟩; decide))

theorem State.hostBehavior_moves (a0) (s) : State.Moves [.fa, .fb, .ctxs, .decisions, .pair, .svc, .out] s (State.hostBehavior a0 s) := by
  unfold State.hostBehavior
  repeat' (first
    | (with_reducible intro)
    | with_reducible exact Moves.refl _ _
    | with_reducible assumption
    | ((with_reducible apply Moves.op (State.complete_moves _ _ _)); decide)
    | ((with_reducible apply State.modFn_moves); exact fun _ => ⟨rfl, rfl⟩; decide)
    | (unfold State.orElse; beta_reduce)
    | with_reducible apply Moves.each
    | with_reducible apply Moves.ite
    | with_reducible apply Moves.when
    | (extract_lets +onlyGivenNames u; (with_reducible apply Moves.let (u := u)); (intro h; clear_value u); rotate_left; subst u; rotate_right)
    | (extract_lets +onlyGivenNames v; subst v)
    | split)

theorem State.admitCmd_moves (a0) (s) : State.Moves [.fa, .fb, .ctxs, .admission, .decisions, .pair, .svc, .out] s (State.admitCmd a0 s) := by
  unfold State.admitCmd
  extract_lets r fua y host t gone t2 t3 
  have h : s.Moves [.fa, .fb, .ctxs, .admission, .decisions, .pair, .svc, .out] t := by
    subst t
    generalize host = o
    cases o with
    | some f =>
      apply Moves.when
      · intro u hu
        exact State.modFn_moves (fun _ => ⟨rfl, rfl⟩) (by decide) hu
      · exact Moves.refl _ _
    | none => exact Moves.refl _ _
  have h2 : s.Moves [.fa, .fb, .ctxs, .admission, .decisions, .pair, .svc, .out] t2 := by
    subst t2
    exact State.modCtx_moves (fun _ e => e.symm) (by decide) h
  have h3 : s.Moves [.fa, .fb, .ctxs, .admission, .decisions, .pair, .svc, .out] t3 := by
    subst t3
    refine Moves.base h2 ?_ rfl rfl fun h => ⟨h.filled, h.complete, h.ready, h.bufs, h.served, h.therms, h.holds, h.ring, h.ctxs⟩
    intro x hx; cases x <;> first | exact absurd (by decide) hx | rfl
  split
  · refine Moves.op (State.forwardCmd_moves _ _) (by decide) ?_
    exact State.modCtx_moves (fun _ e => e.symm) (by decide) h
  · split
    · exact Moves.op (State.complete_moves _ _ _) (by decide) h3
    · unfold State.orElse
      split
      · exact Moves.op (State.complete_moves _ _ _) (by decide) h3
      · exact Moves.op (State.hostBehavior_moves _ _) (by decide) h3

theorem State.deliverEvents_moves (a0) (a1) (s) : State.Moves [.fa, .fb, .ctxs, .decisions, .pair, .svc, .out] s (State.deliverEvents a0 a1 s) := by
  induction a1 generalizing s with
  | zero => exact Moves.refl _ _
  | succ n ih =>
    unfold State.deliverEvents
    repeat' (first
      | with_reducible exact Moves.refl _ _
      | ((with_reducible apply Moves.op (State.complete_moves _ _ _)); decide)
      | ((with_reducible apply State.modFn_moves); exact fun _ => ⟨rfl, rfl⟩; decide)
      | ((with_reducible apply Moves.op (ih _)); exact List.Subset.refl _)
      | (extract_lets +onlyGivenNames v; subst v)
      | split)

theorem State.asyncEvent_moves (a0) (a1) (a2) (a3) (s) : State.Moves [.fa, .fb, .ctxs, .decisions, .pair, .svc, .out] s (State.asyncEvent a0 a1 a2 a3 s) := by
  unfold State.asyncEvent
  repeat' (first
    | with_reducible exact Moves.refl _ _
    | ((with_reducible apply Moves.op (State.deliverEvents_moves _ _ _)); decide)
    | ((with_reducible apply State.modFn_moves); exact fun _ => ⟨rfl, rfl⟩; decide))

theorem State.badRegister_moves (a0) (s) : State.Moves [.fa, .fb, .ctxs, .decisions, .pair, .svc, .out] s (State.badRegister a0 s) := by
  unfold State.badRegister
  repeat' (first
    | with_reducible exact Moves.refl _ _
    | ((with_reducible apply Moves.op (State.asyncEvent_moves _ _ _ _ _)); decide))

theorem State.badValue_moves (a0) (s) : State.Moves [.fa, .fb, .ctxs, .decisions, .pair, .svc, .out] s (State.badValue a0 s) := by
  unfold State.badValue
  repeat' (first
    | with_reducible exact Moves.refl _ _
    | ((with_reducible apply Moves.op (State.asyncEvent_moves _ _ _ _ _)); decide))

theorem State.setAna_moves (a0) (a1) (a2) (s) : State.Moves [.fa, .fb, .ctxs, .decisions, .pair, .svc, .out] s (State.setAna a0 a1 a2 s) := by
  unfold State.setAna
  repeat' (first
    | (with_reducible intro)
    | with_reducible exact Moves.refl _ _
    | with_reducible assumption
    | ((with_reducible apply Moves.op (State.asyncEvent_moves _ _ _ _ _)); decide)
    | ((with_reducible apply State.modFn_moves); exact fun _ => ⟨rfl, rfl⟩; decide)
    | with_reducible apply Moves.ite
    | with_reducible apply Moves.when)

theorem State.beginShutdown_moves (a0) (a1) (s) : State.Moves [.aon, .nor, .book, .power, .fa, .fb, .ctxs, .decisions, .names, .prot, .ports, .spins, .acts, .seqs, .chorus, .actCals, .mem, .mcache, .xing, .pair, .svc, .free, .out] s (State.beginShutdown a0 a1 s) := by
  unfold State.beginShutdown
  repeat' (first
    | (with_reducible intro)
    | with_reducible exact Moves.refl _ _
    | with_reducible assumption
    | ((with_reducible apply Moves.op (State.lostWord_moves _ _)); decide)
    | ((with_reducible apply State.modFn_moves); exact fun _ => ⟨rfl, rfl⟩; decide)
    | ((with_reducible apply Moves.op (State.noteClean_moves _)); decide)
    | with_reducible apply Moves.ite
    | with_reducible apply Moves.when
    | (extract_lets +onlyGivenNames u; (with_reducible apply Moves.let (u := u)); (intro h; clear_value u); rotate_left; subst u; rotate_right)
    | (extract_lets +onlyGivenNames v; subst v)
    | split)

theorem State.modVec_moves (a0) (a1) (a2) (s) : State.Moves [.fa, .fb] s (State.modVec a0 a1 a2 s) := by
  unfold State.modVec
  repeat' (first
    | with_reducible exact Moves.refl _ _
    | ((with_reducible apply State.modFn_moves); exact fun _ => ⟨rfl, rfl⟩; decide))

theorem State.sendMsix_moves (a0) (a1) (s) : State.Moves [.fa, .fb, .out] s (State.sendMsix a0 a1 s) := by
  unfold State.sendMsix
  repeat' (first
    | with_reducible exact Moves.refl _ _
    | ((with_reducible apply Moves.op (State.emitOut_moves _ _)); decide)
    | ((with_reducible apply Moves.op (State.modVec_moves _ _ _ _)); decide))

theorem State.raiseVec_moves (a0) (a1) (s) : State.Moves [.fa, .fb, .out] s (State.raiseVec a0 a1 s) := by
  unfold State.raiseVec
  repeat' (first
    | (with_reducible intro)
    | with_reducible exact Moves.refl _ _
    | with_reducible assumption
    | ((with_reducible apply Moves.op (State.emitOut_moves _ _)); decide)
    | ((with_reducible apply State.modFn_moves); exact fun _ => ⟨rfl, rfl⟩; decide)
    | ((with_reducible apply Moves.op (State.modVec_moves _ _ _ _)); decide)
    | ((with_reducible apply Moves.op (State.sendMsix_moves _ _ _)); decide)
    | with_reducible apply Moves.ite
    | with_reducible apply Moves.when)

theorem State.countEntry_moves (a0) (a1) (s) : State.Moves [.fa, .fb, .out] s (State.countEntry a0 a1 s) := by
  unfold State.countEntry
  repeat' (first
    | (with_reducible intro)
    | with_reducible exact Moves.refl _ _
    | with_reducible assumption
    | ((with_reducible apply Moves.op (State.modVec_moves _ _ _ _)); decide)
    | ((with_reducible apply Moves.op (State.raiseVec_moves _ _ _)); decide)
    | with_reducible apply Moves.ite
    | with_reducible apply Moves.when)

theorem State.modSq_moves (a0) (a1) (a2) (s) : State.Moves [.fa, .fb] s (State.modSq a0 a1 a2 s) := by
  unfold State.modSq
  repeat' (first
    | with_reducible exact Moves.refl _ _
    | ((with_reducible apply State.modFn_moves); exact fun _ => ⟨rfl, rfl⟩; decide))

theorem State.freezeQueue_moves (a0) (a1) (a2) (s) : State.Moves [.fa, .fb, .ctxs, .decisions, .pair, .svc, .out] s (State.freezeQueue a0 a1 a2 s) := by
  unfold State.freezeQueue
  repeat' (first
    | (with_reducible intro)
    | with_reducible exact Moves.refl _ _
    | with_reducible assumption
    | ((with_reducible apply Moves.op (State.asyncEvent_moves _ _ _ _ _)); decide)
    | ((with_reducible apply Moves.op (State.modSq_moves _ _ _ _)); decide)
    | with_reducible apply Moves.ite
    | with_reducible apply Moves.when
    | (extract_lets +onlyGivenNames u; (with_reducible apply Moves.let (u := u)); (intro h; clear_value u); rotate_left; subst u; rotate_right)
    | split)

theorem State.logRead_moves (a0) (a1) (s) : State.Moves [.fa, .fb, .ctxs, .decisions, .pair, .svc, .out] s (State.logRead a0 a1 s) := by
  unfold State.logRead
  repeat' (first
    | with_reducible exact Moves.refl _ _
    | ((with_reducible apply Moves.op (State.deliverEvents_moves _ _ _)); decide)
    | ((with_reducible apply State.modFn_moves); exact fun _ => ⟨rfl, rfl⟩; decide))

theorem State.holdEntry_moves (a0) (a1) (s) : State.Moves [.fa, .fb, .ctxs, .out] s (State.holdEntry a0 a1 s) := by
  unfold State.holdEntry
  repeat' (first
    | with_reducible exact Moves.refl _ _
    | with_reducible assumption
    | ((with_reducible apply Moves.op (State.countEntry_moves _ _ _)); decide)
    | ((with_reducible apply State.modCtx_moves); exact fun _ _ => rfl; decide)
    | (extract_lets +onlyGivenNames u; (with_reducible apply Moves.let (u := u)); (intro h; clear_value u); rotate_left; subst u; rotate_right)
    | split)

theorem Ctx.sublist_ids (l : List Ctx) (t : Ctx → Bool) (f : Ctx → Ctx) (hf : ∀ x, (f x).id = x.id) :
    (((l.filter t).map f).map Ctx.id).Sublist (l.map Ctx.id) := by
  have : ((l.filter t).map f).map Ctx.id = (l.filter t).map Ctx.id := by
    rw [List.map_map]; exact List.map_congr_left fun x _ => hf x
  rw [this]; exact List.Sublist.map _ List.filter_sublist

theorem State.hostReset_moves (a0) (a1) (s) : State.Moves [.aon, .nor, .book, .power, .fa, .fb, .ctxs, .decisions, .names, .prot, .ports, .spins, .acts, .seqs, .chorus, .actCals, .mem, .mcache, .xing, .pair, .svc, .free, .out] s (State.hostReset a0 a1 s) := by
  unfold State.hostReset
  extract_lets mine dels orphan rest t revive t2 stopped freeze t3 who t4
  have h : s.Moves [.aon, .nor, .book, .power, .fa, .fb, .ctxs, .decisions, .names, .prot, .ports, .spins, .acts, .seqs, .chorus, .actCals, .mem, .mcache, .xing, .pair, .svc, .free, .out] t := by
    subst t
    have hf : ∀ x : Ctx, (orphan x).id = x.id := by intro x; simp only [orphan]; split <;> rfl
    refine Moves.base (Moves.refl _ s) ?_ rfl rfl fun i => ⟨i.filled, i.complete, i.ready, i.bufs, i.served, i.therms, i.holds, i.ring,
      List.Nodup.sublist (Ctx.sublist_ids _ _ _ hf) i.ctxs.1, fun x hx => ?_⟩
    · intro x hx; cases x <;> first | exact absurd (by decide) hx | rfl
    · obtain ⟨y, hy, rfl⟩ := List.mem_map.mp hx
      rw [hf]; exact i.ctxs.2 y (List.mem_filter.mp hy).1
  have h2 : s.Moves [.aon, .nor, .book, .power, .fa, .fb, .ctxs, .decisions, .names, .prot, .ports, .spins, .acts, .seqs, .chorus, .actCals, .mem, .mcache, .xing, .pair, .svc, .free, .out] t2 := Moves.op (State.modNames_moves _ _) (by decide) h
  have h3 : s.Moves [.aon, .nor, .book, .power, .fa, .fb, .ctxs, .decisions, .names, .prot, .ports, .spins, .acts, .seqs, .chorus, .actCals, .mem, .mcache, .xing, .pair, .svc, .free, .out] t3 := State.modFn_reset (fun _ => ⟨rfl, rfl⟩) (by decide) h2
  have h4 : s.Moves [.aon, .nor, .book, .power, .fa, .fb, .ctxs, .decisions, .names, .prot, .ports, .spins, .acts, .seqs, .chorus, .actCals, .mem, .mcache, .xing, .pair, .svc, .free, .out] t4 := Moves.op (State.modXing_moves _ _) (by decide) h3
  exact Moves.op (State.noteClean_moves _) (by decide) (Moves.op (State.settleOrder_moves _) (by decide) h4)

theorem State.modCq_moves (a0) (a1) (a2) (s) : State.Moves [.fa, .fb] s (State.modCq a0 a1 a2 s) := by
  unfold State.modCq
  repeat' (first
    | with_reducible exact Moves.refl _ _
    | ((with_reducible apply State.modFn_moves); exact fun _ => ⟨rfl, rfl⟩; decide))

theorem State.settleDeletions_moves (s) : State.Moves [.fa, .fb, .ctxs, .decisions, .pair, .svc, .out] s (State.settleDeletions s) := by
  unfold State.settleDeletions
  repeat' (first
    | (with_reducible intro)
    | with_reducible exact Moves.refl _ _
    | with_reducible assumption
    | ((with_reducible apply Moves.op (State.complete_moves _ _ _)); decide)
    | ((with_reducible apply State.modFn_moves); exact fun _ => ⟨rfl, rfl⟩; decide)
    | with_reducible apply Moves.ite
    | with_reducible apply Moves.each
    | split)

theorem State.postEntry_moves (a0) (a1) (s) : State.Moves [.aon, .nor, .book, .power, .fa, .fb, .ctxs, .decisions, .names, .prot, .ports, .spins, .acts, .seqs, .chorus, .actCals, .mem, .mcache, .pair, .svc, .free, .out] s (State.postEntry a0 a1 s) := by
  unfold State.postEntry
  repeat' (first
    | (with_reducible intro)
    | with_reducible exact Moves.refl _ _
    | with_reducible assumption
    | ((with_reducible apply Moves.op (State.addError_moves _ _ _ _)); decide)
    | ((with_reducible apply Moves.op (State.countEntry_moves _ _ _)); decide)
    | ((with_reducible apply Moves.op (State.dropCtx_moves _ _)); decide)
    | ((with_reducible apply Moves.op (State.emitOut_moves _ _)); decide)
    | ((with_reducible apply Moves.op (State.freezeQueue_moves _ _ _ _)); decide)
    | ((with_reducible apply Moves.op (State.modCq_moves _ _ _ _)); decide)
    | ((with_reducible apply Moves.op (State.noteClean_moves _)); decide)
    | ((with_reducible apply Moves.op (State.settleDeletions_moves _)); decide)
    | ((with_reducible apply Moves.op (State.wake_moves _)); decide)
    | with_reducible apply Moves.ite
    | with_reducible apply Moves.when
    | (extract_lets +onlyGivenNames u; (with_reducible apply Moves.let (u := u)); (intro h; clear_value u); rotate_left; subst u; rotate_right)
    | (extract_lets +onlyGivenNames v; subst v)
    | split)

theorem State.quietVec_moves (a0) (a1) (s) : State.Moves [.fa, .fb] s (State.quietVec a0 a1 s) := by
  unfold State.quietVec
  repeat' (first
    | with_reducible exact Moves.refl _ _
    | ((with_reducible apply Moves.op (State.modVec_moves _ _ _ _)); decide)
    | with_reducible apply Moves.ite)

theorem State.readShadowHead_moves (a0) (a1) (a2) (s) : State.Moves [.fa, .fb, .ctxs, .decisions, .pair, .svc, .out] s (State.readShadowHead a0 a1 a2 s) := by
  unfold State.readShadowHead
  repeat' (first
    | with_reducible exact Moves.refl _ _
    | ((with_reducible apply Moves.op (State.badValue_moves _ _)); decide)
    | ((with_reducible apply Moves.op (State.modCq_moves _ _ _ _)); decide)
    | ((with_reducible apply Moves.op (State.quietVec_moves _ _ _)); decide)
    | with_reducible apply Moves.ite
    | split)

theorem State.readShadowTail_moves (a0) (a1) (a2) (s) : State.Moves [.fa, .fb, .ctxs, .decisions, .pair, .svc, .out] s (State.readShadowTail a0 a1 a2 s) := by
  unfold State.readShadowTail
  repeat' (first
    | with_reducible exact Moves.refl _ _
    | ((with_reducible apply Moves.op (State.badValue_moves _ _)); decide)
    | ((with_reducible apply Moves.op (State.modSq_moves _ _ _ _)); decide)
    | with_reducible apply Moves.ite
    | split)

theorem State.releaseVec_moves (a0) (a1) (s) : State.Moves [.fa, .fb, .out] s (State.releaseVec a0 a1 s) := by
  unfold State.releaseVec
  repeat' (first
    | with_reducible exact Moves.refl _ _
    | ((with_reducible apply Moves.op (State.modVec_moves _ _ _ _)); decide)
    | ((with_reducible apply Moves.op (State.sendMsix_moves _ _ _)); decide)
    | with_reducible apply Moves.ite)

theorem State.writePmcsr_moves (a0) (a1) (a2) (a3) (s) : State.Moves [.fa, .fb] s (State.writePmcsr a0 a1 a2 a3 s) := by
  unfold State.writePmcsr
  repeat' (first
    | with_reducible exact Moves.refl _ _
    | ((with_reducible apply State.modFn_moves); exact fun _ => ⟨rfl, rfl⟩; decide))

theorem execAbruptShutdown_moves (a0) (s) : ∃ t, execAbruptShutdown a0 s = .next t ∧ State.Moves [.aon, .nor, .book, .power, .fa, .fb, .ctxs, .decisions, .names, .prot, .ports, .spins, .acts, .seqs, .chorus, .actCals, .mem, .mcache, .xing, .pair, .svc, .free, .out] s t := by
  unfold execAbruptShutdown
  repeat' (first
    | (with_reducible refine ⟨_, rfl, ?_⟩)
    | with_reducible exact Moves.refl _ _
    | ((with_reducible apply Moves.op (State.beginShutdown_moves _ _ _)); decide))

theorem execAdmission_moves (s) : ∃ t, execAdmission s = .next t ∧ State.Moves [.fa, .fb, .ctxs, .admission, .decisions, .mem, .pair, .svc, .out] s t := by
  unfold execAdmission
  repeat' (first
    | (with_reducible intro)
    | (with_reducible refine ⟨_, rfl, ?_⟩)
    | with_reducible exact Moves.refl _ _
    | with_reducible assumption
    | ((with_reducible apply Moves.op (State.admitCmd_moves _ _)); decide)
    | ((with_reducible apply Moves.op (State.wake_moves _)); decide)
    | with_reducible apply Moves.ite
    | with_reducible apply Moves.when
    | (extract_lets +onlyGivenNames u; (with_reducible apply Moves.let (u := u)); (intro h; clear_value u); rotate_left; subst u; rotate_right)
    | (extract_lets +onlyGivenNames v; subst v)
    | (split <;> beta_reduce))

theorem execAnaChange_moves (a0) (a1) (a2) (s) : ∃ t, execAnaChange a0 a1 a2 s = .next t ∧ State.Moves [.fa, .fb, .ctxs, .decisions, .pair, .svc, .out] s t := by
  unfold execAnaChange
  repeat' (first
    | (with_reducible intro)
    | (with_reducible refine ⟨_, rfl, ?_⟩)
    | with_reducible exact Moves.refl _ _
    | with_reducible assumption
    | ((with_reducible apply Moves.op (State.setAna_moves _ _ _ _)); decide)
    | with_reducible apply Moves.ite
    | with_reducible apply Moves.when
    | (extract_lets +onlyGivenNames u; (with_reducible apply Moves.let (u := u)); (intro h; clear_value u); rotate_left; subst u; rotate_right)
    | (extract_lets +onlyGivenNames v; subst v)
    | (split <;> beta_reduce))

theorem execCcEnClear_moves (a0) (s) : ∃ t, execCcEnClear a0 s = .next t ∧ State.Moves [.aon, .nor, .book, .power, .fa, .fb, .ctxs, .decisions, .names, .prot, .ports, .spins, .acts, .seqs, .chorus, .actCals, .mem, .mcache, .xing, .pair, .svc, .free, .out] s t := by
  unfold execCcEnClear
  repeat' (first
    | (with_reducible intro)
    | (with_reducible refine ⟨_, rfl, ?_⟩)
    | with_reducible exact Moves.refl _ _
    | with_reducible assumption
    | ((with_reducible apply Moves.op (State.hostReset_moves _ _ _)); decide)
    | ((with_reducible apply Moves.op (State.lostWord_moves _ _)); decide)
    | with_reducible apply Moves.ite
    | with_reducible apply Moves.when
    | (extract_lets +onlyGivenNames u; (with_reducible apply Moves.let (u := u)); (intro h; clear_value u); rotate_left; subst u; rotate_right)
    | (extract_lets +onlyGivenNames v; subst v)
    | (split <;> beta_reduce))

theorem execCcEnSet_moves (a0) (a1) (a2) (s) : ∃ t, execCcEnSet a0 a1 a2 s = .next t ∧ State.Moves [.fa, .fb, .xing] s t := by
  unfold execCcEnSet
  refine ⟨_, rfl, ?_⟩
  extract_lets x cc
  repeat' with_reducible apply Moves.ite
  · exact Moves.op (State.lostWord_moves _ _) (by decide) (Moves.refl _ _)
  · exact State.modFn_moves (fun _ => ⟨rfl, rfl⟩) (by decide) (Moves.refl _ _)
  · exact State.modFn_moves (fun _ => ⟨rfl, rfl⟩) (by decide) (Moves.refl _ _)
  · refine State.modFn_at (fun _ r => ?_) (fun i => ?_) (by decide) (Moves.refl _ _)
    · simp only [Bool.and_eq_true] at r; exact r.1
    · cases a0
      · exact i.bufs.2.2.1
      · exact i.bufs.2.2.2

theorem execCoalescingTimer_moves (a0) (a1) (s) : ∃ t, execCoalescingTimer a0 a1 s = .next t ∧ State.Moves [.now, .fa, .fb, .out] s t := by
  unfold execCoalescingTimer
  repeat' (first
    | (with_reducible refine ⟨_, rfl, ?_⟩)
    | with_reducible exact Moves.refl _ _
    | ((with_reducible apply Moves.op (State.at__moves _ _)); decide)
    | ((with_reducible apply Moves.op (State.modVec_moves _ _ _ _)); decide)
    | ((with_reducible apply Moves.op (State.raiseVec_moves _ _ _)); decide)
    | with_reducible apply Moves.ite
    | (split <;> beta_reduce))

theorem execCompletionPost_moves (a0) (a1) (s) : ∃ t, execCompletionPost a0 a1 s = .next t ∧ State.Moves [.aon, .nor, .book, .power, .fa, .fb, .ctxs, .decisions, .names, .prot, .ports, .spins, .acts, .seqs, .chorus, .actCals, .mem, .mcache, .pair, .svc, .free, .out] s t := by
  unfold execCompletionPost
  repeat' (first
    | (with_reducible refine ⟨_, rfl, ?_⟩)
    | with_reducible exact Moves.refl _ _
    | with_reducible assumption
    | ((with_reducible apply Moves.op (State.holdEntry_moves _ _ _)); decide)
    | ((with_reducible apply State.modCtx_moves); exact fun _ _ => rfl; decide)
    | ((with_reducible apply Moves.op (State.postEntry_moves _ _ _)); decide)
    | ((with_reducible apply Moves.op (State.readShadowHead_moves _ _ _ _)); decide)
    | with_reducible apply Moves.ite
    | (extract_lets +onlyGivenNames u; (with_reducible apply Moves.let (u := u)); (intro h; clear_value u); rotate_left; subst u; rotate_right)
    | (split <;> beta_reduce))

theorem execConfigRequestReady_moves (a0) (s) : ∃ t, execConfigRequestReady a0 s = .next t ∧ State.Moves [.fa, .fb, .out] s t := by
  unfold execConfigRequestReady
  repeat' (first
    | (with_reducible refine ⟨_, rfl, ?_⟩)
    | with_reducible exact Moves.refl _ _
    | ((with_reducible apply Moves.op (State.emitOut_moves _ _)); decide)
    | ((with_reducible apply State.modFn_moves); exact fun _ => ⟨rfl, rfl⟩; decide)
    | with_reducible apply Moves.ite)

theorem execCqHeadDoorbell_moves (a0) (a1) (a2) (a3) (s) : ∃ t, execCqHeadDoorbell a0 a1 a2 a3 s = .next t ∧ State.Moves [.fa, .fb, .ctxs, .decisions, .xing, .pair, .svc, .out] s t := by
  unfold execCqHeadDoorbell
  repeat' (first
    | (with_reducible intro)
    | (with_reducible refine ⟨_, rfl, ?_⟩)
    | with_reducible exact Moves.refl _ _
    | with_reducible assumption
    | ((with_reducible apply Moves.op (State.badRegister_moves _ _)); decide)
    | ((with_reducible apply Moves.op (State.badValue_moves _ _)); decide)
    | ((with_reducible apply Moves.op (State.lostWord_moves _ _)); decide)
    | ((with_reducible apply Moves.op (State.modCq_moves _ _ _ _)); decide)
    | ((with_reducible apply Moves.op (State.quietVec_moves _ _ _)); decide)
    | ((with_reducible apply Moves.op (State.readShadowHead_moves _ _ _ _)); decide)
    | with_reducible apply Moves.ite
    | with_reducible apply Moves.when
    | (extract_lets +onlyGivenNames u; (with_reducible apply Moves.let (u := u)); (intro h; clear_value u); rotate_left; subst u; rotate_right)
    | (extract_lets +onlyGivenNames v; subst v)
    | (split <;> beta_reduce))

theorem execDataTransferError_moves (a0) (s) : ∃ t, execDataTransferError a0 s = .next t ∧ State.Moves [.aon, .nor, .book, .power, .fa, .fb, .ctxs, .decisions, .names, .prot, .ports, .spins, .acts, .seqs, .chorus, .actCals, .mem, .mcache, .pair, .svc, .free, .out] s t := by
  unfold execDataTransferError
  repeat' (first
    | (with_reducible refine ⟨_, rfl, ?_⟩)
    | with_reducible exact Moves.refl _ _
    | ((with_reducible apply Moves.op (State.complete_moves _ _ _)); decide)
    | ((with_reducible apply Moves.op (State.noteClean_moves _)); decide)
    | ((with_reducible apply Moves.op (State.settleOrder_moves _)); decide)
    | with_reducible apply Moves.ite
    | (split <;> beta_reduce))

theorem execFetchTurn_moves (a0) (a1) (a2) (s) : ∃ t, execFetchTurn a0 a1 a2 s = .next t ∧ State.Moves [.fa, .fb, .ctxs, .nextCtx, .decisions, .lastShared, .pair, .svc, .out] s t := by
  unfold execFetchTurn
  refine ⟨_, rfl, ?_⟩
  split
  · exact Moves.refl _ _
  · split
    · exact State.modFn_moves (fun _ => ⟨rfl, rfl⟩) (by decide) (Moves.refl _ _)
    · rename_i q x hx
      split
      · exact Moves.refl _ _
      · rename_i y hy
        extract_lets want own extra k t0 parts t1 t2 t3 t4
        have p := HostFn.pick_kept hx
        have h0 : s.Moves [.fa, .fb, .ctxs, .nextCtx, .decisions, .lastShared, .pair, .svc, .out] t0 := by
          refine State.modFn_at (fun i r => ?_) (fun i => ?_) (by decide) (Moves.refl _ _)
          · have r' : (s.fn a0).rdy = true := p.1 ▸ r
            cases a0
            · exact i.ready.1 r'
            · exact i.ready.2 r'
          · show bufWf x.download = true
            rw [p.2]
            cases a0
            · exact i.bufs.2.2.1
            · exact i.bufs.2.2.2
        have h1 : s.Moves [.fa, .fb, .ctxs, .nextCtx, .decisions, .lastShared, .pair, .svc, .out] t1 := Moves.each (fun e u hu => Moves.op (State.addCtx_moves _ _ _ _ _) (by decide) hu) h0
        have h2 : s.Moves [.fa, .fb, .ctxs, .nextCtx, .decisions, .lastShared, .pair, .svc, .out] t2 := by
          clear_value t1
          subst t2
          split
          · exact h1
          · refine Moves.base h1 ?_ rfl rfl fun h => ⟨h.filled, h.complete, h.ready, h.bufs, h.served, h.therms, h.holds, h.ring, h.ctxs⟩
            intro x hx; cases x <;> first | exact absurd (by decide) hx | rfl
        have h3 : s.Moves [.fa, .fb, .ctxs, .nextCtx, .decisions, .lastShared, .pair, .svc, .out] t3 :=
          Moves.each (fun r u hu => Moves.op (State.emitOut_moves _ _) (by decide) hu) h2
        have h4 : s.Moves [.fa, .fb, .ctxs, .nextCtx, .decisions, .lastShared, .pair, .svc, .out] t4 :=
          Moves.op (State.modSq_moves _ _ _ _) (by decide) h3
        exact Moves.when (fun u hu => Moves.op (State.readShadowTail_moves _ _ _ _) (by decide) hu) h4

theorem execFunctionLevelReset_moves (a0) (s) : ∃ t, execFunctionLevelReset a0 s = .next t ∧ State.Moves [.aon, .nor, .book, .power, .fa, .fb, .ctxs, .decisions, .names, .prot, .ports, .spins, .acts, .seqs, .chorus, .actCals, .mem, .mcache, .xing, .pair, .svc, .free, .out] s t := by
  unfold execFunctionLevelReset
  repeat' (first
    | (with_reducible intro)
    | (with_reducible refine ⟨_, rfl, ?_⟩)
    | with_reducible exact Moves.refl _ _
    | with_reducible assumption
    | (unfold State.configRequest; beta_reduce)
    | ((with_reducible apply Moves.op (State.emitOut_moves _ _)); decide)
    | ((with_reducible apply Moves.op (State.hostReset_moves _ _ _)); decide)
    | with_reducible apply Moves.each
    | with_reducible apply Moves.ite
    | with_reducible apply Moves.when
    | (extract_lets +onlyGivenNames u; (with_reducible apply Moves.let (u := u)); (intro h; clear_value u); rotate_left; subst u; rotate_right)
    | (extract_lets +onlyGivenNames v; subst v)
    | (split <;> beta_reduce))

theorem execInvalidDoorbellRegister_moves (a0) (a1) (s) : ∃ t, execInvalidDoorbellRegister a0 a1 s = .next t ∧ State.Moves [.fa, .fb, .ctxs, .decisions, .xing, .pair, .svc, .out] s t := by
  unfold execInvalidDoorbellRegister
  repeat' (first
    | (with_reducible intro)
    | (with_reducible refine ⟨_, rfl, ?_⟩)
    | with_reducible exact Moves.refl _ _
    | with_reducible assumption
    | ((with_reducible apply Moves.op (State.badRegister_moves _ _)); decide)
    | ((with_reducible apply Moves.op (State.lostWord_moves _ _)); decide)
    | with_reducible apply Moves.ite
    | with_reducible apply Moves.when
    | (extract_lets +onlyGivenNames u; (with_reducible apply Moves.let (u := u)); (intro h; clear_value u); rotate_left; subst u; rotate_right)
    | (extract_lets +onlyGivenNames v; subst v)
    | (split <;> beta_reduce))

theorem execMsixUnmask_moves (a0) (a1) (s) : ∃ t, execMsixUnmask a0 a1 s = .next t ∧ State.Moves [.fa, .fb, .xing, .out] s t := by
  unfold execMsixUnmask
  repeat' (first
    | (with_reducible intro)
    | (with_reducible refine ⟨_, rfl, ?_⟩)
    | with_reducible exact Moves.refl _ _
    | with_reducible assumption
    | (unfold State.configRequest; beta_reduce)
    | ((with_reducible apply Moves.op (State.emitOut_moves _ _)); decide)
    | ((with_reducible apply Moves.op (State.lostWord_moves _ _)); decide)
    | ((with_reducible apply State.modFn_moves); exact fun _ => ⟨rfl, rfl⟩; decide)
    | ((with_reducible apply Moves.op (State.modVec_moves _ _ _ _)); decide)
    | ((with_reducible apply Moves.op (State.releaseVec_moves _ _ _)); decide)
    | with_reducible apply Moves.each
    | with_reducible apply Moves.ite
    | with_reducible apply Moves.when
    | (extract_lets +onlyGivenNames u; (with_reducible apply Moves.let (u := u)); (intro h; clear_value u); rotate_left; subst u; rotate_right)
    | (extract_lets +onlyGivenNames v; subst v)
    | (split <;> beta_reduce))

theorem execNormalShutdown_moves (a0) (s) : ∃ t, execNormalShutdown a0 s = .next t ∧ State.Moves [.aon, .nor, .book, .power, .fa, .fb, .ctxs, .decisions, .names, .prot, .ports, .spins, .acts, .seqs, .chorus, .actCals, .mem, .mcache, .xing, .pair, .svc, .free, .out] s t := by
  unfold execNormalShutdown
  repeat' (first
    | (with_reducible refine ⟨_, rfl, ?_⟩)
    | with_reducible exact Moves.refl _ _
    | ((with_reducible apply Moves.op (State.beginShutdown_moves _ _ _)); decide))

theorem execPerstAssert_moves (a0) (a1) (s) : ∃ t, execPerstAssert a0 a1 s = .next t ∧ State.Moves [.pins, .aon, .nor, .book, .power, .fa, .fb, .ctxs, .decisions, .names, .prot, .ports, .spins, .acts, .seqs, .chorus, .actCals, .mem, .mcache, .xing, .pair, .svc, .free, .out] s t := by
  unfold execPerstAssert
  repeat' (first
    | (with_reducible refine ⟨_, rfl, ?_⟩)
    | (with_reducible intro)
    | with_reducible exact Moves.refl _ _
    | with_reducible assumption
    | ((with_reducible apply Moves.op (State.hostReset_moves _ _ _)); decide)
    | ((with_reducible apply State.modAon_moves); exact fun _ => ⟨rfl, rfl⟩; decide)
    | ((with_reducible apply State.modFn_moves); exact fun _ => ⟨rfl, rfl⟩; decide)
    | ((with_reducible apply Moves.op (State.modPins_moves _ _)); decide)
    | ((with_reducible apply Moves.op (State.takeFree_moves _)); decide)
    | with_reducible apply Moves.ite
    | with_reducible apply Moves.when)

theorem execPerstDeassert_moves (a0) (s) : ∃ t, execPerstDeassert a0 s = .next t ∧ State.Moves [.pins, .aon, .fa, .fb] s t := by
  unfold execPerstDeassert
  repeat' (first
    | (with_reducible refine ⟨_, rfl, ?_⟩)
    | with_reducible exact Moves.refl _ _
    | ((with_reducible apply State.modAon_moves); exact fun _ => ⟨rfl, rfl⟩; decide)
    | ((with_reducible apply State.modFn_moves); exact fun _ => ⟨rfl, rfl⟩; decide)
    | ((with_reducible apply Moves.op (State.modPins_moves _ _)); decide)
    | with_reducible apply Moves.ite)

theorem execPmcsrD0_moves (a0) (a1) (a2) (s) : ∃ t, execPmcsrD0 a0 a1 a2 s = .next t ∧ State.Moves [.aon, .nor, .book, .power, .fa, .fb, .ctxs, .decisions, .names, .prot, .ports, .spins, .acts, .seqs, .chorus, .actCals, .mem, .mcache, .pair, .svc, .free, .out] s t := by
  unfold execPmcsrD0
  repeat' (first
    | (with_reducible intro)
    | (with_reducible refine ⟨_, rfl, ?_⟩)
    | with_reducible exact Moves.refl _ _
    | with_reducible assumption
    | ((with_reducible apply Moves.op (State.complete_moves _ _ _)); decide)
    | (unfold State.configRequest; beta_reduce)
    | ((with_reducible apply Moves.op (State.drain_moves _)); decide)
    | ((with_reducible apply Moves.op (State.emitOut_moves _ _)); decide)
    | ((with_reducible apply Moves.op (State.postEntry_moves _ _ _)); decide)
    | ((with_reducible apply Moves.op (State.releaseVec_moves _ _ _)); decide)
    | ((with_reducible apply Moves.op (State.writePmcsr_moves _ _ _ _ _)); decide)
    | with_reducible apply Moves.each
    | with_reducible apply Moves.ite
    | with_reducible apply Moves.when
    | (extract_lets +onlyGivenNames u; (with_reducible apply Moves.let (u := u)); (intro h; clear_value u); rotate_left; subst u; rotate_right)
    | (extract_lets +onlyGivenNames v; subst v)
    | (split <;> beta_reduce))

theorem execPmcsrD3hot_moves (a0) (a1) (a2) (s) : ∃ t, execPmcsrD3hot a0 a1 a2 s = .next t ∧ State.Moves [.fa, .fb, .out] s t := by
  unfold execPmcsrD3hot
  repeat' (first
    | (with_reducible intro)
    | (with_reducible refine ⟨_, rfl, ?_⟩)
    | with_reducible exact Moves.refl _ _
    | with_reducible assumption
    | (unfold State.configRequest; beta_reduce)
    | ((with_reducible apply Moves.op (State.emitOut_moves _ _)); decide)
    | ((with_reducible apply Moves.op (State.writePmcsr_moves _ _ _ _ _)); decide)
    | with_reducible apply Moves.each
    | with_reducible apply Moves.ite
    | with_reducible apply Moves.when
    | (extract_lets +onlyGivenNames u; (with_reducible apply Moves.let (u := u)); (intro h; clear_value u); rotate_left; subst u; rotate_right)
    | (extract_lets +onlyGivenNames v; subst v)
    | (split <;> beta_reduce))

theorem execSqTailDoorbell_moves (a0) (a1) (a2) (a3) (s) : ∃ t, execSqTailDoorbell a0 a1 a2 a3 s = .next t ∧ State.Moves [.fa, .fb, .ctxs, .decisions, .xing, .pair, .svc, .out] s t := by
  unfold execSqTailDoorbell
  repeat' (first
    | (with_reducible intro)
    | (with_reducible refine ⟨_, rfl, ?_⟩)
    | with_reducible exact Moves.refl _ _
    | with_reducible assumption
    | ((with_reducible apply Moves.op (State.badRegister_moves _ _)); decide)
    | ((with_reducible apply Moves.op (State.badValue_moves _ _)); decide)
    | ((with_reducible apply Moves.op (State.lostWord_moves _ _)); decide)
    | ((with_reducible apply Moves.op (State.modSq_moves _ _ _ _)); decide)
    | ((with_reducible apply Moves.op (State.readShadowTail_moves _ _ _ _)); decide)
    | with_reducible apply Moves.ite
    | with_reducible apply Moves.when
    | (extract_lets +onlyGivenNames u; (with_reducible apply Moves.let (u := u)); (intro h; clear_value u); rotate_left; subst u; rotate_right)
    | (extract_lets +onlyGivenNames v; subst v)
    | (split <;> beta_reduce))

end Sys2Proof.Machine
end

