-- ==== Sys2Proof/Laws/Rebuild.lean ====
section
/-! SUPPORT. What each operation and each command of Machine/Rebuild.lean can do to the state. -/

namespace Sys2Proof.Machine

theorem State.unblock_moves (s) : State.Moves [.nor, .prot] s (State.unblock s) := by
  unfold State.unblock
  repeat' (first
    | with_reducible exact Moves.refl _ _
    | ((with_reducible apply Moves.op (State.modOp_moves _ _ _)); decide)
    | ((with_reducible apply Moves.op (State.rebuildTo_moves _ _ _)); decide)
    | with_reducible apply Moves.ite
    | split)

theorem State.rewriteMcRows_moves (s) : State.Moves [.names, .prot, .mem, .mcache, .pair, .free, .out] s (State.rewriteMcRows s) := by
  unfold State.rewriteMcRows
  apply Moves.each _ (Moves.refl _ _)
  intro r u hu
  dsimp only
  split
  · exact hu
  · rename_i t ht
    split at ht
    case isFalse => exact absurd ht (by simp)
    have h1 := Moves.op (State.putMcRow_moves ht) (by decide) hu
    have h2 := Moves.op (State.modProt_moves (fun p => { p with mcRows := p.mcRows.filter fun y => y.id != r.id }) t) (by decide) h1
    split
    · refine Moves.each ?_ h2
      intro q v hv
      split
      · exact Moves.op (State.setMap_moves _ _ _ _) (by decide) hv
      · exact hv
    · exact h2

theorem State.runRebuild_moves (a0) (s) : State.Moves [.aon, .nor, .book, .prot, .pair, .out] s (State.runRebuild a0 s) := by
  unfold State.runRebuild
  repeat' (first
    | (with_reducible intro)
    | with_reducible exact Moves.refl _ _
    | with_reducible assumption
    | ((with_reducible apply Moves.op (State.mirrorCheckpoint_moves _ _)); decide)
    | ((with_reducible apply Moves.op (State.modOp_moves _ _ _)); decide)
    | ((with_reducible apply Moves.op (State.modProt_moves _ _)); decide)
    | ((with_reducible apply Moves.op (State.newRebuild_moves _ _ _)); decide)
    | ((with_reducible apply Moves.op (State.rebuildEnd_moves _)); decide)
    | ((with_reducible apply Moves.op (State.rebuildTo_moves _ _ _)); decide)
    | with_reducible apply Moves.ite
    | with_reducible apply Moves.when
    | (extract_lets +onlyGivenNames u; (with_reducible apply Moves.let (u := u)); (intro h; clear_value u); rotate_left; subst u; rotate_right)
    | (extract_lets +onlyGivenNames v; subst v)
    | split)

theorem State.admitHome_moves (a0) (a1) (s) : State.Moves [.aon, .nor, .book, .prot, .seqs, .actCals, .pair, .out] s (State.admitHome a0 a1 s) := by
  unfold State.admitHome
  repeat' (first
    | (with_reducible intro)
    | with_reducible exact Moves.refl _ _
    | with_reducible assumption
    | ((with_reducible apply Moves.op (State.calDirty_moves _ _)); decide)
    | ((with_reducible apply Moves.op (State.memberRecAs_moves _ _ _)); decide)
    | ((with_reducible apply Moves.op (State.modAcal_moves _ _ _)); decide)
    | ((with_reducible apply Moves.op (State.modSeq_moves _ _ _)); decide)
    | ((with_reducible apply Moves.op (State.noteService_moves _ _)); decide)
    | ((with_reducible apply Moves.op (State.raiseProt_moves _ _ _)); decide)
    | ((with_reducible apply Moves.op (State.rebuildEnd_moves _)); decide)
    | ((with_reducible apply Moves.op (State.recordDefects_moves _)); decide)
    | ((with_reducible apply Moves.op (State.recordGroups_moves _)); decide)
    | ((with_reducible apply Moves.op (State.runRebuild_moves _ _)); decide)
    | ((with_reducible apply Moves.op (State.seatMember_moves _ _ _ _ _ _ _)); decide)
    | ((with_reducible apply Moves.op (State.unblock_moves _)); decide)
    | (unfold State.watchSpare; beta_reduce)
    | ((with_reducible apply Moves.op (State.worksGone_moves _)); decide)
    | with_reducible apply Moves.each
    | with_reducible apply Moves.ite
    | with_reducible apply Moves.when
    | (extract_lets +onlyGivenNames u; (with_reducible apply Moves.let (u := u)); (intro h; clear_value u); rotate_left; subst u; rotate_right)
    | (extract_lets +onlyGivenNames v; subst v)
    | split)

theorem State.commitWork_moves (a0) (s) : State.Moves [.aon, .nor, .book, .power, .fa, .fb, .ctxs, .decisions, .names, .prot, .ports, .spins, .acts, .seqs, .chorus, .actCals, .mem, .mcache, .pair, .svc, .free, .out] s (State.commitWork a0 s) := by
  unfold State.commitWork
  repeat' (first
    | (with_reducible intro)
    | with_reducible exact Moves.refl _ _
    | with_reducible assumption
    | ((with_reducible apply Moves.op (State.bufferChanged_moves _)); decide)
    | ((with_reducible apply Moves.op (State.commitPlaces_moves _ _ _ _ _)); decide)
    | ((with_reducible apply Moves.op (State.commitPoint_moves _)); decide)
    | ((with_reducible apply Moves.op (State.modProt_moves _ _)); decide)
    | ((with_reducible apply Moves.op (State.raiseProt_moves _ _ _)); decide)
    | ((with_reducible apply Moves.op (State.stripeDone_moves _ _ _)); decide)
    | with_reducible apply Moves.ite
    | with_reducible apply Moves.when
    | (extract_lets +onlyGivenNames u; (with_reducible apply Moves.let (u := u)); (intro h; clear_value u); rotate_left; subst u; rotate_right)
    | (extract_lets +onlyGivenNames v; subst v)
    | split)

theorem State.loseRow_moves (a0) (a1) (a2) (s) : State.Moves [.aon, .book, .ctxs, .decisions, .names, .prot, .pair, .svc, .out] s (State.loseRow a0 a1 a2 s) := by
  unfold State.loseRow
  repeat' (first
    | (with_reducible intro)
    | with_reducible exact Moves.refl _ _
    | with_reducible assumption
    | ((with_reducible apply Moves.op (State.modNames_moves _ _)); decide)
    | ((with_reducible apply Moves.op (State.raiseProt_moves _ _ _)); decide)
    | ((with_reducible apply Moves.op (State.wakeReads_moves _ _ _)); decide)
    | with_reducible apply Moves.ite
    | with_reducible apply Moves.when
    | (extract_lets +onlyGivenNames u; (with_reducible apply Moves.let (u := u)); (intro h; clear_value u); rotate_left; subst u; rotate_right)
    | (extract_lets +onlyGivenNames v; subst v)
    | split)

theorem State.putStrip_moves (a0) (a1) (a2) (s) : State.Moves [.prot, .pair, .out] s (State.putStrip a0 a1 a2 s) := by
  unfold State.putStrip
  repeat' (first
    | (with_reducible intro)
    | with_reducible exact Moves.refl _ _
    | with_reducible assumption
    | ((with_reducible apply Moves.op (State.askStrip_moves _ _ _ _)); decide)
    | ((with_reducible apply Moves.op (State.modProt_moves _ _)); decide)
    | with_reducible apply Moves.each
    | with_reducible apply Moves.ite
    | with_reducible apply Moves.when
    | (extract_lets +onlyGivenNames u; (with_reducible apply Moves.let (u := u)); (intro h; clear_value u); rotate_left; subst u; rotate_right)
    | (extract_lets +onlyGivenNames v; subst v)
    | split)

theorem State.copyChunk_moves (a0) (a1) (a2) (a3) (s) : State.Moves [.aon, .book, .ctxs, .decisions, .names, .prot, .pair, .svc, .out] s (State.copyChunk a0 a1 a2 a3 s) := by
  unfold State.copyChunk
  repeat' (first
    | (with_reducible intro)
    | with_reducible exact Moves.refl _ _
    | with_reducible assumption
    | ((with_reducible apply Moves.op (State.loseRow_moves _ _ _ _)); decide)
    | ((with_reducible apply Moves.op (State.putStrip_moves _ _ _ _)); decide)
    | with_reducible apply Moves.each
    | with_reducible apply Moves.ite
    | with_reducible apply Moves.when
    | (extract_lets +onlyGivenNames u; (with_reducible apply Moves.let (u := u)); (intro h; clear_value u); rotate_left; subst u; rotate_right)
    | (extract_lets +onlyGivenNames v; subst v)
    | split)

theorem State.markFailed_moves (a0) (a1) (s) : State.Moves [.aon, .book, .prot, .pair, .out] s (State.markFailed a0 a1 s) := by
  unfold State.markFailed
  repeat' (first
    | (with_reducible intro)
    | with_reducible exact Moves.refl _ _
    | with_reducible assumption
    | ((with_reducible apply Moves.op (State.memberRec_moves _ _)); decide)
    | ((with_reducible apply Moves.op (State.modMember_moves _ _ _)); decide)
    | ((with_reducible apply Moves.op (State.modProt_moves _ _)); decide)
    | ((with_reducible apply Moves.op (State.raiseProt_moves _ _ _)); decide)
    | (unfold State.watchSpare; beta_reduce)
    | with_reducible apply Moves.each
    | with_reducible apply Moves.ite
    | with_reducible apply Moves.when
    | (extract_lets +onlyGivenNames u; (with_reducible apply Moves.let (u := u)); (intro h; clear_value u); rotate_left; subst u; rotate_right)
    | (extract_lets +onlyGivenNames v; subst v)
    | split)

theorem State.memberBack_moves (a0) (s) : State.Moves [.prot] s (State.memberBack a0 s) := by
  unfold State.memberBack
  repeat' (first
    | (with_reducible intro)
    | with_reducible exact Moves.refl _ _
    | with_reducible assumption
    | ((with_reducible apply Moves.op (State.dropWorks_moves _ _)); decide)
    | with_reducible apply Moves.ite
    | with_reducible apply Moves.when
    | (extract_lets +onlyGivenNames u; (with_reducible apply Moves.let (u := u)); (intro h; clear_value u); rotate_left; subst u; rotate_right)
    | (extract_lets +onlyGivenNames v; subst v)
    | split)

theorem State.submitWork_moves (a0) (s) : State.Moves [.aon, .nor, .book, .power, .fa, .fb, .ctxs, .decisions, .names, .prot, .ports, .spins, .acts, .seqs, .chorus, .actCals, .mem, .mcache, .pair, .svc, .free, .out] s (State.submitWork a0 s) := by
  unfold State.submitWork
  repeat' (first
    | (with_reducible intro)
    | with_reducible exact Moves.refl _ _
    | with_reducible assumption
    | ((with_reducible apply Moves.op (State.commitWork_moves _ _)); decide)
    | ((with_reducible apply Moves.op (State.excRec_moves _ _ _ _ _)); decide)
    | ((with_reducible apply Moves.op (State.modProt_moves _ _)); decide)
    | with_reducible apply Moves.each
    | with_reducible apply Moves.ite
    | with_reducible apply Moves.when
    | (extract_lets +onlyGivenNames u; (with_reducible apply Moves.let (u := u)); (intro h; clear_value u); rotate_left; subst u; rotate_right)
    | (extract_lets +onlyGivenNames v; subst v)
    | split)

theorem State.addWork_moves (a0) (a1) (s) : State.Moves [.aon, .book, .prot] s (State.addWork a0 a1 s) := by
  unfold State.addWork
  repeat' (first
    | (with_reducible intro)
    | with_reducible exact Moves.refl _ _
    | with_reducible assumption
    | ((with_reducible apply Moves.op (State.modMember_moves _ _ _)); decide)
    | ((with_reducible apply Moves.op (State.modProt_moves _ _)); decide)
    | ((with_reducible apply Moves.op (State.raiseProt_moves _ _ _)); decide)
    | (unfold State.watchSpare; beta_reduce)
    | with_reducible apply Moves.each
    | with_reducible apply Moves.ite
    | with_reducible apply Moves.when
    | (extract_lets +onlyGivenNames u; (with_reducible apply Moves.let (u := u)); (intro h; clear_value u); rotate_left; subst u; rotate_right)
    | (extract_lets +onlyGivenNames v; subst v)
    | split)

theorem State.moveChunk_moves (a0) (a1) (a2) (a3) (a4) (s) : State.Moves [.aon, .nor, .book, .power, .fa, .fb, .ctxs, .decisions, .names, .prot, .ports, .spins, .acts, .seqs, .chorus, .actCals, .mem, .mcache, .pair, .svc, .free, .out] s (State.moveChunk a0 a1 a2 a3 a4 s) := by
  unfold State.moveChunk
  repeat' (first
    | (with_reducible intro)
    | with_reducible exact Moves.refl _ _
    | with_reducible assumption
    | ((with_reducible apply Moves.op (State.addWork_moves _ _ _)); decide)
    | ((with_reducible apply Moves.op (State.copyChunk_moves _ _ _ _ _)); decide)
    | ((with_reducible apply Moves.op (State.modNames_moves _ _)); decide)
    | ((with_reducible apply Moves.op (State.submitWork_moves _ _)); decide)
    | with_reducible apply Moves.ite
    | with_reducible apply Moves.when
    | (extract_lets +onlyGivenNames u; (with_reducible apply Moves.let (u := u)); (intro h; clear_value u); rotate_left; subst u; rotate_right)
    | (extract_lets +onlyGivenNames v; subst v)
    | split)

theorem State.reallocate_moves (a0) (a1) (a2) (s) : State.Moves [.aon, .nor, .book, .power, .fa, .fb, .ctxs, .decisions, .names, .prot, .ports, .spins, .acts, .seqs, .chorus, .actCals, .mem, .mcache, .pair, .svc, .free, .out] s (State.reallocate a0 a1 a2 s) := by
  unfold State.reallocate
  repeat' (first
    | (with_reducible intro)
    | with_reducible exact Moves.refl _ _
    | with_reducible assumption
    | ((with_reducible apply Moves.op (State.moveChunk_moves _ _ _ _ _ _)); decide)
    | with_reducible apply Moves.ite
    | with_reducible apply Moves.when
    | (extract_lets +onlyGivenNames u; (with_reducible apply Moves.let (u := u)); (intro h; clear_value u); rotate_left; subst u; rotate_right)
    | (extract_lets +onlyGivenNames v; subst v)
    | split)

theorem State.rebuildRow_moves (a0) (a1) (a2) (a3) (a4) (s) : State.Moves [.aon, .book, .ctxs, .decisions, .names, .prot, .pair, .svc, .out] s (State.rebuildRow a0 a1 a2 a3 a4 s) := by
  unfold State.rebuildRow
  repeat' (first
    | (with_reducible intro)
    | with_reducible exact Moves.refl _ _
    | with_reducible assumption
    | ((with_reducible apply Moves.op (State.loseRow_moves _ _ _ _)); decide)
    | ((with_reducible apply Moves.op (State.putStrip_moves _ _ _ _)); decide)
    | with_reducible apply Moves.each
    | with_reducible apply Moves.ite
    | with_reducible apply Moves.when
    | (extract_lets +onlyGivenNames u; (with_reducible apply Moves.let (u := u)); (intro h; clear_value u); rotate_left; subst u; rotate_right)
    | (extract_lets +onlyGivenNames v; subst v)
    | split)

theorem State.wipe_moves (s) : State.Moves [.names, .prot, .mcache] s (State.wipe s) := by
  unfold State.wipe
  repeat' (first
    | (with_reducible intro)
    | with_reducible exact Moves.refl _ _
    | with_reducible assumption
    | ((with_reducible apply Moves.op (State.forgetBlocks_moves _)); decide)
    | ((with_reducible apply Moves.op (State.modProt_moves _ _)); decide)
    | with_reducible apply Moves.ite
    | with_reducible apply Moves.when
    | (extract_lets +onlyGivenNames u; (with_reducible apply Moves.let (u := u)); (intro h; clear_value u); rotate_left; subst u; rotate_right)
    | (extract_lets +onlyGivenNames v; subst v)
    | split)

theorem execFullHdaFormatBand_moves (a0) (a1) (a2) (s) : ∃ t, execFullHdaFormatBand a0 a1 a2 s = .next t ∧ State.Moves [.aon, .nor, .book, .prot, .seqs, .actCals, .pair, .out] s t := by
  unfold execFullHdaFormatBand
  repeat' (first
    | (with_reducible intro)
    | (with_reducible refine ⟨_, rfl, ?_⟩)
    | with_reducible exact Moves.refl _ _
    | with_reducible assumption
    | ((with_reducible apply Moves.op (State.admitHome_moves _ _ _)); decide)
    | ((with_reducible apply Moves.op (State.endOp_moves _ _ _ _)); decide)
    | ((with_reducible apply Moves.op (State.modMember_moves _ _ _)); decide)
    | ((with_reducible apply Moves.op (State.modOp_moves _ _ _)); decide)
    | ((with_reducible apply Moves.op (State.opPoint_moves _ _)); decide)
    | ((with_reducible apply Moves.op (State.recordDefects_moves _)); decide)
    | with_reducible apply Moves.ite
    | with_reducible apply Moves.when
    | (extract_lets +onlyGivenNames u; (with_reducible apply Moves.let (u := u)); (intro h; clear_value u); rotate_left; subst u; rotate_right)
    | (extract_lets +onlyGivenNames v; subst v)
    | (split <;> beta_reduce))

theorem execMemberFailed_moves (a0) (s) : ∃ t, execMemberFailed a0 s = .next t ∧ State.Moves [.now, .aon, .book, .prot, .pair, .out] s t := by
  unfold execMemberFailed
  repeat' (first
    | (with_reducible refine ⟨_, rfl, ?_⟩)
    | with_reducible exact Moves.refl _ _
    | ((with_reducible apply Moves.op (State.at__moves _ _)); decide)
    | ((with_reducible apply Moves.op (State.markFailed_moves _ _ _)); decide)
    | ((with_reducible apply Moves.op (State.noteService_moves _ _)); decide)
    | with_reducible apply Moves.ite
    | (extract_lets +onlyGivenNames v; subst v)
    | (split <;> beta_reduce))

theorem execMemberReturned_moves (a0) (s) : ∃ t, execMemberReturned a0 s = .next t ∧ State.Moves [.aon, .nor, .book, .power, .fa, .fb, .ctxs, .decisions, .names, .prot, .ports, .spins, .acts, .seqs, .chorus, .actCals, .mem, .mcache, .pair, .svc, .free, .out] s t := by
  unfold execMemberReturned
  refine ⟨_, rfl, ?_⟩
  split
  · extract_lets t back u v w
    have ht : s.Moves [.aon, .nor, .book, .power, .fa, .fb, .ctxs, .decisions, .names, .prot, .ports, .spins, .acts, .seqs, .chorus, .actCals, .mem, .mcache, .pair, .svc, .free, .out] t :=
      Moves.op (State.memberBack_moves _ _) (by decide) (Moves.refl _ _)
    clear_value t
    have hu : s.Moves [.aon, .nor, .book, .power, .fa, .fb, .ctxs, .decisions, .names, .prot, .ports, .spins, .acts, .seqs, .chorus, .actCals, .mem, .mcache, .pair, .svc, .free, .out] u := by
      refine Moves.op (State.noteService_moves _ _) (by decide) ?_
      unfold State.watchSpare
      refine Moves.when (fun x hx => Moves.op (State.raiseProt_moves _ _ _) (by decide) hx) ?_
      exact Moves.op (State.modMember_moves _ _ _) (by decide) ht
    clear_value u
    have hv : s.Moves [.aon, .nor, .book, .power, .fa, .fb, .ctxs, .decisions, .names, .prot, .ports, .spins, .acts, .seqs, .chorus, .actCals, .mem, .mcache, .pair, .svc, .free, .out] v :=
      Moves.op (State.memberRec_moves _ _) (by decide) (Moves.op (State.raiseProt_moves _ _ _) (by decide) hu)
    clear_value v
    have hw : s.Moves [.aon, .nor, .book, .power, .fa, .fb, .ctxs, .decisions, .names, .prot, .ports, .spins, .acts, .seqs, .chorus, .actCals, .mem, .mcache, .pair, .svc, .free, .out] w := by
      simp only [w]
      split
      · exact Moves.ite (Moves.op (State.rebuildTo_moves _ _ _) (by decide) (Moves.op (State.endOp_moves _ _ _ _) (by decide) hv)) hv
      · exact hv
    clear_value w
    exact Moves.op (State.bufferChanged_moves _) (by decide)
      (Moves.op (State.worksGone_moves _) (by decide) (Moves.op (State.rebuildEnd_moves _) (by decide) hw))
  · exact Moves.refl _ _

theorem execReallocation_moves (a0) (a1) (a2) (s) : ∃ t, execReallocation a0 a1 a2 s = .next t ∧ State.Moves [.aon, .nor, .book, .power, .fa, .fb, .ctxs, .decisions, .names, .prot, .ports, .spins, .acts, .seqs, .chorus, .actCals, .mem, .mcache, .pair, .svc, .free, .out] s t := by
  unfold execReallocation
  repeat' (first
    | (with_reducible refine ⟨_, rfl, ?_⟩)
    | with_reducible exact Moves.refl _ _
    | ((with_reducible apply Moves.op (State.reallocate_moves _ _ _ _)); decide)
    | with_reducible apply Moves.ite
    | (split <;> beta_reduce))

theorem execRebuildBlocked_moves (s) : ∃ t, execRebuildBlocked s = .next t ∧ State.Moves [.aon, .nor, .book, .prot] s t := by
  unfold execRebuildBlocked
  repeat' (first
    | (with_reducible refine ⟨_, rfl, ?_⟩)
    | with_reducible exact Moves.refl _ _
    | ((with_reducible apply Moves.op (State.modOp_moves _ _ _)); decide)
    | ((with_reducible apply Moves.op (State.raiseProt_moves _ _ _)); decide)
    | ((with_reducible apply Moves.op (State.rebuildTo_moves _ _ _)); decide)
    | with_reducible apply Moves.ite
    | (split <;> beta_reduce))

theorem State.checkpointDone_moves (a0) (s) : State.Moves [.nor, .prot] s (State.checkpointDone a0 s) := by
  unfold State.checkpointDone
  repeat' (first
    | (with_reducible intro)
    | with_reducible exact Moves.refl _ _
    | with_reducible assumption
    | ((with_reducible apply Moves.op (State.modOp_moves _ _ _)); decide)
    | ((with_reducible apply Moves.op (State.modProt_moves _ _)); decide)
    | ((with_reducible apply Moves.op (State.opPoint_moves _ _)); decide)
    | ((with_reducible apply Moves.op (State.rebuildTo_moves _ _ _)); decide)
    | with_reducible apply Moves.ite
    | with_reducible apply Moves.when
    | (extract_lets +onlyGivenNames u; (with_reducible apply Moves.let (u := u)); (intro h; clear_value u); rotate_left; subst u; rotate_right)
    | (extract_lets +onlyGivenNames v; subst v)
    | split)

theorem execRebuildCheckpoint_moves (s) : ∃ t, execRebuildCheckpoint s = .next t ∧ State.Moves [.nor, .prot, .pair, .out] s t := by
  unfold execRebuildCheckpoint
  repeat' (first
    | (with_reducible intro)
    | (with_reducible refine ⟨_, rfl, ?_⟩)
    | with_reducible exact Moves.refl _ _
    | with_reducible assumption
    | ((with_reducible apply Moves.op (State.checkpointDone_moves _ _)); decide)
    | ((with_reducible apply Moves.op (State.mirrorCheckpoint_moves _ _)); decide)
    | ((with_reducible apply Moves.op (State.modProt_moves _ _)); decide)
    | ((with_reducible apply Moves.op (State.record_moves _ _)); decide)
    | with_reducible apply Moves.ite
    | with_reducible apply Moves.when
    | (extract_lets +onlyGivenNames u; (with_reducible apply Moves.let (u := u)); (intro h; clear_value u); rotate_left; subst u; rotate_right)
    | (extract_lets +onlyGivenNames v; subst v)
    | (split <;> beta_reduce))

theorem execRebuildResume_moves (s) : ∃ t, execRebuildResume s = .next t ∧ State.Moves [.aon, .nor, .book, .prot, .pair, .out] s t := by
  unfold execRebuildResume
  repeat' (first
    | (with_reducible intro)
    | (with_reducible refine ⟨_, rfl, ?_⟩)
    | with_reducible exact Moves.refl _ _
    | with_reducible assumption
    | ((with_reducible apply Moves.op (State.modProt_moves _ _)); decide)
    | ((with_reducible apply Moves.op (State.raiseProt_moves _ _ _)); decide)
    | ((with_reducible apply Moves.op (State.rebuildEnd_moves _)); decide)
    | ((with_reducible apply Moves.op (State.rebuildTo_moves _ _ _)); decide)
    | ((with_reducible apply Moves.op (State.worksGone_moves _)); decide)
    | with_reducible apply Moves.ite
    | with_reducible apply Moves.when
    | (extract_lets +onlyGivenNames u; (with_reducible apply Moves.let (u := u)); (intro h; clear_value u); rotate_left; subst u; rotate_right)
    | (extract_lets +onlyGivenNames v; subst v)
    | (split <;> beta_reduce))

theorem execReturnPhaseCopy_moves (a0) (a1) (a2) (s) : ∃ t, execReturnPhaseCopy a0 a1 a2 s = .next t ∧ State.Moves [.aon, .nor, .book, .power, .fa, .fb, .ctxs, .decisions, .names, .prot, .ports, .spins, .acts, .seqs, .chorus, .actCals, .mem, .mcache, .pair, .svc, .free, .out] s t := by
  unfold execReturnPhaseCopy
  repeat' (first
    | (with_reducible intro)
    | (with_reducible refine ⟨_, rfl, ?_⟩)
    | with_reducible exact Moves.refl _ _
    | with_reducible assumption
    | ((with_reducible apply Moves.op (State.moveChunk_moves _ _ _ _ _ _)); decide)
    | with_reducible apply Moves.ite
    | with_reducible apply Moves.when
    | (extract_lets +onlyGivenNames u; (with_reducible apply Moves.let (u := u)); (intro h; clear_value u); rotate_left; subst u; rotate_right)
    | (extract_lets +onlyGivenNames v; subst v)
    | (split <;> beta_reduce))

theorem execSanitizeBand_moves (a0) (s) : ∃ t, execSanitizeBand a0 s = .next t ∧ State.Moves [.aon, .nor, .book, .power, .fa, .fb, .ctxs, .decisions, .names, .prot, .ports, .spins, .acts, .seqs, .chorus, .actCals, .mem, .mcache, .pair, .svc, .free, .out] s t := by
  unfold execSanitizeBand
  repeat' (first
    | (with_reducible refine ⟨_, rfl, ?_⟩)
    | with_reducible exact Moves.refl _ _
    | ((with_reducible apply Moves.op (State.bufferChanged_moves _)); decide)
    | ((with_reducible apply Moves.op (State.endOp_moves _ _ _ _)); decide)
    | ((with_reducible apply Moves.op (State.modNames_moves _ _)); decide)
    | ((with_reducible apply Moves.op (State.modOp_moves _ _ _)); decide)
    | ((with_reducible apply Moves.op (State.opPoint_moves _ _)); decide)
    | ((with_reducible apply Moves.op (State.wipe_moves _)); decide)
    | with_reducible apply Moves.ite
    | (extract_lets +onlyGivenNames v; subst v)
    | (split <;> beta_reduce))

theorem State.mcPhase_moves (s) : State.Moves [.names, .prot, .mem, .mcache, .pair, .free, .out] s (State.mcPhase s) := by
  unfold State.mcPhase
  repeat' (first
    | (with_reducible intro)
    | with_reducible exact Moves.refl _ _
    | with_reducible assumption
    | ((with_reducible apply Moves.op (State.rebuildTo_moves _ _ _)); decide)
    | ((with_reducible apply Moves.op (State.rewriteMcRows_moves _)); decide)
    | with_reducible apply Moves.ite
    | with_reducible apply Moves.when
    | (extract_lets +onlyGivenNames u; (with_reducible apply Moves.let (u := u)); (intro h; clear_value u); rotate_left; subst u; rotate_right)
    | (extract_lets +onlyGivenNames v; subst v)
    | split)

theorem State.takeStripe_moves (a0) (a1) (s) : State.Moves [.aon, .nor, .book, .prot] s (State.takeStripe a0 a1 s) := by
  unfold State.takeStripe
  repeat' (first
    | (with_reducible intro)
    | with_reducible exact Moves.refl _ _
    | with_reducible assumption
    | ((with_reducible apply Moves.op (State.addWork_moves _ _ _)); decide)
    | ((with_reducible apply Moves.op (State.modProt_moves _ _)); decide)
    | ((with_reducible apply Moves.op (State.unblock_moves _)); decide)
    | with_reducible apply Moves.ite
    | with_reducible apply Moves.when
    | (extract_lets +onlyGivenNames u; (with_reducible apply Moves.let (u := u)); (intro h; clear_value u); rotate_left; subst u; rotate_right)
    | (extract_lets +onlyGivenNames v; subst v)
    | split)

theorem State.retarget_moves (a0) (a1) (s) : State.Moves [.aon, .nor, .book, .prot, .pair, .out] s (State.retarget a0 a1 s) := by
  unfold State.retarget
  repeat' (first
    | (with_reducible intro)
    | with_reducible exact Moves.refl _ _
    | with_reducible assumption
    | ((with_reducible apply Moves.op (State.addWork_moves _ _ _)); decide)
    | ((with_reducible apply Moves.op (State.dropWorks_moves _ _)); decide)
    | ((with_reducible apply Moves.op (State.modProt_moves _ _)); decide)
    | ((with_reducible apply Moves.op (State.worksGone_moves _)); decide)
    | with_reducible apply Moves.ite
    | with_reducible apply Moves.when
    | (extract_lets +onlyGivenNames u; (with_reducible apply Moves.let (u := u)); (intro h; clear_value u); rotate_left; subst u; rotate_right)
    | (extract_lets +onlyGivenNames v; subst v)
    | split)

theorem execSourceRunRead_moves (a0) (a1) (a2) (a3) (s) : ∃ t, execSourceRunRead a0 a1 a2 a3 s = .next t ∧ State.Moves [.aon, .nor, .book, .ctxs, .decisions, .names, .prot, .mem, .mcache, .pair, .svc, .free, .out] s t := by
  unfold execSourceRunRead
  repeat' (first
    | (with_reducible intro)
    | (with_reducible refine ⟨_, rfl, ?_⟩)
    | with_reducible exact Moves.refl _ _
    | with_reducible assumption
    | ((with_reducible apply Moves.op (State.mcPhase_moves _)); decide)
    | ((with_reducible apply Moves.op (State.modProt_moves _ _)); decide)
    | ((with_reducible apply Moves.op (State.rebuildRow_moves _ _ _ _ _ _)); decide)
    | ((with_reducible apply Moves.op (State.retarget_moves _ _ _)); decide)
    | ((with_reducible apply Moves.op (State.takeStripe_moves _ _ _)); decide)
    | with_reducible apply Moves.each
    | with_reducible apply Moves.ite
    | with_reducible apply Moves.when
    | (extract_lets +onlyGivenNames u; (with_reducible apply Moves.let (u := u)); (intro h; clear_value u); rotate_left; subst u; rotate_right)
    | (extract_lets +onlyGivenNames v; subst v)
    | (split <;> beta_reduce))

theorem execStripeCommit_moves (a0) (a1) (a2) (s) : ∃ t, execStripeCommit a0 a1 a2 s = .next t ∧ State.Moves [.aon, .nor, .book, .power, .fa, .fb, .ctxs, .decisions, .names, .prot, .ports, .spins, .acts, .seqs, .chorus, .actCals, .mem, .mcache, .pair, .svc, .free, .out] s t := by
  unfold execStripeCommit
  repeat' (first
    | (with_reducible intro)
    | (with_reducible refine ⟨_, rfl, ?_⟩)
    | with_reducible exact Moves.refl _ _
    | with_reducible assumption
    | ((with_reducible apply Moves.op (State.mcPhase_moves _)); decide)
    | ((with_reducible apply Moves.op (State.retarget_moves _ _ _)); decide)
    | ((with_reducible apply Moves.op (State.submitWork_moves _ _)); decide)
    | ((with_reducible apply Moves.op (State.takeStripe_moves _ _ _)); decide)
    | with_reducible apply Moves.ite
    | with_reducible apply Moves.when
    | (extract_lets +onlyGivenNames u; (with_reducible apply Moves.let (u := u)); (intro h; clear_value u); rotate_left; subst u; rotate_right)
    | (extract_lets +onlyGivenNames v; subst v)
    | (split <;> beta_reduce))

theorem State.scanPoint_moves (a0) (a1) (s) : State.Moves [.nor] s (State.scanPoint a0 a1 s) := by
  unfold State.scanPoint
  repeat' (first
    | (with_reducible intro)
    | with_reducible exact Moves.refl _ _
    | with_reducible assumption
    | ((with_reducible apply Moves.op (State.opPoint_moves _ _)); decide)
    | with_reducible apply Moves.ite
    | with_reducible apply Moves.when
    | (extract_lets +onlyGivenNames u; (with_reducible apply Moves.let (u := u)); (intro h; clear_value u); rotate_left; subst u; rotate_right)
    | (extract_lets +onlyGivenNames v; subst v)
    | split)

theorem execSurfaceScanStrip_moves (a0) (a1) (a2) (a3) (s) : ∃ t, execSurfaceScanStrip a0 a1 a2 a3 s = .next t ∧ State.Moves [.aon, .nor, .book, .power, .fa, .fb, .ctxs, .decisions, .names, .prot, .ports, .spins, .acts, .seqs, .chorus, .actCals, .mem, .mcache, .pair, .svc, .free, .out] s t := by
  unfold execSurfaceScanStrip
  repeat' (first
    | (with_reducible intro)
    | (with_reducible refine ⟨_, rfl, ?_⟩)
    | with_reducible exact Moves.refl _ _
    | with_reducible assumption
    | ((with_reducible apply Moves.op (State.endOp_moves _ _ _ _)); decide)
    | ((with_reducible apply Moves.op (State.modOp_moves _ _ _)); decide)
    | ((with_reducible apply Moves.op (State.modProt_moves _ _)); decide)
    | ((with_reducible apply Moves.op (State.reallocate_moves _ _ _ _)); decide)
    | ((with_reducible apply Moves.op (State.scanPoint_moves _ _ _)); decide)
    | with_reducible apply Moves.ite
    | with_reducible apply Moves.when
    | (extract_lets +onlyGivenNames u; (with_reducible apply Moves.let (u := u)); (intro h; clear_value u); rotate_left; subst u; rotate_right)
    | (extract_lets +onlyGivenNames v; subst v)
    | (split <;> beta_reduce))

theorem State.joinRebuild_moves (s) : State.Moves [.aon, .nor, .book, .names, .prot, .mem, .mcache, .pair, .free, .out] s (State.joinRebuild s) := by
  unfold State.joinRebuild
  repeat' (first
    | (with_reducible intro)
    | with_reducible exact Moves.refl _ _
    | with_reducible assumption
    | ((with_reducible apply Moves.op (State.mcPhase_moves _)); decide)
    | ((with_reducible apply Moves.op (State.modProt_moves _ _)); decide)
    | ((with_reducible apply Moves.op (State.rebuildEnd_moves _)); decide)
    | ((with_reducible apply Moves.op (State.rebuildTo_moves _ _ _)); decide)
    | with_reducible apply Moves.ite
    | with_reducible apply Moves.when
    | (extract_lets +onlyGivenNames u; (with_reducible apply Moves.let (u := u)); (intro h; clear_value u); rotate_left; subst u; rotate_right)
    | (extract_lets +onlyGivenNames v; subst v)
    | split)

theorem execUnderstudyStart_moves (s) : ∃ t, execUnderstudyStart s = .next t ∧ State.Moves [.now, .aon, .nor, .book, .names, .prot, .mem, .mcache, .pair, .free, .out] s t := by
  unfold execUnderstudyStart
  repeat' (first
    | (with_reducible intro)
    | (with_reducible refine ⟨_, rfl, ?_⟩)
    | with_reducible exact Moves.refl _ _
    | with_reducible assumption
    | ((with_reducible apply Moves.op (State.at__moves _ _)); decide)
    | ((with_reducible apply Moves.op (State.joinRebuild_moves _)); decide)
    | ((with_reducible apply Moves.op (State.runRebuild_moves _ _)); decide)
    | with_reducible apply Moves.ite
    | with_reducible apply Moves.when
    | (extract_lets +onlyGivenNames u; (with_reducible apply Moves.let (u := u)); (intro h; clear_value u); rotate_left; subst u; rotate_right)
    | (extract_lets +onlyGivenNames v; subst v)
    | (split <;> beta_reduce))

theorem execDescriptorQueued_moves (a0) (a1) (s) : ∃ t, execDescriptorQueued a0 a1 s = .next t ∧ State.Moves [.seqs, .chorus, .pair, .out] s t := by
  unfold execDescriptorQueued
  repeat' (first
    | (with_reducible intro)
    | (with_reducible refine ⟨_, rfl, ?_⟩)
    | with_reducible exact Moves.refl _ _
    | with_reducible assumption
    | ((with_reducible apply Moves.op (State.askMedia_moves _ _ _ _ _)); decide)
    | ((with_reducible apply Moves.op (State.modSeq_moves _ _ _)); decide)
    | ((with_reducible apply Moves.op (State.noteRequest_moves _ _)); decide)
    | with_reducible apply Moves.ite
    | with_reducible apply Moves.when
    | (extract_lets +onlyGivenNames u; (with_reducible apply Moves.let (u := u)); (intro h; clear_value u); rotate_left; subst u; rotate_right)
    | (extract_lets +onlyGivenNames v; subst v)
    | (split <;> beta_reduce))

end Sys2Proof.Machine
end

