-- ==== Sys2Proof/Laws/NsCmds.lean ====
section
/-! SUPPORT. What each operation and each command of Machine/NsCmds.lean can do to the state. -/

namespace Sys2Proof.Machine

theorem State.nsNotice_moves (a0) (s) : State.Moves [.fa, .fb, .ctxs, .decisions, .pair, .svc, .out] s (State.nsNotice a0 s) := by
  unfold State.nsNotice
  repeat' (first
    | (with_reducible intro)
    | with_reducible exact Moves.refl _ _
    | with_reducible assumption
    | ((with_reducible apply Moves.op (State.asyncEvent_moves _ _ _ _ _)); decide)
    | with_reducible apply Moves.when)

theorem execFormatNvm_moves (a0) (s) : ∃ t, execFormatNvm a0 s = .next t ∧ State.Moves [.aon, .nor, .book, .power, .fa, .fb, .ctxs, .decisions, .names, .prot, .ports, .spins, .acts, .seqs, .chorus, .actCals, .mem, .mcache, .pair, .svc, .free, .out] s t := by
  unfold execFormatNvm
  repeat' (first
    | (with_reducible intro)
    | (with_reducible refine ⟨_, rfl, ?_⟩)
    | with_reducible exact Moves.refl _ _
    | with_reducible assumption
    | ((with_reducible apply Moves.op (State.bufferChanged_moves _)); decide)
    | ((with_reducible apply Moves.op (State.complete_moves _ _ _)); decide)
    | ((with_reducible apply State.modCtx_moves); exact fun _ _ => rfl; decide)
    | (unfold State.orElse; beta_reduce)
    | (unfold State.run; beta_reduce)
    | ((with_reducible apply Moves.op (State.settleEnded_moves _ _ _)); decide)
    | with_reducible apply Moves.each
    | with_reducible apply Moves.ite
    | with_reducible apply Moves.when
    | (extract_lets +onlyGivenNames u; (with_reducible apply Moves.let (u := u)); (intro h; clear_value u); rotate_left; subst u; rotate_right)
    | (extract_lets +onlyGivenNames v; subst v)
    | (split <;> beta_reduce))

theorem execNamespaceAttachment_moves (a0) (s) : ∃ t, execNamespaceAttachment a0 s = .next t ∧ State.Moves [.fa, .fb, .ctxs, .decisions, .names, .pair, .svc, .out] s t := by
  unfold execNamespaceAttachment
  repeat' (first
    | (with_reducible refine ⟨_, rfl, ?_⟩)
    | (with_reducible intro)
    | with_reducible exact Moves.refl _ _
    | with_reducible assumption
    | ((with_reducible apply Moves.op (State.complete_moves _ _ _)); decide)
    | ((with_reducible apply Moves.op (State.modNames_moves _ _)); decide)
    | ((with_reducible apply Moves.op (State.nsNotice_moves _ _)); decide)
    | (unfold State.orElse; beta_reduce)
    | (unfold State.run; beta_reduce)
    | ((with_reducible apply Moves.op (State.sendKept_moves _ _ _ _ _ _ _ _)); decide)
    | with_reducible apply Moves.ite
    | with_reducible apply Moves.when
    | with_reducible apply Moves.each
    | (extract_lets +onlyGivenNames u; (with_reducible apply Moves.let (u := u)); (intro h; clear_value u); rotate_left; subst u; rotate_right)
    | (extract_lets +onlyGivenNames v; subst v)
    | (split <;> beta_reduce))

theorem execNamespaceCreate_moves (a0) (s) : ∃ t, execNamespaceCreate a0 s = .next t ∧ State.Moves [.ctxs, .decisions, .names, .prot, .pair, .svc, .out] s t := by
  unfold execNamespaceCreate
  refine ⟨_, rfl, ?_⟩
  unfold State.run
  have c : ∀ (r : Cpl) {u : State}, s.Moves [.ctxs, .decisions, .names, .prot, .pair, .svc, .out] u → s.Moves [.ctxs, .decisions, .names, .prot, .pair, .svc, .out] (u.complete a0 r) := fun r _ hu =>
    Moves.op (State.complete_moves _ _ _) (by decide) hu
  split
  · split
    · beta_reduce
      extract_lets r narrow
      unfold State.orElse
      beta_reduce
      split
      · exact c _ (Moves.refl _ _)
      · extract_lets h n id
        split
        · exact c _ (Moves.refl _ _)
        · rename_i t gs ht
          extract_lets zoned ns
          exact c _ (Moves.op (State.nsRec_moves _ _ _) (by decide) (Moves.op (State.modNames_moves _ _) (by decide)
            (Moves.op (State.allocGroups_moves ht) (by decide) (Moves.refl _ _))))
    · exact Moves.refl _ _
  · exact Moves.refl _ _

theorem execNamespaceDelete_moves (a0) (s) : ∃ t, execNamespaceDelete a0 s = .next t ∧ State.Moves [.aon, .nor, .book, .ctxs, .decisions, .names, .prot, .pair, .svc, .out] s t := by
  unfold execNamespaceDelete
  repeat' (first
    | (with_reducible refine ⟨_, rfl, ?_⟩)
    | with_reducible exact Moves.refl _ _
    | ((with_reducible apply Moves.op (State.await_moves _ _ _)); decide)
    | ((with_reducible apply Moves.op (State.complete_moves _ _ _)); decide)
    | ((with_reducible apply Moves.op (State.modNames_moves _ _)); decide)
    | (unfold State.run; beta_reduce)
    | ((with_reducible apply Moves.op (State.settleDeletes_moves _)); decide)
    | with_reducible apply Moves.ite
    | (split <;> beta_reduce))

theorem execSanitize_moves (a0) (s) : ∃ t, execSanitize a0 s = .next t ∧ State.Moves [.aon, .nor, .book, .power, .fa, .fb, .ctxs, .decisions, .names, .prot, .ports, .spins, .acts, .seqs, .chorus, .actCals, .mem, .mcache, .pair, .svc, .free, .out] s t := by
  unfold execSanitize
  repeat' (first
    | (with_reducible intro)
    | (with_reducible refine ⟨_, rfl, ?_⟩)
    | with_reducible exact Moves.refl _ _
    | with_reducible assumption
    | ((with_reducible apply Moves.op (State.bufferChanged_moves _)); decide)
    | ((with_reducible apply Moves.op (State.complete_moves _ _ _)); decide)
    | ((with_reducible apply State.modCtx_moves); exact fun _ _ => rfl; decide)
    | (unfold State.orElse; beta_reduce)
    | (unfold State.run; beta_reduce)
    | ((with_reducible apply Moves.op (State.settleEnded_moves _ _ _)); decide)
    | with_reducible apply Moves.each
    | with_reducible apply Moves.ite
    | with_reducible apply Moves.when
    | (extract_lets +onlyGivenNames u; (with_reducible apply Moves.let (u := u)); (intro h; clear_value u); rotate_left; subst u; rotate_right)
    | (extract_lets +onlyGivenNames v; subst v)
    | (split <;> beta_reduce))

end Sys2Proof.Machine
end

