-- ==== Sys2Proof/Laws/Admin.lean ====
section
/-! SUPPORT. What each operation and each command of Machine/Admin.lean can do to the state. -/

namespace Sys2Proof.Machine

theorem execAbort_moves (a0) (s) : ∃ t, execAbort a0 s = .next t ∧ State.Moves [.ctxs, .decisions, .pair, .svc, .out] s t := by
  unfold execAbort
  repeat' (first
    | (with_reducible refine ⟨_, rfl, ?_⟩)
    | with_reducible exact Moves.refl _ _
    | ((with_reducible apply Moves.op (State.complete_moves _ _ _)); decide)
    | (unfold State.run; beta_reduce)
    | with_reducible apply Moves.ite
    | (split <;> beta_reduce))

theorem execAsynchronousEventRequest_moves (a0) (s) : ∃ t, execAsynchronousEventRequest a0 s = .next t ∧ State.Moves [.fa, .fb, .ctxs, .decisions, .pair, .svc, .out] s t := by
  unfold execAsynchronousEventRequest
  repeat' (first
    | (with_reducible refine ⟨_, rfl, ?_⟩)
    | with_reducible exact Moves.refl _ _
    | ((with_reducible apply Moves.op (State.await_moves _ _ _)); decide)
    | ((with_reducible apply Moves.op (State.complete_moves _ _ _)); decide)
    | ((with_reducible apply Moves.op (State.deliverEvents_moves _ _ _)); decide)
    | (unfold State.forHost; beta_reduce)
    | ((with_reducible apply State.modFn_moves); exact fun _ => ⟨rfl, rfl⟩; decide)
    | (unfold State.run; beta_reduce)
    | with_reducible apply Moves.ite
    | (split <;> beta_reduce))

theorem execCreateIoCompletionQueue_moves (a0) (s) : ∃ t, execCreateIoCompletionQueue a0 s = .next t ∧ State.Moves [.fa, .fb, .ctxs, .decisions, .pair, .svc, .out] s t := by
  unfold execCreateIoCompletionQueue
  repeat' (first
    | (with_reducible refine ⟨_, rfl, ?_⟩)
    | with_reducible exact Moves.refl _ _
    | ((with_reducible apply Moves.op (State.complete_moves _ _ _)); decide)
    | (unfold State.forHost; beta_reduce)
    | ((with_reducible apply State.modFn_moves); exact fun _ => ⟨rfl, rfl⟩; decide)
    | (unfold State.orElse; beta_reduce)
    | (unfold State.run; beta_reduce)
    | with_reducible apply Moves.ite
    | (extract_lets +onlyGivenNames v; subst v)
    | (split <;> beta_reduce))

theorem execCreateIoSubmissionQueue_moves (a0) (s) : ∃ t, execCreateIoSubmissionQueue a0 s = .next t ∧ State.Moves [.fa, .fb, .ctxs, .decisions, .pair, .svc, .out] s t := by
  unfold execCreateIoSubmissionQueue
  repeat' (first
    | (with_reducible refine ⟨_, rfl, ?_⟩)
    | with_reducible exact Moves.refl _ _
    | ((with_reducible apply Moves.op (State.complete_moves _ _ _)); decide)
    | (unfold State.forHost; beta_reduce)
    | ((with_reducible apply State.modFn_moves); exact fun _ => ⟨rfl, rfl⟩; decide)
    | (unfold State.orElse; beta_reduce)
    | (unfold State.run; beta_reduce)
    | with_reducible apply Moves.ite
    | (extract_lets +onlyGivenNames v; subst v)
    | (split <;> beta_reduce))

theorem execDeleteIoCompletionQueue_moves (a0) (s) : ∃ t, execDeleteIoCompletionQueue a0 s = .next t ∧ State.Moves [.fa, .fb, .ctxs, .decisions, .pair, .svc, .out] s t := by
  unfold execDeleteIoCompletionQueue
  repeat' (first
    | (with_reducible refine ⟨_, rfl, ?_⟩)
    | with_reducible exact Moves.refl _ _
    | ((with_reducible apply Moves.op (State.complete_moves _ _ _)); decide)
    | (unfold State.forHost; beta_reduce)
    | ((with_reducible apply State.modFn_moves); exact fun _ => ⟨rfl, rfl⟩; decide)
    | (unfold State.run; beta_reduce)
    | with_reducible apply Moves.ite
    | (extract_lets +onlyGivenNames v; subst v)
    | (split <;> beta_reduce))

theorem execDeleteIoSubmissionQueue_moves (a0) (s) : ∃ t, execDeleteIoSubmissionQueue a0 s = .next t ∧ State.Moves [.aon, .nor, .book, .power, .fa, .fb, .ctxs, .decisions, .names, .prot, .ports, .spins, .acts, .seqs, .chorus, .actCals, .mem, .mcache, .pair, .svc, .free, .out] s t := by
  unfold execDeleteIoSubmissionQueue
  repeat' (first
    | (with_reducible refine ⟨_, rfl, ?_⟩)
    | (with_reducible intro)
    | with_reducible exact Moves.refl _ _
    | with_reducible assumption
    | ((with_reducible apply Moves.op (State.await_moves _ _ _)); decide)
    | ((with_reducible apply Moves.op (State.complete_moves _ _ _)); decide)
    | (unfold State.forHost; beta_reduce)
    | ((with_reducible apply Moves.op (State.modSq_moves _ _ _ _)); decide)
    | ((with_reducible apply Moves.op (State.noteClean_moves _)); decide)
    | (unfold State.run; beta_reduce)
    | ((with_reducible apply Moves.op (State.settleDeletions_moves _)); decide)
    | ((with_reducible apply Moves.op (State.settleOrder_moves _)); decide)
    | with_reducible apply Moves.ite
    | with_reducible apply Moves.each
    | (extract_lets +onlyGivenNames u; (with_reducible apply Moves.let (u := u)); (intro h; clear_value u); rotate_left; subst u; rotate_right)
    | (extract_lets +onlyGivenNames v; subst v)
    | (split <;> beta_reduce))

theorem execDoorbellBufferConfig_moves (a0) (s) : ∃ t, execDoorbellBufferConfig a0 s = .next t ∧ State.Moves [.fa, .fb, .ctxs, .decisions, .pair, .svc, .out] s t := by
  unfold execDoorbellBufferConfig
  repeat' (first
    | (with_reducible refine ⟨_, rfl, ?_⟩)
    | with_reducible exact Moves.refl _ _
    | ((with_reducible apply Moves.op (State.complete_moves _ _ _)); decide)
    | (unfold State.forHost; beta_reduce)
    | ((with_reducible apply State.modFn_moves); exact fun _ => ⟨rfl, rfl⟩; decide)
    | (unfold State.run; beta_reduce)
    | with_reducible apply Moves.ite
    | (split <;> beta_reduce))

theorem execIdentify_moves (a0) (s) : ∃ t, execIdentify a0 s = .next t ∧ State.Moves [.ctxs, .decisions, .pair, .svc, .out] s t := by
  unfold execIdentify
  repeat' (first
    | (with_reducible refine ⟨_, rfl, ?_⟩)
    | with_reducible exact Moves.refl _ _
    | ((with_reducible apply Moves.op (State.complete_moves _ _ _)); decide)
    | (unfold State.orElse; beta_reduce)
    | (unfold State.run; beta_reduce)
    | with_reducible apply Moves.ite
    | (extract_lets +onlyGivenNames v; subst v)
    | (split <;> beta_reduce))

theorem execQueueResume_moves (a0) (s) : ∃ t, execQueueResume a0 s = .next t ∧ State.Moves [.fa, .fb, .ctxs, .decisions, .pair, .svc, .out] s t := by
  unfold execQueueResume
  repeat' (first
    | (with_reducible refine ⟨_, rfl, ?_⟩)
    | with_reducible exact Moves.refl _ _
    | ((with_reducible apply Moves.op (State.complete_moves _ _ _)); decide)
    | (unfold State.forHost; beta_reduce)
    | ((with_reducible apply Moves.op (State.modSq_moves _ _ _ _)); decide)
    | (unfold State.orElse; beta_reduce)
    | (unfold State.run; beta_reduce)
    | with_reducible apply Moves.ite
    | (extract_lets +onlyGivenNames v; subst v)
    | (split <;> beta_reduce))

end Sys2Proof.Machine
end

