-- ==== Sys2Proof/Laws/Features.lean ====
section
/-! SUPPORT. What each operation and each command of Machine/Features.lean can do to the state. -/

namespace Sys2Proof.Machine

theorem execGetFeatures_moves (a0) (s) : ∃ t, execGetFeatures a0 s = .next t ∧ State.Moves [.ctxs, .decisions, .pair, .svc, .out] s t := by
  unfold execGetFeatures
  repeat' (first
    | (with_reducible refine ⟨_, rfl, ?_⟩)
    | with_reducible exact Moves.refl _ _
    | ((with_reducible apply Moves.op (State.complete_moves _ _ _)); decide)
    | (unfold State.orElse; beta_reduce)
    | (unfold State.run; beta_reduce)
    | with_reducible apply Moves.ite
    | (extract_lets +onlyGivenNames v; subst v)
    | (split <;> beta_reduce))

theorem execSetFeaturesArbitration_moves (a0) (s) : ∃ t, execSetFeaturesArbitration a0 s = .next t ∧ State.Moves [.fa, .fb, .ctxs, .decisions, .pair, .svc, .out] s t := by
  unfold execSetFeaturesArbitration
  repeat' (first
    | (with_reducible refine ⟨_, rfl, ?_⟩)
    | with_reducible exact Moves.refl _ _
    | ((with_reducible apply Moves.op (State.complete_moves _ _ _)); decide)
    | (unfold State.forHost; beta_reduce)
    | ((with_reducible apply State.modFn_moves); exact fun _ => ⟨rfl, rfl⟩; decide)
    | (unfold State.orElse; beta_reduce)
    | (unfold State.run; beta_reduce)
    | (unfold State.setStandard; beta_reduce)
    | with_reducible apply Moves.ite
    | (split <;> beta_reduce))

theorem execSetFeaturesAsyncEventConfig_moves (a0) (s) : ∃ t, execSetFeaturesAsyncEventConfig a0 s = .next t ∧ State.Moves [.fa, .fb, .ctxs, .decisions, .pair, .svc, .out] s t := by
  unfold execSetFeaturesAsyncEventConfig
  repeat' (first
    | (with_reducible refine ⟨_, rfl, ?_⟩)
    | with_reducible exact Moves.refl _ _
    | ((with_reducible apply Moves.op (State.complete_moves _ _ _)); decide)
    | (unfold State.forHost; beta_reduce)
    | ((with_reducible apply State.modFn_moves); exact fun _ => ⟨rfl, rfl⟩; decide)
    | (unfold State.orElse; beta_reduce)
    | (unfold State.run; beta_reduce)
    | (unfold State.setStandard; beta_reduce)
    | with_reducible apply Moves.ite
    | (split <;> beta_reduce))

theorem execSetFeaturesCalibrationThreshold_moves (a0) (s) : ∃ t, execSetFeaturesCalibrationThreshold a0 s = .next t ∧ State.Moves [.aon, .nor, .book, .ctxs, .decisions, .actCals, .cal, .pair, .svc, .out] s t := by
  unfold execSetFeaturesCalibrationThreshold
  repeat' (first
    | (with_reducible refine ⟨_, rfl, ?_⟩)
    | (with_reducible intro)
    | with_reducible exact Moves.refl _ _
    | with_reducible assumption
    | ((with_reducible apply Moves.op (State.complete_moves _ _ _)); decide)
    | ((with_reducible apply Moves.op (State.modCfg_moves _ _)); decide)
    | ((with_reducible apply Moves.op (State.noteHolds_moves _ _)); decide)
    | (unfold State.orElse; beta_reduce)
    | (unfold State.run; beta_reduce)
    | (unfold State.setVendor; beta_reduce)
    | with_reducible apply Moves.ite
    | with_reducible apply Moves.when
    | with_reducible apply Moves.each
    | (extract_lets +onlyGivenNames v; subst v)
    | (split <;> beta_reduce)
    | (refine Moves.base (u := s) (by with_reducible first | exact Moves.refl _ _ | assumption) ?_ rfl rfl fun h => ⟨h.filled, h.complete, h.ready, h.bufs, h.served, h.therms, h.holds, h.ring, h.ctxs⟩; intro x hx; cases x <;> first | exact absurd (by decide) hx | (unfold State.same; with_reducible rfl)))

theorem execSetFeaturesConcurrentWriteLimit_moves (a0) (s) : ∃ t, execSetFeaturesConcurrentWriteLimit a0 s = .next t ∧ State.Moves [.nor, .power, .ctxs, .decisions, .pair, .svc, .out] s t := by
  unfold execSetFeaturesConcurrentWriteLimit
  repeat' (first
    | (with_reducible refine ⟨_, rfl, ?_⟩)
    | (with_reducible intro)
    | with_reducible exact Moves.refl _ _
    | with_reducible assumption
    | ((with_reducible apply Moves.op (State.complete_moves _ _ _)); decide)
    | ((with_reducible apply Moves.op (State.modCfg_moves _ _)); decide)
    | ((with_reducible apply Moves.op (State.modPower_moves _ _)); decide)
    | (unfold State.orElse; beta_reduce)
    | (unfold State.run; beta_reduce)
    | (unfold State.setVendor; beta_reduce)
    | with_reducible apply Moves.ite
    | with_reducible apply Moves.when
    | (extract_lets +onlyGivenNames v; subst v)
    | (split <;> beta_reduce))

theorem execSetFeaturesFreezeOnError_moves (a0) (s) : ∃ t, execSetFeaturesFreezeOnError a0 s = .next t ∧ State.Moves [.nor, .fa, .fb, .ctxs, .decisions, .pair, .svc, .out] s t := by
  unfold execSetFeaturesFreezeOnError
  repeat' (first
    | (with_reducible refine ⟨_, rfl, ?_⟩)
    | (with_reducible intro)
    | with_reducible exact Moves.refl _ _
    | with_reducible assumption
    | ((with_reducible apply Moves.op (State.complete_moves _ _ _)); decide)
    | ((with_reducible apply Moves.op (State.modCfg_moves _ _)); decide)
    | ((with_reducible apply State.modFn_moves); exact fun _ => ⟨rfl, rfl⟩; decide)
    | (unfold State.orElse; beta_reduce)
    | (unfold State.run; beta_reduce)
    | (unfold State.setVendor; beta_reduce)
    | with_reducible apply Moves.ite
    | with_reducible apply Moves.when
    | (extract_lets +onlyGivenNames v; subst v)
    | (split <;> beta_reduce))

theorem execSetFeaturesInterruptCoalescing_moves (a0) (s) : ∃ t, execSetFeaturesInterruptCoalescing a0 s = .next t ∧ State.Moves [.fa, .fb, .ctxs, .decisions, .pair, .svc, .out] s t := by
  unfold execSetFeaturesInterruptCoalescing
  repeat' (first
    | (with_reducible refine ⟨_, rfl, ?_⟩)
    | with_reducible exact Moves.refl _ _
    | ((with_reducible apply Moves.op (State.complete_moves _ _ _)); decide)
    | (unfold State.forHost; beta_reduce)
    | ((with_reducible apply State.modFn_moves); exact fun _ => ⟨rfl, rfl⟩; decide)
    | (unfold State.orElse; beta_reduce)
    | (unfold State.run; beta_reduce)
    | (unfold State.setStandard; beta_reduce)
    | with_reducible apply Moves.ite
    | (split <;> beta_reduce))

theorem execSetFeaturesInterruptVectorConfig_moves (a0) (s) : ∃ t, execSetFeaturesInterruptVectorConfig a0 s = .next t ∧ State.Moves [.fa, .fb, .ctxs, .decisions, .pair, .svc, .out] s t := by
  unfold execSetFeaturesInterruptVectorConfig
  repeat' (first
    | (with_reducible refine ⟨_, rfl, ?_⟩)
    | with_reducible exact Moves.refl _ _
    | ((with_reducible apply Moves.op (State.complete_moves _ _ _)); decide)
    | (unfold State.forHost; beta_reduce)
    | ((with_reducible apply Moves.op (State.modVec_moves _ _ _ _)); decide)
    | (unfold State.orElse; beta_reduce)
    | (unfold State.run; beta_reduce)
    | (unfold State.setStandard; beta_reduce)
    | with_reducible apply Moves.ite
    | (split <;> beta_reduce))

theorem execSetFeaturesNumberOfQueues_moves (a0) (s) : ∃ t, execSetFeaturesNumberOfQueues a0 s = .next t ∧ State.Moves [.ctxs, .decisions, .pair, .svc, .out] s t := by
  unfold execSetFeaturesNumberOfQueues
  repeat' (first
    | (with_reducible refine ⟨_, rfl, ?_⟩)
    | with_reducible exact Moves.refl _ _
    | ((with_reducible apply Moves.op (State.complete_moves _ _ _)); decide)
    | (unfold State.forHost; beta_reduce)
    | (unfold State.orElse; beta_reduce)
    | (unfold State.run; beta_reduce)
    | (unfold State.setStandard; beta_reduce)
    | with_reducible apply Moves.ite
    | (split <;> beta_reduce))

theorem execSetFeaturesPowerManagement_moves (a0) (s) : ∃ t, execSetFeaturesPowerManagement a0 s = .next t ∧ State.Moves [.fa, .fb, .ctxs, .decisions, .pair, .svc, .out] s t := by
  unfold execSetFeaturesPowerManagement
  repeat' (first
    | (with_reducible refine ⟨_, rfl, ?_⟩)
    | with_reducible exact Moves.refl _ _
    | ((with_reducible apply Moves.op (State.complete_moves _ _ _)); decide)
    | (unfold State.forHost; beta_reduce)
    | ((with_reducible apply State.modFn_moves); exact fun _ => ⟨rfl, rfl⟩; decide)
    | (unfold State.orElse; beta_reduce)
    | (unfold State.run; beta_reduce)
    | (unfold State.setStandard; beta_reduce)
    | with_reducible apply Moves.ite
    | (extract_lets +onlyGivenNames v; subst v)
    | (split <;> beta_reduce))

theorem execSetFeaturesRebuildShare_moves (a0) (s) : ∃ t, execSetFeaturesRebuildShare a0 s = .next t ∧ State.Moves [.nor, .ctxs, .decisions, .chorus, .pair, .svc, .out] s t := by
  unfold execSetFeaturesRebuildShare
  repeat' (first
    | (with_reducible refine ⟨_, rfl, ?_⟩)
    | (with_reducible intro)
    | with_reducible exact Moves.refl _ _
    | with_reducible assumption
    | ((with_reducible apply Moves.op (State.complete_moves _ _ _)); decide)
    | ((with_reducible apply Moves.op (State.modCfg_moves _ _)); decide)
    | ((with_reducible apply Moves.op (State.modChorus_moves _ _)); decide)
    | (unfold State.orElse; beta_reduce)
    | (unfold State.run; beta_reduce)
    | (unfold State.setVendor; beta_reduce)
    | with_reducible apply Moves.ite
    | with_reducible apply Moves.when
    | (extract_lets +onlyGivenNames v; subst v)
    | (split <;> beta_reduce))

theorem execSetFeaturesTemperatureThreshold_moves (a0) (s) : ∃ t, execSetFeaturesTemperatureThreshold a0 s = .next t ∧ State.Moves [.fa, .fb, .ctxs, .decisions, .pair, .svc, .out] s t := by
  unfold execSetFeaturesTemperatureThreshold
  repeat' (first
    | (with_reducible refine ⟨_, rfl, ?_⟩)
    | with_reducible exact Moves.refl _ _
    | ((with_reducible apply Moves.op (State.complete_moves _ _ _)); decide)
    | (unfold State.forHost; beta_reduce)
    | ((with_reducible apply State.modFn_moves); exact fun _ => ⟨rfl, rfl⟩; decide)
    | (unfold State.orElse; beta_reduce)
    | (unfold State.run; beta_reduce)
    | (unfold State.setStandard; beta_reduce)
    | with_reducible apply Moves.ite
    | (extract_lets +onlyGivenNames v; subst v)
    | (split <;> beta_reduce))

theorem execSetFeaturesThrottleGrace_moves (a0) (s) : ∃ t, execSetFeaturesThrottleGrace a0 s = .next t ∧ State.Moves [.nor, .ctxs, .decisions, .therm, .pair, .svc, .out] s t := by
  unfold execSetFeaturesThrottleGrace
  repeat' (first
    | (with_reducible refine ⟨_, rfl, ?_⟩)
    | (with_reducible intro)
    | with_reducible exact Moves.refl _ _
    | with_reducible assumption
    | ((with_reducible apply Moves.op (State.complete_moves _ _ _)); decide)
    | ((with_reducible apply Moves.op (State.modCfg_moves _ _)); decide)
    | ((with_reducible apply Moves.op (State.modTherm_moves _ _)); decide)
    | (unfold State.orElse; beta_reduce)
    | (unfold State.run; beta_reduce)
    | (unfold State.setVendor; beta_reduce)
    | with_reducible apply Moves.ite
    | with_reducible apply Moves.when
    | (extract_lets +onlyGivenNames v; subst v)
    | (split <;> beta_reduce))

theorem execSetFeaturesVolatileWriteCache_moves (a0) (s) : ∃ t, execSetFeaturesVolatileWriteCache a0 s = .next t ∧ State.Moves [.ctxs, .decisions, .names, .pair, .svc, .out] s t := by
  unfold execSetFeaturesVolatileWriteCache
  repeat' (first
    | (with_reducible refine ⟨_, rfl, ?_⟩)
    | with_reducible exact Moves.refl _ _
    | with_reducible assumption
    | ((with_reducible apply Moves.op (State.await_moves _ _ _)); decide)
    | ((with_reducible apply Moves.op (State.complete_moves _ _ _)); decide)
    | (unfold State.forHost; beta_reduce)
    | ((with_reducible apply Moves.op (State.modNames_moves _ _)); decide)
    | (unfold State.orElse; beta_reduce)
    | (unfold State.run; beta_reduce)
    | (unfold State.setStandard; beta_reduce)
    | ((with_reducible apply Moves.op (State.settleWaits_moves _)); decide)
    | with_reducible apply Moves.ite
    | (extract_lets +onlyGivenNames u; (with_reducible apply Moves.let (u := u)); (intro h; clear_value u); rotate_left; subst u; rotate_right)
    | (extract_lets +onlyGivenNames v; subst v)
    | (split <;> beta_reduce))

end Sys2Proof.Machine
end

