-- ==== Sys2Proof/Laws/Recorder.lean ====
section
/-! SUPPORT. What each operation and each command of Machine/Recorder.lean can do to the state. -/

namespace Sys2Proof.Machine

theorem State.pushRecord_moves (a0) (s) : State.Moves [.aon, .book] s (State.pushRecord a0 s) := by
  unfold State.pushRecord
  refine Moves.base (Moves.refl _ s) ?_ rfl rfl fun i => ⟨i.filled, i.complete, i.ready, i.bufs, i.served, i.therms, i.holds, ?_, i.ctxs⟩
  · intro x hx; cases x <;> first | exact absurd (by decide) hx | rfl
  · show (a0 :: s.book.ring.take (ringSize - 1)).length ≤ 16384
    simp [ringSize]

theorem State.pushChain_moves (a0) (a1) (s) : State.Moves [.aon, .book] s (State.pushChain a0 a1 s) := by
  induction a1 generalizing s with
  | nil => exact Moves.refl _ _
  | cons x xs ih =>
    unfold State.pushChain
    repeat' (first
      | with_reducible exact Moves.refl _ _
      | ((with_reducible apply Moves.op (State.pushRecord_moves _ _)); decide)
      | ((with_reducible apply Moves.op (ih _)); exact List.Subset.refl _))

theorem State.writeRecord_moves (a0) (s) : State.Moves [.aon, .book] s (State.writeRecord a0 s) := by
  unfold State.writeRecord
  repeat' (first
    | with_reducible exact Moves.refl _ _
    | ((with_reducible apply State.modBook_moves); exact fun _ => ⟨rfl, rfl⟩; decide)
    | ((with_reducible apply Moves.op (State.pushChain_moves _ _ _)); decide)
    | ((with_reducible apply Moves.op (State.pushRecord_moves _ _)); decide))

theorem State.bootRecord_moves (s) : State.Moves [.aon, .book] s (State.bootRecord s) := by
  unfold State.bootRecord
  refine State.modBook_at rfl ?_ (by decide) (Moves.op (State.writeRecord_moves _ _) (by decide) (Moves.refl _ _))
  intro h
  generalize (State.writeRecord _ s).book = b at h ⊢
  dsimp only
  cases e : b.ring with
  | nil => simp
  | cons r rest => rw [e] at h; simpa using h

theorem State.noteSeq_moves (a0) (a1) (s) : State.Moves [.fa, .fb] s (State.noteSeq a0 a1 s) := by
  unfold State.noteSeq
  repeat' (first
    | with_reducible exact Moves.refl _ _
    | ((with_reducible apply State.modFn_moves); (intro _; (try dsimp only); split <;> exact ⟨rfl, rfl⟩); decide)
    | with_reducible apply Moves.ite)

theorem State.programRecord_moves (a0) (s) : State.Moves [.boot, .nor, .book] s (State.programRecord a0 s) := by
  unfold State.programRecord
  refine Moves.base (Moves.refl _ s) ?_ rfl rfl fun i => ⟨i.filled, i.complete, i.ready, i.bufs, i.served, i.therms, i.holds, i.ring, i.ctxs⟩
  intro x hx; cases x <;> first | exact absurd (by decide) hx | rfl

theorem State.takeHeld_moves (a0) (s) : State.Moves [.aon, .book] s (State.takeHeld a0 s) := by
  unfold State.takeHeld
  split
  · rename_i r rest e
    split
    · refine State.modBook_at rfl ?_ (by decide) (Moves.refl _ _)
      intro h; rw [e] at h; simpa using h
    · exact State.writeRecord_moves _ _
  · exact State.writeRecord_moves _ _

theorem State.reportLoss_moves (s) : State.Moves [.aon, .book] s (State.reportLoss s) := by
  unfold State.reportLoss
  repeat' (first
    | with_reducible exact Moves.refl _ _
    | ((with_reducible apply State.modBook_moves); exact fun _ => ⟨rfl, rfl⟩; decide)
    | ((with_reducible apply Moves.op (State.takeHeld_moves _ _)); decide)
    | with_reducible apply Moves.ite)

theorem State.readCells_moves (a0) (s) : State.Moves [.boot] s (State.readCells a0 s) := by
  unfold State.readCells
  repeat' (first
    | (with_reducible intro)
    | with_reducible exact Moves.refl _ _
    | with_reducible assumption
    | ((with_reducible apply Moves.op (State.norRead_moves _ _ _ _)); decide)
    | with_reducible apply Moves.each
    | with_reducible apply Moves.ite
    | with_reducible apply Moves.when
    | (extract_lets +onlyGivenNames u; (with_reducible apply Moves.let (u := u)); (intro h; clear_value u); rotate_left; subst u; rotate_right)
    | (extract_lets +onlyGivenNames v; subst v)
    | split)

theorem State.restoreRing_moves (s) : State.Moves [.boot, .book] s (State.restoreRing s) := by
  unfold State.restoreRing
  split
  · refine State.modBook_at rfl ?_ (by decide) (Moves.op (State.readCells_moves _ _) (by decide) (Moves.refl _ _))
    intro _; simp [ringSize]
  · exact State.modBook_moves (fun _ => ⟨rfl, rfl⟩) (by decide) (Moves.refl _ _)

theorem State.takeNew_moves (a0) (s) : State.Moves [.aon, .book, .fa, .fb] s (State.takeNew a0 s) := by
  unfold State.takeNew
  repeat' (first
    | with_reducible exact Moves.refl _ _
    | ((with_reducible apply State.modBook_moves); exact fun _ => ⟨rfl, rfl⟩; decide)
    | ((with_reducible apply Moves.op (State.noteSeq_moves _ _ _)); decide)
    | ((with_reducible apply Moves.op (State.writeRecord_moves _ _)); decide)
    | with_reducible apply Moves.ite)

theorem State.take_moves (a0) (s) : State.Moves [.aon, .book, .fa, .fb] s (State.take a0 s) := by
  unfold State.take
  split
  · rename_i r rest e
    split
    · refine Moves.op (State.noteSeq_moves _ _ _) (by decide) (State.modBook_at rfl ?_ (by decide) (Moves.refl _ _))
      intro h; rw [e] at h; simpa using h
    · exact Moves.op (State.takeNew_moves _ _) (by decide) (Moves.refl _ _)
  · exact Moves.op (State.takeNew_moves _ _) (by decide) (Moves.refl _ _)

theorem execClearRemoval_moves (s) : ∃ t, execClearRemoval s = .next t ∧ State.Moves [.boot, .nor, .book] s t := by
  unfold execClearRemoval
  repeat' (first
    | (with_reducible intro)
    | (with_reducible refine ⟨_, rfl, ?_⟩)
    | with_reducible exact Moves.refl _ _
    | with_reducible assumption
    | ((with_reducible apply State.modBook_moves); exact fun _ => ⟨rfl, rfl⟩; decide)
    | ((with_reducible apply Moves.op (State.modNor_moves _ _)); decide)
    | ((with_reducible apply Moves.op (State.norErase_moves _ _ _ _)); decide)
    | ((with_reducible apply Moves.op (State.norProgram_moves _ _ _ _)); decide)
    | with_reducible apply Moves.each
    | with_reducible apply Moves.ite
    | with_reducible apply Moves.when
    | (extract_lets +onlyGivenNames u; (with_reducible apply Moves.let (u := u)); (intro h; clear_value u); rotate_left; subst u; rotate_right)
    | (extract_lets +onlyGivenNames v; subst v)
    | (refine Moves.base (u := s) (by with_reducible first | exact Moves.refl _ _ | assumption) ?_ rfl rfl fun h => ⟨h.filled, h.complete, h.ready, h.bufs, h.served, h.therms, h.holds, h.ring, h.ctxs⟩; intro x hx; cases x <;> first | exact absurd (by decide) hx | (unfold State.same; with_reducible rfl))
    | (split <;> beta_reduce))

theorem execDropWindowEnd_moves (s) : ∃ t, execDropWindowEnd s = .next t ∧ State.Moves [.now, .aon, .book] s t := by
  unfold execDropWindowEnd
  repeat' (first
    | (with_reducible refine ⟨_, rfl, ?_⟩)
    | with_reducible exact Moves.refl _ _
    | ((with_reducible apply Moves.op (State.at__moves _ _)); decide)
    | ((with_reducible apply State.modBook_moves); exact fun _ => ⟨rfl, rfl⟩; decide)
    | ((with_reducible apply Moves.op (State.takeHeld_moves _ _)); decide)
    | with_reducible apply Moves.ite)

theorem execEventRecord_moves (a0) (s) : ∃ t, execEventRecord a0 s = .next t ∧ State.Moves [.aon, .book, .fa, .fb] s t := by
  unfold execEventRecord
  repeat' (first
    | (with_reducible refine ⟨_, rfl, ?_⟩)
    | with_reducible exact Moves.refl _ _
    | ((with_reducible apply State.modBook_moves); exact fun _ => ⟨rfl, rfl⟩; decide)
    | ((with_reducible apply Moves.op (State.take_moves _ _)); decide)
    | with_reducible apply Moves.ite
    | (split <;> beta_reduce))

theorem State.takeNoted_moves (a0) (s) : State.Moves [.aon, .book, .fa, .fb] s (State.takeNoted a0 s) :=
  Moves.op (State.noteSeq_moves _ _ _) (by decide) (Moves.op (State.takeHeld_moves _ _) (by decide) (Moves.refl _ _))

theorem execHeldEventsWrite_moves (s) : ∃ t, execHeldEventsWrite s = .next t ∧ State.Moves [.aon, .boot, .book, .fa, .fb] s t := by
  unfold execHeldEventsWrite
  refine ⟨_, rfl, ?_⟩
  split
  · extract_lets t0 t1 t2 t3 t4 t5 t6 t7 t8
    have k : ∀ {u : State} (f : Recorder → Recorder) (hf : ∀ a, (f a).held = a.held ∧ (f a).ring = a.ring), s.Moves [.aon, .boot, .book, .fa, .fb] u →
        s.Moves [.aon, .boot, .book, .fa, .fb] (u.modBook f) := fun f hf hu => State.modBook_moves hf (by decide) hu
    have h0 : s.Moves [.aon, .boot, .book, .fa, .fb] t0 := Moves.op (State.restoreRing_moves _) (by decide) (k _ (fun _ => ⟨rfl, rfl⟩) (Moves.refl _ _))
    clear_value t0
    have h1 : s.Moves [.aon, .boot, .book, .fa, .fb] t1 := k _ (fun _ => ⟨rfl, rfl⟩) h0
    clear_value t1
    have h2 : s.Moves [.aon, .boot, .book, .fa, .fb] t2 := State.modAon_moves (fun _ => ⟨rfl, rfl⟩) (by decide) h1
    clear_value t2
    have e : ∀ (l : List Event) {u : State}, s.Moves [.aon, .boot, .book, .fa, .fb] u → s.Moves [.aon, .boot, .book, .fa, .fb] (u.each l State.takeHeld) := fun l _ hu =>
      Moves.each (fun x v hv => Moves.op (State.takeHeld_moves _ _) (by decide) hv) hu
    have h3 : s.Moves [.aon, .boot, .book, .fa, .fb] t3 := e _ h2
    clear_value t3
    have h4 : s.Moves [.aon, .boot, .book, .fa, .fb] t4 := Moves.when (fun u hu => Moves.op (State.takeHeld_moves _ _) (by decide) hu) h3
    clear_value t4
    have h5 : s.Moves [.aon, .boot, .book, .fa, .fb] t5 := e _ h4
    clear_value t5
    have h6 : s.Moves [.aon, .boot, .book, .fa, .fb] t6 := Moves.each (fun x v hv => Moves.op (State.takeNoted_moves _ _) (by decide) hv) h5
    clear_value t6
    have h7 : s.Moves [.aon, .boot, .book, .fa, .fb] t7 := Moves.when (fun u hu => Moves.op (State.takeHeld_moves _ _) (by decide) hu) h6
    clear_value t7
    have h8 : s.Moves [.aon, .boot, .book, .fa, .fb] t8 := Moves.op (State.bootRecord_moves _) (by decide) h7
    clear_value t8
    exact State.modBook_any (Nat.zero_le _) id (by decide) (State.modAon_at (fun i r => i.filled r) (fun _ => Nat.zero_le _) (by decide) h8)
  · exact Moves.refl _ _

theorem execRecordClose_moves (s) : ∃ t, execRecordClose s = .next t ∧ State.Moves [.now, .book] s t := by
  unfold execRecordClose
  repeat' (first
    | (with_reducible refine ⟨_, rfl, ?_⟩)
    | with_reducible exact Moves.refl _ _
    | ((with_reducible apply Moves.op (State.at__moves _ _)); decide)
    | ((with_reducible apply State.modBook_moves); exact fun _ => ⟨rfl, rfl⟩; decide)
    | with_reducible apply Moves.ite)

theorem execRecorderClear_moves (a0) (s) : ∃ t, execRecorderClear a0 s = .next t ∧ State.Moves [.aon, .boot, .nor, .book, .ctxs, .decisions, .pair, .svc, .out] s t := by
  unfold execRecorderClear
  repeat' (first
    | (with_reducible intro)
    | (with_reducible refine ⟨_, rfl, ?_⟩)
    | with_reducible exact Moves.refl _ _
    | with_reducible assumption
    | ((with_reducible apply State.modBook_at); rfl; (intro h; simpa [mapWhere] using h); decide)
    | ((with_reducible apply Moves.op (State.complete_moves _ _ _)); decide)
    | ((with_reducible apply State.modBook_moves); exact fun _ => ⟨rfl, rfl⟩; decide)
    | (unfold State.orElse; beta_reduce)
    | ((with_reducible apply Moves.op (State.programRecord_moves _ _)); decide)
    | ((with_reducible apply Moves.op (State.readCells_moves _ _)); decide)
    | ((with_reducible apply Moves.op (State.reportLoss_moves _)); decide)
    | (unfold State.run; beta_reduce)
    | ((with_reducible apply Moves.op (State.writeRecord_moves _ _)); decide)
    | with_reducible apply Moves.each
    | with_reducible apply Moves.ite
    | with_reducible apply Moves.when
    | (extract_lets +onlyGivenNames u; (with_reducible apply Moves.let (u := u)); (intro h; clear_value u); rotate_left; subst u; rotate_right)
    | (extract_lets +onlyGivenNames v; subst v)
    | (split <;> beta_reduce))

theorem execRecorderRead_moves (a0) (s) : ∃ t, execRecorderRead a0 s = .next t ∧ State.Moves [.boot, .ctxs, .decisions, .pair, .svc, .out] s t := by
  unfold execRecorderRead
  repeat' (first
    | (with_reducible intro)
    | (with_reducible refine ⟨_, rfl, ?_⟩)
    | with_reducible exact Moves.refl _ _
    | with_reducible assumption
    | ((with_reducible apply Moves.op (State.complete_moves _ _ _)); decide)
    | (unfold State.orElse; beta_reduce)
    | ((with_reducible apply Moves.op (State.readCells_moves _ _)); decide)
    | (unfold State.run; beta_reduce)
    | with_reducible apply Moves.each
    | with_reducible apply Moves.ite
    | with_reducible apply Moves.when
    | (extract_lets +onlyGivenNames u; (with_reducible apply Moves.let (u := u)); (intro h; clear_value u); rotate_left; subst u; rotate_right)
    | (extract_lets +onlyGivenNames v; subst v)
    | (split <;> beta_reduce))

theorem execStoreErase_moves (s) : ∃ t, execStoreErase s = .next t ∧ State.Moves [.boot, .nor] s t := by
  unfold execStoreErase
  repeat' (first
    | (with_reducible intro)
    | (with_reducible refine ⟨_, rfl, ?_⟩)
    | with_reducible exact Moves.refl _ _
    | with_reducible assumption
    | ((with_reducible apply Moves.op (State.modNor_moves _ _)); decide)
    | ((with_reducible apply Moves.op (State.norErase_moves _ _ _ _)); decide)
    | with_reducible apply Moves.ite
    | with_reducible apply Moves.when
    | (extract_lets +onlyGivenNames u; (with_reducible apply Moves.let (u := u)); (intro h; clear_value u); rotate_left; subst u; rotate_right)
    | (extract_lets +onlyGivenNames v; subst v)
    | (split <;> beta_reduce))

theorem execStoreProgram_moves (a0) (s) : ∃ t, execStoreProgram a0 s = .next t ∧ State.Moves [.aon, .boot, .nor, .book] s t := by
  unfold execStoreProgram
  repeat' (first
    | (with_reducible intro)
    | (with_reducible refine ⟨_, rfl, ?_⟩)
    | with_reducible exact Moves.refl _ _
    | with_reducible assumption
    | ((with_reducible apply State.modBook_moves); exact fun _ => ⟨rfl, rfl⟩; decide)
    | ((with_reducible apply Moves.op (State.modNor_moves _ _)); decide)
    | ((with_reducible apply Moves.op (State.norProgram_moves _ _ _ _)); decide)
    | ((with_reducible apply Moves.op (State.programRecord_moves _ _)); decide)
    | ((with_reducible apply Moves.op (State.reportLoss_moves _)); decide)
    | with_reducible apply Moves.ite
    | with_reducible apply Moves.when
    | (extract_lets +onlyGivenNames u; (with_reducible apply Moves.let (u := u)); (intro h; clear_value u); rotate_left; subst u; rotate_right)
    | (extract_lets +onlyGivenNames v; subst v)
    | (refine Moves.base (u := s) (by with_reducible first | exact Moves.refl _ _ | assumption) ?_ rfl rfl fun h => ⟨h.filled, h.complete, h.ready, h.bufs, h.served, h.therms, h.holds, h.ring, h.ctxs⟩; intro x hx; cases x <;> first | exact absurd (by decide) hx | (unfold State.same; with_reducible rfl))
    | (split <;> beta_reduce))

end Sys2Proof.Machine
end

