-- ==== Sys2Proof/Laws/Flags.lean ====
section
/-! SUPPORT. What each operation and each command of Machine/Flags.lean can do to the state. -/

namespace Sys2Proof.Machine

theorem State.writeReg_moves (a0) (a1) (s) : State.Moves [.aon, .prot, .ports, .spins, .acts, .seqs, .chorus, .actCals, .mem, .xing, .therm, .pair] s (State.writeReg a0 a1 s) := by
  unfold State.writeReg
  repeat' (first
    | with_reducible exact Moves.refl _ _
    | ((with_reducible apply Moves.op (State.modAcal_moves _ _ _)); decide)
    | ((with_reducible apply Moves.op (State.modAct_moves _ _ _)); decide)
    | ((with_reducible apply State.modAon_moves); exact fun _ => ⟨rfl, rfl⟩; decide)
    | ((with_reducible apply Moves.op (State.modChorus_moves _ _)); decide)
    | ((with_reducible apply Moves.op (State.modEng_moves _ _ _)); decide)
    | ((with_reducible apply Moves.op (State.modMem_moves _ _)); decide)
    | ((with_reducible apply Moves.op (State.modPair_moves _ _)); decide)
    | ((with_reducible apply State.modPort_moves); exact fun _ => ⟨rfl, rfl⟩; decide)
    | ((with_reducible apply Moves.op (State.modProt_moves _ _)); decide)
    | ((with_reducible apply Moves.op (State.modSeq_moves _ _ _)); decide)
    | ((with_reducible apply Moves.op (State.modSpin_moves _ _ _)); decide)
    | ((with_reducible apply Moves.op (State.modTherm_moves _ _)); decide)
    | ((with_reducible apply Moves.op (State.modXing_moves _ _)); decide)
    | with_reducible apply Moves.ite
    | split)

theorem State.clearRc_moves (a0) (s) : State.Moves [.book, .ports, .chorus, .mem, .mcache, .xing, .pair] s (State.clearRc a0 s) := by
  unfold State.clearRc
  repeat' (first
    | with_reducible exact Moves.refl _ _
    | ((with_reducible apply State.modBook_moves); exact fun _ => ⟨rfl, rfl⟩; decide)
    | ((with_reducible apply Moves.op (State.modCache_moves _ _)); decide)
    | ((with_reducible apply Moves.op (State.modChorus_moves _ _)); decide)
    | ((with_reducible apply Moves.op (State.modMem_moves _ _)); decide)
    | ((with_reducible apply Moves.op (State.modPair_moves _ _)); decide)
    | ((with_reducible apply State.modPort_moves); exact fun _ => ⟨rfl, rfl⟩; decide)
    | ((with_reducible apply State.modPort_moves); (intro _; (try dsimp only); split <;> exact ⟨rfl, rfl⟩); decide)
    | ((with_reducible apply Moves.op (State.modXing_moves _ _)); decide)
    | with_reducible apply Moves.ite
    | split)

end Sys2Proof.Machine
end

