-- ==== Sys2Proof/Laws/Logs.lean ====
section
/-! SUPPORT. What each operation and each command of Machine/Logs.lean can do to the state. -/

namespace Sys2Proof.Machine

theorem State.giveLog_moves (a0) (a1) (a2) (a3) (s) : State.Moves [.fa, .fb, .ctxs, .decisions, .pair, .svc, .out] s (State.giveLog a0 a1 a2 a3 s) := by
  unfold State.giveLog
  repeat' (first
    | (with_reducible intro)
    | with_reducible exact Moves.refl _ _
    | with_reducible assumption
    | ((with_reducible apply Moves.op (State.complete_moves _ _ _)); decide)
    | ((with_reducible apply Moves.op (State.logRead_moves _ _ _)); decide)
    | with_reducible apply Moves.ite
    | with_reducible apply Moves.when
    | split)

theorem execGetLogPageAna_moves (a0) (s) : ∃ t, execGetLogPageAna a0 s = .next t ∧ State.Moves [.fa, .fb, .ctxs, .decisions, .pair, .svc, .out] s t := by
  unfold execGetLogPageAna
  repeat' (first
    | (with_reducible refine ⟨_, rfl, ?_⟩)
    | with_reducible exact Moves.refl _ _
    | ((with_reducible apply Moves.op (State.giveLog_moves _ _ _ _ _)); decide)
    | (unfold State.run; beta_reduce)
    | (unfold State.runLog; beta_reduce)
    | with_reducible apply Moves.ite
    | (extract_lets +onlyGivenNames v; subst v)
    | (split <;> beta_reduce))

theorem execGetLogPageCommandsSupported_moves (a0) (s) : ∃ t, execGetLogPageCommandsSupported a0 s = .next t ∧ State.Moves [.fa, .fb, .ctxs, .decisions, .pair, .svc, .out] s t := by
  unfold execGetLogPageCommandsSupported
  repeat' (first
    | (with_reducible refine ⟨_, rfl, ?_⟩)
    | with_reducible exact Moves.refl _ _
    | ((with_reducible apply Moves.op (State.giveLog_moves _ _ _ _ _)); decide)
    | (unfold State.run; beta_reduce)
    | (unfold State.runLog; beta_reduce)
    | with_reducible apply Moves.ite
    | (split <;> beta_reduce))

theorem execGetLogPageErrorInformation_moves (a0) (s) : ∃ t, execGetLogPageErrorInformation a0 s = .next t ∧ State.Moves [.fa, .fb, .ctxs, .decisions, .pair, .svc, .free, .out] s t := by
  unfold execGetLogPageErrorInformation
  repeat' (first
    | (with_reducible refine ⟨_, rfl, ?_⟩)
    | with_reducible exact Moves.refl _ _
    | with_reducible assumption
    | ((with_reducible apply Moves.op (State.complete_moves _ _ _)); decide)
    | (unfold State.forHost; beta_reduce)
    | ((with_reducible apply Moves.op (State.giveLog_moves _ _ _ _ _)); decide)
    | ((with_reducible apply State.modFn_moves); exact fun _ => ⟨rfl, rfl⟩; decide)
    | (unfold State.run; beta_reduce)
    | (unfold State.runLog; beta_reduce)
    | with_reducible apply Moves.ite
    | (extract_lets +onlyGivenNames u; (with_reducible apply Moves.let (u := u)); (intro h; clear_value u); rotate_left; subst u; rotate_right)
    | (extract_lets +onlyGivenNames v; subst v)
    | (split <;> beta_reduce)
    | (refine Moves.base (u := s) (by with_reducible first | exact Moves.refl _ _ | assumption) ?_ rfl rfl fun h => ⟨h.filled, h.complete, h.ready, h.bufs, h.served, h.therms, h.holds, h.ring, h.ctxs⟩; intro x hx; cases x <;> first | exact absurd (by decide) hx | (unfold State.same; with_reducible rfl)))

theorem State.readBill_moves (a0) (s) : State.Moves [.boot] s (State.readBill a0 s) := by
  unfold State.readBill
  repeat' (first
    | (with_reducible intro)
    | with_reducible exact Moves.refl _ _
    | with_reducible assumption
    | ((with_reducible apply Moves.op (State.norRead_moves _ _ _ _)); decide)
    | with_reducible apply Moves.each
    | with_reducible apply Moves.ite
    | with_reducible apply Moves.when
    | (extract_lets +onlyGivenNames u; (with_reducible apply Moves.let (u := u)); (intro h; clear_value u); rotate_left; subst u; rotate_right)
    | (extract_lets +onlyGivenNames v; subst v)
    | split)

theorem execGetLogPagePlaybill_moves (a0) (s) : ∃ t, execGetLogPagePlaybill a0 s = .next t ∧ State.Moves [.boot, .fa, .fb, .ctxs, .decisions, .pair, .svc, .out] s t := by
  unfold execGetLogPagePlaybill
  repeat' (first
    | (with_reducible intro)
    | (with_reducible refine ⟨_, rfl, ?_⟩)
    | with_reducible exact Moves.refl _ _
    | with_reducible assumption
    | ((with_reducible apply Moves.op (State.complete_moves _ _ _)); decide)
    | ((with_reducible apply Moves.op (State.giveLog_moves _ _ _ _ _)); decide)
    | ((with_reducible apply Moves.op (State.readBill_moves _ _)); decide)
    | (unfold State.run; beta_reduce)
    | (unfold State.runLog; beta_reduce)
    | with_reducible apply Moves.each
    | with_reducible apply Moves.ite
    | with_reducible apply Moves.when
    | (extract_lets +onlyGivenNames u; (with_reducible apply Moves.let (u := u)); (intro h; clear_value u); rotate_left; subst u; rotate_right)
    | (extract_lets +onlyGivenNames v; subst v)
    | (split <;> beta_reduce))

theorem execGetLogPagePortInventory_moves (a0) (s) : ∃ t, execGetLogPagePortInventory a0 s = .next t ∧ State.Moves [.fa, .fb, .ctxs, .decisions, .pair, .svc, .out] s t := by
  unfold execGetLogPagePortInventory
  repeat' (first
    | (with_reducible refine ⟨_, rfl, ?_⟩)
    | with_reducible exact Moves.refl _ _
    | ((with_reducible apply Moves.op (State.complete_moves _ _ _)); decide)
    | ((with_reducible apply Moves.op (State.giveLog_moves _ _ _ _ _)); decide)
    | (unfold State.orElse; beta_reduce)
    | (unfold State.run; beta_reduce)
    | (unfold State.runLog; beta_reduce)
    | (unfold State.wholeLog; beta_reduce)
    | with_reducible apply Moves.ite
    | (split <;> beta_reduce))

theorem execGetLogPagePromptBook_moves (a0) (s) : ∃ t, execGetLogPagePromptBook a0 s = .next t ∧ State.Moves [.fa, .fb, .ctxs, .decisions, .pair, .svc, .out] s t := by
  unfold execGetLogPagePromptBook
  repeat' (first
    | (with_reducible refine ⟨_, rfl, ?_⟩)
    | with_reducible exact Moves.refl _ _
    | ((with_reducible apply Moves.op (State.complete_moves _ _ _)); decide)
    | ((with_reducible apply Moves.op (State.giveLog_moves _ _ _ _ _)); decide)
    | (unfold State.orElse; beta_reduce)
    | (unfold State.run; beta_reduce)
    | (unfold State.runLog; beta_reduce)
    | (unfold State.wholeLog; beta_reduce)
    | with_reducible apply Moves.ite
    | (split <;> beta_reduce))

theorem execGetLogPageSledHealth_moves (a0) (s) : ∃ t, execGetLogPageSledHealth a0 s = .next t ∧ State.Moves [.fa, .fb, .ctxs, .decisions, .pair, .svc, .out] s t := by
  unfold execGetLogPageSledHealth
  repeat' (first
    | (with_reducible refine ⟨_, rfl, ?_⟩)
    | with_reducible exact Moves.refl _ _
    | ((with_reducible apply Moves.op (State.complete_moves _ _ _)); decide)
    | ((with_reducible apply Moves.op (State.giveLog_moves _ _ _ _ _)); decide)
    | (unfold State.orElse; beta_reduce)
    | (unfold State.run; beta_reduce)
    | (unfold State.runLog; beta_reduce)
    | (unfold State.wholeLog; beta_reduce)
    | with_reducible apply Moves.ite
    | (split <;> beta_reduce))

theorem execGetLogPageSmartHealth_moves (a0) (s) : ∃ t, execGetLogPageSmartHealth a0 s = .next t ∧ State.Moves [.fa, .fb, .ctxs, .decisions, .pair, .svc, .out] s t := by
  unfold execGetLogPageSmartHealth
  repeat' (first
    | (with_reducible refine ⟨_, rfl, ?_⟩)
    | with_reducible exact Moves.refl _ _
    | ((with_reducible apply Moves.op (State.giveLog_moves _ _ _ _ _)); decide)
    | (unfold State.run; beta_reduce)
    | (unfold State.runLog; beta_reduce)
    | with_reducible apply Moves.ite
    | (extract_lets +onlyGivenNames v; subst v)
    | (split <;> beta_reduce))

end Sys2Proof.Machine
end

