-- ==== Sys2Proof/Laws/Firmware.lean ====
section
/-! SUPPORT. What each operation and each command of Machine/Firmware.lean can do to the state. -/

namespace Sys2Proof.Machine

theorem State.give_moves (a0) (a1) (a2) (s) : State.Moves [.ctxs, .decisions, .pair, .svc, .out] s (State.give a0 a1 a2 s) := by
  unfold State.give
  repeat' (first
    | with_reducible exact Moves.refl _ _
    | ((with_reducible apply Moves.op (State.complete_moves _ _ _)); decide))

theorem State.setNonce_moves (a0) (a1) (s) : State.Moves [.ident] s (State.setNonce a0 a1 s) := by
  unfold State.setNonce
  repeat' (first
    | with_reducible exact Moves.refl _ _
    | ((with_reducible apply Moves.op (State.modIdent_moves _ _)); decide))

theorem State.startStaging_moves (a0) (a1) (a2) (s) : State.Moves [.nor, .ctxs, .decisions, .pair, .svc, .out] s (State.startStaging a0 a1 a2 s) := by
  unfold State.startStaging
  repeat' (first
    | (with_reducible intro)
    | with_reducible exact Moves.refl _ _
    | with_reducible assumption
    | ((with_reducible apply Moves.op (State.complete_moves _ _ _)); decide)
    | ((with_reducible apply Moves.op (State.startOp_moves _ _)); decide)
    | (unfold State.startSingle; beta_reduce)
    | with_reducible apply Moves.each
    | with_reducible apply Moves.ite
    | with_reducible apply Moves.when
    | (extract_lets +onlyGivenNames u; (with_reducible apply Moves.let (u := u)); (intro h; clear_value u); rotate_left; subst u; rotate_right)
    | (extract_lets +onlyGivenNames v; subst v)
    | split)

theorem execFirmwareCommitPrefer_moves (a0) (s) : ∃ t, execFirmwareCommitPrefer a0 s = .next t ∧ State.Moves [.boot, .nor, .ctxs, .decisions, .pair, .svc, .out] s t := by
  unfold execFirmwareCommitPrefer
  repeat' (first
    | (with_reducible intro)
    | (with_reducible refine ⟨_, rfl, ?_⟩)
    | with_reducible exact Moves.refl _ _
    | with_reducible assumption
    | ((with_reducible apply Moves.op (State.complete_moves _ _ _)); decide)
    | (unfold State.orElse; beta_reduce)
    | (unfold State.run; beta_reduce)
    | ((with_reducible apply Moves.op (State.writeDir_moves _ _)); decide)
    | with_reducible apply Moves.each
    | with_reducible apply Moves.ite
    | with_reducible apply Moves.when
    | (extract_lets +onlyGivenNames u; (with_reducible apply Moves.let (u := u)); (intro h; clear_value u); rotate_left; subst u; rotate_right)
    | (extract_lets +onlyGivenNames v; subst v)
    | (split <;> beta_reduce))

theorem State.commitStage_moves (a0) (a1) (s) : State.Moves [.nor, .ctxs, .decisions, .pair, .svc, .out] s (State.commitStage a0 a1 s) := by
  unfold State.commitStage
  repeat' (first
    | (with_reducible intro)
    | with_reducible exact Moves.refl _ _
    | with_reducible assumption
    | ((with_reducible apply Moves.op (State.complete_moves _ _ _)); decide)
    | (unfold State.orElse; beta_reduce)
    | ((with_reducible apply Moves.op (State.startStaging_moves _ _ _ _)); decide)
    | with_reducible apply Moves.each
    | with_reducible apply Moves.ite
    | with_reducible apply Moves.when
    | (extract_lets +onlyGivenNames u; (with_reducible apply Moves.let (u := u)); (intro h; clear_value u); rotate_left; subst u; rotate_right)
    | (extract_lets +onlyGivenNames v; subst v)
    | split)

theorem execFirmwareCommitStage_moves (a0) (s) : ∃ t, execFirmwareCommitStage a0 s = .next t ∧ State.Moves [.nor, .ctxs, .decisions, .pair, .svc, .out] s t := by
  unfold execFirmwareCommitStage
  repeat' (first
    | (with_reducible intro)
    | (with_reducible refine ⟨_, rfl, ?_⟩)
    | with_reducible exact Moves.refl _ _
    | with_reducible assumption
    | ((with_reducible apply Moves.op (State.commitStage_moves _ _ _)); decide)
    | (unfold State.run; beta_reduce)
    | with_reducible apply Moves.each
    | with_reducible apply Moves.ite
    | with_reducible apply Moves.when
    | (extract_lets +onlyGivenNames u; (with_reducible apply Moves.let (u := u)); (intro h; clear_value u); rotate_left; subst u; rotate_right)
    | (extract_lets +onlyGivenNames v; subst v)
    | (split <;> beta_reduce))

theorem execFirmwareCommitStagePrefer_moves (a0) (s) : ∃ t, execFirmwareCommitStagePrefer a0 s = .next t ∧ State.Moves [.nor, .ctxs, .decisions, .pair, .svc, .out] s t := by
  unfold execFirmwareCommitStagePrefer
  repeat' (first
    | (with_reducible intro)
    | (with_reducible refine ⟨_, rfl, ?_⟩)
    | with_reducible exact Moves.refl _ _
    | with_reducible assumption
    | ((with_reducible apply Moves.op (State.commitStage_moves _ _ _)); decide)
    | (unfold State.run; beta_reduce)
    | with_reducible apply Moves.each
    | with_reducible apply Moves.ite
    | with_reducible apply Moves.when
    | (extract_lets +onlyGivenNames u; (with_reducible apply Moves.let (u := u)); (intro h; clear_value u); rotate_left; subst u; rotate_right)
    | (extract_lets +onlyGivenNames v; subst v)
    | (split <;> beta_reduce))

theorem execFirmwareImageDownload_moves (a0) (s) : ∃ t, execFirmwareImageDownload a0 s = .next t ∧ State.Moves [.fa, .fb, .ctxs, .decisions, .pair, .svc, .out] s t := by
  unfold execFirmwareImageDownload
  refine ⟨_, rfl, ?_⟩
  unfold State.run
  split
  · split
    · beta_reduce
      unfold State.forHost
      split
      · rename_i f _
        extract_lets n off
        unfold State.orElse
        beta_reduce
        split
        · exact Moves.op (State.complete_moves _ _ _) (by decide) (Moves.refl _ _)
        · refine Moves.op (State.complete_moves _ _ _) (by decide) (State.modFn_at (fun i r => ?_) (fun i => bufWrite_wf _ _ _ ?_)
            (by decide) (Moves.refl _ _))
          · cases f
            · exact i.ready.1 r
            · exact i.ready.2 r
          · cases f
            · exact i.bufs.2.2.1
            · exact i.bufs.2.2.2
      · exact Moves.op (State.complete_moves _ _ _) (by decide) (Moves.refl _ _)
    · exact Moves.refl _ _
  · exact Moves.refl _ _

theorem execFirmwareStagingBlock_moves (a0) (s) : ∃ t, execFirmwareStagingBlock a0 s = .next t ∧ State.Moves [.boot, .nor] s t := by
  unfold execFirmwareStagingBlock
  repeat' (first
    | (with_reducible intro)
    | (with_reducible refine ⟨_, rfl, ?_⟩)
    | with_reducible exact Moves.refl _ _
    | with_reducible assumption
    | ((with_reducible apply Moves.op (State.endOp_moves _ _ _ _)); decide)
    | ((with_reducible apply Moves.op (State.modNor_moves _ _)); decide)
    | ((with_reducible apply Moves.op (State.modOp_moves _ _ _)); decide)
    | ((with_reducible apply Moves.op (State.norErase_moves _ _ _ _)); decide)
    | ((with_reducible apply Moves.op (State.norProgram_moves _ _ _ _)); decide)
    | ((with_reducible apply Moves.op (State.norRead_moves _ _ _ _)); decide)
    | ((with_reducible apply Moves.op (State.opPoint_moves _ _)); decide)
    | ((with_reducible apply Moves.op (State.writeDir_moves _ _)); decide)
    | with_reducible apply Moves.ite
    | with_reducible apply Moves.when
    | (extract_lets +onlyGivenNames u; (with_reducible apply Moves.let (u := u)); (intro h; clear_value u); rotate_left; subst u; rotate_right)
    | (extract_lets +onlyGivenNames v; subst v)
    | (split <;> beta_reduce))

theorem execKeyManifestUpdate_moves (a0) (a1) (s) : ∃ t, execKeyManifestUpdate a0 a1 s = .next t ∧ State.Moves [.boot, .nor, .ctxs, .decisions, .pair, .svc, .out] s t := by
  unfold execKeyManifestUpdate
  repeat' (first
    | (with_reducible intro)
    | (with_reducible refine ⟨_, rfl, ?_⟩)
    | with_reducible exact Moves.refl _ _
    | with_reducible assumption
    | ((with_reducible apply Moves.op (State.complete_moves _ _ _)); decide)
    | ((with_reducible apply Moves.op (State.modNor_moves _ _)); decide)
    | ((with_reducible apply Moves.op (State.norErase_moves _ _ _ _)); decide)
    | ((with_reducible apply Moves.op (State.norProgram_moves _ _ _ _)); decide)
    | (unfold State.orElse; beta_reduce)
    | (unfold State.run; beta_reduce)
    | (unfold State.runSecurity; beta_reduce)
    | with_reducible apply Moves.each
    | with_reducible apply Moves.ite
    | with_reducible apply Moves.when
    | (extract_lets +onlyGivenNames u; (with_reducible apply Moves.let (u := u)); (intro h; clear_value u); rotate_left; subst u; rotate_right)
    | (extract_lets +onlyGivenNames v; subst v)
    | (split <;> beta_reduce))

theorem execQuote_moves (a0) (s) : ∃ t, execQuote a0 s = .next t ∧ State.Moves [.ident, .ctxs, .decisions, .pair, .svc, .out] s t := by
  unfold execQuote
  repeat' (first
    | (with_reducible refine ⟨_, rfl, ?_⟩)
    | with_reducible exact Moves.refl _ _
    | ((with_reducible apply Moves.op (State.complete_moves _ _ _)); decide)
    | ((with_reducible apply Moves.op (State.give_moves _ _ _ _)); decide)
    | (unfold State.orElse; beta_reduce)
    | (unfold State.run; beta_reduce)
    | (unfold State.runSecurity; beta_reduce)
    | ((with_reducible apply Moves.op (State.setNonce_moves _ _ _)); decide)
    | with_reducible apply Moves.ite
    | (split <;> beta_reduce))

theorem execSecurityReceiveCertificate_moves (a0) (s) : ∃ t, execSecurityReceiveCertificate a0 s = .next t ∧ State.Moves [.ctxs, .decisions, .pair, .svc, .out] s t := by
  unfold execSecurityReceiveCertificate
  repeat' (first
    | (with_reducible refine ⟨_, rfl, ?_⟩)
    | with_reducible exact Moves.refl _ _
    | ((with_reducible apply Moves.op (State.complete_moves _ _ _)); decide)
    | ((with_reducible apply Moves.op (State.give_moves _ _ _ _)); decide)
    | (unfold State.orElse; beta_reduce)
    | (unfold State.run; beta_reduce)
    | (unfold State.runSecurity; beta_reduce)
    | with_reducible apply Moves.ite
    | (split <;> beta_reduce))

theorem execSecurityReceiveDirectory_moves (a0) (s) : ∃ t, execSecurityReceiveDirectory a0 s = .next t ∧ State.Moves [.ctxs, .decisions, .pair, .svc, .out] s t := by
  unfold execSecurityReceiveDirectory
  repeat' (first
    | (with_reducible refine ⟨_, rfl, ?_⟩)
    | with_reducible exact Moves.refl _ _
    | ((with_reducible apply Moves.op (State.complete_moves _ _ _)); decide)
    | ((with_reducible apply Moves.op (State.give_moves _ _ _ _)); decide)
    | (unfold State.orElse; beta_reduce)
    | (unfold State.run; beta_reduce)
    | (unfold State.runSecurity; beta_reduce)
    | with_reducible apply Moves.ite
    | (split <;> beta_reduce))

theorem execSecurityReceivePlaybill_moves (a0) (s) : ∃ t, execSecurityReceivePlaybill a0 s = .next t ∧ State.Moves [.boot, .ctxs, .decisions, .pair, .svc, .out] s t := by
  unfold execSecurityReceivePlaybill
  repeat' (first
    | (with_reducible intro)
    | (with_reducible refine ⟨_, rfl, ?_⟩)
    | with_reducible exact Moves.refl _ _
    | with_reducible assumption
    | ((with_reducible apply Moves.op (State.complete_moves _ _ _)); decide)
    | ((with_reducible apply Moves.op (State.give_moves _ _ _ _)); decide)
    | (unfold State.orElse; beta_reduce)
    | ((with_reducible apply Moves.op (State.readBill_moves _ _)); decide)
    | (unfold State.run; beta_reduce)
    | (unfold State.runSecurity; beta_reduce)
    | with_reducible apply Moves.each
    | with_reducible apply Moves.ite
    | with_reducible apply Moves.when
    | (extract_lets +onlyGivenNames u; (with_reducible apply Moves.let (u := u)); (intro h; clear_value u); rotate_left; subst u; rotate_right)
    | (extract_lets +onlyGivenNames v; subst v)
    | (split <;> beta_reduce))

theorem execSecurityReceiveStages_moves (a0) (s) : ∃ t, execSecurityReceiveStages a0 s = .next t ∧ State.Moves [.ctxs, .decisions, .pair, .svc, .out] s t := by
  unfold execSecurityReceiveStages
  repeat' (first
    | (with_reducible refine ⟨_, rfl, ?_⟩)
    | with_reducible exact Moves.refl _ _
    | ((with_reducible apply Moves.op (State.complete_moves _ _ _)); decide)
    | ((with_reducible apply Moves.op (State.give_moves _ _ _ _)); decide)
    | (unfold State.orElse; beta_reduce)
    | (unfold State.run; beta_reduce)
    | (unfold State.runSecurity; beta_reduce)
    | with_reducible apply Moves.ite
    | (split <;> beta_reduce))

theorem execSecuritySendNonce_moves (a0) (s) : ∃ t, execSecuritySendNonce a0 s = .next t ∧ State.Moves [.ident, .ctxs, .decisions, .pair, .svc, .out] s t := by
  unfold execSecuritySendNonce
  repeat' (first
    | (with_reducible refine ⟨_, rfl, ?_⟩)
    | with_reducible exact Moves.refl _ _
    | ((with_reducible apply Moves.op (State.complete_moves _ _ _)); decide)
    | (unfold State.orElse; beta_reduce)
    | (unfold State.run; beta_reduce)
    | (unfold State.runSecurity; beta_reduce)
    | ((with_reducible apply Moves.op (State.setNonce_moves _ _ _)); decide)
    | with_reducible apply Moves.ite
    | (extract_lets +onlyGivenNames v; subst v)
    | (split <;> beta_reduce))

end Sys2Proof.Machine
end

