-- ==== Sys2Proof/Laws/LongOpCmds.lean ====
section
/-! SUPPORT. What each operation and each command of Machine/LongOpCmds.lean can do to the state. -/

namespace Sys2Proof.Machine

theorem State.cancelNow_moves (a0) (s) : State.Moves [.nor, .names, .prot, .pair, .out] s (State.cancelNow a0 s) := by
  unfold State.cancelNow
  repeat' (first
    | (with_reducible intro)
    | with_reducible exact Moves.refl _ _
    | with_reducible assumption
    | ((with_reducible apply Moves.op (State.endOp_moves _ _ _ _)); decide)
    | ((with_reducible apply Moves.op (State.modNames_moves _ _)); decide)
    | ((with_reducible apply Moves.op (State.modProt_moves _ _)); decide)
    | ((with_reducible apply Moves.op (State.rebuildCancelled_moves _)); decide)
    | with_reducible apply Moves.ite
    | with_reducible apply Moves.when
    | (extract_lets +onlyGivenNames u; (with_reducible apply Moves.let (u := u)); (intro h; clear_value u); rotate_left; subst u; rotate_right)
    | (extract_lets +onlyGivenNames v; subst v)
    | split)

theorem State.resumeOp_moves (a0) (s) : State.Moves [.aon, .nor, .book, .prot, .pair, .out] s (State.resumeOp a0 s) := by
  unfold State.resumeOp
  repeat' (first
    | with_reducible exact Moves.refl _ _
    | ((with_reducible apply Moves.op (State.modOp_moves _ _ _)); decide)
    | ((with_reducible apply Moves.op (State.rebuildEnd_moves _)); decide)
    | ((with_reducible apply Moves.op (State.rebuildTo_moves _ _ _)); decide)
    | with_reducible apply Moves.ite)

theorem State.started_moves (a0) (a1) (s) : State.Moves [.ctxs, .decisions, .pair, .svc, .out] s (State.started a0 a1 s) := by
  unfold State.started
  repeat' (first
    | with_reducible exact Moves.refl _ _
    | ((with_reducible apply Moves.op (State.complete_moves _ _ _)); decide))

theorem State.startCalibration_moves (a0) (a1) (s) : State.Moves [.nor, .ctxs, .decisions, .actCals, .pair, .svc, .out] s (State.startCalibration a0 a1 s) := by
  unfold State.startCalibration
  repeat' (first
    | (with_reducible intro)
    | with_reducible exact Moves.refl _ _
    | with_reducible assumption
    | ((with_reducible apply Moves.op (State.clearMarks_moves _ _)); decide)
    | ((with_reducible apply Moves.op (State.complete_moves _ _ _)); decide)
    | (unfold State.orElse; beta_reduce)
    | ((with_reducible apply Moves.op (State.startOp_moves _ _)); decide)
    | ((with_reducible apply Moves.op (State.started_moves _ _ _)); decide)
    | with_reducible apply Moves.each
    | with_reducible apply Moves.ite
    | with_reducible apply Moves.when
    | (extract_lets +onlyGivenNames u; (with_reducible apply Moves.let (u := u)); (intro h; clear_value u); rotate_left; subst u; rotate_right)
    | (extract_lets +onlyGivenNames v; subst v)
    | split)

theorem State.startFormat_moves (a0) (a1) (s) : State.Moves [.nor, .ctxs, .decisions, .pair, .svc, .out] s (State.startFormat a0 a1 s) := by
  unfold State.startFormat
  repeat' (first
    | with_reducible exact Moves.refl _ _
    | ((with_reducible apply Moves.op (State.complete_moves _ _ _)); decide)
    | unfold State.startSingle
    | ((with_reducible apply Moves.op (State.started_moves _ _ _)); decide)
    | ((with_reducible apply Moves.op (State.startOp_moves _ _)); decide)
    | with_reducible apply Moves.ite)

theorem State.startRebuild_moves (a0) (a1) (s) : State.Moves [.aon, .nor, .book, .ctxs, .decisions, .prot, .pair, .svc, .out] s (State.startRebuild a0 a1 s) := by
  unfold State.startRebuild
  repeat' (first
    | with_reducible exact Moves.refl _ _
    | with_reducible assumption
    | ((with_reducible apply Moves.op (State.complete_moves _ _ _)); decide)
    | ((with_reducible apply Moves.op (State.modOp_moves _ _ _)); decide)
    | ((with_reducible apply Moves.op (State.runRebuild_moves _ _)); decide)
    | ((with_reducible apply Moves.op (State.started_moves _ _ _)); decide)
    | (extract_lets +onlyGivenNames u; (with_reducible apply Moves.let (u := u)); (intro h; clear_value u); rotate_left; subst u; rotate_right)
    | (extract_lets +onlyGivenNames v; subst v)
    | split)

theorem State.startScan_moves (a0) (a1) (s) : State.Moves [.nor, .ctxs, .decisions, .pair, .svc, .out] s (State.startScan a0 a1 s) := by
  unfold State.startScan
  repeat' (first
    | with_reducible exact Moves.refl _ _
    | ((with_reducible apply Moves.op (State.complete_moves _ _ _)); decide)
    | ((with_reducible apply Moves.op (State.started_moves _ _ _)); decide)
    | ((with_reducible apply Moves.op (State.startOp_moves _ _)); decide)
    | with_reducible apply Moves.ite)

theorem State.startWipe_moves (a0) (s) : State.Moves [.aon, .nor, .book, .power, .fa, .fb, .ctxs, .decisions, .names, .prot, .ports, .spins, .acts, .seqs, .chorus, .actCals, .mem, .mcache, .pair, .svc, .free, .out] s (State.startWipe a0 s) := by
  unfold State.startWipe
  repeat' (first
    | (with_reducible intro)
    | with_reducible exact Moves.refl _ _
    | with_reducible assumption
    | ((with_reducible apply Moves.op (State.bufferChanged_moves _)); decide)
    | ((with_reducible apply State.modCtx_moves); exact fun _ _ => rfl; decide)
    | with_reducible apply Moves.ite
    | with_reducible apply Moves.when
    | (extract_lets +onlyGivenNames u; (with_reducible apply Moves.let (u := u)); (intro h; clear_value u); rotate_left; subst u; rotate_right)
    | (extract_lets +onlyGivenNames v; subst v)
    | split)

theorem State.suspendNow_moves (a0) (s) : State.Moves [.nor, .prot] s (State.suspendNow a0 s) := by
  unfold State.suspendNow
  repeat' (first
    | with_reducible exact Moves.refl _ _
    | ((with_reducible apply Moves.op (State.modOp_moves _ _ _)); decide)
    | ((with_reducible apply Moves.op (State.rebuildTo_moves _ _ _)); decide)
    | with_reducible apply Moves.ite)

theorem execLongOperationCancel_moves (a0) (s) : ∃ t, execLongOperationCancel a0 s = .next t ∧ State.Moves [.aon, .nor, .book, .ctxs, .decisions, .names, .prot, .mem, .mcache, .pair, .svc, .free, .out] s t := by
  unfold execLongOperationCancel
  repeat' (first
    | (with_reducible intro)
    | (with_reducible refine ⟨_, rfl, ?_⟩)
    | with_reducible exact Moves.refl _ _
    | with_reducible assumption
    | ((with_reducible apply Moves.op (State.cancelNow_moves _ _)); decide)
    | ((with_reducible apply Moves.op (State.complete_moves _ _ _)); decide)
    | ((with_reducible apply Moves.op (State.modOp_moves _ _ _)); decide)
    | (unfold State.onOp; beta_reduce)
    | (unfold State.orElse; beta_reduce)
    | (unfold State.run; beta_reduce)
    | (unfold State.runOp; beta_reduce)
    | ((with_reducible apply Moves.op (State.settleEnded_moves _ _ _)); decide)
    | with_reducible apply Moves.each
    | with_reducible apply Moves.ite
    | with_reducible apply Moves.when
    | (extract_lets +onlyGivenNames u; (with_reducible apply Moves.let (u := u)); (intro h; clear_value u); rotate_left; subst u; rotate_right)
    | (extract_lets +onlyGivenNames v; subst v)
    | (split <;> beta_reduce))

theorem execLongOperationList_moves (a0) (s) : ∃ t, execLongOperationList a0 s = .next t ∧ State.Moves [.aon, .nor, .book, .ctxs, .decisions, .names, .prot, .mem, .mcache, .pair, .svc, .free, .out] s t := by
  unfold execLongOperationList
  repeat' (first
    | (with_reducible intro)
    | (with_reducible refine ⟨_, rfl, ?_⟩)
    | with_reducible exact Moves.refl _ _
    | with_reducible assumption
    | ((with_reducible apply Moves.op (State.complete_moves _ _ _)); decide)
    | (unfold State.orElse; beta_reduce)
    | (unfold State.run; beta_reduce)
    | (unfold State.runOp; beta_reduce)
    | ((with_reducible apply Moves.op (State.settleEnded_moves _ _ _)); decide)
    | with_reducible apply Moves.each
    | with_reducible apply Moves.ite
    | with_reducible apply Moves.when
    | (extract_lets +onlyGivenNames u; (with_reducible apply Moves.let (u := u)); (intro h; clear_value u); rotate_left; subst u; rotate_right)
    | (extract_lets +onlyGivenNames v; subst v)
    | (split <;> beta_reduce))

theorem execLongOperationQuery_moves (a0) (s) : ∃ t, execLongOperationQuery a0 s = .next t ∧ State.Moves [.aon, .nor, .book, .ctxs, .decisions, .names, .prot, .mem, .mcache, .pair, .svc, .free, .out] s t := by
  unfold execLongOperationQuery
  repeat' (first
    | (with_reducible intro)
    | (with_reducible refine ⟨_, rfl, ?_⟩)
    | with_reducible exact Moves.refl _ _
    | with_reducible assumption
    | ((with_reducible apply Moves.op (State.complete_moves _ _ _)); decide)
    | (unfold State.onOp; beta_reduce)
    | (unfold State.orElse; beta_reduce)
    | (unfold State.run; beta_reduce)
    | (unfold State.runOp; beta_reduce)
    | ((with_reducible apply Moves.op (State.settleEnded_moves _ _ _)); decide)
    | with_reducible apply Moves.each
    | with_reducible apply Moves.ite
    | with_reducible apply Moves.when
    | (extract_lets +onlyGivenNames u; (with_reducible apply Moves.let (u := u)); (intro h; clear_value u); rotate_left; subst u; rotate_right)
    | (extract_lets +onlyGivenNames v; subst v)
    | (split <;> beta_reduce))

theorem execLongOperationResume_moves (a0) (s) : ∃ t, execLongOperationResume a0 s = .next t ∧ State.Moves [.aon, .nor, .book, .ctxs, .decisions, .names, .prot, .mem, .mcache, .pair, .svc, .free, .out] s t := by
  unfold execLongOperationResume
  repeat' (first
    | (with_reducible intro)
    | (with_reducible refine ⟨_, rfl, ?_⟩)
    | with_reducible exact Moves.refl _ _
    | with_reducible assumption
    | ((with_reducible apply Moves.op (State.complete_moves _ _ _)); decide)
    | (unfold State.onOp; beta_reduce)
    | (unfold State.orElse; beta_reduce)
    | ((with_reducible apply Moves.op (State.resumeOp_moves _ _)); decide)
    | (unfold State.run; beta_reduce)
    | (unfold State.runOp; beta_reduce)
    | ((with_reducible apply Moves.op (State.settleEnded_moves _ _ _)); decide)
    | with_reducible apply Moves.each
    | with_reducible apply Moves.ite
    | with_reducible apply Moves.when
    | (extract_lets +onlyGivenNames u; (with_reducible apply Moves.let (u := u)); (intro h; clear_value u); rotate_left; subst u; rotate_right)
    | (extract_lets +onlyGivenNames v; subst v)
    | (split <;> beta_reduce))

theorem execLongOperationStart_moves (a0) (s) : ∃ t, execLongOperationStart a0 s = .next t ∧ State.Moves [.aon, .nor, .book, .power, .fa, .fb, .ctxs, .decisions, .names, .prot, .ports, .spins, .acts, .seqs, .chorus, .actCals, .mem, .mcache, .pair, .svc, .free, .out] s t := by
  unfold execLongOperationStart
  repeat' (first
    | (with_reducible intro)
    | (with_reducible refine ⟨_, rfl, ?_⟩)
    | with_reducible exact Moves.refl _ _
    | with_reducible assumption
    | ((with_reducible apply Moves.op (State.complete_moves _ _ _)); decide)
    | (unfold State.orElse; beta_reduce)
    | (unfold State.run; beta_reduce)
    | (unfold State.runOp; beta_reduce)
    | ((with_reducible apply Moves.op (State.settleEnded_moves _ _ _)); decide)
    | ((with_reducible apply Moves.op (State.startCalibration_moves _ _ _)); decide)
    | ((with_reducible apply Moves.op (State.startFormat_moves _ _ _)); decide)
    | ((with_reducible apply Moves.op (State.startRebuild_moves _ _ _)); decide)
    | ((with_reducible apply Moves.op (State.startScan_moves _ _ _)); decide)
    | ((with_reducible apply Moves.op (State.startStaging_moves _ _ _ _)); decide)
    | ((with_reducible apply Moves.op (State.startWipe_moves _ _)); decide)
    | with_reducible apply Moves.each
    | with_reducible apply Moves.ite
    | with_reducible apply Moves.when
    | (extract_lets +onlyGivenNames u; (with_reducible apply Moves.let (u := u)); (intro h; clear_value u); rotate_left; subst u; rotate_right)
    | (extract_lets +onlyGivenNames v; subst v)
    | (split <;> beta_reduce))

theorem execLongOperationSuspend_moves (a0) (s) : ∃ t, execLongOperationSuspend a0 s = .next t ∧ State.Moves [.aon, .nor, .book, .ctxs, .decisions, .names, .prot, .mem, .mcache, .pair, .svc, .free, .out] s t := by
  unfold execLongOperationSuspend
  repeat' (first
    | (with_reducible intro)
    | (with_reducible refine ⟨_, rfl, ?_⟩)
    | with_reducible exact Moves.refl _ _
    | with_reducible assumption
    | ((with_reducible apply Moves.op (State.complete_moves _ _ _)); decide)
    | ((with_reducible apply Moves.op (State.modOp_moves _ _ _)); decide)
    | (unfold State.onOp; beta_reduce)
    | (unfold State.orElse; beta_reduce)
    | (unfold State.run; beta_reduce)
    | (unfold State.runOp; beta_reduce)
    | ((with_reducible apply Moves.op (State.settleEnded_moves _ _ _)); decide)
    | ((with_reducible apply Moves.op (State.suspendNow_moves _ _)); decide)
    | with_reducible apply Moves.each
    | with_reducible apply Moves.ite
    | with_reducible apply Moves.when
    | (extract_lets +onlyGivenNames u; (with_reducible apply Moves.let (u := u)); (intro h; clear_value u); rotate_left; subst u; rotate_right)
    | (extract_lets +onlyGivenNames v; subst v)
    | (split <;> beta_reduce))

theorem execSetRebuildParameters_moves (a0) (s) : ∃ t, execSetRebuildParameters a0 s = .next t ∧ State.Moves [.aon, .nor, .book, .ctxs, .decisions, .names, .prot, .mem, .mcache, .pair, .svc, .free, .out] s t := by
  unfold execSetRebuildParameters
  repeat' (first
    | (with_reducible intro)
    | (with_reducible refine ⟨_, rfl, ?_⟩)
    | with_reducible exact Moves.refl _ _
    | with_reducible assumption
    | ((with_reducible apply Moves.op (State.complete_moves _ _ _)); decide)
    | ((with_reducible apply Moves.op (State.modCfg_moves _ _)); decide)
    | (unfold State.orElse; beta_reduce)
    | ((with_reducible apply Moves.op (State.raiseProt_moves _ _ _)); decide)
    | (unfold State.run; beta_reduce)
    | (unfold State.runOp; beta_reduce)
    | ((with_reducible apply Moves.op (State.settleEnded_moves _ _ _)); decide)
    | (unfold State.watchSpare; beta_reduce)
    | with_reducible apply Moves.each
    | with_reducible apply Moves.ite
    | with_reducible apply Moves.when
    | (extract_lets +onlyGivenNames u; (with_reducible apply Moves.let (u := u)); (intro h; clear_value u); rotate_left; subst u; rotate_right)
    | (extract_lets +onlyGivenNames v; subst v)
    | (split <;> beta_reduce))

end Sys2Proof.Machine
end

