-- ==== Sys2Proof/Laws/PortControl.lean ====
section
/-! SUPPORT. What each operation and each command of Machine/PortControl.lean can do to the state. -/

namespace Sys2Proof.Machine

theorem State.clearFailed_moves (a0) (s) : State.Moves [.aon, .nor, .book, .ctxs, .decisions, .prot, .ports, .spins, .acts, .seqs, .chorus, .actCals, .pair, .svc, .out] s (State.clearFailed a0 s) := by
  unfold State.clearFailed
  repeat' (first
    | (with_reducible intro)
    | with_reducible exact Moves.refl _ _
    | with_reducible assumption
    | ((with_reducible apply State.modPort_moves); exact fun _ => ⟨rfl, rfl⟩; decide)
    | ((with_reducible apply State.modPort_leaves); exact fun _ => rfl; decide)
    | ((with_reducible apply State.modPort_served); exact fun _ _ _ => rfl; decide)
    | ((with_reducible apply State.modPort_moves); (intro _; (try dsimp only); split <;> exact ⟨rfl, rfl⟩); decide)
    | ((with_reducible apply Moves.op (State.startTraining_moves _ _)); decide)
    | ((with_reducible apply Moves.op (State.stopUnits_moves _ _)); decide)
    | with_reducible apply Moves.ite
    | with_reducible apply Moves.when
    | (extract_lets +onlyGivenNames u; (with_reducible apply Moves.let (u := u)); (intro h; clear_value u); rotate_left; subst u; rotate_right)
    | (extract_lets +onlyGivenNames v; subst v)
    | split)

theorem State.putBack_moves (a0) (s) : State.Moves [.prot, .ports, .spins, .acts] s (State.putBack a0 s) := by
  unfold State.putBack
  repeat' (first
    | (with_reducible intro)
    | with_reducible exact Moves.refl _ _
    | with_reducible assumption
    | ((with_reducible apply Moves.op (State.askStart_moves _ _)); decide)
    | ((with_reducible apply Moves.op (State.load_moves _ _)); decide)
    | ((with_reducible apply State.modPort_moves); exact fun _ => ⟨rfl, rfl⟩; decide)
    | ((with_reducible apply Moves.op (State.modSpin_moves _ _ _)); decide)
    | with_reducible apply Moves.ite
    | with_reducible apply Moves.each)

theorem State.endPortWork_moves (a0) (s) : State.Moves [.prot, .seqs, .chorus, .pair, .out] s (State.endPortWork a0 s) := by
  unfold State.endPortWork
  repeat' (first
    | (with_reducible intro)
    | with_reducible exact Moves.refl _ _
    | with_reducible assumption
    | ((with_reducible apply Moves.op (State.giveUp_moves _ _)); decide)
    | ((with_reducible apply Moves.op (State.modSeq_moves _ _ _)); decide)
    | ((with_reducible apply Moves.op (State.peerReport_moves _ _ _ _)); decide)
    | with_reducible apply Moves.each
    | split)

theorem State.takeOut_moves (a0) (s) : State.Moves [.aon, .nor, .book, .ctxs, .decisions, .prot, .ports, .acts, .seqs, .chorus, .actCals, .pair, .svc, .out] s (State.takeOut a0 s) := by
  unfold State.takeOut
  repeat' (first
    | with_reducible exact Moves.refl _ _
    | ((with_reducible apply Moves.op (State.endPortWork_moves _ _)); decide)
    | ((with_reducible apply Moves.op (State.leaveService_moves _ _ _)); decide)
    | ((with_reducible apply State.modPort_moves); exact fun _ => ⟨rfl, rfl⟩; decide)
    | ((with_reducible apply Moves.op (State.unloadSides_moves _ _)); decide))

theorem execClearFailedMark_moves (a0) (s) : ∃ t, execClearFailedMark a0 s = .next t ∧ State.Moves [.aon, .nor, .book, .ctxs, .decisions, .prot, .ports, .spins, .acts, .seqs, .chorus, .actCals, .pair, .svc, .out] s t := by
  unfold execClearFailedMark
  repeat' (first
    | (with_reducible refine ⟨_, rfl, ?_⟩)
    | (with_reducible intro)
    | with_reducible exact Moves.refl _ _
    | with_reducible assumption
    | ((with_reducible apply Moves.op (State.clearFailed_moves _ _)); decide)
    | ((with_reducible apply Moves.op (State.complete_moves _ _ _)); decide)
    | (unfold State.orElse; beta_reduce)
    | (unfold State.run; beta_reduce)
    | (unfold State.runPort; beta_reduce)
    | with_reducible apply Moves.ite
    | with_reducible apply Moves.when
    | (split <;> beta_reduce))

theorem execClearSpindleFault_moves (a0) (s) : ∃ t, execClearSpindleFault a0 s = .next t ∧ State.Moves [.ctxs, .decisions, .ports, .spins, .pair, .svc, .out] s t := by
  unfold execClearSpindleFault
  repeat' (first
    | (with_reducible refine ⟨_, rfl, ?_⟩)
    | with_reducible exact Moves.refl _ _
    | with_reducible assumption
    | ((with_reducible apply Moves.op (State.coast_moves _ _)); decide)
    | ((with_reducible apply Moves.op (State.complete_moves _ _ _)); decide)
    | ((with_reducible apply State.modPort_moves); exact fun _ => ⟨rfl, rfl⟩; decide)
    | ((with_reducible apply Moves.op (State.modSpin_moves _ _ _)); decide)
    | (unfold State.orElse; beta_reduce)
    | (unfold State.run; beta_reduce)
    | (unfold State.runPort; beta_reduce)
    | with_reducible apply Moves.ite
    | (extract_lets +onlyGivenNames u; (with_reducible apply Moves.let (u := u)); (intro h; clear_value u); rotate_left; subst u; rotate_right)
    | (split <;> beta_reduce))

theorem execPortControlPortReset_moves (a0) (s) : ∃ t, execPortControlPortReset a0 s = .next t ∧ State.Moves [.aon, .boot, .nor, .book, .power, .ctxs, .decisions, .names, .prot, .ports, .spins, .acts, .seqs, .chorus, .actCals, .xing, .therm, .pair, .svc, .out] s t := by
  unfold execPortControlPortReset
  repeat' (first
    | (with_reducible intro)
    | (with_reducible refine ⟨_, rfl, ?_⟩)
    | with_reducible exact Moves.refl _ _
    | with_reducible assumption
    | ((with_reducible apply Moves.op (State.complete_moves _ _ _)); decide)
    | (unfold State.orElse; beta_reduce)
    | ((with_reducible apply Moves.op (State.portResetKeep_moves _ _)); decide)
    | (unfold State.run; beta_reduce)
    | (unfold State.runPort; beta_reduce)
    | ((with_reducible apply Moves.op (State.settle_moves _)); decide)
    | with_reducible apply Moves.each
    | with_reducible apply Moves.ite
    | with_reducible apply Moves.when
    | (extract_lets +onlyGivenNames u; (with_reducible apply Moves.let (u := u)); (intro h; clear_value u); rotate_left; subst u; rotate_right)
    | (extract_lets +onlyGivenNames v; subst v)
    | (split <;> beta_reduce))

theorem execPortControlQuery_moves (a0) (s) : ∃ t, execPortControlQuery a0 s = .next t ∧ State.Moves [.book, .ctxs, .decisions, .ports, .chorus, .mem, .mcache, .xing, .pair, .svc, .out] s t := by
  unfold execPortControlQuery
  repeat' (first
    | (with_reducible refine ⟨_, rfl, ?_⟩)
    | (with_reducible intro)
    | with_reducible exact Moves.refl _ _
    | with_reducible assumption
    | ((with_reducible apply Moves.op (State.clearRc_moves _ _)); decide)
    | ((with_reducible apply Moves.op (State.complete_moves _ _ _)); decide)
    | (unfold State.orElse; beta_reduce)
    | (unfold State.run; beta_reduce)
    | (unfold State.runPort; beta_reduce)
    | with_reducible apply Moves.ite
    | with_reducible apply Moves.when
    | with_reducible apply Moves.each
    | (extract_lets +onlyGivenNames u; (with_reducible apply Moves.let (u := u)); (intro h; clear_value u); rotate_left; subst u; rotate_right)
    | (extract_lets +onlyGivenNames v; subst v)
    | (split <;> beta_reduce))

theorem execRemoveFromService_moves (a0) (s) : ∃ t, execRemoveFromService a0 s = .next t ∧ State.Moves [.aon, .nor, .book, .power, .ctxs, .decisions, .names, .prot, .ports, .spins, .acts, .seqs, .chorus, .actCals, .pair, .svc, .out] s t := by
  unfold execRemoveFromService
  repeat' (first
    | (with_reducible refine ⟨_, rfl, ?_⟩)
    | (with_reducible intro)
    | with_reducible exact Moves.refl _ _
    | with_reducible assumption
    | ((with_reducible apply Moves.op (State.await_moves _ _ _)); decide)
    | ((with_reducible apply Moves.op (State.complete_moves _ _ _)); decide)
    | ((with_reducible apply Moves.op (State.emit_moves _ _ _ _ _)); decide)
    | (unfold State.orElse; beta_reduce)
    | (unfold State.run; beta_reduce)
    | (unfold State.runPort; beta_reduce)
    | ((with_reducible apply Moves.op (State.settle_moves _)); decide)
    | ((with_reducible apply Moves.op (State.spinDown_moves _ _)); decide)
    | ((with_reducible apply Moves.op (State.takeOut_moves _ _)); decide)
    | with_reducible apply Moves.ite
    | with_reducible apply Moves.when
    | (extract_lets +onlyGivenNames u; (with_reducible apply Moves.let (u := u)); (intro h; clear_value u); rotate_left; subst u; rotate_right)
    | (extract_lets +onlyGivenNames v; subst v)
    | (split <;> beta_reduce))

theorem execReturnActuatorToService_moves (a0) (s) : ∃ t, execReturnActuatorToService a0 s = .next t ∧ State.Moves [.aon, .power, .ctxs, .decisions, .names, .prot, .ports, .acts, .pair, .svc, .out] s t := by
  unfold execReturnActuatorToService
  repeat' (first
    | (with_reducible refine ⟨_, rfl, ?_⟩)
    | (with_reducible intro)
    | with_reducible exact Moves.refl _ _
    | with_reducible assumption
    | ((with_reducible apply Moves.op (State.complete_moves _ _ _)); decide)
    | ((with_reducible apply Moves.op (State.load_moves _ _)); decide)
    | ((with_reducible apply Moves.op (State.modAct_moves _ _ _)); decide)
    | ((with_reducible apply Moves.op (State.noteService_moves _ _)); decide)
    | (unfold State.orElse; beta_reduce)
    | (unfold State.run; beta_reduce)
    | (unfold State.runPort; beta_reduce)
    | ((with_reducible apply Moves.op (State.settle_moves _)); decide)
    | with_reducible apply Moves.ite
    | with_reducible apply Moves.when
    | (extract_lets +onlyGivenNames u; (with_reducible apply Moves.let (u := u)); (intro h; clear_value u); rotate_left; subst u; rotate_right)
    | (extract_lets +onlyGivenNames v; subst v)
    | (split <;> beta_reduce))

theorem execReturnToService_moves (a0) (s) : ∃ t, execReturnToService a0 s = .next t ∧ State.Moves [.aon, .power, .ctxs, .decisions, .names, .prot, .ports, .spins, .acts, .pair, .svc, .out] s t := by
  unfold execReturnToService
  repeat' (first
    | (with_reducible refine ⟨_, rfl, ?_⟩)
    | (with_reducible intro)
    | with_reducible exact Moves.refl _ _
    | with_reducible assumption
    | ((with_reducible apply Moves.op (State.complete_moves _ _ _)); decide)
    | (unfold State.orElse; beta_reduce)
    | ((with_reducible apply Moves.op (State.putBack_moves _ _)); decide)
    | (unfold State.run; beta_reduce)
    | (unfold State.runPort; beta_reduce)
    | ((with_reducible apply Moves.op (State.settle_moves _)); decide)
    | with_reducible apply Moves.ite
    | with_reducible apply Moves.when
    | (split <;> beta_reduce))

theorem execSetSpeedLevel_moves (a0) (s) : ∃ t, execSetSpeedLevel a0 s = .next t ∧ State.Moves [.aon, .nor, .book, .power, .ctxs, .decisions, .names, .prot, .ports, .spins, .acts, .seqs, .chorus, .actCals, .pair, .svc, .out] s t := by
  unfold execSetSpeedLevel
  repeat' (first
    | (with_reducible refine ⟨_, rfl, ?_⟩)
    | with_reducible exact Moves.refl _ _
    | ((with_reducible apply Moves.op (State.complete_moves _ _ _)); decide)
    | (unfold State.orElse; beta_reduce)
    | (unfold State.run; beta_reduce)
    | (unfold State.runPort; beta_reduce)
    | ((with_reducible apply Moves.op (State.setLevel_moves _ _ _)); decide)
    | ((with_reducible apply Moves.op (State.settle_moves _)); decide)
    | with_reducible apply Moves.ite
    | (split <;> beta_reduce))

end Sys2Proof.Machine
end

