-- ==== Sys2Proof/Laws/CalControl.lean ====
section
/-! SUPPORT. What each operation and each command of Machine/CalControl.lean can do to the state. -/

namespace Sys2Proof.Machine

theorem execCalibrateOneHead_moves (a0) (s) : ∃ t, execCalibrateOneHead a0 s = .next t ∧ State.Moves [.ctxs, .decisions, .pair, .svc, .out] s t := by
  unfold execCalibrateOneHead
  repeat' (first
    | (with_reducible refine ⟨_, rfl, ?_⟩)
    | with_reducible exact Moves.refl _ _
    | ((with_reducible apply Moves.op (State.await_moves _ _ _)); decide)
    | ((with_reducible apply Moves.op (State.complete_moves _ _ _)); decide)
    | (unfold State.orElse; beta_reduce)
    | (unfold State.run; beta_reduce)
    | (unfold State.runCal; beta_reduce)
    | with_reducible apply Moves.ite
    | (split <;> beta_reduce))

theorem execCalibrationControlQuery_moves (a0) (s) : ∃ t, execCalibrationControlQuery a0 s = .next t ∧ State.Moves [.ctxs, .decisions, .pair, .svc, .free, .out] s t := by
  unfold execCalibrationControlQuery
  repeat' (first
    | (with_reducible refine ⟨_, rfl, ?_⟩)
    | with_reducible exact Moves.refl _ _
    | ((with_reducible apply Moves.op (State.complete_moves _ _ _)); decide)
    | (unfold State.orElse; beta_reduce)
    | (unfold State.run; beta_reduce)
    | (unfold State.runCal; beta_reduce)
    | with_reducible apply Moves.ite
    | (split <;> beta_reduce)
    | (refine Moves.base (u := s) (by with_reducible first | exact Moves.refl _ _ | assumption) ?_ rfl rfl fun h => ⟨h.filled, h.complete, h.ready, h.bufs, h.served, h.therms, h.holds, h.ring, h.ctxs⟩; intro x hx; cases x <;> first | exact absurd (by decide) hx | (unfold State.same; with_reducible rfl)))

theorem execCalibrationDefer_moves (a0) (s) : ∃ t, execCalibrationDefer a0 s = .next t ∧ State.Moves [.ctxs, .decisions, .cal, .pair, .svc, .out] s t := by
  unfold execCalibrationDefer
  repeat' (first
    | (with_reducible refine ⟨_, rfl, ?_⟩)
    | with_reducible exact Moves.refl _ _
    | ((with_reducible apply Moves.op (State.complete_moves _ _ _)); decide)
    | (unfold State.orElse; beta_reduce)
    | (unfold State.run; beta_reduce)
    | (unfold State.runCal; beta_reduce)
    | with_reducible apply Moves.ite
    | (extract_lets +onlyGivenNames v; subst v)
    | (split <;> beta_reduce)
    | (refine Moves.base (u := s) (by with_reducible first | exact Moves.refl _ _ | assumption) ?_ rfl rfl fun h => ⟨h.filled, h.complete, h.ready, h.bufs, h.served, h.therms, h.holds, h.ring, h.ctxs⟩; intro x hx; cases x <;> first | exact absurd (by decide) hx | (unfold State.same; with_reducible rfl)))

theorem execCalibrationRestoreHead_moves (a0) (s) : ∃ t, execCalibrationRestoreHead a0 s = .next t ∧ State.Moves [.aon, .book, .ctxs, .decisions, .actCals, .pair, .svc, .out] s t := by
  unfold execCalibrationRestoreHead
  repeat' (first
    | (with_reducible refine ⟨_, rfl, ?_⟩)
    | (with_reducible intro)
    | with_reducible exact Moves.refl _ _
    | with_reducible assumption
    | ((with_reducible apply Moves.op (State.calDirty_moves _ _)); decide)
    | ((with_reducible apply Moves.op (State.complete_moves _ _ _)); decide)
    | ((with_reducible apply Moves.op (State.modAcal_moves _ _ _)); decide)
    | ((with_reducible apply Moves.op (State.noteHolds_moves _ _)); decide)
    | (unfold State.orElse; beta_reduce)
    | (unfold State.run; beta_reduce)
    | (unfold State.runCal; beta_reduce)
    | with_reducible apply Moves.ite
    | with_reducible apply Moves.each
    | (split <;> beta_reduce))

theorem execCalibrationSetParameters_moves (a0) (s) : ∃ t, execCalibrationSetParameters a0 s = .next t ∧ State.Moves [.nor, .ctxs, .decisions, .cal, .pair, .svc, .out] s t := by
  unfold execCalibrationSetParameters
  repeat' (first
    | (with_reducible refine ⟨_, rfl, ?_⟩)
    | with_reducible exact Moves.refl _ _
    | ((with_reducible apply Moves.op (State.complete_moves _ _ _)); decide)
    | ((with_reducible apply Moves.op (State.modCfg_moves _ _)); decide)
    | (unfold State.orElse; beta_reduce)
    | (unfold State.run; beta_reduce)
    | (unfold State.runCal; beta_reduce)
    | with_reducible apply Moves.ite
    | (extract_lets +onlyGivenNames v; subst v)
    | (split <;> beta_reduce)
    | (refine Moves.base (u := s) (by with_reducible first | exact Moves.refl _ _ | assumption) ?_ rfl rfl fun h => ⟨h.filled, h.complete, h.ready, h.bufs, h.served, h.therms, h.holds, h.ring, h.ctxs⟩; intro x hx; cases x <;> first | exact absurd (by decide) hx | (unfold State.same; with_reducible rfl)))

end Sys2Proof.Machine
end

