-- ==== Sys2Proof/Laws/EngineControl.lean ====
section
/-! SUPPORT. What each operation and each command of Machine/EngineControl.lean can do to the state. -/

namespace Sys2Proof.Machine

theorem State.setSeqParams_moves (a0) (a1) (s) : State.Moves [.nor, .seqs] s (State.setSeqParams a0 a1 s) := by
  unfold State.setSeqParams
  repeat' (first
    | (with_reducible intro)
    | with_reducible exact Moves.refl _ _
    | with_reducible assumption
    | ((with_reducible apply Moves.op (State.modCfg_moves _ _)); decide)
    | ((with_reducible apply Moves.op (State.modSeq_moves _ _ _)); decide)
    | with_reducible apply Moves.when)

theorem State.testEngine_moves (a0) (a1) (s) : State.Moves [.aon, .book, .chorus] s (State.testEngine a0 a1 s) := by
  unfold State.testEngine
  repeat' (first
    | with_reducible exact Moves.refl _ _
    | ((with_reducible apply Moves.op (State.modEng_moves _ _ _)); decide)
    | ((with_reducible apply Moves.op (State.raiseEng_moves _ _ _)); decide)
    | with_reducible apply Moves.ite)

theorem execEngineOffline_moves (a0) (s) : ∃ t, execEngineOffline a0 s = .next t ∧ State.Moves [.aon, .book, .ctxs, .decisions, .ports, .seqs, .chorus, .actCals, .pair, .svc, .out] s t := by
  unfold execEngineOffline
  repeat' (first
    | (with_reducible refine ⟨_, rfl, ?_⟩)
    | with_reducible exact Moves.refl _ _
    | with_reducible assumption
    | ((with_reducible apply Moves.op (State.complete_moves _ _ _)); decide)
    | ((with_reducible apply Moves.op (State.cutSession_moves _ _ _)); decide)
    | ((with_reducible apply Moves.op (State.gate_moves _ _)); decide)
    | ((with_reducible apply Moves.op (State.grant_moves _)); decide)
    | ((with_reducible apply Moves.op (State.modEng_moves _ _ _)); decide)
    | (unfold State.orElse; beta_reduce)
    | ((with_reducible apply Moves.op (State.raisePool_moves _ _)); decide)
    | (unfold State.run; beta_reduce)
    | (unfold State.runEng; beta_reduce)
    | (unfold State.runEngine; beta_reduce)
    | with_reducible apply Moves.ite
    | (extract_lets +onlyGivenNames u; (with_reducible apply Moves.let (u := u)); (intro h; clear_value u); rotate_left; subst u; rotate_right)
    | (extract_lets +onlyGivenNames v; subst v)
    | (split <;> beta_reduce))

theorem execEngineSelfTest_moves (a0) (a1) (s) : ∃ t, execEngineSelfTest a0 a1 s = .next t ∧ State.Moves [.aon, .book, .ctxs, .decisions, .chorus, .pair, .svc, .out] s t := by
  unfold execEngineSelfTest
  repeat' (first
    | (with_reducible refine ⟨_, rfl, ?_⟩)
    | with_reducible exact Moves.refl _ _
    | ((with_reducible apply Moves.op (State.complete_moves _ _ _)); decide)
    | (unfold State.orElse; beta_reduce)
    | (unfold State.run; beta_reduce)
    | (unfold State.runEng; beta_reduce)
    | (unfold State.runEngine; beta_reduce)
    | ((with_reducible apply Moves.op (State.testEngine_moves _ _ _)); decide)
    | with_reducible apply Moves.ite
    | (split <;> beta_reduce))

theorem execEngineToService_moves (a0) (a1) (s) : ∃ t, execEngineToService a0 a1 s = .next t ∧ State.Moves [.aon, .book, .ctxs, .decisions, .chorus, .pair, .svc, .out] s t := by
  unfold execEngineToService
  repeat' (first
    | (with_reducible refine ⟨_, rfl, ?_⟩)
    | with_reducible exact Moves.refl _ _
    | ((with_reducible apply Moves.op (State.complete_moves _ _ _)); decide)
    | ((with_reducible apply Moves.op (State.modEng_moves _ _ _)); decide)
    | (unfold State.orElse; beta_reduce)
    | (unfold State.run; beta_reduce)
    | (unfold State.runEng; beta_reduce)
    | (unfold State.runEngine; beta_reduce)
    | ((with_reducible apply Moves.op (State.selfTestEnd_moves _ _ _)); decide)
    | with_reducible apply Moves.ite
    | (extract_lets +onlyGivenNames v; subst v)
    | (split <;> beta_reduce))

theorem execQueryPoolParameters_moves (a0) (s) : ∃ t, execQueryPoolParameters a0 s = .next t ∧ State.Moves [.ctxs, .decisions, .pair, .svc, .out] s t := by
  unfold execQueryPoolParameters
  repeat' (first
    | (with_reducible refine ⟨_, rfl, ?_⟩)
    | with_reducible exact Moves.refl _ _
    | ((with_reducible apply Moves.op (State.complete_moves _ _ _)); decide)
    | (unfold State.orElse; beta_reduce)
    | (unfold State.run; beta_reduce)
    | (unfold State.runEngine; beta_reduce)
    | with_reducible apply Moves.ite
    | (extract_lets +onlyGivenNames v; subst v)
    | (split <;> beta_reduce))

theorem execSequencerOffline_moves (a0) (s) : ∃ t, execSequencerOffline a0 s = .next t ∧ State.Moves [.aon, .nor, .book, .power, .ctxs, .decisions, .names, .prot, .ports, .seqs, .patch, .chorus, .actCals, .pair, .svc, .out] s t := by
  unfold execSequencerOffline
  repeat' (first
    | (with_reducible intro)
    | (with_reducible refine ⟨_, rfl, ?_⟩)
    | with_reducible exact Moves.refl _ _
    | with_reducible assumption
    | ((with_reducible apply Moves.op (State.actOut_moves _ _)); decide)
    | ((with_reducible apply Moves.op (State.cancelGates_moves _ _ _ _)); decide)
    | ((with_reducible apply Moves.op (State.complete_moves _ _ _)); decide)
    | ((with_reducible apply Moves.op (State.failOp_moves _ _)); decide)
    | ((with_reducible apply Moves.op (State.modSeq_moves _ _ _)); decide)
    | (unfold State.orElse; beta_reduce)
    | (unfold State.run; beta_reduce)
    | (unfold State.runEngine; beta_reduce)
    | (unfold State.runSeq; beta_reduce)
    | ((with_reducible apply Moves.op (State.selectBank_moves _ _)); decide)
    | ((with_reducible apply Moves.op (State.seqToIdle_moves _ _ _)); decide)
    | with_reducible apply Moves.each
    | with_reducible apply Moves.ite
    | with_reducible apply Moves.when
    | (extract_lets +onlyGivenNames u; (with_reducible apply Moves.let (u := u)); (intro h; clear_value u); rotate_left; subst u; rotate_right)
    | (extract_lets +onlyGivenNames v; subst v)
    | (split <;> beta_reduce))

theorem execSequencerReinitialise_moves (a0) (a1) (s) : ∃ t, execSequencerReinitialise a0 a1 s = .next t ∧ State.Moves [.aon, .nor, .book, .power, .ctxs, .decisions, .names, .prot, .ports, .seqs, .patch, .chorus, .actCals, .pair, .svc, .out] s t := by
  unfold execSequencerReinitialise
  repeat' (first
    | (with_reducible refine ⟨_, rfl, ?_⟩)
    | with_reducible exact Moves.refl _ _
    | with_reducible assumption
    | ((with_reducible apply Moves.op (State.complete_moves _ _ _)); decide)
    | ((with_reducible apply Moves.op (State.modSeq_moves _ _ _)); decide)
    | ((with_reducible apply Moves.op (State.noteService_moves _ _)); decide)
    | (unfold State.orElse; beta_reduce)
    | (unfold State.run; beta_reduce)
    | (unfold State.runEngine; beta_reduce)
    | (unfold State.runSeq; beta_reduce)
    | ((with_reducible apply Moves.op (State.seqFault_moves _ _ _)); decide)
    | ((with_reducible apply Moves.op (State.seqRestart_moves _ _)); decide)
    | ((with_reducible apply Moves.op (State.settle_moves _)); decide)
    | ((with_reducible apply Moves.op (State.tryService_moves _ _)); decide)
    | with_reducible apply Moves.ite
    | (extract_lets +onlyGivenNames u; (with_reducible apply Moves.let (u := u)); (intro h; clear_value u); rotate_left; subst u; rotate_right)
    | (extract_lets +onlyGivenNames v; subst v)
    | (split <;> beta_reduce))

theorem execSequencerSelfTest_moves (a0) (a1) (s) : ∃ t, execSequencerSelfTest a0 a1 s = .next t ∧ State.Moves [.aon, .nor, .book, .power, .ctxs, .decisions, .names, .prot, .ports, .seqs, .patch, .chorus, .actCals, .pair, .svc, .out] s t := by
  unfold execSequencerSelfTest
  repeat' (first
    | (with_reducible refine ⟨_, rfl, ?_⟩)
    | (with_reducible intro)
    | with_reducible exact Moves.refl _ _
    | with_reducible assumption
    | ((with_reducible apply Moves.op (State.complete_moves _ _ _)); decide)
    | (unfold State.orElse; beta_reduce)
    | (unfold State.run; beta_reduce)
    | (unfold State.runEngine; beta_reduce)
    | (unfold State.runSeq; beta_reduce)
    | ((with_reducible apply Moves.op (State.seqFault_moves _ _ _)); decide)
    | with_reducible apply Moves.ite
    | with_reducible apply Moves.when
    | (split <;> beta_reduce))

theorem execSetPoolParameters_moves (a0) (s) : ∃ t, execSetPoolParameters a0 s = .next t ∧ State.Moves [.nor, .ctxs, .decisions, .chorus, .pair, .svc, .out] s t := by
  unfold execSetPoolParameters
  repeat' (first
    | (with_reducible refine ⟨_, rfl, ?_⟩)
    | with_reducible exact Moves.refl _ _
    | ((with_reducible apply Moves.op (State.complete_moves _ _ _)); decide)
    | ((with_reducible apply Moves.op (State.modCfg_moves _ _)); decide)
    | ((with_reducible apply Moves.op (State.modChorus_moves _ _)); decide)
    | (unfold State.orElse; beta_reduce)
    | (unfold State.run; beta_reduce)
    | (unfold State.runEngine; beta_reduce)
    | with_reducible apply Moves.ite
    | (extract_lets +onlyGivenNames v; subst v)
    | (split <;> beta_reduce))

theorem execSetSequencerParameters_moves (a0) (s) : ∃ t, execSetSequencerParameters a0 s = .next t ∧ State.Moves [.nor, .ctxs, .decisions, .seqs, .pair, .svc, .out] s t := by
  unfold execSetSequencerParameters
  repeat' (first
    | (with_reducible refine ⟨_, rfl, ?_⟩)
    | (with_reducible intro)
    | with_reducible exact Moves.refl _ _
    | with_reducible assumption
    | ((with_reducible apply Moves.op (State.complete_moves _ _ _)); decide)
    | (unfold State.orElse; beta_reduce)
    | (unfold State.run; beta_reduce)
    | (unfold State.runEngine; beta_reduce)
    | ((with_reducible apply Moves.op (State.setSeqParams_moves _ _ _)); decide)
    | with_reducible apply Moves.ite
    | with_reducible apply Moves.each
    | (extract_lets +onlyGivenNames v; subst v)
    | (split <;> beta_reduce))

end Sys2Proof.Machine
end

