-- ==== Sys2Proof/Laws/Thermal.lean ====
section
/-! SUPPORT. What each operation and each command of Machine/Thermal.lean can do to the state. -/

namespace Sys2Proof.Machine

theorem State.judgeHda_moves (a0) (s) : State.Moves [.aon, .book, .actCals, .therm] s (State.judgeHda a0 s) := by
  unfold State.judgeHda
  repeat' (first
    | (with_reducible intro)
    | with_reducible exact Moves.refl _ _
    | with_reducible assumption
    | ((with_reducible apply Moves.op (State.modTherm_moves _ _)); decide)
    | ((with_reducible apply Moves.op (State.noteHolds_moves _ _)); decide)
    | ((with_reducible apply Moves.op (State.raiseTherm_moves _ _ _)); decide)
    | with_reducible apply Moves.when)

theorem State.judgeRequest_moves (s) : State.Moves [.aon, .book, .therm] s (State.judgeRequest s) := by
  unfold State.judgeRequest
  repeat' (first
    | with_reducible exact Moves.refl _ _
    | ((with_reducible apply Moves.op (State.modTherm_moves _ _)); decide)
    | ((with_reducible apply Moves.op (State.raiseTherm_moves _ _ _)); decide)
    | with_reducible apply Moves.ite)

theorem State.setThermStep_moves (a0) (s) : State.Moves [.aon, .book, .chorus, .therm] s (State.setThermStep a0 s) := by
  unfold State.setThermStep
  repeat' (first
    | (with_reducible intro)
    | with_reducible exact Moves.refl _ _
    | with_reducible assumption
    | ((with_reducible apply Moves.op (State.limitEngines_moves _)); decide)
    | ((with_reducible apply Moves.op (State.modTherm_moves _ _)); decide)
    | ((with_reducible apply Moves.op (State.raiseTherm_moves _ _ _)); decide)
    | with_reducible apply Moves.ite
    | with_reducible apply Moves.when)

theorem State.raiseStep_moves (a0) (s) : State.Moves [.aon, .book, .chorus, .therm] s (State.raiseStep a0 s) := by
  unfold State.raiseStep
  repeat' (first
    | with_reducible exact Moves.refl _ _
    | ((with_reducible apply Moves.op (State.setThermStep_moves _ _)); decide)
    | with_reducible apply Moves.ite)

theorem State.judgeRise_moves (a0) (a1) (s) : State.Moves [.aon, .book, .chorus, .therm] s (State.judgeRise a0 a1 s) := by
  unfold State.judgeRise
  repeat' (first
    | (with_reducible intro)
    | with_reducible exact Moves.refl _ _
    | with_reducible assumption
    | ((with_reducible apply Moves.op (State.modTherm_moves _ _)); decide)
    | ((with_reducible apply Moves.op (State.raiseStep_moves _ _)); decide)
    | ((with_reducible apply Moves.op (State.raiseTherm_moves _ _ _)); decide)
    | with_reducible apply Moves.ite
    | with_reducible apply Moves.when)

theorem State.judgeCool_moves (s) : State.Moves [.therm] s (State.judgeCool s) := by
  unfold State.judgeCool
  repeat' (first
    | (with_reducible intro)
    | with_reducible exact Moves.refl _ _
    | with_reducible assumption
    | ((with_reducible apply Moves.op (State.modTherm_moves _ _)); decide)
    | with_reducible apply Moves.ite
    | with_reducible apply Moves.when
    | (extract_lets +onlyGivenNames u; (with_reducible apply Moves.let (u := u)); (intro h; clear_value u); rotate_left; subst u; rotate_right)
    | (extract_lets +onlyGivenNames v; subst v)
    | split)

theorem State.judgeTherm_moves (a0) (s) : State.Moves [.aon, .book, .chorus, .therm] s (State.judgeTherm a0 s) := by
  unfold State.judgeTherm
  repeat' (first
    | (with_reducible intro)
    | with_reducible exact Moves.refl _ _
    | with_reducible assumption
    | ((with_reducible apply Moves.op (State.judgeCool_moves _)); decide)
    | ((with_reducible apply Moves.op (State.judgeRequest_moves _)); decide)
    | ((with_reducible apply Moves.op (State.modTherm_moves _ _)); decide)
    | ((with_reducible apply Moves.op (State.raiseTherm_moves _ _ _)); decide)
    | ((with_reducible apply Moves.op (State.setThermStep_moves _ _)); decide)
    | with_reducible apply Moves.ite
    | with_reducible apply Moves.when
    | (extract_lets +onlyGivenNames u; (with_reducible apply Moves.let (u := u)); (intro h; clear_value u); rotate_left; subst u; rotate_right)
    | (extract_lets +onlyGivenNames v; subst v)
    | split)

theorem State.thermalShutdown_moves (s) : State.Moves [.pins, .aon, .boot, .nor, .book, .ident, .power, .fa, .fb, .ctxs, .admission, .decisions, .lastShared, .names, .prot, .ports, .spins, .acts, .seqs, .patch, .chorus, .actCals, .portCals, .cal, .mem, .mcache, .xing, .therm, .pair, .svc] s (State.thermalShutdown s) := by
  unfold State.thermalShutdown
  repeat' (first
    | with_reducible exact Moves.refl _ _
    | ((with_reducible apply Moves.op (State.enterCold_moves _)); decide)
    | ((with_reducible apply State.modAon_moves); exact fun _ => ⟨rfl, rfl⟩; decide)
    | ((with_reducible apply Moves.op (State.modTherm_moves _ _)); decide)
    | ((with_reducible apply Moves.op (State.raiseTherm_moves _ _ _)); decide)
    | ((with_reducible apply Moves.op (State.setCause_moves _ _)); decide))

theorem State.testShutdown_moves (s) : State.Moves [.pins, .aon, .boot, .nor, .book, .ident, .power, .fa, .fb, .ctxs, .admission, .decisions, .lastShared, .names, .prot, .ports, .spins, .acts, .seqs, .patch, .chorus, .actCals, .portCals, .cal, .mem, .mcache, .xing, .therm, .pair, .svc] s (State.testShutdown s) := by
  unfold State.testShutdown
  repeat' (first
    | with_reducible exact Moves.refl _ _
    | ((with_reducible apply Moves.op (State.modTherm_moves _ _)); decide)
    | ((with_reducible apply Moves.op (State.thermalShutdown_moves _)); decide)
    | with_reducible apply Moves.ite)

theorem execCompensationTrim_moves (a0) (s) : ∃ t, execCompensationTrim a0 s = .next t ∧ State.Moves [.now, .xing, .therm] s t := by
  unfold execCompensationTrim
  repeat' (first
    | (with_reducible intro)
    | (with_reducible refine ⟨_, rfl, ?_⟩)
    | with_reducible exact Moves.refl _ _
    | with_reducible assumption
    | ((with_reducible apply Moves.op (State.at__moves _ _)); decide)
    | ((with_reducible apply Moves.op (State.modTherm_moves _ _)); decide)
    | ((with_reducible apply Moves.op (State.modXing_moves _ _)); decide)
    | with_reducible apply Moves.ite
    | with_reducible apply Moves.when
    | (extract_lets +onlyGivenNames u; (with_reducible apply Moves.let (u := u)); (intro h; clear_value u); rotate_left; subst u; rotate_right)
    | (extract_lets +onlyGivenNames v; subst v)
    | (split <;> beta_reduce))

theorem execExcludeSensor_moves (a0) (s) : ∃ t, execExcludeSensor a0 s = .next t ∧ State.Moves [.aon, .book, .ctxs, .decisions, .chorus, .therm, .pair, .svc, .out] s t := by
  unfold execExcludeSensor
  repeat' (first
    | (with_reducible refine ⟨_, rfl, ?_⟩)
    | with_reducible exact Moves.refl _ _
    | with_reducible assumption
    | ((with_reducible apply Moves.op (State.complete_moves _ _ _)); decide)
    | ((with_reducible apply Moves.op (State.judgeTherm_moves _ _)); decide)
    | ((with_reducible apply Moves.op (State.modTherm_moves _ _)); decide)
    | (unfold State.orElse; beta_reduce)
    | (unfold State.run; beta_reduce)
    | (unfold State.runTherm; beta_reduce)
    | with_reducible apply Moves.ite
    | (extract_lets +onlyGivenNames u; (with_reducible apply Moves.let (u := u)); (intro h; clear_value u); rotate_left; subst u; rotate_right)
    | (extract_lets +onlyGivenNames v; subst v)
    | (split <;> beta_reduce))

theorem execGraceExpiry_moves (s) : ∃ t, execGraceExpiry s = .next t ∧ State.Moves [.now, .aon, .book, .chorus, .therm] s t := by
  unfold execGraceExpiry
  repeat' (first
    | (with_reducible refine ⟨_, rfl, ?_⟩)
    | with_reducible exact Moves.refl _ _
    | ((with_reducible apply Moves.op (State.at__moves _ _)); decide)
    | ((with_reducible apply Moves.op (State.modTherm_moves _ _)); decide)
    | ((with_reducible apply Moves.op (State.raiseStep_moves _ _)); decide)
    | with_reducible apply Moves.ite
    | (split <;> beta_reduce))

theorem execRateRisePersist_moves (a0) (s) : ∃ t, execRateRisePersist a0 s = .next t ∧ State.Moves [.now, .aon, .book, .chorus, .therm] s t := by
  unfold execRateRisePersist
  repeat' (first
    | (with_reducible refine ⟨_, rfl, ?_⟩)
    | with_reducible exact Moves.refl _ _
    | ((with_reducible apply Moves.op (State.at__moves _ _)); decide)
    | ((with_reducible apply Moves.op (State.modTherm_moves _ _)); decide)
    | ((with_reducible apply Moves.op (State.raiseStep_moves _ _)); decide)
    | with_reducible apply Moves.ite
    | (split <;> beta_reduce))

theorem execSensorConversion_moves (a0) (a1) (a2) (s) : ∃ t, execSensorConversion a0 a1 a2 s = .next t ∧ State.Moves [.now, .pins, .aon, .boot, .nor, .book, .ident, .power, .fa, .fb, .ctxs, .admission, .decisions, .lastShared, .names, .prot, .ports, .spins, .acts, .seqs, .patch, .chorus, .actCals, .portCals, .cal, .mem, .mcache, .xing, .therm, .pair, .svc] s t := by
  unfold execSensorConversion
  repeat' (first
    | (with_reducible refine ⟨_, rfl, ?_⟩)
    | (with_reducible intro)
    | with_reducible exact Moves.refl _ _
    | with_reducible assumption
    | ((with_reducible apply Moves.op (State.at__moves _ _)); decide)
    | ((with_reducible apply Moves.op (State.judgeRise_moves _ _ _)); decide)
    | ((with_reducible apply Moves.op (State.judgeTherm_moves _ _)); decide)
    | ((with_reducible apply Moves.op (State.modTherm_moves _ _)); decide)
    | ((with_reducible apply Moves.op (State.raiseTherm_moves _ _ _)); decide)
    | ((with_reducible apply Moves.op (State.testShutdown_moves _)); decide)
    | with_reducible apply Moves.ite
    | with_reducible apply Moves.when
    | (split <;> beta_reduce))

theorem execSetHdaThresholds_moves (a0) (s) : ∃ t, execSetHdaThresholds a0 s = .next t ∧ State.Moves [.aon, .nor, .book, .ctxs, .decisions, .actCals, .therm, .pair, .svc, .out] s t := by
  unfold execSetHdaThresholds
  repeat' (first
    | (with_reducible refine ⟨_, rfl, ?_⟩)
    | (with_reducible intro)
    | with_reducible exact Moves.refl _ _
    | with_reducible assumption
    | ((with_reducible apply Moves.op (State.complete_moves _ _ _)); decide)
    | ((with_reducible apply Moves.op (State.judgeHda_moves _ _)); decide)
    | ((with_reducible apply Moves.op (State.modCfg_moves _ _)); decide)
    | ((with_reducible apply Moves.op (State.modTherm_moves _ _)); decide)
    | (unfold State.orElse; beta_reduce)
    | (unfold State.run; beta_reduce)
    | (unfold State.runTherm; beta_reduce)
    | with_reducible apply Moves.ite
    | with_reducible apply Moves.each
    | (extract_lets +onlyGivenNames u; (with_reducible apply Moves.let (u := u)); (intro h; clear_value u); rotate_left; subst u; rotate_right)
    | (extract_lets +onlyGivenNames v; subst v)
    | (split <;> beta_reduce))

theorem execStepRelease_moves (s) : ∃ t, execStepRelease s = .next t ∧ State.Moves [.now, .aon, .book, .chorus, .therm] s t := by
  unfold execStepRelease
  repeat' (first
    | (with_reducible refine ⟨_, rfl, ?_⟩)
    | with_reducible exact Moves.refl _ _
    | ((with_reducible apply Moves.op (State.at__moves _ _)); decide)
    | ((with_reducible apply Moves.op (State.modTherm_moves _ _)); decide)
    | ((with_reducible apply Moves.op (State.setThermStep_moves _ _)); decide)
    | with_reducible apply Moves.ite
    | (split <;> beta_reduce))

theorem execThermalControlQuery_moves (a0) (s) : ∃ t, execThermalControlQuery a0 s = .next t ∧ State.Moves [.ctxs, .decisions, .pair, .svc, .out] s t := by
  unfold execThermalControlQuery
  repeat' (first
    | (with_reducible refine ⟨_, rfl, ?_⟩)
    | with_reducible exact Moves.refl _ _
    | ((with_reducible apply Moves.op (State.complete_moves _ _ _)); decide)
    | (unfold State.orElse; beta_reduce)
    | (unfold State.run; beta_reduce)
    | (unfold State.runTherm; beta_reduce)
    | with_reducible apply Moves.ite
    | (split <;> beta_reduce))

theorem execThermalRestart_moves (s) : ∃ t, execThermalRestart s = .next t ∧ State.Moves [.now, .aon, .boot, .therm] s t := by
  unfold execThermalRestart
  repeat' (first
    | (with_reducible refine ⟨_, rfl, ?_⟩)
    | with_reducible exact Moves.refl _ _
    | ((with_reducible apply Moves.op (State.at__moves _ _)); decide)
    | ((with_reducible apply State.modAon_moves); exact fun _ => ⟨rfl, rfl⟩; decide)
    | ((with_reducible apply State.modBoot_moves); exact fun _ => ⟨rfl, rfl⟩; decide)
    | ((with_reducible apply Moves.op (State.modTherm_moves _ _)); decide)
    | with_reducible apply Moves.ite
    | (split <;> beta_reduce))

end Sys2Proof.Machine
end

