-- ==== Sys2Proof/Laws/Memory.lean ====
section
/-! SUPPORT. What each operation and each command of Machine/Memory.lean can do to the state. -/

namespace Sys2Proof.Machine

theorem State.contextHit_moves (a0) (s) : State.Moves [.aon, .nor, .book, .power, .fa, .fb, .ctxs, .decisions, .names, .prot, .ports, .spins, .acts, .seqs, .chorus, .actCals, .mem, .mcache, .pair, .svc, .free, .out] s (State.contextHit a0 s) := by
  unfold State.contextHit
  repeat' (first
    | ((with_reducible apply Moves.op (State.bufferChanged_moves _)); decide)
    | ((with_reducible apply Moves.op (State.complete_moves _ _ _)); decide)
    | (refine Moves.base (u := s) (by with_reducible first | exact Moves.refl _ _ | assumption) ?_ rfl rfl fun h => ⟨h.filled, h.complete, h.ready, h.bufs, h.served, h.therms, h.holds, h.ring, h.ctxs⟩; intro x hx; cases x <;> first | exact absurd (by decide) hx | (unfold State.same; with_reducible rfl)))

theorem State.dropCapture_moves (a0) (a1) (s) : State.Moves [.aon, .book, .ctxs, .decisions, .prot, .seqs, .chorus, .pair, .svc, .out] s (State.dropCapture a0 a1 s) := by
  unfold State.dropCapture
  repeat' (first
    | (with_reducible intro)
    | with_reducible exact Moves.refl _ _
    | with_reducible assumption
    | ((with_reducible apply Moves.op (State.afterStep_moves _ _)); decide)
    | ((with_reducible apply Moves.op (State.captureFailed_moves _ _ _ _)); decide)
    | ((with_reducible apply Moves.op (State.modEng_moves _ _ _)); decide)
    | with_reducible apply Moves.each
    | (extract_lets +onlyGivenNames u; (with_reducible apply Moves.let (u := u)); (intro h; clear_value u); rotate_left; subst u; rotate_right)
    | (extract_lets +onlyGivenNames v; subst v)
    | split)

theorem State.dropSample_moves (a0) (s) : State.Moves [.ports] s (State.dropSample a0 s) := by
  unfold State.dropSample
  repeat' (first
    | with_reducible exact Moves.refl _ _
    | ((with_reducible apply State.modPort_moves); exact fun _ => ⟨rfl, rfl⟩; decide)
    | ((with_reducible apply Moves.op (State.seqError_moves _ _)); decide))

theorem State.dropSpill_moves (a0) (a1) (s) : State.Moves [.ctxs, .seqs, .chorus] s (State.dropSpill a0 a1 s) := by
  unfold State.dropSpill
  repeat' (first
    | (with_reducible intro)
    | with_reducible exact Moves.refl _ _
    | with_reducible assumption
    | ((with_reducible apply Moves.op (State.modChorus_moves _ _)); decide)
    | ((with_reducible apply State.modCtx_moves); exact fun _ _ => rfl; decide)
    | ((with_reducible apply Moves.op (State.modSeq_moves _ _ _)); decide)
    | ((with_reducible apply Moves.op (State.noteRequest_moves _ _)); decide)
    | with_reducible apply Moves.each
    | with_reducible apply Moves.ite
    | with_reducible apply Moves.when
    | (extract_lets +onlyGivenNames u; (with_reducible apply Moves.let (u := u)); (intro h; clear_value u); rotate_left; subst u; rotate_right)
    | (extract_lets +onlyGivenNames v; subst v)
    | split)

theorem State.listLost_moves (a0) (s) : State.Moves [.boot, .names] s (State.listLost a0 s) := by
  unfold State.listLost
  repeat' (first
    | with_reducible exact Moves.refl _ _
    | ((with_reducible apply State.modBoot_moves); exact fun _ => ⟨rfl, rfl⟩; decide)
    | ((with_reducible apply Moves.op (State.modNames_moves _ _)); decide))

theorem State.loseMapPage_moves (a0) (a1) (s) : State.Moves [.boot, .names] s (State.loseMapPage a0 a1 s) := by
  unfold State.loseMapPage
  repeat' (first
    | with_reducible exact Moves.refl _ _
    | ((with_reducible apply Moves.op (State.listLost_moves _ _)); decide)
    | with_reducible apply Moves.ite)

theorem State.lineHit_moves (a0) (a1) (s) : State.Moves [.boot, .names, .mcache] s (State.lineHit a0 a1 s) := by
  unfold State.lineHit
  repeat' (first
    | with_reducible exact Moves.refl _ _
    | with_reducible assumption
    | ((with_reducible apply Moves.op (State.loseMapPage_moves _ _ _)); decide)
    | ((with_reducible apply Moves.op (State.modCache_moves _ _)); decide)
    | with_reducible apply Moves.ite
    | (extract_lets +onlyGivenNames u; (with_reducible apply Moves.let (u := u)); (intro h; clear_value u); rotate_left; subst u; rotate_right)
    | (extract_lets +onlyGivenNames v; subst v)
    | split)

theorem State.loseDirty_moves (a0) (a1) (s) : State.Moves [.aon, .boot, .nor, .book, .power, .fa, .fb, .ctxs, .decisions, .names, .prot, .ports, .spins, .acts, .seqs, .chorus, .actCals, .mem, .mcache, .pair, .svc, .free, .out] s (State.loseDirty a0 a1 s) := by
  unfold State.loseDirty
  repeat' (first
    | (with_reducible intro)
    | with_reducible exact Moves.refl _ _
    | with_reducible assumption
    | ((with_reducible apply Moves.op (State.bufferChanged_moves _)); decide)
    | ((with_reducible apply Moves.op (State.complete_moves _ _ _)); decide)
    | ((with_reducible apply Moves.op (State.listLost_moves _ _)); decide)
    | ((with_reducible apply Moves.op (State.modNames_moves _ _)); decide)
    | with_reducible apply Moves.each)

theorem State.noteUncorrectable_moves (a0) (a1) (a2) (s) : State.Moves [.aon, .book, .mem] s (State.noteUncorrectable a0 a1 a2 s) := by
  unfold State.noteUncorrectable
  repeat' (first
    | with_reducible exact Moves.refl _ _
    | ((with_reducible apply Moves.op (State.modMem_moves _ _)); decide)
    | ((with_reducible apply Moves.op (State.raiseMem_moves _ _ _)); decide))

theorem State.rereadRun_moves (a0) (a1) (a2) (s) : State.Moves [.prot] s (State.rereadRun a0 a1 a2 s) := by
  unfold State.rereadRun
  repeat' (first
    | (with_reducible intro)
    | with_reducible exact Moves.refl _ _
    | with_reducible assumption
    | ((with_reducible apply Moves.op (State.modProt_moves _ _)); decide)
    | with_reducible apply Moves.ite
    | with_reducible apply Moves.when
    | (extract_lets +onlyGivenNames u; (with_reducible apply Moves.let (u := u)); (intro h; clear_value u); rotate_left; subst u; rotate_right)
    | (extract_lets +onlyGivenNames v; subst v)
    | split)

theorem State.reloadTables_moves (s) : State.Moves [.prot] s (State.reloadTables s) := by
  unfold State.reloadTables
  repeat' (first
    | (with_reducible intro)
    | with_reducible exact Moves.refl _ _
    | with_reducible assumption
    | ((with_reducible apply Moves.op (State.modProt_moves _ _)); decide)
    | with_reducible apply Moves.ite
    | with_reducible apply Moves.when
    | (extract_lets +onlyGivenNames u; (with_reducible apply Moves.let (u := u)); (intro h; clear_value u); rotate_left; subst u; rotate_right)
    | (extract_lets +onlyGivenNames v; subst v)
    | split)

theorem State.reloadDirLine_moves (a0) (a1) (s) : State.Moves [.names] s (State.reloadDirLine a0 a1 s) := by
  unfold State.reloadDirLine
  repeat' (first
    | (with_reducible intro)
    | with_reducible exact Moves.refl _ _
    | with_reducible assumption
    | ((with_reducible apply Moves.op (State.modNames_moves _ _)); decide)
    | with_reducible apply Moves.ite
    | with_reducible apply Moves.when
    | (extract_lets +onlyGivenNames u; (with_reducible apply Moves.let (u := u)); (intro h; clear_value u); rotate_left; subst u; rotate_right)
    | (extract_lets +onlyGivenNames v; subst v)
    | split)

theorem State.regionOutcome_moves (d) (a0) (s) : State.Moves [.aon, .boot, .nor, .book, .power, .fa, .fb, .ctxs, .decisions, .names, .prot, .ports, .spins, .acts, .seqs, .patch, .chorus, .actCals, .mem, .mcache, .xing, .therm, .pair, .svc, .free, .out] s (State.regionOutcome d s a0) := by
  induction a0 generalizing s <;> unfold State.regionOutcome
  repeat' (first
    | with_reducible exact (by assumption : ∀ s, State.Moves _ s (State.regionOutcome d s _)) _
    | (with_reducible intro)
    | with_reducible exact Moves.refl _ _
    | with_reducible assumption
    | ((with_reducible apply Moves.op (State.contextHit_moves _ _)); decide)
    | ((with_reducible apply Moves.op (State.dropCapture_moves _ _ _)); decide)
    | ((with_reducible apply Moves.op (State.dropSample_moves _ _)); decide)
    | ((with_reducible apply Moves.op (State.dropSpill_moves _ _ _)); decide)
    | ((with_reducible apply Moves.op (State.engineFaults_moves _ _)); decide)
    | ((with_reducible apply Moves.op (State.lineHit_moves _ _ _)); decide)
    | ((with_reducible apply Moves.op (State.listLost_moves _ _)); decide)
    | ((with_reducible apply Moves.op (State.loseDirty_moves _ _ _)); decide)
    | ((with_reducible apply Moves.op (State.loseMapPage_moves _ _ _)); decide)
    | ((with_reducible apply State.modAon_moves); exact fun _ => ⟨rfl, rfl⟩; decide)
    | ((with_reducible apply State.modBook_moves); exact fun _ => ⟨rfl, rfl⟩; decide)
    | ((with_reducible apply Moves.op (State.modNames_moves _ _)); decide)
    | ((with_reducible apply Moves.op (State.modProt_moves _ _)); decide)
    | ((with_reducible apply Moves.op (State.portReset_moves _ _)); decide)
    | ((with_reducible apply Moves.op (State.settle_moves _)); decide)
    | ((with_reducible apply Moves.op (State.reloadDirLine_moves _ _ _)); decide)
    | ((with_reducible apply Moves.op (State.reloadTables_moves _)); decide)
    | ((with_reducible apply Moves.op (State.loadCalibration_moves _ _)); decide)
    | ((with_reducible apply Moves.op (State.rereadRun_moves _ _ _ _)); decide)
    | ((with_reducible apply Moves.op (State.seqFault_moves _ _ _)); decide)
    | ((with_reducible apply State.modBook_at); rfl; (intro h; simpa [mapWhere] using h); decide)
    | with_reducible apply Moves.ite
    | with_reducible apply Moves.when
    | (extract_lets +onlyGivenNames u; (with_reducible apply Moves.let (u := u)); (intro h; clear_value u); rotate_left; subst u; rotate_right)
    | (extract_lets +onlyGivenNames v; subst v)
    | split)

theorem State.endDma_moves (a0) (a1) (s) : State.Moves [.aon, .nor, .book, .power, .fa, .fb, .ctxs, .decisions, .names, .prot, .ports, .spins, .acts, .seqs, .patch, .chorus, .actCals, .mem, .mcache, .pair, .svc, .free, .out] s (State.endDma a0 a1 s) := by
  unfold State.endDma
  repeat' (first
    | (with_reducible intro)
    | with_reducible exact Moves.refl _ _
    | with_reducible assumption
    | ((with_reducible apply Moves.op (State.contextHit_moves _ _)); decide)
    | ((with_reducible apply Moves.op (State.encoderStop_moves _ _)); decide)
    | ((with_reducible apply Moves.op (State.endOp_moves _ _ _ _)); decide)
    | ((with_reducible apply Moves.op (State.rereadRun_moves _ _ _ _)); decide)
    | with_reducible apply Moves.each
    | with_reducible apply Moves.ite
    | with_reducible apply Moves.when
    | (extract_lets +onlyGivenNames u; (with_reducible apply Moves.let (u := u)); (intro h; clear_value u); rotate_left; subst u; rotate_right)
    | (extract_lets +onlyGivenNames v; subst v)
    | split)

theorem execDmaHalt_moves (a0) (a1) (a2) (s) : ∃ t, execDmaHalt a0 a1 a2 s = .next t ∧ State.Moves [.aon, .nor, .book, .power, .fa, .fb, .ctxs, .decisions, .names, .prot, .ports, .spins, .acts, .seqs, .patch, .chorus, .actCals, .mem, .mcache, .pair, .svc, .free, .out] s t := by
  unfold execDmaHalt
  repeat' (first
    | (with_reducible intro)
    | (with_reducible refine ⟨_, rfl, ?_⟩)
    | with_reducible exact Moves.refl _ _
    | with_reducible assumption
    | ((with_reducible apply Moves.op (State.endDma_moves _ _ _)); decide)
    | ((with_reducible apply Moves.op (State.modMem_moves _ _)); decide)
    | ((with_reducible apply Moves.op (State.raiseMem_moves _ _ _)); decide)
    | with_reducible apply Moves.ite
    | with_reducible apply Moves.when
    | (extract_lets +onlyGivenNames u; (with_reducible apply Moves.let (u := u)); (intro h; clear_value u); rotate_left; subst u; rotate_right)
    | (extract_lets +onlyGivenNames v; subst v)
    | (split <;> beta_reduce))

theorem execDqsOscillatorRead_moves (a0) (a1) (s) : ∃ t, execDqsOscillatorRead a0 a1 s = .next t ∧ State.Moves [.now, .mem] s t := by
  unfold execDqsOscillatorRead
  repeat' (first
    | (with_reducible intro)
    | (with_reducible refine ⟨_, rfl, ?_⟩)
    | with_reducible exact Moves.refl _ _
    | with_reducible assumption
    | ((with_reducible apply Moves.op (State.at__moves _ _)); decide)
    | ((with_reducible apply Moves.op (State.modMem_moves _ _)); decide)
    | ((with_reducible apply Moves.op (State.wake_moves _)); decide)
    | with_reducible apply Moves.ite
    | with_reducible apply Moves.when
    | (extract_lets +onlyGivenNames u; (with_reducible apply Moves.let (u := u)); (intro h; clear_value u); rotate_left; subst u; rotate_right)
    | (extract_lets +onlyGivenNames v; subst v)
    | (split <;> beta_reduce))

theorem execDramScrub_moves (a0) (s) : ∃ t, execDramScrub a0 s = .next t ∧ State.Moves [.aon, .book, .mem, .free] s t := by
  unfold execDramScrub
  repeat' (first
    | (with_reducible intro)
    | (with_reducible refine ⟨_, rfl, ?_⟩)
    | with_reducible exact Moves.refl _ _
    | with_reducible assumption
    | ((with_reducible apply Moves.op (State.dramAccess_moves _ _ _)); decide)
    | ((with_reducible apply Moves.op (State.modMem_moves _ _)); decide)
    | ((with_reducible apply Moves.op (State.noteCorrected_moves _ _ _)); decide)
    | with_reducible apply Moves.each
    | with_reducible apply Moves.ite
    | with_reducible apply Moves.when
    | (extract_lets +onlyGivenNames u; (with_reducible apply Moves.let (u := u)); (intro h; clear_value u); rotate_left; subst u; rotate_right)
    | (extract_lets +onlyGivenNames v; subst v)
    | (split <;> beta_reduce))

theorem execInstructionFetchTrap_moves (a0) (a1) (s) : ∃ t, execInstructionFetchTrap a0 a1 s = .next t ∧ State.Moves [.aon, .book, .ident, .mem] s t := by
  unfold execInstructionFetchTrap
  repeat' (first
    | (with_reducible refine ⟨_, rfl, ?_⟩)
    | (with_reducible intro)
    | with_reducible exact Moves.refl _ _
    | with_reducible assumption
    | ((with_reducible apply State.modAon_moves); exact fun _ => ⟨rfl, rfl⟩; decide)
    | ((with_reducible apply Moves.op (State.modIdent_moves _ _)); decide)
    | ((with_reducible apply Moves.op (State.noteUncorrectable_moves _ _ _ _)); decide)
    | with_reducible apply Moves.ite
    | with_reducible apply Moves.when)

theorem execMr4Poll_moves (a0) (a1) (a2) (a3) (s) : ∃ t, execMr4Poll a0 a1 a2 a3 s = .next t ∧ State.Moves [.aon, .book, .mem, .therm] s t := by
  unfold execMr4Poll
  repeat' (first
    | (with_reducible intro)
    | (with_reducible refine ⟨_, rfl, ?_⟩)
    | with_reducible exact Moves.refl _ _
    | with_reducible assumption
    | ((with_reducible apply Moves.op (State.judgeCool_moves _)); decide)
    | ((with_reducible apply Moves.op (State.judgeRequest_moves _)); decide)
    | ((with_reducible apply Moves.op (State.modMem_moves _ _)); decide)
    | ((with_reducible apply Moves.op (State.modTherm_moves _ _)); decide)
    | ((with_reducible apply Moves.op (State.raiseTherm_moves _ _ _)); decide)
    | ((with_reducible apply Moves.op (State.wake_moves _)); decide)
    | with_reducible apply Moves.ite
    | with_reducible apply Moves.when
    | (extract_lets +onlyGivenNames u; (with_reducible apply Moves.let (u := u)); (intro h; clear_value u); rotate_left; subst u; rotate_right)
    | (extract_lets +onlyGivenNames v; subst v)
    | (split <;> beta_reduce))

theorem execPageRetire_moves (a0) (s) : ∃ t, execPageRetire a0 s = .next t ∧ State.Moves [.aon, .nor, .book, .mem, .free] s t := by
  unfold execPageRetire
  repeat' (first
    | (with_reducible refine ⟨_, rfl, ?_⟩)
    | with_reducible exact Moves.refl _ _
    | ((with_reducible apply Moves.op (State.modMem_moves _ _)); decide)
    | ((with_reducible apply Moves.op (State.retirePage_moves _ _)); decide)
    | with_reducible apply Moves.ite)

theorem execSramScrub_moves (a0) (s) : ∃ t, execSramScrub a0 s = .next t ∧ State.Moves [.aon, .book, .mem] s t := by
  unfold execSramScrub
  repeat' (first
    | (with_reducible intro)
    | (with_reducible refine ⟨_, rfl, ?_⟩)
    | with_reducible exact Moves.refl _ _
    | with_reducible assumption
    | ((with_reducible apply Moves.op (State.modMem_moves _ _)); decide)
    | ((with_reducible apply Moves.op (State.noteCorrected_moves _ _ _)); decide)
    | with_reducible apply Moves.each
    | with_reducible apply Moves.ite
    | with_reducible apply Moves.when
    | (extract_lets +onlyGivenNames u; (with_reducible apply Moves.let (u := u)); (intro h; clear_value u); rotate_left; subst u; rotate_right)
    | (extract_lets +onlyGivenNames v; subst v)
    | (split <;> beta_reduce))

theorem execUncorrectableError_moves (a0) (a1) (a2) (s) : ∃ t, execUncorrectableError a0 a1 a2 s = .next t ∧ State.Moves [.aon, .boot, .nor, .book, .power, .fa, .fb, .ctxs, .decisions, .names, .prot, .ports, .spins, .acts, .seqs, .patch, .chorus, .actCals, .mem, .mcache, .xing, .therm, .pair, .svc, .free, .out] s t := by
  unfold execUncorrectableError
  repeat' (first
    | (with_reducible intro)
    | (with_reducible refine ⟨_, rfl, ?_⟩)
    | with_reducible exact Moves.refl _ _
    | with_reducible assumption
    | ((with_reducible apply Moves.op (State.modMem_moves _ _)); decide)
    | ((with_reducible apply Moves.op (State.noteUncorrectable_moves _ _ _ _)); decide)
    | ((with_reducible apply Moves.op (State.regionOutcome_moves _ _ _)); decide)
    | with_reducible apply Moves.ite
    | with_reducible apply Moves.when
    | (extract_lets +onlyGivenNames u; (with_reducible apply Moves.let (u := u)); (intro h; clear_value u); rotate_left; subst u; rotate_right)
    | (extract_lets +onlyGivenNames v; subst v)
    | (split <;> beta_reduce))

theorem execZqCalibration_moves (a0) (s) : ∃ t, execZqCalibration a0 s = .next t ∧ State.Moves [.now, .mem] s t := by
  unfold execZqCalibration
  repeat' (first
    | (with_reducible intro)
    | (with_reducible refine ⟨_, rfl, ?_⟩)
    | with_reducible exact Moves.refl _ _
    | with_reducible assumption
    | ((with_reducible apply Moves.op (State.at__moves _ _)); decide)
    | ((with_reducible apply Moves.op (State.modMem_moves _ _)); decide)
    | ((with_reducible apply Moves.op (State.wake_moves _)); decide)
    | with_reducible apply Moves.ite
    | with_reducible apply Moves.when
    | (extract_lets +onlyGivenNames u; (with_reducible apply Moves.let (u := u)); (intro h; clear_value u); rotate_left; subst u; rotate_right)
    | (extract_lets +onlyGivenNames v; subst v)
    | (split <;> beta_reduce))

/-- A page of the running image reloads when what the slot holds for it has the digest recorded (spec/16 R572). -/
theorem State.pageReloads_of {s : State} {page : Nat} {l : List Byte}
    (hl : pageOf (sectionBytes (s.nor.slotOf s.aon.slot) 20 ++ sectionBytes (s.nor.slotOf s.aon.slot) 28) page = l)
    (hd : s.ident.pages[page]? = some (digest l)) (hr : s.aon.recovery = false) : s.pageReloads page = true := by
  simp [State.pageReloads, hl, hd, hr]

theorem execStagingError_moves (a0) (s) : ∃ t, execStagingError a0 s = .next t ∧ State.Moves [.aon, .nor, .book, .power, .ctxs, .decisions, .names, .prot, .ports, .seqs, .patch, .chorus, .actCals, .mem, .pair, .svc, .out] s t := by
  unfold execStagingError
  repeat' (first
    | (with_reducible intro)
    | (with_reducible refine ⟨_, rfl, ?_⟩)
    | with_reducible exact Moves.refl _ _
    | with_reducible assumption
    | ((with_reducible apply Moves.op (State.encoderStop_moves _ _)); decide)
    | ((with_reducible apply Moves.op (State.noteUncorrectable_moves _ _ _ _)); decide)
    | with_reducible apply Moves.ite
    | with_reducible apply Moves.when
    | (extract_lets +onlyGivenNames u; (with_reducible apply Moves.let (u := u)); (intro h; clear_value u); rotate_left; subst u; rotate_right)
    | (extract_lets +onlyGivenNames v; subst v)
    | (split <;> beta_reduce))

end Sys2Proof.Machine
end

