-- ==== Sys2Proof/Laws/Crossing.lean ====
section
/-! SUPPORT. What each operation and each command of Machine/Crossing.lean can do to the state. -/

namespace Sys2Proof.Machine

theorem State.readReg_moves (q) (off) (s) : State.Moves [.ports, .book, .chorus, .mem, .mcache, .xing, .pair] s (State.readReg q off s).1 := by
  unfold State.readReg
  extract_lets o
  split <;> dsimp only
  · refine Moves.op (State.modXing_moves _ _) ?_ (Moves.refl _ _); decide
  · refine Moves.op (State.clearRc_moves _ _) (by decide) ?_
    apply Moves.when
    · intro u hu
      refine Moves.op (State.modXing_moves _ _) ?_ hu; decide
    · exact Moves.refl _ _

theorem State.readRun_moves (q) (z) (l) (s) : State.Moves [.ports, .book, .chorus, .mem, .mcache, .xing, .pair] s (State.readRun q z l s).1 := by
  induction l generalizing s with
  | nil => exact Moves.refl _ _
  | cons off rest ih =>
    unfold State.readRun
    extract_lets zeroed r t
    refine Moves.op (ih _) (List.Subset.refl _) ?_
    subst r
    split
    · exact Moves.refl _ _
    · exact State.readReg_moves _ _ _

theorem State.perform_moves (a0) (a1) (s) : State.Moves [.aon, .book, .prot, .ports, .spins, .acts, .seqs, .chorus, .actCals, .mem, .mcache, .xing, .therm, .pair, .svc, .out] s (State.perform a0 a1 s) := by
  unfold State.perform
  repeat' (first
    | with_reducible exact Moves.refl _ _
    | ((with_reducible apply Moves.op (State.emitOut_moves _ _)); decide)
    | ((with_reducible apply State.modSvc_moves); exact fun _ => ⟨rfl, rfl⟩; decide)
    | ((with_reducible apply Moves.op (State.writeReg_moves _ _ _)); decide)
    | ((with_reducible apply Moves.op (State.readRun_moves _ _ _ _)); decide)
    | (extract_lets +onlyGivenNames v; subst v)
    | split)

theorem State.access_moves (a0) (a1) (s) : State.Moves [.aon, .book, .prot, .ports, .spins, .acts, .seqs, .chorus, .actCals, .mem, .mcache, .xing, .therm, .pair, .svc, .out] s (State.access a0 a1 s) := by
  unfold State.access
  repeat' (first
    | with_reducible exact Moves.refl _ _
    | ((with_reducible apply Moves.op (State.modXing_moves _ _)); decide)
    | ((with_reducible apply Moves.op (State.perform_moves _ _ _)); decide)
    | with_reducible apply Moves.ite)

theorem State.endHung_moves (a0) (a1) (s) : State.Moves [.aon, .book, .prot, .ports, .spins, .acts, .seqs, .chorus, .actCals, .mem, .mcache, .xing, .therm, .pair, .svc, .out] s (State.endHung a0 a1 s) := by
  unfold State.endHung
  repeat' (first
    | (with_reducible intro)
    | with_reducible exact Moves.refl _ _
    | with_reducible assumption
    | ((with_reducible apply Moves.op (State.access_moves _ _ _)); decide)
    | ((with_reducible apply Moves.op (State.modXing_moves _ _)); decide)
    | with_reducible apply Moves.each
    | with_reducible apply Moves.ite
    | with_reducible apply Moves.when
    | (extract_lets +onlyGivenNames u; (with_reducible apply Moves.let (u := u)); (intro h; clear_value u); rotate_left; subst u; rotate_right)
    | (extract_lets +onlyGivenNames v; subst v)
    | split)

theorem State.lostAccess_moves (a0) (s) : State.Moves [.xing] s (State.lostAccess a0 s) := by
  unfold State.lostAccess
  repeat' (first
    | (with_reducible intro)
    | with_reducible exact Moves.refl _ _
    | with_reducible assumption
    | ((with_reducible apply Moves.op (State.lostWord_moves _ _)); decide)
    | with_reducible apply Moves.ite
    | with_reducible apply Moves.when
    | (extract_lets +onlyGivenNames u; (with_reducible apply Moves.let (u := u)); (intro h; clear_value u); rotate_left; subst u; rotate_right)
    | (extract_lets +onlyGivenNames v; subst v)
    | split)

theorem State.readOne_moves (a0) (a1) (s) : State.Moves [.aon, .book, .prot, .ports, .spins, .acts, .seqs, .chorus, .actCals, .mem, .mcache, .xing, .therm, .pair, .svc, .out] s (State.readOne a0 a1 s) := by
  unfold State.readOne
  repeat' (first
    | (with_reducible intro)
    | with_reducible exact Moves.refl _ _
    | with_reducible assumption
    | ((with_reducible apply Moves.op (State.access_moves _ _ _)); decide)
    | ((with_reducible apply Moves.op (State.lostAccess_moves _ _)); decide)
    | with_reducible apply Moves.ite
    | with_reducible apply Moves.when
    | (extract_lets +onlyGivenNames u; (with_reducible apply Moves.let (u := u)); (intro h; clear_value u); rotate_left; subst u; rotate_right)
    | (extract_lets +onlyGivenNames v; subst v)
    | split)

theorem execHiRegisterRead_moves (a0) (a1) (s) : ∃ t, execHiRegisterRead a0 a1 s = .next t ∧ State.Moves [.aon, .book, .prot, .ports, .spins, .acts, .seqs, .chorus, .actCals, .mem, .mcache, .xing, .therm, .pair, .svc, .out] s t := by
  unfold execHiRegisterRead
  repeat' (first
    | (with_reducible refine ⟨_, rfl, ?_⟩)
    | with_reducible exact Moves.refl _ _
    | ((with_reducible apply Moves.op (State.readOne_moves _ _ _)); decide))

theorem execJointResetRelease_moves (a0) (s) : ∃ t, execJointResetRelease a0 s = .next t ∧ State.Moves [.aon, .book, .prot, .ports, .spins, .acts, .seqs, .chorus, .actCals, .mem, .mcache, .xing, .therm, .pair, .svc, .out] s t := by
  unfold execJointResetRelease
  repeat' (first
    | (with_reducible intro)
    | (with_reducible refine ⟨_, rfl, ?_⟩)
    | with_reducible exact Moves.refl _ _
    | with_reducible assumption
    | ((with_reducible apply State.modPort_moves); (intro _; (try dsimp only); split <;> exact ⟨rfl, rfl⟩); decide)
    | ((with_reducible apply Moves.op (State.endHung_moves _ _ _)); decide)
    | ((with_reducible apply State.modPort_moves); exact fun _ => ⟨rfl, rfl⟩; decide)
    | ((with_reducible apply State.modPort_leaves); exact fun _ => rfl; decide)
    | ((with_reducible apply State.modPort_served); exact fun _ _ _ => rfl; decide)
    | ((with_reducible apply State.modPort_moves); (intro _; (try dsimp only); split <;> exact ⟨rfl, rfl⟩); decide)
    | ((with_reducible apply Moves.op (State.modXing_moves _ _)); decide)
    | with_reducible apply Moves.ite
    | with_reducible apply Moves.when
    | (extract_lets +onlyGivenNames u; (with_reducible apply Moves.let (u := u)); (intro h; clear_value u); rotate_left; subst u; rotate_right)
    | (extract_lets +onlyGivenNames v; subst v)
    | (split <;> beta_reduce))

theorem execLoRegisterRead_moves (a0) (a1) (s) : ∃ t, execLoRegisterRead a0 a1 s = .next t ∧ State.Moves [.aon, .book, .prot, .ports, .spins, .acts, .seqs, .chorus, .actCals, .mem, .mcache, .xing, .therm, .pair, .svc, .out] s t := by
  unfold execLoRegisterRead
  repeat' (first
    | (with_reducible refine ⟨_, rfl, ?_⟩)
    | with_reducible exact Moves.refl _ _
    | ((with_reducible apply Moves.op (State.readOne_moves _ _ _)); decide))

theorem execRcRegisterRead_moves (a0) (a1) (s) : ∃ t, execRcRegisterRead a0 a1 s = .next t ∧ State.Moves [.aon, .book, .prot, .ports, .spins, .acts, .seqs, .chorus, .actCals, .mem, .mcache, .xing, .therm, .pair, .svc, .out] s t := by
  unfold execRcRegisterRead
  repeat' (first
    | (with_reducible refine ⟨_, rfl, ?_⟩)
    | with_reducible exact Moves.refl _ _
    | ((with_reducible apply Moves.op (State.readOne_moves _ _ _)); decide))

theorem execStatusWindowWrite_moves (a0) (a1) (a2) (s) : ∃ t, execStatusWindowWrite a0 a1 a2 s = .next t ∧ State.Moves [.aon, .book, .prot, .ports, .spins, .acts, .seqs, .chorus, .actCals, .mem, .mcache, .xing, .therm, .pair, .svc, .out] s t := by
  unfold execStatusWindowWrite
  repeat' (first
    | (with_reducible intro)
    | (with_reducible refine ⟨_, rfl, ?_⟩)
    | with_reducible exact Moves.refl _ _
    | with_reducible assumption
    | ((with_reducible apply Moves.op (State.access_moves _ _ _)); decide)
    | ((with_reducible apply Moves.op (State.lostAccess_moves _ _)); decide)
    | with_reducible apply Moves.ite
    | with_reducible apply Moves.when
    | (extract_lets +onlyGivenNames u; (with_reducible apply Moves.let (u := u)); (intro h; clear_value u); rotate_left; subst u; rotate_right)
    | (extract_lets +onlyGivenNames v; subst v)
    | (split <;> beta_reduce))

theorem execClockPresentSet_moves (a0) (a1) (s) : ∃ t, execClockPresentSet a0 a1 s = .next t ∧ State.Moves [.aon, .book, .prot, .ports, .spins, .acts, .seqs, .chorus, .actCals, .mem, .mcache, .xing, .therm, .pair, .svc, .out] s t := by
  unfold execClockPresentSet
  repeat' (first
    | (with_reducible intro)
    | (with_reducible refine ⟨_, rfl, ?_⟩)
    | with_reducible exact Moves.refl _ _
    | with_reducible assumption
    | ((with_reducible apply State.modPort_moves); (intro _; (try dsimp only); split <;> exact ⟨rfl, rfl⟩); decide)
    | ((with_reducible apply State.modPort_moves); (intro _; (try dsimp only); split <;> exact ⟨rfl, rfl⟩); decide)
    | ((with_reducible apply Moves.op (State.endHung_moves _ _ _)); decide)
    | ((with_reducible apply State.modPort_moves); exact fun _ => ⟨rfl, rfl⟩; decide)
    | ((with_reducible apply State.modPort_leaves); exact fun _ => rfl; decide)
    | ((with_reducible apply State.modPort_served); exact fun _ _ _ => rfl; decide)
    | ((with_reducible apply State.modPort_moves); (intro _; (try dsimp only); split <;> exact ⟨rfl, rfl⟩); decide)
    | with_reducible apply Moves.ite
    | with_reducible apply Moves.when
    | (extract_lets +onlyGivenNames u; (with_reducible apply Moves.let (u := u)); (intro h; clear_value u); rotate_left; subst u; rotate_right)
    | (extract_lets +onlyGivenNames v; subst v)
    | (split <;> beta_reduce))

end Sys2Proof.Machine
end

