-- ==== Sys2Proof/Laws/Wings.lean ====
section
/-! SUPPORT. What each operation and each command of Machine/Wings.lean can do to the state. -/

namespace Sys2Proof.Machine

theorem State.abandonPair_moves (s) : State.Moves [.ctxs, .decisions, .pair, .svc, .out] s (State.abandonPair s) := by
  unfold State.abandonPair
  repeat' (first
    | (with_reducible intro)
    | with_reducible exact Moves.refl _ _
    | with_reducible assumption
    | ((with_reducible apply Moves.op (State.complete_moves _ _ _)); decide)
    | ((with_reducible apply Moves.op (State.modPair_moves _ _)); decide)
    | with_reducible apply Moves.each)

theorem State.applyRecord_moves (a0) (s) : State.Moves [.names, .mem, .mcache, .pair, .free, .out] s (State.applyRecord a0 s) := by
  unfold State.applyRecord
  repeat' (first
    | (with_reducible intro)
    | with_reducible exact Moves.refl _ _
    | with_reducible assumption
    | ((with_reducible apply Moves.op (State.modNames_moves _ _)); decide)
    | ((with_reducible apply Moves.op (State.modZone_moves _ _ _ _)); decide)
    | ((with_reducible apply Moves.op (State.setMap_moves _ _ _ _)); decide)
    | with_reducible apply Moves.ite
    | with_reducible apply Moves.when
    | (extract_lets +onlyGivenNames u; (with_reducible apply Moves.let (u := u)); (intro h; clear_value u); rotate_left; subst u; rotate_right)
    | (extract_lets +onlyGivenNames v; subst v)
    | split)

theorem State.refuse_moves (a0) (s) : State.Moves [.aon, .boot, .book, .power, .names, .prot, .ports, .pair, .out] s (State.refuse a0 s) := by
  unfold State.refuse
  repeat' (first
    | (with_reducible intro)
    | with_reducible exact Moves.refl _ _
    | with_reducible assumption
    | ((with_reducible apply Moves.op (State.raisePort_moves _ _ _)); decide)
    | ((with_reducible apply Moves.op (State.trainFails_moves _ _ _)); decide)
    | with_reducible apply Moves.ite
    | with_reducible apply Moves.when
    | (extract_lets +onlyGivenNames u; (with_reducible apply Moves.let (u := u)); (intro h; clear_value u); rotate_left; subst u; rotate_right)
    | (extract_lets +onlyGivenNames v; subst v)
    | split)

theorem State.presentOwned_moves (s) : State.Moves [.ports] s (State.presentOwned s) := by
  unfold State.presentOwned
  repeat' (first
    | (with_reducible intro)
    | with_reducible exact Moves.refl _ _
    | with_reducible assumption
    | ((with_reducible apply Moves.op (State.present_moves _ _ _)); decide)
    | with_reducible apply Moves.each)

theorem State.setAnas_moves (a0) (s) : State.Moves [.fa, .fb, .ctxs, .decisions, .pair, .svc, .out] s (State.setAnas a0 s) := by
  unfold State.setAnas
  repeat' (first
    | (with_reducible intro)
    | with_reducible exact Moves.refl _ _
    | with_reducible assumption
    | ((with_reducible apply Moves.op (State.setAna_moves _ _ _ _)); decide)
    | with_reducible apply Moves.each)

theorem State.followAna_moves (s) : State.Moves [.fa, .fb, .ctxs, .decisions, .pair, .svc, .out] s (State.followAna s) := by
  unfold State.followAna
  repeat' (first
    | with_reducible exact Moves.refl _ _
    | ((with_reducible apply Moves.op (State.setAnas_moves _ _)); decide))

theorem State.becomePaired_moves (a0) (s) : State.Moves [.aon, .boot, .book, .power, .fa, .fb, .ctxs, .decisions, .names, .prot, .ports, .pair, .svc, .out] s (State.becomePaired a0 s) := by
  unfold State.becomePaired
  repeat' (first
    | (with_reducible intro)
    | with_reducible exact Moves.refl _ _
    | with_reducible assumption
    | ((with_reducible apply Moves.op (State.followAna_moves _)); decide)
    | ((with_reducible apply Moves.op (State.modPair_moves _ _)); decide)
    | ((with_reducible apply Moves.op (State.presentOwned_moves _)); decide)
    | ((with_reducible apply Moves.op (State.refuse_moves _ _)); decide)
    | ((with_reducible apply Moves.op (State.settle_moves _)); decide)
    | with_reducible apply Moves.each
    | split)

theorem State.takeMirror_moves (a0) (s) : State.Moves [.names] s (State.takeMirror a0 s) := by
  unfold State.takeMirror
  repeat' (first
    | with_reducible exact Moves.refl _ _
    | with_reducible assumption
    | ((with_reducible apply Moves.op (State.modNames_moves _ _)); decide)
    | ((with_reducible apply Moves.op (State.modZone_moves _ _ _ _)); decide)
    | with_reducible apply Moves.ite
    | (extract_lets +onlyGivenNames u; (with_reducible apply Moves.let (u := u)); (intro h; clear_value u); rotate_left; subst u; rotate_right)
    | (extract_lets +onlyGivenNames v; subst v)
    | split)

theorem State.takeMirrors_moves (s) : State.Moves [.aon, .nor, .book, .names, .mem, .mcache, .pair, .free, .out] s (State.takeMirrors s) := by
  unfold State.takeMirrors
  repeat' (first
    | (with_reducible intro)
    | with_reducible exact Moves.refl _ _
    | with_reducible assumption
    | ((with_reducible apply Moves.op (State.applyRecord_moves _ _)); decide)
    | ((with_reducible apply Moves.op (State.modPair_moves _ _)); decide)
    | ((with_reducible apply Moves.op (State.retireWaiting_moves _)); decide)
    | ((with_reducible apply Moves.op (State.takeMirror_moves _ _)); decide)
    | with_reducible apply Moves.each)

theorem State.reclaimWork_moves (s) : State.Moves [.seqs, .pair] s (State.reclaimWork s) := by
  unfold State.reclaimWork
  repeat' (first
    | (with_reducible intro)
    | with_reducible exact Moves.refl _ _
    | with_reducible assumption
    | ((with_reducible apply Moves.op (State.modPair_moves _ _)); decide)
    | ((with_reducible apply Moves.op (State.modSeq_moves _ _ _)); decide)
    | with_reducible apply Moves.each
    | split)

theorem State.uncertain_moves (a0) (s) : State.Moves [.aon, .book] s (State.uncertain a0 s) := by
  unfold State.uncertain
  repeat' (first
    | (with_reducible intro)
    | with_reducible exact Moves.refl _ _
    | with_reducible assumption
    | ((with_reducible apply Moves.op (State.emit_moves _ _ _ _ _)); decide)
    | with_reducible apply Moves.when)

theorem State.endForwarded_moves (s) : State.Moves [.aon, .book, .ctxs, .decisions, .pair, .svc, .out] s (State.endForwarded s) := by
  unfold State.endForwarded
  repeat' (first
    | (with_reducible intro)
    | with_reducible exact Moves.refl _ _
    | with_reducible assumption
    | ((with_reducible apply Moves.op (State.complete_moves _ _ _)); decide)
    | ((with_reducible apply Moves.op (State.uncertain_moves _ _)); decide)
    | with_reducible apply Moves.each)

theorem State.orphan_moves (s) : State.Moves [.ctxs] s (State.orphan s) := by
  unfold State.orphan
  refine Moves.base (Moves.refl _ s) ?_ rfl rfl fun i => ⟨i.filled, i.complete, i.ready, i.bufs, i.served, i.therms, i.holds, i.ring, i.ofIds ?_ rfl⟩
  · intro x hx; cases x <;> first | exact absurd (by decide) hx | rfl
  · rw [List.map_map]
    apply List.map_congr_left
    intro x _
    simp only [Function.comp]
    split <;> rfl

theorem State.raisePair_moves (a0) (s) : State.Moves [.aon, .book, .pair] s (State.raisePair a0 s) := by
  unfold State.raisePair
  repeat' (first
    | with_reducible exact Moves.refl _ _
    | ((with_reducible apply Moves.op (State.emit_moves _ _ _ _ _)); decide)
    | ((with_reducible apply Moves.op (State.modPair_moves _ _)); decide))

theorem State.noPeer_moves (s) : State.Moves [.aon, .nor, .book, .power, .fa, .fb, .ctxs, .decisions, .names, .prot, .ports, .spins, .acts, .seqs, .chorus, .actCals, .mem, .mcache, .pair, .svc, .free, .out] s (State.noPeer s) := by
  unfold State.noPeer
  repeat' (first
    | (with_reducible intro)
    | with_reducible exact Moves.refl _ _
    | with_reducible assumption
    | ((with_reducible apply Moves.op (State.checkpointDone_moves _ _)); decide)
    | ((with_reducible apply Moves.op (State.commitWork_moves _ _)); decide)
    | ((with_reducible apply Moves.op (State.completeWrite_moves _ _)); decide)
    | with_reducible apply Moves.each
    | with_reducible apply Moves.ite
    | with_reducible apply Moves.when
    | (extract_lets +onlyGivenNames u; (with_reducible apply Moves.let (u := u)); (intro h; clear_value u); rotate_left; subst u; rotate_right)
    | (extract_lets +onlyGivenNames v; subst v)
    | split)

theorem State.becomeSolo_moves (s) : State.Moves [.aon, .nor, .book, .power, .fa, .fb, .ctxs, .decisions, .names, .prot, .ports, .spins, .acts, .seqs, .chorus, .actCals, .mem, .mcache, .pair, .svc, .free, .out] s (State.becomeSolo s) := by
  unfold State.becomeSolo
  repeat' (first
    | (with_reducible intro)
    | with_reducible exact Moves.refl _ _
    | with_reducible assumption
    | ((with_reducible apply Moves.op (State.bufferChanged_moves _)); decide)
    | ((with_reducible apply Moves.op (State.emit_moves _ _ _ _ _)); decide)
    | ((with_reducible apply Moves.op (State.endForwarded_moves _)); decide)
    | ((with_reducible apply Moves.op (State.followAna_moves _)); decide)
    | ((with_reducible apply Moves.op (State.modCfg_moves _ _)); decide)
    | ((with_reducible apply Moves.op (State.modPair_moves _ _)); decide)
    | ((with_reducible apply Moves.op (State.noPeer_moves _)); decide)
    | ((with_reducible apply Moves.op (State.orphan_moves _)); decide)
    | ((with_reducible apply Moves.op (State.raisePair_moves _ _)); decide)
    | ((with_reducible apply Moves.op (State.reclaimWork_moves _)); decide)
    | ((with_reducible apply Moves.op (State.settle_moves _)); decide)
    | ((with_reducible apply Moves.op (State.takeMirrors_moves _)); decide)
    | ((with_reducible apply Moves.op (State.takeRebuild_moves _)); decide)
    | with_reducible apply Moves.ite
    | with_reducible apply Moves.when
    | (extract_lets +onlyGivenNames u; (with_reducible apply Moves.let (u := u)); (intro h; clear_value u); rotate_left; subst u; rotate_right)
    | (extract_lets +onlyGivenNames v; subst v)
    | split)

theorem State.dropAll_moves (s) : State.Moves [.aon, .nor, .book, .ctxs, .decisions, .names, .prot, .ports, .spins, .acts, .seqs, .chorus, .actCals, .pair, .svc, .out] s (State.dropAll s) := by
  unfold State.dropAll
  repeat' (first
    | (with_reducible intro)
    | with_reducible exact Moves.refl _ _
    | with_reducible assumption
    | ((with_reducible apply Moves.op (State.dropPort_moves _ _)); decide)
    | ((with_reducible apply Moves.op (State.endWork_moves _ _)); decide)
    | ((with_reducible apply Moves.op (State.modNames_moves _ _)); decide)
    | ((with_reducible apply Moves.op (State.modPair_moves _ _)); decide)
    | ((with_reducible apply Moves.op (State.modProt_moves _ _)); decide)
    | with_reducible apply Moves.each)

theorem State.endAdmitted_moves (s) : State.Moves [.aon, .book, .ctxs, .decisions, .pair, .svc, .out] s (State.endAdmitted s) := by
  unfold State.endAdmitted
  repeat' (first
    | (with_reducible intro)
    | with_reducible exact Moves.refl _ _
    | with_reducible assumption
    | ((with_reducible apply Moves.op (State.complete_moves _ _ _)); decide)
    | ((with_reducible apply Moves.op (State.uncertain_moves _ _)); decide)
    | with_reducible apply Moves.each)

theorem State.gain_moves (a0) (s) : State.Moves [.prot, .ports, .spins] s (State.gain a0 s) := by
  unfold State.gain
  repeat' (first
    | (with_reducible intro)
    | with_reducible exact Moves.refl _ _
    | with_reducible assumption
    | ((with_reducible apply State.modPort_moves); exact fun _ => ⟨rfl, rfl⟩; decide)
    | ((with_reducible apply State.modPort_leaves); exact fun _ => rfl; decide)
    | ((with_reducible apply State.modPort_served); exact fun _ _ _ => rfl; decide)
    | ((with_reducible apply State.modPort_moves); (intro _; (try dsimp only); split <;> exact ⟨rfl, rfl⟩); decide)
    | ((with_reducible apply Moves.op (State.modSpin_moves _ _ _)); decide)
    | ((with_reducible apply Moves.op (State.noteService_moves _ _)); decide)
    | ((with_reducible apply Moves.op (State.present_moves _ _ _)); decide)
    | with_reducible apply Moves.ite
    | with_reducible apply Moves.when
    | (extract_lets +onlyGivenNames u; (with_reducible apply Moves.let (u := u)); (intro h; clear_value u); rotate_left; subst u; rotate_right)
    | (extract_lets +onlyGivenNames v; subst v)
    | split)

theorem State.releaseNext_moves (s) : State.Moves [.pair, .out] s (State.releaseNext s) := by
  unfold State.releaseNext
  repeat' (first
    | with_reducible exact Moves.refl _ _
    | ((with_reducible apply Moves.op (State.modPair_moves _ _)); decide)
    | ((with_reducible apply Moves.op (State.sendWings_moves _ _ _ _)); decide)
    | with_reducible apply Moves.ite
    | (extract_lets +onlyGivenNames v; subst v)
    | split)

theorem State.startContend_moves (s) : State.Moves [.fa, .fb, .ctxs, .decisions, .pair, .svc, .out] s (State.startContend s) := by
  unfold State.startContend
  repeat' (first
    | with_reducible exact Moves.refl _ _
    | ((with_reducible apply Moves.op (State.abandonPair_moves _)); decide)
    | ((with_reducible apply Moves.op (State.followAna_moves _)); decide)
    | ((with_reducible apply Moves.op (State.modPair_moves _ _)); decide)
    | with_reducible apply Moves.ite)

theorem State.startSync_moves (s) : State.Moves [.pair, .out] s (State.startSync s) := by
  unfold State.startSync
  repeat' (first
    | (with_reducible intro)
    | with_reducible exact Moves.refl _ _
    | with_reducible assumption
    | ((with_reducible apply Moves.op (State.mirrorCheckpoint_moves _ _)); decide)
    | ((with_reducible apply Moves.op (State.modPair_moves _ _)); decide)
    | ((with_reducible apply Moves.op (State.sendKept_moves _ _ _ _ _ _ _ _)); decide)
    | with_reducible apply Moves.each
    | with_reducible apply Moves.ite
    | with_reducible apply Moves.when
    | (extract_lets +onlyGivenNames u; (with_reducible apply Moves.let (u := u)); (intro h; clear_value u); rotate_left; subst u; rotate_right)
    | (extract_lets +onlyGivenNames v; subst v)
    | split)

theorem State.sendHello_moves (s) : State.Moves [.pair, .out] s (State.sendHello s) := by
  unfold State.sendHello
  repeat' (first
    | with_reducible exact Moves.refl _ _
    | ((with_reducible apply Moves.op (State.sendWings_moves _ _ _ _)); decide))

theorem State.meet_moves (a0) (a1) (a2) (s) : State.Moves [.aon, .boot, .book, .power, .fa, .fb, .ctxs, .decisions, .names, .prot, .ports, .pair, .svc, .out] s (State.meet a0 a1 a2 s) := by
  unfold State.meet
  repeat' (first
    | with_reducible exact Moves.refl _ _
    | ((with_reducible apply Moves.op (State.becomePaired_moves _ _)); decide)
    | ((with_reducible apply Moves.op (State.followAna_moves _)); decide)
    | ((with_reducible apply Moves.op (State.modPair_moves _ _)); decide)
    | ((with_reducible apply Moves.op (State.sendHello_moves _)); decide)
    | ((with_reducible apply Moves.op (State.startContend_moves _)); decide)
    | ((with_reducible apply Moves.op (State.startSync_moves _)); decide)
    | with_reducible apply Moves.ite
    | split)

theorem State.resendFrom_moves (a0) (s) : State.Moves [.out] s (State.resendFrom a0 s) := by
  unfold State.resendFrom
  repeat' (first
    | (with_reducible intro)
    | with_reducible exact Moves.refl _ _
    | with_reducible assumption
    | ((with_reducible apply Moves.op (State.emitOut_moves _ _)); decide)
    | with_reducible apply Moves.each)

theorem State.sendAck_moves (s) : State.Moves [.pair, .out] s (State.sendAck s) := by
  unfold State.sendAck
  repeat' (first
    | with_reducible exact Moves.refl _ _
    | ((with_reducible apply Moves.op (State.sendWings_moves _ _ _ _)); decide))

theorem State.sendHeartbeat_moves (s) : State.Moves [.pair, .out] s (State.sendHeartbeat s) := by
  unfold State.sendHeartbeat
  repeat' (first
    | with_reducible exact Moves.refl _ _
    | ((with_reducible apply Moves.op (State.sendWings_moves _ _ _ _)); decide))

theorem State.sendRetry_moves (s) : State.Moves [.pair, .out] s (State.sendRetry s) := by
  unfold State.sendRetry
  repeat' (first
    | with_reducible exact Moves.refl _ _
    | ((with_reducible apply Moves.op (State.modPair_moves _ _)); decide)
    | ((with_reducible apply Moves.op (State.sendWings_moves _ _ _ _)); decide))

theorem State.standDown_moves (a0) (a1) (s) : State.Moves [.aon, .nor, .book, .power, .fa, .fb, .ctxs, .decisions, .names, .prot, .ports, .spins, .acts, .seqs, .chorus, .actCals, .mem, .mcache, .pair, .svc, .free, .out] s (State.standDown a0 a1 s) := by
  unfold State.standDown
  repeat' (first
    | with_reducible exact Moves.refl _ _
    | ((with_reducible apply Moves.op (State.dropAll_moves _)); decide)
    | ((with_reducible apply Moves.op (State.emit_moves _ _ _ _ _)); decide)
    | ((with_reducible apply Moves.op (State.endAdmitted_moves _)); decide)
    | ((with_reducible apply Moves.op (State.followAna_moves _)); decide)
    | ((with_reducible apply Moves.op (State.modPair_moves _ _)); decide)
    | ((with_reducible apply Moves.op (State.noteClean_moves _)); decide)
    | ((with_reducible apply Moves.op (State.orphan_moves _)); decide)
    | ((with_reducible apply Moves.op (State.raisePair_moves _ _)); decide)
    | ((with_reducible apply Moves.op (State.settle_moves _)); decide))

theorem State.wingsReset_moves (s) : State.Moves [.aon, .book, .xing, .pair] s (State.wingsReset s) := by
  unfold State.wingsReset
  repeat' (first
    | (with_reducible intro)
    | with_reducible exact Moves.refl _ _
    | with_reducible assumption
    | ((with_reducible apply Moves.op (State.modPair_moves _ _)); decide)
    | ((with_reducible apply Moves.op (State.modXing_moves _ _)); decide)
    | ((with_reducible apply Moves.op (State.raisePair_moves _ _)); decide)
    | with_reducible apply Moves.ite
    | with_reducible apply Moves.when)

theorem execContend_moves (a0) (s) : ∃ t, execContend a0 s = .next t ∧ State.Moves [.aon, .nor, .book, .power, .fa, .fb, .ctxs, .decisions, .names, .prot, .ports, .spins, .acts, .seqs, .chorus, .actCals, .mem, .mcache, .pair, .svc, .free, .out] s t := by
  unfold execContend
  repeat' (first
    | (with_reducible refine ⟨_, rfl, ?_⟩)
    | (with_reducible intro)
    | with_reducible exact Moves.refl _ _
    | with_reducible assumption
    | ((with_reducible apply Moves.op (State.becomeSolo_moves _)); decide)
    | ((with_reducible apply Moves.op (State.gain_moves _ _)); decide)
    | ((with_reducible apply Moves.op (State.modPair_moves _ _)); decide)
    | ((with_reducible apply Moves.op (State.present_moves _ _ _)); decide)
    | ((with_reducible apply Moves.op (State.raisePort_moves _ _ _)); decide)
    | ((with_reducible apply Moves.op (State.standDown_moves _ _ _)); decide)
    | with_reducible apply Moves.ite
    | with_reducible apply Moves.each
    | (extract_lets +onlyGivenNames u; (with_reducible apply Moves.let (u := u)); (intro h; clear_value u); rotate_left; subst u; rotate_right)
    | (split <;> beta_reduce))

theorem execFenced_moves (a0) (s) : ∃ t, execFenced a0 s = .next t ∧ State.Moves [.aon, .nor, .book, .power, .fa, .fb, .ctxs, .decisions, .names, .prot, .ports, .spins, .acts, .seqs, .chorus, .actCals, .mem, .mcache, .pair, .svc, .free, .out] s t := by
  unfold execFenced
  repeat' (first
    | (with_reducible refine ⟨_, rfl, ?_⟩)
    | (with_reducible intro)
    | with_reducible exact Moves.refl _ _
    | with_reducible assumption
    | ((with_reducible apply State.modPort_moves); exact fun _ => ⟨rfl, rfl⟩; decide)
    | ((with_reducible apply Moves.op (State.obedienceLost_moves _ _)); decide)
    | ((with_reducible apply Moves.op (State.raisePort_moves _ _ _)); decide)
    | ((with_reducible apply Moves.op (State.settle_moves _)); decide)
    | ((with_reducible apply Moves.op (State.standDown_moves _ _ _)); decide)
    | (unfold State.takeRx; beta_reduce)
    | with_reducible apply Moves.ite
    | with_reducible apply Moves.when
    | (split <;> beta_reduce))

theorem execFormingTimeout_moves (s) : ∃ t, execFormingTimeout s = .next t ∧ State.Moves [.now, .fa, .fb, .ctxs, .decisions, .pair, .svc, .out] s t := by
  unfold execFormingTimeout
  repeat' (first
    | (with_reducible refine ⟨_, rfl, ?_⟩)
    | with_reducible exact Moves.refl _ _
    | ((with_reducible apply Moves.op (State.at__moves _ _)); decide)
    | ((with_reducible apply Moves.op (State.startContend_moves _)); decide)
    | with_reducible apply Moves.ite)

theorem execHeartbeat_moves (a0) (s) : ∃ t, execHeartbeat a0 s = .next t ∧ State.Moves [.aon, .boot, .book, .power, .fa, .fb, .ctxs, .decisions, .names, .prot, .ports, .xing, .pair, .svc, .out] s t := by
  unfold execHeartbeat
  repeat' (first
    | (with_reducible intro)
    | (with_reducible refine ⟨_, rfl, ?_⟩)
    | with_reducible exact Moves.refl _ _
    | with_reducible assumption
    | ((with_reducible apply Moves.op (State.discard_moves _)); decide)
    | ((with_reducible apply Moves.op (State.meet_moves _ _ _ _)); decide)
    | ((with_reducible apply Moves.op (State.modPair_moves _ _)); decide)
    | ((with_reducible apply Moves.op (State.settle_moves _)); decide)
    | (unfold State.wingsMsg; beta_reduce)
    | with_reducible apply Moves.each
    | with_reducible apply Moves.ite
    | with_reducible apply Moves.when
    | (extract_lets +onlyGivenNames u; (with_reducible apply Moves.let (u := u)); (intro h; clear_value u); rotate_left; subst u; rotate_right)
    | (extract_lets +onlyGivenNames v; subst v)
    | (split <;> beta_reduce))

theorem execHeartbeatSend_moves (s) : ∃ t, execHeartbeatSend s = .next t ∧ State.Moves [.now, .pair, .out] s t := by
  unfold execHeartbeatSend
  repeat' (first
    | (with_reducible refine ⟨_, rfl, ?_⟩)
    | with_reducible exact Moves.refl _ _
    | ((with_reducible apply Moves.op (State.at__moves _ _)); decide)
    | ((with_reducible apply Moves.op (State.handSend_moves _)); decide)
    | ((with_reducible apply Moves.op (State.modPair_moves _ _)); decide)
    | ((with_reducible apply Moves.op (State.releaseNext_moves _)); decide)
    | ((with_reducible apply Moves.op (State.sendHeartbeat_moves _)); decide)
    | with_reducible apply Moves.ite)

theorem execHello_moves (a0) (s) : ∃ t, execHello a0 s = .next t ∧ State.Moves [.aon, .boot, .nor, .book, .power, .fa, .fb, .ctxs, .decisions, .names, .prot, .ports, .spins, .acts, .seqs, .chorus, .actCals, .mem, .mcache, .pair, .svc, .free, .out] s t := by
  unfold execHello
  repeat' (first
    | (with_reducible intro)
    | (with_reducible refine ⟨_, rfl, ?_⟩)
    | with_reducible exact Moves.refl _ _
    | with_reducible assumption
    | ((with_reducible apply Moves.op (State.bufferChanged_moves _)); decide)
    | ((with_reducible apply Moves.op (State.meet_moves _ _ _ _)); decide)
    | ((with_reducible apply Moves.op (State.modCfg_moves _ _)); decide)
    | ((with_reducible apply Moves.op (State.modMem_moves _ _)); decide)
    | ((with_reducible apply Moves.op (State.modNames_moves _ _)); decide)
    | ((with_reducible apply Moves.op (State.modPair_moves _ _)); decide)
    | ((with_reducible apply Moves.op (State.raisePair_moves _ _)); decide)
    | ((with_reducible apply Moves.op (State.resendFrom_moves _ _)); decide)
    | ((with_reducible apply Moves.op (State.sendHello_moves _)); decide)
    | with_reducible apply Moves.ite
    | with_reducible apply Moves.when
    | (extract_lets +onlyGivenNames u; (with_reducible apply Moves.let (u := u)); (intro h; clear_value u); rotate_left; subst u; rotate_right)
    | (extract_lets +onlyGivenNames v; subst v)
    | (split <;> beta_reduce))

theorem execPeerNotAlive_moves (s) : ∃ t, execPeerNotAlive s = .next t ∧ State.Moves [.now, .aon, .book, .fa, .fb, .ctxs, .decisions, .pair, .svc, .out] s t := by
  unfold execPeerNotAlive
  repeat' (first
    | (with_reducible refine ⟨_, rfl, ?_⟩)
    | (with_reducible intro)
    | with_reducible exact Moves.refl _ _
    | with_reducible assumption
    | ((with_reducible apply Moves.op (State.abandonPair_moves _)); decide)
    | ((with_reducible apply Moves.op (State.at__moves _ _)); decide)
    | ((with_reducible apply Moves.op (State.modPair_moves _ _)); decide)
    | ((with_reducible apply Moves.op (State.raisePair_moves _ _)); decide)
    | ((with_reducible apply Moves.op (State.startContend_moves _)); decide)
    | with_reducible apply Moves.ite
    | with_reducible apply Moves.when
    | (split <;> beta_reduce))

theorem execRetry_moves (a0) (s) : ∃ t, execRetry a0 s = .next t ∧ State.Moves [.out] s t := by
  unfold execRetry
  repeat' (first
    | (with_reducible refine ⟨_, rfl, ?_⟩)
    | with_reducible exact Moves.refl _ _
    | ((with_reducible apply Moves.op (State.emitOut_moves _ _)); decide)
    | with_reducible apply Moves.ite)

theorem execRetryUnanswered_moves (s) : ∃ t, execRetryUnanswered s = .next t ∧ State.Moves [.now, .aon, .book, .xing, .pair] s t := by
  unfold execRetryUnanswered
  repeat' (first
    | (with_reducible refine ⟨_, rfl, ?_⟩)
    | with_reducible exact Moves.refl _ _
    | ((with_reducible apply Moves.op (State.at__moves _ _)); decide)
    | ((with_reducible apply Moves.op (State.wingsReset_moves _)); decide)
    | (split <;> beta_reduce))

theorem execSettlingEnd_moves (s) : ∃ t, execSettlingEnd s = .next t ∧ State.Moves [.now, .ctxs, .decisions, .pair, .svc, .out] s t := by
  unfold execSettlingEnd
  repeat' (first
    | (with_reducible refine ⟨_, rfl, ?_⟩)
    | (with_reducible intro)
    | with_reducible exact Moves.refl _ _
    | with_reducible assumption
    | ((with_reducible apply Moves.op (State.at__moves _ _)); decide)
    | ((with_reducible apply Moves.op (State.complete_moves _ _ _)); decide)
    | ((with_reducible apply Moves.op (State.modPair_moves _ _)); decide)
    | with_reducible apply Moves.ite
    | with_reducible apply Moves.each
    | (split <;> beta_reduce))

theorem execWingsBlockReceived_moves (a0) (a1) (a2) (s) : ∃ t, execWingsBlockReceived a0 a1 a2 s = .next t ∧ State.Moves [.aon, .book, .xing, .pair, .out] s t := by
  unfold execWingsBlockReceived
  repeat' (first
    | (with_reducible intro)
    | (with_reducible refine ⟨_, rfl, ?_⟩)
    | with_reducible exact Moves.refl _ _
    | with_reducible assumption
    | ((with_reducible apply Moves.op (State.discard_moves _)); decide)
    | ((with_reducible apply Moves.op (State.modPair_moves _ _)); decide)
    | ((with_reducible apply Moves.op (State.sendRetry_moves _)); decide)
    | ((with_reducible apply Moves.op (State.wingsReset_moves _)); decide)
    | with_reducible apply Moves.ite
    | with_reducible apply Moves.when
    | (extract_lets +onlyGivenNames u; (with_reducible apply Moves.let (u := u)); (intro h; clear_value u); rotate_left; subst u; rotate_right)
    | (extract_lets +onlyGivenNames v; subst v)
    | (split <;> beta_reduce))

theorem execWingsLinkReset_moves (s) : ∃ t, execWingsLinkReset s = .next t ∧ State.Moves [.aon, .book, .xing, .pair] s t := by
  unfold execWingsLinkReset
  repeat' (first
    | (with_reducible refine ⟨_, rfl, ?_⟩)
    | with_reducible exact Moves.refl _ _
    | ((with_reducible apply Moves.op (State.wingsReset_moves _)); decide))

theorem execWingsTraining_moves (a0) (s) : ∃ t, execWingsTraining a0 s = .next t ∧ State.Moves [.now, .pair, .out] s t := by
  unfold execWingsTraining
  repeat' (first
    | (with_reducible refine ⟨_, rfl, ?_⟩)
    | with_reducible exact Moves.refl _ _
    | (with_reducible intro)
    | with_reducible assumption
    | ((with_reducible apply Moves.op (State.at__moves _ _)); decide)
    | ((with_reducible apply Moves.op (State.modPair_moves _ _)); decide)
    | ((with_reducible apply Moves.op (State.sendHello_moves _)); decide)
    | with_reducible apply Moves.ite
    | (extract_lets +onlyGivenNames u; (with_reducible apply Moves.let (u := u)); (intro h; clear_value u); rotate_left; subst u; rotate_right)
    | (extract_lets +onlyGivenNames v; subst v)
    | (split <;> beta_reduce))

end Sys2Proof.Machine
end

