-- ==== Sys2Proof/Laws/Mirror.lean ====
section
/-! SUPPORT. What each operation and each command of Machine/Mirror.lean can do to the state. -/

namespace Sys2Proof.Machine

theorem State.freeMirror_moves (a0) (a1) (a2) (s) : State.Moves [.aon, .nor, .book, .mem, .pair, .free] s (State.freeMirror a0 a1 a2 s) := by
  unfold State.freeMirror
  repeat' (first
    | with_reducible exact Moves.refl _ _
    | ((with_reducible apply Moves.op (State.modPair_moves _ _)); decide)
    | ((with_reducible apply Moves.op (State.retireWaiting_moves _)); decide))

theorem State.giveGroup_moves (a0) (s) : State.Moves [.names, .pair] s (State.giveGroup a0 s) := by
  unfold State.giveGroup
  repeat' (first
    | with_reducible exact Moves.refl _ _
    | ((with_reducible apply Moves.op (State.modNames_moves _ _)); decide)
    | ((with_reducible apply Moves.op (State.modPair_moves _ _)); decide))

theorem State.handOver_moves (a0) (a1) (a2) (s) : State.Moves [.aon, .boot, .book, .power, .fa, .fb, .ctxs, .decisions, .names, .prot, .ports, .acts, .seqs, .chorus, .pair, .svc, .out] s (State.handOver a0 a1 a2 s) := by
  unfold State.handOver
  repeat' (first
    | (with_reducible intro)
    | with_reducible exact Moves.refl _ _
    | with_reducible assumption
    | ((with_reducible apply Moves.op (State.askMedia_moves _ _ _ _ _)); decide)
    | ((with_reducible apply Moves.op (State.await_moves _ _ _)); decide)
    | ((with_reducible apply Moves.op (State.complete_moves _ _ _)); decide)
    | ((with_reducible apply Moves.op (State.handNext_moves _ _)); decide)
    | ((with_reducible apply Moves.op (State.handSend_moves _)); decide)
    | ((with_reducible apply Moves.op (State.modPair_moves _ _)); decide)
    | ((with_reducible apply Moves.op (State.modSeq_moves _ _ _)); decide)
    | ((with_reducible apply Moves.op (State.releaseNext_moves _)); decide)
    | ((with_reducible apply Moves.op (State.setAnas_moves _ _)); decide)
    | ((with_reducible apply Moves.op (State.trainFails_moves _ _ _)); decide)
    | with_reducible apply Moves.each
    | with_reducible apply Moves.ite
    | with_reducible apply Moves.when
    | (extract_lets +onlyGivenNames u; (with_reducible apply Moves.let (u := u)); (intro h; clear_value u); rotate_left; subst u; rotate_right)
    | (extract_lets +onlyGivenNames v; subst v)
    | split)

theorem State.handed_moves (a0) (s) : State.Moves [.aon, .nor, .book, .power, .fa, .fb, .ctxs, .decisions, .names, .prot, .ports, .spins, .acts, .seqs, .chorus, .actCals, .mem, .mcache, .pair, .svc, .free, .out] s (State.handed a0 s) := by
  unfold State.handed
  repeat' (first
    | with_reducible exact Moves.refl _ _
    | ((with_reducible apply Moves.op (State.completeWait_moves _ _)); decide)
    | ((with_reducible apply Moves.op (State.followAna_moves _)); decide)
    | ((with_reducible apply Moves.op (State.modNames_moves _ _)); decide)
    | ((with_reducible apply Moves.op (State.modPair_moves _ _)); decide)
    | ((with_reducible apply Moves.op (State.noteClean_moves _)); decide)
    | ((with_reducible apply Moves.op (State.raisePair_moves _ _)); decide)
    | ((with_reducible apply Moves.op (State.releaseNext_moves _)); decide)
    | ((with_reducible apply Moves.op (State.setAnas_moves _ _)); decide)
    | with_reducible apply Moves.ite)

theorem State.noteAttach_moves (a0) (a1) (a2) (s) : State.Moves [.fa, .fb, .ctxs, .decisions, .names, .pair, .svc, .out] s (State.noteAttach a0 a1 a2 s) := by
  unfold State.noteAttach
  repeat' (first
    | with_reducible exact Moves.refl _ _
    | ((with_reducible apply Moves.op (State.modNames_moves _ _)); decide)
    | ((with_reducible apply Moves.op (State.nsNotice_moves _ _)); decide))

theorem State.noteGroup_moves (a0) (a1) (a2) (a3) (s) : State.Moves [.aon, .nor, .book, .prot, .pair, .out] s (State.noteGroup a0 a1 a2 a3 s) := by
  unfold State.noteGroup
  repeat' (first
    | (with_reducible intro)
    | with_reducible exact Moves.refl _ _
    | with_reducible assumption
    | ((with_reducible apply Moves.op (State.freeGroupOf_moves _ _)); decide)
    | ((with_reducible apply Moves.op (State.modMember_moves _ _ _)); decide)
    | ((with_reducible apply Moves.op (State.modProt_moves _ _)); decide)
    | ((with_reducible apply Moves.op (State.recordGroups_moves _)); decide)
    | with_reducible apply Moves.each
    | with_reducible apply Moves.ite
    | with_reducible apply Moves.when
    | (extract_lets +onlyGivenNames u; (with_reducible apply Moves.let (u := u)); (intro h; clear_value u); rotate_left; subst u; rotate_right)
    | (extract_lets +onlyGivenNames v; subst v)
    | split)

theorem State.noteNs_moves (a0) (a1) (a2) (a3) (a4) (a5) (s) : State.Moves [.aon, .nor, .book, .names, .prot, .pair, .out] s (State.noteNs a0 a1 a2 a3 a4 a5 s) := by
  unfold State.noteNs
  repeat' (first
    | with_reducible exact Moves.refl _ _
    | ((with_reducible apply Moves.op (State.dropNs_moves _ _)); decide)
    | ((with_reducible apply Moves.op (State.modNames_moves _ _)); decide)
    | with_reducible apply Moves.ite)

theorem State.noteMember_moves (a0) (a1) (a2) (a3) (a4) (a5) (a6) (a7) (a8) (s) : State.Moves [.aon, .book, .prot] s (State.noteMember a0 a1 a2 a3 a4 a5 a6 a7 a8 s) := by
  unfold State.noteMember
  repeat' (first
    | (with_reducible intro)
    | with_reducible exact Moves.refl _ _
    | with_reducible assumption
    | ((with_reducible apply Moves.op (State.modMember_moves _ _ _)); decide)
    | ((with_reducible apply Moves.op (State.modProt_moves _ _)); decide)
    | ((with_reducible apply Moves.op (State.raiseProt_moves _ _ _)); decide)
    | ((with_reducible apply Moves.op (State.recordMembers_moves _)); decide)
    | ((with_reducible apply Moves.op (State.seatMember_moves _ _ _ _ _ _ _)); decide)
    | (unfold State.watchSpare; beta_reduce)
    | with_reducible apply Moves.each
    | with_reducible apply Moves.ite
    | with_reducible apply Moves.when
    | (extract_lets +onlyGivenNames u; (with_reducible apply Moves.let (u := u)); (intro h; clear_value u); rotate_left; subst u; rotate_right)
    | (extract_lets +onlyGivenNames v; subst v)
    | split)

theorem State.noteCheckpoint_moves (a0) (a1) (a2) (s) : State.Moves [.nor, .prot] s (State.noteCheckpoint a0 a1 a2 s) := by
  unfold State.noteCheckpoint
  repeat' (first
    | (with_reducible intro)
    | with_reducible exact Moves.refl _ _
    | with_reducible assumption
    | ((with_reducible apply Moves.op (State.endOp_moves _ _ _ _)); decide)
    | ((with_reducible apply Moves.op (State.modProt_moves _ _)); decide)
    | ((with_reducible apply Moves.op (State.rebuildTo_moves _ _ _)); decide)
    | ((with_reducible apply Moves.op (State.record_moves _ _)); decide)
    | with_reducible apply Moves.ite
    | with_reducible apply Moves.when
    | (extract_lets +onlyGivenNames u; (with_reducible apply Moves.let (u := u)); (intro h; clear_value u); rotate_left; subst u; rotate_right)
    | (extract_lets +onlyGivenNames v; subst v)
    | split)

theorem State.noteRecord_moves (a0) (a1) (s) : State.Moves [.aon, .nor, .book, .fa, .fb, .ctxs, .decisions, .names, .prot, .mem, .pair, .svc, .free, .out] s (State.noteRecord a0 a1 s) := by
  unfold State.noteRecord
  extract_lets keep
  have hk : ∀ u, s.Moves [.aon, .nor, .book, .fa, .fb, .ctxs, .decisions, .names, .prot, .mem, .pair, .svc, .free, .out] u → s.Moves [.aon, .nor, .book, .fa, .fb, .ctxs, .decisions, .names, .prot, .mem, .pair, .svc, .free, .out] (keep u) := fun u hu => Moves.op (State.modPair_moves _ _) (by decide) hu
  have hw : ∀ (b : Bool) (x y z : Nat), s.Moves [.aon, .nor, .book, .fa, .fb, .ctxs, .decisions, .names, .prot, .mem, .pair, .svc, .free, .out] (State.when b (State.freeMirror x y z) s) := fun b x y z =>
    Moves.when (fun u hu => Moves.op (State.freeMirror_moves _ _ _ _) (by decide) hu) (Moves.refl _ _)
  clear_value keep
  split
  · exact hk _ (hw _ _ _ _)
  · exact hk _ (Moves.refl _ _)
  · exact hk _ (hw _ _ _ _)
  · exact Moves.op (State.noteGroup_moves _ _ _ _ _) (by decide) (Moves.refl _ _)
  · exact Moves.op (State.noteNs_moves _ _ _ _ _ _ _) (by decide) (Moves.refl _ _)
  · exact Moves.op (State.noteAttach_moves _ _ _ _) (by decide) (Moves.refl _ _)
  · exact Moves.op (State.noteMember_moves _ _ _ _ _ _ _ _ _ _) (by decide) (Moves.refl _ _)
  · split
    · exact Moves.op (State.commitPlaces_moves _ _ _ _ _) (by decide) (Moves.refl _ _)
    · exact Moves.refl _ _
  · exact Moves.op (State.noteCheckpoint_moves _ _ _ _) (by decide) (Moves.refl _ _)

theorem State.takeGroup_moves (a0) (s) : State.Moves [.names, .pair] s (State.takeGroup a0 s) := by
  unfold State.takeGroup
  repeat' (first
    | (with_reducible intro)
    | with_reducible exact Moves.refl _ _
    | with_reducible assumption
    | ((with_reducible apply Moves.op (State.modPair_moves _ _)); decide)
    | ((with_reducible apply Moves.op (State.takeMirror_moves _ _)); decide)
    | with_reducible apply Moves.each)

theorem State.rejoined_moves (a0) (s) : State.Moves [.aon, .nor, .book, .power, .fa, .fb, .ctxs, .decisions, .names, .prot, .ports, .spins, .acts, .seqs, .chorus, .actCals, .mem, .mcache, .pair, .svc, .free, .out] s (State.rejoined a0 s) := by
  unfold State.rejoined
  repeat' (first
    | (with_reducible intro)
    | with_reducible exact Moves.refl _ _
    | with_reducible assumption
    | ((with_reducible apply Moves.op (State.bufferChanged_moves _)); decide)
    | ((with_reducible apply Moves.op (State.completeWait_moves _ _)); decide)
    | ((with_reducible apply Moves.op (State.followAna_moves _)); decide)
    | ((with_reducible apply Moves.op (State.giveGroup_moves _ _)); decide)
    | ((with_reducible apply Moves.op (State.modPair_moves _ _)); decide)
    | ((with_reducible apply Moves.op (State.raisePair_moves _ _)); decide)
    | ((with_reducible apply Moves.op (State.setAnas_moves _ _)); decide)
    | ((with_reducible apply Moves.op (State.takeGroup_moves _ _)); decide)
    | ((with_reducible apply Moves.op (State.takeRebuild_moves _)); decide)
    | with_reducible apply Moves.ite
    | with_reducible apply Moves.when
    | (extract_lets +onlyGivenNames u; (with_reducible apply Moves.let (u := u)); (intro h; clear_value u); rotate_left; subst u; rotate_right)
    | (extract_lets +onlyGivenNames v; subst v)
    | split)

theorem State.storeMirror_moves (a0) (s) : State.Moves [.aon, .nor, .book, .mem, .pair, .free] s (State.storeMirror a0 s) := by
  unfold State.storeMirror
  repeat' (first
    | with_reducible exact Moves.refl _ _
    | ((with_reducible apply Moves.op (State.freeMirror_moves _ _ _ _)); decide)
    | ((with_reducible apply Moves.op (State.modPair_moves _ _)); decide))

theorem execAck_moves (a0) (s) : ∃ t, execAck a0 s = .next t ∧ State.Moves [.aon, .nor, .book, .power, .fa, .fb, .ctxs, .decisions, .names, .prot, .ports, .spins, .acts, .seqs, .chorus, .actCals, .mem, .mcache, .pair, .svc, .free, .out] s t := by
  unfold execAck
  repeat' (first
    | (with_reducible intro)
    | (with_reducible refine ⟨_, rfl, ?_⟩)
    | with_reducible exact Moves.refl _ _
    | with_reducible assumption
    | ((with_reducible apply Moves.op (State.await_moves _ _ _)); decide)
    | ((with_reducible apply Moves.op (State.checkpointDone_moves _ _)); decide)
    | ((with_reducible apply Moves.op (State.commitWork_moves _ _)); decide)
    | ((with_reducible apply Moves.op (State.completeWrite_moves _ _)); decide)
    | ((with_reducible apply Moves.op (State.modPair_moves _ _)); decide)
    | ((with_reducible apply Moves.op (State.modProt_moves _ _)); decide)
    | ((with_reducible apply Moves.op (State.rejoined_moves _ _)); decide)
    | with_reducible apply Moves.each
    | with_reducible apply Moves.ite
    | with_reducible apply Moves.when
    | (extract_lets +onlyGivenNames u; (with_reducible apply Moves.let (u := u)); (intro h; clear_value u); rotate_left; subst u; rotate_right)
    | (extract_lets +onlyGivenNames v; subst v)
    | (split <;> beta_reduce))

theorem execForward_moves (a0) (a1) (a2) (a3) (s) : ∃ t, execForward a0 a1 a2 a3 s = .next t ∧ State.Moves [.fa, .fb, .ctxs, .nextCtx, .admission, .decisions, .mem, .xing, .pair, .svc, .out] s t := by
  unfold execForward
  repeat' (first
    | (with_reducible intro)
    | (with_reducible refine ⟨_, rfl, ?_⟩)
    | with_reducible exact Moves.refl _ _
    | with_reducible assumption
    | ((with_reducible apply Moves.op (State.addCtx_moves _ _ _ _ _)); decide)
    | ((with_reducible apply Moves.op (State.admitCmd_moves _ _)); decide)
    | ((with_reducible apply Moves.op (State.complete_moves _ _ _)); decide)
    | ((with_reducible apply Moves.op (State.discard_moves _)); decide)
    | ((with_reducible apply Moves.op (State.modPair_moves _ _)); decide)
    | ((with_reducible apply Moves.op (State.wake_moves _)); decide)
    | (unfold State.wingsMsg; beta_reduce)
    | with_reducible apply Moves.each
    | with_reducible apply Moves.ite
    | with_reducible apply Moves.when
    | (extract_lets +onlyGivenNames u; (with_reducible apply Moves.let (u := u)); (intro h; clear_value u); rotate_left; subst u; rotate_right)
    | (extract_lets +onlyGivenNames v; subst v)
    | (split <;> beta_reduce))

theorem execForwardCpl_moves (a0) (a1) (a2) (a3) (a4) (a5) (a6) (a7) (s) : ∃ t, execForwardCpl a0 a1 a2 a3 a4 a5 a6 a7 s = .next t ∧ State.Moves [.ctxs, .decisions, .xing, .pair, .svc, .out] s t := by
  unfold execForwardCpl
  repeat' (first
    | (with_reducible intro)
    | (with_reducible refine ⟨_, rfl, ?_⟩)
    | with_reducible exact Moves.refl _ _
    | with_reducible assumption
    | ((with_reducible apply Moves.op (State.complete_moves _ _ _)); decide)
    | ((with_reducible apply Moves.op (State.discard_moves _)); decide)
    | ((with_reducible apply State.modCtx_moves); exact fun _ _ => rfl; decide)
    | ((with_reducible apply Moves.op (State.modPair_moves _ _)); decide)
    | (unfold State.wingsMsg; beta_reduce)
    | with_reducible apply Moves.each
    | with_reducible apply Moves.ite
    | with_reducible apply Moves.when
    | (extract_lets +onlyGivenNames u; (with_reducible apply Moves.let (u := u)); (intro h; clear_value u); rotate_left; subst u; rotate_right)
    | (extract_lets +onlyGivenNames v; subst v)
    | (split <;> beta_reduce))

theorem execHandOverPorts_moves (a0) (s) : ∃ t, execHandOverPorts a0 s = .next t ∧ State.Moves [.aon, .boot, .book, .power, .fa, .fb, .ctxs, .decisions, .names, .prot, .ports, .acts, .seqs, .chorus, .pair, .svc, .out] s t := by
  unfold execHandOverPorts
  repeat' (first
    | (with_reducible refine ⟨_, rfl, ?_⟩)
    | with_reducible exact Moves.refl _ _
    | ((with_reducible apply Moves.op (State.complete_moves _ _ _)); decide)
    | ((with_reducible apply Moves.op (State.handOver_moves _ _ _ _)); decide)
    | (unfold State.orElse; beta_reduce)
    | (unfold State.pairCtl; beta_reduce)
    | (unfold State.run; beta_reduce)
    | with_reducible apply Moves.ite
    | (split <;> beta_reduce))

theorem execHandover_moves (a0) (a1) (a2) (a3) (s) : ∃ t, execHandover a0 a1 a2 a3 s = .next t ∧ State.Moves [.aon, .nor, .book, .power, .fa, .fb, .ctxs, .decisions, .names, .prot, .ports, .spins, .acts, .seqs, .chorus, .actCals, .mem, .mcache, .xing, .pair, .svc, .free, .out] s t := by
  unfold execHandover
  repeat' (first
    | (with_reducible intro)
    | (with_reducible refine ⟨_, rfl, ?_⟩)
    | with_reducible exact Moves.refl _ _
    | with_reducible assumption
    | ((with_reducible apply Moves.op (State.becomeSolo_moves _)); decide)
    | ((with_reducible apply Moves.op (State.discard_moves _)); decide)
    | ((with_reducible apply Moves.op (State.handed_moves _ _)); decide)
    | ((with_reducible apply Moves.op (State.modPair_moves _ _)); decide)
    | ((with_reducible apply Moves.op (State.present_moves _ _ _)); decide)
    | ((with_reducible apply Moves.op (State.sendWings_moves _ _ _ _)); decide)
    | ((with_reducible apply Moves.op (State.settle_moves _)); decide)
    | (unfold State.wingsMsg; beta_reduce)
    | with_reducible apply Moves.each
    | with_reducible apply Moves.ite
    | with_reducible apply Moves.when
    | (extract_lets +onlyGivenNames u; (with_reducible apply Moves.let (u := u)); (intro h; clear_value u); rotate_left; subst u; rotate_right)
    | (extract_lets +onlyGivenNames v; subst v)
    | (split <;> beta_reduce))

theorem execJournal_moves (a0) (a1) (s) : ∃ t, execJournal a0 a1 s = .next t ∧ State.Moves [.aon, .nor, .book, .fa, .fb, .ctxs, .decisions, .names, .prot, .mem, .xing, .pair, .svc, .free, .out] s t := by
  unfold execJournal
  repeat' (first
    | (with_reducible intro)
    | (with_reducible refine ⟨_, rfl, ?_⟩)
    | with_reducible exact Moves.refl _ _
    | with_reducible assumption
    | ((with_reducible apply Moves.op (State.discard_moves _)); decide)
    | ((with_reducible apply Moves.op (State.modPair_moves _ _)); decide)
    | ((with_reducible apply Moves.op (State.noteRecord_moves _ _ _)); decide)
    | ((with_reducible apply Moves.op (State.sendAck_moves _)); decide)
    | (unfold State.wingsMsg; beta_reduce)
    | with_reducible apply Moves.each
    | with_reducible apply Moves.ite
    | with_reducible apply Moves.when
    | (extract_lets +onlyGivenNames u; (with_reducible apply Moves.let (u := u)); (intro h; clear_value u); rotate_left; subst u; rotate_right)
    | (extract_lets +onlyGivenNames v; subst v)
    | (split <;> beta_reduce))

theorem execMediaData_moves (a0) (a1) (a2) (a3) (s) : ∃ t, execMediaData a0 a1 a2 a3 s = .next t ∧ State.Moves [.ctxs, .decisions, .xing, .pair, .svc, .out] s t := by
  unfold execMediaData
  repeat' (first
    | (with_reducible intro)
    | (with_reducible refine ⟨_, rfl, ?_⟩)
    | with_reducible exact Moves.refl _ _
    | with_reducible assumption
    | ((with_reducible apply Moves.op (State.discard_moves _)); decide)
    | ((with_reducible apply Moves.op (State.giveBlock_moves _ _ _ _)); decide)
    | ((with_reducible apply Moves.op (State.modPair_moves _ _)); decide)
    | (unfold State.wingsMsg; beta_reduce)
    | with_reducible apply Moves.each
    | with_reducible apply Moves.ite
    | with_reducible apply Moves.when
    | (extract_lets +onlyGivenNames u; (with_reducible apply Moves.let (u := u)); (intro h; clear_value u); rotate_left; subst u; rotate_right)
    | (extract_lets +onlyGivenNames v; subst v)
    | (split <;> beta_reduce))

theorem execMediaDone_moves (a0) (a1) (a2) (s) : ∃ t, execMediaDone a0 a1 a2 s = .next t ∧ State.Moves [.ctxs, .prot, .xing, .pair] s t := by
  unfold execMediaDone
  repeat' (first
    | (with_reducible intro)
    | (with_reducible refine ⟨_, rfl, ?_⟩)
    | with_reducible exact Moves.refl _ _
    | with_reducible assumption
    | ((with_reducible apply Moves.op (State.discard_moves _)); decide)
    | ((with_reducible apply Moves.op (State.modPair_moves _ _)); decide)
    | ((with_reducible apply Moves.op (State.modProt_moves _ _)); decide)
    | ((with_reducible apply Moves.op (State.sectorFails_moves _ _ _)); decide)
    | (unfold State.wingsMsg; beta_reduce)
    | with_reducible apply Moves.each
    | with_reducible apply Moves.ite
    | with_reducible apply Moves.when
    | (extract_lets +onlyGivenNames u; (with_reducible apply Moves.let (u := u)); (intro h; clear_value u); rotate_left; subst u; rotate_right)
    | (extract_lets +onlyGivenNames v; subst v)
    | (split <;> beta_reduce))

theorem execMediaReq_moves (a0) (a1) (a2) (s) : ∃ t, execMediaReq a0 a1 a2 s = .next t ∧ State.Moves [.seqs, .chorus, .xing, .pair, .out] s t := by
  unfold execMediaReq
  repeat' (first
    | (with_reducible intro)
    | (with_reducible refine ⟨_, rfl, ?_⟩)
    | with_reducible exact Moves.refl _ _
    | with_reducible assumption
    | ((with_reducible apply Moves.op (State.discard_moves _)); decide)
    | ((with_reducible apply Moves.op (State.modPair_moves _ _)); decide)
    | ((with_reducible apply Moves.op (State.modSeq_moves _ _ _)); decide)
    | ((with_reducible apply Moves.op (State.noteRequest_moves _ _)); decide)
    | ((with_reducible apply Moves.op (State.sendWings_moves _ _ _ _)); decide)
    | (unfold State.wingsMsg; beta_reduce)
    | with_reducible apply Moves.each
    | with_reducible apply Moves.ite
    | with_reducible apply Moves.when
    | (extract_lets +onlyGivenNames u; (with_reducible apply Moves.let (u := u)); (intro h; clear_value u); rotate_left; subst u; rotate_right)
    | (extract_lets +onlyGivenNames v; subst v)
    | (split <;> beta_reduce))

theorem execMirror_moves (a0) (a1) (a2) (a3) (a4) (s) : ∃ t, execMirror a0 a1 a2 a3 a4 s = .next t ∧ State.Moves [.aon, .nor, .book, .mem, .xing, .pair, .free, .out] s t := by
  unfold execMirror
  repeat' (first
    | (with_reducible intro)
    | (with_reducible refine ⟨_, rfl, ?_⟩)
    | with_reducible exact Moves.refl _ _
    | with_reducible assumption
    | ((with_reducible apply Moves.op (State.discard_moves _)); decide)
    | ((with_reducible apply Moves.op (State.modPair_moves _ _)); decide)
    | ((with_reducible apply Moves.op (State.sendAck_moves _)); decide)
    | ((with_reducible apply Moves.op (State.storeMirror_moves _ _)); decide)
    | (unfold State.wingsMsg; beta_reduce)
    | with_reducible apply Moves.each
    | with_reducible apply Moves.ite
    | with_reducible apply Moves.when
    | (extract_lets +onlyGivenNames u; (with_reducible apply Moves.let (u := u)); (intro h; clear_value u); rotate_left; subst u; rotate_right)
    | (extract_lets +onlyGivenNames v; subst v)
    | (split <;> beta_reduce))

theorem execPairControlQuery_moves (a0) (s) : ∃ t, execPairControlQuery a0 s = .next t ∧ State.Moves [.book, .ctxs, .decisions, .ports, .chorus, .mem, .mcache, .xing, .pair, .svc, .out] s t := by
  unfold execPairControlQuery
  repeat' (first
    | (with_reducible refine ⟨_, rfl, ?_⟩)
    | (with_reducible intro)
    | with_reducible exact Moves.refl _ _
    | with_reducible assumption
    | ((with_reducible apply Moves.op (State.clearRc_moves _ _)); decide)
    | ((with_reducible apply Moves.op (State.complete_moves _ _ _)); decide)
    | (unfold State.orElse; beta_reduce)
    | (unfold State.pairCtl; beta_reduce)
    | (unfold State.run; beta_reduce)
    | with_reducible apply Moves.ite
    | with_reducible apply Moves.each
    | (extract_lets +onlyGivenNames v; subst v)
    | (split <;> beta_reduce))

theorem execPairRelease_moves (a0) (s) : ∃ t, execPairRelease a0 s = .next t ∧ State.Moves [.aon, .boot, .book, .power, .fa, .fb, .ctxs, .decisions, .names, .prot, .ports, .acts, .seqs, .chorus, .pair, .svc, .out] s t := by
  unfold execPairRelease
  repeat' (first
    | (with_reducible refine ⟨_, rfl, ?_⟩)
    | with_reducible exact Moves.refl _ _
    | ((with_reducible apply Moves.op (State.complete_moves _ _ _)); decide)
    | ((with_reducible apply Moves.op (State.handOver_moves _ _ _ _)); decide)
    | (unfold State.orElse; beta_reduce)
    | (unfold State.pairCtl; beta_reduce)
    | (unfold State.run; beta_reduce)
    | with_reducible apply Moves.ite
    | (split <;> beta_reduce))

theorem execRejoin_moves (a0) (s) : ∃ t, execRejoin a0 s = .next t ∧ State.Moves [.fa, .fb, .ctxs, .decisions, .pair, .svc, .out] s t := by
  unfold execRejoin
  repeat' (first
    | (with_reducible refine ⟨_, rfl, ?_⟩)
    | with_reducible exact Moves.refl _ _
    | ((with_reducible apply Moves.op (State.await_moves _ _ _)); decide)
    | ((with_reducible apply Moves.op (State.complete_moves _ _ _)); decide)
    | ((with_reducible apply Moves.op (State.followAna_moves _)); decide)
    | ((with_reducible apply Moves.op (State.modPair_moves _ _)); decide)
    | (unfold State.orElse; beta_reduce)
    | (unfold State.pairCtl; beta_reduce)
    | (unfold State.run; beta_reduce)
    | ((with_reducible apply Moves.op (State.sendHello_moves _)); decide)
    | with_reducible apply Moves.ite
    | (split <;> beta_reduce))

theorem execRelease_moves (a0) (a1) (a2) (a3) (s) : ∃ t, execRelease a0 a1 a2 a3 s = .next t ∧ State.Moves [.aon, .nor, .book, .names, .mem, .xing, .pair, .free] s t := by
  unfold execRelease
  repeat' (first
    | (with_reducible intro)
    | (with_reducible refine ⟨_, rfl, ?_⟩)
    | with_reducible exact Moves.refl _ _
    | with_reducible assumption
    | ((with_reducible apply Moves.op (State.discard_moves _)); decide)
    | ((with_reducible apply Moves.op (State.freeMirror_moves _ _ _ _)); decide)
    | ((with_reducible apply Moves.op (State.modPair_moves _ _)); decide)
    | ((with_reducible apply Moves.op (State.modZone_moves _ _ _ _)); decide)
    | (unfold State.wingsMsg; beta_reduce)
    | with_reducible apply Moves.each
    | with_reducible apply Moves.ite
    | with_reducible apply Moves.when
    | (extract_lets +onlyGivenNames u; (with_reducible apply Moves.let (u := u)); (intro h; clear_value u); rotate_left; subst u; rotate_right)
    | (extract_lets +onlyGivenNames v; subst v)
    | (split <;> beta_reduce))

theorem execSetHeartbeatMs_moves (a0) (s) : ∃ t, execSetHeartbeatMs a0 s = .next t ∧ State.Moves [.nor, .ctxs, .decisions, .pair, .svc, .out] s t := by
  unfold execSetHeartbeatMs
  repeat' (first
    | (with_reducible refine ⟨_, rfl, ?_⟩)
    | with_reducible exact Moves.refl _ _
    | ((with_reducible apply Moves.op (State.complete_moves _ _ _)); decide)
    | ((with_reducible apply Moves.op (State.modCfg_moves _ _)); decide)
    | ((with_reducible apply Moves.op (State.modPair_moves _ _)); decide)
    | (unfold State.orElse; beta_reduce)
    | (unfold State.pairCtl; beta_reduce)
    | (unfold State.run; beta_reduce)
    | with_reducible apply Moves.ite
    | (extract_lets +onlyGivenNames v; subst v)
    | (split <;> beta_reduce))

theorem execSync_moves (a0) (a1) (a2) (a3) (a4) (s) : ∃ t, execSync a0 a1 a2 a3 a4 s = .next t ∧ State.Moves [.aon, .nor, .book, .power, .fa, .fb, .ctxs, .decisions, .names, .prot, .ports, .spins, .acts, .seqs, .chorus, .actCals, .mem, .mcache, .xing, .pair, .svc, .free, .out] s t := by
  unfold execSync
  repeat' (first
    | (with_reducible intro)
    | (with_reducible refine ⟨_, rfl, ?_⟩)
    | with_reducible exact Moves.refl _ _
    | with_reducible assumption
    | ((with_reducible apply Moves.op (State.discard_moves _)); decide)
    | ((with_reducible apply Moves.op (State.modPair_moves _ _)); decide)
    | ((with_reducible apply Moves.op (State.rejoined_moves _ _)); decide)
    | ((with_reducible apply Moves.op (State.sendAck_moves _)); decide)
    | ((with_reducible apply Moves.op (State.storeMirror_moves _ _)); decide)
    | (unfold State.wingsMsg; beta_reduce)
    | with_reducible apply Moves.each
    | with_reducible apply Moves.ite
    | with_reducible apply Moves.when
    | (extract_lets +onlyGivenNames u; (with_reducible apply Moves.let (u := u)); (intro h; clear_value u); rotate_left; subst u; rotate_right)
    | (extract_lets +onlyGivenNames v; subst v)
    | (split <;> beta_reduce))

end Sys2Proof.Machine
end

