-- ==== Sys2Proof/Laws/Service.lean ====
section
/-! SUPPORT. What each operation and each command of Machine/Service.lean can do to the state. -/

namespace Sys2Proof.Machine

theorem State.compEnd_moves (a0) (a1) (s) : State.Moves [.aon, .book, .power, .names, .prot, .ports, .spins, .acts, .pair, .svc, .out] s (State.compEnd a0 a1 s) := by
  unfold State.compEnd
  repeat' (first
    | (with_reducible intro)
    | with_reducible exact Moves.refl _ _
    | with_reducible assumption
    | ((with_reducible apply Moves.op (State.compReply_moves _ _)); decide)
    | ((with_reducible apply State.modPort_moves); exact fun _ => ⟨rfl, rfl⟩; decide)
    | ((with_reducible apply Moves.op (State.putBack_moves _ _)); decide)
    | ((with_reducible apply Moves.op (State.settle_moves _)); decide)
    | with_reducible apply Moves.when)

theorem State.configNow_moves (a0) (a1) (s) : State.Moves [.aon, .nor, .book, .power, .fa, .fb, .ctxs, .decisions, .names, .prot, .ports, .spins, .acts, .seqs, .chorus, .actCals, .mem, .mcache, .pair, .svc, .free, .out] s (State.configNow a0 a1 s) := by
  unfold State.configNow
  repeat' (first
    | with_reducible exact Moves.refl _ _
    | ((with_reducible apply Moves.op (State.bufferChanged_moves _)); decide)
    | ((with_reducible apply Moves.op (State.modNames_moves _ _)); decide)
    | ((with_reducible apply Moves.op (State.modPair_moves _ _)); decide)
    | with_reducible apply Moves.ite
    | split)

theorem State.mctpOk_moves (a0) (s) : State.Moves [.out] s (State.mctpOk a0 s) := by
  unfold State.mctpOk
  repeat' (first
    | with_reducible exact Moves.refl _ _
    | ((with_reducible apply Moves.op (State.emitOut_moves _ _)); decide)
    | with_reducible apply Moves.ite)

theorem State.svcReply_moves (a0) (a1) (a2) (a3) (s) : State.Moves [.out] s (State.svcReply a0 a1 a2 a3 s) := by
  unfold State.svcReply
  repeat' (first
    | with_reducible exact Moves.refl _ _
    | ((with_reducible apply Moves.op (State.emitOut_moves _ _)); decide))

theorem State.windowAccess_moves (a0) (a1) (s) : State.Moves [.aon, .book, .prot, .ports, .spins, .acts, .seqs, .chorus, .actCals, .mem, .mcache, .xing, .therm, .pair, .svc, .out] s (State.windowAccess a0 a1 s) := by
  unfold State.windowAccess
  repeat' (first
    | with_reducible exact Moves.refl _ _
    | ((with_reducible apply Moves.op (State.access_moves _ _ _)); decide)
    | ((with_reducible apply State.modSvc_moves); exact fun _ => ⟨rfl, rfl⟩; decide))

theorem execAdmin_moves (a0) (a1) (s) : ∃ t, execAdmin a0 a1 s = .next t ∧ State.Moves [.ctxs, .nextCtx, .mem, .svc, .out] s t := by
  unfold execAdmin
  repeat' (first
    | (with_reducible intro)
    | (with_reducible refine ⟨_, rfl, ?_⟩)
    | with_reducible exact Moves.refl _ _
    | with_reducible assumption
    | ((with_reducible apply Moves.op (State.addCtx_moves _ _ _ _ _)); decide)
    | ((with_reducible apply State.modSvc_moves); exact fun _ => ⟨rfl, rfl⟩; decide)
    | (unfold State.request; beta_reduce)
    | ((with_reducible apply Moves.op (State.svcReply_moves _ _ _ _ _)); decide)
    | ((with_reducible apply Moves.op (State.wake_moves _)); decide)
    | with_reducible apply Moves.each
    | with_reducible apply Moves.ite
    | with_reducible apply Moves.when
    | (extract_lets +onlyGivenNames u; (with_reducible apply Moves.let (u := u)); (intro h; clear_value u); rotate_left; subst u; rotate_right)
    | (extract_lets +onlyGivenNames v; subst v)
    | (split <;> beta_reduce))

theorem execBufferWrite_moves (a0) (a1) (a2) (s) : ∃ t, execBufferWrite a0 a1 a2 s = .next t ∧ State.Moves [.mem, .svc, .out] s t := by
  unfold execBufferWrite
  refine ⟨_, rfl, ?_⟩
  unfold State.request
  beta_reduce
  have hw : s.Moves [.mem, .svc, .out] s.wake := Moves.op (State.wake_moves _) (by decide) (Moves.refl _ _)
  have hk := State.modSvc_at (s := s) (t := s.wake) (l := [.mem, .svc, .out]) (f := fun v => { v with buffer := bufWrite v.buffer a1 a2 })
    (fun i => bufWrite_wf _ _ _ i.bufs.1) (fun i => i.bufs.2.1) (by decide) hw
  repeat' with_reducible apply Moves.ite
  all_goals first
    | exact Moves.refl _ _
    | exact Moves.op (State.svcReply_moves _ _ _ _ _) (by decide) hk
    | exact Moves.op (State.svcReply_moves _ _ _ _ _) (by decide) (by first | exact hw | exact Moves.refl _ _)

theorem execCompFw_moves (a0) (a1) (a2) (a3) (a4) (a5) (s) : ∃ t, execCompFw a0 a1 a2 a3 a4 a5 s = .next t ∧ State.Moves [.aon, .nor, .book, .power, .ctxs, .decisions, .names, .prot, .ports, .spins, .acts, .seqs, .chorus, .actCals, .mem, .pair, .svc, .out] s t := by
  unfold execCompFw
  repeat' (first
    | (with_reducible intro)
    | (with_reducible refine ⟨_, rfl, ?_⟩)
    | with_reducible exact Moves.refl _ _
    | with_reducible assumption
    | ((with_reducible apply Moves.op (State.compReply_moves _ _)); decide)
    | ((with_reducible apply Moves.op (State.compUnloaded_moves _ _)); decide)
    | ((with_reducible apply State.modSvc_moves); exact fun _ => ⟨rfl, rfl⟩; decide)
    | (unfold State.request; beta_reduce)
    | ((with_reducible apply Moves.op (State.settle_moves _)); decide)
    | ((with_reducible apply Moves.op (State.svcReply_moves _ _ _ _ _)); decide)
    | ((with_reducible apply Moves.op (State.takeOut_moves _ _)); decide)
    | ((with_reducible apply Moves.op (State.wake_moves _)); decide)
    | with_reducible apply Moves.each
    | with_reducible apply Moves.ite
    | with_reducible apply Moves.when
    | (extract_lets +onlyGivenNames u; (with_reducible apply Moves.let (u := u)); (intro h; clear_value u); rotate_left; subst u; rotate_right)
    | (extract_lets +onlyGivenNames v; subst v)
    | (split <;> beta_reduce))

theorem execCompFwAbandon_moves (s) : ∃ t, execCompFwAbandon s = .next t ∧ State.Moves [.now, .aon, .book, .power, .names, .prot, .ports, .spins, .acts, .pair, .svc, .out] s t := by
  unfold execCompFwAbandon
  repeat' (first
    | (with_reducible refine ⟨_, rfl, ?_⟩)
    | with_reducible exact Moves.refl _ _
    | ((with_reducible apply Moves.op (State.at__moves _ _)); decide)
    | ((with_reducible apply Moves.op (State.compEnd_moves _ _ _)); decide)
    | ((with_reducible apply Moves.op (State.handSend_moves _)); decide)
    | ((with_reducible apply State.modPort_moves); exact fun _ => ⟨rfl, rfl⟩; decide)
    | ((with_reducible apply State.modSvc_moves); exact fun _ => ⟨rfl, rfl⟩; decide)
    | ((with_reducible apply Moves.op (State.svcReply_moves _ _ _ _ _)); decide)
    | with_reducible apply Moves.ite
    | (split <;> beta_reduce))

theorem execConfigRead_moves (a0) (a1) (s) : ∃ t, execConfigRead a0 a1 s = .next t ∧ State.Moves [.mem, .out] s t := by
  unfold execConfigRead
  repeat' (first
    | (with_reducible intro)
    | (with_reducible refine ⟨_, rfl, ?_⟩)
    | with_reducible exact Moves.refl _ _
    | with_reducible assumption
    | (unfold State.request; beta_reduce)
    | ((with_reducible apply Moves.op (State.svcReply_moves _ _ _ _ _)); decide)
    | ((with_reducible apply Moves.op (State.wake_moves _)); decide)
    | with_reducible apply Moves.each
    | with_reducible apply Moves.ite
    | with_reducible apply Moves.when
    | (extract_lets +onlyGivenNames u; (with_reducible apply Moves.let (u := u)); (intro h; clear_value u); rotate_left; subst u; rotate_right)
    | (extract_lets +onlyGivenNames v; subst v)
    | (split <;> beta_reduce))

theorem execConfigWrite_moves (a0) (a1) (a2) (s) : ∃ t, execConfigWrite a0 a1 a2 s = .next t ∧ State.Moves [.aon, .nor, .book, .power, .fa, .fb, .ctxs, .decisions, .names, .prot, .ports, .spins, .acts, .seqs, .chorus, .actCals, .mem, .mcache, .pair, .svc, .free, .out] s t := by
  unfold execConfigWrite
  repeat' (first
    | (with_reducible intro)
    | (with_reducible refine ⟨_, rfl, ?_⟩)
    | with_reducible exact Moves.refl _ _
    | with_reducible assumption
    | ((with_reducible apply Moves.op (State.configNow_moves _ _ _)); decide)
    | ((with_reducible apply Moves.op (State.emit_moves _ _ _ _ _)); decide)
    | ((with_reducible apply Moves.op (State.modCfg_moves _ _)); decide)
    | (unfold State.request; beta_reduce)
    | ((with_reducible apply Moves.op (State.svcReply_moves _ _ _ _ _)); decide)
    | ((with_reducible apply Moves.op (State.wake_moves _)); decide)
    | with_reducible apply Moves.each
    | with_reducible apply Moves.ite
    | with_reducible apply Moves.when
    | (extract_lets +onlyGivenNames u; (with_reducible apply Moves.let (u := u)); (intro h; clear_value u); rotate_left; subst u; rotate_right)
    | (extract_lets +onlyGivenNames v; subst v)
    | (split <;> beta_reduce))

theorem execDeviceReset_moves (a0) (s) : ∃ t, execDeviceReset a0 s = .next t ∧ State.Moves [.pins, .aon, .boot, .nor, .book, .ident, .power, .fa, .fb, .ctxs, .admission, .decisions, .lastShared, .names, .prot, .ports, .spins, .acts, .seqs, .patch, .chorus, .actCals, .portCals, .cal, .mem, .mcache, .xing, .pair, .svc, .free, .out] s t := by
  unfold execDeviceReset
  repeat' (first
    | (with_reducible refine ⟨_, rfl, ?_⟩)
    | with_reducible exact Moves.refl _ _
    | ((with_reducible apply Moves.op (State.emit_moves _ _ _ _ _)); decide)
    | ((with_reducible apply Moves.op (State.svcReply_moves _ _ _ _ _)); decide)
    | ((with_reducible apply Moves.op (State.warmSource_moves _ _)); decide)
    | with_reducible apply Moves.ite)

theorem execFwActivateResponse_moves (a0) (s) : ∃ t, execFwActivateResponse a0 s = .next t ∧ State.Moves [.aon, .nor, .book, .ctxs, .decisions, .prot, .ports, .spins, .acts, .seqs, .chorus, .actCals, .pair, .svc, .out] s t := by
  unfold execFwActivateResponse
  repeat' (first
    | (with_reducible intro)
    | (with_reducible refine ⟨_, rfl, ?_⟩)
    | with_reducible exact Moves.refl _ _
    | with_reducible assumption
    | ((with_reducible apply Moves.op (State.answered_moves _ _ _)); decide)
    | ((with_reducible apply State.modPort_moves); exact fun _ => ⟨rfl, rfl⟩; decide)
    | ((with_reducible apply State.modPort_leaves); exact fun _ => rfl; decide)
    | ((with_reducible apply State.modPort_moves); (intro _; (try dsimp only); split <;> exact ⟨rfl, rfl⟩); decide)
    | ((with_reducible apply State.modSvc_moves); exact fun _ => ⟨rfl, rfl⟩; decide)
    | ((with_reducible apply Moves.op (State.refusedFenced_moves _ _)); decide)
    | ((with_reducible apply Moves.op (State.sendRequest_moves _ _ _ _)); decide)
    | (unfold State.takeAnswer; beta_reduce)
    | (unfold State.takeRx; beta_reduce)
    | with_reducible apply Moves.each
    | with_reducible apply Moves.ite
    | with_reducible apply Moves.when
    | (extract_lets +onlyGivenNames u; (with_reducible apply Moves.let (u := u)); (intro h; clear_value u); rotate_left; subst u; rotate_right)
    | (extract_lets +onlyGivenNames v; subst v)
    | (split <;> beta_reduce))

theorem execFwWriteResponse_moves (a0) (s) : ∃ t, execFwWriteResponse a0 s = .next t ∧ State.Moves [.aon, .nor, .book, .power, .ctxs, .decisions, .names, .prot, .ports, .spins, .acts, .seqs, .chorus, .actCals, .pair, .svc, .out] s t := by
  unfold execFwWriteResponse
  repeat' (first
    | (with_reducible intro)
    | (with_reducible refine ⟨_, rfl, ?_⟩)
    | with_reducible exact Moves.refl _ _
    | with_reducible assumption
    | ((with_reducible apply Moves.op (State.answered_moves _ _ _)); decide)
    | ((with_reducible apply Moves.op (State.compEnd_moves _ _ _)); decide)
    | ((with_reducible apply Moves.op (State.fwWrite_moves _ _)); decide)
    | ((with_reducible apply State.modPort_moves); exact fun _ => ⟨rfl, rfl⟩; decide)
    | ((with_reducible apply State.modPort_leaves); exact fun _ => rfl; decide)
    | ((with_reducible apply State.modPort_moves); (intro _; (try dsimp only); split <;> exact ⟨rfl, rfl⟩); decide)
    | ((with_reducible apply State.modSvc_moves); exact fun _ => ⟨rfl, rfl⟩; decide)
    | ((with_reducible apply Moves.op (State.refusedFenced_moves _ _)); decide)
    | ((with_reducible apply Moves.op (State.sendRequest_moves _ _ _ _)); decide)
    | (unfold State.takeAnswer; beta_reduce)
    | (unfold State.takeRx; beta_reduce)
    | with_reducible apply Moves.each
    | with_reducible apply Moves.ite
    | with_reducible apply Moves.when
    | (extract_lets +onlyGivenNames u; (with_reducible apply Moves.let (u := u)); (intro h; clear_value u); rotate_left; subst u; rotate_right)
    | (extract_lets +onlyGivenNames v; subst v)
    | (split <;> beta_reduce))

theorem execGetEndpointId_moves (s) : ∃ t, execGetEndpointId s = .next t ∧ State.Moves [.out] s t := by
  unfold execGetEndpointId
  repeat' (first
    | (with_reducible refine ⟨_, rfl, ?_⟩)
    | with_reducible exact Moves.refl _ _
    | ((with_reducible apply Moves.op (State.mctpOk_moves _ _)); decide))

theorem execGetEndpointUuid_moves (s) : ∃ t, execGetEndpointUuid s = .next t ∧ State.Moves [.out] s t := by
  unfold execGetEndpointUuid
  repeat' (first
    | (with_reducible refine ⟨_, rfl, ?_⟩)
    | with_reducible exact Moves.refl _ _
    | ((with_reducible apply Moves.op (State.mctpOk_moves _ _)); decide))

theorem execGetMctpVersionSupport_moves (s) : ∃ t, execGetMctpVersionSupport s = .next t ∧ State.Moves [.out] s t := by
  unfold execGetMctpVersionSupport
  repeat' (first
    | (with_reducible refine ⟨_, rfl, ?_⟩)
    | with_reducible exact Moves.refl _ _
    | ((with_reducible apply Moves.op (State.mctpOk_moves _ _)); decide))

theorem execGetMessageTypeSupport_moves (s) : ∃ t, execGetMessageTypeSupport s = .next t ∧ State.Moves [.out] s t := by
  unfold execGetMessageTypeSupport
  repeat' (first
    | (with_reducible refine ⟨_, rfl, ?_⟩)
    | with_reducible exact Moves.refl _ _
    | ((with_reducible apply Moves.op (State.mctpOk_moves _ _)); decide))

theorem execGetVendorDefinedMessageSupport_moves (s) : ∃ t, execGetVendorDefinedMessageSupport s = .next t ∧ State.Moves [.out] s t := by
  unfold execGetVendorDefinedMessageSupport
  repeat' (first
    | (with_reducible refine ⟨_, rfl, ?_⟩)
    | with_reducible exact Moves.refl _ _
    | ((with_reducible apply Moves.op (State.mctpOk_moves _ _)); decide))

theorem State.basicReply_moves (a0) (a1) (s) : State.Moves [.out] s (State.basicReply a0 a1 s) := by
  unfold State.basicReply
  repeat' (first
    | (with_reducible intro)
    | with_reducible exact Moves.refl _ _
    | with_reducible assumption
    | ((with_reducible apply Moves.op (State.emitOut_moves _ _)); decide)
    | with_reducible apply Moves.ite
    | with_reducible apply Moves.when
    | (extract_lets +onlyGivenNames u; (with_reducible apply Moves.let (u := u)); (intro h; clear_value u); rotate_left; subst u; rotate_right)
    | (extract_lets +onlyGivenNames v; subst v)
    | split)

theorem execNvmeMiBasicManagement_moves (a0) (s) : ∃ t, execNvmeMiBasicManagement a0 s = .next t ∧ State.Moves [.out] s t := by
  unfold execNvmeMiBasicManagement
  repeat' (first
    | (with_reducible intro)
    | (with_reducible refine ⟨_, rfl, ?_⟩)
    | with_reducible exact Moves.refl _ _
    | with_reducible assumption
    | ((with_reducible apply Moves.op (State.basicReply_moves _ _ _)); decide)
    | with_reducible apply Moves.ite
    | with_reducible apply Moves.when
    | (extract_lets +onlyGivenNames u; (with_reducible apply Moves.let (u := u)); (intro h; clear_value u); rotate_left; subst u; rotate_right)
    | (extract_lets +onlyGivenNames v; subst v)
    | (split <;> beta_reduce))

theorem execRecoveryRun_moves (a0) (a1) (s) : ∃ t, execRecoveryRun a0 a1 s = .next t ∧ State.Moves [.aon, .boot, .book, .ident, .mem, .out] s t := by
  unfold execRecoveryRun
  repeat' (first
    | (with_reducible intro)
    | (with_reducible refine ⟨_, rfl, ?_⟩)
    | with_reducible exact Moves.refl _ _
    | with_reducible assumption
    | ((with_reducible apply Moves.op (State.emit_moves _ _ _ _ _)); decide)
    | ((with_reducible apply Moves.op (State.measureSelection_moves _ _ _)); decide)
    | ((with_reducible apply State.modAon_moves); exact fun _ => ⟨rfl, rfl⟩; decide)
    | ((with_reducible apply Moves.op (State.readKeys_moves _)); decide)
    | (unfold State.request; beta_reduce)
    | ((with_reducible apply Moves.op (State.runImage_moves _ _)); decide)
    | ((with_reducible apply Moves.op (State.setCause_moves _ _)); decide)
    | ((with_reducible apply Moves.op (State.setStep_moves _ _)); decide)
    | ((with_reducible apply Moves.op (State.svcReply_moves _ _ _ _ _)); decide)
    | ((with_reducible apply Moves.op (State.tryDramFill_moves _)); decide)
    | ((with_reducible apply Moves.op (State.wake_moves _)); decide)
    | with_reducible apply Moves.each
    | with_reducible apply Moves.ite
    | with_reducible apply Moves.when
    | (extract_lets +onlyGivenNames u; (with_reducible apply Moves.let (u := u)); (intro h; clear_value u); rotate_left; subst u; rotate_right)
    | (extract_lets +onlyGivenNames v; subst v)
    | (split <;> beta_reduce))

theorem execRecoveryWrite_moves (a0) (a1) (a2) (s) : ∃ t, execRecoveryWrite a0 a1 a2 s = .next t ∧ State.Moves [.mem, .svc, .out] s t := by
  unfold execRecoveryWrite
  refine ⟨_, rfl, ?_⟩
  unfold State.request
  beta_reduce
  have hw : s.Moves [.mem, .svc, .out] s.wake := Moves.op (State.wake_moves _) (by decide) (Moves.refl _ _)
  have hk := State.modSvc_at (s := s) (t := s.wake) (l := [.mem, .svc, .out]) (f := fun v => { v with recovery := bufWrite v.recovery a1 a2 })
    (fun i => i.bufs.1) (fun i => bufWrite_wf _ _ _ i.bufs.2.1) (by decide) hw
  repeat' with_reducible apply Moves.ite
  all_goals first
    | exact Moves.refl _ _
    | exact Moves.op (State.svcReply_moves _ _ _ _ _) (by decide) hk
    | exact Moves.op (State.svcReply_moves _ _ _ _ _) (by decide) (by first | exact hw | exact Moves.refl _ _)

theorem execSetEndpointId_moves (a0) (s) : ∃ t, execSetEndpointId a0 s = .next t ∧ State.Moves [.svc, .out] s t := by
  unfold execSetEndpointId
  repeat' (first
    | (with_reducible refine ⟨_, rfl, ?_⟩)
    | with_reducible exact Moves.refl _ _
    | ((with_reducible apply Moves.op (State.emitOut_moves _ _)); decide)
    | ((with_reducible apply Moves.op (State.mctpOk_moves _ _)); decide)
    | ((with_reducible apply State.modSvc_moves); exact fun _ => ⟨rfl, rfl⟩; decide)
    | with_reducible apply Moves.ite)

theorem execSmbusClockLowTimeout_moves (a0) (s) : ∃ t, execSmbusClockLowTimeout a0 s = .next t ∧ State.Moves [.svc, .free] s t := by
  unfold execSmbusClockLowTimeout
  repeat' (first
    | (with_reducible refine ⟨_, rfl, ?_⟩)
    | with_reducible exact Moves.refl _ _
    | ((with_reducible apply State.modSvc_moves); exact fun _ => ⟨rfl, rfl⟩; decide)
    | ((with_reducible apply Moves.op (State.takeFree_moves _)); decide)
    | with_reducible apply Moves.ite)

theorem execWindowRead_moves (a0) (a1) (a2) (s) : ∃ t, execWindowRead a0 a1 a2 s = .next t ∧ State.Moves [.aon, .book, .prot, .ports, .spins, .acts, .seqs, .chorus, .actCals, .mem, .mcache, .xing, .therm, .pair, .svc, .out] s t := by
  unfold execWindowRead
  repeat' (first
    | (with_reducible intro)
    | (with_reducible refine ⟨_, rfl, ?_⟩)
    | with_reducible exact Moves.refl _ _
    | with_reducible assumption
    | (unfold State.request; beta_reduce)
    | ((with_reducible apply Moves.op (State.svcReply_moves _ _ _ _ _)); decide)
    | ((with_reducible apply Moves.op (State.wake_moves _)); decide)
    | ((with_reducible apply Moves.op (State.windowAccess_moves _ _ _)); decide)
    | with_reducible apply Moves.each
    | with_reducible apply Moves.ite
    | with_reducible apply Moves.when
    | (extract_lets +onlyGivenNames u; (with_reducible apply Moves.let (u := u)); (intro h; clear_value u); rotate_left; subst u; rotate_right)
    | (extract_lets +onlyGivenNames v; subst v)
    | (split <;> beta_reduce))

theorem execWindowWrite_moves (a0) (a1) (a2) (s) : ∃ t, execWindowWrite a0 a1 a2 s = .next t ∧ State.Moves [.aon, .book, .prot, .ports, .spins, .acts, .seqs, .chorus, .actCals, .mem, .mcache, .xing, .therm, .pair, .svc, .out] s t := by
  unfold execWindowWrite
  repeat' (first
    | (with_reducible intro)
    | (with_reducible refine ⟨_, rfl, ?_⟩)
    | with_reducible exact Moves.refl _ _
    | with_reducible assumption
    | (unfold State.request; beta_reduce)
    | ((with_reducible apply Moves.op (State.svcReply_moves _ _ _ _ _)); decide)
    | ((with_reducible apply Moves.op (State.wake_moves _)); decide)
    | ((with_reducible apply Moves.op (State.windowAccess_moves _ _ _)); decide)
    | with_reducible apply Moves.each
    | with_reducible apply Moves.ite
    | with_reducible apply Moves.when
    | (extract_lets +onlyGivenNames u; (with_reducible apply Moves.let (u := u)); (intro h; clear_value u); rotate_left; subst u; rotate_right)
    | (extract_lets +onlyGivenNames v; subst v)
    | (split <;> beta_reduce))

end Sys2Proof.Machine
end

