-- ==== Sys2Proof/Laws/PortEvents.lean ====
section
/-! SUPPORT. What each operation and each command of Machine/PortEvents.lean can do to the state. -/

namespace Sys2Proof.Machine

theorem State.compBack_moves (a0) (s) : State.Moves [.aon, .book, .pair, .svc, .out] s (State.compBack a0 s) := by
  unfold State.compBack
  repeat' (first
    | with_reducible exact Moves.refl _ _
    | ((with_reducible apply Moves.op (State.compReply_moves _ _)); decide)
    | with_reducible apply Moves.ite)

theorem State.compGone_moves (a0) (s) : State.Moves [.aon, .book, .pair, .svc, .out] s (State.compGone a0 s) := by
  unfold State.compGone
  repeat' (first
    | with_reducible exact Moves.refl _ _
    | ((with_reducible apply Moves.op (State.compReply_moves _ _)); decide)
    | with_reducible apply Moves.ite
    | split)

theorem State.formatGone_moves (a0) (s) : State.Moves [.nor] s (State.formatGone a0 s) := by
  unfold State.formatGone
  repeat' (first
    | (with_reducible intro)
    | with_reducible exact Moves.refl _ _
    | with_reducible assumption
    | ((with_reducible apply Moves.op (State.endOp_moves _ _ _ _)); decide)
    | with_reducible apply Moves.each)

theorem State.memberAbsent_moves (a0) (s) : State.Moves [.aon, .nor, .book, .prot, .pair, .out] s (State.memberAbsent a0 s) := by
  unfold State.memberAbsent
  repeat' (first
    | (with_reducible intro)
    | with_reducible exact Moves.refl _ _
    | with_reducible assumption
    | ((with_reducible apply Moves.op (State.memberRec_moves _ _)); decide)
    | ((with_reducible apply Moves.op (State.modMember_moves _ _ _)); decide)
    | ((with_reducible apply Moves.op (State.raiseProt_moves _ _ _)); decide)
    | ((with_reducible apply Moves.op (State.rebuildWaits_moves _)); decide)
    | (unfold State.watchSpare; beta_reduce)
    | with_reducible apply Moves.each
    | with_reducible apply Moves.ite
    | with_reducible apply Moves.when
    | (extract_lets +onlyGivenNames u; (with_reducible apply Moves.let (u := u)); (intro h; clear_value u); rotate_left; subst u; rotate_right)
    | (extract_lets +onlyGivenNames v; subst v)
    | split)

theorem State.membersMissing_moves (s) : State.Moves [.aon, .nor, .book, .prot, .pair, .out] s (State.membersMissing s) := by
  unfold State.membersMissing
  repeat' (first
    | (with_reducible intro)
    | with_reducible exact Moves.refl _ _
    | with_reducible assumption
    | ((with_reducible apply Moves.op (State.memberAbsent_moves _ _)); decide)
    | with_reducible apply Moves.ite
    | with_reducible apply Moves.each)

theorem State.noteCmdUncorr_moves (a0) (a1) (a2) (s) : State.Moves [.aon, .boot, .nor, .book, .power, .ctxs, .decisions, .names, .prot, .ports, .spins, .acts, .seqs, .chorus, .actCals, .xing, .therm, .pair, .svc, .out] s (State.noteCmdUncorr a0 a1 a2 s) := by
  unfold State.noteCmdUncorr
  repeat' (first
    | with_reducible exact Moves.refl _ _
    | ((with_reducible apply State.modPort_moves); exact fun _ => ⟨rfl, rfl⟩; decide)
    | ((with_reducible apply Moves.op (State.portReset_moves _ _)); decide)
    | ((with_reducible apply Moves.op (State.settle_moves _)); decide)
    | with_reducible apply Moves.ite
    | split)

theorem execBootComplete_moves (s) : ∃ t, execBootComplete s = .next t ∧ State.Moves [.aon, .boot, .nor, .book, .power, .fa, .fb, .ctxs, .decisions, .names, .prot, .ports, .acts, .seqs, .chorus, .actCals, .mem, .mcache, .pair, .svc, .free, .out] s t := by
  unfold execBootComplete
  refine ⟨_, rfl, ?_⟩
  split
  · rename_i h
    extract_lets t0 t1 ready t2 t3 t4
    have h0 : s.Moves [.aon, .boot, .nor, .book, .power, .fa, .fb, .ctxs, .decisions, .names, .prot, .ports, .acts, .seqs, .chorus, .actCals, .mem, .mcache, .pair, .svc, .free, .out] t0 := State.modBoot_at (fun i _ => i.filled h.1) (fun i _ => h.1) (fun _ => rfl) (by decide)
      (Moves.op (State.setStep_moves _ _) (by decide) (Moves.refl _ _))
    have c0 : t0.boot.complete = true := rfl
    have h1 : s.Moves [.aon, .boot, .nor, .book, .power, .fa, .fb, .ctxs, .decisions, .names, .prot, .ports, .acts, .seqs, .chorus, .actCals, .mem, .mcache, .pair, .svc, .free, .out] t1 := by
      subst t1
      split
      · exact h0
      · exact Moves.op (State.writeDir_moves _ _) (by decide) h0
    have c1 : t1.boot.complete = true := by
      subst t1
      split <;> exact c0
    have d : ∀ f : HostFn, (ready f).download = f.download := fun f => by simp only [ready]; split <;> rfl
    have h2 : s.Moves [.aon, .boot, .nor, .book, .power, .fa, .fb, .ctxs, .decisions, .names, .prot, .ports, .acts, .seqs, .chorus, .actCals, .mem, .mcache, .pair, .svc, .free, .out] t2 := by
      refine State.modFn_at (fun _ _ => c1) (fun i => ?_) (by decide) (State.modFn_at (fun _ _ => c1) (fun i => ?_) (by decide) h1)
      · rw [d]; exact i.bufs.2.2.2
      · rw [d]; exact i.bufs.2.2.1
    have h3 : s.Moves [.aon, .boot, .nor, .book, .power, .fa, .fb, .ctxs, .decisions, .names, .prot, .ports, .acts, .seqs, .chorus, .actCals, .mem, .mcache, .pair, .svc, .free, .out] t3 := Moves.op (State.membersMissing_moves _) (by decide) h2
    have h4 : s.Moves [.aon, .boot, .nor, .book, .power, .fa, .fb, .ctxs, .decisions, .names, .prot, .ports, .acts, .seqs, .chorus, .actCals, .mem, .mcache, .pair, .svc, .free, .out] t4 := Moves.when (fun u hu => Moves.op (State.startDump_moves _) (by decide) hu) h3
    exact Moves.op (State.settle_moves _) (by decide) h4
  · exact Moves.refl _ _

theorem execHotRemove_moves (a0) (a1) (s) : ∃ t, execHotRemove a0 a1 s = .next t ∧ State.Moves [.pins, .aon, .boot, .nor, .book, .power, .fa, .fb, .ctxs, .decisions, .names, .prot, .ports, .spins, .acts, .seqs, .chorus, .actCals, .mem, .mcache, .xing, .therm, .pair, .svc, .free, .out] s t := by
  unfold execHotRemove
  repeat' (first
    | (with_reducible intro)
    | (with_reducible refine ⟨_, rfl, ?_⟩)
    | with_reducible exact Moves.refl _ _
    | with_reducible assumption
    | ((with_reducible apply Moves.op (State.bufferChanged_moves _)); decide)
    | ((with_reducible apply Moves.op (State.compGone_moves _ _)); decide)
    | ((with_reducible apply Moves.op (State.formatGone_moves _ _)); decide)
    | ((with_reducible apply Moves.op (State.memberAbsent_moves _ _)); decide)
    | ((with_reducible apply Moves.op (State.modAcal_moves _ _ _)); decide)
    | ((with_reducible apply Moves.op (State.modPins_moves _ _)); decide)
    | ((with_reducible apply State.modPort_moves); exact fun _ => ⟨rfl, rfl⟩; decide)
    | ((with_reducible apply State.modPort_leaves); exact fun _ => rfl; decide)
    | ((with_reducible apply State.modPort_served); exact fun _ _ _ => rfl; decide)
    | ((with_reducible apply State.modPort_moves); (intro _; (try dsimp only); split <;> exact ⟨rfl, rfl⟩); decide)
    | ((with_reducible apply Moves.op (State.modSeq_moves _ _ _)); decide)
    | ((with_reducible apply Moves.op (State.modSpin_moves _ _ _)); decide)
    | ((with_reducible apply Moves.op (State.noteEnded_moves _)); decide)
    | ((with_reducible apply Moves.op (State.portReset_moves _ _)); decide)
    | ((with_reducible apply Moves.op (State.raisePort_moves _ _ _)); decide)
    | ((with_reducible apply Moves.op (State.settle_moves _)); decide)
    | with_reducible apply Moves.each
    | with_reducible apply Moves.ite
    | with_reducible apply Moves.when
    | (extract_lets +onlyGivenNames u; (with_reducible apply Moves.let (u := u)); (intro h; clear_value u); rotate_left; subst u; rotate_right)
    | (extract_lets +onlyGivenNames v; subst v)
    | (split <;> beta_reduce))

theorem execStartSlotFree_moves (a0) (s) : ∃ t, execStartSlotFree a0 s = .next t ∧ State.Moves [.aon, .book, .power, .names, .prot, .spins, .pair, .svc, .out] s t := by
  unfold execStartSlotFree
  repeat' (first
    | (with_reducible refine ⟨_, rfl, ?_⟩)
    | with_reducible exact Moves.refl _ _
    | ((with_reducible apply Moves.op (State.compBack_moves _ _)); decide)
    | ((with_reducible apply Moves.op (State.freeSlot_moves _ _)); decide)
    | ((with_reducible apply Moves.op (State.settle_moves _)); decide)
    | with_reducible apply Moves.ite)

theorem execStartSlotTimeout_moves (a0) (s) : ∃ t, execStartSlotTimeout a0 s = .next t ∧ State.Moves [.now, .aon, .nor, .book, .power, .ctxs, .decisions, .names, .prot, .ports, .spins, .acts, .seqs, .chorus, .actCals, .pair, .svc, .out] s t := by
  unfold execStartSlotTimeout
  repeat' (first
    | (with_reducible refine ⟨_, rfl, ?_⟩)
    | with_reducible exact Moves.refl _ _
    | ((with_reducible apply Moves.op (State.at__moves _ _)); decide)
    | ((with_reducible apply Moves.op (State.compBack_moves _ _)); decide)
    | ((with_reducible apply Moves.op (State.freeSlot_moves _ _)); decide)
    | ((with_reducible apply Moves.op (State.settle_moves _)); decide)
    | ((with_reducible apply Moves.op (State.startFailure_moves _ _)); decide)
    | with_reducible apply Moves.ite
    | (split <;> beta_reduce))

theorem State.takeStatus_moves (a0) (a1) (s) : State.Moves [.aon, .boot, .nor, .book, .power, .ctxs, .decisions, .names, .prot, .ports, .spins, .acts, .seqs, .chorus, .actCals, .portCals, .xing, .therm, .pair, .svc, .out] s (State.takeStatus a0 a1 s) := by
  unfold State.takeStatus
  repeat' (first
    | (with_reducible intro)
    | with_reducible exact Moves.refl _ _
    | with_reducible assumption
    | ((with_reducible apply Moves.op (State.chopperStatus_moves _ _ _)); decide)
    | ((with_reducible apply Moves.op (State.judgeHda_moves _ _)); decide)
    | ((with_reducible apply Moves.op (State.modPair_moves _ _)); decide)
    | ((with_reducible apply Moves.op (State.modPcal_moves _ _ _)); decide)
    | ((with_reducible apply State.modPort_moves); exact fun _ => ⟨rfl, rfl⟩; decide)
    | ((with_reducible apply State.modPort_leaves); exact fun _ => rfl; decide)
    | ((with_reducible apply State.modPort_moves); (intro _; (try dsimp only); split <;> exact ⟨rfl, rfl⟩); decide)
    | ((with_reducible apply Moves.op (State.noteCmdUncorr_moves _ _ _ _)); decide)
    | ((with_reducible apply Moves.op (State.obedienceLost_moves _ _)); decide)
    | ((with_reducible apply Moves.op (State.raisePort_moves _ _ _)); decide)
    | ((with_reducible apply Moves.op (State.raiseServo_moves _ _ _)); decide)
    | ((with_reducible apply Moves.op (State.settle_moves _)); decide)
    | with_reducible apply Moves.ite
    | with_reducible apply Moves.when
    | (extract_lets +onlyGivenNames u; (with_reducible apply Moves.let (u := u)); (intro h; clear_value u); rotate_left; subst u; rotate_right)
    | (extract_lets +onlyGivenNames v; subst v)
    | split)

theorem execStatus_moves (a0) (s) : ∃ t, execStatus a0 s = .next t ∧ State.Moves [.aon, .boot, .nor, .book, .power, .ctxs, .decisions, .names, .prot, .ports, .spins, .acts, .seqs, .chorus, .actCals, .portCals, .xing, .therm, .pair, .svc, .out] s t := by
  unfold execStatus
  repeat' (first
    | (with_reducible intro)
    | (with_reducible refine ⟨_, rfl, ?_⟩)
    | with_reducible exact Moves.refl _ _
    | with_reducible assumption
    | ((with_reducible apply Moves.op (State.answered_moves _ _ _)); decide)
    | ((with_reducible apply State.modPort_moves); exact fun _ => ⟨rfl, rfl⟩; decide)
    | ((with_reducible apply State.modPort_leaves); exact fun _ => rfl; decide)
    | ((with_reducible apply State.modPort_moves); (intro _; (try dsimp only); split <;> exact ⟨rfl, rfl⟩); decide)
    | (unfold State.takeAnswer; beta_reduce)
    | (unfold State.takeRx; beta_reduce)
    | ((with_reducible apply Moves.op (State.takeStatus_moves _ _ _)); decide)
    | with_reducible apply Moves.each
    | with_reducible apply Moves.ite
    | with_reducible apply Moves.when
    | (extract_lets +onlyGivenNames u; (with_reducible apply Moves.let (u := u)); (intro h; clear_value u); rotate_left; subst u; rotate_right)
    | (extract_lets +onlyGivenNames v; subst v)
    | (split <;> beta_reduce))

end Sys2Proof.Machine
end

