-- ==== Sys2Proof/Laws/State.lean ====
section
/-! SUPPORT. The fields of the state after each update: one lemma per field and update, true by definition. -/

namespace Sys2Proof.Machine

@[simp] theorem State.modAon_now (f) (s : State) : (s.modAon f).now = s.now := rfl
@[simp] theorem State.modAon_pins (f) (s : State) : (s.modAon f).pins = s.pins := rfl
@[simp] theorem State.modAon_aon (f) (s : State) : (s.modAon f).aon = f s.aon := rfl
@[simp] theorem State.modAon_boot (f) (s : State) : (s.modAon f).boot = s.boot := rfl
@[simp] theorem State.modAon_nor (f) (s : State) : (s.modAon f).nor = s.nor := rfl
@[simp] theorem State.modAon_book (f) (s : State) : (s.modAon f).book = s.book := rfl
@[simp] theorem State.modAon_ident (f) (s : State) : (s.modAon f).ident = s.ident := rfl
@[simp] theorem State.modAon_power (f) (s : State) : (s.modAon f).power = s.power := rfl
@[simp] theorem State.modAon_fa (f) (s : State) : (s.modAon f).fa = s.fa := rfl
@[simp] theorem State.modAon_fb (f) (s : State) : (s.modAon f).fb = s.fb := rfl
@[simp] theorem State.modAon_ctxs (f) (s : State) : (s.modAon f).ctxs = s.ctxs := rfl
@[simp] theorem State.modAon_nextCtx (f) (s : State) : (s.modAon f).nextCtx = s.nextCtx := rfl
@[simp] theorem State.modAon_admission (f) (s : State) : (s.modAon f).admission = s.admission := rfl
@[simp] theorem State.modAon_decisions (f) (s : State) : (s.modAon f).decisions = s.decisions := rfl
@[simp] theorem State.modAon_lastShared (f) (s : State) : (s.modAon f).lastShared = s.lastShared := rfl
@[simp] theorem State.modAon_names (f) (s : State) : (s.modAon f).names = s.names := rfl
@[simp] theorem State.modAon_prot (f) (s : State) : (s.modAon f).prot = s.prot := rfl
@[simp] theorem State.modAon_ports (f) (s : State) : (s.modAon f).ports = s.ports := rfl
@[simp] theorem State.modAon_spins (f) (s : State) : (s.modAon f).spins = s.spins := rfl
@[simp] theorem State.modAon_acts (f) (s : State) : (s.modAon f).acts = s.acts := rfl
@[simp] theorem State.modAon_seqs (f) (s : State) : (s.modAon f).seqs = s.seqs := rfl
@[simp] theorem State.modAon_patch (f) (s : State) : (s.modAon f).patch = s.patch := rfl
@[simp] theorem State.modAon_chorus (f) (s : State) : (s.modAon f).chorus = s.chorus := rfl
@[simp] theorem State.modAon_actCals (f) (s : State) : (s.modAon f).actCals = s.actCals := rfl
@[simp] theorem State.modAon_portCals (f) (s : State) : (s.modAon f).portCals = s.portCals := rfl
@[simp] theorem State.modAon_cal (f) (s : State) : (s.modAon f).cal = s.cal := rfl
@[simp] theorem State.modAon_mem (f) (s : State) : (s.modAon f).mem = s.mem := rfl
@[simp] theorem State.modAon_mcache (f) (s : State) : (s.modAon f).mcache = s.mcache := rfl
@[simp] theorem State.modAon_xing (f) (s : State) : (s.modAon f).xing = s.xing := rfl
@[simp] theorem State.modAon_therm (f) (s : State) : (s.modAon f).therm = s.therm := rfl
@[simp] theorem State.modAon_pair (f) (s : State) : (s.modAon f).pair = s.pair := rfl
@[simp] theorem State.modAon_svc (f) (s : State) : (s.modAon f).svc = s.svc := rfl
@[simp] theorem State.modAon_free (f) (s : State) : (s.modAon f).free = s.free := rfl
@[simp] theorem State.modAon_out (f) (s : State) : (s.modAon f).out = s.out := rfl
@[simp] theorem State.modAon_pending (f) (s : State) : (s.modAon f).pending = s.pending := rfl
@[simp] theorem State.modAon_port (f) (i) (s : State) : (s.modAon f).port i = s.port i := rfl
@[simp] theorem State.modAon_spin (f) (i) (s : State) : (s.modAon f).spin i = s.spin i := rfl
@[simp] theorem State.modAon_act (f) (i) (s : State) : (s.modAon f).act i = s.act i := rfl
@[simp] theorem State.modAon_seq (f) (i) (s : State) : (s.modAon f).seq i = s.seq i := rfl
@[simp] theorem State.modAon_eng (f) (i) (s : State) : (s.modAon f).eng i = s.eng i := rfl
@[simp] theorem State.modAon_pool (f) (i) (s : State) : (s.modAon f).pool i = s.pool i := rfl
@[simp] theorem State.modAon_acal (f) (i) (s : State) : (s.modAon f).acal i = s.acal i := rfl
@[simp] theorem State.modAon_pcal (f) (i) (s : State) : (s.modAon f).pcal i = s.pcal i := rfl
@[simp] theorem State.modAon_member (f) (i) (s : State) : (s.modAon f).member i = s.member i := rfl
@[simp] theorem State.modAon_fn (f) (i) (s : State) : (s.modAon f).fn i = s.fn i := by cases i <;> rfl
@[simp] theorem State.modAon_ctx (f) (i) (s : State) : (s.modAon f).ctx? i = s.ctx? i := rfl
@[simp] theorem State.modBoot_now (f) (s : State) : (s.modBoot f).now = s.now := rfl
@[simp] theorem State.modBoot_pins (f) (s : State) : (s.modBoot f).pins = s.pins := rfl
@[simp] theorem State.modBoot_aon (f) (s : State) : (s.modBoot f).aon = s.aon := rfl
@[simp] theorem State.modBoot_boot (f) (s : State) : (s.modBoot f).boot = f s.boot := rfl
@[simp] theorem State.modBoot_nor (f) (s : State) : (s.modBoot f).nor = s.nor := rfl
@[simp] theorem State.modBoot_book (f) (s : State) : (s.modBoot f).book = s.book := rfl
@[simp] theorem State.modBoot_ident (f) (s : State) : (s.modBoot f).ident = s.ident := rfl
@[simp] theorem State.modBoot_power (f) (s : State) : (s.modBoot f).power = s.power := rfl
@[simp] theorem State.modBoot_fa (f) (s : State) : (s.modBoot f).fa = s.fa := rfl
@[simp] theorem State.modBoot_fb (f) (s : State) : (s.modBoot f).fb = s.fb := rfl
@[simp] theorem State.modBoot_ctxs (f) (s : State) : (s.modBoot f).ctxs = s.ctxs := rfl
@[simp] theorem State.modBoot_nextCtx (f) (s : State) : (s.modBoot f).nextCtx = s.nextCtx := rfl
@[simp] theorem State.modBoot_admission (f) (s : State) : (s.modBoot f).admission = s.admission := rfl
@[simp] theorem State.modBoot_decisions (f) (s : State) : (s.modBoot f).decisions = s.decisions := rfl
@[simp] theorem State.modBoot_lastShared (f) (s : State) : (s.modBoot f).lastShared = s.lastShared := rfl
@[simp] theorem State.modBoot_names (f) (s : State) : (s.modBoot f).names = s.names := rfl
@[simp] theorem State.modBoot_prot (f) (s : State) : (s.modBoot f).prot = s.prot := rfl
@[simp] theorem State.modBoot_ports (f) (s : State) : (s.modBoot f).ports = s.ports := rfl
@[simp] theorem State.modBoot_spins (f) (s : State) : (s.modBoot f).spins = s.spins := rfl
@[simp] theorem State.modBoot_acts (f) (s : State) : (s.modBoot f).acts = s.acts := rfl
@[simp] theorem State.modBoot_seqs (f) (s : State) : (s.modBoot f).seqs = s.seqs := rfl
@[simp] theorem State.modBoot_patch (f) (s : State) : (s.modBoot f).patch = s.patch := rfl
@[simp] theorem State.modBoot_chorus (f) (s : State) : (s.modBoot f).chorus = s.chorus := rfl
@[simp] theorem State.modBoot_actCals (f) (s : State) : (s.modBoot f).actCals = s.actCals := rfl
@[simp] theorem State.modBoot_portCals (f) (s : State) : (s.modBoot f).portCals = s.portCals := rfl
@[simp] theorem State.modBoot_cal (f) (s : State) : (s.modBoot f).cal = s.cal := rfl
@[simp] theorem State.modBoot_mem (f) (s : State) : (s.modBoot f).mem = s.mem := rfl
@[simp] theorem State.modBoot_mcache (f) (s : State) : (s.modBoot f).mcache = s.mcache := rfl
@[simp] theorem State.modBoot_xing (f) (s : State) : (s.modBoot f).xing = s.xing := rfl
@[simp] theorem State.modBoot_therm (f) (s : State) : (s.modBoot f).therm = s.therm := rfl
@[simp] theorem State.modBoot_pair (f) (s : State) : (s.modBoot f).pair = s.pair := rfl
@[simp] theorem State.modBoot_svc (f) (s : State) : (s.modBoot f).svc = s.svc := rfl
@[simp] theorem State.modBoot_free (f) (s : State) : (s.modBoot f).free = s.free := rfl
@[simp] theorem State.modBoot_out (f) (s : State) : (s.modBoot f).out = s.out := rfl
@[simp] theorem State.modBoot_pending (f) (s : State) : (s.modBoot f).pending = s.pending := rfl
@[simp] theorem State.modBoot_port (f) (i) (s : State) : (s.modBoot f).port i = s.port i := rfl
@[simp] theorem State.modBoot_spin (f) (i) (s : State) : (s.modBoot f).spin i = s.spin i := rfl
@[simp] theorem State.modBoot_act (f) (i) (s : State) : (s.modBoot f).act i = s.act i := rfl
@[simp] theorem State.modBoot_seq (f) (i) (s : State) : (s.modBoot f).seq i = s.seq i := rfl
@[simp] theorem State.modBoot_eng (f) (i) (s : State) : (s.modBoot f).eng i = s.eng i := rfl
@[simp] theorem State.modBoot_pool (f) (i) (s : State) : (s.modBoot f).pool i = s.pool i := rfl
@[simp] theorem State.modBoot_acal (f) (i) (s : State) : (s.modBoot f).acal i = s.acal i := rfl
@[simp] theorem State.modBoot_pcal (f) (i) (s : State) : (s.modBoot f).pcal i = s.pcal i := rfl
@[simp] theorem State.modBoot_member (f) (i) (s : State) : (s.modBoot f).member i = s.member i := rfl
@[simp] theorem State.modBoot_fn (f) (i) (s : State) : (s.modBoot f).fn i = s.fn i := by cases i <;> rfl
@[simp] theorem State.modBoot_ctx (f) (i) (s : State) : (s.modBoot f).ctx? i = s.ctx? i := rfl
@[simp] theorem State.modPins_now (f) (s : State) : (s.modPins f).now = s.now := rfl
@[simp] theorem State.modPins_pins (f) (s : State) : (s.modPins f).pins = f s.pins := rfl
@[simp] theorem State.modPins_aon (f) (s : State) : (s.modPins f).aon = s.aon := rfl
@[simp] theorem State.modPins_boot (f) (s : State) : (s.modPins f).boot = s.boot := rfl
@[simp] theorem State.modPins_nor (f) (s : State) : (s.modPins f).nor = s.nor := rfl
@[simp] theorem State.modPins_book (f) (s : State) : (s.modPins f).book = s.book := rfl
@[simp] theorem State.modPins_ident (f) (s : State) : (s.modPins f).ident = s.ident := rfl
@[simp] theorem State.modPins_power (f) (s : State) : (s.modPins f).power = s.power := rfl
@[simp] theorem State.modPins_fa (f) (s : State) : (s.modPins f).fa = s.fa := rfl
@[simp] theorem State.modPins_fb (f) (s : State) : (s.modPins f).fb = s.fb := rfl
@[simp] theorem State.modPins_ctxs (f) (s : State) : (s.modPins f).ctxs = s.ctxs := rfl
@[simp] theorem State.modPins_nextCtx (f) (s : State) : (s.modPins f).nextCtx = s.nextCtx := rfl
@[simp] theorem State.modPins_admission (f) (s : State) : (s.modPins f).admission = s.admission := rfl
@[simp] theorem State.modPins_decisions (f) (s : State) : (s.modPins f).decisions = s.decisions := rfl
@[simp] theorem State.modPins_lastShared (f) (s : State) : (s.modPins f).lastShared = s.lastShared := rfl
@[simp] theorem State.modPins_names (f) (s : State) : (s.modPins f).names = s.names := rfl
@[simp] theorem State.modPins_prot (f) (s : State) : (s.modPins f).prot = s.prot := rfl
@[simp] theorem State.modPins_ports (f) (s : State) : (s.modPins f).ports = s.ports := rfl
@[simp] theorem State.modPins_spins (f) (s : State) : (s.modPins f).spins = s.spins := rfl
@[simp] theorem State.modPins_acts (f) (s : State) : (s.modPins f).acts = s.acts := rfl
@[simp] theorem State.modPins_seqs (f) (s : State) : (s.modPins f).seqs = s.seqs := rfl
@[simp] theorem State.modPins_patch (f) (s : State) : (s.modPins f).patch = s.patch := rfl
@[simp] theorem State.modPins_chorus (f) (s : State) : (s.modPins f).chorus = s.chorus := rfl
@[simp] theorem State.modPins_actCals (f) (s : State) : (s.modPins f).actCals = s.actCals := rfl
@[simp] theorem State.modPins_portCals (f) (s : State) : (s.modPins f).portCals = s.portCals := rfl
@[simp] theorem State.modPins_cal (f) (s : State) : (s.modPins f).cal = s.cal := rfl
@[simp] theorem State.modPins_mem (f) (s : State) : (s.modPins f).mem = s.mem := rfl
@[simp] theorem State.modPins_mcache (f) (s : State) : (s.modPins f).mcache = s.mcache := rfl
@[simp] theorem State.modPins_xing (f) (s : State) : (s.modPins f).xing = s.xing := rfl
@[simp] theorem State.modPins_therm (f) (s : State) : (s.modPins f).therm = s.therm := rfl
@[simp] theorem State.modPins_pair (f) (s : State) : (s.modPins f).pair = s.pair := rfl
@[simp] theorem State.modPins_svc (f) (s : State) : (s.modPins f).svc = s.svc := rfl
@[simp] theorem State.modPins_free (f) (s : State) : (s.modPins f).free = s.free := rfl
@[simp] theorem State.modPins_out (f) (s : State) : (s.modPins f).out = s.out := rfl
@[simp] theorem State.modPins_pending (f) (s : State) : (s.modPins f).pending = s.pending := rfl
@[simp] theorem State.modPins_port (f) (i) (s : State) : (s.modPins f).port i = s.port i := rfl
@[simp] theorem State.modPins_spin (f) (i) (s : State) : (s.modPins f).spin i = s.spin i := rfl
@[simp] theorem State.modPins_act (f) (i) (s : State) : (s.modPins f).act i = s.act i := rfl
@[simp] theorem State.modPins_seq (f) (i) (s : State) : (s.modPins f).seq i = s.seq i := rfl
@[simp] theorem State.modPins_eng (f) (i) (s : State) : (s.modPins f).eng i = s.eng i := rfl
@[simp] theorem State.modPins_pool (f) (i) (s : State) : (s.modPins f).pool i = s.pool i := rfl
@[simp] theorem State.modPins_acal (f) (i) (s : State) : (s.modPins f).acal i = s.acal i := rfl
@[simp] theorem State.modPins_pcal (f) (i) (s : State) : (s.modPins f).pcal i = s.pcal i := rfl
@[simp] theorem State.modPins_member (f) (i) (s : State) : (s.modPins f).member i = s.member i := rfl
@[simp] theorem State.modPins_fn (f) (i) (s : State) : (s.modPins f).fn i = s.fn i := by cases i <;> rfl
@[simp] theorem State.modPins_ctx (f) (i) (s : State) : (s.modPins f).ctx? i = s.ctx? i := rfl
@[simp] theorem State.modNor_now (f) (s : State) : (s.modNor f).now = s.now := rfl
@[simp] theorem State.modNor_pins (f) (s : State) : (s.modNor f).pins = s.pins := rfl
@[simp] theorem State.modNor_aon (f) (s : State) : (s.modNor f).aon = s.aon := rfl
@[simp] theorem State.modNor_boot (f) (s : State) : (s.modNor f).boot = s.boot := rfl
@[simp] theorem State.modNor_nor (f) (s : State) : (s.modNor f).nor = f s.nor := rfl
@[simp] theorem State.modNor_book (f) (s : State) : (s.modNor f).book = s.book := rfl
@[simp] theorem State.modNor_ident (f) (s : State) : (s.modNor f).ident = s.ident := rfl
@[simp] theorem State.modNor_power (f) (s : State) : (s.modNor f).power = s.power := rfl
@[simp] theorem State.modNor_fa (f) (s : State) : (s.modNor f).fa = s.fa := rfl
@[simp] theorem State.modNor_fb (f) (s : State) : (s.modNor f).fb = s.fb := rfl
@[simp] theorem State.modNor_ctxs (f) (s : State) : (s.modNor f).ctxs = s.ctxs := rfl
@[simp] theorem State.modNor_nextCtx (f) (s : State) : (s.modNor f).nextCtx = s.nextCtx := rfl
@[simp] theorem State.modNor_admission (f) (s : State) : (s.modNor f).admission = s.admission := rfl
@[simp] theorem State.modNor_decisions (f) (s : State) : (s.modNor f).decisions = s.decisions := rfl
@[simp] theorem State.modNor_lastShared (f) (s : State) : (s.modNor f).lastShared = s.lastShared := rfl
@[simp] theorem State.modNor_names (f) (s : State) : (s.modNor f).names = s.names := rfl
@[simp] theorem State.modNor_prot (f) (s : State) : (s.modNor f).prot = s.prot := rfl
@[simp] theorem State.modNor_ports (f) (s : State) : (s.modNor f).ports = s.ports := rfl
@[simp] theorem State.modNor_spins (f) (s : State) : (s.modNor f).spins = s.spins := rfl
@[simp] theorem State.modNor_acts (f) (s : State) : (s.modNor f).acts = s.acts := rfl
@[simp] theorem State.modNor_seqs (f) (s : State) : (s.modNor f).seqs = s.seqs := rfl
@[simp] theorem State.modNor_patch (f) (s : State) : (s.modNor f).patch = s.patch := rfl
@[simp] theorem State.modNor_chorus (f) (s : State) : (s.modNor f).chorus = s.chorus := rfl
@[simp] theorem State.modNor_actCals (f) (s : State) : (s.modNor f).actCals = s.actCals := rfl
@[simp] theorem State.modNor_portCals (f) (s : State) : (s.modNor f).portCals = s.portCals := rfl
@[simp] theorem State.modNor_cal (f) (s : State) : (s.modNor f).cal = s.cal := rfl
@[simp] theorem State.modNor_mem (f) (s : State) : (s.modNor f).mem = s.mem := rfl
@[simp] theorem State.modNor_mcache (f) (s : State) : (s.modNor f).mcache = s.mcache := rfl
@[simp] theorem State.modNor_xing (f) (s : State) : (s.modNor f).xing = s.xing := rfl
@[simp] theorem State.modNor_therm (f) (s : State) : (s.modNor f).therm = s.therm := rfl
@[simp] theorem State.modNor_pair (f) (s : State) : (s.modNor f).pair = s.pair := rfl
@[simp] theorem State.modNor_svc (f) (s : State) : (s.modNor f).svc = s.svc := rfl
@[simp] theorem State.modNor_free (f) (s : State) : (s.modNor f).free = s.free := rfl
@[simp] theorem State.modNor_out (f) (s : State) : (s.modNor f).out = s.out := rfl
@[simp] theorem State.modNor_pending (f) (s : State) : (s.modNor f).pending = s.pending := rfl
@[simp] theorem State.modNor_port (f) (i) (s : State) : (s.modNor f).port i = s.port i := rfl
@[simp] theorem State.modNor_spin (f) (i) (s : State) : (s.modNor f).spin i = s.spin i := rfl
@[simp] theorem State.modNor_act (f) (i) (s : State) : (s.modNor f).act i = s.act i := rfl
@[simp] theorem State.modNor_seq (f) (i) (s : State) : (s.modNor f).seq i = s.seq i := rfl
@[simp] theorem State.modNor_eng (f) (i) (s : State) : (s.modNor f).eng i = s.eng i := rfl
@[simp] theorem State.modNor_pool (f) (i) (s : State) : (s.modNor f).pool i = s.pool i := rfl
@[simp] theorem State.modNor_acal (f) (i) (s : State) : (s.modNor f).acal i = s.acal i := rfl
@[simp] theorem State.modNor_pcal (f) (i) (s : State) : (s.modNor f).pcal i = s.pcal i := rfl
@[simp] theorem State.modNor_member (f) (i) (s : State) : (s.modNor f).member i = s.member i := rfl
@[simp] theorem State.modNor_fn (f) (i) (s : State) : (s.modNor f).fn i = s.fn i := by cases i <;> rfl
@[simp] theorem State.modNor_ctx (f) (i) (s : State) : (s.modNor f).ctx? i = s.ctx? i := rfl
@[simp] theorem State.modCfg_now (f) (s : State) : (s.modCfg f).now = s.now := rfl
@[simp] theorem State.modCfg_pins (f) (s : State) : (s.modCfg f).pins = s.pins := rfl
@[simp] theorem State.modCfg_aon (f) (s : State) : (s.modCfg f).aon = s.aon := rfl
@[simp] theorem State.modCfg_boot (f) (s : State) : (s.modCfg f).boot = s.boot := rfl
@[simp] theorem State.modCfg_nor (f) (s : State) : (s.modCfg f).nor = { s.nor with config := f s.nor.config } := rfl
@[simp] theorem State.modCfg_book (f) (s : State) : (s.modCfg f).book = s.book := rfl
@[simp] theorem State.modCfg_ident (f) (s : State) : (s.modCfg f).ident = s.ident := rfl
@[simp] theorem State.modCfg_power (f) (s : State) : (s.modCfg f).power = s.power := rfl
@[simp] theorem State.modCfg_fa (f) (s : State) : (s.modCfg f).fa = s.fa := rfl
@[simp] theorem State.modCfg_fb (f) (s : State) : (s.modCfg f).fb = s.fb := rfl
@[simp] theorem State.modCfg_ctxs (f) (s : State) : (s.modCfg f).ctxs = s.ctxs := rfl
@[simp] theorem State.modCfg_nextCtx (f) (s : State) : (s.modCfg f).nextCtx = s.nextCtx := rfl
@[simp] theorem State.modCfg_admission (f) (s : State) : (s.modCfg f).admission = s.admission := rfl
@[simp] theorem State.modCfg_decisions (f) (s : State) : (s.modCfg f).decisions = s.decisions := rfl
@[simp] theorem State.modCfg_lastShared (f) (s : State) : (s.modCfg f).lastShared = s.lastShared := rfl
@[simp] theorem State.modCfg_names (f) (s : State) : (s.modCfg f).names = s.names := rfl
@[simp] theorem State.modCfg_prot (f) (s : State) : (s.modCfg f).prot = s.prot := rfl
@[simp] theorem State.modCfg_ports (f) (s : State) : (s.modCfg f).ports = s.ports := rfl
@[simp] theorem State.modCfg_spins (f) (s : State) : (s.modCfg f).spins = s.spins := rfl
@[simp] theorem State.modCfg_acts (f) (s : State) : (s.modCfg f).acts = s.acts := rfl
@[simp] theorem State.modCfg_seqs (f) (s : State) : (s.modCfg f).seqs = s.seqs := rfl
@[simp] theorem State.modCfg_patch (f) (s : State) : (s.modCfg f).patch = s.patch := rfl
@[simp] theorem State.modCfg_chorus (f) (s : State) : (s.modCfg f).chorus = s.chorus := rfl
@[simp] theorem State.modCfg_actCals (f) (s : State) : (s.modCfg f).actCals = s.actCals := rfl
@[simp] theorem State.modCfg_portCals (f) (s : State) : (s.modCfg f).portCals = s.portCals := rfl
@[simp] theorem State.modCfg_cal (f) (s : State) : (s.modCfg f).cal = s.cal := rfl
@[simp] theorem State.modCfg_mem (f) (s : State) : (s.modCfg f).mem = s.mem := rfl
@[simp] theorem State.modCfg_mcache (f) (s : State) : (s.modCfg f).mcache = s.mcache := rfl
@[simp] theorem State.modCfg_xing (f) (s : State) : (s.modCfg f).xing = s.xing := rfl
@[simp] theorem State.modCfg_therm (f) (s : State) : (s.modCfg f).therm = s.therm := rfl
@[simp] theorem State.modCfg_pair (f) (s : State) : (s.modCfg f).pair = s.pair := rfl
@[simp] theorem State.modCfg_svc (f) (s : State) : (s.modCfg f).svc = s.svc := rfl
@[simp] theorem State.modCfg_free (f) (s : State) : (s.modCfg f).free = s.free := rfl
@[simp] theorem State.modCfg_out (f) (s : State) : (s.modCfg f).out = s.out := rfl
@[simp] theorem State.modCfg_pending (f) (s : State) : (s.modCfg f).pending = s.pending := rfl
@[simp] theorem State.modCfg_port (f) (i) (s : State) : (s.modCfg f).port i = s.port i := rfl
@[simp] theorem State.modCfg_spin (f) (i) (s : State) : (s.modCfg f).spin i = s.spin i := rfl
@[simp] theorem State.modCfg_act (f) (i) (s : State) : (s.modCfg f).act i = s.act i := rfl
@[simp] theorem State.modCfg_seq (f) (i) (s : State) : (s.modCfg f).seq i = s.seq i := rfl
@[simp] theorem State.modCfg_eng (f) (i) (s : State) : (s.modCfg f).eng i = s.eng i := rfl
@[simp] theorem State.modCfg_pool (f) (i) (s : State) : (s.modCfg f).pool i = s.pool i := rfl
@[simp] theorem State.modCfg_acal (f) (i) (s : State) : (s.modCfg f).acal i = s.acal i := rfl
@[simp] theorem State.modCfg_pcal (f) (i) (s : State) : (s.modCfg f).pcal i = s.pcal i := rfl
@[simp] theorem State.modCfg_member (f) (i) (s : State) : (s.modCfg f).member i = s.member i := rfl
@[simp] theorem State.modCfg_fn (f) (i) (s : State) : (s.modCfg f).fn i = s.fn i := by cases i <;> rfl
@[simp] theorem State.modCfg_ctx (f) (i) (s : State) : (s.modCfg f).ctx? i = s.ctx? i := rfl
@[simp] theorem State.modBook_now (f) (s : State) : (s.modBook f).now = s.now := rfl
@[simp] theorem State.modBook_pins (f) (s : State) : (s.modBook f).pins = s.pins := rfl
@[simp] theorem State.modBook_aon (f) (s : State) : (s.modBook f).aon = s.aon := rfl
@[simp] theorem State.modBook_boot (f) (s : State) : (s.modBook f).boot = s.boot := rfl
@[simp] theorem State.modBook_nor (f) (s : State) : (s.modBook f).nor = s.nor := rfl
@[simp] theorem State.modBook_book (f) (s : State) : (s.modBook f).book = f s.book := rfl
@[simp] theorem State.modBook_ident (f) (s : State) : (s.modBook f).ident = s.ident := rfl
@[simp] theorem State.modBook_power (f) (s : State) : (s.modBook f).power = s.power := rfl
@[simp] theorem State.modBook_fa (f) (s : State) : (s.modBook f).fa = s.fa := rfl
@[simp] theorem State.modBook_fb (f) (s : State) : (s.modBook f).fb = s.fb := rfl
@[simp] theorem State.modBook_ctxs (f) (s : State) : (s.modBook f).ctxs = s.ctxs := rfl
@[simp] theorem State.modBook_nextCtx (f) (s : State) : (s.modBook f).nextCtx = s.nextCtx := rfl
@[simp] theorem State.modBook_admission (f) (s : State) : (s.modBook f).admission = s.admission := rfl
@[simp] theorem State.modBook_decisions (f) (s : State) : (s.modBook f).decisions = s.decisions := rfl
@[simp] theorem State.modBook_lastShared (f) (s : State) : (s.modBook f).lastShared = s.lastShared := rfl
@[simp] theorem State.modBook_names (f) (s : State) : (s.modBook f).names = s.names := rfl
@[simp] theorem State.modBook_prot (f) (s : State) : (s.modBook f).prot = s.prot := rfl
@[simp] theorem State.modBook_ports (f) (s : State) : (s.modBook f).ports = s.ports := rfl
@[simp] theorem State.modBook_spins (f) (s : State) : (s.modBook f).spins = s.spins := rfl
@[simp] theorem State.modBook_acts (f) (s : State) : (s.modBook f).acts = s.acts := rfl
@[simp] theorem State.modBook_seqs (f) (s : State) : (s.modBook f).seqs = s.seqs := rfl
@[simp] theorem State.modBook_patch (f) (s : State) : (s.modBook f).patch = s.patch := rfl
@[simp] theorem State.modBook_chorus (f) (s : State) : (s.modBook f).chorus = s.chorus := rfl
@[simp] theorem State.modBook_actCals (f) (s : State) : (s.modBook f).actCals = s.actCals := rfl
@[simp] theorem State.modBook_portCals (f) (s : State) : (s.modBook f).portCals = s.portCals := rfl
@[simp] theorem State.modBook_cal (f) (s : State) : (s.modBook f).cal = s.cal := rfl
@[simp] theorem State.modBook_mem (f) (s : State) : (s.modBook f).mem = s.mem := rfl
@[simp] theorem State.modBook_mcache (f) (s : State) : (s.modBook f).mcache = s.mcache := rfl
@[simp] theorem State.modBook_xing (f) (s : State) : (s.modBook f).xing = s.xing := rfl
@[simp] theorem State.modBook_therm (f) (s : State) : (s.modBook f).therm = s.therm := rfl
@[simp] theorem State.modBook_pair (f) (s : State) : (s.modBook f).pair = s.pair := rfl
@[simp] theorem State.modBook_svc (f) (s : State) : (s.modBook f).svc = s.svc := rfl
@[simp] theorem State.modBook_free (f) (s : State) : (s.modBook f).free = s.free := rfl
@[simp] theorem State.modBook_out (f) (s : State) : (s.modBook f).out = s.out := rfl
@[simp] theorem State.modBook_pending (f) (s : State) : (s.modBook f).pending = s.pending := rfl
@[simp] theorem State.modBook_port (f) (i) (s : State) : (s.modBook f).port i = s.port i := rfl
@[simp] theorem State.modBook_spin (f) (i) (s : State) : (s.modBook f).spin i = s.spin i := rfl
@[simp] theorem State.modBook_act (f) (i) (s : State) : (s.modBook f).act i = s.act i := rfl
@[simp] theorem State.modBook_seq (f) (i) (s : State) : (s.modBook f).seq i = s.seq i := rfl
@[simp] theorem State.modBook_eng (f) (i) (s : State) : (s.modBook f).eng i = s.eng i := rfl
@[simp] theorem State.modBook_pool (f) (i) (s : State) : (s.modBook f).pool i = s.pool i := rfl
@[simp] theorem State.modBook_acal (f) (i) (s : State) : (s.modBook f).acal i = s.acal i := rfl
@[simp] theorem State.modBook_pcal (f) (i) (s : State) : (s.modBook f).pcal i = s.pcal i := rfl
@[simp] theorem State.modBook_member (f) (i) (s : State) : (s.modBook f).member i = s.member i := rfl
@[simp] theorem State.modBook_fn (f) (i) (s : State) : (s.modBook f).fn i = s.fn i := by cases i <;> rfl
@[simp] theorem State.modBook_ctx (f) (i) (s : State) : (s.modBook f).ctx? i = s.ctx? i := rfl
@[simp] theorem State.modIdent_now (f) (s : State) : (s.modIdent f).now = s.now := rfl
@[simp] theorem State.modIdent_pins (f) (s : State) : (s.modIdent f).pins = s.pins := rfl
@[simp] theorem State.modIdent_aon (f) (s : State) : (s.modIdent f).aon = s.aon := rfl
@[simp] theorem State.modIdent_boot (f) (s : State) : (s.modIdent f).boot = s.boot := rfl
@[simp] theorem State.modIdent_nor (f) (s : State) : (s.modIdent f).nor = s.nor := rfl
@[simp] theorem State.modIdent_book (f) (s : State) : (s.modIdent f).book = s.book := rfl
@[simp] theorem State.modIdent_ident (f) (s : State) : (s.modIdent f).ident = f s.ident := rfl
@[simp] theorem State.modIdent_power (f) (s : State) : (s.modIdent f).power = s.power := rfl
@[simp] theorem State.modIdent_fa (f) (s : State) : (s.modIdent f).fa = s.fa := rfl
@[simp] theorem State.modIdent_fb (f) (s : State) : (s.modIdent f).fb = s.fb := rfl
@[simp] theorem State.modIdent_ctxs (f) (s : State) : (s.modIdent f).ctxs = s.ctxs := rfl
@[simp] theorem State.modIdent_nextCtx (f) (s : State) : (s.modIdent f).nextCtx = s.nextCtx := rfl
@[simp] theorem State.modIdent_admission (f) (s : State) : (s.modIdent f).admission = s.admission := rfl
@[simp] theorem State.modIdent_decisions (f) (s : State) : (s.modIdent f).decisions = s.decisions := rfl
@[simp] theorem State.modIdent_lastShared (f) (s : State) : (s.modIdent f).lastShared = s.lastShared := rfl
@[simp] theorem State.modIdent_names (f) (s : State) : (s.modIdent f).names = s.names := rfl
@[simp] theorem State.modIdent_prot (f) (s : State) : (s.modIdent f).prot = s.prot := rfl
@[simp] theorem State.modIdent_ports (f) (s : State) : (s.modIdent f).ports = s.ports := rfl
@[simp] theorem State.modIdent_spins (f) (s : State) : (s.modIdent f).spins = s.spins := rfl
@[simp] theorem State.modIdent_acts (f) (s : State) : (s.modIdent f).acts = s.acts := rfl
@[simp] theorem State.modIdent_seqs (f) (s : State) : (s.modIdent f).seqs = s.seqs := rfl
@[simp] theorem State.modIdent_patch (f) (s : State) : (s.modIdent f).patch = s.patch := rfl
@[simp] theorem State.modIdent_chorus (f) (s : State) : (s.modIdent f).chorus = s.chorus := rfl
@[simp] theorem State.modIdent_actCals (f) (s : State) : (s.modIdent f).actCals = s.actCals := rfl
@[simp] theorem State.modIdent_portCals (f) (s : State) : (s.modIdent f).portCals = s.portCals := rfl
@[simp] theorem State.modIdent_cal (f) (s : State) : (s.modIdent f).cal = s.cal := rfl
@[simp] theorem State.modIdent_mem (f) (s : State) : (s.modIdent f).mem = s.mem := rfl
@[simp] theorem State.modIdent_mcache (f) (s : State) : (s.modIdent f).mcache = s.mcache := rfl
@[simp] theorem State.modIdent_xing (f) (s : State) : (s.modIdent f).xing = s.xing := rfl
@[simp] theorem State.modIdent_therm (f) (s : State) : (s.modIdent f).therm = s.therm := rfl
@[simp] theorem State.modIdent_pair (f) (s : State) : (s.modIdent f).pair = s.pair := rfl
@[simp] theorem State.modIdent_svc (f) (s : State) : (s.modIdent f).svc = s.svc := rfl
@[simp] theorem State.modIdent_free (f) (s : State) : (s.modIdent f).free = s.free := rfl
@[simp] theorem State.modIdent_out (f) (s : State) : (s.modIdent f).out = s.out := rfl
@[simp] theorem State.modIdent_pending (f) (s : State) : (s.modIdent f).pending = s.pending := rfl
@[simp] theorem State.modIdent_port (f) (i) (s : State) : (s.modIdent f).port i = s.port i := rfl
@[simp] theorem State.modIdent_spin (f) (i) (s : State) : (s.modIdent f).spin i = s.spin i := rfl
@[simp] theorem State.modIdent_act (f) (i) (s : State) : (s.modIdent f).act i = s.act i := rfl
@[simp] theorem State.modIdent_seq (f) (i) (s : State) : (s.modIdent f).seq i = s.seq i := rfl
@[simp] theorem State.modIdent_eng (f) (i) (s : State) : (s.modIdent f).eng i = s.eng i := rfl
@[simp] theorem State.modIdent_pool (f) (i) (s : State) : (s.modIdent f).pool i = s.pool i := rfl
@[simp] theorem State.modIdent_acal (f) (i) (s : State) : (s.modIdent f).acal i = s.acal i := rfl
@[simp] theorem State.modIdent_pcal (f) (i) (s : State) : (s.modIdent f).pcal i = s.pcal i := rfl
@[simp] theorem State.modIdent_member (f) (i) (s : State) : (s.modIdent f).member i = s.member i := rfl
@[simp] theorem State.modIdent_fn (f) (i) (s : State) : (s.modIdent f).fn i = s.fn i := by cases i <;> rfl
@[simp] theorem State.modIdent_ctx (f) (i) (s : State) : (s.modIdent f).ctx? i = s.ctx? i := rfl
@[simp] theorem State.modNames_now (f) (s : State) : (s.modNames f).now = s.now := rfl
@[simp] theorem State.modNames_pins (f) (s : State) : (s.modNames f).pins = s.pins := rfl
@[simp] theorem State.modNames_aon (f) (s : State) : (s.modNames f).aon = s.aon := rfl
@[simp] theorem State.modNames_boot (f) (s : State) : (s.modNames f).boot = s.boot := rfl
@[simp] theorem State.modNames_nor (f) (s : State) : (s.modNames f).nor = s.nor := rfl
@[simp] theorem State.modNames_book (f) (s : State) : (s.modNames f).book = s.book := rfl
@[simp] theorem State.modNames_ident (f) (s : State) : (s.modNames f).ident = s.ident := rfl
@[simp] theorem State.modNames_power (f) (s : State) : (s.modNames f).power = s.power := rfl
@[simp] theorem State.modNames_fa (f) (s : State) : (s.modNames f).fa = s.fa := rfl
@[simp] theorem State.modNames_fb (f) (s : State) : (s.modNames f).fb = s.fb := rfl
@[simp] theorem State.modNames_ctxs (f) (s : State) : (s.modNames f).ctxs = s.ctxs := rfl
@[simp] theorem State.modNames_nextCtx (f) (s : State) : (s.modNames f).nextCtx = s.nextCtx := rfl
@[simp] theorem State.modNames_admission (f) (s : State) : (s.modNames f).admission = s.admission := rfl
@[simp] theorem State.modNames_decisions (f) (s : State) : (s.modNames f).decisions = s.decisions := rfl
@[simp] theorem State.modNames_lastShared (f) (s : State) : (s.modNames f).lastShared = s.lastShared := rfl
@[simp] theorem State.modNames_names (f) (s : State) : (s.modNames f).names = f s.names := rfl
@[simp] theorem State.modNames_prot (f) (s : State) : (s.modNames f).prot = s.prot := rfl
@[simp] theorem State.modNames_ports (f) (s : State) : (s.modNames f).ports = s.ports := rfl
@[simp] theorem State.modNames_spins (f) (s : State) : (s.modNames f).spins = s.spins := rfl
@[simp] theorem State.modNames_acts (f) (s : State) : (s.modNames f).acts = s.acts := rfl
@[simp] theorem State.modNames_seqs (f) (s : State) : (s.modNames f).seqs = s.seqs := rfl
@[simp] theorem State.modNames_patch (f) (s : State) : (s.modNames f).patch = s.patch := rfl
@[simp] theorem State.modNames_chorus (f) (s : State) : (s.modNames f).chorus = s.chorus := rfl
@[simp] theorem State.modNames_actCals (f) (s : State) : (s.modNames f).actCals = s.actCals := rfl
@[simp] theorem State.modNames_portCals (f) (s : State) : (s.modNames f).portCals = s.portCals := rfl
@[simp] theorem State.modNames_cal (f) (s : State) : (s.modNames f).cal = s.cal := rfl
@[simp] theorem State.modNames_mem (f) (s : State) : (s.modNames f).mem = s.mem := rfl
@[simp] theorem State.modNames_mcache (f) (s : State) : (s.modNames f).mcache = s.mcache := rfl
@[simp] theorem State.modNames_xing (f) (s : State) : (s.modNames f).xing = s.xing := rfl
@[simp] theorem State.modNames_therm (f) (s : State) : (s.modNames f).therm = s.therm := rfl
@[simp] theorem State.modNames_pair (f) (s : State) : (s.modNames f).pair = s.pair := rfl
@[simp] theorem State.modNames_svc (f) (s : State) : (s.modNames f).svc = s.svc := rfl
@[simp] theorem State.modNames_free (f) (s : State) : (s.modNames f).free = s.free := rfl
@[simp] theorem State.modNames_out (f) (s : State) : (s.modNames f).out = s.out := rfl
@[simp] theorem State.modNames_pending (f) (s : State) : (s.modNames f).pending = s.pending := rfl
@[simp] theorem State.modNames_port (f) (i) (s : State) : (s.modNames f).port i = s.port i := rfl
@[simp] theorem State.modNames_spin (f) (i) (s : State) : (s.modNames f).spin i = s.spin i := rfl
@[simp] theorem State.modNames_act (f) (i) (s : State) : (s.modNames f).act i = s.act i := rfl
@[simp] theorem State.modNames_seq (f) (i) (s : State) : (s.modNames f).seq i = s.seq i := rfl
@[simp] theorem State.modNames_eng (f) (i) (s : State) : (s.modNames f).eng i = s.eng i := rfl
@[simp] theorem State.modNames_pool (f) (i) (s : State) : (s.modNames f).pool i = s.pool i := rfl
@[simp] theorem State.modNames_acal (f) (i) (s : State) : (s.modNames f).acal i = s.acal i := rfl
@[simp] theorem State.modNames_pcal (f) (i) (s : State) : (s.modNames f).pcal i = s.pcal i := rfl
@[simp] theorem State.modNames_member (f) (i) (s : State) : (s.modNames f).member i = s.member i := rfl
@[simp] theorem State.modNames_fn (f) (i) (s : State) : (s.modNames f).fn i = s.fn i := by cases i <;> rfl
@[simp] theorem State.modNames_ctx (f) (i) (s : State) : (s.modNames f).ctx? i = s.ctx? i := rfl
@[simp] theorem State.modProt_now (f) (s : State) : (s.modProt f).now = s.now := rfl
@[simp] theorem State.modProt_pins (f) (s : State) : (s.modProt f).pins = s.pins := rfl
@[simp] theorem State.modProt_aon (f) (s : State) : (s.modProt f).aon = s.aon := rfl
@[simp] theorem State.modProt_boot (f) (s : State) : (s.modProt f).boot = s.boot := rfl
@[simp] theorem State.modProt_nor (f) (s : State) : (s.modProt f).nor = s.nor := rfl
@[simp] theorem State.modProt_book (f) (s : State) : (s.modProt f).book = s.book := rfl
@[simp] theorem State.modProt_ident (f) (s : State) : (s.modProt f).ident = s.ident := rfl
@[simp] theorem State.modProt_power (f) (s : State) : (s.modProt f).power = s.power := rfl
@[simp] theorem State.modProt_fa (f) (s : State) : (s.modProt f).fa = s.fa := rfl
@[simp] theorem State.modProt_fb (f) (s : State) : (s.modProt f).fb = s.fb := rfl
@[simp] theorem State.modProt_ctxs (f) (s : State) : (s.modProt f).ctxs = s.ctxs := rfl
@[simp] theorem State.modProt_nextCtx (f) (s : State) : (s.modProt f).nextCtx = s.nextCtx := rfl
@[simp] theorem State.modProt_admission (f) (s : State) : (s.modProt f).admission = s.admission := rfl
@[simp] theorem State.modProt_decisions (f) (s : State) : (s.modProt f).decisions = s.decisions := rfl
@[simp] theorem State.modProt_lastShared (f) (s : State) : (s.modProt f).lastShared = s.lastShared := rfl
@[simp] theorem State.modProt_names (f) (s : State) : (s.modProt f).names = s.names := rfl
@[simp] theorem State.modProt_prot (f) (s : State) : (s.modProt f).prot = f s.prot := rfl
@[simp] theorem State.modProt_ports (f) (s : State) : (s.modProt f).ports = s.ports := rfl
@[simp] theorem State.modProt_spins (f) (s : State) : (s.modProt f).spins = s.spins := rfl
@[simp] theorem State.modProt_acts (f) (s : State) : (s.modProt f).acts = s.acts := rfl
@[simp] theorem State.modProt_seqs (f) (s : State) : (s.modProt f).seqs = s.seqs := rfl
@[simp] theorem State.modProt_patch (f) (s : State) : (s.modProt f).patch = s.patch := rfl
@[simp] theorem State.modProt_chorus (f) (s : State) : (s.modProt f).chorus = s.chorus := rfl
@[simp] theorem State.modProt_actCals (f) (s : State) : (s.modProt f).actCals = s.actCals := rfl
@[simp] theorem State.modProt_portCals (f) (s : State) : (s.modProt f).portCals = s.portCals := rfl
@[simp] theorem State.modProt_cal (f) (s : State) : (s.modProt f).cal = s.cal := rfl
@[simp] theorem State.modProt_mem (f) (s : State) : (s.modProt f).mem = s.mem := rfl
@[simp] theorem State.modProt_mcache (f) (s : State) : (s.modProt f).mcache = s.mcache := rfl
@[simp] theorem State.modProt_xing (f) (s : State) : (s.modProt f).xing = s.xing := rfl
@[simp] theorem State.modProt_therm (f) (s : State) : (s.modProt f).therm = s.therm := rfl
@[simp] theorem State.modProt_pair (f) (s : State) : (s.modProt f).pair = s.pair := rfl
@[simp] theorem State.modProt_svc (f) (s : State) : (s.modProt f).svc = s.svc := rfl
@[simp] theorem State.modProt_free (f) (s : State) : (s.modProt f).free = s.free := rfl
@[simp] theorem State.modProt_out (f) (s : State) : (s.modProt f).out = s.out := rfl
@[simp] theorem State.modProt_pending (f) (s : State) : (s.modProt f).pending = s.pending := rfl
@[simp] theorem State.modProt_port (f) (i) (s : State) : (s.modProt f).port i = s.port i := rfl
@[simp] theorem State.modProt_spin (f) (i) (s : State) : (s.modProt f).spin i = s.spin i := rfl
@[simp] theorem State.modProt_act (f) (i) (s : State) : (s.modProt f).act i = s.act i := rfl
@[simp] theorem State.modProt_seq (f) (i) (s : State) : (s.modProt f).seq i = s.seq i := rfl
@[simp] theorem State.modProt_eng (f) (i) (s : State) : (s.modProt f).eng i = s.eng i := rfl
@[simp] theorem State.modProt_pool (f) (i) (s : State) : (s.modProt f).pool i = s.pool i := rfl
@[simp] theorem State.modProt_acal (f) (i) (s : State) : (s.modProt f).acal i = s.acal i := rfl
@[simp] theorem State.modProt_pcal (f) (i) (s : State) : (s.modProt f).pcal i = s.pcal i := rfl
@[simp] theorem State.modProt_fn (f) (i) (s : State) : (s.modProt f).fn i = s.fn i := by cases i <;> rfl
@[simp] theorem State.modProt_ctx (f) (i) (s : State) : (s.modProt f).ctx? i = s.ctx? i := rfl
@[simp] theorem State.modPatch_now (f) (s : State) : (s.modPatch f).now = s.now := rfl
@[simp] theorem State.modPatch_pins (f) (s : State) : (s.modPatch f).pins = s.pins := rfl
@[simp] theorem State.modPatch_aon (f) (s : State) : (s.modPatch f).aon = s.aon := rfl
@[simp] theorem State.modPatch_boot (f) (s : State) : (s.modPatch f).boot = s.boot := rfl
@[simp] theorem State.modPatch_nor (f) (s : State) : (s.modPatch f).nor = s.nor := rfl
@[simp] theorem State.modPatch_book (f) (s : State) : (s.modPatch f).book = s.book := rfl
@[simp] theorem State.modPatch_ident (f) (s : State) : (s.modPatch f).ident = s.ident := rfl
@[simp] theorem State.modPatch_power (f) (s : State) : (s.modPatch f).power = s.power := rfl
@[simp] theorem State.modPatch_fa (f) (s : State) : (s.modPatch f).fa = s.fa := rfl
@[simp] theorem State.modPatch_fb (f) (s : State) : (s.modPatch f).fb = s.fb := rfl
@[simp] theorem State.modPatch_ctxs (f) (s : State) : (s.modPatch f).ctxs = s.ctxs := rfl
@[simp] theorem State.modPatch_nextCtx (f) (s : State) : (s.modPatch f).nextCtx = s.nextCtx := rfl
@[simp] theorem State.modPatch_admission (f) (s : State) : (s.modPatch f).admission = s.admission := rfl
@[simp] theorem State.modPatch_decisions (f) (s : State) : (s.modPatch f).decisions = s.decisions := rfl
@[simp] theorem State.modPatch_lastShared (f) (s : State) : (s.modPatch f).lastShared = s.lastShared := rfl
@[simp] theorem State.modPatch_names (f) (s : State) : (s.modPatch f).names = s.names := rfl
@[simp] theorem State.modPatch_prot (f) (s : State) : (s.modPatch f).prot = s.prot := rfl
@[simp] theorem State.modPatch_ports (f) (s : State) : (s.modPatch f).ports = s.ports := rfl
@[simp] theorem State.modPatch_spins (f) (s : State) : (s.modPatch f).spins = s.spins := rfl
@[simp] theorem State.modPatch_acts (f) (s : State) : (s.modPatch f).acts = s.acts := rfl
@[simp] theorem State.modPatch_seqs (f) (s : State) : (s.modPatch f).seqs = s.seqs := rfl
@[simp] theorem State.modPatch_patch (f) (s : State) : (s.modPatch f).patch = f s.patch := rfl
@[simp] theorem State.modPatch_chorus (f) (s : State) : (s.modPatch f).chorus = s.chorus := rfl
@[simp] theorem State.modPatch_actCals (f) (s : State) : (s.modPatch f).actCals = s.actCals := rfl
@[simp] theorem State.modPatch_portCals (f) (s : State) : (s.modPatch f).portCals = s.portCals := rfl
@[simp] theorem State.modPatch_cal (f) (s : State) : (s.modPatch f).cal = s.cal := rfl
@[simp] theorem State.modPatch_mem (f) (s : State) : (s.modPatch f).mem = s.mem := rfl
@[simp] theorem State.modPatch_mcache (f) (s : State) : (s.modPatch f).mcache = s.mcache := rfl
@[simp] theorem State.modPatch_xing (f) (s : State) : (s.modPatch f).xing = s.xing := rfl
@[simp] theorem State.modPatch_therm (f) (s : State) : (s.modPatch f).therm = s.therm := rfl
@[simp] theorem State.modPatch_pair (f) (s : State) : (s.modPatch f).pair = s.pair := rfl
@[simp] theorem State.modPatch_svc (f) (s : State) : (s.modPatch f).svc = s.svc := rfl
@[simp] theorem State.modPatch_free (f) (s : State) : (s.modPatch f).free = s.free := rfl
@[simp] theorem State.modPatch_out (f) (s : State) : (s.modPatch f).out = s.out := rfl
@[simp] theorem State.modPatch_pending (f) (s : State) : (s.modPatch f).pending = s.pending := rfl
@[simp] theorem State.modPatch_port (f) (i) (s : State) : (s.modPatch f).port i = s.port i := rfl
@[simp] theorem State.modPatch_spin (f) (i) (s : State) : (s.modPatch f).spin i = s.spin i := rfl
@[simp] theorem State.modPatch_act (f) (i) (s : State) : (s.modPatch f).act i = s.act i := rfl
@[simp] theorem State.modPatch_seq (f) (i) (s : State) : (s.modPatch f).seq i = s.seq i := rfl
@[simp] theorem State.modPatch_eng (f) (i) (s : State) : (s.modPatch f).eng i = s.eng i := rfl
@[simp] theorem State.modPatch_pool (f) (i) (s : State) : (s.modPatch f).pool i = s.pool i := rfl
@[simp] theorem State.modPatch_acal (f) (i) (s : State) : (s.modPatch f).acal i = s.acal i := rfl
@[simp] theorem State.modPatch_pcal (f) (i) (s : State) : (s.modPatch f).pcal i = s.pcal i := rfl
@[simp] theorem State.modPatch_member (f) (i) (s : State) : (s.modPatch f).member i = s.member i := rfl
@[simp] theorem State.modPatch_fn (f) (i) (s : State) : (s.modPatch f).fn i = s.fn i := by cases i <;> rfl
@[simp] theorem State.modPatch_ctx (f) (i) (s : State) : (s.modPatch f).ctx? i = s.ctx? i := rfl
@[simp] theorem State.modChorus_now (f) (s : State) : (s.modChorus f).now = s.now := rfl
@[simp] theorem State.modChorus_pins (f) (s : State) : (s.modChorus f).pins = s.pins := rfl
@[simp] theorem State.modChorus_aon (f) (s : State) : (s.modChorus f).aon = s.aon := rfl
@[simp] theorem State.modChorus_boot (f) (s : State) : (s.modChorus f).boot = s.boot := rfl
@[simp] theorem State.modChorus_nor (f) (s : State) : (s.modChorus f).nor = s.nor := rfl
@[simp] theorem State.modChorus_book (f) (s : State) : (s.modChorus f).book = s.book := rfl
@[simp] theorem State.modChorus_ident (f) (s : State) : (s.modChorus f).ident = s.ident := rfl
@[simp] theorem State.modChorus_power (f) (s : State) : (s.modChorus f).power = s.power := rfl
@[simp] theorem State.modChorus_fa (f) (s : State) : (s.modChorus f).fa = s.fa := rfl
@[simp] theorem State.modChorus_fb (f) (s : State) : (s.modChorus f).fb = s.fb := rfl
@[simp] theorem State.modChorus_ctxs (f) (s : State) : (s.modChorus f).ctxs = s.ctxs := rfl
@[simp] theorem State.modChorus_nextCtx (f) (s : State) : (s.modChorus f).nextCtx = s.nextCtx := rfl
@[simp] theorem State.modChorus_admission (f) (s : State) : (s.modChorus f).admission = s.admission := rfl
@[simp] theorem State.modChorus_decisions (f) (s : State) : (s.modChorus f).decisions = s.decisions := rfl
@[simp] theorem State.modChorus_lastShared (f) (s : State) : (s.modChorus f).lastShared = s.lastShared := rfl
@[simp] theorem State.modChorus_names (f) (s : State) : (s.modChorus f).names = s.names := rfl
@[simp] theorem State.modChorus_prot (f) (s : State) : (s.modChorus f).prot = s.prot := rfl
@[simp] theorem State.modChorus_ports (f) (s : State) : (s.modChorus f).ports = s.ports := rfl
@[simp] theorem State.modChorus_spins (f) (s : State) : (s.modChorus f).spins = s.spins := rfl
@[simp] theorem State.modChorus_acts (f) (s : State) : (s.modChorus f).acts = s.acts := rfl
@[simp] theorem State.modChorus_seqs (f) (s : State) : (s.modChorus f).seqs = s.seqs := rfl
@[simp] theorem State.modChorus_patch (f) (s : State) : (s.modChorus f).patch = s.patch := rfl
@[simp] theorem State.modChorus_chorus (f) (s : State) : (s.modChorus f).chorus = f s.chorus := rfl
@[simp] theorem State.modChorus_actCals (f) (s : State) : (s.modChorus f).actCals = s.actCals := rfl
@[simp] theorem State.modChorus_portCals (f) (s : State) : (s.modChorus f).portCals = s.portCals := rfl
@[simp] theorem State.modChorus_cal (f) (s : State) : (s.modChorus f).cal = s.cal := rfl
@[simp] theorem State.modChorus_mem (f) (s : State) : (s.modChorus f).mem = s.mem := rfl
@[simp] theorem State.modChorus_mcache (f) (s : State) : (s.modChorus f).mcache = s.mcache := rfl
@[simp] theorem State.modChorus_xing (f) (s : State) : (s.modChorus f).xing = s.xing := rfl
@[simp] theorem State.modChorus_therm (f) (s : State) : (s.modChorus f).therm = s.therm := rfl
@[simp] theorem State.modChorus_pair (f) (s : State) : (s.modChorus f).pair = s.pair := rfl
@[simp] theorem State.modChorus_svc (f) (s : State) : (s.modChorus f).svc = s.svc := rfl
@[simp] theorem State.modChorus_free (f) (s : State) : (s.modChorus f).free = s.free := rfl
@[simp] theorem State.modChorus_out (f) (s : State) : (s.modChorus f).out = s.out := rfl
@[simp] theorem State.modChorus_pending (f) (s : State) : (s.modChorus f).pending = s.pending := rfl
@[simp] theorem State.modChorus_port (f) (i) (s : State) : (s.modChorus f).port i = s.port i := rfl
@[simp] theorem State.modChorus_spin (f) (i) (s : State) : (s.modChorus f).spin i = s.spin i := rfl
@[simp] theorem State.modChorus_act (f) (i) (s : State) : (s.modChorus f).act i = s.act i := rfl
@[simp] theorem State.modChorus_seq (f) (i) (s : State) : (s.modChorus f).seq i = s.seq i := rfl
@[simp] theorem State.modChorus_acal (f) (i) (s : State) : (s.modChorus f).acal i = s.acal i := rfl
@[simp] theorem State.modChorus_pcal (f) (i) (s : State) : (s.modChorus f).pcal i = s.pcal i := rfl
@[simp] theorem State.modChorus_member (f) (i) (s : State) : (s.modChorus f).member i = s.member i := rfl
@[simp] theorem State.modChorus_fn (f) (i) (s : State) : (s.modChorus f).fn i = s.fn i := by cases i <;> rfl
@[simp] theorem State.modChorus_ctx (f) (i) (s : State) : (s.modChorus f).ctx? i = s.ctx? i := rfl
@[simp] theorem State.modMem_now (f) (s : State) : (s.modMem f).now = s.now := rfl
@[simp] theorem State.modMem_pins (f) (s : State) : (s.modMem f).pins = s.pins := rfl
@[simp] theorem State.modMem_aon (f) (s : State) : (s.modMem f).aon = s.aon := rfl
@[simp] theorem State.modMem_boot (f) (s : State) : (s.modMem f).boot = s.boot := rfl
@[simp] theorem State.modMem_nor (f) (s : State) : (s.modMem f).nor = s.nor := rfl
@[simp] theorem State.modMem_book (f) (s : State) : (s.modMem f).book = s.book := rfl
@[simp] theorem State.modMem_ident (f) (s : State) : (s.modMem f).ident = s.ident := rfl
@[simp] theorem State.modMem_power (f) (s : State) : (s.modMem f).power = s.power := rfl
@[simp] theorem State.modMem_fa (f) (s : State) : (s.modMem f).fa = s.fa := rfl
@[simp] theorem State.modMem_fb (f) (s : State) : (s.modMem f).fb = s.fb := rfl
@[simp] theorem State.modMem_ctxs (f) (s : State) : (s.modMem f).ctxs = s.ctxs := rfl
@[simp] theorem State.modMem_nextCtx (f) (s : State) : (s.modMem f).nextCtx = s.nextCtx := rfl
@[simp] theorem State.modMem_admission (f) (s : State) : (s.modMem f).admission = s.admission := rfl
@[simp] theorem State.modMem_decisions (f) (s : State) : (s.modMem f).decisions = s.decisions := rfl
@[simp] theorem State.modMem_lastShared (f) (s : State) : (s.modMem f).lastShared = s.lastShared := rfl
@[simp] theorem State.modMem_names (f) (s : State) : (s.modMem f).names = s.names := rfl
@[simp] theorem State.modMem_prot (f) (s : State) : (s.modMem f).prot = s.prot := rfl
@[simp] theorem State.modMem_ports (f) (s : State) : (s.modMem f).ports = s.ports := rfl
@[simp] theorem State.modMem_spins (f) (s : State) : (s.modMem f).spins = s.spins := rfl
@[simp] theorem State.modMem_acts (f) (s : State) : (s.modMem f).acts = s.acts := rfl
@[simp] theorem State.modMem_seqs (f) (s : State) : (s.modMem f).seqs = s.seqs := rfl
@[simp] theorem State.modMem_patch (f) (s : State) : (s.modMem f).patch = s.patch := rfl
@[simp] theorem State.modMem_chorus (f) (s : State) : (s.modMem f).chorus = s.chorus := rfl
@[simp] theorem State.modMem_actCals (f) (s : State) : (s.modMem f).actCals = s.actCals := rfl
@[simp] theorem State.modMem_portCals (f) (s : State) : (s.modMem f).portCals = s.portCals := rfl
@[simp] theorem State.modMem_cal (f) (s : State) : (s.modMem f).cal = s.cal := rfl
@[simp] theorem State.modMem_mem (f) (s : State) : (s.modMem f).mem = f s.mem := rfl
@[simp] theorem State.modMem_mcache (f) (s : State) : (s.modMem f).mcache = s.mcache := rfl
@[simp] theorem State.modMem_xing (f) (s : State) : (s.modMem f).xing = s.xing := rfl
@[simp] theorem State.modMem_therm (f) (s : State) : (s.modMem f).therm = s.therm := rfl
@[simp] theorem State.modMem_pair (f) (s : State) : (s.modMem f).pair = s.pair := rfl
@[simp] theorem State.modMem_svc (f) (s : State) : (s.modMem f).svc = s.svc := rfl
@[simp] theorem State.modMem_free (f) (s : State) : (s.modMem f).free = s.free := rfl
@[simp] theorem State.modMem_out (f) (s : State) : (s.modMem f).out = s.out := rfl
@[simp] theorem State.modMem_pending (f) (s : State) : (s.modMem f).pending = s.pending := rfl
@[simp] theorem State.modMem_port (f) (i) (s : State) : (s.modMem f).port i = s.port i := rfl
@[simp] theorem State.modMem_spin (f) (i) (s : State) : (s.modMem f).spin i = s.spin i := rfl
@[simp] theorem State.modMem_act (f) (i) (s : State) : (s.modMem f).act i = s.act i := rfl
@[simp] theorem State.modMem_seq (f) (i) (s : State) : (s.modMem f).seq i = s.seq i := rfl
@[simp] theorem State.modMem_eng (f) (i) (s : State) : (s.modMem f).eng i = s.eng i := rfl
@[simp] theorem State.modMem_pool (f) (i) (s : State) : (s.modMem f).pool i = s.pool i := rfl
@[simp] theorem State.modMem_acal (f) (i) (s : State) : (s.modMem f).acal i = s.acal i := rfl
@[simp] theorem State.modMem_pcal (f) (i) (s : State) : (s.modMem f).pcal i = s.pcal i := rfl
@[simp] theorem State.modMem_member (f) (i) (s : State) : (s.modMem f).member i = s.member i := rfl
@[simp] theorem State.modMem_fn (f) (i) (s : State) : (s.modMem f).fn i = s.fn i := by cases i <;> rfl
@[simp] theorem State.modMem_ctx (f) (i) (s : State) : (s.modMem f).ctx? i = s.ctx? i := rfl
@[simp] theorem State.modCache_now (f) (s : State) : (s.modCache f).now = s.now := rfl
@[simp] theorem State.modCache_pins (f) (s : State) : (s.modCache f).pins = s.pins := rfl
@[simp] theorem State.modCache_aon (f) (s : State) : (s.modCache f).aon = s.aon := rfl
@[simp] theorem State.modCache_boot (f) (s : State) : (s.modCache f).boot = s.boot := rfl
@[simp] theorem State.modCache_nor (f) (s : State) : (s.modCache f).nor = s.nor := rfl
@[simp] theorem State.modCache_book (f) (s : State) : (s.modCache f).book = s.book := rfl
@[simp] theorem State.modCache_ident (f) (s : State) : (s.modCache f).ident = s.ident := rfl
@[simp] theorem State.modCache_power (f) (s : State) : (s.modCache f).power = s.power := rfl
@[simp] theorem State.modCache_fa (f) (s : State) : (s.modCache f).fa = s.fa := rfl
@[simp] theorem State.modCache_fb (f) (s : State) : (s.modCache f).fb = s.fb := rfl
@[simp] theorem State.modCache_ctxs (f) (s : State) : (s.modCache f).ctxs = s.ctxs := rfl
@[simp] theorem State.modCache_nextCtx (f) (s : State) : (s.modCache f).nextCtx = s.nextCtx := rfl
@[simp] theorem State.modCache_admission (f) (s : State) : (s.modCache f).admission = s.admission := rfl
@[simp] theorem State.modCache_decisions (f) (s : State) : (s.modCache f).decisions = s.decisions := rfl
@[simp] theorem State.modCache_lastShared (f) (s : State) : (s.modCache f).lastShared = s.lastShared := rfl
@[simp] theorem State.modCache_names (f) (s : State) : (s.modCache f).names = s.names := rfl
@[simp] theorem State.modCache_prot (f) (s : State) : (s.modCache f).prot = s.prot := rfl
@[simp] theorem State.modCache_ports (f) (s : State) : (s.modCache f).ports = s.ports := rfl
@[simp] theorem State.modCache_spins (f) (s : State) : (s.modCache f).spins = s.spins := rfl
@[simp] theorem State.modCache_acts (f) (s : State) : (s.modCache f).acts = s.acts := rfl
@[simp] theorem State.modCache_seqs (f) (s : State) : (s.modCache f).seqs = s.seqs := rfl
@[simp] theorem State.modCache_patch (f) (s : State) : (s.modCache f).patch = s.patch := rfl
@[simp] theorem State.modCache_chorus (f) (s : State) : (s.modCache f).chorus = s.chorus := rfl
@[simp] theorem State.modCache_actCals (f) (s : State) : (s.modCache f).actCals = s.actCals := rfl
@[simp] theorem State.modCache_portCals (f) (s : State) : (s.modCache f).portCals = s.portCals := rfl
@[simp] theorem State.modCache_cal (f) (s : State) : (s.modCache f).cal = s.cal := rfl
@[simp] theorem State.modCache_mem (f) (s : State) : (s.modCache f).mem = s.mem := rfl
@[simp] theorem State.modCache_mcache (f) (s : State) : (s.modCache f).mcache = f s.mcache := rfl
@[simp] theorem State.modCache_xing (f) (s : State) : (s.modCache f).xing = s.xing := rfl
@[simp] theorem State.modCache_therm (f) (s : State) : (s.modCache f).therm = s.therm := rfl
@[simp] theorem State.modCache_pair (f) (s : State) : (s.modCache f).pair = s.pair := rfl
@[simp] theorem State.modCache_svc (f) (s : State) : (s.modCache f).svc = s.svc := rfl
@[simp] theorem State.modCache_free (f) (s : State) : (s.modCache f).free = s.free := rfl
@[simp] theorem State.modCache_out (f) (s : State) : (s.modCache f).out = s.out := rfl
@[simp] theorem State.modCache_pending (f) (s : State) : (s.modCache f).pending = s.pending := rfl
@[simp] theorem State.modCache_port (f) (i) (s : State) : (s.modCache f).port i = s.port i := rfl
@[simp] theorem State.modCache_spin (f) (i) (s : State) : (s.modCache f).spin i = s.spin i := rfl
@[simp] theorem State.modCache_act (f) (i) (s : State) : (s.modCache f).act i = s.act i := rfl
@[simp] theorem State.modCache_seq (f) (i) (s : State) : (s.modCache f).seq i = s.seq i := rfl
@[simp] theorem State.modCache_eng (f) (i) (s : State) : (s.modCache f).eng i = s.eng i := rfl
@[simp] theorem State.modCache_pool (f) (i) (s : State) : (s.modCache f).pool i = s.pool i := rfl
@[simp] theorem State.modCache_acal (f) (i) (s : State) : (s.modCache f).acal i = s.acal i := rfl
@[simp] theorem State.modCache_pcal (f) (i) (s : State) : (s.modCache f).pcal i = s.pcal i := rfl
@[simp] theorem State.modCache_member (f) (i) (s : State) : (s.modCache f).member i = s.member i := rfl
@[simp] theorem State.modCache_fn (f) (i) (s : State) : (s.modCache f).fn i = s.fn i := by cases i <;> rfl
@[simp] theorem State.modCache_ctx (f) (i) (s : State) : (s.modCache f).ctx? i = s.ctx? i := rfl
@[simp] theorem State.modXing_now (f) (s : State) : (s.modXing f).now = s.now := rfl
@[simp] theorem State.modXing_pins (f) (s : State) : (s.modXing f).pins = s.pins := rfl
@[simp] theorem State.modXing_aon (f) (s : State) : (s.modXing f).aon = s.aon := rfl
@[simp] theorem State.modXing_boot (f) (s : State) : (s.modXing f).boot = s.boot := rfl
@[simp] theorem State.modXing_nor (f) (s : State) : (s.modXing f).nor = s.nor := rfl
@[simp] theorem State.modXing_book (f) (s : State) : (s.modXing f).book = s.book := rfl
@[simp] theorem State.modXing_ident (f) (s : State) : (s.modXing f).ident = s.ident := rfl
@[simp] theorem State.modXing_power (f) (s : State) : (s.modXing f).power = s.power := rfl
@[simp] theorem State.modXing_fa (f) (s : State) : (s.modXing f).fa = s.fa := rfl
@[simp] theorem State.modXing_fb (f) (s : State) : (s.modXing f).fb = s.fb := rfl
@[simp] theorem State.modXing_ctxs (f) (s : State) : (s.modXing f).ctxs = s.ctxs := rfl
@[simp] theorem State.modXing_nextCtx (f) (s : State) : (s.modXing f).nextCtx = s.nextCtx := rfl
@[simp] theorem State.modXing_admission (f) (s : State) : (s.modXing f).admission = s.admission := rfl
@[simp] theorem State.modXing_decisions (f) (s : State) : (s.modXing f).decisions = s.decisions := rfl
@[simp] theorem State.modXing_lastShared (f) (s : State) : (s.modXing f).lastShared = s.lastShared := rfl
@[simp] theorem State.modXing_names (f) (s : State) : (s.modXing f).names = s.names := rfl
@[simp] theorem State.modXing_prot (f) (s : State) : (s.modXing f).prot = s.prot := rfl
@[simp] theorem State.modXing_ports (f) (s : State) : (s.modXing f).ports = s.ports := rfl
@[simp] theorem State.modXing_spins (f) (s : State) : (s.modXing f).spins = s.spins := rfl
@[simp] theorem State.modXing_acts (f) (s : State) : (s.modXing f).acts = s.acts := rfl
@[simp] theorem State.modXing_seqs (f) (s : State) : (s.modXing f).seqs = s.seqs := rfl
@[simp] theorem State.modXing_patch (f) (s : State) : (s.modXing f).patch = s.patch := rfl
@[simp] theorem State.modXing_chorus (f) (s : State) : (s.modXing f).chorus = s.chorus := rfl
@[simp] theorem State.modXing_actCals (f) (s : State) : (s.modXing f).actCals = s.actCals := rfl
@[simp] theorem State.modXing_portCals (f) (s : State) : (s.modXing f).portCals = s.portCals := rfl
@[simp] theorem State.modXing_cal (f) (s : State) : (s.modXing f).cal = s.cal := rfl
@[simp] theorem State.modXing_mem (f) (s : State) : (s.modXing f).mem = s.mem := rfl
@[simp] theorem State.modXing_mcache (f) (s : State) : (s.modXing f).mcache = s.mcache := rfl
@[simp] theorem State.modXing_xing (f) (s : State) : (s.modXing f).xing = f s.xing := rfl
@[simp] theorem State.modXing_therm (f) (s : State) : (s.modXing f).therm = s.therm := rfl
@[simp] theorem State.modXing_pair (f) (s : State) : (s.modXing f).pair = s.pair := rfl
@[simp] theorem State.modXing_svc (f) (s : State) : (s.modXing f).svc = s.svc := rfl
@[simp] theorem State.modXing_free (f) (s : State) : (s.modXing f).free = s.free := rfl
@[simp] theorem State.modXing_out (f) (s : State) : (s.modXing f).out = s.out := rfl
@[simp] theorem State.modXing_pending (f) (s : State) : (s.modXing f).pending = s.pending := rfl
@[simp] theorem State.modXing_port (f) (i) (s : State) : (s.modXing f).port i = s.port i := rfl
@[simp] theorem State.modXing_spin (f) (i) (s : State) : (s.modXing f).spin i = s.spin i := rfl
@[simp] theorem State.modXing_act (f) (i) (s : State) : (s.modXing f).act i = s.act i := rfl
@[simp] theorem State.modXing_seq (f) (i) (s : State) : (s.modXing f).seq i = s.seq i := rfl
@[simp] theorem State.modXing_eng (f) (i) (s : State) : (s.modXing f).eng i = s.eng i := rfl
@[simp] theorem State.modXing_pool (f) (i) (s : State) : (s.modXing f).pool i = s.pool i := rfl
@[simp] theorem State.modXing_acal (f) (i) (s : State) : (s.modXing f).acal i = s.acal i := rfl
@[simp] theorem State.modXing_pcal (f) (i) (s : State) : (s.modXing f).pcal i = s.pcal i := rfl
@[simp] theorem State.modXing_member (f) (i) (s : State) : (s.modXing f).member i = s.member i := rfl
@[simp] theorem State.modXing_fn (f) (i) (s : State) : (s.modXing f).fn i = s.fn i := by cases i <;> rfl
@[simp] theorem State.modXing_ctx (f) (i) (s : State) : (s.modXing f).ctx? i = s.ctx? i := rfl
@[simp] theorem State.modTherm_now (f) (s : State) : (s.modTherm f).now = s.now := rfl
@[simp] theorem State.modTherm_pins (f) (s : State) : (s.modTherm f).pins = s.pins := rfl
@[simp] theorem State.modTherm_aon (f) (s : State) : (s.modTherm f).aon = s.aon := rfl
@[simp] theorem State.modTherm_boot (f) (s : State) : (s.modTherm f).boot = s.boot := rfl
@[simp] theorem State.modTherm_nor (f) (s : State) : (s.modTherm f).nor = s.nor := rfl
@[simp] theorem State.modTherm_book (f) (s : State) : (s.modTherm f).book = s.book := rfl
@[simp] theorem State.modTherm_ident (f) (s : State) : (s.modTherm f).ident = s.ident := rfl
@[simp] theorem State.modTherm_power (f) (s : State) : (s.modTherm f).power = s.power := rfl
@[simp] theorem State.modTherm_fa (f) (s : State) : (s.modTherm f).fa = s.fa := rfl
@[simp] theorem State.modTherm_fb (f) (s : State) : (s.modTherm f).fb = s.fb := rfl
@[simp] theorem State.modTherm_ctxs (f) (s : State) : (s.modTherm f).ctxs = s.ctxs := rfl
@[simp] theorem State.modTherm_nextCtx (f) (s : State) : (s.modTherm f).nextCtx = s.nextCtx := rfl
@[simp] theorem State.modTherm_admission (f) (s : State) : (s.modTherm f).admission = s.admission := rfl
@[simp] theorem State.modTherm_decisions (f) (s : State) : (s.modTherm f).decisions = s.decisions := rfl
@[simp] theorem State.modTherm_lastShared (f) (s : State) : (s.modTherm f).lastShared = s.lastShared := rfl
@[simp] theorem State.modTherm_names (f) (s : State) : (s.modTherm f).names = s.names := rfl
@[simp] theorem State.modTherm_prot (f) (s : State) : (s.modTherm f).prot = s.prot := rfl
@[simp] theorem State.modTherm_ports (f) (s : State) : (s.modTherm f).ports = s.ports := rfl
@[simp] theorem State.modTherm_spins (f) (s : State) : (s.modTherm f).spins = s.spins := rfl
@[simp] theorem State.modTherm_acts (f) (s : State) : (s.modTherm f).acts = s.acts := rfl
@[simp] theorem State.modTherm_seqs (f) (s : State) : (s.modTherm f).seqs = s.seqs := rfl
@[simp] theorem State.modTherm_patch (f) (s : State) : (s.modTherm f).patch = s.patch := rfl
@[simp] theorem State.modTherm_chorus (f) (s : State) : (s.modTherm f).chorus = s.chorus := rfl
@[simp] theorem State.modTherm_actCals (f) (s : State) : (s.modTherm f).actCals = s.actCals := rfl
@[simp] theorem State.modTherm_portCals (f) (s : State) : (s.modTherm f).portCals = s.portCals := rfl
@[simp] theorem State.modTherm_cal (f) (s : State) : (s.modTherm f).cal = s.cal := rfl
@[simp] theorem State.modTherm_mem (f) (s : State) : (s.modTherm f).mem = s.mem := rfl
@[simp] theorem State.modTherm_mcache (f) (s : State) : (s.modTherm f).mcache = s.mcache := rfl
@[simp] theorem State.modTherm_xing (f) (s : State) : (s.modTherm f).xing = s.xing := rfl
@[simp] theorem State.modTherm_therm (f) (s : State) : (s.modTherm f).therm = f s.therm := rfl
@[simp] theorem State.modTherm_pair (f) (s : State) : (s.modTherm f).pair = s.pair := rfl
@[simp] theorem State.modTherm_svc (f) (s : State) : (s.modTherm f).svc = s.svc := rfl
@[simp] theorem State.modTherm_free (f) (s : State) : (s.modTherm f).free = s.free := rfl
@[simp] theorem State.modTherm_out (f) (s : State) : (s.modTherm f).out = s.out := rfl
@[simp] theorem State.modTherm_pending (f) (s : State) : (s.modTherm f).pending = s.pending := rfl
@[simp] theorem State.modTherm_port (f) (i) (s : State) : (s.modTherm f).port i = s.port i := rfl
@[simp] theorem State.modTherm_spin (f) (i) (s : State) : (s.modTherm f).spin i = s.spin i := rfl
@[simp] theorem State.modTherm_act (f) (i) (s : State) : (s.modTherm f).act i = s.act i := rfl
@[simp] theorem State.modTherm_seq (f) (i) (s : State) : (s.modTherm f).seq i = s.seq i := rfl
@[simp] theorem State.modTherm_eng (f) (i) (s : State) : (s.modTherm f).eng i = s.eng i := rfl
@[simp] theorem State.modTherm_pool (f) (i) (s : State) : (s.modTherm f).pool i = s.pool i := rfl
@[simp] theorem State.modTherm_acal (f) (i) (s : State) : (s.modTherm f).acal i = s.acal i := rfl
@[simp] theorem State.modTherm_pcal (f) (i) (s : State) : (s.modTherm f).pcal i = s.pcal i := rfl
@[simp] theorem State.modTherm_member (f) (i) (s : State) : (s.modTherm f).member i = s.member i := rfl
@[simp] theorem State.modTherm_fn (f) (i) (s : State) : (s.modTherm f).fn i = s.fn i := by cases i <;> rfl
@[simp] theorem State.modTherm_ctx (f) (i) (s : State) : (s.modTherm f).ctx? i = s.ctx? i := rfl
@[simp] theorem State.modPair_now (f) (s : State) : (s.modPair f).now = s.now := rfl
@[simp] theorem State.modPair_pins (f) (s : State) : (s.modPair f).pins = s.pins := rfl
@[simp] theorem State.modPair_aon (f) (s : State) : (s.modPair f).aon = s.aon := rfl
@[simp] theorem State.modPair_boot (f) (s : State) : (s.modPair f).boot = s.boot := rfl
@[simp] theorem State.modPair_nor (f) (s : State) : (s.modPair f).nor = s.nor := rfl
@[simp] theorem State.modPair_book (f) (s : State) : (s.modPair f).book = s.book := rfl
@[simp] theorem State.modPair_ident (f) (s : State) : (s.modPair f).ident = s.ident := rfl
@[simp] theorem State.modPair_power (f) (s : State) : (s.modPair f).power = s.power := rfl
@[simp] theorem State.modPair_fa (f) (s : State) : (s.modPair f).fa = s.fa := rfl
@[simp] theorem State.modPair_fb (f) (s : State) : (s.modPair f).fb = s.fb := rfl
@[simp] theorem State.modPair_ctxs (f) (s : State) : (s.modPair f).ctxs = s.ctxs := rfl
@[simp] theorem State.modPair_nextCtx (f) (s : State) : (s.modPair f).nextCtx = s.nextCtx := rfl
@[simp] theorem State.modPair_admission (f) (s : State) : (s.modPair f).admission = s.admission := rfl
@[simp] theorem State.modPair_decisions (f) (s : State) : (s.modPair f).decisions = s.decisions := rfl
@[simp] theorem State.modPair_lastShared (f) (s : State) : (s.modPair f).lastShared = s.lastShared := rfl
@[simp] theorem State.modPair_names (f) (s : State) : (s.modPair f).names = s.names := rfl
@[simp] theorem State.modPair_prot (f) (s : State) : (s.modPair f).prot = s.prot := rfl
@[simp] theorem State.modPair_ports (f) (s : State) : (s.modPair f).ports = s.ports := rfl
@[simp] theorem State.modPair_spins (f) (s : State) : (s.modPair f).spins = s.spins := rfl
@[simp] theorem State.modPair_acts (f) (s : State) : (s.modPair f).acts = s.acts := rfl
@[simp] theorem State.modPair_seqs (f) (s : State) : (s.modPair f).seqs = s.seqs := rfl
@[simp] theorem State.modPair_patch (f) (s : State) : (s.modPair f).patch = s.patch := rfl
@[simp] theorem State.modPair_chorus (f) (s : State) : (s.modPair f).chorus = s.chorus := rfl
@[simp] theorem State.modPair_actCals (f) (s : State) : (s.modPair f).actCals = s.actCals := rfl
@[simp] theorem State.modPair_portCals (f) (s : State) : (s.modPair f).portCals = s.portCals := rfl
@[simp] theorem State.modPair_cal (f) (s : State) : (s.modPair f).cal = s.cal := rfl
@[simp] theorem State.modPair_mem (f) (s : State) : (s.modPair f).mem = s.mem := rfl
@[simp] theorem State.modPair_mcache (f) (s : State) : (s.modPair f).mcache = s.mcache := rfl
@[simp] theorem State.modPair_xing (f) (s : State) : (s.modPair f).xing = s.xing := rfl
@[simp] theorem State.modPair_therm (f) (s : State) : (s.modPair f).therm = s.therm := rfl
@[simp] theorem State.modPair_pair (f) (s : State) : (s.modPair f).pair = f s.pair := rfl
@[simp] theorem State.modPair_svc (f) (s : State) : (s.modPair f).svc = s.svc := rfl
@[simp] theorem State.modPair_free (f) (s : State) : (s.modPair f).free = s.free := rfl
@[simp] theorem State.modPair_out (f) (s : State) : (s.modPair f).out = s.out := rfl
@[simp] theorem State.modPair_pending (f) (s : State) : (s.modPair f).pending = s.pending := rfl
@[simp] theorem State.modPair_port (f) (i) (s : State) : (s.modPair f).port i = s.port i := rfl
@[simp] theorem State.modPair_spin (f) (i) (s : State) : (s.modPair f).spin i = s.spin i := rfl
@[simp] theorem State.modPair_act (f) (i) (s : State) : (s.modPair f).act i = s.act i := rfl
@[simp] theorem State.modPair_seq (f) (i) (s : State) : (s.modPair f).seq i = s.seq i := rfl
@[simp] theorem State.modPair_eng (f) (i) (s : State) : (s.modPair f).eng i = s.eng i := rfl
@[simp] theorem State.modPair_pool (f) (i) (s : State) : (s.modPair f).pool i = s.pool i := rfl
@[simp] theorem State.modPair_acal (f) (i) (s : State) : (s.modPair f).acal i = s.acal i := rfl
@[simp] theorem State.modPair_pcal (f) (i) (s : State) : (s.modPair f).pcal i = s.pcal i := rfl
@[simp] theorem State.modPair_member (f) (i) (s : State) : (s.modPair f).member i = s.member i := rfl
@[simp] theorem State.modPair_fn (f) (i) (s : State) : (s.modPair f).fn i = s.fn i := by cases i <;> rfl
@[simp] theorem State.modPair_ctx (f) (i) (s : State) : (s.modPair f).ctx? i = s.ctx? i := rfl
@[simp] theorem State.modSvc_now (f) (s : State) : (s.modSvc f).now = s.now := rfl
@[simp] theorem State.modSvc_pins (f) (s : State) : (s.modSvc f).pins = s.pins := rfl
@[simp] theorem State.modSvc_aon (f) (s : State) : (s.modSvc f).aon = s.aon := rfl
@[simp] theorem State.modSvc_boot (f) (s : State) : (s.modSvc f).boot = s.boot := rfl
@[simp] theorem State.modSvc_nor (f) (s : State) : (s.modSvc f).nor = s.nor := rfl
@[simp] theorem State.modSvc_book (f) (s : State) : (s.modSvc f).book = s.book := rfl
@[simp] theorem State.modSvc_ident (f) (s : State) : (s.modSvc f).ident = s.ident := rfl
@[simp] theorem State.modSvc_power (f) (s : State) : (s.modSvc f).power = s.power := rfl
@[simp] theorem State.modSvc_fa (f) (s : State) : (s.modSvc f).fa = s.fa := rfl
@[simp] theorem State.modSvc_fb (f) (s : State) : (s.modSvc f).fb = s.fb := rfl
@[simp] theorem State.modSvc_ctxs (f) (s : State) : (s.modSvc f).ctxs = s.ctxs := rfl
@[simp] theorem State.modSvc_nextCtx (f) (s : State) : (s.modSvc f).nextCtx = s.nextCtx := rfl
@[simp] theorem State.modSvc_admission (f) (s : State) : (s.modSvc f).admission = s.admission := rfl
@[simp] theorem State.modSvc_decisions (f) (s : State) : (s.modSvc f).decisions = s.decisions := rfl
@[simp] theorem State.modSvc_lastShared (f) (s : State) : (s.modSvc f).lastShared = s.lastShared := rfl
@[simp] theorem State.modSvc_names (f) (s : State) : (s.modSvc f).names = s.names := rfl
@[simp] theorem State.modSvc_prot (f) (s : State) : (s.modSvc f).prot = s.prot := rfl
@[simp] theorem State.modSvc_ports (f) (s : State) : (s.modSvc f).ports = s.ports := rfl
@[simp] theorem State.modSvc_spins (f) (s : State) : (s.modSvc f).spins = s.spins := rfl
@[simp] theorem State.modSvc_acts (f) (s : State) : (s.modSvc f).acts = s.acts := rfl
@[simp] theorem State.modSvc_seqs (f) (s : State) : (s.modSvc f).seqs = s.seqs := rfl
@[simp] theorem State.modSvc_patch (f) (s : State) : (s.modSvc f).patch = s.patch := rfl
@[simp] theorem State.modSvc_chorus (f) (s : State) : (s.modSvc f).chorus = s.chorus := rfl
@[simp] theorem State.modSvc_actCals (f) (s : State) : (s.modSvc f).actCals = s.actCals := rfl
@[simp] theorem State.modSvc_portCals (f) (s : State) : (s.modSvc f).portCals = s.portCals := rfl
@[simp] theorem State.modSvc_cal (f) (s : State) : (s.modSvc f).cal = s.cal := rfl
@[simp] theorem State.modSvc_mem (f) (s : State) : (s.modSvc f).mem = s.mem := rfl
@[simp] theorem State.modSvc_mcache (f) (s : State) : (s.modSvc f).mcache = s.mcache := rfl
@[simp] theorem State.modSvc_xing (f) (s : State) : (s.modSvc f).xing = s.xing := rfl
@[simp] theorem State.modSvc_therm (f) (s : State) : (s.modSvc f).therm = s.therm := rfl
@[simp] theorem State.modSvc_pair (f) (s : State) : (s.modSvc f).pair = s.pair := rfl
@[simp] theorem State.modSvc_svc (f) (s : State) : (s.modSvc f).svc = f s.svc := rfl
@[simp] theorem State.modSvc_free (f) (s : State) : (s.modSvc f).free = s.free := rfl
@[simp] theorem State.modSvc_out (f) (s : State) : (s.modSvc f).out = s.out := rfl
@[simp] theorem State.modSvc_pending (f) (s : State) : (s.modSvc f).pending = s.pending := rfl
@[simp] theorem State.modSvc_port (f) (i) (s : State) : (s.modSvc f).port i = s.port i := rfl
@[simp] theorem State.modSvc_spin (f) (i) (s : State) : (s.modSvc f).spin i = s.spin i := rfl
@[simp] theorem State.modSvc_act (f) (i) (s : State) : (s.modSvc f).act i = s.act i := rfl
@[simp] theorem State.modSvc_seq (f) (i) (s : State) : (s.modSvc f).seq i = s.seq i := rfl
@[simp] theorem State.modSvc_eng (f) (i) (s : State) : (s.modSvc f).eng i = s.eng i := rfl
@[simp] theorem State.modSvc_pool (f) (i) (s : State) : (s.modSvc f).pool i = s.pool i := rfl
@[simp] theorem State.modSvc_acal (f) (i) (s : State) : (s.modSvc f).acal i = s.acal i := rfl
@[simp] theorem State.modSvc_pcal (f) (i) (s : State) : (s.modSvc f).pcal i = s.pcal i := rfl
@[simp] theorem State.modSvc_member (f) (i) (s : State) : (s.modSvc f).member i = s.member i := rfl
@[simp] theorem State.modSvc_fn (f) (i) (s : State) : (s.modSvc f).fn i = s.fn i := by cases i <;> rfl
@[simp] theorem State.modSvc_ctx (f) (i) (s : State) : (s.modSvc f).ctx? i = s.ctx? i := rfl
@[simp] theorem State.modPower_now (f) (s : State) : (s.modPower f).now = s.now := rfl
@[simp] theorem State.modPower_pins (f) (s : State) : (s.modPower f).pins = s.pins := rfl
@[simp] theorem State.modPower_aon (f) (s : State) : (s.modPower f).aon = s.aon := rfl
@[simp] theorem State.modPower_boot (f) (s : State) : (s.modPower f).boot = s.boot := rfl
@[simp] theorem State.modPower_nor (f) (s : State) : (s.modPower f).nor = s.nor := rfl
@[simp] theorem State.modPower_book (f) (s : State) : (s.modPower f).book = s.book := rfl
@[simp] theorem State.modPower_ident (f) (s : State) : (s.modPower f).ident = s.ident := rfl
@[simp] theorem State.modPower_power (f) (s : State) : (s.modPower f).power = f s.power := rfl
@[simp] theorem State.modPower_fa (f) (s : State) : (s.modPower f).fa = s.fa := rfl
@[simp] theorem State.modPower_fb (f) (s : State) : (s.modPower f).fb = s.fb := rfl
@[simp] theorem State.modPower_ctxs (f) (s : State) : (s.modPower f).ctxs = s.ctxs := rfl
@[simp] theorem State.modPower_nextCtx (f) (s : State) : (s.modPower f).nextCtx = s.nextCtx := rfl
@[simp] theorem State.modPower_admission (f) (s : State) : (s.modPower f).admission = s.admission := rfl
@[simp] theorem State.modPower_decisions (f) (s : State) : (s.modPower f).decisions = s.decisions := rfl
@[simp] theorem State.modPower_lastShared (f) (s : State) : (s.modPower f).lastShared = s.lastShared := rfl
@[simp] theorem State.modPower_names (f) (s : State) : (s.modPower f).names = s.names := rfl
@[simp] theorem State.modPower_prot (f) (s : State) : (s.modPower f).prot = s.prot := rfl
@[simp] theorem State.modPower_ports (f) (s : State) : (s.modPower f).ports = s.ports := rfl
@[simp] theorem State.modPower_spins (f) (s : State) : (s.modPower f).spins = s.spins := rfl
@[simp] theorem State.modPower_acts (f) (s : State) : (s.modPower f).acts = s.acts := rfl
@[simp] theorem State.modPower_seqs (f) (s : State) : (s.modPower f).seqs = s.seqs := rfl
@[simp] theorem State.modPower_patch (f) (s : State) : (s.modPower f).patch = s.patch := rfl
@[simp] theorem State.modPower_chorus (f) (s : State) : (s.modPower f).chorus = s.chorus := rfl
@[simp] theorem State.modPower_actCals (f) (s : State) : (s.modPower f).actCals = s.actCals := rfl
@[simp] theorem State.modPower_portCals (f) (s : State) : (s.modPower f).portCals = s.portCals := rfl
@[simp] theorem State.modPower_cal (f) (s : State) : (s.modPower f).cal = s.cal := rfl
@[simp] theorem State.modPower_mem (f) (s : State) : (s.modPower f).mem = s.mem := rfl
@[simp] theorem State.modPower_mcache (f) (s : State) : (s.modPower f).mcache = s.mcache := rfl
@[simp] theorem State.modPower_xing (f) (s : State) : (s.modPower f).xing = s.xing := rfl
@[simp] theorem State.modPower_therm (f) (s : State) : (s.modPower f).therm = s.therm := rfl
@[simp] theorem State.modPower_pair (f) (s : State) : (s.modPower f).pair = s.pair := rfl
@[simp] theorem State.modPower_svc (f) (s : State) : (s.modPower f).svc = s.svc := rfl
@[simp] theorem State.modPower_free (f) (s : State) : (s.modPower f).free = s.free := rfl
@[simp] theorem State.modPower_out (f) (s : State) : (s.modPower f).out = s.out := rfl
@[simp] theorem State.modPower_pending (f) (s : State) : (s.modPower f).pending = s.pending := rfl
@[simp] theorem State.modPower_port (f) (i) (s : State) : (s.modPower f).port i = s.port i := rfl
@[simp] theorem State.modPower_spin (f) (i) (s : State) : (s.modPower f).spin i = s.spin i := rfl
@[simp] theorem State.modPower_act (f) (i) (s : State) : (s.modPower f).act i = s.act i := rfl
@[simp] theorem State.modPower_seq (f) (i) (s : State) : (s.modPower f).seq i = s.seq i := rfl
@[simp] theorem State.modPower_eng (f) (i) (s : State) : (s.modPower f).eng i = s.eng i := rfl
@[simp] theorem State.modPower_pool (f) (i) (s : State) : (s.modPower f).pool i = s.pool i := rfl
@[simp] theorem State.modPower_acal (f) (i) (s : State) : (s.modPower f).acal i = s.acal i := rfl
@[simp] theorem State.modPower_pcal (f) (i) (s : State) : (s.modPower f).pcal i = s.pcal i := rfl
@[simp] theorem State.modPower_member (f) (i) (s : State) : (s.modPower f).member i = s.member i := rfl
@[simp] theorem State.modPower_fn (f) (i) (s : State) : (s.modPower f).fn i = s.fn i := by cases i <;> rfl
@[simp] theorem State.modPower_ctx (f) (i) (s : State) : (s.modPower f).ctx? i = s.ctx? i := rfl
@[simp] theorem State.modPort_now (p) (f) (s : State) : (s.modPort p f).now = s.now := rfl
@[simp] theorem State.modPort_pins (p) (f) (s : State) : (s.modPort p f).pins = s.pins := rfl
@[simp] theorem State.modPort_aon (p) (f) (s : State) : (s.modPort p f).aon = s.aon := rfl
@[simp] theorem State.modPort_boot (p) (f) (s : State) : (s.modPort p f).boot = s.boot := rfl
@[simp] theorem State.modPort_nor (p) (f) (s : State) : (s.modPort p f).nor = s.nor := rfl
@[simp] theorem State.modPort_book (p) (f) (s : State) : (s.modPort p f).book = s.book := rfl
@[simp] theorem State.modPort_ident (p) (f) (s : State) : (s.modPort p f).ident = s.ident := rfl
@[simp] theorem State.modPort_power (p) (f) (s : State) : (s.modPort p f).power = s.power := rfl
@[simp] theorem State.modPort_fa (p) (f) (s : State) : (s.modPort p f).fa = s.fa := rfl
@[simp] theorem State.modPort_fb (p) (f) (s : State) : (s.modPort p f).fb = s.fb := rfl
@[simp] theorem State.modPort_ctxs (p) (f) (s : State) : (s.modPort p f).ctxs = s.ctxs := rfl
@[simp] theorem State.modPort_nextCtx (p) (f) (s : State) : (s.modPort p f).nextCtx = s.nextCtx := rfl
@[simp] theorem State.modPort_admission (p) (f) (s : State) : (s.modPort p f).admission = s.admission := rfl
@[simp] theorem State.modPort_decisions (p) (f) (s : State) : (s.modPort p f).decisions = s.decisions := rfl
@[simp] theorem State.modPort_lastShared (p) (f) (s : State) : (s.modPort p f).lastShared = s.lastShared := rfl
@[simp] theorem State.modPort_names (p) (f) (s : State) : (s.modPort p f).names = s.names := rfl
@[simp] theorem State.modPort_prot (p) (f) (s : State) : (s.modPort p f).prot = s.prot := rfl
@[simp] theorem State.modPort_ports (p) (f) (s : State) : (s.modPort p f).ports = upd s.ports p f := rfl
@[simp] theorem State.modPort_spins (p) (f) (s : State) : (s.modPort p f).spins = s.spins := rfl
@[simp] theorem State.modPort_acts (p) (f) (s : State) : (s.modPort p f).acts = s.acts := rfl
@[simp] theorem State.modPort_seqs (p) (f) (s : State) : (s.modPort p f).seqs = s.seqs := rfl
@[simp] theorem State.modPort_patch (p) (f) (s : State) : (s.modPort p f).patch = s.patch := rfl
@[simp] theorem State.modPort_chorus (p) (f) (s : State) : (s.modPort p f).chorus = s.chorus := rfl
@[simp] theorem State.modPort_actCals (p) (f) (s : State) : (s.modPort p f).actCals = s.actCals := rfl
@[simp] theorem State.modPort_portCals (p) (f) (s : State) : (s.modPort p f).portCals = s.portCals := rfl
@[simp] theorem State.modPort_cal (p) (f) (s : State) : (s.modPort p f).cal = s.cal := rfl
@[simp] theorem State.modPort_mem (p) (f) (s : State) : (s.modPort p f).mem = s.mem := rfl
@[simp] theorem State.modPort_mcache (p) (f) (s : State) : (s.modPort p f).mcache = s.mcache := rfl
@[simp] theorem State.modPort_xing (p) (f) (s : State) : (s.modPort p f).xing = s.xing := rfl
@[simp] theorem State.modPort_therm (p) (f) (s : State) : (s.modPort p f).therm = s.therm := rfl
@[simp] theorem State.modPort_pair (p) (f) (s : State) : (s.modPort p f).pair = s.pair := rfl
@[simp] theorem State.modPort_svc (p) (f) (s : State) : (s.modPort p f).svc = s.svc := rfl
@[simp] theorem State.modPort_free (p) (f) (s : State) : (s.modPort p f).free = s.free := rfl
@[simp] theorem State.modPort_out (p) (f) (s : State) : (s.modPort p f).out = s.out := rfl
@[simp] theorem State.modPort_pending (p) (f) (s : State) : (s.modPort p f).pending = s.pending := rfl
@[simp] theorem State.modPort_port (p f i) (s : State) : (s.modPort p f).port i = if i = p then f (s.port p) else s.port i := by
  simp only [State.modPort, State.port, upd_get]
  by_cases h : p = i
  · subst h; simp only [if_true]
  · rw [if_neg h, if_neg (Ne.symm h)]
@[simp] theorem State.modPort_spin (p) (f) (i) (s : State) : (s.modPort p f).spin i = s.spin i := rfl
@[simp] theorem State.modPort_act (p) (f) (i) (s : State) : (s.modPort p f).act i = s.act i := rfl
@[simp] theorem State.modPort_seq (p) (f) (i) (s : State) : (s.modPort p f).seq i = s.seq i := rfl
@[simp] theorem State.modPort_eng (p) (f) (i) (s : State) : (s.modPort p f).eng i = s.eng i := rfl
@[simp] theorem State.modPort_pool (p) (f) (i) (s : State) : (s.modPort p f).pool i = s.pool i := rfl
@[simp] theorem State.modPort_acal (p) (f) (i) (s : State) : (s.modPort p f).acal i = s.acal i := rfl
@[simp] theorem State.modPort_pcal (p) (f) (i) (s : State) : (s.modPort p f).pcal i = s.pcal i := rfl
@[simp] theorem State.modPort_member (p) (f) (i) (s : State) : (s.modPort p f).member i = s.member i := rfl
@[simp] theorem State.modPort_fn (p) (f) (i) (s : State) : (s.modPort p f).fn i = s.fn i := by cases i <;> rfl
@[simp] theorem State.modPort_ctx (p) (f) (i) (s : State) : (s.modPort p f).ctx? i = s.ctx? i := rfl
@[simp] theorem State.modSpin_now (p) (f) (s : State) : (s.modSpin p f).now = s.now := rfl
@[simp] theorem State.modSpin_pins (p) (f) (s : State) : (s.modSpin p f).pins = s.pins := rfl
@[simp] theorem State.modSpin_aon (p) (f) (s : State) : (s.modSpin p f).aon = s.aon := rfl
@[simp] theorem State.modSpin_boot (p) (f) (s : State) : (s.modSpin p f).boot = s.boot := rfl
@[simp] theorem State.modSpin_nor (p) (f) (s : State) : (s.modSpin p f).nor = s.nor := rfl
@[simp] theorem State.modSpin_book (p) (f) (s : State) : (s.modSpin p f).book = s.book := rfl
@[simp] theorem State.modSpin_ident (p) (f) (s : State) : (s.modSpin p f).ident = s.ident := rfl
@[simp] theorem State.modSpin_power (p) (f) (s : State) : (s.modSpin p f).power = s.power := rfl
@[simp] theorem State.modSpin_fa (p) (f) (s : State) : (s.modSpin p f).fa = s.fa := rfl
@[simp] theorem State.modSpin_fb (p) (f) (s : State) : (s.modSpin p f).fb = s.fb := rfl
@[simp] theorem State.modSpin_ctxs (p) (f) (s : State) : (s.modSpin p f).ctxs = s.ctxs := rfl
@[simp] theorem State.modSpin_nextCtx (p) (f) (s : State) : (s.modSpin p f).nextCtx = s.nextCtx := rfl
@[simp] theorem State.modSpin_admission (p) (f) (s : State) : (s.modSpin p f).admission = s.admission := rfl
@[simp] theorem State.modSpin_decisions (p) (f) (s : State) : (s.modSpin p f).decisions = s.decisions := rfl
@[simp] theorem State.modSpin_lastShared (p) (f) (s : State) : (s.modSpin p f).lastShared = s.lastShared := rfl
@[simp] theorem State.modSpin_names (p) (f) (s : State) : (s.modSpin p f).names = s.names := rfl
@[simp] theorem State.modSpin_prot (p) (f) (s : State) : (s.modSpin p f).prot = s.prot := rfl
@[simp] theorem State.modSpin_ports (p) (f) (s : State) : (s.modSpin p f).ports = s.ports := rfl
@[simp] theorem State.modSpin_spins (p) (f) (s : State) : (s.modSpin p f).spins = upd s.spins p f := rfl
@[simp] theorem State.modSpin_acts (p) (f) (s : State) : (s.modSpin p f).acts = s.acts := rfl
@[simp] theorem State.modSpin_seqs (p) (f) (s : State) : (s.modSpin p f).seqs = s.seqs := rfl
@[simp] theorem State.modSpin_patch (p) (f) (s : State) : (s.modSpin p f).patch = s.patch := rfl
@[simp] theorem State.modSpin_chorus (p) (f) (s : State) : (s.modSpin p f).chorus = s.chorus := rfl
@[simp] theorem State.modSpin_actCals (p) (f) (s : State) : (s.modSpin p f).actCals = s.actCals := rfl
@[simp] theorem State.modSpin_portCals (p) (f) (s : State) : (s.modSpin p f).portCals = s.portCals := rfl
@[simp] theorem State.modSpin_cal (p) (f) (s : State) : (s.modSpin p f).cal = s.cal := rfl
@[simp] theorem State.modSpin_mem (p) (f) (s : State) : (s.modSpin p f).mem = s.mem := rfl
@[simp] theorem State.modSpin_mcache (p) (f) (s : State) : (s.modSpin p f).mcache = s.mcache := rfl
@[simp] theorem State.modSpin_xing (p) (f) (s : State) : (s.modSpin p f).xing = s.xing := rfl
@[simp] theorem State.modSpin_therm (p) (f) (s : State) : (s.modSpin p f).therm = s.therm := rfl
@[simp] theorem State.modSpin_pair (p) (f) (s : State) : (s.modSpin p f).pair = s.pair := rfl
@[simp] theorem State.modSpin_svc (p) (f) (s : State) : (s.modSpin p f).svc = s.svc := rfl
@[simp] theorem State.modSpin_free (p) (f) (s : State) : (s.modSpin p f).free = s.free := rfl
@[simp] theorem State.modSpin_out (p) (f) (s : State) : (s.modSpin p f).out = s.out := rfl
@[simp] theorem State.modSpin_pending (p) (f) (s : State) : (s.modSpin p f).pending = s.pending := rfl
@[simp] theorem State.modSpin_port (p) (f) (i) (s : State) : (s.modSpin p f).port i = s.port i := rfl
@[simp] theorem State.modSpin_spin (p f i) (s : State) : (s.modSpin p f).spin i = if i = p then f (s.spin p) else s.spin i := by
  simp only [State.modSpin, State.spin, upd_get]
  by_cases h : p = i
  · subst h; simp only [if_true]
  · rw [if_neg h, if_neg (Ne.symm h)]
@[simp] theorem State.modSpin_act (p) (f) (i) (s : State) : (s.modSpin p f).act i = s.act i := rfl
@[simp] theorem State.modSpin_seq (p) (f) (i) (s : State) : (s.modSpin p f).seq i = s.seq i := rfl
@[simp] theorem State.modSpin_eng (p) (f) (i) (s : State) : (s.modSpin p f).eng i = s.eng i := rfl
@[simp] theorem State.modSpin_pool (p) (f) (i) (s : State) : (s.modSpin p f).pool i = s.pool i := rfl
@[simp] theorem State.modSpin_acal (p) (f) (i) (s : State) : (s.modSpin p f).acal i = s.acal i := rfl
@[simp] theorem State.modSpin_pcal (p) (f) (i) (s : State) : (s.modSpin p f).pcal i = s.pcal i := rfl
@[simp] theorem State.modSpin_member (p) (f) (i) (s : State) : (s.modSpin p f).member i = s.member i := rfl
@[simp] theorem State.modSpin_fn (p) (f) (i) (s : State) : (s.modSpin p f).fn i = s.fn i := by cases i <;> rfl
@[simp] theorem State.modSpin_ctx (p) (f) (i) (s : State) : (s.modSpin p f).ctx? i = s.ctx? i := rfl
@[simp] theorem State.modAct_now (p) (f) (s : State) : (s.modAct p f).now = s.now := rfl
@[simp] theorem State.modAct_pins (p) (f) (s : State) : (s.modAct p f).pins = s.pins := rfl
@[simp] theorem State.modAct_aon (p) (f) (s : State) : (s.modAct p f).aon = s.aon := rfl
@[simp] theorem State.modAct_boot (p) (f) (s : State) : (s.modAct p f).boot = s.boot := rfl
@[simp] theorem State.modAct_nor (p) (f) (s : State) : (s.modAct p f).nor = s.nor := rfl
@[simp] theorem State.modAct_book (p) (f) (s : State) : (s.modAct p f).book = s.book := rfl
@[simp] theorem State.modAct_ident (p) (f) (s : State) : (s.modAct p f).ident = s.ident := rfl
@[simp] theorem State.modAct_power (p) (f) (s : State) : (s.modAct p f).power = s.power := rfl
@[simp] theorem State.modAct_fa (p) (f) (s : State) : (s.modAct p f).fa = s.fa := rfl
@[simp] theorem State.modAct_fb (p) (f) (s : State) : (s.modAct p f).fb = s.fb := rfl
@[simp] theorem State.modAct_ctxs (p) (f) (s : State) : (s.modAct p f).ctxs = s.ctxs := rfl
@[simp] theorem State.modAct_nextCtx (p) (f) (s : State) : (s.modAct p f).nextCtx = s.nextCtx := rfl
@[simp] theorem State.modAct_admission (p) (f) (s : State) : (s.modAct p f).admission = s.admission := rfl
@[simp] theorem State.modAct_decisions (p) (f) (s : State) : (s.modAct p f).decisions = s.decisions := rfl
@[simp] theorem State.modAct_lastShared (p) (f) (s : State) : (s.modAct p f).lastShared = s.lastShared := rfl
@[simp] theorem State.modAct_names (p) (f) (s : State) : (s.modAct p f).names = s.names := rfl
@[simp] theorem State.modAct_prot (p) (f) (s : State) : (s.modAct p f).prot = s.prot := rfl
@[simp] theorem State.modAct_ports (p) (f) (s : State) : (s.modAct p f).ports = s.ports := rfl
@[simp] theorem State.modAct_spins (p) (f) (s : State) : (s.modAct p f).spins = s.spins := rfl
@[simp] theorem State.modAct_acts (p) (f) (s : State) : (s.modAct p f).acts = upd s.acts p f := rfl
@[simp] theorem State.modAct_seqs (p) (f) (s : State) : (s.modAct p f).seqs = s.seqs := rfl
@[simp] theorem State.modAct_patch (p) (f) (s : State) : (s.modAct p f).patch = s.patch := rfl
@[simp] theorem State.modAct_chorus (p) (f) (s : State) : (s.modAct p f).chorus = s.chorus := rfl
@[simp] theorem State.modAct_actCals (p) (f) (s : State) : (s.modAct p f).actCals = s.actCals := rfl
@[simp] theorem State.modAct_portCals (p) (f) (s : State) : (s.modAct p f).portCals = s.portCals := rfl
@[simp] theorem State.modAct_cal (p) (f) (s : State) : (s.modAct p f).cal = s.cal := rfl
@[simp] theorem State.modAct_mem (p) (f) (s : State) : (s.modAct p f).mem = s.mem := rfl
@[simp] theorem State.modAct_mcache (p) (f) (s : State) : (s.modAct p f).mcache = s.mcache := rfl
@[simp] theorem State.modAct_xing (p) (f) (s : State) : (s.modAct p f).xing = s.xing := rfl
@[simp] theorem State.modAct_therm (p) (f) (s : State) : (s.modAct p f).therm = s.therm := rfl
@[simp] theorem State.modAct_pair (p) (f) (s : State) : (s.modAct p f).pair = s.pair := rfl
@[simp] theorem State.modAct_svc (p) (f) (s : State) : (s.modAct p f).svc = s.svc := rfl
@[simp] theorem State.modAct_free (p) (f) (s : State) : (s.modAct p f).free = s.free := rfl
@[simp] theorem State.modAct_out (p) (f) (s : State) : (s.modAct p f).out = s.out := rfl
@[simp] theorem State.modAct_pending (p) (f) (s : State) : (s.modAct p f).pending = s.pending := rfl
@[simp] theorem State.modAct_port (p) (f) (i) (s : State) : (s.modAct p f).port i = s.port i := rfl
@[simp] theorem State.modAct_spin (p) (f) (i) (s : State) : (s.modAct p f).spin i = s.spin i := rfl
@[simp] theorem State.modAct_act (p f i) (s : State) : (s.modAct p f).act i = if i = p then f (s.act p) else s.act i := by
  simp only [State.modAct, State.act, upd_get]
  by_cases h : p = i
  · subst h; simp only [if_true]
  · rw [if_neg h, if_neg (Ne.symm h)]
@[simp] theorem State.modAct_seq (p) (f) (i) (s : State) : (s.modAct p f).seq i = s.seq i := rfl
@[simp] theorem State.modAct_eng (p) (f) (i) (s : State) : (s.modAct p f).eng i = s.eng i := rfl
@[simp] theorem State.modAct_pool (p) (f) (i) (s : State) : (s.modAct p f).pool i = s.pool i := rfl
@[simp] theorem State.modAct_acal (p) (f) (i) (s : State) : (s.modAct p f).acal i = s.acal i := rfl
@[simp] theorem State.modAct_pcal (p) (f) (i) (s : State) : (s.modAct p f).pcal i = s.pcal i := rfl
@[simp] theorem State.modAct_member (p) (f) (i) (s : State) : (s.modAct p f).member i = s.member i := rfl
@[simp] theorem State.modAct_fn (p) (f) (i) (s : State) : (s.modAct p f).fn i = s.fn i := by cases i <;> rfl
@[simp] theorem State.modAct_ctx (p) (f) (i) (s : State) : (s.modAct p f).ctx? i = s.ctx? i := rfl
@[simp] theorem State.modSeq_now (p) (f) (s : State) : (s.modSeq p f).now = s.now := rfl
@[simp] theorem State.modSeq_pins (p) (f) (s : State) : (s.modSeq p f).pins = s.pins := rfl
@[simp] theorem State.modSeq_aon (p) (f) (s : State) : (s.modSeq p f).aon = s.aon := rfl
@[simp] theorem State.modSeq_boot (p) (f) (s : State) : (s.modSeq p f).boot = s.boot := rfl
@[simp] theorem State.modSeq_nor (p) (f) (s : State) : (s.modSeq p f).nor = s.nor := rfl
@[simp] theorem State.modSeq_book (p) (f) (s : State) : (s.modSeq p f).book = s.book := rfl
@[simp] theorem State.modSeq_ident (p) (f) (s : State) : (s.modSeq p f).ident = s.ident := rfl
@[simp] theorem State.modSeq_power (p) (f) (s : State) : (s.modSeq p f).power = s.power := rfl
@[simp] theorem State.modSeq_fa (p) (f) (s : State) : (s.modSeq p f).fa = s.fa := rfl
@[simp] theorem State.modSeq_fb (p) (f) (s : State) : (s.modSeq p f).fb = s.fb := rfl
@[simp] theorem State.modSeq_ctxs (p) (f) (s : State) : (s.modSeq p f).ctxs = s.ctxs := rfl
@[simp] theorem State.modSeq_nextCtx (p) (f) (s : State) : (s.modSeq p f).nextCtx = s.nextCtx := rfl
@[simp] theorem State.modSeq_admission (p) (f) (s : State) : (s.modSeq p f).admission = s.admission := rfl
@[simp] theorem State.modSeq_decisions (p) (f) (s : State) : (s.modSeq p f).decisions = s.decisions := rfl
@[simp] theorem State.modSeq_lastShared (p) (f) (s : State) : (s.modSeq p f).lastShared = s.lastShared := rfl
@[simp] theorem State.modSeq_names (p) (f) (s : State) : (s.modSeq p f).names = s.names := rfl
@[simp] theorem State.modSeq_prot (p) (f) (s : State) : (s.modSeq p f).prot = s.prot := rfl
@[simp] theorem State.modSeq_ports (p) (f) (s : State) : (s.modSeq p f).ports = s.ports := rfl
@[simp] theorem State.modSeq_spins (p) (f) (s : State) : (s.modSeq p f).spins = s.spins := rfl
@[simp] theorem State.modSeq_acts (p) (f) (s : State) : (s.modSeq p f).acts = s.acts := rfl
@[simp] theorem State.modSeq_seqs (p) (f) (s : State) : (s.modSeq p f).seqs = upd s.seqs p f := rfl
@[simp] theorem State.modSeq_patch (p) (f) (s : State) : (s.modSeq p f).patch = s.patch := rfl
@[simp] theorem State.modSeq_chorus (p) (f) (s : State) : (s.modSeq p f).chorus = s.chorus := rfl
@[simp] theorem State.modSeq_actCals (p) (f) (s : State) : (s.modSeq p f).actCals = s.actCals := rfl
@[simp] theorem State.modSeq_portCals (p) (f) (s : State) : (s.modSeq p f).portCals = s.portCals := rfl
@[simp] theorem State.modSeq_cal (p) (f) (s : State) : (s.modSeq p f).cal = s.cal := rfl
@[simp] theorem State.modSeq_mem (p) (f) (s : State) : (s.modSeq p f).mem = s.mem := rfl
@[simp] theorem State.modSeq_mcache (p) (f) (s : State) : (s.modSeq p f).mcache = s.mcache := rfl
@[simp] theorem State.modSeq_xing (p) (f) (s : State) : (s.modSeq p f).xing = s.xing := rfl
@[simp] theorem State.modSeq_therm (p) (f) (s : State) : (s.modSeq p f).therm = s.therm := rfl
@[simp] theorem State.modSeq_pair (p) (f) (s : State) : (s.modSeq p f).pair = s.pair := rfl
@[simp] theorem State.modSeq_svc (p) (f) (s : State) : (s.modSeq p f).svc = s.svc := rfl
@[simp] theorem State.modSeq_free (p) (f) (s : State) : (s.modSeq p f).free = s.free := rfl
@[simp] theorem State.modSeq_out (p) (f) (s : State) : (s.modSeq p f).out = s.out := rfl
@[simp] theorem State.modSeq_pending (p) (f) (s : State) : (s.modSeq p f).pending = s.pending := rfl
@[simp] theorem State.modSeq_port (p) (f) (i) (s : State) : (s.modSeq p f).port i = s.port i := rfl
@[simp] theorem State.modSeq_spin (p) (f) (i) (s : State) : (s.modSeq p f).spin i = s.spin i := rfl
@[simp] theorem State.modSeq_act (p) (f) (i) (s : State) : (s.modSeq p f).act i = s.act i := rfl
@[simp] theorem State.modSeq_seq (p f i) (s : State) : (s.modSeq p f).seq i = if i = p then f (s.seq p) else s.seq i := by
  simp only [State.modSeq, State.seq, upd_get]
  by_cases h : p = i
  · subst h; simp only [if_true]
  · rw [if_neg h, if_neg (Ne.symm h)]
@[simp] theorem State.modSeq_eng (p) (f) (i) (s : State) : (s.modSeq p f).eng i = s.eng i := rfl
@[simp] theorem State.modSeq_pool (p) (f) (i) (s : State) : (s.modSeq p f).pool i = s.pool i := rfl
@[simp] theorem State.modSeq_acal (p) (f) (i) (s : State) : (s.modSeq p f).acal i = s.acal i := rfl
@[simp] theorem State.modSeq_pcal (p) (f) (i) (s : State) : (s.modSeq p f).pcal i = s.pcal i := rfl
@[simp] theorem State.modSeq_member (p) (f) (i) (s : State) : (s.modSeq p f).member i = s.member i := rfl
@[simp] theorem State.modSeq_fn (p) (f) (i) (s : State) : (s.modSeq p f).fn i = s.fn i := by cases i <;> rfl
@[simp] theorem State.modSeq_ctx (p) (f) (i) (s : State) : (s.modSeq p f).ctx? i = s.ctx? i := rfl
@[simp] theorem State.modEng_now (p) (f) (s : State) : (s.modEng p f).now = s.now := rfl
@[simp] theorem State.modEng_pins (p) (f) (s : State) : (s.modEng p f).pins = s.pins := rfl
@[simp] theorem State.modEng_aon (p) (f) (s : State) : (s.modEng p f).aon = s.aon := rfl
@[simp] theorem State.modEng_boot (p) (f) (s : State) : (s.modEng p f).boot = s.boot := rfl
@[simp] theorem State.modEng_nor (p) (f) (s : State) : (s.modEng p f).nor = s.nor := rfl
@[simp] theorem State.modEng_book (p) (f) (s : State) : (s.modEng p f).book = s.book := rfl
@[simp] theorem State.modEng_ident (p) (f) (s : State) : (s.modEng p f).ident = s.ident := rfl
@[simp] theorem State.modEng_power (p) (f) (s : State) : (s.modEng p f).power = s.power := rfl
@[simp] theorem State.modEng_fa (p) (f) (s : State) : (s.modEng p f).fa = s.fa := rfl
@[simp] theorem State.modEng_fb (p) (f) (s : State) : (s.modEng p f).fb = s.fb := rfl
@[simp] theorem State.modEng_ctxs (p) (f) (s : State) : (s.modEng p f).ctxs = s.ctxs := rfl
@[simp] theorem State.modEng_nextCtx (p) (f) (s : State) : (s.modEng p f).nextCtx = s.nextCtx := rfl
@[simp] theorem State.modEng_admission (p) (f) (s : State) : (s.modEng p f).admission = s.admission := rfl
@[simp] theorem State.modEng_decisions (p) (f) (s : State) : (s.modEng p f).decisions = s.decisions := rfl
@[simp] theorem State.modEng_lastShared (p) (f) (s : State) : (s.modEng p f).lastShared = s.lastShared := rfl
@[simp] theorem State.modEng_names (p) (f) (s : State) : (s.modEng p f).names = s.names := rfl
@[simp] theorem State.modEng_prot (p) (f) (s : State) : (s.modEng p f).prot = s.prot := rfl
@[simp] theorem State.modEng_ports (p) (f) (s : State) : (s.modEng p f).ports = s.ports := rfl
@[simp] theorem State.modEng_spins (p) (f) (s : State) : (s.modEng p f).spins = s.spins := rfl
@[simp] theorem State.modEng_acts (p) (f) (s : State) : (s.modEng p f).acts = s.acts := rfl
@[simp] theorem State.modEng_seqs (p) (f) (s : State) : (s.modEng p f).seqs = s.seqs := rfl
@[simp] theorem State.modEng_patch (p) (f) (s : State) : (s.modEng p f).patch = s.patch := rfl
@[simp] theorem State.modEng_chorus (p) (f) (s : State) : (s.modEng p f).chorus = { s.chorus with engs := upd s.chorus.engs p f } := rfl
@[simp] theorem State.modEng_actCals (p) (f) (s : State) : (s.modEng p f).actCals = s.actCals := rfl
@[simp] theorem State.modEng_portCals (p) (f) (s : State) : (s.modEng p f).portCals = s.portCals := rfl
@[simp] theorem State.modEng_cal (p) (f) (s : State) : (s.modEng p f).cal = s.cal := rfl
@[simp] theorem State.modEng_mem (p) (f) (s : State) : (s.modEng p f).mem = s.mem := rfl
@[simp] theorem State.modEng_mcache (p) (f) (s : State) : (s.modEng p f).mcache = s.mcache := rfl
@[simp] theorem State.modEng_xing (p) (f) (s : State) : (s.modEng p f).xing = s.xing := rfl
@[simp] theorem State.modEng_therm (p) (f) (s : State) : (s.modEng p f).therm = s.therm := rfl
@[simp] theorem State.modEng_pair (p) (f) (s : State) : (s.modEng p f).pair = s.pair := rfl
@[simp] theorem State.modEng_svc (p) (f) (s : State) : (s.modEng p f).svc = s.svc := rfl
@[simp] theorem State.modEng_free (p) (f) (s : State) : (s.modEng p f).free = s.free := rfl
@[simp] theorem State.modEng_out (p) (f) (s : State) : (s.modEng p f).out = s.out := rfl
@[simp] theorem State.modEng_pending (p) (f) (s : State) : (s.modEng p f).pending = s.pending := rfl
@[simp] theorem State.modEng_port (p) (f) (i) (s : State) : (s.modEng p f).port i = s.port i := rfl
@[simp] theorem State.modEng_spin (p) (f) (i) (s : State) : (s.modEng p f).spin i = s.spin i := rfl
@[simp] theorem State.modEng_act (p) (f) (i) (s : State) : (s.modEng p f).act i = s.act i := rfl
@[simp] theorem State.modEng_seq (p) (f) (i) (s : State) : (s.modEng p f).seq i = s.seq i := rfl
@[simp] theorem State.modEng_eng (p f i) (s : State) : (s.modEng p f).eng i = if i = p then f (s.eng p) else s.eng i := by
  simp only [State.modEng, State.eng, upd_get]
  by_cases h : p = i
  · subst h; simp only [if_true]
  · rw [if_neg h, if_neg (Ne.symm h)]
@[simp] theorem State.modEng_pool (p) (f) (i) (s : State) : (s.modEng p f).pool i = s.pool i := rfl
@[simp] theorem State.modEng_acal (p) (f) (i) (s : State) : (s.modEng p f).acal i = s.acal i := rfl
@[simp] theorem State.modEng_pcal (p) (f) (i) (s : State) : (s.modEng p f).pcal i = s.pcal i := rfl
@[simp] theorem State.modEng_member (p) (f) (i) (s : State) : (s.modEng p f).member i = s.member i := rfl
@[simp] theorem State.modEng_fn (p) (f) (i) (s : State) : (s.modEng p f).fn i = s.fn i := by cases i <;> rfl
@[simp] theorem State.modEng_ctx (p) (f) (i) (s : State) : (s.modEng p f).ctx? i = s.ctx? i := rfl
@[simp] theorem State.modPool_now (p) (f) (s : State) : (s.modPool p f).now = s.now := rfl
@[simp] theorem State.modPool_pins (p) (f) (s : State) : (s.modPool p f).pins = s.pins := rfl
@[simp] theorem State.modPool_aon (p) (f) (s : State) : (s.modPool p f).aon = s.aon := rfl
@[simp] theorem State.modPool_boot (p) (f) (s : State) : (s.modPool p f).boot = s.boot := rfl
@[simp] theorem State.modPool_nor (p) (f) (s : State) : (s.modPool p f).nor = s.nor := rfl
@[simp] theorem State.modPool_book (p) (f) (s : State) : (s.modPool p f).book = s.book := rfl
@[simp] theorem State.modPool_ident (p) (f) (s : State) : (s.modPool p f).ident = s.ident := rfl
@[simp] theorem State.modPool_power (p) (f) (s : State) : (s.modPool p f).power = s.power := rfl
@[simp] theorem State.modPool_fa (p) (f) (s : State) : (s.modPool p f).fa = s.fa := rfl
@[simp] theorem State.modPool_fb (p) (f) (s : State) : (s.modPool p f).fb = s.fb := rfl
@[simp] theorem State.modPool_ctxs (p) (f) (s : State) : (s.modPool p f).ctxs = s.ctxs := rfl
@[simp] theorem State.modPool_nextCtx (p) (f) (s : State) : (s.modPool p f).nextCtx = s.nextCtx := rfl
@[simp] theorem State.modPool_admission (p) (f) (s : State) : (s.modPool p f).admission = s.admission := rfl
@[simp] theorem State.modPool_decisions (p) (f) (s : State) : (s.modPool p f).decisions = s.decisions := rfl
@[simp] theorem State.modPool_lastShared (p) (f) (s : State) : (s.modPool p f).lastShared = s.lastShared := rfl
@[simp] theorem State.modPool_names (p) (f) (s : State) : (s.modPool p f).names = s.names := rfl
@[simp] theorem State.modPool_prot (p) (f) (s : State) : (s.modPool p f).prot = s.prot := rfl
@[simp] theorem State.modPool_ports (p) (f) (s : State) : (s.modPool p f).ports = s.ports := rfl
@[simp] theorem State.modPool_spins (p) (f) (s : State) : (s.modPool p f).spins = s.spins := rfl
@[simp] theorem State.modPool_acts (p) (f) (s : State) : (s.modPool p f).acts = s.acts := rfl
@[simp] theorem State.modPool_seqs (p) (f) (s : State) : (s.modPool p f).seqs = s.seqs := rfl
@[simp] theorem State.modPool_patch (p) (f) (s : State) : (s.modPool p f).patch = s.patch := rfl
@[simp] theorem State.modPool_chorus (p) (f) (s : State) : (s.modPool p f).chorus = { s.chorus with acts := upd s.chorus.acts p f } := rfl
@[simp] theorem State.modPool_actCals (p) (f) (s : State) : (s.modPool p f).actCals = s.actCals := rfl
@[simp] theorem State.modPool_portCals (p) (f) (s : State) : (s.modPool p f).portCals = s.portCals := rfl
@[simp] theorem State.modPool_cal (p) (f) (s : State) : (s.modPool p f).cal = s.cal := rfl
@[simp] theorem State.modPool_mem (p) (f) (s : State) : (s.modPool p f).mem = s.mem := rfl
@[simp] theorem State.modPool_mcache (p) (f) (s : State) : (s.modPool p f).mcache = s.mcache := rfl
@[simp] theorem State.modPool_xing (p) (f) (s : State) : (s.modPool p f).xing = s.xing := rfl
@[simp] theorem State.modPool_therm (p) (f) (s : State) : (s.modPool p f).therm = s.therm := rfl
@[simp] theorem State.modPool_pair (p) (f) (s : State) : (s.modPool p f).pair = s.pair := rfl
@[simp] theorem State.modPool_svc (p) (f) (s : State) : (s.modPool p f).svc = s.svc := rfl
@[simp] theorem State.modPool_free (p) (f) (s : State) : (s.modPool p f).free = s.free := rfl
@[simp] theorem State.modPool_out (p) (f) (s : State) : (s.modPool p f).out = s.out := rfl
@[simp] theorem State.modPool_pending (p) (f) (s : State) : (s.modPool p f).pending = s.pending := rfl
@[simp] theorem State.modPool_port (p) (f) (i) (s : State) : (s.modPool p f).port i = s.port i := rfl
@[simp] theorem State.modPool_spin (p) (f) (i) (s : State) : (s.modPool p f).spin i = s.spin i := rfl
@[simp] theorem State.modPool_act (p) (f) (i) (s : State) : (s.modPool p f).act i = s.act i := rfl
@[simp] theorem State.modPool_seq (p) (f) (i) (s : State) : (s.modPool p f).seq i = s.seq i := rfl
@[simp] theorem State.modPool_eng (p) (f) (i) (s : State) : (s.modPool p f).eng i = s.eng i := rfl
@[simp] theorem State.modPool_pool (p f i) (s : State) : (s.modPool p f).pool i = if i = p then f (s.pool p) else s.pool i := by
  simp only [State.modPool, State.pool, upd_get]
  by_cases h : p = i
  · subst h; simp only [if_true]
  · rw [if_neg h, if_neg (Ne.symm h)]
@[simp] theorem State.modPool_acal (p) (f) (i) (s : State) : (s.modPool p f).acal i = s.acal i := rfl
@[simp] theorem State.modPool_pcal (p) (f) (i) (s : State) : (s.modPool p f).pcal i = s.pcal i := rfl
@[simp] theorem State.modPool_member (p) (f) (i) (s : State) : (s.modPool p f).member i = s.member i := rfl
@[simp] theorem State.modPool_fn (p) (f) (i) (s : State) : (s.modPool p f).fn i = s.fn i := by cases i <;> rfl
@[simp] theorem State.modPool_ctx (p) (f) (i) (s : State) : (s.modPool p f).ctx? i = s.ctx? i := rfl
@[simp] theorem State.modAcal_now (p) (f) (s : State) : (s.modAcal p f).now = s.now := rfl
@[simp] theorem State.modAcal_pins (p) (f) (s : State) : (s.modAcal p f).pins = s.pins := rfl
@[simp] theorem State.modAcal_aon (p) (f) (s : State) : (s.modAcal p f).aon = s.aon := rfl
@[simp] theorem State.modAcal_boot (p) (f) (s : State) : (s.modAcal p f).boot = s.boot := rfl
@[simp] theorem State.modAcal_nor (p) (f) (s : State) : (s.modAcal p f).nor = s.nor := rfl
@[simp] theorem State.modAcal_book (p) (f) (s : State) : (s.modAcal p f).book = s.book := rfl
@[simp] theorem State.modAcal_ident (p) (f) (s : State) : (s.modAcal p f).ident = s.ident := rfl
@[simp] theorem State.modAcal_power (p) (f) (s : State) : (s.modAcal p f).power = s.power := rfl
@[simp] theorem State.modAcal_fa (p) (f) (s : State) : (s.modAcal p f).fa = s.fa := rfl
@[simp] theorem State.modAcal_fb (p) (f) (s : State) : (s.modAcal p f).fb = s.fb := rfl
@[simp] theorem State.modAcal_ctxs (p) (f) (s : State) : (s.modAcal p f).ctxs = s.ctxs := rfl
@[simp] theorem State.modAcal_nextCtx (p) (f) (s : State) : (s.modAcal p f).nextCtx = s.nextCtx := rfl
@[simp] theorem State.modAcal_admission (p) (f) (s : State) : (s.modAcal p f).admission = s.admission := rfl
@[simp] theorem State.modAcal_decisions (p) (f) (s : State) : (s.modAcal p f).decisions = s.decisions := rfl
@[simp] theorem State.modAcal_lastShared (p) (f) (s : State) : (s.modAcal p f).lastShared = s.lastShared := rfl
@[simp] theorem State.modAcal_names (p) (f) (s : State) : (s.modAcal p f).names = s.names := rfl
@[simp] theorem State.modAcal_prot (p) (f) (s : State) : (s.modAcal p f).prot = s.prot := rfl
@[simp] theorem State.modAcal_ports (p) (f) (s : State) : (s.modAcal p f).ports = s.ports := rfl
@[simp] theorem State.modAcal_spins (p) (f) (s : State) : (s.modAcal p f).spins = s.spins := rfl
@[simp] theorem State.modAcal_acts (p) (f) (s : State) : (s.modAcal p f).acts = s.acts := rfl
@[simp] theorem State.modAcal_seqs (p) (f) (s : State) : (s.modAcal p f).seqs = s.seqs := rfl
@[simp] theorem State.modAcal_patch (p) (f) (s : State) : (s.modAcal p f).patch = s.patch := rfl
@[simp] theorem State.modAcal_chorus (p) (f) (s : State) : (s.modAcal p f).chorus = s.chorus := rfl
@[simp] theorem State.modAcal_actCals (p) (f) (s : State) : (s.modAcal p f).actCals = upd s.actCals p f := rfl
@[simp] theorem State.modAcal_portCals (p) (f) (s : State) : (s.modAcal p f).portCals = s.portCals := rfl
@[simp] theorem State.modAcal_cal (p) (f) (s : State) : (s.modAcal p f).cal = s.cal := rfl
@[simp] theorem State.modAcal_mem (p) (f) (s : State) : (s.modAcal p f).mem = s.mem := rfl
@[simp] theorem State.modAcal_mcache (p) (f) (s : State) : (s.modAcal p f).mcache = s.mcache := rfl
@[simp] theorem State.modAcal_xing (p) (f) (s : State) : (s.modAcal p f).xing = s.xing := rfl
@[simp] theorem State.modAcal_therm (p) (f) (s : State) : (s.modAcal p f).therm = s.therm := rfl
@[simp] theorem State.modAcal_pair (p) (f) (s : State) : (s.modAcal p f).pair = s.pair := rfl
@[simp] theorem State.modAcal_svc (p) (f) (s : State) : (s.modAcal p f).svc = s.svc := rfl
@[simp] theorem State.modAcal_free (p) (f) (s : State) : (s.modAcal p f).free = s.free := rfl
@[simp] theorem State.modAcal_out (p) (f) (s : State) : (s.modAcal p f).out = s.out := rfl
@[simp] theorem State.modAcal_pending (p) (f) (s : State) : (s.modAcal p f).pending = s.pending := rfl
@[simp] theorem State.modAcal_port (p) (f) (i) (s : State) : (s.modAcal p f).port i = s.port i := rfl
@[simp] theorem State.modAcal_spin (p) (f) (i) (s : State) : (s.modAcal p f).spin i = s.spin i := rfl
@[simp] theorem State.modAcal_act (p) (f) (i) (s : State) : (s.modAcal p f).act i = s.act i := rfl
@[simp] theorem State.modAcal_seq (p) (f) (i) (s : State) : (s.modAcal p f).seq i = s.seq i := rfl
@[simp] theorem State.modAcal_eng (p) (f) (i) (s : State) : (s.modAcal p f).eng i = s.eng i := rfl
@[simp] theorem State.modAcal_pool (p) (f) (i) (s : State) : (s.modAcal p f).pool i = s.pool i := rfl
@[simp] theorem State.modAcal_acal (p f i) (s : State) : (s.modAcal p f).acal i = if i = p then f (s.acal p) else s.acal i := by
  simp only [State.modAcal, State.acal, upd_get]
  by_cases h : p = i
  · subst h; simp only [if_true]
  · rw [if_neg h, if_neg (Ne.symm h)]
@[simp] theorem State.modAcal_pcal (p) (f) (i) (s : State) : (s.modAcal p f).pcal i = s.pcal i := rfl
@[simp] theorem State.modAcal_member (p) (f) (i) (s : State) : (s.modAcal p f).member i = s.member i := rfl
@[simp] theorem State.modAcal_fn (p) (f) (i) (s : State) : (s.modAcal p f).fn i = s.fn i := by cases i <;> rfl
@[simp] theorem State.modAcal_ctx (p) (f) (i) (s : State) : (s.modAcal p f).ctx? i = s.ctx? i := rfl
@[simp] theorem State.modPcal_now (p) (f) (s : State) : (s.modPcal p f).now = s.now := rfl
@[simp] theorem State.modPcal_pins (p) (f) (s : State) : (s.modPcal p f).pins = s.pins := rfl
@[simp] theorem State.modPcal_aon (p) (f) (s : State) : (s.modPcal p f).aon = s.aon := rfl
@[simp] theorem State.modPcal_boot (p) (f) (s : State) : (s.modPcal p f).boot = s.boot := rfl
@[simp] theorem State.modPcal_nor (p) (f) (s : State) : (s.modPcal p f).nor = s.nor := rfl
@[simp] theorem State.modPcal_book (p) (f) (s : State) : (s.modPcal p f).book = s.book := rfl
@[simp] theorem State.modPcal_ident (p) (f) (s : State) : (s.modPcal p f).ident = s.ident := rfl
@[simp] theorem State.modPcal_power (p) (f) (s : State) : (s.modPcal p f).power = s.power := rfl
@[simp] theorem State.modPcal_fa (p) (f) (s : State) : (s.modPcal p f).fa = s.fa := rfl
@[simp] theorem State.modPcal_fb (p) (f) (s : State) : (s.modPcal p f).fb = s.fb := rfl
@[simp] theorem State.modPcal_ctxs (p) (f) (s : State) : (s.modPcal p f).ctxs = s.ctxs := rfl
@[simp] theorem State.modPcal_nextCtx (p) (f) (s : State) : (s.modPcal p f).nextCtx = s.nextCtx := rfl
@[simp] theorem State.modPcal_admission (p) (f) (s : State) : (s.modPcal p f).admission = s.admission := rfl
@[simp] theorem State.modPcal_decisions (p) (f) (s : State) : (s.modPcal p f).decisions = s.decisions := rfl
@[simp] theorem State.modPcal_lastShared (p) (f) (s : State) : (s.modPcal p f).lastShared = s.lastShared := rfl
@[simp] theorem State.modPcal_names (p) (f) (s : State) : (s.modPcal p f).names = s.names := rfl
@[simp] theorem State.modPcal_prot (p) (f) (s : State) : (s.modPcal p f).prot = s.prot := rfl
@[simp] theorem State.modPcal_ports (p) (f) (s : State) : (s.modPcal p f).ports = s.ports := rfl
@[simp] theorem State.modPcal_spins (p) (f) (s : State) : (s.modPcal p f).spins = s.spins := rfl
@[simp] theorem State.modPcal_acts (p) (f) (s : State) : (s.modPcal p f).acts = s.acts := rfl
@[simp] theorem State.modPcal_seqs (p) (f) (s : State) : (s.modPcal p f).seqs = s.seqs := rfl
@[simp] theorem State.modPcal_patch (p) (f) (s : State) : (s.modPcal p f).patch = s.patch := rfl
@[simp] theorem State.modPcal_chorus (p) (f) (s : State) : (s.modPcal p f).chorus = s.chorus := rfl
@[simp] theorem State.modPcal_actCals (p) (f) (s : State) : (s.modPcal p f).actCals = s.actCals := rfl
@[simp] theorem State.modPcal_portCals (p) (f) (s : State) : (s.modPcal p f).portCals = upd s.portCals p f := rfl
@[simp] theorem State.modPcal_cal (p) (f) (s : State) : (s.modPcal p f).cal = s.cal := rfl
@[simp] theorem State.modPcal_mem (p) (f) (s : State) : (s.modPcal p f).mem = s.mem := rfl
@[simp] theorem State.modPcal_mcache (p) (f) (s : State) : (s.modPcal p f).mcache = s.mcache := rfl
@[simp] theorem State.modPcal_xing (p) (f) (s : State) : (s.modPcal p f).xing = s.xing := rfl
@[simp] theorem State.modPcal_therm (p) (f) (s : State) : (s.modPcal p f).therm = s.therm := rfl
@[simp] theorem State.modPcal_pair (p) (f) (s : State) : (s.modPcal p f).pair = s.pair := rfl
@[simp] theorem State.modPcal_svc (p) (f) (s : State) : (s.modPcal p f).svc = s.svc := rfl
@[simp] theorem State.modPcal_free (p) (f) (s : State) : (s.modPcal p f).free = s.free := rfl
@[simp] theorem State.modPcal_out (p) (f) (s : State) : (s.modPcal p f).out = s.out := rfl
@[simp] theorem State.modPcal_pending (p) (f) (s : State) : (s.modPcal p f).pending = s.pending := rfl
@[simp] theorem State.modPcal_port (p) (f) (i) (s : State) : (s.modPcal p f).port i = s.port i := rfl
@[simp] theorem State.modPcal_spin (p) (f) (i) (s : State) : (s.modPcal p f).spin i = s.spin i := rfl
@[simp] theorem State.modPcal_act (p) (f) (i) (s : State) : (s.modPcal p f).act i = s.act i := rfl
@[simp] theorem State.modPcal_seq (p) (f) (i) (s : State) : (s.modPcal p f).seq i = s.seq i := rfl
@[simp] theorem State.modPcal_eng (p) (f) (i) (s : State) : (s.modPcal p f).eng i = s.eng i := rfl
@[simp] theorem State.modPcal_pool (p) (f) (i) (s : State) : (s.modPcal p f).pool i = s.pool i := rfl
@[simp] theorem State.modPcal_acal (p) (f) (i) (s : State) : (s.modPcal p f).acal i = s.acal i := rfl
@[simp] theorem State.modPcal_pcal (p f i) (s : State) : (s.modPcal p f).pcal i = if i = p then f (s.pcal p) else s.pcal i := by
  simp only [State.modPcal, State.pcal, upd_get]
  by_cases h : p = i
  · subst h; simp only [if_true]
  · rw [if_neg h, if_neg (Ne.symm h)]
@[simp] theorem State.modPcal_member (p) (f) (i) (s : State) : (s.modPcal p f).member i = s.member i := rfl
@[simp] theorem State.modPcal_fn (p) (f) (i) (s : State) : (s.modPcal p f).fn i = s.fn i := by cases i <;> rfl
@[simp] theorem State.modPcal_ctx (p) (f) (i) (s : State) : (s.modPcal p f).ctx? i = s.ctx? i := rfl
@[simp] theorem State.modMember_now (p) (f) (s : State) : (s.modMember p f).now = s.now := rfl
@[simp] theorem State.modMember_pins (p) (f) (s : State) : (s.modMember p f).pins = s.pins := rfl
@[simp] theorem State.modMember_aon (p) (f) (s : State) : (s.modMember p f).aon = s.aon := rfl
@[simp] theorem State.modMember_boot (p) (f) (s : State) : (s.modMember p f).boot = s.boot := rfl
@[simp] theorem State.modMember_nor (p) (f) (s : State) : (s.modMember p f).nor = s.nor := rfl
@[simp] theorem State.modMember_book (p) (f) (s : State) : (s.modMember p f).book = s.book := rfl
@[simp] theorem State.modMember_ident (p) (f) (s : State) : (s.modMember p f).ident = s.ident := rfl
@[simp] theorem State.modMember_power (p) (f) (s : State) : (s.modMember p f).power = s.power := rfl
@[simp] theorem State.modMember_fa (p) (f) (s : State) : (s.modMember p f).fa = s.fa := rfl
@[simp] theorem State.modMember_fb (p) (f) (s : State) : (s.modMember p f).fb = s.fb := rfl
@[simp] theorem State.modMember_ctxs (p) (f) (s : State) : (s.modMember p f).ctxs = s.ctxs := rfl
@[simp] theorem State.modMember_nextCtx (p) (f) (s : State) : (s.modMember p f).nextCtx = s.nextCtx := rfl
@[simp] theorem State.modMember_admission (p) (f) (s : State) : (s.modMember p f).admission = s.admission := rfl
@[simp] theorem State.modMember_decisions (p) (f) (s : State) : (s.modMember p f).decisions = s.decisions := rfl
@[simp] theorem State.modMember_lastShared (p) (f) (s : State) : (s.modMember p f).lastShared = s.lastShared := rfl
@[simp] theorem State.modMember_names (p) (f) (s : State) : (s.modMember p f).names = s.names := rfl
@[simp] theorem State.modMember_prot (p) (f) (s : State) : (s.modMember p f).prot = { s.prot with members := upd s.prot.members p f } := rfl
@[simp] theorem State.modMember_ports (p) (f) (s : State) : (s.modMember p f).ports = s.ports := rfl
@[simp] theorem State.modMember_spins (p) (f) (s : State) : (s.modMember p f).spins = s.spins := rfl
@[simp] theorem State.modMember_acts (p) (f) (s : State) : (s.modMember p f).acts = s.acts := rfl
@[simp] theorem State.modMember_seqs (p) (f) (s : State) : (s.modMember p f).seqs = s.seqs := rfl
@[simp] theorem State.modMember_patch (p) (f) (s : State) : (s.modMember p f).patch = s.patch := rfl
@[simp] theorem State.modMember_chorus (p) (f) (s : State) : (s.modMember p f).chorus = s.chorus := rfl
@[simp] theorem State.modMember_actCals (p) (f) (s : State) : (s.modMember p f).actCals = s.actCals := rfl
@[simp] theorem State.modMember_portCals (p) (f) (s : State) : (s.modMember p f).portCals = s.portCals := rfl
@[simp] theorem State.modMember_cal (p) (f) (s : State) : (s.modMember p f).cal = s.cal := rfl
@[simp] theorem State.modMember_mem (p) (f) (s : State) : (s.modMember p f).mem = s.mem := rfl
@[simp] theorem State.modMember_mcache (p) (f) (s : State) : (s.modMember p f).mcache = s.mcache := rfl
@[simp] theorem State.modMember_xing (p) (f) (s : State) : (s.modMember p f).xing = s.xing := rfl
@[simp] theorem State.modMember_therm (p) (f) (s : State) : (s.modMember p f).therm = s.therm := rfl
@[simp] theorem State.modMember_pair (p) (f) (s : State) : (s.modMember p f).pair = s.pair := rfl
@[simp] theorem State.modMember_svc (p) (f) (s : State) : (s.modMember p f).svc = s.svc := rfl
@[simp] theorem State.modMember_free (p) (f) (s : State) : (s.modMember p f).free = s.free := rfl
@[simp] theorem State.modMember_out (p) (f) (s : State) : (s.modMember p f).out = s.out := rfl
@[simp] theorem State.modMember_pending (p) (f) (s : State) : (s.modMember p f).pending = s.pending := rfl
@[simp] theorem State.modMember_port (p) (f) (i) (s : State) : (s.modMember p f).port i = s.port i := rfl
@[simp] theorem State.modMember_spin (p) (f) (i) (s : State) : (s.modMember p f).spin i = s.spin i := rfl
@[simp] theorem State.modMember_act (p) (f) (i) (s : State) : (s.modMember p f).act i = s.act i := rfl
@[simp] theorem State.modMember_seq (p) (f) (i) (s : State) : (s.modMember p f).seq i = s.seq i := rfl
@[simp] theorem State.modMember_eng (p) (f) (i) (s : State) : (s.modMember p f).eng i = s.eng i := rfl
@[simp] theorem State.modMember_pool (p) (f) (i) (s : State) : (s.modMember p f).pool i = s.pool i := rfl
@[simp] theorem State.modMember_acal (p) (f) (i) (s : State) : (s.modMember p f).acal i = s.acal i := rfl
@[simp] theorem State.modMember_pcal (p) (f) (i) (s : State) : (s.modMember p f).pcal i = s.pcal i := rfl
@[simp] theorem State.modMember_member (p f i) (s : State) : (s.modMember p f).member i = if i = p then f (s.member p) else s.member i := by
  simp only [State.modMember, State.member, upd_get]
  by_cases h : p = i
  · subst h; simp only [if_true]
  · rw [if_neg h, if_neg (Ne.symm h)]
@[simp] theorem State.modMember_fn (p) (f) (i) (s : State) : (s.modMember p f).fn i = s.fn i := by cases i <;> rfl
@[simp] theorem State.modMember_ctx (p) (f) (i) (s : State) : (s.modMember p f).ctx? i = s.ctx? i := rfl
@[simp] theorem State.modCtx_now (c) (f) (s : State) : (s.modCtx c f).now = s.now := rfl
@[simp] theorem State.modCtx_pins (c) (f) (s : State) : (s.modCtx c f).pins = s.pins := rfl
@[simp] theorem State.modCtx_aon (c) (f) (s : State) : (s.modCtx c f).aon = s.aon := rfl
@[simp] theorem State.modCtx_boot (c) (f) (s : State) : (s.modCtx c f).boot = s.boot := rfl
@[simp] theorem State.modCtx_nor (c) (f) (s : State) : (s.modCtx c f).nor = s.nor := rfl
@[simp] theorem State.modCtx_book (c) (f) (s : State) : (s.modCtx c f).book = s.book := rfl
@[simp] theorem State.modCtx_ident (c) (f) (s : State) : (s.modCtx c f).ident = s.ident := rfl
@[simp] theorem State.modCtx_power (c) (f) (s : State) : (s.modCtx c f).power = s.power := rfl
@[simp] theorem State.modCtx_fa (c) (f) (s : State) : (s.modCtx c f).fa = s.fa := rfl
@[simp] theorem State.modCtx_fb (c) (f) (s : State) : (s.modCtx c f).fb = s.fb := rfl
@[simp] theorem State.modCtx_ctxs (c) (f) (s : State) : (s.modCtx c f).ctxs = mapWhere (fun x => x.id == c) f s.ctxs := rfl
@[simp] theorem State.modCtx_nextCtx (c) (f) (s : State) : (s.modCtx c f).nextCtx = s.nextCtx := rfl
@[simp] theorem State.modCtx_admission (c) (f) (s : State) : (s.modCtx c f).admission = s.admission := rfl
@[simp] theorem State.modCtx_decisions (c) (f) (s : State) : (s.modCtx c f).decisions = s.decisions := rfl
@[simp] theorem State.modCtx_lastShared (c) (f) (s : State) : (s.modCtx c f).lastShared = s.lastShared := rfl
@[simp] theorem State.modCtx_names (c) (f) (s : State) : (s.modCtx c f).names = s.names := rfl
@[simp] theorem State.modCtx_prot (c) (f) (s : State) : (s.modCtx c f).prot = s.prot := rfl
@[simp] theorem State.modCtx_ports (c) (f) (s : State) : (s.modCtx c f).ports = s.ports := rfl
@[simp] theorem State.modCtx_spins (c) (f) (s : State) : (s.modCtx c f).spins = s.spins := rfl
@[simp] theorem State.modCtx_acts (c) (f) (s : State) : (s.modCtx c f).acts = s.acts := rfl
@[simp] theorem State.modCtx_seqs (c) (f) (s : State) : (s.modCtx c f).seqs = s.seqs := rfl
@[simp] theorem State.modCtx_patch (c) (f) (s : State) : (s.modCtx c f).patch = s.patch := rfl
@[simp] theorem State.modCtx_chorus (c) (f) (s : State) : (s.modCtx c f).chorus = s.chorus := rfl
@[simp] theorem State.modCtx_actCals (c) (f) (s : State) : (s.modCtx c f).actCals = s.actCals := rfl
@[simp] theorem State.modCtx_portCals (c) (f) (s : State) : (s.modCtx c f).portCals = s.portCals := rfl
@[simp] theorem State.modCtx_cal (c) (f) (s : State) : (s.modCtx c f).cal = s.cal := rfl
@[simp] theorem State.modCtx_mem (c) (f) (s : State) : (s.modCtx c f).mem = s.mem := rfl
@[simp] theorem State.modCtx_mcache (c) (f) (s : State) : (s.modCtx c f).mcache = s.mcache := rfl
@[simp] theorem State.modCtx_xing (c) (f) (s : State) : (s.modCtx c f).xing = s.xing := rfl
@[simp] theorem State.modCtx_therm (c) (f) (s : State) : (s.modCtx c f).therm = s.therm := rfl
@[simp] theorem State.modCtx_pair (c) (f) (s : State) : (s.modCtx c f).pair = s.pair := rfl
@[simp] theorem State.modCtx_svc (c) (f) (s : State) : (s.modCtx c f).svc = s.svc := rfl
@[simp] theorem State.modCtx_free (c) (f) (s : State) : (s.modCtx c f).free = s.free := rfl
@[simp] theorem State.modCtx_out (c) (f) (s : State) : (s.modCtx c f).out = s.out := rfl
@[simp] theorem State.modCtx_pending (c) (f) (s : State) : (s.modCtx c f).pending = s.pending := rfl
@[simp] theorem State.modCtx_port (c) (f) (i) (s : State) : (s.modCtx c f).port i = s.port i := rfl
@[simp] theorem State.modCtx_spin (c) (f) (i) (s : State) : (s.modCtx c f).spin i = s.spin i := rfl
@[simp] theorem State.modCtx_act (c) (f) (i) (s : State) : (s.modCtx c f).act i = s.act i := rfl
@[simp] theorem State.modCtx_seq (c) (f) (i) (s : State) : (s.modCtx c f).seq i = s.seq i := rfl
@[simp] theorem State.modCtx_eng (c) (f) (i) (s : State) : (s.modCtx c f).eng i = s.eng i := rfl
@[simp] theorem State.modCtx_pool (c) (f) (i) (s : State) : (s.modCtx c f).pool i = s.pool i := rfl
@[simp] theorem State.modCtx_acal (c) (f) (i) (s : State) : (s.modCtx c f).acal i = s.acal i := rfl
@[simp] theorem State.modCtx_pcal (c) (f) (i) (s : State) : (s.modCtx c f).pcal i = s.pcal i := rfl
@[simp] theorem State.modCtx_member (c) (f) (i) (s : State) : (s.modCtx c f).member i = s.member i := rfl
@[simp] theorem State.modCtx_fn (c) (f) (i) (s : State) : (s.modCtx c f).fn i = s.fn i := by cases i <;> rfl
@[simp] theorem State.dropCtx_now (c) (s : State) : (s.dropCtx c).now = s.now := rfl
@[simp] theorem State.dropCtx_pins (c) (s : State) : (s.dropCtx c).pins = s.pins := rfl
@[simp] theorem State.dropCtx_aon (c) (s : State) : (s.dropCtx c).aon = s.aon := rfl
@[simp] theorem State.dropCtx_boot (c) (s : State) : (s.dropCtx c).boot = s.boot := rfl
@[simp] theorem State.dropCtx_nor (c) (s : State) : (s.dropCtx c).nor = s.nor := rfl
@[simp] theorem State.dropCtx_book (c) (s : State) : (s.dropCtx c).book = s.book := rfl
@[simp] theorem State.dropCtx_ident (c) (s : State) : (s.dropCtx c).ident = s.ident := rfl
@[simp] theorem State.dropCtx_power (c) (s : State) : (s.dropCtx c).power = s.power := rfl
@[simp] theorem State.dropCtx_fa (c) (s : State) : (s.dropCtx c).fa = s.fa := rfl
@[simp] theorem State.dropCtx_fb (c) (s : State) : (s.dropCtx c).fb = s.fb := rfl
@[simp] theorem State.dropCtx_ctxs (c) (s : State) : (s.dropCtx c).ctxs = s.ctxs.filter fun x => x.id != c := rfl
@[simp] theorem State.dropCtx_nextCtx (c) (s : State) : (s.dropCtx c).nextCtx = s.nextCtx := rfl
@[simp] theorem State.dropCtx_admission (c) (s : State) : (s.dropCtx c).admission = s.admission := rfl
@[simp] theorem State.dropCtx_decisions (c) (s : State) : (s.dropCtx c).decisions = s.decisions := rfl
@[simp] theorem State.dropCtx_lastShared (c) (s : State) : (s.dropCtx c).lastShared = s.lastShared := rfl
@[simp] theorem State.dropCtx_names (c) (s : State) : (s.dropCtx c).names = s.names := rfl
@[simp] theorem State.dropCtx_prot (c) (s : State) : (s.dropCtx c).prot = s.prot := rfl
@[simp] theorem State.dropCtx_ports (c) (s : State) : (s.dropCtx c).ports = s.ports := rfl
@[simp] theorem State.dropCtx_spins (c) (s : State) : (s.dropCtx c).spins = s.spins := rfl
@[simp] theorem State.dropCtx_acts (c) (s : State) : (s.dropCtx c).acts = s.acts := rfl
@[simp] theorem State.dropCtx_seqs (c) (s : State) : (s.dropCtx c).seqs = s.seqs := rfl
@[simp] theorem State.dropCtx_patch (c) (s : State) : (s.dropCtx c).patch = s.patch := rfl
@[simp] theorem State.dropCtx_chorus (c) (s : State) : (s.dropCtx c).chorus = s.chorus := rfl
@[simp] theorem State.dropCtx_actCals (c) (s : State) : (s.dropCtx c).actCals = s.actCals := rfl
@[simp] theorem State.dropCtx_portCals (c) (s : State) : (s.dropCtx c).portCals = s.portCals := rfl
@[simp] theorem State.dropCtx_cal (c) (s : State) : (s.dropCtx c).cal = s.cal := rfl
@[simp] theorem State.dropCtx_mem (c) (s : State) : (s.dropCtx c).mem = s.mem := rfl
@[simp] theorem State.dropCtx_mcache (c) (s : State) : (s.dropCtx c).mcache = s.mcache := rfl
@[simp] theorem State.dropCtx_xing (c) (s : State) : (s.dropCtx c).xing = s.xing := rfl
@[simp] theorem State.dropCtx_therm (c) (s : State) : (s.dropCtx c).therm = s.therm := rfl
@[simp] theorem State.dropCtx_pair (c) (s : State) : (s.dropCtx c).pair = s.pair := rfl
@[simp] theorem State.dropCtx_svc (c) (s : State) : (s.dropCtx c).svc = s.svc := rfl
@[simp] theorem State.dropCtx_free (c) (s : State) : (s.dropCtx c).free = s.free := rfl
@[simp] theorem State.dropCtx_out (c) (s : State) : (s.dropCtx c).out = s.out := rfl
@[simp] theorem State.dropCtx_pending (c) (s : State) : (s.dropCtx c).pending = s.pending := rfl
@[simp] theorem State.dropCtx_port (c) (i) (s : State) : (s.dropCtx c).port i = s.port i := rfl
@[simp] theorem State.dropCtx_spin (c) (i) (s : State) : (s.dropCtx c).spin i = s.spin i := rfl
@[simp] theorem State.dropCtx_act (c) (i) (s : State) : (s.dropCtx c).act i = s.act i := rfl
@[simp] theorem State.dropCtx_seq (c) (i) (s : State) : (s.dropCtx c).seq i = s.seq i := rfl
@[simp] theorem State.dropCtx_eng (c) (i) (s : State) : (s.dropCtx c).eng i = s.eng i := rfl
@[simp] theorem State.dropCtx_pool (c) (i) (s : State) : (s.dropCtx c).pool i = s.pool i := rfl
@[simp] theorem State.dropCtx_acal (c) (i) (s : State) : (s.dropCtx c).acal i = s.acal i := rfl
@[simp] theorem State.dropCtx_pcal (c) (i) (s : State) : (s.dropCtx c).pcal i = s.pcal i := rfl
@[simp] theorem State.dropCtx_member (c) (i) (s : State) : (s.dropCtx c).member i = s.member i := rfl
@[simp] theorem State.dropCtx_fn (c) (i) (s : State) : (s.dropCtx c).fn i = s.fn i := by cases i <;> rfl
@[simp] theorem State.at__now (n) (s : State) : (s.at_ n).now = max s.now n := rfl
@[simp] theorem State.at__pins (n) (s : State) : (s.at_ n).pins = s.pins := rfl
@[simp] theorem State.at__aon (n) (s : State) : (s.at_ n).aon = s.aon := rfl
@[simp] theorem State.at__boot (n) (s : State) : (s.at_ n).boot = s.boot := rfl
@[simp] theorem State.at__nor (n) (s : State) : (s.at_ n).nor = s.nor := rfl
@[simp] theorem State.at__book (n) (s : State) : (s.at_ n).book = s.book := rfl
@[simp] theorem State.at__ident (n) (s : State) : (s.at_ n).ident = s.ident := rfl
@[simp] theorem State.at__power (n) (s : State) : (s.at_ n).power = s.power := rfl
@[simp] theorem State.at__fa (n) (s : State) : (s.at_ n).fa = s.fa := rfl
@[simp] theorem State.at__fb (n) (s : State) : (s.at_ n).fb = s.fb := rfl
@[simp] theorem State.at__ctxs (n) (s : State) : (s.at_ n).ctxs = s.ctxs := rfl
@[simp] theorem State.at__nextCtx (n) (s : State) : (s.at_ n).nextCtx = s.nextCtx := rfl
@[simp] theorem State.at__admission (n) (s : State) : (s.at_ n).admission = s.admission := rfl
@[simp] theorem State.at__decisions (n) (s : State) : (s.at_ n).decisions = s.decisions := rfl
@[simp] theorem State.at__lastShared (n) (s : State) : (s.at_ n).lastShared = s.lastShared := rfl
@[simp] theorem State.at__names (n) (s : State) : (s.at_ n).names = s.names := rfl
@[simp] theorem State.at__prot (n) (s : State) : (s.at_ n).prot = s.prot := rfl
@[simp] theorem State.at__ports (n) (s : State) : (s.at_ n).ports = s.ports := rfl
@[simp] theorem State.at__spins (n) (s : State) : (s.at_ n).spins = s.spins := rfl
@[simp] theorem State.at__acts (n) (s : State) : (s.at_ n).acts = s.acts := rfl
@[simp] theorem State.at__seqs (n) (s : State) : (s.at_ n).seqs = s.seqs := rfl
@[simp] theorem State.at__patch (n) (s : State) : (s.at_ n).patch = s.patch := rfl
@[simp] theorem State.at__chorus (n) (s : State) : (s.at_ n).chorus = s.chorus := rfl
@[simp] theorem State.at__actCals (n) (s : State) : (s.at_ n).actCals = s.actCals := rfl
@[simp] theorem State.at__portCals (n) (s : State) : (s.at_ n).portCals = s.portCals := rfl
@[simp] theorem State.at__cal (n) (s : State) : (s.at_ n).cal = s.cal := rfl
@[simp] theorem State.at__mem (n) (s : State) : (s.at_ n).mem = s.mem := rfl
@[simp] theorem State.at__mcache (n) (s : State) : (s.at_ n).mcache = s.mcache := rfl
@[simp] theorem State.at__xing (n) (s : State) : (s.at_ n).xing = s.xing := rfl
@[simp] theorem State.at__therm (n) (s : State) : (s.at_ n).therm = s.therm := rfl
@[simp] theorem State.at__pair (n) (s : State) : (s.at_ n).pair = s.pair := rfl
@[simp] theorem State.at__svc (n) (s : State) : (s.at_ n).svc = s.svc := rfl
@[simp] theorem State.at__free (n) (s : State) : (s.at_ n).free = s.free := rfl
@[simp] theorem State.at__out (n) (s : State) : (s.at_ n).out = s.out := rfl
@[simp] theorem State.at__pending (n) (s : State) : (s.at_ n).pending = s.pending := rfl
@[simp] theorem State.at__port (n) (i) (s : State) : (s.at_ n).port i = s.port i := rfl
@[simp] theorem State.at__spin (n) (i) (s : State) : (s.at_ n).spin i = s.spin i := rfl
@[simp] theorem State.at__act (n) (i) (s : State) : (s.at_ n).act i = s.act i := rfl
@[simp] theorem State.at__seq (n) (i) (s : State) : (s.at_ n).seq i = s.seq i := rfl
@[simp] theorem State.at__eng (n) (i) (s : State) : (s.at_ n).eng i = s.eng i := rfl
@[simp] theorem State.at__pool (n) (i) (s : State) : (s.at_ n).pool i = s.pool i := rfl
@[simp] theorem State.at__acal (n) (i) (s : State) : (s.at_ n).acal i = s.acal i := rfl
@[simp] theorem State.at__pcal (n) (i) (s : State) : (s.at_ n).pcal i = s.pcal i := rfl
@[simp] theorem State.at__member (n) (i) (s : State) : (s.at_ n).member i = s.member i := rfl
@[simp] theorem State.at__fn (n) (i) (s : State) : (s.at_ n).fn i = s.fn i := by cases i <;> rfl
@[simp] theorem State.at__ctx (n) (i) (s : State) : (s.at_ n).ctx? i = s.ctx? i := rfl
@[simp] theorem State.emitOut_now (o) (s : State) : (s.emitOut o).now = s.now := rfl
@[simp] theorem State.emitOut_pins (o) (s : State) : (s.emitOut o).pins = s.pins := rfl
@[simp] theorem State.emitOut_aon (o) (s : State) : (s.emitOut o).aon = s.aon := rfl
@[simp] theorem State.emitOut_boot (o) (s : State) : (s.emitOut o).boot = s.boot := rfl
@[simp] theorem State.emitOut_nor (o) (s : State) : (s.emitOut o).nor = s.nor := rfl
@[simp] theorem State.emitOut_book (o) (s : State) : (s.emitOut o).book = s.book := rfl
@[simp] theorem State.emitOut_ident (o) (s : State) : (s.emitOut o).ident = s.ident := rfl
@[simp] theorem State.emitOut_power (o) (s : State) : (s.emitOut o).power = s.power := rfl
@[simp] theorem State.emitOut_fa (o) (s : State) : (s.emitOut o).fa = s.fa := rfl
@[simp] theorem State.emitOut_fb (o) (s : State) : (s.emitOut o).fb = s.fb := rfl
@[simp] theorem State.emitOut_ctxs (o) (s : State) : (s.emitOut o).ctxs = s.ctxs := rfl
@[simp] theorem State.emitOut_nextCtx (o) (s : State) : (s.emitOut o).nextCtx = s.nextCtx := rfl
@[simp] theorem State.emitOut_admission (o) (s : State) : (s.emitOut o).admission = s.admission := rfl
@[simp] theorem State.emitOut_decisions (o) (s : State) : (s.emitOut o).decisions = s.decisions := rfl
@[simp] theorem State.emitOut_lastShared (o) (s : State) : (s.emitOut o).lastShared = s.lastShared := rfl
@[simp] theorem State.emitOut_names (o) (s : State) : (s.emitOut o).names = s.names := rfl
@[simp] theorem State.emitOut_prot (o) (s : State) : (s.emitOut o).prot = s.prot := rfl
@[simp] theorem State.emitOut_ports (o) (s : State) : (s.emitOut o).ports = s.ports := rfl
@[simp] theorem State.emitOut_spins (o) (s : State) : (s.emitOut o).spins = s.spins := rfl
@[simp] theorem State.emitOut_acts (o) (s : State) : (s.emitOut o).acts = s.acts := rfl
@[simp] theorem State.emitOut_seqs (o) (s : State) : (s.emitOut o).seqs = s.seqs := rfl
@[simp] theorem State.emitOut_patch (o) (s : State) : (s.emitOut o).patch = s.patch := rfl
@[simp] theorem State.emitOut_chorus (o) (s : State) : (s.emitOut o).chorus = s.chorus := rfl
@[simp] theorem State.emitOut_actCals (o) (s : State) : (s.emitOut o).actCals = s.actCals := rfl
@[simp] theorem State.emitOut_portCals (o) (s : State) : (s.emitOut o).portCals = s.portCals := rfl
@[simp] theorem State.emitOut_cal (o) (s : State) : (s.emitOut o).cal = s.cal := rfl
@[simp] theorem State.emitOut_mem (o) (s : State) : (s.emitOut o).mem = s.mem := rfl
@[simp] theorem State.emitOut_mcache (o) (s : State) : (s.emitOut o).mcache = s.mcache := rfl
@[simp] theorem State.emitOut_xing (o) (s : State) : (s.emitOut o).xing = s.xing := rfl
@[simp] theorem State.emitOut_therm (o) (s : State) : (s.emitOut o).therm = s.therm := rfl
@[simp] theorem State.emitOut_pair (o) (s : State) : (s.emitOut o).pair = s.pair := rfl
@[simp] theorem State.emitOut_svc (o) (s : State) : (s.emitOut o).svc = s.svc := rfl
@[simp] theorem State.emitOut_free (o) (s : State) : (s.emitOut o).free = s.free := rfl
@[simp] theorem State.emitOut_out (o) (s : State) : (s.emitOut o).out = o :: s.out := rfl
@[simp] theorem State.emitOut_pending (o) (s : State) : (s.emitOut o).pending = s.pending := rfl
@[simp] theorem State.emitOut_port (o) (i) (s : State) : (s.emitOut o).port i = s.port i := rfl
@[simp] theorem State.emitOut_spin (o) (i) (s : State) : (s.emitOut o).spin i = s.spin i := rfl
@[simp] theorem State.emitOut_act (o) (i) (s : State) : (s.emitOut o).act i = s.act i := rfl
@[simp] theorem State.emitOut_seq (o) (i) (s : State) : (s.emitOut o).seq i = s.seq i := rfl
@[simp] theorem State.emitOut_eng (o) (i) (s : State) : (s.emitOut o).eng i = s.eng i := rfl
@[simp] theorem State.emitOut_pool (o) (i) (s : State) : (s.emitOut o).pool i = s.pool i := rfl
@[simp] theorem State.emitOut_acal (o) (i) (s : State) : (s.emitOut o).acal i = s.acal i := rfl
@[simp] theorem State.emitOut_pcal (o) (i) (s : State) : (s.emitOut o).pcal i = s.pcal i := rfl
@[simp] theorem State.emitOut_member (o) (i) (s : State) : (s.emitOut o).member i = s.member i := rfl
@[simp] theorem State.emitOut_fn (o) (i) (s : State) : (s.emitOut o).fn i = s.fn i := by cases i <;> rfl
@[simp] theorem State.emitOut_ctx (o) (i) (s : State) : (s.emitOut o).ctx? i = s.ctx? i := rfl
@[simp] theorem State.takeFree_now (s : State) : (s.takeFree).now = s.now := rfl
@[simp] theorem State.takeFree_pins (s : State) : (s.takeFree).pins = s.pins := rfl
@[simp] theorem State.takeFree_aon (s : State) : (s.takeFree).aon = s.aon := rfl
@[simp] theorem State.takeFree_boot (s : State) : (s.takeFree).boot = s.boot := rfl
@[simp] theorem State.takeFree_nor (s : State) : (s.takeFree).nor = s.nor := rfl
@[simp] theorem State.takeFree_book (s : State) : (s.takeFree).book = s.book := rfl
@[simp] theorem State.takeFree_ident (s : State) : (s.takeFree).ident = s.ident := rfl
@[simp] theorem State.takeFree_power (s : State) : (s.takeFree).power = s.power := rfl
@[simp] theorem State.takeFree_fa (s : State) : (s.takeFree).fa = s.fa := rfl
@[simp] theorem State.takeFree_fb (s : State) : (s.takeFree).fb = s.fb := rfl
@[simp] theorem State.takeFree_ctxs (s : State) : (s.takeFree).ctxs = s.ctxs := rfl
@[simp] theorem State.takeFree_nextCtx (s : State) : (s.takeFree).nextCtx = s.nextCtx := rfl
@[simp] theorem State.takeFree_admission (s : State) : (s.takeFree).admission = s.admission := rfl
@[simp] theorem State.takeFree_decisions (s : State) : (s.takeFree).decisions = s.decisions := rfl
@[simp] theorem State.takeFree_lastShared (s : State) : (s.takeFree).lastShared = s.lastShared := rfl
@[simp] theorem State.takeFree_names (s : State) : (s.takeFree).names = s.names := rfl
@[simp] theorem State.takeFree_prot (s : State) : (s.takeFree).prot = s.prot := rfl
@[simp] theorem State.takeFree_ports (s : State) : (s.takeFree).ports = s.ports := rfl
@[simp] theorem State.takeFree_spins (s : State) : (s.takeFree).spins = s.spins := rfl
@[simp] theorem State.takeFree_acts (s : State) : (s.takeFree).acts = s.acts := rfl
@[simp] theorem State.takeFree_seqs (s : State) : (s.takeFree).seqs = s.seqs := rfl
@[simp] theorem State.takeFree_patch (s : State) : (s.takeFree).patch = s.patch := rfl
@[simp] theorem State.takeFree_chorus (s : State) : (s.takeFree).chorus = s.chorus := rfl
@[simp] theorem State.takeFree_actCals (s : State) : (s.takeFree).actCals = s.actCals := rfl
@[simp] theorem State.takeFree_portCals (s : State) : (s.takeFree).portCals = s.portCals := rfl
@[simp] theorem State.takeFree_cal (s : State) : (s.takeFree).cal = s.cal := rfl
@[simp] theorem State.takeFree_mem (s : State) : (s.takeFree).mem = s.mem := rfl
@[simp] theorem State.takeFree_mcache (s : State) : (s.takeFree).mcache = s.mcache := rfl
@[simp] theorem State.takeFree_xing (s : State) : (s.takeFree).xing = s.xing := rfl
@[simp] theorem State.takeFree_therm (s : State) : (s.takeFree).therm = s.therm := rfl
@[simp] theorem State.takeFree_pair (s : State) : (s.takeFree).pair = s.pair := rfl
@[simp] theorem State.takeFree_svc (s : State) : (s.takeFree).svc = s.svc := rfl
@[simp] theorem State.takeFree_free (s : State) : (s.takeFree).free = s.free + 1 := rfl
@[simp] theorem State.takeFree_out (s : State) : (s.takeFree).out = s.out := rfl
@[simp] theorem State.takeFree_pending (s : State) : (s.takeFree).pending = s.pending := rfl
@[simp] theorem State.takeFree_port (i) (s : State) : (s.takeFree).port i = s.port i := rfl
@[simp] theorem State.takeFree_spin (i) (s : State) : (s.takeFree).spin i = s.spin i := rfl
@[simp] theorem State.takeFree_act (i) (s : State) : (s.takeFree).act i = s.act i := rfl
@[simp] theorem State.takeFree_seq (i) (s : State) : (s.takeFree).seq i = s.seq i := rfl
@[simp] theorem State.takeFree_eng (i) (s : State) : (s.takeFree).eng i = s.eng i := rfl
@[simp] theorem State.takeFree_pool (i) (s : State) : (s.takeFree).pool i = s.pool i := rfl
@[simp] theorem State.takeFree_acal (i) (s : State) : (s.takeFree).acal i = s.acal i := rfl
@[simp] theorem State.takeFree_pcal (i) (s : State) : (s.takeFree).pcal i = s.pcal i := rfl
@[simp] theorem State.takeFree_member (i) (s : State) : (s.takeFree).member i = s.member i := rfl
@[simp] theorem State.takeFree_fn (i) (s : State) : (s.takeFree).fn i = s.fn i := by cases i <;> rfl
@[simp] theorem State.takeFree_ctx (i) (s : State) : (s.takeFree).ctx? i = s.ctx? i := rfl

/-! Host functions -/

@[simp] theorem State.modFn_fn (n f i) (s : State) : (s.modFn n f).fn i = if i = n then f (s.fn n) else s.fn i := by
  cases n <;> cases i <;> rfl
@[simp] theorem State.modFn_now (n f) (s : State) : (s.modFn n f).now = s.now := by cases n <;> rfl
@[simp] theorem State.modFn_pins (n f) (s : State) : (s.modFn n f).pins = s.pins := by cases n <;> rfl
@[simp] theorem State.modFn_aon (n f) (s : State) : (s.modFn n f).aon = s.aon := by cases n <;> rfl
@[simp] theorem State.modFn_boot (n f) (s : State) : (s.modFn n f).boot = s.boot := by cases n <;> rfl
@[simp] theorem State.modFn_nor (n f) (s : State) : (s.modFn n f).nor = s.nor := by cases n <;> rfl
@[simp] theorem State.modFn_book (n f) (s : State) : (s.modFn n f).book = s.book := by cases n <;> rfl
@[simp] theorem State.modFn_ident (n f) (s : State) : (s.modFn n f).ident = s.ident := by cases n <;> rfl
@[simp] theorem State.modFn_power (n f) (s : State) : (s.modFn n f).power = s.power := by cases n <;> rfl
@[simp] theorem State.modFn_ctxs (n f) (s : State) : (s.modFn n f).ctxs = s.ctxs := by cases n <;> rfl
@[simp] theorem State.modFn_nextCtx (n f) (s : State) : (s.modFn n f).nextCtx = s.nextCtx := by cases n <;> rfl
@[simp] theorem State.modFn_admission (n f) (s : State) : (s.modFn n f).admission = s.admission := by cases n <;> rfl
@[simp] theorem State.modFn_decisions (n f) (s : State) : (s.modFn n f).decisions = s.decisions := by cases n <;> rfl
@[simp] theorem State.modFn_lastShared (n f) (s : State) : (s.modFn n f).lastShared = s.lastShared := by cases n <;> rfl
@[simp] theorem State.modFn_names (n f) (s : State) : (s.modFn n f).names = s.names := by cases n <;> rfl
@[simp] theorem State.modFn_prot (n f) (s : State) : (s.modFn n f).prot = s.prot := by cases n <;> rfl
@[simp] theorem State.modFn_ports (n f) (s : State) : (s.modFn n f).ports = s.ports := by cases n <;> rfl
@[simp] theorem State.modFn_spins (n f) (s : State) : (s.modFn n f).spins = s.spins := by cases n <;> rfl
@[simp] theorem State.modFn_acts (n f) (s : State) : (s.modFn n f).acts = s.acts := by cases n <;> rfl
@[simp] theorem State.modFn_seqs (n f) (s : State) : (s.modFn n f).seqs = s.seqs := by cases n <;> rfl
@[simp] theorem State.modFn_patch (n f) (s : State) : (s.modFn n f).patch = s.patch := by cases n <;> rfl
@[simp] theorem State.modFn_chorus (n f) (s : State) : (s.modFn n f).chorus = s.chorus := by cases n <;> rfl
@[simp] theorem State.modFn_actCals (n f) (s : State) : (s.modFn n f).actCals = s.actCals := by cases n <;> rfl
@[simp] theorem State.modFn_portCals (n f) (s : State) : (s.modFn n f).portCals = s.portCals := by cases n <;> rfl
@[simp] theorem State.modFn_cal (n f) (s : State) : (s.modFn n f).cal = s.cal := by cases n <;> rfl
@[simp] theorem State.modFn_mem (n f) (s : State) : (s.modFn n f).mem = s.mem := by cases n <;> rfl
@[simp] theorem State.modFn_mcache (n f) (s : State) : (s.modFn n f).mcache = s.mcache := by cases n <;> rfl
@[simp] theorem State.modFn_xing (n f) (s : State) : (s.modFn n f).xing = s.xing := by cases n <;> rfl
@[simp] theorem State.modFn_therm (n f) (s : State) : (s.modFn n f).therm = s.therm := by cases n <;> rfl
@[simp] theorem State.modFn_pair (n f) (s : State) : (s.modFn n f).pair = s.pair := by cases n <;> rfl
@[simp] theorem State.modFn_svc (n f) (s : State) : (s.modFn n f).svc = s.svc := by cases n <;> rfl
@[simp] theorem State.modFn_free (n f) (s : State) : (s.modFn n f).free = s.free := by cases n <;> rfl
@[simp] theorem State.modFn_out (n f) (s : State) : (s.modFn n f).out = s.out := by cases n <;> rfl
@[simp] theorem State.modFn_pending (n f) (s : State) : (s.modFn n f).pending = s.pending := by cases n <;> rfl
@[simp] theorem State.modFn_port (n f i) (s : State) : (s.modFn n f).port i = s.port i := by cases n <;> rfl
@[simp] theorem State.modFn_spin (n f i) (s : State) : (s.modFn n f).spin i = s.spin i := by cases n <;> rfl
@[simp] theorem State.modFn_act (n f i) (s : State) : (s.modFn n f).act i = s.act i := by cases n <;> rfl
@[simp] theorem State.modFn_seq (n f i) (s : State) : (s.modFn n f).seq i = s.seq i := by cases n <;> rfl
@[simp] theorem State.modFn_eng (n f i) (s : State) : (s.modFn n f).eng i = s.eng i := by cases n <;> rfl
@[simp] theorem State.modFn_pool (n f i) (s : State) : (s.modFn n f).pool i = s.pool i := by cases n <;> rfl
@[simp] theorem State.modFn_acal (n f i) (s : State) : (s.modFn n f).acal i = s.acal i := by cases n <;> rfl
@[simp] theorem State.modFn_pcal (n f i) (s : State) : (s.modFn n f).pcal i = s.pcal i := by cases n <;> rfl
@[simp] theorem State.modFn_member (n f i) (s : State) : (s.modFn n f).member i = s.member i := by cases n <;> rfl
@[simp] theorem State.modFn_ctx (n f i) (s : State) : (s.modFn n f).ctx? i = s.ctx? i := by cases n <;> rfl

/-! Contexts -/

theorem State.modCtx_ctx (c f) (hf : ∀ x : Ctx, x.id = c → (f x).id = c) (s : State) : (s.modCtx c f).ctx? c = (s.ctx? c).map f := by
  unfold State.ctx? State.modCtx mapWhere
  dsimp only
  induction s.ctxs with
  | nil => rfl
  | cons x r ih =>
    by_cases h : x.id = c
    · have h2 := hf x h
      simp [h, h2]
    · simpa [h] using ih

end Sys2Proof.Machine
end

