-- ==== Sys2Proof/Laws/Effects.lean ====
section
/-! SUPPORT. What the shared operations leave behind: event bits, completions, and how a command context is taken. -/

namespace Sys2Proof.Machine

theorem setBit_get {w : Nat} (v : BitVec w) (n : Nat) (h : n < w) : (setBit v n).getLsbD n = true := by
  simp only [setBit, BitVec.getLsbD_or, BitVec.getLsbD_ofNat, h, decide_true, Bool.true_and, Nat.testBit_two_pow_self, Bool.or_true]

theorem setBit_keep {w : Nat} (v : BitVec w) (n m : Nat) (h : v.getLsbD m = true) : (setBit v n).getLsbD m = true := by
  simp only [setBit, BitVec.getLsbD_or, h, Bool.true_or]

theorem clearBit_get {w : Nat} (v : BitVec w) (n : Nat) : (clearBit v n).getLsbD n = false := by
  by_cases h : n < w
  · simp only [clearBit, BitVec.getLsbD_and, BitVec.getLsbD_not, BitVec.getLsbD_ofNat, h, Nat.testBit_two_pow_self]
    simp
  · rw [BitVec.getLsbD_of_ge _ _ (by omega)]

/-! ## Events: a bit is set in its register and the recorder is told -/

@[simp] theorem State.emit_ports (a b c d) (s : State) : (s.emit a b c d).ports = s.ports := (State.emit_moves a b c d s).only .ports (by decide)
@[simp] theorem State.emit_spins (a b c d) (s : State) : (s.emit a b c d).spins = s.spins := (State.emit_moves a b c d s).only .spins (by decide)
@[simp] theorem State.emit_acts (a b c d) (s : State) : (s.emit a b c d).acts = s.acts := (State.emit_moves a b c d s).only .acts (by decide)
@[simp] theorem State.emit_seqs (a b c d) (s : State) : (s.emit a b c d).seqs = s.seqs := (State.emit_moves a b c d s).only .seqs (by decide)
@[simp] theorem State.emit_chorus (a b c d) (s : State) : (s.emit a b c d).chorus = s.chorus := (State.emit_moves a b c d s).only .chorus (by decide)
@[simp] theorem State.emit_actCals (a b c d) (s : State) : (s.emit a b c d).actCals = s.actCals := (State.emit_moves a b c d s).only .actCals (by decide)
@[simp] theorem State.emit_prot (a b c d) (s : State) : (s.emit a b c d).prot = s.prot := (State.emit_moves a b c d s).only .prot (by decide)
@[simp] theorem State.emit_mem (a b c d) (s : State) : (s.emit a b c d).mem = s.mem := (State.emit_moves a b c d s).only .mem (by decide)
@[simp] theorem State.emit_therm (a b c d) (s : State) : (s.emit a b c d).therm = s.therm := (State.emit_moves a b c d s).only .therm (by decide)
@[simp] theorem State.emit_xing (a b c d) (s : State) : (s.emit a b c d).xing = s.xing := (State.emit_moves a b c d s).only .xing (by decide)

theorem State.raisePort_ports (p n) (s : State) :
    (s.raisePort p n).ports = upd s.ports p fun x => { x with events := setBit x.events n } := by
  simp [State.raisePort]
theorem State.raiseSpin_spins (p n) (s : State) :
    (s.raiseSpin p n).spins = upd s.spins p fun x => { x with events := setBit x.events n } := by
  simp [State.raiseSpin]
theorem State.raiseServo_acts (a n) (s : State) :
    (s.raiseServo a n).acts = upd s.acts a fun x => { x with events := setBit x.events n } := by
  simp [State.raiseServo]
theorem State.raiseSeq_seqs (a n) (s : State) :
    (s.raiseSeq a n).seqs = upd s.seqs a fun x => { x with events := setBit x.events n } := by
  simp [State.raiseSeq]
theorem State.raisePool_chorus (n) (s : State) :
    (s.raisePool n).chorus = { s.chorus with events := setBit s.chorus.events n } := by
  simp [State.raisePool]
theorem State.raiseEng_chorus (e n) (s : State) :
    (s.raiseEng e n).chorus = { s.chorus with engs := upd s.chorus.engs e fun x => { x with events := setBit x.events n } } := by
  simp [State.raiseEng]
theorem State.raiseCal_actCals (a n d) (s : State) :
    (s.raiseCal a n d).actCals = upd s.actCals a fun x => { x with events := setBit x.events n } := by
  simp [State.raiseCal]
theorem State.raiseProt_prot (n r) (s : State) : (s.raiseProt n r).prot = { s.prot with events := setBit s.prot.events n } := by
  simp [State.raiseProt]
theorem State.raiseMem_mem (n d) (s : State) : (s.raiseMem n d).mem = { s.mem with events := setBit s.mem.events n } := by
  simp [State.raiseMem]
theorem State.raiseTherm_therm (n r) (s : State) : (s.raiseTherm n r).therm = { s.therm with events := setBit s.therm.events n } := by
  simp [State.raiseTherm]
theorem State.raiseXing_xing (n) (s : State) : (s.raiseXing n).xing = { s.xing with events := setBit s.xing.events n } := by
  simp [State.raiseXing]

@[simp] theorem State.raisePort_port (p n q) (s : State) :
    (s.raisePort p n).port q = if q = p then { s.port p with events := setBit (s.port p).events n } else s.port q := by
  simp only [State.port, State.raisePort_ports, upd_get]
  by_cases h : p = q
  · subst h; simp only [if_true]
  · rw [if_neg h, if_neg (Ne.symm h)]
@[simp] theorem State.raiseSpin_spin (p n q) (s : State) :
    (s.raiseSpin p n).spin q = if q = p then { s.spin p with events := setBit (s.spin p).events n } else s.spin q := by
  simp only [State.spin, State.raiseSpin_spins, upd_get]
  by_cases h : p = q
  · subst h; simp only [if_true]
  · rw [if_neg h, if_neg (Ne.symm h)]
@[simp] theorem State.raiseServo_act (a n b) (s : State) :
    (s.raiseServo a n).act b = if b = a then { s.act a with events := setBit (s.act a).events n } else s.act b := by
  simp only [State.act, State.raiseServo_acts, upd_get]
  by_cases h : a = b
  · subst h; simp only [if_true]
  · rw [if_neg h, if_neg (Ne.symm h)]
@[simp] theorem State.raiseSeq_seq (a n b) (s : State) :
    (s.raiseSeq a n).seq b = if b = a then { s.seq a with events := setBit (s.seq a).events n } else s.seq b := by
  simp only [State.seq, State.raiseSeq_seqs, upd_get]
  by_cases h : a = b
  · subst h; simp only [if_true]
  · rw [if_neg h, if_neg (Ne.symm h)]
@[simp] theorem State.raiseCal_acal (a n d b) (s : State) :
    (s.raiseCal a n d).acal b = if b = a then { s.acal a with events := setBit (s.acal a).events n } else s.acal b := by
  simp only [State.acal, State.raiseCal_actCals, upd_get]
  by_cases h : a = b
  · subst h; simp only [if_true]
  · rw [if_neg h, if_neg (Ne.symm h)]

/-! ## Ports -/

theorem State.port_of_ports {s t : State} (h : t.ports = s.ports) (q : PortId) : t.port q = s.port q := by
  unfold State.port; rw [h]

/-- A port that fails: its state, its reason and its event. -/
theorem State.portFail_port (p : PortId) (n : Fin 16) (q : PortId) (s : State) :
    (s.portFail p n).port q = if q = p then { s.port p with
      train := 0xA, fail := n, inService := false, cmdUp := false, ended := true, entered := true, requests := [], urgent := [], normal := [], writes := []
      events := setBit (s.port p).events 4 } else s.port q := by
  unfold State.portFail
  rw [State.port_of_ports ((State.noteEnded_moves _).only .ports (by decide)) q,
    State.port_of_ports ((State.noteService_moves _ _).only .ports (by decide)) q, State.raisePort_port, State.modPort_port]
  split
  · simp
  · rw [State.modPort_port]; rename_i h; rw [if_neg h]

/-- A port reset sets its event, and the port is neither trained nor in service after it. -/
theorem State.portReset_port (p : PortId) (s : State) : ((s.portReset p).port p).events.getLsbD 5 = true := by
  unfold State.portReset
  extract_lets was resets t v u
  have e : (u.port p).events.getLsbD 5 = true := by
    simp only [u]
    rw [State.raisePort_port, if_pos rfl]
    exact setBit_get _ _ (by decide)
  clear_value u
  split
  · rw [State.portFail_port, if_pos rfl]
    exact setBit_keep _ _ _ e
  · rw [State.port_of_ports ((State.noteService_moves _ _).only .ports (by decide)) p]
    unfold State.when
    split
    · rw [State.modPort_port, if_pos rfl]
      exact e
    · exact e

/-- The next packet of an opcode is taken. -/
theorem State.takeRx_of {s : State} {p : PortId} {op : Nat} {k : Packet} (h : Received s p op k) (f : Packet → State → State) :
    s.takeRx p op f = f k (s.modPort p fun q => { q with rx := q.rx.drop 1 }) := by
  obtain ⟨h, e⟩ := h
  unfold State.takeRx
  cases l : (s.port p).rx with
  | nil => rw [l] at h; simp at h
  | cons x r =>
    rw [l] at h
    simp only [List.head?_cons, Option.some.injEq] at h
    subst h
    have : (x :: r).findIdx? (fun x => x.opcode.toNat == op) = some 0 := by simp [List.findIdx?_cons, e]
    rw [this]
    dsimp only [List.getElem?_cons_zero]
    congr 2
    funext q
    cases hq : q.rx <;> simp [dropAt, hq]

/-- The answer to a request is taken. -/
theorem State.takeAnswer_of {s : State} {p : PortId} {op : Nat} {r : Request} {k : Packet} (h : Answered s p op r k)
    (f : Request → Packet → State → State) :
    s.takeAnswer p op f = f r k (s.modPort p fun q => { q with rx := q.rx.drop 1 }) := by
  unfold State.takeAnswer
  rw [State.takeRx_of h.1]
  simp only [State.modPort_port, if_true]
  rw [h.2]

/-! ## The write buffer, while PS3 is not being entered -/

theorem State.noteClean_quiet (s : State) (h : s.power.entering = false) :
    State.Moves [.aon, .nor, .book, .fa, .fb, .ctxs, .decisions, .names, .prot, .mem, .pair, .svc, .free, .out] s s.noteClean := by
  unfold State.noteClean
  extract_lets t
  have m : State.Moves [.aon, .nor, .book, .fa, .fb, .ctxs, .decisions, .names, .prot, .mem, .pair, .svc, .free, .out] s t :=
    Moves.op (State.retireWaiting_moves _) (by decide) (Moves.op (State.shutdownDone_moves _ _) (by decide)
      (Moves.op (State.shutdownDone_moves _ _) (by decide) (Moves.op (State.noteDirty_moves _) (by decide)
        (Moves.op (State.settleDeletes_moves _) (by decide) (Moves.refl _ _)))))
  have e : t.power.entering = false := by rw [show t.power = s.power from m.only .power (by decide)]; exact h
  rw [if_neg (by simp [e])]
  exact m

theorem State.bufferChanged_quiet (s : State) (h : s.power.entering = false) :
    State.Moves [.aon, .nor, .book, .fa, .fb, .ctxs, .decisions, .names, .prot, .mem, .mcache, .pair, .svc, .free, .out] s s.bufferChanged := by
  unfold State.bufferChanged
  have m : State.Moves [.aon, .nor, .book, .fa, .fb, .ctxs, .decisions, .names, .prot, .mem, .mcache, .pair, .svc, .free, .out] s
      s.noteDirty.settleOrder :=
    Moves.op (State.settleOrder_moves _) (by decide) (Moves.op (State.noteDirty_moves _) (by decide) (Moves.refl _ _))
  refine Moves.op (State.noteClean_quiet _ ?_) (by decide) m
  rw [show s.noteDirty.settleOrder.power = s.power from m.only .power (by decide)]; exact h

/-! ## Commands from a queue -/

/-- A host command that ends: its context is decided, holds its completion and its place among the decisions. -/
theorem State.complete_host {c : Nat} {x : Ctx} {f : Fn} (r : Cpl) {s : State} (h : s.ctx? c = some x) (o : x.origin = .host f)
    (d : ¬((s.fn f).d3hot = true ∧ ((x.stamp r).bytes ≠ [] ∨ (x.stamp r).blocks ≠ []))) :
    (s.complete c r).ctx? c = some { x with stage := .decided, wait := .none, cpl := some (x.stamp r), order := s.decisions } ∧
    (s.complete c r).decisions = s.decisions + 1 := by
  have e : s.complete c r = { s.modCtx c (fun y => { y with stage := .decided, wait := .none, cpl := some (x.stamp r), order := s.decisions }) with
      decisions := s.decisions + 1 } := by
    unfold State.complete
    rw [h]
    dsimp only
    rw [o]
    dsimp only
    rw [if_neg d]
  rw [e]
  refine ⟨?_, rfl⟩
  show (s.modCtx c fun y => { y with stage := .decided, wait := .none, cpl := some (x.stamp r), order := s.decisions }).ctx? c = _
  rw [State.modCtx_ctx c (fun y => { y with stage := .decided, wait := .none, cpl := some (x.stamp r), order := s.decisions }) (fun _ e => e), h]
  rfl

/-- A host command whose data must wait for D0: its context holds the completion, undecided. -/
theorem State.complete_held {c : Nat} {x : Ctx} {f : Fn} (r : Cpl) {s : State} (h : s.ctx? c = some x) (o : x.origin = .host f)
    (d : (s.fn f).d3hot = true ∧ ((x.stamp r).bytes ≠ [] ∨ (x.stamp r).blocks ≠ [])) :
    s.complete c r = s.modCtx c fun y => { y with stage := .waiting, wait := .transfer, cpl := some (x.stamp r) } := by
  unfold State.complete
  rw [h]
  dsimp only
  rw [o]
  dsimp only
  rw [if_pos d]

/-- A command that is admitted and of the wanted kind runs. -/
theorem State.run_of {c : Nat} {w : Ctx → Bool} {k : Ctx → State → State} {s : State} {x : Ctx} (h : s.ctx? c = some x)
    (a : x.stage = .admitted) (hw : w x = true) : s.run c w k = k x s := by
  unfold State.run
  simp [h, a, hw]

/-- The rest of a command's meaning, once nothing is found at fault. -/
@[simp] theorem State.orElse_none (c : Nat) (k : State → State) (s : State) : s.orElse c none k = k s := rfl

/-- A command at hand runs. -/
theorem State.run_atHand {c : Nat} {w : Ctx → Bool} {k : Ctx → State → State} {s : State} {x : Ctx} (h : AtHand s c w x) :
    s.run c w k = k x s := State.run_of h.1 h.2.1 h.2.2.1

/-- A command at hand that completes has ended so, whatever was changed outside the contexts before. -/
theorem State.ended_complete {c : Nat} {w : Ctx → Bool} {s t : State} {x : Ctx} (r : Cpl) (h : AtHand s c w x) (e : t.ctxs = s.ctxs) :
    EndedWith (t.complete c r) c x r := by
  obtain ⟨f, o⟩ := h.2.2.2
  have ht : t.ctx? c = some x := by unfold State.ctx?; rw [e]; exact h.1
  by_cases d : (t.fn f).d3hot = true ∧ ((x.stamp r).bytes ≠ [] ∨ (x.stamp r).blocks ≠ [])
  · rw [State.complete_held r ht o d]
    refine ⟨{ x with stage := .waiting, wait := .transfer, cpl := some (x.stamp r) }, ?_, rfl, .inr ⟨rfl, rfl, f, o, ?_, d.2⟩⟩
    · rw [State.modCtx_ctx c (fun y => { y with stage := .waiting, wait := .transfer, cpl := some (x.stamp r) }) (fun _ e => e), ht]
      rfl
    · exact d.1
  · exact ⟨_, (State.complete_host r ht o d).1, rfl, .inl rfl⟩

/-- The context of a command is the one that carries its number. -/
theorem State.ctx_id {c : Nat} {x : Ctx} {s : State} (h : s.ctx? c = some x) : x.id = c := by
  unfold State.ctx? at h
  simpa using List.find?_some h

end Sys2Proof.Machine
end

