-- ==== Sys2Proof/Laws/Patch.lean ====
section
/-! SUPPORT. What each operation and each command of Machine/Patch.lean can do to the state. -/

namespace Sys2Proof.Machine

theorem State.patchDone_moves (a0) (a1) (a2) (a3) (s) : State.Moves [.aon, .book, .ident, .ctxs, .decisions, .pair, .svc, .out] s (State.patchDone a0 a1 a2 a3 s) := by
  unfold State.patchDone
  repeat' (first
    | (with_reducible intro)
    | with_reducible exact Moves.refl _ _
    | with_reducible assumption
    | ((with_reducible apply Moves.op (State.addDue_moves _ _ _)); decide)
    | ((with_reducible apply Moves.op (State.await_moves _ _ _)); decide)
    | ((with_reducible apply Moves.op (State.complete_moves _ _ _)); decide)
    | ((with_reducible apply Moves.op (State.emit_moves _ _ _ _ _)); decide)
    | with_reducible apply Moves.ite
    | with_reducible apply Moves.when
    | (extract_lets +onlyGivenNames u; (with_reducible apply Moves.let (u := u)); (intro h; clear_value u); rotate_left; subst u; rotate_right)
    | (extract_lets +onlyGivenNames v; subst v)
    | split)

theorem State.patchResult_moves (a0) (s) : State.Moves [.patch] s (State.patchResult a0 s) := by
  unfold State.patchResult
  repeat' (first
    | with_reducible exact Moves.refl _ _
    | ((with_reducible apply Moves.op (State.modPatch_moves _ _)); decide))

theorem State.patchWrite_moves (a0) (a1) (a2) (s) : State.Moves [.aon, .book, .seqs, .patch] s (State.patchWrite a0 a1 a2 s) := by
  unfold State.patchWrite
  repeat' (first
    | (with_reducible intro)
    | with_reducible exact Moves.refl _ _
    | with_reducible assumption
    | ((with_reducible apply Moves.op (State.modPatch_moves _ _)); decide)
    | ((with_reducible apply Moves.op (State.modSeq_moves _ _ _)); decide)
    | ((with_reducible apply Moves.op (State.selectBank_moves _ _)); decide)
    | with_reducible apply Moves.each)

theorem State.patchLoad_moves (a0) (a1) (a2) (a3) (s) : State.Moves [.aon, .boot, .nor, .book, .ident, .ctxs, .decisions, .seqs, .patch, .pair, .svc, .out] s (State.patchLoad a0 a1 a2 a3 s) := by
  unfold State.patchLoad
  repeat' (first
    | (with_reducible intro)
    | with_reducible exact Moves.refl _ _
    | with_reducible assumption
    | ((with_reducible apply Moves.op (State.complete_moves _ _ _)); decide)
    | ((with_reducible apply Moves.op (State.modNor_moves _ _)); decide)
    | ((with_reducible apply Moves.op (State.norErase_moves _ _ _ _)); decide)
    | ((with_reducible apply Moves.op (State.norProgram_moves _ _ _ _)); decide)
    | ((with_reducible apply Moves.op (State.patchDone_moves _ _ _ _ _)); decide)
    | ((with_reducible apply Moves.op (State.patchResult_moves _ _)); decide)
    | ((with_reducible apply Moves.op (State.patchWrite_moves _ _ _ _)); decide)
    | with_reducible apply Moves.ite
    | with_reducible apply Moves.when
    | (extract_lets +onlyGivenNames u; (with_reducible apply Moves.let (u := u)); (intro h; clear_value u); rotate_left; subst u; rotate_right)
    | (extract_lets +onlyGivenNames v; subst v)
    | split)

theorem execBootPatchLoad_moves (s) : ∃ t, execBootPatchLoad s = .next t ∧ State.Moves [.aon, .boot, .nor, .book, .power, .ctxs, .decisions, .names, .prot, .ports, .seqs, .patch, .chorus, .actCals, .pair, .svc, .out] s t := by
  unfold execBootPatchLoad
  repeat' (first
    | (with_reducible intro)
    | (with_reducible refine ⟨_, rfl, ?_⟩)
    | with_reducible exact Moves.refl _ _
    | with_reducible assumption
    | ((with_reducible apply Moves.op (State.emit_moves _ _ _ _ _)); decide)
    | ((with_reducible apply Moves.op (State.modPatch_moves _ _)); decide)
    | ((with_reducible apply Moves.op (State.modSeq_moves _ _ _)); decide)
    | ((with_reducible apply Moves.op (State.norRead_moves _ _ _ _)); decide)
    | ((with_reducible apply Moves.op (State.patchResult_moves _ _)); decide)
    | ((with_reducible apply Moves.op (State.seqRestart_moves _ _)); decide)
    | with_reducible apply Moves.each
    | with_reducible apply Moves.ite
    | with_reducible apply Moves.when
    | (extract_lets +onlyGivenNames u; (with_reducible apply Moves.let (u := u)); (intro h; clear_value u); rotate_left; subst u; rotate_right)
    | (extract_lets +onlyGivenNames v; subst v)
    | (split <;> beta_reduce))

theorem execPatchClear_moves (a0) (s) : ∃ t, execPatchClear a0 s = .next t ∧ State.Moves [.aon, .book, .ident, .ctxs, .decisions, .seqs, .patch, .pair, .svc, .out] s t := by
  unfold execPatchClear
  repeat' (first
    | (with_reducible refine ⟨_, rfl, ?_⟩)
    | with_reducible exact Moves.refl _ _
    | ((with_reducible apply Moves.op (State.complete_moves _ _ _)); decide)
    | ((with_reducible apply Moves.op (State.emit_moves _ _ _ _ _)); decide)
    | (unfold State.orElse; beta_reduce)
    | ((with_reducible apply Moves.op (State.patchDone_moves _ _ _ _ _)); decide)
    | (unfold State.patchMay; beta_reduce)
    | ((with_reducible apply Moves.op (State.patchResult_moves _ _)); decide)
    | ((with_reducible apply Moves.op (State.patchWrite_moves _ _ _ _)); decide)
    | (unfold State.run; beta_reduce)
    | with_reducible apply Moves.ite
    | (split <;> beta_reduce))

theorem execPatchLoadAndStore_moves (a0) (a1) (s) : ∃ t, execPatchLoadAndStore a0 a1 s = .next t ∧ State.Moves [.aon, .boot, .nor, .book, .ident, .ctxs, .decisions, .seqs, .patch, .pair, .svc, .out] s t := by
  unfold execPatchLoadAndStore
  repeat' (first
    | (with_reducible refine ⟨_, rfl, ?_⟩)
    | with_reducible exact Moves.refl _ _
    | ((with_reducible apply Moves.op (State.complete_moves _ _ _)); decide)
    | ((with_reducible apply Moves.op (State.emit_moves _ _ _ _ _)); decide)
    | (unfold State.orElse; beta_reduce)
    | ((with_reducible apply Moves.op (State.patchLoad_moves _ _ _ _ _)); decide)
    | (unfold State.patchMay; beta_reduce)
    | ((with_reducible apply Moves.op (State.patchResult_moves _ _)); decide)
    | (unfold State.run; beta_reduce)
    | with_reducible apply Moves.ite
    | (split <;> beta_reduce))

theorem execPatchLoadFromHost_moves (a0) (s) : ∃ t, execPatchLoadFromHost a0 s = .next t ∧ State.Moves [.aon, .boot, .nor, .book, .ident, .ctxs, .decisions, .seqs, .patch, .pair, .svc, .out] s t := by
  unfold execPatchLoadFromHost
  repeat' (first
    | (with_reducible refine ⟨_, rfl, ?_⟩)
    | with_reducible exact Moves.refl _ _
    | ((with_reducible apply Moves.op (State.complete_moves _ _ _)); decide)
    | ((with_reducible apply Moves.op (State.emit_moves _ _ _ _ _)); decide)
    | (unfold State.orElse; beta_reduce)
    | ((with_reducible apply Moves.op (State.patchLoad_moves _ _ _ _ _)); decide)
    | (unfold State.patchMay; beta_reduce)
    | ((with_reducible apply Moves.op (State.patchResult_moves _ _)); decide)
    | (unfold State.run; beta_reduce)
    | with_reducible apply Moves.ite
    | (split <;> beta_reduce))

theorem execPatchLoadFromNor_moves (a0) (s) : ∃ t, execPatchLoadFromNor a0 s = .next t ∧ State.Moves [.aon, .boot, .nor, .book, .ident, .ctxs, .decisions, .seqs, .patch, .pair, .svc, .out] s t := by
  unfold execPatchLoadFromNor
  repeat' (first
    | (with_reducible intro)
    | (with_reducible refine ⟨_, rfl, ?_⟩)
    | with_reducible exact Moves.refl _ _
    | with_reducible assumption
    | ((with_reducible apply Moves.op (State.complete_moves _ _ _)); decide)
    | ((with_reducible apply Moves.op (State.emit_moves _ _ _ _ _)); decide)
    | ((with_reducible apply Moves.op (State.norRead_moves _ _ _ _)); decide)
    | (unfold State.orElse; beta_reduce)
    | ((with_reducible apply Moves.op (State.patchLoad_moves _ _ _ _ _)); decide)
    | (unfold State.patchMay; beta_reduce)
    | ((with_reducible apply Moves.op (State.patchResult_moves _ _)); decide)
    | (unfold State.run; beta_reduce)
    | with_reducible apply Moves.each
    | with_reducible apply Moves.ite
    | with_reducible apply Moves.when
    | (extract_lets +onlyGivenNames u; (with_reducible apply Moves.let (u := u)); (intro h; clear_value u); rotate_left; subst u; rotate_right)
    | (extract_lets +onlyGivenNames v; subst v)
    | (split <;> beta_reduce))

end Sys2Proof.Machine
end

