-- ==== Sys2Proof/Laws/Step.lean ====
section
/-! SUPPORT. What each operation and each command of Machine/Step.lean can do to the state. -/

namespace Sys2Proof.Machine

theorem State.withFetchWord_moves (s) (a1) (a2) : State.Moves [.pending] s (State.withFetchWord s a1 a2) := by
  unfold State.withFetchWord
  repeat' (first
    | with_reducible exact Moves.refl _ _
    | split
    | (refine Moves.base (u := s) (by with_reducible first | exact Moves.refl _ _ | assumption) ?_ rfl rfl fun h => ⟨h.filled, h.complete, h.ready, h.bufs, h.served, h.therms, h.holds, h.ring, h.ctxs⟩; intro x hx; cases x <;> first | exact absurd (by decide) hx | (unfold State.same; with_reducible rfl)))

end Sys2Proof.Machine
end

