-- ==== Sys2Proof/WellFormed.lean ====
section
/-! DEFINITION. Which commands are well formed: their operands lie within what carries them (a line block, a packet, a message, a
register). What a well-formed command does is the machine's; an ill-formed one cannot arrive. -/

namespace Sys2Proof

/-- A servo reading: its amplitudes and fractions come from a gate with a sync mark (spec/05 R178). -/
def ServoReading.wf (d : ServoReading) : Bool :=
  d.sync || (d.amp0 == 0 && d.amp1 == 0 && d.frac0 == 0 && d.frac1 == 0 && d.track == 0 && d.wedge == 0)

/-- A descriptor: a run of one sector or more, on a track of 20 bits, with a block of data for each sector of a write (spec/06 R215). -/
def Descriptor.wf (d : Descriptor) : Bool :=
  decide (1 ≤ d.count) && decide (d.track < 2 ^ 20) && d.data.length == (if d.write then d.count else 0)

/-- A journal record: namespace numbers of 32 bits and block addresses of 64 (spec/18 Table 18-3). -/
def JournalRec.wf : JournalRec → Bool
  | .map n l _ => decide (n < 2 ^ 32) && decide (l < 2 ^ 64)
  | .zone n z _ w => decide (n < 2 ^ 32) && decide (z < 2 ^ 32) && decide (w < 2 ^ 64)
  | .group _ w _ n => (w == 10 || w == 20) && decide (n < 2 ^ 32)
  | .nspace n z _ _ _ _ => decide (n < 2 ^ 32) && decide (z < 2 ^ 64)
  | .attach n _ _ => decide (n < 2 ^ 32)
  | .directory n _ _ => decide (n < 2 ^ 32)
  | .member _ p _ _ _ b0 b1 _ _ => decide (1 ≤ p) && decide (p ≤ 5) && decide (b0 < 2 ^ 16) && decide (b1 < 2 ^ 16)
  | .exception _ _ _ _ _ => true
  | .checkpoint _ _ _ => true

/-- A namespace number of 32 bits and a block address of 64. -/
def place (ns lba : Nat) : Bool := decide (ns < 2 ^ 32) && decide (lba < 2 ^ 64)

/-- A doorbell of a queue number of 16 bits, its value and its shadow of 32 bits (spec/11 R420). -/
def doorbell (q v shadow : Nat) : Bool := decide (q < 2 ^ 16) && decide (v < 2 ^ 32) && decide (shadow < 2 ^ 32)

/-- The command is well formed: a line block is 272 bytes (spec/03), training reports eight channels (spec/02 R69), a pulse crossing
delivers 1 to 255 (spec/14 R526), a write packet carries 1 to 4,092 bytes (spec/19 R678), offsets and addresses fit their fields. -/
def WellFormed : Instr → Bool
  | .dramTrainingDone l r => l.length == 8 && r.length == 8
  | .moduleLoad m => m != []
  | .perstAssert _ w => decide (1 ≤ w)
  | .lineBlockReceived _ b d => b.length == 272 && d.reading.wf
  | .hotRemove _ w => decide (1 ≤ w)
  | .clockPresentSet _ n => decide (1 ≤ n)
  | .clockPresentClear _ n => decide (1 ≤ n)
  | .pulseTransfer _ n => decide (1 ≤ n.count)
  | .descriptorQueued _ q => q.d.wf
  | .sectorDecoded _ n _ => decide (n < 2 ^ 16)
  | .sourceRunRead _ _ _ u => u.all fun q => decide (q.1 < 32)
  | .powerFailDump w => decide (1 ≤ w)
  | .sqTailDoorbell _ q v h => doorbell q v h
  | .cqHeadDoorbell _ q v h => doorbell q v h
  | .invalidDoorbellRegister _ q => decide (q < 2 ^ 32)
  | .fetchTurn _ l h => decide (l.length < 2 ^ 16) && decide (h < 2 ^ 32)
  | .completionPost _ h => decide (h < 2 ^ 32)
  | .uncorrectableError _ _ a => decide (a < 2 ^ 38)
  | .dmaHalt _ a _ => decide (a < 2 ^ 38)
  | .stagingError a => decide (a.addr < 2 ^ 38)
  | .dramScrub l => l.elsewhere.all fun a => decide (a < 2 ^ 38)
  | .rcRegisterRead _ o => decide (o < 2 ^ 20)
  | .loRegisterRead _ o => decide (o < 2 ^ 20)
  | .hiRegisterRead _ o => decide (o < 2 ^ 20)
  | .statusWindowWrite _ o _ => decide (o < 2 ^ 20)
  | .mirror _ n _ l d => place n l && d != []
  | .journal _ r => r.wf
  | .release _ n l k => place n l && decide (1 ≤ k)
  | .forward _ _ q _ => decide (q < 2 ^ 16)
  | .forwardCpl _ _ t k _ _ _ _ => decide (t < 8) && decide (k < 256)
  | .mediaReq _ _ d => d.wf
  | .mediaData _ _ _ d => d != []
  | .sync _ n l d last => place n l && (last || d != [])
  | .windowRead _ o n => decide (o < 2 ^ 32) && decide (n < 2 ^ 16)
  | .windowWrite _ o _ => decide (o < 2 ^ 32)
  | .bufferWrite _ o d => decide (o < 2 ^ 32) && decide (1 ≤ d.length) && decide (d.length ≤ 4092)
  | .recoveryWrite _ o d => decide (o < 2 ^ 32) && decide (1 ≤ d.length) && decide (d.length ≤ 4092)
  | .recoveryRun _ n => decide (n < 2 ^ 32)
  | .compFw _ _ _ _ n _ => decide (n < 2 ^ 32)
  | .smbusClockLowTimeout n => decide (1 ≤ n)
  | .wingsBlockReceived _ l _ => l != []
  | .aonPwrokRise | .sysPwrokAssert | .mainColdResetRelease | .sysPwrokDeassert | .brownout | .crystalQualified
   | .crystalQualifyTimeout | .pllLockTimeout | .bootRomSelfTest _ | .memoryFillDone _ | .dramChannelTrainingFail _ | .imageLoaded
   | .attestationKeyDerivation | .processorsRelease | .bootComplete | .watchdogService | .watchdogExpiry | .refclkLinkCheck _
   | .perstDeassert _ | .perstOverlap | .pwrfailDeassert | .deferredWarmReset | .configRequestReady _ | .ccEnSet _ _ _
   | .ccEnClear _ | .normalShutdown _ | .abruptShutdown _ | .functionLevelReset _ | .pmcsrD3hot _ _ _ | .pmcsrD0 _ _ _
   | .startSlotGrant | .startSlotFree _ | .startSlotTimeout _ | .ps3Entry | .ps3SampleLaneOff _ | .ps3Exit | .dramSelfRefreshExit
   | .dramSelfRefreshEntry | .powerStateChange | .engineGated _ | .commandLaneBlockSend _ | .packetResponseTimeout _ _ | .status _
   | .spinEvent _ | .regulationRecoveryTimeout _ | .missedCrossing _ | .spindleDriveRepeat _ | .listenWindowClose _
   | .shortBrakeDone _ | .spindleSenseResponse _ | .spindleSenseRetry _ | .alignmentDone _ | .forcedStep _ | .spinDown _
   | .spinAlert _ | .gateError _ | .fenced _ | .fenceResponse _ | .identReadResponse _ | .measureReadResponse _
   | .persReadResponse _ | .persReadRetry _ | .actParkResponse _ | .actParkRetry _ _ | .headConfigResponse _ | .fwWriteResponse _
   | .fwActivateResponse _ | .trainingStatePass _ | .trainingStateTimeout _ | .hotAdd _ | .jointResetRelease _ | .staleCrossing _ _
   | .servoReload _ | .compensatorEvaluation _ | .seekTimeout _ | .settleTimeout _ | .newTarget _ _ _ | .microwordExecute _ _
   | .operationTimeout _ | .sequencerFaultReinit _ | .bankSwitch _ | .bootPatchLoad | .bindingRequest _ _ | .engineReclaim
   | .backgroundPromotion _ | .waitAlarm _ | .recoveryStep _ _ | .recoveryBudgetExpiry _ | .engineFault _ | .engineSelfTestDone _ _
   | .encoderReady _ | .readSpill _ | .calibrationBreakStart _ | .calibrationPassDone _ _ _ | .breakAbandon _
   | .calibrationRecordWrite _ _ | .calibrationRecordLoad _ | .temperatureStale _ | .calReconstruct _ | .deferralExpiry
   | .destageRow _ _ _ | .mediaCacheRowWrite _ _ _ | .reconstructRead _ _ | .rowWriteDone _ _ _ | .memberFailed _
   | .memberReturned _ | .reallocation _ _ _ | .understudyStart | .stripeCommit _ _ _ | .rebuildCheckpoint | .rebuildResume
   | .rebuildBlocked | .returnPhaseCopy _ _ _ | .surfaceScanStrip _ _ _ _ | .fullHdaFormatBand _ _ _ | .sanitizeBand _
   | .firmwareStagingBlock _ | .cleaning | .reclamation _ | .mapPageRead _ _ | .writePointerRecovery _ _ | .effectiveLimitDrop
   | .dumpEndMark _ | .dumpRestore _ _ | .mapJournalReplay | .admission | .applyPoint _ _ | .coalescingTimer _ _ | .msixUnmask _ _
   | .anaChange _ _ _ | .read _ | .write _ | .writeZeroes _ | .zoneAppend _ | .datasetManagement _ | .flush _ | .zoneOpen _
   | .zoneClose _ | .zoneFinish _ | .zoneReset _ | .zoneOffline _ | .setZoneDescriptorExtension _ | .reportZones _
   | .extendedReportZones _ | .namespaceCreate _ | .namespaceDelete _ | .formatNvm _ | .sanitize _ | .identify _
   | .asynchronousEventRequest _ | .abort _ | .createIoSubmissionQueue _ | .createIoCompletionQueue _ | .deleteIoSubmissionQueue _
   | .deleteIoCompletionQueue _ | .doorbellBufferConfig _ | .queueResume _ | .getFeatures _ | .setFeaturesArbitration _
   | .setFeaturesPowerManagement _ | .setFeaturesTemperatureThreshold _ | .setFeaturesVolatileWriteCache _
   | .setFeaturesNumberOfQueues _ | .setFeaturesInterruptCoalescing _ | .setFeaturesInterruptVectorConfig _
   | .setFeaturesAsyncEventConfig _ | .setFeaturesFreezeOnError _ | .setFeaturesThrottleGrace _ | .setFeaturesRebuildShare _
   | .setFeaturesConcurrentWriteLimit _ | .setFeaturesCalibrationThreshold _ | .getLogPageErrorInformation _
   | .getLogPageSmartHealth _ | .getLogPageCommandsSupported _ | .getLogPageAna _ | .getLogPagePlaybill _ | .getLogPagePromptBook _
   | .getLogPageSledHealth _ | .getLogPagePortInventory _ | .longOperationStart _ | .longOperationSuspend _ | .longOperationResume _
   | .longOperationCancel _ | .longOperationQuery _ | .longOperationList _ | .setRebuildParameters _ | .portControlQuery _
   | .setSpeedLevel _ | .portControlPortReset _ | .clearFailedMark _ | .clearSpindleFault _ | .removeFromService _
   | .returnToService _ | .returnActuatorToService _ | .calibrationControlQuery _ | .calibrateOneHead _ | .calibrationDefer _
   | .calibrationSetParameters _ | .calibrationRestoreHead _ | .queryPoolParameters _ | .engineOffline _ | .engineSelfTest _ _
   | .engineToService _ _ | .setPoolParameters _ | .sequencerOffline _ | .sequencerSelfTest _ _ | .sequencerReinitialise _ _
   | .setSequencerParameters _ | .patchLoadFromHost _ | .patchLoadAndStore _ _ | .patchLoadFromNor _ | .patchClear _
   | .mapCacheQuery _ | .mapCacheEnable _ | .mapCacheDisable _ | .invalidateAll _ | .cleanAll _ | .preload _ | .lock _ | .unlock _
   | .invalidateRange _ | .mapCacheMiss _ _ | .recorderRead _ | .recorderClear _ | .thermalControlQuery _ | .excludeSensor _
   | .setHdaThresholds _ | .pairControlQuery _ | .handOverPorts _ | .pairRelease _ | .rejoin _ | .setHeartbeatMs _
   | .firmwareImageDownload _ | .firmwareCommitStage _ | .firmwareCommitStagePrefer _ | .firmwareCommitPrefer _
   | .securityReceiveDirectory _ | .securityReceivePlaybill _ | .securityReceiveCertificate _ | .securityReceiveStages _
   | .securitySendNonce _ | .quote _ | .keyManifestUpdate _ _ | .playbillSeal _ | .addendum _ | .playbillNorRetry _ | .norPreErase
   | .eventRecord _ | .recordClose | .dropWindowEnd | .storeProgram _ | .storeErase | .clearRemoval | .heldEventsWrite
   | .sensorConversion _ _ _ | .rateRisePersist _ | .graceExpiry | .stepRelease | .thermalRestart | .compensationTrim _
   | .mr4Poll _ _ _ _ | .zqCalibration _ | .dqsOscillatorRead _ _ | .sramScrub _ | .pageRetire _
   | .instructionFetchTrap _ _ | .wingsTraining _ | .wingsLinkReset | .retryUnanswered | .hello _ | .heartbeatSend | .heartbeat _
   | .peerNotAlive | .formingTimeout | .contend _ | .settlingEnd | .ack _ | .mediaDone _ _ _ | .handover _ _ _ _ | .retry _
   | .configRead _ _ | .configWrite _ _ _ | .deviceReset _ | .admin _ _ | .compFwAbandon | .nvmeMiBasicManagement _
   | .setEndpointId _ | .getEndpointId | .getEndpointUuid | .getMctpVersionSupport | .getMessageTypeSupport
   | .getVendorDefinedMessageSupport | .aonPwrokDeassert | .testEnChange _ | .jtagInstructionLoad _ | .dataTransferError _
   | .namespaceAttachment _ => true

end Sys2Proof
end

