-- ==== Sys2Proof/Tests/Slice0.lean ====
section
/-! SUPPORT. Tests: a witness for the premises of every clause of the statements, the worked examples of the spec, and an ill-formed
term for each check of WellFormed. -/

set_option maxRecDepth 8000
set_option Elab.async false
set_option linter.unusedVariables false

namespace Sys2Proof.Tests
open Sys2Proof.Machine
/-- A device that has reached boot complete, for tests. -/
def up : State := (State.reset.modAon fun a => { a with hold := .running, step := 11, fillComplete := true, dogArmed := true }).modBoot
  fun b => { b with released := true, complete := true }
/-- A device whose boot ROM runs at a step of Table 2-9, for tests. -/
def rom (n : Nat) : State := (State.reset.modAon fun a => { a with hold := .running, step := BitVec.ofNat 8 n, dramState := 3 }).modBoot
  fun b => { b with cold := true }
/-- The device with port 3 changed, for tests. -/
def port3 (f : Port → Port) : State := up.modPort 3 f
/-- A request and a received answer, for tests. -/
def asked (op tag : Nat) (sends : Nat) (payload : List Byte) : Request :=
  { packet := { opcode := BitVec.ofNat 8 op, tag := BitVec.ofNat 8 tag, status := 0, payload := payload }, sentAt := 0, sends := sends
    busy := 0, busyAt := none }
def answer (op tag status : Nat) (payload : List Byte) : Packet :=
  { opcode := BitVec.ofNat 8 (op + 0x80), tag := BitVec.ofNat 8 tag, status := BitVec.ofNat 8 status, payload := payload }
/-- The spindle table of the worked example of spec/04, for tests. -/
def table : SpinTable := { polePairs := 4, runLevel := 640, curve := [(0, 0), (48, 600), (512, 6000), (768, 8400), (1023, 9000)]
                           advance := List.replicate 16 100, senseWidth := 5000, senseMargin := 50, alignMs := 500, forcedAccel := 600
                           handoverRpm := 150, startDuty := 0x4000, runDuty := 0x6000, brakeDuty := 0x2000, kp := 1000, ki := 10
                           stopBrakeMs := 500 }
/-- The device with the spindle of port 3 changed, for tests. -/
def spin3 (f : Spin → Spin) : State := up.modSpin 3 fun v => f { v with table := some table }
/-- The same with a forced acceleration whose first step ends after a whole second. -/
def slow : SpinTable := { table with forcedAccel := 5 }
/-- A compensator block, a servo table and a format table, for tests. -/
def block : CompBlock := { three := false, outMin := -180, outMax := 180, swapSlew := 0, limit := 4000, b0 := 0x20000000
                           b1 := -0x36666666, b2 := 0x170A3D71, b3 := 0, a1 := -0x60000000, a2 := 0x20000000, a3 := 0 }
def profile : Profile := { accelMax := 100, seekMs := 50, settleMs := 10, points := [(0, 10), (100, 1000)] }
def servo : ServoTable := { wedges := 512, writeWindow := 200, readWindow := 400, writeRecover := 4, missingMax := 4, seekMin := 8
                            tfEntryCount := 4, tfExitCount := 4, entryDist := 8192, entryVel := 100, tfEntryPes := 300
                            tfEntryVel := 50, tfExitPes := 600, shockPes := 20000, shockVel := 20000, maGain := 0, crossFf := 0
                            home := 100, blocks := List.replicate 8 (block, block), profile0 := profile, profile1 := profile }
def format : FormatTable :=
  { zoneCount := 1, grayBits := 20, servoPairs := 2400, servoRate := 3000, syncOffset := 100, gateLead := 332, burstOffset := 200
    burstPairs := 100, gapPost := 64, gapPre := 64, servoSync := 0, dataSync := 0, heads := []
    zones := [{ firstTrack := 0, trackCount := 100000, sectors := 610, rate := 3000, preamble := 1568, sync := 32, body := 36818,
                postamble := 128, resync := 256, skew := 24, guard := 4 }] }
/-- The device with actuator 6 (port 3, side 0) changed and its tables in place, for tests. -/
def act6 (f : Act → Act) : State := (up.modPcal 3 fun c => { c with servo := some servo, format := some format }).modAct 6 f
/-- The same with the sequencer changed. -/
def seq6 (f : Seq → Seq) : State := (act6 fun x => x).modSeq 6 f
/-- An operation, for tests. -/
def job (write : Bool) : Descriptor :=
  { write := write, head := 1, track := 50, zone := 0, first := 0, count := 2, cls := 0, ctx := none, data := [] }
/-- A capture of that operation's second sector, for tests. -/
def capture : Capture :=
  { act := 6, head := 1, zone := 0, track := 50, sector := 1, address := 0, offsets := [], samples := [], cls := 0, ctx := none, at_ := 3
    step := 1, reread := 0 }
/-- A submission entry, a host command of queue sq at its context 7, and the device with it at hand, for tests. -/
def entry (opcode cdw10 cdw11 cdw12 : Nat) : SqEntry :=
  { opcode := BitVec.ofNat 8 opcode, cid := 1, nsid := 1, prp1 := 0, prp2 := 0, cdw10 := BitVec.ofNat 32 cdw10, cdw11 := BitVec.ofNat 32 cdw11
    cdw12 := BitVec.ofNat 32 cdw12, cdw13 := 0, cdw14 := 0, cdw15 := 0, data := [] }
def ctx (sq : Nat) (e : SqEntry) : Ctx :=
  { id := 7, origin := .host .a, sq := sq, entry := e, part := .none, stage := .admitted, adm := 5, ana := .optimized, wait := .none
    ns := 1, lba := 0, nlb := 0, update := false, fua := false, data := [], saved := [], got := [], spilled := false, failed := [], groups := (.optimized, .optimized), cpl := none
    order := 0, heldD3 := false, lost := false, waitAt := 0, fetchedAt := 0 }
def hosting (x : Ctx) (s : State) : State := { s with ctxs := [x], nextCtx := 8 }
/-- Calibration tables, a format of ten sectors a track, and the device with the calibration of actuator 6 changed, for tests. -/
def five : Five := { laser := 3000, sto := 4000, write := 5000, reader0 := 1500, reader1 := 1500 }
def flatEntry (v : Five) : CalEntry := { v0 := v, v1 := v, v2 := v, v3 := v, v4 := v }
def calTable : CalTable := { min := { laser := 0, sto := 0, write := 0, reader0 := 0, reader1 := 0 }
                             max := { laser := 10000, sto := 10000, write := 10000, reader0 := 4000, reader1 := 4000 }
                             step := { laser := 100, sto := 100, write := 100, reader0 := 40, reader1 := 40 }, entries := [flatEntry five] }
def small : FormatTable := { format with zones := format.zones.map fun z => { z with sectors := 10 } }
def cal6 (f : ActCal → ActCal) : State :=
  ((((act6 fun x => x).modPcal 3 fun c => { c with table := some calTable }).modSeq 6 fun q => { q with st := .idle }).modAcal 6 f)
/-- A conventional or zoned namespace on ten members, and a device with 32 members at work, for tests. -/
def space (zoned : Bool) : Ns :=
  { nsid := 1, zoned := zoned, narrow := true, nsze := 1310720, groups := [1], ana2 := false, attachA := true, attachB := true
    deleting := false, backing := none, ready := true }
def lane : Group := { number := 1, narrow := true, members := (fins 32).take 10, firstSlot := 0, ns := 1 }
def disk : Member := { Member.reset with st := .member, bands0 := 1000, bands1 := 1000 }
def sled (zoned : Bool) : State :=
  { up with
    ports := Vector.replicate 32 { Port.reset with
      train := 9, inService := true, obeyed := true, cmdUp := true, companion := { ident := [0, 0, 0, 0, 0, 0, 2, 12], measure := [] } }
    spins := Vector.replicate 32 { Spin.reset with st := .atSpeed }
    prot := { Prot.reset with members := Vector.replicate 32 disk, groups := [lane] }
    names := { Names.reset with nss := [space zoned], dirtyLimitMib := 16 } }
def zone1 (st : ZoneState) (wp rows : Nat) : Zone := { ns := 1, zone := 0, st := st, wp := wp, recWp := 0, recSt := .empty, rows := rows }
def dirty (lba : Nat) : Dirty := { ns := 1, lba := lba, data := 9, adm := 5, stored := false, carried := false }
def flight (data : List Blk) : RowFlight :=
  { ns := 1, zone := 0, row := 0, data := data, parity := [], pages := [], dirs := [], ents := [], places := [], moves := [] }
def cached (id : Nat) (kind : McKind) (blocks : List (Nat × Blk)) : McRow :=
  { id := id, ns := 1, kind := kind, blocks := blocks, parity := [], strips := ((fins 64).take 10).map fun a => (a, 0) }
def long (kind : Nat) (st : OpState) : LongOp :=
  { handle := 1, kind := kind, st := st, done := 0, total := 0, origin := 3, started := 0, result := 0, p0 := 0, p1 := 0, p2 := 0, p3 := 0
    cursor := 0, suspendAsked := false, cancelAsked := false, byPs3 := false, slot := false, prefer := false, from_ := 0, kept := 0
    image := [] }
def dumpedRow : McRow := cached 1 .dumpData [(dumpKey 0 1 3, 9)]
def dumpedMark : DumpMark := { rows := 2, digest := digest (indexBytes [dumpKey 0 1 3]) }
def dumped : State :=
  ((sled false).modProt fun p => { p with mcRows := [cached 0 .dumpIndex [(0, BitVec.ofNat 32768 (dumpKey 0 1 3))], dumpedRow] }).modCfg
    fun c => { c with dumpMark := some dumpedMark }
def restoring : State := dumped.modBoot fun b => { b with restored := false, complete := false }
/-- Port A ready, with its admin queues and one I/O queue pair on vector 3; its completion queue and the function changed. -/
def hostFn (k : CplQ → CplQ) (f : HostFn → HostFn) : State :=
  ((up.modAon fun a => { a with hostaEn := true, hostbEn := true }).modPins fun p => { p with perstA := false, perstB := false }).modFn .a
    fun x => f { x with
      cfgReady := true, cc := 0x460061, rdy := true, msixEnabled := true, sqs := [SubQ.fresh 0 256 0 0, SubQ.fresh 1 64 1 0]
      vecs := x.vecs.map fun y => { y with masked := false }
      cqs := [CplQ.fresh 0 256 0 true, k (CplQ.fresh 1 64 3 true)] }
/-- A device whose first firmware page, all zeros, has the digest that was recorded. -/
def mended : State :=
  (up.modNor fun n => { n with slotA := List.replicate 24 0 ++ [8, 0, 0, 0] ++ List.replicate 12 0 }).modIdent fun i =>
    { i with pages := [digest (List.replicate 4096 0)] }
/-- Stage Left of a pair with Wings up. -/
def duo (f : Pair → Pair) : State := (sled true).modPair fun p => f { p with
  mode := true, st := .paired, wings := 2, own := 0xFFFF, peerOwn := 0xFFFF0000, coordinator := true, peerSide := some true
  peerState := .paired, peerHeartbeatMs := 500, helloDone := true, peerAlive := true }
def helloMsg (st : PairState) : HelloMsg :=
  { msgSeq := 1, side := true, pairMode := true, state := st, bootCounter := 3, deviceId := 5, pairId := 0, highestEpoch := 6
    dirtyLimitMib := 16, heartbeatMs := 700, highestSeq := 0 }
def beat : HeartbeatMsg := { msgSeq := 1, state := .paired, epoch := 6, owned := 0xFFFF0000, groups := 2, dirtyBytes := 0 }
def asking : SentMsg := { type := 8, seq := 4, ns := 1, lba := 0, adm := 0, payload := [0, 0, 0, 0, 4, 202, 0, 0, 1], data := [], ctx := some 7 }
/-- A rebuild that runs, of the stripes of member 1, with the state of protection changed. -/
def rebuilding (f : Prot → Prot) : State :=
  { sled true with
    prot := f { (sled true).prot with rebuildPhase := 3, members := upd (sled true).prot.members 1 fun m => { m with st := .failed } }
    nor := { (sled true).nor with config := { (sled true).nor.config with ops := [long 1 .running] } } }
/-- A format of 50 bands a surface and its recipe, on every port of a state. -/
def laid (s : State) : State := { s with portCals := Vector.replicate 32 { PortCal.reset with
  format := some { format with zones := format.zones.map fun z => { z with trackCount := 3116 } }
  recipe := some { calTracks := 16, calZone := 0, elements := [], recipes := [] } } }
/-- Every head of a state calibrated at the temperature of its HDA, for tests. -/
def calm (s : State) : State :=
  { s with actCals := Vector.ofFn fun a : Fin 64 =>
      { ActCal.reset with heads := Vector.replicate 12 { HeadCal.reset with tCal := some (s.tf (portOf a)) } } }
/-- An addendum that port 3 waits for, for tests. -/
def due3 : Due := { port := some 3, ctx := 7, at_ := 0, patch := State.reset.patch.digest, entry := [], companion := { ident := [], measure := [] } }
theorem up_inv : up.Inv where
  filled := by decide
  complete := by decide
  ready := by decide
  bufs := by decide
  served := by unfold Port.servedTrained; decide +kernel
  therms := by decide
  holds := by decide
  ring := by decide
  ctxs := by decide

/-! Worked examples of the spec. -/

/-- spec/00, the example of the numbering rules: actuator 37 is on port P18, side 1. -/
theorem test_actuator37 : portOf 37 = 18 ∧ sideOf 37 = 1 := by decide
/-- spec/05, a track-follow set worked through: a steady input of 200 gives 100, 80, 72, 70 and 71. -/
theorem test_compensator :
    ((List.range 5).map fun n => ((List.range (n + 1)).foldl (fun c _ => block.eval c 200) Act.reset.vcm).y) = [100, 80, 72, 70, 71] := by
  decide +kernel
/-- spec/05, the same with 400: saturated at 180, then 130 and 109, and the mark clears after the third. -/
theorem test_compensator_saturates :
    ((List.range 3).map fun n => let c := (List.range (n + 1)).foldl (fun c _ => block.eval c 400) Act.reset.vcm; (c.y, c.sat)) =
      [(180, true), (130, true), (109, false)] := by
  decide +kernel
/-- spec/04, the worked example: level 640 is 7,200 rpm. -/
theorem test_speed_of_level : table.speed 640 = 7200 := by decide +kernel
/-- spec/08 Table 8-3: interpolation at 33.5 °C. -/
theorem test_interpolation :
    (CalEntry.at_ { flatEntry five with
      v1 := { laser := 3120, sto := 4400, write := 5200, reader0 := 1500, reader1 := 1520 }
      v2 := { laser := 3000, sto := 4520, write := 5080, reader0 := 1460, reader1 := 1490 } } 536) =
      { laser := 3052, sto := 4468, write := 5132, reader0 := 1477, reader1 := 1503 } := by
  decide +kernel
/-- spec/09, the example after R334: homes of the chunks of stripe 4 of group 3. -/
theorem test_homes :
    let g : Group := { number := 3, narrow := false, members := fins 32, firstSlot := 57, ns := 1 }
    ((List.range 19).map fun j => (g.home 4 j).1.val) = [20, 27, 2, 9, 16, 23, 30, 5, 12, 19, 26, 1, 8, 15, 22, 29, 4, 11, 18] ∧
      ((List.range 19).all fun j => (g.home 4 j).2 == 59) = true := by
  decide +kernel
/-- spec/09 R348: the sectors behind two slipped ones move up by one for each. -/
theorem test_slips : (List.range 4).map (slipTo [1, 3]) = [0, 2, 4, 5] := by decide
/-- An idle step from reset: one tick (log 2). -/
theorem test_reset_idle : ∃ t, step State.reset = .next t ∧ t.now = State.reset.now + Config.tick := ⟨_, rfl, rfl⟩
/-- spec/02 R66: a mismatch in the SRAM fill, through the step. -/
theorem test_step_mismatch :
    (match step { (rom 4).modAon (fun a => { a with fill := .sram }) with pending := [.memoryFillDone true] } with
      | .next t => t.aon.error
      | _ => 0) = 5 := by
  decide +kernel

/-! An ill-formed term for each check of WellFormed, and a well-formed one of its kind. -/

theorem test_ill_formed_dramTrainingDone : WellFormed (.dramTrainingDone [16] [some 16]) = false := by decide +kernel
theorem test_ill_formed_moduleLoad : WellFormed (.moduleLoad []) = false := by decide +kernel
theorem test_ill_formed_perstAssert : WellFormed (.perstAssert .a 0) = false := by decide +kernel
theorem test_ill_formed_lineBlockReceived : WellFormed (.lineBlockReceived 3 [] ⟨{ sync := true, time := 0, track := 5, wedge := 1, amp0 := 0, amp1 := 0, frac0 := 0, frac1 := 0 }, false⟩) = false := by decide +kernel
theorem test_ill_formed_clockPresentSet : WellFormed (.clockPresentSet 3 0) = false := by decide +kernel
theorem test_ill_formed_clockPresentClear : WellFormed (.clockPresentClear 3 0) = false := by decide +kernel
theorem test_ill_formed_hotRemove : WellFormed (.hotRemove 3 0) = false := by decide +kernel
theorem test_ill_formed_pulseTransfer : WellFormed (.pulseTransfer (.port 3) ⟨0, 0⟩) = false := by decide +kernel
theorem test_ill_formed_descriptorQueued : WellFormed (.descriptorQueued 6 ⟨.host, { write := true, head := 1, track := 50, zone := 0, first := 0, count := 2, cls := 0, ctx := none, data := [] }⟩) = false := by decide +kernel
theorem test_ill_formed_sourceRunRead : WellFormed (.sourceRunRead 0 0 0 [(32, 0)]) = false := by decide +kernel
theorem test_ill_formed_sectorDecoded : WellFormed (.sectorDecoded 2 65536 true) = false := by decide +kernel
theorem test_ill_formed_mediaReq : WellFormed (.mediaReq 1 6 { write := true, head := 1, track := 50, zone := 0, first := 0, count := 2, cls := 0, ctx := none, data := [] }) = false := by decide +kernel
theorem test_ill_formed_powerFailDump : WellFormed (.powerFailDump 0) = false := by decide +kernel
theorem test_ill_formed_sqTailDoorbell : WellFormed (.sqTailDoorbell .a 200000 5 0) = false := by decide +kernel
theorem test_ill_formed_cqHeadDoorbell : WellFormed (.cqHeadDoorbell .a 1 (2 ^ 32) 0) = false := by decide +kernel
theorem test_ill_formed_invalidDoorbellRegister : WellFormed (.invalidDoorbellRegister .a (2 ^ 32)) = false := by decide +kernel
theorem test_ill_formed_fetchTurn : WellFormed (.fetchTurn .a [] (2 ^ 32)) = false := by decide +kernel
theorem test_ill_formed_completionPost : WellFormed (.completionPost .a (2 ^ 32)) = false := by decide +kernel
theorem test_ill_formed_mirror : WellFormed (.mirror 0 1 0 7 []) = false := by decide +kernel
theorem test_ill_formed_journal : WellFormed (.journal 0 (.map (2 ^ 32) 0 0)) = false := by decide +kernel
theorem test_ill_formed_release : WellFormed (.release 0 1 7 0) = false := by decide +kernel
theorem test_ill_formed_sync : WellFormed (.sync 0 1 7 [] false) = false := by decide +kernel
theorem test_ill_formed_forward : WellFormed (.forward 0 .a 65536 { opcode := 2, cid := 1, nsid := 1, prp1 := 0, prp2 := 0, cdw10 := 0, cdw11 := 0, cdw12 := 0, cdw13 := 0, cdw14 := 0, cdw15 := 0, data := [] }) = false := by decide +kernel
theorem test_ill_formed_forwardCpl : WellFormed (.forwardCpl 0 7 8 0 0 0 [] []) = false := by decide +kernel
theorem test_ill_formed_mediaData : WellFormed (.mediaData 0 0 0 []) = false := by decide +kernel
theorem test_ill_formed_windowRead : WellFormed (.windowRead 9 0 65536) = false := by decide +kernel
theorem test_ill_formed_windowWrite : WellFormed (.windowWrite 9 (2 ^ 32) 0) = false := by decide +kernel
theorem test_ill_formed_bufferWrite : WellFormed (.bufferWrite 9 0 []) = false := by decide +kernel
theorem test_ill_formed_recoveryWrite : WellFormed (.recoveryWrite 9 0 []) = false := by decide +kernel
theorem test_ill_formed_recoveryRun : WellFormed (.recoveryRun 9 (2 ^ 32)) = false := by decide +kernel
theorem test_ill_formed_compFw : WellFormed (.compFw 9 3 true false (2 ^ 32) 0) = false := by decide +kernel
theorem test_ill_formed_uncorrectableError : WellFormed (.uncorrectableError .firmwareData true (2 ^ 38)) = false := by decide +kernel
theorem test_ill_formed_dmaHalt : WellFormed (.dmaHalt 1 (2 ^ 38) ⟨false, .other⟩) = false := by decide +kernel
theorem test_ill_formed_stagingError : WellFormed (.stagingError ⟨6, (2 ^ 38)⟩) = false := by decide +kernel
theorem test_ill_formed_dramScrub : WellFormed (.dramScrub ⟨false, [2 ^ 38]⟩) = false := by decide +kernel
theorem test_ill_formed_rcRegisterRead : WellFormed (.rcRegisterRead .service (2 ^ 20)) = false := by decide +kernel
theorem test_ill_formed_loRegisterRead : WellFormed (.loRegisterRead .service (2 ^ 20)) = false := by decide +kernel
theorem test_ill_formed_hiRegisterRead : WellFormed (.hiRegisterRead .service (2 ^ 20)) = false := by decide +kernel
theorem test_ill_formed_statusWindowWrite : WellFormed (.statusWindowWrite .service (2 ^ 20) 0) = false := by decide +kernel
theorem test_ill_formed_smbusClockLowTimeout : WellFormed (.smbusClockLowTimeout 0) = false := by decide +kernel
theorem test_ill_formed_wingsBlockReceived : WellFormed (.wingsBlockReceived 0 [] false) = false := by decide +kernel
theorem test_well_formed : WellFormed (.dramTrainingDone (List.replicate 8 16) (List.replicate 8 none)) = true := by decide
theorem test_well_formed_block : WellFormed (.lineBlockReceived 3 (List.replicate 272 0)
    ⟨{ sync := true, time := 0, track := 5, wedge := 1, amp0 := 0, amp1 := 0, frac0 := 0, frac1 := 0 }, false⟩) = true := by decide +kernel

/-! Witnesses: each premise list of a clause is met by a state and operands. -/

theorem witness_IdleStep_1 : ∃ s : State, s.pending = [] :=
  ⟨State.reset, rfl⟩
theorem witness_AdminCommands_1 : ∃ (s : State) (c : Nat) (x : Ctx) (f : Fn), AtHand s c (isAdminOp 0x06) x ∧ x.origin = .host f ∧ bits
  x.entry.cdw10 7 0 = 1 :=
  ⟨hosting (ctx 0 (entry 6 1 0 0)) (hostFn id id), 7, ctx 0 (entry 6 1 0 0), .a, ⟨by exact ⟨by decide, by decide, by decide, .a, rfl⟩, by decide +kernel⟩⟩
theorem witness_AdminCommands_2 : ∃ (s : State) (c : Nat) (x : Ctx) (f : Fn), AtHand s c (isAdminOp 0x06) x ∧ x.origin = .host f ∧ bits
  x.entry.cdw10 7 0 = 2 :=
  ⟨hosting (ctx 0 (entry 6 2 0 0)) (hostFn id id), 7, ctx 0 (entry 6 2 0 0), .a, ⟨by exact ⟨by decide, by decide, by decide, .a, rfl⟩, by decide +kernel⟩⟩
theorem witness_AdminCommands_3 : ∃ (s : State) (c : Nat) (x : Ctx) (f : Fn), AtHand s c (isAdminOp 0x06) x ∧ x.origin = .host f ∧
  knownCns.contains (bits x.entry.cdw10 7 0) = false :=
  ⟨hosting (ctx 0 (entry 6 4 0 0)) (hostFn id id), 7, ctx 0 (entry 6 4 0 0), .a, ⟨by exact ⟨by decide, by decide, by decide, .a, rfl⟩, by decide +kernel⟩⟩
theorem witness_AdminCommands_4 : ∃ (s : State) (c : Nat) (x : Ctx) (f : Fn), AtHand s c (isAdminOp 0x0C) x ∧ x.origin = .host f ∧ (s.fn
  f).aers.length < 16 ∧ (s.fn f).events = [] :=
  ⟨hosting (ctx 0 (entry 12 0 0 0)) (hostFn id id), 7, ctx 0 (entry 12 0 0 0), .a, ⟨by exact ⟨by decide, by decide, by decide, .a, rfl⟩, by decide +kernel⟩⟩
theorem witness_AdminCommands_5 : ∃ (s : State) (c : Nat) (x : Ctx) (f : Fn), AtHand s c (isAdminOp 0x0C) x ∧ x.origin = .host f ∧ 16 ≤
  (s.fn f).aers.length :=
  ⟨hosting (ctx 0 (entry 12 0 0 0)) (hostFn id fun y => { y with aers := List.range 16 }), 7, ctx 0 (entry 12 0 0 0), .a, ⟨by exact ⟨by decide, by decide, by decide, .a, rfl⟩, by decide +kernel⟩⟩
theorem witness_AdminCommands_6 : ∃ (s : State) (c : Nat) (x : Ctx) (f : Fn), AtHand s c (isAdminOp 0x08) x ∧ x.origin = .host f ∧
  s.abortsBefore x < 8 :=
  ⟨hosting (ctx 0 (entry 8 0 0 0)) (hostFn id id), 7, ctx 0 (entry 8 0 0 0), .a, ⟨by exact ⟨by decide, by decide, by decide, .a, rfl⟩, by decide +kernel⟩⟩
theorem witness_AdminCommands_7 : ∃ (s : State) (c : Nat) (x : Ctx) (f : Fn), AtHand s c (isAdminOp 0x01) x ∧ x.origin = .host f ∧
  queueBad x.entry ((s.fn f).sq? (qidOf x.entry)).isSome (bits (s.fn f).cc 19 16 == 6) = none ∧ bits x.entry.cdw11 31 16 ≠ 0 ∧ ((s.fn
  f).cq? (bits x.entry.cdw11 31 16)).isSome = true :=
  ⟨hosting (ctx 0 (entry 1 0x003F0002 0x00010001 0)) (hostFn id id), 7, ctx 0 (entry 1 0x003F0002 0x00010001 0), .a, ⟨by exact ⟨by decide, by decide, by decide, .a, rfl⟩, by decide +kernel⟩⟩
theorem witness_AdminCommands_8 : ∃ (s : State) (c : Nat) (x : Ctx) (f : Fn), AtHand s c (isAdminOp 0x01) x ∧ x.origin = .host f ∧
  queueBad x.entry ((s.fn f).sq? (qidOf x.entry)).isSome (bits (s.fn f).cc 19 16 == 6) = none ∧ bits x.entry.cdw11 31 16 ≠ 0 ∧ (s.fn
  f).cq? (bits x.entry.cdw11 31 16) = none :=
  ⟨hosting (ctx 0 (entry 1 0x003F0002 0x00090001 0)) (hostFn id id), 7, ctx 0 (entry 1 0x003F0002 0x00090001 0), .a, ⟨by exact ⟨by decide, by decide, by decide, .a, rfl⟩, by decide +kernel⟩⟩
theorem witness_AdminCommands_9 : ∃ (s : State) (c : Nat) (x : Ctx) (f : Fn) (v : Fin 65), AtHand s c (isAdminOp 0x05) x ∧ x.origin =
  .host f ∧ queueBad x.entry ((s.fn f).cq? (qidOf x.entry)).isSome (bits (s.fn f).cc 23 20 == 4) = none ∧ bits x.entry.cdw11 31 16 =
  v.val :=
  ⟨hosting (ctx 0 (entry 5 0x003F0002 0x00050003 0)) (hostFn id id), 7, ctx 0 (entry 5 0x003F0002 0x00050003 0), .a, 5, ⟨by exact ⟨by decide, by decide, by decide, .a, rfl⟩, by decide +kernel⟩⟩
theorem witness_AdminCommands_10 : ∃ (s : State) (c : Nat) (x : Ctx) (f : Fn), AtHand s c (isAdminOp 0x05) x ∧ x.origin = .host f ∧
  queueBad x.entry ((s.fn f).cq? (qidOf x.entry)).isSome (bits (s.fn f).cc 23 20 == 4) = none ∧ 64 < bits x.entry.cdw11 31 16 :=
  ⟨hosting (ctx 0 (entry 5 0x003F0002 0x00410003 0)) (hostFn id id), 7, ctx 0 (entry 5 0x003F0002 0x00410003 0), .a, ⟨by exact ⟨by decide, by decide, by decide, .a, rfl⟩, by decide +kernel⟩⟩
theorem witness_AdminCommands_11 : ∃ (s : State) (c : Nat) (x : Ctx) (f : Fn) (y : SubQ), AtHand s c (isAdminOp 0x00) x ∧ x.origin =
  .host f ∧ s.ctxs = [x] ∧ s.power.entering = false ∧ (s.fn f).sq? (qidOf x.entry) = some y ∧ qidOf x.entry ≠ 0 ∧ y.deleting = false ∧
  x.sq ≠ qidOf x.entry :=
  ⟨hosting (ctx 0 (entry 0 1 0 0)) (hostFn id id), 7, ctx 0 (entry 0 1 0 0), .a, SubQ.fresh 1 64 1 0, ⟨by exact ⟨by decide, by decide, by decide, .a, rfl⟩, by decide +kernel⟩⟩
theorem witness_AdminCommands_12 : ∃ (s : State) (c : Nat) (x : Ctx) (f : Fn), AtHand s c (isAdminOp 0x00) x ∧ x.origin = .host f ∧ qidOf
  x.entry = 0 :=
  ⟨hosting (ctx 0 (entry 0 0 0 0)) (hostFn id id), 7, ctx 0 (entry 0 0 0 0), .a, ⟨by exact ⟨by decide, by decide, by decide, .a, rfl⟩, by decide +kernel⟩⟩
theorem witness_AdminCommands_13 : ∃ (s : State) (c : Nat) (x : Ctx) (f : Fn), AtHand s c (isAdminOp 0x04) x ∧ x.origin = .host f ∧ qidOf
  x.entry ≠ 0 ∧ ((s.fn f).cq? (qidOf x.entry)).isSome = true ∧ ((s.fn f).sqs.any fun y => y.cq == qidOf x.entry) = false :=
  ⟨hosting (ctx 0 (entry 4 1 0 0)) (hostFn id fun y => { y with sqs := [SubQ.fresh 0 256 0 0] }), 7, ctx 0 (entry 4 1 0 0), .a, ⟨by exact ⟨by decide, by decide, by decide, .a, rfl⟩, by decide +kernel⟩⟩
theorem witness_AdminCommands_14 : ∃ (s : State) (c : Nat) (x : Ctx) (f : Fn), AtHand s c (isAdminOp 0x04) x ∧ x.origin = .host f ∧ qidOf
  x.entry ≠ 0 ∧ ((s.fn f).cq? (qidOf x.entry)).isSome = true ∧ ((s.fn f).sqs.any fun y => y.cq == qidOf x.entry) = true :=
  ⟨hosting (ctx 0 (entry 4 1 0 0)) (hostFn id id), 7, ctx 0 (entry 4 1 0 0), .a, ⟨by exact ⟨by decide, by decide, by decide, .a, rfl⟩, by decide +kernel⟩⟩
theorem witness_AdminCommands_15 : ∃ (s : State) (c : Nat) (x : Ctx) (f : Fn), AtHand s c (isAdminOp 0x7C) x ∧ x.origin = .host f :=
  ⟨hosting (ctx 0 (entry 0x7C 0 0 0)) (hostFn id id), 7, ctx 0 (entry 0x7C 0 0 0), .a, ⟨by exact ⟨by decide, by decide, by decide, .a, rfl⟩, by decide +kernel⟩⟩
theorem witness_AdminCommands_16 : ∃ (s : State) (c : Nat) (x : Ctx) (f : Fn) (y : SubQ), AtHand s c (isAdminOp 0xC1) x ∧ x.origin =
  .host f ∧ qsizeOf x.entry = 0 ∧ (s.fn f).sq? (qidOf x.entry) = some y ∧ qidOf x.entry ≠ 0 ∧ y.deleting = false ∧ y.frozen = true ∧
  y.freezeCount = x.entry.cdw12 ++ x.entry.cdw11 ∧ (s.fn f).returned.contains y.freezeCount = true :=
  ⟨hosting (ctx 0 (entry 0xC1 1 5 0)) (hostFn id fun y => { y with returned := [5], sqs := [{ SubQ.fresh 1 64 1 0 with frozen := true, freezeCount := 5 }] }), 7, ctx 0 (entry 0xC1 1 5 0), .a, { SubQ.fresh 1 64 1 0 with frozen := true, freezeCount := 5 }, ⟨by exact ⟨by decide, by decide, by decide, .a, rfl⟩, by decide +kernel⟩⟩
theorem witness_AdminCommands_17 : ∃ (s : State) (c : Nat) (x : Ctx) (f : Fn) (y : SubQ), AtHand s c (isAdminOp 0xC1) x ∧ x.origin =
  .host f ∧ qsizeOf x.entry = 0 ∧ (s.fn f).sq? (qidOf x.entry) = some y ∧ qidOf x.entry ≠ 0 ∧ y.deleting = false ∧ y.frozen = true ∧
  (y.freezeCount ≠ x.entry.cdw12 ++ x.entry.cdw11 ∨ (s.fn f).returned.contains y.freezeCount = false) :=
  ⟨hosting (ctx 0 (entry 0xC1 1 5 0)) (hostFn id fun y => { y with returned := [5], sqs := [{ SubQ.fresh 1 64 1 0 with frozen := true, freezeCount := 6 }] }), 7, ctx 0 (entry 0xC1 1 5 0), .a, { SubQ.fresh 1 64 1 0 with frozen := true, freezeCount := 6 }, ⟨by exact ⟨by decide, by decide, by decide, .a, rfl⟩, by decide +kernel⟩⟩
theorem witness_AdminCommands_18 : ∃ (s : State) (c : Nat) (x : Ctx) (f : Fn), AtHand s c (isAdminOp 0x08) x ∧ x.origin = .host f ∧ 8 ≤
  s.abortsBefore x :=
  ⟨{ up with ctxs := (ctx 0 (entry 8 1 0 0)) :: List.replicate 8 ({ ctx 0 (entry 8 0 0 0) with id := 8, adm := 1 }), nextCtx := 9 }, 7, (ctx 0 (entry 8 1 0 0)), .a, ⟨by exact ⟨by decide, by decide, by decide, .a, rfl⟩, by decide +kernel⟩⟩
theorem witness_AdminCommands_19 : ∃ (s : State) (c : Nat) (x : Ctx) (f : Fn) (bs : List Byte), AtHand s c (isAdminOp 0x06) x ∧ x.origin
  = .host f ∧ knownCns.contains (bits x.entry.cdw10 7 0) = true ∧ s.identifyData f (bits x.entry.cdw10 7 0) x.entry.nsid.toNat (bits
  x.entry.cdw11 31 24) (bits x.entry.cdw10 31 16) = some bs :=
  ⟨hosting (ctx 0 (entry 6 2 0 0)) (sled true), 7, (ctx 0 (entry 6 2 0 0)), .a, nsidList [] 1, ⟨by exact ⟨by decide, by decide, by decide, .a, rfl⟩, by decide +kernel⟩⟩
theorem witness_AdminCommands_20 : ∃ (s : State) (c : Nat) (x : Ctx) (f : Fn), AtHand s c (isAdminOp 0x06) x ∧ x.origin = .host f ∧
  knownCns.contains (bits x.entry.cdw10 7 0) = true ∧ s.identifyData f (bits x.entry.cdw10 7 0) x.entry.nsid.toNat (bits x.entry.cdw11 31
  24) (bits x.entry.cdw10 31 16) = none :=
  ⟨hosting (ctx 0 ({ entry 6 0 0 0 with nsid := 9 })) (sled true), 7, (ctx 0 ({ entry 6 0 0 0 with nsid := 9 })), .a, ⟨by exact ⟨by decide, by decide, by decide, .a, rfl⟩, by decide +kernel⟩⟩
theorem witness_AdminCommands_21 : ∃ (s : State) (c : Nat) (x : Ctx) (f : Fn) (r : Cpl), AtHand s c (isAdminOp 0x01) x ∧ x.origin = .host
  f ∧ queueBad x.entry ((s.fn f).sq? (qidOf x.entry)).isSome (bits (s.fn f).cc 19 16 == 6) = some r :=
  ⟨hosting (ctx 0 (entry 1 0 0 0)) (hostFn id id), 7, (ctx 0 (entry 1 0 0 0)), .a, Cpl.badQid, ⟨by exact ⟨by decide, by decide, by decide, .a, rfl⟩, rfl, rfl⟩⟩
theorem witness_AdminCommands_22 : ∃ (s : State) (c : Nat) (x : Ctx) (f : Fn) (r : Cpl), AtHand s c (isAdminOp 0x05) x ∧ x.origin = .host
  f ∧ queueBad x.entry ((s.fn f).cq? (qidOf x.entry)).isSome (bits (s.fn f).cc 23 20 == 4) = some r :=
  ⟨hosting (ctx 0 (entry 5 0 0 0)) (hostFn id id), 7, (ctx 0 (entry 5 0 0 0)), .a, Cpl.badQid, ⟨by exact ⟨by decide, by decide, by decide, .a, rfl⟩, rfl, rfl⟩⟩
theorem witness_AdminCommands_23 : ∃ (s : State) (c : Nat) (x : Ctx) (f : Fn), AtHand s c (isAdminOp 0x04) x ∧ x.origin = .host f ∧
  (qidOf x.entry = 0 ∨ (s.fn f).cq? (qidOf x.entry) = none) :=
  ⟨hosting (ctx 0 (entry 4 0 0 0)) (hostFn id id), 7, (ctx 0 (entry 4 0 0 0)), .a, ⟨by exact ⟨by decide, by decide, by decide, .a, rfl⟩, by decide +kernel⟩⟩
theorem witness_AdminCommands_24 : ∃ (s : State) (c : Nat) (x : Ctx) (f : Fn) (y : SubQ), AtHand s c (isAdminOp 0xC1) x ∧ x.origin =
  .host f ∧ qsizeOf x.entry = 0 ∧ (s.fn f).sq? (qidOf x.entry) = some y ∧ qidOf x.entry ≠ 0 ∧ y.deleting = false ∧ y.frozen = false :=
  ⟨hosting (ctx 0 (entry 0xC1 1 0 0)) (hostFn id id), 7, (ctx 0 (entry 0xC1 1 0 0)), .a, SubQ.fresh 1 64 1 0, ⟨by exact ⟨by decide, by decide, by decide, .a, rfl⟩, by decide +kernel⟩⟩
theorem witness_NamespaceCommands_1 : ∃ (s : State) (c : Nat) (x : Ctx) (f : Fn) (k : Nat) (u : State) (gs : List Nat), AtHand s c ((fun
  x => isAdminOp 0x0D x && bits x.entry.cdw10 3 0 == 0)) x ∧ x.origin = .host f ∧ s.createBad (createReq x.entry) = none ∧ k = ceilDiv
  (createReq x.entry).zones s.presentMembers.length ∧ s.allocGroups s.freeNsid ((createReq x.entry).fmt == 1) k = some (u, gs) :=
  ⟨hosting (ctx 0 ({ entry 0x0D 0 (2 * 2 ^ 24) 0 with data := packBytes [(8, 131072), (8, 131072), (10, 0), (1, 1), (5, 0)] })) ({ sled true with names := Names.reset, prot := { (sled true).prot with groups := [] } }), 7, ctx 0 ({ entry 0x0D 0 (2 * 2 ^ 24) 0 with data := packBytes [(8, 131072), (8, 131072), (10, 0), (1, 1), (5, 0)] }), .a, 1, (((hosting (ctx 0 ({ entry 0x0D 0 (2 * 2 ^ 24) 0 with data := packBytes [(8, 131072), (8, 131072), (10, 0), (1, 1), (5, 0)] })) { sled true with names := Names.reset, prot := { (sled true).prot with groups := [] } }).allocGroups 1 true 1).getD (State.reset, [])).1, [0], ⟨by exact ⟨by decide, by decide, by decide, .a, rfl⟩, by decide +kernel, by decide +kernel, by decide +kernel, by rfl⟩⟩
theorem witness_NamespaceCommands_2 : ∃ (s : State) (c : Nat) (x : Ctx) (f : Fn), AtHand s c ((fun x => isAdminOp 0x0D x && bits
  x.entry.cdw10 3 0 == 1)) x ∧ x.origin = .host f ∧ s.ctxs = [x] ∧ x.entry.nsid ≠ 0xFFFFFFFF ∧ (s.names.nss.any fun n => n.nsid ==
  x.entry.nsid.toNat && !n.deleting) = true :=
  ⟨hosting (ctx 0 (entry 0x0D 1 0 0)) (sled true), 7, ctx 0 (entry 0x0D 1 0 0), .a, ⟨by exact ⟨by decide, by decide, by decide, .a, rfl⟩, by decide +kernel⟩⟩
theorem witness_NamespaceCommands_3 : ∃ (s : State) (c : Nat) (x : Ctx) (f : Fn), AtHand s c ((fun x => isAdminOp 0x0D x && bits
  x.entry.cdw10 3 0 == 1)) x ∧ x.origin = .host f ∧ x.entry.nsid ≠ 0xFFFFFFFF ∧ (s.names.nss.any fun n => n.nsid == x.entry.nsid.toNat &&
  !n.deleting) = false :=
  ⟨hosting (ctx 0 ({ entry 0x0D 1 0 0 with nsid := 9 })) (sled true), 7, ctx 0 ({ entry 0x0D 1 0 0 with nsid := 9 }), .a, ⟨by exact ⟨by decide, by decide, by decide, .a, rfl⟩, by decide +kernel⟩⟩
theorem witness_NamespaceCommands_4 : ∃ (s : State) (c : Nat) (x : Ctx) (f : Fn), AtHand s c (isAdminOp 0x15) x ∧ x.origin = .host f ∧
  (s.names.nss.any fun y => y.nsid == x.entry.nsid.toNat && !y.deleting) = true ∧ bits x.entry.cdw10 3 0 = 0 ∧ field x.entry.data 0 2 = 1
  ∧ field x.entry.data 2 2 = s.cntlid .b ∧ s.mirrors = false ∧ (s.fn .b).asyncCfg.getLsbD 8 = false :=
  ⟨hosting (ctx 0 ({ entry 0x15 0 0 0 with data := packBytes [(2, 1), (2, 2)] })) (sled true), 7, ctx 0 ({ entry 0x15 0 0 0 with data := packBytes [(2, 1), (2, 2)] }), .a, ⟨by exact ⟨by decide, by decide, by decide, .a, rfl⟩, by decide +kernel⟩⟩
theorem witness_NamespaceCommands_5 : ∃ (s : State) (c : Nat) (x : Ctx) (f : Fn) (n : Ns), AtHand s c (isAdminOp 0x80) x ∧ x.origin =
  .host f ∧ s.ctxs = [x] ∧ (s.names.nss.find? fun n => n.nsid == x.entry.nsid.toNat && !n.deleting) = some n ∧ s.ns? x.ns = some n ∧
  n.zoned = false ∧ x.update = true ∧ bits x.entry.cdw10 3 0 = bit n.narrow ∧ bits x.entry.cdw10 7 5 = 0 ∧ bits x.entry.cdw10 11 9 = 0 ∧
  s.mirrors = false ∧ anaBad x.ana = none ∧ s.pagesFit x n = true :=
  ⟨hosting ({ (ctx 0 (entry 0x80 1 0 0)) with update := true, nlb := 5 }) ({ sled false with names := { (sled false).names with nss := [{ space false with nsze := 5 }], buffer := [dirty 3], map := [{ ns := 1, lba := 3, entry := mapWord 1 0 }] } }), 7, { (ctx 0 (entry 0x80 1 0 0)) with update := true, nlb := 5 }, .a, { space false with nsze := 5 }, ⟨by exact ⟨by decide, by decide, by decide, .a, rfl⟩, by decide +kernel⟩⟩
theorem witness_NamespaceCommands_6 : ∃ (s : State) (c : Nat) (x : Ctx) (f : Fn), AtHand s c (isAdminOp 0x84) x ∧ x.origin = .host f ∧
  s.ctxs = [x] ∧ x.update = true ∧ s.power.entering = false ∧ bits x.entry.cdw10 2 0 = 3 ∧ s.activeOps 2 = [] ∧ s.placeFull 2 = false :=
  ⟨hosting ({ ctx 0 (entry 0x84 3 0 0) with update := true }) (hostFn id id), 7, { ctx 0 (entry 0x84 3 0 0) with update := true }, .a, ⟨by exact ⟨by decide, by decide, by decide, .a, rfl⟩, by decide +kernel⟩⟩
theorem witness_NamespaceCommands_7 : ∃ (s : State) (c : Nat) (x : Ctx) (f : Fn), AtHand s c (isAdminOp 0x84) x ∧ x.origin = .host f ∧
  s.ctxs = [x] ∧ x.update = true ∧ s.power.entering = false ∧ bits x.entry.cdw10 2 0 = 3 ∧ s.activeOps 2 ≠ [] :=
  ⟨hosting ({ ctx 0 (entry 0x84 3 0 0) with update := true }) (up.modCfg fun c => { c with ops := [long 2 .running] }), 7, { ctx 0 (entry 0x84 3 0 0) with update := true }, .a, ⟨by exact ⟨by decide, by decide, by decide, .a, rfl⟩, by decide +kernel⟩⟩
theorem witness_NamespaceCommands_8 : ∃ (s : State) (c : Nat) (x : Ctx) (f : Fn) (n : Ns), AtHand s c (isAdminOp 0x80) x ∧ x.origin =
  .host f ∧ s.ctxs = [x] ∧ (s.names.nss.find? fun n => n.nsid == x.entry.nsid.toNat && !n.deleting) = some n ∧ s.ns? x.ns = some n ∧
  n.zoned = false ∧ x.update = true ∧ bits x.entry.cdw10 3 0 = bit n.narrow ∧ bits x.entry.cdw10 7 5 = 0 ∧ bits x.entry.cdw10 11 9 = 0 ∧
  s.mirrors = true ∧ anaBad x.ana = none ∧ s.pagesFit x n = true :=
  ⟨hosting ({ (ctx 0 (entry 0x80 1 0 0)) with update := true, nlb := 5 }) ({ duo id with names := { (sled false).names with nss := [{ space false with nsze := 5 }], buffer := [dirty 3], map := [{ ns := 1, lba := 3, entry := mapWord 1 0 }] } }), 7, { (ctx 0 (entry 0x80 1 0 0)) with update := true, nlb := 5 }, .a, { space false with nsze := 5 }, ⟨by exact ⟨by decide, by decide, by decide, .a, rfl⟩, by decide +kernel⟩⟩
theorem witness_NamespaceCommands_9 : ∃ (s : State) (c : Nat) (x : Ctx) (f : Fn) (r : Cpl), AtHand s c (fun x => isAdminOp 0x0D x && bits
  x.entry.cdw10 3 0 == 0) x ∧ x.origin = .host f ∧ s.createBad (createReq x.entry) = some r :=
  ⟨hosting (ctx 0 (entry 0x0D 0 0 0)) (hostFn id id), 7, (ctx 0 (entry 0x0D 0 0 0)), .a, Cpl.badData, ⟨by exact ⟨by decide, by decide, by decide, .a, rfl⟩, rfl, rfl⟩⟩
theorem witness_NamespaceCommands_10 : ∃ (s : State) (c : Nat) (x : Ctx) (f : Fn), AtHand s c (isAdminOp 0x15) x ∧ x.origin = .host f ∧
  (s.names.nss.any fun y => y.nsid == x.entry.nsid.toNat && !y.deleting) = true ∧ bits x.entry.cdw10 3 0 = 1 ∧ field x.entry.data 0 2 = 1
  ∧ field x.entry.data 2 2 = s.cntlid .b ∧ s.mirrors = false ∧ (s.fn .b).asyncCfg.getLsbD 8 = false :=
  ⟨hosting (ctx 0 ({ entry 0x15 1 0 0 with data := packBytes [(2, 1), (2, 2)] })) (sled true), 7, (ctx 0 ({ entry 0x15 1 0 0 with data := packBytes [(2, 1), (2, 2)] })), .a, ⟨by exact ⟨by decide, by decide, by decide, .a, rfl⟩, by decide +kernel⟩⟩
theorem witness_NamespaceCommands_11 : ∃ (s : State) (c : Nat) (x : Ctx) (f : Fn), AtHand s c (isAdminOp 0x15) x ∧ x.origin = .host f ∧
  (s.names.nss.any fun y => y.nsid == x.entry.nsid.toNat && !y.deleting) = false :=
  ⟨hosting (ctx 0 ({ entry 0x15 0 0 0 with nsid := 9 })) (sled true), 7, (ctx 0 ({ entry 0x15 0 0 0 with nsid := 9 })), .a, ⟨by exact ⟨by decide, by decide, by decide, .a, rfl⟩, by decide +kernel⟩⟩
theorem witness_NamespaceCommands_12 : ∃ (s : State) (c : Nat) (x : Ctx) (f : Fn), AtHand s c (isAdminOp 0x84) x ∧ x.origin = .host f ∧
  s.ctxs = [x] ∧ x.update = true ∧ s.power.entering = false ∧ bits x.entry.cdw10 2 0 ≠ 3 :=
  ⟨hosting { ctx 0 (entry 0x84 2 0 0) with update := true } (hostFn id id), 7, { ctx 0 (entry 0x84 2 0 0) with update := true }, .a, ⟨by exact ⟨by decide, by decide, by decide, .a, rfl⟩, by decide +kernel⟩⟩
theorem witness_ResetCommands_3 : ∃ (s : State), s.pins.sysPwrok = false ∧ s.aon.hold ≠ .powerOn :=
  ⟨{ up with pins := { up.pins with sysPwrok := false } }, by decide +kernel⟩
theorem witness_ResetCommands_4 : ∃ (s : State) (n : Nat), s.aon.goodSince = some n ∧ s.aon.hold = .mainCold ∧ s.pins.sysPwrok = true ∧
  s.pins.railsOk = true ∧ s.aon.xtal = true ∧ s.aon.error = 0 ∧ s.pins.testIdle = true :=
  ⟨(State.reset.modAon fun a => { a with hold := .mainCold, goodSince := some 7, xtal := true }).modPins fun p => { p with sysPwrok := true, railsOk := true, hostaEn := true }, 7, by decide +kernel⟩
theorem witness_ResetCommands_5 : ∃ (s : State), s.aon.hold = .running :=
  ⟨up, by decide +kernel⟩
theorem witness_ResetCommands_6 : ∃ (s : State), s.pins.sysPwrok = true ∧ s.aon.hold = .running :=
  ⟨up.modPins fun p => { p with sysPwrok := true }, by decide +kernel⟩
theorem witness_ResetCommands_7 : ∃ (s : State), s.pins.sysPwrok = false ∧ s.aon.hold = .mainCold :=
  ⟨(up.modAon fun a => { a with hold := .mainCold }).modPins fun p => { p with sysPwrok := false }, by decide +kernel⟩
theorem witness_ResetCommands_8 : ∃ (s : State), s.aon.hold ≠ .powerOn :=
  ⟨up, by decide +kernel⟩
theorem witness_ResetCommands_9 : ∃ (s : State), s.aon.hold ≠ .powerOn ∧ s.aon.xtal = false :=
  ⟨up.modAon fun a => { a with xtal := false }, by decide +kernel⟩
theorem witness_ResetCommands_10 : ∃ (s : State), s.booting = true ∧ s.boot.cold = true ∧ s.aon.step.toNat < 3 :=
  ⟨rom 2, by decide +kernel⟩
theorem witness_ResetCommands_11 : ∃ (s : State), s.aon.hold = .running :=
  ⟨up, by decide +kernel⟩
theorem witness_ResetCommands_12 : ∃ (s : State), s.aon.hold = .running :=
  ⟨up, by decide +kernel⟩
theorem witness_ResetCommands_13 : ∃ (s : State), s.aon.dogArmed = true ∧ s.aon.dogStopped = false :=
  ⟨up, by decide +kernel⟩
theorem witness_ResetCommands_14 : ∃ (s : State), s.aon.dogArmed = true ∧ s.aon.hold = .running ∧ s.names.dumping = false :=
  ⟨up, by decide +kernel⟩
theorem witness_ResetCommands_15 : ∃ (s : State), s.pins.linkPll = false ∧ s.boot.released = false :=
  ⟨(rom 2).modPins fun p => { p with linkPll := false }, by decide +kernel⟩
theorem witness_ResetCommands_16 : ∃ (s : State) (p : PortId), s.pins.linkPll = true ∧ inRange 2 9 (s.port p).train.val = true :=
  ⟨(port3 fun x => { x with train := 9 }).modPins fun p => { p with linkPll := true }, 3, by decide +kernel⟩
theorem witness_ResetCommands_17 : ∃ (s : State) (n : Nat), s.aon.overlapAt = some n ∧ s.aon.overlapUsed = false ∧ s.aon.hold = .running
  ∧ s.names.dumping = false :=
  ⟨up.modAon fun a => { a with overlapAt := some 7, overlapUsed := false }, 7, by decide +kernel⟩
theorem witness_ResetCommands_18 : ∃ (s : State), s.pins.pwrfail = true ∧ s.pins.sysPwrok = true ∧ s.aon.hold = .running ∧
  s.names.dumping = false :=
  ⟨up.modPins fun p => { p with pwrfail := true, sysPwrok := true }, by decide +kernel⟩
theorem witness_ResetCommands_19 : ∃ (s : State) (c : Fin 12), s.aon.deferred = [c] ∧ s.aon.hold = .running ∧ s.names.dumping = false :=
  ⟨up.modAon fun a => { a with deferred := [4] }, 4, by decide +kernel⟩
theorem witness_ResetCommands_20 : ∃ (s : State) (p : PortId), s.pins.linkPll = true ∧ (s.port p).train = 1 ∧ (s.port p).linked = false
  :=
  ⟨(port3 fun x => { x with train := 1 }).modPins fun p => { p with linkPll := true }, 3, by decide +kernel⟩
theorem witness_ResetCommands_21 : ∃ (s : State) (p : PortId), s.pins.linkPll = false ∧ s.boot.released = true ∧ (s.port p).train = 0 ∧
  s.pins.prsnt.getLsbD p.val = true :=
  ⟨up.modPins fun p => { p with linkPll := false, prsnt := 8 }, 3, by decide +kernel⟩
theorem witness_ResetCommands_22 : ∃ (s : State), s.aon.hold = .running ∧ s.pins.jtag = .bypass :=
  ⟨up, by decide +kernel⟩
theorem witness_ResetCommands_23 : ∃ (s : State), s.aon.hold = .running ∧ s.pins.jtag = .bypass :=
  ⟨up, by decide +kernel⟩
theorem witness_BringUpCommands_1 : ∃ (s : State), s.booting = true ∧ s.aon.step.toNat < 4 :=
  ⟨rom 3, by decide +kernel⟩
theorem witness_BringUpCommands_2 : ∃ (s : State), s.booting = true ∧ s.aon.step.toNat < 4 :=
  ⟨rom 3, by decide +kernel⟩
theorem witness_BringUpCommands_3 : ∃ (s : State), s.booting = true ∧ s.aon.fill = .sram ∧ s.aon.step = 4 :=
  ⟨(rom 4).modAon fun a => { a with fill := .sram }, by decide +kernel⟩
theorem witness_BringUpCommands_4 : ∃ (s : State), s.booting = true ∧ s.aon.fill = .sram :=
  ⟨(rom 4).modAon fun a => { a with fill := .sram }, by decide +kernel⟩
theorem witness_BringUpCommands_5 : ∃ (s : State), s.booting = true ∧ s.aon.fill = .dram ∧ s.boot.cold = true :=
  ⟨(rom 7).modAon fun a => { a with fill := .dram }, by decide +kernel⟩
theorem witness_BringUpCommands_6 : ∃ (s : State), s.booting = true ∧ s.aon.fill = .dram :=
  ⟨(rom 7).modAon fun a => { a with fill := .dram }, by decide +kernel⟩
theorem witness_BringUpCommands_7 : ∃ (s : State), s.booting = true ∧ s.aon.step = 5 ∧ s.boot.trained = false ∧ s.boot.cold = true :=
  ⟨rom 5, by decide +kernel⟩
theorem witness_BringUpCommands_8 : ∃ (s : State), s.booting = true ∧ s.aon.step = 5 ∧ s.boot.trained = false ∧ s.boot.retries[(2 : Fin
  8)] < 3 :=
  ⟨rom 5, by decide +kernel⟩
theorem witness_BringUpCommands_9 : ∃ (s : State) (ch : Fin 8), s.booting = true ∧ s.aon.step = 5 ∧ s.boot.trained = false ∧
  s.boot.retries[ch] < 3 :=
  ⟨rom 5, 2, by decide +kernel⟩
theorem witness_BringUpCommands_10 : ∃ (s : State) (ch : Fin 8), s.booting = true ∧ s.aon.step = 5 ∧ s.boot.trained = false ∧
  s.boot.retries[ch] = 3 :=
  ⟨(rom 5).modBoot fun b => { b with retries := Vector.replicate 8 3 }, 2, by decide +kernel⟩
theorem witness_BringUpCommands_11 : ∃ (s : State) (k : Bool), s.booting = true ∧ 5 ≤ s.aon.step.toNat ∧ s.boot.imageOk = false ∧
  s.boot.recoveryWait = false ∧ s.aon.bootSrc = false ∧ s.nor.dir.candidate = some k ∧ s.nor.dir.sequence.toNat + 1 < 2 ^ 32 :=
  ⟨rom 6, false, by decide +kernel⟩
theorem witness_BringUpCommands_12 : ∃ (s : State), s.booting = true ∧ s.aon.step = 6 ∧ s.boot.imageOk = false ∧ s.boot.recoveryWait =
  false ∧ s.aon.bootSrc = false ∧ s.nor.dir.candidate = none :=
  ⟨(rom 6).modNor (Nor.writeDir fun d => { d with stateA := 2, stateB := 2 }), by decide +kernel, by decide +kernel, by decide +kernel,
    by decide +kernel, by decide +kernel, by
      show ((rom 6).nor.writeDir _).dir.candidate = none
      rw [Nor.dir_writeDir _ _ (by decide +kernel)]; decide +kernel⟩
theorem witness_BringUpCommands_13 : ∃ (s : State), s.booting = true ∧ s.boot.imageOk = true ∧ s.boot.trained = true ∧ s.aon.fillComplete
  = true ∧ s.aon.fill = .idle ∧ s.aon.dramState ≠ 3 ∧ s.ident.keyReady = true :=
  ⟨(((rom 8).modAon fun a => { a with fillComplete := true, dramState := 0 }).modBoot fun b => { b with imageOk := true, trained := true }).modIdent fun i => { i with keyReady := true }, by decide +kernel⟩
theorem witness_BringUpCommands_14 : ∃ (s : State), s.booting = true ∧ 5 ≤ s.aon.step.toNat ∧ s.boot.imageOk = false ∧
  s.boot.recoveryWait = false ∧ s.aon.bootSrc = true :=
  ⟨(rom 6).modAon fun a => { a with bootSrc := true }, by decide +kernel⟩
theorem witness_BringUpCommands_15 : ∃ (s : State), s.booting = true ∧ s.aon.step = 5 ∧ s.boot.trained = false ∧ s.boot.retries[(2 : Fin
  8)] = 3 :=
  ⟨(rom 5).modBoot fun b => { b with retries := Vector.replicate 8 3 }, by decide +kernel⟩
theorem witness_CalibrationCommands_1 : ∃ (s : State) (a : ActId) (kd : BreakKind) (h : Fin 12) (z : Fin 32) (n : Nat) (v : Five),
  s.mayBreak a = true ∧ s.breakFor a = some (kd, h, z, n) ∧ ((fins 64).any fun b => s.mayBreak b && decide (s.breakRank a < s.breakRank
  b)) = false ∧ s.headValues a h z (s.tf (portOf a)) = some v :=
  ⟨(cal6 fun x => { x with heads := x.heads.set 0 { x.heads[0] with entries := [flatEntry five] } }).modPort 3 fun x => { x with train := 9, inService := true, tempAt := some 0, companion := { ident := leBytes 64 (2 ^ 48 + 2 ^ 56), measure := [] } }, 6, .triggered, 0, 0, 1000, { laser := 0, sto := 0, write := 5000, reader0 := 1500, reader1 := 1500 }, by decide +kernel⟩
theorem witness_CalibrationCommands_2 : ∃ (s : State) (a : ActId) (tb : CalTable) (fm : FormatTable) (b : Break) (l : List (Option Nat))
  (un : List Nat), (s.pcal (portOf a)).table = some tb ∧ (s.acal a).brk = some b ∧ (s.pcal (portOf a)).format = some fm ∧ b.pass = 1 :=
  ⟨(cal6 fun x => { x with brk := some { head := 0, zone := 0, tb := 536, pass := 1, at_ := 3, reqAt := 3, kind := .triggered, base := five, chosen := five, failed := false, unwritten := [], begun := true } }), 6, calTable, format, { head := 0, zone := 0, tb := 536, pass := 1, at_ := 3, reqAt := 3, kind := .triggered, base := five, chosen := five, failed := false, unwritten := [], begun := true }, [], [3], by decide +kernel⟩
theorem witness_CalibrationCommands_3 : ∃ (s : State) (a : ActId) (tb : CalTable) (fm : FormatTable) (b : Break) (l : List (Option Nat))
  (un : List Nat), (s.pcal (portOf a)).table = some tb ∧ (s.acal a).brk = some b ∧ (s.pcal (portOf a)).format = some fm ∧ b.pass = 8 ∧
  b.failed = false ∧ b.kind = .triggered ∧ (judgePass tb b (b.pass? fm b.pass).count l).2 = false :=
  ⟨(cal6 fun x => { x with brk := some { head := 0, zone := 0, tb := 536, pass := 8, at_ := 3, reqAt := 3, kind := .triggered, base := five, chosen := five, failed := false, unwritten := [], begun := true } }).modPcal 3 fun c => { c with format := some small }, 6, calTable, small, { head := 0, zone := 0, tb := 536, pass := 8, at_ := 3, reqAt := 3, kind := .triggered, base := five, chosen := five, failed := false, unwritten := [], begun := true }, List.replicate 10 (some 3), [], by decide +kernel⟩
theorem witness_CalibrationCommands_4 : ∃ (s : State) (a : ActId) (b : Break), (s.acal a).brk = some b ∧ b.kind = .triggered :=
  ⟨(cal6 fun x => { x with brk := some { head := 0, zone := 0, tb := 536, pass := 2, at_ := 3, reqAt := 3, kind := .triggered, base := five, chosen := five, failed := false, unwritten := [], begun := true } }), 6, { head := 0, zone := 0, tb := 536, pass := 2, at_ := 3, reqAt := 3, kind := .triggered, base := five, chosen := five, failed := false, unwritten := [], begun := true }, by decide +kernel⟩
theorem witness_CalibrationCommands_5 : ∃ (s : State) (p : PortId) (r : Request) (k : Packet), Answered s p 0x30 r k ∧ field
  r.packet.payload 0 1 = 0 ∧ k.status = 0 :=
  ⟨(cal6 fun x => x).modPort 3 fun x => { x with requests := [asked 0x30 1 1 [0, 2]], rx := [answer 0x30 1 0 []] }, 3, asked 0x30 1 1 [0, 2], answer 0x30 1 0 [], by unfold Answered Received; decide⟩
theorem witness_CalibrationCommands_6 : ∃ (s : State) (p : PortId) (r : Request) (k : Packet), Answered s p 0x30 r k ∧ field
  r.packet.payload 0 1 = 0 ∧ k.status = 7 ∧ (s.acal (actOf p 0)).heads[(Fin.ofNat 12 (field r.packet.payload 1 1) : Fin 12)].cfgFails = 0
  :=
  ⟨(cal6 fun x => x).modPort 3 fun x => { x with requests := [asked 0x30 1 1 [0, 2]], rx := [answer 0x30 1 7 []] }, 3, asked 0x30 1 1 [0, 2], answer 0x30 1 7 [], by unfold Answered Received; decide⟩
theorem witness_CalibrationCommands_7 : ∃ (s : State) (a : ActId) (n : Nat), (s.acal a).dirtyAt = some n ∧ s.hdaHeld (portOf a) = false
  :=
  ⟨(cal6 fun x => { x with dirtyAt := some 7 }), 6, 7, by decide +kernel⟩
theorem witness_CalibrationCommands_8 : ∃ (s : State) (a : ActId) (n : Nat), (s.acal a).dirtyAt = some n ∧ s.hdaHeld (portOf a) = false
  :=
  ⟨(cal6 fun x => { x with dirtyAt := some 7 }), 6, 7, by decide +kernel⟩
theorem witness_CalibrationCommands_9 : ∃ (s : State) (a : ActId) (tb : CalTable), (s.pcal (portOf a)).table = some tb ∧ newestRecord
  (s.records a).1 (s.records a).2 = none :=
  ⟨(cal6 fun x => { x with lastMs := 0 }), 6, calTable, by decide +kernel⟩
theorem witness_CalibrationCommands_10 : ∃ (s : State) (p : PortId) (n : Nat), (s.port p).train = 9 ∧ (s.pcal p).stale = false ∧ (s.pcal
  p).lastValid = some n :=
  ⟨(up.modPort 3 fun x => { x with train := 9 }).modPcal 3 fun c => { c with lastValid := some 7 }, 3, 7, by decide +kernel⟩
theorem witness_CalibrationCommands_11 : ∃ (s : State) (n : Nat), s.cal.deferUntil = some n :=
  ⟨{ up with cal := { up.cal with deferUntil := some 7 } }, 7, by decide +kernel⟩
theorem witness_CalibrationControlCommands_1 : ∃ (s : State) (c : Nat) (x : Ctx), AtHand s c (isAction 0xC5 0) x ∧ firstBad (ccReserved
  x.entry) = none ∧ ccHead x.entry = 0xF ∧ (∀ f, x.origin = .host f → (s.fn f).d3hot = false) :=
  ⟨hosting (ctx 0 (entry 0xC5 (15 * 2 ^ 24 + 6 * 2 ^ 16) 0 0)) (up.modPort 3 fun x => { x with inService := true, companion := { ident := leBytes 64 (2 ^ 48 + 12 * 2 ^ 56), measure := [] } }), 7, ctx 0 (entry 0xC5 (15 * 2 ^ 24 + 6 * 2 ^ 16) 0 0), by exact ⟨⟨by decide, by decide, by decide, .a, rfl⟩, by decide, by decide, by intro f; cases f <;> decide⟩⟩
theorem witness_CalibrationControlCommands_2 : ∃ (s : State) (c : Nat) (x : Ctx) (h : Fin 12), AtHand s c (isAction 0xC5 1) x ∧ firstBad
  (ccReserved x.entry) = none ∧ s.ccHeads x.entry false = some [h] ∧ s.actInService (ccAct x.entry) = true :=
  ⟨hosting (ctx 0 (entry 0xC5 (2 * 2 ^ 24 + 6 * 2 ^ 16 + 1) 0 0)) (up.modPort 3 fun x => { x with inService := true, companion := { ident := leBytes 64 (2 ^ 48 + 12 * 2 ^ 56), measure := [] } }), 7, ctx 0 (entry 0xC5 (2 * 2 ^ 24 + 6 * 2 ^ 16 + 1) 0 0), 2, by exact ⟨⟨by decide, by decide, by decide, .a, rfl⟩, by decide⟩⟩
theorem witness_CalibrationControlCommands_3 : ∃ (s : State) (c : Nat) (x : Ctx) (h : Fin 12), AtHand s c (isAction 0xC5 1) x ∧ firstBad
  (ccReserved x.entry) = none ∧ s.ccHeads x.entry false = some [h] ∧ s.actInService (ccAct x.entry) = false :=
  ⟨hosting (ctx 0 (entry 0xC5 (2 * 2 ^ 24 + 6 * 2 ^ 16 + 1) 0 0)) (up.modPort 3 fun x => { x with inService := false, companion := { ident := leBytes 64 (2 ^ 48 + 12 * 2 ^ 56), measure := [] } }), 7, ctx 0 (entry 0xC5 (2 * 2 ^ 24 + 6 * 2 ^ 16 + 1) 0 0), 2, by exact ⟨⟨by decide, by decide, by decide, .a, rfl⟩, by decide⟩⟩
theorem witness_CalibrationControlCommands_4 : ∃ (s : State) (c : Nat) (x : Ctx), AtHand s c (isAction 0xC5 2) x ∧ firstBad (ccReserved
  x.entry) = none ∧ ccHead x.entry ≤ 11 ∧ 0 < bits x.entry.cdw11 15 0 ∧ bits x.entry.cdw11 15 0 ≤ 600 :=
  ⟨hosting (ctx 0 (entry 0xC5 2 30 0)) (up), 7, ctx 0 (entry 0xC5 2 30 0), by exact ⟨⟨by decide, by decide, by decide, .a, rfl⟩, by decide⟩⟩
theorem witness_CalibrationControlCommands_5 : ∃ (s : State) (c : Nat) (x : Ctx), AtHand s c (isAction 0xC5 2) x ∧ firstBad (ccReserved
  x.entry) = none ∧ ccHead x.entry ≤ 11 ∧ bits x.entry.cdw11 15 0 = 0 :=
  ⟨hosting (ctx 0 (entry 0xC5 2 0 0)) (up), 7, ctx 0 (entry 0xC5 2 0 0), by exact ⟨⟨by decide, by decide, by decide, .a, rfl⟩, by decide⟩⟩
theorem witness_CalibrationControlCommands_6 : ∃ (s : State) (c : Nat) (x : Ctx), AtHand s c (isAction 0xC5 2) x ∧ firstBad (ccReserved
  x.entry) = none ∧ ccHead x.entry ≤ 11 ∧ 600 < bits x.entry.cdw11 15 0 :=
  ⟨hosting (ctx 0 (entry 0xC5 2 601 0)) (up), 7, ctx 0 (entry 0xC5 2 601 0), by exact ⟨⟨by decide, by decide, by decide, .a, rfl⟩, by decide⟩⟩
theorem witness_CalibrationControlCommands_7 : ∃ (s : State) (c : Nat) (x : Ctx), AtHand s c (isAction 0xC5 3) x ∧ firstBad (ccReserved
  x.entry) = none ∧ ccHead x.entry ≤ 11 ∧ x.entry.cdw12 = 3 ∧ 250 ≤ bits x.entry.cdw11 15 0 ∧ bits x.entry.cdw11 15 0 ≤ 10000 ∧ 1 ≤ bits
  x.entry.cdw11 23 16 ∧ bits x.entry.cdw11 23 16 ≤ 64 :=
  ⟨hosting (ctx 0 (entry 0xC5 3 (2000 + 65536 * 4) 3)) (up), 7, ctx 0 (entry 0xC5 3 (2000 + 65536 * 4) 3), by exact ⟨⟨by decide, by decide, by decide, .a, rfl⟩, by decide⟩⟩
theorem witness_CalibrationControlCommands_8 : ∃ (s : State) (c : Nat) (x : Ctx) (h : Fin 12) (tb : CalTable), AtHand s c (isAction 0xC5
  4) x ∧ firstBad (ccReserved x.entry) = none ∧ s.ccHeads x.entry true = some [h] ∧ (s.pcal (portOf (ccAct x.entry))).table = some tb :=
  ⟨hosting (ctx 0 (entry 0xC5 (2 * 2 ^ 24 + 6 * 2 ^ 16 + 4) 0 0)) ((up.modPort 3 fun x => { x with inService := true, companion := { ident := leBytes 64 (2 ^ 48 + 12 * 2 ^ 56), measure := [] } }).modPcal 3 fun c => { c with table := some calTable }), 7, ctx 0 (entry 0xC5 (2 * 2 ^ 24 + 6 * 2 ^ 16 + 4) 0 0), 2, calTable, by exact ⟨⟨by decide, by decide, by decide, .a, rfl⟩, by decide⟩⟩
theorem witness_CalibrationControlCommands_9 : ∃ (s : State) (c : Nat) (x : Ctx), AtHand s c (isAction 0xC5 0) x ∧ firstBad (ccReserved
  x.entry) = none ∧ ccHead x.entry ≤ 11 ∧ (s.ccHeads x.entry true).isSome = true ∧ (∀ f, x.origin = .host f → (s.fn f).d3hot = false) :=
  ⟨hosting (ctx 0 (entry 0xC5 (2 * 2 ^ 24 + 6 * 2 ^ 16) (0) (0))) (up.modPort 3 fun x => { x with inService := true, companion := { ident := leBytes 64 (2 ^ 48 + 12 * 2 ^ 56), measure := [] } }), 7, (ctx 0 (entry 0xC5 (2 * 2 ^ 24 + 6 * 2 ^ 16) (0) (0))), by exact ⟨⟨by decide, by decide, by decide, .a, rfl⟩, by decide, by decide, by decide +kernel, by intro f; cases f <;> decide⟩⟩
theorem witness_CalibrationControlCommands_10 : ∃ (s : State) (c : Nat) (x : Ctx), AtHand s c (isAction 0xC5 3) x ∧ firstBad (ccReserved
  x.entry) = none ∧ ccHead x.entry ≤ 11 ∧ x.entry.cdw12.getLsbD 0 = true ∧ bits x.entry.cdw11 15 0 < 250 :=
  ⟨hosting (ctx 0 (entry 0xC5 3 249 1)) up, 7, (ctx 0 (entry 0xC5 3 249 1)), ⟨by exact ⟨by decide, by decide, by decide, .a, rfl⟩, by decide +kernel⟩⟩
theorem witness_CalibrationControlCommands_11 : ∃ (s : State) (c : Nat) (x : Ctx), AtHand s c (isAction 0xC5 4) x ∧ firstBad (ccReserved
  x.entry) = none ∧ s.ccHeads x.entry true = none :=
  ⟨hosting (ctx 0 (entry 0xC5 (2 * 2 ^ 24 + 6 * 2 ^ 16 + 4) (0) (0))) up, 7, (ctx 0 (entry 0xC5 (2 * 2 ^ 24 + 6 * 2 ^ 16 + 4) (0) (0))), ⟨by exact ⟨by decide, by decide, by decide, .a, rfl⟩, by decide +kernel⟩⟩
theorem witness_ChorusCommands_1 : ∃ (s : State) (a : ActId) (cls : Fin 3), (s.pool a).req = none :=
  ⟨State.reset, 6, 1, by decide +kernel⟩
theorem witness_ChorusCommands_2 : ∃ (s : State) (a : ActId) (r : BindReq) (e : EngId), ((fins 24).any fun f => (s.eng f).st == .free &&
  !(s.eng f).gateDue) = false ∧ s.sessionsHeld ≤ s.enabledEngines ∧ s.chooseReq true = some (a, r) ∧ s.victim r.served = some e :=
  ⟨((((act6 fun x => { x with region := .follow, head := 1, target := trackPos 50 }).modSeq 6 fun q => { q with queue := [job false] }).modPool 6 fun x => { x with req := some { cls := 0, want := some (1, trackPos 50), at_ := 5, promoted := false, readyAt := some 5, alarmed := false, grantedAt := none } }).modPool 7 fun x => { x with req := some { cls := 1, want := none, at_ := 4, promoted := false, readyAt := none, alarmed := false, grantedAt := none } }).modEng 2 fun e => { e with st := .bound, act := 7, cls := 1 }, 6, { cls := 0, want := some (1, trackPos 50), at_ := 5, promoted := false, readyAt := some 5, alarmed := false, grantedAt := none }, 2, by decide +kernel⟩
theorem witness_ChorusCommands_3 : ∃ (s : State) (a : ActId) (r : BindReq), s.waitingReq a = some r ∧ r.cls = 2 ∧ r.promoted = false :=
  ⟨up.modPool 6 fun x => { x with req := some { cls := 2, want := none, at_ := 4, promoted := false, readyAt := none, alarmed := false, grantedAt := none } }, 6, { cls := 2, want := none, at_ := 4, promoted := false, readyAt := none, alarmed := false, grantedAt := none }, by decide +kernel⟩
theorem witness_ChorusCommands_4 : ∃ (s : State) (a : ActId) (r : BindReq) (n : Nat), s.waitingReq a = some r ∧ r.readyAt = some n ∧
  r.alarmed = false :=
  ⟨up.modPool 6 fun x => { x with req := some { cls := 0, want := none, at_ := 4, promoted := false, readyAt := some 7, alarmed := false, grantedAt := none } }, 6, { cls := 0, want := none, at_ := 4, promoted := false, readyAt := some 7, alarmed := false, grantedAt := none }, 7, by decide +kernel⟩
theorem witness_ChorusCommands_5 : ∃ (s : State) (e : EngId) (n : Nat) (d : Descriptor), (s.eng e).st = .reading ∧ (s.seq (s.eng
  e).act).op = some d ∧ d.write = false ∧ d.first ≤ n ∧ n < d.first + d.count ∧ (s.acal (s.eng e).act).brk = none ∧ (s.eng
  e).slots.length < 64 :=
  ⟨(up.modEng 2 fun e => { e with st := .reading, act := 6 }).modSeq 6 fun q => { q with st := .running, op := some (job false) }, 2, 1, job false, by decide +kernel⟩
theorem witness_ChorusCommands_6 : ∃ (s : State) (e : EngId) (n : Nat) (d : Descriptor), (s.eng e).st = .reading ∧ (s.seq (s.eng
  e).act).op = some d ∧ d.write = false ∧ d.first ≤ n ∧ n < d.first + d.count ∧ 8 ≤ s.stagedOf e :=
  ⟨(up.modEng 2 fun e => { e with st := .reading, act := 6 }).modSeq 6 (fun q => { q with st := .running, op := some (job false) }) |>.modChorus fun c => { c with staging := List.replicate 8 { act := 6, head := 1, track := 50, sector := 0, ctx := some 4, ok := true, spilled := false, at_ := 0, session := some (2, 0) } }, 2, 1, job false, by decide +kernel⟩
theorem witness_ChorusCommands_7 : ∃ (s : State) (e : EngId) (f : EngId) (i : Nat) (k : Capture) (n : Nat), (s.eng e).st = .recovery ∧
  (s.eng e).work = some (f, i) ∧ (s.eng f).slots[i]? = some k ∧ s.chorus.params.nextStep k.step = some n :=
  ⟨(up.modEng 2 fun e => { e with st := .recovery, work := some (2, 0), slots := [capture] }), 2, 2, 0, capture, 2, by decide +kernel⟩
theorem witness_ChorusCommands_8 : ∃ (s : State) (e : EngId) (f : EngId) (i : Nat) (k : Capture), (s.eng e).st = .recovery ∧ (s.eng
  e).work = some (f, i) ∧ (s.eng f).slots[i]? = some k ∧ k.ctx = none ∧ s.pair.peerReqs = [] :=
  ⟨(up.modEng 2 fun e => { e with st := .recovery, work := some (2, 0), slots := [capture] }), 2, 2, 0, capture, by decide +kernel⟩
theorem witness_ChorusCommands_9 : ∃ (s : State) (e : EngId) (n : Nat), (s.eng e).st = .recovery ∧ (s.eng e).recAt = some n :=
  ⟨(up.modEng 2 fun e => { e with st := .recovery, recAt := some 7 }), 2, 7, by decide +kernel⟩
theorem witness_ChorusCommands_10 : ∃ (s : State) (c : Nat), (s.chorus.staging.any fun d => d.ctx == some c && d.ok && !d.spilled) = true
  :=
  ⟨up.modChorus fun c => { c with staging := [{ act := 6, head := 1, track := 50, sector := 0, ctx := some 7, ok := true, spilled := false, at_ := 0, session := none }] }, 7, by decide +kernel⟩
theorem witness_ChorusCommands_11 : ∃ (s : State) (e : EngId), (s.eng e).st = .free ∧ (s.eng e).gateDue = true :=
  ⟨(up.modEng 2 fun e => { e with st := .free, gateDue := true }), 2, by decide +kernel⟩
theorem witness_ChorusCommands_12 : ∃ (s : State) (e : EngId), (s.eng e).st = .bound ∧ (s.eng e).faultAt = none :=
  ⟨(up.modEng 2 fun e => { e with st := .bound }), 2, by decide +kernel⟩
theorem witness_ChorusCommands_13 : ∃ (s : State) (e : EngId) (n : Nat), (s.eng e).st = .bound ∧ (s.eng e).faultAt = some n ∧ s.now ≤ n +
  60 * Config.sec :=
  ⟨(up.modEng 2 fun e => { e with st := .bound, faultAt := some 7 }), 2, 7, by decide +kernel⟩
theorem witness_ChorusCommands_14 : ∃ (s : State) (e : EngId), (s.eng e).st = .selfTest ∧ (s.eng e).refault = true :=
  ⟨(up.modEng 2 fun e => { e with st := .selfTest, refault := true }), 2, by decide +kernel⟩
theorem witness_ChorusCommands_15 : ∃ (s : State) (e : EngId), (s.eng e).st = .selfTest ∧ (s.eng e).refault = false ∧ (s.eng e).gateDue =
  false ∧ ((fins 24).filter fun f => (s.eng f).st != .gated && !(s.eng f).gateDue).length = s.enabledEngines :=
  ⟨(up.modEng 2 fun e => { e with st := .selfTest, gateDue := false }), 2, by decide +kernel⟩
theorem witness_ChorusCommands_16 : ∃ (s : State) (e : EngId), (s.eng e).st = .selfTest :=
  ⟨(up.modEng 2 fun e => { e with st := .selfTest }), 2, by decide +kernel⟩
theorem witness_PortControlCommands_1 : ∃ (s : State) (c : Nat) (x : Ctx) (p : PortId), AtHand s c (isAction 0xC4 0) x ∧ firstBad
  (pcReserved x.entry) = none ∧ p = pcPort x.entry :=
  ⟨hosting (ctx 0 (entry 0xC4 (0 + 3 * 256 + 0 * 65536) 0 0)) ((port3 fun x => { x with clock := true, smpCorr := 9 }).modPins fun p => { p with prsnt := 8 }), 7, ctx 0 (entry 0xC4 (0 + 3 * 256 + 0 * 65536) 0 0), 3, ⟨by exact ⟨by decide, by decide, by decide, .a, rfl⟩, by decide +kernel⟩⟩
theorem witness_PortControlCommands_2 : ∃ (s : State) (c : Nat) (x : Ctx) (p : PortId), AtHand s c (isAction 0xC4 1) x ∧ firstBad
  (pcReserved x.entry) = none ∧ p = pcPort x.entry ∧ (s.spin p).st = .stopped ∧ (s.spin p).ovLatched = false ∧ (s.spin p).unloading =
  false ∧ (s.spin p).turning = false ∧ (s.spin p).table.isSome = true ∧ s.power.leaving = false ∧ s.svc.comp = none ∧ s.ctxs = [x] ∧
  s.pair.mode = false :=
  ⟨hosting (ctx 0 (entry 0xC4 (1 + 3 * 256 + 0 * 65536) 640 0)) ((spin3 fun v => v).modPins fun p => { p with prsnt := 8 }), 7, ctx 0 (entry 0xC4 (1 + 3 * 256 + 0 * 65536) 640 0), 3, ⟨by exact ⟨by decide, by decide, by decide, .a, rfl⟩, by decide +kernel⟩⟩
theorem witness_PortControlCommands_3 : ∃ (s : State) (c : Nat) (x : Ctx) (p : PortId), AtHand s c (isAction 0xC4 2) x ∧ firstBad
  (pcReserved x.entry) = none ∧ p = pcPort x.entry ∧ s.pins.prsnt.getLsbD p.val = true ∧ (s.port p).train = 9 ∧ s.ctxs = [x] ∧
  s.pair.mode = false ∧ s.svc.comp = none :=
  ⟨hosting (ctx 0 (entry 0xC4 (2 + 3 * 256 + 0 * 65536) 0 0)) ((port3 fun x => { x with train := 9, inService := true, smpCorr := 4, blockLock := true }).modPins fun p => { p with prsnt := 8 }), 7, ctx 0 (entry 0xC4 (2 + 3 * 256 + 0 * 65536) 0 0), 3, ⟨by exact ⟨by decide, by decide, by decide, .a, rfl⟩, by decide +kernel⟩⟩
theorem witness_PortControlCommands_4 : ∃ (s : State) (c : Nat) (x : Ctx) (p : PortId), AtHand s c (isAction 0xC4 3) x ∧ firstBad
  (pcReserved x.entry) = none ∧ p = pcPort x.entry ∧ s.pins.prsnt.getLsbD p.val = true ∧ (s.port p).train = 0xA ∧ s.pins.linkPll = true
  :=
  ⟨hosting (ctx 0 (entry 0xC4 (3 + 3 * 256 + 0 * 65536) 0 0)) (((port3 fun x => { x with train := 0xA, fail := 3 }).modPins fun p => { p with linkPll := true }).modPins fun p => { p with prsnt := 8 }), 7, ctx 0 (entry 0xC4 (3 + 3 * 256 + 0 * 65536) 0 0), 3, ⟨by exact ⟨by decide, by decide, by decide, .a, rfl⟩, by decide +kernel⟩⟩
theorem witness_PortControlCommands_5 : ∃ (s : State) (c : Nat) (x : Ctx) (p : PortId), AtHand s c (isAction 0xC4 4) x ∧ firstBad
  (pcReserved x.entry) = none ∧ p = pcPort x.entry ∧ s.pins.prsnt.getLsbD p.val = true ∧ (s.spin p).ovLatched = true :=
  ⟨hosting (ctx 0 (entry 0xC4 (4 + 3 * 256 + 0 * 65536) 0 0)) ((spin3 fun v => { v with ovLatched := true, st := .ovBrake }).modPins fun p => { p with prsnt := 8 }), 7, ctx 0 (entry 0xC4 (4 + 3 * 256 + 0 * 65536) 0 0), 3, ⟨by exact ⟨by decide, by decide, by decide, .a, rfl⟩, by decide +kernel⟩⟩
theorem witness_PortControlCommands_6 : ∃ (s : State) (c : Nat) (x : Ctx) (p : PortId), AtHand s c (isAction 0xC4 4) x ∧ firstBad
  (pcReserved x.entry) = none ∧ p = pcPort x.entry ∧ s.pins.prsnt.getLsbD p.val = true ∧ (s.spin p).ovLatched = false :=
  ⟨hosting (ctx 0 (entry 0xC4 (4 + 3 * 256 + 0 * 65536) 0 0)) ((port3 fun x => x).modPins fun p => { p with prsnt := 8 }), 7, ctx 0 (entry 0xC4 (4 + 3 * 256 + 0 * 65536) 0 0), 3, ⟨by exact ⟨by decide, by decide, by decide, .a, rfl⟩, by decide +kernel⟩⟩
theorem witness_PortControlCommands_7 : ∃ (s : State) (c : Nat) (x : Ctx) (p : PortId), AtHand s c (isAction 0xC4 5) x ∧ firstBad
  (pcReserved x.entry) = none ∧ p = pcPort x.entry ∧ s.pins.prsnt.getLsbD p.val = true ∧ pcValue x.entry % 2 = 0 ∧ ((fins 2).any fun d =>
  (s.act (actOf p d)).loaded || (s.act (actOf p d)).loading || (s.seq (actOf p d)).op.isSome || (s.acal (actOf p d)).brk.isSome || (s.seq
  (actOf p d)).queue != []) = false ∧ s.svc.comp = none ∧ s.pair.mode = false ∧ s.ctxs = [x] ∧ s.power.leaving = false :=
  ⟨hosting (ctx 0 (entry 0xC4 (5 + 3 * 256 + 0 * 65536) 0 0)) ((port3 fun x => { x with train := 9, inService := true }).modPins fun p => { p with prsnt := 8 }), 7, ctx 0 (entry 0xC4 (5 + 3 * 256 + 0 * 65536) 0 0), 3, ⟨by exact ⟨by decide, by decide, by decide, .a, rfl⟩, by decide +kernel⟩⟩
theorem witness_PortControlCommands_8 : ∃ (s : State) (c : Nat) (x : Ctx) (p : PortId), AtHand s c (isAction 0xC4 6) x ∧ firstBad
  (pcReserved x.entry) = none ∧ p = pcPort x.entry ∧ s.pins.prsnt.getLsbD p.val = true ∧ (s.port p).removed = true ∧ (s.port p).train ≠
  0xA ∧ (s.port p).startMark = false ∧ (s.modPort p fun y => { y with removed := false }).mayLoad p = false ∧ (s.spin p).stopping = false
  ∧ s.svc.comp = none ∧ s.pair.mode = false ∧ s.ctxs = [x] ∧ s.power.leaving = false :=
  ⟨hosting (ctx 0 (entry 0xC4 (6 + 3 * 256 + 0 * 65536) 0 0)) (((spin3 fun v => { v with levelCmd := 640 }).modPort 3 fun x => { x with train := 9, removed := true }).modPins fun p => { p with prsnt := 8 }), 7, ctx 0 (entry 0xC4 (6 + 3 * 256 + 0 * 65536) 0 0), 3, ⟨by exact ⟨by decide, by decide, by decide, .a, rfl⟩, by decide +kernel⟩⟩
theorem witness_PortControlCommands_9 : ∃ (s : State) (c : Nat) (x : Ctx) (p : PortId), AtHand s c (isAction 0xC4 6) x ∧ firstBad
  (pcReserved x.entry) = none ∧ p = pcPort x.entry ∧ s.pins.prsnt.getLsbD p.val = true ∧ ((s.port p).train = 0xA ∨ (s.port p).startMark =
  true) :=
  ⟨hosting (ctx 0 (entry 0xC4 (6 + 3 * 256 + 0 * 65536) 0 0)) ((port3 fun x => { x with train := 0xA }).modPins fun p => { p with prsnt := 8 }), 7, ctx 0 (entry 0xC4 (6 + 3 * 256 + 0 * 65536) 0 0), 3, ⟨by exact ⟨by decide, by decide, by decide, .a, rfl⟩, by decide +kernel⟩⟩
theorem witness_PortControlCommands_10 : ∃ (s : State) (c : Nat) (x : Ctx) (p : PortId), AtHand s c (isAction 0xC4 7) x ∧ firstBad
  (pcReserved x.entry) = none ∧ p = pcPort x.entry ∧ s.pins.prsnt.getLsbD p.val = true ∧ (s.act (actOf p (pcSide x.entry))).outOfService
  = true ∧ s.svc.comp = none ∧ s.pair.mode = false ∧ s.ctxs = [x] ∧ s.power.leaving = false :=
  ⟨hosting (ctx 0 (entry 0xC4 (7 + 3 * 256 + 0 * 65536) 0 0)) ((act6 fun x => { x with outOfService := true, lostAt := some 3 }).modPins fun p => { p with prsnt := 8 }), 7, ctx 0 (entry 0xC4 (7 + 3 * 256 + 0 * 65536) 0 0), 3, ⟨by exact ⟨by decide, by decide, by decide, .a, rfl⟩, by decide +kernel⟩⟩
theorem witness_PortControlCommands_11 : ∃ (s : State) (c : Nat) (x : Ctx) (p : PortId), AtHand s c (isAction 0xC4 2) x ∧ firstBad
  (pcReserved x.entry) = none ∧ p = pcPort x.entry ∧ s.pins.prsnt.getLsbD p.val = false :=
  ⟨hosting (ctx 0 (entry 0xC4 0x302 0 0)) up, 7, ctx 0 (entry 0xC4 0x302 0 0), 3, ⟨by exact ⟨by decide, by decide, by decide, .a, rfl⟩, by decide +kernel⟩⟩
theorem witness_PortControlCommands_12 : ∃ (s : State) (c : Nat) (x : Ctx) (p : PortId), AtHand s c (isAction 0xC4 3) x ∧ firstBad
  (pcReserved x.entry) = none ∧ p = pcPort x.entry ∧ s.pins.prsnt.getLsbD p.val = false :=
  ⟨hosting (ctx 0 (entry 0xC4 (3 + 3 * 256) (0) (0))) up, 7, (ctx 0 (entry 0xC4 (3 + 3 * 256) (0) (0))), 3, ⟨by exact ⟨by decide, by decide, by decide, .a, rfl⟩, by decide +kernel⟩⟩
theorem witness_PortControlCommands_13 : ∃ (s : State) (c : Nat) (x : Ctx) (p : PortId), AtHand s c (isAction 0xC4 4) x ∧ firstBad
  (pcReserved x.entry) = none ∧ p = pcPort x.entry ∧ s.pins.prsnt.getLsbD p.val = false :=
  ⟨hosting (ctx 0 (entry 0xC4 (4 + 3 * 256) (0) (0))) up, 7, (ctx 0 (entry 0xC4 (4 + 3 * 256) (0) (0))), 3, ⟨by exact ⟨by decide, by decide, by decide, .a, rfl⟩, by decide +kernel⟩⟩
theorem witness_PortControlCommands_14 : ∃ (s : State) (c : Nat) (x : Ctx) (p : PortId), AtHand s c (isAction 0xC4 5) x ∧ firstBad
  (pcReserved x.entry) = none ∧ p = pcPort x.entry ∧ s.pins.prsnt.getLsbD p.val = false :=
  ⟨hosting (ctx 0 (entry 0xC4 (5 + 3 * 256) (0) (0))) up, 7, (ctx 0 (entry 0xC4 (5 + 3 * 256) (0) (0))), 3, ⟨by exact ⟨by decide, by decide, by decide, .a, rfl⟩, by decide +kernel⟩⟩
theorem witness_PortControlCommands_15 : ∃ (s : State) (c : Nat) (x : Ctx) (p : PortId), AtHand s c (isAction 0xC4 6) x ∧ firstBad
  (pcReserved x.entry) = none ∧ p = pcPort x.entry ∧ s.pins.prsnt.getLsbD p.val = false :=
  ⟨hosting (ctx 0 (entry 0xC4 (6 + 3 * 256) (0) (0))) up, 7, (ctx 0 (entry 0xC4 (6 + 3 * 256) (0) (0))), 3, ⟨by exact ⟨by decide, by decide, by decide, .a, rfl⟩, by decide +kernel⟩⟩
theorem witness_PortControlCommands_16 : ∃ (s : State) (c : Nat) (x : Ctx) (p : PortId), AtHand s c (isAction 0xC4 7) x ∧ firstBad
  (pcReserved x.entry) = none ∧ p = pcPort x.entry ∧ s.pins.prsnt.getLsbD p.val = false :=
  ⟨hosting (ctx 0 (entry 0xC4 (7 + 3 * 256) (0) (0))) up, 7, (ctx 0 (entry 0xC4 (7 + 3 * 256) (0) (0))), 3, ⟨by exact ⟨by decide, by decide, by decide, .a, rfl⟩, by decide +kernel⟩⟩
theorem witness_PortControlCommands_17 : ∃ (s : State) (c : Nat) (x : Ctx) (p : PortId), AtHand s c (isAction 0xC4 3) x ∧ firstBad
  (pcReserved x.entry) = none ∧ p = pcPort x.entry ∧ s.pins.prsnt.getLsbD p.val = true ∧ (s.port p).train ≠ 0xA ∧ (s.port p).startMark =
  false :=
  ⟨hosting (ctx 0 (entry 0xC4 (3 + 3 * 256) (0) (0))) ((port3 fun x => { x with train := 9 }).modPins fun p => { p with prsnt := 8 }), 7, (ctx 0 (entry 0xC4 (3 + 3 * 256) (0) (0))), 3, ⟨by exact ⟨by decide, by decide, by decide, .a, rfl⟩, by decide +kernel⟩⟩
theorem witness_PortControlCommands_18 : ∃ (s : State) (c : Nat) (x : Ctx) (p : PortId), AtHand s c (isAction 0xC4 7) x ∧ firstBad
  (pcReserved x.entry) = none ∧ p = pcPort x.entry ∧ s.pins.prsnt.getLsbD p.val = true ∧ (s.act (actOf p (pcSide x.entry))).outOfService
  = false :=
  ⟨hosting (ctx 0 (entry 0xC4 (7 + 3 * 256) (0) (0))) ((port3 fun x => { x with train := 9 }).modPins fun p => { p with prsnt := 8 }), 7, (ctx 0 (entry 0xC4 (7 + 3 * 256) (0) (0))), 3, ⟨by exact ⟨by decide, by decide, by decide, .a, rfl⟩, by decide +kernel⟩⟩
theorem witness_EngineControlCommands_1 : ∃ (s : State) (c : Nat) (x : Ctx), AtHand s c (isAction 0xCE 0) x ∧ bits x.entry.cdw10 31 16 =
  0 :=
  ⟨hosting (ctx 0 (entry 0xCE (0 + 2 * 256) 0 0)) (up), 7, ctx 0 (entry 0xCE (0 + 2 * 256) 0 0), ⟨by exact ⟨by decide, by decide, by decide, .a, rfl⟩, by decide +kernel⟩⟩
theorem witness_EngineControlCommands_2 : ∃ (s : State) (c : Nat) (x : Ctx), AtHand s c (isAction 0xCE 4) x ∧ bits x.entry.cdw10 31 16 =
  0 ∧ x.entry.cdw13 = 1 ∧ 100 ≤ bits x.entry.cdw11 15 0 ∧ bits x.entry.cdw11 15 0 ≤ 10000 ∧ bits x.entry.cdw11 31 24 = 0 ∧ bits
  x.entry.cdw12 31 26 = 0 :=
  ⟨hosting (ctx 0 ({ entry 0xCE 4 100 0 with cdw13 := 1 })) (up), 7, ctx 0 ({ entry 0xCE 4 100 0 with cdw13 := 1 }), ⟨by exact ⟨by decide, by decide, by decide, .a, rfl⟩, by decide +kernel⟩⟩
theorem witness_EngineControlCommands_3 : ∃ (s : State) (c : Nat) (x : Ctx), AtHand s c (isAction 0xCE 4) x ∧ bits x.entry.cdw10 31 16 =
  0 ∧ x.entry.cdw13 = 1 ∧ bits x.entry.cdw11 15 0 < 100 :=
  ⟨hosting (ctx 0 ({ entry 0xCE 4 99 0 with cdw13 := 1 })) (up), 7, ctx 0 ({ entry 0xCE 4 99 0 with cdw13 := 1 }), ⟨by exact ⟨by decide, by decide, by decide, .a, rfl⟩, by decide +kernel⟩⟩
theorem witness_EngineControlCommands_4 : ∃ (s : State) (c : Nat) (x : Ctx) (e : EngId), AtHand s c (isAction 0xCE 1) x ∧ bits
  x.entry.cdw10 31 16 = 0 ∧ e.val = ecTarget x.entry ∧ (s.eng e).st = .free ∧ 1 < s.enginesServing ∧ (s.eng e).gateDue = false :=
  ⟨hosting (ctx 0 (entry 0xCE (1 + 2 * 256) 0 0)) ((up.modEng 2 fun x => { x with st := .free }).modEng 5 fun x => { x with st := .free }), 7, ctx 0 (entry 0xCE (1 + 2 * 256) 0 0), 2, ⟨by exact ⟨by decide, by decide, by decide, .a, rfl⟩, by decide +kernel⟩⟩
theorem witness_EngineControlCommands_5 : ∃ (s : State) (c : Nat) (x : Ctx) (e : EngId), AtHand s c (isAction 0xCE 1) x ∧ bits
  x.entry.cdw10 31 16 = 0 ∧ e.val = ecTarget x.entry ∧ (s.eng e).st = .free ∧ s.enginesServing ≤ 1 :=
  ⟨hosting (ctx 0 (entry 0xCE (1 + 2 * 256) 0 0)) ({ up with chorus := { up.chorus with engs := Vector.replicate 24 { (up.eng 2) with st := .offline } } }.modEng 2 fun x => { x with st := .free }), 7, ctx 0 (entry 0xCE (1 + 2 * 256) 0 0), 2, ⟨by exact ⟨by decide, by decide, by decide, .a, rfl⟩, by decide +kernel⟩⟩
theorem witness_EngineControlCommands_6 : ∃ (s : State) (c : Nat) (x : Ctx) (e : EngId), AtHand s c (isAction 0xCE 1) x ∧ bits
  x.entry.cdw10 31 16 = 0 ∧ e.val = ecTarget x.entry ∧ (s.eng e).st = .offline :=
  ⟨hosting (ctx 0 (entry 0xCE (1 + 2 * 256) 0 0)) (up.modEng 2 fun x => { x with st := .offline }), 7, ctx 0 (entry 0xCE (1 + 2 * 256) 0 0), 2, ⟨by exact ⟨by decide, by decide, by decide, .a, rfl⟩, by decide +kernel⟩⟩
theorem witness_EngineControlCommands_7 : ∃ (s : State) (c : Nat) (x : Ctx) (e : EngId) (pass : Bool), AtHand s c (isAction 0xCE 2) x ∧
  bits x.entry.cdw10 31 16 = 0 ∧ e.val = ecTarget x.entry ∧ ((s.eng e).st = .offline ∨ (s.eng e).st = .faulted) :=
  ⟨hosting (ctx 0 (entry 0xCE (2 + 2 * 256) 0 0)) (up.modEng 2 fun x => { x with st := .offline }), 7, ctx 0 (entry 0xCE (2 + 2 * 256) 0 0), 2, false, ⟨by exact ⟨by decide, by decide, by decide, .a, rfl⟩, by decide +kernel⟩⟩
theorem witness_EngineControlCommands_8 : ∃ (s : State) (c : Nat) (x : Ctx) (e : EngId) (pass : Bool), AtHand s c (isAction 0xCE 2) x ∧
  bits x.entry.cdw10 31 16 = 0 ∧ e.val = ecTarget x.entry ∧ (s.eng e).st = .free :=
  ⟨hosting (ctx 0 (entry 0xCE (2 + 2 * 256) 0 0)) (up.modEng 2 fun x => { x with st := .free }), 7, ctx 0 (entry 0xCE (2 + 2 * 256) 0 0), 2, true, ⟨by exact ⟨by decide, by decide, by decide, .a, rfl⟩, by decide +kernel⟩⟩
theorem witness_EngineControlCommands_9 : ∃ (s : State) (c : Nat) (x : Ctx) (e : EngId), AtHand s c (isAction 0xCE 3) x ∧ bits
  x.entry.cdw10 31 16 = 0 ∧ e.val = ecTarget x.entry ∧ (s.eng e).st = .offline ∧ ((fins 24).filter fun f => f == e || ((s.eng f).st !=
  .gated && !(s.eng f).gateDue)).length = s.enabledEngines :=
  ⟨hosting (ctx 0 (entry 0xCE (3 + 2 * 256) 0 0)) ({ up with chorus := { up.chorus with engs := Vector.replicate 24 { (up.eng 2) with st := .free } } }.modEng 2 fun x => { x with st := .offline }), 7, ctx 0 (entry 0xCE (3 + 2 * 256) 0 0), 2, ⟨by exact ⟨by decide, by decide, by decide, .a, rfl⟩, by decide +kernel⟩⟩
theorem witness_EngineControlCommands_10 : ∃ (s : State) (c : Nat) (x : Ctx) (e : EngId), AtHand s c (isAction 0xCE 3) x ∧ bits
  x.entry.cdw10 31 16 = 0 ∧ e.val = ecTarget x.entry ∧ (s.eng e).st = .offline :=
  ⟨hosting (ctx 0 (entry 0xCE (3 + 2 * 256) 0 0)) (up.modEng 2 fun x => { x with st := .offline }), 7, ctx 0 (entry 0xCE (3 + 2 * 256) 0 0), 2, ⟨by exact ⟨by decide, by decide, by decide, .a, rfl⟩, by decide +kernel⟩⟩
theorem witness_EngineControlCommands_11 : ∃ (s : State) (c : Nat) (x : Ctx) (e : EngId) (pass : Bool), AtHand s c (isAction 0xCE 3) x ∧
  bits x.entry.cdw10 31 16 = 0 ∧ e.val = ecTarget x.entry ∧ (s.eng e).st = .free :=
  ⟨hosting (ctx 0 (entry 0xCE (3 + 2 * 256) 0 0)) (up.modEng 2 fun x => { x with st := .free }), 7, ctx 0 (entry 0xCE (3 + 2 * 256) 0 0), 2, true, ⟨by exact ⟨by decide, by decide, by decide, .a, rfl⟩, by decide +kernel⟩⟩
theorem witness_EngineControlCommands_12 : ∃ (s : State) (c : Nat) (x : Ctx) (a : ActId), AtHand s c (isAction 0xCE 5) x ∧ bits
  x.entry.cdw10 31 16 = 0 ∧ a.val = ecTarget x.entry ∧ (s.seq a).st = .idle ∧ (s.seq a).op = none ∧ (s.acal a).brk = none ∧ s.ctxs = [x]
  ∧ s.svc.comp = none ∧ s.pair.mode = false :=
  ⟨hosting (ctx 0 (entry 0xCE (5 + 6 * 256) 0 0)) (seq6 fun q => { q with st := .idle }), 7, ctx 0 (entry 0xCE (5 + 6 * 256) 0 0), 6, ⟨by exact ⟨by decide, by decide, by decide, .a, rfl⟩, by decide +kernel⟩⟩
theorem witness_EngineControlCommands_13 : ∃ (s : State) (c : Nat) (x : Ctx) (a : ActId), AtHand s c (isAction 0xCE 5) x ∧ bits
  x.entry.cdw10 31 16 = 0 ∧ a.val = ecTarget x.entry ∧ (s.seq a).st = .offline :=
  ⟨hosting (ctx 0 (entry 0xCE (5 + 6 * 256) 0 0)) (seq6 fun q => { q with st := .offline }), 7, ctx 0 (entry 0xCE (5 + 6 * 256) 0 0), 6, ⟨by exact ⟨by decide, by decide, by decide, .a, rfl⟩, by decide +kernel⟩⟩
theorem witness_EngineControlCommands_14 : ∃ (s : State) (c : Nat) (x : Ctx) (a : ActId), AtHand s c (isAction 0xCE 6) x ∧ bits
  x.entry.cdw10 31 16 = 0 ∧ a.val = ecTarget x.entry ∧ (s.seq a).st = .offline :=
  ⟨hosting (ctx 0 (entry 0xCE (6 + 6 * 256) 0 0)) (seq6 fun q => { q with st := .offline }), 7, ctx 0 (entry 0xCE (6 + 6 * 256) 0 0), 6, ⟨by exact ⟨by decide, by decide, by decide, .a, rfl⟩, by decide +kernel⟩⟩
theorem witness_EngineControlCommands_15 : ∃ (s : State) (c : Nat) (x : Ctx) (a : ActId) (pass : Bool), AtHand s c (isAction 0xCE 6) x ∧
  bits x.entry.cdw10 31 16 = 0 ∧ a.val = ecTarget x.entry ∧ (s.seq a).st = .idle :=
  ⟨hosting (ctx 0 (entry 0xCE (6 + 6 * 256) 0 0)) (seq6 fun q => { q with st := .idle }), 7, ctx 0 (entry 0xCE (6 + 6 * 256) 0 0), 6, true, ⟨by exact ⟨by decide, by decide, by decide, .a, rfl⟩, by decide +kernel⟩⟩
theorem witness_EngineControlCommands_16 : ∃ (s : State) (c : Nat) (x : Ctx) (a : ActId), AtHand s c (isAction 0xCE 7) x ∧ bits
  x.entry.cdw10 31 16 = 0 ∧ a.val = ecTarget x.entry ∧ (s.seq a).st = .offline ∧ s.pair.mode = false ∧ s.ctxs = [x] ∧ s.svc.comp = none ∧
  s.mayLoad (portOf a) = false ∧ (s.seq a).queue = [] ∧ (s.patch.bankOf s.patch.newest).redirect 0 = 0 ∧ (s.seq a).switchPending = false
  :=
  ⟨hosting (ctx 0 (entry 0xCE (7 + 6 * 256) 0 0)) (seq6 fun q => { q with st := .offline, outOfService := true }), 7, ctx 0 (entry 0xCE (7 + 6 * 256) 0 0), 6, ⟨by exact ⟨by decide, by decide, by decide, .a, rfl⟩, by decide +kernel⟩⟩
theorem witness_EngineControlCommands_17 : ∃ (s : State) (c : Nat) (x : Ctx) (a : ActId), AtHand s c (isAction 0xCE 7) x ∧ bits
  x.entry.cdw10 31 16 = 0 ∧ a.val = ecTarget x.entry ∧ (s.seq a).st = .offline :=
  ⟨hosting (ctx 0 (entry 0xCE (7 + 6 * 256) 0 0)) (seq6 fun q => { q with st := .offline, outOfService := true }), 7, ctx 0 (entry 0xCE (7 + 6 * 256) 0 0), 6, ⟨by exact ⟨by decide, by decide, by decide, .a, rfl⟩, by decide +kernel⟩⟩
theorem witness_EngineControlCommands_18 : ∃ (s : State) (c : Nat) (x : Ctx) (a : ActId), AtHand s c (isAction 0xCE 8) x ∧ bits
  x.entry.cdw10 31 16 = 0 ∧ a.val = ecTarget x.entry ∧ x.entry.cdw13 = 1 ∧ 2 ≤ bits x.entry.cdw11 3 0 ∧ bits x.entry.cdw11 3 0 ≤ 8 ∧ bits
  x.entry.cdw11 7 4 = 0 ∧ bits x.entry.cdw11 31 13 = 0 :=
  ⟨hosting (ctx 0 ({ entry 0xCE 0x608 4 0 with cdw13 := 1 })) (seq6 fun q => { q with st := .idle }), 7, ctx 0 ({ entry 0xCE 0x608 4 0 with cdw13 := 1 }), 6, ⟨by exact ⟨by decide, by decide, by decide, .a, rfl⟩, by decide +kernel⟩⟩
theorem witness_EngineControlCommands_19 : ∃ (s : State) (c : Nat) (x : Ctx) (a : ActId) (pass : Bool), AtHand s c (isAction 0xCE 7) x ∧
  bits x.entry.cdw10 31 16 = 0 ∧ a.val = ecTarget x.entry ∧ (s.seq a).st = .idle ∧ (s.seq a).outOfService = false :=
  ⟨hosting (ctx 0 (entry 0xCE (7 + 6 * 256) (0) (0))) (seq6 fun q => { q with st := .idle }), 7, (ctx 0 (entry 0xCE (7 + 6 * 256) (0) (0))), 6, true, ⟨by exact ⟨by decide, by decide, by decide, .a, rfl⟩, by decide +kernel⟩⟩
theorem witness_EngineControlCommands_20 : ∃ (s : State) (c : Nat) (x : Ctx) (a : ActId), AtHand s c (isAction 0xCE 6) x ∧ bits
  x.entry.cdw10 31 16 = 0 ∧ a.val = ecTarget x.entry ∧ (s.seq a).st = .offline :=
  ⟨hosting (ctx 0 (entry 0xCE (6 + 6 * 256) (0) (0))) (seq6 fun q => { q with st := .offline }), 7, (ctx 0 (entry 0xCE (6 + 6 * 256) (0) (0))), 6, ⟨by exact ⟨by decide, by decide, by decide, .a, rfl⟩, by decide +kernel⟩⟩
theorem witness_EngineControlCommands_21 : ∃ (s : State) (c : Nat) (x : Ctx) (a : ActId), AtHand s c (isAction 0xCE 8) x ∧ bits
  x.entry.cdw10 31 16 = 0 ∧ a.val = ecTarget x.entry ∧ x.entry.cdw13 = 1 ∧ (bits x.entry.cdw11 3 0 < 2 ∨ 8 < bits x.entry.cdw11 3 0) :=
  ⟨hosting (ctx 0 ({ entry 0xCE (0x608) (1) (0) with cdw13 := 1 })) (seq6 fun q => { q with st := .idle }), 7, (ctx 0 ({ entry 0xCE (0x608) (1) (0) with cdw13 := 1 })), 6, ⟨by exact ⟨by decide, by decide, by decide, .a, rfl⟩, by decide +kernel⟩⟩
theorem witness_PatchCommands_1 : ∃ (s : State) (c : Nat) (x : Ctx), AtHand s c (isAction 0xCA 0) x ∧ patchFields x.entry = none ∧
  s.patch.switching = false ∧ s.ident.sealed = false :=
  ⟨hosting (ctx 0 (entry 0xCA 0 0 0)) (up), 7, ctx 0 (entry 0xCA 0 0 0), ⟨by exact ⟨by decide, by decide, by decide, .a, rfl⟩, by decide +kernel⟩⟩
theorem witness_PatchCommands_2 : ∃ (s : State) (c : Nat) (x : Ctx), AtHand s c (isAction 0xCA 1) x ∧ patchFields x.entry = none ∧
  s.patch.switching = false ∧ s.ident.sealed = false :=
  ⟨hosting (ctx 0 (entry 0xCA 1 0 0)) (up), 7, ctx 0 (entry 0xCA 1 0 0), ⟨by exact ⟨by decide, by decide, by decide, .a, rfl⟩, by decide +kernel⟩⟩
theorem witness_PatchCommands_3 : ∃ (s : State) (c : Nat) (x : Ctx), AtHand s c (isAction 0xCA 1) x ∧ patchFields x.entry = none ∧
  s.patch.switching = false ∧ s.ident.sealed = false :=
  ⟨hosting (ctx 0 (entry 0xCA 1 0 0)) (up), 7, ctx 0 (entry 0xCA 1 0 0), ⟨by exact ⟨by decide, by decide, by decide, .a, rfl⟩, by decide +kernel⟩⟩
theorem witness_PatchCommands_4 : ∃ (s : State) (c : Nat) (x : Ctx), AtHand s c (isAction 0xCA 2) x ∧ patchFields x.entry = none ∧
  s.patch.switching = false ∧ s.ident.sealed = false :=
  ⟨hosting (ctx 0 (entry 0xCA 2 0 0)) (up), 7, ctx 0 (entry 0xCA 2 0 0), ⟨by exact ⟨by decide, by decide, by decide, .a, rfl⟩, by decide +kernel⟩⟩
theorem witness_PatchCommands_5 : ∃ (s : State) (c : Nat) (x : Ctx), AtHand s c (isAction 0xCA 3) x ∧ patchFields x.entry = none ∧
  s.patch.switching = false ∧ s.ident.sealed = false :=
  ⟨hosting (ctx 0 (entry 0xCA 3 0 0)) (up), 7, ctx 0 (entry 0xCA 3 0 0), ⟨by exact ⟨by decide, by decide, by decide, .a, rfl⟩, by decide +kernel⟩⟩
theorem witness_PatchCommands_6 : ∃ (s : State) (c : Nat) (x : Ctx), AtHand s c (isAction 0xCA 3) x ∧ patchFields x.entry = none ∧
  s.patch.switching = true :=
  ⟨hosting (ctx 0 (entry 0xCA 3 0 0)) ({ up with patch := { up.patch with switching := true } }), 7, ctx 0 (entry 0xCA 3 0 0), ⟨by exact ⟨by decide, by decide, by decide, .a, rfl⟩, by decide +kernel⟩⟩
theorem witness_PatchCommands_7 : ∃ (s : State) (c : Nat) (x : Ctx), AtHand s c (isAction 0xCA 3) x ∧ patchFields x.entry = none ∧
  s.patch.switching = false ∧ s.ident.sealed = true ∧ 255 ≤ s.ident.addenda + s.ident.due.length :=
  ⟨hosting (ctx 0 (entry 0xCA 3 0 0)) (up.modIdent fun i => { i with sealed := true, addenda := 255 }), 7, ctx 0 (entry 0xCA 3 0 0), ⟨by exact ⟨by decide, by decide, by decide, .a, rfl⟩, by decide +kernel⟩⟩
theorem witness_PatchCommands_8 : ∃ (s : State), s.boot.released = true ∧ s.boot.complete = false ∧ ((fins 64).all fun a => (s.seq a).st
  == .offline) = true ∧ field s.nor.patchStore 0 4 ≠ 0x504D5A49 ∧ (s.patch.bankOf s.patch.newest).redirect 0 = 0 ∧ ((fins 64).all fun a
  => !(s.seq a).outOfService && !(s.seq a).switchPending && (s.seq a).queue == []) = true :=
  ⟨up.modBoot fun b => { b with complete := false }, by decide +kernel⟩
theorem witness_PatchCommands_9 : ∃ (s : State), s.boot.released = true ∧ s.boot.complete = false ∧ ((fins 64).all fun a => (s.seq a).st
  == .offline) = true ∧ field s.nor.patchStore 0 4 = 0x504D5A49 ∧ ((fins 64).all fun a => !(s.seq a).outOfService && !(s.seq
  a).switchPending && (s.seq a).queue == []) = true :=
  ⟨(up.modNor fun n => { n with patchStore := [0x49, 0x5A, 0x4D, 0x50] }).modBoot fun b => { b with complete := false }, by decide +kernel⟩
theorem witness_CrossingCommands_1 : ∃ (s : State) (q : Req) (off : Nat), s.canAccess q off = true ∧ (s.xing.hung.any fun h => h.who ==
  q) = false ∧ s.stopped off = none ∧ off % 4 = 0 ∧ (s.xing.captured.find? fun c => c.1 == q && c.2.1 == off) = none :=
  ⟨(hostFn id id).modXing fun x => { x with discards := 8 }, .portA, 0x780C, by decide +kernel⟩
theorem witness_CrossingCommands_2 : ∃ (s : State) (q : Req) (off : Nat), s.canAccess q off = true ∧ (s.xing.hung.any fun h => h.who ==
  q) = false ∧ s.stopped off = none ∧ off % 4 = 0 ∧ isLo off = true ∧ (s.xing.captured.find? fun c => c.1 == q && c.2.1 == off) = none :=
  ⟨(hostFn id id), .portA, 0x3310, by decide +kernel⟩
theorem witness_CrossingCommands_3 : ∃ (s : State) (q : Req) (off : Nat) (v : W32), s.canAccess q off = true ∧ (s.xing.hung.any fun h =>
  h.who == q) = false ∧ s.stopped off = none ∧ off % 4 = 0 ∧ (s.xing.captured.find? fun c => c.1 == q && c.2.1 == off) = some (q, off, v)
  :=
  ⟨(hostFn id id).modXing fun x => { x with captured := [(.portA, 0x3314, 9)] }, .portA, 0x3314, 9, by decide +kernel⟩
theorem witness_CrossingCommands_4 : ∃ (s : State) (q : Req) (off : Nat), s.canAccess q off = true ∧ (s.xing.hung.any fun h => h.who ==
  q) = false ∧ s.stopped off = none ∧ off % 4 = 0 ∧ isLo off = false ∧ (s.xing.captured.find? fun c => c.1 == q && c.2.1 == off) = none
  :=
  ⟨(hostFn id id), .portA, 0x3314, by decide +kernel⟩
theorem witness_CrossingCommands_5 : ∃ (s : State) (q : Req) (off : Nat) (p : PortId), s.canAccess q off = true ∧ (s.xing.hung.any fun h
  => h.who == q) = false ∧ s.stopped off = some p :=
  ⟨(hostFn id id), .portA, 0x3320, 12, by decide +kernel⟩
theorem witness_CrossingCommands_6 : ∃ (s : State) (q : Req) (off : Nat), s.canAccess q off = true ∧ (s.xing.hung.any fun h => h.who ==
  q) = true :=
  ⟨(hostFn id id).modXing fun x => { x with hung := [{ who := .portA, off := 0x3320, write := none, packet := none }] }, .portA, 0x780C, by decide +kernel⟩
theorem witness_CrossingCommands_7 : ∃ (s : State) (q : Req) (off : Nat) (v : W32), s.canAccess q off = true ∧ (s.xing.hung.any fun h =>
  h.who == q) = false ∧ s.stopped off = none :=
  ⟨(hostFn id id), .portA, 0x3304, 9, by decide +kernel⟩
theorem witness_CrossingCommands_8 : ∃ (s : State) (p : PortId), (s.port p).joint = true ∧ (s.port p).clock = true :=
  ⟨port3 fun x => { x with joint := true, clock := true }, 3, by decide +kernel⟩
theorem witness_CrossingCommands_9 : ∃ (s : State) (p : PortId) (q : Req) (off : Nat), (s.port p).joint = true ∧ (s.port p).clock = true
  ∧ regAt off = .port p 0x20 ∧ off % 4 = 0 ∧ s.xing.hung = [{ who := q, off := off, write := none, packet := none }] ∧ s.xing.behind = []
  :=
  ⟨(port3 fun x => { x with joint := true, clock := true }).modXing fun x => { x with hung := [{ who := .portA, off := 0x30E0, write := none, packet := none }] }, 3, .portA, 0x30E0, by decide +kernel⟩
theorem witness_DestageCommands_1 : ∃ (s : State) (ns : Nat) (zone : Nat) (row : Nat) (x : Ns) (g : Group) (i : Nat) (data : List Blk),
  s.ns? ns = some x ∧ s.names.dumping = false ∧ x.zoned = true ∧ stripeOf (s.nsGroups x) zone = some (g, i) ∧ s.takesRows g i = true ∧
  s.mayWrite = true ∧ s.rowWritable g i row = true ∧ s.dueRow x zone row = some data ∧ row = s.nextRow ns zone ∧ s.pair.mode = false :=
  ⟨{ sled true with names := { (sled true).names with finishing := [(1, 0, 0)] } }, 1, 0, 0, space true, lane, 0, List.replicate 512 0, by decide +kernel⟩
theorem witness_DestageCommands_2 : ∃ (s : State) (ns : Nat) (zone : Nat) (row : Nat) (x : Ns) (g : Group) (i : Nat) (f : RowFlight),
  s.ns? ns = some x ∧ s.names.dumping = false ∧ (s.names.flights.find? fun f => f.ns == ns && f.zone == zone && f.row == row) = some f ∧
  x.zoned = true ∧ x.nsid = ns ∧ stripeOf (s.nsGroups x) zone = some (g, i) ∧ row = (s.zone ns zone).rows ∧ s.stripeLost g i = false ∧
  s.rowWritable g i row = true ∧ s.ctxs = [] ∧ s.power.entering = false ∧ s.mirrors = false :=
  ⟨{ sled true with names := { (sled true).names with flights := [flight (List.replicate 512 0)], buffer := [dirty 3, dirty 600] } }, 1, 0, 0, space true, lane, 0, flight (List.replicate 512 0), by decide +kernel⟩
theorem witness_DestageCommands_3 : ∃ (s : State) (ns : Nat) (zone : Nat) (row : Nat) (x : Ns) (l : List Dirty) (acts : List ActId),
  s.ns? ns = some x ∧ s.names.dumping = false ∧ x.zoned = true ∧ s.mayWrite = true ∧ (s.dueRow x zone row).isSome = false ∧ s.spaceIn ns
  (x.rowLba zone row) (rowBlocks x.narrow) = true ∧ (s.names.flights.any fun f => f.ns == ns && f.zone == zone && f.row == row) = false ∧
  l = (s.names.unstored.filter fun d => d.ns == ns && decide (x.rowLba zone row ≤ d.lba) && decide (d.lba < x.rowLba zone row + rowBlocks
  x.narrow)).take 512 ∧ l ≠ [] ∧ s.mcChoose false = some acts ∧ (s.putMcRow ns (.part zone row) (l.map fun d => (d.lba, d.data))).isSome
  = true ∧ s.prot.mcRows.any McRow.isDump = false ∧ s.ctxs = [] ∧ s.power.entering = false ∧ s.mirrors = false :=
  ⟨{ sled true with names := { (sled true).names with buffer := [dirty 3, dirty 600] }, fa := { HostFn.reset with shutdown := 1 } }, 1, 0, 0, space true, [dirty 3], ((fins 32).take 10).map fun p => actOf p 0, by decide +kernel⟩
theorem witness_DestageCommands_4 : ∃ (s : State), s.boot.restored = true ∧ s.freeRows.cleans = false :=
  ⟨sled false, by decide +kernel⟩
theorem witness_DestageCommands_5 : ∃ (s : State) (ns : Nat) (zone : Nat) (x : Ns), s.ns? ns = some x ∧ s.names.dumping = false ∧
  s.destageFirst = false ∧ s.names.dirsOut.contains x.nsid = false ∧ x.zoned = false ∧ s.zonesOf x < 16 + (s.usedZones ns).length ∧
  (sortBy (fun z => (s.zoneLive x z).length) (s.reclaimZones x)).head? = some zone ∧ s.zoneLive x zone = [] ∧ s.unreferenced x zone =
  true ∧ s.ctxs = [] ∧ s.power.entering = false ∧ s.mirrors = false :=
  ⟨{ sled false with names := { (sled false).names with zones := [zone1 .full 131072 256] } }, 1, 0, space false, by decide +kernel⟩
theorem witness_DestageCommands_6 : ∃ (s : State) (ns : Nat) (page : Nat) (x : Ns), s.ns? ns = some x ∧ s.pageAway ns (512 * page) = true
  ∧ s.names.mapDir = [] ∧ s.ctxs = [] :=
  ⟨{ sled false with names := { (sled false).names with map := [{ ns := 1, lba := 3, entry := mapWord 1 5 }], mapMedia := [{ ns := 1, lba := 3, entry := mapWord 1 5 }] } }, 1, 0, space false, by decide +kernel⟩
theorem witness_DestageCommands_7 : ∃ (s : State) (c : Nat) (lba : Nat) (y : Ctx) (n : Ns) (f : Fn) (g : Group) (i : Nat) (j : Nat) (k :
  Nat) (v : Blk), s.ctx? c = some y ∧ y.stage = .waiting ∧ isIoOp 0x02 y = true ∧ y.lba = lba ∧ y.nlb = 1 ∧ y.got = [] ∧ y.saved = [] ∧
  y.wait = .sectors [lba] ∧ s.ns? y.ns = some n ∧ y.origin = .host f ∧ (s.fn f).d3hot = false ∧ s.blocked y = false ∧ s.find n lba =
  .media g i j k ∧ s.sectorOk y.failed g i j k = false ∧ s.reconstruct y.failed g i j k = some v :=
  ⟨hosting ({ (ctx 1 (entry 2 0 0 0)) with stage := .waiting, wait := .sectors [0], nlb := 1, failed := [(.pool 0 0, 0)] }) { sled true with names := { (sled true).names with zones := [zone1 .full 131072 256] } }, 7, 0, { (ctx 1 (entry 2 0 0 0)) with stage := .waiting, wait := .sectors [0], nlb := 1, failed := [(.pool 0 0, 0)] }, space true, .a, lane, 0, 0, 0, 0, by decide +kernel⟩
theorem witness_DestageCommands_8 : ∃ (s : State) (c : Nat) (lba : Nat) (y : Ctx) (n : Ns) (f : Fn) (g : Group) (i : Nat) (j : Nat) (k :
  Nat) (v : Blk) (br : Break), s.ctx? c = some y ∧ y.stage = .waiting ∧ isIoOp 0x02 y = true ∧ y.lba = lba ∧ y.nlb = 1 ∧ y.got = [] ∧
  y.saved = [] ∧ y.wait = .sectors [lba] ∧ s.ns? y.ns = some n ∧ y.origin = .host f ∧ (s.fn f).d3hot = false ∧ s.blocked y = false ∧
  s.cal.reconstruct = true ∧ s.find n lba = .media g i j k ∧ (s.acal (s.actOfPlace (s.placeOf g i j))).brk = some br ∧ (((List.range
  g.width).filter (· != j)).any fun t => (s.acal (s.actOfPlace (s.placeOf g i t))).brk.isSome) = false ∧ s.reconstruct y.failed g i j k =
  some v :=
  ⟨hosting ({ (ctx 1 (entry 2 0 0 0)) with stage := .waiting, wait := .sectors [0], nlb := 1 }) ({ sled true with names := { (sled true).names with zones := [zone1 .full 131072 256] }, cal := { (sled true).cal with reconstruct := true } }.modAcal 0 fun x => { x with brk := some { head := 0, zone := 0, tb := 536, pass := 1, at_ := 3, reqAt := 3, kind := .triggered, base := five, chosen := five, failed := false, unwritten := [], begun := true } }), 7, 0, { (ctx 1 (entry 2 0 0 0)) with stage := .waiting, wait := .sectors [0], nlb := 1 }, space true, .a, lane, 0, 0, 0, 0, { head := 0, zone := 0, tb := 536, pass := 1, at_ := 3, reqAt := 3, kind := .triggered, base := five, chosen := five, failed := false, unwritten := [], begun := true }, by decide +kernel⟩
theorem witness_DestageCommands_9 : ∃ (s : State) (ns : Nat) (zone : Nat) (x : Ns), s.ns? ns = some x ∧ s.names.toFind.contains (ns,
  zone) = true ∧ s.boot.restored = true ∧ (s.nsPorts ns).all s.portServed = true ∧ s.prot.mcRows = [] ∧ s.names.buffer = [] ∧
  s.names.lost = [] :=
  ⟨{ sled true with names := { (sled true).names with nss := [{ space true with ready := false }], zones := [zone1 .implicit 4000 7], toFind := [(1, 0)] } }, 1, 0, { space true with ready := false }, by decide +kernel⟩
theorem witness_DestageCommands_10 : ∃ (s : State), s.limitE < s.dirtyBytes ∧ s.boot.released = true ∧ s.book.ready = true :=
  ⟨({ sled true with names := { (sled true).names with buffer := [dirty 3], dirtyLimitMib := 0 } }).modBook fun b => { b with ready := true }, by decide +kernel⟩
theorem witness_DestageCommands_11 : ∃ (s : State) (x : Ns) (g : Group) (i : Nat) (z : Nat) (k : Nat) (l : List (Nat × W64 × Blk)),
  s.boot.restored = true ∧ s.freeRows = s ∧ s.cleans = true ∧ s.names.nss = [x] ∧ x.zoned = false ∧ s.openZone x = some (z, k) ∧ stripeOf
  (s.nsGroups x) z = some (g, i) ∧ k / rowBlocks x.narrow = s.nextRow x.nsid z ∧ s.mayWrite = true ∧ s.rowWritable g i (k / rowBlocks
  x.narrow) = true ∧ l = (s.cleaningRows.filter fun r => r.ns == x.nsid).flatMap s.liveBlocks ∧ l ≠ [] ∧ l.length ≤ rowBlocks x.narrow ∧
  (∀ q ∈ l, s.names.pagesDirty.contains (x.nsid, q.1 / 512) = true) ∧ s.ctxs = [] ∧ s.power.entering = false :=
  ⟨{ sled false with prot := { (sled false).prot with mcRows := [cached 1 .pack [(3, 9)], { cached 2 (.part 5 5) [] with strips := (fins 64).flatMap fun a => (List.range 33).map fun h => (a, h * 256) }] }, names := { (sled false).names with map := [{ ns := 1, lba := 3, entry := mapWord 2 512 }], pagesDirty := [(1, 0)] } }, space false, lane, 0, 0, 0, [(3, mapWord 2 512, 9)], by decide +kernel⟩
theorem witness_DestageCommands_12 : ∃ (s : State) (ns : Nat) (zone : Nat) (row : Nat) (x : Ns) (g : Group) (i : Nat) (f : RowFlight),
  s.ns? ns = some x ∧ s.names.dumping = false ∧ x.zoned = false ∧ stripeOf (s.nsGroups x) zone = some (g, i) ∧ s.takesRows g i = true ∧
  s.mayWrite = true ∧ s.rowWritable g i row = true ∧ s.openZone x = some (zone, row * rowBlocks x.narrow) ∧ s.names.dirsOut.contains ns =
  false ∧ f = s.mapRow x zone row ∧ f.pages ≠ [] :=
  ⟨{ sled false with names := { (sled false).names with pagesDirty := [(1, 0)] } }, 1, 0, 0, space false, lane, 0, State.mapRow { sled false with names := { (sled false).names with pagesDirty := [(1, 0)] } } (space false) 0 0, by decide +kernel⟩
theorem witness_PowerFailCommands_1 : ∃ (s : State) (w : Nat), w ≤ 200 :=
  ⟨State.reset, 200, by decide +kernel⟩
theorem witness_PowerFailCommands_2 : ∃ (s : State) (w : Nat), 1000 ≤ w ∧ s.pins.pwrfail = false ∧ s.boot.complete = false :=
  ⟨State.reset, 1000, by decide +kernel⟩
theorem witness_PowerFailCommands_3 : ∃ (s : State) (w : Nat), 1000 ≤ w ∧ s.pins.pwrfail = false ∧ s.boot.complete = true ∧ s.aon.hold =
  .running ∧ s.ctxs = [] :=
  ⟨{ sled true with names := { (sled true).names with buffer := [dirty 3] } }, 1000, by decide +kernel⟩
theorem witness_PowerFailCommands_4 : ∃ (s : State), s.names.dumping = true ∧ ((s.prot.mcRows.filter fun r => r.kind == .dumpData).map
  fun r => r.blocks.length).sum = s.dumpBlocks.length :=
  ⟨{ { sled true with names := { (sled true).names with buffer := [dirty 3], dumping := true } } with prot := { (sled true).prot with mcRows := [cached 0 .dumpIndex [(0, BitVec.ofNat 32768 (dumpKey 0 1 3))], cached 1 .dumpData [(dumpKey 0 1 3, 9)]] } }, by decide +kernel⟩
theorem witness_PowerFailCommands_5 : ∃ (s : State) (missing : List Nat), s.boot.released = true ∧ s.boot.restored = false ∧ s.ctxs = []
  ∧ s.power.entering = false ∧ s.mirrors = false ∧ s.boot.complete = false :=
  ⟨(sled true).modBoot fun b => { b with restored := false, complete := false }, [], by decide +kernel⟩
theorem witness_PowerFailCommands_6 : ∃ (s : State) (ns : Nat) (lba : Nat) (b : Blk) (x : Ns) (m : DumpMark) (r : McRow), s.boot.released
  = true ∧ s.boot.restored = false ∧ s.ctxs = [] ∧ s.power.entering = false ∧ s.mirrors = false ∧ s.boot.complete = false ∧
  s.prot.mcRows.filter (fun y => y.kind == .dumpData) = [r] ∧ r.blocks = [(dumpKey 0 ns lba, b)] ∧ s.mcMissing r ≤ 2 ∧ s.dumpIndex =
  [dumpKey 0 ns lba] ∧ ((s.prot.mcRows.filter fun y => y.kind == .dumpIndex).all fun y => decide (s.mcMissing y ≤ 2)) = true ∧
  s.nor.config.dumpMark = some m ∧ m.digest = digest (indexBytes [dumpKey 0 ns lba]) ∧ s.ns? ns = some x ∧ x.zoned = false ∧ ns < 2 ^ 14
  ∧ lba < 2 ^ 48 :=
  ⟨restoring, 1, 3, 9, space false, dumpedMark, dumpedRow, by
    repeat' apply And.intro
    all_goals first | decide +kernel | rfl⟩
theorem witness_PowerFailCommands_7 : ∃ (s : State), s.boot.released = true ∧ s.boot.replayed = false :=
  ⟨up.modBoot fun b => { b with replayed := false }, by decide +kernel⟩
theorem witness_FeatureCommands_1 : ∃ (s : State) (c : Nat) (x : Ctx) (f : Fn), AtHand s c (isAdminOp 0x0A) x ∧ x.origin = .host f ∧
  knownFeatures.contains (bits x.entry.cdw10 7 0) = true ∧ bits x.entry.cdw10 10 8 = 0 ∧ bits x.entry.cdw10 7 0 ≠ 4 ∧ bits x.entry.cdw10
  7 0 ≠ 9 ∧ bits x.entry.cdw10 7 0 ≠ 0x16 :=
  ⟨hosting (ctx 0 (entry 10 0xC3 0 0)) (hostFn id id), 7, ctx 0 (entry 10 0xC3 0 0), .a, ⟨by exact ⟨by decide, by decide, by decide, .a, rfl⟩, by decide +kernel⟩⟩
theorem witness_FeatureCommands_2 : ∃ (s : State) (c : Nat) (x : Ctx) (f : Fn), AtHand s c (isAction 0x09 1) x ∧ x.origin = .host f ∧
  saves x.entry = false :=
  ⟨hosting (ctx 0 (entry 9 1 0x03020102 0)) (hostFn id id), 7, ctx 0 (entry 9 1 0x03020102 0), .a, ⟨by exact ⟨by decide, by decide, by decide, .a, rfl⟩, by decide +kernel⟩⟩
theorem witness_FeatureCommands_3 : ∃ (s : State) (c : Nat) (x : Ctx) (f : Fn), AtHand s c (isAction 0x09 2) x ∧ x.origin = .host f ∧
  saves x.entry = false ∧ bits x.entry.cdw11 4 0 ≤ 3 :=
  ⟨hosting (ctx 0 (entry 9 2 2 0)) (hostFn id id), 7, ctx 0 (entry 9 2 2 0), .a, ⟨by exact ⟨by decide, by decide, by decide, .a, rfl⟩, by decide +kernel⟩⟩
theorem witness_FeatureCommands_4 : ∃ (s : State) (c : Nat) (x : Ctx) (f : Fn) (i : Fin 3), AtHand s c (isAction 0x09 4) x ∧ x.origin =
  .host f ∧ saves x.entry = false ∧ tmpSel x.entry.cdw11 = [i] ∧ bits x.entry.cdw11 21 20 = 0 :=
  ⟨hosting (ctx 0 (entry 9 4 300 0)) (hostFn id id), 7, ctx 0 (entry 9 4 300 0), .a, 0, ⟨by exact ⟨by decide, by decide, by decide, .a, rfl⟩, by decide +kernel⟩⟩
theorem witness_FeatureCommands_5 : ∃ (s : State) (c : Nat) (x : Ctx) (f : Fn) (i : Fin 3), AtHand s c (isAction 0x09 4) x ∧ x.origin =
  .host f ∧ saves x.entry = false ∧ tmpSel x.entry.cdw11 = [i] ∧ bits x.entry.cdw11 21 20 = 1 :=
  ⟨hosting (ctx 0 (entry 9 4 (300 + 2 ^ 20) 0)) (hostFn id id), 7, ctx 0 (entry 9 4 (300 + 2 ^ 20) 0), .a, 0, ⟨by exact ⟨by decide, by decide, by decide, .a, rfl⟩, by decide +kernel⟩⟩
theorem witness_FeatureCommands_6 : ∃ (s : State) (c : Nat) (x : Ctx) (f : Fn), AtHand s c (isAction 0x09 6) x ∧ x.origin = .host f ∧
  saves x.entry = false ∧ x.entry.cdw11.getLsbD 0 = true :=
  ⟨hosting (ctx 0 (entry 9 6 1 0)) (hostFn id id), 7, ctx 0 (entry 9 6 1 0), .a, ⟨by exact ⟨by decide, by decide, by decide, .a, rfl⟩, by decide +kernel⟩⟩
theorem witness_FeatureCommands_7 : ∃ (s : State) (c : Nat) (x : Ctx) (f : Fn), AtHand s c (isAction 0x09 6) x ∧ x.origin = .host f ∧
  saves x.entry = false ∧ x.entry.cdw11.getLsbD 0 = false ∧ s.ctxs = [x] ∧ s.dirtyBytes = 0 :=
  ⟨hosting (ctx 0 (entry 9 6 0 0)) (hostFn id id), 7, ctx 0 (entry 9 6 0 0), .a, ⟨by exact ⟨by decide, by decide, by decide, .a, rfl⟩, by decide +kernel⟩⟩
theorem witness_FeatureCommands_8 : ∃ (s : State) (c : Nat) (x : Ctx) (f : Fn), AtHand s c (isAction 0x09 7) x ∧ x.origin = .host f ∧
  saves x.entry = false :=
  ⟨hosting (ctx 0 (entry 9 7 5 0)) (hostFn id id), 7, ctx 0 (entry 9 7 5 0), .a, ⟨by exact ⟨by decide, by decide, by decide, .a, rfl⟩, by decide +kernel⟩⟩
theorem witness_FeatureCommands_9 : ∃ (s : State) (c : Nat) (x : Ctx) (f : Fn), AtHand s c (isAction 0x09 8) x ∧ x.origin = .host f ∧
  saves x.entry = false :=
  ⟨hosting (ctx 0 (entry 9 8 0x0207 0)) (hostFn id id), 7, ctx 0 (entry 9 8 0x0207 0), .a, ⟨by exact ⟨by decide, by decide, by decide, .a, rfl⟩, by decide +kernel⟩⟩
theorem witness_FeatureCommands_10 : ∃ (s : State) (c : Nat) (x : Ctx) (f : Fn) (v : Fin 65), AtHand s c (isAction 0x09 9) x ∧ x.origin =
  .host f ∧ saves x.entry = false ∧ bits x.entry.cdw11 15 0 = v.val :=
  ⟨hosting (ctx 0 (entry 9 9 (5 + 2 ^ 16) 0)) (hostFn id id), 7, ctx 0 (entry 9 9 (5 + 2 ^ 16) 0), .a, 5, ⟨by exact ⟨by decide, by decide, by decide, .a, rfl⟩, by decide +kernel⟩⟩
theorem witness_FeatureCommands_11 : ∃ (s : State) (c : Nat) (x : Ctx) (f : Fn), AtHand s c (isAction 0x09 11) x ∧ x.origin = .host f ∧
  saves x.entry = false :=
  ⟨hosting (ctx 0 (entry 9 11 0x900 0)) (hostFn id id), 7, ctx 0 (entry 9 11 0x900 0), .a, ⟨by exact ⟨by decide, by decide, by decide, .a, rfl⟩, by decide +kernel⟩⟩
theorem witness_FeatureCommands_12 : ∃ (s : State) (c : Nat) (x : Ctx) (f : Fn), AtHand s c (isAction 0x09 192) x ∧ x.origin = .host f ∧
  saves x.entry = false ∧ bits x.entry.cdw11 31 1 = 0 :=
  ⟨hosting (ctx 0 (entry 9 192 0 0)) (hostFn id id), 7, ctx 0 (entry 9 192 0 0), .a, ⟨by exact ⟨by decide, by decide, by decide, .a, rfl⟩, by decide +kernel⟩⟩
theorem witness_FeatureCommands_13 : ∃ (s : State) (c : Nat) (x : Ctx) (f : Fn), AtHand s c (isAction 0x09 192) x ∧ x.origin = .host f ∧
  saves x.entry = true ∧ bits x.entry.cdw11 31 1 = 0 :=
  ⟨hosting (ctx 0 (entry 9 (192 + 2 ^ 31) 0 0)) (hostFn id id), 7, ctx 0 (entry 9 (192 + 2 ^ 31) 0 0), .a, ⟨by exact ⟨by decide, by decide, by decide, .a, rfl⟩, by decide +kernel⟩⟩
theorem witness_FeatureCommands_14 : ∃ (s : State) (c : Nat) (x : Ctx) (f : Fn), AtHand s c (isAction 0x09 193) x ∧ x.origin = .host f ∧
  1 ≤ bits x.entry.cdw11 5 0 ∧ bits x.entry.cdw11 5 0 ≤ 60 ∧ bits x.entry.cdw11 31 6 = 0 ∧ saves x.entry = false :=
  ⟨hosting (ctx 0 (entry 9 193 9 0)) (hostFn id id), 7, ctx 0 (entry 9 193 9 0), .a, ⟨by exact ⟨by decide, by decide, by decide, .a, rfl⟩, by decide +kernel⟩⟩
theorem witness_FeatureCommands_15 : ∃ (s : State) (c : Nat) (x : Ctx) (f : Fn), AtHand s c (isAction 0x09 193) x ∧ x.origin = .host f ∧
  1 ≤ bits x.entry.cdw11 5 0 ∧ bits x.entry.cdw11 5 0 ≤ 60 ∧ bits x.entry.cdw11 31 6 = 0 ∧ saves x.entry = true :=
  ⟨hosting (ctx 0 (entry 9 (193 + 2 ^ 31) 9 0)) (hostFn id id), 7, ctx 0 (entry 9 (193 + 2 ^ 31) 9 0), .a, ⟨by exact ⟨by decide, by decide, by decide, .a, rfl⟩, by decide +kernel⟩⟩
theorem witness_FeatureCommands_16 : ∃ (s : State) (c : Nat) (x : Ctx) (f : Fn), AtHand s c (isAction 0x09 194) x ∧ x.origin = .host f ∧
  1 ≤ bits x.entry.cdw11 4 0 ∧ bits x.entry.cdw11 4 0 ≤ 24 ∧ bits x.entry.cdw11 31 5 = 0 ∧ saves x.entry = false :=
  ⟨hosting (ctx 0 (entry 9 194 9 0)) (hostFn id id), 7, ctx 0 (entry 9 194 9 0), .a, ⟨by exact ⟨by decide, by decide, by decide, .a, rfl⟩, by decide +kernel⟩⟩
theorem witness_FeatureCommands_17 : ∃ (s : State) (c : Nat) (x : Ctx) (f : Fn), AtHand s c (isAction 0x09 194) x ∧ x.origin = .host f ∧
  1 ≤ bits x.entry.cdw11 4 0 ∧ bits x.entry.cdw11 4 0 ≤ 24 ∧ bits x.entry.cdw11 31 5 = 0 ∧ saves x.entry = true :=
  ⟨hosting (ctx 0 (entry 9 (194 + 2 ^ 31) 9 0)) (hostFn id id), 7, ctx 0 (entry 9 (194 + 2 ^ 31) 9 0), .a, ⟨by exact ⟨by decide, by decide, by decide, .a, rfl⟩, by decide +kernel⟩⟩
theorem witness_FeatureCommands_18 : ∃ (s : State) (c : Nat) (x : Ctx) (f : Fn), AtHand s c (isAction 0x09 195) x ∧ x.origin = .host f ∧
  1 ≤ bits x.entry.cdw11 6 0 ∧ bits x.entry.cdw11 6 0 ≤ 64 ∧ bits x.entry.cdw11 31 7 = 0 ∧ saves x.entry = false :=
  ⟨hosting (ctx 0 (entry 9 195 9 0)) (hostFn id id), 7, ctx 0 (entry 9 195 9 0), .a, ⟨by exact ⟨by decide, by decide, by decide, .a, rfl⟩, by decide +kernel⟩⟩
theorem witness_FeatureCommands_19 : ∃ (s : State) (c : Nat) (x : Ctx) (f : Fn), AtHand s c (isAction 0x09 195) x ∧ x.origin = .host f ∧
  1 ≤ bits x.entry.cdw11 6 0 ∧ bits x.entry.cdw11 6 0 ≤ 64 ∧ bits x.entry.cdw11 31 7 = 0 ∧ saves x.entry = true :=
  ⟨hosting (ctx 0 (entry 9 (195 + 2 ^ 31) 9 0)) (hostFn id id), 7, ctx 0 (entry 9 (195 + 2 ^ 31) 9 0), .a, ⟨by exact ⟨by decide, by decide, by decide, .a, rfl⟩, by decide +kernel⟩⟩
theorem witness_FeatureCommands_20 : ∃ (s : State) (c : Nat) (x : Ctx) (f : Fn), AtHand s c (isAction 0x09 196) x ∧ x.origin = .host f ∧
  1 ≤ bits x.entry.cdw11 3 0 ∧ bits x.entry.cdw11 3 0 ≤ 15 ∧ bits x.entry.cdw11 31 4 = 0 ∧ saves x.entry = false :=
  ⟨hosting (ctx 0 (entry 9 196 9 0)) (hostFn id id), 7, ctx 0 (entry 9 196 9 0), .a, ⟨by exact ⟨by decide, by decide, by decide, .a, rfl⟩, by decide +kernel⟩⟩
theorem witness_FeatureCommands_21 : ∃ (s : State) (c : Nat) (x : Ctx) (f : Fn), AtHand s c (isAction 0x09 196) x ∧ x.origin = .host f ∧
  1 ≤ bits x.entry.cdw11 3 0 ∧ bits x.entry.cdw11 3 0 ≤ 15 ∧ bits x.entry.cdw11 31 4 = 0 ∧ saves x.entry = true :=
  ⟨hosting (ctx 0 (entry 9 (196 + 2 ^ 31) 9 0)) (hostFn id id), 7, ctx 0 (entry 9 (196 + 2 ^ 31) 9 0), .a, ⟨by exact ⟨by decide, by decide, by decide, .a, rfl⟩, by decide +kernel⟩⟩
theorem witness_FeatureCommands_22 : ∃ (s : State) (c : Nat) (x : Ctx) (f : Fn), AtHand s c (isAction 0x09 195) x ∧ x.origin = .host f ∧
  64 < bits x.entry.cdw11 6 0 :=
  ⟨hosting (ctx 0 (entry 9 195 65 0)) (hostFn id id), 7, ctx 0 (entry 9 195 65 0), .a, ⟨by exact ⟨by decide, by decide, by decide, .a, rfl⟩, by decide +kernel⟩⟩
theorem witness_FeatureCommands_23 : ∃ (s : State) (c : Nat) (x : Ctx) (f : Fn) (i : Fin 3), AtHand s c (isAdminOp 0x0A) x ∧ x.origin =
  .host f ∧ bits x.entry.cdw10 7 0 = 4 ∧ bits x.entry.cdw10 10 8 = 0 ∧ tmpSel x.entry.cdw11 = [i] ∧ bits x.entry.cdw11 21 20 ≤ 1 :=
  ⟨hosting (ctx 0 (entry 0x0A 4 0 0)) (hostFn id id), 7, (ctx 0 (entry 0x0A 4 0 0)), .a, 0, ⟨by exact ⟨by decide, by decide, by decide, .a, rfl⟩, by decide +kernel⟩⟩
theorem witness_FeatureCommands_24 : ∃ (s : State) (c : Nat) (x : Ctx) (f : Fn), AtHand s c (isAdminOp 0x0A) x ∧ x.origin = .host f ∧
  bits x.entry.cdw10 7 0 = 9 ∧ bits x.entry.cdw10 10 8 = 0 ∧ bits x.entry.cdw11 15 0 ≤ 64 :=
  ⟨hosting (ctx 0 (entry 0x0A 9 3 0)) (hostFn id id), 7, (ctx 0 (entry 0x0A 9 3 0)), .a, ⟨by exact ⟨by decide, by decide, by decide, .a, rfl⟩, by decide +kernel⟩⟩
theorem witness_FeatureCommands_25 : ∃ (s : State) (c : Nat) (x : Ctx) (f : Fn), AtHand s c (isAdminOp 0x0A) x ∧ x.origin = .host f ∧
  bits x.entry.cdw10 7 0 = 0x16 ∧ bits x.entry.cdw10 10 8 = 0 :=
  ⟨hosting (ctx 0 (entry 0x0A (0x16) (0) (0))) (hostFn id id), 7, (ctx 0 (entry 0x0A (0x16) (0) (0))), .a, ⟨by exact ⟨by decide, by decide, by decide, .a, rfl⟩, by decide +kernel⟩⟩
theorem witness_FeatureCommands_26 : ∃ (s : State) (c : Nat) (x : Ctx) (f : Fn), AtHand s c (isAdminOp 0x0A) x ∧ x.origin = .host f ∧
  knownFeatures.contains (bits x.entry.cdw10 7 0) = false :=
  ⟨hosting (ctx 0 (entry 0x0A 3 0 0)) (hostFn id id), 7, (ctx 0 (entry 0x0A 3 0 0)), .a, ⟨by exact ⟨by decide, by decide, by decide, .a, rfl⟩, by decide +kernel⟩⟩
theorem witness_FeatureCommands_27 : ∃ (s : State) (c : Nat) (x : Ctx) (f : Fn), AtHand s c (isAction 0x09 4) x ∧ x.origin = .host f ∧
  saves x.entry = false ∧ tmpSel x.entry.cdw11 = [0, 1, 2] ∧ bits x.entry.cdw11 21 20 = 0 :=
  ⟨hosting (ctx 0 (entry 9 (4) (15 * 2 ^ 16 + 300) (0))) (hostFn id id), 7, (ctx 0 (entry 9 (4) (15 * 2 ^ 16 + 300) (0))), .a, ⟨by exact ⟨by decide, by decide, by decide, .a, rfl⟩, by decide +kernel⟩⟩
theorem witness_FeatureCommands_28 : ∃ (s : State) (c : Nat) (x : Ctx) (f : Fn), AtHand s c (isAction 0x09 4) x ∧ x.origin = .host f ∧
  saves x.entry = false ∧ bits x.entry.cdw10 31 31 = 0 ∧ tmpSel x.entry.cdw11 = [] :=
  ⟨hosting (ctx 0 (entry 9 (4) (5 * 2 ^ 16) (0))) (hostFn id id), 7, (ctx 0 (entry 9 (4) (5 * 2 ^ 16) (0))), .a, ⟨by exact ⟨by decide, by decide, by decide, .a, rfl⟩, by decide +kernel⟩⟩
theorem witness_FeatureCommands_29 : ∃ (s : State) (c : Nat) (x : Ctx) (f : Fn), AtHand s c (isAction 0x09 1) x ∧ x.origin = .host f ∧
  saves x.entry = true :=
  ⟨hosting (ctx 0 (entry 9 (1 + 2 ^ 31) (0) (0))) (hostFn id id), 7, (ctx 0 (entry 9 (1 + 2 ^ 31) (0) (0))), .a, ⟨by exact ⟨by decide, by decide, by decide, .a, rfl⟩, by decide +kernel⟩⟩
theorem witness_FeatureCommands_30 : ∃ (s : State) (c : Nat) (x : Ctx) (f : Fn), AtHand s c (isAction 0x09 193) x ∧ x.origin = .host f ∧
  (bits x.entry.cdw11 5 0 = 0 ∨ 60 < bits x.entry.cdw11 5 0) :=
  ⟨hosting (ctx 0 (entry 9 193 0 0)) (hostFn id id), 7, (ctx 0 (entry 9 193 0 0)), .a, ⟨by exact ⟨by decide, by decide, by decide, .a, rfl⟩, by decide +kernel⟩⟩
theorem witness_FeatureCommands_31 : ∃ (s : State) (c : Nat) (x : Ctx) (f : Fn), AtHand s c (isAction 0x09 194) x ∧ x.origin = .host f ∧
  (bits x.entry.cdw11 4 0 = 0 ∨ 24 < bits x.entry.cdw11 4 0) :=
  ⟨hosting (ctx 0 (entry 9 194 0 0)) (hostFn id id), 7, (ctx 0 (entry 9 194 0 0)), .a, ⟨by exact ⟨by decide, by decide, by decide, .a, rfl⟩, by decide +kernel⟩⟩
theorem witness_FeatureCommands_32 : ∃ (s : State) (c : Nat) (x : Ctx) (f : Fn), AtHand s c (isAction 0x09 196) x ∧ x.origin = .host f ∧
  bits x.entry.cdw11 3 0 = 0 :=
  ⟨hosting (ctx 0 (entry 9 196 0 0)) (hostFn id id), 7, (ctx 0 (entry 9 196 0 0)), .a, ⟨by exact ⟨by decide, by decide, by decide, .a, rfl⟩, by decide +kernel⟩⟩
theorem witness_IdentityCommands_1 : ∃ (s : State), s.booting = true ∧ 4 ≤ s.aon.step.toNat ∧ s.ident.keyReady = false ∧
  s.ident.keyFailed = false :=
  ⟨rom 5, by decide +kernel⟩
theorem witness_IdentityCommands_2 : ∃ (s : State) (m : List Byte), s.boot.released = true ∧ s.boot.complete = false :=
  ⟨up.modBoot fun b => { b with complete := false }, [1, 2], by decide +kernel⟩
theorem witness_IdentityCommands_3 : ∃ (s : State) (m : List Byte), s.boot.complete = true :=
  ⟨up, [1], by decide +kernel⟩
theorem witness_IdentityCommands_4 : ∃ (s : State), s.boot.released = true ∧ s.ident.sealed = false ∧ s.allPortsEnded = true :=
  ⟨up, by decide +kernel⟩
theorem witness_IdentityCommands_5 : ∃ (s : State), s.boot.released = true ∧ s.ident.sealed = false ∧ s.allPortsEnded = true :=
  ⟨up, by decide +kernel⟩
theorem witness_IdentityCommands_6 : ∃ (s : State) (n : Nat) (bs : List Byte) (l : List (Nat × List Byte)), s.ident.pendingNor = (n, bs)
  :: l :=
  ⟨up.modIdent fun i => { i with pendingNor := [(1, [5]), (0, [])] }, 1, [5], [(0, [])], by decide +kernel⟩
theorem witness_IdentityCommands_7 : ∃ (s : State) (n : Nat) (bs : List Byte) (l : List (Nat × List Byte)), s.ident.pendingNor = (n, bs)
  :: l :=
  ⟨up.modIdent fun i => { i with pendingNor := [(7, [1, 2])] }, 7, [1, 2], [], by decide +kernel⟩
theorem witness_IdentityCommands_8 : ∃ (s : State), s.boot.released = true ∧ s.ident.due = [] ∧ s.ident.pendingNor = [] :=
  ⟨up, by decide +kernel⟩
theorem witness_IdentityCommands_9 : ∃ (s : State), (s.boot.released = false ∨ s.ident.due ≠ [] ∨ s.ident.pendingNor ≠ []) :=
  ⟨up.modBoot fun b => { b with released := false }, by decide +kernel⟩
theorem witness_FirmwareCommands_1 : ∃ (s : State) (c : Nat) (x : Ctx), AtHand s c (fun y => isAdminOp 0x82 y && spsp y.entry == 0) x ∧
  secp x.entry = 0xF0 :=
  ⟨hosting (ctx 0 (entry 0x82 (0xF0000000 + 0 * 256) 4096 0)) (up), 7, ctx 0 (entry 0x82 (0xF0000000 + 0 * 256) 4096 0), ⟨by exact ⟨by decide, by decide, by decide, .a, rfl⟩, by decide +kernel⟩⟩
theorem witness_FirmwareCommands_2 : ∃ (s : State) (c : Nat) (x : Ctx) (bs : List Byte), AtHand s c (isAdminOp 0x82) x ∧ secp x.entry =
  0xF0 ∧ 1 ≤ spsp x.entry ∧ spsp x.entry ≤ 0x100 ∧ s.playbillWhole (spsp x.entry - 1) = some bs :=
  ⟨hosting (ctx 0 (entry 0x82 (0xF0000000 + 1 * 256) 4096 0)) (up.modIdent fun i => { i with pendingNor := [(0, List.replicate 9005 0)] }), 7, ctx 0 (entry 0x82 (0xF0000000 + 1 * 256) 4096 0), List.replicate 9005 0, ⟨by exact ⟨by decide, by decide, by decide, .a, rfl⟩, by decide +kernel⟩⟩
theorem witness_FirmwareCommands_3 : ∃ (s : State) (c : Nat) (x : Ctx), AtHand s c (isAdminOp 0x82) x ∧ secp x.entry = 0xF0 ∧ 1 ≤ spsp
  x.entry ∧ spsp x.entry ≤ 0x100 ∧ s.playbillWhole (spsp x.entry - 1) = none :=
  ⟨hosting (ctx 0 (entry 0x82 (0xF0000000 + 3 * 256) 4096 0)) (up), 7, ctx 0 (entry 0x82 (0xF0000000 + 3 * 256) 4096 0), ⟨by exact ⟨by decide, by decide, by decide, .a, rfl⟩, by decide +kernel⟩⟩
theorem witness_FirmwareCommands_4 : ∃ (s : State) (c : Nat) (x : Ctx), AtHand s c (fun y => isAdminOp 0x82 y && spsp y.entry == 0x200) x
  ∧ secp x.entry = 0xF0 :=
  ⟨hosting (ctx 0 (entry 0x82 (0xF0000000 + 0x200 * 256) 4096 0)) (up), 7, ctx 0 (entry 0x82 (0xF0000000 + 0x200 * 256) 4096 0), ⟨by exact ⟨by decide, by decide, by decide, .a, rfl⟩, by decide +kernel⟩⟩
theorem witness_FirmwareCommands_5 : ∃ (s : State) (c : Nat) (x : Ctx), AtHand s c (fun y => isAdminOp 0x82 y && spsp y.entry == 0x201) x
  ∧ secp x.entry = 0xF0 :=
  ⟨hosting (ctx 0 (entry 0x82 (0xF0000000 + 0x201 * 256) 4096 0)) (up), 7, ctx 0 (entry 0x82 (0xF0000000 + 0x201 * 256) 4096 0), ⟨by exact ⟨by decide, by decide, by decide, .a, rfl⟩, by decide +kernel⟩⟩
theorem witness_FirmwareCommands_6 : ∃ (s : State) (c : Nat) (x : Ctx), AtHand s c (fun y => isAdminOp 0x81 y && spsp y.entry == 0x300) x
  ∧ secp x.entry = 0xF0 ∧ 32 ≤ (x.entry.data.take x.entry.cdw11.toNat).length :=
  ⟨hosting (ctx 0 ({ entry 0x81 (0xF0000000 + 0x300 * 256) 32 0 with data := List.replicate 40 7 })) (up), 7, ctx 0 ({ entry 0x81 (0xF0000000 + 0x300 * 256) 32 0 with data := List.replicate 40 7 }), ⟨by exact ⟨by decide, by decide, by decide, .a, rfl⟩, by decide +kernel⟩⟩
theorem witness_FirmwareCommands_7 : ∃ (s : State) (c : Nat) (x : Ctx), AtHand s c (fun y => isAdminOp 0x82 y && spsp y.entry == 0x300) x
  ∧ secp x.entry = 0xF0 ∧ s.nonceOf x = none :=
  ⟨hosting (ctx 0 (entry 0x82 (0xF0000000 + 0x300 * 256) 4096 0)) (up), 7, ctx 0 (entry 0x82 (0xF0000000 + 0x300 * 256) 4096 0), ⟨by exact ⟨by decide, by decide, by decide, .a, rfl⟩, by decide +kernel⟩⟩
theorem witness_FirmwareCommands_8 : ∃ (s : State) (c : Nat) (x : Ctx) (n : List Byte), AtHand s c (fun y => isAdminOp 0x82 y && spsp
  y.entry == 0x300) x ∧ secp x.entry = 0xF0 ∧ s.nonceOf x = some n :=
  ⟨hosting (ctx 0 (entry 0x82 (0xF0000000 + 0x300 * 256) 4096 0)) (up.modIdent fun i => { i with nonceA := some [7] }), 7, ctx 0 (entry 0x82 (0xF0000000 + 0x300 * 256) 4096 0), [7], ⟨by exact ⟨by decide, by decide, by decide, .a, rfl⟩, by decide +kernel⟩⟩
theorem witness_FirmwareCommands_9 : ∃ (s : State) (c : Nat) (x : Ctx), AtHand s c (fun y => isAdminOp 0x81 y && spsp y.entry == 0x400) x
  ∧ secp x.entry = 0xF0 :=
  ⟨hosting (ctx 0 (entry 0x81 (0xF0000000 + 0x400 * 256) 4096 0)) (up), 7, ctx 0 (entry 0x81 (0xF0000000 + 0x400 * 256) 4096 0), ⟨by exact ⟨by decide, by decide, by decide, .a, rfl⟩, by decide +kernel⟩⟩
theorem witness_FirmwareCommands_10 : ∃ (s : State) (c : Nat) (x : Ctx) (f : Fn), AtHand s c (isAdminOp 0x11) x ∧ x.origin = .host f ∧ 4
  * (x.entry.cdw10.toNat + 1) + 4 * x.entry.cdw11.toNat ≤ downloadSize :=
  ⟨hosting (ctx 0 { entry 0x11 1 2 0 with data := [1, 2, 3, 4, 5, 6, 7, 8] }) up, 7, ctx 0 { entry 0x11 1 2 0 with data := [1, 2, 3, 4, 5, 6, 7, 8] }, .a, ⟨by exact ⟨by decide, by decide, by decide, .a, rfl⟩, by decide +kernel⟩⟩
theorem witness_FirmwareCommands_11 : ∃ (s : State) (c : Nat) (x : Ctx) (f : Fn), AtHand s c (isCommit 0) x ∧ x.origin = .host f ∧
  commitFs x.entry.cdw10 ≤ 2 ∧ s.slotRuns (s.slotFor (commitFs x.entry.cdw10)) = false ∧ s.activeOps 6 = [] ∧ s.placeFull 6 = false :=
  ⟨hosting (ctx 0 (entry 0x10 (2 + 8 * 0) 0 0)) (sled true), 7, ctx 0 (entry 0x10 (2 + 8 * 0) 0 0), .a, ⟨by exact ⟨by decide, by decide, by decide, .a, rfl⟩, by decide +kernel⟩⟩
theorem witness_FirmwareCommands_12 : ∃ (s : State) (c : Nat) (x : Ctx) (f : Fn), AtHand s c (isCommit 1) x ∧ x.origin = .host f ∧
  commitFs x.entry.cdw10 ≤ 2 ∧ s.slotRuns (s.slotFor (commitFs x.entry.cdw10)) = false ∧ s.activeOps 6 = [] ∧ s.placeFull 6 = false :=
  ⟨hosting (ctx 0 (entry 0x10 (2 + 8 * 1) 0 0)) (sled true), 7, ctx 0 (entry 0x10 (2 + 8 * 1) 0 0), .a, ⟨by exact ⟨by decide, by decide, by decide, .a, rfl⟩, by decide +kernel⟩⟩
theorem witness_FirmwareCommands_13 : ∃ (s : State) (c : Nat) (x : Ctx) (f : Fn), AtHand s c (isCommit 0) x ∧ x.origin = .host f ∧
  commitFs x.entry.cdw10 ≤ 2 ∧ s.slotRuns (s.slotFor (commitFs x.entry.cdw10)) = true :=
  ⟨hosting (ctx 0 (entry 0x10 1 0 0)) (sled true), 7, ctx 0 (entry 0x10 1 0 0), .a, ⟨by exact ⟨by decide, by decide, by decide, .a, rfl⟩, by decide +kernel⟩⟩
theorem witness_FirmwareCommands_14 : ∃ (s : State) (c : Nat) (x : Ctx) (f : Fn), AtHand s c (isCommit 2) x ∧ x.origin = .host f ∧
  commitFs x.entry.cdw10 ≤ 2 ∧ s.slotRuns (s.slotFor (commitFs x.entry.cdw10)) = false ∧ s.nor.dir.stateOf (s.slotFor (commitFs
  x.entry.cdw10)) = 1 ∧ s.nor.dir.sequence.toNat + 1 < 2 ^ 32 :=
  ⟨hosting (ctx 0 (entry 0x10 (2 + 8 * 2) 0 0)) (sled true), 7, ctx 0 (entry 0x10 (2 + 8 * 2) 0 0), .a, ⟨by exact ⟨by decide, by decide, by decide, .a, rfl⟩, by decide +kernel⟩⟩
theorem witness_FirmwareCommands_15 : ∃ (s : State) (c : Nat) (x : Ctx) (f : Fn), AtHand s c (isCommit 2) x ∧ x.origin = .host f ∧
  commitFs x.entry.cdw10 ≤ 2 ∧ (s.slotRuns (s.slotFor (commitFs x.entry.cdw10)) = true ∨ s.nor.dir.stateOf (s.slotFor (commitFs
  x.entry.cdw10)) ≠ 1) :=
  ⟨hosting (ctx 0 (entry 0x10 0x11 0 0)) (sled true), 7, ctx 0 (entry 0x10 0x11 0 0), .a, ⟨by exact ⟨by decide, by decide, by decide, .a, rfl⟩, by decide +kernel⟩⟩
theorem witness_FirmwareCommands_16 : ∃ (s : State) (o : LongOp), (s.running 6).head? = some o ∧ s.mem.halted.contains 0x04 = false ∧
  o.suspendAsked = false ∧ o.cancelAsked = false ∧ (s.op? o.handle) = some o ∧ o.cursor < o.total :=
  ⟨(sled true).modCfg fun c => { c with ops := [{ long 6 .running with total := 70000, image := [1, 2, 3], slot := true }] }, { long 6 .running with total := 70000, image := [1, 2, 3], slot := true }, by decide +kernel⟩
theorem witness_FirmwareCommands_17 : ∃ (s : State) (o : LongOp), (s.running 6).head? = some o ∧ s.mem.halted.contains 0x04 = false ∧
  o.suspendAsked = false ∧ o.cancelAsked = false ∧ (s.op? o.handle) = some o ∧ o.total ≤ o.cursor ∧ s.nor.slotOf o.slot = o.image ∧
  s.nor.dir.sequence.toNat + 1 < 2 ^ 32 :=
  ⟨(sled true).modCfg fun c => { c with ops := [{ long 6 .running with slot := true, prefer := true }] }, { long 6 .running with slot := true, prefer := true }, by decide +kernel⟩
theorem witness_FirmwareCommands_18 : ∃ (s : State) (o : LongOp), (s.running 6).head? = some o ∧ s.mem.halted.contains 0x04 = false ∧
  o.suspendAsked = false ∧ o.cancelAsked = false ∧ (s.op? o.handle) = some o :=
  ⟨(sled true).modCfg fun c => { c with ops := [{ long 6 .running with slot := true }] }, { long 6 .running with slot := true }, by decide +kernel⟩
theorem witness_FirmwareCommands_19 : ∃ (s : State) (c : Nat) (x : Ctx) (m : Manifest) (u : Manifest) (ok : Bool), AtHand s c (fun y =>
  isAdminOp 0x81 y && spsp y.entry == 0x400) x ∧ secp x.entry = 0xF0 ∧ s.ident.manifest = some u :=
  ⟨hosting (ctx 0 (entry 0x81 (0xF0000000 + 0x400 * 256) (4096) (0))) (up.modIdent fun i => { i with manifest := some { minSecurity := 0, sequence := 5, revoke := 0, pers := [], clear := [] } }), 7, (ctx 0 (entry 0x81 (0xF0000000 + 0x400 * 256) (4096) (0))), { minSecurity := 0, sequence := 5, revoke := 0, pers := [], clear := [] }, { minSecurity := 0, sequence := 5, revoke := 0, pers := [], clear := [] }, true, ⟨by exact ⟨by decide, by decide, by decide, .a, rfl⟩, by decide +kernel⟩⟩
theorem witness_FirmwareCommands_20 : ∃ (s : State) (c : Nat) (x : Ctx) (f : Fn), AtHand s c (isAdminOp 0x11) x ∧ x.origin = .host f ∧ 4
  * (x.entry.cdw10.toNat + 1) ≤ downloadSize ∧ downloadSize < 4 * (x.entry.cdw10.toNat + 1) + 4 * x.entry.cdw11.toNat :=
  ⟨hosting (ctx 0 (entry 0x11 (0) (4 * mib) (0))) (hostFn id id), 7, (ctx 0 (entry 0x11 (0) (4 * mib) (0))), .a, ⟨by exact ⟨by decide, by decide, by decide, .a, rfl⟩, by decide +kernel⟩⟩
theorem witness_FirmwareCommands_21 : ∃ (s : State) (c : Nat) (x : Ctx) (f : Fn), AtHand s c (isCommit 1) x ∧ x.origin = .host f ∧
  commitFs x.entry.cdw10 ≤ 2 ∧ s.slotRuns (s.slotFor (commitFs x.entry.cdw10)) = true :=
  ⟨hosting (ctx 0 (entry 0x10 (1 + 8 * 1) (0) (0))) (hostFn id id), 7, (ctx 0 (entry 0x10 (1 + 8 * 1) (0) (0))), .a, ⟨by exact ⟨by decide, by decide, by decide, .a, rfl⟩, by decide +kernel⟩⟩
theorem witness_HostResetCommands_1 : ∃ (s : State) (f : Fn) (w : Nat), w ≤ 1000 :=
  ⟨hostFn id id, .a, 1000, by decide +kernel⟩
theorem witness_HostResetCommands_2 : ∃ (s : State) (f : Fn) (w : Nat), 100000 ≤ w ∧ (s.ctxs.all fun x => x.origin == .host f &&
  !x.keptData) = true ∧ s.power.entering = false :=
  ⟨hostFn id id, .a, 100000, by decide +kernel⟩
theorem witness_HostResetCommands_3 : ∃ (s : State) (f : Fn), (match f with | .a => s.pins.perstA | .b => s.pins.perstB) = true :=
  ⟨up.modPins fun p => { p with perstA := true }, .a, by decide +kernel⟩
theorem witness_HostResetCommands_4 : ∃ (s : State) (f : Fn), s.aon.hold = .running ∧ s.perstOf f = false ∧ s.pins.refclk f = true ∧ 4 ≤
  s.aon.step.toNat ∧ (s.fn f).cfgReady = false :=
  ⟨hostFn id fun x => { x with cfgReady := false }, .a, by decide +kernel⟩
theorem witness_HostResetCommands_5 : ∃ (s : State) (f : Fn) (cc : W32) (aqa : W32), (s.fn f).cfgReady = true ∧ (s.fn f).d3hot = false ∧
  s.crosses f = true ∧ (s.fn f).cc.getLsbD 0 = false ∧ s.aon.error = 0 ∧ bits (cc ||| 1) 6 4 = 6 ∧ bits aqa 11 0 ≠ 0 ∧ bits aqa 27 16 ≠ 0
  :=
  ⟨hostFn id fun x => { x with cc := 0 }, .a, 0x460060, 0x00FF00FF, by decide +kernel⟩
theorem witness_HostResetCommands_6 : ∃ (s : State) (f : Fn) (cc : W32) (aqa : W32), (s.fn f).cfgReady = true ∧ (s.fn f).d3hot = false ∧
  s.crosses f = true ∧ (s.fn f).cc.getLsbD 0 = false ∧ bits (cc ||| 1) 6 4 ≠ 6 :=
  ⟨hostFn id fun x => { x with cc := 0 }, .a, 0x460000, 0x00FF00FF, by decide +kernel⟩
theorem witness_HostResetCommands_7 : ∃ (s : State) (f : Fn), (s.fn f).cc.getLsbD 0 = true ∧ (s.fn f).d3hot = false ∧ s.crosses f = true
  ∧ (s.ctxs.all fun x => x.origin == .host f && !x.keptData) = true ∧ s.power.entering = false :=
  ⟨hostFn id id, .a, by decide +kernel⟩
theorem witness_HostResetCommands_8 : ∃ (s : State) (f : Fn), (s.fn f).rdy = true ∧ (s.fn f).d3hot = false ∧ (s.fn f).shst = 0 ∧
  s.crosses f = true ∧ s.ctxs = [] ∧ s.power.entering = false :=
  ⟨hostFn id id, .a, by decide +kernel⟩
theorem witness_HostResetCommands_9 : ∃ (s : State) (f : Fn), (s.fn f).rdy = true ∧ (s.fn f).d3hot = false ∧ (s.fn f).shst = 0 ∧
  s.crosses f = true ∧ s.ctxs = [] ∧ s.power.entering = false :=
  ⟨hostFn id id, .a, by decide +kernel⟩
theorem witness_HostResetCommands_10 : ∃ (s : State) (f : Fn), (s.fn f).cfgReady = true ∧ s.linkUp f = true ∧ (s.ctxs.all fun x =>
  x.origin == .host f && !x.keptData) = true ∧ s.power.entering = false :=
  ⟨hostFn id id, .a, by decide +kernel⟩
theorem witness_HostResetCommands_11 : ∃ (s : State) (f : Fn) (en : Bool) (clr : Bool), (s.fn f).cfgReady = true ∧ s.linkUp f = true :=
  ⟨hostFn id id, .a, true, false, by decide +kernel⟩
theorem witness_HostResetCommands_12 : ∃ (s : State) (f : Fn) (en : Bool) (clr : Bool), (s.fn f).cfgReady = true ∧ s.linkUp f = true ∧
  s.ctxs = [] :=
  ⟨hostFn id fun x => { x with d3hot := true }, .a, true, true, by decide +kernel⟩
theorem witness_HostResetCommands_13 : ∃ (s : State) (f : Fn) (en : Bool) (clr : Bool), (s.fn f).cfgReady = false ∧ s.linkUp f = true :=
  ⟨hostFn id fun x => { x with cfgReady := false }, .a, true, false, by decide +kernel⟩
theorem witness_HostResetCommands_14 : ∃ (s : State) (f : Fn) (cc : W32) (aqa : W32), (s.fn f).cfgReady = true ∧ (s.fn f).d3hot = false ∧
  s.crosses f = true ∧ (s.fn f).cc.getLsbD 0 = false ∧ (bits aqa 11 0 = 0 ∨ bits aqa 27 16 = 0) :=
  ⟨hostFn id fun x => { x with cc := 0 }, .a, 0x460000, 0, by decide +kernel⟩
theorem witness_HostResetCommands_15 : ∃ (s : State) (f : Fn) (en : Bool) (clr : Bool), s.linkUp f = false :=
  ⟨(hostFn id id).modPins fun p => { p with refclkA := false }, .a, true, true, by decide +kernel⟩
theorem witness_QueueCommands_1 : ∃ (s : State) (f : Fn) (q : Nat) (v : Nat) (w : Nat) (y : SubQ), s.answers f = true ∧ (s.fn f).sq? q =
  some y ∧ y.deleting = false ∧ y.badTail v = false ∧ (s.fn f).shadow = none :=
  ⟨hostFn id id, .a, 1, 9, 0, SubQ.fresh 1 64 1 0, by decide +kernel⟩
theorem witness_QueueCommands_2 : ∃ (s : State) (f : Fn) (q : Nat) (v : Nat) (w : Nat) (y : SubQ), s.answers f = true ∧ (s.fn f).sq? q =
  some y ∧ y.deleting = false ∧ y.badTail v = true ∧ (s.fn f).shadow = none ∧ (s.fn f).aers = [] :=
  ⟨hostFn id id, .a, 1, 64, 0, SubQ.fresh 1 64 1 0, by decide +kernel⟩
theorem witness_QueueCommands_3 : ∃ (s : State) (f : Fn) (q : Nat) (v : Nat) (w : Nat) (y : CplQ), s.answers f = true ∧ (s.fn f).cq? q =
  some y ∧ y.badHead v = false ∧ (s.fn f).shadow = none :=
  ⟨hostFn (fun k => { k with tail := 9 }) id, .a, 1, 9, 0, { CplQ.fresh 1 64 3 true with tail := 9 }, by decide +kernel⟩
theorem witness_QueueCommands_4 : ∃ (s : State) (f : Fn) (q : Nat), s.answers f = true ∧ (s.fn f).sq? q = none ∧ (s.fn f).aers = [] :=
  ⟨hostFn id id, .a, 5, by decide +kernel⟩
theorem witness_QueueCommands_5 : ∃ (s : State) (f : Fn) (entries : List SqEntry) (w : Nat) (q : Nat) (x : HostFn) (y : SubQ) (k : Nat),
  s.mayFetch f = true ∧ (s.fn f).pick = some (q, x) ∧ x.sq? q = some y ∧ (s.fn f).shadow = none ∧ k = min (min x.burst y.held)
  entries.length ∧ k ≤ s.ownFree f (q == 0) :=
  ⟨(hostFn id fun x => { x with sqs := x.sqs.map fun y => { y with tail := 2 } }), .a, [entry 2 0 0 0, entry 1 0 0 0], 0, 0, (hostFn id fun x => { x with sqs := x.sqs.map fun y => { y with tail := 2 } }).fa, { SubQ.fresh 0 256 0 0 with tail := 2 }, 2, by decide +kernel⟩
theorem witness_QueueCommands_6 : ∃ (s : State) (f : Fn) (x : Ctx), s.nextFetched = some x ∧ s.ctx? x.id = some x ∧ x.origin = .host f ∧
  isAction 0x09 0x16 x = false ∧ s.pair.mode = false ∧ ((s.fn f).sq? x.sq).any SubQ.deleting = false ∧ (if x.isAdmin then adminFault
  x.entry else ioFault x.entry) = none :=
  ⟨hosting { (ctx 1 (entry 2 0 0 0)) with stage := .fetched } (hostFn id id), .a, { (ctx 1 (entry 2 0 0 0)) with stage := .fetched }, by decide +kernel⟩
theorem witness_QueueCommands_7 : ∃ (s : State) (f : Fn) (x : Ctx), s.nextFetched = some x ∧ s.ctx? x.id = some x ∧ x.origin = .host f ∧
  isAction 0x09 0x16 x = true ∧ s.pair.mode = false ∧ ((s.fn f).sq? x.sq).any SubQ.deleting = false ∧ adminFault x.entry = none ∧ saves
  x.entry = false :=
  ⟨hosting { (ctx 0 (entry 9 0x16 0 0)) with stage := .fetched } (hostFn id id), .a, { (ctx 0 (entry 9 0x16 0 0)) with stage := .fetched }, by decide +kernel⟩
theorem witness_QueueCommands_8 : ∃ (s : State) (f : Fn) (x : Ctx) (r : Cpl), s.nextFetched = some x ∧ s.ctx? x.id = some x ∧ x.origin =
  .host f ∧ s.pair.mode = false ∧ ((s.fn f).sq? x.sq).any SubQ.deleting = false ∧ (if x.isAdmin then adminFault x.entry else ioFault
  x.entry) = some r :=
  ⟨hosting { (ctx 1 (entry 0x55 0 0 0)) with stage := .fetched } (hostFn id id), .a, { (ctx 1 (entry 0x55 0 0 0)) with stage := .fetched }, Cpl.badOpcode, ⟨by first | decide | rfl, by first | decide | rfl, by first | decide | rfl, by first | decide | rfl, by first | decide | rfl, by first | decide | rfl⟩⟩
theorem witness_QueueCommands_9 : ∃ (s : State) (f : Fn) (w : Nat) (x : Ctx) (r : Cpl) (q : SubQ) (k : CplQ), (s.fn f).d3hot = false ∧
  s.crosses f = true ∧ s.ctxs = [x] ∧ x.stage = .decided ∧ x.origin = .host f ∧ x.cpl = some r ∧ r.unlogged = true ∧ r.sct ≠ 2 ∧ (s.fn
  f).sq? x.sq = some q ∧ (s.fn f).cq? q.cq = some k ∧ k.full = false ∧ s.power.entering = false :=
  ⟨{ (hostFn id id) with ctxs := [{ (ctx 1 (entry 2 0 0 0)) with stage := .decided, cpl := some Cpl.ok }] }, .a, 0, { (ctx 1 (entry 2 0 0 0)) with stage := .decided, cpl := some Cpl.ok }, Cpl.ok, SubQ.fresh 1 64 1 0, CplQ.fresh 1 64 3 true, by decide +kernel⟩
theorem witness_QueueCommands_10 : ∃ (s : State) (f : Fn) (w : Nat) (x : Ctx), (s.fn f).d3hot = true ∧ s.crosses f = true ∧ s.ctxs = [x]
  ∧ x.stage = .decided ∧ x.origin = .host f ∧ x.heldD3 = false ∧ x.wait ≠ .room :=
  ⟨{ (hostFn id fun x => { x with d3hot := true }) with ctxs := [{ (ctx 1 (entry 2 0 0 0)) with stage := .decided, cpl := some Cpl.ok }] }, .a, 0, { (ctx 1 (entry 2 0 0 0)) with stage := .decided, cpl := some Cpl.ok }, by decide +kernel⟩
theorem witness_QueueCommands_11 : ∃ (s : State) (f : Fn) (v : Fin 65) (at_ : Nat), ((s.fn f).vec v).timerAt = some at_ ∧ (s.fn f).time ≠
  0 ∧ coalesced (s.fn f) v = true ∧ ((s.fn f).vec v).masked = false ∧ (s.fn f).msixEnabled = true ∧ (s.fn f).d3hot = false :=
  ⟨hostFn id fun x => { x with time := 2, vecs := upd x.vecs 3 fun y => { y with count := 1, timerAt := some 50 } }, .a, 3, 50, by decide +kernel⟩
theorem witness_QueueCommands_12 : ∃ (s : State) (f : Fn) (v : Fin 65) (at_ : Nat), ((s.fn f).vec v).timerAt = some at_ ∧ (s.fn f).time ≠
  0 ∧ coalesced (s.fn f) v = true ∧ (s.fn f).d3hot = true :=
  ⟨hostFn id fun x => { x with d3hot := true, pmeEn := true, time := 2, vecs := upd x.vecs 3 fun y => { y with count := 1, timerAt := some 50 } }, .a, 3, 50, by decide +kernel⟩
theorem witness_QueueCommands_13 : ∃ (s : State) (f : Fn) (v : Fin 65), s.crosses f = true ∧ (s.fn f).d3hot = false ∧ (s.fn
  f).msixEnabled = true ∧ ((s.fn f).vec v).pending = true ∧ ((s.fn f).vec v).cond = true :=
  ⟨hostFn id fun x => { x with vecs := upd x.vecs 3 fun y => { y with masked := true, pending := true, cond := true } }, .a, 3, by decide +kernel⟩
theorem witness_QueueCommands_14 : ∃ (s : State) (f : Fn), (s.fn f).cfgReady = true ∧ s.linkUp f = true :=
  ⟨hostFn id fun x => { x with msixEnabled := false }, .a, by decide +kernel⟩
theorem witness_QueueCommands_15 : ∃ (s : State) (f : Fn) (g : Fin 2) (st : AnaState), s.pair.mode = true ∧ (if g = 1 then (s.fn f).ana2
  else (s.fn f).ana1) ≠ st ∧ (s.fn f).asyncCfg.getLsbD 11 = false :=
  ⟨duo id, .a, 1, .change, by decide +kernel⟩
theorem witness_QueueCommands_16 : ∃ (s : State) (c : Nat) (x : Ctx) (f : Fn), s.ctxs = [x] ∧ x.id = c ∧ (x.stage = .admitted ∨ x.stage =
  .awaitData ∨ x.reading = true) ∧ x.origin = .host f ∧ s.power.entering = false :=
  ⟨{ (hostFn id id) with ctxs := [{ (ctx 1 (entry 1 0 0 0)) with stage := .awaitData }] }, 7, { (ctx 1 (entry 1 0 0 0)) with stage := .awaitData }, .a, by decide +kernel⟩
theorem witness_QueueCommands_17 : ∃ (s : State) (f : Fn) (q : Nat) (v : Nat) (w : Nat) (y : CplQ), s.answers f = true ∧ (s.fn f).cq? q =
  some y ∧ y.badHead v = true ∧ (s.fn f).shadow = none ∧ (s.fn f).aers = [] :=
  ⟨hostFn id id, .a, 1, 5, 0, CplQ.fresh 1 64 3 true, by decide +kernel⟩
theorem witness_QueueCommands_18 : ∃ (s : State) (f : Fn) (q : Nat) (v : Nat) (w : Nat) (y : SubQ), s.answers f = true ∧ (s.fn f).sq? q =
  some y ∧ y.deleting = false ∧ y.badTail v = false ∧ ((s.fn f).shadowAt q false).isSome = true ∧ ({ y with tail := v } : SubQ).badTail w
  = false :=
  ⟨(hostFn id fun x => { x with shadow := some (4096, 8192) }), .a, 1, 9, 12, SubQ.fresh 1 64 1 0, by decide +kernel⟩
theorem witness_QueueCommands_19 : ∃ (s : State) (f : Fn) (q : Nat) (v : Nat) (w : Nat) (y : CplQ), s.answers f = true ∧ (s.fn f).cq? q =
  some y ∧ y.badHead v = false ∧ ((s.fn f).shadowAt q true).isSome = true ∧ ({ y with head := v } : CplQ).badHead w = false :=
  ⟨hostFn (fun k => { k with tail := 5 }) fun x => { x with shadow := some (4096, 8192) }, .a, 1, 2, 3, { CplQ.fresh 1 64 3 true with tail := 5 }, by decide +kernel⟩
theorem witness_QueueCommands_20 : ∃ (s : State) (f : Fn) (q : Nat) (v : Nat) (w : Nat), s.answers f = true ∧ (s.fn f).sq? q = none ∧
  (s.fn f).aers = [] :=
  ⟨hostFn id id, .a, 9, 5, 0, by decide +kernel⟩
theorem witness_QueueCommands_21 : ∃ (s : State) (f : Fn) (q : Nat) (v : Nat) (w : Nat), s.answers f = true ∧ (s.fn f).cq? q = none ∧
  (s.fn f).aers = [] :=
  ⟨hostFn id id, .a, 9, 5, 0, by decide +kernel⟩
theorem witness_QueueCommands_22 : ∃ (s : State) (f : Fn) (v : Fin 65) (at_ : Nat), ((s.fn f).vec v).timerAt = some at_ ∧ (s.fn f).time ≠
  0 ∧ coalesced (s.fn f) v = true ∧ (s.fn f).d3hot = false ∧ (((s.fn f).vec v).masked = true ∨ (s.fn f).msixEnabled = false) :=
  ⟨hostFn id fun x => { x with time := 5, msixEnabled := false, vecs := upd x.vecs 3 fun y => { y with timerAt := some 9 } }, .a, 3, 9, by decide +kernel⟩
theorem witness_IoCommands_1 : ∃ (s : State) (c : Nat) (x : Ctx) (n : Ns) (l : List (Nat × Blk)), AtHand s c (isIoOp 0x02) x ∧ s.ioNs x =
  some n ∧ s.ioBad x n = none ∧ rangeBad n (slba x.entry) (nlbOf x.entry) 256 = none ∧ s.blocked x = false ∧ x.update = false ∧ s.ns?
  x.ns = some n ∧ x.got = [] ∧ s.readSplit n x = (l, [], none) :=
  ⟨hosting ({ (ctx 1 (entry 2 3 0 0)) with lba := 3, nlb := 1 }) ({ sled false with names := { (sled false).names with buffer := [dirty 3] } }), 7, { (ctx 1 (entry 2 3 0 0)) with lba := 3, nlb := 1 }, space false, [(3, 9)], ⟨by exact ⟨by decide, by decide, by decide, .a, rfl⟩, by decide +kernel⟩⟩
theorem witness_IoCommands_2 : ∃ (s : State) (c : Nat) (x : Ctx) (n : Ns) (l : List (Nat × Blk)) (b : Nat) (r : List Nat), AtHand s c
  (isIoOp 0x02) x ∧ s.ioNs x = some n ∧ s.ioBad x n = none ∧ rangeBad n (slba x.entry) (nlbOf x.entry) 256 = none ∧ s.blocked x = false ∧
  x.update = false ∧ s.ns? x.ns = some n ∧ s.pair.mode = false ∧ s.readSplit n x = (l, b :: r, none) :=
  ⟨hosting ({ (ctx 1 (entry 2 3 0 0)) with lba := 3, nlb := 1 }) ({ sled false with names := { (sled false).names with map := [{ ns := 1, lba := 3, entry := mapWord 1 0 }] } }), 7, { (ctx 1 (entry 2 3 0 0)) with lba := 3, nlb := 1 }, space false, [], 3, [], ⟨by exact ⟨by decide, by decide, by decide, .a, rfl⟩, by decide +kernel⟩⟩
theorem witness_IoCommands_3 : ∃ (s : State) (c : Nat) (x : Ctx) (n : Ns), AtHand s c (isIoOp 0x01) x ∧ s.ioNs x = some n ∧ s.ioBad x n =
  none ∧ rangeBad n (slba x.entry) (nlbOf x.entry) 256 = none ∧ n.zoned = false :=
  ⟨hosting (ctx 1 (entry 1 3 0 0)) (sled false), 7, ctx 1 (entry 1 3 0 0), space false, ⟨by exact ⟨by decide, by decide, by decide, .a, rfl⟩, by decide +kernel⟩⟩
theorem witness_IoCommands_4 : ∃ (s : State) (c : Nat) (x : Ctx) (n : Ns), AtHand s c (isIoOp 0x01) x ∧ s.ioNs x = some n ∧ s.ioBad x n =
  none ∧ rangeBad n (slba x.entry) (nlbOf x.entry) 256 = none ∧ n.zoned = true ∧ s.zoneTurn x = true ∧ s.zoneWriteBad n (slba x.entry /
  zoneBlocks n.narrow) (nlbOf x.entry) (some (slba x.entry % zoneBlocks n.narrow)) x.lost = none :=
  ⟨hosting (ctx 1 (entry 1 0 0 0)) (sled true), 7, ctx 1 (entry 1 0 0 0), space true, ⟨by exact ⟨by decide, by decide, by decide, .a, rfl⟩, by decide +kernel⟩⟩
theorem witness_IoCommands_5 : ∃ (s : State) (c : Nat) (x : Ctx) (n : Ns), AtHand s c (isIoOp 0x01) x ∧ s.ioNs x = some n ∧ s.ioBad x n =
  none ∧ s.ctxs = [x] ∧ rangeBad n (slba x.entry) (nlbOf x.entry) 256 = none ∧ n.zoned = true ∧ s.zoneTurn x = true ∧ (s.zone n.nsid
  (slba x.entry / zoneBlocks n.narrow)).st = .full :=
  ⟨hosting (ctx 1 (entry 1 0 0 0)) ({ sled true with names := { (sled true).names with zones := [zone1 .full 131072 256] } }), 7, ctx 1 (entry 1 0 0 0), space true, ⟨by exact ⟨by decide, by decide, by decide, .a, rfl⟩, by decide +kernel⟩⟩
theorem witness_IoCommands_6 : ∃ (s : State) (c : Nat) (x : Ctx) (n : Ns) (z : Nat), AtHand s c (isIoOp 0x7D) x ∧ s.ioNs x = some n ∧
  s.ioBad x n = none ∧ s.ctxs = [x] ∧ n.zoned = true ∧ rangeBad n (slba x.entry) 1 1 = none ∧ slba x.entry = z * zoneBlocks n.narrow ∧
  nlbOf x.entry ≤ 64 ∧ s.zoneTurn x = true ∧ s.zoneWriteBad n z (nlbOf x.entry) none x.lost = none :=
  ⟨hosting (ctx 1 (entry 0x7D 0 0 0)) ({ sled true with names := { (sled true).names with zones := [zone1 .implicit 5 0] } }), 7, ctx 1 (entry 0x7D 0 0 0), space true, 0, ⟨by exact ⟨by decide, by decide, by decide, .a, rfl⟩, by decide +kernel⟩⟩
theorem witness_IoCommands_7 : ∃ (s : State) (c : Nat) (x : Ctx) (n : Ns) (f : Fn) (data : List Blk), s.ctxs = [x] ∧ x.id = c ∧ x.origin
  = .host f ∧ (s.fn f).d3hot = false ∧ s.mem.halted.contains (match f with | .a => 0x00 | .b => 0x01) = false ∧ x.stage = .awaitData ∧
  isIoOp 0x01 x = true ∧ x.update = true ∧ x.fua = false ∧ s.names.wce = true ∧ data.length = x.nlb ∧ s.ns? x.ns = some n ∧ s.limitE ≠ 0
  ∧ s.fits (4096 * data.length) = true ∧ s.mirrors = false ∧ s.pair.settling = false ∧ s.names.sanitizing = false :=
  ⟨hosting { (ctx 1 (entry 1 3 0 0)) with stage := .awaitData, update := true, nlb := 1, lba := 3 } (sled false), 7, { (ctx 1 (entry 1 3 0 0)) with stage := .awaitData, update := true, nlb := 1, lba := 3 }, space false, .a, [5], by decide +kernel⟩
theorem witness_IoCommands_8 : ∃ (s : State) (c : Nat) (x : Ctx) (n : Ns) (f : Fn) (b : Blk), s.ctxs = [x] ∧ x.id = c ∧ x.origin = .host
  f ∧ (s.fn f).d3hot = false ∧ s.mem.halted.contains (match f with | .a => 0x00 | .b => 0x01) = false ∧ x.stage = .awaitData ∧ isIoOp
  0x01 x = true ∧ x.update = true ∧ x.fua = true ∧ x.nlb = 1 ∧ s.ns? x.ns = some n ∧ s.limitE ≠ 0 ∧ s.fits 4096 = true ∧ s.mirrors =
  false ∧ s.pair.settling = false ∧ s.names.sanitizing = false :=
  ⟨hosting { (ctx 1 (entry 1 3 0 0)) with stage := .awaitData, update := true, nlb := 1, lba := 3, fua := true } (sled false), 7, { (ctx 1 (entry 1 3 0 0)) with stage := .awaitData, update := true, nlb := 1, lba := 3, fua := true }, space false, .a, 5, by decide +kernel⟩
theorem witness_IoCommands_9 : ∃ (s : State) (c : Nat) (x : Ctx) (n : Ns), AtHand s c (isIoOp 0x08) x ∧ s.ioNs x = some n ∧ s.ioBad x n =
  none ∧ s.ctxs = [x] ∧ rangeBad n (slba x.entry) (nlbOf x.entry) 65536 = none ∧ n.zoned = false ∧ s.ns? x.ns = some n ∧ x.ns = n.nsid ∧
  x.update = true ∧ s.pagesFit x n = true ∧ s.mirrors = false :=
  ⟨hosting ({ (ctx 1 (entry 8 3 0 0)) with update := true, lba := 3, nlb := 1 }) ({ sled false with names := { (sled false).names with buffer := [dirty 3], map := [{ ns := 1, lba := 3, entry := mapWord 1 0 }] } }), 7, { (ctx 1 (entry 8 3 0 0)) with update := true, lba := 3, nlb := 1 }, space false, ⟨by exact ⟨by decide, by decide, by decide, .a, rfl⟩, by decide +kernel⟩⟩
theorem witness_IoCommands_10 : ∃ (s : State) (c : Nat) (x : Ctx) (n : Ns), AtHand s c (isIoOp 0x09) x ∧ s.ioNs x = some n ∧ s.ioBad x n
  = none ∧ n.zoned = false ∧ (x.ranges.all fun r => decide (r.1 + r.2 ≤ n.nsze)) = true ∧ bits x.entry.cdw11 2 2 = 0 ∧ x.update = false
  :=
  ⟨hosting (ctx 1 (entry 9 0 0 0)) (sled false), 7, ctx 1 (entry 9 0 0 0), space false, ⟨by exact ⟨by decide, by decide, by decide, .a, rfl⟩, by decide +kernel⟩⟩
theorem witness_IoCommands_11 : ∃ (s : State) (c : Nat) (x : Ctx) (n : Ns), AtHand s c (isIoOp 0x09) x ∧ s.ioNs x = some n ∧ s.ioBad x n
  = none ∧ s.ctxs = [x] ∧ n.zoned = false ∧ (x.ranges.all fun r => decide (r.1 + r.2 ≤ n.nsze)) = true ∧ bits x.entry.cdw11 2 2 = 1 ∧
  s.ns? x.ns = some n ∧ x.ns = n.nsid ∧ x.update = true ∧ s.pagesFit x n = true ∧ s.mirrors = false :=
  ⟨hosting { (ctx 1 { entry 9 0 4 0 with data := packBytes [(4, 0), (4, 1), (8, 3)] }) with update := true } { sled false with names := { (sled false).names with buffer := [dirty 3], map := [{ ns := 1, lba := 3, entry := mapWord 1 0 }] } }, 7, { (ctx 1 { entry 9 0 4 0 with data := packBytes [(4, 0), (4, 1), (8, 3)] }) with update := true }, space false, ⟨by exact ⟨by decide, by decide, by decide, .a, rfl⟩, by decide +kernel⟩⟩
theorem witness_IoCommands_12 : ∃ (s : State) (c : Nat) (x : Ctx) (n : Ns), AtHand s c (isIoOp 0x00) x ∧ s.ioNs x = some n ∧ s.ioBad x n
  = none ∧ s.ctxs = [x] ∧ x.entry.nsid ≠ 0xFFFFFFFF ∧ x.cpl = none ∧ s.names.unstored = [] ∧ s.flushPages x = [] :=
  ⟨hosting (ctx 1 (entry 0 0 0 0)) (sled false), 7, ctx 1 (entry 0 0 0 0), space false, ⟨by exact ⟨by decide, by decide, by decide, .a, rfl⟩, by decide +kernel⟩⟩
theorem witness_IoCommands_13 : ∃ (s : State) (c : Nat) (x : Ctx) (n : Ns) (d : Dirty), AtHand s c (isIoOp 0x00) x ∧ s.ioNs x = some n ∧
  s.ioBad x n = none ∧ s.ctxs = [x] ∧ x.entry.nsid ≠ 0xFFFFFFFF ∧ s.names.buffer = [d] ∧ d.stored = false ∧ d.ns = x.entry.nsid.toNat ∧
  (d.carried = true ∨ earlier d.adm x.adm = true) :=
  ⟨hosting ({ (ctx 1 (entry 0 0 0 0)) with adm := 6 }) ({ sled false with names := { (sled false).names with buffer := [dirty 3] } }), 7, { (ctx 1 (entry 0 0 0 0)) with adm := 6 }, space false, dirty 3, ⟨by exact ⟨by decide, by decide, by decide, .a, rfl⟩, by decide +kernel⟩⟩
theorem witness_IoCommands_14 : ∃ (s : State) (c : Nat) (x : Ctx) (n : Ns), AtHand s c (isIoOp 0x08) x ∧ s.ioNs x = some n ∧ s.ioBad x n
  = none ∧ s.ctxs = [x] ∧ rangeBad n (slba x.entry) (nlbOf x.entry) 65536 = none ∧ n.zoned = false ∧ s.ns? x.ns = some n ∧ x.ns = n.nsid
  ∧ x.update = true ∧ s.pagesFit x n = true ∧ s.mirrors = true :=
  ⟨hosting ({ (ctx 1 (entry 8 3 0 0)) with update := true, lba := 3, nlb := 1 }) ({ duo id with names := { (sled false).names with buffer := [dirty 3], map := [{ ns := 1, lba := 3, entry := mapWord 1 0 }] } }), 7, { (ctx 1 (entry 8 3 0 0)) with update := true, lba := 3, nlb := 1 }, space false, ⟨by exact ⟨by decide, by decide, by decide, .a, rfl⟩, by decide +kernel⟩⟩
theorem witness_IoCommands_15 : ∃ (s : State) (c : Nat) (x : Ctx) (n : Ns), AtHand s c (isIoOp 0x09) x ∧ s.ioNs x = some n ∧ s.ioBad x n
  = none ∧ s.ctxs = [x] ∧ n.zoned = false ∧ (x.ranges.all fun r => decide (r.1 + r.2 ≤ n.nsze)) = true ∧ bits x.entry.cdw11 2 2 = 1 ∧
  s.ns? x.ns = some n ∧ x.ns = n.nsid ∧ x.update = true ∧ s.pagesFit x n = true ∧ s.mirrors = true :=
  ⟨hosting { (ctx 1 { entry 9 0 4 0 with data := packBytes [(4, 0), (4, 1), (8, 3)] }) with update := true } { duo id with names := { (sled false).names with buffer := [dirty 3], map := [{ ns := 1, lba := 3, entry := mapWord 1 0 }] } }, 7, { (ctx 1 { entry 9 0 4 0 with data := packBytes [(4, 0), (4, 1), (8, 3)] }) with update := true }, space false, ⟨by exact ⟨by decide, by decide, by decide, .a, rfl⟩, by decide +kernel⟩⟩
theorem witness_IoCommands_16 : ∃ (s : State) (c : Nat) (x : Ctx) (n : Ns), AtHand s c (isIoOp 0x08) x ∧ s.ioNs x = some n ∧ s.ioBad x n
  = none ∧ s.ctxs = [x] ∧ rangeBad n (slba x.entry) (nlbOf x.entry) 65536 = none ∧ n.zoned = true ∧ s.zoneTurn x = true ∧ s.zoneWriteBad
  n (slba x.entry / zoneBlocks n.narrow) (nlbOf x.entry) (some (slba x.entry % zoneBlocks n.narrow)) x.lost = none ∧ s.ns? x.ns = some n
  ∧ x.ns = n.nsid ∧ x.update = true ∧ x.fua = false ∧ s.names.wce = true ∧ 4096 * nlbOf x.entry ≤ s.limitE ∧ s.fits (4096 * nlbOf
  x.entry) = true ∧ s.mirrors = false ∧ s.pair.settling = false ∧ s.names.sanitizing = false :=
  ⟨hosting { ctx 1 (entry 8 0 0 0) with update := true } ({ sled true with names := { (sled true).names with wce := true, zones := [zone1 .implicit 0 0] } }), 7, { ctx 1 (entry 8 0 0 0) with update := true }, space true, ⟨by exact ⟨by decide, by decide, by decide, .a, rfl⟩, by decide +kernel⟩⟩
theorem witness_IoCommands_17 : ∃ (s : State) (c : Nat) (x : Ctx), AtHand s c (isIoOp 0x00) x ∧ x.entry.nsid = 0xFFFFFFFF ∧ s.flushBad x
  = none ∧ s.ctxs = [x] ∧ x.cpl = none ∧ s.names.unstored = [] ∧ s.flushPages x = [] :=
  ⟨hosting (ctx 1 ({ entry 0 0 0 0 with nsid := 0xFFFFFFFF })) (sled false), 7, (ctx 1 ({ entry 0 0 0 0 with nsid := 0xFFFFFFFF })), ⟨by exact ⟨by decide, by decide, by decide, .a, rfl⟩, by decide +kernel⟩⟩
theorem witness_IoCommands_18 : ∃ (s : State) (c : Nat) (x : Ctx), AtHand s c (isIoOp 0x02) x ∧ s.ioNs x = none ∧ x.update = false :=
  ⟨hosting (ctx 1 ({ entry 2 0 0 0 with nsid := 9 })) (sled false), 7, (ctx 1 ({ entry 2 0 0 0 with nsid := 9 })), ⟨by exact ⟨by decide, by decide, by decide, .a, rfl⟩, by decide +kernel⟩⟩
theorem witness_IoCommands_19 : ∃ (s : State) (c : Nat) (x : Ctx) (n : Ns) (r : Cpl), AtHand s c (isIoOp 0x02) x ∧ s.ioNs x = some n ∧
  s.ioBad x n = none ∧ x.update = false ∧ rangeBad n (slba x.entry) (nlbOf x.entry) 256 = some r :=
  ⟨hosting (ctx 1 (entry 2 1310720 0 0)) (sled false), 7, (ctx 1 (entry 2 1310720 0 0)), space false, { Cpl.lbaRange with errLba := 1310720 }, ⟨by exact ⟨by decide, by decide, by decide, .a, rfl⟩, rfl, rfl, rfl, rfl⟩⟩
theorem witness_ZoneCommands_1 : ∃ (s : State) (c : Nat) (x : Ctx) (n : Ns) (z : Nat), AtHand s c (fun x => isIoOp 0x79 x && bits
  x.entry.cdw13 7 0 == 3) x ∧ s.ioNs x = some n ∧ s.ioBad x n = none ∧ n.zoned = true ∧ bits x.entry.cdw13 8 8 = 0 ∧ rangeBad n (slba
  x.entry) 1 1 = none ∧ slba x.entry = z * zoneBlocks n.narrow ∧ s.zoneTurn x = true ∧ x.update = false ∧ (s.zone n.nsid z).st ≠ .full ∧
  ((s.zone n.nsid z).st = .empty → s.activeFull n.nsid = false) :=
  ⟨hosting ((ctx 1 { entry 0x79 0 0 0 with cdw13 := 3 })) { sled true with names := { (sled true).names with zones := [zone1 .implicit 1024 2] } }, 7, (ctx 1 { entry 0x79 0 0 0 with cdw13 := 3 }), space true, 0, ⟨by exact ⟨by decide, by decide, by decide, .a, rfl⟩, by decide +kernel⟩⟩
theorem witness_ZoneCommands_2 : ∃ (s : State) (c : Nat) (x : Ctx) (n : Ns) (z : Nat), AtHand s c (fun x => isIoOp 0x79 x && bits
  x.entry.cdw13 7 0 == 3) x ∧ s.ioNs x = some n ∧ s.ioBad x n = none ∧ n.zoned = true ∧ bits x.entry.cdw13 8 8 = 0 ∧ rangeBad n (slba
  x.entry) 1 1 = none ∧ slba x.entry = z * zoneBlocks n.narrow ∧ s.zoneTurn x = true ∧ x.update = false ∧ (s.zone n.nsid z).st = .full :=
  ⟨hosting ((ctx 1 { entry 0x79 0 0 0 with cdw13 := 3 })) { sled true with names := { (sled true).names with zones := [zone1 .full 131072 256] } }, 7, (ctx 1 { entry 0x79 0 0 0 with cdw13 := 3 }), space true, 0, ⟨by exact ⟨by decide, by decide, by decide, .a, rfl⟩, by decide +kernel⟩⟩
theorem witness_ZoneCommands_3 : ∃ (s : State) (c : Nat) (x : Ctx) (n : Ns) (z : Nat), AtHand s c (fun x => isIoOp 0x79 x && bits
  x.entry.cdw13 7 0 == 1) x ∧ s.ioNs x = some n ∧ s.ioBad x n = none ∧ n.zoned = true ∧ bits x.entry.cdw13 8 8 = 0 ∧ rangeBad n (slba
  x.entry) 1 1 = none ∧ slba x.entry = z * zoneBlocks n.narrow ∧ s.zoneTurn x = true ∧ x.update = false ∧ (s.zone n.nsid z).st.isActive =
  true :=
  ⟨hosting ((ctx 1 { entry 0x79 0 0 0 with cdw13 := 1 })) { sled true with names := { (sled true).names with zones := [zone1 .implicit 1024 2] } }, 7, (ctx 1 { entry 0x79 0 0 0 with cdw13 := 1 }), space true, 0, ⟨by exact ⟨by decide, by decide, by decide, .a, rfl⟩, by decide +kernel⟩⟩
theorem witness_ZoneCommands_4 : ∃ (s : State) (c : Nat) (x : Ctx) (n : Ns) (z : Nat), AtHand s c (fun x => isIoOp 0x79 x && bits
  x.entry.cdw13 7 0 == 2) x ∧ s.ioNs x = some n ∧ s.ioBad x n = none ∧ n.zoned = true ∧ bits x.entry.cdw13 8 8 = 0 ∧ rangeBad n (slba
  x.entry) 1 1 = none ∧ slba x.entry = z * zoneBlocks n.narrow ∧ s.zoneTurn x = true ∧ s.ctxs = [x] ∧ x.cpl = none ∧ (s.zone n.nsid z).st
  ≠ .full ∧ (s.zone n.nsid z).wp % rowBlocks n.narrow = 0 :=
  ⟨hosting ((ctx 1 { entry 0x79 0 0 0 with cdw13 := 2 })) { sled true with names := { (sled true).names with zones := [zone1 .implicit 1024 2] } }, 7, (ctx 1 { entry 0x79 0 0 0 with cdw13 := 2 }), space true, 0, ⟨by exact ⟨by decide, by decide, by decide, .a, rfl⟩, by decide +kernel⟩⟩
theorem witness_ZoneCommands_5 : ∃ (s : State) (c : Nat) (x : Ctx) (n : Ns) (z : Nat), AtHand s c (fun x => isIoOp 0x79 x && bits
  x.entry.cdw13 7 0 == 2) x ∧ s.ioNs x = some n ∧ s.ioBad x n = none ∧ n.zoned = true ∧ bits x.entry.cdw13 8 8 = 0 ∧ rangeBad n (slba
  x.entry) 1 1 = none ∧ slba x.entry = z * zoneBlocks n.narrow ∧ s.zoneTurn x = true ∧ s.ctxs = [x] ∧ x.cpl = none ∧ (s.zone n.nsid z).st
  ≠ .full ∧ (s.zone n.nsid z).wp % rowBlocks n.narrow ≠ 0 ∧ (s.zone n.nsid z).wp < zoneBlocks n.narrow :=
  ⟨hosting ((ctx 1 { entry 0x79 0 0 0 with cdw13 := 2 })) { sled true with names := { (sled true).names with zones := [zone1 .implicit 5 0] } }, 7, (ctx 1 { entry 0x79 0 0 0 with cdw13 := 2 }), space true, 0, ⟨by exact ⟨by decide, by decide, by decide, .a, rfl⟩, by decide +kernel⟩⟩
theorem witness_ZoneCommands_6 : ∃ (s : State) (c : Nat) (x : Ctx) (n : Ns) (z : Nat), AtHand s c (fun x => isIoOp 0x79 x && bits
  x.entry.cdw13 7 0 == 4) x ∧ s.ioNs x = some n ∧ s.ioBad x n = none ∧ n.zoned = true ∧ bits x.entry.cdw13 8 8 = 0 ∧ rangeBad n (slba
  x.entry) 1 1 = none ∧ slba x.entry = z * zoneBlocks n.narrow ∧ s.zoneTurn x = true ∧ s.ctxs = [x] ∧ s.ns? x.ns = some n ∧ x.ns = n.nsid
  ∧ x.update = true ∧ x.lba = slba x.entry ∧ s.pagesFit x n = true ∧ s.mirrors = false :=
  ⟨hosting ({ (ctx 1 { entry 0x79 0 0 0 with cdw13 := 4 }) with update := true }) { sled true with names := { (sled true).names with zones := [zone1 .implicit 1024 2] } }, 7, { (ctx 1 { entry 0x79 0 0 0 with cdw13 := 4 }) with update := true }, space true, 0, ⟨by exact ⟨by decide, by decide, by decide, .a, rfl⟩, by decide +kernel⟩⟩
theorem witness_ZoneCommands_7 : ∃ (s : State) (c : Nat) (x : Ctx) (n : Ns) (z : Nat), AtHand s c (fun x => isIoOp 0x79 x && bits
  x.entry.cdw13 7 0 == 5) x ∧ s.ioNs x = some n ∧ s.ioBad x n = none ∧ n.zoned = true ∧ bits x.entry.cdw13 8 8 = 0 ∧ rangeBad n (slba
  x.entry) 1 1 = none ∧ slba x.entry = z * zoneBlocks n.narrow ∧ s.zoneTurn x = true ∧ x.update = false :=
  ⟨hosting ((ctx 1 { entry 0x79 0 0 0 with cdw13 := 5 })) { sled true with names := { (sled true).names with zones := [zone1 .implicit 1024 2] } }, 7, (ctx 1 { entry 0x79 0 0 0 with cdw13 := 5 }), space true, 0, ⟨by exact ⟨by decide, by decide, by decide, .a, rfl⟩, by decide +kernel⟩⟩
theorem witness_ZoneCommands_8 : ∃ (s : State) (c : Nat) (x : Ctx) (n : Ns) (z : Nat), AtHand s c (fun x => isIoOp 0x79 x && bits
  x.entry.cdw13 7 0 == 0x10) x ∧ s.ioNs x = some n ∧ s.ioBad x n = none ∧ n.zoned = true ∧ bits x.entry.cdw13 8 8 = 0 ∧ rangeBad n (slba
  x.entry) 1 1 = none ∧ slba x.entry = z * zoneBlocks n.narrow ∧ s.zoneTurn x = true ∧ x.update = false :=
  ⟨hosting ((ctx 1 { entry 0x79 0 0 0 with cdw13 := 0x10 })) { sled true with names := { (sled true).names with zones := [zone1 .implicit 1024 2] } }, 7, (ctx 1 { entry 0x79 0 0 0 with cdw13 := 0x10 }), space true, 0, ⟨by exact ⟨by decide, by decide, by decide, .a, rfl⟩, by decide +kernel⟩⟩
theorem witness_ZoneCommands_9 : ∃ (s : State) (c : Nat) (x : Ctx) (n : Ns), AtHand s c (fun x => isIoOp 0x7A x && bits x.entry.cdw13 7 0
  == 1) x ∧ s.ioNs x = some n ∧ s.ioBad x n = none ∧ n.zoned = true :=
  ⟨hosting ((ctx 1 { entry 0x7A 0 0 0 with cdw13 := 1 })) { sled true with names := { (sled true).names with zones := [zone1 .implicit 1024 2] } }, 7, (ctx 1 { entry 0x7A 0 0 0 with cdw13 := 1 }), space true, ⟨by exact ⟨by decide, by decide, by decide, .a, rfl⟩, by decide +kernel⟩⟩
theorem witness_ZoneCommands_10 : ∃ (s : State) (c : Nat) (x : Ctx) (n : Ns) (size : Nat) (hits : List Nat), AtHand s c (fun x => isIoOp
  0x7A x && bits x.entry.cdw13 7 0 == 0) x ∧ s.ioNs x = some n ∧ s.ioBad x n = none ∧ n.zoned = true ∧ rangeBad n (slba x.entry) 1 1 =
  none ∧ bits x.entry.cdw13 15 8 ≤ 7 ∧ bits x.entry.cdw13 16 16 = 0 ∧ size = 4 * (x.entry.cdw12.toNat + 1) ∧ hits = ((List.range (n.nsze
  / zoneBlocks n.narrow - slba x.entry / zoneBlocks n.narrow)).map (slba x.entry / zoneBlocks n.narrow + ·)).filter (fun z => zoneWanted
  (bits x.entry.cdw13 15 8) (s.zone n.nsid z).st) :=
  ⟨hosting ((ctx 1 { entry 0x7A 0 0 0 with cdw13 := 0 })) { sled true with names := { (sled true).names with zones := [zone1 .implicit 1024 2] } }, 7, (ctx 1 { entry 0x7A 0 0 0 with cdw13 := 0 }), space true, 4, List.range 10, ⟨by exact ⟨by decide, by decide, by decide, .a, rfl⟩, by decide +kernel⟩⟩
theorem witness_ZoneCommands_11 : ∃ (s : State) (c : Nat) (x : Ctx) (n : Ns) (z : Nat), AtHand s c (fun x => isIoOp 0x79 x && bits
  x.entry.cdw13 7 0 == 4) x ∧ s.ioNs x = some n ∧ s.ioBad x n = none ∧ n.zoned = true ∧ bits x.entry.cdw13 8 8 = 0 ∧ rangeBad n (slba
  x.entry) 1 1 = none ∧ slba x.entry = z * zoneBlocks n.narrow ∧ s.zoneTurn x = true ∧ s.ctxs = [x] ∧ s.ns? x.ns = some n ∧ x.ns = n.nsid
  ∧ x.update = true ∧ x.lba = slba x.entry ∧ s.pagesFit x n = true ∧ s.mirrors = true :=
  ⟨hosting ({ (ctx 1 { entry 0x79 0 0 0 with cdw13 := 4 }) with update := true }) { duo id with names := { (sled true).names with zones := [zone1 .implicit 1024 2] } }, 7, { (ctx 1 { entry 0x79 0 0 0 with cdw13 := 4 }) with update := true }, space true, 0, ⟨by exact ⟨by decide, by decide, by decide, .a, rfl⟩, by decide +kernel⟩⟩
theorem witness_ZoneCommands_12 : ∃ (s : State) (c : Nat) (x : Ctx) (n : Ns) (size : Nat) (shown : List Nat), AtHand s c (fun x => isIoOp
  0x7A x && bits x.entry.cdw13 7 0 == 0) x ∧ s.ioNs x = some n ∧ s.ioBad x n = none ∧ n.zoned = true ∧ rangeBad n (slba x.entry) 1 1 =
  none ∧ bits x.entry.cdw13 15 8 ≤ 7 ∧ bits x.entry.cdw13 16 16 = 1 ∧ size = 4 * (x.entry.cdw12.toNat + 1) ∧ shown = (((List.range
  (n.nsze / zoneBlocks n.narrow - slba x.entry / zoneBlocks n.narrow)).map (slba x.entry / zoneBlocks n.narrow + ·)).filter (fun z =>
  zoneWanted (bits x.entry.cdw13 15 8) (s.zone n.nsid z).st)).take ((size - 64) / 64) :=
  ⟨hosting (ctx 1 ({ entry 0x7A 0 0 255 with cdw13 := 0x10000 })) ({ sled true with names := { (sled true).names with zones := [zone1 .implicit 1024 2] } }), 7, (ctx 1 ({ entry 0x7A 0 0 255 with cdw13 := 0x10000 })), space true, 1024, List.range 10, ⟨by exact ⟨by decide, by decide, by decide, .a, rfl⟩, by decide +kernel⟩⟩
theorem witness_LinkCommands_1 : ∃ (s : State) (p : PortId), (s.port p).cmdUp = true ∧ s.isStale (.port p) = false :=
  ⟨port3 fun x => { x with cmdUp := true }, 3, by decide +kernel⟩
theorem witness_LinkCommands_2 : ∃ (s : State) (p : PortId) (tag : Byte) (r : Request), ((s.port p).requests.find? fun x => x.packet.tag
  == tag && x.busyAt.isNone) = some r ∧ r.sends < 3 :=
  ⟨port3 fun x => { x with requests := [asked 2 1 2 []] }, 3, 1, asked 2 1 2 [], by decide +kernel⟩
theorem witness_LinkCommands_3 : ∃ (s : State) (p : PortId) (tag : Byte) (r : Request), ((s.port p).requests.find? fun x => x.packet.tag
  == tag && x.busyAt.isNone) = some r ∧ 3 ≤ r.sends ∧ (s.port p).train = 9 :=
  ⟨port3 fun x => { x with train := 9, requests := [asked 2 1 3 []] }, 3, 1, asked 2 1 3 [], by decide +kernel⟩
theorem witness_LinkCommands_4 : ∃ (s : State) (p : PortId) (n : Nat), 64 ≤ n ∧ (s.port p).train ≠ 0xC ∧ s.xing.hung = [] :=
  ⟨State.reset, 3, 64, by decide +kernel⟩
theorem witness_LinkCommands_5 : ∃ (s : State) (p : PortId) (n : Nat), 16 ≤ n ∧ (s.port p).clock = true ∧ (s.port p).train = 0 :=
  ⟨port3 fun x => { x with clock := true, train := 0 }, 3, 16, by decide +kernel⟩
theorem witness_LinkCommands_6 : ∃ (s : State) (p : PortId) (n : Nat), 16 ≤ n ∧ (s.port p).clock = true ∧ inRange 1 11 (s.port
  p).train.val = true ∧ (s.port p).marked = false ∧ ((s.port p).train = 0xB → (s.port p).joint = false) :=
  ⟨port3 fun x => { x with clock := true, train := 9 }, 3, 16, by decide +kernel⟩
theorem witness_LinkCommands_7 : ∃ (s : State) (p : PortId) (n : Nat), 16 ≤ n ∧ (s.port p).clock = true ∧ (s.port p).train = 0xA ∧
  (s.port p).fail = 9 :=
  ⟨port3 fun x => { x with clock := true, train := 0xA, fail := 9 }, 3, 16, by decide +kernel⟩
theorem witness_LinkCommands_8 : ∃ (s : State) (p : PortId) (n : Nat), (s.port p).train ≠ 0xC :=
  ⟨State.reset, 3, 7, by decide +kernel⟩
theorem witness_LinkCommands_9 : ∃ (s : State) (x : Crossing) (e : Fin 6) (n : Nat), 0 < n ∧ s.isStale x = false :=
  ⟨State.reset, .pcieA, 0, 256, by decide +kernel⟩
theorem witness_LinkCommands_10 : ∃ (s : State) (p : PortId), (s.port p).cmdUp = true ∧ (s.port p).txPos ≠ 0 ∧ s.isStale (.port p) =
  false ∧ (s.port p).urgent = [] ∧ (s.port p).normal = [] ∧ (s.port p).nextWrite (s.bitsRoom p) = none :=
  ⟨port3 fun x => { x with cmdUp := true, txPos := 4 }, 3, by decide +kernel⟩
theorem witness_LinkCommands_11 : ∃ (s : State) (p : PortId), (s.port p).cmdUp = true ∧ (s.port p).txPos ≠ 0 ∧ s.isStale (.port p) =
  false ∧ (s.port p).urgent ≠ [] :=
  ⟨port3 fun x => { x with cmdUp := true, txPos := 4, urgent := [answer 0x10 0 0 []] }, 3, by decide +kernel⟩
theorem witness_LinkCommands_12 : ∃ (s : State) (p : PortId) (tag : Byte) (r : Request), ((s.port p).requests.find? fun x => x.packet.tag
  == tag && x.busyAt.isNone) = some r ∧ r.sends < 3 :=
  ⟨port3 fun x => { x with requests := [{ asked 0x03 5 2 [] with sentAt := 4 }] }, 3, 5, { asked 0x03 5 2 [] with sentAt := 4 }, by decide +kernel⟩
theorem witness_LinkCommands_13 : ∃ (s : State) (p : PortId) (tag : Byte) (r : Request), ((s.port p).requests.find? fun x => x.packet.tag
  == tag && x.busyAt.isNone) = some r ∧ 3 ≤ r.sends ∧ inRange 2 5 (s.port p).train.val = true ∧ (s.port p).attempt = 1 :=
  ⟨port3 fun x => { x with train := 4, attempt := 1, requests := [{ asked 0x03 5 3 [] with sentAt := 4 }] }, 3, 5, { asked 0x03 5 3 [] with sentAt := 4 }, by decide +kernel⟩
theorem witness_LinkCommands_14 : ∃ (s : State) (p : PortId) (n : Nat), 64 ≤ n ∧ (s.port p).train ≠ 0xC ∧ s.xing.hung = [] :=
  ⟨up, 3, 64, by decide +kernel⟩
theorem witness_LinkCommands_15 : ∃ (s : State) (p : PortId) (n : Nat), n < 64 :=
  ⟨up, 3, 63, by decide⟩
theorem witness_LinkCommands_16 : ∃ (s : State) (p : PortId) (n : Nat), n < 16 :=
  ⟨up, 3, 15, by decide⟩
theorem witness_LinkCommands_17 : ∃ (s : State) (p : PortId) (n : Nat), 16 ≤ n ∧ (s.port p).clock = true ∧ (s.port p).train = 0xC :=
  ⟨port3 fun x => { x with clock := true, train := 0xC }, 3, 16, by decide +kernel⟩
theorem witness_LinkCommands_19 : ∃ (s : State) (x : Crossing) (e : Fin 6) (n : Nat), 0 < n ∧ s.isStale x = true :=
  ⟨up.modXing fun x => { x with staleOther := 4 }, .wings, 0, 255, by decide +kernel⟩
theorem witness_LinkCommands_20 : ∃ (s : State) (x : Crossing) (e : Fin 6) (n : Nat), 0 < n ∧ n ≤ 255 ∧ s.isStale x = false :=
  ⟨up, .port 3, 2, 255, by decide +kernel⟩
theorem witness_LinkCommands_21 : ∃ (s : State) (p : PortId), (s.port p).cmdUp = true ∧ s.isStale (.port p) = true :=
  ⟨(port3 fun x => { x with cmdUp := true }).modXing fun x => { x with stalePort := 8 }, 3, by decide +kernel⟩
theorem witness_LinkCommands_22 : ∃ (s : State) (p : PortId) (q : Req) (off : Nat) (n : Nat), 64 ≤ n ∧ (s.port p).train ≠ 0xC ∧ (s.port
  p).joint = false ∧ s.isStale (.port p) = false ∧ regAt off = .port p 0x20 ∧ s.xing.hung =
  [{ who := q, off := off, write := none, packet := none }] ∧ s.xing.behind = [] :=
  ⟨(port3 fun x => { x with train := 1, joint := false }).modXing fun x => { x with hung := [{ who := .portA, off := 12512, write := none, packet := none }] }, 3, .portA, 12512, 64, by decide +kernel⟩
theorem witness_LinkCommands_23 : ∃ (s : State) (p : PortId) (n : Nat), 16 ≤ n ∧ (s.port p).clock = true ∧ (s.port p).train = 0xB ∧
  (s.port p).joint = true :=
  ⟨port3 fun x => { x with clock := true, train := 0xB, joint := true }, 3, 16, by decide +kernel⟩
theorem witness_LinkCommands_24 : ∃ (s : State) (p : PortId) (tag : Byte) (r : Request), ((s.port p).requests.find? fun x => x.packet.tag
  == tag && x.busyAt.isNone) = some r ∧ 3 ≤ r.sends ∧ inRange 6 8 (s.port p).train.val = true :=
  ⟨port3 fun x => { x with train := 7, requests := [asked 5 1 3 []] }, 3, 1, asked 5 1 3 [], by decide +kernel⟩
theorem witness_LogCommands_1 : ∃ (s : State) (c : Nat) (x : Ctx) (f : Fn), AtHand s c (isAction 0x02 1) x ∧ x.origin = .host f ∧ (s.fn
  f).events = [] ∧ logOffset x.entry ≤ 4096 :=
  ⟨hosting (ctx 0 (entry 2 (1 + 15 * 2 ^ 16) 0 0)) (hostFn id fun y => { y with errLog := [{ count := 5, sqid := 1, cid := 2, status := 3, errLoc := 0xFFFF, lba := 0, nsid := 1, seq := some 9 }] }), 7, ctx 0 (entry 2 (1 + 15 * 2 ^ 16) 0 0), .a, ⟨by exact ⟨by decide, by decide, by decide, .a, rfl⟩, by decide +kernel⟩⟩
theorem witness_LogCommands_2 : ∃ (s : State) (c : Nat) (x : Ctx) (f : Fn), AtHand s c (isAction 0x02 2) x ∧ x.origin = .host f ∧ (s.fn
  f).events = [] ∧ logOffset x.entry ≤ 512 :=
  ⟨hosting (ctx 0 (entry 2 (2 + 15 * 2 ^ 16) 0 0)) (hostFn id id), 7, ctx 0 (entry 2 (2 + 15 * 2 ^ 16) 0 0), .a, ⟨by exact ⟨by decide, by decide, by decide, .a, rfl⟩, by decide +kernel⟩⟩
theorem witness_LogCommands_3 : ∃ (s : State) (c : Nat) (x : Ctx) (f : Fn), AtHand s c (isAction 0x02 5) x ∧ x.origin = .host f ∧ (s.fn
  f).events = [] ∧ logOffset x.entry ≤ 4096 :=
  ⟨hosting (ctx 0 (entry 2 (5 + 15 * 2 ^ 16) 0 0)) (hostFn id id), 7, ctx 0 (entry 2 (5 + 15 * 2 ^ 16) 0 0), .a, ⟨by exact ⟨by decide, by decide, by decide, .a, rfl⟩, by decide +kernel⟩⟩
theorem witness_LogCommands_4 : ∃ (s : State) (c : Nat) (x : Ctx) (f : Fn), AtHand s c (isAction 0x02 12) x ∧ x.origin = .host f ∧ (s.fn
  f).events = [] ∧ (s.fn f).d3hot = false ∧ logOffset x.entry = 0 :=
  ⟨hosting (ctx 0 (entry 2 (12 + 15 * 2 ^ 16) 0 0)) (hostFn id id), 7, ctx 0 (entry 2 (12 + 15 * 2 ^ 16) 0 0), .a, ⟨by exact ⟨by decide, by decide, by decide, .a, rfl⟩, by decide +kernel⟩⟩
theorem witness_LogCommands_5 : ∃ (s : State) (c : Nat) (x : Ctx) (f : Fn), AtHand s c (isAction 0x02 192) x ∧ x.origin = .host f ∧ (s.fn
  f).events = [] ∧ logPart x.entry = 0xFFFF ∧ logOffset x.entry ≤ 4096 :=
  ⟨hosting (ctx 0 (entry 2 (0xC0 + 15 * 2 ^ 16) (0xFFFF * 2 ^ 16) 0)) (hostFn id id), 7, ctx 0 (entry 2 (0xC0 + 15 * 2 ^ 16) (0xFFFF * 2 ^ 16) 0), .a, ⟨by exact ⟨by decide, by decide, by decide, .a, rfl⟩, by decide +kernel⟩⟩
theorem witness_LogCommands_6 : ∃ (s : State) (c : Nat) (x : Ctx) (f : Fn), AtHand s c (isAction 0x02 192) x ∧ x.origin = .host f ∧ (s.fn
  f).events = [] ∧ logPart x.entry ≤ 255 ∧ s.playbillWhole (logPart x.entry) = none :=
  ⟨hosting (ctx 0 (entry 2 (192 + 15 * 2 ^ 16) 0 0)) (hostFn id id), 7, ctx 0 (entry 2 (192 + 15 * 2 ^ 16) 0 0), .a, ⟨by exact ⟨by decide, by decide, by decide, .a, rfl⟩, by decide +kernel⟩⟩
theorem witness_LogCommands_7 : ∃ (s : State) (c : Nat) (x : Ctx) (f : Fn), AtHand s c (isAction 0x02 193) x ∧ x.origin = .host f ∧ (s.fn
  f).events = [] ∧ logPart x.entry = 0 ∧ logOffset x.entry ≤ 64 :=
  ⟨hosting (ctx 0 (entry 2 (193 + 15 * 2 ^ 16) 0 0)) (hostFn id id), 7, ctx 0 (entry 2 (193 + 15 * 2 ^ 16) 0 0), .a, ⟨by exact ⟨by decide, by decide, by decide, .a, rfl⟩, by decide +kernel⟩⟩
theorem witness_LogCommands_8 : ∃ (s : State) (c : Nat) (x : Ctx) (f : Fn), AtHand s c (isAction 0x02 193) x ∧ x.origin = .host f ∧ (s.fn
  f).events = [] ∧ logPart x.entry ≠ 0 :=
  ⟨hosting (ctx 0 (entry 2 0xC1 0x10000 0)) (hostFn id id), 7, ctx 0 (entry 2 0xC1 0x10000 0), .a, ⟨by exact ⟨by decide, by decide, by decide, .a, rfl⟩, by decide +kernel⟩⟩
theorem witness_LogCommands_9 : ∃ (s : State) (c : Nat) (x : Ctx) (f : Fn), AtHand s c (isAction 0x02 194) x ∧ x.origin = .host f ∧ (s.fn
  f).events = [] ∧ logPart x.entry = 0 ∧ logOffset x.entry ≤ s.sledHealth.length :=
  ⟨hosting (ctx 0 (entry 2 (194 + 15 * 2 ^ 16) 0 0)) (hostFn id id), 7, ctx 0 (entry 2 (194 + 15 * 2 ^ 16) 0 0), .a, ⟨by exact ⟨by decide, by decide, by decide, .a, rfl⟩, by decide +kernel⟩⟩
theorem witness_LogCommands_10 : ∃ (s : State) (c : Nat) (x : Ctx) (f : Fn), AtHand s c (isAction 0x02 195) x ∧ x.origin = .host f ∧
  (s.fn f).events = [] ∧ logPart x.entry = 0 ∧ logOffset x.entry ≤ ((fins 32).flatMap s.inventory).length :=
  ⟨hosting (ctx 0 (entry 2 (195 + 15 * 2 ^ 16) 0 0)) (hostFn id id), 7, ctx 0 (entry 2 (195 + 15 * 2 ^ 16) 0 0), .a, ⟨by exact ⟨by decide, by decide, by decide, .a, rfl⟩, by decide +kernel⟩⟩
theorem witness_LogCommands_11 : ∃ (s : State) (c : Nat) (x : Ctx) (f : Fn) (bs : List Byte), AtHand s c (isAction 0x02 192) x ∧ x.origin
  = .host f ∧ (s.fn f).events = [] ∧ logPart x.entry ≤ 255 ∧ s.playbillWhole (logPart x.entry) = some bs ∧ logOffset x.entry ≤ bs.length
  :=
  ⟨hosting (ctx 0 (entry 2 192 0 0)) (up.modIdent fun i => { i with pendingNor := [(0, List.replicate 9005 0)] }), 7, (ctx 0 (entry 2 192 0 0)), .a, List.replicate 9005 0, ⟨by exact ⟨by decide, by decide, by decide, .a, rfl⟩, by decide +kernel⟩⟩
theorem witness_LogCommands_12 : ∃ (s : State) (c : Nat) (x : Ctx) (f : Fn), AtHand s c (isAction 0x02 194) x ∧ x.origin = .host f ∧
  (s.fn f).events = [] ∧ logPart x.entry ≠ 0 :=
  ⟨hosting (ctx 0 (entry 2 194 65536 0)) (hostFn id id), 7, (ctx 0 (entry 2 194 65536 0)), .a, ⟨by exact ⟨by decide, by decide, by decide, .a, rfl⟩, by decide +kernel⟩⟩
theorem witness_LogCommands_13 : ∃ (s : State) (c : Nat) (x : Ctx) (f : Fn), AtHand s c (isAction 0x02 195) x ∧ x.origin = .host f ∧
  (s.fn f).events = [] ∧ logPart x.entry ≠ 0 :=
  ⟨hosting (ctx 0 (entry 2 195 65536 0)) (hostFn id id), 7, (ctx 0 (entry 2 195 65536 0)), .a, ⟨by exact ⟨by decide, by decide, by decide, .a, rfl⟩, by decide +kernel⟩⟩
theorem witness_LogCommands_14 : ∃ (s : State) (c : Nat) (x : Ctx) (f : Fn), AtHand s c (isAction 0x02 1) x ∧ x.origin = .host f ∧ (s.fn
  f).events = [] ∧ (s.fn f).errLog.length ≤ 64 ∧ 4096 < logOffset x.entry :=
  ⟨hosting (ctx 0 (entry 2 1 0 5000)) (hostFn id id), 7, (ctx 0 (entry 2 1 0 5000)), .a, ⟨by exact ⟨by decide, by decide, by decide, .a, rfl⟩, by decide +kernel⟩⟩
theorem witness_LongOperationCommands_1 : ∃ (s : State) (c : Nat) (x : Ctx), AtHand s c (isAction 0xC2 0) x ∧ x.update = false ∧
  x.entry.cdw14 = 0 ∧ x.entry.cdw15 = 0 ∧ x.entry.cdw13 = 0 ∧ opKind x.entry = 3 ∧ s.placeFull 3 = false :=
  ⟨hosting (ctx 0 (entry 0xC2 0x300 8 0)) (((sled true).modCfg fun c => { c with ops := [long 3 .running], lastHandle := 1 })), 7, ctx 0 (entry 0xC2 0x300 8 0), ⟨by exact ⟨by decide, by decide, by decide, .a, rfl⟩, by decide +kernel⟩⟩
theorem witness_LongOperationCommands_2 : ∃ (s : State) (c : Nat) (x : Ctx), AtHand s c (isAction 0xC2 0) x ∧ x.update = false ∧
  x.entry.cdw14 = 0 ∧ x.entry.cdw15 = 0 ∧ x.entry.cdw13 = 0 ∧ opKind x.entry = 3 ∧ s.placeFull 3 = true :=
  ⟨hosting (ctx 0 (entry 0xC2 0x300 8 0)) (up.modCfg fun c => { c with ops := List.replicate 63 (long 3 .running) }), 7, ctx 0 (entry 0xC2 0x300 8 0), ⟨by exact ⟨by decide, by decide, by decide, .a, rfl⟩, by decide +kernel⟩⟩
theorem witness_LongOperationCommands_3 : ∃ (s : State) (c : Nat) (x : Ctx) (o : LongOp), AtHand s c (isAction 0xC2 0) x ∧ x.update =
  false ∧ x.entry.cdw14 = 0 ∧ x.entry.cdw15 = 0 ∧ x.entry.cdw13 = 0 ∧ opKind x.entry = 1 ∧ s.rebuild? = some o :=
  ⟨hosting (ctx 0 (entry 0xC2 0x100 0 0)) (((sled true).modCfg fun c => { c with ops := [long 1 .running], lastHandle := 1 })), 7, ctx 0 (entry 0xC2 0x100 0 0), long 1 .running, ⟨by exact ⟨by decide, by decide, by decide, .a, rfl⟩, by decide +kernel⟩⟩
theorem witness_LongOperationCommands_4 : ∃ (s : State) (c : Nat) (x : Ctx), AtHand s c (isAction 0xC2 0) x ∧ x.update = false ∧
  x.entry.cdw14 = 0 ∧ x.entry.cdw15 = 0 ∧ x.entry.cdw13 = 0 ∧ (opKind x.entry = 0 ∨ 6 < opKind x.entry) :=
  ⟨hosting (ctx 0 (entry 0xC2 0x700 0 0)) (((sled true).modCfg fun c => { c with ops := [long 3 .running], lastHandle := 1 })), 7, ctx 0 (entry 0xC2 0x700 0 0), ⟨by exact ⟨by decide, by decide, by decide, .a, rfl⟩, by decide +kernel⟩⟩
theorem witness_LongOperationCommands_5 : ∃ (s : State) (c : Nat) (x : Ctx) (o : LongOp), AtHand s c (isAction 0xC2 1) x ∧ x.update =
  false ∧ x.entry.cdw14 = 0 ∧ x.entry.cdw15 = 0 ∧ x.entry.cdw13 = 0 ∧ s.op? (opHandle x.entry) = some o ∧ o.st = .running ∧ o.kind = 3 :=
  ⟨hosting (ctx 0 (entry 0xC2 (1 + 1 * 2 ^ 16) 0 0)) (((sled true).modCfg fun c => { c with ops := [long 3 .running], lastHandle := 1 })), 7, ctx 0 (entry 0xC2 (1 + 1 * 2 ^ 16) 0 0), long 3 .running, ⟨by exact ⟨by decide, by decide, by decide, .a, rfl⟩, by decide +kernel⟩⟩
theorem witness_LongOperationCommands_6 : ∃ (s : State) (c : Nat) (x : Ctx), AtHand s c (isAction 0xC2 1) x ∧ x.update = false ∧
  x.entry.cdw14 = 0 ∧ x.entry.cdw15 = 0 ∧ x.entry.cdw13 = 0 ∧ s.op? (opHandle x.entry) = none :=
  ⟨hosting (ctx 0 (entry 0xC2 (1 + 9 * 2 ^ 16) 0 0)) (((sled true).modCfg fun c => { c with ops := [long 3 .running], lastHandle := 1 })), 7, ctx 0 (entry 0xC2 (1 + 9 * 2 ^ 16) 0 0), ⟨by exact ⟨by decide, by decide, by decide, .a, rfl⟩, by decide +kernel⟩⟩
theorem witness_LongOperationCommands_7 : ∃ (s : State) (c : Nat) (x : Ctx) (o : LongOp), AtHand s c (isAction 0xC2 2) x ∧ x.update =
  false ∧ x.entry.cdw14 = 0 ∧ x.entry.cdw15 = 0 ∧ x.entry.cdw13 = 0 ∧ s.op? (opHandle x.entry) = some o ∧ o.st = .suspended ∧ o.kind = 3
  ∧ s.power.inPs3 = false ∧ s.power.entering = false :=
  ⟨hosting (ctx 0 (entry 0xC2 (2 + 1 * 2 ^ 16) 0 0)) (((sled true).modCfg fun c => { c with ops := [long 3 .suspended], lastHandle := 1 })), 7, ctx 0 (entry 0xC2 (2 + 1 * 2 ^ 16) 0 0), long 3 .suspended, ⟨by exact ⟨by decide, by decide, by decide, .a, rfl⟩, by decide +kernel⟩⟩
theorem witness_LongOperationCommands_8 : ∃ (s : State) (c : Nat) (x : Ctx) (o : LongOp), AtHand s c (isAction 0xC2 2) x ∧ x.update =
  false ∧ x.entry.cdw14 = 0 ∧ x.entry.cdw15 = 0 ∧ x.entry.cdw13 = 0 ∧ s.op? (opHandle x.entry) = some o ∧ o.st = .completed :=
  ⟨hosting (ctx 0 (entry 0xC2 (2 + 1 * 2 ^ 16) 0 0)) (((sled true).modCfg fun c => { c with ops := [long 3 .completed], lastHandle := 1 })), 7, ctx 0 (entry 0xC2 (2 + 1 * 2 ^ 16) 0 0), long 3 .completed, ⟨by exact ⟨by decide, by decide, by decide, .a, rfl⟩, by decide +kernel⟩⟩
theorem witness_LongOperationCommands_9 : ∃ (s : State) (c : Nat) (x : Ctx) (o : LongOp), AtHand s c (isAction 0xC2 3) x ∧ x.update =
  false ∧ x.entry.cdw14 = 0 ∧ x.entry.cdw15 = 0 ∧ x.entry.cdw13 = 0 ∧ s.op? (opHandle x.entry) = some o ∧ o.st = .suspended ∧ o.kind = 3
  :=
  ⟨hosting (ctx 0 (entry 0xC2 (3 + 1 * 2 ^ 16) 0 0)) (((sled true).modCfg fun c => { c with ops := [long 3 .suspended], lastHandle := 1 })), 7, ctx 0 (entry 0xC2 (3 + 1 * 2 ^ 16) 0 0), long 3 .suspended, ⟨by exact ⟨by decide, by decide, by decide, .a, rfl⟩, by decide +kernel⟩⟩
theorem witness_LongOperationCommands_10 : ∃ (s : State) (c : Nat) (x : Ctx) (o : LongOp), AtHand s c (isAction 0xC2 3) x ∧ x.update =
  false ∧ x.entry.cdw14 = 0 ∧ x.entry.cdw15 = 0 ∧ x.entry.cdw13 = 0 ∧ s.op? (opHandle x.entry) = some o ∧ o.st = .suspended ∧ o.kind = 2
  :=
  ⟨hosting (ctx 0 (entry 0xC2 (3 + 1 * 2 ^ 16) 0 0)) (((sled true).modCfg fun c => { c with ops := [long 2 .suspended], lastHandle := 1 })), 7, ctx 0 (entry 0xC2 (3 + 1 * 2 ^ 16) 0 0), long 2 .suspended, ⟨by exact ⟨by decide, by decide, by decide, .a, rfl⟩, by decide +kernel⟩⟩
theorem witness_LongOperationCommands_11 : ∃ (s : State) (c : Nat) (x : Ctx) (o : LongOp), AtHand s c (isAction 0xC2 4) x ∧ x.update =
  false ∧ x.entry.cdw14 = 0 ∧ x.entry.cdw15 = 0 ∧ x.entry.cdw13 = 0 ∧ s.op? (opHandle x.entry) = some o :=
  ⟨hosting (ctx 0 (entry 0xC2 (4 + 1 * 2 ^ 16) 0 0)) (((sled true).modCfg fun c => { c with ops := [long 3 .running], lastHandle := 1 })), 7, ctx 0 (entry 0xC2 (4 + 1 * 2 ^ 16) 0 0), long 3 .running, ⟨by exact ⟨by decide, by decide, by decide, .a, rfl⟩, by decide +kernel⟩⟩
theorem witness_LongOperationCommands_12 : ∃ (s : State) (c : Nat) (x : Ctx), AtHand s c (isAction 0xC2 5) x ∧ x.update = false ∧
  x.entry.cdw14 = 0 ∧ x.entry.cdw15 = 0 ∧ x.entry.cdw13 = 0 :=
  ⟨hosting (ctx 0 (entry 0xC2 (5 + 1 * 2 ^ 16) 0 0)) (((sled true).modCfg fun c => { c with ops := [long 3 .running], lastHandle := 1 })), 7, ctx 0 (entry 0xC2 (5 + 1 * 2 ^ 16) 0 0), ⟨by exact ⟨by decide, by decide, by decide, .a, rfl⟩, by decide +kernel⟩⟩
theorem witness_LongOperationCommands_13 : ∃ (s : State) (c : Nat) (x : Ctx), AtHand s c (isAction 0xC2 6) x ∧ x.update = false ∧
  x.entry.cdw14 = 0 ∧ x.entry.cdw15 = 0 ∧ x.entry.cdw13 = 1 ∧ bits x.entry.cdw11 11 0 ≤ 3600 ∧ bits x.entry.cdw11 31 12 = 0 ∧
  x.entry.cdw12 = 0 :=
  ⟨hosting (ctx 0 ({ entry 0xC2 6 60 0 with cdw13 := 1 })) (((sled true).modCfg fun c => { c with ops := [long 3 .running], lastHandle := 1 })), 7, ctx 0 ({ entry 0xC2 6 60 0 with cdw13 := 1 }), ⟨by exact ⟨by decide, by decide, by decide, .a, rfl⟩, by decide +kernel⟩⟩
theorem witness_LongOperationCommands_14 : ∃ (s : State) (c : Nat) (x : Ctx), AtHand s c (isAction 0xC2 0) x ∧ x.update = false ∧
  x.entry.cdw14 = 0 ∧ x.entry.cdw15 = 0 ∧ x.entry.cdw13 = 0 ∧ opKind x.entry = 1 ∧ s.rebuild? = none :=
  ⟨hosting (ctx 0 (entry 0xC2 (0x100) (0) (0))) (sled true), 7, (ctx 0 (entry 0xC2 (0x100) (0) (0))), ⟨by exact ⟨by decide, by decide, by decide, .a, rfl⟩, by decide +kernel⟩⟩
theorem witness_LongOperationCommands_15 : ∃ (s : State) (c : Nat) (x : Ctx) (f : Fn), AtHand s c (isAction 0xC2 0) x ∧ x.origin = .host
  f ∧ s.ctxs = [x] ∧ x.update = true ∧ s.power.entering = false ∧ x.entry.cdw14 = 0 ∧ x.entry.cdw15 = 0 ∧ x.entry.cdw13 = 0 ∧ opKind
  x.entry = 2 ∧ bits x.entry.cdw11 2 0 = 3 ∧ s.activeOps 2 = [] ∧ s.placeFull 2 = false :=
  ⟨hosting { ctx 0 (entry 0xC2 (0x200) (3) (0)) with update := true } (sled true), 7, { ctx 0 (entry 0xC2 (0x200) (3) (0)) with update := true }, .a, ⟨by exact ⟨by decide, by decide, by decide, .a, rfl⟩, by decide +kernel⟩⟩
theorem witness_LongOperationCommands_16 : ∃ (s : State) (c : Nat) (x : Ctx), AtHand s c (isAction 0xC2 0) x ∧ x.update = false ∧
  x.entry.cdw14 = 0 ∧ x.entry.cdw15 = 0 ∧ x.entry.cdw13 = 0 ∧ opKind x.entry = 4 ∧ s.mayFormat (s.opFor x 4) = true ∧ s.activeOps 4 = []
  ∧ s.placeFull 4 = false :=
  ⟨hosting (ctx 0 (entry 0xC2 (0x400) (3) (0))) (((sled true).modMember 3 fun m => { m with st := .none }).modPort 3 fun x => { x with persVerified := true, train := 9 }), 7, (ctx 0 (entry 0xC2 (0x400) (3) (0))), ⟨by exact ⟨by decide, by decide, by decide, .a, rfl⟩, by decide +kernel⟩⟩
theorem witness_LongOperationCommands_17 : ∃ (s : State) (c : Nat) (x : Ctx), AtHand s c (isAction 0xC2 0) x ∧ x.update = false ∧
  x.entry.cdw14 = 0 ∧ x.entry.cdw15 = 0 ∧ x.entry.cdw13 = 0 ∧ opKind x.entry = 4 ∧ s.mayFormat (s.opFor x 4) = false :=
  ⟨hosting (ctx 0 (entry 0xC2 (0x400) (3) (0))) (sled true), 7, (ctx 0 (entry 0xC2 (0x400) (3) (0))), ⟨by exact ⟨by decide, by decide, by decide, .a, rfl⟩, by decide +kernel⟩⟩
theorem witness_LongOperationCommands_18 : ∃ (s : State) (c : Nat) (x : Ctx), AtHand s c (isAction 0xC2 0) x ∧ x.update = false ∧
  x.entry.cdw14 = 0 ∧ x.entry.cdw15 = 0 ∧ x.entry.cdw13 = 0 ∧ opKind x.entry = 5 ∧ bits x.entry.cdw12 13 0 = 0 ∧ ((s.activeOps 5).any fun
  y => y.p0 &&& x.entry.cdw11 != 0) = false ∧ s.placeFull 5 = false :=
  ⟨hosting (ctx 0 (entry 0xC2 (0x500) (8) (0))) (sled true), 7, (ctx 0 (entry 0xC2 (0x500) (8) (0))), ⟨by exact ⟨by decide, by decide, by decide, .a, rfl⟩, by decide +kernel⟩⟩
theorem witness_LongOperationCommands_19 : ∃ (s : State) (c : Nat) (x : Ctx) (o : LongOp), AtHand s c (isAction 0xC2 1) x ∧ x.update =
  false ∧ x.entry.cdw14 = 0 ∧ x.entry.cdw15 = 0 ∧ x.entry.cdw13 = 0 ∧ s.op? (opHandle x.entry) = some o ∧ o.st = .suspended :=
  ⟨hosting (ctx 0 (entry 0xC2 (1 + 1 * 2 ^ 16) (0) (0))) ((sled true).modCfg fun c => { c with ops := [long 3 .suspended], lastHandle := 1 }), 7, (ctx 0 (entry 0xC2 (1 + 1 * 2 ^ 16) (0) (0))), long 3 .suspended, ⟨by exact ⟨by decide, by decide, by decide, .a, rfl⟩, by decide +kernel⟩⟩
theorem witness_LongOperationCommands_20 : ∃ (s : State) (c : Nat) (x : Ctx) (o : LongOp), AtHand s c (isAction 0xC2 2) x ∧ x.update =
  false ∧ x.entry.cdw14 = 0 ∧ x.entry.cdw15 = 0 ∧ x.entry.cdw13 = 0 ∧ s.op? (opHandle x.entry) = some o ∧ o.st = .running :=
  ⟨hosting (ctx 0 (entry 0xC2 (2 + 1 * 2 ^ 16) (0) (0))) ((sled true).modCfg fun c => { c with ops := [long 3 .running], lastHandle := 1 }), 7, (ctx 0 (entry 0xC2 (2 + 1 * 2 ^ 16) (0) (0))), long 3 .running, ⟨by exact ⟨by decide, by decide, by decide, .a, rfl⟩, by decide +kernel⟩⟩
theorem witness_LongOperationCommands_21 : ∃ (s : State) (c : Nat) (x : Ctx) (o : LongOp), AtHand s c (isAction 0xC2 2) x ∧ x.update =
  false ∧ x.entry.cdw14 = 0 ∧ x.entry.cdw15 = 0 ∧ x.entry.cdw13 = 0 ∧ s.op? (opHandle x.entry) = some o ∧ o.st = .suspended ∧
  (s.power.inPs3 = true ∨ s.power.entering = true) :=
  ⟨hosting (ctx 0 (entry 0xC2 (2 + 1 * 2 ^ 16) (0) (0))) (((sled true).modCfg fun c => { c with ops := [long 3 .suspended], lastHandle := 1 }).modPower fun w => { w with inPs3 := true }), 7, (ctx 0 (entry 0xC2 (2 + 1 * 2 ^ 16) (0) (0))), long 3 .suspended, ⟨by exact ⟨by decide, by decide, by decide, .a, rfl⟩, by decide +kernel⟩⟩
theorem witness_LongOperationCommands_22 : ∃ (s : State) (c : Nat) (x : Ctx) (o : LongOp), AtHand s c (isAction 0xC2 3) x ∧ x.update =
  false ∧ x.entry.cdw14 = 0 ∧ x.entry.cdw15 = 0 ∧ x.entry.cdw13 = 0 ∧ s.op? (opHandle x.entry) = some o ∧ o.st = .running ∧ o.kind = 3 :=
  ⟨hosting (ctx 0 (entry 0xC2 (3 + 1 * 2 ^ 16) (0) (0))) ((sled true).modCfg fun c => { c with ops := [long 3 .running], lastHandle := 1 }), 7, (ctx 0 (entry 0xC2 (3 + 1 * 2 ^ 16) (0) (0))), long 3 .running, ⟨by exact ⟨by decide, by decide, by decide, .a, rfl⟩, by decide +kernel⟩⟩
theorem witness_LongOperationCommands_23 : ∃ (s : State) (c : Nat) (x : Ctx), AtHand s c (isAction 0xC2 6) x ∧ x.update = false ∧
  x.entry.cdw14 = 0 ∧ x.entry.cdw15 = 0 ∧ x.entry.cdw13 = 2 ∧ x.entry.cdw11 = 0 ∧ 1 ≤ bits x.entry.cdw12 5 0 ∧ bits x.entry.cdw12 5 0 ≤
  50 ∧ bits x.entry.cdw12 31 6 = 0 :=
  ⟨hosting (ctx 0 ({ entry 0xC2 6 0 5 with cdw13 := 2 })) (sled true), 7, (ctx 0 ({ entry 0xC2 6 0 5 with cdw13 := 2 })), ⟨by exact ⟨by decide, by decide, by decide, .a, rfl⟩, by decide +kernel⟩⟩
theorem witness_MemoryCommands_1 : ∃ (s : State) (ch : Fin 8) (rk : Fin 2) (r : Fin 8), s.memoryUp = true ∧ rk.val < s.mem.ranks :=
  ⟨up.modMem fun m => { m with ranks := 2 }, 1, 1, 3, by decide +kernel⟩
theorem witness_MemoryCommands_2 : ∃ (s : State) (ch : Fin 8) (n : Nat), s.memoryUp = true ∧ s.mem.trained.getLsbD ch.val = true ∧
  s.mem.zqAt[ch] = some n :=
  ⟨up.modMem fun m => { m with trained := 255, zqAt := upd m.zqAt 1 fun _ => some 5 }, 1, 5, by decide +kernel⟩
theorem witness_MemoryCommands_3 : ∃ (s : State) (ch : Fin 8) (v : W16) (m : Nat), s.memoryUp = true ∧ s.mem.trained.getLsbD ch.val =
  true ∧ s.mem.dqsAt[ch] = some m :=
  ⟨up.modMem fun m => { m with trained := 255, dqsAt := upd m.dqsAt 1 fun _ => some 5 }, 1, 9, 5, by decide +kernel⟩
theorem witness_MemoryCommands_4 : ∃ (s : State) (n : Nat), s.memoryUp = true :=
  ⟨up, 7, by decide +kernel⟩
theorem witness_MemoryCommands_5 : ∃ (s : State), s.memoryUp = true :=
  ⟨up, by decide +kernel⟩
theorem witness_MemoryCommands_6 : ∃ (s : State) (b : Bool), s.memoryUp = true ∧ s.mem.patrol = true ∧ s.mem.selfRefresh = false ∧
  s.mem.dramPos + 1 < s.mem.granules :=
  ⟨up.modMem fun m => { m with patrol := true, capacityGib := 16 }, true, by decide +kernel⟩
theorem witness_MemoryCommands_7 : ∃ (s : State), s.memoryUp = true ∧ s.mem.patrol = true ∧ s.mem.selfRefresh = false ∧ s.mem.granules ≤
  s.mem.dramPos + 1 :=
  ⟨up.modMem fun m => { m with patrol := true, capacityGib := 0 }, by decide +kernel⟩
theorem witness_MemoryCommands_8 : ∃ (s : State) (page : Nat), (s.mem.pageCe.any fun q => q.1 == page && decide (16 ≤ q.2)) = true ∧
  s.mayRetire page = true ∧ s.nor.config.retired.contains page = false ∧ s.nor.config.retired.length < 256 :=
  ⟨up.modMem fun m => { m with pageCe := [(7, 16)] }, 7, by decide +kernel⟩
theorem witness_MemoryCommands_9 : ∃ (s : State) (page : Nat), (s.mem.pageCe.any fun q => q.1 == page && decide (16 ≤ q.2)) = true ∧
  s.mayRetire page = false :=
  ⟨{ up with names := { up.names with buffer := [dirty 3] } }.modMem fun m => { m with pageCe := [(3940 * 256, 16)], bufferMib := 2048 }, (3940 * 256), by decide +kernel⟩
theorem witness_MemoryCommands_10 : ∃ (s : State) (addr : Nat) (seq : Nat), s.memoryUp = true ∧ sramWithin .recorder addr = true :=
  ⟨up, 44 * mib, 7, by decide +kernel⟩
theorem witness_MemoryCommands_11 : ∃ (s : State) (addr : Nat) (ns : Nat) (lba : Nat), s.memoryUp = true ∧ s.mem.within .writeBuffer addr
  = true ∧ s.pair.st ≠ .paired :=
  ⟨up.modMem fun m => { m with bufferMib := 16 }, bufferBaseMib * mib, 1, 7, by decide +kernel⟩
theorem witness_MemoryCommands_12 : ∃ (s : State) (addr : Nat), s.memoryUp = true ∧ s.mem.within .firmware addr = true :=
  ⟨up, 7, by decide +kernel⟩
theorem witness_MemoryCommands_13 : ∃ (s : State) (page : Nat), s.memoryUp = true ∧ page < 2048 :=
  ⟨up, 7, by decide +kernel⟩
theorem witness_MemoryCommands_14 : ∃ (s : State) (page : Nat), s.memoryUp = true ∧ page < 2048 ∧ s.pageReloads page = true ∧
  (s.ident.traps.any fun q => q.1 == page && decide (s.now < q.2 + Config.sec)) = false :=
  ⟨mended, 0, by decide +kernel, by decide +kernel, State.pageReloads_of (l := List.replicate 4096 0) (by decide +kernel) rfl rfl, by decide +kernel⟩
theorem witness_MemoryCommands_15 : ∃ (s : State) (ch : Byte) (addr : Nat) (sram : Bool), s.memoryUp = true :=
  ⟨up, 3, 7, true, by decide +kernel⟩
theorem witness_MemoryCommands_16 : ∃ (s : State) (page : Nat) (ok : Bool), s.memoryUp = true ∧ page < 2048 ∧ (s.ident.traps.any fun q =>
  q.1 == page && decide (s.now < q.2 + Config.sec)) = true :=
  ⟨up.modIdent fun i => { i with traps := [(7, up.now)] }, 7, true, by decide +kernel⟩
theorem witness_MemoryCommands_17 : ∃ (s : State) (c : Nat) (x : Ctx) (addr : Nat) (sram : Bool), s.memoryUp = true ∧ s.ctxs = [x] ∧ x.id
  = c ∧ x.origin = .host .a ∧ x.stage = .waiting :=
  ⟨{ up with ctxs := [{ ctx 1 (entry 2 0 0 0) with stage := .waiting, wait := .sectors [0] }] }, 7, { ctx 1 (entry 2 0 0 0) with stage := .waiting, wait := .sectors [0] }, 7, true, by decide +kernel⟩
theorem witness_MemoryCommands_18 : ∃ (s : State) (g : Nat) (i : Nat) (run : Nat) (w : Work) (addr : Nat) (sram : Bool), s.memoryUp =
  true ∧ s.prot.works = [w] ∧ w.group = g ∧ w.stripe = i :=
  ⟨rebuilding fun p => { p with works := [{ kind := .rebuild, group := 1, stripe := 0, targets := [(7, .spare 10 0)], runs := [0], acks := none, order := 0 }] }, 1, 0, 0, { kind := .rebuild, group := 1, stripe := 0, targets := [(7, .spare 10 0)], runs := [0], acks := none, order := 0 }, 7, false, by decide +kernel⟩
theorem witness_MemoryCommands_19 : ∃ (s : State) (page : Nat), s.memoryUp = true ∧ s.mem.patrol = true ∧ s.mem.selfRefresh = false ∧
  s.mem.dramPos + 1 < s.mem.granules ∧ s.mem.pageCe = [(page, 15)] :=
  ⟨up.modMem fun m => { m with patrol := true, capacityGib := 8, pageCe := [(7, 15)] }, 7, by decide +kernel⟩
theorem witness_MemoryCommands_20 : ∃ (s : State) (addr : Nat) (page : Nat), s.memoryUp = true ∧ s.mem.within .mapPages addr = true :=
  ⟨up.modMem fun m => { m with capacityGib := 64 }, bufferBaseMib * mib, 3, by decide +kernel⟩
theorem witness_MemoryCommands_21 : ∃ (s : State) (r : MemRegion) (dram : Bool) (addr : Nat), s.mem.holds dram addr r = false :=
  ⟨up, .firmwareData, false, 7, by decide +kernel⟩
theorem witness_MemoryCommands_22 : ∃ (m : Mem) (a b : Nat), a / 2048 = b / 2048 ∧ m.checkByte a = m.checkByte b :=
  ⟨{ Mem.reset with capacityGib := 64 }, 8, 8, by decide +kernel⟩
theorem witness_MapCacheCommands_1 : ∃ (s : State) (c : Nat) (x : Ctx), AtHand s c (isAction 0xC6 0) x ∧ bits x.entry.cdw10 15 8 = 0 ∧
  x.entry.cdw14 = 0 ∧ x.entry.cdw15 = 0 :=
  ⟨hosting (ctx 0 (entry 0xC6 0 0 0)) (sled false), 7, ctx 0 (entry 0xC6 0 0 0), ⟨by exact ⟨by decide, by decide, by decide, .a, rfl⟩, by decide +kernel⟩⟩
theorem witness_MapCacheCommands_2 : ∃ (s : State) (c : Nat) (x : Ctx), AtHand s c (isAction 0xC6 1) x ∧ bits x.entry.cdw10 15 8 = 0 ∧
  x.entry.cdw14 = 0 ∧ x.entry.cdw15 = 0 ∧ s.mcache.invalidated = true :=
  ⟨hosting (ctx 0 (entry 0xC6 1 0 0)) ((sled false).modCache fun m => { m with invalidated := true }), 7, ctx 0 (entry 0xC6 1 0 0), ⟨by exact ⟨by decide, by decide, by decide, .a, rfl⟩, by decide +kernel⟩⟩
theorem witness_MapCacheCommands_3 : ∃ (s : State) (c : Nat) (x : Ctx), AtHand s c (isAction 0xC6 1) x ∧ bits x.entry.cdw10 15 8 = 0 ∧
  x.entry.cdw14 = 0 ∧ x.entry.cdw15 = 0 ∧ s.mcache.invalidated = false :=
  ⟨hosting (ctx 0 (entry 0xC6 1 0 0)) (sled false), 7, ctx 0 (entry 0xC6 1 0 0), ⟨by exact ⟨by decide, by decide, by decide, .a, rfl⟩, by decide +kernel⟩⟩
theorem witness_MapCacheCommands_4 : ∃ (s : State) (c : Nat) (x : Ctx), AtHand s c (isAction 0xC6 2) x ∧ bits x.entry.cdw10 15 8 = 0 ∧
  x.entry.cdw14 = 0 ∧ x.entry.cdw15 = 0 :=
  ⟨hosting (ctx 0 (entry 0xC6 2 0 0)) ((sled false).modCache fun m => { m with enabled := true, sets := [{ index := 5, ways := [(0, { tag := 5, dirty := true, stale := false, preloaded := false })], plru := 0 }] }), 7, ctx 0 (entry 0xC6 2 0 0), ⟨by exact ⟨by decide, by decide, by decide, .a, rfl⟩, by decide +kernel⟩⟩
theorem witness_MapCacheCommands_5 : ∃ (s : State) (c : Nat) (x : Ctx), AtHand s c (isAction 0xC6 3) x ∧ bits x.entry.cdw10 15 8 = 0 ∧
  x.entry.cdw14 = 0 ∧ x.entry.cdw15 = 0 :=
  ⟨hosting (ctx 0 (entry 0xC6 3 0 0)) ((sled false).modCache fun m => { m with enabled := true, sets := [{ index := 5, ways := [(0, { tag := 5, dirty := true, stale := false, preloaded := false })], plru := 0 }] }), 7, ctx 0 (entry 0xC6 3 0 0), ⟨by exact ⟨by decide, by decide, by decide, .a, rfl⟩, by decide +kernel⟩⟩
theorem witness_MapCacheCommands_6 : ∃ (s : State) (c : Nat) (x : Ctx), AtHand s c (isAction 0xC6 4) x ∧ bits x.entry.cdw10 15 8 = 0 ∧
  x.entry.cdw14 = 0 ∧ x.entry.cdw15 = 0 :=
  ⟨hosting (ctx 0 (entry 0xC6 4 0 0)) ((sled false).modCache fun m => { m with enabled := true, sets := [{ index := 5, ways := [(0, { tag := 5, dirty := true, stale := false, preloaded := false })], plru := 0 }] }), 7, ctx 0 (entry 0xC6 4 0 0), ⟨by exact ⟨by decide, by decide, by decide, .a, rfl⟩, by decide +kernel⟩⟩
theorem witness_MapCacheCommands_7 : ∃ (s : State) (c : Nat) (x : Ctx) (n : Ns), AtHand s c (isAction 0xC6 5) x ∧ bits x.entry.cdw10 15 8
  = 0 ∧ x.entry.cdw14 = 0 ∧ x.entry.cdw15 = 0 ∧ ways (maskOf x.entry ||| s.mcache.locked) ≤ 12 ∧ x.entry.cdw13 ≠ 0 ∧ s.ns?
  x.entry.nsid.toNat = some n ∧ s.deletedFor n x = false ∧ n.zoned = false ∧ slbaOf x.entry + x.entry.cdw13.toNat ≤ n.nsze :=
  ⟨hosting (ctx 0 ({ entry 0xC6 (5 + 0x8000 * 65536) 0 0 with cdw13 := 1 })) (sled false), 7, ctx 0 ({ entry 0xC6 (5 + 0x8000 * 65536) 0 0 with cdw13 := 1 }), space false, ⟨by exact ⟨by decide, by decide, by decide, .a, rfl⟩, by decide +kernel⟩⟩
theorem witness_MapCacheCommands_8 : ∃ (s : State) (c : Nat) (x : Ctx), AtHand s c (isAction 0xC6 5) x ∧ bits x.entry.cdw10 15 8 = 0 ∧
  x.entry.cdw14 = 0 ∧ x.entry.cdw15 = 0 ∧ 12 < ways (maskOf x.entry ||| s.mcache.locked) :=
  ⟨hosting (ctx 0 ({ entry 0xC6 (5 + 0xFFFF * 65536) 0 0 with cdw13 := 1 })) (sled false), 7, ctx 0 ({ entry 0xC6 (5 + 0xFFFF * 65536) 0 0 with cdw13 := 1 }), ⟨by exact ⟨by decide, by decide, by decide, .a, rfl⟩, by decide +kernel⟩⟩
theorem witness_MapCacheCommands_9 : ∃ (s : State) (c : Nat) (x : Ctx), AtHand s c (isAction 0xC6 6) x ∧ bits x.entry.cdw10 15 8 = 0 ∧
  x.entry.cdw14 = 0 ∧ x.entry.cdw15 = 0 ∧ ways (maskOf x.entry ||| s.mcache.locked) ≤ 12 ∧ maskOf x.entry &&& s.mcache.named = maskOf
  x.entry :=
  ⟨hosting (ctx 0 (entry 0xC6 (6 + 0x8000 * 65536) 0 0)) ((sled false).modCache fun m => { m with named := 0xFFFF }), 7, ctx 0 (entry 0xC6 (6 + 0x8000 * 65536) 0 0), ⟨by exact ⟨by decide, by decide, by decide, .a, rfl⟩, by decide +kernel⟩⟩
theorem witness_MapCacheCommands_10 : ∃ (s : State) (c : Nat) (x : Ctx), AtHand s c (isAction 0xC6 6) x ∧ bits x.entry.cdw10 15 8 = 0 ∧
  x.entry.cdw14 = 0 ∧ x.entry.cdw15 = 0 ∧ ways (maskOf x.entry ||| s.mcache.locked) ≤ 12 ∧ maskOf x.entry &&& s.mcache.named ≠ maskOf
  x.entry :=
  ⟨hosting (ctx 0 (entry 0xC6 (6 + 0x8000 * 65536) 0 0)) (sled false), 7, ctx 0 (entry 0xC6 (6 + 0x8000 * 65536) 0 0), ⟨by exact ⟨by decide, by decide, by decide, .a, rfl⟩, by decide +kernel⟩⟩
theorem witness_MapCacheCommands_11 : ∃ (s : State) (c : Nat) (x : Ctx), AtHand s c (isAction 0xC6 7) x ∧ bits x.entry.cdw10 15 8 = 0 ∧
  x.entry.cdw14 = 0 ∧ x.entry.cdw15 = 0 ∧ ways (maskOf x.entry ||| s.mcache.locked) ≤ 12 :=
  ⟨hosting (ctx 0 (entry 0xC6 (7 + 0x8000 * 65536) 0 0)) (sled false), 7, ctx 0 (entry 0xC6 (7 + 0x8000 * 65536) 0 0), ⟨by exact ⟨by decide, by decide, by decide, .a, rfl⟩, by decide +kernel⟩⟩
theorem witness_MapCacheCommands_12 : ∃ (s : State) (c : Nat) (x : Ctx) (n : Ns), AtHand s c (isAction 0xC6 8) x ∧ bits x.entry.cdw10 15
  8 = 0 ∧ x.entry.cdw14 = 0 ∧ x.entry.cdw15 = 0 ∧ x.entry.cdw13 ≠ 0 ∧ s.ns? x.entry.nsid.toNat = some n ∧ s.deletedFor n x = false ∧
  n.zoned = false ∧ slbaOf x.entry + x.entry.cdw13.toNat ≤ n.nsze :=
  ⟨hosting (ctx 0 ({ entry 0xC6 8 0 0 with cdw13 := 1 })) (sled false), 7, ctx 0 ({ entry 0xC6 8 0 0 with cdw13 := 1 }), space false, ⟨by exact ⟨by decide, by decide, by decide, .a, rfl⟩, by decide +kernel⟩⟩
theorem witness_MapCacheCommands_13 : ∃ (s : State) (addr : Nat) (w : Bool) (way : Fin 16) (l : Line), s.mcache.enabled = true ∧
  ((s.mcache.set (setOf (addr / 128))).ways.find? fun w => w.2.tag == addr / 128) = some (way, l) :=
  ⟨(sled false).modCache fun m => { m with enabled := true, sets := [{ index := 5, ways := [(0, { tag := 5, dirty := true, stale := false, preloaded := false })], plru := 0 }] }, 640, false, 0, { tag := 5, dirty := true, stale := false, preloaded := false }, by decide +kernel⟩
theorem witness_MapCacheCommands_14 : ∃ (s : State) (addr : Nat) (w : Bool), s.mcache.enabled = true ∧ ((s.mcache.set (setOf (addr /
  128))).ways.find? fun w => w.2.tag == addr / 128) = none :=
  ⟨(sled false).modCache fun m => { m with enabled := true, sets := [{ index := 5, ways := [(0, { tag := 5, dirty := true, stale := false, preloaded := false })], plru := 0 }] }, (128 * 4101), true, by decide +kernel⟩
theorem witness_MapCacheCommands_15 : ∃ (s : State) (addr : Nat) (w : Bool), s.mcache.enabled = false :=
  ⟨up, 7, true, by decide +kernel⟩
theorem witness_MapCacheCommands_16 : ∃ (s : State) (addr : Nat) (w : Bool), s.mcache.enabled = true ∧ ((s.mcache.set (setOf (addr /
  128))).ways.find? fun w => w.2.tag == addr / 128) = none :=
  ⟨{ up with mcache := { up.mcache with enabled := true } }, 7, false, by decide +kernel⟩
theorem witness_MapCacheCommands_17 : ∃ (s : State) (addr : Nat) (w : Bool), s.mcache.enabled = true ∧ ((s.mcache.set (setOf (addr /
  128))).ways.find? fun w => w.2.tag == addr / 128) = none :=
  ⟨{ up with mcache := { up.mcache with enabled := true } }, 7, false, by decide +kernel⟩
theorem witness_MapCacheCommands_18 : ∃ (s : State) (c : Nat) (x : Ctx), AtHand s c (isAction 0xC6 8) x ∧ bits x.entry.cdw10 15 8 = 0 ∧
  x.entry.cdw14 = 0 ∧ x.entry.cdw15 = 0 ∧ x.entry.cdw13 = 0 :=
  ⟨hosting (ctx 0 (entry 0xC6 8 0 0)) (sled false), 7, (ctx 0 (entry 0xC6 8 0 0)), ⟨by exact ⟨by decide, by decide, by decide, .a, rfl⟩, by decide +kernel⟩⟩
theorem witness_WingsMessageCommands_1 : ∃ (s : State) (q : W32) (ns : Nat) (adm : W32) (lba : Nat) (data : List Blk), s.pair.mode = true
  ∧ s.pair.wings = 2 ∧ s.isStale .wings = false ∧ earlier s.pair.rxMsg q = true :=
  ⟨(duo fun p => { p with mirrors := [{ seq := 0, ns := 1, adm := 2, lba := 0, data := [5, 6, 7] }] }), 1, 1, 3, 1, [9], by decide +kernel⟩
theorem witness_WingsMessageCommands_2 : ∃ (s : State) (q : W32) (ns : Nat) (adm : W32) (lba : Nat) (data : List Blk), s.pair.mode = true
  ∧ s.pair.wings = 2 ∧ s.isStale .wings = false ∧ earlier s.pair.rxMsg q = false :=
  ⟨duo id, 0, 7, 3, 7, [9], by decide +kernel⟩
theorem witness_WingsMessageCommands_3 : ∃ (s : State) (q : W32) (ns : Nat) (lba : Nat) (nlb : Nat) (n : Ns), s.pair.mode = true ∧
  s.pair.wings = 2 ∧ s.isStale .wings = false ∧ earlier s.pair.rxMsg q = true ∧ s.ns? ns = some n ∧ n.zoned = false :=
  ⟨(duo fun p => { p with mirrors := [{ seq := 0, ns := 1, adm := 2, lba := 0, data := [5, 6, 7] }] }).modNames fun n => { n with nss := [space false] }, 1, 1, 1, 1, space false, by decide +kernel⟩
theorem witness_WingsMessageCommands_4 : ∃ (s : State) (q : W32) (ns : Nat) (lba : Nat) (e : W64), s.pair.mode = true ∧ s.pair.wings = 2
  ∧ s.isStale .wings = false ∧ earlier s.pair.rxMsg q = true ∧ e ≠ 0 :=
  ⟨(duo id), 1, 7, 7, 8, by decide +kernel⟩
theorem witness_WingsMessageCommands_5 : ∃ (s : State) (q : W32) (p : PortId) (k : Nat) (sr : BitVec 160) (f0 : Bool) (f1 : Bool) (b0 :
  Nat) (b1 : Nat) (sl : List (Nat × List Nat)), s.pair.mode = true ∧ s.pair.wings = 2 ∧ s.isStale .wings = false ∧ earlier s.pair.rxMsg q
  = true :=
  ⟨duo id, 1, 3, 2, 5, false, false, 100, 100, [], by decide +kernel⟩
theorem witness_WingsMessageCommands_6 : ∃ (s : State) (q : W32) (c : Nat) (x : Ctx) (l : List W32) (f : Fn), s.pair.mode = true ∧
  s.pair.wings = 2 ∧ s.ctxs = [x] ∧ x.id = c ∧ x.origin = .host f ∧ x.stage = .waiting ∧ x.wait = .mirror l ∧ l.all (fun k => !earlier q
  k) = true ∧ s.pair.settling = false ∧ s.pair.syncing = false ∧ s.prot.works = [] :=
  ⟨hosting ({ (ctx 1 (entry 1 0 0 0)) with stage := .waiting, wait := .mirror [4], update := true }) (duo fun p => { p with unanswered := [{ asking with type := 3 }] }), 4, 7, { (ctx 1 (entry 1 0 0 0)) with stage := .waiting, wait := .mirror [4], update := true }, [4], .a, by decide +kernel⟩
theorem witness_WingsMessageCommands_7 : ∃ (s : State) (q : W32) (ns : Nat) (lba : Nat) (data : List Blk), s.pair.mode = true ∧
  s.pair.wings = 2 ∧ s.isStale .wings = false ∧ earlier s.pair.rxMsg q = true ∧ data ≠ [] :=
  ⟨(duo fun p => { p with st := .rejoining }), 1, 7, 7, [3], by decide +kernel⟩
theorem witness_WingsMessageCommands_8 : ∃ (s : State) (q : W32) (ns : Nat) (lba : Nat), s.pair.mode = true ∧ s.pair.wings = 2 ∧
  s.isStale .wings = false ∧ earlier s.pair.rxMsg q = true ∧ s.pair.st = .rejoining :=
  ⟨(duo fun p => { p with st := .rejoining, own := 0 }), 1, 7, 7, by decide +kernel⟩
theorem witness_WingsMessageCommands_9 : ∃ (s : State) (q : W32) (f : Fn) (i : Nat) (e : SqEntry) (n : Ns), s.pair.mode = true ∧
  s.pair.wings = 2 ∧ s.isStale .wings = false ∧ earlier s.pair.rxMsg q = true ∧ i ≠ 0 ∧ s.ctx? s.nextCtx = none ∧ s.ns? (Ctx.fresh
  s.nextCtx s.now (.peer q f i) i e .none).ns = some n ∧ (s.fn f).anaOf n ≠ .change ∧ ioFault e = none :=
  ⟨(duo id), 1, .a, 1, entry 2 0 0 0, space true, by decide +kernel⟩
theorem witness_WingsMessageCommands_10 : ∃ (s : State) (q : W32) (f : Fn) (i : Nat) (e : SqEntry) (n : Ns), s.pair.mode = true ∧
  s.pair.wings = 2 ∧ s.isStale .wings = false ∧ earlier s.pair.rxMsg q = true ∧ i ≠ 0 ∧ s.ctx? s.nextCtx = none ∧ s.ns? (Ctx.fresh
  s.nextCtx s.now (.peer q f i) i e .none).ns = some n ∧ (s.fn f).anaOf n = .change ∧ ioFault e = none :=
  ⟨(duo id).modFn .a fun y => { y with ana1 := .change }, 1, .a, 1, entry 2 0 0 0, space true, by decide +kernel⟩
theorem witness_WingsMessageCommands_11 : ∃ (s : State) (q : W32) (c : Nat) (x : Ctx) (f : Fn) (a : Nat) (b : Nat) (d0 : W32) (d1 : W32)
  (bs : List Byte) (data : List Blk), s.pair.mode = true ∧ s.pair.wings = 2 ∧ s.isStale .wings = false ∧ earlier s.pair.rxMsg q = true ∧
  s.ctx? c = some x ∧ x.origin = .host f ∧ (s.fn f).d3hot = false ∧ x.stage = .forwarded ∧ isIoOp opZoneAppend x = false ∧ s.flushesPeer
  x = false :=
  ⟨hosting ({ (ctx 1 (entry 2 0 0 0)) with stage := .forwarded }) (duo id), 1, 7, { (ctx 1 (entry 2 0 0 0)) with stage := .forwarded }, .a, 0, 0, 1, 2, [], [4], by decide +kernel⟩
theorem witness_WingsMessageCommands_12 : ∃ (s : State) (q : W32) (a : ActId) (d : Descriptor), s.pair.mode = true ∧ s.pair.wings = 2 ∧
  s.isStale .wings = false ∧ earlier s.pair.rxMsg q = true ∧ s.pair.own.getLsbD (portOf a).val = true :=
  ⟨(duo id), 1, 6, job true, by decide +kernel⟩
theorem witness_WingsMessageCommands_13 : ∃ (s : State) (q : W32) (a : ActId) (d : Descriptor), s.pair.mode = true ∧ s.pair.wings = 2 ∧
  s.isStale .wings = false ∧ earlier s.pair.rxMsg q = true ∧ s.pair.own.getLsbD (portOf a).val = false :=
  ⟨(duo fun p => { p with own := 0 }), 1, 6, job true, by decide +kernel⟩
theorem witness_WingsMessageCommands_14 : ∃ (s : State) (q : W32) (c : Nat) (y : Ctx) (n : Ns) (m : SentMsg) (l : Location) (lba : Nat)
  (sec : Nat) (r : W32) (v : Blk) (f : Fn), s.pair.mode = true ∧ s.pair.wings = 2 ∧ s.isStale .wings = false ∧ earlier s.pair.rxMsg q =
  true ∧ s.ctx? c = some y ∧ y.stage = .waiting ∧ isIoOp 0x02 y = true ∧ y.lba = lba ∧ y.nlb = 1 ∧ y.got = [] ∧ y.saved = [] ∧ y.wait =
  .sectors [lba] ∧ s.ns? y.ns = some n ∧ y.origin = .host f ∧ (s.fn f).d3hot = false ∧ s.blocked y = false ∧ s.mediaAsked r = some m ∧
  m.ctx = some c ∧ m.sectorAt sec = some l ∧ s.foundAt (s.findMapped n lba) = some l :=
  ⟨laid <| hosting ({ (ctx 1 (entry 2 0 0 0)) with stage := .waiting, wait := .sectors [0], nlb := 1 }) { duo (fun p => { p with unanswered := [asking] }) with names := { (sled true).names with zones := [zone1 .full 131072 256] } }, 1, 7, { (ctx 1 (entry 2 0 0 0)) with stage := .waiting, wait := .sectors [0], nlb := 1 }, space true, asking, { act := 0, head := 4, zone := 0, track := 202, sector := 0 }, 0, 0, 4, 9, .a, by decide +kernel⟩
theorem witness_WingsMessageCommands_15 : ∃ (s : State) (q : W32) (r : W32) (m : SentMsg), s.pair.mode = true ∧ s.pair.wings = 2 ∧
  s.isStale .wings = false ∧ earlier s.pair.rxMsg q = true ∧ s.mediaAsked r = some m :=
  ⟨(duo fun p => { p with unanswered := [asking] }), 1, 4, asking, by decide +kernel⟩
theorem witness_WingsMessageCommands_16 : ∃ (s : State) (q : W32) (ports : W32) (g : BitVec 2) (ep : BitVec 63), s.pair.mode = true ∧
  s.pair.wings = 2 ∧ s.isStale .wings = false ∧ earlier s.pair.rxMsg q = true ∧ s.pair.handing = none ∧ s.pair.st = .paired ∧ ports ≠ 0
  :=
  ⟨(duo id), 1, 0x30000, 0, 9, by decide +kernel⟩
theorem witness_WingsMessageCommands_17 : ∃ (s : State) (q : W32) (g : BitVec 2) (ep : BitVec 63), s.pair.mode = true ∧ s.pair.wings = 2
  ∧ s.isStale .wings = false ∧ earlier s.pair.rxMsg q = true ∧ s.pair.handing = none ∧ s.pair.st = .paired :=
  ⟨(duo id), 1, 3, 9, by decide +kernel⟩
theorem witness_WingsMessageCommands_18 : ∃ (s : State) (q : W32) (ports : W32) (g : BitVec 2) (ep : BitVec 63) (h : Handing),
  s.pair.mode = true ∧ s.pair.wings = 2 ∧ s.isStale .wings = false ∧ earlier s.pair.rxMsg q = true ∧ s.pair.handing = some h ∧ h.sent =
  true ∧ h.epoch = ep ∧ h.groups = 0 :=
  ⟨(duo fun p => { p with handing := some { ports := 3, groups := 0, epoch := 9, sent := true } }), 1, 3, 0, 9, { ports := 3, groups := 0, epoch := 9, sent := true }, by decide +kernel⟩
theorem witness_WingsMessageCommands_19 : ∃ (s : State) (b : BitVec 13), s.pair.mode = true ∧ s.pair.wings ≠ 0 :=
  ⟨duo id, 4, by decide +kernel⟩
theorem witness_WingsMessageCommands_20 : ∃ (s : State) (q : W32) (ns : Nat) (adm : W32) (lba : Nat) (data : List Blk), s.pair.mode =
  true ∧ s.pair.wings = 2 ∧ s.isStale .wings = true :=
  ⟨(duo id).modXing fun x => { x with staleOther := 4 }, 1, 1, 2, 0, [], by decide +kernel⟩
theorem witness_WingsMessageCommands_21 : ∃ (s : State) (q : W32) (n : Nat) (active : Bool) (held : Bool), s.pair.mode = true ∧
  s.pair.wings = 2 ∧ s.isStale .wings = false ∧ earlier s.pair.rxMsg q = true ∧ s.rebuild? = none :=
  ⟨duo id, 1, 7, true, false, by decide +kernel⟩
theorem witness_WingsMessageCommands_22 : ∃ (s : State) (q : W32) (r : W32) (m : SentMsg) (l : Location) (x : Sector) (a : Nat) (b : Nat)
  (hd : Nat) (cl : Nat) (tr : Nat) (z : Nat) (first : Nat) (count : Nat), s.pair.mode = true ∧ s.pair.wings = 2 ∧ s.isStale .wings =
  false ∧ earlier s.pair.rxMsg q = true ∧ s.mediaAsked r = some m ∧ m.payload = [a, b, 1, cl, hd, tr, z, first, count] ∧ m.sectorAt first
  = some l ∧ s.sectorOf l = some x :=
  ⟨laid ((duo fun p => { p with unanswered := [{ asking with payload := [0, 0, 1, 0, 4, 202, 0, 0, 1] }] }).modProt fun p => { p with sectors := [{ place := .pool 0 0, sector := 0, data := 9 }] }), 1, 4, { asking with payload := [0, 0, 1, 0, 4, 202, 0, 0, 1] }, { act := 0, head := 4, zone := 0, track := 202, sector := 0 }, { place := .pool 0 0, sector := 0, data := 9 }, 0, 0, 4, 0, 202, 0, 0, 1, by decide +kernel⟩
theorem witness_PairControlCommands_1 : ∃ (s : State) (c : Nat) (x : Ctx), AtHand s c (isAction 0xCD 0) x ∧ s.pair.mode = true ∧ bits
  x.entry.cdw10 31 8 = 0 ∧ bits x.entry.cdw12 31 13 = 0 ∧ x.entry.cdw13 = 0 ∧ x.entry.cdw14 = 0 ∧ x.entry.cdw15 = 0 :=
  ⟨hosting (ctx 0 (entry 0xCD 0 0 0)) (duo id), 7, ctx 0 (entry 0xCD 0 0 0), ⟨by exact ⟨by decide, by decide, by decide, .a, rfl⟩, by decide +kernel⟩⟩
theorem witness_PairControlCommands_2 : ∃ (s : State) (c : Nat) (x : Ctx) (e : BitVec 63), AtHand s c (isAction 0xCD 1) x ∧ s.pair.mode =
  true ∧ bits x.entry.cdw10 31 8 = 0 ∧ bits x.entry.cdw12 31 13 = 0 ∧ x.entry.cdw13 = 0 ∧ x.entry.cdw14 = 0 ∧ x.entry.cdw15 = 0 ∧
  s.pair.st = .paired ∧ s.pair.handing = none ∧ x.entry.cdw11 &&& ~~~s.pair.own = 0 ∧ x.entry.cdw11 ≠ 0 ∧ nextEpoch s.pair.epoch.toNat =
  some e :=
  ⟨hosting (ctx 0 (entry 0xCD 1 8 0)) (duo id), 7, ctx 0 (entry 0xCD 1 8 0), 1, ⟨by exact ⟨by decide, by decide, by decide, .a, rfl⟩, by decide +kernel⟩⟩
theorem witness_PairControlCommands_3 : ∃ (s : State) (c : Nat) (x : Ctx), AtHand s c (isAction 0xCD 1) x ∧ s.pair.mode = true ∧ bits
  x.entry.cdw10 31 8 = 0 ∧ bits x.entry.cdw12 31 13 = 0 ∧ x.entry.cdw13 = 0 ∧ x.entry.cdw14 = 0 ∧ x.entry.cdw15 = 0 ∧ s.pair.st ≠ .paired
  :=
  ⟨hosting (ctx 0 (entry 0xCD 1 8 0)) (duo fun p => { p with st := .solo }), 7, ctx 0 (entry 0xCD 1 8 0), ⟨by exact ⟨by decide, by decide, by decide, .a, rfl⟩, by decide +kernel⟩⟩
theorem witness_PairControlCommands_4 : ∃ (s : State) (c : Nat) (x : Ctx), AtHand s c (isAction 0xCD 1) x ∧ s.pair.mode = true ∧ bits
  x.entry.cdw10 31 8 = 0 ∧ bits x.entry.cdw12 31 13 = 0 ∧ x.entry.cdw13 = 0 ∧ x.entry.cdw14 = 0 ∧ x.entry.cdw15 = 0 ∧ s.pair.st = .paired
  ∧ s.pair.handing = none ∧ x.entry.cdw11 &&& ~~~s.pair.own ≠ 0 :=
  ⟨hosting (ctx 0 (entry 0xCD 1 0x10000 0)) (duo id), 7, ctx 0 (entry 0xCD 1 0x10000 0), ⟨by exact ⟨by decide, by decide, by decide, .a, rfl⟩, by decide +kernel⟩⟩
theorem witness_PairControlCommands_5 : ∃ (s : State) (c : Nat) (x : Ctx) (e : BitVec 63), AtHand s c (isAction 0xCD 2) x ∧ s.pair.mode =
  true ∧ bits x.entry.cdw10 31 8 = 0 ∧ bits x.entry.cdw12 31 13 = 0 ∧ x.entry.cdw13 = 0 ∧ x.entry.cdw14 = 0 ∧ x.entry.cdw15 = 0 ∧
  s.pair.st = .paired ∧ s.pair.handing = none ∧ s.pair.own ≠ 0 ∧ nextEpoch s.pair.epoch.toNat = some e :=
  ⟨hosting (ctx 0 (entry 0xCD 2 0 0)) (duo id), 7, ctx 0 (entry 0xCD 2 0 0), 1, ⟨by exact ⟨by decide, by decide, by decide, .a, rfl⟩, by decide +kernel⟩⟩
theorem witness_PairControlCommands_6 : ∃ (s : State) (c : Nat) (x : Ctx), AtHand s c (isAction 0xCD 2) x ∧ s.pair.mode = true ∧ bits
  x.entry.cdw10 31 8 = 0 ∧ bits x.entry.cdw12 31 13 = 0 ∧ x.entry.cdw13 = 0 ∧ x.entry.cdw14 = 0 ∧ x.entry.cdw15 = 0 ∧ s.pair.st ≠ .paired
  :=
  ⟨hosting (ctx 0 (entry 0xCD 2 0 0)) (duo fun p => { p with st := .solo }), 7, ctx 0 (entry 0xCD 2 0 0), ⟨by exact ⟨by decide, by decide, by decide, .a, rfl⟩, by decide +kernel⟩⟩
theorem witness_PairControlCommands_7 : ∃ (s : State) (c : Nat) (x : Ctx), AtHand s c (isAction 0xCD 3) x ∧ s.pair.mode = true ∧ bits
  x.entry.cdw10 31 8 = 0 ∧ bits x.entry.cdw12 31 13 = 0 ∧ x.entry.cdw13 = 0 ∧ x.entry.cdw14 = 0 ∧ x.entry.cdw15 = 0 ∧ (s.pair.st =
  .stoodDown ∨ s.pair.st = .released) ∧ s.pair.wings = 2 :=
  ⟨hosting (ctx 0 (entry 0xCD 3 0 0)) (duo fun p => { p with st := .stoodDown }), 7, ctx 0 (entry 0xCD 3 0 0), ⟨by exact ⟨by decide, by decide, by decide, .a, rfl⟩, by decide +kernel⟩⟩
theorem witness_PairControlCommands_8 : ∃ (s : State) (c : Nat) (x : Ctx), AtHand s c (isAction 0xCD 3) x ∧ s.pair.mode = true ∧ bits
  x.entry.cdw10 31 8 = 0 ∧ bits x.entry.cdw12 31 13 = 0 ∧ x.entry.cdw13 = 0 ∧ x.entry.cdw14 = 0 ∧ x.entry.cdw15 = 0 ∧ s.pair.wings ≠ 2 :=
  ⟨hosting (ctx 0 (entry 0xCD 3 0 0)) (duo fun p => { p with st := .stoodDown, wings := 1 }), 7, ctx 0 (entry 0xCD 3 0 0), ⟨by exact ⟨by decide, by decide, by decide, .a, rfl⟩, by decide +kernel⟩⟩
theorem witness_PairControlCommands_9 : ∃ (s : State) (c : Nat) (x : Ctx), AtHand s c (isAction 0xCD 4) x ∧ s.pair.mode = true ∧ bits
  x.entry.cdw10 31 8 = 0 ∧ bits x.entry.cdw12 31 13 = 0 ∧ x.entry.cdw13 = 0 ∧ x.entry.cdw14 = 0 ∧ x.entry.cdw15 = 0 ∧ 100 ≤ bits
  x.entry.cdw12 12 0 ∧ bits x.entry.cdw12 12 0 ≤ 5000 :=
  ⟨hosting (ctx 0 (entry 0xCD 4 0 1000)) (duo id), 7, ctx 0 (entry 0xCD 4 0 1000), ⟨by exact ⟨by decide, by decide, by decide, .a, rfl⟩, by decide +kernel⟩⟩
theorem witness_PairControlCommands_10 : ∃ (s : State) (c : Nat) (x : Ctx), AtHand s c (isAction 0xCD 4) x ∧ s.pair.mode = true ∧ bits
  x.entry.cdw10 31 8 = 0 ∧ bits x.entry.cdw12 31 13 = 0 ∧ x.entry.cdw13 = 0 ∧ x.entry.cdw14 = 0 ∧ x.entry.cdw15 = 0 ∧ bits x.entry.cdw12
  12 0 < 100 :=
  ⟨hosting (ctx 0 (entry 0xCD 4 0 99)) (duo id), 7, ctx 0 (entry 0xCD 4 0 99), ⟨by exact ⟨by decide, by decide, by decide, .a, rfl⟩, by decide +kernel⟩⟩
theorem witness_PairControlCommands_11 : ∃ (s : State) (c : Nat) (x : Ctx), AtHand s c (isAction 0xCD 0) x ∧ s.pair.mode = false :=
  ⟨hosting (ctx 0 (entry 0xCD 0 0 0)) up, 7, ctx 0 (entry 0xCD 0 0 0), ⟨by exact ⟨by decide, by decide, by decide, .a, rfl⟩, by decide +kernel⟩⟩
theorem witness_PairControlCommands_12 : ∃ (s : State) (c : Nat) (x : Ctx), AtHand s c (isAction 0xCD 1) x ∧ s.pair.mode = false :=
  ⟨hosting (ctx 0 (entry 0xCD 1 0 0)) (sled true), 7, (ctx 0 (entry 0xCD 1 0 0)), ⟨by exact ⟨by decide, by decide, by decide, .a, rfl⟩, by decide +kernel⟩⟩
theorem witness_PairControlCommands_13 : ∃ (s : State) (c : Nat) (x : Ctx), AtHand s c (isAction 0xCD 2) x ∧ s.pair.mode = false :=
  ⟨hosting (ctx 0 (entry 0xCD 2 0 0)) (sled true), 7, (ctx 0 (entry 0xCD 2 0 0)), ⟨by exact ⟨by decide, by decide, by decide, .a, rfl⟩, by decide +kernel⟩⟩
theorem witness_PairControlCommands_14 : ∃ (s : State) (c : Nat) (x : Ctx), AtHand s c (isAction 0xCD 3) x ∧ s.pair.mode = false :=
  ⟨hosting (ctx 0 (entry 0xCD 3 0 0)) (sled true), 7, (ctx 0 (entry 0xCD 3 0 0)), ⟨by exact ⟨by decide, by decide, by decide, .a, rfl⟩, by decide +kernel⟩⟩
theorem witness_PairControlCommands_15 : ∃ (s : State) (c : Nat) (x : Ctx), AtHand s c (isAction 0xCD 4) x ∧ s.pair.mode = false :=
  ⟨hosting (ctx 0 (entry 0xCD 4 0 0)) (sled true), 7, (ctx 0 (entry 0xCD 4 0 0)), ⟨by exact ⟨by decide, by decide, by decide, .a, rfl⟩, by decide +kernel⟩⟩
theorem witness_PairControlCommands_16 : ∃ (s : State) (c : Nat) (x : Ctx), AtHand s c (isAction 0xCD 4) x ∧ s.pair.mode = true ∧ bits
  x.entry.cdw10 31 8 = 0 ∧ bits x.entry.cdw12 31 13 = 0 ∧ x.entry.cdw13 = 0 ∧ x.entry.cdw14 = 0 ∧ x.entry.cdw15 = 0 ∧ 5000 < bits
  x.entry.cdw12 12 0 :=
  ⟨hosting (ctx 0 (entry 0xCD 4 0 5001)) (duo id), 7, (ctx 0 (entry 0xCD 4 0 5001)), ⟨by exact ⟨by decide, by decide, by decide, .a, rfl⟩, by decide +kernel⟩⟩
theorem witness_PairControlCommands_17 : ∃ (s : State) (c : Nat) (x : Ctx), AtHand s c (isAction 0xCD 1) x ∧ s.pair.mode = true ∧ bits
  x.entry.cdw10 31 8 = 0 ∧ bits x.entry.cdw12 31 13 = 0 ∧ x.entry.cdw13 = 0 ∧ x.entry.cdw14 = 0 ∧ x.entry.cdw15 = 0 ∧ s.pair.st = .paired
  ∧ s.pair.handing = none ∧ x.entry.cdw11 = 0 :=
  ⟨hosting (ctx 0 (entry 0xCD 1 0 0)) (duo id), 7, (ctx 0 (entry 0xCD 1 0 0)), ⟨by exact ⟨by decide, by decide, by decide, .a, rfl⟩, by decide +kernel⟩⟩
theorem witness_PairControlCommands_18 : ∃ (s : State) (c : Nat) (x : Ctx), AtHand s c (isAction 0xCD 3) x ∧ s.pair.mode = true ∧ bits
  x.entry.cdw10 31 8 = 0 ∧ bits x.entry.cdw12 31 13 = 0 ∧ x.entry.cdw13 = 0 ∧ x.entry.cdw14 = 0 ∧ x.entry.cdw15 = 0 ∧ s.pair.st ≠
  .stoodDown ∧ s.pair.st ≠ .released :=
  ⟨hosting (ctx 0 (entry 0xCD 3 0 0)) (duo id), 7, (ctx 0 (entry 0xCD 3 0 0)), ⟨by exact ⟨by decide, by decide, by decide, .a, rfl⟩, by decide +kernel⟩⟩
theorem witness_MemberCommands_1 : ∃ (s : State) (p : PortId), (s.member p).st = .member ∧ s.peerOwns p = false ∧ (s.port p).train = 0xA
  :=
  ⟨(sled true).modPort 3 fun x => { x with train := 0xA }, 3, by decide +kernel⟩
theorem witness_MemberCommands_2 : ∃ (s : State) (o : LongOp), s.rebuild? = some o ∧ o.st = .running ∧ s.names.dumping = false ∧
  s.boot.complete = true ∧ s.destageFirst = false ∧ s.coordinates = true ∧ 3 ≤ s.prot.rebuildPhase.val ∧ s.mcTodo = [] ∧ s.todo ≠ [] :=
  ⟨rebuilding id, long 1 .running, by decide +kernel⟩
theorem witness_MemberCommands_3 : ∃ (s : State) (at_ : Nat), s.rebuild? = none ∧ s.failedNow = false ∧ s.absentSince = some at_ ∧
  s.names.dumping = false ∧ s.boot.complete = true ∧ s.destageFirst = false ∧ s.coordinates = true ∧ s.prot.rebuildHeld = false ∧
  s.mcTodo = [] ∧ s.todo ≠ [] :=
  ⟨(sled true).modMember 1 fun m => { m with st := .absent, absentAt := 5 }, 5, by decide +kernel⟩
theorem witness_MemberCommands_4 : ∃ (s : State) (o : LongOp), s.rebuild? = some o ∧ o.byPs3 = false ∧ s.prot.checkAck = none ∧ s.mirrors
  = false ∧ s.prot.checkpoint + 256 ≤ s.committedBelow :=
  ⟨rebuilding fun p => { p with started := 256 }, long 1 .running, by decide +kernel⟩
theorem witness_MemberCommands_5 : ∃ (s : State) (o : LongOp), s.rebuild? = some o ∧ s.prot.rebuildPhase = 0 ∧ s.boot.complete = true ∧
  o.st ≠ .waiting ∧ o.cancelAsked = false ∧ o.suspendAsked = false ∧ s.mcTodo = [] ∧ s.todo ≠ [] :=
  ⟨({ sled true with prot := { (sled true).prot with members := upd (sled true).prot.members 1 (fun m => { m with st := .failed }) }, names := { (sled true).names with lost := [] } }.modCfg fun c => { c with ops := [long 1 .running] }), long 1 .running, by decide +kernel⟩
theorem witness_MemberCommands_6 : ∃ (s : State) (o : LongOp) (g : Group) (i : Nat), s.rebuild? = some o ∧ o.st = .running ∧ s.nextStripe
  = some (g, i) ∧ (s.chooseTargets g i (s.missingOf g i)).isNone = true :=
  ⟨({ sled true with prot := { (sled true).prot with members := (Vector.ofFn fun p : PortId => if p.val < 10 then (if p.val = 1 then { disk with st := .failed } else disk) else Member.reset) }, names := { (sled true).names with lost := [] } }.modCfg fun c => { c with ops := [long 1 .running] }), long 1 .running, lane, 0, by decide +kernel⟩
theorem witness_MemberCommands_7 : ∃ (s : State), s.rebuild? = none ∧ (s.prot.rebuildHeld = true ∨ s.destageFirst = true) :=
  ⟨(sled true).modProt fun p => { p with rebuildHeld := true }, by decide +kernel⟩
theorem witness_MemberCommands_8 : ∃ (s : State) (p : PortId), s.memberHere p = true ∧ s.ctxs = [] ∧ s.power.entering = false ∧ s.mirrors
  = false :=
  ⟨((((sled true).modMember 3 fun m => { m with st := .absent }).modPort 3 fun x => { x with persVerified := true }).modPins fun p => { p with prsnt := 8 }), 3, by decide +kernel⟩
theorem witness_MemberCommands_9 : ∃ (s : State) (o : LongOp), s.rebuild? = some o ∧ s.prot.rebuildPhase = 0 ∧ s.boot.complete = true ∧
  o.st ≠ .waiting ∧ o.cancelAsked = true ∧ (s.prot.works.all fun w => w.kind != .rebuild) = true :=
  ⟨(sled true).modCfg fun c => { c with ops := [{ long 1 .running with cancelAsked := true }] }, { long 1 .running with cancelAsked := true }, by decide +kernel⟩
theorem witness_MemberCommands_10 : ∃ (s : State) (o : LongOp), s.rebuild? = some o ∧ s.prot.checkAck = none ∧ s.mirrors = true ∧
  s.prot.checkpoint + 256 ≤ s.committedBelow :=
  ⟨(rebuilding fun p => { p with started := 256 }).modPair fun p => { p with mode := true, st := .paired, wings := 2 }, long 1 .running, by decide +kernel⟩
theorem witness_MemberCommands_11 : ∃ (s : State), s.rebuild? = none ∧ s.failedNow = true ∧ s.prot.rebuildHeld = false ∧ s.names.dumping
  = false ∧ s.boot.complete = true ∧ s.destageFirst = false ∧ s.coordinates = true ∧ s.mcTodo = [] ∧ s.todo ≠ [] :=
  ⟨(sled true).modMember 1 fun m => { m with st := .failed }, by decide +kernel⟩
theorem witness_StripeCommands_1 : ∃ (s : State) (group : Nat) (stripe : Nat) (run : Nat) (g : Group) (w : Work), s.group? group = some g
  ∧ stripe < g.h ∧ run < 8 ∧ g.number = group ∧ s.names.dumping = false ∧ s.destageFirst = false ∧ s.mem.halted.contains 0x02 = false ∧
  s.prot.rebuildPhase ≠ 2 ∧ s.work? g stripe = some w ∧ w.acks = none ∧ (w.targets.any fun q => s.placeBad q.2) = false ∧ w.runs.length =
  run ∧ s.worksOn w = true ∧ (w.targets.all fun q => s.canPut q.2 (((List.range 32).map (32 * run + ·)).filter fun r => decide (r <
  s.rowsOf g stripe))) = true ∧ (∀ r < 256, r / 32 = run → r < s.rowsOf g stripe → g.k ≤ (s.rowSources g stripe r [] false).length) :=
  ⟨rebuilding fun p => { p with works := [{ kind := .rebuild, group := 1, stripe := 0, targets := [(7, .spare 10 0)], runs := [0], acks := none, order := 0 }] }, 1, 0, 1, lane, { kind := .rebuild, group := 1, stripe := 0, targets := [(7, .spare 10 0)], runs := [0], acks := none, order := 0 }, by decide +kernel⟩
theorem witness_StripeCommands_2 : ∃ (s : State) (group : Nat) (stripe : Nat) (run : Nat) (g : Group) (l : List (Nat × Place)), s.group?
  group = some g ∧ stripe < g.h ∧ run < 8 ∧ g.number = group ∧ s.names.dumping = false ∧ s.destageFirst = false ∧ s.mem.halted.contains
  0x02 = false ∧ s.stripeIdle g stripe = true ∧ s.resyncs g stripe = false ∧ s.mayRebuild g stripe = true ∧ s.chooseTargets g stripe
  (s.missingOf g stripe) = some l ∧ l ≠ [] :=
  ⟨rebuilding id, 1, 0, 0, lane, [(7, .spare 10 0)], by decide +kernel⟩
theorem witness_StripeCommands_3 : ∃ (s : State) (group : Nat) (stripe : Nat) (copies : Nat) (g : Group) (w : Work) (j : Nat) (pl :
  Place), s.group? group = some g ∧ stripe < g.h ∧ s.names.dumping = false ∧ s.destageFirst = false ∧ s.writeDue pl = false ∧
  s.prot.rebuildPhase ≠ 2 ∧ s.work? g stripe = some w ∧ 2 ≤ copies ∧ ceilDiv (s.rowsOf g stripe) 32 ≤ w.runs.length ∧ w.acks = none ∧
  w.group = group ∧ w.stripe = stripe ∧ g.number = group ∧ w.targets = [(j, pl)] ∧ s.placeBad pl = false ∧ w.kind = .resync ∧ s.rebuild?
  = none ∧ s.ctxs = [] ∧ s.power.entering = false ∧ s.mirrors = false :=
  ⟨(sled true).modProt fun p => { p with works := [{ kind := .resync, group := 1, stripe := 0, targets := [(1, .spare 20 0)], runs := [0], acks := none, order := 0 }], touched := [(1, 0, 1)] }, 1, 0, 2, lane, { kind := .resync, group := 1, stripe := 0, targets := [(1, .spare 20 0)], runs := [0], acks := none, order := 0 }, 1, .spare 20 0, by decide +kernel⟩
theorem witness_StripeCommands_4 : ∃ (s : State) (group : Nat) (stripe : Nat) (copies : Nat) (g : Group) (w : Work) (o : LongOp),
  s.group? group = some g ∧ stripe < g.h ∧ s.names.dumping = false ∧ s.destageFirst = false ∧ (w.targets.any fun q => s.writeDue q.2) =
  false ∧ (∀ q ∈ w.targets, s.placeMissing q.2 = false) ∧ (∀ j ∈ s.missingOf g stripe, ∃ q ∈ w.targets, q.1 = j) ∧ s.prot.rebuildPhase =
  3 ∧ s.work? g stripe = some w ∧ 2 ≤ copies ∧ ceilDiv (s.rowsOf g stripe) 32 ≤ w.runs.length ∧ w.acks = none ∧ (w.targets.any fun q =>
  s.placeBad q.2) = false ∧ w.group = group ∧ w.stripe = stripe ∧ g.number = group ∧ w.kind = .rebuild ∧ s.rebuild? = some o ∧ o.st =
  .running ∧ o.cancelAsked = false ∧ o.suspendAsked = false ∧ s.ctxs = [] ∧ s.power.entering = false ∧ s.mirrors = false :=
  ⟨rebuilding fun p => { p with works := [{ kind := .rebuild, group := 1, stripe := 0, targets := [(7, .spare 10 0)], runs := [0], acks := none, order := 0 }] }, 1, 0, 2, lane, { kind := .rebuild, group := 1, stripe := 0, targets := [(7, .spare 10 0)], runs := [0], acks := none, order := 0 }, long 1 .running, by decide +kernel⟩
theorem witness_StripeCommands_5 : ∃ (s : State) (group : Nat) (stripe : Nat) (chunk : Nat) (g : Group) (pl : Place), s.group? group =
  some g ∧ g.number = group ∧ stripe < g.h ∧ chunk < g.width ∧ s.names.dumping = false ∧ s.destageFirst = false ∧ s.reallocDue g stripe
  chunk = true ∧ s.chunkMissing g stripe chunk = false ∧ s.reallocTarget g stripe chunk = some pl ∧ s.work? g stripe = none ∧
  ((List.range (64 * s.rowsOf g stripe)).any (s.breakWaits g stripe chunk)) = false ∧ s.canPut pl (List.range (s.rowsOf g stripe)) = true
  ∧ s.ctxs = [] ∧ s.power.entering = false ∧ s.mirrors = false :=
  ⟨(sled true).modProt fun p => { p with bad := [((sled true).placeOf lane 0 1, 0)] }, 1, 0, 1, lane, .reserve 3 0, by decide +kernel⟩
theorem witness_StripeCommands_6 : ∃ (s : State) (group : Nat) (stripe : Nat) (chunk : Nat) (g : Group) (o : LongOp), s.group? group =
  some g ∧ g.number = group ∧ s.rebuild? = some o ∧ s.prot.rebuildPhase = 4 ∧ o.st = .running ∧ (s.away.any fun e => e.group == group &&
  e.stripe == stripe && e.chunk == chunk) = true ∧ s.destageFirst = false ∧ s.names.dumping = false ∧ o.cancelAsked = false ∧
  o.suspendAsked = false ∧ s.work? g stripe = none ∧ ((List.range (64 * s.rowsOf g stripe)).any (s.breakWaits g stripe chunk)) = false ∧
  s.canPut (.pool (g.home stripe chunk).1 (g.home stripe chunk).2) (List.range (s.rowsOf g stripe)) = true ∧ s.ctxs = [] ∧
  s.power.entering = false ∧ s.mirrors = false :=
  ⟨({ sled true with prot := { (sled true).prot with rebuildPhase := 4, excs := [{ group := 1, stripe := 0, chunk := 1, place := .spare 20 0 }], homecoming := [3] }, names := { (sled true).names with lost := [] } }.modCfg fun c => { c with ops := [long 1 .running] }), 1, 0, 1, lane, long 1 .running, by decide +kernel⟩
theorem witness_StripeCommands_7 : ∃ (s : State) (p : PortId) (slot : Nat) (strip : Nat) (o : LongOp) (q : PortId × Nat × Group × Nat ×
  Nat) (rest : List ((PortId × Nat × Group × Nat × Nat) × Nat)), ((s.running 3).find? fun o => o.p0.getLsbD p.val) = some o ∧
  ((s.scanStrips o.p0).filter fun q => decide (o.from_ ≤ scanKey q.1 q.2)) = (q, strip) :: rest ∧ q.1 = p ∧ q.2.1 = slot ∧ rest ≠ [] ∧
  s.destageFirst = false ∧ s.names.dumping = false ∧ o.cancelAsked = false ∧ o.suspendAsked = false :=
  ⟨({ sled true with prot := { (sled true).prot with works := [] }, names := { (sled true).names with zones := [zone1 .implicit 1024 2] } }.modCfg fun c => { c with ops := [{ long 3 .running with p0 := 8 }] }), 3, 0, 0, { long 3 .running with p0 := 8 }, (3, 0, lane, 0, 1), [((3, 0, lane, 0, 1), 1)], by decide +kernel⟩
theorem witness_StripeCommands_8 : ∃ (s : State) (p : PortId) (slot : Nat) (strip : Nat) (o : LongOp), ((s.running 3).find? fun o =>
  o.p0.getLsbD p.val) = some o ∧ ((s.scanStrips o.p0).filter fun q => decide (o.from_ ≤ scanKey q.1 q.2)) = [] :=
  ⟨({ sled true with prot := { (sled true).prot with works := [] }, names := { (sled true).names with lost := [] } }.modCfg fun c => { c with ops := [{ long 3 .running with p0 := 8 }] }), 3, 0, 0, { long 3 .running with p0 := 8 }, by decide +kernel⟩
theorem witness_StripeCommands_9 : ∃ (s : State) (p : PortId) (d0 : List Nat) (d1 : List Nat) (o : LongOp), ((s.running 4).find? fun o =>
  o.formatPort == p) = some o ∧ o.cursor + 1 < s.rawBands p 0 + s.rawBands p 1 ∧ s.destageFirst = false ∧ s.names.dumping = false ∧
  s.formatsBand p o.cursor = true ∧ s.deadHalf p o.cursor = none ∧ o.cancelAsked = false ∧ o.suspendAsked = false :=
  ⟨calm (({ sled true with prot := { (sled true).prot with works := [] }, names := { (sled true).names with lost := [] } }.modCfg fun c => { c with ops := [{ long 4 .running with p0 := 3 }] }).modPcal 3 fun c => { c with format := some format, recipe := some { calTracks := 16, calZone := 0, elements := [], recipes := [] } }), 3, [2], [], { long 4 .running with p0 := 3 }, by decide +kernel⟩
theorem witness_StripeCommands_10 : ∃ (s : State) (p : PortId) (d0 : List Nat) (d1 : List Nat) (o : LongOp), ((s.running 4).find? fun o
  => o.formatPort == p) = some o ∧ s.rawBands p 0 + s.rawBands p 1 ≤ o.cursor + 1 ∧ s.destageFirst = false ∧ s.names.dumping = false ∧
  s.formatsBand p o.cursor = true ∧ o.replaced = p ∧ s.prot.groups = [] :=
  ⟨({ sled true with prot := { (sled true).prot with groups := [] }, names := { (sled true).names with lost := [] } }.modCfg fun c => { c with ops := [{ long 4 .running with p0 := 3 }] }), 3, [2], [1, 7], { long 4 .running with p0 := 3 }, by decide +kernel⟩
theorem witness_StripeCommands_11 : ∃ (s : State) (o : LongOp), (s.running 2).head? = some o ∧ s.names.dumping = false ∧ s.sanitizesBand
  o.done = true ∧ o.done + 1 < s.allBands ∧ o.cancelAsked = false ∧ o.suspendAsked = false :=
  ⟨({ sled true with prot := { (sled true).prot with works := [] }, names := { (sled true).names with lost := [] } }.modCfg fun c => { c with ops := [long 2 .running] }), long 2 .running, by decide +kernel⟩
theorem witness_StripeCommands_12 : ∃ (s : State) (o : LongOp), (s.running 2).head? = some o ∧ s.names.dumping = false ∧ s.sanitizesBand
  o.done = true ∧ s.allBands ≤ o.done + 1 ∧ s.ctxs = [] ∧ s.power.entering = false ∧ s.mirrors = false :=
  ⟨({ sled true with prot := { (sled true).prot with members := Vector.replicate 32 Member.reset }, names := { (sled true).names with lost := [] } }.modCfg fun c => { c with ops := [long 2 .running] }), long 2 .running, by decide +kernel⟩
theorem witness_StripeCommands_13 : ∃ (s : State) (o : LongOp), (s.running 2).head? = some o ∧ s.names.dumping = false ∧ s.sanitizesBand
  o.done = true :=
  ⟨({ sled true with prot := { (sled true).prot with works := [] }, names := { (sled true).names with lost := [] } }.modCfg fun c => { c with ops := [long 2 .running] }), long 2 .running, by decide +kernel⟩
theorem witness_StripeCommands_14 : ∃ (s : State) (group : Nat) (stripe : Nat) (run : Nat) (g : Group) (l : List (Nat × Place)), s.group?
  group = some g ∧ stripe < g.h ∧ run < 8 ∧ g.number = group ∧ s.names.dumping = false ∧ s.destageFirst = false ∧ s.mem.halted.contains
  0x02 = false ∧ s.prot.rebuildPhase ≠ 2 ∧ s.stripeIdle g stripe = true ∧ s.resyncs g stripe = true ∧ s.stripeLost g stripe = false ∧
  s.chooseTargets g stripe (s.touchedOf g stripe) = some l ∧ l ≠ [] :=
  ⟨(sled true).modProt fun p => { p with touched := [(1, 0, 1)] }, 1, 0, 0, lane, [(1, .spare 3 0)], by decide +kernel⟩
theorem witness_StripeCommands_15 : ∃ (s : State) (p : PortId) (slot : Nat) (strip : Nat) (o : LongOp) (q : PortId × Nat × Group × Nat ×
  Nat) (rest : List ((PortId × Nat × Group × Nat × Nat) × Nat)), ((s.running 3).find? fun o => o.p0.getLsbD p.val) = some o ∧
  ((s.scanStrips o.p0).filter fun q => decide (o.from_ ≤ scanKey q.1 q.2)) = (q, strip) :: rest ∧ q.1 = p ∧ q.2.1 = slot ∧ s.destageFirst
  = false ∧ s.names.dumping = false ∧ (s.work? q.2.2.1 q.2.2.2.1).isSome = true :=
  ⟨({ sled true with prot := { (sled true).prot with works := [{ kind := .rebuild, group := 1, stripe := 0, targets := [(7, .spare 10 0)], runs := [0], acks := none, order := 0 }] }, names := { (sled true).names with zones := [zone1 .implicit 1024 2] } }.modCfg fun c => { c with ops := [{ long 3 .running with p0 := 8 }] }), 3, 0, 0, { long 3 .running with p0 := 8 }, (3, 0, lane, 0, 1), [((3, 0, lane, 0, 1), 1)], by decide +kernel⟩
theorem witness_StripeCommands_16 : ∃ (s : State) (p : PortId) (d0 : List Nat) (d1 : List Nat) (o : LongOp) (l : List Nat), ((s.running
  4).find? fun o => o.formatPort == p) = some o ∧ o.cursor + 1 < s.rawBands p 0 + s.rawBands p 1 ∧ s.destageFirst = false ∧
  s.names.dumping = false ∧ s.deadHalf p o.cursor = some l ∧ l ≠ [] :=
  ⟨(((sled true).modCfg fun c => { c with ops := [{ long 4 .running with p0 := 3 }] }).modPcal 3 fun c => { c with format := some format, recipe := some { calTracks := 16, calZone := 0, elements := [], recipes := [] } }).modAcal 6 fun x => { x with heads := Vector.replicate 12 { HeadCal.reset with failed := true } }, 3, [], [], { long 4 .running with p0 := 3 }, List.range 16470, by decide +kernel, by decide +kernel, by decide +kernel, by decide +kernel, rfl, by simp⟩
theorem witness_StripeCommands_17 : ∃ (s : State) (p : PortId) (d0 : List Nat) (d1 : List Nat) (o : LongOp), ((s.running 4).find? fun o
  => o.formatPort == p) = some o ∧ s.formatsBand p o.cursor = false :=
  ⟨((sled true).modCfg fun c => { c with ops := [{ long 4 .running with p0 := 3 }] }).modPcal 3 fun c => { c with format := some format, recipe := some { calTracks := 16, calZone := 0, elements := [], recipes := [] } }, 3, [], [], { long 4 .running with p0 := 3 }, by decide +kernel⟩
theorem witness_RecorderCommands_1 : ∃ (s : State) (i : Nat) (e : Event) (r : Record) (l : List Record), s.book.ready = true ∧
  s.book.inbox[i]? = some e ∧ s.book.ring = r :: l ∧ s.book.isOpen = true ∧ s.book.inChain = false ∧ s.now < s.book.openAt + Config.sec ∧
  r.same e = true :=
  ⟨up.modBook fun b => { b with ready := true, inbox := [{ cls := 2, code := 5, source := 3, payload := [0], boot := 9, uptime := 100, held := false }], ring := [{ seq := 40, boot := 9, uptime := 90, cls := 2, code := 5, source := 3, payload := 0, repeats := 4, flags := 0, lastDelta := 0, valid := true }], isOpen := true }, 0, { cls := 2, code := 5, source := 3, payload := [0], boot := 9, uptime := 100, held := false }, { seq := 40, boot := 9, uptime := 90, cls := 2, code := 5, source := 3, payload := 0, repeats := 4, flags := 0, lastDelta := 0, valid := true }, [], by decide +kernel⟩
theorem witness_RecorderCommands_2 : ∃ (s : State) (i : Nat) (e : Event), s.book.ready = true ∧ s.book.inbox[i]? = some e ∧ s.book.isOpen
  = false ∧ e.payload.length = 1 ∧ s.newInMs.length < 200 :=
  ⟨up.modBook fun b => { b with ready := true, inbox := [{ cls := 2, code := 5, source := 3, payload := [0], boot := 9, uptime := 100, held := false }] }, 0, { cls := 2, code := 5, source := 3, payload := [0], boot := 9, uptime := 100, held := false }, by decide +kernel⟩
theorem witness_RecorderCommands_3 : ∃ (s : State) (i : Nat) (e : Event), s.book.ready = true ∧ s.book.inbox[i]? = some e ∧ s.book.isOpen
  = false ∧ e.payload.length = 1 ∧ s.newInMs.length = 200 :=
  ⟨up.modBook fun b => { b with ready := true, inbox := [{ cls := 2, code := 5, source := 3, payload := [0], boot := 9, uptime := 100, held := false }], newAt := List.replicate 200 0 }, 0, { cls := 2, code := 5, source := 3, payload := [0], boot := 9, uptime := 100, held := false }, by decide +kernel⟩
theorem witness_RecorderCommands_4 : ∃ (s : State), s.book.isOpen = true :=
  ⟨up.modBook fun b => { b with ready := true, isOpen := true, ring := [{ seq := 40, boot := 9, uptime := 90, cls := 2, code := 5, source := 3, payload := 0, repeats := 0, flags := 0, lastDelta := 0, valid := true }] }, by decide +kernel⟩
theorem witness_RecorderCommands_5 : ∃ (s : State), 0 < s.book.winDrops ∧ s.book.isOpen = false ∧ s.book.winDrops < 2 ^ 32 ∧
  s.book.winFirst < 2 ^ 48 :=
  ⟨up.modBook fun b => { b with ready := true, winDrops := 3, winFirst := 5 }, by decide +kernel⟩
theorem witness_RecorderCommands_6 : ∃ (s : State) (r : Record) (l : List Record), s.pendingRecords = r :: l ∧ s.book.ready = true ∧ 0 <
  s.nor.prompt.erased ∧ s.book.lostCount = 0 :=
  ⟨up.modBook fun b => { b with ready := true, ring := [{ seq := 40, boot := 9, uptime := 90, cls := 2, code := 5, source := 3, payload := 0, repeats := 4, flags := 0, lastDelta := 0, valid := true }] }, { seq := 40, boot := 9, uptime := 90, cls := 2, code := 5, source := 3, payload := 0, repeats := 4, flags := 0, lastDelta := 0, valid := true }, [], by decide +kernel⟩
theorem witness_RecorderCommands_7 : ∃ (s : State) (r : Record) (l : List Record), s.pendingRecords = r :: l ∧ s.book.ready = true ∧ 0 <
  s.nor.prompt.erased :=
  ⟨up.modBook fun b => { b with ready := true, ring := [{ seq := 40, boot := 9, uptime := 90, cls := 2, code := 5, source := 3, payload := 0, repeats := 4, flags := 0, lastDelta := 0, valid := true }] }, { seq := 40, boot := 9, uptime := 90, cls := 2, code := 5, source := 3, payload := 0, repeats := 4, flags := 0, lastDelta := 0, valid := true }, [], by decide +kernel⟩
theorem witness_RecorderCommands_8 : ∃ (s : State), s.nor.prompt.erased + 1 < 4096 :=
  ⟨up, by decide +kernel⟩
theorem witness_RecorderCommands_9 : ∃ (s : State), s.book.erasePending = true :=
  ⟨up.modBook fun b => { b with ready := true, erasePending := true, clearTo := 5 }, by decide +kernel⟩
theorem witness_RecorderCommands_10 : ∃ (s : State) (c : Nat) (x : Ctx), AtHand s c (isAdminOp 0xC8) x ∧ bits x.entry.cdw10 7 0 = 0 ∧
  bits x.entry.cdw10 31 9 = 0 ∧ bits x.entry.cdw13 31 16 = 0 ∧ x.entry.cdw14 = 0 ∧ x.entry.cdw15 = 0 ∧ 0 < bits x.entry.cdw13 15 0 ∧ bits
  x.entry.cdw13 15 0 ≤ 16384 :=
  ⟨hosting (ctx 0 ({ entry 0xC8 0 1 0 with cdw13 := 5 })) (up.modBook fun b => { b with ready := true, ring := [{ seq := 40, boot := 9, uptime := 90, cls := 2, code := 5, source := 3, payload := 0, repeats := 4, flags := 0, lastDelta := 0, valid := true }] }), 7, ctx 0 ({ entry 0xC8 0 1 0 with cdw13 := 5 }), ⟨by exact ⟨by decide, by decide, by decide, .a, rfl⟩, by decide +kernel⟩⟩
theorem witness_RecorderCommands_11 : ∃ (s : State) (c : Nat) (x : Ctx), AtHand s c (isAdminOp 0xC8) x ∧ bits x.entry.cdw10 7 0 = 1 ∧
  bits x.entry.cdw10 31 9 = 0 ∧ bits x.entry.cdw13 31 16 = 0 ∧ x.entry.cdw14 = 0 ∧ x.entry.cdw15 = 0 ∧ 0 < bits x.entry.cdw13 15 0 ∧ bits
  x.entry.cdw13 15 0 ≤ 16384 :=
  ⟨hosting (ctx 0 ({ entry 0xC8 1 1 0 with cdw13 := 5 })) (up.modBook fun b => { b with ready := true, ring := [{ seq := 40, boot := 9, uptime := 90, cls := 2, code := 5, source := 3, payload := 0, repeats := 4, flags := 0, lastDelta := 0, valid := true }] }), 7, ctx 0 ({ entry 0xC8 1 1 0 with cdw13 := 5 }), ⟨by exact ⟨by decide, by decide, by decide, .a, rfl⟩, by decide +kernel⟩⟩
theorem witness_RecorderCommands_12 : ∃ (s : State) (c : Nat) (x : Ctx), AtHand s c (isAdminOp 0xC8) x ∧ bits x.entry.cdw10 7 0 ≤ 1 ∧
  bits x.entry.cdw10 31 9 = 0 ∧ bits x.entry.cdw13 15 0 = 0 :=
  ⟨hosting (ctx 0 (entry 0xC8 0 0 0)) (up.modBook fun b => { b with ready := true, ring := [{ seq := 40, boot := 9, uptime := 90, cls := 2, code := 5, source := 3, payload := 0, repeats := 4, flags := 0, lastDelta := 0, valid := true }] }), 7, ctx 0 (entry 0xC8 0 0 0), ⟨by exact ⟨by decide, by decide, by decide, .a, rfl⟩, by decide +kernel⟩⟩
theorem witness_RecorderCommands_13 : ∃ (s : State) (c : Nat) (x : Ctx), AtHand s c (isAdminOp 0xC9) x ∧ bits x.entry.cdw10 31 16 = 0 ∧
  x.entry.cdw11 = 0 ∧ x.entry.cdw12 = 0 ∧ x.entry.cdw13 = 0 ∧ x.entry.cdw14 = 0 ∧ x.entry.cdw15 = 0 :=
  ⟨hosting (ctx 0 ({ entry 0xC9 5325 0 0 with data := [1] })) (up), 7, ctx 0 ({ entry 0xC9 5325 0 0 with data := [1] }), ⟨by exact ⟨by decide, by decide, by decide, .a, rfl⟩, by decide +kernel⟩⟩
theorem witness_RecorderCommands_14 : ∃ (s : State), s.boot.complete = true ∧ s.book.ready = false :=
  ⟨up, by decide +kernel⟩
theorem witness_RecorderLimit_1 : ∃ (s : State) (i : Nat) (e : Event), s.book.ready = true ∧ s.book.inbox[i]? = some e ∧ s.book.isOpen =
  false ∧ s.newInMs.length + e.payload.length ≤ 200 :=
  ⟨up.modBook fun b => { b with ready := true, inbox := [{ cls := 2, code := 5, source := 3, payload := [0], boot := 9, uptime := 100, held := false }] }, 0, { cls := 2, code := 5, source := 3, payload := [0], boot := 9, uptime := 100, held := false }, by decide +kernel⟩
theorem witness_RecorderLimit_2 : ∃ (s : State) (i : Nat) (e : Event) (r : Record) (l : List Record), s.book.ready = true ∧
  s.book.inbox[i]? = some e ∧ s.book.ring = r :: l ∧ s.book.isOpen = true ∧ s.book.inChain = false ∧ s.now < s.book.openAt + Config.sec ∧
  r.same e = true :=
  ⟨up.modBook fun b => { b with ready := true, inbox := [{ cls := 2, code := 5, source := 3, payload := [0], boot := 9, uptime := 100, held := false }], ring := [{ seq := 40, boot := 9, uptime := 90, cls := 2, code := 5, source := 3, payload := 0, repeats := 4, flags := 0, lastDelta := 0, valid := true }], isOpen := true }, 0, { cls := 2, code := 5, source := 3, payload := [0], boot := 9, uptime := 100, held := false }, { seq := 40, boot := 9, uptime := 90, cls := 2, code := 5, source := 3, payload := 0, repeats := 4, flags := 0, lastDelta := 0, valid := true }, [], by decide +kernel⟩
theorem witness_RecorderLimit_3 : ∃ (s : State) (i : Nat) (e : Event), s.book.ready = true ∧ s.book.inbox[i]? = some e ∧ s.book.isOpen =
  false ∧ 200 < s.newInMs.length + e.payload.length :=
  ⟨up.modBook fun b => { b with ready := true, inbox := [{ cls := 2, code := 5, source := 3, payload := [0], boot := 9, uptime := 100, held := false }], newAt := List.replicate 200 0 }, 0, { cls := 2, code := 5, source := 3, payload := [0], boot := 9, uptime := 100, held := false }, by decide +kernel⟩
theorem witness_RecorderLimit_4 : ∃ (s : State), 0 < s.book.winDrops ∧ s.book.isOpen = false ∧ s.book.winDrops < 2 ^ 32 ∧ s.book.winFirst
  < 2 ^ 48 :=
  ⟨up.modBook fun b => { b with ready := true, winDrops := 3, winFirst := 5 }, by decide +kernel⟩
theorem witness_SequencerCommands_1 : ∃ (s : State) (a : ActId) (w : W32), (s.seq a).st = .running ∧ (s.patch.bankOf (s.seq
  a).bank).micro? (s.seq a).addr.toNat = some w ∧ (s.patch.bankOf (s.seq a).bank).nano? (microNano w) = .inr 0 ∧ microNext w = 0 ∧ (s.seq
  a).acted = false ∧ ((s.seq a).addr ≠ 0 ∨ (s.seq a).switchPending = false) ∧ ((s.patch.bankOf (s.seq a).bank).micro? ((s.patch.bankOf
  (s.seq a).bank).redirect ((s.seq a).addr.toNat + 1))).isSome = true ∧ (s.patch.bankOf (s.seq a).bank).redirect ((s.seq a).addr.toNat +
  1) ≠ 0 :=
  ⟨(seq6 fun q => { q with st := .running, addr := 16384 }).modPatch fun p => { p with bank0 := { micro := [BitVec.ofNat 32 (1024 * 2 ^ 21), 0], nano := [0], matches_ := [] } }, 6, BitVec.ofNat 32 (1024 * 2 ^ 21), by decide +kernel⟩
theorem witness_SequencerCommands_2 : ∃ (s : State) (a : ActId) (w : W32), (s.seq a).st = .running ∧ (s.patch.bankOf (s.seq
  a).bank).micro? (s.seq a).addr.toNat = some w ∧ (s.patch.bankOf (s.seq a).bank).nano? (microNano w) = .inr 0 ∧ microNext w = 2 ∧ (s.seq
  a).acted = false ∧ ((s.seq a).addr ≠ 0 ∨ (s.seq a).switchPending = false) ∧ (s.seq a).stack.length < 8 ∧ (s.patch.bankOf (s.seq
  a).bank).redirect (microTarget w) = microTarget w ∧ ((s.patch.bankOf (s.seq a).bank).micro? (microTarget w)).isSome = true ∧
  microTarget w ≠ 0 :=
  ⟨(seq6 fun q => { q with st := .running, addr := 16384 }).modPatch fun p => { p with bank0 := { micro := [BitVec.ofNat 32 (1024 * 2 ^ 21 + 2 * 2 ^ 15 + 16385), 0], nano := [0], matches_ := [] } }, 6, BitVec.ofNat 32 (1024 * 2 ^ 21 + 2 * 2 ^ 15 + 16385), by decide +kernel⟩
theorem witness_SequencerCommands_3 : ∃ (s : State) (a : ActId) (w : W32), (s.seq a).st = .running ∧ (s.patch.bankOf (s.seq
  a).bank).micro? (s.seq a).addr.toNat = some w ∧ (s.patch.bankOf (s.seq a).bank).nano? (microNano w) = .inr 0 ∧ microNext w = 2 ∧ (s.seq
  a).acted = false ∧ ((s.seq a).addr ≠ 0 ∨ (s.seq a).switchPending = false) ∧ (s.seq a).stack.length = 8 ∧ (s.seq a).faultAt = none :=
  ⟨(seq6 fun q => { q with st := .running, addr := 16384, stack := List.replicate 8 5 }).modPatch fun p => { p with bank0 := { micro := [BitVec.ofNat 32 (1024 * 2 ^ 21 + 2 * 2 ^ 15 + 16385), 0], nano := [0], matches_ := [] } }, 6, BitVec.ofNat 32 (1024 * 2 ^ 21 + 2 * 2 ^ 15 + 16385), by decide +kernel⟩
theorem witness_SequencerCommands_4 : ∃ (s : State) (a : ActId), (s.seq a).st = .running ∧ (s.seq a).faultAt = none :=
  ⟨(seq6 fun q => { q with st := .running }), 6, by decide +kernel⟩
theorem witness_SequencerCommands_5 : ∃ (s : State) (a : ActId) (why : ReadFor) (d : Descriptor), s.handsOver (portOf a) = false :=
  ⟨(seq6 fun q => { q with  }), 6, .host, job true, by decide +kernel⟩
theorem witness_SequencerCommands_6 : ∃ (s : State) (a : ActId) (d : Descriptor), (s.seq a).st = .running ∧ (s.seq a).op = some d ∧
  (s.seq a).faultAt = none :=
  ⟨(seq6 fun q => { q with st := .running, op := some (job false) }), 6, job false, by decide +kernel⟩
theorem witness_SequencerCommands_7 : ∃ (s : State) (a : ActId), (s.seq a).st = .halted ∧ (s.seq a).outOfService = false ∧
  (s.patch.bankOf s.patch.newest).redirect 0 = 0 :=
  ⟨(seq6 fun q => { q with st := .halted, fault := 1 }), 6, by decide +kernel⟩
theorem witness_SequencerCommands_8 : ∃ (s : State) (a : ActId), (s.seq a).st = .halted ∧ (s.seq a).switchPending = true ∧ 2 ≤
  s.patch.remaining :=
  ⟨(seq6 fun q => { q with st := .halted, switchPending := true }).modPatch fun p => { p with remaining := 2, switching := true, newest := true }, 6, by decide +kernel⟩
theorem witness_SequencerCommands_9 : ∃ (s : State) (a : ActId), (s.seq a).addr = 0 ∧ (s.seq a).op = none ∧ (s.seq a).gates = [] ∧ (s.seq
  a).switchPending = true ∧ s.patch.remaining = 1 :=
  ⟨(seq6 fun q => { q with st := .idle, switchPending := true }).modPatch fun p => { p with remaining := 1, switching := true, newest := true }, 6, by decide +kernel⟩
theorem witness_SequencerCommands_10 : ∃ (s : State) (p : PortId) (k : Packet), Received s p 0xE3 k ∧ field k.payload 0 1 = 0 ∧ field
  k.payload 1 1 = 2 ∧ field k.payload 2 1 = 3 :=
  ⟨port3 fun x => { x with rx := [answer 0x63 0 0 [0, 2, 3, 0, 9, 0, 0, 0]] }, 3, answer 0x63 0 0 [0, 2, 3, 0, 9, 0, 0, 0], by unfold Received; decide⟩
theorem witness_SequencerCommands_11 : ∃ (s : State) (p : PortId) (k : Packet), Received s p 0xE3 k ∧ field k.payload 0 1 = 1 ∧ field
  k.payload 1 1 = 1 ∧ field k.payload 2 1 = 2 ∧ (s.seq (actOf p 1)).faultAt = none :=
  ⟨port3 fun x => { x with rx := [answer 0x63 0 0 [1, 1, 2, 0, 9, 0, 0, 0]] }, 3, answer 0x63 0 0 [1, 1, 2, 0, 9, 0, 0, 0], by unfold Received; decide⟩
theorem witness_SequencerCommands_12 : ∃ (s : State) (a : ActId), (s.pool a).enc = 1 ∧ s.encoderFull a = true :=
  ⟨up.modPool 6 fun x => { x with enc := 1, sent := 131072 }, 6, by decide +kernel⟩
theorem witness_SequencerCommands_13 : ∃ (s : State) (a : ActId) (addr : Nat), (s.pool a).enc = 1 ∧ sramWithin .staging addr = true ∧
  (s.patch.bankOf (s.seq a).bank).redirect 0 = 0 :=
  ⟨(seq6 fun q => { q with st := .running, op := some (job true) }).modPool 6 fun x => { x with enc := 1 }, 6, 20 * mib, by decide +kernel⟩
theorem witness_ServicePacketCommands_1 : ∃ (s : State) (tag : Byte) (off : Nat) (n : Nat), s.svcUp = true ∧ s.svc.busy = none ∧ s.fwRuns
  = true ∧ n % 4 = 0 ∧ 4 ≤ n ∧ n ≤ 1024 ∧ off % 4 = 0 ∧ (s.xing.hung.any fun h => h.who == .service) = false ∧ ((covered off n).any fun o
  => (s.stopped o).isSome) = false ∧ s.xing.captured = [] ∧ n = 4 :=
  ⟨up, 9, 0x1014, 4, by decide +kernel⟩
theorem witness_ServicePacketCommands_2 : ∃ (s : State) (tag : Byte) (off : Nat) (n : Nat), s.svcUp = true ∧ s.svc.busy.isSome = true :=
  ⟨{ up with svc := { up.svc with busy := some 1 } }, 9, 0x1014, 4, by decide +kernel⟩
theorem witness_ServicePacketCommands_3 : ∃ (s : State) (tag : Byte) (off : Nat) (n : Nat), s.svcUp = true ∧ s.svc.busy = none ∧
  s.windowUp off n = false :=
  ⟨rom 5, 9, 0x3000, 4, by decide +kernel⟩
theorem witness_ServicePacketCommands_4 : ∃ (s : State) (tag : Byte) (off : Nat) (n : Nat), s.svcUp = true ∧ s.svc.busy = none ∧ s.fwRuns
  = true ∧ (n = 0 ∨ 1024 < n ∨ n % 4 ≠ 0) :=
  ⟨up, 9, 0x1014, 5, by decide +kernel⟩
theorem witness_ServicePacketCommands_5 : ∃ (s : State) (tag : Byte) (off : Nat) (v : W32), s.svcUp = true ∧ s.svc.busy = none ∧ s.fwRuns
  = true ∧ off % 4 = 0 ∧ (s.xing.hung.any fun h => h.who == .service) = false ∧ (s.stopped off).isSome = false :=
  ⟨up, 9, 0x1004, 1, by decide +kernel⟩
theorem witness_ServicePacketCommands_6 : ∃ (s : State) (tag : Byte) (id : Byte) (v : Nat), s.svcUp = true ∧ s.svc.busy = none ∧
  s.nor.config.get id.toNat = some v :=
  ⟨up, 9, 1, 4, by decide +kernel⟩
theorem witness_ServicePacketCommands_7 : ∃ (s : State) (tag : Byte) (id : Byte), s.svcUp = true ∧ s.svc.busy = none ∧ s.nor.config.get
  id.toNat = none :=
  ⟨up, 9, 8, by decide +kernel⟩
theorem witness_ServicePacketCommands_8 : ∃ (s : State) (tag : Byte) (id : Byte) (v : W64), s.svcUp = true ∧ s.svc.busy = none ∧
  s.configOk id.toNat v.toNat = true ∧ id.toNat ≠ 2 ∧ id.toNat ≠ 3 :=
  ⟨up, 9, 1, 32, by decide +kernel⟩
theorem witness_ServicePacketCommands_9 : ∃ (s : State) (tag : Byte) (id : Byte) (v : W64), s.svcUp = true ∧ s.svc.busy = none ∧
  s.configOk id.toNat v.toNat = false :=
  ⟨up, 9, 1, 33, by decide +kernel⟩
theorem witness_ServicePacketCommands_10 : ∃ (s : State) (tag : Byte), s.aon.hold = .running ∧ s.boot.released = true ∧ s.names.dumping =
  false ∧ (s.boot.cold = false ∨ s.aon.dramState ≠ 3) :=
  ⟨up, 9, by decide +kernel⟩
theorem witness_ServicePacketCommands_11 : ∃ (s : State) (tag : Byte) (off : Nat) (data : List Byte), s.svcUp = true ∧ s.svc.busy = none
  ∧ s.fwRuns = true ∧ 1 ≤ data.length ∧ data.length ≤ 4092 ∧ off + data.length ≤ downloadSize :=
  ⟨up, 9, 8, [1, 2], by decide +kernel⟩
theorem witness_ServicePacketCommands_12 : ∃ (s : State) (tag : Byte) (off : Nat) (data : List Byte), s.svcUp = true ∧ s.svc.busy = none
  ∧ s.fwRuns = true ∧ (data = [] ∨ 4092 < data.length ∨ downloadSize < off + data.length) :=
  ⟨up, 9, 8, [], by decide +kernel⟩
theorem witness_ServicePacketCommands_13 : ∃ (s : State) (tag : Byte) (off : Nat) (data : List Byte), s.svcUp = true ∧ s.svc.busy = none
  ∧ s.romWaits = true ∧ 1 ≤ data.length ∧ data.length ≤ 4092 ∧ off + data.length ≤ downloadSize :=
  ⟨(rom 7).modBoot fun b => { b with recoveryWait := true }, 9, 8, [1, 2], by decide +kernel⟩
theorem witness_ServicePacketCommands_14 : ∃ (s : State) (tag : Byte) (n : Nat), s.svcUp = true ∧ s.svc.busy = none ∧ s.romWaits = true ∧
  n ≤ downloadSize :=
  ⟨(rom 7).modBoot fun b => { b with recoveryWait := true }, 9, 64, by decide +kernel⟩
theorem witness_ServicePacketCommands_15 : ∃ (s : State) (tag : Byte) (e : SqEntry), s.svcUp = true ∧ s.svc.busy = none ∧ s.fwRuns = true
  ∧ adminAllowed e = true :=
  ⟨up, 9, entry 0xCC 0 0 0, by decide +kernel⟩
theorem witness_ServicePacketCommands_16 : ∃ (s : State) (tag : Byte) (e : SqEntry), s.svcUp = true ∧ s.svc.busy = none ∧ s.fwRuns = true
  ∧ adminAllowed e = false :=
  ⟨up, 9, entry 0x06 0 0 0, by decide +kernel⟩
theorem witness_ServicePacketCommands_17 : ∃ (s : State) (tag : Byte) (p : PortId) (ret : Bool) (force : Bool) (n : Nat) (d : Digest),
  s.svcUp = true ∧ s.svc.busy = none ∧ s.fwRuns = true ∧ s.owns p = true ∧ (s.port p).train = 9 ∧ (s.port p).obeyed = true ∧ 1 ≤ n ∧ n ≤
  downloadSize ∧ force = false ∧ s.atLimit p = true :=
  ⟨{ sled true with prot := { (sled true).prot with members := Vector.replicate 32 { disk with st := .absent }, groups := [lane] } }, 9, 3, false, false, 500, 5, by decide +kernel⟩
theorem witness_ServicePacketCommands_18 : ∃ (s : State) (tag : Byte) (p : PortId) (ret : Bool) (n : Nat) (d : Digest), s.svcUp = true ∧
  s.svc.busy = none ∧ s.fwRuns = true ∧ s.owns p = true ∧ (s.port p).train = 9 ∧ (s.port p).obeyed = true ∧ 1 ≤ n ∧ n ≤ downloadSize ∧
  ((fins 2).any fun y => (s.act (actOf p y)).loaded || (s.act (actOf p y)).loading || (s.seq (actOf p y)).op.isSome || (s.acal (actOf p
  y)).brk.isSome || (s.seq (actOf p y)).queue != []) = false ∧ s.ctxs = [] ∧ s.pair.mode = false ∧ s.power.leaving = false :=
  ⟨port3 fun x => { x with train := 9, obeyed := true, inService := true, cmdUp := true }, 9, 3, false, 500, 5, by decide +kernel⟩
theorem witness_ServicePacketCommands_19 : ∃ (s : State) (tag : Byte) (p : PortId) (ret : Bool) (force : Bool) (n : Nat) (d : Digest),
  s.svcUp = true ∧ s.svc.busy = none ∧ s.fwRuns = true ∧ (s.owns p = false ∨ (s.port p).train ≠ 9) :=
  ⟨up, 9, 3, false, false, 500, 5, by decide +kernel⟩
theorem witness_ServicePacketCommands_20 : ∃ (s : State) (p : PortId) (r : Request) (k : Packet) (q : CompFw), Answered s p 0x40 r k ∧
  s.svc.comp = some q ∧ q.port = p ∧ q.phase = 1 ∧ k.status = 0 ∧ q.length ≤ q.offset ∧ (s.port p).requests = [r] ∧ (s.port p).cmdUp =
  true :=
  ⟨{ (port3 fun x => { x with cmdUp := true, requests := [asked 0x40 1 1 []], rx := [answer 0x40 1 0 []] }) with svc := { up.svc with busy := some 9, comp := some { port := 3, tag := 9, ret := false, length := 500, digest := 5, offset := 500, phase := 1, old := 0, unloadAt := some 0 } } }, 3, asked 0x40 1 1 [], answer 0x40 1 0 [], { port := 3, tag := 9, ret := false, length := 500, digest := 5, offset := 500, phase := 1, old := 0, unloadAt := some 0 }, ⟨by unfold Answered Received; decide +kernel, by decide +kernel⟩⟩
theorem witness_ServicePacketCommands_21 : ∃ (s : State) (p : PortId) (r : Request) (k : Packet) (q : CompFw), Answered s p 0x40 r k ∧
  s.svc.comp = some q ∧ q.port = p ∧ q.phase = 1 ∧ k.status ≠ 0 ∧ q.ret = false ∧ s.ctxs = [] ∧ s.pair.mode = false ∧ s.power.leaving =
  false :=
  ⟨{ (port3 fun x => { x with cmdUp := true, requests := [asked 0x40 1 1 []], rx := [answer 0x40 1 7 []] }) with svc := { up.svc with busy := some 9, comp := some { port := 3, tag := 9, ret := false, length := 500, digest := 5, offset := 500, phase := 1, old := 0, unloadAt := some 0 } } }, 3, asked 0x40 1 1 [], answer 0x40 1 7 [], { port := 3, tag := 9, ret := false, length := 500, digest := 5, offset := 500, phase := 1, old := 0, unloadAt := some 0 }, ⟨by unfold Answered Received; decide +kernel, by decide +kernel⟩⟩
theorem witness_ServicePacketCommands_22 : ∃ (s : State) (p : PortId) (r : Request) (k : Packet) (q : CompFw), Answered s p 0x41 r k ∧
  k.status ≠ 3 ∧ s.svc.comp = some q ∧ q.port = p ∧ q.phase = 2 ∧ (s.port p).requests = [r] ∧ (s.port p).cmdUp = true :=
  ⟨{ (port3 fun x => { x with cmdUp := true, requests := [asked 0x41 1 1 []], rx := [answer 0x41 1 0 []] }) with svc := { up.svc with busy := some 9, comp := some { port := 3, tag := 9, ret := false, length := 500, digest := 5, offset := 500, phase := 2, old := 0, unloadAt := some 0 } } }, 3, asked 0x41 1 1 [], answer 0x41 1 0 [], { port := 3, tag := 9, ret := false, length := 500, digest := 5, offset := 500, phase := 2, old := 0, unloadAt := some 0 }, ⟨by unfold Answered Received; decide +kernel, by decide +kernel⟩⟩
theorem witness_ServicePacketCommands_23 : ∃ (s : State) (p : PortId) (r : Request) (k : Packet), Answered s p 0x41 r k ∧ k.status = 3 ∧
  (s.port p).obeyed = true :=
  ⟨port3 fun x => { x with obeyed := true, cmdUp := true, requests := [asked 0x41 1 1 []], rx := [answer 0x41 1 3 []] }, 3, asked 0x41 1 1 [], answer 0x41 1 3 [], by unfold Answered Received; decide +kernel⟩
theorem witness_ServicePacketCommands_24 : ∃ (s : State) (q : CompFw) (n : Nat), s.svc.comp = some q ∧ q.unloadAt = some n ∧ q.phase ≠ 3
  ∧ q.ret = false ∧ s.ctxs = [] ∧ s.pair.mode = false ∧ s.power.leaving = false :=
  ⟨{ up with svc := { up.svc with busy := some 9, comp := some { port := 3, tag := 9, ret := false, length := 500, digest := 5, offset := 0, phase := 1, old := 0, unloadAt := some 0 } } }, { port := 3, tag := 9, ret := false, length := 500, digest := 5, offset := 0, phase := 1, old := 0, unloadAt := some 0 }, 0, by decide +kernel⟩
theorem witness_ServicePacketCommands_25 : ∃ (s : State) (p : PortId) (r : Request) (k : Packet) (q : CompFw), Answered s p 0x40 r k ∧
  s.svc.comp = some q ∧ q.port = p ∧ q.phase = 1 ∧ k.status = 0 ∧ q.offset < q.length ∧ q.length ≤ q.offset + 220 ∧ (s.port p).requests =
  [r] ∧ (s.port p).cmdUp = true :=
  ⟨{ (port3 fun x => { x with cmdUp := true, requests := [asked 0x40 1 1 []], rx := [answer 0x40 1 0 []] }) with svc := { up.svc with busy := some 9, comp := some { port := 3, tag := 9, ret := false, length := 500, digest := 5, offset := 300, phase := 1, old := 0, unloadAt := some 0 } } }, 3, asked 0x40 1 1 [], answer 0x40 1 0 [], { port := 3, tag := 9, ret := false, length := 500, digest := 5, offset := 300, phase := 1, old := 0, unloadAt := some 0 }, ⟨by unfold Answered Received; decide +kernel, by decide +kernel⟩⟩
theorem witness_ServiceControlCommands_1 : ∃ (s : State), s.svcUp = true :=
  ⟨up, by decide +kernel⟩
theorem witness_ServiceControlCommands_2 : ∃ (s : State), s.svcUp = true :=
  ⟨up, by decide +kernel⟩
theorem witness_ServiceControlCommands_3 : ∃ (s : State) (n : Byte), s.svcUp = true ∧ n ≠ 0 ∧ n ≠ 0xFF :=
  ⟨up, 8, by decide +kernel⟩
theorem witness_ServiceControlCommands_4 : ∃ (s : State) (n : Byte), s.svcUp = true ∧ (n = 0 ∨ n = 0xFF) :=
  ⟨up, 0, by decide +kernel⟩
theorem witness_ServiceControlCommands_5 : ∃ (s : State), s.svcUp = true :=
  ⟨up, by decide +kernel⟩
theorem witness_ServiceControlCommands_6 : ∃ (s : State), s.svcUp = true :=
  ⟨up, by decide +kernel⟩
theorem witness_ServiceControlCommands_7 : ∃ (s : State), s.svcUp = true :=
  ⟨up, by decide +kernel⟩
theorem witness_ServiceControlCommands_8 : ∃ (s : State), s.svcUp = true :=
  ⟨up, by decide +kernel⟩
theorem witness_ServiceControlCommands_9 : ∃ (s : State), s.svcUp = true :=
  ⟨up, by decide +kernel⟩
theorem witness_ServiceControlCommands_10 : ∃ (s : State) (n : Nat), s.svcUp = true ∧ 35 ≤ n :=
  ⟨up, 35, by decide +kernel⟩
theorem witness_ServiceControlCommands_11 : ∃ (s : State) (n : Nat), s.svcUp = true ∧ n < 25 :=
  ⟨up, 24, by decide +kernel⟩
theorem witness_PowerCommands_1 : ∃ (s : State), s.boot.complete = true ∧ s.govPs = 3 ∧ s.power.entering = false ∧ s.power.inPs3 = false
  ∧ 0 < s.dirtyBytes ∧ s.ctxs = [] :=
  ⟨({ up with names := { up.names with buffer := [dirty 3] } }.modFn .a fun y => { y with ps := 3 }).modFn .b fun y => { y with ps := 3 }, by decide +kernel⟩
theorem witness_PowerCommands_2 : ∃ (s : State), s.boot.complete = true ∧ s.govPs = 3 ∧ s.power.entering = false ∧ s.power.inPs3 = false
  ∧ s.dirtyBytes = 0 ∧ s.ctxs = [] ∧ s.names.buffer = [] :=
  ⟨(up.modFn .a fun y => { y with ps := 3 }).modFn .b fun y => { y with ps := 3 }, by decide +kernel⟩
theorem witness_PowerCommands_3 : ∃ (s : State) (p : PortId), s.power.inPs3 = true ∧ (s.port p).train = 9 ∧ (s.spin p).st = .stopped ∧
  (s.spin p).turning = false ∧ ((fins 2).all fun y => !(s.act (actOf p y)).loaded) = true :=
  ⟨{ (port3 fun x => { x with train := 9 }) with power := { up.power with inPs3 := true } }, 3, by decide +kernel⟩
theorem witness_PowerCommands_4 : ∃ (s : State), s.govPs ≠ 3 ∧ s.power.inPs3 = true :=
  ⟨{ ((hostFn id id).modFn .a fun y => { y with ps := 0 }) with power := { up.power with inPs3 := true, current := 3 } }, by decide +kernel⟩
theorem witness_PowerCommands_5 : ∃ (s : State), s.govPs ≠ 3 ∧ s.power.inPs3 = false ∧ s.power.entering = true :=
  ⟨{ ((hostFn id id).modFn .a fun y => { y with ps := 0 }) with power := { up.power with entering := true } }, by decide +kernel⟩
theorem witness_PowerCommands_6 : ∃ (s : State), s.power.inPs3 = true ∧ s.mem.selfRefresh = false ∧ s.dramIdle = true :=
  ⟨{ up with power := { up.power with inPs3 := true } }, by decide +kernel⟩
theorem witness_PowerCommands_7 : ∃ (s : State), s.power.inPs3 = true ∧ s.mem.selfRefresh = true :=
  ⟨{ up.modMem (fun m => { m with selfRefresh := true }) with power := { up.power with inPs3 := true } }, by decide +kernel⟩
theorem witness_PowerCommands_8 : ∃ (s : State), s.govPs ≠ 3 ∧ s.power.inPs3 = false :=
  ⟨(hostFn id id).modFn .a fun y => { y with ps := 1 }, by decide +kernel⟩
theorem witness_ServoCommands_1 : ∃ (s : State) (a : ActId) (tb : ServoTable) (fm : FormatTable) (w : Wedge), (s.pcal (portOf a)).servo =
  some tb ∧ (s.pcal (portOf a)).format = some fm ∧ (s.act a).sample = some w ∧ s.firstWaiting = some a ∧ (s.act a).fresh = true ∧ (s.act
  a).region = .parked :=
  ⟨act6 fun x => { x with sample := some { time := 9, wedge := 4, pos := 4096, order := 0 }, fresh := true }, 6, servo, format, { time := 9, wedge := 4, pos := 4096, order := 0 }, by decide +kernel⟩
theorem witness_ServoCommands_2 : ∃ (s : State) (a : ActId) (tb : ServoTable) (fm : FormatTable) (w : Wedge), (s.pcal (portOf a)).servo =
  some tb ∧ (s.pcal (portOf a)).format = some fm ∧ (s.act a).sample = some w ∧ s.firstWaiting = some a ∧ (s.act a).fresh = false ∧ (s.act
  a).region = .follow ∧ (s.act a).newTarget = none :=
  ⟨act6 fun x => { x with sample := some { time := 9, wedge := 4, pos := 0, order := 0 }, fresh := false, region := .follow, loaded := true, target := 400 }, 6, servo, format, { time := 9, wedge := 4, pos := 0, order := 0 }, by decide +kernel⟩
theorem witness_ServoCommands_3 : ∃ (s : State) (a : ActId) (b : ActId) (w : Wedge), (s.act a).sample = some w ∧ s.firstWaiting = some b
  :=
  ⟨((act6 fun x => { x with sample := some { time := 9, wedge := 4, pos := 0, order := 1 } }).modAct 7 fun x => { x with sample := some { time := 8, wedge := 4, pos := 0, order := 0 } }), 6, 7, { time := 9, wedge := 4, pos := 0, order := 1 }, by decide +kernel⟩
theorem witness_ServoCommands_5 : ∃ (s : State) (a : ActId) (tb : ServoTable), (s.pcal (portOf a)).servo = some tb ∧ (s.act a).region =
  .seek ∧ (s.act a).timeouts = 0 :=
  ⟨act6 fun x => { x with region := .seek, loaded := true }, 6, servo, by decide +kernel⟩
theorem witness_ServoCommands_6 : ∃ (s : State) (a : ActId) (tb : ServoTable), (s.pcal (portOf a)).servo = some tb ∧ (s.act a).region =
  .seek ∧ (s.act a).timeouts = 2 :=
  ⟨act6 fun x => { x with region := .seek, loaded := true, timeouts := 2 }, 6, servo, by decide +kernel⟩
theorem witness_ServoCommands_7 : ∃ (s : State) (a : ActId) (tb : ServoTable), (s.pcal (portOf a)).servo = some tb ∧ (s.act a).region =
  .settle ∧ (s.act a).timeouts = 1 :=
  ⟨act6 fun x => { x with region := .settle, loaded := true, timeouts := 1 }, 6, servo, by decide +kernel⟩
theorem witness_ServoCommands_8 : ∃ (s : State) (p : PortId) (r : Request) (k : Packet), Answered s p 0x13 r k ∧ field r.packet.payload 0
  1 = 0 ∧ field r.packet.payload 1 1 = 0 ∧ k.status = 0 :=
  ⟨(act6 fun x => { x with loaded := true }).modPort 3 fun x => { x with requests := [asked 0x13 1 1 [0, 0, 0, 0]], rx := [answer 0x13 1 0 []] }, 3, asked 0x13 1 1 [0, 0, 0, 0], answer 0x13 1 0 [], by unfold Answered Received; decide⟩
theorem witness_ServoCommands_9 : ∃ (s : State) (p : PortId) (r : Request) (k : Packet), Answered s p 0x13 r k ∧ field r.packet.payload 0
  1 = 0 ∧ field r.packet.payload 1 1 = 1 ∧ k.status = 0 ∧ (s.act (actOf p 0)).loading = true :=
  ⟨(act6 fun x => { x with loading := true }).modPort 3 fun x => { x with requests := [asked 0x13 1 1 [0, 1, 0, 0]], rx := [answer 0x13 1 0 []] }, 3, asked 0x13 1 1 [0, 1, 0, 0], answer 0x13 1 0 [], by unfold Answered Received; decide⟩
theorem witness_ServoCommands_10 : ∃ (s : State) (p : PortId) (r : Request) (k : Packet), Answered s p 0x13 r k ∧ field r.packet.payload
  0 1 = 0 ∧ field r.packet.payload 1 1 = 1 ∧ k.status = 1 :=
  ⟨port3 fun x => { x with requests := [asked 0x13 1 1 [0, 1]], rx := [answer 0x13 1 1 []] }, 3, asked 0x13 1 1 [0, 1], answer 0x13 1 1 [], by unfold Answered Received; decide⟩
theorem witness_ServoCommands_11 : ∃ (s : State) (p : PortId) (sd : Side) (r : Request) (n : Nat), ((s.port p).requests.find? fun q =>
  q.packet.opcode.toNat == 0x13 && q.busyAt.isSome && field q.packet.payload 0 1 == sd.val) = some r ∧ r.busyAt = some n :=
  ⟨port3 fun x => { x with requests := [{ asked 0x13 1 1 [] with busyAt := some 7 }] }, 3, 0, { asked 0x13 1 1 [] with busyAt := some 7 }, 7, by decide +kernel⟩
theorem witness_ServoCommands_12 : ∃ (s : State) (a : ActId), (s.act a).reloadLost = true ∧ (s.act a).loaded = false ∧ (s.act
  a).outOfService = false ∧ s.mayLoad (portOf a) = true :=
  ⟨((act6 fun x => { x with reloadLost := true }).modPort 3 fun x => { x with train := 9, obeyed := true, persVerified := true, removed := false }).modSpin 3 fun v => { v with table := some table, st := .atSpeed, levelCmd := 640, levelRun := 640, target := 7200 }, 6, by decide +kernel⟩
theorem witness_ServoCommands_13 : ∃ (s : State) (p : PortId) (bytes : List Byte) (demod : ServoReading) (raw : List Byte), s.laneLive p
  = true ∧ s.overdue p = s ∧ fecDecode (laneBytes (laneLevels bytes)) = some (raw, 0) ∧ field raw 0 4 ≠ 0xF0000000 ∧ field (scramble
  (s.port p).scram raw).1 0 4 / 2 ^ 28 = 3 :=
  ⟨port3 fun x => { x with clock := true, joint := false, scram := 0 }, 3, fecEncode (leBytes 4 0x30000000), { sync := false, time := 0, track := 0, wedge := 0, amp0 := 0, amp1 := 0, frac0 := 0, frac1 := 0 }, fecEncode (leBytes 4 0x30000000), by decide +kernel⟩
theorem witness_ServoCommands_14 : ∃ (s : State) (p : PortId) (bytes : List Byte) (demod : ServoReading), s.laneLive p = true ∧ s.overdue
  p = s ∧ fecDecode (laneBytes (laneLevels bytes)) = none ∧ recent s.now Config.sec (s.port p).smpBadAt = [] ∧ recent s.now Config.sec
  (s.port p).cmdBadAt = [] :=
  ⟨port3 fun x => { x with clock := true, joint := false }, 3, [1, 2, 3, 4, 5, 6, 7, 8, 9, 10, 11, 12, 13, 14, 15, 16, 17, 18, 19, 20, 21, 22], { sync := false, time := 0, track := 0, wedge := 0, amp0 := 0, amp1 := 0, frac0 := 0, frac1 := 0 }, by decide +kernel⟩
theorem witness_ServoCommands_15 : ∃ (s : State) (p : PortId) (bytes : List Byte) (demod : ServoReading), s.laneLive p = true ∧ s.overdue
  p = s :=
  ⟨port3 fun x => { x with clock := true, joint := false }, 3, [], { sync := false, time := 0, track := 0, wedge := 0, amp0 := 0, amp1 := 0, frac0 := 0, frac1 := 0 }, by decide +kernel⟩
theorem witness_ServoCommands_16 : ∃ (s : State) (p : PortId) (r : Request) (k : Packet), Answered s p 0x13 r k ∧ field r.packet.payload
  0 1 = 0 ∧ field r.packet.payload 1 1 = 1 ∧ k.status = 3 ∧ (s.port p).obeyed = true :=
  ⟨port3 fun x => { x with requests := [asked 0x13 1 1 [0, 1]], rx := [answer 0x13 1 3 []], obeyed := true }, 3, asked 0x13 1 1 [0, 1], answer 0x13 1 3 [], by unfold Answered Received; decide⟩
theorem witness_SpindleCommands_1 : ∃ (s : State) (p : PortId) (tb : SpinTable) (n : Nat), (s.spin p).table = some tb ∧ (s.spin p).st =
  .listen ∧ (s.spin p).slotAt = some n ∧ (s.spin p).heard < 3 :=
  ⟨spin3 fun v => { v with st := .listen, slotAt := some 7 }, 3, table, 7, by decide +kernel⟩
theorem witness_SpindleCommands_2 : ∃ (s : State) (p : PortId) (tb : SpinTable), (s.spin p).table = some tb ∧ (s.spin p).st =
  .brakeToStop ∧ (s.spin p).restBrake = false :=
  ⟨spin3 fun v => { v with st := .brakeToStop, restBrake := false }, 3, table, by decide +kernel⟩
theorem witness_SpindleCommands_3 : ∃ (s : State) (p : PortId) (tb : SpinTable), (s.spin p).table = some tb ∧ (s.spin p).st =
  .brakeToStop ∧ (s.spin p).restBrake = true :=
  ⟨spin3 fun v => { v with st := .brakeToStop, restBrake := true }, 3, table, by decide +kernel⟩
theorem witness_SpindleCommands_4 : ∃ (s : State) (p : PortId) (tb : SpinTable), (s.spin p).table = some tb ∧ (s.spin p).st = .alignment
  :=
  ⟨spin3 fun v => { v with st := .alignment }, 3, table, by decide +kernel⟩
theorem witness_SpindleCommands_5 : ∃ (s : State) (p : PortId) (tb : SpinTable) (r : Request) (k : Packet), (s.spin p).table = some tb ∧
  Answered s p 0x21 r k ∧ (s.spin p).st = .satTest ∧ k.status = 0 ∧ field k.payload 0 2 ≠ 0xFFFF ∧ field k.payload 2 2 ≠ 0xFFFF ∧ (s.spin
  p).sense.length < 5 :=
  ⟨(spin3 fun v => { v with st := .satTest }).modPort 3 fun x => { x with requests := [asked 0x21 1 1 []], rx := [answer 0x21 1 0 [7, 0, 9, 0]] }, 3, table, asked 0x21 1 1 [], answer 0x21 1 0 [7, 0, 9, 0], by unfold Answered Received; decide⟩
theorem witness_SpindleCommands_6 : ∃ (s : State) (p : PortId) (r : Request) (n : Nat), ((s.port p).requests.find? fun q =>
  q.packet.opcode.toNat == 0x21 && q.busyAt.isSome && true) = some r ∧ r.busyAt = some n :=
  ⟨port3 fun x => { x with requests := [{ asked 0x21 1 1 [] with busyAt := some 7 }] }, 3, { asked 0x21 1 1 [] with busyAt := some 7 }, 7, by decide +kernel⟩
theorem witness_SpindleCommands_7 : ∃ (s : State) (p : PortId) (tb : SpinTable) (k : Fin 6), (s.spin p).table = some tb ∧ (s.spin p).st =
  .forced ∧ (s.spin p).step = some k ∧ (s.spin p).forcedOk < 6 ∧ rateReached tb ((s.at_ ((s.spin p).forcedAt + forcedEnd tb ((s.spin
  p).forcedN + 1))).now - (s.spin p).forcedAt) (2 * tb.handoverRpm) = false :=
  ⟨(spin3 fun v => { v with st := .forced, step := some 5 }).modSpin 3 fun v => { v with table := some slow }, 3, slow, 5, by decide +kernel⟩
theorem witness_SpindleCommands_8 : ∃ (s : State) (p : PortId) (tb : SpinTable) (k : Fin 6), (s.spin p).table = some tb ∧ (s.spin p).st =
  .forced ∧ (s.spin p).step = some k ∧ (s.spin p).forcedOk < 6 ∧ rateReached tb (s.now - (s.spin p).forcedAt) (2 * tb.handoverRpm) = true
  ∧ (s.spin p).forcedFails = 0 :=
  ⟨(spin3 fun v => { v with st := .forced, step := some 5 }).at_ (2 * Config.sec), 3, table, 5, by decide +kernel⟩
theorem witness_SpindleCommands_9 : ∃ (s : State) (p : PortId) (tb : SpinTable) (k : Packet), (s.spin p).table = some tb ∧ Received s p
  0xE1 k ∧ (s.spin p).st = .listen ∧ (s.spin p).zcs = [] :=
  ⟨(spin3 fun v => { v with st := .listen }).modPort 3 fun x => { x with rx := [answer 0x61 0 0 [1, 1, 0, 0, 0, 0, 0, 0]] }, 3, table, answer 0x61 0 0 [1, 1, 0, 0, 0, 0, 0, 0], by unfold Received; decide⟩
theorem witness_SpindleCommands_10 : ∃ (s : State) (p : PortId) (tb : SpinTable) (k : Packet), (s.spin p).table = some tb ∧ Received s p
  0xE1 k ∧ (s.spin p).st = .atSpeed ∧ (s.spin p).step = some (crossingStep (field k.payload 0 1) (field k.payload 1 1 == 1)) ∧
  crossingStep (field k.payload 0 1) (field k.payload 1 1 == 1) ≠ 5 :=
  ⟨(spin3 fun v => { v with st := .atSpeed, step := some 1 }).modPort 3 fun x => { x with rx := [answer 0x61 0 0 [1, 1, 0, 0, 0, 0, 0, 0]] }, 3, table, answer 0x61 0 0 [1, 1, 0, 0, 0, 0, 0, 0], by unfold Received; decide⟩
theorem witness_SpindleCommands_11 : ∃ (s : State) (p : PortId) (tb : SpinTable) (k : Fin 6) (z : Zc) (l : List Zc), (s.spin p).table =
  some tb ∧ (s.spin p).st = .atSpeed ∧ (s.spin p).step = some k ∧ (s.spin p).zcs = z :: l ∧ (s.spin p).te ≠ 0 ∧ (s.spin p).missed < 5 :=
  ⟨spin3 fun v => { v with st := .atSpeed, step := some 1, zcs := [{ at_ := 9, step := 0 }], te := 600 }, 3, table, 1, { at_ := 9, step := 0 }, [], by decide +kernel⟩
theorem witness_SpindleCommands_12 : ∃ (s : State) (p : PortId) (tb : SpinTable) (k : Fin 6) (z : Zc) (l : List Zc) (n : Nat), (s.spin
  p).table = some tb ∧ (s.spin p).st = .closedLoop ∧ (s.spin p).step = some k ∧ (s.spin p).zcs = z :: l ∧ (s.spin p).te ≠ 0 ∧ (s.spin
  p).missed = 5 ∧ (s.spin p).unloading = false ∧ (s.spin p).slotAt = some n ∧ (s.spin p).syncLosses < 2 :=
  ⟨spin3 fun v => { v with st := .closedLoop, step := some 1, zcs := [{ at_ := 9, step := 0 }], te := 600, missed := 5, slotAt := some 7 }, 3, table, 1, { at_ := 9, step := 0 }, [], 7, by decide +kernel⟩
theorem witness_SpindleCommands_13 : ∃ (s : State) (p : PortId), (s.spin p).drive.mode ≠ 0 :=
  ⟨spin3 fun v => { v with drive := { v.drive with mode := 2 } }, 3, by decide +kernel⟩
theorem witness_SpindleCommands_14 : ∃ (s : State) (p : PortId), (s.spin p).st = .outOfReg :=
  ⟨spin3 fun v => { v with st := .outOfReg }, 3, by decide +kernel⟩
theorem witness_SpindleCommands_15 : ∃ (s : State) (p : PortId), (s.spin p).st = .regenDown ∧ (s.spin p).ovLatched = false ∧ (s.spin
  p).unloading = false ∧ (s.spin p).above 600 = false :=
  ⟨spin3 fun v => { v with st := .regenDown }, 3, by decide +kernel⟩
theorem witness_SpindleCommands_16 : ∃ (s : State) (p : PortId), (s.spin p).st = .atSpeed ∧ (s.spin p).ovLatched = false ∧ (s.spin
  p).unloading = false ∧ (s.spin p).levelCmd < 48 :=
  ⟨(spin3 fun v => { v with st := .atSpeed }).modPort 3 fun x => { x with inService := true, train := 9 }, 3, by decide +kernel⟩
theorem witness_SpindleCommands_17 : ∃ (s : State) (p : PortId) (k : Packet), Received s p 0xE2 k ∧ field k.payload 2 2 % 4 = 3 ∧ (s.spin
  p).ovLatched = false ∧ (s.port p).obeyed = true :=
  ⟨port3 fun x => { x with obeyed := true, rx := [answer 0x62 0 0 [0, 64, 3, 0]] }, 3, answer 0x62 0 0 [0, 64, 3, 0], by unfold Received; decide⟩
theorem witness_SpindleCommands_18 : ∃ (s : State) (p : PortId), s.starting < s.boot.spinGroup ∧ ((fins 32).find? fun p => s.mayStart p)
  = some p :=
  ⟨(spin3 fun v => { v with wantSlot := true, levelCmd := 640 }).modPort 3 fun x => { x with train := 9, obeyed := true, persVerified := true }, 3, by decide +kernel⟩
theorem witness_ThermalCommands_1 : ∃ (s : State) (i : Fin 16) (n : W32) (v : Int), s.aon.hold = .running ∧ (s.therm.sensors[i]).broken =
  false ∧ countBad v (if (s.therm.sensors[i]).last ≠ [] ∧ n = (s.therm.sensors[i]).count then (s.therm.sensors[i]).same + 1 else 1) =
  false :=
  ⟨up, 2, 9, 700, by decide +kernel⟩
theorem witness_ThermalCommands_2 : ∃ (s : State) (i : Fin 16) (n : W32) (v : Int), s.aon.hold = .running ∧ (s.therm.sensors[i]).broken =
  false ∧ countBad v (if (s.therm.sensors[i]).last ≠ [] ∧ n = (s.therm.sensors[i]).count then (s.therm.sensors[i]).same + 1 else 1) =
  true :=
  ⟨up, 2, 9, 2561, by decide +kernel⟩
theorem witness_ThermalCommands_3 : ∃ (s : State) (i : Fin 16) (n : W32) (v : Int) (w : Int), s.aon.hold = .running ∧
  (s.therm.sensors[i]).broken = false ∧ (s.therm.sensors[i]).excluded = false ∧ s.therm.tripped = false ∧ (s.therm.sensors[i]).last.head?
  = some w ∧ 2240 ≤ w ∧ 2240 ≤ v ∧ countBad v (if (s.therm.sensors[i]).last ≠ [] ∧ n = (s.therm.sensors[i]).count then
  (s.therm.sensors[i]).same + 1 else 1) = false :=
  ⟨up.modTherm fun t => { t with sensors := upd t.sensors 2 fun x => { x with last := [2300] } }, 2, 9, 2240, 2300, by decide +kernel⟩
theorem witness_ThermalCommands_4 : ∃ (s : State) (i : Fin 16) (a : Nat), (s.therm.sensors[i]).raisedAt = some a ∧ 128 <
  (s.therm.sensors[i]).rise :=
  ⟨up.modTherm fun t => { t with sensors := upd t.sensors 2 fun x => { x with raisedAt := some 0, hist := [(Config.sec, 700), (0, 100)] } }, 2, 0, by decide +kernel⟩
theorem witness_ThermalCommands_5 : ∃ (s : State) (g : Nat), s.therm.graceAt = some g ∧ s.therm.request = true :=
  ⟨up.modTherm fun t => { t with graceAt := some 7, request := true, step := 1 }, 7, by decide +kernel⟩
theorem witness_ThermalCommands_6 : ∃ (s : State) (g : Nat), s.therm.graceAt = some g ∧ s.therm.request = false :=
  ⟨up.modTherm fun t => { t with graceAt := some 7, step := 1 }, 7, by decide +kernel⟩
theorem witness_ThermalCommands_7 : ∃ (s : State) (g : Nat), s.therm.coolSince = some g ∧ s.therm.step ≠ 0 ∧ s.therm.cools = true :=
  ⟨up.modTherm fun t => { t with coolSince := some 7, step := 3 }, 7, by decide +kernel⟩
theorem witness_ThermalCommands_8 : ∃ (s : State) (g : Nat), s.therm.below100 = some g ∧ s.aon.hold = .shutdown ∧ s.therm.noRestart =
  false ∧ s.pins.sysPwrok = true :=
  ⟨((up.modTherm fun t => { t with below100 := some 7, tripped := true }).modAon fun a => { a with hold := .shutdown }).modPins fun p => { p with sysPwrok := true }, 7, by decide +kernel⟩
theorem witness_ThermalCommands_9 : ∃ (s : State), s.therm.noRestart = true :=
  ⟨up.modTherm fun t => { t with noRestart := true, tripped := true }, by decide +kernel⟩
theorem witness_ThermalCommands_10 : ∃ (s : State) (i : TrimItem) (band : Bool), (band = false ∨ isPll i = false) ∧ (s.therm.trims.find?
  fun q => q.1 == i) = none :=
  ⟨up, .coreAndDramPll, false, by decide +kernel⟩
theorem witness_ThermalCommands_11 : ∃ (s : State) (c : Nat) (x : Ctx), AtHand s c (isAction 0xCC 0) x ∧ firstBad (tcReserved x.entry) =
  none :=
  ⟨hosting (ctx 0 (entry 0xCC 0 0 0)) (up), 7, ctx 0 (entry 0xCC 0 0 0), ⟨by exact ⟨by decide, by decide, by decide, .a, rfl⟩, by decide +kernel⟩⟩
theorem witness_ThermalCommands_12 : ∃ (s : State) (c : Nat) (x : Ctx), AtHand s c (isAction 0xCC 1) x ∧ firstBad (tcReserved x.entry) =
  none ∧ (s.therm.sensors[(Fin.ofNat 16 (bits x.entry.cdw10 11 8) : Fin 16)]).broken = false ∧ (s.therm.sensors[(Fin.ofNat 16 (bits
  x.entry.cdw10 11 8) : Fin 16)]).excluded = false :=
  ⟨hosting (ctx 0 (entry 0xCC 0x301 0 0)) (up), 7, ctx 0 (entry 0xCC 0x301 0 0), ⟨by exact ⟨by decide, by decide, by decide, .a, rfl⟩, by decide +kernel⟩⟩
theorem witness_ThermalCommands_13 : ∃ (s : State) (c : Nat) (x : Ctx), AtHand s c (isAction 0xCC 1) x ∧ firstBad (tcReserved x.entry) =
  none ∧ (s.therm.sensors[(Fin.ofNat 16 (bits x.entry.cdw10 11 8) : Fin 16)]).broken = true ∧ (s.therm.sensors.toList.filter fun y =>
  y.excluded).length < 2 :=
  ⟨hosting (ctx 0 (entry 0xCC 0x201 0 0)) (up.modTherm fun t => { t with sensors := upd t.sensors 2 fun x => { x with broken := true } }), 7, ctx 0 (entry 0xCC 0x201 0 0), ⟨by exact ⟨by decide, by decide, by decide, .a, rfl⟩, by decide +kernel⟩⟩
theorem witness_ThermalCommands_14 : ∃ (s : State) (c : Nat) (x : Ctx), AtHand s c (isAction 0xCC 2) x ∧ firstBad (tcReserved x.entry) =
  none ∧ 40 ≤ bits x.entry.cdw11 7 0 ∧ bits x.entry.cdw11 7 0 ≤ 70 ∧ 45 ≤ bits x.entry.cdw11 15 8 ∧ bits x.entry.cdw11 15 8 ≤ 75 ∧ bits
  x.entry.cdw11 7 0 < bits x.entry.cdw11 15 8 :=
  ⟨hosting (ctx 0 (entry 0xCC 2 0x4B46 0)) (up), 7, ctx 0 (entry 0xCC 2 0x4B46 0), ⟨by exact ⟨by decide, by decide, by decide, .a, rfl⟩, by decide +kernel⟩⟩
theorem witness_ThermalCommands_15 : ∃ (s : State) (c : Nat) (x : Ctx), AtHand s c (isAction 0xCC 2) x ∧ firstBad (tcReserved x.entry) =
  none ∧ 40 ≤ bits x.entry.cdw11 7 0 ∧ bits x.entry.cdw11 7 0 ≤ 70 ∧ bits x.entry.cdw11 15 8 ≤ bits x.entry.cdw11 7 0 :=
  ⟨hosting (ctx 0 (entry 0xCC 2 0x3C3C 0)) (up), 7, ctx 0 (entry 0xCC 2 0x3C3C 0), ⟨by exact ⟨by decide, by decide, by decide, .a, rfl⟩, by decide +kernel⟩⟩
theorem witness_ThermalCommands_16 : ∃ (s : State) (i : TrimItem) (band : Bool) (q : TrimItem × Nat), (band = false ∨ isPll i = false) ∧
  (s.therm.trims.find? fun q => q.1 == i) = some q :=
  ⟨up.modTherm fun t => { t with trims := [(.coreAndDramPll, 7)] }, .coreAndDramPll, false, (.coreAndDramPll, 7), by decide +kernel⟩
theorem witness_ThermalCommands_17 : ∃ (s : State) (i : TrimItem), isPll i = true :=
  ⟨up, .serdesPlls, by decide +kernel⟩
theorem witness_ThermalCommands_18 : ∃ (s : State) (c : Nat) (x : Ctx), AtHand s c (isAction 0xCC 1) x ∧ firstBad (tcReserved x.entry) =
  none ∧ (s.therm.sensors[(Fin.ofNat 16 (bits x.entry.cdw10 11 8) : Fin 16)]).excluded = false ∧ 2 ≤ (s.therm.sensors.toList.filter fun y
  => y.excluded).length :=
  ⟨hosting (ctx 0 (entry 0xCC (1 + 4 * 256) (0) (0))) (up.modTherm fun t => { t with sensors := upd (upd t.sensors 2 fun y => { y with excluded := true }) 3 fun y => { y with excluded := true } }), 7, (ctx 0 (entry 0xCC (1 + 4 * 256) (0) (0))), ⟨by exact ⟨by decide, by decide, by decide, .a, rfl⟩, by decide +kernel⟩⟩
theorem witness_ThermalCommands_19 : ∃ (s : State) (g : Nat), s.therm.coolSince = some g ∧ s.therm.cools = false :=
  ⟨up.modTherm fun t => { t with coolSince := some 7, hot := 1760 }, 7, by decide +kernel⟩
theorem witness_TrainingCommands_1 : ∃ (s : State) (p : PortId), (s.port p).train = 1 :=
  ⟨port3 fun x => { x with train := 1 }, 3, by decide +kernel⟩
theorem witness_TrainingCommands_2 : ∃ (s : State) (p : PortId), (s.port p).train = 2 :=
  ⟨port3 fun x => { x with train := 2 }, 3, by decide +kernel⟩
theorem witness_TrainingCommands_3 : ∃ (s : State) (p : PortId), (s.port p).train = 4 ∧ 4 ≤ (s.port p).aligned :=
  ⟨port3 fun x => { x with train := 4, aligned := 4 }, 3, by decide +kernel⟩
theorem witness_TrainingCommands_4 : ∃ (s : State) (p : PortId), (s.port p).train = 4 ∧ (s.port p).aligned < 4 :=
  ⟨port3 fun x => { x with train := 4, aligned := 3 }, 3, by decide +kernel⟩
theorem witness_TrainingCommands_5 : ∃ (s : State) (p : PortId), (s.port p).train = 0xB ∧ s.pins.prsnt.getLsbD p.val = true ∧
  s.pins.linkPll = true :=
  ⟨(port3 fun x => { x with train := 0xB }).modPins fun p => { p with prsnt := 8, linkPll := true }, 3, by decide +kernel⟩
theorem witness_TrainingCommands_6 : ∃ (s : State) (p : PortId), (s.port p).train = 5 ∧ (s.port p).errorCheck = true :=
  ⟨port3 fun x => { x with train := 5 }, 3, by decide +kernel⟩
theorem witness_TrainingCommands_7 : ∃ (s : State) (p : PortId), (s.port p).train = 5 ∧ (s.port p).errorCheck = false ∧ (s.port
  p).attempt = 1 :=
  ⟨port3 fun x => { x with train := 5, attempt := 1, chkCorr := 489 }, 3, by decide +kernel⟩
theorem witness_TrainingCommands_8 : ∃ (s : State) (p : PortId), (s.port p).train = 3 ∧ (s.port p).attempt = 1 :=
  ⟨port3 fun x => { x with train := 3, attempt := 1 }, 3, by decide +kernel⟩
theorem witness_TrainingCommands_9 : ∃ (s : State) (p : PortId), (s.port p).train = 3 ∧ (s.port p).attempt = 2 :=
  ⟨port3 fun x => { x with train := 3, attempt := 2 }, 3, by decide +kernel⟩
theorem witness_TrainingCommands_10 : ∃ (s : State) (p : PortId), (s.port p).train = 8 :=
  ⟨port3 fun x => { x with train := 8 }, 3, by decide +kernel⟩
theorem witness_TrainingCommands_11 : ∃ (s : State) (p : PortId) (r : Request) (k : Packet), Answered s p 0x02 r k ∧ (s.port p).train = 6
  ∧ k.status = 0 ∧ identOk k.payload = true ∧ (s.pair.epochOver = false ∨ s.pair.mode = false ∨ s.owns p = false) :=
  ⟨port3 fun x => { x with train := 6, requests := [asked 2 1 1 []], rx := [answer 2 1 0 (leBytes 64 (6 * 0 + 2 ^ 48 + 2 ^ 56 + 2 ^ 96))] }, 3, asked 2 1 1 [], answer 2 1 0 (leBytes 64 (6 * 0 + 2 ^ 48 + 2 ^ 56 + 2 ^ 96)), by unfold Answered Received; decide⟩
theorem witness_TrainingCommands_12 : ∃ (s : State) (p : PortId) (r : Request) (k : Packet), Answered s p 0x02 r k ∧ (s.port p).train = 6
  ∧ k.status = 0 ∧ identOk k.payload = true ∧ s.pair.epochOver = true ∧ s.pair.mode = true ∧ s.owns p = true :=
  ⟨(port3 fun x => { x with train := 6, requests := [asked 2 1 1 []], rx := [answer 2 1 0 (leBytes 64 (2 ^ 48 + 2 ^ 56 + 2 ^ 96))] }).modPair fun q => { q with mode := true, st := .solo, own := 0xFFFFFFFF, epochOver := true }, 3, asked 2 1 1 [], answer 2 1 0 (leBytes 64 (2 ^ 48 + 2 ^ 56 + 2 ^ 96)), by unfold Answered Received; decide +kernel⟩
theorem witness_TrainingCommands_13 : ∃ (s : State) (p : PortId) (r : Request) (k : Packet), Answered s p 0x02 r k ∧ (s.port p).train = 6
  ∧ identOk k.payload = false :=
  ⟨port3 fun x => { x with train := 6, requests := [asked 2 1 1 []], rx := [answer 2 1 0 []] }, 3, asked 2 1 1 [], answer 2 1 0 [], by unfold Answered Received; decide⟩
theorem witness_TrainingCommands_14 : ∃ (s : State) (p : PortId) (r : Request) (k : Packet), Answered s p 0x01 r k ∧ (s.port p).train = 7
  ∧ k.status = 3 ∧ ofLe r.packet.payload ≠ 0 ∧ k.payload.length = 8 :=
  ⟨port3 fun x => { x with train := 7, requests := [asked 1 1 1 (leBytes 8 4)], rx := [answer 1 1 3 (leBytes 8 6)] }, 3, asked 1 1 1 (leBytes 8 4), answer 1 1 3 (leBytes 8 6), by unfold Answered Received; decide⟩
theorem witness_TrainingCommands_15 : ∃ (s : State) (p : PortId) (r : Request) (k : Packet), Answered s p 0x01 r k ∧ (s.port p).train = 7
  ∧ k.status = 0 ∧ ofLe r.packet.payload ≠ 0 ∧ k.payload.length = 8 ∧ field k.payload 0 8 = (s.port p).own.toNat ∧ (s.port p).own ≠ 0 :=
  ⟨port3 fun x => { x with train := 7, own := 4, requests := [asked 1 1 1 (leBytes 8 4)], rx := [answer 1 1 0 (leBytes 8 4)] }, 3, asked 1 1 1 (leBytes 8 4), answer 1 1 0 (leBytes 8 4), by unfold Answered Received; decide⟩
theorem witness_TrainingCommands_16 : ∃ (s : State) (p : PortId) (r : Request) (k : Packet), Answered s p 0x03 r k ∧ (s.port p).train = 8
  ∧ k.status = 0 ∧ k.payload.length = 72 ∧ s.ident.sealed = false ∧ s.svc.comp = none ∧ (s.port p).startMark = false :=
  ⟨port3 fun x => { x with train := 8, requests := [asked 3 1 1 []], rx := [answer 3 1 0 (leBytes 72 9)] }, 3, asked 3 1 1 [], answer 3 1 0 (leBytes 72 9), by unfold Answered Received; decide⟩
theorem witness_TrainingCommands_17 : ∃ (s : State) (p : PortId) (r : Request) (k : Packet), Answered s p 0x03 r k ∧ (s.port p).train = 8
  ∧ k.status ≠ 0 :=
  ⟨port3 fun x => { x with train := 8, requests := [asked 3 1 1 []], rx := [answer 3 1 2 []] }, 3, asked 3 1 1 [], answer 3 1 2 [], by unfold Answered Received; decide⟩
theorem witness_TrainingCommands_18 : ∃ (s : State) (p : PortId) (r : Request) (k : Packet), Answered s p 0x04 r k ∧ k.status = 0 ∧
  k.payload.length = field r.packet.payload 4 2 ∧ (s.port p).pers.length + k.payload.length < field (s.port p).companion.ident 12 4 :=
  ⟨port3 fun x => { x with companion := { ident := leBytes 64 (2 ^ 96 * 300), measure := [] }, requests := [asked 4 1 1 (leBytes 8 (2 ^ 32 * 2))], rx := [answer 4 1 0 [1, 2]] }, 3, asked 4 1 1 (leBytes 8 (2 ^ 32 * 2)), answer 4 1 0 [1, 2], by unfold Answered Received; decide⟩
theorem witness_TrainingCommands_19 : ∃ (s : State) (p : PortId) (r : Request) (k : Packet), Answered s p 0x04 r k ∧ k.status ≠ 0 ∧
  k.status ≠ 4 :=
  ⟨port3 fun x => { x with train := 9, requests := [asked 4 1 1 (leBytes 8 (2 ^ 32 * 2))], rx := [answer 4 1 1 []] }, 3, asked 4 1 1 (leBytes 8 (2 ^ 32 * 2)), answer 4 1 1 [], by unfold Answered Received; decide⟩
theorem witness_TrainingCommands_20 : ∃ (s : State) (p : PortId) (r : Request) (n : Nat), ((s.port p).requests.find? fun q =>
  q.packet.opcode.toNat == 0x04 && q.busyAt.isSome && true) = some r ∧ r.busyAt = some n :=
  ⟨port3 fun x => { x with requests := [{ asked 4 1 1 [] with busyAt := some 7 }] }, 3, { asked 4 1 1 [] with busyAt := some 7 }, 7, by decide +kernel⟩
theorem witness_TrainingCommands_21 : ∃ (s : State) (p : PortId), s.pins.prsnt.getLsbD p.val = false ∧ s.aon.hold = .running ∧
  s.boot.released = false :=
  ⟨rom 5, 3, by decide +kernel⟩
theorem witness_TrainingCommands_22 : ∃ (s : State) (d : Due) (rest : List Due), s.ident.due = d :: rest :=
  ⟨up.modIdent fun i => { i with due := [due3] }, due3, [], by decide +kernel⟩
theorem witness_TrainingCommands_23 : ∃ (s : State) (p : PortId), (s.port p).train = 0xB ∧ s.pins.linkPll = false :=
  ⟨(port3 fun x => { x with train := 0xB }).modPins fun p => { p with linkPll := false }, 3, by decide +kernel⟩
theorem witness_PortEventCommands_1 : ∃ (s : State) (p : PortId) (k : Packet), Received s p 0xE0 k ∧ k.payload.length = 24 ∧ field
  k.payload 4 2 = 0 ∧ (s.spin p).chopper = false ∧ (s.spin p).st ≠ .regenDown ∧ (s.port p).train = 7 :=
  ⟨port3 fun x => { x with train := 7, rx := [answer 0x60 0 0 (leBytes 24 (40 * 16 + 65536 * 12000))] }, 3, answer 0x60 0 0 (leBytes 24 (40 * 16 + 65536 * 12000)), by unfold Received; decide⟩
theorem witness_PortEventCommands_2 : ∃ (s : State) (p : PortId) (n : Nat), 1000 < n ∧ s.pins.prsnt.getLsbD p.val = true ∧ s.aon.hold =
  .running ∧ s.power.entering = false :=
  ⟨up.modPins fun q => { q with prsnt := 8 }, 3, 1001, by decide +kernel⟩
theorem witness_PortEventCommands_3 : ∃ (s : State) (p : PortId) (n : Nat), n ≤ 1000 :=
  ⟨State.reset, 3, 1000, by decide +kernel⟩
theorem witness_PortEventCommands_4 : ∃ (s : State) (p : PortId) (n : Nat), (s.spin p).slotAt = some n ∧ (s.port p).inService = true :=
  ⟨(port3 fun x => { x with inService := true, train := 9 }).modSpin 3 fun v => { v with slotAt := some 7 }, 3, 7, by decide +kernel⟩
theorem witness_PortEventCommands_5 : ∃ (s : State) (p : PortId) (n : Nat), (s.spin p).slotAt = some n ∧ (s.spin p).inReg = true :=
  ⟨up.modSpin 3 fun v => { v with slotAt := some 7, inReg := true }, 3, 7, by decide +kernel⟩
theorem witness_PortEventCommands_6 : ∃ (s : State) (p : PortId) (n : Nat), (s.spin p).slotAt = some n ∧ (s.spin p).inReg = false :=
  ⟨up.modSpin 3 fun v => { v with slotAt := some 7, inReg := false }, 3, 7, by decide +kernel⟩
theorem witness_PortEventCommands_7 : ∃ (s : State), s.boot.released = true ∧ s.boot.complete = false ∧ s.allPortsEnded = true ∧
  s.fa.cc.getLsbD 0 = true ∧ s.fa.cfs = false ∧ s.pins.pwrfail = false :=
  ⟨((up.modBoot fun b => { b with complete := false }).modFn .a fun x => { x with cc := 1, cfs := false }).modPins fun q => { q with prsnt := 0, pwrfail := false }, by decide +kernel⟩
theorem witness_WingsLinkCommands_1 : ∃ (s : State), s.pair.mode = true ∧ s.boot.released = true ∧ s.pair.wings ≠ 2 :=
  ⟨(duo fun p => { p with wings := 3 }), by decide +kernel⟩
theorem witness_WingsLinkCommands_2 : ∃ (s : State), s.pair.mode = true ∧ s.boot.released = true ∧ s.pair.wings ≠ 2 :=
  ⟨(duo fun p => { p with wings := 3 }), by decide +kernel⟩
theorem witness_WingsLinkCommands_3 : ∃ (s : State) (m : HelloMsg) (n : Nat), s.pair.mode = true ∧ s.pair.wings = 1 ∧ m.pairMode = true ∧
  s.pair.trainAt = some n ∧ n + 10 * Config.ms < s.now :=
  ⟨{ (duo fun p => { p with wings := 1, trainAt := some 0 }) with now := 10 * Config.ms + 1 }, helloMsg .solo, 0, by decide +kernel⟩
theorem witness_WingsLinkCommands_4 : ∃ (s : State), s.pair.mode = true ∧ s.pair.wings = 2 :=
  ⟨(duo id), by decide +kernel⟩
theorem witness_WingsLinkCommands_5 : ∃ (s : State) (n : Nat), s.pair.mode = true ∧ s.pair.wings = 2 ∧ s.pair.retryAt = some n :=
  ⟨(duo fun p => { p with retryAt := some 7 }), 7, by decide +kernel⟩
theorem witness_WingsLinkCommands_6 : ∃ (s : State) (q : BitVec 13) (l : List Nat), s.pair.mode = true ∧ s.pair.wings = 2 ∧ s.isStale
  .wings = false ∧ l.all (fun n => decide (n ≤ 4)) = true ∧ q = s.pair.rxSeq :=
  ⟨(duo fun p => { p with rxSeq := 5 }), 5, [0, 4], by decide +kernel⟩
theorem witness_WingsLinkCommands_7 : ∃ (s : State) (q : BitVec 13) (l : List Nat), s.pair.mode = true ∧ s.pair.wings = 2 ∧ s.isStale
  .wings = false ∧ l.all (fun n => decide (n ≤ 4)) = true ∧ q ≠ s.pair.rxSeq :=
  ⟨(duo fun p => { p with rxSeq := 5 }), 6, [0], by decide +kernel⟩
theorem witness_WingsLinkCommands_8 : ∃ (s : State) (q : BitVec 13) (l : List Nat) (b : Bool), s.pair.mode = true ∧ s.pair.wings = 2 ∧
  s.isStale .wings = false ∧ l.any (fun n => decide (4 < n)) = true ∧ 3 ≤ (recent s.now Config.sec s.pair.uncorrAt).length :=
  ⟨(duo fun p => { p with uncorrAt := [0, 0, 0] }), 6, [5], false, by decide +kernel⟩
theorem witness_WingsLinkCommands_9 : ∃ (s : State) (m : HelloMsg), s.pair.mode = true ∧ s.pair.wings = 2 ∧ m.pairMode = true ∧ m.side =
  s.pair.side :=
  ⟨(duo id), { helloMsg .forming with side := false }, by decide +kernel⟩
theorem witness_WingsLinkCommands_10 : ∃ (s : State) (m : HelloMsg), s.pair.mode = true ∧ s.pair.wings = 2 ∧ m.pairMode = true ∧ m.side =
  !s.pair.side ∧ s.pair.st = .forming ∧ m.state = .forming ∧ max s.pair.highest.toNat m.highestEpoch.toNat + 1 < 2 ^ 63 :=
  ⟨(duo fun p => { p with st := .forming, peerState := .forming }), helloMsg .forming, by decide +kernel⟩
theorem witness_WingsLinkCommands_11 : ∃ (s : State) (m : HelloMsg), s.pair.mode = true ∧ s.pair.wings = 2 ∧ m.pairMode = true ∧ m.side =
  !s.pair.side ∧ s.pair.st = .forming ∧ m.state = .solo :=
  ⟨(duo fun p => { p with st := .forming }), helloMsg .solo, by decide +kernel⟩
theorem witness_WingsLinkCommands_12 : ∃ (s : State), s.pair.mode = true ∧ s.pair.wings = 2 ∧ s.pair.handing = none :=
  ⟨(duo id), by decide +kernel⟩
theorem witness_WingsLinkCommands_13 : ∃ (s : State) (m : HeartbeatMsg), s.pair.mode = true ∧ s.pair.wings = 2 ∧ s.isStale .wings = false
  ∧ earlier s.pair.rxMsg m.msgSeq = true ∧ s.pair.st = .paired :=
  ⟨(duo fun p => { p with peerAlive := false }), beat, by decide +kernel⟩
theorem witness_WingsLinkCommands_14 : ∃ (s : State) (m : HeartbeatMsg), s.pair.mode = true ∧ s.pair.wings = 2 ∧ s.isStale .wings = false
  ∧ earlier s.pair.rxMsg m.msgSeq = false :=
  ⟨(duo fun p => { p with rxMsg := 1 }), beat, by decide +kernel⟩
theorem witness_WingsLinkCommands_15 : ∃ (s : State) (n : Nat), s.pair.mode = true ∧ s.pair.side = false ∧ s.pair.st = .paired ∧
  s.pair.peerLostAt = none ∧ s.pair.lastHb = some n ∧ s.pair.peerAlive = true :=
  ⟨(duo fun p => { p with lastHb := some 3 }), 3, by decide +kernel⟩
theorem witness_WingsLinkCommands_16 : ∃ (s : State) (n : Nat), s.pair.mode = true ∧ s.pair.side = true ∧ s.pair.st = .paired ∧
  s.pair.peerLostAt = none ∧ s.pair.lastHb = some n ∧ s.pair.peerAlive = true :=
  ⟨(duo fun p => { p with lastHb := some 3, side := true }), 3, by decide +kernel⟩
theorem witness_WingsLinkCommands_17 : ∃ (s : State) (n : Nat), s.pair.mode = true ∧ s.pair.side = true ∧ s.pair.st = .paired ∧
  s.pair.peerLostAt = some n :=
  ⟨(duo fun p => { p with side := true, peerLostAt := some 3 }), 3, by decide +kernel⟩
theorem witness_WingsLinkCommands_18 : ∃ (s : State), s.pair.mode = true ∧ s.pair.st = .forming ∧ s.boot.portsEnded = true ∧
  s.pair.helloDone = false ∧ s.pair.peerSide ≠ some s.pair.side :=
  ⟨(duo fun p => { p with st := .forming, helloDone := false }).modBoot fun b => { b with portsEnded := true }, by decide +kernel⟩
theorem witness_WingsLinkCommands_19 : ∃ (s : State) (r : Option PortId), s.pair.st = .contending ∧ s.freshTokens.any (fun k => k % 2 !=
  bit s.pair.side && decide (s.pair.epoch.toNat < k / 2)) = true :=
  ⟨(duo fun p => { p with st := .contending, mirrors := [] }).modPins (fun p => { p with prsnt := 8 }) |>.modPort 3 fun x => { x with statusAt := some 0, token := 21 }, none, by decide +kernel⟩
theorem witness_WingsLinkCommands_20 : ∃ (s : State) (e : BitVec 63), s.pair.st = .contending ∧ s.freshTokens.any (fun k => k % 2 != bit
  s.pair.side && decide (s.pair.epoch.toNat < k / 2)) = false ∧ nextEpoch (s.freshTokens.foldl max 0 / 2) = some e :=
  ⟨(duo fun p => { p with st := .contending }), 1, by decide +kernel⟩
theorem witness_WingsLinkCommands_21 : ∃ (s : State) (p : PortId), s.pair.st = .contending ∧ s.livePorts.contains p = true :=
  ⟨(duo fun p => { p with st := .contending }).modPins (fun p => { p with prsnt := 8 }) |>.modPort 3 fun x => { x with statusAt := some 0, token := 20 }, 3, by decide +kernel⟩
theorem witness_WingsLinkCommands_22 : ∃ (s : State) (c : Nat) (x : Ctx) (f : Fn), s.pair.settling = true ∧ s.pair.withheld = [c] ∧
  s.ctx? c = some x ∧ x.origin = .host f :=
  ⟨hosting (ctx 1 (entry 1 0 0 0)) (duo fun p => { p with st := .solo, settling := true, withheld := [7] }), 7, ctx 1 (entry 1 0 0 0), .a, by decide +kernel⟩
theorem witness_WingsLinkCommands_23 : ∃ (s : State) (p : PortId) (k : Packet), Received s p 0xE4 k ∧ s.pair.st = .solo :=
  ⟨(duo fun p => { p with st := .solo }).modPort 3 fun x => { x with rx := [answer 0x64 0 0 []] }, 3, answer 0x64 0 0 [], ⟨by unfold Received; decide +kernel, by decide +kernel⟩⟩
theorem witness_WingsLinkCommands_24 : ∃ (s : State) (p : PortId) (k : Packet), Received s p 0xE4 k ∧ s.pair.st ≠ .solo ∧ (s.port
  p).obeyed = true :=
  ⟨(duo fun p => { p with mode := false, st := .single }).modPort 3 fun x => { x with rx := [answer 0x64 0 0 []] }, 3, answer 0x64 0 0 [], ⟨by unfold Received; decide +kernel, by decide +kernel⟩⟩
theorem witness_WingsLinkCommands_25 : ∃ (s : State) (q : BitVec 13) (l : List Nat) (b : Bool), s.pair.mode = true ∧ s.pair.wings = 2 ∧
  s.isStale .wings = true :=
  ⟨(duo id).modXing fun x => { x with staleOther := 4 }, 1, [], false, by decide +kernel⟩
theorem witness_WingsLinkCommands_26 : ∃ (s : State), s.pair.mode = true ∧ s.pair.wings = 0 :=
  ⟨duo fun p => { p with wings := 0 }, by decide +kernel⟩
theorem witness_FillFlagGuardsRelease_1 : ∃ (s : State), s.booting = true ∧ s.aon.step.toNat < 4 :=
  ⟨rom 3, by decide +kernel⟩
theorem witness_FillFlagGuardsRelease_2 : ∃ (s : State) (l : List Nat) (r : List (Option Nat)), s.aon.fill = .idle :=
  ⟨rom 5, [16], [none], by decide +kernel⟩
theorem witness_FillFlagGuardsRelease_3 : ∃ (s : State), s.aon.fill = .idle :=
  ⟨rom 6, by decide +kernel⟩
theorem witness_FillFlagGuardsRelease_4 : ∃ (s : State), s.booting = true ∧ s.aon.fill ≠ .idle :=
  ⟨(rom 4).modAon fun a => { a with fill := .sram }, by decide +kernel⟩
theorem witness_FillFlagGuardsRelease_5 : ∃ (s : State), s.aon.fillComplete = false :=
  ⟨rom 4, by decide +kernel⟩
theorem witness_FillFlagGuardsRelease_6 : ∃ s t : State, s.Inv ∧ step s = .next t ∧ t.boot.released = true :=
  ⟨up, up.idle, up_inv, rfl, rfl⟩
theorem witness_FillMismatchStopsBringUp_1 : ∃ (s : State), s.booting = true ∧ s.aon.fill = .sram :=
  ⟨(rom 4).modAon fun a => { a with fill := .sram }, by decide +kernel⟩
theorem witness_FillMismatchStopsBringUp_2 : ∃ (s : State), s.booting = true ∧ s.aon.fill = .dram :=
  ⟨(rom 7).modAon fun a => { a with fill := .dram }, by decide +kernel⟩
theorem witness_ChannelTrainingRetries_1 : ∃ (s : State) (ch : Fin 8), s.booting = true ∧ 5 ≤ s.aon.step.toNat ∧ s.boot.trained = false ∧
  s.boot.retries[ch] < 3 :=
  ⟨rom 5, 2, by decide +kernel⟩
theorem witness_ChannelTrainingRetries_2 : ∃ (s : State) (ch : Fin 8), s.booting = true ∧ 5 ≤ s.aon.step.toNat ∧ s.boot.trained = false ∧
  s.boot.retries[ch] = 3 :=
  ⟨(rom 5).modBoot fun b => { b with retries := Vector.replicate 8 3 }, 2, by decide +kernel⟩
theorem witness_ChannelTrainingRetries_3 : ∃ (s : State) (l : List Nat) (r : List (Option Nat)) (ch : Fin 8), s.booting = true ∧ 5 ≤
  s.aon.step.toNat ∧ s.boot.trained = false ∧ failedChannels (rankDensities l r) = [ch] ∧ s.boot.retries[ch] < 3 :=
  ⟨rom 5, List.replicate 8 16, (List.replicate 8 (some 16)).set 2 none, 2, by decide +kernel⟩
theorem witness_ChannelTrainingRetries_4 : ∃ (s : State), s.boot.trained = false :=
  ⟨rom 5, by decide +kernel⟩
theorem witness_ChannelTrainingRetries_5 : ∃ (s : State) (l : List Nat) (r : List (Option Nat)) (ch : Fin 8), s.booting = true ∧ 5 ≤
  s.aon.step.toNat ∧ s.boot.trained = false ∧ failedChannels (rankDensities l r) = [ch] ∧ s.boot.retries[ch] = 3 :=
  ⟨(rom 5).modBoot fun b => { b with retries := Vector.replicate 8 3 }, List.replicate 8 16, (List.replicate 8 (some 16)).set 2 none, 2, by decide +kernel⟩
theorem witness_ChannelTrainingRetries_6 : ∃ (s : State) (l : List Nat) (r : List (Option Nat)), s.boot.trained = false ∧ l.length < 8 :=
  ⟨rom 5, [16], [none], by decide +kernel⟩
theorem witness_CommitOfTheRunningSlot_1 : ∃ (s : State) (c : Nat) (x : Ctx) (f : Fn), AtHand s c (isCommit 0) x ∧ x.origin = .host f ∧
  commitFs x.entry.cdw10 ≤ 2 ∧ s.slotRuns (s.slotFor (commitFs x.entry.cdw10)) = true :=
  ⟨hosting (ctx 0 (entry 0x10 1 0 0)) (sled true), 7, ctx 0 (entry 0x10 1 0 0), .a, ⟨by exact ⟨by decide, by decide, by decide, .a, rfl⟩, by decide +kernel⟩⟩
theorem witness_CommitOfTheRunningSlot_2 : ∃ (s : State) (c : Nat) (x : Ctx) (f : Fn), AtHand s c (isCommit 1) x ∧ x.origin = .host f ∧
  commitFs x.entry.cdw10 ≤ 2 ∧ s.slotRuns (s.slotFor (commitFs x.entry.cdw10)) = true :=
  ⟨hosting (ctx 0 (entry 0x10 9 0 0)) (sled true), 7, ctx 0 (entry 0x10 9 0 0), .a, ⟨by exact ⟨by decide, by decide, by decide, .a, rfl⟩, by decide +kernel⟩⟩
theorem witness_CommitOfTheRunningSlot_3 : ∃ (s : State) (c : Nat) (x : Ctx) (f : Fn), AtHand s c (isCommit 2) x ∧ x.origin = .host f ∧
  commitFs x.entry.cdw10 ≤ 2 ∧ s.slotRuns (s.slotFor (commitFs x.entry.cdw10)) = true :=
  ⟨hosting (ctx 0 (entry 0x10 0x11 0 0)) (sled true), 7, ctx 0 (entry 0x10 0x11 0 0), .a, ⟨by exact ⟨by decide, by decide, by decide, .a, rfl⟩, by decide +kernel⟩⟩
theorem witness_SoloStandsDown_1 : ∃ (s : State) (p : PortId) (k : Packet), Received s p 0xE4 k ∧ s.pair.st = .solo :=
  ⟨(duo fun p => { p with st := .solo }).modPort 3 fun x => { x with rx := [answer 0x64 0 0 []] }, 3, answer 0x64 0 0 [], ⟨by unfold Received; decide +kernel, by decide +kernel⟩⟩
theorem witness_CacheEnableNeedsInvalidateAll_1 : ∃ (s : State) (c : Nat) (x : Ctx), AtHand s c (isAction 0xC6 1) x ∧ bits x.entry.cdw10
  15 8 = 0 ∧ x.entry.cdw14 = 0 ∧ x.entry.cdw15 = 0 ∧ s.mcache.invalidated = true :=
  ⟨hosting (ctx 0 (entry 0xC6 1 0 0)) ((sled false).modCache fun m => { m with invalidated := true }), 7, ctx 0 (entry 0xC6 1 0 0), ⟨by exact ⟨by decide, by decide, by decide, .a, rfl⟩, by decide +kernel⟩⟩
theorem witness_CacheEnableNeedsInvalidateAll_2 : ∃ (s : State) (c : Nat) (x : Ctx), AtHand s c (isAction 0xC6 1) x ∧ bits x.entry.cdw10
  15 8 = 0 ∧ x.entry.cdw14 = 0 ∧ x.entry.cdw15 = 0 ∧ s.mcache.invalidated = false :=
  ⟨hosting (ctx 0 (entry 0xC6 1 0 0)) (sled false), 7, ctx 0 (entry 0xC6 1 0 0), ⟨by exact ⟨by decide, by decide, by decide, .a, rfl⟩, by decide +kernel⟩⟩
theorem witness_CacheEnableNeedsInvalidateAll_3 : ∃ (s : State) (c : Nat) (x : Ctx), AtHand s c (isAction 0xC6 3) x ∧ bits x.entry.cdw10
  15 8 = 0 ∧ x.entry.cdw14 = 0 ∧ x.entry.cdw15 = 0 :=
  ⟨hosting (ctx 0 (entry 0xC6 3 0 0)) ((sled false).modCache fun m => { m with enabled := true, sets := [{ index := 5, ways := [(0, { tag := 5, dirty := true, stale := false, preloaded := false })], plru := 0 }] }), 7, ctx 0 (entry 0xC6 3 0 0), ⟨by exact ⟨by decide, by decide, by decide, .a, rfl⟩, by decide +kernel⟩⟩
theorem witness_CacheEnableNeedsInvalidateAll_4 : ∃ (s : State) (c : Nat) (x : Ctx), AtHand s c (isAction 0xC6 2) x ∧ bits x.entry.cdw10
  15 8 = 0 ∧ x.entry.cdw14 = 0 ∧ x.entry.cdw15 = 0 :=
  ⟨hosting (ctx 0 (entry 0xC6 2 0 0)) ((sled false).modCache fun m => { m with enabled := true, sets := [{ index := 5, ways := [(0, { tag := 5, dirty := true, stale := false, preloaded := false })], plru := 0 }] }), 7, ctx 0 (entry 0xC6 2 0 0), ⟨by exact ⟨by decide, by decide, by decide, .a, rfl⟩, by decide +kernel⟩⟩
theorem witness_CacheEnableNeedsInvalidateAll_5 : ∃ (s : State), s.aon.hold = .running ∧ s.names.dumping = false ∧ s.aon.dogArmed = true
  :=
  ⟨up, by decide +kernel⟩
theorem witness_CacheEnableNeedsInvalidateAll_6 : ∃ (s : State), s.aon.hold ≠ .powerOn :=
  ⟨up, by decide +kernel⟩
theorem witness_FormatOfAnAbsentMember_1 : ∃ (s : State) (c : Nat) (x : Ctx) (q : PortId), AtHand s c (isAction 0xC2 0) x ∧ x.update =
  false ∧ x.entry.cdw14 = 0 ∧ x.entry.cdw15 = 0 ∧ x.entry.cdw13 = 0 ∧ opKind x.entry = 4 ∧ (s.member q).st = .absent ∧ (s.member
  q).serial = (s.port (Fin.ofNat 32 (bits x.entry.cdw11 4 0))).serial :=
  ⟨hosting (ctx 0 (entry 0xC2 0x400 3 0)) (((sled true).modMember 5 fun m => { m with st := .absent })), 7, ctx 0 (entry 0xC2 0x400 3 0), 5, ⟨by exact ⟨by decide, by decide, by decide, .a, rfl⟩, by decide +kernel⟩⟩
theorem witness_CompFwNeedsTheOwner_1 : ∃ (s : State) (tag : Byte) (p : PortId) (ret : Bool) (force : Bool) (n : Nat) (d : Digest),
  s.svcUp = true ∧ s.svc.busy = none ∧ s.fwRuns = true ∧ s.pair.mode = true ∧ s.owns p = false :=
  ⟨duo id, 9, 20, false, false, 500, 5, by decide +kernel⟩
theorem witness_CompFwNeedsTheOwner_2 : ∃ (s : State) (tag : Byte) (p : PortId) (ret : Bool) (n : Nat) (d : Digest), s.svcUp = true ∧
  s.svc.busy = none ∧ s.fwRuns = true ∧ s.pair.mode = true ∧ s.owns p = true ∧ (s.port p).train = 9 ∧ (s.port p).obeyed = true ∧ 1 ≤ n ∧
  n ≤ downloadSize ∧ ((fins 2).any fun y => (s.act (actOf p y)).loaded || (s.act (actOf p y)).loading) = true ∧ ((fins 2).any fun y =>
  (s.act (actOf p y)).loaded) = true :=
  ⟨(duo id).modAct 6 fun a => { a with loaded := true }, 9, 3, false, 500, 5, by decide +kernel⟩
theorem witness_BufferReadsBack_1 : ∃ (l : List Host.Cell) (off : Nat) (bs : List Byte), bufWf l = true :=
  ⟨[], 0, [1], by decide⟩
theorem witness_BufferReadsBack_2 : ∃ (l : List Host.Cell) (off : Nat) (bs : List Byte) (i : Nat), bufWf l = true ∧ i < bs.length :=
  ⟨[(3, 4)], 5, [7], 0, by decide⟩
theorem witness_BufferReadsBack_3 : ∃ (l : List Host.Cell) (off : Nat) (bs : List Byte) (x : Nat), bufWf l = true ∧ (x < off ∨ off +
  bs.length ≤ x) :=
  ⟨[(3, 4)], 5, [7], 4, by decide, by decide⟩
theorem witness_EveryStepKeepsInv_1 : ∃ s t : State, s.Inv ∧ step s = .next t :=
  ⟨up, up.idle, up_inv, rfl⟩
theorem witness_SequencerCommandsComplete_1 : ∃ (s : State) (a : ActId) (w : W32), (s.seq a).st = .running ∧ (s.seq a).addr ≠ 0 ∧ (s.seq
  a).acted = false ∧ (s.patch.bankOf (s.seq a).bank).micro? (s.seq a).addr.toNat = some w ∧ microNext w = 0 ∧ (s.patch.bankOf (s.seq
  a).bank).nano? (microNano w) = .inr 0 ∧ ((s.patch.bankOf (s.seq a).bank).micro? ((s.patch.bankOf (s.seq a).bank).redirect ((s.seq
  a).addr.toNat + 1))).isSome = true ∧ (s.patch.bankOf (s.seq a).bank).redirect ((s.seq a).addr.toNat + 1) ≠ 0 :=
  ⟨(seq6 fun q => { q with st := .running, addr := 16384 }).modPatch fun p => { p with bank0 := { micro := [BitVec.ofNat 32 (1024 * 2 ^ 21), 0], nano := [0], matches_ := [] } }, 6, BitVec.ofNat 32 (1024 * 2 ^ 21), by decide +kernel⟩
theorem witness_SequencerCommandsComplete_2 : ∃ (s : State) (a : ActId) (why : ReadFor) (d : Descriptor), s.handsOver (portOf a) = false
  :=
  ⟨seq6 fun q => q, 6, .host, job false, by decide +kernel⟩
theorem witness_SequencerCommandsComplete_3 : ∃ (s : State) (a : ActId), (s.seq a).st = .running ∧ (s.seq a).op.isSome = true ∧ (s.seq
  a).faultAt = none :=
  ⟨seq6 fun q => { q with st := .running, op := some (job true) }, 6, by decide +kernel⟩
theorem witness_SequencerCommandsComplete_4 : ∃ (s : State) (a : ActId), (s.seq a).st = .halted ∧ (s.seq a).outOfService = false ∧
  (s.patch.bankOf s.patch.newest).redirect 0 = 0 :=
  ⟨seq6 fun q => { q with st := .halted, fault := 7 }, 6, by decide +kernel⟩
theorem witness_SequencerCommandsComplete_5 : ∃ (s : State) (a : ActId), (s.seq a).st = .offline ∧ (s.seq a).switchPending = true ∧ 2 ≤
  s.patch.remaining :=
  ⟨(seq6 fun q => { q with st := .offline, switchPending := true }).modPatch fun p => { p with remaining := 64, switching := true, newest := true }, 6, by decide +kernel⟩
theorem witness_SequencerCommandsComplete_6 : ∃ (s : State) (p : PortId) (k : Packet), Received s p 0xE3 k ∧ field k.payload 0 1 = 0 ∧
  field k.payload 1 1 = 2 ∧ field k.payload 2 1 = 1 :=
  ⟨port3 fun x => { x with rx := [answer 0x63 0 0 [0, 2, 1, 0, 9, 0, 0, 0]] }, 3, answer 0x63 0 0 [0, 2, 1, 0, 9, 0, 0, 0], by unfold Received; decide⟩
theorem witness_SequencerCommandsComplete_7 : ∃ (s : State) (a : ActId), (s.pool a).enc = 1 ∧ s.encoderFull a = true :=
  ⟨up.modPool 6 fun x => { x with enc := 1, sent := 131072 }, 6, by decide +kernel⟩
theorem witness_SequencerCommandsComplete_8 : ∃ (s : State) (a : ActId) (addr : Nat), (s.pool a).enc = 1 ∧ sramWithin .staging addr =
  true ∧ (s.patch.bankOf (s.seq a).bank).redirect 0 = 0 :=
  ⟨(seq6 fun q => { q with st := .running, op := some (job true) }).modPool 6 fun x => { x with enc := 1 }, 6, 20 * mib, by decide +kernel⟩
theorem witness_WindowAccessesComplete_1 : ∃ (s : State) (q : Req) (off : Nat), s.canAccess q off = true ∧ (s.xing.hung.any fun h =>
  h.who == q) = false ∧ (s.xing.captured.find? fun c => c.1 == q && c.2.1 == off) = none ∧ regAt off = .recorder 40 ∧ off % 4 = 0 :=
  ⟨(hostFn id id).modBook fun b => { b with drops := 8 }, .portA, 0x2028, by decide +kernel⟩
theorem witness_WindowAccessesComplete_2 : ∃ (s : State) (q : Req) (off : Nat), s.canAccess q off = true ∧ (s.xing.hung.any fun h =>
  h.who == q) = false ∧ s.stopped off = none ∧ off % 4 = 0 ∧ isLo off = true ∧ (s.xing.captured.find? fun c => c.1 == q && c.2.1 == off)
  = none :=
  ⟨hostFn id id, .portA, 0x6004, by decide +kernel⟩
theorem witness_WindowAccessesComplete_3 : ∃ (s : State) (q : Req) (off : Nat) (v : W32), s.canAccess q off = true ∧ (s.xing.hung.any fun
  h => h.who == q) = false ∧ s.stopped off = none ∧ off % 4 = 0 ∧ (s.xing.captured.find? fun c => c.1 == q && c.2.1 == off) = some (q,
  off, v) :=
  ⟨(hostFn id id).modXing fun x => { x with captured := [(.portA, 0x6008, 9)] }, .portA, 0x6008, 9, by decide +kernel⟩
theorem witness_WindowAccessesComplete_4 : ∃ (s : State) (q : Req) (off : Nat) (v : W32) (p : PortId), s.canAccess q off = true ∧
  (s.xing.hung.any fun h => h.who == q) = false ∧ regAt off = .port p 4 :=
  ⟨hostFn id id, .portA, 0x30C4, 0xFF, 3, by decide +kernel⟩
theorem witness_WindowAccessesComplete_5 : ∃ (s : State) (p : PortId), (s.port p).joint = true ∧ (s.port p).clock = true ∧ s.xing.hung =
  [] :=
  ⟨port3 fun x => { x with joint := true, clock := true }, 3, by decide +kernel⟩
theorem witness_WindowAccessesComplete_6 : ∃ (s : State) (tag : Byte), s.aon.hold = .running ∧ s.boot.released = true ∧ s.names.dumping =
  false ∧ s.boot.cold = false :=
  ⟨up.modBoot fun b => { b with cold := false }, 9, by decide +kernel⟩
theorem witness_WindowAccessesComplete_7 : ∃ (s : State) (p : PortId) (n : Nat), (s.port p).train = 9 ∧ (s.pcal p).stale = false ∧
  (s.pcal p).lastValid = some n :=
  ⟨(up.modPort 3 fun x => { x with train := 9 }).modPcal 3 fun c => { c with lastValid := some 7 }, 3, 7, by decide +kernel⟩
theorem witness_WindowAccessesComplete_8 : ∃ (s : State) (c : Nat) (x : Ctx) (n : Ns), AtHand s c (fun x => isIoOp 0x79 x && bits
  x.entry.cdw13 7 0 == 5) x ∧ s.ioNs x = some n ∧ s.ioBad x n = none ∧ n.zoned = true ∧ bits x.entry.cdw13 8 8 = 1 ∧ s.zoneTurn x = true
  ∧ x.update = false :=
  ⟨hosting (ctx 1 { entry 0x79 0 0 0 with cdw13 := 0x105 }) { sled true with names := { (sled true).names with zones := [zone1 .implicit 1024 2] } }, 7, (ctx 1 { entry 0x79 0 0 0 with cdw13 := 0x105 }), space true, ⟨by exact ⟨by decide, by decide, by decide, .a, rfl⟩, by decide +kernel⟩⟩
theorem witness_WindowAccessesComplete_9 : ∃ (s : State) (c : Nat) (x : Ctx) (n : Ns), AtHand s c (fun x => isIoOp 0x79 x && bits
  x.entry.cdw13 7 0 == 0x10) x ∧ s.ioNs x = some n ∧ s.ioBad x n = none ∧ n.zoned = true ∧ bits x.entry.cdw13 8 8 = 1 ∧ s.zoneTurn x =
  true ∧ x.update = false :=
  ⟨hosting (ctx 1 { entry 0x79 0 0 0 with cdw13 := 0x110 }) { sled true with names := { (sled true).names with zones := [zone1 .implicit 1024 2] } }, 7, (ctx 1 { entry 0x79 0 0 0 with cdw13 := 0x110 }), space true, ⟨by exact ⟨by decide, by decide, by decide, .a, rfl⟩, by decide +kernel⟩⟩
theorem witness_WindowAccessesComplete_10 : ∃ (s : State) (p : PortId), (s.port p).cmdUp = true ∧ s.isStale (.port p) = false :=
  ⟨port3 fun x => { x with cmdUp := true }, 3, by decide +kernel⟩
theorem witness_WindowAccessesComplete_11 : ∃ (s : State) (p : PortId) (tag : Byte) (r : Request), ((s.port p).requests.find? fun x =>
  x.packet.tag == tag && x.busyAt.isNone) = some r ∧ r.sends < 3 :=
  ⟨port3 fun x => { x with requests := [{ asked 0x03 5 2 [] with sentAt := 4 }] }, 3, 5, { asked 0x03 5 2 [] with sentAt := 4 }, by decide +kernel⟩
theorem witness_WindowAccessesComplete_12 : ∃ (s : State) (p : PortId) (n : Nat), 64 ≤ n ∧ (s.port p).train ≠ 0xC ∧ s.xing.hung = [] :=
  ⟨up, 3, 64, by decide +kernel⟩
theorem witness_WindowAccessesComplete_13 : ∃ (s : State) (p : PortId) (n : Nat), 16 ≤ n ∧ (s.port p).clock = true ∧ ((s.port p).train =
  0xC ∨ (s.port p).train = 0xB ∧ (s.port p).joint = true) :=
  ⟨port3 fun x => { x with clock := true, train := 0xC }, 3, 16, by decide +kernel⟩
theorem witness_WindowAccessesComplete_14 : ∃ (s : State) (p : PortId) (n : Nat), (s.port p).train ≠ 0xC :=
  ⟨up, 3, 4, by decide +kernel⟩
theorem witness_WindowAccessesComplete_15 : ∃ (s : State) (p : PortId) (e : Fin 6) (n : Nat), 0 < n ∧ n ≤ 255 ∧ s.isStale (.port p) =
  false :=
  ⟨up, 3, 2, 255, by decide +kernel⟩
end Sys2Proof.Tests
end

section
/-! SUPPORT. The power states (spec/01 R38 to R43): what the operations that entry to PS3 and exit from it run leave of the
levels, the training states and the presence of the ports. -/

namespace Sys2Proof.Machine

/-! ## Loops -/

theorem State.each_inv {α : Type} {P : State → Prop} {f : α → State → State} (h : ∀ x s, P s → P (f x s)) (l : List α) {s : State}
    (hs : P s) : P (s.each l f) := by
  unfold State.each
  induction l generalizing s with
  | nil => exact hs
  | cons x l ih => exact ih (h x s hs)

theorem State.each_keeps {α β : Type} (v : State → β) {f : α → State → State} (h : ∀ x s, v (f x s) = v s) (l : List α) (s : State) :
    v (s.each l f) = v s :=
  State.each_inv (P := fun t => v t = v s) (fun x t e => (h x t).trans e) l rfl

/-- A loop whose turn for p changes entry p alone of a view changes each entry once. -/
theorem State.each_fins {n : Nat} {β : Type} (v : State → Fin n → β) (g : Fin n → β → β) {f : Fin n → State → State}
    (h : ∀ p s q, v (f p s) q = if q = p then g p (v s p) else v s q) (s : State) (q : Fin n) :
    v (s.each (fins n) f) q = g q (v s q) := by
  have listed (l : List (Fin n)) (hl : l.Nodup) (s : State) : v (s.each l f) q = if q ∈ l then g q (v s q) else v s q := by
    unfold State.each
    induction l generalizing s with
    | nil => simp
    | cons p l ih =>
      obtain ⟨hp, hl⟩ := List.nodup_cons.mp hl
      rw [List.foldl_cons, ih hl, h]
      by_cases e : q = p
      · subst e; simp [hp]
      · simp [e]
  rw [fins, listed _ (List.nodup_finRange n), if_pos (List.mem_finRange q)]

/-! ## The power of a port -/

/-- What PS3 turns down and brings back at a port: the levels of its spindle, its training state, and its presence pin, which
decides whether it trains again. -/
structure PortPower where
  levelCmd : Nat
  levelPs3 : Nat
  train : Fin 16
  present : Bool

def State.portPower (s : State) (p : PortId) : PortPower :=
  ⟨(s.spin p).levelCmd, (s.spin p).levelPs3, (s.port p).train, s.pins.prsnt.getLsbD p.val⟩

theorem State.portPower_eq {s : State} {p : PortId} {x : PortPower} (h : s.portPower p = x) :
    (s.spin p).levelCmd = x.levelCmd ∧ (s.spin p).levelPs3 = x.levelPs3 ∧ (s.port p).train = x.train := by
  subst h
  exact ⟨rfl, rfl, rfl⟩

/-- Commanded to a level. -/
def PortPower.told (n : Nat) (x : PortPower) : PortPower := { x with levelCmd := n }

/-- Commanded down for PS3, the level kept. -/
def PortPower.down (x : PortPower) : PortPower := { x with levelCmd := 0, levelPs3 := x.levelCmd }

/-- A port that is off and present trains from state 2. -/
def PortPower.retrained (x : PortPower) : PortPower :=
  { x with train := if x.train = 0xC ∧ x.present = true then 2 else x.train }

theorem State.Moves.portPower {l : List Part} {s t : State} (m : s.Moves l t) (hp : Part.ports ∉ l) (hs : Part.spins ∉ l)
    (hn : Part.pins ∉ l) : t.portPower = s.portPower := by
  have ports : t.ports = s.ports := m.only .ports hp
  have spins : t.spins = s.spins := m.only .spins hs
  have pins : t.pins = s.pins := m.only .pins hn
  unfold State.portPower State.port State.spin
  rw [ports, spins, pins]

@[simp] theorem State.modPort_portPower {p : PortId} {f : Port → Port} (hf : ∀ x, (f x).train = x.train) (s : State) :
    (s.modPort p f).portPower = s.portPower := by
  funext q
  by_cases e : q = p
  · subst e; simp [State.portPower, hf]
  · simp [State.portPower, e]

@[simp] theorem State.modSpin_portPower {p : PortId} {f : Spin → Spin}
    (hf : ∀ v, (f v).levelCmd = v.levelCmd ∧ (f v).levelPs3 = v.levelPs3) (s : State) :
    (s.modSpin p f).portPower = s.portPower := by
  funext q
  by_cases e : q = p
  · subst e; simp [State.portPower, hf]
  · simp [State.portPower, e]

@[simp] theorem State.modAct_portPower (a f) (s : State) : (s.modAct a f).portPower = s.portPower := rfl
@[simp] theorem State.modSeq_portPower (a f) (s : State) : (s.modSeq a f).portPower = s.portPower := rfl
@[simp] theorem State.modPool_portPower (a f) (s : State) : (s.modPool a f).portPower = s.portPower := rfl

@[simp] theorem State.ite_portPower {c : Prop} [Decidable c] (s t : State) :
    (if c then s else t).portPower = if c then s.portPower else t.portPower := apply_ite State.portPower c s t

/-! ### Service left -/

@[simp] theorem State.noteService_portPower (p) (s : State) : (s.noteService p).portPower = s.portPower :=
  (State.noteService_moves p s).portPower (by decide) (by decide) (by decide)

@[simp] theorem State.noteRequest_portPower (a) (s : State) : (s.noteRequest a).portPower = s.portPower :=
  (State.noteRequest_moves a s).portPower (by decide) (by decide) (by decide)

@[simp] theorem State.endSession_portPower (a) (s : State) : (s.endSession a).portPower = s.portPower :=
  (State.endSession_moves a s).portPower (by decide) (by decide) (by decide)

@[simp] theorem State.abandonBreak_portPower (a) (s : State) : (s.abandonBreak a).portPower = s.portPower :=
  (State.abandonBreak_moves a s).portPower (by decide) (by decide) (by decide)

@[simp] theorem State.sendUrgent_portPower (p op l) (s : State) : (s.sendUrgent p op l).portPower = s.portPower :=
  State.modPort_portPower (fun _ => by split <;> rfl) s

@[simp] theorem State.sendRequest_portPower (p op l) (s : State) : (s.sendRequest p op l).portPower = s.portPower :=
  State.modPort_portPower (fun _ => by split <;> rfl) s

@[simp] theorem State.dropBits_portPower (a) (s : State) : (s.dropBits a).portPower = s.portPower := by
  simp [State.dropBits]

@[simp] theorem State.cancelGates_portPower (a r w) (s : State) : (s.cancelGates a r w).portPower = s.portPower := by
  simp [State.cancelGates, State.when, State.sendCancel]

@[simp] theorem State.seqToIdle_portPower (a r) (s : State) : (s.seqToIdle a r).portPower = s.portPower := by
  simp [State.seqToIdle, State.idleEncoder]

@[simp] theorem State.quiesce_portPower (r a) (s : State) : (s.quiesce r a).portPower = s.portPower := by
  simp [State.quiesce]

@[simp] theorem State.leaveService_portPower (p r) (s : State) : (s.leaveService p r).portPower = s.portPower := by
  have sides := State.each_keeps State.portPower (fun sd t => State.quiesce_portPower r (actOf p sd) t) (fins 2) s
  simp [State.leaveService, sides]

@[simp] theorem State.unload_portPower (a) (s : State) : (s.unload a).portPower = s.portPower := by
  simp [State.unload, State.sendPark]

@[simp] theorem State.unloadSides_portPower (p) (s : State) : (s.unloadSides p).portPower = s.portPower :=
  State.each_keeps _ (fun _ t => by simp [State.when]) _ s

/-! ### Spindles driven -/

@[simp] theorem State.sendDrive_portPower (p m u v w n) (s : State) : (s.sendDrive p m u v w n).portPower = s.portPower := by
  simp [State.sendDrive]

@[simp] theorem State.freeSlot_portPower (p) (s : State) : (s.freeSlot p).portPower = s.portPower := by
  simp [State.freeSlot]

@[simp] theorem State.coast_portPower (p) (s : State) : (s.coast p).portPower = s.portPower := by
  simp [State.coast]

@[simp] theorem State.driveStep_portPower (p st u n) (s : State) : (s.driveStep p st u n).portPower = s.portPower := by
  simp [State.driveStep]

@[simp] theorem State.regen_portPower (p) (s : State) : (s.regen p).portPower = s.portPower := by
  unfold State.regen
  extract_lets v t last
  have ht : t.portPower = s.portPower := State.modSpin_portPower (by simp) s
  split <;> simp [ht]

@[simp] theorem State.brakeDown_portPower (p) (s : State) : (s.brakeDown p).portPower = s.portPower := by
  simp [State.brakeDown, State.shortBrake]

@[simp] theorem State.spinDown_portPower (p) (s : State) : (s.spinDown p).portPower = s.portPower := by
  simp [State.spinDown]

/-! ### Levels commanded -/

@[simp] theorem State.completeWait_portPower (w) (s : State) : (s.completeWait w).portPower = s.portPower :=
  (State.completeWait_moves w s).portPower (by decide) (by decide) (by decide)

@[simp] theorem State.levelWhileStopping_portPower (p n) (s : State) : (s.levelWhileStopping p n).portPower = s.portPower := by
  simp [State.levelWhileStopping]

@[simp] theorem State.levelWhileTurning_portPower (p n) (s : State) : (s.levelWhileTurning p n).portPower = s.portPower := by
  simp [State.levelWhileTurning, State.takeLevel]

/-- Whatever the spindle then does, a level commanded changes nothing else of any port's power. -/
theorem State.setLevel_portPower (p : PortId) (n : Nat) (s : State) (q : PortId) :
    (s.setLevel p n).portPower q = if q = p then (s.portPower p).told n else s.portPower q := by
  have driven : (s.setLevel p n).portPower = (s.modSpin p fun v => { v with levelCmd := n }).portPower := by
    simp [State.setLevel, State.askStart]
  rw [driven]
  by_cases e : q = p
  · subst e; simp [State.portPower, PortPower.told]
  · simp [State.portPower, e]

theorem State.ps3SpinDown_portPower (p : PortId) (s : State) (q : PortId) :
    (s.ps3SpinDown p).portPower q = if q = p then (s.portPower p).down else s.portPower q := by
  unfold State.ps3SpinDown
  extract_lets v t
  rw [State.ite_portPower, State.spinDown_portPower, ite_self]
  by_cases e : q = p
  · subst e; simp [t, State.portPower, PortPower.down]
  · simp [t, State.portPower, e]

/-! ## No command in the device -/

theorem State.complete_noCtx {s : State} (h : s.ctxs = []) (c : Nat) (r : Cpl) : s.complete c r = s := by
  simp [State.complete, State.ctx?, h]

theorem State.abandonBreak_noCtx {s : State} (h : s.ctxs = []) (a : ActId) : (s.abandonBreak a).ctxs = [] := by
  unfold State.abandonBreak
  split
  · exact h
  next b _ =>
    extract_lets ms t u
    have hu : u.ctxs = [] := ((State.raiseCal_moves a 1 [] t).only .ctxs (by decide)).trans h
    split
    next c _ => rw [State.complete_noCtx hu, hu]
    · exact ((State.fullPoint_moves a u).only .ctxs (by decide)).trans hu
    · exact hu

theorem State.quiesce_noCtx {s : State} (h : s.ctxs = []) (r : Bool) (a : ActId) : (s.quiesce r a).ctxs = [] := by
  have m : s.Moves [.ports, .seqs, .chorus] (((s.cancelGates a true true).seqToIdle a r).endSession a) :=
    Moves.op (State.endSession_moves _ _) (by decide) (Moves.op (State.seqToIdle_moves _ _ _) (by decide)
      (State.cancelGates_moves _ _ _ _))
  exact State.abandonBreak_noCtx ((m.only .ctxs (by decide)).trans h) a

theorem State.settleDeletes_noCtx {s : State} (h : s.ctxs = []) : s.settleDeletes = s := by
  simp [State.settleDeletes, State.each, h]

theorem State.noteDirty_dirtyBytes (s : State) : s.noteDirty.dirtyBytes = s.dirtyBytes := by
  unfold State.noteDirty
  extract_lets d keys t going u
  have dropped (b) : (u.when b State.dropDump).dirtyBytes = u.dirtyBytes := by
    unfold State.when
    split <;> rfl
  exact dropped _

theorem State.Moves.dirtyBytes {l : List Part} {s t : State} (m : s.Moves l t) (hn : Part.names ∉ l) : t.dirtyBytes = s.dirtyBytes :=
  congrArg (fun n : Names => 4096 * (n.unstored.length + n.pagesDirty.length + n.dirsDirty.length)) (m.only .names hn)

/-- With no command in the device, what a clean buffer lets end is a shutdown, a page's retirement and entry to PS3. -/
theorem State.noteClean_noCtx {s : State} (h : s.ctxs = []) :
    ∃ t, s.Moves [.aon, .nor, .book, .fa, .fb, .names, .prot, .mem, .free] t ∧
      s.noteClean = if s.power.entering = true ∧ s.dirtyBytes = 0 then t.ps3Reached else t := by
  have later (u : State) : u.Moves [.aon, .nor, .book, .fa, .fb, .mem, .free] (((u.shutdownDone .a).shutdownDone .b).retireWaiting) :=
    Moves.op (State.retireWaiting_moves _) (by decide) (Moves.op (State.shutdownDone_moves _ _) (by decide)
      (Moves.op (State.shutdownDone_moves _ _) (by decide) (Moves.refl _ _)))
  have m := Moves.op (later s.noteDirty) (l := [.aon, .nor, .book, .fa, .fb, .names, .prot, .mem, .free]) (by decide)
    (Moves.op (State.noteDirty_moves s) (by decide) (Moves.refl _ _))
  refine ⟨_, m, ?_⟩
  unfold State.noteClean
  rw [State.settleDeletes_noCtx h]
  dsimp only
  rw [(later s.noteDirty).dirtyBytes (by decide), State.noteDirty_dirtyBytes,
    show (((s.noteDirty.shutdownDone .a).shutdownDone .b).retireWaiting).power = s.power from m.only .power (by decide)]

/-! ## Entry to PS3 and exit from it -/

/-- PS3_ENTRY with no command in the device: the entry begins, and with nothing dirty PS3 is reached. -/
theorem execPs3Entry_begins {s : State} (hb : s.boot.complete = true) (hg : s.govPs = 3) (he : s.power.entering = false)
    (hp : s.power.inPs3 = false) (hc : s.ctxs = []) :
    ∃ t, execPs3Entry s = .next (if s.dirtyBytes = 0 then t.ps3Reached else t) ∧
      t.power = { s.power with entering := true, leaving := false } ∧ t.spins = s.spins := by
  unfold execPs3Entry
  rw [if_pos ⟨hb, hg, he, hp⟩]
  extract_lets s1 s2 s3 s4
  have m1 : (s.modPower fun w => { w with entering := true, leaving := false }).Moves
      [.aon, .nor, .book, .ctxs, .decisions, .prot, .ports, .seqs, .chorus, .actCals, .pair, .svc, .out] s4 := by
    refine Moves.each (fun _ _ h => Moves.op (State.fullPoint_moves _ _) (by decide) h) (Moves.each (fun _ _ h =>
      Moves.op (State.quiesce_moves _ _ _) (by decide) h) (Moves.op (State.modOps_moves _ _) (by decide)
        (Moves.op (State.noteServices_moves _) (by decide) (Moves.refl _ _))))
  have c2 : s2.ctxs = [] := ((State.modOps_moves LongOp.ps3Suspend s1).only .ctxs (by decide)).trans
    (((State.noteServices_moves _).only .ctxs (by decide)).trans hc)
  have c3 : s3.ctxs = [] := State.each_inv (P := fun t => t.ctxs = []) (fun a t h => State.quiesce_noCtx h false a) _ c2
  have c4 : s4.ctxs = [] := (State.each_keeps State.ctxs (fun a t => (State.fullPoint_moves a t).only .ctxs (by decide)) _ s3).trans c3
  obtain ⟨t, m, e⟩ := State.noteClean_noCtx c4
  have p4 : s4.power = { s.power with entering := true, leaving := false } := m1.only .power (by decide)
  have d4 : s4.dirtyBytes = s.dirtyBytes := m1.dirtyBytes (by decide)
  refine ⟨t, ?_, (m.only .power (by decide)).trans p4, (m.only .spins (by decide)).trans (m1.only .spins (by decide))⟩
  rw [e, p4, d4]
  simp

/-- PS3 reached: it is in force, and every spindle is commanded down with its level kept. -/
theorem State.ps3Reached_power (s : State) :
    s.ps3Reached.power = { s.power with entering := false, inPs3 := true, current := 3 } ∧
      ∀ p, s.ps3Reached.portPower p = (s.portPower p).down := by
  unfold State.ps3Reached
  extract_lets s1 s2 s3 s4 s5 s6
  have left : s3.portPower = s.portPower := State.each_keeps State.portPower (fun _ t => State.modPort_portPower (by simp) t) _ s2
  have written : s3.Moves [.actCals] s4 := Moves.each (fun _ _ h => Moves.ite (Moves.op (State.writeCalRecord_moves _ _) (by decide) h) h)
    (Moves.refl _ _)
  have down (p : PortId) : s5.portPower p = (s4.portPower p).down :=
    State.each_fins State.portPower (fun _ => PortPower.down) State.ps3SpinDown_portPower s4 p
  have after : s5.Moves [.aon, .book, .prot, .chorus, .mem, .mcache, .pair, .out]
      (((s6.modCache MapCache.clean).modMem fun m => { m with workAt := s6.now }).limitEngines).noteServices :=
    Moves.op (State.noteServices_moves _) (by decide) (Moves.op (State.limitEngines_moves _) (by decide)
      (Moves.op (State.modMem_moves _ _) (by decide) (Moves.op (State.modCache_moves _ _) (by decide)
        (Moves.when (fun _ h => Moves.each (fun _ _ h => Moves.op (State.sendWings_moves _ _ _ _) (by decide) h) h)
          (Moves.refl _ _)))))
  constructor
  · have p3 : s3.power = s1.power := State.each_keeps State.power (fun _ _ => by rfl) _ s2
    have p5 : s5.power = s4.power :=
      State.each_keeps State.power (fun p t => (State.ps3SpinDown_moves p t).only .power (by decide)) _ s4
    rw [show _ = s5.power from after.only .power (by decide), p5, show s4.power = s3.power from written.only .power (by decide), p3]
    rfl
  · intro p
    rw [after.portPower (by decide) (by decide) (by decide), down, written.portPower (by decide) (by decide) (by decide), left]

theorem State.retrain_portPower {p : PortId} {f : Port → Port} (hf : ∀ x, (f x).train = 2) (s : State) (q : PortId) :
    (if (s.port p).train = 0xC ∧ s.pins.prsnt.getLsbD p.val = true then s.modPort p f else s).portPower q =
      if q = p then (s.portPower p).retrained else s.portPower q := by
  by_cases e : q = p
  · subst e
    by_cases c : (s.port q).train = 0xC ∧ s.pins.prsnt.getLsbD q.val = true
    · rw [if_pos c]; simp [State.portPower, PortPower.retrained, hf, c]
    · rw [if_neg c, if_pos rfl]
      exact (congrArg (fun n => { s.portPower q with train := n }) (if_neg c)).symm
  · rw [if_neg e]
    split
    · simp [State.portPower, e]
    · rfl

/-- PS3 left: the governing state is in force, DRAM is out of self-refresh, and every port is at its level again and trains. -/
theorem State.leavePs3_power (s : State) :
    s.leavePs3.power = { s.power with entering := false, inPs3 := false, leaving := true, current := s.govPs } ∧
      s.leavePs3.mem.selfRefresh = false ∧
      ∀ p, s.leavePs3.portPower p = ((s.portPower p).told (s.spin p).levelPs3).retrained := by
  unfold State.leavePs3
  extract_lets s1 s2 s3 s4
  have resumed : s2.Moves [.nor, .prot] s3 := State.ps3Over_moves s2
  have limited : s4.Moves [.aon, .book, .chorus] s4.limitEngines := State.limitEngines_moves s4
  have served : s3.Moves [.aon, .nor, .book, .ctxs, .decisions, .prot, .ports, .spins, .acts, .seqs, .chorus, .actCals, .pair, .svc, .out] s4 := by
    refine Moves.each (fun p t h => Moves.ite ?_ ?_) (Moves.refl _ _)
    · exact State.modPort_leaves (fun _ => rfl) (by decide) (Moves.op (State.setLevel_moves _ _ _) (List.Subset.refl _) h)
    · exact Moves.op (State.setLevel_moves _ _ _) (List.Subset.refl _) h
  have back (p : PortId) : s4.portPower p = ((s3.portPower p).told (s3.portPower p).levelPs3).retrained := by
    refine State.each_fins State.portPower (fun _ x => (x.told x.levelPs3).retrained) (fun p t q => ?_) s3 p
    extract_lets u
    rw [State.retrain_portPower (fun _ => rfl), State.setLevel_portPower, State.setLevel_portPower, if_pos rfl]
    by_cases e : q = p
    · simp only [if_pos e]; rfl
    · simp only [if_neg e]
  refine ⟨?_, ?_, fun p => ?_⟩
  · exact ((limited.only .power (by decide)).trans (served.only .power (by decide))).trans (resumed.only .power (by decide))
  · have mem : s4.limitEngines.mem = s2.mem :=
      ((limited.only .mem (by decide)).trans (served.only .mem (by decide))).trans (resumed.only .mem (by decide))
    rw [mem]; rfl
  · rw [limited.portPower (by decide) (by decide) (by decide), back, resumed.portPower (by decide) (by decide) (by decide)]
    rfl

/-! ## The commands of the power states -/

/-- PS3_ENTRY with dirty data waits for the destage (R40). -/
theorem ps3Entry_dirty {s : State} (hb : s.boot.complete = true) (hg : s.govPs = 3) (he : s.power.entering = false)
    (hp : s.power.inPs3 = false) (hd : 0 < s.dirtyBytes) (hc : s.ctxs = []) :
    Does .ps3Entry s fun t => t.power.entering = true ∧ t.power.inPs3 = false ∧ t.power.leaving = false ∧ t.spins = s.spins := by
  obtain ⟨t, run, power, spins⟩ := execPs3Entry_begins hb hg he hp hc
  rw [if_neg (Nat.ne_of_gt hd)] at run
  exact ⟨t, run, by rw [power], by rw [power, ← hp], by rw [power], spins⟩

/-- PS3_ENTRY with nothing dirty is complete at once (R40). -/
theorem ps3Entry_clean {s : State} (hb : s.boot.complete = true) (hg : s.govPs = 3) (he : s.power.entering = false)
    (hp : s.power.inPs3 = false) (hd : s.dirtyBytes = 0) (hc : s.ctxs = []) :
    Does .ps3Entry s fun t => t.power.inPs3 = true ∧ t.power.entering = false ∧ t.power.current = 3 ∧
      ∀ p : PortId, (t.spin p).levelCmd = 0 ∧ (t.spin p).levelPs3 = (s.spin p).levelCmd := by
  obtain ⟨t, run, _, spins⟩ := execPs3Entry_begins hb hg he hp hc
  rw [if_pos hd] at run
  obtain ⟨power, down⟩ := t.ps3Reached_power
  have spin (p) : t.spin p = s.spin p := congrArg (·[p]) spins
  refine ⟨_, run, by rw [power], by rw [power], by rw [power], fun p => ?_⟩
  obtain ⟨cmd, kept, _⟩ := State.portPower_eq (down p)
  exact ⟨cmd, by rw [kept, ← spin p]; rfl⟩

/-- PS3_SAMPLE_LANE_OFF of a port at rest (R42). -/
theorem ps3SampleLaneOff_at_rest {s : State} {p : PortId} (hp : s.power.inPs3 = true) (ht : (s.port p).train = 9)
    (hs : (s.spin p).st = .stopped) (hr : (s.spin p).turning = false)
    (hl : ((fins 2).all fun y => !(s.act (actOf p y)).loaded) = true) :
    Does (.ps3SampleLaneOff p) s fun t => (t.port p).train = 0xC ∧ (t.port p).joint = true ∧ (t.port p).inService = false ∧
      (t.port p).events = (s.port p).events ∧ (t.port p).resets = (s.port p).resets ∧ (∀ q, q ≠ p → t.port q = s.port q) ∧
      t.names = s.names ∧ t.xing = s.xing := by
  refine ⟨_, congrArg Host.Outcome.next (if_pos ⟨hp, ht, .inl hs, hr, hl⟩), ?_⟩
  simp +contextual

/-- PS3_EXIT in PS3 (R41, R42). -/
theorem ps3Exit_inPs3 {s : State} (hg : s.govPs ≠ 3) (hp : s.power.inPs3 = true) :
    Does .ps3Exit s fun t => t.power.inPs3 = false ∧ t.power.leaving = true ∧ t.power.current = s.govPs ∧
      t.mem.selfRefresh = false ∧ (∀ p : PortId, (t.spin p).levelCmd = (s.spin p).levelPs3) ∧
      (∀ p : PortId, (s.port p).train = 0xC → s.pins.prsnt.getLsbD p.val = true → (t.port p).train = 2) ∧ t.names = s.names := by
  obtain ⟨power, mem, back⟩ := s.leavePs3_power
  have run : execPs3Exit s = .next s.leavePs3 := by unfold execPs3Exit; rw [if_neg hg, if_pos hp]
  refine ⟨_, run, by rw [power], by rw [power], by rw [power], mem, fun p => ?_, fun p ht hn => ?_,
    s.leavePs3_moves.only .names (by decide)⟩
  · obtain ⟨cmd, _, _⟩ := State.portPower_eq (back p)
    exact cmd
  · obtain ⟨_, _, train⟩ := State.portPower_eq (back p)
    exact train.trans (if_pos ⟨ht, hn⟩)

/-- PS3_EXIT gives up an entry under way (R41). -/
theorem ps3Exit_entering {s : State} (hg : s.govPs ≠ 3) (hp : s.power.inPs3 = false) (he : s.power.entering = true) :
    Does .ps3Exit s fun t => t.power.entering = false ∧ t.power.inPs3 = false ∧ t.spins = s.spins ∧ t.ports = s.ports ∧
      t.names = s.names := by
  have run : execPs3Exit s = .next (s.modPower fun w => { w with entering := false }).ps3Over := by
    unfold execPs3Exit
    rw [if_neg hg, if_neg (by simp [hp]), if_pos he]
  have m := State.ps3Over_moves (s.modPower fun w => { w with entering := false })
  have power := m.only .power (by decide)
  exact ⟨_, run, congrArg Power.entering power, (congrArg Power.inPs3 power).trans hp, m.only .spins (by decide),
    m.only .ports (by decide), m.only .names (by decide)⟩

theorem dramSelfRefreshEntry_idle {s : State} (hp : s.power.inPs3 = true) (hr : s.mem.selfRefresh = false) (hi : s.dramIdle = true) :
    Does .dramSelfRefreshEntry s fun t => t.mem.selfRefresh = true ∧ max s.mem.workAt s.svc.endedAt + Config.ms ≤ t.now ∧
      t.power = s.power ∧ t.names = s.names :=
  ⟨_, congrArg Host.Outcome.next (if_pos ⟨hp, hr, hi⟩), rfl, Nat.le_max_right _ _, rfl, rfl⟩

theorem dramSelfRefreshExit_inPs3 {s : State} (hp : s.power.inPs3 = true) (hr : s.mem.selfRefresh = true) :
    Does .dramSelfRefreshExit s fun t => t.mem.selfRefresh = false ∧ t.mem.workAt = s.now ∧ t.power = s.power ∧ t.names = s.names :=
  ⟨_, congrArg Host.Outcome.next (if_pos ⟨hp, hr⟩), rfl, rfl, rfl, rfl⟩

theorem powerStateChange_operational {s : State} (hg : s.govPs ≠ 3) (hp : s.power.inPs3 = false) :
    Does .powerStateChange s fun t => t.power = { s.power with current := s.govPs } ∧ t.spins = s.spins ∧ t.ports = s.ports ∧
      t.names = s.names := by
  have m := State.limitEngines_moves (s.modPower fun w => { w with current := s.govPs })
  exact ⟨_, congrArg Host.Outcome.next (if_neg (by simp [hg, hp])), m.only .power (by decide), m.only .spins (by decide),
    m.only .ports (by decide), m.only .names (by decide)⟩

/-- Settles O40: each clause is the lemma of its command above. -/
theorem powerCommands : Obligations.PowerCommands :=
  ⟨fun _ hb hg he hp hd hc => ps3Entry_dirty hb hg he hp hd hc, fun _ hb hg he hp hd hc _ => ps3Entry_clean hb hg he hp hd hc,
    fun _ _ hp ht hs hr hl => ps3SampleLaneOff_at_rest hp ht hs hr hl, fun _ hg hp => ps3Exit_inPs3 hg hp,
    fun _ hg hp he => ps3Exit_entering hg hp he, fun _ hp hr hi => dramSelfRefreshEntry_idle hp hr hi,
    fun _ hp hr => dramSelfRefreshExit_inPs3 hp hr, fun _ hg hp => powerStateChange_operational hg hp⟩

/-- Settles O2: the step of an empty queue is the idle operation. -/
theorem idleStep : Obligations.IdleStep := by
  unfold Obligations.IdleStep
  intro s h
  unfold step
  split
  · rfl
  next e => rw [h] at e; cases e

end Sys2Proof.Machine
end

section
/-! SUPPORT. Every command answers a next state, which differs from the state before in the parts that touches lists for it alone and
keeps the invariant: the case split over the commands, each closed by its own law. From it, the invariant along a step. -/

namespace Sys2Proof.Machine

theorem Moves.wider {l m : List Part} {o : Host.Outcome State Fault Refusal} {s : State} (k : ∃ t, o = .next t ∧ s.Moves l t) (h : l ⊆ m) :
    ∃ t, o = .next t ∧ s.Moves m t := by
  obtain ⟨t, e, moves⟩ := k
  exact ⟨t, e, Moves.op moves h (Moves.refl m s)⟩

/-- What a command may do, said once for all of them. -/
theorem exec_moves (i : Instr) (s : State) : ∃ t, exec i s = .next t ∧ s.Moves (touches i) t :=
  match i with
  | .aonPwrokRise => execAonPwrokRise_moves s
  | .sysPwrokAssert => execSysPwrokAssert_moves s
  | .mainColdResetRelease => execMainColdResetRelease_moves s
  | .sysPwrokDeassert => execSysPwrokDeassert_moves s
  | .brownout => execBrownout_moves s
  | .crystalQualified => execCrystalQualified_moves s
  | .crystalQualifyTimeout => execCrystalQualifyTimeout_moves s
  | .pllLockTimeout => execPllLockTimeout_moves s
  | .bootRomSelfTest _ => execBootRomSelfTest_moves _ s
  | .memoryFillDone _ => execMemoryFillDone_moves _ s
  | .dramTrainingDone _ _ => execDramTrainingDone_moves _ _ s
  | .dramChannelTrainingFail _ => execDramChannelTrainingFail_moves _ s
  | .imageLoaded => execImageLoaded_moves s
  | .attestationKeyDerivation => execAttestationKeyDerivation_moves s
  | .processorsRelease => execProcessorsRelease_moves s
  | .moduleLoad _ => execModuleLoad_moves _ s
  | .bootComplete => execBootComplete_moves s
  | .watchdogService => execWatchdogService_moves s
  | .watchdogExpiry => Moves.wider (execWatchdogExpiry_moves s) (by decide)
  | .refclkLinkCheck _ => execRefclkLinkCheck_moves _ s
  | .perstAssert _ _ => execPerstAssert_moves _ _ s
  | .perstDeassert _ => execPerstDeassert_moves _ s
  | .perstOverlap => Moves.wider (execPerstOverlap_moves s) (by decide)
  | .pwrfailDeassert => Moves.wider (execPwrfailDeassert_moves s) (by decide)
  | .deferredWarmReset => Moves.wider (execDeferredWarmReset_moves s) (by decide)
  | .configRequestReady _ => execConfigRequestReady_moves _ s
  | .ccEnSet _ _ _ => execCcEnSet_moves _ _ _ s
  | .ccEnClear _ => execCcEnClear_moves _ s
  | .normalShutdown _ => execNormalShutdown_moves _ s
  | .abruptShutdown _ => execAbruptShutdown_moves _ s
  | .functionLevelReset _ => execFunctionLevelReset_moves _ s
  | .pmcsrD3hot _ _ _ => execPmcsrD3hot_moves _ _ _ s
  | .pmcsrD0 _ _ _ => execPmcsrD0_moves _ _ _ s
  | .startSlotGrant => execStartSlotGrant_moves s
  | .startSlotFree _ => execStartSlotFree_moves _ s
  | .startSlotTimeout _ => execStartSlotTimeout_moves _ s
  | .ps3Entry => execPs3Entry_moves s
  | .ps3SampleLaneOff _ => execPs3SampleLaneOff_moves _ s
  | .ps3Exit => execPs3Exit_moves s
  | .dramSelfRefreshExit => execDramSelfRefreshExit_moves s
  | .dramSelfRefreshEntry => execDramSelfRefreshEntry_moves s
  | .powerStateChange => execPowerStateChange_moves s
  | .engineGated _ => execEngineGated_moves _ s
  | .lineBlockReceived _ _ _ => execLineBlockReceived_moves _ _ _ s
  | .commandLaneBlockSend _ => execCommandLaneBlockSend_moves _ s
  | .packetResponseTimeout _ _ => execPacketResponseTimeout_moves _ _ s
  | .status _ => execStatus_moves _ s
  | .spinEvent _ => execSpinEvent_moves _ s
  | .regulationRecoveryTimeout _ => execRegulationRecoveryTimeout_moves _ s
  | .missedCrossing _ => execMissedCrossing_moves _ s
  | .spindleDriveRepeat _ => execSpindleDriveRepeat_moves _ s
  | .listenWindowClose _ => execListenWindowClose_moves _ s
  | .shortBrakeDone _ => execShortBrakeDone_moves _ s
  | .spindleSenseResponse _ => execSpindleSenseResponse_moves _ s
  | .spindleSenseRetry _ => execSpindleSenseRetry_moves _ s
  | .alignmentDone _ => execAlignmentDone_moves _ s
  | .forcedStep _ => execForcedStep_moves _ s
  | .spinDown _ => execSpinDown_moves _ s
  | .spinAlert _ => execSpinAlert_moves _ s
  | .gateError _ => execGateError_moves _ s
  | .fenced _ => execFenced_moves _ s
  | .fenceResponse _ => execFenceResponse_moves _ s
  | .identReadResponse _ => execIdentReadResponse_moves _ s
  | .measureReadResponse _ => execMeasureReadResponse_moves _ s
  | .persReadResponse _ => execPersReadResponse_moves _ s
  | .persReadRetry _ => execPersReadRetry_moves _ s
  | .actParkResponse _ => execActParkResponse_moves _ s
  | .actParkRetry _ _ => execActParkRetry_moves _ _ s
  | .headConfigResponse _ => execHeadConfigResponse_moves _ s
  | .fwWriteResponse _ => execFwWriteResponse_moves _ s
  | .fwActivateResponse _ => execFwActivateResponse_moves _ s
  | .trainingStatePass _ => execTrainingStatePass_moves _ s
  | .trainingStateTimeout _ => execTrainingStateTimeout_moves _ s
  | .hotAdd _ => execHotAdd_moves _ s
  | .hotRemove _ _ => execHotRemove_moves _ _ s
  | .clockPresentSet _ _ => execClockPresentSet_moves _ _ s
  | .clockPresentClear _ _ => execClockPresentClear_moves _ _ s
  | .jointResetRelease _ => execJointResetRelease_moves _ s
  | .staleCrossing _ _ => execStaleCrossing_moves _ _ s
  | .pulseTransfer _ _ => execPulseTransfer_moves _ _ s
  | .servoReload _ => execServoReload_moves _ s
  | .compensatorEvaluation _ => execCompensatorEvaluation_moves _ s
  | .seekTimeout _ => execSeekTimeout_moves _ s
  | .settleTimeout _ => execSettleTimeout_moves _ s
  | .newTarget _ _ _ => execNewTarget_moves _ _ _ s
  | .descriptorQueued _ _ => execDescriptorQueued_moves _ _ s
  | .microwordExecute _ _ => execMicrowordExecute_moves _ _ s
  | .operationTimeout _ => execOperationTimeout_moves _ s
  | .sequencerFaultReinit _ => execSequencerFaultReinit_moves _ s
  | .bankSwitch _ => execBankSwitch_moves _ s
  | .bootPatchLoad => execBootPatchLoad_moves s
  | .bindingRequest _ _ => execBindingRequest_moves _ _ s
  | .engineReclaim => execEngineReclaim_moves s
  | .backgroundPromotion _ => execBackgroundPromotion_moves _ s
  | .waitAlarm _ => execWaitAlarm_moves _ s
  | .sectorDecoded _ _ _ => execSectorDecoded_moves _ _ _ s
  | .recoveryStep _ _ => execRecoveryStep_moves _ _ s
  | .recoveryBudgetExpiry _ => execRecoveryBudgetExpiry_moves _ s
  | .engineFault _ => execEngineFault_moves _ s
  | .engineSelfTestDone _ _ => execEngineSelfTestDone_moves _ _ s
  | .encoderReady _ => execEncoderReady_moves _ s
  | .stagingError _ => execStagingError_moves _ s
  | .readSpill _ => execReadSpill_moves _ s
  | .calibrationBreakStart _ => execCalibrationBreakStart_moves _ s
  | .calibrationPassDone _ _ _ => execCalibrationPassDone_moves _ _ _ s
  | .breakAbandon _ => execBreakAbandon_moves _ s
  | .calibrationRecordWrite _ _ => execCalibrationRecordWrite_moves _ _ s
  | .calibrationRecordLoad _ => execCalibrationRecordLoad_moves _ s
  | .temperatureStale _ => execTemperatureStale_moves _ s
  | .calReconstruct _ => execCalReconstruct_moves _ s
  | .deferralExpiry => execDeferralExpiry_moves s
  | .destageRow _ _ _ => execDestageRow_moves _ _ _ s
  | .mediaCacheRowWrite _ _ _ => execMediaCacheRowWrite_moves _ _ _ s
  | .reconstructRead _ _ => execReconstructRead_moves _ _ s
  | .rowWriteDone _ _ _ => execRowWriteDone_moves _ _ _ s
  | .memberFailed _ => execMemberFailed_moves _ s
  | .memberReturned _ => execMemberReturned_moves _ s
  | .reallocation _ _ _ => execReallocation_moves _ _ _ s
  | .understudyStart => execUnderstudyStart_moves s
  | .sourceRunRead _ _ _ _ => execSourceRunRead_moves _ _ _ _ s
  | .stripeCommit _ _ _ => execStripeCommit_moves _ _ _ s
  | .rebuildCheckpoint => execRebuildCheckpoint_moves s
  | .rebuildResume => execRebuildResume_moves s
  | .rebuildBlocked => execRebuildBlocked_moves s
  | .returnPhaseCopy _ _ _ => execReturnPhaseCopy_moves _ _ _ s
  | .surfaceScanStrip _ _ _ _ => execSurfaceScanStrip_moves _ _ _ _ s
  | .fullHdaFormatBand _ _ _ => execFullHdaFormatBand_moves _ _ _ s
  | .sanitizeBand _ => execSanitizeBand_moves _ s
  | .firmwareStagingBlock _ => execFirmwareStagingBlock_moves _ s
  | .cleaning => execCleaning_moves s
  | .reclamation _ => execReclamation_moves _ s
  | .mapPageRead _ _ => execMapPageRead_moves _ _ s
  | .writePointerRecovery _ _ => execWritePointerRecovery_moves _ _ s
  | .effectiveLimitDrop => execEffectiveLimitDrop_moves s
  | .powerFailDump _ => execPowerFailDump_moves _ s
  | .dumpEndMark _ => execDumpEndMark_moves _ s
  | .dumpRestore _ _ => execDumpRestore_moves _ _ s
  | .mapJournalReplay => execMapJournalReplay_moves s
  | .sqTailDoorbell _ _ _ _ => execSqTailDoorbell_moves _ _ _ _ s
  | .cqHeadDoorbell _ _ _ _ => execCqHeadDoorbell_moves _ _ _ _ s
  | .invalidDoorbellRegister _ _ => execInvalidDoorbellRegister_moves _ _ s
  | .fetchTurn _ _ _ => execFetchTurn_moves _ _ _ s
  | .admission => execAdmission_moves s
  | .applyPoint _ _ => execApplyPoint_moves _ _ s
  | .completionPost _ _ => execCompletionPost_moves _ _ s
  | .coalescingTimer _ _ => execCoalescingTimer_moves _ _ s
  | .msixUnmask _ _ => execMsixUnmask_moves _ _ s
  | .anaChange _ _ _ => execAnaChange_moves _ _ _ s
  | .read _ => execRead_moves _ s
  | .write _ => execWrite_moves _ s
  | .writeZeroes _ => execWriteZeroes_moves _ s
  | .zoneAppend _ => execZoneAppend_moves _ s
  | .datasetManagement _ => execDatasetManagement_moves _ s
  | .flush _ => execFlush_moves _ s
  | .zoneOpen _ => execZoneOpen_moves _ s
  | .zoneClose _ => execZoneClose_moves _ s
  | .zoneFinish _ => execZoneFinish_moves _ s
  | .zoneReset _ => execZoneReset_moves _ s
  | .zoneOffline _ => execZoneOffline_moves _ s
  | .setZoneDescriptorExtension _ => execSetZoneDescriptorExtension_moves _ s
  | .reportZones _ => execReportZones_moves _ s
  | .extendedReportZones _ => execExtendedReportZones_moves _ s
  | .namespaceCreate _ => execNamespaceCreate_moves _ s
  | .namespaceDelete _ => execNamespaceDelete_moves _ s
  | .formatNvm _ => execFormatNvm_moves _ s
  | .sanitize _ => execSanitize_moves _ s
  | .identify _ => execIdentify_moves _ s
  | .asynchronousEventRequest _ => execAsynchronousEventRequest_moves _ s
  | .abort _ => execAbort_moves _ s
  | .createIoSubmissionQueue _ => execCreateIoSubmissionQueue_moves _ s
  | .createIoCompletionQueue _ => execCreateIoCompletionQueue_moves _ s
  | .deleteIoSubmissionQueue _ => execDeleteIoSubmissionQueue_moves _ s
  | .deleteIoCompletionQueue _ => execDeleteIoCompletionQueue_moves _ s
  | .doorbellBufferConfig _ => execDoorbellBufferConfig_moves _ s
  | .queueResume _ => execQueueResume_moves _ s
  | .getFeatures _ => execGetFeatures_moves _ s
  | .setFeaturesArbitration _ => execSetFeaturesArbitration_moves _ s
  | .setFeaturesPowerManagement _ => execSetFeaturesPowerManagement_moves _ s
  | .setFeaturesTemperatureThreshold _ => execSetFeaturesTemperatureThreshold_moves _ s
  | .setFeaturesVolatileWriteCache _ => execSetFeaturesVolatileWriteCache_moves _ s
  | .setFeaturesNumberOfQueues _ => execSetFeaturesNumberOfQueues_moves _ s
  | .setFeaturesInterruptCoalescing _ => execSetFeaturesInterruptCoalescing_moves _ s
  | .setFeaturesInterruptVectorConfig _ => execSetFeaturesInterruptVectorConfig_moves _ s
  | .setFeaturesAsyncEventConfig _ => execSetFeaturesAsyncEventConfig_moves _ s
  | .setFeaturesFreezeOnError _ => execSetFeaturesFreezeOnError_moves _ s
  | .setFeaturesThrottleGrace _ => execSetFeaturesThrottleGrace_moves _ s
  | .setFeaturesRebuildShare _ => execSetFeaturesRebuildShare_moves _ s
  | .setFeaturesConcurrentWriteLimit _ => execSetFeaturesConcurrentWriteLimit_moves _ s
  | .setFeaturesCalibrationThreshold _ => execSetFeaturesCalibrationThreshold_moves _ s
  | .getLogPageErrorInformation _ => execGetLogPageErrorInformation_moves _ s
  | .getLogPageSmartHealth _ => execGetLogPageSmartHealth_moves _ s
  | .getLogPageCommandsSupported _ => execGetLogPageCommandsSupported_moves _ s
  | .getLogPageAna _ => execGetLogPageAna_moves _ s
  | .getLogPagePlaybill _ => execGetLogPagePlaybill_moves _ s
  | .getLogPagePromptBook _ => execGetLogPagePromptBook_moves _ s
  | .getLogPageSledHealth _ => execGetLogPageSledHealth_moves _ s
  | .getLogPagePortInventory _ => execGetLogPagePortInventory_moves _ s
  | .longOperationStart _ => execLongOperationStart_moves _ s
  | .longOperationSuspend _ => execLongOperationSuspend_moves _ s
  | .longOperationResume _ => execLongOperationResume_moves _ s
  | .longOperationCancel _ => execLongOperationCancel_moves _ s
  | .longOperationQuery _ => execLongOperationQuery_moves _ s
  | .longOperationList _ => execLongOperationList_moves _ s
  | .setRebuildParameters _ => execSetRebuildParameters_moves _ s
  | .portControlQuery _ => execPortControlQuery_moves _ s
  | .setSpeedLevel _ => execSetSpeedLevel_moves _ s
  | .portControlPortReset _ => execPortControlPortReset_moves _ s
  | .clearFailedMark _ => execClearFailedMark_moves _ s
  | .clearSpindleFault _ => execClearSpindleFault_moves _ s
  | .removeFromService _ => execRemoveFromService_moves _ s
  | .returnToService _ => execReturnToService_moves _ s
  | .returnActuatorToService _ => execReturnActuatorToService_moves _ s
  | .calibrationControlQuery _ => execCalibrationControlQuery_moves _ s
  | .calibrateOneHead _ => execCalibrateOneHead_moves _ s
  | .calibrationDefer _ => execCalibrationDefer_moves _ s
  | .calibrationSetParameters _ => execCalibrationSetParameters_moves _ s
  | .calibrationRestoreHead _ => execCalibrationRestoreHead_moves _ s
  | .queryPoolParameters _ => execQueryPoolParameters_moves _ s
  | .engineOffline _ => execEngineOffline_moves _ s
  | .engineSelfTest _ _ => execEngineSelfTest_moves _ _ s
  | .engineToService _ _ => execEngineToService_moves _ _ s
  | .setPoolParameters _ => execSetPoolParameters_moves _ s
  | .sequencerOffline _ => execSequencerOffline_moves _ s
  | .sequencerSelfTest _ _ => execSequencerSelfTest_moves _ _ s
  | .sequencerReinitialise _ _ => execSequencerReinitialise_moves _ _ s
  | .setSequencerParameters _ => execSetSequencerParameters_moves _ s
  | .patchLoadFromHost _ => execPatchLoadFromHost_moves _ s
  | .patchLoadAndStore _ _ => execPatchLoadAndStore_moves _ _ s
  | .patchLoadFromNor _ => execPatchLoadFromNor_moves _ s
  | .patchClear _ => execPatchClear_moves _ s
  | .mapCacheQuery _ => execMapCacheQuery_moves _ s
  | .mapCacheEnable _ => execMapCacheEnable_moves _ s
  | .mapCacheDisable _ => execMapCacheDisable_moves _ s
  | .invalidateAll _ => execInvalidateAll_moves _ s
  | .cleanAll _ => execCleanAll_moves _ s
  | .preload _ => execPreload_moves _ s
  | .lock _ => execLock_moves _ s
  | .unlock _ => execUnlock_moves _ s
  | .invalidateRange _ => execInvalidateRange_moves _ s
  | .mapCacheMiss _ _ => execMapCacheMiss_moves _ _ s
  | .recorderRead _ => execRecorderRead_moves _ s
  | .recorderClear _ => execRecorderClear_moves _ s
  | .thermalControlQuery _ => execThermalControlQuery_moves _ s
  | .excludeSensor _ => execExcludeSensor_moves _ s
  | .setHdaThresholds _ => execSetHdaThresholds_moves _ s
  | .pairControlQuery _ => execPairControlQuery_moves _ s
  | .handOverPorts _ => execHandOverPorts_moves _ s
  | .pairRelease _ => execPairRelease_moves _ s
  | .rejoin _ => execRejoin_moves _ s
  | .setHeartbeatMs _ => execSetHeartbeatMs_moves _ s
  | .firmwareImageDownload _ => execFirmwareImageDownload_moves _ s
  | .firmwareCommitStage _ => execFirmwareCommitStage_moves _ s
  | .firmwareCommitStagePrefer _ => execFirmwareCommitStagePrefer_moves _ s
  | .firmwareCommitPrefer _ => execFirmwareCommitPrefer_moves _ s
  | .securityReceiveDirectory _ => execSecurityReceiveDirectory_moves _ s
  | .securityReceivePlaybill _ => execSecurityReceivePlaybill_moves _ s
  | .securityReceiveCertificate _ => execSecurityReceiveCertificate_moves _ s
  | .securityReceiveStages _ => execSecurityReceiveStages_moves _ s
  | .securitySendNonce _ => execSecuritySendNonce_moves _ s
  | .quote _ => execQuote_moves _ s
  | .keyManifestUpdate _ _ => execKeyManifestUpdate_moves _ _ s
  | .playbillSeal _ => execPlaybillSeal_moves _ s
  | .addendum _ => execAddendum_moves _ s
  | .playbillNorRetry _ => execPlaybillNorRetry_moves _ s
  | .norPreErase => execNorPreErase_moves s
  | .eventRecord _ => execEventRecord_moves _ s
  | .recordClose => execRecordClose_moves s
  | .dropWindowEnd => execDropWindowEnd_moves s
  | .storeProgram _ => execStoreProgram_moves _ s
  | .storeErase => execStoreErase_moves s
  | .clearRemoval => execClearRemoval_moves s
  | .heldEventsWrite => execHeldEventsWrite_moves s
  | .sensorConversion _ _ _ => Moves.wider (execSensorConversion_moves _ _ _ s) (by rw [touches]; decide)
  | .rateRisePersist _ => execRateRisePersist_moves _ s
  | .graceExpiry => execGraceExpiry_moves s
  | .stepRelease => execStepRelease_moves s
  | .thermalRestart => execThermalRestart_moves s
  | .compensationTrim _ => execCompensationTrim_moves _ s
  | .mr4Poll _ _ _ _ => execMr4Poll_moves _ _ _ _ s
  | .zqCalibration _ => execZqCalibration_moves _ s
  | .dqsOscillatorRead _ _ => execDqsOscillatorRead_moves _ _ s
  | .sramScrub _ => execSramScrub_moves _ s
  | .dramScrub _ => execDramScrub_moves _ s
  | .pageRetire _ => execPageRetire_moves _ s
  | .uncorrectableError _ _ _ => execUncorrectableError_moves _ _ _ s
  | .instructionFetchTrap _ _ => execInstructionFetchTrap_moves _ _ s
  | .dmaHalt _ _ _ => execDmaHalt_moves _ _ _ s
  | .rcRegisterRead _ _ => execRcRegisterRead_moves _ _ s
  | .loRegisterRead _ _ => execLoRegisterRead_moves _ _ s
  | .hiRegisterRead _ _ => execHiRegisterRead_moves _ _ s
  | .statusWindowWrite _ _ _ => execStatusWindowWrite_moves _ _ _ s
  | .wingsTraining _ => execWingsTraining_moves _ s
  | .wingsLinkReset => execWingsLinkReset_moves s
  | .retryUnanswered => execRetryUnanswered_moves s
  | .hello _ => execHello_moves _ s
  | .heartbeatSend => execHeartbeatSend_moves s
  | .heartbeat _ => execHeartbeat_moves _ s
  | .peerNotAlive => execPeerNotAlive_moves s
  | .formingTimeout => execFormingTimeout_moves s
  | .contend _ => execContend_moves _ s
  | .settlingEnd => execSettlingEnd_moves s
  | .mirror _ _ _ _ _ => execMirror_moves _ _ _ _ _ s
  | .journal _ _ => execJournal_moves _ _ s
  | .ack _ => execAck_moves _ s
  | .release _ _ _ _ => execRelease_moves _ _ _ _ s
  | .forward _ _ _ _ => execForward_moves _ _ _ _ s
  | .forwardCpl _ _ _ _ _ _ _ _ => execForwardCpl_moves _ _ _ _ _ _ _ _ s
  | .mediaReq _ _ _ => execMediaReq_moves _ _ _ s
  | .mediaData _ _ _ _ => execMediaData_moves _ _ _ _ s
  | .mediaDone _ _ _ => execMediaDone_moves _ _ _ s
  | .handover _ _ _ _ => execHandover_moves _ _ _ _ s
  | .retry _ => execRetry_moves _ s
  | .sync _ _ _ _ _ => execSync_moves _ _ _ _ _ s
  | .windowRead _ _ _ => execWindowRead_moves _ _ _ s
  | .windowWrite _ _ _ => execWindowWrite_moves _ _ _ s
  | .configRead _ _ => execConfigRead_moves _ _ s
  | .configWrite _ _ _ => execConfigWrite_moves _ _ _ s
  | .deviceReset _ => Moves.wider (execDeviceReset_moves _ s) (by rw [touches]; decide)
  | .bufferWrite _ _ _ => execBufferWrite_moves _ _ _ s
  | .recoveryWrite _ _ _ => execRecoveryWrite_moves _ _ _ s
  | .recoveryRun _ _ => execRecoveryRun_moves _ _ s
  | .admin _ _ => execAdmin_moves _ _ s
  | .compFw _ _ _ _ _ _ => execCompFw_moves _ _ _ _ _ _ s
  | .compFwAbandon => execCompFwAbandon_moves s
  | .nvmeMiBasicManagement _ => execNvmeMiBasicManagement_moves _ s
  | .setEndpointId _ => execSetEndpointId_moves _ s
  | .getEndpointId => execGetEndpointId_moves s
  | .getEndpointUuid => execGetEndpointUuid_moves s
  | .getMctpVersionSupport => execGetMctpVersionSupport_moves s
  | .getMessageTypeSupport => execGetMessageTypeSupport_moves s
  | .getVendorDefinedMessageSupport => execGetVendorDefinedMessageSupport_moves s
  | .smbusClockLowTimeout _ => execSmbusClockLowTimeout_moves _ s
  | .aonPwrokDeassert => execAonPwrokDeassert_moves s
  | .testEnChange _ => execTestEnChange_moves _ s
  | .jtagInstructionLoad _ => execJtagInstructionLoad_moves _ s
  | .dataTransferError _ => execDataTransferError_moves _ s
  | .namespaceAttachment _ => execNamespaceAttachment_moves _ s
  | .wingsBlockReceived _ _ _ => execWingsBlockReceived_moves _ _ _ s

/-- The invariant says nothing of the queue. -/
theorem State.Inv.withPending {s : State} (i : s.Inv) (q : List Instr) : ({ s with pending := q } : State).Inv :=
  ⟨i.filled, i.complete, i.ready, i.bufs, i.served, i.therms, i.holds, i.ring, i.ctxs⟩

theorem step_keeps_inv {s t : State} (i : s.Inv) (h : step s = .next t) : t.Inv := by
  unfold step at h
  split at h
  · cases h
    exact (State.idle_moves s).inv i
  next c rest _ =>
    obtain ⟨u, run, moves⟩ := exec_moves c { s with pending := rest }
    cases run.symm.trans h
    exact moves.inv (i.withPending rest)

/-- Settles O57: the front command keeps the invariant, and so does the idle step. -/
theorem everyStepKeepsInv : Obligations.EveryStepKeepsInv := fun _ _ i h => step_keeps_inv i h

theorem State.reset_port (p : PortId) : State.reset.port p = Port.reset := by simp [State.port, State.reset]

theorem State.reset_spin (p : PortId) : State.reset.spin p = Spin.reset := by simp [State.spin, State.reset]

/-- Settles O4: nothing is released or in service, and every store is empty. -/
theorem resetKeepsInvariant : Obligations.ResetKeepsInvariant := by
  refine ⟨(nomatch ·), (nomatch ·), ⟨(nomatch ·), (nomatch ·)⟩, ⟨rfl, rfl, rfl, rfl⟩, fun p h => ?_, Nat.zero_le _, Nat.zero_le _,
    Nat.zero_le _, List.nodup_nil, fun _ h => (List.not_mem_nil h).elim⟩
  rw [show State.reset.ports[p] = Port.reset from State.reset_port p] at h
  cases h

/-- Settles O5. -/
theorem resetValues : Obligations.ResetValues := by
  refine ⟨⟨rfl, rfl, rfl, rfl⟩, ⟨rfl, rfl, rfl, rfl, rfl⟩, fun p => ?_, fun f => ?_⟩
  · rw [State.reset_port, State.reset_spin]
    exact ⟨rfl, rfl, rfl⟩
  · cases f <;> exact ⟨rfl, rfl, rfl, rfl⟩

end Sys2Proof.Machine
end

section
/-! SUPPORT. Bring-up (spec/02 R62 to R77): the steps of Table 2-9, the fills, the training of the DRAM channels, the image that R73
chooses, and the release of the control processors. -/

namespace Sys2Proof.Machine

/-! ## Steps, errors, fills -/

theorem State.not_released_of_booting {s : State} (h : s.booting = true) : s.boot.released = false := by
  simp only [State.booting, Bool.and_eq_true, Bool.not_eq_true'] at h
  exact h.2

/-- A step that bring-up has not passed. -/
theorem State.setStep_step {n : Nat} {s : State} (h : s.aon.step.toNat ≤ n) : (s.setStep n).aon.step = BitVec.ofNat 8 n := by
  simp only [State.setStep, State.modAon_aon, Nat.max_eq_right h]

theorem State.le_setStep {n : Nat} (hn : n < 256) (s : State) : n ≤ (s.setStep n).aon.step.toNat := by
  have := s.aon.step.isLt
  simp only [State.setStep, State.modAon_aon, BitVec.toNat_ofNat]
  omega

theorem State.bootError_aon (c : Nat) (s : State) : (s.bootError c).aon = { s.aon with error := BitVec.ofNat 8 c, fill := .idle } := rfl

/-- An error stops bring-up (R77). -/
theorem State.bootError_booting {c : Nat} (h : BitVec.ofNat 8 c ≠ 0#8) (s : State) : (s.bootError c).booting = false := by
  simp [State.booting, State.bootError_aon, h]

/-- The DRAM fill that may begin is the only thing that changes. -/
theorem State.tryDramFill_eq (s : State) : ∃ f c, s.tryDramFill = s.modAon (fun a => { a with fill := f, fillComplete := c }) ∧
    (s.aon.fill = .idle → f = .idle ∨ c = false) := by
  unfold State.tryDramFill
  split
  · exact ⟨.dram, false, rfl, fun _ => .inr rfl⟩
  · exact ⟨s.aon.fill, s.aon.fillComplete, rfl, .inl⟩

/-- BOOT_ROM_SELF_TEST that passes begins the SRAM fill (R62, R63). -/
theorem bootRomSelfTest_pass {s : State} (hb : s.booting = true) (hs : s.aon.step.toNat < 4) :
    Does (.bootRomSelfTest true) s fun t => t.aon.step = 4 ∧ t.aon.fill = .sram ∧ t.aon.fillComplete = false ∧
      t.ident.stages[1] = digest Config.fuseBlock := by
  refine ⟨_, congrArg Host.Outcome.next (if_pos ⟨hb, hs⟩), ?_, rfl, rfl, ?_⟩
  · have three : ((s.setStep 3).norStart).aon.step = 3 := State.setStep_step (Nat.lt_succ_iff.mp hs)
    exact State.setStep_step (n := 4) (by rw [three]; decide)
  · exact (upd_get _ (1 : Fin 12) (1 : Fin 12) _).trans (if_pos rfl)

theorem bootRomSelfTest_fail {s : State} (hb : s.booting = true) (hs : s.aon.step.toNat < 4) :
    Does (.bootRomSelfTest false) s fun t => t.aon.error = 0x03 ∧ t.aon.step = 3 :=
  ⟨_, congrArg Host.Outcome.next (if_pos ⟨hb, hs⟩), rfl, State.setStep_step (n := 3) (Nat.lt_succ_iff.mp hs)⟩

/-- MEMORY_FILL_DONE, the SRAM filled. -/
theorem memoryFillDone_sram {s : State} (hb : s.booting = true) (hf : s.aon.fill = .sram) :
    exec (.memoryFillDone false) s = .next ((s.setStep 5).modAon fun a => { a with fill := .idle, fillComplete := true }) := by
  show execMemoryFillDone false s = _
  simp [execMemoryFillDone, hb, hf]

/-- MEMORY_FILL_DONE, the DRAM filled. -/
theorem memoryFillDone_dram {s : State} (hb : s.booting = true) (hf : s.aon.fill = .dram) :
    exec (.memoryFillDone false) s = .next ((s.setStep 8).modAon fun a =>
      { a with fill := .idle, fillComplete := true, dramState := if s.boot.cold then 0 else 2 }) := by
  show execMemoryFillDone false s = _
  simp [execMemoryFillDone, hb, hf]

/-- A mismatch stops bring-up with the code of the memory that was being filled (R66). -/
theorem memoryFillDone_mismatch {s : State} (hb : s.booting = true) {f : Fill} {c : Nat} (hf : s.aon.fill = f)
    (hc : (f, c) = (.sram, 5) ∨ (f, c) = (.dram, 7)) :
    Does (.memoryFillDone true) s fun t => t.aon.error = BitVec.ofNat 8 c ∧ t.booting = false ∧ t.boot.released = false ∧
      t.aon.step = s.aon.step := by
  have run : execMemoryFillDone true s = .next (s.bootError c) := by
    obtain e | e := hc <;> cases e <;> simp [execMemoryFillDone, hb, hf]
  have code : BitVec.ofNat 8 c ≠ 0#8 := by
    obtain e | e := hc <;> cases e <;> decide
  exact ⟨_, run, rfl, State.bootError_booting code s, State.not_released_of_booting (s := s) hb, rfl⟩

/-- Settles O48: both memories, by the lemma above. -/
theorem fillMismatchStopsBringUp : Obligations.FillMismatchStopsBringUp :=
  ⟨fun _ hb hf => memoryFillDone_mismatch hb hf (.inl rfl), fun _ hb hf => memoryFillDone_mismatch hb hf (.inr rfl)⟩

/-! ## DRAM channels -/

theorem State.channelFails_retry {s : State} {ch : Fin 8} (hb : s.booting = true) (hr : s.boot.retries[ch] < 3) :
    s.channelFails ch = s.modBoot fun b => { b with retries := upd b.retries ch (· + 1) } := by
  unfold State.channelFails
  rw [if_neg (by simp [hb]), if_pos hr]

theorem State.channelFails_stop {s : State} {ch : Fin 8} (hb : s.booting = true) (hr : s.boot.retries[ch] = 3) :
    s.channelFails ch = (s.modAon fun a => { a with selfRefresh := false }).bootError 6 := by
  unfold State.channelFails
  rw [if_neg (by simp [hb]), if_neg (by omega)]

/-- A failure of training neither ends the training, nor releases the processors, nor starts a fill. -/
theorem State.channelFails_keeps (ch : Fin 8) (s : State) : (s.channelFails ch).boot.trained = s.boot.trained ∧
    (s.channelFails ch).boot.released = s.boot.released ∧ (s.aon.fill = .idle → (s.channelFails ch).aon.fill = .idle) := by
  unfold State.channelFails
  split
  · exact ⟨rfl, rfl, id⟩
  · split
    · exact ⟨rfl, rfl, id⟩
    · exact ⟨rfl, rfl, fun _ => rfl⟩

theorem State.channelsFail_keep (l : List (Fin 8)) (s : State) : (s.each l State.channelFails).boot.trained = s.boot.trained ∧
    (s.each l State.channelFails).boot.released = s.boot.released ∧
    (s.aon.fill = .idle → (s.each l State.channelFails).aon.fill = .idle) :=
  State.each_inv (P := fun t => t.boot.trained = s.boot.trained ∧ t.boot.released = s.boot.released ∧ (s.aon.fill = .idle → t.aon.fill = .idle))
    (fun ch t ⟨ht, hr, hf⟩ => by
      obtain ⟨kt, kr, kf⟩ := t.channelFails_keeps ch
      exact ⟨kt.trans ht, kr.trans hr, fun h => kf (hf h)⟩)
    l ⟨rfl, rfl, id⟩

/-- All eight channels have trained: the configuration is noted, and step 6 is over. -/
def State.channelsNoted (cap d n : Nat) (s : State) : State :=
  ((s.modMem fun m => { m with capacityGib := cap, densityGb := d, ranks := n, trained := 0xFF }).setStep 6).modBoot
    fun b => { b with trained := true }

/-- The state then, with what DRAM kept judged and the fill begun where it is due. -/
def State.channelsTrained (cap d n : Nat) (s : State) : State := (s.channelsNoted cap d n).preserveCheck.tryDramFill

/-- What DRAM_TRAINING_DONE can do: it is ignored, the channels have trained, or those at fault fail. -/
theorem execDramTrainingDone_cases (l : List Nat) (r : List (Option Nat)) (s : State) :
    exec (.dramTrainingDone l r) s = .next s ∨
    (∃ cap, failedChannels (rankDensities l r) = [] ∧
      dramCapacity ((usualRanks (rankDensities l r)).headD 0) (usualRanks (rankDensities l r)).length = some cap ∧
      exec (.dramTrainingDone l r) s =
        .next (s.channelsTrained cap ((usualRanks (rankDensities l r)).headD 0) (usualRanks (rankDensities l r)).length)) ∨
    exec (.dramTrainingDone l r) s = .next (s.each (failedChannels (rankDensities l r)) State.channelFails) := by
  show execDramTrainingDone l r s = _ ∨ (∃ cap, _ ∧ _ ∧ execDramTrainingDone l r s = _) ∨ execDramTrainingDone l r s = _
  unfold execDramTrainingDone
  dsimp only
  split
  · split
    next cap hf hc => exact .inr (.inl ⟨cap, hf, hc, rfl⟩)
    · exact .inr (.inr rfl)
  · exact .inl rfl

theorem execDramTrainingDone_fails {s : State} {l : List Nat} {r : List (Option Nat)} {ch : Fin 8} (hb : s.booting = true)
    (hs : 5 ≤ s.aon.step.toNat) (ht : s.boot.trained = false) (hf : failedChannels (rankDensities l r) = [ch]) :
    exec (.dramTrainingDone l r) s = .next (s.channelFails ch) := by
  show execDramTrainingDone l r s = _
  simp [execDramTrainingDone, hb, hs, ht, hf, State.each]

theorem execDramTrainingDone_trains {s : State} {l : List Nat} {r : List (Option Nat)} {u : List Nat} {cap : Nat} (hb : s.booting = true)
    (hs : 5 ≤ s.aon.step.toNat) (ht : s.boot.trained = false) (hf : failedChannels (rankDensities l r) = [])
    (hu : usualRanks (rankDensities l r) = u) (hc : dramCapacity (u.headD 0) u.length = some cap) :
    exec (.dramTrainingDone l r) s = .next (s.channelsTrained cap (u.headD 0) u.length) := by
  subst hu
  show execDramTrainingDone l r s = _
  unfold execDramTrainingDone
  dsimp only
  rw [if_pos ⟨hb, hs, by simp [ht]⟩, hf, hc]
  rfl

theorem dramChannelTrainingFail_eq {s : State} (ch : Fin 8) (hb : s.booting = true) (hs : 5 ≤ s.aon.step.toNat)
    (ht : s.boot.trained = false) : exec (.dramChannelTrainingFail ch) s = .next (s.channelFails ch) :=
  congrArg Host.Outcome.next (if_pos ⟨hb, hs, by simp [ht]⟩)

/-- A channel is tried again (R69). -/
theorem does_channelRetry {s : State} {i : Instr} {ch : Fin 8} (run : exec i s = .next (s.channelFails ch)) (hb : s.booting = true)
    (ht : s.boot.trained = false) (hr : s.boot.retries[ch] < 3) :
    Does i s fun t => t.boot.retries[ch] = s.boot.retries[ch] + 1 ∧ t.aon = s.aon ∧ t.boot.trained = false := by
  rw [State.channelFails_retry hb hr] at run
  exact ⟨_, run, (upd_get _ _ _ _).trans (if_pos rfl), rfl, ht⟩

/-- The fourth failure of a channel stops bring-up (R69). -/
theorem does_channelStop {s : State} {i : Instr} {ch : Fin 8} (run : exec i s = .next (s.channelFails ch)) (hb : s.booting = true)
    (ht : s.boot.trained = false) (hr : s.boot.retries[ch] = 3) :
    Does i s fun t => t.aon.error = 0x06 ∧ t.booting = false ∧ t.boot.trained = false := by
  rw [State.channelFails_stop hb hr] at run
  exact ⟨_, run, rfl, State.bootError_booting (by decide) _, ht⟩

/-- With fewer than eight channels some channel differs from the others, or there is no configuration. -/
theorem failed_of_short {l : List Nat} (r : List (Option Nat)) (h : l.length < 8) :
    failedChannels (rankDensities l r) ≠ [] ∨
      dramCapacity ((usualRanks (rankDensities l r)).headD 0) (usualRanks (rankDensities l r)).length = none := by
  by_cases e : usualRanks (rankDensities l r) = []
  · exact .inr (by rw [e]; rfl)
  · have missing : (rankDensities l r).getD 7 [] = [] := List.getD_eq_default _ _ (by simp [rankDensities]; omega)
    have : (7 : Fin 8) ∈ failedChannels (rankDensities l r) := by
      simp only [failedChannels, fins, List.mem_filter, List.mem_finRange, true_and, Bool.or_eq_true, bne_iff_ne, ne_eq]
      exact .inl (.inl (by rw [show ((7 : Fin 8) : Nat) = 7 from rfl, missing]; exact Ne.symm e))
    exact .inl (List.ne_nil_of_mem this)

/-- DRAM_TRAINING_DONE of fewer than eight channels leaves the training open (R69). -/
theorem dramTrainingDone_short {s : State} {l : List Nat} (r : List (Option Nat)) (ht : s.boot.trained = false) (h : l.length < 8) :
    Does (.dramTrainingDone l r) s fun t => t.boot.trained = false ∧ t.boot.released = s.boot.released := by
  obtain run | ⟨cap, hf, hc, -⟩ | run := execDramTrainingDone_cases l r s
  · exact ⟨_, run, ht, rfl⟩
  · obtain k | k := failed_of_short r h
    · exact absurd hf k
    · rw [hc] at k; cases k
  · obtain ⟨trained, released, -⟩ := s.channelsFail_keep (failedChannels (rankDensities l r))
    exact ⟨_, run, trained.trans ht, released⟩

/-- What the release of the control processors waits for (R63, Table 2-9 step 9). -/
def State.Releasable (s : State) : Prop :=
  s.booting = true ∧ s.boot.imageOk = true ∧ s.boot.trained = true ∧ s.aon.fillComplete = true ∧ s.aon.fill = .idle ∧ ¬ s.fillDue = true ∧
    (s.ident.keyReady = true ∨ s.ident.keyFailed = true)

theorem processorsRelease_held {s : State} (h : ¬ s.Releasable) : Does .processorsRelease s fun t => t = s :=
  ⟨s, congrArg Host.Outcome.next (if_neg h), rfl⟩

/-- Settles O49: a channel told to have failed, by either command, is retried or stops bring-up; open training holds the release back. -/
theorem channelTrainingRetries : Obligations.ChannelTrainingRetries :=
  ⟨fun _ ch hb hs ht hr => does_channelRetry (dramChannelTrainingFail_eq ch hb hs ht) hb ht hr,
    fun _ ch hb hs ht hr => does_channelStop (dramChannelTrainingFail_eq ch hb hs ht) hb ht hr,
    fun _ _ _ _ hb hs ht hf hr => does_channelRetry (execDramTrainingDone_fails hb hs ht hf) hb ht hr,
    fun _ ht => processorsRelease_held fun ⟨_, _, trained, _⟩ => Bool.false_ne_true (ht.symm.trans trained),
    fun _ _ _ _ hb hs ht hf hr => does_channelStop (execDramTrainingDone_fails hb hs ht hf) hb ht hr,
    fun _ _ r ht hl => dramTrainingDone_short r ht hl⟩

end Sys2Proof.Machine
end

section
/-! SUPPORT. Bring-up, continued: the boot directory as an update leaves it (spec/02 R72), the image that R73 chooses (R73 to R75), and the
release of the control processors (R63; spec/16 R575). -/

namespace Sys2Proof.Machine

/-! ## The boot directory -/

theorem Nor.writeDir_slots (f : BootDir → BootDir) (n : Nor) : (n.writeDir f).slotA = n.slotA ∧ (n.writeDir f).slotB = n.slotB := by
  unfold Nor.writeDir
  extract_lets d
  split <;> exact ⟨rfl, rfl⟩

theorem BootDir.setAttempts_attemptsOf (k : Bool) (v : Nat) (d : BootDir) : (d.setAttempts k v).attemptsOf k = v := by
  cases k <;> rfl

theorem BootDir.setState_stateOf (k : Bool) (v : Fin 3) (d : BootDir) : (d.setState k v).stateOf k = v := by
  cases k <;> rfl

theorem BootDir.setState_attemptsOf (k j : Bool) (v : Fin 3) (d : BootDir) : (d.setState k v).attemptsOf j = d.attemptsOf j := by
  cases k <;> rfl

/-! ## The image of a slot -/

theorem State.readKeys_manifest (s : State) : s.readKeys.ident.manifest = s.nor.manifest.map Prod.fst := by
  unfold State.readKeys
  extract_lets t
  have nor : t.nor = s.nor := rfl
  rw [← nor]
  split
  next e => rw [e]; rfl
  next e => rw [e]; rfl

/-- The boot ROM has read both copies of the boot directory and of the key manifest. -/
def State.dirRead (s : State) : State := ((s.norRead .dir0 0 80).norRead .dir1 0 80).readKeys

/-- The image of a slot has been read as well. -/
def State.slotRead (k : Bool) (s : State) : State := s.dirRead.norRead (slotRegion k) 0 (s.dirRead.nor.slotOf k).length

/-- Reading finds the key manifest and changes no register of the boot. -/
theorem State.dirRead_finds (s : State) : s.dirRead.nor = s.nor ∧ s.dirRead.aon = s.aon ∧ s.dirRead.boot.imageOk = s.boot.imageOk ∧
    s.dirRead.ident.manifest = s.readKeys.ident.manifest := by
  have m : s.Moves [.boot, .ident] s.dirRead :=
    Moves.op (State.readKeys_moves _) (by decide) (Moves.op (State.norRead_moves _ _ _ _) (by decide)
      (Moves.op (State.norRead_moves _ _ _ _) (by decide) (Moves.refl _ _)))
  have imageOk (t : State) : t.readKeys.boot.imageOk = t.boot.imageOk := by
    unfold State.readKeys
    extract_lets u
    split <;> rfl
  refine ⟨m.only .nor (by decide), m.only .aon (by decide), imageOk _, ?_⟩
  rw [State.readKeys_manifest]
  exact State.readKeys_manifest _

/-- An attempt to boot slot k is counted, in the directory and in BOOT_PROGRESS (R73, R74). -/
def State.countAttempt (k : Bool) (s : State) : State :=
  let n := s.nor.dir.attemptsOf k + 1
  let s := s.writeDir (BootDir.setAttempts k n)
  let s := s.when (k != s.nor.dir.preferred) (State.setCause causeFallback)
  s.modAon fun a => { a with attempts := BitVec.ofNat 4 n, slot := k, recovery := false }

/-- The image of slot k is measured and runs. -/
def State.startSlot (k : Bool) (s : State) : State := (s.measureSelection k false).runImage (s.nor.slotOf k)

/-- The image of slot k is accepted: step 7 is over, and the DRAM fill begins where it is due. -/
def State.acceptImage (k : Bool) (s : State) : State := (((s.countAttempt k).startSlot k).setStep 7).tryDramFill

/-- The image of slot k is marked bad; with no other to try, bring-up waits for one (R73, R75). -/
def State.rejectImage (k : Bool) (s : State) : State :=
  let s := s.writeDir (BootDir.setState k 2)
  if s.nor.dir.candidate = none then s.noImage else s

/-- With BOOT_SRC high the boot ROM waits for an image over the service port at once (R75). -/
theorem imageLoaded_waits {s : State} (hb : s.booting = true) (hs : 5 ≤ s.aon.step.toNat) (hi : s.boot.imageOk = false)
    (hr : s.boot.recoveryWait = false) (hc : s.aon.bootSrc = true) :
    exec .imageLoaded s = .next (s.modBoot fun b => { b with recoveryWait := true }) := by
  show execImageLoaded s = _
  simp [execImageLoaded, hb, hs, hi, hr, hc]

theorem imageLoaded_none {s : State} (hb : s.booting = true) (hs : 5 ≤ s.aon.step.toNat) (hi : s.boot.imageOk = false)
    (hr : s.boot.recoveryWait = false) (hc : s.aon.bootSrc = false) (hk : s.nor.dir.candidate = none) :
    exec .imageLoaded s = .next s.dirRead.noImage := by
  obtain ⟨nor, -, -, -⟩ := s.dirRead_finds
  have noSlot : s.dirRead.nor.dir.candidate = none := by rw [nor]; exact hk
  show execImageLoaded s = _
  unfold execImageLoaded
  rw [if_pos ⟨hb, hs, by simp [hi], by simp [hr]⟩, if_neg (by simp [hc])]
  extract_lets t
  rw [show t.nor.dir.candidate = none from noSlot]
  rfl

/-- IMAGE_LOADED of the slot that R73 chooses: accepted by R571 or not. -/
theorem imageLoaded_some {s : State} {k : Bool} (hb : s.booting = true) (hs : 5 ≤ s.aon.step.toNat) (hi : s.boot.imageOk = false)
    (hr : s.boot.recoveryWait = false) (hc : s.aon.bootSrc = false) (hk : s.nor.dir.candidate = some k) :
    exec .imageLoaded s = .next (if imageCheck s.readKeys.ident.manifest (s.nor.slotOf k) = 0 then (s.slotRead k).acceptImage k
      else (s.slotRead k).rejectImage k) := by
  obtain ⟨nor, -, -, manifest⟩ := s.dirRead_finds
  have slot : s.dirRead.nor.dir.candidate = some k := by rw [nor]; exact hk
  show execImageLoaded s = _
  unfold execImageLoaded
  rw [if_pos ⟨hb, hs, by simp [hi], by simp [hr]⟩, if_neg (by simp [hc])]
  extract_lets t
  rw [show t.nor.dir.candidate = some k from slot, ← manifest, ← nor]
  rfl

theorem State.writeDir_nor (f : BootDir → BootDir) (s : State) : (s.writeDir f).nor = s.nor.writeDir f := by
  unfold State.writeDir
  extract_lets r
  have m : s.Moves [.boot] ((s.norErase r 0 r.size).norProgram r 0 r.size) :=
    Moves.op (State.norProgram_moves _ _ _ _) (by decide) (State.norErase_moves _ _ _ _)
  rw [State.modNor_nor, show ((s.norErase r 0 r.size).norProgram r 0 r.size).nor = s.nor from m.only .nor (by decide)]

theorem State.writeDir_imageOk (f : BootDir → BootDir) (s : State) : (s.writeDir f).boot.imageOk = s.boot.imageOk := by
  simp only [State.writeDir, State.norProgram, State.norErase, State.norRun, State.modNor_boot, State.modBoot_boot]

theorem State.slotRead_finds (k : Bool) (s : State) : (s.slotRead k).nor = s.nor ∧ (s.slotRead k).aon = s.aon ∧
    (s.slotRead k).boot.imageOk = s.boot.imageOk := by
  obtain ⟨nor, aon, imageOk, -⟩ := s.dirRead_finds
  exact ⟨nor, aon, imageOk⟩

theorem State.runImage_boot (img : List Byte) (s : State) : (s.runImage img).boot.imageOk = true ∧
    (s.runImage img).boot.image = img.take (imageLength img) := by
  unfold State.runImage
  extract_lets region t u
  rw [State.modBoot_boot]
  exact ⟨rfl, rfl⟩

theorem State.startSlot_runs (k : Bool) (s : State) : (s.startSlot k).boot.imageOk = true ∧
    (s.startSlot k).boot.image = (s.nor.slotOf k).take (imageLength (s.nor.slotOf k)) ∧ (s.startSlot k).nor = s.nor ∧
    (s.startSlot k).aon = s.aon := by
  have m : s.Moves [.boot, .ident] (s.startSlot k) :=
    Moves.op (State.runImage_moves _ _) (by decide) (Moves.op (State.measureSelection_moves k false s) (by decide) (Moves.refl _ _))
  obtain ⟨imageOk, image⟩ := (s.measureSelection k false).runImage_boot (s.nor.slotOf k)
  exact ⟨imageOk, image, m.only .nor (by decide), m.only .aon (by decide)⟩

theorem State.countAttempt_nor (k : Bool) (s : State) :
    (s.countAttempt k).nor = s.nor.writeDir (BootDir.setAttempts k (s.nor.dir.attemptsOf k + 1)) := by
  unfold State.countAttempt
  extract_lets n t u
  have m : t.Moves [.aon] u := Moves.when (fun _ h => Moves.op (State.setCause_moves _ _) (List.Subset.refl _) h) (Moves.refl _ _)
  exact (m.only .nor (by decide)).trans (State.writeDir_nor _ s)

theorem State.countAttempt_aon (k : Bool) (s : State) : (s.countAttempt k).aon.slot = k ∧ (s.countAttempt k).aon.recovery = false ∧
    (s.countAttempt k).aon.attempts = BitVec.ofNat 4 (s.nor.dir.attemptsOf k + 1) ∧ (s.countAttempt k).aon.error = s.aon.error ∧
    (s.countAttempt k).aon.fill = s.aon.fill := by
  unfold State.countAttempt
  extract_lets n t u
  have aon : t.aon = s.aon := (State.writeDir_moves _ s).only .aon (by decide)
  have kept : u.aon.error = t.aon.error ∧ u.aon.fill = t.aon.fill := by
    simp only [u, State.when]
    split <;> exact ⟨rfl, rfl⟩
  exact ⟨rfl, rfl, rfl, kept.1.trans (congrArg Aon.error aon), kept.2.trans (congrArg Aon.fill aon)⟩

/-- A slot that is not the preferred one is a fallback (Table 2-6). -/
theorem State.countAttempt_fallback {k : Bool} {s : State} (h : s.nor.dir.sequence.toNat + 1 < 2 ^ 32) (hk : k ≠ s.nor.dir.preferred) :
    (s.countAttempt k).aon.cause.getLsbD 9 = true := by
  unfold State.countAttempt
  extract_lets n t u
  have preferred : t.nor.dir.preferred = s.nor.dir.preferred := by
    rw [State.writeDir_nor, Nor.dir_writeDir _ _ h]
    cases k <;> rfl
  have fallback : u = t.setCause causeFallback := if_pos (by rw [preferred]; simpa using hk)
  show u.aon.cause.getLsbD 9 = true
  rw [fallback]
  exact setBit_get _ _ (by decide)

/-- What runs is what the slot holds, once the attempt has been counted. -/
theorem State.acceptImage_runs (k : Bool) (s : State) : (s.acceptImage k).boot.imageOk = true ∧
    (s.acceptImage k).boot.image = (s.nor.slotOf k).take (imageLength (s.nor.slotOf k)) ∧
    (s.acceptImage k).nor = s.nor.writeDir (BootDir.setAttempts k (s.nor.dir.attemptsOf k + 1)) := by
  obtain ⟨imageOk, image, nor, -⟩ := (s.countAttempt k).startSlot_runs k
  have slot : (s.countAttempt k).nor.slotOf k = s.nor.slotOf k := by
    obtain ⟨a, b⟩ := Nor.writeDir_slots (BootDir.setAttempts k (s.nor.dir.attemptsOf k + 1)) s.nor
    rw [State.countAttempt_nor, Nor.slotOf, a, b, Nor.slotOf]
  rw [slot] at image
  have m : ((s.countAttempt k).startSlot k).Moves [.aon] (s.acceptImage k) :=
    Moves.op (State.tryDramFill_moves _) (by decide) (State.setStep_moves _ _)
  rw [show (s.acceptImage k).boot = _ from m.only .boot (by decide), show (s.acceptImage k).nor = _ from m.only .nor (by decide)]
  exact ⟨imageOk, image, nor.trans (s.countAttempt_nor k)⟩

theorem State.acceptImage_aon (k : Bool) (s : State) : (s.acceptImage k).aon.slot = k ∧ (s.acceptImage k).aon.recovery = false ∧
    (s.acceptImage k).aon.attempts = BitVec.ofNat 4 (s.nor.dir.attemptsOf k + 1) ∧ 7 ≤ (s.acceptImage k).aon.step.toNat ∧
    (s.acceptImage k).aon.cause = (s.countAttempt k).aon.cause ∧ (s.acceptImage k).aon.error = s.aon.error := by
  obtain ⟨slot, recovery, attempts, error, -⟩ := s.countAttempt_aon k
  obtain ⟨-, -, -, aon⟩ := (s.countAttempt k).startSlot_runs k
  unfold State.acceptImage
  obtain ⟨f, c, e, -⟩ := (((s.countAttempt k).startSlot k).setStep 7).tryDramFill_eq
  rw [e]
  exact ⟨(congrArg Aon.slot aon).trans slot, (congrArg Aon.recovery aon).trans recovery, (congrArg Aon.attempts aon).trans attempts,
    State.le_setStep (by decide) _, (congrArg Aon.cause aon).trans rfl, (congrArg Aon.error aon).trans error⟩

theorem State.rejectImage_marks (k : Bool) (s : State) : (s.rejectImage k).nor = s.nor.writeDir (BootDir.setState k 2) ∧
    (s.rejectImage k).boot.imageOk = s.boot.imageOk ∧ (s.rejectImage k).aon.attempts = s.aon.attempts := by
  unfold State.rejectImage
  extract_lets t
  have nor : t.nor = _ := State.writeDir_nor (BootDir.setState k 2) s
  have imageOk : t.boot.imageOk = s.boot.imageOk := State.writeDir_imageOk _ s
  have aon : t.aon = s.aon := (State.writeDir_moves _ s).only .aon (by decide)
  have attempts : t.aon.attempts = s.aon.attempts := congrArg Aon.attempts aon
  split
  · exact ⟨nor, imageOk, attempts⟩
  · exact ⟨nor, imageOk, attempts⟩

/-- IMAGE_LOADED of the slot that R73 chooses, an accepted image and another (R73 to R75). -/
theorem imageLoaded_candidate {s : State} {k : Bool} (hb : s.booting = true) (hs : 5 ≤ s.aon.step.toNat) (hi : s.boot.imageOk = false)
    (hr : s.boot.recoveryWait = false) (hc : s.aon.bootSrc = false) (hk : s.nor.dir.candidate = some k)
    (hq : s.nor.dir.sequence.toNat + 1 < 2 ^ 32) : Does .imageLoaded s fun t =>
      (imageCheck s.readKeys.ident.manifest (s.nor.slotOf k) = 0 → t.boot.imageOk = true ∧
        t.boot.image = (s.nor.slotOf k).take (imageLength (s.nor.slotOf k)) ∧ t.aon.slot = k ∧ t.aon.recovery = false ∧
        t.nor.dir.attemptsOf k = s.nor.dir.attemptsOf k + 1 ∧ t.aon.attempts = BitVec.ofNat 4 (s.nor.dir.attemptsOf k + 1) ∧
        7 ≤ t.aon.step.toNat ∧ (k ≠ s.nor.dir.preferred → t.aon.cause.getLsbD 9 = true) ∧ t.aon.error = s.aon.error) ∧
      (imageCheck s.readKeys.ident.manifest (s.nor.slotOf k) ≠ 0 → t.nor.dir.stateOf k = 2 ∧
        t.nor.dir.attemptsOf k = s.nor.dir.attemptsOf k ∧ t.boot.imageOk = false ∧ t.aon.attempts = s.aon.attempts) ∧
      t.nor.slotA = s.nor.slotA ∧ t.nor.slotB = s.nor.slotB := by
  have run := imageLoaded_some hb hs hi hr hc hk
  obtain ⟨rnor, raon, rok⟩ := s.slotRead_finds k
  by_cases ok : imageCheck s.readKeys.ident.manifest (s.nor.slotOf k) = 0
  · rw [if_pos ok] at run
    obtain ⟨imageOk, image, nor⟩ := (s.slotRead k).acceptImage_runs k
    obtain ⟨slot, recovery, attempts, step, cause, error⟩ := (s.slotRead k).acceptImage_aon k
    have fallback (h : k ≠ s.nor.dir.preferred) : ((s.slotRead k).acceptImage k).aon.cause.getLsbD 9 = true := by
      rw [cause]
      exact State.countAttempt_fallback (by rw [rnor]; exact hq) (by rw [rnor]; exact h)
    rw [rnor] at image nor attempts
    rw [raon] at error
    obtain ⟨slotA, slotB⟩ := Nor.writeDir_slots (BootDir.setAttempts k (s.nor.dir.attemptsOf k + 1)) s.nor
    refine ⟨_, run, fun _ => ⟨imageOk, image, slot, recovery, ?_, attempts, step, fallback, error⟩, fun h => absurd ok h,
      by rw [nor, slotA], by rw [nor, slotB]⟩
    rw [nor, Nor.dir_writeDir _ _ hq, BootDir.seal_attemptsOf]
    exact BootDir.setAttempts_attemptsOf k _ s.nor.dir
  · rw [if_neg ok] at run
    obtain ⟨nor, imageOk, attempts⟩ := (s.slotRead k).rejectImage_marks k
    rw [rnor] at nor
    rw [raon] at attempts
    obtain ⟨slotA, slotB⟩ := Nor.writeDir_slots (BootDir.setState k 2) s.nor
    have dir := (congrArg Nor.dir nor).trans (Nor.dir_writeDir _ _ hq)
    refine ⟨_, run, fun h => absurd h ok, fun _ => ⟨?_, ?_, imageOk.trans (rok.trans hi), attempts⟩, by rw [nor, slotA], by rw [nor, slotB]⟩
    · rw [dir, BootDir.seal_stateOf]
      exact BootDir.setState_stateOf k 2 s.nor.dir
    · rw [dir, BootDir.seal_attemptsOf]
      exact BootDir.setState_attemptsOf k k 2 s.nor.dir

end Sys2Proof.Machine
end

section
/-! SUPPORT. The release of the control processors (spec/02 R63, Table 2-9 step 9; spec/16 R575), and the statements on bring-up. -/

namespace Sys2Proof.Machine

/-! ## What a release notes -/

/-- The release of the processors and its instant, the watchdog's arming and its last service. -/
def State.releaseMarks (s : State) : Bool × Nat × Bool × Nat := (s.boot.released, s.boot.releaseAt, s.aon.dogArmed, s.aon.dogAt)

theorem State.Moves.releaseMarks {l : List Part} {s t : State} (m : s.Moves l t) (ha : Part.aon ∉ l) (hb : Part.boot ∉ l) :
    t.releaseMarks = s.releaseMarks := by
  have aon : t.aon = s.aon := m.only .aon ha
  have boot : t.boot = s.boot := m.only .boot hb
  unfold State.releaseMarks
  rw [aon, boot]

theorem State.emit_releaseMarks (cls code source : Nat) (l : List (BitVec 256)) (s : State) :
    (s.emit cls code source l).releaseMarks = s.releaseMarks := by
  have boot : (s.emit cls code source l).boot = s.boot := (State.emit_moves cls code source l s).only .boot (by decide)
  have dog : (s.emit cls code source l).aon.dogArmed = s.aon.dogArmed ∧ (s.emit cls code source l).aon.dogAt = s.aon.dogAt := by
    unfold State.emit
    extract_lets e
    repeat' split
    all_goals exact ⟨rfl, rfl⟩
  unfold State.releaseMarks
  rw [boot, dog.1, dog.2]

theorem State.when_emit_releaseMarks (b : Bool) (cls code source : Nat) (l : List (BitVec 256)) (s : State) :
    (s.when b (State.emit cls code source l)).releaseMarks = s.releaseMarks := by
  unfold State.when
  split
  · exact State.emit_releaseMarks _ _ _ _ s
  · rfl

theorem State.applyConfig_releaseMarks (s : State) : s.applyConfig.releaseMarks = s.releaseMarks := by
  unfold State.applyConfig
  extract_lets c most t d
  have limited : t.releaseMarks = s.releaseMarks := by
    simp only [t]
    split
    · exact State.emit_releaseMarks _ _ _ _ _
    · rfl
  clear_value t
  exact limited

theorem State.judgeBuffer_releaseMarks (s : State) : s.judgeBuffer.releaseMarks = s.releaseMarks := by
  unfold State.judgeBuffer
  extract_lets index dump lost cause told t
  have said : t.releaseMarks = s.releaseMarks := by
    simp only [t]
    split
    · exact State.emit_releaseMarks _ _ _ _ (s.modBoot fun b => { b with backupFailed := true })
    · rfl
  clear_value t
  split
  · rfl
  · exact said

theorem State.noteEnded_releaseMarks (s : State) : s.noteEnded.releaseMarks = s.releaseMarks := by
  unfold State.noteEnded
  split <;> rfl

theorem State.measureRelease_bootCounter (s : State) : s.measureRelease.ident.bootCounter = s.ident.bootCounter := by
  unfold State.measureRelease
  extract_lets manifest patch
  simp only [State.measure, State.modIdent_ident]

/-- The boot counter of a release: one above the highest value known (spec/16 R575). -/
def State.nextBoot (s : State) : Nat := max s.nor.bootCounter.toNat s.newestCounter + 1

/-- The boot counter is raised and programmed, the stages before the release are measured, and step 9 is over. -/
def State.countBoot (s : State) : State :=
  ((((s.norRead .config counterOffset 8192).writeCounter s.nextBoot).modIdent fun i =>
    { i with bootCounter := BitVec.ofNat 64 s.nextBoot }).measureRelease).setStep 9

/-- The processors are released as boot n, with the watchdog armed. -/
def State.releaseAs (n : Nat) (s : State) : State :=
  let s := (s.modBoot fun b => { b with released := true, releaseAt := s.now }).modPins fun p => { p with linkCheckAt := s.now }
  let s := s.modBook fun b => { b with found := s.foundEvents }
  s.modAon fun a => { a with lastBoot := BitVec.ofNat 32 n, lastRelease := s.now, dogArmed := true, dogAt := s.now }

/-- What firmware does first: its configuration, the dirty buffer, the engines and the training of the ports. -/
def State.firstWork (s : State) : State :=
  let s := s.when s.ident.keyFailed (State.emit 0x0D 0x8001 noSource [])
  let s := s.when s.aon.recovery (State.emit 0x0F 0x8004 noSource (pay [(4, s.boot.image.length), (4, s.ident.fwVersion.toNat)]))
  let s := (s.applyConfig).judgeBuffer
  let s := s.modChorus fun c => { c with engs := c.engs.map fun e => { e with st := .selfTest } }
  (s.each (fins 32) State.startTraining).noteEnded

theorem State.countBoot_counts (s : State) : s.countBoot.now = s.now ∧ s.countBoot.ident.bootCounter = BitVec.ofNat 64 s.nextBoot := by
  have m : s.Moves [.boot, .nor, .ident, .aon] s.countBoot := Moves.op (State.setStep_moves _ _) (by decide)
    (Moves.op (State.measureRelease_moves _) (by decide) (Moves.op (State.modIdent_moves _ _) (by decide)
      (Moves.op (State.writeCounter_moves _ _) (by decide) (Moves.op (State.norRead_moves _ _ _ _) (by decide) (Moves.refl _ _)))))
  refine ⟨m.only .now (by decide), ?_⟩
  rw [State.countBoot, State.setStep, State.modAon_ident, State.measureRelease_bootCounter, State.modIdent_ident]

theorem State.releaseAs_marks (n : Nat) (s : State) : (s.releaseAs n).releaseMarks = (true, s.now, true, s.now) ∧
    (s.releaseAs n).ident = s.ident := ⟨rfl, rfl⟩

theorem State.firstWork_keeps (s : State) : s.firstWork.releaseMarks = s.releaseMarks ∧ s.firstWork.ident = s.ident := by
  unfold State.firstWork
  extract_lets t1 t2 t3 t4
  constructor
  · rw [State.noteEnded_releaseMarks, State.each_keeps State.releaseMarks fun p u =>
      (State.startTraining_moves p u).releaseMarks (by decide) (by decide)]
    calc t3.releaseMarks = t2.applyConfig.releaseMarks := State.judgeBuffer_releaseMarks _
      _ = t2.releaseMarks := State.applyConfig_releaseMarks _
      _ = t1.releaseMarks := State.when_emit_releaseMarks _ _ _ _ _ _
      _ = s.releaseMarks := State.when_emit_releaseMarks _ _ _ _ _ _
  · have m : s.Moves [.aon, .boot, .nor, .book, .power, .fa, .fb, .names, .prot, .ports, .seqs, .chorus, .cal, .mem, .therm, .pair]
        ((t4.each (fins 32) State.startTraining).noteEnded) :=
      Moves.op (State.noteEnded_moves _) (by decide) (Moves.each (fun p u h => Moves.op (State.startTraining_moves p u) (by decide) h)
        (Moves.op (State.modChorus_moves _ _) (by decide) (Moves.op (State.judgeBuffer_moves _) (by decide)
          (Moves.op (State.applyConfig_moves _) (by decide)
            (Moves.when (fun _ h => Moves.op (State.emit_moves _ _ _ _ _) (by decide) h)
              (Moves.when (fun _ h => Moves.op (State.emit_moves _ _ _ _ _) (by decide) h) (Moves.refl _ _)))))))
    exact m.only .ident (by decide)

theorem processorsRelease_eq {s : State} (h : s.Releasable) :
    exec .processorsRelease s = .next ((s.countBoot.releaseAs s.nextBoot).firstWork) :=
  congrArg Host.Outcome.next (if_pos h)

/-- The boot counter is raised and measured, and the processors run from then on with the watchdog armed. -/
theorem processorsRelease_ready {s : State} (hb : s.booting = true) (hi : s.boot.imageOk = true) (ht : s.boot.trained = true)
    (hc : s.aon.fillComplete = true) (hf : s.aon.fill = .idle) (hd : s.aon.dramState ≠ 3) (hk : s.ident.keyReady = true) :
    Does .processorsRelease s fun t => t.boot.released = true ∧ t.boot.releaseAt = s.now ∧ t.aon.dogArmed = true ∧ t.aon.dogAt = s.now ∧
      t.ident.bootCounter = BitVec.ofNat 64 (max s.nor.bootCounter.toNat s.newestCounter + 1) := by
  obtain ⟨now, counter⟩ := s.countBoot_counts
  obtain ⟨marks, ident⟩ := s.countBoot.releaseAs_marks s.nextBoot
  obtain ⟨kept, keptIdent⟩ := (s.countBoot.releaseAs s.nextBoot).firstWork_keeps
  rw [marks, now] at kept
  simp only [State.releaseMarks, Prod.mk.injEq] at kept
  obtain ⟨released, releaseAt, dog, dogAt⟩ := kept
  exact ⟨_, processorsRelease_eq ⟨hb, hi, ht, hc, hf, by simpa [State.fillDue] using hd, .inl hk⟩, released, releaseAt, dog, dogAt,
    by rw [keptIdent, ident, counter, State.nextBoot]⟩

/-! ## The statements on bring-up -/

theorem State.preserveCheck_cold {s : State} (h : s.boot.cold = true) : s.preserveCheck = s := by
  unfold State.preserveCheck
  rw [if_pos h]

/-- Eight channels that have trained after a main cold reset: the configuration is noted and step 6 is over (Table 2-9). -/
theorem State.channelsTrained_cold {s : State} (cap d n : Nat) (hs : s.aon.step = 5) (hc : s.boot.cold = true) :
    (s.channelsTrained cap d n).boot.trained = true ∧ (s.channelsTrained cap d n).mem.capacityGib = cap ∧
      (s.channelsTrained cap d n).mem.ranks = n ∧ (s.channelsTrained cap d n).aon.step = 6 ∧
      (s.channelsTrained cap d n).aon.error = s.aon.error := by
  unfold State.channelsTrained
  obtain ⟨f, c, e, -⟩ := (s.channelsNoted cap d n).tryDramFill_eq
  rw [State.preserveCheck_cold (s := s.channelsNoted cap d n) hc, e]
  exact ⟨rfl, rfl, rfl, State.setStep_step (n := 6) (by rw [State.modMem_aon, hs]; decide), rfl⟩

theorem dramTrainingDone_uniform {s : State} (hb : s.booting = true) (hs : s.aon.step = 5) (ht : s.boot.trained = false)
    (hc : s.boot.cold = true) : Does (.dramTrainingDone (List.replicate 8 16) (List.replicate 8 (some 16))) s fun t =>
      t.boot.trained = true ∧ t.mem.capacityGib = 32 ∧ t.mem.ranks = 2 ∧ t.aon.step = 6 ∧ t.aon.error = s.aon.error :=
  ⟨_, execDramTrainingDone_trains (u := [16, 16]) (cap := 32) hb (by rw [hs]; decide) ht (by decide) (by decide) (by decide),
    State.channelsTrained_cold 32 16 2 hs hc⟩

/-- A rank of channel 2 that reports 24 Gbit among ranks of 16 is at fault alone. -/
theorem failedChannels_odd_rank : failedChannels (rankDensities (List.replicate 8 16)
    [some 16, some 16, some 24, some 16, some 16, some 16, some 16, some 16]) = [2] := by decide

theorem imageLoaded_noSlot {s : State} (hb : s.booting = true) (hs : s.aon.step = 6) (hi : s.boot.imageOk = false)
    (hr : s.boot.recoveryWait = false) (hc : s.aon.bootSrc = false) (hk : s.nor.dir.candidate = none) :
    Does .imageLoaded s fun t => t.aon.error = 0x08 ∧ t.boot.recoveryWait = true ∧ t.boot.imageOk = false := by
  obtain ⟨-, -, imageOk, -⟩ := s.dirRead_finds
  exact ⟨_, imageLoaded_none hb (by rw [hs]; decide) hi hr hc hk, rfl, rfl, imageOk.trans hi⟩

/-- Settles O9: each clause is the lemma of its command above. -/
theorem bringUpCommands : Obligations.BringUpCommands := by
  refine ⟨fun _ hb hs => bootRomSelfTest_pass hb hs, fun _ hb hs => bootRomSelfTest_fail hb hs, fun s hb hf hs => ?sram,
    fun _ hb hf => ?sramFault, fun s hb hf hc => ?dram, fun _ hb hf => ?dramFault, fun _ hb hs ht hc => dramTrainingDone_uniform hb hs ht hc,
    fun s hb hs ht hr => ?oddRank, fun s ch hb hs ht hr => ?channel, fun s ch hb hs ht hr => ?channelOut,
    fun _ _ hb hs hi hr hc hk hq => imageLoaded_candidate hb hs hi hr hc hk hq,
    fun _ hb hs hi hr hc hk => imageLoaded_noSlot hb hs hi hr hc hk,
    fun _ hb hi ht hc hf hd hk => processorsRelease_ready hb hi ht hc hf hd hk,
    fun _ hb hs hi hr hc => ⟨_, imageLoaded_waits hb hs hi hr hc, rfl, hi, rfl, rfl⟩, fun s hb hs ht hr => ?oddRankOut⟩
  case sram => exact ⟨_, memoryFillDone_sram hb hf, rfl, rfl, State.setStep_step (n := 5) (by rw [hs]; decide)⟩
  case sramFault =>
    obtain ⟨t, run, error, -⟩ := memoryFillDone_mismatch hb hf (.inl rfl)
    exact ⟨t, run, error⟩
  case dram => exact ⟨_, memoryFillDone_dram hb hf, rfl, if_pos hc⟩
  case dramFault =>
    obtain ⟨t, run, error, -⟩ := memoryFillDone_mismatch hb hf (.inr rfl)
    exact ⟨t, run, error⟩
  case oddRank =>
    obtain ⟨t, run, retries, aon, trained⟩ :=
      does_channelRetry (execDramTrainingDone_fails hb (by rw [hs]; decide) ht failedChannels_odd_rank) hb ht hr
    exact ⟨t, run, trained, retries, aon⟩
  case channel =>
    obtain ⟨t, run, retries, aon, -⟩ := does_channelRetry (dramChannelTrainingFail_eq ch hb (by rw [hs]; decide) ht) hb ht hr
    exact ⟨t, run, retries, aon⟩
  case channelOut =>
    obtain ⟨t, run, error, -⟩ := does_channelStop (dramChannelTrainingFail_eq ch hb (by rw [hs]; decide) ht) hb ht hr
    exact ⟨t, run, error⟩
  case oddRankOut =>
    obtain ⟨t, run, error, stopped, trained⟩ :=
      does_channelStop (execDramTrainingDone_fails hb (by rw [hs]; decide) ht failedChannels_odd_rank) hb ht hr
    exact ⟨t, run, trained, error, stopped⟩

/-! ## The fill-complete flag -/

/-- With no fill running, one that begins has cleared the flag. -/
theorem State.tryDramFill_clears {s : State} (h : s.aon.fill = .idle) :
    s.tryDramFill.aon.fill = .idle ∨ s.tryDramFill.aon.fillComplete = false := by
  obtain ⟨f, c, e, clears⟩ := s.tryDramFill_eq
  rw [e]
  exact clears h

theorem State.preserveCheck_fill (s : State) : s.preserveCheck.aon.fill = s.aon.fill := by
  unfold State.preserveCheck
  split
  · rfl
  · split <;> rfl

theorem dramTrainingDone_clears {s : State} (l : List Nat) (r : List (Option Nat)) (h : s.aon.fill = .idle) :
    Does (.dramTrainingDone l r) s fun t => t.aon.fill = .idle ∨ t.aon.fillComplete = false := by
  obtain run | ⟨cap, -, -, run⟩ | run := execDramTrainingDone_cases l r s
  · exact ⟨_, run, .inl h⟩
  · exact ⟨_, run, State.tryDramFill_clears ((State.preserveCheck_fill _).trans h)⟩
  · obtain ⟨-, -, idle⟩ := s.channelsFail_keep (failedChannels (rankDensities l r))
    exact ⟨_, run, .inl (idle h)⟩

theorem State.acceptImage_clears {k : Bool} {s : State} (h : s.aon.fill = .idle) :
    (s.acceptImage k).aon.fill = .idle ∨ (s.acceptImage k).aon.fillComplete = false := by
  obtain ⟨-, -, -, -, fill⟩ := s.countAttempt_aon k
  obtain ⟨-, -, -, aon⟩ := (s.countAttempt k).startSlot_runs k
  exact State.tryDramFill_clears ((congrArg Aon.fill aon).trans (fill.trans h))

theorem State.rejectImage_idle {k : Bool} {s : State} (h : s.aon.fill = .idle) : (s.rejectImage k).aon.fill = .idle := by
  unfold State.rejectImage
  extract_lets t
  have aon : t.aon = s.aon := (State.writeDir_moves _ s).only .aon (by decide)
  split
  · rfl
  · rw [aon, h]

theorem imageLoaded_clears {s : State} (h : s.aon.fill = .idle) :
    Does .imageLoaded s fun t => t.aon.fill = .idle ∨ t.aon.fillComplete = false := by
  by_cases c : s.booting = true ∧ 5 ≤ s.aon.step.toNat ∧ ¬ s.boot.imageOk = true ∧ ¬ s.boot.recoveryWait = true
  · obtain ⟨hb, hs, hi, hr⟩ := c
    rw [Bool.not_eq_true] at hi hr
    cases hc : s.aon.bootSrc
    · cases hk : s.nor.dir.candidate with
      | none => exact ⟨_, imageLoaded_none hb hs hi hr hc hk, .inl rfl⟩
      | some k =>
        refine ⟨_, imageLoaded_some hb hs hi hr hc hk, ?_⟩
        obtain ⟨-, aon, -⟩ := s.slotRead_finds k
        have idle : (s.slotRead k).aon.fill = .idle := by rw [aon, h]
        split
        · exact State.acceptImage_clears idle
        · exact .inl (State.rejectImage_idle idle)
    · exact ⟨_, imageLoaded_waits hb hs hi hr hc, .inl h⟩
  · exact ⟨s, congrArg Host.Outcome.next (if_neg c), .inl h⟩

theorem memoryFillDone_sets {s : State} (hb : s.booting = true) (hf : s.aon.fill ≠ .idle) :
    Does (.memoryFillDone false) s fun t => t.aon.fill = .idle ∧ t.aon.fillComplete = true := by
  cases e : s.aon.fill
  · exact absurd e hf
  · exact ⟨_, memoryFillDone_sram hb e, rfl, rfl⟩
  · exact ⟨_, memoryFillDone_dram hb e, rfl, rfl⟩

/-- Settles O47: what starts a fill clears the flag, its end sets it, and the release and every step respect it (R63). -/
theorem fillFlagGuardsRelease : Obligations.FillFlagGuardsRelease := by
  refine ⟨fun _ hb hs => ?_, fun _ l r h => dramTrainingDone_clears l r h, fun _ h => imageLoaded_clears h,
    fun _ hb hf => memoryFillDone_sets hb hf,
    fun _ h => processorsRelease_held fun ⟨_, _, _, full, _⟩ => Bool.false_ne_true (h.symm.trans full),
    fun _ _ i run => (step_keeps_inv i run).filled⟩
  obtain ⟨t, run, -, fill, clear, -⟩ := bootRomSelfTest_pass hb hs
  exact ⟨t, run, fill, clear⟩

end Sys2Proof.Machine
end

section
/-! SUPPORT. The loss of REFCLK_LINK (spec/02 R52; spec/03 R139): a port's third reset in 60 s ends its bring-up training, and without the
clock that is the end of every port's, which the bring-up notes. -/

namespace Sys2Proof.Machine

/-- Without REFCLK_LINK every port counts as having ended (log 120), so step 10 is over once a port ends. -/
theorem State.noteEnded_noClock {s : State} (hr : s.boot.released = true) (hl : s.pins.linkPll = false) :
    s.noteEnded.boot.portsEnded = true := by
  have all : s.allPortsEnded = true := by simp [State.allPortsEnded, hl]
  unfold State.noteEnded
  split
  · rfl
  next h =>
    cases e : s.boot.portsEnded
    · exact absurd ⟨hr, by simp [e], all⟩ h
    · rfl

theorem State.noteEnded_keepsEnded {s : State} (h : s.boot.portsEnded = true) : s.noteEnded.boot.portsEnded = true := by
  unfold State.noteEnded
  split
  · rfl
  · exact h

/-- A port that fails has ended its bring-up training. -/
theorem State.portFail_ends (p : PortId) (n : Fin 16) (s : State) :
    ∃ u : State, u.boot = s.boot ∧ u.pins = s.pins ∧ s.portFail p n = u.noteEnded := by
  unfold State.portFail
  refine ⟨_, ?_, ?_, rfl⟩
  · exact ((State.noteService_moves p _).only .boot (by decide)).trans ((State.raisePort_moves p 4 _).only .boot (by decide))
  · exact ((State.noteService_moves p _).only .pins (by decide)).trans ((State.raisePort_moves p 4 _).only .pins (by decide))

theorem State.when_modPort_boot (b : Bool) (p : PortId) (f : Port → Port) (s : State) :
    (s.when b (State.modPort p f)).boot = s.boot ∧ (s.when b (State.modPort p f)).pins = s.pins := by
  unfold State.when
  split <;> exact ⟨rfl, rfl⟩

/-- A port reset reaches the bring-up through the end of the port alone, which its third in 60 s is. -/
theorem State.portReset_ends (p : PortId) (s : State) :
    ∃ u : State, u.boot = s.boot ∧ u.pins = s.pins ∧
      s.portReset p = if 3 ≤ (s.now :: recent s.now (60 * Config.sec) (s.port p).resets).length then u.noteEnded else u := by
  unfold State.portReset
  extract_lets was resets t1 t2 t3
  have m : s.Moves [.aon, .nor, .book, .ctxs, .decisions, .prot, .ports, .spins, .acts, .seqs, .chorus, .actCals, .xing, .therm, .pair,
      .svc, .out] t3 :=
    Moves.op (State.raisePort_moves _ _ _) (by decide) (Moves.op (State.bandSwitch_moves _) (by decide)
      (Moves.each (fun _ _ h => Moves.op (State.modAcal_moves _ _ _) (by decide) h)
        (Moves.op (State.resetUnits_moves _ _) (by decide) (State.modPort_leaves (fun _ => rfl) (by decide) (Moves.refl _ _)))))
  have boot : t3.boot = s.boot := m.only .boot (by decide)
  have pins : t3.pins = s.pins := m.only .pins (by decide)
  clear_value t3
  by_cases third : 3 ≤ (s.now :: recent s.now (60 * Config.sec) (s.port p).resets).length
  · obtain ⟨u, ub, up, e⟩ := t3.portFail_ends p 9
    exact ⟨u, ub.trans boot, up.trans pins, (if_pos third).trans (e.trans (if_pos third).symm)⟩
  · refine ⟨_, ?_, ?_, (if_neg third).trans (if_neg third).symm⟩
    · exact ((State.noteService_moves p _).only .boot (by decide)).trans ((State.when_modPort_boot _ p _ t3).1.trans boot)
    · exact ((State.noteService_moves p _).only .pins (by decide)).trans ((State.when_modPort_boot _ p _ t3).2.trans pins)

theorem State.portReset_keepsEnded (p : PortId) {s : State} (h : s.boot.portsEnded = true) : (s.portReset p).boot.portsEnded = true := by
  obtain ⟨u, boot, -, e⟩ := s.portReset_ends p
  have ended : u.boot.portsEnded = true := boot ▸ h
  rw [e]
  split
  · exact State.noteEnded_keepsEnded ended
  · exact ended

theorem State.portReset_third {p : PortId} {s : State} (hr : s.boot.released = true) (hl : s.pins.linkPll = false)
    (h : 2 ≤ (recent s.now (60 * Config.sec) (s.port p).resets).length) : (s.portReset p).boot.portsEnded = true := by
  obtain ⟨u, boot, pins, e⟩ := s.portReset_ends p
  rw [e, if_pos (by rw [List.length_cons]; omega)]
  exact State.noteEnded_noClock (boot ▸ hr) (pins ▸ hl)

/-- What the loss of the clock does at one port. -/
def State.portLost (p : PortId) (s : State) : State :=
  if inRange 2 9 (s.port p).train.val || (s.port p).linked then s.portReset p
  else if (s.port p).train == 1 || (s.port p).train == 0xC then
    ((s.modPort p fun x => { x.afterReset with train := 0, joint := x.joint, attempt := x.attempt }).stopUnits p).noteService p
  else s.modPort p fun x => { x with cmdUp := false }

theorem State.each_cons {α : Type} (x : α) (l : List α) (f : α → State → State) (s : State) : s.each (x :: l) f = (f x s).each l f := rfl

theorem State.linkLost_eq (s : State) : s.linkLost = (s.modPins fun p => { p with linkPll := false }).each (fins 32) State.portLost := rfl

theorem State.portLost_keepsEnded (p : PortId) {s : State} (h : s.boot.portsEnded = true) : (s.portLost p).boot.portsEnded = true := by
  unfold State.portLost
  split
  · exact State.portReset_keepsEnded p h
  · split
    · generalize hf : (s.modPort p fun x => { x.afterReset with train := 0, joint := x.joint, attempt := x.attempt }) = t
      have boot : t.boot = s.boot := by rw [← hf]; rfl
      rw [show ((t.stopUnits p).noteService p).boot = (t.stopUnits p).boot from (State.noteService_moves p _).only .boot (by decide),
        show (t.stopUnits p).boot = t.boot from (State.stopUnits_moves p t).only .boot (by decide), boot, h]
    · exact h

theorem State.portsLost_keepEnded (l : List PortId) {s : State} (h : s.boot.portsEnded = true) :
    (s.each l State.portLost).boot.portsEnded = true :=
  State.each_inv (P := fun t => t.boot.portsEnded = true) (fun p _ e => State.portLost_keepsEnded p e) l h

/-- The loss of the clock at port 0's third reset in 60 s notes the end of every port. -/
theorem State.linkLost_third {s : State} (hr : s.boot.released = true) (ht : inRange 2 9 (s.port 0).train.val = true)
    (h : 2 ≤ (recent s.now (60 * Config.sec) (s.port 0).resets).length) : s.linkLost.boot.portsEnded = true := by
  have first : ((s.modPins fun p => { p with linkPll := false }).portLost 0).boot.portsEnded = true := by
    rw [State.portLost, if_pos (by rw [State.modPins_port, ht]; rfl)]
    exact State.portReset_third hr rfl h
  obtain ⟨others, ports⟩ : ∃ l : List PortId, fins 32 = 0 :: l := ⟨_, List.finRange_succ⟩
  rw [State.linkLost_eq, ports, State.each_cons]
  exact State.portsLost_keepEnded others first

/-- REFCLK_LINK_CHECK that finds the clock lost. -/
theorem refclkLinkCheck_lost {s : State} (h : s.pins.linkPll = true) :
    exec (.refclkLinkCheck false) s = .next (s.linkLost.modPins fun p => { p with linkCheckAt := s.now }) := by
  show execRefclkLinkCheck false s = _
  unfold execRefclkLinkCheck
  rw [if_neg Bool.false_ne_true, if_pos h]

/-- The processors released, the link PLL locked, and port 0 present, training and twice reset in this minute. -/
def State.twiceReset : State :=
  { State.reset with
    pins := { Pins.reset with linkPll := true, prsnt := 1 }
    aon := { Aon.reset with hold := .running, fillComplete := true }
    boot := { Boot.reset with trained := true, imageOk := true, released := true }
    ports := upd (Vector.replicate 32 Port.reset) 0 fun x => { x with train := 2, resets := [0, 0] } }

theorem State.twiceReset_port : State.twiceReset.port 0 = { Port.reset with train := 2, resets := [0, 0] } := by
  simp [State.twiceReset, State.port, upd]

/-- Refutes O8: its clause on the loss of REFCLK_LINK holds BOOT as it was in every state, and counts a port's third reset in 60 s in. That
reset fails the port (R139); without the clock every port then counts as having ended its bring-up training (log 120), so BOOT's note of
that end, which is not set in the state here, is set. -/
theorem not_resetCommands : ¬ Obligations.ResetCommands := by
  intro h
  obtain ⟨_, _, _, _, _, _, _, _, _, _, _, _, _, _, _, lost, _⟩ := h
  have training : inRange 2 9 (State.twiceReset.port 0).train.val = true := by rw [State.twiceReset_port]; rfl
  obtain ⟨t, run, -, -, -, -, -, boot⟩ := lost State.twiceReset 0 rfl training
  have ended : t.boot.portsEnded = true := by
    rw [← Host.Outcome.next.inj ((refclkLinkCheck_lost rfl).symm.trans run), State.modPins_boot]
    exact State.linkLost_third (s := State.twiceReset) rfl training (by rw [State.twiceReset_port]; decide)
  rw [boot] at ended
  exact absurd ended (by decide)

end Sys2Proof.Machine
end

section
/-! SUPPORT. The events of a port (spec/02 R82, R86; spec/03 R115, R144): STATUS, removal, the ends of start slots, and boot complete. -/

namespace Sys2Proof.Machine

/-! ## STATUS -/

/-- A STATUS whose flags are clear, of a chopper that is well, leaves the spindle as it runs. -/
theorem State.chopperStatus_clear {p : PortId} {s : State} (hc : (s.spin p).chopper = false) (hr : (s.spin p).st ≠ .regenDown) :
    s.chopperStatus p 0 = s.modSpin p fun v => { v with chopper := false } := by
  simp [State.chopperStatus, State.when, hc, hr, ovFlags]

theorem State.noteCmdUncorr_training {p : PortId} (corr total : W32) {s : State} (h : (s.port p).train = 7) :
    s.noteCmdUncorr p corr total = s := by
  simp [State.noteCmdUncorr, Port.linked, h]

/-- What a STATUS with clear flags writes to a port that is not linked yet. -/
theorem State.takeStatus_training {p : PortId} {k : Packet} {s : State} (hl : k.payload.length = 24) (hf : field k.payload 4 2 = 0)
    (hc : (s.spin p).chopper = false) (hr : (s.spin p).st ≠ .regenDown) (ht : (s.port p).train = 7) :
    ((s.takeStatus p k).port p).hdaTemp = BitVec.ofNat 16 (field k.payload 0 2) ∧
      ((s.takeStatus p k).port p).supplyMv = BitVec.ofNat 16 (field k.payload 2 2) ∧
      ((s.takeStatus p k).port p).token = BitVec.ofNat 64 (field k.payload 16 8) := by
  unfold State.takeStatus
  rw [if_neg (by simp [hl]), hf]
  extract_lets temp flags token valid t1 t2 t3 t4 t5 t6 t7 x t8
  have quiet : t5 = t2 := by simp [t5, t4, t3, flags, State.when]
  have told : (t5.port p).hdaTemp = BitVec.ofNat 16 temp ∧ (t5.port p).supplyMv = BitVec.ofNat 16 (field k.payload 2 2) ∧
      (t5.port p).token = BitVec.ofNat 64 token ∧ (t5.port p).train = 7 := by
    rw [quiet, State.modPair_port, State.modPort_port, if_pos rfl]
    exact ⟨rfl, rfl, rfl, ht⟩
  have spin : t5.spin p = s.spin p := by rw [quiet, State.modPair_spin, State.modPort_spin]
  have t6_eq : t6 = t5.modSpin p fun v => { v with chopper := false } :=
    State.chopperStatus_clear (by rw [spin, hc]) (by rw [spin]; exact hr)
  have m : t5.Moves [.aon, .book, .spins, .actCals, .portCals, .therm] t7 := by
    refine Moves.when (fun u h => Moves.op (State.judgeHda_moves _ _) (by decide) (Moves.op (State.modPcal_moves _ _ _) (by decide) h)) ?_
    rw [t6_eq]
    exact Moves.op (State.modSpin_moves _ _ _) (by decide) (Moves.refl _ _)
  have port : t7.port p = t5.port p := State.port_of_ports (m.only .ports (by decide)) p
  have unlinked : t8 = t7 := if_neg (by simp [x, Port.linked, port, told.2.2.2])
  rw [unlinked, State.noteCmdUncorr_training _ _ (by rw [port, told.2.2.2]), port]
  exact ⟨told.1, told.2.1, told.2.2.1⟩

theorem status_training {s : State} {p : PortId} {k : Packet} (hk : Received s p 0xE0 k) (hl : k.payload.length = 24)
    (hf : field k.payload 4 2 = 0) (hc : (s.spin p).chopper = false) (hr : (s.spin p).st ≠ .regenDown) (ht : (s.port p).train = 7) :
    Does (.status p) s fun t => (t.port p).hdaTemp = BitVec.ofNat 16 (field k.payload 0 2) ∧
      (t.port p).supplyMv = BitVec.ofNat 16 (field k.payload 2 2) ∧ (t.port p).token = BitVec.ofNat 64 (field k.payload 16 8) := by
  have any : ((s.port p).rx.any fun k => k.opcode == 0xE0) = true :=
    List.any_eq_true.mpr ⟨k, List.mem_of_mem_head? hk.1, beq_iff_eq.mpr (BitVec.eq_of_toNat_eq hk.2)⟩
  refine ⟨_, congrArg Host.Outcome.next ((if_pos any).trans (State.takeRx_of hk _)), State.takeStatus_training hl hf ?_ ?_ ?_⟩
  · rw [State.modPort_spin, hc]
  · rw [State.modPort_spin]
    exact hr
  · rw [State.modPort_port, if_pos rfl]
    exact ht

/-! ## Removal -/

theorem hotRemove_ignored {s : State} (p : PortId) {n : Nat} (h : n ≤ 1000) : Does (.hotRemove p n) s fun t => t = s :=
  ⟨s, congrArg Host.Outcome.next (if_pos (.inl h)), rfl⟩

/-- What ends with an HDA that has gone changes no port and no pin, while PS3 is not being entered. -/
theorem State.hdaGone_moves (p : PortId) {s : State} (h : s.power.entering = false) :
    s.Moves [.aon, .boot, .nor, .book, .power, .fa, .fb, .ctxs, .decisions, .names, .prot, .mem, .mcache, .pair, .svc, .free, .out]
      ((((s.compGone p).formatGone p).memberAbsent p).noteEnded.bufferChanged.settle) := by
  have ended : s.Moves [.aon, .boot, .nor, .book, .prot, .pair, .svc, .out] ((((s.compGone p).formatGone p).memberAbsent p).noteEnded) :=
    Moves.op (State.noteEnded_moves _) (by decide) (Moves.op (State.memberAbsent_moves _ _) (by decide)
      (Moves.op (State.formatGone_moves _ _) (by decide) (Moves.op (State.compGone_moves _ _) (by decide) (Moves.refl _ _))))
  have power : ((((s.compGone p).formatGone p).memberAbsent p).noteEnded).power = s.power := ended.only .power (by decide)
  exact Moves.op (State.settle_moves _) (by decide) (Moves.op (State.bufferChanged_quiet _ (by rw [power, h])) (by decide)
    (Moves.op ended (by decide) (Moves.refl _ _)))

/-- An HDA that has gone leaves its port empty, whatever ends with it (R144). -/
theorem hotRemove_gone {s : State} {p : PortId} {n : Nat} (hn : 1000 < n) (hp : s.pins.prsnt.getLsbD p.val = true)
    (hr : s.aon.hold = .running) (he : s.power.entering = false) :
    Does (.hotRemove p n) s fun t => t.pins.prsnt.getLsbD p.val = false ∧ (t.port p).train = 0 ∧ (t.port p).events.getLsbD 6 = true ∧
      (t.port p).inService = false := by
  obtain ⟨t, next, -⟩ := execHotRemove_moves p n s
  refine ⟨t, next, ?_⟩
  unfold execHotRemove at next
  rw [if_neg (by simp [hp]; omega)] at next
  extract_lets s1 s2 s3 s4 at next
  rw [if_neg (by simp [s1, hr])] at next
  have run := Host.Outcome.next.inj next
  clear next
  have removed : s1.pins.prsnt.getLsbD p.val = false := clearBit_get _ _
  have power1 : s1.power = s.power := rfl
  clear_value s1
  have reset : s1.Moves [.aon, .boot, .nor, .book, .ctxs, .decisions, .prot, .ports, .spins, .acts, .seqs, .chorus, .actCals, .xing, .therm,
      .pair, .svc, .out] s2 := State.modPort_leaves (fun _ => rfl) (by decide) (State.portReset_moves p s1)
  have port : (s2.port p).train = 0 ∧ (s2.port p).inService = false := by
    simp only [s2, State.modPort_port, if_true, and_self]
  clear_value s2
  have raised : (s3.port p).train = 0 ∧ (s3.port p).events.getLsbD 6 = true ∧ (s3.port p).inService = false := by
    simp only [s3, State.modSpin_port, State.raisePort_port, if_true]
    exact ⟨port.1, setBit_get _ _ (by decide), port.2⟩
  have emptied : s1.Moves [.aon, .boot, .nor, .book, .ctxs, .decisions, .prot, .ports, .spins, .acts, .seqs, .chorus, .actCals, .xing, .therm,
      .pair, .svc, .out] s3 := Moves.op (State.modSpin_moves _ _ _) (by decide) (Moves.op (State.raisePort_moves _ _ _) (by decide) reset)
  clear_value s3
  have forgotten : s3.Moves [.seqs, .actCals] s4 :=
    Moves.each (fun _ _ h => Moves.op (State.modAcal_moves _ _ _) (by decide) (Moves.op (State.modSeq_moves _ _ _) (by decide) h))
      (Moves.refl _ _)
  have power : s4.power = s.power :=
    ((forgotten.only .power (by decide)).trans (emptied.only .power (by decide))).trans power1
  have gone := State.hdaGone_moves p (s := s4) (by rw [power, he])
  rw [run] at gone
  have pins : t.pins = s1.pins :=
    ((gone.only .pins (by decide)).trans (forgotten.only .pins (by decide))).trans (emptied.only .pins (by decide))
  have ports : t.port p = s3.port p :=
    State.port_of_ports ((gone.only .ports (by decide)).trans (forgotten.only .ports (by decide))) p
  rw [pins, ports]
  exact ⟨removed, raised⟩

/-! ## Start slots -/

theorem State.freeSlot_slotAt (p : PortId) (s : State) : ((s.freeSlot p).spin p).slotAt = none := by
  unfold State.freeSlot State.spin
  rw [show ((s.modSpin p _).noteService p).spins = (s.modSpin p _).spins from (State.noteService_moves p _).only .spins (by decide)]
  exact (congrArg Spin.slotAt ((upd_get _ _ _ _).trans (if_pos rfl)))

theorem State.settle_compBack_moves (p : PortId) (s : State) :
    s.Moves [.aon, .power, .names, .prot, .pair, .book, .svc, .out] (s.settle.compBack p) :=
  Moves.op (State.compBack_moves p _) (by decide) (Moves.op (State.settle_moves s) (by decide) (Moves.refl _ _))

/-- A slot that is freed stays free through the settling that follows. -/
theorem State.freeSlot_settled (p : PortId) (s : State) : ((((s.freeSlot p).settle).compBack p).spin p).slotAt = none := by
  have spins : (((s.freeSlot p).settle).compBack p).spins = (s.freeSlot p).spins :=
    ((s.freeSlot p).settle_compBack_moves p).only .spins (by decide)
  have freed := s.freeSlot_slotAt p
  unfold State.spin at freed ⊢
  rw [spins, freed]

theorem startSlotFree_inService {s : State} {p : PortId} {n : Nat} (h : (s.spin p).slotAt = some n) (hs : (s.port p).inService = true) :
    Does (.startSlotFree p) s fun t => (t.spin p).slotAt = none :=
  ⟨_, congrArg Host.Outcome.next (if_pos ⟨by rw [h]; rfl, hs⟩), s.freeSlot_settled p⟩

/-- START_SLOT_TIMEOUT takes place 15 s after the slot was taken. -/
theorem startSlotTimeout_due {s : State} {p : PortId} {n : Nat} (h : (s.spin p).slotAt = some n) :
    exec (.startSlotTimeout p) s = .next ((if (s.spin p).inReg = true then ((s.at_ (n + 15 * Config.sec)).freeSlot p).settle
      else (s.at_ (n + 15 * Config.sec)).startFailure p).compBack p) := by
  show execStartSlotTimeout p s = _
  unfold execStartSlotTimeout
  rw [h]
  rfl

theorem startSlotTimeout_inBand {s : State} {p : PortId} {n : Nat} (h : (s.spin p).slotAt = some n) (hr : (s.spin p).inReg = true) :
    Does (.startSlotTimeout p) s fun t => (t.spin p).slotAt = none ∧ n + 15 * Config.sec ≤ t.now := by
  have run := startSlotTimeout_due h
  rw [if_pos hr] at run
  have now := Nat.le_trans (State.freeSlot_moves p (s.at_ (n + 15 * Config.sec))).time
    (((s.at_ (n + 15 * Config.sec)).freeSlot p).settle_compBack_moves p).time
  exact ⟨_, run, (s.at_ (n + 15 * Config.sec)).freeSlot_settled p, Nat.le_trans (Nat.le_max_right _ _) now⟩

theorem State.markFailedStart_port (p : PortId) (s : State) :
    ((s.markFailedStart p).port p).fail = 0xA ∧ ((s.markFailedStart p).port p).train = 0xA := by
  simp only [State.markFailedStart, State.raisePort_port, State.modPort_port, if_true, and_self]

/-- A spindle that has not reached its band has failed to start (spec/04 R168). -/
theorem State.startFailure_port (p : PortId) (s : State) :
    ((s.startFailure p).port p).fail = 0xA ∧ ((s.startFailure p).port p).train = 0xA := by
  unfold State.startFailure
  have m : ((s.spinDown p).markFailedStart p).Moves [.aon, .power, .names, .prot, .spins, .pair, .out]
      ((((s.spinDown p).markFailedStart p).freeSlot p).settle) :=
    Moves.op (State.settle_moves _) (by decide) (Moves.op (State.freeSlot_moves _ _) (by decide) (Moves.refl _ _))
  rw [State.port_of_ports (m.only .ports (by decide)) p]
  exact State.markFailedStart_port p _

theorem startSlotTimeout_outOfBand {s : State} {p : PortId} {n : Nat} (h : (s.spin p).slotAt = some n) (hr : (s.spin p).inReg = false) :
    Does (.startSlotTimeout p) s fun t => (t.port p).fail = 0xA ∧ (t.port p).train = 0xA ∧ n + 15 * Config.sec ≤ t.now := by
  have run := startSlotTimeout_due h
  rw [if_neg (by simp [hr])] at run
  obtain ⟨fail, train⟩ := (s.at_ (n + 15 * Config.sec)).startFailure_port p
  have back := State.compBack_moves p ((s.at_ (n + 15 * Config.sec)).startFailure p)
  have port := State.port_of_ports (back.only .ports (by decide)) p
  have now := Nat.le_trans (State.startFailure_moves p (s.at_ (n + 15 * Config.sec))).time back.time
  exact ⟨_, run, by rw [port, fail], by rw [port, train], Nat.le_trans (Nat.le_max_right _ _) now⟩

/-! ## Boot complete -/

theorem State.writeDir_complete (f : BootDir → BootDir) (s : State) : (s.writeDir f).boot.complete = s.boot.complete ∧
    (s.writeDir f).boot.portsEnded = s.boot.portsEnded := by
  simp only [State.writeDir, State.norProgram, State.norErase, State.norRun, State.modNor_boot, State.modBoot_boot, and_self]

/-- BOOT_COMPLETE without power failure: an enabled function that has not failed is ready (R86). -/
theorem bootComplete_ready {s : State} (hr : s.boot.released = true) (hc : s.boot.complete = false) (hp : s.allPortsEnded = true)
    (hen : s.fa.cc.getLsbD 0 = true) (hcfs : s.fa.cfs = false) (hf : s.pins.pwrfail = false) :
    Does .bootComplete s fun t => t.boot.complete = true ∧ t.boot.portsEnded = true ∧ t.fa.rdy = true := by
  obtain ⟨t, next, -⟩ := execBootComplete_moves s
  refine ⟨t, next, ?_⟩
  unfold execBootComplete at next
  rw [if_pos ⟨hr, by simp [hc], hp⟩] at next
  extract_lets s1 s2 ready s3 s4 s5 at next
  have run := Host.Outcome.next.inj next
  clear next
  have noted : s2.boot.complete = true ∧ s2.boot.portsEnded = true ∧ s2.fa = s.fa ∧ s2.pins = s.pins := by
    simp only [s2]
    split
    · exact ⟨rfl, rfl, rfl, rfl⟩
    · have m := State.writeDir_moves (BootDir.setAttempts s1.aon.slot 0) s1
      obtain ⟨complete, ended⟩ := s1.writeDir_complete (BootDir.setAttempts s1.aon.slot 0)
      exact ⟨complete, ended, m.only .fa (by decide), m.only .pins (by decide)⟩
  obtain ⟨complete, ended, fa, pins⟩ := noted
  clear_value s2
  have rdy : s3.fa.rdy = true := by
    have e : s3.fa = ready s2.fa := rfl
    rw [e, fa]
    simp only [ready]
    rw [if_pos ⟨hen, by simp [hcfs]⟩]
  have kept : s3.boot = s2.boot ∧ s3.pins = s.pins := ⟨rfl, pins⟩
  clear_value s3
  have missing := s3.membersMissing_moves
  have m : s3.Moves [.aon, .nor, .book, .power, .names, .prot, .pair, .out] t := by
    have quiet : (s4.pins.pwrfail && s4.boot.preserved && s4.dirtyBytes != 0) = false := by
      rw [show s4.pins = s3.pins from missing.only .pins (by decide), kept.2, hf]
      rfl
    have e : s5 = s4 := by simp only [s5, State.when, quiet, if_neg Bool.false_ne_true]
    rw [← run, e]
    exact Moves.op (State.settle_moves _) (by decide) (Moves.op missing (by decide) (Moves.refl _ _))
  rw [show t.boot = s3.boot from m.only .boot (by decide), show t.fa = s3.fa from m.only .fa (by decide), kept.1]
  exact ⟨complete, ended, rdy⟩

/-- Settles O45: each clause is the lemma of its command above. -/
theorem portEventCommands : Obligations.PortEventCommands :=
  ⟨fun _ _ _ hk hl hf hc hr ht => status_training hk hl hf hc hr ht, fun _ _ _ hn hp hr he => hotRemove_gone hn hp hr he,
    fun _ p _ h => hotRemove_ignored p h, fun _ _ _ h hs => startSlotFree_inService h hs,
    fun _ _ _ h hr => startSlotTimeout_inBand h hr, fun _ _ _ h hr => startSlotTimeout_outOfBand h hr,
    fun _ hr hc hp hen hcfs hf => bootComplete_ready hr hc hp hen hcfs hf⟩

end Sys2Proof.Machine
end

section
/-! SUPPORT. A hung read that a captured value answers (spec/14 R525, R532). -/

namespace Sys2Proof.Machine

/-- Port 3 out of its joint reset with its recovered clock stopped, port A's read of its count of corrected sample-lane blocks hung on that
clock, and the value 5 captured for port A at that register. -/
def State.capturedCount : State :=
  { State.reset with
    ports := upd State.reset.ports 3 fun x => { x with joint := false }
    xing := { Xing.reset with
      captured := [(.portA, 0x30E0, 5)], hung := [{ who := .portA, off := 0x30E0, write := none, packet := none }] } }

/-- The clock back, the hung read ends with the captured value, and not with the count. -/
theorem clockPresentSet_capturedCount :
    Does (.clockPresentSet 3 64) State.capturedCount fun t => t.out.head? = some (.value .portA 0x30E0 5) :=
  ⟨_, rfl, by decide +kernel⟩

/-- Refutes O26: its clause on the hung read that CLOCK_PRESENT_SET lets end answers it with the count in every state. Where a value stands
captured for its requester at that register the read answers that value (R525), as in the state here; O16 has the premise that none does,
and this clause lacks it: it speaks of every state, although commands capture values of _HI registers alone. -/
theorem not_linkCommands : ¬ Obligations.LinkCommands := by
  intro h
  obtain ⟨_, _, _, _, _, _, _, _, _, _, _, _, _, _, _, _, _, _, _, _, _, hungRead, _⟩ := h
  obtain ⟨t, run, -, -, count, -⟩ := hungRead State.capturedCount 3 .portA 0x30E0 64 (Nat.le_refl 64) (by decide +kernel) (by decide +kernel)
    (by decide +kernel) (by decide) rfl rfl
  obtain ⟨u, run', captured⟩ := clockPresentSet_capturedCount
  cases Host.Outcome.next.inj (run.symm.trans run')
  have answered : (5 : W32) = (State.capturedCount.port 3).smpCorr := by
    injection Option.some.inj (captured.symm.trans count)
  exact absurd answered (by decide +kernel)

end Sys2Proof.Machine
end

section
/-! SUPPORT. Port training (spec/03 R124, R130 to R142; spec/02 R52; spec/16 R581, R583): what the operations that the training commands share
leave of a port, and each command. -/

namespace Sys2Proof.Machine

/-! ## A port after the shared operations -/

@[simp] theorem State.noteService_port (p q : PortId) (s : State) : (s.noteService p).port q = s.port q :=
  State.port_of_ports ((State.noteService_moves p s).only .ports (by decide)) q

@[simp] theorem State.noteEnded_port (q : PortId) (s : State) : s.noteEnded.port q = s.port q :=
  State.port_of_ports ((State.noteEnded_moves s).only .ports (by decide)) q

@[simp] theorem State.settle_port (q : PortId) (s : State) : s.settle.port q = s.port q :=
  State.port_of_ports ((State.settle_moves s).only .ports (by decide)) q

@[simp] theorem State.enterTrain_port (p q : PortId) (n : Fin 16) (s : State) :
    (s.enterTrain p n).port q = if q = p then { s.port p with
      train := n, stateAt := s.now, inService := false, chkCorr := 0, chkBase := none, chkRise := (0, 0), aligned := 0 } else s.port q := by
  rw [State.enterTrain, State.noteService_port, State.modPort_port]

@[simp] theorem State.startLane_port (p q : PortId) (s : State) :
    (s.startLane p).port q = if q = p then { s.port p with
      cmdUp := true, txPos := 0, txScram := prbsOnes, txSeq := 0, txSeq0 := 0, txSeq1 := 0, scram := prbsOnes, rxPos := none } else s.port q :=
  State.modPort_port _ _ _ _

@[simp] theorem State.answered_port (p q : PortId) (r : Request) (s : State) :
    (s.answered p r).port q = if q = p then { s.port p with requests := (s.port p).requests.filter fun x => x.packet.tag != r.packet.tag }
      else s.port q :=
  State.modPort_port _ _ _ _

/-- A port whose training fails: its state, its reason, its event; its companion stays known. -/
theorem State.trainFails_port (p : PortId) (n : Fin 16) (s : State) :
    ((s.trainFails p n).port p).train = 0xA ∧ ((s.trainFails p n).port p).fail = n ∧
      ((s.trainFails p n).port p).companion = (s.port p).companion ∧
      ((s.trainFails p n).port p).events = setBit (s.port p).events 4 := by
  rw [State.trainFails, State.settle_port, State.portFail_port, if_pos rfl]
  exact ⟨rfl, rfl, rfl, rfl⟩

/-- A port without what waits on its command lane or for an answer. -/
def Port.unqueued (x : Port) : Port := { x with urgent := [], normal := [], requests := [] }

theorem State.modPort_unqueued {f : Port → Port} (hf : ∀ x, (f x).unqueued = x.unqueued) (p q : PortId) (s : State) :
    ((s.modPort p f).port q).unqueued = (s.port q).unqueued := by
  rw [State.modPort_port]
  split
  next e => rw [e, hf]
  next => rfl

theorem State.sendRequest_unqueued (p q : PortId) (op : Nat) (l : List Byte) (s : State) :
    ((s.sendRequest p op l).port q).unqueued = (s.port q).unqueued :=
  State.modPort_unqueued (fun x => by split <;> rfl) p q s

theorem State.sendUrgent_unqueued (p q : PortId) (op : Nat) (l : List Byte) (s : State) :
    ((s.sendUrgent p op l).port q).unqueued = (s.port q).unqueued :=
  State.modPort_unqueued (fun x => by split <;> rfl) p q s

/-! ## An attempt that fails (R138) -/

theorem State.attemptFails_first {s : State} {p : PortId} (ht : inRange 2 5 (s.port p).train.val = true) (ha : (s.port p).attempt = 1) :
    ((s.attemptFails p).port p).train = 2 ∧ ((s.attemptFails p).port p).attempt = 2 := by
  rw [State.attemptFails]
  simp only [ht, ha, if_true, State.modPort_port, and_self]

/-- The second attempt in states 2 to 5, and any failure in states 6 to 8, ends the training with the fail_reason of its state. -/
theorem State.attemptFails_last {s : State} {p : PortId} {n : Fin 16} (hn : n.val + 1 = (s.port p).train.val)
    (h : inRange 2 5 (s.port p).train.val = true ∧ (s.port p).attempt ≠ 1 ∨
      inRange 2 5 (s.port p).train.val = false ∧ inRange 6 8 (s.port p).train.val = true) :
    s.attemptFails p = s.trainFails p n := by
  have reason : ∀ h, (⟨(s.port p).train.val - 1, h⟩ : Fin 16) = n := fun _ => Fin.ext (by dsimp only; omega)
  unfold State.attemptFails
  rcases h with ⟨ht, ha⟩ | ⟨ht, hl⟩
  · simp only [ht, ha, if_true, if_false, reason]
  · simp only [ht, hl, if_true, Bool.false_eq_true, if_false, reason]

theorem State.attemptFails_now (p : PortId) (s : State) : (s.attemptFails p).now = s.now :=
  (State.attemptFails_moves p s).only .now (by decide)

/-! ## TRAINING_STATE_PASS -/

theorem trainingStatePass_debounced {s : State} {p : PortId} (h : (s.port p).train = 1) :
    Does (.trainingStatePass p) s fun t => (t.port p).train = 2 ∧ (t.port p).cmdUp = true ∧ (t.port p).txPos = 0 ∧
      ∀ q, q ≠ p → t.port q = s.port q := by
  have run : exec (.trainingStatePass p) s = .next (((s.at_ ((s.port p).stateAt + stateTimeout 1)).enterTrain p 2).startLane p) := by
    show execTrainingStatePass p s = _
    simp only [execTrainingStatePass, h]
    rfl
  refine ⟨_, run, ?_, ?_, ?_, fun q hq => ?_⟩
  · simp
  · simp
  · simp
  · simp [hq]

theorem trainingStatePass_locked {s : State} {p : PortId} (h : (s.port p).train = 2) :
    Does (.trainingStatePass p) s fun t => (t.port p).train = 3 ∧ (t.port p).stateAt = s.now := by
  have run : exec (.trainingStatePass p) s = .next (s.enterTrain p 3) := by
    show execTrainingStatePass p s = _
    simp only [execTrainingStatePass, h]
    rfl
  exact ⟨_, run, by simp, by simp⟩

theorem trainingStatePass_blockLock {s : State} {p : PortId} (h : (s.port p).train = 4) :
    exec (.trainingStatePass p) s = .next (if 4 ≤ (s.port p).aligned then (s.enterTrain p 5).modPort p fun y => { y with blockLock := true }
      else s) := by
  show execTrainingStatePass p s = _
  simp only [execTrainingStatePass, h]
  rfl

theorem trainingStatePass_aligned {s : State} {p : PortId} (h : (s.port p).train = 4) (ha : 4 ≤ (s.port p).aligned) :
    Does (.trainingStatePass p) s fun t => (t.port p).train = 5 ∧ (t.port p).blockLock = true :=
  ⟨_, (trainingStatePass_blockLock h).trans (congrArg Host.Outcome.next (if_pos ha)), by simp, by simp⟩

theorem trainingStatePass_unaligned {s : State} {p : PortId} (h : (s.port p).train = 4) (ha : (s.port p).aligned < 4) :
    Does (.trainingStatePass p) s fun t => t = s :=
  ⟨_, (trainingStatePass_blockLock h).trans (congrArg Host.Outcome.next (if_neg (Nat.not_le.mpr ha))), rfl⟩

theorem trainingStatePass_inReset {s : State} {p : PortId} (h : (s.port p).train = 0xB) :
    exec (.trainingStatePass p) s = .next (if s.pins.prsnt.getLsbD p.val ∧ s.pins.linkPll then
      (((s.at_ ((s.port p).stateAt + 2 * Config.us)).enterTrain p 2).modPort p fun y => { y with attempt := 1, fail := 0 }).startLane p
      else s) := by
  show execTrainingStatePass p s = _
  simp only [execTrainingStatePass, h]
  rfl

/-- After a port reset training starts again from state 2, its lane stopped for at least 2 µs (R140). -/
theorem trainingStatePass_again {s : State} {p : PortId} (h : (s.port p).train = 0xB) (hp : s.pins.prsnt.getLsbD p.val = true)
    (hl : s.pins.linkPll = true) :
    Does (.trainingStatePass p) s fun t => (t.port p).train = 2 ∧ (t.port p).attempt = 1 ∧ (t.port p).fail = 0 ∧
      (s.port p).stateAt + 2 * Config.us ≤ t.now := by
  refine ⟨_, (trainingStatePass_inReset h).trans (congrArg Host.Outcome.next (if_pos ⟨hp, hl⟩)), by simp, by simp, by simp, ?_⟩
  exact Nat.le_max_right s.now _

theorem trainingStatePass_noClock {s : State} {p : PortId} (h : (s.port p).train = 0xB) (hl : s.pins.linkPll = false) :
    Does (.trainingStatePass p) s fun t => t = s :=
  ⟨_, (trainingStatePass_inReset h).trans (congrArg Host.Outcome.next (if_neg (by simp [hl]))), rfl⟩

theorem trainingStatePass_checked {s : State} {p : PortId} (h : (s.port p).train = 5) :
    exec (.trainingStatePass p) s = .next (if (s.port p).errorCheck = false then
      (s.at_ ((s.port p).stateAt + stateTimeout 5)).attemptFails p
      else ((s.at_ ((s.port p).stateAt + stateTimeout 5)).enterTrain p 6).sendRequest p 0x02 []) := by
  show execTrainingStatePass p s = _
  simp only [execTrainingStatePass, h]
  rfl

theorem trainingStatePass_clean {s : State} {p : PortId} (h : (s.port p).train = 5) (he : (s.port p).errorCheck = true) :
    Does (.trainingStatePass p) s fun t => (t.port p).train = 6 := by
  refine ⟨_, (trainingStatePass_checked h).trans (congrArg Host.Outcome.next (if_neg (by simp [he]))), ?_⟩
  exact (congrArg Port.train (State.sendRequest_unqueued p p 0x02 [] _)).trans (by simp [Port.unqueued])

theorem trainingStatePass_errors {s : State} {p : PortId} (h : (s.port p).train = 5) (he : (s.port p).errorCheck = false)
    (ha : (s.port p).attempt = 1) : Does (.trainingStatePass p) s fun t => (t.port p).train = 2 ∧ (t.port p).attempt = 2 := by
  refine ⟨_, (trainingStatePass_checked h).trans (congrArg Host.Outcome.next (if_pos he)), ?_⟩
  exact State.attemptFails_first (by rw [State.at__port, h]; rfl) (by rw [State.at__port, ha])

/-! ## TRAINING_STATE_TIMEOUT -/

/-- A port whose training state has run out of time, at that time, its lane's queues dropped. -/
def State.trainingTimedOut (p : PortId) (s : State) : State :=
  (s.at_ ((s.port p).stateAt + stateTimeout (s.port p).train.val)).modPort p fun y => { y with requests := [], normal := [], urgent := [] }

theorem trainingStateTimeout_fails {s : State} {p : PortId} (h : inRange 2 8 (s.port p).train.val = true) :
    exec (.trainingStateTimeout p) s = .next ((s.trainingTimedOut p).attemptFails p) :=
  congrArg Host.Outcome.next (if_pos h)

theorem State.trainingTimedOut_port (p : PortId) (s : State) :
    ((s.trainingTimedOut p).port p).train = (s.port p).train ∧ ((s.trainingTimedOut p).port p).attempt = (s.port p).attempt := by
  simp [State.trainingTimedOut]

theorem trainingStateTimeout_first {s : State} {p : PortId} (h : (s.port p).train = 3) (ha : (s.port p).attempt = 1) :
    Does (.trainingStateTimeout p) s fun t => (t.port p).train = 2 ∧ (t.port p).attempt = 2 ∧
      (s.port p).stateAt + 60 * Config.ms ≤ t.now := by
  obtain ⟨train, attempt⟩ := s.trainingTimedOut_port p
  obtain ⟨again, second⟩ := State.attemptFails_first (s := s.trainingTimedOut p) (p := p) (by rw [train, h]; rfl) (by rw [attempt, ha])
  refine ⟨_, trainingStateTimeout_fails (by rw [h]; rfl), again, second, ?_⟩
  rw [State.attemptFails_now]
  have now : (s.trainingTimedOut p).now = max s.now ((s.port p).stateAt + 60 * Config.ms) := by
    show max s.now ((s.port p).stateAt + stateTimeout (s.port p).train.val) = _
    rw [h]
    rfl
  rw [now]
  exact Nat.le_max_right _ _

/-- A state that ends the training when its time has run out. -/
theorem trainingStateTimeout_ends {s : State} {p : PortId} {n : Fin 16} (hr : inRange 2 8 (s.port p).train.val = true)
    (hn : n.val + 1 = (s.port p).train.val)
    (h : inRange 2 5 (s.port p).train.val = true ∧ (s.port p).attempt ≠ 1 ∨
      inRange 2 5 (s.port p).train.val = false ∧ inRange 6 8 (s.port p).train.val = true) :
    Does (.trainingStateTimeout p) s fun t => (t.port p).train = 0xA ∧ (t.port p).fail = n ∧ (t.port p).events.getLsbD 4 = true := by
  obtain ⟨train, attempt⟩ := s.trainingTimedOut_port p
  have ends := State.attemptFails_last (s := s.trainingTimedOut p) (p := p) (n := n) (by rw [train, hn]) (by rw [train, attempt]; exact h)
  obtain ⟨failed, reason, -, events⟩ := (s.trainingTimedOut p).trainFails_port p n
  exact ⟨_, (trainingStateTimeout_fails hr).trans (by rw [ends]), failed, reason, by rw [events]; exact setBit_get _ _ (by decide)⟩

/-! ## Answers -/

/-- The answer to a request has been taken from those received, and its request is closed. -/
def State.hear (p : PortId) (r : Request) (s : State) : State := (s.modPort p fun q => { q with rx := q.rx.drop 1 }).answered p r

@[simp] theorem State.hear_port (p : PortId) (r : Request) (s : State) :
    (s.hear p r).port p = { s.port p with
      rx := (s.port p).rx.drop 1, requests := (s.port p).requests.filter fun x => x.packet.tag != r.packet.tag } := by
  simp [State.hear]

/-! ## IDENT_READ_RESPONSE, and the start of state 7 (R124, R130, R133) -/

/-- Token 0 is sent where this controller does not own the port, and outside a pair; the pair's token while there is one to present. -/
theorem State.startFence_eq (p : PortId) (s : State) : s.startFence p =
    if s.pair.mode ∧ s.owns p = true then
      (if s.pair.epochOver then (s.enterTrain p 7).trainFails p 6 else (s.enterTrain p 7).present p s.pairToken)
    else (s.enterTrain p 7).sendRequest p 0x01 (leBytes 8 0) := rfl

theorem State.startFence_begins {s : State} {p : PortId} (h : s.pair.epochOver = false ∨ s.pair.mode = false ∨ s.owns p = false) :
    ((s.startFence p).port p).train = 7 ∧ ((s.startFence p).port p).companion = (s.port p).companion := by
  rw [State.startFence_eq]
  by_cases own : s.pair.mode ∧ s.owns p = true
  · have epoch : s.pair.epochOver = false := by
      obtain h | h | h := h
      · exact h
      · simp [h] at own
      · simp [h] at own
    rw [if_pos own, if_neg (by simp [epoch]), State.present]
    have same := State.sendRequest_unqueued p p 0x01 (leBytes 8 s.pairToken)
      ((s.enterTrain p 7).modPort p fun x => { x with own := BitVec.ofNat 64 s.pairToken })
    exact ⟨(congrArg Port.train same).trans (by simp [Port.unqueued]), (congrArg Port.companion same).trans (by simp [Port.unqueued])⟩
  · rw [if_neg own]
    have same := State.sendRequest_unqueued p p 0x01 (leBytes 8 0) (s.enterTrain p 7)
    exact ⟨(congrArg Port.train same).trans (by simp [Port.unqueued]), (congrArg Port.companion same).trans (by simp [Port.unqueued])⟩

theorem State.startFence_noEpoch {s : State} {p : PortId} (he : s.pair.epochOver = true) (hm : s.pair.mode = true) (ho : s.owns p = true) :
    s.startFence p = (s.enterTrain p 7).trainFails p 6 := by
  rw [State.startFence_eq, if_pos ⟨hm, ho⟩, if_pos he]

/-- A port that has been identified (R132). -/
def State.identify (p : PortId) (b : List Byte) (s : State) : State :=
  s.modPort p fun x => { x with companion := { ident := b, measure := [] }, dual := field b 5 1 % 2 == 1, lane := laneIndex b == 1 }

theorem identReadResponse_six {s : State} {p : PortId} {r : Request} {k : Packet} (hk : Answered s p 0x02 r k) (ht : (s.port p).train = 6) :
    exec (.identReadResponse p) s = .next (if k.status = 0 ∧ identOk k.payload = true then
      ((s.hear p r).identify p k.payload).startFence p else (s.hear p r).trainFails p 5) :=
  congrArg Host.Outcome.next ((State.takeAnswer_of hk _).trans (if_neg (by
    show ¬ ((s.hear p r).port p).train ≠ 6
    simp [ht])))

theorem identReadResponse_accepted {s : State} {p : PortId} {r : Request} {k : Packet} (hk : Answered s p 0x02 r k)
    (ht : (s.port p).train = 6) (hs : k.status = 0) (hi : identOk k.payload = true)
    (h : s.pair.epochOver = false ∨ s.pair.mode = false ∨ s.owns p = false) :
    Does (.identReadResponse p) s fun t => (t.port p).train = 7 ∧ (t.port p).companion.ident = k.payload := by
  obtain ⟨train, companion⟩ := State.startFence_begins (s := (s.hear p r).identify p k.payload) (p := p) h
  exact ⟨_, (identReadResponse_six hk ht).trans (congrArg Host.Outcome.next (if_pos ⟨hs, hi⟩)), train, by rw [companion]; simp [State.identify]⟩

theorem identReadResponse_noEpoch {s : State} {p : PortId} {r : Request} {k : Packet} (hk : Answered s p 0x02 r k)
    (ht : (s.port p).train = 6) (hs : k.status = 0) (hi : identOk k.payload = true) (he : s.pair.epochOver = true)
    (hm : s.pair.mode = true) (ho : s.owns p = true) :
    Does (.identReadResponse p) s fun t => (t.port p).train = 0xA ∧ (t.port p).fail = 6 ∧ (t.port p).companion.ident = k.payload := by
  have fenced := State.startFence_noEpoch (s := (s.hear p r).identify p k.payload) (p := p) he hm ho
  obtain ⟨train, fail, companion, -⟩ := (((s.hear p r).identify p k.payload).enterTrain p 7).trainFails_port p 6
  refine ⟨_, (identReadResponse_six hk ht).trans (congrArg Host.Outcome.next ((if_pos ⟨hs, hi⟩).trans fenced)), train, fail, ?_⟩
  rw [companion]
  simp [State.identify]

theorem identReadResponse_refused {s : State} {p : PortId} {r : Request} {k : Packet} (hk : Answered s p 0x02 r k)
    (ht : (s.port p).train = 6) (hi : identOk k.payload = false) :
    Does (.identReadResponse p) s fun t => (t.port p).train = 0xA ∧ (t.port p).fail = 5 := by
  obtain ⟨train, fail, -⟩ := (s.hear p r).trainFails_port p 5
  exact ⟨_, (identReadResponse_six hk ht).trans (congrArg Host.Outcome.next (if_neg (by simp [hi]))), train, fail⟩

/-! ## FENCE_RESPONSE -/

/-- The answer taken, and what its 8 bytes tell kept: the companion's highest token, and the highest epoch seen (R126). -/
def State.hearToken (p : PortId) (r : Request) (token : Nat) (s : State) : State :=
  ((s.hear p r).modPort p fun x => { x with token := BitVec.ofNat 64 token }).modPair fun q =>
    { q with highest := BitVec.ofNat 63 (max q.highest.toNat (token / 2)) }

theorem State.hearToken_port (p : PortId) (r : Request) (token : Nat) (s : State) :
    ((s.hearToken p r token).port p).train = (s.port p).train ∧ ((s.hearToken p r token).port p).own = (s.port p).own := by
  simp [State.hearToken]

/-- The answer, in state 7, to a token that was presented (R131). -/
theorem fenceResponse_presented {s : State} {p : PortId} {r : Request} {k : Packet} (hk : Answered s p 0x01 r k)
    (ht : (s.port p).train = 7) (hq : ofLe r.packet.payload ≠ 0) (hl : k.payload.length = 8) :
    exec (.fenceResponse p) s = .next (
      if k.status = 0 ∧ (s.port p).own.toNat = field k.payload 0 8 ∧ field k.payload 0 8 ≠ 0 then
        ((s.hearToken p r (field k.payload 0 8)).modPort p fun x => { x with obeyed := true }).startMeasure p
      else if k.status = 3 then ((s.hearToken p r (field k.payload 0 8)).raisePort p 2).trainFails p 6
      else (s.hearToken p r (field k.payload 0 8)).trainFails p 6) := by
  refine congrArg Host.Outcome.next ((State.takeAnswer_of hk _).trans ?_)
  extract_lets u1 token query u2 u3 x obeys
  have heard : u3 = s.hearToken p r token := by
    simp only [u3, u2, if_pos hl]
    rfl
  obtain ⟨train, own⟩ := s.hearToken_port p r token
  have seven : x.train = 7 := by simp only [x, heard, train, ht]
  have presented : ¬ query = true := by simp [query, hq]
  rw [if_pos seven, if_neg presented]
  simp only [obeys, x, heard, own, decide_eq_true_eq]
  rfl

theorem fenceResponse_refused {s : State} {p : PortId} {r : Request} {k : Packet} (hk : Answered s p 0x01 r k)
    (ht : (s.port p).train = 7) (hs : k.status = 3) (hq : ofLe r.packet.payload ≠ 0) (hl : k.payload.length = 8) :
    Does (.fenceResponse p) s fun t => (t.port p).train = 0xA ∧ (t.port p).fail = 6 ∧ (t.port p).events.getLsbD 2 = true := by
  refine ⟨_, (fenceResponse_presented hk ht hq hl).trans (congrArg Host.Outcome.next ((if_neg (by simp [hs])).trans (if_pos hs))), ?_⟩
  obtain ⟨train, fail, -, events⟩ := ((s.hearToken p r (field k.payload 0 8)).raisePort p 2).trainFails_port p 6
  refine ⟨train, fail, ?_⟩
  rw [events, State.raisePort_port, if_pos rfl]
  exact setBit_keep _ _ _ (setBit_get _ _ (by decide))

theorem fenceResponse_obeyed {s : State} {p : PortId} {r : Request} {k : Packet} (hk : Answered s p 0x01 r k)
    (ht : (s.port p).train = 7) (hs : k.status = 0) (hq : ofLe r.packet.payload ≠ 0) (hl : k.payload.length = 8)
    (hf : field k.payload 0 8 = (s.port p).own.toNat) (ho : (s.port p).own ≠ 0) :
    Does (.fenceResponse p) s fun t => (t.port p).train = 8 ∧ (t.port p).obeyed = true := by
  have token : field k.payload 0 8 ≠ 0 := by
    rw [hf]
    exact fun e => ho (BitVec.eq_of_toNat_eq e)
  refine ⟨_, (fenceResponse_presented hk ht hq hl).trans (congrArg Host.Outcome.next (if_pos ⟨hs, hf.symm, token⟩)), ?_⟩
  rw [State.startMeasure]
  generalize s.hearToken p r (field k.payload 0 8) = u
  have same := State.sendRequest_unqueued p p 0x03 [] ((u.modPort p fun x => { x with obeyed := true }).enterTrain p 8)
  exact ⟨(congrArg Port.train same).trans (by simp [Port.unqueued]), (congrArg Port.obeyed same).trans (by simp [Port.unqueued])⟩

/-! ## MEASURE_READ_RESPONSE, and the end of training -/

theorem State.sendDrive_unqueued (p q : PortId) (m : Fin 3) (u v w : Int) (n : Nat) (s : State) :
    ((s.sendDrive p m u v w n).port q).unqueued = (s.port q).unqueued := by
  rw [State.sendDrive, State.modSpin_port, State.sendUrgent_unqueued]

/-- A brake under the overvoltage latch changes the queues of its port alone. -/
theorem State.brakeLatched_unqueued (p q : PortId) (s : State) : ((s.brakeLatched p).port q).unqueued = (s.port q).unqueued := by
  unfold State.brakeLatched
  extract_lets v t
  have braked : (t.port q).unqueued = (s.port q).unqueued := by
    simp only [t, State.shortBrake, State.modSpin_port, State.sendDrive_unqueued]
  exact (State.each_keeps (fun u : State => (u.port q).unqueued) (fun sd u => State.sendRequest_unqueued p q 0x13 _ u) v.parkDue t).trans braked

/-- A port whose companion goes unrecorded by an addendum reads its personality data next (R136). -/
theorem State.afterMeasure_unsealed {s : State} (p : PortId) (hs : s.ident.sealed = false) (hc : s.svc.comp = none) :
    s.afterMeasure p = s.goOn p := by
  rw [State.afterMeasure, if_pos (.inl hs), State.afterRecord, hc]

theorem State.readPers_unqueued (p q : PortId) (s : State) : ((s.readPers p).port q).unqueued = (s.port q).unqueued :=
  State.sendRequest_unqueued _ _ _ _ _

theorem State.goOn_unqueued (p : PortId) (s : State) :
    ((s.goOn p).port p).unqueued = { s.port p with pers := [], persVerified := false }.unqueued := by
  rw [State.goOn, State.readPers_unqueued, State.modPort_port, if_pos rfl]

theorem State.remark_unmarked {s : State} {p : PortId} (h : (s.port p).startMark = false) : s.remark p = s := by
  rw [State.remark, if_neg (by simp [h])]

/-- Training that ends before the Playbill is sealed, of a port whose spindle start has not failed: trained, and counted. -/
theorem State.trainDone_unsealed {s : State} {p : PortId} (hs : s.ident.sealed = false) (hc : s.svc.comp = none)
    (hm : (s.port p).startMark = false) :
    ((s.trainDone p).port p).train = 9 ∧ ((s.trainDone p).port p).companion = (s.port p).companion ∧
      ((s.trainDone p).port p).trained = satAdd 255 (s.port p).trained 1 := by
  unfold State.trainDone
  extract_lets t1 t2
  have done : (t1.port p).train = 9 ∧ (t1.port p).companion = (s.port p).companion ∧
      (t1.port p).trained = satAdd 255 (s.port p).trained 1 ∧ (t1.port p).startMark = false := by
    simp [t1, hm]
  have braked : (t2.port p).unqueued = (t1.port p).unqueued := by
    simp only [t2, State.when]
    split
    · exact State.brakeLatched_unqueued p p t1
    · rfl
  have moved : s.Moves [.aon, .boot, .prot, .ports, .spins] (t2.noteEnded.noteService p) :=
    Moves.op (State.noteService_moves p _) (by decide) (Moves.op (State.noteEnded_moves t2) (by decide)
      (Moves.when (fun u hu => Moves.op (State.brakeLatched_moves p u) (by decide) hu)
        (State.modPort_served (fun _ _ _ => rfl) (by decide) (Moves.refl _ s))))
  have ident : (t2.noteEnded.noteService p).ident = s.ident := moved.only .ident (by decide)
  have svc : (t2.noteEnded.noteService p).svc = s.svc := moved.only .svc (by decide)
  obtain ⟨train, companion, trained, mark⟩ := done
  have unmarked : (t2.noteEnded.port p).startMark = false := by
    rw [State.noteEnded_port]
    exact (congrArg Port.startMark braked).trans mark
  rw [State.remark_unmarked unmarked, State.afterMeasure_unsealed p (by rw [ident, hs]) (by rw [svc, hc])]
  have went := (t2.noteEnded.noteService p).goOn_unqueued p
  rw [State.noteService_port, State.noteEnded_port] at went
  exact ⟨(congrArg Port.train went).trans ((congrArg Port.train braked).trans train),
    (congrArg Port.companion went).trans ((congrArg Port.companion braked).trans companion),
    (congrArg Port.trained went).trans ((congrArg Port.trained braked).trans trained)⟩

theorem measureReadResponse_eight {s : State} {p : PortId} {r : Request} {k : Packet} (hk : Answered s p 0x03 r k)
    (ht : (s.port p).train = 8) :
    exec (.measureReadResponse p) s = .next (if k.status = 0 ∧ k.payload.length = 72 then
      ((s.hear p r).modPort p fun x => { x with companion := { x.companion with measure := k.payload } }).trainDone p
      else (s.hear p r).trainFails p 7) := by
  refine congrArg Host.Outcome.next ((State.takeAnswer_of hk _).trans ((if_pos ?_).trans ?_))
  · show ((s.hear p r).port p).train = 8
    simp [ht]
  · simp only [decide_eq_true_eq]
    rfl

theorem measureReadResponse_trained {s : State} {p : PortId} {r : Request} {k : Packet} (hk : Answered s p 0x03 r k)
    (ht : (s.port p).train = 8) (hs : k.status = 0) (hl : k.payload.length = 72) (hi : s.ident.sealed = false) (hc : s.svc.comp = none)
    (hm : (s.port p).startMark = false) :
    Does (.measureReadResponse p) s fun t => (t.port p).train = 9 ∧ (t.port p).companion.measure = k.payload ∧
      (t.port p).trained = satAdd 255 (s.port p).trained 1 := by
  refine ⟨_, (measureReadResponse_eight hk ht).trans (congrArg Host.Outcome.next (if_pos ⟨hs, hl⟩)), ?_⟩
  obtain ⟨train, companion, trained⟩ := State.trainDone_unsealed (p := p)
    (s := (s.hear p r).modPort p fun x => { x with companion := { x.companion with measure := k.payload } }) hi hc (by simp [hm])
  exact ⟨train, by rw [companion]; simp, by rw [trained]; simp⟩

theorem measureReadResponse_fails {s : State} {p : PortId} {r : Request} {k : Packet} (hk : Answered s p 0x03 r k)
    (ht : (s.port p).train = 8) (hs : k.status ≠ 0) :
    Does (.measureReadResponse p) s fun t => (t.port p).train = 0xA ∧ (t.port p).fail = 7 := by
  obtain ⟨train, fail, -⟩ := (s.hear p r).trainFails_port p 7
  exact ⟨_, (measureReadResponse_eight hk ht).trans (congrArg Host.Outcome.next (if_neg fun h => hs h.1)), train, fail⟩

/-! ## Personality data (R136) -/

/-- The answer taken, and the piece that it brought joined to those before. -/
def State.takePiece (p : PortId) (r : Request) (b : List Byte) (s : State) : State :=
  (s.hear p r).modPort p fun x => { x with pers := x.pers ++ b }

theorem persReadResponse_answered {s : State} {p : PortId} {r : Request} {k : Packet} (hk : Answered s p 0x04 r k) (hb : k.status ≠ 4) :
    exec (.persReadResponse p) s = .next (if k.status ≠ 0 ∨ k.payload.length ≠ field r.packet.payload 4 2 then (s.hear p r).persFails p
      else if ((s.takePiece p r k.payload).port p).pers.length < field ((s.takePiece p r k.payload).port p).companion.ident 12 4 then
        (s.takePiece p r k.payload).readPers p
      else (s.takePiece p r k.payload).persDone p) :=
  congrArg Host.Outcome.next ((State.takeAnswer_of hk _).trans (if_neg hb))

theorem persReadResponse_piece {s : State} {p : PortId} {r : Request} {k : Packet} (hk : Answered s p 0x04 r k) (hs : k.status = 0)
    (hl : k.payload.length = field r.packet.payload 4 2)
    (hm : (s.port p).pers.length + k.payload.length < field (s.port p).companion.ident 12 4) :
    Does (.persReadResponse p) s fun t => (t.port p).pers = (s.port p).pers ++ k.payload ∧ (t.port p).train = (s.port p).train := by
  refine ⟨_, (persReadResponse_answered hk (by simp [hs])).trans 
    (congrArg Host.Outcome.next ((if_neg (by simp [hs, hl])).trans (if_pos (by simpa [State.takePiece] using hm)))), ?_⟩
  have same := State.readPers_unqueued p p (s.takePiece p r k.payload)
  exact ⟨(congrArg Port.pers same).trans (by simp [Port.unqueued, State.takePiece]),
    (congrArg Port.train same).trans (by simp [Port.unqueued, State.takePiece])⟩

theorem persReadResponse_fails {s : State} {p : PortId} {r : Request} {k : Packet} (hk : Answered s p 0x04 r k) (hs : k.status ≠ 0)
    (hb : k.status ≠ 4) :
    Does (.persReadResponse p) s fun t => (t.port p).fail = 8 ∧ (t.port p).persVerified = false ∧ (t.port p).inService = false ∧
      (t.port p).train = (if (s.port p).train = 0xA then 9 else (s.port p).train) := by
  refine ⟨_, (persReadResponse_answered hk hb).trans (congrArg Host.Outcome.next (if_pos (.inl hs))), ?_⟩
  simp [State.persFails]

/-- 1 ms after a busy answer its request is sent again. -/
theorem State.busyRetry_of {s : State} {p : PortId} {op : Nat} {want : Request → Bool} {r : Request}
    (h : ((s.port p).requests.find? fun q => q.packet.opcode.toNat == op && q.busyAt.isSome && want q) = some r) :
    s.busyRetry p op want = (s.at_ (r.busyAt.getD s.now + Config.ms)).resend p r fun q => { q with busyAt := none } := by
  rw [State.busyRetry, h]

theorem persReadRetry_resends {s : State} {p : PortId} {r : Request} {n : Nat}
    (h : ((s.port p).requests.find? fun q => q.packet.opcode.toNat == 0x04 && q.busyAt.isSome && true) = some r) (hb : r.busyAt = some n) :
    Does (.persReadRetry p) s fun t => n + Config.ms ≤ t.now ∧
      (t.port p).normal.map Prod.snd = (s.port p).normal.map Prod.snd ++ [r.packet] := by
  refine ⟨_, congrArg Host.Outcome.next (State.busyRetry_of h), ?_, ?_⟩
  · rw [hb]
    exact Nat.le_max_right _ _
  · simp [State.resend]

/-! ## HOT_ADD and ADDENDUM -/

/-- Before the release presence is noted alone; the port trains when bring-up comes to it. -/
theorem hotAdd_unreleased {s : State} {p : PortId} (hp : s.pins.prsnt.getLsbD p.val = false) (hh : s.aon.hold = .running)
    (hr : s.boot.released = false) :
    Does (.hotAdd p) s fun t => t.pins.prsnt.getLsbD p.val = true ∧ (t.port p).events.getLsbD 7 = true := by
  have noted : exec (.hotAdd p) s = .next (((s.modPins fun q => { q with prsnt := setBit q.prsnt p.val }).modPort p fun x => { x with
      removed := x.removed && decide (s.now ≤ x.goneAt + 60 * Config.sec) }).raisePort p 7) := by
    refine congrArg Host.Outcome.next ((if_neg (by rw [hp]; exact Bool.false_ne_true)).trans ((if_neg (by simp [hh])).trans (if_neg ?_)))
    rw [(State.raisePort_moves p 7 _).only .boot (by decide)]
    simp [hr]
  refine ⟨_, noted, ?_, ?_⟩
  · rw [(State.raisePort_moves p 7 _).only .pins (by decide)]
    exact setBit_get _ _ p.isLt
  · rw [State.raisePort_port, if_pos rfl]
    exact setBit_get _ _ (by decide)

theorem State.storeRecord_written (number : Nat) (b : List Byte) (s : State) : (s.storeRecord number b true).ident = s.ident := by
  have programmed (r : NorRegion) (off n : Nat) (f : Nor → Nor) : ((s.norProgram r off n).modNor f).ident = s.ident :=
    (State.norProgram_moves r off n s).only .ident (by decide)
  rw [State.storeRecord, if_neg (by decide)]
  split
  · exact programmed _ _ _ _
  · exact programmed _ _ _ _

/-- The first addendum due is added; whatever its port or its Patch Load then does leaves the records as they are. -/
theorem addendum_due {s : State} {d : Due} {rest : List Due} (h : s.ident.due = d :: rest) :
    Does (.addendum true) s fun t => t.ident.due = rest ∧ t.ident.addenda = s.ident.addenda + 1 ∧
      t.ident.added.length = s.ident.added.length + 1 := by
  obtain ⟨t, next, -⟩ := execAddendum_moves true s
  refine ⟨t, next, ?_⟩
  unfold execAddendum at next
  rw [h] at next
  dsimp -zeta only at next
  extract_lets number body a s1 s2 at next
  have run := Host.Outcome.next.inj next
  clear next
  have ident : t.ident = s1.ident := by
    rw [← State.storeRecord_written number a s1, ← run]
    split
    · dsimp only
      split
      · exact (State.afterRecord_moves _ _).only .ident (by decide)
      · rfl
    · exact (State.complete_moves _ _ _).only .ident (by decide)
  rw [ident]
  exact ⟨rfl, rfl, List.length_append⟩

/-- Settles O44: each clause is the lemma of its command above. -/
theorem trainingCommands : Obligations.TrainingCommands :=
  ⟨fun _ _ h => trainingStatePass_debounced h, fun _ _ h => trainingStatePass_locked h, fun _ _ h ha => trainingStatePass_aligned h ha,
    fun _ _ h ha => trainingStatePass_unaligned h ha, fun _ _ h hp hl => trainingStatePass_again h hp hl,
    fun _ _ h he => trainingStatePass_clean h he, fun _ _ h he ha => trainingStatePass_errors h he ha,
    fun _ _ h ha => trainingStateTimeout_first h ha,
    fun _ _ h ha => trainingStateTimeout_ends (by rw [h]; rfl) (by rw [h]; rfl) (.inl ⟨by rw [h]; rfl, by rw [ha]; decide⟩),
    fun _ _ h => trainingStateTimeout_ends (by rw [h]; rfl) (by rw [h]; rfl) (.inr ⟨by rw [h]; rfl, by rw [h]; rfl⟩),
    fun _ _ _ _ hk ht hs hi h => identReadResponse_accepted hk ht hs hi h,
    fun _ _ _ _ hk ht hs hi he hm ho => identReadResponse_noEpoch hk ht hs hi he hm ho,
    fun _ _ _ _ hk ht hi => identReadResponse_refused hk ht hi, fun _ _ _ _ hk ht hs hq hl => fenceResponse_refused hk ht hs hq hl,
    fun _ _ _ _ hk ht hs hq hl hf ho => fenceResponse_obeyed hk ht hs hq hl hf ho,
    fun _ _ _ _ hk ht hs hl hi hc hm => measureReadResponse_trained hk ht hs hl hi hc hm,
    fun _ _ _ _ hk ht hs => measureReadResponse_fails hk ht hs, fun _ _ _ _ hk hs hl hm => persReadResponse_piece hk hs hl hm,
    fun _ _ _ _ hk hs hb => persReadResponse_fails hk hs hb, fun _ _ _ _ h hb => persReadRetry_resends h hb,
    fun _ _ hp hh hr => hotAdd_unreleased hp hh hr, fun _ _ _ h => addendum_due h, fun _ _ h hl => trainingStatePass_noClock h hl⟩

end Sys2Proof.Machine
end

section
/-! SUPPORT. The spindle engines (spec/04 R149 to R155, R161 to R171, Tables 4-1, 4-2): what the operations that the spindle commands share
leave of a spindle, and what each command does to it. -/

namespace Sys2Proof.Machine

/-! ## A spindle after the shared operations -/

theorem State.Moves.spin {l : List Part} {s t : State} (m : s.Moves l t) (h : Part.spins ∉ l) (q : PortId) : t.spin q = s.spin q := by
  have spins : t.spins = s.spins := m.only .spins h
  rw [State.spin, spins, State.spin]

@[simp] theorem State.sendRequest_spin (p q : PortId) (op : Nat) (l : List Byte) (s : State) :
    (s.sendRequest p op l).spin q = s.spin q := rfl

@[simp] theorem State.sendRequestUrgent_spin (p q : PortId) (op : Nat) (l : List Byte) (s : State) :
    (s.sendRequestUrgent p op l).spin q = s.spin q := rfl

@[simp] theorem State.noteService_spin (p q : PortId) (s : State) : (s.noteService p).spin q = s.spin q :=
  (State.noteService_moves p s).spin (by decide) q

@[simp] theorem State.noteProgress_spin (q : PortId) (s : State) : s.noteProgress.spin q = s.spin q :=
  (State.noteProgress_moves s).spin (by decide) q

@[simp] theorem State.raisePort_spin (p : PortId) (n : Nat) (q : PortId) (s : State) : (s.raisePort p n).spin q = s.spin q :=
  (State.raisePort_moves p n s).spin (by decide) q

@[simp] theorem State.leaveService_spin (p q : PortId) (b : Bool) (s : State) : (s.leaveService p b).spin q = s.spin q :=
  (State.leaveService_moves p b s).spin (by decide) q

@[simp] theorem State.unloadSides_spin (p q : PortId) (s : State) : (s.unloadSides p).spin q = s.spin q :=
  (State.unloadSides_moves p s).spin (by decide) q

@[simp] theorem State.freeSlot_spin (p : PortId) (s : State) :
    (s.freeSlot p).spin p = { s.spin p with slotAt := none, wantSlot := false } := by
  simp [State.freeSlot]

/-! ## Drives (R150, R152) -/

@[simp] theorem State.sendDrive_now (p : PortId) (m : Fin 3) (u v w : Int) (n : Nat) (s : State) :
    (s.sendDrive p m u v w n).now = s.now := rfl

@[simp] theorem State.sendDrive_spin (p : PortId) (m : Fin 3) (u v w : Int) (n : Nat) (s : State) :
    (s.sendDrive p m u v w n).spin p = { s.spin p with drive := { mode := m, u := u, v := v, w := w, applyAt := n, sentAt := s.now } } :=
  (State.modSpin_spin _ _ _ _).trans (if_pos rfl)

@[simp] theorem State.coast_now (p : PortId) (s : State) : (s.coast p).now = s.now := by simp [State.coast]

@[simp] theorem State.coast_spin (p : PortId) (s : State) : (s.coast p).spin p = { s.spin p with
    drive := { mode := 0, u := 0, v := 0, w := 0, applyAt := s.ticksNow, sentAt := s.now }, step := none, output := 0 } := by
  simp [State.coast]

@[simp] theorem State.shortBrake_now (p : PortId) (st : SpinSt) (n : Nat) (s : State) : (s.shortBrake p st n).now = s.now := by
  simp [State.shortBrake]

@[simp] theorem State.shortBrake_spin (p : PortId) (st : SpinSt) (n : Nat) (s : State) : (s.shortBrake p st n).spin p = { s.spin p with
    drive := { mode := 2, u := 0, v := 0, w := 0, applyAt := n, sentAt := s.now }, step := none, output := 0
    st := st, phaseAt := s.now } := by
  simp [State.shortBrake]

@[simp] theorem State.driveStep_now (p : PortId) (st : Fin 6) (u : Int) (n : Nat) (s : State) : (s.driveStep p st u n).now = s.now := by
  simp [State.driveStep]

@[simp] theorem State.driveStep_spin (p : PortId) (st : Fin 6) (u : Int) (n : Nat) (s : State) :
    (s.driveStep p st u n).spin p = { s.spin p with
    drive := { mode := 1, u := (duties st u).1, v := (duties st u).2.1, w := (duties st u).2.2, applyAt := n, sentAt := s.now }
    step := some st, output := u } := by
  simp [State.driveStep]

@[simp] theorem State.listen_now (p : PortId) (s : State) : (s.listen p).now = s.now := by simp [State.listen]

/-- A window that opens: the engine coasts and no crossing is collected (R162). -/
@[simp] theorem State.listen_spin (p : PortId) (s : State) : (s.listen p).spin p =
    { (s.coast p).spin p with st := .listen, zcs := [], heard := 0, found := none, phaseAt := s.now } :=
  (State.modSpin_spin _ _ _ _).trans (if_pos rfl)

@[simp] theorem State.restBrake_now (p : PortId) (s : State) : (s.restBrake p).now = s.now := by simp [State.restBrake]

@[simp] theorem State.restBrake_spin (p : PortId) (s : State) : (s.restBrake p).spin p =
    { (s.shortBrake p .brakeToStop s.ticksNow).spin p with restBrake := true } :=
  (State.modSpin_spin _ _ _ _).trans (if_pos rfl)

theorem spindleDriveRepeat_driven {s : State} {p : PortId} (h : (s.spin p).drive.mode ≠ 0) :
    Does (.spindleDriveRepeat p) s fun t => (t.spin p).drive =
      { (s.spin p).drive with applyAt := max (s.spin p).drive.applyAt t.ticksNow, sentAt := t.now } ∧
      (s.spin p).drive.sentAt + 5 * Config.ms ≤ t.now := by
  refine ⟨_, congrArg Host.Outcome.next (if_neg h), ?_, Nat.le_max_right _ _⟩
  rw [State.sendDrive_spin]
  rfl

/-! ## Listen windows and short brakes (R162, R163) -/

/-- In a start, fewer than three crossings are a rotor at rest. -/
theorem State.closeListen_fewCrossings {s : State} {p : PortId} {n : Nat} (hs : (s.spin p).slotAt = some n) (hh : (s.spin p).heard < 3) :
    s.closeListen p =
      (s.modSpin p fun v => { v with turning := false, rpm := 0, periodNs := 0xFFFFFFFF, zcs := [] }).restBrake p :=
  (if_neg (by simp [hs])).trans (if_pos hh)

theorem listenWindowClose_fewCrossings {s : State} {p : PortId} {n : Nat} (h : (s.spin p).st = .listen) (hs : (s.spin p).slotAt = some n)
    (hh : (s.spin p).heard < 3) :
    Does (.listenWindowClose p) s fun t => (t.spin p).st = .brakeToStop ∧ (t.spin p).restBrake = true ∧ (t.spin p).drive.mode = 2 ∧
      (s.spin p).phaseAt + 100 * Config.ms ≤ t.now := by
  refine ⟨_, congrArg Host.Outcome.next ((if_pos h).trans (State.closeListen_fewCrossings hs hh)), ?_⟩
  simp

/-- The short brake before the saturation test lasts 200 ms, any other as long as the table says. -/
theorem shortBrakeDone_braked {s : State} {p : PortId} {tb : SpinTable} (ht : (s.spin p).table = some tb)
    (h : (s.spin p).st = .brakeToStop) :
    exec (.shortBrakeDone p) s = .next (if (s.spin p).restBrake = true then
        ((s.at_ ((s.spin p).phaseAt + 200 * Config.ms)).modSpin p fun v => { v with tests := 0 }).senseTest p
      else (s.at_ ((s.spin p).phaseAt + tb.stopBrakeMs * Config.ms)).listen p) := by
  show execShortBrakeDone p s = _
  simp only [execShortBrakeDone, ht, h, if_true]

theorem shortBrakeDone_listens {s : State} {p : PortId} {tb : SpinTable} (ht : (s.spin p).table = some tb)
    (h : (s.spin p).st = .brakeToStop) (hr : (s.spin p).restBrake = false) :
    Does (.shortBrakeDone p) s fun t => (t.spin p).st = .listen ∧ (t.spin p).zcs = [] ∧ (t.spin p).drive.mode = 0 ∧
      (s.spin p).phaseAt + tb.stopBrakeMs * Config.ms ≤ t.now := by
  refine ⟨_, (shortBrakeDone_braked ht h).trans (congrArg Host.Outcome.next (if_neg (by simp [hr]))), ?_⟩
  simp

/-! ## The saturation test (R164, R166) -/

@[simp] theorem State.sendSense_now (p : PortId) (n : Nat) (s : State) : (s.sendSense p n).now = s.now := rfl

@[simp] theorem State.sendSense_spin (p q : PortId) (n : Nat) (s : State) : (s.sendSense p n).spin q = s.spin q := rfl

theorem shortBrakeDone_tests {s : State} {p : PortId} {tb : SpinTable} (ht : (s.spin p).table = some tb)
    (h : (s.spin p).st = .brakeToStop) (hr : (s.spin p).restBrake = true) :
    Does (.shortBrakeDone p) s fun t => (t.spin p).st = .satTest ∧ (t.spin p).tests = 1 ∧ (t.spin p).sense = [] ∧
      (s.spin p).phaseAt + 200 * Config.ms ≤ t.now := by
  refine ⟨_, (shortBrakeDone_braked ht h).trans (congrArg Host.Outcome.next (if_pos hr)), ?_⟩
  simp [State.senseTest]

@[simp] theorem State.hear_spin (p q : PortId) (r : Request) (s : State) : (s.hear p r).spin q = s.spin q := rfl

/-- The answer of a pair that was measured in a test under way adds its d; a sixth ends the test. -/
theorem spindleSenseResponse_measured {s : State} {p : PortId} {tb : SpinTable} {r : Request} {k : Packet} (ht : (s.spin p).table = some tb)
    (hk : Answered s p 0x21 r k) (h : (s.spin p).st = .satTest) (hs : k.status = 0) (hf : field k.payload 0 2 ≠ 0xFFFF)
    (hv : field k.payload 2 2 ≠ 0xFFFF) {l : List Int} (hl : (s.spin p).sense ++ [(field k.payload 2 2 : Int) - field k.payload 0 2] = l) :
    exec (.spindleSenseResponse p) s = .next (if l.length < 6 then
        ((s.hear p r).modSpin p fun v => { v with sense := l }).sendSense p l.length
      else ((s.hear p r).modSpin p fun v => { v with sense := l }).judgeSense p tb l) := by
  refine congrArg Host.Outcome.next ((State.takeAnswer_of hk _).trans ?_)
  subst hl
  simp only [State.modPort_spin, ht, h, hs, hf, hv, ne_eq, not_true_eq_false, or_self, if_false, BitVec.reduceEq, false_and]
  rfl

theorem spindleSenseResponse_adds {s : State} {p : PortId} {tb : SpinTable} {r : Request} {k : Packet} (ht : (s.spin p).table = some tb)
    (hk : Answered s p 0x21 r k) (h : (s.spin p).st = .satTest) (hs : k.status = 0) (hf : field k.payload 0 2 ≠ 0xFFFF)
    (hv : field k.payload 2 2 ≠ 0xFFFF) (hl : (s.spin p).sense.length < 5) :
    Does (.spindleSenseResponse p) s fun t =>
      (t.spin p).sense = (s.spin p).sense ++ [(field k.payload 2 2 : Int) - field k.payload 0 2] ∧ (t.spin p).st = .satTest := by
  refine ⟨_, (spindleSenseResponse_measured ht hk h hs hf hv rfl).trans (congrArg Host.Outcome.next (if_pos ?_)), ?_⟩
  · simp only [List.length_append, List.length_singleton]
    omega
  · simp [h]

theorem spindleSenseRetry_resends {s : State} {p : PortId} {r : Request} {n : Nat}
    (h : ((s.port p).requests.find? fun q => q.packet.opcode.toNat == 0x21 && q.busyAt.isSome && true) = some r) (hb : r.busyAt = some n) :
    Does (.spindleSenseRetry p) s fun t => n + Config.ms ≤ t.now ∧
      (t.port p).normal.map Prod.snd = (s.port p).normal.map Prod.snd ++ [r.packet] := by
  refine ⟨_, congrArg Host.Outcome.next (State.busyRetry_of h), ?_, ?_⟩
  · rw [hb]
    exact Nat.le_max_right _ _
  · simp [State.resend]

/-! ## Alignment and forced acceleration (R165, R167) -/

theorem State.startForced_eq {s : State} {p : PortId} {tb : SpinTable} (ht : (s.spin p).table = some tb) (st : Fin 6) :
    s.startForced p st = (s.modSpin p fun v => { v with
      st := .forced, forcedAt := s.now, forcedStepAt := s.ticksNow, forcedOk := 0, forcedGot := false, forcedN := 0
      zcs := [] }).driveStep p st tb.startDuty s.ticksNow := by
  rw [State.startForced, ht]

theorem alignmentDone_forces {s : State} {p : PortId} {tb : SpinTable} (ht : (s.spin p).table = some tb) (h : (s.spin p).st = .alignment) :
    Does (.alignmentDone p) s fun t => (t.spin p).st = .forced ∧ (t.spin p).step = some 2 ∧ (t.spin p).output = tb.startDuty ∧
      (s.spin p).phaseAt + tb.alignMs * Config.ms ≤ t.now := by
  have run : exec (.alignmentDone p) s = .next ((s.at_ ((s.spin p).phaseAt + tb.alignMs * Config.ms)).startForced p 2) := by
    show execAlignmentDone p s = _
    simp only [execAlignmentDone, ht, h, if_true]
  have table : ((s.at_ ((s.spin p).phaseAt + tb.alignMs * Config.ms)).spin p).table = some tb := ht
  refine ⟨_, run.trans (congrArg Host.Outcome.next (State.startForced_eq table 2)), ?_⟩
  simp

/-- The forced rate only rises. -/
theorem rateReached_mono {t : SpinTable} {a b rpm : Nat} (h : a ≤ b) (ha : rateReached t a rpm = true) : rateReached t b rpm = true := by
  simp only [rateReached, decide_eq_true_eq] at ha ⊢
  exact ha.trans (Nat.mul_le_mul_left _ h)

/-- The instant at which the forced step under way ends. -/
def Spin.forcedDue (tb : SpinTable) (v : Spin) : Nat := v.forcedAt + forcedEnd tb (v.forcedN + 1)

/-- Fewer than six crossings in order hand nothing over. -/
theorem forcedStep_unsynced {s u : State} {p : PortId} {tb : SpinTable} {k : Fin 6} (ht : (s.spin p).table = some tb)
    (h : (s.spin p).st = .forced) (hk : (s.spin p).step = some k) (ho : (s.spin p).forcedOk < 6)
    (hu : s.at_ ((s.spin p).forcedDue tb) = u) : ∃ ok, exec (.forcedStep p) s = .next (
      if rateReached tb (u.now - (s.spin p).forcedAt) (2 * tb.handoverRpm) = true then
        if 1 ≤ (s.spin p).forcedFails then u.startFailure p
        else (u.modSpin p fun v => { v with forcedFails := v.forcedFails + 1, zcs := [] }).restBrake p
      else (u.modSpin p fun v => { v with
        forcedN := v.forcedN + 1, forcedStepAt := u.ticksNow, forcedOk := ok, forcedGot := false }).driveStep p
          (nextStep k) tb.startDuty u.ticksNow) := by
  refine ⟨if (s.spin p).forcedGot = true then (s.spin p).forcedOk else 0, ?_⟩
  have few : ¬ 6 ≤ (if (s.spin p).forcedGot = true then (s.spin p).forcedOk else 0) := by split <;> omega
  subst hu
  show execForcedStep p s = _
  simp only [execForcedStep, ht, hk, h, few, and_false, if_false, ne_eq, not_true_eq_false]
  rfl

theorem forcedStep_next {s : State} {p : PortId} {tb : SpinTable} {k : Fin 6} (ht : (s.spin p).table = some tb)
    (h : (s.spin p).st = .forced) (hk : (s.spin p).step = some k) (ho : (s.spin p).forcedOk < 6)
    (hr : rateReached tb ((s.at_ ((s.spin p).forcedDue tb)).now - (s.spin p).forcedAt) (2 * tb.handoverRpm) = false) :
    Does (.forcedStep p) s fun t => (t.spin p).step = some (nextStep k) ∧ (t.spin p).output = tb.startDuty ∧ (t.spin p).st = .forced ∧
      (s.spin p).forcedDue tb ≤ t.now := by
  obtain ⟨ok, run⟩ := forcedStep_unsynced ht h hk ho rfl
  refine ⟨_, run.trans (congrArg Host.Outcome.next (if_neg (Bool.eq_false_iff.mp hr))), ?_⟩
  simp [h]

theorem forcedStep_fails {s : State} {p : PortId} {tb : SpinTable} {k : Fin 6} (ht : (s.spin p).table = some tb)
    (h : (s.spin p).st = .forced) (hk : (s.spin p).step = some k) (ho : (s.spin p).forcedOk < 6)
    (hr : rateReached tb (s.now - (s.spin p).forcedAt) (2 * tb.handoverRpm) = true) (hf : (s.spin p).forcedFails = 0) :
    Does (.forcedStep p) s fun t => (t.spin p).st = .brakeToStop ∧ (t.spin p).restBrake = true ∧ (t.spin p).forcedFails = 1 := by
  obtain ⟨ok, run⟩ := forcedStep_unsynced ht h hk ho rfl
  have reached := rateReached_mono (Nat.sub_le_sub_right (Nat.le_max_left s.now ((s.spin p).forcedDue tb)) _) hr
  refine ⟨_, run.trans (congrArg Host.Outcome.next ((if_pos reached).trans (if_neg (by simp [hf])))), ?_⟩
  simp [hf]

/-! ## Crossings (R148, R149, R162) -/

/-- The crossing that a SPIN_EVENT reports. -/
def State.crossing (k : Packet) (s : State) : Zc :=
  { at_ := ((s.ticksNow : Int) + signed 32 ((BitVec.ofNat 32 (field k.payload 4 4) - s.linkNow32).toNat)).toNat
    step := crossingStep (field k.payload 0 1) (field k.payload 1 1 == 1) }

/-- What is measured of a crossing goes to the registers that report it. -/
theorem State.noteSpeed_spin (p : PortId) (s : State) : ((s.noteSpeed p).spin p).turning = true ∧
    ((s.noteSpeed p).spin p).st = (s.spin p).st ∧ ((s.noteSpeed p).spin p).step = (s.spin p).step ∧
    ((s.noteSpeed p).spin p).zcs = (s.spin p).zcs := by
  rw [State.noteSpeed, State.modSpin_spin, if_pos rfl]
  dsimp only
  split
  · exact ⟨rfl, rfl, rfl, rfl⟩
  · exact ⟨rfl, rfl, rfl, rfl⟩

theorem Spin.pushZc_keeps (z : Zc) (v : Spin) : (v.pushZc z).st = v.st ∧ (v.pushZc z).step = v.step := by
  unfold Spin.pushZc
  dsimp only
  split
  · split
    · exact ⟨rfl, rfl⟩
    · exact ⟨rfl, rfl⟩
  · split
    · exact ⟨rfl, rfl⟩
    · exact ⟨rfl, rfl⟩

/-- An engine that does not commutate joins every crossing to those before it. -/
theorem Spin.pushZc_heard (z : Zc) {v : Spin} (h : v.st.runs = false) : (v.pushZc z).zcs = Machine.pushZc (6 * v.pp + 1) z v.zcs := by
  unfold Spin.pushZc
  dsimp only
  rw [if_neg (by simp [h])]
  split
  · rfl
  · rfl

/-- A crossing taken by a spindle: heard, and its speed noted. -/
def State.hearCrossing (p : PortId) (k : Packet) (s : State) : State :=
  ((s.modPort p fun q => { q with rx := q.rx.drop 1 }).modSpin p fun v => v.pushZc (s.crossing k)).noteSpeed p

theorem State.hearCrossing_spin (p : PortId) (k : Packet) (s : State) : ((s.hearCrossing p k).spin p).turning = true ∧
    ((s.hearCrossing p k).spin p).st = (s.spin p).st ∧ ((s.hearCrossing p k).spin p).step = (s.spin p).step ∧
    ((s.hearCrossing p k).spin p).zcs = ((s.spin p).pushZc (s.crossing k)).zcs := by
  obtain ⟨turning, st, step, zcs⟩ := State.noteSpeed_spin p
    ((s.modPort p fun q => { q with rx := q.rx.drop 1 }).modSpin p fun v => v.pushZc (s.crossing k))
  rw [State.modSpin_spin, if_pos rfl, State.modPort_spin] at st step zcs
  obtain ⟨st', step'⟩ := (s.spin p).pushZc_keeps (s.crossing k)
  exact ⟨turning, st.trans st', step.trans step', zcs⟩

theorem spinEvent_heard {s u : State} {p : PortId} {tb : SpinTable} {k : Packet} (ht : (s.spin p).table = some tb)
    (hk : Received s p 0xE1 k) (hu : s.hearCrossing p k = u) :
    exec (.spinEvent p) s = .next (
      if (u.spin p).st = .listen then if 7 ≤ (u.spin p).zcs.length then u.closeListen p else u
      else if (u.spin p).st = .activeBraking then u.brakeCrossing p tb (s.crossing k)
      else if (u.spin p).st = .forced then u.forcedCrossing p tb (s.crossing k)
      else if (u.spin p).st.runs = true then u.runCrossing p tb (s.crossing k)
      else u) := by
  subst hu
  refine congrArg Host.Outcome.next ((State.takeRx_of hk _).trans ?_)
  simp only [State.modPort_spin, ht]
  rfl

theorem spinEvent_listening {s : State} {p : PortId} {tb : SpinTable} {k : Packet} (ht : (s.spin p).table = some tb)
    (hk : Received s p 0xE1 k) (h : (s.spin p).st = .listen) (hz : (s.spin p).zcs = []) :
    Does (.spinEvent p) s fun t => (t.spin p).zcs.map Zc.step = [crossingStep (field k.payload 0 1) (field k.payload 1 1 == 1)] ∧
      (t.spin p).turning = true ∧ (t.spin p).st = .listen := by
  obtain ⟨turning, st, -, zcs⟩ := s.hearCrossing_spin p k
  rw [Spin.pushZc_heard _ (by rw [h]; rfl), hz] at zcs
  rw [h] at st
  have run : exec (.spinEvent p) s = .next (s.hearCrossing p k) := by
    rw [spinEvent_heard ht hk rfl, if_pos st, if_neg (by rw [zcs]; simp [Machine.pushZc])]
  exact ⟨_, run, by rw [zcs]; rfl, turning, st⟩

/-- Outside a spin-down the next step is driven at the output in force. -/
theorem State.commutate_driven {s : State} {p : PortId} (h : (s.spin p).st ≠ .regenDown) (tb : SpinTable) (st : Fin 6) (tz : Nat) :
    s.commutate p tb st tz = s.driveStep p st (s.spin p).output (tz + commDelay (s.spin p).adv (s.spin p).te) :=
  if_neg h

/-- A crossing at speed that ends the step in force, and no electrical cycle, commutates to the next. -/
theorem State.runCrossing_expected {s : State} {p : PortId} {z : Zc} (tb : SpinTable) (h : (s.spin p).st = .atSpeed)
    (he : (s.spin p).step = some z.step) (hz : z.step ≠ 5) :
    s.runCrossing p tb z =
      (s.modSpin p fun v => { v with missed := 0, te := zcTe v.zcs v.te }).commutate p tb (nextStep z.step) z.at_ := by
  simp [State.runCrossing, Spin.expects, State.when, SpinSt.runs, h, he, hz]

theorem spinEvent_commutates {s : State} {p : PortId} {tb : SpinTable} {k : Packet} (ht : (s.spin p).table = some tb)
    (hk : Received s p 0xE1 k) (h : (s.spin p).st = .atSpeed) (he : (s.spin p).step = some (s.crossing k).step)
    (hz : (s.crossing k).step ≠ 5) :
    Does (.spinEvent p) s fun t =>
      (t.spin p).step = some (nextStep (s.crossing k).step) ∧ (t.spin p).missed = 0 ∧ (t.spin p).drive.mode = 1 := by
  obtain ⟨-, st, step, -⟩ := s.hearCrossing_spin p k
  rw [h] at st
  rw [he] at step
  have run : exec (.spinEvent p) s = .next ((s.hearCrossing p k).runCrossing p tb (s.crossing k)) := by
    rw [spinEvent_heard ht hk rfl, st]
    rfl
  rw [State.runCrossing_expected tb st step hz, State.commutate_driven (by simp [st])] at run
  refine ⟨_, run, ?_⟩
  simp

/-! ## Missed crossings and sync loss (R151, R168) -/

/-- The crossing that was predicted after the newest one, those missed since counted. -/
def Spin.predicted (z : Zc) (v : Spin) : Nat := z.at_ + (freeRound (((v.missed + 1) * v.te : Nat) : Int) 6).toNat

theorem missedCrossing_running {s : State} {p : PortId} {tb : SpinTable} {k : Fin 6} {z : Zc} {l : List Zc} (ht : (s.spin p).table = some tb)
    (hr : (s.spin p).st.runs = true) (hk : (s.spin p).step = some k) (hz : (s.spin p).zcs = z :: l) (he : (s.spin p).te ≠ 0) : ∃ n,
    exec (.missedCrossing p) s = .next (if 5 ≤ (s.spin p).missed then (s.at_ n).syncLost p
      else ((s.at_ n).modSpin p fun v => { v with missed := v.missed + 1 }).commutate p tb (nextStep k) ((s.spin p).predicted z)) := by
  refine ⟨nsOfTicks ((s.spin p).predicted z + (freeRound (s.spin p).te 12).toNat), ?_⟩
  show execMissedCrossing p s = _
  simp only [execMissedCrossing, ht, hk, hz, hr, he, Bool.true_eq_false, or_self, if_false]
  rfl

theorem missedCrossing_next {s : State} {p : PortId} {tb : SpinTable} {k : Fin 6} {z : Zc} {l : List Zc} (ht : (s.spin p).table = some tb)
    (h : (s.spin p).st = .atSpeed) (hk : (s.spin p).step = some k) (hz : (s.spin p).zcs = z :: l) (he : (s.spin p).te ≠ 0)
    (hm : (s.spin p).missed < 5) :
    Does (.missedCrossing p) s fun t => (t.spin p).step = some (nextStep k) ∧ (t.spin p).missed = (s.spin p).missed + 1 := by
  obtain ⟨n, run⟩ := missedCrossing_running ht (by rw [h]; rfl) hk hz he
  refine ⟨_, run.trans (congrArg Host.Outcome.next ((if_neg (Nat.not_le.mpr hm)).trans (State.commutate_driven ?_ tb _ _))), ?_⟩
  · simp [h]
  · simp

/-- In a start a loss of sync before the third listens again. -/
theorem State.syncLost_listens {s : State} {p : PortId} {n : Nat} (hu : (s.spin p).unloading = false) (hs : (s.spin p).slotAt = some n)
    (hl : (s.spin p).syncLosses < 2) :
    s.syncLost p = (((s.coast p).modSpin p fun v => { v with
      syncLosses := v.syncLosses + 1, missed := 0, inLock := false, inReg := false }).raiseSpin p 6).listen p := by
  have few : ¬ 3 ≤ (s.spin p).syncLosses + 1 := by omega
  simp [State.syncLost, hu, hs, few]

theorem missedCrossing_loses {s : State} {p : PortId} {tb : SpinTable} {k : Fin 6} {z : Zc} {l : List Zc} {n : Nat}
    (ht : (s.spin p).table = some tb) (h : (s.spin p).st = .closedLoop) (hk : (s.spin p).step = some k) (hz : (s.spin p).zcs = z :: l)
    (he : (s.spin p).te ≠ 0) (hm : (s.spin p).missed = 5) (hu : (s.spin p).unloading = false) (hs : (s.spin p).slotAt = some n)
    (hl : (s.spin p).syncLosses < 2) :
    Does (.missedCrossing p) s fun t => (t.spin p).st = .listen ∧ (t.spin p).syncLosses = (s.spin p).syncLosses + 1 ∧
      (t.spin p).events.getLsbD 6 = true ∧ (t.spin p).drive.mode = 0 := by
  obtain ⟨m, run⟩ := missedCrossing_running ht (by rw [h]; rfl) hk hz he
  refine ⟨_, run.trans (congrArg Host.Outcome.next ((if_pos (by simp [hm])).trans (State.syncLost_listens hu hs hl))), ?_⟩
  simp only [State.listen_spin, State.raiseSpin_spin, State.modSpin_spin, State.coast_spin, State.at__spin, if_true, true_and]
  exact ⟨setBit_get _ _ (by decide), trivial⟩

/-! ## Regulation lost, and spin-down (R155, R161, R168, R169) -/

theorem regulationRecoveryTimeout_fails {s : State} {p : PortId} (h : (s.spin p).st = .outOfReg) :
    Does (.regulationRecoveryTimeout p) s fun t => (t.port p).fail = 0xA ∧ (t.port p).train = 0xA ∧
      (s.spin p).outAt + 15 * Config.sec ≤ t.now := by
  obtain ⟨fail, train⟩ := (s.at_ ((s.spin p).outAt + 15 * Config.sec)).startFailure_port p
  exact ⟨_, congrArg Host.Outcome.next (if_pos h), fail, train,
    (Nat.le_max_right _ _).trans (State.startFailure_moves p (s.at_ ((s.spin p).outAt + 15 * Config.sec))).time⟩

theorem spinDown_brakes {s : State} {p : PortId} (h : (s.spin p).st = .regenDown) (ho : (s.spin p).ovLatched = false)
    (hu : (s.spin p).unloading = false) (ha : (s.spin p).above 600 = false) :
    Does (.spinDown p) s fun t => (t.spin p).st = .shortStop ∧ (t.spin p).drive.mode = 2 ∧ t.acts = s.acts := by
  have run : exec (.spinDown p) s = .next (s.shortBrake p .shortStop s.ticksNow) := by
    show execSpinDown p s = _
    simp [execSpinDown, h, ho, hu, ha]
  exact ⟨_, run, by rw [State.shortBrake_spin], by rw [State.shortBrake_spin], (s.shortBrake_moves p _ _).only .acts (by decide)⟩

/-! ### A port that leaves service -/

/-- A port without what waits on its command lane or for an answer, and without the bits that its sides have still to write. -/
def Port.unwritten (x : Port) : Port := { x.unqueued with writes := [] }

theorem Port.unwritten_of_unqueued {x y : Port} (h : x.unqueued = y.unqueued) : x.unwritten = y.unwritten :=
  congrArg (fun z : Port => { z with writes := [] }) h

theorem Port.inService_of_unqueued {x y : Port} (h : x.unqueued = y.unqueued) : x.inService = y.inService := by
  simpa [Port.unqueued] using congrArg Port.inService h

theorem Port.degraded_of_unwritten {x y : Port} (h : x.unwritten = y.unwritten) : x.degraded = y.degraded := by
  simpa [Port.unwritten, Port.unqueued] using congrArg Port.degraded h

theorem State.dropBits_unwritten (a : ActId) (q : PortId) (s : State) : ((s.dropBits a).port q).unwritten = (s.port q).unwritten := by
  rw [State.dropBits, State.modPort_port]
  split
  next e => rw [e]; rfl
  next => rfl

theorem State.cancelGates_unwritten (a : ActId) (r w : Bool) (q : PortId) (s : State) :
    ((s.cancelGates a r w).port q).unwritten = (s.port q).unwritten := by
  have sent := Port.unwritten_of_unqueued (State.sendUrgent_unqueued (portOf a) q 0x11
    (packBytes [(1, (sideOf a).val), (1, 2 * bit r + 4 * bit w), (2, 0)]) s)
  unfold State.cancelGates State.when
  split
  · exact (State.dropBits_unwritten a q _).trans sent
  · exact sent

theorem State.seqToIdle_unwritten (a : ActId) (b : Bool) (q : PortId) (s : State) :
    ((s.seqToIdle a b).port q).unwritten = (s.port q).unwritten := by
  rw [State.seqToIdle, State.port_of_ports ((State.noteRequest_moves _ _).only .ports (by decide)), State.idleEncoder,
    State.dropBits_unwritten]
  rfl

/-- Operations that end take their packets and bits with them, and leave the rest of every port as it is. -/
theorem State.quiesce_unwritten (b : Bool) (a : ActId) (q : PortId) (s : State) :
    ((s.quiesce b a).port q).unwritten = (s.port q).unwritten := by
  rw [State.quiesce, State.port_of_ports ((State.abandonBreak_moves _ _).only .ports (by decide)),
    State.port_of_ports ((State.endSession_moves _ _).only .ports (by decide)), State.seqToIdle_unwritten, State.cancelGates_unwritten]

theorem State.leaveService_inService (p : PortId) (b : Bool) (s : State) : ((s.leaveService p b).port p).inService = false := by
  rw [State.leaveService, State.noteService_port, State.modPort_port, if_pos rfl]

theorem State.leaveService_degraded (p : PortId) (b : Bool) (s : State) :
    ((s.leaveService p b).port p).degraded = (s.port p).degraded := by
  have ended : ((s.each (fins 2) fun sd u => u.quiesce b (actOf p sd)).port p).unwritten = (s.port p).unwritten :=
    State.each_keeps (fun u : State => (u.port p).unwritten) (fun sd u => u.quiesce_unwritten b (actOf p sd) p) (fins 2) s
  rw [State.leaveService, State.noteService_port, State.modPort_port, if_pos rfl]
  dsimp only
  rw [Port.degraded_of_unwritten ended]

theorem State.unload_unqueued (a : ActId) (q : PortId) (s : State) : ((s.unload a).port q).unqueued = (s.port q).unqueued := by
  rw [State.unload, State.port_of_ports ((State.noteRequest_moves _ _).only .ports (by decide)), State.modAct_port, State.sendPark,
    State.sendRequest_unqueued]

theorem State.unloadSides_unqueued (p q : PortId) (s : State) : ((s.unloadSides p).port q).unqueued = (s.port q).unqueued :=
  State.each_keeps (fun u : State => (u.port q).unqueued)
    (fun sd u => by
      unfold State.when
      split
      · exact u.unload_unqueued (actOf p sd) q
      · rfl) (fins 2) s

/-! ### A spindle that is braked -/

theorem State.coast_unqueued (p q : PortId) (s : State) : ((s.coast p).port q).unqueued = (s.port q).unqueued :=
  State.sendDrive_unqueued p q 0 0 0 0 s.ticksNow s

theorem State.driveStep_unqueued (p q : PortId) (st : Fin 6) (u : Int) (n : Nat) (s : State) :
    ((s.driveStep p st u n).port q).unqueued = (s.port q).unqueued :=
  State.sendDrive_unqueued p q 1 _ _ _ n s

theorem State.shortBrake_unqueued (p q : PortId) (st : SpinSt) (n : Nat) (s : State) :
    ((s.shortBrake p st n).port q).unqueued = (s.port q).unqueued :=
  State.sendDrive_unqueued p q 2 0 0 0 n s

theorem State.regen_keeps (p q : PortId) (s : State) :
    ((s.regen p).port q).unqueued = (s.port q).unqueued ∧ ((s.regen p).spin p).slotAt = (s.spin p).slotAt := by
  unfold State.regen
  extract_lets v t last
  have slot : (t.spin p).slotAt = (s.spin p).slotAt := by simp [t]
  split
  · split
    · exact ⟨t.coast_unqueued p q, by rw [State.coast_spin, ← slot]⟩
    · exact ⟨t.driveStep_unqueued p q _ _ _, by rw [State.driveStep_spin, ← slot]⟩
  · exact ⟨rfl, slot⟩

theorem State.brakeDown_keeps (p q : PortId) (s : State) :
    ((s.brakeDown p).port q).unqueued = (s.port q).unqueued ∧ ((s.brakeDown p).spin p).slotAt = (s.spin p).slotAt := by
  unfold State.brakeDown
  extract_lets t
  have slot : (t.spin p).slotAt = (s.spin p).slotAt := by simp [t]
  split
  · obtain ⟨port, regen⟩ := t.regen_keeps p q
    exact ⟨port, regen.trans slot⟩
  · exact ⟨t.shortBrake_unqueued p q _ _, by rw [State.shortBrake_spin, ← slot]⟩

/-- A spin-down takes its port out of service, and frees its start slot. -/
theorem State.spinDown_leaves (p : PortId) (s : State) :
    ((s.spinDown p).port p).inService = false ∧ ((s.spinDown p).spin p).slotAt = none := by
  unfold State.spinDown
  extract_lets t u
  have port : (u.port p).inService = false := by
    rw [Port.inService_of_unqueued ((t.leaveService p true).unloadSides_unqueued p p), State.leaveService_inService]
  have slot : (u.spin p).slotAt = none := by simp [u, t]
  clear_value u
  split
  · rw [State.modSpin_port, State.modSpin_spin, if_pos rfl]
    exact ⟨port, slot⟩
  · obtain ⟨braked, kept⟩ := u.brakeDown_keeps p p
    exact ⟨(Port.inService_of_unqueued braked).trans port, kept.trans slot⟩

theorem spinDown_leaves {s : State} {p : PortId} (h : (s.spin p).st = .atSpeed) (ho : (s.spin p).ovLatched = false)
    (hu : (s.spin p).unloading = false) (hl : (s.spin p).levelCmd < 48) :
    Does (.spinDown p) s fun t => (t.port p).inService = false ∧ (t.spin p).slotAt = none := by
  have run : exec (.spinDown p) s = .next (s.spinDown p) := by
    show execSpinDown p s = _
    simp [execSpinDown, h, ho, hu, hl]
  exact ⟨_, run, s.spinDown_leaves p⟩

/-! ## Overvoltage (R171) -/

/-- An overvoltage latches the short brake, frees the start slot and marks the port. -/
theorem State.overvoltage_latches (p : PortId) (s : State) : ((s.overvoltage p).spin p).ovLatched = true ∧
    ((s.overvoltage p).spin p).refused = true ∧ ((s.overvoltage p).spin p).st = .ovBrake ∧ ((s.overvoltage p).spin p).drive.mode = 2 ∧
    ((s.overvoltage p).spin p).slotAt = none ∧ ((s.overvoltage p).port p).degraded = true := by
  unfold State.overvoltage
  extract_lets sides braked parked halted freed told
  have sent : parked.spin p = braked.spin p :=
    State.each_keeps (fun u : State => u.spin p) (fun sd u => State.sendRequestUrgent_spin p p _ _ u) sides braked
  have same : halted.spin p = braked.spin p := by
    refine (State.each_keeps (fun u : State => u.spin p) (fun sd u => ?_) sides parked).trans sent
    rw [State.modAct_spin, (State.permit_moves (actOf p sd) false false u).spin (by decide)]
  have spin : told.spin p = { braked.spin p with
      ovLatched := true, refused := true, inLock := false, inReg := false, unloading := false, thenStart := false, retarget := false
      slotAt := none, wantSlot := false, events := setBit (braked.spin p).events 4 } := by
    simp [told, freed, same]
  rw [State.leaveService_spin, spin, State.leaveService_degraded]
  simp [braked, told]

theorem spinAlert_overvoltage {s : State} {p : PortId} {k : Packet} (hk : Received s p 0xE2 k) (hf : field k.payload 2 2 % 4 = 3)
    (ho : (s.spin p).ovLatched = false) (hb : (s.port p).obeyed = true) :
    Does (.spinAlert p) s fun t => (t.spin p).ovLatched = true ∧ (t.spin p).refused = true ∧ (t.spin p).st = .ovBrake ∧
      (t.spin p).drive.mode = 2 ∧ (t.spin p).slotAt = none ∧ (t.port p).degraded = true := by
  refine ⟨_, congrArg Host.Outcome.next ((State.takeRx_of hk _).trans (if_pos ?_)), State.overvoltage_latches p _⟩
  simp [ovFlags, hf, ho, hb]

/-! ## Start slots (R162; spec/02 R81) -/

theorem State.beginStart_spin (p : PortId) (s : State) : ((s.beginStart p).spin p).slotAt = some s.now ∧
    ((s.beginStart p).spin p).st = .listen ∧ ((s.beginStart p).spin p).starts = satAdd 65535 (s.spin p).starts 1 ∧
    ((s.beginStart p).spin p).drive.mode = 0 := by
  simp [State.beginStart]

theorem startSlotGrant_lowest {s : State} {p : PortId} (h : s.starting < s.boot.spinGroup)
    (hp : ((fins 32).find? fun p => s.mayStart p) = some p) :
    Does .startSlotGrant s fun t => (t.spin p).slotAt = some s.now ∧ (t.spin p).st = .listen ∧
      (t.spin p).starts = satAdd 65535 (s.spin p).starts 1 ∧ (t.spin p).drive.mode = 0 := by
  have run : exec .startSlotGrant s = .next (s.beginStart p).noteProgress := by
    show execStartSlotGrant s = _
    rw [execStartSlotGrant, if_pos h, hp]
  refine ⟨_, run, ?_⟩
  simpa only [State.noteProgress_spin] using s.beginStart_spin p

/-- Settles O42: each clause is the lemma of its command above. -/
theorem spindleCommands : Obligations.SpindleCommands :=
  ⟨fun _ _ _ _ _ h hs hh => listenWindowClose_fewCrossings h hs hh, fun _ _ _ ht h hr => shortBrakeDone_listens ht h hr,
    fun _ _ _ ht h hr => shortBrakeDone_tests ht h hr, fun _ _ _ ht h => alignmentDone_forces ht h,
    fun _ _ _ _ _ ht hk h hs hf hv hl => spindleSenseResponse_adds ht hk h hs hf hv hl,
    fun _ _ _ _ h hb => spindleSenseRetry_resends h hb, fun _ _ _ _ ht h hk ho hr => forcedStep_next ht h hk ho hr,
    fun _ _ _ _ ht h hk ho hr hf => forcedStep_fails ht h hk ho hr hf, fun _ _ _ _ ht hk h hz => spinEvent_listening ht hk h hz,
    fun _ _ _ _ ht hk h he hz => spinEvent_commutates ht hk h he hz,
    fun _ _ _ _ _ _ ht h hk hz he hm => missedCrossing_next ht h hk hz he hm,
    fun _ _ _ _ _ _ _ ht h hk hz he hm hu hs hl => missedCrossing_loses ht h hk hz he hm hu hs hl,
    fun _ _ h => spindleDriveRepeat_driven h, fun _ _ h => regulationRecoveryTimeout_fails h,
    fun _ _ h ho hu ha => spinDown_brakes h ho hu ha, fun _ _ h ho hu hl => spinDown_leaves h ho hu hl,
    fun _ _ _ hk hf ho hb => spinAlert_overvoltage hk hf ho hb, fun _ _ h hp => startSlotGrant_lowest h hp⟩

end Sys2Proof.Machine
end

section
/-! SUPPORT. The Marionette servo engine (spec/05 R186 to R201, R207, R730; spec/03 R93 to R98; spec/14 R528): what the operations that the
servo commands share leave of an actuator, and what each command does to it. -/

namespace Sys2Proof.Machine

/-! ## An actuator after the shared operations -/

theorem State.Moves.act {l : List Part} {s t : State} (m : s.Moves l t) (h : Part.acts ∉ l) (b : ActId) : t.act b = s.act b := by
  have acts : t.acts = s.acts := m.only .acts h
  rw [State.act, acts, State.act]

@[simp] theorem State.noteRequest_act (a b : ActId) (s : State) : (s.noteRequest a).act b = s.act b :=
  (State.noteRequest_moves a s).act (by decide) b

@[simp] theorem State.wedgeReport_act (a b : ActId) (s : State) : (s.wedgeReport a).act b = s.act b :=
  (State.wedgeReport_moves a s).act (by decide) b

@[simp] theorem State.nextGate_act (a b : ActId) (t : ServoTable) (f : FormatTable) (s : State) : (s.nextGate a t f).1.act b = s.act b :=
  (State.nextGate_moves a t f s).act (by decide) b

@[simp] theorem State.sendActDrive_act (a b : ActId) (x y : Int) (n : Nat) (s : State) : (s.sendActDrive a x y n).act b = s.act b :=
  (State.sendActDrive_moves a x y n s).act (by decide) b

@[simp] theorem State.sendPark_act (p : PortId) (sd : Side) (n : Nat) (b : ActId) (s : State) : (s.sendPark p sd n).act b = s.act b :=
  (State.sendPark_moves p sd n s).act (by decide) b

@[simp] theorem State.cancelGates_act (a b : ActId) (r w : Bool) (s : State) : (s.cancelGates a r w).act b = s.act b :=
  (State.cancelGates_moves a r w s).act (by decide) b

@[simp] theorem State.noteService_act (p : PortId) (b : ActId) (s : State) : (s.noteService p).act b = s.act b :=
  (State.noteService_moves p s).act (by decide) b

@[simp] theorem State.tryService_act (p : PortId) (b : ActId) (s : State) : (s.tryService p).act b = s.act b :=
  (State.tryService_moves p s).act (by decide) b

@[simp] theorem State.settle_act (b : ActId) (s : State) : s.settle.act b = s.act b := (State.settle_moves s).act (by decide) b

@[simp] theorem State.emit_act (c n k : Nat) (l : List (BitVec 256)) (b : ActId) (s : State) : (s.emit c n k l).act b = s.act b :=
  (State.emit_moves c n k l s).act (by decide) b

@[simp] theorem State.allUnloaded_act (p : PortId) (b : ActId) (s : State) : (s.allUnloaded p).act b = s.act b :=
  (State.allUnloaded_moves p s).act (by decide) b

@[simp] theorem State.hear_act (p : PortId) (r : Request) (b : ActId) (s : State) : (s.hear p r).act b = s.act b := rfl

theorem State.modAct_view {β : Type} (v : Act → β) {f : Act → Act} (hf : ∀ x, v (f x) = v x) (a b : ActId) (s : State) :
    v ((s.modAct a f).act b) = v (s.act b) := by
  rw [State.modAct_act]
  split
  next e => rw [e, hf]
  next => rfl

theorem State.raiseServo_view {β : Type} (v : Act → β) (hv : ∀ x e, v { x with events := e } = v x) (a : ActId) (n : Nat) (b : ActId)
    (s : State) : v ((s.raiseServo a n).act b) = v (s.act b) := by
  rw [State.raiseServo, State.emit_act]
  exact State.modAct_view v (fun x => hv x _) a b s

/-! ### Permissions (R202, R203) -/

/-- An actuator without its permissions, its events and its count of inhibits: what permissions newly given leave as it was. -/
def Act.unpermitted (x : Act) : Act := { x with readAllowed := false, writeAllowed := false, events := 0, inhibits := 0 }

theorem State.permit_unpermitted (a : ActId) (r w : Bool) (b : ActId) (s : State) :
    ((s.permit a r w).act b).unpermitted = (s.act b).unpermitted := by
  have given := State.modAct_view Act.unpermitted (f := fun x => { x with readAllowed := r, writeAllowed := w }) (fun _ => rfl) a b s
  unfold State.permit
  extract_lets fell t
  split
  · refine (State.modAct_view Act.unpermitted (fun _ => by rfl) a b _).trans ?_
    rw [State.raiseServo_view Act.unpermitted (fun _ _ => rfl), State.cancelGates_act]
    exact given
  · exact given

theorem State.permit_writeAllowed (a : ActId) (r w : Bool) (s : State) : ((s.permit a r w).act a).writeAllowed = w := by
  unfold State.permit
  extract_lets fell t
  split
  · simp [t]
  · simp [t]

theorem State.permit_event (a : ActId) (r w : Bool) (s : State) {n : Nat} (h : (s.act a).events.getLsbD n = true) :
    ((s.permit a r w).act a).events.getLsbD n = true := by
  unfold State.permit
  extract_lets fell t
  have given : (t.act a).events.getLsbD n = true := by simpa [t] using h
  split
  · simpa using setBit_keep _ 5 n given
  · exact given

/-! ## Regions (R193 to R196) -/

/-- An actuator after a region change decided: counts begin anew, the coefficient sets are swapped. -/
def Act.changed (t : ServoTable) (sd : Side) (was r : Region) (now : Nat) (y : Act) : Act := { y with
  region := r, regionAt := now, entryCount := 0, exitCount := 0, shockExit := 0
  vRef := if r = .seek then 0 else y.vRef, timeouts := if r = .follow then 0 else y.timeouts
  vcm := if was = .parked then y.vcm else y.vcm.swap (t.pair sd was).1 (t.pair sd r).1
  ma := if was = .parked then y.ma else y.ma.swap (t.pair sd was).2 (t.pair sd r).2 }

/-- What follows a region change: a shock is counted, and a port whose sides follow their tracks may enter service. -/
theorem State.enterRegion_eq (a : ActId) (t : ServoTable) (r : Region) (s : State) : s.enterRegion a t r =
    if (s.act a).region = r then s
    else if r = .shock then (s.modAct a (Act.changed t (sideOf a) (s.act a).region r s.now)).enterShock a
    else if r = .follow then ((s.modAct a (Act.changed t (sideOf a) (s.act a).region r s.now)).tryService (portOf a)).settle
    else s.modAct a (Act.changed t (sideOf a) (s.act a).region r s.now) := rfl

theorem State.enterRegion_seek (a : ActId) (t : ServoTable) (s : State) : s.enterRegion a t .seek =
    if (s.act a).region = .seek then s else s.modAct a (Act.changed t (sideOf a) (s.act a).region .seek s.now) := by
  simp [State.enterRegion_eq]

theorem State.enterShock_view {β : Type} (v : Act → β) (hv : ∀ x e, v { x with events := e } = v x)
    (hs : ∀ x n l, v { x with shocks := n, shockAt := l } = v x) (a b : ActId) (s : State) : v ((s.enterShock a).act b) = v (s.act b) := by
  unfold State.enterShock
  extract_lets before t now first
  have counted : v (t.act b) = v (s.act b) :=
    (State.raiseServo_view v hv a 2 b _).trans (State.modAct_view v (fun x => hs x _ _) a b s)
  split
  · rw [State.emit_act]
    exact counted
  · exact counted

/-- What an evaluation gives, and no region change takes back: the sample used up, the PES, the outputs and their saturation flags. -/
def Act.result (x : Act) : Option Wedge × Int × (Int × Bool) × (Int × Bool) :=
  (x.sample, x.pes, (x.vcm.y, x.vcm.sat), (x.ma.y, x.ma.sat))

theorem Act.changed_result (t : ServoTable) (sd : Side) (was r : Region) (now : Nat) (y : Act) :
    (y.changed t sd was r now).result = y.result := by
  by_cases h : was = .parked
  · simp [Act.changed, Act.result, h]
  · simp [Act.changed, Act.result, h, Comp.swap]

theorem State.enterRegion_result (a : ActId) (t : ServoTable) (r : Region) (b : ActId) (s : State) :
    ((s.enterRegion a t r).act b).result = (s.act b).result := by
  have changed := State.modAct_view Act.result (Act.changed_result t (sideOf a) (s.act a).region r s.now) a b s
  rw [State.enterRegion_eq]
  split
  · rfl
  · split
    · exact (State.enterShock_view _ (fun _ _ => rfl) (fun _ _ _ => rfl) a b _).trans changed
    · split
      · rw [State.settle_act, State.tryService_act]
        exact changed
      · exact changed

/-! ## COMPENSATOR_EVALUATION (R186 to R192) -/

/-- The waiting sample of an actuator is taken up. -/
def State.takeSample (a : ActId) (s : State) : State := s.modAct a fun x => { x with sample := none, profile1 := s.slowSeek }

/-- An evaluation once both compensators have run: the outputs go out, and region and permissions are decided. -/
def State.finishLoop (a : ActId) (t : ServoTable) (f : FormatTable) (isNew : Bool) (e v : Int) (s : State) : State :=
  let x := s.act a
  let out := sat16 (x.vcm.y + roundHalfUp (t.crossFf * s.crossInput a t) (2 ^ 30))
  let g := s.nextGate a t f
  let u := g.1.sendOutputs a out x.ma.y g.2
  let n := x.counts t e v
  let u := (u.modAct a fun y => { y with entryCount := n.1, exitCount := n.2.1, shockExit := n.2.2 }).enterRegion a t
    (x.nextRegion t isNew e v n)
  ((u.judge a t).wedgeReport a).noteRequest a

/-- The error and the recovery count of an evaluation, before its compensators run; a new target is judged by the sample at once. -/
def State.noteError (a : ActId) (t : ServoTable) (isNew : Bool) (e v : Int) (s : State) : State :=
  s.modAct a fun x => { x with
    pes := clamp (-32767) 32767 e, recover := if isNew then meetsWrite t e v :: x.recover.drop 1 else x.recover }

section
variable {s : State} {a : ActId} {w : Wedge} {t : ServoTable} {f : FormatTable}

theorem State.evaluate_fresh (hw : (s.act a).sample = some w) (ht : (s.pcal (portOf a)).servo = some t)
    (hf : (s.pcal (portOf a)).format = some f) (h : (s.act a).fresh = true) : s.evaluate a =
    (((((s.takeSample a).modAct a fun x => { x with fresh := false }).enterRegion a t .seek).nextGate a t f).1.wedgeReport
      a).noteRequest a := by
  have fresh : ((s.takeSample a).act a).fresh = true := by simpa [State.takeSample] using h
  unfold State.evaluate
  rw [hw, ht, hf]
  exact if_pos fresh

/-- An evaluation after the first: the target in force, the error from it, both compensators, and what follows. -/
theorem State.evaluate_loop (hw : (s.act a).sample = some w) (ht : (s.pcal (portOf a)).servo = some t)
    (hf : (s.pcal (portOf a)).format = some f) (h : (s.act a).fresh = false) {q : State × Bool}
    (hq : (s.takeSample a).takeTarget a = q) {e v : Int} (he : errorOf (q.1.act a).target w.pos = e) (hv : (q.1.act a).vel = v) :
    s.evaluate a = ((q.1.noteError a t q.2 e v).runLoop a t e v).finishLoop a t f q.2 e v := by
  have fresh : ¬ ((s.takeSample a).act a).fresh = true := by simp [State.takeSample, h]
  subst hq he hv
  unfold State.evaluate
  rw [hw, ht, hf]
  exact if_neg fresh

end

theorem State.takeSample_act (a b : ActId) (s : State) :
    (s.takeSample a).act b = if b = a then { s.act a with sample := none, profile1 := s.slowSeek } else s.act b :=
  State.modAct_act _ _ _ _

theorem State.takeTarget_none {a : ActId} {s : State} (h : (s.act a).newTarget = none) : s.takeTarget a = (s, false) := by
  rw [State.takeTarget, h]

theorem State.takeTarget_sample (a b : ActId) (s : State) : ((s.takeTarget a).1.act b).sample = (s.act b).sample := by
  unfold State.takeTarget
  extract_lets x
  split
  next =>
    split
    · rfl
    · exact State.modAct_view Act.sample (fun _ => by rfl) a b s
  next => rfl

theorem State.runLoop_sample (a : ActId) (t : ServoTable) (e v : Int) (b : ActId) (s : State) :
    ((s.runLoop a t e v).act b).sample = (s.act b).sample :=
  State.modAct_view Act.sample (fun _ => by rfl) a b s

/-- In track following the MA's input is the PES, and the VCM's the PES with the MA's share of it (R186, R191). -/
theorem State.runLoop_follow {s : State} {a : ActId} (h : (s.act a).region = .follow) (t : ServoTable) (e v : Int) :
    ((s.runLoop a t e v).act a).ma = (t.pair (sideOf a) .follow).2.eval (s.act a).ma (clamp (-32767) 32767 e) ∧
    ((s.runLoop a t e v).act a).vcm = (t.pair (sideOf a) .follow).1.eval (s.act a).vcm
      (sat16 (clamp (-32767) 32767 e + roundHalfUp (t.maGain * (s.act a).sent.2) (2 ^ 30))) ∧
    ((s.runLoop a t e v).act a).pes = (s.act a).pes ∧ ((s.runLoop a t e v).act a).sample = (s.act a).sample := by
  simp [State.runLoop, h]

theorem State.permit_result (a : ActId) (r w : Bool) (b : ActId) (s : State) :
    ((s.permit a r w).act b).result = (s.act b).result := by
  have same := congrArg Act.result (State.permit_unpermitted a r w b s)
  exact same

theorem State.sendOutputs_result (a : ActId) (x y : Int) (n : Nat) (b : ActId) (s : State) :
    ((s.sendOutputs a x y n).act b).result = (s.act b).result := by
  unfold State.sendOutputs
  split
  · refine (State.modAct_view Act.result (fun _ => by rfl) a b _).trans ?_
    rw [State.sendActDrive_act]
  · exact State.raiseServo_view Act.result (fun _ _ => rfl) a 7 b s

theorem State.finishLoop_result (a : ActId) (t : ServoTable) (f : FormatTable) (isNew : Bool) (e v : Int) (b : ActId) (s : State) :
    ((s.finishLoop a t f isNew e v).act b).result = (s.act b).result := by
  unfold State.finishLoop
  extract_lets x out g sent n u
  have counted : ((sent.modAct a fun y => { y with entryCount := n.1, exitCount := n.2.1, shockExit := n.2.2 }).act b).result =
      (sent.act b).result := State.modAct_view Act.result (fun _ => by rfl) a b sent
  rw [State.noteRequest_act, State.wedgeReport_act, State.judge, State.permit_result, State.enterRegion_result, counted,
    State.sendOutputs_result, State.nextGate_act]

theorem Act.sample_of_result {x y : Act} (h : x.result = y.result) : x.sample = y.sample := congrArg Prod.fst h

/-- An evaluation uses up its sample and no other. -/
theorem State.evaluate_sample (a b : ActId) (s : State) : ((s.evaluate a).act b).sample = if b = a then none else (s.act b).sample := by
  have taken : ((s.takeSample a).act b).sample = if b = a then none else (s.act b).sample := by
    rw [State.takeSample_act]
    split <;> rfl
  have dropped : ((s.modAct a fun x => { x with sample := none }).act b).sample = if b = a then none else (s.act b).sample := by
    rw [State.modAct_act]
    split <;> rfl
  cases hw : (s.act a).sample with
  | none => rw [State.evaluate, hw]; exact dropped
  | some w =>
    cases ht : (s.pcal (portOf a)).servo with
    | none => rw [State.evaluate, hw, ht]; exact dropped
    | some t =>
      cases hf : (s.pcal (portOf a)).format with
      | none => rw [State.evaluate, hw, ht, hf]; exact dropped
      | some f =>
        rw [← taken]
        cases h : (s.act a).fresh with
        | true =>
          rw [State.evaluate_fresh hw ht hf h, State.noteRequest_act, State.wedgeReport_act, State.nextGate_act,
            Act.sample_of_result (State.enterRegion_result a t .seek b _)]
          exact State.modAct_view Act.sample (fun _ => by rfl) a b _
        | false =>
          rw [State.evaluate_loop hw ht hf h rfl rfl rfl, Act.sample_of_result (State.finishLoop_result a t f _ _ _ b _),
            State.runLoop_sample, ← State.takeTarget_sample a b (s.takeSample a)]
          exact State.modAct_view Act.sample (fun _ => by rfl) a b _

/-! ### The order of evaluation (R186) -/

theorem State.evaluateTo_done {a : ActId} {s : State} (h : (s.act a).sample = none) (n : Nat) : s.evaluateTo a n = s := by
  cases n with
  | zero => rfl
  | succ n => rw [State.evaluateTo, if_pos (by simp [h])]

theorem State.evaluateTo_first {a b : ActId} {w : Wedge} {s : State} (hw : (s.act a).sample = some w) (hb : s.firstWaiting = some b)
    (n : Nat) : s.evaluateTo a (n + 1) = (s.evaluate b).evaluateTo a n := by
  rw [State.evaluateTo, if_neg (by simp [hw]), hb]

theorem State.evaluateTo_idle {b : ActId} {s : State} (h : (s.act b).sample = none) (a : ActId) (n : Nat) :
    ((s.evaluateTo a n).act b).sample = none := by
  induction n generalizing s with
  | zero => exact h
  | succ n ih =>
    rw [State.evaluateTo]
    split
    · exact h
    · split
      next c hc => exact ih (by rw [State.evaluate_sample, h, ite_self])
      next => exact h

theorem compensatorEvaluation_uses {s : State} {a b : ActId} {w : Wedge} (hw : (s.act a).sample = some w)
    (hb : s.firstWaiting = some b) : Does (.compensatorEvaluation a) s fun t => (t.act b).sample = none := by
  refine ⟨_, congrArg Host.Outcome.next (State.evaluateTo_first hw hb 63), State.evaluateTo_idle ?_ a 63⟩
  rw [State.evaluate_sample, if_pos rfl]

section
variable {s : State} {a : ActId} {tb : ServoTable} {fm : FormatTable} {w : Wedge}

/-- Of the sample heard first the command runs the evaluation, and no other. -/
theorem compensatorEvaluation_first (hw : (s.act a).sample = some w) (ha : s.firstWaiting = some a) :
    exec (.compensatorEvaluation a) s = .next (s.evaluate a) := by
  have used : ((s.evaluate a).act a).sample = none := by rw [State.evaluate_sample, if_pos rfl]
  exact congrArg Host.Outcome.next ((State.evaluateTo_first hw ha 63).trans (State.evaluateTo_done used 63))

theorem compensatorEvaluation_fresh (ht : (s.pcal (portOf a)).servo = some tb) (hf : (s.pcal (portOf a)).format = some fm)
    (hw : (s.act a).sample = some w) (ha : s.firstWaiting = some a) (h : (s.act a).fresh = true) (hr : (s.act a).region = .parked) :
    Does (.compensatorEvaluation a) s fun t =>
      (t.act a).region = .seek ∧ (t.act a).fresh = false ∧ (t.act a).sample = none ∧ (t.act a).regionAt = s.now := by
  refine ⟨_, (compensatorEvaluation_first hw ha).trans (congrArg Host.Outcome.next (State.evaluate_fresh hw ht hf h)), ?_⟩
  simp [State.enterRegion_seek, State.takeSample, Act.changed, hr]

theorem compensatorEvaluation_follow (ht : (s.pcal (portOf a)).servo = some tb) (hf : (s.pcal (portOf a)).format = some fm)
    (hw : (s.act a).sample = some w) (ha : s.firstWaiting = some a) (h : (s.act a).fresh = false) (hr : (s.act a).region = .follow)
    (hn : (s.act a).newTarget = none) {e : Int} (he : errorOf (s.act a).target w.pos = e) : Does (.compensatorEvaluation a) s fun t =>
      (t.act a).ma.y = ((tb.pair (sideOf a) .follow).2.eval (s.act a).ma (clamp (-32767) 32767 e)).y ∧
      (t.act a).ma.sat = ((tb.pair (sideOf a) .follow).2.eval (s.act a).ma (clamp (-32767) 32767 e)).sat ∧
      (t.act a).pes = clamp (-32767) 32767 e ∧ (t.act a).sample = none ∧
      (t.act a).vcm.y = ((tb.pair (sideOf a) .follow).1.eval (s.act a).vcm
        (sat16 (clamp (-32767) 32767 e + roundHalfUp (tb.maGain * (s.act a).sent.2) (2 ^ 30)))).y := by
  have taken : (s.takeSample a).act a = { s.act a with sample := none, profile1 := s.slowSeek } := by rw [State.takeSample_act, if_pos rfl]
  have target : (s.takeSample a).takeTarget a = (s.takeSample a, false) := State.takeTarget_none (by rw [taken]; exact hn)
  have error : errorOf ((s.takeSample a).act a).target w.pos = e := by rw [taken]; exact he
  have noted : ((s.takeSample a).noteError a tb false e (s.act a).vel).act a =
      { s.act a with sample := none, profile1 := s.slowSeek, pes := clamp (-32767) 32767 e } := by
    rw [State.noteError, State.modAct_act, if_pos rfl, taken]
    rfl
  have run := (compensatorEvaluation_first hw ha).trans
    (congrArg Host.Outcome.next (State.evaluate_loop hw ht hf h target error (congrArg Act.vel taken)))
  obtain ⟨ma, vcm, pes, sample⟩ := State.runLoop_follow (s := (s.takeSample a).noteError a tb false e (s.act a).vel)
    ((congrArg Act.region noted).trans hr) tb e (s.act a).vel
  rw [noted] at ma vcm pes sample
  have result := State.finishLoop_result a tb fm false e (s.act a).vel a
    (((s.takeSample a).noteError a tb false e (s.act a).vel).runLoop a tb e (s.act a).vel)
  simp only [Act.result, ma, vcm, pes, sample, Prod.mk.injEq] at result
  obtain ⟨sample, pes, ⟨vcmY, -⟩, maY, maSat⟩ := result
  exact ⟨_, run, maY, maSat, pes, sample, vcmY⟩

end

/-! ## NEW_TARGET, SEEK_TIMEOUT and SETTLE_TIMEOUT (R198, R201) -/

theorem newTarget_waits (s : State) (a : ActId) (head : Fin 12) (track : BitVec 20) : Does (.newTarget a head track) s fun t =>
    (t.act a).newTarget = some (head, s.targetOf a head track.toNat) ∧ (t.act a).region = (s.act a).region ∧
    (∀ b, b ≠ a → t.act b = s.act b) ∧ t.ports = s.ports ∧ t.seqs = s.seqs := by
  refine ⟨_, rfl, ?_⟩
  simp +contextual

theorem State.timedOut_now (a : ActId) (t : ServoTable) (n : Nat) (s : State) : (s.timedOut a t n).now = s.now :=
  (State.timedOut_moves a t n s).only .now (by decide)

/-- A new seek from the present position, one more timeout counted. -/
def State.seekAgain (a : ActId) (t : ServoTable) (s : State) : State :=
  (s.enterRegion a t .seek).modAct a fun y => { y with timeouts := (s.act a).timeouts + 1, regionAt := s.now, vRef := 0 }

theorem State.seekAgain_act (a : ActId) (t : ServoTable) (s : State) : ((s.seekAgain a t).act a).region = .seek ∧
    ((s.seekAgain a t).act a).timeouts = (s.act a).timeouts + 1 ∧ ((s.seekAgain a t).act a).events = (s.act a).events ∧
    ((s.seekAgain a t).act a).target = (s.act a).target := by
  rw [State.seekAgain, State.enterRegion_seek]
  split
  next same => simp [same]
  next => simp [Act.changed]

/-- The first and the second timeout on one target seek it again, without permissions. -/
theorem State.timedOut_seekAgain {s : State} {a : ActId} (h : (s.act a).timeouts < 2) (t : ServoTable) (n : Nat) :
    s.timedOut a t n = ((s.raiseServo a n).seekAgain a t).permit a false false :=
  if_neg (by simpa using h)

theorem State.timedOut_seeks {s : State} {a : ActId} (h : (s.act a).timeouts < 2) (t : ServoTable) {n : Nat} (hn : n < 8) :
    ((s.timedOut a t n).act a).region = .seek ∧ ((s.timedOut a t n).act a).timeouts = (s.act a).timeouts + 1 ∧
      ((s.timedOut a t n).act a).events.getLsbD n = true ∧ ((s.timedOut a t n).act a).writeAllowed = false ∧
      ((s.timedOut a t n).act a).target = (s.act a).target := by
  have raised : (s.raiseServo a n).act a = { s.act a with events := setBit (s.act a).events n } := by simp
  obtain ⟨region, timeouts, events, target⟩ := (s.raiseServo a n).seekAgain_act a t
  rw [raised] at timeouts events target
  rw [State.timedOut_seekAgain h]
  have kept := State.permit_unpermitted a false false a ((s.raiseServo a n).seekAgain a t)
  exact ⟨(congrArg Act.region kept :).trans region, (congrArg Act.timeouts kept :).trans timeouts,
    State.permit_event a false false _ (by rw [events]; exact setBit_get _ _ hn), State.permit_writeAllowed a false false _,
    (congrArg Act.target kept :).trans target⟩

@[simp] theorem State.unload_act (a : ActId) (s : State) : (s.unload a).act a = { s.act a with
    region := .parked, writeAllowed := false, readAllowed := false, loaded := (s.act a).loaded || (s.act a).loading, loading := false
    newTarget := none, fresh := false, sample := none, reloadLost := false, reloadSeek := false } := by
  simp [State.unload]

/-- The third timeout on one target unloads the side, to load and seek the target again. -/
theorem State.timedOut_unloads {s : State} {a : ActId} (h : (s.act a).timeouts = 2) (t : ServoTable) (n : Nat) :
    ((s.timedOut a t n).act a).region = .parked ∧ ((s.timedOut a t n).act a).reloadSeek = true ∧
      ((s.timedOut a t n).act a).timeouts = 0 ∧
      ((s.timedOut a t n).act a).newTarget = some ((s.act a).newTarget.getD ((s.act a).head, (s.act a).target)) := by
  simp [State.timedOut, h]

section
variable {s : State} {a : ActId} {tb : ServoTable}

theorem seekTimeout_seeking (ht : (s.pcal (portOf a)).servo = some tb) (h : (s.act a).region = .seek) : exec (.seekTimeout a) s =
    .next ((s.at_ ((s.act a).regionAt + (s.profile tb).seekMs * Config.ms)).timedOut a tb 3) := by
  show execSeekTimeout a s = _
  rw [execSeekTimeout, ht]
  exact congrArg Host.Outcome.next (if_pos h)

theorem settleTimeout_settling (ht : (s.pcal (portOf a)).servo = some tb) (h : (s.act a).region = .settle) :
    exec (.settleTimeout a) s =
      .next ((s.at_ ((s.act a).regionAt + (s.profile tb).settleMs * Config.ms)).timedOut a tb 4) := by
  show execSettleTimeout a s = _
  rw [execSettleTimeout, ht]
  exact congrArg Host.Outcome.next (if_pos h)

theorem seekTimeout_first (ht : (s.pcal (portOf a)).servo = some tb) (h : (s.act a).region = .seek) (hn : (s.act a).timeouts = 0) :
    Does (.seekTimeout a) s fun t => (t.act a).region = .seek ∧ (t.act a).timeouts = 1 ∧ (t.act a).events.getLsbD 3 = true ∧
      (t.act a).writeAllowed = false ∧ (s.act a).regionAt + (s.profile tb).seekMs * Config.ms ≤ t.now := by
  obtain ⟨region, timeouts, events, write, -⟩ :=
    State.timedOut_seeks (s := s.at_ ((s.act a).regionAt + (s.profile tb).seekMs * Config.ms)) (a := a) (by simp [hn]) tb
      (n := 3) (by decide)
  refine ⟨_, seekTimeout_seeking ht h, region, by rw [timeouts]; simp [hn], events, write, ?_⟩
  rw [State.timedOut_now]
  exact Nat.le_max_right _ _

theorem seekTimeout_third (ht : (s.pcal (portOf a)).servo = some tb) (h : (s.act a).region = .seek) (hn : (s.act a).timeouts = 2) :
    Does (.seekTimeout a) s fun t => (t.act a).region = .parked ∧ (t.act a).reloadSeek = true ∧ (t.act a).timeouts = 0 ∧
      (t.act a).newTarget = some ((s.act a).newTarget.getD ((s.act a).head, (s.act a).target)) :=
  ⟨_, seekTimeout_seeking ht h,
    State.timedOut_unloads (s := s.at_ ((s.act a).regionAt + (s.profile tb).seekMs * Config.ms)) (by simpa using hn) tb 3⟩

theorem settleTimeout_second (ht : (s.pcal (portOf a)).servo = some tb) (h : (s.act a).region = .settle)
    (hn : (s.act a).timeouts = 1) : Does (.settleTimeout a) s fun t => (t.act a).region = .seek ∧ (t.act a).timeouts = 2 ∧
      (t.act a).events.getLsbD 4 = true ∧ (t.act a).target = (s.act a).target ∧
      (s.act a).regionAt + (s.profile tb).settleMs * Config.ms ≤ t.now := by
  obtain ⟨region, timeouts, events, -, target⟩ :=
    State.timedOut_seeks (s := s.at_ ((s.act a).regionAt + (s.profile tb).settleMs * Config.ms)) (a := a) (by simp [hn]) tb
      (n := 4) (by decide)
  refine ⟨_, settleTimeout_settling ht h, region, by rw [timeouts]; simp [hn], events, target, ?_⟩
  rw [State.timedOut_now]
  exact Nat.le_max_right _ _

end

/-! ## ACT_PARK_RESPONSE, ACT_PARK_RETRY and SERVO_RELOAD (R207, R730; spec/03 R93) -/

/-- Loading changes no actuator but the one to be loaded, and of it only that it loads. -/
theorem State.load_act (a b : ActId) (s : State) :
    (s.load a).act b = s.act b ∨ b = a ∧ (s.load a).act b = { s.act a with loading := true } := by
  unfold State.load
  extract_lets x
  split
  · exact .inl rfl
  · rw [State.modAct_act]
    split
    next e => exact .inr ⟨e, by rw [State.sendPark_act]⟩
    next => exact .inl (by rw [State.sendPark_act])

theorem State.unloaded_act (a : ActId) (s : State) : ((s.unloaded a).act a).loaded = false ∧ ((s.unloaded a).act a).region = .parked := by
  unfold State.unloaded
  extract_lets p again u v
  have parked : (u.act a).loaded = false ∧ (u.act a).region = .parked := by simp [u]
  have loads : (v.act a).loaded = false ∧ (v.act a).region = .parked := by
    simp only [v, State.when]
    split
    · obtain same | ⟨-, loading⟩ := u.load_act a a
      · rw [same]; exact parked
      · rw [loading]; exact parked
    · exact parked
  split
  · exact loads
  · rw [State.allUnloaded_act]
    exact loads

theorem State.loadFailed_act (a : ActId) (s : State) :
    (s.loadFailed a).act a = { s.act a with loading := false, outOfService := true } := by
  simp [State.loadFailed]

/-- Of a port whose companion obeys no longer, only leaving service and the mark of it touch the link side. -/
theorem State.dropPort_port (p q : PortId) (s : State) :
    (s.dropPort p).port q = (((s.leaveService p false).modPort p fun x => { x with obeyed := false }).port q) := by
  unfold State.dropPort
  extract_lets u v w x y
  have units : w.port q = v.port q := State.each_keeps (fun t : State => t.port q) (fun _ _ => by rfl) (fins 2) v
  have cals : x.port q = w.port q := State.each_keeps (fun t : State => t.port q) (fun _ _ => by rfl) (fins 2) w
  have captures : y.port q = x.port q := by
    simp only [y, State.when]
    split
    · exact State.port_of_ports ((State.keepCaptures_moves _ _).only .ports (by decide)) q
    · rfl
  rw [State.port_of_ports ((State.settleUnloads_moves _ _).only .ports (by decide)),
    State.port_of_ports ((State.freeSlot_moves _ _).only .ports (by decide)), State.modSpin_port, captures, cals, units]

theorem State.obedienceLost_port (p : PortId) (s : State) :
    ((s.obedienceLost p).port p).obeyed = false ∧ ((s.obedienceLost p).port p).events.getLsbD 2 = true := by
  rw [State.obedienceLost, State.raisePort_port, if_pos rfl]
  refine ⟨?_, setBit_get _ _ (by decide)⟩
  rw [State.dropPort_port, State.modPort_port, if_pos rfl]

section
variable {s : State} {p : PortId} {r : Request} {k : Packet}

theorem actParkResponse_unload (hk : Answered s p 0x13 r k) (hd : field r.packet.payload 0 1 = 0) (ha : field r.packet.payload 1 1 = 0) :
    exec (.actParkResponse p) s = .next (if k.status = 0 then (s.hear p r).unloaded (actOf p 0)
      else if k.status = 3 then (s.hear p r).refusedFenced p else s.hear p r) := by
  refine congrArg Host.Outcome.next ((State.takeAnswer_of hk _).trans ?_)
  simp only [hd, ha]
  rfl

theorem actParkResponse_load (hk : Answered s p 0x13 r k) (hd : field r.packet.payload 0 1 = 0) (ha : field r.packet.payload 1 1 = 1)
    (hb : k.status ≠ 4) : exec (.actParkResponse p) s = .next (
      if k.status = 0 then (s.hear p r).when ((s.hear p r).act (actOf p 0)).loading (State.modAct (actOf p 0) Act.afterLoad)
      else if k.status = 3 then ((s.hear p r).modAct (actOf p 0) fun x => { x with loading := false }).refusedFenced p
      else (s.hear p r).loadFailed (actOf p 0)) := by
  refine congrArg Host.Outcome.next ((State.takeAnswer_of hk _).trans ?_)
  simp only [hd, ha, hb]
  rfl

theorem actParkResponse_parks (hk : Answered s p 0x13 r k) (hd : field r.packet.payload 0 1 = 0) (ha : field r.packet.payload 1 1 = 0)
    (hs : k.status = 0) :
    Does (.actParkResponse p) s fun t => (t.act (actOf p 0)).loaded = false ∧ (t.act (actOf p 0)).region = .parked :=
  ⟨_, (actParkResponse_unload hk hd ha).trans (congrArg Host.Outcome.next (if_pos hs)), (s.hear p r).unloaded_act (actOf p 0)⟩

theorem actParkResponse_loads (hk : Answered s p 0x13 r k) (hd : field r.packet.payload 0 1 = 0) (ha : field r.packet.payload 1 1 = 1)
    (hs : k.status = 0) (hl : (s.act (actOf p 0)).loading = true) : Does (.actParkResponse p) s fun t =>
      t.act (actOf p 0) = (s.act (actOf p 0)).afterLoad ∧ ∀ b, b ≠ actOf p 0 → t.act b = s.act b := by
  refine ⟨_, (actParkResponse_load hk hd ha (by simp [hs])).trans (congrArg Host.Outcome.next ((if_pos hs).trans (if_pos hl))), ?_⟩
  simp +contextual

theorem actParkResponse_loadFails (hk : Answered s p 0x13 r k) (hd : field r.packet.payload 0 1 = 0) (ha : field r.packet.payload 1 1 = 1)
    (hs : k.status = 1) :
    Does (.actParkResponse p) s fun t => (t.act (actOf p 0)).outOfService = true ∧ (t.act (actOf p 0)).loading = false := by
  refine ⟨_, (actParkResponse_load hk hd ha (by simp [hs])).trans
    (congrArg Host.Outcome.next ((if_neg (by simp [hs])).trans (if_neg (by simp [hs])))), ?_⟩
  dsimp only
  rw [State.loadFailed_act]
  exact ⟨rfl, rfl⟩

theorem actParkResponse_fenced (hk : Answered s p 0x13 r k) (hd : field r.packet.payload 0 1 = 0) (ha : field r.packet.payload 1 1 = 1)
    (hs : k.status = 3) (ho : (s.port p).obeyed = true) :
    Does (.actParkResponse p) s fun t => (t.port p).obeyed = false ∧ (t.port p).events.getLsbD 2 = true := by
  refine ⟨_, (actParkResponse_load hk hd ha (by simp [hs])).trans
    (congrArg Host.Outcome.next ((if_neg (by simp [hs])).trans ((if_pos hs).trans (if_pos ?_)))), State.obedienceLost_port p _⟩
  simpa using ho

end

theorem actParkRetry_resends {s : State} {p : PortId} {sd : Side} {r : Request} {n : Nat}
    (h : ((s.port p).requests.find? fun q => q.packet.opcode.toNat == 0x13 && q.busyAt.isSome && field q.packet.payload 0 1 == sd.val) =
      some r) (hb : r.busyAt = some n) : Does (.actParkRetry p sd) s fun t => n + Config.ms ≤ t.now ∧
      (t.port p).normal.map Prod.snd = (s.port p).normal.map Prod.snd ++ [r.packet] := by
  refine ⟨_, congrArg Host.Outcome.next (State.busyRetry_of h), ?_, ?_⟩
  · rw [hb]
    exact Nat.le_max_right _ _
  · simp [State.resend]

/-- A side in service that is not loaded loads, if it does not load already. -/
theorem State.load_loads {s : State} {a : ActId} (hl : (s.act a).loaded = false) (ho : (s.act a).outOfService = false) :
    (s.load a).act a = { s.act a with loading := true } := by
  cases h : (s.act a).loading with
  | true =>
    have still : s.load a = s := by simp [State.load, h]
    rw [still, ← h]
  | false => simp [State.load, h, hl, ho]

theorem servoReload_loads {s : State} {a : ActId} (hr : (s.act a).reloadLost = true) (hl : (s.act a).loaded = false)
    (ho : (s.act a).outOfService = false) (hm : s.mayLoad (portOf a) = true) : Does (.servoReload a) s fun t =>
      (t.act a).loading = true ∧ (t.act a).reloadLost = false ∧ ∀ b, b ≠ a → t.act b = s.act b := by
  have run : exec (.servoReload a) s = .next ((s.modAct a fun y => { y with reloadLost := false }).load a) :=
    congrArg Host.Outcome.next ((if_pos ⟨hr, by simp [hl]⟩).trans (if_pos hm))
  refine ⟨_, run, ?_⟩
  dsimp only
  rw [State.load_loads (by simpa using hl) (by simpa using ho)]
  refine ⟨rfl, by simp, fun b hb => ?_⟩
  obtain same | ⟨e, -⟩ := (s.modAct a fun y => { y with reloadLost := false }).load_act a b
  · rw [same, State.modAct_act, if_neg hb]
  · exact absurd e hb

/-! ## LINE_BLOCK_RECEIVED (spec/03 R93 to R98; spec/14 R528) -/

theorem State.blockDropped_port (p q : PortId) (s : State) : (s.blockDropped p).port q = if q = p then { s.port p with
    seqErr := sat32 (s.port p).seqErr 1, rxPos := (s.port p).nextPos
    scram := if (s.port p).rxPos = some 0 then prbsOnes else prbsSkip 256 (s.port p).scram } else s.port q := by
  rw [State.blockDropped, State.modPort_port, State.seqError, State.modPort_port, if_pos rfl, State.modPort_port]
  split
  · rfl
  · rfl

theorem State.blockDropped_now (p : PortId) (s : State) : (s.blockDropped p).now = s.now := rfl

/-- The scrambler has run over a block's payload (spec/03 R94). -/
def State.descrambled (p : PortId) (g : BitVec 31) (s : State) : State := s.modPort p fun x => { x with scram := g, rxPos := x.nextPos }

/-- Packets join those received; each that is damaged counts as a sequence error, and so does a gap before their block. -/
def State.takePackets (p : PortId) (r : Bool × Bool × Stream) (l : List Packet × Nat) (s : State) : State :=
  (s.modPort p fun x => { x with packets := r.2.2, rx := x.rx ++ l.1, seqErr := sat32 x.seqErr l.2 }).when r.1 (State.seqError p)

theorem State.takePackets_keeps (p : PortId) (r : Bool × Bool × Stream) (l : List Packet × Nat) (s : State) :
    ((s.takePackets p r l).port p).rx = (s.port p).rx ++ l.1 ∧ ((s.takePackets p r l).port p).scram = (s.port p).scram ∧
      ((s.takePackets p r l).port p).smpUncorr = (s.port p).smpUncorr ∧ (s.takePackets p r l).acts = s.acts ∧
      ∀ q, q ≠ p → (s.takePackets p r l).port q = s.port q := by
  unfold State.takePackets State.when
  split
  · simp +contextual [State.seqError]
  · simp +contextual

/-- Fewer than four bad blocks within 1 s on either lane leave the port as it is. -/
theorem State.lanesBad_few {s : State} {p : PortId} (hs : (recent s.now Config.sec (s.port p).smpBadAt).length < 4)
    (hc : (recent s.now Config.sec (s.port p).cmdBadAt).length < 4) : s.lanesBad p = s :=
  if_neg (by omega)

section
variable {s : State} {p : PortId} {bytes : List Byte} {demod : ServoReading}

theorem lineBlockReceived_full (hl : s.laneLive p = true) (ho : s.overdue p = s) :
    Does (.lineBlockReceived p bytes ⟨demod, true⟩) s fun t => (t.port p).seqErr = sat32 (s.port p).seqErr 1 ∧
      (t.port p).smpUncorr = (s.port p).smpUncorr ∧ (t.port p).rx = (s.port p).rx ∧ (t.port p).train = (s.port p).train ∧
      t.acts = s.acts ∧ ∀ q, q ≠ p → t.port q = s.port q := by
  have run : exec (.lineBlockReceived p bytes ⟨demod, true⟩) s = .next (s.blockDropped p) := by
    refine congrArg Host.Outcome.next ((if_pos ⟨hl, rfl⟩).trans ?_)
    rw [ho]
  refine ⟨_, run, ?_⟩
  dsimp only
  rw [State.blockDropped_port, if_pos rfl]
  exact ⟨rfl, rfl, rfl, rfl, rfl, fun q hq => by rw [State.blockDropped_port, if_neg hq]⟩

/-- A block that the FIFO takes, and that ends no gate. -/
theorem lineBlockReceived_quiet (hl : s.laneLive p = true) (ho : s.overdue p = s) {t : State}
    (h : s.receiveBlock p bytes = (t, .nothing)) : exec (.lineBlockReceived p bytes ⟨demod, false⟩) s = .next t := by
  refine congrArg Host.Outcome.next ((if_neg (by simp)).trans ((if_pos hl).trans ?_))
  rw [ho, h]

theorem lineBlockReceived_uncorrectable (hl : s.laneLive p = true) (ho : s.overdue p = s)
    (hd : fecDecode (laneBytes (laneLevels bytes)) = none) (hs : recent s.now Config.sec (s.port p).smpBadAt = [])
    (hc : recent s.now Config.sec (s.port p).cmdBadAt = []) : Does (.lineBlockReceived p bytes ⟨demod, false⟩) s fun t =>
      (t.port p).smpUncorr = sat32 (s.port p).smpUncorr 1 ∧ (t.port p).seqErr = sat32 (s.port p).seqErr 1 ∧
      (t.port p).train = (s.port p).train ∧ t.acts = s.acts := by
  have lost : s.blockLost p = (s.blockDropped p).modPort p fun x => { x with
      smpUncorr := sat32 x.smpUncorr 1, smpBadAt := s.now :: recent s.now Config.sec x.smpBadAt } := by
    apply State.lanesBad_few
    all_goals simp only [State.modPort_port, if_true, State.modPort_now, State.blockDropped_now, State.blockDropped_port, hs, hc]
    · exact Nat.lt_of_le_of_lt (List.length_filter_le _ _) (by decide : 1 < 4)
    · exact (by decide : 0 < 4)
  have run : exec (.lineBlockReceived p bytes ⟨demod, false⟩) s = .next (s.blockLost p) :=
    lineBlockReceived_quiet hl ho (by rw [State.receiveBlock, hd])
  refine ⟨_, run, ?_⟩
  dsimp only
  rw [lost, State.modPort_port, if_pos rfl, State.blockDropped_port, if_pos rfl]
  exact ⟨rfl, rfl, rfl, rfl⟩

/-- A packet block without errors brings its packets. -/
theorem State.receiveBlock_packets {raw : List Byte} (hd : fecDecode (laneBytes (laneLevels bytes)) = some (raw, 0))
    (hm : field raw 0 4 ≠ 0xF0000000) {q : List Byte × BitVec 31} (hq : scramble (s.port p).scram raw = q)
    (ht : field q.1 0 4 / 2 ^ 28 = 3) : s.receiveBlock p bytes = ((s.descrambled p q.2).takePackets p
      (((s.descrambled p q.2).port p).packets.take true true (BitVec.ofNat 13 (field q.1 0 4 % 8192)))
      (parsePackets 64 ((q.1.drop 4).take (min 252 (field q.1 0 4 / 2 ^ 13 % 2 ^ 12)))), .nothing) := by
  subst hq
  have filled : ¬ field (scramble (s.port p).scram raw).1 0 4 / 2 ^ 28 = 0 := by rw [ht]; decide
  unfold State.receiveBlock
  rw [hd]
  exact (if_neg fun h => hm h.1).trans ((if_neg filled).trans (if_pos ht))

theorem lineBlockReceived_packets {raw : List Byte} (hl : s.laneLive p = true) (ho : s.overdue p = s)
    (hd : fecDecode (laneBytes (laneLevels bytes)) = some (raw, 0)) (hm : field raw 0 4 ≠ 0xF0000000)
    (ht : field (scramble (s.port p).scram raw).1 0 4 / 2 ^ 28 = 3) : Does (.lineBlockReceived p bytes ⟨demod, false⟩) s fun t =>
      (t.port p).rx = (s.port p).rx ++ (parsePackets 64 (((scramble (s.port p).scram raw).1.drop 4).take
        (min 252 (field (scramble (s.port p).scram raw).1 0 4 / 2 ^ 13 % 2 ^ 12)))).1 ∧
      (t.port p).scram = (scramble (s.port p).scram raw).2 ∧ (t.port p).smpUncorr = (s.port p).smpUncorr ∧ t.acts = s.acts ∧
      ∀ q, q ≠ p → t.port q = s.port q := by
  refine ⟨_, lineBlockReceived_quiet hl ho (State.receiveBlock_packets hd hm rfl ht), ?_⟩
  generalize scramble (s.port p).scram raw = q
  obtain ⟨rx, scram, uncorr, acts, others⟩ := State.takePackets_keeps p
    (((s.descrambled p q.2).port p).packets.take true true (BitVec.ofNat 13 (field q.1 0 4 % 8192)))
    (parsePackets 64 ((q.1.drop 4).take (min 252 (field q.1 0 4 / 2 ^ 13 % 2 ^ 12)))) (s.descrambled p q.2)
  have payload : (s.descrambled p q.2).port p = { s.port p with scram := q.2, rxPos := (s.port p).nextPos } := by
    simp [State.descrambled]
  refine ⟨by rw [rx, payload], by rw [scram, payload], by rw [uncorr, payload], acts, fun i hi => ?_⟩
  rw [others i hi, State.descrambled, State.modPort_port, if_neg hi]

end

/-- Settles O41: each clause is the lemma of its command above. -/
theorem servoCommands : Obligations.ServoCommands :=
  ⟨fun _ _ _ _ _ ht hf hw ha h hr => compensatorEvaluation_fresh ht hf hw ha h hr,
    fun _ _ _ _ _ ht hf hw ha h hr hn => compensatorEvaluation_follow ht hf hw ha h hr hn rfl,
    fun _ _ _ _ hw hb => compensatorEvaluation_uses hw hb, fun s a head track => newTarget_waits s a head track,
    fun _ _ _ ht h hn => seekTimeout_first ht h hn, fun _ _ _ ht h hn => seekTimeout_third ht h hn,
    fun _ _ _ ht h hn => settleTimeout_second ht h hn, fun _ _ _ _ hk hd ha hs => actParkResponse_parks hk hd ha hs,
    fun _ _ _ _ hk hd ha hs hl => actParkResponse_loads hk hd ha hs hl,
    fun _ _ _ _ hk hd ha hs => actParkResponse_loadFails hk hd ha hs, fun _ _ _ _ _ h hb => actParkRetry_resends h hb,
    fun _ _ hr hl ho hm => servoReload_loads hr hl ho hm,
    fun _ _ _ _ _ hl ho hd hm ht => lineBlockReceived_packets hl ho hd hm ht,
    fun _ _ _ _ hl ho hd hs hc => lineBlockReceived_uncorrectable hl ho hd hs hc,
    fun _ _ _ _ hl ho => lineBlockReceived_full hl ho,
    fun _ _ _ _ hk hd ha hs ho => actParkResponse_fenced hk hd ha hs ho⟩

end Sys2Proof.Machine
end

section
/-! SUPPORT. The restart of a sequencer at bring-up whose loaded bank leads the idle point out of the control store (spec/06 R223, R232, R241):
the fault that follows can be the actuator's second within 60 s. -/

namespace Sys2Proof.Machine

/-- A full calibration of port 0, asked to suspend at its next suspend point. -/
def fullCalibration : LongOp :=
  { handle := 1, kind := 5, st := .running, done := 0, total := 0, origin := 3, started := 0, result := 0, p0 := 1, p1 := 0, p2 := 0, p3 := 0
    cursor := 0, from_ := 0, kept := 0, suspendAsked := true, cancelAsked := false, byPs3 := false, slot := false, prefer := false, image := [] }

/-- A break of that calibration. -/
def fullBreak : Break :=
  let zero : Five := { laser := 0, sto := 0, write := 0, reader0 := 0, reader1 := 0 }
  { head := 0, zone := 0, tb := 0, pass := 1, at_ := 0, reqAt := 0, kind := .full, base := zero, chosen := zero, failed := false
    unwritten := [], begun := false }

/-- A released device in bring-up. The image in the patch store has its magic and nothing more, the bank in force redirects the idle point to
a word that is not loaded, and actuator 0, whose sequencer has just faulted, is in a break of the full calibration. -/
def State.redirectedStart : State :=
  { State.reset with
    boot := { Boot.reset with released := true }
    nor := { Nor.reset with patchStore := [0x49, 0x5A, 0x4D, 0x50], config := { ConfigStore.reset with ops := [fullCalibration] } }
    patch := { Patch.reset with bank0 := { micro := [], nano := [], matches_ := [(0, 16384)] } }
    seqs := upd State.reset.seqs 0 fun q => { q with faultAt := some 0 }
    actCals := upd State.reset.actCals 0 fun x => { x with brk := some fullBreak } }

/-- The fault takes the actuator out of service, and the break that ends with it reaches the calibration's suspend point: the list of long
operations in SPI NOR changes. -/
theorem bootPatchLoad_redirectedStart :
    Does .bootPatchLoad State.redirectedStart fun t => t.nor.config.ops.map LongOp.st = [.suspended] :=
  ⟨_, rfl, by decide +kernel⟩

/-- Refutes O15: its last clause, on BOOT_PATCH_LOAD with an image in the store, holds SPI NOR as it was in every state. Only two of its
conclusions ask that no match of the bank redirect 0x0000, and the ones on SPI NOR and the names are not among them. In the state here the
redirected start is fault 0x01, the actuator's second within 60 s (R241), and the full calibration whose break it ends is suspended, which
SPI NOR keeps. -/
theorem not_patchCommands : ¬ Obligations.PatchCommands := by
  intro h
  obtain ⟨_, _, _, _, _, _, _, _, stored⟩ := h
  obtain ⟨t, run, -, -, nor, -⟩ := stored State.redirectedStart rfl rfl (by decide +kernel) (by decide +kernel) (by decide +kernel)
  obtain ⟨u, run', suspended⟩ := bootPatchLoad_redirectedStart
  cases Host.Outcome.next.inj (run.symm.trans run')
  rw [nor] at suspended
  exact absurd suspended (by decide)

end Sys2Proof.Machine
end

section
/-! SUPPORT. The format sequencers (spec/06 R217 to R223, R230, R241): what the operations that the sequencer commands share leave of a
sequencer and of its write encoder. -/

namespace Sys2Proof.Machine

/-! ## A sequencer after the shared operations -/

theorem State.Moves.seq {l : List Part} {s t : State} (m : s.Moves l t) (h : Part.seqs ∉ l) (b : ActId) : t.seq b = s.seq b := by
  have seqs : t.seqs = s.seqs := m.only .seqs h
  rw [State.seq, seqs, State.seq]

theorem State.Moves.pool {l : List Part} {s t : State} (m : s.Moves l t) (h : Part.chorus ∉ l) (b : ActId) : t.pool b = s.pool b := by
  have chorus : t.chorus = s.chorus := m.only .chorus h
  rw [State.pool, chorus, State.pool]

@[simp] theorem State.raisePort_seq (p : PortId) (n : Nat) (b : ActId) (s : State) : (s.raisePort p n).seq b = s.seq b :=
  (State.raisePort_moves p n s).seq (by decide) b

@[simp] theorem State.raisePort_pool (p : PortId) (n : Nat) (b : ActId) (s : State) : (s.raisePort p n).pool b = s.pool b :=
  (State.raisePort_moves p n s).pool (by decide) b

@[simp] theorem State.raiseSeq_pool (a : ActId) (n : Nat) (b : ActId) (s : State) : (s.raiseSeq a n).pool b = s.pool b :=
  (State.raiseSeq_moves a n s).pool (by decide) b

@[simp] theorem State.raiseSeq_port (a : ActId) (n : Nat) (q : PortId) (s : State) : (s.raiseSeq a n).port q = s.port q :=
  State.port_of_ports ((State.raiseSeq_moves a n s).only .ports (by decide)) q

@[simp] theorem State.noteRequest_seq (a b : ActId) (s : State) : (s.noteRequest a).seq b = s.seq b :=
  (State.noteRequest_moves a s).seq (by decide) b

@[simp] theorem State.idleEncoder_seq (a b : ActId) (s : State) : (s.idleEncoder a).seq b = s.seq b :=
  (State.idleEncoder_moves a s).seq (by decide) b

@[simp] theorem State.endSession_seq (a b : ActId) (s : State) : (s.endSession a).seq b = s.seq b :=
  (State.endSession_moves a s).seq (by decide) b

@[simp] theorem State.giveUp_seq (a b : ActId) (s : State) : (s.giveUp a).seq b = s.seq b :=
  (State.giveUp_moves a s).seq (by decide) b

@[simp] theorem State.peerReport_seq (a b : ActId) (d : Descriptor) (ok : Bool) (s : State) : (s.peerReport a d ok).seq b = s.seq b :=
  (State.peerReport_moves a d ok s).seq (by decide) b

@[simp] theorem State.failOp_seq (a b : ActId) (s : State) : (s.failOp a).seq b = s.seq b :=
  (State.failOp_moves a s).seq (by decide) b

@[simp] theorem State.handNext_seq (p : PortId) (b : ActId) (s : State) : (s.handNext p).seq b = s.seq b :=
  (State.handNext_moves p s).seq (by decide) b

theorem State.when_seq {f : State → State} (hf : ∀ s a, (f s).seq a = s.seq a) (c : Bool) (a : ActId) (s : State) :
    (s.when c f).seq a = s.seq a := by
  unfold State.when
  split
  · exact hf s a
  · rfl

theorem State.modSeq_view {β : Type} (v : Seq → β) {f : Seq → Seq} (hf : ∀ x, v (f x) = v x) (a b : ActId) (s : State) :
    v ((s.modSeq a f).seq b) = v (s.seq b) := by
  rw [State.modSeq_seq]
  split
  next e => rw [e, hf]
  next => rfl

/-- What a fault and the steps of a microprogram set of a sequencer: its state, its fault and their count, its operation, its address and
its return addresses. -/
structure Course where
  st : SeqSt
  fault : Byte
  faults : Nat
  op : Option Descriptor
  addr : BitVec 15
  stack : List (BitVec 15)

def Seq.course (x : Seq) : Course := ⟨x.st, x.fault, x.faults, x.op, x.addr, x.stack⟩

theorem State.cancelGates_course (a : ActId) (r w : Bool) (b : ActId) (s : State) :
    ((s.cancelGates a r w).seq b).course = (s.seq b).course ∧ ((s.cancelGates a r w).seq b).bank = (s.seq b).bank := by
  unfold State.cancelGates
  extract_lets hit t
  rw [State.when_seq (f := State.dropBits a) fun _ _ => rfl]
  exact ⟨State.modSeq_view Seq.course (fun _ => by rfl) a b _, State.modSeq_view Seq.bank (fun _ => by rfl) a b _⟩

theorem State.raiseSeq_course (a : ActId) (n : Nat) (b : ActId) (s : State) :
    ((s.raiseSeq a n).seq b).course = (s.seq b).course ∧ ((s.raiseSeq a n).seq b).bank = (s.seq b).bank := by
  rw [State.raiseSeq_seq]
  split
  next e => rw [e]; exact ⟨rfl, rfl⟩
  next => exact ⟨rfl, rfl⟩

/-- A sequencer forced to its idle point has lost its operation, and keeps its bank and its count of faults. -/
theorem State.seqToIdle_seq (a : ActId) (r : Bool) (s : State) :
    ((s.seqToIdle a r).seq a).op = none ∧ ((s.seqToIdle a r).seq a).bank = (s.seq a).bank ∧
      ((s.seqToIdle a r).seq a).faults = (s.seq a).faults := by
  simp [State.seqToIdle]

/-! ## A bank selected (R230) -/

/-- The newest bank taken by a sequencer. -/
def State.takeBank (a : ActId) (s : State) : State :=
  (s.modSeq a fun q => { q with bank := s.patch.newest, switchPending := false }).modPatch fun p => { p with remaining := p.remaining - 1 }

theorem State.selectBank_none {a : ActId} {s : State} (h : (s.seq a).switchPending = false) : s.selectBank a = s := by
  rw [State.selectBank, h]
  rfl

theorem State.selectBank_more {a : ActId} {s : State} (h : (s.seq a).switchPending = true) (hr : 2 ≤ s.patch.remaining) :
    s.selectBank a = s.takeBank a := by
  have more : (s.takeBank a).patch.remaining ≠ 0 := by simp only [State.takeBank, State.modPatch_patch, State.modSeq_patch]; omega
  rw [State.selectBank, if_pos h]
  exact if_neg more

theorem State.selectBank_last {a : ActId} {s : State} (h : (s.seq a).switchPending = true) (hr : s.patch.remaining ≤ 1) :
    s.selectBank a = ((s.takeBank a).modPatch fun p => { p with switching := false }).each (fins 64) fun b s => s.raiseSeq b 5 := by
  have last : (s.takeBank a).patch.remaining = 0 := by simp only [State.takeBank, State.modPatch_patch, State.modSeq_patch]; omega
  rw [State.selectBank, if_pos h]
  exact if_pos last

theorem State.raiseAll_seq (n : Nat) (b : ActId) (s : State) : (s.each (fins 64) fun a s => s.raiseSeq a n).seq b =
    { s.seq b with events := setBit (s.seq b).events n } :=
  State.each_fins State.seq (fun _ x => { x with events := setBit x.events n })
    (fun a s q => (State.raiseSeq_seq a n q s).trans (by split <;> simp_all)) s b

theorem State.raiseAll_patch (n : Nat) (s : State) : (s.each (fins 64) fun a s => s.raiseSeq a n).patch = s.patch :=
  State.each_keeps State.patch (fun a s => (State.raiseSeq_moves a n s).only .patch (by decide)) _ s

theorem State.takeBank_seq (a b : ActId) (s : State) : (s.takeBank a).seq b =
    if b = a then { s.seq a with bank := s.patch.newest, switchPending := false } else s.seq b := by
  simp [State.takeBank]

theorem State.takeBank_keeps (a b : ActId) (s : State) : ((s.takeBank a).seq b).course = (s.seq b).course ∧
    ((s.takeBank a).seq b).events = (s.seq b).events := by
  rw [State.takeBank_seq]
  split
  next e => rw [e]; exact ⟨rfl, rfl⟩
  next => exact ⟨rfl, rfl⟩

/-- The selection of a bank disturbs no sequencer, and no event is lost; the banks stay as they are. -/
theorem State.selectBank_keeps (a : ActId) (s : State) :
    (∀ b, ((s.selectBank a).seq b).course = (s.seq b).course ∧
      ∀ n, (s.seq b).events.getLsbD n = true → ((s.selectBank a).seq b).events.getLsbD n = true) ∧
    (s.selectBank a).patch.newest = s.patch.newest ∧ (s.selectBank a).patch.bankOf = s.patch.bankOf := by
  cases h : (s.seq a).switchPending
  · rw [State.selectBank_none h]
    exact ⟨fun b => ⟨rfl, fun _ e => e⟩, rfl, rfl⟩
  · by_cases hr : 2 ≤ s.patch.remaining
    · rw [State.selectBank_more h hr]
      exact ⟨fun b => ⟨(s.takeBank_keeps a b).1, fun n e => by rwa [(s.takeBank_keeps a b).2]⟩, rfl, rfl⟩
    · rw [State.selectBank_last h (by omega)]
      refine ⟨fun b => ?_, by rw [State.raiseAll_patch]; rfl, by rw [State.raiseAll_patch]; rfl⟩
      rw [State.raiseAll_seq, State.modPatch_seq]
      exact ⟨(s.takeBank_keeps a b).1, fun n e => setBit_keep _ 5 n (by rwa [(s.takeBank_keeps a b).2])⟩

theorem State.selectBank_course (a b : ActId) (s : State) : ((s.selectBank a).seq b).course = (s.seq b).course :=
  ((s.selectBank_keeps a).1 b).1

/-- After a selection the sequencer waits for no bank. -/
theorem State.selectBank_done (a : ActId) (s : State) : ((s.selectBank a).seq a).switchPending = false := by
  cases h : (s.seq a).switchPending
  · rwa [State.selectBank_none h]
  · by_cases hr : 2 ≤ s.patch.remaining
    · simp [State.selectBank_more h hr, State.takeBank_seq]
    · simp [State.selectBank_last h (show s.patch.remaining ≤ 1 by omega), State.raiseAll_seq, State.takeBank_seq]

/-! ## A fault (R241) -/

section
variable {s : State} {a : ActId} (first : (s.seq a).faultAt = none)
include first

/-- A first fault ends the operation and halts the sequencer where it is, with the fault's code, and raises its event. -/
theorem State.seqFault_seq (code : Nat) : ((s.seqFault a code).seq a).course = { (s.seq a).course with
    st := .halted, fault := BitVec.ofNat 8 code, faults := satAdd 255 (s.seq a).faults 1, op := none } ∧
    ((s.seqFault a code).seq a).events.getLsbD 0 = true := by
  unfold State.seqFault
  extract_lets again writing t1 stop t2 t3 t4
  have once : again = false := by simp only [again, first]
  have stopped : stop.course = (s.seq a).course := by simp only [stop, t1, State.failOp_seq, (State.cancelGates_course a true true a s).1]
  have kept : (t1.seq a).faults = (s.seq a).faults := congrArg Course.faults stopped
  have halted : (t3.seq a).course = { stop.course with
      st := .halted, fault := BitVec.ofNat 8 code, faults := satAdd 255 (s.seq a).faults 1, op := none } := by
    obtain ⟨op, -, faults⟩ := t1.seqToIdle_seq a false
    simp only [t3, State.modAcal_seq, t2, State.when_seq (fun u b => State.endSession_seq a b u), State.modSeq_seq, if_true, Seq.course, op,
      faults, kept]
  have raised : ((t3.raiseSeq a 0).seq a).events.getLsbD 0 = true := by
    rw [State.raiseSeq_seq, if_pos rfl]
    exact setBit_get _ 0 (by decide)
  rw [if_neg (by simp [once])]
  refine ⟨?_, ((t3.raiseSeq a 0).selectBank_keeps a).1 a |>.2 0 raised⟩
  rw [stopped] at halted
  exact (State.selectBank_course a a _).trans ((State.raiseSeq_course a 0 a t3).1.trans halted)

end

/-! ## The idle point (R217, R230) -/

/-- The parameters in force at the idle point. -/
def State.takeParams (a : ActId) (s : State) : State := s.modSeq a fun q =>
  { q with gates := [], gateAhead := s.nor.config.gateAhead[a], retryMax := s.nor.config.writeRetryMax[a] }

theorem State.idlePoint_cases (a : ActId) (s : State) :
    s.idlePoint a = s ∨ (s.seq a).addr = 0 ∧ s.idlePoint a = (s.takeParams a).selectBank a := by
  unfold State.idlePoint
  extract_lets q
  split
  next h => exact .inr ⟨h.1, rfl⟩
  next => exact .inl rfl

theorem State.takeParams_view {β : Type} (v : Seq → β) (hv : ∀ x g n m, v { x with gates := g, gateAhead := n, retryMax := m } = v x)
    (a : ActId) (s : State) : v ((s.takeParams a).seq a) = v (s.seq a) :=
  State.modSeq_view v (fun x => hv x _ _ _) a a s

theorem State.idlePoint_course (a : ActId) (s : State) : ((s.idlePoint a).seq a).course = (s.seq a).course := by
  obtain h | ⟨-, h⟩ := s.idlePoint_cases a <;> rw [h]
  rw [State.selectBank_course]
  exact State.takeParams_view Seq.course (fun _ _ _ _ => rfl) a s

/-- The idle point of a sequencer that waits for no bank sets its parameters alone. -/
theorem State.idlePoint_quiet {a : ActId} {s : State} (h : (s.seq a).addr ≠ 0 ∨ (s.seq a).switchPending = false) :
    (s.idlePoint a).patch = s.patch ∧
      ∃ g n m, (s.idlePoint a).seq a = { s.seq a with gates := g, gateAhead := n, retryMax := m } := by
  obtain e | ⟨h0, e⟩ := s.idlePoint_cases a <;> rw [e]
  · exact ⟨rfl, _, _, _, rfl⟩
  · have params : (s.takeParams a).seq a = _ := (State.modSeq_seq ..).trans (if_pos rfl)
    rw [State.selectBank_none (by rw [params]; exact h.resolve_left fun n => n h0), params]
    exact ⟨rfl, _, _, _, rfl⟩

/-! ## The next address (R220, R223) -/

theorem State.goTo_word {s : State} {a : ActId} {b : Bank} {n : Nat} (stack : List (BitVec 15))
    (hb : s.patch.bankOf (s.seq a).bank = b) (hw : (b.micro? (b.redirect n)).isSome = true) (h0 : b.redirect n ≠ 0) :
    ((s.goTo a n stack).seq a).course =
      { (s.seq a).course with st := .running, addr := BitVec.ofNat 15 (b.redirect n), stack := stack } := by
  obtain ⟨w, hw⟩ := Option.isSome_iff_exists.mp hw
  unfold State.goTo
  rw [hb]
  extract_lets bank at_ t
  simp only [at_, bank, hw, if_neg h0, t, State.modSeq_seq, if_true, Seq.course]
  rfl

/-- Where no match of its bank redirects 0x0000, a sequencer sent there has ended its operation and is idle. -/
theorem State.goTo_idle {s : State} {a : ActId} (stack : List (BitVec 15)) (h : (s.patch.bankOf (s.seq a).bank).redirect 0 = 0) :
    ∃ u : State, s.goTo a 0 stack = (u.noteRequest a).idlePoint a ∧ u.chorus = s.chorus ∧ u.patch = s.patch ∧
      (u.seq a).bank = (s.seq a).bank ∧ (u.seq a).switchPending = (s.seq a).switchPending ∧
      (u.seq a).course = { (s.seq a).course with st := .idle, op := none, addr := 0, stack := stack } := by
  have rom (b : Bank) : b.micro? 0 = some (Config.romMicro 0) := rfl
  unfold State.goTo
  extract_lets bank at_ t
  simp only [at_, bank, h, rom, if_true]
  refine ⟨_, rfl, rfl, rfl, by simp [t], by simp [t], ?_⟩
  have start : BitVec.ofNat 15 at_ = 0 := by simp [at_, bank, h]
  simp only [t, State.modSeq_seq, if_true, Seq.course, start]
  rfl

theorem State.goTo_idle_course {s : State} {a : ActId} (stack : List (BitVec 15)) (h : (s.patch.bankOf (s.seq a).bank).redirect 0 = 0) :
    ((s.goTo a 0 stack).seq a).course = { (s.seq a).course with st := .idle, op := none, addr := 0, stack := stack } := by
  obtain ⟨u, e, -, -, -, -, course⟩ := State.goTo_idle stack h
  rw [e, State.idlePoint_course, State.noteRequest_seq, course]

/-- A sequencer that waits for no bank has at its idle point the bank it had. -/
theorem State.goTo_idle_bank {s : State} {a : ActId} (stack : List (BitVec 15)) (h : (s.patch.bankOf (s.seq a).bank).redirect 0 = 0)
    (hp : (s.seq a).switchPending = false) : ((s.goTo a 0 stack).seq a).bank = (s.seq a).bank := by
  obtain ⟨u, e, -, -, bank, pending, -⟩ := State.goTo_idle stack h
  have quiet : ((u.noteRequest a).seq a).switchPending = false := by rw [State.noteRequest_seq, pending, hp]
  obtain ⟨-, g, n, m, kept⟩ := State.idlePoint_quiet (.inr quiet)
  rw [e, kept, State.noteRequest_seq, ← bank]

/-- An actuator's pool entry without its request. -/
def ActPool.unrequested (x : ActPool) : ActPool := { x with req := none }

theorem ActPool.encoder_of_unrequested {x y : ActPool} (h : x.unrequested = y.unrequested) :
    x.enc = y.enc ∧ x.stagingErrors = y.stagingErrors :=
  ⟨(congrArg ActPool.enc h :), (congrArg ActPool.stagingErrors h :)⟩

theorem State.noteRequest_unrequested (a b : ActId) (s : State) : ((s.noteRequest a).pool b).unrequested = (s.pool b).unrequested := by
  unfold State.noteRequest
  extract_lets t ready
  by_cases h : b = a
  · simp [h, t, ActPool.unrequested]
  · simp [h, t]

theorem State.goTo_idle_unrequested {s : State} {a : ActId} (stack : List (BitVec 15))
    (h : (s.patch.bankOf (s.seq a).bank).redirect 0 = 0) (b : ActId) : ((s.goTo a 0 stack).pool b).unrequested = (s.pool b).unrequested := by
  obtain ⟨u, e, chorus, -⟩ := State.goTo_idle stack h
  rw [e, (State.idlePoint_moves a _).pool (by decide), State.noteRequest_unrequested, State.pool, chorus, State.pool]

end Sys2Proof.Machine
end

section
/-! SUPPORT. The commands of the format sequencers (spec/06 R215, R217 to R223, R230, R238, R241; spec/07 R260, R275, R276). -/

namespace Sys2Proof.Machine

theorem Does.imp {i : Instr} {s : State} {P Q : State → Prop} (h : ∀ t, P t → Q t) : Does i s P → Does i s Q :=
  fun ⟨t, run, p⟩ => ⟨t, run, h t p⟩

/-! ## MICROWORD_EXECUTE (R217 to R223) -/

theorem State.microActions_blank (a : ActId) (s : State) : s.microActions a 0 = s.modSeq a fun q => { q with acted := true } := by
  have none_told : s.report a 0 = s := by
    unfold State.report
    split <;> rfl
  show (s.report a 0).modSeq a (fun q => { q with acted := true }) = _
  rw [none_told]

theorem State.endHold_blank (a : ActId) (n : Nat) (w : W32) (s : State) : s.endHold a n w 0 =
    ((s.at_ (n + (microCycle w + 1))).microNextWord a w true).handNext (portOf a) := by
  show ((s.at_ (n + max (microCycle w + 1) 0)).microNextWord a w true).handNext (portOf a) = _
  rw [Nat.max_zero]

section
variable {s : State} {a : ActId} {w : W32} (running : (s.seq a).st = .running)
  (word : (s.patch.bankOf (s.seq a).bank).micro? (s.seq a).addr.toNat = some w)
  (blank : (s.patch.bankOf (s.seq a).bank).nano? (microNano w) = .inr 0) (acted : (s.seq a).acted = false)
  (quiet : (s.seq a).addr ≠ 0 ∨ (s.seq a).switchPending = false)
include running word blank acted quiet

/-- A microword whose nano-word has no action and no wait leads, at the end of its hold, to the next address. -/
theorem microwordExecute_blank : ∃ u : State,
    exec (.microwordExecute a false) s = .next ((u.microNextWord a w true).handNext (portOf a)) ∧ u.patch = s.patch ∧
      (u.seq a).course = (s.seq a).course ∧ (u.seq a).bank = (s.seq a).bank ∧ (u.seq a).faultAt = (s.seq a).faultAt ∧
      (s.seq a).wordAt + microCycle w + 1 ≤ u.now := by
  obtain ⟨patch, g, n, m, kept⟩ := State.idlePoint_quiet quiet
  let u := ((s.idlePoint a).modSeq a fun q => { q with acted := true }).at_ ((s.seq a).wordAt + (microCycle w + 1))
  have held : u.seq a = { s.seq a with gates := g, gateAhead := n, retryMax := m, acted := true } :=
    (State.modSeq_seq ..).trans ((if_pos rfl).trans (by rw [kept]))
  refine ⟨u, ?_, patch, by rw [held]; rfl, by rw [held], by rw [held], Nat.le_max_right _ _⟩
  have ok : nanoOk 0 = true := by decide
  show execMicrowordExecute a false s = _
  simp only [execMicrowordExecute, running, kept, patch, word, blank, acted, State.microActions_blank, ok, State.modSeq_seq,
    State.endHold_blank, if_true, ne_eq, not_true_eq_false, and_false, if_false, reduceCtorEq, Bool.false_eq_true]
  split
  next never _ => exact absurd never (by decide)
  next => rfl

/-- A next address other than the idle point: the hold ends, and the operation goes on there. -/
theorem microwordExecute_sequential {b : Bank} {n : Nat} (next : microNext w = 0) (hb : s.patch.bankOf (s.seq a).bank = b)
    (hn : b.redirect ((s.seq a).addr.toNat + 1) = n) (loaded : (b.micro? n).isSome = true) (h0 : n ≠ 0) :
    Does (.microwordExecute a false) s fun t => (t.seq a).course = { (s.seq a).course with st := .running, addr := BitVec.ofNat 15 n } ∧
      (s.seq a).wordAt + microCycle w + 1 ≤ t.now := by
  obtain ⟨u, run, patch, course, bank, -, time⟩ := microwordExecute_blank running word blank acted quiet
  have addr : (u.seq a).addr = (s.seq a).addr := congrArg Course.addr course
  have goes : u.microNextWord a w true = u.goTo a ((s.seq a).addr.toNat + 1) (u.seq a).stack := by
    simp only [State.microNextWord, next, addr]
  refine ⟨_, run, ?_, ?_⟩
  · subst hn
    rw [State.handNext_seq, goes, State.goTo_word _ (by rw [patch, bank, hb]) loaded h0, ← course]
    rfl
  · exact time.trans ((State.microNextWord_moves a w true u).time.trans (State.handNext_moves _ _).time)

theorem microwordExecute_call {b : Bank} (next : microNext w = 2) (room : (s.seq a).stack.length < 8)
    (hb : s.patch.bankOf (s.seq a).bank = b) (hn : b.redirect (microTarget w) = microTarget w)
    (loaded : (b.micro? (microTarget w)).isSome = true) (h0 : microTarget w ≠ 0) :
    Does (.microwordExecute a false) s fun t => (t.seq a).course = { (s.seq a).course with
      st := .running, addr := BitVec.ofNat 15 (microTarget w), stack := BitVec.ofNat 15 ((s.seq a).addr.toNat + 1) :: (s.seq a).stack } := by
  obtain ⟨u, run, patch, course, bank, -, -⟩ := microwordExecute_blank running word blank acted quiet
  have addr : (u.seq a).addr = (s.seq a).addr := congrArg Course.addr course
  have stack : (u.seq a).stack = (s.seq a).stack := congrArg Course.stack course
  have goes : u.microNextWord a w true =
      u.goTo a (microTarget w) (BitVec.ofNat 15 ((s.seq a).addr.toNat + 1) :: (s.seq a).stack) := by
    simp only [State.microNextWord, next, addr, stack, if_neg (Nat.not_le.mpr room)]
  have there := State.goTo_word (n := microTarget w) (BitVec.ofNat 15 ((s.seq a).addr.toNat + 1) :: (s.seq a).stack)
    (show u.patch.bankOf (u.seq a).bank = b by rw [patch, bank, hb]) (by rwa [hn]) (by rwa [hn])
  rw [hn, course] at there
  exact ⟨_, run, by beta_reduce; rw [State.handNext_seq, goes, there]⟩

theorem microwordExecute_overflow (next : microNext w = 2) (full : (s.seq a).stack.length = 8) (first : (s.seq a).faultAt = none) :
    Does (.microwordExecute a false) s fun t => (t.seq a).course = { (s.seq a).course with
      st := .halted, fault := 3, faults := satAdd 255 (s.seq a).faults 1, op := none } ∧ (t.seq a).events.getLsbD 0 = true := by
  obtain ⟨u, run, -, course, -, faultAt, -⟩ := microwordExecute_blank running word blank acted quiet
  have stack : (u.seq a).stack = (s.seq a).stack := congrArg Course.stack course
  have faults : (u.seq a).faults = (s.seq a).faults := congrArg Course.faults course
  have goes : u.microNextWord a w true = u.seqFault a 3 := by
    simp only [State.microNextWord, next, stack, full, Nat.le_refl, if_true]
  obtain ⟨halted, told⟩ := State.seqFault_seq (faultAt.trans first) 3
  refine ⟨_, run, ?_, ?_⟩
  · rw [State.handNext_seq, goes, halted, course, faults]
    rfl
  · rwa [State.handNext_seq, goes]

end

/-! ## Faults: a bad word, an operation that is not back in time (R241) -/

section
variable {s : State} {a : ActId} (running : (s.seq a).st = .running) (first : (s.seq a).faultAt = none)
include running first

theorem microwordExecute_parity : Does (.microwordExecute a true) s fun t => (t.seq a).course = { (s.seq a).course with
    st := .halted, fault := 5, faults := satAdd 255 (s.seq a).faults 1, op := none } := by
  have run : exec (.microwordExecute a true) s = .next (s.seqFault a 5) := by
    show execMicrowordExecute a true s = _
    simp [execMicrowordExecute, running]
  exact ⟨_, run, (State.seqFault_seq first 5).1⟩

theorem operationTimeout_faults (busy : (s.seq a).op.isSome = true) : Does (.operationTimeout a) s fun t =>
    (t.seq a).course = { (s.seq a).course with
      st := .halted, fault := 7, faults := satAdd 255 (s.seq a).faults 1, op := none } ∧ (t.seq a).events.getLsbD 0 = true ∧
    (s.seq a).opAt + ((s.seq a).retryMax + 2) * (s.spin (portOf a)).periodNs.toNat ≤ t.now := by
  have run : exec (.operationTimeout a) s = .next
      ((s.at_ ((s.seq a).opAt + ((s.seq a).retryMax + 2) * (s.spin (portOf a)).periodNs.toNat)).seqFault a 7) :=
    congrArg Host.Outcome.next (if_pos ⟨running, busy⟩)
  obtain ⟨halted, told⟩ := State.seqFault_seq
    (s := s.at_ ((s.seq a).opAt + ((s.seq a).retryMax + 2) * (s.spin (portOf a)).periodNs.toNat)) first 7
  exact ⟨_, run, halted, told, (Nat.le_max_right s.now _).trans (State.seqFault_moves a 7 (s.at_ _)).time⟩

end

/-! ## SEQUENCER_FAULT_REINIT and BANK_SWITCH (R230, R241) -/

/-- The bank that a sequencer about to start again waits for, selected. -/
def State.restartBank (a : ActId) (s : State) : State :=
  (s.modSeq a fun q => { q with switchPending := q.switchPending && (q.bank != s.patch.newest) }).selectBank a

theorem State.restartBank_keeps (a : ActId) (s : State) : ((s.restartBank a).seq a).course = (s.seq a).course ∧
    (s.restartBank a).patch.newest = s.patch.newest ∧ (s.restartBank a).patch.bankOf = s.patch.bankOf :=
  ⟨(State.selectBank_course a a _).trans (State.modSeq_view Seq.course (fun _ => by rfl) a a s), (State.selectBank_keeps a _).2⟩

/-- Where no match of the newest bank redirects 0x0000, a sequencer starts again idle, without its fault, on that bank. -/
theorem State.seqRestart_idle {s : State} {a : ActId} (h : (s.patch.bankOf s.patch.newest).redirect 0 = 0) :
    ((s.seqRestart a).seq a).course = { (s.seq a).course with st := .idle, fault := 0, op := none, addr := 0, stack := [] } ∧
      ((s.seqRestart a).seq a).bank = s.patch.newest := by
  obtain ⟨course, newest, banks⟩ := s.restartBank_keeps a
  have start : ((s.restartBank a).modSeq a fun q => { q with st := .idle, fault := 0, bank := (s.restartBank a).patch.newest }).seq a =
      { (s.restartBank a).seq a with st := .idle, fault := 0, bank := s.patch.newest } := by rw [State.modSeq_seq, if_pos rfl, newest]
  have straight : (((s.restartBank a).modSeq a fun q =>
      { q with st := .idle, fault := 0, bank := (s.restartBank a).patch.newest }).patch.bankOf s.patch.newest).redirect 0 = 0 := by
    rw [State.modSeq_patch, banks, h]
  have idle := State.goTo_idle_course [] (by rw [start]; exact straight)
  have bank := State.goTo_idle_bank [] (by rw [start]; exact straight) (by rw [start]; exact State.selectBank_done a _)
  rw [start] at idle bank
  refine ⟨?_, bank⟩
  rw [← course]
  exact idle

theorem sequencerFaultReinit_restarts {s : State} {a : ActId} (halted : (s.seq a).st = .halted) (serves : (s.seq a).outOfService = false)
    (h : (s.patch.bankOf s.patch.newest).redirect 0 = 0) : Does (.sequencerFaultReinit a) s fun t =>
    (t.seq a).course = { (s.seq a).course with st := .idle, fault := 0, op := none, addr := 0, stack := [] } ∧
      (t.seq a).bank = s.patch.newest :=
  ⟨_, congrArg Host.Outcome.next (if_pos ⟨halted, serves⟩), State.seqRestart_idle h⟩

theorem bankSwitch_more {s : State} {a : ActId} (h : (s.seq a).st = .offline ∨ (s.seq a).st = .halted)
    (pending : (s.seq a).switchPending = true) (more : 2 ≤ s.patch.remaining) : Does (.bankSwitch a) s fun t => t = s.takeBank a :=
  ⟨_, congrArg Host.Outcome.next ((if_pos (h.imp id .inl)).trans (State.selectBank_more pending more)), rfl⟩

theorem bankSwitch_last {s : State} {a : ActId} (h0 : (s.seq a).addr = 0) (op : (s.seq a).op = none) (gates : (s.seq a).gates = [])
    (pending : (s.seq a).switchPending = true) (last : s.patch.remaining = 1) : Does (.bankSwitch a) s fun t =>
    (t.seq a).bank = s.patch.newest ∧ t.patch.switching = false ∧ t.patch.remaining = 0 ∧ ∀ b, (t.seq b).events.getLsbD 5 = true := by
  have idle : (s.seq a).addr = 0 ∧ (s.seq a).op.isNone = true ∧ (s.seq a).gates.all s.gateOver = true := by simp [h0, op, gates]
  refine ⟨_, congrArg Host.Outcome.next ((if_pos (.inr (.inr idle))).trans (State.selectBank_last pending (Nat.le_of_eq last))), ?_, ?_, ?_,
    fun b => ?_⟩
  · simp [State.raiseAll_seq, State.takeBank_seq]
  · rw [State.raiseAll_patch]
    rfl
  · simp [State.raiseAll_patch, State.takeBank, last]
  · rw [State.raiseAll_seq]
    exact setBit_get _ 5 (by decide)

/-! ## DESCRIPTOR_QUEUED (R215; spec/07 R260, log 133) -/

theorem descriptorQueued_joins {s : State} {a : ActId} (h : s.handsOver (portOf a) = false) (why : ReadFor) (d : Descriptor) :
    Does (.descriptorQueued a ⟨why, d⟩) s fun t =>
      (t.seq a).queue = (s.seq a).queue ++ [{ d with cls := s.readClass why d, reread := 0 }] ∧ (t.seq a).op = (s.seq a).op ∧
      t.ports = s.ports ∧ ∀ b, b ≠ a → t.seq b = s.seq b := by
  have run : exec (.descriptorQueued a ⟨why, d⟩) s = .next
      ((s.modSeq a fun q => { q with queue := q.queue ++ [{ d with cls := s.readClass why d, reread := 0 }] }).noteRequest a) := by
    show execDescriptorQueued a ⟨why, d⟩ s = _
    simp only [execDescriptorQueued, h]
    rfl
  exact ⟨_, run, by simp, by simp, (State.noteRequest_moves a _).only .ports (by decide), fun b hb => by simp [hb]⟩

/-! ## GATE_ERROR (R238, R239, R241; spec/03 R108) -/

/-- What every gate error counts and raises, of a port and an actuator's sequencer. -/
def State.noteGateError (p : PortId) (a : ActId) (s : State) : State :=
  (((s.modPort p fun x => { x with gateErr := sat32 x.gateErr 1 }).raisePort p 1).raiseSeq a 2).modSeq a fun q =>
    { q with gateErrors := satAdd 255 q.gateErrors 1 }

/-- A gate is the write gate of an opening time. -/
def Gate.isWriteAt (t : Nat) (g : Gate) : Bool := g.write == true && time32 g.openTime == t

/-- The write gates of an opening time go, with the bits that wait for them; their sectors count as not written. -/
def State.loseWriteGates (p : PortId) (a : ActId) (t : Nat) (s : State) : State :=
  (s.modSeq a fun q => { q with
    gates := q.gates.filter fun g => !g.isWriteAt t, affected := q.affected || q.gates.filter (Gate.isWriteAt t) != []
    lost := (q.lost ++ (q.gates.filter (Gate.isWriteAt t)).flatMap Gate.sectors).eraseDups }).modPort p fun x => { x with
      writes := x.writes.filter fun w => !(w.side == sideOf a && time32 w.openTime == t) }

section
variable {s : State} {p : PortId} {k : Packet} {a : ActId} (hk : Received s p 0xE3 k)
  (side : actOf p (if field k.payload 0 1 = 1 then 1 else 0) = a)
include hk side

/-- What a late, an overlapping and an underrun gate come to. -/
theorem gateError_eq :
    (field k.payload 1 1 = 2 → field k.payload 2 1 = 1 → exec (.gateError p) s = .next
      ((((s.modPort p fun q => { q with rx := q.rx.drop 1 }).noteGateError p a).raiseSeq a 1).loseWriteGates p a (field k.payload 4 4))) ∧
    (field k.payload 1 1 = 1 → field k.payload 2 1 = 2 → exec (.gateError p) s = .next
      (((s.modPort p fun q => { q with rx := q.rx.drop 1 }).noteGateError p a).seqFault a 6)) ∧
    (field k.payload 1 1 = 2 → field k.payload 2 1 = 3 → exec (.gateError p) s = .next
      ((((s.modPort p fun q => { q with rx := q.rx.drop 1 }).noteGateError p a).loseWriteGates p a (field k.payload 4 4)).modPool a
        fun x => { x with underruns := satAdd 255 x.underruns 1 })) := by
  have run : exec (.gateError p) s = execGateError p s := rfl
  rw [run, execGateError, State.takeRx_of hk]
  refine ⟨fun kind reason => ?_, fun kind reason => ?_, fun kind reason => ?_⟩ <;> simp only [side, kind, reason] <;> rfl

end

theorem State.noteGateError_counts (p : PortId) (a : ActId) (s : State) :
    ((s.noteGateError p a).port p).gateErr = sat32 (s.port p).gateErr 1 ∧ ((s.noteGateError p a).port p).events.getLsbD 1 = true ∧
      ((s.noteGateError p a).seq a).gateErrors = satAdd 255 (s.seq a).gateErrors 1 ∧
      ((s.noteGateError p a).seq a).events.getLsbD 2 = true := by
  simp only [State.noteGateError, State.modSeq_port, State.modSeq_seq, State.raiseSeq_port, State.raiseSeq_seq, State.raisePort_port,
    State.raisePort_seq, State.modPort_port, State.modPort_seq, if_true]
  exact ⟨trivial, setBit_get _ 1 (by decide), trivial, setBit_get _ 2 (by decide)⟩

theorem State.loseWriteGates_keeps (p : PortId) (a : ActId) (t : Nat) (s : State) :
    ((s.loseWriteGates p a t).port p).gateErr = (s.port p).gateErr ∧ ((s.loseWriteGates p a t).port p).events = (s.port p).events ∧
      ((s.loseWriteGates p a t).seq a).gateErrors = (s.seq a).gateErrors ∧
      ((s.loseWriteGates p a t).seq a).events = (s.seq a).events := by
  simp [State.loseWriteGates]

/-- No write gate of that opening time is left. -/
theorem State.loseWriteGates_gates (p : PortId) (a : ActId) (t : Nat) (s : State) :
    ∀ g ∈ ((s.loseWriteGates p a t).seq a).gates, (g.write && time32 g.openTime == t) = false := by
  intro g hg
  simp only [State.loseWriteGates, State.modPort_seq, State.modSeq_seq, if_true] at hg
  obtain ⟨-, other⟩ := List.mem_filter.mp hg
  rw [Bool.not_eq_true', Gate.isWriteAt, beq_true] at other
  exact other

theorem gateError_lateWrite {s : State} {p : PortId} {k : Packet} (hk : Received s p 0xE3 k) (side : field k.payload 0 1 = 0)
    (kind : field k.payload 1 1 = 2) (reason : field k.payload 2 1 = 1) : Does (.gateError p) s fun t =>
      (t.port p).gateErr = sat32 (s.port p).gateErr 1 ∧ (t.seq (actOf p 0)).gateErrors = satAdd 255 (s.seq (actOf p 0)).gateErrors 1 ∧
      (t.seq (actOf p 0)).events.getLsbD 1 = true ∧ (t.seq (actOf p 0)).events.getLsbD 2 = true := by
  refine ⟨_, (gateError_eq hk (a := actOf p 0) (by rw [if_neg (by omega)])).1 kind reason, ?_⟩
  generalize hu : (s.modPort p fun q => { q with rx := q.rx.drop 1 }) = u
  obtain ⟨port, -, count, raised⟩ := u.noteGateError_counts p (actOf p 0)
  obtain ⟨keptPort, -, keptCount, keptEvents⟩ := ((u.noteGateError p (actOf p 0)).raiseSeq (actOf p 0) 1).loseWriteGates_keeps p (actOf p 0)
    (field k.payload 4 4)
  have gateErr : (u.port p).gateErr = (s.port p).gateErr := by simp [← hu]
  have seqs : u.seq = s.seq := by rw [← hu]; rfl
  rw [keptPort, keptCount, keptEvents, State.raiseSeq_port, State.raiseSeq_seq, if_pos rfl, port, count, gateErr, seqs]
  exact ⟨rfl, rfl, setBit_get _ 1 (by decide), setBit_keep _ 1 2 raised⟩

theorem gateError_underrunWrite {s : State} {p : PortId} {k : Packet} (hk : Received s p 0xE3 k) (side : field k.payload 0 1 = 0)
    (kind : field k.payload 1 1 = 2) (reason : field k.payload 2 1 = 3) : Does (.gateError p) s fun t =>
      (t.port p).gateErr = sat32 (s.port p).gateErr 1 ∧ (t.port p).events.getLsbD 1 = true ∧
      (t.seq (actOf p 0)).gateErrors = satAdd 255 (s.seq (actOf p 0)).gateErrors 1 ∧ (t.seq (actOf p 0)).events.getLsbD 2 = true ∧
      (t.pool (actOf p 0)).underruns = satAdd 255 (s.pool (actOf p 0)).underruns 1 ∧
      ∀ g ∈ (t.seq (actOf p 0)).gates, (g.write && time32 g.openTime == field k.payload 4 4) = false := by
  refine ⟨_, (gateError_eq hk (a := actOf p 0) (by rw [if_neg (by omega)])).2.2 kind reason, ?_⟩
  generalize hu : (s.modPort p fun q => { q with rx := q.rx.drop 1 }) = u
  obtain ⟨port, event, count, raised⟩ := u.noteGateError_counts p (actOf p 0)
  obtain ⟨keptPort, keptEvent, keptCount, keptEvents⟩ := (u.noteGateError p (actOf p 0)).loseWriteGates_keeps p (actOf p 0)
    (field k.payload 4 4)
  simp only [State.modPool_port, State.modPool_seq, State.modPool_pool, if_true, keptPort, keptEvent, keptCount, keptEvents, port, count]
  refine ⟨by simp [← hu], event, by simp [← hu], raised, ?_, State.loseWriteGates_gates p _ _ _⟩
  simp [← hu, State.loseWriteGates, State.noteGateError]

theorem gateError_overlapRead {s : State} {p : PortId} {k : Packet} (hk : Received s p 0xE3 k) (side : field k.payload 0 1 = 1)
    (kind : field k.payload 1 1 = 1) (reason : field k.payload 2 1 = 2) (first : (s.seq (actOf p 1)).faultAt = none) :
    Does (.gateError p) s fun t => (t.seq (actOf p 1)).st = .halted ∧ (t.seq (actOf p 1)).fault = 6 := by
  have noted : (((s.modPort p fun q => { q with rx := q.rx.drop 1 }).noteGateError p (actOf p 1)).seq (actOf p 1)).faultAt = none := by
    simp [State.noteGateError, first]
  obtain ⟨halted, -⟩ := State.seqFault_seq noted 6
  exact ⟨_, (gateError_eq hk (a := actOf p 1) (by rw [if_pos side])).2.1 kind reason, congrArg Course.st halted,
    congrArg Course.fault halted⟩

/-! ## The write encoder (spec/07 R275, R276) -/

theorem encoderReady_full {s : State} {a : ActId} (streaming : (s.pool a).enc = 1) (full : s.encoderFull a = true) :
    Does (.encoderReady a) s fun t => (t.pool a).encReady = true ∧ (t.pool a).enc = 1 ∧ t.seqs = s.seqs ∧
      ∀ b, b ≠ a → t.pool b = s.pool b :=
  ⟨_, congrArg Host.Outcome.next (if_pos ⟨streaming, full⟩), by simp, by simp [streaming], by simp, fun b hb => by simp [hb]⟩

theorem State.report_bank (a : ActId) (r : Nat) (s : State) : ((s.report a r).seq a).bank = (s.seq a).bank := by
  unfold State.report
  split
  · rfl
  · split
    · rw [State.peerReport_seq]
    · split
      · extract_lets t
        have told : (t.seq a).bank = (s.seq a).bank :=
          (State.raiseSeq_course a 4 a _).2.trans (by rw [State.peerReport_seq, State.giveUp_seq])
        split
        · exact (State.modSeq_view Seq.bank (fun _ => by rfl) a a t).trans told
        · exact told
      · rfl

/-- The end of an operation for an error in its staged data, short of the next address. -/
def State.endEncoded (a : ActId) (s : State) : State :=
  (((s.cancelGates a false true).report a 2).seqToIdle a false).modPool a fun x =>
    { x with enc := 2, stagingErrors := satAdd 255 x.stagingErrors 1 }

theorem State.endEncoded_bank (a : ActId) (s : State) : ((s.endEncoded a).seq a).bank = (s.seq a).bank := by
  rw [State.endEncoded, State.modPool_seq, (State.seqToIdle_seq a false _).2.1, State.report_bank, (State.cancelGates_course a false true a s).2]

theorem State.report_pool (a : ActId) (r : Nat) (b : ActId) (s : State) : (s.report a r).pool b = s.pool b := by
  have given : (s.giveUp a).pool b = s.pool b := by
    unfold State.giveUp
    split
    · split <;> rfl
    · rfl
  have told (d : Descriptor) (ok : Bool) (u : State) : (u.peerReport a d ok).pool b = u.pool b :=
    (State.peerReport_moves a d ok u).pool (by decide) b
  unfold State.report
  split
  · rfl
  · split
    · rw [told]
    · split
      · extract_lets t
        have failed : t.pool b = s.pool b := by rw [State.raiseSeq_pool, told, given]
        split
        · exact failed
        · exact failed
      · rfl

theorem State.endEncoded_pool (a : ActId) (s : State) : ((s.endEncoded a).pool a).enc = 2 ∧
    ((s.endEncoded a).pool a).stagingErrors = satAdd 255 (s.pool a).stagingErrors 1 := by
  have cancelled : ((s.cancelGates a false true).pool a).stagingErrors = (s.pool a).stagingErrors := by
    unfold State.cancelGates
    extract_lets hit t
    simp [State.when, State.dropBits, t, State.sendCancel, State.sendUrgent]
  have idle (u : State) : ((u.seqToIdle a false).pool a).stagingErrors = (u.pool a).stagingErrors := by
    unfold State.seqToIdle
    extract_lets requeue
    refine (congrArg ActPool.stagingErrors (State.noteRequest_unrequested a a _)).trans ?_
    simp [State.idleEncoder, State.dropBits, ActPool.unrequested]
  simp [State.endEncoded, idle, State.report_pool, cancelled]

theorem State.endEncoded_moves (a : ActId) (s : State) :
    s.Moves [.aon, .book, .prot, .ports, .seqs, .chorus, .pair, .out] (s.endEncoded a) :=
  Moves.op (State.modPool_moves _ _ _) (by decide) (Moves.op (State.seqToIdle_moves _ _ _) (by decide)
    (Moves.op (State.report_moves _ _ _) (by decide) (Moves.op (State.cancelGates_moves _ _ _ _) (by decide) (Moves.refl _ s))))

theorem State.noteUncorrectable_sram (addr row : Nat) (s : State) :
    (s.noteUncorrectable false addr row).mem.sramUe = sat32 s.mem.sramUe 1 ∧
      (s.noteUncorrectable false addr row).mem.errAddr = BitVec.ofNat 38 addr := by
  simp [State.noteUncorrectable, State.raiseMem_mem]

/-- An uncorrectable error in the data that an encoder reads ends its write, where no match of its bank redirects 0x0000. -/
theorem stagingError_ends {s : State} {a : ActId} {addr : Nat} (streaming : (s.pool a).enc = 1) (staged : sramWithin .staging addr = true)
    (h : (s.patch.bankOf (s.seq a).bank).redirect 0 = 0) : Does (.stagingError ⟨a, addr⟩) s fun t =>
      (t.pool a).enc = 2 ∧ (t.pool a).stagingErrors = satAdd 255 (s.pool a).stagingErrors 1 ∧ (t.seq a).op = none ∧ (t.seq a).addr = 0 ∧
      t.mem.sramUe = sat32 s.mem.sramUe 1 ∧ t.mem.errAddr = BitVec.ofNat 38 addr := by
  have moves := State.noteUncorrectable_moves false addr 0 s
  obtain ⟨count, place⟩ := s.noteUncorrectable_sram addr 0
  generalize hu : s.noteUncorrectable false addr 0 = u at moves count place
  have pool : u.pool a = s.pool a := moves.pool (by decide) a
  have run : exec (.stagingError ⟨a, addr⟩) s = .next ((u.endEncoded a).goTo a 0 []) := by
    rw [← hu] at pool ⊢
    refine congrArg Host.Outcome.next ((if_pos ⟨streaming, staged⟩).trans (if_pos ?_))
    rw [pool, streaming]
  have straight : ((u.endEncoded a).patch.bankOf ((u.endEncoded a).seq a).bank).redirect 0 = 0 := by
    rw [State.endEncoded_bank, show (u.endEncoded a).patch = u.patch from (u.endEncoded_moves a).only .patch (by decide),
      show u.patch = s.patch from moves.only .patch (by decide), moves.seq (by decide), h]
  have course := State.goTo_idle_course [] straight
  obtain ⟨enc, errors⟩ := ActPool.encoder_of_unrequested (State.goTo_idle_unrequested [] straight a)
  obtain ⟨stopped, counted⟩ := u.endEncoded_pool a
  have mem : ((u.endEncoded a).goTo a 0 []).mem = u.mem :=
    ((State.goTo_moves a 0 [] _).only .mem (by decide)).trans ((u.endEncoded_moves a).only .mem (by decide))
  rw [pool] at counted
  refine ⟨_, run, enc.trans stopped, errors.trans counted, congrArg Course.op course, congrArg Course.addr course, ?_, ?_⟩
  · rw [mem, count]
  · rw [mem, place]

/-! ## The statements on the sequencers -/

/-- Settles O37: each clause is the lemma of its command above. -/
theorem sequencerCommands : Obligations.SequencerCommands := by
  refine ⟨fun s a w run hw hn next acted quiet loaded h0 => ?_, fun s a w run hw hn next acted quiet room hn' loaded h0 => ?_,
    fun s a w run hw hn next acted quiet full first => ?_, fun s a run first => ?_, fun s a why d h => descriptorQueued_joins h why d,
    fun s a d run op first => ?_, fun s a halted serves h => ?_, fun s a halted pending more => ?_,
    fun s a h0 op gates pending last => bankSwitch_last h0 op gates pending last,
    fun s p k hk side kind reason => gateError_underrunWrite hk side kind reason,
    fun s p k hk side kind reason first => gateError_overlapRead hk side kind reason first,
    fun s a streaming full => encoderReady_full streaming full, fun s a addr streaming staged h => stagingError_ends streaming staged h⟩
  · refine (microwordExecute_sequential run hw hn acted quiet next rfl rfl loaded h0).imp fun t ⟨course, time⟩ => ?_
    exact ⟨congrArg Course.addr course, congrArg Course.stack course, congrArg Course.st course, time⟩
  · refine (microwordExecute_call run hw hn acted quiet next room rfl hn' loaded h0).imp fun t course => ?_
    exact ⟨congrArg Course.addr course, congrArg Course.stack course, congrArg Course.st course⟩
  · refine (microwordExecute_overflow run hw hn acted quiet next full first).imp fun t ⟨course, told⟩ => ?_
    exact ⟨congrArg Course.st course, congrArg Course.fault course, congrArg Course.stack course, congrArg Course.addr course, told⟩
  · refine (microwordExecute_parity run first).imp fun t course => ?_
    exact ⟨congrArg Course.st course, congrArg Course.fault course, congrArg Course.op course⟩
  · refine (operationTimeout_faults run first (by rw [op]; rfl)).imp fun t ⟨course, told, time⟩ => ?_
    exact ⟨congrArg Course.st course, congrArg Course.fault course, congrArg Course.op course, told, time⟩
  · refine (sequencerFaultReinit_restarts halted serves h).imp fun t ⟨course, bank⟩ => ?_
    exact ⟨congrArg Course.st course, congrArg Course.fault course, congrArg Course.stack course, congrArg Course.addr course, bank⟩
  · refine (bankSwitch_more (.inr halted) pending more).imp fun t e => ?_
    subst e
    rw [State.takeBank_seq, if_pos rfl]
    exact ⟨rfl, rfl, rfl, rfl⟩

/-- Settles O59, by the same lemmas. -/
theorem sequencerCommandsComplete : Obligations.SequencerCommandsComplete := by
  refine ⟨fun s a w run h0 acted hw next hn loaded there => ?_, fun s a why d h => ?_, fun s a run op first => ?_,
    fun s a halted serves h => ?_, fun s a offline pending more => ?_,
    fun s p k hk side kind reason => gateError_lateWrite hk side kind reason,
    fun s a streaming full => (encoderReady_full streaming full).imp fun t ⟨ready, _⟩ => ready,
    fun s a addr streaming staged h => (stagingError_ends streaming staged h).imp fun t ⟨enc, errors, _⟩ => ⟨enc, errors⟩⟩
  · refine (microwordExecute_sequential run hw hn acted (.inl h0) next rfl rfl loaded there).imp fun t ⟨course, _⟩ => ?_
    exact ⟨congrArg Course.addr course, congrArg Course.op course⟩
  · refine (descriptorQueued_joins h why d).imp fun t ⟨queue, _⟩ => ?_
    rw [queue]
    simp
  · refine (operationTimeout_faults run first op).imp fun t ⟨course, _⟩ => ?_
    exact ⟨congrArg Course.st course, congrArg Course.fault course, congrArg Course.faults course⟩
  · refine (sequencerFaultReinit_restarts halted serves h).imp fun t ⟨course, _⟩ => ?_
    exact ⟨congrArg Course.st course, congrArg Course.addr course, congrArg Course.fault course⟩
  · refine (bankSwitch_more (.inl offline) pending more).imp fun t e => ?_
    subst e
    refine ⟨?_, ?_, ?_, fun b hb => by rw [State.takeBank_seq, if_neg hb]⟩ <;> rw [State.takeBank_seq, if_pos rfl]
    exact offline

end Sys2Proof.Machine
end

section
/-! SUPPORT. The Chorus pool (spec/07 R254, R259 to R264, R270, R279; spec/01 R39): what the operations that its commands share leave of an
engine, of an actuator's request and of the pool's events. -/

namespace Sys2Proof.Machine

/-! ## The pool after the shared operations -/

theorem State.eng_of_chorus {s t : State} (h : t.chorus = s.chorus) (e : EngId) : t.eng e = s.eng e := by
  rw [State.eng, h, State.eng]

theorem State.pool_of_chorus {s t : State} (h : t.chorus = s.chorus) (a : ActId) : t.pool a = s.pool a := by
  rw [State.pool, h, State.pool]

@[simp] theorem State.raiseEng_eng (e : EngId) (n : Nat) (f : EngId) (s : State) :
    (s.raiseEng e n).eng f = if f = e then { s.eng e with events := setBit (s.eng e).events n } else s.eng f :=
  (State.eng_of_chorus (State.emit_chorus ..) f).trans (State.modEng_eng ..)

@[simp] theorem State.raiseEng_pool (e : EngId) (n : Nat) (a : ActId) (s : State) : (s.raiseEng e n).pool a = s.pool a :=
  State.pool_of_chorus (State.emit_chorus ..) a

@[simp] theorem State.raisePool_eng (n : Nat) (e : EngId) (s : State) : (s.raisePool n).eng e = s.eng e :=
  State.eng_of_chorus (State.emit_chorus ..) e

@[simp] theorem State.raisePool_pool (n : Nat) (a : ActId) (s : State) : (s.raisePool n).pool a = s.pool a :=
  State.pool_of_chorus (State.emit_chorus ..) a

@[simp] theorem State.raisePool_now (n : Nat) (s : State) : (s.raisePool n).now = s.now :=
  (State.raisePool_moves n s).only .now (by decide)

theorem State.raisePool_event {n : Nat} (h : n < 3) (s : State) : (s.raisePool n).chorus.events.getLsbD n = true := by
  rw [State.raisePool_chorus]
  exact setBit_get _ n h

@[simp] theorem State.waitAgain_eng (a : ActId) (e : EngId) (s : State) : (s.waitAgain a).eng e = s.eng e := rfl

@[simp] theorem State.bind_eng (e : EngId) (a : ActId) (r : BindReq) (f : EngId) (s : State) : (s.bind e a r).eng f =
    if f = e then { s.eng e with
      st := .bound, act := a, cls := r.served, boundAt := s.now, window := [], offsets := [], sessions := satAdd 65535 (s.eng e).sessions 1 }
    else s.eng f :=
  State.modEng_eng ..

@[simp] theorem State.bind_pool (e : EngId) (a : ActId) (r : BindReq) (b : ActId) (s : State) : (s.bind e a r).pool b =
    if b = a then { s.pool a with req := some { r with grantedAt := some s.now } } else s.pool b :=
  State.modPool_pool ..

/-! ## The request that is chosen (R261 to R263) -/

theorem oldest_mem {l : List (ActId × BindReq)} {x : ActId × BindReq} (h : oldest l = some x) : x ∈ l := by
  induction l generalizing x with
  | nil => cases h
  | cons y l ih =>
    rw [oldest] at h
    cases later : oldest l with
    | none =>
      rw [later] at h
      exact Option.some.inj h ▸ List.mem_cons_self
    | some z =>
      rw [later] at h
      obtain rfl := Option.some.inj h
      split
      · exact List.mem_cons_self
      · exact List.mem_cons_of_mem y (ih later)

theorem State.waitingReq_of_oldest {s : State} {c : OpClass} {ready : Bool} {a : ActId} {r : BindReq}
    (h : oldest (s.waitingOf c ready) = some (a, r)) : s.waitingReq a = some r := by
  obtain ⟨b, -, hb⟩ := List.mem_filterMap.mp (oldest_mem h)
  split at hb
  next q waits =>
    split at hb
    · cases hb
      exact waits
    · cases hb
  next => cases hb

/-- Only a request that waits is chosen. -/
theorem State.waitingReq_of_chooseReq {s : State} {ready : Bool} {a : ActId} {r : BindReq} (h : s.chooseReq ready = some (a, r)) :
    s.waitingReq a = some r := by
  have first {c : OpClass} {x : ActId × BindReq} (chosen : oldest (s.waitingOf c ready) = some x) (e : some x = some (a, r)) :
      s.waitingReq a = some r :=
    State.waitingReq_of_oldest (chosen.trans e)
  simp only [State.chooseReq] at h
  split at h
  next x y hf hb =>
    split at h
    · exact first hb h
    · exact first hf h
  next x hf _ => exact first hf h
  next y _ hb =>
    split at h
    · exact first hb h
    · exact State.waitingReq_of_oldest h
  next => exact State.waitingReq_of_oldest h

theorem State.req_of_waitingReq {s : State} {a : ActId} {r : BindReq} (h : s.waitingReq a = some r) : (s.pool a).req = some r := by
  unfold State.waitingReq at h
  split at h
  next q asked =>
    split at h
    · cases h
    · exact asked.trans h
  next => cases h

/-! ## What the grants leave (R263, R270) -/

/-- What a binding request asks for, and how long it has asked (R259 to R262): all but the read it is for and its grant. -/
def BindReq.terms (r : BindReq) : OpClass × Nat × Bool × Option Nat × Bool := (r.cls, r.at_, r.promoted, r.readyAt, r.alarmed)

/-- The registers of an engine that neither a binding nor recovery work given to it sets: its captures, its counters of them, its events,
its faults and its marks. -/
def Eng.kept (x : Eng) : Eng :=
  { x with
    st := .free, act := 0, cls := 0, sessions := 0, recAt := none, work := none, boundAt := 0, window := [], offsets := [] }

theorem Eng.record_of_kept {x y : Eng} (h : x.kept = y.kept) : x.slots = y.slots ∧ x.recovered = y.recovered ∧ x.events = y.events :=
  ⟨(congrArg Eng.slots h :), (congrArg Eng.recovered h :), (congrArg Eng.events h :)⟩

theorem State.modEng_kept {g : Eng → Eng} (hg : ∀ x, (g x).kept = x.kept) (e f : EngId) (s : State) :
    ((s.modEng e g).eng f).kept = (s.eng f).kept := by
  rw [State.modEng_eng]
  split
  next same => rw [same, hg]
  next => rfl

/-- One state may follow another by grants of free engines, to requests and to recovery work. -/
structure State.Grants (s t : State) : Prop where
  /-- an engine that is not free, or is due to be gated, is left as it is -/
  busy : ∀ e, ((s.eng e).st = .free → (s.eng e).gateDue = true) → t.eng e = s.eng e
  serves : ∀ e, (t.eng e).st.serves = (s.eng e).st.serves
  kept : ∀ e, (t.eng e).kept = (s.eng e).kept
  terms : ∀ a, (t.pool a).req.map BindReq.terms = (s.pool a).req.map BindReq.terms
  events : t.chorus.events = s.chorus.events

theorem State.Grants.refl (s : State) : s.Grants s := ⟨fun _ _ => rfl, fun _ => rfl, fun _ => rfl, fun _ => rfl, rfl⟩

theorem State.Grants.trans {s t u : State} (h : s.Grants t) (k : t.Grants u) : s.Grants u where
  busy e b := (k.busy e (by rwa [h.busy e b])).trans (h.busy e b)
  serves e := (k.serves e).trans (h.serves e)
  kept e := (k.kept e).trans (h.kept e)
  terms a := (k.terms a).trans (h.terms a)
  events := k.events.trans h.events

/-- A free engine, not due to be gated, is put to use. -/
theorem State.Grants.of_engine {s t : State} {e : EngId} (free : (s.eng e).st = .free) (stays : (s.eng e).gateDue = false)
    (others : ∀ f, f ≠ e → t.eng f = s.eng f) (serves : (t.eng e).st.serves = true) (kept : (t.eng e).kept = (s.eng e).kept)
    (terms : ∀ a, (t.pool a).req.map BindReq.terms = (s.pool a).req.map BindReq.terms) (events : t.chorus.events = s.chorus.events) :
    s.Grants t where
  busy f b := others f fun same => by
    subst same
    rw [b free] at stays
    cases stays
  serves f := by
    by_cases same : f = e
    · subst same
      rw [serves, free]
      rfl
    · rw [others f same]
  kept f := by
    by_cases same : f = e
    · exact same ▸ kept
    · rw [others f same]
  terms := terms
  events := events

theorem State.bind_grants {s : State} {e : EngId} {a : ActId} {r : BindReq} (free : (s.eng e).st = .free)
    (stays : (s.eng e).gateDue = false) (asked : (s.pool a).req = some r) : s.Grants (s.bind e a r) := by
  refine .of_engine free stays (fun f other => by rw [State.bind_eng, if_neg other]) ?_ ?_ (fun b => ?_) rfl
  · rw [State.bind_eng, if_pos rfl]
    rfl
  · rw [State.bind_eng, if_pos rfl]
    rfl
  · rw [State.bind_pool]
    split
    next same =>
      rw [same, asked]
      rfl
    next => rfl

theorem State.grantLoop_grants (n : Nat) (s : State) : s.Grants (s.grantLoop n) := by
  induction n generalizing s with
  | zero => exact .refl s
  | succ n ih =>
    unfold State.grantLoop
    split
    · split
      next e a r found chosen =>
        obtain ⟨free, stays⟩ : (s.eng e).st = .free ∧ (s.eng e).gateDue = false := by simpa using List.find?_some found
        exact (State.bind_grants free stays (State.req_of_waitingReq (State.waitingReq_of_chooseReq chosen))).trans (ih _)
      next => exact .refl s
    · exact .refl s

theorem State.takeRecovery_grants (s : State) : s.Grants s.takeRecovery := by
  refine State.each_inv (P := s.Grants) (fun e u granted => granted.trans ?_) _ (.refl s)
  split
  next idle =>
    split
    · refine .of_engine idle.1 idle.2 (fun f other => by rw [State.modEng_eng, if_neg other]) ?_ ?_ (fun _ => rfl) rfl
      · rw [State.modEng_eng, if_pos rfl]
        rfl
      · rw [State.modEng_eng, if_pos rfl]
        rfl
    · exact .refl u
  next => exact .refl u

theorem State.grant_grants (s : State) : s.Grants s.grant := (State.grantLoop_grants 24 s).trans (State.takeRecovery_grants _)

/-! ## A session cut short, a limit met, a sector that no one waits for -/

theorem State.cutSession_bound {s : State} {e : EngId} (h : (s.eng e).st = .bound) (st : EngSt) :
    s.cutSession e st = (s.modEng e fun y => { y with st := st, recAt := none, work := none }).waitAgain (s.eng e).act := by
  simp [State.cutSession, State.when, h]

theorem State.limitEngines_met {s : State}
    (h : ((fins 24).filter fun e => (s.eng e).st != .gated && !(s.eng e).gateDue).length = s.enabledEngines) : s.limitEngines = s.grant := by
  simp only [State.limitEngines, h, Nat.sub_self]
  rfl

theorem State.deliver_unclaimed {s : State} {d : Decoded} (asked : s.pair.peerReqs = []) (unclaimed : d.ctx = none) : s.deliver d = s := by
  simp [State.deliver, asked, unclaimed]

end Sys2Proof.Machine
end

section
/-! SUPPORT. The commands of the Chorus pool (spec/07 R257 to R264, R270 to R272, R278 to R282; spec/01 R24, R39). -/

namespace Sys2Proof.Machine

/-! ## Binding (R259 to R264, R278) -/

/-- A head and a position are followed, and no write runs (R262). -/
def State.readyFor (s : State) (a : ActId) (want : Option (Fin 12 × Int)) : Bool :=
  (match want with
    | some w => (s.act a).region == .follow && (s.act a).head == w.1 && (s.act a).target == w.2
    | none => false) &&
  (match (s.seq a).op with
    | some d => !d.write
    | none => true)

theorem State.isReady_eq (s : State) (a : ActId) : s.isReady a = s.readyFor a ((s.pool a).req.bind BindReq.want) := rfl

@[simp] theorem State.modPool_readyFor (a : ActId) (f : ActPool → ActPool) (b : ActId) (want : Option (Fin 12 × Int)) (s : State) :
    (s.modPool a f).readyFor b want = s.readyFor b want := rfl

@[simp] theorem State.modPool_readWant (a : ActId) (f : ActPool → ActPool) (b : ActId) (s : State) :
    (s.modPool a f).readWant b = s.readWant b := rfl

/-- A request as it is made: it is ready at once where its read's track is followed. -/
theorem State.requestEngine_terms {s : State} {a : ActId} (unasked : (s.pool a).req = none) (cls : OpClass) (n : Nat) :
    ((s.requestEngine a cls n).pool a).req.map BindReq.terms =
      some (cls, n, false, (if s.readyFor a (s.readWant a) then some s.now else none), false) := by
  unfold State.requestEngine
  rw [unasked]
  refine ((State.grant_grants _).terms a).trans ?_
  simp [State.noteRequest, State.isReady_eq, BindReq.terms]

/-- With no engine free the victim's engine goes to the chosen ready request. -/
theorem engineReclaim_takes {s : State} {a : ActId} {r : BindReq} {e : EngId}
    (busy : ((fins 24).any fun f => (s.eng f).st == .free && !(s.eng f).gateDue) = false) (enabled : s.sessionsHeld ≤ s.enabledEngines)
    (chosen : s.chooseReq true = some (a, r)) (victim : s.victim r.served = some e) : Does .engineReclaim s fun t =>
      (t.eng e).st = .bound ∧ (t.eng e).act = a ∧ (t.eng e).cls = r.served ∧ (t.eng e).events.getLsbD 0 = true ∧
      (t.eng e).sessions = satAdd 65535 (s.eng e).sessions 1 ∧ t.seqs = s.seqs ∧ ∀ f, f ≠ e → t.eng f = s.eng f := by
  have run : exec .engineReclaim s = .next (((s.raiseEng e 0).waitAgain (s.eng e).act).bind e a r) := by
    show execEngineReclaim s = _
    simp [execEngineReclaim, Nat.not_lt.mpr enabled, busy, chosen, victim]
  have moves : s.Moves [.aon, .book, .chorus] (((s.raiseEng e 0).waitAgain (s.eng e).act).bind e a r) :=
    Moves.op (State.bind_moves _ _ _ _) (by decide) (Moves.op (State.waitAgain_moves _ _) (by decide) (State.raiseEng_moves e 0 s))
  refine ⟨_, run, ?_, ?_, ?_, ?_, ?_, moves.only .seqs (by decide), fun f other => ?_⟩
  · simp
  · simp
  · simp
  · simpa using setBit_get (s.eng e).events 0 (by decide)
  · simp
  · simp [other]

theorem backgroundPromotion_promotes {s : State} {a : ActId} {r : BindReq} (waits : s.waitingReq a = some r) (background : r.cls = 2)
    (first : r.promoted = false) : Does (.backgroundPromotion a) s fun t =>
      (t.pool a).req.map BindReq.terms = some (r.cls, r.at_, true, r.readyAt, r.alarmed) ∧ t.chorus.events.getLsbD 1 = true ∧
      r.at_ + s.chorus.params.backgroundAge * Config.ms ≤ t.now := by
  have run : exec (.backgroundPromotion a) s = .next (((s.at_ (r.at_ + s.chorus.params.backgroundAge * Config.ms)).modPool a fun x =>
      { x with req := some { r with promoted := true } }).raisePool 1).grant := by
    show execBackgroundPromotion a s = _
    simp [execBackgroundPromotion, waits, background, first]
  refine ⟨_, run, ((State.grant_grants _).terms a).trans ?_, ?_, ?_⟩
  · simp [BindReq.terms]
  · rw [(State.grant_grants _).events]
    exact State.raisePool_event (by decide) _
  · rw [show (State.grant _).now = _ from (State.grant_moves _).only .now (by decide), State.raisePool_now]
    exact Nat.le_max_right _ _

theorem waitAlarm_alarms {s : State} {a : ActId} {r : BindReq} {n : Nat} (waits : s.waitingReq a = some r) (ready : r.readyAt = some n)
    (first : r.alarmed = false) : Does (.waitAlarm a) s fun t =>
      (t.pool a).req = some { r with alarmed := true } ∧ t.chorus.events.getLsbD 2 = true ∧
      n + s.chorus.params.waitAlarm * Config.ms ≤ t.now := by
  have run : exec (.waitAlarm a) s = .next (((s.at_ (n + s.chorus.params.waitAlarm * Config.ms)).modPool a fun x =>
      { x with req := some { r with alarmed := true } }).raisePool 2) := by
    show execWaitAlarm a s = _
    simp [execWaitAlarm, waits, ready, first]
  refine ⟨_, run, ?_, State.raisePool_event (by decide) _, ?_⟩
  · simp
  · rw [State.raisePool_now]
    exact Nat.le_max_right _ _

/-! ## The first pass of a sector (R254 to R258) -/

/-- A sector as it is captured from the read that an engine is at. -/
def State.captureOf (s : State) (e : EngId) (n : Nat) (d : Descriptor) : Capture :=
  let x := s.eng e
  let found := x.offsets.filter fun o => o.sector == n
  { act := x.act, head := d.head, zone := d.zone, track := d.track, sector := n
    address := addressWord (portOf x.act) (globalHead (sideOf x.act) d.head) d.track n
    offsets := found, samples := found.flatMap x.samplesAt, cls := d.cls, ctx := d.ctx, at_ := s.now, step := 1, reread := d.reread }

section
variable {s : State} {e : EngId} {n : Nat} {d : Descriptor} (reading : (s.eng e).st = .reading)
  (op : (s.seq (s.eng e).act).op = some d) (read : d.write = false) (low : d.first ≤ n) (high : n < d.first + d.count)
include reading op read low high

/-- A sector that fails outside a break is captured in a free slot of the engine. -/
theorem sectorDecoded_captures (quiet : (s.acal (s.eng e).act).brk = none) (room : (s.eng e).slots.length < 64) :
    Does (.sectorDecoded e n false) s fun t =>
      t.eng e = { s.eng e with slots := (s.eng e).slots ++ [s.captureOf e n d], captures := satAdd 65535 (s.eng e).captures 1 } ∧
      t.seqs = s.seqs := by
  have run : exec (.sectorDecoded e n false) s = .next (s.modEng e fun y =>
      { y with slots := y.slots ++ [s.captureOf e n d], captures := satAdd 65535 y.captures 1 }).takeRecovery := by
    show execSectorDecoded e n false s = _
    simp [execSectorDecoded, State.captureOf, reading, op, read, Nat.not_lt.mpr low, Nat.not_le.mpr high, quiet, Nat.not_le.mpr room]
  refine ⟨_, run, ((State.takeRecovery_grants _).busy e fun free => ?_).trans (by rw [State.modEng_eng, if_pos rfl]),
    (State.takeRecovery_moves _).only .seqs (by decide)⟩
  rw [State.modEng_eng, if_pos rfl] at free
  exact absurd (reading.symm.trans free) (by decide)

/-- A sector that decodes into a full reservation is to be taken again. -/
theorem sectorDecoded_overflows (full : 8 ≤ s.stagedOf e) : Does (.sectorDecoded e n true) s fun t =>
    n ∈ (t.seq (s.eng e).act).lost ∧ n ∉ (t.seq (s.eng e).act).done ∧ (t.eng e).events.getLsbD 6 = true ∧
    t.chorus.staging = s.chorus.staging := by
  have run : exec (.sectorDecoded e n true) s = .next ((s.loseSector (s.eng e).act n).raiseEng e 6) := by
    show execSectorDecoded e n true s = _
    simp [execSectorDecoded, reading, op, read, Nat.not_lt.mpr low, Nat.not_le.mpr high, full]
  have lost : ((s.loseSector (s.eng e).act n).raiseEng e 6).seq (s.eng e).act = (s.loseSector (s.eng e).act n).seq (s.eng e).act :=
    (State.raiseEng_moves e 6 _).seq (by decide) _
  refine ⟨_, run, ?_, ?_, ?_, ?_⟩
  · rw [lost, State.loseSector, State.modSeq_seq, if_pos rfl]
    by_cases known : n ∈ (s.seq (s.eng e).act).lost <;> simp [known]
  · rw [lost, State.loseSector, State.modSeq_seq, if_pos rfl]
    simp
  · rw [State.raiseEng_eng, if_pos rfl]
    exact setBit_get _ 6 (by decide)
  · rw [State.raiseEng_chorus]
    rfl

end

/-! ## Recovery (R270 to R272) -/

/-- What an engine does after a step leaves every capture and every count of them. -/
theorem State.afterStep_kept (e f : EngId) (s : State) : ((s.afterStep e).eng f).kept = (s.eng f).kept := by
  have freed (u : State) : ((u.modEng e fun y => { y with st := .free, recAt := none }).grant.eng f).kept = (u.eng f).kept :=
    ((State.grant_grants _).kept f).trans (State.modEng_kept (fun _ => by rfl) e f u)
  unfold State.afterStep
  extract_lets t
  have ended : (t.eng f).kept = (s.eng f).kept := State.modEng_kept (fun _ => by rfl) e f s
  split
  · split
    · exact (State.modEng_kept (fun _ => by rfl) e f t).trans ended
    · exact (freed t).trans ended
  · exact (freed t).trans ended

theorem State.freeCapture_slots (f : EngId) (i : Nat) (s : State) : ((s.freeCapture f i).eng f).slots = dropAt i (s.eng f).slots ∧
    ((s.freeCapture f i).eng f).recovered = (s.eng f).recovered := by
  have place (g : Eng → Eng) (u : State) : (u.modChorus fun c => { c with engs := c.engs.map g }).eng f = g (u.eng f) :=
    Vector.getElem_map g f.isLt
  rw [State.freeCapture, place, State.modEng_eng, if_pos rfl]
  split
  · split <;> exact ⟨rfl, rfl⟩
  · exact ⟨rfl, rfl⟩

section
variable {s : State} {e f : EngId} {i : Nat} {k : Capture} (recovers : (s.eng e).st = .recovery) (works : (s.eng e).work = some (f, i))
  (slot : (s.eng f).slots[i]? = some k)
include recovers works slot

theorem recoveryStep_next {n : Nat} (next : s.chorus.params.nextStep k.step = some n) : Does (.recoveryStep e false) s fun t =>
    (t.eng f).slots[i]?.map Capture.step = some n ∧ (t.eng f).slots.length = (s.eng f).slots.length := by
  have run : exec (.recoveryStep e false) s = .next ((s.modEng f fun x =>
      { x with slots := x.slots.zipIdx.map fun q => if q.2 = i then { q.1 with step := n } else q.1 }).afterStep e) := by
    show execRecoveryStep e false s = _
    simp [execRecoveryStep, recovers, works, slot, next]
  obtain ⟨slots, -⟩ := Eng.record_of_kept (State.afterStep_kept e f (s.modEng f fun x =>
      { x with slots := x.slots.zipIdx.map fun q => if q.2 = i then { q.1 with step := n } else q.1 }))
  refine ⟨_, run, ?_, ?_⟩
  · simp [slots, slot]
  · simp [slots]

/-- A sector that recovery decodes and no command waits for leaves its slot. -/
theorem recoveryStep_frees (unclaimed : k.ctx = none) (asked : s.pair.peerReqs = []) : Does (.recoveryStep e true) s fun t =>
    (t.eng f).slots = dropAt i (s.eng f).slots ∧ (t.eng f).recovered = satAdd 65535 (s.eng f).recovered 1 ∧
    (t.eng f).events.getLsbD 1 = true := by
  have run : exec (.recoveryStep e true) s = .next ((((s.freeCapture f i).raiseEng f 1).modEng f fun x =>
      { x with recovered := satAdd 65535 x.recovered 1 }).afterStep e) := by
    have unasked : (((s.freeCapture f i).raiseEng f 1).modEng f fun x =>
        { x with recovered := satAdd 65535 x.recovered 1 }).pair.peerReqs = [] :=
      (congrArg Pair.peerReqs ((State.raiseEng_moves f 1 (s.freeCapture f i)).only .pair (by decide))).trans asked
    show execRecoveryStep e true s = _
    simp only [execRecoveryStep, recovers, works, slot, if_true]
    rw [State.deliver_unclaimed unasked unclaimed]
  obtain ⟨slots, recovered, events⟩ := Eng.record_of_kept (State.afterStep_kept e f (((s.freeCapture f i).raiseEng f 1).modEng f fun x =>
      { x with recovered := satAdd 65535 x.recovered 1 }))
  obtain ⟨freed, counted⟩ := s.freeCapture_slots f i
  refine ⟨_, run, ?_, ?_, ?_⟩
  · simp [slots, freed]
  · simp [recovered, counted]
  · rw [events]
    simpa using setBit_get ((s.freeCapture f i).eng f).events 1 (by decide)

end

theorem recoveryBudgetExpiry_ends {s : State} {e : EngId} {n : Nat} (recovers : (s.eng e).st = .recovery) (began : (s.eng e).recAt = some n) :
    Does (.recoveryBudgetExpiry e) s fun t => t.eng e = { s.eng e with recAt := none } ∧
      n + s.chorus.params.recoveryBudget * Config.us ≤ t.now := by
  have run : exec (.recoveryBudgetExpiry e) s = .next ((s.at_ (n + s.chorus.params.recoveryBudget * Config.us)).modEng e fun x =>
      { x with recAt := none }) := by
    show execRecoveryBudgetExpiry e s = _
    simp [execRecoveryBudgetExpiry, recovers, began]
  exact ⟨_, run, by simp, Nat.le_max_right _ _⟩

/-! ## READ_SPILL (spec/01 R24) -/

theorem readSpill_spills {s : State} {c : Nat} (stalls : (s.chorus.staging.any fun d => d.ctx == some c && d.ok && !d.spilled) = true) :
    Does (.readSpill c) s fun t => (∀ d ∈ t.chorus.staging, d.ctx = some c → d.spilled = true) ∧
      t.chorus.staging.length = s.chorus.staging.length ∧ t.chorus.engs = s.chorus.engs ∧
      (s.stalled c).foldl (fun n d => min n d.at_) s.now + 64 * Config.us ≤ t.now := by
  have stalled : s.stalled c ≠ [] := by
    obtain ⟨d, staged, waits⟩ := List.any_eq_true.mp stalls
    exact List.ne_nil_of_mem (List.mem_filter.mpr ⟨staged, waits⟩)
  refine ⟨_, congrArg Host.Outcome.next (if_pos stalled), fun d staged asks => ?_, ?_, rfl, Nat.le_max_right _ _⟩
  · obtain ⟨x, -, rfl⟩ := List.mem_map.mp staged
    by_cases own : x.ctx = some c <;> simp_all
  · exact List.length_map ..

/-! ## Engines out of and into service (R39, R279 to R282) -/

theorem State.gate_free {s : State} {e : EngId} (free : (s.eng e).st = .free) : s.gate e =
    ((s.raisePool 0).modEng e fun y => { y with st := .gated, mark := false, gateDue := false, recAt := none, work := none }).modChorus
      fun c => { c with gatedOrder := e :: c.gatedOrder.filter fun f => f != e } := by
  simp only [State.gate, free]
  rfl

theorem engineGated_gates {s : State} {e : EngId} (free : (s.eng e).st = .free) (due : (s.eng e).gateDue = true) :
    Does (.engineGated e) s fun t =>
      t.eng e = { s.eng e with st := .gated, mark := false, gateDue := false, recAt := none, work := none } ∧
      t.chorus.gatedOrder.head? = some e ∧ t.chorus.events.getLsbD 0 = true := by
  have run : exec (.engineGated e) s = .next (s.gate e) := by
    show execEngineGated e s = _
    simp [execEngineGated, free, due]
  rw [State.gate_free free] at run
  refine ⟨_, run, ?_, rfl, State.raisePool_event (by decide) s⟩
  exact (State.modEng_eng ..).trans (by simp)

theorem State.engineFaults_serving {s : State} {e : EngId} (serves : (s.eng e).st.serves = true) : ∃ again : Bool,
    (again = true ↔ ∃ n, (s.eng e).faultAt = some n ∧ s.now ≤ n + 60 * Config.sec) ∧
    s.engineFaults e = ((((s.cutSession e .selfTest).modEng e fun y => { y with
      faultAt := some s.now, refault := again }).raiseEng e 4).raisePool 0).grant := by
  refine ⟨_, ?_, if_pos serves⟩
  cases (s.eng e).faultAt <;> simp

/-- An engine that faults with a session bound to it runs its self-test. -/
theorem engineFault_tests {s : State} {e : EngId} (bound : (s.eng e).st = .bound) : Does (.engineFault e) s fun t =>
    (t.eng e).st = .selfTest ∧ (t.eng e).faultAt = some s.now ∧
    ((t.eng e).refault = true ↔ ∃ n, (s.eng e).faultAt = some n ∧ s.now ≤ n + 60 * Config.sec) ∧
    (t.eng e).events.getLsbD 4 = true ∧ t.chorus.events.getLsbD 0 = true := by
  have serves : (s.eng e).st.serves = true := by
    rw [bound]
    rfl
  obtain ⟨again, soon, faults⟩ := State.engineFaults_serving serves
  rw [State.cutSession_bound bound] at faults
  have grants := State.grant_grants (((((s.modEng e fun y => { y with st := .selfTest, recAt := none, work := none }).waitAgain
    (s.eng e).act).modEng e fun y => { y with faultAt := some s.now, refault := again }).raiseEng e 4).raisePool 0)
  have eng := grants.busy e (by simp)
  rw [← faults] at grants eng
  refine ⟨_, rfl, ?_, ?_, ?_, ?_, ?_⟩
  · simp [eng]
  · simp [eng]
  · simp [eng, soon]
  · simpa [eng] using setBit_get (s.eng e).events 4 (by decide)
  · rw [grants.events]
    exact State.raisePool_event (by decide) _

theorem engineSelfTestDone_refaulted {s : State} {e : EngId} (tests : (s.eng e).st = .selfTest) (again : (s.eng e).refault = true) :
    Does (.engineSelfTestDone e true) s fun t => (t.eng e).st = .faulted ∧ ∀ f, f ≠ e → t.eng f = s.eng f := by
  have run : exec (.engineSelfTestDone e true) s = .next (s.modEng e fun x => { x with st := .faulted, refault := false }) := by
    show execEngineSelfTestDone e true s = _
    simp [execEngineSelfTestDone, State.selfTestEnd, tests, again]
  refine ⟨_, run, ?_, fun f other => ?_⟩
  · simp
  · simp [other]

theorem engineSelfTestDone_serves {s : State} {e : EngId} (tests : (s.eng e).st = .selfTest) (first : (s.eng e).refault = false)
    (enabled : ((fins 24).filter fun f => (s.eng f).st != .gated && !(s.eng f).gateDue).length = s.enabledEngines) :
    Does (.engineSelfTestDone e true) s fun t => (t.eng e).st.serves = true ∧ t.chorus.events.getLsbD 0 = true := by
  have moves : s.Moves [.aon, .book, .chorus] ((s.modEng e fun x => { x with st := .free }).raisePool 0) :=
    Moves.op (State.raisePool_moves _ _) (by decide) (Moves.op (State.modEng_moves _ _ _) (by decide) (Moves.refl _ s))
  have run : exec (.engineSelfTestDone e true) s = .next ((s.modEng e fun x => { x with st := .free }).raisePool 0).limitEngines := by
    show execEngineSelfTestDone e true s = _
    simp [execEngineSelfTestDone, State.selfTestEnd, tests, first]
  have eng (f : EngId) : ((s.modEng e fun x => { x with st := .free }).raisePool 0).eng f =
      if f = e then { s.eng e with st := .free } else s.eng f := by simp
  have event : ((s.modEng e fun x => { x with st := .free }).raisePool 0).chorus.events.getLsbD 0 = true :=
    State.raisePool_event (by decide) _
  generalize (s.modEng e fun x => { x with st := .free }).raisePool 0 = u at moves run eng event
  have up : (fun f => (u.eng f).st != .gated && !(u.eng f).gateDue) = fun f => (s.eng f).st != .gated && !(s.eng f).gateDue := by
    funext f
    rw [eng]
    split
    next same =>
      rw [same, tests]
      rfl
    next => rfl
  have met : u.limitEngines = u.grant := by
    apply State.limitEngines_met
    rw [up, enabled, State.enabledEngines, State.enabledEngines, show u.power = s.power from moves.only .power (by decide),
      show u.therm = s.therm from moves.only .therm (by decide)]
  have grants := u.grant_grants
  refine ⟨_, run, ?_, ?_⟩
  · rw [met, grants.serves, eng, if_pos rfl]
    rfl
  · rw [met, grants.events, event]

theorem engineSelfTestDone_fails {s : State} {e : EngId} (tests : (s.eng e).st = .selfTest) :
    Does (.engineSelfTestDone e false) s fun t => (t.eng e).st = .faulted ∧ (t.eng e).events.getLsbD 5 = true ∧
      ∀ f, f ≠ e → t.eng f = s.eng f := by
  have run : exec (.engineSelfTestDone e false) s =
      .next ((s.modEng e fun x => { x with st := .faulted, refault := false }).raiseEng e 5) := by
    show execEngineSelfTestDone e false s = _
    simp [execEngineSelfTestDone, State.selfTestEnd, tests]
  refine ⟨_, run, ?_, ?_, fun f other => ?_⟩
  · simp
  · simpa using setBit_get (s.eng e).events 5 (by decide)
  · simp [other]

/-! ## The statement on the Chorus pool -/

/-- Settles O12: each clause is the lemma of its command above. -/
theorem chorusCommands : Obligations.ChorusCommands := by
  refine ⟨fun s a cls h => ?_, fun s a r e busy enabled chosen victim => engineReclaim_takes busy enabled chosen victim,
    fun s a r waits background first => backgroundPromotion_promotes waits background first,
    fun s a r n waits ready first => waitAlarm_alarms waits ready first,
    fun s e n d reading op read low high quiet room => ?_,
    fun s e n d reading op read low high full => sectorDecoded_overflows reading op read low high full,
    fun s e f i k n recovers works slot next => recoveryStep_next recovers works slot next,
    fun s e f i k recovers works slot unclaimed asked => recoveryStep_frees recovers works slot unclaimed asked,
    fun s e n recovers began => ?_, fun s c stalls => readSpill_spills stalls,
    fun s e free due => ?_, fun s e bound _ => ?_, fun s e n bound before soon => ?_,
    fun s e tests again => engineSelfTestDone_refaulted tests again,
    fun s e tests first _ enabled => engineSelfTestDone_serves tests first enabled, fun s e tests => engineSelfTestDone_fails tests⟩
  · exact ⟨_, rfl, State.requestEngine_terms h _ _, (State.requestEngine_moves ..).only .seqs (by decide),
      (State.requestEngine_moves ..).only .acts (by decide)⟩
  · refine (sectorDecoded_captures reading op read low high quiet room).imp fun t ⟨eng, seqs⟩ => ?_
    rw [eng]
    refine ⟨?_, ?_, rfl, seqs⟩
    · simp
    · simp [State.captureOf]
  · refine (recoveryBudgetExpiry_ends recovers began).imp fun t ⟨eng, time⟩ => ?_
    rw [eng]
    exact ⟨rfl, rfl, recovers, time⟩
  · refine (engineGated_gates free due).imp fun t ⟨eng, order, told⟩ => ?_
    rw [eng]
    exact ⟨rfl, rfl, rfl, order, told⟩
  · exact (engineFault_tests bound).imp fun t ⟨st, noted, _, told, pool⟩ => ⟨st, noted, told, pool⟩
  · exact (engineFault_tests bound).imp fun t ⟨st, _, again, told, _⟩ => ⟨st, again.mpr ⟨n, before, soon⟩, told⟩

end Sys2Proof.Machine
end

section
/-! SUPPORT. Calibration state (spec/08 R295 to R309): what the operations that the calibration commands share leave of it. -/

namespace Sys2Proof.Machine

/-! ## An actuator's calibration state after the shared operations -/

theorem State.Moves.acal {l : List Part} {s t : State} (m : s.Moves l t) (h : Part.actCals ∉ l) (a : ActId) : t.acal a = s.acal a := by
  have actCals : t.actCals = s.actCals := m.only .actCals h
  rw [State.acal, actCals, State.acal]

theorem State.Moves.pcal {l : List Part} {s t : State} (m : s.Moves l t) (h : Part.portCals ∉ l) (p : PortId) : t.pcal p = s.pcal p := by
  have portCals : t.portCals = s.portCals := m.only .portCals h
  rw [State.pcal, portCals, State.pcal]

@[simp] theorem State.answered_acal (p : PortId) (r : Request) (a : ActId) (s : State) : (s.answered p r).acal a = s.acal a := rfl

@[simp] theorem State.cancelGates_acal (a : ActId) (r w : Bool) (b : ActId) (s : State) : (s.cancelGates a r w).acal b = s.acal b :=
  (State.cancelGates_moves a r w s).acal (by decide) b

@[simp] theorem State.seqToIdle_acal (a : ActId) (r : Bool) (b : ActId) (s : State) : (s.seqToIdle a r).acal b = s.acal b :=
  (State.seqToIdle_moves a r s).acal (by decide) b

@[simp] theorem State.endSession_acal (a b : ActId) (s : State) : (s.endSession a).acal b = s.acal b :=
  (State.endSession_moves a s).acal (by decide) b

@[simp] theorem State.beginPass_acal (a : ActId) (b : Break) (n : Nat) (c : ActId) (s : State) : (s.beginPass a b n).acal c = s.acal c :=
  (State.beginPass_moves a b n s).acal (by decide) c

@[simp] theorem State.complete_acal (c : Nat) (r : Cpl) (a : ActId) (s : State) : (s.complete c r).acal a = s.acal a :=
  (State.complete_moves c r s).acal (by decide) a

@[simp] theorem State.raiseCal_seqs (a : ActId) (n : Nat) (d : List (BitVec 256)) (s : State) : (s.raiseCal a n d).seqs = s.seqs :=
  (State.raiseCal_moves a n d s).only .seqs (by decide)

/-- A change of one element that a view does not see leaves the view of the vector. -/
theorem upd_map {α β : Type} {n : Nat} {f : α → α} {g : α → β} (h : ∀ x, g (f x) = g x) (v : Vector α n) (i : Fin n) :
    (upd v i f).map g = v.map g := by
  ext j hj
  have get := upd_get v i ⟨j, hj⟩ f
  simp only [Fin.getElem_fin] at get
  rw [Vector.getElem_map, Vector.getElem_map, get]
  split
  · exact h _
  · rfl

/-! ## Holds judged again (R299) -/

/-- A head's calibration without its hold. -/
def HeadCal.unheld (x : HeadCal) : HeadCal := { x with hold := false }

/-- An actuator's calibration state without the holds of its heads and without its events. -/
def ActCal.unheld (x : ActCal) : ActCal := { x with heads := x.heads.map HeadCal.unheld, events := 0 }

/-- One calibration state may follow another where holds are judged again: an event may be added, and none is lost. -/
structure ActCal.Judged (x y : ActCal) : Prop where
  unheld : y.unheld = x.unheld
  events : ∀ n, x.events.getLsbD n = true → y.events.getLsbD n = true

theorem ActCal.Judged.refl (x : ActCal) : x.Judged x := ⟨rfl, fun _ h => h⟩

theorem ActCal.Judged.trans {x y z : ActCal} (h : x.Judged y) (k : y.Judged z) : x.Judged z :=
  ⟨k.unheld.trans h.unheld, fun n e => k.events n (h.events n e)⟩

theorem ActCal.Judged.raised (x : ActCal) (n : Nat) : x.Judged { x with events := setBit x.events n } :=
  ⟨rfl, fun m => setBit_keep x.events n m⟩

theorem ActCal.Judged.held (x : ActCal) (h : Fin 12) (now : Bool) :
    x.Judged { x with heads := upd x.heads h fun y => { y with hold := now } } := 
  ⟨congrArg (fun v : Vector HeadCal 12 => { x.unheld with heads := v })
    (upd_map (f := fun y => { y with hold := now }) (g := HeadCal.unheld) (fun _ => rfl) x.heads h), fun _ e => e⟩

theorem ActCal.Judged.record {x y : ActCal} (h : x.Judged y) : y.brk = x.brk ∧ y.committed = x.committed :=
  ⟨(congrArg ActCal.brk h.unheld :), (congrArg ActCal.committed h.unheld :)⟩

theorem ActCal.Judged.head {x y : ActCal} (h : x.Judged y) (i : Fin 12) : y.heads[i].unheld = x.heads[i].unheld := by
  have heads : y.heads.map HeadCal.unheld = x.heads.map HeadCal.unheld := congrArg ActCal.heads h.unheld
  simpa using congrArg (fun v : Vector HeadCal 12 => v[i]) heads

theorem HeadCal.table_of_unheld {x y : HeadCal} (h : x.unheld = y.unheld) :
    x.entries = y.entries ∧ x.tCal = y.tCal ∧ x.failed = y.failed ∧ x.fails = y.fails :=
  ⟨(congrArg HeadCal.entries h :), (congrArg HeadCal.tCal h :), (congrArg HeadCal.failed h :), (congrArg HeadCal.fails h :)⟩

theorem State.noteHolds_judged (a b : ActId) (s : State) : (s.acal b).Judged ((s.noteHolds a).acal b) := by
  refine State.each_inv (P := fun t => (s.acal b).Judged (t.acal b)) (fun h u judged => judged.trans ?_) _ (.refl _)
  by_cases same : b = a
  · subst same
    simp only [State.modAcal_acal, State.when, if_true]
    split
    · rw [State.raiseCal_acal, if_pos rfl]
      exact (ActCal.Judged.raised _ 3).trans (.held _ h _)
    · exact .held _ h _
  · simp only [State.modAcal_acal, State.when, same, if_false]
    split
    · rw [State.raiseCal_acal, if_neg same]
      exact .refl _
    · exact .refl _

/-! ## Breaks closed and committed (R305 to R307) -/

theorem State.closeBreak_acal (a : ActId) (b : Break) (r : Nat) (s : State) : (s.closeBreak a b r).acal a = { s.acal a with
    brk := none, lastEnd := some s.now, lastMs := (s.now - b.at_) / Config.ms
    heads := upd (s.acal a).heads b.head fun h => { h with lastMs := (s.now - b.at_) / Config.ms } } := by
  unfold State.closeBreak
  split <;> simp

/-- The results of a triggered break, committed: T_cal is the break's temperature, and no failure in a row is left (R307). -/
theorem State.commitBreak_acal {a : ActId} {t : CalTable} {b : Break} (kind : b.kind = .triggered) (s : State) :
    ((s.commitBreak a t b).acal a).brk = none ∧ ((s.commitBreak a t b).acal a).committed = satAdd 65535 (s.acal a).committed 1 ∧
      ((s.commitBreak a t b).acal a).events.getLsbD 0 = true ∧ ((s.commitBreak a t b).acal a).heads[b.head].tCal = some b.tb ∧
      ((s.commitBreak a t b).acal a).heads[b.head].fails = 0 := by
  unfold State.commitBreak
  extract_lets changes taken dirty full told
  have judged := State.noteHolds_judged a a (told.closeBreak a b 0)
  rw [State.closeBreak_acal] at judged
  obtain ⟨brk, committed⟩ := judged.record
  obtain ⟨-, tCal, -, fails⟩ := HeadCal.table_of_unheld (judged.head b.head)
  have triggered : full = dirty := by simp [full, kind, State.when]
  have event : told.acal a = { dirty.acal a with events := setBit (dirty.acal a).events 0 } := by simp [told, triggered]
  have kept : (dirty.acal a).heads = (taken.acal a).heads ∧ (dirty.acal a).committed = (taken.acal a).committed := by
    simp [dirty, State.calDirty]
  simp only [upd_get, if_true, event, kept] at brk committed judged tCal fails
  rw [brk, committed, tCal, fails]
  refine ⟨rfl, by simp [taken], judged.events 0 (setBit_get _ 0 (by decide)), ?_, ?_⟩ <;> simp [taken, upd_get, -Fin.getElem_fin]

theorem State.abandonBreak_triggered {a : ActId} {b : Break} {s : State} (brk : (s.acal a).brk = some b) (kind : b.kind = .triggered) :
    (s.abandonBreak a).acal a = { s.acal a with
      brk := none, lastEnd := some s.now, abandoned := satAdd 255 (s.acal a).abandoned 1, lastMs := (s.now - b.at_) / Config.ms
      events := setBit (s.acal a).events 1
      heads := upd (s.acal a).heads b.head fun h => { h with
        abandoned := satAdd 65535 h.abandoned 1, keptReq := put b.zone.val b.reqAt h.keptReq, lastMs := (s.now - b.at_) / Config.ms } } := by
  simp [State.abandonBreak, brk, kind]

end Sys2Proof.Machine
end

section
/-! SUPPORT. The calibration commands (spec/08 R296 to R309, R313). -/

namespace Sys2Proof.Machine

/-! ## Breaks (R300 to R307) -/

/-- A break as it starts: before its first pass, its values those in force (R301, R305). -/
def State.newBreak (s : State) (a : ActId) (kind : BreakKind) (h : Fin 12) (z : Fin 32) (v : Five) : Break :=
  { head := h, zone := z, tb := s.tf (portOf a), pass := 1, at_ := s.now, reqAt := (((s.acal a).heads[h]).keptAt z.val).getD s.now
    kind := kind, base := v, chosen := v, failed := false, unwritten := [], begun := false }

/-- The break of the actuator that deviates most starts (R300). -/
theorem calibrationBreakStart_takes {s : State} {a : ActId} {kind : BreakKind} {h : Fin 12} {z : Fin 32} {n : Nat} {v : Five}
    (may : s.mayBreak a = true) (chosen : s.breakFor a = some (kind, h, z, n))
    (first : ((fins 64).any fun b => s.mayBreak b && decide (s.breakRank a < s.breakRank b)) = false)
    (values : s.headValues a h z (s.tf (portOf a)) = some v) : Does (.calibrationBreakStart a) s fun t =>
      (t.acal a).brk = some (s.newBreak a kind h z v) ∧ ∀ b, b ≠ a → t.acal b = s.acal b := by
  have run : exec (.calibrationBreakStart a) s = .next (((s.endSession a).modAcal a fun x => { x with
      brk := some (s.newBreak a kind h z v)
      heads := upd x.heads h fun y => { y with keptReq := y.keptReq.filter fun q => q.1 != z.val } }).beginPass a
        (s.newBreak a kind h z v) (s.newBreak a kind h z v).reqAt) := by
    show execCalibrationBreakStart a s = _
    simp only [execCalibrationBreakStart, may, chosen, first, values, Bool.false_eq_true, if_false]
    rfl
  refine ⟨_, run, ?_, fun b other => ?_⟩
  · simp
  · simp [other]

/-- The sequencer's operation, if any, ends with the pass. -/
def State.endPass (a : ActId) (s : State) : State := if (s.seq a).op.isSome then s.seqToIdle a false else s

@[simp] theorem State.endPass_acal (a b : ActId) (s : State) : (s.endPass a).acal b = s.acal b := by
  unfold State.endPass
  split
  · exact State.seqToIdle_acal a false b s
  · rfl

/-- A break after a pass: the next pass is due, and a read pass has been judged. -/
def State.passed (s : State) (a : ActId) (tb : CalTable) (fm : FormatTable) (b : Break) (l : List (Option Nat)) (un : List Nat) : Break :=
  let judged := judgePass tb b (b.pass? fm b.pass).count l
  { b with
    pass := nextPass (s.driven a b.head b.zone) b.pass, begun := false
    unwritten := if b.pass % 2 = 1 then un else []
    chosen := if b.pass % 2 = 1 then b.chosen else judged.1
    failed := b.failed || (b.pass % 2 == 0 && judged.2) }

/-- A break takes its next pass, after the session of a read pass has ended. -/
def State.turnPass (a : ActId) (b : Break) (s : State) : State :=
  (s.when (b.pass % 2 == 1) (State.endSession a)).modAcal a fun x => { x with brk := some b }

@[simp] theorem State.turnPass_acal (a : ActId) (b : Break) (s : State) : (s.turnPass a b).acal a = { s.acal a with brk := some b } := by
  unfold State.turnPass State.when
  split <;> simp

/-- A write pass is followed by the read pass of its track. -/
theorem nextPass_write {p : Nat} (write : p % 2 = 1) (r : Nat) : nextPass r p = p + 1 := by
  simp only [nextPass]
  rw [if_neg (show ¬(p + 1 = 5 ∧ uses r 2 = false) by omega), if_neg (by omega)]

theorem State.passed_write {b : Break} (write : b.pass % 2 = 1) (s : State) (a : ActId) (tb : CalTable) (fm : FormatTable)
    (l : List (Option Nat)) (un : List Nat) :
    s.passed a tb fm b l un = { b with pass := b.pass + 1, unwritten := un, begun := false } := by
  simp [State.passed, nextPass_write write, write]

theorem State.passed_last {b : Break} (last : b.pass = 8) (s : State) (a : ActId) (tb : CalTable) (fm : FormatTable)
    (l : List (Option Nat)) (un : List Nat) (good : (judgePass tb b (b.pass? fm b.pass).count l).2 = false) :
    s.passed a tb fm b l un = { b with
      pass := 9, unwritten := [], begun := false, chosen := (judgePass tb b (b.pass? fm b.pass).count l).1 } := by
  simp only [State.passed, good]
  simp [nextPass, last]

section
variable {s : State} {a : ActId} {b : Break} {tb : CalTable} {fm : FormatTable} (table : (s.pcal (portOf a)).table = some tb)
  (brk : (s.acal a).brk = some b) (format : (s.pcal (portOf a)).format = some fm)
include table brk format

/-- A pass done: the break goes on with its next pass, or is judged after its last. -/
theorem calibrationPassDone_eq {l : List (Option Nat)} {un : List Nat} {c : Break} (next : (s.endPass a).passed a tb fm b l un = c) :
    exec (.calibrationPassDone a l un) s = .next (if 9 ≤ c.pass then ((s.endPass a).turnPass a c).judgeBreak a tb c
      else ((s.endPass a).turnPass a c).beginPass a c ((s.endPass a).turnPass a c).now) := by
  subst next
  show execCalibrationPassDone a l un s = _
  rw [execCalibrationPassDone, brk, table, format]
  rfl

/-- A write pass done leads to the read pass of its track, with the sectors not written. -/
theorem calibrationPassDone_write (write : b.pass % 2 = 1) (most : b.pass < 8) (l : List (Option Nat)) (un : List Nat) :
    Does (.calibrationPassDone a l un) s fun t =>
      t.acal a = { s.acal a with brk := some { b with pass := b.pass + 1, unwritten := un, begun := false } } := by
  have run := calibrationPassDone_eq table brk format (State.passed_write write (s.endPass a) a tb fm l un)
  rw [if_neg (show ¬ 9 ≤ b.pass + 1 by omega)] at run
  exact ⟨_, run, by simp⟩

/-- The last pass of a triggered break that has not failed, and does not fail by it, commits the break. -/
theorem calibrationPassDone_commits (last : b.pass = 8) (sound : b.failed = false) (kind : b.kind = .triggered) {l : List (Option Nat)}
    (good : (judgePass tb b (b.pass? fm b.pass).count l).2 = false) (un : List Nat) : Does (.calibrationPassDone a l un) s fun t =>
      (t.acal a).brk = none ∧ (t.acal a).committed = satAdd 65535 (s.acal a).committed 1 ∧ (t.acal a).events.getLsbD 0 = true ∧
      (t.acal a).heads[b.head].tCal = some b.tb ∧ (t.acal a).heads[b.head].fails = 0 := by
  have run := calibrationPassDone_eq table brk format (State.passed_last last (s.endPass a) a tb fm l un good)
  generalize (judgePass tb b (b.pass? fm b.pass).count l).1 = v at run
  rw [if_pos (Nat.le_refl 9), State.judgeBreak] at run
  simp only [sound, kind, Bool.false_eq_true, if_false] at run
  have committed := State.commitBreak_acal (a := a) (t := tb) (b := { b with
    pass := 9, unwritten := [], begun := false, chosen := v }) kind ((s.endPass a).turnPass a { b with
    pass := 9, unwritten := [], begun := false, chosen := v })
  simp only [State.turnPass_acal, State.endPass_acal, sound, kind] at committed
  exact ⟨_, run, committed⟩

end

/-- 250 ms after its start a triggered break is abandoned. -/
theorem breakAbandon_triggered {s : State} {a : ActId} {b : Break} (brk : (s.acal a).brk = some b) (kind : b.kind = .triggered) :
    Does (.breakAbandon a) s fun t => (t.acal a).brk = none ∧ (t.acal a).abandoned = satAdd 255 (s.acal a).abandoned 1 ∧
      (t.acal a).events.getLsbD 1 = true ∧ (t.acal a).heads[b.head].keptAt b.zone.val = some b.reqAt ∧
      (t.acal a).heads[b.head].tCal = (s.acal a).heads[b.head].tCal ∧ b.at_ + 250 * Config.ms ≤ t.now := by
  have run : exec (.breakAbandon a) s = .next ((s.at_ (b.at_ + 250 * Config.ms)).quiesce false a) := by
    show execBreakAbandon a s = _
    rw [execBreakAbandon, brk]
  have time := (State.quiesce_moves false a (s.at_ (b.at_ + 250 * Config.ms))).time
  refine ⟨_, run, ?_, ?_, ?_, ?_, ?_, (Nat.le_max_right _ _).trans time⟩ <;>
    rw [State.quiesce, State.abandonBreak_triggered (by simpa using brk) kind]
  · simp
  · simpa using setBit_get (s.acal a).events 1 (by decide)
  · simp [upd_get, HeadCal.keptAt, put, -Fin.getElem_fin]
  · simp [upd_get, -Fin.getElem_fin]

/-! ## HEAD_CONFIG answers (R296) -/

/-- A change of one head of an actuator. -/
def State.modHead (a : ActId) (h : Fin 12) (f : HeadCal → HeadCal) (s : State) : State :=
  s.modAcal a fun x => { x with heads := upd x.heads h f }

@[simp] theorem State.modHead_acal (a : ActId) (h : Fin 12) (f : HeadCal → HeadCal) (s : State) :
    (s.modHead a h f).acal a = { s.acal a with heads := upd (s.acal a).heads h f } := by
  simp [State.modHead]

@[simp] theorem State.modHead_seq (a : ActId) (h : Fin 12) (f : HeadCal → HeadCal) (b : ActId) (s : State) :
    (s.modHead a h f).seq b = s.seq b := rfl

/-- The operation of an actuator ends for want of the values of its head, and the pass of a break is to be taken again. -/
def State.endUnset (a : ActId) (s : State) : State :=
  (((s.cancelGates a true true).seqToIdle a true).modAcal a fun x => { x with
    brk := x.brk.map fun b => { b with begun := false } }).raiseCal a 6 []

theorem State.endUnset_acal (a : ActId) (s : State) : (s.endUnset a).acal a = { s.acal a with
    brk := (s.acal a).brk.map fun b => { b with begun := false }, events := setBit (s.acal a).events 6 } := by
  simp [State.endUnset]

theorem State.endUnset_op (a : ActId) (s : State) : ((s.endUnset a).seq a).op = none := by
  rw [State.endUnset, (State.raiseCal_moves ..).seq (by decide), State.modAcal_seq, (State.seqToIdle_seq ..).1]

section
variable {s : State} {p : PortId} {r : Request} {k : Packet} {a : ActId} {h : Fin 12} (asked : Answered s p 0x30 r k)
  (side : actOf p (if field r.packet.payload 0 1 = 1 then 1 else 0) = a) (head : Fin.ofNat 12 (field r.packet.payload 1 1) = h)
include asked side head

theorem headConfigResponse_inTime (status : k.status = 0) : Does (.headConfigResponse p) s fun t =>
    t.acal a = { s.acal a with heads := upd (s.acal a).heads h fun y => { y with cfgFails := 0 } } ∧ t.seqs = s.seqs := by
  have run : exec (.headConfigResponse p) s =
      .next (((s.modPort p fun q => { q with rx := q.rx.drop 1 }).answered p r).modHead a h fun y => { y with cfgFails := 0 }) := by
    show execHeadConfigResponse p s = _
    rw [execHeadConfigResponse, State.takeAnswer_of asked]
    simp only [side, head, status, if_true]
    rfl
  exact ⟨_, run, by simp, rfl⟩

/-- A late answer that is not the third in a row. -/
theorem headConfigResponse_late (status : k.status = 7) (few : (s.acal a).heads[h].cfgFails < 2) :
    Does (.headConfigResponse p) s fun t =>
      (t.acal a).heads[h] = { (s.acal a).heads[h] with holds := none, cfgFails := (s.acal a).heads[h].cfgFails + 1 } ∧
      (t.acal a).events.getLsbD 6 = true ∧ (t.seq a).op = none := by
  have run : exec (.headConfigResponse p) s = .next (((((s.modPort p fun q => { q with rx := q.rx.drop 1 }).answered p r).endUnset
      a).modHead a h fun y => { y with holds := none, cfgFails := (s.acal a).heads[h].cfgFails + 1 })) := by
    have less : ¬ 3 ≤ (s.acal a).heads[h].cfgFails + 1 := by omega
    have known : k.status ≠ 0 ∧ (k.status = 5 ∨ k.status = 7) := by simp [status]
    show execHeadConfigResponse p s = _
    rw [execHeadConfigResponse, State.takeAnswer_of asked]
    simp only [side, head, known, if_true, if_false, less, State.answered_acal, State.modPort_acal]
    rfl
  refine ⟨_, run, ?_, ?_, State.endUnset_op a _⟩
  · simp [State.endUnset_acal, upd_get, -Fin.getElem_fin]
  · simpa [State.endUnset_acal] using setBit_get (s.acal a).events 6 (by decide)

end

/-! ## Records (R297) -/

theorem newestRecord_first {x : CalRecord} {y : Option CalRecord} (newer : sequenceOf y < x.sequence) : newestRecord (some x) y = some x := by
  cases y with
  | none => rfl
  | some y => exact if_neg (Nat.lt_asymm newer)

theorem newestRecord_second {x : Option CalRecord} {y : CalRecord} (newer : sequenceOf x < y.sequence) :
    newestRecord x (some y) = some y := by
  cases x with
  | none => rfl
  | some x => exact if_pos newer

/-- The record of an actuator's working tables, newer than both its copies. -/
def State.nextRecord (s : State) (a : ActId) : CalRecord :=
  let new : CalRecord := { sequence := max (sequenceOf (s.records a).1) (sequenceOf (s.records a).2) + 1, digest := 0
                           serial := (s.port (portOf a)).serial, heads := (s.acal a).heads.toList, marks := (s.acal a).marks
                           recipes := (s.acal a).recipes }
  { new with digest := new.sum }

theorem State.nextRecord_valid (s : State) (a : ActId) :
    CalRecord.valid (s.port (portOf a)).serial (some (s.nextRecord a)) = some (s.nextRecord a) :=
  Option.filter_eq_some_iff.mpr ⟨rfl, by simp [State.nextRecord, CalRecord.sum]⟩

theorem State.writeCalRecord_acal (a : ActId) (s : State) : (s.writeCalRecord a).acal a = { s.acal a with
    dirtyAt := none
    copy0 := if s.copy0Next a then some (s.nextRecord a) else (s.acal a).copy0
    copy1 := if s.copy0Next a then (s.acal a).copy1 else some (s.nextRecord a) } := by
  show ((s.setCopy a (s.copy0Next a) (some (s.nextRecord a))).modAcal a fun y => { y with dirtyAt := none }).acal a = _
  cases first : s.copy0Next a <;> simp [State.setCopy]

/-- The record written is the newest copy, whichever copy it replaces. -/
theorem State.writeCalRecord_newest (a : ActId) (s : State) :
    newestRecord ((s.writeCalRecord a).records a).1 ((s.writeCalRecord a).records a).2 = some (s.nextRecord a) := by
  have newer : sequenceOf (s.records a).1 < (s.nextRecord a).sequence ∧ sequenceOf (s.records a).2 < (s.nextRecord a).sequence := by
    simp only [State.nextRecord]
    omega
  have serial : ((s.writeCalRecord a).port (portOf a)).serial = (s.port (portOf a)).serial := rfl
  simp only [State.records, State.writeCalRecord_acal, serial]
  split
  · rw [State.nextRecord_valid]
    exact newestRecord_first newer.2
  · rw [State.nextRecord_valid]
    exact newestRecord_second newer.1

section
variable {s : State} {a : ActId} {n : Nat} (dirty : (s.acal a).dirtyAt = some n) (unheld : s.hdaHeld (portOf a) = false)
include dirty unheld

theorem calibrationRecordWrite_eq (ok : Bool) :
    exec (.calibrationRecordWrite a ok) s = .next (if ok then s.writeCalRecord a else s.recordFailed a) := by
  show execCalibrationRecordWrite a ok s = _
  cases ok <;> simp [execCalibrationRecordWrite, unheld, dirty]

theorem calibrationRecordWrite_writes : Does (.calibrationRecordWrite a true) s fun t =>
    newestRecord (t.records a).1 (t.records a).2 = some (s.nextRecord a) ∧ (t.acal a).dirtyAt = none :=
  ⟨_, calibrationRecordWrite_eq dirty unheld true, s.writeCalRecord_newest a, congrArg ActCal.dirtyAt (s.writeCalRecord_acal a)⟩

/-- A failed write raises its event, and leaves the working tables and the copy that it was not to replace. -/
theorem calibrationRecordWrite_fails : Does (.calibrationRecordWrite a false) s fun t =>
    (t.acal a).events.getLsbD 4 = true ∧
    (if s.copy0Next a then (t.acal a).copy1 = (s.acal a).copy1 else (t.acal a).copy0 = (s.acal a).copy0) ∧
    (t.acal a).heads = (s.acal a).heads ∧ (t.acal a).dirtyAt = some n := by
  have told : (setBit (s.acal a).events 4).getLsbD 4 = true := setBit_get _ 4 (by decide)
  refine ⟨_, calibrationRecordWrite_eq dirty unheld false, ?_⟩
  cases first : s.copy0Next a <;> simp [State.recordFailed, State.setCopy, first, told, dirty]

end

/-- With no valid copy every head takes the factory entries and is uncalibrated. -/
theorem calibrationRecordLoad_factory {s : State} {a : ActId} {tb : CalTable} (table : (s.pcal (portOf a)).table = some tb)
    (uncopied : newestRecord (s.records a).1 (s.records a).2 = none) : Does (.calibrationRecordLoad a) s fun t =>
      (t.acal a).events.getLsbD 5 = true ∧
      ∀ h : Fin 12, (t.acal a).heads[h].entries = tb.head (globalHead (sideOf a) h) ∧ (t.acal a).heads[h].tCal = none := by
  let u := (s.modAcal a fun x => { x with
    heads := Vector.ofFn fun h => { HeadCal.reset with
      entries := tb.head (globalHead (sideOf a) h), keptReq := ((s.acal a).heads[h]).keptReq }
    marks := [], recipes := [], dirtyAt := none, told := true }).raiseCal a 5 []
  have run : exec (.calibrationRecordLoad a) s = .next (u.noteHolds a) := by
    show execCalibrationRecordLoad a s = _
    rw [execCalibrationRecordLoad, State.loadCalibration, table]
    simp only [uncopied]
    rfl
  have judged := u.noteHolds_judged a a
  refine ⟨_, run, judged.events 5 (by simpa [u] using setBit_get (s.acal a).events 5 (by decide)), fun h => ?_⟩
  obtain ⟨entries, tCal, -, -⟩ := HeadCal.table_of_unheld (judged.head h)
  rw [entries, tCal]
  simp [u, HeadCal.reset]

/-! ## Temperature and deferral (R299, R313) -/

theorem temperatureStale_marks {s : State} {p : PortId} {n : Nat} (trained : (s.port p).train = 9) (fresh : (s.pcal p).stale = false)
    (last : (s.pcal p).lastValid = some n) : Does (.temperatureStale p) s fun t =>
      t.pcal p = { s.pcal p with stale := true } ∧ n + 60 * Config.sec ≤ t.now := by
  let u := (s.at_ (n + 60 * Config.sec)).modPcal p fun x => { x with stale := true }
  have run : exec (.temperatureStale p) s = .next ((u.noteHolds (actOf p 0)).noteHolds (actOf p 1)) := by
    show execTemperatureStale p s = _
    simp only [execTemperatureStale, trained, fresh, last]
    rfl
  have moves : u.Moves [.aon, .book, .actCals] ((u.noteHolds (actOf p 0)).noteHolds (actOf p 1)) :=
    Moves.op (State.noteHolds_moves _ _) (by decide) (State.noteHolds_moves _ _)
  refine ⟨_, run, ?_, (Nat.le_max_right _ _).trans moves.time⟩
  rw [moves.pcal (by decide)]
  simp [u]

theorem deferralExpiry_ends {s : State} {n : Nat} (deferred : s.cal.deferUntil = some n) : Does .deferralExpiry s fun t =>
    t.cal = { s.cal with deferUntil := none } ∧ n ≤ t.now ∧ t.actCals = s.actCals := by
  have run : exec .deferralExpiry s = .next { s.at_ n with cal := { s.cal with deferUntil := none } } := by
    show execDeferralExpiry s = _
    rw [execDeferralExpiry, deferred]
  exact ⟨_, run, rfl, Nat.le_max_right _ _, rfl⟩

/-! ## The statement on the calibration commands -/

/-- Settles O10: each clause is the lemma of its command above. -/
theorem calibrationCommands : Obligations.CalibrationCommands := by
  refine ⟨fun s a kd h z n v may chosen first values => ?_, fun s a tb fm b l un table brk format pass => ?_,
    fun s a tb fm b l un table brk format last sound kind good =>
      calibrationPassDone_commits table brk format last sound kind good un,
    fun s a b brk kind => breakAbandon_triggered brk kind, fun s p r k asked side status => ?_,
    fun s p r k asked side status first => ?_, fun s a n dirty unheld => ?_,
    fun s a n dirty unheld => calibrationRecordWrite_fails dirty unheld,
    fun s a tb table uncopied => calibrationRecordLoad_factory table uncopied,
    fun s p n trained fresh last => temperatureStale_marks trained fresh last, fun s n deferred => ?_⟩
  · refine (calibrationBreakStart_takes may chosen first values).imp fun t ⟨brk, others⟩ => ?_
    rw [brk]
    exact ⟨rfl, rfl, others⟩
  · refine (calibrationPassDone_write table brk format (by omega) (by omega) l un).imp fun t acal => ?_
    rw [acal, pass]
    exact ⟨rfl, rfl, rfl⟩
  · refine (headConfigResponse_inTime asked (a := actOf p 0) (by rw [if_neg (by omega)]) rfl status).imp fun t ⟨acal, seqs⟩ => ?_
    rw [acal]
    exact ⟨by rw [upd_get, if_pos rfl], seqs, rfl⟩
  · refine (headConfigResponse_late asked (a := actOf p 0) (by rw [if_neg (by omega)]) rfl status (by omega)).imp
      fun t ⟨late, told, ended⟩ => ?_
    rw [late, first]
    exact ⟨rfl, rfl, told, ended⟩
  · refine (calibrationRecordWrite_writes dirty unheld).imp fun t ⟨newest, clean⟩ => ?_
    rw [newest]
    exact ⟨rfl, clean⟩
  · refine (deferralExpiry_ends deferred).imp fun t ⟨cal, time, actCals⟩ => ?_
    rw [cal]
    exact ⟨rfl, rfl, time, actCals⟩

end Sys2Proof.Machine
end

section
/-! SUPPORT. Calibration Control (spec/08 R309, R313, R316, R317, Tables 8-7 to 8-9; log 54). -/

namespace Sys2Proof.Machine

/-! ## An action taken or refused -/

/-- With no reserved field set, what is found at fault is found among the action's own fields. -/
theorem firstBad_append {l : List (Bool × Nat × Nat)} (clean : firstBad l = none) (m : List (Bool × Nat × Nat)) :
    firstBad (l ++ m) = firstBad m := by
  have none_found : l.filter Prod.fst = [] := List.filter_eq_nil_iff.mpr fun q hq => by simp [(firstBad_none l).mp clean q hq]
  unfold firstBad
  rw [List.filter_append, none_found, List.nil_append]

section
variable {s : State} {c n : Nat} {x : Ctx} {bad : SqEntry → List (Bool × Nat × Nat)} {k : SqEntry → ActId → State → State}
  (hand : AtHand s c (isAction 0xC5 n) x) (clean : firstBad (ccReserved x.entry) = none)
include hand clean

theorem State.runCal_takes (sound : firstBad (bad x.entry) = none) : s.runCal c n bad k = k x.entry (ccAct x.entry) s := by
  rw [State.runCal, State.run_atHand hand, firstBad_append clean, sound]
  rfl

theorem State.runCal_refuses {r : Cpl} (fault : firstBad (bad x.entry) = some r) : s.runCal c n bad k = s.complete c r := by
  rw [State.runCal, State.run_atHand hand, firstBad_append clean, fault]
  rfl

end

/-- A head that an action names alone is one of the twelve. -/
theorem State.ccHeads_single {s : State} {e : SqEntry} {h : Fin 12} (named : s.ccHeads e false = some [h]) : ccHead e ≤ 11 := by
  unfold State.ccHeads at named
  extract_lets n at named
  split at named
  · cases named
  · split at named
    next found =>
      obtain ⟨g, -, same⟩ := List.any_eq_true.mp found
      have number : g.val = n := eq_of_beq same
      exact show n ≤ 11 by omega
    · cases named

/-! ## Query (R317, Table 8-9) -/

theorem padTo_length (n : Nat) (l : List Byte) : (padTo n l).length = n := by
  simp only [padTo, List.length_append, List.length_take, List.length_replicate]
  omega

theorem Ctx.stamp_result (x : Ctx) (r : Cpl) : (x.stamp r).sct = r.sct ∧ (x.stamp r).sc = r.sc ∧ (x.stamp r).bytes = r.bytes := by
  unfold Ctx.stamp
  split <;> exact ⟨rfl, rfl, rfl⟩

/-- A query returns its bytes at once where its function is not in D3hot: 384 of all heads, 32 of one. -/
theorem calibrationControlQuery_returns {s : State} {c : Nat} {x : Ctx} {l : List (Fin 12)} (hand : AtHand s c (isAction 0xC5 0) x)
    (clean : firstBad (ccReserved x.entry) = none) (named : s.ccHeads x.entry true = some l)
    (awake : ∀ f, x.origin = .host f → (s.fn f).d3hot = false) : Does (.calibrationControlQuery c) s fun t =>
      (∃ y r, t.ctx? c = some y ∧ y.stage = .decided ∧ y.cpl = some r ∧ r.sct = 0 ∧ r.sc = 0 ∧
        r.bytes.length = if ccHead x.entry = 0xF then 384 else 32) ∧ t.actCals = s.actCals := by
  let r := Cpl.data (padTo (if ccHead x.entry = 0xF then 384 else 32) (l.flatMap (s.headEntry (ccAct x.entry))))
  let u : State := { s with free := s.free + 12 }
  have run : exec (.calibrationControlQuery c) s = .next (u.complete c r) := by
    show execCalibrationControlQuery c s = _
    rw [execCalibrationControlQuery, State.runCal_takes hand clean rfl, named]
  obtain ⟨held, -, -, f, host⟩ := hand
  have awake : (u.fn f).d3hot = false := by
    cases f <;> exact awake _ host
  obtain ⟨ended, -⟩ := State.complete_host (s := u) r held host (by simp [awake])
  obtain ⟨sct, sc, bytes⟩ := x.stamp_result r
  exact ⟨_, run, ⟨_, _, ended, rfl, rfl, sct, sc, by rw [bytes]; exact padTo_length _ _⟩,
    (State.complete_moves c r u).only .actCals (by decide)⟩

/-! ## One head calibrated (R317) -/

theorem State.await_waits {s : State} {c : Nat} {x : Ctx} (held : s.ctx? c = some x) (w : Wait) :
    ∃ y, (s.await c w).ctx? c = some y ∧ y.stage = .waiting ∧ y.wait = w := by
  have taken := State.modCtx_ctx c (fun x => { x with
    stage := .waiting, wait := w, waitAt := if x.stage = .waiting ∧ x.wait.kind = w.kind then x.waitAt else s.now }) (fun _ e => e) s
  rw [held] at taken
  exact ⟨_, taken, rfl, rfl⟩

section
variable {s : State} {c : Nat} {x : Ctx} {h : Fin 12} (hand : AtHand s c (isAction 0xC5 1) x)
  (clean : firstBad (ccReserved x.entry) = none) (named : s.ccHeads x.entry false = some [h])
include hand clean named

theorem calibrateOneHead_eq : exec (.calibrateOneHead c) s = .next (if s.actInService (ccAct x.entry) = false then
    s.complete c Cpl.seqError else s.await c (.calBreak (ccAct x.entry) h)) := by
  show execCalibrateOneHead c s = _
  rw [execCalibrateOneHead, State.runCal_takes hand clean rfl, if_neg (Nat.not_lt.mpr (State.ccHeads_single named)), named]

theorem calibrateOneHead_waits (serves : s.actInService (ccAct x.entry) = true) : Does (.calibrateOneHead c) s fun t =>
    (∃ y, t.ctx? c = some y ∧ y.stage = .waiting ∧ y.wait = .calBreak (ccAct x.entry) h) ∧ t.actCals = s.actCals := by
  have run := calibrateOneHead_eq hand clean named
  rw [if_neg (by simp [serves])] at run
  exact ⟨_, run, State.await_waits hand.1 _, rfl⟩

theorem calibrateOneHead_refuses (out : s.actInService (ccAct x.entry) = false) : Does (.calibrateOneHead c) s fun t =>
    EndedWith t c x Cpl.seqError := by
  have run := calibrateOneHead_eq hand clean named
  rw [if_pos out] at run
  exact ⟨_, run, State.ended_complete _ hand rfl⟩

end

/-! ## Deferral (R313) -/

section
variable {s : State} {c : Nat} {x : Ctx} (hand : AtHand s c (isAction 0xC5 2) x) (clean : firstBad (ccReserved x.entry) = none)
  (head : ccHead x.entry ≤ 11)
include hand clean head

theorem calibrationDefer_sets (most : bits x.entry.cdw11 15 0 ≤ 600) : Does (.calibrationDefer c) s fun t =>
    t.cal.deferUntil = (if bits x.entry.cdw11 15 0 = 0 then none else some (s.now + bits x.entry.cdw11 15 0 * Config.sec)) ∧
      EndedWith t c x Cpl.ok ∧ t.actCals = s.actCals := by
  let u : State := { s with cal := { s.cal with
    deferUntil := if bits x.entry.cdw11 15 0 = 0 then none else some (s.now + bits x.entry.cdw11 15 0 * Config.sec) } }
  have run : exec (.calibrationDefer c) s = .next (u.complete c Cpl.ok) := by
    show execCalibrationDefer c s = _
    rw [execCalibrationDefer, State.runCal_takes hand clean (by simp [head, most])]
  have moves := State.complete_moves c Cpl.ok u
  exact ⟨_, run, congrArg CalSled.deferUntil (moves.only .cal (by decide) : _ = u.cal), State.ended_complete _ hand rfl,
    moves.only .actCals (by decide)⟩

theorem calibrationDefer_refuses (long : 600 < bits x.entry.cdw11 15 0) : Does (.calibrationDefer c) s fun t =>
    t.cal = s.cal ∧ EndedWith t c x (Cpl.invalid 11 0) := by
  have run : exec (.calibrationDefer c) s = .next (s.complete c (Cpl.invalid 11 0)) := by
    show execCalibrationDefer c s = _
    rw [execCalibrationDefer, State.runCal_refuses hand clean (r := Cpl.invalid 11 0)]
    simp [firstBad, Nat.not_lt.mpr head, long]
  exact ⟨_, run, (State.complete_moves c _ s).only .cal (by decide), State.ended_complete _ hand rfl⟩

end

/-! ## Parameters (R316) -/

section
variable {s : State} {c : Nat} {x : Ctx} (hand : AtHand s c (isAction 0xC5 3) x) (clean : firstBad (ccReserved x.entry) = none)
  (head : ccHead x.entry ≤ 11)
include hand clean head

/-- The spacing and the sled maximum named, and reconstruction not. -/
theorem calibrationSetParameters_sets (mask : x.entry.cdw12 = 3) (least : 250 ≤ bits x.entry.cdw11 15 0)
    (most : bits x.entry.cdw11 15 0 ≤ 10000) (one : 1 ≤ bits x.entry.cdw11 23 16) (all : bits x.entry.cdw11 23 16 ≤ 64) :
    Does (.calibrationSetParameters c) s fun t =>
      t.cal = { s.cal with spacing := bits x.entry.cdw11 15 0, sledMax := bits x.entry.cdw11 23 16 } ∧
      t.nor.config.calSpacing = bits x.entry.cdw11 15 0 ∧ t.nor.config.calSledMax = bits x.entry.cdw11 23 16 ∧
      EndedWith t c x Cpl.ok := by
  let u := ({ s with cal := { s.cal with spacing := bits x.entry.cdw11 15 0, sledMax := bits x.entry.cdw11 23 16 } } : State).modCfg
    fun k => { k with
      calSpacing := bits x.entry.cdw11 15 0, calSledMax := bits x.entry.cdw11 23 16, calReconstruct := s.cal.reconstruct }
  have run : exec (.calibrationSetParameters c) s = .next (u.complete c Cpl.ok) := by
    show execCalibrationSetParameters c s = _
    rw [execCalibrationSetParameters, State.runCal_takes hand clean (by simp [head, mask]; omega)]
    simp [mask, u]
  have moves := State.complete_moves c Cpl.ok u
  have nor : (u.complete c Cpl.ok).nor = u.nor := moves.only .nor (by decide)
  exact ⟨_, run, moves.only .cal (by decide), by rw [nor]; rfl, by rw [nor]; rfl, State.ended_complete _ hand rfl⟩

/-- A spacing below 250 ms is at fault, whatever else is. -/
theorem calibrationSetParameters_refuses (mask : x.entry.cdw12.getLsbD 0 = true) (short : bits x.entry.cdw11 15 0 < 250) :
    Does (.calibrationSetParameters c) s fun t => t.cal = s.cal ∧ t.nor = s.nor ∧ EndedWith t c x (Cpl.invalid 11 0) := by
  have run : exec (.calibrationSetParameters c) s = .next (s.complete c (Cpl.invalid 11 0)) := by
    show execCalibrationSetParameters c s = _
    rw [execCalibrationSetParameters, State.runCal_refuses hand clean (r := Cpl.invalid 11 0)]
    have number : decide (11 < ccHead x.entry) = false := decide_eq_false (Nat.not_lt.mpr head)
    have spacing : (x.entry.cdw12.getLsbD 0 &&
        (decide (bits x.entry.cdw11 15 0 < 250) || decide (10000 < bits x.entry.cdw11 15 0))) = true := by simp [mask, short]
    simp only [number, spacing]
    cases x.entry.cdw12.getLsbD 1 && (bits x.entry.cdw11 23 16 == 0 || decide (64 < bits x.entry.cdw11 23 16)) <;> rfl
  have moves := State.complete_moves c (Cpl.invalid 11 0) s
  exact ⟨_, run, moves.only .cal (by decide), moves.only .nor (by decide), State.ended_complete _ hand rfl⟩

end

/-! ## A head restored (R309, R317) -/

section
variable {s : State} {c : Nat} {x : Ctx} (hand : AtHand s c (isAction 0xC5 4) x) (clean : firstBad (ccReserved x.entry) = none)
include hand clean

theorem calibrationRestoreHead_restores {h : Fin 12} {tb : CalTable} (named : s.ccHeads x.entry true = some [h])
    (table : (s.pcal (portOf (ccAct x.entry))).table = some tb) : Does (.calibrationRestoreHead c) s fun t =>
      (t.acal (ccAct x.entry)).heads[h].entries = tb.head (globalHead (sideOf (ccAct x.entry)) h) ∧
      (t.acal (ccAct x.entry)).heads[h].tCal = none ∧ (t.acal (ccAct x.entry)).heads[h].failed = false ∧ EndedWith t c x Cpl.ok := by
  let u := (s.modHead (ccAct x.entry) h fun y => { y with
    entries := tb.head (globalHead (sideOf (ccAct x.entry)) h), tCal := none, failed := false, fails := 0 }).calDirty (ccAct x.entry)
  have run : exec (.calibrationRestoreHead c) s = .next ((u.noteHolds (ccAct x.entry)).complete c Cpl.ok) := by
    show execCalibrationRestoreHead c s = _
    rw [execCalibrationRestoreHead, State.runCal_takes hand clean rfl, named, table]
    rfl
  obtain ⟨entries, tCal, failed, -⟩ := HeadCal.table_of_unheld ((u.noteHolds_judged (ccAct x.entry) (ccAct x.entry)).head h)
  refine ⟨_, run, ?_, ?_, ?_, State.ended_complete _ hand ((u.noteHolds_moves _).only .ctxs (by decide))⟩
  · rw [State.complete_acal, entries]
    simp [u, State.calDirty, upd_get, -Fin.getElem_fin]
  · rw [State.complete_acal, tCal]
    simp [u, State.calDirty, upd_get, -Fin.getElem_fin]
  · rw [State.complete_acal, failed]
    simp [u, State.calDirty, upd_get, -Fin.getElem_fin]

theorem calibrationRestoreHead_refuses (unnamed : s.ccHeads x.entry true = none) : Does (.calibrationRestoreHead c) s fun t =>
    t.actCals = s.actCals ∧ EndedWith t c x (Cpl.invalid 10 24) := by
  have run : exec (.calibrationRestoreHead c) s = .next (s.complete c (Cpl.invalid 10 24)) := by
    show execCalibrationRestoreHead c s = _
    rw [execCalibrationRestoreHead, State.runCal_takes hand clean rfl, unnamed]
  exact ⟨_, run, (State.complete_moves c _ s).only .actCals (by decide), State.ended_complete _ hand rfl⟩

end

/-! ## The statement on Calibration Control -/

/-- Settles O11: each clause is the lemma of its action above. -/
theorem calibrationControlCommands : Obligations.CalibrationControlCommands := by
  refine ⟨fun s c x hand clean every awake => ?_, fun s c x h hand clean named serves => calibrateOneHead_waits hand clean named serves,
    fun s c x h hand clean named out => calibrateOneHead_refuses hand clean named out, fun s c x hand clean head some_ most => ?_,
    fun s c x hand clean head zero => ?_, fun s c x hand clean head long => calibrationDefer_refuses hand clean head long,
    fun s c x hand clean head mask least most one all => ?_,
    fun s c x h tb hand clean named table => calibrationRestoreHead_restores hand clean named table,
    fun s c x hand clean head named awake => ?_,
    fun s c x hand clean head mask short => calibrationSetParameters_refuses hand clean head mask short,
    fun s c x hand clean unnamed => calibrationRestoreHead_refuses hand clean unnamed⟩
  · have run := calibrationControlQuery_returns hand clean (l := s.heads (ccAct x.entry)) (by simp [State.ccHeads, every]) awake
    rwa [if_pos every] at run
  · refine (calibrationDefer_sets hand clean head most).imp fun t ⟨until_, rest⟩ => ?_
    rw [until_, if_neg (by omega)]
    exact ⟨rfl, rest⟩
  · refine (calibrationDefer_sets hand clean head (by omega)).imp fun t ⟨until_, ended, _⟩ => ?_
    rw [until_, if_pos zero]
    exact ⟨rfl, ended⟩
  · refine (calibrationSetParameters_sets hand clean head mask least most one all).imp fun t ⟨cal, spacing, _, ended⟩ => ?_
    rw [cal]
    exact ⟨rfl, rfl, rfl, rfl, spacing, ended⟩
  · obtain ⟨l, named⟩ := Option.isSome_iff_exists.mp named
    have run := calibrationControlQuery_returns hand clean named awake
    rwa [if_neg (by omega)] at run

end Sys2Proof.Machine
end

section
/-! SUPPORT. A sanitize whose handle another long operation has as well (spec/12 R475, R478). -/

namespace Sys2Proof.Machine

/-- A sanitize that runs, with handle 1. -/
def runningSanitize : LongOp :=
  { handle := 1, kind := 2, st := .running, done := 0, total := 0, origin := 3, started := 0, result := 0, p0 := 0, p1 := 0, p2 := 0, p3 := 0
    cursor := 0, from_ := 0, kept := 0, suspendAsked := false, cancelAsked := false, byPs3 := false, slot := false, prefer := false
    image := [] }

/-- A device with one member, of two bands. The sanitize runs, and before it in the list stands a surface scan of the same handle that is
asked to suspend. -/
def State.sharedHandle : State :=
  { State.reset with
    nor := { Nor.reset with config := { ConfigStore.reset with
      ops := [{ runningSanitize with kind := 3, suspendAsked := true }, runningSanitize] } }
    prot := { Prot.reset with members := upd Prot.reset.members 0 fun m => { m with st := .member, bands0 := 2 } } }

/-- After the band of the sanitize the suspend that the scan was asked for takes effect on both, which the handle does not tell apart. -/
theorem sanitizeBand_sharedHandle :
    Does (.sanitizeBand true) State.sharedHandle fun t => t.longOps.map LongOp.st = [.suspended, .suspended] :=
  ⟨_, rfl, by decide +kernel⟩

/-- Refutes O34: its clause on a band of a sanitize that has more to write holds the sanitize running wherever the sanitize itself is not
asked to suspend or be cancelled. The suspend point looks for its operation by the handle, and no premise of the clause says that the
handle is the sanitize's alone: in the state here an older scan has it too, and the suspend asked of the scan suspends the sanitize. -/
theorem not_stripeCommands : ¬ Obligations.StripeCommands := by
  intro h
  obtain ⟨_, _, _, _, _, _, _, _, _, _, band, _⟩ := h
  obtain ⟨t, run, running, -, -⟩ := band State.sharedHandle runningSanitize (by decide +kernel) rfl (by decide +kernel) (by decide +kernel)
    rfl rfl
  obtain ⟨u, run', suspended⟩ := sanitizeBand_sharedHandle
  cases Host.Outcome.next.inj (run.symm.trans run')
  obtain ⟨o, mem, state⟩ := List.any_eq_true.mp running
  have stopped : o.st ∈ t.longOps.map LongOp.st := List.mem_map_of_mem mem
  rw [suspended] at stopped
  have still : o.st = .suspended := by simpa using stopped
  simp [still] at state

end Sys2Proof.Machine
end

section
/-! SUPPORT. Cleaning while a row of a dump is left in the media cache (spec/10 R390, R401; spec/02 R61). -/

namespace Sys2Proof.Machine

/-- A conventional namespace on one group. -/
def cleanedSpace : Ns :=
  { nsid := 1, zoned := false, narrow := true, nsze := 1310720, groups := [1], ana2 := false, attachA := true, attachB := true
    deleting := false, backing := none, ready := true }

/-- Its group, on the first ten members. -/
def cleanedGroup : Group := { number := 1, narrow := true, members := (fins 32).take 10, firstSlot := 0, ns := 1 }

/-- The actuators of side 0 of those members. -/
def cleanedActs : List ActId := ((fins 32).take 10).map fun p => actOf p 0

/-- A row of the media cache with one block that an entry names. -/
def cleanedRow : McRow :=
  { id := 1, ns := 1, kind := .pack, blocks := [(3, 9)], parity := [], strips := cleanedActs.map fun a => (a, 0) }

/-- A row that takes up more than half of those actuators' rings. -/
def crowdingRow : McRow :=
  { id := 2, ns := 1, kind := .part 5 5, blocks := [], parity := []
    strips := cleanedActs.flatMap fun a => (List.range 33).map fun h => (a, h * 256) }

/-- A row of a dump. -/
def dumpLeft : McRow := { cleanedRow with id := 0, kind := .dumpData, blocks := [] }

/-- Ten members, of one side each, whose media cache has less than half its space free. The one block there that an entry names has its map
page dirty, and a row of a dump is left. -/
def State.cleanedDump : State :=
  { State.reset with
    ports := Vector.replicate 32 { Port.reset with
      train := 9, inService := true, obeyed := true, companion := { ident := [0, 0, 0, 0, 0, 0, 1, 12], measure := [] } }
    spins := Vector.replicate 32 { Spin.reset with st := .atSpeed }
    prot := { Prot.reset with
      members := Vector.ofFn fun p =>
        if p.val < 10 then { Member.reset with st := .member, bands0 := 1000, bands1 := 1000 } else Member.reset
      groups := [cleanedGroup], mcRows := [cleanedRow, crowdingRow, dumpLeft] }
    names := { Names.reset with
      nss := [cleanedSpace], dirtyLimitMib := 16, map := [{ ns := 1, lba := 3, entry := mapWord 2 512 }], pagesDirty := [(1, 0)] } }

/-- The one block that is to be moved, with its entry. -/
def cleanedBlocks : List (Nat × W64 × Blk) := [(3, mapWord 2 512, 9)]

/-- No row is freed before it: an entry points to the one with the block, and the others are not rows of packed blocks. -/
theorem State.cleanedDump_freeRows : State.cleanedDump.freeRows = State.cleanedDump := by
  have rows : State.cleanedDump.freeRows.prot.mcRows = State.cleanedDump.prot.mcRows := by decide +kernel
  show { State.cleanedDump with prot := { State.cleanedDump.prot with mcRows := State.cleanedDump.freeRows.prot.mcRows } } = _
  rw [rows]

/-- After the row has set out, with no dump under way and nothing to be destaged first, the row of the dump is released. -/
theorem cleaning_cleanedDump : Does .cleaning State.cleanedDump fun t => t.prot.mcRows.length = 2 :=
  ⟨_, rfl, by decide +kernel⟩

/-- Refutes O17: its clause on a cleaning that runs holds the rows of the media cache as they were. Whatever changes the buffer or its pages
releases the rows that a dump has left, once what it held is on media (R401), and this clause, unlike the one on MEDIA_CACHE_ROW_WRITE, does
not say that none is left: in the state here one is, beside the row whose block sets out. -/
theorem not_destageCommands : ¬ Obligations.DestageCommands := by
  intro h
  obtain ⟨_, _, _, _, _, _, _, _, _, _, cleans, _⟩ := h
  obtain ⟨t, run, -, -, -, -, -, rows⟩ := cleans State.cleanedDump cleanedSpace cleanedGroup 0 0 0 cleanedBlocks rfl
    State.cleanedDump_freeRows (by decide +kernel) rfl rfl (by decide +kernel) (by decide +kernel) (by decide +kernel) (by decide +kernel) (by decide +kernel)
    (by decide +kernel) (by decide) (by decide) (by decide) rfl rfl
  obtain ⟨u, run', released⟩ := cleaning_cleanedDump
  cases Host.Outcome.next.inj (run.symm.trans run')
  rw [rows] at released
  exact absurd released (by decide)

end Sys2Proof.Machine
end

section
/-! SUPPORT. A rebuild whose handle an older long operation has as well: the start of one when every handle is in use (spec/12 R475, R476;
spec/09 R356, R364). -/

namespace Sys2Proof.Machine

/-! ## Handles -/

/-- A new handle is one of 1 to 65,535, whether or not one is free. -/
theorem freeHandle_range (l : List LongOp) (n : Nat) : ∀ h, 1 ≤ freeHandle l (n + 1) h ∧ freeHandle l (n + 1) h ≤ 0xFFFF := by
  induction n with
  | zero =>
    intro h
    rw [freeHandle, freeHandle, ite_self]
    omega
  | succ n ih =>
    intro h
    rw [freeHandle]
    split
    · exact ih _
    · omega

/-- Active operations are all kept. -/
theorem keepOps_active {l : List LongOp} (h : ∀ o ∈ l, o.st.active = true) : keepOps l = l := by
  have ended : l.filter (fun o => !o.st.active) = [] := by
    rw [List.filter_eq_nil_iff]
    intro o mem
    simp [h o mem]
  rw [keepOps, ended, List.filter_eq_self.mpr h]
  simp

theorem mem_keepOps {l : List LongOp} {o : LongOp} (h : o ∈ keepOps l) : o ∈ l := by
  rw [keepOps, List.mem_append] at h
  obtain h | h := h
  · exact List.mem_of_mem_filter h
  · exact List.mem_of_mem_filter (List.mem_of_mem_drop h)

/-- Every handle is that of an active operation, and none of them is a rebuild. -/
structure HandlesTaken (l : List LongOp) : Prop where
  other : ∀ o ∈ l, o.kind ≠ 1
  active : ∀ o ∈ l, o.st.active = true
  all : ∀ h, 1 ≤ h → h ≤ 0xFFFF → ∃ o ∈ l, o.handle = h

theorem HandlesTaken.rebuild {s : State} (taken : HandlesTaken s.longOps) : s.rebuild? = none := by
  have none : s.activeOps 1 = [] := by
    rw [State.activeOps, List.filter_eq_nil_iff]
    intro o mem
    simp [taken.other o mem]
  rw [State.rebuild?, none]
  rfl

/-- The operation found by its handle ends, and goes to the end of the list. -/
theorem State.endOp_longOps {h : Nat} {s : State} {y : LongOp} (found : s.longOps.find? (fun o => o.handle == h) = some y) (st : OpState)
    (result : W16) : (s.endOp h st result).longOps = keepOps ((s.longOps.filter fun x => x.handle != h) ++
      [{ y with st := st, result := result, suspendAsked := false, cancelAsked := false, byPs3 := false }]) := by
  have first : s.nor.config.ops.find? (fun o => o.handle == h) = some y := found
  rw [State.endOp, State.longOps, State.modCfg_nor]
  simp only [first]
  rfl

/-! ## A rebuild behind an older operation of its handle -/

/-- The newest operation is an active rebuild, the only one, and an older operation has its handle. -/
def Shadowed (h : Nat) (l : List LongOp) : Prop :=
  ∃ older r, l = older ++ [r] ∧ (∀ o ∈ older, o.kind ≠ 1) ∧ (∃ o ∈ older, o.handle = h) ∧
    r.kind = 1 ∧ r.handle = h ∧ r.st.active = true

theorem Shadowed.mapWhere {h : Nat} {l : List LongOp} (sh : Shadowed h l) (t : LongOp → Bool) {f : LongOp → LongOp}
    (kind : ∀ o, (f o).kind = o.kind) (handle : ∀ o, (f o).handle = o.handle) (active : ∀ o, o.st.active = true → (f o).st.active = true) :
    Shadowed h (mapWhere t f l) := by
  obtain ⟨older, r, rfl, others, ⟨o, mem, same⟩, hk, hh, ha⟩ := sh
  refine ⟨Machine.mapWhere t f older, if t r then f r else r, by simp [Machine.mapWhere], ?_, ⟨if t o then f o else o, ?_, ?_⟩, ?_, ?_, ?_⟩
  · intro y hy
    obtain ⟨z, hz, rfl⟩ := List.mem_map.mp hy
    split
    · rw [kind]; exact others z hz
    · exact others z hz
  · exact List.mem_map_of_mem mem
  · split <;> simp [handle, same]
  · split <;> simp [kind, hk]
  · split <;> simp [handle, hh]
  · split
    · exact active r ha
    · exact ha

/-- The rebuild that is active is that one. -/
theorem Shadowed.rebuild {h : Nat} {s : State} (sh : Shadowed h s.longOps) : ∃ o, s.rebuild? = some o ∧ o.handle = h := by
  obtain ⟨older, r, eq, others, -, hk, hh, ha⟩ := sh
  have none : older.filter (fun o => o.kind == 1 && o.st.active) = [] := by
    rw [List.filter_eq_nil_iff]
    intro o mem
    simp [others o mem]
  refine ⟨r, ?_, hh⟩
  rw [State.rebuild?, State.activeOps, eq, List.filter_append, none]
  simp [hk, ha]

/-- The end that is meant for the rebuild is that of the older operation, and leaves no rebuild. -/
theorem Shadowed.endOp {h : Nat} {s : State} (sh : Shadowed h s.longOps) (st : OpState) (result : W16) :
    ∀ o ∈ (s.endOp h st result).longOps, o.kind ≠ 1 := by
  obtain ⟨older, r, eq, others, ⟨o, mem, same⟩, hk, hh, ha⟩ := sh
  obtain ⟨y, found⟩ : ∃ y, older.find? (fun o => o.handle == h) = some y :=
    Option.isSome_iff_exists.mp (List.find?_isSome.mpr ⟨o, mem, by simp [same]⟩)
  have first : s.longOps.find? (fun o => o.handle == h) = some y := by
    rw [eq, List.find?_append, found]
    rfl
  intro z hz
  rw [State.endOp_longOps first] at hz
  obtain hz | hz := List.mem_append.mp (mem_keepOps hz)
  · obtain ⟨hz, other⟩ := List.mem_filter.mp hz
    rw [eq] at hz
    obtain hz | hz := List.mem_append.mp hz
    · exact others z hz
    · simp [List.mem_singleton.mp hz, hh] at other
  · rw [List.mem_singleton.mp hz]
    exact others y (List.mem_of_find?_eq_some found)

/-! ## A rebuild with nothing to rebuild -/

/-- Nothing to be rebuilt, under work or away from home. -/
structure Prot.Empty (p : Prot) : Prop where
  rows : p.mcRows = []
  groups : p.groups = []
  works : p.works = []
  excs : p.excs = []

theorem State.mcTodo_noRows {s : State} (h : s.prot.mcRows = []) : s.mcTodo = [] := by simp [State.mcTodo, h]

theorem State.todo_noGroups {s : State} (h : s.prot.groups = []) : s.todo = [] := by
  have none : s.stripes = [] := by rw [State.stripes, h]; rfl
  rw [State.todo, none]
  rfl

theorem State.away_noExcs {s : State} (h : s.prot.excs = []) : s.away = [] := by simp [State.away, h]

/-- A rebuild that finds nothing ends at once; here another operation's end is what it brings about. -/
theorem State.rebuildEnd_shadowed {h : Nat} {s : State} (sh : Shadowed h s.longOps) (empty : s.prot.Empty)
    (phase : 2 ≤ s.prot.rebuildPhase.val) : ∀ o ∈ s.rebuildEnd.longOps, o.kind ≠ 1 := by
  obtain ⟨o, active, handle⟩ := sh.rebuild
  have goes : ¬(s.prot.rebuildPhase.val < 2 ∨ s.mcTodo ≠ [] ∨ s.todo ≠ [] ∨ s.prot.works ≠ []) := by
    simp [State.mcTodo_noRows empty.rows, State.todo_noGroups empty.groups, empty.works]
    omega
  have home : ¬s.away ≠ [] := by simp [State.away_noExcs empty.excs]
  rw [State.rebuildEnd, active]
  dsimp only
  rw [if_neg goes, if_neg home, State.longOps, (State.retireMembers_moves _).only .nor (by decide),
    (State.putCheckpoint_moves _ _).only .nor (by decide)]
  show ∀ o ∈ ((s.endOp _ _ _).raiseProt 5 noSource).nor.config.ops, _
  rw [(State.raiseProt_moves _ _ _).only .nor (by decide), handle]
  exact sh.endOp .completed 0

/-! ## The start -/

/-- The handle that a new rebuild gets is then not its alone. -/
theorem State.newRebuild_shadowed {s : State} (st : OpState) (origin : Nat) (run : st.active = true) (taken : HandlesTaken s.longOps) :
    Shadowed (s.newRebuild st origin).2 (s.newRebuild st origin).1.longOps := by
  obtain ⟨low, high⟩ := freeHandle_range s.longOps 0xFFFF s.nor.config.lastHandle
  have kept (r : LongOp) (active : r.st.active = true) : keepOps (s.longOps ++ [r]) = s.longOps ++ [r] := by
    refine keepOps_active fun o mem => ?_
    obtain mem | mem := List.mem_append.mp mem
    · exact taken.active o mem
    · rw [List.mem_singleton.mp mem]
      exact active
  exact ⟨s.longOps, _, kept _ run, taken.other, taken.all _ low high, rfl, rfl, run⟩

/-- A rebuild that starts with nothing to do is gone again. -/
theorem State.runRebuild_noRebuild {s : State} (origin : Nat) (taken : HandlesTaken s.longOps) (empty : s.prot.Empty) :
    ∀ o ∈ (s.runRebuild origin).longOps, o.kind ≠ 1 := by
  have shadowed := State.newRebuild_shadowed .running origin rfl taken
  unfold State.runRebuild
  rw [taken.rebuild]
  extract_lets q a n b c
  have sh : Shadowed q.2 c.longOps := shadowed.mapWhere _ (fun _ => rfl) (fun _ => rfl) fun _ _ => rfl
  have nor : ((c.rebuildTo (if c.mcTodo = [] then 3 else 2) 1).mirrorCheckpoint 0).nor = c.nor :=
    (State.mirrorCheckpoint_moves _ _).only .nor (by decide)
  have prot : ((c.rebuildTo (if c.mcTodo = [] then 3 else 2) 1).mirrorCheckpoint 0).prot =
      (c.rebuildTo (if c.mcTodo = [] then 3 else 2) 1).prot := (State.mirrorCheckpoint_moves _ _).only .prot (by decide)
  refine State.rebuildEnd_shadowed (h := q.2) ?_ ?_ ?_
  · rwa [State.longOps, nor]
  · rw [prot]
    exact ⟨empty.rows, empty.groups, empty.works, empty.excs⟩
  · rw [prot]
    show 2 ≤ (if c.mcTodo = [] then (3 : Fin 5) else 2).val
    split <;> decide

/-- LONG_OPERATION_START of a rebuild where none is active. -/
theorem longOperationStart_rebuild {s : State} {c : Nat} {x : Ctx} (hand : AtHand s c (isAction 0xC2 0) x) (update : x.update = false)
    (cdw13 : x.entry.cdw13 = 0) (cdw14 : x.entry.cdw14 = 0) (cdw15 : x.entry.cdw15 = 0) (kind : opKind x.entry = 1) :
    exec (.longOperationStart c) s = .next (s.startRebuild c x) := by
  show execLongOperationStart c s = _
  have good : firstBad (startBad x.entry ++ opRest x.entry (0 == 6)) = none := by
    simp [startBad, opRest, kind, cdw13, cdw14, cdw15]
  have applied : (s.ctx? c).any Ctx.unapplied = false := by
    simp [hand.1, Ctx.unapplied, update]
  rw [execLongOperationStart, State.runOp, State.settleEnded, applied, State.run_atHand hand, good, State.orElse_none, kind]
  rfl

/-- With every handle taken and nothing to rebuild, no rebuild is left after the start. -/
theorem State.startRebuild_noRebuild {s : State} (c : Nat) (x : Ctx) (taken : HandlesTaken s.longOps) (empty : s.prot.Empty) :
    ∀ o ∈ (s.startRebuild c x).longOps, o.kind ≠ 1 := by
  rw [State.startRebuild, taken.rebuild]
  dsimp only
  rw [State.started, State.longOps, (State.complete_moves _ _ _).only .nor (by decide)]
  intro o mem
  obtain ⟨y, was, rfl⟩ := List.mem_map.mp mem
  have other := State.runRebuild_noRebuild x.originCode taken empty y was
  split <;> exact other

/-! ## Every handle in use -/

/-- A surface scan that runs. -/
def scanOf (handle : Nat) : LongOp :=
  { handle := handle, kind := 3, st := .running, done := 0, total := 0, origin := 3, started := 0, result := 0, p0 := 0, p1 := 0, p2 := 0
    p3 := 0, cursor := 0, from_ := 0, kept := 0, suspendAsked := false, cancelAsked := false, byPs3 := false, slot := false, prefer := false
    image := [] }

/-- A command of port A, at hand, that starts a rebuild. -/
def rebuildRequest : Ctx :=
  { id := 7, origin := .host .a, sq := 0, part := .none, stage := .admitted, adm := 5, ana := .optimized, wait := .none, ns := 1, lba := 0
    nlb := 0, update := false, fua := false, data := [], saved := [], got := [], spilled := false, failed := []
    groups := (.optimized, .optimized), cpl := none, order := 0, heldD3 := false, lost := false, waitAt := 0, fetchedAt := 0
    entry := { opcode := 0xC2, cid := 1, nsid := 1, prp1 := 0, prp2 := 0, cdw10 := 0x100, cdw11 := 0, cdw12 := 0, cdw13 := 0, cdw14 := 0
               cdw15 := 0, data := [] } }

/-- A scan on each of the handles 1 to 65,535. -/
def everyScan : List LongOp := (List.range 0xFFFF).map fun i => scanOf (i + 1)

theorem everyScan_taken : HandlesTaken everyScan where
  other o mem := by
    rw [everyScan, List.mem_map] at mem
    obtain ⟨_, -, rfl⟩ := mem
    simp [scanOf]
  active o mem := by
    rw [everyScan, List.mem_map] at mem
    obtain ⟨_, -, rfl⟩ := mem
    rfl
  all h low high := by
    refine ⟨scanOf (h - 1 + 1), ?_, by simp only [scanOf]; omega⟩
    rw [everyScan, List.mem_map]
    exact ⟨h - 1, List.mem_range.mpr (by omega), rfl⟩

/-- A device with that command and those scans. -/
def State.noHandleFree : State :=
  { State.reset with
    ctxs := [rebuildRequest]
    nor := { Nor.reset with config := { ConfigStore.reset with ops := everyScan } } }

theorem State.noHandleFree_taken : HandlesTaken State.noHandleFree.longOps := by
  have ops : State.noHandleFree.longOps = everyScan := by rw [State.longOps, State.noHandleFree]
  rw [ops]
  exact everyScan_taken

/-- Refutes O28: its clause on the start of a rebuild where none is active finds the rebuild under its handle in every state. With every handle
in use, as in the state here, the next one is not an unused one. A rebuild that finds nothing to do ends with its start, and the operation
that ends is the first of the handle: the scan that had it before takes the rebuild's place in the list. -/
theorem not_longOperationCommands : ¬ Obligations.LongOperationCommands := by
  intro h
  obtain ⟨_, _, _, _, _, _, _, _, _, _, _, _, _, rebuild, _⟩ := h
  have hand : AtHand State.noHandleFree 7 (isAction 0xC2 0) rebuildRequest := ⟨rfl, rfl, by decide, .a, rfl⟩
  have taken := State.noHandleFree_taken
  obtain ⟨t, run, -, left⟩ := rebuild State.noHandleFree 7 rebuildRequest hand rfl rfl rfl rfl (by decide) taken.rebuild
  have started : t = State.noHandleFree.startRebuild 7 rebuildRequest :=
    Host.Outcome.next.inj (run.symm.trans (longOperationStart_rebuild hand rfl rfl rfl rfl (by decide)))
  rw [started, List.any_eq_true] at left
  obtain ⟨o, mem, found⟩ := left
  have other := State.startRebuild_noRebuild 7 rebuildRequest taken ⟨rfl, rfl, rfl, rfl⟩ o mem
  simp [other] at found

end Sys2Proof.Machine
end

section
/-! SUPPORT. Members and Understudy's course (spec/09 R329, R344, R346, R355, R357, R361 to R365): what the records, the marks and the ends
that their commands share leave of the tables of protection, and each command. -/

namespace Sys2Proof.Machine

/-! ## Records: of protection, the system bands alone change -/

theorem State.record_prot (b : SysBody) (s : State) : ∃ y, (s.record b).prot = { s.prot with sys := y } := ⟨_, rfl⟩

@[simp] theorem State.journalRec_prot (l : List Nat) (s : State) : (s.journalRec l).prot = s.prot :=
  (State.journalRec_moves l s).only .prot (by decide)

@[simp] theorem State.mirrorCheckpoint_prot (n : Nat) (s : State) : (s.mirrorCheckpoint n).prot = s.prot :=
  (State.mirrorCheckpoint_moves n s).only .prot (by decide)

theorem State.memberRec_prot (p : PortId) (s : State) : ∃ y, (s.memberRec p).prot = { s.prot with sys := y } := by
  rw [State.memberRec, State.memberRecAs, State.journalRec_prot]
  exact State.record_prot _ s

theorem State.putCheckpoint_prot (n : Nat) (s : State) : ∃ y, (s.putCheckpoint n).prot = { s.prot with sys := y } := by
  rw [State.putCheckpoint, State.mirrorCheckpoint_prot]
  exact State.record_prot _ s

@[simp] theorem State.memberRec_member (p q : PortId) (s : State) : (s.memberRec p).member q = s.member q := by
  obtain ⟨_, prot⟩ := State.memberRec_prot p s
  rw [State.member, prot, State.member]

@[simp] theorem State.raiseProt_member (n src : Nat) (q : PortId) (s : State) : (s.raiseProt n src).member q = s.member q := by
  rw [State.member, State.raiseProt_prot, State.member]

/-! ## The alarm on free spare -/

/-- Its event is all that the alarm adds to a change. -/
theorem State.watchSpare_prot (f : State → State) (s : State) :
    (s.watchSpare f).prot = (f s).prot ∨ (s.watchSpare f).prot = { (f s).prot with events := setBit (f s).prot.events 7 } := by
  unfold State.watchSpare State.when
  dsimp only
  split
  · exact .inr (State.raiseProt_prot 7 noSource _)
  · exact .inl rfl

@[simp] theorem State.watchSpare_member (f : State → State) (q : PortId) (s : State) : (s.watchSpare f).member q = (f s).member q := by
  obtain prot | prot := State.watchSpare_prot f s <;> rw [State.member, prot, State.member]

@[simp] theorem State.watchSpare_excs (f : State → State) (s : State) : (s.watchSpare f).prot.excs = (f s).prot.excs := by
  obtain prot | prot := State.watchSpare_prot f s <;> rw [prot]

/-! ## What there is to rebuild -/

/-- What decides where the chunks and the media-cache rows lie, and which of them are missing, is the same; by default each of
its parts is so by definition. -/
structure State.SameData (s t : State) : Prop where
  members : t.prot.members = s.prot.members := by rfl
  groups : t.prot.groups = s.prot.groups := by rfl
  excs : t.prot.excs = s.prot.excs := by rfl
  touched : t.prot.touched = s.prot.touched := by rfl
  mcRows : t.prot.mcRows = s.prot.mcRows := by rfl
  ports : t.ports = s.ports := by rfl
  acts : t.acts = s.acts := by rfl
  seqs : t.seqs = s.seqs := by rfl
  spins : t.spins = s.spins := by rfl
  mode : t.pair.mode = s.pair.mode := by rfl
  own : t.pair.own = s.pair.own := by rfl
  peerOwn : t.pair.peerOwn = s.pair.peerOwn := by rfl

namespace State.SameData

theorem trans {s t u : State} (a : s.SameData t) (b : t.SameData u) : s.SameData u where
  members := b.members.trans a.members
  groups := b.groups.trans a.groups
  excs := b.excs.trans a.excs
  touched := b.touched.trans a.touched
  mcRows := b.mcRows.trans a.mcRows
  ports := b.ports.trans a.ports
  acts := b.acts.trans a.acts
  seqs := b.seqs.trans a.seqs
  spins := b.spins.trans a.spins
  mode := b.mode.trans a.mode
  own := b.own.trans a.own
  peerOwn := b.peerOwn.trans a.peerOwn

variable {s t : State} (d : s.SameData t)
include d

theorem member (p : PortId) : t.member p = s.member p := by rw [State.member, d.members, State.member]

theorem actPresent : t.actPresent = s.actPresent := by
  funext a
  simp only [State.actPresent, State.actInService, State.port, State.act, State.seq, State.spin, d.member, d.ports, d.acts, d.seqs, d.spins,
    d.mode, d.own, d.peerOwn]

theorem placeOf : t.placeOf = s.placeOf := by
  funext g i j
  rw [State.placeOf, d.excs, State.placeOf]

theorem missingOf : t.missingOf = s.missingOf := by
  funext g i
  have chunk : t.chunkMissing g i = s.chunkMissing g i := by
    funext j
    simp only [State.chunkMissing, State.placeMissing, State.actOfPlace, d.actPresent, d.placeOf, d.member, d.touched]
  rw [State.missingOf, chunk, State.missingOf]

theorem todo : t.todo = s.todo := by
  have stripes : t.stripes = s.stripes := by rw [State.stripes, d.groups, State.stripes]
  simp only [State.todo, stripes, d.missingOf]

theorem mcTodo : t.mcTodo = s.mcTodo := by
  have missing : t.mcMissing = s.mcMissing := by
    funext r
    simp only [State.mcMissing, d.actPresent]
  rw [State.mcTodo, d.mcRows, missing, State.mcTodo]

end State.SameData

/-- Operations that reach none of the other parts leave it when they leave these tables and fields. -/
theorem State.SameData.of_moves {s t : State} (m : s.Moves [.aon, .nor, .book, .prot, .pair, .out] t)
    (members : t.prot.members = s.prot.members) (groups : t.prot.groups = s.prot.groups) (excs : t.prot.excs = s.prot.excs)
    (touched : t.prot.touched = s.prot.touched) (mcRows : t.prot.mcRows = s.prot.mcRows) (mode : t.pair.mode = s.pair.mode)
    (own : t.pair.own = s.pair.own) (peerOwn : t.pair.peerOwn = s.pair.peerOwn) : s.SameData t :=
  ⟨members, groups, excs, touched, mcRows, m.only .ports (by decide), m.only .acts (by decide), m.only .seqs (by decide),
    m.only .spins (by decide), mode, own, peerOwn⟩

theorem State.sendKept_pair (type : Nat) (payload : List Nat) (blocks : List Blk) (ns lba : Nat) (adm : W32) (ctx : Option Nat) (s : State) :
    ∃ n l, (s.sendKept type payload blocks ns lba adm ctx).pair = { s.pair with msgSeq := n, unanswered := l } := ⟨_, _, rfl⟩

theorem State.journalRec_pair (l : List Nat) (s : State) :
    ∃ n k, (s.journalRec l).pair = { s.pair with msgSeq := n, unanswered := k } := by
  unfold State.journalRec State.when
  split
  · exact State.sendKept_pair _ _ _ _ _ _ _ s
  · exact ⟨_, _, rfl⟩

/-- A message to the peer leaves it. -/
theorem State.journalRec_sameData (l : List Nat) (s : State) : s.SameData (s.journalRec l) := by
  have m : s.Moves [.aon, .nor, .book, .prot, .pair, .out] (s.journalRec l) :=
    Moves.op (State.journalRec_moves l s) (by decide) (Moves.refl _ _)
  obtain ⟨_, _, pair⟩ := State.journalRec_pair l s
  apply State.SameData.of_moves m <;> simp [pair]

/-- So does an event. -/
theorem State.raiseProt_sameData (n src : Nat) (s : State) : s.SameData (s.raiseProt n src) := by
  have m : s.Moves [.aon, .nor, .book, .prot, .pair, .out] (s.raiseProt n src) :=
    Moves.op (State.raiseProt_moves n src s) (by decide) (Moves.refl _ _)
  have pair : (s.raiseProt n src).pair = s.pair := (State.raiseProt_moves n src s).only .pair (by decide)
  apply State.SameData.of_moves m <;> simp [pair, State.raiseProt_prot]

theorem State.journalRec_now (l : List Nat) (s : State) : (s.journalRec l).now = s.now := by
  unfold State.journalRec State.when
  split <;> rfl

/-- While stripes are left the rebuild does not end. -/
theorem State.rebuildEnd_todo {s : State} (h : s.todo ≠ []) : s.rebuildEnd = s := by
  unfold State.rebuildEnd
  split
  · rfl
  · rw [if_pos (.inr (.inr (.inl h)))]

/-! ## Member Failed -/

theorem State.markFailed_prot (p : PortId) (f : Member → Member) (s : State) :
    (∀ q, (s.markFailed p f).member q = (s.modMember p f).member q) ∧ (s.markFailed p f).prot.events.getLsbD 2 = true := by
  obtain ⟨_, prot⟩ := State.memberRec_prot p ((((s.watchSpare (State.modMember p f)).modProt fun q => { q with
    rebuildHeld := false, rebuildDue := true }).raiseProt 2 p.val))
  constructor
  · intro q
    rw [State.markFailed, State.memberRec_member, State.raiseProt_member]
    exact State.watchSpare_member _ q s
  · rw [State.markFailed, prot, State.raiseProt_prot]
    exact setBit_get _ _ (by decide)

@[simp] theorem State.noteService_member_other {p q : PortId} (h : q ≠ p) (s : State) : (s.noteService p).member q = s.member q := by
  simp [State.noteService, h]

@[simp] theorem State.noteService_memberSt (p : PortId) (s : State) : ((s.noteService p).member p).st = (s.member p).st := by
  simp [State.noteService]

theorem memberFailed_failedPort {s : State} {p : PortId} (member : (s.member p).st = .member) (peer : s.peerOwns p = false)
    (port : (s.port p).train = 0xA) : Does (.memberFailed p) s fun t =>
      (t.member p).st = .failed ∧ t.prot.events.getLsbD 2 = true ∧ ∀ q, q ≠ p → t.member q = s.member q := by
  have runs : exec (.memberFailed p) s = .next ((s.noteService p).markFailed p fun m => { m with st := .failed }) := by
    show execMemberFailed p s = _
    have owns : (s.noteService p).peerOwns p = false := peer
    have failed : ((s.noteService p).port p).train = 0xA := port
    have serves : ¬(((s.noteService p).member p).st ≠ .member ∨ (s.noteService p).peerOwns p = true) := by
      rw [State.noteService_memberSt, member, owns]
      decide
    rw [execMemberFailed]
    dsimp only
    rw [if_neg serves, if_pos failed]
  obtain ⟨members, event⟩ := State.markFailed_prot p (fun m => { m with st := .failed }) (s.noteService p)
  refine ⟨_, runs, ?_, event, fun q other => ?_⟩
  · rw [members]; simp
  · rw [members]; simp [other]

/-! ## Understudy's start -/

/-- An active operation is kept. -/
theorem mem_keepOps_of_active {l : List LongOp} {o : LongOp} (mem : o ∈ l) (active : o.st.active = true) : o ∈ keepOps l :=
  List.mem_append_left _ (List.mem_filter.mpr ⟨mem, active⟩)

/-- The operation of a new rebuild is among those that are active, with the handle returned. -/
theorem State.newRebuild_mem (st : OpState) (origin : Nat) (s : State) (active : st.active = true) :
    ∃ o ∈ (s.newRebuild st origin).1.longOps, o.handle = (s.newRebuild st origin).2 ∧ o.kind = 1 ∧ o.st = st :=
  ⟨_, mem_keepOps_of_active (List.mem_append_right _ (List.mem_singleton.mpr rfl)) active, rfl, rfl, rfl⟩

theorem State.newRebuild_sameData (st : OpState) (origin : Nat) (s : State) : s.SameData (s.newRebuild st origin).1 := by
  have m := State.newRebuild_moves st origin s
  have prot : (s.newRebuild st origin).1.prot = s.prot := m.only .prot (by decide)
  have pair : (s.newRebuild st origin).1.pair = s.pair := m.only .pair (by decide)
  apply State.SameData.of_moves (Moves.op m (by decide) (Moves.refl _ _)) <;> simp [prot, pair]

/-- The rebuild starts on the stripes where no media-cache row is short of strips. -/
theorem State.runRebuild_stripes {s : State} (origin : Nat) (idle : s.rebuild? = none) (rows : s.mcTodo = []) (stripes : s.todo ≠ []) :
    (s.runRebuild origin).prot.rebuildPhase = 3 ∧ (s.runRebuild origin).prot.rebuildState = 1 ∧
    (s.runRebuild origin).prot.rebuildDone = 0 ∧ (s.runRebuild origin).prot.rebuildTotal = s.todo.length ∧
    ((s.runRebuild origin).longOps.any fun y => y.handle == (s.runRebuild origin).prot.rebuildHandle && y.kind == 1 && y.st == .running) =
      true ∧
    (s.runRebuild origin).now = s.now ∧ (s.runRebuild origin).prot.excs = s.prot.excs := by
  unfold State.runRebuild
  rw [idle]
  extract_lets q a n b c
  have given : s.SameData q.1 := State.newRebuild_sameData .running origin s
  have same : q.1.now = s.now := rfl
  have listed : ∃ o ∈ q.1.longOps, o.handle = q.2 ∧ o.kind = 1 ∧ o.st = .running := State.newRebuild_mem .running origin s rfl
  clear_value q
  have begun : s.SameData c := given.trans {}
  have total : n = s.todo.length := by rw [← given.todo]
  have goes : ((c.rebuildTo 3 1).mirrorCheckpoint 0).todo ≠ [] := by
    have going : c.SameData (c.rebuildTo 3 1) := {}
    rwa [State.mirrorCheckpoint, (begun.trans (going.trans (State.journalRec_sameData _ _))).todo]
  rw [begun.mcTodo, if_pos rows, State.rebuildEnd_todo goes]
  obtain ⟨o, mem, handle, kind, -⟩ := listed
  have nor : ((c.rebuildTo 3 1).mirrorCheckpoint 0).nor = c.nor := (State.mirrorCheckpoint_moves _ _).only .nor (by decide)
  rw [State.mirrorCheckpoint_prot]
  have now : ((c.rebuildTo 3 1).mirrorCheckpoint 0).now = s.now := (State.journalRec_now _ _).trans same
  refine ⟨rfl, rfl, rfl, total, ?_, now, given.excs⟩
  have named : (c.rebuildTo 3 1).prot.rebuildHandle = q.2 := rfl
  rw [State.longOps, nor, List.any_eq_true]
  exact ⟨if o.handle == q.2 then { o with st := .running, total := o.done + n } else o, List.mem_map_of_mem mem, by
    simp [named, handle, kind]⟩

/-- A device that is up, with nothing to be destaged first, and the controller that coordinates: Understudy may start. -/
theorem State.understudy_free {s : State} (dump : s.names.dumping = false) (up : s.boot.complete = true) (first : s.destageFirst = false)
    (here : s.coordinates = true) :
    ¬(s.names.dumping = true ∨ s.boot.complete = false ∨ s.destageFirst = true ∨ s.coordinates = false) := by
  simp [dump, up, first, here]

theorem understudyStart_joins {s : State} {o : LongOp} (active : s.rebuild? = some o) (run : o.st = .running)
    (dump : s.names.dumping = false) (up : s.boot.complete = true) (first : s.destageFirst = false) (here : s.coordinates = true)
    (phase : 3 ≤ s.prot.rebuildPhase.val) (rows : s.mcTodo = []) (stripes : s.todo ≠ []) : Does .understudyStart s fun t =>
      t.prot.rebuildTotal = max s.prot.rebuildTotal (s.prot.rebuildDone + s.todo.length) ∧ t.prot.rebuildPhase = 3 ∧ t.names = s.names ∧
      t.nor = s.nor := by
  have running : ¬(s.prot.rebuildPhase.val < 2 ∨ o.st = .suspended) := by
    rw [run]
    simp
    omega
  have past : s.prot.rebuildPhase ≠ 2 := by
    intro two
    rw [two] at phase
    exact absurd phase (by decide)
  have runs : exec .understudyStart s = .next s.joinRebuild := by
    show execUnderstudyStart s = _
    unfold execUnderstudyStart
    rw [if_neg (State.understudy_free dump up first here), active]
    dsimp only
    rw [if_neg (by rw [run]; decide), if_neg running]
  refine ⟨_, runs, ?_⟩
  unfold State.joinRebuild
  extract_lets n t
  have same : s.SameData t := {}
  have stay : t.prot.rebuildPhase ≠ 2 := past
  rw [if_neg stay, same.mcTodo, if_neg (not_not.mpr rows), same.todo, if_pos stripes]
  exact ⟨rfl, rfl, rfl, rfl⟩

theorem understudyStart_fails {s : State} (idle : s.rebuild? = none) (failed : s.failedNow = true) (held : s.prot.rebuildHeld = false)
    (dump : s.names.dumping = false) (up : s.boot.complete = true) (first : s.destageFirst = false) (here : s.coordinates = true)
    (rows : s.mcTodo = []) (stripes : s.todo ≠ []) : Does .understudyStart s fun t => t.prot.rebuildPhase = 3
    ∧ t.prot.rebuildState = 1 ∧ t.prot.rebuildTotal = s.todo.length ∧ (t.longOps.any fun y => y.handle == t.prot.rebuildHandle && y.kind ==
    1 && y.st == .running) = true ∧ t.now = s.now ∧ t.prot.excs = s.prot.excs := by
  have runs : exec .understudyStart s = .next (s.runRebuild 3) := by
    show execUnderstudyStart s = _
    unfold execUnderstudyStart
    rw [if_neg (State.understudy_free dump up first here), idle]
    dsimp only
    rw [if_neg (by simp [held]), if_pos ⟨failed, .inr (.inl stripes)⟩]
  obtain ⟨phase, state, -, total, listed, now, excs⟩ := State.runRebuild_stripes 3 idle rows stripes
  exact ⟨_, runs, phase, state, total, listed, now, excs⟩

theorem understudyStart_absent {s : State} {since : Nat} (idle : s.rebuild? = none) (well : s.failedNow = false)
    (absent : s.absentSince = some since) (dump : s.names.dumping = false) (up : s.boot.complete = true) (first : s.destageFirst = false)
    (here : s.coordinates = true) (held : s.prot.rebuildHeld = false) (rows : s.mcTodo = []) (stripes : s.todo ≠ []) :
    Does .understudyStart s fun t => t.prot.rebuildPhase = 3 ∧ t.prot.rebuildState = 1 ∧ t.prot.rebuildDone = 0 ∧ t.prot.rebuildTotal =
      s.todo.length ∧ (t.longOps.any fun y => y.handle == t.prot.rebuildHandle && y.kind == 1 && y.st == .running) = true ∧
      since + s.nor.config.rebuildDelay * Config.sec ≤ t.now ∧ t.prot.excs = s.prot.excs := by
  have runs : exec .understudyStart s = .next ((s.at_ (since + s.nor.config.rebuildDelay * Config.sec)).runRebuild 3) := by
    show execUnderstudyStart s = _
    unfold execUnderstudyStart
    rw [if_neg (State.understudy_free dump up first here), idle]
    dsimp only
    rw [if_neg (by simp [held]), if_neg (by simp [well]), absent]
  have same : s.SameData (s.at_ (since + s.nor.config.rebuildDelay * Config.sec)) :=
    {}
  obtain ⟨phase, state, done, total, listed, now, excs⟩ :=
    State.runRebuild_stripes 3 (s := s.at_ (since + s.nor.config.rebuildDelay * Config.sec)) idle (same.mcTodo.trans rows)
      (by rwa [same.todo])
  refine ⟨_, runs, phase, state, done, by rw [total, same.todo], listed, ?_, excs⟩
  rw [now]
  exact Nat.le_max_right _ _

theorem understudyStart_holds {s : State} (idle : s.rebuild? = none) (held : s.prot.rebuildHeld = true ∨ s.destageFirst = true) :
    Does .understudyStart s fun t => t = s := by
  refine ⟨s, ?_, rfl⟩
  show execUnderstudyStart s = _
  unfold execUnderstudyStart
  dsimp only
  split
  · rfl
  next free =>
    have first : ¬s.destageFirst = true := fun first => free (.inr (.inr (.inl first)))
    rw [idle]
    dsimp only
    rw [if_pos (held.resolve_right first)]

/-! ## Checkpoints -/

theorem rebuildCheckpoint_taken {s : State} {o : LongOp} (active : s.rebuild? = some o) (ps3 : o.byPs3 = false)
    (ack : s.prot.checkAck = none) (alone : s.mirrors = false) (further : s.prot.checkpoint + 256 ≤ s.committedBelow) :
    Does .rebuildCheckpoint s fun t => t.prot.checkpoint = s.committedBelow ∧ t.prot.checkAck = none ∧ t.prot.excs = s.prot.excs ∧
      t.prot.works = s.prot.works ∧ t.names = s.names := by
  have due : ¬(s.rebuild?.isNone = true ∨ s.prot.checkAck.isSome = true ∨ s.committedBelow < s.prot.checkpoint + 256) := by
    simp [active, ack]
    omega
  have runs : exec .rebuildCheckpoint s = .next ((s.record (.checkpoint s.committedBelow)).checkpointDone s.committedBelow) := by
    show execRebuildCheckpoint s = _
    unfold execRebuildCheckpoint
    dsimp only
    rw [if_neg due, if_neg (show ¬(s.record (.checkpoint s.committedBelow)).mirrors = true by
      show ¬s.mirrors = true
      simp [alone])]
  refine ⟨_, runs, ?_⟩
  unfold State.checkpointDone
  extract_lets t
  have same : t.rebuild? = some o := active
  rw [same]
  dsimp only
  rw [if_neg (by simp [ps3])]
  exact ⟨rfl, rfl, rfl, rfl, rfl⟩

theorem rebuildCheckpoint_mirrored {s : State} {o : LongOp} (active : s.rebuild? = some o) (ack : s.prot.checkAck = none)
    (pair : s.mirrors = true) (further : s.prot.checkpoint + 256 ≤ s.committedBelow) :
    Does .rebuildCheckpoint s fun t => t.prot.checkpoint = s.prot.checkpoint ∧ t.prot.checkAck = some (s.committedBelow, t.pair.msgSeq) ∧
      t.prot.works = s.prot.works ∧ t.names = s.names := by
  have due : ¬(s.rebuild?.isNone = true ∨ s.prot.checkAck.isSome = true ∨ s.committedBelow < s.prot.checkpoint + 256) := by
    simp [active, ack]
    omega
  have runs : exec .rebuildCheckpoint s = .next (((s.record (.checkpoint s.committedBelow)).mirrorCheckpoint s.committedBelow).modProt
      fun p => { p with checkAck := some (s.committedBelow,
        ((s.record (.checkpoint s.committedBelow)).mirrorCheckpoint s.committedBelow).pair.msgSeq) }) := by
    show execRebuildCheckpoint s = _
    unfold execRebuildCheckpoint
    dsimp only
    rw [if_neg due, if_pos (show (s.record (.checkpoint s.committedBelow)).mirrors = true from pair)]
  refine ⟨_, runs, ?_⟩
  have names : ((s.record (.checkpoint s.committedBelow)).mirrorCheckpoint s.committedBelow).names = s.names :=
    (State.mirrorCheckpoint_moves _ _).only .names (by decide)
  have prot : ((s.record (.checkpoint s.committedBelow)).mirrorCheckpoint s.committedBelow).prot =
      (s.record (.checkpoint s.committedBelow)).prot := State.mirrorCheckpoint_prot _ _
  have checkpoint : ((s.record (.checkpoint s.committedBelow)).mirrorCheckpoint s.committedBelow).prot.checkpoint = s.prot.checkpoint := by
    rw [prot]; rfl
  have works : ((s.record (.checkpoint s.committedBelow)).mirrorCheckpoint s.committedBelow).prot.works = s.prot.works := by
    rw [prot]; rfl
  exact ⟨checkpoint, rfl, works, names⟩

/-! ## Resume and blocked -/

/-- Nothing asked of the rebuild waits for the end of its stripes. -/
theorem State.worksGone_unasked {s : State} {o : LongOp} (active : s.rebuild? = some o) (cancel : o.cancelAsked = false)
    (suspend : o.suspendAsked = false) : s.worksGone = s := by
  rw [State.worksGone, active]
  dsimp only
  rw [if_neg (by simp [cancel, suspend])]

/-- With stripes left and nothing asked of the rebuild, a resume tells that it goes on with them, in the state that the operation has. -/
theorem State.rebuildResumed {s u : State} {o : LongOp} (data : s.SameData u) (active : u.rebuild? = some o) (cancel : o.cancelAsked = false)
    (suspend : o.suspendAsked = false) (rows : s.mcTodo = []) (stripes : s.todo ≠ []) (st : Fin 5) :
    ((u.raiseProt 3 noSource).rebuildTo (if (u.raiseProt 3 noSource).mcTodo = [] then 3 else 2) st).rebuildEnd.worksGone =
      (u.raiseProt 3 noSource).rebuildTo 3 st := by
  have told : s.SameData (u.raiseProt 3 noSource) := data.trans (State.raiseProt_sameData _ _ _)
  have goes : s.SameData ((u.raiseProt 3 noSource).rebuildTo 3 st) :=
    told.trans {}
  have nor : (u.raiseProt 3 noSource).nor = u.nor := (State.raiseProt_moves _ _ _).only .nor (by decide)
  have still : ((u.raiseProt 3 noSource).rebuildTo 3 st).rebuild? = some o := by
    rw [← active]
    exact congrArg (fun n : Nor => (n.config.ops.filter fun o => o.kind == 1 && o.st.active).head?) nor
  rw [told.mcTodo, if_pos rows, State.rebuildEnd_todo (by rwa [goes.todo]), State.worksGone_unasked still cancel suspend]

theorem rebuildResume_goesOn {s : State} {o : LongOp} (active : s.rebuild? = some o) (phase : s.prot.rebuildPhase = 0)
    (up : s.boot.complete = true) (begun : o.st ≠ .waiting) (cancel : o.cancelAsked = false) (suspend : o.suspendAsked = false)
    (rows : s.mcTodo = []) (stripes : s.todo ≠ []) : Does .rebuildResume s fun t => t.prot.works = s.prot.works ∧
      t.prot.rebuildPhase = 3 ∧ t.prot.rebuildHandle = o.handle ∧ t.prot.rebuildDone = o.done ∧ t.prot.events.getLsbD 3 = true ∧
      t.prot.excs = s.prot.excs := by
  have resumed := State.rebuildResumed (s := s) (u := s.modProt fun p => { p with
    rebuildHandle := o.handle, rebuildDone := o.done, rebuildTotal := o.done + s.todo.length, started := o.done })
    {} active cancel suspend rows stripes
  refine ⟨_, show execRebuildResume s = _ from rfl, ?_⟩
  rw [active]
  dsimp only
  rw [if_neg (by simp [phase, up, begun]), if_neg (by simp [cancel]), resumed, State.rebuildTo, State.modProt_prot, State.raiseProt_prot]
  exact ⟨rfl, rfl, rfl, rfl, setBit_get _ _ (by decide), rfl⟩

/-- The operation that has just ended is kept. -/
theorem mem_keepOps_last (l : List LongOp) {o : LongOp} (ended : o.st.active = false) : o ∈ keepOps (l ++ [o]) := by
  have last : (l ++ [o]).filter (fun o => !o.st.active) = l.filter (fun o => !o.st.active) ++ [o] := by
    rw [List.filter_append]
    simp [ended]
  refine List.mem_append_right _ ?_
  rw [last, List.drop_append_of_le_length (by rw [List.length_append, List.length_singleton]; omega)]
  exact List.mem_append_right _ (List.mem_singleton.mpr rfl)

/-- An operation of the handle has then ended so. -/
theorem State.endOp_mem {s : State} {o : LongOp} (mem : o ∈ s.longOps) {st : OpState} (ended : st.active = false) (result : W16) :
    ∃ y ∈ (s.endOp o.handle st result).longOps, y.handle = o.handle ∧ y.st = st := by
  obtain ⟨y, found⟩ : ∃ y, s.longOps.find? (fun x => x.handle == o.handle) = some y :=
    Option.isSome_iff_exists.mp (List.find?_isSome.mpr ⟨o, mem, by simp⟩)
  have handle : y.handle = o.handle := by simpa using List.find?_some found
  refine ⟨{ y with st := st, result := result, suspendAsked := false, cancelAsked := false, byPs3 := false }, ?_, handle, rfl⟩
  rw [State.endOp_longOps found]
  exact mem_keepOps_last _ ended

theorem State.rebuildCancelled_prot (s : State) : ∃ y, s.rebuildCancelled.prot = { s.prot with
    rebuildPhase := 0, rebuildState := 4, rebuildHeld := true, checkpoint := 0, checkAck := none, started := 0, sys := y } := by
  rw [State.rebuildCancelled]
  exact State.putCheckpoint_prot 0 _

theorem rebuildResume_cancels {s : State} {o : LongOp} (active : s.rebuild? = some o) (phase : s.prot.rebuildPhase = 0)
    (up : s.boot.complete = true) (begun : o.st ≠ .waiting) (cancel : o.cancelAsked = true)
    (idle : (s.prot.works.all fun w => w.kind != .rebuild) = true) : Does .rebuildResume s fun t =>
      (t.longOps.any fun y => y.handle == o.handle && y.st == .cancelled) = true ∧ t.prot.rebuildHeld = true ∧ t.prot.checkpoint = 0 ∧
      t.prot.excs = s.prot.excs := by
  have runs : exec .rebuildResume s = .next (s.endOp o.handle .cancelled (Config.cancelResult 1)).rebuildCancelled := by
    show execRebuildResume s = _
    rw [execRebuildResume, active]
    dsimp only
    rw [if_neg (by simp [phase, up, begun]), if_pos cancel, State.worksGone, active]
    dsimp only
    rw [if_pos ⟨idle, .inl cancel⟩, State.commitPoint, active]
    dsimp only
    rw [if_pos cancel, if_pos idle]
  have mem : o ∈ s.longOps := List.mem_of_mem_filter (List.mem_of_mem_head? active)
  obtain ⟨y, listed, handle, state⟩ := State.endOp_mem mem (st := .cancelled) rfl (Config.cancelResult 1)
  have prot : (s.endOp o.handle .cancelled (Config.cancelResult 1)).prot = s.prot := (State.endOp_moves _ _ _ _).only .prot (by decide)
  obtain ⟨_, cancelled⟩ := State.rebuildCancelled_prot (s.endOp o.handle .cancelled (Config.cancelResult 1))
  refine ⟨_, runs, ?_, by rw [cancelled], by rw [cancelled], by rw [cancelled, prot]⟩
  rw [State.longOps, (State.rebuildCancelled_moves _).only .nor (by decide), List.any_eq_true]
  exact ⟨y, listed, by simp [handle, state]⟩

theorem rebuildBlocked_blocks {s : State} {o : LongOp} {g : Group} {i : Nat} (active : s.rebuild? = some o) (run : o.st = .running)
    (next : s.nextStripe = some (g, i)) (none : (s.chooseTargets g i (s.missingOf g i)).isNone = true) : Does .rebuildBlocked s fun t =>
      t.prot.rebuildState = 3 ∧ t.prot.events.getLsbD 4 = true ∧
      (t.longOps.any fun y => y.handle == o.handle && y.st == .blocked) = true ∧ t.prot.excs = s.prot.excs := by
  have runs : exec .rebuildBlocked s = .next
      (((s.modOp o.handle fun o => { o with st := .blocked }).rebuildTo s.prot.rebuildPhase 3).raiseProt 4 noSource) := by
    show execRebuildBlocked s = _
    unfold execRebuildBlocked
    rw [active, next]
    dsimp only
    rw [if_pos ⟨run, none⟩]
  have mem : o ∈ s.longOps := List.mem_of_mem_filter (List.mem_of_mem_head? active)
  refine ⟨_, runs, ?_, ?_, ?_, ?_⟩
  · rw [State.raiseProt_prot]; rfl
  · rw [State.raiseProt_prot]; exact setBit_get _ _ (by decide)
  · rw [State.longOps, (State.raiseProt_moves _ _ _).only .nor (by decide), List.any_eq_true]
    exact ⟨if o.handle == o.handle then { o with st := .blocked } else o, List.mem_map_of_mem mem, by simp⟩
  · rw [State.raiseProt_prot]; rfl

/-! ## Member Returned -/

/-- From one table of protection to a later one: a member in state 0x1 is as it was, and so are the exceptions; no event is cleared. -/
structure Prot.Keeps (p : PortId) (a b : Prot) : Prop where
  member : a.members[p].st = .member → b.members[p] = a.members[p]
  events : ∀ n, a.events.getLsbD n = true → b.events.getLsbD n = true
  excs : b.excs = a.excs

theorem Prot.Keeps.refl (p : PortId) (a : Prot) : a.Keeps p a := ⟨fun _ => rfl, fun _ h => h, rfl⟩

theorem Prot.Keeps.trans {p : PortId} {a b c : Prot} (h : a.Keeps p b) (k : b.Keeps p c) : a.Keeps p c where
  member m := by
    have same := h.member m
    rw [k.member (by rw [same]; exact m), same]
  events n e := k.events n (h.events n e)
  excs := k.excs.trans h.excs

/-- An operation that does not reach protection keeps it. -/
theorem Prot.Keeps.of_moves {p : PortId} {l : List Part} {s t : State} (m : s.Moves l t) (h : Part.prot ∉ l) : s.prot.Keeps p t.prot := by
  have prot : t.prot = s.prot := m.only .prot h
  rw [prot]
  exact Prot.Keeps.refl p _

section
variable (p : PortId)

theorem State.raiseProt_keeps (n src : Nat) (s : State) : s.prot.Keeps p (s.raiseProt n src).prot := by
  rw [State.raiseProt_prot]
  exact ⟨fun _ => rfl, fun m h => setBit_keep _ n m h, rfl⟩

theorem State.putCheckpoint_keeps (n : Nat) (s : State) : s.prot.Keeps p (s.putCheckpoint n).prot := by
  obtain ⟨_, prot⟩ := State.putCheckpoint_prot n s
  rw [prot]
  exact ⟨fun _ => rfl, fun _ h => h, rfl⟩

theorem State.memberRec_keeps (q : PortId) (s : State) : s.prot.Keeps p (s.memberRec q).prot := by
  obtain ⟨_, prot⟩ := State.memberRec_prot q s
  rw [prot]
  exact ⟨fun _ => rfl, fun _ h => h, rfl⟩

theorem State.rebuildTo_keeps (phase st : Fin 5) (s : State) : s.prot.Keeps p (s.rebuildTo phase st).prot :=
  ⟨fun _ => rfl, fun _ h => h, rfl⟩

theorem State.rebuildCancelled_keeps (s : State) : s.prot.Keeps p s.rebuildCancelled.prot := by
  obtain ⟨_, prot⟩ := State.rebuildCancelled_prot s
  rw [prot]
  exact ⟨fun _ => rfl, fun _ h => h, rfl⟩

/-- A failed or an absent member that is retired is none in state 0x1. -/
theorem State.retired_keeps (q : PortId) {s : State} (gone : (s.member q).st = .failed ∨ (s.member q).st = .absent) :
    s.prot.Keeps p (s.modMember q fun m => { m with st := .retired }).prot where
  member here := by
    have other : q ≠ p := by
      rintro rfl
      have here : (s.member q).st = .member := here
      rw [here] at gone
      simp at gone
    rw [State.modMember_prot, upd_get, if_neg other]
  events _ h := h
  excs := rfl

theorem State.retireMembers_keeps (s : State) : s.prot.Keeps p s.retireMembers.prot := by
  refine State.each_inv (P := fun t => s.prot.Keeps p t.prot) (fun q t kept => ?_) _ (Prot.Keeps.refl p _)
  dsimp only
  split
  next gone => exact kept.trans ((State.retired_keeps p q gone.1).trans (State.memberRec_keeps p q _))
  · exact kept

theorem State.rebuildEnd_keeps (s : State) : s.prot.Keeps p s.rebuildEnd.prot := by
  unfold State.rebuildEnd
  split
  · exact Prot.Keeps.refl p _
  next o _ =>
    split
    · exact Prot.Keeps.refl p _
    · split
      · split
        · exact (Prot.Keeps.of_moves (State.modOp_moves _ _ s) (by decide)).trans (State.rebuildTo_keeps p _ _ _)
        · exact State.rebuildTo_keeps p _ _ s
      · extract_lets t u
        have ended : s.prot.Keeps p t.prot :=
          (Prot.Keeps.of_moves (State.endOp_moves _ _ _ s) (by decide)).trans (State.raiseProt_keeps p 5 noSource _)
        have ceased : t.prot.Keeps p u.prot := ⟨fun _ => rfl, fun _ h => h, rfl⟩
        exact ended.trans (ceased.trans ((State.putCheckpoint_keeps p 0 u).trans (State.retireMembers_keeps p _)))

theorem State.commitPoint_keeps (s : State) : s.prot.Keeps p s.commitPoint.prot := by
  unfold State.commitPoint
  split
  · exact Prot.Keeps.refl p _
  · split
    · split
      · exact (Prot.Keeps.of_moves (State.endOp_moves _ _ _ s) (by decide)).trans (State.rebuildCancelled_keeps p _)
      · exact Prot.Keeps.refl p _
    · split
      · exact (Prot.Keeps.of_moves (State.opPoint_moves _ s) (by decide)).trans (State.rebuildTo_keeps p _ _ _)
      · exact State.rebuildEnd_keeps p s

theorem State.worksGone_keeps (s : State) : s.prot.Keeps p s.worksGone.prot := by
  unfold State.worksGone
  split
  · split
    · exact State.commitPoint_keeps p s
    · exact Prot.Keeps.refl p _
  · exact Prot.Keeps.refl p _

theorem State.noteDirty_keeps (s : State) : s.prot.Keeps p s.noteDirty.prot := by
  unfold State.noteDirty State.when
  dsimp only
  split <;> exact ⟨fun _ => rfl, fun _ h => h, rfl⟩

end

@[simp] theorem State.noteDirty_buffer (s : State) : s.noteDirty.names.buffer = s.names.buffer := by
  unfold State.noteDirty State.when
  dsimp only
  split <;> rfl

/-- With no command in the device nothing waits for its turn. -/
theorem State.settleOrder_noCtx {s : State} (h : s.ctxs = []) : s.settleOrder = s := by
  simp [State.settleOrder, State.applySpace, State.applyTurns, State.settleWaits, State.each, h]

/-- With no command in the device and PS3 not being entered, a changed buffer keeps its blocks and protection. -/
theorem State.bufferChanged_keeps {s : State} (h : s.ctxs = []) (quiet : s.power.entering = false) (p : PortId) :
    s.prot.Keeps p s.bufferChanged.prot ∧ s.bufferChanged.names.buffer = s.names.buffer := by
  have empty : s.noteDirty.ctxs = [] := ((State.noteDirty_moves s).only .ctxs (by decide)).trans h
  have noted : s.Moves [.aon, .nor, .names, .prot] s.noteDirty.noteDirty :=
    Moves.op (State.noteDirty_moves _) (by decide) (State.noteDirty_moves s)
  have later : s.noteDirty.noteDirty.Moves [.aon, .nor, .book, .fa, .fb, .mem, .free]
      (((s.noteDirty.noteDirty.shutdownDone .a).shutdownDone .b).retireWaiting) :=
    Moves.op (State.retireWaiting_moves _) (by decide) (Moves.op (State.shutdownDone_moves _ _) (by decide)
      (Moves.op (State.shutdownDone_moves _ _) (by decide) (Moves.refl _ _)))
  have power : (((s.noteDirty.noteDirty.shutdownDone .a).shutdownDone .b).retireWaiting).power = s.power :=
    (later.only .power (by decide)).trans (noted.only .power (by decide))
  have names : (((s.noteDirty.noteDirty.shutdownDone .a).shutdownDone .b).retireWaiting).names = s.noteDirty.noteDirty.names :=
    later.only .names (by decide)
  rw [State.bufferChanged, State.settleOrder_noCtx empty, State.noteClean, State.settleDeletes_noCtx empty, if_neg (by simp [power, quiet])]
  refine ⟨((State.noteDirty_keeps p s).trans (State.noteDirty_keeps p _)).trans (Prot.Keeps.of_moves later (by decide)), ?_⟩
  rw [names, State.noteDirty_buffer, State.noteDirty_buffer]

/-! ### The member that is back -/

/-- The member's entry once it is back. -/
def Member.back (m : Member) : Member := { m with st := .member, outAt0 := none, outAt1 := none, outNs0 := 0, outNs1 := 0 }

theorem Prot.releaseWorks_excs (f : Work → Bool) (a : Prot) : (a.releaseWorks f).excs = a.excs :=
  List.foldlRecOn (motive := fun b : Prot => b.excs = a.excs) _ _ rfl fun _ h _ _ => h

@[simp] theorem State.memberBack_excs (p : PortId) (s : State) : (s.memberBack p).prot.excs = s.prot.excs :=
  Prot.releaseWorks_excs _ s.prot

theorem State.watchSpare_moves {l : List Part} {f : State → State} {s : State} (m : s.Moves l (f s)) (hl : [.aon, .book, .prot] ⊆ l) :
    s.Moves l (s.watchSpare f) := by
  unfold State.watchSpare
  exact Moves.when (fun _ h => Moves.op (State.raiseProt_moves _ _ _) hl h) m

/-- An actuator in service has no time out of service. -/
theorem State.noteService_serving (p : PortId) (s : State) :
    (s.actInService (actOf p 0) = true → ((s.noteService p).member p).outAt0 = none) ∧
    (s.actInService (actOf p 1) = true → ((s.noteService p).member p).outAt1 = none) := by
  constructor <;> intro serving <;> simp [State.noteService, outClock, serving]

/-- The entry of an absent member that is here again, in the records too: it is a member, its service counts from now, and what there is to
rebuild goes on without its chunks. -/
def State.readmit (p : PortId) (s : State) : State :=
  ((((s.memberBack p).watchSpare (State.modMember p Member.back)).noteService p).raiseProt 0 p.val).memberRec p

/-- A rebuild that waited for this member alone is not needed. -/
def State.waitEnds (s : State) : State := match s.rebuild? with
  | some o => if o.st = OpState.waiting ∧ s.absentSince.isNone = true then (s.endOp o.handle .completed 0).rebuildTo 0 0 else s
  | none => s

theorem execMemberReturned_here {p : PortId} {s : State} (here : s.memberHere p = true) :
    execMemberReturned p s = .next (s.readmit p).waitEnds.rebuildEnd.worksGone.bufferChanged := by
  rw [execMemberReturned, if_pos here]
  rfl

theorem State.waitEnds_keeps (p : PortId) (s : State) : s.prot.Keeps p s.waitEnds.prot := by
  unfold State.waitEnds
  split
  · split
    · exact (Prot.Keeps.of_moves (State.endOp_moves _ _ _ s) (by decide)).trans (State.rebuildTo_keeps p _ _ _)
    · exact Prot.Keeps.refl p _
  · exact Prot.Keeps.refl p _

theorem State.waitEnds_moves (s : State) : s.Moves [.nor, .prot] s.waitEnds := by
  unfold State.waitEnds
  split
  · exact Moves.ite (Moves.op (State.rebuildTo_moves _ _ _) (by decide) (Moves.op (State.endOp_moves _ _ _ _) (by decide) (Moves.refl _ _)))
      (Moves.refl _ _)
  · exact Moves.refl _ _

theorem State.readmit_moves (p : PortId) (s : State) : s.Moves [.aon, .book, .prot, .pair, .out] (s.readmit p) := by
  have noted : (s.memberBack p).Moves [.aon, .book, .prot] ((s.memberBack p).watchSpare (State.modMember p Member.back)) :=
    State.watchSpare_moves (Moves.op (State.modMember_moves _ _ _) (by decide) (Moves.refl _ _)) (by decide)
  exact Moves.op (State.memberRec_moves _ _) (by decide) (Moves.op (State.raiseProt_moves _ _ _) (by decide)
    (Moves.op (State.noteService_moves _ _) (by decide) (Moves.op noted (by decide)
      (Moves.op (State.memberBack_moves _ _) (by decide) (Moves.refl _ _)))))

theorem State.readmit_prot (p : PortId) (s : State) :
    ((s.readmit p).member p).st = .member ∧
    (s.actInService (actOf p 0) = true → ((s.readmit p).member p).outAt0 = none) ∧
    (s.actInService (actOf p 1) = true → ((s.readmit p).member p).outAt1 = none) ∧
    (s.readmit p).prot.events.getLsbD 0 = true ∧ (s.readmit p).prot.excs = s.prot.excs := by
  generalize returned : (s.memberBack p).watchSpare (State.modMember p Member.back) = t
  have moved : s.Moves [.aon, .book, .prot] t := by
    rw [← returned]
    exact Moves.op (State.watchSpare_moves (Moves.op (State.modMember_moves _ _ _) (by decide) (Moves.refl _ _)) (List.Subset.refl _))
      (List.Subset.refl _) (Moves.op (State.memberBack_moves _ _) (by decide) (Moves.refl _ _))
  have serving : t.actInService = s.actInService := by
    have ports : t.ports = s.ports := moved.only .ports (by decide)
    have acts : t.acts = s.acts := moved.only .acts (by decide)
    have seqs : t.seqs = s.seqs := moved.only .seqs (by decide)
    funext a
    simp only [State.actInService, State.port, State.act, State.seq, ports, acts, seqs]
  have member : (s.readmit p).member p = (t.noteService p).member p := by
    rw [State.readmit, State.memberRec_member, State.raiseProt_member, returned]
  have back : (t.member p).st = .member := by
    rw [← returned, State.watchSpare_member, State.modMember_member, if_pos rfl]
    rfl
  have excs : (t.noteService p).prot.excs = s.prot.excs := by
    show t.prot.excs = _
    rw [← returned, State.watchSpare_excs]
    exact State.memberBack_excs p s
  obtain ⟨out0, out1⟩ := State.noteService_serving p t
  rw [serving] at out0 out1
  obtain ⟨_, prot⟩ := State.memberRec_prot p ((t.noteService p).raiseProt 0 p.val)
  rw [← returned] at prot
  rw [member, State.noteService_memberSt]
  refine ⟨back, out0, out1, ?_, ?_⟩
  · rw [State.readmit, prot, State.raiseProt_prot]
    exact setBit_get _ _ (by decide)
  · rw [State.readmit, prot, State.raiseProt_prot, returned]
    exact excs

theorem memberReturned_here {s : State} {p : PortId} (here : s.memberHere p = true) (idle : s.ctxs = []) (quiet : s.power.entering = false) :
    Does (.memberReturned p) s fun t => (t.member p).st = .member ∧ (s.actInService (actOf p 0) = true → (t.member p).outAt0 = none) ∧
      (s.actInService (actOf p 1) = true → (t.member p).outAt1 = none) ∧ t.prot.events.getLsbD 0 = true ∧
      t.names.buffer = s.names.buffer ∧ t.prot.excs = s.prot.excs := by
  have runs : exec (.memberReturned p) s = .next (s.readmit p).waitEnds.rebuildEnd.worksGone.bufferChanged := execMemberReturned_here here
  obtain ⟨st, out0, out1, event, excs⟩ := State.readmit_prot p s
  have moved : s.Moves [.aon, .nor, .book, .prot, .pair, .out] (s.readmit p).waitEnds.rebuildEnd.worksGone :=
    Moves.op (State.worksGone_moves _) (by decide) (Moves.op (State.rebuildEnd_moves _) (by decide) (Moves.op (State.waitEnds_moves _)
      (by decide) (Moves.op (State.readmit_moves p s) (by decide) (Moves.refl _ _))))
  have power : (s.readmit p).waitEnds.rebuildEnd.worksGone.power = s.power := moved.only .power (by decide)
  have names : (s.readmit p).waitEnds.rebuildEnd.worksGone.names = s.names := moved.only .names (by decide)
  obtain ⟨changed, buffer⟩ := State.bufferChanged_keeps ((moved.only .ctxs (by decide)).trans idle)
    (show (s.readmit p).waitEnds.rebuildEnd.worksGone.power.entering = false by rw [power]; exact quiet) p
  have kept := ((State.waitEnds_keeps p _).trans ((State.rebuildEnd_keeps p _).trans (State.worksGone_keeps p _))).trans changed
  have member : (s.readmit p).waitEnds.rebuildEnd.worksGone.bufferChanged.member p = (s.readmit p).member p := kept.member st
  refine ⟨_, runs, ?_, ?_, ?_, kept.events 0 event, ?_, kept.excs.trans excs⟩
  · rw [member, st]
  · rw [member]; exact out0
  · rw [member]; exact out1
  · rw [buffer, names]

/-- Settles O33: what each of these commands does to the tables of protection is said once for the operation that it runs: the records of the
system bands, the marks and the course of a rebuild. -/
theorem memberCommands : Obligations.MemberCommands :=
  ⟨fun _ _ => memberFailed_failedPort,
    fun _ _ => understudyStart_joins,
    fun _ _ => understudyStart_absent,
    fun _ _ => rebuildCheckpoint_taken,
    fun _ _ => rebuildResume_goesOn,
    fun _ _ _ _ => rebuildBlocked_blocks,
    fun _ => understudyStart_holds,
    fun _ _ here idle quiet _ => memberReturned_here here idle quiet,
    fun _ _ => rebuildResume_cancels,
    fun _ _ => rebuildCheckpoint_mirrored,
    fun _ => understudyStart_fails⟩

end Sys2Proof.Machine
end

section
/-! SUPPORT. A Flush of every namespace in a pair (spec/10 R396; spec/18 R622, R628; spec/11 Table 11-8). -/

namespace Sys2Proof.Machine

/-- A conventional namespace of ANA group 2, attached to both functions. -/
def peerSpace : Ns :=
  { nsid := 1, zoned := false, narrow := false, nsze := 100, groups := [], ana2 := true, attachA := true, attachB := true
    deleting := false, backing := none, ready := true }

/-- A Flush of every namespace from host function A, admitted while both groups were optimized. -/
def flushOfAll : Ctx :=
  { id := 7, origin := .host .a, sq := 1
    entry := { opcode := 0x00, cid := 0, nsid := 0xFFFFFFFF, prp1 := 0, prp2 := 0, cdw10 := 0, cdw11 := 0, cdw12 := 0, cdw13 := 0, cdw14 := 0
               cdw15 := 0, data := [] }
    part := .io, stage := .admitted, adm := 5, ana := .optimized, groups := (.optimized, .optimized), wait := .none, ns := 0, lba := 0
    nlb := 0, update := false, fua := false, data := [], saved := [], got := [], spilled := false, cpl := none, order := 0, heldD3 := false
    lost := false, waitAt := 0, fetchedAt := 0, failed := [] }

/-- Stage Left of a pair, whose peer serves group 2, with that Flush alone in the device and nothing dirty. -/
def State.flushAcrossPair : State :=
  { State.reset with
    ctxs := [flushOfAll]
    names := { Names.reset with nss := [peerSpace] }
    pair := { Pair.reset with mode := true, st := .paired } }

/-- The Flush goes on at the peer: it is forwarded, and has no completion yet. -/
theorem flush_flushAcrossPair :
    Does (.flush 7) State.flushAcrossPair fun t => (t.ctx? 7).map (fun y => (y.stage, y.cpl)) = some (.forwarded, none) :=
  ⟨_, rfl, by decide +kernel⟩

/-- Refutes O24: its clause on a Flush of every namespace ends the command once nothing is dirty here. In a pair such a Flush covers
namespaces that the peer serves as well, and then it is forwarded and ends with the peer's answer (R396, R628); the clause has no premise
that keeps the pair out. In the state here the one namespace is of the group that the peer serves. -/
theorem not_ioCommands : ¬ Obligations.IoCommands := by
  intro h
  obtain ⟨_, _, _, _, _, _, _, _, _, _, _, _, _, _, _, _, flushesAll, _⟩ := h
  obtain ⟨t, run, ⟨y, held, ended, -⟩, -⟩ := flushesAll State.flushAcrossPair 7 flushOfAll ⟨by decide, rfl, by decide, .a, rfl⟩ rfl
    (by decide) rfl rfl rfl (by decide)
  obtain ⟨u, run', goesOn⟩ := flush_flushAcrossPair
  cases Host.Outcome.next.inj (run.symm.trans run')
  rw [held, Option.map_some, ended] at goesOn
  simp at goesOn

end Sys2Proof.Machine
end

section
/-! SUPPORT. A Format NVM with which the entry to PS3 is over (spec/10 R369; spec/01 R40; spec/18 R641, R642). -/

namespace Sys2Proof.Machine

/-- A conventional namespace of five blocks, none of which was ever written. -/
def blankSpace : Ns := { peerSpace with nsze := 5, ana2 := false }

/-- A Format NVM of it, from host function A. -/
def formatOfBlank : Ctx :=
  { flushOfAll with sq := 0, entry := { flushOfAll.entry with opcode := 0x80, nsid := 1 }, part := .admin, ns := 1, nlb := 5, update := true }

/-- A paired device that is on its way to PS3 and has nothing dirty, with that command alone in it. -/
def State.formatEntersPs3 : State :=
  { State.reset with
    power := { Power.reset with entering := true }
    ctxs := [formatOfBlank]
    names := { Names.reset with nss := [blankSpace] }
    pair := { Pair.reset with mode := true, st := .paired } }

/-- The format has nothing to tell the peer and ends at once. Then PS3 is reached, and the release of the mirrors is one message. -/
theorem formatNvm_formatEntersPs3 :
    Does (.formatNvm 7) State.formatEntersPs3 fun t => t.pair.msgSeq = 1 ∧ (t.ctx? 7).map Ctx.stage = some .decided :=
  ⟨_, rfl, by decide +kernel⟩

/-- Refutes O7: its clause on FORMAT_NVM where the peer mirrors holds that the command waits for the last message sent, if any was. A format
is followed by what a clean buffer lets go on, and while PS3 is being entered that is PS3 itself, whose release of the mirrors sends messages
of its own (R40, R642). The clauses on SANITIZE keep that out with a premise, this one does not: in the state here the format sends
nothing and has ended, and the one message sent is that of PS3. -/
theorem not_namespaceCommands : ¬ Obligations.NamespaceCommands := by
  intro h
  obtain ⟨_, _, _, _, _, _, _, formatMirrored, _⟩ := h
  obtain ⟨t, run, -, sent, -⟩ := formatMirrored State.formatEntersPs3 7 formatOfBlank .a blankSpace ⟨by decide, rfl, by decide, .a, rfl⟩ rfl rfl
    rfl rfl rfl rfl (by decide) (by decide) (by decide) rfl rfl (by decide +kernel)
  obtain ⟨u, run', number, stage⟩ := formatNvm_formatEntersPs3
  cases Host.Outcome.next.inj (run.symm.trans run')
  have waits := sent (by rw [number]; decide)
  obtain ⟨y, held, decided⟩ := Option.map_eq_some_iff.mp stage
  rw [held, Option.map_some, decided] at waits
  simp at waits

end Sys2Proof.Machine
end

section
/-! SUPPORT. Whether this controller mirrors (spec/18 R641): what a zone's reset does to protection leaves it, whatever it sends. -/

namespace Sys2Proof.Machine

theorem State.Moves.mirrors {l : List Part} {s t : State} (m : s.Moves l t) (h : Part.pair ∉ l) : t.mirrors = s.mirrors :=
  congrArg (fun p : Pair => p.mode && (p.st == .paired || p.st == .contending || p.syncing)) (m.only .pair h)

/-! ## Records sent -/

@[simp] theorem State.sendKept_mirrors (type : Nat) (payload : List Nat) (blocks : List Blk) (ns lba : Nat) (adm : W32) (ctx : Option Nat)
    (s : State) : (s.sendKept type payload blocks ns lba adm ctx).mirrors = s.mirrors := rfl

@[simp] theorem State.when_mirrors {b : Bool} {f : State → State} {s : State} (h : (f s).mirrors = s.mirrors) :
    (s.when b f).mirrors = s.mirrors := by
  cases b
  · rfl
  · exact h

@[simp] theorem State.modProt_mirrors (f : Prot → Prot) (s : State) : (s.modProt f).mirrors = s.mirrors := rfl

@[simp] theorem State.rebuildTo_mirrors (phase st : Fin 5) (s : State) : (s.rebuildTo phase st).mirrors = s.mirrors := rfl

@[simp] theorem State.journalRec_mirrors (l : List Nat) (s : State) : (s.journalRec l).mirrors = s.mirrors :=
  State.when_mirrors rfl

@[simp] theorem State.excRec_mirrors (group stripe chunk : Nat) (pl : Place) (s : State) :
    (s.excRec group stripe chunk pl).mirrors = s.mirrors := State.journalRec_mirrors _ s

@[simp] theorem State.putCheckpoint_mirrors (n : Nat) (s : State) : (s.putCheckpoint n).mirrors = s.mirrors :=
  State.journalRec_mirrors _ _

@[simp] theorem State.memberRec_mirrors (p : PortId) (s : State) : (s.memberRec p).mirrors = s.mirrors :=
  State.journalRec_mirrors _ _

/-! ## The course of a rebuild -/

@[simp] theorem State.modOp_mirrors (h : Nat) (f : LongOp → LongOp) (s : State) : (s.modOp h f).mirrors = s.mirrors := rfl

@[simp] theorem State.endOp_mirrors (h : Nat) (st : OpState) (result : W16) (s : State) : (s.endOp h st result).mirrors = s.mirrors := rfl

@[simp] theorem State.raiseProt_mirrors (n src : Nat) (s : State) : (s.raiseProt n src).mirrors = s.mirrors :=
  (State.raiseProt_moves n src s).mirrors (by decide)

@[simp] theorem State.rebuildCancelled_mirrors (s : State) : s.rebuildCancelled.mirrors = s.mirrors :=
  State.putCheckpoint_mirrors _ _

@[simp] theorem State.retireMembers_mirrors (s : State) : s.retireMembers.mirrors = s.mirrors := by
  refine State.each_keeps State.mirrors (fun p t => ?_) _ s
  dsimp only
  split
  · exact State.memberRec_mirrors p _
  · rfl

@[simp] theorem State.rebuildEnd_mirrors (s : State) : s.rebuildEnd.mirrors = s.mirrors := by
  unfold State.rebuildEnd
  split
  · rfl
  · split
    · rfl
    · split
      · split <;> rfl
      · simp

@[simp] theorem State.commitPoint_mirrors (s : State) : s.commitPoint.mirrors = s.mirrors := by
  unfold State.commitPoint
  split
  · rfl
  · split
    · split <;> simp
    · split
      · exact (State.rebuildTo_mirrors _ _ _).trans ((State.opPoint_moves _ s).mirrors (by decide))
      · exact State.rebuildEnd_mirrors s

@[simp] theorem State.stripeDone_mirrors (g : Group) (i : Nat) (s : State) : (s.stripeDone g i).mirrors = s.mirrors := by
  unfold State.stripeDone
  split
  · rfl
  · split
    · rfl
    · split <;> simp

/-! ## A zone's work and the zone -/

@[simp] theorem State.endWorks_mirrors (g : Group) (i : Nat) (s : State) : (s.endWorks g i).mirrors = s.mirrors := by
  unfold State.endWorks
  extract_lets ws t u
  have committed : u.mirrors = s.mirrors := by
    refine State.each_keeps State.mirrors (fun w v => ?_) ws t
    refine (State.each_keeps State.mirrors (fun q v => ?_) w.targets _).trans ((State.commitPlaces_moves _ _ _ _ v).mirrors (by decide))
    exact State.excRec_mirrors _ _ _ _ v
  split
  · rfl
  · split
    · exact (State.stripeDone_mirrors g i u).trans committed
    · exact (State.commitPoint_mirrors u).trans committed

@[simp] theorem State.resetZone_mirrors (n : Ns) (z : Nat) (s : State) : (s.resetZone n z).mirrors = s.mirrors := by
  unfold State.resetZone
  extract_lets zb s1 s2 s3 s4 s5
  have dropped : s3.mirrors = s.mirrors := State.when_mirrors (s := s) rfl
  have released : s4.mirrors = s3.mirrors := by
    unfold s4
    split
    · exact (State.each_keeps State.mirrors (fun _ _ => by rfl) _ _).trans (State.endWorks_mirrors _ _ s3)
    · rfl
  exact (State.when_mirrors rfl).trans (released.trans dropped)

end Sys2Proof.Machine
end

section
/-! SUPPORT. One command alone in the device: how it ends, and what then goes on (spec/12 R453, R455 to R457). -/

namespace Sys2Proof.Machine

/-! ## How it ends -/

/-- One command in two of its moments: what decides how it completes. -/
structure Ctx.Same (x y : Ctx) : Prop where
  id : y.id = x.id
  origin : y.origin = x.origin
  sq : y.sq = x.sq
  entry : y.entry = x.entry
  adm : y.adm = x.adm

theorem Ctx.Same.stamp {x y : Ctx} (same : x.Same y) (r : Cpl) : y.stamp r = x.stamp r := by
  unfold Ctx.stamp isIoOp Ctx.isAdmin
  rw [same.sq, same.entry, same.adm]

theorem Ctx.Same.isIoOp {x y : Ctx} (same : x.Same y) (op : Nat) : Machine.isIoOp op y = Machine.isIoOp op x := by
  unfold Machine.isIoOp Ctx.isAdmin
  rw [same.sq, same.entry]

/-- An I/O command has one opcode. -/
theorem isIoOp_other {x : Ctx} {op other : Nat} (h : isIoOp op x = true) (ne : other ≠ op) : isIoOp other x = false := by
  unfold isIoOp at h ⊢
  obtain ⟨io, code⟩ := Bool.and_eq_true_iff.mp h
  rw [io, eq_of_beq code, Bool.true_and]
  exact beq_eq_false_iff_ne.mpr (Ne.symm ne)

/-- An I/O command is no admin command. -/
theorem isAdminOp_of_isIoOp {x : Ctx} {op : Nat} (h : isIoOp op x = true) (other : Nat) : isAdminOp other x = false := by
  unfold isIoOp at h
  unfold isAdminOp
  obtain ⟨io, -⟩ := Bool.and_eq_true_iff.mp h
  rw [(Bool.not_eq_true' _).mp io, Bool.false_and]

/-- A command once it waits. -/
def Ctx.awaits (x : Ctx) (w : Wait) (now : Nat) : Ctx :=
  { x with stage := .waiting, wait := w, waitAt := if x.stage = .waiting ∧ x.wait.kind = w.kind then x.waitAt else now }

theorem Ctx.awaits_same (x : Ctx) (w : Wait) (now : Nat) : x.Same (x.awaits w now) := ⟨rfl, rfl, rfl, rfl, rfl⟩

/-- Nothing that changes elsewhere lets a command go on: it waits neither for its turn nor for space, media or a clean buffer. -/
def Ctx.rests (x : Ctx) : Bool :=
  x.stage != .awaitTurn && x.stage != .awaitSpace && (x.stage != .waiting || match x.wait with
    | .turn => false
    | .media _ => false
    | .pages _ => false
    | .clean => false
    | _ => true)

section
variable {s : State} {c : Nat} {x : Ctx} (alone : s.ctxs = [x]) (id : x.id = c)
include alone id

theorem State.ctx_alone : s.ctx? c = some x := by
  simp [State.ctx?, alone, id]

theorem State.modCtx_alone (f : Ctx → Ctx) : (s.modCtx c f).ctxs = [f x] := by
  simp [State.modCtx, mapWhere, alone, id]

theorem State.await_alone (w : Wait) : (s.await c w).ctxs = [x.awaits w s.now] := State.modCtx_alone alone id _

/-- A host's command that ends: its completion is decided, or held with its data in D3hot. -/
theorem State.complete_alone {f : Fn} (host : x.origin = .host f) (r : Cpl) :
    ∃ y, (s.complete c r).ctxs = [y] ∧ y.rests = true ∧ x.Same y ∧ y.cpl = some (x.stamp r) ∧
      (y.stage = .decided ∨ y.stage = .waiting ∧ y.wait = .transfer ∧ (s.fn f).d3hot = true ∧
        ((x.stamp r).bytes ≠ [] ∨ (x.stamp r).blocks ≠ [])) := by
  unfold State.complete
  rw [State.ctx_alone alone id]
  dsimp only
  rw [host]
  dsimp only
  split
  next held => exact ⟨_, State.modCtx_alone alone id _, rfl, ⟨rfl, host.symm ▸ rfl, rfl, rfl, rfl⟩, rfl, .inr ⟨rfl, rfl, held⟩⟩
  · exact ⟨_, State.modCtx_alone alone id _, rfl, ⟨rfl, host.symm ▸ rfl, rfl, rfl, rfl⟩, rfl, .inl rfl⟩

theorem State.complete_pair {f : Fn} (host : x.origin = .host f) (r : Cpl) : (s.complete c r).pair = s.pair := by
  unfold State.complete
  rw [State.ctx_alone alone id]
  dsimp only
  rw [host]
  dsimp only
  split <;> rfl

/-- It has then ended as the command that it was before. -/
theorem State.ended_alone {f : Fn} {w : Ctx} (host : x.origin = .host f) (same : w.Same x) (r : Cpl) :
    EndedWith (s.complete c r) c w r := by
  obtain ⟨y, ctxs, -, kept, cpl, stage⟩ := State.complete_alone alone id host r
  have held := State.ctx_alone ctxs (kept.id.trans id)
  have fn : (s.complete c r).fn f = s.fn f := by
    cases f
    · exact (State.complete_moves c r s).only .fa (by decide)
    · exact (State.complete_moves c r s).only .fb (by decide)
  refine ⟨y, held, by rw [cpl, same.stamp], ?_⟩
  obtain decided | ⟨waits, wait, d3hot, data⟩ := stage
  · exact .inl decided
  · exact .inr ⟨waits, wait, f, same.origin ▸ host, by rw [fn]; exact d3hot, by rw [← same.stamp]; exact data⟩

end

/-! ## What goes on -/

section
variable {s : State} {x : Ctx} (alone : s.ctxs = [x])
include alone

theorem State.turnOf_alone (st : Stage) :
    s.turnOf st = if x.update = true ∧ x.stage = st then some x.id else none := by
  have free : s.blocked x = false := by simp [State.blocked, alone]
  by_cases h : x.update = true ∧ x.stage = st
  · simp [State.turnOf, alone, free, h]
  · rw [if_neg h]
    have : (x.update && x.stage == st) = false := by simpa using h
    simp [State.turnOf, alone, this]

theorem State.turnOf_other {st : Stage} (h : x.stage ≠ st) : s.turnOf st = none := by
  rw [State.turnOf_alone alone, if_neg (fun k => h k.2)]

theorem State.applySpace_alone (h : x.stage ≠ .awaitSpace) (n : Nat) : s.applySpace n = s := by
  cases n
  · rfl
  · rw [State.applySpace, State.turnOf_other alone h]

theorem State.applyTurns_alone (h : x.stage ≠ .awaitTurn) (n : Nat) : s.applyTurns n = s := by
  cases n
  · rfl
  · rw [State.applyTurns, State.turnOf_other alone h]

/-- What is left once no update can apply: the waits of a command that is not waiting for its turn. -/
theorem State.settleOrder_alone (turn : x.stage ≠ .awaitTurn) (space : x.stage ≠ .awaitSpace) (still : x.wait ≠ .turn) :
    s.settleOrder = s.settleWaits := by
  rw [State.settleOrder, State.applySpace_alone alone space, State.applyTurns_alone alone turn]
  simp [State.each, alone, still]

/-- The reads and waits that can go on, of a command that rests: none. -/
theorem State.readsWaits_rests (rests : x.rests = true) :
    (s.each ((s.ctxs.filter fun x => x.stage == .waiting && x.wait == .turn).map Ctx.id) State.tryRead).settleWaits = s := by
  unfold Ctx.rests at rests
  simp only [Bool.and_eq_true, Bool.or_eq_true, bne_iff_ne] at rests
  obtain ⟨-, waits⟩ := rests
  by_cases w : x.stage = .waiting
  · have rests := waits.resolve_left (not_not_intro w)
    have still : x.wait ≠ .turn := by
      intro e
      simp [e] at rests
    have unread : s.each ((s.ctxs.filter fun x => x.stage == .waiting && x.wait == .turn).map Ctx.id) State.tryRead = s := by
      simp [State.each, alone, still]
    rw [unread, State.settleWaits, alone]
    simp only [State.each, List.filter_cons, w, BEq.rfl, if_true, List.filter_nil, List.map_cons, List.map_nil, List.foldl_cons,
      List.foldl_nil, State.ctx_alone alone rfl]
    split at rests <;> simp_all
  · simp [State.settleWaits, State.each, alone, w]

theorem State.settleOrder_rests (rests : x.rests = true) : s.settleOrder = s := by
  have quiet := rests
  simp only [Ctx.rests, Bool.and_eq_true, bne_iff_ne] at quiet
  obtain ⟨⟨turn, space⟩, -⟩ := quiet
  rw [State.settleOrder, State.applySpace_alone alone space, State.applyTurns_alone alone turn]
  exact State.readsWaits_rests alone rests

/-- The turn of an update that waits for it, where the command then rests. -/
theorem State.settleOrder_turn {c : Nat} (id : x.id = c) (update : x.update = true) (turn : x.stage = .awaitTurn) {y : Ctx}
    (after : (s.applyOne c).ctxs = [y]) (rests : y.rests = true) : s.settleOrder = s.applyOne c := by
  subst id
  have applied : (s.applySpace 1).applyTurns 1 = s.applyOne x.id := by
    rw [State.applySpace_alone alone (by simp [turn]), State.applyTurns, State.turnOf_alone alone, if_pos ⟨update, turn⟩]
    rfl
  rw [State.settleOrder, show s.ctxs.length = 1 from congrArg List.length alone, applied]
  exact State.readsWaits_rests after rests

end

/-- A command that was run, after which nothing goes on. -/
theorem State.settleEnded_settled {t : State} (h : t.settleOrder = t) (c : Nat) (s : State) : State.settleEnded c s t = t := by
  rw [State.settleEnded, h, ite_self]

theorem State.settleEnded_other {c : Nat} {s : State} {x : Ctx} (held : s.ctx? c = some x) (no : x.update = false) (t : State) :
    State.settleEnded c s t = t := by
  have quiet : x.unapplied = false := by rw [Ctx.unapplied, no]; rfl
  rw [State.settleEnded, held, if_neg (by simp [quiet])]

end Sys2Proof.Machine
end

section
/-! SUPPORT. Zones (spec/10 R377 to R383): what the operations on one zone leave of it, and which zone a Zone Management Send names. -/

namespace Sys2Proof.Machine

theorem zoneBlocks_pos (narrow : Bool) : 0 < zoneBlocks narrow := by cases narrow <;> decide

theorem rowBlocks_pos (narrow : Bool) : 0 < rowBlocks narrow := by cases narrow <;> decide

/-- A zone is a whole number of rows. -/
theorem rowBlocks_dvd (narrow : Bool) : rowBlocks narrow ∣ zoneBlocks narrow := by cases narrow <;> decide

/-! ## The record of a zone -/

theorem State.zone_of_names {s t : State} (h : t.names.zones = s.names.zones) (ns z : Nat) : t.zone ns z = s.zone ns z := by
  unfold State.zone
  rw [h]

theorem State.Moves.zone {l : List Part} {s t : State} (m : s.Moves l t) (h : Part.names ∉ l) (ns z : Nat) : t.zone ns z = s.zone ns z :=
  State.zone_of_names (congrArg Names.zones (m.only .names h)) ns z

theorem State.zone_named (s : State) (ns z : Nat) : (s.zone ns z).ns = ns ∧ (s.zone ns z).zone = z := by
  unfold State.zone
  cases found : s.names.zones.find? fun x => x.ns == ns && x.zone == z with
  | none => exact ⟨rfl, rfl⟩
  | some y => simpa using List.find?_some found

theorem State.modZone_zone {ns z : Nat} {f : Zone → Zone} {s : State} (h : (f (s.zone ns z)).ns = ns ∧ (f (s.zone ns z)).zone = z) :
    (s.modZone ns z f).zone ns z = f (s.zone ns z) := by
  show (List.find? _ (f (s.zone ns z) :: _)).getD _ = _
  rw [List.find?_cons_of_pos (by simp [h.1, h.2])]
  rfl

/-- A record sent to the peer leaves the names. -/
theorem State.when_sendKept_names (b : Bool) (type : Nat) (payload : List Nat) (blocks : List Blk) (ns lba : Nat) (adm : W32)
    (ctx : Option Nat) (s : State) : (s.when b (State.sendKept type payload blocks ns lba adm ctx)).names = s.names := by
  cases b <;> rfl

/-- A change of state keeps the write pointer. -/
theorem State.setZone_zone (n : Ns) (z : Nat) (st : ZoneState) (s : State) :
    ((s.setZone n z st).zone n.nsid z).st = st ∧ ((s.setZone n z st).zone n.nsid z).wp = (s.zone n.nsid z).wp := by
  unfold State.setZone
  extract_lets t
  rw [State.zone_of_names (congrArg Names.zones (State.when_sendKept_names _ _ _ _ _ _ _ _ t))]
  unfold t
  rw [State.modZone_zone (s.zone_named n.nsid z)]
  exact ⟨rfl, rfl⟩

@[simp] theorem State.setZone_buffer (n : Ns) (z : Nat) (st : ZoneState) (s : State) :
    (s.setZone n z st).names.buffer = s.names.buffer := by
  unfold State.setZone
  dsimp only
  rw [State.when_sendKept_names]
  rfl

@[simp] theorem State.setZone_prot (n : Ns) (z : Nat) (st : ZoneState) (s : State) : (s.setZone n z st).prot = s.prot :=
  (State.setZone_moves n z st s).only .prot (by decide)

/-- A finished zone is Full, its write pointer at its end, and a partial row of it is to be destaged. -/
theorem State.finishZone_zone (n : Ns) (z : Nat) (s : State) :
    ((s.finishZone n z).zone n.nsid z).st = .full ∧ ((s.finishZone n z).zone n.nsid z).wp = zoneBlocks n.narrow := by
  unfold State.finishZone
  extract_lets y rb t
  rw [State.modZone_zone (t.zone_named n.nsid z)]
  exact ⟨rfl, rfl⟩

theorem State.finishZone_finishing {n : Ns} {z : Nat} {s : State} (partRow : (s.zone n.nsid z).wp % rowBlocks n.narrow ≠ 0) :
    (s.finishZone n z).names.finishing = s.names.finishing ++ [(n.nsid, z, (s.zone n.nsid z).wp / rowBlocks n.narrow)] := by
  unfold State.finishZone State.when
  dsimp only
  rw [if_pos (by simpa using partRow)]
  rfl

theorem State.finishZone_spaces (n : Ns) (z : Nat) (s : State) : (s.finishZone n z).names.nss = s.names.nss := by
  unfold State.finishZone State.when
  dsimp only
  split <;> rfl

/-- A change of every record that keeps what it is of, its state and its write pointer. -/
theorem State.zone_map {s t : State} {f : Zone → Zone}
    (keeps : ∀ y, (f y).ns = y.ns ∧ (f y).zone = y.zone ∧ (f y).st = y.st ∧ (f y).wp = y.wp) (mapped : t.names.zones = s.names.zones.map f)
    (ns z : Nat) : (t.zone ns z).st = (s.zone ns z).st ∧ (t.zone ns z).wp = (s.zone ns z).wp := by
  have same : (fun y : Zone => y.ns == ns && y.zone == z) ∘ f = fun y => y.ns == ns && y.zone == z := by
    funext y
    simp [keeps y]
  unfold State.zone
  rw [mapped, List.find?_map, same]
  cases s.names.zones.find? fun y => y.ns == ns && y.zone == z with
  | none => exact ⟨rfl, rfl⟩
  | some y => exact (keeps y).2.2

/-- What is made durable of the zones is their records. -/
theorem State.harden_zone (k ns z : Nat) (s : State) :
    ((s.harden k).zone ns z).st = (s.zone ns z).st ∧ ((s.harden k).zone ns z).wp = (s.zone ns z).wp := by
  unfold State.harden
  split
  · exact ⟨rfl, rfl⟩
  · refine State.zone_map (fun y => ?_) rfl ns z
    dsimp only
    split <;> exact ⟨rfl, rfl, rfl, rfl⟩

/-! ## Zone Reset -/

/-- A zone that is reset is as it was at first. -/
theorem State.resetZone_zone (n : Ns) (z : Nat) (s : State) : (s.resetZone n z).zone n.nsid z = Zone.initial n.nsid z := by
  unfold State.resetZone
  extract_lets zb s1 s2 s3 s4 s5
  rw [State.zone_of_names (congrArg Names.zones (State.when_sendKept_names _ _ _ _ _ _ _ _ s5))]
  exact State.modZone_zone ⟨rfl, rfl⟩

/-- A zone that is not in use is as it was at first. -/
theorem State.zone_unused {s : State} {ns z : Nat} (unused : z ∉ s.usedZones ns) : s.zone ns z = Zone.initial ns z := by
  unfold State.zone
  cases found : s.names.zones.find? fun y => y.ns == ns && y.zone == z with
  | none => rfl
  | some y =>
    have named : y.ns = ns ∧ y.zone = z := by simpa using List.find?_some found
    by_contra changed
    refine unused (List.mem_eraseDups.mpr (List.mem_append_left _ (List.mem_map.mpr ⟨y, List.mem_filter.mpr
      ⟨List.mem_of_find?_eq_some found, ?_⟩, named.2⟩)))
    simpa [named] using changed

/-- After a reset of the one zone named, in use or not, it is as it was at first. -/
theorem State.resetZones_zone (n : Ns) (z : Nat) {l : List Nat} (only : ∀ w ∈ l, w = z) {s : State}
    (initial : z ∉ l → s.zone n.nsid z = Zone.initial n.nsid z) :
    (s.each l fun w t => t.resetZone n w).zone n.nsid z = Zone.initial n.nsid z := by
  induction l generalizing s with
  | nil => exact initial (List.not_mem_nil)
  | cons w l ih =>
    have same : w = z := only w List.mem_cons_self
    subst same
    exact ih (fun v h => only v (List.mem_cons_of_mem _ h)) (fun _ => State.resetZone_zone n w s)

@[simp] theorem State.noteDirty_zones (s : State) : s.noteDirty.names.zones = s.names.zones := by
  unfold State.noteDirty State.when
  dsimp only
  split <;> rfl

/-! ## The zone that a command names -/

/-- A Zone Management Send of an action is at hand, which names one zone of a zoned namespace, at its turn. -/
structure ZoneSent (s : State) (c action : Nat) (x : Ctx) (n : Ns) (z : Nat) : Prop where
  hand : AtHand s c (fun x => isIoOp 0x79 x && bits x.entry.cdw13 7 0 == action) x
  space : s.ioNs x = some n
  sound : s.ioBad x n = none
  zoned : n.zoned = true
  one : bits x.entry.cdw13 8 8 = 0
  inside : rangeBad n (slba x.entry) 1 1 = none
  first : slba x.entry = z * zoneBlocks n.narrow
  turn : s.zoneTurn x = true

section
variable {s : State} {c action : Nat} {x : Ctx} {n : Ns} {z : Nat} (sent : ZoneSent s c action x n z)
include sent

theorem ZoneSent.opcode : isIoOp 0x79 x = true := (Bool.and_eq_true_iff.mp sent.hand.2.2.1).1

theorem ZoneSent.single : allZones x = false := by simp [allZones, sent.one]

theorem ZoneSent.number : slba x.entry / zoneBlocks n.narrow = z := by
  rw [sent.first, Nat.mul_div_cancel z (zoneBlocks_pos _)]

/-- The namespace is the one of its identifier. -/
theorem ZoneSent.served : s.ns? n.nsid = some n := by
  have served := sent.space
  unfold State.ioNs at served
  have found : s.ns? x.entry.nsid.toNat = some n := (Option.filter_eq_some_iff.mp served).1
  have named : n.nsid = x.entry.nsid.toNat := by simpa using List.find?_some found
  rw [named, found]

theorem ZoneSent.runs (k : Ctx → Ns → List Nat → State → State) :
    s.zoneSend c action k = State.settleEnded c s (k x n [z] s) := by
  unfold State.zoneSend
  rw [State.run_atHand sent.hand, sent.space]
  dsimp only
  rw [sent.sound, State.orElse_none, if_neg (by simp [sent.zoned]), if_neg (by simp [sent.one]), sent.inside, State.orElse_none,
    if_neg (by simp [sent.first]), if_pos sent.turn, sent.number]

end

end Sys2Proof.Machine
end

section
/-! SUPPORT. The zone management commands (spec/10 R377 to R379, R382, R383, Table 10-4). -/

namespace Sys2Proof.Machine

/-! ## Opened, closed, refused -/

section
variable {s : State} {c action : Nat} {x : Ctx} {n : Ns} {z : Nat} (sent : ZoneSent s c action x n z) (quiet : x.update = false)
include sent quiet

/-- A send that ends at once, after a change that leaves the commands. -/
theorem ZoneSent.ends {k : Ctx → Ns → List Nat → State → State} {u : State} {r : Cpl} (means : k x n [z] s = u.complete c r)
    (ctxs : u.ctxs = s.ctxs) : s.zoneSend c action k = u.complete c r ∧ EndedWith (u.complete c r) c x r ∧
      (u.complete c r).names = u.names ∧ (u.complete c r).prot = u.prot := by
  refine ⟨?_, State.ended_complete r sent.hand ctxs, (State.complete_moves c r u).only .names (by decide),
    (State.complete_moves c r u).only .prot (by decide)⟩
  rw [sent.runs, State.settleEnded_other sent.hand.1 quiet, means]

/-- A send that is refused. -/
theorem ZoneSent.refuses {k : Ctx → Ns → List Nat → State → State} {r : Cpl} (means : k x n [z] s = s.complete c r) {i : Instr}
    (runs : exec i s = .next (s.zoneSend c action k)) : Does i s fun t => EndedWith t c x r ∧ t.names = s.names ∧ t.prot = s.prot := by
  obtain ⟨eq, ended, names, prot⟩ := sent.ends quiet means rfl
  exact ⟨_, runs.trans (congrArg _ eq), ended, names, prot⟩

/-- A send that changes the state of its zone. -/
theorem ZoneSent.changes {k : Ctx → Ns → List Nat → State → State} {st : ZoneState}
    (means : k x n [z] s = (s.setZone n z st).complete c Cpl.ok) {i : Instr} (runs : exec i s = .next (s.zoneSend c action k)) :
    Does i s fun t => EndedWith t c x Cpl.ok ∧ (t.zone n.nsid z).st = st ∧ (t.zone n.nsid z).wp = (s.zone n.nsid z).wp ∧
      t.names.buffer = s.names.buffer ∧ t.prot = s.prot := by
  obtain ⟨eq, ended, names, prot⟩ := sent.ends quiet means ((State.setZone_moves n z st s).only .ctxs (by decide))
  obtain ⟨state, pointer⟩ := State.setZone_zone n z st s
  refine ⟨_, runs.trans (congrArg _ eq), ended, ?_, ?_, by rw [names, State.setZone_buffer], by rw [prot, State.setZone_prot]⟩
  · rw [State.zone_of_names (congrArg Names.zones names), state]
  · rw [State.zone_of_names (congrArg Names.zones names), pointer]

end

section
variable {s : State} {c : Nat} {x : Ctx} {n : Ns} {z : Nat}

theorem zoneOpen_opens (sent : ZoneSent s c 3 x n z) (quiet : x.update = false) (open_ : (s.zone n.nsid z).st ≠ .full)
    (room : (s.zone n.nsid z).st = .empty → s.activeFull n.nsid = false) : Does (.zoneOpen c) s fun t =>
      EndedWith t c x Cpl.ok ∧ (t.zone n.nsid z).st = .explicit ∧ (t.zone n.nsid z).wp = (s.zone n.nsid z).wp ∧
      t.names.buffer = s.names.buffer ∧ t.prot = s.prot := by
  refine sent.changes quiet ?_ rfl
  dsimp only [State.each, List.foldl]
  rw [if_neg (by simp [sent.single]), if_neg open_, if_neg fun ⟨empty, full⟩ => by simp [room empty] at full]

theorem zoneOpen_full (sent : ZoneSent s c 3 x n z) (quiet : x.update = false) (full : (s.zone n.nsid z).st = .full) :
    Does (.zoneOpen c) s fun t => EndedWith t c x Cpl.badZoneState ∧ t.names = s.names ∧ t.prot = s.prot := by
  refine sent.refuses quiet ?_ rfl
  dsimp only [State.each, List.foldl]
  rw [if_neg (by simp [sent.single]), if_pos full]

theorem zoneClose_closes (sent : ZoneSent s c 1 x n z) (quiet : x.update = false) (active : (s.zone n.nsid z).st.isActive = true) :
    Does (.zoneClose c) s fun t => EndedWith t c x Cpl.ok ∧ (t.zone n.nsid z).st = .closed ∧
      (t.zone n.nsid z).wp = (s.zone n.nsid z).wp ∧ t.names.buffer = s.names.buffer ∧ t.prot = s.prot := by
  refine sent.changes quiet ?_ rfl
  dsimp only [State.each, List.foldl]
  rw [if_neg (by simp [sent.single]), if_pos active]

end

/-! ## Finished (R382) -/

section
variable {s : State} {c : Nat} {x : Ctx} (alone : s.ctxs = [x]) (id : x.id = c) (waits : x.stage = .waiting)
include alone id waits

/-- A Zone Management Send that waits for media ends when nothing that it waits for is due; zone records are then durable. -/
theorem State.settleWaits_over {l : List (Nat × Nat × W32)} (send : isIoOp 0x79 x = true) (wait : x.wait = .media l) (cpl : x.cpl = none)
    (clean : ∀ q ∈ l, (s.isDirty q.1 q.2.1 || isIoOp 0x79 x && s.finishDue q.1 q.2.1) = false) :
    s.settleWaits = (s.harden x.ns).complete c Cpl.ok := by
  subst id
  have left : l.filter (fun q => s.isDirty q.1 q.2.1 || isIoOp 0x79 x && s.finishDue q.1 q.2.1) = [] :=
    List.filter_eq_nil_iff.mpr fun q h => by simpa using clean q h
  have flush : isIoOp 0x00 x = false := isIoOp_other send (by decide)
  have write : x.isWrite = false := by
    rw [Ctx.isWrite, isIoOp_other send (by decide), isIoOp_other send (by decide), isIoOp_other send (by decide)]
    rfl
  have done : s.mediaDone x = s.harden x.ns := by rw [State.mediaDone, if_neg (by simp [flush]), if_pos send]
  have pages : (s.harden x.ns).flushPages x = [] := by rw [State.flushPages, if_neg (by simp [flush])]
  have here : (s.harden x.ns).flushesPeer x = false := by simp [State.flushesPeer, flush]
  have ends : s.mediaEnd x.id x = (s.harden x.ns).complete x.id Cpl.ok := by
    rw [State.mediaEnd, done, if_neg (by simp [write]), if_pos pages, State.mediaOver, if_neg (by simp [here]), cpl]
  simp only [State.settleWaits, alone, State.each, List.filter_cons, waits, BEq.rfl, if_true, List.filter_nil, List.map_cons, List.map_nil,
    List.foldl_cons, List.foldl_nil, State.ctx_alone alone rfl, wait, left, ends]

/-- While all that it waits for is due it waits on. -/
theorem State.settleWaits_due {l : List (Nat × Nat × W32)} (wait : x.wait = .media l) (some_ : l ≠ [])
    (due : ∀ q ∈ l, (s.isDirty q.1 q.2.1 || isIoOp 0x79 x && s.finishDue q.1 q.2.1) = true) : s.settleWaits = s.await c (.media l) := by
  subst id
  have left : l.filter (fun q => s.isDirty q.1 q.2.1 || isIoOp 0x79 x && s.finishDue q.1 q.2.1) = l := List.filter_eq_self.mpr due
  simp only [State.settleWaits, alone, State.each, List.filter_cons, waits, BEq.rfl, if_true, List.filter_nil, List.map_cons, List.map_nil,
    List.foldl_cons, List.foldl_nil, State.ctx_alone alone rfl, wait, left, if_neg some_]

end

/-- A block of the row at a write pointer lies in that zone and row. -/
theorem row_of_pointer {zb rb wp z i : Nat} (rows : rb ∣ zb) (pointer : wp < zb) (block : i < rb) :
    (z * zb + wp / rb * rb + i) / zb = z ∧ (z * zb + wp / rb * rb + i) % zb / rb = wp / rb := by
  obtain ⟨m, rfl⟩ := rows
  have row : wp / rb < m := Nat.div_lt_of_lt_mul pointer
  have inside : wp / rb * rb + i < rb * m := by
    calc wp / rb * rb + i < (wp / rb + 1) * rb := by rw [Nat.add_mul, Nat.one_mul]; omega
      _ ≤ m * rb := Nat.mul_le_mul_right rb row
      _ = rb * m := Nat.mul_comm m rb
  have place : z * (rb * m) + wp / rb * rb + i = wp / rb * rb + i + rb * m * z := by rw [Nat.mul_comm z]; omega
  rw [place, Nat.add_mul_div_left _ _ (by omega), Nat.add_mul_mod_self_left, Nat.div_eq_of_lt inside, Nat.mod_eq_of_lt inside,
    Nat.mul_comm (wp / rb), Nat.mul_add_div (by omega), Nat.div_eq_of_lt block]
  omega

section
variable {s : State} {c : Nat} {x : Ctx} {n : Ns} {z : Nat} (sent : ZoneSent s c 2 x n z) (open_ : (s.zone n.nsid z).st ≠ .full)
include sent open_

/-- The blocks of the partial row at a zone's write pointer. -/
def State.partialRow (s : State) (n : Ns) (z : Nat) (adm : W32) : List (Nat × Nat × W32) :=
  (List.range (rowBlocks n.narrow)).map fun i =>
    (n.nsid, z * zoneBlocks n.narrow + (s.zone n.nsid z).wp / rowBlocks n.narrow * rowBlocks n.narrow + i, adm)

/-- What the command means: its zone is finished, and it waits for the partial row, if there is one. -/
theorem zoneFinish_eq : exec (.zoneFinish c) s = .next (State.settleEnded c s (((s.finishZone n z).await c (.media
    (if (s.zone n.nsid z).wp % rowBlocks n.narrow = 0 then [] else s.partialRow n z x.adm))).settleWaits)) := by
  show execZoneFinish c s = _
  rw [execZoneFinish, sent.runs]
  have named : [z].filter (fun z => (s.zone n.nsid z).st != .full && (!allZones x || (s.zone n.nsid z).st.isActive)) = [z] := by
    simp [open_, sent.single]
  dsimp only
  rw [named]
  by_cases whole : (s.zone n.nsid z).wp % rowBlocks n.narrow = 0
  · simp [whole, State.each]
  · simp [whole, State.each, State.partialRow]

variable (alone : s.ctxs = [x]) (cpl : x.cpl = none)
include alone cpl

/-- At a whole number of rows there is nothing to wait for. -/
theorem zoneFinish_whole (whole : (s.zone n.nsid z).wp % rowBlocks n.narrow = 0) : Does (.zoneFinish c) s fun t =>
    EndedWith t c x Cpl.ok ∧ (t.zone n.nsid z).st = .full ∧ (t.zone n.nsid z).wp = zoneBlocks n.narrow := by
  have run := zoneFinish_eq sent open_
  have opcode := sent.opcode
  obtain ⟨held, -, -, f, host⟩ := sent.hand
  have id := State.ctx_id held
  rw [if_pos whole] at run
  let u := (s.finishZone n z).await c (.media [])
  have ctxs : u.ctxs = [_] := State.await_alone (((State.finishZone_moves n z s).only .ctxs (by decide)).trans alone) id (.media [])
  have over_ : u.settleWaits = (u.harden x.ns).complete c Cpl.ok :=
    State.settleWaits_over (x := x.awaits _ _) ctxs id rfl opcode rfl cpl fun _ h => absurd h List.not_mem_nil
  have kept : (u.harden x.ns).ctxs = [_] := ((State.harden_moves x.ns u).only .ctxs (by decide)).trans ctxs
  obtain ⟨y, ended, rests, -⟩ := State.complete_alone kept id host Cpl.ok
  have names : ((u.harden x.ns).complete c Cpl.ok).names = (u.harden x.ns).names :=
    (State.complete_moves _ _ _).only .names (by decide)
  obtain ⟨st, wp⟩ := State.harden_zone x.ns n.nsid z u
  obtain ⟨full, pointer⟩ := State.finishZone_zone n z s
  rw [over_, State.settleEnded_settled (State.settleOrder_rests ended rests)] at run
  refine ⟨_, run, State.ended_alone kept id host ⟨rfl, rfl, rfl, rfl, rfl⟩ Cpl.ok, ?_, ?_⟩
  · rw [State.zone_of_names (congrArg Names.zones names), st]
    exact full
  · rw [State.zone_of_names (congrArg Names.zones names), wp]
    exact pointer

omit cpl

omit open_ alone in
/-- Every block of a finished zone's partial row is due until the row is on media. -/
theorem ZoneSent.partialRow_due (partRow : (s.zone n.nsid z).wp % rowBlocks n.narrow ≠ 0) (below : (s.zone n.nsid z).wp < zoneBlocks n.narrow)
    {t : State} (names : t.names = (s.finishZone n z).names) {q : Nat × Nat × W32} (mem : q ∈ s.partialRow n z x.adm) :
    t.finishDue q.1 q.2.1 = true := by
  obtain ⟨i, row, rfl⟩ := List.mem_map.mp mem
  obtain ⟨zone, place⟩ := row_of_pointer (z := z) (rowBlocks_dvd n.narrow) below (List.mem_range.mp row)
  have served : t.ns? n.nsid = some n := by
    rw [State.ns?, names, State.finishZone_spaces]
    exact sent.served
  rw [State.finishDue, served]
  dsimp only
  rw [zone, place, names, State.finishZone_finishing partRow]
  simp

/-- Otherwise it waits for the partial row. -/
theorem zoneFinish_partial (partRow : (s.zone n.nsid z).wp % rowBlocks n.narrow ≠ 0) (below : (s.zone n.nsid z).wp < zoneBlocks n.narrow) :
    Does (.zoneFinish c) s fun t => (t.zone n.nsid z).st = .full ∧ (t.zone n.nsid z).wp = zoneBlocks n.narrow ∧
      (t.ctx? c).map Ctx.stage = some .waiting ∧
      t.names.finishing = s.names.finishing ++ [(n.nsid, z, (s.zone n.nsid z).wp / rowBlocks n.narrow)] := by
  have run := zoneFinish_eq sent open_
  have opcode := sent.opcode
  obtain ⟨held, -⟩ := sent.hand
  have id := State.ctx_id held
  rw [if_neg partRow] at run
  let l := s.partialRow n z x.adm
  have some_ : l ≠ [] := by simp [l, State.partialRow, Nat.ne_of_gt (rowBlocks_pos n.narrow)]
  let u := (s.finishZone n z).await c (.media l)
  have ctxs : u.ctxs = [_] := State.await_alone (((State.finishZone_moves n z s).only .ctxs (by decide)).trans alone) id (.media l)
  have again {t : State} {y : Ctx} (one : t.ctxs = [y]) (waits : y.stage = .waiting) (wait : y.wait = .media l) (same : x.Same y)
      (names : t.names = (s.finishZone n z).names) : t.settleWaits = t.await c (.media l) :=
    State.settleWaits_due one (same.id.trans id) waits wait some_ fun q mem => by
      rw [sent.partialRow_due partRow below names mem, same.isIoOp, opcode]
      simp
  have first : u.settleWaits = u.await c (.media l) := again ctxs rfl rfl (x.awaits_same _ _) rfl
  have waiting := State.await_alone ctxs id (.media l)
  have later : (u.await c (.media l)).settleOrder = (u.await c (.media l)).await c (.media l) := by
    rw [State.settleOrder_alone waiting Stage.noConfusion Stage.noConfusion Wait.noConfusion]
    exact again waiting rfl rfl ⟨rfl, rfl, rfl, rfl, rfl⟩ rfl
  obtain ⟨full, pointer⟩ := State.finishZone_zone n z s
  have finishing := State.finishZone_finishing partRow
  have holds {t : State} {y : Ctx} (one : t.ctxs = [y]) (id : y.id = c) (waits : y.stage = .waiting)
      (names : t.names = (s.finishZone n z).names) : (t.zone n.nsid z).st = .full ∧ (t.zone n.nsid z).wp = zoneBlocks n.narrow ∧
        (t.ctx? c).map Ctx.stage = some .waiting ∧
        t.names.finishing = s.names.finishing ++ [(n.nsid, z, (s.zone n.nsid z).wp / rowBlocks n.narrow)] := by
    rw [State.zone_of_names (congrArg Names.zones names), names, State.ctx_alone one id, ← waits]
    exact ⟨full, pointer, rfl, finishing⟩
  rw [first, State.settleEnded, later] at run
  refine ⟨_, run, ?_⟩
  split
  · exact holds (State.await_alone waiting id (.media l)) id rfl rfl
  · exact holds waiting id rfl rfl

end

/-! ## Reset (R383) -/

/-- A sole command that is no read has nothing kept for it. -/
theorem State.saveReads_alone {s : State} {x : Ctx} (alone : s.ctxs = [x]) (other : x.reading = false) (ns : Nat) (l : List (Nat × Nat))
    (adm : W32) : s.saveReads ns l adm = s := by
  unfold State.saveReads
  split
  · rfl
  · rw [alone, List.map_singleton, if_neg (by simp [other]), ← alone]

/-- One zone of a namespace is reset, if it is in use. -/
def State.resetNamed (s : State) (n : Ns) (z : Nat) : State :=
  (s.each ((s.usedZones n.nsid).filter (· == z)) fun z t => t.resetZone n z).noteDirty

theorem State.resetNamed_moves (s : State) (n : Ns) (z : Nat) : s.Moves [.aon, .nor, .book, .names, .prot, .pair, .out] (s.resetNamed n z) :=
  Moves.op (State.noteDirty_moves _) (by decide) (Moves.each (fun _ _ h => Moves.op (State.resetZone_moves _ _ _) (by decide) h)
    (Moves.refl _ _))

theorem State.resetNamed_mirrors (s : State) (n : Ns) (z : Nat) : (s.resetNamed n z).mirrors = s.mirrors :=
  ((State.noteDirty_moves _).mirrors (by decide)).trans (State.each_keeps State.mirrors (fun z t => State.resetZone_mirrors n z t) _ s)

theorem State.resetNamed_zone (s : State) (n : Ns) (z : Nat) : (s.resetNamed n z).zone n.nsid z = Zone.initial n.nsid z := by
  rw [State.resetNamed, State.zone_of_names (State.noteDirty_zones _)]
  refine State.resetZones_zone n z (fun w mem => by simpa using (List.mem_filter.mp mem).2) fun absent => State.zone_unused fun used => ?_
  exact absent (List.mem_filter.mpr ⟨used, beq_self_eq_true z⟩)

/-- An I/O command that nothing refuses meets no sanitize. -/
theorem State.not_sanitizing {s : State} {x : Ctx} {n : Ns} (sound : s.ioBad x n = none) : s.names.sanitizing = false := by
  unfold State.ioBad at sound
  split at sound
  · cases sound
  next quiet => simpa using quiet

/-- A Zone Reset of one zone applies. -/
theorem State.applyOther_zoneReset {s : State} {c : Nat} {x : Ctx} {n : Ns} {z : Nat} {f : Fn} (alone : s.ctxs = [x])
    (opcode : isIoOp 0x79 x = true) (host : x.origin = .host f) (single : allZones x = false) (number : x.lba / zoneBlocks n.narrow = z) :
    s.applyOther c x n =
      if (s.resetNamed n z).mirrors = true ∧ (s.resetNamed n z).pair.msgSeq ≠ s.pair.msgSeq then
        ((s.resetNamed n z).modCtx c fun y => { y with stage := .applied }).await c (.mirror [(s.resetNamed n z).pair.msgSeq])
      else (s.resetNamed n z).complete c Cpl.ok := by
  have unread : x.reading = false := by rw [Ctx.reading, isIoOp_other opcode (by decide)]; rfl
  have one : (bits x.entry.cdw13 8 8 == 1) = false := single
  unfold State.applyOther
  rw [State.saveReads_alone alone unread, isAdminOp_of_isIoOp opcode, opcode, one, host]
  simp only [Bool.false_eq_true, if_false, if_true, Bool.false_or, number]
  exact if_congr (by simp [State.resetNamed]) rfl rfl

/-- The turn of a Zone Management Send, which needs no buffer space. -/
theorem State.applyOne_send {s : State} {c : Nat} {x : Ctx} {n : Ns} (held : s.ctx? c = some x) (opcode : isIoOp 0x79 x = true)
    (quiet : s.names.sanitizing = false) (served : s.ns? x.ns = some n) (zoned : n.zoned = true) : s.applyOne c = s.applyOther c x n := by
  have wipes : x.wipes = false := by
    rw [Ctx.wipes, isAction, isAdminOp_of_isIoOp opcode, isAdminOp_of_isIoOp opcode]
    rfl
  have writes : (isIoOp 0x01 x || isIoOp opZoneAppend x || (isIoOp 0x08 x && n.zoned)) = false := by
    rw [isIoOp_other opcode (by decide), isIoOp_other opcode (by decide), isIoOp_other opcode (by decide)]
    rfl
  have fits : s.pagesFit x n = true := by simp [State.pagesFit, State.pageBytes, zoned]
  unfold State.applyOne
  rw [held]
  dsimp only
  rw [wipes, if_neg (by decide), if_neg (by simp [quiet]), served]
  dsimp only
  rw [writes, if_neg (by decide), if_pos fits]

/-- An update that waits for its turn. -/
def Ctx.turned (x : Ctx) : Ctx := { x with stage := .awaitTurn }

section
variable {s : State} {c : Nat} {x : Ctx} {n : Ns} {z : Nat} (sent : ZoneSent s c 4 x n z) (alone : s.ctxs = [x]) (space : s.ns? x.ns = some n)
  (update : x.update = true) (lba : x.lba = slba x.entry)
include sent alone space update lba

/-- The zone is Empty again. The command ends, once the peer has acknowledged what was sent to it. -/
theorem zoneReset_resets : Does (.zoneReset c) s fun t => t.zone n.nsid z = Zone.initial n.nsid z ∧
    if s.mirrors = true ∧ t.pair.msgSeq ≠ s.pair.msgSeq then
      ((t.ctx? c).map fun y => (y.stage, y.wait)) = some (.waiting, .mirror [t.pair.msgSeq])
    else EndedWith t c x Cpl.ok := by
  have run : exec (.zoneReset c) s = .next (State.settleEnded c s ((s.modCtx c Ctx.turned).settleOrder)) := by
    show execZoneReset c s = _
    rw [execZoneReset, sent.runs]
    rfl
  have opcode := sent.opcode
  have number : x.lba / zoneBlocks n.narrow = z := by rw [lba, sent.number]
  obtain ⟨held, -, -, f, host⟩ := sent.hand
  have id := State.ctx_id held
  let u := s.modCtx c Ctx.turned
  let v := u.resetNamed n z
  have ctxs : u.ctxs = [x.turned] := State.modCtx_alone alone id _
  have kept : v.ctxs = [x.turned] := ((State.resetNamed_moves u n z).only .ctxs (by decide)).trans ctxs
  have mirrors : v.mirrors = s.mirrors := State.resetNamed_mirrors u n z
  have zone : v.zone n.nsid z = Zone.initial n.nsid z := State.resetNamed_zone u n z
  have applies : u.applyOne c = if v.mirrors = true ∧ v.pair.msgSeq ≠ s.pair.msgSeq then
      (v.modCtx c fun y => { y with stage := .applied }).await c (.mirror [v.pair.msgSeq]) else v.complete c Cpl.ok :=
    (State.applyOne_send (State.ctx_alone ctxs id) opcode (State.not_sanitizing sent.sound) space sent.zoned).trans
      (State.applyOther_zoneReset ctxs opcode host sent.single number)
  by_cases told : v.mirrors = true ∧ v.pair.msgSeq ≠ s.pair.msgSeq
  · have applied := State.modCtx_alone kept id fun y => { y with stage := .applied }
    have waiting := State.await_alone applied id (.mirror [v.pair.msgSeq])
    rw [if_pos told] at applies
    have after := waiting
    rw [← applies] at after
    rw [State.settleOrder_turn ctxs id update rfl after rfl, applies, State.settleEnded_settled (State.settleOrder_rests waiting rfl)] at run
    refine ⟨_, run, zone, ?_⟩
    rw [if_pos ⟨mirrors ▸ told.1, told.2⟩, State.ctx_alone waiting id]
    rfl
  · obtain ⟨y, ended, rests, -⟩ := State.complete_alone kept id host Cpl.ok
    rw [if_neg told] at applies
    have after := ended
    rw [← applies] at after
    rw [State.settleOrder_turn ctxs id update rfl after rests, applies, State.settleEnded_settled (State.settleOrder_rests ended rests)] at run
    refine ⟨_, run, ?_, ?_⟩
    · rw [(State.complete_moves c Cpl.ok v).zone (by decide), zone]
    · rw [if_neg (by rw [State.complete_pair kept id host]; exact fun h => told ⟨mirrors ▸ h.1, h.2⟩)]
      exact State.ended_alone kept id host ⟨rfl, rfl, rfl, rfl, rfl⟩ Cpl.ok

end

/-! ## Reports (Table 10-4) -/

section
variable {s : State} {c action : Nat} {x : Ctx} {n : Ns} (hand : AtHand s c (fun x => isIoOp 0x7A x && bits x.entry.cdw13 7 0 == action) x)
  (space : s.ioNs x = some n) (sound : s.ioBad x n = none) (zoned : n.zoned = true)
include hand space sound zoned

theorem State.zoneReceive_eq (k : Ctx → Ns → State → State) : s.zoneReceive c action k = k x n s := by
  unfold State.zoneReceive
  rw [State.run_atHand hand, space]
  dsimp only
  rw [sound, State.orElse_none, if_pos zoned]

/-- A receive that ends. -/
theorem State.zoneReceive_ends {k : Ctx → Ns → State → State} {r : Cpl} (means : k x n s = s.complete c r) {i : Instr}
    (runs : exec i s = .next (s.zoneReceive c action k)) : Does i s fun t => EndedWith t c x r ∧ t.names = s.names ∧ t.prot = s.prot :=
  ⟨_, runs.trans (congrArg _ ((State.zoneReceive_eq hand space sound zoned k).trans means)), State.ended_complete r hand rfl,
    (State.complete_moves c r s).only .names (by decide), (State.complete_moves c r s).only .prot (by decide)⟩

end

/-- The zones from that of a report's first block on that its option selects. -/
def State.reported (s : State) (n : Ns) (e : SqEntry) : List Nat :=
  ((List.range (n.nsze / zoneBlocks n.narrow - slba e / zoneBlocks n.narrow)).map (slba e / zoneBlocks n.narrow + ·)).filter
    fun z => zoneWanted (bits e.cdw13 15 8) (s.zone n.nsid z).st

/-- The zones that the buffer of a report takes, 64 bytes each behind a header of 64. -/
def State.reportShown (s : State) (n : Ns) (e : SqEntry) : List Nat := (s.reported n e).take ((4 * (e.cdw12.toNat + 1) - 64) / 64)

/-- A report of a known option returns the descriptors that fit, with the count that its partial-report bit asks for. -/
theorem reportZones_returns {s : State} {c : Nat} {x : Ctx} {n : Ns}
    (hand : AtHand s c (fun x => isIoOp 0x7A x && bits x.entry.cdw13 7 0 == 0) x) (space : s.ioNs x = some n) (sound : s.ioBad x n = none)
    (zoned : n.zoned = true) (inside : rangeBad n (slba x.entry) 1 1 = none) (known : bits x.entry.cdw13 15 8 ≤ 7) :
    Does (.reportZones c) s fun t => EndedWith t c x (Cpl.data ((packBytes
      [(8, if bits x.entry.cdw13 16 16 = 1 then (s.reportShown n x.entry).length else (s.reported n x.entry).length), (56, 0)] ++
      (s.reportShown n x.entry).flatMap (s.zoneDescriptor n)).take (4 * (x.entry.cdw12.toNat + 1)))) ∧ t.names = s.names ∧
      t.prot = s.prot := by
  have good : firstBad [(decide (7 < bits x.entry.cdw13 15 8), 13, 8)] = none := by simp [known]
  refine State.zoneReceive_ends hand space sound zoned ?_ rfl
  dsimp only
  rw [inside, State.orElse_none, good, State.orElse_none]
  rfl

/-! ## The statement on the zone management commands -/

/-- Settles O25: the zone that a send names is taken once, with its namespace and its turn; a clause on it is then the lemma of its command,
and a clause on a report is the one lemma on reports with the partial-report bit as it has it. -/
theorem zoneCommands : Obligations.ZoneCommands := by
  refine ⟨?_, ?_, ?_, ?_, ?_, ?_, ?_, ?_, ?_, ?_, ?_, ?_⟩
  · intro s c x n z hand space sound zoned one inside first turn quiet
    exact zoneOpen_opens ⟨hand, space, sound, zoned, one, inside, first, turn⟩ quiet
  · intro s c x n z hand space sound zoned one inside first turn quiet
    exact zoneOpen_full ⟨hand, space, sound, zoned, one, inside, first, turn⟩ quiet
  · intro s c x n z hand space sound zoned one inside first turn quiet
    exact zoneClose_closes ⟨hand, space, sound, zoned, one, inside, first, turn⟩ quiet
  · intro s c x n z hand space sound zoned one inside first turn alone cpl open_
    exact zoneFinish_whole ⟨hand, space, sound, zoned, one, inside, first, turn⟩ open_ alone cpl
  · intro s c x n z hand space sound zoned one inside first turn alone cpl open_
    exact zoneFinish_partial ⟨hand, space, sound, zoned, one, inside, first, turn⟩ open_ alone
  · intro s c x n z hand space sound zoned one inside first turn alone served same update lba fits single
    obtain ⟨t, run, zone, ended⟩ := zoneReset_resets ⟨hand, space, sound, zoned, one, inside, first, turn⟩ alone served update lba
    rw [if_neg (by simp [single])] at ended
    rw [Does, run]
    exact ⟨t, rfl, ended, by rw [zone]; rfl, by rw [zone]; rfl, by rw [zone]; rfl⟩
  · intro s c x n z hand space sound zoned one inside first turn quiet
    exact ZoneSent.refuses ⟨hand, space, sound, zoned, one, inside, first, turn⟩ quiet rfl rfl
  · intro s c x n z hand space sound zoned one inside first turn quiet
    exact ZoneSent.refuses ⟨hand, space, sound, zoned, one, inside, first, turn⟩ quiet rfl rfl
  · intro s c x n hand space sound zoned
    exact State.zoneReceive_ends hand space sound zoned rfl rfl
  · rintro s c x n size hits hand space sound zoned inside known all rfl rfl
    have returns := reportZones_returns hand space sound zoned inside known
    rw [if_neg (by simp [all])] at returns
    exact returns
  · intro s c x n z hand space sound zoned one inside first turn alone served same update lba fits mirrors
    obtain ⟨t, run, zone, told⟩ := zoneReset_resets ⟨hand, space, sound, zoned, one, inside, first, turn⟩ alone served update lba
    refine ⟨t, run, by rw [zone]; rfl, by rw [zone]; rfl, by rw [zone]; rfl, fun sent => ?_, fun none => ?_⟩
    · rwa [if_pos ⟨mirrors, sent⟩] at told
    · rwa [if_neg fun h => h.2 none] at told
  · rintro s c x n size shown hand space sound zoned inside known some_ rfl rfl
    have returns := reportZones_returns hand space sound zoned inside known
    rw [if_pos some_] at returns
    exact returns

end Sys2Proof.Machine
end

section
/-! SUPPORT. The power-fail dump and its restore (spec/10 R400 to R403; spec/13 R501; spec/21 R725, R726). -/

namespace Sys2Proof.Machine

/-! ## Noting what is dirty -/

/-- Noting it changes of the namespaces only which blocks are due first. -/
theorem State.noteDirty_names (s : State) : ∃ l, s.noteDirty.names = { s.names with firstDue := l } := by
  unfold State.noteDirty State.when
  dsimp only
  split <;> exact ⟨_, rfl⟩

/-- Rows of the media cache go with an earlier dump alone. -/
theorem State.noteDirty_mcRows (s : State) {r : McRow} (h : r ∈ s.noteDirty.prot.mcRows) : r ∈ s.prot.mcRows := by
  unfold State.noteDirty State.when at h
  dsimp only at h
  split at h
  · exact List.mem_of_mem_filter h
  · exact h

@[simp] theorem State.noteDirty_works (s : State) : s.noteDirty.prot.works = s.prot.works := by
  unfold State.noteDirty State.when
  dsimp only
  split <;> rfl

/-- No end mark comes by it. -/
theorem State.noteDirty_dumpMark {s : State} (h : s.nor.config.dumpMark = none) : s.noteDirty.nor.config.dumpMark = none := by
  unfold State.noteDirty State.when
  dsimp only
  split
  · rfl
  · exact h

/-! ## A changed buffer with no command in the device -/

@[simp] theorem State.retirePage_dumpMark (page : Nat) (s : State) :
    (s.retirePage page).nor.config.dumpMark = s.nor.config.dumpMark := by
  unfold State.retirePage
  split
  · rfl
  · extract_lets t
    have accessed : t.nor = s.nor := (pageAccess_moves page false s).only .nor (by decide)
    rw [(State.raiseMem_moves 5 [] _).only .nor (by decide), (pageAccess_moves page true _).only .nor (by decide)]
    clear_value t
    simp [accessed]

@[simp] theorem State.retireWaiting_dumpMark (s : State) : s.retireWaiting.nor.config.dumpMark = s.nor.config.dumpMark :=
  State.each_keeps (fun t => t.nor.config.dumpMark) State.retirePage_dumpMark _ _

/-- What follows a change of the buffer that ends nothing and does not finish the entry into PS3. -/
def State.shutsAndRetires (s : State) : State := ((s.shutdownDone .a).shutdownDone .b).retireWaiting

theorem State.shutsAndRetires_moves (s : State) : s.Moves [.aon, .nor, .book, .fa, .fb, .mem, .free] s.shutsAndRetires :=
  Moves.op (State.retireWaiting_moves _) (by decide) (Moves.op (State.shutdownDone_moves _ _) (by decide)
    (Moves.op (State.shutdownDone_moves _ _) (by decide) (Moves.refl _ _)))

theorem State.shutsAndRetires_dumpMark (s : State) : s.shutsAndRetires.nor.config.dumpMark = s.nor.config.dumpMark := by
  have shut (f : Fn) (t : State) : (t.shutdownDone f).nor = t.nor := (State.shutdownDone_moves f t).only .nor (by decide)
  rw [State.shutsAndRetires, State.retireWaiting_dumpMark, shut, shut]

theorem State.bufferChanged_noCtx {s : State} (empty : s.ctxs = []) (quiet : s.power.entering = false) :
    s.bufferChanged = s.noteDirty.noteDirty.shutsAndRetires := by
  have still : s.noteDirty.ctxs = [] := ((State.noteDirty_moves s).only .ctxs (by decide)).trans empty
  have noted : s.Moves [.aon, .nor, .names, .prot] s.noteDirty.noteDirty :=
    Moves.op (State.noteDirty_moves _) (by decide) (State.noteDirty_moves s)
  have power : (((s.noteDirty.noteDirty.shutdownDone .a).shutdownDone .b).retireWaiting).power = s.power :=
    ((State.shutsAndRetires_moves _).only .power (by decide)).trans (noted.only .power (by decide))
  rw [State.bufferChanged, State.settleOrder_noCtx still, State.noteClean, State.settleDeletes_noCtx still, if_neg (by simp [power, quiet])]
  rfl

/-! ## A settled device -/

/-- The map and the buffer. -/
def State.mapAndBuffer (s : State) : List MapEnt × List Dirty := (s.names.map, s.names.buffer)

/-- What becomes ready reads its directory: neither map nor buffer. -/
theorem State.noteReady_mapAndBuffer (s : State) : s.noteReady.mapAndBuffer = s.mapAndBuffer := by
  have loads (x : Ns) (t : State) : (t.loadDir x).mapAndBuffer = t.mapAndBuffer := by
    unfold State.loadDir
    split
    · split <;> rfl
    · rfl
  unfold State.noteReady
  split
  · extract_lets loaded
    have kept : loaded.mapAndBuffer = s.mapAndBuffer := State.each_keeps State.mapAndBuffer loads (s.names.nss.filter fun x => !x.ready) s
    clear_value loaded
    exact kept
  · rfl

/-- What settling does once readiness is noted. -/
theorem State.settle_names (s : State) : s.settle.names = s.noteReady.names := by
  have settled : s.noteReady.Moves [.aon, .power, .prot, .pair, .out] s.noteReady.noteProgress.takenDone :=
    Moves.op (State.takenDone_moves _) (by decide) (Moves.op (State.noteProgress_moves _) (by decide) (Moves.refl _ _))
  unfold State.settle
  extract_lets t
  have left_ (u : State) (h : s.noteReady.Moves [.aon, .power, .prot, .pair, .out] u) :
      s.noteReady.Moves [.aon, .power, .prot, .pair, .out] (u.modPower fun w => { w with leaving := false }).noteServices :=
    Moves.op (State.noteServices_moves _) (by decide) (Moves.op (State.modPower_moves _ _) (by decide) h)
  exact (Moves.when left_ settled).only .names (by decide)

/-- Before bring-up is complete nothing becomes ready. -/
theorem State.settle_names_early {s : State} (early : s.boot.complete = false) : s.settle.names = s.names := by
  rw [State.settle_names, State.noteReady, if_neg (by simp [early])]

theorem State.settle_mcRows (s : State) : s.settle.prot.mcRows = s.prot.mcRows := by
  have noted : s.noteReady.noteProgress.takenDone.prot = s.prot := by
    rw [(State.takenDone_moves _).only .prot (by decide), (State.noteProgress_moves _).only .prot (by decide),
      (State.noteReady_moves _).only .prot (by decide)]
  have services (t : State) : t.noteServices.prot.mcRows = t.prot.mcRows :=
    State.each_keeps (fun u => u.prot.mcRows) (fun p u => by rw [State.noteService, State.modMember_prot]) _ t
  unfold State.settle State.when
  dsimp only
  split
  · exact (services _).trans (congrArg Prot.mcRows noted)
  · exact congrArg Prot.mcRows noted

/-! ## The pulse on PWRFAIL# -/

/-- A pulse of 200 ns or less is not seen. -/
theorem powerFailDump_short (s : State) {w : Nat} (short : w ≤ 200) : Does (.powerFailDump w) s fun t => t = s := by
  refine ⟨s, ?_, rfl⟩
  simp [exec, execPowerFailDump, State.pulseSeen, short, Nat.not_lt.mpr short]

/-- The signal that is asserted. -/
def State.pwrfailNoted (s : State) : State := s.modPins fun p => { p with pwrfail := true, pwrfailAt := s.now }

/-- A pulse of 1 µs or more is always seen; it starts the dump in a running device that is up. -/
theorem powerFailDump_seen {s : State} {w : Nat} (long : 1000 ≤ w) (off : s.pins.pwrfail = false) :
    exec (.powerFailDump w) s =
      .next (if s.aon.hold = .running ∧ s.boot.complete = true then s.pwrfailNoted.startDump else s.pwrfailNoted) := by
  have clear : ¬ w < 1000 := Nat.not_lt.mpr long
  have over_ : ¬ w ≤ 200 := by omega
  simp [exec, execPowerFailDump, State.pulseSeen, clear, over_, long, off, State.pwrfailNoted, State.modPins]

/-! ## The dump starts -/

theorem State.endCommands_noCtx {s : State} (empty : s.ctxs = []) : s.endCommands = s := by
  simp [State.endCommands, State.each, empty, State.settleOrder_noCtx empty]

theorem State.putMcRow_works {ns : Nat} {kind : McKind} {l : List (Nat × Blk)} {s t : State} (put : s.putMcRow ns kind l = some t) :
    t.prot.works = s.prot.works := by
  unfold State.putMcRow at put
  obtain ⟨acts, -, put⟩ := Option.bind_eq_some_iff.mp put
  dsimp only at put
  split at put
  · cases put
  · obtain rfl := Option.some.inj put
    rfl

/-- Rows of the dump add nothing to the work under way. -/
theorem State.dumpRows_works (kind : McKind) (n : Nat) (l : List (Nat × Blk)) (s : State) :
    (s.dumpRows kind n l).prot.works = s.prot.works := by
  induction n generalizing l s with
  | zero => rfl
  | succ n ih =>
    rw [State.dumpRows]
    split
    · rfl
    · rw [ih]
      cases put : s.putMcRow 0 kind (l.take 512) with
      | none => rfl
      | some t => exact State.putMcRow_works put

theorem State.writeDump_works (s : State) : s.writeDump.prot.works = s.prot.works :=
  (State.dumpRows_works _ _ _ _).trans (State.dumpRows_works _ _ _ s)

theorem Prot.releaseWorks_all (p : Prot) : (p.releaseWorks fun _ => true).works = [] := List.filter_false _

/-- With no command in the device the dump takes the device from its work and leaves the buffer and the map. -/
theorem State.startDump_starts {s : State} (empty : s.ctxs = []) :
    s.startDump.names.dumping = true ∧ s.startDump.names.dumpAt = s.pins.pwrfailAt ∧ s.startDump.fa.fetchStopped = true ∧
    s.startDump.fb.fetchStopped = true ∧ s.startDump.names.flights = [] ∧ s.startDump.prot.works = [] ∧
    s.startDump.names.buffer = s.names.buffer ∧ s.startDump.names.map = s.names.map := by
  unfold State.startDump
  extract_lets noted stop stopped ended idle released closed seeking written
  have idleMoves : ended.Moves [.aon, .nor, .book, .ctxs, .decisions, .ports, .seqs, .chorus, .actCals, .pair, .svc, .out] idle :=
    Moves.each (fun a t h => Moves.op (State.endWork_moves a t) (by decide) h) (Moves.refl _ _)
  have seekMoves : closed.Moves [.acts] seeking :=
    Moves.each (fun a t h => Moves.op (State.toRing_moves a t) (by decide) h) (Moves.refl _ _)
  clear_value seeking idle
  have commands : ended = stopped := State.endCommands_noCtx empty
  have toWrite : written.Moves [.aon, .nor, .names, .prot] written.writeDump.noteDirty :=
    Moves.op (State.noteDirty_moves _) (by decide) (Moves.op (State.writeDump_moves _) (by decide) (Moves.refl _ _))
  have idleNames : idle.names = noted.names := (idleMoves.only .names (by decide)).trans (by rw [commands]; rfl)
  have seekNames : seeking.names = idle.names.dropFlights := seekMoves.only .names (by decide)
  have namesNow : ∃ l, written.writeDump.noteDirty.names = { noted.names.dropFlights with firstDue := l } := by
    obtain ⟨l, e⟩ := State.noteDirty_names written.writeDump
    refine ⟨l, ?_⟩
    rw [e, (State.writeDump_moves _).only .names (by decide)]
    rw [show written.names = { seeking.names with firstDue := seeking.dropDump.names.dirtyKeys } from rfl, seekNames, idleNames]
  have works : written.writeDump.noteDirty.prot.works = [] := by
    rw [State.noteDirty_works, State.writeDump_works]
    rw [show written.prot.works = seeking.prot.works from rfl, show seeking.prot = closed.prot from seekMoves.only .prot (by decide)]
    exact Prot.releaseWorks_all idle.prot
  have a : written.writeDump.noteDirty.fa.fetchStopped = true := by
    rw [toWrite.only .fa (by decide), show written.fa = seeking.fa from rfl, seekMoves.only .fa (by decide),
      show closed.fa = idle.fa from rfl, idleMoves.only .fa (by decide), commands]
    rfl
  have b : written.writeDump.noteDirty.fb.fetchStopped = true := by
    rw [toWrite.only .fb (by decide), show written.fb = seeking.fb from rfl, seekMoves.only .fb (by decide),
      show closed.fb = idle.fb from rfl, idleMoves.only .fb (by decide), commands]
    rfl
  obtain ⟨l, e⟩ := namesNow
  rw [e]
  exact ⟨rfl, rfl, a, b, rfl, works, rfl, rfl⟩

theorem powerFailDump_starts {s : State} {w : Nat} (long : 1000 ≤ w) (off : s.pins.pwrfail = false) (up : s.boot.complete = true)
    (running : s.aon.hold = .running) (empty : s.ctxs = []) : Does (.powerFailDump w) s fun t => t.pins.pwrfail = true ∧
      t.names.dumping = true ∧ t.names.dumpAt = s.now ∧ t.fa.fetchStopped = true ∧ t.fb.fetchStopped = true ∧ t.names.flights = [] ∧
      t.prot.works = [] ∧ t.names.buffer = s.names.buffer ∧ t.names.map = s.names.map := by
  have pins : s.pwrfailNoted.startDump.pins = s.pwrfailNoted.pins := (State.startDump_moves _).only .pins (by decide)
  refine ⟨s.pwrfailNoted.startDump, by rw [powerFailDump_seen long off, if_pos ⟨running, up⟩], by rw [pins]; rfl, ?_⟩
  exact State.startDump_starts (s := s.pwrfailNoted) empty

/-! ## The end mark -/

/-- What the end of the dump is about at a port: whether its command channel is up, and what its spindle puts out. -/
def State.spinView (s : State) (p : PortId) : Bool × Int × Option (Fin 6) := ((s.port p).cmdUp, (s.spin p).output, (s.spin p).step)

/-- The spindle that coasts where the command channel is up. -/
def coasted (v : Bool × Int × Option (Fin 6)) : Bool × Int × Option (Fin 6) := if v.1 then (true, 0, none) else v

/-- A port set to coast is the only one. -/
theorem State.coast_spinView (p : PortId) (s : State) (q : PortId) :
    (s.when (s.port p).cmdUp (State.coast p)).spinView q = if q = p then coasted (s.spinView p) else s.spinView q := by
  have up : ((s.coast p).port q).cmdUp = (s.port q).cmdUp := (congrArg Port.cmdUp (State.coast_unqueued p q s) :)
  unfold State.when
  split
  next h =>
    split
    next same =>
      subst same
      rw [coasted, if_pos (show (s.spinView q).1 = true from h), State.spinView, State.coast_spin, up, h]
    next other =>
      have still : (s.coast p).spin q = s.spin q := by simp [State.coast, State.sendDrive, State.sendUrgent, other]
      rw [State.spinView, up, still, State.spinView]
  next h =>
    split
    next same => rw [same, coasted, if_neg (show ¬ (s.spinView p).1 = true from h)]
    · rfl

/-- The end mark of what the dump has written. -/
def State.endMark (s : State) : DumpMark :=
  { rows := (s.prot.mcRows.filter McRow.isDump).length, digest := digest (indexBytes (s.dumpBlocks.map Prod.fst)) }

/-- The mark programmed and the spindles set to coast. -/
def State.markedCoasting (s : State) : State :=
  (s.modCfg fun c => { c with dumpMark := some s.endMark }).each (fins 32) fun p s => s.when (s.port p).cmdUp (State.coast p)

theorem execDumpEndMark_all {s : State} (going : s.names.dumping = true)
    (all : ((s.prot.mcRows.filter fun r => r.kind == .dumpData).map fun r => r.blocks.length).sum = s.dumpBlocks.length) :
    execDumpEndMark true s = .next (s.markedCoasting.modNames fun n => { n with dumping := false }) := by
  have held : ¬ ((s.prot.mcRows.filter fun r => r.kind == .dumpData).map fun r => r.blocks.length).sum ≠
      (s.dumpBlocks.map Prod.fst).length := by simp [all]
  unfold execDumpEndMark
  extract_lets rows held' keys marked
  rw [if_neg (by simp [going]), if_neg held]
  rfl

theorem dumpEndMark_ends {s : State} (going : s.names.dumping = true)
    (all : ((s.prot.mcRows.filter fun r => r.kind == .dumpData).map fun r => r.blocks.length).sum = s.dumpBlocks.length) :
    Does (.dumpEndMark true) s fun t => t.nor.config.dumpMark = some s.endMark ∧ t.names.dumping = false ∧
      t.names.buffer = s.names.buffer ∧ t.prot = s.prot ∧
      ∀ p, (s.port p).cmdUp = true → (t.spin p).output = 0 ∧ (t.spin p).step = none := by
  have coasts : (s.modCfg fun c => { c with dumpMark := some s.endMark }).Moves [.ports, .spins] s.markedCoasting :=
    Moves.each (fun p t h => Moves.when (fun _ h => Moves.op (State.coast_moves p _) (by decide) h) h) (Moves.refl _ _)
  have spins (p : PortId) : s.markedCoasting.spinView p = coasted (s.spinView p) :=
    State.each_fins State.spinView (fun _ => coasted) State.coast_spinView _ p
  refine ⟨_, execDumpEndMark_all going all, ?_⟩
  simp only [State.modNames_nor, State.modNames_names, State.modNames_prot, State.modNames_spin]
  refine ⟨by rw [coasts.only .nor (by decide)]; rfl, trivial, by rw [coasts.only .names (by decide)]; rfl, coasts.only .prot (by decide), ?_⟩
  intro p up
  have view := spins p
  rw [coasted, if_pos (show (s.spinView p).1 = true from up)] at view
  exact Prod.mk.inj (Prod.mk.inj view).2

/-! ## The restore -/

/-- The end of a restore: what came back is due first, and bring-up goes on. -/
def State.restoreDone (s : State) : State :=
  (((s.modNames fun n => { n with firstDue := n.dirtyKeys }).modBoot fun b => { b with restored := true }).bufferChanged).settle

section
variable {s : State} (empty : s.ctxs = []) (quiet : s.power.entering = false) (early : s.boot.complete = false)

theorem State.restoreDone_boot : s.restoreDone.boot = { s.boot with restored := true } :=
  ((State.settle_moves _).only .boot (by decide)).trans ((State.bufferChanged_moves _).only .boot (by decide))

include empty quiet

/-- The state whose buffer has changed. -/
theorem State.restoreDone_changed : ∃ u : State, s.Moves [.boot, .names] u ∧ u.boot.complete = s.boot.complete ∧
    (∃ l, u.names = { s.names with firstDue := l }) ∧
    s.restoreDone = u.noteDirty.noteDirty.shutsAndRetires.settle := by
  refine ⟨(s.modNames fun n => { n with firstDue := n.dirtyKeys }).modBoot fun b => { b with restored := true },
    State.modBoot_moves (fun _ => ⟨rfl, rfl⟩) (by decide) (Moves.op (State.modNames_moves _ _) (by decide) (Moves.refl _ _)), rfl,
    ⟨_, rfl⟩, ?_⟩
  exact congrArg State.settle (State.bufferChanged_noCtx empty quiet)

theorem State.restoreDone_dumpMark (unmarked : s.nor.config.dumpMark = none) :
    s.restoreDone.nor.config.dumpMark = none := by
  obtain ⟨u, moved, -, -, e⟩ := State.restoreDone_changed empty quiet
  have mark : u.nor.config.dumpMark = none := by rw [moved.only .nor (by decide), unmarked]
  rw [e, (State.settle_moves _).only .nor (by decide), State.shutsAndRetires_dumpMark]
  exact State.noteDirty_dumpMark (State.noteDirty_dumpMark mark)

theorem State.restoreDone_mcRows {r : McRow} (h : r ∈ s.restoreDone.prot.mcRows) : r ∈ s.prot.mcRows := by
  obtain ⟨u, moved, -, -, e⟩ := State.restoreDone_changed empty quiet
  rw [e, State.settle_mcRows, (State.shutsAndRetires_moves _).only .prot (by decide)] at h
  have kept := State.noteDirty_mcRows _ (State.noteDirty_mcRows _ h)
  rwa [moved.only .prot (by decide)] at kept

include early

/-- Of the namespaces only what is due first changes. -/
theorem State.restoreDone_names : ∃ l, s.restoreDone.names = { s.names with firstDue := l } := by
  obtain ⟨u, -, up, ⟨l, names⟩, e⟩ := State.restoreDone_changed empty quiet
  have boot : u.noteDirty.noteDirty.shutsAndRetires.boot = u.boot :=
    ((State.shutsAndRetires_moves _).only .boot (by decide)).trans
      (((State.noteDirty_moves _).only .boot (by decide)).trans ((State.noteDirty_moves u).only .boot (by decide)))
  obtain ⟨l1, e1⟩ := State.noteDirty_names u
  obtain ⟨l2, e2⟩ := State.noteDirty_names u.noteDirty
  refine ⟨l2, ?_⟩
  rw [e, State.settle_names_early (by rw [boot, up, early]), (State.shutsAndRetires_moves _).only .names (by decide), e2, e1, names]

end

/-- A restore begins where bring-up waits for it. -/
theorem execDumpRestore_waits {s : State} (released : s.boot.released = true) (waits : s.boot.restored = false) :
    ¬ (s.boot.released = false ∨ s.boot.restored = true) := by simp [released, waits]

/-- The device once the dump is given up, its loss told. -/
def State.dumpGivenUp (s : State) : State :=
  ((s.tellLoss 1).modCfg fun c => { c with dumpMark := none }).modProt fun p => { p with mcRows := p.mcRows.filter fun r => !r.isDump }

theorem State.tellLoss_boot (cause : Nat) (s : State) : (s.tellLoss cause).boot = { s.boot with backupFailed := true } :=
  (State.emit_moves _ _ _ _ _).only .boot (by decide)

theorem execDumpRestore_unreadable {s : State} (missing : List Nat) (released : s.boot.released = true)
    (waits : s.boot.restored = false) : execDumpRestore false missing s = .next s.dumpGivenUp.restoreDone := by
  unfold execDumpRestore
  rw [if_neg (execDumpRestore_waits released waits)]
  extract_lets keys rows marked readable restored given good bad
  have unread : readable = false := rfl
  rw [if_pos unread]
  rfl

/-- Without a readable index the dump's rows and its mark are gone, and the loss is told. -/
theorem dumpRestore_unreadable {s : State} (missing : List Nat) (released : s.boot.released = true) (waits : s.boot.restored = false)
    (empty : s.ctxs = []) (quiet : s.power.entering = false) (early : s.boot.complete = false) :
    Does (.dumpRestore false missing) s fun t => t.boot.restored = true ∧ t.boot.backupFailed = true ∧ t.nor.config.dumpMark = none ∧
      t.prot.mcRows.any McRow.isDump = false ∧ t.names.buffer = s.names.buffer ∧ t.names.zones = s.names.zones := by
  have told := State.tellLoss_moves 1 s
  have boot : s.dumpGivenUp.boot = { s.boot with backupFailed := true } := State.tellLoss_boot 1 s
  have ctxs : s.dumpGivenUp.ctxs = [] := (told.only .ctxs (by decide)).trans empty
  have power : s.dumpGivenUp.power.entering = false := by
    rw [show s.dumpGivenUp.power = s.power from told.only .power (by decide), quiet]
  have up : s.dumpGivenUp.boot.complete = false := by rw [boot]; exact early
  obtain ⟨l, names⟩ := State.restoreDone_names ctxs power up
  rw [show s.dumpGivenUp.names = s.names from told.only .names (by decide)] at names
  refine ⟨_, execDumpRestore_unreadable missing released waits, by rw [State.restoreDone_boot], by rw [State.restoreDone_boot, boot],
    State.restoreDone_dumpMark ctxs power rfl, ?_, by rw [names], by rw [names]⟩
  refine List.any_eq_false.mpr fun r h => ?_
  have kept : r ∈ (s.tellLoss 1).prot.mcRows.filter fun r => !r.isDump := State.restoreDone_mcRows ctxs power h
  simpa using (List.mem_filter.mp kept).2

/-! ## One dumped block -/

/-- The key of a data block holds its namespace and its LBA. -/
theorem dumpKey_parts {ns lba : Nat} (hn : ns < 2 ^ 14) (hl : lba < 2 ^ 48) :
    dumpKey 0 ns lba / 2 ^ 62 = 0 ∧ dumpKey 0 ns lba / 2 ^ 48 % 2 ^ 14 = ns ∧ dumpKey 0 ns lba % 2 ^ 48 = lba := by
  unfold dumpKey
  omega

theorem State.restoreBlock_data {s : State} {ns lba : Nat} {x : Ns} (space : s.ns? ns = some x) (hn : ns < 2 ^ 14) (hl : lba < 2 ^ 48)
    (b : Blk) : s.restoreBlock (dumpKey 0 ns lba) b = s.modNames (Names.putCarried ns lba [b]) := by
  obtain ⟨kind, name, block⟩ := dumpKey_parts hn hl
  unfold State.restoreBlock
  rw [kind, name, block]
  dsimp only
  rw [space]
  rfl

/-- A conventional namespace has no write pointers. -/
theorem State.raiseWp_conventional {s : State} {ns : Nat} {x : Ns} (space : s.ns? ns = some x) (plain : x.zoned = false) (lba : Nat) :
    s.raiseWp ns lba = s := by
  rw [State.raiseWp, space]
  exact if_pos plain

/-- A block that came back is in the buffer, and lost no longer. -/
theorem Names.putCarried_one (ns lba : Nat) (b : Blk) (n : Names) :
    ((Names.putCarried ns lba [b] n).buffer.any fun d => d.ns == ns && d.lba == lba && d.data == b) = true ∧
    (Names.putCarried ns lba [b] n).lost = n.lost.filter fun q => !(q.1 == ns && q.2 == lba) := by
  constructor
  · simp [Names.putCarried, Names.putBlocks]
  · refine List.filter_congr fun q _ => ?_
    have same : (decide (lba ≤ q.2) && decide (q.2 < lba + [b].length)) = (q.2 == lba) := by
      rw [List.length_singleton, ← Bool.decide_and, beq_eq_decide]
      exact decide_eq_decide.mpr (by omega)
    dsimp only
    rw [Bool.and_assoc, same]

/-- The blocks of the data rows that could be read. -/
def State.goodBlocks (missing : List Nat) (s : State) : List (Nat × Blk) :=
  ((s.prot.mcRows.filter fun r => r.kind == .dumpData).zipIdx.filter fun q => !missing.contains q.2 && decide (s.mcMissing q.1 ≤ 2)).flatMap
    fun q => q.1.blocks

/-- A dump of one block, all of which can be read. -/
structure State.DumpOfOne (s : State) (ns lba : Nat) (b : Blk) : Prop where
  good : s.goodBlocks [] = [(dumpKey 0 ns lba, b)]
  index : s.dumpIndex = [dumpKey 0 ns lba]
  indexHere : ((s.prot.mcRows.filter fun y => y.kind == .dumpIndex).all fun y => decide (s.mcMissing y ≤ 2)) = true
  mark : ∃ m, s.nor.config.dumpMark = some m ∧ m.digest = digest (indexBytes [dumpKey 0 ns lba])

theorem execDumpRestore_one {s : State} {ns lba : Nat} {b : Blk} {x : Ns} (released : s.boot.released = true)
    (waits : s.boot.restored = false) (dump : s.DumpOfOne ns lba b) (space : s.ns? ns = some x) (plain : x.zoned = false)
    (hn : ns < 2 ^ 14) (hl : lba < 2 ^ 48) :
    execDumpRestore true [] s = .next (s.modNames (Names.putCarried ns lba [b])).restoreDone := by
  obtain ⟨kind, name, block⟩ := dumpKey_parts hn hl
  obtain ⟨m, mark, digests⟩ := dump.mark
  unfold execDumpRestore
  rw [if_neg (execDumpRestore_waits released waits)]
  extract_lets keys rows marked readable restored given good bad back data lost noted raised
  have isMarked : marked = true := by
    unfold marked keys
    rw [mark, dump.index]
    exact beq_of_eq digests
  have read : readable = true := by
    unfold readable
    rw [isMarked, dump.indexHere]
    simp
  have goods : good = [(dumpKey 0 ns lba, b)] := dump.good
  have bads : bad = [] := by
    unfold bad keys
    rw [dump.index, goods]
    simp
  have backs : back = s.modNames (Names.putCarried ns lba [b]) := by
    unfold back
    rw [goods]
    exact State.restoreBlock_data space hn hl b
  have notes : noted = s.modNames (Names.putCarried ns lba [b]) := by
    unfold noted lost
    rw [bads, backs]
    simp [State.modNames]
  have raises : raised = s.modNames (Names.putCarried ns lba [b]) := by
    have datas : data = [dumpKey 0 ns lba] := by
      unfold data
      rw [goods, bads]
      exact List.filter_cons_of_pos (beq_of_eq kind)
    unfold raised
    rw [datas, notes, State.each_cons, name, block]
    exact State.raiseWp_conventional (s := s.modNames (Names.putCarried ns lba [b])) space plain lba
  rw [if_neg (by simp [read]), if_pos ⟨isMarked, bads⟩, raises]
  rfl

theorem dumpRestore_one {s : State} {ns lba : Nat} {b : Blk} {x : Ns} (released : s.boot.released = true)
    (waits : s.boot.restored = false) (empty : s.ctxs = []) (quiet : s.power.entering = false) (early : s.boot.complete = false)
    (dump : s.DumpOfOne ns lba b) (space : s.ns? ns = some x) (plain : x.zoned = false) (hn : ns < 2 ^ 14) (hl : lba < 2 ^ 48) :
    Does (.dumpRestore true []) s fun t => t.boot.restored = true ∧ t.boot.backupFailed = s.boot.backupFailed ∧
      (t.names.buffer.any fun d => d.ns == ns && d.lba == lba && d.data == b) = true ∧
      t.names.lost = s.names.lost.filter (fun q => !(q.1 == ns && q.2 == lba)) := by
  obtain ⟨l, names⟩ := State.restoreDone_names (s := s.modNames (Names.putCarried ns lba [b])) empty quiet early
  obtain ⟨back, found⟩ := Names.putCarried_one ns lba b s.names
  refine ⟨_, execDumpRestore_one released waits dump space plain hn hl, by rw [State.restoreDone_boot], by rw [State.restoreDone_boot]; rfl,
    by rw [names]; exact back, by rw [names]; exact found⟩

/-! ## The journal's replay -/

theorem mapJournalReplay_replays {s : State} (released : s.boot.released = true) (waits : s.boot.replayed = false) :
    Does .mapJournalReplay s fun t => t.boot.replayed = true ∧ t.mem.events.getLsbD 6 = true ∧ t.names.map = s.names.map ∧
      t.names.buffer = s.names.buffer := by
  have run : execMapJournalReplay s = .next ((s.raiseMem 6 []).modBoot fun b => { b with replayed := true }).settle := by
    rw [execMapJournalReplay, if_pos ⟨released, waits⟩]
  have raised : (s.raiseMem 6 []).names = s.names := (State.raiseMem_moves 6 [] s).only .names (by decide)
  refine ⟨_, run, by rw [(State.settle_moves _).only .boot (by decide)]; rfl, ?_, ?_⟩
  · rw [(State.settle_moves _).only .mem (by decide), State.modBoot_mem, State.raiseMem_mem]
    exact setBit_get _ _ (by decide)
  · have kept := State.noteReady_mapAndBuffer ((s.raiseMem 6 []).modBoot fun b => { b with replayed := true })
    rw [State.mapAndBuffer, State.mapAndBuffer, State.modBoot_names, raised] at kept
    rw [State.settle_names]
    exact Prod.mk.inj kept

/-! ## The statement on the power-fail dump -/

/-- Settles O18: a pulse by whether it is seen and the device is up, the end mark by the spindles one at a time, each restore as its own
change followed by the one end that all have, and the replay as settling that keeps map and buffer. -/
theorem powerFailCommands : Obligations.PowerFailCommands := by
  refine ⟨fun s w => powerFailDump_short s, ?_, ?_, ?_, ?_, ?_, fun s => mapJournalReplay_replays⟩
  · intro s w long off early
    exact ⟨s.pwrfailNoted, by rw [powerFailDump_seen long off, if_neg (by simp [early])], rfl⟩
  · intro s w long off up running empty
    exact powerFailDump_starts long off up running empty
  · intro s going all
    exact dumpEndMark_ends going all
  · intro s missing released waits empty quiet _ early
    exact dumpRestore_unreadable missing released waits empty quiet early
  · intro s ns lba b x m r released waits empty quiet _ early row blocks here index indexHere mark digests space plain hn hl
    have good : s.goodBlocks [] = [(dumpKey 0 ns lba, b)] := by simp [State.goodBlocks, row, here, blocks]
    exact dumpRestore_one released waits empty quiet early ⟨good, index, indexHere, m, mark, digests⟩ space plain hn hl

end Sys2Proof.Machine
end

section
/-! SUPPORT. A host's command as it is run (spec/11 R417; spec/12 R452, R453): which function it acts on, and what is left once it has
ended. -/

namespace Sys2Proof.Machine

theorem State.Moves.fn {l : List Part} {s t : State} (m : s.Moves l t) (ha : Part.fa ∉ l) (hb : Part.fb ∉ l) (f : Fn) :
    t.fn f = s.fn f := by
  cases f
  · exact m.only .fa ha
  · exact m.only .fb hb

theorem State.Moves.ctx? {l : List Part} {s t : State} (m : s.Moves l t) (h : Part.ctxs ∉ l) (c : Nat) : t.ctx? c = s.ctx? c := by
  rw [State.ctx?, State.ctx?, show t.ctxs = s.ctxs from m.only .ctxs h]

/-! ## Ended -/

section
variable (c : Nat) (r : Cpl) (s : State)

@[simp] theorem State.complete_fn (f : Fn) : (s.complete c r).fn f = s.fn f := (State.complete_moves c r s).fn (by decide) (by decide) f

@[simp] theorem State.complete_names : (s.complete c r).names = s.names := (State.complete_moves c r s).only .names (by decide)

@[simp] theorem State.complete_prot : (s.complete c r).prot = s.prot := (State.complete_moves c r s).only .prot (by decide)

@[simp] theorem State.complete_nor : (s.complete c r).nor = s.nor := (State.complete_moves c r s).only .nor (by decide)

@[simp] theorem State.complete_power : (s.complete c r).power = s.power := (State.complete_moves c r s).only .power (by decide)

@[simp] theorem State.complete_therm : (s.complete c r).therm = s.therm := (State.complete_moves c r s).only .therm (by decide)

@[simp] theorem State.complete_chorus : (s.complete c r).chorus = s.chorus := (State.complete_moves c r s).only .chorus (by decide)

@[simp] theorem State.complete_cal : (s.complete c r).cal = s.cal := (State.complete_moves c r s).only .cal (by decide)

@[simp] theorem State.complete_seqs : (s.complete c r).seqs = s.seqs := (State.complete_moves c r s).only .seqs (by decide)

@[simp] theorem State.complete_admission : (s.complete c r).admission = s.admission :=
  (State.complete_moves c r s).only .admission (by decide)

end

theorem Ctx.fn_host {x : Ctx} {f : Fn} (host : x.origin = .host f) : x.fn? = some f := by
  rw [Ctx.fn?, host]

theorem State.forHost_host {x : Ctx} {f : Fn} (host : x.origin = .host f) (c : Nat) (k : Fn → State → State) (s : State) :
    s.forHost c x k = k f s := by
  rw [State.forHost, host]

/-- A command at hand that completes after a change that no command's context shows: it has ended, and the rest is what the change left. -/
theorem Does.completes {i : Instr} {s u : State} {c : Nat} {want : Ctx → Bool} {x : Ctx} {r : Cpl} {Q : State → Prop}
    (hand : AtHand s c want x) (run : exec i s = .next (u.complete c r)) (kept : u.ctxs = s.ctxs) (rest : Q (u.complete c r)) :
    Does i s fun t => EndedWith t c x r ∧ Q t :=
  ⟨_, run, State.ended_complete r hand kept, rest⟩

/-- What has ended stays so while no context changes and no function enters or leaves D3hot. -/
theorem EndedWith.kept {s t : State} {c : Nat} {x : Ctx} {r : Cpl} (ended : EndedWith s c x r) (ctxs : t.ctxs = s.ctxs)
    (states : ∀ f, (t.fn f).d3hot = (s.fn f).d3hot) : EndedWith t c x r := by
  obtain ⟨y, held, cpl, stage⟩ := ended
  refine ⟨y, by rw [State.ctx?, ctxs]; exact held, cpl, stage.imp_right ?_⟩
  rintro ⟨waiting, wait, f, host, d3hot, data⟩
  exact ⟨waiting, wait, f, host, (states f).trans d3hot, data⟩

/-! ## Queues by number -/

section
variable {α : Type} (key : α → Nat) {q : Nat} {g : α → α} (keeps : ∀ y, key y = q → key (g y) = q)
include keeps

theorem find?_mapWhere_same (l : List α) :
    (mapWhere (fun y => key y == q) g l).find? (fun y => key y == q) = (l.find? fun y => key y == q).map g := by
  unfold mapWhere
  induction l with
  | nil => rfl
  | cons y l ih =>
    by_cases h : key y = q
    · simp [h, keeps y h]
    · simpa [h] using ih

theorem find?_mapWhere_other {k : Nat} (other : k ≠ q) (l : List α) :
    (mapWhere (fun y => key y == q) g l).find? (fun y => key y == k) = l.find? fun y => key y == k := by
  unfold mapWhere
  induction l with
  | nil => rfl
  | cons y l ih =>
    by_cases h : key y = q
    · simpa [h, keeps y h, Ne.symm other] using ih
    · by_cases found : key y = k
      · simp [found, other]
      · simpa [h, found] using ih

theorem filter_mapWhere (l : List α) :
    (mapWhere (fun y => key y == q) g l).filter (fun y => key y != q) = l.filter fun y => key y != q := by
  unfold mapWhere
  induction l with
  | nil => rfl
  | cons y l ih =>
    by_cases h : key y = q
    · simpa [h, keeps y h] using ih
    · simpa [h] using ih

end

section
variable (f : Fn) (q : Nat) (g : SubQ → SubQ) (s : State)

@[simp] theorem State.modSq_ctxs : (s.modSq f q g).ctxs = s.ctxs := State.modFn_ctxs _ _ _

@[simp] theorem State.modSq_names : (s.modSq f q g).names = s.names := State.modFn_names _ _ _

@[simp] theorem State.modSq_fn : (s.modSq f q g).fn f = { s.fn f with sqs := mapWhere (fun y => y.id == q) g (s.fn f).sqs } := by
  rw [State.modSq, State.modFn_fn, if_pos rfl]

end

section
variable (f : Fn) (q : Nat) (g : CplQ → CplQ) (s : State)

@[simp] theorem State.modCq_ctxs : (s.modCq f q g).ctxs = s.ctxs := State.modFn_ctxs _ _ _

@[simp] theorem State.modCq_names : (s.modCq f q g).names = s.names := State.modFn_names _ _ _

@[simp] theorem State.modCq_fn : (s.modCq f q g).fn f = { s.fn f with cqs := mapWhere (fun y => y.id == q) g (s.fn f).cqs } := by
  rw [State.modCq, State.modFn_fn, if_pos rfl]

end

theorem State.modSq_sq {f : Fn} {q : Nat} {g : SubQ → SubQ} (keeps : ∀ y, y.id = q → (g y).id = q) (s : State) :
    ((s.modSq f q g).fn f).sq? q = ((s.fn f).sq? q).map g := by
  rw [State.modSq_fn]
  exact find?_mapWhere_same SubQ.id keeps _

theorem State.modSq_sq_other {f : Fn} {q k : Nat} {g : SubQ → SubQ} (keeps : ∀ y, y.id = q → (g y).id = q) (other : k ≠ q) (s : State) :
    ((s.modSq f q g).fn f).sq? k = (s.fn f).sq? k := by
  rw [State.modSq_fn]
  exact find?_mapWhere_other SubQ.id keeps other _

theorem State.modCq_cq {f : Fn} {q : Nat} {g : CplQ → CplQ} (keeps : ∀ y, y.id = q → (g y).id = q) (s : State) :
    ((s.modCq f q g).fn f).cq? q = ((s.fn f).cq? q).map g := by
  rw [State.modCq_fn]
  exact find?_mapWhere_same CplQ.id keeps _

theorem State.modVec_vec (f : Fn) (v w : Fin 65) (g : MsixVec → MsixVec) (s : State) :
    ((s.modVec f v g).fn f).vec w = if v = w then g ((s.fn f).vec w) else (s.fn f).vec w := by
  rw [State.modVec, State.modFn_fn, if_pos rfl]
  exact upd_get _ _ _ _

theorem HostFn.cq_id {x : HostFn} {q : Nat} {k : CplQ} (there : x.cq? q = some k) : k.id = q := by
  simpa using List.find?_some there

/-! ## A clean buffer while PS3 is not being entered (spec/01 R40; spec/11 R416) -/

/-- What a function holds besides the course of its shutdown. -/
def HostFn.besidesShutdown (x : HostFn) : HostFn := { x with shst := 0, shutdown := 0 }

theorem State.shutdownDone_besides (g : Fn) (s : State) (f : Fn) :
    ((s.shutdownDone g).fn f).besidesShutdown = (s.fn f).besidesShutdown := by
  unfold State.shutdownDone
  extract_lets x idle
  split
  · rw [State.modFn_fn]
    split
    next same => rw [same]; rfl
    · rfl
  · rfl

theorem State.shutsAndRetires_besides (s : State) (f : Fn) : (s.shutsAndRetires.fn f).besidesShutdown = (s.fn f).besidesShutdown := by
  rw [State.shutsAndRetires, (State.retireWaiting_moves _).fn (by decide) (by decide), State.shutdownDone_besides,
    State.shutdownDone_besides]

section
variable {s : State} (quiet : s.power.entering = false) (still : s.settleDeletes = s)
include quiet still

/-- Where no namespace goes, what is left is to note what is dirty, to end shutdowns and to retire pages. -/
theorem State.noteClean_still : s.noteClean = s.noteDirty.shutsAndRetires := by
  have power : s.noteDirty.shutsAndRetires.power = s.power := by
    rw [(State.shutsAndRetires_moves _).only .power (by decide), (State.noteDirty_moves _).only .power (by decide)]
  rw [State.noteClean, still]
  exact if_neg fun h => by simp [show s.noteDirty.shutsAndRetires.power.entering = true from h.1, ← power] at quiet

theorem State.noteClean_still_moves : s.Moves [.aon, .nor, .book, .fa, .fb, .names, .prot, .mem, .free] s.noteClean := by
  rw [State.noteClean_still quiet still]
  exact Moves.op (State.shutsAndRetires_moves _) (by decide) (Moves.op (State.noteDirty_moves _) (by decide) (Moves.refl _ _))

theorem State.noteClean_still_names : s.noteClean.names = { s.names with firstDue := s.noteClean.names.firstDue } := by
  obtain ⟨l, noted⟩ := State.noteDirty_names s
  rw [State.noteClean_still quiet still, (State.shutsAndRetires_moves _).only .names (by decide), noted]

theorem State.noteClean_still_besides (f : Fn) : (s.noteClean.fn f).besidesShutdown = (s.fn f).besidesShutdown := by
  rw [State.noteClean_still quiet still, State.shutsAndRetires_besides, (State.noteDirty_moves _).fn (by decide) (by decide)]

theorem EndedWith.noteClean {c : Nat} {x : Ctx} {r : Cpl} (ended : EndedWith s c x r) : EndedWith s.noteClean c x r :=
  ended.kept ((State.noteClean_still_moves quiet still).only .ctxs (by decide)) fun f =>
    show (s.noteClean.fn f).besidesShutdown.d3hot = (s.fn f).besidesShutdown.d3hot by rw [State.noteClean_still_besides quiet still]

end

/-- Where the one command in the device is no Namespace Management delete that waits, no namespace goes. -/
theorem State.settleDeletes_alone {s : State} {x : Ctx} (alone : s.ctxs = [x]) (no : x.stage = .waiting → x.wait.isDelete = false) :
    s.settleDeletes = s := by
  by_cases waits : x.stage = .waiting
  · have no := no waits
    rw [State.settleDeletes, alone]
    simp only [State.each, List.filter_cons, waits, BEq.rfl, if_true, List.filter_nil, List.foldl_cons, List.foldl_nil]
    split
    next wait => rw [wait] at no; cases no
    · rfl
  · simp [State.settleDeletes, State.each, alone, waits]

/-- So it is where that command has just ended. -/
theorem State.settleDeletes_ended {s : State} {c : Nat} {x : Ctx} {f : Fn} (alone : s.ctxs = [x]) (id : x.id = c)
    (host : x.origin = .host f) (r : Cpl) : (s.complete c r).settleDeletes = s.complete c r := by
  obtain ⟨y, ctxs, -, -, -, stage⟩ := State.complete_alone alone id host r
  refine State.settleDeletes_alone ctxs fun waits => ?_
  obtain decided | ⟨-, wait, -⟩ := stage
  · rw [decided] at waits
    cases waits
  · rw [wait]
    rfl

end Sys2Proof.Machine
end

section
/-! SUPPORT. The admin commands of a host function (spec/11 R417 to R419, R427, Tables 11-4, 11-5; spec/12 R461 to R470, R481). -/

namespace Sys2Proof.Machine

/-! ## Identify (R417) -/

section
variable {s : State} {c : Nat} {x : Ctx} {f : Fn} (hand : AtHand s c (isAdminOp 0x06) x) (host : x.origin = .host f)
include hand

theorem identify_unknown (unknown : knownCns.contains (bits x.entry.cdw10 7 0) = false) :
    Does (.identify c) s fun t => EndedWith t c x (Cpl.invalid 10 0) ∧ t.names = s.names := by
  refine Does.completes (u := s) hand ?_ rfl (State.complete_names _ _ _)
  show execIdentify c s = _
  rw [execIdentify, State.run_atHand hand]
  dsimp only
  rw [unknown]
  rfl

include host

theorem execIdentify_known (known : knownCns.contains (bits x.entry.cdw10 7 0) = true) :
    exec (.identify c) s = .next (s.complete c
      ((s.identifyData f (bits x.entry.cdw10 7 0) x.entry.nsid.toNat (bits x.entry.cdw11 31 24) (bits x.entry.cdw10 31 16)).elim
        Cpl.badNs Cpl.data)) := by
  show execIdentify c s = _
  rw [execIdentify, State.run_atHand hand]
  dsimp only
  rw [known, Ctx.fn_host host, show firstBad [(!true, 10, 0)] = none from rfl, State.orElse_none, Option.getD_some]
  cases s.identifyData f (bits x.entry.cdw10 7 0) x.entry.nsid.toNat (bits x.entry.cdw11 31 24) (bits x.entry.cdw10 31 16) <;> rfl

theorem identify_data (known : knownCns.contains (bits x.entry.cdw10 7 0) = true) {bs : List Byte}
    (data : s.identifyData f (bits x.entry.cdw10 7 0) x.entry.nsid.toNat (bits x.entry.cdw11 31 24) (bits x.entry.cdw10 31 16) = some bs) :
    Does (.identify c) s fun t => EndedWith t c x (Cpl.data bs) ∧ t.names = s.names :=
  Does.completes hand (by rw [execIdentify_known hand host known, data]; rfl) rfl (State.complete_names _ _ _)

theorem identify_noNamespace (known : knownCns.contains (bits x.entry.cdw10 7 0) = true)
    (none_ : s.identifyData f (bits x.entry.cdw10 7 0) x.entry.nsid.toNat (bits x.entry.cdw11 31 24) (bits x.entry.cdw10 31 16) = none) :
    Does (.identify c) s fun t => EndedWith t c x Cpl.badNs ∧ t.names = s.names :=
  Does.completes hand (by rw [execIdentify_known hand host known, none_]; rfl) rfl (State.complete_names _ _ _)

theorem identify_controller (cns : bits x.entry.cdw10 7 0 = 1) : Does (.identify c) s fun t =>
    EndedWith t c x (Cpl.data (overlay (identifyBase 1 x.entry.nsid.toNat (bits x.entry.cdw11 31 24)) (s.controllerFields f))) ∧
      t.names = s.names :=
  identify_data hand host (by rw [cns]; rfl) (by rw [cns]; rfl)

theorem identify_activeList (cns : bits x.entry.cdw10 7 0 = 2) : Does (.identify c) s fun t =>
    EndedWith t c x (Cpl.data (nsidList (s.names.nss.filter fun n => !n.deleting && n.on f) x.entry.nsid.toNat)) ∧ t.names = s.names := by
  have live : (s.names.nss.filter fun n => !n.deleting && n.on f) = (s.names.nss.filter fun n => !n.deleting).filter fun n => n.on f := by
    rw [List.filter_filter]
    exact List.filter_congr fun n _ => Bool.and_comm _ _
  refine identify_data hand host (by rw [cns]; rfl) ?_
  rw [live, cns]
  rfl

end

/-! ## Asynchronous events and Abort (spec/12 R461, R462) -/

/-- With no event to report, requests stay outstanding. -/
theorem State.deliverEvents_none {f : Fn} {s : State} (none_ : (s.fn f).events = []) (n : Nat) : s.deliverEvents f n = s := by
  cases n with
  | zero => rfl
  | succ n =>
    rw [State.deliverEvents]
    dsimp only
    rw [none_]
    split
    · simp_all
    · rfl

/-- With no request outstanding, events wait. -/
theorem State.deliverEvents_unasked {f : Fn} {s : State} (none_ : (s.fn f).aers = []) : s.deliverEvents f (s.fn f).aers.length = s := by
  rw [none_]
  rfl

section
variable {s : State} {c : Nat} {x : Ctx} {f : Fn} (hand : AtHand s c (isAdminOp 0x0C) x) (host : x.origin = .host f)
include hand host

theorem asynchronousEventRequest_held (room : (s.fn f).aers.length < 16) (none_ : (s.fn f).events = []) :
    Does (.asynchronousEventRequest c) s fun t => ((t.ctx? c).map fun y => (y.stage, y.wait)) = some (.waiting, .asyncEvent) ∧
      (t.fn f).aers = (s.fn f).aers ++ [c] ∧ t.names = s.names := by
  let u := (s.await c .asyncEvent).modFn f fun y => { y with aers := y.aers ++ [c] }
  obtain ⟨y, held, stage, wait⟩ := State.await_waits hand.1 .asyncEvent
  refine ⟨u, ?_, by rw [State.modFn_ctx, held, Option.map_some, stage, wait], by simp [u, State.await], by simp [u, State.await]⟩
  show execAsynchronousEventRequest c s = _
  rw [execAsynchronousEventRequest, State.run_atHand hand, State.forHost_host host, if_neg (Nat.not_le.mpr room)]
  exact congrArg _ (State.deliverEvents_none (s := u) (by simp [u, State.await, none_]) _)

theorem asynchronousEventRequest_refused (full : 16 ≤ (s.fn f).aers.length) :
    Does (.asynchronousEventRequest c) s fun t => EndedWith t c x (Cpl.err 0x1 0x05) ∧ (t.fn f).aers = (s.fn f).aers ∧
      t.names = s.names := by
  refine Does.completes (u := s) hand ?_ rfl ⟨by rw [State.complete_fn], State.complete_names _ _ _⟩
  show execAsynchronousEventRequest c s = _
  rw [execAsynchronousEventRequest, State.run_atHand hand, State.forHost_host host, if_pos full]

end

section
variable {s : State} {c : Nat} {x : Ctx} (hand : AtHand s c (isAdminOp 0x08) x)
include hand

theorem execAbort_atHand : exec (.abort c) s = .next (s.complete c (if 8 ≤ s.abortsBefore x then Cpl.err 0x1 0x03 else Cpl.val 1)) := by
  show execAbort c s = _
  rw [execAbort, State.run_atHand hand]
  split <;> rfl

theorem abort_notAborted (few : s.abortsBefore x < 8) :
    Does (.abort c) s fun t => EndedWith t c x (Cpl.val 1) ∧ t.names = s.names :=
  Does.completes hand (by rw [execAbort_atHand hand, if_neg (Nat.not_le.mpr few)]) rfl (State.complete_names _ _ _)

theorem abort_refused (many : 8 ≤ s.abortsBefore x) :
    Does (.abort c) s fun t => EndedWith t c x (Cpl.err 0x1 0x03) ∧ t.names = s.names :=
  Does.completes hand (by rw [execAbort_atHand hand, if_pos many]) rfl (State.complete_names _ _ _)

end

/-! ## Creation of queues (Table 11-5) -/

section
variable {s : State} {c : Nat} {x : Ctx} {f : Fn} (hand : AtHand s c (isAdminOp 0x01) x) (host : x.origin = .host f)
include hand host

theorem execCreateIoSubmissionQueue_sound
    (sound : queueBad x.entry ((s.fn f).sq? (qidOf x.entry)).isSome (bits (s.fn f).cc 19 16 == 6) = none) :
    exec (.createIoSubmissionQueue c) s = .next
      (if bits x.entry.cdw11 31 16 = 0 ∨ ((s.fn f).cq? (bits x.entry.cdw11 31 16)).isNone = true then s.complete c Cpl.cqInvalid
        else (s.modFn f fun y => { y with sqs := y.sqs ++ [SubQ.fresh (qidOf x.entry) (qsizeOf x.entry + 1) (bits x.entry.cdw11 31 16)
          (Fin.ofNat 4 (bits x.entry.cdw11 2 1))] }).complete c Cpl.ok) := by
  show execCreateIoSubmissionQueue c s = _
  rw [execCreateIoSubmissionQueue, State.run_atHand hand, State.forHost_host host]
  dsimp only
  rw [sound]
  rfl

theorem createIoSubmissionQueue_refused {r : Cpl}
    (bad : queueBad x.entry ((s.fn f).sq? (qidOf x.entry)).isSome (bits (s.fn f).cc 19 16 == 6) = some r) :
    Does (.createIoSubmissionQueue c) s fun t => EndedWith t c x r ∧ (t.fn f).sqs = (s.fn f).sqs ∧ t.names = s.names := by
  refine Does.completes (u := s) hand ?_ rfl ⟨by rw [State.complete_fn], State.complete_names _ _ _⟩
  show execCreateIoSubmissionQueue c s = _
  rw [execCreateIoSubmissionQueue, State.run_atHand hand, State.forHost_host host]
  dsimp only
  rw [bad]
  rfl

theorem createIoSubmissionQueue_made
    (sound : queueBad x.entry ((s.fn f).sq? (qidOf x.entry)).isSome (bits (s.fn f).cc 19 16 == 6) = none)
    (number : bits x.entry.cdw11 31 16 ≠ 0) (there : ((s.fn f).cq? (bits x.entry.cdw11 31 16)).isSome = true) :
    Does (.createIoSubmissionQueue c) s fun t => EndedWith t c x Cpl.ok ∧
      (t.fn f).sqs = (s.fn f).sqs ++ [SubQ.fresh (qidOf x.entry) (qsizeOf x.entry + 1) (bits x.entry.cdw11 31 16)
        (Fin.ofNat 4 (bits x.entry.cdw11 2 1))] ∧ (t.fn f).cqs = (s.fn f).cqs ∧ t.names = s.names := by
  refine Does.completes hand (by
    rw [execCreateIoSubmissionQueue_sound hand host sound, if_neg (by simp [number, Option.ne_none_iff_isSome.mpr there])]) ?_ ?_
  · exact State.modFn_ctxs _ _ _
  · simp

theorem createIoSubmissionQueue_noCompletionQueue
    (sound : queueBad x.entry ((s.fn f).sq? (qidOf x.entry)).isSome (bits (s.fn f).cc 19 16 == 6) = none)
    (missing : (s.fn f).cq? (bits x.entry.cdw11 31 16) = none) :
    Does (.createIoSubmissionQueue c) s fun t => EndedWith t c x Cpl.cqInvalid ∧ (t.fn f).sqs = (s.fn f).sqs ∧ t.names = s.names :=
  Does.completes hand (by rw [execCreateIoSubmissionQueue_sound hand host sound, if_pos (by simp [missing])]) rfl
    ⟨by rw [State.complete_fn], State.complete_names _ _ _⟩

end

section
variable {s : State} {c : Nat} {x : Ctx} {f : Fn} (hand : AtHand s c (isAdminOp 0x05) x) (host : x.origin = .host f)
include hand host

theorem execCreateIoCompletionQueue_sound
    (sound : queueBad x.entry ((s.fn f).cq? (qidOf x.entry)).isSome (bits (s.fn f).cc 23 20 == 4) = none) :
    exec (.createIoCompletionQueue c) s = .next
      (if h : bits x.entry.cdw11 31 16 < 65 then
        (s.modFn f fun y => { y with cqs := y.cqs ++ [CplQ.fresh (qidOf x.entry) (qsizeOf x.entry + 1) ⟨bits x.entry.cdw11 31 16, h⟩
          (bits x.entry.cdw11 1 1 == 1)] }).complete c Cpl.ok
        else s.complete c Cpl.badVector) := by
  show execCreateIoCompletionQueue c s = _
  rw [execCreateIoCompletionQueue, State.run_atHand hand, State.forHost_host host]
  dsimp only
  rw [sound]
  rfl

theorem createIoCompletionQueue_refused {r : Cpl}
    (bad : queueBad x.entry ((s.fn f).cq? (qidOf x.entry)).isSome (bits (s.fn f).cc 23 20 == 4) = some r) :
    Does (.createIoCompletionQueue c) s fun t => EndedWith t c x r ∧ (t.fn f).cqs = (s.fn f).cqs ∧ t.names = s.names := by
  refine Does.completes (u := s) hand ?_ rfl ⟨by rw [State.complete_fn], State.complete_names _ _ _⟩
  show execCreateIoCompletionQueue c s = _
  rw [execCreateIoCompletionQueue, State.run_atHand hand, State.forHost_host host]
  dsimp only
  rw [bad]
  rfl

theorem createIoCompletionQueue_made {v : Fin 65}
    (sound : queueBad x.entry ((s.fn f).cq? (qidOf x.entry)).isSome (bits (s.fn f).cc 23 20 == 4) = none)
    (vector : bits x.entry.cdw11 31 16 = v.val) :
    Does (.createIoCompletionQueue c) s fun t => EndedWith t c x Cpl.ok ∧
      (t.fn f).cqs = (s.fn f).cqs ++ [CplQ.fresh (qidOf x.entry) (qsizeOf x.entry + 1) v (bits x.entry.cdw11 1 1 == 1)] ∧
      (t.fn f).sqs = (s.fn f).sqs ∧ t.names = s.names := by
  have small : bits x.entry.cdw11 31 16 < 65 := vector ▸ v.isLt
  have same : (⟨bits x.entry.cdw11 31 16, small⟩ : Fin 65) = v := Fin.ext vector
  refine Does.completes hand (by rw [execCreateIoCompletionQueue_sound hand host sound, dif_pos small]) ?_ ?_
  · exact State.modFn_ctxs _ _ _
  · simp [same]

theorem createIoCompletionQueue_noVector
    (sound : queueBad x.entry ((s.fn f).cq? (qidOf x.entry)).isSome (bits (s.fn f).cc 23 20 == 4) = none)
    (beyond : 64 < bits x.entry.cdw11 31 16) :
    Does (.createIoCompletionQueue c) s fun t => EndedWith t c x Cpl.badVector ∧ (t.fn f).cqs = (s.fn f).cqs ∧ t.names = s.names :=
  Does.completes hand (by rw [execCreateIoCompletionQueue_sound hand host sound, dif_neg (Nat.not_lt.mpr beyond)]) rfl
    ⟨by rw [State.complete_fn], State.complete_names _ _ _⟩

end

/-! ## Deletion of queues (R419; spec/12 R463) -/

/-- The one command in the device deletes a submission queue of which it is not itself: the queue goes and the command ends. -/
theorem State.settleDeletions_alone {s : State} {x : Ctx} {f : Fn} {q : Nat} (alone : s.ctxs = [x]) (waits : x.stage = .waiting)
    (wait : x.wait = .deletion f q) (other : x.sq ≠ q) :
    s.settleDeletions = (s.modFn f fun y => { y with sqs := y.sqs.filter fun z => z.id != q }).complete x.id Cpl.ok := by
  rw [State.settleDeletions, alone]
  simp [State.each, waits, wait, alone, other]

section
variable {s : State} {c : Nat} {x : Ctx} {f : Fn} (hand : AtHand s c (isAdminOp 0x00) x) (host : x.origin = .host f)
include hand host

theorem deleteIoSubmissionQueue_admin (zero : qidOf x.entry = 0) :
    Does (.deleteIoSubmissionQueue c) s fun t => EndedWith t c x Cpl.badQid ∧ (t.fn f).sqs = (s.fn f).sqs ∧ t.names = s.names := by
  refine Does.completes (u := s) hand ?_ rfl ⟨by rw [State.complete_fn], State.complete_names _ _ _⟩
  show execDeleteIoSubmissionQueue c s = _
  rw [execDeleteIoSubmissionQueue, State.run_atHand hand, State.forHost_host host]
  dsimp only
  split
  · rfl
  · rw [if_pos (.inl zero)]

/-- From the deletion point on: nothing more is fetched from the queue. -/
def SubQ.deleted (y : SubQ) : SubQ := { y with deleting := true, frozen := false, tail := y.head }

/-- The Delete itself once it waits, where it is the one command in the device. -/
def State.deleteWaits (s : State) (c : Nat) (f : Fn) (q : Nat) : State := (s.modSq f q SubQ.deleted).await c (.deletion f q)

theorem execDeleteIoSubmissionQueue_alone {y : SubQ} (alone : s.ctxs = [x]) (there : (s.fn f).sq? (qidOf x.entry) = some y)
    (io : qidOf x.entry ≠ 0) (live : y.deleting = false) (other : x.sq ≠ qidOf x.entry) :
    exec (.deleteIoSubmissionQueue c) s =
      .next (s.deleteWaits c f (qidOf x.entry)).settleOrder.settleDeletions.noteClean := by
  show execDeleteIoSubmissionQueue c s = _
  rw [execDeleteIoSubmissionQueue, State.run_atHand hand, State.forHost_host host]
  dsimp only
  rw [there]
  dsimp only
  rw [if_neg (by simp [io, live]), State.modSq_ctxs, alone]
  simp [State.each, other, State.deleteWaits]
  rfl

theorem deleteIoSubmissionQueue_gone {y : SubQ} (alone : s.ctxs = [x]) (quiet : s.power.entering = false)
    (there : (s.fn f).sq? (qidOf x.entry) = some y) (io : qidOf x.entry ≠ 0) (live : y.deleting = false) (other : x.sq ≠ qidOf x.entry) :
    Does (.deleteIoSubmissionQueue c) s fun t => EndedWith t c x Cpl.ok ∧
      (t.fn f).sqs = (s.fn f).sqs.filter (fun z => z.id != qidOf x.entry) ∧ (t.fn f).cqs = (s.fn f).cqs ∧
      t.names = { s.names with firstDue := t.names.firstDue } := by
  have id : x.id = c := State.ctx_id hand.1
  let q := qidOf x.entry
  let v := s.modSq f q SubQ.deleted
  let w := x.awaits (.deletion f q) v.now
  let u := (s.deleteWaits c f q).modFn f fun y => { y with sqs := y.sqs.filter fun z => z.id != q }
  have waiting : (s.deleteWaits c f q).ctxs = [w] := State.await_alone (s := v) ((State.modSq_ctxs _ _ _ _).trans alone) id _
  have held : u.ctxs = [w] := (State.modFn_ctxs _ _ _).trans waiting
  have gone : (s.deleteWaits c f q).settleOrder.settleDeletions = u.complete c Cpl.ok := by
    rw [State.settleOrder_rests waiting rfl, State.settleDeletions_alone waiting rfl rfl other, show w.id = c from id]
  have calm : (u.complete c Cpl.ok).power.entering = false := by
    simpa [u, State.deleteWaits, State.await, State.modSq] using quiet
  have still := State.settleDeletes_ended held id host Cpl.ok
  have besides := State.noteClean_still_besides calm still f
  rw [State.complete_fn, State.modFn_fn, if_pos rfl] at besides
  have names := State.noteClean_still_names calm still
  rw [State.complete_names, State.modFn_names, State.deleteWaits, State.await, State.modCtx_names, State.modSq_names] at names
  refine ⟨_, by rw [execDeleteIoSubmissionQueue_alone hand host alone there io live other, gone],
    (State.ended_alone held id host (x.awaits_same _ _) Cpl.ok).noteClean calm still, (congrArg HostFn.sqs besides).trans ?_,
    (congrArg HostFn.cqs besides).trans ?_, names⟩
  · simp [HostFn.besidesShutdown, State.deleteWaits, State.await]
    exact filter_mapWhere SubQ.id (g := SubQ.deleted) (fun _ h => h) _
  · simp [HostFn.besidesShutdown, State.deleteWaits, State.await]

end

section
variable {s : State} {c : Nat} {x : Ctx} {f : Fn} (hand : AtHand s c (isAdminOp 0x04) x) (host : x.origin = .host f)
include hand host

theorem execDeleteIoCompletionQueue_atHand : exec (.deleteIoCompletionQueue c) s = .next
    (if qidOf x.entry = 0 ∨ ((s.fn f).cq? (qidOf x.entry)).isNone = true then s.complete c Cpl.badQid
      else if ((s.fn f).sqs.any fun y => y.cq == qidOf x.entry) = true then s.complete c Cpl.badDeletion
      else (s.modFn f fun y => { y with cqs := y.cqs.filter fun k => k.id != qidOf x.entry }).complete c Cpl.ok) := by
  show execDeleteIoCompletionQueue c s = _
  rw [execDeleteIoCompletionQueue, State.run_atHand hand, State.forHost_host host]

theorem deleteIoCompletionQueue_unknown (unknown : qidOf x.entry = 0 ∨ (s.fn f).cq? (qidOf x.entry) = none) :
    Does (.deleteIoCompletionQueue c) s fun t => EndedWith t c x Cpl.badQid ∧ (t.fn f).cqs = (s.fn f).cqs ∧ t.names = s.names :=
  Does.completes hand (by rw [execDeleteIoCompletionQueue_atHand hand host, if_pos (by simpa using unknown)]) rfl
    ⟨by rw [State.complete_fn], State.complete_names _ _ _⟩

section
variable (io : qidOf x.entry ≠ 0) (there : ((s.fn f).cq? (qidOf x.entry)).isSome = true)
include io there

theorem deleteIoCompletionQueue_gone (free : ((s.fn f).sqs.any fun y => y.cq == qidOf x.entry) = false) :
    Does (.deleteIoCompletionQueue c) s fun t => EndedWith t c x Cpl.ok ∧
      (t.fn f).cqs = (s.fn f).cqs.filter (fun k => k.id != qidOf x.entry) ∧ (t.fn f).sqs = (s.fn f).sqs ∧ t.names = s.names := by
  refine Does.completes hand (by rw [execDeleteIoCompletionQueue_atHand hand host,
    if_neg (by simp [io, Option.ne_none_iff_isSome.mpr there]), if_neg (by simp [free])]) ?_ ?_
  · exact State.modFn_ctxs _ _ _
  · simp

theorem deleteIoCompletionQueue_named (named : ((s.fn f).sqs.any fun y => y.cq == qidOf x.entry) = true) :
    Does (.deleteIoCompletionQueue c) s fun t => EndedWith t c x Cpl.badDeletion ∧ (t.fn f).cqs = (s.fn f).cqs ∧ t.names = s.names :=
  Does.completes hand (by rw [execDeleteIoCompletionQueue_atHand hand host,
    if_neg (by simp [io, Option.ne_none_iff_isSome.mpr there]), if_pos named]) rfl ⟨by rw [State.complete_fn], State.complete_names _ _ _⟩

end

end

/-! ## Shadow doorbells and Queue Resume (R427; spec/12 R470, R481) -/

theorem doorbellBufferConfig_sets {s : State} {c : Nat} {x : Ctx} {f : Fn} (hand : AtHand s c (isAdminOp 0x7C) x)
    (host : x.origin = .host f) : Does (.doorbellBufferConfig c) s fun t => EndedWith t c x Cpl.ok ∧
      (t.fn f).shadow = some (x.entry.prp1, x.entry.prp2) ∧ (t.fn f).sqs = (s.fn f).sqs ∧ t.names = s.names := by
  refine Does.completes (u := s.modFn f fun y => { y with shadow := some (x.entry.prp1, x.entry.prp2) }) hand ?_
    (State.modFn_ctxs _ _ _) ?_
  · show execDoorbellBufferConfig c s = _
    rw [execDoorbellBufferConfig, State.run_atHand hand, State.forHost_host host]
  · simp

section
variable {s : State} {c : Nat} {x : Ctx} {f : Fn} {y : SubQ} (hand : AtHand s c (isAdminOp 0xC1) x) (host : x.origin = .host f)
  (clear : qsizeOf x.entry = 0) (there : (s.fn f).sq? (qidOf x.entry) = some y) (io : qidOf x.entry ≠ 0) (live : y.deleting = false)
include hand host clear there io live

theorem execQueueResume_there : exec (.queueResume c) s = .next
    (if y.frozen = false then s.complete c (Cpl.val 0)
      else if y.freezeCount = x.entry.cdw12 ++ x.entry.cdw11 ∧ (s.fn f).returned.contains (x.entry.cdw12 ++ x.entry.cdw11) = true then
        (s.modSq f (qidOf x.entry) fun y => { y with frozen := false }).complete c (Cpl.val 1)
      else s.complete c Cpl.seqError) := by
  show execQueueResume c s = _
  rw [execQueueResume, State.run_atHand hand, State.forHost_host host]
  dsimp only
  rw [clear, show firstBad [((0 : Nat) != 0, 10, 16)] = none from rfl, State.orElse_none, there]
  dsimp only
  rw [if_neg (by simp [io, live])]

theorem queueResume_notFrozen (running : y.frozen = false) :
    Does (.queueResume c) s fun t => EndedWith t c x (Cpl.val 0) ∧ (t.fn f).sqs = (s.fn f).sqs ∧ t.names = s.names :=
  Does.completes hand (by rw [execQueueResume_there hand host clear there io live, if_pos running]) rfl
    ⟨by rw [State.complete_fn], State.complete_names _ _ _⟩

variable (frozen : y.frozen = true)
include frozen

theorem queueResume_resumes (count : y.freezeCount = x.entry.cdw12 ++ x.entry.cdw11)
    (returned : (s.fn f).returned.contains y.freezeCount = true) :
    Does (.queueResume c) s fun t => EndedWith t c x (Cpl.val 1) ∧ (t.fn f).sq? (qidOf x.entry) = some { y with frozen := false } ∧
      (t.fn f).cqs = (s.fn f).cqs ∧ t.names = s.names := by
  refine Does.completes hand (by rw [execQueueResume_there hand host clear there io live, if_neg (by simp [frozen]),
    if_pos ⟨count, count ▸ returned⟩]) (State.modSq_ctxs _ _ _ _) ⟨?_, by simp, by simp⟩
  rw [State.complete_fn, State.modSq_sq (g := fun y => { y with frozen := false }) (fun _ h => h), there]
  rfl

theorem queueResume_refused
    (bad : y.freezeCount ≠ x.entry.cdw12 ++ x.entry.cdw11 ∨ (s.fn f).returned.contains y.freezeCount = false) :
    Does (.queueResume c) s fun t => EndedWith t c x Cpl.seqError ∧ (t.fn f).sqs = (s.fn f).sqs ∧ t.names = s.names := by
  have unfit : ¬ (y.freezeCount = x.entry.cdw12 ++ x.entry.cdw11 ∧
      (s.fn f).returned.contains (x.entry.cdw12 ++ x.entry.cdw11) = true) := by
    rintro ⟨count, returned⟩
    obtain other | unreturned := bad
    · exact other count
    · rw [count, returned] at unreturned
      cases unreturned
  exact Does.completes hand (by rw [execQueueResume_there hand host clear there io live, if_neg (by simp [frozen]), if_neg unfit]) rfl
    ⟨by rw [State.complete_fn], State.complete_names _ _ _⟩

end

/-! ## The statement on the admin commands -/

/-- Settles O6: each command is run from its context, and what it does then is one completion of a state with at most one function changed;
only the deletion of a submission queue goes on after it, with the one command in the device. -/
theorem adminCommands : Obligations.AdminCommands := by
  refine ⟨?_, ?_, ?_, ?_, ?_, ?_, ?_, ?_, ?_, ?_, ?_, ?_, ?_, ?_, ?_, ?_, ?_, ?_, ?_, ?_, ?_, ?_, ?_, ?_⟩
  · intro s c x f hand host cns
    exact identify_controller hand host cns
  · intro s c x f hand host cns
    exact identify_activeList hand host cns
  · intro s c x f hand _ unknown
    exact identify_unknown hand unknown
  · intro s c x f hand host room none_
    exact asynchronousEventRequest_held hand host room none_
  · intro s c x f hand host full
    exact asynchronousEventRequest_refused hand host full
  · intro s c x f hand _ few
    exact abort_notAborted hand few
  · intro s c x f hand host sound number there
    exact createIoSubmissionQueue_made hand host sound number there
  · intro s c x f hand host sound _ missing
    exact createIoSubmissionQueue_noCompletionQueue hand host sound missing
  · intro s c x f v hand host sound vector
    exact createIoCompletionQueue_made hand host sound vector
  · intro s c x f hand host sound beyond
    exact createIoCompletionQueue_noVector hand host sound beyond
  · intro s c x f y hand host alone quiet there io live other
    exact deleteIoSubmissionQueue_gone hand host alone quiet there io live other
  · intro s c x f hand host zero
    exact deleteIoSubmissionQueue_admin hand host zero
  · intro s c x f hand host io there free
    exact deleteIoCompletionQueue_gone hand host io there free
  · intro s c x f hand host io there named
    exact deleteIoCompletionQueue_named hand host io there named
  · intro s c x f hand host
    exact doorbellBufferConfig_sets hand host
  · intro s c x f y hand host clear there io live frozen count returned
    exact queueResume_resumes hand host clear there io live frozen count returned
  · intro s c x f y hand host clear there io live frozen bad
    exact queueResume_refused hand host clear there io live frozen bad
  · intro s c x f hand _ many
    exact abort_refused hand many
  · intro s c x f bs hand host known data
    exact identify_data hand host known data
  · intro s c x f hand host known none_
    exact identify_noNamespace hand host known none_
  · intro s c x f r hand host bad
    exact createIoSubmissionQueue_refused hand host bad
  · intro s c x f r hand host bad
    exact createIoCompletionQueue_refused hand host bad
  · intro s c x f hand host unknown
    exact deleteIoCompletionQueue_unknown hand host unknown
  · intro s c x f y hand host clear there io live running
    exact queueResume_notFrozen hand host clear there io live running

end Sys2Proof.Machine
end

section
/-! SUPPORT. Get and Set Features (spec/11 R418, R436, R440, R445, R449; spec/12 R487, R488, Table 12-13; spec/10 R397; spec/15 R550). -/

namespace Sys2Proof.Machine

/-! ## Fields of a dword -/

theorem bits_lt (w : W32) (hi lo : Nat) : bits w hi lo < 2 ^ (hi + 1 - lo) := Nat.mod_lt _ (Nat.two_pow_pos _)

/-- A field of one bit is that bit. -/
theorem bits_single (w : W32) (n : Nat) : (bits w n n == 1) = w.getLsbD n := by
  rw [bits, Nat.add_sub_cancel_left, BitVec.getLsbD, Nat.testBit_eq_decide_div_mod_eq]
  rfl

/-- A field at fault that starts below all others tested is the one that is found. -/
theorem firstBad_lowest {n lo : Nat} {l : List (Bool × Nat × Nat)} (lowest : ∀ q ∈ l, fieldPlace (true, n, lo) ≤ fieldPlace q) :
    firstBad ((true, n, lo) :: l) = some (Cpl.invalid n lo) := by
  have stays (r : List (Bool × Nat × Nat)) (above : ∀ q ∈ r, fieldPlace (true, n, lo) ≤ fieldPlace q) :
      r.foldl (fun b q => if fieldPlace q < fieldPlace b then q else b) (true, n, lo) = (true, n, lo) := by
    induction r with
    | nil => rfl
    | cons q r ih =>
      rw [List.foldl_cons, if_neg (Nat.not_lt.mpr (above q List.mem_cons_self))]
      exact ih fun p h => above p (List.mem_cons_of_mem _ h)
  rw [firstBad, List.filter_cons_of_pos rfl]
  dsimp only
  rw [stays _ fun q h => lowest q (List.mem_filter.mp h).1]

/-! ## Thresholds by sensor (spec/15 R550) -/

/-- A list of thresholds with those of the sensors named set. -/
def thresholdsSet (v : W32) (l : Vector Nat 3) : Vector Nat 3 := (tmpSel v).foldl (fun l i => upd l i fun _ => bits v 15 0) l

theorem thresholdsSet_one {v : W32} {i : Fin 3} (one : tmpSel v = [i]) (l : Vector Nat 3) :
    (thresholdsSet v l)[i] = bits v 15 0 ∧ ∀ j, j ≠ i → (thresholdsSet v l)[j] = l[j] := by
  rw [thresholdsSet, one, List.foldl_cons, List.foldl_nil]
  exact ⟨(upd_get _ _ _ _).trans (if_pos rfl), fun j other => (upd_get _ _ _ _).trans (if_neg (Ne.symm other))⟩

theorem thresholdsSet_all {v : W32} (all : tmpSel v = [0, 1, 2]) (l : Vector Nat 3) (j : Fin 3) :
    (thresholdsSet v l)[j] = bits v 15 0 := by
  rw [thresholdsSet, all]
  simp only [List.foldl_cons, List.foldl_nil, upd_get]
  fin_cases j <;> rfl

/-! ## Get Features (spec/12 R487) -/

section
variable {s : State} {c : Nat} {x : Ctx} {f : Fn} (hand : AtHand s c (isAdminOp 0x0A) x)
include hand

theorem getFeatures_unknown (unknown : knownFeatures.contains (bits x.entry.cdw10 7 0) = false) :
    Does (.getFeatures c) s fun t => EndedWith t c x (Cpl.invalid 10 0) ∧ t.names = s.names ∧ t.nor = s.nor := by
  refine Does.completes (u := s) hand ?_ rfl ⟨State.complete_names _ _ _, State.complete_nor _ _ _⟩
  show execGetFeatures c s = _
  rw [execGetFeatures, State.run_atHand hand]
  dsimp only
  rw [unknown, Bool.not_false, firstBad_lowest (by simp [fieldPlace])]
  rfl

/-- The value in force of a feature that is known and, where it takes one, names a sensor or a vector. -/
theorem getFeatures_inForce (host : x.origin = .host f) (known : knownFeatures.contains (bits x.entry.cdw10 7 0) = true)
    (current : bits x.entry.cdw10 10 8 = 0) (vector : bits x.entry.cdw10 7 0 = 9 → bits x.entry.cdw11 15 0 ≤ 64)
    (sensor : bits x.entry.cdw10 7 0 = 4 → (tmpSel x.entry.cdw11).length = 1 ∧ bits x.entry.cdw11 21 20 ≤ 1) :
    Does (.getFeatures c) s fun t =>
      EndedWith t c x (if bits x.entry.cdw10 7 0 = 0x16 then Cpl.data (padTo 512 [BitVec.ofNat 8 (bit (s.fn f).acre)])
        else Cpl.val (s.featureNow f (bits x.entry.cdw10 7 0) x.entry.cdw11)) ∧
      t.names = s.names ∧ t.nor = s.nor ∧ (t.fn f).sqs = (s.fn f).sqs := by
  refine Does.completes (u := s) hand ?_ rfl ⟨State.complete_names _ _ _, State.complete_nor _ _ _, by rw [State.complete_fn]⟩
  have sound : firstBad [(!knownFeatures.contains (bits x.entry.cdw10 7 0), 10, 0), (decide (3 < bits x.entry.cdw10 10 8), 10, 8),
      (bits x.entry.cdw10 7 0 == 0x09 && decide (64 < bits x.entry.cdw11 15 0), 11, 0),
      (bits x.entry.cdw10 7 0 == 0x04 && (tmpSel x.entry.cdw11).length != 1, 11, 16),
      (bits x.entry.cdw10 7 0 == 0x04 && decide (1 < bits x.entry.cdw11 21 20), 11, 20)] = none := by
    simpa [known, current] using ⟨List.contains_iff_mem.mp known, vector, fun h => (sensor h).1, fun h => (sensor h).2⟩
  show execGetFeatures c s = _
  rw [execGetFeatures, State.run_atHand hand]
  dsimp only
  rw [sound, State.orElse_none, Ctx.fn_host host, current]
  by_cases behavior : bits x.entry.cdw10 7 0 = 0x16
  · rw [if_pos ⟨behavior, by decide⟩, if_pos behavior]
    simp
  · rw [if_neg fun h => behavior h.1, if_neg behavior]
    rfl

end

/-! ## A standard feature set (spec/11 R418 to R449) -/

section
variable {s : State} {c fid : Nat} {x : Ctx} {f : Fn} {bad : SqEntry → List (Bool × Nat × Nat)} {k : Fn → W32 → State → State}
  (hand : AtHand s c (isAction 0x09 fid) x) (host : x.origin = .host f)
include hand host

theorem State.setStandard_eq : s.setStandard c fid bad k =
    s.orElse c (firstBad ((saves x.entry, 10, 31) :: bad x.entry)) (k f x.entry.cdw11) := by
  rw [State.setStandard, State.run_atHand hand, State.forHost_host host]

variable (plain : saves x.entry = false)
include plain

theorem State.setStandard_unsaved : s.setStandard c fid bad k = s.orElse c (firstBad (bad x.entry)) (k f x.entry.cdw11) := by
  rw [State.setStandard_eq hand host, plain]
  exact congrArg (s.orElse c · _) (firstBad_append (l := [(false, 10, 31)]) rfl (bad x.entry))

/-- What a standard feature does when it changes its function alone and then ends. -/
theorem setStandard_changes {i : Instr} {g : HostFn → HostFn} (run : exec i s = .next (s.setStandard c fid bad k))
    (sound : firstBad (bad x.entry) = none) (change : k f x.entry.cdw11 s = (s.modFn f g).complete c Cpl.ok) :
    Does i s fun t => EndedWith t c x Cpl.ok ∧ t.fn f = g (s.fn f) ∧ t.power = s.power ∧ t.names = s.names := by
  refine Does.completes hand (by rw [run, State.setStandard_unsaved hand host plain, sound, State.orElse_none, change])
    (State.modFn_ctxs _ _ _) ?_
  simp

end

theorem setFeaturesArbitration_unsaved {s : State} {c : Nat} {x : Ctx} {f : Fn} (hand : AtHand s c (isAction 0x09 1) x)
    (host : x.origin = .host f) (save : saves x.entry = true) : Does (.setFeaturesArbitration c) s fun t =>
      EndedWith t c x (Cpl.invalid 10 31) ∧ t.fn f = s.fn f ∧ t.names = s.names := by
  refine Does.completes (u := s) hand ?_ rfl ⟨State.complete_fn _ _ _ _, State.complete_names _ _ _⟩
  show execSetFeaturesArbitration c s = _
  rw [execSetFeaturesArbitration, State.setStandard_eq hand host, save]
  rfl

section
variable {s : State} {c : Nat} {x : Ctx} {f : Fn} (host : x.origin = .host f) (plain : saves x.entry = false)
include host plain

theorem setFeaturesArbitration_sets (hand : AtHand s c (isAction 0x09 1) x) : Does (.setFeaturesArbitration c) s fun t =>
    EndedWith t c x Cpl.ok ∧ (t.fn f).ab.val = bits x.entry.cdw11 2 0 ∧ (t.fn f).lpw = bits x.entry.cdw11 15 8 ∧
      (t.fn f).mpw = bits x.entry.cdw11 23 16 ∧ (t.fn f).hpw = bits x.entry.cdw11 31 24 ∧ (t.fn f).sqs = (s.fn f).sqs ∧
      t.names = s.names := by
  refine Does.imp ?_ (setStandard_changes hand host plain rfl rfl rfl)
  rintro t ⟨ended, fn, -, names⟩
  rw [fn]
  exact ⟨ended, Nat.mod_eq_of_lt (bits_lt _ 2 0), rfl, rfl, rfl, rfl, names⟩

theorem setFeaturesPowerManagement_sets (hand : AtHand s c (isAction 0x09 2) x) (state : bits x.entry.cdw11 4 0 ≤ 3) :
    Does (.setFeaturesPowerManagement c) s fun t => EndedWith t c x Cpl.ok ∧ (t.fn f).ps.val = bits x.entry.cdw11 4 0 ∧
      (t.fn f).lastOp = (if bits x.entry.cdw11 4 0 = 3 then (s.fn f).lastOp else (t.fn f).ps) ∧ t.power = s.power ∧
      (t.fn f).sqs = (s.fn f).sqs ∧ t.names = s.names := by
  have sound : firstBad [(decide (3 < bits x.entry.cdw11 4 0), 11, 0)] = none := by simpa using state
  have number : (Fin.ofNat 4 (bits x.entry.cdw11 4 0)).val = bits x.entry.cdw11 4 0 := Nat.mod_eq_of_lt (by omega)
  have lowest : Fin.ofNat 4 (bits x.entry.cdw11 4 0) = 3 ↔ bits x.entry.cdw11 4 0 = 3 := by
    rw [← Fin.val_inj, number]
    rfl
  refine Does.imp ?_ (setStandard_changes hand host plain rfl sound rfl)
  rintro t ⟨ended, fn, power, names⟩
  rw [fn]
  exact ⟨ended, number, if_congr lowest rfl rfl, power, rfl, names⟩

theorem setFeaturesNumberOfQueues_returns (hand : AtHand s c (isAction 0x09 7) x) : Does (.setFeaturesNumberOfQueues c) s fun t =>
    EndedWith t c x (Cpl.val (word [(63, 0), (63, 16)])) ∧ (t.fn f).sqs = (s.fn f).sqs ∧ t.names = s.names := by
  refine Does.completes (u := s) hand ?_ rfl ⟨by rw [State.complete_fn], State.complete_names _ _ _⟩
  show execSetFeaturesNumberOfQueues c s = _
  rw [execSetFeaturesNumberOfQueues, State.setStandard_unsaved hand host plain]
  rfl

theorem setFeaturesInterruptCoalescing_sets (hand : AtHand s c (isAction 0x09 8) x) : Does (.setFeaturesInterruptCoalescing c) s fun t =>
    EndedWith t c x Cpl.ok ∧ (t.fn f).thr = bits x.entry.cdw11 7 0 ∧ (t.fn f).time = bits x.entry.cdw11 15 8 ∧
      (t.fn f).sqs = (s.fn f).sqs ∧ t.names = s.names := by
  refine Does.imp ?_ (setStandard_changes hand host plain rfl rfl rfl)
  rintro t ⟨ended, fn, -, names⟩
  rw [fn]
  exact ⟨ended, rfl, rfl, rfl, names⟩

theorem setFeaturesInterruptVectorConfig_sets {v : Fin 65} (hand : AtHand s c (isAction 0x09 9) x)
    (vector : bits x.entry.cdw11 15 0 = v.val) : Does (.setFeaturesInterruptVectorConfig c) s fun t => EndedWith t c x Cpl.ok ∧
      ((t.fn f).vec v).cd = x.entry.cdw11.getLsbD 16 ∧ ((t.fn f).vec v).count = ((s.fn f).vec v).count ∧
      (t.fn f).sqs = (s.fn f).sqs ∧ t.names = s.names := by
  have sound : firstBad [(decide (64 < bits x.entry.cdw11 15 0), 11, 0)] = none := by
    have := v.isLt
    simp
    omega
  have number : Fin.ofNat 65 (bits x.entry.cdw11 15 0) = v := Fin.ext (by rw [vector]; exact Nat.mod_eq_of_lt v.isLt)
  refine Does.imp ?_ (setStandard_changes hand host plain rfl sound rfl)
  rintro t ⟨ended, fn, -, names⟩
  have changed : (t.fn f).vec v = { (s.fn f).vec v with cd := x.entry.cdw11.getLsbD 16 } := by
    rw [fn, number]
    exact (upd_get _ _ _ _).trans (if_pos rfl)
  exact ⟨ended, by rw [changed], by rw [changed], by rw [fn], names⟩

theorem setFeaturesAsyncEventConfig_sets (hand : AtHand s c (isAction 0x09 11) x) : Does (.setFeaturesAsyncEventConfig c) s fun t =>
    EndedWith t c x Cpl.ok ∧ (t.fn f).asyncCfg = x.entry.cdw11 ∧ (t.fn f).sqs = (s.fn f).sqs ∧ t.names = s.names := by
  refine Does.imp ?_ (setStandard_changes hand host plain rfl rfl rfl)
  rintro t ⟨ended, fn, -, names⟩
  rw [fn]
  exact ⟨ended, rfl, rfl, names⟩

/-! ### Temperature thresholds (spec/15 R550) -/

section
variable (hand : AtHand s c (isAction 0x09 4) x)
include hand

theorem setFeaturesTemperatureThreshold_noSensor (unknown : tmpSel x.entry.cdw11 = []) :
    Does (.setFeaturesTemperatureThreshold c) s fun t => EndedWith t c x (Cpl.invalid 11 16) ∧ t.fn f = s.fn f ∧ t.names = s.names := by
  refine Does.completes (u := s) hand ?_ rfl ⟨State.complete_fn _ _ _ _, State.complete_names _ _ _⟩
  show execSetFeaturesTemperatureThreshold c s = _
  rw [execSetFeaturesTemperatureThreshold, State.setStandard_unsaved hand host plain, unknown,
    show (([] : List (Fin 3)) == []) = true from rfl, firstBad_lowest (by simp [fieldPlace])]
  rfl

theorem setFeaturesTemperatureThreshold_sets (known : tmpSel x.entry.cdw11 ≠ []) (kind : bits x.entry.cdw11 21 20 ≤ 1) :
    Does (.setFeaturesTemperatureThreshold c) s fun t => EndedWith t c x Cpl.ok ∧
      (t.fn f).overTemp = (if bits x.entry.cdw11 21 20 = 0 then thresholdsSet x.entry.cdw11 (s.fn f).overTemp else (s.fn f).overTemp) ∧
      (t.fn f).underTemp = (if bits x.entry.cdw11 21 20 = 0 then (s.fn f).underTemp else thresholdsSet x.entry.cdw11 (s.fn f).underTemp) ∧
      (t.fn f).sqs = (s.fn f).sqs ∧ t.names = s.names := by
  have sound : firstBad [(tmpSel x.entry.cdw11 == [], 11, 16), (decide (1 < bits x.entry.cdw11 21 20), 11, 20)] = none := by
    simpa [known] using kind
  refine Does.imp ?_ (setStandard_changes hand host plain rfl sound rfl)
  rintro t ⟨ended, fn, -, names⟩
  rw [fn]
  exact ⟨ended, rfl, rfl, rfl, names⟩

end

/-! ### The volatile write cache (spec/10 R397) -/

section
variable (hand : AtHand s c (isAction 0x09 6) x)
include hand

theorem setFeaturesVolatileWriteCache_on (on : x.entry.cdw11.getLsbD 0 = true) :
    Does (.setFeaturesVolatileWriteCache c) s fun t => EndedWith t c x Cpl.ok ∧ t.names.wce = true ∧
      t.names.buffer = s.names.buffer ∧ (t.fn f).sqs = (s.fn f).sqs := by
  refine Does.completes (u := s.modNames fun n => { n with wce := true }) hand ?_ rfl ⟨by simp, by simp, by simp⟩
  show execSetFeaturesVolatileWriteCache c s = _
  rw [execSetFeaturesVolatileWriteCache, State.setStandard_unsaved hand host plain]
  dsimp only
  rw [on]
  rfl

theorem setFeaturesVolatileWriteCache_off (off : x.entry.cdw11.getLsbD 0 = false) (alone : s.ctxs = [x]) (clean : s.dirtyBytes = 0) :
    Does (.setFeaturesVolatileWriteCache c) s fun t => EndedWith t c x Cpl.ok ∧ t.names.wce = false ∧
      t.names.buffer = s.names.buffer ∧ (t.fn f).sqs = (s.fn f).sqs := by
  have id : x.id = c := State.ctx_id hand.1
  let u := (s.modNames fun n => { n with wce := false }).await c .clean
  have waiting : u.ctxs = [x.awaits .clean s.now] := State.await_alone (s := s.modNames _) alone id .clean
  have settled : u.settleWaits = u.complete c Cpl.ok := by
    have clean : u.dirtyBytes = 0 := clean
    have held : u.ctx? x.id = some (x.awaits .clean s.now) := State.ctx_alone waiting rfl
    rw [State.settleWaits, waiting]
    simp [State.each, Ctx.awaits, held, clean, ← id]
  refine ⟨u.complete c Cpl.ok, ?_, State.ended_alone waiting id host (x.awaits_same _ _) Cpl.ok, by simp [u, State.await],
    by simp [u, State.await], by simp [u, State.await]⟩
  show execSetFeaturesVolatileWriteCache c s = _
  rw [execSetFeaturesVolatileWriteCache, State.setStandard_unsaved hand host plain]
  dsimp only
  rw [off]
  exact congrArg _ settled

end

end

/-! ## A vendor feature set (spec/12 R487, Table 12-13) -/

section
variable {s : State} {c fid hi lo most : Nat} {x : Ctx} {k : Ctx → Nat → State → State} {save : Ctx → Nat → ConfigStore → ConfigStore}
  {i : Instr} (hand : AtHand s c (isAction 0x09 fid) x) (run : exec i s = .next (s.setVendor c fid hi lo most k save))
include hand run

/-- A value outside the range is an invalid field. -/
theorem setVendor_outside (outside : bits x.entry.cdw11 hi 0 < lo ∨ most < bits x.entry.cdw11 hi 0) :
    Does i s fun t => EndedWith t c x (Cpl.invalid 11 0) ∧ s.Moves [.ctxs, .decisions, .pair, .svc, .out] t := by
  have wrong : (decide (bits x.entry.cdw11 hi 0 < lo) || decide (most < bits x.entry.cdw11 hi 0)) = true := by simpa using outside
  refine Does.completes (u := s) hand ?_ rfl (State.complete_moves _ _ _)
  rw [run, State.setVendor, State.run_atHand hand]
  dsimp only
  rw [wrong, firstBad_lowest (by simp [fieldPlace])]
  rfl

/-- A value within it is in force, and saved where the host asks for it. -/
theorem setVendor_within (within : lo ≤ bits x.entry.cdw11 hi 0 ∧ bits x.entry.cdw11 hi 0 ≤ most)
    (clear : bits x.entry.cdw11 31 (hi + 1) = 0) (kept : (k x (bits x.entry.cdw11 hi 0) s).ctxs = s.ctxs)
    (stored : (k x (bits x.entry.cdw11 hi 0) s).nor = s.nor) :
    Does i s fun t => EndedWith t c x Cpl.ok ∧
      t.nor = (if saves x.entry = true then { s.nor with config := save x (bits x.entry.cdw11 hi 0) s.nor.config } else s.nor) ∧
      (k x (bits x.entry.cdw11 hi 0) s).Moves [.nor, .ctxs, .decisions, .pair, .svc, .out] t := by
  obtain ⟨least, greatest⟩ := within
  have sound : firstBad [(decide (bits x.entry.cdw11 hi 0 < lo) || decide (most < bits x.entry.cdw11 hi 0), 11, 0),
      (bits x.entry.cdw11 31 (hi + 1) != 0, 11, hi + 1)] = none := by
    simp [clear, least, greatest]
  let u := (k x (bits x.entry.cdw11 hi 0) s).when (saves x.entry) (State.modCfg (save x (bits x.entry.cdw11 hi 0)))
  have saved : (k x (bits x.entry.cdw11 hi 0) s).Moves [.nor] u :=
    Moves.when (fun _ m => Moves.op (State.modCfg_moves _ _) (by decide) m) (Moves.refl _ _)
  refine Does.completes (u := u) hand ?_ ((saved.only .ctxs (by decide)).trans kept) ⟨?_, ?_⟩
  · rw [run, State.setVendor, State.run_atHand hand]
    dsimp only
    rw [sound]
    rfl
  · rw [State.complete_nor]
    unfold u State.when
    split
    · rw [State.modCfg_nor, stored]
    · exact stored
  · exact Moves.op (State.complete_moves _ _ _) (by decide) (Moves.op saved (by decide) (Moves.refl _ _))

end

/-! ### Freeze on Error -/

/-- The configuration store with a function's Freeze-on-Error set. -/
def ConfigStore.withFreeze (k : ConfigStore) : Fn → Bool → ConfigStore
  | .a, on => { k with freezeA := on }
  | .b, on => { k with freezeB := on }

theorem ConfigStore.withFreeze_freezeOf (k : ConfigStore) (f : Fn) (on : Bool) : (k.withFreeze f on).freezeOf f = on := by
  cases f <;> rfl

section
variable {s : State} {c : Nat} {x : Ctx} {f : Fn} (hand : AtHand s c (isAction 0x09 192) x) (host : x.origin = .host f)
include hand host

theorem execSetFeaturesFreezeOnError_host : exec (.setFeaturesFreezeOnError c) s = .next
    (s.setVendor c 0xC0 0 0 1 (fun _ v s => s.modFn f fun y => { y with freeze := v == 1 }) fun _ v k => k.withFreeze f (v == 1)) := by
  show execSetFeaturesFreezeOnError c s = _
  rw [execSetFeaturesFreezeOnError, State.setVendor, State.setVendor, State.run_atHand hand, State.run_atHand hand]
  dsimp only
  rw [Ctx.fn_host host]
  cases f <;> rfl

theorem setFeaturesFreezeOnError_sets (clear : bits x.entry.cdw11 31 1 = 0) : Does (.setFeaturesFreezeOnError c) s fun t =>
    EndedWith t c x Cpl.ok ∧ (t.fn f).freeze = x.entry.cdw11.getLsbD 0 ∧
      t.nor = (if saves x.entry = true then { s.nor with config := s.nor.config.withFreeze f (x.entry.cdw11.getLsbD 0) } else s.nor) ∧
      (t.fn f).sqs = (s.fn f).sqs ∧ t.names = s.names := by
  have one : bits x.entry.cdw11 0 0 ≤ 1 := Nat.le_of_lt_succ (bits_lt _ 0 0)
  refine Does.imp ?_ (setVendor_within hand (execSetFeaturesFreezeOnError_host hand host) ⟨Nat.zero_le _, one⟩ clear
    (State.modFn_ctxs _ _ _) (State.modFn_nor _ _ _))
  rintro t ⟨ended, nor, rest⟩
  rw [bits_single] at nor rest
  have fn := rest.fn (by decide) (by decide) f
  rw [State.modFn_fn, if_pos rfl] at fn
  exact ⟨ended, by rw [fn], nor, by rw [fn], (rest.only .names (by decide)).trans (State.modFn_names _ _ _)⟩

end

/-! ### Calibration Threshold (spec/08 R298, R316) -/

theorem setFeaturesCalibrationThreshold_sets {s : State} {c : Nat} {x : Ctx} (hand : AtHand s c (isAction 0x09 196) x)
    (least : 1 ≤ bits x.entry.cdw11 3 0) (greatest : bits x.entry.cdw11 3 0 ≤ 15) (clear : bits x.entry.cdw11 31 4 = 0) :
    Does (.setFeaturesCalibrationThreshold c) s fun t => EndedWith t c x Cpl.ok ∧ t.cal.threshold = bits x.entry.cdw11 3 0 ∧
      t.nor = (if saves x.entry = true then { s.nor with config := { s.nor.config with calThreshold := bits x.entry.cdw11 3 0 } }
        else s.nor) ∧ t.names = s.names := by
  let u : State := { s with cal := { s.cal with threshold := bits x.entry.cdw11 3 0 } }
  have judged : u.Moves [.aon, .book, .actCals] (u.each (fins 64) State.noteHolds) :=
    Moves.each (fun _ _ m => Moves.op (State.noteHolds_moves _ _) (by decide) m) (Moves.refl _ _)
  refine Does.imp ?_ (setVendor_within hand rfl ⟨least, greatest⟩ clear (judged.only .ctxs (by decide)) (judged.only .nor (by decide)))
  rintro t ⟨ended, nor, rest⟩
  have cal : t.cal = u.cal := (rest.only .cal (by decide)).trans (judged.only .cal (by decide))
  exact ⟨ended, by rw [cal], nor, (rest.only .names (by decide)).trans (judged.only .names (by decide))⟩

/-! ## The statement on the features -/

/-- Settles O19: a standard feature by what it changes of its function, the write cache with the wait for a clean buffer, and a vendor
feature by what is put in force and what, where the host asks, into the configuration store. -/
theorem featureCommands : Obligations.FeatureCommands := by
  refine ⟨?_, ?_, ?_, ?_, ?_, ?_, ?_, ?_, ?_, ?_, ?_, ?_, ?_, ?_, ?_, ?_, ?_, ?_, ?_, ?_, ?_, ?_, ?_, ?_, ?_, ?_, ?_, ?_, ?_, ?_, ?_, ?_⟩
  · intro s c x f hand host known current no4 no9 no16
    have now := getFeatures_inForce hand host known current (fun h => absurd h no9) fun h => absurd h no4
    rwa [if_neg no16] at now
  · intro s c x f hand host plain
    exact setFeaturesArbitration_sets host plain hand
  · intro s c x f hand host plain state
    exact setFeaturesPowerManagement_sets host plain hand state
  · intro s c x f i hand host plain one isOver
    refine Does.imp ?_ (setFeaturesTemperatureThreshold_sets host plain hand (by simp [one]) (by omega))
    rintro t ⟨ended, highs, lows, sqs, names⟩
    rw [if_pos isOver] at highs lows
    obtain ⟨set_, others⟩ := thresholdsSet_one one (s.fn f).overTemp
    rw [highs]
    exact ⟨ended, set_, others, lows, sqs, names⟩
  · intro s c x f i hand host plain one isUnder
    refine Does.imp ?_ (setFeaturesTemperatureThreshold_sets host plain hand (by simp [one]) (by omega))
    rintro t ⟨ended, highs, lows, sqs, names⟩
    rw [if_neg (by omega)] at highs lows
    obtain ⟨set_, others⟩ := thresholdsSet_one one (s.fn f).underTemp
    rw [lows]
    exact ⟨ended, set_, others, highs, sqs, names⟩
  · intro s c x f hand host plain on
    exact setFeaturesVolatileWriteCache_on host plain hand on
  · intro s c x f hand host plain off alone clean
    exact setFeaturesVolatileWriteCache_off host plain hand off alone clean
  · intro s c x f hand host plain
    exact setFeaturesNumberOfQueues_returns host plain hand
  · intro s c x f hand host plain
    exact setFeaturesInterruptCoalescing_sets host plain hand
  · intro s c x f v hand host plain vector
    exact setFeaturesInterruptVectorConfig_sets host plain hand vector
  · intro s c x f hand host plain
    exact setFeaturesAsyncEventConfig_sets host plain hand
  · intro s c x f hand host plain clear
    refine Does.imp ?_ (setFeaturesFreezeOnError_sets hand host clear)
    rintro t ⟨ended, freeze, nor, rest⟩
    exact ⟨ended, freeze, by rw [nor, if_neg (by simp [plain])], rest⟩
  · intro s c x f hand host save clear
    refine Does.imp ?_ (setFeaturesFreezeOnError_sets hand host clear)
    rintro t ⟨ended, freeze, nor, rest⟩
    exact ⟨ended, freeze, by rw [nor, if_pos save]; exact ConfigStore.withFreeze_freezeOf _ _ _, rest⟩
  · intro s c x f hand _ least greatest clear plain
    refine Does.imp ?_ (setVendor_within hand rfl ⟨least, greatest⟩ clear rfl rfl)
    rintro t ⟨ended, nor, rest⟩
    exact ⟨ended, by rw [rest.only .therm (by decide)]; rfl, by rw [nor, if_neg (by simp [plain])], rest.only .names (by decide)⟩
  · intro s c x f hand _ least greatest clear save
    refine Does.imp ?_ (setVendor_within hand rfl ⟨least, greatest⟩ clear rfl rfl)
    rintro t ⟨ended, nor, rest⟩
    exact ⟨ended, by rw [rest.only .therm (by decide)]; rfl, by rw [nor, if_pos save]⟩
  · intro s c x f hand _ least greatest clear plain
    refine Does.imp ?_ (setVendor_within hand rfl ⟨least, greatest⟩ clear rfl rfl)
    rintro t ⟨ended, nor, rest⟩
    exact ⟨ended, by rw [rest.only .chorus (by decide)]; rfl, by rw [nor, if_neg (by simp [plain])], rest.only .names (by decide)⟩
  · intro s c x f hand _ least greatest clear save
    refine Does.imp ?_ (setVendor_within hand rfl ⟨least, greatest⟩ clear rfl rfl)
    rintro t ⟨ended, nor, rest⟩
    exact ⟨ended, by rw [rest.only .chorus (by decide)]; rfl, by rw [nor, if_pos save]⟩
  · intro s c x f hand _ least greatest clear plain
    refine Does.imp ?_ (setVendor_within hand rfl ⟨least, greatest⟩ clear rfl rfl)
    rintro t ⟨ended, nor, rest⟩
    exact ⟨ended, by rw [rest.only .power (by decide)]; rfl, by rw [nor, if_neg (by simp [plain])], rest.only .seqs (by decide)⟩
  · intro s c x f hand _ least greatest clear save
    refine Does.imp ?_ (setVendor_within hand rfl ⟨least, greatest⟩ clear rfl rfl)
    rintro t ⟨ended, nor, rest⟩
    exact ⟨ended, by rw [rest.only .power (by decide)]; rfl, by rw [nor, if_pos save]⟩
  · intro s c x f hand _ least greatest clear plain
    refine Does.imp ?_ (setFeaturesCalibrationThreshold_sets hand least greatest clear)
    rintro t ⟨ended, cal, nor, names⟩
    exact ⟨ended, cal, by rw [nor, if_neg (by simp [plain])], names⟩
  · intro s c x f hand _ least greatest clear save
    refine Does.imp ?_ (setFeaturesCalibrationThreshold_sets hand least greatest clear)
    rintro t ⟨ended, cal, nor, -⟩
    exact ⟨ended, cal, by rw [nor, if_pos save]⟩
  · intro s c x f hand _ beyond
    refine Does.imp ?_ (setVendor_outside hand rfl (.inr beyond))
    rintro t ⟨ended, kept⟩
    exact ⟨ended, kept.only .power (by decide), kept.only .nor (by decide)⟩
  · intro s c x f i hand host fid current one kind
    have now := getFeatures_inForce hand host (by rw [fid]; rfl) current (fun h => absurd (h.symm.trans fid) (by decide))
      fun _ => ⟨congrArg List.length one, kind⟩
    rwa [fid, if_neg (by decide)] at now
  · intro s c x f hand host fid current vector
    have now := getFeatures_inForce hand host (by rw [fid]; rfl) current (fun _ => vector)
      fun h => absurd (h.symm.trans fid) (by decide)
    rwa [fid, if_neg (by decide)] at now
  · intro s c x f hand host fid current
    have now := getFeatures_inForce hand host (by rw [fid]; rfl) current (fun h => absurd (h.symm.trans fid) (by decide))
      fun h => absurd (h.symm.trans fid) (by decide)
    rwa [if_pos fid] at now
  · intro s c x f hand _ unknown
    exact getFeatures_unknown hand unknown
  · intro s c x f hand host plain all isOver
    refine Does.imp ?_ (setFeaturesTemperatureThreshold_sets host plain hand (by simp [all]) (by omega))
    rintro t ⟨ended, highs, lows, -, names⟩
    rw [if_pos isOver] at highs lows
    rw [highs]
    exact ⟨ended, thresholdsSet_all all _, lows, names⟩
  · intro s c x f hand host plain _ unknown
    exact setFeaturesTemperatureThreshold_noSensor host plain hand unknown
  · intro s c x f hand host save
    exact setFeaturesArbitration_unsaved hand host save
  · intro s c x f hand _ outside
    refine Does.imp ?_ (setVendor_outside hand rfl (outside.imp_left fun zero => by omega))
    rintro t ⟨ended, kept⟩
    exact ⟨ended, kept.only .therm (by decide), kept.only .nor (by decide)⟩
  · intro s c x f hand _ outside
    refine Does.imp ?_ (setVendor_outside hand rfl (outside.imp_left fun zero => by omega))
    rintro t ⟨ended, kept⟩
    exact ⟨ended, kept.only .chorus (by decide), kept.only .nor (by decide)⟩
  · intro s c x f hand _ zero
    refine Does.imp ?_ (setVendor_outside hand rfl (.inl (by omega)))
    rintro t ⟨ended, kept⟩
    exact ⟨ended, kept.only .cal (by decide), kept.only .nor (by decide)⟩

end Sys2Proof.Machine
end

section
/-! SUPPORT. Resets, enables, shutdowns and device states of a host function (spec/11 R410 to R416, R443; spec/02 R85 to R87). -/

namespace Sys2Proof.Machine

theorem otherFn_ne (f : Fn) : otherFn f ≠ f := by cases f <;> decide

/-! ## Messages that go out (spec/11 R442) -/

/-- What a function holds besides its interrupt vectors. -/
def HostFn.besidesVectors (x : HostFn) : HostFn := { x with vecs := HostFn.reset.vecs }

theorem State.modVec_besides (f : Fn) (v : Fin 65) (g : MsixVec → MsixVec) (s : State) (k : Fn) :
    ((s.modVec f v g).fn k).besidesVectors = (s.fn k).besidesVectors := by
  rw [State.modVec, State.modFn_fn]
  split
  next same => rw [same]; rfl
  · rfl

theorem State.sendMsix_besides (f : Fn) (v : Fin 65) (s : State) (k : Fn) :
    ((s.sendMsix f v).fn k).besidesVectors = (s.fn k).besidesVectors := by
  rw [State.sendMsix, State.emitOut_fn, State.modVec_besides]

theorem State.releaseVec_besides (f : Fn) (v : Fin 65) (s : State) (k : Fn) :
    ((s.releaseVec f v).fn k).besidesVectors = (s.fn k).besidesVectors := by
  unfold State.releaseVec
  extract_lets x y
  split
  · split
    · exact State.sendMsix_besides f v s k
    · exact State.modVec_besides f v _ s k
  · rfl

/-- All messages that can go out do: only vectors and outputs change. -/
theorem State.releaseVecs_keep (f : Fn) (s : State) :
    (∀ k, ((s.each (fins 65) fun v s => s.releaseVec f v).fn k).besidesVectors = (s.fn k).besidesVectors) ∧
    s.Moves [.fa, .fb, .out] (s.each (fins 65) fun v s => s.releaseVec f v) :=
  ⟨fun k => State.each_keeps (fun t => (t.fn k).besidesVectors) (fun v t => State.releaseVec_besides f v t k) _ _,
    Moves.each (fun _ _ m => Moves.op (State.releaseVec_moves _ _ _) (by decide) m) (Moves.refl _ _)⟩

/-! ## A host function reset (spec/11 R412 to R414) -/

section
variable {s : State} {f : Fn} (bus : Bool) (own : (s.ctxs.all fun x => x.origin == .host f && !x.keptData) = true)
  (quiet : s.power.entering = false)
include own quiet

/-- Where every command in the device is the function's and keeps no data, the reset leaves none; the function is as after a reset, and
the other goes on. -/
theorem State.hostReset_own :
    (s.hostReset f bus).ctxs = [] ∧
    (∃ freeze stopped bootError pairId, ((s.hostReset f bus).fn f).besidesShutdown =
      ((s.fn f).afterReset bus freeze stopped bootError pairId).besidesShutdown) ∧
    ((s.hostReset f bus).fn (otherFn f)).besidesShutdown = (s.fn (otherFn f)).besidesShutdown := by
  unfold State.hostReset
  extract_lets mine dels orphan rest orphaned revive revived stopped freeze reset who ended
  have none_ : rest = [] := List.filter_eq_nil_iff.mpr fun x h => by
    have owned := List.all_eq_true.mp own x h
    simp only [Bool.and_eq_true, beq_iff_eq, Bool.not_eq_true'] at owned
    simp [owned]
  have empty : ended.ctxs = [] := by
    simp [ended, reset, revived, orphaned, none_]
  have calm : ended.power.entering = false := by
    simpa [ended, reset, revived, orphaned] using quiet
  have still := State.settleDeletes_noCtx empty
  have fn (k : Fn) : (orphaned.modNames fun n => { n with nss := n.nss.map revive }).fn k = s.fn k := by cases k <;> rfl
  rw [State.settleOrder_noCtx empty, State.noteClean_still_besides calm still, State.noteClean_still_besides calm still]
  refine ⟨((State.noteClean_still_moves calm still).only .ctxs (by decide)).trans empty,
    ⟨freeze, stopped, revived.aon.error != 0, revived.nor.config.pairId, ?_⟩, ?_⟩
  · rw [State.modXing_fn, State.modFn_fn, if_pos rfl, fn]
  · rw [State.modXing_fn, State.modFn_fn, if_neg (otherFn_ne f), fn]

end

/-! ### PERSTx# (spec/21 R725) -/

section
variable {s : State} {f : Fn} {w : Nat}

theorem perstAssert_short (short : w ≤ 1000) : Does (.perstAssert f w) s fun t => t = s := by
  refine ⟨s, ?_, rfl⟩
  show execPerstAssert f w s = _
  simp [execPerstAssert, State.pulseSeen, short, Nat.not_lt.mpr short]

/-- The signal of a function asserted. -/
def Pins.perst (p : Pins) : Fn → Pins
  | .a => { p with perstA := true }
  | .b => { p with perstB := true }

theorem State.perst_perstOf (f : Fn) {s : State} {p : Pins} (pins : s.pins = p.perst f) : s.perstOf f = true := by
  cases f <;> simp [State.perstOf, pins, Pins.perst]

/-- A PERST# recognised with the other function in reset, the assertion begins an overlap (spec/02 R55). -/
def State.notesOverlap (s : State) : State :=
  s.when (s.perstOf .a && s.perstOf .b && s.aon.overlapAt.isNone)
    (State.modAon fun a => { a with overlapAt := some s.now, overlapUsed := false })

theorem State.notesOverlap_moves (s : State) : s.Moves [.aon] s.notesOverlap :=
  Moves.when (fun _ m => State.modAon_moves (fun _ => ⟨rfl, rfl⟩) (by decide) m) (Moves.refl _ _)

theorem perstAssert_run (long : 100000 ≤ w) : exec (.perstAssert f w) s =
    .next (((s.modPins fun p => p.perst f).hostReset f true).modFn f fun x => { x with cfgReady := false }).notesOverlap := by
  have seen : s.pulseSeen w 1000 100000 Config.perstBand = true := by
    simp [State.pulseSeen, long, show ¬ w ≤ 1000 by omega]
  show execPerstAssert f w s = _
  unfold execPerstAssert
  extract_lets t t1 t2 both
  have same : t = s := if_neg (by omega)
  have asserted : t1 = s.modPins fun p => p.perst f := by
    simp only [t1, same]
    cases f <;> rfl
  rw [if_neg (by simp [seen]), ← asserted]
  rfl

theorem perstAssert_resets (long : 100000 ≤ w) (own : (s.ctxs.all fun x => x.origin == .host f && !x.keptData) = true)
    (quiet : s.power.entering = false) : Does (.perstAssert f w) s fun t =>
      t.perstOf f = true ∧ t.ctxs = [] ∧ (t.fn f).sqs = [] ∧ (t.fn f).cqs = [] ∧ (t.fn f).rdy = false ∧ (t.fn f).cfgReady = false ∧
      (t.fn (otherFn f)).sqs = (s.fn (otherFn f)).sqs := by
  refine ⟨_, perstAssert_run long, ?_⟩
  obtain ⟨ctxs, ⟨_, _, _, _, reset⟩, other⟩ := State.hostReset_own (s := s.modPins fun p => p.perst f) true own quiet
  have pins := (State.hostReset_moves f true (s.modPins fun p => p.perst f)).only .pins (by decide)
  generalize (s.modPins fun p => p.perst f).hostReset f true = r at *
  have later := State.notesOverlap_moves (r.modFn f fun x => { x with cfgReady := false })
  have fn := later.fn (by decide) (by decide)
  have this := (fn f).trans (by rw [State.modFn_fn, if_pos rfl])
  have that := (fn (otherFn f)).trans (by rw [State.modFn_fn, if_neg (otherFn_ne f)])
  refine ⟨State.perst_perstOf f (p := s.pins) ?_, ?_, ?_, ?_, ?_, by rw [this], ?_⟩
  · rw [later.only .pins (by decide), State.modFn_pins, pins]
    rfl
  · rw [later.only .ctxs (by decide), State.modFn_ctxs, ctxs]
  · rw [this]; exact congrArg HostFn.sqs reset
  · rw [this]; exact congrArg HostFn.cqs reset
  · rw [this]; exact congrArg HostFn.rdy reset
  · rw [that]; exact (congrArg HostFn.sqs other).trans (by cases f <;> rfl)

/-- Whether a function's PERST# input is asserted. -/
def Pins.perstIn (p : Pins) : Fn → Bool
  | .a => p.perstA
  | .b => p.perstB

theorem perstDeassert_notes (asserted : s.pins.perstIn f = true) : Does (.perstDeassert f) s fun t =>
    t.pins.perstIn f = false ∧ (t.fn f).perstOffAt = s.now ∧ t.ctxs = s.ctxs ∧ t.names = s.names := by
  refine ⟨_, rfl, ?_⟩
  extract_lets was u v
  have on : was ≠ false := by
    rw [show was = s.pins.perstIn f from rfl, asserted]
    decide
  have off : v.pins.perstIn f = false := by cases f <;> rfl
  have noted : (v.fn f).perstOffAt = s.now := by
    rw [State.modFn_fn, if_pos rfl]
    rfl
  have kept : v.ctxs = s.ctxs ∧ v.names = s.names := ⟨State.modFn_ctxs .., State.modFn_names ..⟩
  rw [if_neg on]
  split
  · exact ⟨off, noted, kept⟩
  · exact ⟨off, by rwa [State.modAon_fn], kept⟩

end

/-! ### Configuration requests (spec/02 R85) -/

theorem configRequestReady_ends {s : State} {f : Fn} (running : s.aon.hold = .running) (released : s.perstOf f = false)
    (clock : s.pins.refclk f = true) (step : 4 ≤ s.aon.step.toNat) (waits : (s.fn f).cfgReady = false) :
    Does (.configRequestReady f) s fun t => (t.fn f).cfgReady = true ∧ t.out = .crsEnd f :: s.out ∧ t.ctxs = s.ctxs ∧ t.names = s.names := by
  have clocked : s.clockRuns (.pcie f) = true := by simp [State.clockRuns, running, released, clock]
  refine ⟨_, congrArg Host.Outcome.next (if_pos ⟨clocked, step, waits⟩), ?_⟩
  simp

section
variable {s : State} {f : Fn} (k : State → State)

theorem State.configRequest_ready (up : s.linkUp f = true) (ready : (s.fn f).cfgReady = true) : s.configRequest f k = k s := by
  simp [State.configRequest, up, ready]

theorem State.configRequest_retry (up : s.linkUp f = true) (waits : (s.fn f).cfgReady = false) :
    s.configRequest f k = s.emitOut (.crs f) := by
  simp [State.configRequest, up, waits]

theorem State.configRequest_down (down : s.linkUp f = false) : s.configRequest f k = s := by
  simp [State.configRequest, down]

end

section
variable {s : State} {f : Fn} (en clr : Bool)

theorem pmcsrD3hot_sets (ready : (s.fn f).cfgReady = true) (up : s.linkUp f = true) : Does (.pmcsrD3hot f en clr) s fun t =>
    (t.fn f).d3hot = true ∧ (t.fn f).pmeEn = en ∧ (t.fn f).pmeStatus = ((s.fn f).pmeStatus && !clr) ∧ (t.fn f).sqs = (s.fn f).sqs ∧
    t.ctxs = s.ctxs ∧ t.names = s.names := by
  refine ⟨_, congrArg Host.Outcome.next (State.configRequest_ready _ up ready), ?_⟩
  simp [State.writePmcsr]

theorem pmcsrD0_sets (ready : (s.fn f).cfgReady = true) (up : s.linkUp f = true) (none_ : s.ctxs = []) : Does (.pmcsrD0 f en clr) s fun t =>
    (t.fn f).d3hot = false ∧ (t.fn f).pmeEn = en ∧ (t.fn f).pmeStatus = ((s.fn f).pmeStatus && !clr) ∧ t.names = s.names := by
  refine ⟨_, congrArg Host.Outcome.next (State.configRequest_ready _ up ready), ?_⟩
  extract_lets was u v w z
  have written : (u.fn f).besidesVectors =
      { s.fn f with d3hot := false, pmeEn := en, pmeStatus := (s.fn f).pmeStatus && !clr, vecs := HostFn.reset.vecs } := by
    simp [u, State.writePmcsr, HostFn.besidesVectors]
  have names : u.names = s.names := State.modFn_names _ _ s
  have done {t : State} (same : (t.fn f).besidesVectors = (u.fn f).besidesVectors) (kept : t.names = u.names) :
      (t.fn f).d3hot = false ∧ (t.fn f).pmeEn = en ∧ (t.fn f).pmeStatus = ((s.fn f).pmeStatus && !clr) ∧ t.names = s.names := by
    have same := same.trans written
    exact ⟨congrArg HostFn.d3hot same, congrArg HostFn.pmeEn same, congrArg HostFn.pmeStatus same, kept.trans names⟩
  split
  · exact done rfl rfl
  · have empty : u.ctxs = [] := (State.modFn_ctxs _ _ s).trans none_
    have moved : v = u := by simp [v, empty, State.each]
    have posted : w = u := by
      have : u.decided f = [] := by simp [State.decided, empty, sortBy]
      simp [w, moved, this, State.each]
    obtain ⟨released, moves⟩ := State.releaseVecs_keep f w
    refine done (t := z.drain) ?_ ?_
    · rw [(State.drain_moves z).fn (by decide) (by decide), released, posted]
    · rw [(State.drain_moves z).only .names (by decide), moves.only .names (by decide), posted]

theorem functionLevelReset_resets (ready : (s.fn f).cfgReady = true) (up : s.linkUp f = true)
    (own : (s.ctxs.all fun x => x.origin == .host f && !x.keptData) = true) (quiet : s.power.entering = false) :
    Does (.functionLevelReset f) s fun t => t.ctxs = [] ∧ (t.fn f).sqs = [] ∧ (t.fn f).cc = 0 ∧ (t.fn f).cfgReady = true ∧
      (t.fn f).d3hot = false ∧ (t.fn (otherFn f)).sqs = (s.fn (otherFn f)).sqs := by
  refine ⟨_, congrArg Host.Outcome.next (State.configRequest_ready _ up ready), ?_⟩
  obtain ⟨ctxs, ⟨_, _, _, _, reset⟩, other⟩ := State.hostReset_own true own quiet
  have kept := congrArg HostFn.sqs other
  exact ⟨ctxs, congrArg HostFn.sqs reset, congrArg HostFn.cc reset, (congrArg HostFn.cfgReady reset).trans ready,
    (congrArg HostFn.d3hot reset).trans (Bool.and_false _), kept⟩

theorem configRequests_retried (waits : (s.fn f).cfgReady = false) (up : s.linkUp f = true) :
    Does (.pmcsrD3hot f en clr) s (fun t => t = s.emitOut (.crs f)) ∧ Does (.pmcsrD0 f en clr) s (fun t => t = s.emitOut (.crs f)) ∧
    Does (.functionLevelReset f) s (fun t => t = s.emitOut (.crs f)) ∧ Does (.msixUnmask f none) s (fun t => t = s.emitOut (.crs f)) :=
  ⟨⟨_, rfl, State.configRequest_retry _ up waits⟩, ⟨_, rfl, State.configRequest_retry _ up waits⟩,
    ⟨_, rfl, State.configRequest_retry _ up waits⟩, ⟨_, rfl, State.configRequest_retry _ up waits⟩⟩

theorem configRequests_lost (down : s.linkUp f = false) : Does (.pmcsrD3hot f en clr) s (fun t => t = s) ∧
    Does (.pmcsrD0 f en clr) s (fun t => t = s) ∧ Does (.functionLevelReset f) s (fun t => t = s) :=
  ⟨⟨_, rfl, State.configRequest_down _ down⟩, ⟨_, rfl, State.configRequest_down _ down⟩, ⟨_, rfl, State.configRequest_down _ down⟩⟩

end

/-! ### CC.EN (spec/11 R415) -/

section
variable {s : State} {f : Fn} {cc aqa : W32}

section
variable (ready : (s.fn f).cfgReady = true) (awake : (s.fn f).d3hot = false) (cross : s.crosses f = true)
  (off : (s.fn f).cc.getLsbD 0 = false)
include ready awake cross off

theorem ccEnSet_enables (sound : s.aon.error = 0) (css : bits (cc ||| 1) 6 4 = 6) (asqs : bits aqa 11 0 ≠ 0) (acqs : bits aqa 27 16 ≠ 0) :
    Does (.ccEnSet f cc aqa) s fun t => (t.fn f).sqs = [SubQ.fresh 0 (bits aqa 11 0 + 1) 0 0] ∧
      (t.fn f).cqs = [CplQ.fresh 0 (bits aqa 27 16 + 1) 0 true] ∧ (t.fn f).cc = cc ||| 1 ∧
      (t.fn f).rdy = (s.boot.complete && !(s.fn f).cfs) := by
  refine ⟨_, rfl, ?_⟩
  simp only [ready, awake, cross, off, sound, css, asqs, acqs]
  simp

theorem ccEnSet_fails (bad : bits (cc ||| 1) 6 4 ≠ 6 ∨ bits aqa 11 0 = 0 ∨ bits aqa 27 16 = 0 ∨ s.aon.error ≠ 0) :
    Does (.ccEnSet f cc aqa) s fun t => (t.fn f).cfs = true ∧ (t.fn f).rdy = (s.fn f).rdy ∧ (t.fn f).sqs = (s.fn f).sqs := by
  refine ⟨_, rfl, ?_⟩
  simp only [ready, awake, cross, off, if_pos bad]
  simp

end

theorem ccEnClear_resets (awake : (s.fn f).d3hot = false) (cross : s.crosses f = true) (on : (s.fn f).cc.getLsbD 0 = true)
    (own : (s.ctxs.all fun x => x.origin == .host f && !x.keptData) = true) (quiet : s.power.entering = false) :
    Does (.ccEnClear f) s fun t => t.ctxs = [] ∧ (t.fn f).sqs = [] ∧ (t.fn f).cqs = [] ∧ (t.fn f).rdy = false ∧ (t.fn f).cc = 0 ∧
      (t.fn f).aqa = (s.fn f).aqa ∧ (t.fn (otherFn f)).sqs = (s.fn (otherFn f)).sqs := by
  refine ⟨_, congrArg Host.Outcome.next (if_pos ⟨on, awake, cross⟩), ?_⟩
  obtain ⟨ctxs, ⟨_, _, _, _, reset⟩, other⟩ := State.hostReset_own false own quiet
  have aqa := congrArg HostFn.aqa reset
  have kept := congrArg HostFn.sqs other
  exact ⟨ctxs, congrArg HostFn.sqs reset, congrArg HostFn.cqs reset, congrArg HostFn.rdy reset, congrArg HostFn.cc reset, aqa, kept⟩

end

/-! ### Shutdowns (spec/11 R416) -/

theorem State.shutdownDone_other {g f : Fn} (other : f ≠ g) (s : State) : (s.shutdownDone g).fn f = s.fn f := by
  unfold State.shutdownDone
  extract_lets x idle
  split
  · rw [State.modFn_fn, if_neg other]
  · rfl

/-- With no command in the device a shutdown is over once it is abrupt or the buffer is clean. -/
theorem State.shutdownDone_shst {s : State} {f : Fn} (none_ : s.ctxs = []) (begun : (s.fn f).shutdown ≠ 0) : ((s.shutdownDone f).fn f).shst =
    if (s.fn f).shutdown = 2 ∨ s.dirtyBytes = 0 then 2 else (s.fn f).shst := by
  simp only [State.shutdownDone, none_, List.all_nil, begun, ne_eq, not_false_eq_true, true_and]
  split <;> simp

/-- The other function's shutdown does not change what this one reads. -/
theorem State.shutsAndRetires_shst {s : State} {f : Fn} (none_ : s.ctxs = []) (begun : (s.fn f).shutdown ≠ 0) :
    (s.shutsAndRetires.fn f).shst = if (s.fn f).shutdown = 2 ∨ s.dirtyBytes = 0 then 2 else (s.fn f).shst := by
  rw [State.shutsAndRetires, (State.retireWaiting_moves _).fn (by decide) (by decide)]
  cases f with
  | a => rw [State.shutdownDone_other (by decide), State.shutdownDone_shst none_ begun]
  | b =>
    have first := State.shutdownDone_moves .a s
    have same := State.shutdownDone_other (g := .a) (f := .b) (by decide) s
    rw [State.shutdownDone_shst ((first.only .ctxs (by decide)).trans none_) (by rwa [same]), same, first.dirtyBytes (by decide)]

section
variable {s : State} {f : Fn} (ready : (s.fn f).rdy = true) (awake : (s.fn f).d3hot = false) (open_ : (s.fn f).shst = 0)
  (cross : s.crosses f = true) (none_ : s.ctxs = []) (quiet : s.power.entering = false)
include ready awake open_ cross none_ quiet

/-- Fetching stops, and with no command in the device the shutdown is over at once where nothing dirty holds it. -/
theorem State.beginShutdown_noCtx {kind : Fin 3} (real : kind ≠ 0) :
    ((s.beginShutdown f kind).fn f).shst = (if kind = 2 ∨ s.dirtyBytes = 0 then 2 else 1) ∧
    ((s.beginShutdown f kind).fn f).fetchStopped = true ∧
    (s.beginShutdown f kind).names = { s.names with firstDue := (s.beginShutdown f kind).names.firstDue } := by
  obtain ⟨cc, begins⟩ : ∃ cc, s.beginShutdown f kind =
      (s.modFn f fun x => { x with shst := 1, shutdown := kind, fetchStopped := true, cc := cc }).noteClean :=
    ⟨_, if_pos ⟨ready, awake, open_, cross⟩⟩
  rw [begins]
  generalize holds : (s.modFn f fun x => { x with shst := 1, shutdown := kind, fetchStopped := true, cc := cc }) = u
  have fn : u.fn f = { s.fn f with shst := 1, shutdown := kind, fetchStopped := true, cc := cc } := by rw [← holds, State.modFn_fn, if_pos rfl]
  have names : u.names = s.names := by rw [← holds, State.modFn_names]
  have empty : u.ctxs = [] := by rw [← holds, State.modFn_ctxs, none_]
  have calm : u.power.entering = false := by rw [← holds, State.modFn_power, quiet]
  have dirty : u.dirtyBytes = s.dirtyBytes := by rw [State.dirtyBytes, names]; rfl
  have still := State.settleDeletes_noCtx empty
  have noted := (State.noteDirty_moves u)
  have same := noted.fn (by decide) (by decide) f
  refine ⟨?_, ?_, ?_⟩
  · rw [State.noteClean_still calm still, State.shutsAndRetires_shst ((noted.only .ctxs (by decide)).trans empty) (by rwa [same, fn]), same,
      State.noteDirty_dirtyBytes, fn, dirty]
  · exact (congrArg HostFn.fetchStopped (State.noteClean_still_besides calm still f)).trans (congrArg HostFn.fetchStopped fn)
  · rw [← names]
    exact State.noteClean_still_names calm still

theorem normalShutdown_reads : Does (.normalShutdown f) s fun t => (t.fn f).shst = (if s.dirtyBytes = 0 then 2 else 1) ∧
    (t.fn f).fetchStopped = true ∧ t.names = { s.names with firstDue := t.names.firstDue } := by
  have begun := State.beginShutdown_noCtx ready awake open_ cross none_ quiet (kind := 1) (by decide)
  simp only [show ¬ (1 : Fin 3) = 2 by decide, false_or] at begun
  exact ⟨_, rfl, begun⟩

theorem abruptShutdown_reads : Does (.abruptShutdown f) s fun t => (t.fn f).shst = 2 ∧ (t.fn f).fetchStopped = true ∧
    t.names = { s.names with firstDue := t.names.firstDue } := by
  have begun := State.beginShutdown_noCtx ready awake open_ cross none_ quiet (kind := 2) (by decide)
  simp only [true_or, if_true] at begun
  exact ⟨_, rfl, begun⟩

end

/-- Settles O22: the clauses of each of its commands, in the statement's order. -/
theorem hostResetCommands : Obligations.HostResetCommands :=
  ⟨fun _ _ _ => perstAssert_short, fun _ _ _ => perstAssert_resets, fun _ _ => perstDeassert_notes,
    fun _ _ => configRequestReady_ends,
    fun _ _ _ _ ready awake cross off => ccEnSet_enables ready awake cross off,
    fun _ _ _ _ ready awake cross off css => ccEnSet_fails ready awake cross off (.inl css),
    fun _ _ on awake cross => ccEnClear_resets awake cross on,
    fun _ _ => normalShutdown_reads, fun _ _ => abruptShutdown_reads,
    fun _ _ => functionLevelReset_resets, fun _ _ => pmcsrD3hot_sets, fun _ _ => pmcsrD0_sets,
    fun _ _ => configRequests_retried,
    fun _ _ _ _ ready awake cross off zero => ccEnSet_fails ready awake cross off (.inr (zero.imp_right .inl)),
    fun _ _ => configRequests_lost⟩

end Sys2Proof.Machine
end

section
/-! SUPPORT. Doorbells, fetching, completion entries and interrupts (spec/11 R420 to R443, R449; spec/12 R452, R457). -/

namespace Sys2Proof.Machine

/-! ## Interrupts (spec/11 R440 to R443) -/

/-- What a function holds besides its interrupts. -/
def HostFn.besidesInterrupts (x : HostFn) : HostFn := { x with vecs := HostFn.reset.vecs, pmeStatus := false }

section
variable (f : Fn) (v : Fin 65) (s : State) (k : Fn)

theorem State.modVec_besidesInterrupts (g : MsixVec → MsixVec) :
    ((s.modVec f v g).fn k).besidesInterrupts = (s.fn k).besidesInterrupts :=
  congrArg (fun x : HostFn => { x with pmeStatus := false }) (State.modVec_besides f v g s k)

theorem State.raiseVec_besidesInterrupts : ((s.raiseVec f v).fn k).besidesInterrupts = (s.fn k).besidesInterrupts := by
  unfold State.raiseVec
  extract_lets x t u
  split
  · have marked : (u.fn k).besidesInterrupts = (s.fn k).besidesInterrupts := by
      rw [(Moves.when (fun _ m => Moves.op (State.emitOut_moves _ _) (by decide) m) (Moves.refl [.out] t)).fn (by decide) (by decide)]
      exact State.modVec_besidesInterrupts f v s k _
    rw [State.modFn_fn]
    split
    next same => rw [← marked, same]; rfl
    · exact marked
  · split
    · exact State.modVec_besidesInterrupts f v s k _
    · exact congrArg (fun x : HostFn => { x with pmeStatus := false }) (State.sendMsix_besides f v s k)

theorem State.quietVec_besidesInterrupts : ((s.quietVec f v).fn k).besidesInterrupts = (s.fn k).besidesInterrupts := by
  unfold State.quietVec
  split
  · exact State.modVec_besidesInterrupts f v s k _
  · rfl

theorem State.countEntry_besidesInterrupts (q : CplQ) : ((s.countEntry f q).fn k).besidesInterrupts = (s.fn k).besidesInterrupts := by
  unfold State.countEntry
  extract_lets t
  split
  · rfl
  · split
    · unfold State.when
      split
      · rw [State.raiseVec_besidesInterrupts, State.modVec_besidesInterrupts]
      · exact State.modVec_besidesInterrupts f _ s k _
    · exact State.raiseVec_besidesInterrupts f _ s k

/-- A change of interrupts alone is one of no queue. -/
theorem HostFn.queues_kept {x y : HostFn} (same : x.besidesInterrupts = y.besidesInterrupts) :
    x.sqs = y.sqs ∧ x.cqs = y.cqs ∧ x.shadow = y.shadow := by
  have sqs := congrArg HostFn.sqs same
  have cqs := congrArg HostFn.cqs same
  have shadow := congrArg HostFn.shadow same
  exact ⟨sqs, cqs, shadow⟩

end

section
variable {s : State} {f : Fn} {v : Fin 65}

theorem State.raiseVec_sends (open_ : ((s.fn f).vec v).masked = false) (enabled : (s.fn f).msixEnabled = true)
    (awake : (s.fn f).d3hot = false) : s.raiseVec f v = s.sendMsix f v := by
  simp [State.raiseVec, open_, enabled, awake]

theorem State.raiseVec_pends (awake : (s.fn f).d3hot = false) (shut : ((s.fn f).vec v).masked = true ∨ (s.fn f).msixEnabled = false) :
    s.raiseVec f v = s.modVec f v fun y => { y with pending := true, cond := true } := by
  simp [State.raiseVec, awake, shut]

theorem State.raiseVec_d3hot (asleep : (s.fn f).d3hot = true) : s.raiseVec f v =
    ((s.modVec f v fun y => { y with pending := true, cond := true }).when ((s.fn f).pmeEn && !(s.fn f).pmeStatus)
      (State.emitOut (.pme f))).modFn f fun x => { x with pmeStatus := true } := by
  simp [State.raiseVec, asleep]

theorem State.modVec_fn (g : MsixVec → MsixVec) : (s.modVec f v g).fn f = { s.fn f with vecs := upd (s.fn f).vecs v g } := by
  rw [State.modVec, State.modFn_fn, if_pos rfl]

@[simp] theorem State.modVec_out (g : MsixVec → MsixVec) : (s.modVec f v g).out = s.out := State.modFn_out _ _ _

/-- What a message leaves of its vector. -/
theorem State.sendMsix_vec : ((s.sendMsix f v).fn f).vec v =
    { (s.fn f).vec v with pending := false, cond := false, count := 0, timerAt := none } := by
  rw [State.sendMsix, State.emitOut_fn, State.modVec_vec, if_pos rfl]

theorem State.sendMsix_out : (s.sendMsix f v).out = .msix f v :: s.out := by
  rw [State.sendMsix, State.emitOut_out, State.modVec_out]

end

/-! ### COALESCING_TIMER -/

section
variable {s : State} {f : Fn} {v : Fin 65} {at_ : Nat}

/-- The state in which a vector's timer has run out, its condition still to arise. -/
def State.timerOver (s : State) (f : Fn) (v : Fin 65) (at_ : Nat) : State :=
  (s.at_ (at_ + (s.fn f).time * 100 * Config.us)).modVec f v fun y => { y with timerAt := none }

theorem State.timerOver_fn : (s.timerOver f v at_).fn f = { s.fn f with vecs := upd (s.fn f).vecs v fun y => { y with timerAt := none } } :=
  (State.modVec_fn _).trans (by cases f <;> rfl)

theorem State.timerOver_vec : ((s.timerOver f v at_).fn f).vec v = { (s.fn f).vec v with timerAt := none } := by
  rw [State.timerOver, State.modVec_vec, if_pos rfl]
  cases f <;> rfl

theorem State.timerOver_out : (s.timerOver f v at_).out = s.out := State.modVec_out _

variable (runs : ((s.fn f).vec v).timerAt = some at_) (timed : (s.fn f).time ≠ 0) (coal : coalesced (s.fn f) v = true)
include runs timed coal

theorem execCoalescingTimer_raises : exec (.coalescingTimer f v) s = .next ((s.timerOver f v at_).raiseVec f v) := by
  show execCoalescingTimer f v s = _
  rw [execCoalescingTimer, runs]
  dsimp only
  rw [if_neg (by simp [timed, coal])]
  rfl

theorem coalescingTimer_sends (open_ : ((s.fn f).vec v).masked = false) (enabled : (s.fn f).msixEnabled = true)
    (awake : (s.fn f).d3hot = false) : Does (.coalescingTimer f v) s fun t => t.out = .msix f v :: s.out ∧ ((t.fn f).vec v).count = 0 ∧
      ((t.fn f).vec v).timerAt = none ∧ ((t.fn f).vec v).pending = false ∧ at_ + (s.fn f).time * 100 * Config.us ≤ t.now := by
  refine ⟨_, execCoalescingTimer_raises runs timed coal, ?_⟩
  beta_reduce
  rw [State.raiseVec_sends (by rwa [State.timerOver_vec]) (by rwa [State.timerOver_fn]) (by rwa [State.timerOver_fn]),
    State.sendMsix_vec, State.sendMsix_out, State.timerOver_out]
  refine ⟨rfl, rfl, rfl, rfl, ?_⟩
  rw [State.sendMsix, State.emitOut_now, State.modVec, State.modFn_now, State.timerOver, State.modVec, State.modFn_now]
  exact Nat.le_max_right _ _

theorem coalescingTimer_d3hot (asleep : (s.fn f).d3hot = true) : Does (.coalescingTimer f v) s fun t => (t.fn f).pmeStatus = true ∧
    ((t.fn f).vec v).pending = true ∧ t.out = (if (s.fn f).pmeEn && !(s.fn f).pmeStatus then .pme f :: s.out else s.out) := by
  refine ⟨_, execCoalescingTimer_raises runs timed coal, ?_⟩
  beta_reduce
  rw [State.raiseVec_d3hot (by rwa [State.timerOver_fn]), State.modFn_fn, if_pos rfl, State.modFn_out, State.timerOver_fn]
  refine ⟨rfl, ?_, ?_⟩
  · have pending (t : State) (b : Bool) : ((t.when b (State.emitOut (.pme f))).fn f).vecs = (t.fn f).vecs := by
      cases b
      · rfl
      · exact congrArg HostFn.vecs (State.emitOut_fn _ _ t)
    show ((State.when _ _ _).fn f).vecs[v].pending = true
    rw [pending]
    exact congrArg MsixVec.pending ((State.modVec_vec f v v _ _).trans (if_pos rfl))
  · unfold State.when
    split
    · rw [State.emitOut_out, State.modVec_out, State.timerOver_out]
    · rw [State.modVec_out, State.timerOver_out]

theorem coalescingTimer_pends (awake : (s.fn f).d3hot = false) (shut : ((s.fn f).vec v).masked = true ∨ (s.fn f).msixEnabled = false) :
    Does (.coalescingTimer f v) s fun t => t.out = s.out ∧ ((t.fn f).vec v).pending = true ∧ ((t.fn f).vec v).timerAt = none := by
  refine ⟨_, execCoalescingTimer_raises runs timed coal, ?_⟩
  beta_reduce
  rw [State.raiseVec_pends (by rwa [State.timerOver_fn]) (by rwa [State.timerOver_vec, State.timerOver_fn]), State.modVec_out,
    State.timerOver_out, State.modVec_vec, if_pos rfl, State.timerOver_vec]
  exact ⟨rfl, rfl, rfl⟩

end

/-! ### MSIX_UNMASK -/

section
variable {s : State} {f : Fn}

theorem msixUnmask_sends {v : Fin 65} (cross : s.crosses f = true) (awake : (s.fn f).d3hot = false) (enabled : (s.fn f).msixEnabled = true)
    (pends : ((s.fn f).vec v).pending = true) (cond : ((s.fn f).vec v).cond = true) : Does (.msixUnmask f (some v)) s fun t =>
      ((t.fn f).vec v).masked = false ∧ ((t.fn f).vec v).pending = false ∧ t.out = .msix f v :: s.out ∧ t.names = s.names := by
  refine ⟨_, congrArg Host.Outcome.next (if_neg (by simp [cross, awake])), ?_⟩
  generalize unmasked : (s.modVec f v fun y => { y with masked := false }) = u
  have fn : u.fn f = { s.fn f with vecs := upd (s.fn f).vecs v fun y => { y with masked := false } } := by
    rw [← unmasked, State.modVec_fn]
  have vec : (u.fn f).vec v = { (s.fn f).vec v with masked := false } := by rw [← unmasked, State.modVec_vec, if_pos rfl]
  have sent : u.releaseVec f v = u.sendMsix f v := by
    rw [State.releaseVec, vec, fn, if_pos ⟨pends, rfl, enabled, awake⟩, if_pos cond]
  rw [sent, State.sendMsix_vec, State.sendMsix_out, vec, ← unmasked, State.modVec_out]
  refine ⟨rfl, rfl, rfl, ?_⟩
  rw [State.sendMsix, State.emitOut_names, State.modVec, State.modFn_names, State.modVec, State.modFn_names]

theorem msixUnmask_enables (ready : (s.fn f).cfgReady = true) (up : s.linkUp f = true) : Does (.msixUnmask f none) s fun t =>
    (t.fn f).msixEnabled = true ∧ t.names = s.names ∧ t.ctxs = s.ctxs := by
  refine ⟨_, congrArg Host.Outcome.next (State.configRequest_ready _ up ready), ?_⟩
  obtain ⟨kept, moves⟩ := State.releaseVecs_keep f (s.modFn f fun x => { x with msixEnabled := true })
  refine ⟨?_, (moves.only .names (by decide)).trans (State.modFn_names ..), (moves.only .ctxs (by decide)).trans (State.modFn_ctxs ..)⟩
  have kept := congrArg HostFn.msixEnabled (kept f)
  rw [State.modFn_fn, if_pos rfl] at kept
  exact kept

end

/-! ## ANA_CHANGE (spec/11 R449) -/

theorem anaChange_counts {s : State} {f : Fn} {g : Fin 2} {st : AnaState} (paired : s.pair.mode = true)
    (other : (if g = 1 then (s.fn f).ana2 else (s.fn f).ana1) ≠ st) (unasked : (s.fn f).asyncCfg.getLsbD 11 = false) :
    Does (.anaChange f g st) s fun t => (if g = 1 then (t.fn f).ana2 else (t.fn f).ana1) = st ∧
      (if g = 1 then (t.fn f).ana1 else (t.fn f).ana2) = (if g = 1 then (s.fn f).ana1 else (s.fn f).ana2) ∧
      (t.fn f).anaCount = (s.fn f).anaCount + 1 ∧ t.ctxs = s.ctxs := by
  have run : exec (.anaChange f g st) s = .next (s.modFn f fun x => { x with
      ana1 := if (g == 1) = true then x.ana1 else st, ana2 := if (g == 1) = true then st else x.ana2, anaCount := x.anaCount + 1 }) := by
    show execAnaChange f g st s = _
    rw [execAnaChange, paired]
    simp only [State.when, State.setAna, unasked, if_true, Bool.false_eq_true, if_false, beq_iff_eq, if_neg other]
  refine ⟨_, run, ?_⟩
  beta_reduce
  rw [State.modFn_fn, if_pos rfl, State.modFn_ctxs]
  by_cases second : g = 1 <;> simp [second]

/-! ## Events of doorbells (spec/11 R423) -/

section
variable {s : State} {f : Fn} (unasked : (s.fn f).aers = [])
include unasked

/-- With no request held, an event becomes pending and nothing else changes. -/
theorem State.asyncEvent_unasked (type info page : Nat) : s.asyncEvent f type info page = s.modFn f fun x => { x with
    events := if x.events.contains { type := type, info := info, page := page } then x.events
      else x.events ++ [{ type := type, info := info, page := page }] } := by
  rw [State.asyncEvent]
  refine State.deliverEvents_unasked (f := f) ?_
  rw [State.modFn_fn, if_pos rfl, unasked]

theorem State.asyncEvent_pends (type info page : Nat) :
    ((s.asyncEvent f type info page).fn f).events.contains { type := type, info := info, page := page } = true ∧
    ((s.asyncEvent f type info page).fn f).sqs = (s.fn f).sqs ∧ ((s.asyncEvent f type info page).fn f).cqs = (s.fn f).cqs ∧
    ((s.asyncEvent f type info page).fn f).shadow = (s.fn f).shadow ∧ (s.asyncEvent f type info page).ctxs = s.ctxs := by
  rw [State.asyncEvent_unasked unasked, State.modFn_fn, if_pos rfl, State.modFn_ctxs]
  refine ⟨?_, rfl, rfl, rfl, rfl⟩
  split
  · assumption
  · simp

end

/-! ## Shadow doorbells read after a doorbell (spec/11 R428, R429) -/

section
variable {s : State} {f : Fn} {q w : Nat}

theorem State.readShadowTail_unset (unset : (s.fn f).shadow = none) : s.readShadowTail f q w = s := by
  have nowhere : (s.fn f).shadowAt q false = none := by simp [HostFn.shadowAt, unset]
  rw [State.readShadowTail, nowhere]
  split <;> rfl

theorem State.readShadowHead_unset (unset : (s.fn f).shadow = none) : s.readShadowHead f q w = s := by
  have nowhere : (s.fn f).shadowAt q true = none := by simp [HostFn.shadowAt, unset]
  rw [State.readShadowHead, nowhere]
  split <;> rfl

theorem State.readShadowTail_valid {y : SubQ} (there : (s.fn f).sq? q = some y) (shadow : ((s.fn f).shadowAt q false).isSome = true)
    (good : y.badTail w = false) : s.readShadowTail f q w = s.modSq f q fun y => { y with tail := w, eventIdx := w } := by
  rw [State.readShadowTail, there]
  simp [Option.isNone_eq_false_iff.mpr shadow, good]

theorem State.readShadowHead_valid {y : CplQ} (there : (s.fn f).cq? q = some y) (shadow : ((s.fn f).shadowAt q true).isSome = true)
    (good : y.badHead w = false) :
    s.readShadowHead f q w = (s.modCq f q fun y => { y with head := w, eventIdx := w }).quietVec f y.vector := by
  rw [State.readShadowHead, there]
  simp [Option.isNone_eq_false_iff.mpr shadow, good]

end

/-! ### SQ_TAIL_DOORBELL -/

/-- After a tail taken from the register, and one from the shadow buffer. -/
theorem State.modSq_takes {s a : State} {f : Fn} {q : Nat} {g : SubQ → SubQ} {z : SubQ} (keeps : ∀ y, y.id = q → (g y).id = q)
    (same : a.ctxs = s.ctxs ∧ (a.fn f).cqs = (s.fn f).cqs ∧ ∀ r, r ≠ q → (a.fn f).sq? r = (s.fn f).sq? r) (held : (a.fn f).sq? q = some z) :
    ((a.modSq f q g).fn f).sq? q = some (g z) ∧ (∀ r, r ≠ q → ((a.modSq f q g).fn f).sq? r = (s.fn f).sq? r) ∧
    ((a.modSq f q g).fn f).cqs = (s.fn f).cqs ∧ (a.modSq f q g).ctxs = s.ctxs := by
  obtain ⟨ctxs, cqs, others⟩ := same
  exact ⟨by rw [State.modSq_sq keeps, held]; rfl, fun r other => (State.modSq_sq_other keeps other a).trans (others r other),
    by rw [State.modSq_fn]; exact cqs, (State.modSq_ctxs ..).trans ctxs⟩

section
variable {s : State} {f : Fn} {q v w : Nat} (open_ : s.answers f = true)
include open_

theorem sqTailDoorbell_noQueue (missing : (s.fn f).sq? q = none) (unasked : (s.fn f).aers = []) :
    Does (.sqTailDoorbell f q v w) s fun t => (t.fn f).events.contains { type := 0, info := 0, page := 1 } = true ∧
      (t.fn f).sqs = (s.fn f).sqs ∧ t.ctxs = s.ctxs := by
  obtain ⟨pends, sqs, -, -, ctxs⟩ := State.asyncEvent_pends unasked 0 0 1
  refine ⟨s.badRegister f, ?_, pends, sqs, ctxs⟩
  show execSqTailDoorbell f q v w s = _
  simp [execSqTailDoorbell, open_, missing]

theorem invalidDoorbellRegister_pends (missing : (s.fn f).sq? q = none) (unasked : (s.fn f).aers = []) :
    Does (.invalidDoorbellRegister f q) s fun t => (t.fn f).events.contains { type := 0, info := 0, page := 1 } = true ∧
      (t.fn f).sqs = (s.fn f).sqs ∧ (t.fn f).cqs = (s.fn f).cqs ∧ t.ctxs = s.ctxs := by
  obtain ⟨pends, sqs, cqs, -, ctxs⟩ := State.asyncEvent_pends unasked 0 0 1
  refine ⟨s.badRegister f, ?_, pends, sqs, cqs, ctxs⟩
  show execInvalidDoorbellRegister f q s = _
  simp [execInvalidDoorbellRegister, open_, missing]

variable {y : SubQ} (there : (s.fn f).sq? q = some y) (live : y.deleting = false)
include there live

theorem execSqTailDoorbell_live : exec (.sqTailDoorbell f q v w) s =
    .next ((if y.badTail v then s.badValue f else s.modSq f q fun y => { y with tail := v }).readShadowTail f q w) := by
  show execSqTailDoorbell f q v w s = _
  simp [execSqTailDoorbell, open_, there, live]

theorem sqTailDoorbell_bad (bad : y.badTail v = true) (unset : (s.fn f).shadow = none) (unasked : (s.fn f).aers = []) :
    Does (.sqTailDoorbell f q v w) s fun t => (t.fn f).sq? q = some y ∧
      (t.fn f).events.contains { type := 0, info := 1, page := 1 } = true ∧ t.ctxs = s.ctxs := by
  obtain ⟨pends, sqs, -, shadow, ctxs⟩ := State.asyncEvent_pends unasked 0 1 1
  refine ⟨s.badValue f, ?_, by rw [HostFn.sq?, State.badValue, sqs]; exact there, pends, ctxs⟩
  rw [execSqTailDoorbell_live open_ there live, if_pos bad, State.readShadowTail_unset (s := s.badValue f) (shadow.trans unset)]

theorem sqTailDoorbell_takes (good : y.badTail v = false) (unset : (s.fn f).shadow = none) : Does (.sqTailDoorbell f q v w) s fun t =>
    (t.fn f).sq? q = some { y with tail := v } ∧ (∀ r, r ≠ q → (t.fn f).sq? r = (s.fn f).sq? r) ∧ (t.fn f).cqs = (s.fn f).cqs ∧
    t.ctxs = s.ctxs := by
  refine ⟨s.modSq f q fun y => { y with tail := v }, ?_, State.modSq_takes (fun _ h => h) ⟨rfl, rfl, fun _ _ => rfl⟩ there⟩
  rw [execSqTailDoorbell_live open_ there live, if_neg (by simp [good]), State.readShadowTail_unset (by rw [State.modSq_fn]; exact unset)]

theorem sqTailDoorbell_shadow (good : y.badTail v = false) (shadow : ((s.fn f).shadowAt q false).isSome = true)
    (goodShadow : ({ y with tail := v } : SubQ).badTail w = false) : Does (.sqTailDoorbell f q v w) s fun t =>
      (t.fn f).sq? q = some { y with tail := w, eventIdx := w } ∧ (∀ r, r ≠ q → (t.fn f).sq? r = (s.fn f).sq? r) ∧
      (t.fn f).cqs = (s.fn f).cqs ∧ t.ctxs = s.ctxs := by
  obtain ⟨taken, others, cqs, ctxs⟩ := State.modSq_takes (g := fun y => { y with tail := v }) (fun _ h => h)
    ⟨rfl, rfl, fun _ _ => rfl⟩ there
  refine ⟨_, ?_, State.modSq_takes (g := fun y => { y with tail := w, eventIdx := w }) (z := { y with tail := v }) (fun _ h => h)
    ⟨ctxs, cqs, others⟩ taken⟩
  rw [execSqTailDoorbell_live open_ there live, if_neg (by simp [good]),
    State.readShadowTail_valid taken (by rw [State.modSq_fn]; exact shadow) goodShadow]

end
/-! ### CQ_HEAD_DOORBELL -/

/-- A head taken, with what it quietens, is one of its queue alone. -/
theorem State.modCq_quiet {a : State} {f : Fn} {q : Nat} {g : CplQ → CplQ} {z : CplQ} (keeps : ∀ y, y.id = q → (g y).id = q)
    (held : (a.fn f).cq? q = some z) (v : Fin 65) : (((a.modCq f q g).quietVec f v).fn f).cq? q = some (g z) ∧
    (((a.modCq f q g).quietVec f v).fn f).sqs = (a.fn f).sqs ∧ (((a.modCq f q g).quietVec f v).fn f).shadow = (a.fn f).shadow ∧
    ((a.modCq f q g).quietVec f v).ctxs = a.ctxs := by
  obtain ⟨sqs, cqs, shadow⟩ := HostFn.queues_kept (State.quietVec_besidesInterrupts f v (a.modCq f q g) f)
  refine ⟨?_, sqs.trans (by rw [State.modCq_fn]), shadow.trans (by rw [State.modCq_fn]),
    ((State.quietVec_moves f v _).only .ctxs (by decide)).trans (State.modCq_ctxs ..)⟩
  rw [HostFn.cq?, cqs]
  exact (State.modCq_cq keeps a).trans (by rw [held]; rfl)

section
variable {s : State} {f : Fn} {q v w : Nat} (open_ : s.answers f = true)
include open_

theorem cqHeadDoorbell_noQueue (missing : (s.fn f).cq? q = none) (unasked : (s.fn f).aers = []) :
    Does (.cqHeadDoorbell f q v w) s fun t => (t.fn f).events.contains { type := 0, info := 0, page := 1 } = true ∧
      (t.fn f).cqs = (s.fn f).cqs ∧ t.ctxs = s.ctxs := by
  obtain ⟨pends, -, cqs, -, ctxs⟩ := State.asyncEvent_pends unasked 0 0 1
  refine ⟨s.badRegister f, ?_, pends, cqs, ctxs⟩
  show execCqHeadDoorbell f q v w s = _
  simp [execCqHeadDoorbell, open_, missing]

variable {y : CplQ} (there : (s.fn f).cq? q = some y)
include there

theorem execCqHeadDoorbell_there : exec (.cqHeadDoorbell f q v w) s = .next ((if y.badHead v then s.badValue f
    else (s.modCq f q fun y => { y with head := v }).quietVec f y.vector).readShadowHead f q w) := by
  show execCqHeadDoorbell f q v w s = _
  simp [execCqHeadDoorbell, open_, there]

theorem cqHeadDoorbell_bad (bad : y.badHead v = true) (unset : (s.fn f).shadow = none) (unasked : (s.fn f).aers = []) :
    Does (.cqHeadDoorbell f q v w) s fun t => (t.fn f).cq? q = some y ∧
      (t.fn f).events.contains { type := 0, info := 1, page := 1 } = true ∧ (t.fn f).sqs = (s.fn f).sqs ∧ t.ctxs = s.ctxs := by
  obtain ⟨pends, sqs, cqs, shadow, ctxs⟩ := State.asyncEvent_pends unasked 0 1 1
  refine ⟨s.badValue f, ?_, by rw [HostFn.cq?, State.badValue, cqs]; exact there, pends, sqs, ctxs⟩
  rw [execCqHeadDoorbell_there open_ there, if_pos bad, State.readShadowHead_unset (s := s.badValue f) (shadow.trans unset)]

theorem cqHeadDoorbell_takes (good : y.badHead v = false) (unset : (s.fn f).shadow = none) : Does (.cqHeadDoorbell f q v w) s fun t =>
    (t.fn f).cq? q = some { y with head := v } ∧ (t.fn f).sqs = (s.fn f).sqs ∧ t.ctxs = s.ctxs := by
  obtain ⟨taken, sqs, shadow, ctxs⟩ := State.modCq_quiet (g := fun y => { y with head := v }) (fun _ h => h) there y.vector
  refine ⟨_, ?_, taken, sqs, ctxs⟩
  rw [execCqHeadDoorbell_there open_ there, if_neg (by simp [good]), State.readShadowHead_unset (shadow.trans unset)]

theorem cqHeadDoorbell_shadow (good : y.badHead v = false) (set : ((s.fn f).shadowAt q true).isSome = true)
    (goodShadow : ({ y with head := v } : CplQ).badHead w = false) : Does (.cqHeadDoorbell f q v w) s fun t =>
      (t.fn f).cq? q = some { y with head := w, eventIdx := w } ∧ (t.fn f).sqs = (s.fn f).sqs ∧ t.ctxs = s.ctxs := by
  obtain ⟨taken, sqs, shadow, ctxs⟩ := State.modCq_quiet (g := fun y => { y with head := v }) (fun _ h => h) there y.vector
  obtain ⟨taken', sqs', -, ctxs'⟩ := State.modCq_quiet (g := fun y => { y with head := w, eventIdx := w }) (fun _ h => h) taken y.vector
  refine ⟨_, ?_, taken', sqs'.trans sqs, ctxs'.trans ctxs⟩
  rw [execCqHeadDoorbell_there open_ there, if_neg (by simp [good]),
    State.readShadowHead_valid taken (by rw [HostFn.shadowAt, shadow]; exact set) goodShadow]

end

/-! ## FETCH_TURN (spec/11 R424, R433) -/

/-- The turn of arbitration is counted in the function; its shadow doorbells stay where they are. -/
theorem HostFn.pick_shadow {x z : HostFn} {q : Nat} (picked : x.pick = some (q, z)) : z.shadow = x.shadow := by
  have spent (y : HostFn) (cls : Fin 5) : (y.spend cls).shadow = y.shadow := by
    unfold HostFn.spend
    split
    · rfl
    · split
      · rfl
      · split <;> rfl
  unfold HostFn.pick at picked
  extract_lets ready ids take live at picked
  clear_value live
  have taken (y : HostFn) (cls : Fin 5) (h : take y cls = some (q, z)) : z.shadow = y.shadow := by
    obtain ⟨r, -, same⟩ := Option.map_eq_some_iff.mp h
    rw [← (Prod.mk.inj same).2]
    exact spent y cls
  split at picked
  · cases picked; rfl
  · split at picked
    · exact taken _ _ picked
    · split at picked
      · exact taken _ _ picked
      · split at picked
        · exact taken _ _ picked
        · split at picked
          · exact taken { x with turns := (0, 0, 0) } _ picked
          · cases picked

/-- What a fetch gives a context. -/
def Ctx.fetchedAs (z : Ctx) : Origin × Nat × SqEntry × Stage := (z.origin, z.sq, z.entry, z.stage)

/-- A context for each entry, behind those that are there. -/
theorem State.addCtxs (f : Fn) (q : Nat) (l : List (SqEntry × CtxPart)) (s : State) :
    ∃ added, (s.each l fun e s => s.addCtx (.host f) q e.1 e.2).ctxs = s.ctxs ++ added ∧
      added.map Ctx.fetchedAs = l.map fun e => (.host f, q, e.1, .fetched) := by
  induction l generalizing s with
  | nil => exact ⟨[], (List.append_nil _).symm, rfl⟩
  | cons e l ih =>
    obtain ⟨added, ctxs, as⟩ := ih (s.addCtx (.host f) q e.1 e.2)
    refine ⟨Ctx.fresh s.nextCtx s.now (.host f) q e.1 e.2 :: added, ?_, by rw [List.map_cons, as]; rfl⟩
    exact ctxs.trans (List.append_assoc _ [_] _)

section
variable {s : State} {f : Fn} {entries : List SqEntry} {w q k : Nat} {x : HostFn} {y : SubQ}

/-- A run of k entries fetched into the function's own contexts. -/
def State.fetchOwn (s : State) (f : Fn) (entries : List SqEntry) (q k : Nat) (x : HostFn) (y : SubQ) : State :=
  (((s.modFn f fun _ => { x with starved := false }).each
      ((entries.take k).zip (List.replicate k (if q = 0 then CtxPart.admin else .io))) fun e s => s.addCtx (.host f) q e.1 e.2).each
    (fetchRuns y.size k y.head k) fun r s => s.emitOut (.fetch f q r.1 r.2)).modSq f q fun y => { y with head := (y.head + k) % y.size }

theorem State.fetchOwn_fn : (s.fetchOwn f entries q k x y).fn f =
    { x with starved := false, sqs := mapWhere (fun y => y.id == q) (fun y => { y with head := (y.head + k) % y.size }) x.sqs } := by
  rw [State.fetchOwn, State.modSq_fn, State.each_keeps (fun t => t.fn f) (fun _ _ => State.emitOut_fn ..),
    State.each_keeps (fun t => t.fn f) (fun _ t => (State.addCtx_moves _ _ _ _ t).fn (by decide) (by decide) f), State.modFn_fn, if_pos rfl]

theorem State.fetchOwn_names : (s.fetchOwn f entries q k x y).names = s.names := by
  rw [State.fetchOwn, State.modSq_names, State.each_keeps State.names (fun _ _ => State.emitOut_names ..),
    State.each_keeps State.names (fun _ t => (State.addCtx_moves _ _ _ _ t).only .names (by decide)), State.modFn_names]

theorem State.fetchOwn_ctxs : ∃ added, (s.fetchOwn f entries q k x y).ctxs = s.ctxs ++ added ∧
    added.map Ctx.fetchedAs = (entries.take k).map fun e => (.host f, q, e, .fetched) := by
  obtain ⟨added, ctxs, as⟩ := State.addCtxs f q
    ((entries.take k).zip (List.replicate k (if q = 0 then CtxPart.admin else .io))) (s.modFn f fun _ => { x with starved := false })
  refine ⟨added, ?_, as.trans ?_⟩
  · rw [State.fetchOwn, State.modSq_ctxs, State.each_keeps State.ctxs (fun _ _ => State.emitOut_ctxs ..), ctxs, State.modFn_ctxs]
  · rw [show (fun e : SqEntry × CtxPart => (Origin.host f, q, e.1, Stage.fetched)) = (fun e => (.host f, q, e, .fetched)) ∘ Prod.fst from rfl,
      ← List.map_map, List.map_fst_zip (by simp)]

variable (may : s.mayFetch f = true) (picked : (s.fn f).pick = some (q, x)) (there : x.sq? q = some y) (unset : (s.fn f).shadow = none)
  (length : k = min (min x.burst y.held) entries.length) (room : k ≤ s.ownFree f (q == 0))
include may picked there unset length room

theorem execFetchTurn_own : exec (.fetchTurn f entries w) s = .next (s.fetchOwn f entries q k x y) := by
  show execFetchTurn f entries w s = _
  rw [execFetchTurn, if_neg (by simp [may]), picked]
  dsimp only
  rw [there]
  dsimp only
  rw [← length, Nat.min_eq_left room, Nat.sub_self, Nat.zero_min, Nat.add_zero, if_pos rfl, List.replicate_zero, List.append_nil,
    decide_eq_false (Nat.lt_irrefl k)]
  have fetched : (s.fetchOwn f entries q k x y).readShadowTail f q w = s.fetchOwn f entries q k x y :=
    State.readShadowTail_unset (by rw [State.fetchOwn_fn]; exact (HostFn.pick_shadow picked).trans unset)
  refine congrArg Host.Outcome.next ?_
  unfold State.when
  split
  · exact fetched
  · rfl

theorem fetchTurn_takes : Does (.fetchTurn f entries w) s fun t => t.ctxs.take s.ctxs.length = s.ctxs ∧
    ((t.ctxs.drop s.ctxs.length).map fun z => (z.origin, z.sq, z.entry, z.stage)) = (entries.take k).map (fun e => (.host f, q, e, .fetched)) ∧
    ((t.fn f).sq? q).map SubQ.head = some ((y.head + k) % y.size) ∧ t.names = s.names := by
  obtain ⟨added, ctxs, as⟩ := State.fetchOwn_ctxs (s := s) (f := f) (entries := entries) (q := q) (k := k) (x := x) (y := y)
  refine ⟨_, execFetchTurn_own may picked there unset length room, by rw [ctxs, List.take_left], by rw [ctxs, List.drop_left]; exact as, ?_,
    State.fetchOwn_names⟩
  rw [HostFn.sq?, State.fetchOwn_fn]
  refine (congrArg (Option.map SubQ.head)
    (find?_mapWhere_same SubQ.id (g := fun y => { y with head := (y.head + k) % y.size }) (fun _ h => h) x.sqs)).trans ?_
  rw [← HostFn.sq?, there]
  rfl

end
/-! ## ADMISSION (spec/12 R452) -/

/-- A completion that owes the host no data. -/
def Cpl.bare (r : Cpl) : Prop := r.bytes = [] ∧ r.blocks = []

/-- What a completion that carries no data leaves, in whatever device state the function is. -/
theorem State.complete_decides {s : State} {c : Nat} {x : Ctx} {f : Fn} {r : Cpl} (held : s.ctx? c = some x) (host : x.origin = .host f)
    (bare : r.bare) : (((s.complete c r).ctx? c).map fun z => (z.stage, z.cpl.map Cpl.status)) = some (.decided, some r.status) := by
  obtain ⟨bytes, blocks⟩ := bare
  have stamped : (x.stamp r).bytes = [] ∧ (x.stamp r).blocks = [] ∧ (x.stamp r).status = r.status := by
    unfold Ctx.stamp
    split <;> exact ⟨bytes, blocks, rfl⟩
  obtain ⟨noBytes, noBlocks, status⟩ := stamped
  rw [(State.complete_host r held host (by simp [noBytes, noBlocks])).1]
  simp [status]

theorem Cpl.bare_invalid (n lo : Nat) : (Cpl.invalid n lo).bare := ⟨rfl, rfl⟩

theorem Cpl.bare_unless {p : Prop} [Decidable p] {n lo : Nat} : ∀ r ∈ (if p then none else some (Cpl.invalid n lo)), r.bare := by
  split
  · nofun
  · rintro _ ⟨⟩
    exact Cpl.bare_invalid n lo

theorem Cpl.bare_none : ∀ r ∈ (none : Option Cpl), r.bare := nofun

theorem Cpl.bare_badOpcode : ∀ r ∈ some Cpl.badOpcode, r.bare := by
  rintro _ ⟨⟩
  exact ⟨rfl, rfl⟩

/-- A fault that admission finds carries no data. -/
theorem adminFault_bare (e : SqEntry) : ∀ r ∈ adminFault e, r.bare := by
  unfold adminFault
  extract_lets known spsp
  have action (l : List Nat) : ∀ r ∈ known l, r.bare := Cpl.bare_unless
  split
  any_goals exact Cpl.bare_none
  any_goals exact action _
  any_goals exact Cpl.bare_unless
  · intro r bad
    obtain ⟨q, -, -, is⟩ := firstBad_some bad
    rw [is]
    exact Cpl.bare_invalid _ _
  · exact Cpl.bare_badOpcode

theorem ioFault_bare (e : SqEntry) : ∀ r ∈ ioFault e, r.bare := by
  unfold ioFault
  extract_lets action
  split
  any_goals exact Cpl.bare_none
  any_goals exact Cpl.bare_unless
  exact Cpl.bare_badOpcode

/-- The fault of an entry as a command of its queue. -/
def Ctx.fault (x : Ctx) : Option Cpl := if x.isAdmin then adminFault x.entry else ioFault x.entry

theorem Ctx.fault_bare {x : Ctx} {r : Cpl} (bad : x.fault = some r) : r.bare := by
  unfold Ctx.fault at bad
  split at bad
  · exact adminFault_bare _ r bad
  · exact ioFault_bare _ r bad

section
variable {s : State} {f : Fn} {x : Ctx} (next : s.nextFetched = some x) (held : s.ctx? x.id = some x) (host : x.origin = .host f)
  (single : s.pair.mode = false) (live : ((s.fn f).sq? x.sq).any SubQ.deleting = false)

/-- What admission writes into a context. -/
def Ctx.admittedAs (z : Ctx) : Stage × W32 × AnaState × Nat × Nat × Bool := (z.stage, z.adm, z.ana, z.lba, z.nlb, z.update)

include held host single live

theorem State.admitCmd_single : ∃ (u : State) (z : Ctx), s.admitCmd x = u.orElse x.id x.fault (State.hostBehavior x) ∧ u.ctx? x.id = some z ∧
    z.origin = .host f ∧ z.admittedAs = (.admitted, s.admission, s.anaFor x, (s.blocksOf x).1, (s.blocksOf x).2, x.updates) ∧
    u.admission = s.admission + 1 ∧ u.names = s.names := by
  unfold State.admitCmd
  extract_lets r fua y owner u gone v w
  have owned : owner = some f := by simp only [owner, host]
  have woken : u = s.when (!x.isAdmin && s.inOrToPs3) (State.modFn f fun h => { h with ps := h.lastOp }) := by simp only [u, owned]
  have moved : s.Moves [.fa, .fb] u := by
    rw [woken]
    exact Moves.when (fun _ m => State.modFn_moves (fun _ => ⟨rfl, rfl⟩) (by decide) m) (Moves.refl _ _)
  have sqs : (u.fn f).sqs = (s.fn f).sqs := by
    rw [woken, State.when]
    split
    · rw [State.modFn_fn, if_pos rfl]
    · rfl
  have served : gone = false := by simpa only [gone, owned, HostFn.sq?, sqs] using live
  have kept : u.forwards y = false := by
    rw [State.forwards, show u.pair = s.pair from moved.only .pair (by decide), single]
    simp
  have admission : u.admission = s.admission := moved.only .admission (by decide)
  refine ⟨w, { y with adm := u.admission }, ?_, ?_, host, ?_, ?_, moved.only .names (by decide)⟩
  · rw [if_neg (by simp [kept]), if_neg (by simp [served])]
    rfl
  · show (u.modCtx x.id fun _ => { y with adm := u.admission }).ctx? x.id = _
    rw [State.modCtx_ctx x.id (fun _ => { y with adm := u.admission }) (fun _ _ => rfl), moved.ctx? (by decide), held]
    rfl
  · rw [admission]
    rfl
  · rw [← admission]
    rfl

include next

/-- The command fetched first, admitted. -/
theorem execAdmission_single : ∃ (u : State) (z : Ctx), exec .admission s = .next (u.orElse x.id x.fault (State.hostBehavior x)) ∧
    u.ctx? x.id = some z ∧ z.origin = .host f ∧
    z.admittedAs = (.admitted, s.admission, s.anaFor x, (s.blocksOf x).1, (s.blocksOf x).2, x.updates) ∧
    u.admission = s.admission + 1 ∧ u.names = s.names := by
  have woken := State.wake_moves s
  have ana : s.wake.anaFor x = s.anaFor x := by
    unfold State.wake State.when
    split <;> rfl
  obtain ⟨u, z, run, there, origin, as, admission, names⟩ := State.admitCmd_single (s := s.wake) (f := f)
    ((woken.ctx? (by decide) _).trans held) host ((congrArg Pair.mode (woken.only .pair (by decide))).trans single)
    (by rw [woken.fn (by decide) (by decide)]; exact live)
  have waits : exec .admission s = .next (s.wake.admitCmd x) := by
    show execAdmission s = _
    rw [execAdmission, next]
  have blocks : s.wake.blocksOf x = s.blocksOf x := by
    unfold State.wake State.when
    split <;> rfl
  rw [ana, blocks, show s.wake.admission = s.admission from woken.only .admission (by decide)] at as
  exact ⟨u, z, by rw [waits, run], there, origin, as, admission.trans (congrArg (· + 1) (woken.only .admission (by decide))),
    names.trans (woken.only .names (by decide))⟩

theorem admission_admits (other : isAction 0x09 0x16 x = false) (sound : x.fault = none) : Does .admission s fun t =>
    ((t.ctx? x.id).map fun z => (z.stage, z.adm, z.ana, z.lba, z.nlb, z.update)) =
      some (.admitted, s.admission, s.anaFor x, (s.blocksOf x).1, (s.blocksOf x).2, x.updates) ∧
    t.admission = s.admission + 1 ∧ t.names = s.names := by
  obtain ⟨u, z, run, there, -, as, admission, names⟩ := execAdmission_single next held host single live
  have rests : u.orElse x.id x.fault (State.hostBehavior x) = u := by
    rw [sound]
    simp only [State.orElse, State.hostBehavior, host, other]
    rfl
  exact ⟨u, by rw [run, rests], by rw [there]; exact congrArg some as, admission, names⟩

theorem admission_refuses {r : Cpl} (bad : x.fault = some r) : Does .admission s fun t =>
    ((t.ctx? x.id).map fun z => (z.stage, z.cpl.map Cpl.status)) = some (.decided, some r.status) ∧
    t.admission = s.admission + 1 ∧ t.names = s.names := by
  obtain ⟨u, z, run, there, origin, -, admission, names⟩ := execAdmission_single next held host single live
  rw [bad] at run
  exact ⟨_, run, State.complete_decides there origin (Ctx.fault_bare bad), (State.complete_admission ..).trans admission,
    (State.complete_names ..).trans names⟩

theorem admission_hostBehavior (behavior : isAction 0x09 0x16 x = true) (sound : adminFault x.entry = none) (unsaved : saves x.entry = false) :
    Does .admission s fun t => ((t.ctx? x.id).map fun z => (z.stage, z.cpl.map Cpl.status)) = some (.decided, some Cpl.ok.status) ∧
      (t.fn f).acre = (x.entry.data.getD 0 0 == 1) ∧ t.admission = s.admission + 1 ∧ t.names = s.names := by
  obtain ⟨u, z, run, there, origin, -, admission, names⟩ := execAdmission_single next held host single live
  have admin : x.isAdmin = true := by
    simp only [isAction, isAdminOp, Bool.and_eq_true] at behavior
    exact behavior.1.1
  have fault : x.fault = none := by rw [Ctx.fault, admin, if_pos rfl, sound]
  let v := u.modFn f fun y => { y with acre := x.entry.data.getD 0 0 == 1 }
  have takes : u.orElse x.id x.fault (State.hostBehavior x) = v.complete x.id Cpl.ok := by
    have clean : firstBad [(bits x.entry.cdw10 31 31 == 1, 10, 31)] = none := by simpa [saves] using unsaved
    rw [fault]
    simp only [State.orElse, State.hostBehavior, host, behavior, clean]
    rfl
  refine ⟨_, by rw [run, takes], State.complete_decides (s := v) (x := z) ?_ origin ⟨rfl, rfl⟩, ?_, ?_, ?_⟩
  · rw [State.ctx?, State.modFn_ctxs, ← State.ctx?, there]
  · rw [State.complete_fn, State.modFn_fn, if_pos rfl]
  · rw [State.complete_admission, State.modFn_admission, admission]
  · rw [State.complete_names, State.modFn_names, names]

end

/-! ## COMPLETION_POST (spec/11 R425, R443) -/

theorem State.settleDeletions_noCtx {s : State} (none_ : s.ctxs = []) : s.settleDeletions = s := by
  simp [State.settleDeletions, State.each, none_]

section
variable {s : State} {f : Fn} {w : Nat} {x : Ctx} (alone : s.ctxs = [x]) (decided : x.stage = .decided) (host : x.origin = .host f)
include alone decided host

theorem State.decided_alone : s.decided f = [x] := by
  simp [State.decided, alone, decided, host, sortBy, insertBy]

variable (cross : s.crosses f = true)
include cross

/-- In D3hot the entry is held, and counts on its vector. -/
theorem completionPost_holds (asleep : (s.fn f).d3hot = true) (fresh : x.heldD3 = false) (room : x.wait ≠ .room) :
    Does (.completionPost f w) s fun t => t.ctx? x.id = some { x with heldD3 := true } ∧ (t.fn f).sqs = (s.fn f).sqs ∧
      (t.fn f).cqs = (s.fn f).cqs ∧ t.names = s.names := by
  have run : exec (.completionPost f w) s = .next (s.holdEntry f x) := by
    show execCompletionPost f w s = _
    rw [execCompletionPost]
    simp [cross, asleep, State.decided_alone alone decided host, fresh, room]
  let u := s.modCtx x.id fun y => { y with heldD3 := true }
  have marked : u.ctx? x.id = some { x with heldD3 := true } := by
    rw [State.modCtx_ctx x.id (fun y => { y with heldD3 := true }) (fun _ h => h), State.ctx?, alone]
    simp
  have counted {t : State} (queues : (t.fn f).besidesInterrupts = (u.fn f).besidesInterrupts) (ctxs : t.ctxs = u.ctxs)
      (names : t.names = u.names) : t.ctx? x.id = some { x with heldD3 := true } ∧ (t.fn f).sqs = (s.fn f).sqs ∧
        (t.fn f).cqs = (s.fn f).cqs ∧ t.names = s.names := by
    obtain ⟨sqs, cqs, -⟩ := HostFn.queues_kept queues
    rw [State.modCtx_fn] at sqs cqs
    exact ⟨by rw [State.ctx?, ctxs]; exact marked, sqs, cqs, names⟩
  have holds : s.holdEntry f x = u ∨ ∃ k, s.holdEntry f x = u.countEntry f k := by
    unfold State.holdEntry
    extract_lets
    split
    · exact .inr ⟨_, rfl⟩
    · exact .inl rfl
  obtain held | ⟨k, held⟩ := holds
  · exact ⟨u, held ▸ run, counted rfl rfl rfl⟩
  · have moves := State.countEntry_moves f k u
    exact ⟨_, held ▸ run, counted (State.countEntry_besidesInterrupts f u f k) (moves.only .ctxs (by decide)) (moves.only .names (by decide))⟩

variable {r : Cpl} {q : SubQ} {k : CplQ} (cpl : x.cpl = some r) (unlogged : r.unlogged = true) (notMedia : r.sct ≠ 2)
  (sq : (s.fn f).sq? x.sq = some q) (cq : (s.fn f).cq? q.cq = some k)
include cpl unlogged notMedia sq cq

/-- A queue once an entry is written at its tail. -/
def CplQ.written (k : CplQ) : CplQ :=
  { k with tail := (k.tail + 1) % k.size, phase := if (k.tail + 1) % k.size = 0 then !k.phase else k.phase }

/-- The entry is written and its context freed; its interrupt is still to arise. -/
def State.writesEntry (s : State) (f : Fn) (x : Ctx) (r : Cpl) (q : SubQ) (k : CplQ) : State :=
  ((s.emitOut (.completion f k.id k.tail k.phase x.sq q.head x.entry.cid r)).modCq f k.id CplQ.written).dropCtx x.id

theorem execCompletionPost_writes (awake : (s.fn f).d3hot = false) (room : k.full = false) : exec (.completionPost f w) s =
    .next ((s.writesEntry f x r q k).when (!x.heldD3) (State.countEntry f k)).settleDeletions.noteClean.wake := by
  have has : s.hasRoom f x = true := by simp [State.hasRoom, State.cqOf, sq, cq, room]
  have posts : exec (.completionPost f w) s = .next (s.postEntry f x) := by
    show execCompletionPost f w s = _
    rw [execCompletionPost]
    simp [cross, awake, State.decided_alone alone decided host, has]
  rw [posts, State.postEntry, cpl, sq]
  dsimp only
  rw [cq]
  simp only [unlogged, Bool.not_true, show (r.sct == 2) = false from beq_eq_false_iff_ne.mpr notMedia, Bool.and_false, Bool.false_and]
  rfl

theorem completionPost_writes (awake : (s.fn f).d3hot = false) (room : k.full = false) (quiet : s.power.entering = false) :
    Does (.completionPost f w) s fun t =>
      t.out.contains (.completion f k.id k.tail k.phase x.sq q.head x.entry.cid r) = true ∧ t.ctxs = [] ∧ (t.fn f).cq? q.cq = some
        { k with tail := (k.tail + 1) % k.size, phase := if (k.tail + 1) % k.size = 0 then !k.phase else k.phase } ∧
      t.names = { s.names with firstDue := t.names.firstDue } := by
  refine ⟨_, execCompletionPost_writes alone decided host cross cpl unlogged notMedia sq cq awake room, ?_⟩
  let u := s.writesEntry f x r q k
  let v := u.when (!x.heldD3) (State.countEntry f k)
  have counted : u.Moves [.fa, .fb, .out] v :=
    Moves.when (fun _ m => Moves.op (State.countEntry_moves _ _ _) (by decide) m) (Moves.refl _ _)
  have freed : u.ctxs = [] := by simp [u, State.writesEntry, State.dropCtx, State.modCq, alone]
  have empty : v.ctxs = [] := (counted.only .ctxs (by decide)).trans freed
  have calm : v.power.entering = false := by
    rw [show v.power = u.power from counted.only .power (by decide)]
    simpa [u, State.writesEntry, State.dropCtx, State.modCq] using quiet
  have still := State.settleDeletes_noCtx empty
  have cleaned := State.noteClean_still_moves calm still
  have woken := State.wake_moves v.noteClean
  rw [State.settleDeletions_noCtx empty]
  have queues : ((v.noteClean.wake).fn f).cqs = (u.fn f).cqs := by
    have counts : (v.fn f).besidesInterrupts = (u.fn f).besidesInterrupts := by
      unfold v State.when
      split
      · exact State.countEntry_besidesInterrupts f u f k
      · rfl
    rw [woken.fn (by decide) (by decide)]
    exact (congrArg HostFn.cqs (State.noteClean_still_besides calm still f)).trans (HostFn.queues_kept counts).2.1
  have id := HostFn.cq_id cq
  refine ⟨?_, ?_, ?_, ?_⟩
  · have there : Out.completion f k.id k.tail k.phase x.sq q.head x.entry.cid r ∈ u.out := by
      simp [u, State.writesEntry, State.dropCtx, State.modCq]
    simpa using woken.outs.mem (cleaned.outs.mem (counted.outs.mem there))
  · rw [woken.only .ctxs (by decide), cleaned.only .ctxs (by decide), empty]
  · have written : (u.fn f).cq? k.id = some k.written := by
      refine (State.modCq_cq (g := CplQ.written) (fun _ h => h) (s.emitOut _)).trans ?_
      rw [State.emitOut_fn, id, cq]
      rfl
    rw [HostFn.cq?, queues]
    exact (congrArg (u.fn f).cq? id.symm).trans written
  · have named := State.noteClean_still_names calm still
    rw [show v.names = s.names from counted.only .names (by decide) |>.trans (State.modFn_names ..)] at named
    rw [woken.only .names (by decide)]
    exact named

end

/-! ## DATA_TRANSFER_ERROR (spec/12 R457) -/

theorem dataTransferError_ends {s : State} {c : Nat} {x : Ctx} {f : Fn} (alone : s.ctxs = [x]) (id : x.id = c)
    (moving : x.stage = .admitted ∨ x.stage = .awaitData ∨ x.reading = true) (host : x.origin = .host f)
    (quiet : s.power.entering = false) : Does (.dataTransferError c) s fun t =>
      EndedWith t c x (Cpl.err 0x0 0x04) ∧ t.names = { s.names with firstDue := t.names.firstDue } := by
  let u := s.complete c (Cpl.err 0x0 0x04)
  have held : s.ctx? c = some x := by simp [State.ctx?, alone, id]
  obtain ⟨y, ctxs, rests, -⟩ := State.complete_alone alone id host (Cpl.err 0x0 0x04)
  have run : exec (.dataTransferError c) s = .next u.noteClean := by
    show execDataTransferError c s = _
    rw [execDataTransferError, held]
    dsimp only
    rw [if_pos moving, State.settleOrder_rests ctxs rests]
  have calm : u.power.entering = false := by rw [State.complete_power, quiet]
  have still : u.settleDeletes = u := State.settleDeletes_ended alone id host (Cpl.err 0x0 0x04)
  have names := State.noteClean_still_names calm still
  rw [show u.names = s.names from State.complete_names ..] at names
  exact ⟨_, run, (State.ended_alone alone id host ⟨rfl, rfl, rfl, rfl, rfl⟩ _).noteClean calm still, names⟩

/-- Settles O23: the clauses of each of its commands, in the statement's order. -/
theorem queueCommands : Obligations.QueueCommands :=
  ⟨fun _ _ _ _ _ _ answers there => sqTailDoorbell_takes answers there,
    fun _ _ _ _ _ _ answers there => sqTailDoorbell_bad answers there,
    fun _ _ _ _ _ _ answers there => cqHeadDoorbell_takes answers there,
    fun _ _ _ => invalidDoorbellRegister_pends,
    fun _ _ _ _ _ _ _ _ may picked there unset length room => fetchTurn_takes may picked there unset length room,
    fun _ _ _ next held host other single live sound => admission_admits next held host single live other sound,
    fun _ _ _ next held host behavior single live sound unsaved =>
      admission_hostBehavior next held host single live behavior sound unsaved,
    fun _ _ _ _ next held host single live bad => admission_refuses next held host single live bad,
    fun _ _ _ _ _ _ _ awake cross alone decided host cpl unlogged notMedia sq cq room quiet =>
      completionPost_writes alone decided host cross cpl unlogged notMedia sq cq awake room quiet,
    fun _ _ _ _ asleep cross alone decided host fresh room => completionPost_holds alone decided host cross asleep fresh room,
    fun _ _ _ _ => coalescingTimer_sends, fun _ _ _ _ => coalescingTimer_d3hot,
    fun _ _ _ => msixUnmask_sends, fun _ _ => msixUnmask_enables, fun _ _ _ _ => anaChange_counts,
    fun _ _ _ _ => dataTransferError_ends,
    fun _ _ _ _ _ _ answers there => cqHeadDoorbell_bad answers there,
    fun _ _ _ _ _ _ answers there => sqTailDoorbell_shadow answers there,
    fun _ _ _ _ _ _ answers there => cqHeadDoorbell_shadow answers there,
    fun _ _ _ _ _ => sqTailDoorbell_noQueue, fun _ _ _ _ _ => cqHeadDoorbell_noQueue,
    fun _ _ _ _ => coalescingTimer_pends⟩

end Sys2Proof.Machine
end

section
/-! SUPPORT. Get Log Page (spec/11 R450; spec/12 R470, R489; spec/15 R550; spec/16 R589; spec/17 R613). -/

namespace Sys2Proof.Machine

/-! ## The part of a page that is asked for -/

/-- The bytes of a page that a command asks for. -/
def logBytes (e : SqEntry) (page : List Byte) : List Byte := (page.drop (logOffset e)).take (logSize e)

/-- A page has been read: unless the host keeps its events, they can be reported again. -/
def State.logGiven (s : State) (x : Ctx) (f : Fn) (lid : Nat) : State := s.when (bits x.entry.cdw10 15 15 == 0) (State.logRead f lid)

/-- Of a function with no event, only what has been reported changes. -/
theorem State.logGiven_reported {s : State} {f : Fn} (none_ : (s.fn f).events = []) (x : Ctx) (lid : Nat) :
    ∃ l, s.logGiven x f lid = s.modFn f fun y => { y with reported := l } := by
  unfold State.logGiven State.when
  split
  · refine ⟨(s.fn f).reported.filter fun r => r.2 != lid, ?_⟩
    refine (State.deliverEvents_none (f := f) ?_ _).trans (by cases f <;> rfl)
    rw [State.modFn_fn, if_pos rfl, none_]
  · exact ⟨(s.fn f).reported, by cases f <;> rfl⟩

section
variable {s : State} {c lid : Nat} {x : Ctx} {f : Fn} {page : List Byte}

theorem State.giveLog_within (host : x.origin = .host f) (within : logOffset x.entry ≤ page.length) :
    s.giveLog c x lid page = (s.logGiven x f lid).complete c (Cpl.data (logBytes x.entry page)) := by
  simp only [State.giveLog, if_neg (Nat.not_lt.mpr within), host]
  rfl

theorem State.giveLog_past (past : page.length < logOffset x.entry) : s.giveLog c x lid page = s.complete c (Cpl.invalid 12 0) := by
  rw [State.giveLog]
  exact if_pos past

end

/-- What no log page changes. -/
def State.SameStores (t s : State) : Prop := t.names = s.names ∧ t.prot = s.prot ∧ t.nor = s.nor

theorem State.SameStores.complete {u s : State} (same : u.SameStores s) (c : Nat) (r : Cpl) : (u.complete c r).SameStores s := by
  obtain ⟨names, prot, nor⟩ := same
  exact ⟨(State.complete_names ..).trans names, (State.complete_prot ..).trans prot, (State.complete_nor ..).trans nor⟩

theorem State.SameStores.modFn {u s : State} (same : u.SameStores s) (f : Fn) (g : HostFn → HostFn) : (u.modFn f g).SameStores s := by
  obtain ⟨names, prot, nor⟩ := same
  exact ⟨(State.modFn_names ..).trans names, (State.modFn_prot ..).trans prot, (State.modFn_nor ..).trans nor⟩

section
variable {s u : State} {c lid : Nat} {x : Ctx} {f : Fn} {i : Instr} {page : List Byte} (hand : AtHand s c (isAction 0x02 lid) x)
  (run : exec i s = .next (u.giveLog c x lid page)) (kept : u.ctxs = s.ctxs) (same : u.SameStores s)

include hand run kept same

/-- The page is returned, after a change that no command's context and no store shows. -/
theorem getLogPage_returns (host : x.origin = .host f) (none_ : (u.fn f).events = []) (within : logOffset x.entry ≤ page.length) :
    ∃ t l, exec i s = .next t ∧ EndedWith t c x (Cpl.data (logBytes x.entry page)) ∧ t.fn f = { u.fn f with reported := l } ∧
      t.SameStores s := by
  obtain ⟨l, given⟩ := State.logGiven_reported none_ x lid
  rw [State.giveLog_within host within, given] at run
  refine ⟨_, l, run, State.ended_complete _ hand ((State.modFn_ctxs ..).trans kept), ?_, (same.modFn f _).complete c _⟩
  rw [State.complete_fn, State.modFn_fn, if_pos rfl]

theorem getLogPage_past (past : page.length < logOffset x.entry) :
    Does i s fun t => EndedWith t c x (Cpl.invalid 12 0) ∧ t.SameStores s := by
  rw [State.giveLog_past past] at run
  exact Does.completes hand run kept (same.complete c _)

end

section
variable {s : State} {c lid : Nat} {x : Ctx} {f : Fn} {i : Instr} {page : List Byte} (hand : AtHand s c (isAction 0x02 lid) x)
include hand

theorem getLogPage_gives (host : x.origin = .host f) (none_ : (s.fn f).events = []) (within : logOffset x.entry ≤ page.length)
    (run : exec i s = .next (s.giveLog c x lid page)) :
    Does i s fun t => EndedWith t c x (Cpl.data (logBytes x.entry page)) ∧ t.SameStores s := by
  obtain ⟨t, -, run, ended, -, same⟩ := getLogPage_returns hand run rfl ⟨rfl, rfl, rfl⟩ host none_ within
  exact ⟨t, run, ended, same⟩

theorem getLogPage_refuses {r : Cpl} (run : exec i s = .next (s.complete c r)) : Does i s fun t => EndedWith t c x r ∧ t.SameStores s :=
  Does.completes hand run rfl (State.SameStores.complete ⟨rfl, rfl, rfl⟩ c r)

end

/-! ## Vendor pages of one part -/

section
variable {s : State} {c lid : Nat} {x : Ctx} {f : Fn} {i : Instr} {page : State → List Byte} (hand : AtHand s c (isAction 0x02 lid) x)
  (run : exec i s = .next (s.wholeLog c lid page))
include hand run

theorem wholeLog_returns (host : x.origin = .host f) (none_ : (s.fn f).events = []) (part : logPart x.entry = 0)
    (within : logOffset x.entry ≤ (page s).length) :
    Does i s fun t => EndedWith t c x (Cpl.data (logBytes x.entry (page s))) ∧ t.SameStores s := by
  refine getLogPage_gives hand host none_ within (run.trans ?_)
  have clean : firstBad [(logPart x.entry != 0, 11, 16)] = none := by simp [part]
  rw [State.wholeLog, State.runLog, State.run_atHand hand, clean]
  rfl

theorem wholeLog_otherPart (part : logPart x.entry ≠ 0) : Does i s fun t => EndedWith t c x (Cpl.invalid 11 16) ∧ t.SameStores s := by
  refine getLogPage_refuses hand (run.trans ?_)
  have bad : firstBad [(logPart x.entry != 0, 11, 16)] = some (Cpl.invalid 11 16) := by
    rw [bne_iff_ne.mpr part]
    exact firstBad_lowest (by simp)
  rw [State.wholeLog, State.runLog, State.run_atHand hand, bad]
  rfl

end

/-! ## Lengths and starts of pages -/

theorem leBytes_length (n v : Nat) : (leBytes n v).length = n := by
  induction n generalizing v with
  | zero => rfl
  | succ n ih => rw [leBytes, List.length_cons, ih]

theorem overlay_length (base : List Byte) (l : List (Nat × Nat × Nat)) : base.length ≤ (overlay base l).length := by
  induction l generalizing base with
  | nil => exact Nat.le_refl _
  | cons e l ih =>
    obtain ⟨off, n, v⟩ := e
    refine Nat.le_trans ?_ (ih _)
    simp only [List.length_append, List.length_take, List.length_drop, leBytes_length]
    omega

/-- Fields put in from an offset on leave what stands before it. -/
theorem overlay_take {k : Nat} {l : List (Nat × Nat × Nat)} (beyond : ∀ e ∈ l, k ≤ e.1) {base : List Byte} (long : k ≤ base.length) :
    (overlay base l).take k = base.take k := by
  induction l generalizing base with
  | nil => rfl
  | cons e l ih =>
    obtain ⟨off, n, v⟩ := e
    have start : k ≤ off := beyond _ List.mem_cons_self
    have before : k ≤ (base.take off).length := by
      rw [List.length_take]
      exact Nat.le_min.mpr ⟨start, long⟩
    rw [overlay, ih (fun e h => beyond e (List.mem_cons_of_mem _ h)) (by simp only [List.length_append]; omega), List.append_assoc,
      List.take_append_of_le_length before, List.take_take, Nat.min_eq_left start]

theorem State.promptPage_length (s : State) : 64 ≤ s.promptPage.length := by
  simp [State.promptPage, packBytes, leBytes_length]
  omega

theorem errorPage_length (l : List ErrEntry) (free : Nat) : (errorPage l free).length = 4096 := padTo_length _ _

/-! ## The pages (spec/12 Table 12-14) -/

section
variable {s : State} {c : Nat} {x : Ctx} {f : Fn}

/-- The counts of the entries that a read of log 0x01 returns whole. -/
def logShown (l : List ErrEntry) (e : SqEntry) : List W64 :=
  (l.zipIdx.filter fun q => decide (logOffset e ≤ 64 * q.2) && decide (64 * q.2 + 64 ≤ logOffset e + logSize e)).map fun q => q.1.count

theorem logShown_newest {l : List ErrEntry} {e : SqEntry} {y : ErrEntry} (start : logOffset e = 0) (whole : 64 ≤ logSize e)
    (newest : l.head? = some y) : y.count ∈ logShown l e := by
  obtain ⟨r, rfl⟩ := List.head?_eq_some_iff.mp newest
  exact List.mem_map.mpr ⟨(y, 0), List.mem_filter.mpr ⟨by simp [List.zipIdx_cons], by simp [start, whole]⟩, rfl⟩

/-- The entries returned whole are remembered. -/
def State.remembersShown (s : State) (f : Fn) (e : SqEntry) : State :=
  { s with free := s.free + 512 }.modFn f fun y => { y with
    returned := y.returned ++ (logShown (s.fn f).errLog e).filter fun n => !y.returned.contains n }

section
variable (hand : AtHand s c (isAction 0x02 1) x) (host : x.origin = .host f)
include hand host

theorem execGetLogPageErrorInformation_host : exec (.getLogPageErrorInformation c) s =
    .next ((s.remembersShown f x.entry).giveLog c x 0x01 (errorPage (s.fn f).errLog s.free)) := by
  show execGetLogPageErrorInformation c s = _
  rw [execGetLogPageErrorInformation, State.runLog, State.run_atHand hand, State.forHost_host host]
  rfl

theorem getLogPageErrorInformation_returns (none_ : (s.fn f).events = []) (within : logOffset x.entry ≤ 4096) :
    Does (.getLogPageErrorInformation c) s fun t => EndedWith t c x (Cpl.data (logBytes x.entry (errorPage (s.fn f).errLog s.free))) ∧
    (∀ n ∈ (s.fn f).returned, n ∈ (t.fn f).returned) ∧
    (logOffset x.entry = 0 → 64 ≤ logSize x.entry → ∀ y, (s.fn f).errLog.head? = some y → y.count ∈ (t.fn f).returned) ∧
    t.SameStores s := by
  have fn : (s.remembersShown f x.entry).fn f = { s.fn f with
      returned := (s.fn f).returned ++ (logShown (s.fn f).errLog x.entry).filter fun n => !(s.fn f).returned.contains n } := by
    cases f <;> rfl
  obtain ⟨t, l, run, ended, after, same⟩ := getLogPage_returns hand (execGetLogPageErrorInformation_host hand host)
    (State.modFn_ctxs ..) (State.SameStores.modFn ⟨rfl, rfl, rfl⟩ _ _) host (by rw [fn, none_]) (by rwa [errorPage_length])
  have returned : (t.fn f).returned =
      (s.fn f).returned ++ (logShown (s.fn f).errLog x.entry).filter fun n => !(s.fn f).returned.contains n := by
    rw [after, fn]
  refine ⟨t, run, ended, fun n old => ?_, fun start whole y newest => ?_, same⟩
  · rw [returned]
    exact List.mem_append_left _ old
  · rw [returned, List.mem_append, List.mem_filter]
    by_cases old : y.count ∈ (s.fn f).returned
    · exact .inl old
    · exact .inr ⟨logShown_newest start whole newest, by simp [old]⟩

theorem getLogPageErrorInformation_past (past : 4096 < logOffset x.entry) : Does (.getLogPageErrorInformation c) s fun t =>
    EndedWith t c x (Cpl.invalid 12 0) ∧ t.SameStores s :=
  getLogPage_past hand (execGetLogPageErrorInformation_host hand host) (State.modFn_ctxs ..)
    (State.SameStores.modFn ⟨rfl, rfl, rfl⟩ _ _) (by rwa [errorPage_length])

end

theorem getLogPageSmartHealth_returns (hand : AtHand s c (isAction 0x02 2) x) (host : x.origin = .host f) (none_ : (s.fn f).events = [])
    (within : logOffset x.entry ≤ 512) : Does (.getLogPageSmartHealth c) s fun t =>
      EndedWith t c x (Cpl.data (logBytes x.entry (overlay (keepBytes smartOpen 512 (Config.logBase 0x02)) [(0, 1, s.criticalWarning f),
        (1, 2, s.composite), (192, 4, s.therm.warnMs / 60000), (196, 4, s.therm.critMs / 60000), (200, 2, s.composite),
        (202, 2, kelvinOf s.therm.hdaMax)]))) ∧ t.SameStores s := by
  refine getLogPage_gives hand host none_ (within.trans (Nat.le_trans ?_ (overlay_length _ _))) ?_
  · simp [keepBytes]
  · show execGetLogPageSmartHealth c s = _
    rw [execGetLogPageSmartHealth, State.runLog, State.run_atHand hand, Ctx.fn_host host]
    rfl

theorem getLogPageCommandsSupported_returns (hand : AtHand s c (isAction 0x02 5) x) (host : x.origin = .host f)
    (none_ : (s.fn f).events = []) (within : logOffset x.entry ≤ 4096) : Does (.getLogPageCommandsSupported c) s fun t =>
      EndedWith t c x (Cpl.data (logBytes x.entry (padTo 4096 (effects (Config.logBase (0x05 + 256 * bits x.entry.cdw14 31 24)) 0 adminOpcodes ++
        effects (Config.logBase (0x05 + 256 * bits x.entry.cdw14 31 24)) 1024 (ioOpcodes (bits x.entry.cdw14 31 24)))))) ∧
      t.SameStores s := by
  refine getLogPage_gives hand host none_ (by rwa [padTo_length]) ?_
  show execGetLogPageCommandsSupported c s = _
  rw [execGetLogPageCommandsSupported, State.runLog, State.run_atHand hand]

/-! ### Asymmetric Namespace Access (spec/11 R450) -/

/-- The descriptor of a group at an offset, with its namespaces. -/
def anaGroup (off number : Nat) (l : List Nat) (st : AnaState) : List (Nat × Nat × Nat) :=
  [(off, 4, number), (off + 4, 4, l.length), (off + 16, 1, anaCode st)] ++ l.zipIdx.map fun q => (off + 32 + 4 * q.2, 4, q.1)

theorem anaGroup_beyond {off number : Nat} {l : List Nat} {st : AnaState} : ∀ e ∈ anaGroup off number l st, off ≤ e.1 := by
  intro e h
  obtain here | listed := List.mem_append.mp h
  · simp only [List.mem_cons, List.not_mem_nil, or_false] at here
    obtain rfl | rfl | rfl := here <;> simp
  · obtain ⟨q, -, rfl⟩ := List.mem_map.mp listed
    exact Nat.le_trans (Nat.le_add_right off 32) (Nat.le_add_right _ _)

/-- The namespaces that the page lists of a group. -/
def State.anaListed (s : State) (f : Fn) (e : SqEntry) (second : Bool) : List Nat :=
  if bits e.cdw10 8 8 = 1 then []
  else sortBy id ((s.names.nss.filter fun n => n.on f && n.ana2 == second && !n.deleting).map Ns.nsid)

/-- The page from its groups' namespaces. -/
def HostFn.anaPage (y : HostFn) (first second : List Nat) : List Byte :=
  overlay (List.replicate (48 + 4 * first.length + 32 + 4 * second.length) 0) ([(0, 8, y.anaCount.toNat), (8, 2, 2)] ++
    anaGroup 16 1 first y.ana1 ++ anaGroup (48 + 4 * first.length) 2 second y.ana2)

/-- The page starts with the change count and the number of groups; their descriptors lie behind. -/
theorem HostFn.anaPage_start (y : HostFn) (first second : List Nat) :
    (y.anaPage first second).take 10 = leBytes 8 y.anaCount.toNat ++ leBytes 2 2 := by
  have beyond : ∀ e ∈ anaGroup 16 1 first y.ana1 ++ anaGroup (48 + 4 * first.length) 2 second y.ana2, 10 ≤ e.1 := by
    intro e listed
    obtain one | two := List.mem_append.mp listed
    · exact Nat.le_trans (by decide) (anaGroup_beyond e one)
    · exact Nat.le_trans (by omega) (anaGroup_beyond e two)
  rw [HostFn.anaPage, List.append_assoc, List.cons_append, List.cons_append, List.nil_append, overlay, overlay, overlay_take beyond]
  · simp [leBytes]
  · simp only [List.length_append, List.length_take, List.length_drop, leBytes_length, List.length_replicate]
    omega

section
variable (hand : AtHand s c (isAction 0x02 12) x) (host : x.origin = .host f)
include hand host

theorem execGetLogPageAna_host : exec (.getLogPageAna c) s =
    .next (s.giveLog c x 0x0C ((s.fn f).anaPage (s.anaListed f x.entry false) (s.anaListed f x.entry true))) := by
  show execGetLogPageAna c s = _
  rw [execGetLogPageAna, State.runLog, State.run_atHand hand, Ctx.fn_host host]
  rfl

theorem getLogPageAna_starts (none_ : (s.fn f).events = []) (awake : (s.fn f).d3hot = false) (start : logOffset x.entry = 0) :
    Does (.getLogPageAna c) s fun t => (t.ctx? c).any (fun y => y.stage == .decided && (y.cpl.any fun r =>
      r.good && r.bytes.take 10 == (leBytes 8 (s.fn f).anaCount.toNat ++ leBytes 2 2).take (logSize x.entry))) = true ∧ t.SameStores s := by
  generalize pages : (s.fn f).anaPage (s.anaListed f x.entry false) (s.anaListed f x.entry true) = page
  have starts : page.take 10 = _ := pages ▸ HostFn.anaPage_start _ _ _
  obtain ⟨t, l, run, ended, fn, same⟩ := getLogPage_returns hand (pages ▸ execGetLogPageAna_host hand host) rfl ⟨rfl, rfl, rfl⟩ host
    none_ (by rw [start]; exact Nat.zero_le _)
  obtain ⟨y, held, cpl, stage⟩ := ended
  have decided : y.stage = .decided := by
    refine stage.resolve_right ?_
    rintro ⟨-, -, g, origin, asleep, -⟩
    obtain rfl : f = g := Origin.host.inj (host.symm.trans origin)
    rw [fn] at asleep
    exact absurd asleep (by simp [awake])
  obtain ⟨sct, sc, bytes⟩ := Ctx.stamp_result x (Cpl.data (logBytes x.entry page))
  have good : (x.stamp (Cpl.data (logBytes x.entry page))).good = true := by
    rw [Cpl.good, sct, sc]
    rfl
  have begins : (logBytes x.entry page).take 10 = (page.take 10).take (logSize x.entry) := by
    rw [logBytes, start, List.drop_zero, List.take_take, List.take_take, Nat.min_comm]
  refine ⟨t, run, ?_, same⟩
  rw [held]
  simp only [Option.any_some, decided, cpl, good, bytes, BEq.rfl, Bool.true_and]
  rw [← starts, ← begins]
  exact BEq.rfl

end

/-! ### Playbill (spec/16 R589) -/

section
variable (hand : AtHand s c (isAction 0x02 192) x)
include hand

theorem getLogPagePlaybill_directory (host : x.origin = .host f) (none_ : (s.fn f).events = []) (part : logPart x.entry = 0xFFFF)
    (within : logOffset x.entry ≤ 4096) : Does (.getLogPagePlaybill c) s fun t =>
      EndedWith t c x (Cpl.data (logBytes x.entry s.directory)) ∧ t.SameStores s := by
  refine getLogPage_gives hand host none_ (by rwa [State.directory, padTo_length]) ?_
  show execGetLogPagePlaybill c s = _
  rw [execGetLogPagePlaybill, State.runLog, State.run_atHand hand]
  exact congrArg Host.Outcome.next (if_pos part)

variable (part : logPart x.entry ≤ 255)
include part

theorem execGetLogPagePlaybill_part : exec (.getLogPagePlaybill c) s = .next ((s.playbillWhole (logPart x.entry)).elim
    (s.complete c (Cpl.invalid 11 16)) fun bs => (s.readBill (logPart x.entry)).giveLog c x 0xC0 bs) := by
  show execGetLogPagePlaybill c s = _
  rw [execGetLogPagePlaybill, State.runLog, State.run_atHand hand]
  dsimp only
  rw [if_neg (by omega), if_pos part]
  cases s.playbillWhole (logPart x.entry) <;> rfl

theorem getLogPagePlaybill_noRecord (missing : s.playbillWhole (logPart x.entry) = none) : Does (.getLogPagePlaybill c) s fun t =>
    EndedWith t c x (Cpl.invalid 11 16) ∧ t.SameStores s :=
  getLogPage_refuses hand ((execGetLogPagePlaybill_part hand part).trans (by rw [missing]; rfl))

theorem getLogPagePlaybill_record {bs : List Byte} (host : x.origin = .host f) (none_ : (s.fn f).events = [])
    (there : s.playbillWhole (logPart x.entry) = some bs) (within : logOffset x.entry ≤ bs.length) : Does (.getLogPagePlaybill c) s fun t =>
      EndedWith t c x (Cpl.data (logBytes x.entry bs)) ∧ t.SameStores s := by
  have read := State.readBill_moves (logPart x.entry) s
  obtain ⟨t, -, run, ended, -, same⟩ := getLogPage_returns hand ((execGetLogPagePlaybill_part hand part).trans (by rw [there]; rfl))
    (read.only .ctxs (by decide)) ⟨read.only .names (by decide), read.only .prot (by decide), read.only .nor (by decide)⟩ host
    (by rw [read.fn (by decide) (by decide), none_]) within
  exact ⟨t, run, ended, same⟩

end

end

/-- Settles O27: the clauses of each page, in the statement's order. -/
theorem logCommands : Obligations.LogCommands :=
  ⟨fun _ _ _ _ => getLogPageErrorInformation_returns, fun _ _ _ _ => getLogPageSmartHealth_returns,
    fun _ _ _ _ => getLogPageCommandsSupported_returns,
    fun _ _ _ _ => getLogPageAna_starts,
    fun _ _ _ _ => getLogPagePlaybill_directory,
    fun _ _ _ _ hand _ _ part missing => getLogPagePlaybill_noRecord hand part missing,
    fun s _ _ _ hand host none_ part within =>
      wholeLog_returns (page := State.promptPage) hand rfl host none_ part (within.trans s.promptPage_length),
    fun _ _ _ _ hand _ _ part => wholeLog_otherPart (page := State.promptPage) hand rfl part,
    fun _ _ _ _ hand host none_ part within =>
      wholeLog_returns (page := State.sledHealth) hand rfl host none_ part within,
    fun _ _ _ _ hand host none_ part within =>
      wholeLog_returns (page := fun s => (fins 32).flatMap s.inventory) hand rfl host none_ part within,
    fun _ _ _ _ _ hand host none_ part there within => by
      obtain ⟨t, run, ended, names, prot, -⟩ := getLogPagePlaybill_record hand part host none_ there within
      exact ⟨t, run, ended, names, prot⟩,
    fun _ _ _ _ hand _ _ part => wholeLog_otherPart (page := State.sledHealth) hand rfl part,
    fun _ _ _ _ hand _ _ part => wholeLog_otherPart (page := fun s => (fins 32).flatMap s.inventory) hand rfl part,
    fun _ _ _ _ hand host _ _ past => getLogPageErrorInformation_past hand host past⟩

end Sys2Proof.Machine
end

section
/-! SUPPORT. Runs (spec/95): a command leaves the queue as it was, and no step stops. -/

namespace Sys2Proof.Machine

/-- No command changes the queue. -/
theorem pending_notMem_touches (i : Instr) : Part.pending ∉ touches i := by
  have unlisted : (touches i).contains .pending = false := by cases i <;> rfl
  simpa using unlisted

/-- Settles O58: what every command moves is within the parts that touches lists for it, and the queue is in no list. -/
theorem everyCommandCompletes : Obligations.EveryCommandCompletes := fun i s => by
  obtain ⟨t, run, moves⟩ := exec_moves i s
  obtain ⟨sent, outs⟩ := moves.outs
  exact ⟨t, run, moves.only, moves.time, ⟨sent, outs.symm⟩, moves.only .pending (pending_notMem_touches i)⟩

/-- An empty queue idles, and the front command of another completes. -/
theorem goesOn_always (s : State) : goesOn s := by
  unfold goesOn step
  split
  · exact ⟨_, rfl⟩
  next c rest _ =>
    obtain ⟨t, run, -⟩ := exec_moves c { s with pending := rest }
    exact ⟨t, run⟩

/-- Settles O56, by induction on the number of steps. -/
theorem neverStops : Obligations.NeverStops := by
  intro n
  induction n with
  | zero => exact fun _ => trivial
  | succ n ih =>
    intro s
    obtain ⟨t, run⟩ := goesOn_always s
    exact ⟨t, run, ih t⟩

/-- Settles O1: the step of a queue with a front command is that command. -/
theorem stepRunsTheFrontCommand : Obligations.StepRunsTheFrontCommand := fun _ _ _ => rfl

/-- Settles O3: no row of the table gives bits. -/
theorem tableWordsSpellNothing : Obligations.TableWordsSpellNothing := fun _ _ _ => ⟨rfl, rfl⟩

end Sys2Proof.Machine
end

section
/-! SUPPORT. Sparse byte buffers (spec/16 R592; spec/19 R669): what a write reads back as. -/

namespace Sys2Proof.Machine

/-- Below its first entry a canonical buffer reads 0. -/
theorem bufGet_below {l : List Host.Cell} {x : Nat} (canonical : bufWf l = true) (below : ∀ q ∈ l.head?, x < q.1) : bufGet l x = 0 := by
  induction l with
  | nil => rfl
  | cons y r ih =>
    obtain ⟨a, b⟩ := y
    obtain ⟨-, rising, rest⟩ := bufWf_cons.mp canonical
    have first : x < a := below _ rfl
    rw [bufGet, if_neg (by omega)]
    exact ih rest fun q h => first.trans (rising q h)

theorem bufGet_bufPut_same {l : List Host.Cell} (canonical : bufWf l = true) (x : Nat) (v : Byte) : bufGet (bufPut l x v) x = v := by
  have head (r : List Host.Cell) : bufGet ((x, v) :: r) x = v := if_pos rfl
  induction l with
  | nil =>
    rw [bufPut]
    split
    next zero => rw [zero]; rfl
    · exact head []
  | cons y r ih =>
    obtain ⟨a, b⟩ := y
    obtain ⟨-, rising, rest⟩ := bufWf_cons.mp canonical
    rw [bufPut]
    split
    next below =>
      split
      next zero => rw [zero]; exact bufGet_below canonical fun q h => by cases h; exact below
      · exact head _
    next =>
      split
      next here =>
        split
        next zero => rw [zero]; exact bufGet_below rest (here ▸ rising)
        · exact head _
      next elsewhere =>
        rw [bufGet, if_neg (Ne.symm elsewhere)]
        exact ih rest

theorem bufGet_bufPut_other {x y : Nat} (other : y ≠ x) (l : List Host.Cell) (v : Byte) : bufGet (bufPut l x v) y = bufGet l y := by
  have skip (r : List Host.Cell) : bufGet ((x, v) :: r) y = bufGet r y := if_neg (Ne.symm other)
  induction l with
  | nil =>
    rw [bufPut]
    split
    · rfl
    · exact skip []
  | cons e r ih =>
    obtain ⟨a, b⟩ := e
    rw [bufPut]
    split
    · split
      · rfl
      · exact skip _
    · split
      next here =>
        have past : bufGet ((a, b) :: r) y = bufGet r y := if_neg (here ▸ Ne.symm other)
        rw [past]
        split
        · rfl
        · exact skip r
      next => rw [bufGet, bufGet, ih]

theorem bufGet_bufWrite_outside {bs : List Byte} {l : List Host.Cell} {off x : Nat} (canonical : bufWf l = true)
    (outside : x < off ∨ off + bs.length ≤ x) : bufGet (bufWrite l off bs) x = bufGet l x := by
  induction bs generalizing l off with
  | nil => rfl
  | cons b bs ih =>
    simp only [List.length_cons] at outside
    rw [bufWrite, ih (bufPut_wf l off b canonical) (by omega), bufGet_bufPut_other (by omega)]

theorem bufGet_bufWrite_within {bs : List Byte} {l : List Host.Cell} {off i : Nat} (canonical : bufWf l = true) (within : i < bs.length) :
    bufGet (bufWrite l off bs) (off + i) = bs.getD i 0 := by
  induction bs generalizing l off i with
  | nil => cases within
  | cons b bs ih =>
    have kept := bufPut_wf l off b canonical
    cases i with
    | zero => rw [bufWrite, bufGet_bufWrite_outside kept (.inl (by omega)), Nat.add_zero, bufGet_bufPut_same canonical]; rfl
    | succ i =>
      rw [bufWrite, show off + (i + 1) = off + 1 + i by omega, ih kept (by simpa using within)]
      rfl

/-- Settles O55. -/
theorem bufferReadsBack : Obligations.BufferReadsBack :=
  ⟨fun l off bs => bufWrite_wf bs l off, fun _ _ _ _ => bufGet_bufWrite_within, fun _ _ _ _ => bufGet_bufWrite_outside⟩

end Sys2Proof.Machine
end

section
/-! SUPPORT. The status window (spec/11 R409; spec/14 R523 to R536; spec/19 R678): one access carried out, hung, or kept waiting, and what
an access leaves of the ports and the crossings. -/

namespace Sys2Proof.Machine

theorem ofLe_leBytes (n v : Nat) : ofLe (leBytes n v) = v % 256 ^ n := by
  induction n generalizing v with
  | zero => simp [leBytes, ofLe, Nat.mod_one]
  | succ n ih => rw [leBytes, ofLe, ih, BitVec.toNat_ofNat, show 256 ^ (n + 1) = 256 * 256 ^ n from Nat.pow_succ', Nat.mod_mul]


theorem upd_self {α : Type} {n : Nat} (v : Vector α n) (i : Fin n) : upd v i (fun x => x) = v := Vector.set_getElem_self _

theorem State.modPort_self (p : PortId) (s : State) : s.modPort p (fun x => x) = s := by
  rw [State.modPort, upd_self]

/-! ## Registers -/

/-- No _LO register is an RC field. -/
theorem State.clearRc_isLo {off : Nat} (lo : isLo off = true) (s : State) : s.clearRc (regAt off) = s := by
  unfold isLo at lo
  obtain listed | port := Bool.or_eq_true_iff.mp lo
  · simp only [List.contains_eq_mem, List.mem_cons, List.not_mem_nil, or_false, decide_eq_true_eq] at listed
    obtain rfl | rfl | rfl | rfl | rfl | rfl | rfl | rfl := listed <;> rfl
  · split at port
    next p o at_ =>
      rw [at_, eq_of_beq port]
      exact State.modPort_self p s
    · cases port

/-- Of the crossings an RC field clears its count alone. -/
theorem State.clearRc_xing (r : RegAt) (s : State) :
    (s.clearRc r).xing = { s.xing with discards := if r = .xing 0x0C then 0 else s.xing.discards } := by
  cases r with
  | xing o => by_cases h : o = 0x0C <;> simp [State.clearRc, h]
  | _ => simp [State.clearRc, apply_ite State.xing]

theorem State.clearRc_joint (r : RegAt) (s : State) (p : PortId) : ((s.clearRc r).port p).joint = (s.port p).joint := by
  cases r with
  | port q o =>
    rw [State.clearRc, State.modPort_port]
    by_cases same : p = q
    · simp [same, apply_ite Port.joint]
    · rw [if_neg same]
  | _ => rw [State.port_of_ports (s := s) (by simp [State.clearRc, apply_ite State.ports])]

/-- A write reaches of a port its events alone. -/
theorem State.writeReg_port (r : RegAt) (v : W32) (s : State) (p : PortId) : (s.writeReg r v).port p =
    { s.port p with events := if r = .port p 0x04 then w1c (s.port p).events v else (s.port p).events } := by
  cases r with
  | port q o =>
    by_cases h : o = 0x04
    · by_cases same : p = q
      · simp [State.writeReg, h, same]
      · simp [State.writeReg, h, same, Ne.symm same]
    · simp [State.writeReg, h]
  | _ =>
    rw [State.port_of_ports (s := s) (by simp [State.writeReg, apply_ite State.ports, apply_dite State.ports])]
    simp

theorem State.writeReg_stalePort (r : RegAt) (v : W32) (s : State) : (s.writeReg r v).xing.stalePort = s.xing.stalePort := by
  cases r with
  | xing o => by_cases h : o = 0x08 <;> simp [State.writeReg, h]
  | _ => simp [State.writeReg, apply_ite State.xing, apply_dite State.xing]

/-! ## One access (R532) -/

section
variable {s : State} {q : Req} {off : Nat}

theorem State.readReg_captured {c : Req × Nat × W32} (aligned : off % 4 = 0)
    (there : (s.xing.captured.find? fun c => c.1 == q && c.2.1 == off) = some c) : s.readReg q off =
      (s.modXing fun x => { x with captured := x.captured.filter fun c => !(c.1 == q && c.2.1 == off) }, c.2.2) := by
  have start : off / 4 * 4 = off := by omega
  rw [State.readReg, start, there]

/-- The _HI register's value is kept for the requester of a _LO register. -/
def State.captureHi (q : Req) (off : Nat) (s : State) : State := s.when (isLo off) fun s => s.modXing fun x => { x with
  captured := (q, off + 4, s.regWord (regAt (off + 4))) :: x.captured.filter fun c => !(c.1 == q && c.2.1 == off + 4) }

theorem State.captureHi_moves (q : Req) (off : Nat) (s : State) : s.Moves [.xing] (s.captureHi q off) :=
  Moves.when (fun u h => Moves.op (State.modXing_moves _ u) (by decide) h) (Moves.refl _ s)

theorem State.readReg_current (aligned : off % 4 = 0)
    (none_ : (s.xing.captured.find? fun c => c.1 == q && c.2.1 == off) = none) :
    s.readReg q off = ((s.captureHi q off).clearRc (regAt off), s.regWord (regAt off)) := by
  have start : off / 4 * 4 = off := by omega
  rw [State.readReg, start, none_]
  rfl

theorem State.readRun_one (q : Req) (off : Nat) (s : State) :
    s.readRun q none [off] = ((s.readReg q off).1, leBytes 4 (s.readReg q off).2.toNat) := by
  simp only [State.readRun]
  cases regAt off <;> simp

/-- A read that neither waits nor hangs answers its requester with the value of the register. -/
theorem State.access_reads (free : (s.xing.hung.any fun h => h.who == q) = false) (running : s.stopped off = none) :
    s.access none { who := q, off := off, write := none, packet := none } =
      (s.readReg q off).1.emitOut (.value q off (s.readReg q off).2) := by
  have value (v : W32) : BitVec.ofNat 32 (ofLe (leBytes 4 v.toNat)) = v := by
    rw [ofLe_leBytes, Nat.mod_eq_of_lt (show v.toNat < 256 ^ 4 from v.isLt), BitVec.ofNat_toNat, BitVec.setWidth_eq]
  rw [State.access, if_neg (by simp [free]), if_neg (by simp [Hung.regs, running])]
  simp only [State.perform, Hung.regs, State.readRun_one, value]

/-- A write that neither waits nor hangs is carried out. -/
theorem State.access_writes (free : (s.xing.hung.any fun h => h.who == q) = false) (running : s.stopped off = none) (v : W32) :
    s.access none { who := q, off := off, write := some v, packet := none } = s.writeReg (regAt off) v := by
  rw [State.access, if_neg (by simp [free]), if_neg (by simp [Hung.regs, running])]
  rfl

theorem State.access_hangs {h : Hung} (free : (s.xing.hung.any fun g => g.who == h.who) = false) {p : PortId} (off_ : h.regs = [off])
    (stopped : s.stopped off = some p) (zero : Option PortId) : s.access zero h = s.modXing fun x => { x with hung := x.hung ++ [h] } := by
  rw [State.access, if_neg (by simp [free]), if_pos (by simp [off_, stopped])]

theorem State.access_waits {h : Hung} (held : (s.xing.hung.any fun g => g.who == h.who) = true) (zero : Option PortId) :
    s.access zero h = s.modXing fun x => { x with behind := x.behind ++ [h] } := by
  rw [State.access, if_pos held]

end

/-! ## What no access changes of the link domains -/

/-- The stale bits and the joint resets of the ports. -/
def State.links (s : State) : W32 × (PortId → Bool) := (s.xing.stalePort, fun p => (s.port p).joint)

theorem State.clearRc_links (r : RegAt) (s : State) : (s.clearRc r).links = s.links := by
  simp only [State.links, State.clearRc_xing, State.clearRc_joint]

theorem State.writeReg_links (r : RegAt) (v : W32) (s : State) : (s.writeReg r v).links = s.links := by
  simp only [State.links, State.writeReg_stalePort, State.writeReg_port]

theorem State.readReg_links (q : Req) (off : Nat) (s : State) : (s.readReg q off).1.links = s.links := by
  unfold State.readReg
  extract_lets start
  split
  · rfl
  · refine (State.clearRc_links (regAt start) (s.captureHi q start)).trans ?_
    unfold State.captureHi State.when
    split <;> rfl

theorem State.readRun_links (q : Req) (zero : Option PortId) (l : List Nat) (s : State) : (s.readRun q zero l).1.links = s.links := by
  induction l generalizing s with
  | nil => rfl
  | cons off l ih =>
    unfold State.readRun
    extract_lets zeroed r t
    refine (ih r.1).trans ?_
    simp only [r]
    split
    · rfl
    · exact State.readReg_links q off s

theorem State.replied_links (f : Service → Service) (o : Out) (s : State) : ((s.modSvc f).emitOut o).links = s.links := rfl

theorem State.perform_links (zero : Option PortId) (h : Hung) (s : State) : (s.perform zero h).links = s.links := by
  unfold State.perform
  split
  · exact (State.replied_links _ _ _).trans (State.writeReg_links _ _ s)
  · exact State.writeReg_links _ _ s
  · exact (State.replied_links _ _ _).trans (State.readRun_links _ _ _ s)
  · exact State.readRun_links _ _ _ s

theorem State.access_links (zero : Option PortId) (h : Hung) (s : State) : (s.access zero h).links = s.links := by
  unfold State.access
  split
  · rfl
  · split
    · rfl
    · exact State.perform_links zero h s

theorem State.endHung_links (p : PortId) (zero : Bool) (s : State) : (s.endHung p zero).links = s.links := by
  unfold State.endHung
  extract_lets mine done waits u
  rw [State.each_keeps State.links (fun h => State.access_links none h), State.each_keeps State.links (fun h => State.access_links _ h)]
  rfl

/-- Where nothing hangs, a link domain that is back ends nothing. -/
theorem State.endHung_none {s : State} (none_ : s.xing.hung = []) (p : PortId) (zero : Bool) : s.endHung p zero = s := by
  have same : (s.modXing fun x => { x with hung := [], behind := x.behind }) = s := by
    rw [← none_]
    rfl
  simpa [State.endHung, State.each, none_, State.modXing] using same

/-- The one access that hangs is carried out once the link domain that it waits for is back. -/
theorem State.endHung_one {s : State} {h : Hung} {p : PortId} {off o : Nat} (hung : s.xing.hung = [h]) (behind : s.xing.behind = [])
    (reads : h.regs = [off]) (at_ : regAt off = .port p o) (link : inLinkDomain o = true) (zero : Bool) : s.endHung p zero =
      (s.modXing fun x => { x with hung := [], behind := [] }).access (if zero then some p else none) h := by
  unfold State.endHung
  extract_lets mine done waits u
  have here : mine h = true := by simp [mine, reads, at_, link]
  have all : done = [h] := by simp [done, hung, here]
  have none_ : waits = [] := by simp [waits, behind]
  have left : u = s.modXing fun x => { x with hung := [], behind := [] } := by
    simp [u, State.modXing, hung, behind, here]
  rw [all, none_, left]
  rfl

/-- A register of a link domain whose clock runs, out of its joint reset and not stale, is read at once (R532). -/
theorem State.stopped_running {s : State} {p : PortId} {off o : Nat} (at_ : regAt off = .port p o) (clock : (s.port p).clock = true)
    (joint : (s.port p).joint = false) (fresh : s.isStale (.port p) = false) : s.stopped off = none := by
  simp [State.stopped, at_, State.clockRuns, clock, joint, fresh]

/-! ## Reads and writes of the window -/

section
variable {s : State} {q : Req} {off : Nat} (arrives : s.canAccess q off = true)
include arrives

theorem State.readOne_arrives : s.readOne q off = s.access none { who := q, off := off, write := none, packet := none } := if_pos arrives

theorem State.readOne_waits (held : (s.xing.hung.any fun h => h.who == q) = true) : s.readOne q off =
    s.modXing fun x => { x with behind := x.behind ++ [{ who := q, off := off, write := none, packet := none }] } := by
  rw [State.readOne_arrives arrives, State.access_waits held]

variable (free : (s.xing.hung.any fun h => h.who == q) = false)
include free

theorem State.readOne_hangs {p : PortId} (stopped : s.stopped off = some p) : s.readOne q off =
    s.modXing fun x => { x with hung := x.hung ++ [{ who := q, off := off, write := none, packet := none }] } := by
  rw [State.readOne_arrives arrives, State.access_hangs free rfl stopped]

variable (running : s.stopped off = none)
include running

theorem statusWindowWrite_runs (v : W32) : exec (.statusWindowWrite q off v) s = .next (s.writeReg (regAt off) v) := by
  show execStatusWindowWrite q off v s = _
  rw [execStatusWindowWrite, if_pos arrives, State.access_writes free running]

variable (aligned : off % 4 = 0)
include aligned

theorem State.readOne_captured {v : W32} (there : (s.xing.captured.find? fun c => c.1 == q && c.2.1 == off) = some (q, off, v)) :
    s.readOne q off = (s.modXing fun x => { x with
      captured := x.captured.filter fun c => !(c.1 == q && c.2.1 == off) }).emitOut (.value q off v) := by
  rw [State.readOne_arrives arrives, State.access_reads free running, State.readReg_captured aligned there]

variable (none_ : (s.xing.captured.find? fun c => c.1 == q && c.2.1 == off) = none)
include none_

theorem State.readOne_current : s.readOne q off =
    ((s.captureHi q off).clearRc (regAt off)).emitOut (.value q off (s.regWord (regAt off))) := by
  rw [State.readOne_arrives arrives, State.access_reads free running, State.readReg_current aligned none_]

/-- A read of a register answers with its value and clears the count that it returned (R523, R524). -/
theorem rcRegisterRead_current : Does (.rcRegisterRead q off) s fun t => t.out = .value q off (s.regWord (regAt off)) :: s.out ∧
    (regAt off = .xing 12 → t.xing.discards = 0) ∧ (regAt off = .recorder 40 → t.book.drops = 0) ∧ t.acts = s.acts ∧ t.names = s.names := by
  have moves := Moves.op (State.clearRc_moves (regAt off) _) (by decide) (Moves.op (State.captureHi_moves q off s)
    (l := [.book, .ports, .chorus, .mem, .mcache, .xing, .pair]) (by decide) (Moves.refl _ s))
  refine ⟨_, congrArg Host.Outcome.next (State.readOne_current arrives free running aligned none_), ?_, fun count => ?_, fun count => ?_,
    moves.only .acts (by decide), moves.only .names (by decide)⟩
  · exact congrArg _ (moves.only .out (by decide))
  · rw [State.emitOut_xing, State.clearRc_xing, if_pos count]
  · rw [count]
    rfl

/-- A read of a _LO register captures its _HI (R525). -/
theorem loRegisterRead_captures (lo : isLo off = true) : Does (.loRegisterRead q off) s fun t =>
    t.out = .value q off (s.regWord (regAt off)) :: s.out ∧
    t.xing.captured.head? = some (q, off + 4, s.regWord (regAt (off + 4))) ∧ t.ports = s.ports ∧ t.names = s.names := by
  have captures : s.captureHi q off = s.modXing fun x => { x with
      captured := (q, off + 4, s.regWord (regAt (off + 4))) :: x.captured.filter fun c => !(c.1 == q && c.2.1 == off + 4) } := by
    rw [State.captureHi, lo]
    rfl
  refine ⟨_, congrArg Host.Outcome.next (State.readOne_current arrives free running aligned none_), ?_⟩
  rw [State.clearRc_isLo lo, captures]
  exact ⟨rfl, rfl, rfl, rfl⟩

/-- A read of another register captures nothing. -/
theorem hiRegisterRead_current (lo : isLo off = false) : Does (.hiRegisterRead q off) s fun t =>
    t.out = .value q off (s.regWord (regAt off)) :: s.out ∧ t.xing.captured = s.xing.captured ∧ t.names = s.names := by
  have captures : s.captureHi q off = s := by
    rw [State.captureHi, lo]
    rfl
  have moves := State.clearRc_moves (regAt off) s
  refine ⟨_, congrArg Host.Outcome.next (State.readOne_current arrives free running aligned none_), ?_⟩
  rw [captures]
  refine ⟨congrArg _ (moves.only .out (by decide)), ?_, moves.only .names (by decide)⟩
  rw [State.emitOut_xing, State.clearRc_xing]

end

/-- What has been captured is answered once (R525). -/
theorem hiRegisterRead_captured {s : State} {q : Req} {off : Nat} {v : W32} (arrives : s.canAccess q off = true)
    (free : (s.xing.hung.any fun h => h.who == q) = false) (running : s.stopped off = none) (aligned : off % 4 = 0)
    (there : (s.xing.captured.find? fun c => c.1 == q && c.2.1 == off) = some (q, off, v)) : Does (.hiRegisterRead q off) s fun t =>
      t.out = .value q off v :: s.out ∧ (t.xing.captured.find? fun c => c.1 == q && c.2.1 == off) = none ∧ t.ports = s.ports ∧
      t.names = s.names := by
  refine ⟨_, congrArg Host.Outcome.next (State.readOne_captured arrives free running aligned there), rfl, ?_, rfl, rfl⟩
  refine List.find?_eq_none.mpr fun c kept hit => ?_
  have other := (List.mem_filter.mp kept).2
  rw [hit] at other
  cases other

/-! ## Joint resets (R534 to R536) -/

/-- The port out of its joint reset, its crossing no longer stale. -/
def State.jointOver (p : PortId) (s : State) : State :=
  (s.modPort p fun x => { x with joint := false }).modXing fun x => { x with stalePort := clearBit x.stalePort p.val }

theorem State.jointOver_links (p : PortId) (s : State) :
    (s.jointOver p).xing.stalePort = clearBit s.xing.stalePort p.val ∧ ((s.jointOver p).port p).joint = false := by
  simp [State.jointOver]

section
variable {s : State} {p : PortId} (held : (s.port p).joint = true) (clock : (s.port p).clock = true)
include held clock

theorem jointResetRelease_runs : exec (.jointResetRelease p) s = .next ((s.jointOver p).endHung p true) :=
  congrArg Host.Outcome.next (if_pos ⟨held, clock⟩)

theorem jointResetRelease_ends : Does (.jointResetRelease p) s fun t => (t.port p).joint = false ∧
    t.xing.stalePort = clearBit s.xing.stalePort p.val ∧ (s.xing.hung = [] → t = s.jointOver p) := by
  have links := State.endHung_links p true (s.jointOver p)
  obtain ⟨stale, joint⟩ := State.jointOver_links p s
  exact ⟨_, jointResetRelease_runs held clock, (congrFun (congrArg Prod.snd links) p).trans joint, (congrArg Prod.fst links).trans stale,
    fun none_ => State.endHung_none (s := s.jointOver p) none_ p true⟩

/-- A read of a count of the port that hung on its clock reads 0, for the joint reset has cleared the count, and clears nothing (R534). -/
theorem jointResetRelease_hungRead {q : Req} {off : Nat} (count : regAt off = .port p 0x20)
    (hung : s.xing.hung = [{ who := q, off := off, write := none, packet := none }]) (behind : s.xing.behind = []) :
    Does (.jointResetRelease p) s fun t => t.out = .value q off 0 :: s.out ∧ t.xing.hung = [] ∧
      (t.port p).smpCorr = (s.port p).smpCorr := by
  let u := (s.jointOver p).modXing fun x => { x with hung := [], behind := [] }
  have running : u.stopped off = none :=
    State.stopped_running count (by simp [u, State.jointOver, clock]) (State.jointOver_links p s).2 (clearBit_get _ _)
  have read : u.access (some p) { who := q, off := off, write := none, packet := none } = u.emitOut (.value q off 0) := by
    have link : inLinkDomain 0x20 = true := rfl
    rw [State.access, if_neg (by simp [u]), if_neg (by simp [Hung.regs, running])]
    simp [State.perform, Hung.regs, State.readRun, count, link, leBytes, ofLe]
  have ends : (s.jointOver p).endHung p true = u.emitOut (.value q off 0) :=
    (State.endHung_one (s := s.jointOver p) hung behind rfl count rfl true).trans read
  refine ⟨_, jointResetRelease_runs held clock, ?_⟩
  rw [ends]
  exact ⟨rfl, rfl, by simp [u, State.jointOver]⟩

end

/-! ## The statement on the crossings -/

/-- Settles O16. -/
theorem crossingCommands : Obligations.CrossingCommands := by
  refine ⟨?_, ?_, ?_, ?_, ?_, ?_, ?_, ?_, ?_⟩
  · intro s q off arrives free running aligned none_
    obtain ⟨t, run, out, discards, drops, acts, names⟩ := rcRegisterRead_current arrives free running aligned none_
    exact ⟨t, run, congrArg List.head? out, congrArg List.length out, discards, drops, acts, names⟩
  · intro s q off arrives free running aligned lo none_
    obtain ⟨t, run, out, head, ports, names⟩ := loRegisterRead_captures arrives free running aligned none_ lo
    obtain ⟨l, captured⟩ := List.head?_eq_some_iff.mp head
    refine ⟨t, run, congrArg List.head? out, ?_, ports, names⟩
    simp [captured]
  · intro s q off v arrives free running aligned there
    obtain ⟨t, run, out, rest⟩ := hiRegisterRead_captured arrives free running aligned there
    exact ⟨t, run, congrArg List.head? out, rest⟩
  · intro s q off arrives free running aligned lo none_
    obtain ⟨t, run, out, rest⟩ := hiRegisterRead_current arrives free running aligned none_ lo
    exact ⟨t, run, congrArg List.head? out, rest⟩
  · intro s q off p arrives free stopped
    exact ⟨_, congrArg Host.Outcome.next (State.readOne_hangs arrives free stopped), rfl, rfl, rfl⟩
  · intro s q off arrives held
    exact ⟨_, congrArg Host.Outcome.next (State.readOne_waits arrives held), rfl, rfl, rfl, rfl⟩
  · intro s q off v arrives free running
    refine ⟨_, statusWindowWrite_runs arrives free running v, rfl, (State.writeReg_moves _ _ s).only .out (by decide), fun p events => ?_,
      fun p => by rw [State.writeReg_port]⟩
    rw [State.writeReg_port, if_pos events]
  · intro s p held clock
    obtain ⟨t, run, joint, stale, rest⟩ := jointResetRelease_ends held clock
    refine ⟨t, run, joint, stale, fun none_ => ?_⟩
    rw [rest none_]
    exact ⟨rfl, fun r other => by simp [State.jointOver, other]⟩
  · intro s p q off held clock count aligned hung behind
    obtain ⟨t, run, out, rest⟩ := jointResetRelease_hungRead held clock count hung behind
    exact ⟨t, run, congrArg List.head? out, rest⟩

end Sys2Proof.Machine
end

section
/-! SUPPORT. A map cache in use while the device is in thermal hardware shutdown (spec/13 R513, R515; spec/15 R555). -/

namespace Sys2Proof.Machine

/-- The device held in thermal hardware shutdown, its map cache enabled. -/
def State.shutCache : State :=
  { State.reset with aon := { Aon.reset with hold := .shutdown }, mcache := { MapCache.reset with enabled := true } }

/-- In hardware shutdown the loss of SYS_PWROK resets nothing. -/
theorem sysPwrokDeassert_shutCache : Does .sysPwrokDeassert State.shutCache fun t => t.mcache.enabled = true := ⟨_, rfl, rfl⟩

/-- Refutes O52: its clause on the loss of SYS_PWROK leaves out the power-on reset alone, and so speaks of hardware shutdown too, where the
device stays as it is (R555) and a cache that is enabled, as in the state here, is enabled still. -/
theorem not_cacheEnableNeedsInvalidateAll : ¬ Obligations.CacheEnableNeedsInvalidateAll := by
  intro h
  obtain ⟨_, _, _, _, _, deassert⟩ := h
  obtain ⟨t, run, -, off, -⟩ := deassert State.shutCache (by decide)
  obtain ⟨u, run', on⟩ := sysPwrokDeassert_shutCache
  cases Host.Outcome.next.inj (run.symm.trans run')
  rw [on] at off
  cases off

end Sys2Proof.Machine
end

section
/-! SUPPORT. A companion update that finds a calibration break of the service port's on its port (spec/19 R668, R671; spec/08 R305). -/

namespace Sys2Proof.Machine

/-- An entry of no opcode. -/
def blankEntry : SqEntry :=
  { opcode := 0, cid := 0, nsid := 0, prp1 := 0, prp2 := 0, cdw10 := 0, cdw11 := 0, cdw12 := 0, cdw13 := 0, cdw14 := 0, cdw15 := 0, data := [] }

/-- A break that the command of context 7 asked for. -/
def askedBreak : Break :=
  { head := 0, zone := 0, tb := 0, pass := 1, at_ := 0, reqAt := 0, kind := .host 7, base := Five.ofFn id, chosen := Five.ofFn id, failed := false
    unwritten := [], begun := false }

/-- The owner of the ports, each trained and obeyed, with side 0 of port 0 loaded, in a calibration break that a command of the service
port waits for, and the service port taken for free. -/
def State.breakAsked : State :=
  { State.reset with
    aon := { Aon.reset with hold := .running }
    boot := { Boot.reset with released := true }
    pair := { Pair.reset with mode := true, st := .solo, own := 0xFFFFFFFF }
    ports := Vector.replicate 32 { Port.reset with train := 9, obeyed := true }
    acts := upd State.reset.acts 0 fun x => { x with loaded := true }
    actCals := upd State.reset.actCals 0 fun x => { x with brk := some askedBreak }
    ctxs := [Ctx.fresh 7 0 (.service 2) 0 blankEntry .none] }

/-- The break ends with its command, whose reply frees the service port. -/
theorem compFw_breakAsked : Does (.compFw 9 0 false true 500 5) State.breakAsked fun t => t.svc.busy = none := ⟨_, rfl, by decide +kernel⟩

/-- Refutes O54: its clause on the owner holds the service port taken by the update in every state. In the state here a calibration break on
the port has a command of the service port waiting for it, though the port counts as free: taking the port out ends the break, and the reply
to its command frees the service port again. -/
theorem not_compFwNeedsTheOwner : ¬ Obligations.CompFwNeedsTheOwner := by
  intro h
  obtain ⟨t, run, -, taken⟩ := h.2 State.breakAsked 9 0 false 500 5 (by decide) rfl (by decide) rfl (by decide) (by decide) (by decide)
    (by decide) (by decide) (by decide +kernel) (by decide +kernel)
  obtain ⟨u, run', free⟩ := compFw_breakAsked
  cases Host.Outcome.next.inj (run.symm.trans run')
  rw [free] at taken
  cases taken

end Sys2Proof.Machine
end

section
/-! SUPPORT. The Prompt Book (spec/17 R600 to R617): what a record, a fold and a drop leave of the recorder, and the limit of R604. -/

namespace Sys2Proof.Machine

/-! ## Taking events (R600 to R604) -/

theorem eventRecord_takes {s : State} {i : Nat} {e : Event} (ready : s.book.ready = true) (waits : s.book.inbox[i]? = some e) :
    execEventRecord i s =
      .next ((s.modBook fun b => { b with inbox := dropAt i b.inbox }).take { e with uptime := s.uptime }) := by
  rw [execEventRecord, if_pos ready, waits]

theorem Record.same_later (r : Record) (e : Event) (n : Nat) : r.same { e with uptime := n } = r.same e := rfl

/-- With no record open every event is a new one. -/
theorem State.take_closed {s : State} (closed : s.book.isOpen = false) (e : Event) : s.take e = s.takeNew e := by
  have shut : s.recOpen = false := by rw [State.recOpen, closed, Bool.false_and]
  unfold State.take
  split <;> simp [shut]

theorem State.takeHeld_closed {s : State} (closed : s.book.isOpen = false) (e : Event) : s.takeHeld e = s.writeRecord e := by
  have shut : s.recOpen = false := by rw [State.recOpen, closed, Bool.false_and]
  unfold State.takeHeld
  split <;> simp [shut]

/-- An event like the open record folds into it. -/
theorem State.take_folds {s : State} {e : Event} {r : Record} {l : List Record} (ring : s.book.ring = r :: l) (opened : s.book.isOpen = true)
    (single : s.book.inChain = false) (soon : s.now < s.book.openAt + Config.sec) (same : r.same e = true) :
    s.take e = (s.modBook fun b => { b with ring := r.fold e :: l }).noteSeq e r.seq := by
  unfold State.take
  rw [ring]
  exact if_pos ⟨by simp [State.recOpen, opened, soon], by simp [single], same⟩

theorem State.noteSeq_book (e : Event) (n : Nat) (s : State) : (s.noteSeq e n).book = s.book :=
  (State.noteSeq_moves e n s).only .book (by decide)

/-- The counts of the limit and the drops, and the marks of the store, which no record changes. -/
structure State.SameLimit (s t : State) : Prop where
  newAt : t.book.newAt = s.book.newAt := by rfl
  drops : t.book.drops = s.book.drops := by rfl
  winDrops : t.book.winDrops = s.book.winDrops := by rfl
  winEnd : t.book.winEnd = s.book.winEnd := by rfl
  norSeq : t.book.norSeq = s.book.norSeq := by rfl
  afterPowerOn : t.aon.afterPowerOn = s.aon.afterPowerOn := by rfl

theorem State.SameLimit.trans {s t u : State} (a : s.SameLimit t) (b : t.SameLimit u) : s.SameLimit u where
  newAt := b.newAt.trans a.newAt
  drops := b.drops.trans a.drops
  winDrops := b.winDrops.trans a.winDrops
  winEnd := b.winEnd.trans a.winEnd
  norSeq := b.norSeq.trans a.norSeq
  afterPowerOn := b.afterPowerOn.trans a.afterPowerOn

theorem State.pushChain_sameLimit (e : Event) (l : List (BitVec 256)) (s : State) : s.SameLimit (s.pushChain e l) := by
  induction l generalizing s with
  | nil => exact {}
  | cons p rest more => exact State.SameLimit.trans {} (more _)

theorem State.writeRecord_sameLimit (e : Event) (s : State) : s.SameLimit (s.writeRecord e) := by
  have chain := State.pushChain_sameLimit e (e.payload.drop 1)
  unfold State.writeRecord
  exact ⟨(chain _).newAt, (chain _).drops, (chain _).winDrops, (chain _).winEnd, (chain _).norSeq,
    (chain _).afterPowerOn⟩

/-- The record that an event of one payload becomes. -/
def State.recordOf (e : Event) (s : State) : Record :=
  { seq := s.book.nextSeq, boot := e.boot, uptime := e.uptime, cls := e.cls, code := e.code, source := e.source
    payload := e.payload.headD 0, repeats := 0, flags := startFlags e.held false, lastDelta := 0, valid := true }

/-- An event of one payload is the newest record, and open. -/
theorem State.writeRecord_one {e : Event} (one : e.payload.length ≤ 1) (s : State) :
    s.writeRecord e = (s.pushRecord (s.recordOf e)).modBook fun b => { b with isOpen := true, openAt := s.now, inChain := false } := by
  have rest : e.payload.drop 1 = [] := List.drop_eq_nil_of_le one
  unfold State.writeRecord
  rw [rest]
  rfl

/-- Within the limit the instants of the event's records are counted. -/
theorem State.takeNew_within {s : State} {e : Event} (room : s.newInMs.length + e.payload.length ≤ 200) :
    (s.takeNew e).book = { (s.writeRecord e).book with newAt := e.payload.map (fun _ => s.now) ++ s.newInMs } := by
  unfold State.takeNew
  dsimp only
  rw [if_pos room]
  exact congrArg (fun b : Recorder => { b with newAt := e.payload.map (fun _ => s.now) ++ s.newInMs }) (State.noteSeq_book _ _ _)

/-- Beyond it the event is dropped and counted. -/
theorem State.takeNew_beyond {s : State} {e : Event} (full : 200 < s.newInMs.length + e.payload.length) :
    s.takeNew e = s.modBook fun b => { b with
      winDrops := b.winDrops + 1, drops := sat32 b.drops 1, newAt := s.newInMs
      winEnd := if b.winDrops = 0 then s.newInMs.getLastD s.now + Config.ms else b.winEnd
      winFirst := if b.winDrops = 0 then e.uptime else b.winFirst } := by
  unfold State.takeNew
  dsimp only
  rw [if_neg (by omega)]

/-! ## What a new, a folded and a dropped event leave -/

section
variable {s : State} {i : Nat} {e : Event} (ready : s.book.ready = true) (waits : s.book.inbox[i]? = some e)
include ready waits

theorem eventRecord_within (closed : s.book.isOpen = false) (room : s.newInMs.length + e.payload.length ≤ 200) :
    Does (.eventRecord i) s fun t => t.book =
      { ((s.modBook fun b => { b with inbox := dropAt i b.inbox }).writeRecord { e with uptime := s.uptime }).book with
        newAt := e.payload.map (fun _ => s.now) ++ s.newInMs } := by
  refine ⟨_, eventRecord_takes ready waits, ?_⟩
  beta_reduce
  rw [State.take_closed (by exact closed), State.takeNew_within (by exact room)]
  rfl

theorem eventRecord_beyond (closed : s.book.isOpen = false) (full : 200 < s.newInMs.length + e.payload.length) :
    Does (.eventRecord i) s fun t => t = s.modBook fun b => { b with
      inbox := dropAt i b.inbox, winDrops := b.winDrops + 1, drops := sat32 b.drops 1, newAt := s.newInMs
      winEnd := if b.winDrops = 0 then s.newInMs.getLastD s.now + Config.ms else b.winEnd
      winFirst := if b.winDrops = 0 then s.uptime else b.winFirst } := by
  refine ⟨_, eventRecord_takes ready waits, ?_⟩
  beta_reduce
  rw [State.take_closed (by exact closed), State.takeNew_beyond (by exact full)]
  rfl

theorem eventRecord_folds {r : Record} {l : List Record} (ring : s.book.ring = r :: l) (opened : s.book.isOpen = true)
    (single : s.book.inChain = false) (soon : s.now < s.book.openAt + Config.sec) (same : r.same e = true) :
    Does (.eventRecord i) s fun t => t = (s.modBook fun b => { b with
      inbox := dropAt i b.inbox, ring := r.fold { e with uptime := s.uptime } :: l }).noteSeq { e with uptime := s.uptime } r.seq := by
  refine ⟨_, eventRecord_takes ready waits, ?_⟩
  exact State.take_folds (by exact ring) (by exact opened) (by exact single) (by exact soon) same
end

/-! ## The end of the 1 ms -/

/-- Two fields of 4 and 6 bytes, in range, packed. -/
theorem pack_four_six {a b : Nat} (ha : a < 2 ^ 32) (hb : b < 2 ^ 48) : pack [(4, a), (6, b)] = a + 2 ^ 32 * b := by
  simp only [pack]
  omega

/-- The report of a window's drops. -/
def State.dropReport (s : State) : Event :=
  (s.at_ s.book.winEnd).mkEvent 0x01 0x8003 noSource (pay [(4, s.book.winDrops), (6, s.book.winFirst)])

theorem dropWindowEnd_reports {s : State} (dropped : 0 < s.book.winDrops) (closed : s.book.isOpen = false) :
    Does (.dropWindowEnd) s fun t =>
      t = ((s.at_ s.book.winEnd).writeRecord s.dropReport).modBook fun b =>
        { b with winDrops := 0, newAt := (s.at_ s.book.winEnd).now :: (s.at_ s.book.winEnd).newInMs } := by
  refine ⟨_, rfl, ?_⟩
  dsimp only
  rw [if_neg (by omega), State.takeHeld_closed (by exact closed)]
  rfl

/-- The limit of R604, of new records, of folds, of drops and of the report. -/
theorem State.dropReport_payload {s : State} (few : s.book.winDrops < 2 ^ 32) (early : s.book.winFirst < 2 ^ 48) :
    s.dropReport.payload = [BitVec.ofNat 256 (s.book.winDrops + 2 ^ 32 * s.book.winFirst)] := by
  rw [← pack_four_six few early]
  rfl

/-- Settles O36: within the limit the records' instants are counted, a fold counts nothing, beyond the limit the event is counted as dropped,
and the end of the 1 ms writes the report as the newest record. -/
theorem recorderLimit : Obligations.RecorderLimit := by
  refine ⟨fun s i e ready waits closed room => ?_, fun s i e r l ready waits ring opened single soon same => ?_,
    fun s i e ready waits closed full => ?_, fun s dropped closed few early => ?_⟩
  · refine Does.imp (fun t book => ?_) (eventRecord_within ready waits closed room)
    have kept := State.writeRecord_sameLimit { e with uptime := s.uptime } (s.modBook fun b => { b with inbox := dropAt i b.inbox })
    rw [book]
    exact ⟨rfl, kept.drops, kept.winDrops⟩
  · refine Does.imp (fun t is => ?_) (eventRecord_folds ready waits ring opened single soon same)
    rw [is, State.noteSeq_book]
    exact ⟨rfl, rfl, rfl, rfl⟩
  · refine Does.imp (fun t is => ?_) (eventRecord_beyond ready waits closed full)
    subst is
    exact ⟨rfl, rfl, rfl, rfl, fun first => if_pos first⟩
  · refine Does.imp (fun t is => ?_) (dropWindowEnd_reports dropped closed)
    have payload := State.dropReport_payload few early
    rw [is, State.writeRecord_one (by rw [payload]; exact Nat.le_refl 1)]
    refine ⟨?_, rfl, rfl, rfl⟩
    show some ((1 : Byte), (0x8003 : BitVec 16), s.dropReport.payload.headD 0) = _
    rw [payload]
    rfl

/-- Of a command that runs, the parts that it does not name are as they were. -/
theorem Does.moved {i : Instr} {s : State} {P : State → Prop} (h : Does i s P) : Does i s fun t => P t ∧ s.Moves (touches i) t := by
  obtain ⟨t, run, p⟩ := h
  obtain ⟨u, run', m⟩ := exec_moves i s
  cases Host.Outcome.next.inj (run.symm.trans run')
  exact ⟨t, run, p, m⟩

/-! ## The store (R608, R609, R617) -/

theorem State.takeHeld_sameLimit (e : Event) (s : State) : s.SameLimit (s.takeHeld e) := by
  unfold State.takeHeld
  split
  · split
    · exact {}
    · exact State.writeRecord_sameLimit e s
  · exact State.writeRecord_sameLimit e s

theorem State.takeNoted_sameLimit (e : Event) (s : State) : s.SameLimit (s.takeNoted e) := by
  have held := State.takeHeld_sameLimit e s
  have same := State.noteSeq_book e ((s.takeHeld e).book.nextSeq - 1) (s.takeHeld e)
  have aon : ((s.takeHeld e).noteSeq e ((s.takeHeld e).book.nextSeq - 1)).aon = (s.takeHeld e).aon :=
    (State.noteSeq_moves e _ _).only .aon (by decide)
  unfold State.takeNoted
  exact ⟨by rw [same, held.newAt], by rw [same, held.drops], by rw [same, held.winDrops], by rw [same, held.winEnd],
    by rw [same, held.norSeq], by rw [aon, held.afterPowerOn]⟩

theorem State.each_sameLimit {α : Type} {f : α → State → State} (h : ∀ (x : α) (s : State), s.SameLimit (f x s)) (l : List α) (s : State) :
    s.SameLimit (s.each l f) :=
  State.each_inv (P := s.SameLimit) (fun x t e => e.trans (h x t)) l {}

theorem State.when_sameLimit {f : State → State} (h : ∀ s : State, s.SameLimit (f s)) (b : Bool) (s : State) : s.SameLimit (s.when b f) := by
  unfold State.when
  split
  · exact h s
  · exact {}

/-- With nothing lost there is nothing to report. -/
theorem State.reportLoss_none {s : State} (none_ : s.book.lostCount = 0) : s.reportLoss = s := by
  rw [State.reportLoss, if_pos none_]

theorem PromptStore.advance_cells (passed : List Nat) (p : PromptStore) : (p.advance passed).cells = p.cells := by
  unfold PromptStore.advance
  split <;> rfl

/-- What a record is programmed as: with the gap marked, and otherwise as it is. -/
def State.gapMarked (s : State) (r : Record) : Record :=
  if s.nor.prompt.newest + 1 = r.seq ∨ s.nor.prompt.newest = 0 then r else { r with flags := setBit r.flags flagGap }

theorem State.gapMarked_seq (s : State) (r : Record) : (s.gapMarked r).seq = r.seq ∧ (s.gapMarked r).repeats = r.repeats := by
  unfold State.gapMarked
  split <;> exact ⟨rfl, rfl⟩

theorem State.programRecord_cells (r : Record) (s : State) :
    (s.programRecord r).nor.prompt.cells =
      { sector := s.nor.prompt.sector, place := s.nor.prompt.place, record := s.gapMarked r } :: s.nor.prompt.cells :=
  PromptStore.advance_cells _ _

theorem State.programRecord_book (r : Record) (s : State) : (s.programRecord r).book = { s.book with norSeq := r.seq } := by
  have book : s.programRecord r = { s.programRecord r with book := { s.book with norSeq := (s.gapMarked r).seq } } := rfl
  rw [book, (s.gapMarked_seq r).1]

theorem State.programRecord_config (r : Record) (s : State) : (s.programRecord r).nor.config = s.nor.config := rfl

end Sys2Proof.Machine
end

section
/-! SUPPORT. The commands of the Prompt Book (spec/17 R600 to R617). -/

namespace Sys2Proof.Machine

/-! ## Events -/

theorem Record.fold_few {r : Record} (few : r.repeats < 65535) (e : Event) :
    r.fold e = { r with repeats := r.repeats + 1, lastDelta := e.uptime - r.uptime } := if_pos few

theorem Record.fold_full {r : Record} (full : 65535 ≤ r.repeats) (e : Event) :
    r.fold e = { r with flags := setBit r.flags flagSat, lastDelta := e.uptime - r.uptime } := if_neg (Nat.not_lt.mpr full)

/-! ## The store -/

theorem State.recordClose_closes {s : State} (opened : s.book.isOpen = true) :
    Does (.recordClose) s fun t => t = (s.at_ (s.book.openAt + Config.sec)).modBook fun b => { b with isOpen := false } :=
  ⟨_, rfl, if_pos opened⟩

/-- The oldest closed record is programmed at the pointer. -/
theorem storeProgram_programs {s : State} {r : Record} {l : List Record} (pending : s.pendingRecords = r :: l) (ready : s.book.ready = true)
    (erased : 0 < s.nor.prompt.erased) : Does (.storeProgram true) s fun t => t = (s.programRecord r).reportLoss := by
  refine ⟨_, rfl, ?_⟩
  beta_reduce
  rw [pending]
  dsimp only
  rw [if_neg (by simp [ready]; omega), if_pos rfl]

/-- One that fails goes to the next sector. -/
theorem storeProgram_fails {s : State} {r : Record} {l : List Record} (pending : s.pendingRecords = r :: l) (ready : s.book.ready = true)
    (erased : 0 < s.nor.prompt.erased) : Does (.storeProgram false) s fun t =>
      t.nor.prompt.cells = s.nor.prompt.cells ∧ t.nor.prompt.sector = nextSector (if s.book.failedOnce.contains s.nor.prompt.sector then
        s.nor.prompt.sector :: s.book.passed else s.book.passed) 4096 s.nor.prompt.sector ∧ t.nor.prompt.place = 0 ∧
      (s.book.failedOnce.contains s.nor.prompt.sector = true → t.book.norFault = true) ∧ t.book.ring = s.book.ring := by
  refine ⟨_, rfl, ?_⟩
  rw [pending]
  dsimp only
  rw [if_neg (by simp [ready]; omega), if_neg (by decide)]
  refine ⟨rfl, rfl, rfl, fun twice => ?_, rfl⟩
  show (s.book.norFault || s.book.failedOnce.contains s.nor.prompt.sector) = true
  rw [twice, Bool.or_true]

theorem storeErase_erases {s : State} (room : s.nor.prompt.erased + 1 < 4096) : Does (.storeErase) s fun t =>
    t.nor.prompt.erased = s.nor.prompt.erased + 1 ∧ t.nor.prompt.cells =
      s.nor.prompt.cells.filter (fun q => q.sector != (s.nor.prompt.sector + s.nor.prompt.erased + 1) % 4096) ∧
    t.nor.config = s.nor.config := by
  refine ⟨_, rfl, ?_⟩
  rw [if_pos (show s.nor.prompt.erased + 1 < storeSectors from room)]
  exact ⟨rfl, rfl, rfl⟩

/-- A list with some of its elements changed holds the others as they are, and of those changed what the change makes of them. -/
theorem mem_mapWhere {α : Type} {t : α → Bool} {f : α → α} {l : List α} {y : α} :
    y ∈ mapWhere t f l ↔ ∃ x ∈ l, (if t x then f x else x) = y := List.mem_map

/-- The blocks of the store with a record above clear_to, which a removal keeps. -/
def State.keptBlock (s : State) (b : Nat) : Bool :=
  s.nor.prompt.cells.any fun c => c.sector / 16 == b && decide (s.book.clearTo < c.record.seq)

/-- The cells that a removal leaves. -/
def State.cellsLeft (s : State) : List StoreCell :=
  mapWhere (fun c => decide (c.record.seq ≤ s.book.clearTo)) (fun c => { c with record := { c.record with valid := false } })
    (s.nor.prompt.cells.filter fun c => s.keptBlock (c.sector / 16))

theorem State.eraseBlocks_moves (l : List Nat) (s : State) : s.Moves [.boot] (s.each l fun b s => s.norErase .prompt (b * 65536) 65536) :=
  Moves.each (fun _ _ h => Moves.op (State.norErase_moves _ _ _ _) (by decide) h) (Moves.refl _ s)

theorem State.programPages_moves (l : List Nat) (s : State) : s.Moves [.boot] (s.each l fun g s => s.norProgram .prompt (g * 256) 256) :=
  Moves.each (fun _ _ h => Moves.op (State.norProgram_moves _ _ _ _) (by decide) h) (Moves.refl _ s)

theorem State.eraseBlocks_nor (l : List Nat) (s : State) : (s.each l fun b s => s.norErase .prompt (b * 65536) 65536).nor = s.nor :=
  (State.eraseBlocks_moves l s).only .nor (by decide)

theorem State.eraseBlocks_book (l : List Nat) (s : State) : (s.each l fun b s => s.norErase .prompt (b * 65536) 65536).book = s.book :=
  (State.eraseBlocks_moves l s).only .book (by decide)

theorem State.programPages_nor (l : List Nat) (s : State) : (s.each l fun g s => s.norProgram .prompt (g * 256) 256).nor = s.nor :=
  (State.programPages_moves l s).only .nor (by decide)

theorem State.programPages_book (l : List Nat) (s : State) : (s.each l fun g s => s.norProgram .prompt (g * 256) 256).book = s.book :=
  (State.programPages_moves l s).only .book (by decide)

theorem clearRemoval_leaves {s : State} (due : s.book.erasePending = true) : Does (.clearRemoval) s fun t =>
    t.book = { s.book with erasePending := false } ∧ t.nor.prompt.cells = s.cellsLeft ∧ t.nor.config = s.nor.config := by
  refine ⟨_, rfl, ?_⟩
  rw [if_pos due]
  simp only [State.modBook_book, State.modBook_nor, State.modNor_nor, State.modNor_book, State.eraseBlocks_nor, State.eraseBlocks_book,
    State.programPages_nor, State.programPages_book]
  exact ⟨trivial, rfl, trivial⟩

/-- A record at or below clear_to that is left is not valid, and one above it is left as it is. -/
theorem State.cellsLeft_cleared {s : State} {q : StoreCell} (left : q ∈ s.cellsLeft) (low : q.record.seq ≤ s.book.clearTo) :
    q.record.valid = false := by
  obtain ⟨c, -, rfl⟩ := mem_mapWhere.mp left
  split at low
  · rw [if_pos (by assumption)]
  · next high => exact absurd (decide_eq_true low) high

theorem State.cellsLeft_above {s : State} {q : StoreCell} (stored : q ∈ s.nor.prompt.cells) (above : s.book.clearTo < q.record.seq) :
    q ∈ s.cellsLeft := by
  refine mem_mapWhere.mpr ⟨q, List.mem_filter.mpr ⟨stored, ?_⟩, if_neg (by simp; omega)⟩
  exact List.any_eq_true.mpr ⟨q, stored, by simp [above]⟩

/-! ## Reading (R613, R614) -/

/-- The fields of a Recorder Read that may be at fault. -/
def recorderReadBad (e : SqEntry) : List (Bool × Nat × Nat) :=
  [(decide (1 < bits e.cdw10 7 0), 10, 0), (bits e.cdw10 31 9 != 0, 10, 9),
    (bits e.cdw13 15 0 == 0 || decide (ringSize < bits e.cdw13 15 0), 13, 0), (bits e.cdw13 31 16 != 0, 13, 16), (e.cdw14 != 0, 14, 0),
    (e.cdw15 != 0, 15, 0)]

/-- The records that a Recorder Read returns. -/
def State.recordsRead (s : State) (e : SqEntry) : List Record :=
  let all := if bits e.cdw10 8 8 = 0 then s.readableRing else s.readableStore
  if bits e.cdw10 7 0 = 0 then (all.filter fun r => decide (e.cdw11.toNat + 2 ^ 32 * e.cdw12.toNat ≤ r.seq)).take (bits e.cdw13 15 0)
  else all.drop (all.length - bits e.cdw13 15 0)

theorem State.readCells_ctxs (l : List Record) (b : Bool) (s : State) : (s.when b (State.readCells l)).ctxs = s.ctxs := by
  have m : s.Moves [.boot] (s.when b (State.readCells l)) :=
    Moves.when (fun _ h => Moves.op (State.readCells_moves _ _) (by decide) h) (Moves.refl _ s)
  exact m.only .ctxs (by decide)

theorem State.readCells_book (l : List Record) (b : Bool) (s : State) : (s.when b (State.readCells l)).book = s.book := by
  have m : s.Moves [.boot] (s.when b (State.readCells l)) :=
    Moves.when (fun _ h => Moves.op (State.readCells_moves _ _) (by decide) h) (Moves.refl _ s)
  exact m.only .book (by decide)

theorem State.complete_book (c : Nat) (r : Cpl) (s : State) : (s.complete c r).book = s.book :=
  (State.complete_moves c r s).only .book (by decide)

section
variable {s : State} {c : Nat} {x : Ctx} (hand : AtHand s c (isAdminOp 0xC8) x)
include hand

theorem recorderRead_returns (mode : bits x.entry.cdw10 7 0 ≤ 1) (high : bits x.entry.cdw10 31 9 = 0) (high' : bits x.entry.cdw13 31 16 = 0)
    (cdw14 : x.entry.cdw14 = 0) (cdw15 : x.entry.cdw15 = 0) (some_ : 0 < bits x.entry.cdw13 15 0) (few : bits x.entry.cdw13 15 0 ≤ 16384) :
    Does (.recorderRead c) s fun t => EndedWith t c x { Cpl.data ((s.recordsRead x.entry).flatMap Record.bytes) with
      dw0 := BitVec.ofNat 32 (s.recordsRead x.entry).length } ∧ t.book = s.book := by
  have sound : firstBad (recorderReadBad x.entry) = none := by
    have ring : ringSize = 16384 := rfl
    simp [recorderReadBad, mode, high, high', cdw14, cdw15, ring, few]
    omega
  refine Does.completes (u := s.when (bits x.entry.cdw10 8 8 != 0) (State.readCells (s.recordsRead x.entry))) hand ?_
    (State.readCells_ctxs _ _ s) ?_
  · show execRecorderRead c s = _
    rw [execRecorderRead, State.run_atHand hand]
    dsimp only
    rw [← recorderReadBad, sound]
    rfl
  · rw [State.complete_book, State.readCells_book]

theorem recorderRead_none (mode : bits x.entry.cdw10 7 0 ≤ 1) (high : bits x.entry.cdw10 31 9 = 0) (none_ : bits x.entry.cdw13 15 0 = 0) :
    Does (.recorderRead c) s fun t => EndedWith t c x (Cpl.invalid 13 0) ∧ t.book = s.book := by
  have bad : firstBad (recorderReadBad x.entry) = some (Cpl.invalid 13 0) := by
    rw [recorderReadBad, high, none_, decide_eq_false (Nat.not_lt.mpr mode)]
    exact firstBad_lowest (by simp [fieldPlace])
  refine Does.completes (u := s) hand ?_ rfl (State.complete_book _ _ s)
  show execRecorderRead c s = _
  rw [execRecorderRead, State.run_atHand hand]
  dsimp only
  rw [← recorderReadBad, bad]
  rfl
end

/-! ## Clearing (R615, R616) -/

theorem field_take {bs : List Byte} {off n k : Nat} (inside : off + n ≤ k) : field (bs.take k) off n = field bs off n := by
  rw [field, List.drop_take, List.take_take, Nat.min_eq_left (by omega), field]

/-- The fields of a Recorder Clear that may be at fault. -/
def recorderClearBad (e : SqEntry) : List (Bool × Nat × Nat) :=
  [(bits e.cdw10 31 16 != 0, 10, 16), (e.cdw11 != 0, 11, 0), (e.cdw12 != 0, 12, 0), (e.cdw13 != 0, 13, 0), (e.cdw14 != 0, 14, 0),
    (e.cdw15 != 0, 15, 0)]

/-- The token that a Recorder Clear brings. -/
def clearToken (e : SqEntry) : List Byte := e.data.take (bits e.cdw10 15 0)

/-- The clear is written to the ring and the store, before it is in force. -/
def State.clearWritten (s : State) (e : SqEntry) : State :=
  let tok := clearToken e
  let lo := s.book.clearTo + 1
  let hi := field tok 32 8
  let s := s.modBook fun b => { b with isOpen := false }
  let recs := s.covered lo hi
  let s := s.readCells recs
  let dg := (digest (recs.flatMap Record.bytes)).toNat
  let key := keyIndex (digest ((tok.drop 64).take 1952)) (match s.ident.manifest with
    | some m => m.clear
    | none => [])
  let s := s.writeRecord (s.mkEvent 0x01 0x8002 noSource
    [BitVec.ofNat 256 (pack [(8, lo), (8, hi), (4, recs.length), (1, key)]), BitVec.ofNat 256 dg,
     BitVec.ofNat 256 (dg / 2 ^ 256)])
  (s.each s.pendingRecords State.programRecord).reportLoss

theorem State.clearWritten_moves (s : State) (e : SqEntry) : s.Moves [.aon, .boot, .nor, .book] (s.clearWritten e) := by
  refine Moves.op (State.reportLoss_moves _) (by decide) (Moves.each (fun _ _ h => Moves.op (State.programRecord_moves _ _) (by decide) h) ?_)
  refine Moves.op (State.writeRecord_moves _ _) (by decide) (Moves.op (State.readCells_moves _ _) (by decide) ?_)
  exact State.modBook_moves (fun _ => ⟨rfl, rfl⟩) (by decide) (Moves.refl _ s)

/-- And then in force, its records not valid. -/
def State.cleared (s : State) (e : SqEntry) : State :=
  (s.clearWritten e).modBook fun b => { b with
    clearTo := field (clearToken e) 32 8, erasePending := true
    ring := mapWhere (fun r => decide (r.seq ≤ field (clearToken e) 32 8)) (fun r => { r with valid := false }) b.ring }

theorem State.cleared_ctxs (e : SqEntry) (s : State) : (s.cleared e).ctxs = s.ctxs := by
  have written : (s.clearWritten e).ctxs = s.ctxs := (s.clearWritten_moves e).only .ctxs (by decide)
  rw [State.cleared, State.modBook_ctxs, written]

theorem recorderClear_atHand {s : State} {c : Nat} {x : Ctx} (hand : AtHand s c (isAdminOp 0xC9) x)
    (sound : firstBad (recorderClearBad x.entry) = none) : execRecorderClear c s = .next
      (if s.checkToken (clearToken x.entry) (bits x.entry.cdw10 15 0) ≠ 0 then
        s.complete c (Cpl.errVal 0x0 0x0C (BitVec.ofNat 32 (s.checkToken (clearToken x.entry) (bits x.entry.cdw10 15 0))))
      else (s.cleared x.entry).complete c Cpl.ok) := by
  rw [execRecorderClear, State.run_atHand hand]
  dsimp only
  rw [← recorderClearBad, sound]
  rfl

/-- A token that passes is 5,325 bytes long. -/
theorem State.checkToken_length {s : State} {tok : List Byte} {n : Nat} (good : s.checkToken tok n = 0) : n = 5325 := by
  unfold State.checkToken at good
  by_contra other
  rw [if_pos (.inl other)] at good
  cases good

/-! ## The start of the recording (R607, R608, R732) -/

/-- The ring and the marks as step 11 finds them, before the held events are written. -/
def State.bookOpened (s : State) : State :=
  let s := (s.modBook fun b => { b with clearTo := max b.clearTo s.storedClear }).restoreRing
  let s := s.modBook fun b => { b with nextSeq := s.firstSeq, norSeq := s.nor.prompt.newest, erasePending := s.removalDue
                                       drops := sat32 b.drops s.aon.heldLost, newAt := [] }
  s.modAon fun a => { a with seqMark := raiseMark s.book.nextSeq a.seqMark, afterPowerOn := false }

/-- The events held, in the order of R732 and R607. -/
def State.heldWritten (s : State) : State :=
  let s := s.each s.aon.held State.takeHeld
  let s := s.when (s.aon.heldLost != 0) fun s => s.takeHeld
    { s.mkEvent 0x01 0x8006 noSource (pay [(4, s.aon.heldLost)]) with held := true }
  let s := s.each s.book.found State.takeHeld
  let s := s.each s.book.held State.takeNoted
  s.when (s.book.heldLost != 0) fun s => s.takeHeld
    { s.mkEvent 0x01 0x8003 noSource (pay [(4, s.book.heldLost), (6, s.book.heldFirst)]) with held := true }

theorem State.heldWritten_sameLimit (s : State) : s.SameLimit s.heldWritten :=
  ((((State.each_sameLimit State.takeHeld_sameLimit _ _).trans (State.when_sameLimit (fun _ => State.takeHeld_sameLimit _ _) _ _)).trans
    (State.each_sameLimit State.takeHeld_sameLimit _ _)).trans (State.each_sameLimit State.takeNoted_sameLimit _ _)).trans
    (State.when_sameLimit (fun _ => State.takeHeld_sameLimit _ _) _ _)

theorem State.bookOpened_norSeq (s : State) : s.bookOpened.book.norSeq = s.nor.prompt.newest := by
  have m : (s.modBook fun b => { b with clearTo := max b.clearTo s.storedClear }).Moves [.boot, .book] _ := State.restoreRing_moves _
  exact congrArg (fun n : Nor => n.prompt.newest) (m.only .nor (by decide))

theorem State.bookOpened_afterPowerOn (s : State) : s.bookOpened.aon.afterPowerOn = false := rfl

/-- The boot record is the newest. -/
theorem State.bootRecord_newest (s : State) :
    (s.bootRecord.book.ring.head?.map fun y => (y.cls, y.code)) = some (1, 0x8001) ∧ s.SameLimit s.bootRecord := by
  unfold State.bootRecord
  dsimp only
  rw [State.writeRecord_one (by exact Nat.le_refl 1)]
  refine ⟨?_, {}⟩
  dsimp only [State.modBook_book, State.pushRecord]
  split <;> rfl

theorem heldEventsWrite_starts {s : State} (complete : s.boot.complete = true) (before : s.book.ready = false) :
    Does (.heldEventsWrite) s fun t => t =
      ((s.bookOpened.heldWritten.bootRecord.modAon fun a => { a with held := [], heldLost := 0 }).modBook fun b =>
        { b with ready := true, found := [], held := [], heldLost := 0 }) :=
  ⟨_, rfl, if_pos ⟨complete, by rw [before]; decide⟩⟩

/-- Settles O35, clause by clause: what each command leaves of the ring, the store and the counts; the other parts are those that it does not
touch. -/
theorem recorderCommands : Obligations.RecorderCommands := by
  refine ⟨fun s i e r l ready waits ring opened single soon same => ?_, fun s i e ready waits closed one room => ?_,
    fun s i e ready waits closed one full => ?_, fun s opened => ?_, fun s dropped closed few early => ?_,
    fun s r l pending ready erased none_ => ?_, fun s r l pending ready erased => ?_, fun s room => ?_, fun s due => ?_,
    fun s c x hand mode high high' cdw14 cdw15 some_ few => ?_, fun s c x hand mode high high' cdw14 cdw15 some_ few => ?_,
    fun s c x hand mode high none_ => ?_, fun s c x hand high cdw11 cdw12 cdw13 cdw14 cdw15 => ?_, fun s complete before => ?_⟩
  · refine Does.imp (fun t ⟨is, m⟩ => ?_) (eventRecord_folds ready waits ring opened single soon same).moved
    have book := State.noteSeq_book { e with uptime := s.uptime } r.seq (s.modBook fun b => { b with
      inbox := dropAt i b.inbox, ring := r.fold { e with uptime := s.uptime } :: l })
    rw [← is] at book
    rw [book]
    refine ⟨rfl, rfl, rfl, fun few => ?_, fun full => ?_, m.only .nor (by simp [touches]), m.only .names (by simp [touches]),
      m.only .ports (by simp [touches])⟩
    · show some ((r.fold _).seq, (r.fold _).repeats, (r.fold _).lastDelta) = _
      rw [Record.fold_few few]
    · show some ((r.fold _).seq, (r.fold _).repeats, (r.fold _).flags.getLsbD 0) = _
      rw [Record.fold_full full]
      exact congrArg (fun b => some (r.seq, r.repeats, b)) (setBit_get r.flags flagSat (by decide))
  · refine Does.imp (fun t ⟨book, m⟩ => ?_) (eventRecord_within ready waits closed (by omega)).moved
    rw [State.writeRecord_one (by exact Nat.le_of_eq one)] at book
    obtain ⟨p, payload⟩ := List.length_eq_one_iff.mp one
    rw [book]
    exact ⟨rfl, rfl, rfl, rfl, rfl, rfl, by rw [payload]; rfl, rfl, m.only .names (by simp [touches]), m.only .ports (by simp [touches])⟩
  · refine Does.imp (fun t ⟨is, m⟩ => ?_) (eventRecord_beyond ready waits closed (by omega)).moved
    exact ⟨by rw [is]; rfl, by rw [is]; rfl, by rw [is]; rfl, by rw [is]; rfl, fun first => by rw [is]; exact if_pos first,
      m.only .names (by simp [touches]), m.only .ports (by simp [touches])⟩
  · refine Does.imp (fun t ⟨is, m⟩ => ?_) (State.recordClose_closes opened).moved
    exact ⟨by rw [is]; rfl, by rw [is]; rfl, by rw [is]; exact Nat.le_max_right _ _, m.only .names (by simp [touches]),
      m.only .ports (by simp [touches])⟩
  · refine Does.imp (fun t ⟨is, m⟩ => ?_) (dropWindowEnd_reports dropped closed).moved
    have payload := State.dropReport_payload few early
    rw [State.writeRecord_one (by rw [payload]; exact Nat.le_refl 1)] at is
    refine ⟨?_, by rw [is]; rfl, by rw [is]; rfl, by rw [is]; exact Nat.le_max_right _ _, m.only .names (by simp [touches]),
      m.only .ports (by simp [touches])⟩
    rw [is]
    show some ((1 : Byte), (0x8003 : BitVec 16), s.dropReport.payload.headD 0) = _
    rw [payload]
    rfl
  · refine Does.imp (fun t ⟨is, m⟩ => ?_) (storeProgram_programs pending ready erased).moved
    have book := State.programRecord_book r s
    rw [State.reportLoss_none (by rw [book]; exact none_)] at is
    obtain ⟨seq, repeats⟩ := s.gapMarked_seq r
    refine ⟨?_, by rw [is, book], by rw [is, book], by rw [is]; rfl, m.only .names (by simp [touches]), m.only .ports (by simp [touches])⟩
    rw [is, State.programRecord_cells, List.head?_cons, Option.map_some, seq, repeats]
  · refine Does.imp (fun t ⟨⟨cells, sector, place, fault, ring⟩, m⟩ => ?_) (storeProgram_fails pending ready erased).moved
    exact ⟨cells, sector, place, fault, ring, m.only .names (by simp [touches]), m.only .ports (by simp [touches])⟩
  · refine Does.imp (fun t ⟨⟨erased, cells, config⟩, m⟩ => ?_) (storeErase_erases room).moved
    exact ⟨erased, cells, m.only .book (by simp [touches]), config, m.only .names (by simp [touches]), m.only .ports (by simp [touches])⟩
  · refine Does.imp (fun t ⟨⟨book, cells, config⟩, m⟩ => ?_) (clearRemoval_leaves due).moved
    rw [book, cells]
    exact ⟨rfl, fun q left => State.cellsLeft_cleared left, fun q stored => State.cellsLeft_above stored, rfl, config,
      m.only .names (by simp [touches]), m.only .ports (by simp [touches])⟩
  · refine Does.imp (fun t ⟨⟨ended, book⟩, m⟩ => ?_)
      (recorderRead_returns hand (by omega) high high' cdw14 cdw15 some_ few).moved
    rw [State.recordsRead, if_pos mode] at ended
    exact ⟨ended, book, m.only .names (by simp [touches]), m.only .ports (by simp [touches])⟩
  · refine Does.imp (fun t ⟨⟨ended, book⟩, m⟩ => ?_)
      (recorderRead_returns hand (by omega) high high' cdw14 cdw15 some_ few).moved
    rw [State.recordsRead, if_neg (by omega)] at ended
    exact ⟨ended, book, m.only .names (by simp [touches]), m.only .ports (by simp [touches])⟩
  · refine Does.imp (fun t ⟨⟨ended, book⟩, m⟩ => ?_) (recorderRead_none hand mode high none_).moved
    exact ⟨ended, book, m.only .names (by simp [touches]), m.only .ports (by simp [touches])⟩
  · have run := recorderClear_atHand hand (by simp [recorderClearBad, high, cdw11, cdw12, cdw13, cdw14, cdw15])
    have ran : Does (.recorderClear c) s fun t => t = _ := ⟨_, run, rfl⟩
    refine Does.imp (fun t ⟨is, m⟩ => ?_) ran.moved
    rw [← clearToken]
    refine ⟨fun good => ?_, fun bad => ?_, m.only .names (by simp [touches]), m.only .ports (by simp [touches])⟩
    · rw [is, if_neg (not_not_intro good)]
      have within : field (clearToken x.entry) 32 8 = field x.entry.data 32 8 := field_take (by rw [State.checkToken_length good]; decide)
      refine ⟨State.ended_complete _ hand (State.cleared_ctxs _ s), ?_, ?_, ?_⟩ <;> rw [State.complete_book]
      · exact within
      · rfl
      · intro r mem low
        obtain ⟨q, -, rfl⟩ := mem_mapWhere.mp mem
        split at low
        · rw [if_pos (by assumption)]
        · next high => exact absurd (decide_eq_true low) high
    · rw [is, if_pos bad]
      exact ⟨State.ended_complete _ hand rfl, State.complete_book _ _ _⟩
  · refine Does.imp (fun t ⟨is, m⟩ => ?_) (heldEventsWrite_starts complete before).moved
    have held := State.heldWritten_sameLimit s.bookOpened
    obtain ⟨newest, boot⟩ := State.bootRecord_newest s.bookOpened.heldWritten
    subst is
    simp only [State.modBook_book, State.modBook_aon, State.modAon_book, State.modAon_aon]
    refine ⟨trivial, newest, trivial, trivial, trivial, ?_, ?_, m.only .names (by simp [touches]), m.only .ports (by simp [touches])⟩
    · rw [boot.norSeq, held.norSeq, State.bookOpened_norSeq]
    · rw [boot.afterPowerOn, held.afterPowerOn, State.bookOpened_afterPowerOn]

end Sys2Proof.Machine
end

section
/-! SUPPORT. The service port's control commands (spec/19 R676, R677; spec/21 R723), and a format of a member that is absent (spec/19 R665). -/

namespace Sys2Proof.Machine

/-! ## Basic management (R677) -/

/-- The first byte of the exchange is the address to write. -/
theorem State.basicAddress_byte (s : State) : BitVec.ofNat 8 (2 * s.basicAddress.toNat) = 2 * s.basicAddress.setWidth 8 := by
  unfold State.basicAddress
  split <;> rfl

/-- The reply to a block read, with the code over the exchange. -/
theorem State.basicReply_out (code : Byte) (l : List Byte) (s : State) : s.basicReply code l = s.emitOut (.basic s.basicAddress l
    (pecOf ([2 * s.basicAddress.setWidth 8, code, 2 * s.basicAddress.setWidth 8 + 1] ++ l))) := by
  rw [State.basicReply, State.basicAddress_byte]

/-- The flags of the status that code 0 reads. -/
def State.basicFlags (s : State) : Nat :=
  let up (f : Fn) (en : Bool) : Nat := bit (en && !s.perstOf f && (s.fn f).cfgReady)
  128 + 64 * bit (!s.boot.complete) + 32 * bit (s.aon.error == 0) + 16 + 8 * up .a s.aon.hostaEn + 4 * up .b s.aon.hostbEn + 3

theorem nvmeMiBasicManagement_status {s : State} (up : s.svcUp = true) : execNvmeMiBasicManagement 0 s = .next (s.basicReply 0 (packBytes
    [(1, 6), (1, s.basicFlags), (1, 255 - (s.criticalWarning .a ||| s.criticalWarning .b) % 256), (1, basicTemp s.composite), (1, 0),
     (2, 0)])) := by
  rw [execNvmeMiBasicManagement, if_neg (by simp [up]), if_pos rfl]
  rfl

/-- The identification that code 8 reads. -/
def basicIdent : List Byte :=
  packBytes [(1, 22), (1, Config.vendorId.toNat / 256), (1, Config.vendorId.toNat % 256)] ++
    ((padTo 4096 (Config.identifyBase 1)).drop 4).take 20

theorem basicIdent_length : basicIdent.length = 23 := by
  rw [basicIdent, List.length_append, List.length_take, List.length_drop, padTo_length]
  rfl

theorem nvmeMiBasicManagement_ident {s : State} (up : s.svcUp = true) :
    execNvmeMiBasicManagement 8 s = .next (s.basicReply 8 basicIdent) := by
  rw [execNvmeMiBasicManagement, if_neg (by simp [up]), if_neg (by decide), if_pos rfl]
  rfl

/-! ## MCTP control (R676) -/

theorem State.mctpOk_up {s : State} (up : s.svcUp = true) (l : List Byte) : s.mctpOk l = s.emitOut (.mctp s.mctpAddress (0 :: l)) := by
  rw [State.mctpOk, if_pos up]

theorem setEndpointId_null {s : State} {n : Byte} (up : s.svcUp = true) (null : n = 0 ∨ n = 0xFF) :
    execSetEndpointId n s = .next (s.emitOut (.mctp s.mctpAddress [2])) := by
  rw [execSetEndpointId, if_neg (by simp [up]), if_pos null]

theorem setEndpointId_sets {s : State} {n : Byte} (up : s.svcUp = true) (null : n ≠ 0) (broadcast : n ≠ 0xFF) :
    execSetEndpointId n s = .next ((s.modSvc fun v => { v with eid := n }).emitOut (.mctp s.mctpAddress [0, 0, n, 0])) := by
  rw [execSetEndpointId, if_neg (by simp [up]), if_neg (not_or.mpr ⟨null, broadcast⟩), State.mctpOk_up (by exact up)]
  rfl

/-! ## The bus (R723) -/

theorem smbusClockLowTimeout_long {s : State} {n : Nat} (up : s.svcUp = true) (long : 35 ≤ n) :
    execSmbusClockLowTimeout n s = .next (s.modSvc fun v => { v with smbReleased := v.smbReleased + 1 }) := by
  have seen : s.pulseSeen n 24 35 Config.smbBand = true := by rw [State.pulseSeen, if_neg (by omega), if_pos long]
  rw [execSmbusClockLowTimeout]
  dsimp only
  rw [if_pos ⟨up, seen⟩, if_neg (by omega)]

theorem smbusClockLowTimeout_short {s : State} {n : Nat} (short : n < 25) : execSmbusClockLowTimeout n s = .next s := by
  have unseen : s.pulseSeen n 24 35 Config.smbBand = false := by rw [State.pulseSeen, if_pos (by omega)]
  rw [execSmbusClockLowTimeout]
  dsimp only
  rw [if_neg (by simp [unseen]), if_neg (by omega)]

/-- Settles O39: each command's one output or count. -/
theorem serviceControlCommands : Obligations.ServiceControlCommands := by
  refine ⟨fun s up => ⟨_, nvmeMiBasicManagement_status up, ?_⟩, fun s up => ⟨_, nvmeMiBasicManagement_ident up, ?_⟩,
    fun s n up null broadcast => ⟨_, setEndpointId_sets up null broadcast, rfl, rfl, rfl, rfl⟩,
    fun s n up null => ⟨_, setEndpointId_null up null, rfl, rfl, rfl, rfl⟩,
    fun s up => ⟨_, congrArg Host.Outcome.next (State.mctpOk_up up _), rfl, rfl, rfl, rfl⟩,
    fun s up => ⟨_, congrArg Host.Outcome.next (State.mctpOk_up up _), rfl, rfl, rfl, rfl⟩,
    fun s up => ⟨_, congrArg Host.Outcome.next (State.mctpOk_up up _), rfl, rfl, rfl, rfl⟩,
    fun s up => ⟨_, congrArg Host.Outcome.next (State.mctpOk_up up _), rfl, rfl, rfl, rfl⟩,
    fun s up => ⟨_, congrArg Host.Outcome.next (State.mctpOk_up up _), rfl, rfl, rfl, rfl⟩,
    fun s n up long => ⟨_, smbusClockLowTimeout_long up long, rfl, rfl, rfl, rfl⟩,
    fun s n up short => ⟨_, smbusClockLowTimeout_short short, rfl⟩⟩
  · rw [State.basicReply_out]
    exact ⟨⟨_, rfl, rfl, rfl, rfl⟩, rfl, rfl, rfl⟩
  · rw [State.basicReply_out]
    exact ⟨⟨_, rfl, basicIdent_length, rfl⟩, rfl, rfl, rfl⟩

/-! ## A format of an absent member (R665) -/

/-- A format that finds its HDA's serial at an absent member may not start. -/
theorem State.mayFormat_absent {s : State} {o : LongOp} {q : PortId} (absent : (s.member q).st = .absent)
    (serial : (s.member q).serial = (s.port o.formatPort).serial) : s.mayFormat o = false := by
  have here : (s.prot.members.toList.all fun m => m.st != .absent || m.serial != (s.port o.formatPort).serial) = false := by
    rw [List.all_eq_false]
    exact ⟨s.member q, Vector.mem_toList_iff.mpr (Vector.getElem_mem _), by simp [absent, serial]⟩
  rw [State.mayFormat, here, Bool.and_false]

theorem longOperationStart_format {s : State} {c : Nat} {x : Ctx} (hand : AtHand s c (isAction 0xC2 0) x) (plain : x.update = false)
    (cdw13 : x.entry.cdw13 = 0) (cdw14 : x.entry.cdw14 = 0) (cdw15 : x.entry.cdw15 = 0) (kind : opKind x.entry = 4) :
    execLongOperationStart c s = .next (s.startFormat c x) := by
  have sound : firstBad (startBad x.entry ++ opRest x.entry false) = none := by simp [startBad, opRest, kind, cdw13, cdw14, cdw15]
  rw [execLongOperationStart, State.runOp, State.settleEnded_other hand.1 plain, State.run_atHand hand]
  show Host.Outcome.next (State.orElse c (firstBad (startBad x.entry ++ opRest x.entry false)) _ s) = _
  rw [sound, State.orElse_none, kind]
  rfl

/-- Settles O53: the check of the serial fails before anything starts. -/
theorem formatOfAnAbsentMember : Obligations.FormatOfAnAbsentMember := by
  intro s c x q hand plain cdw14 cdw15 cdw13 kind absent serial
  refine Does.completes (u := s) hand ?_ rfl ⟨State.complete_nor _ _ _, State.complete_prot _ _ _⟩
  refine (longOperationStart_format hand plain cdw13 cdw14 cdw15 kind).trans (congrArg Host.Outcome.next ?_)
  show (if s.mayFormat (s.opFor x 4) = true then s.startSingle c (s.opFor x 4) (State.started c) else s.complete c Cpl.seqError) = _
  have place : (s.opFor x 4).formatPort = Fin.ofNat 32 (bits x.entry.cdw11 4 0) := rfl
  have refused : s.mayFormat (s.opFor x 4) = false := State.mayFormat_absent absent (by rw [place]; exact serial)
  rw [refused, if_neg Bool.false_ne_true]

end Sys2Proof.Machine
end

section
/-! SUPPORT. Firmware (spec/16 R567 to R571, R590 to R597): Security Send and Receive, the key manifest, downloads, commits and staging. -/

namespace Sys2Proof.Machine

/-! ## Security Send and Receive (R590, R591) -/

/-- A command of an SPSP under protocol 0xF0 does its work. -/
theorem State.runSecurity_atHand {s : State} {c op : Nat} {want : Nat → Bool} {k : Ctx → State → State} {x : Ctx}
    (hand : AtHand s c (fun y => isAdminOp op y && want (spsp y.entry)) x) (protocol : secp x.entry = 0xF0) :
    s.runSecurity c op want k = k x s := by
  rw [State.runSecurity, State.run_atHand hand, (firstBad_none _).mpr (by simp [protocol]), State.orElse_none]

theorem AtHand.also {s : State} {c : Nat} {w : Ctx → Bool} {x : Ctx} (hand : AtHand s c w x) {v : Ctx → Bool} (want : v x = true) :
    AtHand s c v x := ⟨hand.1, hand.2.1, want, hand.2.2.2⟩

theorem State.give_ended {s t : State} {c : Nat} {w : Ctx → Bool} {x : Ctx} (content : List Byte) (hand : AtHand s c w x)
    (ctxs : t.ctxs = s.ctxs) : EndedWith (t.give c x content) c x (Cpl.data (content.take x.entry.cdw11.toNat)) :=
  State.ended_complete _ hand ctxs

theorem State.readBill_ctxs (i : Nat) (s : State) : (s.readBill i).ctxs = s.ctxs := (State.readBill_moves i s).only .ctxs (by decide)

/-- The nonce of a side is the one set for it. -/
theorem State.nonceOf_setNonce (x : Ctx) (n : Option (List Byte)) (s : State) : (s.setNonce x n).nonceOf x = n := by
  unfold State.nonceOf State.setNonce
  cases x.fn? with
  | none => rfl
  | some f => cases f <;> rfl

theorem State.setNonce_ctxs (x : Ctx) (n : Option (List Byte)) (s : State) : (s.setNonce x n).ctxs = s.ctxs :=
  (State.setNonce_moves x n s).only .ctxs (by decide)

theorem State.complete_ident (c : Nat) (r : Cpl) (s : State) : (s.complete c r).ident = s.ident :=
  (State.complete_moves c r s).only .ident (by decide)

theorem State.complete_nonceOf (c : Nat) (r : Cpl) (s : State) (x : Ctx) : (s.complete c r).nonceOf x = s.nonceOf x := by
  rw [State.nonceOf, State.complete_ident, State.nonceOf]

section
variable {s : State} {c : Nat} {x : Ctx} (protocol : secp x.entry = 0xF0)
include protocol

theorem securityReceivePlaybill_atHand (hand : AtHand s c (isAdminOp 0x82) x) (low : 1 ≤ spsp x.entry) (high : spsp x.entry ≤ 0x100) :
    execSecurityReceivePlaybill c s = .next (match s.playbillWhole (spsp x.entry - 1) with
      | some bs => (s.readBill (spsp x.entry - 1)).give c x bs
      | none => s.complete c (Cpl.invalid 10 8)) := by
  have asked := hand.also (v := fun y => isAdminOp 0x82 y && (decide (1 ≤ spsp y.entry) && decide (spsp y.entry ≤ 0x100)))
    (by simp [hand.2.2.1, low, high])
  exact congrArg Host.Outcome.next (State.runSecurity_atHand asked protocol)

theorem securitySendNonce_keeps (hand : AtHand s c (fun y => isAdminOp 0x81 y && spsp y.entry == 0x300) x)
    (long : 32 ≤ (x.entry.data.take x.entry.cdw11.toNat).length) : execSecuritySendNonce c s =
      .next ((s.setNonce x (some ((x.entry.data.take x.entry.cdw11.toNat).take 32))).complete c Cpl.ok) := by
  have sound : firstBad [(decide (((x.entry.data.take x.entry.cdw11.toNat).take 32).length < 32), 11, 0)] = none := by
    rw [List.length_take, Nat.min_eq_left long]
    rfl
  rw [execSecuritySendNonce, State.runSecurity_atHand hand protocol]
  dsimp only
  rw [sound, State.orElse_none]

theorem quote_atHand (hand : AtHand s c (fun y => isAdminOp 0x82 y && spsp y.entry == 0x300) x) : execQuote c s = .next
    (match s.nonceOf x with
      | none => s.complete c Cpl.seqError
      | some n => (s.setNonce x none).give c x (s.quoteBody n ++ s.sign "IZ-QT" (s.quoteBody n))) := by
  exact congrArg Host.Outcome.next (State.runSecurity_atHand hand protocol)
end

/-! ## The key manifest (R567 to R569) -/

/-- A manifest is newer than the one in use. -/
def State.newer (s : State) (m : Manifest) : Bool := match s.ident.manifest with
  | some u => decide (u.sequence.toNat < m.sequence.toNat)
  | none => true

/-- The copy not in use is written. -/
def State.manifestWritten (ok : Bool) (bs : List Byte) (s : State) : State :=
  let one := s.ident.manifest.isSome && !s.ident.copy
  ((s.norErase .config (manifestOffset one) manifestSize).norProgram .config (manifestOffset one) bs.length).modNor fun n =>
    if one then { n with manifest1 := if ok then bs else [] } else { n with manifest0 := if ok then bs else [] }

theorem State.manifestWritten_moves (ok : Bool) (bs : List Byte) (s : State) : s.Moves [.boot, .nor] (s.manifestWritten ok bs) := by
  unfold State.manifestWritten
  exact Moves.op (State.modNor_moves _ _) (by decide) (Moves.op (State.norProgram_moves _ _ _ _) (by decide)
    (Moves.op (State.norErase_moves _ _ _ _) (by decide) (Moves.refl _ s)))

theorem keyManifestUpdate_atHand {s : State} {c : Nat} {x : Ctx} (protocol : secp x.entry = 0xF0)
    (hand : AtHand s c (fun y => isAdminOp 0x81 y && spsp y.entry == 0x400) x) (ok : Bool) : execKeyManifestUpdate c ok s = .next
      (match (readManifest (x.entry.data.take x.entry.cdw11.toNat)).filter s.newer with
        | none => s.complete c Cpl.badData
        | some m => if s.locksOut m then s.complete c Cpl.seqError
          else (s.manifestWritten ok (x.entry.data.take x.entry.cdw11.toNat)).complete c (if ok then Cpl.ok else Cpl.internal)) := by
  rw [execKeyManifestUpdate, State.runSecurity_atHand hand protocol]
  rfl

/-- One above every manifest in use is newer. -/
theorem State.newer_of {s : State} {m : Manifest} (above : ∀ u, s.ident.manifest = some u → u.sequence.toNat < m.sequence.toNat) :
    s.newer m = true := by
  unfold State.newer
  split
  · next u found => exact decide_eq_true (above u found)
  · rfl

theorem State.newer_not {s : State} {m u : Manifest} (used : s.ident.manifest = some u) (low : m.sequence.toNat ≤ u.sequence.toNat) :
    s.newer m = false := by
  rw [State.newer, used]
  exact decide_eq_false (Nat.not_lt.mpr low)

/-- What is written is the copy not in use. -/
theorem State.manifestWritten_copy (bs : List Byte) (s : State) :
    if s.ident.manifest.isSome ∧ s.ident.copy = false then
      (s.manifestWritten true bs).nor.manifest1 = bs ∧ (s.manifestWritten true bs).nor.manifest0 = s.nor.manifest0
    else (s.manifestWritten true bs).nor.manifest0 = bs ∧ (s.manifestWritten true bs).nor.manifest1 = s.nor.manifest1 := by
  unfold State.manifestWritten
  by_cases other : s.ident.manifest.isSome ∧ s.ident.copy = false
  · rw [if_pos other, show (s.ident.manifest.isSome && !s.ident.copy) = true by simp [other]]
    exact ⟨rfl, rfl⟩
  · rw [if_neg other, show (s.ident.manifest.isSome && !s.ident.copy) = false by simpa using other]
    exact ⟨rfl, rfl⟩

/-! ## Downloads (R592) -/

/-- A function with the bytes of a download in its buffer. -/
def downloadInto (e : SqEntry) (y : HostFn) : HostFn :=
  { y with download := bufWrite y.download (4 * e.cdw11.toNat) (e.data.take (4 * (e.cdw10.toNat + 1))) }

section
variable {s : State} {c : Nat} {x : Ctx} {f : Fn} (hand : AtHand s c (isAdminOp 0x11) x) (host : x.origin = .host f)
include hand host

theorem firmwareImageDownload_atHand : execFirmwareImageDownload c s = .next (s.orElse c
    (firstBad [(decide (downloadSize < 4 * (x.entry.cdw10.toNat + 1)), 10, 0),
      (decide (downloadSize < 4 * x.entry.cdw11.toNat + 4 * (x.entry.cdw10.toNat + 1)), 11, 0)]) fun s =>
      (s.modFn f (downloadInto x.entry)).complete c Cpl.ok) := by
  rw [execFirmwareImageDownload, State.run_atHand hand, State.forHost_host host]
  rfl

theorem firmwareImageDownload_writes (inside : 4 * (x.entry.cdw10.toNat + 1) + 4 * x.entry.cdw11.toNat ≤ downloadSize) :
    Does (.firmwareImageDownload c) s fun t => EndedWith t c x Cpl.ok ∧ (t.fn f).download = bufWrite (s.fn f).download
      (4 * x.entry.cdw11.toNat) (x.entry.data.take (4 * (x.entry.cdw10.toNat + 1))) ∧ ∀ g, g ≠ f → t.fn g = s.fn g := by
  refine Does.completes (u := s.modFn f (downloadInto x.entry)) hand ((firmwareImageDownload_atHand hand host).trans ?_)
    (State.modFn_ctxs f _ s) ⟨?_, fun g other => ?_⟩
  · rw [(firstBad_none _).mpr (by simp; omega), State.orElse_none]
  · rw [State.complete_fn, State.modFn_fn, if_pos rfl, downloadInto]
  · rw [State.complete_fn, State.modFn_fn, if_neg other]

theorem firmwareImageDownload_beyond (fits : 4 * (x.entry.cdw10.toNat + 1) ≤ downloadSize)
    (beyond : downloadSize < 4 * (x.entry.cdw10.toNat + 1) + 4 * x.entry.cdw11.toNat) :
    Does (.firmwareImageDownload c) s fun t => EndedWith t c x (Cpl.invalid 11 0) ∧ t.fn f = s.fn f := by
  refine Does.completes (u := s) hand ((firmwareImageDownload_atHand hand host).trans ?_) rfl (State.complete_fn _ _ _ _)
  rw [decide_eq_false (by omega), decide_eq_true (by omega)]
  rfl
end

/-! ## Operations -/

/-- An operation that has ended is found as it ended. -/
theorem State.endOp_op? {s : State} {h : Nat} {o : LongOp} (found : s.op? h = some o) {st : OpState} (ended : st.active = false)
    (result : W16) : (s.endOp h st result).op? h =
      some { o with st := st, result := result, suspendAsked := false, cancelAsked := false, byPs3 := false } := by
  have handle : o.handle = h := by simpa using List.find?_some found
  have ops := State.endOp_longOps found st result
  have kept := mem_keepOps_last (s.longOps.filter fun x => x.handle != h)
    (o := { o with st := st, result := result, suspendAsked := false, cancelAsked := false, byPs3 := false }) ended
  rw [State.op?, ops]
  obtain ⟨y, first⟩ : ∃ y, (keepOps _).find? (fun x : LongOp => x.handle == h) = some y :=
    Option.isSome_iff_exists.mp (List.find?_isSome.mpr ⟨_, kept, by simp [handle]⟩)
  have same : y.handle = h := by simpa using List.find?_some first
  obtain other | last := List.mem_append.mp (mem_keepOps (List.mem_of_find?_eq_some first))
  · simp [same] at other
  · rw [first, List.mem_singleton.mp last]

theorem State.modOp_op? {s : State} {h : Nat} {o : LongOp} (found : s.op? h = some o) {f : LongOp → LongOp}
    (keeps : ∀ o, (f o).handle = o.handle) : (s.modOp h f).op? h = some (f o) := by
  refine (find?_mapWhere_same LongOp.handle (q := h) (fun y e => (keeps y).trans e) s.longOps).trans ?_
  rw [show s.longOps.find? (fun y => y.handle == h) = some o from found]
  rfl

/-- An operation that nothing is asked of goes on at its suspend point. -/
theorem State.opPoint_unasked {s : State} {h : Nat} {o : LongOp} (found : s.op? h = some o) (cancel : o.cancelAsked = false)
    (suspend : o.suspendAsked = false) : s.opPoint h = s := by
  rw [State.opPoint, found]
  dsimp only
  rw [if_neg (by simp [cancel]), if_neg (by simp [suspend])]

/-- A new operation is there under the handle given last. -/
theorem State.startOp_there {s : State} {o : LongOp} (active : o.st.active = true) :
    (s.startOp o).2 = (s.startOp o).1.nor.config.lastHandle ∧ { o with handle := (s.startOp o).2 } ∈ (s.startOp o).1.longOps :=
  ⟨rfl, mem_keepOps_of_active (List.mem_append_right _ (List.mem_singleton.mpr rfl)) active⟩

theorem State.startOp_slots (o : LongOp) (s : State) :
    (s.startOp o).1.nor.slotA = s.nor.slotA ∧ (s.startOp o).1.nor.slotB = s.nor.slotB := ⟨rfl, rfl⟩

theorem State.complete_longOps (c : Nat) (r : Cpl) (s : State) : (s.complete c r).longOps = s.longOps := by
  rw [State.longOps, State.complete_nor, State.longOps]

/-! ## Commits (R593, R595) -/

theorem isCommit_ca {ca : Nat} {x : Ctx} (commit : isCommit ca x = true) : commitCa x.entry.cdw10 = ca := by
  rw [isCommit, Bool.and_eq_true] at commit
  exact eq_of_beq commit.2

section
variable {s : State} {c ca : Nat} {x : Ctx} (hand : AtHand s c (isCommit ca) x) (fs : commitFs x.entry.cdw10 ≤ 2)
include hand fs

theorem State.commitStage_atHand (stages : ca ≤ 1) : s.run c (isCommit ca) (State.commitStage c) =
    s.startStaging c x x.entry.cdw10 := by
  rw [State.run_atHand hand, State.commitStage, (firstBad_none _).mpr, State.orElse_none]
  simp [commitBad, isCommit_ca hand.2.2.1, fs, stages]

/-- A staging commit of the slot that runs is a sequence error (R595). -/
theorem State.commitStage_running (stages : ca ≤ 1) (runs : s.slotRuns (s.slotFor (commitFs x.entry.cdw10)) = true) :
    s.run c (isCommit ca) (State.commitStage c) = s.complete c Cpl.seqError := by
  rw [State.commitStage_atHand hand fs stages, State.startStaging]
  exact if_pos runs

end

/-- The staging operation of a commit. -/
def State.stagingOp (s : State) (x : Ctx) : LongOp :=
  { s.opFor x 6 with
    total := imageLength (s.downloaded x), slot := s.slotFor (commitFs x.entry.cdw10), prefer := commitCa x.entry.cdw10 == 1
    image := (s.downloaded x).take (imageLength (s.downloaded x)) }

theorem State.startSingle_free {s : State} {o : LongOp} (alone : s.activeOps o.kind = []) (room : s.placeFull o.kind = false) (c : Nat)
    (k : Nat → State → State) : s.startSingle c o k = k (s.startOp o).2 (s.startOp o).1 := by
  rw [State.startSingle, if_neg (not_not_intro alone), if_neg (by rw [room]; decide)]

theorem State.stagingOp_is (s : State) (x : Ctx) : (s.stagingOp x).kind = 6 ∧ (s.stagingOp x).st = .running ∧
    (s.stagingOp x).slot = s.slotFor (commitFs x.entry.cdw10) ∧ (s.stagingOp x).prefer = (commitCa x.entry.cdw10 == 1) ∧
    (s.stagingOp x).cursor = 0 ∧ (s.stagingOp x).image = (s.downloaded x).take (imageLength (s.downloaded x)) :=
  ⟨rfl, rfl, rfl, rfl, rfl, by rw [State.stagingOp]⟩

/-- What a staging commit of another slot leaves. -/
def State.stagingBegun (t s : State) (c : Nat) (x : Ctx) : Prop :=
  (imageCheck s.ident.manifest (s.downloaded x) = 0 → EndedWith t c x (Cpl.val (BitVec.ofNat 32 t.nor.config.lastHandle)) ∧
    { s.stagingOp x with handle := t.nor.config.lastHandle } ∈ t.longOps) ∧
  (imageCheck s.ident.manifest (s.downloaded x) ≠ 0 →
    EndedWith t c x (Cpl.errVal 0x0 0x02 (BitVec.ofNat 32 (imageCheck s.ident.manifest (s.downloaded x)))) ∧ t.longOps = s.longOps) ∧
  t.nor.slotA = s.nor.slotA ∧ t.nor.slotB = s.nor.slotB

theorem State.startStaging_begins {s : State} {c : Nat} {w : Ctx → Bool} {x : Ctx} (hand : AtHand s c w x)
    (other : s.slotRuns (s.slotFor (commitFs x.entry.cdw10)) = false) (alone : s.activeOps 6 = []) (room : s.placeFull 6 = false) :
    (s.startStaging c x x.entry.cdw10).stagingBegun s c x := by
  unfold State.startStaging
  dsimp only
  rw [if_neg (by simp [other])]
  by_cases good : imageCheck s.ident.manifest (s.downloaded x) = 0
  · obtain ⟨handle, mem⟩ := State.startOp_there (s := s) (o := s.stagingOp x) rfl
    have begins := State.startSingle_free (o := s.stagingOp x) alone room c fun h s => s.complete c (Cpl.val (BitVec.ofNat 32 h))
    rw [if_neg (not_not_intro good)]
    refine (congrArg (fun t : State => t.stagingBegun s c x) begins).mpr ?_
    rw [handle]
    refine ⟨fun _ => ?_, fun bad => absurd good bad, ?_, ?_⟩
    · rw [State.complete_longOps, State.complete_nor]
      rw [handle] at mem
      exact ⟨State.ended_complete _ hand rfl, mem⟩
    · rw [State.complete_nor]
      rfl
    · rw [State.complete_nor]
      rfl
  · rw [if_pos good]
    exact ⟨fun g => absurd g good, fun _ => ⟨State.ended_complete _ hand rfl, State.complete_longOps _ _ _⟩, by rw [State.complete_nor],
      by rw [State.complete_nor]⟩

/-- A commit that prefers a slot does so where the slot is valid and does not run. -/
theorem firmwareCommitPrefer_atHand {s : State} {c : Nat} {x : Ctx} (hand : AtHand s c (isCommit 2) x) (fs : commitFs x.entry.cdw10 ≤ 2) :
    execFirmwareCommitPrefer c s = .next (if s.slotRuns (s.slotFor (commitFs x.entry.cdw10)) = true ∨
      s.nor.dir.stateOf (s.slotFor (commitFs x.entry.cdw10)) ≠ 1 then s.complete c Cpl.seqError
      else (s.writeDir fun d => { d with preferred := s.slotFor (commitFs x.entry.cdw10) }).complete c Cpl.ok) := by
  rw [execFirmwareCommitPrefer, State.run_atHand hand]
  dsimp only
  rw [(firstBad_none _).mpr (by simpa using fs), State.orElse_none]

theorem State.writeDir_ctxs (f : BootDir → BootDir) (s : State) : (s.writeDir f).ctxs = s.ctxs :=
  (State.writeDir_moves f s).only .ctxs (by decide)

/-- What a commit that prefers a slot changes of the directory. -/
theorem State.writeDir_preferred {s : State} {slot : Bool} (wraps : s.nor.dir.sequence.toNat + 1 < 2 ^ 32) :
    (s.writeDir fun d => { d with preferred := slot }).nor.dir.preferred = slot ∧
    (s.writeDir fun d => { d with preferred := slot }).nor.dir.stateOf false = s.nor.dir.stateOf false ∧
    (s.writeDir fun d => { d with preferred := slot }).nor.dir.stateOf true = s.nor.dir.stateOf true := by
  rw [State.writeDir_nor, Nor.dir_writeDir _ _ wraps]
  exact ⟨rfl, rfl, rfl⟩

/-- Settles O50: each of the three commits finds the slot running and ends so, with nothing written. -/
theorem commitOfTheRunningSlot : Obligations.CommitOfTheRunningSlot := by
  refine ⟨fun s c x f hand _ fs runs => ?_, fun s c x f hand _ fs runs => ?_, fun s c x f hand _ fs runs => ?_⟩
  · exact Does.completes (u := s) hand (congrArg Host.Outcome.next (State.commitStage_running hand fs (by decide) runs)) rfl
      (State.complete_nor _ _ _)
  · exact Does.completes (u := s) hand (congrArg Host.Outcome.next (State.commitStage_running hand fs (by decide) runs)) rfl
      (State.complete_nor _ _ _)
  · exact Does.completes (u := s) hand ((firmwareCommitPrefer_atHand hand fs).trans (congrArg Host.Outcome.next (if_pos (.inl runs)))) rfl
      (State.complete_nor _ _ _)

/-! ## Staging (R594) -/

theorem Nor.setSlot_slotOf (slot : Bool) (bs : List Byte) (n : Nor) :
    (Nor.setSlot slot bs n).slotOf slot = bs ∧ (Nor.setSlot slot bs n).slotOf (!slot) = n.slotOf (!slot) := by
  cases slot <;> exact ⟨rfl, rfl⟩

theorem Nor.setSlot_dir (slot : Bool) (bs : List Byte) (n : Nor) : (Nor.setSlot slot bs n).dir = n.dir := by cases slot <;> rfl

theorem Nor.setSlot_config (slot : Bool) (bs : List Byte) (n : Nor) : (Nor.setSlot slot bs n).config = n.config := by cases slot <;> rfl

/-- The next block of a staging operation is programmed. -/
def State.blockStaged (s : State) (o : LongOp) : State :=
  let n := min o.total (o.cursor + stagingBlock)
  ((s.norErase (slotRegion o.slot) o.cursor stagingBlock).norProgram (slotRegion o.slot) o.cursor (n - o.cursor)).modNor
    (Nor.setSlot o.slot (o.image.take n))

theorem State.blockStaged_nor (s : State) (o : LongOp) :
    (s.blockStaged o).nor = Nor.setSlot o.slot (o.image.take (min o.total (o.cursor + stagingBlock))) s.nor := by
  have m : s.Moves [.boot] ((s.norErase (slotRegion o.slot) o.cursor stagingBlock).norProgram (slotRegion o.slot) o.cursor
      (min o.total (o.cursor + stagingBlock) - o.cursor)) :=
    Moves.op (State.norProgram_moves _ _ _ _) (by decide) (State.norErase_moves _ _ _ _)
  exact congrArg (Nor.setSlot o.slot _) (m.only .nor (by decide))

/-- The mark of a block staged. -/
def LongOp.advanced (o : LongOp) (n : Nat) : LongOp := { o with cursor := n, done := n }

section
variable {s : State} {o : LongOp} (first : (s.running 6).head? = some o) (live : s.mem.halted.contains 0x04 = false)
  (found : s.op? o.handle = some o)
include first

theorem running_st : o.st = .running := by
  have mem := List.mem_of_head? first
  rw [State.running, List.mem_filter, Bool.and_eq_true] at mem
  exact eq_of_beq mem.2.2

include live

theorem firmwareStagingBlock_fails : execFirmwareStagingBlock false s = .next (s.endOp o.handle .failed Cpl.internal.status) := by
  rw [execFirmwareStagingBlock, first]
  dsimp only
  rw [if_neg (by rw [live]; decide), if_pos rfl]

include found

theorem firmwareStagingBlock_stages (cancel : o.cancelAsked = false) (suspend : o.suspendAsked = false) (more : o.cursor < o.total) :
    execFirmwareStagingBlock true s = .next ((s.blockStaged o).modOp o.handle fun y =>
      y.advanced (min o.total (o.cursor + stagingBlock))) := by
  have there : (s.blockStaged o).op? o.handle = some o := by
    rw [State.op?, State.longOps, State.blockStaged_nor, Nor.setSlot_config]
    exact found
  have marked := State.modOp_op? there (f := fun y => y.advanced (min o.total (o.cursor + stagingBlock))) fun _ => rfl
  rw [execFirmwareStagingBlock, first]
  dsimp only
  rw [if_neg (by rw [live]; decide), if_neg (by decide), if_pos more]
  exact congrArg Host.Outcome.next (State.opPoint_unasked marked cancel suspend)

end

/-- The directory once a slot has been staged. -/
def LongOp.activated (o : LongOp) (d : BootDir) : BootDir :=
  let d := (d.setState o.slot 1).setAttempts o.slot 0
  { d with preferred := if o.prefer then o.slot else d.preferred }

theorem LongOp.activated_slot (o : LongOp) (d : BootDir) : (o.activated d).stateOf o.slot = 1 ∧ (o.activated d).attemptsOf o.slot = 0 ∧
    (o.activated d).preferred = (if o.prefer then o.slot else d.preferred) := by
  rw [LongOp.activated]
  cases o.slot <;> exact ⟨rfl, rfl, rfl⟩

/-- The slot is read back and made valid. -/
def State.slotActivated (s : State) (o : LongOp) : State :=
  (s.norRead (slotRegion o.slot) 0 o.image.length).writeDir o.activated

theorem State.slotActivated_nor (s : State) (o : LongOp) : (s.slotActivated o).nor = s.nor.writeDir o.activated :=
  State.writeDir_nor _ _

theorem Nor.writeDir_config (f : BootDir → BootDir) (n : Nor) : (n.writeDir f).config = n.config := by
  unfold Nor.writeDir
  extract_lets d
  split <;> rfl

theorem Nor.writeDir_slotOf (f : BootDir → BootDir) (n : Nor) (slot : Bool) : (n.writeDir f).slotOf slot = n.slotOf slot := by
  obtain ⟨a, b⟩ := Nor.writeDir_slots f n
  rw [Nor.slotOf, a, b, Nor.slotOf]

theorem firmwareStagingBlock_ends {s : State} {o : LongOp} (first : (s.running 6).head? = some o)
    (live : s.mem.halted.contains 0x04 = false) (done : o.total ≤ o.cursor) (same : s.nor.slotOf o.slot = o.image) :
    execFirmwareStagingBlock true s = .next ((s.slotActivated o).endOp o.handle .completed 0) := by
  rw [execFirmwareStagingBlock, first]
  dsimp only
  rw [if_neg (by rw [live]; decide), if_neg (by decide), if_neg (Nat.not_lt.mpr done), if_pos same]
  rfl

theorem State.endOp_nor (h : Nat) (st : OpState) (result : W16) (s : State) :
    (s.endOp h st result).nor = { s.nor with config := (s.endOp h st result).nor.config } := rfl

/-- Settles O21, clause by clause. -/
theorem firmwareCommands : Obligations.FirmwareCommands := by
  refine ⟨fun s c x hand protocol => ?_, fun s c x bs hand protocol low high whole => ?_, fun s c x hand protocol low high whole => ?_,
    fun s c x hand protocol => ?_, fun s c x hand protocol => ?_, fun s c x hand protocol long => ?_, fun s c x hand protocol unused => ?_,
    fun s c x n hand protocol kept => ?_, fun s c x hand protocol => ?_,
    fun s c x f hand host inside => firmwareImageDownload_writes hand host inside,
    fun s c x f hand _ fs other alone room => ?_, fun s c x f hand _ fs other alone room => ?_, fun s c x f hand host fs runs =>
      commitOfTheRunningSlot.1 s c x f hand host fs runs, fun s c x f hand _ fs other valid wraps => ?_,
    fun s c x f hand _ fs bad => ?_, fun s o first live suspend cancel found more => ?_,
    fun s o first live suspend cancel found done same wraps => ?_, fun s o first live suspend cancel found => ?_,
    fun s c x m u ok hand protocol used => ?_, fun s c x f hand host fits beyond => firmwareImageDownload_beyond hand host fits beyond,
    fun s c x f hand host fs runs => commitOfTheRunningSlot.2.1 s c x f hand host fs runs⟩
  · exact ⟨_, congrArg Host.Outcome.next (State.runSecurity_atHand hand protocol), State.give_ended _ hand rfl, State.complete_names _ _ _⟩
  · refine ⟨_, securityReceivePlaybill_atHand protocol hand low high, ?_⟩
    rw [whole]
    refine ⟨State.give_ended _ hand (State.readBill_ctxs _ s), (State.complete_names _ _ _).trans ?_⟩
    exact (State.readBill_moves _ s).only .names (by decide)
  · refine ⟨_, securityReceivePlaybill_atHand protocol hand low high, ?_⟩
    rw [whole]
    exact ⟨State.ended_complete _ hand rfl, State.complete_names _ _ _⟩
  · exact ⟨_, congrArg Host.Outcome.next (State.runSecurity_atHand hand protocol), State.give_ended _ hand rfl, State.complete_names _ _ _⟩
  · exact ⟨_, congrArg Host.Outcome.next (State.runSecurity_atHand hand protocol), State.give_ended _ hand rfl, State.complete_names _ _ _⟩
  · refine Does.completes hand (securitySendNonce_keeps protocol hand long) (State.setNonce_ctxs _ _ s) ⟨?_, ?_⟩
    · rw [State.complete_nonceOf, State.nonceOf_setNonce]
    · rw [State.complete_names]
      exact (State.setNonce_moves _ _ s).only .names (by decide)
  · refine ⟨_, quote_atHand protocol hand, ?_⟩
    rw [unused]
    exact ⟨State.ended_complete _ hand rfl, State.complete_ident _ _ _, State.complete_names _ _ _⟩
  · refine ⟨_, quote_atHand protocol hand, ?_⟩
    rw [kept]
    refine ⟨State.give_ended _ hand (State.setNonce_ctxs _ _ s), ?_, (State.complete_names _ _ _).trans ?_⟩
    · exact (State.complete_nonceOf _ _ _ _).trans (State.nonceOf_setNonce _ _ _)
    · exact (State.setNonce_moves _ _ s).only .names (by decide)
  · have ran : Does (.keyManifestUpdate c true) s fun t => t = _ := ⟨_, keyManifestUpdate_atHand protocol hand true, rfl⟩
    refine Does.imp (fun t ⟨is, moves⟩ => ?_) ran.moved
    subst is
    refine ⟨fun m read above locks => ?_, fun m read above locks => ?_, fun read => ?_, moves.only .ident (by simp [touches]),
      moves.only .names (by simp [touches])⟩
    · rw [read, Option.filter_some_pos (State.newer_of above)]
      dsimp only
      rw [locks, if_neg (by decide), State.complete_nor]
      have written := State.manifestWritten_copy (x.entry.data.take x.entry.cdw11.toNat) s
      exact ⟨State.ended_complete _ hand ((State.manifestWritten_moves _ _ s).only .ctxs (by decide)), written⟩
    · rw [read, Option.filter_some_pos (State.newer_of above)]
      dsimp only
      rw [locks, if_pos rfl]
      exact ⟨State.ended_complete _ hand rfl, State.complete_nor _ _ _⟩
    · rw [read]
      exact ⟨State.ended_complete _ hand rfl, State.complete_nor _ _ _⟩
  · refine ⟨_, congrArg Host.Outcome.next (State.commitStage_atHand hand fs (by decide)), ?_⟩
    obtain ⟨good, bad, a, b⟩ := State.startStaging_begins hand other alone room
    refine ⟨fun passed => ?_, bad, a, b⟩
    obtain ⟨ended, mem⟩ := good passed
    obtain ⟨kind, st, slot, prefer, cursor, image⟩ := s.stagingOp_is x
    rw [isCommit_ca hand.2.2.1] at prefer
    refine ⟨ended, _, mem, rfl, kind, st, slot, prefer, cursor, ?_⟩
    rw [← image]
  · refine ⟨_, congrArg Host.Outcome.next (State.commitStage_atHand hand fs (by decide)), ?_⟩
    obtain ⟨good, bad, a, b⟩ := State.startStaging_begins hand other alone room
    refine ⟨fun passed => ?_, bad, a, b⟩
    obtain ⟨ended, mem⟩ := good passed
    obtain ⟨kind, st, slot, prefer, cursor, image⟩ := s.stagingOp_is x
    rw [isCommit_ca hand.2.2.1] at prefer
    refine ⟨ended, _, mem, rfl, kind, st, slot, prefer, cursor, ?_⟩
    rw [← image]
  · obtain ⟨preferred, stateA, stateB⟩ := State.writeDir_preferred (slot := s.slotFor (commitFs x.entry.cdw10)) wraps
    refine Does.completes hand ((firmwareCommitPrefer_atHand hand fs).trans (congrArg Host.Outcome.next (if_neg (by simp [other, valid]))))
      (State.writeDir_ctxs _ s) ⟨?_, ?_, ?_, ?_⟩
    · rw [State.complete_nor, preferred]
    · rw [State.complete_nor, stateA]
    · rw [State.complete_nor, stateB]
    · rw [State.complete_names]
      exact (State.writeDir_moves _ s).only .names (by decide)
  · exact Does.completes (u := s) hand ((firmwareCommitPrefer_atHand hand fs).trans (congrArg Host.Outcome.next (if_pos bad))) rfl
      ⟨State.complete_nor _ _ _, State.complete_names _ _ _⟩
  · have ran : Does (.firmwareStagingBlock true) s fun t => t = _ := ⟨_, firmwareStagingBlock_stages first live found cancel suspend more, rfl⟩
    refine Does.imp (fun t ⟨is, moves⟩ => ?_) ran.moved
    have slots := Nor.setSlot_slotOf o.slot (o.image.take (min o.total (o.cursor + stagingBlock))) s.nor
    have there : (s.blockStaged o).op? o.handle = some o := by
      rw [State.op?, State.longOps, State.blockStaged_nor, Nor.setSlot_config]
      exact found
    have marked := State.modOp_op? there (f := fun y => y.advanced (min o.total (o.cursor + stagingBlock))) fun _ => rfl
    have nor := State.blockStaged_nor s o
    refine ⟨?_, ?_, ?_, ?_, moves.only .names (by simp [touches])⟩
    · rw [is]
      exact (congrArg (fun n : Nor => n.slotOf o.slot) nor).trans slots.1
    · rw [is]
      exact (congrArg (fun n : Nor => n.slotOf (!o.slot)) nor).trans slots.2
    · rw [is]
      exact (congrArg Nor.dir nor).trans (Nor.setSlot_dir _ _ _)
    · rw [is, marked, Option.any_some]
      simp [LongOp.advanced, running_st first, stagingBlock]
  · have ran : Does (.firmwareStagingBlock true) s fun t => t = _ := ⟨_, firmwareStagingBlock_ends first live done same, rfl⟩
    refine Does.imp (fun t ⟨is, moves⟩ => ?_) ran.moved
    have nor := State.slotActivated_nor s o
    have there : (s.slotActivated o).op? o.handle = some o := by
      rw [State.op?, State.longOps, nor, Nor.writeDir_config]
      exact found
    have ended := State.endOp_op? there (st := .completed) rfl 0
    have dir : t.nor.dir = { o.activated s.nor.dir with sequence := s.nor.dir.sequence + 1 }.seal := by
      rw [is]
      exact (congrArg Nor.dir nor).trans (Nor.dir_writeDir _ _ wraps)
    obtain ⟨state, attempts, preferred⟩ := o.activated_slot s.nor.dir
    refine ⟨?_, ?_, ?_, ?_, ?_, moves.only .names (by simp [touches])⟩
    · rw [is, ended, Option.any_some]
      rfl
    · rw [dir]
      exact state
    · rw [dir]
      exact attempts
    · rw [dir]
      exact preferred
    · rw [is]
      exact (congrArg (fun n : Nor => n.slotOf o.slot) nor).trans ((Nor.writeDir_slotOf _ _ _).trans same)
  · have ran : Does (.firmwareStagingBlock false) s fun t => t = _ := ⟨_, firmwareStagingBlock_fails first live, rfl⟩
    refine Does.imp (fun t ⟨is, moves⟩ => ?_) ran.moved
    have ended := State.endOp_op? found (st := .failed) rfl Cpl.internal.status
    rw [is, ended]
    exact ⟨by simp, rfl, rfl, rfl, rfl⟩
  · refine ⟨_, keyManifestUpdate_atHand protocol hand ok, fun read low => ?_⟩
    rw [read, Option.filter_some_neg (by rw [State.newer_not used low])]
    exact ⟨State.ended_complete _ hand rfl, State.complete_nor _ _ _⟩

end Sys2Proof.Machine
end

section
/-! SUPPORT. The identity commands: the attestation key, the stages, and the records of a boot in NOR (spec/16 R562 to R588). -/

namespace Sys2Proof.Machine

/-- A loop over some ports whose turn for p changes port p alone changes each of them once. -/
theorem State.each_modPort (f : Port → Port) (l : List PortId) (once : l.Nodup) (s : State) (q : PortId) :
    (s.each l fun p s => s.modPort p f).port q = if q ∈ l then f (s.port q) else s.port q := by
  induction l generalizing s with
  | nil => rfl
  | cons p l ih =>
    obtain ⟨notIn, once⟩ := List.nodup_cons.mp once
    rw [State.each_cons, ih once, State.modPort_port]
    by_cases e : q = p
    · subst e; simp [notIn]
    · simp [e]

theorem State.each_recordCompanion_moves (l : List PortId) (s : State) :
    s.Moves [.ports] (s.each l fun p s => s.recordCompanion 0 p) :=
  State.each_inv (fun p t m => Moves.op (State.recordCompanion_moves 0 p t) (by decide) m) l (Moves.refl _ s)

theorem mem_put {κ α : Type} [DecidableEq κ] (k : κ) (v : α) (l : List (κ × α)) : (k, v) ∈ put k v l := List.mem_cons_self

/-! ## A record in NOR -/

/-- A Playbill that is programmed stands at its place, and the addenda are as they were. -/
theorem State.storeRecord_playbill (bs : List Byte) (s : State) : (recCounter bs % 256, bs) ∈ (s.storeRecord 0 bs true).nor.playbills ∧
    (s.storeRecord 0 bs true).nor.addenda = s.nor.addenda := by
  rw [State.storeRecord, if_neg (by decide), if_pos rfl, State.modNor_nor, (State.norProgram_moves _ _ _ s).only .nor (by decide)]
  exact ⟨mem_put _ _ _, rfl⟩

/-- An addendum that is programmed stands in the ring's next sector, and the ring goes on. -/
theorem State.storeRecord_addendum {n : Nat} (addendum : n ≠ 0) (bs : List Byte) (s : State) :
    (s.nor.ringNext, bs) ∈ (s.storeRecord n bs true).nor.addenda ∧
    (s.storeRecord n bs true).nor.ringNext = (s.nor.ringNext + 1) % 256 ∧ (s.storeRecord n bs true).nor.playbills = s.nor.playbills := by
  rw [State.storeRecord, if_neg (by decide), if_neg addendum, State.modNor_nor, (State.norProgram_moves _ _ _ s).only .nor (by decide)]
  exact ⟨mem_put _ _ _, rfl, rfl⟩

/-- A record that is not programmed is kept in DRAM, and NOR is as it was. -/
theorem State.storeRecord_fails (n : Nat) (bs : List Byte) (s : State) : (s.storeRecord n bs false).nor = s.nor ∧
    (s.storeRecord n bs false).ident = { s.ident with pendingNor := s.ident.pendingNor ++ [(n, bs)], norTryAt := s.now } := by
  rw [State.storeRecord, if_pos rfl, (State.emit_moves ..).only .nor (by decide), (State.emit_moves ..).only .ident (by decide)]
  exact ⟨rfl, rfl⟩

theorem State.storeRecord_now (n : Nat) (bs : List Byte) (ok : Bool) (s : State) : (s.storeRecord n bs ok).now = s.now :=
  (State.storeRecord_moves n bs ok s).only .now (by decide)

theorem State.storeRecord_ports (n : Nat) (bs : List Byte) (ok : Bool) (s : State) : (s.storeRecord n bs ok).ports = s.ports :=
  (State.storeRecord_moves n bs ok s).only .ports (by decide)

/-! ## The Playbill (R578 to R581) -/

/-- The Playbill of this boot with its signature. -/
def State.signedPlaybill (s : State) : List Byte := s.playbillBody ++ s.sign "IZ-PB" s.playbillBody

/-- The ports whose companions the Playbill records. -/
def State.recordable (s : State) : List PortId := (fins 32).filter fun p => s.entryState p == 1

/-- The Playbill is sealed and its companions are recorded; its record is not yet programmed. -/
def State.sealPlaybill (s : State) : State :=
  (s.modIdent fun i => { i with
    sealed := true, chainStart := s.previousRecord.isNone, playbill := s.signedPlaybill, newest := digest s.signedPlaybill }).each
    s.recordable fun p s => s.recordCompanion 0 p

theorem State.sealPlaybill_ident (s : State) : s.sealPlaybill.ident = { s.ident with
    sealed := true, chainStart := s.previousRecord.isNone, playbill := s.signedPlaybill, newest := digest s.signedPlaybill } :=
  (State.each_recordCompanion_moves _ _).only .ident (by decide)

theorem State.sealPlaybill_nor (s : State) : s.sealPlaybill.nor = s.nor := (State.each_recordCompanion_moves _ _).only .nor (by decide)

/-- Each companion identified and measured is recorded by the Playbill. -/
theorem State.sealPlaybill_records {s : State} {p : PortId} (measured : s.entryState p = 1) :
    (s.sealPlaybill.port p).recorded = (s.port p).companion :: (s.port p).recorded ∧ (s.sealPlaybill.port p).addendumNo = 0 := by
  have there : p ∈ s.recordable := List.mem_filter.mpr ⟨List.mem_finRange p, by simp [measured]⟩
  have once : s.recordable.Nodup := (List.nodup_finRange 32).filter _
  unfold State.sealPlaybill State.recordCompanion
  rw [State.each_modPort _ _ once, if_pos there]
  exact ⟨rfl, rfl⟩

theorem playbillSeal_runs {s : State} (released : s.boot.released = true) (open_ : s.ident.sealed = false)
    (ended : s.allPortsEnded = true) (ok : Bool) :
    exec (.playbillSeal ok) s = .next (s.sealPlaybill.storeRecord 0 s.signedPlaybill ok) := by
  refine congrArg Host.Outcome.next (if_pos ⟨released, ?_, ended⟩)
  simp [open_]

theorem playbillSeal_stored {s : State} (released : s.boot.released = true) (open_ : s.ident.sealed = false)
    (ended : s.allPortsEnded = true) : Does (.playbillSeal true) s fun t =>
    t.ident.sealed = true ∧ t.ident.chainStart = s.previousRecord.isNone ∧ t.ident.playbill = s.signedPlaybill ∧
    t.ident.newest = digest t.ident.playbill ∧ (recCounter t.ident.playbill % 256, t.ident.playbill) ∈ t.nor.playbills ∧
    t.ident.pendingNor = s.ident.pendingNor ∧ ∀ p : PortId, s.entryState p = 1 →
      (t.port p).recorded = (s.port p).companion :: (s.port p).recorded ∧ (t.port p).addendumNo = 0 := by
  refine ⟨_, playbillSeal_runs released open_ ended true, ?_⟩
  beta_reduce
  rw [State.storeRecord_written, State.sealPlaybill_ident]
  refine ⟨rfl, rfl, rfl, rfl, (State.storeRecord_playbill _ _).1, rfl, fun p measured => ?_⟩
  rw [State.port_of_ports (State.storeRecord_ports ..)]
  exact State.sealPlaybill_records measured

theorem playbillSeal_kept {s : State} (released : s.boot.released = true) (open_ : s.ident.sealed = false)
    (ended : s.allPortsEnded = true) : Does (.playbillSeal false) s fun t =>
    t.ident.sealed = true ∧ t.ident.playbill = s.signedPlaybill ∧ t.ident.pendingNor = s.ident.pendingNor ++ [(0, t.ident.playbill)] ∧
    t.nor.playbills = s.nor.playbills ∧ t.nor.addenda = s.nor.addenda := by
  refine ⟨_, playbillSeal_runs released open_ ended false, ?_⟩
  obtain ⟨nor, ident⟩ := State.storeRecord_fails 0 s.signedPlaybill s.sealPlaybill
  rw [nor, ident, State.sealPlaybill_nor, State.sealPlaybill_ident]
  exact ⟨rfl, rfl, rfl, rfl, rfl⟩

/-! ## A record kept in DRAM (R587) -/

theorem State.at_late (s : State) (t : Nat) : t ≤ (s.at_ t).now := Nat.le_max_right _ _

theorem playbillNorRetry_stores {s : State} {n : Nat} {bs : List Byte} {l : List (Nat × List Byte)}
    (kept : s.ident.pendingNor = (n, bs) :: l) : Does (.playbillNorRetry true) s fun t => t.ident.pendingNor = l ∧
    s.ident.norTryAt + 10 * Config.sec ≤ t.now ∧
    (n = 0 → (recCounter bs % 256, bs) ∈ t.nor.playbills ∧ t.nor.addenda = s.nor.addenda) ∧
    (n ≠ 0 → (s.nor.ringNext, bs) ∈ t.nor.addenda ∧ t.nor.ringNext = (s.nor.ringNext + 1) % 256 ∧ t.nor.playbills = s.nor.playbills) := by
  let u := (s.at_ (s.ident.norTryAt + 10 * Config.sec)).modIdent fun i => { i with pendingNor := l }
  refine ⟨u.storeRecord n bs true, ?_, ?_, ?_, ?_, ?_⟩
  · simp only [exec, execPlaybillNorRetry, kept, if_true]
    rfl
  · rw [State.storeRecord_written]
    rfl
  · rw [State.storeRecord_now]
    exact State.at_late s _
  · rintro rfl
    exact State.storeRecord_playbill bs u
  · exact fun addendum => State.storeRecord_addendum addendum bs u

theorem playbillNorRetry_fails {s : State} {n : Nat} {bs : List Byte} {l : List (Nat × List Byte)}
    (kept : s.ident.pendingNor = (n, bs) :: l) : Does (.playbillNorRetry false) s fun t => t.ident.pendingNor = (n, bs) :: l ∧
    t.nor = s.nor ∧ t.ident.norTryAt = t.now ∧ s.ident.norTryAt + 10 * Config.sec ≤ t.now := by
  let u := s.at_ (s.ident.norTryAt + 10 * Config.sec)
  refine ⟨u.modIdent fun i => { i with norTryAt := u.now }, ?_, kept, rfl, rfl, State.at_late s _⟩
  simp only [exec, execPlaybillNorRetry, kept, Bool.false_eq_true, if_false]
  rfl

/-! ## What is erased ahead (R586, R588) -/

theorem norPreErase_erases {s : State} (released : s.boot.released = true) (noneDue : s.ident.due = [])
    (noneKept : s.ident.pendingNor = []) : Does (.norPreErase) s fun t => (∀ q ∈ t.nor.playbills, q ∈ s.nor.playbills ∧
      q.1 ≠ (s.ident.bootCounter.toNat + bit s.ident.sealed) % 256) ∧
    (∀ q ∈ t.nor.addenda, q ∈ s.nor.addenda ∧ q.1 ≠ s.nor.ringNext) ∧ t.nor.erasedSector = some s.nor.ringNext ∧
    t.nor.config = s.nor.config ∧ t.ident = s.ident := by
  refine ⟨_, congrArg Host.Outcome.next (if_neg (by simp [released, noneDue, noneKept])), ?_⟩
  have erased (slot ring : Nat) : s.Moves [.boot] ((s.norErase .playbill slot 12288).norErase .playbill ring 4096) :=
    Moves.op (State.norErase_moves _ _ _ _) (by decide) (State.norErase_moves _ _ _ _)
  dsimp only
  rw [State.modNor_nor, State.modNor_ident, (erased _ _).only .nor (by decide), (erased _ _).only .ident (by decide)]
  refine ⟨fun q there => ?_, fun q there => ?_, rfl, rfl, rfl⟩
  · obtain ⟨held, other⟩ := List.mem_filter.mp there
    exact ⟨held, bne_iff_ne.mp other⟩
  · obtain ⟨held, other⟩ := List.mem_filter.mp there
    exact ⟨held, bne_iff_ne.mp other⟩

/-- Settles O20: each clause is the lemma of its command above, or one branch of a command that takes no other step. -/
theorem identityCommands : Obligations.IdentityCommands := by
  unfold Obligations.IdentityCommands
  refine ⟨?_, ?_, ?_, fun s => playbillSeal_stored, fun s => playbillSeal_kept, fun s n bs l => playbillNorRetry_stores,
    fun s n bs l => playbillNorRetry_fails, fun s => norPreErase_erases, fun s still => ⟨s, congrArg Host.Outcome.next (if_pos still), rfl⟩⟩
  · intro s booting step ready failed
    have due : s.booting ∧ 4 ≤ s.aon.step.toNat ∧ ¬ s.ident.keyReady ∧ ¬ s.ident.keyFailed := ⟨booting, step, by simp [ready], by simp [failed]⟩
    exact ⟨_, congrArg Host.Outcome.next (if_pos due), rfl, rfl, rfl, rfl, rfl, rfl⟩
  · intro s m released booting
    refine ⟨_, congrArg Host.Outcome.next (if_pos ⟨released, by simp [booting]⟩), ?_, fun i other => ?_, rfl, rfl⟩
    · exact (upd_get _ _ _ _).trans (if_pos rfl)
    · exact (upd_get _ _ _ _).trans (if_neg (Ne.symm other))
  · intro s m complete
    exact ⟨s, congrArg Host.Outcome.next (if_neg (by simp [complete])), rfl⟩

end Sys2Proof.Machine
end

section
/-! SUPPORT. The thermal commands: what the judgements of a conversion leave of the sensors, the enforcement step, hardware shutdown
and Thermal Control (spec/15 R541 to R559). -/

namespace Sys2Proof.Machine

/-! ## What a judgement leaves -/

/-- Of the sensors at most the instant of the raise of one is another, no event is lost, and nothing is shut down. -/
structure Therm.Judged (i : SensorId) (a b : Therm) : Prop where
  others : ∀ j, j ≠ i → b.sensors[j] = a.sensors[j] := by exact fun _ _ => rfl
  one : b.sensors[i] = { a.sensors[i] with raisedAt := (b.sensors[i]).raisedAt } := by rfl
  events : ∀ n, a.events.getLsbD n = true → b.events.getLsbD n = true := by exact fun _ h => h
  tripped : b.tripped = a.tripped := by rfl
  shutdowns : b.shutdowns = a.shutdowns := by rfl

theorem Therm.Judged.refl (i : SensorId) (a : Therm) : Therm.Judged i a a := {}

theorem Therm.Judged.trans {i : SensorId} {a b c : Therm} (h : Therm.Judged i a b) (k : Therm.Judged i b c) : Therm.Judged i a c where
  others j other := (k.others j other).trans (h.others j other)
  one := by rw [k.one, h.one]
  events n set := k.events n (h.events n set)
  tripped := k.tripped.trans h.tripped
  shutdowns := k.shutdowns.trans h.shutdowns

section
variable (i : SensorId) (s : State)

theorem State.raiseTherm_judged (n src : Nat) : Therm.Judged i s.therm (s.raiseTherm n src).therm := by
  rw [State.raiseTherm_therm]
  exact { events := fun m => setBit_keep _ n m }

theorem State.when_raiseTherm_judged (b : Bool) (n src : Nat) : Therm.Judged i s.therm (s.when b (State.raiseTherm n src)).therm := by
  cases b
  · exact Therm.Judged.refl i _
  · exact State.raiseTherm_judged i s n src

/-- A step that is another sets its event (R548). -/
theorem State.setThermStep_therm {n : Fin 4} (other : n ≠ s.therm.step) : (s.setThermStep n).therm =
    { s.therm with step := n, events := setBit s.therm.events (if s.therm.step < n then 4 else 5) } := by
  have limits (b : Bool) (t : State) : (t.when b State.limitEngines).therm = t.therm := by
    cases b
    · rfl
    · exact (State.limitEngines_moves t).only .therm (by decide)
  rw [State.setThermStep, if_neg other, limits, State.raiseTherm_therm, State.modTherm_therm]

theorem State.setThermStep_judged (n : Fin 4) : Therm.Judged i s.therm (s.setThermStep n).therm := by
  by_cases same : n = s.therm.step
  · rw [State.setThermStep, if_pos same]
    exact Therm.Judged.refl i _
  · rw [State.setThermStep_therm s same]
    exact { events := fun m => setBit_keep _ _ m }

theorem State.raiseStep_judged (most : Nat) : Therm.Judged i s.therm (s.raiseStep most).therm := by
  unfold State.raiseStep
  split
  · exact State.setThermStep_judged i s _
  · exact Therm.Judged.refl i _

theorem State.judgeRequest_judged : Therm.Judged i s.therm s.judgeRequest.therm := by
  unfold State.judgeRequest
  extract_lets now
  split
  · exact Therm.Judged.trans {} (State.raiseTherm_judged i _ 1 noSource)
  · split
    · exact {}
    · exact Therm.Judged.refl i _

theorem State.judgeTherm_judged (before : Int) : Therm.Judged i s.therm (s.judgeTherm before).therm := by
  unfold State.judgeTherm
  extract_lets hot s1 s2 s3 s4
  have step : Therm.Judged i s2.therm s3.therm := by
    unfold s3
    split
    · exact State.setThermStep_judged i s2 3
    · exact Therm.Judged.refl i _
  have events : Therm.Judged i s.therm s2.therm :=
    (State.when_raiseTherm_judged i s _ _ _).trans (State.when_raiseTherm_judged i s1 _ _ _)
  exact (events.trans step).trans ((State.judgeRequest_judged i s3).trans {})

/-- The instant of the raise of a sensor alone is set. -/
theorem Therm.raisedAt_judged (a : Therm) (v : Option Nat) :
    Therm.Judged i a { a with sensors := upd a.sensors i fun x => { x with raisedAt := v } } where
  others j other := (upd_get _ _ _ _).trans (if_neg (Ne.symm other))
  one := by
    dsimp only
    rw [upd_get, if_pos rfl]

theorem State.judgeRise_judged (before : Int) : Therm.Judged i s.therm (s.judgeRise i before).therm := by
  unfold State.judgeRise
  extract_lets r set s1
  refine Therm.Judged.trans (State.when_raiseTherm_judged i s _ _ _ : Therm.Judged i s.therm s1.therm) ?_
  split
  · split
    · exact Therm.Judged.refl i _
    · exact (Therm.raisedAt_judged i s1.therm (some s1.now)).trans (State.raiseStep_judged i (set (some s1.now) s1) 3)
  · exact Therm.raisedAt_judged i _ none

end

/-! ## Hardware shutdown (R555) -/

/-- Shutdown sets its latches and its event and keeps the sensors. -/
theorem State.thermalShutdown_therm (s : State) : s.thermalShutdown.therm = { s.therm with
    shutdownLatched := true, tripped := true, noRestart := s.therm.noRestart || decide (4 ≤ s.therm.brokenCount)
    shutdowns := satAdd 65535 s.therm.shutdowns 1, events := setBit s.therm.events 7 } := by
  rw [State.thermalShutdown, State.raiseTherm_therm, State.modTherm_therm, State.modAon_therm,
    (State.enterCold_moves _).only .therm (by decide), State.setCause, State.modAon_therm]

theorem State.emit_hold (cls code source : Nat) (l : List (BitVec 256)) (s : State) :
    (s.emit cls code source l).aon.hold = s.aon.hold := by
  unfold State.emit
  extract_lets e
  split_ifs <;> rfl

theorem State.thermalShutdown_hold (s : State) : s.thermalShutdown.aon.hold = .shutdown := by
  rw [State.thermalShutdown, State.raiseTherm, State.emit_hold]
  rfl

/-- The test of the shutdown conditions keeps the sensors and loses no event. -/
theorem State.testShutdown_kept (s : State) : s.testShutdown.therm.sensors = s.therm.sensors ∧
    ∀ n, s.therm.events.getLsbD n = true → s.testShutdown.therm.events.getLsbD n = true := by
  unfold State.testShutdown
  split
  · split
    · exact ⟨rfl, fun _ h => h⟩
    · rw [State.thermalShutdown_therm]
      exact ⟨rfl, fun m => setBit_keep _ 7 m⟩
  · exact ⟨rfl, fun _ h => h⟩

theorem State.testShutdown_trips {s : State} (hot : s.therm.tooHot = true) (ready : s.therm.tripped = false) :
    s.testShutdown = s.thermalShutdown := by
  rw [State.testShutdown, if_pos (.inl hot), if_neg (by simp [ready])]

/-! ## A conversion (R540 to R545) -/

/-- The instant of a sensor's next conversion. -/
def State.conversionAt (i : SensorId) (s : State) : State :=
  match (s.therm.sensors[i]).hist with
  | q :: _ => s.at_ (q.1 + Config.ms)
  | [] => s

theorem State.conversionAt_therm (i : SensorId) (s : State) : (s.conversionAt i).therm = s.therm := by
  unfold State.conversionAt
  split <;> rfl

/-- A sensor is converted, and the hottest reading and the largest rise are found again. -/
def State.converted (i : SensorId) (count : W32) (v : Int) (s : State) : State :=
  ((s.conversionAt i).modTherm fun m => { m with sensors := upd m.sensors i fun y => y.convert (s.conversionAt i).now count v }).modTherm
    Therm.measure

/-- The judgements of a conversion, but for the shutdown test: `x` is the sensor and `hot` the hottest reading before it. -/
def State.conversionJudged (i : SensorId) (x : Sensor) (hot : Int) (s : State) : State :=
  let s := ((s.when ((s.therm.sensors[i]).broken && !x.broken) (State.raiseTherm 6 i.val)).judgeRise i x.rise).judgeTherm hot
  s.when (i == 0) (State.modTherm fun m => { m with
    warnMs := m.warnMs + bit (decide (1680 ≤ m.hot ∧ m.hot < 2000)), critMs := m.critMs + bit (decide (2000 ≤ m.hot)) })

/-- The state in which the shutdown conditions are tested. -/
def State.conversionDone (i : SensorId) (count : W32) (v : Int) (s : State) : State :=
  (s.converted i count v).conversionJudged i s.therm.sensors[i] (s.conversionAt i).therm.hot

theorem sensorConversion_runs {s : State} (i : SensorId) (count : W32) (v : Int) (running : s.aon.hold = .running) :
    exec (.sensorConversion i count v) s = .next (s.conversionDone i count v).testShutdown :=
  congrArg Host.Outcome.next (if_neg (by simp [running]))

theorem State.conversionJudged_judged (i : SensorId) (x : Sensor) (hot : Int) (s : State) :
    Therm.Judged i (s.when ((s.therm.sensors[i]).broken && !x.broken) (State.raiseTherm 6 i.val)).therm
      (s.conversionJudged i x hot).therm := by
  unfold State.conversionJudged
  extract_lets s1
  refine Therm.Judged.trans ((State.judgeRise_judged i _ _).trans (State.judgeTherm_judged i _ _) : Therm.Judged i _ s1.therm) ?_
  unfold State.when
  split
  · exact {}
  · exact Therm.Judged.refl i _

theorem State.conversionDone_judged (i : SensorId) (count : W32) (v : Int) (s : State) :
    Therm.Judged i (s.converted i count v).therm (s.conversionDone i count v).therm :=
  (State.when_raiseTherm_judged i _ _ _ _).trans (State.conversionJudged_judged i _ _ _)

theorem State.converted_sensors (i j : SensorId) (count : W32) (v : Int) (s : State) : (s.converted i count v).therm.sensors[j] =
    if i = j then (s.therm.sensors[j]).convert (s.conversionAt i).now count v else s.therm.sensors[j] := by
  rw [← State.conversionAt_therm i s]
  exact upd_get _ _ _ _

/-- How often the count of a conversion has now come in a row (R542). -/
def Sensor.runOf (x : Sensor) (count : W32) : Nat := if x.last ≠ [] ∧ count = x.count then x.same + 1 else 1

/-- A sensor whose count is right keeps the reading, and its filtered reading is the mean of the last four. -/
theorem Sensor.convert_good {x : Sensor} {count : W32} {v : Int} (sound : x.broken = false) (good : countBad v (x.runOf count) = false)
    (now : Nat) : (x.convert now count v).last = (v :: x.last).take 4 ∧ (x.convert now count v).count = count ∧
    (x.convert now count v).broken = false ∧ (x.convert now count v).reading = meanOf ((v :: x.last).take 4) := by
  have broken : (x.broken || countBad v (x.runOf count)) = false := by rw [sound, good]; rfl
  have last : (x.convert now count v).last = (v :: x.last).take 4 := by
    show ((if (x.broken || countBad v (x.runOf count)) = true then _ else _) :: x.last).take 4 = _
    rw [broken]
    rfl
  have fresh : ¬ now + Config.sec ≤ now := by
    have : 0 < Config.sec := by decide
    omega
  have head (y : Int) (l : List (Nat × Int)) : (keepSecond now ((now, y) :: l)).head? = some (now, y) := by
    rw [keepSecond, if_neg fresh]
    rfl
  refine ⟨last, rfl, broken, ?_⟩
  have none_broken : ¬ (x.convert now count v).broken = true := by rw [show (x.convert now count v).broken = false from broken]; decide
  rw [Sensor.reading, if_neg none_broken, ← last]
  exact congrArg (fun o => (Option.map Prod.snd o).getD 0) (head _ _)

theorem sensorConversion_good {s : State} {i : SensorId} {count : W32} {v : Int} (running : s.aon.hold = .running)
    (sound : (s.therm.sensors[i]).broken = false) (good : countBad v ((s.therm.sensors[i]).runOf count) = false) :
    Does (.sensorConversion i count v) s fun t => (t.therm.sensors[i]).last = (v :: (s.therm.sensors[i]).last).take 4 ∧
      (t.therm.sensors[i]).count = count ∧ (t.therm.sensors[i]).broken = false ∧
      (t.therm.sensors[i]).reading = meanOf ((v :: (s.therm.sensors[i]).last).take 4) ∧
      ∀ j, j ≠ i → t.therm.sensors[j] = s.therm.sensors[j] := by
  refine ⟨_, sensorConversion_runs i count v running, ?_⟩
  have judged := State.conversionDone_judged i count v s
  have one := (State.converted_sensors i i count v s).trans (if_pos rfl)
  obtain ⟨last, same, whole, reading⟩ := Sensor.convert_good sound good (s.conversionAt i).now
  rw [← one] at last same whole reading
  beta_reduce
  rw [(State.testShutdown_kept _).1]
  have view {β : Type} (g : Sensor → β) (keeps : ∀ x a, g { x with raisedAt := a } = g x) :
      g ((s.conversionDone i count v).therm.sensors[i]) = g ((s.converted i count v).therm.sensors[i]) := by
    rw [judged.one]
    exact keeps _ _
  refine ⟨(view Sensor.last fun _ _ => rfl).trans last, (view Sensor.count fun _ _ => rfl).trans same,
    (view Sensor.broken fun _ _ => rfl).trans whole, (view Sensor.reading fun _ _ => rfl).trans reading, fun j other => ?_⟩
  rw [judged.others j other, State.converted_sensors, if_neg (Ne.symm other)]

theorem sensorConversion_breaks {s : State} {i : SensorId} {count : W32} {v : Int} (running : s.aon.hold = .running)
    (sound : (s.therm.sensors[i]).broken = false) (bad : countBad v ((s.therm.sensors[i]).runOf count) = true) :
    Does (.sensorConversion i count v) s fun t => (t.therm.sensors[i]).broken = true ∧ (t.therm.sensors[i]).reading = 2016 ∧
      t.therm.events.getLsbD 6 = true := by
  refine ⟨_, sensorConversion_runs i count v running, ?_⟩
  let u := s.converted i count v
  have one : u.therm.sensors[i] = (s.therm.sensors[i]).convert (s.conversionAt i).now count v :=
    (State.converted_sensors i i count v s).trans (if_pos rfl)
  have now_broken : (u.therm.sensors[i]).broken = true := by
    rw [one]
    show ((s.therm.sensors[i]).broken || countBad v ((s.therm.sensors[i]).runOf count)) = true
    rw [bad, Bool.or_true]
  have broken : ((s.conversionDone i count v).therm.sensors[i]).broken = true := by
    rw [(State.conversionDone_judged i count v s).one]
    exact now_broken
  have event : (s.conversionDone i count v).therm.events.getLsbD 6 = true := by
    refine (State.conversionJudged_judged i s.therm.sensors[i] _ u).events 6 ?_
    rw [now_broken, sound]
    exact (congrArg (fun m => m.events.getLsbD 6) (State.raiseTherm_therm 6 i.val u)).trans (setBit_get _ 6 (by decide))
  obtain ⟨sensors, events⟩ := State.testShutdown_kept (s.conversionDone i count v)
  refine ⟨by rw [sensors]; exact broken, ?_, events 6 event⟩
  rw [sensors, Sensor.reading, if_pos broken]

/-- Two readings of a sensor that takes part, both at 140 °C or above, are too hot. -/
theorem Therm.tooHot_of {m : Therm} {i : SensorId} {v w : Int} {l : List Int} (included : (m.sensors[i]).excluded = false)
    (last : (m.sensors[i]).last = v :: w :: l) (one : 2240 ≤ v) (two : 2240 ≤ w) : m.tooHot = true := by
  refine List.any_eq_true.mpr ⟨i, List.mem_filter.mpr ⟨List.mem_finRange i, (congrArg not included).trans rfl⟩, ?_⟩
  rw [last]
  simp [one, two]

theorem sensorConversion_shutsDown {s : State} {i : SensorId} {count : W32} {v w : Int} (running : s.aon.hold = .running)
    (sound : (s.therm.sensors[i]).broken = false) (included : (s.therm.sensors[i]).excluded = false) (ready : s.therm.tripped = false)
    (before : (s.therm.sensors[i]).last.head? = some w) (hot : 2240 ≤ w) (still : 2240 ≤ v)
    (good : countBad v ((s.therm.sensors[i]).runOf count) = false) : Does (.sensorConversion i count v) s fun t =>
      t.aon.hold = .shutdown ∧ t.therm.tripped = true ∧ t.therm.shutdownLatched = true ∧
      t.therm.shutdowns = satAdd 65535 s.therm.shutdowns 1 ∧ t.therm.events.getLsbD 7 = true := by
  refine ⟨_, sensorConversion_runs i count v running, ?_⟩
  have judged := State.conversionDone_judged i count v s
  have one := (State.converted_sensors i i count v s).trans (if_pos rfl)
  obtain ⟨l, held⟩ := List.head?_eq_some_iff.mp before
  have last : ((s.conversionDone i count v).therm.sensors[i]).last = v :: w :: l.take 2 := by
    rw [judged.one, one]
    refine (Sensor.convert_good sound good (s.conversionAt i).now).1.trans ?_
    rw [held]
    rfl
  have part : ((s.conversionDone i count v).therm.sensors[i]).excluded = false := by
    rw [judged.one, one]
    exact included
  have therm := State.conversionAt_therm i s
  have shutdowns : (s.conversionDone i count v).therm.shutdowns = s.therm.shutdowns :=
    judged.shutdowns.trans (congrArg Therm.shutdowns therm : (s.conversionAt i).therm.shutdowns = _)
  have tripped : (s.converted i count v).therm.tripped = false := (congrArg Therm.tripped therm : (s.conversionAt i).therm.tripped = _).trans ready
  beta_reduce
  rw [State.testShutdown_trips (Therm.tooHot_of part last still hot) (judged.tripped.trans tripped),
    State.thermalShutdown_therm, State.thermalShutdown_hold, shutdowns]
  exact ⟨rfl, rfl, rfl, rfl, setBit_get _ 7 (by decide)⟩

end Sys2Proof.Machine
end

section
/-! SUPPORT. The enforcement step, the restart, the corrections and Thermal Control (spec/15 R545 to R559). -/

namespace Sys2Proof.Machine

/-! ## The enforcement step (R545 to R548) -/

/-- What another enforcement step changes of the time: nothing. -/
theorem State.raiseStep_now (most : Nat) (s : State) : (s.raiseStep most).now = s.now :=
  (State.raiseStep_moves most s).only .now (by decide)

/-- The step is raised by one, to at most a bound; the instants and the request stay. -/
theorem State.raiseStep_therm {most : Nat} (bound : most ≤ 3) (s : State) :
    (s.raiseStep most).therm.step.val = max s.therm.step.val (min most (s.therm.step.val + 1)) ∧
    (s.raiseStep most).therm.sensors = s.therm.sensors ∧ (s.raiseStep most).therm.request = s.therm.request ∧
    (s.raiseStep most).therm.graceS = s.therm.graceS := by
  unfold State.raiseStep
  split
  case isTrue below =>
    have value : (Fin.ofNat 4 (s.therm.step.val + 1)).val = s.therm.step.val + 1 := Nat.mod_eq_of_lt (by omega)
    have other : Fin.ofNat 4 (s.therm.step.val + 1) ≠ s.therm.step := by
      intro same
      rw [same] at value
      omega
    rw [State.setThermStep_therm s other]
    exact ⟨by dsimp only; omega, rfl, rfl, rfl⟩
  case isFalse => exact ⟨by omega, rfl, rfl, rfl⟩

theorem rateRisePersist_raises {s : State} {i : SensorId} {a : Nat} (raised : (s.therm.sensors[i]).raisedAt = some a)
    (rises : 128 < (s.therm.sensors[i]).rise) : Does (.rateRisePersist i) s fun t =>
    t.therm.step.val = min 3 (s.therm.step.val + 1) ∧ (t.therm.sensors[i]).raisedAt = some t.now ∧ a + Config.sec ≤ t.now ∧
    t.therm.request = s.therm.request := by
  let u := s.at_ (a + Config.sec)
  let v := u.modTherm fun m => { m with sensors := upd m.sensors i fun x => { x with raisedAt := some u.now } }
  refine ⟨v.raiseStep 3, ?_, ?_⟩
  · simp only [exec, execRateRisePersist, raised]
    exact congrArg Host.Outcome.next (if_neg (by omega))
  obtain ⟨step, sensors, request, -⟩ := State.raiseStep_therm (most := 3) (Nat.le_refl 3) v
  have now : (v.raiseStep 3).now = u.now := State.raiseStep_now 3 v
  refine ⟨?_, ?_, ?_, request⟩
  · have here : v.therm.step = s.therm.step := rfl
    have below := s.therm.step.isLt
    rw [step, here]
    omega
  · rw [sensors, now]
    show (upd u.therm.sensors i fun x => { x with raisedAt := some u.now })[i].raisedAt = _
    rw [upd_get, if_pos rfl]
  · rw [now]
    exact State.at_late s _

theorem graceExpiry_raises {s : State} {g : Nat} (timer : s.therm.graceAt = some g) (request : s.therm.request = true) :
    Does (.graceExpiry) s fun t => t.therm.step.val = max s.therm.step.val (min 2 (s.therm.step.val + 1)) ∧
      t.therm.graceAt = some (t.now + s.therm.graceS * Config.sec) ∧ g ≤ t.now := by
  obtain ⟨step, -, -, grace⟩ := State.raiseStep_therm (most := 2) (by decide) (s.at_ g)
  have now : ((s.at_ g).raiseStep 2).now = (s.at_ g).now := State.raiseStep_now 2 _
  refine ⟨((s.at_ g).raiseStep 2).modTherm fun t => { t with graceAt := some ((s.at_ g).now + t.graceS * Config.sec) },
    ?_, step, ?_, ?_⟩
  · simp only [exec, execGraceExpiry, timer]
    exact congrArg Host.Outcome.next (if_neg fun none => Bool.noConfusion (request.symm.trans none))
  · rw [State.modTherm_therm, State.modTherm_now, grace, now]
    rfl
  · rw [State.modTherm_now, now]
    exact State.at_late s g

theorem graceExpiry_ends {s : State} {g : Nat} (timer : s.therm.graceAt = some g) (request : s.therm.request = false) :
    exec .graceExpiry s = .next ((s.at_ g).modTherm fun t => { t with graceAt := none }) := by
  simp only [exec, execGraceExpiry, timer]
  exact congrArg Host.Outcome.next (if_pos request)

theorem stepRelease_lowers {s : State} {g : Nat} (since : s.therm.coolSince = some g) (raised : s.therm.step ≠ 0)
    (cools : s.therm.cools = true) : Does (.stepRelease) s fun t => t.therm.step.val + 1 = s.therm.step.val ∧
      t.therm.coolSince = some t.now ∧ g + 10 * Config.sec ≤ t.now ∧ t.therm.events.getLsbD 5 = true := by
  let u := s.at_ (g + 10 * Config.sec)
  let v := u.modTherm fun m => { m with coolSince := some u.now }
  have above : 0 < s.therm.step.val := Nat.pos_of_ne_zero fun none => raised (Fin.ext none)
  have value : (Fin.ofNat 4 (s.therm.step.val - 1)).val = s.therm.step.val - 1 :=
    Nat.mod_eq_of_lt (by have := s.therm.step.isLt; omega)
  have other : Fin.ofNat 4 (s.therm.step.val - 1) ≠ v.therm.step := by
    intro same
    have : (Fin.ofNat 4 (s.therm.step.val - 1)).val = s.therm.step.val := congrArg Fin.val same
    omega
  have lower : ¬ v.therm.step < Fin.ofNat 4 (s.therm.step.val - 1) := by
    intro up
    have : s.therm.step.val < (Fin.ofNat 4 (s.therm.step.val - 1)).val := up
    omega
  refine ⟨v.setThermStep (Fin.ofNat 4 (s.therm.step.val - 1)), ?_, ?_⟩
  · simp only [exec, execStepRelease, since]
    exact congrArg Host.Outcome.next (if_neg (by simp [raised, cools]))
  beta_reduce
  rw [State.setThermStep_therm v other, if_neg lower, (State.setThermStep_moves _ v).only .now (by decide)]
  exact ⟨by dsimp only; omega, rfl, State.at_late s _, setBit_get _ 5 (by decide)⟩

theorem stepRelease_stays {s : State} {g : Nat} (since : s.therm.coolSince = some g) (warm : s.therm.cools = false) :
    exec .stepRelease s = .next s := by
  simp only [exec, execStepRelease, since]
  exact congrArg Host.Outcome.next (if_pos (.inr warm))

/-! ## The restart (R556) -/

theorem thermalRestart_restarts {s : State} {g : Nat} (since : s.therm.below100 = some g) (shut : s.aon.hold = .shutdown)
    (may : s.therm.noRestart = false) (power : s.pins.sysPwrok = true) : Does (.thermalRestart) s fun t => t.aon.hold = .mainCold ∧
      t.therm.tripped = false ∧ g + 30 * Config.sec ≤ t.now ∧ t.therm.shutdownLatched = s.therm.shutdownLatched ∧
      t.aon.cause = s.aon.cause := by
  refine ⟨(((s.at_ (g + 30 * Config.sec)).modTherm fun m => { m with tripped := false }).modAon fun a =>
    { a with hold := .mainCold }).modBoot fun b => { b with afterShutdown := true }, ?_, rfl, rfl, State.at_late s _, rfl, rfl⟩
  simp only [exec, execThermalRestart, since]
  exact congrArg Host.Outcome.next (if_neg (by simp [shut, may, power]))

theorem thermalRestart_never {s : State} (never : s.therm.noRestart = true) : exec .thermalRestart s = .next s := by
  simp only [exec, execThermalRestart]
  split
  · rfl
  · exact congrArg Host.Outcome.next (if_pos (.inr (.inl never)))

/-! ## Corrections (R553) -/

/-- The instant from which an item may be corrected. -/
def State.trimTime (i : TrimItem) (s : State) : State :=
  match s.therm.trims.find? fun q => q.1 == i with
  | some q => s.at_ (q.2 + trimEvery i)
  | none => s

theorem State.trimTime_none {s : State} {i : TrimItem} (fresh : (s.therm.trims.find? fun q => q.1 == i) = none) : s.trimTime i = s := by
  rw [State.trimTime, fresh]

theorem State.trimTime_moves (i : TrimItem) (s : State) : s.Moves [.now] (s.trimTime i) := by
  unfold State.trimTime
  split
  · exact State.at__moves _ s
  · exact Moves.refl _ s

theorem compensationTrim_corrects {s : State} {i : TrimItem} {band : Bool} (now : band = false ∨ isPll i = false) :
    exec (.compensationTrim ⟨i, band⟩) s =
      .next ((s.trimTime i).modTherm fun m => { m with trims := put i (s.trimTime i).now m.trims }) :=
  congrArg Host.Outcome.next (if_neg (by rintro ⟨needs, pll⟩; cases now <;> simp_all))

theorem compensationTrim_waits {s : State} {i : TrimItem} (pll : isPll i = true) :
    exec (.compensationTrim ⟨i, true⟩) s = .next ((s.trimTime i).modXing fun x => { x with
      bandDue := if x.bandDue.contains i then x.bandDue else x.bandDue ++ [i] }) :=
  congrArg Host.Outcome.next (if_pos ⟨rfl, pll⟩)

theorem compensationTrim_later {s : State} {i : TrimItem} {band : Bool} {q : TrimItem × Nat} (now : band = false ∨ isPll i = false)
    (last : (s.therm.trims.find? fun q => q.1 == i) = some q) : Does (.compensationTrim ⟨i, band⟩) s fun t =>
      q.2 + trimEvery i ≤ t.now ∧ (t.therm.trims.find? fun q => q.1 == i) = some (i, t.now) ∧ t.names = s.names ∧ t.ports = s.ports := by
  have time : s.trimTime i = s.at_ (q.2 + trimEvery i) := by rw [State.trimTime, last]
  refine ⟨_, compensationTrim_corrects now, ?_⟩
  rw [time]
  exact ⟨State.at_late s _, List.find?_cons_of_pos (by simp), rfl, rfl⟩

theorem compensationTrim_band {s : State} {i : TrimItem} (pll : isPll i = true) : Does (.compensationTrim ⟨i, true⟩) s fun t =>
    t.xing.bandDue.contains i = true ∧ t.therm = s.therm ∧ t.names = s.names ∧ t.ports = s.ports := by
  have m := State.trimTime_moves i s
  refine ⟨_, compensationTrim_waits pll, ?_, m.only .therm (by decide), m.only .names (by decide), m.only .ports (by decide)⟩
  rw [State.modXing_xing]
  dsimp only
  split
  case isTrue there => exact there
  case isFalse => simp

/-! ## Thermal Control (R559) -/

/-- The sensor that EXCLUDE_SENSOR names. -/
abbrev excludes (e : SqEntry) : SensorId := Fin.ofNat 16 (bits e.cdw10 11 8)

section
variable {s : State} {c action : Nat} {x : Ctx} {bad : SqEntry → List (Bool × Nat × Nat)} {k : SqEntry → State → State}

theorem State.runTherm_clean (hand : AtHand s c (isAction 0xCC action) x) (good : firstBad (bad x.entry) = none)
    (clean : firstBad (tcReserved x.entry) = none) : s.runTherm c action bad k = k x.entry s := by
  rw [State.runTherm, State.run_atHand hand, firstBad_append good, clean]
  rfl

/-- A command that completes from a state with the parts listed as they were leaves them so. -/
theorem State.complete_still (r : Cpl) (s : State) : (s.complete c r).therm = s.therm ∧ (s.complete c r).names = s.names ∧
    (s.complete c r).ports = s.ports :=
  ⟨State.complete_therm .., State.complete_names .., (State.complete_moves c r s).only .ports (by decide)⟩

theorem thermalControlQuery_answers (hand : AtHand s c (isAction 0xCC 0) x) (clean : firstBad (tcReserved x.entry) = none) :
    Does (.thermalControlQuery c) s fun t => EndedWith t c x (Cpl.data (s.windowBytes 0x1000 0xC0)) ∧ t.therm = s.therm ∧
      t.names = s.names ∧ t.ports = s.ports :=
  Does.completes (u := s) hand (congrArg Host.Outcome.next (State.runTherm_clean hand rfl clean)) rfl (State.complete_still _ s)

theorem excludeSensor_refused (hand : AtHand s c (isAction 0xCC 1) x) (clean : firstBad (tcReserved x.entry) = none)
    (included : (s.therm.sensors[excludes x.entry]).excluded = false)
    (refused : (s.therm.sensors[excludes x.entry]).broken = false ∨ 2 ≤ (s.therm.sensors.toList.filter fun y => y.excluded).length) :
    Does (.excludeSensor c) s fun t => EndedWith t c x Cpl.seqError ∧ t.therm = s.therm ∧ t.names = s.names ∧ t.ports = s.ports := by
  refine Does.completes (u := s) hand ?_ rfl (State.complete_still _ s)
  exact congrArg Host.Outcome.next ((State.runTherm_clean hand rfl clean).trans ((if_neg (by rw [included]; decide)).trans (if_pos refused)))

theorem excludeSensor_excludes (hand : AtHand s c (isAction 0xCC 1) x) (clean : firstBad (tcReserved x.entry) = none)
    (broken : (s.therm.sensors[excludes x.entry]).broken = true)
    (fewer : (s.therm.sensors.toList.filter fun y => y.excluded).length < 2) : Does (.excludeSensor c) s fun t =>
      EndedWith t c x Cpl.ok ∧ (t.therm.sensors[excludes x.entry]).excluded = true ∧
      ∀ j : Fin 16, j.val ≠ bits x.entry.cdw10 11 8 → t.therm.sensors[j] = s.therm.sensors[j] := by
  by_cases already : (s.therm.sensors[excludes x.entry]).excluded = true
  · have run : exec (.excludeSensor c) s = .next (s.complete c Cpl.ok) :=
      congrArg Host.Outcome.next ((State.runTherm_clean hand rfl clean).trans (if_pos already))
    refine Does.completes hand run rfl ?_
    rw [State.complete_therm]
    exact ⟨already, fun _ _ => rfl⟩
  · let m := Therm.measure { s.therm with sensors := upd s.therm.sensors (excludes x.entry) fun y => { y with excluded := true } }
    let u := State.judgeTherm s.therm.hot (s.modTherm fun _ => m)
    have run : exec (.excludeSensor c) s = .next (u.complete c Cpl.ok) := by
      refine congrArg Host.Outcome.next ((State.runTherm_clean hand rfl clean).trans ((if_neg already).trans (if_neg ?_)))
      exact not_or.mpr ⟨ne_of_eq_of_ne broken (by decide), Nat.not_le.mpr fewer⟩
    have judged : Therm.Judged (excludes x.entry) m u.therm := State.judgeTherm_judged _ (s.modTherm fun _ => m) _
    have sensors (j : SensorId) : m.sensors[j] =
        if excludes x.entry = j then { s.therm.sensors[j] with excluded := true } else s.therm.sensors[j] := upd_get _ _ _ _
    refine Does.completes hand run ((State.judgeTherm_moves _ _).only .ctxs (by decide)) ?_
    rw [State.complete_therm]
    refine ⟨?_, fun j other => ?_⟩
    · rw [judged.one, sensors, if_pos rfl]
    · have apart : excludes x.entry ≠ j := by
        rintro rfl
        exact other (Nat.mod_eq_of_lt (bits_lt x.entry.cdw10 11 8))
      rw [judged.others j (Ne.symm apart), sensors, if_neg apart]

/-- The places that SET_HDA_THRESHOLDS tests. -/
def thresholdsBad (e : SqEntry) : List (Bool × Nat × Nat) :=
  [(decide (bits e.cdw11 7 0 < 40) || decide (70 < bits e.cdw11 7 0), 11, 0),
    (decide (bits e.cdw11 15 8 < 45) || decide (75 < bits e.cdw11 15 8) || decide (bits e.cdw11 15 8 ≤ bits e.cdw11 7 0), 11, 8)]

/-- The thresholds and the step are not for a judgement of an HDA to change. -/
theorem State.judgeHda_thresholds (p : PortId) (s : State) : (s.judgeHda p).therm.hdaWarn = s.therm.hdaWarn ∧
    (s.judgeHda p).therm.hdaStop = s.therm.hdaStop ∧ (s.judgeHda p).therm.step = s.therm.step := by
  have raised (b : Bool) (n src : Nat) (t : State) : (t.when b (State.raiseTherm n src)).therm.hdaWarn = t.therm.hdaWarn ∧
      (t.when b (State.raiseTherm n src)).therm.hdaStop = t.therm.hdaStop ∧
      (t.when b (State.raiseTherm n src)).therm.step = t.therm.step := by
    cases b
    · exact ⟨rfl, rfl, rfl⟩
    · rw [State.when, if_pos rfl, State.raiseTherm_therm]
      exact ⟨rfl, rfl, rfl⟩
  unfold State.judgeHda
  extract_lets tf t known warm over_ held cool s1 s2 s3
  rw [(State.noteHolds_moves _ _).only .therm (by decide), (State.noteHolds_moves _ _).only .therm (by decide)]
  obtain ⟨warn, stop, step⟩ := raised (warm && !t.warned.contains p) 8 (0x100 + p.val) s
  obtain ⟨warn2, stop2, step2⟩ := raised (over_ && !held) 9 (0x100 + p.val) s1
  exact ⟨warn2.trans warn, stop2.trans stop, step2.trans step⟩

theorem State.each_judgeHda (l : List PortId) (s : State) : (s.each l State.judgeHda).therm.hdaWarn = s.therm.hdaWarn ∧
    (s.each l State.judgeHda).therm.hdaStop = s.therm.hdaStop ∧ (s.each l State.judgeHda).therm.step = s.therm.step :=
  State.each_inv (P := fun t => t.therm.hdaWarn = s.therm.hdaWarn ∧ t.therm.hdaStop = s.therm.hdaStop ∧ t.therm.step = s.therm.step)
    (fun p t ⟨warn, stop, step⟩ => have kept := State.judgeHda_thresholds p t
      ⟨kept.1.trans warn, kept.2.1.trans stop, kept.2.2.trans step⟩) l ⟨rfl, rfl, rfl⟩

theorem setHdaThresholds_sets (hand : AtHand s c (isAction 0xCC 2) x) (clean : firstBad (tcReserved x.entry) = none)
    (good : firstBad (thresholdsBad x.entry) = none) : Does (.setHdaThresholds c) s fun t => EndedWith t c x Cpl.ok ∧
      t.therm.hdaWarn = bits x.entry.cdw11 7 0 ∧ t.therm.hdaStop = bits x.entry.cdw11 15 8 ∧ t.nor.config.hdaWarn = t.therm.hdaWarn ∧
      t.nor.config.hdaStop = t.therm.hdaStop ∧ t.therm.step = s.therm.step := by
  let u := (s.modTherm fun t => { t with hdaWarn := bits x.entry.cdw11 7 0, hdaStop := bits x.entry.cdw11 15 8 }).modCfg fun k =>
    { k with hdaWarn := bits x.entry.cdw11 7 0, hdaStop := bits x.entry.cdw11 15 8 }
  let v := u.each (fins 32) State.judgeHda
  have m : u.Moves [.aon, .book, .actCals, .therm] v :=
    State.each_inv (fun p t m => Moves.op (State.judgeHda_moves p t) (by decide) m) _ (Moves.refl _ u)
  have run : exec (.setHdaThresholds c) s = .next (v.complete c Cpl.ok) :=
    congrArg Host.Outcome.next (State.runTherm_clean (bad := thresholdsBad) hand good clean)
  obtain ⟨warn, stop, step⟩ := State.each_judgeHda (fins 32) u
  refine Does.completes hand run (m.only .ctxs (by decide)) ?_
  rw [State.complete_therm, State.complete_nor, m.only .nor (by decide), warn, stop, step]
  exact ⟨rfl, rfl, rfl, rfl, rfl⟩

theorem setHdaThresholds_refused (hand : AtHand s c (isAction 0xCC 2) x) (clean : firstBad (tcReserved x.entry) = none)
    (low : 40 ≤ bits x.entry.cdw11 7 0) (high : bits x.entry.cdw11 7 0 ≤ 70) (order : bits x.entry.cdw11 15 8 ≤ bits x.entry.cdw11 7 0) :
    Does (.setHdaThresholds c) s fun t => EndedWith t c x (Cpl.invalid 11 8) ∧ t.therm = s.therm ∧ t.names = s.names ∧
      t.ports = s.ports := by
  refine Does.completes (u := s) hand ?_ rfl (State.complete_still _ s)
  have warn : (decide (bits x.entry.cdw11 7 0 < 40) || decide (70 < bits x.entry.cdw11 7 0)) = false := by
    simp only [Bool.or_eq_false_iff, decide_eq_false_iff_not]
    omega
  have stop : (decide (bits x.entry.cdw11 15 8 < 45) || decide (75 < bits x.entry.cdw11 15 8) ||
      decide (bits x.entry.cdw11 15 8 ≤ bits x.entry.cdw11 7 0)) = true := by rw [decide_eq_true order, Bool.or_true]
  have refused : firstBad (thresholdsBad x.entry ++ tcReserved x.entry) = some (Cpl.invalid 11 8) := by
    have none_found : (tcReserved x.entry).filter Prod.fst = [] :=
      List.filter_eq_nil_iff.mpr fun q hq => by simp [(firstBad_none _).mp clean q hq]
    unfold firstBad
    rw [List.filter_append, none_found, thresholdsBad, warn, stop]
    rfl
  refine congrArg Host.Outcome.next ((State.run_atHand hand).trans ?_)
  exact congrArg (fun r => State.orElse c r _ s) refused

end

theorem thresholdsBad_none {e : SqEntry} (low : 40 ≤ bits e.cdw11 7 0) (high : bits e.cdw11 7 0 ≤ 70) (least : 45 ≤ bits e.cdw11 15 8)
    (most : bits e.cdw11 15 8 ≤ 75) (order : bits e.cdw11 7 0 < bits e.cdw11 15 8) : firstBad (thresholdsBad e) = none := by
  rw [firstBad_none]
  simp only [thresholdsBad, List.mem_cons, List.not_mem_nil, or_false]
  rintro q (rfl | rfl)
  · simp only [Bool.or_eq_false_iff, decide_eq_false_iff_not]
    omega
  · simp only [Bool.or_eq_false_iff, decide_eq_false_iff_not]
    omega

/-- Settles O43: each clause is the lemma of its command above. -/
theorem thermalCommands : Obligations.ThermalCommands := by
  unfold Obligations.ThermalCommands
  refine ⟨fun s i n v => sensorConversion_good, fun s i n v => sensorConversion_breaks, fun s i n v w => sensorConversion_shutsDown,
    fun s i a => rateRisePersist_raises, fun s g => graceExpiry_raises, ?_, fun s g => stepRelease_lowers,
    fun s g => thermalRestart_restarts, fun s never => ⟨s, thermalRestart_never never, rfl⟩, ?_,
    fun s c x => thermalControlQuery_answers,
    fun s c x hand clean whole included => excludeSensor_refused hand clean included (.inl whole),
    fun s c x => excludeSensor_excludes, ?_, fun s c x => setHdaThresholds_refused,
    fun s i band q => compensationTrim_later, fun s i => compensationTrim_band,
    fun s c x hand clean included full => excludeSensor_refused hand clean included (.inr full),
    fun s g since warm => ⟨s, stepRelease_stays since warm, rfl⟩⟩
  · exact fun s g timer request => ⟨_, graceExpiry_ends timer request, rfl, rfl, rfl, rfl, rfl⟩
  · intro s i band now fresh
    refine ⟨_, compensationTrim_corrects now, ?_⟩
    rw [State.trimTime_none fresh]
  · exact fun s c x hand clean low high least most order =>
      setHdaThresholds_sets hand clean (thresholdsBad_none low high least most order)

end Sys2Proof.Machine
end

section
/-! SUPPORT. The map cache (spec/13 R511 to R520): what one request, one line and one range leave of its sets, and Map Cache Control. -/

namespace Sys2Proof.Machine

/-! ## Sets and ways -/

theorem MapCache.set_index (m : MapCache) (i : Fin 4096) : (m.set i).index = i := by
  unfold MapCache.set
  cases found : m.sets.find? fun x => x.index == i with
  | none => rfl
  | some x => simpa using List.find?_some found

theorem MapCache.modSet_set {f : CacheSet → CacheSet} (keeps : ∀ x, (f x).index = x.index) (m : MapCache) (i : Fin 4096) :
    (m.modSet i f).set i = f (m.set i) := by
  have here : ((f (m.set i)).index == i) = true := by rw [keeps, MapCache.set_index]; exact BEq.rfl
  show ((f (m.set i) :: _).find? fun x => x.index == i).getD _ = _
  rw [List.find?_cons, here]
  rfl

theorem CacheSet.putWay_contains (w : Fin 16) (l : Line) (x : CacheSet) : (CacheSet.putWay w l x).ways.contains (w, l) = true := by
  simp [CacheSet.putWay]

theorem MapCache.modSet_putWay (i : Fin 4096) (w : Fin 16) (l : Line) (m : MapCache) :
    ((m.modSet i (CacheSet.putWay w l)).set i).ways.contains (w, l) = true := by
  rw [MapCache.modSet_set (f := CacheSet.putWay w l) fun _ => rfl]
  exact CacheSet.putWay_contains w l _

/-- After a write-back no line is dirty. -/
theorem MapCache.clean_dirtyLines (m : MapCache) : m.clean.dirtyLines = 0 := by
  simp [MapCache.clean, MapCache.dirtyLines, List.filter_map, Function.comp_def]

theorem MapCache.disable_dirtyLines (m : MapCache) : m.disable.dirtyLines = 0 := by
  simp [MapCache.disable, MapCache.clean, MapCache.dirtyLines, List.filter_map, Function.comp_def]

/-! ## One request (R512, R513, R519) -/

/-- The traffic of a request, with no effect on the cache. -/
theorem State.traffic_moves (l : List (Nat × Bool)) (s : State) :
    s.Moves [.mem, .free] (s.each l fun q s => s.dramAccess (128 * q.1) q.2) :=
  Moves.each (fun _ _ h => Moves.op (State.dramAccess_moves _ _ _) (by decide) h) (Moves.refl _ s)

/-- The accesses to DRAM count no correction and set no event of the memory. -/
theorem State.dramAccess_counts (addr : Nat) (write : Bool) (s : State) :
    (s.dramAccess addr write).mem.dramCe = s.mem.dramCe := by
  have checked (a pick : Nat) (m : Mem) : (m.checkAccess a write pick).dramCe = m.dramCe := by
    unfold Mem.checkAccess
    extract_lets ch g l
    split
    · rfl
    next out m1 m2 _ _ =>
      have first : m1.dramCe = m.dramCe := by
        unfold m1
        rcases out with _ | ⟨v, _ | _⟩ <;> rfl
      exact first
  exact checked _ _ _

theorem State.traffic_counts (l : List (Nat × Bool)) (s : State) :
    (s.each l fun q s => s.dramAccess (128 * q.1) q.2).mem.dramCe = s.mem.dramCe :=
  State.each_inv (P := fun t => t.mem.dramCe = s.mem.dramCe)
    (fun q t same => (State.dramAccess_counts (128 * q.1) q.2 t).trans same) l rfl

theorem State.touchLine_mcache (tag : Nat) (w : Bool) (s : State) : (s.touchLine tag w).mcache = s.mcache.touch tag w := by
  rw [State.touchLine, State.modCache_mcache, (State.traffic_moves _ s).only .mcache (by decide)]

theorem State.touchLine_names (tag : Nat) (w : Bool) (s : State) : (s.touchLine tag w).names = s.names :=
  (State.touchLine_moves tag w s).only .names (by decide)

theorem mapCacheMiss_clean (s : State) (addr : Nat) (w : Bool) :
    exec (.mapCacheMiss addr ⟨w, .clean⟩) s = .next (s.touchLine (addr / 128) w) := by
  refine congrArg Host.Outcome.next ((if_neg fun bad => by cases bad.2).trans ?_)
  exact if_neg (by simp)

section
variable {m : MapCache} {tag : Nat} {w : Bool}

/-- A hit is counted and keeps its line. -/
theorem MapCache.touch_hit {way : Fin 16} {l : Line} (on : m.enabled = true)
    (found : ((m.set (setOf tag)).ways.find? fun w => w.2.tag == tag) = some (way, l)) : (m.touch tag w).hits = sat32 m.hits 1 ∧
      (m.touch tag w).misses = m.misses ∧
      ((m.touch tag w).set (setOf tag)).ways.contains (way, { l with dirty := l.dirty || w }) = true := by
  rw [MapCache.touch, if_neg (by simp [on])]
  extract_lets x
  split
  case h_1 way' l' here =>
    cases here.symm.trans found
    refine ⟨rfl, rfl, ?_⟩
    exact MapCache.modSet_putWay _ _ _ m
  case h_2 none_there => cases none_there.symm.trans found

/-- The way that a miss empties (R511). -/
def MapCache.victim (m : MapCache) (tag : Nat) : Fin 16 := plruVictim (m.set (setOf tag)).plru m.locked

/-- A miss is counted, a dirty victim is written back, and its way takes the line. -/
theorem MapCache.touch_miss (on : m.enabled = true)
    (missing : ((m.set (setOf tag)).ways.find? fun w => w.2.tag == tag) = none) : (m.touch tag w).misses = sat32 m.misses 1 ∧
      (m.touch tag w).hits = m.hits ∧ (m.touch tag w).writebacks = sat32 m.writebacks
        (bit ((m.set (setOf tag)).ways.any fun q => q.1 == m.victim tag && q.2.dirty)) ∧
      ((m.touch tag w).set (setOf tag)).ways.contains
        (m.victim tag, { tag := tag, dirty := w, stale := false, preloaded := false }) = true := by
  rw [MapCache.touch, if_neg (by simp [on])]
  extract_lets x
  split
  case h_1 here => cases here.symm.trans missing
  case h_2 =>
    refine ⟨rfl, rfl, rfl, ?_⟩
    exact MapCache.modSet_putWay _ _ _ m

/-- A miss whose fill fails is counted, installs nothing and leaves the victim's way empty. -/
theorem MapCache.fillFails_miss (on : m.enabled = true)
    (missing : ((m.set (setOf tag)).ways.find? fun w => w.2.tag == tag) = none) : (m.fillFails tag).misses = sat32 m.misses 1 ∧
      (m.fillFails tag).hits = m.hits ∧
      (((m.fillFails tag).set (setOf tag)).ways.all fun q => q.2.tag != tag && q.1 != m.victim tag) = true := by
  rw [MapCache.fillFails, if_neg (by simp [on])]
  refine ⟨rfl, rfl, ?_⟩
  have emptied := MapCache.modSet_set (f := fun y => { y with ways := y.ways.filter fun w => w.1 != m.victim tag }) (fun _ => rfl) m
    (setOf tag)
  refine Eq.trans (congrArg (fun x : CacheSet => x.ways.all fun q => q.2.tag != tag && q.1 != m.victim tag) emptied) ?_
  refine List.all_eq_true.mpr fun q there => ?_
  obtain ⟨held, other⟩ := List.mem_filter.mp there
  have tagged := List.find?_eq_none.mp missing q held
  exact Bool.and_eq_true_iff.mpr ⟨by simpa using tagged, other⟩

/-- A miss reads DRAM. -/
theorem MapCache.traffic_miss (on : m.enabled = true)
    (missing : ((m.set (setOf tag)).ways.find? fun w => w.2.tag == tag) = none) :
    (m.traffic tag w != [] && !(m.enabled == false && w)) = true := by
  have found : ((m.set (setOf tag)).wayOf tag).isSome = false := by rw [CacheSet.wayOf, missing]; rfl
  rw [MapCache.traffic, if_neg (by simp [on]), on]
  simp [found]

end

section
variable {s : State} {addr : Nat} {w : Bool}

theorem mapCacheMiss_off (off : s.mcache.enabled = false) : Does (.mapCacheMiss addr ⟨w, .clean⟩) s fun t => t.mcache = s.mcache ∧
    t = s.dramAccess (128 * (addr / 128)) w := by
  have same : s.touchLine (addr / 128) w = s.dramAccess (128 * (addr / 128)) w := by
    have kept : (s.dramAccess (128 * (addr / 128)) w).mcache.touch (addr / 128) w = (s.dramAccess (128 * (addr / 128)) w).mcache :=
      if_pos ((congrArg MapCache.enabled ((State.dramAccess_moves _ _ s).only .mcache (by decide))).trans off)
    rw [State.touchLine, MapCache.traffic, if_pos off]
    show State.modCache _ (s.dramAccess (128 * (addr / 128)) w) = _
    rw [State.modCache, kept]
  exact ⟨_, mapCacheMiss_clean s addr w, by rw [same, (State.dramAccess_moves _ _ s).only .mcache (by decide)], same⟩

theorem mapCacheMiss_uncorrectable (on : s.mcache.enabled = true)
    (missing : ((s.mcache.set (setOf (addr / 128))).ways.find? fun w => w.2.tag == addr / 128) = none) :
    Does (.mapCacheMiss addr ⟨w, .uncorrectable⟩) s fun t => t.mcache = s.mcache.fillFails (addr / 128) ∧ t.names = s.names := by
  refine ⟨_, congrArg Host.Outcome.next (if_pos ⟨MapCache.traffic_miss on missing, rfl⟩), ?_, ?_⟩
  · rw [State.modCache_mcache, (State.traffic_moves _ s).only .mcache (by decide)]
  · rw [State.modCache_names, (State.traffic_moves _ s).only .names (by decide)]

theorem mapCacheMiss_corrected (on : s.mcache.enabled = true)
    (missing : ((s.mcache.set (setOf (addr / 128))).ways.find? fun w => w.2.tag == addr / 128) = none) :
    Does (.mapCacheMiss addr ⟨w, .corrected⟩) s fun t => t.mcache.misses = sat32 s.mcache.misses 1 ∧
      t.mem.dramCe = sat32 s.mem.dramCe 1 ∧ t.mem.events.getLsbD 1 = true := by
  refine ⟨(s.touchLine (addr / 128) w).noteCorrected true (addr / 4096), ?_, ?_⟩
  · refine congrArg Host.Outcome.next ((if_neg fun bad => by cases bad.2).trans (if_pos ?_))
    rw [MapCache.traffic_miss on missing]
    rfl
  · have counted : (s.touchLine (addr / 128) w).mem.dramCe = s.mem.dramCe := State.traffic_counts _ s
    rw [State.noteCorrected, if_pos rfl]
    extract_lets n
    beta_reduce
    rw [(State.raiseMem_moves _ _ _).only .mcache (by decide), State.raiseMem_mem]
    refine ⟨?_, ?_, setBit_get _ 1 (by decide)⟩
    · rw [State.modMem_mcache, State.touchLine_mcache]
      exact (MapCache.touch_miss on missing).1
    · show sat32 (s.touchLine (addr / 128) w).mem.dramCe 1 = _
      rw [counted]

end

/-! ## Map Cache Control (Table 13-8) -/

section
variable {s : State} {c action : Nat} {x : Ctx} {k : Ctx → State → State}

/-- A command with no reserved field set, whose mask and range are right, runs. -/
theorem State.mapCtl_clean (hand : AtHand s c (isAction 0xC6 action) x) (low : bits x.entry.cdw10 15 8 = 0) (d14 : x.entry.cdw14 = 0)
    (d15 : x.entry.cdw15 = 0) (few : (decide (5 ≤ action) && decide (action ≤ 7)) = true → ways (maskOf x.entry ||| s.mcache.locked) ≤ 12)
    (blocks : (action == 5 || action == 8) = true → x.entry.cdw13 ≠ 0) : s.mapCtl c action k = k x s := by
  have clean : firstBad [(bits x.entry.cdw10 15 8 != 0, 10, 8),
      (decide (5 ≤ action) && decide (action ≤ 7) && decide (12 < ways (maskOf x.entry ||| s.mcache.locked)), 10, 16),
      ((action == 5 || action == 8) && x.entry.cdw13 == 0, 13, 0), (x.entry.cdw14 != 0, 14, 0), (x.entry.cdw15 != 0, 15, 0)] = none := by
    have mask : (decide (5 ≤ action) && decide (action ≤ 7) && decide (12 < ways (maskOf x.entry ||| s.mcache.locked))) = false := by
      cases masked : decide (5 ≤ action) && decide (action ≤ 7)
      · rfl
      · exact decide_eq_false (Nat.not_lt.mpr (few masked))
    have range : ((action == 5 || action == 8) && x.entry.cdw13 == 0) = false := by
      cases ranged : action == 5 || action == 8
      · rfl
      · exact beq_eq_false_iff_ne.mpr (blocks ranged)
    rw [mask, range, low, d14, d15]
    rfl
  exact (State.run_atHand hand).trans (congrArg (fun r => State.orElse c r (k x) s) clean)

/-- The actions below 5 name neither ways nor blocks. -/
theorem State.mapCtl_plain (hand : AtHand s c (isAction 0xC6 action) x) (low : bits x.entry.cdw10 15 8 = 0) (d14 : x.entry.cdw14 = 0)
    (d15 : x.entry.cdw15 = 0) (plain : action < 5) : s.mapCtl c action k = k x s := by
  refine State.mapCtl_clean hand low d14 d15 (fun masked => ?_) fun ranged => ?_
  · simp only [Bool.and_eq_true, decide_eq_true_eq] at masked
    omega
  · simp only [Bool.or_eq_true, beq_iff_eq] at ranged
    omega

theorem State.mapRange_inside {n : Ns} {k : Nat → Nat → Nat → State → State} (named : s.ns? x.entry.nsid.toNat = some n)
    (there : s.deletedFor n x = false) (conventional : n.zoned = false) (inside : slbaOf x.entry + x.entry.cdw13.toNat ≤ n.nsze) :
    s.mapRange c x k = k n.nsid (slbaOf x.entry) x.entry.cdw13.toNat s := by
  have found : (s.names.nss.find? fun n => n.nsid == x.entry.nsid.toNat && !s.deletedFor n x) = some n := by
    obtain ⟨same, before, after, split_, none_before⟩ := List.find?_eq_some_iff_append.mp named
    refine List.find?_eq_some_iff_append.mpr ⟨by rw [same, there]; rfl, before, after, split_, fun q hq => ?_⟩
    rw [(Bool.not_eq_true' _).mp (none_before q hq)]
    rfl
  simp only [State.mapRange, found]
  rw [if_neg (by simp [conventional]), if_neg (by omega)]

/-- What has ended with no data owed is decided. -/
theorem EndedWith.decided {t : State} {r : Cpl} (ended : EndedWith t c x r) (none_owed : r.bytes = [] ∧ r.blocks = []) :
    ∃ y, t.ctx? c = some y ∧ y.cpl = some (x.stamp r) ∧ y.stage = .decided := by
  obtain ⟨y, held, cpl, stage⟩ := ended
  refine ⟨y, held, cpl, stage.resolve_right ?_⟩
  rintro ⟨-, -, f, -, -, owed⟩
  have blocks : (x.stamp r).blocks = r.blocks := by
    unfold Ctx.stamp
    split <;> rfl
  rw [(Ctx.stamp_result x r).2.2, blocks] at owed
  exact owed.elim (· none_owed.1) (· none_owed.2)

theorem EndedWith.good {t : State} {r : Cpl} (ended : EndedWith t c x r) (none_owed : r.bytes = [] ∧ r.blocks = [])
    (good : r.good = true) : (t.ctx? c).any (fun y => y.stage == .decided && (y.cpl.any fun r => r.good)) = true := by
  obtain ⟨y, held, cpl, stage⟩ := ended.decided none_owed
  have same : (x.stamp r).good = r.good := by
    unfold Ctx.stamp
    split <;> rfl
  rw [held, Option.any_some, cpl, stage, Option.any_some, same, good]
  rfl

@[simp] theorem State.complete_mcache (r : Cpl) : (s.complete c r).mcache = s.mcache :=
  (State.complete_moves c r s).only .mcache (by decide)

/-- A command of Map Cache Control that changes the cache and completes. -/
theorem Does.changesCache {i : Instr} {f : MapCache → MapCache} {r : Cpl} {Q : MapCache → Prop}
    (hand : AtHand s c (isAction 0xC6 action) x) (run : exec i s = .next ((s.modCache f).complete c r)) (rest : Q (f s.mcache)) :
    Does i s fun t => EndedWith t c x r ∧ Q t.mcache ∧ t.names = s.names := by
  refine Does.completes (u := s.modCache f) hand run rfl ?_
  rw [State.complete_mcache, State.complete_names]
  exact ⟨rest, rfl⟩

/-- A command of Map Cache Control that only completes. -/
theorem Does.keepsCache {i : Instr} {r : Cpl} (hand : AtHand s c (isAction 0xC6 action) x) (run : exec i s = .next (s.complete c r)) :
    Does i s fun t => EndedWith t c x r ∧ t.mcache = s.mcache ∧ t.names = s.names :=
  Does.changesCache (f := id) (Q := fun m => m = s.mcache) hand run rfl

/-! ## Preload (R517) -/

/-- A page moved for a preload leaves the ways named, the ways locked and the map as they are. -/
theorem State.pageTo_kept (ns page group : Nat) (s : State) : (s.pageTo ns page group).mcache.named = s.mcache.named ∧
    (s.pageTo ns page group).mcache.locked = s.mcache.locked ∧ (s.pageTo ns page group).names.map = s.names.map := by
  have taken (k : Nat) (t : State) : (t.takeSlot ns page k).mcache.named = t.mcache.named ∧
      (t.takeSlot ns page k).mcache.locked = t.mcache.locked ∧ (t.takeSlot ns page k).names.map = t.names.map := by
    unfold State.takeSlot
    extract_lets u
    rw [(State.pageAccess_moves _ _ _).only .mcache (by decide), (State.pageAccess_moves _ _ _).only .names (by decide)]
    exact ⟨rfl, rfl, rfl⟩
  unfold State.pageTo
  extract_lets k
  split
  · split
    · exact ⟨rfl, rfl, rfl⟩
    · exact taken k (s.modCache _)
  · exact taken k s

theorem MapCache.preloadLine_kept {mask : BitVec 16} {tag : Nat} {m n : MapCache} (put : m.preloadLine mask tag = some n) :
    n.named = m.named ∧ n.locked = m.locked := by
  unfold MapCache.preloadLine at put
  extract_lets set may at put
  split at put
  · cases put
    exact ⟨rfl, rfl⟩
  · split at put
    · cases put
    · cases put
      exact ⟨rfl, rfl⟩

/-- The lines of a preload, put in one after the other, and the count of those that overflow. -/
def State.preloaded (mask : BitVec 16) (ns : Nat) (lines : List Nat) (s : State) : MapCache × Nat :=
  lines.foldl (fun (q : MapCache × Nat) l =>
    match s.lineTag ns (16 * l) with
    | some t => match q.1.preloadLine mask t with
      | some m => (m, q.2)
      | none => (q.1, q.2 + 1)
    | none => q) (s.mcache, 0)

theorem State.preloaded_kept (mask : BitVec 16) (ns : Nat) (lines : List Nat) (s : State) :
    (s.preloaded mask ns lines).1.named = s.mcache.named ∧ (s.preloaded mask ns lines).1.locked = s.mcache.locked := by
  refine List.foldlRecOn (motive := fun q : MapCache × Nat => q.1.named = s.mcache.named ∧ q.1.locked = s.mcache.locked) lines _ ⟨rfl, rfl⟩ fun q held l _ => ?_
  split
  · split
    case h_1 put =>
      obtain ⟨named, locked⟩ := MapCache.preloadLine_kept put
      exact ⟨named.trans held.1, locked.trans held.2⟩
    case h_2 => exact held
  · exact held

theorem preload_names {n : Ns} (hand : AtHand s c (isAction 0xC6 5) x) (low : bits x.entry.cdw10 15 8 = 0) (d14 : x.entry.cdw14 = 0)
    (d15 : x.entry.cdw15 = 0) (few : ways (maskOf x.entry ||| s.mcache.locked) ≤ 12) (blocks : x.entry.cdw13 ≠ 0)
    (named : s.ns? x.entry.nsid.toNat = some n) (there : s.deletedFor n x = false) (conventional : n.zoned = false)
    (inside : slbaOf x.entry + x.entry.cdw13.toNat ≤ n.nsze) : Does (.preload c) s fun t =>
      (t.ctx? c).any (fun y => y.stage == .decided && (y.cpl.any fun r => r.good)) = true ∧
      t.mcache.named = s.mcache.named ||| maskOf x.entry ∧ t.mcache.locked = s.mcache.locked ∧ t.names.map = s.names.map := by
  let first := slbaOf x.entry / 512
  let last := slbaOf x.entry + x.entry.cdw13.toNat - 1
  let pages := (List.range (last / 512 + 1 - first)).map (first + ·)
  let g0 := s.setGroup ((s.pageSlot n.nsid first).getD (s.freeMapSlot fun _ => true))
  let u := s.each pages fun p s => s.pageTo n.nsid p ((g0 + (p - first)) % 128)
  let lines := (List.range (last / 16 + 1 - slbaOf x.entry / 16)).map fun i => slbaOf x.entry / 16 + i
  let r := u.preloaded (maskOf x.entry) n.nsid lines
  let v := u.modCache fun _ => { r.1 with named := r.1.named ||| maskOf x.entry }
  have run : exec (.preload c) s = .next (v.complete c (Cpl.val (BitVec.ofNat 32 r.2))) :=
    congrArg Host.Outcome.next ((State.mapCtl_clean hand low d14 d15 (fun _ => few) fun _ => blocks).trans
      (State.mapRange_inside named there conventional inside))
  have m : s.Moves [.names, .mem, .mcache, .free] u :=
    State.each_inv (fun p t m => Moves.op (State.pageTo_moves _ _ _ t) (by decide) m) _ (Moves.refl _ s)
  have kept : u.mcache.named = s.mcache.named ∧ u.mcache.locked = s.mcache.locked ∧ u.names.map = s.names.map :=
    State.each_inv (P := fun t => t.mcache.named = s.mcache.named ∧ t.mcache.locked = s.mcache.locked ∧ t.names.map = s.names.map)
      (fun p t ⟨named, locked, map⟩ => have moved := State.pageTo_kept n.nsid p ((g0 + (p - first)) % 128) t
        ⟨moved.1.trans named, moved.2.1.trans locked, moved.2.2.trans map⟩) pages ⟨rfl, rfl, rfl⟩
  obtain ⟨uNamed, uLocked, uMap⟩ := kept
  obtain ⟨rNamed, rLocked⟩ := State.preloaded_kept (maskOf x.entry) n.nsid lines u
  refine (Does.completes (Q := fun t => t.mcache = v.mcache ∧ t.names = v.names) hand run (m.only .ctxs (by decide))
    ⟨State.complete_mcache _, State.complete_names ..⟩).imp ?_
  rintro t ⟨ended, mcache, names⟩
  rw [mcache, names]
  exact ⟨ended.good ⟨rfl, rfl⟩ rfl, congrArg (· ||| maskOf x.entry) (rNamed.trans uNamed), rLocked.trans uLocked, uMap⟩

/-! ## Invalidate-range (R516) -/

/-- The lines of a range of blocks: those of its map pages' slots whose entries it names. -/
def State.inRange (ns from_ n : Nat) (s : State) (t : Nat) : Bool :=
  s.names.pagesIn.any fun q => q.1 == ns && s.inSlot q.2.2 t &&
    (let l := 512 * q.2.1 + 16 * (t - (s.mapAreaBase + 4096 * q.2.2) / 128)
     decide (from_ < l + 16) && decide (l < from_ + n))

/-- The line of a block of the range is one of them. -/
theorem State.inRange_lineTag {ns from_ n b tag : Nat} (below : b < n) (line : s.lineTag ns (from_ + b) = some tag) :
    s.inRange ns from_ n tag = true := by
  obtain ⟨k, slot, rfl⟩ := Option.map_eq_some_iff.mp line
  obtain ⟨q, found, rfl⟩ := Option.map_eq_some_iff.mp slot
  have here := List.find?_some found
  obtain ⟨ns_eq, page_eq⟩ := Bool.and_eq_true_iff.mp here
  have page : q.2.1 = (from_ + b) / 512 := beq_iff_eq.mp page_eq
  refine List.any_eq_true.mpr ⟨q, List.mem_of_find?_eq_some found, ?_⟩
  simp only [State.inSlot, ns_eq, Bool.and_eq_true, decide_eq_true_eq, true_and, page]
  omega

theorem MapCache.dropLines_none {tags : Nat → Bool} {tag : Nat} (hit : tags tag = true) (m : MapCache) :
    ((m.dropLines tags).sets.all fun q => q.ways.all fun w => w.2.tag != tag) = true := by
  refine List.all_eq_true.mpr fun q there => List.all_eq_true.mpr fun w held => ?_
  obtain ⟨y, -, rfl⟩ := List.mem_map.mp there
  have out := (List.mem_filter.mp held).2
  refine bne_iff_ne.mpr ?_
  rintro rfl
  rw [hit] at out
  cases out

theorem invalidateRange_drops {n : Ns} (hand : AtHand s c (isAction 0xC6 8) x) (low : bits x.entry.cdw10 15 8 = 0)
    (d14 : x.entry.cdw14 = 0) (d15 : x.entry.cdw15 = 0) (blocks : x.entry.cdw13 ≠ 0) (named : s.ns? x.entry.nsid.toNat = some n)
    (there : s.deletedFor n x = false) (conventional : n.zoned = false) (inside : slbaOf x.entry + x.entry.cdw13.toNat ≤ n.nsze) :
    Does (.invalidateRange c) s fun t => EndedWith t c x Cpl.ok ∧ t.mcache.locked = s.mcache.locked ∧
      t.mcache.enabled = s.mcache.enabled ∧ (∀ b < x.entry.cdw13.toNat, ∀ tag, s.lineTag n.nsid (slbaOf x.entry + b) = some tag →
      (t.mcache.sets.all fun q => q.ways.all fun w => w.2.tag != tag) = true) ∧ t.names = s.names := by
  let hit := s.inRange n.nsid (slbaOf x.entry) x.entry.cdw13.toNat
  have run : exec (.invalidateRange c) s = .next ((s.modCache (MapCache.dropLines hit)).complete c Cpl.ok) :=
    congrArg Host.Outcome.next ((State.mapCtl_clean hand low d14 d15 (fun no => by cases no) fun _ => blocks).trans
      (State.mapRange_inside named there conventional inside))
  refine Does.imp ?_ (Does.changesCache (Q := fun m => m = s.mcache.dropLines hit) hand run rfl)
  rintro t ⟨ended, mcache, names⟩
  rw [mcache]
  exact ⟨ended, rfl, rfl, fun b below tag line => MapCache.dropLines_none (State.inRange_lineTag below line) _, names⟩

end

/-! ## The commands -/

section
variable {s : State} {c : Nat} {x : Ctx}

theorem preload_full (hand : AtHand s c (isAction 0xC6 5) x) (low : bits x.entry.cdw10 15 8 = 0) (d14 : x.entry.cdw14 = 0)
    (d15 : x.entry.cdw15 = 0) (full : 12 < ways (maskOf x.entry ||| s.mcache.locked)) :
    exec (.preload c) s = .next (s.complete c (Cpl.invalid 10 16)) := by
  have refused : firstBad [(bits x.entry.cdw10 15 8 != 0, 10, 8), (decide (12 < ways (maskOf x.entry ||| s.mcache.locked)), 10, 16),
      (x.entry.cdw13 == 0, 13, 0), (x.entry.cdw14 != 0, 14, 0), (x.entry.cdw15 != 0, 15, 0)] = some (Cpl.invalid 10 16) := by
    rw [decide_eq_true full, low, d14, d15]
    cases x.entry.cdw13 == 0 <;> rfl
  exact congrArg Host.Outcome.next ((State.run_atHand hand).trans (congrArg (fun r => State.orElse c r _ s) refused))

theorem invalidateRange_empty (hand : AtHand s c (isAction 0xC6 8) x) (low : bits x.entry.cdw10 15 8 = 0) (d14 : x.entry.cdw14 = 0)
    (d15 : x.entry.cdw15 = 0) (none : x.entry.cdw13 = 0) :
    exec (.invalidateRange c) s = .next (s.complete c (Cpl.invalid 13 0)) := by
  have refused : firstBad [(bits x.entry.cdw10 15 8 != 0, 10, 8), (false, 10, 16), (x.entry.cdw13 == 0, 13, 0),
      (x.entry.cdw14 != 0, 14, 0), (x.entry.cdw15 != 0, 15, 0)] = some (Cpl.invalid 13 0) := by
    rw [none, low, d14, d15]
    rfl
  exact congrArg Host.Outcome.next ((State.run_atHand hand).trans (congrArg (fun r => State.orElse c r _ s) refused))

end

/-- Settles O30: each clause is the lemma of its command above, or one change of the cache by a command that then completes. -/
theorem mapCacheCommands : Obligations.MapCacheCommands := by
  unfold Obligations.MapCacheCommands
  refine ⟨?_, ?_, ?_, ?_, ?_, ?_, fun s c x n => preload_names, ?_, ?_, ?_, ?_, fun s c x n => invalidateRange_drops, ?_, ?_,
    fun s addr w => mapCacheMiss_off, ?_, fun s addr w => mapCacheMiss_corrected, ?_⟩
  · exact fun s c x hand low d14 d15 => Does.keepsCache hand
      (congrArg Host.Outcome.next (State.mapCtl_plain hand low d14 d15 (by decide)))
  · intro s c x hand low d14 d15 ready
    refine Does.changesCache (f := fun m => { m with enabled := true }) (Q := fun m => m = { s.mcache with enabled := true }) hand ?_ rfl
    exact congrArg Host.Outcome.next ((State.mapCtl_plain hand low d14 d15 (by decide)).trans
      (if_pos ready))
  · intro s c x hand low d14 d15 ready
    refine Does.keepsCache hand (congrArg Host.Outcome.next
      ((State.mapCtl_plain hand low d14 d15 (by decide)).trans (if_neg ?_)))
    rw [ready]
    decide
  · intro s c x hand low d14 d15
    refine Does.imp ?_ (Does.changesCache (f := MapCache.disable) (Q := fun m => m = s.mcache.disable) hand (congrArg Host.Outcome.next
      (State.mapCtl_plain hand low d14 d15 (by decide))) rfl)
    rintro t ⟨ended, mcache, names⟩
    rw [mcache]
    exact ⟨ended, rfl, rfl, MapCache.disable_dirtyLines _, rfl, names⟩
  · intro s c x hand low d14 d15
    refine Does.imp ?_ (Does.changesCache (f := MapCache.invalidateAll) (Q := fun m => m = s.mcache.invalidateAll) hand
      (congrArg Host.Outcome.next (State.mapCtl_plain hand low d14 d15 (by decide))) rfl)
    rintro t ⟨ended, mcache, names⟩
    rw [mcache]
    exact ⟨ended, rfl, rfl, rfl, rfl, names⟩
  · intro s c x hand low d14 d15
    refine Does.imp ?_ (Does.changesCache (f := MapCache.clean) (Q := fun m => m = s.mcache.clean) hand (congrArg Host.Outcome.next
      (State.mapCtl_plain hand low d14 d15 (by decide))) rfl)
    rintro t ⟨ended, mcache, names⟩
    rw [mcache]
    exact ⟨ended, MapCache.clean_dirtyLines _, rfl, rfl, rfl, names⟩
  · exact fun s c x hand low d14 d15 full => Does.keepsCache hand (preload_full hand low d14 d15 full)
  · intro s c x hand low d14 d15 few named
    refine Does.changesCache (f := fun m => { m with locked := m.locked ||| maskOf x.entry })
      (Q := fun m => m = { s.mcache with locked := s.mcache.locked ||| maskOf x.entry }) hand ?_ rfl
    exact congrArg Host.Outcome.next ((State.mapCtl_clean hand low d14 d15 (fun _ => few) fun no => by cases no).trans (if_pos named))
  · exact fun s c x hand low d14 d15 few other => Does.keepsCache hand (congrArg Host.Outcome.next
      ((State.mapCtl_clean hand low d14 d15 (fun _ => few) fun no => by cases no).trans (if_neg other)))
  · intro s c x hand low d14 d15 few
    refine Does.changesCache (f := fun m => { m with locked := m.locked &&& ~~~(maskOf x.entry) })
      (Q := fun m => m = { s.mcache with locked := s.mcache.locked &&& ~~~(maskOf x.entry) }) hand ?_ rfl
    exact congrArg Host.Outcome.next (State.mapCtl_clean hand low d14 d15 (fun _ => few) fun no => by cases no)
  · intro s addr w way l on found
    obtain ⟨hits, misses, kept⟩ := MapCache.touch_hit (w := w) on found
    refine ⟨_, mapCacheMiss_clean s addr w, ?_⟩
    beta_reduce
    rw [State.touchLine_mcache, State.touchLine_names]
    exact ⟨hits, misses, kept, rfl⟩
  · intro s addr w on missing
    obtain ⟨misses, hits, writebacks, installed⟩ := MapCache.touch_miss (w := w) on missing
    refine ⟨_, mapCacheMiss_clean s addr w, ?_⟩
    beta_reduce
    rw [State.touchLine_mcache, State.touchLine_names]
    exact ⟨misses, hits, writebacks, installed, rfl⟩
  · intro s addr w on missing
    refine Does.imp ?_ (mapCacheMiss_uncorrectable (w := w) on missing)
    rintro t ⟨mcache, names⟩
    obtain ⟨misses, hits, emptied⟩ := MapCache.fillFails_miss on missing
    rw [mcache]
    exact ⟨misses, hits, emptied, names⟩
  · exact fun s c x hand low d14 d15 none => Does.keepsCache hand (invalidateRange_empty hand low d14 d15 none)

end Sys2Proof.Machine
end

section
/-! SUPPORT. Some commands with few statements: a device reset of the service port, refused zone actions, one block of the command
lane, a request sent again, and the clocks and pulses of the crossings (spec/19 R679; spec/10 R377; spec/03 R95, R114; spec/14 R526 to
R537). -/

namespace Sys2Proof.Machine

/-! ## A warm device reset (spec/02 R58) -/

theorem State.emit_dramState (cls code source : Nat) (l : List (BitVec 256)) (s : State) :
    (s.emit cls code source l).aon.dramState = s.aon.dramState := by
  unfold State.emit
  extract_lets e
  split_ifs <;> rfl

/-- What a reset clears leaves its cause and what was said, and takes the processors out of release; with both host ports disabled the
device is held (spec/20 R698). -/
theorem State.warmReset_leaves {s : State} (c : Fin 12) (warm : ¬ (s.boot.cold = true ∧ s.aon.dramState = 3)) :
    (s.warmReset [c]).aon.cause.getLsbD c.val = true ∧ (s.warmReset [c]).boot.released = false ∧
    (s.warmReset [c]).aon.hold = (if s.pins.hostaEn || s.pins.hostbEn then .running else .warm) ∧ (s.warmReset [c]).out = s.out := by
  have said : (setBit s.aon.cause c.val).getLsbD c.val = true := setBit_get _ _ c.isLt
  have stays : ((s.setCause c.val).aon.restart).cause.getLsbD c.val = true := by
    show (if s.aon.fill = .idle then setBit s.aon.cause c.val else setBit (setBit s.aon.cause c.val) causeFill).getLsbD c.val = true
    split
    · exact said
    · exact setBit_keep _ _ _ said
  have here : ¬ ((s.setCause c.val).boot.cold = true ∧ (s.setCause c.val).aon.dramState = 3) := warm
  unfold State.warmReset
  extract_lets u valid kept v
  rw [if_neg (by exact here)]
  exact ⟨stays, rfl, rfl, rfl⟩

theorem deviceReset_resets {s : State} (tag : Byte) (running : s.aon.hold = .running) (steady : s.names.dumping = false)
    (warm : s.boot.cold = false ∨ s.aon.dramState ≠ 3) : Does (.deviceReset tag) s fun t => (.reply 0x05 tag 0 []) ∈ t.out ∧
    t.aon.hold = (if s.pins.hostaEn || s.pins.hostbEn then .running else .warm) ∧ t.boot.released = false ∧
    t.aon.cause.getLsbD 4 = true := by
  let u := (s.emit 0x0F 0x8001 noSource (pay [(1, tag.toNat)])).svcReply 0x05 tag 0x00 []
  have up : ¬ s.svcUp = false := by rw [State.svcUp, running]; decide
  have m : s.Moves [.aon, .book] (s.emit 0x0F 0x8001 noSource (pay [(1, tag.toNat)])) := State.emit_moves ..
  have hold : u.aon.hold = .running := (State.emit_hold ..).trans running
  have names : u.names.dumping = false := (congrArg Names.dumping (m.only .names (by decide))).trans steady
  have cold : u.boot.cold = s.boot.cold := congrArg Boot.cold (m.only .boot (by decide))
  have dram : u.aon.dramState = s.aon.dramState := State.emit_dramState ..
  have pins : u.pins = s.pins := m.only .pins (by decide)
  have here : ¬ (u.boot.cold = true ∧ u.aon.dramState = 3) := by
    rw [cold, dram]
    rintro ⟨isCold, three⟩
    obtain notCold | other := warm
    · exact Bool.noConfusion (notCold.symm.trans isCold)
    · exact other three
  have reset : u.warmSource 4 = u.warmReset [4] := by
    rw [State.warmSource, if_neg (by simp [hold]), if_neg (by simp [names])]
  obtain ⟨cause, released, held, out⟩ := State.warmReset_leaves (s := u) 4 here
  refine ⟨u.warmSource 4, congrArg Host.Outcome.next (if_neg up), ?_⟩
  rw [reset]
  beta_reduce
  rw [held, out, pins]
  exact ⟨List.mem_cons_self .., rfl, released, cause⟩

/-! ## Zone Management Send with Select All (R377, Table 10-4) -/

section
variable {s : State} {c action : Nat} {x : Ctx} {n : Ns}
  (hand : AtHand s c (fun x => isIoOp 0x79 x && bits x.entry.cdw13 7 0 == action) x) (named : s.ioNs x = some n)
  (good : s.ioBad x n = none) (zoned : n.zoned = true) (all : bits x.entry.cdw13 8 8 = 1) (turn : s.zoneTurn x = true)
  (quiet : x.update = false)
include hand named good zoned all turn quiet

/-- An action on all zones runs in its turn. -/
theorem State.zoneSend_all (k : Ctx → Ns → List Nat → State → State) : s.zoneSend c action k = k x n (s.usedZones n.nsid) s := by
  rw [State.zoneSend, State.settleEnded_other hand.1 quiet, State.run_atHand hand]
  simp only [named]
  rw [good, State.orElse_none, if_neg (by simp [zoned]), if_pos all, if_pos turn]

/-- An action that is refused for one zone is refused for all. -/
theorem zoneSend_refused {i : Instr} {r : Cpl} (run : exec i s = .next (s.zoneSend c action fun _ _ _ s => s.complete c r)) :
    Does i s fun t => EndedWith t c x r ∧ t.names = s.names :=
  Does.completes (u := s) hand (run.trans (congrArg Host.Outcome.next (State.zoneSend_all hand named good zoned all turn quiet _))) rfl
    (State.complete_names ..)

end

/-! ## The command lane (R95, R114) -/

theorem Port.nextBlock_txPos (x : Port) (n : Nat) (room : WriteBits → Bool) : (x.nextBlock n room).2.2.txPos = x.txPos := by
  unfold Port.nextBlock
  split
  · rfl
  · extract_lets packets
    split
    · rfl
    · split
      · dsimp only
        split <;> rfl
      · split <;> rfl

/-- The place of a block among those of its period goes on, and the block leaves. -/
theorem commandLaneBlockSend_leaves {s : State} {p : PortId} (up : (s.port p).cmdUp = true) (fresh : s.isStale (.port p) = false) :
    Does (.commandLaneBlockSend p) s fun t => (t.port p).txPos = ((s.port p).txPos + 1) % 8192 ∧ t.out.length = s.out.length + 1 := by
  have run : exec (.commandLaneBlockSend p) s = execCommandLaneBlockSend p s := rfl
  unfold execCommandLaneBlockSend at run
  rw [if_pos up] at run
  extract_lets y q x sent s1 s2 at run
  have m : s.Moves [.chorus] s1 := by
    unfold s1
    split
    · split
      · exact State.noteBits_moves ..
      · exact Moves.refl _ s
    · exact Moves.refl _ s
  have still : ¬ s2.isStale (.port p) = true := by
    have xing : s2.xing = s.xing := m.only .xing (by decide)
    rw [State.isStale, xing]
    exact fun stale => Bool.noConfusion (fresh.symm.trans stale)
  rw [if_neg still] at run
  refine ⟨_, run, ?_, ?_⟩
  · have txPos : x.txPos = (s.port p).txPos := Port.nextBlock_txPos ..
    show (s2.port p).txPos = _
    rw [State.modPort_port, if_pos rfl, txPos]
  · exact congrArg (fun l => l.length + 1) (m.only .out (by decide) : s1.out = s.out)

/-- A request sent fewer than three times is counted as timed out, and its packet is queued again. -/
theorem packetResponseTimeout_resends {s : State} {p : PortId} {tag : Byte} {r : Request}
    (found : ((s.port p).requests.find? fun x => x.packet.tag == tag && x.busyAt.isNone) = some r) (again : r.sends < 3) :
    Does (.packetResponseTimeout p tag) s fun t => (t.port p).pktTimeout = sat32 (s.port p).pktTimeout 1 ∧
      (t.port p).normal.getLast? = some (t.now, r.packet) := by
  let u := (s.at_ (r.sentAt + requestTimeout r.packet.opcode.toNat)).modPort p fun x => { x with pktTimeout := sat32 x.pktTimeout 1 }
  refine ⟨u.resend p r fun q => { q with sends := q.sends + 1 }, ?_, ?_, ?_⟩
  · simp only [exec, execPacketResponseTimeout, found]
    exact congrArg Host.Outcome.next (if_pos again)
  · rw [State.resend, State.modPort_port, if_pos rfl, State.modPort_port, if_pos rfl]
    rfl
  · rw [State.resend, State.modPort_port, if_pos rfl, List.getLast?_append_of_ne_nil _ (by simp)]
    rfl

/-! ## The crossings (R526 to R537) -/

theorem clockPresentSet_only {s : State} {p : PortId} {n : Nat} (toggles : 64 ≤ n) (on : (s.port p).train ≠ 0xC) (none_ : s.xing.hung = []) :
    exec (.clockPresentSet p n) s = .next (s.modPort p fun x => { x with clock := true }) := by
  refine congrArg Host.Outcome.next ((if_pos ⟨toggles, on⟩).trans ?_)
  dsimp only
  unfold State.when
  split
  · exact State.endHung_none (s := s.modPort p fun x => { x with clock := true }) none_ p false
  · rfl

theorem clockPresentClear_only {s : State} {p : PortId} {n : Nat} (clocks : 16 ≤ n) (clock : (s.port p).clock = true)
    (off : (s.port p).train = 0xC ∨ (s.port p).train = 0xB ∧ (s.port p).joint = true) :
    exec (.clockPresentClear p n) s = .next (s.modPort p fun x => { x with clock := false, blockLock := false }) := by
  refine congrArg Host.Outcome.next ((if_neg ?_).trans (if_pos ?_))
  · rintro (few | none)
    · omega
    · exact Bool.noConfusion (clock.symm.trans none)
  · rw [State.modPort_port, if_pos rfl]
    exact off

theorem staleCrossing_port {s : State} {p : PortId} (n : Nat) (on : (s.port p).train ≠ 0xC) : Does (.staleCrossing (.port p) n) s fun t =>
    t.xing.stalePort = setBit s.xing.stalePort p.val ∧ t.xing.discards = sat32 s.xing.discards n := by
  refine ⟨_, congrArg Host.Outcome.next (if_neg (by simpa using on)), ?_⟩
  beta_reduce
  rw [State.raiseXing_xing]
  exact ⟨rfl, rfl⟩

theorem pulseTransfer_port {s : State} {p : PortId} (e : Fin 6) {n : Nat} (some_ : 0 < n) (most : n ≤ 255)
    (fresh : s.isStale (.port p) = false) : exec (.pulseTransfer (.port p) ⟨e, n⟩) s =
      .next ((s.modXing fun y => { y with delivered := (.port p, n, false) :: y.delivered }).modPort p (Port.countEvents e n)) := by
  refine congrArg Host.Outcome.next ((if_neg (by dsimp only; omega)).trans ((if_neg (by simp [fresh])).trans ((if_neg (by dsimp only; omega)).trans ?_)))
  dsimp only
  rw [Nat.min_eq_right most, decide_eq_false (by omega)]

/-- Settles O60: each clause is the lemma of its command above, or one about an access to the status window. -/
theorem windowAccessesComplete : Obligations.WindowAccessesComplete := by
  unfold Obligations.WindowAccessesComplete
  refine ⟨?_, ?_, ?_, ?_, ?_, ?_, ?_, ?_, ?_, fun s p => commandLaneBlockSend_leaves,
    fun s p tag r => packetResponseTimeout_resends, fun s p n toggles on none_ => ⟨_, clockPresentSet_only toggles on none_, rfl⟩,
    fun s p n clocks clock off => ⟨_, clockPresentClear_only clocks clock off, rfl⟩, fun s p n => staleCrossing_port n,
    fun s p e n some_ most fresh => ⟨_, pulseTransfer_port e some_ most fresh, rfl⟩⟩
  · intro s q off arrives free none_ count aligned
    have running : s.stopped off = none := by rw [State.stopped, count]
    obtain ⟨t, run, out, -, drops, -, -⟩ := rcRegisterRead_current arrives free running aligned none_
    refine ⟨t, run, ?_, drops count⟩
    rw [out, count]
    rfl
  · intro s q off arrives free running aligned lo none_
    obtain ⟨t, run, out, head, -, -⟩ := loRegisterRead_captures arrives free running aligned none_ lo
    exact ⟨t, run, out, by rw [head]; rfl⟩
  · intro s q off v arrives free running aligned there
    exact Does.imp (fun t h => h.1) (hiRegisterRead_captured arrives free running aligned there)
  · intro s q off v p arrives free events
    have running : s.stopped off = none := by rw [State.stopped, events]; rfl
    refine ⟨_, statusWindowWrite_runs arrives free running v, ?_, fun r other => ?_⟩
    · rw [State.writeReg_port, if_pos events]
    · rw [State.writeReg_port, if_neg]
      rw [events]
      rintro ⟨⟩
      exact other rfl
  · intro s p held clock none_
    obtain ⟨t, run, joint, stale, rest⟩ := jointResetRelease_ends held clock
    refine ⟨t, run, joint, stale, ?_⟩
    rw [rest none_]
    exact none_
  · intro s tag running _ steady warm
    exact Does.imp (fun t h => ⟨h.2.2.2, h.2.2.1⟩) (deviceReset_resets tag running steady (.inl warm))
  · intro s p n trained fresh last
    refine Does.imp (fun t h => ?_) (temperatureStale_marks trained fresh last)
    rw [h.1]
    exact ⟨rfl, last⟩
  · exact fun s c x n hand named good zoned all turn quiet => zoneSend_refused hand named good zoned all turn quiet rfl
  · exact fun s c x n hand named good zoned all turn quiet => zoneSend_refused hand named good zoned all turn quiet rfl

end Sys2Proof.Machine
end

section
/-! SUPPORT. HAND_OVER_PORTS of a port of the peer's by a controller that is not paired (spec/18 R653, R657). -/

namespace Sys2Proof.Machine

/-- HAND_OVER_PORTS of port 0. -/
def handOverEntry : SqEntry := { blankEntry with opcode := 0xCD, cdw10 := 1, cdw11 := 1 }

/-- A solo controller that owns no port, with HAND_OVER_PORTS of port 0 at hand as command 7. -/
def State.soloAsked : State :=
  { State.reset with
    pair := { Pair.reset with mode := true, st := .solo, own := 0 }
    ctxs := [{ Ctx.fresh 7 0 (.host .a) 0 handOverEntry .none with stage := .admitted }] }

/-- The mask is at fault before the state is looked at. -/
theorem handOverPorts_soloAsked : Does (.handOverPorts 7) State.soloAsked fun t =>
    ((t.ctx? 7).bind Ctx.cpl).map Cpl.sc = some 0x02 := ⟨_, rfl, by decide +kernel⟩

/-- Refutes O32: its clause on HAND_OVER_PORTS while not paired leaves the mask open. In the state here the mask names a port that is not the
controller's own, and the command ends with Invalid Field, as the fields are tested first. -/
theorem not_pairControlCommands : ¬ Obligations.PairControlCommands := by
  intro h
  obtain ⟨-, -, unpaired, -⟩ := h
  obtain ⟨t, run, ⟨y, held, cpl, -⟩, -⟩ := unpaired State.soloAsked 7
    { Ctx.fresh 7 0 (.host .a) 0 handOverEntry .none with stage := .admitted } ⟨rfl, rfl, by decide, .a, rfl⟩ rfl (by decide) (by decide) rfl
    rfl rfl (by decide)
  obtain ⟨u, run', field⟩ := handOverPorts_soloAsked
  cases Host.Outcome.next.inj (run.symm.trans run')
  rw [held, Option.bind_some, cpl] at field
  revert field
  decide +kernel

end Sys2Proof.Machine
end

section
/-! SUPPORT. A port reset with a namespace whose readiness is due (spec/12 R483; spec/02 R89). -/

namespace Sys2Proof.Machine

/-- Port Control, PORT_RESET of port 0. -/
def portResetEntry : SqEntry := { blankEntry with opcode := 0xC4, cdw10 := 2 }

/-- PORT_RESET of port 0, at hand as command 7. -/
def portResetCtx : Ctx := { Ctx.fresh 7 0 (.host .a) 0 portResetEntry .none with stage := .admitted }

/-- A namespace of no group, not marked ready. -/
def dueNs : Ns :=
  { nsid := 1, zoned := false, narrow := false, nsze := 0, groups := [], ana2 := false, attachA := true, attachB := true, deleting := false
    backing := none, ready := false }

/-- A running device with port 0 trained, a namespace that nothing keeps from being ready, and PORT_RESET of port 0 at hand. -/
def State.readyDue : State :=
  { State.reset with
    pins := { State.reset.pins with prsnt := 1 }
    boot := { Boot.reset with released := true, complete := true, restored := true, replayed := true }
    names := { State.reset.names with nss := [dueNs] }
    ports := upd State.reset.ports 0 fun x => { x with train := 9 }
    ctxs := [portResetCtx] }

/-- The readiness of the namespaces is looked at once the port has been reset. -/
theorem portControlPortReset_readyDue : Does (.portControlPortReset 7) State.readyDue fun t => (t.names.nss.map Ns.ready) = [true] :=
  ⟨_, rfl, by decide +kernel⟩

/-- Refutes O13: its clause on PORT_RESET holds every name as it was. A change of a port's service makes the namespaces ready that are due
(R89), and in the state here one is. -/
theorem not_portControlCommands : ¬ Obligations.PortControlCommands := by
  intro h
  obtain ⟨-, -, reset, -⟩ := h
  obtain ⟨t, run, -, -, -, -, -, names⟩ := reset State.readyDue 7 portResetCtx 0 ⟨rfl, rfl, by decide, .a, rfl⟩ (by decide) (by decide)
    (by decide) (by decide) rfl rfl rfl
  obtain ⟨u, run', ready⟩ := portControlPortReset_readyDue
  cases Host.Outcome.next.inj (run.symm.trans run')
  rw [names] at ready
  cases ready

end Sys2Proof.Machine
end

section
/-! SUPPORT. A halt of a host port's channel while the device goes to PS3 with a calibration break of the same command still open (spec/13
R509; spec/08 R305; spec/01 R40). -/

namespace Sys2Proof.Machine

/-- The command of context 7, of Port A's host, that waits. -/
def waitingCtx : Ctx := { Ctx.fresh 7 0 (.host .a) 1 blankEntry .none with stage := .waiting }

/-- A running device on its way to PS3 with nothing dirty, port 0 turning, a calibration break of command 7 open on it, and command 7 waiting. -/
def State.enteringWithBreak : State :=
  { State.reset with
    aon := { Aon.reset with hold := .running }
    boot := { Boot.reset with released := true }
    power := { State.reset.power with entering := true }
    spins := upd State.reset.spins 0 fun x => { x with turning := true }
    ports := upd State.reset.ports 0 fun x => { x with obeyed := true }
    actCals := upd State.reset.actCals 0 fun x => { x with brk := some askedBreak }
    ctxs := [waitingCtx] }

/-- The entry to PS3 ends the break, and so ends the command again, with the result of an abandoned calibration. -/
theorem dmaHalt_enteringWithBreak : Does (.dmaHalt 0x00 0 ⟨false, .command 7⟩) State.enteringWithBreak fun t =>
    (t.ctx? 7).bind Ctx.cpl = some (waitingCtx.stamp (Cpl.val 2)) :=
  ⟨_, rfl, by decide +kernel⟩

/-- Refutes O29: its clause on a DMA halt of a port's channel has the command end with Internal Error in every state. In the state here the
device goes to PS3 and a calibration break is open in the command's name: once the command has ended, the entry to PS3 is looked at again, its
spin-down abandons the break, and the command's completion becomes that of an abandoned calibration. -/
theorem not_memoryCommands : ¬ Obligations.MemoryCommands := by
  intro h
  obtain ⟨-, -, -, -, -, -, -, -, -, -, -, -, -, -, -, -, halt, -⟩ := h
  obtain ⟨t, run, ⟨y, here, ends, -⟩, -⟩ := halt State.enteringWithBreak 7 waitingCtx 0 false (by decide) rfl rfl rfl rfl
  obtain ⟨u, run', again⟩ := dmaHalt_enteringWithBreak
  cases Host.Outcome.next.inj (run.symm.trans run')
  rw [here, Option.bind_some, ends] at again
  revert again
  decide

end Sys2Proof.Machine
end

section
/-! SUPPORT. What the traffic of a pair leaves of its standing (spec/18 R621 to R651): operations that send messages, complete commands,
settle waits and end media work keep the pair's state, ports and epoch, its identity, the dirty limit and the groups' ANA states. -/

namespace Sys2Proof.Machine

/-- A pair without what its traffic changes: messages sent and kept, work of the peer, answers owed and completions withheld. -/
def Pair.role (p : Pair) : Pair :=
  { p with msgSeq := 0, unanswered := [], withheld := [], taking := none, forwarded := 0, peerReqs := [] }

/-- Where a controller stands in its pair. -/
structure Standing where
  role : Pair
  pairId : BitVec 128
  dirtyLimit : Nat
  anaA : AnaState × AnaState
  anaB : AnaState × AnaState

def State.standing (s : State) : Standing :=
  { role := s.pair.role, pairId := s.nor.config.pairId, dirtyLimit := s.names.dirtyLimitMib, anaA := (s.fa.ana1, s.fa.ana2)
    anaB := (s.fb.ana1, s.fb.ana2) }

/-- The parts of the state that a standing is read from. -/
def Standing.parts : List Part := [.pair, .nor, .names, .fa, .fb]

/-! ## Operations on one part -/

theorem State.Moves.standing {l : List Part} {s t : State} (m : s.Moves l t) (h : (Standing.parts.all fun p => !l.contains p) = true) :
    t.standing = s.standing := by
  simp only [Standing.parts, List.all_cons, List.all_nil, Bool.and_true, Bool.and_eq_true, Bool.not_eq_true', List.contains_eq_mem,
    decide_eq_false_iff_not] at h
  obtain ⟨hp, hn, hm, ha, hb⟩ := h
  have pair : t.pair = s.pair := m.only .pair hp
  have nor : t.nor = s.nor := m.only .nor hn
  have names : t.names = s.names := m.only .names hm
  have fa : t.fa = s.fa := m.only .fa ha
  have fb : t.fb = s.fb := m.only .fb hb
  unfold State.standing
  rw [pair, nor, names, fa, fb]

theorem State.modPair_standing {f : Pair → Pair} (h : ∀ p, (f p).role = p.role) (s : State) : (s.modPair f).standing = s.standing :=
  congrArg (fun r => { s.standing with role := r }) (h s.pair)

theorem State.modCfg_standing {f : ConfigStore → ConfigStore} (h : ∀ c, (f c).pairId = c.pairId) (s : State) :
    (s.modCfg f).standing = s.standing :=
  congrArg (fun i => { s.standing with pairId := i }) (h s.nor.config)

theorem State.modNames_standing {f : Names → Names} (h : ∀ n, (f n).dirtyLimitMib = n.dirtyLimitMib) (s : State) :
    (s.modNames f).standing = s.standing :=
  congrArg (fun d => { s.standing with dirtyLimit := d }) (h s.names)

theorem State.modFn_standing {f : HostFn → HostFn} (h : ∀ x, (f x).ana1 = x.ana1 ∧ (f x).ana2 = x.ana2) (n : Fn) (s : State) :
    (s.modFn n f).standing = s.standing := by
  cases n
  · exact congrArg (fun a => { s.standing with anaA := a }) (congrArg₂ Prod.mk (h s.fa).1 (h s.fa).2)
  · exact congrArg (fun a => { s.standing with anaB := a }) (congrArg₂ Prod.mk (h s.fb).1 (h s.fb).2)

@[simp] theorem State.modPort_standing (p : PortId) (f : Port → Port) (s : State) : (s.modPort p f).standing = s.standing := rfl

@[simp] theorem State.modMem_standing (f : Mem → Mem) (s : State) : (s.modMem f).standing = s.standing := rfl

@[simp] theorem State.modCache_standing (f : MapCache → MapCache) (s : State) : (s.modCache f).standing = s.standing := rfl

@[simp] theorem State.modSpin_standing (p : PortId) (f : Spin → Spin) (s : State) : (s.modSpin p f).standing = s.standing := rfl

theorem State.when_standing {f : State → State} (h : ∀ s : State, (f s).standing = s.standing) (b : Bool) (s : State) :
    (s.when b f).standing = s.standing := by
  unfold State.when
  split
  · exact h s
  · rfl

theorem State.each_standing {α : Type} {f : α → State → State} (h : ∀ x (s : State), (f x s).standing = s.standing) (l : List α)
    (s : State) : (s.each l f).standing = s.standing :=
  State.each_keeps State.standing h l s

theorem State.each_modProt_standing {α : Type} (g : α → Prot → Prot) (l : List α) (s : State) :
    (s.each l fun x s => s.modProt (g x)).standing = s.standing :=
  State.each_standing (f := fun x s => s.modProt (g x)) (fun _ _ => rfl) l s

theorem State.each_modMember_standing {α : Type} (p : α → PortId) (g : α → Member → Member) (l : List α) (s : State) :
    (s.each l fun x s => s.modMember (p x) (g x)).standing = s.standing :=
  State.each_standing (f := fun x s => s.modMember (p x) (g x)) (fun _ _ => rfl) l s

/-! ## Messages and completions -/

@[simp] theorem State.sendWings_standing (type : Nat) (payload : List Nat) (blocks : List Blk) (s : State) :
    (s.sendWings type payload blocks).standing = s.standing :=
  State.modPair_standing (fun _ => rfl) s

@[simp] theorem State.sendKept_standing (type : Nat) (payload : List Nat) (blocks : List Blk) (ns lba : Nat) (adm : W32) (ctx : Option Nat)
    (s : State) : (s.sendKept type payload blocks ns lba adm ctx).standing = s.standing :=
  (State.modPair_standing (fun _ => rfl) _).trans (s.sendWings_standing type payload blocks)

@[simp] theorem State.complete_standing (c : Nat) (r : Cpl) (s : State) : (s.complete c r).standing = s.standing := by
  unfold State.complete
  split
  · rfl
  · dsimp only
    split
    · split <;> rfl
    · rfl
    · rfl
    · exact State.sendWings_standing ..

@[simp] theorem State.completeWait_standing (w : Wait) (s : State) : (s.completeWait w).standing = s.standing :=
  State.each_standing (fun _ s => s.complete_standing _ _) _ s

@[simp] theorem State.completeWrite_standing (c : Nat) (s : State) : (s.completeWrite c).standing = s.standing := by
  unfold State.completeWrite
  split
  · split
    · exact State.modPair_standing (fun _ => rfl) s
    · exact s.complete_standing c _
  · rfl

@[simp] theorem State.await_standing (c : Nat) (w : Wait) (s : State) : (s.await c w).standing = s.standing := rfl

@[simp] theorem State.askMedia_standing (a : ActId) (d : Descriptor) (ns lba : Nat) (s : State) :
    (s.askMedia a d ns lba).standing = s.standing := State.sendKept_standing ..

@[simp] theorem State.forwardCmd_standing (x : Ctx) (s : State) : (s.forwardCmd x).standing = s.standing := by
  unfold State.forwardCmd
  refine (State.modPair_standing (fun _ => ?_) _).trans ((State.sendKept_standing ..).trans ?_) <;> rfl

/-! ## Long operations and breaks -/

@[simp] theorem State.modOp_standing (h : Nat) (f : LongOp → LongOp) (s : State) : (s.modOp h f).standing = s.standing := rfl

@[simp] theorem State.endOp_standing (h : Nat) (st : OpState) (result : W16) (s : State) : (s.endOp h st result).standing = s.standing :=
  State.modCfg_standing (fun c => by split <;> rfl) s

@[simp] theorem State.opPoint_standing (h : Nat) (s : State) : (s.opPoint h).standing = s.standing := by
  unfold State.opPoint
  split
  · split
    · exact s.endOp_standing h _ _
    · split <;> rfl
  · rfl

@[simp] theorem State.fullPoint_standing (a : ActId) (s : State) : (s.fullPoint a).standing = s.standing :=
  State.each_standing (fun _ s => s.opPoint_standing _) _ s

@[simp] theorem State.abandonBreak_standing (a : ActId) (s : State) : (s.abandonBreak a).standing = s.standing := by
  unfold State.abandonBreak
  split
  · rfl
  · split
    · exact (State.complete_standing ..).trans ((State.raiseCal_moves ..).standing rfl)
    · exact (State.fullPoint_standing ..).trans ((State.raiseCal_moves ..).standing rfl)
    · exact (State.raiseCal_moves ..).standing rfl

@[simp] theorem State.quiesce_standing (requeue : Bool) (a : ActId) (s : State) : (s.quiesce requeue a).standing = s.standing := by
  unfold State.quiesce
  rw [State.abandonBreak_standing, (State.endSession_moves ..).standing rfl, (State.seqToIdle_moves ..).standing rfl,
    (State.cancelGates_moves ..).standing rfl]

@[simp] theorem State.leaveService_standing (p : PortId) (requeue : Bool) (s : State) :
    (s.leaveService p requeue).standing = s.standing := by
  unfold State.leaveService
  rw [(State.noteService_moves ..).standing rfl, State.modPort_standing]
  exact State.each_standing (fun _ s => s.quiesce_standing requeue _) (fins 2) s

@[simp] theorem State.spinDown_standing (p : PortId) (s : State) : (s.spinDown p).standing = s.standing := by
  unfold State.spinDown
  extract_lets u v
  have down : v.standing = s.standing := by
    unfold v u
    rw [(State.unloadSides_moves ..).standing rfl, State.leaveService_standing, State.modSpin_standing,
      (State.freeSlot_moves p s).standing rfl]
  split
  · rw [State.modSpin_standing, down]
  · rw [(State.brakeDown_moves p v).standing rfl, down]

/-! ## Journal records and the rebuild -/

@[simp] theorem State.journalRec_standing (l : List Nat) (s : State) : (s.journalRec l).standing = s.standing :=
  State.when_standing (fun _ => State.sendKept_standing ..) _ s

@[simp] theorem State.excRec_standing (group stripe chunk : Nat) (pl : Place) (s : State) :
    (s.excRec group stripe chunk pl).standing = s.standing := s.journalRec_standing _

@[simp] theorem State.memberRec_standing (p : PortId) (s : State) : (s.memberRec p).standing = s.standing :=
  (State.journalRec_standing ..).trans ((State.recordMembers_moves s).standing rfl)

@[simp] theorem State.putCheckpoint_standing (n : Nat) (s : State) : (s.putCheckpoint n).standing = s.standing :=
  (State.journalRec_standing ..).trans ((State.record_moves ..).standing rfl)

@[simp] theorem State.rebuildCancelled_standing (s : State) : s.rebuildCancelled.standing = s.standing := by
  unfold State.rebuildCancelled
  rw [State.putCheckpoint_standing]
  rfl

@[simp] theorem State.retireMembers_standing (s : State) : s.retireMembers.standing = s.standing := by
  refine State.each_standing (fun p s => ?_) (fins 32) s
  dsimp only
  split
  · rw [State.memberRec_standing]
    rfl
  · rfl

@[simp] theorem State.rebuildEnd_standing (s : State) : s.rebuildEnd.standing = s.standing := by
  unfold State.rebuildEnd
  split
  · rfl
  · split
    · rfl
    · split
      · split <;> rfl
      · refine (State.retireMembers_standing _).trans ((State.putCheckpoint_standing ..).trans ?_)
        exact ((State.raiseProt_moves ..).standing rfl).trans (State.endOp_standing ..)

@[simp] theorem State.commitPoint_standing (s : State) : s.commitPoint.standing = s.standing := by
  unfold State.commitPoint
  split
  · rfl
  · split
    · split
      · exact (State.rebuildCancelled_standing _).trans (State.endOp_standing ..)
      · rfl
    · split
      · exact s.opPoint_standing _
      · exact s.rebuildEnd_standing

@[simp] theorem State.stripeDone_standing (g : Group) (i : Nat) (s : State) : (s.stripeDone g i).standing = s.standing := by
  unfold State.stripeDone
  split
  · rfl
  · split
    · rfl
    · split
      · exact s.commitPoint_standing
      · exact State.commitPoint_standing _

@[simp] theorem State.endWorks_standing (g : Group) (i : Nat) (s : State) : (s.endWorks g i).standing = s.standing := by
  unfold State.endWorks
  extract_lets ws u v
  have ended : v.standing = s.standing := by
    refine (State.each_standing (fun w s => ?_) ws u).trans rfl
    refine (State.each_standing (fun q s => ?_) _ _).trans ((State.commitPlaces_moves ..).standing rfl)
    exact State.excRec_standing ..
  split
  · rfl
  · split
    · exact (State.stripeDone_standing ..).trans ended
    · exact (State.commitPoint_standing _).trans ended

/-! ## Blocks and zones -/

@[simp] theorem State.pageIn_standing (ns page : Nat) (s : State) : (s.pageIn ns page).standing = s.standing := by
  unfold State.pageIn
  split
  · rfl
  · exact (State.pageAccess_moves ..).standing rfl

@[simp] theorem State.setMap_standing (ns lba : Nat) (e : W64) (s : State) : (s.setMap ns lba e).standing = s.standing := by
  unfold State.setMap
  rw [State.when_standing (fun _ => State.sendKept_standing ..), (State.touchEntry_moves ..).standing rfl]
  exact s.pageIn_standing ns _

@[simp] theorem State.unmap_standing (ns : Nat) (l : List (Nat × Nat)) (s : State) : (s.unmap ns l).standing = s.standing :=
  (State.modNames_standing (fun _ => rfl) _).trans (State.each_standing (fun _ s => s.setMap_standing ns _ _) _ s)

@[simp] theorem State.modZone_standing (ns z : Nat) (f : Zone → Zone) (s : State) : (s.modZone ns z f).standing = s.standing := rfl

@[simp] theorem State.resetZone_standing (x : Ns) (z : Nat) (s : State) : (s.resetZone x z).standing = s.standing := by
  unfold State.resetZone
  rw [State.when_standing (fun _ => State.sendKept_standing ..), State.modZone_standing]
  have dropped := State.when_standing (State.modNames_standing (f := Names.dropBlocks x.nsid [(z * zoneBlocks x.narrow, zoneBlocks x.narrow)])
    fun _ => rfl) x.zoned s
  split
  · exact (State.each_modProt_standing ..).trans ((State.endWorks_standing ..).trans dropped)
  · exact dropped

@[simp] theorem State.dropDump_standing (s : State) : s.dropDump.standing = s.standing := rfl

@[simp] theorem State.noteDirty_standing (s : State) : s.noteDirty.standing = s.standing :=
  State.when_standing State.dropDump_standing _ _

@[simp] theorem State.forgetBlocks_standing (s : State) : s.forgetBlocks.standing = s.standing := rfl

@[simp] theorem State.beginSanitize_standing (adm : W32) (s : State) : (s.beginSanitize adm).standing = s.standing := by
  unfold State.beginSanitize
  rw [State.noteDirty_standing]
  exact State.each_standing (fun n s => (State.saveReads_moves ..).standing rfl) _ s

/-! ## Updates, reads and waits -/

@[simp] theorem State.askOwner_standing (c : Nat) (n : Ns) (l : List Nat) (s : State) : (s.askOwner c n l).standing = s.standing := by
  refine State.each_standing (fun b s => ?_) l s
  dsimp only
  split
  · split
    · exact s.askMedia_standing ..
    · rfl
  · rfl

@[simp] theorem State.tryRead_standing (c : Nat) (s : State) : (s.tryRead c).standing = s.standing := by
  unfold State.tryRead
  split
  · rfl
  · split
    · rfl
    · split
      · exact s.complete_standing c _
      · dsimp only
        split
        · exact s.complete_standing c _
        · split
          · split
            · exact State.complete_standing ..
            · rfl
          · exact State.askOwner_standing ..

@[simp] theorem State.mediaOver_standing (c : Nat) (x : Ctx) (s : State) : (s.mediaOver c x).standing = s.standing := by
  unfold State.mediaOver
  split
  · exact s.forwardCmd_standing x
  · exact s.complete_standing c _

@[simp] theorem State.harden_standing (ns : Nat) (s : State) : (s.harden ns).standing = s.standing := by
  unfold State.harden
  split <;> rfl

@[simp] theorem State.mediaDone_standing (x : Ctx) (s : State) : (s.mediaDone x).standing = s.standing := by
  unfold State.mediaDone
  split
  · exact State.each_standing (fun ns s => s.harden_standing ns) _ s
  · split
    · exact s.harden_standing _
    · rfl

@[simp] theorem State.mediaEnd_standing (c : Nat) (x : Ctx) (s : State) : (s.mediaEnd c x).standing = s.standing := by
  unfold State.mediaEnd
  dsimp only
  split
  · exact (State.completeWrite_standing ..).trans (s.mediaDone_standing x)
  · split
    · exact (State.mediaOver_standing ..).trans (s.mediaDone_standing x)
    · exact s.mediaDone_standing x

@[simp] theorem State.settleWaits_standing (s : State) : s.settleWaits.standing = s.standing := by
  refine State.each_standing (fun c s => ?_) _ s
  dsimp only
  split
  · rfl
  · split
    · split
      · exact s.mediaEnd_standing c _
      · rfl
    · split
      · exact s.mediaOver_standing c _
      · rfl
    · split
      · exact s.complete_standing c _
      · rfl
    · rfl

@[simp] theorem State.dropCtx_standing (c : Nat) (s : State) : (s.dropCtx c).standing = s.standing := rfl

@[simp] theorem State.applyWrite_standing (c : Nat) (x : Ctx) (data : List Blk) (s : State) :
    (s.applyWrite c x data).standing = s.standing := by
  unfold State.applyWrite
  extract_lets beyond s1 s2 s3 peer mirrored s4
  have put : s4.standing = s.standing := by
    refine (State.when_standing (fun _ => State.sendKept_standing ..) _ _).trans ((State.noteDirty_standing _).trans ?_)
    exact (State.modNames_standing (fun _ => rfl) _).trans ((State.saveReads_moves ..).standing rfl)
  split
  · exact put
  · split
    · exact put
    · split
      · exact put
      · exact (State.completeWrite_standing ..).trans put

@[simp] theorem State.applyOther_standing (c : Nat) (x : Ctx) (n : Ns) (s : State) : (s.applyOther c x n).standing = s.standing := by
  unfold State.applyOther
  extract_lets before s1 zb all zs s2 s3
  have saved : s1.standing = s.standing := (State.saveReads_moves ..).standing rfl
  have applied : s3.standing = s.standing := by
    refine (State.noteDirty_standing _).trans (Eq.trans ?_ saved)
    unfold s2
    split
    · split
      · exact State.each_standing (fun z s => s.resetZone_standing n z) _ s1
      · exact s1.unmap_standing ..
    · split
      · exact State.each_standing (fun z s => s.resetZone_standing n z) _ s1
      · exact s1.unmap_standing ..
  split
  · exact applied
  · exact (State.complete_standing ..).trans applied

@[simp] theorem State.startOp_standing (o : LongOp) (s : State) : (s.startOp o).1.standing = s.standing := rfl

@[simp] theorem State.applyWipe_standing (c : Nat) (x : Ctx) (s : State) : (s.applyWipe c x).standing = s.standing := by
  unfold State.applyWipe State.startSingle
  split
  · exact s.complete_standing c _
  · split
    · exact s.complete_standing c _
    · exact (State.complete_standing ..).trans ((State.beginSanitize_standing ..).trans (s.startOp_standing _))

@[simp] theorem State.applyOne_standing (c : Nat) (s : State) : (s.applyOne c).standing = s.standing := by
  unfold State.applyOne
  split
  · rfl
  · split
    · exact s.applyWipe_standing c _
    · split
      · exact s.complete_standing c _
      · split
        · exact s.complete_standing c _
        · dsimp only
          split
          · split
            · rfl
            · split
              · exact s.applyWrite_standing ..
              · rfl
          · split
            · exact s.applyOther_standing ..
            · rfl

@[simp] theorem State.applyTurns_standing (k : Nat) (s : State) : (State.applyTurns k s).standing = s.standing := by
  induction k generalizing s with
  | zero => rfl
  | succ k ih =>
    unfold State.applyTurns
    split
    · exact (ih _).trans (s.applyOne_standing _)
    · rfl

@[simp] theorem State.applySpace_standing (k : Nat) (s : State) : (State.applySpace k s).standing = s.standing := by
  induction k generalizing s with
  | zero => rfl
  | succ k ih =>
    unfold State.applySpace
    split
    · dsimp only
      split
      · exact s.applyOne_standing _
      · exact (ih _).trans (s.applyOne_standing _)
    · rfl

@[simp] theorem State.settleOrder_standing (s : State) : s.settleOrder.standing = s.standing := by
  unfold State.settleOrder
  rw [State.settleWaits_standing, State.each_standing (fun c s => s.tryRead_standing c), State.applyTurns_standing,
    State.applySpace_standing]

/-! ## Namespace deletes, shutdowns, PS3 and readiness -/

@[simp] theorem State.groupRec_standing (g : Group) (ns : Nat) (s : State) : (s.groupRec g ns).standing = s.standing :=
  State.when_standing (fun _ => State.sendKept_standing ..) _ s

@[simp] theorem State.nsRec_standing (n : Ns) (size : Nat) (s : State) : (s.nsRec n size).standing = s.standing :=
  State.when_standing (fun _ => State.sendKept_standing ..) _ s

@[simp] theorem State.freeGroupOf_standing (g : Group) (s : State) : (s.freeGroupOf g).standing = s.standing := by
  unfold State.freeGroupOf
  rw [State.rebuildEnd_standing, State.groupRec_standing, (State.recordExceptions_moves _).standing rfl,
    (State.recordGroups_moves _).standing rfl, State.each_modMember_standing]
  exact (State.each_modMember_standing ..).trans (State.each_standing (fun i s => s.endWorks_standing g i) _ s)

@[simp] theorem State.dropNs_standing (ns : Nat) (s : State) : (s.dropNs ns).standing = s.standing :=
  (State.modNames_standing (fun _ => rfl) _).trans (State.each_standing (fun g s => s.freeGroupOf_standing g) _ s)

@[simp] theorem State.removeNs_standing (ns : Nat) (s : State) : (s.removeNs ns).standing = s.standing := by
  unfold State.removeNs
  split
  · exact (State.nsRec_standing ..).trans (s.dropNs_standing ns)
  · exact s.dropNs_standing ns

@[simp] theorem State.settleDeletes_standing (s : State) : s.settleDeletes.standing = s.standing := by
  refine State.each_standing (fun x s => ?_) _ s
  split
  case h_1 =>
    extract_lets all
    split
    · rfl
    · rw [State.complete_standing, State.noteDirty_standing]
      exact State.each_standing (fun ns s => s.removeNs_standing ns) all s
  · rfl

@[simp] theorem State.shutdownDone_standing (f : Fn) (s : State) : (s.shutdownDone f).standing = s.standing := by
  unfold State.shutdownDone
  dsimp only
  split
  · exact State.modFn_standing (f := fun y => { y with shutdown := 0, shst := 2 }) (fun _ => ⟨rfl, rfl⟩) f s
  · rfl

@[simp] theorem State.retirePage_standing (page : Nat) (s : State) : (s.retirePage page).standing = s.standing := by
  unfold State.retirePage
  split
  · rfl
  · extract_lets u
    have read : u.standing = s.standing := (State.pageAccess_moves page false s).standing rfl
    clear_value u
    rw [(State.raiseMem_moves ..).standing rfl, (State.pageAccess_moves ..).standing rfl]
    exact (State.modCfg_standing (f := fun c => { c with retired := c.retired ++ [page] }) (fun _ => rfl) u).trans read

@[simp] theorem State.retireWaiting_standing (s : State) : s.retireWaiting.standing = s.standing :=
  State.each_standing (fun page s => s.retirePage_standing page) _ _

@[simp] theorem State.ps3SpinDown_standing (p : PortId) (s : State) : (s.ps3SpinDown p).standing = s.standing := by
  unfold State.ps3SpinDown
  dsimp only
  split
  · rfl
  · exact State.spinDown_standing ..

@[simp] theorem State.ps3Reached_standing (s : State) : s.ps3Reached.standing = s.standing := by
  unfold State.ps3Reached
  extract_lets s1 s2 s3 s4 s5 s6
  have left : s3.standing = s.standing := State.each_standing (f := fun p s => s.modPort p _) (fun _ _ => rfl) _ s2
  have written : s4.standing = s3.standing := by
    refine State.each_standing (fun a s => ?_) (fins 64) s3
    split
    · exact (State.writeCalRecord_moves a s).standing rfl
    · rfl
  have down : s5.standing = s4.standing := State.each_standing (fun p s => s.ps3SpinDown_standing p) (fins 32) s4
  have told : s6.standing = s5.standing :=
    State.when_standing (fun s => State.each_standing (fun _ s => s.sendWings_standing ..) _ s) _ s5
  rw [(State.noteServices_moves _).standing rfl, (State.limitEngines_moves _).standing rfl, State.modMem_standing, State.modCache_standing]
  exact told.trans (down.trans (written.trans left))

@[simp] theorem State.noteClean_standing (s : State) : s.noteClean.standing = s.standing := by
  have cleaned : (((s.settleDeletes.noteDirty.shutdownDone .a).shutdownDone .b).retireWaiting).standing = s.standing := by simp
  unfold State.noteClean
  dsimp only
  split
  · exact (State.ps3Reached_standing _).trans cleaned
  · exact cleaned

@[simp] theorem State.bufferChanged_standing (s : State) : s.bufferChanged.standing = s.standing := by
  simp [State.bufferChanged]

@[simp] theorem State.loadDir_standing (x : Ns) (s : State) : (s.loadDir x).standing = s.standing := by
  unfold State.loadDir
  split
  · split <;> rfl
  · rfl

@[simp] theorem State.noteReady_standing (s : State) : s.noteReady.standing = s.standing := by
  unfold State.noteReady
  split
  · exact State.each_standing (fun x s => s.loadDir_standing x) _ s
  · rfl

@[simp] theorem State.takenDone_standing (s : State) : s.takenDone.standing = s.standing := by
  unfold State.takenDone
  split
  · split
    · exact (State.sendWings_standing ..).trans (State.modPair_standing (fun _ => rfl) s)
    · rfl
  · rfl

@[simp] theorem State.settle_standing (s : State) : s.settle.standing = s.standing := by
  unfold State.settle
  rw [State.when_standing, State.takenDone_standing, (State.noteProgress_moves _).standing rfl, State.noteReady_standing]
  intro s
  rw [(State.noteServices_moves _).standing rfl]
  rfl

end Sys2Proof.Machine
end

section
/-! SUPPORT. How a controller's standing in its pair changes: ANA states told to both functions, contending, standing down, becoming solo and
becoming paired (spec/18 R630, R645 to R652). -/

namespace Sys2Proof.Machine

/-! ## ANA states (R630, R631) -/

@[simp] theorem State.deliverEvents_standing (f : Fn) (k : Nat) (s : State) : (State.deliverEvents f k s).standing = s.standing := by
  induction k generalizing s with
  | zero => rfl
  | succ k ih =>
    unfold State.deliverEvents
    dsimp only
    split
    · rw [ih, State.complete_standing]
      refine State.modFn_standing ?_ f s
      exact fun _ => ⟨rfl, rfl⟩
    · rfl

@[simp] theorem State.asyncEvent_standing (f : Fn) (type info page : Nat) (s : State) : (s.asyncEvent f type info page).standing = s.standing := by
  refine (State.deliverEvents_standing ..).trans (State.modFn_standing ?_ f s)
  exact fun _ => ⟨rfl, rfl⟩

/-- A standing with the ANA state of one group of one function set. -/
def Standing.setAna (f : Fn) (group2 : Bool) (st : AnaState) (x : Standing) : Standing := match f, group2 with
  | .a, false => { x with anaA := (st, x.anaA.2) }
  | .a, true => { x with anaA := (x.anaA.1, st) }
  | .b, false => { x with anaB := (st, x.anaB.2) }
  | .b, true => { x with anaB := (x.anaB.1, st) }

theorem State.setAna_standing (f : Fn) (group2 : Bool) (st : AnaState) (s : State) :
    (s.setAna f group2 st).standing = s.standing.setAna f group2 st := by
  unfold State.setAna
  extract_lets x u
  by_cases same : (if group2 then x.ana2 else x.ana1) = st
  · rw [if_pos same]
    subst same
    cases f <;> cases group2 <;> rfl
  · rw [if_neg same, State.when_standing (fun s => s.asyncEvent_standing f 2 3 0x0C)]
    cases f <;> cases group2 <;> rfl

/-- A standing whose groups have the same ANA states on both functions. -/
def Standing.withAnas (g : Bool → AnaState) (x : Standing) : Standing := { x with anaA := (g false, g true), anaB := (g false, g true) }

theorem State.setAnas_standing (g : Bool → AnaState) (s : State) : (s.setAnas g).standing = s.standing.withAnas g := by
  simp only [State.setAnas, State.each, List.foldl_cons, List.foldl_nil, State.setAna_standing]
  rfl

theorem State.anaTable_of_stoodDown {s : State} (h : s.pair.st = .stoodDown) : s.anaTable = fun _ => .inaccessible := by
  funext g
  rw [State.anaTable, h]

theorem State.followAna_standing (s : State) : s.followAna.standing = s.standing.withAnas s.anaTable := s.setAnas_standing _

/-! ## What a standing says -/

theorem State.pair_of {s : State} {x : Standing} (h : s.standing = x) {α : Type} (get : Pair → α) (kept : ∀ p : Pair, get p.role = get p) :
    get s.pair = get x.role :=
  (kept s.pair).symm.trans (congrArg (fun y => get y.role) h)

theorem State.anas_of {s : State} {g : Bool → AnaState} {x : Standing} (h : s.standing = x.withAnas g) :
    s.fa.ana1 = g false ∧ s.fa.ana2 = g true ∧ s.fb.ana1 = g false ∧ s.fb.ana2 = g true :=
  ⟨congrArg (fun y => y.anaA.1) h, congrArg (fun y => y.anaA.2) h, congrArg (fun y => y.anaB.1) h, congrArg (fun y => y.anaB.2) h⟩

/-! ## Changes of the pair's own fields -/

/-- A change that does not look at what traffic changes acts on the role. -/
theorem State.modPair_standing_role {f : Pair → Pair} (h : ∀ p, (f p).role = (f p.role).role) (s : State) :
    (s.modPair f).standing = { s.standing with role := (f s.standing.role).role } :=
  congrArg (fun r => { s.standing with role := r }) (h s.pair)

@[simp] theorem State.emit_standing (cls code source : Nat) (payload : List (BitVec 256)) (s : State) :
    (s.emit cls code source payload).standing = s.standing := (State.emit_moves ..).standing rfl

theorem State.raisePair_standing (n : Nat) (s : State) :
    (s.raisePair n).standing = { s.standing with role := { s.standing.role with events := setBit s.standing.role.events n } } := by
  unfold State.raisePair
  rw [State.emit_standing, State.modPair_standing_role fun _ => rfl]
  rfl

@[simp] theorem State.raisePort_standing (p : PortId) (n : Nat) (s : State) : (s.raisePort p n).standing = s.standing :=
  (State.raisePort_moves ..).standing rfl

/-! ## Media work that ends (R652) -/

@[simp] theorem State.modSeq_standing (a : ActId) (f : Seq → Seq) (s : State) : (s.modSeq a f).standing = s.standing := rfl

@[simp] theorem State.modProt_standing (f : Prot → Prot) (s : State) : (s.modProt f).standing = s.standing := rfl

@[simp] theorem State.endWork_standing (a : ActId) (s : State) : (s.endWork a).standing = s.standing := by
  unfold State.endWork
  rw [State.quiesce_standing, State.modSeq_standing]

@[simp] theorem State.settleUnloads_standing (p : PortId) (s : State) : (s.settleUnloads p).standing = s.standing := by
  unfold State.settleUnloads
  split
  · rfl
  · rw [State.when_standing (fun s => s.completeWait_standing _), State.completeWait_standing]

@[simp] theorem State.dropPort_standing (p : PortId) (s : State) : (s.dropPort p).standing = s.standing := by
  unfold State.dropPort
  extract_lets s1 s2 s3 s4 s5
  have parked : s3.standing = s2.standing := State.each_standing (f := fun sd s => s.modAct (actOf p sd) _) (fun _ _ => rfl) _ s2
  have clean : s4.standing = s3.standing := State.each_standing (f := fun sd s => s.modAcal (actOf p sd) _) (fun _ _ => rfl) _ s3
  have kept : s5.standing = s4.standing := State.when_standing (fun s => (State.keepCaptures_moves _ s).standing rfl) _ s4
  rw [State.settleUnloads_standing, (State.freeSlot_moves ..).standing rfl, State.modSpin_standing, kept, clean, parked,
    State.modPort_standing, State.leaveService_standing]

theorem State.dropAll_standing (s : State) :
    s.dropAll.standing = { s.standing with role := { s.standing.role with mirrors := [], journal := [] } } := by
  unfold State.dropAll
  extract_lets s1 s2 s3
  have kept : s3.standing = s.standing := by
    unfold s3
    rw [State.modProt_standing, State.modNames_standing (f := Names.dropDirty) fun _ => rfl]
    exact (State.each_standing (fun p s => s.dropPort_standing p) _ s1).trans (State.each_standing (fun a s => s.endWork_standing a) _ s)
  rw [State.modPair_standing_role fun _ => rfl, kept]
  rfl

@[simp] theorem State.uncertain_standing (n : Nat) (s : State) : (s.uncertain n).standing = s.standing :=
  State.when_standing (fun s => s.emit_standing ..) _ s

@[simp] theorem State.endAdmitted_standing (s : State) : s.endAdmitted.standing = s.standing := by
  unfold State.endAdmitted
  rw [State.uncertain_standing, State.each_standing fun x s => s.complete_standing ..]

@[simp] theorem State.orphan_standing (s : State) : s.orphan.standing = s.standing := rfl

/-! ## Standing down (R652) -/

/-- The role of a controller that has stood down. -/
def Pair.stoodDown (p : Pair) : Pair :=
  { p with st := .stoodDown, settling := false, coordinator := false, servesOther := false, events := setBit p.events 4, mirrors := []
           journal := [], own := 0, handing := none, syncing := false }

theorem State.standDown_standing (reason token : Nat) (s : State) :
    (s.standDown reason token).standing = Standing.withAnas (fun _ => .inaccessible) { s.standing with role := s.standing.role.stoodDown } := by
  unfold State.standDown
  extract_lets s1 s2 s3
  have role : (s2.dropAll.modPair fun p => { p with own := 0, handing := none, taking := none, syncing := false }).standing =
      { s.standing with role := s.standing.role.stoodDown } := by
    unfold s2 s1
    rw [State.modPair_standing_role fun _ => rfl, State.dropAll_standing, State.emit_standing, State.raisePair_standing,
      State.modPair_standing_role fun _ => rfl]
    rfl
  have down : s3.standing = Standing.withAnas (fun _ => .inaccessible) { s.standing with role := s.standing.role.stoodDown } := by
    unfold s3
    rw [State.followAna_standing, State.anaTable_of_stoodDown (State.pair_of role Pair.st fun _ => rfl), role]
  rw [State.settle_standing, State.noteClean_standing, State.orphan_standing, State.endAdmitted_standing, down]

/-! ## FENCED (R647; spec/03 R128, R729) -/

/-- The port of a companion that has sent FENCED is out of service: its token noted, its obedience over. -/
def State.unfollowed (p : PortId) (k : Packet) (s : State) : State :=
  let u := (s.modPort p fun q => { q with rx := q.rx.drop 1 }).when (k.payload.length == 8)
    (State.modPort p fun x => { x with token := BitVec.ofNat 64 (field k.payload 0 8) })
  if (u.port p).obeyed then u.obedienceLost p else u.raisePort p 2

theorem State.unfollowed_standing (p : PortId) (k : Packet) (s : State) : (s.unfollowed p k).standing = s.standing := by
  unfold State.unfollowed
  extract_lets u
  have noted : u.standing = s.standing := by
    unfold u
    rw [State.when_standing fun s => s.modPort_standing .., State.modPort_standing]
  split
  · exact (State.raisePort_standing ..).trans ((State.dropPort_standing ..).trans noted)
  · exact (State.raisePort_standing ..).trans noted

theorem fenced_run {s : State} {p : PortId} {k : Packet} (got : Received s p 0xE4 k) :
    exec (.fenced p) s = .next (if (s.unfollowed p k).pair.st = .solo
      then (s.unfollowed p k).standDown 2 ((s.unfollowed p k).port p).token.toNat else (s.unfollowed p k).settle) :=
  congrArg Host.Outcome.next (State.takeRx_of got _)

theorem fenced_standsDown {s : State} {p : PortId} {k : Packet} (got : Received s p 0xE4 k) (solo : s.pair.st = .solo) :
    exec (.fenced p) s = .next ((s.unfollowed p k).standDown 2 ((s.unfollowed p k).port p).token.toNat) := by
  rw [fenced_run got, if_pos ((State.pair_of (s.unfollowed_standing p k) Pair.st fun _ => rfl).trans solo)]

/-- Settles O51: FENCED makes the port leave service and a solo controller stand down, and nothing that follows changes where it stands. -/
theorem soloStandsDown : Obligations.SoloStandsDown := by
  intro s p k got solo
  have down := (s.unfollowed p k).standDown_standing 2 ((s.unfollowed p k).port p).token.toNat
  exact ⟨_, fenced_standsDown got solo, State.pair_of down Pair.st fun _ => rfl, State.pair_of down Pair.own fun _ => rfl, State.anas_of down⟩

end Sys2Proof.Machine
end

section
/-! SUPPORT. How a controller becomes solo, paired or contending, and what of the write buffer is left when it stands down (spec/18 R622,
R645 to R652). -/

namespace Sys2Proof.Machine

/-! ## Contending (R645) -/

@[simp] theorem State.setMember_standing (p : PortId) (f : Member → Member) (s : State) : (s.modMember p f).standing = s.standing := rfl

theorem State.abandonPair_standing (s : State) :
    s.abandonPair.standing = { s.standing with role := { s.standing.role with handing := none, syncing := false } } := by
  unfold State.abandonPair
  rw [State.each_standing fun c s => s.complete_standing .., State.modPair_standing_role fun _ => rfl]
  rfl

theorem State.anaTable_of_contending {s : State} (h : s.pair.st = .contending) : s.anaTable = fun _ => .change := by
  funext g
  rw [State.anaTable, h]

theorem State.startContend_standing {s : State} (h : s.pair.st = .paired ∨ s.pair.st = .forming) :
    s.startContend.standing = Standing.withAnas (fun _ => .change)
      { s.standing with role := { s.standing.role with st := .contending, handing := none, syncing := false } } := by
  have role : (s.abandonPair.modPair fun p => { p with st := .contending }).standing =
      { s.standing with role := { s.standing.role with st := .contending, handing := none, syncing := false } } := by
    rw [State.modPair_standing_role fun _ => rfl, State.abandonPair_standing]
    rfl
  unfold State.startContend
  rw [if_pos h, State.followAna_standing, State.anaTable_of_contending (State.pair_of role Pair.st fun _ => rfl), role]

/-! ## Solo (R647 to R651) -/

@[simp] theorem State.takeMirror_standing (m : Mirror) (s : State) : (s.takeMirror m).standing = s.standing := by
  unfold State.takeMirror
  dsimp only
  have put : (s.modNames (Names.putCarried m.ns m.lba m.data)).standing = s.standing :=
    State.modNames_standing (f := Names.putCarried m.ns m.lba m.data) (fun _ => rfl) s
  split
  · split
    · rw [State.modZone_standing, put]
    · exact put
  · exact put

@[simp] theorem State.applyRecord_standing (r : JournalRec) (s : State) : (s.applyRecord r).standing = s.standing := by
  cases r
  case map ns lba e => exact s.setMap_standing ns lba e
  case zone ns z code wp =>
    unfold State.applyRecord
    dsimp only
    split <;> exact s.modZone_standing ns z _
  all_goals rfl

theorem State.takeMirrors_standing (s : State) :
    s.takeMirrors.standing = { s.standing with role := { s.standing.role with mirrors := [], journal := [] } } := by
  unfold State.takeMirrors
  dsimp only
  rw [State.retireWaiting_standing, State.each_standing fun (r : W32 × JournalRec) s => s.applyRecord_standing r.2,
    State.each_standing fun m s => s.takeMirror_standing m, State.modPair_standing_role fun _ => rfl]
  rfl

@[simp] theorem State.endForwarded_standing (s : State) : s.endForwarded.standing = s.standing := by
  unfold State.endForwarded
  dsimp only
  rw [State.uncertain_standing, State.each_standing fun x s => s.complete_standing ..]

@[simp] theorem State.reclaimWork_standing (s : State) : s.reclaimWork.standing = s.standing := by
  unfold State.reclaimWork
  extract_lets rs mine s1 s2
  have gone : s2.standing = s1.standing := State.each_standing (fun r s => s.modSeq_standing r.act _) rs s1
  refine (State.each_standing (fun m s => ?_) mine s2).trans (gone.trans (State.modPair_standing (fun _ => rfl) s))
  split
  · exact s.modSeq_standing _ _
  · rfl

@[simp] theorem State.commitWork_standing (w : Work) (s : State) : (s.commitWork w).standing = s.standing := by
  unfold State.commitWork
  extract_lets s1
  have taken : s1.standing = s.standing := s.modProt_standing _
  split
  · exact taken
  · extract_lets was s2
    have placed : s2.standing = s.standing := ((State.commitPlaces_moves ..).standing rfl).trans taken
    rw [State.bufferChanged_standing]
    split
    · exact (s2.stripeDone_standing ..).trans placed
    · exact (s2.stripeDone_standing ..).trans placed
    · rw [State.modProt_standing, (State.raiseProt_moves ..).standing rfl, placed]
    · exact s2.commitPoint_standing.trans placed

@[simp] theorem State.rebuildTo_standing (phase st : Fin 5) (s : State) : (s.rebuildTo phase st).standing = s.standing := rfl

@[simp] theorem State.checkpointDone_standing (n : Nat) (s : State) : (s.checkpointDone n).standing = s.standing := by
  unfold State.checkpointDone
  extract_lets s1
  have noted : s1.standing = s.standing := s.modProt_standing _
  split
  · exact noted
  · extract_lets s2
    have kept : s2.standing = s.standing := (s1.modOp_standing _ _).trans noted
    split
    · rw [State.rebuildTo_standing, State.opPoint_standing, kept]
    · exact kept

@[simp] theorem State.noPeer_standing (s : State) : s.noPeer.standing = s.standing := by
  unfold State.noPeer
  extract_lets s1 s2
  have written : s1.standing = s.standing := by
    refine State.each_standing (fun x s => ?_) _ s
    split
    · exact s.completeWrite_standing _
    · rfl
  have committed : s2.standing = s.standing := (State.each_standing (fun w s => s.commitWork_standing w) _ s1).trans written
  split
  · exact (s2.checkpointDone_standing _).trans committed
  · exact committed

@[simp] theorem State.newRebuild_standing (st : OpState) (origin : Nat) (s : State) : (s.newRebuild st origin).1.standing = s.standing :=
  s.startOp_standing _

@[simp] theorem State.rebuildWaits_standing (s : State) : s.rebuildWaits.standing = s.standing := by
  unfold State.rebuildWaits
  split
  · rfl
  · split
    · rfl
    · dsimp only
      rw [State.rebuildTo_standing, State.modProt_standing, State.newRebuild_standing]

@[simp] theorem State.takeRebuild_standing (s : State) : s.takeRebuild.standing = s.standing := by
  unfold State.takeRebuild
  extract_lets s1 q
  have dropped : s1.standing = s.standing := s.modProt_standing _
  split
  · split
    · exact dropped
    · exact (s1.rebuildTo_standing 0 0).trans dropped
  · split
    · rw [State.rebuildTo_standing, State.modProt_standing, State.modOp_standing]
      exact (s1.newRebuild_standing .running 3).trans dropped
    · split
      · exact s1.rebuildWaits_standing.trans dropped
      · exact dropped

theorem State.anaTable_of_solo {s : State} (h : s.pair.st = .solo) : s.anaTable = fun _ => .optimized := by
  funext g
  rw [State.anaTable, h]

/-- The role of a controller that has become solo. -/
def Pair.becameSolo (now : Nat) (p : Pair) : Pair :=
  { p with st := .solo, settling := true, settleAt := now, own := 0xFFFFFFFF, peerOwn := 0, coordinator := true, servesOther := true
           handing := none, syncing := false, takeovers := satAdd 255 p.takeovers 1, events := setBit p.events 3, mirrors := [], journal := [] }

/-- The standing of a controller that has become solo: a pair without an identity takes this controller's. -/
def Standing.becameSolo (now : Nat) (x : Standing) : Standing :=
  Standing.withAnas (fun _ => .optimized)
    { x with role := x.role.becameSolo now, pairId := if x.pairId = 0 then Config.deviceIdentity else x.pairId }

theorem State.name_standing (i : BitVec 128) (s : State) :
    (s.when (s.nor.config.pairId == 0) (State.modCfg fun c => { c with pairId := i })).standing =
      { s.standing with pairId := if s.standing.pairId = 0 then i else s.standing.pairId } := by
  have own : s.standing.pairId = s.nor.config.pairId := rfl
  unfold State.when
  rw [own]
  split
  · rename_i none
    rw [if_pos (eq_of_beq none)]
    rfl
  · rename_i named
    rw [if_neg (ne_of_beq_false (Bool.eq_false_iff.mpr named)), ← own]

theorem State.becomeSolo_standing (s : State) : s.becomeSolo.standing = s.standing.becameSolo s.now := by
  unfold State.becomeSolo
  extract_lets gained last s1 s2 s3 s4
  have role : s4.bufferChanged.standing =
      { s.standing with role := s.standing.role.becameSolo s.now
                        pairId := if s.standing.pairId = 0 then Config.deviceIdentity else s.standing.pairId } := by
    unfold s4 s3 s2 s1
    rw [State.bufferChanged_standing, State.takeRebuild_standing, State.noPeer_standing, State.reclaimWork_standing,
      State.endForwarded_standing, State.orphan_standing, State.takeMirrors_standing, State.name_standing, State.emit_standing,
      State.raisePair_standing, State.modPair_standing_role fun _ => rfl]
    rfl
  rw [State.settle_standing, State.followAna_standing, State.anaTable_of_solo (State.pair_of role Pair.st fun _ => rfl), role]
  rfl

/-! ## Paired (R622, R624) -/

/-- The ports that a controller owns when it pairs (Table 18-1). -/
def defaultSplit (side : Bool) : W32 := if side then 0xFFFF0000 else 0x0000FFFF

/-- The role of a controller that has paired under an epoch. -/
def Pair.becamePaired (e : BitVec 63) (p : Pair) : Pair :=
  { p with st := .paired, own := defaultSplit p.side, peerOwn := ~~~defaultSplit p.side, coordinator := !p.side, servesOther := false
           epoch := e, epochOver := false }

theorem State.becomePaired_standing {high : Nat} {e : BitVec 63} (next : nextEpoch high = some e) (s : State) :
    ∃ g, (s.becomePaired high).standing = Standing.withAnas g { s.standing with role := s.standing.role.becamePaired e } := by
  unfold State.becomePaired
  extract_lets mine s1 s2
  have role : s2.standing = { s.standing with role := s.standing.role.becamePaired e } := by
    unfold s2
    rw [next]
    dsimp only
    rw [(State.presentOwned_moves _).standing rfl]
    unfold s1 mine
    rw [State.modPair_standing_role fun _ => rfl, next]
    rfl
  exact ⟨s2.anaTable, by rw [State.settle_standing, State.followAna_standing, role]⟩

/-! ## The write buffer (R652) -/

@[simp] theorem State.settle_buffer (s : State) : s.settle.names.buffer = s.names.buffer := by
  have ready : s.noteReady.names.buffer = s.names.buffer := by
    unfold State.noteReady
    split
    · refine State.each_keeps (fun t => t.names.buffer) (fun x s => ?_) _ s
      unfold State.loadDir
      split
      · split <;> rfl
      · rfl
    · rfl
  have rest : s.settle.names = s.noteReady.names := by
    unfold State.settle
    extract_lets u
    have early : u.names = s.noteReady.names :=
      ((State.takenDone_moves _).only .names (by decide)).trans ((State.noteProgress_moves _).only .names (by decide))
    rw [← early]
    unfold State.when
    split
    · exact (State.noteServices_moves _).only .names (by decide)
    · rfl
  rw [rest, ready]

theorem State.removeNs_empty (ns : Nat) {s : State} (empty : s.names.buffer = []) : (s.removeNs ns).names.buffer = [] := by
  have dropped : (s.dropNs ns).names.buffer = [] := by
    have kept : (s.each (s.prot.groups.filter fun g => g.ns == ns) State.freeGroupOf).names = s.names :=
      State.each_keeps State.names (fun g s => (State.freeGroupOf_moves g s).only .names (by decide)) _ s
    unfold State.dropNs
    dsimp only [State.modNames_names, State.modProt_names]
    rw [kept, empty]
    rfl
  unfold State.removeNs
  split
  · exact (congrArg Names.buffer ((State.nsRec_moves ..).only .names (by decide))).trans dropped
  · exact dropped

theorem State.settleDeletes_empty {s : State} (empty : s.names.buffer = []) : s.settleDeletes.names.buffer = [] := by
  refine State.each_inv (P := fun t => t.names.buffer = []) (fun x s empty => ?_) _ empty
  split
  case h_1 =>
    extract_lets all
    split
    · exact empty
    · rw [State.complete_names, State.noteDirty_buffer]
      exact State.each_inv (P := fun t => t.names.buffer = []) (fun ns s empty => State.removeNs_empty ns empty) all empty
  · exact empty

@[simp] theorem State.ps3Reached_buffer (s : State) : s.ps3Reached.names.buffer = s.names.buffer := by
  unfold State.ps3Reached
  extract_lets s1 s2 s3 s4 s5 s6
  have left : s3.names = s2.names := State.each_keeps (f := fun p s => s.modPort p _) State.names (fun _ _ => rfl) _ s2
  have written : s4.names = s3.names := by
    refine State.each_keeps State.names (fun a s => ?_) (fins 64) s3
    split
    · exact (State.writeCalRecord_moves a s).only .names (by decide)
    · rfl
  have down : s5.names = s4.names :=
    State.each_keeps State.names (fun p s => (State.ps3SpinDown_moves p s).only .names (by decide)) (fins 32) s4
  have told : s6.names = s5.names := by
    unfold s6 State.when
    split
    · exact State.each_keeps State.names (fun n s => (State.sendWings_moves ..).only .names (by decide)) _ s5
    · rfl
  have last (u : State) : u.limitEngines.noteServices.names = u.names :=
    ((State.noteServices_moves _).only .names (by decide)).trans ((State.limitEngines_moves _).only .names (by decide))
  rw [last, State.modMem_names, State.modCache_names, told, down, written, left]
  rfl

theorem State.noteClean_empty {s : State} (empty : s.names.buffer = []) : s.noteClean.names.buffer = [] := by
  have cleaned : ((((s.settleDeletes.noteDirty.shutdownDone .a).shutdownDone .b).retireWaiting)).names.buffer = [] := by
    have rest := ((State.retireWaiting_moves ((s.settleDeletes.noteDirty.shutdownDone .a).shutdownDone .b)).only .names (by decide)).trans
      (((State.shutdownDone_moves .b (s.settleDeletes.noteDirty.shutdownDone .a)).only .names (by decide)).trans
        ((State.shutdownDone_moves .a s.settleDeletes.noteDirty).only .names (by decide)))
    rw [rest, State.noteDirty_buffer]
    exact State.settleDeletes_empty empty
  unfold State.noteClean
  dsimp only
  split
  · rw [State.ps3Reached_buffer, cleaned]
  · exact cleaned

theorem State.standDown_empty (reason token : Nat) (s : State) : (s.standDown reason token).names.buffer = [] := by
  unfold State.standDown
  extract_lets s1 s2 s3
  have told (u : State) : u.followAna.names = u.names := (State.followAna_moves u).only .names (by decide)
  have dropped : s3.names.buffer = [] := by
    unfold s3 State.dropAll
    rw [told, State.modPair_names, State.modPair_names, State.modProt_names, State.modNames_names]
    rfl
  rw [State.settle_buffer]
  have ended : s3.endAdmitted.names = s3.names := (State.endAdmitted_moves s3).only .names (by decide)
  have orphaned : s3.endAdmitted.orphan.names = s3.endAdmitted.names := (State.orphan_moves s3.endAdmitted).only .names (by decide)
  refine State.noteClean_empty ?_
  rw [orphaned, ended, dropped]

end Sys2Proof.Machine
end

section
/-! SUPPORT. The Wings link: training, resets, blocks and heartbeats (spec/18 R634 to R640, R644). -/

namespace Sys2Proof.Machine

/-! ## Messages and events -/

@[simp] theorem State.emit_pair (cls code source : Nat) (payload : List (BitVec 256)) (s : State) :
    (s.emit cls code source payload).pair = s.pair := (State.emit_moves ..).only .pair (by decide)

theorem State.raisePair_pair (n : Nat) (s : State) : (s.raisePair n).pair = { s.pair with events := setBit s.pair.events n } :=
  State.emit_pair ..

theorem State.raisePair_names (n : Nat) (s : State) : (s.raisePair n).names = s.names := (State.emit_moves ..).only .names (by decide)

theorem State.raisePair_xing (n : Nat) (s : State) : (s.raisePair n).xing = s.xing := (State.emit_moves ..).only .xing (by decide)

theorem State.raisePair_now (n : Nat) (s : State) : (s.raisePair n).now = s.now := (State.emit_moves ..).only .now (by decide)

@[simp] theorem State.sendWings_names (type : Nat) (payload : List Nat) (blocks : List Blk) (s : State) :
    (s.sendWings type payload blocks).names = s.names := rfl

theorem State.sendHello_msgSeq (s : State) : s.sendHello.pair.msgSeq = s.pair.msgSeq + 1 := rfl

/-- A message sent is the newest output, of its type. -/
theorem State.sendWings_sent (type : Nat) (payload : List Nat) (blocks : List Blk) (s : State) :
    ((s.sendWings type payload blocks).out.head?.any (Out.isWings (BitVec.ofNat 8 type))) = true := by
  show (BitVec.ofNat 8 type == BitVec.ofNat 8 type) = true
  exact beq_self_eq_true _

/-! ## Resets of the link (R639) -/

/-- A link that is up or training is reset. -/
def Pair.linkReset (p : Pair) : Pair :=
  { p with wings := 3, resets := satAdd 65535 p.resets 1, rxSeq := 0, retryAt := none, uncorrAt := [], trainAt := none }

theorem State.wingsReset_up {s : State} (mode : s.pair.mode = true) (up : s.pair.wings = 2) :
    s.wingsReset = ((s.modPair Pair.linkReset).modXing fun x => { x with staleOther := clearBit x.staleOther 2 }).raisePair 0 := by
  unfold State.wingsReset
  rw [if_neg (by simp [mode]), if_neg (by simp [up])]
  dsimp only
  rw [up]
  rfl

theorem State.wingsReset_pair {s : State} (mode : s.pair.mode = true) (up : s.pair.wings = 2) :
    s.wingsReset.pair = { s.pair.linkReset with events := setBit s.pair.events 0 } := by
  rw [State.wingsReset_up mode up, State.raisePair_pair]
  rfl

theorem State.wingsReset_names {s : State} (mode : s.pair.mode = true) (up : s.pair.wings = 2) : s.wingsReset.names = s.names := by
  rw [State.wingsReset_up mode up, State.raisePair_names]
  rfl

theorem State.wingsReset_unstale {s : State} (mode : s.pair.mode = true) (up : s.pair.wings = 2) :
    s.wingsReset.xing.staleOther.getLsbD 2 = false := by
  rw [State.wingsReset_up mode up, State.raisePair_xing]
  exact clearBit_get _ 2

theorem State.wingsReset_now {s : State} (mode : s.pair.mode = true) (up : s.pair.wings = 2) : s.wingsReset.now = s.now := by
  rw [State.wingsReset_up mode up, State.raisePair_now]
  rfl

theorem wingsLinkReset_up {s : State} (mode : s.pair.mode = true) (up : s.pair.wings = 2) : Does (.wingsLinkReset) s fun t =>
    t.pair.wings = 3 ∧ t.pair.resets = satAdd 65535 s.pair.resets 1 ∧ t.pair.events.getLsbD 0 = true ∧
    t.pair.unanswered = s.pair.unanswered ∧ t.xing.staleOther.getLsbD 2 = false ∧ t.pair.st = s.pair.st ∧ t.names = s.names := by
  refine ⟨s.wingsReset, rfl, ?_⟩
  beta_reduce
  rw [State.wingsReset_pair mode up]
  exact ⟨rfl, rfl, setBit_get _ 0 (by decide), rfl, State.wingsReset_unstale mode up, rfl, State.wingsReset_names mode up⟩

theorem wingsLinkReset_down {s : State} (mode : s.pair.mode = true) (down : s.pair.wings = 0) : Does (.wingsLinkReset) s fun t =>
    t.xing.staleOther.getLsbD 2 = false ∧ t.pair = s.pair ∧ t.names = s.names := by
  refine ⟨s.modXing fun x => { x with staleOther := clearBit x.staleOther 2 }, ?_, clearBit_get _ 2, rfl, rfl⟩
  refine congrArg Host.Outcome.next ?_
  unfold State.wingsReset
  rw [if_neg (by simp [mode]), if_pos (.inl down)]

theorem retryUnanswered_resets {s : State} {n : Nat} (mode : s.pair.mode = true) (up : s.pair.wings = 2) (waits : s.pair.retryAt = some n) :
    Does (.retryUnanswered) s fun t => t.pair.wings = 3 ∧ t.pair.retryAt = none ∧ n + 100 * Config.us ≤ t.now ∧
    t.pair.unanswered = s.pair.unanswered ∧ t.names = s.names := by
  let u := s.at_ (n + 100 * Config.us)
  refine ⟨u.wingsReset, ?_, ?_⟩
  · refine congrArg Host.Outcome.next ?_
    rw [waits]
  · beta_reduce
    rw [State.wingsReset_pair (s := u) mode up, State.wingsReset_names (s := u) mode up, State.wingsReset_now (s := u) mode up]
    exact ⟨rfl, rfl, Nat.le_max_right _ _, rfl, rfl⟩

/-! ## Training (R638) -/

/-- The instant of an attempt to train: 1 s after the attempt before it, or now. -/
def State.attempt (s : State) : State := match s.pair.trainAt with
  | some t => s.at_ (t + Config.sec)
  | none => s

theorem State.attempt_moves (s : State) : s.Moves [.now] s.attempt := by
  unfold State.attempt
  split
  · exact State.at__moves _ s
  · exact Moves.refl _ s

theorem State.attempt_late (s : State) : s.pair.trainAt.all (fun n => decide (n + Config.sec ≤ s.attempt.now)) = true := by
  unfold State.attempt
  split
  next n at_ =>
    rw [at_, Option.all_some, decide_eq_true_eq, State.at__now]
    exact Nat.le_max_right _ _
  next none => rw [none, Option.all_none]

theorem wingsTraining_passes {s : State} (mode : s.pair.mode = true) (released : s.boot.released = true) (down : s.pair.wings ≠ 2) :
    Does (.wingsTraining true) s fun t => t.pair.wings = 1 ∧ (t.out.head?.any (Out.isWings 1)) = true ∧
    s.pair.trainAt.all (fun n => decide (n + Config.sec ≤ t.now)) = true ∧ t.pair.msgSeq = s.pair.msgSeq + 1 ∧
    t.pair.unanswered = s.pair.unanswered ∧ t.names = s.names := by
  have late := s.attempt_late
  have pair : s.attempt.pair = s.pair := s.attempt_moves.only .pair (by decide)
  have names : s.attempt.names = s.names := s.attempt_moves.only .names (by decide)
  let u := (s.attempt.modPair fun p => { p with trainAt := some s.attempt.now }).modPair fun p => { p with wings := 1, rxSeq := 0 }
  have msgSeq : u.pair.msgSeq = s.pair.msgSeq := (congrArg Pair.msgSeq pair :)
  have unanswered : u.pair.unanswered = s.pair.unanswered := (congrArg Pair.unanswered pair :)
  have now : u.sendHello.now = s.attempt.now := (State.sendHello_moves u).only .now (by decide)
  have same : u.sendHello.names = s.names := ((State.sendHello_moves u).only .names (by decide)).trans names
  refine ⟨u.sendHello, congrArg Host.Outcome.next (if_neg (by simp [mode, released, down])), rfl, State.sendWings_sent .., ?_,
    (u.sendHello_msgSeq).trans (congrArg (· + 1) msgSeq), unanswered, same⟩
  rw [now]
  exact late

theorem wingsTraining_fails {s : State} (mode : s.pair.mode = true) (released : s.boot.released = true) (down : s.pair.wings ≠ 2) :
    Does (.wingsTraining false) s fun t => t.pair.wings = 0 ∧ t.out = s.out ∧
    s.pair.trainAt.all (fun n => decide (n + Config.sec ≤ t.now)) = true ∧ t.pair.unanswered = s.pair.unanswered ∧ t.names = s.names := by
  have late := s.attempt_late
  have pair : s.attempt.pair = s.pair := s.attempt_moves.only .pair (by decide)
  have names : s.attempt.names = s.names := s.attempt_moves.only .names (by decide)
  have out : s.attempt.out = s.out := s.attempt_moves.only .out (by decide)
  refine ⟨(s.attempt.modPair fun p => { p with trainAt := some s.attempt.now }).modPair fun p => { p with wings := 0 },
    congrArg Host.Outcome.next (if_neg (by simp [mode, released, down])), ?_⟩
  generalize s.attempt = u at *
  exact ⟨rfl, out, late, (congrArg Pair.unanswered pair :), names⟩

theorem hello_late {s : State} {m : HelloMsg} {n : Nat} (mode : s.pair.mode = true) (training : s.pair.wings = 1) (paired : m.pairMode = true)
    (begun : s.pair.trainAt = some n) (late : n + 10 * Config.ms < s.now) : Does (.hello m) s fun t => t.pair.wings = 0 ∧
    t.pair.st = s.pair.st ∧ t.pair.helloDone = s.pair.helloDone ∧ t.out = s.out ∧ t.names = s.names := by
  have expired : s.helloLate = true := by
    unfold State.helloLate
    rw [training, begun, Option.any_some, decide_eq_true late]
    rfl
  refine ⟨s.modPair fun p => { p with wings := 0 }, ?_, rfl, rfl, rfl, rfl, rfl⟩
  refine congrArg Host.Outcome.next ?_
  rw [if_neg (by simp [mode, training, paired]), if_pos expired]

/-! ## Blocks (R634, R636) -/

theorem State.sendRetry_asks (s : State) : s.sendRetry.pair.rxSeq = s.pair.rxSeq ∧ (s.sendRetry.out.head?.any (Out.isWings 0x0A)) = true ∧
    s.sendRetry.pair.retryAt.isSome = true ∧ s.sendRetry.pair.wings = s.pair.wings ∧ s.sendRetry.names = s.names :=
  ⟨rfl, State.sendWings_sent .., rfl, rfl, rfl⟩

section

variable {s : State} {q : BitVec 13} {l : List Nat}

theorem wingsBlockReceived_next (mode : s.pair.mode = true) (up : s.pair.wings = 2) (fresh : s.isStale .wings = false)
    (good : l.all (fun n => decide (n ≤ 4)) = true) (next : q = s.pair.rxSeq) : Does (.wingsBlockReceived q l false) s fun t =>
    t.pair.rxSeq = q + 1 ∧ t.pair.retryAt = none ∧
    t.pair.corr = (if l.any (fun n => n != 0) then sat32 s.pair.corr 1 else s.pair.corr) ∧ t.out = s.out ∧ t.names = s.names := by
  have few : ¬ (l.any fun n => decide (4 < n)) = true := by simpa using good
  subst next
  let u := s.when (l.any fun n => n != 0) (State.modPair fun p => { p with corr := sat32 p.corr 1 })
  have kept : u.pair.rxSeq = s.pair.rxSeq ∧ u.pair.corr = (if l.any (fun n => n != 0) then sat32 s.pair.corr 1 else s.pair.corr) ∧
      u.out = s.out ∧ u.names = s.names := by
    unfold u State.when
    split <;> exact ⟨rfl, rfl, rfl, rfl⟩
  obtain ⟨rxSeq, corr, out, names⟩ := kept
  refine ⟨u.modPair fun p => { p with rxSeq := p.rxSeq + 1, retryAt := none }, ?_, congrArg (· + 1) rxSeq, rfl, corr, out, names⟩
  refine congrArg Host.Outcome.next ?_
  rw [if_neg (by simp [mode, up]), if_neg (by simp [fresh]), if_neg few]
  exact (if_neg (by decide)).trans (if_pos rxSeq.symm)

theorem wingsBlockReceived_gap (mode : s.pair.mode = true) (up : s.pair.wings = 2) (fresh : s.isStale .wings = false)
    (good : l.all (fun n => decide (n ≤ 4)) = true) (gap : q ≠ s.pair.rxSeq) : Does (.wingsBlockReceived q l false) s fun t =>
    t.pair.rxSeq = s.pair.rxSeq ∧ (t.out.head?.any (Out.isWings 0x0A)) = true ∧ t.pair.retryAt.isSome = true ∧ t.pair.wings = 2 ∧
    t.names = s.names := by
  have few : ¬ (l.any fun n => decide (4 < n)) = true := by simpa using good
  let u := s.when (l.any fun n => n != 0) (State.modPair fun p => { p with corr := sat32 p.corr 1 })
  have kept : u.pair.rxSeq = s.pair.rxSeq ∧ u.pair.wings = s.pair.wings ∧ u.names = s.names := by
    unfold u State.when
    split <;> exact ⟨rfl, rfl, rfl⟩
  obtain ⟨rxSeq, wings, names⟩ := kept
  obtain ⟨rxSeq', sent, waits, wings', names'⟩ := u.sendRetry_asks
  refine ⟨u.sendRetry, ?_, rxSeq'.trans rxSeq, sent, waits, (wings'.trans wings).trans up, names'.trans names⟩
  refine congrArg Host.Outcome.next ?_
  rw [if_neg (by simp [mode, up]), if_neg (by simp [fresh]), if_neg few]
  refine (if_neg (by decide)).trans ?_
  exact if_neg fun h => gap (h.trans rxSeq)

theorem wingsBlockReceived_fourth {b : Bool} (mode : s.pair.mode = true) (up : s.pair.wings = 2) (fresh : s.isStale .wings = false)
    (bad : l.any (fun n => decide (4 < n)) = true) (three : 3 ≤ (recent s.now Config.sec s.pair.uncorrAt).length) :
    Does (.wingsBlockReceived q l b) s fun t => t.pair.wings = 3 ∧ t.pair.uncorr = sat32 s.pair.uncorr 1 ∧
    t.pair.resets = satAdd 65535 s.pair.resets 1 ∧ t.pair.unanswered = s.pair.unanswered ∧ t.names = s.names := by
  let u := s.modPair fun p => { p with uncorr := sat32 p.uncorr 1, uncorrAt := s.now :: recent s.now Config.sec s.pair.uncorrAt }
  refine ⟨u.wingsReset, ?_, ?_⟩
  · refine congrArg Host.Outcome.next ?_
    rw [if_neg (by simp [mode, up]), if_neg (by simp [fresh]), if_pos bad]
    exact if_pos (Nat.succ_le_succ three)
  · beta_reduce
    rw [State.wingsReset_pair (s := u) mode up, State.wingsReset_names (s := u) mode up]
    exact ⟨rfl, rfl, rfl, rfl, rfl⟩

theorem wingsBlockReceived_stale {b : Bool} (mode : s.pair.mode = true) (up : s.pair.wings = 2) (stale : s.isStale .wings = true) :
    Does (.wingsBlockReceived q l b) s fun t => t.pair = s.pair ∧ t.out = s.out ∧ t.names = s.names ∧
    t.xing.discards = sat32 s.xing.discards 1 := by
  refine ⟨s.discard, ?_, rfl, rfl, rfl, rfl⟩
  refine congrArg Host.Outcome.next ?_
  rw [if_neg (by simp [mode, up]), if_pos stale]

end

/-! ## Heartbeats (R640, R644) -/

theorem heartbeatSend_sends {s : State} (mode : s.pair.mode = true) (up : s.pair.wings = 2) (stays : s.pair.handing = none) :
    Does (.heartbeatSend) s fun t => (t.out.head?.any (Out.isWings 2)) = true ∧ t.pair.hbSentAt = t.now ∧
    s.pair.hbSentAt + s.pair.hb / 10 ≤ t.now ∧ t.pair.msgSeq = s.pair.msgSeq + 1 ∧ t.names = s.names := by
  let u := s.at_ (s.pair.hbSentAt + s.pair.hb / 10)
  let v := (u.modPair fun p => { p with hbSentAt := u.now, hbMs := p.heartbeatMs }).sendHeartbeat
  have alone : v.pair.handing = none := stays
  refine ⟨v, ?_, State.sendWings_sent .., rfl, Nat.le_max_right _ _, rfl, rfl⟩
  refine congrArg Host.Outcome.next ?_
  rw [if_neg (by simp [mode, up])]
  show (v.handSend).releaseNext = v
  rw [State.handSend, alone]
  dsimp only
  rw [State.releaseNext, alone]

/-- A message has been applied. -/
def State.hears (q : W32) (s : State) : State := s.modPair fun p => { p with rxMsg := q }

/-- A message of the link that is new takes effect. -/
theorem State.wingsMsg_new {s : State} {q : W32} (mode : s.pair.mode = true) (up : s.pair.wings = 2) (fresh : s.isStale .wings = false)
    (new : earlier s.pair.rxMsg q = true) (again k : State → State) :
    s.wingsMsg q again k = k (s.hears q) := by
  unfold State.wingsMsg
  rw [if_neg (by simp [mode, up]), if_neg (by simp [fresh]), if_pos new]
  rfl

/-- A message of the link that comes again is only answered again. -/
theorem State.wingsMsg_old {s : State} {q : W32} (mode : s.pair.mode = true) (up : s.pair.wings = 2) (fresh : s.isStale .wings = false)
    (old : earlier s.pair.rxMsg q = false) (again k : State → State) : s.wingsMsg q again k = again s := by
  unfold State.wingsMsg
  rw [if_neg (by simp [mode, up]), if_neg (by simp [fresh]), if_neg (by simp [old])]

/-- What a HEARTBEAT says of the peer. -/
def Pair.heard (now : Nat) (m : HeartbeatMsg) (p : Pair) : Pair :=
  { p with rxMsg := m.msgSeq, lastHb := some now, peerAlive := true, peerLostAt := none, peerState := m.state, peerOwn := m.owned }

/-- A HEARTBEAT changes nothing of where a paired controller stands. -/
theorem State.meet_paired {s : State} (paired : s.pair.st = .paired) (st : PairState) (high : Nat) : s.meet st false high = s := by
  unfold State.meet
  rw [paired]
  cases st <;> rfl

theorem heartbeat_paired {s : State} {m : HeartbeatMsg} (mode : s.pair.mode = true) (up : s.pair.wings = 2) (fresh : s.isStale .wings = false)
    (new : earlier s.pair.rxMsg m.msgSeq = true) (paired : s.pair.st = .paired) : Does (.heartbeat m) s fun t => t.pair.peerAlive = true ∧
    t.pair.lastHb = some s.now ∧ t.pair.peerLostAt = none ∧ t.pair.peerOwn = m.owned ∧ t.pair.rxMsg = m.msgSeq ∧ t.pair.st = .paired ∧
    t.names.buffer = s.names.buffer := by
  let u := s.modPair (Pair.heard s.now m)
  have role : u.settle.standing = { s.standing with role := (s.pair.heard s.now m).role } := u.settle_standing
  refine ⟨u.settle, ?_, State.pair_of role Pair.peerAlive fun _ => rfl, State.pair_of role Pair.lastHb fun _ => rfl,
    State.pair_of role Pair.peerLostAt fun _ => rfl, State.pair_of role Pair.peerOwn fun _ => rfl, State.pair_of role Pair.rxMsg fun _ => rfl,
    (State.pair_of role Pair.st fun _ => rfl).trans paired, u.settle_buffer⟩
  refine congrArg Host.Outcome.next ?_
  rw [State.wingsMsg_new mode up fresh new]
  exact congrArg State.settle (State.meet_paired (s := u) paired m.state 0)

theorem heartbeat_old {s : State} {m : HeartbeatMsg} (mode : s.pair.mode = true) (up : s.pair.wings = 2) (fresh : s.isStale .wings = false)
    (old : earlier s.pair.rxMsg m.msgSeq = false) : Does (.heartbeat m) s fun t => t = s :=
  ⟨s, congrArg Host.Outcome.next (State.wingsMsg_old mode up fresh old _ _), rfl⟩

end Sys2Proof.Machine
end

section
/-! SUPPORT. How a pair forms, is lost and is taken over (spec/18 R622 to R625, R644 to R652, R655). -/

namespace Sys2Proof.Machine

/-! ## What a standing says of the device -/

theorem State.dirtyLimit_of {s : State} {x : Standing} (h : s.standing = x) : s.names.dirtyLimitMib = x.dirtyLimit :=
  congrArg Standing.dirtyLimit h

theorem State.pairId_of {s : State} {x : Standing} (h : s.standing = x) : s.nor.config.pairId = x.pairId := congrArg Standing.pairId h

/-! ## HELLO (R622 to R625) -/

@[simp] theorem State.sendHello_standing (s : State) : s.sendHello.standing = s.standing := State.sendWings_standing ..

theorem hello_sameSide {s : State} {m : HelloMsg} (mode : s.pair.mode = true) (up : s.pair.wings = 2) (paired : m.pairMode = true)
    (same : m.side = s.pair.side) : Does (.hello m) s fun t => t = s.modPair (fun p => { p with peerSide := some m.side, wings := 2 }) := by
  have early : s.helloLate = false := by
    unfold State.helloLate
    rw [up]
    rfl
  refine ⟨_, ?_, rfl⟩
  refine congrArg Host.Outcome.next ?_
  rw [if_neg (by simp [mode, up, paired]), if_neg (by simp [early]), if_pos same]

/-- What a HELLO of the other side says of the peer; events and the last message received are left open. -/
def Standing.greeted (m : HelloMsg) (e : BitVec 8) (rx : W32) (hb : Option Nat) (alive : Bool) (x : Standing) : Standing :=
  { x with
    role := { x.role with events := e, rxMsg := rx, peerSide := some m.side, peerState := m.state, peerHeartbeatMs := m.heartbeatMs
                          helloDone := true, wings := 2, lastHb := hb, peerAlive := alive }
    pairId := pairIdOf x.role.side x.pairId m.pairId m.deviceId, dirtyLimit := min x.dirtyLimit m.dirtyLimitMib }

/-- What a controller has noted and sent of a HELLO of the other side before it meets its peer. -/
def State.greet (m : HelloMsg) (s : State) : State :=
  let was := s.pair.wings == 2
  let restarted := !earlier s.pair.rxMsg m.msgSeq
  let new := restarted || s.pair.peerState != m.state
  let s1 := s.when restarted (State.modPair fun p => { p with rxMsg := m.msgSeq })
  let s2 := s1.modCfg fun c => { c with pairId := pairIdOf s1.pair.side c.pairId m.pairId m.deviceId }
  let s3 := s2.when (s2.names.dirtyLimitMib != m.dirtyLimitMib) (State.raisePair 7)
  let s4 := (s3.modNames fun n => { n with dirtyLimitMib := min n.dirtyLimitMib m.dirtyLimitMib }).modPair fun p => { p with
    peerSide := some m.side, peerState := m.state, peerHeartbeatMs := m.heartbeatMs, helloDone := true, wings := 2
    lastHb := some (p.lastHb.getD s3.now), peerAlive := p.peerAlive || p.lastHb.isNone }
  let s5 := s4.when (s4.pair.st == .forming && s4.names.pagesIn == []) (State.modMem fun k => { k with mirrorMib := m.dirtyLimitMib + 256 })
  let s6 := s5.when (!was) (State.raisePair 1)
  (s6.when (was && new) State.sendHello).resendFrom m.highestSeq

theorem State.when_raisePair_standing (b : Bool) (n : Nat) (s : State) : ∃ e,
    (s.when b (State.raisePair n)).standing = { s.standing with role := { s.standing.role with events := e } } := by
  unfold State.when
  split
  · exact ⟨_, s.raisePair_standing n⟩
  · exact ⟨s.pair.events, rfl⟩

theorem State.greet_standing (m : HelloMsg) (s : State) : ∃ e rx hb alive, (s.greet m).standing = s.standing.greeted m e rx hb alive := by
  unfold State.greet
  extract_lets was restarted new s1 s2 s3 s4 s5 s6
  have heard : ∃ rx, s1.standing = { s.standing with role := { s.standing.role with rxMsg := rx } } := by
    unfold s1 State.when
    split
    · exact ⟨m.msgSeq, rfl⟩
    · exact ⟨s.pair.rxMsg, rfl⟩
  obtain ⟨rx, heard⟩ := heard
  have named : s2.standing = { s1.standing with pairId := pairIdOf s1.standing.role.side s1.standing.pairId m.pairId m.deviceId } := rfl
  obtain ⟨e, limits⟩ := s2.when_raisePair_standing (s2.names.dirtyLimitMib != m.dirtyLimitMib) 7
  change s3.standing = _ at limits
  have noted : s4.standing = { s3.standing with
      role := { s3.standing.role with
        peerSide := some m.side, peerState := m.state, peerHeartbeatMs := m.heartbeatMs, helloDone := true, wings := 2
        lastHb := some (s3.pair.lastHb.getD s3.now), peerAlive := s3.pair.peerAlive || s3.pair.lastHb.isNone }
      dirtyLimit := min s3.standing.dirtyLimit m.dirtyLimitMib } := rfl
  have sized : s5.standing = s4.standing := State.when_standing (fun s => s.modMem_standing _) _ s4
  obtain ⟨e', told⟩ := s5.when_raisePair_standing (!was) 1
  change s6.standing = _ at told
  refine ⟨e', rx, some (s3.pair.lastHb.getD s3.now), s3.pair.peerAlive || s3.pair.lastHb.isNone, ?_⟩
  rw [(State.resendFrom_moves ..).standing rfl, State.when_standing State.sendHello_standing, told, sized, noted, limits, named, heard]
  rfl

/-- A HELLO of the other side is heeded, then the controllers meet. -/
theorem hello_meets {s : State} {m : HelloMsg} (mode : s.pair.mode = true) (up : s.pair.wings = 2) (paired : m.pairMode = true)
    (other : m.side = !s.pair.side) : exec (.hello m) s =
      .next ((s.greet m).meet m.state true (max (s.greet m).pair.highest.toNat m.highestEpoch.toNat)).bufferChanged := by
  have early : s.helloLate = false := by
    unfold State.helloLate
    rw [up]
    rfl
  refine congrArg Host.Outcome.next ?_
  rw [if_neg (by simp [mode, up, paired]), if_neg (by simp [early]), if_neg (by simp [other])]
  rfl

theorem hello_pairs {s : State} {m : HelloMsg} (mode : s.pair.mode = true) (up : s.pair.wings = 2) (paired : m.pairMode = true)
    (other : m.side = !s.pair.side) (forming : s.pair.st = .forming) (peer : m.state = .forming)
    (room : max s.pair.highest.toNat m.highestEpoch.toNat + 1 < 2 ^ 63) : Does (.hello m) s fun t => t.pair.st = .paired ∧
    t.pair.own = (if s.pair.side then 0xFFFF0000 else 0xFFFF) ∧ t.pair.coordinator = (!s.pair.side) ∧ t.pair.servesOther = false ∧
    t.pair.epoch.toNat = max s.pair.highest.toNat m.highestEpoch.toNat + 1 ∧ t.pair.helloDone = true ∧ t.pair.peerHeartbeatMs =
    m.heartbeatMs ∧ t.names.dirtyLimitMib = min s.names.dirtyLimitMib m.dirtyLimitMib ∧ t.nor.config.pairId = pairIdOf s.pair.side
    s.nor.config.pairId m.pairId m.deviceId := by
  obtain ⟨e, rx, hb, alive, greeted⟩ := s.greet_standing m
  have highest : (s.greet m).pair.highest = s.pair.highest := State.pair_of greeted Pair.highest fun _ => rfl
  have forming' : (s.greet m).pair.st = .forming := (State.pair_of greeted Pair.st fun _ => rfl).trans forming
  have next : nextEpoch (max s.pair.highest.toNat m.highestEpoch.toNat) =
    some (BitVec.ofNat 63 (max s.pair.highest.toNat m.highestEpoch.toNat + 1)) := if_pos room
  obtain ⟨g, became⟩ := State.becomePaired_standing next (s.greet m)
  have meets : (s.greet m).meet m.state true (max s.pair.highest.toNat m.highestEpoch.toNat) =
      (s.greet m).becomePaired (max s.pair.highest.toNat m.highestEpoch.toNat) := by
    unfold State.meet
    rw [forming', peer]
    rfl
  have run := hello_meets mode up paired other
  rw [highest, meets] at run
  have stands := (State.bufferChanged_standing _).trans became
  rw [greeted] at stands
  refine ⟨_, run, State.pair_of stands Pair.st fun _ => rfl, State.pair_of stands Pair.own fun _ => rfl,
    State.pair_of stands Pair.coordinator fun _ => rfl, State.pair_of stands Pair.servesOther fun _ => rfl, ?_,
    State.pair_of stands Pair.helloDone fun _ => rfl, State.pair_of stands Pair.peerHeartbeatMs fun _ => rfl, State.dirtyLimit_of stands,
    State.pairId_of stands⟩
  rw [State.pair_of stands Pair.epoch fun _ => rfl]
  exact Nat.mod_eq_of_lt room

theorem State.anaTable_of_rejoining {s : State} (h : s.pair.st = .rejoining) : s.anaTable = fun _ => .inaccessible := by
  funext g
  rw [State.anaTable, h]

theorem hello_rejoins {s : State} {m : HelloMsg} (mode : s.pair.mode = true) (up : s.pair.wings = 2) (paired : m.pairMode = true)
    (other : m.side = !s.pair.side) (forming : s.pair.st = .forming) (peer : m.state = .solo) : Does (.hello m) s fun t =>
    t.pair.st = .rejoining ∧ t.pair.own = 0 ∧ t.pair.helloDone = true ∧ t.fa.ana1 = .inaccessible ∧ t.fa.ana2 = .inaccessible ∧
    t.fb.ana1 = .inaccessible ∧ t.fb.ana2 = .inaccessible := by
  obtain ⟨e, rx, hb, alive, greeted⟩ := s.greet_standing m
  have forming' : (s.greet m).pair.st = .forming := (State.pair_of greeted Pair.st fun _ => rfl).trans forming
  let u := (s.greet m).modPair fun p => { p with st := .rejoining, own := 0, peerOwn := 0xFFFFFFFF }
  have meets (high : Nat) : (s.greet m).meet m.state true high = u.followAna.sendHello := by
    unfold State.meet
    rw [forming', peer]
  have run := hello_meets mode up paired other
  rw [meets] at run
  have stands : u.followAna.sendHello.bufferChanged.standing = u.standing.withAnas fun _ => .inaccessible := by
    rw [State.bufferChanged_standing, State.sendHello_standing, State.followAna_standing, State.anaTable_of_rejoining rfl]
  have role : u.standing = _ := (State.modPair_standing_role (fun _ => rfl) _).trans rfl
  rw [role, greeted] at stands
  exact ⟨_, run, State.pair_of stands Pair.st fun _ => rfl, State.pair_of stands Pair.own fun _ => rfl,
    State.pair_of stands Pair.helloDone fun _ => rfl, State.anas_of stands⟩

/-! ## A peer that is not alive (R644, R645) -/

/-- The peer is noted as lost. -/
def Pair.losePeer (now : Nat) (p : Pair) : Pair := { p with peerAlive := false, peerLostAt := some now }

section

variable {s : State} {n : Nat} (mode : s.pair.mode = true)
include mode

theorem peerNotAlive_left (left : s.pair.side = false) (paired : s.pair.st = .paired) (counted : s.pair.peerLostAt = none)
    (last : s.pair.lastHb = some n) (alive : s.pair.peerAlive = true) : Does (.peerNotAlive) s fun t => t.pair.st = .contending ∧
    t.pair.peerAlive = false ∧ t.pair.events.getLsbD 2 = true ∧ n + s.pair.hb ≤ t.now ∧ t.fa.ana1 = .change ∧ t.fa.ana2 = .change ∧
    t.fb.ana1 = .change ∧ t.fb.ana2 = .change := by
  let u := s.at_ (n + s.pair.hb)
  let v := (u.modPair (Pair.losePeer u.now)).raisePair 2
  have lost : v.pair = { s.pair.losePeer u.now with events := setBit s.pair.events 2 } := State.raisePair_pair 2 _
  have stands : v.startContend.standing = _ := State.startContend_standing (.inl (by rw [lost]; exact paired))
  have role : v.standing.role = v.pair.role := rfl
  rw [role, lost] at stands
  have events : v.startContend.pair.events = setBit s.pair.events 2 := State.pair_of stands Pair.events fun _ => rfl
  have now : v.startContend.now = u.now := ((State.startContend_moves v).only .now (by decide)).trans (State.raisePair_now 2 _)
  refine ⟨v.startContend, ?_, State.pair_of stands Pair.st fun _ => rfl, State.pair_of stands Pair.peerAlive fun _ => rfl, ?_, ?_,
    State.anas_of stands⟩
  · refine congrArg Host.Outcome.next ?_
    rw [if_neg (by simp [mode]), counted, last]
    refine (if_neg (by simp [alive])).trans (if_pos ?_)
    show v.pair.st = _ ∧ v.pair.side = _
    rw [lost]
    exact ⟨paired, left⟩
  · rw [events]
    exact setBit_get _ 2 (by decide)
  · rw [now]
    exact Nat.le_max_right _ _

theorem peerNotAlive_right (right : s.pair.side = true) (paired : s.pair.st = .paired) (counted : s.pair.peerLostAt = none)
    (last : s.pair.lastHb = some n) (alive : s.pair.peerAlive = true) : Does (.peerNotAlive) s fun t => t.pair.st = .paired ∧
    t.pair.peerLostAt = some t.now ∧ t.pair.peerAlive = false ∧ n + s.pair.hb ≤ t.now := by
  let u := s.at_ (n + s.pair.hb)
  let v := (u.modPair (Pair.losePeer u.now)).raisePair 2
  have lost : v.pair = { s.pair.losePeer u.now with events := setBit s.pair.events 2 } := State.raisePair_pair 2 _
  let w := v.when (v.pair.handing.isSome || v.pair.taking.isSome) State.abandonPair
  have kept : w.pair.st = v.pair.st ∧ w.pair.peerLostAt = v.pair.peerLostAt ∧ w.pair.peerAlive = v.pair.peerAlive ∧ w.now = v.now := by
    unfold w State.when
    split
    · have role := v.abandonPair_standing
      exact ⟨State.pair_of role Pair.st fun _ => rfl, State.pair_of role Pair.peerLostAt fun _ => rfl,
        State.pair_of role Pair.peerAlive fun _ => rfl, (State.abandonPair_moves v).only .now (by decide)⟩
    · exact ⟨rfl, rfl, rfl, rfl⟩
  obtain ⟨st, peerLostAt, peerAlive, now⟩ := kept
  have now : w.now = u.now := now.trans (State.raisePair_now 2 _)
  rw [lost] at st peerLostAt peerAlive
  refine ⟨w, ?_, st.trans paired, ?_, peerAlive, ?_⟩
  · refine congrArg Host.Outcome.next ?_
    rw [if_neg (by simp [mode]), counted, last]
    refine (if_neg (by simp [alive])).trans (if_neg ?_)
    show ¬ (v.pair.st = _ ∧ v.pair.side = _)
    rw [lost]
    exact fun h => Bool.noConfusion (right.symm.trans h.2)
  · rw [now]
    exact peerLostAt
  · rw [now]
    exact Nat.le_max_right _ _

theorem peerNotAlive_again (right : s.pair.side = true) (paired : s.pair.st = .paired) (lost : s.pair.peerLostAt = some n) :
    Does (.peerNotAlive) s fun t => t.pair.st = .contending ∧ n + s.pair.hb / 2 ≤ t.now := by
  let u := s.at_ (n + s.pair.hb / 2)
  have stands := State.startContend_standing (s := u) (.inl paired)
  have now : u.startContend.now = u.now := (State.startContend_moves u).only .now (by decide)
  refine ⟨u.startContend, ?_, State.pair_of stands Pair.st fun _ => rfl, ?_⟩
  · refine congrArg Host.Outcome.next ?_
    rw [if_neg (by simp [mode]), lost]
    exact if_pos ⟨paired, right⟩
  · rw [now]
    exact Nat.le_max_right _ _

theorem formingTimeout_contends (forming : s.pair.st = .forming) (ended : s.boot.portsEnded = true) (alone : s.pair.helloDone = false)
    (other : s.pair.peerSide ≠ some s.pair.side) : Does (.formingTimeout) s fun t => t.pair.st = .contending ∧
    s.boot.portsEndedAt + 30 * Config.sec + (if s.pair.side then s.pair.hb / 2 else 0) ≤ t.now := by
  let u := s.at_ (s.boot.portsEndedAt + 30 * Config.sec + (if s.pair.side then s.pair.hb / 2 else 0))
  have stands := State.startContend_standing (s := u) (.inr forming)
  have now : u.startContend.now = u.now := (State.startContend_moves u).only .now (by decide)
  refine ⟨u.startContend, ?_, State.pair_of stands Pair.st fun _ => rfl, ?_⟩
  · exact congrArg Host.Outcome.next (if_pos ⟨mode, forming, ended, alone, fun h => other h.2⟩)
  · rw [now]
    exact Nat.le_max_right _ _

end

/-! ## Contention (R646) -/

/-- What standing down leaves. -/
theorem State.standDown_leaves (reason token : Nat) (s : State) : (s.standDown reason token).pair.st = .stoodDown ∧
    (s.standDown reason token).pair.own = 0 ∧ (s.standDown reason token).names.buffer = [] ∧ (s.standDown reason token).pair.mirrors = [] ∧
    (s.standDown reason token).pair.events.getLsbD 4 = true := by
  have down := s.standDown_standing reason token
  refine ⟨State.pair_of down Pair.st fun _ => rfl, State.pair_of down Pair.own fun _ => rfl, s.standDown_empty reason token,
    State.pair_of down Pair.mirrors fun _ => rfl, ?_⟩
  rw [State.pair_of down Pair.events fun _ => rfl]
  exact setBit_get _ 4 (by decide)

section

variable {s : State} (contends : s.pair.st = .contending)
include contends

theorem contend_outranked {r : Option PortId} (above : (s.freshTokens.any fun k => k % 2 != bit s.pair.side &&
    decide (s.pair.epoch.toNat < k / 2)) = true) : exec (.contend r) s = .next (s.standDown 0 (s.freshTokens.foldl max 0)) := by
  refine congrArg Host.Outcome.next ?_
  rw [if_neg (by simp [contends])]
  exact if_pos above

theorem contend_standsDown {r : Option PortId} (above : (s.freshTokens.any fun k => k % 2 != bit s.pair.side &&
    decide (s.pair.epoch.toNat < k / 2)) = true) : Does (.contend r) s fun t => t.pair.st = .stoodDown ∧ t.pair.own = 0 ∧
    t.names.buffer = [] ∧ t.pair.mirrors = [] ∧ t.pair.events.getLsbD 4 = true ∧ t.fa.ana1 = .inaccessible ∧ t.fb.ana2 = .inaccessible := by
  obtain ⟨st, own, buffer, mirrors, events⟩ := s.standDown_leaves 0 (s.freshTokens.foldl max 0)
  obtain ⟨ana1, -, -, ana2⟩ := State.anas_of (s.standDown_standing 0 (s.freshTokens.foldl max 0))
  exact ⟨_, contend_outranked contends above, st, own, buffer, mirrors, events, ana1, ana2⟩

theorem contend_solo {e : BitVec 63} (below : (s.freshTokens.any fun k => k % 2 != bit s.pair.side &&
    decide (s.pair.epoch.toNat < k / 2)) = false) (next : nextEpoch (s.freshTokens.foldl max 0 / 2) = some e) :
    Does (.contend none) s fun t => t.pair.st = .solo ∧ t.pair.epoch = e ∧ t.pair.own = 0xFFFFFFFF ∧ t.pair.coordinator = true ∧
    t.pair.servesOther = true ∧ t.pair.settling = true ∧ t.pair.takeovers = satAdd 255 s.pair.takeovers 1 ∧ t.pair.mirrors = [] ∧
    t.fa.ana1 = .optimized ∧ t.fa.ana2 = .optimized := by
  let u := s.modPair fun p => { p with epoch := e, epochOver := false }
  let v := u.each u.livePorts State.gain
  have gained : v.standing = u.standing := State.each_standing (fun p s => (State.gain_moves p s).standing rfl) _ u
  have stands := v.becomeSolo_standing
  rw [gained] at stands
  obtain ⟨ana1, ana2, -⟩ := State.anas_of (g := fun _ => AnaState.optimized) stands
  refine ⟨v.becomeSolo, ?_, State.pair_of stands Pair.st fun _ => rfl, State.pair_of stands Pair.epoch fun _ => rfl,
    State.pair_of stands Pair.own fun _ => rfl, State.pair_of stands Pair.coordinator fun _ => rfl,
    State.pair_of stands Pair.servesOther fun _ => rfl, State.pair_of stands Pair.settling fun _ => rfl,
    State.pair_of stands Pair.takeovers fun _ => rfl, State.pair_of stands Pair.mirrors fun _ => rfl, ana1, ana2⟩
  refine congrArg Host.Outcome.next ?_
  rw [if_neg (by simp [contends])]
  refine (if_neg (by simp [below])).trans ?_
  dsimp only
  rw [next]
  rfl

/-- A refusal makes it stand down, as a token above or an epoch that cannot rise does. -/
theorem contend_refused {p : PortId} (live : s.livePorts.contains p = true) : ∃ (u : State) (r k : Nat),
    exec (.contend (some p)) s = .next (u.standDown r k) := by
  by_cases above : (s.freshTokens.any fun k => k % 2 != bit s.pair.side && decide (s.pair.epoch.toNat < k / 2)) = true
  · exact ⟨s, 0, _, contend_outranked contends above⟩
  · cases next : nextEpoch (s.freshTokens.foldl max 0 / 2) with
    | none =>
      refine ⟨s, 1, s.freshTokens.foldl max 0, congrArg Host.Outcome.next ?_⟩
      rw [if_neg (by simp [contends])]
      refine (if_neg above).trans ?_
      rw [next]
    | some e =>
      let u := s.modPair fun p => { p with epoch := e, epochOver := false }
      refine ⟨(u.each u.livePorts fun q s => s.present q s.pairToken).raisePort p 2, 1,
        max (s.freshTokens.foldl max 0) (u.port p).token.toNat, congrArg Host.Outcome.next ?_⟩
      rw [if_neg (by simp [contends])]
      refine (if_neg above).trans ?_
      rw [next]
      dsimp only
      have kept : (some p).filter (fun p => u.livePorts.contains p) = some p := by
        rw [Option.filter_some, if_pos (show u.livePorts.contains p = true from live)]
      rw [kept]

end

/-! ## The end of the settling time (R648) -/

/-- A host command that completes has ended so. -/
theorem State.ended_of_host {s : State} {c : Nat} {x : Ctx} {f : Fn} (here : s.ctx? c = some x) (host : x.origin = .host f) (r : Cpl) :
    EndedWith (s.complete c r) c x r := by
  by_cases held : (s.fn f).d3hot = true ∧ ((x.stamp r).bytes ≠ [] ∨ (x.stamp r).blocks ≠ [])
  · rw [State.complete_held r here host held]
    refine ⟨{ x with stage := .waiting, wait := .transfer, cpl := some (x.stamp r) }, ?_, rfl, .inr ⟨rfl, rfl, f, host, held.1, held.2⟩⟩
    rw [State.modCtx_ctx c (fun y => { y with stage := .waiting, wait := .transfer, cpl := some (x.stamp r) }) (fun _ e => e), here]
    rfl
  · exact ⟨_, (State.complete_host r here host held).1, rfl, .inl rfl⟩

/-- A write whose completion was withheld completes. -/
def State.postWithheld (c : Nat) (s : State) : State := match s.ctx? c with
  | some x => s.complete c x.writeCpl
  | none => s

theorem settlingEnd_posts {s : State} {c : Nat} {x : Ctx} {f : Fn} (settling : s.pair.settling = true) (withheld : s.pair.withheld = [c])
    (here : s.ctx? c = some x) (host : x.origin = .host f) : Does (.settlingEnd) s fun t => EndedWith t c x x.writeCpl ∧
    t.pair.settling = false ∧ t.pair.withheld = [] ∧ s.pair.settleAt + s.pair.hb ≤ t.now ∧ t.names = s.names := by
  let u := (s.at_ (s.pair.settleAt + s.pair.hb)).modPair fun p => { p with settling := false, withheld := [] }
  have pair : (u.complete c x.writeCpl).pair = u.pair := by
    unfold State.complete
    rw [show u.ctx? c = some x from here]
    dsimp only
    rw [host]
    dsimp only
    split <;> rfl
  have now : (u.complete c x.writeCpl).now = u.now := (State.complete_moves ..).only .now (by decide)
  refine ⟨u.complete c x.writeCpl, ?_, State.ended_of_host (s := u) here host _, congrArg Pair.settling pair, congrArg Pair.withheld pair, ?_,
    State.complete_names c _ u⟩
  · refine congrArg Host.Outcome.next ?_
    rw [if_neg (by simp [settling])]
    show u.each s.pair.withheld State.postWithheld = _
    rw [withheld]
    show State.postWithheld c u = _
    rw [State.postWithheld, show u.ctx? c = some x from here]
  · rw [now]
    exact Nat.le_max_right _ _

/-! ## FENCED (R647; spec/03 R729) -/

theorem fenced_solo {s : State} {p : PortId} {k : Packet} (got : Received s p 0xE4 k) (solo : s.pair.st = .solo) :
    Does (.fenced p) s fun t => t.pair.st = .stoodDown ∧ t.pair.own = 0 ∧ t.names.buffer = [] := by
  obtain ⟨st, own, buffer, -, -⟩ := (s.unfollowed p k).standDown_leaves 2 ((s.unfollowed p k).port p).token.toNat
  exact ⟨_, fenced_standsDown got solo, st, own, buffer⟩

theorem fenced_obeyed {s : State} {p : PortId} {k : Packet} (got : Received s p 0xE4 k) (notSolo : s.pair.st ≠ .solo)
    (obeyed : (s.port p).obeyed = true) : Does (.fenced p) s fun t => (t.port p).obeyed = false ∧ (t.port p).events.getLsbD 2 = true ∧
    t.pair.st = s.pair.st := by
  have still : (s.unfollowed p k).pair.st = s.pair.st := State.pair_of (s.unfollowed_standing p k) Pair.st fun _ => rfl
  have settled := State.pair_of (s.unfollowed p k).settle_standing Pair.st fun _ => rfl
  have port : (s.unfollowed p k).settle.port p = (s.unfollowed p k).port p :=
    State.port_of_ports ((State.settle_moves _).only .ports (by decide)) p
  have lost : ((s.unfollowed p k).port p).obeyed = false ∧ ((s.unfollowed p k).port p).events.getLsbD 2 = true := by
    unfold State.unfollowed
    extract_lets u
    have kept : (u.port p).obeyed = true := by
      unfold u State.when
      split <;> simp [obeyed]
    rw [if_pos kept]
    exact u.obedienceLost_port p
  refine ⟨(s.unfollowed p k).settle, ?_, ?_⟩
  · rw [fenced_run got, if_neg (still ▸ notSolo)]
  · beta_reduce
    rw [port]
    exact ⟨lost.1, lost.2, settled.trans still⟩

/-- Settles O46, clause by clause. -/
theorem wingsLinkCommands : Obligations.WingsLinkCommands :=
  ⟨fun _ mode released down => wingsTraining_passes mode released down, fun _ mode released down => wingsTraining_fails mode released down,
    fun _ _ _ mode training paired begun late => hello_late mode training paired begun late, fun _ mode up => wingsLinkReset_up mode up,
    fun _ _ mode up waits => retryUnanswered_resets mode up waits,
    fun _ _ _ mode up fresh good next => wingsBlockReceived_next mode up fresh good next,
    fun _ _ _ mode up fresh good gap => wingsBlockReceived_gap mode up fresh good gap,
    fun _ _ _ _ mode up fresh bad three => wingsBlockReceived_fourth mode up fresh bad three,
    fun _ _ mode up paired same => hello_sameSide mode up paired same,
    fun _ _ mode up paired other forming peer room => hello_pairs mode up paired other forming peer room,
    fun _ _ mode up paired other forming peer => hello_rejoins mode up paired other forming peer,
    fun _ mode up stays => heartbeatSend_sends mode up stays,
    fun _ _ mode up fresh new paired => heartbeat_paired mode up fresh new paired,
    fun _ _ mode up fresh old => heartbeat_old mode up fresh old,
    fun _ _ mode left paired counted last alive => peerNotAlive_left mode left paired counted last alive,
    fun _ _ mode right paired counted last alive => peerNotAlive_right mode right paired counted last alive,
    fun _ _ mode right paired lost => peerNotAlive_again mode right paired lost,
    fun _ mode forming ended alone other => formingTimeout_contends mode forming ended alone other,
    fun _ _ contends above => contend_standsDown contends above,
    fun _ _ contends below next => contend_solo contends below next,
    fun _ _ contends live => by
      obtain ⟨u, r, k, run⟩ := contend_refused contends live
      obtain ⟨st, own, buffer, -, events⟩ := u.standDown_leaves r k
      exact ⟨_, run, st, own, buffer, events⟩,
    fun _ _ _ _ settling withheld here host => settlingEnd_posts settling withheld here host,
    fun _ _ _ got solo => fenced_solo got solo, fun _ _ _ got notSolo obeyed => fenced_obeyed got notSolo obeyed,
    fun _ _ _ _ mode up stale => wingsBlockReceived_stale mode up stale, fun _ mode down => wingsLinkReset_down mode down⟩

end Sys2Proof.Machine
end

section
/-! SUPPORT. The messages of the Wings link that mirror, free and record (spec/18 R637, R641, R642, R649, R655; spec/14 R536). -/

namespace Sys2Proof.Machine

/-! ## The peer-mirror region (R641, R642) -/

/-- What is left of a mirror lies outside the range that is freed. -/
theorem Mirror.without_apart {ns lo n : Nat} {m k : Mirror} (left : k ∈ Mirror.without ns lo n m) (same : k.ns = ns) :
    k.lba + k.data.length ≤ lo ∨ lo + n ≤ k.lba := by
  unfold Mirror.without at left
  extract_lets head tail at left
  split at left
  next apart =>
    obtain rfl := List.mem_singleton.mp left
    obtain other | after | before := apart
    · exact absurd same other
    · exact .inr after
    · exact .inl before
  next =>
    obtain inHead | inTail := List.mem_append.mp left
    · split at inHead
      · cases inHead
      · rename_i some
        obtain rfl := List.mem_singleton.mp inHead
        left
        have len : head.length = min (lo - m.lba) m.data.length := List.length_take
        have pos : 0 < head.length := List.length_pos_iff.mpr some
        show m.lba + head.length ≤ lo
        omega
    · split at inTail
      · cases inTail
      · obtain rfl := List.mem_singleton.mp inTail
        exact .inr (Nat.le_refl _)

theorem State.freeMirror_pair (ns lo n : Nat) (s : State) :
    (s.freeMirror ns lo n).pair = { s.pair with mirrors := s.pair.mirrors.flatMap (Mirror.without ns lo n) } :=
  (State.retireWaiting_moves _).only .pair (by decide)

theorem State.freeMirror_apart (ns lo n : Nat) (s : State) :
    ∀ m ∈ (s.freeMirror ns lo n).pair.mirrors, m.ns = ns → m.lba + m.data.length ≤ lo ∨ lo + n ≤ m.lba := by
  intro m left same
  rw [State.freeMirror_pair] at left
  obtain ⟨k, -, left⟩ := List.mem_flatMap.mp left
  exact Mirror.without_apart left same

@[simp] theorem State.freeMirror_names (ns lo n : Nat) (s : State) : (s.freeMirror ns lo n).names = s.names :=
  (State.freeMirror_moves ..).only .names (by decide)

theorem State.storeMirror_pair (m : Mirror) (s : State) : (s.storeMirror m).pair =
    { s.pair with mirrors := s.pair.mirrors.flatMap (Mirror.without m.ns m.lba m.data.length) ++ [m] } := by
  unfold State.storeMirror
  rw [State.modPair_pair, State.freeMirror_pair]

theorem State.storeMirror_last (m : Mirror) (s : State) : (s.storeMirror m).pair.mirrors.getLast? = some m := by
  rw [State.storeMirror_pair, List.getLast?_concat]

theorem State.storeMirror_rxMsg (m : Mirror) (s : State) : (s.storeMirror m).pair.rxMsg = s.pair.rxMsg := by rw [State.storeMirror_pair]

theorem State.storeMirror_st (m : Mirror) (s : State) : (s.storeMirror m).pair.st = s.pair.st := by rw [State.storeMirror_pair]

theorem State.freeMirror_rxMsg (ns lo n : Nat) (s : State) : (s.freeMirror ns lo n).pair.rxMsg = s.pair.rxMsg := by
  rw [State.freeMirror_pair]

theorem State.storeMirror_apart (m : Mirror) (s : State) : ∀ k ∈ (s.storeMirror m).pair.mirrors.dropLast, k.ns = m.ns →
    k.lba + k.data.length ≤ m.lba ∨ m.lba + m.data.length ≤ k.lba := by
  intro k left same
  rw [State.storeMirror_pair, List.dropLast_concat] at left
  obtain ⟨y, -, left⟩ := List.mem_flatMap.mp left
  exact Mirror.without_apart left same

@[simp] theorem State.storeMirror_names (m : Mirror) (s : State) : (s.storeMirror m).names = s.names := s.freeMirror_names ..

theorem State.sendAck_pair (s : State) : s.sendAck.pair = { s.pair with msgSeq := s.pair.msgSeq + 1 } := rfl

theorem State.sendAck_sent (s : State) : (s.sendAck.out.head?.any (Out.isWings 5)) = true := State.sendWings_sent ..

@[simp] theorem State.sendAck_names (s : State) : s.sendAck.names = s.names := rfl

/-- A member record of the peer is taken over as it is, and no other member with it. -/
theorem State.noteMember_member (p r : PortId) (st : MemberSt) (serial : BitVec 160) (f0 f1 : Bool) (b0 b1 : Nat)
    (slips : List (Nat × List Nat)) (s : State) : (s.noteMember p st serial f0 f1 b0 b1 slips none).member r = if r = p then
      { s.member p with st := st, serial := serial, failed0 := f0, failed1 := f1, bands0 := b0, bands1 := b1, slips := slips
                        absentAt := if st = .absent ∧ (s.member p).st ≠ .absent then s.now else (s.member p).absentAt }
      else s.member r := by
  have recorded (t : State) (due : Bool) : (t.modProt fun q => { q with rebuildDue := q.rebuildDue || due }).recordMembers.member r =
    t.member r := rfl
  unfold State.noteMember
  dsimp only
  rw [recorded, State.watchSpare_member, State.modMember_member]

/-! ## RETRY (R637) -/

theorem retry_resends {s : State} {b : BitVec 13} (mode : s.pair.mode = true) (up : s.pair.wings ≠ 0) : Does (.retry b) s fun t =>
    t.out = .resend b :: s.out ∧ t.pair = s.pair ∧ t.names = s.names :=
  ⟨s.emitOut (.resend b), congrArg Host.Outcome.next (if_pos ⟨mode, up⟩), rfl, rfl, rfl⟩

section

variable {s : State} {q : W32} (mode : s.pair.mode = true) (up : s.pair.wings = 2)
include mode up

theorem mirror_stale {ns lba : Nat} {adm : W32} {data : List Blk} (stale : s.isStale .wings = true) :
    Does (.mirror q ns adm lba data) s fun t => t.pair = s.pair ∧ t.out = s.out ∧ t.names = s.names ∧
    t.xing.discards = sat32 s.xing.discards 1 := by
  refine ⟨s.discard, ?_, rfl, rfl, rfl, rfl⟩
  refine congrArg Host.Outcome.next ?_
  unfold State.wingsMsg
  rw [if_neg (by simp [mode, up]), if_pos stale]

variable (fresh : s.isStale .wings = false)
include fresh

theorem mirror_again {ns lba : Nat} {adm : W32} {data : List Blk} (old : earlier s.pair.rxMsg q = false) :
    Does (.mirror q ns adm lba data) s fun t => t.pair.mirrors = s.pair.mirrors ∧ t.pair.rxMsg = s.pair.rxMsg ∧
    (t.out.head?.any (Out.isWings 5)) = true ∧ t.names = s.names :=
  ⟨s.sendAck, congrArg Host.Outcome.next (State.wingsMsg_old mode up fresh old _ _), rfl, rfl, s.sendAck_sent, rfl⟩

variable (new : earlier s.pair.rxMsg q = true)
include new

theorem mirror_written {ns lba : Nat} {adm : W32} {data : List Blk} : Does (.mirror q ns adm lba data) s fun t =>
    t.pair.mirrors.getLast? = some { seq := q, ns := ns, adm := adm, lba := lba, data := data } ∧
    (∀ m ∈ t.pair.mirrors.dropLast, m.ns = ns → m.lba + m.data.length ≤ lba ∨ lba + data.length ≤ m.lba) ∧
    (t.out.head?.any (Out.isWings 5)) = true ∧ t.names = s.names ∧ t.pair.rxMsg = q := by
  let m : Mirror := { seq := q, ns := ns, adm := adm, lba := lba, data := data }
  let u := (s.hears q).storeMirror m
  have run : exec (.mirror q ns adm lba data) s = .next u.sendAck := congrArg Host.Outcome.next (State.wingsMsg_new mode up fresh new _ _)
  have last : u.pair.mirrors.getLast? = some m := State.storeMirror_last m _
  have apart := State.storeMirror_apart m (s.hears q)
  have names : u.names = s.names := State.storeMirror_names m _
  have rxMsg : u.pair.rxMsg = q := State.storeMirror_rxMsg m _
  change ∀ k ∈ u.pair.mirrors.dropLast, _ at apart
  clear_value u
  exact ⟨u.sendAck, run, last, apart, u.sendAck_sent, names, rxMsg⟩

theorem release_frees {ns lba nlb : Nat} {n : Ns} (here : s.ns? ns = some n) (conventional : n.zoned = false) :
    Does (.release q ns lba nlb) s fun t => (∀ m ∈ t.pair.mirrors, m.ns = ns → m.lba + m.data.length ≤ lba ∨ lba + nlb ≤ m.lba) ∧
    t.names = s.names ∧ t.pair.rxMsg = q := by
  let u := (s.hears q).freeMirror ns lba nlb
  have apart : ∀ m ∈ u.pair.mirrors, m.ns = ns → m.lba + m.data.length ≤ lba ∨ lba + nlb ≤ m.lba :=
    State.freeMirror_apart ns lba nlb _
  have names : u.names = s.names := State.freeMirror_names ..
  have rxMsg : u.pair.rxMsg = q := State.freeMirror_rxMsg ..
  have found : u.ns? ns = some n := by
    unfold State.ns?
    rw [names]
    exact here
  refine ⟨u, ?_, apart, names, rxMsg⟩
  refine congrArg Host.Outcome.next ((State.wingsMsg_new mode up fresh new _ _).trans ?_)
  show (match u.ns? ns with
    | some n => if n.zoned = true ∧ nlb = rowBlocks n.narrow then _ else u
    | none => u) = u
  rw [found]
  exact if_neg (by simp [conventional])

/-! ## Journal records (R649) -/

theorem journal_map {ns lba : Nat} {e : W64} (mapped : e ≠ 0) : Does (.journal q (.map ns lba e)) s fun t =>
    t.pair.journal.getLast? = some (q, .map ns lba e) ∧ t.pair.mirrors = s.pair.mirrors ∧ (t.out.head?.any (Out.isWings 5)) = true ∧
    t.names = s.names ∧ t.pair.rxMsg = q := by
  let u := (s.hears q).modPair fun p => { p with
    journal := p.journal.filter (fun k => !JournalRec.sameKey (.map ns lba e) k.2) ++ [(q, .map ns lba e)] }
  have kept : (s.hears q).noteRecord q (.map ns lba e) = u := by
    unfold State.noteRecord State.when
    dsimp only
    rw [if_neg fun h => mapped (eq_of_beq h)]
  have run : exec (.journal q (.map ns lba e)) s = .next u.sendAck :=
    congrArg Host.Outcome.next ((State.wingsMsg_new mode up fresh new _ _).trans (congrArg State.sendAck kept))
  have last : u.pair.journal.getLast? = some (q, .map ns lba e) := List.getLast?_concat
  have rest : u.pair.mirrors = s.pair.mirrors ∧ u.names = s.names ∧ u.pair.rxMsg = q := ⟨rfl, rfl, rfl⟩
  obtain ⟨mirrors, names, rxMsg⟩ := rest
  clear_value u
  exact ⟨u.sendAck, run, last, mirrors, u.sendAck_sent, names, rxMsg⟩

theorem journal_member {p : PortId} {k b0 b1 : Nat} {sr : BitVec 160} {f0 f1 : Bool} {sl : List (Nat × List Nat)} :
    Does (.journal q (.member p k sr f0 f1 b0 b1 sl none)) s fun t => (t.member p).st = MemberSt.ofCode k ∧ (t.member p).serial = sr ∧
    (t.member p).failed0 = f0 ∧ (t.member p).failed1 = f1 ∧ (t.member p).bands0 = b0 ∧ (t.member p).bands1 = b1 ∧ (t.member p).slips = sl ∧
    (t.out.head?.any (Out.isWings 5)) = true ∧ t.names = s.names ∧ t.pair.rxMsg = q ∧ ∀ r, r ≠ p → t.member r = s.member r := by
  let v := (s.hears q).noteMember p (MemberSt.ofCode k) sr f0 f1 b0 b1 sl none
  have run : exec (.journal q (.member p k sr f0 f1 b0 b1 sl none)) s = .next v.sendAck :=
    congrArg Host.Outcome.next (State.wingsMsg_new mode up fresh new _ _)
  have names : v.names = s.names := (State.noteMember_moves ..).only .names (by decide)
  have pair : v.pair = (s.hears q).pair := (State.noteMember_moves ..).only .pair (by decide)
  have member (r : PortId) := (s.hears q).noteMember_member p r (MemberSt.ofCode k) sr f0 f1 b0 b1 sl
  have rxMsg : v.pair.rxMsg = q := by rw [pair]; rfl
  change ∀ r, v.member r = _ at member
  clear_value v
  have own := (member p).trans (if_pos rfl)
  refine ⟨v.sendAck, run, congrArg Member.st own, congrArg Member.serial own, congrArg Member.failed0 own, congrArg Member.failed1 own,
    congrArg Member.bands0 own, congrArg Member.bands1 own, congrArg Member.slips own, v.sendAck_sent, names, rxMsg, fun r other =>
    (member r).trans (if_neg other)⟩

theorem journal_checkpoint {n : Nat} {active held : Bool} (idle : s.rebuild? = none) : Does (.journal q (.checkpoint n active held)) s fun t =>
    t.prot.checkpoint = n ∧ t.prot.peerRebuild = active ∧ t.prot.rebuildHeld = held ∧ (t.out.head?.any (Out.isWings 5)) = true ∧
    t.names = s.names ∧ t.pair.rxMsg = q := by
  let u := ((s.hears q).modProt fun p => { p with
    checkpoint := n, peerRebuild := active, rebuildHeld := held, rebuildDue := p.rebuildDue && !active }).record (.checkpoint n)
  have none : u.rebuild? = none := idle
  have noted : (s.hears q).noteCheckpoint n active held = u := by
    unfold State.noteCheckpoint
    dsimp only
    rw [none]
  have run : exec (.journal q (.checkpoint n active held)) s = .next u.sendAck :=
    congrArg Host.Outcome.next ((State.wingsMsg_new mode up fresh new _ _).trans (congrArg State.sendAck noted))
  have kept : u.prot.checkpoint = n ∧ u.prot.peerRebuild = active ∧ u.prot.rebuildHeld = held ∧ u.names = s.names ∧ u.pair.rxMsg = q :=
    ⟨rfl, rfl, rfl, rfl, rfl⟩
  obtain ⟨checkpoint, peerRebuild, rebuildHeld, names, rxMsg⟩ := kept
  clear_value u
  exact ⟨u.sendAck, run, checkpoint, peerRebuild, rebuildHeld, u.sendAck_sent, names, rxMsg⟩

/-! ## SYNC (R655) -/

theorem sync_mirrored {ns lba : Nat} {data : List Blk} (more : data ≠ []) : Does (.sync q ns lba data false) s fun t =>
    t.pair.mirrors.getLast? = some { seq := q, ns := ns, adm := 0, lba := lba, data := data } ∧ t.pair.st = s.pair.st ∧
    (t.out.head?.any (Out.isWings 5)) = true ∧ t.names = s.names ∧ t.pair.rxMsg = q := by
  let m : Mirror := { seq := q, ns := ns, adm := 0, lba := lba, data := data }
  let u := (s.hears q).storeMirror m
  have stored : (if data = [] then s.hears q else u) = u := if_neg more
  have run : exec (.sync q ns lba data false) s = .next u.sendAck :=
    congrArg Host.Outcome.next ((State.wingsMsg_new mode up fresh new _ _).trans ((if_neg (by simp)).trans (congrArg State.sendAck stored)))
  have last : u.pair.mirrors.getLast? = some m := State.storeMirror_last m _
  have names : u.names = s.names := State.storeMirror_names m _
  have rxMsg : u.pair.rxMsg = q := State.storeMirror_rxMsg m _
  have st : u.pair.st = s.pair.st := State.storeMirror_st m _
  clear_value u
  exact ⟨u.sendAck, run, last, st, u.sendAck_sent, names, rxMsg⟩

end

end Sys2Proof.Machine
end

section
/-! SUPPORT. The messages of the Wings link that move ports and groups, end commands and carry media work (spec/18 R626, R628, R637, R640,
R653 to R655). -/

namespace Sys2Proof.Machine

/-! ## Roles -/

theorem State.pair_of_role {s : State} {r : Pair} (h : s.standing.role = r) {α : Type} (get : Pair → α) (kept : ∀ p : Pair, get p.role = get p) :
    get s.pair = get r :=
  (kept s.pair).symm.trans (congrArg get h)

theorem State.setAnas_role (g : Bool → AnaState) (s : State) : (s.setAnas g).standing.role = s.standing.role := by
  rw [State.setAnas_standing]
  rfl

theorem State.followAna_role (s : State) : s.followAna.standing.role = s.standing.role := s.setAnas_role _

theorem State.raisePair_role (n : Nat) (s : State) :
    (s.raisePair n).standing.role = { s.standing.role with events := setBit s.standing.role.events n } := by
  rw [State.raisePair_standing]

theorem State.modPair_role {f : Pair → Pair} (h : ∀ p, (f p).role = (f p.role).role) (s : State) :
    (s.modPair f).standing.role = (f s.standing.role).role := by
  rw [State.modPair_standing_role h]

theorem State.takeGroup_role (ana2 : Bool) (s : State) : ∃ ms, (s.takeGroup ana2).standing.role = { s.standing.role with mirrors := ms } := by
  unfold State.takeGroup
  extract_lets mine l
  rw [State.each_standing fun m s => s.takeMirror_standing m]
  exact ⟨_, rfl⟩

/-! ## Places and the pair -/

theorem State.modPair_sectorOf (g : Pair → Pair) (s : State) (l : Location) : (s.modPair g).sectorOf l = s.sectorOf l := rfl

theorem State.hears_sectorOf (q : W32) (s : State) (l : Location) : (s.hears q).sectorOf l = s.sectorOf l := rfl

theorem State.hears_findMapped (q : W32) (s : State) (n : Ns) (lba : Nat) : (s.hears q).findMapped n lba = s.findMapped n lba := rfl

theorem State.hears_foundAt (q : W32) (s : State) (l : Found) : (s.hears q).foundAt l = s.foundAt l := by
  cases l <;> rfl

/-! ## The end of a rejoin (R655) -/

/-- The role of a controller that has rejoined. -/
def Pair.hasRejoined (ms : List Mirror) (p : Pair) : Pair :=
  { p with st := .paired, syncing := false, servesOther := false, coordinator := !p.side, mirrors := ms, events := setBit p.events 6 }

theorem State.rejoined_role (s : State) : ∃ ms, (s.rejoined false).standing.role = s.standing.role.hasRejoined ms := by
  unfold State.rejoined
  extract_lets moved s1 s2 s3 s4
  obtain ⟨ms, taken⟩ := s1.takeGroup_role moved
  have paired : s1.standing.role = { s.standing.role with st := .paired, syncing := false, servesOther := false, coordinator := !s.pair.side } := by
    unfold s1
    rw [State.setAnas_role, State.modPair_role fun _ => rfl]
    rfl
  have rebuilt : s3.standing = s2.standing := State.when_standing State.takeRebuild_standing _ s2
  refine ⟨ms, ?_⟩
  rw [State.bufferChanged_standing, State.completeWait_standing]
  unfold s4
  rw [State.raisePair_role, State.followAna_role, rebuilt]
  change { (s1.takeGroup moved).standing.role with events := setBit (s1.takeGroup moved).standing.role.events 6 } = _
  rw [taken, paired]
  rfl

section

variable {s : State} {q : W32} (mode : s.pair.mode = true) (up : s.pair.wings = 2) (fresh : s.isStale .wings = false)
  (new : earlier s.pair.rxMsg q = true)
include mode up fresh new

theorem sync_ends {ns lba : Nat} (rejoining : s.pair.st = .rejoining) : Does (.sync q ns lba [] true) s fun t => t.pair.st = .paired ∧
    t.pair.servesOther = false ∧ t.pair.coordinator = (!s.pair.side) ∧ t.pair.own = s.pair.own ∧ t.pair.events.getLsbD 6 = true ∧
    t.pair.rxMsg = q := by
  let u := (s.hears q).sendAck
  have run : exec (.sync q ns lba [] true) s = .next (u.rejoined false) :=
    congrArg Host.Outcome.next ((State.wingsMsg_new mode up fresh new _ _).trans (if_pos ⟨rfl, rejoining⟩))
  have heard : u.standing.role = (s.hears q).standing.role := congrArg Standing.role (State.sendWings_standing ..)
  obtain ⟨ms, role⟩ := u.rejoined_role
  rw [heard] at role
  refine ⟨_, run, State.pair_of_role role Pair.st fun _ => rfl, State.pair_of_role role Pair.servesOther fun _ => rfl,
    State.pair_of_role role Pair.coordinator fun _ => rfl, State.pair_of_role role Pair.own fun _ => rfl, ?_,
    State.pair_of_role role Pair.rxMsg fun _ => rfl⟩
  rw [State.pair_of_role role Pair.events fun _ => rfl]
  exact setBit_get _ 6 (by decide)

/-! ## Handover (R653, R654) -/

theorem handover_ports {ports : W32} {g : BitVec 2} {ep : BitVec 63} (free : s.pair.handing = none) (paired : s.pair.st = .paired)
    (some : ports ≠ 0) : Does (.handover q ports g ep) s fun t => t.pair.own = s.pair.own ||| ports ∧
    t.pair.peerOwn = s.pair.peerOwn &&& ~~~ports ∧ t.pair.epoch = ep ∧ t.pair.st = .paired ∧ t.pair.rxMsg = q := by
  let u := ((s.hears q).modPair fun p => { p with epoch := ep, epochOver := false }).modPair fun p => { p with
    own := p.own ||| ports, peerOwn := p.peerOwn &&& ~~~ports, taking := .some (ports, g) }
  let v := u.each (u.livePorts.filter fun p => ports.getLsbD p.val && inRange 7 9 (u.port p).train.val) fun p s => s.present p s.pairToken
  have presented : v.standing = u.standing := State.each_standing (fun p s => (State.present_moves ..).standing rfl) _ u
  have role : v.settle.standing.role = u.standing.role := congrArg Standing.role (v.settle_standing.trans presented)
  have run : exec (.handover q ports g ep) s = .next v.settle := by
    refine congrArg Host.Outcome.next ((State.wingsMsg_new mode up fresh new _ _).trans ?_)
    dsimp only
    rw [show (s.hears q).pair.handing = none from free]
    exact (if_neg (by simp [State.hears, paired])).trans (if_neg some)
  exact ⟨_, run, State.pair_of_role role Pair.own fun _ => rfl, State.pair_of_role role Pair.peerOwn fun _ => rfl,
    State.pair_of_role role Pair.epoch fun _ => rfl, (State.pair_of_role role Pair.st fun _ => rfl).trans paired,
    State.pair_of_role role Pair.rxMsg fun _ => rfl⟩

theorem handover_last {g : BitVec 2} {ep : BitVec 63} (free : s.pair.handing = none) (paired : s.pair.st = .paired) :
    Does (.handover q 0 g ep) s fun t => t.pair.st = .solo ∧ t.pair.own = 0xFFFFFFFF ∧ t.pair.servesOther = true ∧
    t.pair.coordinator = true ∧ t.pair.epoch = ep ∧ (t.out.head?.any (Out.isWings 9)) = true ∧ t.pair.rxMsg = q := by
  let u := (s.hears q).modPair fun p => { p with epoch := ep, epochOver := false }
  have run : exec (.handover q 0 g ep) s = .next (u.becomeSolo.sendWings 0x09 [0, g.toNat, ep.toNat, 1] []) := by
    refine congrArg Host.Outcome.next ((State.wingsMsg_new mode up fresh new _ _).trans ?_)
    dsimp only
    rw [show (s.hears q).pair.handing = none from free]
    exact (if_neg (by simp [State.hears, paired])).trans (if_pos rfl)
  have role := congrArg Standing.role ((State.sendWings_standing 0x09 [0, g.toNat, ep.toNat, 1] [] _).trans u.becomeSolo_standing)
  exact ⟨_, run, State.pair_of_role role Pair.st fun _ => rfl, State.pair_of_role role Pair.own fun _ => rfl,
    State.pair_of_role role Pair.servesOther fun _ => rfl, State.pair_of_role role Pair.coordinator fun _ => rfl,
    State.pair_of_role role Pair.epoch fun _ => rfl, State.sendWings_sent .., State.pair_of_role role Pair.rxMsg fun _ => rfl⟩

theorem handover_answered {ports : W32} {g : BitVec 2} {ep : BitVec 63} {h : Handing} (handing : s.pair.handing = some h)
    (sent : h.sent = true) (same : h.epoch = ep) (only : h.groups = 0) : Does (.handover q ports g ep) s fun t => t.pair.handing = none ∧
    t.pair.handovers = satAdd 255 s.pair.handovers 1 ∧ t.pair.events.getLsbD 5 = true ∧ t.pair.st = s.pair.st ∧ t.pair.own = s.pair.own ∧
    t.names = s.names ∧ t.pair.rxMsg = q := by
  let u := (s.hears q).modPair fun p => { p with handing := none, handovers := satAdd 255 p.handovers 1 }
  let v := (u.raisePair 5).completeWait .handover
  have run : exec (.handover q ports g ep) s = .next v := by
    refine congrArg Host.Outcome.next ((State.wingsMsg_new mode up fresh new _ _).trans ?_)
    dsimp only
    rw [show (s.hears q).pair.handing = some h from handing]
    dsimp only
    rw [if_pos ⟨sent, same⟩]
    exact if_pos only
  have names : v.names = s.names := ((State.completeWait_moves ..).only .names (by decide)).trans (State.raisePair_names 5 u)
  have role : v.standing.role = { u.standing.role with events := setBit u.standing.role.events 5 } :=
    (congrArg Standing.role (State.completeWait_standing ..)).trans (u.raisePair_role 5)
  refine ⟨v, run, State.pair_of_role role Pair.handing fun _ => rfl, State.pair_of_role role Pair.handovers fun _ => rfl, ?_,
    State.pair_of_role role Pair.st fun _ => rfl, State.pair_of_role role Pair.own fun _ => rfl, names,
    State.pair_of_role role Pair.rxMsg fun _ => rfl⟩
  rw [State.pair_of_role role Pair.events fun _ => rfl]
  exact setBit_get _ 5 (by decide)

/-! ## Media requests (R626, R629) -/

theorem mediaReq_queued {a : ActId} {d : Descriptor} (own : s.pair.own.getLsbD (portOf a).val = true) : Does (.mediaReq q a d) s fun t =>
    t.pair.peerReqs = s.pair.peerReqs ++ [{ seq := q, act := a, d := { d with ctx := none, reread := 0 } }] ∧
    (t.seq a).queue = (s.seq a).queue ++ [{ d with ctx := none, reread := 0 }] ∧ (∀ b, b ≠ a → t.seq b = s.seq b) ∧ t.out = s.out ∧
    t.names = s.names ∧ t.pair.rxMsg = q := by
  let d' : Descriptor := { d with ctx := none, reread := 0 }
  let u := ((s.hears q).modPair fun p => { p with peerReqs := p.peerReqs ++ [{ seq := q, act := a, d := d' }] }).modSeq a fun k =>
    { k with queue := k.queue ++ [d'] }
  have run : exec (.mediaReq q a d) s = .next (u.noteRequest a) :=
    congrArg Host.Outcome.next ((State.wingsMsg_new mode up fresh new _ _).trans (if_pos own))
  have noted := State.noteRequest_moves a u
  have pair : (u.noteRequest a).pair = u.pair := noted.only .pair (by decide)
  have out : (u.noteRequest a).out = u.out := noted.only .out (by decide)
  have names : (u.noteRequest a).names = u.names := noted.only .names (by decide)
  have queued (b : ActId) : u.seq b = if b = a then { s.seq a with queue := (s.seq a).queue ++ [d'] } else s.seq b :=
    State.modSeq_seq ..
  refine ⟨_, run, ?_⟩
  simp only [pair, out, names, State.noteRequest_seq, queued, if_pos]
  exact ⟨rfl, rfl, fun b other => if_neg other, rfl, rfl, rfl⟩

theorem mediaReq_refused {a : ActId} {d : Descriptor} (other : s.pair.own.getLsbD (portOf a).val = false) : Does (.mediaReq q a d) s fun t =>
    t.seqs = s.seqs ∧ t.pair.peerReqs = s.pair.peerReqs ∧ (t.out.head?.any (Out.isWings 8)) = true ∧ t.names = s.names ∧
    t.pair.rxMsg = q := by
  refine ⟨(s.hears q).sendWings 0x08 [2, q.toNat, 0] [], ?_, rfl, rfl, State.sendWings_sent .., rfl, rfl⟩
  exact congrArg Host.Outcome.next ((State.wingsMsg_new mode up fresh new _ _).trans
    (if_neg fun own => Bool.noConfusion (other.symm.trans own)))

theorem mediaDone_good {r : W32} {m : SentMsg} (asked : s.mediaAsked r = some m) : Does (.mediaDone q r true) s fun t =>
    t.pair.unanswered = s.pair.unanswered.filter (fun y => y.seq != r) ∧ t.prot = s.prot ∧ t.names = s.names ∧ t.pair.rxMsg = q := by
  refine ⟨(s.hears q).modPair fun p => { p with unanswered := p.unanswered.filter fun y => y.seq != r }, ?_, rfl, rfl, rfl, rfl⟩
  refine congrArg Host.Outcome.next ((State.wingsMsg_new mode up fresh new _ _).trans ?_)
  rw [show (s.hears q).mediaAsked r = some m from asked]

theorem mediaDone_writeFailed {r : W32} {m : SentMsg} {l : Location} {x : Sector} {a b hd cl tr z first count : Nat}
    (asked : s.mediaAsked r = some m) (payload : m.payload = [a, b, 1, cl, hd, tr, z, first, count]) (at_ : m.sectorAt first = some l)
    (holds : s.sectorOf l = some x) : Does (.mediaDone q r false) s fun t => t.prot.marked.contains x.place = true ∧
    t.pair.unanswered = s.pair.unanswered.filter (fun y => y.seq != r) ∧ t.names = s.names := by
  let u := (s.hears q).modPair fun p => { p with unanswered := p.unanswered.filter fun y => y.seq != r }
  refine ⟨u.modProt fun p => { p with marked := if p.marked.contains x.place then p.marked else p.marked ++ [x.place] }, ?_, ?_, rfl, rfl⟩
  · refine congrArg Host.Outcome.next ((State.wingsMsg_new mode up fresh new _ _).trans ?_)
    rw [show (s.hears q).mediaAsked r = some m from asked]
    dsimp only
    simp only [payload, at_, Option.bind_some, State.modPair_sectorOf, State.hears_sectorOf, holds, if_true]
    rfl
  · show List.contains (if s.prot.marked.contains x.place then s.prot.marked else s.prot.marked ++ [x.place]) x.place = true
    split
    · assumption
    · simp

end

end Sys2Proof.Machine
end

section
/-! SUPPORT. The messages of the Wings link that admit, answer and end commands (spec/18 R626, R628, R637, R641). -/

namespace Sys2Proof.Machine

/-! ## Contexts -/

/-- The completion of a host's command says nothing to the peer. -/
theorem State.complete_host_pair {s : State} {c : Nat} {x : Ctx} {f : Fn} (here : s.ctx? c = some x) (host : x.origin = .host f) (r : Cpl) :
    (s.complete c r).pair = s.pair := by
  unfold State.complete
  rw [here]
  dsimp only
  rw [host]
  dsimp only
  split <;> rfl

/-- A command of the peer that ends leaves no context, and is answered (R628). -/
theorem State.complete_peer {s : State} {c : Nat} {x : Ctx} {q : W32} {f : Fn} {i : Nat} (here : s.ctx? c = some x)
    (peer : x.origin = .peer q f i) (r : Cpl) : (s.complete c r).ctxs = s.ctxs.filter (fun y => y.id != c) ∧
    (s.complete c r).pair.rxMsg = s.pair.rxMsg ∧ ((s.complete c r).out.head?.any (Out.isWings 7)) = true := by
  unfold State.complete
  rw [here]
  dsimp only
  rw [peer]
  exact ⟨rfl, rfl, State.sendWings_sent ..⟩

theorem State.ctx_filtered {s : State} {c : Nat} {l : List Ctx} (kept : s.ctxs = l.filter fun y => y.id != c) : s.ctx? c = none := by
  unfold State.ctx?
  rw [kept, List.find?_eq_none]
  intro y inside
  have := (List.mem_filter.mp inside).2
  simpa using this

theorem State.addCtx_ctx {s : State} (free : s.ctx? s.nextCtx = none) (origin : Origin) (i : Nat) (e : SqEntry) (part : CtxPart) :
    (s.addCtx origin i e part).ctx? s.nextCtx = some (Ctx.fresh s.nextCtx s.now origin i e part) := by
  unfold State.ctx? at free ⊢
  show (s.ctxs ++ [Ctx.fresh s.nextCtx s.now origin i e part]).find? _ = _
  rw [List.find?_append, free]
  simp [Ctx.fresh]

/-! ## Admission of the peer's commands (R628) -/

/-- The context of an admitted command. -/
def State.admits (s : State) (x : Ctx) : Ctx :=
  { x with
    stage := .admitted, ana := s.anaFor x, groups := (x.fn?.map fun f => ((s.fn f).ana1, (s.fn f).ana2)).getD (.optimized, .optimized)
    lba := (s.blocksOf x).1, nlb := (s.blocksOf x).2, update := x.updates
    fua := (isIoOp 0x01 x || isIoOp 0x08 x || isIoOp opZoneAppend x) && fuaOf x.entry, lost := s.zoneLost x (s.blocksOf x).1
    adm := s.admission }

/-- A sound I/O command of the peer is admitted, and nothing else happens. -/
theorem State.admitCmd_peer {s : State} {x : Ctx} {q : W32} {f : Fn} {i : Nat} (peer : x.origin = .peer q f i) (io : x.isAdmin = false)
    (sound : ioFault x.entry = none) :
    s.admitCmd x = { s.modCtx x.id (fun _ => s.admits x) with admission := s.admission + 1 } := by
  unfold State.admitCmd
  extract_lets r fua y owner u gone v w
  have none_ : owner = none := by simp only [owner, peer]
  have same : u = s := by simp only [u, none_]
  have kept : gone = false := by simp only [gone, none_]
  have stays : u.forwards y = false := by
    unfold State.forwards
    rw [show y.origin = .peer q f i from peer]
    rfl
  have plain (t : State) : State.hostBehavior x t = t := by
    unfold State.hostBehavior
    rw [peer]
    have other : isAction 0x09 0x16 x = false := by rw [isAction, isAdminOp, io]; rfl
    rw [other]
    rfl
  rw [if_neg (by simp [stays]), if_neg (by simp [kept]), io]
  simp only [Bool.false_eq_true, if_false, sound, State.orElse_none, plain]
  simp only [w, v, same]
  rfl

/-- The state once a command of the peer has arrived. -/
def State.arrives (q : W32) (f : Fn) (i : Nat) (e : SqEntry) (s : State) : State := (s.hears q).wake.addCtx (.peer q f i) i e .none

section

variable (q : W32) (f : Fn) (i : Nat) (e : SqEntry) (s : State)

theorem State.wake_hears_moves : (s.hears q).Moves [.mem] (s.hears q).wake := State.wake_moves _

theorem State.arrives_pair : (s.arrives q f i e).pair = (s.hears q).pair := (s.wake_hears_moves q).only .pair (by decide)

theorem State.arrives_names : (s.arrives q f i e).names = s.names := (s.wake_hears_moves q).only .names (by decide)

theorem State.arrives_out : (s.arrives q f i e).out = s.out := (s.wake_hears_moves q).only .out (by decide)

theorem State.arrives_admission : (s.arrives q f i e).admission = s.admission := (s.wake_hears_moves q).only .admission (by decide)

theorem State.arrives_nextCtx : (s.arrives q f i e).nextCtx = s.nextCtx + 1 :=
  congrArg (· + 1) ((s.wake_hears_moves q).only .nextCtx (by decide))

theorem State.arrives_fn (g : Fn) : (s.arrives q f i e).fn g = s.fn g := by
  have kept := (s.wake_hears_moves q).fn (by decide) (by decide) g
  cases g <;> exact kept

theorem State.arrives_ctx (free : s.ctx? s.nextCtx = none) : (s.arrives q f i e).ctx? s.nextCtx =
    some (Ctx.fresh s.nextCtx s.now (.peer q f i) i e .none) := by
  have now : (s.hears q).wake.now = s.now := (s.wake_hears_moves q).only .now (by decide)
  have next : (s.hears q).wake.nextCtx = s.nextCtx := (s.wake_hears_moves q).only .nextCtx (by decide)
  have found := State.addCtx_ctx (s := (s.hears q).wake) (by rw [next]; exact ((s.wake_hears_moves q).ctx? (by decide) _).trans free)
    (.peer q f i) i e .none
  rw [next, now] at found
  exact found

end

/-- Whether the group of a command's namespace moves. -/
def State.movesFor (s : State) (f : Fn) (x : Ctx) : Bool := (s.ns? x.ns).any fun n => (s.fn f).anaOf n == .change

theorem forward_admits {s : State} {q : W32} {f : Fn} {i : Nat} {e : SqEntry} (mode : s.pair.mode = true) (up : s.pair.wings = 2)
    (fresh : s.isStale .wings = false) (new : earlier s.pair.rxMsg q = true) (io : i ≠ 0) (free : s.ctx? s.nextCtx = none)
    (sound : ioFault e = none) : ∃ z : Ctx, z.stage = .admitted ∧ z.origin = .peer q f i ∧ z.entry = e ∧ z.adm = s.admission ∧
    ∃ u : State, u.ctx? s.nextCtx = some z ∧ u.admission = s.admission + 1 ∧ u.nextCtx = s.nextCtx + 1 ∧ u.names = s.names ∧
    u.out = s.out ∧ u.pair.rxMsg = q ∧
    exec (.forward q f i e) s = .next (u.when (s.movesFor f (Ctx.fresh s.nextCtx s.now (.peer q f i) i e .none))
      (State.complete s.nextCtx Cpl.transition)) := by
  let x := Ctx.fresh s.nextCtx s.now (.peer q f i) i e .none
  let v := s.arrives q f i e
  have arrived : v.ctx? s.nextCtx = some x := s.arrives_ctx q f i e free
  have admitted : v.admitCmd x = { v.modCtx x.id (fun _ => v.admits x) with admission := v.admission + 1 } :=
    State.admitCmd_peer rfl (by simp [Ctx.isAdmin, x, Ctx.fresh, io]) sound
  have found : (v.admitCmd x).ctx? s.nextCtx = some (v.admits x) := by
    rw [admitted]
    exact (State.modCtx_ctx s.nextCtx (fun _ => v.admits x) (fun _ _ => rfl) v).trans (by rw [arrived]; rfl)
  have moving : v.movesFor f x = s.movesFor f x := by
    unfold State.movesFor State.ns?
    rw [State.arrives_names, State.arrives_fn]
  refine ⟨v.admits x, rfl, rfl, rfl, State.arrives_admission q f i e s, v.admitCmd x, found, ?_, ?_, ?_, ?_, ?_, ?_⟩
  · rw [admitted]
    exact congrArg (· + 1) (State.arrives_admission q f i e s)
  · rw [admitted]
    exact State.arrives_nextCtx q f i e s
  · rw [admitted]
    exact State.arrives_names q f i e s
  · rw [admitted]
    exact State.arrives_out q f i e s
  · rw [admitted]
    exact congrArg Pair.rxMsg (State.arrives_pair q f i e s)
  · have next : (s.hears q).wake.nextCtx = s.nextCtx := (s.wake_hears_moves q).only .nextCtx (by decide)
    refine congrArg Host.Outcome.next ((State.wingsMsg_new mode up fresh new _ _).trans ?_)
    dsimp only
    rw [next]
    have seen : ((s.hears q).wake.addCtx (.peer q f i) i e .none).ctx? s.nextCtx = some x := arrived
    rw [seen]
    dsimp only
    have io' : (i != 0) = true := by simp [io]
    rw [io', Bool.and_true]
    rw [← moving]
    rfl

section

variable {s : State} {q : W32} (mode : s.pair.mode = true) (up : s.pair.wings = 2) (fresh : s.isStale .wings = false)
  (new : earlier s.pair.rxMsg q = true)
include mode up fresh new

theorem forward_admitted {f : Fn} {i : Nat} {e : SqEntry} {n : Ns} (io : i ≠ 0) (free : s.ctx? s.nextCtx = none)
    (here : s.ns? (Ctx.fresh s.nextCtx s.now (.peer q f i) i e .none).ns = some n) (still : (s.fn f).anaOf n ≠ .change)
    (sound : ioFault e = none) : Does (.forward q f i e) s fun t => (t.ctx? s.nextCtx).any (fun y => y.stage == .admitted &&
    y.origin == .peer q f i && y.entry == e && y.adm == s.admission) = true ∧ t.admission = s.admission + 1 ∧ t.nextCtx = s.nextCtx + 1 ∧
    t.names = s.names ∧ t.out = s.out ∧ t.pair.rxMsg = q := by
  obtain ⟨z, stage, origin, entry, adm, u, found, admission, nextCtx, names, out, rxMsg, run⟩ :=
    forward_admits (e := e) mode up fresh new io free sound (f := f)
  have stays : s.movesFor f (Ctx.fresh s.nextCtx s.now (.peer q f i) i e .none) = false := by
    unfold State.movesFor
    rw [here]
    simpa using still
  rw [stays] at run
  refine ⟨u, run, ?_, admission, nextCtx, names, out, rxMsg⟩
  rw [found]
  simp [stage, origin, entry, adm]

theorem forward_moving {f : Fn} {i : Nat} {e : SqEntry} {n : Ns} (io : i ≠ 0) (free : s.ctx? s.nextCtx = none)
    (here : s.ns? (Ctx.fresh s.nextCtx s.now (.peer q f i) i e .none).ns = some n) (moving : (s.fn f).anaOf n = .change)
    (sound : ioFault e = none) : Does (.forward q f i e) s fun t => t.ctx? s.nextCtx = none ∧
    (t.out.head?.any (Out.isWings 7)) = true ∧ t.names = s.names ∧ t.pair.rxMsg = q := by
  obtain ⟨z, -, origin, -, -, u, found, -, -, names, -, rxMsg, run⟩ := forward_admits (e := e) mode up fresh new io free sound (f := f)
  have moves : s.movesFor f (Ctx.fresh s.nextCtx s.now (.peer q f i) i e .none) = true := by
    unfold State.movesFor
    rw [here]
    simpa using moving
  rw [moves] at run
  obtain ⟨ctxs, heard, sent⟩ := State.complete_peer found origin Cpl.transition
  exact ⟨_, run, State.ctx_filtered ctxs, sent, (State.complete_names _ _ u).trans names, heard.trans rxMsg⟩

end

end Sys2Proof.Machine
end

section
/-! SUPPORT. The answers of the peer that end commands (spec/18 R626, R628, R641), and every message of the Wings link (O31). -/

namespace Sys2Proof.Machine

/-! ## ACK (R641) -/

/-- A checkpoint that waits for the acknowledgement is done. -/
def State.checkAcked (q : W32) (s : State) : State := match s.prot.checkAck with
  | some (n, k) => if earlier q k then s else s.checkpointDone n
  | none => s

theorem State.checkAcked_moves (q : W32) (s : State) : s.Moves [.nor, .prot] (s.checkAcked q) := by
  unfold State.checkAcked
  split
  · split
    · exact Moves.refl _ _
    · exact State.checkpointDone_moves _ _
  · exact Moves.refl _ _

/-- What an acknowledgement answers. -/
def SentMsg.ackedBy (q : W32) (m : SentMsg) : Bool := (m.type == 0x03 || m.type == 0x04 || m.type == 0x0B) && !earlier q m.seq

/-- A command that waits for acknowledgements, once one has come. -/
def State.ackCtx (q : W32) (x : Ctx) (s : State) : State := match x.wait with
  | .mirror l =>
    let left := l.filter fun k => earlier q k
    if left = [] then s.completeWrite x.id else s.await x.id (.mirror left)
  | _ => s

theorem ack_completes {s : State} {q : W32} {c : Nat} {x : Ctx} {l : List W32} {f : Fn} (mode : s.pair.mode = true) (up : s.pair.wings = 2)
    (alone : s.ctxs = [x]) (id : x.id = c) (host : x.origin = .host f) (waits : x.stage = .waiting) (wait : x.wait = .mirror l)
    (last : l.all (fun k => !earlier q k) = true) (ready : s.pair.settling = false) (mirrored : s.pair.syncing = false)
    (idle : s.prot.works = []) : Does (.ack q) s fun t => EndedWith t c x x.writeCpl ∧
    (∀ m ∈ t.pair.unanswered, m ∈ s.pair.unanswered) ∧ t.names = s.names := by
  let u := s.modPair fun p => { p with unanswered := p.unanswered.filter fun m => !m.ackedBy q }
  have one : u.ctxs = [x] := alone
  have here : u.ctx? c = some x := State.ctx_alone one id
  let v := u.complete c x.writeCpl
  have pair : v.pair = u.pair := State.complete_host_pair here host _
  have works : v.prot.works = [] := (congrArg Prot.works (State.complete_prot c _ u)).trans idle
  have names : v.names = s.names := State.complete_names c _ u
  have ended : EndedWith v c x x.writeCpl := State.ended_of_host here host _
  have done : u.ackCtx q x = v := by
    have none_left : (l.filter fun k => earlier q k) = [] := by
      rw [List.filter_eq_nil_iff]
      intro k inside
      simpa using List.all_eq_true.mp last k inside
    unfold State.ackCtx
    rw [wait]
    dsimp only
    rw [if_pos none_left, id]
    unfold State.completeWrite
    rw [here]
    dsimp only
    rw [show u.pair.settling = false from ready]
    rfl
  have waiting : u.ctxs.filter (fun y => y.stage == .waiting) = [x] := by
    rw [one]
    simp [waits]
  have run : exec (.ack q) s = .next (v.checkAcked q) := by
    have settled : (v.checkAcked q).pair.syncing = false := by
      rw [(v.checkAcked_moves q).only .pair (by decide), pair]
      exact mirrored
    refine congrArg Host.Outcome.next ((if_neg (by simp [mode, up])).trans ?_)
    have first : u.each (u.ctxs.filter fun y => y.stage == .waiting) (State.ackCtx q) = v := by
      rw [waiting]
      exact done
    change (fun w : State => (fun y : State => if y.pair.syncing = true ∧ (y.pair.unanswered.all fun m => m.type != 0x0B) = true
      then y.rejoined true else y) ((w.each (w.prot.works.filter fun k => k.acks.isSome) _).checkAcked q))
      (u.each (u.ctxs.filter fun y => y.stage == .waiting) (State.ackCtx q)) = _
    rw [first]
    beta_reduce
    rw [works]
    exact if_neg fun h => Bool.noConfusion (settled.symm.trans h.1)
  have moves := v.checkAcked_moves q
  refine ⟨_, run, ended.kept (moves.only .ctxs (by decide)) (fun g => congrArg HostFn.d3hot (moves.fn (by decide) (by decide) g)), ?_,
    (moves.only .names (by decide)).trans names⟩
  rw [moves.only .pair (by decide), pair]
  exact fun m inside => List.mem_of_mem_filter inside

section

variable {s : State} {q : W32} (mode : s.pair.mode = true) (up : s.pair.wings = 2) (fresh : s.isStale .wings = false)
  (new : earlier s.pair.rxMsg q = true)
include mode up fresh new

/-! ## FORWARD_CPL (R628) -/

theorem forwardCpl_ends {c a b : Nat} {x : Ctx} {f : Fn} {d0 d1 : W32} {bs : List Byte} {data : List Blk} (here : s.ctx? c = some x)
    (host : x.origin = .host f) (d0_ : (s.fn f).d3hot = false) (forwarded : x.stage = .forwarded) (plain : isIoOp opZoneAppend x = false)
    (local_ : s.flushesPeer x = false) : Does (.forwardCpl q c a b d0 d1 bs data) s fun t => (t.ctx? c).any (fun y => y.stage == .decided &&
    y.adm == d1 && y.cpl.any (fun r => r.sct == a && r.sc == b && r.dw0 == d0 && r.dw1 == d1 && r.bytes == bs && r.blocks == data)) = true ∧
    t.names = s.names ∧ t.pair.rxMsg = q := by
  let r : Cpl := { Cpl.err a b with dw0 := d0, dw1 := d1, bytes := bs, blocks := data, dnr := a + b != 0 && Config.dnr a b }
  let y : Ctx := { x with adm := d1 }
  let u := ((s.hears q).modPair fun p => { p with unanswered := p.unanswered.filter fun m => !(m.type == 0x07 && m.ctx == some c) }).modCtx c
    fun y => { y with adm := d1 }
  have held : u.ctx? c = some y := (State.modCtx_ctx c (fun y => { y with adm := d1 }) (fun _ id => id) _).trans
    (congrArg (Option.map fun y : Ctx => { y with adm := d1 }) here)
  have awake : (u.fn f).d3hot = false := d0_
  have stamped : y.stamp r = { r with dw1 := d1 } := if_neg (by rw [show isIoOp opZoneAppend y = false from plain]; simp)
  have run : exec (.forwardCpl q c a b d0 d1 bs data) s = .next (u.complete c r) := by
    refine congrArg Host.Outcome.next ((State.wingsMsg_new mode up fresh new _ _).trans ?_)
    rw [show (s.hears q).ctx? c = some x from here]
    dsimp only
    refine (if_neg fun h => h forwarded).trans ?_
    rw [show ((s.hears q).modPair fun p => { p with unanswered := p.unanswered.filter fun m => !(m.type == 0x07 && m.ctx == some c) }).flushesPeer x
      = false from local_]
    rfl
  refine ⟨_, run, ?_, State.complete_names c r u, congrArg Pair.rxMsg (State.complete_host_pair held host r)⟩
  rw [(State.complete_host r held host (by simp [awake])).1, stamped]
  simp [r, y, Cpl.err]

end

/-! ## MEDIA_DATA (R626) -/

/-- A read of one block that waits for it, once the block has come. -/
def Ctx.gotBlock (y : Ctx) (v : Blk) : Ctx := { y with got := [(y.lba, v)] }

theorem State.readSplit_whole (s : State) (n : Ns) {y : Ctx} (one : y.nlb = 1) (v : Blk) : s.readSplit n (y.gotBlock v) = ([], [], none) := by
  unfold State.readSplit
  have range : (List.range (y.gotBlock v).nlb).map ((y.gotBlock v).lba + ·) = [y.lba] := by
    show (List.range y.nlb).map (y.lba + ·) = _
    rw [one]
    rfl
  rw [range, List.foldl_cons, List.foldl_nil]
  exact if_pos (by simp [Ctx.gotBlock])

theorem Ctx.readData_whole {y : Ctx} (one : y.nlb = 1) (v : Blk) : (y.gotBlock v).readData = [v] := by
  unfold Ctx.readData
  show (List.range y.nlb).map _ = _
  rw [one]
  simp [Ctx.gotBlock]

/-- A read that has every block completes with them. -/
theorem State.tryRead_whole {s : State} {c : Nat} {x : Ctx} {n : Ns} (here : s.ctx? c = some x) (free : s.blocked x = false)
    (space : s.ns? x.ns = some n) (whole : s.readSplit n x = ([], [], none)) : ∃ u : State,
    s.tryRead c = u.complete c { Cpl.ok with blocks := x.readData } ∧ u.ctx? c = some x ∧ u.names = s.names ∧ u.pair = s.pair ∧
    (∀ f, u.fn f = s.fn f) := by
  let u := s.modCtx c fun y => { y with got := y.got ++ [] }
  have held : u.ctx? c = some x := by
    rw [State.modCtx_ctx c (fun y => { y with got := y.got ++ [] }) (fun _ id => id), here]
    simp
  refine ⟨u, ?_, held, rfl, rfl, fun f => by cases f <;> rfl⟩
  unfold State.tryRead
  rw [here]
  dsimp only
  rw [free, space]
  simp only [Bool.false_eq_true, if_false, whole, if_true]
  rw [show (s.modCtx c fun y => { y with got := y.got ++ [] }).ctx? c = some x from held]

/-- A block that comes lets no other command stand before the read. -/
theorem State.blocked_gotBlock {s : State} {c : Nat} {y : Ctx} (id : y.id = c) (v : Blk) (f : Ctx → Ctx) (same : ∀ z : Ctx, (f z).id = z.id)
    (free : s.blocked y = false) : (s.modCtx c f).blocked (y.gotBlock v) = false := by
  unfold State.blocked at free ⊢
  rw [List.any_eq_false] at free ⊢
  intro z inside
  obtain ⟨w, member, rfl⟩ := List.mem_map.mp inside
  by_cases own : w.id = c
  · rw [if_pos (by simpa using own), same]
    simp [Ctx.gotBlock, own, id]
  · rw [if_neg (by simpa using own)]
    exact free w member

/-- The one block that a read waits for ends it. -/
theorem State.giveBlock_last {s : State} {c : Nat} {y : Ctx} {n : Ns} (v : Blk) (here : s.ctx? c = some y) (reading : y.reading = true)
    (one : y.nlb = 1) (nothing : y.got = []) (free : s.blocked y = false) (space : s.ns? y.ns = some n) : ∃ u : State,
    s.giveBlock c y.lba v = u.complete c { Cpl.ok with blocks := [v] } ∧ u.ctx? c = some (y.gotBlock v) ∧ u.names = s.names ∧
    u.pair = s.pair ∧ (∀ f, u.fn f = s.fn f) := by
  let got (y' : Ctx) : Ctx := { y' with got := y'.got ++ [(y.lba, v)] }
  let t := s.modCtx c got
  have held : t.ctx? c = some (y.gotBlock v) := by
    rw [State.modCtx_ctx c got (fun _ id => id), here]
    show some { y with got := y.got ++ [(y.lba, v)] } = _
    rw [nothing]
    rfl
  have given : s.giveBlock c y.lba v = t.tryRead c := by
    unfold State.giveBlock
    rw [here]
    exact if_pos ⟨reading, Nat.le_refl _, by omega, by rw [nothing]; rfl⟩
  obtain ⟨u, tried, ctx, names, pair, fn⟩ := State.tryRead_whole held
    (State.blocked_gotBlock (State.ctx_id here) v got (fun _ => rfl) free) space (t.readSplit_whole n one v)
  rw [Ctx.readData_whole one] at tried
  exact ⟨u, given.trans tried, ctx, names, pair, fun f => (fn f).trans (by cases f <;> rfl)⟩

/-- A block of a media request goes to the command that waits for it. -/
def State.takeMedia (m : SentMsg) (sector : Nat) (k : Blk × Nat) (s : State) : State :=
  match m.ctx.bind s.ctx?, m.sectorAt (sector + k.2) with
  | some x, some l => match s.ns? x.ns, x.wait with
    | some n, .sectors need => match need.find? fun b => s.foundAt (s.findMapped n b) == some l with
      | some b => s.giveBlock x.id b k.1
      | none => s
    | _, _ => s
  | _, _ => s

theorem State.takeMedia_wanted {s : State} {m : SentMsg} {sector c lba : Nat} {v : Blk} {y : Ctx} {l : Location} {n : Ns}
    (asks : m.ctx = some c) (here : s.ctx? c = some y) (at_ : m.sectorAt sector = some l) (space : s.ns? y.ns = some n)
    (wait : y.wait = .sectors [lba]) (place : s.foundAt (s.findMapped n lba) = some l) :
    s.takeMedia m sector (v, 0) = s.giveBlock c lba v := by
  unfold State.takeMedia
  rw [asks, Option.bind_some, here, Nat.add_zero, at_]
  dsimp only
  rw [space, wait]
  dsimp only
  rw [List.find?_cons_of_pos (by rw [place]; exact beq_self_eq_true _)]
  dsimp only
  rw [State.ctx_id here]

theorem mediaData_ends {s : State} {q r : W32} {c lba sec : Nat} {y : Ctx} {n : Ns} {m : SentMsg} {l : Location} {v : Blk} {f : Fn}
    (mode : s.pair.mode = true) (up : s.pair.wings = 2) (fresh : s.isStale .wings = false) (new : earlier s.pair.rxMsg q = true)
    (here : s.ctx? c = some y) (waits : y.stage = .waiting) (read : isIoOp 0x02 y = true) (first : y.lba = lba) (one : y.nlb = 1)
    (nothing : y.got = []) (wait : y.wait = .sectors [lba]) (space : s.ns? y.ns = some n) (host : y.origin = .host f)
    (d0 : (s.fn f).d3hot = false) (free : s.blocked y = false) (asked : s.mediaAsked r = some m) (asks : m.ctx = some c)
    (at_ : m.sectorAt sec = some l) (place : s.foundAt (s.findMapped n lba) = some l) : Does (.mediaData q r sec [v]) s fun t =>
    (t.ctx? c).any (fun z => z.stage == .decided && z.cpl == some (y.stamp { Cpl.ok with blocks := [v] })) = true ∧ t.names = s.names ∧
    t.pair.rxMsg = q := by
  subst first
  have taken : (s.hears q).takeMedia m sec (v, 0) = (s.hears q).giveBlock c y.lba v :=
    State.takeMedia_wanted asks here at_ space wait (by rw [State.hears_findMapped, State.hears_foundAt]; exact place)
  obtain ⟨u, given, held, names, pair, fn⟩ := State.giveBlock_last (s := s.hears q) v here (by simp [Ctx.reading, read, waits]) one nothing
    free space
  have run : exec (.mediaData q r sec [v]) s = .next (u.complete c { Cpl.ok with blocks := [v] }) := by
    refine congrArg Host.Outcome.next ((State.wingsMsg_new mode up fresh new _ _).trans ?_)
    rw [show (s.hears q).mediaAsked r = some m from asked]
    exact taken.trans given
  have awake : (u.fn f).d3hot = false := by
    rw [fn f]
    cases f <;> exact d0
  refine ⟨_, run, ?_, (State.complete_names c _ u).trans names, ?_⟩
  · rw [(State.complete_host _ held host (by simp [awake])).1]
    simp [Ctx.stamp, Ctx.gotBlock, isIoOp, Ctx.isAdmin]
  · exact congrArg Pair.rxMsg ((State.complete_host_pair held host _).trans pair)

/-- Settles O31: each message that is new, over a link that is up, takes effect on what the pair was heard to be (`State.hears`), and the
command that it ends is the host's own. -/
theorem wingsMessageCommands : Obligations.WingsMessageCommands := by
  unfold Obligations.WingsMessageCommands
  exact ⟨fun _ _ _ _ _ _ mode up fresh new => mirror_written mode up fresh new,
    fun _ _ _ _ _ _ mode up fresh old => mirror_again mode up fresh old,
    fun _ _ _ _ _ _ mode up fresh new here conventional => release_frees mode up fresh new here conventional,
    fun _ _ _ _ _ mode up fresh new mapped => journal_map mode up fresh new mapped,
    fun _ _ _ _ _ _ _ _ _ _ mode up fresh new => journal_member mode up fresh new,
    fun _ _ _ _ _ _ => ack_completes,
    fun _ _ _ _ _ mode up fresh new more => sync_mirrored mode up fresh new more,
    fun _ _ _ _ mode up fresh new rejoining => sync_ends mode up fresh new rejoining,
    fun _ _ _ _ _ _ mode up fresh new io free here still sound => forward_admitted mode up fresh new io free here still sound,
    fun _ _ _ _ _ _ mode up fresh new io free here moving sound => forward_moving mode up fresh new io free here moving sound,
    fun _ _ _ _ _ _ _ _ _ _ _ mode up fresh new here host d0 forwarded plain local_ => forwardCpl_ends mode up fresh new here host d0 forwarded plain local_,
    fun _ _ _ _ mode up fresh new own => mediaReq_queued mode up fresh new own,
    fun _ _ _ _ mode up fresh new other => mediaReq_refused mode up fresh new other,
    fun _ _ _ _ _ _ _ _ _ _ _ _ mode up fresh new here waits read first one nothing _ wait space host d0 free asked asks at_ place =>
      mediaData_ends mode up fresh new here waits read first one nothing wait space host d0 free asked asks at_ place,
    fun _ _ _ _ mode up fresh new asked => mediaDone_good mode up fresh new asked,
    fun _ _ _ _ _ mode up fresh new free paired some => handover_ports mode up fresh new free paired some,
    fun _ _ _ _ mode up fresh new free paired => handover_last mode up fresh new free paired,
    fun _ _ _ _ _ _ mode up fresh new handing sent same only => handover_answered mode up fresh new handing sent same only,
    fun _ _ mode up => retry_resends mode up,
    fun _ _ _ _ _ _ mode up stale => mirror_stale mode up stale,
    fun _ _ _ _ _ mode up fresh new idle => journal_checkpoint mode up fresh new idle,
    fun _ _ _ _ _ _ _ _ _ _ _ _ _ _ mode up fresh new asked payload at_ holds =>
      mediaDone_writeFailed mode up fresh new asked payload at_ holds⟩

end Sys2Proof.Machine
end

section
/-! SUPPORT. The packets of the service port but for COMP_FW (spec/19 R678 to R682, Tables 19-8 to 19-10; spec/02 R58, R75; spec/14
R532). -/

namespace Sys2Proof.Machine

/-! ## Requests (R679) -/

/-- A request takes DRAM out of self-refresh, and reaches nothing else. -/
theorem State.wake_mem (s : State) : ∃ m, s.wake = { s with mem := m } := by
  unfold State.wake State.when
  split
  · exact ⟨_, rfl⟩
  · exact ⟨s.mem, rfl⟩

section

variable {s : State} {op tag : Byte} {need ok : Bool} {k : State → State} (up : s.svcUp = true)
include up

theorem State.request_busy (busy : s.svc.busy.isSome = true) : s.request op tag need ok k = s.svcReply op tag 3 [] := by
  rw [State.request, if_neg (by simp [up]), if_pos busy]

variable (free : s.svc.busy = none)
include free

theorem State.request_lacks (lacks : need = false) : s.request op tag need ok k = s.svcReply op tag 4 [] := by
  rw [State.request, if_neg (by simp [up]), if_neg (by simp [free]), if_pos lacks]

theorem State.request_bad (there : need = true) (bad : ok = false) : s.request op tag need ok k = s.svcReply op tag 2 [] := by
  rw [State.request, if_neg (by simp [up]), if_neg (by simp [free]), if_neg (by simp [there]), if_pos bad]

theorem State.request_served (there : need = true) (good : ok = true) : s.request op tag need ok k = k s.wake := by
  rw [State.request, if_neg (by simp [up]), if_neg (by simp [free]), if_neg (by simp [there]), if_neg (by simp [good])]

end

/-- A request that is refused changes nothing but its reply. -/
theorem refused_reply {i : Instr} {s : State} {op tag : Byte} {status : Nat} (run : exec i s = .next (s.svcReply op tag status [])) :
    Does i s fun t => t.out = .reply op tag (BitVec.ofNat 8 status) [] :: s.out ∧ t.svc = s.svc ∧ t.names = s.names ∧ t.ports = s.ports :=
  ⟨_, run, rfl, rfl, rfl, rfl⟩

/-- An access of the service port that finds a running clock is carried out. -/
theorem State.windowAccess_performs {s : State} {tag : Byte} {h : Hung} {off : Nat} (own : h.who = .service) (one : h.regs = [off])
    (clear : (s.xing.hung.any fun h => h.who == .service) = false) (running : (s.stopped off).isSome = false) :
    s.wake.windowAccess tag h = (s.wake.modSvc fun v => { v with busy := some tag }).perform none h := by
  obtain ⟨m, woken⟩ := s.wake_mem
  unfold State.windowAccess State.access
  have still : ((s.wake.modSvc fun v => { v with busy := some tag }).stopped off).isSome = false := by
    rw [woken]
    exact running
  rw [if_neg, if_neg]
  · simp [one, still]
  · rw [own, woken]
    exact ne_true_of_eq_false clear

section

variable {s : State} {tag : Byte} (up : s.svcUp = true)
include up

/-! ## The status window (Table 19-8; spec/14 R532) -/

theorem windowRead_busy {off n : Nat} (busy : s.svc.busy.isSome = true) : Does (.windowRead tag off n) s fun t =>
    t.out = .reply 0x01 tag 3 [] :: s.out ∧ t.svc = s.svc ∧ t.names = s.names ∧ t.ports = s.ports :=
  refused_reply (congrArg Host.Outcome.next (State.request_busy up busy))

variable (free : s.svc.busy = none)
include free

theorem windowRead_lacks {off n : Nat} (lacks : s.windowUp off n = false) : Does (.windowRead tag off n) s fun t =>
    t.out = .reply 0x01 tag 4 [] :: s.out ∧ t.svc = s.svc ∧ t.names = s.names ∧ t.ports = s.ports :=
  refused_reply (congrArg Host.Outcome.next (State.request_lacks up free lacks))

theorem windowRead_badLength {off n : Nat} (runs : s.fwRuns = true) (bad : n = 0 ∨ 1024 < n ∨ n % 4 ≠ 0) :
    Does (.windowRead tag off n) s fun t => t.out = .reply 0x01 tag 2 [] :: s.out ∧ t.svc = s.svc ∧ t.names = s.names ∧
    t.ports = s.ports := by
  refine refused_reply (congrArg Host.Outcome.next (State.request_bad up free (by simp [State.windowUp, runs]) ?_))
  have : (n % 4 == 0 && inRange 4 1024 n) = false := by
    simp only [inRange, Bool.and_eq_false_iff, beq_eq_false_iff_ne, decide_eq_false_iff_not]
    omega
  rw [this, Bool.false_and]

theorem windowRead_answers {off n : Nat} (runs : s.fwRuns = true) (aligned : off % 4 = 0)
    (clear : (s.xing.hung.any fun h => h.who == .service) = false) (running : ((covered off n).any fun o => (s.stopped o).isSome) = false)
    (none_ : s.xing.captured = []) (one : n = 4) : Does (.windowRead tag off n) s fun t =>
    t.out = .reply 0x01 tag 0 (leBytes 4 (s.wake.regWord (regAt off)).toNat) :: s.out ∧ t.svc.busy = none ∧ t.names = s.names := by
  subst one
  have only : covered off 4 = [off] := rfl
  rw [only, List.any_cons, List.any_nil, Bool.or_false] at running
  let h : Hung := { who := .service, off := off, write := none, packet := some (tag, 4) }
  let u := s.wake.modSvc fun v => { v with busy := some tag }
  let v := (u.captureHi .service off).clearRc (regAt off)
  obtain ⟨m, woken⟩ := s.wake_mem
  have moves : u.Moves [.book, .ports, .chorus, .mem, .mcache, .xing, .pair] v :=
    Moves.op (State.clearRc_moves (regAt off) _) (by decide) (Moves.op (State.captureHi_moves .service off u) (by decide) (Moves.refl _ u))
  have word : u.regWord (regAt off) = s.wake.regWord (regAt off) := by
    cases regAt off <;> rfl
  have read : u.readRun .service none [off] = (v, leBytes 4 (s.wake.regWord (regAt off)).toNat) := by
    rw [State.readRun_one, State.readReg_current aligned (by unfold u; rw [woken]; simp [none_]), word]
  have performed : u.perform none h = (v.modSvc fun w => { w with busy := none, endedAt := u.now }).emitOut
      (.reply 0x01 tag 0x00 (leBytes 4 (s.wake.regWord (regAt off)).toNat)) := by
    unfold State.perform
    dsimp only [h, Hung.regs]
    rw [only, read]
  have base : u.out = s.out ∧ u.names = s.names := by
    unfold u
    rw [woken]
    exact ⟨rfl, rfl⟩
  have out : v.out = s.out := (moves.only .out (by decide)).trans base.1
  have names : v.names = s.names := (moves.only .names (by decide)).trans base.2
  have run : exec (.windowRead tag off 4) s = .next (u.perform none h) :=
    congrArg Host.Outcome.next ((State.request_served up free (by simp [State.windowUp, runs]) (by simp [aligned, inRange])).trans
      (State.windowAccess_performs rfl only clear running))
  rw [performed] at run
  clear_value v u
  exact ⟨_, run, congrArg _ out, rfl, names⟩

theorem windowWrite_writes {off : Nat} {v : W32} (runs : s.fwRuns = true) (aligned : off % 4 = 0)
    (clear : (s.xing.hung.any fun h => h.who == .service) = false) (running : (s.stopped off).isSome = false) :
    Does (.windowWrite tag off v) s fun t => t.out = .reply 0x02 tag 0 [] :: s.out ∧ t.svc.busy = none ∧
    (regAt off = .therm 4 → t.therm.events = w1c s.therm.events v) ∧ (∀ p, (t.port p).smpCorr = (s.port p).smpCorr) ∧
    t.names = s.names := by
  let h : Hung := { who := .service, off := off, write := some v, packet := some (tag, 4) }
  let u := s.wake.modSvc fun v => { v with busy := some tag }
  let w := u.writeReg (regAt off) v
  obtain ⟨m, woken⟩ := s.wake_mem
  have moves := State.writeReg_moves (regAt off) v u
  have base : u.out = s.out ∧ u.names = s.names := by
    unfold u
    rw [woken]
    exact ⟨rfl, rfl⟩
  have out : w.out = s.out := (moves.only .out (by decide)).trans base.1
  have names : w.names = s.names := (moves.only .names (by decide)).trans base.2
  have events (therm : regAt off = .therm 4) : w.therm.events = w1c s.therm.events v := by
    unfold w u
    rw [therm, woken]
    rfl
  have ports (p : PortId) : (w.port p).smpCorr = (s.port p).smpCorr := by
    unfold w
    rw [State.writeReg_port]
    unfold u
    rw [woken]
    rfl
  have performed : u.perform none h = (w.modSvc fun x => { x with busy := none, endedAt := u.now }).emitOut (.reply 0x02 tag 0x00 []) := rfl
  have run : exec (.windowWrite tag off v) s = .next (u.perform none h) :=
    congrArg Host.Outcome.next ((State.request_served up free (by simp [State.windowUp, runs]) (by simp [aligned])).trans
      (State.windowAccess_performs rfl rfl clear running))
  rw [performed] at run
  clear_value w u
  exact ⟨_, run, congrArg _ out, rfl, events, ports, names⟩

end

end Sys2Proof.Machine
end

section
/-! SUPPORT. The packets of the service port on parameters, resets, buffers, recovery images and admin commands (spec/19 R679 to R682; spec/02
R58, R75). -/

namespace Sys2Proof.Machine

/-! ## Configuration parameters (R681, Table 19-10) -/

/-- A value in its range is read back. -/
theorem ConfigStore.get_put {s : State} {i v : Nat} (ok : s.configOk i v = true) (c : ConfigStore) : (c.put i v).get i = some v := by
  unfold State.configOk at ok
  split at ok
  case h_5 => obtain rfl | rfl : v = 0 ∨ v = 1 := by simpa [Nat.le_one_iff_eq_zero_or_eq_one] using ok
              all_goals rfl
  case h_7 =>
    have low : v % 65536 = v := Nat.mod_eq_of_lt (by simpa [Nat.lt_succ_iff] using ok)
    simp [ConfigStore.put, ConfigStore.get, low]
  case h_8 => cases ok
  all_goals rfl

/-- No other parameter changes. -/
theorem ConfigStore.get_put_other {i j : Nat} (other : j ≠ i) (v : Nat) (c : ConfigStore) : (c.put i v).get j = c.get j := by
  unfold ConfigStore.put
  split <;> (unfold ConfigStore.get; split <;> simp_all)

/-- But for dirty_limit and holdup_ms a parameter in force reaches the pair alone. -/
theorem State.configNow_moves_pair {i : Nat} (limit : i ≠ 2) (holdup : i ≠ 3) (v : Nat) (s : State) : s.Moves [.pair] (s.configNow i v) := by
  unfold State.configNow
  split
  · exact absurd rfl limit
  · exact absurd rfl holdup
  · exact State.modPair_moves _ s
  · exact Moves.refl _ s

/-! ## Requests of other packets -/

theorem dataFits_of {off : Nat} {data : List Byte} (some_ : 1 ≤ data.length) (most : data.length ≤ 4092)
    (inside : off + data.length ≤ downloadSize) : dataFits off data downloadSize = true := by
  simp [dataFits, inRange, some_, most, inside]

section

variable {s : State} {tag : Byte} (up : s.svcUp = true) (free : s.svc.busy = none)
include up free

theorem configRead_answers {id : Byte} {v : Nat} (known : s.nor.config.get id.toNat = some v) : Does (.configRead tag id) s fun t =>
    t.out = .reply 0x03 tag 0 (leBytes 8 v) :: s.out ∧ t.nor = s.nor ∧ t.names = s.names ∧ t.ports = s.ports := by
  obtain ⟨m, woken⟩ := s.wake_mem
  refine ⟨s.wake.svcReply 0x03 tag 0x00 (leBytes 8 v), ?_, ?_⟩
  · refine congrArg Host.Outcome.next ?_
    rw [known]
    exact State.request_served up free rfl rfl
  · rw [woken]
    exact ⟨rfl, rfl, rfl, rfl⟩

theorem configRead_unknown {id : Byte} (unknown : s.nor.config.get id.toNat = none) : Does (.configRead tag id) s fun t =>
    t.out = .reply 0x03 tag 2 [] :: s.out ∧ t.nor = s.nor ∧ t.names = s.names ∧ t.ports = s.ports := by
  refine ⟨s.svcReply 0x03 tag 2 [], congrArg Host.Outcome.next ?_, rfl, rfl, rfl, rfl⟩
  rw [unknown]
  exact State.request_bad up free rfl rfl

theorem configWrite_stores {id : Byte} {v : W64} (ok : s.configOk id.toNat v.toNat = true) (limit : id.toNat ≠ 2) (holdup : id.toNat ≠ 3) :
    Does (.configWrite tag id v) s fun t => t.out = .reply 0x04 tag 0 [] :: s.out ∧ t.nor.config.get id.toNat = some v.toNat ∧
    (∀ i, i ≠ id.toNat → t.nor.config.get i = s.nor.config.get i) ∧ t.names = s.names ∧ t.ports = s.ports := by
  obtain ⟨m, woken⟩ := s.wake_mem
  let u := s.wake.modCfg (ConfigStore.put id.toNat v.toNat)
  let w := u.emit 0x0F 0x8003 noSource
    (pay [(1, id.toNat), (7, 0), (8, (s.wake.nor.config.get id.toNat).getD 0), (8, v.toNat)])
  let x := w.when w.fwRuns (State.configNow id.toNat v.toNat)
  have moves : u.Moves [.aon, .book, .pair] x :=
    Moves.when (fun y h => Moves.op (State.configNow_moves_pair limit holdup _ y) (by decide) h)
      (Moves.op (State.emit_moves ..) (by decide) (Moves.refl _ u))
  have base : u.out = s.out ∧ u.nor.config = s.nor.config.put id.toNat v.toNat ∧ u.names = s.names ∧ u.ports = s.ports := by
    unfold u
    rw [woken]
    exact ⟨rfl, rfl, rfl, rfl⟩
  obtain ⟨out, stored, names, ports⟩ := base
  have config : x.nor.config = s.nor.config.put id.toNat v.toNat := (congrArg Nor.config (moves.only .nor (by decide))).trans stored
  have run : exec (.configWrite tag id v) s = .next (x.svcReply 0x04 tag 0x00 []) :=
    congrArg Host.Outcome.next (State.request_served up free rfl ok)
  refine ⟨_, run, congrArg _ ((moves.only .out (by decide)).trans out), ?_, fun i other => ?_, (moves.only .names (by decide)).trans names,
    (moves.only .ports (by decide)).trans ports⟩
  · exact (congrArg (fun c => ConfigStore.get c id.toNat) config).trans (ConfigStore.get_put ok _)
  · exact (congrArg (fun c => ConfigStore.get c i) config).trans (ConfigStore.get_put_other other _ _)

theorem configWrite_refused {id : Byte} {v : W64} (bad : s.configOk id.toNat v.toNat = false) : Does (.configWrite tag id v) s fun t =>
    t.out = .reply 0x04 tag 2 [] :: s.out ∧ t.nor = s.nor ∧ t.names = s.names ∧ t.ports = s.ports :=
  ⟨s.svcReply 0x04 tag 2 [], congrArg Host.Outcome.next (State.request_bad up free rfl bad), rfl, rfl, rfl, rfl⟩

/-! ## Buffers (R669) -/

theorem bufferWrite_writes {off : Nat} {data : List Byte} (runs : s.fwRuns = true) (some_ : 1 ≤ data.length) (most : data.length ≤ 4092)
    (inside : off + data.length ≤ downloadSize) : Does (.bufferWrite tag off data) s fun t => t.out = .reply 0x06 tag 0 [] :: s.out ∧
    t.svc.buffer = bufWrite s.svc.buffer off data ∧ t.svc.recovery = s.svc.recovery ∧ t.names = s.names ∧ t.ports = s.ports := by
  obtain ⟨m, woken⟩ := s.wake_mem
  refine ⟨(s.wake.modSvc fun v => { v with buffer := bufWrite v.buffer off data }).svcReply 0x06 tag 0x00 [],
    congrArg Host.Outcome.next (State.request_served up free runs (dataFits_of some_ most inside)), ?_⟩
  rw [woken]
  exact ⟨rfl, rfl, rfl, rfl, rfl⟩

theorem bufferWrite_refused {off : Nat} {data : List Byte} (runs : s.fwRuns = true)
    (bad : data = [] ∨ 4092 < data.length ∨ downloadSize < off + data.length) : Does (.bufferWrite tag off data) s fun t =>
    t.out = .reply 0x06 tag 2 [] :: s.out ∧ t.svc = s.svc ∧ t.names = s.names ∧ t.ports = s.ports := by
  refine refused_reply (congrArg Host.Outcome.next (State.request_bad up free runs ?_))
  obtain rfl | long | beyond := bad
  · rfl
  · simp [dataFits, inRange, Nat.not_le.mpr long]
  · simp [dataFits, Nat.not_le.mpr beyond]

theorem recoveryWrite_writes {off : Nat} {data : List Byte} (waits : s.romWaits = true) (some_ : 1 ≤ data.length)
    (most : data.length ≤ 4092) (inside : off + data.length ≤ downloadSize) : Does (.recoveryWrite tag off data) s fun t =>
    t.out = .reply 0x07 tag 0 [] :: s.out ∧ t.svc.recovery = bufWrite s.svc.recovery off data ∧ t.svc.buffer = s.svc.buffer ∧
    t.names = s.names ∧ t.ports = s.ports := by
  obtain ⟨m, woken⟩ := s.wake_mem
  refine ⟨(s.wake.modSvc fun v => { v with recovery := bufWrite v.recovery off data }).svcReply 0x07 tag 0x00 [],
    congrArg Host.Outcome.next (State.request_served up free waits (dataFits_of some_ most inside)), ?_⟩
  rw [woken]
  exact ⟨rfl, rfl, rfl, rfl, rfl⟩

/-! ## ADMIN (R680) -/

theorem admin_admits {e : SqEntry} (runs : s.fwRuns = true) (allowed : adminAllowed e = true) : Does (.admin tag e) s fun t =>
    t.svc.busy = some tag ∧
    t.ctxs = s.ctxs ++ [Ctx.fresh s.nextCtx s.now (.service tag) 0 { e with data := s.adminData e } .none] ∧
    t.nextCtx = s.nextCtx + 1 ∧ t.out = s.out ∧ t.names = s.names ∧ t.ports = s.ports := by
  obtain ⟨m, woken⟩ := s.wake_mem
  refine ⟨(s.wake.modSvc fun v => { v with busy := some tag }).addCtx (.service tag) 0 { e with data := s.wake.adminData e } .none,
    congrArg Host.Outcome.next (State.request_served up free runs allowed), ?_⟩
  rw [woken]
  exact ⟨rfl, rfl, rfl, rfl, rfl, rfl⟩

theorem admin_refused {e : SqEntry} (runs : s.fwRuns = true) (other : adminAllowed e = false) : Does (.admin tag e) s fun t =>
    t.out = .reply 0x10 tag 2 [] :: s.out ∧ t.ctxs = s.ctxs ∧ t.svc = s.svc ∧ t.names = s.names ∧ t.ports = s.ports :=
  ⟨s.svcReply 0x10 tag 2 [], congrArg Host.Outcome.next (State.request_bad up free runs other), rfl, rfl, rfl, rfl, rfl⟩

/-! ## RECOVERY_RUN (spec/02 R75) -/

end

/-- The keys are read the same, wherever DRAM is. -/
theorem State.readKeys_mem (m : Mem) (s : State) : State.readKeys { s with mem := m } = { s.readKeys with mem := m } := by
  have kept (t : State) : ((t.norRead .config (manifestOffset false) manifestSize).norRead .config (manifestOffset true)
      manifestSize).nor.manifest = t.nor.manifest := rfl
  cases read : s.nor.manifest with
  | none =>
    simp only [State.readKeys, kept, read]
    rfl
  | some found =>
    simp only [State.readKeys, kept, read]
    rfl

theorem State.runImage_ready (img : List Byte) (s : State) :
    (s.runImage img).boot.imageOk = true ∧ (s.runImage img).boot.recoveryWait = false := ⟨rfl, rfl⟩

theorem State.tryDramFill_aon (s : State) : ∃ f c, s.tryDramFill = s.modAon fun a => { a with fill := f, fillComplete := c } := by
  unfold State.tryDramFill
  split
  · exact ⟨_, _, rfl⟩
  · exact ⟨s.aon.fill, s.aon.fillComplete, rfl⟩

section

variable {s : State} {tag : Byte}

theorem recoveryRun_judges {n : Nat} (up : s.svcUp = true) (free : s.svc.busy = none) (waits : s.romWaits = true) (most : n ≤ downloadSize) :
    Does (.recoveryRun tag n) s fun t => (imageCheck s.readKeys.ident.manifest (bufRead s.svc.recovery 0 n) = 0 →
    (.reply 0x08 tag 0 [0]) ∈ t.out ∧ t.aon.recovery = true ∧ t.aon.error = 0 ∧ t.boot.imageOk = true ∧ t.boot.recoveryWait = false) ∧
    (imageCheck s.readKeys.ident.manifest (bufRead s.svc.recovery 0 n) ≠ 0 →
    t.out = .reply 0x08 tag 0 (leBytes 1 (imageCheck s.readKeys.ident.manifest (bufRead s.svc.recovery 0 n))) :: s.out ∧
    t.aon = s.aon ∧ t.boot = s.readKeys.boot) := by
  obtain ⟨m, woken⟩ := s.wake_mem
  let u := s.wake.readKeys
  have keys := s.readKeys_moves
  have base : u.ident = s.readKeys.ident ∧ u.boot = s.readKeys.boot ∧ u.svc = s.svc ∧ u.aon = s.aon ∧ u.out = s.out := by
    unfold u
    rw [woken, State.readKeys_mem]
    exact ⟨rfl, rfl, keys.only .svc (by decide), keys.only .aon (by decide), keys.only .out (by decide)⟩
  obtain ⟨ident, boot, svc, aon, out⟩ := base
  let img := bufRead u.svc.recovery 0 n
  have same : bufRead s.svc.recovery 0 n = img := by
    unfold img
    rw [svc]
  let r := imageCheck u.ident.manifest img
  let x := ((u.modAon fun a => { a with recovery := true, attempts := 0, slot := false, error := 0 }).setCause causeFallback).measureSelection
    false true
  let y := ((x.runImage img).setStep 7).svcReply 0x08 tag 0x00 (leBytes 1 0)
  have run : exec (.recoveryRun tag n) s = .next (if r ≠ 0 then u.svcReply 0x08 tag 0x00 (leBytes 1 r) else y.tryDramFill) :=
    congrArg Host.Outcome.next (State.request_served up free waits (by simp [most]))
  rw [same, ← ident, ← boot]
  refine ⟨_, run, fun good => ?_, fun bad => ?_⟩
  · have imaged := x.runImage_moves img
    have selected := ((u.modAon fun a => { a with recovery := true, attempts := 0, slot := false, error := 0 }).setCause
      causeFallback).measureSelection_moves false true
    have kept : (x.runImage img).aon = _ := (imaged.only .aon (by decide)).trans (selected.only .aon (by decide))
    have recovery : y.aon.recovery = true := (congrArg Aon.recovery kept :)
    have error : y.aon.error = 0 := (congrArg Aon.error kept :)
    have loaded : y.boot.imageOk = true ∧ y.boot.recoveryWait = false := x.runImage_ready img
    have told : .reply 0x08 tag 0 [0] ∈ y.out := List.mem_cons_self ..
    obtain ⟨f, c, filled⟩ := y.tryDramFill_aon
    rw [if_neg (not_not.mpr good), filled]
    clear_value y
    exact ⟨told, recovery, error, loaded⟩
  · rw [if_pos bad]
    exact ⟨congrArg _ out, aon, rfl⟩

end

end Sys2Proof.Machine
end

section
/-! SUPPORT. The update of a companion's firmware: its reply, its packets, and the port taken out for it (spec/19 R668 to R671; spec/03
R729). -/

namespace Sys2Proof.Machine

/-! ## The reply (R668, Tables 19-8, 19-11) -/

/-- An update that ends has its result told; nothing of it is left, and the ports are as they were. -/
theorem State.compReply_ends {s : State} {c : CompFw} (n : Nat) (update : s.svc.comp = some c) : (s.compReply n).svc.comp = none ∧
    (s.compReply n).svc.busy = none ∧ (s.compReply n).ports = s.ports ∧ (s.compReply n).now = s.now ∧
    ∃ l, .reply 0x20 c.tag 0 (BitVec.ofNat 8 n :: l) ∈ (s.compReply n).out := by
  let new := field (s.port c.port).companion.measure 0 4
  let u := s.emit 0x0F 0x8002 c.port.val (pay [(1, n), (3, 0), (4, c.old.toNat), (4, new)])
  let v := (u.modSvc fun v => { v with comp := none, busy := none, endedAt := u.now }).emitOut
    (.reply 0x20 c.tag 0x00 (packBytes [(1, n), (3, 0), (4, new)]))
  have emitted : s.Moves [.aon, .book] u := State.emit_moves ..
  have sent := v.handSend_moves
  have told : .reply 0x20 c.tag 0x00 (packBytes [(1, n), (3, 0), (4, new)]) ∈ v.out := List.mem_cons_self ..
  have svc := sent.only .svc (by decide)
  have ends : s.compReply n = v.handSend := by
    unfold State.compReply
    rw [update]
  rw [ends]
  refine ⟨congrArg Service.comp svc, congrArg Service.busy svc, (sent.only .ports (by decide)).trans (emitted.only .ports (by decide)),
    (sent.only .now (by decide)).trans (emitted.only .now (by decide)), _, sent.outs.subset told⟩

/-- What an update that ends before its companion runs new firmware leaves, where the port stays out (R669). -/
theorem State.compEnd_ends {s : State} {c : CompFw} (n : Nat) (update : s.svc.comp = some c) (stays : c.ret = false) :
    (s.compEnd c n).svc.comp = none ∧ (s.compEnd c n).svc.busy = none ∧ s.now ≤ (s.compEnd c n).now ∧
    ∃ l, .reply 0x20 c.tag 0 (BitVec.ofNat 8 n :: l) ∈ (s.compEnd c n).out := by
  let u := s.modPort c.port fun x => { x with requests := x.requests.filter fun r => r.packet.opcode != 0x40 && r.packet.opcode != 0x41 }
  obtain ⟨comp, busy, -, now, l, told⟩ := State.compReply_ends (s := u) n update
  have ends : s.compEnd c n = (u.compReply n).settle := by
    unfold State.compEnd State.when
    rw [stays]
    rfl
  have settled := (u.compReply n).settle_moves
  have svc := settled.only .svc (by decide)
  rw [ends]
  exact ⟨(congrArg Service.comp svc).trans comp, (congrArg Service.busy svc).trans busy, now.symm.le.trans settled.time, l,
    settled.outs.subset told⟩

/-! ## Its packets (R668 steps 3 and 4) -/

theorem State.compOf_some {s : State} {c : CompFw} {n : Fin 4} (update : s.svc.comp = some c) (phase : c.phase = n) :
    s.compOf c.port n = some c := by
  unfold State.compOf
  rw [update, Option.filter_some, if_pos (by simp [phase])]

/-- A request that the lane takes is outstanding. -/
theorem State.sendRequest_requests {s : State} {p : PortId} (up : (s.port p).cmdUp = true) (room : (s.port p).requests = []) (op : Nat)
    (l : List Byte) : ∃ r : Request, ((s.sendRequest p op l).port p).requests = [r] ∧ r.packet.opcode = BitVec.ofNat 8 op ∧
    r.packet.payload = l := by
  unfold State.sendRequest
  rw [State.modPort_port, if_pos rfl, if_pos ⟨up, by simp [room]⟩]
  exact ⟨_, by rw [room]; rfl, rfl, rfl⟩

theorem State.fwWrite_done {s : State} {c : CompFw} (update : s.svc.comp = some c) (all : c.length ≤ c.offset) (n : Nat) :
    s.fwWrite n = s := by
  cases n with
  | zero => rfl
  | succ n =>
    rw [State.fwWrite, update]
    exact if_neg fun h => absurd h.1 (by omega)

/-- The one packet that is left goes. -/
theorem State.fwWrite_last {s : State} {c : CompFw} (update : s.svc.comp = some c) (more : c.offset < c.length)
    (last : c.length ≤ c.offset + 220) (room : (s.port c.port).requests = []) (n : Nat) : s.fwWrite (n + 1) =
    (s.sendRequest c.port 0x40 (s.fwChunk c.offset c.length)).modSvc fun v => { v with comp := some { c with offset := c.length } } := by
  have offset : min c.length (c.offset + 220) = c.length := Nat.min_eq_left last
  rw [State.fwWrite, update]
  dsimp only
  rw [if_pos ⟨more, by simp [room]⟩, offset]
  exact State.fwWrite_done rfl (Nat.le_refl _) n

/-- However many packets go, the update is the same but for its offset, and of the ports only what is queued changes. -/
theorem State.fwWrite_leaves {s : State} {c : CompFw} (update : s.svc.comp = some c) (n : Nat) (q : PortId) : (∃ off,
    (s.fwWrite n).svc = { s.svc with comp := some { c with offset := off } }) ∧ ((s.fwWrite n).port q).unqueued = (s.port q).unqueued := by
  induction n generalizing s c with
  | zero => exact ⟨⟨c.offset, by rw [State.fwWrite, ← update]⟩, rfl⟩
  | succ n ih =>
    rw [State.fwWrite, update]
    dsimp only
    split
    · obtain ⟨⟨off, svc⟩, port⟩ := ih (s := (s.sendRequest c.port 0x40 (s.fwChunk c.offset c.length)).modSvc fun v =>
        { v with comp := some { c with offset := min c.length (c.offset + 220) } }) rfl
      exact ⟨⟨off, svc⟩, port.trans (s.sendRequest_unqueued ..)⟩
    · exact ⟨⟨c.offset, by rw [← update]⟩, rfl⟩

end Sys2Proof.Machine
end

section
/-! SUPPORT. COMP_FW and the answers to its packets, where no command is in the device (spec/19 R668 to R671; spec/03 R729); every packet of
the service port (O38). -/

namespace Sys2Proof.Machine

/-! ## Ports that leave service, with no command in the device -/

/-- No command is in the device, and the service port stands so. -/
structure State.IdleWith (v : Service) (s : State) : Prop where
  ctxs : s.ctxs = []
  svc : s.svc = v

section

variable {v : Service} {s t : State}

theorem State.Moves.idleWith {l : List Part} (m : s.Moves l t) (ctxs : Part.ctxs ∉ l) (svc : Part.svc ∉ l) (h : s.IdleWith v) :
    t.IdleWith v :=
  ⟨(m.only .ctxs ctxs).trans h.ctxs, (m.only .svc svc).trans h.svc⟩

theorem State.modPort_idle (h : s.IdleWith v) (p : PortId) (f : Port → Port) : (s.modPort p f).IdleWith v := ⟨h.ctxs, h.svc⟩

theorem State.modSpin_idle (h : s.IdleWith v) (p : PortId) (f : Spin → Spin) : (s.modSpin p f).IdleWith v := ⟨h.ctxs, h.svc⟩

theorem State.modAct_idle (h : s.IdleWith v) (a : ActId) (f : Act → Act) : (s.modAct a f).IdleWith v := ⟨h.ctxs, h.svc⟩

theorem State.modAcal_idle (h : s.IdleWith v) (a : ActId) (f : ActCal → ActCal) : (s.modAcal a f).IdleWith v := ⟨h.ctxs, h.svc⟩

theorem State.abandonBreak_idle (h : s.IdleWith v) (a : ActId) : (s.abandonBreak a).IdleWith v := by
  unfold State.abandonBreak
  split
  · exact h
  next b _ =>
    extract_lets ms u w
    have broken : w.IdleWith v := (State.raiseCal_moves a 1 [] u).idleWith (by decide) (by decide) ⟨h.ctxs, h.svc⟩
    split
    · rw [State.complete_noCtx broken.ctxs]
      exact broken
    · exact (State.fullPoint_moves a w).idleWith (by decide) (by decide) broken
    · exact broken

theorem State.quiesce_idle (h : s.IdleWith v) (b : Bool) (a : ActId) : (s.quiesce b a).IdleWith v := by
  have m : s.Moves [.ports, .seqs, .chorus] (((s.cancelGates a true true).seqToIdle a b).endSession a) :=
    Moves.op (State.endSession_moves _ _) (by decide) (Moves.op (State.seqToIdle_moves _ _ _) (by decide)
      (State.cancelGates_moves _ _ _ _))
  exact State.abandonBreak_idle (m.idleWith (by decide) (by decide) h) a

theorem State.leaveService_idle (h : s.IdleWith v) (p : PortId) (b : Bool) : (s.leaveService p b).IdleWith v := by
  have ended : (s.each (fins 2) fun sd s => s.quiesce b (actOf p sd)).IdleWith v :=
    State.each_inv (P := State.IdleWith v) (fun sd _ h => State.quiesce_idle h b (actOf p sd)) _ h
  let u := (s.each (fins 2) fun sd s => s.quiesce b (actOf p sd)).modPort p fun x => { x with inService := false }
  have out : u.IdleWith v := State.modPort_idle ended p _
  exact (State.noteService_moves p u).idleWith (by decide) (by decide) out

theorem State.completeWait_idle (h : s.IdleWith v) (w : Wait) : (s.completeWait w).IdleWith v := by
  unfold State.completeWait
  rw [h.ctxs]
  exact h

theorem State.settleUnloads_idle (h : s.IdleWith v) (p : PortId) : (s.settleUnloads p).IdleWith v := by
  unfold State.settleUnloads
  split
  · exact h
  · dsimp only [State.when]
    split
    · exact State.completeWait_idle (State.completeWait_idle h _) _
    · exact State.completeWait_idle h _

theorem State.dropPort_idle (h : s.IdleWith v) (p : PortId) : (s.dropPort p).IdleWith v := by
  unfold State.dropPort
  extract_lets t u w x y
  have left : t.IdleWith v := State.leaveService_idle h p false
  have lost : u.IdleWith v := State.modPort_idle left p _
  have units : w.IdleWith v := State.each_inv (P := State.IdleWith v) (fun _ _ h => State.modAct_idle h _ _) (fins 2) lost
  have cals : x.IdleWith v := State.each_inv (P := State.IdleWith v) (fun _ _ h => State.modAcal_idle h _ _) (fins 2) units
  have captures : y.IdleWith v := by
    unfold y State.when
    split
    · exact (State.keepCaptures_moves _ x).idleWith (by decide) (by decide) cals
    · exact cals
  refine State.settleUnloads_idle ((State.freeSlot_moves p _).idleWith (by decide) (by decide) ?_) p
  exact State.modSpin_idle captures p _

theorem State.refusedFenced_idle (h : s.IdleWith v) (p : PortId) : (s.refusedFenced p).IdleWith v := by
  unfold State.refusedFenced State.obedienceLost
  split
  · exact (State.raisePort_moves p 2 _).idleWith (by decide) (by decide) (State.dropPort_idle h p)
  · exact h

end

/-! ## A port taken out for an update (R668 steps 1 and 2) -/

/-- No side of a port is loaded, or on its way to be. -/
def State.sidesDown (p : PortId) (s : State) : Prop := ∀ y : Side, (s.act (actOf p y)).loaded = false ∧ (s.act (actOf p y)).loading = false

/-- A port on which nothing is under way has its sides down. -/
theorem State.sidesDown_of_quiet {s : State} {p : PortId} (quiet : ((fins 2).any fun y => (s.act (actOf p y)).loaded ||
    (s.act (actOf p y)).loading || (s.seq (actOf p y)).op.isSome || (s.acal (actOf p y)).brk.isSome ||
    (s.seq (actOf p y)).queue != []) = false) : s.sidesDown p := by
  intro y
  have still := List.any_eq_false.mp quiet y (List.mem_finRange y)
  simp only [Bool.or_eq_true, not_or, Bool.not_eq_true] at still
  obtain ⟨⟨⟨down, -⟩, -⟩, -⟩ := still
  exact down

theorem State.unloadSides_down {s : State} {p : PortId} (down : s.sidesDown p) : s.unloadSides p = s := by
  have none_ (y : Side) : s.when ((s.act (actOf p y)).loaded || (s.act (actOf p y)).loading) (State.unload (actOf p y)) = s := by
    rw [(down y).1, (down y).2]
    rfl
  have both : fins 2 = [0, 1] := rfl
  unfold State.unloadSides
  rw [both, State.each_cons, none_ 0, State.each_cons, none_ 1]
  rfl

theorem Port.removed_of_unqueued {x y : Port} (h : x.unqueued = y.unqueued) : x.removed = y.removed := by
  simpa [Port.unqueued] using congrArg Port.removed h

theorem State.leaveService_removed (p : PortId) (b : Bool) (s : State) : ((s.leaveService p b).port p).removed = (s.port p).removed := by
  have ended : ((s.each (fins 2) fun sd u => u.quiesce b (actOf p sd)).port p).unwritten = (s.port p).unwritten :=
    State.each_keeps (fun u : State => (u.port p).unwritten) (fun sd u => u.quiesce_unwritten b (actOf p sd) p) (fins 2) s
  rw [State.leaveService, State.noteService_port, State.modPort_port, if_pos rfl]
  simpa [Port.unwritten, Port.unqueued] using congrArg Port.removed ended

/-- A port whose sides are down is taken out at once. -/
theorem State.takeOut_down {v : Service} {s : State} {p : PortId} (idle : s.IdleWith v) (down : s.sidesDown p) :
    (s.takeOut p).IdleWith v ∧ (s.takeOut p).sidesDown p ∧ ((s.takeOut p).port p).removed = true ∧
    ((s.takeOut p).port p).inService = false ∧ (s.takeOut p).spin p = s.spin p := by
  let u := (s.endPortWork p).modPort p fun x => { x with removed := true }
  let w := u.leaveService p false
  have ended := s.endPortWork_moves p
  have left := u.leaveService_moves p false
  have idleU : u.IdleWith v := State.modPort_idle (ended.idleWith (by decide) (by decide) idle) p _
  have acts (a : ActId) : w.act a = s.act a := (left.act (by decide) a).trans ((State.modPort_act ..).trans (ended.act (by decide) a))
  have downW : w.sidesDown p := fun y => by rw [acts]; exact down y
  have out : s.takeOut p = w := State.unloadSides_down downW
  rw [out]
  refine ⟨State.leaveService_idle idleU p false, downW, ?_, State.leaveService_inService p false u,
    (left.spin (by decide) p).trans ((State.modPort_spin ..).trans (ended.spin (by decide) p))⟩
  rw [State.leaveService_removed, State.modPort_port, if_pos rfl]

/-- Its spindle coasts, unless the overvoltage latch brakes it, and the image is written. -/
theorem State.compUnloaded_leaves (c : CompFw) (s : State) : (∃ n off, (s.compUnloaded c).svc =
    { s.svc with comp := some { c with phase := 1, unloadAt := n, offset := off } }) ∧
    ((s.compUnloaded c).port c.port).unqueued = (s.port c.port).unqueued ∧
    ((s.spin c.port).ovLatched = false → ((s.compUnloaded c).spin c.port).st = .stopped) ∧
    ((s.compUnloaded c).spin c.port).ovLatched = (s.spin c.port).ovLatched := by
  let u := s.when (!(s.spin c.port).ovLatched) fun s => (s.coast c.port).modSpin c.port fun v => { v with
    st := .stopped, inLock := false, inReg := false, restart := v.turning || v.restart }
  let w := u.modSvc fun v => { v with comp := some { c with phase := 1, unloadAt := some u.now } }
  have coasts : u.svc = s.svc ∧ (u.port c.port).unqueued = (s.port c.port).unqueued ∧
      ((s.spin c.port).ovLatched = false → (u.spin c.port).st = .stopped) ∧
      (u.spin c.port).ovLatched = (s.spin c.port).ovLatched := by
    unfold u State.when
    split
    · refine ⟨(State.coast_moves c.port s).only .svc (by decide), ?_, fun _ => ?_, ?_⟩
      · rw [State.modSpin_port, State.coast_unqueued]
      · rw [State.modSpin_spin, if_pos rfl]
      · rw [State.modSpin_spin, if_pos rfl, State.coast_spin]
    next latched => exact ⟨rfl, rfl, fun free => absurd (by simp [free]) latched, rfl⟩
  obtain ⟨svc, port, stops, latch⟩ := coasts
  obtain ⟨⟨off, written⟩, queued⟩ := State.fwWrite_leaves (s := w) rfl 32 c.port
  have spin : (w.fwWrite 32).spin c.port = u.spin c.port := (w.fwWrite_moves 32).spin (by decide) c.port
  have run : s.compUnloaded c = w.fwWrite 32 := rfl
  rw [run, spin]
  refine ⟨⟨some u.now, off, ?_⟩, queued.trans port, stops, latch⟩
  have held : w.svc = { s.svc with comp := some { c with phase := 1, unloadAt := some u.now } } := by
    rw [← svc]
    rfl
  rw [written, held]

/-! ## COMP_FW (R668, R671) -/

section

variable {s : State} {tag : Byte} {p : PortId} {ret : Bool} {n : Nat} {d : Digest} (up : s.svcUp = true) (free : s.svc.busy = none)
include up free

theorem compFw_notOwned {force : Bool} (other : s.owns p = false ∨ (s.port p).train ≠ 9) : Does (.compFw tag p ret force n d) s fun t =>
    t.out = .reply 0x20 tag 4 [] :: s.out ∧ t.svc = s.svc ∧ t.names = s.names ∧ t.ports = s.ports := by
  refine refused_reply (congrArg Host.Outcome.next (State.request_lacks up free ?_))
  obtain other | untrained := other
  · simp [other]
  · simp [untrained]

variable (runs : s.fwRuns = true) (own : s.owns p = true) (trained : (s.port p).train = 9) (obeyed : (s.port p).obeyed = true)
  (some_ : 1 ≤ n) (most : n ≤ downloadSize)
include runs own trained obeyed some_ most

/-- The update that a COMP_FW begins. -/
def State.updateOf (s : State) (tag : Byte) (p : PortId) (ret : Bool) (n : Nat) (d : Digest) : CompFw :=
  { port := p, tag := tag, ret := ret, length := n, digest := d, offset := 0, phase := 0
    old := BitVec.ofNat 32 (field (s.port p).companion.measure 0 4), unloadAt := none }

/-- The state in which a COMP_FW is at work. -/
def State.updates (s : State) (tag : Byte) (p : PortId) (ret : Bool) (n : Nat) (d : Digest) : State :=
  s.wake.modSvc fun v => { v with busy := some tag, comp := some (s.wake.updateOf tag p ret n d) }

theorem compFw_begins (force : Bool) : exec (.compFw tag p ret force n d) s = .next (
    let c := s.wake.updateOf tag p ret n d
    let u := s.updates tag p ret n d
    if force = false ∧ u.atLimit p = true then u.compReply 1
    else
      let t := (u.takeOut p).settle
      if (fins 2).any fun sd => (t.act (actOf p sd)).loaded then t else t.compUnloaded c) :=
  congrArg Host.Outcome.next (State.request_served up free (by simp [runs, own, trained, obeyed]) (by simp [inRange, some_, most]))

theorem compFw_atLimit (limit : s.atLimit p = true) : Does (.compFw tag p ret false n d) s fun t => t.svc.comp = none ∧
    t.svc.busy = none ∧ t.port p = s.port p ∧ ∃ l, (.reply 0x20 tag 0 (1 :: l)) ∈ t.out := by
  let u := s.updates tag p ret n d
  obtain ⟨m, woken⟩ := s.wake_mem
  have here : u.atLimit p = true := by
    unfold u State.updates
    rw [woken]
    exact limit
  have ports : u.ports = s.ports := by
    unfold u State.updates
    rw [woken]
    rfl
  obtain ⟨comp, busy, kept, -, l, told⟩ := State.compReply_ends (s := u) 1 rfl
  refine ⟨u.compReply 1, ?_, comp, busy, State.port_of_ports (kept.trans ports) p, l, told⟩
  rw [compFw_begins up free runs own trained obeyed some_ most]
  exact congrArg Host.Outcome.next (if_pos ⟨rfl, here⟩)

theorem compFw_forced (idle : s.ctxs = []) (down : s.sidesDown p) : Does (.compFw tag p ret true n d) s fun t =>
    t.svc.busy = some tag ∧ (t.svc.comp.map fun q => (q.port, q.tag, q.phase, q.digest)) = some (p, tag, 1, d) ∧
    (t.port p).removed = true ∧ (t.port p).inService = false ∧ ((s.spin p).ovLatched = false → (t.spin p).st = .stopped) ∧
    (t.spin p).ovLatched = (s.spin p).ovLatched := by
  let c := s.wake.updateOf tag p ret n d
  let u := s.updates tag p ret n d
  obtain ⟨m, woken⟩ := s.wake_mem
  have base : u.ctxs = [] ∧ u.sidesDown p ∧ u.spin p = s.spin p := by
    unfold u State.updates
    rw [woken]
    exact ⟨idle, down, rfl⟩
  obtain ⟨none_, downU, spinU⟩ := base
  obtain ⟨idleOut, downOut, removed, out, spinOut⟩ := State.takeOut_down (v := u.svc) ⟨none_, rfl⟩ downU
  let t := (u.takeOut p).settle
  have settled := (u.takeOut p).settle_moves
  have port : t.port p = (u.takeOut p).port p := State.port_of_ports (settled.only .ports (by decide)) p
  have spin : t.spin p = s.spin p := (settled.spin (by decide) p).trans (spinOut.trans spinU)
  have svc : t.svc = u.svc := (settled.only .svc (by decide)).trans idleOut.svc
  have unloaded : ((fins 2).any fun sd => (t.act (actOf p sd)).loaded) = false := by
    rw [List.any_eq_false]
    intro y _
    rw [settled.act (by decide)]
    simp [(downOut y).1]
  have run : exec (.compFw tag p ret true n d) s = .next (t.compUnloaded c) := by
    rw [compFw_begins up free runs own trained obeyed some_ most]
    refine congrArg Host.Outcome.next ((if_neg fun h => Bool.noConfusion h.1).trans (if_neg ?_))
    exact ne_true_of_eq_false unloaded
  obtain ⟨⟨at_, off, written⟩, queued, stops, latch⟩ := t.compUnloaded_leaves c
  have same : c.port = p := rfl
  rw [same, spin] at stops latch
  rw [same, port] at queued
  refine ⟨_, run, ?_, ?_, (Port.removed_of_unqueued queued).trans removed, (Port.inService_of_unqueued queued).trans out, stops, latch⟩
  · rw [written, svc]
    rfl
  · rw [written]
    rfl

end

end Sys2Proof.Machine
end

section
/-! SUPPORT. The answers of a companion whose firmware is being updated, and every packet of the service port (spec/19 R668 to R671; spec/03
R729; O38). -/

namespace Sys2Proof.Machine

section

variable {s : State} {p : PortId} {r : Request} {k : Packet}

/-- The one request that was outstanding is closed by its answer; the lane stays up. -/
theorem State.hear_alone (alone : (s.port p).requests = [r]) : ((s.hear p r).port p).requests = [] := by
  simp [alone]

theorem State.hear_cmdUp : ((s.hear p r).port p).cmdUp = (s.port p).cmdUp := by
  simp

theorem State.hear_names (p : PortId) (r : Request) (s : State) : (s.hear p r).names = s.names := rfl

theorem State.asked_names (p : PortId) (op : Nat) (l : List Byte) (f : Service → Service) (s : State) :
    ((s.sendRequest p op l).modSvc f).names = s.names := rfl

theorem State.hear_idle (idle : s.ctxs = []) : (s.hear p r).IdleWith s.svc := ⟨idle, rfl⟩

/-! ## FW_WRITE_RESPONSE (R668 steps 3 and 4) -/

/-- What follows an answer to FW_WRITE, once it has been heard and a refusal noted. -/
def State.fwNext (p : PortId) (k : Packet) (s : State) : State := match s.compOf p 1 with
  | none => s
  | some c =>
    if k.status ≠ 0 then s.compEnd c 2
    else
      let s := s.fwWrite 32
      match s.compOf p 1 with
      | some c =>
        if c.length ≤ c.offset ∧ ((s.port p).request? 0x40).isNone = true then
          (s.sendRequest p 0x41 (digestBytes c.digest)).modSvc fun v => { v with comp := some { c with phase := 2 } }
        else s
      | none => s

/-- A good answer lets the next packets go, and FW_ACTIVATE after the last. -/
theorem State.fwNext_good {u : State} {q c : CompFw} (good : k.status = 0) (updates : u.svc.comp = some q) (port : q.port = p)
    (phase : q.phase = 1) (next : (u.fwWrite 32).svc.comp = some c) (samePort : c.port = p) (samePhase : c.phase = 1) : u.fwNext p k =
    if c.length ≤ c.offset ∧ (((u.fwWrite 32).port p).request? 0x40).isNone = true then
      ((u.fwWrite 32).sendRequest p 0x41 (digestBytes c.digest)).modSvc fun v => { v with comp := some { c with phase := 2 } }
    else u.fwWrite 32 := by
  have first : u.compOf p 1 = some q := port ▸ State.compOf_some updates phase
  have second : (u.fwWrite 32).compOf p 1 = some c := samePort ▸ State.compOf_some next samePhase
  unfold State.fwNext
  rw [first]
  dsimp only
  rw [if_neg (not_not.mpr good), second]

section

variable (hk : Answered s p 0x40 r k)
include hk

theorem fwWriteResponse_run : exec (.fwWriteResponse p) s =
    .next (((s.hear p r).when (k.status == 3) (State.refusedFenced p)).fwNext p k) :=
  congrArg Host.Outcome.next (State.takeAnswer_of hk _)

theorem fwWriteResponse_good (good : k.status = 0) : exec (.fwWriteResponse p) s = .next ((s.hear p r).fwNext p k) := by
  rw [fwWriteResponse_run hk, good]
  rfl

variable {q : CompFw} (update : s.svc.comp = some q) (port : q.port = p) (phase : q.phase = 1)
include update port phase

theorem fwWriteResponse_activates (good : k.status = 0) (all : q.length ≤ q.offset) (alone : (s.port p).requests = [r])
    (up : (s.port p).cmdUp = true) : Does (.fwWriteResponse p) s fun t =>
    (t.svc.comp.map fun y => (y.phase, y.port, y.digest)) = some (2, p, q.digest) ∧ ((t.port p).requests.any fun y =>
    y.packet.opcode == 0x41 && y.packet.payload == digestBytes q.digest) = true ∧ t.names = s.names := by
  let u := s.hear p r
  have empty : (u.port p).requests = [] := State.hear_alone alone
  have lane : (u.port p).cmdUp = true := State.hear_cmdUp.trans up
  have updates : u.svc.comp = some q := update
  have done : u.fwWrite 32 = u := State.fwWrite_done updates all 32
  have next := State.fwNext_good good updates port phase (c := q) (by rw [done]; exact updates) port phase
  let w := (u.sendRequest p 0x41 (digestBytes q.digest)).modSvc fun v => { v with comp := some { q with phase := 2 } }
  have gone : (u.port p).request? 0x40 = none := by
    rw [Port.request?, empty]
    rfl
  have run : exec (.fwWriteResponse p) s = .next w := by
    rw [fwWriteResponse_good hk good, next, done, if_pos ⟨all, by rw [gone]; rfl⟩]
  obtain ⟨x, requests, opcode, payload⟩ := State.sendRequest_requests lane empty 0x41 (digestBytes q.digest)
  have outstanding : (w.port p).requests = [x] := requests
  have comp : w.svc.comp = some { q with phase := 2 } := rfl
  have names : w.names = s.names := (State.asked_names ..).trans (State.hear_names p r s)
  clear_value w
  refine ⟨w, run, ?_, ?_, names⟩
  · rw [comp, Option.map_some, port]
  · rw [outstanding]
    simp [opcode, payload]

theorem fwWriteResponse_writes (good : k.status = 0) (more : q.offset < q.length) (last : q.length ≤ q.offset + 220)
    (alone : (s.port p).requests = [r]) (up : (s.port p).cmdUp = true) : Does (.fwWriteResponse p) s fun t =>
    (t.svc.comp.map fun y => (y.phase, y.port, y.offset)) = some (1, p, q.length) ∧ ((t.port p).requests.any fun y =>
    y.packet.opcode == 0x40 && y.packet.payload == s.fwChunk q.offset q.length) = true ∧ t.names = s.names := by
  let u := s.hear p r
  have empty : (u.port p).requests = [] := State.hear_alone alone
  have lane : (u.port p).cmdUp = true := State.hear_cmdUp.trans up
  have updates : u.svc.comp = some q := update
  let w := (u.sendRequest p 0x40 (u.fwChunk q.offset q.length)).modSvc fun v => { v with comp := some { q with offset := q.length } }
  have written : u.fwWrite 32 = w := by
    rw [State.fwWrite_last updates more last (port.symm ▸ empty) 31]
    unfold w
    rw [port]
  obtain ⟨x, requests, opcode, payload⟩ := State.sendRequest_requests lane empty 0x40 (u.fwChunk q.offset q.length)
  have outstanding : (w.port p).requests = [x] := requests
  have next := State.fwNext_good good updates port phase (c := { q with offset := q.length }) (by rw [written]; rfl) port phase
  have run : exec (.fwWriteResponse p) s = .next w := by
    rw [fwWriteResponse_good hk good, next, written, if_neg (by rw [Port.request?, outstanding]; simp [opcode])]
  have comp : w.svc.comp = some { q with offset := q.length } := rfl
  have names : w.names = s.names := (State.asked_names ..).trans (State.hear_names p r s)
  have chunk : u.fwChunk q.offset q.length = s.fwChunk q.offset q.length := rfl
  clear_value w
  refine ⟨w, run, ?_, ?_, names⟩
  · rw [comp, Option.map_some, port, phase]
  · rw [outstanding]
    simp [opcode, payload, chunk]

theorem fwWriteResponse_refused (bad : k.status ≠ 0) (stays : q.ret = false) (idle : s.ctxs = []) : Does (.fwWriteResponse p) s fun t =>
    t.svc.comp = none ∧ t.svc.busy = none ∧ ∃ l, (.reply 0x20 q.tag 0 (2 :: l)) ∈ t.out := by
  let u := (s.hear p r).when (k.status == 3) (State.refusedFenced p)
  have heard : u.IdleWith s.svc := by
    unfold u State.when
    split
    · exact State.refusedFenced_idle (State.hear_idle idle) p
    · exact State.hear_idle idle
  have updates : u.svc.comp = some q := by rw [heard.svc]; exact update
  obtain ⟨comp, busy, -, l, told⟩ := State.compEnd_ends 2 updates stays
  have first : u.compOf p 1 = some q := port ▸ State.compOf_some updates phase
  refine ⟨u.compEnd q 2, ?_, comp, busy, l, told⟩
  rw [fwWriteResponse_run hk]
  refine congrArg Host.Outcome.next ?_
  show u.fwNext p k = _
  unfold State.fwNext
  rw [first]
  exact if_pos bad

end

/-! ## FW_ACTIVATE_RESPONSE (R668 step 5, R670; spec/03 R729) -/

/-- What follows an answer to FW_ACTIVATE: the companion is measured. -/
def State.fwMeasure (p : PortId) (s : State) : State := match s.compOf p 2 with
  | some c => (s.sendRequest p 0x03 []).modSvc fun v => { v with comp := some { c with phase := 3 } }
  | none => s

theorem State.fwMeasure_moves (p : PortId) (s : State) : s.Moves [.ports, .svc] (s.fwMeasure p) := by
  unfold State.fwMeasure
  split
  · exact State.modSvc_moves (fun _ => ⟨rfl, rfl⟩) (by decide) (Moves.op (State.sendRequest_moves ..) (by decide) (Moves.refl _ s))
  · exact Moves.refl _ s

theorem State.fwMeasure_unqueued (p : PortId) (s : State) : ((s.fwMeasure p).port p).unqueued = (s.port p).unqueued := by
  unfold State.fwMeasure
  split
  · exact s.sendRequest_unqueued ..
  · rfl

variable (hk : Answered s p 0x41 r k)
include hk

theorem fwActivateResponse_run : exec (.fwActivateResponse p) s =
    .next (((s.hear p r).when (k.status == 3) (State.refusedFenced p)).fwMeasure p) :=
  congrArg Host.Outcome.next (State.takeAnswer_of hk _)

theorem fwActivateResponse_measures {q : CompFw} (taken : k.status ≠ 3) (update : s.svc.comp = some q) (port : q.port = p)
    (phase : q.phase = 2) (alone : (s.port p).requests = [r]) (up : (s.port p).cmdUp = true) : Does (.fwActivateResponse p) s fun t =>
    (t.svc.comp.map fun y => (y.phase, y.port)) = some (3, p) ∧ ((t.port p).requests.any fun y => y.packet.opcode == 3) = true ∧
    t.names = s.names := by
  let u := s.hear p r
  obtain ⟨x, requests, opcode, -⟩ := State.sendRequest_requests (s := u) (State.hear_cmdUp.trans up) (State.hear_alone alone) 0x03 []
  have found : u.compOf p 2 = some q := port ▸ State.compOf_some (s := u) update phase
  let w := (u.sendRequest p 0x03 []).modSvc fun v => { v with comp := some { q with phase := 3 } }
  have next : u.fwMeasure p = w := by
    unfold State.fwMeasure
    rw [found]
  have heard : (s.hear p r).when (k.status == 3) (State.refusedFenced p) = u := if_neg (by simpa using taken)
  have run : exec (.fwActivateResponse p) s = .next w := by rw [fwActivateResponse_run hk, heard, next]
  have outstanding : (w.port p).requests = [x] := requests
  have comp : w.svc.comp = some { q with phase := 3 } := rfl
  have names : w.names = s.names := (State.asked_names ..).trans (State.hear_names p r s)
  clear_value w
  refine ⟨w, run, ?_, ?_, names⟩
  · rw [comp, Option.map_some, port]
  · rw [outstanding]
    simp [opcode]

theorem fwActivateResponse_fenced (fenced : k.status = 3) (obeyed : (s.port p).obeyed = true) : Does (.fwActivateResponse p) s fun t =>
    (t.port p).obeyed = false ∧ (t.port p).events.getLsbD 2 = true ∧ t.names = s.names := by
  let u := s.hear p r
  have still : (u.port p).obeyed = true := by simp [u, obeyed]
  obtain ⟨lost, marked⟩ := u.obedienceLost_port p
  let w := u.obedienceLost p
  have refused : (s.hear p r).when (k.status == 3) (State.refusedFenced p) = w := by
    rw [fenced]
    exact if_pos still
  have port := w.fwMeasure_unqueued p
  refine ⟨w.fwMeasure p, ?_, ?_, ?_, ?_⟩
  · rw [fwActivateResponse_run hk, refused]
  · exact Eq.trans (by simpa [Port.unqueued] using congrArg Port.obeyed port) lost
  · rw [show ((w.fwMeasure p).port p).events = (w.port p).events by simpa [Port.unqueued] using congrArg Port.events port]
    exact marked
  · exact ((w.fwMeasure_moves p).only .names (by decide)).trans ((u.obedienceLost_moves p).only .names (by decide))

end

/-! ## COMP_FW_ABANDON (R669) -/

theorem compFwAbandon_ends {s : State} {q : CompFw} {n : Nat} (update : s.svc.comp = some q) (unload : q.unloadAt = some n)
    (early : q.phase ≠ 3) (stays : q.ret = false) : Does (.compFwAbandon) s fun t => t.svc.comp = none ∧ t.svc.busy = none ∧
    n + 40 * Config.sec ≤ t.now ∧ ∃ l, (.reply 0x20 q.tag 0 (3 :: l)) ∈ t.out := by
  let u := (s.at_ (n + 40 * Config.sec)).modPort q.port fun x => { x with
    normal := x.normal.filter fun q => q.2.opcode != 0x41 && q.2.opcode != 0x40 }
  obtain ⟨comp, busy, later, l, told⟩ := State.compEnd_ends (s := u) 3 update stays
  have reached : n + 40 * Config.sec ≤ u.now := Nat.le_max_right _ _
  refine ⟨u.compEnd q 3, congrArg Host.Outcome.next ?_, comp, busy, reached.trans later, l, told⟩
  rw [update]
  dsimp only
  rw [unload]
  exact if_neg early

/-! ## The statement on the packets of the service port -/

/-- Settles O38: each clause is the lemma of its packet, or of the answer to it. -/
theorem servicePacketCommands : Obligations.ServicePacketCommands := by
  unfold Obligations.ServicePacketCommands
  exact ⟨fun _ _ _ _ up free runs _ _ _ aligned clear running none_ one => windowRead_answers up free runs aligned clear running none_ one,
    fun _ _ _ _ up busy => windowRead_busy up busy, fun _ _ _ _ up free lacks => windowRead_lacks up free lacks,
    fun _ _ _ _ up free runs bad => windowRead_badLength up free runs bad,
    fun _ _ _ _ up free runs aligned clear running => windowWrite_writes up free runs aligned clear running,
    fun _ _ _ _ up free known => configRead_answers up free known, fun _ _ _ up free unknown => configRead_unknown up free unknown,
    fun _ _ _ _ up free ok limit holdup => configWrite_stores up free ok limit holdup,
    fun _ _ _ _ up free bad => configWrite_refused up free bad,
    fun _ tag running _ steady warm => deviceReset_resets tag running steady warm,
    fun _ _ _ _ up free runs some_ most inside => bufferWrite_writes up free runs some_ most inside,
    fun _ _ _ _ up free runs bad => bufferWrite_refused up free runs bad,
    fun _ _ _ _ up free waits some_ most inside => recoveryWrite_writes up free waits some_ most inside,
    fun _ _ _ up free waits most => recoveryRun_judges up free waits most,
    fun _ _ _ up free runs allowed => admin_admits up free runs allowed, fun _ _ _ up free runs other => admin_refused up free runs other,
    fun _ _ _ _ force _ _ up free runs own trained obeyed some_ most unforced limit => by
      rw [unforced]
      exact compFw_atLimit up free runs own trained obeyed some_ most limit,
    fun _ _ _ _ _ _ up free runs own trained obeyed some_ most down idle _ _ =>
      compFw_forced up free runs own trained obeyed some_ most idle (State.sidesDown_of_quiet down),
    fun _ _ _ _ _ _ _ up free _ other => compFw_notOwned up free other,
    fun _ _ _ _ _ hk update port phase good all alone up => fwWriteResponse_activates hk update port phase good all alone up,
    fun _ _ _ _ _ hk update port phase bad stays idle _ _ => fwWriteResponse_refused hk update port phase bad stays idle,
    fun _ _ _ _ _ hk taken update port phase alone up => fwActivateResponse_measures hk taken update port phase alone up,
    fun _ _ _ _ hk fenced obeyed => fwActivateResponse_fenced hk fenced obeyed,
    fun _ _ _ update unload early stays _ _ _ => compFwAbandon_ends update unload early stays,
    fun _ _ _ _ _ hk update port phase good more last alone up => fwWriteResponse_writes hk update port phase good more last alone up⟩

end Sys2Proof.Machine
end
